-- ==== Sys2Proof/Word.lean ====
section
/-! DEFINITION. The words of the part: a byte, a 32-bit commit word, a 64-bit register. -/

namespace Sys2Proof

/-- A byte of a window, a memory or a record. -/
abbrev Byte := BitVec 8

/-- A 64-bit register of the control window (R13). -/
abbrev Word := BitVec 64

/-- The bytes of one write, lane by lane from its lowest address; `none` is a lane whose byte enable is off (R259). -/
abbrev Lanes := List (Option Byte)

/-- A 256-bit object key as its 32 bytes, byte 0 first (R329). -/
abbrev Key := List Byte

end Sys2Proof
end

