-- ==== Sys2Proof/Syntax.lean ====
section
/-! DEFINITION. The commands of the block: one constructor per row of spec/opcode_table.json. The table gives no operands, so the operands are the model's: what the world outside the part (host, drives, partner, board, firmware schedule) decides in that step (log entry 5). -/

namespace Sys2Proof

/-- A closer's verdict (R48): close number, engine cycles counted, highest record sequence, digest of the cut. -/
structure Verdict where
  close : Nat
  cycles : Nat
  highest : Nat
  digest : BitVec 32
  deriving DecidableEq, Repr

/-- What is sampled when PWRGD rises (R24, R467, R471) and which closers pass their built-in test (R52). -/
structure PowerOn where
  bootSlot : Bool
  chainHead : Bool
  smbAddr : Nat
  testEn : Bool
  railsInTolerance : Bool
  closersPass : List Bool
  deriving DecidableEq, Repr

/-- The finding of one DRAM channel at step 4 (R477). -/
inductive DramFinding where
  | notFitted
  | failed
  | trained (gib : Nat)
  deriving DecidableEq, Repr

/-- A completion of a device read of host memory (R248): of a ring's head shadow or of a courier channel. -/
inductive HostRead where
  | shadow (ring : Nat) (value : Nat)
  | shadowTimeout (ring : Nat)
  | channel (n : Nat) (bytes : List Byte)
  | channelError (n : Nat)
  | channelTimeout (n : Nat)
  deriving DecidableEq, Repr

/-- The three host windows (R235). -/
inductive Window where
  | wicket | control | vector
  deriving DecidableEq, Repr

/-- A memory request of the host (R237): a read of `len` bytes or a write of lanes. -/
inductive MemReq where
  | rd (win : Window) (off : Nat) (len : Nat)
  | wr (win : Window) (off : Nat) (data : Lanes)
  deriving DecidableEq, Repr

/-- Causes that wake a Dormant part (R256). -/
inductive WakeCause where
  | tally | sensor | ledger
  deriving DecidableEq, Repr

/-- The two tally paths (R388). -/
inductive Path where
  | chain | heartbeat
  deriving DecidableEq, Repr

/-- A control message of the chain (R381), 16 bytes. -/
structure CtlMsg where
  typ : Nat
  src : Nat
  dst : Nat
  /-- bytes 4–15 -/
  body : List Byte
  deriving DecidableEq, Repr

/-- A chain frame as it arrives (R374): its lane checks, number, header slots, tally slot, control slot, payload words by slot. -/
structure Frame where
  goodChecks : Bool
  /-- the active lanes whose check failed -/
  badLanes : List Nat
  number : Nat
  headers : List (Nat × Nat)
  tallies : List (Nat × Nat)
  control : Option CtlMsg
  /-- (slot, 64-byte word) for each filled slot -/
  payload : List (Nat × List Byte)
  deriving DecidableEq, Repr

/-- A Negotiate message (R381 type 5). -/
structure NegotiateMsg where
  role : Nat
  current : Bool
  epoch : Nat
  serial : Nat
  deriving DecidableEq, Repr

/-- A posting descriptor (R197). -/
structure Posting where
  index : Nat
  program : Nat
  inputs : List Nat
  dests : List Nat
  bases : List (Option Nat)
  length : Nat
  estimate : Nat
  hold : Nat
  pred : Option Nat
  work : Nat
  home : Nat
  piece : Bool
  reissue : Bool
  promoted : Bool
  /-- coefficients, input-major: one list of six per input -/
  coeffs : List (List Nat)
  crcGood : Bool
  deriving DecidableEq, Repr

/-- One access of a port to scratch in one scratch cycle (R219, R220). -/
structure ScrAccess where
  port : Nat
  addr : Nat
  /-- bytes to write with their enables; `none` is a read -/
  write : Option Lanes
  len : Nat
  /-- what the ECC of the words read finds: 0 nothing, 1 a corrected error and 2 an uncorrectable one in the first word, 3 and 4 in the second (R222) -/
  ecc : Nat
  deriving DecidableEq, Repr

/-- Sense handling of a completed member command (R356). -/
inductive Sense where
  | good | recovered | becomingReady | unitAttention | aborted | medium | hardware | other | reservationConflict
  deriving DecidableEq, Repr

/-- What an uncorrectable ledger word holds (R132). -/
inductive LedgerWord where
  | twoCopyArea
  | record (seq : Nat) (firstBlock : Nat) (blocks : Nat)
  | daybook (seq : Nat)
  deriving DecidableEq, Repr

/-- A drive found by discovery (R352–R354). -/
structure FoundDrive where
  enclosure : Nat
  slot : Nat
  serial : Nat
  sasAddr : Nat
  capacity : Nat
  logicalBlock : Nat
  physicalBlock : Nat
  protection : Bool
  sata : Bool
  ports : Nat
  deriving DecidableEq, Repr

/-- A retrim result (R369): eye height mV, eye width in hundredths of a UI, CTLE dB, tap limits held, converged. -/
structure Retrim where
  eyeMv : Nat
  eyeUi : Nat
  ctleDb : Nat
  tapsInRange : Bool
  converged : Bool
  deriving DecidableEq, Repr

/-- One sample of every sensor (R411): die and ledger temperatures in 1/8 °C, rails in mV and mA, input power in mW. -/
structure Samples where
  die : List Int
  ledger : List Int
  railMv : List Nat
  railMa : List Nat
  powerMw : Nat
  deriving DecidableEq, Repr

/-- A base control message of MCTP (R417). -/
inductive MctpControl where
  | setEid (eid : Nat)
  | getEid
  | getVersion
  | getTypes
  deriving DecidableEq, Repr

/-- JTAG instructions (R478). -/
inductive JtagInstr where
  | bypass | idcode | samplePreload | extest | clamp | highz | extestPulse | extestTrain
  deriving DecidableEq, Repr

/-- The bits of a daybook trigger that the firmware port or a hardware source gives (R418, R480). -/
structure Trigger where
  kind : Nat
  cause : Nat
  arg : Nat
  detail : List Byte
  alert : Bool
  deriving DecidableEq, Repr

/-- How a position of a member is named: layout, row, and which chunk. -/
inductive ChunkId where
  | d (col : Nat) | p (group : Nat) | q (group : Nat) | g (t : Nat)
  deriving DecidableEq, Repr

/-- The commands of the block, one per row of opcode_table.json. -/
inductive Instr where
  | pwrgdRise (p : PowerOn)
  | pwrgdFall (holdUp : Bool)
  | firmwareChoice (a b : DramFinding) (failing : List Nat)
  | linkTrainingRelease
  | chainEnumerationEnd (lap : Nat)
  | chainEnumerationTimeout
  | ledgerRecovery (readable : Bool)
  | registryQuorumCheck (agree short : List Nat)
  | registryQuorumRetry (agree short : List Nat)
  | columnVerification (layout : Nat)
  | pairNegotiation
  | negotiationWaitExpiry
  | fuseAdvance
  | perstAssert (ns : Nat)
  | perstDeassert (closersPass : List Bool)
  | closeBoundary
  | cut (errs : List (Nat × Verdict))
  | vote
  | bookEntryIssue
  | bookEntryComplete
  | bookSkipped
  | quietSliceStart
  | bookReadback (good : Bool)
  | bookRewrite
  | headerWrite (w off : Nat) (data : Lanes)
  | commit (t w off : Nat) (data : Lanes)
  | quietCommitTake (w : Nat)
  | apertureWrite (w off : Nat) (data : Lanes)
  | payloadLedgerWrite (w n : Nat)
  | ledgerRoomFreed
  | read (tag : Nat)
  | write (tag : Nat)
  | verify (tag : Nat)
  | release (tag : Nat)
  | closeWait (tag : Nat)
  | readWaitEnd (tag : Nat)
  | identify (tag : Nat)
  | getLog (tag : Nat)
  | getFeature (tag : Nat)
  | setFeature (tag : Nat)
  | fwDownload (tag : Nat) (flashGood : Bool)
  | fwCommit (tag : Nat) (flashGood : Bool)
  | fwAbandon (tag : Nat) (flashGood : Bool)
  | reshapeStart (tag : Nat)
  | reshapePause (tag : Nat)
  | reshapeResume (tag : Nat)
  | reshapeCancel (tag : Nat)
  | power (tag : Nat)
  | groupWindowRequest (tag : Nat)
  | groupWindowRelease (tag : Nat)
  | groupWindowDeadline (tag : Nat)
  | hostTimeMark (tag : Nat)
  | audit (tag : Nat)
  | putBegin (tag : Nat)
  | putData (tag : Nat)
  | putEnd (tag : Nat)
  | get (tag : Nat)
  | stat (tag : Nat)
  | list (tag : Nat)
  | sealObject (tag : Nat)
  | delete (tag : Nat)
  | auditObject (tag : Nat)
  | sessionIdleExpiry (session : Nat)
  | backgroundAudit (vault : Nat)
  | digestMismatchRepair (vault : Nat) (key : Key)
  | vaultTimeTick (vault : Nat)
  | queueResetRequest (w : Nat) (all : Bool)
  | ringEntryWrite (ring : Nat)
  | parkedNotice (tag : Nat)
  | irqDelayExpiry (ring : Nat)
  | retHeadWrite (ring value : Nat)
  | ringEnableSet (ring : Nat)
  | ringEnableClear (ring : Nat)
  | creditBaseEnable (addr : Nat)
  | interruptModeChange (msix msi intxDisable : Bool) (mme : Nat)
  | vectorUnmask (vector : Nat)
  | intPendingClear (rings : BitVec 64) (mgmt : BitVec 10)
  | intTestFire (source : Nat)
  | functionLevelReset
  | hotReset
  | resetComplete
  | busMasterClear
  | busMasterSet
  | hostReadCompletion (r : HostRead)
  | memoryRequest (m : MemReq)
  | configAccess (off : Nat) (write : Option Nat)
  | d3hotWrite
  | dormantEntry
  | d0Write
  | restEntry
  | entryDeadlineExpiry
  | wakeCause (c : WakeCause)
  | aspmL1Entry (idleNs : Nat) (substate : Bool)
  | confirm (seq : Nat)
  | bookHeld (close : Nat)
  | releaseNotice (seq : Nat)
  | postedNotice (tag ring seq : Nat)
  | negotiate (n : NegotiateMsg)
  | token (map units : Nat)
  | laneSwap (dir lane frame : Nat)
  | laneSwapFrame (dir lane frame : Nat)
  | laneCheckLimit (dir lane : Nat)
  | streamFrameArrival (dir : Nat) (f : Frame)
  | streamFrameReturn (dir : Nat) (f : Frame)
  | controlMessageReturn (m : CtlMsg)
  | chainLinkTraining (dir : Nat) (lanesUp : List Nat)
  | tallyReceipt (path : Path) (count state serial : Nat) (good : Bool)
  | pathAlarm (path : Path)
  | partnerFailed
  | failedTally (path : Path)
  | detachDelayExpiry
  | detached
  | preemptCompletion (pos : Nat) (success : Bool)
  | witnessRecordWrite (pos : Nat)
  | arbitrationWin
  | arbitrationLoss
  | arbitrationTimeout
  | arbitrationRetry
  | talliesResume
  | takeoverDecision
  | join
  | bulkEnd
  | joinCurrent
  | auditMark (volume : Option Nat)
  | auditDigest (digests : List (Nat × Nat)) (mapDigest : Nat) (witnessInForce : Nat)
  | chainCalibration (dir lane : Nat) (r : Retrim)
  | holdoffExpiry (layout row : Nat)
  | stripeReadComplete (work : Nat)
  | stripeWriteComplete (work : Nat)
  | admissionCheckpoint
  | periodicCheckpoint
  | checkpointComplete (acks : List Nat)
  | checkpointFailure
  | mapBitSet (work : Nat)
  | regionTableFreed
  | resynchronisation (volume region : Nat)
  | ledgerCorrectedEvent (block : Nat)
  | ledgerUncorrectableEvent (block : Nat) (what : LedgerWord)
  | ledgerBlockRetirement (block : Nat)
  | wearMove (block : Nat)
  | senseReferenceTrim (marginMv shiftMv : Nat) (finished : Bool)
  | postingPush (p : Posting)
  | postingTake (x t : Nat)
  | steal (x t : Nat)
  | postingFinish (x t : Nat)
  | parityError (x : Nat)
  | tellerSelfTest (pass : Bool)
  | holdRequest (work : Nat)
  | holdRelease (work : Nat)
  | branchGating (b : Nat)
  | scratchAccess (accs : List ScrAccess)
  | bankRetirement (bank : Nat)
  | bankRetention (bank : Nat)
  | sweepStep (t : Nat) (needed : List Nat) (faultAt : Option Nat)
  | planReady (layout : Nat) (erased : List ChunkId)
  | planFlush
  | planUnpin (layout : Nat) (erased : List ChunkId)
  | memberCommandCompletion (cmd : Nat) (sense : Sense) (data : List Byte)
  | memberTimeout (cmd : Nat)
  | suspectPoll (member : Nat)
  | suspectLimitExpiry (member : Nat)
  | discoveryMissingExpiry (member : Nat)
  | lateRead (cmd : Nat) (data : List Byte)
  | mediaRepair (member layout row : Nat) (chunk : ChunkId) (position : Nat)
  | poolUpdateComplete (layout pool : Nat) (acks : List Nat)
  | rebuildPassStart (layout pool : Nat)
  | rowRestore (pass : Nat)
  | replacementDiscovered (member : Nat) (d : FoundDrive) (checksPass : Bool)
  | registryRehome (member : Nat)
  | lossEntriesDurable (find : Nat) (acks : List Nat)
  | sealRow (layout row position : Nat)
  | lossAreaFull
  | localScrub (layout row group : Nat) (chunks : List (ChunkId × List Byte))
  | globalScrubBatch (layout row : Nat) (chunks : List (ChunkId × List Byte))
  | reshapeRecordAck (slot : Nat) (acks : List Nat)
  | deviceStartedReshape (volume : Nat)
  | regionCopy (slot : Nat)
  | closingEnd (group : Nat)
  | shelfPowerOk (group : Nat) (allOk : Bool)
  | staggerStep (group : Nat)
  | groupReady (group : Nat)
  | spinUpLimitExpiry (group : Nat)
  | groupDown (group : Nat)
  | broadcastChange
  | discoveryRunEnd (drives : List FoundDrive) (expanders enclosures beyond : Nat)
  | sasRetrim (lane : Nat) (r : Retrim)
  | retrimDeferral (lane : Nat)
  | sasLaneFlag (lane : Nat)
  | sasLaneNotUp (lane : Nat)
  | watchdogExpiry (core : Nat) (slotPasses : Bool)
  | operatingTimeTick
  | sensorSample (v : Samples)
  | smbusSetAddress (addr : Nat)
  | smbusRead
  | smbusWrite (value : BitVec 64)
  | smbusResult
  | smbusPecError
  | alertResponse
  | mctpControlMessage (m : MctpControl)
  | mctpVendorRead (addr : Nat)
  | mctpVendorWrite (addr : Nat) (value : BitVec 64)
  | daybookTrigger (t : Trigger)
  | daybookRecordWrite
  | coalesce
  | alertAck
  | dbkCursorWrite (smbus : Bool) (value : BitVec 64)
  | fuseProgram (verifyGood : Bool)
  | fuseRevoke
  | flashErase (good : Bool)
  | flashProgram (good : Bool)
  | flashRead (good : Bool)
  | flashOperationEnd
  | courierStart (ch : Nat)
  | courierSlotWrite (ch slot reg : Nat) (value : BitVec 64)
  | shadowArm (ch : Nat)
  | shadowWrite (ch slot reg : Nat) (value : BitVec 64)
  | maintenanceEnter (arm : Nat)
  | maintenanceExit (arm : Nat)
  | burstGrant (t : Nat) (ready : List Nat)
  | slotComplete (ch : Nat)
  | slotFault (ch code : Nat)
  | mapLookup (id addr way ecc : Nat)
  | mapFillReturn (addr : Nat)
  | mapEntryChange (addr : Nat) (entry : List Byte)
  | mapInvalidateLine
  | mapInvalidateAll
  | dramEccEvent (row : Nat) (correctable : Bool)
  | dramRowRepair (row : Nat) (resource : Bool)
  | retirementFuse (element number : Nat)
  | pllLockLoss (ns : Nat)
  | jtagInstructionLoad (j : JtagInstr)
  | registerReadClear (addr size : Nat)
  | registerWrite (addr : Nat) (data : Lanes)
  | linkUp (rate width : Nat) (flit : Bool)
  | sasLaneUp (lane rate : Nat)
  | sasLaneDown (lane : Nat)
  | hbSymbolLock (locked : Bool)
  | fuseOperationEnd
  | firmwareRestartEnd
  | spinUpPoll (member : Nat) (ready : Bool)
  | notReadyRetry (cmd : Nat)
  | hostClaimEnd (group : Nat)
  | vaultIndexWalkEnd (vault : Nat) (goodCopies : List Nat)
  deriving DecidableEq, Repr

end Sys2Proof
end

