-- ==== Sys2Proof/Decode.lean ====
section
/-! DEFINITION. Command words. The table of this block gives no row any bits: a command is an event outside the part, not a word that it fetches, so no word spells one. -/

namespace Sys2Proof

/-- The command that a word of the table spells: none, for the table gives no bits. -/
def decodeTableWord (_nbits _w : Nat) : Option Instr := none

end Sys2Proof
end

