-- ==== Sys2Proof/Config.lean ====
section
/-! DEFINITION. What the spec fixes for an implementation without giving the value (log entry 8), and the free values (log entry 10). -/

namespace Sys2Proof.Config

/-- Kerari's PCI-SIG vendor identifier, fused at manufacture (R230); the spec gives no number. -/
opaque vendorId : BitVec 16
/-- Silicon stepping (R230); the spec gives no number. -/
opaque stepping : BitVec 8
/-- The first of the four consecutive SAS addresses (R349); the spec gives no number. -/
opaque sasAddressBase : BitVec 64
/-- The two firmware key digests fixed in the boot ROM (R21); the spec gives no value. -/
opaque firmwareKeyDigest : Nat → BitVec 384
/-- Firmware version text, 64 bytes (R304); its form is set by the image. -/
opaque firmwareText : Nat → BitVec 8
/-- The 32-bit digest of the list of records in a cut (R48); the spec does not give the function. -/
opaque cutDigest : List Nat → BitVec 32
/-- The hash of a row (layout, row) to a generation counter (R205); the spec does not give the function. -/
opaque rowHash : Nat → Nat → Nat
/-- Whether the DRAM read cache still holds a block that a read delivered: (close, volume, block). The spec names the cache
and gives neither its filling nor its discarding (free, log entry 10). -/
opaque readCacheHolds : Nat → Nat → Nat → Bool
/-- A free value: the n-th value the spec leaves open in a run. -/
opaque freeValue : Nat → BitVec 64

end Sys2Proof.Config
end

