-- ==== Sys2Proof/Machine/State.lean ====
section
/-! DEFINITION. The state of the part as plain data: every register, FIFO, buffer, counter, mode and pin the spec gives it, and the queue of waiting commands. Close numbers and counts are Nat and are shown in registers at the width the spec gives (log entry 7). -/

namespace Sys2Proof.Machine

/-- Sparse bytes: (address, byte) cells, addresses strictly rising, no cell equal to what an unlisted address reads as. -/
abbrev Cells := List Host.Cell

/-- A sparse table by number. -/
abbrev Tbl (α : Type) := List (Nat × α)

/-! ### The charter (R22) -/

/-- A group pool or keystone pool of a layout (R171). -/
structure Pool where
  width : Nat
  members : List Nat
  step : Nat
  powerGroup : Nat
  hotSpares : List Nat
  columns : List Nat
  deriving DecidableEq, Repr

/-- A layout of the book (R170). -/
structure Layout where
  index : Nat
  globals : Nat
  chunkLog : Nat
  spare : Nat
  fallback : Nat
  areaOffset : Nat
  areaSlots : Nat
  name : List Byte
  groups : List Pool
  keystones : List Pool
  /-- the bytes of the entry as the book holds it, for IDENTIFY structure 3 (R303) -/
  raw : List Byte
  deriving DecidableEq, Repr

/-- A volume entry (R89). -/
structure VolumeDef where
  volume : Nat
  kind : Nat
  layout : Nat
  bandLog : Nat
  flags : Nat
  capacity : Nat
  name : List Byte
  raw : List Byte
  deriving DecidableEq, Repr

/-- A power-group entry of section 0x0006 (R367). -/
structure GroupDef where
  group : Nat
  shelfPower : Bool
  batch : Nat
  memberTimeout : Nat
  spinUpLimit : Nat
  spinDown : Nat
  deriving DecidableEq, Repr

/-- A member entry of section 0x0006 (R367). -/
structure MemberDef where
  member : Nat
  group : Nat
  slot : Nat
  enclosure : Nat
  deriving DecidableEq, Repr

/-- A wide-port entry of section 0x0006 (R367). -/
structure PortDef where
  lanes : Nat
  reserves : Nat
  maxRate : Nat
  deriving DecidableEq, Repr

/-- A feature envelope (R310, R311). -/
structure Envelope where
  id : Nat
  min : Nat
  max : Nat
  dflt : Nat
  deriving DecidableEq, Repr

/-- A daybook trigger entry of section 0x000B (R419). -/
structure KindDef where
  kind : Nat
  disable : Bool
  alert : Bool
  words : List Nat
  deriving DecidableEq, Repr

/-- A vault entry of section 0x000D (R325). -/
structure VaultDef where
  volume : Nat
  objectLimit : Nat
  deriving DecidableEq, Repr

/-- The charter in use: every section of R22 as fields. -/
structure Charter where
  seq : Nat
  secVersion : Nat
  keyIndex : Nat
  floor : Nat
  /-- SHA-384 of the body, 48 bytes (CHR_DIGEST0–5) -/
  digest : List Byte
  -- 0x0001 (R229)
  units : Nat
  subVendor : Nat
  subId : Nat
  serial0 : Nat
  serial1 : Nat
  product : List Byte
  -- 0x0002 (R228)
  maxWidth : Nat
  maxRate : Nat
  wicketLog : Nat
  linkFlags : Nat
  pinFlags : Nat
  payload : Nat
  -- 0x0003 (R290)
  queueLimit : Nat
  creditStepLog : Nat
  defaultRings : List Nat
  -- 0x0004 (R383)
  chainPresent : Bool
  expectedUnits : Nat
  preferred : Nat
  auditInterval : Nat
  detachDelay : Nat
  negotiationWait : Nat
  volumeSet : Nat
  -- 0x0005 (R123)
  registry : List Nat
  alternates : List Nat
  regionLog : Nat
  holdoff : Nat
  areaOffset : Nat
  mapCopySize : Nat
  -- 0x0006 (R367)
  spinLimit : Nat
  stagger : Nat
  minWindow : Nat
  idleEnd : Nat
  defaultHold : Nat
  starvation : Nat
  calInterval : Nat
  ports : List PortDef
  groups : List GroupDef
  members : List MemberDef
  -- 0x0007 (R169), 0x0008 (R89)
  layouts : List Layout
  volumes : List VolumeDef
  /-- positions of entries that name a volume a second time (R90) -/
  ignoredVolumes : List Nat
  -- 0x0009 (R452)
  errorLimit : Nat
  errorHours : Nat
  suspectLog : Nat
  blockLimit : Nat
  parityLimit : Nat
  parityLog : Nat
  bankLimit : Nat
  bankLog : Nat
  wayLimit : Nat
  rowLimit : Nat
  dramRepair : Bool
  -- 0x000A (R168)
  rebuildFloor : Nat
  scrubDays : Nat
  guard : Nat
  branchIdle : Nat
  -- 0x000B, 0x000C, 0x000D
  kinds : List KindDef
  envelopes : List Envelope
  auditDays : Nat
  sessionIdleLog : Nat
  sessionLimit : Nat
  vaults : List VaultDef
  deriving DecidableEq, Repr

/-! ### Chip, fuses, flash, clock -/

/-- Power, straps, resets and start-up (02, 18). -/
structure Chip where
  pwrgd : Bool := false
  testMode : Bool := false
  bootSlot : Bool := false
  chainHead : Bool := false
  smbAddr : Nat := 0
  perst : Bool := false
  /-- a PERST# assertion was taken; the unit halts at the next boundary (R244) -/
  perstHalt : Bool := false
  railsBad : Bool := false
  locked : Bool := false
  onOscillator : Bool := false
  /-- JTAG instruction loaded (R478) -/
  jtag : JtagInstr := .idcode
  /-- CHR_STATE.STEP (R28); 0 before step 3 -/
  step : Nat := 0
  reason : Nat := 0
  stepClose : Nat := 0
  ledgerLost : Bool := false
  chainAbsent : Bool := false
  /-- Recovery was entered at step 3 (R37) -/
  recoveryAt3 : Bool := false
  halted : Bool := false
  /-- CHR_SLOTS: codes of R21; a slot that this start-up has not checked reads Blank (DESIGN CHOICE, log entry 37) -/
  charter0 : Nat := 1
  charter1 : Nat := 1
  fw0 : Nat := 1
  fw1 : Nat := 1
  charterSel : Nat := 0
  fwSel : Nat := 0
  fwSeq : Nat := 0
  fwSv : Nat := 0
  advanceDone : Bool := false
  layoutOk : BitVec 64 := 0
  layoutBad : BitVec 64 := 0
  deriving DecidableEq, Repr

/-- Fuses (R21, R27, R229, R426, R460) and the key-table digests of the boot ROM for firmware. -/
structure Fuses where
  serial : Nat := 1
  keys : Tbl (List Byte) := []
  keyProgrammed : BitVec 4 := 0
  keyRevoked : BitVec 4 := 0
  /-- blown fuse numbers of the charter and firmware thermometers -/
  charterBlown : List Nat := []
  fwBlown : List Nat := []
  /-- blown retirement fuses as (element code of R461, physical number) -/
  retired : List (Nat × Nat) := []
  -- CHR_FUSE_ registers
  op : Nat := 0
  entry : Nat := 0
  arm : Nat := 0
  go : Bool := false
  busy : Bool := false
  result : Nat := 0
  /-- result to be shown when the running operation ends -/
  nextResult : Nat := 0
  digest : List Byte := List.replicate 48 0
  deriving DecidableEq, Repr

/-- A download of one image kind (R313–R316). -/
structure Download where
  /-- 0 Idle, 2 Downloading, 3 Verified, 4 Committed, 5 Failed (R308) -/
  state : Nat := 0
  code : Nat := 0
  /-- end of the previous piece -/
  upTo : Nat := 0
  magic : List Byte := []
  header : List Byte := []
  deriving DecidableEq, Repr

/-- The flash and its programming registers (R19, R313–R317). -/
structure Flash where
  cells : Cells := []
  op : Nat := 0
  go : Bool := false
  addr : Nat := 0
  busy : Bool := false
  result : Nat := 0
  nextResult : Nat := 0
  /-- the range, as (address, length), that the running operation erases or programs -/
  writing : Option (Nat × Nat) := none
  /-- ranges whose erase or program a loss of power cut off (R26) -/
  torn : List (Nat × Nat) := []
  buf : Cells := []
  charterDl : Download := {}
  fwDl : Download := {}
  deriving DecidableEq, Repr

/-- The close count and the cycle within the close (R6, R42). -/
structure Clock where
  close : Nat := 0
  cycle : Nat := 0
  deriving DecidableEq, Repr

/-! ### Closer and books (03) -/

/-- One closer (R48–R53). -/
structure Closer where
  /-- the physical closer that carries this number; none when too few passed at start-up (R52) -/
  phys : Option Nat := none
  votes : Bool := false
  retired : Bool := false
  /-- closes of its disagreements inside the window (R50) -/
  dis : List Nat := []
  /-- its verdict in the last vote differed from the verdict used -/
  differed : Bool := false
  /-- reached its limit; retired or withdrawn at the next boundary -/
  leaving : Bool := false
  deriving DecidableEq, Repr

/-- A book entry (R45, R46). -/
structure Book where
  close : Nat
  verdict : Verdict
  cut : List Nat
  readBack : Bool
  /-- the partner holds it, or none needs to -/
  partnerHeld : Bool
  /-- a read-back failed and the entry is to be rewritten -/
  torn : Bool
  deriving DecidableEq, Repr

structure Closers where
  units : List Closer := [{phys := some 0, votes := true}, {phys := some 1, votes := true}, {phys := some 2, votes := true}, {phys := some 3}]
  /-- 0 Triple, 1 Pair, 2 Halted -/
  mode : Nat := 0
  total : Nat := 0
  eventClose : Nat := 0
  verdicts : List (Nat × Verdict) := []
  used : Option Verdict := none
  /-- records in the cut of this close -/
  cut : List Nat := []
  /-- the entry of this close: 0 none, 1 issued, 2 complete -/
  entry : Nat := 0
  landed : Nat := 0
  skipped : Nat := 0
  rewritten : Nat := 0
  books : List Book := []
  deriving DecidableEq, Repr

/-! ### Ledger (05) -/

/-- Record states (R101). -/
inductive RecState where
  | filling | complete | countersigned | landed | destaging | onDisk | released
  deriving DecidableEq, Repr

/-- An acceptance position (R56). -/
structure Pos where
  close : Nat
  wicket : Nat
  order : Nat
  deriving DecidableEq, Repr

/-- A ledger record (R99, R100). -/
structure Rec where
  seq : Nat
  kind : Nat
  superseded : Bool := false
  replayed : Bool := false
  volume : Nat := 0
  tag : Nat := 0
  ring : Nat := 0
  pos : Pos := ⟨0, 0, 0⟩
  powerCycle : Nat := 0
  lba : Nat := 0
  blocks : Nat := 0
  bodyLen : Nat := 0
  opcode : Nat := 0
  cseq : Nat := 0
  body : Cells := []
  filled : Nat := 0
  /-- blocks that the record changes: those that a RELEASE releases (R114), or those of a vault volume that the body covers (R335) -/
  span : Option (Nat × Nat) := none
  state : RecState := .filling
  landedAt : Nat := 0
  /-- the completion was posted, or the command was reported in an account (R112) -/
  reported : Bool := false
  /-- rows not yet on disk, as (layout, row) -/
  rows : List (Nat × Nat) := []
  completeAt : Nat := 0
  /-- acceptance order across power losses and takeovers (R33, R69): records replayed or taken over stand below the current rank -/
  rank : Nat := 0
  /-- blocks whose later data is on disk and was released from the ledger: the record gives them no more (R61) -/
  stale : List Nat := []
  deriving DecidableEq, Repr

/-- A region of a volume (R115–R119). -/
structure Region where
  volume : Nat
  region : Nat
  set : Bool
  covered : Bool
  awaiting : Bool
  /-- a stripe-row write into it was past step 1 in this close -/
  busy : Bool
  deriving DecidableEq, Repr

/-- A ledger block (R96, R130, R131, R459). -/
structure Block where
  writes : Nat := 0
  corrected : List Nat := []
  trimFails : List Nat := []
  retired : Bool := false
  /-- block that took its place -/
  movedTo : Option Nat := none
  /-- the block that is copied during the next close and replaced at boundary `due` -/
  due : Option Nat := none
  cause : Nat := 0
  /-- the place in the areas that it has taken; none while it stands in the place of its number (R96, R98, log entry 25) -/
  place : Option Nat := none
  deriving DecidableEq, Repr

/-! ### Volumes, plans, works (04, 05, 06, 07) -/

structure Volume where
  /-- VOL_STATE.STATE -/
  state : Nat := 0
  offReason : Nat := 0
  layout : Nat := 0
  target : Nat := 0
  deriving DecidableEq, Repr

/-- A band of a volume (R92); `target` marks the target table of a reshape (R178). -/
structure Band where
  volume : Nat
  band : Nat
  layout : Nat
  rowBase : Nat
  unwritten : BitVec 256
  target : Bool
  /-- the band-change record that made it, while not landed (R92) -/
  pendingRec : Option Nat
  deriving DecidableEq, Repr

/-- A cached or building decode plan (R82). -/
structure Plan where
  layout : Nat
  erased : List ChunkId
  ready : Bool
  /-- the tags of those whose postings use it: it is pinned while there is one -/
  users : List Nat
  lastUse : Nat
  deriving DecidableEq, Repr

structure Plans where
  cache : List Plan := []
  /-- those waiting for a pin, in order: (tag of the command, audit or work; layout; pattern) -/
  waiting : List (Nat × Nat × List ChunkId) := []
  misses : Nat := 0
  evictions : Nat := 0
  reissues : Nat := 0
  flush : Bool := false
  useCount : Nat := 0
  gfA : BitVec 16 := 0
  gfB : BitVec 16 := 0
  deriving DecidableEq, Repr

/-- One block a read still needs: the survivors to read and their coefficients (R79, R138). -/
structure Need where
  idx : Nat
  layout : Nat
  row : Nat
  position : Nat
  /-- the chunk that is wanted -/
  chunk : ChunkId
  /-- survivors and coefficients -/
  terms : List (ChunkId × Nat)
  got : List (ChunkId × Cells)
  /-- chunks whose read failed at this position -/
  bad : List ChunkId := []
  /-- the erasure pattern of its position, the key of its plan (R82) -/
  erased : List ChunkId := []
  /-- the first close in which this pattern's plan may be used (R83) -/
  fromClose : Nat := 0
  deriving DecidableEq, Repr

inductive WorkKind where
  | destage | restore (pass : Nat) | repair | scrub | seal | reshape (slot : Nat) | resync
  deriving DecidableEq, Repr

/-- A stripe-row work (R111). -/
structure Work where
  id : Nat
  kind : WorkKind
  volume : Nat
  layout : Nat
  row : Nat
  /-- 1 to 5, as the steps of R111 -/
  step : Nat
  /-- new 4 KiB blocks: (data column, position in the chunk, content) -/
  news : List (Nat × Nat × Cells)
  positions : List Nat
  /-- syndromes to be written, and whether Fresh -/
  forms : List (ChunkId × Bool)
  /-- member reads of step 2 still awaited -/
  reads : List (ChunkId × Nat)
  staged : List (ChunkId × Nat × Cells)
  /-- chunks erased in the row's pattern -/
  erased : List ChunkId
  postsLeft : Nat
  /-- member write commands of step 4 still awaited -/
  writes : List Nat
  recs : List Nat
  unwritten : Bool
  held : Bool
  genSeen : Nat
  replayed : Bool
  /-- old chunk positions that step 2 needs, each with the survivors it is combined from -/
  wants : List (ChunkId × Nat × List (ChunkId × Nat))
  /-- what step 4 writes -/
  outs : List (ChunkId × Nat × Cells)
  /-- chunk positions whose read failed (R83, R138) -/
  badPos : List (ChunkId × Nat)
  /-- the loss finds whose entries must be durable first (R156) -/
  waitFinds : List Nat := []
  /-- positions beyond tolerance that must be sealed before the row is planned again (R111, R157) -/
  sealWait : List Nat := []
  /-- the region of the row (R115) -/
  region : Nat
  /-- blocks that a reshape copy takes from the source layout (R182) -/
  needs : List Need
  /-- a write of step 4 has failed for good: the row is written again from step 2 once the others have ended (R111) -/
  failedOut : Bool := false
  /-- the erasure patterns whose plans its postings use (R82) -/
  patterns : List (List ChunkId) := []
  /-- the first close in which postings under its pattern may be issued (R83) -/
  fromClose : Nat := 0
  deriving DecidableEq, Repr

/-- A request for a hold that waits: row, work, the engine cycle of the request, and whether it waits for a row that is held (R204). -/
structure HoldWait where
  layout : Nat
  row : Nat
  work : Nat
  cycle : Nat
  counted : Bool
  deriving DecidableEq, Repr

/-- The hold table (R203–R205). -/
structure Holds where
  /-- (layout, row, owner) -/
  held : List (Nat × Nat × Nat) := []
  /-- those waiting, in order -/
  waiting : List HoldWait := []
  gens : Tbl Nat := []
  waits : Nat := 0
  rereads : Nat := 0
  tableFull : Nat := 0
  deriving DecidableEq, Repr

/-- Member states as page 0x10 byte 2 codes them (R309). -/
structure Member where
  state : Nat := 0
  stateClose : Nat := 0
  /-- operating times (ms) of its unrecovered errors (R134) -/
  events : List Nat := []
  suspectSince : Nat := 0
  missingSince : Option Nat := none
  timeouts : Nat := 0
  present : Bool := false
  sata : Bool := false
  ready : Bool := false
  /-- retirement decided, takes effect at the next boundary: cause of R480 kind 0x08 -/
  retiring : Option Nat := none
  slotOff : Bool := true
  serial : Nat := 0
  sasAddr : Nat := 0
  capacity : Nat := 0
  fault : Bool := false
  nextPoll : Nat := 0
  deriving DecidableEq, Repr

inductive MemberOp where
  | rd | wr | testUnitReady | startUnit | stopUnit | abortTask | unitReset | preempt | register | witnessWrite
  deriving DecidableEq, Repr

inductive Purpose where
  | readBlock (tag idx : Nat) (c : ChunkId)
  | workRead (work : Nat) (c : ChunkId) (position : Nat)
  | workWrite (work : Nat) (c : ChunkId) (position : Nat)
  | control
  deriving DecidableEq, Repr

/-- A command outstanding on a member (R355). -/
structure MemberCmd where
  id : Nat
  member : Nat
  op : MemberOp
  addr : Nat
  len : Nat
  data : Cells
  issued : Nat
  tries : Nat
  purpose : Purpose
  /-- a reconstruction was started in its place (R139) -/
  late : Bool
  delivered : Bool
  /-- set while a retry waits (R356) -/
  retryAt : Option Nat
  /-- (layout, row) of the delivered reconstruction that late data is compared with -/
  row : Option (Nat × Nat)
  /-- it waits for one of the 32 places of its member (R355) -/
  queued : Bool
  deriving DecidableEq, Repr

structure Drives where
  members : Tbl Member := []
  cmds : List MemberCmd := []
  nextCmd : Nat := 0
  unassigned : List FoundDrive := []
  expanders : Nat := 0
  enclosures : Nat := 0
  lastDiscovery : Nat := 0
  broadcasts : Nat := 0
  beyond : Nat := 0
  running : Bool := false
  /-- rows queued for scrub ahead of others (R139) -/
  scrubFirst : List (Nat × Nat) := []
  deriving DecidableEq, Repr

/-- A SAS lane (R349–R351, R368–R370). -/
structure SasLane where
  /-- 0 Off, 1 Training, 2 Up, 3 Down -/
  state : Nat := 0
  port : Nat := 0
  rate : Nat := 0
  reserve : Bool := false
  inPort : Bool := false
  lastTrim : Nat := 0
  trims : Nat := 0
  deferred : Nat := 0
  failures : List Nat := []
  flagged : Bool := false
  downSince : Nat := 0
  slot : Bool := false
  replaceDue : Option Nat := none
  deriving DecidableEq, Repr

/-- A power group (R358). -/
structure Group where
  /-- 0 Down, 1 Rising, 2 Ready, 3 Closing, 4 Falling -/
  state : Nat := 0
  granted : Nat := 0
  endAt : Nat := 0
  readyAt : Nat := 0
  lastNamed : Nat := 0
  batch : Nat := 0
  /-- close at which the next stagger step falls -/
  nextStep : Nat := 0
  shelfOk : Bool := true
  windows : Nat := 0
  windowsTotal : Nat := 0
  late : Nat := 0
  upCloses : Nat := 0
  stateClose : Nat := 0
  /-- end of the host's claim (R320); 0 when none -/
  claimEnd : Nat := 0
  /-- bytes moved with its members in this period of 1,024 closes: all, those of passes, of scrub and of reshape copies (R148, R167, R186) -/
  bytes : Nat := 0
  passBytes : Nat := 0
  scrubBytes : Nat := 0
  copyBytes : Nat := 0
  claimed : Bool := false
  deriving DecidableEq, Repr

/-- What a demand of the governor comes from (R361). -/
inductive DemandOf where
  | pass (p : Nat) | rows (layout row : Nat) | parked (tag : Nat) | hostReq (tag : Nat) | claim (group : Nat)
  | scrub (group : Nat) | vaultAudit (vault : Nat) | reshape (slot : Nat)
  deriving DecidableEq, Repr

structure Demand where
  cls : Nat
  since : Nat
  groups : List Nat
  of : DemandOf
  deriving DecidableEq, Repr

structure Governor where
  groups : Tbl Group := []
  /-- enclosures whose supplies are switched on, RQST ON (R359, R360) -/
  shelfOn : List Nat := []
  demands : List Demand := []
  blocked : Bool := false
  blockedClass : Nat := 0
  deriving DecidableEq, Repr

/-- A rebuild pass or copy-back (R144–R153, R163). -/
structure Pass where
  /-- 0 Idle, 1 Updating, 2 Running, 3 Paused, 4 Copy-back -/
  state : Nat := 0
  layout : Nat := 0
  pool : Nat := 0
  members : List Nat := []
  /-- rows of the layout, and how often the pass has gone back to row 0 (R152) -/
  rows : Nat := 0
  laps : Nat := 0
  /-- members retired while the pass ran: (member, rows that the pass had then gone by); they are restored from there on, over one whole round (R152) -/
  late : List (Nat × Nat) := []
  cursor : Nat := 0
  hot : Bool := false
  receivers : Nat := 0
  extent : Nat := 0
  base : Nat := 0
  /-- 1, 3: paused in Rest or Dormant (R149); 2, 4: by a full loss area (R159); 3 and 4 are copy-backs -/
  pausedFor : Nat := 0
  deriving DecidableEq, Repr

inductive HomeChoice where
  | hotSpare (m : Nat)
  | distributed (receivers : List Nat) (extent base : Nat)
  | none
  deriving DecidableEq, Repr

/-- A pool update (R144): one retirement of a pool. -/
structure PoolUpdate where
  layout : Nat
  pool : Nat
  member : Nat
  choice : HomeChoice
  /-- acknowledged by a majority -/
  complete : Bool
  rebuilt : Bool
  /-- close of the choice -/
  since : Nat
  deriving DecidableEq, Repr

/-- A loss-ledger entry (R155). -/
structure LossEntry where
  volume : Nat
  cause : Nat
  blocks : Nat
  lba : Nat
  close : Nat
  powerCycle : Nat
  find : Nat
  durable : Bool
  durableAt : Nat
  deriving DecidableEq, Repr

/-- A row of the running global scrub batch (R166): what its global chunks accumulated, and the columns added. -/
structure BatchRow where
  layout : Nat
  row : Nat
  /-- accumulated chunk of each global chunk t -/
  acc : List (Nat × Cells)
  added : List ChunkId
  deriving DecidableEq, Repr

/-- A replacement drive under its checks (R162). -/
structure Replacement where
  member : Nat
  drive : FoundDrive
  good : Bool
  before : Nat
  admitting : Bool
  deriving DecidableEq, Repr

structure Degrade where
  passes : List Pass := List.replicate 16 {}
  waitingPools : List (Nat × Nat) := []
  completed : Nat := 0
  restarts : Nat := 0
  updates : List PoolUpdate := []
  used : Nat := 0
  matched : Nat := 0
  mismatched : Nat := 0
  dropped : Nat := 0
  reconstructed : Nat := 0
  repaired : Nat := 0
  repairFailed : Nat := 0
  loss : List LossEntry := []
  nextFind : Nat := 0
  lossFull : Bool := false
  /-- the volumes for which an entry found the loss area full (R159) -/
  lossVols : List Nat := []
  lossNew : Nat := 0
  unrecorded : Nat := 0
  scrubRows : Nat := 0
  located : Nat := 0
  unlocated : Nat := 0
  syndrome : Nat := 0
  /-- operating time (ms) of the last local scrub of (layout, row, group) -/
  scrubbed : List (Nat × Nat × Nat × Nat) := []
  /-- operating time every row counts as scrubbed at (R396) -/
  scrubBase : Nat := 0
  /-- global batch accumulators: (layout, row, t, accumulated chunk, columns added) -/
  batch : List BatchRow := []
  /-- pool positions taken by hot spares: (layout, pool, member, hot spare) (R151) -/
  placed : List (Nat × Nat × Nat × Nat) := []
  /-- replacements in use: (drive serial, retired member) -/
  replacing : List (Nat × Nat) := []
  /-- replacements under their checks: member, drive, what the checks give, the member's state before, and whether it has entered Admitting (R162) -/
  found : List Replacement := []
  /-- positions whose media repair failed: (layout, row, chunk, position); they stay erasures for reads (R140) -/
  failedPos : List (Nat × Nat × ChunkId × Nat) := []
  /-- operating time (ms) of the last global check of (layout, row) (R166) -/
  checked : List (Nat × Nat × Nat) := []
  /-- registry positions taken by alternates, (position, alternate) -/
  roster : List (Nat × Nat) := []
  deriving DecidableEq, Repr

/-- A reshape slot (R176–R192). -/
structure Reshape where
  /-- 0 Idle, 1 Starting, 2 Copying, 3 Paused, 4 Yielding, 5 Draining, 6 Cancelling -/
  state : Nat := 0
  device : Bool := false
  yieldCause : Nat := 0
  volume : Nat := 0
  source : Nat := 0
  target : Nat := 0
  region : Nat := 0
  /-- index of the target row being copied among those of the region -/
  row : Nat := 0
  lastChange : Nat := 0
  switchAt : Nat := 0
  /-- the power cycle of the switch -/
  switchCycle : Nat := 0
  done : Nat := 0
  total : Nat := 0
  /-- regions whose copy has started (dual landing) -/
  started : List Nat := []
  tag : Option Nat := none
  acked : Bool := false
  /-- requests waiting for a boundary, in order: 1 pause, 2 resume, 3 cancel, with the tag -/
  reqs : List (Nat × Nat) := []
  /-- the target table is built and the reshape record cut (R178) -/
  built : Bool := false
  /-- the copy of the current region is on disk -/
  regionDone : Bool := false
  /-- sequence of the newest checkpoint when it was cancelled (R191) -/
  ckptSeq : Nat := 0
  deriving DecidableEq, Repr

structure Reshapes where
  slots : List Reshape := List.replicate 4 {}
  switches : Nat := 0
  cancels : Nat := 0
  /-- volumes whose device-started reshape was cancelled (R180) -/
  barred : List Nat := []
  deriving DecidableEq, Repr

/-- A checkpoint (R121, R122). -/
structure Ckpt where
  seq : Nat
  cutClose : Nat
  powerCycle : Nat
  entries : List (Nat × Nat)
  bandRecs : List Nat
  admission : Bool
  acks : List Nat
  /-- what is written with it: the volume map, cursors, reshape records and layouts in use at the cut -/
  bands : List Band
  passes : List Pass
  reshapes : List Reshape
  inUse : Tbl Nat
  deriving DecidableEq, Repr

/-- The ledger (05). -/
structure Ledger where
  /-- 0 Single, 1 Countersigning, 2 Holding copies, 3 Unpaired (LGR_STATE.MODE) -/
  mode : Nat := 0
  formatted : Bool := false
  die0 : Bool := true
  die1 : Bool := true
  window : Bool := false
  refuse : Bool := false
  full : Bool := false
  recs : List Rec := []
  /-- copies of the partner's records (R104) -/
  copies : List Rec := []
  /-- rank of the records that this unit writes now -/
  rank : Nat := 0
  /-- sequence of the next record; the first of a start-up is 1 (log entry 19) -/
  nextSeq : Nat := 1
  blocks : Tbl Block := []
  recordBlocks : Nat := 29568
  /-- 64-byte words written into record-area blocks, taken in turn from the lowest count (R130) -/
  areaWrites : Nat := 0
  /-- 64-byte words appended to the index, the band-change log and the accounts: area → words -/
  appended : Tbl Nat := []
  reserveLeft : Nat := 4096
  retiredBlocks : Nat := 0
  peak : Nat := 0
  maxWait : Nat := 0
  withheld : Nat := 0
  withheldNow : Bool := false
  /-- a wicket's credit was held at zero in this close for want of room (R103) -/
  stalledNow : Bool := false
  fullRows : Nat := 0
  smallRows : Nat := 0
  replans : Nat := 0
  regions : List Region := []
  assigned : Nat := 0
  tableWaits : Nat := 0
  ckpt : Option Ckpt := none
  newest : Option Ckpt := none
  lastCkptCut : Nat := 0
  admissions : Nat := 0
  ckptFailures : Nat := 0
  resyncLeft : List (Nat × Nat) := []
  resyncTotal : Nat := 0
  corrected : Nat := 0
  uncorrected : Nat := 0
  lostRanges : Nat := 0
  refusals : Nat := 0
  stallCloses : Nat := 0
  /-- rows whose holdoff has ended -/
  ripe : List (Nat × Nat) := []
  trimNext : Nat := 0
  trimFails : Nat := 0
  trimPass : Nat := 0
  /-- records begun in the quiet slice: they are written from cycle 0 of the next close (R44) -/
  late : List Nat := []
  /-- the trim of this close has run (R459) -/
  trimmed : Bool := false
  /-- the raw byte view of the ledger space (log entry 11) -/
  cells : Cells := []
  deriving DecidableEq, Repr

/-! ### Tellers and scratch (08) -/

structure Teller where
  /-- 0 Active, 1 Gated, 2 Reserve, 3 Testing, 4 Failed, 5 Retired, 6 Stopping -/
  state : Nat := 2
  logical : Nat := 0
  parity : List Nat := []
  eventClose : Nat := 0
  deriving DecidableEq, Repr

/-- The place of a logical teller: its deque, oldest first, each entry with the boundary at which it first stood there, and its posting. -/
structure TellerSlot where
  phys : Option Nat := none
  deque : List (Nat × Posting) := []
  running : Option Posting := none
  startAt : Nat := 0
  deriving DecidableEq, Repr

structure Branch where
  gated : Bool := false
  wakeAt : Nat := 0
  idleSince : Nat := 0
  reissue : List Posting := []
  deriving DecidableEq, Repr

/-- An entry taken from the oldest end of a victim's deque: the engine cycle, the victim, the thief, or none when the owner took it, and the entry (R209). -/
structure Draw where
  cycle : Nat
  victim : Nat
  thief : Option Nat
  mark : Nat
  posting : Posting
  deriving DecidableEq, Repr

structure Tellers where
  phys : Tbl Teller := []
  slots : Tbl TellerSlot := []
  branches : Tbl Branch := []
  producer : List Posting := []
  /-- the programs whose entries the control stores hold, the same in every store (R196) -/
  store : List Nat := []
  /-- logical numbers waiting for a reserve (R455) -/
  vacant : List Nat := []
  postings : Nat := 0
  stealsBranch : Nat := 0
  stealsCross : Nat := 0
  overruns : Nat := 0
  splits : Nat := 0
  lastOverrun : Nat := 0
  parity : Nat := 0
  reissued : Nat := 0
  writeLost : Nat := 0
  badDesc : Nat := 0
  busyCycles : Nat := 0
  throttled : Bool := false
  /-- reissues that wait for the next boundary, each with the cycle at which its posting had started (R211, R212, R221) -/
  atBoundary : List (Nat × Posting) := []
  /-- postings that finished, by descriptor; a descriptor that is pushed again leaves the list (R201) -/
  finished : List Nat := []
  /-- entries drawn from the oldest ends in this cycle, and postings pushed in it (R209) -/
  draws : List Draw := []
  pushed : List (Nat × Posting) := []
  admitDue : List (Nat × Nat) := []
  /-- result words of Check and Locate: (work, word) (R202) -/
  results : List (Nat × Nat) := []
  deriving DecidableEq, Repr

structure Bank where
  /-- 0 On, 1 Retention, 2 Off -/
  state : Nat := 0
  mapped : Bool := true
  retired : Bool := false
  logical : Nat := 0
  corrected : List Nat := []
  collisions : Nat := 0
  /-- the teller or management port served last (R220) -/
  lastPort : Nat := 0
  deriving DecidableEq, Repr

/-- A bank copy under way (R223). -/
structure BankCopy where
  old : Nat
  /-- the reserve, once the copy has begun -/
  new : Option Nat
  due : Nat
  cause : Nat
  deriving DecidableEq, Repr

structure Scratch where
  cells : Cells := []
  poisoned : List Nat := []
  banks : Tbl Bank := []
  copies : List BankCopy := []
  waits : Nat := 0
  lost : Nat := 0
  corrected : Nat := 0
  poisonedCount : Nat := 0
  sweepBank : Nat := 0
  sweepRow : Nat := 0
  yields : Nat := 0
  skippedSweeps : Nat := 0
  failures : Nat := 0
  passes : Nat := 0
  passClose : Nat := 0
  swept : Bool := false
  /-- a rule that needs a reserve bank found none (R223) -/
  noReserve : Bool := false
  /-- read data of the last cycle, per port -/
  lastReads : List (Nat × List Byte) := []
  lostPorts : List Nat := []
  deriving DecidableEq, Repr

/-! ### Host endpoint (09), wickets and rings (10) -/

/-- A command header (R260). -/
structure Hdr where
  opcode : Nat := 0
  flags : Nat := 0
  volume : Nat := 0
  tag : Nat := 0
  ring : Nat := 0
  lba : Nat := 0
  blocks : Nat := 0
  d : Nat := 0
  /-- bytes 24–55 -/
  op : List Byte := []
  deriving DecidableEq, Repr

/-- Where a command stands between acceptance and its Completion. -/
inductive Phase where
  /-- accepted; the row of its opcode has not acted -/
  | started
  /-- its payload is being taken, or its data is being read -/
  | busy
  /-- waits for an earlier overlapping write (R61) -/
  | waiting
  /-- waits for power groups (R365) -/
  | parked
  /-- its record is whole and waits to land -/
  | landing
  /-- landed at the close given; its completion is due under R46 -/
  | landed (close : Nat)
  /-- its Completion is queued in row 7 of the first boundary at or after the close given -/
  | due (b : Nat)
  /-- released for posting; waits only for R63 -/
  | released
  /-- its Completion stands on its ring's queue or in the hold -/
  | queued
  deriving DecidableEq, Repr

/-- An object of a vault: its index entry (R329), and its segment digests. -/
structure Object where
  key : Key
  size : Nat
  first : Nat
  run : Nat
  digest : List Byte
  tableDigest : List Byte
  segments : List (List Byte)
  ingest : Nat
  retention : Nat
  wall : Nat
  lastAudit : Nat
  /-- 1 Stored, 2 Damaged -/
  state : Nat
  deriving DecidableEq, Repr

structure Cmd where
  hdr : Hdr := {}
  wicket : Nat := 0
  cseq : Nat := 0
  ring : Nat := 0
  pos : Pos := ⟨0, 0, 0⟩
  phase : Phase := .started
  status : Nat := 0
  detail : Nat := 0
  result : List Byte := []
  data : Cells := []
  dataLen : Nat := 0
  /-- failed a check of R293, or ends without effect -/
  failed : Bool := false
  excess : Bool := false
  taken : Nat := 0
  payload : Cells := []
  intent : Nat := 0
  recSeq : Option Nat := none
  pins : List Nat := []
  needs : List Need := []
  lost : List Nat := []
  groups : List Nat := []
  parkedAt : Nat := 0
  noticeSent : Bool := false
  /-- the effect has begun (R282, R323) -/
  begun : Bool := false
  /-- accepted by a failed partner before a takeover -/
  prior : Bool := false
  named : Nat := 0
  session : Nat := 0
  /-- loss finds whose entries must be durable before it completes (R156) -/
  finds : List Nat := []
  /-- (layout, row, group) still to be scrubbed for a VERIFY with Check (R300), and what those scrubs gave -/
  checks : List (Nat × Nat × Nat) := []
  located : Nat := 0
  unlocated : Nat := 0
  rowsChecked : Nat := 0
  mended : Nat := 0
  /-- the object that a GET or AUDIT OBJECT reads, as it stood when the command was resolved (R346) -/
  obj : Option Object := none
  deriving DecidableEq, Repr

structure Wicket where
  hdr : Cells := []
  /-- 0 Closed, 1 Free, 2 Busy, 3 Resetting -/
  state : Nat := 0
  lastSeq : Nat := 0
  lastArrived : Nat := 0
  -- result block (R265)
  rSeq : Nat := 0
  rState : Nat := 0
  rStatus : Nat := 0
  rDetail : Nat := 0
  rTag : Nat := 0
  rClose : Nat := 0
  -- current command
  tag : Nat := 0
  declared : Nat := 0
  opcode : Nat := 0
  cseq : Nat := 0
  taken : Nat := 0
  intentWritten : Bool := false
  stalled : Bool := false
  /-- payload bytes arrived and not yet written: (index, byte) -/
  arrived : Tbl Byte := []
  /-- commits that wait to be taken: (sequence, header snapshot) -/
  waitingCommits : List (Nat × List Byte) := []
  order : Nat := 0
  orderClose : Nat := 0
  resetReq : Bool := false
  -- credit line as last written
  lineLimit : Nat := 0
  lineWritten : Bool := false
  deriving DecidableEq, Repr

structure Wickets where
  table : Tbl Wicket := []
  creditEnable : Bool := false
  creditAddr : Nat := 0
  qWicket : Nat := 0
  qAll : Bool := false
  resetPending : Bool := false
  resetAll : Bool := false
  unitFailed : Bool := false
  peak : Nat := 0
  rejCommand : Nat := 0
  rejRefused : Nat := 0
  payloadFaults : Nat := 0
  stray : Nat := 0
  resets : Nat := 0
  entries : Nat := 0
  lastReset : Nat := 0
  /-- control-window reads that wait until waiting commits are taken (R57): (address, size) -/
  deferred : List (Nat × Nat) := []
  deriving DecidableEq, Repr

/-- An entry for a return ring (R273). -/
structure Entry where
  kind : Nat
  flags : Nat := 0
  tag : Nat := 0
  wicket : Nat := 0
  opcode : Nat := 0
  status : Nat := 0
  detail : Nat := 0
  cseq : Nat := 0
  payload : Cells := []
  len : Nat := 0
  spec : List Byte := []
  /-- the intent record whose command this Completion ends -/
  final : Option Nat := none
  deriving DecidableEq, Repr

/-- A Completion written into a ring that its consumer may not have passed (R66, R282). -/
structure Posted where
  /-- ring offset behind the entry -/
  upTo : Nat
  wicket : Nat
  tag : Nat
  pos : Pos
  cseq : Nat
  opcode : Nat
  deriving DecidableEq, Repr

structure Ring where
  base : Nat := 0
  enable : Bool := false
  shadowEn : Bool := false
  sizeLog : Nat := 12
  maxLog : Nat := 18
  irqCount : Nat := 1
  irqDelay : Nat := 0
  head : Nat := 0
  tail : Nat := 0
  phase : Bool := true
  seq : Nat := 0
  shadow : Nat := 0
  draining : Bool := false
  waiting : Bool := false
  badHead : Nat := 0
  posted : Nat := 0
  queue : List Entry := []
  /-- entries written since the bit was last raised, and close of the first of them -/
  unraised : Nat := 0
  oldest : Nat := 0
  /-- Completions written and maybe not yet consumed: (end offset, wicket, tag, acceptance position, commit sequence, opcode) -/
  written : List Posted := []
  fetching : Bool := false
  deriving DecidableEq, Repr

structure Returns where
  rings : Tbl Ring := []
  /-- postings held while bus mastering is off: (ring, entry) (R248) -/
  hold : List (Nat × Entry) := []
  holding : Bool := false
  /-- completions waiting in the return sequencer behind a full hold (R249) -/
  overflow : List (Nat × Entry) := []
  /-- what was held is being issued: messages and credit lines wait for it (R250) -/
  draining : Bool := false
  masterOff : Nat := 0
  deriving DecidableEq, Repr

structure MsixEntry where
  addr : Nat := 0
  data : Nat := 0
  mask : Bool := true
  deriving DecidableEq, Repr

structure Interrupts where
  ringPending : BitVec 64 := 0
  ringMask : BitVec 64 := 0
  cause : BitVec 10 := 0
  causeMask : BitVec 10 := 0
  testSource : Nat := 0
  testFire : Bool := false
  wake : BitVec 3 := 0
  wakeLow : Bool := false
  wakeClose : Nat := 0
  /-- vectors active after the last evaluation -/
  active : List Nat := []
  mode : Nat := 0
  inta : Bool := false
  table : Tbl MsixEntry := []
  pba : List Nat := []
  msiPending : List Nat := []
  /-- messages kept pending while bus mastering is off -/
  kept : List Nat := []
  sent : Nat := 0
  lastSent : Nat := 0
  deriving DecidableEq, Repr

/-- Configuration space fields (R230–R234, R239). -/
structure ConfigSpace where
  memSpace : Bool := false
  busMaster : Bool := false
  intxDisable : Bool := false
  msixEnable : Bool := false
  functionMask : Bool := false
  msiEnable : Bool := false
  /-- Multiple Message Enable, log2 of the vectors granted -/
  mme : Nat := 0
  msiAddr : Nat := 0
  msiData : Nat := 0
  msiMask : BitVec 32 := 0
  bar0 : Nat := 0
  bar2 : Nat := 0
  bar4 : Nat := 0
  /-- PowerState: 0 or 3 -/
  powerState : Nat := 0
  pmeEn : Bool := false
  pmeStatus : Bool := false
  /-- log2(bytes / 128) of Max_Payload_Size and Max_Read_Request_Size -/
  mps : Nat := 0
  mrrs : Nat := 2
  relaxed : Bool := true
  tag10 : Bool := false
  tag14 : Bool := false
  aspm : Nat := 0
  extTag : Bool := true
  l1ss : Nat := 0
  intLine : Nat := 0
  ltrEnable : Bool := false
  read : Bool := false
  deriving DecidableEq, Repr

structure Link where
  training : Bool := false
  up : Bool := false
  rate : Nat := 0
  width : Nat := 0
  flit : Bool := false
  aspm : Nat := 0
  recoveries : Nat := 0
  replays : Nat := 0
  /-- the latency tolerance last reported, in nanoseconds; 0 when none was (R257) -/
  ltr : Nat := 0
  deriving DecidableEq, Repr

structure Power where
  /-- 0 Full, 1 Trim, 2 Rest, 3 Dormant -/
  state : Nat := 0
  entryPending : Bool := false
  target : Nat := 0
  exitCause : Nat := 0
  eventClose : Nat := 0
  /-- the state to return to from Dormant (R255) -/
  back : Nat := 0
  /-- POWER commands that take effect at the next boundary: (tag, target) -/
  due : List (Nat × Nat) := []
  /-- POWER command whose entry into Rest waits -/
  entryTag : Option Nat := none
  exitDue : Bool := false
  deriving DecidableEq, Repr

/-- A line of an account after a reset or a takeover (R245, R395). -/
structure AcctLine where
  tag : Nat
  ring : Nat
  wicket : Nat
  seq : Nat
  fate : Nat
  opcode : Nat
  close : Nat
  deriving DecidableEq, Repr

structure Resets where
  /-- 0 none, 1 hot, 2 function-level reset under way -/
  kind : Nat := 0
  since : Nat := 0
  accounted : Bool := false
  /-- sequence of the account record -/
  accountAt : Nat := 0
  hot : Nat := 0
  flr : Nat := 0
  last : Nat := 0
  /-- FLR account (R245): (tag, wicket, sequence, fate, opcode, acceptance close) -/
  account : List AcctLine := []
  hasAccount : Bool := false
  accountClose : Nat := 0
  deriving DecidableEq, Repr

structure Features where
  /-- values in force, IDs 1 to 5 (R310) -/
  value : Tbl Nat := []
  /-- changes that wait for the boundary: (id, value, tag) -/
  due : List (Nat × Nat × Nat) := []
  /-- holdoff values that took effect, newest first, each with its boundary (R310) -/
  holdoffs : List (Nat × Nat) := []
  deriving DecidableEq, Repr

/-! ### Vaults (12) -/

structure Session where
  number : Nat
  vault : Nat
  key : Key
  size : Nat
  first : Nat
  run : Nat
  received : Nat
  bytes : Cells
  lastUse : Nat
  replace : Bool
  /-- no object held its key when it was opened (R334) -/
  isNew : Bool
  deriving DecidableEq, Repr

/-- An effect of a vault command that lands with its record (R333). -/
inductive VaultEffect where
  | begin (s : Session)
  | data (session : Nat) (upTo : Nat) (bytes : Cells)
  | store (session : Nat) (o : Object)
  | drop (session : Nat)
  | sealKey (vault : Nat) (key : Key) (period wall : Nat)
  | remove (vault : Nat) (key : Key)
  deriving DecidableEq, Repr

structure Vault where
  volume : Nat := 0
  online : Bool := false
  superBad : Bool := false
  /-- generation and vault time of superblock copies 0 and 1 (R328) -/
  supers : List (Nat × Nat) := [(0, 0), (0, 0)]
  objects : List Object := []
  timeMs : Nat := 0
  lastStore : Nat := 0
  abandoned : Nat := 0
  failed : Nat := 0
  repaired : Nat := 0
  deriving DecidableEq, Repr

/-- An audit of an object that no command asked for (R343, R344). -/
structure VaultJob where
  id : Nat
  vault : Nat
  obj : Object
  needs : List Need
  data : Cells
  lost : List Nat
  groups : List Nat
  issued : Bool
  /-- the second audit, after the scrub of the object's rows -/
  second : Bool
  deriving DecidableEq, Repr

/-- An object whose mismatch is being repaired: the (layout, row, group) still to be scrubbed (R344). -/
structure VaultRepair where
  vault : Nat
  key : Key
  left : List (Nat × Nat × Nat)
  deriving DecidableEq, Repr

structure Vaults where
  vaults : List Vault := []
  sessions : List Session := []
  nextSession : Nat := 1
  jobs : List VaultJob := []
  nextJob : Nat := 0
  repairs : List VaultRepair := []
  /-- effects that wait to land: (record sequence, tag, effect) -/
  effects : List (Nat × Nat × VaultEffect) := []
  deriving DecidableEq, Repr

/-! ### Chain and pair (14) -/

structure ChainLane where
  /-- 0 Off, 1 Training, 2 Active, 3 Retired -/
  state : Nat := 0
  reserve : Bool := false
  crc : Nat := 0
  /-- frame numbers of failed lane checks in the window -/
  crcWindow : List Nat := []
  calFails : List Nat := []
  lastTrim : Nat := 0
  swapAt : Option Nat := none
  /-- cause of the swap under way, as R461 codes it -/
  swapCause : Nat := 5
  deriving DecidableEq, Repr

structure Chain where
  address : Option Nat := none
  ringUp : Bool := false
  singleLane : Bool := false
  units : Nat := 0
  lap : Nat := 0
  tokenClose : Nat := 0
  /-- lanes 3d + l -/
  lanes : List ChainLane := [{}, {}, {reserve := true}, {}, {}, {reserve := true}]
  /-- stream words sent and not yet taken: (frame, slot, word) -/
  outstanding : List (Nat × Nat × List Byte) := []
  resend : Bool := false
  /-- the receiver discards words until Restart -/
  discard : Bool := false
  /-- lane swaps named by the downstream neighbour: (direction, lane, frame), and outgoing lanes moved to the reserve -/
  outSwaps : List (Nat × Nat × Nat) := []
  outMoved : List (Nat × Nat) := []
  /-- header word whose data words are being received: (type, words left, sequence, offset) -/
  rxGroup : Option (Nat × Nat × Nat × Nat) := none
  /-- piece words that came in the quiet slice: (record, offset, word) (R44) -/
  rxLate : List (Nat × Nat × List Byte) := []
  txQueue : List (List Byte) := []
  /-- control messages this unit still has to send -/
  ctlQueue : List CtlMsg := []
  /-- at the head: a broadcast message seen once on this lap (R377) -/
  rxCtl : Option CtlMsg := none
  /-- the frame as it was last forwarded, with its direction -/
  txFrame : Option (Nat × Frame) := none
  words : Nat := 0
  restarts : Nat := 0
  frame : Nat := 0
  deriving DecidableEq, Repr

structure TallyPath where
  last : Option Nat := none
  /-- a new tally came in this close -/
  seen : Bool := false
  misses : Nat := 0
  run : Nat := 0
  alarm : Bool := false
  deriving DecidableEq, Repr

structure Witness where
  epoch : Nat
  owner : Nat
  otherCurrent : Bool
  ownerClose : Nat
  deriving DecidableEq, Repr

structure AuditRun where
  seq : Nat := 0
  running : Bool := false
  volume : Option Nat := none
  mark : Nat := 0
  records : Nat := 0
  tag : Option Nat := none
  digests : List (Nat × Nat) := []
  mapDigest : Nat := 0
  deriving DecidableEq, Repr

/-- The latest audit that has ended (R404). -/
structure AuditEnd where
  seq : Nat
  mark : Nat
  taken : Nat
  records : Nat
  scope : Nat
  result : Nat
  volume : Nat
  mapBad : Bool
  witness : Nat
  bad : List Nat
  deriving DecidableEq, Repr

structure Pair where
  /-- 0 Single, 1 Active, 2 Standby, 3 Isolated -/
  role : Nat := 0
  current : Bool := false
  /-- 0 Normal, 1 Negotiating, 2 Arbitrating, 3 Held, 4 Detached, 5 Joining, 6 Gap -/
  mode : Nat := 0
  eventClose : Nat := 0
  partnerAddr : Nat := 0
  partnerSeen : Bool := false
  negotiated : Option NegotiateMsg := none
  tallyCount : Nat := 0
  sendState : Nat := 0
  partnerState : Nat := 0
  partnerMissing : Nat := 0
  chain : TallyPath := {}
  hb : TallyPath := {}
  losses : Nat := 0
  badHb : Nat := 0
  hbUp : Bool := false
  hbSent : Nat := 0
  hbLast : Nat := 0
  fenced : Bool := false
  intakeHeld : Bool := false
  -- arbitration (R391, R392)
  won : List Nat := []
  lost : List Nat := []
  record : Bool := false
  recordAt : List Nat := []
  recordPending : Option Witness := none
  rounds : Nat := 0
  declared : Nat := 0
  heldSince : Nat := 0
  isolateDue : Bool := false
  /-- a win or decision waits for its boundary -/
  winDue : Bool := false
  witness : Option Witness := none
  -- takeover (R394, R395)
  takeovers : Nat := 0
  decision : Option Nat := none
  lastDecision : Nat := 0
  account : List AcctLine := []
  accountClose : Nat := 0
  failedSerial : Nat := 0
  /-- tags with ring and intent sequence for which a Posted notice came -/
  posted : List (Nat × Nat × Nat) := []
  /-- book entries held for the partner: (close, highest sequence of its cut) -/
  heldBooks : List (Nat × Nat) := []
  /-- ranges that the commands of the takeover account name: (volume, first block, blocks) (R71) -/
  acctRanges : List (Nat × Nat × Nat) := []
  /-- what the witness record being written is for: 1 arbitration, 2 takeover, 3 first record, 4 detach, 5 end of a join, 6 audit mismatch -/
  recordFor : Nat := 0
  chainDownSince : Option Nat := none
  detachStep : Nat := 0
  /-- an arbitration ended at the next boundary because tallies resumed -/
  resumeDue : Bool := false
  -- join (R400)
  joinStart : Nat := 0
  /-- records of the bulk copy not yet sent -/
  joinLeft : List Nat := []
  joinTotal : Nat := 0
  /-- records that the joining unit has confirmed -/
  joinConfirmed : List Nat := []
  bulkEnded : Bool := false
  -- audit (R397)
  audits : Nat := 0
  mismatches : Nat := 0
  run : AuditRun := {}
  lastAudit : Option AuditEnd := none
  nextAudit : Nat := 0
  waitingAudits : List Nat := []
  deriving DecidableEq, Repr

/-! ### Management, sensors, SMBus, daybook (15), fuses of reserves (17) -/

structure Mgmt where
  /-- 0 Running, 1 Restarting, 2 Stopped, 3 Starting -/
  state : Nat := 3
  expiries : List Nat := []
  restarts : Nat := 0
  eventClose : Nat := 0
  opMs : Nat := 0
  opStored : Nat := 0
  powerCycles : Nat := 0
  opClose : Nat := 0
  deriving DecidableEq, Repr

/-- One sensor (R411): level 0 Normal, 1 Warn, 2 Critical, 3 Trip, 4 Faulty. -/
structure Sensor where
  value : Int := 0
  aux : Nat := 0
  warn : Nat := 0
  level : Nat := 0
  /-- consecutive samples beyond the Warn, Critical and Trip limits, and inside each by the hysteresis -/
  above : List Nat := [0, 0, 0]
  below : List Nat := [0, 0, 0]
  inRange : Nat := 0
  deriving DecidableEq, Repr

structure Sensors where
  /-- indices of SNS_SUMMARY: 0–15 die, 16–17 ledger, 18–24 rails, 25 power -/
  units : Tbl Sensor := []
  peakMw : Nat := 0
  eventClose : Nat := 0
  deriving DecidableEq, Repr

structure Smbus where
  addr : Nat := 0
  result : Nat := 0
  cursor : BitVec 64 := 0
  eid : Nat := 0
  pec : Nat := 0
  requests : Nat := 0
  forbidden : Nat := 0
  deriving DecidableEq, Repr

/-- A trigger that waits, or a record being written (R420, R422). -/
structure DbRec where
  kind : Nat
  cause : Nat
  arg : Nat
  detail : List Byte
  alert : Bool
  opMs : Nat
  powerCycle : Nat
  close : Nat
  /-- the engine cycle of the trigger, which orders the triggers of one cycle (R422) -/
  cycle : Nat
  words : List Nat
  /-- bytes 64–95 for kind 0x15 cause 1, counts of a Coalesce record -/
  extra : List Byte
  deriving DecidableEq, Repr

structure KindCount where
  count : Nat := 0
  merged : Nat := 0
  deriving DecidableEq, Repr

/-- A trigger of the daybook: kind, cause, argument, detail, key, and whether it raises ALERT#. -/
structure DbTrigger where
  kind : Nat
  cause : Nat
  arg : Nat
  detail : List Byte
  extra : List Byte
  alert : Bool
  deriving DecidableEq, Repr

structure Daybook where
  /-- records held, by sequence: 128 bytes each -/
  ring : Tbl (List Byte) := []
  next : Nat := 0
  writing : Option (Nat × DbRec) := none
  queue : List DbRec := []
  /-- triggers that the firmware raises, waiting while Opfin does not run (R15, R405, R418) -/
  held : List DbTrigger := []
  /-- open accumulator: counts by kind, first and last close, Alert -/
  accum : Option (Tbl Nat × Nat × Nat × Bool) := none
  kinds : Tbl KindCount := []
  merged : Nat := 0
  coalesced : Nat := 0
  pending : Nat := 0
  lastAlert : Nat := 0
  cursor : BitVec 64 := 0
  deriving DecidableEq, Repr

/-- A reserve-history entry (R461). -/
structure HistEntry where
  element : Nat
  action : Nat
  cause : Nat
  physical : Nat
  logical : Nat
  powerCycle : Nat
  close : Nat
  seq : Nat
  deriving DecidableEq, Repr

structure DramRow where
  row : Nat
  events : List Nat
  uncorrectable : Bool
  repairDue : Bool
  deriving DecidableEq, Repr

structure Reserves where
  history : List HistEntry := []
  /-- the newest entry as RSV_LAST shows it: none from a start-up until its step 6 reads the history, or an entry is made (R14) -/
  last : Option HistEntry := none
  nextSeq : Nat := 0
  admitted : Nat := 0
  retired : Nat := 0
  testFailed : Nat := 0
  exhausted : Nat := 0
  rows : List DramRow := []
  repaired : List Nat := []
  repairedCount : Nat := 0
  mappedOut : List Nat := []
  dramCorrected : Nat := 0
  dramGib : Nat := 0
  fusePending : List (Nat × Nat) := []
  deriving DecidableEq, Repr

/-! ### Courier and map cache (16) -/

structure Slot where
  src : BitVec 64 := 0
  dst : BitVec 64 := 0
  count : Nat := 0
  valid : Bool := false
  last : Bool := false
  more : Bool := false
  srcFixed : Bool := false
  dstFixed : Bool := false
  srcSpace : Nat := 0
  dstSpace : Nat := 0
  xform : Nat := 0
  bad : Bool := false
  badCode : Nat := 0
  deriving DecidableEq, Repr

structure Channel where
  next : Nat := 0
  prio : Nat := 0
  /-- 0 Idle, 1 Running, 2 Waiting, 3 Paused -/
  state : Nat := 0
  slot : Nat := 0
  missed : Bool := false
  gen : Nat := 0
  genAtFetch : Nat := 0
  armed : Bool := false
  shadowSeq : Nat := 0
  shadowWseq : Nat := 0
  crc : BitVec 32 := 0
  slots : List Slot := List.replicate 4 {}
  shadow : List Slot := List.replicate 4 {}
  hoSrc : BitVec 64 := 0
  hoDst : BitVec 64 := 0
  hoCount : Nat := 0
  /-- the slot as latched at its fetch, the bytes moved, the running CRC state -/
  fetched : Slot := {}
  moved : Nat := 0
  crcRun : BitVec 32 := 0xFFFFFFFF
  readySince : Option Nat := none
  /-- an outstanding host read of this many bytes -/
  hostRead : Option Nat := none
  fetchedData : List Byte := []
  pulses : Nat := 0
  deriving DecidableEq, Repr

structure Courier where
  channels : List Channel := []
  maint : Bool := false
  enterPending : Bool := false
  exitPending : Bool := false
  bad : List Nat := List.replicate 9 0
  bursts : Nat := 0
  handovers : Nat := 0
  missed : Nat := 0
  lastGrant : Nat := 0
  /-- the SAS frame buffers as the courier addresses them -/
  frames : Cells := []
  deriving DecidableEq, Repr

structure Line where
  set : Nat
  way : Nat
  tag : Nat
  data : List Byte
  deriving DecidableEq, Repr

structure Fill where
  set : Nat
  tag : Nat
  gen : Nat
  /-- the way that replacement chose -/
  way : Nat
  /-- the line as DRAM held it at the read -/
  data : List Byte
  /-- joined lookups with the generation each recorded -/
  lookups : List (Nat × Nat)
  disabled : Bool
  deriving DecidableEq, Repr

structure Way where
  enabled : Bool := true
  disabling : Bool := false
  cause : Nat := 0
  corrected : List Nat := []
  eventClose : Nat := 0
  deriving DecidableEq, Repr

structure MapCache where
  lines : List Line := []
  fills : List Fill := []
  victims : List Line := []
  gens : Tbl Nat := []
  ways : List Way := List.replicate 16 {}
  hits : Nat := 0
  misses : Nat := 0
  victimHits : Nat := 0
  stale : Nat := 0
  retries : Nat := 0
  corrected : Nat := 0
  uncorrected : Nat := 0
  invalAddr : Nat := 0
  invalAll : Bool := false
  /-- misses that wait for a victim hold register: (id, address, way) -/
  waiting : List (Nat × Nat × Nat) := []
  /-- lookups served in the last step: (id, 64-byte entry) -/
  served : List (Nat × List Byte) := []
  deriving DecidableEq, Repr

/-- The registry copy in force on the registry members (R120, R174): what the drives hold of the device's state. -/
structure Registry where
  present : Bool := false
  layouts : List Layout := []
  /-- volume → layout as the registry's band tables say -/
  inUse : Tbl Nat := []
  /-- the volume-map copy -/
  bands : List Band := []
  /-- rebuild cursors as of the newest checkpoint (R150) -/
  passes : List Pass := []
  /-- drive records (R353): member → serial, SAS address, capacity -/
  drives : Tbl (Nat × Nat × Nat) := []
  ckpt : Option Ckpt := none
  /-- the checkpoint slots A and B (R120, R121): a slot that is being written holds none -/
  slotA : Option Ckpt := none
  slotB : Option Ckpt := none
  reshapes : List Reshape := []
  updates : List PoolUpdate := []
  loss : List LossEntry := []
  opTimes : Tbl (Nat × Nat) := []
  agree : List Nat := []
  deriving DecidableEq, Repr

/-- The answer to the last host or SMBus access. -/
inductive Rsp where
  | none
  | data (bytes : List Byte)
  | done
  | unsupported
  | retry
  deriving DecidableEq, Repr

/-- The whole machine. -/
structure State where
  pending : List Instr := []
  chip : Chip := {}
  fuses : Fuses := {}
  flash : Flash := {}
  charter : Option Charter := none
  clock : Clock := {}
  closers : Closers := {}
  ledger : Ledger := {}
  vols : Tbl Volume := []
  bands : List Band := []
  plans : Plans := {}
  works : List Work := []
  nextWork : Nat := 0
  holds : Holds := {}
  drives : Drives := {}
  sas : Tbl SasLane := []
  gov : Governor := {}
  degrade : Degrade := {}
  reshapes : Reshapes := {}
  tellers : Tellers := {}
  scratch : Scratch := {}
  wickets : Wickets := {}
  cmds : List Cmd := []
  returns : Returns := {}
  ints : Interrupts := {}
  cfg : ConfigSpace := {}
  link : Link := {}
  power : Power := {}
  resets : Resets := {}
  feats : Features := {}
  vaults : Vaults := {}
  chain : Chain := {}
  pair : Pair := {}
  mgmt : Mgmt := {}
  sensors : Sensors := {}
  smbus : Smbus := {}
  daybook : Daybook := {}
  reserves : Reserves := {}
  courier : Courier := {}
  map : MapCache := {}
  registry : Registry := {}
  dram : Cells := []
  /-- blocks held in the DRAM read cache: (volume, block, content) -/
  cache : List (Nat × Nat × Cells) := []
  hostMem : Cells := []
  /-- held low halves of 64-bit registers (R13): (address, value) -/
  heldLow : Tbl Nat := []
  /-- latched high halves (R13): (address, value) -/
  latched : Tbl Nat := []
  rsp : Rsp := .none
  smbRsp : Rsp := .none
  /-- counter of free values (log entry 10) -/
  free : Nat := 0
  deriving DecidableEq, Repr

/-- Why a step stops with a fault. -/
inductive Fault where
  /-- Raised by no meaning: the spec gives this part no event that stops it without a state it names (R2). Safe. -/
  | none
  deriving DecidableEq, Repr

/-- Why a step is refused. -/
inductive Refusal where
  /-- Raised only by an arm of exec whose command has no meaning yet. Safe. -/
  | notModelled (mnemonic : String)
  deriving DecidableEq, Repr

/-- The channels after reset: priorities of R428. -/
def resetChannels : List Channel :=
  List.replicate 4 {prio := 3} ++ List.replicate 4 {prio := 2} ++ List.replicate 4 {prio := 1} ++ List.replicate 4 {prio := 0}

/-- The machine after reset (log entries 2 and 3): the part as shipped, with PWRGD low, no key programmed (R21), its ledger unformatted (R464), an erased flash, and every register at its Reset value. -/
def State.reset : State :=
  { courier := { channels := resetChannels } }

end Sys2Proof.Machine
end

