-- ==== Sys2Proof/Machine/Bits.lean ====
section
/-! DEFINITION. Fields, byte orders, sparse tables, and the reads and writes of memories in canonical form. -/

namespace Sys2Proof.Machine

/-! ### Fields of a word -/

/-- Bits hi..lo of a word. -/
def fld (v hi lo : Nat) : Nat := v / 2 ^ lo % 2 ^ (hi + 1 - lo)

/-- One bit of a word. -/
def bit (v n : Nat) : Bool := v / 2 ^ n % 2 = 1

/-- A Bool as one bit. -/
def b1 (b : Bool) : Nat := if b then 1 else 0

/-- A register word from its fields, each (low bit, width, value); a value wider than its field shows its low bits. -/
def pack : List (Nat × Nat × Nat) → Nat
  | [] => 0
  | (lo, w, v) :: r => (v % 2 ^ w) * 2 ^ lo + pack r

/-- A count that holds at a bound. -/
def hold (cap n : Nat) : Nat := min n cap

/-- A count raised by one that holds at a bound. -/
def inc (cap n : Nat) : Nat := min (n + 1) cap

/-- The word whose bit n is set for each n of the list. -/
def maskOf (l : List Nat) : Nat := (l.eraseDups).foldl (fun a n => a + 2 ^ n) 0

/-- The word whose bit n shows the n-th Bool. -/
def boolMask : List Bool → Nat
  | [] => 0
  | b :: r => b1 b + 2 * boolMask r

/-- The numbers n < w whose bit is set. -/
def bitsOf (w v : Nat) : List Nat := (List.range w).filter (bit v)

/-! ### Little-endian bytes (R5) -/

def byteOf (n : Nat) : Byte := BitVec.ofNat 8 n

/-- The low `len` bytes of n, lowest first. -/
def natLe : Nat → Nat → List Byte
  | 0, _ => []
  | len + 1, n => byteOf n :: natLe len (n / 256)

/-- The number whose bytes these are, lowest first. -/
def leNat : List Byte → Nat
  | [] => 0
  | b :: r => b.toNat + 256 * leNat r

/-- The little-endian field of `len` bytes at byte `off`. -/
def le (bs : List Byte) (off len : Nat) : Nat := leNat ((bs.drop off).take len)

/-- The signed reading of a w-bit number. -/
def signed (w v : Nat) : Int := if v % 2 ^ w < 2 ^ (w - 1) then (v % 2 ^ w : Nat) else ((v % 2 ^ w : Nat) : Int) - 2 ^ w

/-- The w-bit two's-complement form of an integer. -/
def unsigned (w : Nat) (v : Int) : Nat := (v % 2 ^ w).toNat

def zeros (n : Nat) : List Byte := List.replicate n 0

/-- The first n bytes of a list, with zeros behind where it is shorter. -/
def padTo (n : Nat) (bs : List Byte) : List Byte := (bs ++ zeros n).take n

/-- Byte-wise exclusive or, to the longer length. -/
def xorBytes : List Byte → List Byte → List Byte
  | [], b => b
  | a, [] => a
  | x :: a, y :: b => (x ^^^ y) :: xorBytes a b

/-- `n` in ⌈n / d⌉ parts. -/
def ceilDiv (n d : Nat) : Nat := (n + d - 1) / d

/-- log2 rounded down; 0 for 0. -/
def log2 (n : Nat) : Nat := Nat.log2 n

/-! ### Lists -/

/-- The list with its n-th entry changed. -/
def modAt {α : Type} (f : α → α) : Nat → List α → List α
  | _, [] => []
  | 0, a :: r => f a :: r
  | n + 1, a :: r => a :: modAt f n r

/-- The list with each entry that meets p changed. -/
def modIf {α : Type} (p : α → Bool) (f : α → α) : List α → List α
  | [] => []
  | a :: r => (if p a then f a else a) :: modIf p f r

def sumOf {α : Type} (f : α → Nat) (l : List α) : Nat := l.foldl (fun n a => n + f a) 0

def maxOf (l : List Nat) : Nat := l.foldl max 0

def minOf : List Nat → Option Nat
  | [] => none
  | a :: r => some (r.foldl min a)

/-! ### Sparse tables -/

/-- The entry of a number, or the default. -/
def tget {α : Type} (d : α) : Tbl α → Nat → α
  | [], _ => d
  | (k, v) :: r, n => if k = n then v else tget d r n

/-- The table with the entry of a number set; numbers stay rising. -/
def tset {α : Type} : Tbl α → Nat → α → Tbl α
  | [], n, v => [(n, v)]
  | (k, w) :: r, n, v => if k = n then (n, v) :: r else if n < k then (n, v) :: (k, w) :: r else (k, w) :: tset r n v

/-- The table with the entry of a number changed. -/
def tmod {α : Type} (d : α) (t : Tbl α) (n : Nat) (f : α → α) : Tbl α := tset t n (f (tget d t n))

/-- The table without the entry of a number. -/
def tdel {α : Type} (t : Tbl α) (n : Nat) : Tbl α := t.filter (fun e => e.1 != n)

/-! ### Memories (State is plain data) -/

/-- The byte at an address; an unlisted address reads as `d`. -/
def Memory.read (d : Byte) : Cells → Nat → Byte
  | [], _ => d
  | (k, v) :: r, a => if k = a then v else Memory.read d r a

/-- The memory with one byte written, in canonical form. -/
def Memory.write (d : Byte) : Cells → Nat → Byte → Cells
  | [], a, b => if b = d then [] else [(a, b)]
  | (k, v) :: r, a, b =>
    if k = a then (if b = d then r else (a, b) :: r)
    else if a < k then (if b = d then (k, v) :: r else (a, b) :: (k, v) :: r)
    else (k, v) :: Memory.write d r a b

/-- Canonical form above a bound: addresses at or above it and strictly rising, no cell equal to what an unlisted address reads as. -/
def Memory.wfFrom (d : Byte) : Nat → Cells → Bool
  | _, [] => true
  | n, (k, v) :: r => decide (n ≤ k) && decide (v ≠ d) && Memory.wfFrom d (k + 1) r

/-- Canonical form. -/
def Memory.wf (d : Byte) (m : Cells) : Bool := Memory.wfFrom d 0 m

/-- `len` bytes from an address on, of cells at or above that address in canonical form. -/
def Memory.readFrom (d : Byte) : Cells → Nat → Nat → List Byte
  | _, _, 0 => []
  | [], a, len + 1 => d :: Memory.readFrom d [] (a + 1) len
  | (k, v) :: r, a, len + 1 => if k = a then v :: Memory.readFrom d r (a + 1) len else d :: Memory.readFrom d ((k, v) :: r) (a + 1) len

/-- `len` bytes from an address on. -/
def Memory.readN (d : Byte) (m : Cells) (a : Nat) (len : Nat) : List Byte :=
  Memory.readFrom d (m.filter (fun c => a ≤ c.1 && c.1 < a + len)) a len

/-- The cells of a byte string placed at an address. -/
def Memory.cellsOf (d : Byte) : Nat → List Byte → Cells
  | _, [] => []
  | a, b :: r => if b = d then Memory.cellsOf d (a + 1) r else (a, b) :: Memory.cellsOf d (a + 1) r

/-- Bytes written from an address on. -/
def Memory.writeN (d : Byte) (m : Cells) (a : Nat) (bs : List Byte) : Cells :=
  m.filter (fun c => c.1 < a) ++ Memory.cellsOf d a bs ++ m.filter (fun c => a + bs.length ≤ c.1)

/-- Lanes written from an address on; a lane whose enable is off changes nothing. -/
def Memory.writeLanes (d : Byte) : Cells → Nat → Lanes → Cells
  | m, _, [] => m
  | m, a, some b :: r => Memory.writeLanes d (Memory.write d m a b) (a + 1) r
  | m, a, none :: r => Memory.writeLanes d m (a + 1) r

/-- The cells of addresses lo to hi-1, counted from lo. -/
def Memory.slice (m : Cells) (lo hi : Nat) : Cells :=
  (m.filter (fun c => lo ≤ c.1 && c.1 < hi)).map (fun c => (c.1 - lo, c.2))

/-- The memory with the cells of a block placed at an address over `len` bytes. -/
def Memory.place (d : Byte) (m : Cells) (a len : Nat) (b : Cells) : Cells :=
  m.filter (fun c => c.1 < a) ++ ((b.filter (fun c => c.1 < len && c.2 != d)).map (fun c => (c.1 + a, c.2))) ++ m.filter (fun c => a + len ≤ c.1)

/-- A memory whose bytes are these, unlisted reading as zero. -/
def Memory.ofBytes (bs : List Byte) : Cells := Memory.cellsOf 0 0 bs

/-- The bytes 0 to len-1 of a zero-default memory. -/
def Memory.bytes (m : Cells) (len : Nat) : List Byte := Memory.readN 0 m 0 len

/-- The value of an anti-rollback counter: blown fuses counted upward from fuse 0 (R27). -/
def thermometer (blown : List Nat) : Nat → Nat → Nat
  | 0, n => n
  | fuel + 1, n => if blown.contains n then thermometer blown fuel (n + 1) else n

/-! ### Shorthand over State -/

/-- The close now running. -/
abbrev State.now (s : State) : Nat := s.clock.close

/-- The cycle of the close is at least t (R6); it never leaves the close. -/
def State.at (s : State) (t : Nat) : State :=
  { s with clock := { s.clock with cycle := min 25599 (max s.clock.cycle t) } }

/-- The quiet slice (R42). -/
def State.quiet (s : State) : Bool := 24576 ≤ s.clock.cycle

/-- A free value: the next one of Config, and the counter advanced (log entry 10). -/
def takeFree (s : State) : State × BitVec 64 := ({ s with free := s.free + 1 }, Config.freeValue s.free)

/-- Number of entries that meet p. -/
def countIf {α : Type} (p : α → Bool) (l : List α) : Nat := (l.filter p).length

/-- Entries within the last 2^w closes (a disagreement, an error, a failure): those that have left the window are dropped before a new one is counted (R450, R451). -/
def recent (w now : Nat) (l : List Nat) : List Nat := l.filter (fun c => now < c + 2 ^ w)

end Sys2Proof.Machine
end

