-- ==== Sys2Proof/Machine/Crypto.lean ====
section
/-! DEFINITION. The functions of published standards that the part computes: CRC-32C, SHA-256, SHA-384 (FIPS 180-4) and the ECDSA P-384 verification (R20), PEC and T10 aside (log entry 9). -/

namespace Sys2Proof.Machine

/-! ### CRC-32C -/

/-- One bit of the reflected CRC-32C shift (polynomial 0x1EDC6F41). -/
def crcBit (c : BitVec 32) : BitVec 32 := if c &&& 1 = 1 then (c >>> 1) ^^^ 0x82F63B78 else c >>> 1

/-- One byte into a running CRC-32C. -/
def crcByte (c : BitVec 32) (b : Byte) : BitVec 32 :=
  crcBit (crcBit (crcBit (crcBit (crcBit (crcBit (crcBit (crcBit (c ^^^ b.setWidth 32))))))))

/-- Bytes into a running CRC-32C. -/
def crcRun (c : BitVec 32) (bs : List Byte) : BitVec 32 := bs.foldl crcByte c

/-- CRC-32C of a byte string. -/
def crc32c (bs : List Byte) : BitVec 32 := ~~~ (crcRun 0xFFFFFFFF bs)

/-! ### SHA-2 -/

/-- Rotate right in w bits. -/
def rotr (w n x : Nat) : Nat := (x / 2 ^ n) ||| (x * 2 ^ (w - n) % 2 ^ w)

/-- The big-endian number of a byte string. -/
def beNat (bs : List Byte) : Nat := bs.foldl (fun a b => a * 256 + b.toNat) 0

/-- The low `len` bytes of n, highest first. -/
def natBe (len n : Nat) : List Byte := (natLe len n).reverse

/-- What differs between SHA-256 and SHA-384: word width, round constants, rotations. -/
structure ShaKind where
  w : Nat
  k : List Nat
  h : List Nat
  bigA : Nat × Nat × Nat
  bigE : Nat × Nat × Nat
  s0 : Nat × Nat × Nat
  s1 : Nat × Nat × Nat

/-- The greatest x below b + 2^n with x^e ≤ v, where b^e ≤ v: one bit of x after the other, from the highest. -/
def rootFrom (e v : Nat) : Nat → Nat → Nat
  | 0, b => b
  | n + 1, b => rootFrom e v n (if (b + 2 ^ n) ^ e ≤ v then b + 2 ^ n else b)

/-- The first w bits behind the point of the e-th root of p. -/
def rootFraction (w e p : Nat) : Nat := rootFrom e (p * 2 ^ (e * w)) (w + 9) 0 % 2 ^ w

/-- The first primes: numbers that no prime of the list divides, upward from a number. -/
def primesFrom : Nat → Nat → List Nat → List Nat
  | 0, _, ps => ps
  | fuel + 1, n, ps => primesFrom fuel (n + 1) (if ps.any (fun p => n % p = 0) then ps else ps ++ [n])

/-- The primes below 410, of which FIPS 180-4 takes the first 80. -/
def shaPrimes : List Nat := primesFrom 408 2 []

/-- The round constants: fractions of the cube roots of the first primes, n of them in w bits. -/
def shaRounds (w n : Nat) : List Nat := (shaPrimes.take n).map (rootFraction w 3)

/-- The initial hash: fractions of the square roots of eight primes, from the one with the given index on. -/
def shaInit (w first : Nat) : List Nat := ((shaPrimes.drop first).take 8).map (rootFraction w 2)

def sha256Kind : ShaKind := ⟨32, shaRounds 32 64, shaInit 32 0, (2, 13, 22), (6, 11, 25), (7, 18, 3), (17, 19, 10)⟩

def sha384Kind : ShaKind := ⟨64, shaRounds 64 80, shaInit 64 8, (28, 34, 39), (14, 18, 41), (1, 8, 7), (19, 61, 6)⟩

/-- Σ: three rotations. -/
def ShaKind.big (s : ShaKind) (r : Nat × Nat × Nat) (x : Nat) : Nat := rotr s.w r.1 x ^^^ rotr s.w r.2.1 x ^^^ rotr s.w r.2.2 x

/-- σ: two rotations and a shift. -/
def ShaKind.small (s : ShaKind) (r : Nat × Nat × Nat) (x : Nat) : Nat := rotr s.w r.1 x ^^^ rotr s.w r.2.1 x ^^^ (x / 2 ^ r.2.2)

/-- The message schedule, newest word first, extended by n words. -/
def ShaKind.extend (s : ShaKind) : Nat → List Nat → List Nat
  | 0, ws => ws
  | n + 1, ws =>
    s.extend n (((s.small s.s1 (ws.getD 1 0) + ws.getD 6 0 + s.small s.s0 (ws.getD 14 0) + ws.getD 15 0) % 2 ^ s.w) :: ws)

/-- One round: the eight working variables, a round constant and a schedule word. -/
def ShaKind.round (s : ShaKind) (v : List Nat) (kw : Nat × Nat) : List Nat :=
  match v with
  | [a, b, c, d, e, f, g, h] =>
    let m := 2 ^ s.w
    let ch := (e &&& f) ^^^ ((m - 1 - e) &&& g)
    let maj := (a &&& b) ^^^ (a &&& c) ^^^ (b &&& c)
    let t1 := h + s.big s.bigE e + ch + kw.1 + kw.2
    let t2 := s.big s.bigA a + maj
    [(t1 + t2) % m, a, b, c, (d + t1) % m, e, f, g]
  | _ => v

/-- One block into the hash. -/
def ShaKind.block (s : ShaKind) (h : List Nat) (words : List Nat) : List Nat :=
  let ws := (s.extend (s.k.length - 16) words.reverse).reverse
  List.zipWith (fun x y => (x + y) % 2 ^ s.w) h ((s.k.zip ws).foldl s.round h)

/-- A byte string cut into pieces of n bytes; `fuel` bounds the pieces. -/
def pieces (n : Nat) : Nat → List Byte → List (List Byte)
  | 0, _ => []
  | fuel + 1, bs => if bs.isEmpty then [] else bs.take n :: pieces n fuel (bs.drop n)

/-- The padded message. -/
def ShaKind.pad (s : ShaKind) (bs : List Byte) : List Byte :=
  let blk := s.w * 2
  let lenB := s.w / 4
  let z := (blk - (bs.length + 1 + lenB) % blk) % blk
  bs ++ [0x80] ++ zeros z ++ natBe lenB (bs.length * 8)

/-- The digest of a byte string, `out` bytes. -/
def ShaKind.digest (s : ShaKind) (out : Nat) (bs : List Byte) : List Byte :=
  let p := s.pad bs
  let blocks := pieces (s.w * 2) p.length p
  let words := fun (b : List Byte) => (pieces (s.w / 8) b.length b).map beNat
  ((blocks.foldl (fun h b => s.block h (words b)) s.h).flatMap (natBe (s.w / 8))).take out

def sha256 (bs : List Byte) : List Byte := sha256Kind.digest 32 bs

def sha384 (bs : List Byte) : List Byte := sha384Kind.digest 48 bs

/-! ### ECDSA over P-384 -/

/-- The field prime 2^384 − 2^128 − 2^96 + 2^32 − 1. -/
def p384P : Nat := 2 ^ 384 - 2 ^ 128 - 2 ^ 96 + 2 ^ 32 - 1
/-- The order of the base point. -/
def p384N : Nat := 0xffffffffffffffffffffffffffffffffffffffffffffffffc7634d81f4372ddf581a0db248b0a77aecec196accc52973
def p384B : Nat := 0xb3312fa7e23ee7e4988e056be3f82d19181d9c6efe8141120314088f5013875ac656398d8a2ed19d2a85c8edd3ec2aef
def p384Gx : Nat := 0xaa87ca22be8b05378eb1c71ef320ad746e1d3b628ba79b9859f741e082542a385502f25dbf55296c3a545e3872760ab7
def p384Gy : Nat := 0x3617de4a96262c6f5d9e98bf9292dc29f8f41dbd289a147ce9da3113b5f0b8c00a60b1ce1d7e819d7a431d7c90ea0e5f

/-- a^e mod m; `fuel` bounds the bits of e. -/
def powMod (m : Nat) : Nat → Nat → Nat → Nat
  | 0, _, _ => 1 % m
  | fuel + 1, a, e => if e % 2 = 1 then a * powMod m fuel (a * a % m) (e / 2) % m else powMod m fuel (a * a % m) (e / 2)

/-- The inverse modulo a prime. -/
def invMod (m a : Nat) : Nat := powMod m 400 (a % m) (m - 2)

/-- A point: none is the point at infinity. -/
abbrev P384 := Option (Nat × Nat)

/-- The sum of two points of the curve y² = x³ − 3x + b. -/
def p384Add : P384 → P384 → P384
  | none, q => q
  | p, none => p
  | some (x1, y1), some (x2, y2) =>
    let p := p384P
    if x1 = x2 ∧ (y1 + y2) % p = 0 then none
    else
      let l := if x1 = x2 then (3 * x1 * x1 + (p - 3)) * invMod p (2 * y1) % p
               else (y2 + p - y1) * invMod p (x2 + p - x1) % p
      let x3 := (l * l + 2 * p - x1 - x2) % p
      some (x3, (l * (x1 + p - x3) + p - y1) % p)

/-- k times a point; `fuel` bounds the bits of k. -/
def p384Mul : Nat → Nat → P384 → P384
  | 0, _, _ => none
  | fuel + 1, k, q =>
    let r := p384Mul fuel (k / 2) (p384Add q q)
    if k % 2 = 1 then p384Add q r else r

/-- ECDSA verification over a SHA-384 digest; key Qx then Qy and signature r then s, 48 bytes each (R20). -/
def p384Verify (key sig digest : List Byte) : Bool :=
  let qx := beNat (key.take 48)
  let qy := beNat (key.drop 48)
  let r := beNat (sig.take 48)
  let s := beNat (sig.drop 48)
  let onCurve := qx < p384P && qy < p384P && (qy * qy % p384P == (qx * qx * qx + (p384P - 3) * qx + p384B) % p384P)
  if !onCurve || r = 0 || s = 0 || p384N ≤ r || p384N ≤ s then false
  else
    let w := invMod p384N s
    let u1 := beNat digest * w % p384N
    let u2 := r * w % p384N
    match p384Add (p384Mul 384 u1 (some (p384Gx, p384Gy))) (p384Mul 384 u2 (some (qx, qy))) with
    | none => false
    | some (x, _) => x % p384N == r

end Sys2Proof.Machine
end

