-- ==== Sys2Proof/Machine/Flags.lean ====
section
/-! DEFINITION. The status and interrupt flags: sources, vectors, messages, INTA, wake causes (09), ALERT# (R413). -/

namespace Sys2Proof.Machine

/-! ### Host writes -/

/-- A device write into host memory (R16); the link is in L0 for it (R257). -/
def hostWrite (s : State) (a : Nat) (bs : List Byte) : State :=
  { s with hostMem := Memory.writeN 0 s.hostMem a bs, link := { s.link with aspm := 0 } }

/-- Opfin runs its duties (R405). -/
def opfin (s : State) : Bool := s.mgmt.state = 0

/-! ### Interrupts (R239–R242) -/

/-- The interrupt mode of the configuration bits (R239): 0 None, 1 INTx, 2 MSI, 3 MSI-X. -/
def intModeOf (c : ConfigSpace) : Nat :=
  if c.msixEnable then 3 else if c.msiEnable then 2 else if c.intxDisable then 0 else 1

/-- Vectors granted in MSI mode (R240). -/
def msiVectors (c : ConfigSpace) : Nat := min 32 (2 ^ c.mme)

/-- The vector of a source (R240); source 64 is management. -/
def vectorOf (c : ConfigSpace) (src : Nat) : Nat :=
  if intModeOf c = 2 then
    let v := msiVectors c
    if v = 1 then 0 else if src = 64 then v - 1 else src % (v - 1)
  else src

/-- The active sources (R241). -/
def activeSources (i : Interrupts) : List Nat :=
  (List.range 64).filter (fun n => i.ringPending.getLsbD n && !i.ringMask.getLsbD n) ++
    (if i.cause &&& ~~~i.causeMask = 0 then [] else [64])

/-- The active vectors (R241). -/
def activeVectors (s : State) : List Nat := ((activeSources s.ints).map (vectorOf s.cfg)).eraseDups

/-- Whether a vector is masked in the mode in force (R241). -/
def vecMasked (s : State) (v : Nat) : Bool :=
  if intModeOf s.cfg = 3 then s.cfg.functionMask || (tget {} s.ints.table v).mask
  else if intModeOf s.cfg = 2 then s.cfg.msiMask.getLsbD v else false

/-- Messages may leave: bus mastering on and not in D3hot (R241). -/
def canSend (s : State) : Bool := s.cfg.busMaster && s.cfg.powerState = 0 && !s.returns.holding && !s.returns.draining

/-- The message of a vector as a host write (R241), counted. -/
def emitMessage (s : State) (v : Nat) : State :=
  let e := tget {} s.ints.table v
  let w :=
    if intModeOf s.cfg = 3 then hostWrite s e.addr (natLe 4 e.data)
    else
      let vs := msiVectors s.cfg
      hostWrite s s.cfg.msiAddr (natLe 4 (s.cfg.msiData / vs * vs + v))
  { w with ints := { w.ints with sent := w.ints.sent + 1, lastSent := v } }

/-- Sends a vector's message, or sets its pending bit when it is masked, or keeps it while bus mastering is off (R241). -/
def sendMessage (s : State) (v : Nat) : State :=
  if vecMasked s v then
    if intModeOf s.cfg = 3 then { s with ints := { s.ints with pba := (s.ints.pba ++ [v]).eraseDups } }
    else { s with ints := { s.ints with msiPending := (s.ints.msiPending ++ [v]).eraseDups } }
  else if canSend s then emitMessage s v
  else { s with ints := { s.ints with kept := (s.ints.kept ++ [v]).eraseDups } }

/-- Evaluates the interrupt sources after a change of a source, a mask or the mode (R239, R241, R242). -/
def updateIrq (s : State) : State :=
  -- in Recovery entered at step 4 no message leaves and INTA stays deasserted (R37)
  if s.chip.step = 14 && !s.chip.recoveryAt3 then s else
  let m := intModeOf s.cfg
  -- a change of mode discards what the old mode kept
  let s0 : State := if m = s.ints.mode then s else
    { s with ints := { s.ints with mode := m, active := [], pba := [], msiPending := [], kept := [], inta := false } }
  let act := activeVectors s0
  let fresh := act.filter (fun v => !s0.ints.active.contains v)
  let pend := if m = 3 then s0.ints.pba else s0.ints.msiPending
  -- a pending bit of a vector no longer active clears; of one unmasked while active, its message goes
  let open' := pend.filter (fun v => act.contains v && !fresh.contains v && !vecMasked s0 v)
  let left := pend.filter (fun v => act.contains v && vecMasked s0 v)
  let s1 : State := { s0 with ints := { s0.ints with
    active := act,
    pba := if m = 3 then left else [],
    msiPending := if m = 2 then left else [],
    inta := m = 1 && !(activeSources s0.ints).isEmpty } }
  if m = 2 || m = 3 then (open' ++ fresh).foldl sendMessage s1 else s1

/-- Hardware set of a bit of INT_MGMT_CAUSE. -/
def mgmtCause (s : State) (n : Nat) : State :=
  updateIrq { s with ints := { s.ints with cause := s.ints.cause ||| BitVec.ofNat 10 (2 ^ n) } }

/-- Hardware set of a ring's bit of INT_RING_PENDING. -/
def ringCause (s : State) (n : Nat) : State :=
  updateIrq { s with ints := { s.ints with ringPending := s.ints.ringPending ||| BitVec.ofNat 64 (2 ^ n) } }

/-- A wake cause (R256): 0 tally, 1 sensor, 2 ledger; it acts in Dormant only. -/
def wakeUp (s : State) (n : Nat) : State :=
  if s.power.state ≠ 3 then s
  else
    let wc := s.charter.any (fun c => bit c.pinFlags 0)
    { s with
      ints := { s.ints with wake := s.ints.wake ||| BitVec.ofNat 3 (2 ^ n), wakeClose := s.now, wakeLow := s.ints.wakeLow || (s.cfg.pmeEn && wc) }
      cfg := { s.cfg with pmeStatus := s.cfg.pmeStatus || s.cfg.pmeEn } }

/-! ### Sensors and ALERT# (R411–R413) -/

/-- A sensor is at Warn or above, or Faulty. -/
def Sensor.alarm (x : Sensor) : Bool := x.level ≠ 0

def sensorAlarm (s : State) : Bool := s.sensors.units.any (fun e => e.2.alarm)

/-- ALERT# is low (R413). -/
def alertLow (s : State) : Bool := s.daybook.pending ≠ 0 || sensorAlarm s

end Sys2Proof.Machine
end

