-- ==== Sys2Proof/Machine/Galois.lean ====
section
/-! DEFINITION. The field GF(2^16) of the Benian code (R73), over symbols and over byte strings of symbols (R74). -/

namespace Sys2Proof.Machine

/-- Multiplication by α: a left shift, reduced by 0x1_100B (R73). -/
def gfX (a : BitVec 16) : BitVec 16 := if a.getLsbD 15 then (a <<< 1) ^^^ 0x100B else a <<< 1

/-- The product, bit by bit of the second factor; `n` bits of it are used. -/
def gfMulN : Nat → BitVec 16 → BitVec 16 → BitVec 16
  | 0, _, _ => 0
  | n + 1, a, b => (if b.getLsbD 0 then a else 0) ^^^ gfMulN n (gfX a) (b >>> 1)

/-- The product of two field elements (R73). -/
def gfMul (a b : BitVec 16) : BitVec 16 := gfMulN 16 a b

/-- a^e; `n` bits of e are used. -/
def gfPowN : Nat → BitVec 16 → Nat → BitVec 16
  | 0, _, _ => 1
  | n + 1, a, e => if e % 2 = 1 then gfMul a (gfPowN n (gfMul a a) (e / 2)) else gfPowN n (gfMul a a) (e / 2)

/-- A power of an element. -/
def gfPow (a : BitVec 16) (e : Nat) : BitVec 16 := gfPowN 32 a e

/-- α^n for any integer n: the order of α is 65,535. -/
def gfAlpha (n : Int) : BitVec 16 := gfPow 2 (n % 65535).toNat

/-- The inverse; 0 for 0 (VOL_GF_RESULT). -/
def gfInv (a : BitVec 16) : BitVec 16 := gfPow a 65534

/-- The n below 65,535 with α^n = a, counted up from k with α^k = x; `fuel` bounds the steps. -/
def gfLogFrom : Nat → BitVec 16 → BitVec 16 → Nat → Nat
  | 0, _, _, _ => 0xFFFF
  | fuel + 1, a, x, k => if x = a then k else gfLogFrom fuel a (gfX x) (k + 1)

/-- The discrete logarithm; 0xFFFF for 0 (VOL_GF_RESULT). -/
def gfLog (a : BitVec 16) : Nat := gfLogFrom 65535 a 1 0

/-- A coefficient times every symbol of a byte string (R74). -/
def gfScale (c : BitVec 16) : List Byte → List Byte
  | lo :: hi :: r =>
    let p := gfMul c (hi ++ lo)
    p.setWidth 8 :: (p >>> 8).setWidth 8 :: gfScale c r
  | _ => []

end Sys2Proof.Machine
end

