-- ==== Sys2Proof/Machine/RegRead.lean ====
section
/-! DEFINITION. The control window as it reads (R8–R10, R14): the 64-bit register at each aligned address, from State. No read here has a side effect; RC clears and latches are in RegWrite. -/

namespace Sys2Proof.Machine

/-- A charter value, or the default before a charter is loaded. -/
def State.ch {α : Type} (s : State) (f : Charter → α) (d : α) : α := (s.charter.map f).getD d

/-! ### Counts that registers show -/

def layoutOf (s : State) (i : Nat) : Option Layout := s.ch (fun c => c.layouts.find? (fun l => l.index = i)) none

def volDef (s : State) (v : Nat) : Option VolumeDef := s.ch (fun c => c.volumes.find? (fun d => d.volume = v)) none

def vol (s : State) (v : Nat) : Volume := tget {} s.vols v

/-- Σ k_j. -/
def Layout.data (l : Layout) : Nat := sumOf (·.width) l.groups

/-- Chunk bytes C. -/
def Layout.chunk (l : Layout) : Nat := 16384 * 2 ^ l.chunkLog

/-- Members of a row, W. -/
def Layout.width (l : Layout) : Nat := l.data + 2 * l.groups.length + l.globals

/-- The pools of a layout: group pool j is number j, the keystone pools are 16 and 17 (VOL_PASS_STATE.POOL). -/
def Layout.pools (l : Layout) : List (Nat × Pool) :=
  (List.range l.groups.length).zip l.groups ++ ([16, 17]).zip l.keystones

/-- Data blocks of a band of a volume, S (R91). -/
def bandBlocks (l : Layout) (v : VolumeDef) : Nat := 2 ^ v.bandLog * l.data * (l.chunk / 4096)

def mem (s : State) (m : Nat) : Member := tget {} s.drives.members m

/-- Retired and not yet rebuilt (state 3 of page 0x10). -/
def memRetired (s : State) (m : Nat) : Bool := (mem s m).state = 3

/-- The record area is used by intent, write-data and vault records (R98, R99). -/
def Rec.inArea (r : Rec) : Bool := r.kind = 1 || r.kind = 2 || r.kind = 6 || r.kind = 7

/-- The states of a record from which it is held. -/
def Rec.held (r : Rec) : Bool := r.state != .released

/-- Bytes a record occupies: header and body, rounded up to 64 (R99); a Filling one, what has been written (log entry 20). -/
def Rec.space (r : Rec) : Nat := 64 + ceilDiv (if r.state = .filling then r.filled else r.bodyLen) 64 * 64

/-- Bytes of the record area in use (Occupancy). -/
def usedBytes (s : State) : Nat := sumOf Rec.space ((s.ledger.recs ++ s.ledger.copies).filter (fun r => r.held && r.inArea))

/-- Bytes of the record area. -/
def areaBytes (s : State) : Nat := s.ledger.recordBlocks * 65536

/-- Bytes of the record area that are free. -/
def roomLeft (s : State) : Nat := areaBytes s - usedBytes s

/-- Occupancy in tenths of a percent (R128). -/
def permille (s : State) : Nat := if areaBytes s = 0 then 1000 else usedBytes s * 1000 / areaBytes s

/-- A pending read pins the record (R62). -/
def pinned (s : State) (seq : Nat) : Bool := s.cmds.any (fun c => c.pins.contains seq)

/-- A feature's charter envelope (R310). -/
def envelope (s : State) (id : Nat) : Envelope :=
  match s.ch (fun c => c.envelopes.find? (fun e => e.id = id)) none with
  | some e => e
  | none =>
    let v := if id = 1 then 1000 else if id = 2 then s.ch (·.holdoff) 1024 else if id = 3 then s.ch (·.rebuildFloor) 10
      else if id = 4 then s.ch (·.spinLimit) 4 else 1
    ⟨id, v, v, v⟩

/-- The value of a feature in force (R310). -/
def feature (s : State) (id : Nat) : Nat := tget (envelope s id).dflt s.feats.value id

/-- Resource left of an element kind among physical numbers from `first`: neither mapped nor fused away. -/
def tellersLeft (s : State) : Nat :=
  countIf (fun p => let t := tget {} s.tellers.phys p; t.state = 2 || t.state = 3) ((List.range 8).map (· + 128))

def banksLeft (s : State) : Nat :=
  countIf (fun b => let k := tget {} s.scratch.banks b; !k.mapped && !k.retired && !s.scratch.copies.any (fun c => c.new = some b)) ((List.range 8).map (· + 256))

/-- Closer 3 forms verdicts and can be admitted (R51). -/
def reserveReady (s : State) : Bool := (s.closers.units.drop 3).any (fun c => c.phys.isSome && !c.votes && !c.retired)

/-- An element was left out by a retirement fuse or by the reserve history (R460). -/
def fusedOut (s : State) (element n : Nat) : Bool :=
  s.fuses.retired.contains (element, n) || s.reserves.history.any (fun e => e.element = element && e.physical = n && (e.action = 1 || e.action = 4))

def registryMember (s : State) (m : Nat) : Bool := s.ch (fun c => c.registry.contains m || c.alternates.contains m) false

def partnerSerial (s : State) : Nat := s.ch (fun c => if c.serial0 = s.fuses.serial then c.serial1 else c.serial0) 0

/-- The rebuild floor in use: the RebuildFloor feature may raise that of the charter (R168). -/
def floorNow (s : State) : Nat := max (s.ch (·.rebuildFloor) 10) (feature s 3)

/-! ### Passes and pool positions (R149–R152) -/

/-- Rows that a pass has gone by, over every round. -/
def Pass.gone (p : Pass) : Nat := p.laps * p.rows + p.cursor

/-- Where the restoring of a member began, in rows gone by (R152). -/
def Pass.start (p : Pass) (m : Nat) : Nat := ((p.late.find? (fun e => e.1 = m)).map (·.2)).getD 0

/-- The pass has restored a member's chunks of a row: it has come by the row since the member's start. -/
def Pass.didRow (p : Pass) (m row : Nat) : Bool :=
  let n := max 1 p.rows
  p.start m + (row + n - p.start m % n) % n < p.gone

/-- The pass has gone one whole round for a member. -/
def Pass.didAll (p : Pass) (m : Nat) : Bool := p.start m + p.rows ≤ p.gone

/-- A pass that has come by the last row goes on from row 0 while a member still has rows to come (R152). -/
def Pass.wrap (p : Pass) : Pass := if p.rows ≤ p.cursor && p.gone < maxOf (p.members.map (fun m => p.start m + p.rows)) then { p with laps := p.laps + 1, cursor := 0 } else p

/-- Rows to go by until every member has had its round. -/
def Pass.goal (p : Pass) : Nat := maxOf (p.members.map (fun m => p.start m + p.rows))

/-- VOL_PASS_END.ROW: the last row of the layout, or the last of the final round once the pass has wrapped. -/
def Pass.last (p : Pass) : Nat := min p.rows (p.goal - p.laps * p.rows) - 1

/-- The member that sits at a pool position of the book, after the hot spares that took it, in order (R151). -/
def seatMember (s : State) (layout pool m : Nat) : Nat :=
  s.degrade.placed.foldl (fun cur e => if e.1 = layout && e.2.1 = pool && e.2.2.1 = cur then e.2.2.2 else cur) m

/-- Scrub is overdue after the scrub period of operating days (R164, R167): the last local scrub of each row of a band that is not Unwritten. -/
def scrubbedAt (s : State) (layout row group : Nat) : Nat :=
  ((s.degrade.scrubbed.find? (fun e => e.1 = layout && e.2.1 = row && e.2.2.1 = group)).map (fun e => e.2.2.2)).getD s.degrade.scrubBase

/-- The rows of allocated bands that are not Unwritten, as (layout, row). -/
def liveRows (s : State) : List (Nat × Nat) :=
  s.bands.flatMap (fun b =>
    let n := (volDef s b.volume).map (fun v => 2 ^ v.bandLog)
    ((List.range (n.getD 0)).filter (fun i => !b.unwritten.getLsbD i)).map (fun i => (b.layout, b.rowBase + i)))

def scrubPeriodMs (s : State) : Nat := s.ch (·.scrubDays) 30 * 86400000

/-- The groups of a row whose last local scrub is older than a time, with their power groups. -/
def groupsOlder (s : State) (age layout row : Nat) : List (Nat × Nat) :=
  match layoutOf s layout with
  | none => []
  | some l => ((List.range l.groups.length).zip (l.groups.map (·.powerGroup))).filter (fun e => age < s.mgmt.opMs - scrubbedAt s layout row e.1)

/-- The groups of a row whose last local scrub is older than the scrub period, with their power groups (R167). -/
def overdueGroups (s : State) (layout row : Nat) : List (Nat × Nat) := groupsOlder s (scrubPeriodMs s) layout row

/-- A power group holds a row older than 1.25 scrub periods (R167). -/
def longOverdue (s : State) (g : Nat) : Bool :=
  (liveRows s).any (fun lr => (groupsOlder s (scrubPeriodMs s * 5 / 4) lr.1 lr.2).any (fun e => e.2 = g))

/-- Overdue rows of a power group (R167). -/
def overdueRows (s : State) (g : Nat) : Nat :=
  countIf (fun lr => (overdueGroups s lr.1 lr.2).any (fun e => e.2 = g)) (liveRows s)

/-- The group state. -/
def grp (s : State) (g : Nat) : Group := tget {} s.gov.groups g

/-- Sensor index of SNS_SUMMARY → its state. -/
def sns (s : State) (i : Nat) : Sensor := tget {} s.sensors.units i

/-- The Warn limit of a sensor in force: the reset value where none was written. -/
def warnLimit (s : State) (i : Nat) : Nat := let w := (sns s i).warn; if w = 0 then (if i < 16 then 95 else 85) else w

def lane (s : State) (n : Nat) : SasLane := tget {} s.sas n

def hex8 (bs : List Byte) (i : Nat) : Nat := le bs (8 * i) 8

/-! ### Blocks -/

/-- GEN_ (09, 03). -/
def regGen (s : State) (a : Nat) : Nat :=
  match a with
  | 0x00_0000 => pack [(0, 32, 0x0007_2048), (32, 8, Config.stepping.toNat)]
  | 0x00_0008 => pack [(0, 64, s.fuses.serial)]
  | 0x00_0010 => pack [(0, 4, if s.link.up then s.link.rate else 0), (4, 4, s.link.width), (8, 1, b1 s.link.flit), (9, 1, b1 s.link.up), (10, 2, s.link.aspm), (16, 16, s.link.recoveries), (32, 16, s.link.replays)]
  | 0x00_0018 => pack [(0, 2, s.power.state), (2, 2, s.cfg.powerState), (4, 1, b1 s.power.entryPending), (5, 2, if s.power.entryPending then s.power.target else 0), (8, 4, s.power.exitCause), (32, 32, s.power.eventClose)]
  | 0x00_0020 => pack [(0, 12, s.resets.hot), (12, 12, s.resets.flr), (24, 1, b1 s.resets.hasAccount), (32, 32, s.resets.last)]
  | 0x00_0028 => pack [(0, 1, b1 s.cfg.busMaster), (1, 1, b1 s.returns.holding), (2, 1, b1 (s.returns.holding && 4096 ≤ s.returns.hold.length)), (16, 13, s.returns.hold.length), (32, 16, s.returns.masterOff)]
  | 0x00_0100 => pack [(0, 64, s.clock.close)]
  | 0x00_0108 => pack [(0, 15, s.clock.cycle), (15, 1, b1 s.quiet)]
  | 0x00_0110 => pack [(0, 4, boolMask (s.closers.units.map (·.votes))), (4, 1, b1 (reserveReady s)), (8, 2, s.closers.mode), (16, 4, boolMask (s.closers.units.map (·.retired))), (32, 32, s.closers.eventClose)]
  | 0x00_0118 =>
    let d := s.closers.units.map (fun c => (recent 20 s.now c.dis).length)
    pack [(0, 8, d.getD 0 0), (8, 8, d.getD 1 0), (16, 8, d.getD 2 0), (24, 8, d.getD 3 0), (32, 16, s.closers.total)]
  | 0x00_0120 => pack [(0, 64, s.closers.landed)]
  | 0x00_0128 => pack [(0, 16, s.closers.skipped), (16, 16, s.closers.rewritten)]
  | _ => 0

/-- WKT_ (10). -/
def regWkt (s : State) (a : Nat) : Nat :=
  match a with
  | 0x01_0000 => pack [(0, 10, s.ch (fun c => 2 ^ c.wicketLog) 0), (16, 15, s.ch (·.queueLimit) 0), (32, 4, s.ch (·.creditStepLog) 0)]
  | 0x01_0008 => pack [(0, 1, b1 s.wickets.creditEnable), (6, 58, s.wickets.creditAddr / 64)]
  | 0x01_0010 => pack [(0, 9, s.wickets.qWicket), (9, 1, b1 s.wickets.qAll), (17, 1, b1 s.wickets.resetPending)]
  | 0x01_0018 => pack [(0, 15, s.cmds.length), (16, 15, countIf (fun c => c.phase = .parked) s.cmds), (32, 15, s.wickets.peak)]
  | 0x01_0020 => pack [(0, 16, s.wickets.rejCommand), (16, 16, s.wickets.rejRefused), (32, 16, s.wickets.payloadFaults), (48, 16, s.wickets.stray)]
  | 0x01_0028 => pack [(0, 16, s.wickets.resets), (16, 16, s.wickets.entries), (32, 32, s.wickets.lastReset)]
  | _ =>
    if 0x01_0100 ≤ a ∧ a ≤ 0x01_0138 then
      boolMask ((List.range 64).map (fun j => (tget {} s.wickets.table (64 * ((a - 0x01_0100) / 8) + j)).state = 3))
    else 0

/-- RET_ (10). -/
def regRet (s : State) (a : Nat) : Nat :=
  if a = 0x02_0000 then boolMask ((List.range 64).map (fun n => (tget {} s.returns.rings n).enable))
  else if a = 0x02_0008 then boolMask ((List.range 64).map (fun n => (tget {} s.returns.rings n).waiting))
  else if 0x02_1000 ≤ a ∧ a < 0x02_2000 then
    let r := tget {} s.returns.rings ((a - 0x02_1000) / 0x40)
    match a % 0x40 with
    | 0x00 => pack [(12, 52, r.base / 4096)]
    | 0x08 => pack [(0, 1, b1 r.enable), (1, 1, b1 r.shadowEn), (8, 5, r.sizeLog), (16, 5, r.maxLog), (24, 8, r.irqCount), (32, 8, r.irqDelay)]
    | 0x10 => pack [(0, 26, r.head)]
    | 0x18 => pack [(0, 26, r.tail), (32, 1, b1 r.phase)]
    | 0x20 => pack [(0, 64, r.seq)]
    | 0x28 => pack [(3, 61, r.shadow / 8)]
    | 0x30 => pack [(0, 1, b1 r.draining), (1, 1, b1 r.waiting), (16, 16, r.badHead), (32, 32, r.posted)]
    | _ => 0
  else 0

/-- INT_ (09). -/
def regInt (s : State) (a : Nat) : Nat :=
  match a with
  | 0x03_0000 => pack [(0, 2, intModeOf s.cfg), (8, 6, if intModeOf s.cfg = 2 then msiVectors s.cfg else 0), (16, 1, b1 s.cfg.functionMask), (17, 1, b1 s.ints.inta)]
  | 0x03_0008 => s.ints.ringPending.toNat
  | 0x03_0010 => s.ints.ringMask.toNat
  | 0x03_0018 => s.ints.cause.toNat
  | 0x03_0020 => s.ints.causeMask.toNat
  | 0x03_0028 => pack [(0, 7, s.ints.testSource), (8, 1, b1 s.ints.testFire)]
  | 0x03_0030 => pack [(0, 3, s.ints.wake.toNat), (3, 1, b1 s.ints.wakeLow), (32, 32, s.ints.wakeClose)]
  | _ => 0

/-- TEL_ (08). -/
def regTel (s : State) (a : Nat) : Nat :=
  let t := s.tellers
  let c := s.scratch
  let phys := (List.range 136).map (fun p => tget {} t.phys p)
  let banks := (List.range 264).map (fun b => tget {} c.banks b)
  if a = 0x04_0000 then
    pack [(0, 8, countIf (fun (x : Teller) => x.state = 0 || x.state = 1 || x.state = 6) phys), (8, 4, tellersLeft s), (16, 8, countIf (fun p => (tget {} t.phys p).state = 5 || fusedOut s 1 p) (List.range 136)),
      (32, 16, boolMask ((List.range 16).map (fun b => !(tget {} t.branches b).gated && !t.store.isEmpty)))]
  else if a = 0x04_0008 then
    pack [(0, 10, s.ch (·.guard) 256), (16, 8, s.ch (·.parityLimit) 3), (24, 5, s.ch (·.parityLog) 28), (32, 8, s.ch (·.bankLimit) 8), (40, 5, s.ch (·.bankLog) 24), (48, 16, s.ch (·.branchIdle) 125)]
  else if a = 0x04_0010 then pack [(0, 32, t.postings), (32, 16, t.stealsBranch), (48, 16, t.stealsCross)]
  else if a = 0x04_0018 then pack [(0, 16, t.overruns), (16, 16, t.splits), (32, 32, t.lastOverrun)]
  else if a = 0x04_0020 then pack [(0, 16, t.parity), (16, 16, t.reissued), (32, 16, t.writeLost), (48, 16, t.badDesc)]
  else if a = 0x04_0028 then pack [(0, 13, s.holds.held.length), (16, 16, s.holds.waits), (32, 16, s.holds.rereads), (48, 16, s.holds.tableFull)]
  else if a = 0x04_0030 then pack [(0, 32, hold 0xFFFFFFFF (t.busyCycles / 65536)), (32, 16, t.producer.length), (48, 16, sumOf (fun e => e.2.deque.length) t.slots)]
  else if a = 0x04_0100 then pack [(0, 9, countIf (fun (b : Bank) => b.state = 0) banks), (16, 9, countIf (fun (b : Bank) => b.state = 1) banks), (32, 9, countIf (fun (b : Bank) => b.state = 2) banks), (44, 4, banksLeft s)]
  else if a = 0x04_0108 then pack [(0, 32, c.waits), (32, 16, c.lost)]
  else if a = 0x04_0110 then pack [(0, 16, c.corrected), (16, 16, c.poisonedCount)]
  else if a = 0x04_0118 then pack [(0, 8, c.sweepBank), (8, 8, c.sweepRow), (16, 16, c.yields), (32, 16, c.skippedSweeps), (48, 8, c.failures)]
  else if a = 0x04_0120 then pack [(0, 32, c.passes), (32, 32, c.passClose)]
  else if 0x04_1000 ≤ a ∧ a < 0x04_1000 + 8 * 136 then
    let p := (a - 0x04_1000) / 8
    let x := tget {} t.phys p
    pack [(0, 3, x.state), (8, 7, x.logical), (16, 5, if x.state = 0 || x.state = 1 || x.state = 6 then (tget {} t.slots x.logical).deque.length else 0),
      (24, 4, (recent (s.ch (·.parityLog) 28) s.now x.parity).length), (32, 32, x.eventClose)]
  else if 0x04_2000 ≤ a ∧ a < 0x04_2000 + 8 * 264 then
    let x := tget {} c.banks ((a - 0x04_2000) / 8)
    pack [(0, 2, x.state), (2, 1, b1 x.mapped), (3, 1, b1 x.retired), (8, 8, x.logical), (16, 8, (recent (s.ch (·.bankLog) 24) s.now x.corrected).length), (32, 16, x.collisions)]
  else 0

/-! ### Ledger blocks and areas (R96, R98, R130, R131) -/

def blockAt (s : State) (b : Nat) : Block := tget {} s.ledger.blocks b

/-- The die of a block (log entry 25). -/
def dieOf (b : Nat) : Nat := b % 2

/-- The place that a block holds among the 32,768 of the areas: that of its number, or one that it took; none in reserve or out of service. -/
def placeOf (s : State) (b : Nat) : Option Nat :=
  if (blockAt s b).retired then none else match (blockAt s b).place with
    | some p => some p
    | none => if b < 32768 then some b else none

/-- The block in a place. -/
def blockIn (s : State) (p : Nat) : Option Nat :=
  match s.ledger.blocks.find? (fun e => e.2.place = some p && !e.2.retired) with
  | some e => some e.1
  | none => if p < 32768 && placeOf s p = some p then some p else none

/-- Places 0 to 2,943 are the two-copy areas, copy 0 in the even places and copy 1 in the odd ones: index, open-items map, band-change log, accounts.
First place and blocks per copy of each (R98). -/
def copyArea (area : Nat) : Nat × Nat :=
  match area with
  | 0 => (0, 256)
  | 1 => (512, 1024)
  | 2 => (2560, 128)
  | _ => (2816, 64)

/-- The places of both copies of a byte of a two-copy area; the area is written round. -/
def copyPlaces (area off : Nat) : List Nat :=
  let i := off / 65536 % (copyArea area).2
  [(copyArea area).1 + 2 * i, (copyArea area).1 + 2 * i + 1]

/-- The first places of the daybook area and of the record area, which are laid out in pairs of blocks (R96, R98). -/
def daybookPlace : Nat := 2944
def recordPlace : Nat := 3200

/-- The place and the byte in its block of a byte of an area of pairs: 4 KiB units alternate between the two blocks of a pair (R96). -/
def pairPlace (first off : Nat) : Nat × Nat := (first + 2 * (off / 131072) + off / 4096 % 2, off % 131072 / 8192 * 4096 + off % 4096)

/-- A block serves an area of two copies. -/
def isFixed (s : State) (b : Nat) : Bool := (placeOf s b).any (· < 2944)

/-- The mean write count of the record area, whose blocks are taken in order of the lowest count (R130). -/
def meanWrites (s : State) : Nat := if s.ledger.recordBlocks = 0 then 0 else s.ledger.areaWrites / s.ledger.recordBlocks

/-- The write count of a block: its own, and in the record area the even share (R130). -/
def blockWrites (s : State) (b : Nat) : Nat := (blockAt s b).writes + (if (placeOf s b).any (recordPlace ≤ ·) then meanWrites s else 0)

/-- LGR_ (05). -/
def regLgr (s : State) (a : Nat) : Nat :=
  let l := s.ledger
  let data := l.recs.filter (fun r => r.kind = 2)
  match a with
  | 0x05_0000 => pack [(0, 2, l.mode), (2, 1, b1 l.die0), (3, 1, b1 l.die1), (4, 1, b1 l.window), (5, 1, b1 l.refuse), (6, 1, b1 l.full), (7, 1, b1 (!l.resyncLeft.isEmpty))]
  | 0x05_0008 => pack [(0, 16, l.recordBlocks), (16, 16, l.reserveLeft), (32, 16, l.retiredBlocks)]
  | 0x05_0010 => pack [(0, 24, usedBytes s / 1024), (24, 10, permille s), (40, 10, l.peak)]
  | 0x05_0018 => pack [(0, 20, countIf (fun r => r.state = .landed && !r.superseded) data), (20, 20, countIf (fun r => r.state = .destaging || r.state = .onDisk) data),
      (40, 20, countIf (fun r => (r.state = .onDisk || r.superseded) && r.held && r.reported && pinned s r.seq) data)]
  | 0x05_0020 => pack [(0, 64, l.nextSeq - 1)]
  | 0x05_0028 => pack [(0, 16, countIf (fun r => r.state = .complete) l.recs), (16, 16, l.maxWait), (32, 16, l.withheld)]
  | 0x05_0030 => pack [(0, 16, feature s 2), (16, 16, l.fullRows), (32, 16, l.smallRows), (48, 16, l.replans)]
  | 0x05_0038 => pack [(0, 32, match minOf ((l.recs.filter (fun r => r.state = .landed && (r.kind = 2 || r.kind = 1 && r.span.isSome))).map (·.landedAt)) with
        | some c => hold 0xFFFFFFFF (s.now - c)
        | none => 0),
      (32, 20, countIf (fun r => r.state = .landed && s.gov.demands.any (fun d => match d.of with
        | .rows ly row => r.rows.contains (ly, row)
        | _ => false)) l.recs)]
  | 0x05_0040 => pack [(0, 6, s.ch (·.regionLog) 0), (16, 14, countIf (fun r => r.set) l.regions), (32, 16, l.tableWaits)]
  | 0x05_0048 => pack [(0, 30, l.assigned)]
  | 0x05_0050 => pack [(0, 64, (l.newest.map (·.seq)).getD 0)]
  | 0x05_0058 => pack [(0, 32, (l.newest.map (·.cutClose)).getD 0), (32, 3, (l.newest.map (·.acks.length)).getD 0), (35, 1, b1 l.ckpt.isSome), (36, 1, b1 (l.regions.any (·.awaiting))), (40, 12, l.admissions), (52, 12, l.ckptFailures)]
  | 0x05_0060 => pack [(0, 32, l.resyncLeft.length), (32, 32, l.resyncTotal)]
  | 0x05_0068 => pack [(0, 32, maxOf (meanWrites s :: l.blocks.map (fun e => blockWrites s e.1)) / 65536), (32, 32, meanWrites s / 65536)]
  | 0x05_0070 => pack [(0, 16, l.corrected), (16, 16, l.uncorrected), (32, 16, l.lostRanges)]
  | 0x05_0078 => pack [(0, 16, l.refusals), (16, 32, l.stallCloses)]
  | _ => 0

/-- VOL_STATE of a volume (04). -/
def regVolState (s : State) (v : Nat) : Nat :=
  let x := vol s v
  let d := volDef s v
  pack [(0, 3, x.state), (4, 2, (d.map (·.kind)).getD 0), (8, 4, x.offReason), (16, 6, x.layout), (24, 6, x.target), (32, 4, (d.map (·.bandLog)).getD 0)]

/-- VOL_ALLOC (04). -/
def regVolAlloc (s : State) (v : Nat) : Nat :=
  let tot := (volDef s v).bind (fun d => (layoutOf s (vol s v).layout).map (fun l => ceilDiv d.capacity (max 1 (bandBlocks l d))))
  pack [(0, 32, countIf (fun b => b.volume = v && !b.target) s.bands), (32, 32, tot.getD 0)]

/-- VOL_HEALTH (04). -/
def regVolHealth (s : State) (v : Nat) : Nat :=
  match (volDef s v).bind (fun _ => layoutOf s (vol s v).layout) with
  | none => 0
  | some l =>
    -- the members of the pool as they now stand, hot spares in the places they took (R136, R151)
    let bad := fun (e : Nat × Pool) => countIf (memRetired s) (e.2.members.map (seatMember s l.index e.1))
    pack [(0, 16, boolMask ((l.pools.take l.groups.length).map (fun p => 0 < bad p))), (16, 8, hold 0xFF (sumOf bad l.pools)), (24, 1, b1 ((l.pools.drop l.groups.length).any (fun p => 0 < bad p))),
      (32, 32, countIf (fun (e : LossEntry) => e.volume = v && e.durable) s.degrade.loss)]

/-- VOL_RESHAPE (04). -/
def regVolReshape (s : State) (v : Nat) : Nat :=
  match s.reshapes.slots.find? (fun r => r.state ≠ 0 && r.volume = v) with
  | some r => pack [(0, 32, r.done), (32, 32, r.total)]
  | none => 0

/-- VOL_ (04, 06, 07, 12). -/
def regVol (s : State) (a : Nat) : Nat :=
  let d := s.degrade
  if a = 0x06_0000 then
    pack [(0, 9, s.ch (·.volumes.length) 0), (16, 9, countIf (fun (e : Nat × Volume) => e.2.state = 2 || e.2.state = 3) s.vols), (32, 4, s.ch (fun c => countIf (fun (v : VolumeDef) => v.kind = 1) c.volumes) 0),
      (40, 7, (s.bands.map (·.layout)).eraseDups.length)]
  else if a = 0x06_0008 then pack [(0, 17, 0x1_100B), (32, 16, 2)]
  else if a = 0x06_0010 then pack [(0, 11, countIf (fun p => p.ready) s.plans.cache), (16, 16, s.plans.misses), (32, 16, s.plans.evictions), (48, 16, s.plans.reissues)]
  else if a = 0x06_0018 then pack [(0, 1, b1 s.plans.flush)]
  else if a = 0x06_0020 then pack [(0, 16, s.plans.gfA.toNat), (16, 16, s.plans.gfB.toNat)]
  else if a = 0x06_0028 then pack [(0, 16, (gfMul s.plans.gfA s.plans.gfB).toNat), (16, 16, (gfInv s.plans.gfA).toNat), (32, 16, gfLog s.plans.gfA)]
  else if 0x06_0100 ≤ a ∧ a ≤ 0x06_02F8 then
    let i := (a - 0x06_0100) / 8
    match layoutOf s i with
    | none => 0
    | some l => pack [(0, 4, l.groups.length - 1), (4, 3, l.globals), (8, 8, l.data), (16, 9, l.width), (25, 3, l.chunkLog), (32, 6, l.spare),
        (40, 9, ((s.bands.filter (fun b => b.layout = i)).map (·.volume)).eraseDups.length)]
  else if 0x06_1000 ≤ a ∧ a < 0x06_5000 then
    let v := (a - 0x06_1000) / 0x40
    match a % 0x40 with
    | 0x00 => regVolState s v
    | 0x08 => pack [(0, 64, ((volDef s v).map (·.capacity)).getD 0)]
    | 0x10 => regVolAlloc s v
    | 0x18 => regVolHealth s v
    | 0x20 => regVolReshape s v
    | _ => 0
  else if a = 0x06_8000 then pack [(0, 8, s.ch (·.errorLimit) 8), (8, 8, s.ch (·.errorHours) 24), (16, 7, floorNow s), (24, 5, s.ch (·.suspectLog) 20), (32, 9, s.ch (·.scrubDays) 30)]
  else if a = 0x06_8008 then
    pack [(0, 5, countIf (fun p => p.state ≠ 0) d.passes), (8, 8, d.waitingPools.length), (16, 8, ((d.updates.filter (fun u => u.choice = .none && !u.rebuilt)).map (fun u => (u.layout, u.pool))).eraseDups.length), (32, 16, d.completed), (48, 16, d.restarts)]
  else if a = 0x06_8010 then pack [(0, 16, d.used), (16, 16, d.matched), (32, 16, d.mismatched), (48, 16, d.dropped)]
  else if a = 0x06_8018 then pack [(0, 32, d.reconstructed), (32, 16, d.repaired), (48, 16, d.repairFailed)]
  else if a = 0x06_8020 then pack [(0, 16, countIf (fun (e : LossEntry) => e.durable) d.loss), (16, 1, b1 d.lossFull), (32, 16, d.lossNew), (48, 16, d.unrecorded)]
  else if a = 0x06_8028 then pack [(0, 32, d.scrubRows), (32, 8, d.located), (40, 8, d.unlocated), (48, 8, d.syndrome)]
  else if a = 0x06_8030 then
    let per := (List.range 64).map (fun g => (g, overdueRows s g))
    let worst := per.foldl (fun b e => if b.2 < e.2 then e else b) (0, 0)
    pack [(0, 40, countIf (fun lr => !(overdueGroups s lr.1 lr.2).isEmpty) (liveRows s)), (40, 6, worst.1)]
  else if 0x06_8100 ≤ a ∧ a < 0x06_8300 then
    let p := (d.passes.drop ((a - 0x06_8100) / 0x20)).headD {}
    match a % 0x20 with
    | 0x00 => pack [(0, 3, p.state), (3, 1, b1 (0 < p.laps)), (4, 6, p.layout), (10, 5, p.pool), (16, 8, p.members.length), (32, 11, p.members.headD 0)]
    | 0x08 => pack [(0, 48, p.cursor)]
    | 0x10 => pack [(0, 48, p.last)]
    | 0x18 => pack [(0, 1, b1 p.hot), (8, 7, p.receivers), (16, 24, p.extent), (40, 24, p.base)]
    | _ => 0
  else if a = 0x06_9000 then
    let r := s.reshapes.slots
    pack [(0, 3, countIf (fun x => x.state ≠ 0) r), (4, 4, boolMask (r.map (fun x => x.state = 3))), (8, 4, boolMask (r.map (fun x => x.state = 4))), (12, 4, boolMask (r.map (fun x => x.state = 5))), (16, 16, s.reshapes.switches), (32, 16, s.reshapes.cancels)]
  else if 0x06_9100 ≤ a ∧ a < 0x06_9180 then
    let r := (s.reshapes.slots.drop ((a - 0x06_9100) / 0x20)).headD {}
    match a % 0x20 with
    | 0x00 => pack [(0, 3, r.state), (3, 1, b1 r.device), (4, 2, r.yieldCause), (8, 8, r.volume), (16, 6, r.source), (24, 6, r.target)]
    | 0x08 => pack [(0, 32, r.region), (32, 32, r.row)]
    | 0x10 =>
      let bs := s.bands.filter (fun b => r.state ≠ 0 && b.volume = r.volume && b.layout = r.target)
      let rows := fun (b : Band) => countIf (fun i => !b.unwritten.getLsbD i) (List.range (((volDef s b.volume).map (fun v => 2 ^ v.bandLog)).getD 0))
      pack [(0, 32, bs.length), (32, 32, sumOf rows bs)]
    | 0x18 => pack [(0, 32, r.lastChange), (32, 32, r.switchAt)]
    | _ => 0
  else if 0x06_A000 ≤ a ∧ a < 0x06_A200 then
    match (s.vaults.vaults.drop ((a - 0x06_A000) / 0x40)).head? with
    | none => 0
    | some v =>
      let cap := ((volDef s v.volume).map (·.capacity)).getD 0
      let lim := s.ch (fun c => ((c.vaults.find? (fun e => e.volume = v.volume)).map (·.objectLimit)).getD 0) 0
      let used := sumOf (·.run) v.objects + sumOf (·.run) (s.vaults.sessions.filter (fun x => x.vault = v.volume))
      match a % 0x40 with
      | 0x00 => pack [(0, 8, v.volume), (8, 1, b1 v.online), (9, 1, b1 v.superBad), (16, 11, countIf (fun (x : Session) => x.vault = v.volume) s.vaults.sessions), (32, 16, v.abandoned)]
      | 0x08 => pack [(0, 32, v.objects.length), (32, 32, countIf (fun (o : Object) => o.state = 2) v.objects)]
      | 0x10 => pack [(0, 48, v.timeMs)]
      | 0x18 => pack [(0, 32, countIf (fun (o : Object) => s.ch (·.auditDays) 0 * 86400000 < v.timeMs - o.lastAudit) v.objects), (32, 16, v.failed), (48, 16, v.repaired)]
      | 0x20 => pack [(0, 48, cap - (2 + ceilDiv lim 6 + 8) - used)]
      | _ => 0
  else 0

/-- DRV_ (13). -/
def regDrv (s : State) (a : Nat) : Nat :=
  let ms := s.drives.members.map (·.2)
  let lanes := (List.range 16).map (lane s)
  if a = 0x07_0000 then
    pack [(0, 12, countIf (fun (m : Member) => m.present) ms), (12, 12, countIf (fun (m : Member) => m.state = 1) ms), (24, 12, countIf (fun (m : Member) => m.state = 2) ms), (36, 12, s.drives.unassigned.length), (48, 8, s.drives.expanders), (56, 8, s.drives.enclosures)]
  else if a = 0x07_0008 then pack [(0, 32, s.drives.lastDiscovery), (32, 16, s.drives.broadcasts), (48, 8, s.drives.beyond), (56, 1, b1 s.drives.running)]
  else if a = 0x07_0010 then pack [(0, 32, s.ch (·.calInterval) 0), (32, 16, boolMask (lanes.map (·.flagged)))]
  else if 0x07_0100 ≤ a ∧ a < 0x07_0120 then
    let p := (a - 0x07_0100) / 8
    let defined := (s.ch (·.ports) []).length
    if defined ≤ p then 0
    else pack [(0, 16, boolMask (lanes.map (fun l => l.inPort && l.port = p))), (16, 16, boolMask (lanes.map (fun l => l.reserve && l.port = p))), (32, 16, boolMask (lanes.map (fun l => l.state = 2 && l.port = p))),
      (48, 3, (((s.ch (·.ports) []).drop p).head?.map (·.maxRate)).getD 0)]
  else if 0x07_0120 ≤ a ∧ a < 0x07_0140 then Config.sasAddressBase.toNat + (a - 0x07_0120) / 8
  else if 0x07_0200 ≤ a ∧ a < 0x07_0300 then
    let l := lane s ((a - 0x07_0200) / 0x10)
    if a % 0x10 = 0 then pack [(0, 2, l.state), (2, 2, l.port), (4, 3, l.rate), (7, 1, b1 l.reserve), (32, 32, l.lastTrim)]
    else pack [(0, 16, l.trims), (16, 16, l.deferred), (32, 4, (recent 24 s.now l.failures).length)]
  else if 0x07_4000 ≤ a ∧ a < 0x07_8000 then
    let n := (a - 0x07_4000) / 8
    let m := mem s n
    pack [(0, 4, m.state), (4, 6, s.ch (fun c => ((c.members.find? (fun d => d.member = n)).map (·.group)).getD 0) 0), (10, 1, b1 m.sata), (11, 1, b1 (registryMember s n)),
      (12, 6, countIf (fun (k : MemberCmd) => k.member = n && !k.queued && k.retryAt.isNone) s.drives.cmds), (32, 16, m.timeouts)]
  else 0

/-- CHN_ (14). -/
def regChn (s : State) (a : Nat) : Nat :=
  let c := s.chain
  let p := s.pair
  match a with
  | 0x08_0000 => pack [(0, 4, c.address.getD 0), (4, 1, b1 c.address.isSome), (5, 1, b1 s.chip.chainHead), (6, 1, b1 c.ringUp), (7, 1, b1 c.singleLane), (8, 5, c.units), (16, 4, if c.ringUp then c.lap else 0), (32, 32, c.tokenClose)]
  | 0x08_0008 => pack [(0, 64, if s.ch (·.units) 1 = 2 then partnerSerial s else 0)]
  | 0x08_0010 => pack [(0, 2, p.role), (2, 1, b1 p.current), (4, 3, p.mode), (8, 4, p.partnerAddr), (12, 1, b1 p.partnerSeen), (16, 16, (p.witness.map (·.epoch)).getD 0), (32, 32, p.eventClose)]
  | 0x08_0018 => pack [(0, 5, hold 31 p.chain.misses), (8, 5, hold 31 p.hb.misses), (16, 3, p.partnerState), (19, 1, b1 p.chain.alarm), (20, 1, b1 p.hb.alarm), (32, 16, p.losses), (48, 16, p.badHb)]
  | 0x08_0020 => pack [(0, 5, maskOf p.won), (5, 5, maskOf p.lost), (10, 1, b1 p.record), (16, 16, p.rounds), (32, 32, p.declared)]
  | 0x08_0028 => pack [(0, 16, hold 0xFFFF p.takeovers), (16, 16, hold 0xFFFF p.account.length), (32, 32, p.lastDecision)]
  | 0x08_0030 => pack [(0, 32, c.words), (32, 16, c.restarts)]
  | 0x08_0038 => pack [(0, 32, ceilDiv (sumOf Rec.space (s.ledger.recs.filter (fun r => p.joinLeft.contains r.seq))) 1024), (32, 32, p.joinTotal)]
  | 0x08_0040 => pack [(0, 16, p.audits), (16, 16, p.mismatches), (32, 1, b1 p.run.running)]
  | 0x08_0048 => pack [(0, 64, p.nextAudit)]
  | 0x08_0050 => pack [(0, 1, b1 p.hbUp), (16, 16, p.hbSent), (32, 32, p.hbLast)]
  | _ =>
    if 0x08_0100 ≤ a ∧ a < 0x08_0160 then
      let l := (c.lanes.drop ((a - 0x08_0100) / 0x10)).headD {}
      if a % 0x10 = 0 then pack [(0, 2, l.state), (2, 1, b1 l.reserve), (8, 8, hold 0xFF l.crcWindow.length), (16, 4, (recent 24 s.now l.calFails).length), (32, 32, l.lastTrim)]
      else pack [(0, 32, l.crc)]
    else 0

/-- PWR_ (13). -/
def regPwr (s : State) (a : Nat) : Nat :=
  if a = 0x09_0000 then
    pack [(0, 7, feature s 4), (8, 7, countIf (fun (e : Nat × Group) => e.2.state ≠ 0) s.gov.groups), (15, 1, b1 s.gov.blocked), (16, 3, s.gov.blockedClass), (32, 32, countIf (fun (d : Demand) => d.groups.any (fun g => (grp s g).state = 0)) s.gov.demands)]
  else if a = 0x09_0008 then pack [(0, 32, s.ch (·.stagger) 0), (32, 32, s.ch (·.minWindow) 0)]
  else if a = 0x09_0010 then pack [(0, 32, s.ch (·.idleEnd) 0), (32, 32, s.ch (·.defaultHold) 0)]
  else if a = 0x09_0018 then pack [(0, 32, s.ch (·.starvation) 0)]
  else if 0x09_1000 ≤ a ∧ a < 0x09_1800 then
    let n := (a - 0x09_1000) / 0x20
    let g := grp s n
    match a % 0x20 with
    | 0x00 => pack [(0, 3, g.state), (3, 1, b1 (s.ch (fun c => c.groups.any (fun d => d.group = n)) false)),
        (4, 6, boolMask ((List.range 6).map (fun c => s.gov.demands.any (fun d => d.cls = c + 1 && d.groups.contains n)))),
        (16, 12, s.ch (fun c => countIf (fun (d : MemberDef) => d.group = n) c.members) 0), (32, 15, countIf (fun c => c.phase = .parked && c.groups.contains n) s.cmds), (48, 11, if g.state = 1 then g.batch else 0)]
    | 0x08 => pack [(0, 32, g.granted), (32, 32, g.endAt)]
    | 0x10 => pack [(0, 16, g.windows), (16, 16, g.late), (32, 32, g.upCloses / 125000)]
    | _ => 0
  else 0

/-- A sensor's value field. -/
def sensorValue (x : Sensor) : Nat := unsigned 16 x.value

/-- SNS_ (15). -/
def regSns (s : State) (a : Nat) : Nat :=
  if a = 0x0A_0000 then
    pack [(0, 26, boolMask ((List.range 26).map (fun i => (sns s i).alarm))), (26, 1, b1 s.tellers.throttled), (27, 1, b1 (alertLow s)), (32, 32, s.sensors.eventClose)]
  else if a = 0x0A_0008 then pack [(0, 2, s.mgmt.state), (4, 2, (recent 24 s.now s.mgmt.expiries).length), (16, 16, s.mgmt.restarts), (32, 32, s.mgmt.eventClose)]
  else if a = 0x0A_0010 then pack [(0, 16, sensorValue (sns s 25)), (16, 16, s.sensors.peakMw), (32, 3, (sns s 25).level)]
  else if 0x0A_0100 ≤ a ∧ a < 0x0A_0180 then
    let i := (a - 0x0A_0100) / 8
    pack [(0, 16, sensorValue (sns s i)), (16, 8, warnLimit s i), (32, 3, (sns s i).level)]
  else if 0x0A_0180 ≤ a ∧ a < 0x0A_0190 then
    let i := 16 + (a - 0x0A_0180) / 8
    pack [(0, 16, sensorValue (sns s i)), (16, 8, warnLimit s i), (32, 3, (sns s i).level)]
  else if 0x0A_0200 ≤ a ∧ a < 0x0A_0238 then
    let i := 18 + (a - 0x0A_0200) / 8
    pack [(0, 16, sensorValue (sns s i)), (16, 16, hold 0xFFFF (sns s i).aux), (32, 3, (sns s i).level)]
  else if a = 0x0A_0300 then pack [(0, 7, s.chip.smbAddr), (8, 8, s.smbus.eid), (16, 16, s.smbus.pec), (32, 16, s.smbus.requests), (48, 16, s.smbus.forbidden)]
  else 0

/-- The sequence of the oldest daybook record held (R424). -/
def daybookOldest (s : State) : Nat := match s.daybook.ring with
  | e :: _ => e.1
  | [] => s.daybook.next

/-- The bytes of the ring slot that a cursor names: that of the newest record written into it (R425). -/
def daybookSlot (s : State) (cursor : Nat) : List Byte :=
  ((s.daybook.ring.reverse.find? (fun e => e.1 % 131072 = cursor % 131072)).map (·.2)).getD (zeros 128)

/-- DBK_ (15), with the cursor it is read through (R416). -/
def regDbk (s : State) (cursor : BitVec 64) (a : Nat) : Nat :=
  let d := s.daybook
  match a with
  | 0x0B_0000 => pack [(0, 64, d.next)]
  | 0x0B_0008 => pack [(0, 64, daybookOldest s)]
  | 0x0B_0010 => pack [(0, 7, d.queue.length), (7, 1, b1 d.accum.isSome), (16, 16, d.merged), (32, 16, d.coalesced)]
  | 0x0B_0018 => pack [(0, 16, d.pending), (17, 1, b1 (alertLow s)), (32, 32, d.lastAlert)]
  | 0x0B_0020 => pack [(0, 48, s.mgmt.opMs)]
  | 0x0B_0028 => pack [(0, 32, s.mgmt.powerCycles)]
  | 0x0B_0030 => cursor.toNat
  | 0x0B_0038 => pack [(0, 2, if cursor.toNat < daybookOldest s then 1 else if d.next ≤ cursor.toNat then 2 else 0)]
  | _ =>
    if 0x0B_0100 ≤ a ∧ a ≤ 0x0B_0178 then hex8 (daybookSlot s cursor.toNat) ((a - 0x0B_0100) / 8)
    else if 0x0B_0200 ≤ a ∧ a < 0x0B_0300 then
      let k := (a - 0x0B_0200) / 8
      let def' := (s.ch (fun c => c.kinds.find? (fun e => e.kind = k)) none).getD ⟨k, false, false, []⟩
      let n := tget {} d.kinds k
      pack [(0, 1, b1 (!def'.disable && k < 0x1E)), (1, 1, b1 def'.alert), (2, 5, def'.words.length), (16, 16, n.count), (32, 16, n.merged)]
    else 0

/-- The three words of a courier slot (16). -/
def slotCtl (x : Slot) : Nat :=
  pack [(0, 27, x.count), (32, 1, b1 x.valid), (33, 1, b1 x.last), (34, 1, b1 x.more), (35, 1, b1 x.srcFixed), (36, 1, b1 x.dstFixed), (40, 3, x.srcSpace), (44, 3, x.dstSpace), (48, 2, x.xform), (52, 1, b1 x.bad), (56, 4, x.badCode)]

/-- CUR_ (16). -/
def regCur (s : State) (a : Nat) : Nat :=
  let c := s.courier
  if a = 0x0C_0000 then pack [(0, 16, boolMask (c.channels.map (fun x => x.state ≠ 0))), (16, 16, boolMask (c.channels.map (·.missed))), (32, 1, b1 c.maint), (33, 1, b1 (c.enterPending || c.exitPending))]
  else if a = 0x0C_0008 then 0
  else if a = 0x0C_0010 then pack ((List.range 8).map (fun i => (8 * i, 8, c.bad.getD (i + 1) 0)))
  else if a = 0x0C_0018 then pack [(0, 32, c.bursts), (32, 16, c.handovers), (48, 16, c.missed)]
  else if 0x0C_1000 ≤ a ∧ a < 0x0C_3000 then
    let x := (c.channels.drop ((a - 0x0C_1000) / 0x200)).headD {}
    let o := a % 0x200
    if o = 0x00 then pack [(1, 1, b1 x.armed), (2, 2, x.next), (4, 2, x.prio)]
    else if o = 0x08 then pack [(0, 2, x.state), (2, 2, x.slot), (4, 1, b1 x.missed), (8, 8, x.gen), (16, 16, x.shadowSeq), (32, 16, x.shadowWseq)]
    else if o = 0x10 then pack [(0, 32, x.crc.toNat)]
    else if 0x40 ≤ o ∧ o < 0xA0 then
      let y := (x.slots.drop ((o - 0x40) / 0x18)).headD {}
      match (o - 0x40) % 0x18 with
      | 0x00 => y.src.toNat
      | 0x08 => y.dst.toNat
      | _ => slotCtl y
    else if 0xC0 ≤ o ∧ o < 0x120 then
      let y := (x.shadow.drop ((o - 0xC0) / 0x18)).headD {}
      match (o - 0xC0) % 0x18 with
      | 0x00 => y.src.toNat
      | 0x08 => y.dst.toNat
      | _ => slotCtl y
    else if o = 0x140 then x.hoSrc.toNat
    else if o = 0x148 then x.hoDst.toNat
    else if o = 0x150 then x.hoCount
    else 0
  else 0

/-- The diagnostic window (R443): courier slots and map cache tags, in maintenance mode only. -/
def regDiag (s : State) (a : Nat) : Nat :=
  if !s.courier.maint then 0
  else if a < 0x10_4000 then
    let c := 0x0C_0000 + (a - 0x10_0000)
    let o := c % 0x200
    if 0x0C_1000 ≤ c ∧ c < 0x0C_3000 ∧ (0x40 ≤ o ∧ o < 0xA0 ∨ 0xC0 ≤ o ∧ o < 0x120) then regCur s c else 0
  else if 0x11_0000 ≤ a ∧ a < 0x13_0000 then
    let k := (a - 0x11_0000) / 8
    match s.map.lines.find? (fun l => l.set = k / 16 && l.way = k % 16) with
    | some l => pack [(0, 21, l.tag), (63, 1, 1)]
    | none => 0
  else 0

/-- MAP_ (16). -/
def regMap (s : State) (a : Nat) : Nat :=
  let m := s.map
  match a with
  | 0x0D_0000 => pack [(0, 16, boolMask (m.ways.map (·.enabled))), (16, 15, m.lines.length), (31, 1, b1 (!m.ways.any (·.enabled)))]
  | 0x0D_0008 => pack [(0, 32, m.hits), (32, 32, m.misses)]
  | 0x0D_0010 => pack [(0, 16, m.victimHits), (16, 16, m.stale), (32, 16, m.retries)]
  | 0x0D_0018 => pack [(0, 16, m.corrected), (16, 16, m.uncorrected)]
  | 0x0D_0020 => pack [(8, 31, m.invalAddr / 256)]
  | 0x0D_0028 => pack [(1, 1, b1 m.invalAll)]
  | _ =>
    if 0x0D_0100 ≤ a ∧ a < 0x0D_0180 then
      let w := (m.ways.drop ((a - 0x0D_0100) / 8)).headD {}
      pack [(0, 1, b1 w.enabled), (1, 1, b1 w.disabling), (8, 3, (recent 20 s.now w.corrected).length), (32, 32, w.eventClose)]
    else 0

/-- RSV_ (17). -/
def regRsv (s : State) (a : Nat) : Nat :=
  let r := s.reserves
  match a with
  | 0x0E_0000 => pack [(0, 4, tellersLeft s), (4, 4, banksLeft s), (8, 1, b1 (reserveReady s)), (9, 2, boolMask [((s.chain.lanes.drop 2).headD {}).reserve, ((s.chain.lanes.drop 5).headD {}).reserve]),
      (16, 13, s.ledger.reserveLeft), (32, 5, countIf (fun n => (lane s n).reserve) (List.range 16)), (40, 5, countIf (fun (w : Way) => w.enabled) s.map.ways)]
  | 0x0E_0008 => pack [(0, 16, r.admitted), (16, 16, r.retired), (32, 16, r.testFailed), (48, 16, r.exhausted)]
  | 0x0E_0010 => match r.last with
    | some e => pack [(0, 4, e.element), (4, 4, e.action), (8, 8, e.cause), (16, 16, e.physical), (32, 32, e.close)]
    | none => 0
  | 0x0E_0018 => pack [(0, 32, r.nextSeq), (32, 13, r.history.length)]
  | 0x0E_0020 => pack [(0, 9, r.rows.length), (16, 8, hold 0xFF r.repairedCount), (24, 8, hold 0xFF r.mappedOut.length), (32, 1, b1 (s.ch (·.dramRepair) true)), (48, 16, r.dramCorrected)]
  | 0x0E_0028 => pack [(0, 9, s.fuses.retired.length), (16, 8, r.fusePending.length)]
  | 0x0E_0030 => pack [(0, 16, s.ledger.trimNext), (16, 16, s.ledger.trimFails), (32, 32, s.ledger.trimPass)]
  | _ => 0

/-- CHR_ (02, 15). -/
def regChr (s : State) (a : Nat) : Nat :=
  let c := s.chip
  let f := s.fuses
  match a with
  | 0x0F_0000 => pack [(0, 4, c.step), (8, 4, c.reason), (12, 1, b1 c.bootSlot), (13, 1, b1 c.ledgerLost), (14, 1, b1 c.chainAbsent), (32, 32, c.stepClose)]
  | 0x0F_0008 => pack [(0, 8, c.charter0), (8, 8, c.charter1), (16, 8, c.fw0), (24, 8, c.fw1), (32, 1, c.charterSel), (33, 1, c.fwSel)]
  | 0x0F_0010 => pack [(0, 64, s.ch (·.seq) 0)]
  | 0x0F_0018 => pack [(0, 64, c.fwSeq)]
  | 0x0F_0020 => pack [(0, 7, thermometer f.charterBlown 64 0), (8, 7, thermometer f.fwBlown 64 0), (16, 7, s.ch (·.secVersion) 0), (24, 7, c.fwSv), (31, 1, b1 c.advanceDone)]
  | 0x0F_0028 => pack [(0, 4, f.keyProgrammed.toNat), (4, 4, f.keyRevoked.toNat)]
  | 0x0F_0030 => c.layoutOk.toNat
  | 0x0F_0038 => c.layoutBad.toNat
  | 0x0F_0100 => pack [(0, 3, s.flash.op), (8, 1, b1 s.flash.go)]
  | 0x0F_0108 => pack [(0, 26, s.flash.addr)]
  | 0x0F_0110 => pack [(0, 1, b1 s.flash.busy), (4, 4, s.flash.result)]
  | 0x0F_0200 => pack [(0, 2, f.op), (2, 2, f.entry), (8, 16, f.arm), (24, 1, b1 f.go)]
  | 0x0F_0208 => pack [(0, 1, b1 f.busy), (4, 4, f.result)]
  | _ =>
    if 0x0F_0040 ≤ a ∧ a ≤ 0x0F_0068 then hex8 (s.ch (·.digest) (zeros 48)) ((a - 0x0F_0040) / 8)
    else if 0x0F_0210 ≤ a ∧ a ≤ 0x0F_0238 then hex8 f.digest ((a - 0x0F_0210) / 8)
    else if 0x0F_1000 ≤ a ∧ a < 0x0F_2000 then leNat (Memory.readN 0 s.flash.buf (a - 0x0F_1000) 8)
    else 0

/-- The 64-bit register at an aligned control-window address; reserved addresses read as zero (R10). -/
def regRead (s : State) (a : Nat) : Nat :=
  match a / 0x1_0000 with
  | 0x00 => regGen s a
  | 0x01 => regWkt s a
  | 0x02 => regRet s a
  | 0x03 => regInt s a
  | 0x04 => regTel s a
  | 0x05 => regLgr s a
  | 0x06 => regVol s a
  | 0x07 => regDrv s a
  | 0x08 => regChn s a
  | 0x09 => regPwr s a
  | 0x0A => regSns s a
  | 0x0B => regDbk s s.daybook.cursor a
  | 0x0C => regCur s a
  | 0x0D => regMap s a
  | 0x0E => regRsv s a
  | 0x0F => regChr s a
  | 0x10 => regDiag s a
  | 0x11 => regDiag s a
  | 0x12 => regDiag s a
  | _ => 0

end Sys2Proof.Machine
end

