-- ==== Sys2Proof/Machine/Ops.lean ====
section
/-! DEFINITION. The operations that many commands share: daybook triggers, the reserve history, the halt, ledger records, command ends, and the return sequencer. -/

namespace Sys2Proof.Machine

/-- A memory request to a window is served: memory space on, D0, no reset under way (R237). -/
def windowOpen (s : State) : Bool := s.chip.pwrgd && s.cfg.memSpace && s.cfg.powerState = 0 && s.resets.kind = 0

/-- The part is in Recovery (R37). -/
def inRecovery (s : State) : Bool := s.chip.step = 14

/-- A window other than the GEN_ and CHR_ registers takes a write: in Recovery none has an effect (R37). -/
def writesTaken (s : State) : Bool := windowOpen s && !inRecovery s

/-- The number of wickets of the charter (R258). -/
def wicketCount (s : State) : Nat := s.ch (fun c => 2 ^ c.wicketLog) 0

/-! ### Daybook triggers (R418–R422) -/

/-- The charter entry of a kind (R419). -/
def kindDef (s : State) (k : Nat) : KindDef :=
  (s.ch (fun c => c.kinds.find? (fun e => e.kind = k)) none).getD ⟨k, false, false, []⟩

/-- The double-word at a control-window address, read with no side effect (R421). -/
def regDword (s : State) (addr : Nat) : Nat := fld (regRead s (addr / 8 * 8)) (32 * (addr / 4 % 2) + 31) (32 * (addr / 4 % 2))

/-- The snapshot words of a trigger, 8 at most where a key follows (R480). -/
def snapshot (s : State) (d : KindDef) (key : Bool) : List Nat :=
  (if key then d.words.take 8 else d.words).map (regDword s)

/-- Starts the write of the next queued record: not while one is in progress, nor in the quiet slice (R422), nor before step 6 has found the next sequence (R424). -/
def daybookStart (s : State) : State :=
  if s.daybook.writing.isSome || s.quiet || s.chip.step < 7 || s.chip.step = 14 then s
  else match s.daybook.queue with
    | [] => s
    | r :: q => { s with daybook := { s.daybook with writing := some (s.daybook.next, r), next := s.daybook.next + 1, queue := q } }

/-- A record of a trigger as it fires (R420). -/
def dbRec (s : State) (kind cause arg : Nat) (detail extra : List Byte) (alert : Bool) : DbRec :=
  let d := kindDef s kind
  { kind, cause, arg, detail, alert := alert || d.alert, opMs := s.mgmt.opMs, powerCycle := s.mgmt.powerCycles,
    close := s.now, cycle := s.clock.cycle, words := snapshot s d (!extra.isEmpty), extra }

/-- Merges a trigger that finds the queue full into the accumulator (R422). -/
def daybookMerge (s : State) (r : DbRec) : State :=
  let (t, first, _, al) := s.daybook.accum.getD ([], s.now, s.now, false)
  { s with daybook := { s.daybook with
      accum := some (tmod 0 t r.kind (inc 0xFFFF), first, s.now, al || r.alert)
      merged := inc 0xFFFF s.daybook.merged
      kinds := tmod {} s.daybook.kinds r.kind (fun k => { k with merged := inc 0xFFFF k.merged }) } }

/-- `r` fired in the cycle of `e` and goes before it: the lower kind first, then the lower argument (R422). -/
def firesBefore (r e : DbRec) : Bool :=
  r.close = e.close && r.cycle = e.cycle && (r.kind < e.kind || r.kind = e.kind && r.arg < e.arg)

/-- A queue with a trigger in its place: in firing order, those of one cycle by kind and argument (R422). -/
def firingOrder (r : DbRec) : List DbRec → List DbRec
  | [] => [r]
  | e :: q => if firesBefore r e then r :: e :: q else e :: firingOrder r q

/-- A trigger enters the queue; the last one of a queue with more than 64 is merged (R422). -/
def enqueueTrigger (s : State) (r : DbRec) : State :=
  let q := firingOrder r s.daybook.queue
  let s : State := { s with daybook := { s.daybook with queue := q.take 64 } }
  match q.drop 64 with
  | [] => daybookStart s
  | e :: _ => daybookMerge s e

/-- A trigger, where the record being written is one of the same cycle that a lower one goes before (R422). -/
def placeTrigger (s : State) (r : DbRec) : State :=
  match s.daybook.writing with
  | some (seq, e) =>
    if e.kind ≠ 1 && firesBefore r e then enqueueTrigger { s with daybook := { s.daybook with writing := some (seq, r) } } e
    else enqueueTrigger s r
  | none => enqueueTrigger s r

/-- A trigger fires (R418, R422): counted, and recorded unless the charter disables its kind. -/
def fireNow (s : State) (kind cause arg : Nat) (detail extra : List Byte) (alert : Bool) : State :=
  let s : State := { s with daybook := { s.daybook with kinds := tmod {} s.daybook.kinds kind (fun k => { k with count := inc 0xFFFF k.count }) } }
  if (kindDef s kind).disable then s
  else placeTrigger s (dbRec s kind cause arg detail extra alert)

/-- The kinds that the firmware raises (R418). -/
def firmwareKind (k : Nat) : Bool := [6, 7, 9, 0x0C, 0x0D, 0x10, 0x15, 0x19].contains k

/-- A trigger fires, or waits for Opfin where the firmware raises its kind (R15, R405). -/
def fireKey (s : State) (kind cause arg : Nat) (detail extra : List Byte) (alert : Bool) : State :=
  if firmwareKind kind && !opfin s then { s with daybook := { s.daybook with held := s.daybook.held ++ [⟨kind, cause, arg, detail, extra, alert⟩] } }
  else fireNow s kind cause arg detail extra alert

/-- Opfin runs again: the triggers that waited fire. -/
def fireHeld (s : State) : State :=
  s.daybook.held.foldl (fun s t => fireNow s t.kind t.cause t.arg t.detail t.extra t.alert) { s with daybook := { s.daybook with held := [] } }

def fire (s : State) (kind cause arg : Nat) (detail : List Byte) (alert : Bool) : State :=
  fireKey s kind cause arg detail [] alert

/-- The 128 bytes of a record (R420). -/
def daybookBytes (seq : Nat) (r : DbRec) : List Byte :=
  let body := natLe 8 seq ++ natLe 6 r.opMs ++ natLe 1 r.kind ++ natLe 1 (b1 r.alert) ++ natLe 4 r.powerCycle ++ natLe 4 r.close ++
    natLe 2 r.cause ++ natLe 1 r.words.length ++ [0] ++ natLe 4 r.arg ++
    (if r.extra.length = 64 then r.extra
      else if r.extra.isEmpty then padTo 64 (r.words.flatMap (natLe 4))
      else padTo 32 (r.words.flatMap (natLe 4)) ++ padTo 32 r.extra) ++
    padTo 20 r.detail ++ zeros 4 ++ natLe 4 seq
  body ++ natLe 4 (crc32c body).toNat

/-- A record is written into its ring slot: the oldest is overwritten when the ring is full (R424), and an Alert record counts (R413). -/
def daybookStore (s : State) (seq : Nat) (r : DbRec) : State :=
  let s : State := { s with daybook := { s.daybook with
    ring := (tset s.daybook.ring seq (daybookBytes seq r)).filter (fun e => seq < e.1 + 131072)
    coalesced := if r.kind = 2 then inc 0xFFFF s.daybook.coalesced else s.daybook.coalesced } }
  if r.alert then
    mgmtCause { s with daybook := { s.daybook with pending := inc 0xFFFF s.daybook.pending, lastAlert := seq } } 0
  else s

/-! ### The reserve history (R456, R461) -/

/-- An admission, retirement, test failure, disabling, repair, mapping out or exhaustion. -/
def history (s : State) (element action cause physical logical : Nat) : State :=
  let h := s.reserves
  let e : HistEntry := ⟨element, action, cause, physical, logical, s.mgmt.powerCycles, s.now, h.nextSeq⟩
  let permanent := (action = 1 || action = 4) && (element = 1 || element = 2 || element = 3 || element = 8)
  let s : State := { s with reserves := { h with
    history := (h.history ++ [e]).drop ((h.history.length + 1) - 4096)
    last := some e
    nextSeq := h.nextSeq + 1
    admitted := if action = 2 || action = 5 then inc 0xFFFF h.admitted else h.admitted
    retired := if action = 1 || action = 4 || action = 6 then inc 0xFFFF h.retired else h.retired
    testFailed := if action = 3 then inc 0xFFFF h.testFailed else h.testFailed
    exhausted := if action = 7 then inc 0xFFFF h.exhausted else h.exhausted
    fusePending := if permanent then h.fusePending ++ [(element, physical)] else h.fusePending } }
  let s := fire s 0x0F (element * 256 + action) physical (natLe 4 logical ++ natLe 4 e.seq) (action = 7)
  if action = 2 || action = 7 then mgmtCause s 4 else s

/-- No logical number (R461). -/
def noLogical : Nat := 0xFFFFFFFF

/-! ### Role, mode and halt -/

/-- CHN_PAIR.ROLE and MODE take new values (R387, R390, R392, R394, R400). -/
def setPair (s : State) (role mode : Nat) (alert : Bool) : State :=
  if role = s.pair.role && mode = s.pair.mode then s
  else
    let changed := role ≠ s.pair.role
    let s : State := { s with pair := { s.pair with role, mode, eventClose := s.now } }
    let s := fire s 0x13 (role + 16 * mode) ((s.pair.witness.map (·.epoch)).getD 0) (natLe 8 (partnerSerial s)) alert
    if changed then mgmtCause s 2 else s

/-- GEN_CLOSER.MODE takes a new value. -/
def setCloserMode (s : State) (m : Nat) : State :=
  if m = s.closers.mode then s
  else
    let s : State := { s with closers := { s.closers with mode := m } }
    mgmtCause s 5

/-- Every wicket's state after a whole-part event; a change of state is written to its credit line at the next chance (R270). -/
def setAllWickets (s : State) (f : Wicket → Wicket) : State :=
  { s with wickets := { s.wickets with table := (List.range (s.ch (fun c => 2 ^ c.wicketLog) 0)).foldl (fun t w => tmod {} t w f) s.wickets.table } }

/-- The unit halts (R54). -/
def halt (s : State) : State :=
  if s.chip.halted then s
  else
    let sent := b1 (s.ch (·.units) 1 = 2 && 8 ≤ s.chip.step && s.chip.step ≠ 13 && s.chip.step ≠ 14)
    let s : State := { s with
      chip := { s.chip with halted := true }
      wickets := { s.wickets with unitFailed := true }
      -- a Failed tally goes out at once on both paths
      pair := { s.pair with fenced := true, sendState := 3, intakeHeld := true, tallyCount := s.pair.tallyCount + sent, hbSent := if sent = 0 then s.pair.hbSent else inc 0xFFFF s.pair.hbSent }
      closers := { s.closers with eventClose := s.now } }
    let s := setAllWickets s (fun w => { w with state := 0 })
    let s := setCloserMode s 2
    fire s 0x03 6 0xFFFFFFFF [] true

/-! ### Ledger records (R99–R105) -/

/-- The record header (R100). -/
def recHeader (r : Rec) : List Byte :=
  let h := natLe 1 r.kind ++ natLe 1 (b1 r.superseded + 2 * b1 r.replayed) ++ natLe 2 r.volume ++ natLe 2 r.tag ++ natLe 2 r.ring ++
    natLe 8 r.seq ++ natLe 8 r.pos.close ++ natLe 2 r.pos.wicket ++ natLe 2 r.pos.order ++ natLe 4 r.powerCycle ++
    natLe 8 r.lba ++ natLe 4 r.blocks ++ natLe 4 r.bodyLen ++ natLe 1 r.opcode ++ [0] ++ natLe 2 r.cseq ++ zeros 4 ++
    natLe 4 (if r.bodyLen = 0 then 0 else (crc32c (Memory.bytes r.body r.bodyLen)).toNat)
  h ++ natLe 4 (crc32c h).toNat

/-- A header word of the stream (R379). -/
def streamHeader (typ words seq off : Nat) : List Byte :=
  let h := natLe 1 typ ++ natLe 1 words ++ zeros 6 ++ natLe 8 seq ++ natLe 4 off ++ zeros 40
  h ++ natLe 4 (crc32c h).toNat

/-- A byte string as 64-byte words. -/
def words64 (bs : List Byte) : List (List Byte) := (pieces 64 (bs.length + 1) bs).map (padTo 64)

/-- Words queued for the unit's stream. -/
def streamSend (s : State) (ws : List (List Byte)) : State := { s with chain := { s.chain with txQueue := s.chain.txQueue ++ ws } }

/-- The bytes lo to hi of a record, header at 0, as pieces of at most 64 words (R379). -/
def streamPieces (seq : Nat) : Nat → Nat → List (List Byte) → List (List Byte)
  | 0, _, _ => []
  | fuel + 1, off, ws =>
    if ws.isEmpty then []
    else streamHeader 1 (min 64 ws.length) seq off :: ws.take 64 ++ streamPieces seq fuel (off + 4096) (ws.drop 64)

/-- Copies of the unit's records go over the chain: it countersigns, or a partner is joining (R104, R400). -/
def copiesLive (s : State) : Bool := s.ledger.mode = 1 || s.pair.mode = 5 && s.pair.role = 1

/-- The whole of a record copied to the Standby (R104). -/
def streamRecord (s : State) (r : Rec) : State :=
  if copiesLive s then
    let ws := words64 (recHeader r ++ Memory.bytes r.body r.bodyLen)
    streamSend s (streamPieces r.seq (ws.length + 1) 0 ws)
  else s

def findRec (s : State) (seq : Nat) : Option Rec := s.ledger.recs.find? (fun r => r.seq = seq)

def modRec (s : State) (seq : Nat) (f : Rec → Rec) : State :=
  { s with ledger := { s.ledger with recs := modIf (fun r => r.seq = seq) f s.ledger.recs } }

/-- Engine cycles since start-up. -/
def absCycle (s : State) : Nat := s.clock.close * 25600 + s.clock.cycle

/-- A record whose last body byte is written: Complete in a pair, Countersigned in a unit that runs alone (R101). -/
def recComplete (s : State) (seq : Nat) : State :=
  modRec s seq (fun r => { r with filled := r.bodyLen, state := if s.ledger.mode = 1 then .complete else .countersigned, completeAt := absCycle s })

/-- A record is begun: it takes the next sequence, and stands Filling while it has a body to come. -/
def addRec (s : State) (r : Rec) : State × Nat :=
  let seq := s.ledger.nextSeq
  let r : Rec := { r with seq, powerCycle := s.mgmt.powerCycles, state := .filling, rank := s.ledger.rank }
  ({ s with ledger := { s.ledger with recs := s.ledger.recs ++ [r], nextSeq := seq + 1 } }, seq)

def modBlock (s : State) (b : Nat) (f : Block → Block) : State :=
  { s with ledger := { s.ledger with blocks := tmod {} s.ledger.blocks b f } }

/-- Words are written into both copies of a two-copy area at a byte (R98, R130). -/
def writeCopies (s : State) (area off words : Nat) : State :=
  ((copyPlaces area off).filterMap (blockIn s)).foldl (fun s b => modBlock s b (fun k => { k with writes := k.writes + words })) s

/-- Words are appended to a two-copy area (DESIGN CHOICE, log entry 25). -/
def appendCopies (s : State) (area words : Nat) : State :=
  let n := tget 0 s.ledger.appended area
  let s := writeCopies s area (64 * n) words
  { s with ledger := { s.ledger with appended := tset s.ledger.appended area (n + words) } }

/-- The writes of a record are counted: map, band-change and account entries in their own areas, others in the record area, where payload
counts as it arrives (R99, R130). -/
def countRecord (s : State) (r : Rec) : State :=
  let words := 1 + ceilDiv r.bodyLen 64
  if r.kind = 3 then writeCopies s 1 ((s.ledger.regions.findIdx? (fun x => x.volume = r.volume && x.region = le (Memory.bytes r.body 8) 0 6)).getD 0 / 8) 1
  else if r.kind = 4 then appendCopies s 2 words
  else if r.kind = 5 then appendCopies s 3 words
  else { s with ledger := { s.ledger with areaWrites := s.ledger.areaWrites + (if r.kind = 2 || r.kind = 6 then 1 else words) } }

/-- The last byte of a record is written: the record is whole, and it is copied to the partner (R101, R104). -/
def recWhole (s : State) (seq : Nat) : State :=
  let s := recComplete s seq
  match findRec s seq with
  | some r => streamRecord (countRecord s r) r
  | none => s

/-- The end of a record is at hand: it is written now, or from cycle 0 of the next close when the quiet slice runs (R44). -/
def recEnd (s : State) (seq : Nat) : State :=
  if s.quiet then { s with ledger := { s.ledger with late := s.ledger.late ++ [seq] } } else recWhole s seq

/-- A record with its body at hand: begun, written whole at once, and copied. -/
def writeRec (s : State) (r : Rec) : State × Nat :=
  let (s, seq) := addRec s r
  (recEnd s seq, seq)

/-- Cycle 0 of a close: the records that waited out the quiet slice are written (R44). -/
def writeLate (s : State) : State :=
  s.ledger.late.foldl recWhole { s with ledger := { s.ledger with late := [] } }

/-- A map record (R118, R119): region number and Set or Clear. -/
def mapRecord (s : State) (volume region : Nat) (set : Bool) : State :=
  (writeRec s { seq := 0, kind := 3, volume, body := Memory.ofBytes (natLe 6 region ++ natLe 2 (b1 set)), bodyLen := 8 }).1

/-- The 64-byte volume-map entry of a band (R92). -/
def bandEntry (b : Band) : List Byte :=
  natLe 1 b.layout ++ [1] ++ zeros 6 ++ natLe 8 b.rowBase ++ zeros 16 ++ natLe 32 b.unwritten.toNat

/-- A band-change record (R99); its header names the volume, the band in place of an LBA, and 1 in place of a block count for a target table (R178, log entry 23). -/
def bandRecord (s : State) (b : Band) : State × Nat :=
  writeRec s { seq := 0, kind := 4, volume := b.volume, lba := b.band, blocks := b1 b.target, body := Memory.ofBytes (bandEntry b), bodyLen := 64 }

/-- A control message of this unit, to its partner (R381). -/
def sendControl (s : State) (typ : Nat) (body : List Byte) : State :=
  { s with chain := { s.chain with ctlQueue := s.chain.ctlQueue ++ [⟨typ, s.chain.address.getD 0xFF, s.pair.partnerAddr, padTo 12 body⟩] } }

/-- A record is released: the Active unit of a pair sends a release notice (R113). -/
def releaseRec (s : State) (seq : Nat) : State :=
  let s := modRec s seq (fun r => { r with state := .released })
  if copiesLive s then sendControl s 2 (zeros 4 ++ natLe 8 seq) else s

/-! ### Commands in flight -/

def findCmd (s : State) (tag : Nat) : Option Cmd := s.cmds.find? (fun c => c.hdr.tag = tag)

def modCmd (s : State) (tag : Nat) (f : Cmd → Cmd) : State := { s with cmds := modIf (fun c => c.hdr.tag = tag) f s.cmds }

/-- The named command in its phase, or nothing. -/
def cmdIn (s : State) (tag : Nat) (p : Cmd → Bool) : Option Cmd := (findCmd s tag).filter p

def wk (s : State) (w : Nat) : Wicket := tget {} s.wickets.table w

def modWk (s : State) (w : Nat) (f : Wicket → Wicket) : State :=
  { s with wickets := { s.wickets with table := tmod {} s.wickets.table w f } }

/-- Acceptance order (R56). -/
def Pos.lt (a b : Pos) : Bool :=
  a.close < b.close || a.close = b.close && (a.wicket < b.wicket || a.wicket = b.wicket && a.order < b.order)

/-- Block commands with a range (R58). -/
def Cmd.ranged (c : Cmd) : Bool := 1 ≤ c.hdr.opcode && c.hdr.opcode ≤ 4

/-- WRITE and RELEASE change their range (R58); PUT END, SEAL and DELETE change the index of their volume (R345). -/
def Cmd.writes (c : Cmd) : Bool := [0x02, 0x04, 0x42, 0x45, 0x46].contains c.hdr.opcode

/-- Two ranges share a block (R58); an empty range shares none. -/
def overlap (v1 l1 n1 v2 l2 n2 : Nat) : Bool := v1 = v2 && l1 < l2 + n2 && l2 < l1 + n1 && 0 < n1 && 0 < n2

/-- Vault commands that name the same volume and key, or a LIST and one that changes the index (R345). -/
def Cmd.vaultOverlap (a b : Cmd) : Bool :=
  let v := fun (c : Cmd) => 0x40 ≤ c.hdr.opcode && c.hdr.opcode ≤ 0x48
  v a && v b && a.hdr.volume = b.hdr.volume &&
    (a.hdr.op = b.hdr.op || a.hdr.opcode = 0x47 && b.writes || b.hdr.opcode = 0x47 && a.writes)

def Cmd.overlaps (a b : Cmd) : Bool :=
  a.vaultOverlap b || a.ranged && b.ranged && overlap a.hdr.volume a.hdr.lba a.hdr.blocks b.hdr.volume b.hdr.lba b.hdr.blocks

/-- Whether a command's Completion must wait for an earlier overlapping one (R63). -/
def mustWait (s : State) (c : Cmd) : Bool :=
  s.cmds.any (fun e => e.hdr.tag ≠ c.hdr.tag && e.pos.lt c.pos && e.overlaps c && (e.writes || c.writes))

/-! ### The return sequencer (R248, R273–R279) -/

def rg (s : State) (n : Nat) : Ring := tget {} s.returns.rings n

def modRg (s : State) (n : Nat) (f : Ring → Ring) : State :=
  { s with returns := { s.returns with rings := tmod {} s.returns.rings n f } }

/-- An entry falls due for a ring: held while bus mastering is off (R248), dropped when the ring is not enabled (R272). -/
def enqueue (s : State) (n : Nat) (e : Entry) : State :=
  if !(rg s n).enable then s
  else if s.returns.holding || !s.cfg.busMaster then
    if s.returns.hold.length < 4096 then { s with returns := { s.returns with holding := true, hold := s.returns.hold ++ [(n, e)] } }
    else { s with returns := { s.returns with holding := true, overflow := s.returns.overflow ++ [(n, e)] } }
  else modRg s n (fun r => { r with queue := r.queue ++ [e] })

/-- The largest part of returned data on a ring (R277). -/
def Ring.lmax (r : Ring) : Nat := min (2 ^ r.maxLog) (2 ^ r.sizeLog / 4)

/-- The Data entries of a command, every part but the last (R277). -/
def dataEntries (c : Cmd) (lmax : Nat) : Nat → Nat → List Entry
  | 0, _ => []
  | fuel + 1, off =>
    if off + lmax < c.dataLen then
      { kind := 2, flags := 2 * b1 c.prior, tag := c.hdr.tag, wicket := c.wicket, opcode := c.hdr.opcode, cseq := c.cseq,
        payload := Memory.slice c.data off (off + lmax), len := lmax, spec := natLe 8 off } :: dataEntries c lmax fuel (off + lmax)
    else []

/-- The statuses with which an opcode's result fields are carried (R295). -/
def carriesResult (c : Cmd) : Bool :=
  c.status = 0 || c.status = 0x40 || c.status = 0x41 || c.hdr.opcode = 0x86 ||
  c.hdr.opcode = 0x8A && c.status = 0x50 && c.detail = 3 || c.hdr.opcode = 0x43 && c.status = 0x70 && c.detail = 6 ||
  c.hdr.opcode = 0x48 && c.status = 0x70 && c.detail = 9 || c.hdr.opcode = 0x41 && (c.status = 0x70 || c.status = 0x10)

/-- The Completion entry of a command: the last part of its data, Final (R274, R277). -/
def completionEntry (c : Cmd) (lmax : Nat) : Entry :=
  let last := if c.dataLen = 0 then 0 else (c.dataLen - 1) / lmax * lmax
  { kind := 1, flags := 1 + 2 * b1 c.prior, tag := c.hdr.tag, wicket := c.wicket, opcode := c.hdr.opcode, status := c.status, detail := c.detail,
    cseq := c.cseq, payload := Memory.slice c.data last c.dataLen, len := c.dataLen - last,
    spec := if carriesResult c then c.result else [], final := some c.intent }

/-- Queues the Completions that are released and need not wait for an earlier overlapping one (R63), in acceptance order of the list. -/
def settle (s : State) : State :=
  s.cmds.foldl (fun (s : State) (c : Cmd) =>
    if c.phase = .released && !mustWait s c then
      let lmax := max 1024 (rg s c.ring).lmax
      let c' := if c.status = 0 || c.status = 0x40 || c.status = 0x41 || c.hdr.opcode = 0x43 && c.status = 0x70 && c.detail = 6 then c else { c with dataLen := 0, data := [] }
      let s := (dataEntries c' lmax (c'.dataLen / lmax + 1) 0).foldl (fun s e => enqueue s c.ring e) s
      modCmd (enqueue s c.ring (completionEntry c' lmax)) c.hdr.tag (fun c => { c with phase := .queued })
    else s) s

/-- A command ends with a status; its Completion may be posted at once. -/
def finish (s : State) (tag status detail : Nat) (result : List Byte) : State :=
  settle (modCmd s tag (fun c => { c with phase := .released, status, detail, result }))

/-- A command ends with a status and a detail (R280, R324); its Completion is queued in row 7 of the first boundary at or after close b (R294). -/
def finishAt (s : State) (tag b status detail : Nat) (result : List Byte) : State :=
  modCmd s tag (fun c => { c with phase := .due b, status, detail, result })

/-- A command ends with data. -/
def finishData (s : State) (tag : Nat) (data : Cells) (len : Nat) (result : List Byte) : State :=
  finish (modCmd s tag (fun c => { c with data, dataLen := len })) tag 0 0 result

/-- The bytes of an entry header without its phase word (R273). -/
def entryHeader (s : State) (n : Nat) (r : Ring) (e : Entry) : List Byte :=
  let pay := Memory.bytes e.payload e.len
  natLe 1 e.kind ++ natLe 1 e.flags ++ natLe 2 e.tag ++ natLe 2 e.wicket ++ natLe 1 n ++ natLe 1 e.opcode ++ natLe 1 e.status ++ natLe 1 e.detail ++
  natLe 2 e.cseq ++ natLe 4 e.len ++ natLe 8 r.seq ++ natLe 8 s.now ++ padTo 24 e.spec ++
  natLe 4 (if e.len = 0 || e.kind = 7 then 0 else (crc32c pay).toNat)

/-- A Pad or an entry written at the tail: payload, header, phase word; then the tail advances and wraps (R275). -/
def putEntry (s : State) (n : Nat) (e : Entry) (total : Nat) : State :=
  let r := rg s n
  let base := r.base + r.tail
  let s := if e.kind = 7 || e.len = 0 then s else hostWrite s (base + 64) (padTo (total - 64) (Memory.bytes e.payload e.len))
  let s := hostWrite s base (entryHeader s n r e)
  let s := hostWrite s (base + 60) (natLe 4 (2 ^ 31 * b1 r.phase))
  let size := 2 ^ r.sizeLog
  let wrap := r.tail + total = size
  modRg s n (fun r => { r with tail := if wrap then 0 else r.tail + total, phase := if wrap then !r.phase else r.phase, seq := r.seq + 1, posted := inc 0xFFFFFFFF r.posted })

/-- A ring raises its interrupt (R278). -/
def raiseRing (s : State) (n : Nat) : State := ringCause (modRg s n (fun r => { r with unraised := 0 })) n

/-- The header fields of an entry that belongs to no one command, as far as the spec leaves them open: free values (log entry 10). -/
def openFields (s : State) (e : Entry) (tag : Bool) : State × Entry :=
  let (s, v) := takeFree s
  let n := v.toNat
  (s, { e with tag := if tag then fld n 13 0 else 0, wicket := fld n 31 16, opcode := fld n 39 32, cseq := fld n 63 48 })

/-- The commands that an account entry lists are reported (R112). -/
def reportLines (s : State) (e : Entry) : State :=
  let lines := pieces 16 (e.len + 1) (Memory.bytes e.payload e.len)
  let named := fun (r : Rec) => lines.any (fun b => le b 0 2 = r.tag && le b 2 2 = r.pos.wicket && le b 4 2 = r.cseq && le b 8 8 = r.pos.close)
  { s with ledger := { s.ledger with recs := modIf named (fun r => { r with reported := true }) s.ledger.recs } }

/-- The effects of an issued phase word of an entry other than a Pad: interrupt moderation, and the end of a command's flight. -/
def entryIssued (s : State) (n : Nat) (e : Entry) : State :=
  let s := modRg s n (fun r => { r with unraised := r.unraised + 1, oldest := if r.unraised = 0 then s.now else r.oldest })
  let r := rg s n
  let s := if e.kind = 4 || e.kind = 5 || r.irqCount ≤ r.unraised then raiseRing s n else s
  let s := if e.kind = 4 then reportLines { s with wickets := { s.wickets with entries := inc 0xFFFF s.wickets.entries } } e else s
  match e.final with
  | none => s
  | some intent =>
    match findCmd s e.tag with
    | none => s
    | some c =>
      let s := modRg s n (fun r => { r with written := r.written ++ [⟨r.tail, c.wicket, c.hdr.tag, c.pos, c.cseq, c.hdr.opcode⟩] })
      let s : State := { s with
        cmds := s.cmds.filter (fun k => k.hdr.tag ≠ e.tag)
        ledger := { s.ledger with recs := modIf (fun q => q.seq = intent || c.recSeq = some q.seq) (fun q => { q with reported := true }) s.ledger.recs } }
      let s := if copiesLive s then sendControl s 4 (natLe 2 e.tag ++ natLe 1 n ++ [0] ++ natLe 8 intent) else s
      settle s

/-- The return sequencer writes the front entry of a ring, with a Pad when it wraps, or the ring waits (R275). -/
def postRing (s : State) (n : Nat) : State :=
  if s.chip.halted || s.returns.holding || !s.cfg.busMaster then s
  else match (rg s n).queue with
    | [] => s
    | e :: q =>
      let r := rg s n
      let size := 2 ^ r.sizeLog
      let total := 64 + ceilDiv e.len 64 * 64
      let free := (r.head + 2 * size - r.tail - 64) % size
      let needPad := size < r.tail + total
      let need := if needPad then (size - r.tail) + total else total
      if need ≤ free then
        -- CLOSE-WAIT carries GEN_BOOKS.LANDED as its Completion is written (R297)
        let e : Entry := if e.kind = 1 && e.opcode = 5 && e.status = 0 then { e with spec := natLe 8 s.closers.landed } else e
        let (s, pad) := if needPad then openFields s { kind := 7, len := size - r.tail - 64 } false else (s, { kind := 7 })
        let s := if needPad then putEntry s n pad (size - r.tail) else s
        let s := putEntry s n e total
        let s := modRg s n (fun r => { r with queue := q, waiting := false })
        entryIssued s n e
      else modRg s n (fun r => { r with waiting := true })

/-! ### Credit (R267, R270) -/

/-- The bus-master hold is full (R249). -/
def holdFull (s : State) : Bool := s.returns.holding && 4096 ≤ s.returns.hold.length

/-- The payload of a wicket's command goes into the record area, and there is no room for its next part (R103). -/
def noRoom (s : State) (w : Nat) : Bool :=
  let k := wk s w
  k.stalled || roomLeft s < 64 && k.taken < k.declared && (findCmd s k.tag).any (fun c => c.wicket = w && !c.failed && !c.excess)

/-- LIMIT of a wicket: min(D, T + 16,384), held at T while the hold is full or the record area has no room, and 0 until the intent record is written. -/
def creditLimit (s : State) (w : Nat) : Nat :=
  let k := wk s w
  if !k.intentWritten then 0
  else if holdFull s || noRoom s w then k.taken
  else min k.declared (k.taken + 16384)

/-- The credit line of a wicket (R270). -/
def creditBytes (s : State) (w : Nat) : List Byte :=
  let k := wk s w
  natLe 4 (creditLimit s w) ++ natLe 2 k.cseq ++ natLe 1 k.state ++ [0] ++ natLe 4 k.taken ++ zeros 4 ++ natLe 8 s.now ++ zeros 40

/-- Writes a wicket's credit line, when lines are written at all (R248, R270). -/
def writeCredit (s : State) (w : Nat) : State :=
  if s.wickets.creditEnable && !s.returns.holding && !s.returns.draining && s.cfg.busMaster && !s.chip.halted then
    let s := hostWrite s (s.wickets.creditAddr + 64 * w) (creditBytes s w)
    modWk s w (fun k => { k with lineLimit := creditLimit s w, lineWritten := true })
  else s

/-- Writes the line when LIMIT has risen by the credit step (R270). -/
def creditStep (s : State) (w : Nat) : State :=
  if (wk s w).lineLimit + s.ch (fun c => 2 ^ c.creditStepLog) 4096 ≤ creditLimit s w then writeCredit s w else s

/-- At a boundary, lines whose LIMIT has changed since they were written are written anew (R270). -/
def creditBoundary (s : State) : State :=
  (List.range (wicketCount s)).foldl (fun s w => if (wk s w).lineLimit ≠ creditLimit s w then writeCredit s w else s) s

/-- A wicket takes a state; the line is written when it changes (R264, R270). -/
def setWicket (s : State) (w st : Nat) : State :=
  if (wk s w).state = st then s else writeCredit (modWk s w (fun k => { k with state := st })) w

end Sys2Proof.Machine
end

