-- ==== Sys2Proof/Machine/Layouts.lean ====
section
/-! DEFINITION. Layouts: placement of chunks (R85–R88), blocks of a volume (R91, R92), regions (R115, R116), and decode plans of the Benian code (R75–R84). -/

namespace Sys2Proof.Machine

/-! ### Rows, roles and chunks -/

/-- The data columns of a row as (group, role, column). -/
def Layout.cols (l : Layout) : List (Nat × Nat × Nat) :=
  ((List.range l.groups.length).zip l.groups).flatMap (fun g => ((List.range g.2.columns.length).zip g.2.columns).map (fun c => (g.1, c.1, c.2)))

/-- Every chunk of a row. -/
def Layout.chunks (l : Layout) : List ChunkId :=
  l.cols.map (fun c => .d c.2.2) ++ (List.range l.groups.length).flatMap (fun j => [.p j, .q j]) ++ (List.range l.globals).map (fun t => .g (t + 1))

/-- The group of a data column. -/
def Layout.groupOfCol (l : Layout) (c : Nat) : Option Nat := (l.cols.find? (fun e => e.2.2 = c)).map (·.1)

/-- The keystone pool of G_t: its number in the list and the index of G_t in it (R85, R87). -/
def Layout.keystone (l : Layout) (t : Nat) : Nat × Nat :=
  if l.keystones.length = 2 then ((t + 1) % 2, (t - 1) / 2) else (0, t - 1)

/-- The pool and the role of a chunk: pool number as VOL_PASS_STATE.POOL, and role, or index in a keystone pool. -/
def Layout.roleOf (l : Layout) (ch : ChunkId) : Option (Nat × Nat) :=
  match ch with
  | .d c => (l.cols.find? (fun e => e.2.2 = c)).map (fun e => (e.1, e.2.1))
  | .p j => if j < l.groups.length then some (j, ((l.groups.drop j).head?.map (·.width)).getD 0) else none
  | .q j => if j < l.groups.length then some (j, ((l.groups.drop j).head?.map (·.width)).getD 0 + 1) else none
  | .g t => if 1 ≤ t ∧ t ≤ l.globals then let k := l.keystone t; some (16 + k.1, k.2) else none

def Layout.pool (l : Layout) (n : Nat) : Option Pool := (l.pools.find? (fun p => p.1 = n)).map (·.2)

/-- The position in its pool and the slot of a chunk of a row (R86, R87). -/
def Layout.place (l : Layout) (row : Nat) (ch : ChunkId) : Option (Nat × Nat × Nat) :=
  (l.roleOf ch).bind (fun (pn, role) => (l.pool pn).map (fun p =>
    let n := max 1 p.members.length
    if pn < 16 then (pn, (role * p.step + row) % n, row / n * (p.width + 2) + role)
    else (pn, (role + row) % n, row / n * p.width + role)))

/-- The member that a layout gives a chunk before any home is chosen, and its slot. -/
def Layout.member (l : Layout) (row : Nat) (ch : ChunkId) : Option (Nat × Nat) :=
  (l.place row ch).bind (fun (pn, pos, slot) => (l.pool pn).bind (fun p => (p.members.drop pos).head?.map (fun m => (m, slot))))

/-- The power group of a chunk. -/
def Layout.powerGroup (l : Layout) (ch : ChunkId) : Nat :=
  (((l.roleOf ch).bind (fun r => l.pool r.1)).map (·.powerGroup)).getD 0

/-- Spare slots of each member's area, P (R88). -/
def Layout.spareSlots (l : Layout) : Nat := l.areaSlots * l.spare / 256

/-- Rows that the layout holds (R88). -/
def Layout.rows (l : Layout) : Nat :=
  let a := l.areaSlots - l.spareSlots
  (minOf (l.pools.map (fun (n, p) => a / max 1 (if n < 16 then p.width + 2 else p.width) * p.members.length))).getD 0

/-- Byte address of a slot on a member (R88). -/
def Layout.slotAddr (l : Layout) (slot : Nat) : Nat := l.areaOffset + slot * l.chunk

/-- The power groups that a stripe-row write to these columns always reaches (R95). -/
def Layout.writeGroups (l : Layout) (cols : List Nat) : List Nat :=
  ((cols.map (fun c => l.powerGroup (.d c))) ++ l.keystones.map (·.powerGroup)).eraseDups

/-! ### Blocks of a volume -/

/-- Where a block of a volume lies: band, row in the band, column, 4 KiB position in the chunk (R91). -/
structure Place where
  band : Nat
  rho : Nat
  col : Nat
  pos : Nat
  deriving DecidableEq, Repr

/-- The group whose segment holds an offset, and the offset in it (R91 step 2). -/
def segment (rows bpc : Nat) : List (Nat × Pool) → Nat → Option (Nat × Pool × Nat)
  | [], _ => none
  | (j, p) :: r, o => if o < rows * p.width * bpc then some (j, p, o) else segment rows bpc r (o - rows * p.width * bpc)

/-- R91. -/
def locate (l : Layout) (v : VolumeDef) (b : Nat) : Place :=
  let bpc := l.chunk / 4096
  let rows := 2 ^ v.bandLog
  let size := max 1 (bandBlocks l v)
  match segment rows bpc ((List.range l.groups.length).zip l.groups) (b % size) with
  | none => ⟨b / size, 0, 0, 0⟩
  | some (_, p, o) => ⟨b / size, o / (p.width * bpc), p.columns.getD (o % (p.width * bpc) / bpc) 0, o % bpc⟩

/-- The logical block at a place of a band (R91, read backwards). -/
def blockOf (l : Layout) (v : VolumeDef) (p : Place) : Nat :=
  let bpc := l.chunk / 4096
  let rows := 2 ^ v.bandLog
  let j := (l.groupOfCol p.col).getD 0
  let before := sumOf (fun (q : Pool) => rows * q.width * bpc) (l.groups.take j)
  let w := ((l.groups.drop j).head?.map (·.width)).getD 1
  let role := ((l.roleOf (.d p.col)).map (·.2)).getD 0
  p.band * bandBlocks l v + before + p.rho * w * bpc + role * bpc + p.pos

/-- The band of a volume in the table in use. -/
def findBand (s : State) (v n : Nat) (target : Bool) : Option Band :=
  s.bands.find? (fun b => b.volume = v && b.band = n && b.target = target)

/-- Rows of a band. -/
def bandRows (s : State) (v : Nat) : Nat := ((volDef s v).map (fun d => 2 ^ d.bandLog)).getD 1

/-- The layout and row of a block in the table in use, its place, and its band; none where the band is not allocated. -/
def mapBlock (s : State) (v b : Nat) : Option (Layout × Nat × Place × Band) :=
  (volDef s v).bind (fun d => (layoutOf s (vol s v).layout).bind (fun l =>
    let p := locate l d b
    (findBand s v p.band false).map (fun k => (l, k.rowBase + p.rho, p, k))))

/-- The rows that a range touches, as (layout, row), in block order. -/
def rangeRows (s : State) (v lba n : Nat) : List (Nat × Nat) :=
  ((List.range n).filterMap (fun i => (mapBlock s v (lba + i)).map (fun m => (m.1.index, m.2.1)))).eraseDups

/-- The power groups of a range's data, and the keystone groups (R95, R128). -/
def rangeGroups (s : State) (v lba n : Nat) : List Nat :=
  match volDef s v, layoutOf s (vol s v).layout with
  | some d, some l => l.writeGroups ((List.range n).map (fun i => (locate l d (lba + i)).col)).eraseDups
  | _, _ => []

/-- A group is spinning while it is Ready or Closing (R358). -/
def spinning (s : State) (g : Nat) : Bool := (grp s g).state = 2 || (grp s g).state = 3

/-- A group takes member commands: it is Ready, or Closing and close E has not passed (R358, R363). -/
def serves (s : State) (g : Nat) : Bool := (grp s g).state = 2 || (grp s g).state = 3 && s.now ≤ (grp s g).endAt

/-! ### Band allocation (R92) and map bits (R116) -/

/-- Region size in blocks (R115). -/
def regionBlocks (s : State) : Nat := 2 ^ (s.ch (·.regionLog) 30) / 4096

/-- The run of rows of a band. -/
def bandEnd (s : State) (b : Band) : Nat := b.rowBase + bandRows s b.volume

/-- The lowest free run of n rows of a layout (R92). -/
def freeRun (s : State) (l : Layout) (n : Nat) : Option Nat :=
  let held := s.bands.filter (fun b => b.layout = l.index)
  let free := fun r => r + n ≤ l.rows && !held.any (fun b => r < bandEnd s b && b.rowBase < r + n)
  minOf ((0 :: held.map (bandEnd s)).filter free)

/-- The regions that a band's blocks overlap; the last band may reach beyond the volume. -/
def bandRegions (s : State) (l : Layout) (v : VolumeDef) (n : Nat) : List Nat :=
  let lo := n * bandBlocks l v
  let r := max 1 (regionBlocks s)
  let hi := min (lo + bandBlocks l v) v.capacity
  (List.range ((hi + r - 1) / r - lo / r)).map (· + lo / r)

/-- Assigns map bits to regions that have none (R116). -/
def assignRegions (s : State) (v : Nat) (rs : List Nat) : State :=
  let fresh := rs.filter (fun r => !s.ledger.regions.any (fun e => e.volume = v && e.region = r))
  { s with ledger := { s.ledger with
      regions := s.ledger.regions ++ fresh.map (fun r => ⟨v, r, false, false, false, false⟩)
      assigned := s.ledger.assigned + fresh.length } }

/-- All rows of a band Unwritten. -/
def allUnwritten (n : Nat) : BitVec 256 := BitVec.ofNat 256 (2 ^ n - 1)

/-- Allocates a band in a layout and logs its band-change record, or finds no room (R92, R116). -/
def allocBand (s : State) (d : VolumeDef) (l : Layout) (n : Nat) (target : Bool) : Option State :=
  match freeRun s l (2 ^ d.bandLog) with
  | none => none
  | some base =>
    let rs := bandRegions s l d n
    let need := countIf (fun r => !s.ledger.regions.any (fun e => e.volume = d.volume && e.region = r)) rs
    if 2 ^ 29 < s.ledger.assigned + need then none
    else
      let b : Band := ⟨d.volume, n, l.index, base, allUnwritten (2 ^ d.bandLog), target, none⟩
      let (s, seq) := bandRecord (assignRegions s d.volume rs) b
      some { s with bands := s.bands ++ [{ b with pendingRec := some seq }] }

/-- The slot of a volume's reshape from its Start on. -/
def reshapeOf (s : State) (v : Nat) : Option Reshape := s.reshapes.slots.find? (fun r => 1 ≤ r.state && r.state ≤ 5 && r.built && r.volume = v)

/-- The layout of the table that is not in use during a reshape: the target, and after the switch the source. -/
def otherLayout (s : State) (v : Nat) : Option Layout :=
  (reshapeOf s v).bind (fun r => layoutOf s (if r.state = 5 then r.source else r.target))

/-- Bands first to last of a table, those not allocated yet. -/
def allocBands (s : State) (d : VolumeDef) (l : Layout) (first last : Nat) (target : Bool) : Option State :=
  (List.range (last + 1 - first)).foldl (fun (o : Option State) i =>
    o.bind (fun s => if (findBand s d.volume (first + i) target).isSome then some s else allocBand s d l (first + i) target)) (some s)

/-- Allocates every band of a range that is not allocated yet, in both layouts of a reshape (R92, R184). -/
def allocRange (s : State) (v lba n : Nat) : Option State :=
  match volDef s v, layoutOf s (vol s v).layout with
  | some d, some l =>
    let size := max 1 (bandBlocks l d)
    let first := lba / size
    let last := (lba + n - 1) / size
    if (List.range (last + 1 - first)).all (fun i => (findBand s v (first + i) false).isSome) then some s
    else (allocBands s d l first last false).bind (fun s => match otherLayout s v with
      | some o =>
        let os := max 1 (bandBlocks o d)
        allocBands s d o (first * size / os) (min ((last + 1) * size - 1) (d.capacity - 1) / os) true
      | none => some s)
  | _, _ => some s

/-! ### Decode plans (R78–R84) -/

/-- A linear combination of chunks. -/
abbrev Comb := List (ChunkId × BitVec 16)

def Comb.add (a b : Comb) : Comb :=
  b.foldl (fun acc e => if acc.any (fun x => x.1 = e.1) then modIf (fun x => x.1 = e.1) (fun x => (x.1, x.2 ^^^ e.2)) acc else acc ++ [e]) a

def Comb.scale (c : BitVec 16) (a : Comb) : Comb := a.map (fun e => (e.1, gfMul c e.2))

/-- The coefficient of a column in a syndrome (R75). -/
def coefOf (l : Layout) (eq : ChunkId) (c : Nat) : BitVec 16 :=
  match eq with
  | .d _ => 0
  | .p j => if l.groupOfCol c = some j then 1 else 0
  | .q j => if l.groupOfCol c = some j then gfAlpha c else 0
  | .g t => gfAlpha ((t + 1) * c)

/-- The data columns that a syndrome covers. -/
def covers (l : Layout) (eq : ChunkId) : List Nat :=
  (l.cols.filter (fun e => match eq with
    | .d _ => false
    | .p j => e.1 = j
    | .q j => e.1 = j
    | .g _ => true)).map (·.2.2)

/-- Erased chunks of a group, and those that carry data (R78). -/
def erasedOf (l : Layout) (erased : List ChunkId) (j : Nat) : List ChunkId :=
  erased.filter (fun e => match e with
    | .d c => l.groupOfCol c = some j
    | .p i => i = j
    | .q i => i = j
    | .g _ => false)

def erasedData (l : Layout) (erased : List ChunkId) (j : Nat) : List Nat :=
  (erasedOf l erased j).filterMap (fun e => match e with
    | .d c => some c
    | _ => none)

def spilled (l : Layout) (erased : List ChunkId) (j : Nat) : Bool := 2 < (erasedOf l erased j).length

/-- The pattern is within the stated tolerance (R78). -/
def withinTolerance (l : Layout) (erased : List ChunkId) : Bool :=
  sumOf (fun j => (erasedOf l erased j).length - 2) (List.range l.groups.length) +
    countIf (fun e => match e with
      | .g _ => true
      | _ => false) erased ≤ l.globals

/-- The right-hand side of an equation: its syndrome less every column that is known, read or solved. -/
def rhs (l : Layout) (solved : List (Nat × Comb)) (unknowns : List Nat) (eq : ChunkId) : Comb :=
  (covers l eq).foldl (fun acc c =>
    if unknowns.contains c then acc
    else match solved.find? (fun e => e.1 = c) with
      | some e => acc.add (e.2.scale (coefOf l eq c))
      | none => acc.add [(.d c, coefOf l eq c)]) [(eq, 1)]

/-- One column of Gauss–Jordan: a row with a nonzero pivot is scaled and cleared from the others. -/
def pivot (i : Nat) (rows : List (List (BitVec 16) × Comb)) : Option (List (List (BitVec 16) × Comb)) :=
  match (rows.drop i).findIdx? (fun r => r.1.getD i 0 ≠ 0) with
  | none => none
  | some k =>
    let r := (rows.drop (i + k)).headD ([], [])
    let inv := gfInv (r.1.getD i 0)
    let p : List (BitVec 16) × Comb := (r.1.map (gfMul inv), r.2.scale inv)
    let others := rows.eraseIdx (i + k)
    let cl := others.map (fun q =>
      let f := q.1.getD i 0
      (List.zipWith (fun a b => a ^^^ gfMul f b) q.1 p.1, q.2.add (p.2.scale f)))
    some (cl.take i ++ [p] ++ cl.drop i)

/-- Solves the equations for the unknown columns; none when the matrix is singular. -/
def solve (l : Layout) (solved : List (Nat × Comb)) (unknowns : List Nat) (eqs : List ChunkId) : Option (List (Nat × Comb)) :=
  let rows := eqs.map (fun e => (unknowns.map (coefOf l e), rhs l solved unknowns e))
  ((List.range unknowns.length).foldl (fun o i => o.bind (pivot i)) (some rows)).map (fun rs => unknowns.zip (rs.map (·.2)))

/-- The surviving local equations of a group. -/
def localEqs (erased : List ChunkId) (j : Nat) : List ChunkId := [ChunkId.p j, ChunkId.q j].filter (fun e => !erased.contains e)

/-- Step 1 of R79: the erased data of each group that is not spilled. -/
def solveLocal (l : Layout) (erased : List ChunkId) : List (Nat × Comb) :=
  (List.range l.groups.length).flatMap (fun j =>
    if spilled l erased j then []
    else
      let d := erasedData l erased j
      (solve l [] d ((localEqs erased j).take d.length)).getD [])

/-- The unknowns and equations of the spilled groups (R79 step 2). -/
def spilledSystem (l : Layout) (erased : List ChunkId) : List Nat × List ChunkId :=
  let js := (List.range l.groups.length).filter (spilled l erased)
  let u := (js.flatMap (erasedData l erased)).mergeSort (fun a b => decide (a ≤ b))
  let eqs := js.flatMap (localEqs erased) ++ (((List.range l.globals).map (fun t => ChunkId.g (t + 1))).filter (fun e => !erased.contains e))
  (u, eqs.take u.length)

/-- Every erased data column that is recovered, stated over survivors (R79, R80). -/
def planData (l : Layout) (erased : List ChunkId) : List (Nat × Comb) :=
  let step1 := solveLocal l erased
  let (u, eqs) := spilledSystem l erased
  if u.isEmpty then step1
  else if withinTolerance l erased then step1 ++ (solve l step1 u eqs).getD []
  else step1

/-- A decode plan: outputs over survivors, erased data first and then the erased syndromes whose data is all known (R79–R81). -/
def buildPlan (l : Layout) (erased : List ChunkId) : List (ChunkId × Comb) :=
  let dataOut := planData l erased
  let known := fun c => !erased.contains (.d c) || dataOut.any (fun e => e.1 = c)
  let syn := erased.filter (fun e => match e with
    | .d _ => false
    | _ => (covers l e).all known)
  dataOut.map (fun e => (.d e.1, e.2)) ++
    syn.map (fun e => (e, ((rhs l dataOut [] e).filter (fun x => x.1 ≠ e))))

/-- How one chunk is had under an erasure pattern: itself, a combination of survivors, or not at all. -/
def recover (l : Layout) (erased : List ChunkId) (ch : ChunkId) : Option Comb :=
  if erased.contains ch then ((buildPlan l erased).find? (fun e => e.1 = ch)).map (·.2) else some [(ch, 1)]

/-- A plan that needs a global syndrome (R81, R82). -/
def needsGlobal (l : Layout) (erased : List ChunkId) : Bool := (List.range l.groups.length).any (spilled l erased)

/-- Every sublist of at most n entries. -/
def subsetsUpTo : Nat → List ChunkId → List (List ChunkId)
  | _, [] => [[]]
  | 0, _ => [[]]
  | n + 1, a :: r => (subsetsUpTo n r).map (a :: ·) ++ subsetsUpTo (n + 1) r

/-- The column check (R84): the decode matrix is invertible for every pattern within tolerance that has a spilled group. -/
def columnCheck (l : Layout) : Bool :=
  (subsetsUpTo (2 * l.groups.length + l.globals) l.chunks).all (fun e =>
    !(withinTolerance l e && needsGlobal l e) ||
      (let (u, eqs) := spilledSystem l e
       eqs.length = u.length && (solve l (solveLocal l e) u eqs).isSome))

/-- The bytes of a chunk range that a combination gives, from the bytes of its terms. -/
def combine (len : Nat) (terms : List (BitVec 16 × List Byte)) : List Byte :=
  terms.foldl (fun acc t => xorBytes acc (padTo len (gfScale t.1 t.2))) (zeros len)

end Sys2Proof.Machine
end

