-- ==== Sys2Proof/Machine/CharterBody.lean ====
section
/-! DEFINITION. Images and the charter body: the slot checks of R21, the sections of R22 with the structural checks of R23 and of each section's own rule. Bytes behind the end of a section read as zero (log entry 22). -/

namespace Sys2Proof.Machine

/-! ### Images (R19–R21) -/

/-- A byte of the flash; an erased byte reads 0xFF. -/
def flashByte (s : State) (a : Nat) : Byte := Memory.read 0xFF s.flash.cells a

def flashBytes (s : State) (a len : Nat) : List Byte := Memory.readN 0xFF s.flash.cells a len

/-- Offset and size of a slot (R19): kind 0 charter, 1 firmware. -/
def slotBase (kind slot : Nat) : Nat := if kind = 0 then 0x20_0000 * slot else 0x40_0000 + 0x180_0000 * slot

def slotSize (kind : Nat) : Nat := if kind = 0 then 0x20_0000 else 0x180_0000

/-- The value of the anti-rollback counter of a kind: 0 charter, 1 firmware (R27). -/
def counter (s : State) (kind : Nat) : Nat := thermometer (if kind = 0 then s.fuses.charterBlown else s.fuses.fwBlown) 64 0

/-- The digest that a key-table entry holds, when the entry is programmed and not revoked. -/
def keyEntry (s : State) (kind index : Nat) : Option (List Byte) :=
  if kind = 0 then
    if index < 4 && s.fuses.keyProgrammed.getLsbD index && !s.fuses.keyRevoked.getLsbD index then some (tget (zeros 48) s.fuses.keys index) else none
  else if index < 2 then some (natBe 48 (Config.firmwareKeyDigest index).toNat) else none

/-! ### Sections (R22) -/

/-- The sections of a body as (type, content); none when one runs past the end. -/
def sections : Nat → List Byte → Option (List (Nat × List Byte))
  | 0, _ => none
  | fuel + 1, bs =>
    if bs.isEmpty then some []
    else
      let len := le bs 4 4
      let whole := 8 + ceilDiv len 8 * 8
      if bs.length < whole then none
      else (sections fuel (bs.drop whole)).map (fun r => (le bs 0 2, (bs.drop 8).take len) :: r)

/-- Entries of fixed size that follow each other. -/
def entries (size : Nat) : Nat → List Byte → List (List Byte)
  | 0, _ => []
  | n + 1, bs => padTo size bs :: entries size n (bs.drop size)

def findSec (ss : List (Nat × List Byte)) (t : Nat) : Option (List Byte) := (ss.find? (fun e => e.1 = t)).map (·.2)

def secOf (ss : List (Nat × List Byte)) (t : Nat) : List Byte := (findSec ss t).getD []

def within (lo hi v : Nat) : Bool := decide (lo ≤ v) && decide (v ≤ hi)

def distinct {α : Type} [BEq α] : List α → Bool
  | [] => true
  | a :: r => !r.contains a && distinct r

/-- Required types (R22). -/
def requiredSections : List Nat := [1, 2, 3, 5, 6, 7, 8, 9, 10]

/-- The types present are known or optional by bit 15, none twice, none missing (R22, R23). -/
def sectionsOk (ss : List (Nat × List Byte)) : Bool :=
  requiredSections.all (fun t => (findSec ss t).isSome) && distinct (ss.map (·.1)) &&
    ss.all (fun e => 32768 ≤ e.1 || within 1 13 e.1)

/-! ### Section contents -/

/-- Section 0x0001 (R229). -/
def unitsOk (b : List Byte) : Bool :=
  (le b 0 1 = 1 || le b 0 1 = 2) && le b 16 8 ≠ 0 && (le b 0 1 = 1 || le b 24 8 ≠ 0)

/-- Section 0x0002 (R228). -/
def pinsOk (b : List Byte) : Bool :=
  [1, 2, 4, 8].contains (le b 0 1) && within 1 6 (le b 1 1) && within 6 9 (le b 2 1) && within 1 2 (le b 5 1) &&
    (!bit (le b 3 1) 2 || bit (le b 4 1) 1)

/-- Section 0x0003 (R290). -/
def ringsOk (wickets : Nat) (b : List Byte) : Bool :=
  within 64 16384 (le b 0 2) && within 10 14 (le b 2 1) && (List.range wickets).all (fun w => le b (8 + w) 1 < 64)

/-- Section 0x0004 (R383). -/
def chainOk (b : List Byte) : Bool :=
  within 1 16 (le b 0 1) && le b 1 1 < 2 && (le b 4 4 = 0 || 2 ^ 20 ≤ le b 4 4) && within 8192 (2 ^ 24) (le b 8 4) && within 65536 (2 ^ 24) (le b 12 4)

/-- Numbers of two bytes each. -/
def halves (b : List Byte) (off n : Nat) : List Nat := (List.range n).map (fun i => le b (off + 2 * i) 2)

/-- A port entry of section 0x0006. -/
def portOf (b : List Byte) : PortDef := ⟨le b 0 2, le b 2 2, le b 4 1⟩

def groupOf (b : List Byte) : GroupDef := ⟨le b 0 1, bit (le b 1 1) 0, le b 2 1, le b 4 4, le b 8 4, le b 12 4⟩

def memberOf (b : List Byte) : MemberDef := ⟨le b 0 2, le b 2 1, le b 4 2, le b 8 8⟩

def portsOf (b : List Byte) : List PortDef := (entries 8 (le b 4 1) (b.drop 40)).map portOf
def groupsOf (b : List Byte) : List GroupDef := (entries 24 (le b 2 1) (b.drop 72)).map groupOf
def membersOf (b : List Byte) : List MemberDef := (entries 16 (le b 0 2) (b.drop (72 + 24 * le b 2 1))).map memberOf

/-- Section 0x0006 by itself (R357, R367). -/
def powerOk (b : List Byte) : Bool :=
  let ps := portsOf b
  let gs := groupsOf b
  let ms := membersOf b
  within 1 2048 (le b 0 2) && within 1 64 (le b 2 1) && within 1 64 (le b 3 1) && within 1 4 (le b 4 1) &&
    within 12500 (2 ^ 24) (le b 8 4) && le b 12 4 ≤ 2 ^ 30 && within 12500 (2 ^ 30) (le b 16 4) && within 1 (2 ^ 30) (le b 20 4) &&
    within (2 ^ 20) (2 ^ 31) (le b 24 4) && within (2 ^ 20) (2 ^ 31) (le b 28 4) &&
    ps.all (fun p => within 1 4 p.maxRate) && distinct (ps.flatMap (fun p => bitsOf 16 (p.lanes ||| p.reserves))) &&
    gs.all (fun g => g.group < 64 && within 1 128 g.batch && within 12500 (2 ^ 24) g.memberTimeout && within (2 ^ 20) (2 ^ 26) g.spinUpLimit && within 12500 (2 ^ 24) g.spinDown) &&
    distinct (gs.map (·.group)) &&
    ms.all (fun m => m.member < 2048 && gs.any (fun g => g.group = m.group)) &&
    distinct (ms.map (·.member)) && distinct (ms.map (fun m => (m.enclosure, m.slot)))

/-- A pool descriptor and its length (R171). -/
def poolOf (isGroup : Bool) (b : List Byte) : Pool × Nat :=
  let k := le b 0 1
  let n := le b 1 1
  let h := le b 4 1
  let cols := if isGroup then ceilDiv k 8 * 8 else 0
  (⟨k, halves b (8 + cols) n, le b 2 1, le b 3 1, halves b (8 + cols + 2 * n) h, if isGroup then (List.range k).map (fun i => le b (8 + i) 1) else []⟩,
    8 + cols + ceilDiv (2 * (n + h)) 8 * 8)

/-- The bytes of a pool's descriptor (R171). -/
def poolBytes (isGroup : Bool) (p : Pool) : Nat :=
  8 + (if isGroup then ceilDiv p.width 8 * 8 else 0) + ceilDiv (2 * (p.members.length + p.hotSpares.length)) 8 * 8

/-- Pool descriptors that follow each other, and the bytes behind them. -/
def poolsOf (isGroup : Bool) : Nat → List Byte → List Pool × List Byte
  | 0, b => ([], b)
  | n + 1, b =>
    let (p, len) := poolOf isGroup b
    let (r, rest) := poolsOf isGroup n (b.drop len)
    (p :: r, rest)

/-- A layout entry of the given bytes (R170, R171); whether its length agrees with its descriptors. -/
def layoutOfBytes (b : List Byte) : Layout × Bool :=
  let (gs, r1) := poolsOf true (le b 1 1) (b.drop 64)
  let (ks, r2) := poolsOf false (le b 5 1) r1
  let len := 64 + sumOf (poolBytes true) gs + sumOf (poolBytes false) ks
  (⟨le b 0 1, le b 2 1, le b 3 1, le b 4 1, le b 6 1, le b 8 8, le b 16 4, (b.drop 24).take 32, gs, ks, b⟩, r2.isEmpty && b.length = len)

/-- The layout entries of the book, each by its entry length. -/
def layoutEntries : Nat → List Byte → Option (List (Layout × Bool))
  | 0, _ => some []
  | n + 1, b =>
    let len := le b 20 4
    if len < 64 || len % 8 ≠ 0 || b.length < len then none
    else (layoutEntries n (b.drop len)).map (layoutOfBytes (b.take len) :: ·)

/-- R76, R85, R171, R172: one entry by itself, over the member table. -/
def layoutOk (ms : List MemberDef) (l : Layout) : Bool :=
  let m := l.globals
  let all := l.groups ++ l.keystones
  let inGroup := fun (g x : Nat) => ms.any (fun d => d.member = x && d.group = g)
  let pool := all.flatMap (·.members)
  l.index < 64 && within 1 16 l.groups.length && m ≤ 4 && l.chunkLog ≤ 6 && l.spare ≤ 32 && l.areaOffset % 2 ^ 20 = 0 && l.fallback ≠ l.index &&
    l.data ≤ 240 && l.width ≤ 256 &&
    (if m = 0 then l.keystones.isEmpty else l.keystones.length = 1 || l.keystones.length = 2) &&
    (if l.keystones.length = 2 then l.keystones.map (·.width) = [(m + 1) / 2, m / 2] else l.keystones.all (fun p => p.width = m)) &&
    l.groups.all (fun p => within 1 60 p.width && within (p.width + 2) 128 p.members.length && within 1 (p.members.length - 1) p.step && Nat.gcd p.step p.members.length = 1) &&
    l.keystones.all (fun p => within (max 1 p.width) 128 p.members.length && p.step = 0) &&
    all.all (fun p => p.powerGroup < 64 && p.hotSpares.length ≤ 4 && (p.members ++ p.hotSpares).all (inGroup p.powerGroup)) &&
    distinct (l.groups.flatMap (·.columns)) && (l.groups.flatMap (·.columns)).all (· < 240) &&
    distinct pool && distinct (all.flatMap (·.hotSpares)) && all.all (fun p => p.hotSpares.all (fun h => !pool.contains h))

/-- Members of a layout's pools. -/
def Layout.members (l : Layout) : List Nat := (l.groups ++ l.keystones).flatMap (·.members)

/-- The area of a layout on each of its members. -/
def Layout.areaEnd (l : Layout) : Nat := l.areaOffset + l.areaSlots * l.chunk

/-- Two layouts place overlapping areas on one member. -/
def areasClash (a b : Layout) : Bool := a.members.any b.members.contains && a.areaOffset < b.areaEnd && b.areaOffset < a.areaEnd

def anyPair {α : Type} (p : α → α → Bool) : List α → Bool
  | [] => false
  | a :: r => r.any (p a) || anyPair p r

/-- Distinct power groups that a layout spans. -/
def Layout.spans (l : Layout) : List Nat := ((l.groups ++ l.keystones).map (·.powerGroup)).eraseDups

/-- Section 0x0007 (R169–R172). -/
def bookOk (ms : List MemberDef) (b : List Byte) : Option (List Layout) :=
  if !within 1 64 (le b 0 2) then none
  else (layoutEntries (le b 0 2) (b.drop 8)).bind (fun es =>
    let ls := es.map (·.1)
    if es.all (·.2) && ls.all (layoutOk ms) && distinct (ls.map (·.index)) &&
      ls.all (fun l => l.fallback = 0xFF || ls.any (fun k => k.index = l.fallback)) && !anyPair areasClash ls
    then some ls else none)

/-- A volume entry (R89). -/
def volumeOf (b : List Byte) : VolumeDef := ⟨le b 0 2, le b 2 1, le b 3 1, le b 4 1, le b 5 1, le b 8 8, (b.drop 16).take 32, b⟩

/-- The first entry of each volume, and the indices of the others (R90). -/
def firstVolumes : Nat → List VolumeDef → List VolumeDef → List VolumeDef × List Nat
  | _, acc, [] => (acc, [])
  | i, acc, v :: r =>
    if acc.any (fun d => d.volume = v.volume) then let q := firstVolumes (i + 1) acc r; (q.1, i :: q.2)
    else firstVolumes (i + 1) (acc ++ [v]) r

/-- Section 0x0008 (R17, R23, R89). -/
def volumesOk (ls : List Layout) (b : List Byte) : Option (List VolumeDef × List Nat) :=
  let es := (entries 64 (le b 0 2) (b.drop 8)).map volumeOf
  let (vs, ign) := firstVolumes 0 [] es
  if within 1 256 (le b 0 2) && es.all (fun v => v.volume < 256 && v.kind < 2 && v.bandLog ≤ 8 && 1 ≤ v.capacity && ls.any (fun l => l.index = v.layout)) &&
    countIf (fun v => v.kind = 1) vs ≤ 8
  then some (vs, ign) else none

/-- Section 0x0005 (R23, R123). -/
def registryOk (ms : List MemberDef) (ls : List Layout) (vs : List VolumeDef) (b : List Byte) : Bool :=
  let n := le b 0 1
  let listed := halves b 24 (n + le b 1 1)
  let off := le b 8 8
  let copy := le b 16 8
  let bands := sumOf (fun (v : VolumeDef) => match ls.find? (fun l => l.index = v.layout) with
    | some l => ceilDiv v.capacity (max 1 (bandBlocks l v))
    | none => 0) vs
  let areaEnd := off + 2 * 2 ^ 20 + copy + 2 ^ 20 + 65536
  (n = 3 || n = 5) && le b 1 1 ≤ 4 && within 28 34 (le b 2 1) && off % 2 ^ 20 = 0 && copy % 2 ^ 20 = 0 &&
    listed.all (fun m => ms.any (fun d => d.member = m)) && distinct listed &&
    ceilDiv (2 ^ 20 + 64 * bands) (2 ^ 20) * 2 ^ 20 ≤ copy &&
    ls.all (fun l => !(l.members.any listed.contains && off < l.areaEnd && l.areaOffset < areaEnd)) &&
    3 ≤ (((listed.take n).filterMap (fun m => (ms.find? (fun d => d.member = m)).map (·.group))).eraseDups).length

/-- Section 0x0009 (R452). -/
def faultsOk (b : List Byte) : Bool :=
  within 1 255 (le b 0 1) && within 1 255 (le b 1 1) && within 16 27 (le b 2 1) && within 1 255 (le b 3 1) && within 1 255 (le b 4 1) &&
    within 20 31 (le b 5 1) && within 1 255 (le b 6 1) && within 16 28 (le b 7 1) && within 1 7 (le b 8 1) && within 1 255 (le b 9 1)

/-- Section 0x000A (R168). -/
def floorOk (b : List Byte) : Bool := b.length = 8 && within 1 100 (le b 0 1) && le b 1 1 = 0 && within 1 365 (le b 2 2) && le b 4 2 ≤ 1023 && within 1 65535 (le b 6 2)

/-- A trigger entry of section 0x000B (R419). -/
def kindOf (b : List Byte) : KindDef :=
  ⟨le b 0 1, bit (le b 1 1) 0, bit (le b 1 1) 1, (List.range (le b 2 1)).map (fun i => le b (8 + 4 * i) 4)⟩

def kindsOf (b : List Byte) : List KindDef := (entries 72 (le b 0 2) (b.drop 8)).map kindOf

/-- Section 0x000B (R418, R419). -/
def kindsOk (b : List Byte) : Bool :=
  let ks := kindsOf b
  le b 0 2 ≤ 30 && distinct (ks.map (·.kind)) &&
    ks.all (fun k => k.kind < 0x1E && (!k.disable || 0x19 ≤ k.kind) && k.words.length ≤ 16 && k.words.all (fun a => a % 4 = 0 && a < 0x10_0000))

def envelopesOf (b : List Byte) : List Envelope := (entries 16 (le b 0 2) (b.drop 8)).map (fun e => ⟨le e 0 1, le e 4 4, le e 8 4, le e 12 4⟩)

/-- The device range of a feature (R310). -/
def deviceRange (holdoff floor spin id : Nat) : Nat × Nat :=
  if id = 1 then (16, 65535) else if id = 2 then (0, holdoff) else if id = 3 then (floor, 100) else if id = 4 then (1, spin) else (0, 1)

/-- Section 0x000C (R310, R311). -/
def envelopesOk (holdoff floor spin : Nat) (b : List Byte) : Bool :=
  let es := envelopesOf b
  le b 0 2 ≤ 5 && distinct (es.map (·.id)) &&
    es.all (fun e => within 1 5 e.id && e.min ≤ e.max && within e.min e.max e.dflt &&
      (deviceRange holdoff floor spin e.id).1 ≤ e.min && e.max ≤ (deviceRange holdoff floor spin e.id).2)

def vaultsOf (b : List Byte) : List VaultDef := (entries 16 ((b.length - 8) / 16) (b.drop 8)).map (fun e => ⟨le e 0 2, le e 4 4⟩)

/-- Blocks of a vault before its heap (R327). -/
def indexBlocks (limit : Nat) : Nat := ceilDiv limit 6 + 8

/-- Section 0x000D (R325, R326). -/
def vaultsOk (vs : List VolumeDef) (b : Option (List Byte)) : Bool :=
  let kind1 := vs.filter (fun v => v.kind = 1)
  match b with
  | none => kind1.isEmpty
  | some b =>
    let es := vaultsOf b
    within 1 3650 (le b 0 2) && within 20 32 (le b 2 1) && within 1 1024 (le b 4 2) && es.all (fun e => 1 ≤ e.objectLimit) &&
      distinct (es.map (·.volume)) && es.all (fun e => kind1.any (fun v => v.volume = e.volume)) &&
      kind1.all (fun v => es.any (fun e => e.volume = v.volume && 2 + indexBlocks e.objectLimit + 1 ≤ v.capacity))

/-! ### The whole body -/

/-- The charter of a body that passes the structural checks (R23); none when it fails one. -/
def parseCharter (hdr body : List Byte) (digest : List Byte) : Option Charter :=
  (sections (body.length + 1) body).bind (fun ss =>
    let u := secOf ss 1
    let p := secOf ss 2
    let r := secOf ss 3
    let ch := secOf ss 4
    let g := secOf ss 5
    let w := secOf ss 6
    let f := secOf ss 9
    let a := secOf ss 10
    let wickets := 2 ^ le p 2 1
    let ms := membersOf w
    if !(sectionsOk ss && unitsOk u && pinsOk p && ringsOk wickets r && powerOk w && faultsOk f && floorOk a) then none
    else
      (bookOk ms (secOf ss 7)).bind (fun ls => (volumesOk ls (secOf ss 8)).bind (fun (vs, ign) =>
        let envs := envelopesOf (secOf ss 12)
        let spinMin := ((envs.find? (fun e => e.id = 4)).map (·.min)).getD (le w 3 1)
        let vset := if (findSec ss 4).isSome then le ch 16 32 else 0
        -- R384
        let pairOk := if le u 0 1 = 2 then (findSec ss 4).isSome && vset = maskOf (vs.map (·.volume)) else vset = 0
        if ((findSec ss 4).isNone || chainOk ch) && pairOk && registryOk ms ls vs g &&
          ls.all (fun l => l.spans.length ≤ le w 3 1 && l.spans.length ≤ spinMin) &&
          ((findSec ss 11).isNone || kindsOk (secOf ss 11)) &&
          ((findSec ss 12).isNone || envelopesOk (le g 4 2) (le a 0 1) (le w 3 1) (secOf ss 12)) &&
          vaultsOk vs (findSec ss 13)
        then some {
          seq := le hdr 16 8, secVersion := le hdr 24 2, keyIndex := le hdr 26 1, floor := le hdr 28 2, digest := digest
          units := le u 0 1, subVendor := le u 8 2, subId := le u 10 2, serial0 := le u 16 8, serial1 := le u 24 8, product := padTo 32 (u.drop 32)
          maxWidth := le p 0 1, maxRate := le p 1 1, wicketLog := le p 2 1, linkFlags := le p 3 1, pinFlags := le p 4 1, payload := le p 5 1
          queueLimit := le r 0 2, creditStepLog := le r 2 1, defaultRings := (List.range wickets).map (fun i => le r (8 + i) 1)
          chainPresent := (findSec ss 4).isSome, expectedUnits := le ch 0 1, preferred := le ch 1 1, auditInterval := le ch 4 4, detachDelay := le ch 8 4,
          negotiationWait := if (findSec ss 4).isSome then le ch 12 4 else 1250000, volumeSet := le ch 16 32
          registry := halves g 24 (le g 0 1), alternates := halves g (24 + 2 * le g 0 1) (le g 1 1), regionLog := le g 2 1, holdoff := le g 4 2,
          areaOffset := le g 8 8, mapCopySize := le g 16 8
          spinLimit := le w 3 1, stagger := le w 8 4, minWindow := le w 12 4, idleEnd := le w 16 4, defaultHold := le w 20 4, starvation := le w 24 4,
          calInterval := le w 28 4, ports := portsOf w, groups := groupsOf w, members := ms
          layouts := ls, volumes := vs, ignoredVolumes := ign
          errorLimit := le f 0 1, errorHours := le f 1 1, suspectLog := le f 2 1, blockLimit := le f 3 1, parityLimit := le f 4 1, parityLog := le f 5 1,
          bankLimit := le f 6 1, bankLog := le f 7 1, wayLimit := le f 8 1, rowLimit := le f 9 1, dramRepair := bit (le f 10 1) 0
          rebuildFloor := le a 0 1, scrubDays := le a 2 2, guard := le a 4 2, branchIdle := le a 6 2
          kinds := kindsOf (secOf ss 11), envelopes := envs
          auditDays := if (findSec ss 13).isSome then le (secOf ss 13) 0 2 else 365
          sessionIdleLog := if (findSec ss 13).isSome then le (secOf ss 13) 2 1 else 27
          sessionLimit := if (findSec ss 13).isSome then le (secOf ss 13) 4 2 else 256
          vaults := if (findSec ss 13).isSome then vaultsOf (secOf ss 13) else [] }
        else none)))

/-- The checks of R21 on a slot's bytes, in order: the code, and the charter of a charter slot that is valid. -/
def checkImage (s : State) (kind : Nat) (hdr : List Byte) (body : Nat → List Byte) : Nat × Option Charter :=
  let bodyLen := le hdr 8 4
  if le hdr 0 4 = 0xFFFFFFFF then (1, none)
  else if le hdr 0 4 ≠ (if kind = 0 then 0x5A434843 else 0x5A434657) then (2, none)
  else if le hdr 4 2 ≠ 1 || le hdr 6 2 ≠ 512 || slotSize kind - 512 < bodyLen || 64 < le hdr 24 2 then (3, none)
  else
    let bd := body bodyLen
    let crc := ~~~ (crcRun (crcRun 0xFFFFFFFF (hdr.take 508)) bd)
    if crc.toNat ≠ le hdr 508 4 then (4, none)
    else if le hdr 12 4 ≠ 0x72048 then (5, none)
    else if keyEntry s kind (le hdr 26 1) ≠ some (sha384 ((hdr.drop 32).take 96)) then (6, none)
    else if sha384 bd ≠ (hdr.drop 128).take 48 then (7, none)
    else if !p384Verify ((hdr.drop 32).take 96) ((hdr.drop 176).take 96) (sha384 (hdr.take 176)) then (8, none)
    else if le hdr 24 2 < counter s kind then (9, none)
    else if kind ≠ 0 then (0, none)
    else match parseCharter hdr bd ((hdr.drop 128).take 48) with
      | none => (0xA, none)
      | some c => if c.serial0 = s.fuses.serial || c.units = 2 && c.serial1 = s.fuses.serial then (0, some c) else (0xB, none)

/-- SLOT_CHECK (R21): one slot of the flash. A slot of which a loss of power cut off a write fails a check (R26): the CRC-32C where its bytes pass every other. -/
def slotCheck (s : State) (kind slot : Nat) : Nat × Option Charter :=
  let base := slotBase kind slot
  let r := checkImage s kind (flashBytes s base 512) (fun n => flashBytes s (base + 512) n)
  if r.1 = 0 && s.flash.torn.any (fun e => base < e.1 + e.2 && e.1 < base + slotSize kind) then (4, none) else r

/-- The choice between two slots (R24): slot 0 or 1 by sequence number and BOOT_SLOT. -/
def chooseSlot (bootSlot ok0 ok1 : Bool) (seq0 seq1 : Nat) : Option Nat :=
  if ok0 && ok1 then
    if bootSlot then some (if seq0 < seq1 then 0 else 1) else some (if seq0 < seq1 then 1 else 0)
  else if ok0 then some 0 else if ok1 then some 1 else none

end Sys2Proof.Machine
end

