-- ==== Sys2Proof/Machine/Courier.lean ====
section
/-! DEFINITION. The courier (16 R428–R442). -/

namespace Sys2Proof.Machine

def chan (s : State) (n : Nat) : Channel := (s.courier.channels.drop n).headD {}

def modChan (s : State) (n : Nat) (f : Channel → Channel) : State :=
  { s with courier := { s.courier with channels := modAt f n s.courier.channels } }

def Channel.cur (c : Channel) : Slot := (c.slots.drop c.slot).headD {}

/-! ### Spaces (R429) -/

/-- Bytes of a space; host memory is any 64-bit address. -/
def spaceSize (s : State) (sp : Nat) : Nat :=
  if sp = 0 then s.reserves.dramGib * 2 ^ 30 else if sp = 1 then 0x400_0000 else if sp = 2 then 2 ^ 31 else 2 ^ 64

/-- The maintenance rules hold for a channel. -/
def hostOwned (s : State) (n : Nat) : Bool := s.courier.maint && 12 ≤ n

/-- Source allowed (R429). -/
def srcAllowed (s : State) (n sp : Nat) : Bool :=
  if sp ≤ 2 then true else if sp = 3 then hostOwned s n else sp = 4 && 4 ≤ n && n ≤ 11

/-- Destination allowed (R429). -/
def dstAllowed (s : State) (n sp : Nat) : Bool :=
  if hostOwned s n then sp = 3
  else if sp ≤ 2 then true else if sp = 3 then n ≤ 3 else sp = 4 && 4 ≤ n && n ≤ 11

/-- The fault of a slot at its fetch, when there is one: its code, and whether the channel goes Idle at once (R429, R430, R433, R435, R436). -/
def fetchFault (s : State) (n : Nat) (x : Slot) : Option (Nat × Bool) :=
  let split := x.xform = 2 || x.xform = 3
  if x.last = x.more || x.count = 0 then some (6, true)
  else if x.srcFixed && (x.src.toNat % 64 ≠ 0 || x.count % 64 ≠ 0) || x.dstFixed && (x.dst.toNat % 64 ≠ 0 || x.count % 64 ≠ 0) then some (6, false)
  else if x.xform = 1 && x.dstFixed || split && (x.count % 128 ≠ 0 || x.srcFixed || x.dstFixed) then some (6, false)
  else if !srcAllowed s n x.srcSpace || !dstAllowed s n x.dstSpace then some (5, false)
  else if spaceSize s x.srcSpace < x.src.toNat + (if x.srcFixed then 64 else x.count) ||
      spaceSize s x.dstSpace < x.dst.toNat + (if x.dstFixed then 64 else x.count) + (if x.xform = 1 then 4 else 0) then some (7, false)
  else none

/-! ### Running a chain (R430, R431, R439) -/

/-- A slot marked bad is counted by its code (CUR_BAD, GEN_MASTER.MASTEROFF). -/
def countBad (s : State) (code : Nat) : State :=
  { s with
    courier := { s.courier with bad := modAt (inc 0xFF) code s.courier.bad }
    returns := if code = 3 then { s.returns with masterOff := inc 0xFFFF s.returns.masterOff } else s.returns }

/-- The stored slot at its end: VALID cleared, and marked when bad. -/
def closeSlot (bad : Option Nat) (x : Slot) : Slot :=
  { x with valid := false, bad := x.bad || bad.isSome, badCode := bad.getD x.badCode }

mutual
/-- A slot is fetched and runs, or is marked bad (R430); `fuel` bounds the slots of one chain. -/
def fetchSlot : Nat → State → Nat → Nat → State
  | 0, s, _, _ => s
  | fuel + 1, s, n, k =>
    let x := ((chan s n).slots.drop k).headD {}
    let s := modChan s n (fun c => { c with slot := k, state := 1, fetched := x, genAtFetch := c.gen, moved := 0, crcRun := 0xFFFFFFFF, hostRead := none, fetchedData := [] })
    match fetchFault s n x with
    | none => s
    | some (code, true) =>
      modChan (countBad s code) n (fun c => { c with slots := modAt (closeSlot (some code)) k c.slots, state := 0, pulses := c.pulses + 1 })
    | some (code, false) => endSlot fuel s n (some code)
/-- A slot ends: VALID cleared, marked when bad, and the channel goes on under its fetched bits; the pulse is sent (R430, R434, R437, R439). -/
def endSlot : Nat → State → Nat → Option Nat → State
  | 0, s, _, _ => s
  | fuel + 1, s, n, bad =>
    let c := chan s n
    let k := c.slot
    let s := (bad.map (countBad s)).getD s
    let s := modChan s n (fun c => { c with slots := modAt (closeSlot bad) k c.slots, pulses := c.pulses + 1, hostRead := none, fetchedData := [] })
    let nx := (k + 1) % 4
    if c.fetched.last then
      if c.gen ≠ c.genAtFetch then
        { modChan s n (fun c => { c with state := 0, next := nx, missed := true }) with
          courier := { (modChan s n (fun c => { c with state := 0, next := nx, missed := true })).courier with missed := inc 0xFFFF s.courier.missed } }
      else modChan s n (fun c => { c with state := 0, next := nx })
    else if ((c.slots.drop nx).headD {}).valid then fetchSlot fuel s n nx
    else modChan s n (fun c => { c with state := 2 })
end

/-- The running slot of a channel ends. -/
def slotEnd (s : State) (n : Nat) (bad : Option Nat) : State := endSlot 12 s n bad

/-- START on an Idle channel: runs from NEXT and clears CHAIN_MISSED (R431); it waits at a slot that is not VALID (DESIGN CHOICE, log entry 38). -/
def courierStart (s : State) (n : Nat) : State :=
  let c := chan s n
  if c.state ≠ 0 then s
  else
    let s := modChan s n (fun c => { c with missed := false })
    if ((c.slots.drop c.next).headD {}).valid then fetchSlot 12 s n c.next
    else modChan s n (fun d => { d with state := 2, slot := (d.next + 3) % 4 })

/-- COURIER_START (R431). -/
def execCourierStart (ch : Nat) (s : State) : Host.Outcome State Fault Refusal :=
  .next (if ch < 16 then courierStart s ch else s)

/-- The control word of a slot as written; reserved space codes keep the old ones (R11), and BAD clears with VALID (R431). -/
def ctlWrite (x : Slot) (v : Nat) : Slot :=
  let valid := bit v 32
  { x with
    count := fld v 26 0, valid := valid, last := bit v 33, more := bit v 34, srcFixed := bit v 35, dstFixed := bit v 36
    srcSpace := if fld v 42 40 ≤ 4 then fld v 42 40 else x.srcSpace
    dstSpace := if fld v 46 44 ≤ 4 then fld v 46 44 else x.dstSpace
    xform := fld v 49 48, bad := x.bad && !valid, badCode := if valid then 0 else x.badCode }

/-- A write to a word of a slot: 0 source, 1 destination, 2 control (R430, R431, R439). -/
def slotWrite (s : State) (n k reg : Nat) (value : BitVec 64) : State :=
  let c := chan s n
  let x := (c.slots.drop k).headD {}
  let running := (c.state = 1 || c.state = 3) && c.slot = k
  let y : Slot :=
    if reg = 0 then (if running then x else { x with src := value })
    else if reg = 1 then (if running then x else { x with dst := value })
    else if running then { x with last := bit value.toNat 33, more := bit value.toNat 34 }
    else ctlWrite x value.toNat
  let drop := x.last && !y.last
  let s := modChan s n (fun c => { c with slots := modAt (fun _ => y) k c.slots, gen := if drop then (c.gen + 1) % 256 else c.gen })
  if c.state = 2 && (c.slot + 1) % 4 = k && y.valid then fetchSlot 12 s n k else s

/-- COURIER_SLOT_WRITE (R429–R431, R439, R440). -/
def execCourierSlotWrite (ch slot reg : Nat) (value : BitVec 64) (s : State) : Host.Outcome State Fault Refusal :=
  .next (if ch < 16 && slot < 4 then slotWrite s ch slot reg value else s)

/-! ### Shadow hand-over (R441) -/

/-- The shadow copy: progress of the interrupted slot, four new slots, NEXT 0; a running channel goes on with slot 0 when it is VALID. -/
def shadowCopy (s : State) (n : Nat) : State :=
  let c := chan s n
  let run := c.state = 1 || c.state = 3
  let f := c.fetched
  let s := modChan s n (fun c => { c with
    slots := c.shadow, armed := false, next := 0, missed := false, shadowSeq := c.shadowWseq, state := 0
    hoSrc := f.src + (if f.srcFixed || !run then 0 else BitVec.ofNat 64 c.moved)
    hoDst := f.dst + (if f.dstFixed || !run then 0 else BitVec.ofNat 64 c.moved)
    hoCount := if run then f.count - c.moved else 0 })
  let s : State := { s with courier := { s.courier with handovers := inc 0xFFFF s.courier.handovers } }
  if run && (c.shadow.headD {}).valid then fetchSlot 12 s n 0 else s

/-- Arms the copy; on an Idle or Waiting channel it takes place in the next cycle. -/
def shadowArm (s : State) (n : Nat) : State :=
  let c := chan s n
  let s := modChan s n (fun c => { c with armed := true })
  if c.state = 0 || c.state = 2 then shadowCopy s n else s

/-- SHADOW_ARM (R441). -/
def execShadowArm (ch : Nat) (s : State) : Host.Outcome State Fault Refusal :=
  .next (if ch < 16 then shadowArm s ch else s)

/-- A shadow write: stored, and SHADOW_WSEQ advances. -/
def shadowWrite (s : State) (n k reg : Nat) (value : BitVec 64) : State :=
  modChan s n (fun c => { c with
    shadow := modAt (fun x => if reg = 0 then { x with src := value } else if reg = 1 then { x with dst := value } else ctlWrite x value.toNat) k c.shadow
    shadowWseq := (c.shadowWseq + 1) % 65536 })

/-- SHADOW_WRITE (R441). -/
def execShadowWrite (ch slot reg : Nat) (value : BitVec 64) (s : State) : Host.Outcome State Fault Refusal :=
  .next (if ch < 16 && slot < 4 then shadowWrite s ch slot reg value else s)

/-! ### Bursts (R432–R438) -/

/-- Reads bytes of a space. -/
def spaceRead (s : State) (sp a len : Nat) : List Byte :=
  if sp = 0 then Memory.readN 0 s.dram a len else if sp = 1 then Memory.readN 0 s.scratch.cells a len
  else if sp = 2 then Memory.readN 0 s.ledger.cells a len else if sp = 3 then Memory.readN 0 s.hostMem a len
  else Memory.readN 0 s.courier.frames a len

/-- Writes bytes into a space. -/
def spaceWrite (s : State) (sp a : Nat) (bs : List Byte) : State :=
  if sp = 0 then { s with dram := Memory.writeN 0 s.dram a bs }
  else if sp = 1 then { s with scratch := { s.scratch with cells := Memory.writeN 0 s.scratch.cells a bs } }
  else if sp = 2 then { s with ledger := { s.ledger with cells := Memory.writeN 0 s.ledger.cells a bs } }
  else if sp = 3 then hostWrite s a bs
  else { s with courier := { s.courier with frames := Memory.writeN 0 s.courier.frames a bs } }

/-- The even and the odd bytes of a byte string. -/
def evens : List Byte → List Byte
  | a :: _ :: r => a :: evens r
  | l => l
def odds : List Byte → List Byte
  | _ :: b :: r => b :: odds r
  | _ => []

/-- Bytes to the next 256-byte boundary. -/
def toBoundary (a : Nat) : Nat := 256 - a % 256

/-- Bytes of the next burst: up to 256, not across a 256-byte boundary of a destination address; a Split has two (R432, R436). -/
def burstLen (c : Channel) : Nat :=
  let f := c.fetched
  let left := min 256 (f.count - c.moved)
  if f.xform = 2 then
    min left (min (2 * toBoundary (f.dst.toNat + c.moved / 2)) (2 * toBoundary (f.dst.toNat + f.count / 2 + c.moved / 2)))
  else min left (toBoundary (f.dst.toNat + (if f.dstFixed then 0 else c.moved)))

/-- Where byte i of a slot's data comes from; a Join takes the even ones from the low plane and the odd ones COUNT/2 on (R433, R436). -/
def byteSource (f : Slot) (i : Nat) : Nat :=
  f.src.toNat + (if f.srcFixed then 0 else if f.xform = 3 then (if i % 2 = 1 then f.count / 2 else 0) + i / 2 else i)

/-- The source bytes of the next burst, in the order in which a Join writes them. -/
def burstData (s : State) (c : Channel) : List Byte :=
  let f := c.fetched
  let n := burstLen c
  if f.srcSpace = 3 then padTo n c.fetchedData
  else if f.xform = 3 then (List.range n).flatMap (fun i => spaceRead s f.srcSpace (byteSource f (c.moved + i)) 1)
  else spaceRead s f.srcSpace (f.src.toNat + (if f.srcFixed then 0 else c.moved)) n

/-- The writes of a burst: byte planes for a Split (R436). -/
def burstWrite (s : State) (c : Channel) (d : List Byte) : State :=
  let f := c.fetched
  if f.xform = 2 then
    spaceWrite (spaceWrite s f.dstSpace (f.dst.toNat + c.moved / 2) (evens d)) f.dstSpace (f.dst.toNat + f.count / 2 + c.moved / 2) (odds d)
  else spaceWrite s f.dstSpace (f.dst.toNat + (if f.dstFixed then 0 else c.moved)) d

/-- A scratch word that the burst reads is poisoned (R437 code 2). -/
def burstPoisoned (s : State) (c : Channel) : Bool :=
  c.fetched.srcSpace = 1 && (List.range (burstLen c)).any (fun i =>
    s.scratch.poisoned.contains ((byteSource c.fetched (c.moved + i) + (if c.fetched.srcFixed then i else 0)) / 64))

/-- Bus mastering is off or the function is in D3hot (R438). -/
def mastersOff (s : State) : Bool := !s.cfg.busMaster || s.cfg.powerState ≠ 0

/-- A burst of a running channel at a burst boundary: the armed copy, the pauses of R438, then the move; the CRC goes behind the last byte (R435). -/
def burst (s : State) (n : Nat) : State :=
  let c := chan s n
  let host := c.fetched.srcSpace = 3 || c.fetched.dstSpace = 3
  if c.state ≠ 1 && c.state ≠ 3 then s
  else if c.armed then shadowCopy s n
  else if host && mastersOff s then
    if n ≤ 3 then modChan s n (fun c => { c with state := 3 })
    else if c.hostRead.isSome then s else slotEnd s n (some 3)
  else if c.fetched.count ≤ c.moved then s
  else if burstPoisoned s c then slotEnd s n (some 2)
  else if c.fetched.srcSpace = 3 && c.fetchedData.isEmpty then
    -- a host read is issued; its completion brings the data (R16, R248)
    if c.hostRead.isSome then s else modChan s n (fun c => { c with state := 1, hostRead := some (burstLen c), readySince := none })
  else
    let d := burstData s c
    let len := burstLen c
    let s := burstWrite s c d
    let run := crcRun c.crcRun d
    let whole := c.fetched.count ≤ c.moved + len
    let s := if whole && c.fetched.xform = 1 then spaceWrite s c.fetched.dstSpace (c.fetched.dst.toNat + c.fetched.count) (natLe 4 (~~~run).toNat) else s
    let s := modChan s n (fun c => { c with
      state := 1, moved := c.moved + len, crcRun := run, readySince := none, fetchedData := []
      crc := if whole && c.fetched.xform = 1 then ~~~run else c.crc })
    { s with courier := { s.courier with bursts := inc 0xFFFFFFFF s.courier.bursts, lastGrant := n } }

/-- The channel that takes the next grant among those with a burst ready (R432): one starved for 4,096 cycles first, then by priority, in turn. -/
def grantee (s : State) (ready : List Nat) : Option Nat :=
  let now := absCycle s
  let starved := ready.filter (fun n => match (chan s n).readySince with
    | some t => t + 4096 ≤ now
    | none => false)
  match minOf starved with
  | some n => some n
  | none =>
    let top := maxOf (ready.map (fun n => (chan s n).prio))
    let best := ready.filter (fun n => (chan s n).prio = top)
    match minOf (best.filter (fun n => s.courier.lastGrant < n)) with
    | some n => some n
    | none => minOf best

/-- BURST_GRANT (R428, R432, R433, R436, R438, R441): the channels with a burst ready at cycle t. -/
def execBurstGrant (t : Nat) (ready : List Nat) (s : State) : Host.Outcome State Fault Refusal :=
  .next <|
    let s := s.at t
    let ready := (ready.filter (fun n => (chan s n).state = 1 || (chan s n).state = 3)).eraseDups
    let now := absCycle s
    let mark := fun (n : Nat) (c : Channel) => { c with readySince := if ready.contains n then some (c.readySince.getD now) else none }
    let s : State := { s with courier := { s.courier with channels := List.zipWith mark (List.range 16) s.courier.channels } }
    match grantee s ready with
    | none => s
    | some n => burst s n

/-- SLOT_COMPLETE (R434, R439): the last write of a slot has left the courier. -/
def execSlotComplete (ch : Nat) (s : State) : Host.Outcome State Fault Refusal :=
  .next (if (chan s ch).state = 1 && (chan s ch).fetched.count ≤ (chan s ch).moved then slotEnd s ch none else s)

/-- SLOT_FAULT (R437): BusError, Poisoned, MasterOff, WriteLost, Forbidden, BadSlot, Range or Abandoned ends the running slot at once. -/
def execSlotFault (ch code : Nat) (s : State) : Host.Outcome State Fault Refusal :=
  .next (if ((chan s ch).state = 1 || (chan s ch).state = 3) && 1 ≤ code && code ≤ 8 then slotEnd s ch (some code) else s)

/-! ### Maintenance mode (R442) -/

/-- MAINTENANCE_ENTER: ARM 0x4D54 registers the request. -/
def execMaintenanceEnter (arm : Nat) (s : State) : Host.Outcome State Fault Refusal :=
  .next (if arm = 0x4D54 && writesTaken s then { s with courier := { s.courier with enterPending := !s.courier.maint } } else s)

/-- MAINTENANCE_EXIT: it takes effect at the next boundary. -/
def execMaintenanceExit (arm : Nat) (s : State) : Host.Outcome State Fault Refusal :=
  .next (if arm = 0x4D54 && writesTaken s then
    { s with courier := { s.courier with exitPending := s.courier.maint, enterPending := false } } else s)

/-- Entry and exit at a boundary; a host slot still running is marked Abandoned. -/
def maintBoundary (s : State) : State :=
  let idle := (List.range 4).all (fun k => (chan s (12 + k)).state = 0)
  if s.courier.exitPending then
    let s := (List.range 4).foldl (fun s k => if (chan s (12 + k)).state ≠ 0 then
      modChan (slotEnd s (12 + k) (some 8)) (12 + k) (fun c => { c with state := 0 }) else s) s
    { s with courier := { s.courier with maint := false, exitPending := false } }
  else if s.courier.enterPending && idle then { s with courier := { s.courier with maint := true, enterPending := false } }
  else s

/-- Paused channels 0 to 3 go on once bus mastering is allowed (R438, R250). -/
def resumeChannels (s : State) : State :=
  { s with courier := { s.courier with channels := s.courier.channels.map (fun c => if c.state = 3 then { c with state := 1 } else c) } }

/-- Paused slots are marked Abandoned when held postings are dropped (R438). -/
def abandonPaused (s : State) : State :=
  ((List.range 4).filter (fun n => (chan s n).state = 3)).foldl (fun s n => slotEnd s n (some 8)) s

end Sys2Proof.Machine
end

