-- ==== Sys2Proof/Machine/Operands.lean ====
section
/-! DEFINITION. The operands of host commands: the header (R260), the fields of each opcode, and the checks after acceptance (R292, R293). -/

namespace Sys2Proof.Machine

/-- The header of 60 stored bytes (R260). -/
def parseHdr (b : List Byte) : Hdr :=
  { opcode := le b 0 1, flags := le b 1 1, volume := le b 2 2, tag := le b 4 2 % 16384, ring := le b 6 2,
    lba := le b 8 8, blocks := le b 16 4, d := le b 20 4, op := (b.drop 24).take 32 }

/-- An opcode-specific field at header byte `off`. -/
def Hdr.f (h : Hdr) (off len : Nat) : Nat := le h.op (off - 24) len

/-- The object key of a vault opcode: bytes 24–55 (R332). -/
def Hdr.key (h : Hdr) : Key := padTo 32 h.op

def Hdr.isBlock (h : Hdr) : Bool := 1 ≤ h.opcode && h.opcode ≤ 4
def Hdr.isVault (h : Hdr) : Bool := 0x40 ≤ h.opcode && h.opcode ≤ 0x48
/-- Vault writes: PUT BEGIN, PUT DATA, PUT END, SEAL, DELETE (R293 order 6, R333). -/
def Hdr.vaultWrite (h : Hdr) : Bool := [0x40, 0x41, 0x42, 0x45, 0x46].contains h.opcode

/-- R292. -/
def Hdr.known (h : Hdr) : Bool := 1 ≤ h.opcode && h.opcode ≤ 5 || h.isVault || 0x80 ≤ h.opcode && h.opcode ≤ 0x8A

/-- Flag bits that an opcode defines. -/
def Hdr.flagBits (h : Hdr) : Nat :=
  if [0x02, 0x03, 0x05, 0x40, 0x47, 0x84].contains h.opcode then 1 else 0

/-- Bytes 24–55 that an opcode defines, as (offset, length); a PayloadCRC only with its flag, an object only with its structure. -/
def Hdr.fields (h : Hdr) : List (Nat × Nat) :=
  match h.opcode with
  | 0x02 => if bit h.flags 0 then [(24, 4)] else []
  | 0x05 => [(32, 8)]
  | 0x80 => if h.f 24 1 = 2 then [(24, 1), (26, 2)] else if h.f 24 1 = 3 then [(24, 2)] else [(24, 1)]
  | 0x81 => [(24, 1), (28, 12)]
  | 0x82 => [(24, 1)]
  | 0x83 => [(24, 1), (32, 4)]
  | 0x84 => [(24, 1), (32, 4)]
  | 0x85 => [(24, 2)]
  | 0x86 => if h.f 24 1 = 0 then [(24, 2)] else [(24, 1)]
  | 0x87 => [(24, 1)]
  | 0x88 => [(24, 2), (32, 8)]
  | 0x89 => [(32, 16)]
  | 0x8A => [(24, 1)]
  | _ => if h.isVault then [(24, 32)] else []

/-- Bytes 8–15 and 16–19 are defined for block commands; for vault opcodes per R332. -/
def Hdr.lbaUsed (h : Hdr) : Bool := h.isBlock || [0x40, 0x41, 0x43, 0x45].contains h.opcode
def Hdr.countUsed (h : Hdr) : Bool := h.isBlock || [0x41, 0x42, 0x43, 0x47].contains h.opcode

/-- The volume field names a volume (R292, R293 order 3). -/
def Hdr.namesVolume (h : Hdr) : Bool :=
  h.isBlock || h.isVault || h.opcode = 0x86 || h.opcode = 0x80 && h.f 24 1 = 1 || h.opcode = 0x8A && h.f 24 1 = 1

/-- A reserved byte or flag is not zero (R293 order 2). -/
def Hdr.reservedSet (h : Hdr) : Bool :=
  h.flags / (h.flagBits + 1) ≠ 0 && h.flagBits = 0 || 1 < h.flags && h.flagBits = 1 ||
  (!h.lbaUsed && h.lba ≠ 0) || (!h.countUsed && h.blocks ≠ 0) || (!h.namesVolume && h.volume ≠ 0) ||
  (List.range 32).any (fun i => h.op.getD i 0 ≠ 0 && !h.fields.any (fun f => f.1 ≤ i + 24 && i + 24 < f.1 + f.2))

/-- A field lies outside its range (R293 order 2). -/
def outOfRange (s : State) (h : Hdr) (close : Nat) : Bool :=
  match h.opcode with
  | 0x05 => (if bit h.flags 0 then 2 ^ 27 < h.f 32 8 else close + 2 ^ 27 < h.f 32 8)
  | 0x80 =>
    let st := h.f 24 1
    3 < st || st = 2 && 2047 < h.f 26 2 || st = 3 && (layoutOf s (h.f 25 1)).isNone
  | 0x81 => h.f 28 4 = 0 || 67108864 < h.f 28 4
  | 0x84 => 1 < h.f 24 1
  | 0x85 => 1 < h.f 24 1 || 1 < h.f 25 1
  | 0x86 => 3 < h.f 24 1
  | 0x87 => 2 < h.f 24 1
  | 0x88 => !(s.ch (fun c => c.groups.any (fun g => g.group = h.f 24 1)) false) || 1 < h.f 25 1
  | 0x8A => 1 < h.f 24 1
  | 0x40 => 2 ^ 46 < h.lba
  | 0x43 => h.blocks = 0 || 67108864 < h.blocks
  | 0x45 => h.lba = 0 || 2 ^ 47 < h.lba
  | 0x47 => h.blocks = 0 || 262144 < h.blocks
  | _ => false

/-- The largest block count of a block command (R296). -/
def Hdr.maxBlocks (h : Hdr) : Nat :=
  if h.opcode = 3 then 1048576 else if h.opcode = 4 then 4294967295 else 16384

/-- D breaks the rule of R292 or of the opcode (R293 order 9, R332). -/
def Hdr.badLength (h : Hdr) : Bool :=
  match h.opcode with
  | 0x02 => h.d ≠ 4096 * h.blocks
  | 0x41 => h.d = 0 || 67108864 < h.d
  | 0x42 => h.d ≠ 0 && h.d ≠ 32
  | 0x45 => h.d ≠ 8
  | 0x84 => h.d = 0 || 67108864 < h.d || (!bit h.flags 0 && h.d % 4096 ≠ 0)
  | _ => h.d ≠ 0

/-- The checks after acceptance in order: the status and detail of the first that fails (R293). -/
def checksAfter (s : State) (h : Hdr) (close : Nat) : Option (Nat × Nat) :=
  let data := h.isBlock || h.isVault
  let v := volDef s h.volume
  let kind := (v.map (·.kind)).getD 0
  if !h.known then some (0x10, 0x06)
  else if h.reservedSet || outOfRange s h close then some (0x10, 0x03)
  else if h.namesVolume && v.isNone then some (0x10, 0x07)
  else if h.isBlock && kind = 1 || h.isVault && kind = 0 then some (0x10, 0x08)
  else if data && ((vol s h.volume).state = 4 || s.pair.role = 2 || s.pair.role = 3) then some (0x50, 0x01)
  else if ([2, 4].contains h.opcode || h.vaultWrite) && s.pair.mode = 3 then some (0x50, 0x04)
  else if (data || h.opcode = 0x86) && (vol s h.volume).state = 1 then some (0x10, 0x09)
  else if h.isBlock && (h.blocks = 0 || h.maxBlocks < h.blocks || (v.map (·.capacity)).getD 0 < h.lba + h.blocks) then some (0x10, 0x0A)
  else if h.badLength then some (0x10, 0x0B)
  else none

end Sys2Proof.Machine
end

