-- ==== Sys2Proof/Machine/Wickets.lean ====
section
/-! DEFINITION. Wickets: header writes, commits and their judgment, payload and credit, queue-reset requests (10). -/

namespace Sys2Proof.Machine

/-! ### Judgment (R263) -/

/-- Whether a group of the list is down as R128 defines it. -/
def reachesDown (s : State) (gs : List Nat) : Bool := gs.any (fun g => !spinning s g)

/-- The power groups that a WRITE, RELEASE or vault write reaches (R128, R333). -/
def headerGroups (s : State) (h : Hdr) : List Nat :=
  if h.opcode = 2 || h.opcode = 4 then rangeGroups s h.volume h.lba h.blocks
  else if h.vaultWrite then ((layoutOf s (vol s h.volume).layout).map (fun l => (l.pools.map (fun p => p.2.powerGroup)).eraseDups)).getD []
  else []

/-- The first condition of R263 that holds, as status and detail (R280); 0xFFFF names the wicket's default ring (R291). -/
def judgment (s : State) (w seq : Nat) (b : List Byte) : Option (Nat × Nat) :=
  let k := wk s w
  let h := parseHdr b
  let ring := if h.ring = 0xFFFF then s.ch (fun c => c.defaultRings.getD w 0) 0 else h.ring
  if k.state = 0 then some (0x30, if s.wickets.unitFailed then 2 else 1)
  else if k.state = 3 then some (0x31, 5)
  else if k.state = 2 then some (0x31, 4)
  else if seq ≠ (k.lastSeq + 1) % 65536 then some (0x10, 2)
  else if (crc32c (b.take 56)).toNat ≠ le b 56 4 then some (0x10, 1)
  else if 16384 ≤ le b 4 2 || 67108864 < h.d then some (0x10, 3)
  else if 64 ≤ ring || !(rg s ring).enable || (rg s ring).draining then some (0x10, 4)
  else if (findCmd s h.tag).isSome then some (0x10, 5)
  else if s.ch (·.queueLimit) 0 ≤ s.cmds.length then some (0x31, 1)
  else if holdFull s then some (0x31, 3)
  else if (h.opcode = 2 || h.opcode = 4 || h.vaultWrite) && s.ledger.refuse && reachesDown s (headerGroups s h) then some (0x31, 2)
  else if areaBytes s < usedBytes s + 64 then some (0x31, 2)
  else none

/-- The record of a command's header fields (R100). -/
def cmdRecord (s : State) (h : Hdr) (ring cseq : Nat) (pos : Pos) (kind : Nat) : Rec :=
  { seq := 0, kind, volume := h.volume, tag := h.tag, ring, pos, powerCycle := s.mgmt.powerCycles, lba := h.lba, blocks := h.blocks, opcode := h.opcode, cseq }

/-- A command is accepted: position, intent record, wicket and checks (R55, R56, R102, R293). -/
def accept (s : State) (w seq : Nat) (b : List Byte) : State :=
  let k := wk s w
  let h := parseHdr b
  let order := if k.orderClose = s.now then k.order else 0
  let pos : Pos := ⟨s.now, w, order⟩
  let ring := if h.ring = 0xFFFF then s.ch (fun c => c.defaultRings.getD w 0) 0 else h.ring
  let bad := checksAfter s h s.now
  -- a WRITE allocates the bands of its range; without room it ends with SpaceExhausted (R92)
  let alloc := if bad.isNone && h.opcode = 2 then allocRange s h.volume h.lba h.blocks else some s
  let bad := if alloc.isNone then some (0x30, 3) else bad
  let s := alloc.getD s
  -- the intent record of a RELEASE that passes its checks is the record that lands (R114)
  let span := if h.opcode = 4 && bad.isNone then some (h.lba, h.blocks) else none
  let (s, intent) := writeRec s { cmdRecord s h ring seq pos 1 with span }
  let c : Cmd := {
    hdr := h, wicket := w, cseq := seq, ring := ring, pos := pos, intent := intent
    failed := bad.isSome, status := (bad.map (·.1)).getD 0, detail := (bad.map (·.2)).getD 0
    -- a RESHAPE that is refused carries 0xFF in place of its slot (R295, R318)
    result := if h.opcode = 0x86 && bad.isSome then [0xFF] else []
    phase := if bad.isSome && h.d = 0 then .due (s.now + 1) else .started }
  -- a command that names a session keeps it open (R337)
  let named := fun (x : Session) => (h.opcode = 0x41 || h.opcode = 0x42) && x.number = h.blocks && x.vault = h.volume
  let s : State := { s with
    vaults := { s.vaults with sessions := modIf named (fun x => { x with lastUse := s.now }) s.vaults.sessions }
    cmds := s.cmds ++ [c]
    wickets := { s.wickets with peak := max s.wickets.peak (s.cmds.length + 1) } }
  let s := modWk s w (fun k => { k with tag := h.tag, declared := h.d, opcode := h.opcode, cseq := seq, taken := 0, intentWritten := true, stalled := false, arrived := [] })
  let s := setWicket s w (if h.d = 0 then 1 else 2)
  creditStep s w

/-- A commit is taken and judged: the result block changes, LAST_SEQ takes its sequence (R262–R266). -/
def judge (s : State) (w seq : Nat) (b : List Byte) : State :=
  let v := judgment s w seq b
  let order := if (wk s w).orderClose = s.now then (wk s w).order else 0
  let s := match v with
    | none => accept s w seq b
    | some (st, de) => { s with
        wickets := { s.wickets with
          rejCommand := if st = 0x31 then s.wickets.rejCommand else inc 0xFFFF s.wickets.rejCommand
          rejRefused := if st = 0x31 then inc 0xFFFF s.wickets.rejRefused else s.wickets.rejRefused }
        ledger := if st = 0x31 && de = 2 then { s.ledger with refusals := inc 0xFFFF s.ledger.refusals } else s.ledger }
  modWk s w (fun k => { k with
    lastSeq := seq, order := order + 1, orderClose := s.now
    rSeq := seq, rState := if v.isNone then 2 else 3, rStatus := (v.map (·.1)).getD 0, rDetail := (v.map (·.2)).getD 0, rTag := le b 4 2, rClose := s.now })

/-! ### Host writes to a wicket (R258, R259, R261) -/

/-- A write reaches a byte of the commit word. -/
def touchesCommit (off : Nat) (data : Lanes) : Bool :=
  (List.range 4).any (fun i => off ≤ 60 + i && (data.getD (60 + i - off) none).isSome && 60 + i < off + data.length)

/-- The commit word that a write gives, when all four of its bytes are enabled. -/
def commitWord (off : Nat) (data : Lanes) : Option Nat :=
  if off ≤ 60 then
    match data.getD (60 - off) none, data.getD (61 - off) none, data.getD (62 - off) none, data.getD (63 - off) none with
    | some a, some b, some c, some d => some (leNat [a, b, c, d])
    | _, _, _, _ => none
  else none

def stray (s : State) : State := { s with wickets := { s.wickets with stray := inc 0xFFFF s.wickets.stray } }

/-- A commit word arrives with its header snapshot: a repeat is counted, one in the quiet slice waits (R262, R263, R266). -/
def commitArrives (s : State) (w seq : Nat) : State :=
  let k := wk s w
  if k.rState ≠ 0 && seq = k.lastArrived then stray s
  else
    let snap := Memory.readN 0 k.hdr 0 60
    let s := modWk s w (fun k => { k with lastArrived := seq, rState := 1 })
    if s.quiet then modWk s w (fun k => { k with waitingCommits := k.waitingCommits ++ [(seq, snap)] })
    else judge s w seq snap

/-- The header bytes of a write are stored, and its commit word acts (R258, R261). -/
def headerPart (s : State) (w off : Nat) (data : Lanes) : State :=
  let s := modWk s w (fun k => { k with hdr := Memory.writeLanes 0 k.hdr off (data.take (64 - off)) })
  if touchesCommit off data then
    match commitWord off data with
    | some v => if v / 65536 = 0xC2A7 then commitArrives s w (v % 65536) else stray s
    | none => stray s
  else s

/-! ### Payload (R267–R271) -/

/-- The index of an aperture byte: the i in T to T + 16,383 with i mod 16,384 = o (R267); a byte written too early is taken as an earlier one (R268). -/
def apertureIndex (t o : Nat) : Nat := t + (o + 16384 - t % 16384) % 16384

/-- The bytes of an aperture write by index. -/
def apertureBytes (t : Nat) : Nat → Lanes → List (Nat × Byte)
  | _, [] => []
  | o, some b :: r => (apertureIndex t o, b) :: apertureBytes t (o + 1) r
  | o, none :: r => apertureBytes t (o + 1) r

/-- A rising run of arrived bytes put into the table: later bytes win. -/
def arrivedRunPut (t : Tbl Byte) (lo hi : Nat) (es : List (Nat × Byte)) : Tbl Byte :=
  let mid := t.filter (fun e => lo ≤ e.1 && e.1 ≤ hi)
  t.filter (fun e => e.1 < lo) ++ (if mid.isEmpty then es else es.foldl (fun t e => tset t e.1 e.2) mid) ++ t.filter (fun e => hi < e.1)

/-- Arrived bytes put into the table: their indices rise, but for one step back where the aperture wraps. -/
def arrivedPut (t : Tbl Byte) : List (Nat × Byte) → Tbl Byte
  | [] => t
  | e :: r =>
    let up := (e :: r).filter (fun x => e.1 ≤ x.1)
    let wrapped := (e :: r).filter (fun x => x.1 < e.1)
    let t := arrivedRunPut t e.1 ((up.getLast?.map (fun x => x.1)).getD e.1) up
    match wrapped with
    | [] => t
    | w :: q => arrivedRunPut t w.1 (((w :: q).getLast?.map (fun x => x.1)).getD w.1) (w :: q)

/-- Payload bytes arrive; those at or beyond D are discarded and end the command without effect (R267–R269). -/
def aperturePart (s : State) (w o : Nat) (data : Lanes) : State :=
  let k := wk s w
  if k.state = 0 then s
  else if k.state = 1 || k.declared ≤ k.taken then stray s
  else if !k.intentWritten then s
  else
    let bs := apertureBytes k.taken o data
    let excess := bs.any (fun e => k.declared ≤ e.1)
    let s := modWk s w (fun k => { k with arrived := arrivedPut k.arrived (bs.filter (fun e => e.1 < k.declared)) })
    if excess then
      modCmd { s with wickets := { s.wickets with payloadFaults := inc 0xFFFF s.wickets.payloadFaults } } k.tag (fun c =>
        if c.wicket = w && c.cseq = k.cseq then { c with excess := true } else c)
    else s

/-- A host write into wicket w at an offset of its 32 KiB (R258, R259): what falls into the header, then what falls into the aperture; the rest has
no effect. -/
def wicketWrite (s : State) (w off : Nat) (data : Lanes) : State :=
  if wicketCount s ≤ w then s
  else
    let s := if off < 64 then headerPart s w off data else s
    if 0x8000 ≤ off || off + data.length ≤ 0x4000 then s
    else aperturePart s w (off - 0x4000) ((data.take (0x8000 - off)).drop (0x4000 - off))

/-- HEADER_WRITE (R258, R261). -/
def execHeaderWrite (w off : Nat) (data : Lanes) (s : State) : Host.Outcome State Fault Refusal :=
  .next (if writesTaken s then wicketWrite s w (off % 64) data else s)

/-- COMMIT (R261–R266): a write that covers the commit word at cycle t. -/
def execCommit (t w off : Nat) (data : Lanes) (s : State) : Host.Outcome State Fault Refusal :=
  .next (if writesTaken s then wicketWrite (s.at t) w (off % 64) data else s.at t)

/-- Takes the commits of a wicket that wait, in the order of their arrival (R262, R263). -/
def takeWaiting (s : State) (w : Nat) : State :=
  let q := (wk s w).waitingCommits
  q.foldl (fun s c => judge s w c.1 c.2) (modWk s w (fun k => { k with waitingCommits := [] }))

/-- QUIET_COMMIT_TAKE (R263): at engine cycle 0 of the next close. -/
def execQuietCommitTake (w : Nat) (s : State) : Host.Outcome State Fault Refusal :=
  .next (if s.quiet then s else takeWaiting s w)

/-- APERTURE_WRITE (R267–R269). -/
def execApertureWrite (w off : Nat) (data : Lanes) (s : State) : Host.Outcome State Fault Refusal :=
  .next (if writesTaken s then wicketWrite s w (0x4000 + off % 0x4000) data else s)

/-- The bytes at the front of a rising list of (index, byte) that follow each other from an index on, at most n of them. -/
def runFrom : List (Nat × Byte) → Nat → Nat → List Byte
  | (k, v) :: r, t, n + 1 => if k = t then v :: runFrom r (t + 1) n else []
  | _, _, _ => []

/-- The run of arrived bytes from an index on, at most n of them. -/
def arrivedRun (arr : Tbl Byte) (t n : Nat) : List Byte := runFrom (arr.filter (fun e => t ≤ e.1)) t n

/-- A WRITE or a vault piece that goes on takes its payload into a data record: begun when it has none (R102, R335). -/
def ensureData (s : State) (tag : Nat) : State :=
  match findCmd s tag with
  | none => s
  | some c =>
    if c.failed || c.recSeq.isSome || (c.hdr.opcode ≠ 2 && c.hdr.opcode ≠ 0x41) then s
    else
      let body := if c.hdr.opcode = 2 then c.hdr.d else c.hdr.d + 128
      let (s, seq) := addRec s { cmdRecord s c.hdr c.ring c.cseq c.pos (if c.hdr.opcode = 2 then 2 else 6) with bodyLen := body }
      modCmd s tag (fun c => { c with recSeq := some seq })

/-- The end of a command's payload: its record becomes whole, or the command ends without effect (R269, R271, R299). -/
def payloadEnd (s : State) (tag : Nat) : State :=
  match findCmd s tag with
  | none => s
  | some c =>
    let drop := fun (s : State) => match c.recSeq with
      | some q => { s with ledger := { s.ledger with recs := s.ledger.recs.filter (fun r => r.seq ≠ q) } }
      | none => s
    if c.failed then modCmd s tag (fun c => { c with phase := .due (s.now + 1) })
    else if c.excess then finish (modCmd (drop s) tag (fun c => { c with recSeq := none, failed := true })) tag 0x20 1 []
    else if c.hdr.opcode = 2 then
      if bit c.hdr.flags 0 && (crc32c (Memory.bytes c.payload c.hdr.d)).toNat ≠ c.hdr.f 24 4 then
        finish (modCmd (drop s) tag (fun c => { c with recSeq := none, failed := true })) tag 0x20 2 []
      else match c.recSeq with
        | none => s
        | some q =>
          modCmd (recEnd (modRec s q (fun r => { r with body := c.payload })) q) tag (fun c => { c with phase := .landing, payload := [] })
    else modCmd s tag (fun c => { c with phase := .busy })

/-- Up to n contiguous payload bytes of a wicket are written into the ledger; credit returns (R44, R102, R103, R267, R271). -/
def movePayload (s : State) (w n : Nat) : State :=
  let k := wk s w
  if s.quiet || s.chip.halted || !(k.state = 2 || k.state = 3) then s
  else
    let s := ensureData s k.tag
    match findCmd s k.tag with
    | none => s
    | some c =>
      if c.wicket ≠ w || c.cseq ≠ k.cseq then s
      else
        let stored := c.recSeq.isSome
        let run := arrivedRun k.arrived k.taken (min n (k.declared - k.taken))
        let take := if stored then run.take (roomLeft s / 64 * 64) else run
        if run.isEmpty then s
        else if take.isEmpty then
          writeCredit (modWk { s with ledger := { s.ledger with full := true, stalledNow := true } } w (fun k => { k with stalled := true })) w
        else
          let t := k.taken + take.length
          let s := modCmd s k.tag (fun c => { c with taken := t, payload := if c.failed || c.excess then [] else Memory.writeN 0 c.payload k.taken take })
          let s := match c.recSeq with
            | some q => modRec { s with ledger := { s.ledger with areaWrites := s.ledger.areaWrites + ceilDiv take.length 64 } } q (fun r => { r with filled := r.filled + take.length })
            | none => s
          let s := modWk s w (fun k => { k with taken := t, stalled := false, arrived := k.arrived.filter (fun e => t ≤ e.1) })
          let s := if t = k.declared then payloadEnd (if (wk s w).state = 2 then setWicket s w 1 else s) k.tag else s
          creditStep s w

/-- PAYLOAD_LEDGER_WRITE (R267, R271, R299). -/
def execPayloadLedgerWrite (w n : Nat) (s : State) : Host.Outcome State Fault Refusal :=
  .next (movePayload s w n)

/-- LEDGER_ROOM_FREED (R103, R105): payload that waited with zero credit goes on. -/
def execLedgerRoomFreed (s : State) : Host.Outcome State Fault Refusal :=
  .next <|
    if roomLeft s = 0 then s
    else
      let waiting := (s.wickets.table.filter (fun e => e.2.stalled)).map (·.1)
      waiting.foldl (fun s w => creditStep (modWk s w (fun k => { k with stalled := false })) w)
        { s with ledger := { s.ledger with full := false } }

/-! ### Queue-reset requests (R281, R286) -/

/-- A wicket becomes Resetting, unless it is Closed (R264). -/
def requestReset (s : State) (w : Nat) : State :=
  if (wk s w).state = 0 then s else setWicket (modWk s w (fun k => { k with resetReq := true })) w 3

/-- Registers a queue-reset request for one wicket or all (R281). -/
def queueResetRequest (s : State) (w : Nat) (all : Bool) : State :=
  let n := wicketCount s
  if all then
    let s := (List.range n).foldl requestReset s
    fire { s with wickets := { s.wickets with resetPending := true, resetAll := true } } 0x1D 2 0xFFFFFFFF (natLe 4 s.cmds.length) false
  else if w < n then
    fire { requestReset s w with wickets := { (requestReset s w).wickets with resetPending := true } } 0x1D 1 w
      (natLe 4 (countIf (fun c => c.wicket = w) s.cmds)) false
  else s

/-- QUEUE_RESET_REQUEST (R281): a write of WKT_QRESET with GO. -/
def execQueueResetRequest (w : Nat) (all : Bool) (s : State) : Host.Outcome State Fault Refusal :=
  .next (if writesTaken s then
    queueResetRequest { s with wickets := { s.wickets with qWicket := w % 512, qAll := all } } w all else s)

/-- CREDIT_BASE_ENABLE (R270): ADDR is taken while ENABLE is 0; every wicket's line is written within one close. -/
def creditBaseEnable (s : State) (addr : Nat) : State :=
  if s.wickets.creditEnable then s
  else
    let s : State := { s with wickets := { s.wickets with creditEnable := true, creditAddr := addr / 64 * 64 } }
    (List.range (wicketCount s)).foldl writeCredit s

def execCreditBaseEnable (addr : Nat) (s : State) : Host.Outcome State Fault Refusal :=
  .next (if writesTaken s then creditBaseEnable s addr else s)

/-! ### What a wicket reads (R236, R258, R265) -/

/-- The result block (R265). -/
def resultBlock (k : Wicket) : List Byte :=
  padTo 64 (natLe 2 k.rSeq ++ natLe 1 k.rState ++ natLe 1 k.rStatus ++ natLe 1 k.rDetail ++ [0] ++ natLe 2 k.rTag ++ natLe 8 k.rClose)

/-- WKT_STATUS, WKT_CREDIT and WKT_CURRENT of a wicket. -/
def wicketRegs (s : State) (w : Nat) : List Byte :=
  let k := wk s w
  natLe 8 (pack [(0, 2, k.state), (8, 6, s.ch (fun c => c.defaultRings.getD w 0) 0), (16, 16, k.lastSeq), (32, 14, k.tag)]) ++
  natLe 8 (pack [(0, 32, creditLimit s w), (32, 32, k.taken)]) ++
  natLe 8 (pack [(0, 32, k.declared), (32, 8, k.opcode), (40, 16, k.cseq)])

/-- One byte of a wicket's 32 KiB as the host reads it (R258); no read has a side effect (R236). -/
def wicketByte (s : State) (w off : Nat) : Byte :=
  if wicketCount s ≤ w then 0
  else if off < 64 then Memory.read 0 (wk s w).hdr off
  else if 0x100 ≤ off && off < 0x140 then (resultBlock (wk s w)).getD (off - 0x100) 0
  else if 0x200 ≤ off && off < 0x218 then (wicketRegs s w).getD (off - 0x200) 0
  else 0

end Sys2Proof.Machine
end

