-- ==== Sys2Proof/Machine/Rings.lean ====
section
/-! DEFINITION. Return rings and the bus-master hold (09 R248–R250, 10 R272–R279). -/

namespace Sys2Proof.Machine

/-- Everything held has been issued: the credit lines are rewritten, then the messages that were kept go (R250). -/
def drainEnd' (s : State) : State :=
  if s.returns.draining && !s.returns.holding && s.returns.rings.all (fun e => e.2.queue.isEmpty) then
    let s : State := { s with returns := { s.returns with draining := false } }
    let s := (List.range (wicketCount s)).foldl writeCredit s
    s.ints.kept.foldl sendMessage { s with ints := { s.ints with kept := [] } }
  else s

/-- RING_ENTRY_WRITE (R275, R278, R241): the return sequencer writes the front entry of a ring. -/
def execRingEntryWrite (ring : Nat) (s : State) : Host.Outcome State Fault Refusal :=
  .next (drainEnd' (postRing s ring))

/-- The lowest power group that a parked command waits for (R365). -/
def parkedGroup (s : State) (c : Cmd) : Nat :=
  (minOf (c.groups.filter (fun g => !serves s g))).getD ((minOf c.groups).getD 0)

/-- PARKED_NOTICE (R365): one notice for each parked command; it is not a completion and has no order (R63). -/
def execParkedNotice (tag : Nat) (s : State) : Host.Outcome State Fault Refusal :=
  .next <|
    match cmdIn s tag (fun c => c.phase = .parked && !c.noticeSent) with
    | none => s
    | some c =>
      let e : Entry := {
        kind := 3, flags := 2 * b1 c.prior, tag := tag, wicket := c.wicket, opcode := c.hdr.opcode, cseq := c.cseq
        spec := natLe 1 (parkedGroup s c) ++ zeros 7 ++ natLe 8 c.parkedAt }
      modCmd (enqueue s c.ring e) tag (fun c => { c with noticeSent := true })

/-- IRQ_DELAY_EXPIRY (R278): an entry has not raised the bit by boundary c + IRQ_DELAY. -/
def irqDelay (s : State) (n : Nat) : State :=
  let r := rg s n
  if r.irqDelay ≠ 0 && 0 < r.unraised && r.oldest + r.irqDelay ≤ s.now then raiseRing s n else s

def execIrqDelayExpiry (ring : Nat) (s : State) : Host.Outcome State Fault Refusal :=
  .next (irqDelay s ring)

/-- A head value reaches the device: valid when a multiple of 64, below S, and in ring order from head to tail (R276). -/
def headArrives (s : State) (n v : Nat) : State :=
  let r := rg s n
  let size := 2 ^ r.sizeLog
  if v % 64 = 0 && v < size && (v + size - r.head) % size ≤ (r.tail + size - r.head) % size then
    let used := fun (p : Posted) => ((p.upTo + size - r.head) % size ≤ (v + size - r.head) % size) && p.upTo ≠ r.head
    modRg s n (fun r => { r with head := v, written := r.written.filter (fun p => !used p) })
  else modRg s n (fun r => { r with badHead := inc 0xFFFF r.badHead })

/-- RET_HEAD_WRITE (R276). -/
def execRetHeadWrite (ring value : Nat) (s : State) : Host.Outcome State Fault Refusal :=
  .next (if writesTaken s && ring < 64 then headArrives s ring value else s)

/-- Setting ENABLE (R272); without effect on a ring that is enabled or draining (R279). -/
def ringEnable (s : State) (n : Nat) : State :=
  modRg s n (fun r => if r.enable then r else
    { r with enable := true, draining := false, waiting := false, head := 0, tail := 0, phase := true, queue := [], written := [], unraised := 0 })

/-- RING_ENABLE_SET (R272). -/
def execRingEnableSet (ring : Nat) (s : State) : Host.Outcome State Fault Refusal :=
  .next (if writesTaken s && ring < 64 then ringEnable s ring else s)

/-- A command in flight names the ring, or an entry is queued, waiting or held for it (R279). -/
def ringBusy (s : State) (n : Nat) : Bool :=
  s.cmds.any (fun c => c.ring = n) || !(rg s n).queue.isEmpty || (s.returns.hold ++ s.returns.overflow).any (fun e => e.1 = n)

/-- Clearing ENABLE: at once, or draining (R279). -/
def ringDisable (s : State) (n : Nat) : State :=
  if (rg s n).enable then
    if ringBusy s n then modRg s n (fun r => { r with draining := true })
    else modRg s n (fun r => { r with enable := false, draining := false })
  else s

/-- RING_ENABLE_CLEAR (R279). -/
def execRingEnableClear (ring : Nat) (s : State) : Host.Outcome State Fault Refusal :=
  .next (if writesTaken s && ring < 64 then ringDisable s ring else s)

/-- A draining ring with no command and no entry ends draining at a boundary (R279). -/
def ringDrainEnd (s : State) (n : Nat) : State :=
  if (rg s n).draining && !ringBusy s n then modRg s n (fun r => { r with enable := false, draining := false }) else s

/-! ### The hold (R248–R250, R254) -/

/-- Postings begin to be held; entries queued and not issued join the hold in ring order (R248). -/
def holdPostings (s : State) : State :=
  if s.returns.holding then s
  else
    let due := s.returns.rings.flatMap (fun e => e.2.queue.map (fun q => (e.1, q)))
    { s with returns := { s.returns with
        holding := true
        draining := false
        hold := due.take 4096
        overflow := due.drop 4096
        rings := s.returns.rings.map (fun e => (e.1, { e.2 with queue := [], waiting := false })) } }

/-- Head-shadow fetches are lost when bus mastering goes off (R248); a courier slot is marked when its read ends (R438). -/
def dropFetches (s : State) : State :=
  { s with returns := { s.returns with rings := s.returns.rings.map (fun e => (e.1, { e.2 with fetching := false })) } }

/-- Head-shadow fetches are lost and the descriptors of outstanding courier reads are marked MasterOff (R245 step 1). -/
def dropHostReads (s : State) : State :=
  ((List.range 16).filter (fun n => (chan s n).hostRead.isSome)).foldl (fun s n => slotEnd s n (some 3)) (dropFetches s)

/-- Bus Master Enable is cleared in D0 (R248). -/
def masterClear (s : State) : State :=
  if s.cfg.busMaster then holdPostings (dropFetches { s with cfg := { s.cfg with busMaster := false } }) else s

/-- BUS_MASTER_CLEAR (R248). -/
def execBusMasterClear (s : State) : Host.Outcome State Fault Refusal :=
  .next (masterClear s)

/-- The held postings drain in the order in which they were held, then the waiting completions; credit lines and messages follow the last of them (R250). -/
def drainHold (s : State) : State :=
  let q := s.returns.hold ++ s.returns.overflow
  let s : State := { s with returns := { s.returns with holding := false, draining := true, hold := [], overflow := [] } }
  let s := q.foldl (fun s e => enqueue s e.1 e.2) s
  drainEnd' (resumeChannels s)

/-- Bus Master Enable is set (R250); in D3hot the postings stay held (R255). -/
def masterSet (s : State) : State :=
  if s.cfg.busMaster then s
  else
    let s : State := { s with cfg := { s.cfg with busMaster := true } }
    if s.cfg.powerState = 0 then drainHold s else s

/-- BUS_MASTER_SET (R250). -/
def execBusMasterSet (s : State) : Host.Outcome State Fault Refusal :=
  .next (masterSet s)

/-- HOST_READ_COMPLETION (R245, R248, R276, R438): of a ring's head shadow or of a courier channel, or its timeout. -/
def execHostReadCompletion (r : HostRead) (s : State) : Host.Outcome State Fault Refusal :=
  .next <|
    match r with
    | .shadow n v =>
      if (rg s n).fetching then
        let s := modRg s n (fun r => { r with fetching := false })
        if s.cfg.busMaster then headArrives s n (v % 2 ^ 64) else s
      else s
    | .shadowTimeout n => modRg s n (fun r => { r with fetching := false })
    | .channel n bytes =>
      match (chan s n).hostRead with
      | none => s
      | some len =>
        if mastersOff s && 12 ≤ n then slotEnd s n (some 3)
        else modChan s n (fun c => { c with hostRead := none, fetchedData := c.fetchedData ++ padTo len bytes })
    | .channelError n => if (chan s n).hostRead.isSome then slotEnd s n (some (if mastersOff s then 3 else 1)) else s
    | .channelTimeout n => if (chan s n).hostRead.isSome then slotEnd s n (some (if mastersOff s then 3 else 1)) else s

end Sys2Proof.Machine
end

