-- ==== Sys2Proof/Machine/Drives.lean ====
section
/-! DEFINITION. Members and their commands: homes of chunks (R141–R143), member states and error events (R133–R137), SAS commands (R355–R357). -/

namespace Sys2Proof.Machine

/-! ### Members -/

def modMem (s : State) (m : Nat) (f : Member → Member) : State :=
  { s with drives := { s.drives with members := tmod {} s.drives.members m f } }

/-- A member takes a state. -/
def setMem (s : State) (m st : Nat) : State :=
  modMem s m (fun x => if x.state = st then x else { x with state := st, stateClose := s.now })

def memberDef (s : State) (m : Nat) : Option MemberDef := s.ch (fun c => c.members.find? (fun d => d.member = m)) none

def groupDef (s : State) (g : Nat) : Option GroupDef := s.ch (fun c => c.groups.find? (fun d => d.group = g)) none

/-- The power group of a member. -/
def memGroup (s : State) (m : Nat) : Nat := ((memberDef s m).map (·.group)).getD 0

/-- Registry members now in force: those of the charter with the roster's substitutions (R160). -/
def registryNow (s : State) : List Nat :=
  let r := s.ch (·.registry) []
  ((List.range r.length).zip r).map (fun e => match s.degrade.roster.find? (fun x => x.1 = e.1) with
    | some x => x.2
    | none => e.2)

/-- A registry member or an alternate: it spins always (R160, R358). -/
def alwaysSpins (s : State) (m : Nat) : Bool := s.ch (fun c => c.registry.contains m || c.alternates.contains m) false

/-- A registry member's copy is gone with the drive: it was retired and no alternate replaced it; its replacement holds none before the
copy-back has ended (R160, R161). -/
def registryGone (s : State) (m : Nat) : Bool :=
  [3, 4, 6, 7].contains (mem s m).state || s.degrade.placed.any (fun e => e.2.2.1 = m)

/-- A strict majority of the registry members named in the charter (R160, R161). -/
def majority (s : State) (acks : List Nat) : Bool :=
  s.ch (·.registry.length) 0 < 2 * countIf (fun m => (registryNow s).contains m && !registryGone s m) acks.eraseDups

/-! ### Homes (R143) -/

/-- The pool update of a retirement. -/
def updateOf (s : State) (layout pool m : Nat) : Option PoolUpdate :=
  s.degrade.updates.find? (fun u => u.layout = layout && u.pool = pool && u.member = m)

/-- A retired member's chunks of a row are at their home: rebuilt, or restored by the pass (R146, R152). -/
def restored (s : State) (layout pool m row : Nat) : Bool :=
  (updateOf s layout pool m).any (fun u => u.rebuilt) ||
    s.degrade.passes.any (fun p => 1 ≤ p.state && p.state ≤ 3 && p.pausedFor < 3 && p.layout = layout && p.pool = pool && p.members.contains m && p.didRow m row)

/-- Where slot n of a member is to be found, following each pool update to its home; `any` also follows homes not yet restored. -/
def homeFrom (s : State) (l : Layout) (pool row : Nat) (any : Bool) : Nat → Nat → Nat → Option (Nat × Nat)
  | 0, _, _ => none
  | fuel + 1, m, n =>
    match updateOf s l.index pool m with
    | none => if (mem s m).state = 3 || (mem s m).state = 4 then none else some (m, n)
    | some u =>
      if !(any || restored s l.index pool m row) then none
      else match u.choice with
        | .hotSpare h => homeFrom s l pool row any fuel h n
        | .distributed rs _ base =>
          let h := max 1 rs.length
          homeFrom s l pool row any fuel (rs.getD (n % h) 0) (l.areaSlots - l.spareSlots + base + n / h)
        | .none => none

/-- The slot of a member along the chain of homes of a slot (R143, R163). -/
def slotAlong (s : State) (l : Layout) (pool goal : Nat) : Nat → Nat → Nat → Option Nat
  | 0, _, _ => none
  | fuel + 1, m, n =>
    if m = goal then some n
    else match (updateOf s l.index pool m).map PoolUpdate.choice with
      | some (.hotSpare h) => slotAlong s l pool goal fuel h n
      | some (.distributed rs _ base) => slotAlong s l pool goal fuel (rs.getD (n % max 1 rs.length) 0) (l.areaSlots - l.spareSlots + base + n / max 1 rs.length)
      | _ => none

/-- The member whose pool position holds a chunk, and the slot. -/
def seatOf (s : State) (l : Layout) (row : Nat) (ch : ChunkId) : Option (Nat × Nat × Nat) :=
  (l.place row ch).bind (fun (pn, _, slot) => (l.member row ch).map (fun (m, _) => (pn, seatMember s l.index pn m, slot)))

/-- The home of a chunk of a row: where it is read and written now; none while it is an erasure without a restored home. -/
def homeOf (s : State) (l : Layout) (row : Nat) (ch : ChunkId) : Option (Nat × Nat) :=
  (seatOf s l row ch).bind (fun (pn, m, slot) => homeFrom s l pn row false 64 m slot)

/-- The home that a restore writes. -/
def newHome (s : State) (l : Layout) (row : Nat) (ch : ChunkId) : Option (Nat × Nat) :=
  (seatOf s l row ch).bind (fun (pn, m, slot) => homeFrom s l pn row true 64 m slot)

/-- A copy-back, running or paused (R163). -/
def copying (p : Pass) : Bool := p.state = 4 || (p.state = 3 && 3 ≤ p.pausedFor)

/-- The slot of a replacement to which a copy-back brings a chunk: one that the member held at its own position, or in its spare slots (R143, R163). -/
def copySlot (s : State) (l : Layout) (row m : Nat) (ch : ChunkId) : Option (Nat × Nat) :=
  (seatOf s l row ch).bind (fun (pn, m0, slot) => (slotAlong s l pn m 64 m0 slot).map (fun n => (m, n)))

/-- The replacement that a copy-back has already reached at this row, with the chunk's slot (R163). -/
def copyHome (s : State) (l : Layout) (row : Nat) (ch : ChunkId) : Option (Nat × Nat) :=
  (l.roleOf ch).bind (fun r => (s.degrade.passes.find? (fun p => copying p && p.layout = l.index && p.pool = r.1 && row < p.cursor)).bind (fun p =>
    p.members.head?.bind (fun m => copySlot s l row m ch)))

/-- A member serves reads: Online (R133), or Replacing, of the pools whose copy-back has ended (R163). -/
def readable (s : State) (m : Nat) : Bool := (mem s m).state = 1 || (mem s m).state = 7

/-- The chunks of a row that are erasures for reads (R133, R138). -/
def erasedChunks (s : State) (l : Layout) (row : Nat) : List ChunkId :=
  l.chunks.filter (fun ch => match homeOf s l row ch with
    | some h => !readable s h.1
    | none => true)

/-- Byte address of a position of a chunk at a home. -/
def posAddr (l : Layout) (slot pos : Nat) : Nat := l.slotAddr slot + 4096 * pos

/-! ### Commands to members (R355–R357) -/

/-- A command is with its member: it waits neither for a retry nor for a place. -/
def MemberCmd.sent (k : MemberCmd) : Bool := k.retryAt.isNone && !k.queued

/-- A member has its 32 commands outstanding (R355). -/
def placesFull (s : State) (m : Nat) : Bool := decide (32 ≤ countIf (fun (k : MemberCmd) => k.member = m && k.sent) s.drives.cmds)

/-- Issues a command to a member, unless it is retired (R136), or Suspect and the command a read (R135); while the unit is fenced the command waits (R391). -/
def issue (s : State) (m : Nat) (op : MemberOp) (addr len : Nat) (data : Cells) (p : Purpose) : State :=
  let free := op = .preempt || op = .register || op = .witnessWrite
  let wait := if s.pair.fenced && !free then some s.now else none
  if (mem s m).state = 3 || (mem s m).state = 4 || op = .rd && (mem s m).state = 2 then s
  else { s with drives := { s.drives with
    cmds := s.drives.cmds ++ [⟨s.drives.nextCmd, m, op, addr, len, data, s.now, 0, p, false, false, wait, none, placesFull s m⟩]
    nextCmd := s.drives.nextCmd + 1 } }

def findMc (s : State) (id : Nat) : Option MemberCmd := s.drives.cmds.find? (fun c => c.id = id)

def modMc (s : State) (id : Nat) (f : MemberCmd → MemberCmd) : State :=
  { s with drives := { s.drives with cmds := modIf (fun c => c.id = id) f s.drives.cmds } }

/-- The oldest command that waits for a place of a member is sent when one is free (R355). -/
def sendQueued (s : State) (m : Nat) : State :=
  if placesFull s m then s
  else match s.drives.cmds.find? (fun c => c.member = m && c.queued && c.retryAt.isNone) with
    | some k => modMc s k.id (fun c => { c with queued := false, issued := s.now })
    | none => s

/-- A command is over: its place goes to the next one. -/
def dropMc (s : State) (id : Nat) : State :=
  match findMc s id with
  | none => s
  | some k => sendQueued { s with drives := { s.drives with cmds := s.drives.cmds.filter (fun c => c.id ≠ id) } } k.member

/-- A failed command is issued again, or waits for a place. -/
def reissueMc (s : State) (id : Nat) : State :=
  modMc s id (fun c => { c with issued := s.now, tries := c.tries + 1, retryAt := none, queued := c.retryAt.isSome && placesFull s c.member })

/-- Every free place of a member is taken by a command that waits for one. -/
def fillPlaces (s : State) : State :=
  let ms := ((s.drives.cmds.filter (·.queued)).map (·.member)).eraseDups
  ms.foldl (fun s m => (List.range 32).foldl (fun s _ => sendQueued s m) s) s

/-- The unit leaves its fence: the commands that waited for it go (R391, R393). -/
def unfence (s : State) : State :=
  fillPlaces { s with
    pair := { s.pair with fenced := false }
    drives := { s.drives with cmds := modIf (fun c => c.retryAt.any (· ≤ s.now)) (fun c => { c with retryAt := none, queued := true }) s.drives.cmds } }

/-- The window of R134 in milliseconds of operating time. -/
def errorWindowMs (s : State) : Nat := s.ch (·.errorHours) 24 * 3600000

/-- An unrecovered error event: counted over operating time; above the limit the member is retired at the next boundary (R134, R136). -/
def errorEvent (s : State) (m : Nat) : State :=
  modMem s m (fun x =>
    let ev := (x.events.filter (fun t => s.mgmt.opMs < t + errorWindowMs s)) ++ [s.mgmt.opMs]
    { x with events := ev, retiring := if s.ch (·.errorLimit) 8 < ev.length then some (x.retiring.getD 1) else x.retiring })

/-- A member becomes Suspect: polled every 12,500 closes (R135). -/
def makeSuspect (s : State) (m : Nat) : State :=
  if (mem s m).state = 1 then
    modMem (setMem s m 2) m (fun x => { x with suspectSince := s.now, nextPoll := s.now + 12500 })
  else s

/-- The member timeout of a member's group (R357). -/
def memberTimeout (s : State) (m : Nat) : Nat := ((groupDef s (memGroup s m)).map (·.memberTimeout)).getD 250000

/-! ### Demands of the governor (R361) -/

/-- One demand per cause: set anew, keeping the close at which it arose. -/
def setDemand (s : State) (cls : Nat) (groups : List Nat) (of : DemandOf) : State :=
  let since := ((s.gov.demands.find? (fun d => d.of = of)).map (·.since)).getD s.now
  { s with gov := { s.gov with demands := s.gov.demands.filter (fun d => d.of ≠ of) ++ [⟨cls, since, groups.mergeSort (fun a b => decide (a ≤ b)), of⟩] } }

def dropDemand (s : State) (of : DemandOf) : State :=
  { s with gov := { s.gov with demands := s.gov.demands.filter (fun d => d.of ≠ of) } }

def modGrp (s : State) (g : Nat) (f : Group → Group) : State :=
  { s with gov := { s.gov with groups := tmod {} s.gov.groups g f } }

end Sys2Proof.Machine
end

