-- ==== Sys2Proof/Machine/Works.lean ====
section
/-! DEFINITION. Stripe-row works: the five steps of a stripe-row write (R111), the choice of syndrome forms (R94, R110), holds (R203–R205), and block reads with decode (R79, R138). One member command moves one 4 KiB position (log entry 24). -/

namespace Sys2Proof.Machine

/-! ### Blocks from members (R79, R138) -/

/-- An erased chunk that only a decode with a spilled group gives (R79, R81). -/
def spillDecode (l : Layout) (erased : List ChunkId) (ch : ChunkId) : Bool :=
  erased.contains ch && match ch with
    | .d c => (l.groupOfCol c).any (spilled l erased)
    | .p j => spilled l erased j
    | .q j => spilled l erased j
    | .g _ => needsGlobal l erased

/-- The terms from which a chunk is had: itself, or survivors of its row under the pattern; none beyond tolerance. A decode with a spilled
group reads every surviving data chunk and every equation chosen, those with coefficient 0 too (R81). -/
def termsOf (l : Layout) (erased : List ChunkId) (ch : ChunkId) : Option (List (ChunkId × Nat)) :=
  (recover l erased ch).map (fun c => (c.filter (fun e => e.2 ≠ 0 || spillDecode l erased ch)).map (fun e => (e.1, e.2.toNat)))

/-- The power groups that having a chunk needs: those of its terms, and every group of the row for a decode with a spilled group (R81). -/
def readGroups (l : Layout) (erased : List ChunkId) (ch : ChunkId) : List Nat :=
  match termsOf l erased ch with
  | some t => t.map (fun e => l.powerGroup e.1) ++ (if spillDecode l erased ch then l.pools.map (·.2.powerGroup) else [])
  | none => []

/-- The erasure pattern of a position: whole chunks, chunks whose read failed there, and chunks whose repair there failed, in the order of the row's chunks (R82, R138, R140). -/
def patternAt (s : State) (l : Layout) (row pos : Nat) (bad : List ChunkId) : List ChunkId :=
  let er := erasedChunks s l row
  l.chunks.filter (fun c => er.contains c || bad.contains c || s.degrade.failedPos.contains (l.index, row, c, pos))

/-- The first close in which postings may use a row's present pattern: the one after the close in which a member of it was last lost (R83). -/
def patternFrom (s : State) (l : Layout) (row : Nat) : Nat :=
  maxOf ((l.chunks.filterMap (fun ch => (seatOf s l row ch).map (fun e => e.2.1))).filterMap (fun m =>
    if (mem s m).state = 2 || (mem s m).state = 3 then some ((mem s m).stateClose + 1) else none))

/-- The 4 KiB that gathered terms give. -/
def gather (terms : List (ChunkId × Nat)) (got : List (ChunkId × Cells)) : Cells :=
  match terms with
  | [(ch, 1)] => ((got.find? (fun e => e.1 = ch)).map (·.2)).getD []
  | _ => Memory.ofBytes (combine 4096 (terms.map (fun t => (BitVec.ofNat 16 t.2, Memory.bytes (((got.find? (fun e => e.1 = t.1)).map (·.2)).getD []) 4096))))

/-- A block to be read, under the row's pattern and the chunks whose reads failed. -/
def makeNeed (s : State) (l : Layout) (row : Nat) (ch : ChunkId) (pos idx : Nat) (bad : List ChunkId) : Option Need :=
  let er := patternAt s l row pos bad
  (termsOf l er ch).map (fun t => {
    idx, layout := l.index, row, position := pos, chunk := ch, terms := t, got := [], bad, erased := er
    fromClose := if er.contains ch then patternFrom s l row else 0 })

/-- The power groups that a need reads. -/
def Need.groups (s : State) (n : Need) : List Nat :=
  match layoutOf s n.layout with
  | some l => (n.terms.map (fun t => l.powerGroup t.1) ++ (if spillDecode l n.erased n.chunk then l.pools.map (·.2.powerGroup) else [])).eraseDups
  | none => []

/-- A read of the need is outstanding. -/
def readOut (s : State) (tag idx : Nat) (c : ChunkId) : Bool :=
  s.drives.cmds.any (fun k => k.purpose = .readBlock tag idx c && !k.late)

/-- A need has the data of a chunk. -/
def Need.has (n : Need) (c : ChunkId) : Bool := n.got.any (fun g => g.1 = c)

/-- A need is whole. -/
def Need.done (n : Need) : Bool := n.terms.all (fun t => n.has t.1)

/-- The block is read from its own chunk. -/
def Need.direct (n : Need) : Bool := n.terms = [(n.chunk, 1)]

/-- New data is being written into a row: what is decoded from it waits for its end, and reads again (R64, R205; DEDUCED, log entry 28). -/
def rowWriting (s : State) (layout row : Nat) : Bool :=
  s.works.any (fun w => w.layout = layout && w.row = row && (w.kind = .destage || w.kind = .seal) && (w.step = 4 || w.held && w.step ≠ 5))

/-! ### Decode plans (R82) -/

def findPlan (s : State) (layout : Nat) (erased : List ChunkId) : Option Plan := s.plans.cache.find? (fun p => p.layout = layout && p.erased = erased)

def modPlan (s : State) (layout : Nat) (erased : List ChunkId) (f : Plan → Plan) : State :=
  { s with plans := { s.plans with cache := modIf (fun p => p.layout = layout && p.erased = erased) f s.plans.cache } }

/-- A plan is pinned while a user's postings need it. -/
def Plan.pinned (p : Plan) : Bool := !p.users.isEmpty

/-- Stores a plan that is being built; a full cache gives up its least recently used plan that is not pinned. -/
def storePlan (s : State) (tag layout : Nat) (erased : List ChunkId) : State :=
  let p : Plan := ⟨layout, erased, false, [tag], s.plans.useCount⟩
  if s.plans.cache.length < 1024 then { s with plans := { s.plans with cache := s.plans.cache ++ [p] } }
  else match minOf ((s.plans.cache.filter (fun q => !q.pinned)).map (·.lastUse)) with
    | none => s
    | some u => { s with plans := { s.plans with
        cache := s.plans.cache.filter (fun q => q.pinned || q.lastUse ≠ u) ++ [p]
        evictions := inc 0xFFFF s.plans.evictions } }

/-- A user waits for this plan's pin. -/
def planWaits (s : State) (tag layout : Nat) (erased : List ChunkId) : Bool := s.plans.waiting.contains (tag, layout, erased)

/-- A user waits until a plan is unpinned, in the order of the requests. -/
def waitPlan (s : State) (tag layout : Nat) (erased : List ChunkId) : State :=
  if planWaits s tag layout erased then s else { s with plans := { s.plans with waiting := s.plans.waiting ++ [(tag, layout, erased)] } }

/-- A user asks for a plan: pinned when there is one, else built; with 768 plans pinned it waits in order. -/
def requestPlan (s : State) (tag layout : Nat) (erased : List ChunkId) : State :=
  let s : State := { s with plans := { s.plans with useCount := s.plans.useCount + 1 } }
  let full := 768 ≤ countIf Plan.pinned s.plans.cache
  match findPlan s layout erased with
  | some p =>
    if p.users.contains tag then s
    else if !p.pinned && full then waitPlan s tag layout erased
    else modPlan s layout erased (fun p => { p with users := p.users ++ [tag], lastUse := s.plans.useCount })
  | none =>
    if full then waitPlan s tag layout erased
    else storePlan { s with plans := { s.plans with misses := inc 0xFFFF s.plans.misses } } tag layout erased

/-- A user's plan is pinned for it and ready. -/
def planHeld (s : State) (tag layout : Nat) (erased : List ChunkId) : Bool := (findPlan s layout erased).any (fun p => p.ready && p.users.contains tag)

/-- Issues the reads of a need that are neither in nor out; a decode asks for its plan (R82, R138). -/
def issueNeed (tag : Nat) (s : State) (n : Need) : State :=
  match layoutOf s n.layout with
  | none => s
  | some l =>
    let s := if n.direct then s else requestPlan s tag n.layout n.erased
    (n.terms.filter (fun t => !n.has t.1 && !readOut s tag n.idx t.1)).foldl (fun s t => match homeOf s l n.row t.1 with
      | some (m, slot) => issue s m .rd (posAddr l slot n.position) 4096 [] (.readBlock tag n.idx t.1)
      | none => s) s

/-- A need is whole: its own chunk is in, or its survivors are, its row is not between two contents, and its plan may be used (R82, R83). -/
def needReady (s : State) (tag : Nat) (n : Need) : Bool :=
  n.done && (n.direct || (!rowWriting s n.layout n.row && decide (n.fromClose ≤ s.now) && planHeld s tag n.layout n.erased))

/-! ### Works -/

def findWork (s : State) (id : Nat) : Option Work := s.works.find? (fun w => w.id = id)

def modWork (s : State) (id : Nat) (f : Work → Work) : State := { s with works := modIf (fun w => w.id = id) f s.works }

/-- Tags above the host's name needs of works, the even ones, and of vault audits, the odd ones. -/
def workTag (id : Nat) : Nat := 16384 + 2 * id
def jobTag (id : Nat) : Nat := 16385 + 2 * id

def tagIsCmd (tag : Nat) : Bool := tag < 16384
def tagIsJob (tag : Nat) : Bool := 16384 ≤ tag && tag % 2 = 1

/-- The number of the work or the audit that a tag names. -/
def tagId (tag : Nat) : Nat := (tag - 16384) / 2

def findJob (s : State) (id : Nat) : Option VaultJob := s.vaults.jobs.find? (fun j => j.id = id)

def modJob (s : State) (id : Nat) (f : VaultJob → VaultJob) : State :=
  { s with vaults := { s.vaults with jobs := modIf (fun j => j.id = id) f s.vaults.jobs } }

/-- The volume, band and row in the band that a row of a layout belongs to. -/
def ownerOf (s : State) (layout row : Nat) : Option (VolumeDef × Band × Nat) :=
  (s.bands.find? (fun b => b.layout = layout && b.rowBase ≤ row && row < bandEnd s b)).bind (fun b =>
    (volDef s b.volume).map (fun v => (v, b, row - b.rowBase)))

/-- The logical block of a chunk position of a row (R91). -/
def rowBlock (s : State) (l : Layout) (row col pos : Nat) : Option (Nat × Nat) :=
  (ownerOf s l.index row).map (fun (v, b, rho) => (v.volume, blockOf l v ⟨b.band, rho, col, pos⟩))

/-- The region of a row: that of its lowest logical block (R115). -/
def regionOfRow (s : State) (l : Layout) (row : Nat) : Nat :=
  match (l.cols.head?).bind (fun c => rowBlock s l row c.2.2 0) with
  | some (_, b) => b / max 1 (regionBlocks s)
  | none => 0

def rowUnwritten (s : State) (layout row : Nat) : Bool := (ownerOf s layout row).any (fun e => e.2.1.unwritten.getLsbD e.2.2)

/-- The positions of a chunk. -/
def Layout.positions (l : Layout) : List Nat := List.range (l.chunk / 4096)

/-- Syndromes of a row. -/
def Layout.syndromes (l : Layout) : List ChunkId :=
  (List.range l.groups.length).flatMap (fun j => [.p j, .q j]) ++ (List.range l.globals).map (fun t => .g (t + 1))

/-! ### Planning a work (R94, R110, R125) -/

/-- The erasures at one position of a work's row. -/
def Work.erasedAt (s : State) (l : Layout) (w : Work) (pos : Nat) : List ChunkId :=
  patternAt s l w.row pos ((w.badPos.filter (fun e => e.2 = pos)).map (·.1))

def Work.isNew (w : Work) (c pos : Nat) : Bool := w.news.any (fun n => n.1 = c && n.2.1 = pos)

/-- A copied row that has its hold and no data yet: what it takes is settled then (R182). -/
def Work.unsourced (w : Work) : Bool := (match w.kind with
  | .reshape _ => true
  | _ => false) && w.news.isEmpty && w.needs.isEmpty

/-- Columns that a work changes. -/
def Work.changed (w : Work) : List Nat := (w.news.map (·.1)).eraseDups

/-- The span: the positions from the lowest to the highest that the work changes (R110). -/
def Work.span (w : Work) : List Nat :=
  let ps := (w.news.map (·.2.1)).eraseDups
  let lo := (minOf ps).getD 0
  (List.range (if ps.isEmpty then 0 else maxOf ps + 1 - lo)).map (· + lo)

/-- The form of a syndrome: Fresh or not (R110, R125). -/
def chooseFresh (s : State) (l : Layout) (w : Work) (syn : ChunkId) : Bool :=
  let cov := covers l syn
  let span := w.span
  let toRead := cov.filter (fun c => span.any (fun p => !w.isNew c p))
  let fresh := sumOf (fun c => countIf (fun p => !w.isNew c p) span) cov
  let delta := (countIf (fun c => cov.contains c) w.changed + 1) * span.length
  let own := l.writeGroups w.changed
  w.unwritten || w.replayed || (erasedChunks s l w.row).contains syn || span.any (fun p => w.badPos.contains (syn, p)) ||
    (toRead.all (fun c => own.contains (l.powerGroup (.d c))) && fresh ≤ delta)

/-- The syndromes that a work updates, with their forms. -/
def planForms (s : State) (l : Layout) (w : Work) : List (ChunkId × Bool) :=
  match w.kind with
  | .destage => (l.syndromes.filter (fun y => w.unwritten || (covers l y).any w.changed.contains)).map (fun y => (y, chooseFresh s l w y))
  | .reshape _ => (l.syndromes.filter (fun y => w.unwritten || (covers l y).any w.changed.contains)).map (fun y => (y, chooseFresh s l w y))
  | .resync => l.syndromes.map (fun y => (y, true))
  | .seal => l.syndromes.map (fun y => (y, true))
  | _ => w.forms

/-- The positions at which a work updates syndromes. -/
def Work.synPositions (l : Layout) (w : Work) : List Nat :=
  match w.kind with
  | .resync => l.positions
  | .scrub => w.positions
  | _ => if w.unwritten then l.positions else w.span

/-- The old chunk positions that the forms need: a Fresh syndrome takes the covered chunks that are not new, a Delta one the old syndrome and the old data of every changed chunk, within the span (R94, R110). -/
def formWants (l : Layout) (w : Work) (forms : List (ChunkId × Bool)) : List (ChunkId × Nat) :=
  if w.unwritten then []
  else (forms.flatMap (fun f => (w.synPositions l).flatMap (fun p =>
    if f.2 then ((covers l f.1).filter (fun c => !w.isNew c p)).map (fun c => (ChunkId.d c, p))
    else (f.1, p) :: ((w.changed.filter (covers l f.1).contains).map (fun c => (ChunkId.d c, p)))))).eraseDups

/-- Chunks that a pass brings to their homes at a row: every erased chunk of its pool that has a home (R145), or what the replacement held (R163). -/
def restoreTargets (s : State) (l : Layout) (row : Nat) (p : Pass) : List ChunkId :=
  l.chunks.filter (fun ch => (l.roleOf ch).any (fun r => r.1 = p.pool) &&
    (if copying p then p.members.any (fun m => (copySlot s l row m ch).isSome) else (homeOf s l row ch).isNone && (newHome s l row ch).isSome))

/-- What a work must have of the old row. -/
def workWants (s : State) (l : Layout) (w : Work) (forms : List (ChunkId × Bool)) : List (ChunkId × Nat) :=
  match w.kind with
  | .restore k =>
    let p := (s.degrade.passes.drop k).headD {}
    -- and the positions that failed to read are repaired (R145, R154)
    ((restoreTargets s l w.row p).flatMap (fun ch => l.positions.map (fun q => (ch, q))) ++ w.badPos).eraseDups
  | .repair => w.wants.map (fun e => (e.1, e.2.1))
  | _ => formWants l w forms

/-! ### Loss (R156) -/

/-- The blocks lost at a position: unrecovered data chunks of the row. -/
def lostCols (l : Layout) (erased : List ChunkId) : List Nat :=
  (l.cols.map (·.2.2)).filter (fun c => (termsOf l erased (.d c)).isNone)

/-- Contiguous runs of a rising list of blocks. -/
def runs : List Nat → List (Nat × Nat)
  | [] => []
  | b :: r => match runs r with
    | (c, n) :: t => if c = b + 1 then (b, n + 1) :: t else (b, 1) :: (c, n) :: t
    | [] => [(b, 1)]

/-- Loss entries held or being written. -/
def lossHeld (s : State) : Nat := s.degrade.loss.length

/-- An entry finds the loss area full: FULL is set, with its record and alert, and the volume is one of those concerned (R159). -/
def lossOverflow (s : State) (volume : Nat) : State :=
  let s := if s.degrade.lossFull then s else fire { s with degrade := { s.degrade with lossFull := true } } 0x0C 3 volume [] true
  { s with degrade := { s.degrade with lossVols := (s.degrade.lossVols ++ [volume]).eraseDups } }

/-- The loss area is full for a volume with rows in the layout: its passes and its scrub pause (R159). -/
def lossPauses (s : State) (layout : Nat) : Bool :=
  s.degrade.lossFull && s.degrade.lossVols.any (fun v => (vol s v).layout = layout || s.bands.any (fun b => b.volume = v && b.layout = layout))

/-- A find of lost blocks of one volume: contiguous blocks form one entry; those for which the loss area has no room are not recorded (R155, R156, R159). -/
def lossFind (s : State) (volume cause : Nat) (blocks : List Nat) : State × Option Nat :=
  let all := runs (blocks.mergeSort (fun a b => decide (a ≤ b)))
  let es := all.take (32768 - lossHeld s)
  let s := if es.length < all.length then lossOverflow s volume else s
  let f := s.degrade.nextFind
  let mk := fun (e : Nat × Nat) => (⟨volume, cause, e.2, e.1, s.now, s.mgmt.powerCycles, f, false, 0⟩ : LossEntry)
  match es with
  | e :: _ => (fire { s with degrade := { s.degrade with loss := s.degrade.loss ++ es.map mk, nextFind := f + 1 } } 0x0C cause volume (natLe 8 e.1 ++ natLe 4 e.2) true, some f)
  | [] => (s, none)

/-- An entry names a block. -/
def LossEntry.names (e : LossEntry) (v b : Nat) : Bool := e.volume = v && e.lba ≤ b && b < e.lba + e.blocks

/-- A block is named by a loss entry. -/
def lossAt (s : State) (v b : Nat) : Bool := s.degrade.loss.any (fun e => e.names v b)

/-- The finds of blocks whose entries are not durable yet: a reader of them waits (R156). -/
def lossPending (s : State) (v : Nat) (bs : List Nat) : List Nat :=
  ((s.degrade.loss.filter (fun e => (!e.durable || s.now ≤ e.durableAt) && bs.any (e.names v))).map (·.find)).eraseDups

/-- The blocks of a row that a position's pattern loses, with their volume. -/
def lostBlocks (s : State) (l : Layout) (row pos : Nat) (erased : List ChunkId) : List (Nat × Nat) :=
  (lostCols l erased).filterMap (fun c => rowBlock s l row c pos)

/-- A position found beyond tolerance: its blocks not yet recorded become one find; the finds that its reader waits for. -/
def positionLoss (s : State) (bs : List (Nat × Nat)) : State × List Nat :=
  match bs with
  | [] => (s, [])
  | (v, _) :: _ =>
    let fresh := (bs.map (·.2)).filter (fun b => !lossAt s v b)
    let s := if fresh.isEmpty then s else (lossFind s v 1 fresh).1
    (s, lossPending s v (bs.map (·.2)))

/-- A position beyond tolerance found by a work; what a destage or a copy writes there is not lost (R158). -/
def workLoss (s : State) (l : Layout) (w : Work) (pos : Nat) : State × List Nat :=
  let cols := (lostCols l (w.erasedAt s l pos)).filter (fun c => w.kind = .seal || !w.isNew c pos)
  positionLoss s (cols.filterMap (fun c => rowBlock s l w.row c pos))

/-! ### Steps 2 to 4 -/

/-- A member takes commands that need its platters: its group spins, or it always does (R109, R160). -/
def memberUp (s : State) (m : Nat) : Bool := alwaysSpins s m || serves s (memGroup s m)

/-- The groups of members that do not spin. -/
def downGroups (s : State) (ms : List Nat) : List Nat := ((ms.filter (fun m => !memberUp s m)).map (memGroup s)).eraseDups

/-- The class of a work's demand for windows (R361). -/
def workClass (s : State) (w : Work) : Nat :=
  match w.kind with
  | .destage => if s.ledger.window then 2 else 5
  | .restore _ => 1
  | .reshape _ => 6
  | _ => 5

/-- A work waits for windows, or goes on. -/
def withWindows (s : State) (w : Work) (groups : List Nat) (go : State → State) : State :=
  if groups.isEmpty then go (dropDemand s (.rows w.layout w.row)) else setDemand s (workClass s w) groups (.rows w.layout w.row)

/-- The member reads of step 2 that are neither in nor out are issued, once their groups spin (R109, R111). -/
def workReads (s : State) (id : Nat) : State :=
  match findWork s id with
  | none => s
  | some w =>
    match layoutOf s w.layout with
    | none => s
    | some l =>
      let out := fun (r : ChunkId × Nat) => s.drives.cmds.any (fun c => c.purpose = .workRead id r.1 r.2 && !c.late)
      let miss := (w.reads.filter (fun r => !out r)).filterMap (fun r => (homeOf s l w.row r.1).map (fun h => (r, h)))
      if !w.waitFinds.isEmpty || !w.sealWait.isEmpty then s
      else withWindows s w (downGroups s (miss.map (·.2.1))) (fun s =>
        miss.foldl (fun s e => issue s e.2.1 .rd (posAddr l e.2.2 e.1.2) 4096 [] (.workRead id e.1.1 e.1.2)) s)

/-- Plans a work at step 2 and issues its reads; blocks beyond tolerance are written to the loss ledger first, one find for each position,
and a destage waits until the position is sealed (R111, R154, R156, R157). -/
def planWork (s : State) (id : Nat) : State :=
  match findWork s id with
  | none => s
  | some w =>
    match layoutOf s w.layout with
    | none => s
    | some l =>
      -- a seal takes in every chunk of its positions that is not recovered (R157)
      let sealed := if w.kind = .seal then w.positions.flatMap (fun p => ((lostCols l (w.erasedAt s l p)).filter (fun c => !w.isNew c p)).map (fun c => (c, p, ([] : Cells)))) else []
      let w : Work := { w with news := w.news ++ sealed }
      let s := modWork s id (fun _ => w)
      let forms := planForms s l w
      let want := workWants s l w forms
      let made := want.map (fun e => (e.1, e.2, termsOf l (w.erasedAt s l e.2) e.1))
      let beyond := ((made.filter (fun e => e.2.2.isNone)).map (·.2.1) ++ sealed.map (·.2.1)).eraseDups
      let (s, found) := beyond.foldl (fun (a : State × List (Nat × List Nat)) p => let (s, f) := workLoss a.1 l w p; (s, a.2 ++ [(p, f)])) (s, [])
      let open' := found.filter (fun e => !e.2.isEmpty)
      let wants := made.filterMap (fun e => e.2.2.map (fun t => (e.1, e.2.1, t)))
      let need := (wants.flatMap (fun e => e.2.2.map (fun t => (t.1, e.2.1)))).eraseDups
      let reads := need.filter (fun r => !w.staged.any (fun g => g.1 = r.1 && g.2.1 = r.2))
      let patterns := ((wants.filter (fun e => e.2.2 ≠ [(e.1, 1)])).map (fun e => w.erasedAt s l e.2.1)).eraseDups
      let fresh := w.staged.isEmpty && !s.drives.cmds.any (fun c => match c.purpose with
        | .workRead i _ _ => i = id
        | _ => false)
      let s := modWork s id (fun w => { w with
        forms, wants, reads, patterns, step := 2
        waitFinds := (w.waitFinds ++ open'.flatMap (·.2)).eraseDups
        sealWait := if w.kind = .destage then (w.sealWait ++ open'.map (·.1)).eraseDups else w.sealWait
        erased := erasedChunks s l w.row
        fromClose := if patterns.isEmpty then w.fromClose else max w.fromClose (patternFrom s l w.row)
        -- the counter at the issue of the earliest reads still used (R205)
        genSeen := if fresh then tget 0 s.holds.gens (Config.rowHash w.layout w.row % 4096) else w.genSeen })
      workReads s id

/-- The reads of a work go out: first the blocks it takes from another layout (R182), then the old positions it needs. -/
def startReads (s : State) (id : Nat) : State :=
  match findWork s id with
  | none => s
  | some w =>
    if w.unsourced || !w.waitFinds.isEmpty then s
    else if w.needs.isEmpty then planWork s id
    else withWindows s w (((w.needs.flatMap (Need.groups s)).eraseDups).filter (fun g => !serves s g)) (fun s => w.needs.foldl (issueNeed (workTag id)) s)

/-- The number of a needed block: its column and position in the row that is written. -/
def needIdx (col pos : Nat) : Nat := col * 65536 + pos

/-- Every block from the other layout is in: it becomes new data, and the row is planned. -/
def fillNeeds (s : State) (id : Nat) : State :=
  match findWork s id with
  | none => s
  | some w =>
    if w.needs.isEmpty || !w.waitFinds.isEmpty || !w.needs.all (needReady s (workTag id)) then s
    else
      let news := w.needs.map (fun n => (n.idx / 65536, n.idx % 65536, gather n.terms n.got))
      planWork (modWork s id (fun w => { w with news := w.news ++ news, needs := [], positions := ((w.news ++ news).map (·.2.1)).eraseDups })) id

/-- The old 4 KiB of a chunk position, as its terms give it; zero in an Unwritten row (R93). -/
def Work.old (w : Work) (ch : ChunkId) (pos : Nat) : Cells :=
  if w.unwritten then []
  else match w.wants.find? (fun e => e.1 = ch && e.2.1 = pos) with
    | some e => gather e.2.2 ((w.staged.filter (fun g => g.2.1 = pos)).map (fun g => (g.1, g.2.2)))
    | none => []

/-- The content of a data chunk position after the work. -/
def Work.value (w : Work) (c pos : Nat) : Cells :=
  match w.news.find? (fun n => n.1 = c && n.2.1 = pos) with
  | some n => n.2.2
  | none => w.old (.d c) pos

/-- A syndrome's 4 KiB after the work, in its form (R75, R94). -/
def Work.syndrome (l : Layout) (w : Work) (syn : ChunkId) (fresh : Bool) (pos : Nat) : Cells :=
  let term := fun (c : Nat) (d : Cells) => (coefOf l syn c, Memory.bytes d 4096)
  if fresh then Memory.ofBytes (combine 4096 ((covers l syn).map (fun c => term c (w.value c pos))))
  else
    let ch := w.changed.filter (fun c => (covers l syn).contains c && w.isNew c pos)
    Memory.ofBytes (combine 4096 ((1, Memory.bytes (w.old syn pos) 4096) :: ch.flatMap (fun c => [term c (w.value c pos), term c (w.old (.d c) pos)])))

/-- Everything that step 4 writes: every changed data chunk and every updated syndrome, within the span (R111). -/
def workOuts (l : Layout) (w : Work) : List (ChunkId × Nat × Cells) :=
  match w.kind with
  | .restore _ => w.wants.map (fun e => (e.1, e.2.1, w.old e.1 e.2.1))
  | .repair => w.wants.map (fun e => (e.1, e.2.1, w.old e.1 e.2.1))
  | _ =>
    let data :=
      if w.unwritten then l.cols.flatMap (fun c => l.positions.map (fun p => (ChunkId.d c.2.2, p, w.value c.2.2 p)))
      else w.changed.flatMap (fun c => (w.synPositions l).map (fun p => (ChunkId.d c, p, w.value c p)))
    data ++ w.forms.flatMap (fun f => (w.synPositions l).map (fun p => (f.1, p, w.syndrome l f.1 f.2 p)))

/-- The homes that an output is written to (R140, R145, R146, R163). -/
def outHomes (s : State) (l : Layout) (w : Work) (ch : ChunkId) : List (Nat × Nat) :=
  match w.kind with
  | .restore k =>
    let p := (s.degrade.passes.drop k).headD {}
    if (restoreTargets s l w.row p).contains ch then (if copying p then p.members.filterMap (fun m => copySlot s l w.row m ch) else (newHome s l w.row ch).toList)
    else (homeOf s l w.row ch).toList
  | _ => (homeOf s l w.row ch).toList ++ (copyHome s l w.row ch).toList

/-- Issues the writes of step 4; they wait while a member they go to is not Online, or its group does not spin (R109, R135). -/
def issueWrites (s : State) (id : Nat) : State :=
  match findWork s id with
  | none => s
  | some w =>
    match layoutOf s w.layout with
    | none => s
    | some l =>
      if w.step ≠ 4 || !w.writes.isEmpty || w.outs.isEmpty then s
      else
        let ws := w.outs.flatMap (fun o => (outHomes s l w o.1).map (fun h => (h, o)))
        if ws.any (fun e => (mem s e.1.1).state ≠ 1 && (mem s e.1.1).state ≠ 7) then s
        else withWindows s w (downGroups s (ws.map (·.1.1))) (fun s =>
          let first := s.drives.nextCmd
          let s := ws.foldl (fun s e => issue s e.1.1 .wr (posAddr l e.1.2 e.2.2.1) 4096 e.2.2.2 (.workWrite id e.2.1 e.2.2.1)) s
          modWork s id (fun w => { w with outs := [], writes := (List.range (s.drives.nextCmd - first)).map (· + first) }))

/-- The postings of a work have finished: its outputs are formed and step 4 begins. -/
def toStepFour (s : State) (id : Nat) : State :=
  match (findWork s id).bind (fun w => layoutOf s w.layout) with
  | none => s
  | some l =>
    -- the reconstructions are delivered: late reads are compared with them from now on (R139)
    let s := match findWork s id with
      | some w => { s with drives := { s.drives with cmds := s.drives.cmds.map (fun k => match k.purpose with
          | .workRead i c pos => if i = id && k.late then { k with delivered := true, data := w.old c pos, row := if w.wants.any (fun e => e.1 = c && e.2.1 = pos) then some (w.layout, w.row) else none } else k
          | _ => k) } }
      | none => s
    issueWrites (modWork s id (fun w => { w with step := 4, outs := workOuts l w, writes := [] })) id

/-- The inputs of a work's postings at a position: survivors that were read, and new data. -/
def postInputs (w : Work) (p : Nat) : Nat :=
  ((w.wants.filter (fun e => e.2.1 = p)).flatMap (fun e => e.2.2.map (·.1))).eraseDups.length + countIf (fun (n : Nat × Nat × Cells) => n.2.1 = p) w.news

/-- The outputs of a work's postings at a position: decoded chunks and syndromes. -/
def postOutputs (w : Work) (p : Nat) : Nat :=
  countIf (fun (e : ChunkId × Nat × List (ChunkId × Nat)) => e.2.1 = p && e.2.2 ≠ [(e.1, 1)]) w.wants + w.forms.length

/-- Postings that a work needs: for each position, chains of postings of 8 inputs and 6 outputs at most (R198, R201; log entry 16). -/
def postCount (w : Work) : Nat :=
  sumOf (fun p => ceilDiv (postInputs w p) 8 * ceilDiv (postOutputs w p) 6) ((w.wants.map (·.2.1) ++ w.news.map (·.2.1)).eraseDups)

/-! ### Step 3 (R82, R201) -/

/-- The postings of a work leave the producer, the deques, the reissue queues and the tellers; their output is discarded. -/
def dropPostings (s : State) (id : Nat) : State :=
  let keep := fun (p : Posting) => p.work ≠ id
  { s with tellers := { s.tellers with
    producer := s.tellers.producer.filter keep
    atBoundary := s.tellers.atBoundary.filter (fun e => keep e.2)
    branches := s.tellers.branches.map (fun e => (e.1, { e.2 with reissue := e.2.reissue.filter keep }))
    slots := s.tellers.slots.map (fun e => (e.1, { e.2 with deque := e.2.deque.filter (fun d => keep d.2), running := e.2.running.filter keep })) } }

/-- The postings of a work are pushed, or there are none. -/
def pushPostings (s : State) (id : Nat) : State :=
  match findWork s id with
  | none => s
  | some w =>
    let n := postCount w
    let s := modWork s id (fun w => { w with postsLeft := n })
    if n = 0 then toStepFour s id else s

/-- The plans of a work's patterns are pinned for it and ready. -/
def plansHeld (s : State) (w : Work) : Bool := w.patterns.all (planHeld s (workTag w.id) w.layout)

/-- The postings of a work at step 3 under its hold go once its plans are ready and their patterns apply (R82, R83, R201). -/
def tryPostings (s : State) (id : Nat) : State :=
  match findWork s id with
  | none => s
  | some w => if w.step = 3 && w.held && w.postsLeft = 0 && w.fromClose ≤ s.now && plansHeld s w then pushPostings s id else s

/-- Step 3 begins under the hold: the plans are asked for, and the postings follow once they are ready. -/
def toPostings (s : State) (id : Nat) : State :=
  match findWork s id with
  | none => s
  | some w => tryPostings (w.patterns.foldl (fun s e => requestPlan s (workTag id) w.layout e) (modWork s id (fun w => { w with step := 3, postsLeft := 0 }))) id

/-! ### Holds (R203–R205) -/

def genIndex (w : Work) : Nat := Config.rowHash w.layout w.row % 4096

/-- A row is held. -/
def heldBy (s : State) (layout row : Nat) : Option Nat := (s.holds.held.find? (fun h => h.1 = layout && h.2.1 = row)).map (·.2.2)

/-- Works that take their hold before their reads (R205). -/
def holdsFirst (w : Work) : Bool :=
  match w.kind with
  | .destage => false
  | _ => true

/-- A hold is granted: reads begin, or the counter is checked and the postings follow (R205). -/
def grantHold (s : State) (id : Nat) : State :=
  match findWork s id with
  | none => s
  | some w =>
    let s : State := { s with holds := { s.holds with held := s.holds.held ++ [(w.layout, w.row, id)] } }
    let s := modWork s id (fun w => { w with held := true })
    if holdsFirst w && w.step = 2 then startReads s id
    else if w.step = 3 then
      if !w.reads.isEmpty || w.staged.isEmpty || tget 0 s.holds.gens (genIndex w) = w.genSeen then toPostings s id
      else planWork (modWork { s with holds := { s.holds with rereads := inc 0xFFFF s.holds.rereads } } id (fun w => { w with staged := [] })) id
    else s

/-- A row's hold can be taken: no work holds it, and the table has room (R203). -/
def holdFree (s : State) (layout row : Nat) : Bool := (heldBy s layout row).isNone && decide (s.holds.held.length < 4096)

/-- A request that must wait: behind the earlier ones, and of those of one cycle in the order of the work numbers (R203, R204). -/
def holdWait (s : State) (layout row id : Nat) : State :=
  let busy := (heldBy s layout row).isSome
  let e : HoldWait := ⟨layout, row, id, absCycle s, busy⟩
  let before := fun (x : HoldWait) => x.cycle < e.cycle || x.work < id
  { s with holds := { s.holds with
      waiting := s.holds.waiting.filter before ++ e :: s.holds.waiting.filter (fun x => !before x)
      waits := if busy then inc 0xFFFF s.holds.waits else s.holds.waits
      tableFull := if busy then s.holds.tableFull else inc 0xFFFF s.holds.tableFull } }

/-- A work requests its hold (R203, R204). -/
def holdRequest (s : State) (id : Nat) : State :=
  match findWork s id with
  | none => s
  | some w =>
    if w.held || !((holdsFirst w && w.step = 2) || w.step = 3) || s.holds.waiting.any (fun e => e.work = id) then s
    else if holdFree s w.layout w.row then grantHold s id else holdWait s w.layout w.row id

/-- HOLD_REQUEST (R203–R205). -/
def execHoldRequest (work : Nat) (s : State) : Host.Outcome State Fault Refusal :=
  .next (holdRequest s work)

/-- The next waiting work whose row is free is granted. -/
def grantWaiting (s : State) : State :=
  match s.holds.waiting.find? (fun e => holdFree s e.layout e.row) with
  | some e =>
    -- a release and a request of one cycle count as the release and then the request (R204)
    grantHold { s with holds := { s.holds with
      waiting := s.holds.waiting.filter (fun x => x.work ≠ e.work)
      waits := if e.counted && e.cycle = absCycle s then s.holds.waits - 1 else s.holds.waits } } e.work
  | none => s

/-- A work's hold is released: its counter advances and the waiter moves on (R204, R205). -/
def holdRelease (s : State) (id : Nat) : State :=
  match findWork s id with
  | none => s
  | some w =>
    if !w.held then s
    else
      let s := modWork s id (fun w => { w with held := false })
      grantWaiting { s with holds := { s.holds with
        held := s.holds.held.filter (fun h => h.2.2 ≠ id)
        gens := tmod 0 s.holds.gens (genIndex w) (· + 1) } }

/-- A work ends or is abandoned: hold released, waiting entries and member commands dropped. -/
def dropWork (s : State) (id : Nat) : State :=
  let s := holdRelease s id
  { s with
    works := s.works.filter (fun w => w.id ≠ id)
    holds := { s.holds with waiting := s.holds.waiting.filter (fun e => e.work ≠ id) }
    plans := { s.plans with waiting := s.plans.waiting.filter (fun e => e.1 ≠ workTag id) }
    gov := { s.gov with demands := s.gov.demands.filter (fun d => !(findWork s id).any (fun w => d.of = .rows w.layout w.row)) } }

/-- Decodes of a row that was written read their survivors again (R64, R205). -/
def rereadRow (s : State) (layout row : Nat) : State :=
  let stale := fun (n : Need) => n.layout = layout && n.row = row && !n.direct
  let tags := (s.cmds.filter (fun c => c.phase = .busy)).map (fun c => (c.hdr.tag, c.needs.filter stale)) ++
    (s.vaults.jobs.filter (·.issued)).map (fun j => (jobTag j.id, j.needs.filter stale)) ++
    (s.works.filter (fun w => w.step = 2)).map (fun w => (workTag w.id, w.needs.filter stale))
  let again := fun (n : Need) => if stale n then { n with got := [] } else n
  let s : State := { s with
    cmds := s.cmds.map (fun c => if c.phase = .busy then { c with needs := c.needs.map again } else c)
    vaults := { s.vaults with jobs := s.vaults.jobs.map (fun j => { j with needs := j.needs.map again }) }
    works := s.works.map (fun w => { w with needs := w.needs.map again })
    drives := { s.drives with cmds := s.drives.cmds.filter (fun k => match k.purpose with
      | .readBlock tag idx _ => !tags.any (fun e => e.1 = tag && e.2.any (fun n => n.idx = idx))
      | _ => true) } }
  tags.foldl (fun s e => e.2.foldl (fun s n => issueNeed e.1 s { n with got := [] }) s) s

/-- HOLD_RELEASE (R203–R205): of a work whose last SAS write has completed. -/
def execHoldRelease (work : Nat) (s : State) : Host.Outcome State Fault Refusal :=
  .next (match findWork s work with
    | some w => if w.step = 5 then dropWork s work else s
    | none => s)

/-! ### Step 1: the region's bit (R117, R118) -/

def findRegion (s : State) (v r : Nat) : Option Region := s.ledger.regions.find? (fun e => e.volume = v && e.region = r)

def modRegion (s : State) (v r : Nat) (f : Region → Region) : State :=
  { s with ledger := { s.ledger with regions := modIf (fun e => e.volume = v && e.region = r) f s.ledger.regions } }

/-- The map record of a region is still waiting for its confirmation. -/
def mapPending (s : State) (v r : Nat) : Bool :=
  s.ledger.recs.any (fun q => q.kind = 3 && q.volume = v && q.state = .complete && le (Memory.bytes q.body 8) 0 6 = r)

/-- A stripe-row write past step 1 takes its row out of the global scrub batch (R166). -/
def batchForget (s : State) (layout row : Nat) : State :=
  { s with degrade := { s.degrade with batch := s.degrade.batch.filter (fun r => !(r.layout = layout && r.row = row)) } }

/-- Step 2 has all that it must have: reads, blocks from another layout, durable loss entries and sealed positions. -/
def Work.step2Done (w : Work) : Bool := !w.unsourced && w.reads.isEmpty && w.waitFinds.isEmpty && w.sealWait.isEmpty && w.needs.isEmpty

/-- Step 1 of a work: step 2 follows once the region is covered and its bit is set; an uncovered region awaits admission (R117). -/
def stepOne (s : State) (id : Nat) : State :=
  match findWork s id with
  | none => s
  | some w =>
    if w.step ≠ 1 then s
    else match findRegion s w.volume w.region with
      | none => s
      | some r =>
        if !r.covered then modRegion s w.volume w.region (fun r => { r with awaiting := true })
        else if r.set && !mapPending s w.volume w.region then
          let s := batchForget (modRegion s w.volume w.region (fun r => { r with busy := true })) w.layout w.row
          if holdsFirst w || !w.needs.isEmpty then
            let s := modWork s id (fun w => { w with step := 2 })
            if w.held then startReads s id else s
          else
            let s := planWork s id
            modWork s id (fun w => if w.step2Done then { w with step := 3 } else w)
        else s

/-- Entries of the active region table in use. -/
def tableUsed (s : State) : Nat := countIf (fun (r : Region) => r.set) s.ledger.regions

/-- Sets the bit of a work's region through a map record, when the table has room (R118). -/
def mapBitSet (s : State) (id : Nat) : State :=
  match findWork s id with
  | none => s
  | some w =>
    match findRegion s w.volume w.region with
    | none => s
    | some r =>
      if w.step ≠ 1 || !r.covered || r.set then stepOne s id
      else if 8192 ≤ tableUsed s then { s with ledger := { s.ledger with tableWaits := inc 0xFFFF s.ledger.tableWaits } }
      else stepOne (mapRecord (modRegion s w.volume w.region (fun r => { r with set := true })) w.volume w.region true) id

/-- MAP_BIT_SET (R118). -/
def execMapBitSet (work : Nat) (s : State) : Host.Outcome State Fault Refusal :=
  .next (mapBitSet s work)

/-- Works at step 1 try again. -/
def retryStepOne (s : State) : State := (s.works.filter (fun w => w.step = 1)).foldl (fun s w => stepOne s w.id) s

/-- REGION_TABLE_FREED (R118): writes that waited for an entry go on. -/
def execRegionTableFreed (s : State) : Host.Outcome State Fault Refusal :=
  .next ((s.works.filter (fun w => w.step = 1)).foldl (fun s w => mapBitSet s w.id) s)

/-- A new stripe-row work. -/
def addWork (s : State) (kind : WorkKind) (volume : Nat) (l : Layout) (row : Nat) (news : List (Nat × Nat × Cells)) (wants : List (ChunkId × Nat × List (ChunkId × Nat)))
    (forms : List (ChunkId × Bool)) (recs : List Nat) (replayed : Bool) (needs : List Need) : State :=
  let region := regionOfRow s l row
  let w : Work := {
    id := s.nextWork, kind, volume, layout := l.index, row, step := 1, news, positions := (news.map (·.2.1)).eraseDups, forms, reads := [], staged := [],
    erased := [], postsLeft := 0, writes := [], recs, unwritten := rowUnwritten s l.index row, held := false, genSeen := 0, replayed, wants, outs := [],
    badPos := [], region, needs }
  let s := assignRegions { s with works := s.works ++ [w], nextWork := s.nextWork + 1 } volume [region]
  stepOne s w.id

/-- The hold of a work that is added with its row's hold wanted at once: taken, or waited for (R203, R204). -/
def holdAtOnce (s : State) (layout row id : Nat) : State :=
  if holdFree s layout row then { s with holds := { s.holds with held := s.holds.held ++ [(layout, row, id)] } } else holdWait s layout row id

/-- A repair found by a scrub: it keeps the row's hold from the scrub's own reads on; a second repair of the row waits for the first. -/
def scrubWork (s : State) (l : Layout) (row pos : Nat) (news : List (Nat × Nat × Cells)) (forms : List (ChunkId × Bool)) (needs : List Need) : State :=
  match ownerOf s l.index row with
  | none => s
  | some (v, _, _) =>
    let id := s.nextWork
    let region := regionOfRow s l row
    let free := holdFree s l.index row
    let w : Work := {
      id, kind := .scrub, volume := v.volume, layout := l.index, row, step := 1, news, positions := [pos], forms, reads := [], staged := [],
      erased := [], postsLeft := 0, writes := [], recs := [], unwritten := false, held := free, genSeen := 0, replayed := false, wants := [], outs := [],
      badPos := [], region, needs }
    let s := assignRegions { holdAtOnce s l.index row id with works := s.works ++ [w], nextWork := id + 1 } v.volume [region]
    stepOne s id

/-! ### Steps 2 and 4 from the drives -/

/-- STRIPE_READ_COMPLETE (R111): step 2 is whole; the postings follow under the hold. -/
def stripeReadComplete (s : State) (id : Nat) : State :=
  match findWork s id with
  | none => s
  | some w =>
    if w.step ≠ 2 || !w.step2Done then s
    else if w.held then toPostings (modWork s id (fun w => { w with step := 3 })) id
    else if holdsFirst w then s
    else modWork s id (fun w => { w with step := 3 })

def execStripeReadComplete (work : Nat) (s : State) : Host.Outcome State Fault Refusal :=
  .next (stripeReadComplete s work)

/-- Postings of a work that were issued and have not finished, or none (R83). -/
def Work.issued (w : Work) : Nat := if w.step = 3 then w.postsLeft else 0

/-- Data of a row arrives for a work, or its read failed: the position becomes an erasure and the row is planned again, its postings
under the new pattern from the next close on (R83, R111). -/
def workRead (s : State) (id : Nat) (ch : ChunkId) (pos : Nat) (data : Option Cells) : State :=
  match data with
  | some d => modWork s id (fun w => { w with reads := w.reads.filter (fun r => r ≠ (ch, pos)), staged := w.staged ++ [(ch, pos, d)] })
  | none =>
    let again := ((findWork s id).map Work.issued).getD 0
    planWork { modWork s id (fun w => { w with badPos := w.badPos ++ [(ch, pos)], fromClose := s.now + 1 }) with
      plans := { s.plans with reissues := hold 0xFFFF (s.plans.reissues + again) }
      ledger := { s.ledger with replans := inc 0xFFFF s.ledger.replans } } id

/-- A row's Unwritten bit is cleared or set through a band-change record (R93, R111, R114). -/
def setUnwritten (s : State) (layout row : Nat) (u : Bool) : State :=
  match ownerOf s layout row with
  | none => s
  | some (_, b, rho) =>
    if b.unwritten.getLsbD rho = u then s
    else
      let m : BitVec 256 := BitVec.ofNat 256 (2 ^ rho)
      let b' : Band := { b with unwritten := if u then b.unwritten ||| m else b.unwritten &&& ~~~m }
      let (s, seq) := bandRecord s b'
      { s with bands := modIf (fun x => x.volume = b.volume && x.band = b.band && x.target = b.target) (fun _ => { b' with pendingRec := some seq }) s.bands }

/-- A row of a record is on disk; with its last row the record is On disk (R101). -/
def recRowDone (s : State) (seq layout row : Nat) : State :=
  modRec s seq (fun r =>
    let rows := r.rows.filter (fun e => e ≠ (layout, row))
    { r with rows, state := if rows.isEmpty && (r.state = .destaging || r.state = .landed) then .onDisk else r.state })

end Sys2Proof.Machine
end

