-- ==== Sys2Proof/Machine/Reads.lean ====
section
/-! DEFINITION. READ and VERIFY: where each block of a range is found (R61, R62, R64, R92, R93, R125–R127, R138, R156, R185, R298, R300), parking (R365), and their ends. -/

namespace Sys2Proof.Machine

/-! ### Records of the ledger over blocks -/

/-- The blocks that a record gives: a WRITE's data, a RELEASE's zeros, a vault record's heap blocks. -/
def Rec.range (r : Rec) : Option (Nat × Nat) :=
  if r.kind = 2 then some (r.lba, r.blocks) else r.span

/-- Acceptance order over power cycles and takeovers (R33, R56, R69). -/
def recLt (a b : Rec) : Bool :=
  a.rank < b.rank || a.rank = b.rank && (a.pos.lt b.pos || a.pos = b.pos && a.seq < b.seq)

/-- A record has landed and is still held. -/
def Rec.visible (r : Rec) : Bool := r.state = .landed || r.state = .destaging || r.state = .onDisk

/-- The record gives the block: in its range, and no later record over it was released before it (R61). -/
def Rec.coversBlock (r : Rec) (v b : Nat) : Bool :=
  r.volume = v && (r.range.any (fun e => e.1 ≤ b && b < e.1 + e.2)) && !r.stale.contains b

/-- A record is released: records before it that are still held give the blocks of its range no more (R61, R112; DEDUCED, log entry 28). -/
def outlive (new : Rec) (recs : List Rec) : List Rec :=
  match new.range with
  | none => recs
  | some (lba, n) => recs.map (fun (r : Rec) =>
      if r.volume = new.volume && recLt r new && r.range.any (fun e => e.1 < lba + n && lba < e.1 + e.2) then
        { r with stale := (r.stale ++ (List.range n).map (· + lba)).eraseDups } else r)

/-- The 4 KiB that a record gives a block. -/
def Rec.block (r : Rec) (b : Nat) : Cells :=
  if r.kind = 1 then []
  else match r.range with
    | some (lo, _) =>
      -- the hash states behind a PUT DATA's piece are no part of it (R99)
      let last := if r.kind = 6 then r.bodyLen - 128 else r.bodyLen
      Memory.slice r.body (4096 * (b - lo)) (min last (4096 * (b - lo) + 4096))
    | none => []

/-- The last of a list of records in acceptance order. -/
def newest : List Rec → Option Rec
  | [] => none
  | a :: r => match newest r with
    | some b => if recLt b a then some a else some b
    | none => some a

/-- The newest landed record over a block among those that `p` admits. -/
def newestRec (s : State) (v b : Nat) (p : Rec → Bool) : Option Rec :=
  newest (s.ledger.recs.filter (fun r => r.visible && r.coversBlock v b && p r))

/-! ### A block of a volume -/

/-- Where a block comes from. -/
inductive Source where
  | zero
  | data (c : Cells) (pin : Option Nat)
  | members (n : Need)
  /-- beyond the stated tolerance: the blocks of its row position that are lost -/
  | beyond (blocks : List Nat)
  /-- a decode that must wait for a Replayed record (R125) -/
  | wait
  deriving DecidableEq, Repr

/-- A region waits for resynchronisation (R126, R127). -/
def resyncing (s : State) (v b : Nat) : Bool := s.ledger.resyncLeft.contains (v, b / max 1 (regionBlocks s))

/-- The copy of the block's region into the target layout has completed (R185). -/
def copiedSlot (s : State) (v b : Nat) : Option Reshape :=
  s.reshapes.slots.find? (fun r => 2 ≤ r.state && r.state ≤ 4 && r.volume = v && b / max 1 (regionBlocks s) < r.region)

/-- The block in the target layout of a reshape. -/
def targetPlace (s : State) (v b : Nat) (r : Reshape) : Option (Layout × Nat × Place × Band) :=
  (volDef s v).bind (fun d => (layoutOf s r.target).bind (fun l =>
    let p := locate l d b
    (findBand s v p.band true).map (fun k => (l, k.rowBase + p.rho, p, k))))

/-- A row that a Replayed record touches and that is not on disk yet (R125). -/
def replayPending (s : State) (layout row : Nat) : Bool :=
  s.ledger.recs.any (fun r => r.replayed && r.rows.contains (layout, row))

/-- The block as the target layout of a reshape has it, once its region's copy has completed (R185). -/
def targetNeed (s : State) (v b idx : Nat) : Option Need :=
  ((copiedSlot s v b).bind (targetPlace s v b)).bind (fun (tl, trow, tp, _) => makeNeed s tl trow (.d tp.col) tp.pos idx [])

/-- Every logical block of a row. -/
def rowBlocks (s : State) (l : Layout) (row : Nat) : List Nat :=
  l.cols.flatMap (fun c => l.positions.filterMap (fun p => (rowBlock s l row c.2.2 p).map (·.2)))

/-- A block on the members (R79, R92, R93, R127, R138, R185). -/
def memberSource (s : State) (v b idx : Nat) : Source :=
  match mapBlock s v b with
  | none => .zero
  | some (l, row, p, k) =>
    if k.unwritten.getLsbD p.rho && !resyncing s v b then .zero
    else match makeNeed s l row (.d p.col) p.pos idx [] with
      | some n =>
        if n.direct then .members n
        else if resyncing s v b then .beyond (rowBlocks s l row)
        else if replayPending s l.index row then .wait
        else .members n
      | none =>
        match targetNeed s v b idx with
        | some n => .members n
        | none => .beyond ((lostBlocks s l row p.pos (patternAt s l row p.pos [])).map (·.2))

/-- A block as a reader at an acceptance position finds it (R61, R62). -/
def blockSource (s : State) (v b idx : Nat) (before : Rec → Bool) : Source :=
  match newestRec s v b before with
  | some r => .data (r.block b) (some r.seq)
  | none =>
    if lossAt s v b then .beyond []
    else match s.cache.find? (fun e => e.1 = v && e.2.1 = b) with
      | some e => if Config.readCacheHolds s.now v b then .data e.2.2 none else memberSource s v b idx
      | none => memberSource s v b idx

/-! ### READ and VERIFY -/

/-- Entries of a takeover account are still to be issued (R395). -/
def accountOpen (s : State) : Bool :=
  s.pair.decision.isSome ||
  (s.returns.rings.flatMap (fun e => e.2.queue) ++ s.returns.hold.map (·.2) ++ s.returns.overflow.map (·.2)).any (fun e => e.kind = 4 && e.flags / 2 % 2 = 1)

/-- A range that a command of the takeover account names, before the account is posted in full (R71). -/
def accountHolds (s : State) (v lba n : Nat) : Bool :=
  accountOpen s && s.pair.acctRanges.any (fun e => overlap e.1 e.2.1 e.2.2 v lba n)

/-- An earlier overlapping WRITE or RELEASE has neither landed nor ended (R61). -/
def readWaits (s : State) (c : Cmd) : Bool :=
  s.cmds.any (fun e => e.hdr.tag ≠ c.hdr.tag && e.pos.lt c.pos && e.writes && e.overlaps c && !e.failed &&
    (e.phase = .started || e.phase = .busy || e.phase = .landing || e.phase = .waiting)) ||
  -- R285: a whole record of a command that a queue reset removed
  s.ledger.recs.any (fun r => (r.state = .complete || r.state = .countersigned) && r.rank = s.ledger.rank && r.pos.lt c.pos &&
    r.range.any (fun e => overlap r.volume e.1 e.2 c.hdr.volume c.hdr.lba c.hdr.blocks)) ||
  -- R71: an account of a takeover that is not posted in full
  accountHolds s c.hdr.volume c.hdr.lba c.hdr.blocks

/-- The lowest lost block of a range, and how many there are. -/
def lostIn (s : State) (v lba n : Nat) (extra : List Nat) : List Nat :=
  let es := s.degrade.loss.filter (fun e => e.volume = v && e.lba < lba + n && lba < e.lba + e.blocks)
  ((es.flatMap (fun e => (List.range e.blocks).map (· + e.lba)) ++ extra).filter (fun b => lba ≤ b && b < lba + n)).eraseDups

/-- The cause of a lost block: BeyondTolerance 1 or LedgerFault 2. -/
def lossCause (s : State) (v b : Nat) : Nat :=
  ((s.degrade.loss.find? (fun e => e.volume = v && e.lba ≤ b && b < e.lba + e.blocks)).map (·.cause)).getD 1

/-- Blocks left for a READ of a Rest part that need a window or a decode move the part to Trim (R253). -/
def needsExit (s : State) : State := if s.power.state = 2 then { s with power := { s.power with exitDue := true } } else s

/-- The positions among these that are served by decode (R138). -/
def decodedOf (needs : List Need) : Nat := countIf (fun (n : Need) => n.terms.length ≠ 1 || n.terms.any (fun t => t.2 ≠ 1)) needs

/-- What a whole need says of a chunk of its row: the block it delivers, or another chunk that its survivors give. -/
def Need.chunkOf (s : State) (n : Need) (ch : ChunkId) : Option Cells :=
  if ch = n.chunk then some (gather n.terms n.got)
  else ((layoutOf s n.layout).bind (fun l => termsOf l n.erased ch)).bind (fun t => if t.all (fun e => n.has e.1) then some (gather t n.got) else none)

/-- The reconstructions of a reader are delivered: counted (VOL_REPAIR), and what a late read will be compared with (R139). -/
def markDelivered (s : State) (tag : Nat) (needs : List Need) : State :=
  { s with degrade := { s.degrade with reconstructed := hold 0xFFFFFFFF (s.degrade.reconstructed + decodedOf needs) }, drives := { s.drives with cmds := s.drives.cmds.map (fun k => match k.purpose with
    | .readBlock t i ch => if t ≠ tag then k else match needs.find? (fun n => n.idx = i) with
      | some n => if k.late then { k with delivered := true, data := ((n.chunkOf s ch).getD []), row := if (n.chunkOf s ch).isSome then some (n.layout, n.row) else none } else k
      | none => { k with delivered := true }
    | _ => k) } }

/-- The data of writes that the read was joined by: accepted before it, and landed while it was pending (R56, R61). -/
def joined (s : State) (c : Cmd) (data : Cells) : Cells :=
  if c.pins.isEmpty then data
  else (List.range c.hdr.blocks).foldl (fun d i =>
    match newestRec s c.hdr.volume (c.hdr.lba + i) (fun r => recLt r { seq := 0, kind := 1, pos := c.pos, rank := s.ledger.rank }) with
    | some r => Memory.place 0 d (4096 * i) 4096 (r.block (c.hdr.lba + i))
    | none => d) data

/-- A record lands: pending reads of its range that were accepted after it keep it until they have taken its data (R61, R62). -/
def joinReads (s : State) (q : Nat) : State :=
  match s.ledger.recs.find? (fun r => r.seq = q) with
  | none => s
  | some r =>
    match r.range with
    | none => s
    | some e => { s with cmds := s.cmds.map (fun (c : Cmd) =>
        if (c.hdr.opcode = 1 || c.hdr.opcode = 3) && (c.phase = .busy || c.phase = .parked) && !c.pins.contains q && r.pos.lt c.pos &&
          overlap r.volume e.1 e.2 c.hdr.volume c.hdr.lba c.hdr.blocks then { c with pins := c.pins ++ [q] } else c) }

/-- A find that a command waits for is not durable since an earlier boundary (R156). -/
def findsOpen (s : State) (c : Cmd) : Bool :=
  c.finds.any (fun f => s.degrade.loss.any (fun e => e.find = f && (!e.durable || s.now ≤ e.durableAt)))

/-- A command that ends Lost with a block that no entry names is counted (R159). -/
def countUnrecorded (s : State) (v : Nat) (lost : List Nat) : State :=
  if lost.any (fun b => !lossAt s v b) then { s with degrade := { s.degrade with unrecorded := inc 0xFFFF s.degrade.unrecorded } } else s

/-- A READ or VERIFY ends once every block, every find and every check is in, and no earlier overlapping write is still to land
(R61, R156, R295, R298, R300). -/
def readDone (s : State) (tag : Nat) : State :=
  match cmdIn s tag (fun c => c.phase = .busy && (c.hdr.opcode = 1 || c.hdr.opcode = 3)) with
  | none => s
  | some c =>
    if !(c.needs.all (needReady s tag)) || !c.checks.isEmpty || readWaits s c || findsOpen s c then s
    else
      let h := c.hdr
      let got := c.needs.map (fun n => (n.idx, gather n.terms n.got))
      let data := joined s c (got.foldl (fun d e => Memory.place 0 d (4096 * e.1) 4096 e.2) c.data)
      let lost := lostIn s h.volume h.lba h.blocks (c.lost.filter (fun b => (newestRec s h.volume b (fun r => r.pos.lt c.pos)).isNone))
      let data := lost.foldl (fun d b => Memory.place 0 d (4096 * (b - h.lba)) 4096 []) data
      let low := minOf lost
      let s : State := { s with cache := s.cache ++ (got.filter (fun e => !s.cache.any (fun x => x.1 = h.volume && x.2.1 = h.lba + e.1) && (newestRec s h.volume (h.lba + e.1) (fun _ => true)).isNone)).map (fun e => (h.volume, h.lba + e.1, e.2)) }
      let s := modCmd s tag (fun c => { c with pins := [], needs := [] })
      let s := countUnrecorded (markDelivered s tag c.needs) h.volume lost
      let first := natLe 8 (low.getD (2 ^ 64 - 1)) ++ natLe 4 lost.length
      let status := if low.isSome then 0x41 else if 0 < c.unlocated then 0x40 else 0
      let detail := match low with
        | some b => lossCause s h.volume b
        | none => if 0 < c.unlocated then 1 else 0
      if h.opcode = 1 then
        finish (modCmd s tag (fun c => { c with data, dataLen := 4096 * h.blocks })) tag status detail (first ++ natLe 4 (decodedOf c.needs))
      else finish s tag status detail (first ++ natLe 4 c.mended ++ natLe 2 (hold 0xFFFF c.located) ++ natLe 2 (hold 0xFFFF c.unlocated) ++ natLe 4 c.rowsChecked)

/-! ### Objects of vaults (R330, R338, R342–R344) -/

/-- Bytes of a segment, segments of an object, and blocks T of its segment table (R330). -/
def segBytes : Nat := 67108864
def segCount (size : Nat) : Nat := ceilDiv size segBytes
def tableBlocks (size : Nat) : Nat := if segCount size ≤ 1 then 0 else ceilDiv (32 * segCount size) 4096

def findVault (s : State) (v : Nat) : Option Vault := s.vaults.vaults.find? (fun x => x.volume = v)

def modVault (s : State) (v : Nat) (f : Vault → Vault) : State :=
  { s with vaults := { s.vaults with vaults := modIf (fun x => x.volume = v) f s.vaults.vaults } }

def findObj (s : State) (v : Nat) (k : Key) : Option Object := (findVault s v).bind (fun x => x.objects.find? (fun o => o.key = k))

def modObj (s : State) (v : Nat) (k : Key) (f : Object → Object) : State :=
  modVault s v (fun x => { x with objects := modIf (fun o => o.key = k) f x.objects })

/-- The segments that a range of an object touches. -/
def touched (off len : Nat) : List Nat := (List.range (ceilDiv (off + len) segBytes - off / segBytes)).map (· + off / segBytes)

/-- Blocks of an object's run that the check of some segments reads: their data, and the segment table. -/
def checkBlocks (o : Object) (segs : List Nat) : List Nat :=
  segs.flatMap (fun k => (List.range (ceilDiv (min o.size ((k + 1) * segBytes)) 4096 - k * 16384)).map (· + k * 16384)) ++
    (List.range (tableBlocks o.size)).map (· + ceilDiv o.size 4096)

/-- Segment and table digests of what was read agree; `data` holds the run from byte 0. -/
def digestsAgree (o : Object) (segs : List Nat) (data : Cells) : Bool :=
  let table := Memory.readN 0 data (4096 * ceilDiv o.size 4096) (4096 * tableBlocks o.size)
  let want := fun k => if tableBlocks o.size = 0 then o.digest else (table.drop (32 * k)).take 32
  segs.all (fun k => sha256 (Memory.readN 0 data (k * segBytes) (min o.size ((k + 1) * segBytes) - k * segBytes)) = want k) &&
    (tableBlocks o.size = 0 || sha256 table = o.tableDigest)

/-- The whole object agrees (R342). -/
def objectAgrees (o : Object) (data : Cells) : Bool :=
  digestsAgree o (List.range (segCount o.size)) data && sha256 (Memory.bytes data o.size) = o.digest

/-- The (layout, row, group) of an object's run that hold data (R344). -/
def runRows (s : State) (v : Nat) (o : Object) : List (Nat × Nat × Nat) :=
  ((List.range o.run).filterMap (fun i => mapBlock s v (o.first + i)) |>.filter (fun m => !m.2.2.2.unwritten.getLsbD m.2.2.1.rho)).map
    (fun m => (m.1.index, m.2.1, (m.1.groupOfCol m.2.2.1.col).getD 0)) |>.eraseDups

/-- An audit or a GET found a mismatch: the rows of the run are to be scrubbed, and the object audited again (R344). -/
def vaultMismatch (s : State) (v : Nat) (o : Object) : State :=
  let s := modVault s v (fun x => { x with failed := inc 0xFFFF x.failed })
  if s.vaults.repairs.any (fun r => r.vault = v && r.key = o.key) then s
  else
    let rows := runRows s v o
    { s with
      vaults := { s.vaults with repairs := s.vaults.repairs ++ [⟨v, o.key, rows⟩] }
      drives := { s.drives with scrubFirst := s.drives.scrubFirst ++ (rows.map (fun k => (k.1, k.2.1))).eraseDups } }

/-- An audit of an object passed (R342). -/
def auditPassed (s : State) (v : Nat) (o : Object) : State :=
  let t := ((findVault s v).map (·.timeMs)).getD 0
  modObj s v o.key (fun x => if x.first = o.first && x.ingest = o.ingest then { x with lastAudit := t } else x)

/-- What a reader of a run has of it: the data taken at once and the needs that are whole, by run offset. -/
def runData (data : Cells) (needs : List Need) : Cells :=
  needs.foldl (fun d n => Memory.place 0 d (4096 * n.idx) 4096 (gather n.terms n.got)) data

/-- A GET or AUDIT OBJECT ends once every block is in (R338, R342). -/
def vaultDone (s : State) (tag : Nat) : State :=
  match cmdIn s tag (fun c => c.phase = .busy && (c.hdr.opcode = 0x43 || c.hdr.opcode = 0x48)) with
  | none => s
  | some c => match c.obj with
    | none => s
    | some o =>
      if !(c.needs.all (needReady s tag)) || findsOpen s c then s
      else
        let h := c.hdr
        let segs := if h.opcode = 0x43 then touched h.lba h.blocks else List.range (segCount o.size)
        let data := runData c.data c.needs
        let blocks := (checkBlocks o segs).map (· + o.first)
        let lost := blocks.filter (fun b => lossAt s h.volume b || c.lost.contains b)
        let hashed := sumOf (fun k => min o.size ((k + 1) * segBytes) - k * segBytes) segs
        let s := modCmd (countUnrecorded (markDelivered s tag c.needs) h.volume lost) tag (fun c => { c with pins := [], needs := [], data := [] })
        if h.opcode = 0x43 then
          let s := modCmd s tag (fun c => { c with data := Memory.slice data h.lba (h.lba + h.blocks), dataLen := h.blocks })
          let res := natLe 8 hashed ++ natLe 4 segs.length
          match minOf lost with
          | some b => finish s tag 0x41 (lossCause s h.volume b) res
          | none => if digestsAgree o segs data then finish s tag 0 0 res else finish (vaultMismatch s h.volume o) tag 0x70 6 res
        else
          let res := natLe 8 hashed ++ natLe 8 (((findVault s h.volume).map (·.timeMs)).getD 0)
          if lost.isEmpty && objectAgrees o data then finish (auditPassed s h.volume o) tag 0 0 res
          else finish (vaultMismatch s h.volume o) tag 0x70 9 res

/-- A command that reads blocks may end. -/
def blockDone (s : State) (tag : Nat) : State := vaultDone (readDone s tag) tag

/-- An audit of the device's own ends (R343, R344): after a second audit that fails, the object is Damaged. -/
def jobDone (s : State) (id : Nat) : State :=
  match findJob s id with
  | none => s
  | some j =>
    if !j.issued || !(j.needs.all (needReady s (jobTag id))) || !(lossPending s j.vault j.lost).isEmpty then s
    else
      let o := j.obj
      let lost := (checkBlocks o (List.range (segCount o.size))).map (· + o.first) |>.any (fun b => lossAt s j.vault b || j.lost.contains b)
      let good := !lost && objectAgrees o (runData j.data j.needs)
      let s := markDelivered s (jobTag id) j.needs
      let s : State := { s with vaults := { s.vaults with jobs := s.vaults.jobs.filter (fun k => k.id ≠ id) } }
      if !j.second then (if good then auditPassed s j.vault o else vaultMismatch s j.vault o)
      else
        let s : State := { s with vaults := { s.vaults with repairs := s.vaults.repairs.filter (fun r => !(r.vault = j.vault && r.key = o.key)) } }
        if good then
          modObj (modVault (auditPassed s j.vault o) j.vault (fun x => { x with repaired := inc 0xFFFF x.repaired })) j.vault o.key (fun x => { x with state := 1 })
        else
          let s := modVault s j.vault (fun x => { x with failed := inc 0xFFFF x.failed })
          fireKey (modObj s j.vault o.key (fun x => { x with state := 2 })) 0x15 1 j.vault [] o.key true

/-! ### Needs (R83, R125, R127, R138, R185) -/

/-- Changes the need of a command, or of a work whose tag lies above the host's. -/
def modNeed (s : State) (tag idx : Nat) (f : Need → Option Need) : State :=
  let g := fun (ns : List Need) => ns.filterMap (fun n => if n.idx = idx then f n else some n)
  if tagIsCmd tag then modCmd s tag (fun c => { c with needs := g c.needs })
  else if tagIsJob tag then modJob s (tagId tag) (fun j => { j with needs := g j.needs })
  else modWork s (tagId tag) (fun w => { w with needs := g w.needs })

/-- The needs of a command, an audit or a work. -/
def needsOf (s : State) (tag : Nat) : List Need :=
  if tagIsCmd tag then ((findCmd s tag).map (·.needs)).getD []
  else if tagIsJob tag then ((findJob s (tagId tag)).map (·.needs)).getD []
  else ((findWork s (tagId tag)).map (·.needs)).getD []

def needOf (s : State) (tag idx : Nat) : Option Need := (needsOf s tag).find? (fun n => n.idx = idx)

/-- A need changed: a command, an audit or a work that has every block goes on. -/
def needMoved (s : State) (tag : Nat) : State :=
  if tagIsCmd tag then blockDone s tag else if tagIsJob tag then jobDone s (tagId tag) else fillNeeds s (tagId tag)

/-- A demand of class 3 for a parked command (R361, R365). -/
def parkCmd (s : State) (tag : Nat) (groups : List Nat) : State :=
  let s := modCmd s tag (fun c => { c with phase := .parked, parkedAt := s.now, groups := groups })
  needsExit { s with gov := { s.gov with demands := s.gov.demands.filter (fun d => d.of ≠ .parked tag) ++ [⟨3, s.now, groups, .parked tag⟩] } }

/-- Whoever needs a block waits for windows of the groups that its plan reads (R138, R365). -/
def parkNeed (s : State) (tag : Nat) (groups : List Nat) : State :=
  if tagIsCmd tag then parkCmd s tag (((((findCmd s tag).map (·.groups)).getD []) ++ groups).eraseDups)
  else if tagIsJob tag then modJob s (tagId tag) (fun j => { j with issued := false, groups := (j.groups ++ groups).eraseDups })
  else match findWork s (tagId tag) with
    | some w => setDemand s (workClass s w) groups (.rows w.layout w.row)
    | none => s

/-- A source position beyond tolerance that a read served from the target is rewritten from the target, every syndrome Fresh (R185). -/
def rewriteFromTarget (s : State) (v b : Nat) : State :=
  match mapBlock s v b, copiedSlot s v b with
  | some (l, row, p, _), some r =>
    if s.works.any (fun w => w.layout = l.index && w.row = row && w.positions = [p.pos] && w.kind = .scrub) then s
    else
      let cols := lostCols l (erasedChunks s l row)
      let needs := cols.filterMap (fun c => (rowBlock s l row c p.pos).bind (fun k => (targetPlace s k.1 k.2 r).bind (fun (tl, trow, tp, _) =>
        makeNeed s tl trow (.d tp.col) tp.pos (needIdx c p.pos) [])))
      if needs.length = cols.length then scrubWork s l row p.pos [] (l.syndromes.map (fun y => (y, true))) needs else s
  | _, _ => s

/-- The volume and block of a need. -/
def Need.block (s : State) (n : Need) : Option (Nat × Nat) :=
  match n.chunk with
  | .d c => (layoutOf s n.layout).bind (fun l => rowBlock s l n.row c n.position)
  | _ => none

/-- The blocks that are lost with a need: those of its position beyond tolerance, or those of its whole row while the row's region waits for
resynchronisation (R127, R156). -/
def Need.losses (s : State) (l : Layout) (n : Need) : List (Nat × Nat) :=
  if (n.block s).any (fun b => resyncing s b.1 b.2) then ((n.block s).map (fun b => (rowBlocks s l n.row).map (fun x => (b.1, x)))).getD []
  else lostBlocks s l n.row n.position (patternAt s l n.row n.position n.bad)

/-- A need beyond tolerance: served from the target of a reshape where its region is copied (R185), else its blocks are written to the loss
ledger, and who needs it waits for the entries and counts them lost (R156). A lost block of another layout is copied as zeros (R182). -/
def needLost (s : State) (tag : Nat) (n : Need) : State :=
  match layoutOf s n.layout with
  | none => s
  | some l =>
    match if tagIsCmd tag || tagIsJob tag then (n.block s).bind (fun b => (targetNeed s b.1 b.2 n.idx).map (fun m => (b, m))) else none with
    | some (b, m) =>
      let s := rewriteFromTarget (modNeed s tag n.idx (fun _ => some { m with fromClose := max m.fromClose (s.now + 1) })) b.1 b.2
      if (Need.groups s m).all (serves s) then issueNeed tag s m else parkNeed s tag (Need.groups s m)
    | none =>
      let bs := n.losses s l
      let (s, fs) := positionLoss (modNeed s tag n.idx (fun _ => none)) bs
      if tagIsCmd tag then modCmd s tag (fun c => { c with lost := (c.lost ++ bs.map (·.2)).eraseDups, finds := (c.finds ++ fs).eraseDups })
      else if tagIsJob tag then modJob s (tagId tag) (fun j => { j with lost := (j.lost ++ bs.map (·.2)).eraseDups })
      else
        let s := modWork s (tagId tag) (fun w => { w with news := w.news ++ [(n.idx / 65536, n.idx % 65536, [])], waitFinds := (w.waitFinds ++ fs).eraseDups })
        if (findWork s (tagId tag)).any (fun w => w.needs.isEmpty) then planWork s (tagId tag) else s

/-- A need is planned again under the pattern now in force: its missing reads go out, or it waits for windows or for a Replayed record of its
row; beyond tolerance it is lost (R83, R125, R127, R138). -/
def replanNeed (s : State) (tag idx : Nat) (bad : List ChunkId) : State :=
  match needOf s tag idx with
  | none => s
  | some n =>
    let n : Need := { n with bad := (n.bad ++ bad).eraseDups }
    match (layoutOf s n.layout).bind (fun l => makeNeed s l n.row n.chunk n.position idx n.bad) with
    | none => needMoved (needLost s tag n) tag
    | some m =>
      let m : Need := { m with got := n.got, fromClose := if m.erased = n.erased then max n.fromClose m.fromClose else max m.fromClose (s.now + 1) }
      if !m.direct && (n.block s).any (fun b => resyncing s b.1 b.2) then needMoved (needLost s tag n) tag
      else if !m.direct && replayPending s n.layout n.row then modNeed s tag idx (fun _ => some n)
      else
        let s := modNeed s tag idx (fun _ => some m)
        if (Need.groups s m).all (serves s) then needMoved (issueNeed tag s m) tag else parkNeed s tag (Need.groups s m)

/-- Needs that are neither whole nor on their way are planned again. -/
def resumeNeeds (s : State) (tag : Nat) : State :=
  (needsOf s tag).foldl (fun s n =>
    if !n.direct && n.done || n.terms.all (fun t => n.has t.1 || readOut s tag n.idx t.1) then s else replanNeed s tag n.idx []) s

/-- Member reads of a command whose groups all spin are issued, under the homes and the pattern of this moment (R83, R365). -/
def readIssue (s : State) (tag : Nat) : State :=
  match findCmd s tag with
  | none => s
  | some c => blockDone (c.needs.foldl (fun s n => replanNeed s tag n.idx []) (modCmd s tag (fun c => { c with phase := .busy }))) tag

/-- The rows of a VERIFY with Check: those of the range that are on disk in full and not Unwritten. -/
def verifyChecks (s : State) (h : Hdr) : List (Nat × Nat × Nat) :=
  if h.opcode = 3 && bit h.flags 0 then
    (((List.range h.blocks).filterMap (fun i => mapBlock s h.volume (h.lba + i))).filter (fun m => !m.2.2.2.unwritten.getLsbD m.2.2.1.rho)).map
      (fun m => (m.1.index, m.2.1, (m.1.groupOfCol m.2.2.1.col).getD 0)) |>.eraseDups
  else []

/-- A read resolves its range and takes, parks or issues it (R61, R62, R156, R298). -/
def beginRead (s : State) (tag : Nat) : State :=
  match findCmd s tag with
  | none => s
  | some c =>
    let h := c.hdr
    let src := (List.range h.blocks).map (fun i => (i, blockSource s h.volume (h.lba + i) i (fun r => recLt r { seq := 0, kind := 1, pos := c.pos, rank := s.ledger.rank })))
    if src.any (fun e => e.2 = .wait) then modCmd s tag (fun c => { c with phase := .waiting })
    else
      let data := src.foldl (fun d e => match e.2 with
        | .data b _ => Memory.place 0 d (4096 * e.1) 4096 b
        | _ => d) []
      let pins := (src.filterMap (fun e => match e.2 with
        | .data _ p => p
        | _ => none)).eraseDups
      let needs := src.filterMap (fun e => match e.2 with
        | .members n => some n
        | _ => none)
      let beyond := (src.filterMap (fun e => match e.2 with
        | .beyond bs => some bs
        | _ => none)).eraseDups
      let s := beyond.foldl (fun s bs => (positionLoss s (bs.map (fun b => (h.volume, b)))).1) s
      let lost := beyond.flatten.eraseDups
      let finds := lossPending s h.volume ((List.range h.blocks).map (· + h.lba))
      let checks := verifyChecks s h
      let groups := ((needs.flatMap (Need.groups s)) ++ checks.filterMap (fun k => (layoutOf s k.1).map (fun l => l.powerGroup (.p k.2.2)))).eraseDups
      let s : State := { s with
        drives := { s.drives with scrubFirst := s.drives.scrubFirst ++ (checks.map (fun k => (k.1, k.2.1))).eraseDups } }
      let moved := src.filter (fun e => match e.2 with
        | .members n => n.layout ≠ (vol s h.volume).layout
        | _ => false)
      let s := moved.foldl (fun s e => rewriteFromTarget s h.volume (h.lba + e.1)) s
      let s := modCmd s tag (fun c => { c with data, pins, needs, lost, groups, finds, checks, phase := .busy })
      if groups.all (serves s) && !s.pair.fenced then readIssue s tag else if groups.isEmpty then readDone s tag else parkCmd s tag groups

/-- READ (R61, R62, R81, R156, R298, R365): an accepted READ that passed its checks acts. -/
def readRow (s : State) (opcode tag : Nat) : State :=
  match cmdIn s tag (fun c => c.phase = .started && c.hdr.opcode = opcode && !c.failed) with
  | none => s
  | some c => if readWaits s c then modCmd s tag (fun c => { c with phase := .waiting }) else beginRead s tag

def execRead (tag : Nat) (s : State) : Host.Outcome State Fault Refusal :=
  .next (readRow s 1 tag)

/-- VERIFY (R300). -/
def execVerify (tag : Nat) (s : State) : Host.Outcome State Fault Refusal :=
  .next (readRow s 3 tag)

/-- A waiting read resumes when nothing earlier stands in its way (R61, R125). -/
def readWaitEnd (s : State) (tag : Nat) : State :=
  match cmdIn s tag (fun c => (c.phase = .waiting || c.phase = .busy) && (c.hdr.opcode = 1 || c.hdr.opcode = 3)) with
  | none => s
  | some c => if readWaits s c then s else if c.phase = .waiting then beginRead s tag else readDone s tag

/-- READ_WAIT_END (R61). -/
def execReadWaitEnd (tag : Nat) (s : State) : Host.Outcome State Fault Refusal :=
  .next (readWaitEnd s tag)

/-- Issue of parked commands whose groups all spin (R365), at a boundary. -/
def issueParked (s : State) : State :=
  s.cmds.foldl (fun s c =>
    if c.phase = .parked && c.groups.all (serves s) && !s.pair.fenced then
      readIssue { s with gov := { s.gov with demands := s.gov.demands.filter (fun d => d.of ≠ .parked c.hdr.tag) } } c.hdr.tag
    else s) s

/-- A work's reads go out; where a chunk it was to read has become an erasure, its row is planned again (R83). -/
def resumeWork (s : State) (w : Work) : State :=
  if !w.needs.isEmpty || w.unsourced then s
  else match layoutOf s w.layout with
    | none => s
    | some l =>
      if w.reads.any (fun r => (erasedChunks s l w.row).contains r.1) then planWork (modWork s w.id (fun x => { x with fromClose := s.now + 1 })) w.id
      else workReads s w.id

/-- Busy readers, audits and works whose blocks are not on their way plan them again; what waited for a close or a plan goes on (R83, R125, R138). -/
def needsBoundary (s : State) : State :=
  let tags := (s.cmds.filter (fun c => c.phase = .busy && !c.needs.isEmpty)).map (·.hdr.tag) ++ (s.vaults.jobs.filter (fun j => j.issued && !j.needs.isEmpty)).map (fun j => jobTag j.id) ++
    (s.works.filter (fun w => w.step = 2 && w.held && !w.needs.isEmpty)).map (fun w => workTag w.id)
  let s := if s.pair.fenced then s else tags.foldl resumeNeeds s
  let s := tags.foldl needMoved s
  let s := if s.pair.fenced then s else (s.works.filter (fun w => w.step = 2 && (w.held || !holdsFirst w))).foldl resumeWork s
  (s.works.filter (fun w => w.step = 3 && w.held)).foldl (fun s w => tryPostings s w.id) s

/-! ### The other block commands -/

/-- WRITE (R102, R299): the payload goes into a write-data record; it lands and completes by R43 and R46. -/
def execWrite (tag : Nat) (s : State) : Host.Outcome State Fault Refusal :=
  .next <|
    match cmdIn s tag (fun c => c.phase = .started && c.hdr.opcode = 2 && !c.failed) with
    | none => s
    | some _ => modCmd (ensureData s tag) tag (fun c => if c.phase = .started then { c with phase := .busy } else c)

/-- RELEASE (R114, R301): its intent record is the record that lands. -/
def execRelease (tag : Nat) (s : State) : Host.Outcome State Fault Refusal :=
  .next <|
    match cmdIn s tag (fun c => c.phase = .started && c.hdr.opcode = 4 && !c.failed) with
    | none => s
    | some c =>
      let landed := (findRec s c.intent).filter Rec.visible
      modCmd s tag (fun x => { x with phase := (landed.map (fun r => Phase.landed r.landedAt)).getD .landing, recSeq := some c.intent })

/-- CLOSE-WAIT (R302): its Completion is due two boundaries after the later of the named and the acceptance close. -/
def execCloseWait (tag : Nat) (s : State) : Host.Outcome State Fault Refusal :=
  .next <|
    match cmdIn s tag (fun c => c.phase = .started && c.hdr.opcode = 5 && !c.failed) with
    | none => s
    | some c =>
      let named := if bit c.hdr.flags 0 then c.pos.close + c.hdr.f 32 8 else c.hdr.f 32 8
      modCmd s tag (fun c => { c with named := named, phase := .due (max named c.pos.close + 2) })

end Sys2Proof.Machine
end

