-- ==== Sys2Proof/Machine/Members.lean ====
section
/-! DEFINITION. Members: completions and their sense data, timeouts, the Suspect state, late reads, media repair, retries and polls (06 R133–R140, 13 R355–R359). -/

namespace Sys2Proof.Machine

/-! ### Bytes of a power group, and the share of background work (R148, R167, R186) -/

/-- The work that a member command serves. -/
def workKind (s : State) (k : MemberCmd) : Option WorkKind :=
  match k.purpose with
  | .workRead w _ _ => (findWork s w).map (·.kind)
  | .workWrite w _ _ => (findWork s w).map (·.kind)
  | _ => none

/-- Bytes move between the device and a group's members, for a kind of work. -/
def countMoved (s : State) (g : Nat) (kind : Option WorkKind) (n : Nat) : State :=
  modGrp s g (fun x =>
    let x : Group := { x with bytes := x.bytes + n }
    match kind with
    | some (.restore _) => { x with passBytes := x.passBytes + n }
    | some .scrub => { x with scrubBytes := x.scrubBytes + n }
    | some (.reshape _) => { x with copyBytes := x.copyBytes + n }
    | _ => x)

/-- A completed read or write counts for its member's group. -/
def countMember (s : State) (k : MemberCmd) : State :=
  if k.op = .rd || k.op = .wr then countMoved s (memGroup s k.member) (workKind s k) k.len else s

/-- Every period of 1,024 closes counts anew (R148). -/
def periodBoundary (s : State) : State :=
  if s.now % 1024 = 0 then
    { s with gov := { s.gov with groups := s.gov.groups.map (fun e => (e.1, { e.2 with bytes := 0, passBytes := 0, scrubBytes := 0, copyBytes := 0 })) } }
  else s

/-- Commands of a group that background work waits behind: host and vault reads, destage, media repair and, for scrub and copies, rebuild. -/
def servedFirst (s : State) (g : Nat) (rebuild : Bool) : Bool :=
  s.drives.cmds.any (fun k => memGroup s k.member = g && !k.late && k.retryAt.isNone && match k.purpose with
    | .readBlock tag _ _ => tagIsCmd tag
    | _ => match workKind s k with
      | some .destage => true
      | some .repair => true
      | some (.restore _) => rebuild
      | _ => false)

/-- Bytes below the rebuild floor's share of what the group moved in this period. -/
def belowFloor (s : State) (g moved : Nat) : Bool := decide (moved * 100 ≤ floorNow s * (grp s g).bytes)

/-- A rebuild pass runs in a group: its demand names it. -/
def passIn (s : State) (g : Nat) : Bool :=
  s.gov.demands.any (fun d => d.groups.contains g && match d.of with
    | .pass _ => true
    | _ => false)

/-- A pass may restore its row: nothing goes before it, or it has not had its share (R148). -/
def passMay (s : State) (groups : List Nat) : Bool := groups.all (fun g => !servedFirst s g false || belowFloor s g (grp s g).passBytes)

/-- A scrub may read a row: nothing goes before it, or a row is long overdue, no pass runs there and scrub has not had its share (R167). -/
def scrubMay (s : State) (g : Nat) : Bool :=
  !servedFirst s g true || (longOverdue s g && !passIn s g && belowFloor s g (grp s g).scrubBytes)

/-- A copy may take its next row: nothing goes before it, or neither pass nor scrub has the group's share and the copy has not had it (R186). -/
def copyMay (s : State) (groups : List Nat) : Bool :=
  groups.all (fun g => !servedFirst s g true || (!passIn s g && !longOverdue s g && belowFloor s g (grp s g).copyBytes))

/-! ### What a completed command was for -/

/-- The repair of a position fails: the position stays an erasure for reads (R140). -/
def positionFails (s : State) (layout row : Nat) (c : ChunkId) (pos : Nat) : State :=
  { s with degrade := { s.degrade with
    repairFailed := inc 0xFFFF s.degrade.repairFailed
    failedPos := (s.degrade.failedPos ++ [(layout, row, c, pos)]).eraseDups } }

/-- A position was written: its chunk is read there again (R140). -/
def positionGood (s : State) (layout row : Nat) (c : ChunkId) (pos : Nat) : State :=
  { s with degrade := { s.degrade with failedPos := s.degrade.failedPos.filter (· ≠ (layout, row, c, pos)) } }

/-- A repair work ends without success. -/
def repairFails (s : State) (id : Nat) : State :=
  match findWork s id with
  | none => s
  | some w => dropWork (w.badPos.foldl (fun s e => positionFails s w.layout w.row e.1 e.2) s) id

/-- The enclosures of a group. -/
def groupEnclosures (s : State) (g : Nat) : List Nat := (((s.ch (·.members) []).filter (fun m => m.group = g)).map (·.enclosure)).eraseDups

/-- The supplies of a group's enclosures are switched off once every member in them is off (R360). -/
def shelfRelease (s : State) (g : Nat) : State :=
  let es := groupEnclosures s g
  if ((groupDef s g).map (·.shelfPower)).getD false && (s.ch (·.members) []).all (fun d => !es.contains d.enclosure || (mem s d.member).slotOff) then
    { s with gov := { s.gov with shelfOn := s.gov.shelfOn.filter (fun e => !es.contains e) } }
  else s

/-- A stripe-row write of which a write failed for good is written again from step 2 (R111). -/
def rewriteWork (s : State) (id : Nat) : State :=
  planWork (modWork { s with ledger := { s.ledger with replans := inc 0xFFFF s.ledger.replans } } id
    (fun w => { w with step := 2, writes := [], outs := [], staged := [], postsLeft := 0, failedOut := false, fromClose := s.now + 1 })) id

/-- The last write of a work has ended, and one of them failed: the row is written again under the pattern that now holds. -/
def writesEnded (s : State) (id : Nat) : State :=
  match findWork s id with
  | none => s
  | some w => if w.failedOut && w.writes.isEmpty && w.outs.isEmpty then rewriteWork s id else s

/-- Data of a read arrives at its purpose. -/
def deliver (s : State) (k : MemberCmd) (data : Cells) : State :=
  match k.purpose with
  | .readBlock tag idx c => needMoved (modNeed s tag idx (fun n => some { n with got := n.got ++ [(c, data)] })) tag
  | .workRead w c pos => workRead s w c pos (some data)
  | .workWrite w c pos => match findWork s w with
    | none => s
    | some x => writesEnded (modWork (positionGood s x.layout x.row c pos) w (fun x => { x with writes := x.writes.filter (· ≠ k.id) })) w
  | .control =>
    if k.op = .testUnitReady then modMem s k.member (fun m => { m with ready := true })
    else if k.op = .stopUnit then shelfRelease (modMem s k.member (fun m => { m with ready := false, slotOff := true })) (memGroup s k.member)
    else s

/-- A command has failed for good. -/
def failed (s : State) (k : MemberCmd) : State :=
  match k.purpose with
  | .readBlock tag idx c =>
    let s := if tagIsCmd tag then modCmd s tag (fun c => { c with mended := c.mended + 1 }) else s
    replanNeed s tag idx [c]
  | .workRead w c pos => workRead s w c pos none
  | .workWrite w c pos => match findWork s w with
    | none => s
    | some x => if x.kind = .repair then repairFails s w
      -- a position that a restore repairs on the way stays an erasure (R140, R154)
      else if x.badPos.contains (c, pos) && !(x.kind = .destage) then
        writesEnded (modWork (positionFails s x.layout x.row c pos) w (fun x => { x with writes := x.writes.filter (· ≠ k.id) })) w
      else writesEnded (modWork s w (fun x => { x with writes := x.writes.filter (· ≠ k.id), badPos := (x.badPos ++ [(c, pos)]).eraseDups, failedOut := true })) w
  | .control => s

/-- A reconstruction starts in place of a read: one that is outstanding is late from now on, one that waits for its retry is not sent (R135, R138). -/
def reconstruct (s : State) (k : MemberCmd) : State :=
  let s := if !k.sent then dropMc s k.id else modMc s k.id (fun c => { c with late := true })
  match k.purpose with
  | .readBlock tag idx _ => replanNeed s tag idx []
  | .workRead w _ _ => if (findWork s w).any (fun x => x.step = 2) then planWork (modWork s w (fun x => { x with fromClose := s.now + 1 })) w else s
  | _ => s

/-! ### Completions (R356) -/

/-- What follows a completion: success, another issue at once or after 12,500 closes, or failure, counted or not. -/
inductive Handling where
  | success | retry | later | fail (counted : Bool)
  deriving DecidableEq, Repr

/-- R134, R137, R356. A write that fails the first time is issued again and not counted. -/
def handling (sense : Sense) (k : MemberCmd) : Handling :=
  match sense with
  | .good => .success
  | .recovered => .success
  | .becomingReady => if k.op = .testUnitReady then .fail false else if k.tries = 0 then .later else .fail true
  | .unitAttention => if k.tries = 0 then .retry else .fail false
  | .aborted => if k.tries < 2 then .retry else .fail true
  | .reservationConflict => .fail false
  | _ => if k.op = .wr && k.tries = 0 then .retry else .fail true

/-- Works that wait at step 4 go on. -/
def retryWrites (s : State) : State := (s.works.filter (fun w => w.step = 4)).foldl (fun s w => issueWrites s w.id) s

/-- A command of a Suspect member completes within the member timeout: the member is Online again, and writes that were aborted are
issued again (R135, R137). The answers to ABORT TASK and LOGICAL UNIT RESET are no such completion (DEDUCED, log entry 28). -/
def backOnline (s : State) (k : MemberCmd) : State :=
  if (mem s k.member).state = 2 && k.op ≠ .abortTask && k.op ≠ .unitReset && s.now < k.issued + memberTimeout s k.member then
    let s := modMem (setMem s k.member 1) k.member (fun m => { m with suspectSince := 0, retiring := if m.retiring = some 1 || m.retiring = some 4 then m.retiring else none })
    let s : State := { s with drives := { s.drives with cmds := s.drives.cmds.map (fun c =>
      if c.member = k.member && c.op = .wr && c.late then { c with late := false, issued := s.now } else c) } }
    retryWrites s
  else s

/-- A read that a reconstruction replaced arrives (R139). -/
def lateRead (s : State) (k : MemberCmd) (data : Cells) : State :=
  let s := dropMc s k.id
  let d := s.degrade
  let dropped (s : State) : State := { s with degrade := { s.degrade with dropped := inc 0xFFFF d.dropped } }
  let used (s : State) : State := { s with degrade := { s.degrade with used := inc 0xFFFF d.used } }
  let compare (s : State) (layout row : Nat) (out : Cells) : State :=
    if out = data then { s with degrade := { s.degrade with matched := inc 0xFFFF d.matched } }
    else fire { s with
      degrade := { s.degrade with mismatched := inc 0xFFFF d.mismatched }
      drives := { s.drives with scrubFirst := (layout, row) :: s.drives.scrubFirst } } 0x0A 0 k.member (natLe 8 row ++ natLe 1 layout) false
  if (mem s k.member).state = 3 || (mem s k.member).state = 4 then dropped s
  else match k.purpose with
    | .readBlock tag idx c =>
      if k.delivered then
        match k.row with
        | some (l, row) => compare s l row k.data
        | none => s
      else match needOf s tag idx with
        | none => s
        | some n =>
          match (layoutOf s n.layout).bind (fun l => termsOf l (((erasedChunks s l n.row).filter (· ≠ c)) ++ n.bad) n.chunk) with
          | none => s
          | some t =>
            let s := modNeed (used s) tag idx (fun n => some { n with terms := t, got := n.got ++ [(c, data)] })
            let miss := t.filter (fun t => t.1 ≠ c && !n.got.any (fun g => g.1 = t.1) && !readOut s tag idx t.1)
            needMoved (issueNeed tag s { n with terms := miss }) tag
    | .workRead id c pos =>
      if k.delivered then
        match k.row with
        | some (l, row) => compare s l row k.data
        | none => s
      else match findWork s id with
      | none => s
      | some w =>
        if w.step = 2 || w.step = 3 then
          -- a reconstruction on its way is abandoned: its postings' output is discarded, and the postings that are left go anew
          let s := if w.step = 3 then dropPostings s id else s
          let wants := w.wants.map (fun e => if e.1 = c && e.2.1 = pos then (c, pos, [(c, 1)]) else e)
          let keep := fun (r : ChunkId × Nat) => wants.any (fun e => e.2.1 = r.2 && e.2.2.any (fun t => t.1 = r.1))
          let s := modWork (used s) id (fun w => { w with wants, reads := w.reads.filter keep, staged := w.staged ++ [(c, pos, data)], postsLeft := 0 })
          tryPostings s id
        else s
    | _ => s

/-- A command to a member completes (R356). -/
def memberCompletion (s : State) (id : Nat) (sense : Sense) (data : List Byte) : State :=
  match findMc s id with
  | none => s
  | some k =>
    if !k.sent then s
    else
      let s := backOnline s k
      let s := if handling sense k = .success then countMember s k else s
      let bytes := Memory.ofBytes (padTo k.len data)
      if k.late && k.op = .rd then
        match handling sense k with
        | .success => lateRead s k bytes
        | .fail true => dropMc (errorEvent s k.member) id
        | _ => dropMc s id
      else match handling sense k with
        | .success => deliver (dropMc s id) k bytes
        | .retry => if s.pair.fenced then modMc s id (fun c => { c with retryAt := some s.now }) else reissueMc s id
        | .later => modMc s id (fun c => { c with retryAt := some (s.now + 12500) })
        | .fail counted => failed (dropMc (if counted then errorEvent s k.member else s) id) k

/-- MEMBER_COMMAND_COMPLETION (R134, R135, R356). -/
def execMemberCommandCompletion (cmd : Nat) (sense : Sense) (data : List Byte) (s : State) : Host.Outcome State Fault Refusal :=
  .next (memberCompletion s cmd sense data)

/-- NOT_READY_RETRY (R356): 12,500 closes after the completion. -/
def execNotReadyRetry (cmd : Nat) (s : State) : Host.Outcome State Fault Refusal :=
  .next <|
    match findMc s cmd with
    | some k =>
      if !k.retryAt.any (· ≤ s.now) || s.pair.fenced then s
      -- reads are not sent to a Suspect member (R135)
      else if k.op = .rd && (mem s k.member).state ≠ 1 && (mem s k.member).state ≠ 7 then reconstruct s k
      else reissueMc s cmd
    | none => s

/-! ### Timeouts and the Suspect state (R135) -/

/-- A member becomes Suspect, and reads outstanding on it are reconstructed. -/
def suspect (s : State) (m : Nat) : State :=
  let s := makeSuspect s m
  let rs := s.drives.cmds.filter (fun c => c.member = m && c.op = .rd && !c.late)
  let s := rs.foldl reconstruct s
  { s with drives := { s.drives with cmds := s.drives.cmds.map (fun c => if c.member = m && c.op = .wr then { c with late := true } else c) } }

/-- A command exceeds the member timeout. -/
def commandTimeout (s : State) (id : Nat) : State :=
  match findMc s id with
  | none => s
  | some k =>
    let rising := (grp s (memGroup s k.member)).state = 1
    if !k.sent || k.late || s.now < k.issued + memberTimeout s k.member || k.op = .startUnit || (k.op = .testUnitReady && rising) then s
    else if k.op = .abortTask then issue (dropMc s id) k.member .unitReset 0 0 [] .control
    else if (mem s k.member).state ≠ 1 then s
    else
      let s := modMem s k.member (fun m => { m with timeouts := inc 0xFFFF m.timeouts })
      let s := issue s k.member .abortTask 0 0 [] .control
      suspect s k.member

/-- MEMBER_TIMEOUT (R135, R355, R357). -/
def execMemberTimeout (cmd : Nat) (s : State) : Host.Outcome State Fault Refusal :=
  .next (commandTimeout s cmd)

/-- SUSPECT_POLL (R135): TEST UNIT READY every 12,500 closes. -/
def execSuspectPoll (member : Nat) (s : State) : Host.Outcome State Fault Refusal :=
  .next (if (mem s member).state = 2 && (mem s member).nextPoll ≤ s.now then
    issue (modMem s member (fun m => { m with nextPoll := s.now + 12500 })) member .testUnitReady 0 0 [] .control else s)

/-- In a pair, only the Active unit retires members (R137). -/
def retires (s : State) : Bool := s.pair.role = 0 || s.pair.role = 1

/-- SUSPECT_LIMIT_EXPIRY (R135): the retirement is decided. -/
def execSuspectLimitExpiry (member : Nat) (s : State) : Host.Outcome State Fault Refusal :=
  .next (if retires s && (mem s member).state = 2 && (mem s member).suspectSince + 2 ^ s.ch (·.suspectLog) 20 ≤ s.now then
    modMem s member (fun m => { m with retiring := some (m.retiring.getD 2) }) else s)

/-- DISCOVERY_MISSING_EXPIRY (R135). -/
def execDiscoveryMissingExpiry (member : Nat) (s : State) : Host.Outcome State Fault Refusal :=
  .next (if retires s && (mem s member).state ≤ 2 && (mem s member).missingSince.any (fun m => m + 65536 ≤ s.now) then
    modMem s member (fun m => { m with retiring := some (m.retiring.getD 3) }) else s)

/-- LATE_READ (R139). -/
def execLateRead (cmd : Nat) (data : List Byte) (s : State) : Host.Outcome State Fault Refusal :=
  .next <|
    match findMc s cmd with
    | some k => if k.late && k.op = .rd then lateRead (backOnline s k) k (Memory.ofBytes (padTo k.len data)) else s
    | none => s

/-! ### Media repair (R140) -/

/-- The reconstruction and rewriting of one position of a member that is not retired; an Unwritten row holds nothing to repair (R93). -/
def mediaRepair (s : State) (m layout row : Nat) (c : ChunkId) (pos : Nat) : State :=
  match layoutOf s layout, ownerOf s layout row with
  | some l, some (v, _, _) =>
    if (homeOf s l row c).any (fun h => h.1 = m) && (mem s m).state ≠ 3 && (mem s m).state ≠ 4 && l.positions.contains pos && !rowUnwritten s layout row then
      let id := s.nextWork
      let s := addWork s .repair v.volume l row [] [(c, pos, [])] [] [] false []
      modWork s id (fun w => { w with badPos := [(c, pos)], positions := [pos] })
    else s
  | _, _ => s

/-- MEDIA_REPAIR (R140). -/
def execMediaRepair (member layout row : Nat) (chunk : ChunkId) (position : Nat) (s : State) : Host.Outcome State Fault Refusal :=
  .next (mediaRepair s member layout row chunk position)

/-! ### Spin-up polls (R359) -/

/-- SPIN_UP_POLL (R359): TEST UNIT READY of a member of a Rising group, with its answer. -/
def execSpinUpPoll (member : Nat) (ready : Bool) (s : State) : Host.Outcome State Fault Refusal :=
  .next (if (grp s (memGroup s member)).state = 1 && !(mem s member).ready && (mem s member).nextPoll ≤ s.now then
    modMem s member (fun m => { m with ready := ready, nextPoll := s.now + 12500 }) else s)

end Sys2Proof.Machine
end

