-- ==== Sys2Proof/Machine/Degrade.lean ====
section
/-! DEFINITION. Retirement, spares, rebuild passes, replacements, the loss ledger, seals and scrub (06 R136–R168). -/

namespace Sys2Proof.Machine

/-! ### Where a retired member's chunks go (R141, R142) -/

/-- The members that sit in a pool now: those of the book with hot spares in the places they took (R151). -/
def poolSeats (s : State) (l : Layout) (pn : Nat) (p : Pool) : List Nat :=
  p.members.map (seatMember s l.index pn)

/-- Hot spares of a pool: those of the book, and replacements of members whose place a hot spare took (R163). -/
def hotSparesOf (s : State) (l : Layout) (pn : Nat) (p : Pool) : List Nat :=
  (p.hotSpares ++ (s.degrade.placed.filter (fun e => e.1 = l.index && e.2.1 = pn)).map (·.2.2.1)).filter (fun m => (mem s m).state = 5)

/-- The receivers of a member's chunks: Online or Suspect members in pool order after it (R142). -/
def receiversOf (s : State) (seats : List Nat) (y : Nat) : List Nat :=
  let i := (seats.findIdx? (· = y)).getD 0
  (seats.drop (i + 1) ++ seats.take i).filter (fun m => (mem s m).state = 1 || (mem s m).state = 2)

/-- The lowest base at which an extent is free on every receiver (R142). -/
def freeBase (s : State) (l : Layout) (rs : List Nat) (e : Nat) : Option Nat :=
  let held := s.degrade.updates.filterMap (fun u => if u.layout = l.index then
    match u.choice with
    | .distributed r n b => if r.any rs.contains then some (b, n) else none
    | _ => none
    else none)
  minOf ((0 :: held.map (fun h => h.1 + h.2)).filter (fun b => b + e ≤ l.spareSlots && !held.any (fun h => b < h.1 + h.2 && h.1 < b + e)))

/-- R141; of several hot spares the first of the layout's list (DESIGN CHOICE, log entry 37). -/
def chooseSpare (s : State) (l : Layout) (pn : Nat) (p : Pool) (y : Nat) : HomeChoice :=
  match hotSparesOf s l pn p with
  | h :: _ => .hotSpare h
  | [] =>
    let rs := receiversOf s (poolSeats s l pn p) y
    let e := ceilDiv l.areaSlots (max 1 rs.length)
    if rs.isEmpty then .none
    else match freeBase s l rs e with
      | some b => .distributed rs e b
      | none => .none

/-! ### Passes (R145–R153) -/

def pass (s : State) (k : Nat) : Pass := (s.degrade.passes.drop k).headD {}

def modPass (s : State) (k : Nat) (f : Pass → Pass) : State :=
  { s with degrade := { s.degrade with passes := modAt f k s.degrade.passes } }

/-- The pass of a pool. -/
def passOf (s : State) (layout pool : Nat) : Option Nat :=
  (List.range 16).find? (fun k => (pass s k).state ≠ 0 && (pass s k).layout = layout && (pass s k).pool = pool)

/-- A pass is running: a rebuild or a copy-back that is not held or paused. -/
def passRuns (p : Pass) : Bool := p.state = 2 || p.state = 4

/-- Every update of a pool is complete. -/
def updatesComplete (s : State) (layout pool : Nat) : Bool :=
  s.degrade.updates.all (fun u => u.complete || u.layout ≠ layout || u.pool ≠ pool)

/-- The power groups that the plans of a row's restore read: those of the whole row's pattern, and of positions whose repair failed (R149, R154). -/
def rowGroups (s : State) (l : Layout) (row : Nat) (p : Pass) : List Nat :=
  let patterns := (erasedChunks s l row :: (s.degrade.failedPos.filter (fun e => e.1 = l.index && e.2.1 = row)).map (fun e => patternAt s l row e.2.2.2 [])).eraseDups
  (patterns.flatMap (fun er => (restoreTargets s l row p).flatMap (readGroups l er))).eraseDups

/-- The groups that the cursor row of a pass reaches: its pool's, and those of its plans (R149). -/
def passGroups (s : State) (k : Nat) : List Nat :=
  let p := pass s k
  match layoutOf s p.layout with
  | none => []
  | some l => (((l.pool p.pool).map (·.powerGroup)).toList ++ rowGroups s l p.cursor p).eraseDups

/-- The keystone groups that a pass's plans have needed so far: their windows are held until the pass ends (R149). -/
def passKeeps (s : State) (k : Nat) : List Nat :=
  match layoutOf s (pass s k).layout with
  | none => []
  | some l => (((s.gov.demands.find? (fun d => d.of = .pass k)).map (·.groups)).getD []).filter (fun g => l.keystones.any (fun p => p.powerGroup = g))

/-- The demand of a running pass follows its cursor; a pass that holds or pauses has none. -/
def passDemand (s : State) (k : Nat) : State :=
  if passRuns (pass s k) then setDemand s 1 ((passGroups s k ++ passKeeps s k).eraseDups) (.pass k) else dropDemand s (.pass k)

/-- A pool waits for a pass (R147). -/
def waitForPass (s : State) (layout pool : Nat) : State :=
  { s with degrade := { s.degrade with waitingPools := (s.degrade.waitingPools ++ [(layout, pool)]).eraseDups } }

/-- A retirement adds a member to its pool's pass, which holds its cursor while the update is written, or the pool waits for a pass (R144, R147, R152). -/
def passFor (s : State) (l : Layout) (pn m : Nat) (u : HomeChoice) : State :=
  let moves := u ≠ .none
  match passOf s l.index pn with
  | some k =>
    if copying (pass s k) then (if moves then waitForPass s l.index pn else s)
    else modPass s k (fun p =>
      let late := p.late.filter (fun e => e.1 ≠ m)
      Pass.wrap { p with
        state := if p.state = 3 then 3 else 1
        members := if moves then (p.members ++ [m]).eraseDups else p.members.filter (· ≠ m)
        late := if moves && 0 < p.gone then late ++ [(m, p.gone)] else late })
  | none => if moves then waitForPass s l.index pn else s

/-- The choice for one retirement in one pool is made and a pool update begun (R141, R144); without a home the pool is degraded. -/
def retireIn (s : State) (l : Layout) (pn : Nat) (p : Pool) (m : Nat) : State :=
  let c := chooseSpare s l pn p m
  -- the device may start a reshape again after a cancelled one (R180)
  let s : State := { s with
    degrade := { s.degrade with updates := s.degrade.updates.filter (fun u => !(u.layout = l.index && u.pool = pn && u.member = m)) ++ [⟨l.index, pn, m, c, false, false, s.now⟩] }
    reshapes := { s.reshapes with barred := s.reshapes.barred.filter (fun v => (vol s v).layout ≠ l.index) } }
  let s := match c with
    | .hotSpare h => setMem s h 1
    | .none => fire s 0x09 1 m (natLe 1 l.index ++ natLe 1 pn) true
    | _ => s
  passFor s l pn m c

/-- The pass of a pool starts again from row 0 for one member: at once when it is alone in the pass, else with the next round; without a new
home the member leaves the pass (R153). -/
def restartFor (s : State) (layout pool m : Nat) : State :=
  match passOf s layout pool with
  | none => s
  | some k =>
    let p := pass s k
    if p.members.isEmpty then dropDemand (modPass s k (fun _ => {})) (.pass k)
    else if !p.members.contains m then s
    else if p.members = [m] then modPass s k (fun p => { p with cursor := 0, laps := 0, late := [] })
    else modPass s k (fun p => { p with late := p.late.filter (fun e => e.1 ≠ m) ++ [(m, (p.laps + 1) * p.rows)] })

/-- Members that a failing hot spare was taking the chunks of are chosen for anew (R153). -/
def rechoose (s : State) (l : Layout) (pn : Nat) (p : Pool) (m : Nat) : State :=
  (s.degrade.updates.filter (fun u => u.layout = l.index && u.pool = pn && u.choice = .hotSpare m && !u.rebuilt)).foldl (fun s u =>
    let ran := (passOf s l.index pn).any (fun k => (pass s k).members.contains u.member)
    let s := retireIn s l pn p u.member
    if ran then restartFor { s with degrade := { s.degrade with restarts := inc 0xFFFF s.degrade.restarts } } l.index pn u.member else s) s

/-! ### Registry (R160, R161) -/

/-- The registry position that a member holds. -/
def registryPos (s : State) (m : Nat) : Option Nat := (registryNow s).findIdx? (· = m)

/-- The alternate that takes a registry member's place: the first in charter order that is Online and keeps three power groups (R160). -/
def alternateFor (s : State) (m : Nat) : Option Nat :=
  let now := registryNow s
  (s.ch (·.alternates) []).find? (fun a => (mem s a).state = 1 && !now.contains a &&
    3 ≤ ((now.map (fun x => memGroup s (if x = m then a else x))).eraseDups).length)

/-- A retired registry member's area is still to be re-homed. -/
def rehomePending (s : State) (m : Nat) : Bool := (registryPos s m).isSome && (alternateFor s m).isSome

/-- REGISTRY_REHOME (R160): the copies are written, and the alternate counts in place of the retired member. -/
def execRegistryRehome (member : Nat) (s : State) : Host.Outcome State Fault Refusal :=
  .next <|
    match registryPos s member, alternateFor s member with
    | some i, some a =>
      if opfin s && ((mem s member).state = 3 || (mem s member).state = 4) then
        { s with degrade := { s.degrade with roster := s.degrade.roster.filter (fun e => e.1 ≠ i) ++ [(i, a)] } }
      else s
    | _, _ => s

/-! ### Retirement (R136) -/

/-- What was outstanding on a retired member: reads are reconstructed and any late response is dropped; writes are planned again. -/
def abortOn (s : State) (m : Nat) : State :=
  let on := s.drives.cmds.filter (fun c => c.member = m)
  let s := (on.filter (fun c => c.op = .rd && !c.late)).foldl reconstruct s
  let s : State := { s with drives := { s.drives with cmds := s.drives.cmds.filter (fun c => c.member ≠ m || c.op = .rd) } }
  let ws := (on.filterMap (fun c => match c.purpose with
    | .workWrite w _ _ => some w
    | _ => none)).eraseDups
  let s := ws.foldl (fun s w => match findWork s w with
    | none => s
    | some x => if x.kind = .repair then repairFails s w else rewriteWork s w) s
  -- works of step 4 that had not issued their writes form them again for the new homes
  (s.works.filter (fun w => w.step = 4 && w.writes.isEmpty && !w.outs.isEmpty && (w.outs.any (fun o => (layoutOf s w.layout).any (fun l => (seatOf s l w.row o.1).any (fun e => e.2.1 = m)))))).foldl
    (fun s w => if w.kind = .repair then repairFails s w.id else rewriteWork s w.id) s

/-- A member is retired at a boundary. -/
def retireMember (s : State) (m cause : Nat) : State :=
  let was := (mem s m).state
  let s := modMem (setMem s m 3) m (fun x => { x with fault := true, retiring := none, missingSince := none })
  let s := fire s 0x08 cause m [] true
  let pools := (s.ch (·.layouts) []).flatMap (fun l => l.pools.map (fun p => (l, p.1, p.2)))
  let s := pools.foldl (fun s e => rechoose s e.1 e.2.1 e.2.2 m) s
  -- chunks of a replacement that its copy-back had not brought home yet stay at the homes they have
  let s := if was = 5 then s else pools.foldl (fun s e =>
    if (poolSeats s e.1 e.2.1 e.2.2).contains m && !(was = 7 && (updateOf s e.1.index e.2.1 m).isSome) then retireIn s e.1 e.2.1 e.2.2 m else s) s
  let s := if (registryPos s m).isSome && (alternateFor s m).isNone then fire s 0x09 2 m [] true else s
  abortOn s m

/-- Members whose retirement falls due, lowest number first (R137); those short of an area at the boundary that ends step 7 (R173). -/
def memberBoundary (s : State) : State :=
  if retires s then
    (s.drives.members.filter (fun e => e.2.retiring.isSome && e.2.state ≠ 3 && e.2.state ≠ 4 && !(e.2.retiring = some 4 && (s.chip.step = 7 || s.chip.step = 13)))).foldl (fun s e => retireMember s e.1 (e.2.retiring.getD 1)) s
  else s

/-! ### Pool updates and passes -/

/-- The pool updates change; what is complete of them stands in the layout book copies (R144). -/
def bookUpdates (s : State) (ups : List PoolUpdate) : State :=
  { s with
    degrade := { s.degrade with updates := ups }
    registry := { s.registry with updates := ups.filter (·.complete) } }

/-- POOL_UPDATE_COMPLETE (R144): a strict majority of the registry members holds the update; the pass goes on. -/
def poolUpdateComplete (s : State) (layout pool : Nat) (acks : List Nat) : State :=
  if majority s acks then
    let s := bookUpdates s (s.degrade.updates.map (fun u => if u.layout = layout && u.pool = pool then { u with complete := true } else u))
    match passOf s layout pool with
    | some k => passDemand (modPass s k (fun p => if p.state = 1 then { p with state := 2 } else p)) k
    | none => s
  else s

def execPoolUpdateComplete (layout pool : Nat) (acks : List Nat) (s : State) : Host.Outcome State Fault Refusal :=
  .next (if opfin s then poolUpdateComplete s layout pool acks else s)

/-- The retired members of a pool that a pass restores. -/
def passMembers (s : State) (layout pool : Nat) : List Nat :=
  (s.degrade.updates.filter (fun u => u.layout = layout && u.pool = pool && !u.rebuilt && u.choice ≠ .none && ((mem s u.member).state = 3 || (mem s u.member).state = 4))).map (·.member)

/-- The replacement of a pool that waits for its copy-back, the first in the pool's order (R163; DESIGN CHOICE, log entry 38). -/
def copyMember (s : State) (l : Layout) (pn : Nat) (p : Pool) : Option Nat :=
  (poolSeats s l pn p).find? (fun m => (mem s m).state = 7 && (updateOf s l.index pn m).isSome)

/-- The spare fields of a pass: those of its latest retirement. -/
def passSpare (s : State) (p : Pass) : Pass :=
  match (s.degrade.updates.filter (fun u => u.layout = p.layout && u.pool = p.pool)).getLast? with
  | some u => match u.choice with
    | .hotSpare _ => { p with hot := true }
    | .distributed rs e b => { p with hot := false, receivers := rs.length, extent := e, base := b }
    | .none => p
  | none => p

/-- A pass starts on a pool: a rebuild in the order of retirements, else a copy-back (R147, R160, R163). -/
def passStart (s : State) (layout pool : Nat) : State :=
  match (layoutOf s layout).bind (fun l => (l.pool pool).map (fun p => (l, p))), (List.range 16).find? (fun k => (pass s k).state = 0) with
  | some (l, p), some k =>
    if (passOf s layout pool).isSome || 2 ≤ s.power.state || lossPauses s layout || !retires s then s
    else
      -- a pool that already has a pass, or whose registry area is still to be re-homed, does not keep the others waiting
      let blocked := fun (e : Nat × Nat) => (passOf s e.1 e.2).isSome || (passMembers s e.1 e.2).any (rehomePending s)
      if (s.degrade.waitingPools.filter (fun e => !blocked e)).head? = some (layout, pool) then
        let st := if updatesComplete s layout pool then 2 else 1
        let s := modPass s k (fun _ => passSpare s { state := st, layout, pool, members := passMembers s layout pool, rows := l.rows })
        passDemand { s with degrade := { s.degrade with waitingPools := s.degrade.waitingPools.filter (· ≠ (layout, pool)) } } k
      else if s.degrade.waitingPools.contains (layout, pool) then s
      else match copyMember s l pool p with
        | some m => passDemand (modPass s k (fun _ => { state := 4, layout, pool, members := [m], rows := l.rows })) k
        | none => s
  | _, _ => s

/-- REBUILD_PASS_START (R147). -/
def execRebuildPassStart (layout pool : Nat) (s : State) : Host.Outcome State Fault Refusal :=
  .next (if opfin s then passStart s layout pool else s)

/-- The cursor moves to the next row; past the last row a pass with a late member goes on from row 0 (R152). -/
def advancePass (s : State) (k : Nat) : State := passDemand (modPass s k (fun p => Pass.wrap { p with cursor := p.cursor + 1 })) k

/-- The cursor row is restored, in the capacity that is left or under the floor (R148): a row without data, or without anything to restore, is
passed over (R145). -/
def rowRestore (s : State) (k : Nat) : State :=
  let p := pass s k
  match layoutOf s p.layout with
  | none => s
  | some l =>
    if !passRuns p || p.rows ≤ p.cursor || p.goal ≤ p.gone || s.works.any (fun w => w.kind = .restore k) || !((passGroups s k).all (serves s)) || !passMay s (passGroups s k) then s
    else match ownerOf s p.layout p.cursor with
      | none => advancePass s k
      | some (v, b, rho) =>
        if b.unwritten.getLsbD rho || (restoreTargets s l p.cursor p).isEmpty then advancePass s k
        else addWork s (.restore k) v.volume l p.cursor [] [] [] [] false []

/-- ROW_RESTORE (R145, R146, R152). -/
def execRowRestore (pass : Nat) (s : State) : Host.Outcome State Fault Refusal :=
  .next (if opfin s && pass < 16 then rowRestore s pass else s)

/-- Every chunk that a retired member held has a restored home (R143, R151). -/
def homed (s : State) (layout pool : Nat) : Nat → Nat → Bool
  | 0, _ => false
  | fuel + 1, m =>
    if (mem s m).state ≠ 3 && (mem s m).state ≠ 4 then true
    else (updateOf s layout pool m).any (fun u => u.rebuilt && match u.choice with
      | .hotSpare h => homed s layout pool fuel h
      | .distributed rs _ _ => rs.all (homed s layout pool fuel)
      | .none => false)

/-- A pass has gone a whole round for a member: its chunks in the pool are restored, and a hot spare takes its position (R151). -/
def rebuiltIn (s : State) (layout pool m : Nat) : State :=
  match updateOf s layout pool m with
  | none => s
  | some u =>
    if u.rebuilt then s
    else
      let s := bookUpdates s (s.degrade.updates.map (fun x => if x = u then { x with rebuilt := true } else x))
      match u.choice with
      | .hotSpare h => { s with degrade := { s.degrade with placed := s.degrade.placed ++ [(layout, pool, m, h)] } }
      | _ => s

/-- Retired members whose chunks all have homes become Rebuilt (R151). -/
def rebuiltMembers (s : State) : State :=
  s.drives.members.foldl (fun s e =>
    let mine := s.degrade.updates.filter (fun u => u.member = e.1)
    if e.2.state = 3 && !mine.isEmpty && mine.all (fun u => homed s u.layout u.pool 64 e.1) then setMem s e.1 4 else s) s

/-- A pass is over: its slot is free, here and in the registry (R147, R150). -/
def freePass (s : State) (k : Nat) : State :=
  let s := dropDemand (modPass s k (fun _ => {})) (.pass k)
  { s with registry := { s.registry with passes := modAt (fun _ => {}) k s.registry.passes } }

/-- A rebuild ends once every member has had its round (R151). -/
def rebuildEnd (s : State) (k : Nat) : State :=
  let s := freePass s k
  { s with degrade := { s.degrade with completed := inc 0xFFFF s.degrade.completed } }

/-- The members that sit in some pool. -/
def seated (s : State) (m : Nat) : Bool :=
  (s.ch (·.layouts) []).any (fun l => l.pools.any (fun p => (poolSeats s l p.1 p.2).contains m))

/-- The drive of a member is recorded (R353). -/
def recordDrive (s : State) (m : Nat) : State :=
  { s with registry := { s.registry with drives := tset s.registry.drives m ((mem s m).serial, (mem s m).sasAddr, (mem s m).capacity) } }

/-- A copy-back's end: the replacement takes its position in the pool and the member's extent is freed; with the last of its pools it is
Online and off the retirement list, and a registry area is re-created on it (R161, R163). -/
def copyEnd (s : State) (k : Nat) : State :=
  let p := pass s k
  let s := p.members.foldl (fun s m =>
    let s := bookUpdates s (s.degrade.updates.filter (fun u => !(u.layout = p.layout && u.pool = p.pool && u.member = m)))
    if s.degrade.updates.any (fun u => u.member = m) then s
    else
      let s := modMem (setMem s m (if seated s m then 1 else 5)) m (fun x => { x with fault := false, events := [], retiring := none })
      recordDrive { s with degrade := { s.degrade with replacing := s.degrade.replacing.filter (fun e => e.2 ≠ m) } } m) s
  rebuildEnd s k

/-- A pass at a boundary: members whose round is over, its end, pauses (R149, R159) and resumption. -/
def passTurn (s : State) (k : Nat) : State :=
  let p := pass s k
  if p.state = 0 then s
  else if copying p && p.members.any (fun m => (mem s m).state ≠ 7) then freePass s k
  else if p.state = 1 then (if updatesComplete s p.layout p.pool then passDemand (modPass s k (fun p => { p with state := 2 })) k else dropDemand s (.pass k))
  else if p.state = 3 then
    if (if p.pausedFor % 2 = 1 then decide (2 ≤ s.power.state) else lossPauses s p.layout) then s
    else passDemand (modPass s k (fun p => { p with state := if 3 ≤ p.pausedFor then 4 else if updatesComplete s p.layout p.pool then 2 else 1, pausedFor := 0 })) k
  else
    let s := if copying p then s else (p.members.filter p.didAll).foldl (fun s m => rebuiltIn s p.layout p.pool m) s
    let pause := fun (n : Nat) => dropDemand (modPass s k (fun p => { p with state := 3, pausedFor := if p.state = 4 then n + 2 else n })) (.pass k)
    if p.goal ≤ p.gone then (if copying p then copyEnd s k else rebuildEnd s k)
    else if 2 ≤ s.power.state then pause 1
    else if lossPauses s p.layout then pause 2
    else passDemand s k

/-- Passes at a boundary (R149–R152, R159, R163). -/
def passBoundary (s : State) : State := rebuiltMembers ((List.range 16).foldl passTurn s)

/-! ### Replacements (R162, R163) -/

/-- The pools' areas on a member: where each ends, and its bytes. -/
def memberAreas (s : State) (m : Nat) : List (Nat × Nat) :=
  ((s.ch (·.layouts) []).filter (fun l => (l.groups ++ l.keystones).any (fun p => p.members.contains m || p.hotSpares.contains m))).map
    (fun l => (l.areaOffset + l.areaSlots * l.chunk, l.areaSlots * l.chunk))

/-- The bytes of a registry area: two checkpoint slots, the volume-map copy, the layout book copy and the witness sectors (R120). -/
def registryBytes (s : State) : Nat := 3 * 1048576 + s.ch (·.mapCopySize) 0 + 65536

/-- The end of a registry area on a member that has one (R123). -/
def registryEnd (s : State) : Nat := s.ch (·.areaOffset) 0 + registryBytes s

/-- The end of the highest layout area of a member (R173). -/
def areaEnd (s : State) (m : Nat) : Nat := maxOf ((memberAreas s m).map (·.1))

/-- The sum of a member's areas, a registry area among them (R162). -/
def areaNeed (s : State) (m : Nat) : Nat := sumOf (·.2) (memberAreas s m) + (if alwaysSpins s m then registryBytes s else 0)

/-- R162: the drive stands in the retired member's slot and may replace it. -/
def mayReplace (s : State) (m : Nat) (d : FoundDrive) : Bool :=
  ((mem s m).state = 3 || (mem s m).state = 4) &&
  (memberDef s m).any (fun x => x.slot = d.slot && x.enclosure = d.enclosure) &&
  !(s.registry.drives.any (fun e => e.2.1 = d.serial)) && areaNeed s m ≤ d.capacity &&
  (s.ch (·.units) 1 = 1 || (!d.sata && d.ports = 2))

/-- REPLACEMENT_DISCOVERED (R162): the drive is under its checks from the next boundary on. -/
def replacementDiscovered (s : State) (m : Nat) (d : FoundDrive) (good : Bool) : State :=
  if !mayReplace s m d || s.degrade.found.any (fun r => r.member = m) then s
  else { s with degrade := { s.degrade with found := s.degrade.found ++ [⟨m, d, good, (mem s m).state, false⟩] } }

def execReplacementDiscovered (member : Nat) (d : FoundDrive) (checksPass : Bool) (s : State) : Host.Outcome State Fault Refusal :=
  .next (if opfin s then replacementDiscovered s member d checksPass else s)

/-- A hot spare that took a member's place is named for it in the homes of others (R143, R163). -/
def homesMoved (s : State) (layout pool m h : Nat) : State :=
  let swap := fun (x : Nat) => if x = m then h else x
  bookUpdates s ((s.degrade.updates.filter (fun u => !(u.layout = layout && u.pool = pool && u.member = m))).map (fun u =>
    if u.layout = layout && u.pool = pool then { u with choice := match u.choice with
      | .hotSpare x => .hotSpare (swap x)
      | .distributed rs e b => .distributed (rs.map swap) e b
      | .none => .none }
    else u))

/-- The outcome of a replacement's checks (R162, R163): Replacing while chunks are to be copied back, a hot spare of the pool where one took
the member's place; a drive that failed is left out of service. -/
def replacementOutcome (s : State) (r : Replacement) : State :=
  let m := r.member
  let d := r.drive
  if !r.good then
    fire { setMem s m r.before with drives := { (setMem s m r.before).drives with unassigned := s.drives.unassigned ++ [d] } } 0x10 1 d.slot (natLe 8 d.enclosure ++ natLe 8 d.sasAddr) false
  else
    let s := modMem s m (fun x => { x with serial := d.serial, sasAddr := d.sasAddr, capacity := d.capacity, sata := d.sata, present := true, fault := false, events := [] })
    let s := (s.degrade.placed.filter (fun e => e.2.2.1 = m)).foldl (fun s e => homesMoved s e.1 e.2.1 m e.2.2.2) s
    if s.degrade.updates.any (fun u => u.member = m) then
      setMem { s with degrade := { s.degrade with replacing := s.degrade.replacing ++ [(d.serial, m)] } } m 7
    else recordDrive (setMem s m 5) m

/-- Replacements at a boundary: those discovered enter Admitting, those admitted have passed their checks or failed them (R133, R162, R163). -/
def admitBoundary (s : State) : State :=
  s.degrade.found.foldl (fun s r =>
    if r.admitting then
      replacementOutcome { s with degrade := { s.degrade with found := s.degrade.found.filter (fun x => x.member ≠ r.member) } } r
    else
      let s := setMem s r.member 6
      { s with degrade := { s.degrade with found := modIf (fun x => x.member = r.member) (fun x => { x with admitting := true }) s.degrade.found } }) s

/-! ### The loss ledger (R155–R159) -/

/-- LOSS_ENTRIES_DURABLE (R156): a strict majority holds the entries of a find; works that waited go on. -/
def lossDurable (s : State) (find : Nat) (acks : List Nat) : State :=
  if majority s acks then
    let loss := s.degrade.loss.map (fun e => if e.find = find && !e.durable then { e with durable := true, durableAt := s.now } else e)
    let fresh := countIf (fun (e : LossEntry) => e.find = find && !e.durable) s.degrade.loss
    let s : State := { s with
      degrade := { s.degrade with loss, lossNew := hold 0xFFFF (s.degrade.lossNew + fresh) }
      registry := { s.registry with loss := loss.filter (·.durable) } }
    (s.works.filter (fun w => w.waitFinds.contains find)).foldl (fun s w =>
      let s := modWork s w.id (fun w => { w with waitFinds := w.waitFinds.filter (· ≠ find) })
      if (findWork s w.id).any (fun w => w.waitFinds.isEmpty && w.sealWait.isEmpty) && (w.held || w.kind = .destage) then startReads s w.id else s) s
  else s

def execLossEntriesDurable (find : Nat) (acks : List Nat) (s : State) : Host.Outcome State Fault Refusal :=
  .next (if opfin s then lossDurable s find acks else s)

/-- Reads whose finds became durable end at the boundary after (R156). -/
def readBoundary (s : State) : State :=
  (s.cmds.filter (fun c => c.phase = .busy && !c.finds.isEmpty)).foldl (fun s c => blockDone s c.hdr.tag) s

/-- The blocks of a position to be sealed are all in the loss ledger, durable, or a newer write of them is still to come to the row. -/
def sealable (s : State) (l : Layout) (row pos : Nat) (cols : List Nat) : Bool :=
  !cols.isEmpty && cols.all (fun c => (rowBlock s l row c pos).any (fun b =>
    s.degrade.loss.any (fun e => e.durable && e.names b.1 b.2) || (newestRec s b.1 b.2 (fun _ => true)).isSome))

/-- The chunks that reads of a row have failed on, over the works under way. -/
def badAt (s : State) (layout row pos : Nat) : List ChunkId :=
  ((s.works.filter (fun w => w.layout = layout && w.row = row)).flatMap (fun w => (w.badPos.filter (fun e => e.2 = pos)).map (·.1))) ++
  (s.cmds.flatMap (fun c => (c.needs.filter (fun n => n.layout = layout && n.row = row && n.position = pos)).flatMap (·.bad)))

/-- The columns of a position that are lost: beyond tolerance now, or recorded as such in the ledger of losses. -/
def lostNow (s : State) (l : Layout) (row pos : Nat) : List Nat :=
  let er := patternAt s l row pos (badAt s l.index row pos)
  (l.cols.map (·.2.2)).filter (fun c => (lostCols l er).contains c || (rowBlock s l row c pos).any (fun b => s.degrade.loss.any (fun e => e.cause = 1 && e.names b.1 b.2)))

/-- SEAL_ROW (R157): zeros into every unrecovered chunk of the position, and every syndrome Fresh. -/
def sealRow (s : State) (layout row pos : Nat) : State :=
  match layoutOf s layout, ownerOf s layout row with
  | some l, some (v, _, _) =>
    let cols := lostNow s l row pos
    if l.positions.contains pos && !rowUnwritten s layout row && sealable s l row pos cols then
      let id := s.nextWork
      let s := addWork s .seal v.volume l row (cols.map (fun c => (c, pos, []))) [] [] [] false []
      modWork s id (fun w => { w with positions := [pos] })
    else s
  | _, _ => s

def execSealRow (layout row position : Nat) (s : State) : Host.Outcome State Fault Refusal :=
  .next (sealRow s layout row position)

/-- LOSS_AREA_FULL (R159): a further entry must be written and the area is full; the volumes with entries are those concerned. -/
def execLossAreaFull (s : State) : Host.Outcome State Fault Refusal :=
  .next (if 32768 ≤ lossHeld s && !s.degrade.lossFull then (s.degrade.loss.map (·.volume)).eraseDups.foldl lossOverflow s else s)

/-- The area has room again at the boundary after 31,744 or fewer entries are held (R159). -/
def lossBoundary (s : State) : State :=
  if s.degrade.lossFull && lossHeld s ≤ 31744 then { s with degrade := { s.degrade with lossFull := false, lossVols := [] } } else s

/-- A landed WRITE or RELEASE removes its blocks from the loss ledger: entries are trimmed or split (R158). -/
def trimLoss (v lba n : Nat) (es : List LossEntry) : List LossEntry :=
  es.flatMap (fun e =>
    if e.volume = v && e.lba < lba + n && lba < e.lba + e.blocks then
      (if e.lba < lba then [{ e with blocks := lba - e.lba }] else []) ++
      (if lba + n < e.lba + e.blocks then [{ e with lba := lba + n, blocks := e.lba + e.blocks - (lba + n) }] else [])
    else [e])

/-! ### Scrub (R164–R167) -/

/-- What the scrub of one position finds (R165). -/
inductive Mismatch where
  | none | p | q | located (col : Nat) | unlocated
  deriving DecidableEq, Repr

/-- R165. -/
def judgePosition (cols : List Nat) (dp dq : List Byte) : Mismatch :=
  let zp := dp.all (· = 0)
  let zq := dq.all (· = 0)
  if zp && zq then .none
  else if zq then .p
  else if zp then .q
  else match cols.find? (fun (c : Nat) => gfScale (gfAlpha c) dp = dq) with
    | some c => .located c
    | none => .unlocated

/-- The bytes of a chunk position in the data that a scrub read. -/
def scrubBytes (chunks : List (ChunkId × List Byte)) (c : ChunkId) (pos : Nat) : List Byte :=
  padTo 4096 ((((chunks.find? (fun e => e.1 = c)).map (·.2)).getD []).drop (4096 * pos))

/-- The P and Q of one position as the data gives them, against what was read. -/
def scrubDeltas (l : Layout) (j : Nat) (chunks : List (ChunkId × List Byte)) (pos : Nat) : List Byte × List Byte :=
  let term := fun (syn : ChunkId) => combine 4096 ((covers l syn).map (fun c => (coefOf l syn c, scrubBytes chunks (.d c) pos)))
  (xorBytes (scrubBytes chunks (.p j) pos) (term (.p j)), xorBytes (scrubBytes chunks (.q j) pos) (term (.q j)))

/-- One position of a local scrub: its repair, and the counts (R165). -/
def scrubPosition (s : State) (l : Layout) (row j : Nat) (chunks : List (ChunkId × List Byte)) (pos : Nat) : State × Mismatch :=
  let (dp, dq) := scrubDeltas l j chunks pos
  let r := judgePosition (covers l (.p j)) dp dq
  let d := s.degrade
  let s := match r with
    | .none => s
    | .p => scrubWork { s with degrade := { d with syndrome := inc 0xFF d.syndrome } } l row pos [] [(.p j, true)] []
    | .q => scrubWork { s with degrade := { d with syndrome := inc 0xFF d.syndrome } } l row pos [] [(.q j, true)] []
    | .located c =>
      let fixed := Memory.ofBytes (xorBytes (scrubBytes chunks (.d c) pos) dp)
      scrubWork { s with degrade := { d with located := inc 0xFF d.located } } l row pos [(c, pos, fixed)] ((List.range l.globals).map (fun t => (ChunkId.g (t + 1), false))) []
    | .unlocated =>
      let s := fire { s with degrade := { d with unlocated := inc 0xFF d.unlocated } } 0x0B 0 l.index (natLe 8 row ++ natLe 1 j ++ natLe 4 pos) false
      scrubWork s l row pos [] [(.p j, true), (.q j, true)] []
  (s, r)

/-- A VERIFY with Check takes in the outcome of a scrub of one of its rows (R300). -/
def checkDone (s : State) (layout row j : Nat) (rs : List Mismatch) : State :=
  let hit := s.cmds.filter (fun c => c.checks.contains (layout, row, j))
  -- and an object's repair counts the row off (R344)
  let s : State := { s with vaults := { s.vaults with repairs := s.vaults.repairs.map (fun r => { r with left := r.left.filter (· ≠ (layout, row, j)) }) } }
  hit.foldl (fun s c =>
    let loc := countIf (fun r => match r with
      | .located _ => true
      | _ => false) rs
    let un := countIf (fun r => r = Mismatch.unlocated) rs
    let any := countIf (fun r => r ≠ Mismatch.none) rs
    let left := c.checks.filter (· ≠ (layout, row, j))
    let s := modCmd s c.hdr.tag (fun c => { c with
      checks := left, located := c.located + loc, unlocated := c.unlocated + un, mended := c.mended + any
      rowsChecked := if left.any (fun k => k.1 = layout && k.2.1 = row) then c.rowsChecked else c.rowsChecked + 1 })
    readDone s c.hdr.tag) s

/-- A position of a chunk that the scrub's read did not give. -/
def scrubFailed (chunks : List (ChunkId × List Byte)) (c : ChunkId) (pos : Nat) : Bool := chunks.any (fun e => e.1 = c && e.2.length < 4096 * (pos + 1))

/-- A position of a local scrub of which a chunk failed to read: it is repaired (R140, R164). -/
def scrubRepair (s : State) (l : Layout) (row : Nat) (need : List ChunkId) (chunks : List (ChunkId × List Byte)) (pos : Nat) : State :=
  (need.filter (fun c => scrubFailed chunks c pos)).foldl (fun s c => match homeOf s l row c with
    | some h => mediaRepair s h.1 l.index row c pos
    | none => s) s

/-- A local scrub of group j of a row, with every chunk of the group as its members gave it; data that ends early stands for positions that
failed to read. A row with an erased chunk is not scrubbed (R164); the scrub takes the capacity that is left, or its share (R167). -/
def localScrub (s : State) (layout row j : Nat) (chunks : List (ChunkId × List Byte)) : State :=
  match layoutOf s layout, ownerOf s layout row with
  | some l, some (_, b, rho) =>
    let need := (covers l (.p j)).map ChunkId.d ++ [.p j, .q j]
    let g := l.powerGroup (.p j)
    let spins := serves s g && scrubMay s g
    let wholly := need.all (fun c => chunks.any (fun e => e.1 = c)) && (erasedChunks s l row).isEmpty
    if b.unwritten.getLsbD rho || !spins || !wholly || !holdFree s layout row || lossPauses s layout || l.groups.length ≤ j then s
    else
      let s := countMoved s g (some .scrub) (need.length * l.chunk)
      let (s, rs) := l.positions.foldl (fun (a : State × List Mismatch) pos =>
        if need.any (fun c => scrubFailed chunks c pos) then (scrubRepair a.1 l row need chunks pos, a.2)
        else
          let (s, r) := scrubPosition a.1 l row j chunks pos
          (s, a.2 ++ [r])) (s, [])
      let s : State := { s with
        degrade := { s.degrade with
          scrubRows := inc 0xFFFFFFFF s.degrade.scrubRows
          scrubbed := s.degrade.scrubbed.filter (fun e => !(e.1 = layout && e.2.1 = row && e.2.2.1 = j)) ++ [(layout, row, j, s.mgmt.opMs)] }
        drives := { s.drives with scrubFirst := s.drives.scrubFirst.filter (· ≠ (layout, row)) } }
      checkDone s layout row j rs
  | _, _ => s

/-- LOCAL_SCRUB (R164, R165). -/
def execLocalScrub (layout row group : Nat) (chunks : List (ChunkId × List Byte)) (s : State) : Host.Outcome State Fault Refusal :=
  .next (if opfin s then localScrub s layout row group chunks else s)

/-- One chunk's part of a batch row is added: to each accumulator, or as a read global chunk to be compared (R166). -/
def batchAdd (l : Layout) (r : BatchRow) (e : ChunkId × List Byte) : BatchRow :=
  if r.added.contains e.1 then r
  else
    let t0 := match e.1 with
      | .d c => (List.range l.globals).map (fun t => (t + 1, coefOf l (.g (t + 1)) c))
      | .g t => [(t, 1)]
      | _ => []
    let acc := t0.foldl (fun acc t =>
      let old := ((acc.find? (fun (a : Nat × Cells) => a.1 = t.1)).map (·.2)).getD []
      let new := Memory.ofBytes (combine l.chunk [(1, Memory.bytes old l.chunk), (t.2, padTo l.chunk e.2)])
      acc.filter (fun a => a.1 ≠ t.1) ++ [(t.1, new)]) r.acc
    { r with acc, added := r.added ++ [e.1] }

/-- The local groups of a row are consistent at a position: no scrub of theirs is still repairing it. -/
def locallyGood (s : State) (layout row pos : Nat) : Bool :=
  !s.works.any (fun w => w.kind = .scrub && w.layout = layout && w.row = row && w.positions.contains pos)

/-- Every part of a batch row is in: positions at which G_t differs, and the local groups do not, have it rewritten (R166). -/
def batchCompare (s : State) (l : Layout) (r : BatchRow) : State :=
  let s : State := { s with degrade := { s.degrade with checked := s.degrade.checked.filter (fun e => !(e.1 = r.layout && e.2.1 = r.row)) ++ [(r.layout, r.row, s.mgmt.opMs)] } }
  let good := l.positions.filter (locallyGood s r.layout r.row)
  r.acc.foldl (fun s a =>
    good.foldl (fun s pos =>
      if (Memory.slice a.2 (4096 * pos) (4096 * pos + 4096)).isEmpty then s
      else scrubWork { s with degrade := { s.degrade with syndrome := inc 0xFF s.degrade.syndrome } } l r.row pos [] [(.g a.1, true)] []) s) s

/-- A row's global syndromes are due: not checked in the last four scrub periods (R166). -/
def globalDue (s : State) (layout row : Nat) : Bool :=
  !s.degrade.checked.any (fun e => e.1 = layout && e.2.1 = row && s.mgmt.opMs < e.2.2 + 4 * 86400000 * s.ch (·.scrubDays) 30)

/-- Parts of a row for the global check: read while their groups spin (R166). -/
def globalScrub (s : State) (layout row : Nat) (chunks : List (ChunkId × List Byte)) : State :=
  match layoutOf s layout, ownerOf s layout row with
  | some l, some (_, b, rho) =>
    let mine := chunks.filter (fun e => serves s (l.powerGroup e.1) && !(erasedChunks s l row).contains e.1 && l.chunks.contains e.1)
    let old := s.degrade.batch.find? (fun r => r.layout = layout && r.row = row)
    let busy := s.works.any (fun w => w.layout = layout && w.row = row && 2 ≤ w.step)
    if b.unwritten.getLsbD rho || l.globals = 0 || lossPauses s layout || (old.isNone && (4096 ≤ s.degrade.batch.length || !globalDue s layout row)) || busy || !holdFree s layout row then s
    else
      let r := mine.foldl (batchAdd l) (old.getD ⟨layout, row, [], []⟩)
      let rest := s.degrade.batch.filter (fun r => !(r.layout = layout && r.row = row))
      let full := l.cols.all (fun c => r.added.contains (.d c.2.2)) && (List.range l.globals).all (fun t => r.added.contains (.g (t + 1)))
      if full then batchCompare { s with degrade := { s.degrade with batch := rest } } l r
      else { s with degrade := { s.degrade with batch := rest ++ [r] } }
  | _, _ => s

/-- GLOBAL_SCRUB_BATCH (R166). -/
def execGlobalScrubBatch (layout row : Nat) (chunks : List (ChunkId × List Byte)) (s : State) : Host.Outcome State Fault Refusal :=
  .next (if opfin s then globalScrub s layout row chunks else s)

/-- Rows of the batch that a stripe-row write past step 1 touches are dropped from it (R166). -/
def batchDrop (s : State) : State :=
  { s with degrade := { s.degrade with batch := s.degrade.batch.filter (fun r => !s.works.any (fun w => w.layout = r.layout && w.row = r.row && 2 ≤ w.step)) } }

end Sys2Proof.Machine
end

