-- ==== Sys2Proof/Machine/Reshaping.lean ====
section
/-! DEFINITION. On-line reshape (07 R175–R193): RESHAPE, the region copy, dual landing, the switch and the release. -/

namespace Sys2Proof.Machine

def rsh (s : State) (k : Nat) : Reshape := (s.reshapes.slots.drop k).headD {}

def modRsh (s : State) (k : Nat) (f : Reshape → Reshape) : State :=
  { s with reshapes := { s.reshapes with slots := modAt f k s.reshapes.slots } }

/-- A slot takes a state. -/
def setRsh (s : State) (k st : Nat) : State := modRsh s k (fun r => if r.state = st then r else { r with state := st, lastChange := s.now })

/-- The slot of a volume's reshape that has not been released. -/
def slotOf (s : State) (v : Nat) : Option Nat := (List.range 4).find? (fun k => (rsh s k).state ≠ 0 && (rsh s k).volume = v)

/-- A volume takes a state; a change is signalled. -/
def setVolume (s : State) (v : Nat) (f : Volume → Volume) : State :=
  let x := vol s v
  let s : State := { s with vols := tset s.vols v (f x) }
  if (f x).state = x.state then s else mgmtCause s 6

/-- The result field of RESHAPE (R318). -/
def refusedSlot : List Byte := [0xFF]

/-! ### Start (R177–R179) -/

/-- Power groups of every pool of two layouts. -/
def reshapeGroups (a b : Layout) : List Nat := ((a.pools ++ b.pools).map (fun p => p.2.powerGroup)).eraseDups

/-- The target bands that overlap an allocated source band (R178). -/
def targetBands (s : State) (d : VolumeDef) (src tgt : Layout) : List Nat :=
  let ss := max 1 (bandBlocks src d)
  let ts := max 1 (bandBlocks tgt d)
  ((s.bands.filter (fun b => b.volume = d.volume && !b.target)).flatMap (fun b =>
    let lo := b.band * ss
    let hi := min ((b.band + 1) * ss) d.capacity - 1
    (List.range (hi / ts + 1 - lo / ts)).map (· + lo / ts))).eraseDups.mergeSort (fun a b => decide (a ≤ b))

/-- The target band table, every row Unwritten, or no room. -/
def buildTarget (s : State) (d : VolumeDef) (src tgt : Layout) : Option State :=
  (targetBands s d src tgt).foldl (fun (o : Option State) n => o.bind (fun s => allocBand s d tgt n true)) (some s)

/-- The first refusal of R177 that holds. -/
def startRefusal (s : State) (v tgt : Nat) : Option (Nat × Nat) :=
  let x := vol s v
  if x.state ≠ 2 && x.state ≠ 3 then some (0x10, 0x09)
  else if (slotOf s v).isSome then some (0x10, 0x0C)
  else if tgt = x.layout then some (0x10, 0x0D)
  else if !s.chip.layoutOk.getLsbD tgt then some (0x10, 0x0E)
  else if (List.range 4).all (fun k => (rsh s k).state ≠ 0) then some (0x30, 0x04)
  else match volDef s v, layoutOf s x.layout, layoutOf s tgt with
    | some d, some a, some b =>
      if feature s 4 < (reshapeGroups a b).length then some (0x30, 0x05)
      else if (buildTarget s d a b).isNone then some (0x30, 0x03)
      else none
    | _, _, _ => some (0x10, 0x0E)

/-- A slot is taken by a Start. -/
def takeSlot (s : State) (v tgt : Nat) (tag : Option Nat) (device : Bool) : State :=
  match (List.range 4).find? (fun k => (rsh s k).state = 0) with
  | none => s
  | some k => modRsh s k (fun _ => { state := 1, device, volume := v, source := (vol s v).layout, target := tgt, tag, lastChange := s.now })

/-- The accepted RESHAPE of an action. -/
def reshapeCmd (s : State) (tag action : Nat) : Option Cmd :=
  cmdIn s tag (fun c => c.phase = .started && c.hdr.opcode = 0x86 && !c.failed && c.hdr.f 24 1 = action)

/-- RESHAPE Start (R177, R178). -/
def execReshapeStart (tag : Nat) (s : State) : Host.Outcome State Fault Refusal :=
  .next <|
    match reshapeCmd s tag 0 with
    | none => s
    | some c =>
      let tgt := c.hdr.f 25 1
      match startRefusal s c.hdr.volume tgt with
      | some e => finish s tag e.1 e.2 refusedSlot
      | none => modCmd (takeSlot s c.hdr.volume tgt (some tag) false) tag (fun c => { c with phase := .busy, begun := true })

/-- Pause, Resume or Cancel, with the states in which each may act (R177). -/
def reshapeAct (s : State) (tag action : Nat) (states : List Nat) : State :=
  match reshapeCmd s tag action with
  | none => s
  | some c =>
    match (slotOf s c.hdr.volume).filter (fun k => states.contains (rsh s k).state) with
    | none => finish s tag 0x10 0x0F refusedSlot
    | some k => modCmd (modRsh s k (fun r => { r with reqs := r.reqs ++ [(action, tag)] })) tag (fun c => { c with phase := .busy })

/-- RESHAPE Pause (R176, R187). -/
def execReshapePause (tag : Nat) (s : State) : Host.Outcome State Fault Refusal :=
  .next (reshapeAct s tag 1 [2, 4])

/-- RESHAPE Resume (R176). -/
def execReshapeResume (tag : Nat) (s : State) : Host.Outcome State Fault Refusal :=
  .next (reshapeAct s tag 2 [3])

/-- RESHAPE Cancel (R191). -/
def execReshapeCancel (tag : Nat) (s : State) : Host.Outcome State Fault Refusal :=
  .next (reshapeAct s tag 3 [1, 2, 3, 4])

/-- The reshape record of a slot stands in the layout book copies as it is now (R178). -/
def bookSlot (s : State) (k : Nat) : State :=
  { s with registry := { s.registry with reshapes := modAt (fun _ => rsh s k) k (if s.registry.reshapes.isEmpty then List.replicate 4 {} else s.registry.reshapes) } }

/-- RESHAPE_RECORD_ACK (R179): a strict majority holds the record; it takes effect at the next boundary. -/
def execReshapeRecordAck (slot : Nat) (acks : List Nat) (s : State) : Host.Outcome State Fault Refusal :=
  .next (if slot < 4 && (rsh s slot).state = 1 && (rsh s slot).built && majority s acks then
    let s := modRsh s slot (fun r => { r with acked := true })
    bookSlot s slot else s)

/-- A pool of the layout has been degraded with NoSpare for 2^24 closes (R180). -/
def longDegraded (s : State) (layout : Nat) : Bool :=
  s.degrade.updates.any (fun u => u.layout = layout && u.choice = .none && u.since + 2 ^ 24 ≤ s.now)

/-- DEVICE_STARTED_RESHAPE (R180). -/
def deviceReshape (s : State) (v : Nat) : State :=
  let cur := (vol s v).layout
  if (volDef s v).any (fun d => bit d.flags 0) && feature s 5 = 1 && longDegraded s cur && !s.reshapes.barred.contains v && retires s then
    let cand := ((s.ch (·.layouts) []).filter (fun l => l.fallback = cur && (startRefusal s v l.index).isNone)).map (·.index)
    match minOf cand with
    | none => s
    | some t => fire (takeSlot s v t none true) 0x0D 1 v (natLe 1 cur ++ natLe 1 t) false
  else s

def execDeviceStartedReshape (volume : Nat) (s : State) : Host.Outcome State Fault Refusal :=
  .next (if opfin s then deviceReshape s volume else s)

/-! ### The copy (R181, R182, R186) -/

/-- The regions that overlap an allocated source band, ascending (R181). -/
def copyRegions (s : State) (k : Nat) : List Nat :=
  let r := rsh s k
  match volDef s r.volume, layoutOf s r.source with
  | some d, some l => ((s.bands.filter (fun b => b.volume = r.volume && b.layout = r.source)).flatMap (fun b => bandRegions s l d b.band)).eraseDups.mergeSort (fun a b => decide (a ≤ b))
  | _, _ => []

/-- A row of a band holds a block of a region. -/
def rowInRegion (s : State) (l : Layout) (d : VolumeDef) (b : Band) (rho region : Nat) : Bool :=
  let n := regionBlocks s
  let bpc := l.chunk / 4096
  l.cols.any (fun c =>
    let lo := blockOf l d ⟨b.band, rho, c.2.2, 0⟩
    lo < (region + 1) * n && region * n < lo + bpc)

/-- The target rows of a region, ascending. -/
def regionRows (s : State) (k region : Nat) : List Nat :=
  let r := rsh s k
  match volDef s r.volume, layoutOf s r.target with
  | some d, some l => ((s.bands.filter (fun b => b.volume = r.volume && b.layout = r.target)).flatMap (fun b =>
      ((List.range (2 ^ d.bandLog)).filter (fun rho => rowInRegion s l d b rho region)).map (· + b.rowBase))).mergeSort (fun a b => decide (a ≤ b))
  | _, _ => []

/-- The blocks of a target row that lie in a region: (column, position, block). -/
def regionBlocksOf (s : State) (l : Layout) (row region : Nat) : List (Nat × Nat × Nat) :=
  let n := regionBlocks s
  l.cols.flatMap (fun c => l.positions.filterMap (fun p =>
    (rowBlock s l row c.2.2 p).bind (fun b => if region * n ≤ b.2 && b.2 < (region + 1) * n then some (c.2.2, p, b.2) else none)))

/-- The rows of the other layout that a range touches (R183). -/
def otherRows (s : State) (v lba n : Nat) : List (Nat × Nat) :=
  match volDef s v, otherLayout s v with
  | some d, some l => ((List.range n).filterMap (fun i =>
      let p := locate l d (lba + i)
      (findBand s v p.band true).map (fun b => (l.index, b.rowBase + p.rho)))).eraseDups
  | _, _ => []

/-- Whether a block's stripe-row writes are planned in both layouts (R183). -/
def dualBlock (s : State) (v b : Nat) : Bool :=
  -- a region that the copy has gone by had no source band then, and none of its blocks was copied (DESIGN CHOICE, log entry 37)
  (reshapeOf s v).any (fun r => r.state = 5 || r.started.contains (b / max 1 (regionBlocks s)) || 2 ≤ r.state && r.state ≤ 4 && b / max 1 (regionBlocks s) < r.region)

/-- The rows, in every layout, that a landed range touches. -/
def landingRows (s : State) (v lba n : Nat) : List (Nat × Nat) :=
  (rangeRows s v lba n ++ ((List.range n).filter (fun i => dualBlock s v (lba + i))).flatMap (fun i => otherRows s v (lba + i) 1)).eraseDups

/-- The copy of a region starts: held records of its blocks are to be written in the target layout too (R183). -/
def startRegion (s : State) (k : Nat) : State :=
  let r := rsh s k
  if r.started.contains r.region then s
  else
    let s := modRsh s k (fun r => { r with started := r.started ++ [r.region] })
    let n := regionBlocks s
    { s with ledger := { s.ledger with recs := s.ledger.recs.map (fun q =>
      match q.range with
      | some (lba, c) =>
        if q.volume = r.volume && q.visible && !q.superseded && !q.rows.isEmpty then
          { q with rows := (q.rows ++ ((List.range c).filter (fun i => (lba + i) / max 1 n = r.region)).flatMap (fun i => otherRows s r.volume (lba + i) 1)).eraseDups }
        else q
      | none => q) } }

/-- Where the copy takes the blocks of a target row from: (column, position, block) and source. -/
def copySources (s : State) (l : Layout) (row region v : Nat) : List ((Nat × Nat × Nat) × Source) :=
  (regionBlocksOf s l row region).map (fun e => (e, blockSource s v e.2.2 (needIdx e.1 e.2.1) (fun _ => true)))

/-- The needs among the sources. -/
def copyNeeds (src : List ((Nat × Nat × Nat) × Source)) : List Need :=
  src.filterMap (fun e => match e.2 with
    | .members n => some n
    | _ => none)

/-- One target row is to be copied: its windows are asked for, and once they stand the copy goes for the row's hold (R182, R186). -/
def copyRow (s : State) (k row : Nat) (d : VolumeDef) (l : Layout) : State :=
  let r := rsh s k
  let groups := (((copyNeeds (copySources s l row r.region r.volume)).flatMap (Need.groups s)) ++ l.writeGroups (l.cols.map (·.2.2))).eraseDups
  let s := setDemand s 6 groups (.reshape k)
  if groups.all (serves s) && copyMay s groups then addWork s (.reshape k) d.volume l row [] [] [] [] false [] else s

/-- A copied row has its hold: it takes what the ledger or the cache holds at once, the rest from the source's members; blocks lost in the source are
zeros, once their loss entries are durable (R156, R182). -/
def sourceRow (s : State) (k : Nat) (w : Work) (l : Layout) : State :=
  let r := rsh s k
  let src := copySources s l w.row r.region r.volume
  if src.any (fun e => e.2 = .wait) then s
  else
    let beyond := (src.filterMap (fun e => match e.2 with
      | .beyond bs => some bs
      | _ => none)).eraseDups
    let s := beyond.foldl (fun s bs => (positionLoss s (bs.map (fun b => (r.volume, b)))).1) s
    let finds := lossPending s r.volume (src.map (·.1.2.2))
    let news := src.filterMap (fun e => match e.2 with
      | .members _ => none
      | .data c _ => some (e.1.1, e.1.2.1, c)
      | _ => some (e.1.1, e.1.2.1, []))
    startReads (modWork s w.id (fun w => { w with news, needs := copyNeeds src, waitFinds := finds, positions := (news.map (·.2.1)).eraseDups })) w.id

/-- The row that a slot copies settles its sources once it has its hold. -/
def sourceCopy (s : State) (k : Nat) : State :=
  match s.works.find? (fun w => w.kind = .reshape k && w.unsourced && w.held && w.step = 2) with
  | none => s
  | some w => match layoutOf s w.layout with
    | none => s
    | some l => sourceRow s k w l

/-- A member of the reshape's pools waits for a pass, or a pass runs there (R187). -/
def yieldsToPass (s : State) (r : Reshape) : Bool :=
  let mine := fun l => l = r.source || l = r.target
  s.degrade.waitingPools.any (fun e => mine e.1) || s.degrade.passes.any (fun p => p.state ≠ 0 && mine p.layout)

/-- The yield cause that holds: 1 pass or retirement, 2 Rest or Dormant, 3 loss area full, 0 none. -/
def yieldCause (s : State) (r : Reshape) : Nat :=
  if yieldsToPass s r then 1 else if 2 ≤ s.power.state then 2 else if lossPauses s r.source || lossPauses s r.target then 3 else 0

/-- REGION_COPY (R181, R182, R187): the next target row of the region, or the region's end; no further row starts once the copy is to stop. -/
def regionCopy (s : State) (k : Nat) : State :=
  let r := rsh s k
  match volDef s r.volume, layoutOf s r.target with
  | some d, some l =>
    if s.works.any (fun w => w.kind = .reshape k) then sourceCopy s k
    else if r.state ≠ 2 || r.regionDone || !r.reqs.isEmpty || yieldCause s r ≠ 0 || !(copyRegions s k).any (r.region ≤ ·) then s
    else
      let s := startRegion s k
      match (regionRows s k r.region)[r.row]? with
      | some row => copyRow s k row d l
      | none => modRsh s k (fun r => { r with regionDone := true })
  | _, _ => s

def execRegionCopy (slot : Nat) (s : State) : Host.Outcome State Fault Refusal :=
  .next (if slot < 4 then regionCopy s slot else s)

/-- The row of a copy is on disk. -/
def copyDone (s : State) (k : Nat) : State :=
  let s := modRsh s k (fun r => { r with row := r.row + 1 })
  let r := rsh s k
  if (regionRows s k r.region).length ≤ r.row then modRsh s k (fun r => { r with regionDone := true }) else s

/-! ### Boundaries (R178, R179, R187–R191) -/

/-- Ends the waiting requests: those of one action with a status, any others with Command, detail NoReshape. -/
def endReqs (s : State) (k action st detail : Nat) : State :=
  (rsh s k).reqs.foldl (fun s e =>
    let (a, d) := if e.1 = action then (st, detail) else (0x10, 0x0F)
    finishAt s e.2 s.now a d (if a = 0 then natLe 1 k else refusedSlot)) (modRsh s k (fun r => { r with reqs := [] }))

/-- A slot in Starting: the target table is built, or the acknowledged record takes effect. -/
def startBoundary (s : State) (k : Nat) : State :=
  let r := rsh s k
  match volDef s r.volume, layoutOf s r.source, layoutOf s r.target with
  | some d, some a, some b =>
    if !r.built then
      match buildTarget s d a b with
      -- the record names the region to copy next (R178)
      | some t => modRsh t k (fun r => { r with built := true, region := (copyRegions t k).headD 0 })
      | none =>
        let s := modRsh s k (fun _ => {})
        match r.tag with
        | some t => finishAt s t s.now 0x30 3 refusedSlot
        | none => s
    else if r.acked then
      let rs := copyRegions s k
      let s := modRsh (setRsh s k 2) k (fun r => { r with region := rs.headD 0, row := 0, total := rs.length, tag := none })
      let s := setVolume s r.volume (fun x => { x with state := 3, target := r.target })
      match r.tag with
      | some t => finishAt s t s.now 0 0 (natLe 1 k)
      | none => s
    else s
  | _, _, _ => s

/-- The rows of a layout are no longer among those that a volume's records must reach. -/
def forgetRows (s : State) (v layout : Nat) : State :=
  { s with ledger := { s.ledger with recs := s.ledger.recs.map (fun q => if q.volume = v then
      let rows := q.rows.filter (fun e => e.1 ≠ layout)
      { q with rows, state := if rows.isEmpty && !q.rows.isEmpty && (q.state = .landed || q.state = .destaging) then .onDisk else q.state } else q) } }

/-- Copying and dual landing stop; the target table stays until the next checkpoint (R191). -/
def cancelReshape (s : State) (k : Nat) : State :=
  let r := rsh s k
  let s := (s.works.filter (fun w => w.kind = .reshape k || (w.volume = r.volume && w.layout = r.target))).foldl (fun s w => dropWork s w.id) s
  let s := forgetRows s r.volume r.target
  let s : State := { s with
    reshapes := { s.reshapes with
      cancels := inc 0xFFFF s.reshapes.cancels
      barred := if r.device then (s.reshapes.barred ++ [r.volume]).eraseDups else s.reshapes.barred } }
  let s := match r.tag with
    | some t => finishAt s t s.now 0x10 0x0F refusedSlot
    | none => s
  let s := setVolume s r.volume (fun x => if x.state = 3 then { x with state := 2, target := 0 } else { x with target := 0 })
  dropDemand (modRsh (setRsh s k 6) k (fun r => { r with started := [], tag := none, ckptSeq := (s.ledger.newest.map (·.seq)).getD 0 })) (.reshape k)

/-- The volume switches to the target table (R189). -/
def switchVolume (s : State) (k : Nat) : State :=
  let r := rsh s k
  let s : State := { s with
    bands := s.bands.map (fun b => if b.volume = r.volume then { b with target := !b.target } else b)
    reshapes := { s.reshapes with switches := inc 0xFFFF s.reshapes.switches } }
  let s := setVolume s r.volume (fun x => { x with state := 2, layout := r.target })
  let s := (writeRec s { seq := 0, kind := 4, volume := r.volume, blocks := 2, body := Memory.ofBytes (natLe 1 r.target ++ [1]), bodyLen := 64 }).1
  dropDemand (modRsh (setRsh s k 5) k (fun r => { r with switchAt := s.now, switchCycle := s.mgmt.powerCycles })) (.reshape k)

/-- The next region after a finished one. -/
def nextRegion (s : State) (k : Nat) : State :=
  let r := rsh s k
  if r.regionDone && (r.state = 2 || r.state = 3 || r.state = 4) then
    let rest := (copyRegions s k).filter (fun x => r.region < x)
    modRsh s k (fun r => { r with done := r.done + 1, regionDone := false, row := 0, region := rest.headD (r.region + 1) })
  else s

/-- A checkpoint whose cut is at or after the switch has completed (R190). -/
def drained (s : State) (r : Reshape) : Bool :=
  s.ledger.newest.any (fun c => r.switchCycle < c.powerCycle || r.switchCycle = c.powerCycle && r.switchAt ≤ c.cutClose)

/-- The table that a volume does not use is given back, here and in the registry, and the slot is Idle (R190, R191). -/
def freeSlot (s : State) (k : Nat) : State :=
  let v := (rsh s k).volume
  let keep := fun (b : Band) => !(b.volume = v && b.target)
  let s : State := { s with bands := s.bands.filter keep, registry := { s.registry with bands := s.registry.bands.filter keep } }
  bookSlot (setVolume (modRsh s k (fun _ => { lastChange := s.now })) v (fun x => { x with target := 0 })) k

/-- Draining ends with the checkpoint of R190, Cancelling with the next one (R191). -/
def drainEnd (s : State) (k : Nat) : State :=
  let r := rsh s k
  if r.state = 5 && drained s r then freeSlot (forgetRows s r.volume r.source) k
  else if r.state = 6 && s.ledger.newest.any (fun c => r.ckptSeq < c.seq) then freeSlot s k
  else s

/-- Every region with a source band has been copied. -/
def copiedAll (s : State) (k : Nat) : Bool := !(rsh s k).regionDone && (copyRegions s k).all (· < (rsh s k).region)

/-- One slot at a boundary, in row 6 of R47. -/
def slotBoundary (s : State) (k : Nat) : State :=
  let s := sourceCopy (nextRegion s k) k
  let r := rsh s k
  let busy := s.works.any (fun w => w.kind = .reshape k)
  let asks := fun (a : Nat) => r.reqs.any (fun e => e.1 = a)
  if r.state = 0 then s
  else if asks 3 && r.state ≤ 4 then endReqs (cancelReshape s k) k 3 0 0
  else if r.state = 1 then startBoundary s k
  else if (r.state = 2 || r.state = 4) && copiedAll s k && !busy then
    -- Pause that falls with the switch finds no reshape (R193)
    endReqs (switchVolume s k) k 0 0 0
  else if asks 1 && (r.state = 2 || r.state = 4) && !busy then dropDemand (endReqs (modRsh (setRsh s k 3) k (fun r => { r with yieldCause := 0 })) k 1 0 0) (.reshape k)
  else if asks 2 && r.state = 3 then endReqs (setRsh s k 2) k 2 0 0
  else if r.state = 2 && yieldCause s r ≠ 0 && !busy then dropDemand (modRsh (setRsh s k 4) k (fun x => { x with yieldCause := yieldCause s r })) (.reshape k)
  else if r.state = 4 && yieldCause s r = 0 then modRsh (setRsh s k 2) k (fun x => { x with yieldCause := 0 })
  else drainEnd s k

def reshapeBoundary (s : State) : State := (List.range 4).foldl slotBoundary s

end Sys2Proof.Machine
end

