-- ==== Sys2Proof/Machine/Tellers.lean ====
section
/-! DEFINITION. Tellers: postings, deques, stealing, overruns and splits, parity errors, reserves, branch gating (08 R194–R216). -/

namespace Sys2Proof.Machine

/-! ### Places -/

def tslot (s : State) (x : Nat) : TellerSlot := tget {} s.tellers.slots x

def modSlot (s : State) (x : Nat) (f : TellerSlot → TellerSlot) : State :=
  { s with tellers := { s.tellers with slots := tmod {} s.tellers.slots x f } }

def tphys (s : State) (p : Nat) : Teller := tget {} s.tellers.phys p

/-- A physical teller takes a state. -/
def setTeller (s : State) (p st : Nat) (f : Teller → Teller) : State :=
  { s with tellers := { s.tellers with phys := tmod {} s.tellers.phys p (fun t => f { t with state := st, eventClose := s.now }) } }

def branchOf (x : Nat) : Nat := x / 8

def tbranch (s : State) (b : Nat) : Branch := tget {} s.tellers.branches b

def modBranch (s : State) (b : Nat) (f : Branch → Branch) : State :=
  { s with tellers := { s.tellers with branches := tmod {} s.tellers.branches b f } }

/-- The logical tellers of a branch. -/
def membersOfBranch (b : Nat) : List Nat := (List.range 8).map (· + 8 * b)

/-- A deque that may take an entry: its place is filled and fewer than 16 entries stand in it. -/
def hasRoom (s : State) (x : Nat) : Bool := (tslot s x).phys.isSome && decide ((tslot s x).deque.length < 16)

/-- A branch was used in this close (R216). -/
def touchBranch (s : State) (b : Nat) : State := modBranch s b (fun r => { r with idleSince := s.now })

/-- The sum of estimates of a branch (R206). -/
def branchLoad (s : State) (b : Nat) : Nat :=
  sumOf (fun x => sumOf (fun e => e.2.estimate) (tslot s x).deque + ((tslot s x).running.map (·.estimate)).getD 0) (membersOfBranch b)

/-- The first number of a list that has the least measure. -/
def leastBy (f : Nat → Nat) : List Nat → Option Nat
  | [] => none
  | a :: r => match leastBy f r with
    | some b => if f b < f a then some b else some a
    | none => some a

/-- The teller of a branch with the fewest entries and room. -/
def leastTeller (s : State) (xs : List Nat) : Option Nat := leastBy (fun x => (tslot s x).deque.length) (xs.filter (hasRoom s))

/-- The home of a new posting (R206, R211): the least loaded awake branch with room, else a gated branch, else none; a throttled branch takes none (R412). -/
def chooseHome (s : State) : Option Nat :=
  let open' := (List.range 16).filter (fun b => (membersOfBranch b).any (hasRoom s) && decide ((tbranch s b).reissue.length < 64) && (decide (b < 8) || !s.tellers.throttled))
  let awake := open'.filter (fun b => !(tbranch s b).gated)
  let pick := (leastBy (branchLoad s) awake).orElse (fun _ => open'.head?)
  pick.bind (fun b => leastTeller s (membersOfBranch b))

/-- A gated branch wakes: its tellers take postings 256 cycles later (R216). -/
def wakeBranch (s : State) (b : Nat) : State :=
  if (tbranch s b).gated then
    let s := modBranch s b (fun r => { r with gated := false, wakeAt := absCycle s + 256 })
    (membersOfBranch b).foldl (fun s x => match (tslot s x).phys with
      | some p => if (tphys s p).state = 1 then setTeller s p 0 id else s
      | none => s) s
  else s

/-- The boundary at which an entry pushed now first stands in its deque. -/
def pushMark (s : State) : Nat := if s.clock.cycle = 0 then s.now else s.now + 1

/-- A ready posting enters a deque: newest end, or oldest end when promoted (R206); without room it waits in the producer. -/
def pushPosting (s : State) (p : Posting) : State :=
  match chooseHome s with
  | none => { s with tellers := { s.tellers with producer := s.tellers.producer ++ [p] } }
  | some x =>
    let s := touchBranch (wakeBranch s (branchOf x)) (branchOf x)
    let e := (pushMark s, { p with home := x })
    let s : State := { s with tellers := { s.tellers with pushed := s.tellers.pushed.filter (fun d => d.1 = absCycle s) ++ [(absCycle s, e.2)] } }
    modSlot s x (fun t => { t with deque := if p.promoted then e :: t.deque else t.deque ++ [e] })

/-- The producer's waiting postings move while a deque has room. -/
def drainProducer (s : State) : State :=
  s.tellers.producer.foldl pushPosting { s with tellers := { s.tellers with producer := [] } }

/-! ### Descriptors (R197–R201) -/

/-- Bytes lo to lo+n of two extents meet. -/
def extentsMeet (a b n : Nat) : Bool := a < b + n && b < a + n

/-- R198. -/
def descriptorOk (p : Posting) : Bool :=
  let n := p.inputs.length
  let o := p.dests.length
  let bases := p.bases.filterMap id
  p.crcGood && 64 ≤ p.length && p.length ≤ 32768 && p.length % 64 = 0 && 1 ≤ n && n ≤ 8 && n * p.length ≤ 32768 && o ≤ 6 &&
  (p.inputs ++ p.dests ++ bases).all (fun a => a % 64 = 0) &&
  p.dests.all (fun d => !(p.inputs ++ bases).any (fun a => extentsMeet a d p.length)) &&
  (List.range o).all (fun i => (List.range o).all (fun j => i = j || !extentsMeet (p.dests.getD i 0) (p.dests.getD j 0) p.length))

/-- A posting of this descriptor is on its way: its pieces all finish before a successor runs (R210). -/
def unfinished (s : State) (index : Nat) : Bool :=
  let has := fun (p : Posting) => p.index = index
  s.tellers.producer.any has || s.tellers.atBoundary.any (fun e => has e.2) || s.tellers.branches.any (fun e => e.2.reissue.any has) ||
  s.tellers.slots.any (fun e => e.2.running.any has || e.2.deque.any (fun d => has d.2))

/-- Ready (R201): the predecessor has finished; the work, when it is one of the part's works, holds its hold, its reads are staged and its
plans are ready. What the courier has staged is the producer's to know (log entry 16). -/
def postingReady (s : State) (p : Posting) : Bool :=
  p.pred.all (fun q => s.tellers.finished.contains q && !unfinished s q) && (findWork s p.work).all (fun w => w.held && w.reads.isEmpty && plansHeld s w && decide (w.fromClose ≤ s.now))

/-- A work of step 3 goes back to step 2 of R111, with its postings: what they read is staged again (R222). -/
def restage (s : State) (id : Nat) : State :=
  match findWork s id with
  | none => s
  | some w => if w.step = 3 && w.held then planWork (modWork (dropPostings s id) id (fun w => { w with step := 2, staged := [], postsLeft := 0 })) id else s

/-- A work is abandoned and planned again: its hold is released, and its postings go (R198, R203). -/
def replan (s : State) (id : Nat) : State :=
  match findWork s id with
  | none => s
  | some w =>
    if w.step = 3 && w.held then
      let s := holdRelease (modWork (dropPostings s id) id (fun w => { w with step := 2, staged := [], postsLeft := 0 })) id
      if holdsFirst w then holdRequest s id else planWork s id
    else s

/-! ### The descriptor pool (R197, R218) -/

/-- The address of a descriptor: 2,048 of 256 bytes from 0x88_0000. -/
def descriptorAt (index : Nat) : Nat := 0x88_0000 + 256 * (index % 2048)

/-- The 256 bytes of a descriptor (R197). -/
def descriptorBytes (p : Posting) : List Byte :=
  let word := fun (o : Option Nat) => natLe 4 (o.getD 0xFFFF_FFFF)
  let body := natLe 1 p.program ++ [0] ++ natLe 1 p.inputs.length ++ natLe 1 (if p.program = 0 then p.dests.length else 1) ++ natLe 4 p.length ++ natLe 4 p.estimate ++
    natLe 4 p.hold ++ word p.pred ++ natLe 4 p.work ++ natLe 2 p.home ++ natLe 1 (b1 p.piece + 2 * b1 p.reissue + 4 * b1 p.promoted) ++ zeros 5 ++
    padTo 32 (p.inputs.flatMap (natLe 4)) ++ padTo 24 (p.dests.flatMap (natLe 4)) ++ ((List.range 6).flatMap (fun i => word (p.bases.getD i none))) ++
    padTo 96 ((List.range p.inputs.length).flatMap (fun i => (List.range 6).flatMap (fun j => natLe 2 ((p.coeffs.getD i []).getD j 0)))) ++ zeros 44
  let crc := crc32c body
  body ++ natLe 4 (if p.crcGood then crc.toNat else (~~~crc).toNat)

/-- A descriptor is written into the pool, for the tellers to read. -/
def writeDescriptor (s : State) (p : Posting) : State :=
  { s with scratch := { s.scratch with cells := Memory.writeN 0 s.scratch.cells (descriptorAt p.index) (descriptorBytes p) } }

/-- POSTING_PUSH (R198, R199, R206). -/
def postingPush (s : State) (p : Posting) : State :=
  let s := writeDescriptor s p
  if !descriptorOk p then
    replan (fire { s with tellers := { s.tellers with badDesc := inc 0xFFFF s.tellers.badDesc } } 0x0E 2 p.index [] false) p.work
  else if postingReady s p then
    let s : State := { s with tellers := { s.tellers with finished := s.tellers.finished.filter (· ≠ p.index) } }
    pushPosting (drainProducer s) { p with estimate := p.inputs.length * p.length / 2 }
  else s

def execPostingPush (p : Posting) (s : State) : Host.Outcome State Fault Refusal :=
  .next (postingPush s p)

/-! ### Placing reissues (R211) -/

/-- Where a reissue of a home goes: the home, else the sibling with the fewest entries, else nowhere. -/
def reissuePlace (s : State) (home : Nat) : Option Nat :=
  if hasRoom s home then some home
  else leastTeller s ((membersOfBranch (branchOf home)).filter (fun x => x ≠ home))

/-- One reissue placed at the oldest end; behind the piece given when that one stands there. -/
def placeReissue (s : State) (p : Posting) (behind : Option Posting) : State :=
  match reissuePlace s p.home with
  | none => modBranch s (branchOf p.home) (fun r => { r with reissue := r.reissue ++ [p] })
  | some x =>
    let e := (pushMark s, p)
    let s := touchBranch s (branchOf x)
    modSlot s x (fun t => { t with deque := match t.deque with
      | d :: r => if behind.any (fun q => q = d.2) then d :: e :: r else e :: d :: r
      | [] => [e] })

/-- A branch's reissue queue is emptied into its deques while one has room. -/
def drainReissue (s : State) (b : Nat) : State :=
  (tbranch s b).reissue.foldl (fun s p => placeReissue s p none) (modBranch s b (fun r => { r with reissue := [] }))

/-! ### Taking and stealing (R207–R209) -/

/-- A posting fits (R207). -/
def fits (s : State) (t extra : Nat) (p : Posting) : Bool := p.estimate + extra + t + s.ch (·.guard) 256 ≤ 25600

/-- A teller that may start a posting: in service, awake, and idle. -/
def canTake (s : State) (x : Nat) : Bool :=
  let k := tslot s x
  k.phys.any (fun p => (tphys s p).state = 0) && k.running.isNone && !(tbranch s (branchOf x)).gated && (tbranch s (branchOf x)).wakeAt ≤ absCycle s

/-- The entry that a teller may take of its own deque (R208), and the deque without it. -/
def ownEntry (s : State) (x t : Nat) : Option (Posting × List (Nat × Posting)) :=
  match (tslot s x).deque with
  | [] => none
  | e :: r =>
    if e.2.promoted || e.1 + 1 ≤ s.now then (if fits s t 0 e.2 then some (e.2, r) else none)
    else match (e :: r).getLast? with
      | some l => if fits s t 0 l.2 then some (l.2, (e :: r).dropLast) else none
      | none => none

/-- The programs of the control store (R196). -/
def knownProgram (s : State) (n : Nat) : Bool := s.tellers.store.contains n

/-- A parity error of logical teller x: its posting's output is discarded and reissued whole at the next boundary; at the limit the teller stops (R212, R213). -/
def parityError (s : State) (x : Nat) : State :=
  match (tslot s x).phys with
  | none => s
  | some p =>
    let t := tphys s p
    let ev := recent (s.ch (·.parityLog) 28) s.now t.parity ++ [s.now]
    let s : State := { s with tellers := { s.tellers with
      parity := inc 0xFFFF s.tellers.parity
      phys := tset s.tellers.phys p { t with parity := ev } } }
    let s := match (tslot s x).running with
      | none => s
      | some q =>
        let at' := (tslot s x).startAt
        let s := modSlot s x (fun k => { k with running := none })
        { s with tellers := { s.tellers with
          reissued := inc 0xFFFF s.tellers.reissued
          atBoundary := s.tellers.atBoundary ++ [(at', { q with reissue := true, promoted := true })] } }
    if s.ch (·.parityLimit) 3 ≤ ev.length && t.state ≤ 1 then setTeller s p 6 id else s

/-- PARITY_ERROR (R212, R213). -/
def execParityError (x : Nat) (s : State) : Host.Outcome State Fault Refusal :=
  .next (parityError s x)

/-- A posting starts on a teller; a program with no entry in the control store is a parity error (R196). -/
def startPosting (s : State) (x : Nat) (p : Posting) (delay : Nat) : State :=
  let s := modSlot (touchBranch s (branchOf x)) x (fun k => { k with running := some p, startAt := absCycle s + delay })
  if knownProgram s p.program then s else parityError s x

/-- An entry was taken of a deque: reissues of its branch move up, then the producer's postings (R211). -/
def afterTake (s : State) (b : Nat) : State := drainProducer (drainReissue (touchBranch s b) b)

/-! ### Draws of one cycle (R209) -/

/-- An entry drawn from the oldest end of a deque is noted, and draws of earlier cycles are forgotten. -/
def noteDraw (s : State) (v : Nat) (thief : Option Nat) (mark : Nat) (p : Posting) : State :=
  { s with tellers := { s.tellers with draws := s.tellers.draws.filter (fun d => d.cycle = absCycle s) ++ [⟨absCycle s, v, thief, mark, p⟩] } }

/-- The draw from a victim in this cycle. -/
def drawOf (s : State) (v : Nat) : Option Draw := s.tellers.draws.find? (fun d => d.cycle = absCycle s && d.victim = v)

/-- A draw of a thief is undone: the entry stands at the oldest end of its victim again, and the thief is idle. -/
def undoDraw (s : State) (d : Draw) : State :=
  match d.thief with
  | none => s
  | some y =>
    let s := modSlot (modSlot s y (fun k => { k with running := none })) d.victim (fun k => { k with deque := (d.mark, d.posting) :: k.deque })
    let near := branchOf y = branchOf d.victim
    { s with tellers := { s.tellers with
      draws := s.tellers.draws.filter (· ≠ d)
      stealsBranch := if near then s.tellers.stealsBranch - 1 else s.tellers.stealsBranch
      stealsCross := if near then s.tellers.stealsCross else s.tellers.stealsCross - 1 } }

/-- The oldest entry of a victim as a thief sees it: the deque as it was before the pushes of this cycle. -/
def oldestSeen (s : State) (v : Nat) : Option (Nat × Posting) :=
  (tslot s v).deque.find? (fun e => !s.tellers.pushed.any (fun d => d.1 = absCycle s && d.2 = e.2))

/-- The first victim of a list that thief x may draw from in this cycle: its oldest entry fits, and neither its owner nor a thief of a lower
number has drawn from it (R208, R209). -/
def victim (s : State) (x t extra : Nat) (vs : List Nat) : Option Nat :=
  vs.find? (fun v => match drawOf s v with
    | some d => d.thief.any (fun y => x < y) && fits s t extra d.posting
    | none => (oldestSeen s v).any (fun e => fits s t extra e.2))

/-- The victims inside and outside the thief's branch, in probe order. -/
def siblingsOf (x : Nat) : List Nat := (List.range 7).map (fun i => 8 * branchOf x + (x % 8 + i + 1) % 8)

def othersOf (s : State) (x : Nat) : List Nat :=
  (List.range 15).flatMap (fun i =>
    let c := (branchOf x + i + 1) % 16
    if (tbranch s c).gated then [] else membersOfBranch c)

/-- A thief takes the oldest entry of a victim that it sees. -/
def stealFrom (s : State) (x v delay : Nat) : State :=
  match oldestSeen s v with
  | none => s
  | some e =>
    let s := noteDraw (modSlot s v (fun k => { k with deque := k.deque.erase e })) v (some x) e.1 e.2
    let s := afterTake (startPosting s x e.2 delay) (branchOf v)
    { s with tellers := { s.tellers with
      stealsBranch := if delay = 8 then inc 0xFFFF s.tellers.stealsBranch else s.tellers.stealsBranch
      stealsCross := if delay = 8 then s.tellers.stealsCross else inc 0xFFFF s.tellers.stealsCross } }

/-- R208. A thief of a higher number that drew the same entry in this cycle loses it and goes on to its next victim (R209). -/
def stealRow : Nat → State → Nat → Nat → State
  | 0, s, _, _ => s
  | fuel + 1, s, x, t =>
    if canTake s x && (ownEntry s x t).isNone && t % 16 = 0 then
      let found := match victim s x t 0 (siblingsOf x) with
        | some v => some (v, 8)
        | none => (victim s x t 64 (othersOf s x)).map (fun v => (v, 64))
      match found with
      | none => s
      | some (v, delay) => match drawOf s v with
        | none => stealFrom s x v delay
        | some d => match d.thief with
          | some y => stealRow fuel (stealFrom (undoDraw s d) x v delay) y t
          | none => s
    else s

/-- STEAL (R208, R209). -/
def execSteal (x t : Nat) (s : State) : Host.Outcome State Fault Refusal :=
  .next (if x < 128 && t < 25600 then stealRow 128 (s.at t) x t else s)

/-- A take of the own deque; a thief that drew the same oldest entry in this cycle loses it to the owner (R208, R209). -/
def postingTake (s : State) (x t : Nat) : State :=
  if !canTake s x then s
  else
    let lost := (drawOf s x).filter (fun d => d.thief.isSome && (ownEntry (undoDraw s d) x t).any (fun e => e.1 = d.posting))
    let s := match lost with
      | some d => undoDraw s d
      | none => s
    match ownEntry s x t with
    | none => s
    | some (p, rest) =>
      let oldest := (tslot s x).deque.head?.filter (fun e => e.2 = p)
      let s := modSlot s x (fun k => { k with deque := rest })
      let s := match oldest with
        | some e => noteDraw s x none e.1 p
        | none => s
      let s := afterTake (startPosting s x p 8) (branchOf x)
      match lost.bind (·.thief) with
      | some y => stealRow 128 s y t
      | none => s

/-- POSTING_TAKE (R208): teller x at engine cycle t. -/
def execPostingTake (x t : Nat) (s : State) : Host.Outcome State Fault Refusal :=
  .next (if x < 128 && t < 25600 then postingTake (s.at t) x t else s)

/-! ### What a posting computes (R195, R196) -/

/-- The sum of coefficient · input for output j, over the whole length. -/
def outputSum (s : State) (p : Posting) (j : Nat) : List Byte :=
  combine p.length (((List.range p.inputs.length).zip p.inputs).map (fun e =>
    (BitVec.ofNat 16 ((p.coeffs.getD e.1 []).getD j 0), Memory.readN 0 s.scratch.cells e.2 p.length)))

/-- Combine: each destination is written. -/
def runCombine (s : State) (p : Posting) : State :=
  let outs := ((List.range p.dests.length).zip p.dests).map (fun e =>
    let sum := outputSum s p e.1
    (e.2, match p.bases.getD e.1 none with
      | some b => xorBytes sum (Memory.readN 0 s.scratch.cells b p.length)
      | none => sum))
  { s with scratch := { s.scratch with
      cells := outs.foldl (fun m o => Memory.writeN 0 m o.1 o.2) s.scratch.cells
      poisoned := s.scratch.poisoned.filter (fun w => !outs.any (fun o => o.1 / 64 ≤ w && w < (o.1 + p.length) / 64)) } }

/-- The byte offset of the first nonzero symbol. -/
def firstNonzero : Nat → List Byte → Option Nat
  | o, a :: b :: r => if a = 0 && b = 0 then firstNonzero (o + 2) r else some o
  | o, [a] => if a = 0 then none else some o
  | _, [] => none

/-- Check's result word. -/
def checkWord (s : State) (p : Posting) : Nat := ((firstNonzero 0 (outputSum s p 0)).map (· + 1)).getD 0

/-- The column c with Δq = α^c · Δp at every symbol where either is nonzero (R165). -/
def locateColumn (dp dq : List Byte) : Option Nat :=
  if dp.all (· = 0) then none else (List.range 240).find? (fun c => gfScale (gfAlpha c) dp = dq)

/-- Locate's result word. -/
def locateWord (s : State) (p : Posting) : Nat :=
  (locateColumn (Memory.readN 0 s.scratch.cells (p.inputs.getD 0 0) p.length) (Memory.readN 0 s.scratch.cells (p.inputs.getD 1 0) p.length)).getD 0xFFFF

/-- A word that the posting reads is poisoned. -/
def readsPoison (s : State) (p : Posting) : Bool :=
  (p.inputs ++ p.bases.filterMap id).any (fun a => s.scratch.poisoned.any (fun w => a / 64 ≤ w && w < (a + p.length) / 64))

/-- The completion pulse: the work counts its posting off, and step 4 follows the last one. -/
def pulse (s : State) (id : Nat) : State :=
  match findWork s id with
  | none => s
  | some w =>
    if w.step ≠ 3 || w.postsLeft = 0 then s
    else
      let s := modWork s id (fun w => { w with postsLeft := w.postsLeft - 1 })
      if w.postsLeft = 1 then toStepFour s id else s

/-- The running posting of teller x finishes at the current cycle. -/
def postingFinish (s : State) (x : Nat) : State :=
  let k := tslot s x
  match k.running with
  | none => s
  | some p =>
    if absCycle s < k.startAt + p.estimate then s
    else
      let s := modSlot (touchBranch s (branchOf x)) x (fun k => { k with running := none })
      let s : State := { s with tellers := { s.tellers with busyCycles := s.tellers.busyCycles + (absCycle s - k.startAt) } }
      if readsPoison s p then restage s p.work
      else
        let s : State := { s with tellers := { s.tellers with postings := inc 0xFFFFFFFF s.tellers.postings, finished := (s.tellers.finished ++ [p.index]).eraseDups } }
        let s := if p.program = 0 then runCombine s p else
          { s with tellers := { s.tellers with results := s.tellers.results ++ [(p.work, if p.program = 1 then checkWord s p else locateWord s p)] } }
        pulse s p.work

/-- POSTING_FINISH (R202). -/
def execPostingFinish (x t : Nat) (s : State) : Host.Outcome State Fault Refusal :=
  .next (if x < 128 && t < 25600 then postingFinish (s.at t) x else s)

/-! ### Overruns (R65, R210) -/

/-- Piece of a posting: `len` bytes from an offset of every extent. -/
def pieceOf (p : Posting) (off len : Nat) : Posting :=
  { p with
    inputs := p.inputs.map (· + off), dests := p.dests.map (· + off), bases := p.bases.map (fun b => b.map (· + off))
    length := len, estimate := p.inputs.length * len / 2, piece := true, reissue := true, promoted := true }

/-- An overrun posting is cut in two, or reissued whole at 64 bytes, and placed. -/
def splitPosting (s : State) (p : Posting) : State :=
  if p.length ≤ 64 then placeReissue s { p with reissue := true, promoted := true } none
  else
    let l := 64 * ceilDiv p.length 128
    let a := pieceOf p 0 l
    let s := placeReissue s a none
    let s := placeReissue s (pieceOf p l (p.length - l)) (some a)
    let s := modWork s p.work (fun w => if w.step = 3 && 0 < w.postsLeft then { w with postsLeft := w.postsLeft + 1 } else w)
    { s with tellers := { s.tellers with splits := inc 0xFFFF s.tellers.splits } }

/-- The postings that are pushed anew at a boundary, oldest first by the cycle at which they had started: reissues, and postings that still
run, which are overruns (R211, R212, R221; DESIGN CHOICE, log entry 37). -/
def comingBack (s : State) : List (Nat × Posting × Bool) :=
  let late := (s.tellers.slots.filterMap (fun e => e.2.running.map (fun p => (e.2.startAt, p, true))))
  (s.tellers.atBoundary.map (fun e => (e.1, e.2, false)) ++ late).mergeSort (fun a b => decide (a.1 ≤ b.1))

/-- Boundary: waiting reissues move up, then discarded postings and overruns are pushed, then the producer's postings (R210, R211). -/
def overrunBoundary (s : State) : State :=
  let back := comingBack s
  let n := countIf (fun (e : Nat × Posting × Bool) => e.2.2) back
  let s : State := { s with tellers := { s.tellers with
    atBoundary := []
    slots := s.tellers.slots.map (fun e => (e.1, { e.2 with running := none }))
    overruns := hold 0xFFFF (s.tellers.overruns + n)
    lastOverrun := if n = 0 then s.tellers.lastOverrun else s.now - 1 } }
  let s := (List.range 16).foldl drainReissue s
  drainProducer (back.foldl (fun s e => if e.2.2 then splitPosting s e.2.1 else placeReissue s e.2.1 none) s)

/-! ### Retirement and reserves (R213–R215, R455) -/

/-- A self-test may start in this device state (R454). -/
def testsRun (s : State) : Bool := s.power.state < 2

/-- Reserve tellers waiting or under test that are not yet given a place. -/
def testing (s : State) : List Nat :=
  (s.tellers.phys.filter (fun e => e.2.state = 3 && !s.tellers.admitDue.any (fun d => d.1 = e.1))).map (·.1)

/-- The reserves that have not failed a test. -/
def reserveTellers (s : State) : List Nat := (s.tellers.phys.filter (fun e => e.2.state = 2)).map (·.1)

/-- The reserve kind is used up: its last one was admitted or failed (R214, R456). -/
def tellersExhausted (s : State) (p : Nat) : State :=
  if tellersLeft s = 0 then fire (history s 1 7 0 p noLogical) 0x0E 3 p [] true else s

/-- TELLER_SELF_TEST (R214): the lowest-numbered reserve under test passes or fails. -/
def tellerSelfTest (s : State) (pass : Bool) : State :=
  match minOf (testing s) with
  | none => s
  | some p =>
    if pass then
      match s.tellers.vacant.filter (fun x => !s.tellers.admitDue.any (fun d => d.2 = x)) with
      | x :: _ => { s with tellers := { s.tellers with admitDue := s.tellers.admitDue ++ [(p, x)] } }
      | [] => s
    else tellersExhausted (history (setTeller s p 4 id) 1 3 7 p noLogical) p

def execTellerSelfTest (pass : Bool) (s : State) : Host.Outcome State Fault Refusal :=
  .next (tellerSelfTest s pass)

/-- A reserve teller takes its logical number at its boundary. -/
def admitTeller (s : State) (d : Nat × Nat) : State :=
  let s := setTeller s d.1 (b1 (tbranch s (branchOf d.2)).gated) (fun t => { t with logical := d.2 })
  let s := modSlot s d.2 (fun k => { k with phys := some d.1 })
  let s : State := { s with tellers := { s.tellers with vacant := s.tellers.vacant.filter (· ≠ d.2) } }
  tellersExhausted (history s 1 2 0 d.1 d.2) d.1

/-- A stopping teller is retired: its running posting is an overrun, its entries move to siblings or back to the producer (R213, R214). -/
def retireTeller (s : State) (p : Nat) : State :=
  let x := (tphys s p).logical
  let k := tslot s x
  let s := setTeller s p 5 id
  let s := modSlot s x (fun k => { k with phys := none, deque := [] })
  let s : State := { s with tellers := { s.tellers with vacant := (s.tellers.vacant ++ [x]).mergeSort (fun a b => decide (a ≤ b)) } }
  -- a moved entry stands at the newest end of its new deque (DESIGN CHOICE, log entry 37)
  let s := k.deque.foldl (fun s e => match leastTeller s ((membersOfBranch (branchOf x)).filter (· ≠ x)) with
    | some v => modSlot s v (fun t => { t with deque := t.deque ++ [e] })
    | none => { s with tellers := { s.tellers with producer := s.tellers.producer ++ [e.2] } }) s
  history s 1 1 1 p x

/-- Tellers in row 3 of R47: admissions first, then retirements, then the self-tests of the close that opens. -/
def tellerBoundary (s : State) : State :=
  let due := s.tellers.admitDue
  let s := due.foldl admitTeller { s with tellers := { s.tellers with admitDue := [] } }
  let stop := (s.tellers.phys.filter (fun e => e.2.state = 6)).map (·.1)
  let s := stop.foldl retireTeller s
  if testsRun s then
    let want := s.tellers.vacant.length - (testing s).length
    ((reserveTellers s).take want).foldl (fun s p => setTeller s p 3 id) s
  else s

/-! ### Branch power (R216) -/

/-- A branch has nothing queued or running. -/
def branchIdle (s : State) (b : Nat) : Bool :=
  (tbranch s b).reissue.isEmpty && (membersOfBranch b).all (fun x => (tslot s x).deque.isEmpty && (tslot s x).running.isNone)

/-- A branch is gated. -/
def gateBranch (s : State) (b : Nat) : State :=
  let s := modBranch s b (fun r => { r with gated := true })
  (membersOfBranch b).foldl (fun s x => match (tslot s x).phys with
    | some p => if (tphys s p).state = 0 then setTeller s p 1 id else s
    | none => s) s

/-- BRANCH_GATING (R216): in Trim, after the branch idle time. -/
def execBranchGating (b : Nat) (s : State) : Host.Outcome State Fault Refusal :=
  .next (if s.power.state = 1 && b < 16 && !(tbranch s b).gated && branchIdle s b && (tbranch s b).idleSince + s.ch (·.branchIdle) 125 ≤ s.now
    then gateBranch s b else s)

/-- No posting runs or is queued (R216, R254). -/
def postingsIdle (s : State) : Bool :=
  s.tellers.producer.isEmpty && s.tellers.atBoundary.isEmpty && (List.range 16).all (branchIdle s)

end Sys2Proof.Machine
end

