-- ==== Sys2Proof/Machine/Scratch.lean ====
section
/-! DEFINITION. Scratch memory: ports and banks in one scratch cycle, ECC, bank retirement and power, the sweep (08 R217–R226). -/

namespace Sys2Proof.Machine

def bank (s : State) (b : Nat) : Bank := tget {} s.scratch.banks b

def modBank (s : State) (b : Nat) (f : Bank → Bank) : State :=
  { s with scratch := { s.scratch with banks := tmod {} s.scratch.banks b f } }

/-- The physical bank of a logical bank (R217). -/
def bankOf (s : State) (k : Nat) : Option Nat := (s.scratch.banks.find? (fun e => e.2.mapped && e.2.logical = k)).map (·.1)

/-! ### Retirement (R222, R223) -/

/-- A bank's retirement is decided: copied in the next close, replaced at the boundary after it. A reserve being filled is retired at once and its copy starts again (R455). -/
def decideBank (s : State) (b cause : Nat) : State :=
  if s.scratch.copies.any (fun c => c.new = some b) then
    let s := modBank s b (fun k => { k with retired := true, state := 2 })
    let s : State := { s with scratch := { s.scratch with
      copies := s.scratch.copies.map (fun c => if c.new = some b then { c with new := none, due := s.now + 2 } else c) } }
    history s 2 1 cause b noLogical
  else if (bank s b).mapped && !(bank s b).retired && !s.scratch.copies.any (fun c => c.old = b) then
    { s with scratch := { s.scratch with copies := s.scratch.copies ++ [⟨b, none, s.now + 2, cause⟩] } }
  else s

/-- Corrected errors above the limit. -/
def bankOverLimit (s : State) (b : Nat) : Bool :=
  s.ch (·.bankLimit) 8 < (recent (s.ch (·.bankLog) 24) s.now (bank s b).corrected).length

/-- BANK_RETIREMENT (R222, R223): an uncorrectable error of a bank, or its corrected errors above the limit. -/
def execBankRetirement (b : Nat) (s : State) : Host.Outcome State Fault Refusal :=
  .next (if b < 264 then decideBank s b (if bankOverLimit s b then 1 else 2) else s)

/-- Reserve banks that may be filled. -/
def reserveBanks (s : State) : List Nat :=
  ((List.range 264).filter (fun b => let k := bank s b; !k.mapped && !k.retired && k.state = 2 && !s.scratch.copies.any (fun c => c.new = some b)))

/-- A copy whose boundary has come: the logical bank is mapped to the reserve, and the old bank turned Off. -/
def remapBank (s : State) (c : BankCopy) : State :=
  match c.new with
  | none => s
  | some n =>
    let k := (bank s c.old).logical
    let s := modBank s n (fun x => { x with state := 0, mapped := true, logical := k })
    let s := modBank s c.old (fun x => { x with state := 2, mapped := false, retired := true })
    let s : State := { s with scratch := { s.scratch with copies := s.scratch.copies.filter (fun d => d.old ≠ c.old) } }
    let s := history (history s 2 1 c.cause c.old k) 2 2 0 n k
    if banksLeft s = 0 then fire (history s 2 7 0 n noLogical) 0x0E 4 n [] true else s

/-- Banks in row 3 of R47: remaps that are due, then copies that begin; with no reserve left the unit halts (R54, R223). -/
def bankBoundary (s : State) : State :=
  let s := (s.scratch.copies.filter (fun c => c.new.isSome && c.due ≤ s.now)).foldl remapBank s
  if testsRun s then
    (s.scratch.copies.filter (fun c => c.new.isNone)).foldl (fun s c => match reserveBanks s with
      | n :: _ => { s with scratch := { s.scratch with copies := s.scratch.copies.map (fun d => if d.old = c.old then { d with new := some n, due := s.now + 1 } else d) } }
      | [] => { s with scratch := { s.scratch with noReserve := true } }) s
  else s

/-! ### One scratch cycle (R219–R222) -/

/-- The 64-byte words that an access touches. -/
def accWords (a : ScrAccess) : List Nat :=
  let len := max 1 (match a.write with
    | some d => d.length
    | none => a.len)
  ((List.range ((a.addr + len - 1) / 64 + 1 - a.addr / 64)).map (fun i => (a.addr / 64 + i) % 2 ^ 20)).take 2

/-- The physical banks that an access touches. -/
def accBanks (s : State) (a : ScrAccess) : List Nat := (accWords a).filterMap (fun w => bankOf s (w % 256))

/-- A teller or management-complex port. -/
def accFirst (a : ScrAccess) : Bool := a.port < 138

/-- Grants in an order: an access is served when every bank it touches has a free port; both banks or neither (R219). -/
def grantAccesses (s : State) : List ScrAccess → List ScrAccess → List ScrAccess
  | [], served => served
  | a :: r, served =>
    let load := fun b => countIf (fun x => (accBanks s x).contains b) served
    if !served.contains a && (accBanks s a).all (fun b => load b < 2) then grantAccesses s r (served ++ [a]) else grantAccesses s r served

/-- The areas of scratch (R218): the tills, 64 KiB for each logical teller; the self-test area, the descriptor pool and the staging behind them. -/
inductive ScrArea where
  | till (teller : Nat) | selfTest | descriptors | staging
  deriving DecidableEq, Repr

def scrArea (addr : Nat) : ScrArea :=
  if addr < 0x80_0000 then .till (addr / 65536)
  else if addr < 0x88_0000 then .selfTest
  else if addr < 0x90_0000 then .descriptors
  else .staging

/-- The logical teller that a physical teller's port serves. -/
def portTeller (s : State) (port : Nat) : Option Nat := (s.tellers.slots.find? (fun e => e.2.phys = some port)).map (·.1)

/-- A till is reached by its own teller and the management complex alone (R218); another port's access there is not served (DESIGN CHOICE, log entry 37). -/
def mayTouch (s : State) (a : ScrAccess) : Bool :=
  (accWords a).all (fun w => match scrArea (64 * w) with
    | .till x => a.port = 136 || a.port = 137 || a.port < 136 && portTeller s a.port = some x
    | _ => true)

/-- The ports that want a bank, in turn behind the one that it served last (R220). -/
def bankTurn (s : State) (b : Nat) (accs : List ScrAccess) : List ScrAccess :=
  let mine := (accs.filter (fun a => (accBanks s a).contains b)).mergeSort (fun x y => decide (x.port ≤ y.port))
  mine.filter (fun a => (bank s b).lastPort < a.port) ++ mine.filter (fun a => a.port ≤ (bank s b).lastPort)

/-- The accesses served in this cycle (R220): at each bank the teller and management ports in turn, then courier ports where at most one of
those wants the bank, the lowest port first (DESIGN CHOICE, log entry 37). -/
def servedAccesses (s : State) (accs : List ScrAccess) : List ScrAccess :=
  let ready := accs.filter (fun a => mayTouch s a && (accBanks s a).length = (accWords a).length && (accBanks s a).all (fun b => (bank s b).state = 0))
  let banks := (ready.flatMap (accBanks s)).eraseDups
  let first := banks.foldl (fun served b => grantAccesses s (bankTurn s b (ready.filter accFirst)) served) []
  let wants := fun b => countIf (fun a => accFirst a && (accBanks s a).contains b) accs
  let courier := (ready.filter (fun a => !accFirst a && a.port < 154 && (accBanks s a).all (fun b => wants b ≤ 1))).mergeSort (fun a b => decide (a.port ≤ b.port))
  grantAccesses s courier first

/-- The bytes that a write stores, by address. -/
def accBytes (a : ScrAccess) : List Nat :=
  match a.write with
  | some d => ((List.range d.length).zip d).filterMap (fun e => e.2.map (fun _ => a.addr + e.1))
  | none => []

/-- A stored write of a lower-numbered port meets an enabled byte of this one: the word in which they meet (R221). -/
def meetsAt (stored : List ScrAccess) (a : ScrAccess) : Option Nat :=
  ((accBytes a).find? (fun n => stored.any (fun x => (accBytes x).contains n))).map (fun n => n % 2 ^ 26 / 64)

/-- The writes of one cycle in port order: those stored, and those lost, each with the word in which it met a stored one (R221). -/
def sortWrites : List ScrAccess → List ScrAccess → List (ScrAccess × Nat) → List ScrAccess × List (ScrAccess × Nat)
  | [], stored, lost => (stored, lost)
  | a :: r, stored, lost => match meetsAt stored a with
    | some w => sortWrites r stored (lost ++ [(a, w)])
    | none => sortWrites r (stored ++ [a]) lost

/-- A collision is counted in the bank that serves the word (R221). -/
def countCollision (s : State) (word : Nat) : State :=
  (bankOf s (word % 256)).toList.foldl (fun s b => modBank s b (fun k => { k with collisions := inc 0xFFFF k.collisions })) s

/-- A port receives WriteLost, counted in the bank of the word in question (R221). -/
def loseWrite (s : State) (a : ScrAccess) (word : Nat) : State :=
  let s := countCollision s word
  let s : State := { s with scratch := { s.scratch with lost := inc 0xFFFF s.scratch.lost, lostPorts := s.scratch.lostPorts ++ [a.port] } }
  if a.port < 136 then
    match portTeller s a.port with
    | none => s
    | some x => match (tslot s x).running with
      | none => s
      | some q =>
        let at' := (tslot s x).startAt
        let s := modSlot s x (fun k => { k with running := none })
        { s with tellers := { s.tellers with
          writeLost := inc 0xFFFF s.tellers.writeLost
          atBoundary := s.tellers.atBoundary ++ [(at', { q with reissue := true, promoted := true })] } }
  else if 138 ≤ a.port && a.port < 154 then
    let n := a.port - 138
    if (chan s n).state = 1 || (chan s n).state = 3 then slotEnd s n (some 4) else s
  else s

/-- A port reads a poisoned word (R222): a posting is discarded and its work plans again; a courier slot is marked. -/
def readPoison (s : State) (a : ScrAccess) : State :=
  if a.port < 136 then
    match portTeller s a.port with
    | none => s
    | some x => match (tslot s x).running with
      | none => s
      | some q => restage (modSlot s x (fun k => { k with running := none })) q.work
  else if 138 ≤ a.port && a.port < 154 then
    let n := a.port - 138
    if (chan s n).state = 1 || (chan s n).state = 3 then slotEnd s n (some 2) else s
  else s

/-- What the ECC of the words read finds (R222): 1 and 2 a corrected and an uncorrectable error of the first word, 3 and 4 of the second. -/
def eccEvent (s : State) (a : ScrAccess) : State :=
  let k := if a.ecc ≤ 2 then 0 else 1
  match (accWords a)[k]?, (accBanks s a)[k]? with
  | some w, some b =>
    if a.ecc % 2 = 1 then
      let s := modBank s b (fun k => { k with corrected := recent (s.ch (·.bankLog) 24) s.now k.corrected ++ [s.now] })
      let s : State := { s with scratch := { s.scratch with corrected := inc 0xFFFF s.scratch.corrected } }
      if bankOverLimit s b then decideBank s b 1 else s
    else if a.ecc = 2 || a.ecc = 4 then
      decideBank { s with scratch := { s.scratch with
        poisonedCount := inc 0xFFFF s.scratch.poisonedCount
        poisoned := (s.scratch.poisoned ++ [w]).eraseDups } } b 2
    else s
  | _, _ => s

/-- A write is stored; a word written whole is no longer poisoned. -/
def storeAccess (s : State) (a : ScrAccess) : State :=
  match a.write with
  | none => s
  | some d => { s with scratch := { s.scratch with
      cells := Memory.writeLanes 0 s.scratch.cells a.addr d
      poisoned := s.scratch.poisoned.filter (fun w => !(List.range 64).all (fun i => (accBytes a).contains (64 * w + i))) } }

/-- One access moves up to 64 bytes (R219). -/
def clipAccess (a : ScrAccess) : ScrAccess := { a with write := a.write.map (·.take 64), len := min 64 a.len }

/-- SCRATCH_ACCESS (R219–R222): the accesses of one scratch cycle. -/
def scratchCycle (s : State) (wanted : List ScrAccess) : State :=
  let accs := wanted.map clipAccess
  let served := servedAccesses s accs
  let waits := accs.any (fun a => !accFirst a && a.port < 154 && !served.any (fun x => x.port = a.port))
  -- an access to a bank in Retention brings it back, but in Rest and Dormant (R224)
  let sleeping := if s.power.state ≤ 1 then (accs.flatMap (accBanks s)).filter (fun b => (bank s b).state = 1) else []
  let reads := served.filter (fun a => a.write.isNone)
  let data := reads.map (fun a => (a.port, Memory.readN 0 s.scratch.cells a.addr a.len))
  let s : State := { s with scratch := { s.scratch with
    waits := if waits then inc 0xFFFFFFFF s.scratch.waits else s.scratch.waits
    lastReads := data, lostPorts := [] } }
  let s := (served.filter accFirst).foldl (fun s a => (accBanks s a).foldl (fun s b => modBank s b (fun k => { k with lastPort := a.port })) s) s
  let s := sleeping.foldl (fun s b => modBank s b (fun k => { k with state := 0 })) s
  let s := reads.foldl eccEvent s
  let s := (reads.filter (fun a => (accWords a).any s.scratch.poisoned.contains)).foldl readPoison s
  let (stored, lost) := sortWrites ((served.filter (fun a => a.write.isSome)).mergeSort (fun a b => decide (a.port ≤ b.port))) [] []
  lost.foldl (fun s e => loseWrite s e.1 e.2) (stored.foldl storeAccess s)

def execScratchAccess (accs : List ScrAccess) (s : State) : Host.Outcome State Fault Refusal :=
  .next (scratchCycle s accs)

/-! ### Bank power (R224) -/

/-- BANK_RETENTION (R224): in Trim, a mapped bank not accessed for 256 scratch cycles. -/
def execBankRetention (b : Nat) (s : State) : Host.Outcome State Fault Refusal :=
  .next (if s.power.state = 1 && b < 264 && (bank s b).mapped && (bank s b).state = 0 then modBank s b (fun k => { k with state := 1 }) else s)

/-- Every mapped bank takes a state. -/
def setMapped (s : State) (st : Nat) : State :=
  { s with scratch := { s.scratch with banks := s.scratch.banks.map (fun e => if e.2.mapped then (e.1, { e.2 with state := st }) else e) } }

/-! ### The sweep (R225, R226) -/

/-- The next step: banks 0 to 255 for each group of 16 words. -/
def advanceSweep (s : State) : State :=
  let c := s.scratch
  if c.sweepBank < 255 then { s with scratch := { c with sweepBank := c.sweepBank + 1 } }
  else if c.sweepRow < 255 then { s with scratch := { c with sweepBank := 0, sweepRow := c.sweepRow + 1 } }
  else { s with scratch := { c with sweepBank := 0, sweepRow := 0, passes := c.passes + 1, passClose := s.now } }

/-- SWEEP_STEP (R225, R226): at cycle t, with the ports that need the bank during the step, and the word at which the march finds a fault. -/
def sweepStep (s : State) (t : Nat) (needed : List Nat) (faultAt : Option Nat) : State :=
  let s := s.at t
  if !s.quiet || s.closers.entry ≠ 2 || 25600 < s.clock.cycle + 340 || 2 ≤ s.power.state || s.scratch.swept then s
  else
    match bankOf s s.scratch.sweepBank with
    | none => advanceSweep s
    | some b =>
      if s.scratch.copies.any (fun c => c.old = b && c.new.isSome) then advanceSweep s
      else
        let s : State := { s with scratch := { s.scratch with swept := true } }
        if needed.any (fun p => p < 138) then { s with scratch := { s.scratch with yields := inc 0xFFFF s.scratch.yields } }
        else match faultAt with
          | none => advanceSweep s
          | some _ => decideBank (advanceSweep { s with scratch := { s.scratch with failures := inc 0xFF s.scratch.failures } }) b 3

def execSweepStep (t : Nat) (needed : List Nat) (faultAt : Option Nat) (s : State) : Host.Outcome State Fault Refusal :=
  .next (sweepStep s t needed faultAt)

/-- The close ends with no step (TEL_SWEEP.SKIPPED). -/
def sweepBoundary (s : State) : State :=
  { s with scratch := { s.scratch with
    skippedSweeps := if s.scratch.swept || !testsRun s then s.scratch.skippedSweeps else inc 0xFFFF s.scratch.skippedSweeps
    swept := false } }

end Sys2Proof.Machine
end

