-- ==== Sys2Proof/Machine/Ledger.lean ====
section
/-! DEFINITION. The ledger: landing and release of records, destage, checkpoints, regions, resynchronisation, wear and faults (05 R101–R132, 17 R459). -/

namespace Sys2Proof.Machine

/-! ### Landing (R57, R101, R107, R114, R158) -/

/-- Every block of a record is covered by landed records newer than it (R107). -/
def isCovered (recs : List Rec) (r : Rec) : Bool :=
  match r.range with
  | none => false
  | some (lba, n) =>
    let newer := recs.filter (fun q => q.visible && recLt r q && q.volume = r.volume)
    0 < n && (List.range n).all (fun i => newer.any (fun q => q.coversBlock r.volume (lba + i)))

/-- Older landed write-data records that are covered whole become Superseded and are not destaged. -/
def supersede (s : State) : State :=
  { s with ledger := { s.ledger with recs := s.ledger.recs.map (fun r =>
    if r.kind = 2 && r.state = .landed && !r.superseded && isCovered s.ledger.recs r then { r with superseded := true, rows := [] } else r) } }

/-- What changes with a landed range: loss entries under it go, and the DRAM cache no longer holds it. -/
def landRange (s : State) (v lba n : Nat) : State :=
  { s with
    degrade := { s.degrade with loss := trimLoss v lba n s.degrade.loss }
    cache := s.cache.filter (fun e => !(e.1 = v && lba ≤ e.2.1 && e.2.1 < lba + n)) }

/-- One record lands: visible from now on, with the rows that it must reach. -/
def landRec (s : State) (seq : Nat) : State :=
  match findRec s seq with
  | none => s
  | some r =>
    let s := modRec s seq (fun r => { r with state := .landed, landedAt := s.now })
    let s : State := { s with
      bands := s.bands.map (fun b => if b.pendingRec = some seq then { b with pendingRec := none } else b) }
    let s := match r.range with
      | none => s
      | some (lba, n) =>
        let rows := landingRows s r.volume lba n
        let s := modRec (landRange s r.volume lba n) seq (fun r => { r with rows, state := if rows.isEmpty then .onDisk else .landed })
        supersede s
    -- the commands of the record have landed (R46)
    { s with cmds := s.cmds.map (fun c => if c.recSeq = some seq && c.phase = .landing then { c with phase := .landed s.now } else c) }

/-! ### Release (R112, R113) -/

/-- A record's own conditions of release. -/
def releasable (s : State) (r : Rec) : Bool :=
  let rowsDone := r.state = .onDisk || (r.superseded && r.state = .landed)
  match r.kind with
  | 1 =>
    -- a RELEASE that is to land, or has landed: its record covers a range (R112, R114)
    if r.span.isSome then rowsDone && r.reported && !pinned s r.seq
    else r.reported && !s.ledger.recs.any (fun q => (q.kind = 2 || q.kind = 6) && q.pos = r.pos && q.powerCycle = r.powerCycle && q.replayed = r.replayed && q.held && q.state ≠ .filling &&
      !((q.state = .onDisk || q.superseded) && q.reported && !pinned s q.seq))
  | 2 => rowsDone && r.reported && !pinned s r.seq
  | 3 => r.state = .landed || r.state = .onDisk
  | 4 => false
  | 5 => (r.state = .landed || r.state = .onDisk) && r.reported
  | 6 => rowsDone && r.reported && !pinned s r.seq
  | _ => (r.state = .landed || r.state = .onDisk) && r.reported

/-- Records whose conditions hold are released, before row 1 of the boundary; released records leave the list. -/
def releaseRecords (s : State) : State :=
  let go := s.ledger.recs.filter (fun r => r.held && r.state ≠ .filling && releasable s r)
  let s := (go.map (·.seq)).foldl releaseRec s
  { s with ledger := { s.ledger with recs := go.foldl (fun rs r => outlive r rs) (s.ledger.recs.filter Rec.held) } }

/-! ### Destage planning (R107–R110, R114, R125) -/

/-- The landed records that a row still needs. -/
def rowRecs (s : State) (layout row : Nat) : List Rec :=
  s.ledger.recs.filter (fun r => r.visible && !r.superseded && r.rows.contains (layout, row))

/-- The newest record over a block among these. -/
def blockFrom (rs : List Rec) (v b : Nat) : Option Rec := newest (rs.filter (fun r => r.coversBlock v b))

/-- New data of a row: (column, position, record) for each block that a landed record gives; blocks lost in the ledger are left out (R107, R132). -/
def rowNews (s : State) (l : Layout) (row : Nat) : List (Nat × Nat × Nat × Rec) :=
  let rs := rowRecs s l.index row
  l.cols.flatMap (fun c => l.positions.filterMap (fun p =>
    (rowBlock s l row c.2.2 p).bind (fun b =>
      if s.degrade.loss.any (fun e => e.cause = 2 && e.volume = b.1 && e.lba ≤ b.2 && b.2 < e.lba + e.blocks) then none
      else (blockFrom rs b.1 b.2).map (fun r => (c.2.2, p, b.2, r)))))

/-- Landed records give every data block of the row. -/
def rowFull (l : Layout) (news : List (Nat × Nat × Nat × Rec)) : Bool := l.cols.length * l.positions.length = news.length

/-- The window of a group ends within 12,500 closes (R108). -/
def windowEnding (s : State) (g : Nat) : Bool := (grp s g).state = 3 && (grp s g).endAt ≤ s.now + 12500

/-- The close from which a row's holdoff counts: the landing of its oldest record that no stripe-row write of the row is writing (R108). -/
def rowSince (s : State) (layout row : Nat) : Nat :=
  let going := (s.works.filter (fun w => w.layout = layout && w.row = row)).flatMap (·.recs)
  (minOf (((rowRecs s layout row).filter (fun r => !going.contains r.seq)).map (·.landedAt))).getD s.now

/-- The holdoff of a row: the value in force when it started (R310). -/
def holdoffOf (s : State) (since : Nat) : Nat := ((s.feats.holdoffs.find? (fun e => e.1 < since)).map (·.2)).getD (envelope s 2).dflt

/-- The row need not wait longer (R108, R125). -/
def rowDue (s : State) (l : Layout) (row : Nat) (news : List (Nat × Nat × Nat × Rec)) : Bool :=
  let gs := l.writeGroups ((news.map (·.1)).eraseDups)
  s.ledger.ripe.contains (l.index, row) || rowFull l news || 500 ≤ permille s || gs.any (windowEnding s) || (rowRecs s l.index row).any (·.replayed)

/-- A read in flight still needs a block that the row's new data would overwrite on disk (R62). -/
def rowPinned (s : State) (layout row : Nat) (news : List (Nat × Nat × Nat × Rec)) : Bool :=
  s.cmds.any (fun c => c.needs.any (fun n => n.layout = layout && n.row = row && news.any (fun e => n.chunk = .d e.1 && n.position = e.2.1)))

/-- The planner may start stripe work (R106, R252, R254, R391). -/
def plannerRuns (s : State) : Bool :=
  (s.pair.role = 0 || s.pair.role = 1) && !s.pair.fenced && !s.chip.halted && s.power.state < 2 && s.cfg.powerState = 0

/-- A row whose blocks are all released becomes Unwritten and its members are not written (R114). -/
def releaseRow (s : State) (l : Layout) (row : Nat) (rs : List Rec) : State :=
  let s := setUnwritten s l.index row true
  (rs.map (·.seq)).foldl (fun s q => recRowDone s q l.index row) s

/-- The groups that the plan of a row reads and writes (R109, R110); a row that is Unwritten is written whole (R93; DESIGN CHOICE, log entry 37). -/
def planGroups (s : State) (l : Layout) (w : Work) : List Nat :=
  if w.unwritten then (l.pools.map (·.2.powerGroup)).eraseDups
  else
    let reads := (workWants s l w (planForms s l w)).flatMap (fun e => readGroups l (w.erasedAt s l e.2) e.1)
    (l.writeGroups w.changed ++ reads).eraseDups

/-- Plans one row that is due, or asks for its windows (R109). -/
def planRow (s : State) (layout row : Nat) : State :=
  match layoutOf s layout, ownerOf s layout row with
  | some l, some (v, _, _) =>
    let news := rowNews s l row
    let rs := rowRecs s layout row
    if rs.isEmpty || s.works.any (fun w => w.layout = layout && w.row = row) || !rowDue s l row news || rowPinned s layout row news ||
      s.ledger.resyncLeft.contains (v.volume, regionOfRow s l row) then s
    -- every block of the row has later data on disk
    else if news.isEmpty then (rs.map (·.seq)).foldl (fun s q => recRowDone s q layout row) s
    else if rowFull l news && news.all (fun n => n.2.2.2.kind = 1) then releaseRow s l row rs
    else
      let data := news.map (fun n => (n.1, n.2.1, n.2.2.2.block n.2.2.1))
      let replayed := rs.any (·.replayed)
      let probe : Work := {
        id := s.nextWork, kind := .destage, volume := v.volume, layout, row, step := 1, news := data, positions := [], forms := [], reads := [], staged := [],
        erased := [], postsLeft := 0, writes := [], recs := [], unwritten := rowUnwritten s layout row, held := false, genSeen := 0, replayed, wants := [], outs := [],
        badPos := [], region := 0, needs := [] }
      let gs := planGroups s l probe
      if gs.all (serves s) then
        let s := (rs.map (·.seq)).foldl (fun s q => modRec s q (fun r => if r.state = .landed then { r with state := .destaging } else r)) s
        let s := dropDemand { s with ledger := { s.ledger with ripe := s.ledger.ripe.filter (· ≠ (layout, row)) } } (.rows layout row)
        addWork s .destage v.volume l row data [] [] (rs.map (·.seq)) replayed []
      else setDemand s (if s.ledger.window then 2 else 5) gs (.rows layout row)
  | _, _ => s

/-- The order of R109: Replayed first in replay order (R125), then the earliest landing, the lower volume, the lower row. -/
def rowBefore (s : State) (a b : Nat × Nat) : Bool :=
  let rank := fun (e : Nat × Nat) => minOf (((rowRecs s e.1 e.2).filter (·.replayed)).map (·.rank))
  let key : Nat × Nat → Nat × Nat × Nat × Nat := fun e => (if (rank e).isSome then (0 : Nat) else 1, (rank e).getD (rowSince s e.1 e.2), ((ownerOf s e.1 e.2).map (fun o => o.1.volume)).getD 0, e.2)
  let x := key a
  let y := key b
  decide (x.1 < y.1) || x.1 = y.1 && (decide (x.2.1 < y.2.1) || x.2.1 = y.2.1 && (decide (x.2.2.1 < y.2.2.1) || x.2.2.1 = y.2.2.1 && decide (x.2.2.2 ≤ y.2.2.2)))

/-- The rows that landed records still need, in planning order. -/
def heldRows (s : State) : List (Nat × Nat) :=
  ((s.ledger.recs.filter (fun r => r.visible && !r.superseded)).flatMap (·.rows)).eraseDups.mergeSort (rowBefore s)

/-- The planner takes every row that is ready. -/
def planDestage (s : State) : State :=
  if plannerRuns s then (heldRows s).foldl (fun s e => planRow s e.1 e.2) s else s

/-- Holdoffs that have ended at this boundary (R108). -/
def ripen (s : State) : State :=
  let due := (heldRows s).filter (fun e => rowSince s e.1 e.2 + holdoffOf s (rowSince s e.1 e.2) ≤ s.now && !s.ledger.ripe.contains e)
  { s with ledger := { s.ledger with ripe := s.ledger.ripe.filter (heldRows s).contains ++ due } }

/-- HOLDOFF_EXPIRY (R108, R109): the row is planned as soon as its groups spin. -/
def execHoldoffExpiry (layout row : Nat) (s : State) : Host.Outcome State Fault Refusal :=
  .next <|
    if !(rowRecs s layout row).isEmpty && rowSince s layout row + holdoffOf s (rowSince s layout row) ≤ s.now then
      let s : State := { s with ledger := { s.ledger with ripe := (s.ledger.ripe ++ [(layout, row)]).eraseDups } }
      if plannerRuns s then planRow s layout row else s
    else s

/-! ### The end of a stripe-row write (R111) -/

/-- Resynchronised rows: the region is done when its last row is (R126, R127). -/
def resyncDone (s : State) (w : Work) : State :=
  let s := setUnwritten s w.layout w.row false
  if s.works.any (fun x => x.kind = .resync && x.id ≠ w.id && x.volume = w.volume && x.region = w.region && x.step < 5) then s
  else { s with ledger := { s.ledger with resyncLeft := s.ledger.resyncLeft.filter (· ≠ (w.volume, w.region)) } }

/-- Lost blocks that the row's new data covers are replaced by it (R111, R158). -/
def replaceLost (s : State) (w : Work) : State :=
  match layoutOf s w.layout with
  | none => s
  | some l =>
    let bs := w.news.filterMap (fun n => rowBlock s l w.row n.1 n.2.1)
    { s with degrade := { s.degrade with loss := bs.foldl (fun es b => trimLoss b.1 b.2 1 es) s.degrade.loss } }

/-- A seal is on disk: destages that waited for its positions plan their row again (R111). -/
def sealDone (s : State) (w : Work) : State :=
  (s.works.filter (fun x => x.layout = w.layout && x.row = w.row && x.sealWait.any w.positions.contains)).foldl (fun s x =>
    let s := modWork s x.id (fun x => { x with sealWait := x.sealWait.filter (fun p => !w.positions.contains p), badPos := x.badPos.filter (fun e => !w.positions.contains e.2) })
    if (findWork s x.id).any (fun x => x.sealWait.isEmpty && x.waitFinds.isEmpty) then planWork s x.id else s) s

/-- Step 5: the row is on disk. -/
def rowOnDisk (s : State) (w : Work) : State :=
  let s := modWork s w.id (fun w => { w with step := 5 })
  let s := w.recs.foldl (fun s q => recRowDone s q w.layout w.row) s
  let s := if w.unwritten then setUnwritten s w.layout w.row false else s
  let s := if w.kind = .destage || w.kind = .seal then rereadRow s w.layout w.row else s
  match w.kind with
  | .seal => sealDone s w
  | .destage =>
    let s := if s.degrade.loss.isEmpty then s else replaceLost s w
    if w.forms.all (·.2) then { s with ledger := { s.ledger with fullRows := inc 0xFFFF s.ledger.fullRows } }
    else { s with ledger := { s.ledger with smallRows := inc 0xFFFF s.ledger.smallRows } }
  | .restore k => if (pass s k).cursor = w.row then advancePass s k else s
  | .repair => { s with degrade := { s.degrade with repaired := inc 0xFFFF s.degrade.repaired } }
  | .reshape k => copyDone s k
  | .resync => resyncDone s w
  | _ => s

/-- STRIPE_WRITE_COMPLETE (R111): every SAS write of step 4 has completed with good status. -/
def stripeWriteComplete (s : State) (id : Nat) : State :=
  match findWork s id with
  | none => s
  | some w => if w.step = 4 && w.outs.isEmpty && w.writes.isEmpty && !w.failedOut then rowOnDisk s w else s

def execStripeWriteComplete (work : Nat) (s : State) : Host.Outcome State Fault Refusal :=
  .next (stripeWriteComplete s work)

/-! ### Checkpoints (R117, R121, R122) -/

/-- The registry's volume-map copy after the band-change records of a cut: the bands as they are at the cut. -/
def registryBands (s : State) : List Band := s.bands.map (fun b => { b with pendingRec := none })

/-- The 8 bytes of a listed region, and a checkpoint as its slot holds it (R122). -/
def Ckpt.bytes (regionLog : Nat) (c : Ckpt) : List Byte :=
  let b := natLe 4 0x5A434350 ++ natLe 4 c.entries.length ++ natLe 8 c.seq ++ natLe 8 c.cutClose ++ natLe 4 c.powerCycle ++ natLe 1 regionLog ++ zeros 35 ++
    c.entries.flatMap (fun e => natLe 2 e.1 ++ natLe 6 e.2)
  b ++ natLe 4 (crc32c b).toNat

/-- The slot that holds the older checkpoint is written: until that is done it holds none (R121, R122). -/
def openSlot (r : Registry) : Registry :=
  let key := fun (c : Option Ckpt) => (c.map (fun c => c.seq + 1)).getD 0
  if key r.slotA ≤ key r.slotB then { r with slotA := none } else { r with slotB := none }

/-- The checkpoint is written into the open slot. -/
def fillSlot (r : Registry) (c : Ckpt) : Registry := if r.slotA.isNone then { r with slotA := some c } else { r with slotB := some c }

/-- A checkpoint is cut. A failed checkpoint was none, so its retry takes the same sequence number (DESIGN CHOICE, log entry 37). -/
def cutCheckpoint (s : State) (admission : Bool) : State :=
  let rs := s.ledger.regions.filter (fun r => r.set || r.awaiting)
  let recs := (s.ledger.recs.filter (fun r => r.kind = 4 && r.held)).map (·.seq)
  let c : Ckpt := ⟨(s.ledger.newest.map (·.seq)).getD 0 + 1, s.now, s.mgmt.powerCycles, rs.map (fun r => (r.volume, r.region)), recs, admission, [],
    registryBands s, s.degrade.passes, s.reshapes.slots.map (fun r => if r.state = 1 && !r.acked then {} else r), s.vols.map (fun e => (e.1, e.2.layout))⟩
  { s with ledger := { s.ledger with ckpt := some c, lastCkptCut := s.now }, registry := openSlot s.registry }

/-- ADMISSION_CHECKPOINT (R117): regions await admission and no checkpoint is being written. -/
def execAdmissionCheckpoint (s : State) : Host.Outcome State Fault Refusal :=
  .next (if opfin s && s.ledger.ckpt.isNone && s.ledger.regions.any (·.awaiting) && s.chip.step = 15 then
    let s := cutCheckpoint s true
    { s with ledger := { s.ledger with admissions := inc 0xFFF s.ledger.admissions } } else s)

/-- PERIODIC_CHECKPOINT (R121): every 65,536 closes. -/
def execPeriodicCheckpoint (s : State) : Host.Outcome State Fault Refusal :=
  .next (if opfin s && s.ledger.ckpt.isNone && s.ledger.lastCkptCut + 65536 ≤ s.now && s.chip.step = 15 then cutCheckpoint s false else s)

/-- A band table with one entry changed; an entry marked 2 swaps the tables of a volume (R92, R189). -/
def applyBand (bands : List Band) (b : Band) : List Band :=
  bands.filter (fun x => !(x.volume = b.volume && x.band = b.band && x.target = b.target)) ++ [{ b with pendingRec := none }]

/-- The checkpoint is complete: a strict majority holds it (R117, R121, R150, R158, R188, R410). -/
def checkpointComplete (s : State) (acks : List Nat) : State :=
  match s.ledger.ckpt with
  | none => s
  | some c =>
    if !majority s acks then { s with ledger := { s.ledger with ckpt := some { c with acks } } }
    else
      let c : Ckpt := { c with acks }
      let listed := fun (r : Region) => c.entries.contains (r.volume, r.region)
      let s := c.bandRecs.foldl releaseRec s
      let s : State := { s with
        ledger := { s.ledger with
          recs := s.ledger.recs.filter Rec.held
          ckpt := none, newest := some c
          regions := s.ledger.regions.map (fun r => { r with covered := listed r, awaiting := r.awaiting && !listed r }) }
        registry := { fillSlot s.registry c with
          bands := c.bands, ckpt := some c, loss := s.degrade.loss.filter (·.durable)
          -- cursors and states are written at a periodic checkpoint (R150, R188)
          passes := if c.admission then s.registry.passes else c.passes
          reshapes := if c.admission then (List.range 4).map (fun k =>
            let r := (c.reshapes.drop k).headD {}
            if r.state = 5 then r else (s.registry.reshapes.drop k).headD {}) else c.reshapes
          inUse := c.inUse
          opTimes := if c.admission then s.registry.opTimes else tset s.registry.opTimes s.fuses.serial (s.mgmt.opMs, s.mgmt.powerCycles) } }
      retryStepOne s

/-- CHECKPOINT_COMPLETE (R121). -/
def execCheckpointComplete (acks : List Nat) (s : State) : Host.Outcome State Fault Refusal :=
  .next (if opfin s then checkpointComplete s acks else s)

/-- CHECKPOINT_FAILURE (R121): no majority within 65,536 closes of the cut; a new cut at once. -/
def execCheckpointFailure (s : State) : Host.Outcome State Fault Refusal :=
  .next <|
    match s.ledger.ckpt with
    | none => s
    | some c =>
      if opfin s && c.cutClose + 65536 ≤ s.now then
        let s := fire { s with ledger := { s.ledger with ckptFailures := inc 0xFFF s.ledger.ckptFailures } } 0x06 0 c.acks.length (natLe 8 c.seq) false
        cutCheckpoint s c.admission
      else s

/-- Clean regions at a boundary: their bit is cleared through a map record and their table entry freed (R119). -/
def cleanBoundary (s : State) : State :=
  let idle := fun (r : Region) => r.set && !r.busy && !s.works.any (fun w => w.volume = r.volume && w.region = r.region)
  let gone := s.ledger.regions.filter idle
  let s := gone.foldl (fun s r => mapRecord (modRegion s r.volume r.region (fun r => { r with set := false })) r.volume r.region false) s
  { s with ledger := { s.ledger with regions := s.ledger.regions.map (fun r =>
    { r with busy := s.works.any (fun w => w.volume = r.volume && w.region = r.region && 2 ≤ w.step) }) } }

/-! ### Resynchronisation (R126, R127) -/

/-- The rows of a region, as its bands hold them. -/
def resyncRows (s : State) (v region : Nat) : List (Layout × Nat) :=
  match volDef s v with
  | none => []
  | some d => (s.bands.filter (fun b => b.volume = v)).flatMap (fun b => match layoutOf s b.layout with
    | some l => ((List.range (2 ^ d.bandLog)).map (· + b.rowBase)).filterMap (fun row => if regionOfRow s l row = region then some (l, row) else none)
    | none => [])

/-- RESYNCHRONISATION (R126): every row of a listed region is read and its syndromes written Fresh. -/
def resynchronise (s : State) (v region : Nat) : State :=
  if !s.ledger.resyncLeft.contains (v, region) || !retires s then s
  else
    let rows := resyncRows s v region
    if rows.isEmpty then { s with ledger := { s.ledger with resyncLeft := s.ledger.resyncLeft.filter (· ≠ (v, region)) } }
    else rows.foldl (fun s e =>
      if s.works.any (fun w => w.kind = .resync && w.layout = e.1.index && w.row = e.2) then s
      else
        let id := s.nextWork
        modWork (addWork s .resync v e.1 e.2 [] [] [] [] false []) id (fun w => { w with unwritten := false })) s

def execResynchronisation (volume region : Nat) (s : State) : Host.Outcome State Fault Refusal :=
  .next (resynchronise s volume region)

/-! ### Wear and faults (R130–R132, R459) -/

/-- A block's retirement is decided: it is copied in the next close and replaced at the boundary after (R131). -/
def retireBlock (s : State) (b cause : Nat) : State :=
  if (blockAt s b).due.isSome || (blockAt s b).retired then s else modBlock s b (fun k => { k with due := some (s.now + 2), cause })

/-- LEDGER_CORRECTED_EVENT (R97, R131). -/
def correctedEvent (s : State) (b : Nat) : State :=
  let s := modBlock { s with ledger := { s.ledger with corrected := inc 0xFFFF s.ledger.corrected } } b (fun k => { k with corrected := recent 24 s.now k.corrected ++ [s.now] })
  if s.ch (·.blockLimit) 8 < (blockAt s b).corrected.length then retireBlock s b 1 else s

def execLedgerCorrectedEvent (block : Nat) (s : State) : Host.Outcome State Fault Refusal :=
  .next (if block < 36864 then correctedEvent s block else s)

/-- What an uncorrectable word held (R132). -/
def wordLost (s : State) (w : LedgerWord) : State :=
  match w with
  | .twoCopyArea => s
  | .daybook seq =>
    match s.daybook.ring.find? (fun e => e.1 = seq) with
    | some (_, bs) => { s with daybook := { s.daybook with ring := tset s.daybook.ring seq (bs.take 124 ++ (bs.drop 124).map (fun b => ~~~b)) } }
    | none => s
  | .record seq first n =>
    if s.ledger.mode = 1 then s
    else match (findRec s seq).bind (fun r => r.range.map (fun g => (r, g))) with
      | none => s
      | some (r, lba, c) =>
        let bs := ((List.range n).map (· + lba + first)).filter (fun b => b < lba + c && !lossAt s r.volume b)
        if bs.isEmpty then s
        else (lossFind { s with ledger := { s.ledger with lostRanges := hold 0xFFFF (s.ledger.lostRanges + (runs bs).length) } } r.volume 2 bs).1

/-- LEDGER_UNCORRECTABLE_EVENT (R97, R131, R132). -/
def execLedgerUncorrectableEvent (block : Nat) (what : LedgerWord) (s : State) : Host.Outcome State Fault Refusal :=
  .next (if block < 36864 then
    retireBlock (wordLost { s with ledger := { s.ledger with uncorrected := inc 0xFFFF s.ledger.uncorrected } } what) block 2 else s)

/-- A reserve block of a die that is in service nowhere. -/
def reserveBlock (s : State) (die : Nat) : Option Nat :=
  (List.range 4096).map (· + 32768) |>.find? (fun r => dieOf r = die && !(blockAt s r).retired && !s.ledger.blocks.any (fun e => e.2.movedTo = some r))

/-- The record-area block of a die with the highest place: the one that gives up its pair when a reserve is lacking (DESIGN CHOICE, log entry 25). -/
def lastRecordBlock (s : State) (die : Nat) : Option Nat :=
  ((List.range 14784).reverse.map (fun i => recordPlace + 2 * i + die)).findSome? (blockIn s)

/-- Without a reserve block the record area shrinks by one block: the last of the die takes the place that the retired block left, in a two-copy
area or beside the partner of its pair (R131). -/
def shrinkRecords (s : State) (b place : Nat) : State :=
  let s := match lastRecordBlock s (dieOf b) with
    | some f => if (placeOf s f).any (place < ·) then modBlock s f (fun x => { x with place := some place }) else s
    | none => s
  { s with ledger := { s.ledger with recordBlocks := s.ledger.recordBlocks - 1 } }

/-- A reserve block, or a block of the record area, takes a retired block's place (R131). -/
def replaceBlock (s : State) (b : Nat) : State :=
  let k := blockAt s b
  let place := (placeOf s b).getD b
  let repl := reserveBlock s (dieOf b)
  let s := modBlock s b (fun k => { k with due := none, retired := true, movedTo := repl })
  let s : State := { s with ledger := { s.ledger with retiredBlocks := s.ledger.retiredBlocks + 1 } }
  let s := fire (history s 4 1 k.cause b b) 0x05 k.cause b [] false
  match repl with
  | some r =>
    let s := modBlock s r (fun x => { x with place := some place })
    let s : State := { s with ledger := { s.ledger with reserveLeft := s.ledger.reserveLeft - 1 } }
    let s := history s 4 2 0 r b
    if s.ledger.reserveLeft = 0 then fire (history s 4 7 0 r noLogical) 0x05 9 r [] true else s
  | none => shrinkRecords s b place

/-- LEDGER_BLOCK_RETIREMENT (R131): the boundary of a decided retirement has come. -/
def execLedgerBlockRetirement (block : Nat) (s : State) : Host.Outcome State Fault Refusal :=
  .next (if (blockAt s block).due.any (· ≤ s.now) then replaceBlock s block else s)

/-- Ledger blocks in row 3 of R47. -/
def blockBoundary (s : State) : State :=
  (s.ledger.blocks.filter (fun e => e.2.due.any (· ≤ s.now))).foldl (fun s e => replaceBlock s e.1) s

/-- The record area has a block's worth of room, so that blocks of it are free. -/
def areaHasFree (s : State) : Bool := 65536 ≤ roomLeft s

/-- The free record-area block of a die with the lowest count. -/
def freeBlock (s : State) (die : Nat) : Option Nat :=
  let cand := (List.range 36864).filter (fun b => dieOf b = die && (placeOf s b).any (recordPlace ≤ ·))
  if areaHasFree s then (minOf (cand.map (blockWrites s))).bind (fun w => cand.find? (fun b => blockWrites s b = w)) else none

/-- Two blocks change roles; each keeps its count (R130). -/
def swapBlocks (s : State) (b f : Nat) : State :=
  let p := placeOf s b
  let q := placeOf s f
  let wb := blockWrites s b - meanWrites s
  let wf := blockWrites s f
  modBlock (modBlock s b (fun k => { k with place := q, writes := wb })) f (fun k => { k with place := p, writes := wf })

/-- WEAR_MOVE (R130): a fixed block's count is 2^20 above the mean of the record area; in the quiet slice it changes roles with a free
record-area block of its die. -/
def wearMove (s : State) (b : Nat) : State :=
  if !s.quiet || 36864 ≤ b || !isFixed s b || blockWrites s b < meanWrites s + 2 ^ 20 then s
  else match freeBlock s (dieOf b) with
    | none => s
    | some f => swapBlocks s b f

def execWearMove (block : Nat) (s : State) : Host.Outcome State Fault Refusal :=
  .next (wearMove s block)

/-- The next block of the trim pass. -/
def nextTrim (s : State) : State :=
  { s with ledger := { s.ledger with
      trimNext := (s.ledger.trimNext + 1) % 36864
      trimPass := if s.ledger.trimNext = 36863 then s.ledger.trimPass + 1 else s.ledger.trimPass } }

/-- SENSE_REFERENCE_TRIM (R459): one block in the quiet slice, after the book entry and before the sweep. -/
def senseTrim (s : State) (margin shift : Nat) (finished : Bool) : State :=
  if !s.quiet || s.closers.entry ≠ 2 || s.ledger.trimmed || s.scratch.swept then s
  else
    let b := s.ledger.trimNext
    let s : State := { s with ledger := { s.ledger with trimmed := true } }
    if !finished then s
    else if 40 ≤ margin && shift ≤ 25 then nextTrim s
    else
      let s := modBlock { s with ledger := { s.ledger with trimFails := inc 0xFFFF s.ledger.trimFails } } b (fun k => { k with trimFails := recent 24 s.now k.trimFails ++ [s.now] })
      nextTrim (if 3 ≤ (blockAt s b).trimFails.length then retireBlock s b 8 else s)

def execSenseReferenceTrim (marginMv shiftMv : Nat) (finished : Bool) (s : State) : Host.Outcome State Fault Refusal :=
  .next (senseTrim s marginMv shiftMv finished)

/-! ### Thresholds and counts at a boundary (R105, R128) -/

/-- A threshold takes a value: recorded and signalled. -/
def setThreshold (s : State) (old new : Bool) (setCause : Nat) : State :=
  if old = new then s else mgmtCause (fire s 0x1A (if new then setCause else setCause + 1) (permille s) [] false) 3

/-- R128: set at 50 % and 85 %, released below 45 % and 80 %. -/
def thresholds (s : State) : State :=
  let p := permille s
  let win := if s.ledger.window then decide (450 ≤ p) else decide (500 ≤ p)
  let ref := if s.ledger.refuse then decide (800 ≤ p) else decide (850 ≤ p)
  let w0 := s.ledger.window
  let r0 := s.ledger.refuse
  let s : State := { s with ledger := { s.ledger with window := win, refuse := ref, peak := max s.ledger.peak p } }
  let s := setThreshold (setThreshold s w0 win 1) r0 ref 3
  if ref && !r0 then wakeUp s 2 else s

/-- Closes with a stalled wicket or a withheld confirmation are counted. -/
def ledgerCounts (s : State) : State :=
  let stalled := s.ledger.stalledNow || s.wickets.table.any (fun e => e.2.stalled || (e.2.state = 2 && noRoom s e.1))
  { s with ledger := { s.ledger with
      stallCloses := if stalled then inc 0xFFFFFFFF s.ledger.stallCloses else s.ledger.stallCloses
      withheld := if s.ledger.withheldNow then inc 0xFFFF s.ledger.withheld else s.ledger.withheld
      withheldNow := false, stalledNow := false, trimmed := false } }

end Sys2Proof.Machine
end

