-- ==== Sys2Proof/Machine/Governor.lean ====
section
/-! DEFINITION. Power groups, the governor and GROUP WINDOW (11 R320, 13 R358–R366). -/

namespace Sys2Proof.Machine

/-- A group takes a state. -/
def setGrp (s : State) (g st : Nat) (f : Group → Group) : State :=
  modGrp s g (fun x => f { x with state := st, stateClose := s.now })

/-- The members of a group that start and stop with it: not registry members or alternates, in number order (R358). -/
def groupMembers (s : State) (g : Nat) : List Nat :=
  (((s.ch (·.members) []).filter (fun m => m.group = g && !alwaysSpins s m.member)).map (·.member)).mergeSort (fun a b => decide (a ≤ b))

/-- Members of a group that are not out of service. -/
def liveMembers (s : State) (g : Nat) : List Nat := (groupMembers s g).filter (fun m => (mem s m).state ≠ 3 && (mem s m).state ≠ 4)

/-! ### Rising (R359) -/

/-- The next batch of a Rising group is started. -/
def startBatch (s : State) (g : Nat) : State :=
  let size := max 1 (((groupDef s g).map (·.batch)).getD 12)
  let batch := ((groupMembers s g).drop ((grp s g).batch * size)).take size
  let s := (batch.filter (fun m => (mem s m).state ≠ 3 && (mem s m).state ≠ 4)).foldl (fun s m =>
    issue (modMem s m (fun x => { x with slotOff := false, nextPoll := s.now })) m .startUnit 0 0 [] .control) s
  modGrp s g (fun x => { x with batch := x.batch + 1, nextStep := s.now + s.ch (·.stagger) 250000 })

/-- A window is granted: the group is Rising, and its shelves are switched on where its flag says so. -/
def grant (s : State) (g : Nat) : State :=
  let shelf := ((groupDef s g).map (·.shelfPower)).getD false
  let s := setGrp s g 1 (fun x => { x with
    granted := s.now, batch := 0, shelfOk := !shelf, nextStep := s.now + s.ch (·.stagger) 250000
    windows := inc 0xFFFF x.windows, windowsTotal := x.windowsTotal + 1 })
  if shelf then { s with gov := { s.gov with shelfOn := (s.gov.shelfOn ++ groupEnclosures s g).eraseDups } } else startBatch s g

/-- The shelf supplies report OK, or a stagger step passes without it and the enclosures are named in the daybook. -/
def shelfPower (s : State) (g : Nat) (ok : Bool) : State :=
  let x := grp s g
  if x.state ≠ 1 || x.shelfOk then s
  else if ok then startBatch (modGrp s g (fun x => { x with shelfOk := true })) g
  else if x.nextStep ≤ s.now then
    let s := (groupEnclosures s g).foldl (fun s e => fire s 0x10 4 0 (natLe 8 e) false) s
    startBatch (modGrp s g (fun x => { x with shelfOk := true })) g
  else s

/-- SHELF_POWER_OK (R359). -/
def execShelfPowerOk (group : Nat) (allOk : Bool) (s : State) : Host.Outcome State Fault Refusal :=
  .next (shelfPower s group allOk)

/-- A stagger step of a Rising group has passed. -/
def staggerStep (s : State) (g : Nat) : State :=
  let x := grp s g
  if x.state = 1 && x.shelfOk && x.nextStep ≤ s.now && x.batch * max 1 (((groupDef s g).map (·.batch)).getD 12) < (groupMembers s g).length then startBatch s g else s

/-- STAGGER_STEP (R359). -/
def execStaggerStep (group : Nat) (s : State) : Host.Outcome State Fault Refusal :=
  .next (staggerStep s group)

/-- Every Online member of a Rising group is ready: the group is Ready. -/
def groupReady (s : State) (g : Nat) : State :=
  if (grp s g).state = 1 && (groupMembers s g).all (fun m => (mem s m).state ≠ 1 || (mem s m).ready) then
    setGrp s g 2 (fun x => { x with readyAt := s.now, lastNamed := s.now })
  else s

/-- GROUP_READY (R359), at a boundary (R358). -/
def execGroupReady (group : Nat) (s : State) : Host.Outcome State Fault Refusal :=
  .next (if s.clock.cycle = 0 then groupReady s group else s)

/-- The spin-up limit ends: members that are not ready become Suspect and the group is Ready. -/
def spinUpLimit (s : State) (g : Nat) : State :=
  if (grp s g).state = 1 && (grp s g).granted + ((groupDef s g).map (·.spinUpLimit)).getD (2 ^ 22) ≤ s.now then
    let late := (groupMembers s g).filter (fun m => (mem s m).state = 1 && !(mem s m).ready)
    let s := late.foldl suspect s
    setGrp s g 2 (fun x => { x with readyAt := s.now, lastNamed := s.now, late := hold 0xFFFF (x.late + late.length) })
  else s

/-- SPIN_UP_LIMIT_EXPIRY (R359), at a boundary (R358). -/
def execSpinUpLimitExpiry (group : Nat) (s : State) : Host.Outcome State Fault Refusal :=
  .next (if s.clock.cycle = 0 then spinUpLimit s group else s)

/-! ### Closing, Falling, Down (R358, R360, R363, R364) -/

/-- A group begins to fall: START 0 goes to every member. -/
def fallGroup (s : State) (g : Nat) : State :=
  let closing := (grp s g).state = 3
  let s := (liveMembers s g).foldl (fun s m => issue s m .stopUnit 0 0 [] .control) s
  setGrp s g 4 (fun x => { x with nextStep := s.now + ((groupDef s g).map (·.spinDown)).getD 125000, endAt := if closing then x.endAt else s.now })

/-- Close E has passed and no member command is outstanding: Falling. -/
def closingEnd (s : State) (g : Nat) : State :=
  if (grp s g).state = 3 && (grp s g).endAt < s.now && !s.drives.cmds.any (fun c => (groupMembers s g).contains c.member && !c.late) then fallGroup s g else s

/-- CLOSING_END (R358), at a boundary. -/
def execClosingEnd (group : Nat) (s : State) : Host.Outcome State Fault Refusal :=
  .next (if s.clock.cycle = 0 then closingEnd s group else s)

/-- Every member has answered START 0, or the spin-down time has ended: Down. -/
def groupDown (s : State) (g : Nat) : State :=
  if (grp s g).state = 4 && ((liveMembers s g).all (fun m => !s.drives.cmds.any (fun c => c.member = m && c.op = .stopUnit)) || (grp s g).nextStep ≤ s.now) then
    let s := shelfRelease ((groupMembers s g).foldl (fun s m => modMem s m (fun x => { x with ready := false, slotOff := true })) s) g
    setGrp s g 0 (fun x => { x with endAt := s.now })
  else s

/-- GROUP_DOWN (R360), at a boundary (R358). -/
def execGroupDown (group : Nat) (s : State) : Host.Outcome State Fault Refusal :=
  .next (if s.clock.cycle = 0 then groupDown s group else s)

/-- Entry into Rest or Dormant: every group that is Rising, Ready or Closing falls (R364). -/
def allFall (s : State) : State :=
  (s.gov.groups.filter (fun e => 1 ≤ e.2.state && e.2.state ≤ 3)).foldl (fun s e => fallGroup s e.1) s

/-! ### Demands and grants (R361–R363) -/

/-- The class in which a demand is ranked: one older than the starvation limit ranks in class 2. -/
def rankClass (s : State) (d : Demand) : Nat := if d.since + s.ch (·.starvation) (2 ^ 27) < s.now then min d.cls 2 else d.cls

/-- Group lists in order, element by element; one that begins the other comes first. -/
def listBefore : List Nat → List Nat → Bool
  | [], _ => true
  | _ :: _, [] => false
  | a :: r, b :: t => a < b || a = b && listBefore r t

/-- The order of R361. -/
def demandBefore (s : State) (a b : Demand) : Bool :=
  let x := rankClass s a
  let y := rankClass s b
  decide (x < y) || x = y && (decide (a.since < b.since) || a.since = b.since && listBefore a.groups b.groups)

/-- The groups that count against the spinning limit. -/
def counted (s : State) : Nat := countIf (fun (e : Nat × Group) => e.2.state ≠ 0) s.gov.groups

/-- Grants in rank order until one is blocked (R362). -/
def grantDemands (s : State) : List Demand → State
  | [] => { s with gov := { s.gov with blocked := false, blockedClass := 0 } }
  | d :: r =>
    let down := d.groups.filter (fun g => (grp s g).state = 0)
    if down.isEmpty || counted s + down.length ≤ feature s 4 then grantDemands (down.foldl grant s) r
    else { s with gov := { s.gov with blocked := true, blockedClass := rankClass s d } }

/-- The demand at which grants stopped. -/
def blockedDemand (s : State) (ds : List Demand) : Option Demand :=
  ds.find? (fun d => let n := countIf (fun g => (grp s g).state = 0) d.groups; n ≠ 0 && feature s 4 < counted s + n)

/-- A class 1 or class 4 demand holds the group. -/
def isHeld (s : State) (g : Nat) : Bool := s.gov.demands.any (fun d => (d.cls = 1 || d.cls = 4) && d.groups.contains g)

/-- A Ready group's window is set to end: Closing until E. -/
def endWindow (s : State) (g : Nat) : State := setGrp s g 3 (fun x => { x with endAt := s.now + 12500 })

/-- The minimum window of a Ready group has passed. -/
def windowRan (s : State) (g : Nat) : Bool := (grp s g).state = 2 && (grp s g).readyAt + s.ch (·.minWindow) 7500000 ≤ s.now

/-- Groups whose windows end for a blocked demand, in the order of R363, as many as it needs. -/
def yieldGroups (s : State) (b : Demand) : List Nat :=
  let cls := rankClass s b
  let cand := (s.gov.groups.map (·.1)).filter (fun g => windowRan s g && !isHeld s g && !b.groups.contains g &&
    s.gov.demands.all (fun d => !d.groups.contains g || cls < rankClass s d))
  let names := fun g => countIf (fun (d : Demand) => d.groups.contains g) s.gov.demands
  let order := cand.mergeSort (fun a c => decide (names a < names c) || names a = names c && decide (c ≤ a))
  let leaving := countIf (fun (e : Nat × Group) => e.2.state = 3 || e.2.state = 4) s.gov.groups
  let need := countIf (fun g => (grp s g).state = 0 || (grp s g).state = 3 || (grp s g).state = 4) b.groups
  order.take (counted s + need - leaving - feature s 4)

/-- Standing demands of scrub debt and overdue vault audits (R167, R343, R361). -/
def debtDemands (s : State) : State :=
  let gs := (s.ch (·.groups) []).map (·.group)
  gs.foldl (fun s g => if 0 < overdueRows s g then setDemand s 5 [g] (.scrub g) else dropDemand s (.scrub g)) s

/-- The governor in row 5 of R47. -/
def governor (s : State) : State :=
  let gs := s.gov.groups.map (·.1)
  let s := gs.foldl (fun s g => groupDown (if opfin s then closingEnd s g else s) g) s
  let s := gs.foldl (fun s g => staggerStep (groupReady s g) g) s
  -- a Standby or Isolated unit grants nothing (R385)
  if 2 ≤ s.power.state || s.pair.fenced || !retires s || !opfin s then s
  else
    let s := debtDemands s
    let s : State := { s with gov := { s.gov with groups := s.gov.groups.map (fun e =>
      if s.gov.demands.any (fun d => d.groups.contains e.1) then (e.1, { e.2 with lastNamed := s.now }) else e) } }
    let ds := s.gov.demands.mergeSort (demandBefore s)
    let s := grantDemands s ds
    let idle := (s.gov.groups.map (·.1)).filter (fun g => windowRan s g && !isHeld s g && (grp s g).lastNamed + s.ch (·.idleEnd) 1250000 ≤ s.now)
    let s := idle.foldl endWindow s
    match blockedDemand s ds with
    | some d => (yieldGroups s d).foldl endWindow s
    | none => s

/-- Time not Down is counted (PWR_COUNT.SPIN_S). -/
def spinTime (s : State) : State :=
  { s with gov := { s.gov with groups := s.gov.groups.map (fun e => if e.2.state = 0 then e else (e.1, { e.2 with upCloses := e.2.upCloses + 1 })) } }

/-! ### GROUP WINDOW (R320) -/

/-- An accepted GROUP WINDOW with an action in a phase. -/
def windowCmd (s : State) (tag action : Nat) (p : Phase) : Option Cmd :=
  cmdIn s tag (fun c => c.phase = p && c.hdr.opcode = 0x88 && !c.failed && c.hdr.f 25 1 = action)

/-- The result fields. -/
def windowResult (s : State) (g : Nat) : List Byte := natLe 8 (grp s g).readyAt ++ natLe 8 (grp s g).claimEnd

/-- GROUP WINDOW Request: a class 4 demand; in Rest the part moves to Trim. -/
def execGroupWindowRequest (tag : Nat) (s : State) : Host.Outcome State Fault Refusal :=
  .next <|
    match windowCmd s tag 0 .started with
    | none => s
    | some c => needsExit (setDemand (modCmd s tag (fun c => { c with phase := .busy, begun := true })) 4 [c.hdr.f 24 1] (.hostReq tag))

/-- A pending Request at a boundary: Good when its group is Ready, or its deadline ends. -/
def windowRequest (s : State) (tag : Nat) : State :=
  match windowCmd s tag 0 .busy with
  | none => s
  | some c =>
    let g := c.hdr.f 24 1
    if (grp s g).state = 2 && c.pos.close < s.now then
      let len := if c.hdr.f 32 4 = 0 then s.ch (·.defaultHold) 7500000 else c.hdr.f 32 4
      let s := modGrp s g (fun x => { x with claimed := true, claimEnd := max (if x.claimed then x.claimEnd else 0) (s.now + len) })
      let s := setDemand (dropDemand s (.hostReq tag)) 4 [g] (.claim g)
      finishAt s tag s.now 0 0 (windowResult s g)
    else if c.hdr.f 36 4 ≠ 0 && c.pos.close + c.hdr.f 36 4 < s.now then
      finishAt (dropDemand s (.hostReq tag)) tag s.now 0x60 1 []
    else s

/-- GROUP_WINDOW_DEADLINE (R320). -/
def execGroupWindowDeadline (tag : Nat) (s : State) : Host.Outcome State Fault Refusal :=
  .next (windowRequest s tag)

/-- GROUP WINDOW Release: it acts at the next boundary. -/
def execGroupWindowRelease (tag : Nat) (s : State) : Host.Outcome State Fault Refusal :=
  .next <|
    match windowCmd s tag 1 .started with
    | none => s
    | some _ => modCmd s tag (fun c => { c with phase := .busy, begun := true })

/-- A Release at a boundary: pending Requests of the group accepted before it lapse ahead of it, and the claim ends. -/
def windowRelease (s : State) (tag : Nat) : State :=
  match windowCmd s tag 1 .busy with
  | none => s
  | some c =>
    let g := c.hdr.f 24 1
    if s.now ≤ c.pos.close then s
    else
      let old := s.cmds.filter (fun e => e.hdr.opcode = 0x88 && e.hdr.f 25 1 = 0 && e.hdr.f 24 1 = g && e.phase = .busy && e.pos.lt c.pos)
      let s := old.foldl (fun s e => finishAt (dropDemand s (.hostReq e.hdr.tag)) e.hdr.tag s.now 0x60 2 []) s
      let s := dropDemand (modGrp s g (fun x => { x with claimed := false, claimEnd := if x.claimed then s.now else x.claimEnd })) (.claim g)
      finishAt s tag s.now 0 0 (windowResult s g)

/-- The host's claim on a group ends (R320). -/
def claimEnd (s : State) (g : Nat) : State :=
  if (grp s g).claimed && (grp s g).claimEnd ≤ s.now then dropDemand (modGrp s g (fun x => { x with claimed := false })) (.claim g) else s

/-- HOST_CLAIM_END (R320, R361). -/
def execHostClaimEnd (group : Nat) (s : State) : Host.Outcome State Fault Refusal :=
  .next (claimEnd s group)

/-- GROUP WINDOW commands and claims at a boundary. -/
def windowBoundary (s : State) : State :=
  let s := (s.gov.groups.map (·.1)).foldl claimEnd s
  let s := (s.cmds.map (·.hdr.tag)).foldl windowRequest s
  (s.cmds.map (·.hdr.tag)).foldl windowRelease s

end Sys2Proof.Machine
end

