-- ==== Sys2Proof/Machine/Fabric.lean ====
section
/-! DEFINITION. SAS lanes, their calibration, and discovery (13 R349–R354, R368–R370). -/

namespace Sys2Proof.Machine

def modLane (s : State) (n : Nat) (f : SasLane → SasLane) : State := { s with sas := tmod {} s.sas n f }

/-- The maximum rate of a lane's port. -/
def portRate (s : State) (p : Nat) : Nat := (((s.ch (·.ports) []).drop p).head?.map (·.maxRate)).getD 0

/-- SAS_LANE_UP (R350): the negotiated rate does not exceed the port's maximum. -/
def execSasLaneUp (n rate : Nat) (s : State) : Host.Outcome State Fault Refusal :=
  .next (if n < 16 && (lane s n).inPort && ((lane s n).state = 1 || (lane s n).state = 3) && 1 ≤ rate && rate ≤ portRate s (lane s n).port then
    modLane s n (fun l => { l with state := 2, rate }) else s)

/-- SAS_LANE_DOWN (R351). -/
def execSasLaneDown (n : Nat) (s : State) : Host.Outcome State Fault Refusal :=
  .next (if n < 16 && (lane s n).state = 2 then modLane s n (fun l => { l with state := 3, rate := 0, downSince := s.now, slot := false }) else s)

/-- SAS_LANE_NOT_UP (R351): 65,536 closes without being up; replaced at the next boundary. -/
def execSasLaneNotUp (n : Nat) (s : State) : Host.Outcome State Fault Refusal :=
  .next (if n < 16 && (lane s n).inPort && (lane s n).state ≠ 2 && (lane s n).downSince + 65536 ≤ s.now && (lane s n).replaceDue.isNone then
    modLane s n (fun l => { l with replaceDue := some 6 }) else s)

/-- A lane is flagged (R370). -/
def flagLane (s : State) (n : Nat) : State :=
  if 3 ≤ (recent 24 s.now (lane s n).failures).length && !(lane s n).flagged && (lane s n).inPort then
    fire (modLane s n (fun l => { l with flagged := true, replaceDue := some 4 })) 0x11 1 n [] true
  else s

/-- SAS_LANE_FLAG (R370). -/
def execSasLaneFlag (n : Nat) (s : State) : Host.Outcome State Fault Refusal :=
  .next (flagLane s n)

/-- A plausible result (R369). -/
def retrimPlausible (r : Retrim) : Bool := 24 ≤ r.eyeMv && 30 ≤ r.eyeUi && r.ctleDb ≤ 15 && r.tapsInRange && r.converged

/-- SAS_RETRIM (R368, R369). -/
def execSasRetrim (n : Nat) (r : Retrim) (s : State) : Host.Outcome State Fault Refusal :=
  .next <|
    if (lane s n).slot && (lane s n).state = 2 then
      let s := modLane s n (fun l => { l with slot := false, trims := inc 0xFFFF l.trims })
      if retrimPlausible r then modLane s n (fun l => { l with lastTrim := s.now })
      else flagLane (modLane s n (fun l => { l with failures := recent 24 s.now l.failures ++ [s.now] })) n
    else s

/-- RETRIM_DEFERRAL (R368): no gap has begun by cycle 20,480. -/
def execRetrimDeferral (n : Nat) (s : State) : Host.Outcome State Fault Refusal :=
  .next (if (lane s n).slot then modLane (s.at 20480) n (fun l => { l with deferred := inc 0xFFFF l.deferred }) else s.at 20480)

/-- The calibration slots of a close (R368): per port, a lane that kept its slot, else the lane whose last trim is oldest, once old enough. -/
def assignSlots (s : State) : State :=
  (List.range 4).foldl (fun s p =>
    let up := (List.range 16).filter (fun n => (lane s n).inPort && (lane s n).port = p && (lane s n).state = 2)
    if up.any (fun n => (lane s n).slot) then s
    else match leastBy (fun n => (lane s n).lastTrim) up with
      | some n => if (lane s n).lastTrim + s.ch (·.calInterval) (2 ^ 27) ≤ s.now then modLane s n (fun l => { l with slot := true }) else s
      | none => s) s

/-- A lane whose replacement falls due (R351, R370). -/
def replaceLane (s : State) (n : Nat) : State :=
  match (lane s n).replaceDue with
  | none => s
  | some cause =>
    let p := (lane s n).port
    let s := modLane s n (fun l => { l with replaceDue := none })
    let reserves := fun (s : State) => (List.range 16).filter (fun m => (lane s m).reserve && (lane s m).port = p)
    match reserves s with
    | m :: _ =>
      let s := modLane s n (fun l => { l with inPort := false, state := 0, rate := 0, slot := false })
      let s := modLane s m (fun l => { l with inPort := true, reserve := false, state := 1, downSince := s.now })
      let s := history (history s 6 1 cause n p) 6 2 0 m p
      if (List.range 16).all (fun k => !(lane s k).reserve) then history s 6 7 0 m noLogical else s
    | [] =>
      if cause = 4 && (List.range 16).any (fun m => m ≠ n && (lane s m).inPort && (lane s m).port = p && (lane s m).state = 2) then
        history (modLane s n (fun l => { l with inPort := false, state := 0, rate := 0, slot := false })) 6 1 cause n p
      else s

/-- SAS lanes in row 3 of R47. -/
def laneBoundary (s : State) : State := (List.range 16).foldl replaceLane s

/-! ### Discovery (R352–R354) -/

/-- BROADCAST_CHANGE (R352). -/
def execBroadcastChange (s : State) : Host.Outcome State Fault Refusal :=
  .next { s with drives := { s.drives with running := true, broadcasts := inc 0xFFFF s.drives.broadcasts } }

/-- R354. -/
def suitable (s : State) (d : FoundDrive) : Bool :=
  (d.logicalBlock = 512 || d.logicalBlock = 4096) && d.physicalBlock = 4096 && !d.protection &&
  (s.ch (·.units) 1 = 1 || (!d.sata && d.ports = 2))

/-- The state of a member whose drive is found: Online, Hot spare when layouts name it only so, Unassigned when nothing names it. -/
def foundState (s : State) (m : Nat) : Nat :=
  let ps := (s.ch (·.layouts) []).flatMap (fun l => l.groups ++ l.keystones)
  if ps.any (fun p => p.members.contains m) || alwaysSpins s m || s.degrade.placed.any (fun e => e.2.2.2 = m) then 1
  else if ps.any (fun p => p.hotSpares.contains m) then 5 else 8

/-- One member after a discovery run: bound to the drive in its slot, or missing (R353). -/
def bindMember (s : State) (found : List FoundDrive) (d : MemberDef) : State :=
  let m := d.member
  let x := mem s m
  let out := x.state = 3 || x.state = 4 || x.state = 6 || x.state = 7
  let known := s.registry.drives.find? (fun e => e.1 = m)
  match found.find? (fun f => f.enclosure = d.enclosure && f.slot = d.slot && suitable s f && known.all (fun k => k.2.1 = f.serial)) with
  | some f =>
    if out then s
    else
      let s : State := if known.isNone then { s with registry := { s.registry with drives := tset s.registry.drives m (f.serial, f.sasAddr, f.capacity) } } else s
      modMem (if x.state = 0 || x.state = 8 then setMem s m (foundState s m) else s) m (fun x => { x with
        present := true, missingSince := none, serial := f.serial, sasAddr := f.sasAddr, capacity := f.capacity, sata := f.sata })
  | none => modMem s m (fun x => { x with present := false, missingSince := if out then none else some (x.missingSince.getD s.now) })

/-- A drive that serves no member. -/
def unbound (s : State) (f : FoundDrive) : Bool :=
  !((s.ch (·.members) []).any (fun d => d.enclosure = f.enclosure && d.slot = f.slot && (mem s d.member).present && (mem s d.member).serial = f.serial))

/-- DISCOVERY_RUN_END (R352–R354). -/
def discoveryEnd (s : State) (found : List FoundDrive) (expanders enclosures beyond : Nat) : State :=
  let s := if 0 < beyond then fire s 0x10 2 0xFFFFFFFF [] false else s
  let s := (found.filter (fun f => !suitable s f)).foldl (fun s f => fire s 0x10 3 f.slot (natLe 8 f.enclosure ++ natLe 8 f.sasAddr) false) s
  let s := (s.ch (·.members) []).foldl (fun s d => bindMember s found d) s
  { s with drives := { s.drives with
      running := false, lastDiscovery := s.now, expanders, enclosures, beyond := hold 0xFF (s.drives.beyond + beyond)
      unassigned := found.filter (unbound s) } }

def execDiscoveryRunEnd (drives : List FoundDrive) (expanders enclosures beyond : Nat) (s : State) : Host.Outcome State Fault Refusal :=
  .next (if opfin s then discoveryEnd s drives expanders enclosures beyond else s)

end Sys2Proof.Machine
end

