-- ==== Sys2Proof/Machine/Commands.lean ====
section
/-! DEFINITION. Admin commands that report, set features, or write images (11 R303–R317, R321). -/

namespace Sys2Proof.Machine

/-- The accepted command of an opcode that its row may act on. -/
def startedCmd (s : State) (tag opcode : Nat) : Option Cmd := cmdIn s tag (fun c => c.phase = .started && c.hdr.opcode = opcode && !c.failed)

/-! ### Structures (R303, R304, R309) -/

/-- The places a member has in layouts: (layout index, pool, position), members of pools first, then hot spares with no position. -/
def memberPlaces (s : State) (m : Nat) : List (Nat × Nat × Option Nat) :=
  let pools := (s.ch (·.layouts) []).flatMap (fun l => l.pools.map (fun p => (l, p.1, p.2)))
  pools.filterMap (fun e => ((poolSeats s e.1 e.2.1 e.2.2).findIdx? (· = m)).map (fun i => (e.1.index, e.2.1, some i))) ++
    pools.filterMap (fun e => if e.2.2.hotSpares.contains m then some (e.1.index, e.2.1, none) else none)

/-- A member entry of page 0x10 (R309); the position of a hot spare, which has none, is a free value. -/
def memberEntry (s : State) (m : Nat) : List Byte :=
  let x := mem s m
  let p := (memberPlaces s m).head?
  let drive : Option (Nat × Nat × Nat) :=
    if x.present && x.state ≠ 3 && x.state ≠ 4 then some (x.serial, x.sasAddr, x.capacity) else (s.registry.drives.find? (fun e => e.1 = m)).map (·.2)
  let pos := match p with
    | some (_, _, some i) => natLe 2 i
    | some (_, _, none) => natLe 2 (Config.freeValue (s.free + m)).toNat
    | none => natLe 2 0xFFFF
  padTo 64 (natLe 2 m ++ natLe 1 x.state ++ natLe 1 (memGroup s m) ++ natLe 1 ((p.map (·.1)).getD 0xFF) ++ natLe 1 ((p.map (·.2.1)).getD 0xFF) ++ pos ++
    natLe 8 ((drive.map (·.2.1)).getD 0) ++ natLe 8 ((drive.map (·.2.2)).getD 0) ++
    natLe 4 (countIf (fun t => s.mgmt.opMs < t + errorWindowMs s) x.events) ++ zeros 4 ++
    (match drive with
      | some d => natLe 20 d.1
      | none => List.replicate 20 0x20) ++ zeros 4 ++ natLe 8 x.stateClose)

/-- The free values that a list of member entries takes are used up. -/
def useFree (s : State) (n : Nat) : State := { s with free := s.free + n }

/-- The device structure (R304). -/
def deviceStruct (s : State) : List Byte :=
  padTo 4096 (natLe 4 0x0007_2048 ++ natLe 1 Config.stepping.toNat ++ natLe 1 s.pair.role ++ natLe 1 s.power.state ++
    natLe 1 (if s.chip.chainAbsent then 0xFF else s.chain.address.getD 0xFF) ++
    natLe 8 s.fuses.serial ++ natLe 8 (if s.ch (·.units) 1 = 1 then 0 else partnerSerial s) ++ natLe 8 (s.ch (·.seq) 0) ++ natLe 8 s.chip.fwSeq ++
    natLe 2 (s.ch (·.secVersion) 0) ++ natLe 2 s.chip.fwSv ++ natLe 2 (wicketCount s) ++ natLe 2 (s.ch (·.queueLimit) 0) ++
    natLe 2 (s.ch (·.volumes.length) 0) ++ natLe 1 (s.ch (·.vaults.length) 0) ++ natLe 1 (s.ch (·.layouts.length) 0) ++
    natLe 2 (countIf (fun (e : Nat × Member) => e.2.present) s.drives.members) ++ natLe 1 (s.ch (·.groups.length) 0) ++ natLe 1 (feature s 4) ++
    natLe 8 s.mgmt.opMs ++ padTo 48 (s.ch (·.digest) []) ++ padTo 32 (s.ch (·.product) []) ++
    (List.range 64).map Config.firmwareText ++ natLe 4 s.mgmt.powerCycles)

/-- The volume structure (R304). -/
def volumeStruct (s : State) (v : Nat) : List Byte :=
  padTo 128 (padTo 64 (((volDef s v).map (·.raw)).getD []) ++ natLe 8 (regVolState s v) ++ natLe 8 (regVolAlloc s v) ++ natLe 8 (regVolHealth s v) ++
    natLe 8 (regVolReshape s v) ++ natLe 1 (s.ch (·.regionLog) 0))

/-- A command ends with a byte string as its data and its length as the first result field. -/
def finishBytes (s : State) (tag : Nat) (bs : List Byte) : State := finishData s tag (Memory.ofBytes bs) bs.length (natLe 4 bs.length)

/-- IDENTIFY (R303, R304). -/
def identify (s : State) (tag : Nat) : State :=
  match startedCmd s tag 0x80 with
  | none => s
  | some c =>
    let h := c.hdr
    match h.f 24 1 with
    | 0 => finishBytes s tag (deviceStruct s)
    | 1 => finishBytes s tag (volumeStruct s h.volume)
    | 2 => finishBytes (useFree s 2048) tag (memberEntry s (h.f 26 2))
    | _ => finishBytes s tag (((layoutOf s (h.f 25 1)).map (·.raw)).getD [])

def execIdentify (tag : Nat) (s : State) : Host.Outcome State Fault Refusal :=
  .next (identify s tag)

/-! ### Log pages (R305–R309, R155, R245, R371, R404, R461) -/

/-- The sequence number of the active image of a kind. -/
def activeSeq (s : State) (kind : Nat) : Nat := if kind = 0 then s.ch (·.seq) 0 else s.chip.fwSeq

/-- The slot that the boot ROM selected, and the one that it did not (R19). -/
def activeSlot (s : State) (kind : Nat) : Nat := if kind = 0 then s.chip.charterSel else s.chip.fwSel
def idleSlot (s : State) (kind : Nat) : Nat := 1 - activeSlot s kind

def dl (s : State) (kind : Nat) : Download := if kind = 0 then s.flash.charterDl else s.flash.fwDl

/-- The code of a slot's check at the latest start-up. -/
def bootCode (s : State) (kind slot : Nat) : Nat :=
  if kind = 0 then (if slot = 0 then s.chip.charter0 else s.chip.charter1) else (if slot = 0 then s.chip.fw0 else s.chip.fw1)

/-- An entry of page 0x02 (R308); sequence, version and lengths as the slot's header holds them in flash. -/
def slotEntry (s : State) (kind slot : Nat) : List Byte :=
  let h := flashBytes s (slotBase kind slot) 32
  let d := dl s kind
  let act := slot = activeSlot s kind && bootCode s kind slot = 0
  padTo 64 (natLe 1 kind ++ natLe 1 slot ++ natLe 1 (if !act && 3 ≤ d.state then d.code else bootCode s kind slot) ++ natLe 1 (if act then 1 else d.state) ++
    natLe 2 (le h 24 2) ++ natLe 1 (le h 26 1) ++ [0] ++ natLe 8 (le h 16 8) ++ natLe 4 (le h 8 4))

/-- An entry of page 0x11 (R371). -/
def groupEntry (s : State) (g : Nat) : List Byte :=
  let x := grp s g
  let d := groupDef s g
  let ms := (s.ch (·.members) []).filter (fun m => m.group = g)
  padTo 64 (natLe 1 g ++ natLe 1 (if d.isSome then x.state else 0xFF) ++ natLe 1 (b1 (d.any (·.shelfPower))) ++
    natLe 1 (maskOf ((s.gov.demands.filter (fun k => k.groups.contains g)).map (fun k => k.cls - 1))) ++
    natLe 2 ms.length ++ natLe 2 (countIf (fun (m : MemberDef) => (mem s m.member).ready) ms) ++ natLe 8 x.granted ++ natLe 8 x.endAt ++ natLe 4 x.windowsTotal ++
    natLe 4 (countIf (fun (c : Cmd) => c.phase = .parked && c.groups.contains g) s.cmds) ++ natLe 8 (overdueRows s g) ++ natLe 8 (x.upCloses / 125000))

/-- An account entry (R284). -/
def acctBytes (a : AcctLine) : List Byte :=
  natLe 2 (a.tag % 16384) ++ natLe 2 a.wicket ++ natLe 2 a.seq ++ natLe 1 a.fate ++ natLe 1 a.opcode ++ natLe 8 a.close

/-- A loss-ledger entry (R155). -/
def lossBytes (e : LossEntry) : List Byte :=
  let b := natLe 2 e.volume ++ natLe 1 e.cause ++ [0] ++ natLe 4 e.blocks ++ natLe 8 e.lba ++ natLe 8 e.close ++ natLe 4 e.powerCycle
  b ++ natLe 4 (crc32c b).toNat

/-- A reserve-history entry (R461). -/
def histBytes (e : HistEntry) : List Byte :=
  natLe 1 e.element ++ natLe 1 e.action ++ natLe 1 e.cause ++ [0] ++ natLe 4 e.physical ++ natLe 4 e.logical ++ natLe 4 e.powerCycle ++
    natLe 8 e.close ++ natLe 4 e.seq ++ zeros 4

/-- The entry of page 0x50 (R404). -/
def auditBytes (a : AuditEnd) : List Byte :=
  padTo 128 (natLe 8 a.seq ++ natLe 8 a.mark ++ natLe 8 a.taken ++ natLe 8 a.records ++ natLe 1 a.scope ++ natLe 1 a.result ++ natLe 2 a.volume ++
    natLe 1 (b1 a.mapBad) ++ natLe 1 a.witness ++ zeros 10 ++ natLe 32 (maskOf a.bad))

/-- Durable loss entries in page order. -/
def lossPage (s : State) : List LossEntry :=
  (s.degrade.loss.filter (·.durable)).mergeSort (fun a b => decide (a.volume < b.volume) || a.volume = b.volume && decide (a.lba ≤ b.lba))

/-- A page with its header (R307). -/
def logPage (page size close serial : Nat) (es : List (List Byte)) : List Byte :=
  natLe 1 page ++ [1] ++ natLe 2 size ++ natLe 4 es.length ++ natLe 8 close ++ natLe 8 serial ++ zeros 8 ++ es.flatten

/-- The pages of R306; none for a number that is not a page. -/
def pageBytes (s : State) (page : Nat) : Option (List Byte) :=
  match page with
  | 0x02 => some (logPage 2 64 s.now 0 [slotEntry s 0 0, slotEntry s 0 1, slotEntry s 1 0, slotEntry s 1 1])
  | 0x10 => some (logPage 0x10 64 s.now 0 ((List.range 2048).map (memberEntry s)))
  | 0x11 => some (logPage 0x11 64 s.now 0 ((List.range 64).map (groupEntry s)))
  | 0x20 => some (logPage 0x20 16 s.pair.accountClose s.pair.failedSerial (s.pair.account.map acctBytes))
  | 0x21 => some (logPage 0x21 16 s.resets.accountClose 0 (s.resets.account.map acctBytes))
  | 0x30 => some (logPage 0x30 32 s.now 0 ((lossPage s).map lossBytes))
  | 0x40 => some (logPage 0x40 32 s.now 0 (s.reserves.history.map histBytes))
  | 0x50 => some (logPage 0x50 128 s.now 0 (s.pair.lastAudit.toList.map auditBytes))
  | _ => none

/-- GET LOG answers from a page (R305). -/
def answerLog (s : State) (c : Cmd) : State :=
  match pageBytes s (c.hdr.f 24 1) with
  | none => finish s c.hdr.tag 0x10 0x10 []
  | some p =>
    let bs := (p.drop (c.hdr.f 32 8)).take (c.hdr.f 28 4)
    let s := if c.hdr.f 24 1 = 0x10 then useFree s 2048 else s
    finishData s c.hdr.tag (Memory.ofBytes bs) bs.length (natLe 4 bs.length ++ natLe 4 p.length ++ natLe 8 (le p 8 8))

/-- GET LOG (R305–R307): pages 0x20 and 0x21 at once, every other from the snapshot of the next boundary. -/
def getLog (s : State) (tag : Nat) : State :=
  match startedCmd s tag 0x81 with
  | none => s
  | some c =>
    let page := c.hdr.f 24 1
    if (pageBytes s page).isNone || page = 0x20 || page = 0x21 then answerLog s c else modCmd s tag (fun c => { c with phase := .busy })

def execGetLog (tag : Nat) (s : State) : Host.Outcome State Fault Refusal :=
  .next (if opfin s then getLog s tag else s)

/-- Snapshots at a boundary, after the actions of R47. -/
def logBoundary (s : State) : State :=
  (s.cmds.filter (fun c => c.phase = .busy && c.hdr.opcode = 0x81)).foldl answerLog s

/-! ### Features (R310, R312) -/

/-- GET FEATURE: it answers at the next boundary. -/
def getFeature (s : State) (tag : Nat) : State :=
  match startedCmd s tag 0x82 with
  | none => s
  | some c =>
    let id := c.hdr.f 24 1
    if id = 0 || 5 < id then finish s tag 0x10 0x11 [] else modCmd s tag (fun c => { c with phase := .busy })

def execGetFeature (tag : Nat) (s : State) : Host.Outcome State Fault Refusal :=
  .next (getFeature s tag)

/-- SET FEATURE: a valid value takes effect at the next boundary. -/
def setFeature (s : State) (tag : Nat) : State :=
  match startedCmd s tag 0x83 with
  | none => s
  | some c =>
    let id := c.hdr.f 24 1
    let v := c.hdr.f 32 4
    if id = 0 || 5 < id then finish s tag 0x10 0x11 []
    else if v < (envelope s id).min || (envelope s id).max < v then finish s tag 0x10 0x12 []
    else modCmd { s with feats := { s.feats with due := s.feats.due ++ [(id, v, tag)] } } tag (fun c => { c with phase := .busy })

def execSetFeature (tag : Nat) (s : State) : Host.Outcome State Fault Refusal :=
  .next (setFeature s tag)

/-- A feature takes a value. -/
def putFeature (s : State) (id v : Nat) : State :=
  { s with feats := { s.feats with
      value := tset s.feats.value id v
      holdoffs := if id = 2 then (s.now, v) :: s.feats.holdoffs else s.feats.holdoffs } }

/-- Features in row 5 of R47: changes in acceptance order, then the answers of this boundary. -/
def featureBoundary (s : State) : State :=
  let pos := fun (t : Nat) => ((findCmd s t).map (·.pos)).getD ⟨0, 0, 0⟩
  let due := s.feats.due.mergeSort (fun a b => !(pos b.2.2).lt (pos a.2.2))
  let s := due.foldl (fun s e => putFeature s e.1 e.2.1) { s with feats := { s.feats with due := [] } }
  (s.cmds.filter (fun c => c.phase = .busy && (c.hdr.opcode = 0x82 || c.hdr.opcode = 0x83))).foldl (fun s c =>
    let id := c.hdr.f 24 1
    let e := envelope s id
    finishAt s c.hdr.tag s.now 0 0 (if c.hdr.opcode = 0x83 then natLe 4 (feature s id) else natLe 4 (feature s id) ++ natLe 4 e.min ++ natLe 4 e.max ++ natLe 4 e.dflt)) s

/-! ### Images (R313–R317) -/

def setDl (s : State) (kind : Nat) (d : Download) : State :=
  { s with flash := if kind = 0 then { s.flash with charterDl := d } else { s.flash with fwDl := d } }

/-- The torn ranges that a write of a whole range leaves torn. -/
def mended (torn : List (Nat × Nat)) (a len : Nat) : List (Nat × Nat) := torn.filter (fun e => !(a ≤ e.1 && e.1 + e.2 ≤ a + len))

/-- Bytes programmed into the flash; where the operation fails, what the bytes hold is free. -/
def flashWrite (s : State) (a : Nat) (bs : List Byte) (good : Bool) : State :=
  let n := s.free
  let bs' := if good then bs else (List.range bs.length).map (fun i => (Config.freeValue (n + i)).truncate 8)
  { s with
    flash := { s.flash with cells := Memory.writeN 0xFF s.flash.cells a bs', torn := mended s.flash.torn a bs.length }
    free := if good then n else n + bs.length }

/-- An area erased. -/
def flashEraseArea (s : State) (a len : Nat) : State :=
  { s with flash := { s.flash with cells := Memory.place 0xFF s.flash.cells a len [], torn := mended s.flash.torn a len } }

/-- An image record of the daybook (R480 kind 0x19). -/
def imageRecord (s : State) (cause kind code seq : Nat) : State :=
  fire s 0x19 cause kind (natLe 1 (idleSlot s kind) ++ natLe 1 code ++ zeros 6 ++ natLe 8 seq) false

/-- A download or a programmed commit fails: the state is Failed and recorded. -/
def dlFails (s : State) (kind code seq : Nat) : State :=
  imageRecord (setDl s kind { dl s kind with state := 5, code }) 3 kind code seq

/-- Checks 2, 3, 5, 6 and 9 of R21 on a header, then the sequence number (R314). -/
def pieceCode (s : State) (kind : Nat) (h : List Byte) : Nat :=
  if le h 0 4 ≠ (if kind = 0 then 0x5A434843 else 0x5A434657) then 2
  else if le h 4 2 ≠ 1 || le h 6 2 ≠ 512 || slotSize kind - 512 < le h 8 4 || 64 < le h 24 2 then 3
  else if le h 12 4 ≠ 0x72048 then 5
  else if keyEntry s kind (le h 26 1) ≠ some (sha384 ((h.drop 32).take 96)) then 6
  else if le h 24 2 < counter s kind then 9
  else if le h 16 8 ≤ activeSeq s kind then 0x0C
  else 0

/-- The remaining checks of R21 on the whole image, with the kept magic in place of bytes 0–3 of the slot (R315). -/
def imageCode (s : State) (kind : Nat) : Nat :=
  let base := slotBase kind (idleSlot s kind)
  let h := (dl s kind).magic ++ (flashBytes s base 512).drop 4
  let bd := flashBytes s (base + 512) (le h 8 4)
  if (~~~ (crcRun (crcRun 0xFFFFFFFF (h.take 508)) bd)).toNat ≠ le h 508 4 then 4
  else if sha384 bd ≠ (h.drop 128).take 48 then 7
  else if !p384Verify ((h.drop 32).take 96) ((h.drop 176).take 96) (sha384 (h.take 176)) then 8
  else if kind ≠ 0 then 0
  else match parseCharter h bd ((h.drop 128).take 48) with
    | none => 0xA
    | some c => if c.serial0 = s.fuses.serial || c.units = 2 && c.serial1 = s.fuses.serial then 0 else 0xB

/-- An earlier image command of the same kind that has not been carried out. -/
def imageAhead (s : State) (c : Cmd) (p : Cmd → Bool) : Bool :=
  s.cmds.any (fun e => (e.hdr.opcode = 0x84 || e.hdr.opcode = 0x85) && !e.failed && e.hdr.f 24 1 = c.hdr.f 24 1 && e.pos.lt c.pos && p e)

/-- The last piece is programmed: the image is verified (R315). -/
def imageEnd (s : State) (tag kind upTo : Nat) : State :=
  let h := (dl s kind).header
  let code := if upTo ≠ 512 + le h 8 4 then 3 else imageCode s kind
  let seq := le h 16 8
  if code = 0 then finishAt (imageRecord (setDl s kind { dl s kind with state := 3, code := 0 }) 2 kind 0 seq) tag (s.now + 1) 0 0 []
  else finishAt (dlFails s kind code seq) tag (s.now + 1) 0x11 code []

/-- A piece is programmed, from byte 4 of the image on (R313, R314). -/
def programPiece (s : State) (c : Cmd) (good : Bool) : State :=
  let kind := c.hdr.f 24 1
  let off := c.hdr.f 32 4
  let tag := c.hdr.tag
  let bs := Memory.bytes c.payload c.hdr.d
  let base := slotBase kind (idleSlot s kind)
  let s := modCmd s tag (fun c => { c with begun := true, payload := [] })
  let s := if off = 0 then setDl (flashEraseArea s base (slotSize kind)) kind { state := 2, code := 0, magic := bs.take 4, header := bs.take 512 } else s
  let s := setDl s kind { dl s kind with upTo := off + c.hdr.d }
  let s := if off = 0 then flashWrite s (base + 4) (bs.drop 4) good else flashWrite s (base + off) bs good
  if !good then finishAt (dlFails s kind 0x0F (le (dl s kind).header 16 8)) tag (s.now + 1) 0x11 0x0F []
  else if bit c.hdr.flags 0 then imageEnd s tag kind (off + c.hdr.d)
  else finishAt s tag (s.now + 1) 0 0 []

/-- FW DOWNLOAD (R313–R315, R317): a piece whose bytes have all been taken. -/
def fwDownload (s : State) (tag : Nat) (good : Bool) : State :=
  match cmdIn s tag (fun c => c.phase = .busy && c.hdr.opcode = 0x84 && !c.failed && c.taken = c.hdr.d) with
  | none => s
  | some c =>
    let kind := c.hdr.f 24 1
    let off := c.hdr.f 32 4
    if imageAhead s c (fun e => e.phase = .started || e.phase = .busy) then s
    else if off = 0 && c.hdr.d < 512 then finish s tag 0x10 0x0B []
    else if off ≠ 0 && ((dl s kind).state ≠ 2 || off ≠ (dl s kind).upTo) then finish s tag 0x11 0x0D []
    else if slotSize kind < off + c.hdr.d then finish (dlFails s kind 3 (le (dl s kind).header 16 8)) tag 0x11 3 []
    else if off = 0 then
      let s := setDl s kind {}
      let code := pieceCode s kind (Memory.bytes c.payload 512)
      if code = 0 then programPiece s c good else finish s tag 0x11 code []
    else programPiece s c good

def execFwDownload (tag : Nat) (flashGood : Bool) (s : State) : Host.Outcome State Fault Refusal :=
  .next (if opfin s then fwDownload s tag flashGood else s)

/-- The accepted FW COMMIT of an action that every earlier image command of its kind lets act (R317). -/
def imageCmd (s : State) (tag action : Nat) : Option Cmd :=
  (startedCmd s tag 0x85).filter (fun c => c.hdr.f 25 1 = action && !imageAhead s c (fun _ => true))

/-- FW COMMIT, action Commit (R316). -/
def fwCommit (s : State) (tag : Nat) (good : Bool) : State :=
  match imageCmd s tag 0 with
  | none => s
  | some c =>
    let kind := c.hdr.f 24 1
    let d := dl s kind
    if d.state ≠ 3 then finish s tag 0x11 0x0E []
    else
      let seq := le d.header 16 8
      let s := flashWrite (modCmd s tag (fun c => { c with begun := true })) (slotBase kind (idleSlot s kind)) d.magic good
      if good then finish (imageRecord (setDl s kind { d with state := 4, code := 0 }) 4 kind 0 seq) tag 0 0 []
      else finish (dlFails s kind 0x0F seq) tag 0x11 0x0F []

def execFwCommit (tag : Nat) (flashGood : Bool) (s : State) : Host.Outcome State Fault Refusal :=
  .next (if opfin s then fwCommit s tag flashGood else s)

/-- FW COMMIT, action Abandon (R316). -/
def fwAbandon (s : State) (tag : Nat) (good : Bool) : State :=
  match imageCmd s tag 1 with
  | none => s
  | some c =>
    let kind := c.hdr.f 24 1
    let base := slotBase kind (idleSlot s kind)
    let seq := le (dl s kind).header 16 8
    let s := modCmd s tag (fun c => { c with begun := true })
    if good then finish (imageRecord (setDl (flashEraseArea s base 0x1_0000) kind {}) 5 kind 0 seq) tag 0 0 []
    else finish (dlFails (flashWrite s base (zeros 0x1_0000) false) kind 0x0F seq) tag 0x11 0x0F []

def execFwAbandon (tag : Nat) (flashGood : Bool) (s : State) : Host.Outcome State Fault Refusal :=
  .next (if opfin s then fwAbandon s tag flashGood else s)

/-! ### HOST TIME MARK (R321, R423) -/

/-- The record of a mark takes the next sequence at once. -/
def timeMark (s : State) (c : Cmd) : State :=
  let seq := s.daybook.next
  let r := dbRec s 1 0 c.wicket (natLe 8 (c.hdr.f 32 8) ++ natLe 8 (c.hdr.f 40 8)) [] false
  let s : State := { s with daybook := { s.daybook with
    kinds := tmod {} s.daybook.kinds 1 (fun k => { k with count := inc 0xFFFF k.count })
    next := seq + 1 } }
  let s := daybookStore s seq r
  finishAt (modCmd s c.hdr.tag (fun c => { c with begun := true })) c.hdr.tag (s.now + 1) 0 0 (natLe 8 seq ++ natLe 8 s.mgmt.opMs ++ natLe 4 s.mgmt.powerCycles)

/-- HOST TIME MARK. -/
def execHostTimeMark (tag : Nat) (s : State) : Host.Outcome State Fault Refusal :=
  .next (match startedCmd s tag 0x89 with
    | none => s
    | some c => timeMark s c)

end Sys2Proof.Machine
end

