-- ==== Sys2Proof/Machine/Interrupts.lean ====
section
/-! DEFINITION. Interrupt commands (09 R239–R242). -/

namespace Sys2Proof.Machine

/-- INTERRUPT_MODE_CHANGE (R239): the enables that a configuration write sets. -/
def execInterruptModeChange (msix msi intxDisable : Bool) (mme : Nat) (s : State) : Host.Outcome State Fault Refusal :=
  .next (updateIrq { s with cfg := { s.cfg with msixEnable := msix, msiEnable := msi, intxDisable := intxDisable, mme := min 5 mme } })

/-- VECTOR_UNMASK (R241): the mask of one vector is removed; its message goes if it is pending and active. -/
def execVectorUnmask (vector : Nat) (s : State) : Host.Outcome State Fault Refusal :=
  .next (updateIrq (
    if intModeOf s.cfg = 3 then
      if vector < 65 then { s with ints := { s.ints with table := tmod {} s.ints.table vector (fun e => { e with mask := false }) } } else s
    else { s with cfg := { s.cfg with msiMask := s.cfg.msiMask &&& ~~~(BitVec.ofNat 32 (2 ^ vector)) } }))

/-- Source bits cleared by writing 1 (R9, R241). -/
def clearSources (s : State) (rings : BitVec 64) (mgmt : BitVec 10) : State :=
  updateIrq { s with ints := { s.ints with ringPending := s.ints.ringPending &&& ~~~rings, cause := s.ints.cause &&& ~~~mgmt } }

/-- INT_PENDING_CLEAR (R241). -/
def execIntPendingClear (rings : BitVec 64) (mgmt : BitVec 10) (s : State) : Host.Outcome State Fault Refusal :=
  .next (if writesTaken s then clearSources s rings mgmt else s)

/-- A source bit is set as a hardware set: ring n, or TEST of the management causes; other numbers are reserved (INT_TEST). -/
def testFire (s : State) (source : Nat) : State :=
  if source < 64 then ringCause s source else if source = 64 then mgmtCause s 9 else s

/-- INT_TEST_FIRE (R241): FIRE with SOURCE; a reserved SOURCE keeps its previous value (R11). -/
def intTest (s : State) (source : Nat) : State :=
  let src := if source ≤ 64 then source else s.ints.testSource
  testFire { s with ints := { s.ints with testSource := src } } src

def execIntTestFire (source : Nat) (s : State) : Host.Outcome State Fault Refusal :=
  .next (if writesTaken s then intTest s source else s)

end Sys2Proof.Machine
end

