-- ==== Sys2Proof/Machine/Vault.lean ====
section
/-! DEFINITION. Vault volumes (12 R327–R348): sessions, objects, seals, audits. The index and the superblock are held as the objects and the generations they carry; what a node of the index area holds byte by byte is not given (log entry 26). -/

namespace Sys2Proof.Machine

/-! ### Order (R345) -/

/-- Not decided or not landed yet. -/
def Cmd.unsettled (c : Cmd) : Bool := !c.failed && (c.phase = .started || c.phase = .busy || c.phase = .waiting || c.phase = .landing || c.phase = .parked)

/-- The tag that stands in an effect whose command a queue reset removed: no command has it. -/
def goneTag : Nat := 65535

/-- An earlier overlapping command whose effect is still to come, or the effect of one that a queue reset removed. -/
def vaultAhead (s : State) (c : Cmd) (p : Cmd → Bool) : Bool :=
  s.cmds.any (fun e => e.pos.lt c.pos && e.vaultOverlap c && e.unsettled && p e) ||
    accountHolds s c.hdr.volume 0 (2 ^ 64) ||
    s.vaults.effects.any (fun e => e.2.1 = goneTag && (findRec s e.1).any (fun r => r.volume = c.hdr.volume && r.pos.lt c.pos))

/-- Changes what a later command sees: every vault write. -/
def Cmd.vaultWrite (c : Cmd) : Bool := c.hdr.vaultWrite

/-! ### Effects that land (R333) -/

/-- A record of a vault command whose effect is formed: written whole, it lands with its effect. -/
def vaultRecord (s : State) (c : Cmd) (body : Cells) (len : Nat) (span : Option (Nat × Nat)) (e : VaultEffect) : State :=
  let (s, seq) := writeRec s { cmdRecord s c.hdr c.ring c.cseq c.pos 7 with body, bodyLen := len, span }
  let s : State := { s with vaults := { s.vaults with effects := s.vaults.effects ++ [(seq, c.hdr.tag, e)] } }
  modCmd s c.hdr.tag (fun c => { c with recSeq := some seq, phase := .landing })

/-- The index entry of an object (R329). -/
def indexEntry (o : Object) : List Byte :=
  let b := padTo 252 (padTo 32 o.key ++ natLe 8 o.size ++ natLe 8 o.first ++ natLe 8 o.run ++ padTo 32 o.digest ++ padTo 32 o.tableDigest ++ natLe 8 o.ingest ++
    natLe 8 o.retention ++ natLe 8 o.wall ++ natLe 8 o.lastAudit ++ natLe 1 o.state)
  b ++ natLe 4 (crc32c b).toNat

/-- The change of one vault command as its record holds it behind a segment table: what opens, closes or is stored, sealed or removed (R99). The order
of these fields in the record is the model's (DESIGN CHOICE, log entry 26). -/
def effectBytes (e : VaultEffect) : List Byte :=
  match e with
  | .begin x => padTo 32 x.key ++ natLe 8 x.size ++ natLe 8 x.run ++ natLe 8 (b1 x.replace)
  | .data _ _ _ => []
  | .store n o => natLe 8 n ++ indexEntry o
  | .drop n => natLe 8 n
  | .sealKey _ k p w => padTo 32 k ++ natLe 8 p ++ natLe 8 w
  | .remove _ k => padTo 32 k

/-- The index record of a vault command: the blocks it writes itself, then its change (R99). -/
def indexRecord (s : State) (c : Cmd) (table : Cells) (len : Nat) (span : Option (Nat × Nat)) (e : VaultEffect) : State :=
  let bytes := effectBytes e
  vaultRecord s c (Memory.writeN 0 table len bytes) (len + bytes.length) span e

/-- A command that changes the index is a write of its blocks: a band that holds none of them yet is allocated, or the command ends SpaceExhausted
(R92, R333). The index changes of a command are taken to lie in the first blocks of the volume (DESIGN CHOICE, log entry 26). -/
def indexChange (s : State) (c : Cmd) (go : State → State) : State :=
  match allocRange s c.hdr.volume 0 3 with
  | none => finish s c.hdr.tag 0x30 3 []
  | some s => go s

/-- The first heap block of a vault volume (R327). -/
def heapStart (s : State) (v : Nat) : Nat :=
  2 + indexBlocks (s.ch (fun c => ((c.vaults.find? (fun e => e.volume = v)).map (·.objectLimit)).getD 0) 0)

/-- Runs that are taken: of objects, of sessions, and those that a pending reader pins (R341). -/
def takenRuns (s : State) (v : Nat) : List (Nat × Nat) :=
  ((((findVault s v).map (·.objects)).getD []).map (fun o => (o.first, o.run)) ++
    (s.vaults.sessions.filter (fun x => x.vault = v)).map (fun x => (x.first, x.run)) ++
    (s.cmds.filter (fun c => c.hdr.volume = v)).filterMap (fun c => c.obj.map (fun o => (o.first, o.run))) ++
    (s.vaults.jobs.filter (fun j => j.vault = v)).map (fun j => (j.obj.first, j.obj.run))).filter (fun e => 0 < e.2)

/-- The lowest run of n free heap blocks (R334). -/
def freeHeap (s : State) (v n : Nat) : Option Nat :=
  let taken := takenRuns s v
  let cap := ((volDef s v).map (·.capacity)).getD 0
  minOf ((heapStart s v :: taken.map (fun e => e.1 + e.2)).filter (fun b => b + n ≤ cap && !taken.any (fun e => b < e.1 + e.2 && e.1 < b + n)))

/-- Result of a vault command that lands. -/
def landed (s : State) (tag status detail : Nat) (result : List Byte) : State :=
  modCmd s tag (fun c => { c with status, detail, result })

/-- The conditions of R334 in order. -/
def openRefusal (s : State) (x : Session) : Option (Nat × Nat) :=
  let o := findObj s x.vault x.key
  let limit := s.ch (fun c => ((c.vaults.find? (fun e => e.volume = x.vault)).map (·.objectLimit)).getD 0) 0
  let t := ((findVault s x.vault).map (·.timeMs)).getD 0
  if s.vaults.sessions.any (fun y => y.vault = x.vault && y.key = x.key) then some (0x70, 1)
  else if o.isSome && !x.replace then some (0x70, 1)
  else if o.any (fun o => t < o.retention) then some (0x70, 7)
  else if o.isNone && limit ≤ (((findVault s x.vault).map (·.objects.length)).getD 0) + countIf (fun (y : Session) => y.vault = x.vault && y.isNew) s.vaults.sessions then some (0x70, 8)
  else if s.ch (·.sessionLimit) 256 ≤ s.vaults.sessions.length then some (0x70, 4)
  else if (freeHeap s x.vault x.run).isNone then some (0x30, 3)
  else none

/-- PUT BEGIN lands (R334). -/
def landOpen (s : State) (tag : Nat) (x : Session) : State :=
  match openRefusal s x, freeHeap s x.vault x.run with
  | some e, _ => landed s tag e.1 e.2 []
  | none, none => s
  | none, some b =>
    let n := s.vaults.nextSession
    let y : Session := { x with number := n, first := b, lastUse := s.now, isNew := (findObj s x.vault x.key).isNone }
    let s : State := { s with vaults := { s.vaults with sessions := s.vaults.sessions ++ [y], nextSession := if n = 2 ^ 32 - 1 then 1 else n + 1 } }
    landed (modCmd s tag (fun c => { c with session := n })) tag 0 0 (natLe 4 n ++ zeros 4 ++ natLe 8 b)

def findSession (s : State) (n : Nat) : Option Session := s.vaults.sessions.find? (fun x => x.number = n)

def dropSession (s : State) (n : Nat) : State := { s with vaults := { s.vaults with sessions := s.vaults.sessions.filter (fun x => x.number ≠ n) } }

/-- A PUT DATA lands (R335). -/
def landData (s : State) (tag n upTo : Nat) (bytes : Cells) : State :=
  match findSession s n with
  | none => landed s tag 0x70 3 []
  | some x =>
    let s : State := { s with vaults := { s.vaults with sessions := modIf (fun y => y.number = n) (fun y => { y with
      received := upTo, bytes := Memory.place 0 y.bytes x.received (upTo - x.received) bytes }) s.vaults.sessions } }
    landed s tag 0 0 (natLe 8 upTo)

/-- A key's object goes: a background audit of it ends without outcome (R346). -/
def removeObj (s : State) (v : Nat) (k : Key) : State :=
  let s := modVault s v (fun x => { x with objects := x.objects.filter (fun o => o.key ≠ k) })
  { s with vaults := { s.vaults with
      jobs := s.vaults.jobs.filter (fun j => !(j.vault = v && j.obj.key = k))
      repairs := s.vaults.repairs.filter (fun r => !(r.vault = v && r.key = k)) } }

/-- The object of a key is sealed at the vault time now (R331). -/
def sealedNow (s : State) (v : Nat) (k : Key) : Bool :=
  (findObj s v k).any (fun o => ((findVault s v).map (·.timeMs)).getD 0 < o.retention)

/-- PUT END lands (R336), at the close that has just ended (R43): the object is stored, and an earlier one of its key replaced. -/
def landStore (s : State) (tag n : Nat) (o : Object) : State :=
  match findSession s n with
  | none => landed s tag 0x70 3 []
  | some x =>
    let v := x.vault
    let s := dropSession s n
    if sealedNow s v o.key then landed s tag 0x70 7 []
    else
      let t := ((findVault s v).map (·.timeMs)).getD 0
      let o : Object := { o with ingest := t, lastAudit := t }
      let s := modVault (removeObj s v o.key) v (fun y => { y with objects := y.objects ++ [o] })
      modCmd (landed s tag 0 0 (natLe 8 (s.now - 1))) tag (fun c => { c with data := Memory.ofBytes o.digest, dataLen := 32 })

/-- SEAL lands (R340). -/
def landSeal (s : State) (tag v : Nat) (k : Key) (period wall : Nat) : State :=
  match findObj s v k with
  | none => landed s tag 0x70 2 []
  | some o =>
    let e := max o.retention ((((findVault s v).map (·.timeMs)).getD 0) + period)
    landed (modObj s v k (fun o => { o with retention := e, wall := wall })) tag 0 0 (natLe 8 e)

/-- DELETE lands (R341). -/
def landRemove (s : State) (tag v : Nat) (k : Key) : State :=
  match findObj s v k with
  | none => landed s tag 0x70 2 []
  | some _ => if sealedNow s v k then landed s tag 0x70 7 [] else landed (removeObj s v k) tag 0 0 []

/-- One effect. -/
def landEffect (s : State) (tag : Nat) (e : VaultEffect) : State :=
  match e with
  | .begin x => landOpen s tag x
  | .data n upTo bytes => landData s tag n upTo bytes
  | .store n o => landStore s tag n o
  | .drop n => landed (dropSession s n) tag 0x70 6 []
  | .sealKey v k p w => landSeal s tag v k p w
  | .remove v k => landRemove s tag v k

/-! ### Readers (R338, R339, R342) -/

/-- A list entry (R339). -/
def listEntry (o : Object) : List Byte :=
  padTo 56 (padTo 32 o.key ++ natLe 8 o.size ++ natLe 8 o.retention ++ natLe 1 o.state) ++ natLe 8 o.ingest

/-- What the blocks of a run are, as a reader at a position finds them. -/
def runSources (s : State) (v : Nat) (o : Object) (blocks : List Nat) (before : Rec → Bool) : List (Nat × Source) :=
  blocks.map (fun i => (i, blockSource s v (o.first + i) i before))

def sourceData (src : List (Nat × Source)) : Cells :=
  src.foldl (fun d e => match e.2 with
    | .data b _ => Memory.place 0 d (4096 * e.1) 4096 b
    | _ => d) []

def sourceNeeds (src : List (Nat × Source)) : List Need :=
  src.filterMap (fun e => match e.2 with
    | .members n => some n
    | _ => none)

/-- The positions beyond tolerance among the sources of a run, each with its blocks. -/
def sourceLost (src : List (Nat × Source)) : List (List Nat) :=
  (src.filterMap (fun e => match e.2 with
    | .beyond bs => some bs
    | _ => none)).eraseDups

/-- Each position found beyond tolerance makes its find (R156). -/
def recordLosses (s : State) (v : Nat) (finds : List (List Nat)) : State :=
  finds.foldl (fun s bs => (positionLoss s (bs.map (fun b => (v, b)))).1) s

/-- Source positions beyond tolerance that a read serves from the target of a reshape are rewritten from it (R185). -/
def rewriteSources (s : State) (v : Nat) (o : Object) (needs : List Need) : State :=
  (needs.filter (fun n => n.layout ≠ (vol s v).layout)).foldl (fun s n => rewriteFromTarget s v (o.first + n.idx)) s

/-- A GET or AUDIT OBJECT takes its object's blocks, parks, or issues its member reads. -/
def readObject (s : State) (c : Cmd) (o : Object) (blocks : List Nat) : State :=
  let v := c.hdr.volume
  let tag := c.hdr.tag
  let src := runSources s v o blocks (fun r => recLt r { seq := 0, kind := 1, pos := c.pos, rank := s.ledger.rank })
  if src.any (fun e => e.2 = .wait) then modCmd s tag (fun c => { c with phase := .waiting })
  else
    let pins := (src.filterMap (fun e => match e.2 with
      | .data _ p => p
      | _ => none)).eraseDups
    let needs := sourceNeeds src
    let lost := (sourceLost src).flatten.eraseDups
    let s := rewriteSources (recordLosses s v (sourceLost src)) v o needs
    let groups := (needs.flatMap (Need.groups s)).eraseDups
    let s := modCmd s tag (fun c => { c with data := sourceData src, pins, needs, lost, finds := lossPending s v (blocks.map (· + o.first)), groups, obj := some o, phase := .busy })
    if groups.all (serves s) && !s.pair.fenced then readIssue s tag else if groups.isEmpty then blockDone s tag else parkCmd s tag groups

/-- LIST's entries: the keys from the start key on, in key order (R339). -/
def listRow (s : State) (c : Cmd) : State :=
  let os := (((findVault s c.hdr.volume).map (·.objects)).getD []).mergeSort (fun a b => decide (beNat a.key ≤ beNat b.key))
  let start := beNat c.hdr.key
  let rest := os.filter (fun o => start < beNat o.key || start = beNat o.key && !bit c.hdr.flags 0)
  let es := rest.take c.hdr.blocks
  let bs := es.flatMap listEntry
  finishData s c.hdr.tag (Memory.ofBytes bs) bs.length (natLe 4 es.length ++ natLe 1 (b1 (es.length < rest.length)))

/-- A vault reader acts once nothing it must see is still to come (R345). -/
def vaultReader (s : State) (opcode tag : Nat) : State :=
  match cmdIn s tag (fun c => (c.phase = .started || c.phase = .waiting) && c.hdr.opcode = opcode && !c.failed) with
  | none => s
  | some c =>
    if vaultAhead s c Cmd.vaultWrite then modCmd s tag (fun c => { c with phase := .waiting })
    else if opcode = 0x47 then listRow s c
    else match findObj s c.hdr.volume c.hdr.key with
      | none => finish s tag 0x70 2 []
      | some o =>
        if opcode = 0x44 then finishData s tag (Memory.ofBytes (indexEntry o)) 256 []
        else if opcode = 0x43 then
          if o.size < c.hdr.lba + c.hdr.blocks then finish s tag 0x10 3 [] else readObject s c o (checkBlocks o (touched c.hdr.lba c.hdr.blocks))
        else readObject s c o (checkBlocks o (List.range (segCount o.size)))

/-- GET (R338). -/
def execGet (tag : Nat) (s : State) : Host.Outcome State Fault Refusal :=
  .next (vaultReader s 0x43 tag)

/-- STAT (R339). -/
def execStat (tag : Nat) (s : State) : Host.Outcome State Fault Refusal :=
  .next (vaultReader s 0x44 tag)

/-- LIST (R339). -/
def execList (tag : Nat) (s : State) : Host.Outcome State Fault Refusal :=
  .next (vaultReader s 0x47 tag)

/-- AUDIT OBJECT (R342). -/
def execAuditObject (tag : Nat) (s : State) : Host.Outcome State Fault Refusal :=
  .next (vaultReader s 0x48 tag)

/-- Vault readers that no longer wait, and those that an effect at a position must not overtake (R345, R346). -/
def readersBefore (s : State) (p : Pos) : State :=
  (s.cmds.filter (fun c => c.hdr.isVault && !c.hdr.vaultWrite && !c.failed && (c.phase = .started || c.phase = .waiting) && c.pos.lt p)).foldl
    (fun s c => vaultReader s c.hdr.opcode c.hdr.tag) s

/-- The effects of a record that has landed. -/
def vaultLand (s : State) (seq : Nat) : State :=
  let es := s.vaults.effects.filter (fun e => e.1 = seq)
  match es, findRec s seq with
  | [], _ => s
  | _, none => s
  | _, some r =>
    let s := readersBefore s r.pos
    let s : State := { s with vaults := { s.vaults with effects := s.vaults.effects.filter (fun e => e.1 ≠ seq) } }
    es.foldl (fun s e => landEffect s e.2.1 e.2.2) s

/-- Waiting vault readers try again. -/
def resumeVault (s : State) : State :=
  (s.cmds.filter (fun c => c.hdr.isVault && c.phase = .waiting)).foldl (fun s c => vaultReader s c.hdr.opcode c.hdr.tag) s

/-! ### PUT BEGIN, PUT DATA, PUT END (R334–R336) -/

/-- PUT BEGIN: its index record is written; the outcome is decided as it lands. -/
def putBegin (s : State) (tag : Nat) : State :=
  match startedCmd s tag 0x40 with
  | none => s
  | some c =>
    if vaultAhead s c Cmd.vaultWrite then s
    else
      let size := c.hdr.lba
      let x : Session := {
        number := 0, vault := c.hdr.volume, key := c.hdr.key, size, first := 0, run := ceilDiv size 4096 + tableBlocks size
        received := 0, bytes := [], lastUse := s.now, replace := bit c.hdr.flags 0, isNew := true }
      indexRecord s c [] 0 none (.begin x)

def execPutBegin (tag : Nat) (s : State) : Host.Outcome State Fault Refusal :=
  .next (putBegin s tag)

/-- Bytes received in a session once the pieces on their way have landed. -/
def receivedSoon (s : State) (x : Session) : Nat :=
  maxOf (x.received :: s.vaults.effects.filterMap (fun e => match e.2.2 with
    | .data n upTo _ => if n = x.number then some upTo else none
    | _ => none))

/-- A PUT DATA that fails: its record goes, and the session stays as it is. -/
def dataFails (s : State) (c : Cmd) (status detail received : Nat) : State :=
  let s : State := { s with ledger := { s.ledger with recs := s.ledger.recs.filter (fun r => some r.seq ≠ c.recSeq) } }
  finish (modCmd s c.hdr.tag (fun c => { c with recSeq := none, failed := true, payload := [] })) c.hdr.tag status detail (natLe 8 received)

/-- A PUT DATA that passes: its record is whole, with the free 128 bytes of hash states behind the piece, and lands with its effect. -/
def dataPasses (s : State) (c : Cmd) (x : Session) : State :=
  match c.recSeq, allocRange s c.hdr.volume (x.first + c.hdr.lba / 4096) (ceilDiv c.hdr.d 4096) with
  | none, _ => s
  | some _, none => dataFails s c 0x30 3 0
  | some q, some s =>
    let n := s.free
    let hash := (List.range 128).map (fun i => (Config.freeValue (n + i)).truncate 8)
    let s := useFree s 128
    let span := some (x.first + c.hdr.lba / 4096, ceilDiv c.hdr.d 4096)
    let s := recEnd (modRec s q (fun r => { r with body := Memory.writeN 0 c.payload c.hdr.d hash, span })) q
    let s : State := { s with vaults := { s.vaults with effects := s.vaults.effects ++ [(q, c.hdr.tag, .data x.number (c.hdr.lba + c.hdr.d) c.payload)] } }
    modCmd s c.hdr.tag (fun c => { c with phase := .landing, payload := [], session := x.number })

/-- PUT DATA (R335): a piece whose bytes have all been taken. -/
def putData (s : State) (tag : Nat) : State :=
  match cmdIn s tag (fun c => c.phase = .busy && c.hdr.opcode = 0x41 && !c.failed && c.taken = c.hdr.d) with
  | none => s
  | some c =>
    let h := c.hdr
    if vaultAhead s c (fun e => e.vaultWrite && (e.hdr.opcode ≠ 0x41 || e.phase ≠ .landing)) then s
    else match (findSession s h.blocks).filter (fun x => x.vault = h.volume && x.key = h.key) with
      | none => dataFails s c 0x70 3 0
      | some x =>
        let got := receivedSoon s x
        if h.lba ≠ got then dataFails s c 0x10 3 got
        else if x.size < h.lba + h.d then dataFails s c 0x70 5 got
        else if h.d % 4096 ≠ 0 && h.lba + h.d < x.size then dataFails s c 0x10 3 got
        else dataPasses s c x

def execPutData (tag : Nat) (s : State) : Host.Outcome State Fault Refusal :=
  .next (putData s tag)

/-- The object that a session's bytes make (R329, R330). -/
def objectOf (x : Session) : Object :=
  let n := segCount x.size
  let segs := (List.range n).map (fun k => sha256 (Memory.readN 0 x.bytes (k * segBytes) (min x.size ((k + 1) * segBytes) - k * segBytes)))
  let t := tableBlocks x.size
  { key := x.key, size := x.size, first := x.first, run := x.run, digest := sha256 (Memory.bytes x.bytes x.size)
    tableDigest := if t = 0 then zeros 32 else sha256 (padTo (4096 * t) segs.flatten)
    segments := segs, ingest := 0, retention := 0, wall := 0, lastAudit := 0, state := 1 }

/-- The object record of a stored object, with its segment table of t blocks at block at' of its volume. -/
def storeTable (s : State) (c : Cmd) (x : Session) (t at' : Nat) : State :=
  match (if t = 0 then some s else allocRange s x.vault at' t) with
  | none => finish s c.hdr.tag 0x30 3 []
  | some s =>
    indexChange s c (fun s => indexRecord (modCmd s c.hdr.tag (fun c => { c with session := x.number, payload := [] })) c (Memory.ofBytes (objectOf x).segments.flatten) (4096 * t) (if t = 0 then none else some (at', t)) (.store x.number (objectOf x)))

/-- The record of a PUT END: the segment table in the run's last blocks, when there is one. -/
def storeRecord (s : State) (c : Cmd) (x : Session) : State := storeTable s c x (tableBlocks x.size) (x.first + ceilDiv x.size 4096)

/-- PUT END (R336). -/
def putEnd (s : State) (tag : Nat) : State :=
  match cmdIn s tag (fun c => c.hdr.opcode = 0x42 && !c.failed && (c.phase = .started && c.hdr.d = 0 || c.phase = .busy && c.taken = c.hdr.d)) with
  | none => s
  | some c =>
    let h := c.hdr
    if vaultAhead s c Cmd.vaultWrite then s
    else match (findSession s h.blocks).filter (fun x => x.vault = h.volume && x.key = h.key) with
      | none => finish s tag 0x70 3 []
      | some x =>
        if x.received ≠ x.size then finish s tag 0x70 5 []
        else if h.d = 32 && Memory.bytes c.payload 32 ≠ (objectOf x).digest then
          indexRecord (modCmd s tag (fun c => { c with session := x.number, payload := [] })) c [] 0 none (.drop x.number)
        else storeRecord s c x

def execPutEnd (tag : Nat) (s : State) : Host.Outcome State Fault Refusal :=
  .next (putEnd s tag)

/-! ### SEAL and DELETE (R340, R341) -/

/-- SEAL, once its 8 bytes have been taken. -/
def sealRow' (s : State) (tag : Nat) : State :=
  match cmdIn s tag (fun c => c.phase = .busy && c.hdr.opcode = 0x45 && !c.failed && c.taken = c.hdr.d) with
  | none => s
  | some c =>
    if vaultAhead s c Cmd.vaultWrite then s
    else indexChange s c (fun s => indexRecord (modCmd s tag (fun c => { c with payload := [] })) c [] 0 none (.sealKey c.hdr.volume c.hdr.key c.hdr.lba (leNat (Memory.bytes c.payload 8))))

def execSealObject (tag : Nat) (s : State) : Host.Outcome State Fault Refusal :=
  .next (sealRow' s tag)

/-- DELETE. -/
def deleteRow (s : State) (tag : Nat) : State :=
  match startedCmd s tag 0x46 with
  | none => s
  | some c => if vaultAhead s c Cmd.vaultWrite then s else indexChange s c (fun s => indexRecord s c [] 0 none (.remove c.hdr.volume c.hdr.key))

def execDelete (tag : Nat) (s : State) : Host.Outcome State Fault Refusal :=
  .next (deleteRow s tag)

/-! ### Sessions, audits, vault time (R331, R337, R343, R344) -/

/-- SESSION_IDLE_EXPIRY (R337): at a boundary behind the limit. -/
def execSessionIdleExpiry (session : Nat) (s : State) : Host.Outcome State Fault Refusal :=
  .next <|
    match findSession s session with
    | none => s
    | some x =>
      if x.lastUse + 2 ^ s.ch (·.sessionIdleLog) 27 < s.now then
        modVault (dropSession s session) x.vault (fun v => { v with abandoned := inc 0xFFFF v.abandoned })
      else s

/-- A job over the sources of an object's blocks; it waits while a source is not yet known. -/
def jobOver (s : State) (v : Nat) (o : Object) (second : Bool) (src : List (Nat × Source)) : State :=
  if src.any (fun e => e.2 = .wait) then s
  else
    let needs := sourceNeeds src
    let s := rewriteSources (recordLosses s v (sourceLost src)) v o needs
    let j : VaultJob := { id := s.vaults.nextJob, vault := v, obj := o, needs, data := sourceData src, lost := (sourceLost src).flatten.eraseDups, groups := (needs.flatMap (Need.groups s)).eraseDups, issued := false, second }
    { s with vaults := { s.vaults with jobs := s.vaults.jobs ++ [j], nextJob := j.id + 1 } }

/-- An audit of the device's own is begun on an object. -/
def startJob (s : State) (v : Nat) (o : Object) (second : Bool) : State :=
  jobOver s v o second (runSources s v o (checkBlocks o (List.range (segCount o.size))) (fun _ => true))

/-- Audits whose groups all spin are issued; an overdue one asks for its windows (R343, R361). -/
def jobsBoundary (s : State) : State :=
  (s.vaults.jobs.filter (fun j => !j.issued)).foldl (fun s j =>
    let t := ((findVault s j.vault).map (·.timeMs)).getD 0
    if 2 ≤ s.power.state || s.pair.fenced || !opfin s then s
    else if j.groups.all (serves s) then
      let s := modJob (dropDemand s (.vaultAudit j.vault)) j.id (fun j => { j with issued := true })
      jobDone (resumeNeeds s (jobTag j.id)) j.id
    else if s.ch (·.auditDays) 365 * 86400000 < t - j.obj.lastAudit then setDemand s 5 j.groups (.vaultAudit j.vault) else s) s

/-- BACKGROUND_AUDIT (R343): the object whose last audit is oldest, one at a time, not in Rest or Dormant. -/
def backgroundAudit (s : State) (v : Nat) : State :=
  match findVault s v with
  | none => s
  | some x =>
    if !x.online || 2 ≤ s.power.state || s.vaults.jobs.any (fun j => j.vault = v) then s
    else match minOf (x.objects.map (·.lastAudit)) with
      | none => s
      | some t => match x.objects.find? (fun o => o.lastAudit = t) with
        | none => s
        | some o => jobsBoundary (startJob s v o false)

def execBackgroundAudit (vault : Nat) (s : State) : Host.Outcome State Fault Refusal :=
  .next (if opfin s then backgroundAudit s vault else s)

/-- DIGEST_MISMATCH_REPAIR (R344): every row of the run has been scrubbed, and the object is audited again. -/
def digestRepair (s : State) (v : Nat) (k : Key) : State :=
  match s.vaults.repairs.find? (fun r => r.vault = v && r.key = k), findObj s v k with
  | some r, some o =>
    if !r.left.isEmpty || 2 ≤ s.power.state || s.vaults.jobs.any (fun j => j.vault = v && j.second) then s else jobsBoundary (startJob s v o true)
  | _, _ => s

def execDigestMismatchRepair (vault : Nat) (key : Key) (s : State) : Host.Outcome State Fault Refusal :=
  .next (if opfin s then digestRepair s vault key else s)

/-- The superblock is written to the copy with the lower generation (R328). -/
def writeSuper (s : State) (v : Nat) : State :=
  modVault s v (fun x =>
    let a := x.supers.getD 0 (0, 0)
    let b := x.supers.getD 1 (0, 0)
    let n := (max a.1 b.1 + 1, x.timeMs)
    { x with supers := if a.1 ≤ b.1 then [n, b] else [a, n], lastStore := s.now })

/-- VAULT_TIME_TICK (R331): one millisecond of operating time while the volume is served here; written at least every 2^24 closes. -/
def vaultTick (s : State) (v : Nat) : State :=
  if (findVault s v).any (·.online) && ((vol s v).state = 2 || (vol s v).state = 3) && (s.pair.role = 0 || s.pair.role = 1) then
    let s := modVault s v (fun x => { x with timeMs := x.timeMs + 1 })
    if (findVault s v).any (fun x => x.lastStore + 2 ^ 24 ≤ s.now) then writeSuper s v else s
  else s

def execVaultTimeTick (vault : Nat) (s : State) : Host.Outcome State Fault Refusal :=
  .next (vaultTick s vault)

/-- VAULT_INDEX_WALK_END (R328, R331): the superblock in force is the good copy with the higher generation; without one, an empty volume is formatted and any other stays Offline. -/
def walkEnd (s : State) (v : Nat) (good : List Nat) : State :=
  match findVault s v with
  | none => s
  | some x =>
    if x.online || x.superBad then s
    else
      let cs := ((good.filter (· < 2)).map (fun i => x.supers.getD i (0, 0))).filter (fun c => 0 < c.1)
      let up := fun (s : State) => if s.chip.step = 15 then setVolume s v (fun y => { y with state := if y.state = 1 && y.offReason = 0 then 2 else y.state }) else s
      if cs.isEmpty && s.bands.any (fun b => b.volume = v) then
        fire (modVault s v (fun x => { x with superBad := true })) 0x15 2 v [] false
      else if cs.isEmpty then
        up (writeSuper (modVault s v (fun x => { x with online := true, objects := [], timeMs := 0, supers := [(0, 0), (0, 0)] })) v)
      else
        let g := maxOf (cs.map (·.1))
        up (modVault s v (fun x => { x with online := true, timeMs := ((cs.find? (fun c => c.1 = g)).map (·.2)).getD 0, lastStore := s.now }))

def execVaultIndexWalkEnd (vault : Nat) (goodCopies : List Nat) (s : State) : Host.Outcome State Fault Refusal :=
  .next (walkEnd s vault goodCopies)

/-! ### Queue resets (R347) -/

/-- The fate of a vault command in a queue reset: 2 Applied, 3 Discarded. -/
def vaultFate (s : State) (c : Cmd) : Nat :=
  let whole := (c.recSeq.bind (findRec s)).any (fun r => r.state ≠ .filling)
  if c.hdr.opcode = 0x40 then (if c.session ≠ 0 then 2 else 3)
  else if [0x41, 0x42, 0x45, 0x46].contains c.hdr.opcode && whole then 2 else 3

/-- What follows the fate: a session whose number the host never learns is closed; an undecided PUT BEGIN opens none. -/
def vaultReset (s : State) (c : Cmd) : State :=
  if c.hdr.opcode = 0x40 then
    let s := if c.session ≠ 0 then dropSession s c.session else s
    { s with vaults := { s.vaults with effects := s.vaults.effects.filter (fun e => e.2.1 ≠ c.hdr.tag || some e.1 ≠ c.recSeq) } }
  else { s with vaults := { s.vaults with effects := modIf (fun e => e.2.1 = c.hdr.tag) (fun e => (e.1, goneTag, e.2.2)) s.vaults.effects } }

end Sys2Proof.Machine
end

