-- ==== Sys2Proof/Machine/Accounts.lean ====
section
/-! DEFINITION. Accounts: the fates of commands under a queue reset, account records and account entries (10 R282–R286, 11 R323). -/

namespace Sys2Proof.Machine

/-! ### Fates (R282, R323, R347) -/

/-- The command's end is decided; only its Completion is still to be posted. -/
def Cmd.ended (c : Cmd) : Bool :=
  match c.phase with
  | .due _ => true
  | .released => true
  | .queued => true
  | _ => false

/-- WRITE and RELEASE: Applied when the record is Complete or later. -/
def blockFate (s : State) (c : Cmd) : Nat :=
  match if c.hdr.opcode = 4 then some c.intent else c.recSeq with
  | none => 3
  | some q => if (findRec s q).any (fun r => r.state = .filling) then 3 else 2

/-- A waiting entry is abandoned and recorded (R247, R287, R288). -/
def abandonEntry (s : State) : State :=
  fire { s with power := { s.power with entryTag := none, entryPending := false, target := s.power.state, exitCause := 6 } } 0x1B s.power.state 6 (natLe 1 s.power.state) false

/-- The reshape slot whose Start the command is, and the slot at which its request waits. -/
def slotWith (s : State) (tag : Nat) : Option Nat := (List.range 4).find? (fun k => (rsh s k).tag = some tag)
def slotReq (s : State) (tag : Nat) : Option (Nat × Nat) :=
  (List.range 4).findSome? (fun k => ((rsh s k).reqs.find? (fun e => e.2 = tag)).map (fun e => (k, e.1)))

/-- RESHAPE (R323): a Start whose record was cut is Applied, else its slot is freed; a request is Applied when it takes effect at this boundary. -/
def reshapeFate (s : State) (c : Cmd) : State × Nat :=
  match slotWith s c.hdr.tag, slotReq s c.hdr.tag with
  | some k, _ =>
    if (rsh s k).built then (modRsh s k (fun r => { r with tag := none }), 2) else (modRsh s k (fun _ => {}), 3)
  | none, some (k, act) =>
    if act = 1 && (s.works.any (fun w => w.kind = .reshape k) || copiedAll s k) then (modRsh s k (fun r => { r with reqs := r.reqs.filter (fun e => e.2 ≠ c.hdr.tag) }), 3) else (s, 2)
  | none, none => (s, 3)

/-- GROUP WINDOW (R320, R323): a Request is Applied when its group is ready at this boundary; a Release always. -/
def windowFate (s : State) (c : Cmd) : State × Nat :=
  let t := c.hdr.tag
  let s := modCmd s t (fun c => if c.phase = .started then { c with phase := .busy } else c)
  if c.hdr.f 25 1 = 1 then (windowRelease s t, 2)
  else
    let s := windowRequest (groupReady s (c.hdr.f 24 1)) t
    (dropDemand s (.hostReq t), if (findCmd s t).any (fun c => c.ended && c.status = 0) then 2 else 3)

/-- The fate of an accepted command without a posted Completion, with what its decision does. -/
def fateOf (s : State) (c : Cmd) : State × Nat :=
  let t := c.hdr.tag
  let done := if c.status = 0 then 2 else 3
  if c.failed then (s, 3)
  else match c.hdr.opcode with
  | 0x02 => (s, blockFate s c)
  | 0x04 => (s, blockFate s c)
  | 0x83 => (s, if c.ended then done else if c.phase = .busy then 2 else 3)
  | 0x84 => (s, if c.begun then 2 else 3)
  | 0x85 => (s, if c.begun then 2 else 3)
  | 0x86 => if c.ended then (s, done) else reshapeFate s c
  | 0x87 =>
    if c.ended then (s, done)
    else if s.power.entryTag = some t then (abandonEntry s, 3)
    else (s, if s.power.due.any (fun e => e.1 = t) then 2 else 3)
  | 0x88 => if c.ended then (s, if c.hdr.f 25 1 = 1 then 2 else done) else windowFate s c
  | 0x89 => if c.begun then (s, 2) else (timeMark s c, 2)
  | _ => if c.hdr.isVault then (vaultReset s c, vaultFate s c) else (s, 3)

/-- A covered command leaves: its Filling record, its entries not posted, its demands, its reads and its audit with it. -/
def forget (s : State) (c : Cmd) : State :=
  let t := c.hdr.tag
  let mine := fun (e : Entry) => (e.kind = 1 || e.kind = 2 || e.kind = 3) && e.tag = t && e.wicket = c.wicket && e.cseq = c.cseq
  let keep := fun (l : List (Nat × Entry)) => l.filter (fun e => !mine e.2)
  let reads := fun (p : Purpose) => match p with
    | .readBlock x _ _ => x = t
    | _ => false
  let s : State := { s with
    ledger := { s.ledger with recs := s.ledger.recs.filter (fun r => !(r.state = .filling && c.recSeq = some r.seq)) }
    returns := { s.returns with
      rings := s.returns.rings.map (fun e => (e.1, { e.2 with queue := e.2.queue.filter (fun q => !mine q) }))
      hold := keep s.returns.hold
      overflow := keep s.returns.overflow }
    drives := { s.drives with cmds := modIf (fun k => reads k.purpose) (fun k => { k with purpose := .control }) s.drives.cmds }
    pair := { s.pair with
      run := if s.pair.run.tag = some t then { seq := s.pair.run.seq } else s.pair.run
      waitingAudits := s.pair.waitingAudits.filter (· ≠ t) }
    cmds := s.cmds.filter (fun k => k.hdr.tag ≠ t) }
  dropDemand (dropDemand s (.parked t)) (.hostReq t)

/-- The account line of a command. -/
def lineOf (c : Cmd) (fate : Nat) : AcctLine := ⟨c.hdr.tag, c.ring, c.wicket, c.cseq, fate, c.hdr.opcode, c.pos.close⟩

/-- The account lines of Completions that lie between head and tail of their rings. -/
def postedLines (s : State) (covers : Nat → Bool) : List (Pos × AcctLine) :=
  s.returns.rings.flatMap (fun e => (e.2.written.filter (fun p => covers p.wicket)).map (fun p => (p.pos, ⟨p.tag, e.1, p.wicket, p.cseq, 1, p.opcode, p.pos.close⟩)))

/-- Every command that a reset covers gets its fate and leaves; the lines are in acceptance order (R282, R283). -/
def coverReset (s : State) (covers : Nat → Bool) : State × List AcctLine :=
  let cs := (s.cmds.filter (fun c => covers c.wicket)).mergeSort (fun a b => !b.pos.lt a.pos)
  let (s', lines) := cs.foldl (fun (a : State × List (Pos × AcctLine)) c =>
    let (s, f) := fateOf a.1 c
    (forget s c, a.2 ++ [(c.pos, lineOf c f)])) (s, postedLines s covers)
  (s', (lines.mergeSort (fun a b => !b.1.lt a.1)).map (·.2))

/-! ### Account records and entries (R99, R283, R284) -/

/-- An Account record: one 16-byte entry per tag. -/
def accountRecord (s : State) (lines : List AcctLine) : State × Nat :=
  let (s, seq) := writeRec s { seq := 0, kind := 5, body := Memory.ofBytes (lines.flatMap acctBytes), bodyLen := 16 * lines.length }
  (modRec s seq (fun r => { r with reported := true }), seq)

/-- The Account entries of a ring: its lines in parts of Lmax, the last one Final. -/
def accountParts (s : State) (ring reason wicket per : Nat) (prior : Bool) : Nat → Nat → List AcctLine → State
  | 0, _, _ => s
  | fuel + 1, first, lines =>
    let part := lines.take per
    let last := lines.length ≤ per
    let (s, e) := openFields s {
      kind := 4, flags := b1 last + 2 * b1 prior
      payload := Memory.ofBytes (part.flatMap acctBytes), len := 16 * part.length
      spec := natLe 1 reason ++ [0] ++ natLe 2 wicket ++ natLe 4 part.length ++ natLe 4 first } true
    let s := enqueue s ring e
    if last then s else accountParts s ring reason wicket per prior fuel (first + part.length) (lines.drop per)

def accountEntries (s : State) (ring reason wicket : Nat) (prior : Bool) (lines : List AcctLine) : State :=
  accountParts s ring reason wicket (max 1 ((rg s ring).lmax / 16)) prior (lines.length + 1) 0 lines

/-- The account of a reset on each ring that carries a covered command; without one, an empty entry on a ring. -/
def accountRings (s : State) (reason wicket dflt : Nat) (prior : Bool) (lines : List AcctLine) : State :=
  let rings := (lines.map (·.ring)).eraseDups
  if rings.isEmpty then accountEntries s dflt reason wicket prior []
  else rings.foldl (fun s n => accountEntries s n reason wicket prior (lines.filter (fun l => l.ring = n))) s

/-! ### The queue reset in row 4 of R47 (R281–R285) -/

/-- A wicket is Free after a reset, with LAST_SEQ kept (R285). -/
def freeWicket (s : State) (w : Nat) : State :=
  let s := modWk s w (fun k => { k with resetReq := false, stalled := false, arrived := [] })
  if (wk s w).state = 3 then setWicket s w 1 else s

/-- One reset takes effect: fates, the Account record, the Account entries, the wickets Free. -/
def resetQueue (s : State) (ws : List Nat) (reason wicket : Nat) : State :=
  let (s, lines) := coverReset s (fun w => ws.contains w)
  let s := (accountRecord s lines).1
  let s := accountRings s reason wicket (s.ch (fun c => c.defaultRings.getD wicket 0) 0) false lines
  let s := ws.foldl freeWicket s
  { s with wickets := { s.wickets with resets := inc 0xFFFF s.wickets.resets, lastReset := s.now } }

/-- The queue resets requested in the last close: one for all wickets covers every other; else one for each wicket. -/
def queueResets (s : State) : State :=
  if !s.wickets.resetPending then s
  else
    let n := wicketCount s
    let ws := (List.range n).filter (fun w => (wk s w).resetReq)
    let s := if s.wickets.resetAll then resetQueue s (List.range n) 2 0 else ws.foldl (fun s w => resetQueue s [w] 1 w) s
    { s with wickets := { s.wickets with resetPending := false, resetAll := false } }

end Sys2Proof.Machine
end

