-- ==== Sys2Proof/Machine/Power.lean ====
section
/-! DEFINITION. Device states, PCI power states and POWER (09 R251–R257, 10 R287, R288, 11 R319). -/

namespace Sys2Proof.Machine

/-- The part takes commands and events of its host side: powered, locked, out of test and not in PERST#. -/
def alive (s : State) : Bool := s.chip.pwrgd && !s.chip.testMode && s.chip.locked && !s.chip.perst

/-! ### A change of state (R216, R224, R252–R255, R364) -/

/-- Every branch is gated, or none is. -/
def gateAll (s : State) : State := (List.range 16).foldl gateBranch s

def ungateBranch (s : State) (b : Nat) : State :=
  let s := modBranch s b (fun r => { r with gated := false, idleSince := s.now })
  (membersOfBranch b).foldl (fun s x => match (tslot s x).phys with
    | some p => if (tphys s p).state = 1 then setTeller s p 0 id else s
    | none => s) s

def ungateAll (s : State) : State := (List.range 16).foldl ungateBranch s

/-- The latency tolerance that the device reports: 16 µs in Full and Trim, 1 ms in Rest and Dormant, where the host has enabled it (R257). -/
def sendLtr (s : State) : State :=
  if s.cfg.ltrEnable && s.link.up then { s with link := { s.link with ltr := if 2 ≤ s.power.state then 1000000 else 16000 } } else s

/-- The device state becomes `st`: recorded with its reason, and signalled when no POWER command set it. Reasons: 1 POWER, 2 Command, 3 D0, 4 hot reset, 5 function-level reset, 7 D3hot. -/
def powerTo (s : State) (st reason : Nat) (signal : Bool) : State :=
  let prev := s.power.state
  if st = prev then s
  else
    let s : State := { s with power := { s.power with
      state := st, eventClose := s.now, target := st
      exitCause := if reason = 7 then s.power.exitCause else reason } }
    let s := if 2 ≤ st then (if prev < 2 then setMapped (gateAll (allFall s)) 1 else s)
      else if st = 0 then setMapped (ungateAll s) 0
      else s
    let s := fire (sendLtr s) 0x1B st reason (natLe 1 prev) false
    if signal then mgmtCause s 7 else s

/-- The waiting POWER to Rest ends with a Superseded detail; its Completion is due at close b. -/
def supersede' (s : State) (b detail : Nat) : State :=
  match s.power.entryTag with
  | none => s
  | some t => finishAt s t b 0x61 detail (natLe 1 s.power.state)

/-! ### POWER (R287, R288, R319) -/

/-- POWER: Full and Trim, or the state in force, take effect at the next boundary; Rest begins an entry. A waiting entry is replaced. -/
def powerRow (s : State) (tag : Nat) : State :=
  match startedCmd s tag 0x87 with
  | none => s
  | some c =>
    let target := c.hdr.f 24 1
    let s := if s.power.entryTag.isSome then
        let s := supersede' s (s.now + 1) 2
        { s with power := { s.power with entryTag := none, entryPending := s.cfg.powerState ≠ 0 } }
      else s
    let s := modCmd s tag (fun c => { c with phase := .busy, begun := true, named := c.pos.close + feature s 1 })
    if target ≠ 2 || s.power.state = 2 && s.cfg.powerState = 0 then { s with power := { s.power with due := s.power.due ++ [(tag, target)] } }
    else if s.cfg.powerState ≠ 0 then finishAt s tag (s.now + 1) 0x61 3 (natLe 1 s.power.state)
    else { s with power := { s.power with entryTag := some tag, entryPending := true, target := 2 } }

def execPower (tag : Nat) (s : State) : Host.Outcome State Fault Refusal :=
  .next (powerRow s tag)

/-- A POWER to Full or Trim takes effect at its boundary; in Dormant it sets the state to return to (R288). -/
def powerDue (s : State) (e : Nat × Nat) : State :=
  let s := if s.power.state = 3 then { s with power := { s.power with back := e.2 } } else powerTo s e.2 1 false
  finishAt s e.1 s.now 0 0 (natLe 1 (if s.power.state = 3 then s.power.back else s.power.state))

/-- The conditions of R252: no posting runs or is queued, and no command is in flight but the POWER command. -/
def restReady (s : State) (tag : Nat) : Bool := postingsIdle s && s.cmds.all (fun c => c.hdr.tag = tag)

/-- An entry into Rest at a boundary (R252, R287): it completes, or its deadline has ended. -/
def restBoundary (s : State) : State :=
  match s.power.entryTag.bind (findCmd s) with
  | none => s
  | some c =>
    let tag := c.hdr.tag
    if restReady s tag then
      let s := powerTo { s with power := { s.power with entryTag := none, entryPending := false } } 2 1 false
      finishAt s tag s.now 0 0 (natLe 1 2)
    else if c.named < s.now then abandonEntry (supersede' s s.now 1)
    else s

/-- REST_ENTRY (R252). -/
def execRestEntry (s : State) : Host.Outcome State Fault Refusal :=
  .next (if s.clock.cycle = 0 && s.power.entryTag.any (restReady s) then restBoundary s else s)

/-- ENTRY_DEADLINE_EXPIRY (R287). -/
def execEntryDeadlineExpiry (s : State) : Host.Outcome State Fault Refusal :=
  .next (if s.clock.cycle = 0 then restBoundary s else s)

/-! ### D3hot, Dormant and D0 (R254, R255) -/

/-- A work has issued no posting yet. -/
def Work.unposted (s : State) (w : Work) : Bool := w.step ≤ 2 || s.plans.waiting.any (fun e => e.1 = w.id)

/-- PowerState is written 3 in D0 (R254, R288). -/
def d3hot (s : State) : State :=
  if s.cfg.powerState ≠ 0 then s
  else
    let s := if s.power.entryTag.isSome then abandonEntry (supersede' s (s.now + 1) 3) else s
    let s := holdPostings { s with
      cfg := { s.cfg with powerState := 3 }
      power := { s.power with entryPending := true, target := 3 } }
    (s.works.filter (Work.unposted s)).foldl (fun s w => dropWork s w.id) s

/-- D3HOT_WRITE (R254). -/
def execD3hotWrite (s : State) : Host.Outcome State Fault Refusal :=
  .next (if alive s && s.resets.kind = 0 then d3hot s else s)

/-- No posting runs or is queued and no SAS write is outstanding. -/
def dormantReady (s : State) : Bool := s.cfg.powerState = 3 && s.power.state ≠ 3 && postingsIdle s && !s.drives.cmds.any (fun k => k.op = .wr)

/-- The entry into Dormant at a boundary (R254); operating time is stored (R408). -/
def dormantBoundary (s : State) : State :=
  if dormantReady s then
    powerTo { s with power := { s.power with back := s.power.state, entryPending := false }, mgmt := { s.mgmt with opStored := s.mgmt.opMs } } 3 7 true
  else s

/-- DORMANT_ENTRY (R254). -/
def execDormantEntry (s : State) : Host.Outcome State Fault Refusal :=
  .next (if s.clock.cycle = 0 then dormantBoundary s else s)

/-- PowerState is written 0 in D3hot (R255). WAKE# is released as the function enters D0 (R256). -/
def toD0 (s : State) : State :=
  if s.cfg.powerState = 0 then s
  else
    let s : State := { s with cfg := { s.cfg with powerState := 0 }, ints := { s.ints with wakeLow := false } }
    let s := if s.power.state = 3 then powerTo s s.power.back 3 true else if s.power.entryPending then abandonEntry s else s
    if s.cfg.busMaster then drainHold s else s

/-- D0_WRITE (R255). -/
def execD0Write (s : State) : Host.Outcome State Fault Refusal :=
  .next (if alive s && s.resets.kind = 0 then toD0 s else s)

/-- WAKE_CAUSE (R256): a tally fault, a sensor alarm or the Refuse threshold, while it holds. -/
def execWakeCause (c : WakeCause) (s : State) : Host.Outcome State Fault Refusal :=
  .next <|
    match c with
    | .tally => if 0 < s.pair.chain.misses || 0 < s.pair.hb.misses || 2 ≤ s.pair.mode then wakeUp s 0 else s
    | .sensor => if sensorAlarm s then wakeUp s 1 else s
    | .ledger => if s.ledger.refuse then wakeUp s 2 else s

/-- ASPM_L1_ENTRY (R257): the host has enabled L1 and the link has been idle for 64 µs, or at once in Rest and Dormant. -/
def execAspmL1Entry (idleNs : Nat) (substate : Bool) (s : State) : Host.Outcome State Fault Refusal :=
  .next <|
    let flags := s.ch (·.linkFlags) 0
    if alive s && s.link.up && bit flags 1 && bit s.cfg.aspm 1 && (2 ≤ s.power.state || 64000 ≤ idleNs) then
      let deep := substate && bit flags 2 && bit (s.ch (·.pinFlags) 0) 1 && s.cfg.l1ss ≠ 0
      { s with link := { s.link with aspm := if deep then 3 else 2 } }
    else s

/-- The exit from Rest that a command asked for (R253). -/
def restExit (s : State) : State :=
  if s.power.exitDue then
    let s : State := { s with power := { s.power with exitDue := false } }
    if s.power.state = 2 then powerTo s 1 2 true else s
  else s

/-- Device states in row 5 of R47. -/
def powerBoundary (s : State) : State :=
  let due := s.power.due
  let s := due.foldl powerDue { s with power := { s.power with due := [] } }
  dormantBoundary (restBoundary (restExit s))

end Sys2Proof.Machine
end

