-- ==== Sys2Proof/Machine/Resets.lean ====
section
/-! DEFINITION. Hot reset, function-level reset, PERST# and the link (09 R227, R243–R247, 02 R29). -/

namespace Sys2Proof.Machine

/-- Step 1 of R245 and the crossings of R247: kind 1 hot, 2 function-level. -/
def startReset (s : State) (kind : Nat) : State :=
  if !alive s then s
  else if s.resets.kind ≠ 0 then
    -- a hot reset during a function-level reset: one reset, ending with the later of the two
    if kind = 1 then { s with resets := { s.resets with kind := 1, since := s.now }, link := { s.link with up := false, training := true } } else s
  else
    let s := if s.cfg.powerState ≠ 0 then
        let s : State := { s with cfg := { s.cfg with powerState := 0 } }
        if s.power.state = 3 then powerTo s s.power.back (if kind = 1 then 4 else 5) false
        else { s with power := { s.power with entryPending := false, target := s.power.state } }
      else s
    let s := holdPostings { s with
      cfg := { s.cfg with busMaster := false, memSpace := false }
      ints := { s.ints with wakeLow := false }
      link := if kind = 1 then { s.link with up := false, training := true } else s.link
      resets := { s.resets with kind, since := s.now, accounted := false } }
    setAllWickets s (fun w => { w with state := 0, waitingCommits := [], arrived := [] })

/-- FUNCTION_LEVEL_RESET (R245): Initiate Function Level Reset is written. -/
def execFunctionLevelReset (s : State) : Host.Outcome State Fault Refusal :=
  .next (if s.link.up then startReset s 2 else s)

/-- HOT_RESET (R243, R245): Hot Reset in training sets, or the link goes to DL_Down. -/
def execHotReset (s : State) : Host.Outcome State Fault Refusal :=
  .next (startReset s 1)

/-- Step 2 and 3 of R245 at boundary r+1: every command gets its fate, the account goes to page 0x21, the held postings are dropped. -/
def resetAccount (s : State) : State :=
  if s.resets.kind = 0 || s.resets.accounted || s.now ≤ s.resets.since then s
  else
    let (s, lines) := coverReset s (fun _ => true)
    let (s, seq) := if s.chip.step = 14 then (s, 0) else accountRecord s lines
    let named := fun (r : Rec) => lines.any (fun l => l.tag = r.tag && l.wicket = r.pos.wicket && l.seq = r.cseq && l.close = r.pos.close)
    let s := abandonPaused { s with
      ledger := { s.ledger with recs := modIf named (fun r => { r with reported := true }) s.ledger.recs }
      returns := { s.returns with hold := [], overflow := [], rings := s.returns.rings.map (fun e => (e.1, { e.2 with queue := [], written := [] })) }
      wickets := { s.wickets with resetPending := false, resetAll := false }
      resets := { s.resets with accounted := true, accountAt := seq, account := lines, hasAccount := true, accountClose := s.now } }
    setAllWickets s (fun w => { w with resetReq := false })

/-- Step 4: the account has landed and no read is outstanding on the link. -/
def resetReady (s : State) : Bool :=
  s.resets.kind ≠ 0 && s.resets.accounted && s.resets.since + 2 ≤ s.now &&
    (s.chip.step = 14 || (match findRec s s.resets.accountAt with
      | some r => r.visible
      | none => true)) &&
    s.courier.channels.all (·.hostRead.isNone) && s.returns.rings.all (fun e => !e.2.fetching)

/-- Registers of the host's courier channels return to reset and maintenance mode ends (R246). -/
def resetCourier (s : State) : State :=
  { s with courier := { s.courier with
    maint := false, enterPending := false, exitPending := false
    channels := s.courier.channels.take 12 ++ resetChannels.drop 12 } }

/-- The wickets' state where they are open (R28, R30), and Closed elsewhere. -/
def openState (s : State) : Nat := if s.chip.step = 15 && !s.chip.halted then 1 else 0

/-- The reset completes (R245, R246). The halves of R13 that are held or latched stay as they are (DESIGN CHOICE, log entry 37). -/
def resetDone (s : State) : State :=
  let hot := s.resets.kind = 1
  let changed := s.power.state ≠ 0
  let s := powerTo s 0 (if hot then 4 else 5) false
  let s : State := if changed then s else { s with power := { s.power with eventClose := s.now } }
  let n := s.resets.account.length
  let s : State := { s with
    power := { s.power with state := 0, entryPending := false, target := 0, exitCause := if hot then 4 else 5, eventClose := s.now, back := 0, due := [], entryTag := none, exitDue := false }
    cfg := { ({} : ConfigSpace) with read := s.cfg.read }
    link := if hot then { s.link with recoveries := 0, replays := 0 } else s.link
    wickets := { ({} : Wickets) with unitFailed := s.wickets.unitFailed }
    returns := {}
    ints := {}
    feats := { s.feats with value := [], due := [], holdoffs := (s.now, (envelope s 2).dflt) :: s.feats.holdoffs }
    resets := { s.resets with
      kind := 0
      hot := if hot then inc 0xFFF s.resets.hot else s.resets.hot
      flr := if hot then s.resets.flr else inc 0xFFF s.resets.flr
      last := s.now } }
  let s := updateIrq (setAllWickets (resetCourier s) (fun w => { w with state := openState s }))
  fire s 0x1C (if hot then 1 else 2) n (natLe 8 s.now) false

/-- The completion of a reset at a boundary. -/
def resetBoundary (s : State) : State := if resetReady s then resetDone s else s

/-- RESET_COMPLETE (R245, R246). -/
def execResetComplete (s : State) : Host.Outcome State Fault Refusal :=
  .next (if s.clock.cycle = 0 then resetBoundary s else s)

/-- PERST_ASSERT (R243, R244, R247): intake stops at once; the unit halts at the boundary that ends the close. A pulse shorter than 1 µs is ignored. -/
def execPerstAssert (ns : Nat) (s : State) : Host.Outcome State Fault Refusal :=
  .next <|
    if ns < 1000 || !s.chip.pwrgd || s.chip.testMode || s.chip.perst then s
    else
      let s : State := { s with
        chip := { s.chip with perst := true, perstHalt := true }
        link := { s.link with up := false, training := false }
        cfg := { s.cfg with busMaster := false, memSpace := false }
        resets := { s.resets with kind := 0, account := [], hasAccount := false } }
      setAllWickets s (fun w => { w with state := 0, waitingCommits := [], arrived := [] })

/-! ### The link (R29, R227) -/

/-- LINK_TRAINING_RELEASE (R28, R29): at step 4 the IDs and window sizes are fixed, and the link may train; in Recovery entered at step 3 too (R37). -/
def execLinkTrainingRelease (s : State) : Host.Outcome State Fault Refusal :=
  .next (if alive s && !s.link.up && (4 ≤ s.chip.step) then { s with link := { s.link with training := true } } else s)

/-- The ceiling of the charter (R228), or the part's own. -/
def linkWidth (s : State) : Nat := s.ch (·.maxWidth) 8
def linkRate (s : State) : Nat := s.ch (·.maxRate) 6

/-- LINK_UP (R227): the link trains at a rate and width within the charter's ceiling; Flit mode always at 64 GT/s and below it where allowed. -/
def execLinkUp (rate width : Nat) (flit : Bool) (s : State) : Host.Outcome State Fault Refusal :=
  .next <|
    let ok := 1 ≤ rate && rate ≤ min 6 (linkRate s) && [1, 2, 4, 8].contains width && width ≤ linkWidth s &&
      (flit || rate ≠ 6) && (!flit || rate = 6 || bit (s.ch (·.linkFlags) 8) 3)
    if alive s && s.link.training && ok then { s with link := { s.link with training := false, up := true, rate, width, flit, aspm := 0, ltr := 0 } } else s

end Sys2Proof.Machine
end

