-- ==== Sys2Proof/Machine/Management.lean ====
section
/-! DEFINITION. Management, sensors and the daybook (15 R405–R413, R418–R425). -/

namespace Sys2Proof.Machine

/-- The part is powered and out of test. -/
def powered (s : State) : Bool := s.chip.pwrgd && !s.chip.testMode

/-! ### The management complex (R405–R407) -/

/-- The management complex takes a state. -/
def setMgmt (s : State) (st : Nat) : State :=
  if s.mgmt.state = st then s else { s with mgmt := { s.mgmt with state := st, eventClose := s.now } }

/-- The check code of the firmware slot in use; where the flash still holds a good image and the read failed, a free code. -/
def failingCode (s : State) : State × Nat :=
  let c := (slotCheck s 1 s.chip.fwSel).1
  if c ≠ 0 then (s, c)
  else
    let (s, v) := takeFree s
    (s, v.toNat % 9 + 1)

/-- WATCHDOG_EXPIRY (R406, R407): both cores are reset; the third expiry within 2^24 closes, or a slot that fails a check, stops the complex. -/
def watchdog (s : State) (core : Nat) (passes : Bool) : State :=
  if !powered s || s.mgmt.state ≠ 0 then s
  else
    let arg := if core < 2 then core else 0xFF
    let s : State := { s with mgmt := { s.mgmt with expiries := recent 24 s.now s.mgmt.expiries ++ [s.now] } }
    if 3 ≤ s.mgmt.expiries.length then fire (setMgmt s 2) 0x18 3 arg [] true
    else
      let s := setMgmt s 1
      let s := mgmtCause { s with mgmt := { s.mgmt with restarts := inc 0xFFFF s.mgmt.restarts } } 8
      let s := fire s 0x18 1 arg [] false
      if passes then s
      else
        let (s, code) := failingCode s
        fire (setMgmt s 2) 0x18 2 arg (natLe 1 code) true

def execWatchdogExpiry (core : Nat) (slotPasses : Bool) (s : State) : Host.Outcome State Fault Refusal :=
  .next (watchdog s core slotPasses)

/-- FIRMWARE_RESTART_END (R406): Opfin runs again; a checkpoint that was being written is cut afresh. -/
def firmwareRestartEnd (s : State) : State :=
  if powered s && s.mgmt.state = 1 then
    let s := fireHeld (setMgmt s 0)
    match s.ledger.ckpt with
    | some c => cutCheckpoint s c.admission
    | none => s
  else s

def execFirmwareRestartEnd (s : State) : Host.Outcome State Fault Refusal :=
  .next (firmwareRestartEnd s)

/-- OPERATING_TIME_TICK (R408): one millisecond every 125 closes, stored every 125,000 closes; counted from step 6 on, where it resumes from the stored value. -/
def operatingTick (s : State) : State :=
  if powered s && 7 ≤ s.chip.step && s.chip.step ≠ 14 && s.mgmt.opClose + 125 ≤ s.now then
    let ms := (s.mgmt.opMs + 1) % 2 ^ 48
    { s with mgmt := { s.mgmt with opMs := ms, opClose := s.mgmt.opClose + 125, opStored := if s.mgmt.opStored + 1000 ≤ ms then ms else s.mgmt.opStored } }
  else s

def execOperatingTimeTick (s : State) : Host.Outcome State Fault Refusal :=
  .next (operatingTick s)

/-! ### Sensors (R411, R412) -/

/-- Nominal rail voltages in mV, by rail number (R469). -/
def railNominal (r : Nat) : Nat := [900, 900, 900, 1200, 1100, 1800, 1800].getD r 0

/-- What a sensor measures (R411): a temperature in 1/8 °C with its limits, a rail, the input power. -/
def sensorLimits (s : State) (i : Nat) : List Nat :=
  if i < 16 then [warnLimit s i, 105, 110] else if i < 18 then [warnLimit s i, 95] else [3, 5]

/-- A sample beyond the k-th limit. -/
def beyondLimit (s : State) (i k : Nat) (v : Int) : Bool :=
  match (sensorLimits s i)[k]? with
  | none => false
  | some lim =>
    if i < 18 then decide (8 * (lim : Int) < v)
    else if i < 25 then
      let n : Int := railNominal (i - 18)
      decide (n * lim < 100 * ((v - n).natAbs : Int))
    else decide ((if k = 0 then 30000 else 32000 : Int) < v)

/-- A sample inside the k-th limit by the hysteresis. -/
def insideLimit (s : State) (i k : Nat) (v : Int) : Bool :=
  match (sensorLimits s i)[k]? with
  | none => true
  | some lim =>
    if i < 18 then decide (v ≤ 8 * ((lim : Int) - 2))
    else if i < 25 then
      let n : Int := railNominal (i - 18)
      decide (1000 * ((v - n).natAbs : Int) ≤ n * (10 * lim - 5))
    else decide (v ≤ (if k = 0 then 29500 else 31500 : Int))

/-- A sample within the sensor's measuring range. -/
def inRange (i : Nat) (v : Int) : Bool :=
  if i < 18 then decide (-320 ≤ v ∧ v ≤ 1200) else if i < 25 then decide (v ≠ 0) else true

/-- The level after a fall: the highest level from `l` down whose limit has not been left for four samples. -/
def fallTo (below : List Nat) : Nat → Nat
  | 0 => 0
  | l + 1 => if 4 ≤ below.getD l 0 then fallTo below l else l + 1

/-- One sample of one sensor: its counts and its level (R411). -/
def sampleSensor (s : State) (i : Nat) (v : Int) (x : Sensor) : Sensor :=
  let x := { x with value := v }
  if !inRange i v then { x with level := 4, inRange := 0, above := [0, 0, 0], below := [0, 0, 0] }
  else if x.level = 4 && x.inRange + 1 < 16 then { x with inRange := x.inRange + 1 }
  else
    let x := if x.level = 4 then { x with level := 0 } else x
    let above := (List.range 3).map (fun k => if beyondLimit s i k v then hold 4 (x.above.getD k 0 + 1) else 0)
    let below := (List.range 3).map (fun k => if insideLimit s i k v then hold 4 (x.below.getD k 0 + 1) else 0)
    let up := if 4 ≤ above.getD 2 0 then 3 else if 4 ≤ above.getD 1 0 then 2 else if 4 ≤ above.getD 0 0 then 1 else 0
    { x with above, below, inRange := hold 16 (x.inRange + 1), level := if x.level < up then up else fallTo below x.level }

/-- A die sensor or the input power is Critical or above (R412). -/
def throttleWanted (s : State) : Bool :=
  (List.range 26).any (fun i => (i < 16 || i = 25) && ((sns s i).level = 2 || (sns s i).level = 3))

/-- What a level that is entered does (R412). -/
def levelEntered (s : State) (i old new : Nat) (throttled : Bool) : State :=
  let sample := natLe 2 (sensorValue (sns s i))
  let s := if new = 4 || (1 ≤ new && old = 0) || (old = 4 && 1 ≤ new && new ≠ 4) then
      wakeUp (mgmtCause (fire s 0x16 (if new = 4 then 4 else 1) i sample true) 1) 1
    else s
  let rises := new ≠ 4 && 2 ≤ new && (old < 2 || old = 4)
  let s := if rises && (i < 16 || i = 25) && !throttled then fire s 0x17 1 i [] false else s
  let s := if rises && (i = 16 || i = 17) then fire s 0x17 3 i [] false else s
  if rises && 18 ≤ i && i < 25 || new = 3 && old ≠ 3 then halt (fire s 0x17 4 i [] false) else s

/-- A sensor takes its sample, with the effects of a level change. -/
def takeSample (s : State) (i aux : Nat) (v : Int) : State :=
  let x := sns s i
  let y := { sampleSensor s i v x with aux }
  let throttled := throttleWanted s || s.tellers.throttled
  let s : State := { s with sensors := { s.sensors with units := tset s.sensors.units i y } }
  if y.level = x.level then s
  else
    let s : State := { s with sensors := { s.sensors with eventClose := s.now } }
    levelEntered s i x.level y.level throttled

/-- SENSOR_SAMPLE (R411, R412). -/
def sensorSample (s : State) (v : Samples) : State :=
  if !powered s then s
  else
    let s := ((List.range 16).zip v.die).foldl (fun s e => takeSample s e.1 0 e.2) s
    let s := ((List.range 2).zip v.ledger).foldl (fun s e => takeSample s (16 + e.1) 0 e.2) s
    let s := ((List.range 7).zip v.railMv).foldl (fun s e => takeSample s (18 + e.1) (v.railMa.getD e.1 0) e.2) s
    let s := takeSample s 25 0 v.powerMw
    { s with sensors := { s.sensors with peakMw := max s.sensors.peakMw v.powerMw } }

def execSensorSample (v : Samples) (s : State) : Host.Outcome State Fault Refusal :=
  .next (sensorSample s v)

/-- The throttle at a boundary (R412): branches 8 to 15 are gated and their queued postings go to the others; or it ends. -/
def throttleBoundary (s : State) : State :=
  if throttleWanted s = s.tellers.throttled then s
  else if throttleWanted s then
    let upper := (List.range 8).map (· + 8)
    let moved := upper.flatMap (fun b => (tbranch s b).reissue ++ (membersOfBranch b).flatMap (fun x => (tslot s x).deque.map (fun e => e.2)))
    let s := upper.foldl (fun s b =>
      let s := gateBranch (modBranch s b (fun r => { r with reissue := [] })) b
      (membersOfBranch b).foldl (fun s x => modSlot s x (fun k => { k with deque := [] })) s) s
    moved.foldl pushPosting { s with tellers := { s.tellers with throttled := true } }
  else
    let s : State := { s with tellers := { s.tellers with throttled := false } }
    let s := if s.power.state < 2 then ((List.range 8).map (· + 8)).foldl ungateBranch s else s
    drainProducer (fire s 0x17 2 0xFFFFFFFF [] false)

/-! ### The daybook (R413, R418, R422, R425) -/

/-- DAYBOOK_TRIGGER (R418): a trigger that hardware or the firmware's port raises. -/
def execDaybookTrigger (t : Trigger) (s : State) : Host.Outcome State Fault Refusal :=
  .next (if powered s && t.kind < 0x1E then fire s t.kind t.cause t.arg t.detail t.alert else s)

/-- The counts of the accumulator as bytes 32–95 of its record. -/
def countBytes (t : Tbl Nat) : List Byte := (List.range 32).flatMap (fun k => natLe 2 (tget 0 t k))

/-- COALESCE (R422): the open accumulator enters the queue's tail once an entry is free. -/
def coalesce (s : State) : State :=
  match s.daybook.accum with
  | none => s
  | some (t, first, last, alert) =>
    if 64 ≤ s.daybook.queue.length then s
    else
      let r : DbRec := { kind := 2, cause := 0, arg := 0, detail := natLe 8 first ++ natLe 8 last, alert, opMs := s.mgmt.opMs, powerCycle := s.mgmt.powerCycles, close := s.now, cycle := s.clock.cycle, words := [], extra := countBytes t }
      daybookStart { s with daybook := { s.daybook with
        accum := none
        queue := s.daybook.queue ++ [r]
        kinds := tmod {} s.daybook.kinds 2 (fun k => { k with count := inc 0xFFFF k.count }) } }

def execCoalesce (s : State) : Host.Outcome State Fault Refusal :=
  .next (coalesce s)

/-- DAYBOOK_RECORD_WRITE (R420, R422): the record being written is in the ring, and the next one starts; not in the quiet slice (R44). -/
def recordWritten (s : State) : State :=
  match if s.quiet then none else s.daybook.writing with
  | none => s
  | some (seq, r) => coalesce (daybookStart (daybookStore { s with daybook := { s.daybook with writing := none } } seq r))

def execDaybookRecordWrite (s : State) : Host.Outcome State Fault Refusal :=
  .next (recordWritten s)

/-- A write of 1 to DBK_ALERT.ACK (R413). -/
def ackAlerts (s : State) : State := { s with daybook := { s.daybook with pending := 0 } }

/-- ALERT_ACK (R413). -/
def execAlertAck (s : State) : Host.Outcome State Fault Refusal :=
  .next (if powered s then ackAlerts s else s)

/-- The host's cursor, or that of SMBus (R416, R425). -/
def setCursor (s : State) (smbus : Bool) (v : BitVec 64) : State :=
  if smbus then { s with smbus := { s.smbus with cursor := v } } else { s with daybook := { s.daybook with cursor := v } }

/-- DBK_CURSOR_WRITE (R416, R425). -/
def execDbkCursorWrite (smbus : Bool) (value : BitVec 64) (s : State) : Host.Outcome State Fault Refusal :=
  .next (if powered s then setCursor s smbus value else s)

end Sys2Proof.Machine
end

