-- ==== Sys2Proof/Machine/Fuses.lean ====
section
/-! DEFINITION. Flash and fuse operations (02 R19, R27, 15 R426, 17 R460), DRAM rows (17 R457, R458), the clock and the test port (18 R474, R478). -/

namespace Sys2Proof.Machine

/-! ### Flash programming in Recovery (R19) -/

/-- Bytes that an operation of CHR_PROG_CTRL reaches. -/
def flashLen (op : Nat) : Nat := if op = 1 then 65536 else 4096

/-- An operation that does nothing ends at once with its result. -/
def flashRefused (s : State) (result : Nat) : State := { s with flash := { s.flash with result, go := false } }

/-- Bytes of a read that failed are free. -/
def freeBytes (s : State) (n : Nat) : State × List Byte :=
  ({ s with free := s.free + n }, (List.range n).map (fun i => (Config.freeValue (s.free + i)).truncate 8))

/-- The operation itself, with what the flash device answers. -/
def flashAct (s : State) (op : Nat) (good : Bool) : State :=
  let a := s.flash.addr
  if op = 1 then (if good then flashEraseArea s a 65536 else flashWrite s a (List.replicate 65536 0) false)
  else if op = 2 then flashWrite s a (Memory.readN 0 s.flash.buf 0 4096) good
  else
    let (s, bs) := if good then (s, flashBytes s a 4096) else freeBytes s 4096
    { s with flash := { s.flash with buf := Memory.ofBytes bs } }

/-- GO with an operation: 1 Erase, 2 Program, 3 Read. A range that touches the reserved region is OutsideSlots whatever else it is (R19). -/
def startFlash (s : State) (op : Nat) (good : Bool) : State :=
  if !powered s || s.flash.busy || op = 0 || 3 < op then s
  else
    let s : State := { s with flash := { s.flash with op } }
    if !inRecovery s then flashRefused s 1
    else if 0x340_0000 < s.flash.addr + flashLen op then flashRefused s 4
    else if s.flash.addr % flashLen op ≠ 0 then flashRefused s 2
    else
      let s := flashAct s op good
      { s with flash := { s.flash with go := true, busy := true, nextResult := if good then 0 else 3, writing := if op = 3 then none else some (s.flash.addr, flashLen op) } }

/-- FLASH_ERASE (R19). -/
def execFlashErase (good : Bool) (s : State) : Host.Outcome State Fault Refusal :=
  .next (startFlash s 1 good)

/-- FLASH_PROGRAM (R19). -/
def execFlashProgram (good : Bool) (s : State) : Host.Outcome State Fault Refusal :=
  .next (startFlash s 2 good)

/-- FLASH_READ (R19). -/
def execFlashRead (good : Bool) (s : State) : Host.Outcome State Fault Refusal :=
  .next (startFlash s 3 good)

/-- FLASH_OPERATION_END (R19): BUSY and GO clear, and RESULT shows the result. -/
def execFlashOperationEnd (s : State) : Host.Outcome State Fault Refusal :=
  .next (if s.flash.busy then { s with flash := { s.flash with busy := false, go := false, result := s.flash.nextResult, writing := none } } else s)

/-! ### Charter keys (R426) -/

def fuseRefused (s : State) (result : Nat) : State := { s with fuses := { s.fuses with result, go := false } }

/-- An entry is programmed; a mismatch at the read-back leaves it revoked. -/
def programKey (s : State) (n : Nat) (good : Bool) : State :=
  { s with fuses := { s.fuses with
    keys := tset s.fuses.keys n s.fuses.digest
    keyProgrammed := s.fuses.keyProgrammed ||| BitVec.ofNat 4 (2 ^ n)
    keyRevoked := if good then s.fuses.keyRevoked else s.fuses.keyRevoked ||| BitVec.ofNat 4 (2 ^ n)
    go := true, busy := true
    nextResult := if good then 0 else 4 } }

def revokeKey (s : State) (n : Nat) : State :=
  { s with fuses := { s.fuses with
    keyRevoked := s.fuses.keyRevoked ||| BitVec.ofNat 4 (2 ^ n)
    go := true, busy := true, nextResult := 0 } }

/-- GO with an operation: 1 Program, 2 Revoke. It acts only when ARM holds 0x4B52. -/
def startFuse (s : State) (op : Nat) (good : Bool) : State :=
  if !powered s || s.fuses.busy || op = 0 || 2 < op then s
  else
    let armed := s.fuses.arm = 0x4B52
    let n := s.fuses.entry % 4
    let s : State := { s with fuses := { s.fuses with op, arm := 0 } }
    if !armed then fuseRefused s 1
    else if op = 1 then
      if !inRecovery s then fuseRefused s 2
      else if s.fuses.keyProgrammed.getLsbD n || s.fuses.keyRevoked.getLsbD n then fuseRefused s 3
      else programKey s n good
    else if inRecovery s then revokeKey s n
    else if s.chip.step = 15 then (if s.ch (·.keyIndex) 0 = n then fuseRefused s 5 else revokeKey s n)
    else fuseRefused s 2

/-- FUSE_PROGRAM (R426). -/
def execFuseProgram (verifyGood : Bool) (s : State) : Host.Outcome State Fault Refusal :=
  .next (startFuse s 1 verifyGood)

/-- FUSE_REVOKE (R426). -/
def execFuseRevoke (s : State) : Host.Outcome State Fault Refusal :=
  .next (startFuse s 2 true)

/-- FUSE_OPERATION_END (R426). -/
def execFuseOperationEnd (s : State) : Host.Outcome State Fault Refusal :=
  .next (if s.fuses.busy then { s with fuses := { s.fuses with busy := false, go := false, result := s.fuses.nextResult } } else s)

/-! ### Anti-rollback and retirement fuses (R27, R460) -/

/-- A thermometer blown up to a value, with its daybook record when it advances. -/
def advanceCounter (s : State) (kind target seq : Nat) : State :=
  if target ≤ counter s kind then s
  else
    let up := fun (l : List Nat) => (l ++ List.range target).eraseDups
    let s : State := { s with fuses := if kind = 0 then { s.fuses with charterBlown := up s.fuses.charterBlown } else { s.fuses with fwBlown := up s.fuses.fwBlown } }
    fire s 0x19 1 kind (natLe 1 (activeSlot s kind) ++ zeros 7 ++ natLe 8 seq) false

/-- FUSE_ADVANCE (R27): once Running is reached, each counter comes to the security version of the active image. -/
def fuseAdvance (s : State) : State :=
  if s.chip.step = 15 && opfin s && !s.chip.halted then
    let s := advanceCounter s 0 (s.ch (·.secVersion) 0) (s.ch (·.seq) 0)
    let s := advanceCounter s 1 s.chip.fwSv s.chip.fwSeq
    { s with chip := { s.chip with advanceDone := true } }
  else s

def execFuseAdvance (s : State) : Host.Outcome State Fault Refusal :=
  .next (fuseAdvance s)

/-- A counter that a loss of power stops on its way to its target: it has come to a value from the old one to the target, which one is free (R27). -/
def advancePart (s : State) (kind target : Nat) : State :=
  let old := counter s kind
  if target ≤ old then s
  else
    let (s, v) := takeFree s
    let up := fun (l : List Nat) => (l ++ List.range (old + v.toNat % (target - old + 1))).eraseDups
    { s with fuses := if kind = 0 then { s.fuses with charterBlown := up s.fuses.charterBlown } else { s.fuses with fwBlown := up s.fuses.fwBlown } }

/-- Power is lost while the firmware of a unit in Running has not come to the end of the fuse advance (R27). -/
def fuseCut (s : State) : State :=
  if s.chip.step = 15 && opfin s && !s.chip.halted && !s.chip.advanceDone then
    advancePart (advancePart s 0 (s.ch (·.secVersion) 0)) 1 s.chip.fwSv
  else s

/-- Power is lost while a flash operation writes: the bytes of its range are free, and its slot fails a check until the range is written again (R26). -/
def flashCut (s : State) : State :=
  match s.flash.writing with
  | none => s
  | some (a, len) =>
    let s := flashWrite s a (zeros len) false
    { s with flash := { s.flash with torn := s.flash.torn ++ [(a, len)] } }

/-- RETIREMENT_FUSE (R460): the fuse of a retired element. -/
def execRetirementFuse (element number : Nat) (s : State) : Host.Outcome State Fault Refusal :=
  .next <|
    if opfin s && s.reserves.fusePending.contains (element, number) then
      { s with
        fuses := { s.fuses with retired := (s.fuses.retired ++ [(element, number)]).eraseDups }
        reserves := { s.reserves with fusePending := s.reserves.fusePending.filter (fun e => e ≠ (element, number)) } }
    else s

/-! ### DRAM rows (R457, R458) -/

/-- The tracked rows with room for one more: the row with the oldest last event goes. -/
def rowRoom (rows : List DramRow) : List DramRow :=
  if rows.length < 256 then rows
  else
    let last := fun (r : DramRow) => maxOf r.events
    match minOf (rows.map last) with
    | none => rows
    | some m => rows.eraseP (fun r => last r = m)

/-- DRAM_ECC_EVENT (R457): the row is tracked; at its limit, or at an uncorrectable error, its repair is due. -/
def dramEvent (s : State) (row : Nat) (correctable : Bool) : State :=
  if !powered s || s.chip.step < 5 || s.reserves.mappedOut.contains row then s
  else
    let rows := if s.reserves.rows.any (fun r => r.row = row) then s.reserves.rows else rowRoom s.reserves.rows ++ [⟨row, [], false, false⟩]
    let rows := modIf (fun r => r.row = row) (fun r =>
      let events := recent 24 s.now r.events ++ [s.now]
      { r with events, uncorrectable := r.uncorrectable || !correctable, repairDue := r.repairDue || !correctable || s.ch (·.rowLimit) 4 ≤ events.length }) rows
    { s with reserves := { s.reserves with rows, dramCorrected := if correctable then inc 0xFFFF s.reserves.dramCorrected else s.reserves.dramCorrected } }

def execDramEccEvent (row : Nat) (correctable : Bool) (s : State) : Host.Outcome State Fault Refusal :=
  .next (dramEvent s row correctable)

/-- DRAM_ROW_REPAIR (R457, R458, R454): sPPR, or mapping out when no repair resource is left or DRAM repair is disabled; not in Rest or Dormant. -/
def dramRepairRow (s : State) (row : Nat) (resource : Bool) : State :=
  match s.reserves.rows.find? (fun r => r.row = row && r.repairDue) with
  | none => s
  | some r =>
    if 2 ≤ s.power.state || s.chip.halted then s
    else
      let cause := if r.uncorrectable then 2 else 1
      let s : State := { s with reserves := { s.reserves with rows := s.reserves.rows.filter (fun q => q.row ≠ row) } }
      if resource && s.ch (·.dramRepair) true then
        history { s with reserves := { s.reserves with repaired := (s.reserves.repaired ++ [row]).eraseDups, repairedCount := s.reserves.repairedCount + 1 } } 7 5 cause row noLogical
      else history { s with reserves := { s.reserves with mappedOut := s.reserves.mappedOut ++ [row] } } 7 6 cause row noLogical

def execDramRowRepair (row : Nat) (resource : Bool) (s : State) : Host.Outcome State Fault Refusal :=
  .next (dramRepairRow s row resource)

/-! ### Clock and test port (R474, R478) -/

/-- PLL_LOCK_LOSS (R474): for more than 1 µs, while the device runs. -/
def execPllLockLoss (ns : Nat) (s : State) : Host.Outcome State Fault Refusal :=
  .next (if powered s && s.chip.locked && 1000 < ns then halt { s with chip := { s.chip with onOscillator := true } } else s)

/-- Instructions that take the balls. -/
def takesBalls (i : JtagInstr) : Bool :=
  match i with
  | .bypass => false
  | .idcode => false
  | .samplePreload => false
  | .extest => true
  | .clamp => true
  | .highz => true
  | .extestPulse => true
  | .extestTrain => true

/-- JTAG_INSTRUCTION_LOAD (R478). -/
def execJtagInstructionLoad (i : JtagInstr) (s : State) : Host.Outcome State Fault Refusal :=
  .next <|
    let t : State := { s with chip := { s.chip with jtag := i } }
    if takesBalls i && powered s then halt t else t

end Sys2Proof.Machine
end

