-- ==== Sys2Proof/Machine/MapCache.lean ====
section
/-! DEFINITION. The map cache (16 R444–R449). -/

namespace Sys2Proof.Machine

/-- The set, the tag and the line address of a map address (R444). -/
def mapSet (a : Nat) : Nat := fld a 17 8
def mapTag (a : Nat) : Nat := fld a 38 18
def lineAddr (a : Nat) : Nat := a / 256 * 256

/-- The 64-byte entry of a line that an address names. -/
def lineEntry (d : List Byte) (a : Nat) : List Byte := padTo 64 (d.drop (a % 256 / 64 * 64))

def dramLine (s : State) (a : Nat) : List Byte := Memory.readN 0 s.dram (lineAddr a) 256

def way (s : State) (w : Nat) : Way := (s.map.ways.drop w).headD { enabled := false }

def setGen (s : State) (set : Nat) : Nat := tget 0 s.map.gens set

/-- The set's generation advances (R448). -/
def bumpGen (s : State) (set : Nat) : State :=
  { s with map := { s.map with gens := tset s.map.gens set ((setGen s set + 1) % 65536) } }

def serve (s : State) (id : Nat) (e : List Byte) : State := { s with map := { s.map with served := s.map.served ++ [(id, e)] } }

/-- A corrected or uncorrectable error of a way (R446); at the limit it is disabled at the next boundary. -/
def wayError (s : State) (w ecc : Nat) : State :=
  let s : State := { s with map := { s.map with
    corrected := if ecc = 1 then inc 0xFFFF s.map.corrected else s.map.corrected
    uncorrected := if ecc = 2 then inc 0xFFFF s.map.uncorrected else s.map.uncorrected
    ways := modAt (fun x => { x with corrected := if ecc = 1 then recent 20 s.now x.corrected ++ [s.now] else x.corrected }) w s.map.ways } }
  if ecc = 2 || s.ch (·.wayLimit) 4 ≤ (way s w).corrected.length then
    { s with map := { s.map with ways := modAt (fun x => { x with disabling := x.enabled, cause := if ecc = 2 then 2 else 1 }) w s.map.ways } }
  else s

/-- A lookup (R445–R448): victim hold, hit, join of an outstanding fill, or a miss that issues one. A lookup made `again` is not counted a second time. -/
def lookup (again : Bool) (s : State) (id a w ecc : Nat) : State :=
  let hit := if again then s.map.hits else inc 0xFFFFFFFF s.map.hits
  let set := mapSet a
  let tag := mapTag a
  match s.map.victims.find? (fun v => v.set = set && v.tag = tag) with
  | some v => serve { s with map := { s.map with hits := hit, victimHits := inc 0xFFFF s.map.victimHits } } id (lineEntry v.data a)
  | none =>
    match s.map.lines.find? (fun l => l.set = set && l.tag = tag && (way s l.way).enabled) with
    | some l =>
      let s : State := { s with map := { s.map with hits := hit } }
      if ecc = 2 then
        serve (wayError { s with map := { s.map with lines := s.map.lines.filter (fun x => !(x.set = set && x.tag = tag)) } } l.way 2) id (lineEntry (dramLine s a) a)
      else serve (if ecc = 1 then wayError s l.way 1 else s) id (lineEntry l.data a)
    | none =>
      let s : State := { s with map := { s.map with misses := if again then s.map.misses else inc 0xFFFFFFFF s.map.misses } }
      if !s.map.ways.any (·.enabled) then serve s id (lineEntry (dramLine s a) a)
      else if s.map.fills.any (fun f => f.set = set && f.tag = tag) then
        { s with map := { s.map with fills := modIf (fun f => f.set = set && f.tag = tag) (fun f => { f with lookups := f.lookups ++ [(id + 2 ^ 32 * (a % 256), setGen s set)] }) s.map.fills } }
      else
        let w := if (way s w).enabled then w else (s.map.ways.findIdx? (·.enabled)).getD 0
        let old := s.map.lines.find? (fun l => l.set = set && l.way = w)
        if old.isSome && 8 ≤ s.map.victims.length then
          { s with map := { s.map with waiting := s.map.waiting ++ [(id, a, w)] } }
        else
          { s with map := { s.map with
              lines := s.map.lines.filter (fun l => !(l.set = set && l.way = w))
              victims := s.map.victims ++ old.toList
              fills := s.map.fills ++ [⟨set, tag, setGen s set, w, dramLine s a, [(id + 2 ^ 32 * (a % 256), setGen s set)], false⟩] } }

/-- MAP_LOOKUP (R444–R449): a requester's lookup, the way replacement would choose (the lowest enabled one where that one is disabled: DESIGN CHOICE,
log entry 38), and what the ECC finds. -/
def execMapLookup (id addr way ecc : Nat) (s : State) : Host.Outcome State Fault Refusal :=
  .next (lookup false { s with map := { s.map with served := [] } } (id % 2 ^ 32) (addr % 2 ^ 39) (way % 16) ecc)

/-- Misses that waited for a hold register are made again. -/
def retryWaiting (s : State) : State :=
  s.map.waiting.foldl (fun s q => lookup true s q.1 q.2.1 q.2.2 0) { s with map := { s.map with waiting := [] } }

/-- MAP_FILL_RETURN (R447–R449): the line returns; installed when the generation is unchanged and the way still enabled. -/
def execMapFillReturn (addr : Nat) (s : State) : Host.Outcome State Fault Refusal :=
  .next <|
    let s : State := { s with map := { s.map with served := [] } }
    let set := mapSet addr
    let tag := mapTag addr
    match s.map.fills.find? (fun f => f.set = set && f.tag = tag) with
    | none => s
    | some f =>
      let s : State := { s with map := { s.map with
        fills := s.map.fills.filter (fun g => !(g.set = set && g.tag = tag))
        victims := s.map.victims.filter (fun v => !(v.set = set && v.way = f.way)) } }
      let give := fun (s : State) (l : Nat × Nat) => serve s (l.1 % 2 ^ 32) (lineEntry f.data (l.1 / 2 ^ 32))
      if setGen s set = f.gen then
        let s : State := if f.disabled || !(way s f.way).enabled then s else { s with map := { s.map with lines := s.map.lines.filter (fun l => !(l.set = set && l.way = f.way)) ++ [⟨set, f.way, tag, f.data⟩] } }
        retryWaiting (f.lookups.foldl give s)
      else
        let again := f.lookups.filter (fun l => l.2 ≠ f.gen)
        let s : State := { s with map := { s.map with stale := inc 0xFFFF s.map.stale, retries := hold 0xFFFF (s.map.retries + again.length) } }
        let s := (f.lookups.filter (fun l => l.2 = f.gen)).foldl give s
        retryWaiting (again.foldl (fun s l => lookup true s (l.1 % 2 ^ 32) (lineAddr addr + l.1 / 2 ^ 32) f.way 0) s)

/-- A change of a map entry: to DRAM, to the line and to a hold register that have it; the generation advances (R445, R447, R448). -/
def entryChange (s : State) (a : Nat) (e : List Byte) : State :=
  let a := a / 64 * 64
  let e := padTo 64 e
  let upd := fun (l : Line) => if l.set = mapSet a && l.tag = mapTag a then { l with data := l.data.take (a % 256) ++ e ++ l.data.drop (a % 256 + 64) } else l
  bumpGen { s with
    dram := Memory.writeN 0 s.dram a e
    map := { s.map with lines := s.map.lines.map upd, victims := s.map.victims.map upd } } (mapSet a)

/-- MAP_ENTRY_CHANGE (R445, R447–R449). -/
def execMapEntryChange (addr : Nat) (entry : List Byte) (s : State) : Host.Outcome State Fault Refusal :=
  .next (entryChange s (addr % 2 ^ 39) entry)

/-- One line invalidated (R448). -/
def invalidateLine (s : State) (a : Nat) : State :=
  let keep := fun (l : Line) => !(l.set = mapSet a && l.tag = mapTag a)
  bumpGen { s with map := { s.map with lines := s.map.lines.filter keep, victims := s.map.victims.filter keep } } (mapSet a)

/-- MAP_INVALIDATE_LINE (R448, R449): GO with ALL 0, at MAP_INVAL_ADDR. -/
def execMapInvalidateLine (s : State) : Host.Outcome State Fault Refusal :=
  .next (if writesTaken s then invalidateLine s s.map.invalAddr else s)

/-- Every line invalidated; each set's generation advances (R448). -/
def invalidateAll (s : State) : State :=
  (List.range 1024).foldl bumpGen { s with map := { s.map with lines := [], victims := [] } }

/-- MAP_INVALIDATE_ALL (R448): GO with ALL 1. -/
def execMapInvalidateAll (s : State) : Host.Outcome State Fault Refusal :=
  .next (if writesTaken s then invalidateAll s else s)

/-- Row 3 of a boundary: a way at its limit is disabled, its lines invalidated, and the retirement recorded (R446, R453). -/
def wayDisable (s : State) (w : Nat) : State :=
  let x := way s w
  if !x.disabling then s
  else
    let s : State := { s with map := { s.map with
      ways := modAt (fun x => { x with enabled := false, disabling := false, eventClose := s.now }) w s.map.ways
      lines := s.map.lines.filter (fun l => l.way ≠ w)
      fills := s.map.fills.map (fun f => if f.way = w then { f with disabled := true } else f) } }
    let s := history s 8 4 x.cause w noLogical
    if s.map.ways.any (·.enabled) then s else history s 8 7 0 w noLogical

end Sys2Proof.Machine
end

