-- ==== Sys2Proof/Machine/RegWrite.lean ====
section
/-! DEFINITION. Register accesses (00 R9–R13, 02 R37): RC fields, latches of high halves, held low halves, and what each writable register does. -/

namespace Sys2Proof.Machine

/-! ### RC fields (R9, R13) -/

/-- Zero where the half is cleared. -/
def clr (b : Bool) (v : Nat) : Nat := if b then 0 else v

/-- RC fields of GEN_, WKT_ and RET_. -/
def clearGen (s : State) (a : Nat) (lo hi : Bool) : State :=
  match a with
  | 0x00_0010 => { s with link := { s.link with recoveries := clr lo s.link.recoveries, replays := clr hi s.link.replays } }
  | 0x00_0028 => { s with returns := { s.returns with masterOff := clr hi s.returns.masterOff } }
  | 0x00_0118 => { s with closers := { s.closers with total := clr hi s.closers.total } }
  | 0x00_0128 => { s with closers := { s.closers with skipped := clr lo s.closers.skipped, rewritten := clr lo s.closers.rewritten } }
  | _ => s

def clearWkt (s : State) (a : Nat) (lo hi : Bool) : State :=
  let w := s.wickets
  match a with
  | 0x01_0018 => { s with wickets := { w with peak := clr hi w.peak } }
  | 0x01_0020 => { s with wickets := { w with rejCommand := clr lo w.rejCommand, rejRefused := clr lo w.rejRefused, payloadFaults := clr hi w.payloadFaults, stray := clr hi w.stray } }
  | 0x01_0028 => { s with wickets := { w with resets := clr lo w.resets, entries := clr lo w.entries } }
  | _ => s

def clearRet (s : State) (a : Nat) (lo hi : Bool) : State :=
  if 0x02_1000 ≤ a ∧ a < 0x02_2000 ∧ a % 0x40 = 0x30 then
    modRg s ((a - 0x02_1000) / 0x40) (fun r => { r with badHead := clr lo r.badHead, posted := clr hi r.posted })
  else s

def clearTel (s : State) (a : Nat) (lo hi : Bool) : State :=
  let t := s.tellers
  let c := s.scratch
  let h := s.holds
  match a with
  | 0x04_0010 => { s with tellers := { t with postings := clr lo t.postings, stealsBranch := clr hi t.stealsBranch, stealsCross := clr hi t.stealsCross } }
  | 0x04_0018 => { s with tellers := { t with overruns := clr lo t.overruns, splits := clr lo t.splits } }
  | 0x04_0020 => { s with tellers := { t with parity := clr lo t.parity, reissued := clr lo t.reissued, writeLost := clr hi t.writeLost, badDesc := clr hi t.badDesc } }
  | 0x04_0028 => { s with holds := { h with waits := clr lo h.waits, rereads := clr hi h.rereads, tableFull := clr hi h.tableFull } }
  | 0x04_0030 => { s with tellers := { t with busyCycles := if lo then t.busyCycles % 65536 else t.busyCycles } }
  | 0x04_0108 => { s with scratch := { c with waits := clr lo c.waits, lost := clr hi c.lost } }
  | 0x04_0110 => { s with scratch := { c with corrected := clr lo c.corrected, poisonedCount := clr lo c.poisonedCount } }
  | 0x04_0118 => { s with scratch := { c with yields := clr lo c.yields, skippedSweeps := clr hi c.skippedSweeps, failures := clr hi c.failures } }
  | _ =>
    if 0x04_2000 ≤ a ∧ a < 0x04_2000 + 8 * 264 ∧ hi then
      { s with scratch := { c with banks := tmod {} c.banks ((a - 0x04_2000) / 8) (fun b => { b with collisions := 0 }) } }
    else s

def clearLgr (s : State) (a : Nat) (lo hi : Bool) : State :=
  let l := s.ledger
  match a with
  | 0x05_0010 => { s with ledger := { l with peak := clr hi l.peak } }
  | 0x05_0028 => { s with ledger := { l with maxWait := clr lo l.maxWait, withheld := clr hi l.withheld } }
  | 0x05_0030 => { s with ledger := { l with fullRows := clr lo l.fullRows, smallRows := clr hi l.smallRows, replans := clr hi l.replans } }
  | 0x05_0040 => { s with ledger := { l with tableWaits := clr hi l.tableWaits } }
  | 0x05_0058 => { s with ledger := { l with admissions := clr hi l.admissions, ckptFailures := clr hi l.ckptFailures } }
  | 0x05_0070 => { s with ledger := { l with corrected := clr lo l.corrected, uncorrected := clr lo l.uncorrected, lostRanges := clr hi l.lostRanges } }
  | 0x05_0078 => { s with ledger := { l with refusals := clr lo l.refusals, stallCloses := clr (lo || hi) l.stallCloses } }
  | _ => s

def clearVol (s : State) (a : Nat) (lo hi : Bool) : State :=
  let d := s.degrade
  match a with
  | 0x06_0010 => { s with plans := { s.plans with misses := clr lo s.plans.misses, evictions := clr hi s.plans.evictions, reissues := clr hi s.plans.reissues } }
  | 0x06_8008 => { s with degrade := { d with completed := clr hi d.completed, restarts := clr hi d.restarts } }
  | 0x06_8010 => { s with degrade := { d with used := clr lo d.used, matched := clr lo d.matched, mismatched := clr hi d.mismatched, dropped := clr hi d.dropped } }
  | 0x06_8018 => { s with degrade := { d with reconstructed := clr lo d.reconstructed, repaired := clr hi d.repaired, repairFailed := clr hi d.repairFailed } }
  | 0x06_8020 => { s with degrade := { d with lossNew := clr hi d.lossNew, unrecorded := clr hi d.unrecorded } }
  | 0x06_8028 => { s with degrade := { d with scrubRows := clr lo d.scrubRows, located := clr hi d.located, unlocated := clr hi d.unlocated, syndrome := clr hi d.syndrome } }
  | 0x06_9000 => { s with reshapes := { s.reshapes with switches := clr lo s.reshapes.switches, cancels := clr hi s.reshapes.cancels } }
  | _ =>
    if 0x06_A000 ≤ a ∧ a < 0x06_A200 then
      let i := (a - 0x06_A000) / 0x40
      if a % 0x40 = 0x00 then { s with vaults := { s.vaults with vaults := modAt (fun v => { v with abandoned := clr hi v.abandoned }) i s.vaults.vaults } }
      else if a % 0x40 = 0x18 then { s with vaults := { s.vaults with vaults := modAt (fun v => { v with failed := clr hi v.failed, repaired := clr hi v.repaired }) i s.vaults.vaults } }
      else s
    else s

def clearDrv (s : State) (a : Nat) (lo hi : Bool) : State :=
  if a = 0x07_0008 then { s with drives := { s.drives with broadcasts := clr hi s.drives.broadcasts, beyond := clr hi s.drives.beyond } }
  else if 0x07_0200 ≤ a ∧ a < 0x07_0300 ∧ a % 0x10 = 8 then
    { s with sas := tmod {} s.sas ((a - 0x07_0200) / 0x10) (fun l => { l with trims := clr lo l.trims, deferred := clr lo l.deferred }) }
  else if 0x07_4000 ≤ a ∧ a < 0x07_8000 then
    { s with drives := { s.drives with members := tmod {} s.drives.members ((a - 0x07_4000) / 8) (fun m => { m with timeouts := clr hi m.timeouts }) } }
  else s

def clearChn (s : State) (a : Nat) (lo hi : Bool) : State :=
  let p := s.pair
  match a with
  | 0x08_0018 => { s with pair := { p with losses := clr hi p.losses, badHb := clr hi p.badHb } }
  | 0x08_0020 => { s with pair := { p with rounds := clr lo p.rounds } }
  | 0x08_0030 => { s with chain := { s.chain with words := clr lo s.chain.words, restarts := clr hi s.chain.restarts } }
  | 0x08_0040 => { s with pair := { p with audits := clr lo p.audits, mismatches := clr lo p.mismatches } }
  | 0x08_0050 => { s with pair := { p with hbSent := clr lo p.hbSent } }
  | _ =>
    if 0x08_0100 ≤ a ∧ a < 0x08_0160 ∧ a % 0x10 = 8 then
      { s with chain := { s.chain with lanes := modAt (fun l => { l with crc := clr lo l.crc }) ((a - 0x08_0100) / 0x10) s.chain.lanes } }
    else s

def clearPwr (s : State) (a : Nat) (lo : Bool) : State :=
  if 0x09_1000 ≤ a ∧ a < 0x09_1800 ∧ a % 0x20 = 0x10 then
    { s with gov := { s.gov with groups := tmod {} s.gov.groups ((a - 0x09_1000) / 0x20) (fun g => { g with windows := clr lo g.windows, late := clr lo g.late }) } }
  else s

def clearSns (s : State) (a : Nat) (lo hi : Bool) : State :=
  match a with
  | 0x0A_0010 => { s with sensors := { s.sensors with peakMw := clr lo s.sensors.peakMw } }
  | 0x0A_0300 => { s with smbus := { s.smbus with pec := clr lo s.smbus.pec, requests := clr hi s.smbus.requests, forbidden := clr hi s.smbus.forbidden } }
  | _ => s

def clearDbk (s : State) (a : Nat) (lo hi : Bool) : State :=
  let d := s.daybook
  if a = 0x0B_0010 then { s with daybook := { d with merged := clr lo d.merged, coalesced := clr hi d.coalesced } }
  else if 0x0B_0200 ≤ a ∧ a < 0x0B_0300 then
    { s with daybook := { d with kinds := tmod {} d.kinds ((a - 0x0B_0200) / 8) (fun k => { k with count := clr lo k.count, merged := clr hi k.merged }) } }
  else s

def clearCur (s : State) (a : Nat) (lo hi : Bool) : State :=
  let c := s.courier
  match a with
  | 0x0C_0010 => { s with courier := { c with bad := (List.range 9).map (fun i => clr (if i ≤ 4 then lo else hi) (c.bad.getD i 0)) } }
  | 0x0C_0018 => { s with courier := { c with bursts := clr lo c.bursts, handovers := clr hi c.handovers, missed := clr hi c.missed } }
  | _ => s

def clearMap (s : State) (a : Nat) (lo hi : Bool) : State :=
  let m := s.map
  match a with
  | 0x0D_0008 => { s with map := { m with hits := clr lo m.hits, misses := clr hi m.misses } }
  | 0x0D_0010 => { s with map := { m with victimHits := clr lo m.victimHits, stale := clr lo m.stale, retries := clr hi m.retries } }
  | 0x0D_0018 => { s with map := { m with corrected := clr lo m.corrected, uncorrected := clr lo m.uncorrected } }
  | _ => s

def clearRsv (s : State) (a : Nat) (lo hi : Bool) : State :=
  let r := s.reserves
  match a with
  | 0x0E_0008 => { s with reserves := { r with admitted := clr lo r.admitted, retired := clr lo r.retired, testFailed := clr hi r.testFailed, exhausted := clr hi r.exhausted } }
  | 0x0E_0020 => { s with reserves := { r with dramCorrected := clr hi r.dramCorrected } }
  | 0x0E_0030 => { s with ledger := { s.ledger with trimFails := clr lo s.ledger.trimFails } }
  | _ => s

/-- The RC fields of the register at an address are cleared, in the halves given. -/
def readClear (s : State) (a : Nat) (lo hi : Bool) : State :=
  match a / 0x1_0000 with
  | 0x00 => clearGen s a lo hi
  | 0x01 => clearWkt s a lo hi
  | 0x02 => clearRet s a lo hi
  | 0x04 => clearTel s a lo hi
  | 0x05 => clearLgr s a lo hi
  | 0x06 => clearVol s a lo hi
  | 0x07 => clearDrv s a lo hi
  | 0x08 => clearChn s a lo hi
  | 0x09 => clearPwr s a lo
  | 0x0A => clearSns s a lo hi
  | 0x0B => clearDbk s a lo hi
  | 0x0C => clearCur s a lo hi
  | 0x0D => clearMap s a lo hi
  | 0x0E => clearRsv s a lo hi
  | _ => s

/-! ### Reads by the host (R10, R12, R13, R37) -/

/-- The registers that answer: in Recovery only GEN_ and CHR_ (R37). -/
def answers (s : State) (a : Nat) : Bool := !inRecovery s || a / 0x1_0000 = 0x00 || a / 0x1_0000 = 0x0F

/-- What the host reads at an aligned register address, with no side effect. -/
def hostReg (s : State) (a : Nat) : Nat := if answers s a then regRead s a else 0

/-- An aligned 64-bit read, or a 32-bit read of either half, with their side effects (R13); any other read has none (R12). -/
def regAccess (s : State) (a size : Nat) : State × List Byte :=
  let base := a / 8 * 8
  let v := hostReg s base
  let aligned := size = 8 && a % 8 = 0 || size = 4 && a % 4 = 0
  if !aligned then (s, (List.range size).map (fun i => byteOf (hostReg s ((a + i) / 8 * 8) / 2 ^ (8 * ((a + i) % 8)))))
  else if !answers s base then (s, zeros size)
  else if size = 8 then (readClear s base true true, natLe 8 v)
  else if a % 8 = 0 then
    (readClear { s with latched := tset s.latched base (v / 2 ^ 32) } base true true, natLe 4 v)
  else
    match s.latched.find? (fun e => e.1 = base) with
    | some e => ({ s with latched := tdel s.latched base }, natLe 4 e.2)
    | none => (readClear s base false true, natLe 4 (v / 2 ^ 32))

/-! ### Writes by the host (R9–R11, R13) -/

/-- A register word with some halves of it replaced. -/
def halfMix (old v : Nat) (lo hi : Bool) : Nat := (if lo then v % 2 ^ 32 else old % 2 ^ 32) + 2 ^ 32 * (if hi then v / 2 ^ 32 % 2 ^ 32 else old / 2 ^ 32 % 2 ^ 32)

/-- WKT_ registers. -/
def writeWkt (s : State) (a v : Nat) (lo hi : Bool) : State :=
  match a with
  | 0x01_0008 =>
    let addr := if s.wickets.creditEnable then s.wickets.creditAddr else halfMix s.wickets.creditAddr v lo hi / 64 * 64
    let s : State := { s with wickets := { s.wickets with creditAddr := addr } }
    if !lo then s
    else if bit v 0 then creditBaseEnable s addr else { s with wickets := { s.wickets with creditEnable := false } }
  | 0x01_0010 =>
    if !lo then s
    else
      let s : State := { s with wickets := { s.wickets with qWicket := fld v 8 0, qAll := bit v 9 } }
      if bit v 16 then queueResetRequest s (fld v 8 0) (bit v 9) else s
  | _ => s

/-- RET_CFGn: the fields that are fixed while the ring is enabled, the interrupt fields, then ENABLE (R11, R272, R278, R279). -/
def writeCfg (s : State) (n v : Nat) (lo hi : Bool) : State :=
  let on := (rg s n).enable
  let s := modRg s n (fun r =>
    let r : Ring := if lo && !on then { r with
        shadowEn := bit v 1
        sizeLog := if 12 ≤ fld v 12 8 && fld v 12 8 ≤ 26 then fld v 12 8 else r.sizeLog
        maxLog := if 10 ≤ fld v 20 16 && fld v 20 16 ≤ 20 then fld v 20 16 else r.maxLog } else r
    { r with
      irqCount := if lo && fld v 31 24 ≠ 0 then fld v 31 24 else r.irqCount
      irqDelay := if hi then fld v 39 32 else r.irqDelay })
  if !lo then s else if bit v 0 then ringEnable s n else ringDisable s n

/-- RET_ registers. -/
def writeRet (s : State) (a v : Nat) (lo hi : Bool) : State :=
  if 0x02_1000 ≤ a ∧ a < 0x02_2000 then
    let n := (a - 0x02_1000) / 0x40
    match a % 0x40 with
    | 0x00 => modRg s n (fun r => if r.enable then r else { r with base := halfMix r.base v lo hi / 4096 * 4096 })
    | 0x08 => writeCfg s n v lo hi
    | 0x10 => if lo then headArrives s n (fld v 25 0) else s
    | 0x28 => modRg s n (fun r => if r.enable then r else { r with shadow := halfMix r.shadow v lo hi / 8 * 8 })
    | _ => s
  else s

/-- INT_ registers. -/
def writeInt (s : State) (a v : Nat) (lo hi : Bool) : State :=
  match a with
  | 0x03_0008 => clearSources s (BitVec.ofNat 64 (halfMix 0 v lo hi)) 0
  | 0x03_0010 => updateIrq { s with ints := { s.ints with ringMask := BitVec.ofNat 64 (halfMix s.ints.ringMask.toNat v lo hi) } }
  | 0x03_0018 => if lo then clearSources s 0 (BitVec.ofNat 10 v) else s
  | 0x03_0020 => if lo then updateIrq { s with ints := { s.ints with causeMask := BitVec.ofNat 10 v } } else s
  | 0x03_0028 =>
    if !lo then s
    else
      let src := if fld v 6 0 ≤ 64 then fld v 6 0 else s.ints.testSource
      let s : State := { s with ints := { s.ints with testSource := src } }
      if bit v 8 then testFire s src else s
  | 0x03_0030 => if lo then { s with ints := { s.ints with wake := s.ints.wake &&& ~~~(BitVec.ofNat 3 v) } } else s
  | _ => s

/-- VOL_ registers. -/
def writeVol (s : State) (a v : Nat) (lo : Bool) : State :=
  match a with
  | 0x06_0018 => if lo && bit v 0 then { s with plans := { s.plans with flush := true } } else s
  | 0x06_0020 => if lo then { s with plans := { s.plans with gfA := BitVec.ofNat 16 (fld v 15 0), gfB := BitVec.ofNat 16 (fld v 31 16) } } else s
  | _ => s

/-- A Warn limit (R11, R411): a reserved value keeps the old one. -/
def setWarn (s : State) (i w : Nat) : State :=
  let ok := if i < 16 then 60 ≤ w && w ≤ 95 else 50 ≤ w && w ≤ 85
  if ok then { s with sensors := { s.sensors with units := tmod {} s.sensors.units i (fun x => { x with warn := w }) } } else s

/-- SNS_ registers. -/
def writeSns (s : State) (a v : Nat) (lo : Bool) : State :=
  if !lo then s
  else if 0x0A_0100 ≤ a ∧ a < 0x0A_0180 then setWarn s ((a - 0x0A_0100) / 8) (fld v 23 16)
  else if 0x0A_0180 ≤ a ∧ a < 0x0A_0190 then setWarn s (16 + (a - 0x0A_0180) / 8) (fld v 23 16)
  else s

/-- DBK_ registers, with the cursor that the requester has (R416). -/
def writeDbk (s : State) (smbus : Bool) (a v : Nat) (lo hi : Bool) : State :=
  match a with
  | 0x0B_0018 => if lo && bit v 16 then ackAlerts s else s
  | 0x0B_0030 =>
    let old := if smbus then s.smbus.cursor else s.daybook.cursor
    setCursor s smbus (BitVec.ofNat 64 (halfMix old.toNat v lo hi))
  | _ => s

/-- CUR_CHn_CTRL of a channel that the host owns: NEXT and PRIORITY, then the shadow copy, then START (R431, R441). -/
def writeChanCtl (s : State) (n v : Nat) : State :=
  let s := modChan s n (fun c => { c with next := if c.state = 0 then fld v 3 2 else c.next, prio := fld v 5 4 })
  let s := if bit v 1 then shadowArm s n else s
  if bit v 0 then courierStart s n else s

/-- One register of a channel: its control word, an active slot, a shadow slot. -/
def writeChan (s : State) (n o v : Nat) (lo hi : Bool) : State :=
  let a := 0x0C_1000 + 0x200 * n + o
  let w := BitVec.ofNat 64 (halfMix (regCur s a) v lo hi)
  if o = 0x00 then (if lo then writeChanCtl s n v else s)
  else if 0x40 ≤ o ∧ o < 0xA0 then slotWrite s n ((o - 0x40) / 0x18) ((o - 0x40) % 0x18 / 8) w
  else if 0xC0 ≤ o ∧ o < 0x120 then shadowWrite s n ((o - 0xC0) / 0x18) ((o - 0xC0) % 0x18 / 8) w
  else s

/-- CUR_ registers (R442): outside maintenance mode, and on channels 0 to 11, writes have no effect. -/
def writeCur (s : State) (a v : Nat) (lo hi : Bool) : State :=
  if a = 0x0C_0008 then
    if lo && fld v 15 0 = 0x4D54 then
      let s : State := if bit v 16 then { s with courier := { s.courier with enterPending := !s.courier.maint } } else s
      if bit v 17 then { s with courier := { s.courier with exitPending := s.courier.maint, enterPending := false } } else s
    else s
  else if 0x0C_1000 ≤ a ∧ a < 0x0C_3000 then
    let n := (a - 0x0C_1000) / 0x200
    if hostOwned s n then writeChan s n (a % 0x200) v lo hi else s
  else s

/-- MAP_ registers (R448). -/
def writeMap (s : State) (a v : Nat) (lo hi : Bool) : State :=
  match a with
  | 0x0D_0020 => { s with map := { s.map with invalAddr := fld (halfMix s.map.invalAddr v lo hi) 38 8 * 256 } }
  | 0x0D_0028 =>
    if !lo then s
    else
      let s : State := { s with map := { s.map with invalAll := bit v 1 } }
      if bit v 0 then (if bit v 1 then invalidateAll s else invalidateLine s s.map.invalAddr) else s
  | _ => s

/-- CHR_FUSE_CTRL: OP 3 is reserved (R11); GO while BUSY has no effect. -/
def writeFuseCtl (s : State) (v : Nat) : State :=
  let op := if fld v 1 0 = 3 then s.fuses.op else fld v 1 0
  let s : State := { s with fuses := { s.fuses with op, entry := fld v 3 2, arm := fld v 23 8 } }
  if bit v 24 then startFuse s op true else s

/-- CHR_ registers (R19, R426). -/
def writeChr (s : State) (a v : Nat) (lo hi : Bool) : State :=
  match a with
  | 0x0F_0100 =>
    if !lo then s
    else
      let op := if 3 < fld v 2 0 then s.flash.op else fld v 2 0
      let s : State := { s with flash := { s.flash with op } }
      if bit v 8 then startFlash s op true else s
  | 0x0F_0108 => if lo then { s with flash := { s.flash with addr := fld v 25 0 } } else s
  | 0x0F_0200 => if lo then writeFuseCtl s v else s
  | _ =>
    if 0x0F_0210 ≤ a ∧ a ≤ 0x0F_0238 then
      let o := a - 0x0F_0210
      let w := natLe 8 (halfMix (hex8 s.fuses.digest (o / 8)) v lo hi)
      { s with fuses := { s.fuses with digest := s.fuses.digest.take o ++ w ++ s.fuses.digest.drop (o + 8) } }
    else if 0x0F_1000 ≤ a ∧ a < 0x0F_2000 then
      if s.flash.busy then s
      else
        let o := a - 0x0F_1000
        { s with flash := { s.flash with buf := Memory.writeN 0 s.flash.buf o (natLe 8 (halfMix (leNat (Memory.readN 0 s.flash.buf o 8)) v lo hi)) } }
    else s

/-- The register at an aligned address takes the halves written. -/
def regWrite (s : State) (a v : Nat) (lo hi : Bool) : State :=
  if !answers s a then s
  else match a / 0x1_0000 with
    | 0x01 => writeWkt s a v lo hi
    | 0x02 => writeRet s a v lo hi
    | 0x03 => writeInt s a v lo hi
    | 0x06 => writeVol s a v lo
    | 0x0A => writeSns s a v lo
    | 0x0B => writeDbk s false a v lo hi
    | 0x0C => writeCur s a v lo hi
    | 0x0D => writeMap s a v lo hi
    | 0x0F => writeChr s a v lo hi
    | _ => s

/-- The number that enabled lanes spell, when every lane is enabled. -/
def lanesNat (data : Lanes) : Option Nat := if data.all Option.isSome then some (leNat (data.filterMap id)) else none

/-- A host write (R12, R13): one 64-bit access, or a held low half and then the high half; any other write has no effect, an aligned one wider than 64 bits included (DESIGN CHOICE, log entry 37). -/
def regStore (s : State) (a : Nat) (data : Lanes) : State :=
  let base := a / 8 * 8
  match lanesNat data with
  | none => s
  | some v =>
    if data.length = 8 && a % 8 = 0 then regWrite { s with heldLow := tdel s.heldLow base } base v true true
    else if data.length = 4 && a % 8 = 0 then { s with heldLow := tset s.heldLow base v }
    else if data.length = 4 && a % 8 = 4 then
      match s.heldLow.find? (fun e => e.1 = base) with
      | some e => regWrite { s with heldLow := tdel s.heldLow base } base (e.2 + 2 ^ 32 * v) true true
      | none => regWrite s base (2 ^ 32 * v) false true
    else s

/-- REGISTER_WRITE (R9–R13). -/
def execRegisterWrite (addr : Nat) (data : Lanes) (s : State) : Host.Outcome State Fault Refusal :=
  .next (if windowOpen s && addr + data.length ≤ 0x20_0000 then { regStore s addr data with rsp := .done } else { s with rsp := .unsupported })

end Sys2Proof.Machine
end

