-- ==== Sys2Proof/Machine/HostAccess.lean ====
section
/-! DEFINITION. Requests of the host: configuration space (09 R230–R234, R239, R254), the three windows (R235–R238), and reads that wait for commits (03 R57). Offsets inside the standard capabilities are those of the PCI Express Base Specification 6.0 (log entry 9). -/

namespace Sys2Proof.Machine

/-! ### Configuration space (R230–R232) -/

/-- Bytes of the wicket window; none in Recovery entered at step 3 (R37, R235). -/
def wicketWindow (s : State) : Nat := if s.chip.recoveryAt3 then 0 else wicketCount s * 32768

/-- An extended capability header: its identifier and the offset of the next. -/
def extCap (id next : Nat) : Nat := pack [(0, 16, id), (16, 4, 1), (20, 12, next)]

/-- The Type 0 header. -/
def cfgHeader (s : State) (off : Nat) : Nat :=
  let c := s.cfg
  match off with
  | 0x00 => pack [(0, 16, Config.vendorId.toNat), (16, 16, 0x2048)]
  | 0x04 => pack [(1, 1, b1 c.memSpace), (2, 1, b1 c.busMaster), (10, 1, b1 c.intxDisable), (19, 1, b1 (!(activeSources s.ints).isEmpty)), (20, 1, 1)]
  | 0x08 => pack [(0, 8, Config.stepping.toNat), (8, 24, 0x01_0400)]
  | 0x10 => if wicketWindow s = 0 then 0 else pack [(0, 4, 0xC), (4, 28, c.bar0 / 16)]
  | 0x14 => fld c.bar0 63 32
  | 0x18 => pack [(0, 4, 4), (4, 28, c.bar2 / 16)]
  | 0x1C => fld c.bar2 63 32
  | 0x20 => if s.chip.recoveryAt3 then 0 else pack [(0, 4, 4), (4, 28, c.bar4 / 16)]
  | 0x24 => fld c.bar4 63 32
  | 0x2C => if s.chip.recoveryAt3 then 0 else pack [(0, 16, s.ch (·.subVendor) 0), (16, 16, s.ch (·.subId) 0)]
  | 0x34 => 0x40
  | 0x3C => pack [(0, 8, c.intLine), (8, 8, 1)]
  | _ => 0

/-- The capabilities of the first 256 bytes. -/
def cfgCaps (s : State) (off : Nat) : Nat :=
  let c := s.cfg
  match off with
  | 0x40 => pack [(0, 8, 0x01), (8, 8, 0x50), (16, 16, 0x4803)]
  | 0x44 => pack [(0, 2, c.powerState), (3, 1, 1), (8, 1, b1 c.pmeEn), (15, 1, b1 c.pmeStatus)]
  | 0x50 => pack [(0, 8, 0x05), (8, 8, 0x70), (16, 1, b1 c.msiEnable), (17, 3, 5), (20, 3, c.mme), (23, 1, 1), (24, 1, 1)]
  | 0x54 => fld c.msiAddr 31 0
  | 0x58 => fld c.msiAddr 63 32
  | 0x5C => fld c.msiData 15 0
  | 0x60 => c.msiMask.toNat
  | 0x64 => maskOf s.ints.msiPending
  | 0x70 => pack [(0, 8, 0x10), (8, 8, 0xB0), (16, 4, 2)]
  | 0x74 => pack [(0, 3, s.ch (·.payload) 1), (5, 1, 1), (15, 1, 1), (28, 1, 1)]
  | 0x78 => pack [(4, 1, b1 c.relaxed), (5, 3, c.mps), (8, 1, b1 c.extTag), (12, 3, c.mrrs)]
  | 0x7C => pack [(0, 4, linkRate s), (4, 6, linkWidth s), (10, 2, s.ch (·.linkFlags) 0 % 4), (12, 3, 4), (15, 3, 4)]
  | 0x80 => pack [(0, 2, c.aspm), (16, 4, s.link.rate), (20, 6, s.link.width)]
  | 0x94 => pack [(11, 1, 1), (16, 1, 1), (17, 1, 1)]
  | 0x98 => pack [(10, 1, b1 c.ltrEnable), (12, 1, b1 c.tag10)]
  | 0x9C => pack [(1, 7, 2 ^ linkRate s - 1)]
  | 0xB0 => pack [(0, 8, 0x11), (8, 8, 0), (16, 11, 64), (30, 1, b1 c.functionMask), (31, 1, b1 c.msixEnable)]
  | 0xB4 => 4
  | 0xB8 => 0x8004
  | _ => 0

/-- The extended capabilities. -/
def cfgExt (s : State) (off : Nat) : Nat :=
  match off with
  | 0x100 => extCap 0x0001 0x148
  | 0x148 => extCap 0x0003 0x158
  | 0x14C => fld s.fuses.serial 31 0
  | 0x150 => fld s.fuses.serial 63 32
  | 0x158 => extCap 0x0019 0x178
  | 0x178 => extCap 0x0025 0x184
  | 0x184 => extCap 0x0026 0x1B0
  | 0x1B0 => extCap 0x002A 0x1E0
  | 0x1E0 => extCap 0x0031 0x200
  | 0x200 => extCap 0x0027 0x240
  | 0x240 => extCap 0x001E 0x250
  | 0x244 => if bit (s.ch (·.linkFlags) 0) 2 then 0x1F else 0
  | 0x248 => s.cfg.l1ss
  | 0x250 => extCap 0x0018 0x258
  | 0x258 => extCap 0x002F 0x268
  | 0x25C => pack [(1, 1, 1), (2, 1, 1)]
  | 0x260 => pack [(2, 1, b1 s.cfg.tag14)]
  | 0x268 => extCap 0x0032 0
  | _ => 0

/-- The double-word of configuration space at an aligned offset. -/
def cfgRead (s : State) (off : Nat) : Nat := if off < 0x40 then cfgHeader s off else if off < 0x100 then cfgCaps s off else cfgExt s off

/-- A write of the Command register (R237, R239, R248, R250). -/
def writeCommand (s : State) (v : Nat) : State :=
  let s : State := { s with cfg := { s.cfg with memSpace := bit v 1, intxDisable := bit v 10 } }
  updateIrq (if bit v 2 then masterSet s else masterClear s)

/-- A write of PMCSR (R254–R256); D1 and D2 are not supported and are ignored. -/
def writePmcsr (s : State) (v : Nat) : State :=
  let s : State := { s with cfg := { s.cfg with pmeEn := bit v 8 } }
  let s : State := if bit v 15 then { s with cfg := { s.cfg with pmeStatus := false }, ints := { s.ints with wakeLow := false } } else s
  if fld v 1 0 = 3 then d3hot s else if fld v 1 0 = 0 then toD0 s else s

/-- A write of Device Control (R233, R245). -/
def writeDevCtl (s : State) (v : Nat) : State :=
  let s : State := { s with cfg := { s.cfg with
    relaxed := bit v 4, extTag := bit v 8
    mps := if fld v 7 5 ≤ s.ch (·.payload) 1 then fld v 7 5 else s.cfg.mps
    mrrs := if fld v 14 12 ≤ 5 then fld v 14 12 else s.cfg.mrrs } }
  if bit v 15 then startReset s 2 else s

/-- A base address register takes the bits above its window's size. -/
def barLow (old v size : Nat) : Nat := old / 2 ^ 32 * 2 ^ 32 + (if size = 0 then 0 else v % 2 ^ 32 / size * size)
def barHigh (old v : Nat) : Nat := old % 2 ^ 32 + v % 2 ^ 32 * 2 ^ 32

/-- A write of the double-word at an aligned offset. -/
def cfgWrite (s : State) (off v : Nat) : State :=
  let c := s.cfg
  let at3 := s.chip.recoveryAt3
  match off with
  | 0x04 => writeCommand s v
  | 0x10 => { s with cfg := { c with bar0 := barLow c.bar0 v (wicketWindow s) } }
  | 0x14 => if at3 then s else { s with cfg := { c with bar0 := barHigh c.bar0 v } }
  | 0x18 => { s with cfg := { c with bar2 := barLow c.bar2 v 0x20_0000 } }
  | 0x1C => { s with cfg := { c with bar2 := barHigh c.bar2 v } }
  | 0x20 => { s with cfg := { c with bar4 := barLow c.bar4 v (if at3 then 0 else 0x1_0000) } }
  | 0x24 => if at3 then s else { s with cfg := { c with bar4 := barHigh c.bar4 v } }
  | 0x3C => { s with cfg := { c with intLine := v % 256 } }
  | 0x44 => writePmcsr s v
  | 0x50 => if at3 then s else updateIrq { s with cfg := { c with msiEnable := bit v 16, mme := min 5 (fld v 22 20) } }
  | 0x54 => { s with cfg := { c with msiAddr := barHigh 0 (fld c.msiAddr 63 32) + fld v 31 2 * 4 } }
  | 0x58 => { s with cfg := { c with msiAddr := barHigh c.msiAddr v } }
  | 0x5C => { s with cfg := { c with msiData := fld v 15 0 } }
  | 0x60 => updateIrq { s with cfg := { c with msiMask := BitVec.ofNat 32 v } }
  | 0x78 => writeDevCtl s v
  | 0x80 => { s with cfg := { c with aspm := fld v 1 0 } }
  | 0x98 => sendLtr { s with cfg := { c with ltrEnable := bit v 10, tag10 := bit v 12 } }
  | 0xB0 => if at3 then s else updateIrq { s with cfg := { c with functionMask := bit v 30, msixEnable := bit v 31 } }
  | 0x248 => if bit (s.ch (·.linkFlags) 0) 2 then { s with cfg := { c with l1ss := fld v 3 0 } } else s
  | 0x260 => { s with cfg := { c with tag14 := bit v 2 } }
  | _ => s

/-- CONFIG_ACCESS (R230–R232, R245): Retry Status while a reset is under way. -/
def configAccess (s : State) (off : Nat) (write : Option Nat) : State :=
  if !alive s || !s.link.up then s
  else if s.resets.kind ≠ 0 then { s with rsp := .retry }
  else
    let s : State := { s with link := { s.link with aspm := 0 } }
    let base := off / 4 * 4 % 4096
    match write with
    | none => { s with rsp := .data (natLe 4 (cfgRead s base)), cfg := { s.cfg with read := true } }
    | some v => { cfgWrite s base v with rsp := .done }

def execConfigAccess (off : Nat) (write : Option Nat) (s : State) : Host.Outcome State Fault Refusal :=
  .next (configAccess s off write)

/-! ### The windows (R235–R238) -/

/-- Bytes of a window. -/
def windowSize (s : State) (w : Window) : Nat :=
  match w with
  | .wicket => wicketWindow s
  | .control => 0x20_0000
  | .vector => if s.chip.recoveryAt3 then 0 else 0x1_0000

/-- One byte of the vector window (R238). -/
def vectorByte (s : State) (off : Nat) : Byte :=
  if off < 1040 then
    let e := tget {} s.ints.table (off / 16)
    (natLe 8 e.addr ++ natLe 4 e.data ++ natLe 4 (b1 e.mask)).getD (off % 16) 0
  else if 0x8000 ≤ off && off < 0x8010 then (natLe 16 (maskOf s.ints.pba)).getD (off - 0x8000) 0
  else 0

/-- One double-word of the MSI-X table. -/
def vectorDword (s : State) (off v : Nat) : State :=
  if off < 1040 then
    { s with ints := { s.ints with table := tmod {} s.ints.table (off / 16) (fun e =>
      match off % 16 / 4 with
      | 0 => { e with addr := e.addr / 2 ^ 32 * 2 ^ 32 + v / 4 * 4 }
      | 1 => { e with addr := e.addr % 2 ^ 32 + v * 2 ^ 32 }
      | 2 => { e with data := v }
      | _ => { e with mask := bit v 0 }) } }
  else s

/-- A write to the vector window: aligned 32-bit or 64-bit (R238). -/
def vectorWrite (s : State) (off : Nat) (data : Lanes) : State :=
  match lanesNat data with
  | none => s
  | some v =>
    if data.length = 4 && off % 4 = 0 then updateIrq (vectorDword s off v)
    else if data.length = 8 && off % 8 = 0 then updateIrq (vectorDword (vectorDword s off (v % 2 ^ 32)) (off + 4) (v / 2 ^ 32))
    else s

/-- Commits that wait to be taken hold back a read of the control window (R57). -/
def commitsWait (s : State) : Bool := s.wickets.table.any (fun e => !e.2.waitingCommits.isEmpty)

/-- A read of the control window. -/
def controlRead (s : State) (off len : Nat) : State :=
  if commitsWait s then { s with wickets := { s.wickets with deferred := s.wickets.deferred ++ [(off, len)] }, rsp := .none }
  else { (regAccess s off len).1 with rsp := .data (regAccess s off len).2 }

/-- REGISTER_READ_CLEAR (R9, R13, R57): a read with its side effects, behind the commits that wait. -/
def execRegisterReadClear (addr size : Nat) (s : State) : Host.Outcome State Fault Refusal :=
  .next (if windowOpen s && addr + size ≤ 0x20_0000 && size ≤ 8 then controlRead s addr size else { s with rsp := .unsupported })

/-- Reads that waited are served once no commit waits. -/
def serveDeferred (s : State) : State :=
  if commitsWait s then s
  else s.wickets.deferred.foldl (fun s r => controlRead s r.1 r.2) { s with wickets := { s.wickets with deferred := [] } }

/-- A write to the wicket window, which may cross from one wicket into the next (R259). -/
def windowWicket (s : State) (off : Nat) (data : Lanes) : State :=
  let room := 32768 - off % 32768
  let s := wicketWrite s (off / 32768) (off % 32768) (data.take room)
  if room < data.length then wicketWrite s (off / 32768 + 1) 0 (data.drop room) else s

/-- MEMORY_REQUEST (R37, R237, R238). -/
def memoryRequest (s : State) (m : MemReq) : State :=
  if !windowOpen s then { s with rsp := .unsupported }
  else
    let s : State := { s with link := { s.link with aspm := 0 } }
    match m with
    | .rd w off len =>
      if windowSize s w < off + len then { s with rsp := .unsupported }
      else match w with
        | .control => controlRead s off len
        | .wicket => { s with rsp := .data (if inRecovery s then zeros len else (List.range len).map (fun i => wicketByte s ((off + i) / 32768) ((off + i) % 32768))) }
        | .vector => { s with rsp := .data (if inRecovery s then zeros len else (List.range len).map (fun i => vectorByte s (off + i))) }
    | .wr w off data =>
      if windowSize s w < off + data.length then { s with rsp := .unsupported }
      else
        let s : State := { s with rsp := .done }
        match w with
        | .control => regStore s off data
        | .wicket => if inRecovery s then s else windowWicket s off data
        | .vector => if inRecovery s then s else vectorWrite s off data

def execMemoryRequest (m : MemReq) (s : State) : Host.Outcome State Fault Refusal :=
  .next (memoryRequest s m)

end Sys2Proof.Machine
end

