-- ==== Sys2Proof/Machine/Plans.lean ====
section
/-! DEFINITION. Plan cache commands (04 R82, R83). -/

namespace Sys2Proof.Machine

/-- The chunks of a pattern in the order in which a plan names them. -/
def patternKey (s : State) (layout : Nat) (erased : List ChunkId) : List ChunkId :=
  match layoutOf s layout with
  | some l => l.chunks.filter erased.contains
  | none => erased

/-- A user of a plan goes on: the postings of a work, or a reader's decode. -/
def planGo (s : State) (tag : Nat) : State := if tagIsCmd tag || tagIsJob tag then needMoved s tag else needMoved (tryPostings s (tagId tag)) tag

/-- A plan build ends: those who wait for it go on. -/
def planReady (s : State) (layout : Nat) (erased : List ChunkId) : State :=
  match findPlan s layout erased with
  | none => s
  | some p => if p.ready then s else p.users.foldl planGo (modPlan s layout erased (fun p => { p with ready := true }))

/-- PLAN_READY (R82). -/
def execPlanReady (layout : Nat) (erased : List ChunkId) (s : State) : Host.Outcome State Fault Refusal :=
  .next (planReady s layout (patternKey s layout erased))

/-- PLAN_FLUSH (R83): VOL_PLAN_CTRL.FLUSH is registered; it acts at the next boundary. -/
def execPlanFlush (s : State) : Host.Outcome State Fault Refusal :=
  .next (if writesTaken s then { s with plans := { s.plans with flush := true } } else s)

/-- Every plan that is not pinned is discarded (R83). -/
def flushBoundary (s : State) : State :=
  if s.plans.flush then { s with plans := { s.plans with flush := false, cache := s.plans.cache.filter Plan.pinned } } else s

/-- A need is decoded with this plan. -/
def Need.uses (n : Need) (layout : Nat) (erased : List ChunkId) : Bool := n.layout = layout && n.erased = erased && !n.direct

/-- A user's postings still need a plan, or its reads that are not decoded yet do. -/
def stillUses (s : State) (layout : Nat) (erased : List ChunkId) (tag : Nat) : Bool :=
  (needsOf s tag).any (fun n => n.uses layout erased) ||
    (!tagIsCmd tag && !tagIsJob tag && (findWork s (tagId tag)).any (fun w => w.step = 3 && w.held && w.layout = layout && w.patterns.contains erased))

/-- The user that waits longest is served. -/
def serveWaiting (s : State) : State :=
  match s.plans.waiting with
  | [] => s
  | (tag, layout, erased) :: r => planGo (requestPlan { s with plans := { s.plans with waiting := r } } tag layout erased) tag

/-- PLAN_UNPIN (R82): a plan stays pinned for each user whose postings still use it; when the last one goes, a waiting user is served. -/
def planUnpin (s : State) (layout : Nat) (erased : List ChunkId) : State :=
  match findPlan s layout erased with
  | none => s
  | some p =>
    let left := p.users.filter (stillUses s layout erased)
    let s := modPlan s layout erased (fun p => { p with users := left })
    if p.pinned && left.isEmpty then serveWaiting s else s

def execPlanUnpin (layout : Nat) (erased : List ChunkId) (s : State) : Host.Outcome State Fault Refusal :=
  .next (planUnpin s layout (patternKey s layout erased))

end Sys2Proof.Machine
end

