-- ==== Sys2Proof/Machine/Smbus.lean ====
section
/-! DEFINITION. SMBus and MCTP (15 R413–R417). -/

namespace Sys2Proof.Machine

/-- A transaction that is acted on, or one that is forbidden (R415, SNS_SMBUS). -/
def smbusDone (s : State) : State := { s with smbus := { s.smbus with result := 0, requests := inc 0xFFFF s.smbus.requests } }
def smbusForbidden (s : State) : State := { s with smbus := { s.smbus with result := 1, forbidden := inc 0xFFFF s.smbus.forbidden } }

/-- SMBUS_SET_ADDRESS (R415 code 0x01). -/
def execSmbusSetAddress (addr : Nat) (s : State) : Host.Outcome State Fault Refusal :=
  .next (if powered s then smbusDone { s with smbus := { s.smbus with addr := addr % 2 ^ 32 } } else s)

/-- Blocks that SMBus may read: GEN_, SNS_, DBK_ and CHR_. -/
def smbusReads (a : Nat) : Bool := [0x00, 0x0A, 0x0B, 0x0F].contains (a / 0x1_0000)

/-- Registers that SMBus may write. -/
def smbusWrites (a : Nat) : Bool := (0x0A_0100 ≤ a && a < 0x0A_0190) || a = 0x0B_0018 || a = 0x0B_0030

/-- The aligned 8 bytes that contain an address, with the SMBus cursor; RC fields are cleared (R415, R416). -/
def smbusReadAt (s : State) (addr : Nat) : State × List Byte :=
  let a := addr / 8 * 8
  if smbusReads a then
    let v := if a / 0x1_0000 = 0x0B then regDbk s s.smbus.cursor a else regRead s a
    (smbusDone (readClear s a true true), natLe 8 v)
  else (smbusForbidden s, zeros 8)

/-- The aligned 8 bytes at an address written. -/
def smbusWriteAt (s : State) (addr v : Nat) : State :=
  let a := addr / 8 * 8
  if smbusWrites a then smbusDone (if a / 0x1_0000 = 0x0A then writeSns s a v true else writeDbk s true a v true true) else smbusForbidden s

/-- SMBUS_READ (R415 code 0x02). -/
def execSmbusRead (s : State) : Host.Outcome State Fault Refusal :=
  .next (if powered s then { (smbusReadAt s s.smbus.addr).1 with smbRsp := .data (smbusReadAt s s.smbus.addr).2 } else s)

/-- SMBUS_WRITE (R415 code 0x03). -/
def execSmbusWrite (value : BitVec 64) (s : State) : Host.Outcome State Fault Refusal :=
  .next (if powered s then smbusWriteAt s s.smbus.addr value.toNat else s)

/-- SMBUS_RESULT (R415 code 0x0F). -/
def execSmbusResult (s : State) : Host.Outcome State Fault Refusal :=
  .next (if powered s then { s with smbus := { s.smbus with requests := inc 0xFFFF s.smbus.requests }, smbRsp := .data [byteOf s.smbus.result] } else s)

/-- SMBUS_PEC_ERROR (R414). -/
def execSmbusPecError (s : State) : Host.Outcome State Fault Refusal :=
  .next (if powered s then { s with smbus := { s.smbus with pec := inc 0xFFFF s.smbus.pec } } else s)

/-- ALERT_RESPONSE (R413): the part answers with its own address while ALERT# is low. -/
def execAlertResponse (s : State) : Host.Outcome State Fault Refusal :=
  .next (if powered s then { s with smbRsp := if alertLow s then .data [byteOf s.chip.smbAddr] else .none } else s)

/-- The answer to a base control message (R417); the version numbers are free (log entry 10). -/
def mctpControl (s : State) (m : MctpControl) : State :=
  match m with
  | .setEid eid =>
    if eid = 0 || 255 ≤ eid then { s with smbRsp := .data [2] }
    else { s with smbus := { s.smbus with eid }, smbRsp := .data [0, 0, byteOf eid, 0] }
  | .getEid => { s with smbRsp := .data [0, byteOf s.smbus.eid, 0, 0] }
  | .getVersion =>
    let (s, v) := takeFree s
    { s with smbRsp := .data ([0, 1] ++ natLe 4 v.toNat) }
  | .getTypes => { s with smbRsp := .data [0, 1, 0x7E] }

/-- MCTP_CONTROL_MESSAGE (R417). -/
def execMctpControlMessage (m : MctpControl) (s : State) : Host.Outcome State Fault Refusal :=
  .next (if powered s then mctpControl s m else s)

/-- MCTP_VENDOR_READ (R417): the result byte, then the 8 bytes read. -/
def execMctpVendorRead (addr : Nat) (s : State) : Host.Outcome State Fault Refusal :=
  .next (if powered s then
    let r := smbusReadAt s addr
    { r.1 with smbRsp := .data (byteOf r.1.smbus.result :: r.2) } else s)

/-- MCTP_VENDOR_WRITE (R417). -/
def execMctpVendorWrite (addr : Nat) (value : BitVec 64) (s : State) : Host.Outcome State Fault Refusal :=
  .next (if powered s then
    let t := smbusWriteAt s addr value.toNat
    { t with smbRsp := .data [byteOf t.smbus.result] } else s)

end Sys2Proof.Machine
end

