-- ==== Sys2Proof/Machine/Recovery.lean ====
section
/-! DEFINITION. Replay: the records that a start-up or a takeover keeps are taken up again (03 R66, R68, R69, 05 R124, R125). -/

namespace Sys2Proof.Machine

/-- The band that a band-change record carries (R92, R99). -/
def bandOf (r : Rec) : Band :=
  let b := Memory.bytes r.body 64
  ⟨r.volume, r.lba, le b 0 1, le b 8 8, BitVec.ofNat 256 (le b 32 32), r.blocks = 1, none⟩

/-- The reshape slots after a volume's switch. -/
def switched (s : State) (v : Nat) : List Reshape :=
  modIf (fun x => x.volume = v && 2 ≤ x.state && x.state ≤ 4) (fun x => { x with state := 5, switchAt := s.now, switchCycle := s.mgmt.powerCycles, lastChange := s.now }) s.reshapes.slots

/-- The volume map with one band-change record applied; a record marked 2 swaps the tables of its volume (R189). -/
def applyBandRec (s : State) (r : Rec) : State :=
  if r.blocks = 2 then
    -- the slot is Draining from the switch on (R189)
    { s with
      reshapes := { s.reshapes with slots := switched s r.volume }
      bands := s.bands.map (fun b => if b.volume = r.volume then { b with target := !b.target } else b)
      vols := tmod {} s.vols r.volume (fun x => { x with layout := le (Memory.bytes r.body 64) 0 1 }) }
  else { s with bands := applyBand s.bands (bandOf r) }

/-- The open-items map with one map record applied (R118, R119). -/
def applyMapRec (s : State) (r : Rec) : State :=
  let b := Memory.bytes r.body 8
  let s := assignRegions s r.volume [le b 0 6]
  modRegion s r.volume (le b 0 6) (fun x => { x with set := le b 6 2 % 2 = 1 })

/-- Regions of every band are assigned, and those of the newest checkpoint are covered (R116, R117). -/
def coverRegions (s : State) : State :=
  let s := s.bands.foldl (fun s b => match volDef s b.volume, layoutOf s b.layout with
    | some d, some l => assignRegions s b.volume (bandRegions s l d b.band)
    | _, _ => s) s
  let listed := ((s.registry.ckpt.map (·.entries)).getD [])
  { s with ledger := { s.ledger with
      newest := s.registry.ckpt
      regions := s.ledger.regions.map (fun r => { r with covered := listed.contains (r.volume, r.region), awaiting := false, busy := false }) } }

/-- A kept record under its new number and rank, Replayed. -/
def renumber (s : State) (r : Rec) : State :=
  let seq := s.ledger.nextSeq
  let r' : Rec := { r with seq, rank := s.ledger.rank, replayed := true, superseded := false, state := .countersigned, rows := [] }
  { s with
    ledger := { s.ledger with recs := s.ledger.recs ++ [r'], nextSeq := seq + 1, rank := s.ledger.rank + 1 }
    vaults := { s.vaults with effects := modIf (fun e => e.1 = r.seq && !s.ledger.recs.any (fun q => q.seq = e.1)) (fun e => (seq, goneTag, e.2.2)) s.vaults.effects } }

/-- Target tables of reshapes whose record no majority held are given back (R193). -/
def dropOrphans (s : State) : State :=
  { s with bands := s.bands.filter (fun b => !b.target || s.reshapes.slots.any (fun r => r.state ≠ 0 && r.volume = b.volume)) }

/-- One record is taken up: renumbered, its band or map change applied, and landed when it has landed already. -/
def adoptOne (s : State) (r : Rec) (lands : Bool) : State :=
  let seq := s.ledger.nextSeq
  let s := renumber s r
  let s := if r.kind = 4 then applyBandRec s r else if r.kind = 3 then applyMapRec s r else s
  if lands then vaultLand (landRec s seq) seq else s

/-- Whole records in replay order are taken up after the volume map was read from the registry. -/
def adopt (s : State) (rs : List Rec) (lands : Rec → Bool) : State :=
  let s : State := { s with bands := s.registry.bands }
  let s := rs.foldl (fun s r => adoptOne s r (lands r)) s
  coverRegions (dropOrphans s)

/-- The order of replay. -/
def replayOrder (rs : List Rec) : List Rec := rs.mergeSort (fun a b => !recLt b a)

/-- A reshape goes on from the region in its record, its rows copied again; requests of the old power cycle are gone (R188). -/
def resumeSlot (r : Reshape) : Reshape :=
  { r with row := 0, regionDone := false, started := r.started.filter (· < r.region), reqs := [], tag := none }

/-- What the registry holds of passes, retirements, reshapes and layouts in use (R137, R150, R188). -/
def takeCursors (s : State) : State :=
  let ups := s.registry.updates
  let slots := if s.registry.reshapes.isEmpty then s.reshapes.slots else s.registry.reshapes.map resumeSlot
  let goal := fun (v : Nat) => (slots.find? (fun r => 2 ≤ r.state && r.state ≤ 5 && r.volume = v)).map (·.target)
  { s with
    degrade := { s.degrade with
      passes := if s.registry.passes.isEmpty then s.degrade.passes else s.registry.passes
      updates := ups ++ s.degrade.updates.filter (fun u => !ups.any (fun x => x.layout = u.layout && x.pool = u.pool && x.member = u.member)) }
    reshapes := { s.reshapes with slots }
    vols := s.vols.map (fun e => (e.1, { e.2 with layout := tget e.2.layout s.registry.inUse e.1, target := (goal e.1).getD e.2.target })) }

end Sys2Proof.Machine
end

