-- ==== Sys2Proof/Machine/Pair.lean ====
section
/-! DEFINITION. Pairs (14 R385–R401): tallies, witness records, arbitration, takeover, detach, join and audit. -/

namespace Sys2Proof.Machine

/-- The charter names two units (R229). -/
def isPair (s : State) : Bool := s.ch (·.units) 1 = 2

/-- The registry position count, and a strict majority of positions (R33). -/
def registrySize (s : State) : Nat := s.ch (·.registry.length) 0
def mostOf (s : State) (ps : List Nat) : Bool := registrySize s < 2 * (ps.filter (· < registrySize s)).eraseDups.length

/-- The member at a registry position. -/
def registryAt (s : State) (k : Nat) : Option Nat := (registryNow s)[k]?

/-- A command of the unit to every registry member of some positions. -/
def toRegistry (s : State) (ks : List Nat) (op : MemberOp) : State :=
  ks.foldl (fun s k => match registryAt s k with
    | some m => issue s m op 0 0 [] .control
    | none => s) s

/-- The command at a registry position has completed. -/
def dropRegistryCmd (s : State) (k : Nat) (op : MemberOp) : State :=
  match registryAt s k with
  | none => s
  | some m => match s.drives.cmds.find? (fun c => c.member = m && c.op = op) with
    | some c => dropMc s c.id
    | none => s

/-! ### Notices (R46, R104, R113, R381) -/

/-- Confirmations that had no room are sent once room appears (R104, R105). -/
def confirmCopies (s : State) : State :=
  (s.ledger.copies.filter (fun r => r.state = .complete)).foldl (fun s r =>
    if usedBytes s ≤ areaBytes s then
      sendControl { s with ledger := { s.ledger with copies := modIf (fun q => q.seq = r.seq) (fun q => { q with state := .countersigned }) s.ledger.copies } }
        1 (zeros 4 ++ natLe 8 r.seq)
    else { s with ledger := { s.ledger with withheldNow := true } }) s

/-- A Confirm message arrives (R104, R400). -/
def confirmed (s : State) (seq : Nat) : State :=
  let s := modRec s seq (fun r => if r.state = .complete then { r with state := .countersigned } else r)
  if s.pair.mode = 5 && s.pair.role = 1 then { s with pair := { s.pair with joinConfirmed := (s.pair.joinConfirmed ++ [seq]).eraseDups } } else s

/-- CONFIRM (R104, R381). -/
def execConfirm (seq : Nat) (s : State) : Host.Outcome State Fault Refusal :=
  .next (if isPair s then confirmed s seq else s)

/-- A Book held message arrives (R46). -/
def bookIsHeld (s : State) (close : Nat) : State :=
  { s with closers := { s.closers with books := modIf (fun b => b.close = close) (fun b => { b with partnerHeld := true }) s.closers.books } }

/-- BOOK_HELD (R46, R381). -/
def execBookHeld (close : Nat) (s : State) : Host.Outcome State Fault Refusal :=
  .next (bookIsHeld s close)

/-- A Release notice arrives: the copy is released, and room appears (R113). -/
def released (s : State) (seq : Nat) : State :=
  let s : State := { s with
    ledger := { s.ledger with copies := (s.ledger.copies.filter (fun r => r.seq = seq)).foldl (fun rs r => outlive r rs) (s.ledger.copies.filter (fun r => r.seq ≠ seq)) }
    pair := { s.pair with posted := s.pair.posted.filter (fun p => p.2.2 ≠ seq) } }
  confirmCopies s

/-- RELEASE_NOTICE (R113). -/
def execReleaseNotice (seq : Nat) (s : State) : Host.Outcome State Fault Refusal :=
  .next (if isPair s then released s seq else s)

/-- POSTED_NOTICE (R381). -/
def postedArrives (s : State) (tag ring seq : Nat) : State :=
  { s with pair := { s.pair with posted := (s.pair.posted ++ [(tag, ring, seq)]).eraseDups } }

def execPostedNotice (tag ring seq : Nat) (s : State) : Host.Outcome State Fault Refusal :=
  .next (if isPair s then postedArrives s tag ring seq else s)

/-! ### Negotiate and the role at step 8 (R31, R387) -/

/-- The unit's Negotiate message; a unit whose ledger was lost is to join again (R32). To every unit while the partner's address is not known (R381). -/
def sendNegotiate (s : State) : State :=
  let body := natLe 1 s.pair.role ++ natLe 1 (b1 (s.pair.current && !s.chip.ledgerLost)) ++ natLe 2 ((s.pair.witness.map (·.epoch)).getD 0) ++ natLe 8 s.fuses.serial
  let dst := if s.pair.partnerSeen then s.pair.partnerAddr else 0xFF
  { s with chain := { s.chain with ctlQueue := s.chain.ctlQueue ++ [⟨5, s.chain.address.getD 0xFF, dst, padTo 12 body⟩] } }

/-- A Negotiate of the partner arrives; a unit whose role is decided answers it. -/
def negotiateArrives (s : State) (n : NegotiateMsg) : State :=
  if isPair s && n.serial = partnerSerial s then
    let s : State := { s with pair := { s.pair with negotiated := some n, partnerSeen := true } }
    if s.chip.step = 15 then sendNegotiate s else s
  else s

/-- NEGOTIATE (R387). -/
def execNegotiate (n : NegotiateMsg) (s : State) : Host.Outcome State Fault Refusal :=
  .next (negotiateArrives s n)

/-- Step 8 begins in a pair: Negotiate is sent (R387). A Single unit takes role Single and goes on. -/
def toStep (s : State) (n : Nat) : State := { s with chip := { s.chip with step := n, stepClose := s.now } }

def enterStepEight (s : State) : State :=
  if isPair s then
    let own := s.pair.witness.any (fun w => w.owner = s.fuses.serial)
    let cur := s.pair.witness.any (fun w => w.owner = s.fuses.serial || w.owner = partnerSerial s && w.otherCurrent)
    let s := setPair { toStep s 8 with pair := { s.pair with current := cur } } (if own then 1 else 2) 1 false
    sendNegotiate (toRegistry s (List.range (registrySize s)) .register)
  else
    let s := toStep s 9
    { s with pair := { s.pair with role := 0, mode := 0, current := false }, ledger := { s.ledger with mode := 0 } }

/-- A witness record is written to the registry members of some positions (R386). -/
def startRecord (s : State) (ks : List Nat) (other : Bool) (purpose : Nat) : State :=
  let w : Witness := ⟨(s.pair.witness.map (·.epoch)).getD 0 + 1, s.fuses.serial, other, s.now⟩
  toRegistry { s with pair := { s.pair with recordPending := some w, recordAt := [], record := false, recordFor := purpose } } ks .witnessWrite

def allPositions (s : State) : List Nat := List.range (registrySize s)

/-- The partner is present (R387): 16 consecutive tallies on the chain path, and Negotiate exchanged. -/
def partnerPresent (s : State) : Bool := 16 ≤ s.pair.chain.run && s.pair.negotiated.isSome

/-- The unit is Active; it countersigns when its partner is current. -/
def becomeActive (s : State) (partnerCurrent : Bool) : State :=
  setPair { s with
    pair := { s.pair with current := true }
    ledger := { s.ledger with mode := if partnerCurrent then 1 else 3 } } 1 0 false

/-- The unit is Standby; it holds copies. -/
def becomeStandby (s : State) (cur alert : Bool) : State :=
  -- with an Active partner nothing is resynchronised here (R32, R126)
  setPair { s with pair := { s.pair with current := cur }, ledger := { s.ledger with mode := 2, resyncLeft := [], resyncTotal := 0 } } 2 0 alert

/-- The preferred Active of the charter (R383). -/
def preferred (s : State) : Bool := s.ch (fun c => (if c.preferred = 0 then c.serial0 else c.serial1) = s.fuses.serial) false

/-- PAIR_NEGOTIATION (R387): the partner is present, and the record in force gives the roles. -/
def negotiation (s : State) : State :=
  if s.chip.step ≠ 8 || s.pair.mode ≠ 1 || !partnerPresent s then s
  else
    let s := match s.pair.witness.filter (fun w => w.owner ≠ 0) with
      | some w =>
        if w.owner = s.fuses.serial then becomeActive s (w.otherCurrent && s.pair.negotiated.any (fun n => n.current))
        else becomeStandby s (w.otherCurrent && !s.chip.ledgerLost) false
      | none =>
        if preferred s then startRecord (becomeActive s false) (allPositions s) false 3 else becomeStandby s false false
    toStep s 9

def execPairNegotiation (s : State) : Host.Outcome State Fault Refusal :=
  .next (negotiation s)

/-! ### Declaration and arbitration (R391, R392) -/

/-- The running audit ends with result Abandoned (R397); its command ends with a status that the spec does not give (free values). -/
def abandonAudit (s : State) : State :=
  let r := s.pair.run
  if !r.running then s
  else
    let s : State := { s with pair := { s.pair with
      audits := inc 0xFFFF s.pair.audits
      run := { seq := r.seq }
      lastAudit := some ⟨r.seq, r.mark, s.now - r.mark, r.records, b1 r.volume.isSome, 2, r.volume.getD 0, false, 0, []⟩ } }
    match r.tag with
    | none => s
    | some t =>
      let (s, v) := takeFree s
      finish s t (fld v.toNat 7 0) (fld v.toNat 15 8) []

/-- The unit fences itself, holds intake and, when current, sends PREEMPT. -/
def contend (s : State) : State :=
  let s := abandonAudit s
  let s : State := { s with pair := { s.pair with
    fenced := true, intakeHeld := true, won := [], lost := [], record := false, recordPending := none
    rounds := inc 0xFFFF s.pair.rounds, declared := s.now, heldSince := 0, resumeDue := false } }
  wakeUp (toRegistry (setPair s s.pair.role 2 false) (allPositions s) .preempt) 0

/-- The partner has missed 16 closes on both paths, or reports that it misses this unit (R389). -/
def partnerGone (s : State) : Bool := (16 ≤ s.pair.chain.misses && 16 ≤ s.pair.hb.misses) || 16 ≤ s.pair.partnerMissing

/-- PARTNER_FAILED (R389, R391): a current unit that has its partner contends; one that is not current sends nothing. -/
def declareFailed (s : State) : State :=
  if !isPair s || s.chip.step ≠ 15 || s.pair.mode ≠ 0 || !partnerGone s then s
  else if s.pair.role = 1 && s.ledger.mode = 1 || s.pair.role = 2 && s.pair.current then contend s
  else wakeUp s 0

def execPartnerFailed (s : State) : Host.Outcome State Fault Refusal :=
  .next (declareFailed s)

/-- NEGOTIATION_WAIT_EXPIRY (R31, R387): a current unit arbitrates; one that is not current is Standby, and raises ALERT#. -/
def execNegotiationWaitExpiry (s : State) : Host.Outcome State Fault Refusal :=
  .next <|
    if s.chip.step = 8 && s.pair.mode = 1 && (s.chip.chainAbsent || s.chip.stepClose + s.ch (·.negotiationWait) 1250000 ≤ s.now) then
      if s.pair.current then contend s else toStep (mgmtCause (becomeStandby s false true) 2) 9
    else s

/-- PREEMPT_COMPLETION (R392). -/
def execPreemptCompletion (pos : Nat) (success : Bool) (s : State) : Host.Outcome State Fault Refusal :=
  .next <|
    if registrySize s ≤ pos || (s.pair.mode ≠ 2 && s.pair.mode ≠ 3) then dropRegistryCmd s pos .preempt
    else
      let s := dropRegistryCmd s pos .preempt
      let s : State := { s with pair := if success then { s.pair with won := (s.pair.won ++ [pos]).eraseDups } else { s.pair with lost := (s.pair.lost ++ [pos]).eraseDups } }
      if success && mostOf s s.pair.won && !s.pair.record then
        match s.pair.recordPending with
        | none => startRecord s s.pair.won false 1
        | some _ => toRegistry s [pos] .witnessWrite
      else s

/-- What a witness record held by a majority brings about. -/
def recordHeld (s : State) (w : Witness) : State :=
  let p := s.pair.recordFor
  let s : State := { s with pair := { s.pair with witness := some w, record := true, recordPending := none } }
  if p = 4 then { s with pair := { s.pair with detachStep := 2, sendState := 4 } }
  else if p = 5 then { s with pair := { s.pair with detachStep := 3 } }
  else if p = 6 then { s with pair := { s.pair with detachStep := 4 } }
  else s

/-- WITNESS_RECORD_WRITE (R386): a write completes; the record is in force once a strict majority holds it. -/
def execWitnessRecordWrite (pos : Nat) (s : State) : Host.Outcome State Fault Refusal :=
  .next <|
    let s := dropRegistryCmd s pos .witnessWrite
    match s.pair.recordPending with
    | none => s
    | some w =>
      if registrySize s ≤ pos then s
      else
        let at' := (s.pair.recordAt ++ [pos]).eraseDups
        let s : State := { s with pair := { s.pair with recordAt := at' } }
        let counts := if s.pair.recordFor = 1 then at'.filter s.pair.won.contains else at'
        if mostOf s counts then recordHeld s w else s

/-- A contender has won (R392). -/
def hasWon (s : State) : Bool :=
  (s.pair.mode = 2 || s.pair.mode = 3) && s.pair.current && mostOf s s.pair.won && s.pair.record && s.pair.declared + 128 ≤ s.now

/-- The takeover decision of a current Standby (R394): the forward stream stops, commands are held. -/
def decide' (s : State) : State :=
  let s := abandonAudit s
  let s : State := { s with
    pair := { s.pair with decision := some s.now, lastDecision := s.now, takeovers := s.pair.takeovers + 1, intakeHeld := true, fenced := true }
    chain := { s.chain with txQueue := [], outstanding := [] } }
  let s := if s.pair.record then s else startRecord s (allPositions s) false 2
  setPair s s.pair.role 6 false

/-- A win: a Standby takes over, an Active unit and one at start-up go on from the next boundary. -/
def winRow (s : State) : State :=
  if !hasWon s then s
  else if s.chip.step ≠ 8 && s.pair.role = 2 then (if s.pair.decision.isSome then s else decide' s)
  else { s with pair := { s.pair with winDue := true } }

/-- ARBITRATION_WIN (R392). -/
def execArbitrationWin (s : State) : Host.Outcome State Fault Refusal :=
  .next (winRow s)

/-- TAKEOVER_DECISION (R393, R394): on a win, or on a Failed tally. -/
def execTakeoverDecision (s : State) : Host.Outcome State Fault Refusal :=
  .next <|
    if isPair s && s.chip.step = 15 && s.pair.role = 2 && s.pair.current && s.pair.decision.isNone && (hasWon s || s.pair.partnerState = 3) then decide' s else s

/-- A Failed tally has arrived (R389, R393): a current Standby decides, a current Active goes on alone; one that is not current stays as it is. -/
def failedSeen (s : State) : State :=
  if !isPair s || s.chip.step ≠ 15 then s
  else
    let s := wakeUp { s with pair := { s.pair with partnerState := 3 } } 0
    if s.pair.role = 2 && s.pair.current && s.pair.decision.isNone then decide' s
    else if s.pair.role = 1 && (s.ledger.mode = 1 || s.pair.mode = 2 || s.pair.mode = 3) && !s.pair.winDue then
      let s := { abandonAudit s with pair := { (abandonAudit s).pair with winDue := true } }
      if s.pair.record && s.pair.recordFor = 1 then s else startRecord s (allPositions s) false 2
    else s

/-- FAILED_TALLY (R389, R393). -/
def execFailedTally (path : Path) (s : State) : Host.Outcome State Fault Refusal :=
  .next (match path with
    | .chain => failedSeen s
    | .heartbeat => failedSeen s)

/-- ARBITRATION_LOSS (R392): RESERVATION CONFLICT on a strict majority, or a record with a higher epoch that names the partner was read. -/
def execArbitrationLoss (s : State) : Host.Outcome State Fault Refusal :=
  .next <|
    if (s.pair.mode = 2 || s.pair.mode = 3) && !hasWon s && !s.pair.winDue then
      let (s, v) := if mostOf s s.pair.lost then (s, 0) else takeFree s
      let w : Witness := ⟨(s.pair.witness.map (·.epoch)).getD 0 + 1, partnerSerial s, false, v.toNat⟩
      { s with pair := { s.pair with isolateDue := true, witness := if mostOf s s.pair.lost then s.pair.witness else some w, recordPending := none } }
    else s

/-- ARBITRATION_TIMEOUT (R392): neither won nor lost within 8,192 closes: Held. -/
def execArbitrationTimeout (s : State) : Host.Outcome State Fault Refusal :=
  .next <|
    if s.pair.mode = 2 && !hasWon s && !s.pair.winDue && !s.pair.isolateDue && s.pair.declared + 8192 ≤ s.now then
      setPair { s with pair := { s.pair with heldSince := s.now, sendState := 2 } } s.pair.role 3 true
    else s

/-- ARBITRATION_RETRY (R392): every 65,536 closes; the unit stays Held until it wins or loses. -/
def execArbitrationRetry (s : State) : Host.Outcome State Fault Refusal :=
  .next <|
    if s.pair.mode = 3 && s.pair.heldSince + 65536 ≤ s.now then
      let s : State := { s with pair := { s.pair with heldSince := s.now, won := [], lost := [], record := false, recordPending := none, rounds := inc 0xFFFF s.pair.rounds } }
      toRegistry s (allPositions s) .preempt
    else s

/-- A path delivers in this close. -/
def delivers (p : TallyPath) : Bool := p.seen || p.misses = 0

/-- TALLIES_RESUME (R393): before a win or a loss, arbitration ends at the next boundary. -/
def resume' (s : State) : State :=
  if (s.pair.mode = 2 || s.pair.mode = 3) && !s.pair.winDue && !s.pair.isolateDue && s.pair.decision.isNone && !hasWon s && (s.pair.chain.seen || s.pair.hb.seen) then
    { s with pair := { s.pair with resumeDue := true } }
  else s

def execTalliesResume (s : State) : Host.Outcome State Fault Refusal :=
  .next (resume' s)

/-- Records that waited for confirmation are Countersigned (R106). -/
def countersignAll (s : State) : State :=
  { s with ledger := { s.ledger with recs := s.ledger.recs.map (fun r => if r.state = .complete then { r with state := .countersigned } else r) } }

/-- The unit runs without countersigning (R106). -/
def runUnpaired (s : State) (mode : Nat) (alert : Bool) : State :=
  setPair (countersignAll { s with ledger := { s.ledger with mode := 3 } }) 1 mode alert

/-- The boundary after a win: the winner goes on as Active. -/
def winBoundary (s : State) : State :=
  if !s.pair.winDue then s
  else
    let s := unfence { s with pair := { s.pair with winDue := false, intakeHeld := false, current := true, sendState := 0 } }
    -- at start-up the unit serves without its partner: the pair alarm (R31)
    let s := runUnpaired s 0 (s.chip.step = 8)
    if s.chip.step = 8 then toStep s 9 else s

/-- A command that an Isolated unit ends without a Completion: its unlanded records go with it, and its wicket is Free. -/
def endIsolated (s : State) (c : Cmd) : State :=
  let s := forget s c
  let s : State := { s with ledger := { s.ledger with recs := s.ledger.recs.filter (fun r => !(r.pos = c.pos && r.rank = s.ledger.rank && (r.state = .filling || r.state = .complete || r.state = .countersigned))) } }
  if (wk s c.wicket).state = 2 && (wk s c.wicket).cseq = c.cseq then setWicket s c.wicket 1 else s

/-- The boundary after a loss: Isolated, fenced (R392). -/
def isolateBoundary (s : State) : State :=
  if !s.pair.isolateDue then s
  else
    let cs := s.cmds.filter (fun c => c.hdr.isBlock || c.hdr.isVault)
    let s := cs.foldl endIsolated { s with pair := { s.pair with isolateDue := false, current := false, intakeHeld := false, sendState := 0 } }
    let s := setPair s 3 0 true
    if s.chip.step = 8 then toStep s 9 else s

/-- The boundary at which arbitration ends because tallies resumed (R393). -/
def resumeBoundary (s : State) : State :=
  if !s.pair.resumeDue then s
  else
    let s := toRegistry s (allPositions s) .register
    let s := if s.pair.role = 1 then toRegistry s (s.pair.lost) .preempt else s
    let s := unfence { s with pair := { s.pair with resumeDue := false, intakeHeld := false, sendState := 0, heldSince := 0, partnerMissing := 0, recordPending := none } }
    setPair s s.pair.role (if s.chip.step = 8 then 1 else 0) false

/-! ### Tallies (R388, R389) -/

def pathOf (s : State) (p : Path) : TallyPath :=
  match p with
  | .chain => s.pair.chain
  | .heartbeat => s.pair.hb

def modPath (s : State) (p : Path) (f : TallyPath → TallyPath) : State :=
  match p with
  | .chain => { s with pair := { s.pair with chain := f s.pair.chain } }
  | .heartbeat => { s with pair := { s.pair with hb := f s.pair.hb } }

/-- The Standby has received Detached (R390). -/
def detachedSeen (s : State) : State :=
  if s.pair.role = 2 then { s with pair := { s.pair with current := false, partnerState := 4 } } else { s with pair := { s.pair with partnerState := 4 } }

/-- DETACHED (R390). -/
def execDetached (s : State) : Host.Outcome State Fault Refusal :=
  .next (if isPair s then detachedSeen s else s)

/-- A tally from the partner: counted when it is good and its count is new; a Failed or Detached state acts. -/
def tally (s : State) (p : Path) (count state serial : Nat) (good : Bool) : State :=
  if !isPair s then s
  else if p = .heartbeat && (!good || serial ≠ partnerSerial s) then { s with pair := { s.pair with badHb := inc 0xFFFF s.pair.badHb } }
  else if p = .chain && !good then s
  else
    let s : State := if p = .heartbeat then { s with pair := { s.pair with hbLast := s.now } } else s
    -- a Failed tally is acted on whatever its count (R54)
    if (pathOf s p).last = some count then (if state = 3 then failedSeen s else s)
    else
      let s := modPath s p (fun t => { t with last := some count, seen := true })
      let s : State := { s with pair := { s.pair with partnerState := state, partnerMissing := if state = 1 then s.pair.partnerMissing + 1 else 0 } }
      let s := resume' s
      if state = 3 then failedSeen s else if state = 4 then detachedSeen s else s

/-- TALLY_RECEIPT (R389). -/
def execTallyReceipt (path : Path) (count state serial : Nat) (good : Bool) (s : State) : Host.Outcome State Fault Refusal :=
  .next (tally s path count state serial good)

/-- PATH_ALARM (R389): 16 missed closes on one path while the other delivers. -/
def pathAlarm (s : State) (p : Path) : State :=
  let t := pathOf s p
  let o := match p with
    | .chain => s.pair.hb
    | .heartbeat => s.pair.chain
  if !isPair s || t.misses < 16 || 16 ≤ o.misses || t.alarm then s
  else
    let s := modPath s p (fun t => { t with alarm := true })
    let s : State := { s with pair := { s.pair with
      losses := inc 0xFFFF s.pair.losses
      chainDownSince := if p = .chain then some s.now else s.pair.chainDownSince } }
    let s := mgmtCause (fire s 0x12 (if p = .chain then 1 else 2) (if s.pair.partnerSeen then s.pair.partnerAddr else 0xFF) [] true) 2
    wakeUp s 0

def execPathAlarm (path : Path) (s : State) : Host.Outcome State Fault Refusal :=
  .next (pathAlarm s path)

/-- HB_SYMBOL_LOCK (R388). -/
def execHbSymbolLock (locked : Bool) (s : State) : Host.Outcome State Fault Refusal :=
  .next (if s.chip.pwrgd then { s with pair := { s.pair with hbUp := locked } } else s)

/-- A close of a path ends: missed, or delivered; an alarm clears after 16 closes without a miss (R389). -/
def pathBoundary (t : TallyPath) : TallyPath :=
  if t.seen then
    let run := t.run + 1
    { t with seen := false, misses := 0, run, alarm := t.alarm && run < 16 }
  else { t with misses := hold 31 (t.misses + 1), run := 0 }

/-- The tally state that the unit sends (R389). -/
def ownState (s : State) : Nat :=
  if s.chip.halted then 3
  else if s.pair.mode = 3 then 2
  else if s.pair.sendState = 4 then 4
  else if 8 ≤ s.pair.chain.misses && 8 ≤ s.pair.hb.misses then 1
  else 0

/-- Tallies in row 8 of R47: the count rises, the heartbeat message and the tally byte go out, and the close's misses are counted (R388, R389). -/
def tallyBoundary (s : State) : State :=
  if !isPair s || s.chip.step < 8 || s.chip.step = 13 || s.chip.step = 14 then s
  else
    let s : State := { s with pair := { s.pair with
      tallyCount := s.pair.tallyCount + 1, hbSent := inc 0xFFFF s.pair.hbSent
      chain := pathBoundary s.pair.chain, hb := pathBoundary s.pair.hb } }
    let s : State := { s with pair := { s.pair with
      sendState := ownState s
      chainDownSince := if s.pair.chain.misses = 0 then none else s.pair.chainDownSince } }
    -- the chain path is lost during a join: the join stops (R401)
    if s.pair.mode = 5 && 16 ≤ s.pair.chain.misses then
      setPair { s with pair := { s.pair with joinLeft := [], joinConfirmed := [], bulkEnded := false, detachStep := 0 } } s.pair.role 0 false
    else s

/-! ### Detach (R390) -/

/-- DETACH_DELAY_EXPIRY (R390): step 1, a witness record that keeps this unit as owner and clears the current bit. -/
def execDetachDelayExpiry (s : State) : Host.Outcome State Fault Refusal :=
  .next <|
    if s.pair.role = 1 && s.ledger.mode = 1 && s.pair.mode = 0 && s.pair.detachStep = 0 && s.pair.hb.misses < 16 && 16 ≤ s.pair.chain.misses &&
        s.pair.chainDownSince.any (fun t => t + s.ch (·.detachDelay) 65536 ≤ s.now) then
      startRecord { s with pair := { s.pair with detachStep := 1 } } (allPositions s) false 4
    else s

/-- What a witness record that a majority holds changes at the boundary after: detach, the end of a join, the end of countersigning after a mismatch. -/
def recordBoundary (s : State) : State :=
  match s.pair.detachStep with
  | 2 => runUnpaired (abandonAudit { s with pair := { s.pair with detachStep := 0 } }) 4 false
  | 3 => setPair { s with pair := { s.pair with detachStep := 0 }, ledger := { s.ledger with mode := 1 } } 1 0 false
  | 4 => runUnpaired { s with pair := { s.pair with detachStep := 0 } } 0 false
  | 5 => startRecord { s with pair := { s.pair with detachStep := 0 } } (allPositions s) false 6
  | _ => s

/-! ### Takeover (R394–R396) -/

/-- The copy is whole. -/
def Rec.whole (r : Rec) : Bool := r.state = .complete || r.state = .countersigned

/-- A book entry that this unit holds names the copy (R394, R48). -/
def bookNames (s : State) (r : Rec) : Bool := s.pair.heldBooks.any (fun b => r.seq ≤ b.2)

/-- The fate of a command of the failed unit (R395). -/
def priorFate (s : State) (i : Rec) : Nat :=
  if s.pair.posted.any (fun p => p.2.2 = i.seq) then 1
  else
    let data := s.ledger.copies.any (fun r => r.kind ≠ 1 && r.pos = i.pos && r.powerCycle = i.powerCycle && r.whole)
    if i.opcode = 4 then (if i.whole then 2 else 3)
    else if [0x02, 0x40, 0x41, 0x42, 0x45, 0x46].contains i.opcode then (if data then 2 else 3)
    else if i.opcode = 0x86 then (if s.registry.reshapes.any (fun r => r.state ≠ 0 && r.volume = i.volume) then 2 else 3)
    else 3

/-- Boundary d+1 (R394): the role, the account, the copies that book entries name, the replay set. -/
def takeoverOne (s : State) : State :=
  let intents := (replayOrder s.ledger.copies).filter (fun r => r.kind = 1)
  let lines : List AcctLine := intents.map (fun i => ⟨i.tag, i.ring, i.pos.wicket, i.cseq, priorFate s i, i.opcode, i.pos.close⟩)
  let ranges := intents.map (fun i => if 1 ≤ i.opcode && i.opcode ≤ 4 then (i.volume, i.lba, i.blocks) else if 0x40 ≤ i.opcode && i.opcode ≤ 0x48 then (i.volume, 0, 2 ^ 64) else (0, 0, 0))
  let rs := replayOrder (s.ledger.copies.filter Rec.whole)
  let named := bookNames s
  let s := becomeActive s false
  let s := setPair s 1 6 false
  let s : State := { s with
    pair := { s.pair with account := lines, accountClose := s.now, failedSerial := partnerSerial s, acctRanges := ranges, posted := [], heldBooks := [] }
    ledger := { s.ledger with copies := [], mode := 3 }
    cache := [], map := { s.map with lines := [], fills := [], victims := [], waiting := [], served := [] }
    degrade := { s.degrade with scrubbed := [], scrubBase := s.mgmt.opMs, batch := [], checked := [] }
    gov := { s.gov with demands := [], blocked := false, blockedClass := 0 } }
  let s := adopt (takeCursors s) rs named
  let (s, seq) := accountRecord s lines
  { s with pair := { s.pair with joinStart := seq } }

/-- The account record of the takeover has landed. -/
def accountLanded (s : State) : Bool :=
  match findRec s s.pair.joinStart with
  | some r => r.visible
  | none => true

/-- The rings that carried a command of the failed unit, each with its Takeover marker (R70). -/
def markers (s : State) (rings : List Nat) (d : Nat) : State :=
  rings.foldl (fun s n =>
    let (s, e) := openFields s { kind := 5, spec := natLe 8 s.pair.failedSerial ++ natLe 8 d } false
    enqueue s n e) s

/-- Boundary d+3 (R394): the volumes on line, the markers and the account entries queued, the end of the gap. -/
def takeoverThree (s : State) (d : Nat) : State :=
  let vs := (s.vols.filter (fun e => e.2.state = 4)).map (·.1)
  let s := vs.foldl (fun s v =>
    let held := (volDef s v).any (fun x => x.kind = 1) && !((findVault s v).map (·.online)).getD false
    let st := if (vol s v).offReason ≠ 0 || held then 1 else if (reshapeOf s v).any (fun r => 2 ≤ r.state && r.state ≤ 4) then 3 else 2
    setVolume s v (fun x => { x with state := st })) s
  let lines := s.pair.account
  let rings := (lines.map (·.ring)).eraseDups
  let s := markers s rings d
  let s := rings.foldl (fun s n => accountEntries s n 4 0 true (lines.filter (fun l => l.ring = n))) s
  let s : State := { s with
    ledger := { s.ledger with recs := s.ledger.recs.map (fun r => if r.replayed then { r with reported := true } else r) }
    pair := { s.pair with decision := none, intakeHeld := false, sendState := 0 } }
  setPair (unfence s) 1 0 false

/-- The boundaries of a takeover. -/
def takeoverBoundary (s : State) : State :=
  match s.pair.decision with
  | none => s
  | some d =>
    if s.now = d + 1 then takeoverOne s
    else if d + 3 ≤ s.now && accountLanded s then takeoverThree s d
    else s

/-! ### Join (R399, R400) -/

/-- Records that the Active unit holds: not released, their bodies whole. -/
def heldSeqs (s : State) : List Nat := (s.ledger.recs.filter (fun r => r.held && r.state ≠ .filling)).map (·.seq)

/-- JOIN (R399, R400): the Active unit sends Bulk begin and begins the bulk copy; a unit that joins registers its key and holds copies. -/
def join (s : State) : State :=
  if !isPair s || s.chip.step ≠ 15 || !delivers s.pair.chain then s
  else if s.pair.role = 1 && s.ledger.mode = 3 && (s.pair.mode = 0 || s.pair.mode = 4) then
    let seqs := heldSeqs s
    let s := streamSend s [streamHeader 5 0 (seqs.headD s.ledger.nextSeq) 0]
    setPair { s with pair := { s.pair with
      joinStart := s.now, joinLeft := seqs, joinConfirmed := [], bulkEnded := false
      joinTotal := ceilDiv (sumOf Rec.space (s.ledger.recs.filter (fun r => seqs.contains r.seq))) 1024 } } 1 5 false
  else if (s.pair.role = 2 && !s.pair.current || s.pair.role = 3) && s.pair.mode ≠ 5 then
    let s := toRegistry s (allPositions s) .register
    setPair { s with pair := { s.pair with current := false, bulkEnded := false }, ledger := { s.ledger with mode := 2, resyncLeft := [], resyncTotal := 0 } } 2 5 false
  else s

def execJoin (s : State) : Host.Outcome State Fault Refusal :=
  .next (join s)

/-- BULK_END (R400): after the last bulk record. -/
def execBulkEnd (s : State) : Host.Outcome State Fault Refusal :=
  .next <|
    if s.pair.role = 1 && s.pair.mode = 5 && s.pair.joinLeft.isEmpty && !s.pair.bulkEnded then
      streamSend { s with pair := { s.pair with bulkEnded := true } } [streamHeader 6 0 s.ledger.nextSeq 0]
    else s

/-- JOIN_CURRENT (R400): every held record is confirmed, so the witness record sets the current bit; the joining unit is Standby and current. -/
def execJoinCurrent (s : State) : Host.Outcome State Fault Refusal :=
  .next <|
    if s.pair.mode ≠ 5 || !s.pair.bulkEnded then s
    else if s.pair.role = 1 then
      if s.pair.recordPending.isNone && s.pair.detachStep = 0 && (heldSeqs s).all s.pair.joinConfirmed.contains then startRecord s (allPositions s) true 5 else s
    else if s.pair.role = 2 then setPair { s with pair := { s.pair with current := true, bulkEnded := false } } 2 0 false
    else s

/-! ### Audit (R322, R397, R398) -/

/-- The digest of a record as it was written. -/
def recDigest (r : Rec) : Nat := beNat (sha256 (recHeader { r with superseded := false, replayed := false } ++ Memory.bytes r.body r.bodyLen))

/-- The XOR of digests. -/
def xorAll (l : List Nat) : Nat := l.foldl (fun a b => a ^^^ b) 0

/-- The combinations of a ledger: one for each volume of the scope, over the record area. -/
def auditDigests (s : State) (rs : List Rec) (volume : Option Nat) : List (Nat × Nat) :=
  let vs : List Nat := match volume with
    | some v => [v]
    | none => s.ch (fun c => c.volumes.map (fun (d : VolumeDef) => d.volume)) []
  vs.map (fun (v : Nat) => (v, xorAll ((rs.filter (fun (r : Rec) => r.inArea && r.held && r.state ≠ .filling && r.volume = v)).map recDigest)))

/-- The combination over the open-items map and the accounts area. -/
def mapDigest (s : State) (rs : List Rec) : Nat :=
  let set := (s.ledger.regions.filter (fun (r : Region) => r.set)).map (fun (r : Region) => beNat (sha256 (natLe 2 r.volume ++ natLe 6 r.region)))
  xorAll (set ++ (rs.filter (fun (r : Rec) => r.kind = 5 && r.held && r.state ≠ .filling)).map recDigest)

/-- An audit begins on the Active unit: the Audit mark goes into the forward stream. -/
def startAudit (s : State) (volume : Option Nat) (tag : Option Nat) : State :=
  let rs := s.ledger.recs
  let seq := s.pair.run.seq + 1
  let scope := rs.filter (fun (r : Rec) => r.held && r.state ≠ .filling && (match volume with
    | some v => r.inArea && r.volume = v
    | none => true))
  let interval := s.ch (·.auditInterval) 0
  let s := streamSend s [streamHeader 3 1 seq 0, padTo 64 (natLe 1 (b1 volume.isSome) ++ [0] ++ natLe 2 (volume.getD 0))]
  { s with pair := { s.pair with
      nextAudit := if interval = 0 then 0 else s.now + interval
      run := { seq, running := true, volume, mark := s.now, records := scope.length, tag, digests := auditDigests s rs volume, mapDigest := if volume.isNone then mapDigest s rs else 0 } } }

/-- The scope of an AUDIT command. -/
def auditScope (c : Cmd) : Option Nat := if c.hdr.f 24 1 = 0 then none else some c.hdr.volume

/-- AUDIT (R322, R401): on the Active unit of a pair; one at a time, in acceptance order. -/
def auditRow (s : State) (tag : Nat) : State :=
  match startedCmd s tag 0x8A with
  | none => s
  | some c =>
    if s.pair.role = 1 && s.pair.mode = 5 then
      let (s, v) := takeFree s
      let s : State := { s with pair := { s.pair with
        audits := inc 0xFFFF s.pair.audits
        run := { s.pair.run with seq := s.pair.run.seq + 1 }
        lastAudit := some ⟨s.pair.run.seq + 1, s.now, 0, 0, b1 (auditScope c).isSome, 2, (auditScope c).getD 0, false, 0, []⟩ } }
      finish s tag (fld v.toNat 7 0) (fld v.toNat 15 8) []
    else if s.pair.role ≠ 1 || s.ledger.mode ≠ 1 then finish s tag 0x50 2 []
    else
      let s := modCmd s tag (fun c => { c with phase := .busy })
      if s.pair.run.running then { s with pair := { s.pair with waitingAudits := s.pair.waitingAudits ++ [tag] } }
      else startAudit s (auditScope c) (some tag)

def execAudit (tag : Nat) (s : State) : Host.Outcome State Fault Refusal :=
  .next (if opfin s then auditRow s tag else s)

/-- The Standby's part of an audit: its combinations and its witness reads go back on the reverse stream. -/
def standbyAudit (s : State) (seq : Nat) (volume : Option Nat) : State :=
  let rs := s.ledger.copies
  let ds := auditDigests s rs volume
  let words := ds.map (fun d => padTo 64 (natLe 1 0 ++ [0] ++ natLe 2 d.1 ++ zeros 4 ++ natBe 32 d.2)) ++
    (if volume.isNone then [padTo 64 (natLe 1 1 ++ zeros 7 ++ natBe 32 (mapDigest s rs))] else [])
  streamSend s ((pieces' words.length words).flatMap (fun ws => streamHeader 4 ws.length seq 0 :: ws))
where
  /-- groups of at most 64 words -/
  pieces' : Nat → List (List Byte) → List (List (List Byte))
    | 0, _ => []
    | n + 1, ws => if ws.isEmpty then [] else ws.take 64 :: pieces' n (ws.drop 64)

/-- AUDIT_MARK (R397): the scheduled audit of the Active unit when the interval has passed, or a mark that reaches the Standby. -/
def execAuditMark (volume : Option Nat) (s : State) : Host.Outcome State Fault Refusal :=
  .next <|
    if s.pair.role = 1 && s.ledger.mode = 1 && !s.pair.run.running && s.ch (·.auditInterval) 0 ≠ 0 && s.pair.nextAudit ≤ s.now then startAudit s volume none
    else if s.pair.role = 2 && isPair s then standbyAudit s (s.pair.run.seq + 1) volume
    else s

/-- The next AUDIT command that waits. -/
def nextWaiting (s : State) : State :=
  match s.pair.waitingAudits with
  | [] => s
  | t :: r =>
    let s : State := { s with pair := { s.pair with waitingAudits := r } }
    match findCmd s t with
    | none => s
    | some c => if s.pair.role = 1 && s.ledger.mode = 1 then startAudit s (auditScope c) (some t) else finish s t 0x50 2 []

/-- AUDIT_DIGEST (R397, R398): the combinations are compared; a mismatch is recorded and leads to a new join. -/
def auditEnd (s : State) (digests : List (Nat × Nat)) (mapD witness : Nat) : State :=
  let r := s.pair.run
  if !r.running || s.pair.role ≠ 1 then s
  else
    let bad := (r.digests.filter (fun d => !digests.contains d)).map (·.1)
    let mapBad := r.volume.isNone && mapD ≠ r.mapDigest
    let agree := bad.isEmpty && !mapBad && registrySize s < 2 * witness
    let count := bad.length + b1 mapBad
    let s : State := { s with pair := { s.pair with
      audits := inc 0xFFFF s.pair.audits
      mismatches := if agree then s.pair.mismatches else inc 0xFFFF s.pair.mismatches
      run := { seq := r.seq }
      lastAudit := some ⟨r.seq, r.mark, s.now - r.mark, r.records, b1 r.volume.isSome, b1 (!agree), r.volume.getD 0, mapBad, witness, bad⟩ } }
    let s := match r.tag with
      | some t => finish s t (if agree then 0 else 0x50) (if agree then 0 else 3) (natLe 8 r.records ++ natLe 4 count ++ natLe 4 (s.now - r.mark))
      | none => s
    let s := if agree then s else fire { s with pair := { s.pair with detachStep := 5 } } 0x14 0 r.seq [] false
    nextWaiting s

def execAuditDigest (digests : List (Nat × Nat)) (mapDigest : Nat) (witnessInForce : Nat) (s : State) : Host.Outcome State Fault Refusal :=
  .next (auditEnd s digests mapDigest witnessInForce)

end Sys2Proof.Machine
end

