-- ==== Sys2Proof/Machine/Chain.lean ====
section
/-! DEFINITION. The Alsal ring: frames, streams, control slot, addresses and lanes (14 R372–R382, R402, R403, 05 R104, R105). -/

namespace Sys2Proof.Machine

/-! ### Stream words out -/

/-- The word of a book entry in the stream (R45, R379; log entry 27). -/
def bookWord (v : Verdict) : List Byte :=
  let h := natLe 8 v.close ++ natLe 4 v.cycles ++ natLe 8 v.highest ++ natLe 4 v.digest.toNat ++ zeros 36
  h ++ natLe 4 (crc32c h).toNat

/-- A book entry goes to the Standby (R46, R385). -/
def streamBook (s : State) (v : Verdict) : State :=
  if copiesLive s then streamSend s [streamHeader 2 1 v.close 0, bookWord v] else s

/-- The bulk copy of a join: the next held record goes out when no live word waits, with the book entry that names it (R400). -/
def joinFeed (s : State) : State :=
  match s.chain.txQueue, s.pair.joinLeft with
  | [], seq :: rest =>
    let s : State := { s with pair := { s.pair with joinLeft := rest } }
    match findRec s seq with
    | none => s
    | some r =>
      if !r.held then s
      else
        let s := streamRecord s r
        if r.visible then streamBook s ⟨r.landedAt - 1, 25600, r.seq, 0⟩ else s
  | _, _ => s

/-- Hops to the partner going up (direction 0), and going down. -/
def hopsUp (s : State) (a b : Nat) : Nat := let n := max 1 s.chain.units; (b + n - a % n) % n

/-- The direction of the stream that this unit sends (R378). -/
def streamDir (s : State) : Nat :=
  let own := s.chain.address.getD 0
  let other := s.pair.partnerAddr
  let fwd := fun (a b : Nat) => if hopsUp s a b ≤ hopsUp s b a then 0 else 1
  if s.pair.role = 1 then fwd own other else 1 - fwd other own

/-- Frames whose words are outstanding (R380). -/
def framesOut (s : State) : Nat := (s.chain.outstanding.map (fun (w : Nat × Nat × List Byte) => w.1)).eraseDups.length

/-- The stream words of this unit go into the free slots of a frame, with its request (R378, R380). -/
def fillSlots (s : State) (dir : Nat) (f : Frame) : State × Frame :=
  let own := s.chain.address.getD 0
  if !(isPair s && s.chain.address.isSome && s.pair.partnerSeen && s.chain.ringUp && streamDir s = dir && framesOut s < 8) then (s, f)
  else
    let s := joinFeed s
    let free := (List.range 12).filter (fun n => !f.payload.any (fun p => p.1 = n))
    let ws := free.zip s.chain.txQueue
    if ws.isEmpty then (s, f)
    else
      let req := s.pair.partnerAddr % 16 + 16 * (if s.chain.resend then 2 else 1)
      let old := tget 0 f.headers own
      ({ s with chain := { s.chain with
          txQueue := s.chain.txQueue.drop ws.length
          outstanding := s.chain.outstanding ++ ws.map (fun (w : Nat × List Byte) => (f.number, w.1, w.2))
          words := hold 0xFFFFFFFF (s.chain.words + ws.length)
          resend := false } },
        { f with payload := f.payload ++ ws, headers := tset f.headers own (old / 256 * 256 + req) })

/-! ### Stream words in (R104, R379, R380) -/

/-- A record as its header gives it (R100). -/
def recOfHeader (b : List Byte) : Rec :=
  let opcode := le b 48 1
  { seq := le b 8 8, kind := le b 0 1, superseded := bit (le b 1 1) 0, replayed := bit (le b 1 1) 1, volume := le b 2 2, tag := le b 4 2, ring := le b 6 2
    pos := ⟨le b 16 8, le b 24 2, le b 26 2⟩, powerCycle := le b 28 4, lba := le b 32 8, blocks := le b 40 4, bodyLen := le b 44 4, opcode, cseq := le b 50 2
    span := if le b 0 1 = 1 && opcode = 4 then some (le b 32 8, le b 40 4) else none }

def modCopy (s : State) (seq : Nat) (f : Rec → Rec) : State :=
  { s with ledger := { s.ledger with copies := modIf (fun r => r.seq = seq) f s.ledger.copies } }

/-- A copy whose last byte is written is whole; a map record acts on the Standby's open-items map (R118). -/
def copyWhole (s : State) (seq : Nat) : State :=
  match s.ledger.copies.find? (fun r => r.seq = seq) with
  | some r =>
    if r.state = .filling && r.bodyLen ≤ r.filled then
      let s := modCopy s seq (fun r => { r with state := .complete, completeAt := absCycle s })
      if r.kind = 3 then applyMapRec s r else s
    else s
  | none => s

/-- One word of a piece is written at the record's place (R104). -/
def writePiece (s : State) (seq off : Nat) (w : List Byte) : State :=
  if s.ledger.mode ≠ 2 then s
  else if off = 0 then
    let r := recOfHeader w
    let known := s.ledger.copies.any (fun q => q.seq = seq)
    let s : State := if known then s else { s with ledger := { s.ledger with copies := s.ledger.copies ++ [{ r with seq }] } }
    copyWhole s seq
  else
    copyWhole (modCopy s seq (fun r =>
      let at' := off - 64
      let n := min 64 (r.bodyLen - at')
      { r with body := Memory.place 0 r.body at' n (Memory.ofBytes (w.take n)), filled := max r.filled (at' + n) })) seq

/-- One word of a piece: one that comes in the quiet slice is written from cycle 0 of the next close (R44). -/
def pieceWord (s : State) (seq off : Nat) (w : List Byte) : State :=
  if s.quiet then { s with chain := { s.chain with rxLate := s.chain.rxLate ++ [(seq, off, w)] } } else writePiece s seq off w

/-- Cycle 0 of a close: the words that waited out the quiet slice are written. -/
def writeLatePieces (s : State) : State :=
  s.chain.rxLate.foldl (fun s e => writePiece s e.1 e.2.1 e.2.2) { s with chain := { s.chain with rxLate := [] } }

/-- A book entry's word is written, and the unit says that it holds the entry (R46). -/
def bookIn (s : State) (close : Nat) (w : List Byte) : State :=
  if s.ledger.mode = 2 && crc32c (w.take 60) = BitVec.ofNat 32 (le w 60 4) then
    sendControl { s with pair := { s.pair with heldBooks := (s.pair.heldBooks ++ [(close, le w 12 8)]).drop ((s.pair.heldBooks.length + 1) - 4096) } } 3 (zeros 4 ++ natLe 8 close)
  else s

/-- One stream word is accepted; none where a header word's CRC-32C fails (R379). -/
def streamWord (s : State) (w : List Byte) : Option State :=
  match s.chain.rxGroup with
  | none =>
    if crc32c (w.take 60) ≠ BitVec.ofNat 32 (le w 60 4) then none
    else
      let typ := le w 0 1
      let seq := le w 8 8
      let s : State := { s with chain := { s.chain with rxGroup := if le w 1 1 = 0 then none else some (typ, le w 1 1, seq, le w 16 4) } }
      -- Bulk begin: the joining unit's copies are those of the bulk copy; Bulk end
      some (if typ = 5 && s.ledger.mode = 2 then { s with ledger := { s.ledger with copies := [] }, pair := { s.pair with heldBooks := [], bulkEnded := false } }
        else if typ = 6 && s.ledger.mode = 2 then { s with pair := { s.pair with bulkEnded := true } }
        else s)
  | some (typ, left, seq, off) =>
    let s : State := { s with chain := { s.chain with rxGroup := if left ≤ 1 then none else some (typ, left - 1, seq, off + 64) } }
    some (match typ with
      | 1 => pieceWord s seq off w
      | 2 => bookIn s seq w
      | 3 => if s.ledger.mode = 2 then standbyAudit s seq (if le w 0 1 = 0 then none else some (le w 2 2)) else s
      | _ => s)

/-- The words of a frame, all of them or none. -/
def streamWords : State → List (List Byte) → Option State
  | s, [] => some s
  | s, w :: r => (streamWord s w).bind (fun s => streamWords s r)

/-- The words that the partner's request carries: the answer is 1 Taken or 2 Busy (R376, R380). -/
def takeWords (s : State) (restart : Bool) (ws : List (List Byte)) : State × Nat :=
  let s : State := if restart then { s with chain := { s.chain with discard := false } } else s
  if s.chain.discard || s.pair.decision.isSome then (s, 2)
  else match streamWords s ws with
    | some t => (confirmCopies t, 1)
    | none => ({ s with chain := { s.chain with discard := true } }, 2)

/-- The requests of a frame that name this unit: (requester, request). -/
def requestsFor (own : Nat) (f : Frame) : List (Nat × Nat) :=
  (f.headers.filter (fun (h : Nat × Nat) => h.1 ≠ own && fld h.2 3 0 = own && fld h.2 7 4 ≠ 0)).map (fun (h : Nat × Nat) => (h.1, fld h.2 7 4))

/-- This unit's reply goes into its own header slot (R375, R376). -/
def putReply (own dst reply : Nat) (f : Frame) : Frame :=
  { f with headers := tset f.headers own (tget 0 f.headers own % 256 + 256 * (dst % 16) + 4096 * reply) }

/-- A request of this frame is answered. -/
def answer (own : Nat) (s : State) (f : Frame) (r : Nat × Nat) : State × Frame :=
  if r.2 = 3 then (s, putReply own r.1 1 f)
  else if isPair s && s.pair.partnerSeen && r.1 = s.pair.partnerAddr && (r.2 = 1 || r.2 = 2) then
    let (s, a) := takeWords s (r.2 = 2) (f.payload.map (fun (p : Nat × List Byte) => p.2))
    (s, putReply own r.1 a (if a = 1 then { f with payload := [] } else f))
  else (s, putReply own r.1 2 f)

/-! ### The control slot (R377, R381, R382, R402) -/

/-- A Token passes: the unit takes the lowest clear address or sets its own bit; at the head, the returned map gives the count (R382). -/
def tokenPass (s : State) (map units : Nat) : State × Nat × Nat :=
  if s.chip.chainHead then
    let n := if units = 0 then (bitsOf 16 map).length else units
    ({ s with chain := { s.chain with units := n, tokenClose := s.now } }, map, n)
  else
    let a := s.chain.address.getD (((List.range 16).find? (fun i => !bit map i)).getD 15)
    ({ s with chain := { s.chain with
        address := some a, tokenClose := s.now
        units := if units = 0 then s.chain.units else units } }, map ||| 2 ^ a, units)

/-- TOKEN (R382). -/
def execToken (map units : Nat) (s : State) : Host.Outcome State Fault Refusal :=
  .next (if alive s && s.ch (·.chainPresent) false && 5 ≤ s.chip.step then (tokenPass s map units).1 else s)

/-- The Token as a control message. -/
def tokenMsg (map units : Nat) : CtlMsg := ⟨6, 0, 0xFF, padTo 12 (natLe 2 map ++ natLe 1 units)⟩

/-- The head sends a Token with its own bit set (R382). -/
def sendToken (s : State) : State :=
  if s.chip.chainHead then { s with chain := { s.chain with address := some 0, ctlQueue := s.chain.ctlQueue ++ [tokenMsg 1 0] } } else s

/-- A Lane swap message: a lane that this unit sends on moves to the reserve at the frame (R402). -/
def laneSwapArrives (s : State) (dir lane frame : Nat) : State :=
  { s with chain := { s.chain with outSwaps := s.chain.outSwaps ++ [(dir, lane, frame)] } }

/-- LANE_SWAP (R402). -/
def execLaneSwap (dir lane frame : Nat) (s : State) : Host.Outcome State Fault Refusal :=
  .next (if dir < 2 && lane < 3 && alive s then laneSwapArrives s dir lane frame else s)

/-- A control message for this unit acts (R381). -/
def takeControl (s : State) (m : CtlMsg) : State :=
  let b := m.body
  let seq := le b 4 8
  match m.typ with
  | 1 => if isPair s then confirmed s seq else s
  | 2 => if isPair s then released s seq else s
  | 3 => bookIsHeld s seq
  | 4 => if isPair s then postedArrives s (le b 0 2) (le b 2 1) seq else s
  | 5 =>
    let s' := negotiateArrives s ⟨le b 0 1, bit (le b 1 1) 0, le b 2 2, seq⟩
    if isPair s && seq = partnerSerial s then { s' with pair := { s'.pair with partnerAddr := m.src % 16 } } else s'
  | 7 => laneSwapArrives s (le b 0 1) (le b 1 1) (le b 4 4)
  | _ => s

/-- The control slot of a frame as it passes: what the slot then holds. -/
def controlSlot (s : State) (c : Option CtlMsg) : State × Option CtlMsg :=
  let own := s.chain.address.getD 0xFF
  match c with
  | none =>
    match s.chain.ctlQueue with
    | [] => (s, none)
    | m :: q => ({ s with chain := { s.chain with ctlQueue := q } }, some m)
  | some m =>
    if m.typ = 6 then
      let (t, map, n) := tokenPass s (le m.body 0 2) (le m.body 2 1)
      -- the head gives the counted Token one more lap, and then clears it
      if s.chip.chainHead && le m.body 2 1 ≠ 0 then (t, none) else (t, some (tokenMsg map n))
    else if m.dst = 0xFF then
      let t := if m.src = own then s else takeControl s m
      if s.chip.chainHead then
        if s.chain.rxCtl = some m then ({ t with chain := { t.chain with rxCtl := none } }, none) else ({ t with chain := { t.chain with rxCtl := some m } }, some m)
      else (t, some m)
    else if m.dst = own then (takeControl s m, none)
    else if m.src = own then ({ s with chain := { s.chain with ctlQueue := s.chain.ctlQueue ++ [m] } }, none)
    else (s, some m)

/-- CONTROL_MESSAGE_RETURN (R377): a message that no unit took is cleared, and sent again in a later frame. -/
def execControlMessageReturn (m : CtlMsg) (s : State) : Host.Outcome State Fault Refusal :=
  .next (if s.chain.address = some m.src && m.dst ≠ 0xFF then { s with chain := { s.chain with ctlQueue := s.chain.ctlQueue ++ [m] } } else s)

/-! ### Lanes (R372, R402, R403, R453) -/

def chLane (s : State) (i : Nat) : ChainLane := (s.chain.lanes.drop i).headD {}

def modChLane (s : State) (i : Nat) (f : ChainLane → ChainLane) : State := { s with chain := { s.chain with lanes := modAt f i s.chain.lanes } }

/-- The swap of an incoming lane begins: the upstream neighbour is told the swap frame (R402, R403). -/
def startSwap (s : State) (dir l cause : Nat) : State :=
  let i := 3 * dir + l
  if (chLane s i).state ≠ 2 || (chLane s i).swapAt.isSome then s
  else
    let f := s.chain.frame + (if s.power.state ≠ 0 then 2000 else 16)
    let n := max 1 s.chain.units
    let own := s.chain.address.getD 0
    let up := if dir = 0 then (own + n - 1) % n else (own + 1) % n
    let s := modChLane s i (fun c => { c with swapAt := some f, swapCause := cause })
    { s with chain := { s.chain with ctlQueue := s.chain.ctlQueue ++ [⟨7, s.chain.address.getD 0xFF, up, padTo 12 (natLe 1 dir ++ natLe 1 l ++ zeros 2 ++ natLe 4 f)⟩] } }

/-- LANE_CHECK_LIMIT (R402): 16 failed checks within 2^20 frames. -/
def execLaneCheckLimit (dir lane : Nat) (s : State) : Host.Outcome State Fault Refusal :=
  .next (if dir < 2 && lane < 3 && 16 ≤ (chLane s (3 * dir + lane)).crcWindow.length then startSwap s dir lane 5 else s)

/-- An incoming lane moves to the reserve, or is retired when none is left (R402, R453). -/
def swapIn (s : State) (dir l : Nat) : State :=
  let i := 3 * dir + l
  let k := 3 * dir + 2
  let cause := (chLane s i).swapCause
  let s := modChLane s i (fun c => { c with state := 3, swapAt := none })
  let s := history s 5 1 cause i l
  if (chLane s k).reserve then
    let s := modChLane s k (fun c => { c with reserve := false, state := 2 })
    let s := history s 5 2 0 k l
    let s := if s.chain.lanes.any (·.reserve) then s else history s 5 7 0 k noLogical
    fire s 0x11 2 i [] false
  else
    let s := fire s 0x11 3 i [] false
    { s with chain := { s.chain with singleLane := true } }

/-- LANE_SWAP_FRAME (R402): the swap frame is reached, at the receiving end or at the sending end. -/
def execLaneSwapFrame (dir lane frame : Nat) (s : State) : Host.Outcome State Fault Refusal :=
  .next <|
    if 2 ≤ dir || 3 ≤ lane then s
    else
      let s := if (chLane s (3 * dir + lane)).swapAt.any (· ≤ frame) then swapIn s dir lane else s
      let due := fun (o : Nat × Nat × Nat) => o.1 = dir && o.2.1 = lane && o.2.2 ≤ frame
      if s.chain.outSwaps.any due then
        { s with chain := { s.chain with outSwaps := s.chain.outSwaps.filter (fun o => !due o), outMoved := (s.chain.outMoved ++ [(dir, lane)]).eraseDups } }
      else s

/-- Failed lane checks of a frame are counted (R402). -/
def badChecks (s : State) (dir : Nat) (lanes : List Nat) : State :=
  (lanes.filter (· < 3)).eraseDups.foldl (fun s l => modChLane s (3 * dir + l) (fun c =>
    { c with crc := inc 0xFFFFFFFF c.crc, crcWindow := c.crcWindow ++ [s.chain.frame] })) s

/-- Failures that have left the window of 2^20 frames. -/
def ageWindow (s : State) (dir : Nat) : State :=
  (List.range 3).foldl (fun s l => modChLane s (3 * dir + l) (fun c =>
    { c with crcWindow := c.crcWindow.filter (fun n => (s.chain.frame + 2 ^ 32 - n) % 2 ^ 32 < 2 ^ 20) })) s

/-- CHAIN_LINK_TRAINING (R372, R382): a link has trained; the head sends a Token again when it receives from the link. -/
def execChainLinkTraining (dir : Nat) (lanesUp : List Nat) (s : State) : Host.Outcome State Fault Refusal :=
  .next <|
    if 2 ≤ dir || !s.chip.pwrgd || s.chip.testMode || !s.ch (·.chainPresent) false then s
    else
      let s := (lanesUp.filter (· < 3)).foldl (fun s l => modChLane s (3 * dir + l) (fun c => if c.state = 3 || c.reserve then c else { c with state := 2 })) s
      if 5 ≤ s.chip.step then sendToken s else s

/-- The incoming lane that has the chain calibration of the close: the one whose last retrim is oldest, once old enough (R403). -/
def calLane (s : State) : Option Nat :=
  (leastBy (fun i => (chLane s i).lastTrim) ((List.range 6).filter (fun i => (chLane s i).state = 2))).filter
    (fun i => (chLane s i).lastTrim + s.ch (·.calInterval) (2 ^ 27) ≤ s.now)

/-- CHAIN_CALIBRATION (R403). -/
def execChainCalibration (dir lane : Nat) (r : Retrim) (s : State) : Host.Outcome State Fault Refusal :=
  .next <|
    if dir < 2 && lane < 3 && calLane s = some (3 * dir + lane) then
      let i := 3 * dir + lane
      if retrimPlausible r then modChLane s i (fun c => { c with lastTrim := s.now })
      else
        let s := modChLane s i (fun c => { c with calFails := recent 24 s.now c.calFails ++ [s.now] })
        if 3 ≤ (chLane s i).calFails.length then startSwap s dir lane 4 else s
    else s

/-! ### Frames (R374–R380) -/

/-- The tally byte that the unit writes (R388). -/
def tallyByte (s : State) : Nat := s.pair.tallyCount % 64 + 64 * (s.pair.sendState % 4)

/-- STREAM_FRAME_ARRIVAL (R373–R380): a frame passes the unit. -/
def frameArrives (s : State) (dir : Nat) (f : Frame) : State :=
  let s : State := { s with chain := { s.chain with frame := if f.goodChecks then f.number % 2 ^ 32 else (s.chain.frame + 1) % 2 ^ 32 } }
  if !f.goodChecks then
    -- every field of such a frame is ignored, and it goes on with both checks forced bad
    let s := ageWindow (badChecks s dir f.badLanes) dir
    { s with chain := { s.chain with discard := true, txFrame := some (dir, f) } }
  else
    let s := ageWindow s dir
    let own := s.chain.address.getD 16
    let s := match f.tallies.find? (fun t => isPair s && s.pair.partnerSeen && t.1 = s.pair.partnerAddr) with
      | some t => tally s .chain (t.2 % 64) (t.2 / 64 % 4) (partnerSerial s) true
      | none => s
    let (s, f) := (requestsFor own f).foldl (fun (x : State × Frame) r => answer own x.1 x.2 r) (s, f)
    let (s, c) := controlSlot s f.control
    let (s, f) := fillSlots s dir f
    let f : Frame := { f with
      control := c
      badLanes := []
      tallies := if s.chain.address.isSome && 8 ≤ s.chip.step then tset f.tallies own (tallyByte s) else f.tallies }
    { s with chain := { s.chain with txFrame := some (dir, f) } }

def execStreamFrameArrival (dir : Nat) (f : Frame) (s : State) : Host.Outcome State Fault Refusal :=
  .next (if dir < 2 && s.chip.pwrgd && !s.chip.testMode && s.ch (·.chainPresent) false then frameArrives s dir f else s)

/-- The reply of the partner to this unit's request in a frame that has made its lap. -/
def takenBy (s : State) (f : Frame) : Bool :=
  let h := tget 0 f.headers s.pair.partnerAddr
  f.goodChecks && fld h 11 8 = s.chain.address.getD 16 && fld h 15 12 = 1

/-- STREAM_FRAME_RETURN (R376, R380): a frame with this unit's request comes back one lap later. -/
def frameReturns (s : State) (f : Frame) : State :=
  let sent := (f.number + 2 ^ 32 - s.chain.lap) % 2 ^ 32
  let words := s.chain.outstanding.filter (fun (w : Nat × Nat × List Byte) => w.1 = sent)
  if words.isEmpty then s
  else if takenBy s f then { s with chain := { s.chain with outstanding := s.chain.outstanding.filter (fun (w : Nat × Nat × List Byte) => w.1 ≠ sent) } }
  else
    -- again from the first word of that frame, in order
    let keep := s.chain.outstanding.takeWhile (fun (w : Nat × Nat × List Byte) => w.1 ≠ sent)
    let again := (s.chain.outstanding.drop keep.length).map (fun (w : Nat × Nat × List Byte) => w.2.2)
    { s with chain := { s.chain with
        outstanding := keep
        txQueue := again ++ s.chain.txQueue
        resend := true
        restarts := inc 0xFFFF s.chain.restarts } }

def execStreamFrameReturn (dir : Nat) (f : Frame) (s : State) : Host.Outcome State Fault Refusal :=
  .next (if dir < 2 && s.ch (·.chainPresent) false then frameReturns s f else s)

end Sys2Proof.Machine
end

