-- ==== Sys2Proof/Machine/Close.lean ====
section
/-! DEFINITION. The phases of a close: cut, vote, book entry, read-back (03 R42–R54). -/

namespace Sys2Proof.Machine

/-- Closes run: the engine clock is locked, and the unit has not halted (R6, R54). -/
def closesRun (s : State) : Bool := s.chip.pwrgd && !s.chip.testMode && s.chip.locked && !s.chip.halted

def closer (s : State) (n : Nat) : Closer := (s.closers.units.drop n).headD {}

def modCloser (s : State) (n : Nat) (f : Closer → Closer) : State := { s with closers := { s.closers with units := modAt f n s.closers.units } }

/-- The closers that form verdicts: present and not retired (R48). A closer retired from voting forms none and counts no further disagreement; what it has counted stays (DESIGN CHOICE, log entry 37). -/
def usableClosers (s : State) : List Nat := (List.range 4).filter (fun n => (closer s n).phys.isSome && !(closer s n).retired)

/-- The closers that vote. -/
def votingClosers (s : State) : List Nat := (List.range 4).filter (fun n => (closer s n).votes)

/-! ### The cut (R43, R59, R71, R391) -/

/-- An earlier overlapping write whose effect is still to come: it stands before the record's. -/
def stillBefore (s : State) (r : Rec) (e : Cmd) : Bool :=
  e.pos.lt r.pos && e.writes && e.unsettled && r.rank = s.ledger.rank && !(e.hdr.opcode = 4 && (findRec s e.intent).any Rec.visible) &&
    (match s.cmds.find? (fun c => c.recSeq = some r.seq) with
      | some c => e.overlaps c
      | none => r.range.any (fun g => e.ranged && overlap r.volume g.1 g.2 e.hdr.volume e.hdr.lba e.hdr.blocks))

/-- A record that may be in the cut by itself: whole, countersigned, not held back by an arbitration or by a takeover account. -/
def cutReady (s : State) (r : Rec) : Bool :=
  r.state = .countersigned && (!s.pair.intakeHeld || r.replayed || r.kind = 3 || r.kind = 4 || r.kind = 5) &&
    (r.replayed || !r.range.any (fun g => accountHolds s r.volume g.1 g.2))

/-- The records of the cut, in acceptance order: one whose earlier overlapping writes have landed, ended, or are in the cut too (R59). -/
def cutRecords (s : State) : List Nat :=
  ((replayOrder (s.ledger.recs.filter (cutReady s))).foldl (fun (acc : List Nat) (r : Rec) =>
    if s.cmds.any (fun e => stillBefore s r e && !(e.recSeq.any acc.contains) && !(e.hdr.opcode = 4 && acc.contains e.intent)) then acc else r.seq :: acc) []).reverse

/-- The verdict on a cut (R48). -/
def verdictOf (s : State) (c : List Nat) : Verdict := ⟨s.now, 24544, maxOf c, Config.cutDigest c⟩

/-- CUT (R43, R48) at cycle 24,544: each usable closer forms its verdict; one that errs forms the verdict given. With fewer than two closers that passed at start-up none votes and no close lands (R53). -/
def cut (s : State) (errs : List (Nat × Verdict)) : State :=
  let s := s.at 24544
  if !closesRun s || s.closers.mode = 2 || !s.closers.verdicts.isEmpty || s.quiet then s
  else
    let c := cutRecords s
    let v := fun (n : Nat) => ((errs.find? (fun e => e.1 = n)).map (fun e => e.2)).getD (verdictOf s c)
    { s with closers := { s.closers with cut := c, verdicts := (usableClosers s).map (fun n => (n, v n)) } }

def execCut (errs : List (Nat × Verdict)) (s : State) : Host.Outcome State Fault Refusal :=
  .next (cut s errs)

/-! ### The vote (R49, R50) -/

/-- The verdict that the voting closers bring about; none when the unit halts. -/
def voteOutcome : List Verdict → Option Verdict
  | [a, b, c] => if a = b || a = c then some a else if b = c then some b else none
  | [a, b] => if a = b then some a else none
  | _ => none

/-- A usable closer after the vote: a disagreement is counted, and the fourth within 2^20 closes ends its part at the next boundary. -/
def judgeCloser (now : Nat) (v used : Verdict) (c : Closer) : Closer :=
  if v = used then { c with differed := false }
  else
    let dis := recent 20 now c.dis ++ [now]
    { c with differed := true, dis, leaving := c.leaving || decide (4 ≤ dis.length) }

/-- VOTE (R49, R50) at cycle 24,559. -/
def vote (s : State) : State :=
  let s := s.at 24559
  if !closesRun s || s.closers.verdicts.isEmpty || s.closers.used.isSome || s.quiet then s
  else
    let vs := (s.closers.verdicts.filter (fun e => (votingClosers s).contains e.1)).map (fun e => e.2)
    match voteOutcome vs with
    | none => halt s
    | some u =>
      let bad := countIf (fun (e : Nat × Verdict) => e.2 ≠ u) s.closers.verdicts
      let s := s.closers.verdicts.foldl (fun s e => modCloser s e.1 (judgeCloser s.now e.2 u)) s
      { s with closers := { s.closers with used := some u, total := hold 0xFFFF (s.closers.total + bad) } }

def execVote (s : State) : Host.Outcome State Fault Refusal :=
  .next (vote s)

/-! ### The book entry (R42, R45, R46) -/

/-- The ledger takes book entries: from the end of step 6 on (R28). -/
def booksRun (s : State) : Bool := closesRun s && 7 ≤ s.chip.step && s.chip.step ≠ 14

/-- BOOK_ENTRY_ISSUE (R42, R45) at cycle 24,560, for the voted verdict; in a pair the Standby gets the entry too (R46, R385). -/
def bookIssue (s : State) : State :=
  let s := s.at 24560
  match s.closers.used with
  | none => s
  | some v =>
    if !booksRun s || s.closers.entry ≠ 0 || s.quiet then s
    else
      let b : Book := { close := s.now, verdict := v, cut := s.closers.cut, readBack := false, partnerHeld := s.ledger.mode ≠ 1, torn := false }
      streamBook (appendCopies { s with closers := { s.closers with entry := 1, books := s.closers.books ++ [b] } } 0 1) v

def execBookEntryIssue (s : State) : Host.Outcome State Fault Refusal :=
  .next (bookIssue s)

/-- BOOK_ENTRY_COMPLETE (R45). -/
def execBookEntryComplete (s : State) : Host.Outcome State Fault Refusal :=
  .next (if s.closers.entry = 1 then { s with closers := { s.closers with entry := 2 } } else s)

/-- The entry of this close has not completed: the close lands nothing, and its records join the next cut (R45). -/
def skipBook (s : State) : State :=
  if s.closers.entry = 1 then
    fire { s with closers := { s.closers with
      entry := 0, cut := []
      books := s.closers.books.filter (fun b => b.close ≠ s.now)
      skipped := inc 0xFFFF s.closers.skipped } } 0x04 0 0 (natLe 8 s.now) false
  else s

/-- BOOK_SKIPPED (R45) at cycle 25,599. -/
def execBookSkipped (s : State) : Host.Outcome State Fault Refusal :=
  .next (skipBook (s.at 25599))

/-- QUIET_SLICE_START (R42, R44) at cycle 24,576. -/
def execQuietSliceStart (s : State) : Host.Outcome State Fault Refusal :=
  .next (s.at 24576)

/-- The entry whose read-back is next: the oldest of an earlier close that has not been read back and waits for no rewrite. -/
def unreadBook (s : State) : Option Book := s.closers.books.find? (fun b => !b.readBack && !b.torn && b.close < s.now)

/-- The entry that is rewritten next: the oldest whose read-back has failed. -/
def tornBook (s : State) : Option Book := s.closers.books.find? (fun b => b.torn)

def modBook (s : State) (close : Nat) (f : Book → Book) : State :=
  { s with closers := { s.closers with books := modIf (fun b => b.close = close) f s.closers.books } }

/-- BOOK_READBACK (R46): the read-back of the entry succeeds, or a rewrite is due. -/
def bookReadback (s : State) (good : Bool) : State :=
  match unreadBook s with
  | none => s
  | some b => modBook s b.close (fun b => if good then { b with readBack := true } else { b with torn := true })

def execBookReadback (good : Bool) (s : State) : Host.Outcome State Fault Refusal :=
  .next (bookReadback s good)

/-- BOOK_REWRITE (R44, R46): the entry is rewritten from the verdict that the closers keep, not in the quiet slice. -/
def bookRewrite (s : State) : State :=
  match tornBook s with
  | none => s
  | some b =>
    if s.quiet || !closesRun s then s
    else modBook { s with closers := { s.closers with rewritten := inc 0xFFFF s.closers.rewritten } } b.close (fun b => { b with torn := false })

def execBookRewrite (s : State) : Host.Outcome State Fault Refusal :=
  .next (bookRewrite s)

/-! ### Closers in row 2 of R47 (R50, R51) -/

/-- A voting closer that reached its limit is retired. -/
def retireCloser (s : State) (n : Nat) : State :=
  let p := ((closer s n).phys).getD n
  let s := modCloser s n (fun c => { c with votes := false, retired := true, leaving := false })
  fire (history { s with closers := { s.closers with eventClose := s.now } } 3 1 1 p n) 0x03 1 n [] false

/-- The reserve closer is withdrawn. -/
def withdrawCloser (s : State) : State :=
  let p := ((closer s 3).phys).getD 3
  let s := modCloser s 3 (fun c => { c with retired := true, leaving := false })
  let s := history { s with closers := { s.closers with eventClose := s.now } } 3 1 1 p noLogical
  fire (history s 3 7 0 p noLogical) 0x03 3 3 [] true

/-- The reserve closer is admitted under its own number: the last of its kind. -/
def admitCloser (s : State) : State :=
  let p := ((closer s 3).phys).getD 3
  let s := modCloser s 3 (fun c => { c with votes := true })
  let s := history { s with closers := { s.closers with eventClose := s.now } } 3 2 0 p 3
  fire (history s 3 7 0 p noLogical) 0x03 2 3 [] false

/-- MODE follows the number of voting closers. -/
def closerMode (s : State) : State :=
  let n := (votingClosers s).length
  if n = 3 && s.closers.mode = 1 then fire (setCloserMode s 0) 0x03 5 0xFFFFFFFF [] false
  else if n = 2 && s.closers.mode = 0 then fire (setCloserMode s 1) 0x03 4 0xFFFFFFFF [] true
  else s

/-- Retirements, withdrawal and admission at a boundary. -/
def closerBoundary (s : State) : State :=
  let s := ((List.range 4).filter (fun n => (closer s n).leaving && (closer s n).votes)).foldl retireCloser s
  let s := if (closer s 3).leaving && !(closer s 3).votes then withdrawCloser s else s
  let s := if (votingClosers s).length < 3 && reserveReady s && !(closer s 3).differed && s.closers.used.isSome then admitCloser s else s
  closerMode s

end Sys2Proof.Machine
end

