-- ==== Sys2Proof/Machine/Startup.lean ====
section
/-! DEFINITION. Start-up and power: PWRGD, PERST#, charter and firmware choice, chain enumeration, ledger recovery, registry quorum, column verification (02 R24–R37, 03 R52, R53, R66, 05 R124, 08 R194, R217, 17 R458, R460, 18 R467–R477). -/

namespace Sys2Proof.Machine

/-! ### What a start-up keeps (R6, R66, R243, R460) -/

/-- The book entries that are whole: an entry not completed names no record. -/
def wholeBooks (s : State) : List Book := if s.closers.entry = 1 then s.closers.books.filter (fun b => b.close ≠ s.now) else s.closers.books

/-- The ledger's contents: records, copies, map bits, blocks. Event times, in closes, do not carry over. -/
def carriedLedger (s : State) : Ledger :=
  let l := s.ledger
  { formatted := l.formatted, die0 := l.die0, die1 := l.die1, recs := l.recs, copies := l.copies, rank := l.rank
    blocks := l.blocks.map (fun e => (e.1, { e.2 with corrected := [], trimFails := [], due := if e.2.due.isSome then some 1 else none }))
    recordBlocks := l.recordBlocks, areaWrites := l.areaWrites, appended := l.appended, reserveLeft := l.reserveLeft, retiredBlocks := l.retiredBlocks
    regions := l.regions.map (fun r => { r with covered := false, awaiting := false, busy := false })
    assigned := l.assigned, cells := l.cells }

/-- A member's record: retired members stay retired, error events stay counted in operating time; the drive is found again. -/
def carriedMember (m : Member) : Member :=
  let out := m.state = 3 || m.state = 4 || m.state = 6 || m.state = 7
  if out then { state := m.state, events := m.events, fault := m.fault, serial := m.serial, sasAddr := m.sasAddr, capacity := m.capacity, sata := m.sata }
  else { events := m.events }

/-- Retirements in the history that no fuse records yet (R460). -/
def unfused (s : State) : List (Nat × Nat) :=
  (((s.reserves.history.filter (fun e => (e.action = 1 || e.action = 4) && [1, 2, 3, 8].contains e.element)).map (fun e => (e.element, e.physical))).eraseDups).filter
    (fun e => !s.fuses.retired.contains e)

/-- What is kept when the part loses power or takes a fundamental reset: fuses, flash, ledger, daybook, reserve history, what the drives hold, host memory, and the queue of commands. Everything else is as after reset. -/
def carried (s : State) : State :=
  let d := s.degrade
  { State.reset with
    pending := s.pending
    fuses := { serial := s.fuses.serial, keys := s.fuses.keys, keyProgrammed := s.fuses.keyProgrammed, keyRevoked := s.fuses.keyRevoked
               charterBlown := s.fuses.charterBlown, fwBlown := s.fuses.fwBlown, retired := s.fuses.retired }
    flash := { cells := s.flash.cells, torn := s.flash.torn }
    closers := { books := wholeBooks s }
    ledger := carriedLedger s
    drives := { members := s.drives.members.map (fun e => (e.1, carriedMember e.2)) }
    degrade := { updates := d.updates, loss := s.registry.loss ++ d.loss.filter (fun e => !e.durable), nextFind := d.nextFind, scrubbed := d.scrubbed, scrubBase := d.scrubBase
                 placed := d.placed, replacing := d.replacing, roster := d.roster, checked := d.checked }
    vaults := { vaults := s.vaults.vaults.map (fun v => { volume := v.volume, supers := v.supers, objects := v.objects, timeMs := v.timeMs })
                sessions := s.vaults.sessions, nextSession := s.vaults.nextSession, effects := s.vaults.effects }
    pair := { witness := s.pair.witness }
    mgmt := { opMs := s.mgmt.opStored, opStored := s.mgmt.opStored, powerCycles := s.mgmt.powerCycles }
    daybook := { ring := s.daybook.ring, next := (s.daybook.writing.map (fun e => e.1)).getD s.daybook.next }
    reserves := { history := s.reserves.history, nextSeq := s.reserves.nextSeq, mappedOut := s.reserves.mappedOut, fusePending := unfused s }
    registry := { s.registry with agree := [] }
    hostMem := s.hostMem
    free := s.free }

/-! ### Step 3 (R21, R24, R37, R52, R53) -/

/-- The part enters Recovery; entered at step 4 it sends no message and leaves INTA deasserted from then on (R37). -/
def recovery (s : State) (reason : Nat) (at3 : Bool) : State :=
  { s with chip := { s.chip with step := 14, reason, stepClose := s.now, recoveryAt3 := at3 }, ints := if at3 then s.ints else { s.ints with inta := false, kept := [] } }

/-- The built-in test of the closers: those that pass take the numbers 0 to 3 in physical order. -/
def testClosers (s : State) (pass : List Bool) : State :=
  let tested := (List.range 4).filter (fun p => !fusedOut s 3 p)
  let good := tested.filter (fun p => pass.getD p true)
  let bad := tested.filter (fun p => !pass.getD p true)
  let s := bad.foldl (fun s p => history s 3 1 7 p noLogical) s
  let s := if tested.length = 4 && !bad.isEmpty then history s 3 7 0 (bad.headD 0) noLogical else s
  let unit := fun (n : Nat) => match good[n]? with
    | some p => ({ phys := some p, votes := decide (n < 3) && decide (2 ≤ good.length) } : Closer)
    | none => {}
  let s : State := { s with closers := { s.closers with
    units := (List.range 4).map unit
    mode := if 3 ≤ good.length then 0 else if good.length = 2 then 1 else 2 } }
  let s := ((List.range 4).filter (fun p => !good.contains p)).foldl (fun s p => fire s 0x03 7 p [] true) s
  if good.length = 2 then fire s 0x03 4 0xFFFFFFFF [] true else s

/-- The SAS lanes of the charter's ports (R350). -/
def portLanes (ports : List PortDef) : Tbl SasLane :=
  ((List.range ports.length).zip ports).foldl (fun t e =>
    let t := (bitsOf 16 e.2.lanes).foldl (fun t n => tset t n { state := 1, port := e.1, inPort := true }) t
    (bitsOf 16 e.2.reserves).foldl (fun t n => tset t n { port := e.1, reserve := true }) t) []

/-- The charter is loaded, and step 4 begins. -/
def loadCharter (s : State) (c : Charter) (slot : Nat) : State :=
  { s with
    charter := some c
    chip := { s.chip with step := 4, stepClose := s.now, charterSel := slot }
    sas := portLanes c.ports
    gov := { groups := c.groups.foldl (fun t g => tset t g.group {}) [] }
    vols := c.volumes.foldl (fun t d => tset t d.volume { state := 1, layout := d.layout }) []
    vaults := { s.vaults with vaults := c.vaults.map (fun d => (s.vaults.vaults.find? (fun v => v.volume = d.volume)).getD { volume := d.volume }) }
    ledger := { s.ledger with mode := if c.units = 1 then 0 else 3 } }

/-- The boot ROM checks both charter slots and chooses one, or the part enters Recovery. -/
def chooseCharter (s : State) : State :=
  let a := slotCheck s 0 0
  let b := slotCheck s 0 1
  let s : State := { s with chip := { s.chip with charter0 := a.1, charter1 := b.1 } }
  let seq := fun (x : Nat × Option Charter) => (x.2.map (·.seq)).getD 0
  match chooseSlot s.chip.bootSlot (a.1 = 0) (b.1 = 0) (seq a) (seq b) with
  | none => recovery s (if s.fuses.keyProgrammed = 0 then 4 else 1) true
  | some k => match (if k = 0 then a.2 else b.2) with
    | some c => loadCharter s c k
    | none => recovery s 1 true

/-- Start-up from step 3: the engine clock locks and the close count begins at 0. -/
def startUp (s : State) (chip : Chip) (pass : List Bool) : State :=
  let s : State := { carried s with chip := { chip with step := 3 } }
  if chip.railsBad then s else chooseCharter (testClosers s pass)

/-- PWRGD_RISE (R28, R467, R471): straps are sampled; TEST_EN high leads to the test state. -/
def execPwrgdRise (p : PowerOn) (s : State) : Host.Outcome State Fault Refusal :=
  .next <|
    if s.chip.pwrgd then s
    else
      let chip : Chip := { pwrgd := true, testMode := p.testEn, bootSlot := p.bootSlot, chainHead := p.chainHead, smbAddr := 0x58 + p.smbAddr % 4,
                           railsBad := !p.railsInTolerance, locked := !p.testEn }
      if p.testEn then { carried s with chip } else startUp s chip p.closersPass

/-- PWRGD_FALL (R472): a ledger word write in progress is completed when the hold-up is met, and everything that is not kept is lost. -/
def execPwrgdFall (holdUp : Bool) (s : State) : Host.Outcome State Fault Refusal :=
  .next <|
    if !s.chip.pwrgd then s
    else
      let s := flashCut (fuseCut s)
      carried (if holdUp && s.closers.entry = 1 then { s with closers := { s.closers with entry := 2 } } else s)

/-- PERST_DEASSERT (R243, R244): start-up runs from step 3; the straps keep their samples. -/
def execPerstDeassert (closersPass : List Bool) (s : State) : Host.Outcome State Fault Refusal :=
  .next <|
    if !s.chip.pwrgd || s.chip.testMode || !s.chip.perst then s
    else
      let chip : Chip := { pwrgd := true, bootSlot := s.chip.bootSlot, chainHead := s.chip.chainHead, smbAddr := s.chip.smbAddr,
                           railsBad := s.chip.railsBad, locked := true, jtag := s.chip.jtag }
      startUp s chip closersPass

/-! ### Step 4 (R25, R27, R194, R217, R460, R477) -/

/-- GiB of DRAM in use; none when neither channel trains. The part supports 512 GiB over two channels, 256 on each (R17). -/
def dramInUse (a b : DramFinding) : Option Nat :=
  match a, b with
  | .trained x, .trained y => some (2 * min 256 (min x y))
  | .trained x, _ => some (min 256 x)
  | _, .trained y => some (min 256 y)
  | _, _ => none

/-- The tellers that pass their test take the logical numbers in physical order; the rest are reserves. -/
def placeTellers (s : State) (failing : List Nat) : State :=
  let tested := (List.range 136).filter (fun p => !fusedOut s 1 p)
  let good := tested.filter (fun p => !failing.contains p)
  let bad := tested.filter failing.contains
  let act := good.take 128
  let phys := (List.range 136).map (fun p =>
    (p, ({ state := if good.contains p then (if act.contains p then 0 else 2) else if bad.contains p then 4 else 5
           logical := ((act.findIdx? (· = p))).getD 0 } : Teller)))
  let s : State := { s with tellers := { s.tellers with
    phys, store := [0, 1, 2]
    slots := ((List.range act.length).zip act).map (fun e => (e.1, { phys := some e.2 }))
    branches := (List.range 16).map (fun b => (b, {})) } }
  let s := bad.foldl (fun s p => history s 1 3 7 p noLogical) s
  let s := match bad.getLast? with
    | some p => if good.length ≤ 128 then tellersExhausted s p else s
    | none => s
  if good.length < 128 then fire s 0x0E 1 good.length [] true else s

/-- The first 256 banks that are not left out are mapped; the rest are reserves. -/
def placeBanks (s : State) : State :=
  let good := (List.range 264).filter (fun b => !fusedOut s 2 b)
  let act := good.take 256
  { s with scratch := { s.scratch with banks := (List.range 264).map (fun b =>
      (b, ({ state := if act.contains b then 0 else 2, mapped := act.contains b, retired := !good.contains b, logical := ((act.findIdx? (· = b))).getD 0 } : Bank))) } }

/-- Map cache ways that are not left out are enabled. -/
def placeWays (s : State) : State :=
  { s with map := { s.map with ways := (List.range 16).map (fun w => { enabled := !fusedOut s 8 w }) } }

/-- The firmware slot: a valid one whose security version meets the floor, or the reason of Recovery. -/
def chooseFirmware (s : State) (floor : Nat) : Nat ⊕ Nat :=
  let a := (slotCheck s 1 0).1
  let b := (slotCheck s 1 1).1
  let h := fun (k : Nat) => flashBytes s (slotBase 1 k) 512
  let ok := fun (k code : Nat) => decide (code = 0) && decide (floor ≤ le (h k) 24 2)
  match chooseSlot s.chip.bootSlot (ok 0 a) (ok 1 b) (le (h 0) 16 8) (le (h 1) 16 8) with
  | some k => .inl k
  | none => .inr (if a ≠ 0 && b ≠ 0 then 2 else 3)

/-- The cores start; step 5 follows, or step 6 where the charter has no chain section. -/
def startFirmware (s : State) (k : Nat) (failing : List Nat) : State :=
  let h := flashBytes s (slotBase 1 k) 512
  let s : State := { s with chip := { s.chip with fwSel := k, fwSeq := le h 16 8, fwSv := le h 24 2 } }
  let s := placeWays (placeBanks (placeTellers s failing))
  let s := { s with mgmt := { s.mgmt with state := 0, opClose := s.now } }
  let s := (s.ch (·.ignoredVolumes) []).foldl (fun s i => fire s 0x07 2 i [] false) s
  if s.closers.mode = 2 then halt s
  else if s.ch (·.chainPresent) false then sendToken (toStep s 5) else toStep s 6

/-- FIRMWARE_CHOICE (R25, R28, R477). -/
def firmwareChoice (s : State) (a b : DramFinding) (failing : List Nat) : State :=
  if !alive s || s.chip.halted || s.chip.step ≠ 4 then s
  else match dramInUse a b with
    | none => s
    | some g =>
      let s : State := { s with
        reserves := { s.reserves with dramGib := g }
        chip := { s.chip with fw0 := (slotCheck s 1 0).1, fw1 := (slotCheck s 1 1).1 } }
      match chooseFirmware s (s.ch (·.floor) 0) with
      | .inr reason => recovery s reason false
      | .inl k => startFirmware s k failing

def execFirmwareChoice (a b : DramFinding) (failing : List Nat) (s : State) : Host.Outcome State Fault Refusal :=
  .next (firmwareChoice s a b failing)

/-! ### Step 5 (R31, R373, R382) -/

/-- CHAIN_ENUMERATION_END (R382): the unit holds an address and the ring has closed, one lap within 8 frame periods. -/
def enumerationEnd (s : State) (lap : Nat) : State :=
  if alive s && s.chip.step = 5 && s.chain.address.isSome && 1 ≤ lap && lap ≤ 8 then
    let s : State := { s with chain := { s.chain with lap, ringUp := true } }
    let s := if s.chain.units ≠ s.ch (·.expectedUnits) 1 then fire s 0x07 4 s.chain.units [] false else s
    toStep s 6
  else s

def execChainEnumerationEnd (lap : Nat) (s : State) : Host.Outcome State Fault Refusal :=
  .next (enumerationEnd s lap)

/-- CHAIN_ENUMERATION_TIMEOUT (R28, R31). -/
def execChainEnumerationTimeout (s : State) : Host.Outcome State Fault Refusal :=
  .next (if alive s && s.chip.step = 5 && s.chip.stepClose + 65536 ≤ s.now then
    toStep { s with chip := { s.chip with chainAbsent := true } } 6 else s)

/-! ### Step 6 (R32, R33, R66, R124, R126, R409, R410, R424, R458) -/

/-- The ledger formatted empty; the reserve history and the daybook begin again. What this start-up found stays listed while its fuse is pending. -/
def formatLedger (s : State) : State :=
  { s with
    ledger := { mode := s.ledger.mode, formatted := true, die0 := s.ledger.die0, die1 := s.ledger.die1, cells := [] }
    closers := { s.closers with books := [] }
    bands := s.registry.bands
    vaults := { s.vaults with sessions := [], effects := [] }
    daybook := { s.daybook with ring := [], next := 0 }
    reserves := { s.reserves with history := s.reserves.history.filter (fun e => e.cause = 7 && s.reserves.fusePending.contains (e.element, e.physical)), mappedOut := [] } }

/-- A ledger that has lost its contents: the values of the registry copy, and the regions of the newest checkpoint to be resynchronised. -/
def loseLedger (s : State) : State :=
  let t := tget (0, 0) s.registry.opTimes s.fuses.serial
  let s := coverRegions (takeCursors (formatLedger s))
  let left := (s.registry.ckpt.map (·.entries)).getD []
  { s with
    chip := { s.chip with ledgerLost := true }
    -- the index area held the entries not yet durable (R156)
    degrade := { s.degrade with loss := s.degrade.loss.filter (·.durable) }
    ledger := { s.ledger with resyncLeft := left, resyncTotal := left.length }
    mgmt := { s.mgmt with opMs := t.1, opStored := t.1, powerCycles := (t.2 + 1) % 2 ^ 32 }
    -- a reshape restarts from the first region (R188)
    reshapes := { s.reshapes with slots := (List.range 4).map (fun k =>
      let r := rsh s k
      if 2 ≤ r.state && r.state ≤ 4 then { r with region := (copyRegions s k).headD 0, row := 0, done := 0, started := [], regionDone := false } else r) } }

/-- The records that replay keeps (R66): those that had landed, also where the entry of their
close is torn (DESIGN CHOICE, log entry 37), and those that a whole book entry names. -/
def keptRecs (s : State) : List Rec :=
  replayOrder (s.ledger.recs.filter (fun r => r.visible || r.state = .countersigned && s.closers.books.any (fun b => b.cut.contains r.seq)))

/-- One record is replayed; one that was on disk stays on disk. -/
def replayOne (s : State) (r : Rec) : State :=
  let q := s.ledger.nextSeq
  let s := adoptOne s { r with reported := true } true
  modRec s q (fun x => if r.state = .onDisk then { x with state := .onDisk, rows := [], landedAt := s.now + 1 } else { x with landedAt := s.now + 1 })

/-- Replay, in the order of R33, over the volume map and cursors of the registry. -/
def replay (s : State) : State :=
  let rs := keptRecs s
  let s : State := { s with
    ledger := { s.ledger with recs := [], nextSeq := 1, rank := 0 }, bands := s.registry.bands
    mgmt := { s.mgmt with powerCycles := (s.mgmt.powerCycles + 1) % 2 ^ 32, opMs := s.mgmt.opStored } }
  let s := coverRegions (dropOrphans (rs.foldl replayOne (takeCursors s)))
  { s with
    closers := { s.closers with books := [] }
    vaults := { s.vaults with sessions := [], effects := [] } }

/-- sPPR is applied again to the rows that the history lists as Repaired, or they are mapped out where DRAM repair is disabled (R458). -/
def reapplyRepairs (s : State) : State :=
  let rows := (((s.reserves.history.filter (fun e => e.element = 7 && e.action = 5)).map (·.physical)).eraseDups).filter (fun r => !s.reserves.mappedOut.contains r)
  if s.ch (·.dramRepair) true then { s with reserves := { s.reserves with repaired := rows, repairedCount := rows.length } }
  else rows.foldl (fun s r => history { s with reserves := { s.reserves with mappedOut := s.reserves.mappedOut ++ [r] } } 7 6 0 r noLogical) s

/-- Pools whose retirements have no home may have one under this charter (R141), and those whose retirements have no pass yet wait for one (R147). -/
def queuePasses (s : State) : State :=
  let s := (s.degrade.updates.filter (fun u => u.choice = .none && ((mem s u.member).state = 3 || (mem s u.member).state = 4))).foldl (fun s u =>
    match (layoutOf s u.layout).bind (fun l => (l.pool u.pool).map (fun p => (l, p))) with
    | some (l, p) => if (hotSparesOf s l u.pool p).isEmpty then s else retireIn s l u.pool p u.member
    | none => s) s
  let ps := ((s.degrade.updates.filter (fun u => u.choice ≠ .none && !u.rebuilt)).map (fun u => (u.layout, u.pool))).eraseDups
  { s with degrade := { s.degrade with waitingPools := ps.filter (fun e => (passOf s e.1 e.2).isNone) } }

/-- LEDGER_RECOVERY (R124): replay, or a format; then step 7. -/
def ledgerRecovery (s : State) (readable : Bool) : State :=
  if !alive s || s.chip.halted || s.chip.step ≠ 6 then s
  else
    let s :=
      if !s.ledger.formatted then
        let s := coverRegions (takeCursors (formatLedger s))
        { s with mgmt := { s.mgmt with opMs := 0, opStored := 0, powerCycles := 1 } }
      else if readable then replay s
      else loseLedger s
    let s := toStep (queuePasses (reapplyRepairs { s with reserves := { s.reserves with last := s.reserves.history.getLast? } })) 7
    daybookStart { s with mgmt := { s.mgmt with opClose := s.now } }

def execLedgerRecovery (readable : Bool) (s : State) : Host.Outcome State Fault Refusal :=
  .next (ledgerRecovery s readable)

/-! ### Step 7 (R33–R36, R123, R173, R192) -/

/-- The layouts in use by volumes that may come on line. -/
def layoutsInUse (s : State) : List Nat :=
  let on := (s.vols.filter (fun e => e.2.offReason = 0)).map (fun e => e.1)
  ((s.vols.filter (fun e => on.contains e.1)).map (fun e => e.2.layout) ++ ((s.bands.filter (fun b => on.contains b.volume)).map (·.layout)) ++
    (s.reshapes.slots.filter (fun r => r.state ≠ 0 && r.state ≠ 6 && on.contains r.volume)).map (·.target)).eraseDups

/-- The layouts that bands use, or that a recorded reshape has for its target (R34, R175). -/
def usedLayouts (s : State) : List Nat :=
  (s.bands.map (·.layout) ++ (s.registry.reshapes.filter (fun r => r.state ≠ 0)).map (·.target)).eraseDups

def layoutVerified (s : State) (i : Nat) : Bool := s.chip.layoutOk.getLsbD i || s.chip.layoutBad.getLsbD i

/-- Step 7 ends when every layout in use has its result. -/
def endStepSeven (s : State) : State :=
  if s.chip.step = 7 && majority s s.registry.agree && (layoutsInUse s).all (layoutVerified s) then enterStepEight s else s

/-- The registry's layout of a volume in use is in the charter, identical (R34). -/
def layoutAgrees (s : State) (i : Nat) : Bool :=
  match s.registry.layouts.find? (fun l => l.index = i) with
  | some l => layoutOf s i = some l
  | none => (layoutOf s i).isSome

/-- The layout book is compared: volumes whose layout disagrees stay off line, and a reshape whose target disagrees is cancelled. -/
def compareBooks (s : State) : State :=
  let s : State := { s with vols := s.vols.map (fun e => if layoutAgrees s e.2.layout || !s.bands.any (fun b => b.volume = e.1 && b.layout = e.2.layout) then e else (e.1, { e.2 with state := 1, offReason := 1 })) }
  (List.range 4).foldl (fun s k =>
    let r := rsh s k
    if r.state ≠ 0 && r.state ≤ 4 && !layoutAgrees s r.target then
      fire (cancelReshape s k) 0x0D 2 r.volume (natLe 1 r.source ++ natLe 1 r.target) false
    else s) s

/-- Members whose capacity does not reach the end of every area placed on them are to be retired (R173). -/
def shortMembers (s : State) : State :=
  { s with drives := { s.drives with members := s.drives.members.map (fun e =>
      if e.2.present && (e.2.state = 1 || e.2.state = 2 || e.2.state = 5) && e.2.capacity < areaEnd s e.1 then (e.1, { e.2 with retiring := some 4 }) else e) } }

/-- One try at the quorum; members short of the registry area count as unreadable. -/
def quorum (s : State) (agree short : List Nat) : State :=
  -- a member whose capacity does not reach the end of the registry area counts as unreadable (R123)
  let short := (short ++ agree.filter (fun m => (mem s m).present && (mem s m).capacity < registryEnd s)).eraseDups
  let s := short.foldl (fun s m => fire s 0x07 3 m [] false) s
  let good := agree.filter (fun m => !short.contains m)
  if majority s good then
    let s : State := { s with registry := { s.registry with agree := good }, chip := { s.chip with reason := 0 } }
    let s := if s.chip.step = 13 then toStep s 7 else s
    endStepSeven (shortMembers (compareBooks s))
  else if s.chip.step = 13 then s
  else { toStep s 13 with chip := { (toStep s 13).chip with reason := 5 } }

/-- REGISTRY_QUORUM_CHECK (R33, R34). -/
def execRegistryQuorumCheck (agree short : List Nat) (s : State) : Host.Outcome State Fault Refusal :=
  .next (if alive s && !s.chip.halted && s.chip.step = 7 && !majority s s.registry.agree then quorum s agree short else s)

/-- REGISTRY_QUORUM_RETRY (R33): every 65,536 closes while Held. -/
def execRegistryQuorumRetry (agree short : List Nat) (s : State) : Host.Outcome State Fault Refusal :=
  .next (if alive s && !s.chip.halted && s.chip.step = 13 && s.chip.stepClose < s.now && (s.now - s.chip.stepClose) % 65536 = 0 then quorum s agree short else s)

/-- The result of a layout's column check (R35, R36). -/
def verifyColumns (s : State) (l : Layout) : State :=
  let m : BitVec 64 := BitVec.ofNat 64 (2 ^ l.index)
  if columnCheck l then { s with chip := { s.chip with layoutOk := s.chip.layoutOk ||| m } }
  else
    let s : State := { s with
      chip := { s.chip with layoutBad := s.chip.layoutBad ||| m }
      vols := s.vols.map (fun e => if e.2.layout = l.index && e.2.offReason = 0 then (e.1, { e.2 with offReason := if s.chip.step = 15 then e.2.offReason else 2 }) else e) }
    fire s 0x07 1 l.index [] false

/-- The layout whose background check is next: the first of the book without a result (R35). -/
def nextUnverified (s : State) : Option Nat := ((s.ch (·.layouts) []).map (·.index)).find? (fun i => !layoutVerified s i)

/-- COLUMN_VERIFICATION (R35, R36): of a layout in use during step 7, of the others in book order after step 9. -/
def columnVerification (s : State) (i : Nat) : State :=
  match layoutOf s i with
  | none => s
  | some l =>
    if !alive s || s.chip.halted || layoutVerified s i then s
    else if s.chip.step = 7 && majority s s.registry.agree && (layoutsInUse s).contains i then endStepSeven (verifyColumns s l)
    else if s.chip.step = 15 && nextUnverified s = some i then verifyColumns s l
    else s

def execColumnVerification (layout : Nat) (s : State) : Host.Outcome State Fault Refusal :=
  .next (columnVerification s layout)

/-! ### Step 9 (R28, R34) -/

/-- The state that a volume takes as it comes on line. -/
def onlineState (s : State) (v : Nat) (x : Volume) : Nat :=
  if s.pair.role = 2 || s.pair.role = 3 then 4
  else if x.offReason ≠ 0 || (volDef s v).any (fun d => d.kind = 1) && !((findVault s v).map (·.online)).getD false then 1
  else if (reshapeOf s v).any (fun r => 2 ≤ r.state && r.state ≤ 4) then 3 else 2

/-- The registry copy takes the charter's layouts, but for one in use that disagrees (R34). -/
def takeLayouts (s : State) : State :=
  let used := usedLayouts s
  let keep := s.registry.layouts.filter (fun l => used.contains l.index)
  { s with registry := { s.registry with present := true, layouts := keep ++ (s.ch (·.layouts) []).filter (fun l => !keep.any (fun k => k.index = l.index)) } }

/-- Row 6 of the boundary that ends step 9: the volumes come on line and the wickets open. -/
def volumesOnline (s : State) : State :=
  if s.chip.step ≠ 9 || s.chip.halted then s
  else
    let s := s.vols.foldl (fun s e => setVolume s e.1 (fun x => { x with state := onlineState s e.1 x })) s
    let s := toStep (takeLayouts s) 15
    let s := if s.resets.kind = 0 then setAllWickets s (fun w => { w with state := 1 }) else s
    let n := s.ch (·.auditInterval) 0
    let s : State := { s with pair := { s.pair with nextAudit := if n = 0 || !isPair s then 0 else s.now + n } }
    fire s 0x00 (b1 s.chip.ledgerLost + 2 * b1 s.chip.chainAbsent) s.pair.role [] false

end Sys2Proof.Machine
end

