-- ==== Sys2Proof/Machine/Boundary.lean ====
section
/-! DEFINITION. CLOSE_BOUNDARY: the boundary that ends a close and opens the next, in the row order of R47, and what else falls due at a boundary. -/

namespace Sys2Proof.Machine

/-- Before row 1: an entry not complete lands nothing (R45); records whose release conditions hold are released (R112); the count of closes advances (R6). -/
def openClose (s : State) : State :=
  let s := releaseRecords (skipBook (s.at 25599))
  { s with clock := { close := s.clock.close + 1, cycle := 0 } }

/-- Row 1: the records of the cut of the close that ended land, when its book entry completed (R43, R45). -/
def landCut (s : State) : State :=
  if s.closers.entry = 2 then
    let s : State := { s with closers := { s.closers with landed := s.now - 1 } }
    s.closers.cut.foldl (fun s q => joinReads (vaultLand (landRec s q) q) q) s
  else s

/-- Row 3: ledger blocks, scratch banks, tellers, map ways, SAS lanes and members; a scratch with no reserve bank left halts the unit (R223). -/
def retirements (s : State) : State :=
  let s := bankBoundary (blockBoundary s)
  let s := if s.scratch.noReserve then halt { s with scratch := { s.scratch with noReserve := false } } else s
  let s := overrunBoundary (tellerBoundary s)
  memberBoundary (laneBoundary ((List.range 16).foldl wayDisable s))

/-- Row 4: queue resets and the steps of a reset (R245, R282); then what an arbitration, a detach or a join decided. -/
def resetRow (s : State) : State :=
  let s := resetBoundary (queueResets (resetAccount s))
  recordBoundary (resumeBoundary (isolateBoundary (winBoundary s)))

/-- Row 5: device states, features, windows and calibration slots. -/
def windowRow (s : State) : State :=
  issueParked (throttleBoundary (assignSlots (windowBoundary (governor (featureBoundary (powerBoundary s))))))

/-- Row 6: reshapes, passes and volumes. -/
def volumeRow (s : State) : State :=
  volumesOnline (lossBoundary (admitBoundary (passBoundary (reshapeBoundary s))))

/-- The book entry of the close at which a command landed has been read back, and the partner holds it where there is one (R46). -/
def bookProven (s : State) (landedAt : Nat) : Bool :=
  match s.closers.books.find? (fun b => b.close + 1 = landedAt) with
  | none => true
  | some b => b.readBack && (b.partnerHeld || s.ledger.mode ≠ 1)

/-- A command whose Completion row 7 of this boundary releases; a write carries the close at which it landed (R297). -/
def releasedBy (s : State) (wait : Bool) (c : Cmd) : Cmd :=
  match c.phase with
  | .landed b =>
    if bookProven s b then
      let r := if c.hdr.opcode = 2 || c.hdr.opcode = 4 then { c with status := 0, detail := 0, result := natLe 8 (b - 1) } else c
      { r with phase := .released }
    else c
  | .due b => if b ≤ s.now && (wait || c.hdr.opcode ≠ 5) then { c with phase := .released } else c
  | _ => c

/-- Row 7: takeover markers and accounts, then the completions; a CLOSE-WAIT stands after every other (R302). -/
def completionRow (s : State) : State :=
  let s := takeoverBoundary s
  let s := settle { s with cmds := s.cmds.map (releasedBy s false) }
  let s := settle { s with cmds := s.cmds.map (releasedBy s true) }
  { s with closers := { s.closers with books := s.closers.books.filter (fun b => !(b.readBack && (b.partnerHeld || s.ledger.mode ≠ 1))) } }

/-- Rings that wait fetch their head shadows (R276). -/
def shadowFetches (s : State) : State :=
  if s.cfg.busMaster then
    { s with returns := { s.returns with rings := s.returns.rings.map (fun e => (e.1, if e.2.waiting && e.2.shadowEn then { e.2 with fetching := true } else e.2)) } }
  else s

/-- Rings at a boundary: draining ends (R279), interrupt delays (R278), head shadows, credit lines (R270). -/
def ringRow (s : State) : State :=
  creditBoundary (shadowFetches (drainEnd' ((List.range 64).foldl (fun s n => irqDelay (ringDrainEnd s n) n) s)))

/-- Waiting reads go on (R61). -/
def readsResume (s : State) : State := (s.cmds.map (fun c => c.hdr.tag)).foldl readWaitEnd s

/-- What the ledger, the planner and the governor count and plan anew at a boundary (R105, R108, R109, R119, R128, R166). -/
def planRowBoundary (s : State) : State :=
  planDestage (ripen (batchDrop (cleanBoundary (thresholds s))))

/-- Requests registered for a boundary, and work that waited (R83, R307, R442). -/
def serviceRow (s : State) : State :=
  let s := maintBoundary (flushBoundary s)
  let s := resumeVault (readsResume (readBoundary s))
  fillPlaces (retryWrites (needsBoundary (retryStepOne (jobsBoundary s))))

/-- Counts of the close that ended. -/
def countRow (s : State) : State := periodBoundary (spinTime (ledgerCounts (sweepBoundary s)))

/-- Commits that waited for cycle 0 are taken, and control-window reads behind them served (R57, R263). -/
def intakeRow (s : State) : State := serveDeferred ((List.range (wicketCount s)).foldl takeWaiting s)

/-- The verdicts and the cut of the close that ended are done with. -/
def clearVote (s : State) : State :=
  { s with closers := { s.closers with cut := [], verdicts := [], used := none, entry := 0 } }

/-- Rows 2 to 8 and what follows, in a unit that goes on. -/
def boundaryRows (s : State) : State :=
  let s := clearVote (closerBoundary s)
  let s := completionRow (volumeRow (windowRow (resetRow (retirements s))))
  let s := countRow (tallyBoundary s)
  if s.chip.halted then intakeRow s
  else
    let s := serviceRow (planRowBoundary (confirmCopies s))
    logBoundary (coalesce (daybookStart (ringRow (intakeRow s))))

/-- The boundary that ends the close of a PERST# assertion: its cut lands, then the unit halts (R244). -/
def perstBoundary (s : State) : State :=
  clearVote (halt { s with chip := { s.chip with perstHalt := false } })

/-- One engine cycle with no command (R6, R42): the count of the cycle rises to the last of the close and waits there for the boundary (log entry 1). -/
def tick (s : State) : State :=
  if s.chip.pwrgd && s.chip.locked && !s.chip.testMode then s.at (s.clock.cycle + 1) else s

/-- CLOSE_BOUNDARY (R47). A unit that has halted counts no close and still answers commits (R54). -/
def closeBoundary (s : State) : State :=
  if !s.chip.pwrgd || s.chip.testMode || !s.chip.locked then s
  else if s.chip.halted then intakeRow { s with clock := { s.clock with cycle := 0 } }
  else
    let s := writeLatePieces (writeLate (landCut (openClose s)))
    if s.chip.perstHalt then perstBoundary s else boundaryRows s

def execCloseBoundary (s : State) : Host.Outcome State Fault Refusal :=
  .next (closeBoundary s)

end Sys2Proof.Machine
end

