-- ==== Sys2Proof/Machine/Dispatch.lean ====
section
/-! DEFINITION. One arm per command of the table: the command's effect on everything but the queue. -/

namespace Sys2Proof.Machine

/-- The effect of one command (95_what_each_step_holds.md: each row is whole and indivisible). -/
def exec (i : Instr) (s : State) : Host.Outcome State Fault Refusal :=
  match i with
  | .pwrgdRise p => Sys2Proof.Machine.execPwrgdRise p s
  | .pwrgdFall holdUp => Sys2Proof.Machine.execPwrgdFall holdUp s
  | .firmwareChoice a b failing => Sys2Proof.Machine.execFirmwareChoice a b failing s
  | .linkTrainingRelease => Sys2Proof.Machine.execLinkTrainingRelease s
  | .chainEnumerationEnd lap => Sys2Proof.Machine.execChainEnumerationEnd lap s
  | .chainEnumerationTimeout => Sys2Proof.Machine.execChainEnumerationTimeout s
  | .ledgerRecovery readable => Sys2Proof.Machine.execLedgerRecovery readable s
  | .registryQuorumCheck agree short => Sys2Proof.Machine.execRegistryQuorumCheck agree short s
  | .registryQuorumRetry agree short => Sys2Proof.Machine.execRegistryQuorumRetry agree short s
  | .columnVerification layout => Sys2Proof.Machine.execColumnVerification layout s
  | .pairNegotiation => Sys2Proof.Machine.execPairNegotiation s
  | .negotiationWaitExpiry => Sys2Proof.Machine.execNegotiationWaitExpiry s
  | .fuseAdvance => Sys2Proof.Machine.execFuseAdvance s
  | .perstAssert ns => Sys2Proof.Machine.execPerstAssert ns s
  | .perstDeassert closersPass => Sys2Proof.Machine.execPerstDeassert closersPass s
  | .closeBoundary => Sys2Proof.Machine.execCloseBoundary s
  | .cut errs => Sys2Proof.Machine.execCut errs s
  | .vote => Sys2Proof.Machine.execVote s
  | .bookEntryIssue => Sys2Proof.Machine.execBookEntryIssue s
  | .bookEntryComplete => Sys2Proof.Machine.execBookEntryComplete s
  | .bookSkipped => Sys2Proof.Machine.execBookSkipped s
  | .quietSliceStart => Sys2Proof.Machine.execQuietSliceStart s
  | .bookReadback good => Sys2Proof.Machine.execBookReadback good s
  | .bookRewrite => Sys2Proof.Machine.execBookRewrite s
  | .headerWrite w off data => Sys2Proof.Machine.execHeaderWrite w off data s
  | .commit t w off data => Sys2Proof.Machine.execCommit t w off data s
  | .quietCommitTake w => Sys2Proof.Machine.execQuietCommitTake w s
  | .apertureWrite w off data => Sys2Proof.Machine.execApertureWrite w off data s
  | .payloadLedgerWrite w n => Sys2Proof.Machine.execPayloadLedgerWrite w n s
  | .ledgerRoomFreed => Sys2Proof.Machine.execLedgerRoomFreed s
  | .read tag => Sys2Proof.Machine.execRead tag s
  | .write tag => Sys2Proof.Machine.execWrite tag s
  | .verify tag => Sys2Proof.Machine.execVerify tag s
  | .release tag => Sys2Proof.Machine.execRelease tag s
  | .closeWait tag => Sys2Proof.Machine.execCloseWait tag s
  | .readWaitEnd tag => Sys2Proof.Machine.execReadWaitEnd tag s
  | .identify tag => Sys2Proof.Machine.execIdentify tag s
  | .getLog tag => Sys2Proof.Machine.execGetLog tag s
  | .getFeature tag => Sys2Proof.Machine.execGetFeature tag s
  | .setFeature tag => Sys2Proof.Machine.execSetFeature tag s
  | .fwDownload tag flashGood => Sys2Proof.Machine.execFwDownload tag flashGood s
  | .fwCommit tag flashGood => Sys2Proof.Machine.execFwCommit tag flashGood s
  | .fwAbandon tag flashGood => Sys2Proof.Machine.execFwAbandon tag flashGood s
  | .reshapeStart tag => Sys2Proof.Machine.execReshapeStart tag s
  | .reshapePause tag => Sys2Proof.Machine.execReshapePause tag s
  | .reshapeResume tag => Sys2Proof.Machine.execReshapeResume tag s
  | .reshapeCancel tag => Sys2Proof.Machine.execReshapeCancel tag s
  | .power tag => Sys2Proof.Machine.execPower tag s
  | .groupWindowRequest tag => Sys2Proof.Machine.execGroupWindowRequest tag s
  | .groupWindowRelease tag => Sys2Proof.Machine.execGroupWindowRelease tag s
  | .groupWindowDeadline tag => Sys2Proof.Machine.execGroupWindowDeadline tag s
  | .hostTimeMark tag => Sys2Proof.Machine.execHostTimeMark tag s
  | .audit tag => Sys2Proof.Machine.execAudit tag s
  | .putBegin tag => Sys2Proof.Machine.execPutBegin tag s
  | .putData tag => Sys2Proof.Machine.execPutData tag s
  | .putEnd tag => Sys2Proof.Machine.execPutEnd tag s
  | .get tag => Sys2Proof.Machine.execGet tag s
  | .stat tag => Sys2Proof.Machine.execStat tag s
  | .list tag => Sys2Proof.Machine.execList tag s
  | .sealObject tag => Sys2Proof.Machine.execSealObject tag s
  | .delete tag => Sys2Proof.Machine.execDelete tag s
  | .auditObject tag => Sys2Proof.Machine.execAuditObject tag s
  | .sessionIdleExpiry session => Sys2Proof.Machine.execSessionIdleExpiry session s
  | .backgroundAudit vault => Sys2Proof.Machine.execBackgroundAudit vault s
  | .digestMismatchRepair vault key => Sys2Proof.Machine.execDigestMismatchRepair vault key s
  | .vaultTimeTick vault => Sys2Proof.Machine.execVaultTimeTick vault s
  | .queueResetRequest w all => Sys2Proof.Machine.execQueueResetRequest w all s
  | .ringEntryWrite ring => Sys2Proof.Machine.execRingEntryWrite ring s
  | .parkedNotice tag => Sys2Proof.Machine.execParkedNotice tag s
  | .irqDelayExpiry ring => Sys2Proof.Machine.execIrqDelayExpiry ring s
  | .retHeadWrite ring value => Sys2Proof.Machine.execRetHeadWrite ring value s
  | .ringEnableSet ring => Sys2Proof.Machine.execRingEnableSet ring s
  | .ringEnableClear ring => Sys2Proof.Machine.execRingEnableClear ring s
  | .creditBaseEnable addr => Sys2Proof.Machine.execCreditBaseEnable addr s
  | .interruptModeChange msix msi intxDisable mme => Sys2Proof.Machine.execInterruptModeChange msix msi intxDisable mme s
  | .vectorUnmask vector => Sys2Proof.Machine.execVectorUnmask vector s
  | .intPendingClear rings mgmt => Sys2Proof.Machine.execIntPendingClear rings mgmt s
  | .intTestFire source => Sys2Proof.Machine.execIntTestFire source s
  | .functionLevelReset => Sys2Proof.Machine.execFunctionLevelReset s
  | .hotReset => Sys2Proof.Machine.execHotReset s
  | .resetComplete => Sys2Proof.Machine.execResetComplete s
  | .busMasterClear => Sys2Proof.Machine.execBusMasterClear s
  | .busMasterSet => Sys2Proof.Machine.execBusMasterSet s
  | .hostReadCompletion r => Sys2Proof.Machine.execHostReadCompletion r s
  | .memoryRequest m => Sys2Proof.Machine.execMemoryRequest m s
  | .configAccess off write => Sys2Proof.Machine.execConfigAccess off write s
  | .d3hotWrite => Sys2Proof.Machine.execD3hotWrite s
  | .dormantEntry => Sys2Proof.Machine.execDormantEntry s
  | .d0Write => Sys2Proof.Machine.execD0Write s
  | .restEntry => Sys2Proof.Machine.execRestEntry s
  | .entryDeadlineExpiry => Sys2Proof.Machine.execEntryDeadlineExpiry s
  | .wakeCause c => Sys2Proof.Machine.execWakeCause c s
  | .aspmL1Entry idleNs substate => Sys2Proof.Machine.execAspmL1Entry idleNs substate s
  | .confirm seq => Sys2Proof.Machine.execConfirm seq s
  | .bookHeld close => Sys2Proof.Machine.execBookHeld close s
  | .releaseNotice seq => Sys2Proof.Machine.execReleaseNotice seq s
  | .postedNotice tag ring seq => Sys2Proof.Machine.execPostedNotice tag ring seq s
  | .negotiate n => Sys2Proof.Machine.execNegotiate n s
  | .token map units => Sys2Proof.Machine.execToken map units s
  | .laneSwap dir lane frame => Sys2Proof.Machine.execLaneSwap dir lane frame s
  | .laneSwapFrame dir lane frame => Sys2Proof.Machine.execLaneSwapFrame dir lane frame s
  | .laneCheckLimit dir lane => Sys2Proof.Machine.execLaneCheckLimit dir lane s
  | .streamFrameArrival dir f => Sys2Proof.Machine.execStreamFrameArrival dir f s
  | .streamFrameReturn dir f => Sys2Proof.Machine.execStreamFrameReturn dir f s
  | .controlMessageReturn m => Sys2Proof.Machine.execControlMessageReturn m s
  | .chainLinkTraining dir lanesUp => Sys2Proof.Machine.execChainLinkTraining dir lanesUp s
  | .tallyReceipt path count state serial good => Sys2Proof.Machine.execTallyReceipt path count state serial good s
  | .pathAlarm path => Sys2Proof.Machine.execPathAlarm path s
  | .partnerFailed => Sys2Proof.Machine.execPartnerFailed s
  | .failedTally path => Sys2Proof.Machine.execFailedTally path s
  | .detachDelayExpiry => Sys2Proof.Machine.execDetachDelayExpiry s
  | .detached => Sys2Proof.Machine.execDetached s
  | .preemptCompletion pos success => Sys2Proof.Machine.execPreemptCompletion pos success s
  | .witnessRecordWrite pos => Sys2Proof.Machine.execWitnessRecordWrite pos s
  | .arbitrationWin => Sys2Proof.Machine.execArbitrationWin s
  | .arbitrationLoss => Sys2Proof.Machine.execArbitrationLoss s
  | .arbitrationTimeout => Sys2Proof.Machine.execArbitrationTimeout s
  | .arbitrationRetry => Sys2Proof.Machine.execArbitrationRetry s
  | .talliesResume => Sys2Proof.Machine.execTalliesResume s
  | .takeoverDecision => Sys2Proof.Machine.execTakeoverDecision s
  | .join => Sys2Proof.Machine.execJoin s
  | .bulkEnd => Sys2Proof.Machine.execBulkEnd s
  | .joinCurrent => Sys2Proof.Machine.execJoinCurrent s
  | .auditMark volume => Sys2Proof.Machine.execAuditMark volume s
  | .auditDigest digests mapDigest witnessInForce => Sys2Proof.Machine.execAuditDigest digests mapDigest witnessInForce s
  | .chainCalibration dir lane r => Sys2Proof.Machine.execChainCalibration dir lane r s
  | .holdoffExpiry layout row => Sys2Proof.Machine.execHoldoffExpiry layout row s
  | .stripeReadComplete work => Sys2Proof.Machine.execStripeReadComplete work s
  | .stripeWriteComplete work => Sys2Proof.Machine.execStripeWriteComplete work s
  | .admissionCheckpoint => Sys2Proof.Machine.execAdmissionCheckpoint s
  | .periodicCheckpoint => Sys2Proof.Machine.execPeriodicCheckpoint s
  | .checkpointComplete acks => Sys2Proof.Machine.execCheckpointComplete acks s
  | .checkpointFailure => Sys2Proof.Machine.execCheckpointFailure s
  | .mapBitSet work => Sys2Proof.Machine.execMapBitSet work s
  | .regionTableFreed => Sys2Proof.Machine.execRegionTableFreed s
  | .resynchronisation volume region => Sys2Proof.Machine.execResynchronisation volume region s
  | .ledgerCorrectedEvent block => Sys2Proof.Machine.execLedgerCorrectedEvent block s
  | .ledgerUncorrectableEvent block what => Sys2Proof.Machine.execLedgerUncorrectableEvent block what s
  | .ledgerBlockRetirement block => Sys2Proof.Machine.execLedgerBlockRetirement block s
  | .wearMove block => Sys2Proof.Machine.execWearMove block s
  | .senseReferenceTrim marginMv shiftMv finished => Sys2Proof.Machine.execSenseReferenceTrim marginMv shiftMv finished s
  | .postingPush p => Sys2Proof.Machine.execPostingPush p s
  | .postingTake x t => Sys2Proof.Machine.execPostingTake x t s
  | .steal x t => Sys2Proof.Machine.execSteal x t s
  | .postingFinish x t => Sys2Proof.Machine.execPostingFinish x t s
  | .parityError x => Sys2Proof.Machine.execParityError x s
  | .tellerSelfTest pass => Sys2Proof.Machine.execTellerSelfTest pass s
  | .holdRequest work => Sys2Proof.Machine.execHoldRequest work s
  | .holdRelease work => Sys2Proof.Machine.execHoldRelease work s
  | .branchGating b => Sys2Proof.Machine.execBranchGating b s
  | .scratchAccess accs => Sys2Proof.Machine.execScratchAccess accs s
  | .bankRetirement bank => Sys2Proof.Machine.execBankRetirement bank s
  | .bankRetention bank => Sys2Proof.Machine.execBankRetention bank s
  | .sweepStep t needed faultAt => Sys2Proof.Machine.execSweepStep t needed faultAt s
  | .planReady layout erased => Sys2Proof.Machine.execPlanReady layout erased s
  | .planFlush => Sys2Proof.Machine.execPlanFlush s
  | .planUnpin layout erased => Sys2Proof.Machine.execPlanUnpin layout erased s
  | .memberCommandCompletion cmd sense data => Sys2Proof.Machine.execMemberCommandCompletion cmd sense data s
  | .memberTimeout cmd => Sys2Proof.Machine.execMemberTimeout cmd s
  | .suspectPoll member => Sys2Proof.Machine.execSuspectPoll member s
  | .suspectLimitExpiry member => Sys2Proof.Machine.execSuspectLimitExpiry member s
  | .discoveryMissingExpiry member => Sys2Proof.Machine.execDiscoveryMissingExpiry member s
  | .lateRead cmd data => Sys2Proof.Machine.execLateRead cmd data s
  | .mediaRepair member layout row chunk position => Sys2Proof.Machine.execMediaRepair member layout row chunk position s
  | .poolUpdateComplete layout pool acks => Sys2Proof.Machine.execPoolUpdateComplete layout pool acks s
  | .rebuildPassStart layout pool => Sys2Proof.Machine.execRebuildPassStart layout pool s
  | .rowRestore pass => Sys2Proof.Machine.execRowRestore pass s
  | .replacementDiscovered member d checksPass => Sys2Proof.Machine.execReplacementDiscovered member d checksPass s
  | .registryRehome member => Sys2Proof.Machine.execRegistryRehome member s
  | .lossEntriesDurable find acks => Sys2Proof.Machine.execLossEntriesDurable find acks s
  | .sealRow layout row position => Sys2Proof.Machine.execSealRow layout row position s
  | .lossAreaFull => Sys2Proof.Machine.execLossAreaFull s
  | .localScrub layout row group chunks => Sys2Proof.Machine.execLocalScrub layout row group chunks s
  | .globalScrubBatch layout row chunks => Sys2Proof.Machine.execGlobalScrubBatch layout row chunks s
  | .reshapeRecordAck slot acks => Sys2Proof.Machine.execReshapeRecordAck slot acks s
  | .deviceStartedReshape volume => Sys2Proof.Machine.execDeviceStartedReshape volume s
  | .regionCopy slot => Sys2Proof.Machine.execRegionCopy slot s
  | .closingEnd group => Sys2Proof.Machine.execClosingEnd group s
  | .shelfPowerOk group allOk => Sys2Proof.Machine.execShelfPowerOk group allOk s
  | .staggerStep group => Sys2Proof.Machine.execStaggerStep group s
  | .groupReady group => Sys2Proof.Machine.execGroupReady group s
  | .spinUpLimitExpiry group => Sys2Proof.Machine.execSpinUpLimitExpiry group s
  | .groupDown group => Sys2Proof.Machine.execGroupDown group s
  | .broadcastChange => Sys2Proof.Machine.execBroadcastChange s
  | .discoveryRunEnd drives expanders enclosures beyond => Sys2Proof.Machine.execDiscoveryRunEnd drives expanders enclosures beyond s
  | .sasRetrim lane r => Sys2Proof.Machine.execSasRetrim lane r s
  | .retrimDeferral lane => Sys2Proof.Machine.execRetrimDeferral lane s
  | .sasLaneFlag lane => Sys2Proof.Machine.execSasLaneFlag lane s
  | .sasLaneNotUp lane => Sys2Proof.Machine.execSasLaneNotUp lane s
  | .watchdogExpiry core slotPasses => Sys2Proof.Machine.execWatchdogExpiry core slotPasses s
  | .operatingTimeTick => Sys2Proof.Machine.execOperatingTimeTick s
  | .sensorSample v => Sys2Proof.Machine.execSensorSample v s
  | .smbusSetAddress addr => Sys2Proof.Machine.execSmbusSetAddress addr s
  | .smbusRead => Sys2Proof.Machine.execSmbusRead s
  | .smbusWrite value => Sys2Proof.Machine.execSmbusWrite value s
  | .smbusResult => Sys2Proof.Machine.execSmbusResult s
  | .smbusPecError => Sys2Proof.Machine.execSmbusPecError s
  | .alertResponse => Sys2Proof.Machine.execAlertResponse s
  | .mctpControlMessage m => Sys2Proof.Machine.execMctpControlMessage m s
  | .mctpVendorRead addr => Sys2Proof.Machine.execMctpVendorRead addr s
  | .mctpVendorWrite addr value => Sys2Proof.Machine.execMctpVendorWrite addr value s
  | .daybookTrigger t => Sys2Proof.Machine.execDaybookTrigger t s
  | .daybookRecordWrite => Sys2Proof.Machine.execDaybookRecordWrite s
  | .coalesce => Sys2Proof.Machine.execCoalesce s
  | .alertAck => Sys2Proof.Machine.execAlertAck s
  | .dbkCursorWrite smbus value => Sys2Proof.Machine.execDbkCursorWrite smbus value s
  | .fuseProgram verifyGood => Sys2Proof.Machine.execFuseProgram verifyGood s
  | .fuseRevoke => Sys2Proof.Machine.execFuseRevoke s
  | .flashErase good => Sys2Proof.Machine.execFlashErase good s
  | .flashProgram good => Sys2Proof.Machine.execFlashProgram good s
  | .flashRead good => Sys2Proof.Machine.execFlashRead good s
  | .flashOperationEnd => Sys2Proof.Machine.execFlashOperationEnd s
  | .courierStart ch => Sys2Proof.Machine.execCourierStart ch s
  | .courierSlotWrite ch slot reg value => Sys2Proof.Machine.execCourierSlotWrite ch slot reg value s
  | .shadowArm ch => Sys2Proof.Machine.execShadowArm ch s
  | .shadowWrite ch slot reg value => Sys2Proof.Machine.execShadowWrite ch slot reg value s
  | .maintenanceEnter arm => Sys2Proof.Machine.execMaintenanceEnter arm s
  | .maintenanceExit arm => Sys2Proof.Machine.execMaintenanceExit arm s
  | .burstGrant t ready => Sys2Proof.Machine.execBurstGrant t ready s
  | .slotComplete ch => Sys2Proof.Machine.execSlotComplete ch s
  | .slotFault ch code => Sys2Proof.Machine.execSlotFault ch code s
  | .mapLookup id addr way ecc => Sys2Proof.Machine.execMapLookup id addr way ecc s
  | .mapFillReturn addr => Sys2Proof.Machine.execMapFillReturn addr s
  | .mapEntryChange addr entry => Sys2Proof.Machine.execMapEntryChange addr entry s
  | .mapInvalidateLine => Sys2Proof.Machine.execMapInvalidateLine s
  | .mapInvalidateAll => Sys2Proof.Machine.execMapInvalidateAll s
  | .dramEccEvent row correctable => Sys2Proof.Machine.execDramEccEvent row correctable s
  | .dramRowRepair row resource => Sys2Proof.Machine.execDramRowRepair row resource s
  | .retirementFuse element number => Sys2Proof.Machine.execRetirementFuse element number s
  | .pllLockLoss ns => Sys2Proof.Machine.execPllLockLoss ns s
  | .jtagInstructionLoad j => Sys2Proof.Machine.execJtagInstructionLoad j s
  | .registerReadClear addr size => Sys2Proof.Machine.execRegisterReadClear addr size s
  | .registerWrite addr data => Sys2Proof.Machine.execRegisterWrite addr data s
  | .linkUp rate width flit => Sys2Proof.Machine.execLinkUp rate width flit s
  | .sasLaneUp lane rate => Sys2Proof.Machine.execSasLaneUp lane rate s
  | .sasLaneDown lane => Sys2Proof.Machine.execSasLaneDown lane s
  | .hbSymbolLock locked => Sys2Proof.Machine.execHbSymbolLock locked s
  | .fuseOperationEnd => Sys2Proof.Machine.execFuseOperationEnd s
  | .firmwareRestartEnd => Sys2Proof.Machine.execFirmwareRestartEnd s
  | .spinUpPoll member ready => Sys2Proof.Machine.execSpinUpPoll member ready s
  | .notReadyRetry cmd => Sys2Proof.Machine.execNotReadyRetry cmd s
  | .hostClaimEnd group => Sys2Proof.Machine.execHostClaimEnd group s
  | .vaultIndexWalkEnd vault goodCopies => Sys2Proof.Machine.execVaultIndexWalkEnd vault goodCopies s

end Sys2Proof.Machine
end

