-- ==== Sys2Proof/Safety.lean ====
section
/-! DEFINITION. What holds of the block in every state, and what a step must never undo. -/

namespace Sys2Proof.Machine

/-- The shape of a state: the cycle lies inside the close (R6), there are four closers (R48), sixteen courier channels (R428), sixteen rebuild passes, four reshape slots and sixteen map-cache ways (R444). -/
def State.Inv (s : State) : Prop :=
  s.clock.cycle < 25600 ∧ s.closers.units.length = 4 ∧ s.courier.channels.length = 16 ∧ s.degrade.passes.length = 16 ∧
    s.reshapes.slots.length = 4 ∧ s.map.ways.length = 16

/-- What a fuse records can only grow: blown fuses stay blown, and a programmed or revoked key stays so (R21, R27, R460). -/
def Fuses.noneLost (a b : Fuses) : Prop :=
  a.serial = b.serial ∧ (∀ n ∈ a.charterBlown, n ∈ b.charterBlown) ∧ (∀ n ∈ a.fwBlown, n ∈ b.fwBlown) ∧ (∀ e ∈ a.retired, e ∈ b.retired) ∧
    a.keyProgrammed &&& b.keyProgrammed = a.keyProgrammed ∧ a.keyRevoked &&& b.keyRevoked = a.keyRevoked

/-- The parts of a state, one for each of its fields. -/
inductive Part where
  | pending | chip | fuses | flash | charter | clock | closers | ledger | vols | bands | plans | works | nextWork | holds | drives | sas | gov |
  degrade | reshapes | tellers | scratch | wickets | cmds | returns | ints | cfg | link | power | resets | feats | vaults | chain | pair | mgmt |
  sensors | smbus | daybook | reserves | courier | map | registry | dram | cache | hostMem | heldLow | latched | rsp | smbRsp | free
  deriving DecidableEq, Repr

/-- What a state holds outside some of its parts: those parts are put to their reset values. -/
def State.outside (ps : List Part) (s : State) : State := {
  pending := if .pending ∈ ps then State.reset.pending else s.pending
  chip := if .chip ∈ ps then State.reset.chip else s.chip
  fuses := if .fuses ∈ ps then State.reset.fuses else s.fuses
  flash := if .flash ∈ ps then State.reset.flash else s.flash
  charter := if .charter ∈ ps then State.reset.charter else s.charter
  clock := if .clock ∈ ps then State.reset.clock else s.clock
  closers := if .closers ∈ ps then State.reset.closers else s.closers
  ledger := if .ledger ∈ ps then State.reset.ledger else s.ledger
  vols := if .vols ∈ ps then State.reset.vols else s.vols
  bands := if .bands ∈ ps then State.reset.bands else s.bands
  plans := if .plans ∈ ps then State.reset.plans else s.plans
  works := if .works ∈ ps then State.reset.works else s.works
  nextWork := if .nextWork ∈ ps then State.reset.nextWork else s.nextWork
  holds := if .holds ∈ ps then State.reset.holds else s.holds
  drives := if .drives ∈ ps then State.reset.drives else s.drives
  sas := if .sas ∈ ps then State.reset.sas else s.sas
  gov := if .gov ∈ ps then State.reset.gov else s.gov
  degrade := if .degrade ∈ ps then State.reset.degrade else s.degrade
  reshapes := if .reshapes ∈ ps then State.reset.reshapes else s.reshapes
  tellers := if .tellers ∈ ps then State.reset.tellers else s.tellers
  scratch := if .scratch ∈ ps then State.reset.scratch else s.scratch
  wickets := if .wickets ∈ ps then State.reset.wickets else s.wickets
  cmds := if .cmds ∈ ps then State.reset.cmds else s.cmds
  returns := if .returns ∈ ps then State.reset.returns else s.returns
  ints := if .ints ∈ ps then State.reset.ints else s.ints
  cfg := if .cfg ∈ ps then State.reset.cfg else s.cfg
  link := if .link ∈ ps then State.reset.link else s.link
  power := if .power ∈ ps then State.reset.power else s.power
  resets := if .resets ∈ ps then State.reset.resets else s.resets
  feats := if .feats ∈ ps then State.reset.feats else s.feats
  vaults := if .vaults ∈ ps then State.reset.vaults else s.vaults
  chain := if .chain ∈ ps then State.reset.chain else s.chain
  pair := if .pair ∈ ps then State.reset.pair else s.pair
  mgmt := if .mgmt ∈ ps then State.reset.mgmt else s.mgmt
  sensors := if .sensors ∈ ps then State.reset.sensors else s.sensors
  smbus := if .smbus ∈ ps then State.reset.smbus else s.smbus
  daybook := if .daybook ∈ ps then State.reset.daybook else s.daybook
  reserves := if .reserves ∈ ps then State.reset.reserves else s.reserves
  courier := if .courier ∈ ps then State.reset.courier else s.courier
  map := if .map ∈ ps then State.reset.map else s.map
  registry := if .registry ∈ ps then State.reset.registry else s.registry
  dram := if .dram ∈ ps then State.reset.dram else s.dram
  cache := if .cache ∈ ps then State.reset.cache else s.cache
  hostMem := if .hostMem ∈ ps then State.reset.hostMem else s.hostMem
  heldLow := if .heldLow ∈ ps then State.reset.heldLow else s.heldLow
  latched := if .latched ∈ ps then State.reset.latched else s.latched
  rsp := if .rsp ∈ ps then State.reset.rsp else s.rsp
  smbRsp := if .smbRsp ∈ ps then State.reset.smbRsp else s.smbRsp
  free := if .free ∈ ps then State.reset.free else s.free
}

/-- The two states differ in no part but these. -/
def OnlyIn (ps : List Part) (s t : State) : Prop := t.outside ps = s.outside ps

/-- The command completes from the state, and what it leaves meets the condition. -/
def Runs (c : Instr) (s : State) (post : State → Prop) : Prop := ∃ t, exec c s = .next t ∧ post t

/-- Every part but these. -/
def allBut (ps : List Part) : List Part :=
  [.pending, .chip, .fuses, .flash, .charter, .clock, .closers, .ledger, .vols, .bands, .plans, .works, .nextWork, .holds, .drives, .sas, .gov, .degrade,
    .reshapes, .tellers, .scratch, .wickets, .cmds, .returns, .ints, .cfg, .link, .power, .resets, .feats, .vaults, .chain, .pair, .mgmt, .sensors,
    .smbus, .daybook, .reserves, .courier, .map, .registry, .dram, .cache, .hostMem, .heldLow, .latched, .rsp, .smbRsp, .free].filter (fun p => !ps.contains p)

/-- The parts that each command may change. -/
def mayChange : Instr → List Part
  | .pwrgdRise _ => allBut [.pending, .free]
  | .pwrgdFall _ => allBut [.pending, .hostMem]
  | .firmwareChoice _ _ _ => [.chip, .closers, .tellers, .scratch, .wickets, .ints, .link, .chain, .pair, .mgmt, .daybook, .reserves, .map, .hostMem]
  | .linkTrainingRelease => [.link]
  | .chainEnumerationEnd _ => [.chip, .chain, .daybook]
  | .chainEnumerationTimeout => [.chip]
  | .ledgerRecovery _ => [.chip, .closers, .ledger, .vols, .bands, .plans, .works, .nextWork, .holds, .drives, .gov, .degrade, .reshapes, .cmds, .returns, .ints, .link, .power, .vaults, .mgmt, .daybook, .reserves, .cache, .hostMem]
  | .registryQuorumCheck _ _ => [.chip, .ledger, .vols, .plans, .works, .holds, .drives, .gov, .degrade, .reshapes, .cmds, .ints, .link, .chain, .pair, .daybook, .registry, .hostMem]
  | .registryQuorumRetry _ _ => [.chip, .ledger, .vols, .plans, .works, .holds, .drives, .gov, .degrade, .reshapes, .cmds, .ints, .link, .chain, .pair, .daybook, .registry, .hostMem]
  | .columnVerification _ => [.chip, .ledger, .vols, .drives, .ints, .link, .chain, .pair, .daybook, .hostMem]
  | .pairNegotiation => [.chip, .ledger, .drives, .ints, .link, .pair, .daybook, .hostMem]
  | .negotiationWaitExpiry => [.chip, .ledger, .drives, .cmds, .returns, .ints, .cfg, .link, .pair, .daybook, .hostMem, .free]
  | .fuseAdvance => [.chip, .fuses, .daybook]
  | .perstAssert _ => [.chip, .wickets, .cfg, .link, .resets]
  | .perstDeassert _ => allBut [.pending, .free]
  | .closeBoundary => allBut [.pending, .fuses, .flash, .charter, .dram, .heldLow, .smbRsp]
  | .cut _ => [.clock, .closers]
  | .vote => [.chip, .clock, .closers, .wickets, .ints, .link, .pair, .daybook, .hostMem]
  | .bookEntryIssue => [.clock, .closers, .ledger, .chain]
  | .bookEntryComplete => [.closers]
  | .bookSkipped => [.clock, .closers, .daybook]
  | .quietSliceStart => [.clock]
  | .bookReadback _ => [.closers]
  | .bookRewrite => [.closers]
  | .headerWrite _ _ _ => [.ledger, .bands, .wickets, .cmds, .link, .vaults, .chain, .hostMem]
  | .commit _ _ _ _ => [.clock, .ledger, .bands, .wickets, .cmds, .link, .vaults, .chain, .hostMem]
  | .quietCommitTake _ => [.ledger, .bands, .wickets, .cmds, .link, .vaults, .chain, .hostMem]
  | .apertureWrite _ _ _ => [.ledger, .bands, .wickets, .cmds, .link, .vaults, .chain, .hostMem]
  | .payloadLedgerWrite _ _ => [.ledger, .wickets, .cmds, .returns, .link, .chain, .hostMem]
  | .ledgerRoomFreed => [.ledger, .wickets, .link, .hostMem]
  | .read _ => [.ledger, .plans, .works, .nextWork, .holds, .drives, .gov, .degrade, .cmds, .returns, .power, .vaults, .daybook, .cache]
  | .write _ => [.ledger, .cmds]
  | .verify _ => [.ledger, .plans, .works, .nextWork, .holds, .drives, .gov, .degrade, .cmds, .returns, .power, .vaults, .daybook, .cache]
  | .release _ => [.cmds]
  | .closeWait _ => [.cmds]
  | .readWaitEnd _ => [.ledger, .plans, .works, .nextWork, .holds, .drives, .gov, .degrade, .cmds, .returns, .power, .vaults, .daybook, .cache]
  | .identify _ => [.cmds, .returns, .free]
  | .getLog _ => [.cmds, .returns, .free]
  | .getFeature _ => [.cmds, .returns]
  | .setFeature _ => [.cmds, .returns, .feats]
  | .fwDownload _ _ => [.flash, .cmds, .returns, .daybook, .free]
  | .fwCommit _ _ => [.flash, .cmds, .returns, .daybook, .free]
  | .fwAbandon _ _ => [.flash, .cmds, .returns, .daybook, .free]
  | .reshapeStart _ => [.reshapes, .cmds, .returns]
  | .reshapePause _ => [.reshapes, .cmds, .returns]
  | .reshapeResume _ => [.reshapes, .cmds, .returns]
  | .reshapeCancel _ => [.reshapes, .cmds, .returns]
  | .power _ => [.cmds, .power]
  | .groupWindowRequest _ => [.gov, .cmds, .power]
  | .groupWindowRelease _ => [.cmds]
  | .groupWindowDeadline _ => [.gov, .cmds]
  | .hostTimeMark _ => [.cmds, .ints, .link, .daybook, .hostMem]
  | .audit _ => [.cmds, .returns, .chain, .pair, .free]
  | .putBegin _ => [.ledger, .cmds, .vaults, .chain]
  | .putData _ => [.ledger, .bands, .cmds, .returns, .vaults, .chain, .free]
  | .putEnd _ => [.ledger, .bands, .cmds, .returns, .vaults, .chain]
  | .get _ => [.ledger, .plans, .works, .nextWork, .holds, .drives, .gov, .degrade, .cmds, .returns, .power, .vaults, .daybook, .cache]
  | .stat _ => [.ledger, .plans, .works, .nextWork, .holds, .drives, .gov, .degrade, .cmds, .returns, .power, .vaults, .daybook, .cache]
  | .list _ => [.ledger, .plans, .works, .nextWork, .holds, .drives, .gov, .degrade, .cmds, .returns, .power, .vaults, .daybook, .cache]
  | .sealObject _ => [.ledger, .bands, .cmds, .returns, .vaults, .chain]
  | .delete _ => [.ledger, .bands, .cmds, .returns, .vaults, .chain]
  | .auditObject _ => [.ledger, .plans, .works, .nextWork, .holds, .drives, .gov, .degrade, .cmds, .returns, .power, .vaults, .daybook, .cache]
  | .sessionIdleExpiry _ => [.vaults]
  | .backgroundAudit _ => [.ledger, .plans, .works, .nextWork, .holds, .drives, .gov, .degrade, .cmds, .returns, .power, .vaults, .daybook, .cache]
  | .digestMismatchRepair _ _ => [.ledger, .plans, .works, .nextWork, .holds, .drives, .gov, .degrade, .cmds, .returns, .power, .vaults, .daybook, .cache]
  | .vaultTimeTick _ => [.vaults]
  | .queueResetRequest _ _ => [.wickets, .link, .daybook, .hostMem]
  | .ringEntryWrite _ => [.ledger, .wickets, .cmds, .returns, .ints, .link, .chain, .hostMem, .free]
  | .parkedNotice _ => [.cmds, .returns]
  | .irqDelayExpiry _ => [.returns, .ints, .link, .hostMem]
  | .retHeadWrite _ _ => [.returns]
  | .ringEnableSet _ => [.returns]
  | .ringEnableClear _ => [.returns]
  | .creditBaseEnable _ => [.wickets, .link, .hostMem]
  | .interruptModeChange _ _ _ _ => [.ints, .cfg, .link, .hostMem]
  | .vectorUnmask _ => [.ints, .cfg, .link, .hostMem]
  | .intPendingClear _ _ => [.ints, .link, .hostMem]
  | .intTestFire _ => [.ints, .link, .hostMem]
  | .functionLevelReset => [.drives, .gov, .tellers, .scratch, .wickets, .returns, .ints, .cfg, .link, .power, .resets, .daybook, .hostMem]
  | .hotReset => [.drives, .gov, .tellers, .scratch, .wickets, .returns, .ints, .cfg, .link, .power, .resets, .daybook, .hostMem]
  | .resetComplete => [.drives, .gov, .tellers, .scratch, .wickets, .returns, .ints, .cfg, .link, .power, .resets, .feats, .daybook, .courier, .hostMem]
  | .busMasterClear => [.returns, .cfg]
  | .busMasterSet => [.wickets, .returns, .ints, .cfg, .link, .courier, .hostMem]
  | .hostReadCompletion _ => [.returns, .courier]
  | .memoryRequest _ => allBut [.pending, .chip, .charter, .clock, .vols, .works, .nextWork, .cfg, .power, .resets, .feats, .mgmt, .registry, .dram, .cache, .smbRsp]
  | .configAccess _ _ => [.plans, .works, .holds, .drives, .gov, .degrade, .tellers, .scratch, .wickets, .cmds, .returns, .ints, .cfg, .link, .power, .resets, .daybook, .courier, .hostMem, .rsp]
  | .d3hotWrite => [.plans, .works, .holds, .drives, .gov, .degrade, .cmds, .returns, .cfg, .power, .daybook]
  | .dormantEntry => [.drives, .gov, .tellers, .scratch, .ints, .link, .power, .mgmt, .daybook, .hostMem]
  | .d0Write => [.drives, .gov, .tellers, .scratch, .wickets, .returns, .ints, .cfg, .link, .power, .daybook, .courier, .hostMem]
  | .restEntry => [.drives, .gov, .tellers, .scratch, .cmds, .ints, .link, .power, .daybook, .hostMem]
  | .entryDeadlineExpiry => [.drives, .gov, .tellers, .scratch, .cmds, .ints, .link, .power, .daybook, .hostMem]
  | .wakeCause _ => [.ints, .cfg]
  | .aspmL1Entry _ _ => [.link]
  | .confirm _ => [.ledger, .pair]
  | .bookHeld _ => [.closers]
  | .releaseNotice _ => [.ledger, .chain, .pair]
  | .postedNotice _ _ _ => [.pair]
  | .negotiate _ => [.chain, .pair]
  | .token _ _ => [.chain]
  | .laneSwap _ _ _ => [.chain]
  | .laneSwapFrame _ _ _ => [.ints, .link, .chain, .daybook, .reserves, .hostMem]
  | .laneCheckLimit _ _ => [.chain]
  | .streamFrameArrival _ _ => [.closers, .ledger, .drives, .cmds, .returns, .ints, .cfg, .link, .chain, .pair, .daybook, .hostMem, .free]
  | .streamFrameReturn _ _ => [.chain]
  | .controlMessageReturn _ => [.chain]
  | .chainLinkTraining _ _ => [.chain]
  | .tallyReceipt _ _ _ _ _ => [.drives, .cmds, .returns, .ints, .cfg, .link, .chain, .pair, .daybook, .hostMem, .free]
  | .pathAlarm _ => [.ints, .cfg, .link, .pair, .daybook, .hostMem]
  | .partnerFailed => [.drives, .cmds, .returns, .ints, .cfg, .link, .pair, .daybook, .hostMem, .free]
  | .failedTally _ => [.drives, .cmds, .returns, .ints, .cfg, .link, .chain, .pair, .daybook, .hostMem, .free]
  | .detachDelayExpiry => [.drives, .pair]
  | .detached => [.pair]
  | .preemptCompletion _ _ => [.drives, .pair]
  | .witnessRecordWrite _ => [.drives, .pair]
  | .arbitrationWin => [.drives, .cmds, .returns, .ints, .link, .chain, .pair, .daybook, .hostMem, .free]
  | .arbitrationLoss => [.pair, .free]
  | .arbitrationTimeout => [.ints, .link, .pair, .daybook, .hostMem]
  | .arbitrationRetry => [.drives, .pair]
  | .talliesResume => [.pair]
  | .takeoverDecision => [.drives, .cmds, .returns, .ints, .link, .chain, .pair, .daybook, .hostMem, .free]
  | .join => [.ledger, .drives, .ints, .link, .chain, .pair, .daybook, .hostMem]
  | .bulkEnd => [.chain, .pair]
  | .joinCurrent => [.drives, .ints, .link, .pair, .daybook, .hostMem]
  | .auditMark _ => [.chain, .pair]
  | .auditDigest _ _ _ => [.cmds, .returns, .chain, .pair, .daybook]
  | .chainCalibration _ _ _ => [.chain]
  | .holdoffExpiry _ _ => [.ledger, .bands, .plans, .works, .nextWork, .drives, .gov, .degrade, .chain, .daybook]
  | .stripeReadComplete _ => [.plans, .works, .drives, .gov]
  | .stripeWriteComplete _ => [.ledger, .bands, .plans, .works, .drives, .gov, .degrade, .reshapes, .cmds, .vaults, .chain, .daybook]
  | .admissionCheckpoint => [.ledger, .registry]
  | .periodicCheckpoint => [.ledger, .registry]
  | .checkpointComplete _ => [.ledger, .plans, .works, .drives, .gov, .degrade, .chain, .daybook, .registry]
  | .checkpointFailure => [.ledger, .daybook, .registry]
  | .mapBitSet _ => [.ledger, .plans, .works, .drives, .gov, .degrade, .chain, .daybook]
  | .regionTableFreed => [.ledger, .plans, .works, .drives, .gov, .degrade, .chain, .daybook]
  | .resynchronisation _ _ => [.ledger, .plans, .works, .nextWork, .drives, .gov, .degrade, .daybook]
  | .ledgerCorrectedEvent _ => [.ledger]
  | .ledgerUncorrectableEvent _ _ => [.ledger, .degrade, .daybook]
  | .ledgerBlockRetirement _ => [.ledger, .ints, .link, .daybook, .reserves, .hostMem]
  | .wearMove _ => [.ledger]
  | .senseReferenceTrim _ _ _ => [.ledger]
  | .postingPush _ => [.plans, .works, .holds, .drives, .gov, .degrade, .tellers, .scratch, .daybook]
  | .postingTake _ _ => [.clock, .tellers]
  | .steal _ _ => [.clock, .tellers]
  | .postingFinish _ _ => [.clock, .works, .drives, .gov, .degrade, .tellers, .scratch, .daybook]
  | .parityError _ => [.tellers]
  | .tellerSelfTest _ => [.tellers, .ints, .link, .daybook, .reserves, .hostMem]
  | .holdRequest _ => [.plans, .works, .holds, .drives, .gov, .degrade, .daybook]
  | .holdRelease _ => [.plans, .works, .holds, .drives, .gov, .degrade, .daybook]
  | .branchGating _ => [.tellers]
  | .scratchAccess _ => [.works, .drives, .gov, .degrade, .tellers, .scratch, .returns, .ints, .link, .daybook, .reserves, .courier, .map, .hostMem]
  | .bankRetirement _ => [.scratch, .ints, .link, .daybook, .reserves, .hostMem]
  | .bankRetention _ => [.scratch]
  | .sweepStep _ _ _ => [.clock, .scratch, .ints, .link, .daybook, .reserves, .hostMem]
  | .planReady _ _ => [.plans, .works, .drives, .gov, .degrade, .cmds, .returns, .vaults, .daybook, .cache]
  | .planFlush => [.plans]
  | .planUnpin _ _ => [.plans, .works, .drives, .gov, .degrade, .cmds, .returns, .vaults, .daybook, .cache]
  | .memberCommandCompletion _ _ _ => [.ledger, .plans, .works, .nextWork, .holds, .drives, .gov, .degrade, .tellers, .cmds, .returns, .power, .vaults, .daybook, .cache]
  | .memberTimeout _ => [.ledger, .plans, .works, .nextWork, .holds, .drives, .gov, .degrade, .cmds, .returns, .power, .vaults, .daybook, .cache]
  | .suspectPoll _ => [.drives]
  | .suspectLimitExpiry _ => [.drives]
  | .discoveryMissingExpiry _ => [.drives]
  | .lateRead _ _ => [.plans, .works, .drives, .gov, .degrade, .tellers, .cmds, .returns, .vaults, .daybook, .cache]
  | .mediaRepair _ _ _ _ _ => [.ledger, .plans, .works, .nextWork, .drives, .gov, .degrade, .daybook]
  | .poolUpdateComplete _ _ _ => [.gov, .degrade, .registry]
  | .rebuildPassStart _ _ => [.gov, .degrade]
  | .rowRestore _ => [.ledger, .plans, .works, .nextWork, .drives, .gov, .degrade, .daybook]
  | .replacementDiscovered _ _ _ => [.degrade]
  | .registryRehome _ => [.degrade]
  | .lossEntriesDurable _ _ => [.plans, .works, .drives, .gov, .degrade, .daybook, .registry]
  | .sealRow _ _ _ => [.ledger, .plans, .works, .nextWork, .drives, .gov, .degrade, .daybook]
  | .lossAreaFull => [.degrade, .daybook]
  | .localScrub _ _ _ _ => [.ledger, .plans, .works, .nextWork, .holds, .drives, .gov, .degrade, .cmds, .returns, .vaults, .daybook, .cache]
  | .globalScrubBatch _ _ _ => [.ledger, .plans, .works, .nextWork, .holds, .drives, .gov, .degrade, .daybook]
  | .reshapeRecordAck _ _ => [.reshapes, .registry]
  | .deviceStartedReshape _ => [.reshapes, .daybook]
  | .regionCopy _ => [.ledger, .plans, .works, .nextWork, .drives, .gov, .degrade, .reshapes, .daybook]
  | .closingEnd _ => [.drives, .gov]
  | .shelfPowerOk _ _ => [.drives, .gov, .daybook]
  | .staggerStep _ => [.drives, .gov]
  | .groupReady _ => [.gov]
  | .spinUpLimitExpiry _ => [.ledger, .plans, .works, .nextWork, .holds, .drives, .gov, .degrade, .cmds, .returns, .power, .vaults, .daybook, .cache]
  | .groupDown _ => [.drives, .gov]
  | .broadcastChange => [.drives]
  | .discoveryRunEnd _ _ _ _ => [.drives, .daybook, .registry]
  | .sasRetrim _ _ => [.sas, .daybook]
  | .retrimDeferral _ => [.clock, .sas]
  | .sasLaneFlag _ => [.sas, .daybook]
  | .sasLaneNotUp _ => [.sas]
  | .watchdogExpiry _ _ => [.ints, .link, .mgmt, .daybook, .hostMem, .free]
  | .operatingTimeTick => [.mgmt]
  | .sensorSample _ => [.chip, .closers, .wickets, .ints, .cfg, .link, .pair, .sensors, .daybook, .hostMem]
  | .smbusSetAddress _ => [.smbus]
  | .smbusRead => [.closers, .ledger, .plans, .holds, .drives, .sas, .gov, .degrade, .reshapes, .tellers, .scratch, .wickets, .returns, .link, .vaults, .chain, .pair, .sensors, .smbus, .daybook, .reserves, .courier, .map, .smbRsp]
  | .smbusWrite _ => [.sensors, .smbus, .daybook]
  | .smbusResult => [.smbus, .smbRsp]
  | .smbusPecError => [.smbus]
  | .alertResponse => [.smbRsp]
  | .mctpControlMessage _ => [.smbus, .smbRsp, .free]
  | .mctpVendorRead _ => [.closers, .ledger, .plans, .holds, .drives, .sas, .gov, .degrade, .reshapes, .tellers, .scratch, .wickets, .returns, .link, .vaults, .chain, .pair, .sensors, .smbus, .daybook, .reserves, .courier, .map, .smbRsp]
  | .mctpVendorWrite _ _ => [.sensors, .smbus, .daybook, .smbRsp]
  | .daybookTrigger _ => [.daybook]
  | .daybookRecordWrite => [.ints, .link, .daybook, .hostMem]
  | .coalesce => [.daybook]
  | .alertAck => [.daybook]
  | .dbkCursorWrite _ _ => [.smbus, .daybook]
  | .fuseProgram _ => [.fuses]
  | .fuseRevoke => [.fuses]
  | .flashErase _ => [.flash, .free]
  | .flashProgram _ => [.flash, .free]
  | .flashRead _ => [.flash, .free]
  | .flashOperationEnd => [.flash]
  | .courierStart _ => [.returns, .courier]
  | .courierSlotWrite _ _ _ _ => [.returns, .courier]
  | .shadowArm _ => [.returns, .courier]
  | .shadowWrite _ _ _ _ => [.courier]
  | .maintenanceEnter _ => [.courier]
  | .maintenanceExit _ => [.courier]
  | .burstGrant _ _ => [.clock, .ledger, .scratch, .returns, .link, .courier, .dram, .hostMem]
  | .slotComplete _ => [.returns, .courier]
  | .slotFault _ _ => [.returns, .courier]
  | .mapLookup _ _ _ _ => [.map]
  | .mapFillReturn _ => [.map]
  | .mapEntryChange _ _ => [.map, .dram]
  | .mapInvalidateLine => [.map]
  | .mapInvalidateAll => [.map]
  | .dramEccEvent _ _ => [.reserves]
  | .dramRowRepair _ _ => [.ints, .link, .daybook, .reserves, .hostMem]
  | .retirementFuse _ _ => [.fuses, .reserves]
  | .pllLockLoss _ => [.chip, .closers, .wickets, .ints, .link, .pair, .daybook, .hostMem]
  | .jtagInstructionLoad _ => [.chip, .closers, .wickets, .ints, .link, .pair, .daybook, .hostMem]
  | .registerReadClear _ _ => [.closers, .ledger, .plans, .holds, .drives, .sas, .gov, .degrade, .reshapes, .tellers, .scratch, .wickets, .returns, .link, .vaults, .chain, .pair, .sensors, .smbus, .daybook, .reserves, .courier, .map, .latched, .rsp]
  | .registerWrite _ _ => [.fuses, .flash, .plans, .wickets, .returns, .ints, .link, .sensors, .smbus, .daybook, .courier, .map, .hostMem, .heldLow, .rsp, .free]
  | .linkUp _ _ _ => [.link]
  | .sasLaneUp _ _ => [.sas]
  | .sasLaneDown _ => [.sas]
  | .hbSymbolLock _ => [.pair]
  | .fuseOperationEnd => [.fuses]
  | .firmwareRestartEnd => [.ledger, .mgmt, .daybook, .registry]
  | .spinUpPoll _ _ => [.drives]
  | .notReadyRetry _ => [.ledger, .plans, .works, .nextWork, .holds, .drives, .gov, .degrade, .cmds, .returns, .power, .vaults, .daybook, .cache]
  | .hostClaimEnd _ => [.gov]
  | .vaultIndexWalkEnd _ _ => [.vols, .ints, .link, .vaults, .daybook, .hostMem]

end Sys2Proof.Machine
end

