-- ==== Sys2Proof/Certificates/Slice0/Obligations.lean ====
section
/-! DEFINITION. What this model claims of the part, for proof: the rules of spec/ about commands and state. -/

open Sys2Proof Sys2Proof.Machine

/-- A step runs the command at the front of the queue on the state with the queue's rest (log entry 1). -/
def Obligations.StepRunsFrontCommand : Prop :=
  ∀ (c : Instr) (rest : List Instr) (s : State), step { s with pending := c :: rest } = exec c { s with pending := rest }

/-- On an empty queue the block only counts engine cycles, and only while its clock runs; the count stays inside the close (R6, log entry 1). -/
def Obligations.EmptyQueueCountsCycles : Prop :=
  ∀ s : State, s.pending = [] → ∃ t, step s = .next t ∧ OnlyIn [.clock] s t ∧ t.now = s.now ∧
    (s.chip.pwrgd = true → s.chip.locked = true → s.chip.testMode = false → s.clock.cycle < 25600 → t.clock.cycle = min 25599 (s.clock.cycle + 1))

/-- No command touches the queue of waiting commands. -/
def Obligations.CommandsLeaveQueue : Prop :=
  ∀ (c : Instr) (s t : State), exec c s = .next t → t.pending = s.pending

/-- Each command changes only the parts that `mayChange` lists for it: every other register, buffer, counter and memory is as before. -/
def Obligations.CommandsStayInTheirParts : Prop :=
  ∀ (c : Instr) (s t : State), exec c s = .next t → OnlyIn (mayChange c) s t

/-- Every command of the table completes from every state (R2): no command and no operand stops the block. -/
def Obligations.EveryCommandCompletes : Prop :=
  ∀ (c : Instr) (s : State), ∃ t, exec c s = .next t

/-- The shape of a state holds after reset. -/
def Obligations.ResetHasShape : Prop :=
  State.reset.Inv

/-- Every step keeps the shape: the cycle inside the close, four closers, sixteen courier channels, sixteen rebuild passes, four reshape slots, sixteen map-cache ways. -/
def Obligations.StepKeepsShape : Prop :=
  ∀ s t : State, s.Inv → step s = .next t → t.Inv

/-- No step takes a blown fuse back: the serial number stays, and what a fuse records can only grow (R27, R460). -/
def Obligations.FusesOnlyGrow : Prop :=
  ∀ s t : State, step s = .next t → Fuses.noneLost s.fuses t.fuses

/-- Hot reset, function-level reset and the end of either leave the close number, and only a boundary and a start-up change it (R6). -/
def Obligations.CloseNumberChanges : Prop :=
  ∀ (c : Instr) (s t : State), exec c s = .next t → t.now ≠ s.now →
    c = .closeBoundary ∨ (∃ p, c = .pwrgdRise p) ∨ (∃ h, c = .pwrgdFall h) ∨ ∃ l, c = .perstDeassert l

/-- A halted part stays halted (R54, R474, R478): only the commands that power it or start it up again end that. -/
def Obligations.HaltLasts : Prop :=
  ∀ (c : Instr) (s t : State), exec c s = .next t → s.chip.halted = true → t.chip.halted = true ∨ (∃ p, c = .pwrgdRise p) ∨ (∃ h, c = .pwrgdFall h) ∨ ∃ l, c = .perstDeassert l

/-- No word of the table's rows spells a command, so withFetchWord places none. -/
def Obligations.NoWordSpellsACommand : Prop :=
  ∀ (nbits w : Nat) (s : State), decodeTableWord nbits w = none ∧ s.withFetchWord nbits w = s

/-- What the part is after reset: PWRGD low, no key programmed or revoked, an erased flash, an unformatted ledger, close 0 at cycle 0, nothing waiting, and the courier's priorities of R428. -/
def Obligations.ResetValues : Prop :=
  let s := State.reset
  s.pending = [] ∧ s.chip.pwrgd = false ∧ s.fuses.keyProgrammed = 0 ∧ s.fuses.keyRevoked = 0 ∧ s.flash.cells = [] ∧ s.ledger.formatted = false ∧ s.clock.close = 0 ∧
    s.clock.cycle = 0 ∧ s.cmds = [] ∧ s.power.state = 0 ∧ s.cfg.busMaster = false ∧ s.cfg.memSpace = false ∧
    s.courier.channels.map (·.prio) = [3, 3, 3, 3, 2, 2, 2, 2, 1, 1, 1, 1, 0, 0, 0, 0]

/-- R86 and R87: where the chunks of row r lie. The chunk of group j with role i lies on member (i·s + r) mod N of its pool, in slot q·W + i with q = ⌊r / N⌋; with the step coprime with N, the member at
position x holds role i of the row exactly when i is (x − r)·s⁻¹ mod N and less than W, so that the others hold nothing of the row; a global syndrome with index u lies on member (u + r) mod N of its
keystone pool, in slot ⌊r / N⌋·m + u. -/
def Obligations.PlacesOfChunks : Prop :=
  (∀ (l : Layout) (ch : ChunkId) (j i r : Nat) (p : Pool), l.roleOf ch = some (j, i) → j < 16 → l.pool j = some p → p.members ≠ [] →
    l.member r ch = (p.members[(i * p.step + r) % p.members.length]?).map (fun m => (m, r / p.members.length * (p.width + 2) + i))) ∧
  (∀ (l : Layout) (ch : ChunkId) (j i r x inv n : Nat) (p : Pool), l.roleOf ch = some (j, i) → j < 16 → l.pool j = some p → n = p.members.length → 0 < n → i < p.width + 2 → p.width + 2 ≤ n → x < n → p.step * inv % n = 1 % n →
    ((l.place r ch).map (fun e => e.2.1) = some x ↔ i = (x + n - r % n) * inv % n)) ∧
  (∀ (l : Layout) (t k u r : Nat) (p : Pool), l.roleOf (.g t) = some (16 + k, u) → l.pool (16 + k) = some p → p.members ≠ [] →
    l.member r (.g t) = (p.members[(u + r) % p.members.length]?).map (fun m => (m, r / p.members.length * p.width + u)))

/-- R284: the fields of an account entry, which takeover accounts and page 0x21 both carry. -/
def Obligations.AccountEntryLayout : Prop :=
  (∀ a : AcctLine, a.wicket < 65536 → a.seq < 65536 → a.fate < 256 → a.opcode < 256 → a.close < 2 ^ 64 →
    (acctBytes a).length = 16 ∧ le (acctBytes a) 0 2 = a.tag % 2 ^ 14 ∧ le (acctBytes a) 2 2 = a.wicket ∧ le (acctBytes a) 4 2 = a.seq ∧ le (acctBytes a) 6 1 = a.fate ∧
      le (acctBytes a) 7 1 = a.opcode ∧ le (acctBytes a) 8 8 = a.close) ∧
  (∀ (s : State) (p : List Byte), pageBytes s 0x21 = some p → p.drop 32 = s.resets.account.flatMap acctBytes) ∧
  (∀ (s : State) (ring reason wicket : Nat) (prior : Bool) (lines : List AcctLine), (rg s ring).enable = true → s.returns.holding = false → s.cfg.busMaster = true → lines.length ≤ (rg s ring).lmax / 16 →
    ∃ e ∈ (rg (accountEntries s ring reason wicket prior lines) ring).queue, e.kind = 4 ∧ e.len = 16 * lines.length ∧ e.payload = Memory.ofBytes (lines.flatMap acctBytes))

/-- R240: the vector of a source in MSI-X mode, and in MSI mode with V vectors; with V = 8 the example of the rule. -/
def Obligations.VectorsOfSources : Prop :=
  (∀ (c : ConfigSpace) (n : Nat), n < 64 → intModeOf c = 3 → vectorOf c n = n ∧ vectorOf c 64 = 64) ∧
  (∀ (c : ConfigSpace) (n : Nat), n < 64 → intModeOf c = 2 → c.mme ≤ 5 →
    (2 ^ c.mme = 1 → vectorOf c n = 0 ∧ vectorOf c 64 = 0) ∧ (2 ^ c.mme ≠ 1 → vectorOf c n = n % (2 ^ c.mme - 1) ∧ vectorOf c 64 = 2 ^ c.mme - 1) ∧ vectorOf c n < 2 ^ c.mme ∧ vectorOf c 64 < 2 ^ c.mme) ∧
  (∀ c : ConfigSpace, intModeOf c = 2 → c.mme = 3 → (∀ n < 7, vectorOf c n = n) ∧ vectorOf c 7 = 0 ∧ vectorOf c 13 = 6 ∧ vectorOf c 64 = 7)

/-- PWRGD_RISE (R28, R471): the straps are sampled; with TEST_EN low start-up begins at step 3 of close 0, with TEST_EN high the part is in the test state. PWRGD_FALL and PERST_ASSERT (R243, R244, R472):
a loss of power keeps the ledger's records and the flash, but for a range that was being written, which fails its check from then on (R26); PERST# of 1 µs or more stops intake at once. Each of these
is said to answer a next state under conditions on the state and the operands alone: pwrgdRise, pwrgdFall, perstAssert, perstDeassert. -/
def Obligations.PowerAndFundamentalReset : Prop :=
  (
  (∀ (p : PowerOn) (s : State), s.chip.pwrgd = false → p.testEn = false →
    Runs (.pwrgdRise p) s (fun t => t.chip.pwrgd = true ∧ t.chip.testMode = false ∧ t.chip.bootSlot = p.bootSlot ∧ t.chip.chainHead = p.chainHead ∧ t.chip.smbAddr = 0x58 + p.smbAddr % 4 ∧
      t.now = 0 ∧ (t.chip.step = 3 ∨ t.chip.step = 4 ∨ t.chip.step = 14))) ∧
  (∀ (p : PowerOn) (s : State), s.chip.pwrgd = false → p.testEn = true →
    Runs (.pwrgdRise p) s (fun t => t.chip.pwrgd = true ∧ t.chip.testMode = true ∧ t.chip.locked = false ∧ t.chip.step = 0)) ∧
  (∀ (pass : List Bool) (s : State), s.chip.pwrgd = true → s.chip.testMode = false → s.chip.perst = true →
    Runs (.perstDeassert pass) s (fun t => t.chip.perst = false ∧ t.chip.bootSlot = s.chip.bootSlot ∧ t.chip.smbAddr = s.chip.smbAddr ∧ t.now = 0 ∧
      (t.chip.step = 3 ∨ t.chip.step = 4 ∨ t.chip.step = 14)))) ∧
  (
  (∀ (h : Bool) (s : State), s.chip.pwrgd = true →
    Runs (.pwrgdFall h) s (fun t => t.chip = State.reset.chip ∧ t.clock = State.reset.clock ∧ (s.flash.writing = none → t.flash.cells = s.flash.cells) ∧
      (∀ r, s.flash.writing = some r → r ∈ t.flash.torn) ∧ t.ledger.recs = s.ledger.recs ∧
      t.daybook.ring = s.daybook.ring ∧ t.reserves.history = s.reserves.history ∧ t.pair.witness = s.pair.witness ∧ t.cmds = [])) ∧
  (∀ (ns : Nat) (s : State), 1000 ≤ ns → s.chip.pwrgd = true → s.chip.testMode = false → s.chip.perst = false →
    Runs (.perstAssert ns) s (fun t => t.chip = { s.chip with perst := true, perstHalt := true } ∧ t.link.up = false ∧ t.cfg.memSpace = false ∧ t.cfg.busMaster = false ∧
      ∀ w < wicketCount s, (wk t w).state = 0 ∧ (wk t w).waitingCommits = [])) ∧
  (∀ (ns : Nat) (s : State), ns < 1000 → exec (.perstAssert ns) s = .next s))

/-- The registry members that count at the check: a member that is too short for the registry area counts as unreadable (R123). -/
def goodMembers (s : State) (agree short : List Nat) : List Nat :=
  agree.filter (fun m => !short.contains m && !((mem s m).present && (mem s m).capacity < registryEnd s))

/-- FIRMWARE_CHOICE and the steps behind it (R25, R28, R31, R382): step 4 goes on to step 5 with a chain section and to step 6 without one, or into Recovery; step 5 ends when the unit holds an address and
the ring has closed, or after 65,536 closes with CHAIN_ABSENT set. LEDGER_RECOVERY (R32, R33, R66): step 6 ends at step 7; a ledger whose index cannot be read sets LEDGER_LOST, and one read keeps it
clear. REGISTRY_QUORUM_CHECK and REGISTRY_QUORUM_RETRY (R33): without a strict majority of good members start-up holds with reason RegistryQuorum, and a held start-up tries again every 65,536 closes.
COLUMN_VERIFICATION (R35, R36): a layout in use gets its result; a failing one takes its volumes off line. Each of these is said to answer a next state under conditions on the state and the operands
alone: firmwareChoice, chainEnumerationEnd, chainEnumerationTimeout, ledgerRecovery, registryQuorumCheck, registryQuorumRetry, columnVerification. -/
def Obligations.StartUpSteps : Prop :=
  (
  (∀ (a b : DramFinding) (failing : List Nat) (s : State), alive s = true → s.chip.halted = false → s.chip.step = 4 → (dramInUse a b).isSome = true → s.closers.mode ≠ 2 →
    Runs (.firmwareChoice a b failing) s (fun t => some t.reserves.dramGib = dramInUse a b ∧
      (t.chip.step = 14 ∧ t.chip.reason ≠ 0 ∨ t.chip.step = (if s.ch (·.chainPresent) false then 5 else 6)))) ∧
  (∀ (lap : Nat) (s : State), alive s = true → s.chip.step = 5 → s.chain.address.isSome = true → 1 ≤ lap → lap ≤ 8 →
    Runs (.chainEnumerationEnd lap) s (fun t => t.chip = { s.chip with step := 6, stepClose := s.now } ∧ t.chain = { s.chain with lap := lap, ringUp := true })) ∧
  (∀ s : State, alive s = true → s.chip.step = 5 → s.chip.stepClose + 65536 ≤ s.now →
    exec .chainEnumerationTimeout s = .next { s with chip := { s.chip with chainAbsent := true, step := 6, stepClose := s.now } })) ∧
  (
  ∀ (readable : Bool) (s : State), alive s = true → s.chip.halted = false → s.chip.step = 6 →
    Runs (.ledgerRecovery readable) s (fun t => t.chip.step = 7 ∧ t.chip.stepClose = s.now ∧ t.ledger.formatted = true ∧ (s.ledger.formatted = true → readable = false → t.chip.ledgerLost = true) ∧
      (readable = true → t.chip.ledgerLost = s.chip.ledgerLost))) ∧
  (
  (∀ (agree short : List Nat) (s : State), alive s = true → s.chip.halted = false → s.chip.step = 7 → majority s s.registry.agree = false →
    majority s (goodMembers s agree short) = false →
    Runs (.registryQuorumCheck agree short) s (fun t => t.chip.step = 13 ∧ t.chip.reason = 5 ∧ t.registry = s.registry)) ∧
  (∀ (agree short : List Nat) (s : State), alive s = true → s.chip.halted = false → s.chip.step = 13 → s.chip.stepClose < s.now → (s.now - s.chip.stepClose) % 65536 = 0 →
    majority s (goodMembers s agree short) = true →
    Runs (.registryQuorumRetry agree short) s (fun t => t.registry.agree = goodMembers s agree short ∧ t.chip.step ≠ 13 ∧ t.chip.reason = 0))) ∧
  (
  ∀ (i : Nat) (l : Layout) (s : State), layoutOf s i = some l → alive s = true → s.chip.halted = false → layoutVerified s i = false → s.chip.step = 15 → nextUnverified s = some i →
    Runs (.columnVerification i) s (fun t =>
      (columnCheck l = true → t.chip.layoutOk = s.chip.layoutOk ||| BitVec.ofNat 64 (2 ^ l.index) ∧ t.chip.layoutBad = s.chip.layoutBad) ∧
      (columnCheck l = false → t.chip.layoutBad = s.chip.layoutBad ||| BitVec.ofNat 64 (2 ^ l.index) ∧ t.chip.layoutOk = s.chip.layoutOk)))

/-- CUT (R43, R48): outside the quiet slice of a close that has no cut yet, every usable closer forms a verdict on the cut, the one given where it errs; the cut holds only records that are whole and
countersigned at that cycle (R43), and no record enters it that is not in the ledger. The book entry (R42, R45): it is issued once, for the voted verdict; it completes; and one still not complete at
cycle 25,599 is dropped, so that its close lands nothing, and is counted. The read-back of a book entry (R46): a good one marks the entry of that close alone; a bad one makes a rewrite due, and the
read-backs of later entries go on; the rewrite is counted, is not issued in the quiet slice, and makes the entry readable again. Each of these is said to answer a next state under conditions on the
state and the operands alone: cut, bookEntryIssue, bookEntryComplete, bookSkipped, quietSliceStart, bookReadback, bookRewrite. -/
def Obligations.CutsAndBookEntries : Prop :=
  (
  ∀ (errs : List (Nat × Verdict)) (s : State), closesRun s = true → s.closers.mode ≠ 2 → s.closers.verdicts = [] → s.clock.cycle < 24576 →
    Runs (.cut errs) s (fun t =>
      t.closers.verdicts.map (fun e => e.1) = usableClosers s ∧ t.now = s.now ∧ t.clock.cycle = max 24544 s.clock.cycle ∧
      (∀ e ∈ t.closers.verdicts, (∀ x ∈ errs, x.1 ≠ e.1) → e.2.close = s.now ∧ e.2.highest = maxOf t.closers.cut ∧ e.2.digest = Config.cutDigest t.closers.cut) ∧
      ∀ q ∈ t.closers.cut, ∃ r ∈ s.ledger.recs, r.seq = q ∧ r.state = .countersigned)) ∧
  (
  (∀ (s : State) (v : Verdict), booksRun s = true → s.closers.used = some v → s.closers.entry = 0 → s.clock.cycle < 24576 →
    Runs .bookEntryIssue s (fun t => t.closers = { s.closers with
        entry := 1, books := s.closers.books ++ [{ close := s.now, verdict := v, cut := s.closers.cut, readBack := false, partnerHeld := s.ledger.mode ≠ 1, torn := false }] } ∧
      t.clock.close = s.clock.close ∧ t.clock.cycle = max 24560 s.clock.cycle ∧
      t.ledger = { s.ledger with blocks := t.ledger.blocks, appended := t.ledger.appended } ∧ tget 0 t.ledger.appended 0 = tget 0 s.ledger.appended 0 + 1)) ∧
  (∀ s : State, s.closers.entry = 1 → exec .bookEntryComplete s = .next { s with closers := { s.closers with entry := 2 } }) ∧
  (∀ s : State, s.closers.entry = 1 → s.clock.cycle < 25600 →
    Runs .bookSkipped s (fun t => t.closers = { s.closers with entry := 0, cut := [], books := s.closers.books.filter (fun b => b.close ≠ s.now), skipped := inc 0xFFFF s.closers.skipped } ∧
      t.clock.cycle = 25599 ∧ t.now = s.now ∧ t.ledger = s.ledger)) ∧
  (∀ s : State, s.clock.cycle < 25600 → Runs .quietSliceStart s (fun t => t.quiet = true ∧ t.clock.cycle = max 24576 s.clock.cycle ∧ OnlyIn [.clock] s t))) ∧
  (
  (∀ (s : State) (b : Book), unreadBook s = some b →
    Runs (.bookReadback true) s (fun t => (∀ x ∈ t.closers.books, x.close = b.close → x.readBack = true) ∧
      (∀ x ∈ s.closers.books, x.close ≠ b.close → x ∈ t.closers.books) ∧ t.closers.books.length = s.closers.books.length ∧ t.closers.rewritten = s.closers.rewritten)) ∧
  (∀ (s : State) (b : Book), unreadBook s = some b →
    Runs (.bookReadback false) s (fun t => (∀ x ∈ t.closers.books, x.close = b.close → x.torn = true) ∧ (∀ c, unreadBook t = some c → c.close ≠ b.close) ∧
      (∀ x ∈ s.closers.books, x.close ≠ b.close → x ∈ t.closers.books) ∧ t.closers.books.length = s.closers.books.length ∧ t.closers.rewritten = s.closers.rewritten)) ∧
  (∀ (s : State) (b : Book), tornBook s = some b → closesRun s = true → s.clock.cycle < 24576 →
    Runs .bookRewrite s (fun t => (∀ x ∈ t.closers.books, x.close = b.close → x.torn = false) ∧
      (∀ x ∈ s.closers.books, x.close ≠ b.close → x ∈ t.closers.books) ∧ t.closers.rewritten = inc 0xFFFF s.closers.rewritten)) ∧
  (∀ s : State, 24576 ≤ s.clock.cycle → exec .bookRewrite s = .next s))

/-- The verdicts of the closers that vote. -/
def votes (s : State) : List Verdict := (s.closers.verdicts.filter (fun e => (votingClosers s).contains e.1)).map (fun e => e.2)

/-- VOTE (R49): the outcomes of the table for three and for two voting closers; two verdicts agree when they are equal in every bit. VOTE counts disagreements (R50): a closer whose verdict differs from
the verdict used has this close added to its count, the count of every other closer stays, and at the fourth within 2^20 closes its part ends at the next boundary. A unit that the vote halts (R54): no
verdict is used, every wicket of the charter reads Closed, the unit fences itself and sends Failed tallies, and GEN_CLOSER.MODE reads Halted. Each of these is said to answer a next state under
conditions on the state and the operands alone: vote. -/
def Obligations.VotesDecide : Prop :=
  (
  ∀ s : State, closesRun s = true → s.closers.verdicts ≠ [] → s.closers.used = none → s.clock.cycle < 24576 →
    (∀ v, votes s = [v, v, v] → Runs .vote s (fun t => t.closers.used = some v ∧ t.chip.halted = false)) ∧
    (∀ v w, v ≠ w → (votes s = [v, v, w] ∨ votes s = [v, w, v] ∨ votes s = [w, v, v]) → Runs .vote s (fun t => t.closers.used = some v ∧ t.chip.halted = false)) ∧
    (∀ u v w, u ≠ v → v ≠ w → u ≠ w → votes s = [u, v, w] → Runs .vote s (fun t => t.closers.used = none ∧ t.chip.halted = true)) ∧
    (∀ v, votes s = [v, v] → Runs .vote s (fun t => t.closers.used = some v ∧ t.chip.halted = false)) ∧
    (∀ v w, v ≠ w → votes s = [v, w] → Runs .vote s (fun t => t.closers.used = none ∧ t.chip.halted = true))) ∧
  (
  ∀ (s : State) (v : Verdict), closesRun s = true → s.closers.verdicts ≠ [] → s.closers.used = none → s.clock.cycle < 24576 → voteOutcome (votes s) = some v →
    (s.closers.verdicts.map (fun e => e.1)).Nodup → s.closers.units.length = 4 →
    Runs .vote s (fun t => ∀ n w, n < 4 → (n, w) ∈ s.closers.verdicts →
      (w = v → (closer t n).dis = (closer s n).dis ∧ (closer t n).leaving = (closer s n).leaving) ∧
      (w ≠ v → (closer t n).dis = (closer s n).dis.filter (fun c => s.now < c + 2 ^ 20) ++ [s.now] ∧
        (4 ≤ (closer t n).dis.length → (closer t n).leaving = true)))) ∧
  (
  ∀ s : State, closesRun s = true → s.closers.verdicts ≠ [] → s.closers.used = none → s.clock.cycle < 24576 → voteOutcome (votes s) = none →
    Runs .vote s (fun t => t.chip = { s.chip with halted := true } ∧ t.closers.mode = 2 ∧ t.closers.used = none ∧ t.closers.eventClose = s.now ∧
      t.pair.fenced = true ∧ t.pair.sendState = 3 ∧ t.pair.intakeHeld = true ∧
      t.pair.tallyCount = s.pair.tallyCount + (if s.ch (·.units) 1 = 2 ∧ 8 ≤ s.chip.step ∧ s.chip.step ≠ 13 ∧ s.chip.step ≠ 14 then 1 else 0) ∧ t.wickets.unitFailed = true ∧ (∀ w < wicketCount s, (wk t w).state = 0) ∧ t.ledger = s.ledger))

/-- CLOSE_BOUNDARY (R6, R54): a running unit goes on to cycle 0 of the next close; in a unit that has halted the close number stands still. The last step of a boundary's row 1 (R45): a close whose entry
did not complete lands nothing, and GEN_BOOKS.LANDED follows each close that lands. Each of these is said to answer a next state under conditions on the state and the operands alone: closeBoundary. -/
def Obligations.BoundariesLandCloses : Prop :=
  (
  (∀ s : State, closesRun s = true → Runs .closeBoundary s (fun t => t.now = s.now + 1 ∧ t.clock.cycle = 0 ∧ OnlyIn (mayChange .closeBoundary) s t)) ∧
  (∀ s : State, s.chip.pwrgd = true → s.chip.testMode = false → s.chip.locked = true → s.chip.halted = true →
    Runs .closeBoundary s (fun t => t.now = s.now ∧ t.clock.cycle = 0 ∧ t.chip = s.chip ∧ t.ints = s.ints))) ∧
  (
  (∀ s : State, s.closers.entry ≠ 2 → landCut s = s) ∧
  (∀ s : State, s.closers.entry = 2 → (landCut s).closers.landed = s.now - 1 ∧ (landCut s).now = s.now))

/-- A commit word of a sequence, as the four lanes that carry it (R261). -/
def commitLanes (seq : Nat) : Lanes := (natLe 4 (0xC2A70000 + seq)).map some

/-- HEADER_WRITE (R258, R261): a write below the commit word stores its enabled lanes in the header buffer of that wicket, and changes nothing else. COMMIT (R262–R266): a commit that is no repeat and is
taken outside the quiet slice is judged on the header as it then stands; LAST_SEQ and the result block take its sequence, its tag bytes and this close, the block reads Accepted or NotTaken, and a
command comes in flight only when it is accepted. A commit that is not judged at once (R262, R263, R266): a repeat is counted and leaves the result block; one that arrives in the quiet slice waits,
its result block reads Pending, and it is judged when it is taken in the next close. A commit is accepted only when no condition of R263 holds, and an earlier condition wins over a later one. Each of
these is said to answer a next state under conditions on the state and the operands alone: headerWrite, commit, quietCommitTake. -/
def Obligations.CommitsAreJudged : Prop :=
  (
  ∀ (w off : Nat) (data : Lanes) (s : State), writesTaken s = true → w < wicketCount s → off + data.length ≤ 60 → 0 < data.length → Memory.wf 0 (wk s w).hdr = true →
    Runs (.headerWrite w off data) s (fun t =>
      (∀ a, Memory.read 0 (wk t w).hdr a = if off ≤ a then ((data.getD (a - off) none).getD (Memory.read 0 (wk s w).hdr a)) else Memory.read 0 (wk s w).hdr a) ∧
      Memory.wf 0 (wk t w).hdr = true ∧ (∃ h, wk t w = { wk s w with hdr := h }) ∧ (∀ v, v ≠ w → wk t v = wk s v) ∧ OnlyIn [.wickets] s t)) ∧
  (
  ∀ (t w seq : Nat) (s : State), writesTaken s = true → w < wicketCount s → seq < 65536 → t < 24576 → s.clock.cycle < 24576 → ((wk s w).rState = 0 ∨ seq ≠ (wk s w).lastArrived) →
    let b := Memory.readN 0 (wk s w).hdr 0 60
    (judgment s w seq b = none → Runs (.commit t w 60 (commitLanes seq)) s (fun u =>
      (wk u w).lastSeq = seq ∧ (wk u w).rSeq = seq ∧ (wk u w).rState = 2 ∧ (wk u w).rStatus = 0 ∧ (wk u w).rDetail = 0 ∧ (wk u w).rTag = le b 4 2 ∧ (wk u w).rClose = s.now ∧
      ∃ c, u.cmds = s.cmds ++ [c] ∧ c.hdr = parseHdr b ∧ c.wicket = w ∧ c.cseq = seq ∧ c.pos.close = s.now ∧ c.pos.wicket = w)) ∧
    (∀ st de, judgment s w seq b = some (st, de) → Runs (.commit t w 60 (commitLanes seq)) s (fun u =>
      (wk u w).lastSeq = seq ∧ (wk u w).rSeq = seq ∧ (wk u w).rState = 3 ∧ (wk u w).rStatus = st ∧ (wk u w).rDetail = de ∧ (wk u w).rTag = le b 4 2 ∧ (wk u w).rClose = s.now ∧
      (wk u w).state = (wk s w).state ∧ u.cmds = s.cmds ∧ u.ledger.recs = s.ledger.recs))) ∧
  (
  (∀ (t w seq : Nat) (s : State), writesTaken s = true → w < wicketCount s → seq < 65536 → (wk s w).rState ≠ 0 → seq = (wk s w).lastArrived →
    Runs (.commit t w 60 (commitLanes seq)) s (fun u => u.wickets.stray = inc 0xFFFF s.wickets.stray ∧ (∃ h, wk u w = { wk s w with hdr := h }) ∧ u.cmds = s.cmds ∧ u.ledger = s.ledger)) ∧
  (∀ (t w seq : Nat) (s : State), writesTaken s = true → w < wicketCount s → seq < 65536 → ((wk s w).rState = 0 ∨ seq ≠ (wk s w).lastArrived) → t < 25600 → 24576 ≤ t →
    Runs (.commit t w 60 (commitLanes seq)) s (fun u => (wk u w).rState = 1 ∧ (wk u w).lastSeq = (wk s w).lastSeq ∧ (wk u w).rSeq = (wk s w).rSeq ∧
      (wk u w).waitingCommits = (wk s w).waitingCommits ++ [(seq, Memory.readN 0 (wk s w).hdr 0 60)] ∧ u.cmds = s.cmds ∧ u.ledger = s.ledger)) ∧
  (∀ (w : Nat) (q : List (Nat × List Byte)) (e : Nat × List Byte) (s : State), s.quiet = false → (wk s w).waitingCommits = q ++ [e] →
    Runs (.quietCommitTake w) s (fun u => (wk u w).waitingCommits = [] ∧ (wk u w).lastSeq = e.1 ∧ (wk u w).rSeq = e.1 ∧ (wk u w).rClose = s.now ∧
      ((wk u w).rState = 2 ∧ (wk u w).rStatus = 0 ∨ (wk u w).rState = 3 ∧ (wk u w).rStatus ≠ 0)))) ∧
  (
  ∀ (s : State) (w seq : Nat) (b : List Byte),
    let k := wk s w
    let h := parseHdr b
    let ring := if h.ring = 0xFFFF then s.ch (fun c => c.defaultRings.getD w 0) 0 else h.ring
    (judgment s w seq b = none → k.state = 1 ∨ 3 < k.state) ∧
    (judgment s w seq b = none → seq = (k.lastSeq + 1) % 65536 ∧ (crc32c (b.take 56)).toNat = le b 56 4 ∧ le b 4 2 < 16384 ∧ h.d ≤ 67108864 ∧ ring < 64 ∧ (rg s ring).enable = true ∧
      (rg s ring).draining = false ∧ findCmd s h.tag = none ∧ s.cmds.length < s.ch (·.queueLimit) 0 ∧ holdFull s = false ∧ usedBytes s + 64 ≤ areaBytes s) ∧
    (k.state = 0 → judgment s w seq b = some (0x30, if s.wickets.unitFailed then 2 else 1)) ∧
    (k.state = 3 → judgment s w seq b = some (0x31, 5)) ∧
    (k.state = 2 → judgment s w seq b = some (0x31, 4)) ∧
    (k.state = 1 → seq ≠ (k.lastSeq + 1) % 65536 → judgment s w seq b = some (0x10, 2)) ∧
    (k.state = 1 → seq = (k.lastSeq + 1) % 65536 → (crc32c (b.take 56)).toNat ≠ le b 56 4 → judgment s w seq b = some (0x10, 1)))

/-- APERTURE_WRITE (R264, R267, R269): a byte at an offset is taken as the byte with the one index of the window whose low 14 bits are the offset; one at or beyond D marks the command; a Free wicket
counts it as stray; a Closed one discards it. PAYLOAD_LEDGER_WRITE and LEDGER_ROOM_FREED (R44, R103, R105, R264, R267): contiguous bytes of a command with a data record are written in order, and T
rises by their number; the D-th byte makes the wicket Free; without room the wicket stalls at T; when room is freed no wicket stays stalled; nothing is written in the quiet slice. QUEUE_RESET_REQUEST
(R264, R281): the wicket named, or every wicket, is Resetting unless it is Closed, and the reset waits for row 4 of the boundary; a wicket beyond the count gives no request. CREDIT_BASE_ENABLE (R270):
ENABLE is set and ADDR taken, cut to a multiple of 64, and the line of every wicket is written where lines can be written; while ENABLE is 1 the address cannot change. Each of these is said to answer
a next state under conditions on the state and the operands alone: apertureWrite, payloadLedgerWrite, ledgerRoomFreed, queueResetRequest, creditBaseEnable. -/
def Obligations.PayloadAndCredit : Prop :=
  (
  (∀ (w o i : Nat) (v : Byte) (s : State), writesTaken s = true → w < wicketCount s → (wk s w).state = 2 → (wk s w).intentWritten = true →
    (wk s w).taken ≤ i → i < (wk s w).taken + 16384 → i % 16384 = o → i < (wk s w).declared →
    Runs (.apertureWrite w o [some v]) s (fun t => tget 0 (wk t w).arrived i = v ∧ (∀ j, j ≠ i → tget 0 (wk t w).arrived j = tget 0 (wk s w).arrived j) ∧
      (wk t w).taken = (wk s w).taken ∧ t.cmds = s.cmds ∧ t.ledger = s.ledger)) ∧
  (∀ (w o i : Nat) (v : Byte) (s : State), writesTaken s = true → w < wicketCount s → (wk s w).state = 2 → (wk s w).intentWritten = true → (wk s w).taken < (wk s w).declared →
    (wk s w).taken ≤ i → i < (wk s w).taken + 16384 → i % 16384 = o → (wk s w).declared ≤ i →
    Runs (.apertureWrite w o [some v]) s (fun t => t.wickets.payloadFaults = inc 0xFFFF s.wickets.payloadFaults ∧ (∀ j, tget 0 (wk t w).arrived j = tget 0 (wk s w).arrived j) ∧
      ∀ c ∈ t.cmds, c.hdr.tag = (wk s w).tag → c.wicket = w → c.cseq = (wk s w).cseq → c.excess = true)) ∧
  (∀ (w o : Nat) (data : Lanes) (s : State), writesTaken s = true → w < wicketCount s → (wk s w).state = 1 → data ≠ [] →
    exec (.apertureWrite w o data) s = .next { s with wickets := { s.wickets with stray := inc 0xFFFF s.wickets.stray } }) ∧
  (∀ (w o : Nat) (data : Lanes) (s : State), (wk s w).state = 0 → exec (.apertureWrite w o data) s = .next s)) ∧
  (
  (∀ (w n q : Nat) (c : Cmd) (s : State), s.quiet = false → s.chip.halted = false → (wk s w).state = 2 → findCmd s (wk s w).tag = some c → c.wicket = w → c.cseq = (wk s w).cseq →
    c.failed = false → c.recSeq = some q →
    let run := arrivedRun (wk s w).arrived (wk s w).taken (min n ((wk s w).declared - (wk s w).taken))
    (run ≠ [] → run.length ≤ roomLeft s / 64 * 64 →
      Runs (.payloadLedgerWrite w n) s (fun t => (wk t w).taken = (wk s w).taken + run.length ∧ (wk t w).taken ≤ (wk t w).declared ∧ (wk t w).declared = (wk s w).declared ∧
        ((wk s w).taken + run.length = (wk s w).declared → (wk t w).state = 1) ∧ ((wk s w).taken + run.length < (wk s w).declared → (wk t w).state = 2))) ∧
    (run ≠ [] → roomLeft s < 64 →
      Runs (.payloadLedgerWrite w n) s (fun t => (wk t w).taken = (wk s w).taken ∧ (wk t w).stalled = true ∧ t.ledger.full = true ∧ t.cmds = s.cmds))) ∧
  (∀ (w n : Nat) (s : State), s.quiet = true → exec (.payloadLedgerWrite w n) s = .next s) ∧
  (∀ s : State, roomLeft s ≠ 0 → Runs .ledgerRoomFreed s (fun t => t.ledger = { s.ledger with full := false } ∧ (∀ w, (wk t w).stalled = false) ∧
    ∀ w, (wk t w).taken = (wk s w).taken ∧ (wk t w).arrived = (wk s w).arrived))) ∧
  (
  (∀ (w : Nat) (s : State), writesTaken s = true → w < wicketCount s → (wk s w).state ≠ 0 →
    Runs (.queueResetRequest w false) s (fun t => (wk t w).state = 3 ∧ (wk t w).resetReq = true ∧ t.wickets.resetPending = true ∧ t.wickets.resetAll = s.wickets.resetAll ∧
      (∀ v, v ≠ w → wk t v = wk s v) ∧ t.cmds = s.cmds)) ∧
  (∀ (w : Nat) (s : State), writesTaken s = true →
    Runs (.queueResetRequest w true) s (fun t => t.wickets.resetAll = true ∧ t.wickets.resetPending = true ∧ (∀ v < wicketCount s, (wk s v).state ≠ 0 → (wk t v).state = 3) ∧
      (∀ v, (wk s v).state = 0 → (wk t v).state = 0) ∧ t.cmds = s.cmds)) ∧
  (∀ (w : Nat) (s : State), writesTaken s = true → wicketCount s ≤ w →
    exec (.queueResetRequest w false) s = .next { s with wickets := { s.wickets with qWicket := w % 512, qAll := false } })) ∧
  (
  (∀ (addr : Nat) (s : State), writesTaken s = true → s.wickets.creditEnable = false →
    Runs (.creditBaseEnable addr) s (fun t => t.wickets.creditEnable = true ∧ t.wickets.creditAddr = addr / 64 * 64 ∧
      (s.returns.holding = false → s.returns.draining = false → s.cfg.busMaster = true → s.chip.halted = false → ∀ w < wicketCount s, (wk t w).lineWritten = true ∧ (wk t w).lineLimit = creditLimit s w))) ∧
  (∀ (addr : Nat) (s : State), s.wickets.creditEnable = true → exec (.creditBaseEnable addr) s = .next s))

/-- RING_ENTRY_WRITE (R273, R275, R278): with room and no wrap the front entry goes to the tail, header and phase word whole and its payload behind it; the tail, the entry sequence and the phase move on.
(As the last held entry goes, credit lines and messages follow it, R250.) RING_ENTRY_WRITE (R248, R275): without room the ring waits and nothing is written; while postings are held, bus mastering is
off or the unit has halted, nothing happens. RET_HEAD_WRITE (R276): a head value that is a multiple of 64, below S and in ring order from the head to the tail is used; any other is counted in
BAD_HEAD. A completion of a shadow fetch acts in the same way, and a lost one leaves the head (R248). RING_ENABLE_SET and RING_ENABLE_CLEAR (R272, R279): a ring enabled afresh starts at head 0, tail
0, phase 1; a ring in use drains first; ENABLE written 1 while it drains changes nothing. Each of these is said to answer a next state under conditions on the state and the operands alone:
ringEntryWrite, retHeadWrite, ringEnableSet, ringEnableClear, hostReadCompletion. -/
def Obligations.ReturnRings : Prop :=
  (
  ∀ (n : Nat) (e : Entry) (q : List Entry) (s : State),
    let r := rg s n
    let total := 64 + ceilDiv e.len 64 * 64
    s.chip.halted = false → s.returns.holding = false → s.cfg.busMaster = true → r.queue = e :: q → e.kind = 2 → e.opcode ≠ 5 → e.final = none → r.tail + total ≤ 2 ^ r.sizeLog →
    total ≤ (r.head + 2 * 2 ^ r.sizeLog - r.tail - 64) % 2 ^ r.sizeLog → r.unraised + 1 < r.irqCount →
    Runs (.ringEntryWrite n) s (fun t =>
      (s.returns.draining = false → Memory.readN 0 t.hostMem (r.base + r.tail) 64 = entryHeader s n r e ++ natLe 4 (2 ^ 31 * b1 r.phase)) ∧
      (s.returns.draining = false → 0 < e.len → Memory.readN 0 t.hostMem (r.base + r.tail + 64) (total - 64) = padTo (total - 64) (Memory.bytes e.payload e.len)) ∧
      (rg t n).queue = q ∧ (rg t n).seq = r.seq + 1 ∧ (rg t n).waiting = false ∧
      (rg t n).tail = (if r.tail + total = 2 ^ r.sizeLog then 0 else r.tail + total) ∧ (rg t n).phase = (if r.tail + total = 2 ^ r.sizeLog then !r.phase else r.phase) ∧
      (∀ m, m ≠ n → rg t m = rg s m) ∧ t.cmds = s.cmds)) ∧
  (
  (∀ (n : Nat) (e : Entry) (q : List Entry) (s : State),
    let r := rg s n
    let total := 64 + ceilDiv e.len 64 * 64
    s.chip.halted = false → s.returns.holding = false → s.cfg.busMaster = true → r.queue = e :: q → r.tail + total ≤ 2 ^ r.sizeLog →
    (r.head + 2 * 2 ^ r.sizeLog - r.tail - 64) % 2 ^ r.sizeLog < total →
    Runs (.ringEntryWrite n) s (fun t => rg t n = { r with waiting := true } ∧ (∀ m, m ≠ n → rg t m = rg s m) ∧ OnlyIn [.returns] s t)) ∧
  (∀ (n : Nat) (s : State), (s.chip.halted = true ∨ s.returns.holding = true ∨ s.cfg.busMaster = false) → s.returns.draining = false → exec (.ringEntryWrite n) s = .next s)) ∧
  (
  let valid := fun (r : Ring) (v : Nat) => v % 64 = 0 ∧ v < 2 ^ r.sizeLog ∧ (v + 2 ^ r.sizeLog - r.head) % 2 ^ r.sizeLog ≤ (r.tail + 2 ^ r.sizeLog - r.head) % 2 ^ r.sizeLog
  (∀ (n v : Nat) (s : State), writesTaken s = true → n < 64 → valid (rg s n) v → Runs (.retHeadWrite n v) s (fun t => (rg t n).head = v ∧ (rg t n).badHead = (rg s n).badHead ∧ OnlyIn [.returns] s t)) ∧
  (∀ (n v : Nat) (s : State), writesTaken s = true → n < 64 → ¬ valid (rg s n) v → Runs (.retHeadWrite n v) s (fun t => rg t n = { rg s n with badHead := inc 0xFFFF (rg s n).badHead } ∧ OnlyIn [.returns] s t)) ∧
  (∀ (n v : Nat) (s : State), (rg s n).fetching = true → s.cfg.busMaster = true → v < 2 ^ 64 → valid (rg s n) v →
    Runs (.hostReadCompletion (.shadow n v)) s (fun t => (rg t n).head = v ∧ (rg t n).fetching = false ∧ OnlyIn [.returns] s t)) ∧
  (∀ (n : Nat) (s : State), Runs (.hostReadCompletion (.shadowTimeout n)) s (fun t => rg t n = { rg s n with fetching := false } ∧ OnlyIn [.returns] s t)) ∧
  (∀ (n len : Nat) (bytes : List Byte) (s : State), n < s.courier.channels.length → (chan s n).hostRead = some len → (mastersOff s = false ∨ n < 12) →
    Runs (.hostReadCompletion (.channel n bytes)) s (fun t => (chan t n).hostRead = none ∧ (chan t n).fetchedData = (chan s n).fetchedData ++ padTo len bytes ∧ OnlyIn [.courier] s t))) ∧
  (
  (∀ (n : Nat) (s : State), writesTaken s = true → n < 64 → (rg s n).enable = false →
    Runs (.ringEnableSet n) s (fun t => (rg t n).enable = true ∧ (rg t n).head = 0 ∧ (rg t n).tail = 0 ∧ (rg t n).phase = true ∧ (rg t n).queue = [] ∧ (rg t n).draining = false ∧
      (rg t n).base = (rg s n).base ∧ (rg t n).sizeLog = (rg s n).sizeLog ∧ (∀ m, m ≠ n → rg t m = rg s m) ∧ OnlyIn [.returns] s t)) ∧
  (∀ (n : Nat) (s : State), writesTaken s = true → n < 64 → (rg s n).enable = true → Runs (.ringEnableSet n) s (fun t => ∀ m, rg t m = rg s m)) ∧
  (∀ (n : Nat) (s : State), writesTaken s = true → n < 64 → (rg s n).enable = true → ringBusy s n = true →
    Runs (.ringEnableClear n) s (fun t => rg t n = { rg s n with draining := true } ∧ OnlyIn [.returns] s t)) ∧
  (∀ (n : Nat) (s : State), writesTaken s = true → n < 64 → (rg s n).enable = true → ringBusy s n = false →
    Runs (.ringEnableClear n) s (fun t => rg t n = { rg s n with enable := false, draining := false } ∧ OnlyIn [.returns] s t)))

/-- BUS_MASTER_CLEAR and BUS_MASTER_SET (R248–R250): entries queued and not issued join the hold, at most 4,096 of them, in ring order, and the rest wait behind it; when bus mastering is set in D0 the
hold drains and is no longer in force, and credit lines and messages wait until all of it is issued. PARKED_NOTICE (R365): a parked command has one notice, which is no completion: the command stays in
flight and parked. Interrupt sources (R239, R241, R278): a delay that has run out and INT_TEST set a source bit, a write of 1 clears it, and no bit changes otherwise. INTERRUPT_MODE_CHANGE and
VECTOR_UNMASK (R239–R241): the mode of the enables is in force, INTA is asserted only in INTx mode and only while a source is active; a vector unmasked while it is pending and active has its message
sent and its pending bit cleared. Each of these is said to answer a next state under conditions on the state and the operands alone: parkedNotice, irqDelayExpiry, interruptModeChange, vectorUnmask,
intPendingClear, intTestFire, busMasterClear, busMasterSet. -/
def Obligations.HoldAndInterrupts : Prop :=
  (
  (∀ s : State, s.cfg.busMaster = true → s.returns.holding = false →
    Runs .busMasterClear s (fun t => t.cfg = { s.cfg with busMaster := false } ∧ t.returns.holding = true ∧ t.returns.hold.length ≤ 4096 ∧
      t.returns.hold ++ t.returns.overflow = s.returns.rings.flatMap (fun e => e.2.queue.map (fun q => (e.1, q))) ∧ (∀ n, (rg t n).queue = [] ∧ (rg t n).fetching = false) ∧
      OnlyIn [.cfg, .returns] s t)) ∧
  (∀ s : State, s.cfg.busMaster = false → s.cfg.powerState = 0 →
    Runs .busMasterSet s (fun t => t.cfg = { s.cfg with busMaster := true } ∧ t.returns.holding = false ∧ t.returns.hold = [] ∧ t.returns.overflow = [] ∧
      (t.returns.draining = false → ∀ n, (rg t n).queue = []) ∧ t.cmds = s.cmds)) ∧
  (∀ s : State, s.cfg.busMaster = false → s.cfg.powerState ≠ 0 → exec .busMasterSet s = .next { s with cfg := { s.cfg with busMaster := true } })) ∧
  (
  (∀ (tag : Nat) (c : Cmd) (s : State), findCmd s tag = some c → c.phase = .parked → c.noticeSent = false → (rg s c.ring).enable = true → s.returns.holding = false → s.cfg.busMaster = true →
    Runs (.parkedNotice tag) s (fun t => findCmd t tag = some { c with noticeSent := true } ∧
      (∃ e, (rg t c.ring).queue = (rg s c.ring).queue ++ [e] ∧ e.kind = 3 ∧ e.tag = tag ∧ e.opcode = c.hdr.opcode ∧ e.cseq = c.cseq ∧ e.final = none) ∧ OnlyIn [.cmds, .returns] s t)) ∧
  (∀ (tag : Nat) (c : Cmd) (s : State), findCmd s tag = some c → c.noticeSent = true → exec (.parkedNotice tag) s = .next s)) ∧
  (
  (∀ (n : Nat) (s : State), n < 64 → (rg s n).irqDelay ≠ 0 → 0 < (rg s n).unraised → (rg s n).oldest + (rg s n).irqDelay ≤ s.now →
    Runs (.irqDelayExpiry n) s (fun t => t.ints.ringPending = s.ints.ringPending ||| BitVec.ofNat 64 (2 ^ n) ∧ t.ints.cause = s.ints.cause ∧ (rg t n).unraised = 0)) ∧
  (∀ (n : Nat) (s : State), (rg s n).irqDelay = 0 → exec (.irqDelayExpiry n) s = .next s) ∧
  (∀ (rings : BitVec 64) (mgmt : BitVec 10) (s : State), writesTaken s = true →
    Runs (.intPendingClear rings mgmt) s (fun t => t.ints.ringPending = s.ints.ringPending &&& ~~~rings ∧ t.ints.cause = s.ints.cause &&& ~~~mgmt)) ∧
  (∀ (n : Nat) (s : State), writesTaken s = true → n < 64 →
    Runs (.intTestFire n) s (fun t => t.ints.ringPending = s.ints.ringPending ||| BitVec.ofNat 64 (2 ^ n) ∧ t.ints.cause = s.ints.cause ∧ t.ints.testSource = n)) ∧
  (∀ s : State, writesTaken s = true →
    Runs (.intTestFire 64) s (fun t => t.ints.ringPending = s.ints.ringPending ∧ t.ints.cause = s.ints.cause ||| BitVec.ofNat 10 (2 ^ 9) ∧ t.ints.testSource = 64))) ∧
  (
  (∀ (msix msi off : Bool) (mme : Nat) (s : State), s.chip.step ≠ 14 →
    Runs (.interruptModeChange msix msi off mme) s (fun t => t.ints.mode = (if msix then 3 else if msi then 2 else if off then 0 else 1) ∧
      t.ints.inta = (!msix && !msi && !off && !(activeSources s.ints).isEmpty) ∧ t.ints.ringPending = s.ints.ringPending ∧ t.ints.cause = s.ints.cause)) ∧
  (∀ (v : Nat) (s : State), v < 65 → s.cfg.msixEnable = true →
    Runs (.vectorUnmask v) s (fun t => (tget {} t.ints.table v).mask = false ∧ (tget {} t.ints.table v).addr = (tget {} s.ints.table v).addr ∧
      (∀ u, u ≠ v → tget {} t.ints.table u = tget {} s.ints.table u) ∧ t.cfg = s.cfg)) ∧
  (∀ (v : Nat) (s : State), v < 65 → s.cfg.msixEnable = true → s.chip.step ≠ 14 → s.ints.mode = 3 → s.cfg.functionMask = false → canSend s = true →
    v ∈ activeVectors s → v ∈ s.ints.active → v ∈ s.ints.pba →
    Runs (.vectorUnmask v) s (fun t => v ∉ t.ints.pba ∧ s.ints.sent < t.ints.sent)) ∧
  (∀ (v : Nat) (s : State), v < 32 → s.cfg.msixEnable = false → Runs (.vectorUnmask v) s (fun t => t.cfg.msiMask = s.cfg.msiMask &&& ~~~(BitVec.ofNat 32 (2 ^ v)) ∧ t.ints.table = s.ints.table)))

/-- FUNCTION_LEVEL_RESET and HOT_RESET (R245, R247): Bus Master Enable and Memory Space Enable clear, every wicket is Closed with nothing waiting, postings are held; a hot reset takes the link down too,
and one that finds a function-level reset under way makes one reset of both. RESET_COMPLETE (R245, R246): the host's registers are at reset, no entry is held, no source is pending, the device state is
Full, wickets are Free where commands are taken, and the reset is counted; records, volumes and the close number stay. Each of these is said to answer a next state under conditions on the state and
the operands alone: functionLevelReset, hotReset, resetComplete. -/
def Obligations.ResetsOfTheHost : Prop :=
  (
  (∀ s : State, alive s = true → s.resets.kind = 0 → s.link.up = true →
    Runs .functionLevelReset s (fun t => t.resets.kind = 2 ∧ t.resets.since = s.now ∧ t.resets.accounted = false ∧ t.cfg.busMaster = false ∧ t.cfg.memSpace = false ∧ t.cfg.powerState = 0 ∧
      t.returns.holding = true ∧ t.link.up = true ∧ (∀ w < wicketCount s, (wk t w).state = 0 ∧ (wk t w).waitingCommits = [] ∧ (wk t w).arrived = []) ∧ t.cmds = s.cmds ∧ t.ledger = s.ledger)) ∧
  (∀ s : State, alive s = true → s.resets.kind = 0 →
    Runs .hotReset s (fun t => t.resets.kind = 1 ∧ t.resets.since = s.now ∧ t.cfg.busMaster = false ∧ t.cfg.memSpace = false ∧ t.returns.holding = true ∧ t.link.up = false ∧ t.link.training = true ∧
      (∀ w < wicketCount s, (wk t w).state = 0) ∧ t.cmds = s.cmds ∧ t.ledger = s.ledger)) ∧
  (∀ s : State, alive s = true → s.resets.kind = 2 →
    Runs .hotReset s (fun t => t.resets.kind = 1 ∧ t.resets.account = s.resets.account ∧ t.link.up = false ∧ t.link.training = true ∧ OnlyIn [.resets, .link] s t))) ∧
  (
  ∀ s : State, s.clock.cycle = 0 → resetReady s = true →
    Runs .resetComplete s (fun t => t.resets.kind = 0 ∧ t.resets.last = s.now ∧
      t.resets.hot = (if s.resets.kind = 1 then inc 0xFFF s.resets.hot else s.resets.hot) ∧ t.resets.flr = (if s.resets.kind = 1 then s.resets.flr else inc 0xFFF s.resets.flr) ∧
      t.returns = {} ∧ t.ints.ringPending = 0 ∧ t.ints.cause = 0 ∧ t.ints.kept = [] ∧ t.cfg = { ({} : ConfigSpace) with read := s.cfg.read } ∧ t.power.state = 0 ∧ t.power.entryTag = none ∧
      (∀ w < wicketCount s, wk t w = { ({} : Wicket) with state := openState s }) ∧ t.ledger = s.ledger ∧ t.vols = s.vols ∧ t.now = s.now))

/-- D3HOT_WRITE and D0_WRITE (R254, R255): PowerState follows, postings are held in D3hot, and a part that was Dormant returns to the state it had before; a part in D3hot whose entry still waits abandons
it. DORMANT_ENTRY, REST_ENTRY and ENTRY_DEADLINE_EXPIRY (R252, R254, R287): at a boundary whose conditions hold the part enters the state, keeps the state to return to, and signals; a POWER to Rest
ends Good when it enters and Superseded when its deadline has passed. WAKE_CAUSE and ASPM_L1_ENTRY (R256, R257): a cause that holds sets its bit in a Dormant part and leaves a part that is not Dormant
as it is; the link enters L1 only where charter and host allow it. LINK_TRAINING_RELEASE and LINK_UP (R28, R29, R227, R228): the link may train from step 4 on, and comes up at a rate and width within
the charter's ceiling, in Flit mode at 64 GT/s; beyond the ceiling it does not come up. Each of these is said to answer a next state under conditions on the state and the operands alone:
linkTrainingRelease, d3hotWrite, dormantEntry, d0Write, restEntry, entryDeadlineExpiry, wakeCause, aspmL1Entry, linkUp. -/
def Obligations.PowerStates : Prop :=
  (
  (∀ s : State, alive s = true → s.resets.kind = 0 → s.cfg.powerState = 0 →
    Runs .d3hotWrite s (fun t => t.cfg = { s.cfg with powerState := 3 } ∧ t.power.entryPending = true ∧ t.power.target = 3 ∧ t.power.state = s.power.state ∧ t.returns.holding = true)) ∧
  (∀ s : State, alive s = true → s.resets.kind = 0 → s.cfg.powerState ≠ 0 → s.power.state = 3 →
    Runs .d0Write s (fun t => t.cfg.powerState = 0 ∧ t.power.state = s.power.back ∧ t.ints.wakeLow = false ∧ (s.cfg.busMaster = true → t.returns.holding = false ∧ t.returns.hold = []))) ∧
  (∀ s : State, alive s = true → s.resets.kind = 0 → s.cfg.powerState ≠ 0 → s.power.state ≠ 3 → s.power.entryPending = true → s.cfg.busMaster = false →
    Runs .d0Write s (fun t => t.cfg.powerState = 0 ∧ t.power.state = s.power.state ∧ t.power.entryPending = false ∧ t.power.target = s.power.state ∧ t.returns = s.returns))) ∧
  (
  (∀ s : State, s.clock.cycle = 0 → dormantReady s = true →
    Runs .dormantEntry s (fun t => t.power.state = 3 ∧ t.power.back = s.power.state ∧ t.power.entryPending = false ∧ t.power.eventClose = s.now ∧ t.mgmt.opStored = s.mgmt.opMs ∧
      t.ints.cause = s.ints.cause ||| BitVec.ofNat 10 (2 ^ 7))) ∧
  (∀ (tag : Nat) (c : Cmd) (s : State), s.clock.cycle = 0 → s.power.entryTag = some tag → findCmd s tag = some c → restReady s tag = true →
    Runs .restEntry s (fun t => t.power.state = 2 ∧ t.power.entryTag = none ∧ t.power.entryPending = false ∧
      findCmd t tag = some { c with phase := .due s.now, status := 0, detail := 0, result := natLe 1 2 })) ∧
  (∀ (tag : Nat) (c : Cmd) (s : State), s.clock.cycle = 0 → s.power.entryTag = some tag → findCmd s tag = some c → restReady s tag = false → c.named < s.now →
    Runs .entryDeadlineExpiry s (fun t => t.power.state = s.power.state ∧ t.power.entryTag = none ∧ t.power.entryPending = false ∧ t.power.exitCause = 6 ∧
      findCmd t tag = some { c with phase := .due s.now, status := 0x61, detail := 1, result := natLe 1 s.power.state }))) ∧
  (
  (∀ s : State, s.power.state = 3 → sensorAlarm s = true →
    Runs (.wakeCause .sensor) s (fun t => t.ints.wake = s.ints.wake ||| 2 ∧ t.ints.wakeClose = s.now ∧ t.cfg.pmeStatus = (s.cfg.pmeStatus || s.cfg.pmeEn) ∧ OnlyIn [.ints, .cfg] s t)) ∧
  (∀ s : State, s.power.state = 3 → s.ledger.refuse = true → Runs (.wakeCause .ledger) s (fun t => t.ints.wake = s.ints.wake ||| 4 ∧ OnlyIn [.ints, .cfg] s t)) ∧
  (∀ s : State, s.power.state = 3 → 0 < s.pair.chain.misses → Runs (.wakeCause .tally) s (fun t => t.ints.wake = s.ints.wake ||| 1 ∧ OnlyIn [.ints, .cfg] s t)) ∧
  (∀ (c : WakeCause) (s : State), s.power.state ≠ 3 → exec (.wakeCause c) s = .next s) ∧
  (∀ (idle : Nat) (s : State), alive s = true → s.link.up = true → bit (s.ch (·.linkFlags) 0) 1 = true → bit s.cfg.aspm 1 = true → 64000 ≤ idle →
    exec (.aspmL1Entry idle false) s = .next { s with link := { s.link with aspm := 2 } }) ∧
  (∀ (idle : Nat) (deep : Bool) (s : State), bit s.cfg.aspm 1 = false → exec (.aspmL1Entry idle deep) s = .next s)) ∧
  (
  (∀ s : State, alive s = true → s.link.up = false → 4 ≤ s.chip.step → exec .linkTrainingRelease s = .next { s with link := { s.link with training := true } }) ∧
  (∀ s : State, s.chip.step < 4 → exec .linkTrainingRelease s = .next s) ∧
  (∀ (rate width : Nat) (s : State), alive s = true → s.link.training = true → 1 ≤ rate → rate < 6 → rate ≤ linkRate s → width ∈ [1, 2, 4, 8] → width ≤ linkWidth s →
    exec (.linkUp rate width false) s = .next { s with link := { s.link with training := false, up := true, rate, width, flit := false, aspm := 0, ltr := 0 } }) ∧
  (∀ (width : Nat) (s : State), alive s = true → s.link.training = true → 6 ≤ linkRate s → width ∈ [1, 2, 4, 8] → width ≤ linkWidth s →
    exec (.linkUp 6 width true) s = .next { s with link := { s.link with training := false, up := true, rate := 6, width, flit := true, aspm := 0, ltr := 0 } }) ∧
  (∀ (rate width : Nat) (flit : Bool) (s : State), (linkRate s < rate ∨ linkWidth s < width) → exec (.linkUp rate width flit) s = .next s))

/-- CONFIG_ACCESS (R230–R232, R245): a read returns the double-word that holds the byte and marks that a read was seen; a base address register takes only the bits above its window's size; a reset under
way answers Retry. MEMORY_REQUEST (R236, R237, R258): a request while memory space is off, or beyond its window, is unsupported; a read of the wicket window has no side effect and returns the bytes of
the wickets. REGISTER_READ_CLEAR (R12, R13): an aligned 64-bit read returns the register; a 32-bit read of the low half returns it and latches the high half, which the next read of the high half
returns; a read that is not aligned has no side effect; while commits wait to be taken, a read waits behind them (R57). REGISTER_WRITE (R10, R12, R13): a low half is held and does nothing; the high
half that follows has the effect of one 64-bit write of both; a narrower or unaligned write has no effect on any register, nor has one to a register that does not answer. Each of these is said to
answer a next state under conditions on the state and the operands alone: memoryRequest, configAccess, registerReadClear, registerWrite. -/
def Obligations.WindowsAndRegisters : Prop :=
  (
  (∀ (off : Nat) (s : State), alive s = true → s.link.up = true → s.resets.kind = 0 → off < 4096 →
    Runs (.configAccess off none) s (fun t => t.rsp = .data (natLe 4 (cfgRead s (off / 4 * 4))) ∧ t.cfg = { s.cfg with read := true } ∧ OnlyIn [.rsp, .cfg, .link] s t)) ∧
  (∀ (v : Nat) (s : State), alive s = true → s.link.up = true → s.resets.kind = 0 → v < 2 ^ 32 →
    Runs (.configAccess 0x18 (some v)) s (fun t => t.rsp = .done ∧ cfgRead t 0x18 = v / 0x20_0000 * 0x20_0000 + 4 ∧ cfgRead t 0x1C = cfgRead s 0x1C ∧ OnlyIn [.rsp, .cfg, .link] s t)) ∧
  (∀ (off : Nat) (w : Option Nat) (s : State), alive s = true → s.link.up = true → s.resets.kind ≠ 0 → exec (.configAccess off w) s = .next { s with rsp := .retry }) ∧
  (∀ (off : Nat) (w : Option Nat) (s : State), s.link.up = false → exec (.configAccess off w) s = .next s)) ∧
  (
  (∀ (m : MemReq) (s : State), windowOpen s = false → exec (.memoryRequest m) s = .next { s with rsp := .unsupported }) ∧
  (∀ (off len : Nat) (s : State), windowOpen s = true → inRecovery s = false → off + len ≤ windowSize s .wicket →
    Runs (.memoryRequest (.rd .wicket off len)) s (fun t => t.rsp = .data ((List.range len).map (fun i => wicketByte s ((off + i) / 32768) ((off + i) % 32768))) ∧ OnlyIn [.rsp, .link] s t)) ∧
  (∀ (w : Window) (off len : Nat) (s : State), windowOpen s = true → windowSize s w < off + len →
    Runs (.memoryRequest (.rd w off len)) s (fun t => t.rsp = .unsupported ∧ OnlyIn [.rsp, .link] s t)) ∧
  (∀ (off : Nat) (s : State), windowOpen s = true → commitsWait s = true → off + 8 ≤ 0x20_0000 →
    Runs (.memoryRequest (.rd .control off 8)) s (fun t => t.rsp = .none ∧ t.wickets = { s.wickets with deferred := s.wickets.deferred ++ [(off, 8)] } ∧ OnlyIn [.rsp, .link, .wickets] s t))) ∧
  (
  (∀ (a : Nat) (s : State), windowOpen s = true → commitsWait s = false → a % 8 = 0 → a + 8 ≤ 0x20_0000 → answers s a = true →
    Runs (.registerReadClear a 8) s (fun t => t = { readClear s a true true with rsp := .data (natLe 8 (hostReg s a)) })) ∧
  (∀ (a : Nat) (s : State), windowOpen s = true → commitsWait s = false → a % 8 = 0 → a + 8 ≤ 0x20_0000 → answers s a = true →
    Runs (.registerReadClear a 4) s (fun t => t.rsp = .data (natLe 4 (hostReg s a)) ∧
      Runs (.registerReadClear (a + 4) 4) t (fun u => u.rsp = .data (natLe 4 (hostReg s a / 2 ^ 32)) ∧ OnlyIn [.rsp, .latched] t u))) ∧
  (∀ (a n : Nat) (s : State), windowOpen s = true → commitsWait s = false → a + n ≤ 0x20_0000 → n ≤ 8 → ¬ (n = 8 ∧ a % 8 = 0) → ¬ (n = 4 ∧ a % 4 = 0) →
    Runs (.registerReadClear a n) s (fun t => t = { s with rsp := .data ((List.range n).map (fun i => byteOf (hostReg s ((a + i) / 8 * 8) / 2 ^ (8 * ((a + i) % 8))))) })) ∧
  (∀ (a : Nat) (s : State), windowOpen s = true → commitsWait s = false → a % 8 = 0 → a + 8 ≤ 0x20_0000 → answers s a = false →
    exec (.registerReadClear a 8) s = .next { s with rsp := .data (zeros 8) }) ∧
  (∀ (a n : Nat) (s : State), windowOpen s = true → commitsWait s = true → a + n ≤ 0x20_0000 → n ≤ 8 →
    exec (.registerReadClear a n) s = .next { s with wickets := { s.wickets with deferred := s.wickets.deferred ++ [(a, n)] }, rsp := .none })) ∧
  (
  (∀ (a v : Nat) (s : State), windowOpen s = true → a % 8 = 0 → a + 8 ≤ 0x20_0000 → v < 2 ^ 32 →
    Runs (.registerWrite a ((natLe 4 v).map some)) s (fun t => t = { s with heldLow := tset s.heldLow a v, rsp := .done })) ∧
  (∀ (a lo hi : Nat) (s : State), windowOpen s = true → s.rsp = .done → a % 8 = 0 → a + 8 ≤ 0x20_0000 → lo < 2 ^ 32 → hi < 2 ^ 32 →
    Runs (.registerWrite a ((natLe 4 lo).map some)) s (fun t =>
      exec (.registerWrite (a + 4) ((natLe 4 hi).map some)) t = exec (.registerWrite a ((natLe 8 (lo + 2 ^ 32 * hi)).map some)) s)) ∧
  (∀ (a : Nat) (data : Lanes) (s : State), windowOpen s = true → a + data.length ≤ 0x20_0000 → (data.length < 4 ∨ a % 4 ≠ 0) →
    exec (.registerWrite a data) s = .next { s with rsp := .done }) ∧
  (∀ (a v : Nat) (s : State), windowOpen s = true → a % 8 = 0 → a + 8 ≤ 0x20_0000 → answers s a = false → v < 2 ^ 64 →
    exec (.registerWrite a ((natLe 8 v).map some)) s = .next { s with heldLow := tdel s.heldLow a, rsp := .done }))

/-- The command of a tag has ended with a status, a detail and result fields; its Completion stands on its ring or waits for an earlier overlapping one (R63). -/
def Ended (t : State) (tag status detail : Nat) (result : List Byte) : Prop :=
  ∃ c, findCmd t tag = some c ∧ (c.phase = .released ∨ c.phase = .queued) ∧ c.status = status ∧ c.detail = detail ∧ c.result = result

/-- The records that come before a command in acceptance order (R56, R61). -/
def before (s : State) (c : Cmd) (r : Rec) : Bool := recLt r { seq := 0, kind := 1, pos := c.pos, rank := s.ledger.rank }

/-- READ, VERIFY and READ_WAIT_END (R61, R92, R93, R297, R298, R300): a range that nothing has written ends Good at once, with zeros for a READ, no lost block and none decoded; a single block that a
landed record gives is read from that record; a read behind an overlapping write that has neither landed nor ended waits, and goes on when it need not wait any more. WRITE, RELEASE and CLOSE-WAIT
(R102, R114, R301, R302): a WRITE begins one data record for its payload; the intent record of a RELEASE is the record that lands; a CLOSE-WAIT is due two boundaries after the later of the named and
the acceptance close. Each of these is said to answer a next state under conditions on the state and the operands alone: read, write, verify, release, closeWait, readWaitEnd. -/
def Obligations.BlockCommands : Prop :=
  (
  (∀ (tag : Nat) (c : Cmd) (s : State), findCmd s tag = some c → c.phase = .started → c.hdr.opcode = 1 → c.failed = false → c.unlocated = 0 → readWaits s c = false →
    (∀ i < c.hdr.blocks, blockSource s c.hdr.volume (c.hdr.lba + i) i (before s c) = .zero) →
    Runs (.read tag) s (fun t => Ended t tag 0 0 (natLe 8 (2 ^ 64 - 1) ++ natLe 4 0 ++ natLe 4 0) ∧ ∃ k, findCmd t tag = some k ∧ k.data = [] ∧ k.dataLen = 4096 * c.hdr.blocks)) ∧
  (∀ (tag : Nat) (c : Cmd) (r : Rec) (s : State), findCmd s tag = some c → c.phase = .started → c.hdr.opcode = 1 → c.failed = false → c.unlocated = 0 → readWaits s c = false → c.hdr.blocks = 1 →
    newestRec s c.hdr.volume c.hdr.lba (before s c) = some r → lossAt s c.hdr.volume c.hdr.lba = false →
    Runs (.read tag) s (fun t => Ended t tag 0 0 (natLe 8 (2 ^ 64 - 1) ++ natLe 4 0 ++ natLe 4 0) ∧
      ∃ k, findCmd t tag = some k ∧ k.data = Memory.place 0 [] 0 4096 (r.block c.hdr.lba) ∧ k.dataLen = 4096)) ∧
  (∀ (tag : Nat) (c : Cmd) (s : State), findCmd s tag = some c → c.phase = .started → c.hdr.opcode = 3 → bit c.hdr.flags 0 = false → c.failed = false → c.unlocated = 0 → readWaits s c = false →
    (∀ i < c.hdr.blocks, blockSource s c.hdr.volume (c.hdr.lba + i) i (before s c) = .zero) →
    Runs (.verify tag) s (fun t => Ended t tag 0 0 (natLe 8 (2 ^ 64 - 1) ++ natLe 4 0 ++ natLe 4 c.mended ++ natLe 2 (hold 0xFFFF c.located) ++ natLe 2 0 ++ natLe 4 c.rowsChecked))) ∧
  (∀ (tag : Nat) (c : Cmd) (s : State), findCmd s tag = some c → c.phase = .started → c.hdr.opcode = 1 → c.failed = false → readWaits s c = true →
    Runs (.read tag) s (fun t => findCmd t tag = some { c with phase := .waiting } ∧ OnlyIn [.cmds] s t)) ∧
  (∀ (tag : Nat) (c : Cmd) (s : State), findCmd s tag = some c → c.phase = .waiting → c.hdr.opcode = 1 → c.unlocated = 0 → readWaits s c = false →
    (∀ i < c.hdr.blocks, blockSource s c.hdr.volume (c.hdr.lba + i) i (before s c) = .zero) →
    Runs (.readWaitEnd tag) s (fun t => Ended t tag 0 0 (natLe 8 (2 ^ 64 - 1) ++ natLe 4 0 ++ natLe 4 0))) ∧
  (∀ (tag : Nat) (c : Cmd) (s : State), findCmd s tag = some c → c.phase = .waiting → readWaits s c = true → exec (.readWaitEnd tag) s = .next s)) ∧
  (
  (∀ (tag : Nat) (c : Cmd) (s : State), findCmd s tag = some c → c.phase = .started → c.hdr.opcode = 2 → c.failed = false → c.recSeq = none →
    Runs (.write tag) s (fun t => findCmd t tag = some { c with phase := .busy, recSeq := some s.ledger.nextSeq } ∧ t.ledger.nextSeq = s.ledger.nextSeq + 1 ∧
      (∃ r, t.ledger.recs = s.ledger.recs ++ [r] ∧ r.seq = s.ledger.nextSeq ∧ r.kind = 2 ∧ r.state = .filling ∧ r.volume = c.hdr.volume ∧ r.lba = c.hdr.lba ∧ r.blocks = c.hdr.blocks ∧
        r.bodyLen = c.hdr.d ∧ r.pos = c.pos) ∧ OnlyIn [.cmds, .ledger] s t)) ∧
  (∀ (tag : Nat) (c : Cmd) (s : State), findCmd s tag = some c → c.phase = .started → c.hdr.opcode = 4 → c.failed = false → ((findRec s c.intent).filter Rec.visible) = none →
    Runs (.release tag) s (fun t => findCmd t tag = some { c with phase := .landing, recSeq := some c.intent } ∧ OnlyIn [.cmds] s t)) ∧
  (∀ (tag : Nat) (c : Cmd) (s : State), findCmd s tag = some c → c.phase = .started → c.hdr.opcode = 5 → c.failed = false →
    let named := if bit c.hdr.flags 0 then c.pos.close + c.hdr.f 32 8 else c.hdr.f 32 8
    Runs (.closeWait tag) s (fun t => findCmd t tag = some { c with named := named, phase := .due (max named c.pos.close + 2) } ∧ OnlyIn [.cmds] s t)))

/-- IDENTIFY and GET LOG (R303–R307): the structure is the command's data; an unknown page ends with UnknownPage; an account page is answered at once, from its offset, cut to the length asked for and to
the page; any other page waits for the snapshot of the next boundary. GET FEATURE and SET FEATURE (R310, R312): an unknown feature and a value outside the envelope end with their details and change no
feature; a valid value is registered for the next boundary. FW DOWNLOAD (R313, R314): a short first piece and a piece out of order end without a change of flash; the piece behind the previous one is
programmed at its place in the inactive slot and is due at the next boundary; a flash failure makes the download Failed. FW COMMIT, Commit and Abandon (R316): Commit needs a verified download and
programs the magic; Abandon erases the first sector of the inactive slot and leaves the kind Idle; the images in use and the fuses stay. POWER (R287, R288, R319): Full and Trim are registered for the
next boundary; Rest in D0 begins an entry with a deadline, replaces one that waits, and is turned away in D3hot. HOST TIME MARK (R321, R423): the record of the mark takes the next daybook sequence in
the close of its acceptance and stands in the ring; the result names it, with operating time and power-cycle count. Each of these is said to answer a next state under conditions on the state and the
operands alone: identify, getLog, getFeature, setFeature, fwDownload, fwCommit, fwAbandon, power, hostTimeMark. -/
def Obligations.AdminCommands : Prop :=
  (
  (∀ (tag : Nat) (c : Cmd) (s : State), startedCmd s tag 0x80 = some c → c.hdr.f 24 1 = 0 →
    Runs (.identify tag) s (fun t => Ended t tag 0 0 (natLe 4 4096) ∧ ∃ k, findCmd t tag = some k ∧ k.data = Memory.ofBytes (deviceStruct s) ∧ k.dataLen = 4096)) ∧
  (∀ (tag : Nat) (c : Cmd) (s : State), startedCmd s tag 0x80 = some c → c.hdr.f 24 1 = 1 →
    Runs (.identify tag) s (fun t => Ended t tag 0 0 (natLe 4 128) ∧ ∃ k, findCmd t tag = some k ∧ k.data = Memory.ofBytes (volumeStruct s c.hdr.volume) ∧ k.dataLen = 128)) ∧
  (∀ (tag : Nat) (c : Cmd) (s : State), opfin s = true → startedCmd s tag 0x81 = some c → pageBytes s (c.hdr.f 24 1) = none → Runs (.getLog tag) s (fun t => Ended t tag 0x10 0x10 [])) ∧
  (∀ (tag : Nat) (c : Cmd) (p : List Byte) (s : State), opfin s = true → startedCmd s tag 0x81 = some c → (c.hdr.f 24 1 = 0x20 ∨ c.hdr.f 24 1 = 0x21) → pageBytes s (c.hdr.f 24 1) = some p →
    let bs := (p.drop (c.hdr.f 32 8)).take (c.hdr.f 28 4)
    Runs (.getLog tag) s (fun t => Ended t tag 0 0 (natLe 4 bs.length ++ natLe 4 p.length ++ natLe 8 (le p 8 8)) ∧ ∃ k, findCmd t tag = some k ∧ k.data = Memory.ofBytes bs ∧ k.dataLen = bs.length)) ∧
  (∀ (tag : Nat) (c : Cmd) (s : State), opfin s = true → startedCmd s tag 0x81 = some c → c.hdr.f 24 1 = 0x10 →
    Runs (.getLog tag) s (fun t => findCmd t tag = some { c with phase := .busy } ∧ OnlyIn [.cmds] s t))) ∧
  (
  (∀ (tag : Nat) (c : Cmd) (s : State), startedCmd s tag 0x82 = some c → (c.hdr.f 24 1 = 0 ∨ 5 < c.hdr.f 24 1) → Runs (.getFeature tag) s (fun t => Ended t tag 0x10 0x11 [] ∧ t.feats = s.feats)) ∧
  (∀ (tag : Nat) (c : Cmd) (s : State), startedCmd s tag 0x82 = some c → 1 ≤ c.hdr.f 24 1 → c.hdr.f 24 1 ≤ 5 →
    Runs (.getFeature tag) s (fun t => findCmd t tag = some { c with phase := .busy } ∧ OnlyIn [.cmds] s t)) ∧
  (∀ (tag : Nat) (c : Cmd) (s : State), startedCmd s tag 0x83 = some c → 1 ≤ c.hdr.f 24 1 → c.hdr.f 24 1 ≤ 5 →
    (c.hdr.f 32 4 < (envelope s (c.hdr.f 24 1)).min ∨ (envelope s (c.hdr.f 24 1)).max < c.hdr.f 32 4) → Runs (.setFeature tag) s (fun t => Ended t tag 0x10 0x12 [] ∧ t.feats = s.feats)) ∧
  (∀ (tag : Nat) (c : Cmd) (s : State), startedCmd s tag 0x83 = some c → 1 ≤ c.hdr.f 24 1 → c.hdr.f 24 1 ≤ 5 →
    (envelope s (c.hdr.f 24 1)).min ≤ c.hdr.f 32 4 → c.hdr.f 32 4 ≤ (envelope s (c.hdr.f 24 1)).max →
    Runs (.setFeature tag) s (fun t => t.feats = { s.feats with due := s.feats.due ++ [(c.hdr.f 24 1, c.hdr.f 32 4, tag)] } ∧ findCmd t tag = some { c with phase := .busy } ∧ OnlyIn [.cmds, .feats] s t))) ∧
  (
  ∀ (tag : Nat) (c : Cmd) (s : State), opfin s = true → cmdIn s tag (fun c => c.phase = .busy && c.hdr.opcode = 0x84 && !c.failed && c.taken = c.hdr.d) = some c →
    imageAhead s c (fun e => e.phase = .started || e.phase = .busy) = false →
    let kind := c.hdr.f 24 1
    let off := c.hdr.f 32 4
    (off = 0 → c.hdr.d < 512 → ∀ good, Runs (.fwDownload tag good) s (fun t => Ended t tag 0x10 0x0B [] ∧ t.flash = s.flash)) ∧
    (off ≠ 0 → ((dl s kind).state ≠ 2 ∨ off ≠ (dl s kind).upTo) → ∀ good, Runs (.fwDownload tag good) s (fun t => Ended t tag 0x11 0x0D [] ∧ t.flash = s.flash)) ∧
    (off ≠ 0 → (dl s kind).state = 2 → off = (dl s kind).upTo → off + c.hdr.d ≤ slotSize kind → bit c.hdr.flags 0 = false →
      Runs (.fwDownload tag true) s (fun t => t.flash.cells = Memory.writeN 0xFF s.flash.cells (slotBase kind (idleSlot s kind) + off) (Memory.bytes c.payload c.hdr.d) ∧
        dl t kind = { dl s kind with upTo := off + c.hdr.d } ∧ ∃ k, findCmd t tag = some k ∧ k.phase = .due (s.now + 1) ∧ k.status = 0 ∧ k.detail = 0)) ∧
    (off ≠ 0 → (dl s kind).state = 2 → off = (dl s kind).upTo → off + c.hdr.d ≤ slotSize kind →
      Runs (.fwDownload tag false) s (fun t => (dl t kind).state = 5 ∧ (dl t kind).code = 0x0F ∧ ∃ k, findCmd t tag = some k ∧ k.phase = .due (s.now + 1) ∧ k.status = 0x11 ∧ k.detail = 0x0F))) ∧
  (
  (∀ (tag : Nat) (c : Cmd) (good : Bool) (s : State), opfin s = true → imageCmd s tag 0 = some c → (dl s (c.hdr.f 24 1)).state ≠ 3 → Runs (.fwCommit tag good) s (fun t => Ended t tag 0x11 0x0E [] ∧ t.flash = s.flash)) ∧
  (∀ (tag : Nat) (c : Cmd) (s : State), opfin s = true → imageCmd s tag 0 = some c → (dl s (c.hdr.f 24 1)).state = 3 →
    let kind := c.hdr.f 24 1
    Runs (.fwCommit tag true) s (fun t => Ended t tag 0 0 [] ∧ t.flash.cells = Memory.writeN 0xFF s.flash.cells (slotBase kind (idleSlot s kind)) (dl s kind).magic ∧
      dl t kind = { dl s kind with state := 4, code := 0 } ∧ t.chip = s.chip ∧ t.fuses = s.fuses ∧ t.charter = s.charter)) ∧
  (∀ (tag : Nat) (c : Cmd) (s : State), opfin s = true → imageCmd s tag 1 = some c →
    let kind := c.hdr.f 24 1
    Runs (.fwAbandon tag true) s (fun t => Ended t tag 0 0 [] ∧ t.flash.cells = Memory.place 0xFF s.flash.cells (slotBase kind (idleSlot s kind)) 0x1_0000 [] ∧ dl t kind = {} ∧
      t.chip = s.chip ∧ t.fuses = s.fuses ∧ t.charter = s.charter))) ∧
  (
  (∀ (tag : Nat) (c : Cmd) (s : State), startedCmd s tag 0x87 = some c → s.power.entryTag = none → c.hdr.f 24 1 ≠ 2 →
    Runs (.power tag) s (fun t => t.power = { s.power with due := s.power.due ++ [(tag, c.hdr.f 24 1)] } ∧
      findCmd t tag = some { c with phase := .busy, begun := true, named := c.pos.close + feature s 1 } ∧ OnlyIn [.cmds, .power] s t)) ∧
  (∀ (tag : Nat) (c : Cmd) (s : State), startedCmd s tag 0x87 = some c → s.power.entryTag = none → c.hdr.f 24 1 = 2 → s.power.state ≠ 2 → s.cfg.powerState = 0 →
    Runs (.power tag) s (fun t => t.power = { s.power with entryTag := some tag, entryPending := true, target := 2 } ∧
      findCmd t tag = some { c with phase := .busy, begun := true, named := c.pos.close + feature s 1 } ∧ OnlyIn [.cmds, .power] s t)) ∧
  (∀ (tag old : Nat) (c d : Cmd) (s : State), startedCmd s tag 0x87 = some c → s.power.entryTag = some old → old ≠ tag → findCmd s old = some d → c.hdr.f 24 1 ≠ 2 → s.cfg.powerState = 0 →
    Runs (.power tag) s (fun t => t.power.entryTag = none ∧ t.power.entryPending = false ∧ t.power.due = s.power.due ++ [(tag, c.hdr.f 24 1)] ∧
      findCmd t old = some { d with phase := .due (s.now + 1), status := 0x61, detail := 2, result := natLe 1 s.power.state })) ∧
  (∀ (tag : Nat) (c : Cmd) (s : State), startedCmd s tag 0x87 = some c → s.power.entryTag = none → c.hdr.f 24 1 = 2 → s.cfg.powerState ≠ 0 →
    Runs (.power tag) s (fun t => t.power = s.power ∧ ∃ k, findCmd t tag = some k ∧ k.phase = .due (s.now + 1) ∧ k.status = 0x61 ∧ k.detail = 3))) ∧
  (
  ∀ (tag : Nat) (c : Cmd) (s : State), startedCmd s tag 0x89 = some c →
    Runs (.hostTimeMark tag) s (fun t => t.daybook.next = s.daybook.next + 1 ∧ (∃ e ∈ t.daybook.ring, e.1 = s.daybook.next ∧ e.2.take 8 = natLe 8 s.daybook.next) ∧
      findCmd t tag = some { c with begun := true, phase := .due (s.now + 1), status := 0, detail := 0, result := natLe 8 s.daybook.next ++ natLe 8 s.mgmt.opMs ++ natLe 4 s.mgmt.powerCycles } ∧ t.mgmt = s.mgmt))

/-- Every work has a number below the next one: the number names one work (the count is the model's own, log entry 36). -/
def worksNumbered (s : State) : Prop := ∀ w ∈ s.works, w.id < s.nextWork

/-- HOLDOFF_EXPIRY, STRIPE_READ_COMPLETE and STRIPE_WRITE_COMPLETE (R101, R108–R111): a row whose holdoff has ended is planned, as a work or as a demand for its windows; with step 2 whole the work goes on
to step 3, where its postings wait for the plans that they use (R82); with every write of step 4 in, the row is on disk, its records lose the row and the form is counted. Each of these is said to
answer a next state under conditions on the state and the operands alone: holdoffExpiry, stripeReadComplete, stripeWriteComplete. -/
def Obligations.RowsAreDestaged : Prop :=
  (∀ (layout row : Nat) (s : State), rowRecs s layout row ≠ [] → rowSince s layout row + holdoffOf s (rowSince s layout row) ≤ s.now → plannerRuns s = false →
    Runs (.holdoffExpiry layout row) s (fun t => (layout, row) ∈ t.ledger.ripe ∧ t.ledger.recs = s.ledger.recs ∧ OnlyIn [.ledger] s t)) ∧
  (∀ (layout row rho : Nat) (l : Layout) (v : VolumeDef) (b : Band) (s : State), layoutOf s layout = some l → ownerOf s layout row = some (v, b, rho) → rowRecs s layout row ≠ [] →
    rowSince s layout row + holdoffOf s (rowSince s layout row) ≤ s.now → plannerRuns s = true → (∀ w ∈ s.works, w.layout = layout → w.row ≠ row) →
    rowPinned s layout row (rowNews s l row) = false → s.ledger.resyncLeft.contains (v.volume, regionOfRow s l row) = false → rowNews s l row ≠ [] → rowFull l (rowNews s l row) = false → worksNumbered s →
    Runs (.holdoffExpiry layout row) s (fun t => (∃ w ∈ t.works, w.kind = .destage ∧ w.layout = layout ∧ w.row = row ∧ w.volume = v.volume) ∨ ∃ d ∈ t.gov.demands, d.of = .rows layout row)) ∧
  (∀ (layout row : Nat) (s : State), s.now < rowSince s layout row + holdoffOf s (rowSince s layout row) → exec (.holdoffExpiry layout row) s = .next s) ∧
  (∀ (id : Nat) (w : Work) (s : State), findWork s id = some w → w.step = 2 → w.step2Done = true → w.held = false → w.kind = .destage →
    Runs (.stripeReadComplete id) s (fun t => findWork t id = some { w with step := 3 } ∧ OnlyIn [.works] s t)) ∧
  (∀ (id : Nat) (w : Work) (s : State), findWork s id = some w → w.step = 2 → w.step2Done = true → w.held = true → w.patterns = [] → w.fromClose ≤ s.now → postCount w ≠ 0 →
    Runs (.stripeReadComplete id) s (fun t => findWork t id = some { w with step := 3, postsLeft := postCount w } ∧ OnlyIn [.works] s t)) ∧
  (∀ (id : Nat) (w : Work) (e : List ChunkId) (s : State), findWork s id = some w → w.step = 2 → w.step2Done = true → w.held = true → w.patterns = [e] → findPlan s w.layout e = none →
    s.plans.cache.length < 768 →
    Runs (.stripeReadComplete id) s (fun t => findWork t id = some { w with step := 3, postsLeft := 0 } ∧ t.plans.misses = inc 0xFFFF s.plans.misses ∧
      (∃ p, findPlan t w.layout e = some p ∧ p.ready = false ∧ p.users = [workTag id]) ∧ OnlyIn [.works, .plans] s t)) ∧
  (∀ (id : Nat) (w : Work) (s : State), findWork s id = some w → (w.waitFinds ≠ [] ∨ w.sealWait ≠ []) → exec (.stripeReadComplete id) s = .next s) ∧
  (∀ (id : Nat) (w : Work) (s : State), findWork s id = some w → w.reads ≠ [] → exec (.stripeReadComplete id) s = .next s) ∧
  (∀ (id : Nat) (w : Work) (s : State), findWork s id = some w → w.step = 4 → w.outs = [] → w.writes = [] → w.failedOut = false → w.kind = .destage → w.unwritten = false →
    Runs (.stripeWriteComplete id) s (fun t => (findWork t id).map (fun w => w.step) = some 5 ∧ (∀ q ∈ w.recs, ∀ r ∈ t.ledger.recs, r.seq = q → (w.layout, w.row) ∉ r.rows) ∧
      t.ledger.fullRows = (if w.forms.all (fun f => f.2) then inc 0xFFFF s.ledger.fullRows else s.ledger.fullRows) ∧
      t.ledger.smallRows = (if w.forms.all (fun f => f.2) then s.ledger.smallRows else inc 0xFFFF s.ledger.smallRows))) ∧
  (∀ (id : Nat) (w : Work) (s : State), findWork s id = some w → w.writes ≠ [] → exec (.stripeWriteComplete id) s = .next s)

/-- Every member command has a number below the next one (the count is the model's own, log entry 36). -/
def commandsNumbered (s : State) : Prop := ∀ c ∈ s.drives.cmds, c.id < s.drives.nextCmd

/-- Every step keeps the numbering of works and of member commands, and the state after reset has it (the counts are the model's own, log entry 36). -/
def Obligations.WorksAreNumbered : Prop :=
  worksNumbered State.reset ∧ (∀ s t : State, worksNumbered s → step s = .next t → worksNumbered t) ∧
  commandsNumbered State.reset ∧ (∀ s t : State, commandsNumbered s → step s = .next t → commandsNumbered t)

/-- HOLD_REQUEST and HOLD_RELEASE (R203–R205): a free row is held; a row held by another work, or a full hold table, makes the work wait, those of one cycle in the order of their numbers, and is counted;
a work that has ended leaves, its hold goes, the row's counter advances and the waiting work has the hold. Each of these is said to answer a next state under conditions on the state and the operands
alone: holdRequest, holdRelease. -/
def Obligations.HoldsAreGranted : Prop :=
  (∀ (id : Nat) (w : Work) (s : State), findWork s id = some w → w.held = false → w.kind = .destage → w.step = 3 → (∀ e ∈ s.holds.waiting, e.work ≠ id) → heldBy s w.layout w.row = none → s.holds.held.length < 4096 →
    Runs (.holdRequest id) s (fun t => t.holds.held = s.holds.held ++ [(w.layout, w.row, id)] ∧ t.holds.waiting = s.holds.waiting)) ∧
  (∀ (id o : Nat) (w : Work) (s : State), findWork s id = some w → w.held = false → w.kind = .destage → w.step = 3 → (∀ e ∈ s.holds.waiting, e.work ≠ id ∧ e.cycle < absCycle s) → heldBy s w.layout w.row = some o →
    exec (.holdRequest id) s = .next { s with holds := { s.holds with waits := inc 0xFFFF s.holds.waits, waiting := s.holds.waiting ++ [⟨w.layout, w.row, id, absCycle s, true⟩] } }) ∧
  (∀ (id o : Nat) (w : Work) (e : HoldWait) (s : State), findWork s id = some w → w.held = false → w.kind = .destage → w.step = 3 → s.holds.waiting = [e] → e.cycle = absCycle s → id < e.work → heldBy s w.layout w.row = some o →
    Runs (.holdRequest id) s (fun t => t.holds.waiting = [⟨w.layout, w.row, id, absCycle s, true⟩, e] ∧ OnlyIn [.holds] s t)) ∧
  (∀ (id : Nat) (w : Work) (s : State), findWork s id = some w → w.held = false → w.kind = .destage → w.step = 3 → (∀ e ∈ s.holds.waiting, e.work ≠ id ∧ e.cycle < absCycle s) → heldBy s w.layout w.row = none → 4096 ≤ s.holds.held.length →
    exec (.holdRequest id) s = .next { s with holds := { s.holds with tableFull := inc 0xFFFF s.holds.tableFull, waiting := s.holds.waiting ++ [⟨w.layout, w.row, id, absCycle s, false⟩] } }) ∧
  (∀ (id : Nat) (w : Work) (s : State), findWork s id = some w → w.held = true → exec (.holdRequest id) s = .next s) ∧
  (∀ (id : Nat) (w : Work) (s : State), findWork s id = some w → w.step = 5 → w.held = true → s.holds.waiting = [] →
    Runs (.holdRelease id) s (fun t => findWork t id = none ∧ t.holds.held = s.holds.held.filter (fun h => h.2.2 ≠ id) ∧ t.holds.gens = tmod 0 s.holds.gens (genIndex w) (· + 1) ∧ t.ledger = s.ledger)) ∧
  (∀ (id o : Nat) (w x : Work) (e : HoldWait) (s : State), findWork s id = some w → w.step = 5 → w.held = true → s.holds.held = [(w.layout, w.row, id)] → s.holds.waiting = [e] → e.layout = w.layout → e.row = w.row → e.work = o → o ≠ id → findWork s o = some x → x.layout = w.layout → x.row = w.row →
    Runs (.holdRelease id) s (fun t => findWork t id = none ∧ t.holds.held = [(w.layout, w.row, o)] ∧ t.holds.waiting = [])) ∧
  (∀ (id : Nat) (w : Work) (s : State), findWork s id = some w → w.step ≠ 5 → exec (.holdRelease id) s = .next s)

/-- Regions, resynchronisation and plans (R82, R83, R117, R118, R126): a map record sets the bit of a covered region while the table has room, and a write that finds it full is counted; when an entry is
freed the work that waits sets its bit; every row of a listed region gets its work on the unit that resynchronises; a plan becomes ready and its work's postings go, a flush is registered, and a plan
stays pinned for those whose postings still need it. Each of these is said to answer a next state under conditions on the state and the operands alone: mapBitSet, regionTableFreed, resynchronisation,
planReady, planFlush, planUnpin. -/
def Obligations.RegionsAndPlans : Prop :=
  (∀ (id : Nat) (w : Work) (r : Region) (s : State), findWork s id = some w → w.step = 1 → findRegion s w.volume w.region = some r → r.covered = true → r.set = false → tableUsed s < 8192 →
    Runs (.mapBitSet id) s (fun t => (findRegion t w.volume w.region).any (fun r => r.set) = true ∧ t.ledger.nextSeq = s.ledger.nextSeq + 1 ∧
      ∃ q ∈ t.ledger.recs, q.seq = s.ledger.nextSeq ∧ q.kind = 3 ∧ q.volume = w.volume)) ∧
  (∀ (id : Nat) (w : Work) (r : Region) (s : State), findWork s id = some w → w.step = 1 → findRegion s w.volume w.region = some r → r.covered = true → r.set = false → 8192 ≤ tableUsed s →
    exec (.mapBitSet id) s = .next { s with ledger := { s.ledger with tableWaits := inc 0xFFFF s.ledger.tableWaits } }) ∧
  (∀ (id : Nat) (w : Work) (r : Region) (s : State), findWork s id = some w → w.step = 1 → findRegion s w.volume w.region = some r → r.covered = false →
    Runs (.mapBitSet id) s (fun t => (findRegion t w.volume w.region).any (fun r => r.awaiting && !r.covered) = true ∧ t.ledger.recs = s.ledger.recs ∧ t.works = s.works)) ∧
  (∀ (w : Work) (s : State), s.works.filter (fun x => x.step = 1) = [w] → Runs .regionTableFreed s (fun t => exec (.mapBitSet w.id) s = .next t)) ∧
  (∀ s : State, (∀ w ∈ s.works, w.step ≠ 1) → exec .regionTableFreed s = .next s) ∧
  (∀ (v r : Nat) (s : State), (v, r) ∈ s.ledger.resyncLeft → retires s = true → resyncRows s v r ≠ [] → worksNumbered s →
    Runs (.resynchronisation v r) s (fun t => ∀ e ∈ resyncRows s v r, ∃ w ∈ t.works, w.kind = .resync ∧ w.layout = e.1.index ∧ w.row = e.2)) ∧
  (∀ (v r : Nat) (s : State), (v, r) ∈ s.ledger.resyncLeft → retires s = true → resyncRows s v r = [] →
    exec (.resynchronisation v r) s = .next { s with ledger := { s.ledger with resyncLeft := s.ledger.resyncLeft.filter (fun e => e ≠ (v, r)) } }) ∧
  (∀ (v r : Nat) (s : State), ((v, r) ∉ s.ledger.resyncLeft ∨ retires s = false) → exec (.resynchronisation v r) s = .next s) ∧
  (∀ (layout : Nat) (erased : List ChunkId) (p : Plan) (s : State), findPlan s layout (patternKey s layout erased) = some p → p.ready = false → p.users = [] →
    Runs (.planReady layout erased) s (fun t => findPlan t layout (patternKey s layout erased) = some { p with ready := true } ∧ OnlyIn [.plans] s t)) ∧
  (∀ (layout id : Nat) (erased : List ChunkId) (p : Plan) (w : Work) (s : State), findPlan s layout (patternKey s layout erased) = some p → p.ready = false → p.users = [workTag id] →
    findWork s id = some w → w.layout = layout → w.step = 3 → w.held = true → w.postsLeft = 0 → w.patterns = [patternKey s layout erased] → w.needs = [] → w.fromClose ≤ s.now → postCount w ≠ 0 →
    Runs (.planReady layout erased) s (fun t => findPlan t layout (patternKey s layout erased) = some { p with ready := true } ∧ findWork t id = some { w with postsLeft := postCount w } ∧ OnlyIn [.plans, .works] s t)) ∧
  (∀ (layout : Nat) (erased : List ChunkId) (p : Plan) (s : State), findPlan s layout (patternKey s layout erased) = some p → p.ready = true → exec (.planReady layout erased) s = .next s) ∧
  (∀ s : State, writesTaken s = true → exec .planFlush s = .next { s with plans := { s.plans with flush := true } }) ∧
  (∀ (layout : Nat) (erased : List ChunkId) (p : Plan) (s : State), findPlan s layout (patternKey s layout erased) = some p →
    (s.plans.waiting = [] ∨ p.users.filter (stillUses s layout (patternKey s layout erased)) ≠ []) →
    Runs (.planUnpin layout erased) s (fun t => OnlyIn [.plans] s t ∧ t.plans.waiting = s.plans.waiting ∧
      findPlan t layout (patternKey s layout erased) = some { p with users := p.users.filter (stillUses s layout (patternKey s layout erased)) })) ∧
  (∀ (layout : Nat) (erased : List ChunkId) (s : State), findPlan s layout (patternKey s layout erased) = none → exec (.planUnpin layout erased) s = .next s ∧ exec (.planReady layout erased) s = .next s)

/-- Checkpoints (R117, R121): one is cut for regions that await admission and one every 65,536 closes, and the slot of the older one is opened; a strict majority of acknowledgements makes it the newest
and gives every region its covered mark; one without a majority 65,536 closes after its cut is counted and cut anew. Each of these is said to answer a next state under conditions on the state and the
operands alone: admissionCheckpoint, periodicCheckpoint, checkpointComplete, checkpointFailure. -/
def Obligations.CheckpointsAreCut : Prop :=
  (∀ s : State, opfin s = true → s.ledger.ckpt = none → s.ledger.regions.any (fun r => r.awaiting) = true → s.chip.step = 15 →
    Runs .admissionCheckpoint s (fun t => t.ledger.lastCkptCut = s.now ∧ t.ledger.admissions = inc 0xFFF s.ledger.admissions ∧ t.ledger.newest = s.ledger.newest ∧ t.registry = openSlot s.registry ∧ OnlyIn [.ledger, .registry] s t ∧
      ∃ c, t.ledger.ckpt = some c ∧ c.cutClose = s.now ∧ c.admission = true ∧ c.seq = (s.ledger.newest.map (fun c => c.seq)).getD 0 + 1)) ∧
  (∀ s : State, s.ledger.ckpt ≠ none → exec .admissionCheckpoint s = .next s ∧ exec .periodicCheckpoint s = .next s) ∧
  (∀ s : State, opfin s = true → s.ledger.ckpt = none → s.ledger.lastCkptCut + 65536 ≤ s.now → s.chip.step = 15 →
    Runs .periodicCheckpoint s (fun t => t.ledger.lastCkptCut = s.now ∧ t.ledger.admissions = s.ledger.admissions ∧ t.registry = openSlot s.registry ∧ OnlyIn [.ledger, .registry] s t ∧ ∃ c, t.ledger.ckpt = some c ∧ c.cutClose = s.now ∧ c.admission = false)) ∧
  (∀ s : State, s.now < s.ledger.lastCkptCut + 65536 → exec .periodicCheckpoint s = .next s) ∧
  (∀ (acks : List Nat) (c : Ckpt) (s : State), opfin s = true → s.ledger.ckpt = some c → majority s acks = true →
    Runs (.checkpointComplete acks) s (fun t => t.ledger.ckpt = none ∧ t.ledger.newest = some { c with acks } ∧ t.registry.ckpt = some { c with acks } ∧ t.registry.bands = c.bands ∧
      ∀ r ∈ t.ledger.regions, r.covered = c.entries.contains (r.volume, r.region))) ∧
  (∀ (acks : List Nat) (c : Ckpt) (s : State), opfin s = true → s.ledger.ckpt = some c → majority s acks = false →
    exec (.checkpointComplete acks) s = .next { s with ledger := { s.ledger with ckpt := some { c with acks } } }) ∧
  (∀ (c : Ckpt) (s : State), opfin s = true → s.ledger.ckpt = some c → c.cutClose + 65536 ≤ s.now →
    Runs .checkpointFailure s (fun t => t.ledger.ckptFailures = inc 0xFFF s.ledger.ckptFailures ∧ t.ledger.newest = s.ledger.newest ∧ ∃ d, t.ledger.ckpt = some d ∧ d.cutClose = s.now ∧ d.admission = c.admission)) ∧
  (∀ (c : Ckpt) (s : State), s.ledger.ckpt = some c → s.now < c.cutClose + 65536 → exec .checkpointFailure s = .next s)

/-- Ledger wear and faults (R130–R132, R459): a corrected event counts and above the block limit makes the retirement due two closes on; an uncorrectable one always does, and blocks that only the failed
word held go to the loss ledger; at its boundary a reserve block of the die takes a retired block's place, and without one the record area shrinks; a wear move swaps two roles in the quiet slice, once
a block's count is 2^20 above the mean; a trim of one block in each close either goes on to the next or counts a failure. Each of these is said to answer a next state under conditions on the state and
the operands alone: ledgerCorrectedEvent, ledgerUncorrectableEvent, ledgerBlockRetirement, wearMove, senseReferenceTrim. -/
def Obligations.LedgerBlocksWear : Prop :=
  (∀ (b : Nat) (s : State), b < 36864 →
    Runs (.ledgerCorrectedEvent b) s (fun t => t.ledger.corrected = inc 0xFFFF s.ledger.corrected ∧ OnlyIn [.ledger] s t ∧
      (blockAt t b).corrected = (blockAt s b).corrected.filter (fun c => s.now < c + 2 ^ 24) ++ [s.now] ∧
      (s.ch (·.blockLimit) 8 < (blockAt t b).corrected.length → (blockAt s b).due = none → (blockAt s b).retired = false → (blockAt t b).due = some (s.now + 2) ∧ (blockAt t b).cause = 1) ∧
      ((blockAt t b).corrected.length ≤ s.ch (·.blockLimit) 8 → (blockAt t b).due = (blockAt s b).due))) ∧
  (∀ (b : Nat) (s : State), 36864 ≤ b → exec (.ledgerCorrectedEvent b) s = .next s ∧ ∀ what, exec (.ledgerUncorrectableEvent b what) s = .next s) ∧
  (∀ (b : Nat) (s : State), b < 36864 → (blockAt s b).due = none → (blockAt s b).retired = false →
    Runs (.ledgerUncorrectableEvent b .twoCopyArea) s (fun t => t.ledger.uncorrected = inc 0xFFFF s.ledger.uncorrected ∧ (blockAt t b).due = some (s.now + 2) ∧ (blockAt t b).cause = 2 ∧ t.ledger.recs = s.ledger.recs ∧
      OnlyIn [.ledger] s t)) ∧
  (∀ (b seq first lba n : Nat) (r : Rec) (s : State), b < 36864 → s.ledger.mode ≠ 1 → findRec s seq = some r → r.range = some (lba, n) → first < n → lossAt s r.volume (lba + first) = false → lossHeld s < 32768 →
    Runs (.ledgerUncorrectableEvent b (.record seq first 1)) s (fun t => t.ledger.lostRanges = inc 0xFFFF s.ledger.lostRanges ∧
      ∃ e ∈ t.degrade.loss, e.volume = r.volume ∧ e.cause = 2 ∧ e.lba = lba + first ∧ e.blocks = 1 ∧ e.durable = false)) ∧
  (∀ (b seq first n : Nat) (s : State), s.ledger.mode = 1 → Runs (.ledgerUncorrectableEvent b (.record seq first n)) s (fun t => OnlyIn [.ledger] s t)) ∧
  (∀ (b d k : Nat) (s : State), (blockAt s b).due = some d → d ≤ s.now → reserveBlock s (dieOf b) = some k →
    Runs (.ledgerBlockRetirement b) s (fun t => (blockAt t b).retired = true ∧ (blockAt t b).movedTo = some k ∧ (blockAt t b).due = none ∧ t.ledger.retiredBlocks = s.ledger.retiredBlocks + 1 ∧
      t.ledger.reserveLeft = s.ledger.reserveLeft - 1 ∧ t.ledger.recordBlocks = s.ledger.recordBlocks ∧ t.ledger.recs = s.ledger.recs)) ∧
  (∀ (b d : Nat) (s : State), (blockAt s b).due = some d → d ≤ s.now → reserveBlock s (dieOf b) = none →
    Runs (.ledgerBlockRetirement b) s (fun t => (blockAt t b).retired = true ∧ (blockAt t b).movedTo = none ∧ t.ledger.recordBlocks = s.ledger.recordBlocks - 1 ∧ t.ledger.reserveLeft = s.ledger.reserveLeft)) ∧
  (∀ (b : Nat) (s : State), (blockAt s b).due.all (fun d => s.now < d) = true → exec (.ledgerBlockRetirement b) s = .next s) ∧
  (∀ (b f : Nat) (s : State), s.quiet = true → b < 36864 → isFixed s b = true → meanWrites s + 2 ^ 20 ≤ blockWrites s b → freeBlock s (dieOf b) = some f →
    Runs (.wearMove b) s (fun t => isFixed t b = false ∧ isFixed t f = true ∧ placeOf t b = placeOf s f ∧ placeOf t f = placeOf s b ∧ (∀ x, x ≠ b → x ≠ f → blockAt t x = blockAt s x) ∧ OnlyIn [.ledger] s t)) ∧
  (∀ (b : Nat) (s : State), blockWrites s b < meanWrites s + 2 ^ 20 → exec (.wearMove b) s = .next s) ∧
  (∀ (b : Nat) (s : State), s.quiet = false → exec (.wearMove b) s = .next s) ∧
  (∀ (m k : Nat) (s : State), s.quiet = true → s.closers.entry = 2 → s.ledger.trimmed = false → s.scratch.swept = false → 40 ≤ m → k ≤ 25 →
    exec (.senseReferenceTrim m k true) s = .next { s with ledger := { s.ledger with
      trimmed := true, trimNext := (s.ledger.trimNext + 1) % 36864, trimPass := if s.ledger.trimNext = 36863 then s.ledger.trimPass + 1 else s.ledger.trimPass } }) ∧
  (∀ (m k : Nat) (s : State), s.quiet = true → s.closers.entry = 2 → s.ledger.trimmed = false → s.scratch.swept = false →
    exec (.senseReferenceTrim m k false) s = .next { s with ledger := { s.ledger with trimmed := true } }) ∧
  (∀ (m k : Nat) (s : State), s.quiet = true → s.closers.entry = 2 → s.ledger.trimmed = false → s.scratch.swept = false → (m < 40 ∨ 25 < k) →
    Runs (.senseReferenceTrim m k true) s (fun t => t.ledger.trimFails = inc 0xFFFF s.ledger.trimFails ∧ t.ledger.trimNext = (s.ledger.trimNext + 1) % 36864 ∧
      (blockAt t s.ledger.trimNext).trimFails = (blockAt s s.ledger.trimNext).trimFails.filter (fun c => s.now < c + 2 ^ 24) ++ [s.now] ∧ OnlyIn [.ledger] s t)) ∧
  (∀ (m k : Nat) (f : Bool) (s : State), (s.quiet = false ∨ s.closers.entry ≠ 2 ∨ s.ledger.trimmed = true ∨ s.scratch.swept = true) → exec (.senseReferenceTrim m k f) s = .next s)

/-- Member commands (R134, R135, R355–R357): by the sense data a command succeeds, is issued again at once or 12,500 closes later, or fails and is counted; data of a work's read is staged; a command over
the member timeout is aborted and makes an Online member Suspect; a late read is compared or dropped. Each of these is said to answer a next state under conditions on the state and the operands alone:
memberCommandCompletion, memberTimeout, lateRead, notReadyRetry. -/
def Obligations.MemberCommands : Prop :=
  (∀ (id : Nat) (k : MemberCmd) (data : List Byte) (s : State), findMc s id = some k → k.sent = true → (mem s k.member).state = 1 → k.late = false → k.op ≠ .testUnitReady → k.tries = 0 →
    Runs (.memberCommandCompletion id .becomingReady data) s (fun t => findMc t id = some { k with retryAt := some (s.now + 12500) } ∧ OnlyIn [.drives] s t)) ∧
  (∀ (id : Nat) (k : MemberCmd) (data : List Byte) (s : State), findMc s id = some k → k.sent = true → (mem s k.member).state = 1 → k.late = false → k.tries = 0 → s.pair.fenced = false →
    Runs (.memberCommandCompletion id .unitAttention data) s (fun t => findMc t id = some { k with issued := s.now, tries := 1 } ∧ OnlyIn [.drives] s t)) ∧
  (∀ (id : Nat) (k : MemberCmd) (data : List Byte) (s : State), findMc s id = some k → k.sent = true → (mem s k.member).state = 1 → k.late = false → k.op = .wr → k.tries = 0 → s.pair.fenced = false →
    Runs (.memberCommandCompletion id .medium data) s (fun t => findMc t id = some { k with issued := s.now, tries := 1 } ∧ (mem t k.member).events = (mem s k.member).events)) ∧
  (∀ (id w pos : Nat) (c : ChunkId) (k : MemberCmd) (x : Work) (data : List Byte) (s : State), findMc s id = some k → k.sent = true → (mem s k.member).state = 1 → k.late = false →
    k.purpose = .workRead w c pos → findWork s w = some x →
    Runs (.memberCommandCompletion id .good data) s (fun t => findMc t id = none ∧ OnlyIn [.drives, .works, .gov] s t ∧
      findWork t w = some { x with reads := x.reads.filter (fun r => r ≠ (c, pos)), staged := x.staged ++ [(c, pos, Memory.ofBytes (padTo k.len data))] })) ∧
  (∀ (id w pos : Nat) (c : ChunkId) (k : MemberCmd) (x : Work) (data : List Byte) (s : State), findMc s id = some k → k.sent = true → (mem s k.member).state = 1 → k.late = false → k.op = .rd →
    k.purpose = .workRead w c pos → findWork s w = some x →
    Runs (.memberCommandCompletion id .medium data) s (fun t => t.plans.reissues = min (s.plans.reissues + (if x.step = 3 then x.postsLeft else 0)) 0xFFFF ∧ t.ledger.replans = inc 0xFFFF s.ledger.replans ∧
      (mem t k.member).events = (mem s k.member).events.filter (fun e => s.mgmt.opMs < e + errorWindowMs s) ++ [s.mgmt.opMs] ∧
      (s.ch (·.errorLimit) 8 < (mem t k.member).events.length → (mem t k.member).retiring ≠ none))) ∧
  (∀ (id : Nat) (k : MemberCmd) (sense : Sense) (data : List Byte) (s : State), findMc s id = some k → k.sent = false → exec (.memberCommandCompletion id sense data) s = .next s) ∧
  (∀ (id : Nat) (sense : Sense) (data : List Byte) (s : State), findMc s id = none → exec (.memberCommandCompletion id sense data) s = .next s) ∧
  (∀ (id r : Nat) (k : MemberCmd) (s : State), findMc s id = some k → k.retryAt = some r → r ≤ s.now → s.pair.fenced = false → (mem s k.member).state = 1 →
    Runs (.notReadyRetry id) s (fun t => findMc t id = some { k with issued := s.now, tries := k.tries + 1, retryAt := none, queued := placesFull s k.member } ∧ OnlyIn [.drives] s t)) ∧
  (∀ (id r : Nat) (k : MemberCmd) (s : State), findMc s id = some k → k.retryAt = some r → s.now < r → exec (.notReadyRetry id) s = .next s) ∧
  (∀ (id : Nat) (k : MemberCmd) (s : State), findMc s id = some k → k.sent = true → k.late = false → k.op = .rd → k.issued + memberTimeout s k.member ≤ s.now → (mem s k.member).state = 1 → commandsNumbered s →
    Runs (.memberTimeout id) s (fun t => (mem t k.member).state = 2 ∧ (mem t k.member).suspectSince = s.now ∧ (mem t k.member).timeouts = inc 0xFFFF (mem s k.member).timeouts ∧
      ∃ c ∈ t.drives.cmds, c.member = k.member ∧ c.op = .abortTask)) ∧
  (∀ (id : Nat) (k : MemberCmd) (s : State), findMc s id = some k → s.now < k.issued + memberTimeout s k.member → exec (.memberTimeout id) s = .next s) ∧
  (∀ (id : Nat) (k : MemberCmd) (data : List Byte) (s : State), findMc s id = some k → k.id = id → k.late = true → k.op = .rd → (mem s k.member).state = 3 →
    Runs (.lateRead id data) s (fun t => findMc t id = none ∧ t.degrade = { s.degrade with dropped := inc 0xFFFF s.degrade.dropped } ∧ OnlyIn [.drives, .degrade] s t)) ∧
  (∀ (id tag idx l row : Nat) (c : ChunkId) (k : MemberCmd) (data : List Byte) (s : State), findMc s id = some k → k.id = id → k.late = true → k.op = .rd → (mem s k.member).state = 1 →
    k.purpose = .readBlock tag idx c → k.delivered = true → k.row = some (l, row) →
    (k.data = Memory.ofBytes (padTo k.len data) → Runs (.lateRead id data) s (fun t => t.degrade = { s.degrade with matched := inc 0xFFFF s.degrade.matched } ∧ t.drives.scrubFirst = s.drives.scrubFirst)) ∧
    (k.data ≠ Memory.ofBytes (padTo k.len data) → Runs (.lateRead id data) s (fun t => t.degrade = { s.degrade with mismatched := inc 0xFFFF s.degrade.mismatched } ∧
      t.drives.scrubFirst = (l, row) :: s.drives.scrubFirst))) ∧
  (∀ (id : Nat) (k : MemberCmd) (data : List Byte) (s : State), findMc s id = some k → k.late = false → exec (.lateRead id data) s = .next s)

/-- Polls, limits and repairs of members (R135, R140, R359): a Suspect member is polled every 12,500 closes and retired at its limit; a missing one after 65,536 closes; a Rising group's members are
polled; one position of a member that is not retired is reconstructed and rewritten, but for a row that nothing has written (R93). Each of these is said to answer a next state under conditions on the
state and the operands alone: suspectPoll, suspectLimitExpiry, discoveryMissingExpiry, mediaRepair, spinUpPoll. -/
def Obligations.MembersAreWatched : Prop :=
  (∀ (m : Nat) (s : State), (mem s m).state = 2 → (mem s m).nextPoll ≤ s.now →
    Runs (.suspectPoll m) s (fun t => (mem t m).nextPoll = s.now + 12500 ∧ (mem t m).state = 2 ∧ (∃ c, t.drives.cmds = s.drives.cmds ++ [c] ∧ c.op = .testUnitReady ∧ c.member = m) ∧ OnlyIn [.drives] s t)) ∧
  (∀ (m : Nat) (s : State), (mem s m).state ≠ 2 → exec (.suspectPoll m) s = .next s ∧ exec (.suspectLimitExpiry m) s = .next s) ∧
  (∀ (m : Nat) (s : State), retires s = true → (mem s m).state = 2 → (mem s m).suspectSince + 2 ^ s.ch (·.suspectLog) 20 ≤ s.now → (mem s m).retiring = none →
    Runs (.suspectLimitExpiry m) s (fun t => mem t m = { mem s m with retiring := some 2 } ∧ (∀ n, n ≠ m → mem t n = mem s n) ∧ OnlyIn [.drives] s t)) ∧
  (∀ (m : Nat) (s : State), s.now < (mem s m).suspectSince + 2 ^ s.ch (·.suspectLog) 20 → exec (.suspectLimitExpiry m) s = .next s) ∧
  (∀ (m c : Nat) (s : State), retires s = true → (mem s m).state ≤ 2 → (mem s m).missingSince = some c → c + 65536 ≤ s.now → (mem s m).retiring = none →
    Runs (.discoveryMissingExpiry m) s (fun t => mem t m = { mem s m with retiring := some 3 } ∧ (∀ n, n ≠ m → mem t n = mem s n) ∧ OnlyIn [.drives] s t)) ∧
  (∀ (m : Nat) (s : State), (mem s m).missingSince = none → exec (.discoveryMissingExpiry m) s = .next s) ∧
  (∀ (m : Nat) (r : Bool) (s : State), (grp s (memGroup s m)).state = 1 → (mem s m).ready = false → (mem s m).nextPoll ≤ s.now →
    Runs (.spinUpPoll m r) s (fun t => mem t m = { mem s m with ready := r, nextPoll := s.now + 12500 } ∧ OnlyIn [.drives] s t)) ∧
  (∀ (m : Nat) (r : Bool) (s : State), (grp s (memGroup s m)).state ≠ 1 → exec (.spinUpPoll m r) s = .next s) ∧
  (∀ (m layout row pos rho : Nat) (c : ChunkId) (l : Layout) (v : VolumeDef) (b : Band) (s : State), layoutOf s layout = some l → ownerOf s layout row = some (v, b, rho) →
    (homeOf s l row c).any (fun h => h.1 = m) = true → (mem s m).state ≠ 3 → (mem s m).state ≠ 4 → l.positions.contains pos = true → b.unwritten.getLsbD rho = false → worksNumbered s →
    Runs (.mediaRepair m layout row c pos) s (fun t => ∃ w ∈ t.works, w.kind = .repair ∧ w.layout = layout ∧ w.row = row ∧ w.volume = v.volume ∧ w.badPos = [(c, pos)] ∧ w.positions = [pos])) ∧
  (∀ (m layout row pos : Nat) (c : ChunkId) (s : State), ((mem s m).state = 3 ∨ (mem s m).state = 4 ∨ rowUnwritten s layout row = true) → exec (.mediaRepair m layout row c pos) s = .next s)

/-- Spares and rebuilds (R141–R147, R152, R160, R162, R163): a pool update held by a majority is complete and its pass runs; a pass starts for the pool that waits first, from row 0 to the last; the cursor
row is restored by a work or passed over; a drive found in a retired member's place is Admitting from the next boundary on, and takes the place or is left out of service by its checks; the alternate
takes a retired registry member's place. Each of these is said to answer a next state under conditions on the state and the operands alone: poolUpdateComplete, rebuildPassStart, rowRestore,
replacementDiscovered, registryRehome. -/
def Obligations.RebuildsRun : Prop :=
  (∀ (layout pool : Nat) (acks : List Nat) (s : State), opfin s = true → majority s acks = true →
    Runs (.poolUpdateComplete layout pool acks) s (fun t => (∀ u ∈ t.degrade.updates, u.layout = layout → u.pool = pool → u.complete = true) ∧ t.degrade.updates.length = s.degrade.updates.length ∧
      t.registry.updates = t.degrade.updates.filter (fun u => u.complete) ∧ ∀ k, passOf s layout pool = some k → (pass s k).state = 1 → (pass t k).state = 2)) ∧
  (∀ (layout pool : Nat) (acks : List Nat) (s : State), majority s acks = false → exec (.poolUpdateComplete layout pool acks) s = .next s) ∧
  (∀ (layout pool k : Nat) (l : Layout) (p : Pool) (s : State), opfin s = true → layoutOf s layout = some l → l.pool pool = some p → s.degrade.passes.length = 16 →
    (List.range 16).find? (fun k => (pass s k).state = 0) = some k → passOf s layout pool = none → s.power.state < 2 → lossPauses s layout = false → retires s = true → s.degrade.waitingPools = [(layout, pool)] →
    (∀ m ∈ passMembers s layout pool, rehomePending s m = false) →
    Runs (.rebuildPassStart layout pool) s (fun t => (pass t k).state = (if updatesComplete s layout pool then 2 else 1) ∧ (pass t k).layout = layout ∧ (pass t k).pool = pool ∧
      (pass t k).members = passMembers s layout pool ∧ (pass t k).cursor = 0 ∧ (pass t k).rows = l.rows ∧ (passMembers s layout pool ≠ [] → (pass t k).last = l.rows - 1) ∧ t.degrade.waitingPools = [] ∧ OnlyIn [.gov, .degrade] s t)) ∧
  (∀ (layout pool : Nat) (s : State), (lossPauses s layout = true ∨ 2 ≤ s.power.state ∨ retires s = false) → exec (.rebuildPassStart layout pool) s = .next s) ∧
  (∀ (k : Nat) (l : Layout) (s : State), opfin s = true → k < 16 → layoutOf s (pass s k).layout = some l → passRuns (pass s k) = true → (pass s k).cursor < (pass s k).rows → (pass s k).gone < (pass s k).goal →
    (∀ w ∈ s.works, w.kind ≠ .restore k) → (passGroups s k).all (serves s) = true → passMay s (passGroups s k) = true →
    (ownerOf s (pass s k).layout (pass s k).cursor = none → Runs (.rowRestore k) s (fun t => pass t k = Pass.wrap { pass s k with cursor := (pass s k).cursor + 1 } ∧ t.works = s.works)) ∧
    (∀ (v : VolumeDef) (b : Band) (rho : Nat), ownerOf s (pass s k).layout (pass s k).cursor = some (v, b, rho) → b.unwritten.getLsbD rho = true →
      Runs (.rowRestore k) s (fun t => pass t k = Pass.wrap { pass s k with cursor := (pass s k).cursor + 1 } ∧ t.works = s.works)) ∧
    (∀ (v : VolumeDef) (b : Band) (rho : Nat), ownerOf s (pass s k).layout (pass s k).cursor = some (v, b, rho) → b.unwritten.getLsbD rho = false → restoreTargets s l (pass s k).cursor (pass s k) ≠ [] → worksNumbered s →
      Runs (.rowRestore k) s (fun t => (∃ w ∈ t.works, w.kind = .restore k ∧ w.row = (pass s k).cursor ∧ w.volume = v.volume) ∧ pass t k = pass s k))) ∧
  (∀ (k : Nat) (s : State), passRuns (pass s k) = false → exec (.rowRestore k) s = .next s) ∧
  (∀ (m : Nat) (d : FoundDrive) (p : Bool) (s : State), opfin s = true → mayReplace s m d = true → (∀ r ∈ s.degrade.found, r.member ≠ m) →
    exec (.replacementDiscovered m d p) s = .next { s with degrade := { s.degrade with found := s.degrade.found ++ [⟨m, d, p, (mem s m).state, false⟩] } }) ∧
  (∀ (r : Replacement) (s : State), s.degrade.found = [r] → r.admitting = false →
    (mem (admitBoundary s) r.member).state = 6 ∧ (admitBoundary s).degrade.found = [{ r with admitting := true }]) ∧
  (∀ (r : Replacement) (s : State), s.degrade.found = [r] → r.admitting = true → r.good = true → (∀ e ∈ s.degrade.placed, e.2.2.1 ≠ r.member) →
    (mem (admitBoundary s) r.member).state = (if s.degrade.updates.any (fun u => u.member = r.member) then 7 else 5) ∧ (mem (admitBoundary s) r.member).serial = r.drive.serial ∧
      (mem (admitBoundary s) r.member).capacity = r.drive.capacity ∧ (admitBoundary s).degrade.found = []) ∧
  (∀ (r : Replacement) (s : State), s.degrade.found = [r] → r.admitting = true → r.good = false →
    (mem (admitBoundary s) r.member).state = r.before ∧ (admitBoundary s).drives.unassigned = s.drives.unassigned ++ [r.drive]) ∧
  (∀ (m : Nat) (d : FoundDrive) (p : Bool) (s : State), mayReplace s m d = false → exec (.replacementDiscovered m d p) s = .next s) ∧
  (∀ (m i a : Nat) (s : State), registryPos s m = some i → alternateFor s m = some a → opfin s = true → ((mem s m).state = 3 ∨ (mem s m).state = 4) →
    exec (.registryRehome m) s = .next { s with degrade := { s.degrade with roster := s.degrade.roster.filter (fun e => e.1 ≠ i) ++ [(i, a)] } }) ∧
  (∀ (m : Nat) (s : State), registryPos s m = none → exec (.registryRehome m) s = .next s)

/-- Losses and scrub (R156, R157, R159, R164–R166): entries that a majority holds are durable; a row is sealed only where every lost block is recorded; a full area is marked, with the volumes that it
concerns; a scrub without a mismatch only counts the row; the parts of a batch row accumulate. Each of these is said to answer a next state under conditions on the state and the operands alone:
lossEntriesDurable, sealRow, lossAreaFull, localScrub, globalScrubBatch. -/
def Obligations.LossesAndScrub : Prop :=
  (∀ (find : Nat) (acks : List Nat) (s : State), opfin s = true → majority s acks = true → (∀ w ∈ s.works, find ∉ w.waitFinds) →
    Runs (.lossEntriesDurable find acks) s (fun t => (∀ e ∈ t.degrade.loss, e.find = find → e.durable = true) ∧ t.degrade.loss.length = s.degrade.loss.length ∧
      t.registry.loss = t.degrade.loss.filter (fun e => e.durable) ∧ OnlyIn [.degrade, .registry] s t)) ∧
  (∀ (find : Nat) (acks : List Nat) (s : State), majority s acks = false → exec (.lossEntriesDurable find acks) s = .next s) ∧
  (∀ (layout row pos rho : Nat) (l : Layout) (v : VolumeDef) (b : Band) (s : State), layoutOf s layout = some l → ownerOf s layout row = some (v, b, rho) → l.positions.contains pos = true → b.unwritten.getLsbD rho = false →
    sealable s l row pos (lostNow s l row pos) = true → worksNumbered s →
    Runs (.sealRow layout row pos) s (fun t => ∃ w ∈ t.works, w.kind = .seal ∧ w.layout = layout ∧ w.row = row ∧ w.positions = [pos] ∧ ∀ c ∈ lostNow s l row pos, (c, pos, []) ∈ w.news)) ∧
  (∀ (layout row pos : Nat) (l : Layout) (s : State), layoutOf s layout = some l → sealable s l row pos (lostNow s l row pos) = false → exec (.sealRow layout row pos) s = .next s) ∧
  (∀ s : State, 32768 ≤ lossHeld s → s.degrade.lossFull = false → Runs .lossAreaFull s (fun t => t.degrade.lossFull = true ∧ t.degrade.loss = s.degrade.loss ∧ (∀ e ∈ s.degrade.loss, e.volume ∈ t.degrade.lossVols) ∧ OnlyIn [.degrade, .daybook] s t)) ∧
  (∀ s : State, lossHeld s < 32768 → exec .lossAreaFull s = .next s) ∧
  (∀ (layout row j rho : Nat) (chunks : List (ChunkId × List Byte)) (l : Layout) (v : VolumeDef) (b : Band) (s : State), opfin s = true → layoutOf s layout = some l → ownerOf s layout row = some (v, b, rho) →
    b.unwritten.getLsbD rho = false → serves s (l.powerGroup (.p j)) = true → scrubMay s (l.powerGroup (.p j)) = true → j < l.groups.length → holdFree s layout row = true → lossPauses s layout = false →
    erasedChunks s l row = [] → (∀ c, c ∈ (covers l (.p j)).map ChunkId.d ++ [.p j, .q j] → (∃ e ∈ chunks, e.1 = c) ∧ ∀ p ∈ l.positions, scrubFailed chunks c p = false) →
    (∀ p ∈ l.positions, judgePosition (covers l (.p j)) (scrubDeltas l j chunks p).1 (scrubDeltas l j chunks p).2 = .none) → (∀ c ∈ s.cmds, (layout, row, j) ∉ c.checks) →
    Runs (.localScrub layout row j chunks) s (fun t => t.degrade.scrubRows = inc 0xFFFFFFFF s.degrade.scrubRows ∧ t.degrade.located = s.degrade.located ∧ t.degrade.unlocated = s.degrade.unlocated ∧
      t.degrade.syndrome = s.degrade.syndrome ∧ (layout, row, j, s.mgmt.opMs) ∈ t.degrade.scrubbed ∧ (layout, row) ∉ t.drives.scrubFirst ∧ t.works = s.works ∧ t.ledger = s.ledger)) ∧
  (∀ (layout row j : Nat) (chunks : List (ChunkId × List Byte)) (s : State), lossPauses s layout = true → exec (.localScrub layout row j chunks) s = .next s ∧ exec (.globalScrubBatch layout row chunks) s = .next s) ∧
  (∀ (layout row rho : Nat) (chunks : List (ChunkId × List Byte)) (l : Layout) (v : VolumeDef) (b : Band) (s : State), opfin s = true → layoutOf s layout = some l → ownerOf s layout row = some (v, b, rho) →
    b.unwritten.getLsbD rho = false → l.globals ≠ 0 → holdFree s layout row = true → lossPauses s layout = false → s.degrade.batch = [] → globalDue s layout row = true → (∀ w ∈ s.works, w.layout = layout → w.row = row → w.step < 2) → (∀ e ∈ chunks, e.1 ≠ .g 1) →
    Runs (.globalScrubBatch layout row chunks) s (fun t => OnlyIn [.degrade] s t ∧ ∃ r, t.degrade.batch = [r] ∧ r.layout = layout ∧ r.row = row ∧
      ∀ e ∈ chunks, e.1 ∈ l.chunks → e.1 ∉ erasedChunks s l row → serves s (l.powerGroup e.1) = true → e.1 ∈ r.added))

/-- The groups whose windows the copy of a target row needs: those its sources are read from and those of every column it writes (R182, R186). -/
def copyGroups (s : State) (k : Nat) (l : Layout) (row : Nat) : List Nat :=
  (((copyNeeds (copySources s l row (rsh s k).region (rsh s k).volume)).flatMap (Need.groups s)) ++ l.writeGroups (l.cols.map (fun c => c.2.2))).eraseDups

/-- RESHAPE and the copy (R176–R182, R191, R318): a Start that R177 does not refuse takes the lowest idle slot; Pause, Resume and Cancel are registered in the states that allow them and else end
NoReshape; a record that a majority holds is acknowledged; the device starts one for a layout that is long degraded; the copy of a region starts, goes row by row, and is done after the last. Each of
these is said to answer a next state under conditions on the state and the operands alone: reshapeStart, reshapePause, reshapeResume, reshapeCancel, reshapeRecordAck, deviceStartedReshape, regionCopy. -/
def Obligations.ReshapesRun : Prop :=
  (∀ (tag : Nat) (c : Cmd) (e : Nat × Nat) (s : State), reshapeCmd s tag 0 = some c → startRefusal s c.hdr.volume (c.hdr.f 25 1) = some e →
    Runs (.reshapeStart tag) s (fun t => Ended t tag e.1 e.2 [0xFF] ∧ t.reshapes = s.reshapes)) ∧
  (∀ (tag k : Nat) (c : Cmd) (s : State), reshapeCmd s tag 0 = some c → startRefusal s c.hdr.volume (c.hdr.f 25 1) = none → s.reshapes.slots.length = 4 → (List.range 4).find? (fun k => (rsh s k).state = 0) = some k →
    Runs (.reshapeStart tag) s (fun t => rsh t k = { state := 1, volume := c.hdr.volume, source := (vol s c.hdr.volume).layout, target := c.hdr.f 25 1, tag := some tag, lastChange := s.now } ∧
      (∀ j, j ≠ k → rsh t j = rsh s j) ∧ findCmd t tag = some { c with phase := .busy, begun := true } ∧ OnlyIn [.reshapes, .cmds] s t)) ∧
  (∀ (tag k : Nat) (c : Cmd) (s : State), slotOf s c.hdr.volume = some k →
    (reshapeCmd s tag 1 = some c → ((rsh s k).state = 2 ∨ (rsh s k).state = 4) →
      Runs (.reshapePause tag) s (fun t => rsh t k = { rsh s k with reqs := (rsh s k).reqs ++ [(1, tag)] } ∧ findCmd t tag = some { c with phase := .busy } ∧ OnlyIn [.reshapes, .cmds] s t)) ∧
    (reshapeCmd s tag 2 = some c → (rsh s k).state = 3 →
      Runs (.reshapeResume tag) s (fun t => rsh t k = { rsh s k with reqs := (rsh s k).reqs ++ [(2, tag)] } ∧ findCmd t tag = some { c with phase := .busy } ∧ OnlyIn [.reshapes, .cmds] s t)) ∧
    (reshapeCmd s tag 3 = some c → (rsh s k).state ≤ 4 →
      Runs (.reshapeCancel tag) s (fun t => rsh t k = { rsh s k with reqs := (rsh s k).reqs ++ [(3, tag)] } ∧ findCmd t tag = some { c with phase := .busy } ∧ OnlyIn [.reshapes, .cmds] s t))) ∧
  (∀ (tag : Nat) (c : Cmd) (s : State), slotOf s c.hdr.volume = none →
    (reshapeCmd s tag 1 = some c → Runs (.reshapePause tag) s (fun t => Ended t tag 0x10 0x0F [0xFF] ∧ t.reshapes = s.reshapes)) ∧
    (reshapeCmd s tag 2 = some c → Runs (.reshapeResume tag) s (fun t => Ended t tag 0x10 0x0F [0xFF] ∧ t.reshapes = s.reshapes)) ∧
    (reshapeCmd s tag 3 = some c → Runs (.reshapeCancel tag) s (fun t => Ended t tag 0x10 0x0F [0xFF] ∧ t.reshapes = s.reshapes))) ∧
  (∀ (k : Nat) (acks : List Nat) (s : State), k < 4 → (rsh s k).state = 1 → (rsh s k).built = true → majority s acks = true →
    Runs (.reshapeRecordAck k acks) s (fun t => rsh t k = { rsh s k with acked := true } ∧ (s.registry.reshapes.length = 4 → (t.registry.reshapes.drop k).headD {} = rsh t k) ∧ OnlyIn [.reshapes, .registry] s t)) ∧
  (∀ (k : Nat) (acks : List Nat) (s : State), ((rsh s k).built = false ∨ majority s acks = false) → exec (.reshapeRecordAck k acks) s = .next s) ∧
  (∀ (v g k : Nat) (d : VolumeDef) (s : State), opfin s = true → volDef s v = some d → bit d.flags 0 = true → feature s 5 = 1 → longDegraded s (vol s v).layout = true → v ∉ s.reshapes.barred → retires s = true →
    minOf (((s.ch (·.layouts) []).filter (fun l => l.fallback = (vol s v).layout && (startRefusal s v l.index).isNone)).map (fun l => l.index)) = some g →
    s.reshapes.slots.length = 4 → (List.range 4).find? (fun k => (rsh s k).state = 0) = some k →
    Runs (.deviceStartedReshape v) s (fun t => rsh t k = { state := 1, device := true, volume := v, source := (vol s v).layout, target := g, lastChange := s.now } ∧ OnlyIn [.reshapes, .daybook] s t)) ∧
  (∀ (v : Nat) (s : State), feature s 5 ≠ 1 → exec (.deviceStartedReshape v) s = .next s) ∧
  (∀ (k : Nat) (d : VolumeDef) (l : Layout) (s : State), k < 4 → volDef s (rsh s k).volume = some d → layoutOf s (rsh s k).target = some l → (rsh s k).state = 2 → (rsh s k).regionDone = false → (rsh s k).reqs = [] →
    (∀ w ∈ s.works, w.kind ≠ .reshape k) → yieldCause s (rsh s k) = 0 → (copyRegions s k).any (fun x => decide ((rsh s k).region ≤ x)) = true →
    Runs (.regionCopy k) s (fun t => (rsh s k).region ∈ (rsh t k).started ∧ ((rsh s k).region ∈ (rsh s k).started →
      ((regionRows s k (rsh s k).region)[(rsh s k).row]? = none → rsh t k = { rsh s k with regionDone := true } ∧ t.works = s.works) ∧
      (∀ row, (regionRows s k (rsh s k).region)[(rsh s k).row]? = some row → worksNumbered s →
        (∃ x ∈ t.gov.demands, x.of = .reshape k ∧ x.cls = 6) ∧
        ((copyGroups s k l row).all (serves s) = true → copyMay (setDemand s 6 (copyGroups s k l row) (.reshape k)) (copyGroups s k l row) = true → ∃ w ∈ t.works, w.kind = .reshape k ∧ w.row = row))))) ∧
  (∀ (k : Nat) (s : State), (∀ w ∈ s.works, w.kind ≠ .reshape k) → ((rsh s k).state ≠ 2 ∨ yieldCause s (rsh s k) ≠ 0) → exec (.regionCopy k) s = .next s)

/-- Postings (R198, R199, R202, R206–R209, R212): a posting's descriptor is written into the pool; a bad descriptor is counted and nothing is queued; a ready posting enters the newest end of its home's
deque, or waits in the producer; a teller takes an entry that fits, and a thief the oldest of a victim, 64 cycles further off outside its branch; a finished posting writes its sums and counts its work
off; a parity error discards the output and queues the posting again. Each of these is said to answer a next state under conditions on the state and the operands alone: postingPush, postingTake,
steal, postingFinish, parityError. -/
def Obligations.PostingsRun : Prop :=
  (∀ (p : Posting) (s : State), descriptorOk p = false → findWork s p.work = none →
    Runs (.postingPush p) s (fun t => t.tellers = { s.tellers with badDesc := inc 0xFFFF s.tellers.badDesc } ∧ t.scratch = (writeDescriptor s p).scratch ∧ OnlyIn [.tellers, .daybook, .scratch] s t)) ∧
  (∀ (p : Posting) (x : Nat) (s : State), descriptorOk p = true → postingReady s p = true → s.tellers.producer = [] → chooseHome s = some x → p.promoted = false →
    Runs (.postingPush p) s (fun t => (tslot t x).deque = (tslot s x).deque ++ [(pushMark s, { p with estimate := p.inputs.length * p.length / 2, home := x })] ∧
      (∀ y, y ≠ x → tslot t y = tslot s y) ∧ t.scratch = (writeDescriptor s p).scratch ∧ OnlyIn [.tellers, .scratch] s t)) ∧
  (∀ (p : Posting) (s : State), descriptorOk p = true → postingReady s p = true → s.tellers.producer = [] → chooseHome s = none →
    Runs (.postingPush p) s (fun t => t.tellers = { s.tellers with finished := s.tellers.finished.filter (fun n => n ≠ p.index), producer := [{ p with estimate := p.inputs.length * p.length / 2 }] } ∧
      OnlyIn [.tellers, .scratch] s t)) ∧
  (∀ (p : Posting) (s : State), descriptorOk p = true → postingReady s p = false → exec (.postingPush p) s = .next (writeDescriptor s p)) ∧
  (∀ (x t : Nat) (p : Posting) (rest : List (Nat × Posting)) (s : State), x < 128 → t < 25600 → canTake (s.at t) x = true → ownEntry (s.at t) x t = some (p, rest) → knownProgram s p.program = true → s.tellers.draws = [] →
    (tbranch s (branchOf x)).reissue = [] → s.tellers.producer = [] →
    Runs (.postingTake x t) s (fun u => (tslot u x).running = some p ∧ (tslot u x).deque = rest ∧ (tslot u x).startAt = absCycle (s.at t) + 8 ∧ OnlyIn [.clock, .tellers] s u)) ∧
  (∀ (x t : Nat) (s : State), x < 128 → t < 25600 → canTake (s.at t) x = false → exec (.postingTake x t) s = .next (s.at t) ∧ exec (.steal x t) s = .next (s.at t)) ∧
  (∀ (x t v : Nat) (e : Nat × Posting) (r : List (Nat × Posting)) (s : State), x < 128 → t < 25600 → t % 16 = 0 → canTake (s.at t) x = true → ownEntry (s.at t) x t = none →
    s.tellers.draws = [] → s.tellers.pushed = [] → victim (s.at t) x t 0 (siblingsOf x) = some v → (tslot s v).deque = e :: r → knownProgram s e.2.program = true →
    Runs (.steal x t) s (fun u => (tslot u x).running = some e.2 ∧ (tslot u x).startAt = absCycle (s.at t) + 8 ∧ u.tellers.stealsBranch = inc 0xFFFF s.tellers.stealsBranch ∧
      u.tellers.stealsCross = s.tellers.stealsCross)) ∧
  (∀ (x t v : Nat) (e : Nat × Posting) (r : List (Nat × Posting)) (s : State), x < 128 → t < 25600 → t % 16 = 0 → canTake (s.at t) x = true → ownEntry (s.at t) x t = none →
    s.tellers.draws = [] → s.tellers.pushed = [] → victim (s.at t) x t 0 (siblingsOf x) = none → victim (s.at t) x t 64 (othersOf (s.at t) x) = some v → (tslot s v).deque = e :: r →
    knownProgram s e.2.program = true →
    Runs (.steal x t) s (fun u => (tslot u x).running = some e.2 ∧ (tslot u x).startAt = absCycle (s.at t) + 64 ∧ u.tellers.stealsCross = inc 0xFFFF s.tellers.stealsCross ∧
      u.tellers.stealsBranch = s.tellers.stealsBranch)) ∧
  (∀ (x t d : Nat) (p : Posting) (s : State), x < 128 → t < 25600 → (tslot s x).running = some p → (tslot s x).startAt + p.estimate ≤ absCycle (s.at t) → readsPoison s p = false →
    p.program = 0 → p.dests = [d] → p.bases = [] →
    Runs (.postingFinish x t) s (fun u => (tslot u x).running = none ∧ u.tellers.postings = inc 0xFFFFFFFF s.tellers.postings ∧
      u.tellers.busyCycles = s.tellers.busyCycles + (absCycle (s.at t) - (tslot s x).startAt) ∧
      ∀ a, Memory.read 0 u.scratch.cells a = if d ≤ a ∧ a < d + (outputSum s p 0).length then (outputSum s p 0).getD (a - d) 0 else Memory.read 0 s.scratch.cells a)) ∧
  (∀ (x t : Nat) (p : Posting) (s : State), x < 128 → t < 25600 → (tslot s x).running = some p → (tslot s x).startAt + p.estimate ≤ absCycle (s.at t) → readsPoison s p = false → p.program = 1 →
    Runs (.postingFinish x t) s (fun u => (tslot u x).running = none ∧ u.tellers.results = s.tellers.results ++ [(p.work, checkWord s p)] ∧ u.scratch = s.scratch)) ∧
  (∀ (x t : Nat) (p : Posting) (w : Work) (s : State), x < 128 → t < 25600 → (tslot s x).running = some p → (tslot s x).startAt + p.estimate ≤ absCycle (s.at t) → readsPoison s p = false →
    findWork s p.work = some w → w.step = 3 → 2 ≤ w.postsLeft → Runs (.postingFinish x t) s (fun u => findWork u p.work = some { w with postsLeft := w.postsLeft - 1 })) ∧
  (∀ (x t : Nat) (p : Posting) (s : State), x < 128 → t < 25600 → (tslot s x).running = some p → absCycle (s.at t) < (tslot s x).startAt + p.estimate → exec (.postingFinish x t) s = .next (s.at t)) ∧
  (∀ (x p : Nat) (q : Posting) (s : State), (tslot s x).phys = some p → (tslot s x).running = some q →
    Runs (.parityError x) s (fun t => (tslot t x).running = none ∧ t.tellers.atBoundary = s.tellers.atBoundary ++ [((tslot s x).startAt, { q with reissue := true, promoted := true })] ∧ t.tellers.parity = inc 0xFFFF s.tellers.parity ∧
      t.tellers.reissued = inc 0xFFFF s.tellers.reissued ∧ OnlyIn [.tellers] s t ∧
      (tphys t p).parity = (tphys s p).parity.filter (fun c => s.now < c + 2 ^ s.ch (·.parityLog) 28) ++ [s.now] ∧
      (s.ch (·.parityLimit) 3 ≤ (tphys t p).parity.length → (tphys s p).state ≤ 1 → (tphys t p).state = 6))) ∧
  (∀ (x : Nat) (s : State), (tslot s x).phys = none → exec (.parityError x) s = .next s)

/-- TELLER_SELF_TEST, BRANCH_GATING and the scratch memory (R214, R216, R219–R226): a reserve that passes takes a vacant number at its boundary and one that fails leaves the reserve; an idle branch is
gated in Trim; in a scratch cycle a write is stored, a read returns the bytes, and of two writes that meet the lower-numbered port's is stored and the other port is told; a bank's retirement is
decided once; a bank sleeps in Trim; a sweep step advances, yields or finds a fault. Each of these is said to answer a next state under conditions on the state and the operands alone: tellerSelfTest,
branchGating, scratchAccess, bankRetirement, bankRetention, sweepStep. -/
def Obligations.TellersAndScratch : Prop :=
  (∀ (p x : Nat) (r : List Nat) (s : State), minOf (testing s) = some p → s.tellers.vacant.filter (fun x => !s.tellers.admitDue.any (fun d => d.2 = x)) = x :: r →
    exec (.tellerSelfTest true) s = .next { s with tellers := { s.tellers with admitDue := s.tellers.admitDue ++ [(p, x)] } }) ∧
  (∀ (p : Nat) (s : State), minOf (testing s) = some p →
    Runs (.tellerSelfTest false) s (fun t => (tphys t p).state = 4 ∧ t.tellers.admitDue = s.tellers.admitDue ∧ t.tellers.slots = s.tellers.slots ∧ t.reserves.testFailed = inc 0xFFFF s.reserves.testFailed)) ∧
  (∀ (pass : Bool) (s : State), testing s = [] → exec (.tellerSelfTest pass) s = .next s) ∧
  (∀ (b : Nat) (s : State), s.power.state = 1 → b < 16 → (tbranch s b).gated = false → branchIdle s b = true → (tbranch s b).idleSince + s.ch (·.branchIdle) 125 ≤ s.now →
    Runs (.branchGating b) s (fun t => (tbranch t b).gated = true ∧ (∀ x ∈ membersOfBranch b, ∀ p, (tslot s x).phys = some p → (tphys s p).state = 0 → (tphys t p).state = 1) ∧
      t.tellers.slots = s.tellers.slots ∧ OnlyIn [.tellers] s t)) ∧
  (∀ (b : Nat) (s : State), s.power.state ≠ 1 → exec (.branchGating b) s = .next s ∧ exec (.bankRetention b) s = .next s) ∧
  (∀ (a : ScrAccess) (d : Lanes) (s : State), a.write = some d → d.length ≤ 64 → mayTouch s a = true → a.port < 154 → (accBanks s a).length = (accWords a).length → (∀ b ∈ accBanks s a, (bank s b).state = 0) →
    Runs (.scratchAccess [a]) s (fun t => t.scratch.cells = Memory.writeLanes 0 s.scratch.cells a.addr d ∧ t.scratch.lostPorts = [] ∧ t.scratch.waits = s.scratch.waits ∧ OnlyIn [.scratch] s t)) ∧
  (∀ (a : ScrAccess) (s : State), a.write = none → a.len ≤ 64 → mayTouch s a = true → a.ecc = 0 → a.port < 154 → (accBanks s a).length = (accWords a).length → (∀ b ∈ accBanks s a, (bank s b).state = 0) → (∀ w ∈ accWords a, w ∉ s.scratch.poisoned) →
    Runs (.scratchAccess [a]) s (fun t => t.scratch.lastReads = [(a.port, Memory.readN 0 s.scratch.cells a.addr a.len)] ∧ t.scratch.cells = s.scratch.cells ∧ OnlyIn [.scratch] s t)) ∧
  (∀ (a b : ScrAccess) (d e : Lanes) (s : State), a.write = some d → b.write = some e → d.length ≤ 64 → e.length ≤ 64 → mayTouch s a = true → mayTouch s b = true → a.port < b.port → b.port < 138 → (∃ x ∈ accBytes a, x ∈ accBytes b) →
    (accBanks s a).length = (accWords a).length → (accBanks s b).length = (accWords b).length → (∀ k ∈ accBanks s a ++ accBanks s b, (bank s k).state = 0) →
    Runs (.scratchAccess [a, b]) s (fun t => t.scratch.cells = Memory.writeLanes 0 s.scratch.cells a.addr d ∧ t.scratch.lostPorts = [b.port] ∧ t.scratch.lost = inc 0xFFFF s.scratch.lost)) ∧
  (∀ (b : Nat) (s : State), b < 264 → (bank s b).mapped = true → (bank s b).retired = false → (∀ c ∈ s.scratch.copies, c.old ≠ b ∧ c.new ≠ some b) →
    exec (.bankRetirement b) s = .next { s with scratch := { s.scratch with copies := s.scratch.copies ++ [⟨b, none, s.now + 2, if bankOverLimit s b then 1 else 2⟩] } }) ∧
  (∀ (b : Nat) (s : State), (bank s b).retired = true → (∀ c ∈ s.scratch.copies, c.new ≠ some b) → exec (.bankRetirement b) s = .next s) ∧
  (∀ (b : Nat) (s : State), s.power.state = 1 → b < 264 → (bank s b).mapped = true → (bank s b).state = 0 →
    Runs (.bankRetention b) s (fun t => bank t b = { bank s b with state := 1 } ∧ (∀ k, k ≠ b → bank t k = bank s k) ∧ t.scratch.cells = s.scratch.cells ∧ OnlyIn [.scratch] s t)) ∧
  (∀ (t b : Nat) (ports : List Nat) (s : State), (s.at t).quiet = true → s.closers.entry = 2 → (s.at t).clock.cycle + 340 ≤ 25600 → s.power.state < 2 → s.scratch.swept = false → bankOf s s.scratch.sweepBank = some b →
    (∀ c ∈ s.scratch.copies, c.old ≠ b) → s.scratch.sweepBank < 255 →
    ((∀ p ∈ ports, 138 ≤ p) → Runs (.sweepStep t ports none) s (fun u => u.scratch = { s.scratch with swept := true, sweepBank := s.scratch.sweepBank + 1 } ∧ u.clock = (s.at t).clock)) ∧
    ((∃ p ∈ ports, p < 138) → Runs (.sweepStep t ports none) s (fun u => u.scratch = { s.scratch with swept := true, yields := inc 0xFFFF s.scratch.yields })) ∧
    ((∀ p ∈ ports, 138 ≤ p) → (bank s b).retired = false → (∀ c ∈ s.scratch.copies, c.new ≠ some b) → (bank s b).mapped = true →
      ∀ f, Runs (.sweepStep t ports (some f)) s (fun u => u.scratch.failures = inc 0xFF s.scratch.failures ∧ u.scratch.copies = s.scratch.copies ++ [⟨b, none, s.now + 2, 3⟩]))) ∧
  (∀ (t : Nat) (ports : List Nat) (f : Option Nat) (s : State), s.closers.entry ≠ 2 → exec (.sweepStep t ports f) s = .next (s.at t))

/-- Power groups and GROUP WINDOW (R320, R358–R361): a Request is a class 4 demand and a Release waits for the boundary; a Request whose deadline has passed ends; a group rises in batches once its shelf
reports, is Ready when its members are or at the limit, closes, falls, and is Down; a claim that ends leaves no demand. Each of these is said to answer a next state under conditions on the state and
the operands alone: groupWindowRequest, groupWindowRelease, groupWindowDeadline, closingEnd, shelfPowerOk, staggerStep, groupReady, spinUpLimitExpiry, groupDown, hostClaimEnd. -/
def Obligations.PowerGroupsCycle : Prop :=
  (∀ (tag : Nat) (c : Cmd) (s : State), windowCmd s tag 0 .started = some c →
    Runs (.groupWindowRequest tag) s (fun t => findCmd t tag = some { c with phase := .busy, begun := true } ∧ (∃ d ∈ t.gov.demands, d.cls = 4 ∧ d.groups = [c.hdr.f 24 1] ∧ d.of = .hostReq tag) ∧
      t.gov.groups = s.gov.groups ∧ (s.power.state = 2 → t.power.exitDue = true) ∧ (s.power.state ≠ 2 → t.power = s.power))) ∧
  (∀ (tag : Nat) (c : Cmd) (s : State), windowCmd s tag 1 .started = some c →
    Runs (.groupWindowRelease tag) s (fun t => findCmd t tag = some { c with phase := .busy, begun := true } ∧ OnlyIn [.cmds] s t)) ∧
  (∀ (tag : Nat) (c : Cmd) (s : State), windowCmd s tag 0 .busy = some c → (grp s (c.hdr.f 24 1)).state ≠ 2 → c.hdr.f 36 4 ≠ 0 → c.pos.close + c.hdr.f 36 4 < s.now →
    Runs (.groupWindowDeadline tag) s (fun t => findCmd t tag = some { c with phase := .due s.now, status := 0x60, detail := 1, result := [] } ∧ (∀ d ∈ t.gov.demands, d.of ≠ .hostReq tag) ∧
      OnlyIn [.gov, .cmds] s t)) ∧
  (∀ (tag : Nat) (c : Cmd) (s : State), windowCmd s tag 0 .busy = some c → (grp s (c.hdr.f 24 1)).state ≠ 2 → (c.hdr.f 36 4 = 0 ∨ s.now ≤ c.pos.close + c.hdr.f 36 4) → exec (.groupWindowDeadline tag) s = .next s) ∧
  (∀ (g : Nat) (s : State), (grp s g).state = 1 → (grp s g).shelfOk = false →
    Runs (.shelfPowerOk g true) s (fun t => (grp t g).shelfOk = true ∧ (grp t g).state = 1 ∧ (grp t g).batch = (grp s g).batch + 1 ∧ (grp t g).nextStep = s.now + s.ch (·.stagger) 250000 ∧ OnlyIn [.drives, .gov] s t)) ∧
  (∀ (g : Nat) (s : State), (grp s g).state = 1 → (grp s g).shelfOk = false → (grp s g).nextStep ≤ s.now →
    Runs (.shelfPowerOk g false) s (fun t => (grp t g).shelfOk = true ∧ (grp t g).batch = (grp s g).batch + 1 ∧ OnlyIn [.drives, .gov, .daybook] s t)) ∧
  (∀ (g : Nat) (s : State), s.now < (grp s g).nextStep → exec (.shelfPowerOk g false) s = .next s ∧ exec (.staggerStep g) s = .next s) ∧
  (∀ (g : Nat) (s : State), (grp s g).state = 1 → (grp s g).shelfOk = true → (grp s g).nextStep ≤ s.now →
    (grp s g).batch * max 1 (((groupDef s g).map (fun d => d.batch)).getD 12) < (groupMembers s g).length →
    Runs (.staggerStep g) s (fun t => (grp t g).batch = (grp s g).batch + 1 ∧ (grp t g).state = 1 ∧ (grp t g).nextStep = s.now + s.ch (·.stagger) 250000 ∧ OnlyIn [.drives, .gov] s t)) ∧
  (∀ (g : Nat) (s : State), s.clock.cycle = 0 → (grp s g).state = 1 → (∀ m ∈ groupMembers s g, (mem s m).state = 1 → (mem s m).ready = true) →
    Runs (.groupReady g) s (fun t => (grp t g).state = 2 ∧ (grp t g).readyAt = s.now ∧ (∀ x, x ≠ g → grp t x = grp s x) ∧ OnlyIn [.gov] s t)) ∧
  (∀ (g m : Nat) (s : State), m ∈ groupMembers s g → (mem s m).state = 1 → (mem s m).ready = false → exec (.groupReady g) s = .next s) ∧
  (∀ (g : Nat) (s : State), s.clock.cycle = 0 → (grp s g).state = 1 → (grp s g).granted + ((groupDef s g).map (fun d => d.spinUpLimit)).getD (2 ^ 22) ≤ s.now →
    Runs (.spinUpLimitExpiry g) s (fun t => (grp t g).state = 2 ∧ (grp t g).readyAt = s.now ∧ ∀ m ∈ groupMembers s g, (mem s m).state = 1 → (mem s m).ready = false → (mem t m).state = 2)) ∧
  (∀ (g : Nat) (s : State), (grp s g).state ≠ 1 → exec (.spinUpLimitExpiry g) s = .next s) ∧
  (∀ (g : Nat) (s : State), s.clock.cycle = 0 → (grp s g).state = 3 → (grp s g).endAt < s.now → (∀ c ∈ s.drives.cmds, c.member ∈ groupMembers s g → c.late = true) →
    Runs (.closingEnd g) s (fun t => (grp t g).state = 4 ∧ (grp t g).stateClose = s.now ∧ (grp t g).endAt = (grp s g).endAt ∧ OnlyIn [.drives, .gov] s t)) ∧
  (∀ (g : Nat) (s : State), s.now ≤ (grp s g).endAt → exec (.closingEnd g) s = .next s) ∧
  (∀ (g : Nat) (s : State), s.clock.cycle = 0 → (grp s g).state = 4 → (grp s g).nextStep ≤ s.now →
    Runs (.groupDown g) s (fun t => (grp t g).state = 0 ∧ (grp t g).endAt = s.now ∧ (∀ m ∈ groupMembers s g, (mem t m).ready = false ∧ (mem t m).slotOff = true) ∧ OnlyIn [.drives, .gov] s t)) ∧
  (∀ (g : Nat) (s : State), (grp s g).state ≠ 4 → exec (.groupDown g) s = .next s) ∧
  (∀ (g : Nat) (s : State), (grp s g).claimed = true → (grp s g).claimEnd ≤ s.now →
    Runs (.hostClaimEnd g) s (fun t => (grp t g).claimed = false ∧ (grp t g).state = (grp s g).state ∧ (∀ d ∈ t.gov.demands, d.of ≠ .claim g) ∧ OnlyIn [.gov] s t)) ∧
  (∀ (g : Nat) (s : State), s.now < (grp s g).claimEnd → exec (.hostClaimEnd g) s = .next s)

/-- SAS lanes and discovery (R350–R354, R368–R370): a lane comes up at a rate within its port's, goes down, and is replaced after 65,536 closes; a retrim that is plausible is kept, and the third failure
in 2^24 closes flags the lane; a discovery run counts what it found and marks a member missing whose slot holds no drive. Each of these is said to answer a next state under conditions on the state and
the operands alone: broadcastChange, discoveryRunEnd, sasRetrim, retrimDeferral, sasLaneFlag, sasLaneNotUp, sasLaneUp, sasLaneDown. -/
def Obligations.SasLanesAndDiscovery : Prop :=
  (∀ (n rate : Nat) (s : State), n < 16 → (lane s n).inPort = true → ((lane s n).state = 1 ∨ (lane s n).state = 3) → 1 ≤ rate → rate ≤ portRate s (lane s n).port →
    Runs (.sasLaneUp n rate) s (fun t => lane t n = { lane s n with state := 2, rate } ∧ (∀ m, m ≠ n → lane t m = lane s m) ∧ OnlyIn [.sas] s t)) ∧
  (∀ (n rate : Nat) (s : State), portRate s (lane s n).port < rate → exec (.sasLaneUp n rate) s = .next s) ∧
  (∀ (n : Nat) (s : State), n < 16 → (lane s n).state = 2 →
    Runs (.sasLaneDown n) s (fun t => lane t n = { lane s n with state := 3, rate := 0, downSince := s.now, slot := false } ∧ (∀ m, m ≠ n → lane t m = lane s m) ∧ OnlyIn [.sas] s t)) ∧
  (∀ (n : Nat) (s : State), (lane s n).state ≠ 2 → exec (.sasLaneDown n) s = .next s) ∧
  (∀ (n : Nat) (s : State), n < 16 → (lane s n).inPort = true → (lane s n).state ≠ 2 → (lane s n).downSince + 65536 ≤ s.now → (lane s n).replaceDue = none →
    Runs (.sasLaneNotUp n) s (fun t => lane t n = { lane s n with replaceDue := some 6 } ∧ OnlyIn [.sas] s t)) ∧
  (∀ (n : Nat) (s : State), (lane s n).state = 2 → exec (.sasLaneNotUp n) s = .next s) ∧
  (∀ (n : Nat) (s : State), 3 ≤ ((lane s n).failures.filter (fun c => s.now < c + 2 ^ 24)).length → (lane s n).flagged = false → (lane s n).inPort = true →
    Runs (.sasLaneFlag n) s (fun t => lane t n = { lane s n with flagged := true, replaceDue := some 4 } ∧ OnlyIn [.sas, .daybook] s t)) ∧
  (∀ (n : Nat) (s : State), ((lane s n).failures.filter (fun c => s.now < c + 2 ^ 24)).length < 3 → exec (.sasLaneFlag n) s = .next s) ∧
  (∀ (n : Nat) (r : Retrim) (s : State), (lane s n).slot = true → (lane s n).state = 2 → retrimPlausible r = true →
    Runs (.sasRetrim n r) s (fun t => lane t n = { lane s n with slot := false, trims := inc 0xFFFF (lane s n).trims, lastTrim := s.now } ∧ OnlyIn [.sas] s t)) ∧
  (∀ (n : Nat) (r : Retrim) (s : State), (lane s n).slot = true → (lane s n).state = 2 → retrimPlausible r = false →
    Runs (.sasRetrim n r) s (fun t => (lane t n).slot = false ∧ (lane t n).lastTrim = (lane s n).lastTrim ∧ (lane t n).failures = (lane s n).failures.filter (fun c => s.now < c + 2 ^ 24) ++ [s.now] ∧
      ((lane s n).flagged = false → (lane s n).inPort = true → ((lane t n).flagged = true ↔ 3 ≤ (lane t n).failures.length)))) ∧
  (∀ (n : Nat) (r : Retrim) (s : State), (lane s n).slot = false → exec (.sasRetrim n r) s = .next s) ∧
  (∀ (n : Nat) (s : State), (lane s n).slot = true →
    Runs (.retrimDeferral n) s (fun t => lane t n = { lane s n with deferred := inc 0xFFFF (lane s n).deferred } ∧ t.clock = (s.at 20480).clock ∧ OnlyIn [.clock, .sas] s t)) ∧
  (∀ s : State, exec .broadcastChange s = .next { s with drives := { s.drives with running := true, broadcasts := inc 0xFFFF s.drives.broadcasts } }) ∧
  (∀ (found : List FoundDrive) (x e b : Nat) (s : State), opfin s = true →
    Runs (.discoveryRunEnd found x e b) s (fun t => t.drives.running = false ∧ t.drives.lastDiscovery = s.now ∧ t.drives.expanders = x ∧ t.drives.enclosures = e ∧ t.drives.beyond = hold 0xFF (s.drives.beyond + b) ∧
      t.drives.unassigned = found.filter (unbound t) ∧ t.drives.cmds = s.drives.cmds ∧
      ∀ d ∈ s.ch (·.members) [], (∀ f ∈ s.ch (·.members) [], f.member = d.member → f = d) → (∀ f ∈ found, f.enclosure = d.enclosure → f.slot ≠ d.slot) →
        (mem t d.member).present = false ∧ (mem t d.member).state = (mem s d.member).state ∧
        ((mem s d.member).state < 3 → (mem t d.member).missingSince = some ((mem s d.member).missingSince.getD s.now)))) ∧
  (∀ (found : List FoundDrive) (x e b : Nat) (s : State), opfin s = false → exec (.discoveryRunEnd found x e b) s = .next s)

/-- A vault command that has written its record of kind 7 and waits for it to land with its effect. -/
def VaultRecorded (s t : State) (tag : Nat) (c d : Cmd) (e : VaultEffect) : Prop :=
  t.ledger.nextSeq = s.ledger.nextSeq + 1 ∧ (∃ r ∈ t.ledger.recs, r.seq = s.ledger.nextSeq ∧ r.kind = 7 ∧ r.tag = tag ∧ r.volume = c.hdr.volume ∧ r.pos = c.pos) ∧
    t.vaults = { s.vaults with effects := s.vaults.effects ++ [(s.ledger.nextSeq, tag, e)] } ∧
    findCmd t tag = some { d with recSeq := some s.ledger.nextSeq, phase := .landing }

/-- PUT BEGIN, PUT END, SEAL and DELETE (R333, R336, R340, R341, R345): with no earlier overlapping write still to come, each writes one record, whose effect lands with it: a session to open, an object to
store (or a session to drop when the digest differs), a retention end to set, an object to remove. PUT END of a session that is not open, or that has not received its size, ends at once; SEAL, DELETE
and a PUT END that stores allocate the bands of the index blocks first, or end SpaceExhausted (that these are the first three blocks is the model's, log entry 26). PUT DATA (R335): a piece of no open
session, at an offset that is not the bytes received so far, beyond the size, or uneven before the end fails, and no session changes; any other is completed with its effect, and lands with its record.
Each of these is said to answer a next state under conditions on the state and the operands alone: putBegin, putData, putEnd, sealObject, delete. -/
def Obligations.VaultWritesAreTaken : Prop :=
  (
  (∀ (tag : Nat) (c : Cmd) (s : State), startedCmd s tag 0x40 = some c → vaultAhead s c Cmd.vaultWrite = false →
    Runs (.putBegin tag) s (fun t => ∃ x, VaultRecorded s t tag c c (.begin x) ∧ x.vault = c.hdr.volume ∧ x.key = c.hdr.key ∧ x.size = c.hdr.lba ∧
      x.run = ceilDiv c.hdr.lba 4096 + tableBlocks c.hdr.lba ∧ x.received = 0 ∧ x.replace = bit c.hdr.flags 0)) ∧
  (∀ (tag : Nat) (c : Cmd) (s : State), startedCmd s tag 0x46 = some c → vaultAhead s c Cmd.vaultWrite = false →
    (allocRange s c.hdr.volume 0 3 = none → Runs (.delete tag) s (fun t => Ended t tag 0x30 3 [] ∧ OnlyIn [.cmds, .returns] s t)) ∧
    ∀ u, allocRange s c.hdr.volume 0 3 = some u → Runs (.delete tag) s (fun t => VaultRecorded u t tag c c (.remove c.hdr.volume c.hdr.key))) ∧
  (∀ (tag : Nat) (c : Cmd) (s : State), cmdIn s tag (fun c => c.phase = .busy && c.hdr.opcode = 0x45 && !c.failed && c.taken = c.hdr.d) = some c → vaultAhead s c Cmd.vaultWrite = false →
    (allocRange s c.hdr.volume 0 3 = none → Runs (.sealObject tag) s (fun t => Ended t tag 0x30 3 [] ∧ OnlyIn [.cmds, .returns] s t)) ∧
    ∀ u, allocRange s c.hdr.volume 0 3 = some u → Runs (.sealObject tag) s (fun t => VaultRecorded u t tag c { c with payload := [] } (.sealKey c.hdr.volume c.hdr.key c.hdr.lba (leNat (Memory.bytes c.payload 8))))) ∧
  (∀ (tag : Nat) (c : Cmd) (s : State), cmdIn s tag (fun c => c.hdr.opcode = 0x42 && !c.failed && (c.phase = .started && c.hdr.d = 0 || c.phase = .busy && c.taken = c.hdr.d)) = some c → vaultAhead s c Cmd.vaultWrite = false →
    ((findSession s c.hdr.blocks).filter (fun x => x.vault = c.hdr.volume && x.key = c.hdr.key) = none →
      Runs (.putEnd tag) s (fun t => Ended t tag 0x70 3 [] ∧ OnlyIn [.cmds, .returns] s t)) ∧
    ∀ x, (findSession s c.hdr.blocks).filter (fun x => x.vault = c.hdr.volume && x.key = c.hdr.key) = some x →
      (x.received ≠ x.size → Runs (.putEnd tag) s (fun t => Ended t tag 0x70 5 [] ∧ OnlyIn [.cmds, .returns] s t)) ∧
      (x.received = x.size → c.hdr.d = 32 → Memory.bytes c.payload 32 ≠ (objectOf x).digest →
        Runs (.putEnd tag) s (fun t => VaultRecorded s t tag c { c with session := x.number, payload := [] } (.drop x.number))) ∧
      (x.received = x.size → (c.hdr.d = 0 ∨ c.hdr.d = 32 ∧ Memory.bytes c.payload 32 = (objectOf x).digest) → tableBlocks x.size = 0 → ∀ u, allocRange s c.hdr.volume 0 3 = some u →
        Runs (.putEnd tag) s (fun t => VaultRecorded u t tag c { c with session := x.number, payload := [] } (.store x.number (objectOf x))))) ∧
  (∀ (tag : Nat) (c : Cmd) (s : State), findCmd s tag = some c → vaultAhead s c Cmd.vaultWrite = true →
    exec (.putBegin tag) s = .next s ∧ exec (.putEnd tag) s = .next s ∧ exec (.sealObject tag) s = .next s ∧ exec (.delete tag) s = .next s)) ∧
  (
  (∀ (tag : Nat) (c : Cmd) (s : State), cmdIn s tag (fun c => c.phase = .busy && c.hdr.opcode = 0x41 && !c.failed && c.taken = c.hdr.d) = some c →
    vaultAhead s c (fun e => e.vaultWrite && (e.hdr.opcode ≠ 0x41 || e.phase ≠ .landing)) = false →
    ((findSession s c.hdr.blocks).filter (fun x => x.vault = c.hdr.volume && x.key = c.hdr.key) = none →
      Runs (.putData tag) s (fun t => Ended t tag 0x70 3 (zeros 8) ∧ t.vaults = s.vaults ∧ OnlyIn [.ledger, .cmds, .returns] s t)) ∧
    ∀ x, (findSession s c.hdr.blocks).filter (fun x => x.vault = c.hdr.volume && x.key = c.hdr.key) = some x →
      (c.hdr.lba ≠ receivedSoon s x → Runs (.putData tag) s (fun t => Ended t tag 0x10 3 (natLe 8 (receivedSoon s x)) ∧ OnlyIn [.ledger, .cmds, .returns] s t)) ∧
      (c.hdr.lba = receivedSoon s x → x.size < c.hdr.lba + c.hdr.d → Runs (.putData tag) s (fun t => Ended t tag 0x70 5 (natLe 8 c.hdr.lba) ∧ OnlyIn [.ledger, .cmds, .returns] s t)) ∧
      (c.hdr.lba = receivedSoon s x → c.hdr.lba + c.hdr.d < x.size → c.hdr.d % 4096 ≠ 0 →
        Runs (.putData tag) s (fun t => Ended t tag 0x10 3 (natLe 8 c.hdr.lba) ∧ OnlyIn [.ledger, .cmds, .returns] s t)) ∧
      (∀ q, c.recSeq = some q → c.hdr.lba = receivedSoon s x → c.hdr.lba + c.hdr.d ≤ x.size → (c.hdr.d % 4096 = 0 ∨ c.hdr.lba + c.hdr.d = x.size) →
        allocRange s c.hdr.volume (x.first + c.hdr.lba / 4096) (ceilDiv c.hdr.d 4096) = some s → s.quiet = false →
        Runs (.putData tag) s (fun t => t.vaults = { s.vaults with effects := s.vaults.effects ++ [(q, tag, .data x.number (c.hdr.lba + c.hdr.d) c.payload)] } ∧
          findCmd t tag = some { c with phase := .landing, payload := [], session := x.number } ∧ t.free = s.free + 128 ∧ t.ledger.nextSeq = s.ledger.nextSeq ∧
          (∀ r ∈ t.ledger.recs, r.seq = q → r.state ≠ .filling ∧ r.span = some (x.first + c.hdr.lba / 4096, ceilDiv c.hdr.d 4096)) ∧ OnlyIn [.ledger, .cmds, .vaults, .chain, .free] s t))) ∧
  (∀ (tag : Nat) (c : Cmd) (s : State), findCmd s tag = some c → c.taken ≠ c.hdr.d → exec (.putData tag) s = .next s))

/-- GET, STAT, LIST and AUDIT OBJECT (R338, R339, R342, R344, R345): a reader waits for an earlier overlapping write; a key with no object ends NoSuchKey; STAT returns the 256 bytes of the index entry;
LIST up to Count entries of the keys from the start key on; GET and AUDIT OBJECT, whose blocks are all at hand, return data and Good where every digest agrees and DigestMismatch or AuditFailed where
one does not. Each of these is said to answer a next state under conditions on the state and the operands alone: get, stat, list, auditObject. -/
def Obligations.VaultReadersAnswer : Prop :=
  (∀ (tag : Nat) (c : Cmd) (s : State) (op : Nat) (i : Instr), (op, i) ∈ [(0x43, Instr.get tag), (0x44, .stat tag), (0x47, .list tag), (0x48, .auditObject tag)] →
    cmdIn s tag (fun c => (c.phase = .started || c.phase = .waiting) && c.hdr.opcode = op && !c.failed) = some c →
    (vaultAhead s c Cmd.vaultWrite = true → Runs i s (fun t => findCmd t tag = some { c with phase := .waiting } ∧ OnlyIn [.cmds] s t)) ∧
    (vaultAhead s c Cmd.vaultWrite = false → op ≠ 0x47 → findObj s c.hdr.volume c.hdr.key = none → Runs i s (fun t => Ended t tag 0x70 2 [] ∧ OnlyIn [.cmds, .returns] s t)) ∧
    (∀ o, vaultAhead s c Cmd.vaultWrite = false → op = 0x44 → findObj s c.hdr.volume c.hdr.key = some o →
      Runs i s (fun t => Ended t tag 0 0 [] ∧ (findCmd t tag).map (fun e => (e.data, e.dataLen)) = some (Memory.ofBytes (indexEntry o), 256) ∧ OnlyIn [.cmds, .returns] s t)) ∧
    (∀ o, vaultAhead s c Cmd.vaultWrite = false → op = 0x43 → findObj s c.hdr.volume c.hdr.key = some o → o.size < c.hdr.lba + c.hdr.blocks →
      Runs i s (fun t => Ended t tag 0x10 3 [] ∧ OnlyIn [.cmds, .returns] s t)) ∧
    (vaultAhead s c Cmd.vaultWrite = false → op = 0x47 → ∀ x n, findVault s c.hdr.volume = some x →
      n = countIf (fun (o : Object) => beNat c.hdr.key < beNat o.key || beNat c.hdr.key = beNat o.key && !bit c.hdr.flags 0) x.objects →
      Runs i s (fun t => Ended t tag 0 0 (natLe 4 (min c.hdr.blocks n) ++ natLe 1 (b1 (c.hdr.blocks < n))) ∧ (findCmd t tag).map (fun e => e.dataLen) = some (64 * min c.hdr.blocks n) ∧
        OnlyIn [.cmds, .returns] s t)) ∧
    (∀ o segs src, vaultAhead s c Cmd.vaultWrite = false → findObj s c.hdr.volume c.hdr.key = some o →
      segs = (if op = 0x43 then touched c.hdr.lba c.hdr.blocks else List.range (segCount o.size)) → src = runSources s c.hdr.volume o (checkBlocks o segs) (before s c) →
      (∀ e ∈ src, e.2 = .zero ∨ ∃ b p, e.2 = .data b p) → (∀ b ∈ checkBlocks o segs, lossAt s c.hdr.volume (b + o.first) = false) →
      (op = 0x43 → c.hdr.lba + c.hdr.blocks ≤ o.size →
        Runs i s (fun t => Ended t tag (if digestsAgree o segs (sourceData src) then 0 else 0x70) (if digestsAgree o segs (sourceData src) then 0 else 6)
            (natLe 8 (sumOf (fun k => min o.size ((k + 1) * segBytes) - k * segBytes) segs) ++ natLe 4 segs.length) ∧
          (findCmd t tag).map (fun e => (e.data, e.dataLen)) = some (Memory.slice (sourceData src) c.hdr.lba (c.hdr.lba + c.hdr.blocks), c.hdr.blocks) ∧
          (digestsAgree o segs (sourceData src) = true → t.vaults = s.vaults) ∧
          (digestsAgree o segs (sourceData src) = false → ∃ r ∈ t.vaults.repairs, r.vault = c.hdr.volume ∧ r.key = o.key))) ∧
      (op = 0x48 → ∀ x, findVault s c.hdr.volume = some x →
        Runs i s (fun t => Ended t tag (if objectAgrees o (sourceData src) then 0 else 0x70) (if objectAgrees o (sourceData src) then 0 else 9)
            (natLe 8 (sumOf (fun k => min o.size ((k + 1) * segBytes) - k * segBytes) segs) ++ natLe 8 x.timeMs) ∧
          (objectAgrees o (sourceData src) = true → (findObj t c.hdr.volume c.hdr.key).map (fun o => o.lastAudit) = some x.timeMs) ∧
          (objectAgrees o (sourceData src) = false → ∃ r ∈ t.vaults.repairs, r.vault = c.hdr.volume ∧ r.key = o.key)))))

/-- SESSION_IDLE_EXPIRY, the audits of the device's own, VAULT_TIME_TICK and VAULT_INDEX_WALK_END (R328, R331, R337, R343, R344): an idle session is closed and counted; an audit that finds its blocks at
hand sets the last audit time or lists the object for repair; the second audit counts a repair, or marks the object Damaged; the vault time goes on by a millisecond; the superblock of the higher
generation is in force. Each of these is said to answer a next state under conditions on the state and the operands alone: sessionIdleExpiry, backgroundAudit, digestMismatchRepair, vaultTimeTick,
vaultIndexWalkEnd. -/
def Obligations.VaultsAreKept : Prop :=
  (∀ (n : Nat) (x : Session) (s : State), findSession s n = some x → x.lastUse + 2 ^ s.ch (fun c => c.sessionIdleLog) 27 < s.now →
    Runs (.sessionIdleExpiry n) s (fun t => findSession t n = none ∧ t.vaults.sessions = s.vaults.sessions.filter (fun y => y.number ≠ n) ∧
      findVault t x.vault = (findVault s x.vault).map (fun v => { v with abandoned := inc 0xFFFF v.abandoned }) ∧ OnlyIn [.vaults] s t)) ∧
  (∀ (n : Nat) (x : Session) (s : State), findSession s n = some x → s.now ≤ x.lastUse + 2 ^ s.ch (fun c => c.sessionIdleLog) 27 → exec (.sessionIdleExpiry n) s = .next s) ∧
  (∀ (v a : Nat) (x : Vault) (o : Object) (src : List (Nat × Source)) (s : State), opfin s = true → findVault s v = some x → x.online = true → s.power.state < 2 → s.pair.fenced = false → s.vaults.jobs = [] →
    minOf (x.objects.map (fun o => o.lastAudit)) = some a → x.objects.find? (fun o => o.lastAudit = a) = some o →
    src = runSources s v o (checkBlocks o (List.range (segCount o.size))) (fun _ => true) → (∀ e ∈ src, e.2 = .zero ∨ ∃ b p, e.2 = .data b p) →
    (∀ b ∈ checkBlocks o (List.range (segCount o.size)), lossAt s v (b + o.first) = false) →
    Runs (.backgroundAudit v) s (fun t => t.vaults.jobs = [] ∧
      (objectAgrees o (sourceData src) = true → ∀ y, findVault t v = some y → ∀ p ∈ y.objects, p.key = o.key → p.first = o.first → p.ingest = o.ingest → p.lastAudit = x.timeMs) ∧
      (objectAgrees o (sourceData src) = false → (findVault t v).map (fun y => y.failed) = some (inc 0xFFFF x.failed) ∧ ∃ r ∈ t.vaults.repairs, r.vault = v ∧ r.key = o.key))) ∧
  (∀ (v : Nat) (s : State), (opfin s = false ∨ 2 ≤ s.power.state ∨ ∃ j ∈ s.vaults.jobs, j.vault = v) → exec (.backgroundAudit v) s = .next s) ∧
  (∀ (v : Nat) (k : Key) (r : VaultRepair) (x : Vault) (o : Object) (src : List (Nat × Source)) (s : State), opfin s = true → s.vaults.repairs.find? (fun r => r.vault = v && r.key = k) = some r → r.left = [] →
    findVault s v = some x → findObj s v k = some o → s.power.state < 2 → s.pair.fenced = false → s.vaults.jobs = [] →
    src = runSources s v o (checkBlocks o (List.range (segCount o.size))) (fun _ => true) → (∀ e ∈ src, e.2 = .zero ∨ ∃ b p, e.2 = .data b p) →
    (∀ b ∈ checkBlocks o (List.range (segCount o.size)), lossAt s v (b + o.first) = false) →
    Runs (.digestMismatchRepair v k) s (fun t => t.vaults.jobs = [] ∧ (∀ q ∈ t.vaults.repairs, q.vault = v → q.key ≠ k) ∧
      (objectAgrees o (sourceData src) = true → (findVault t v).map (fun y => y.repaired) = some (inc 0xFFFF x.repaired) ∧ (findObj t v k).map (fun p => p.state) = some 1) ∧
      (objectAgrees o (sourceData src) = false → (findVault t v).map (fun y => y.failed) = some (inc 0xFFFF x.failed) ∧ (findObj t v k).map (fun p => p.state) = some 2))) ∧
  (∀ (v : Nat) (k : Key) (r : VaultRepair) (s : State), s.vaults.repairs.find? (fun r => r.vault = v && r.key = k) = some r → r.left ≠ [] → exec (.digestMismatchRepair v k) s = .next s) ∧
  (∀ (v : Nat) (x : Vault) (a b : Nat × Nat) (s : State), findVault s v = some x → x.online = true → ((vol s v).state = 2 ∨ (vol s v).state = 3) → (s.pair.role = 0 ∨ s.pair.role = 1) → x.supers = [a, b] →
    Runs (.vaultTimeTick v) s (fun t => findVault t v = some (if x.lastStore + 2 ^ 24 ≤ s.now then
        { x with timeMs := x.timeMs + 1, lastStore := s.now, supers := if a.1 ≤ b.1 then [(b.1 + 1, x.timeMs + 1), b] else [a, (a.1 + 1, x.timeMs + 1)] }
      else { x with timeMs := x.timeMs + 1 }) ∧ OnlyIn [.vaults] s t)) ∧
  (∀ (v : Nat) (s : State), (vol s v).state ≠ 2 → (vol s v).state ≠ 3 → exec (.vaultTimeTick v) s = .next s) ∧
  (∀ (v : Nat) (x : Vault) (a b : Nat × Nat) (good : List Nat) (s : State), findVault s v = some x → x.online = false → x.superBad = false → x.supers = [a, b] →
    ((∀ i ∈ good, 2 ≤ i) → (∃ d ∈ s.bands, d.volume = v) → Runs (.vaultIndexWalkEnd v good) s (fun t => findVault t v = some { x with superBad := true } ∧ vol t v = vol s v)) ∧
    ((∀ i ∈ good, 2 ≤ i) → (∀ d ∈ s.bands, d.volume ≠ v) →
      Runs (.vaultIndexWalkEnd v good) s (fun t => findVault t v = some { x with online := true, objects := [], timeMs := 0, supers := [(1, 0), (0, 0)], lastStore := s.now })) ∧
    (0 < a.1 → 0 < b.1 → 0 ∈ good → 1 ∈ good → a.1 ≠ b.1 →
      Runs (.vaultIndexWalkEnd v good) s (fun t => findVault t v = some { x with online := true, timeMs := if a.1 < b.1 then b.2 else a.2, lastStore := s.now } ∧
        (s.chip.step = 15 → (vol s v).state = 1 → (vol s v).offReason = 0 → vol t v = { vol s v with state := 2 }))) ∧
    (0 < a.1 → 0 ∈ good → 1 ∉ good → Runs (.vaultIndexWalkEnd v good) s (fun t => findVault t v = some { x with online := true, timeMs := a.2, lastStore := s.now })) ∧
    (0 < b.1 → 1 ∈ good → 0 ∉ good → Runs (.vaultIndexWalkEnd v good) s (fun t => findVault t v = some { x with online := true, timeMs := b.2, lastStore := s.now }))) ∧
  (∀ (v : Nat) (x : Vault) (good : List Nat) (s : State), findVault s v = some x → x.online = true → exec (.vaultIndexWalkEnd v good) s = .next s)

/-- The witness record that a unit writes next (R386): the next epoch, this unit as owner, whether the other is current, and the close. -/
def ownRecord (s : State) (other : Bool) : Witness := ⟨(s.pair.witness.map (·.epoch)).getD 0 + 1, s.fuses.serial, other, s.now⟩

/-- CONFIRM, BOOK_HELD, RELEASE_NOTICE, POSTED_NOTICE, TOKEN and CONTROL_MESSAGE_RETURN (R46, R104, R113, R377, R381, R382): a confirmed Complete record is Countersigned; a named book entry is held by the
partner; a released copy is gone; a unit without an address takes the lowest clear one; a message that none took is sent again. STREAM_FRAME_ARRIVAL and STREAM_FRAME_RETURN (R373–R380): a frame with a
failed check changes the chain part alone, counts the failed lanes and makes the receiver discard; a good frame that asks nothing of this unit goes on with the unit's tally; words that the partner
took leave, and words it did not take are sent again from the first. Each of these is said to answer a next state under conditions on the state and the operands alone: confirm, bookHeld,
releaseNotice, postedNotice, token, streamFrameArrival, streamFrameReturn, controlMessageReturn. -/
def Obligations.ChainFrames : Prop :=
  (
  (∀ (seq : Nat) (s : State), isPair s = true → s.pair.mode ≠ 5 →
    exec (.confirm seq) s = .next { s with ledger := { s.ledger with recs := s.ledger.recs.map (fun r => if r.seq = seq ∧ r.state = .complete then { r with state := .countersigned } else r) } }) ∧
  (∀ (close : Nat) (s : State),
    exec (.bookHeld close) s = .next { s with closers := { s.closers with books := s.closers.books.map (fun b => if b.close = close then { b with partnerHeld := true } else b) } }) ∧
  (∀ (seq : Nat) (s : State), isPair s = true →
    Runs (.releaseNotice seq) s (fun t => (∀ r ∈ t.ledger.copies, r.seq ≠ seq) ∧ (∀ p ∈ t.pair.posted, p.2.2 ≠ seq) ∧ t.ledger.recs = s.ledger.recs ∧ OnlyIn [.ledger, .chain, .pair] s t)) ∧
  (∀ (tag ring seq : Nat) (s : State), isPair s = true →
    Runs (.postedNotice tag ring seq) s (fun t => (∀ p, p ∈ t.pair.posted ↔ p ∈ s.pair.posted ∨ p = (tag, ring, seq)) ∧ OnlyIn [.pair] s t)) ∧
  (∀ (seq : Nat) (s : State), isPair s = false →
    exec (.confirm seq) s = .next s ∧ exec (.releaseNotice seq) s = .next s ∧ ∀ tag ring, exec (.postedNotice tag ring seq) s = .next s) ∧
  (∀ (map units a : Nat) (s : State), alive s = true → s.ch (·.chainPresent) false = true → 5 ≤ s.chip.step → s.chip.chainHead = false → s.chain.address = none →
    a < 16 → bit map a = false → (∀ b < a, bit map b = true) →
    exec (.token map units) s = .next { s with chain := { s.chain with address := some a, tokenClose := s.now, units := if units = 0 then s.chain.units else units } }) ∧
  (∀ (map units a : Nat) (s : State), alive s = true → s.ch (·.chainPresent) false = true → 5 ≤ s.chip.step → s.chip.chainHead = false → s.chain.address = some a →
    exec (.token map units) s = .next { s with chain := { s.chain with tokenClose := s.now, units := if units = 0 then s.chain.units else units } }) ∧
  (∀ (map units : Nat) (s : State), alive s = true → s.ch (·.chainPresent) false = true → 5 ≤ s.chip.step → s.chip.chainHead = true →
    exec (.token map units) s = .next { s with chain := { s.chain with tokenClose := s.now, units := if units = 0 then (bitsOf 16 map).length else units } }) ∧
  (∀ (m : CtlMsg) (s : State), s.chain.address = some m.src → m.dst ≠ 0xFF →
    exec (.controlMessageReturn m) s = .next { s with chain := { s.chain with ctlQueue := s.chain.ctlQueue ++ [m] } }) ∧
  (∀ (m : CtlMsg) (s : State), s.chain.address ≠ some m.src → exec (.controlMessageReturn m) s = .next s)) ∧
  (
  (∀ (dir : Nat) (f : Frame) (s : State), dir < 2 → s.chip.pwrgd = true → s.chip.testMode = false → s.ch (·.chainPresent) false = true → f.goodChecks = false →
    Runs (.streamFrameArrival dir f) s (fun t => t.chain.discard = true ∧ t.chain.txFrame = some (dir, f) ∧ t.chain.frame = (s.chain.frame + 1) % 2 ^ 32 ∧ OnlyIn [.chain] s t ∧
      ∀ l ∈ f.badLanes, l < 3 → 3 * dir + l < s.chain.lanes.length → (chLane t (3 * dir + l)).crc = inc 0xFFFFFFFF (chLane s (3 * dir + l)).crc)) ∧
  (∀ (dir a : Nat) (f : Frame) (s : State), dir < 2 → s.chip.pwrgd = true → s.chip.testMode = false → s.ch (·.chainPresent) false = true → f.goodChecks = true → f.control = none →
    isPair s = false → s.chain.address = some a → 8 ≤ s.chip.step → requestsFor a f = [] →
    Runs (.streamFrameArrival dir f) s (fun t => t.chain.frame = f.number % 2 ^ 32 ∧ t.chain.ctlQueue = s.chain.ctlQueue.tail ∧ OnlyIn [.chain] s t ∧
      ∃ g, t.chain.txFrame = some (dir, g) ∧ g.goodChecks = true ∧ g.payload = f.payload ∧ g.headers = f.headers ∧ g.control = s.chain.ctlQueue.head? ∧ tget 0 g.tallies a = tallyByte s)) ∧
  (∀ (dir sent : Nat) (f : Frame) (s : State), dir < 2 → s.ch (·.chainPresent) false = true → sent = (f.number + 2 ^ 32 - s.chain.lap) % 2 ^ 32 →
    s.chain.outstanding.any (fun w => w.1 = sent) = true → takenBy s f = true →
    exec (.streamFrameReturn dir f) s = .next { s with chain := { s.chain with outstanding := s.chain.outstanding.filter (fun w => w.1 ≠ sent) } }) ∧
  (∀ (dir sent : Nat) (f : Frame) (a b : List (Nat × Nat × List Byte)) (s : State), dir < 2 → s.ch (·.chainPresent) false = true → sent = (f.number + 2 ^ 32 - s.chain.lap) % 2 ^ 32 →
    takenBy s f = false → s.chain.outstanding = a ++ b → (∀ w ∈ a, w.1 ≠ sent) → (∃ w, b.head? = some w ∧ w.1 = sent) →
    exec (.streamFrameReturn dir f) s = .next { s with chain := { s.chain with
      outstanding := a, txQueue := b.map (fun w => w.2.2) ++ s.chain.txQueue, resend := true, restarts := inc 0xFFFF s.chain.restarts } }) ∧
  (∀ (dir : Nat) (f : Frame) (s : State), s.chain.outstanding = [] → exec (.streamFrameReturn dir f) s = .next s))

/-- The lanes of the ring (R372, R382, R402, R403): LANE_CHECK_LIMIT begins a swap 16 frames ahead, or 2,000 in a low power state; LANE_SWAP_FRAME moves the lane to the reserve, or leaves a single lane;
LANE_SWAP is remembered for its frame; training makes lanes Active and the head sends a Token; a plausible retrim is kept, and the third failure in 2^24 closes begins a swap. Each of these is said to
answer a next state under conditions on the state and the operands alone: laneSwap, laneSwapFrame, laneCheckLimit, chainLinkTraining, chainCalibration. -/
def Obligations.ChainLanes : Prop :=
  (∀ (dir lane frame : Nat) (s : State), dir < 2 → lane < 3 → alive s = true →
    exec (.laneSwap dir lane frame) s = .next { s with chain := { s.chain with outSwaps := s.chain.outSwaps ++ [(dir, lane, frame)] } }) ∧
  (∀ (dir lane : Nat) (s : State), dir < 2 → lane < 3 → 16 ≤ (chLane s (3 * dir + lane)).crcWindow.length → (chLane s (3 * dir + lane)).state = 2 → (chLane s (3 * dir + lane)).swapAt = none →
    Runs (.laneCheckLimit dir lane) s (fun t => (chLane t (3 * dir + lane)).swapAt = some (s.chain.frame + if s.power.state ≠ 0 then 2000 else 16) ∧
      (∃ m, t.chain.ctlQueue = s.chain.ctlQueue ++ [m] ∧ m.typ = 7) ∧ OnlyIn [.chain] s t)) ∧
  (∀ (dir lane : Nat) (s : State), (chLane s (3 * dir + lane)).crcWindow.length < 16 → exec (.laneCheckLimit dir lane) s = .next s) ∧
  (∀ (dir lane frame f : Nat) (s : State), dir < 2 → lane < 2 → (chLane s (3 * dir + lane)).swapAt = some f → f ≤ frame → (chLane s (3 * dir + 2)).reserve = true →
    Runs (.laneSwapFrame dir lane frame) s (fun t => (chLane t (3 * dir + lane)).state = 3 ∧ (chLane t (3 * dir + lane)).swapAt = none ∧ (chLane t (3 * dir + 2)).state = 2 ∧
      (chLane t (3 * dir + 2)).reserve = false ∧ t.chain.singleLane = s.chain.singleLane)) ∧
  (∀ (dir lane frame f : Nat) (s : State), dir < 2 → lane < 2 → (chLane s (3 * dir + lane)).swapAt = some f → f ≤ frame → (chLane s (3 * dir + 2)).reserve = false →
    Runs (.laneSwapFrame dir lane frame) s (fun t => (chLane t (3 * dir + lane)).state = 3 ∧ t.chain.singleLane = true)) ∧
  (∀ (dir lane frame f : Nat) (s : State), dir < 2 → lane < 3 → (chLane s (3 * dir + lane)).swapAt = none → (dir, lane, f) ∈ s.chain.outSwaps → f ≤ frame →
    Runs (.laneSwapFrame dir lane frame) s (fun t => (dir, lane) ∈ t.chain.outMoved ∧ (dir, lane, f) ∉ t.chain.outSwaps ∧ t.chain.lanes = s.chain.lanes ∧ OnlyIn [.chain] s t)) ∧
  (∀ (dir : Nat) (up : List Nat) (s : State), dir < 2 → s.chip.pwrgd = true → s.chip.testMode = false → s.ch (·.chainPresent) false = true →
    Runs (.chainLinkTraining dir up) s (fun t => OnlyIn [.chain] s t ∧
      (∀ l ∈ up, l < 3 → 3 * dir + l < s.chain.lanes.length → (chLane s (3 * dir + l)).state ≠ 3 → (chLane s (3 * dir + l)).reserve = false → (chLane t (3 * dir + l)).state = 2) ∧
      (5 ≤ s.chip.step → s.chip.chainHead = true → t.chain.address = some 0 ∧ t.chain.ctlQueue = s.chain.ctlQueue ++ [tokenMsg 1 0]) ∧
      (s.chip.chainHead = false → t.chain.address = s.chain.address ∧ t.chain.ctlQueue = s.chain.ctlQueue))) ∧
  (∀ (dir lane : Nat) (r : Retrim) (s : State), dir < 2 → lane < 3 → calLane s = some (3 * dir + lane) → retrimPlausible r = true →
    Runs (.chainCalibration dir lane r) s (fun t => (chLane t (3 * dir + lane)).lastTrim = s.now ∧ (chLane t (3 * dir + lane)).calFails = (chLane s (3 * dir + lane)).calFails ∧
      t.chain.ctlQueue = s.chain.ctlQueue ∧ OnlyIn [.chain] s t)) ∧
  (∀ (dir lane : Nat) (r : Retrim) (s : State), dir < 2 → lane < 3 → calLane s = some (3 * dir + lane) → retrimPlausible r = false → (chLane s (3 * dir + lane)).swapAt = none →
    Runs (.chainCalibration dir lane r) s (fun t => (chLane t (3 * dir + lane)).calFails = (chLane s (3 * dir + lane)).calFails.filter (fun c => s.now < c + 2 ^ 24) ++ [s.now] ∧
      (chLane t (3 * dir + lane)).lastTrim = (chLane s (3 * dir + lane)).lastTrim ∧
      ((chLane t (3 * dir + lane)).swapAt ≠ none ↔ 3 ≤ (chLane t (3 * dir + lane)).calFails.length) ∧ OnlyIn [.chain] s t))

/-- PAIR_NEGOTIATION, NEGOTIATION_WAIT_EXPIRY and NEGOTIATE (R31, R387): the partner present, the record in force gives the roles and step 9 follows; with no record the preferred unit is Active and writes
one; the wait over, a current unit arbitrates and another is Standby. Each of these is said to answer a next state under conditions on the state and the operands alone: pairNegotiation,
negotiationWaitExpiry, negotiate. -/
def Obligations.PairStartsUp : Prop :=
  (∀ (s : State) (w : Witness), s.chip.step = 8 → s.pair.mode = 1 → partnerPresent s = true → s.pair.witness = some w → w.owner ≠ 0 → w.owner = s.fuses.serial →
    Runs .pairNegotiation s (fun t => t.chip.step = 9 ∧ t.pair.role = 1 ∧ t.pair.mode = 0 ∧ t.pair.current = true ∧
      t.ledger.mode = (if w.otherCurrent && s.pair.negotiated.any (fun n => n.current) then 1 else 3))) ∧
  (∀ (s : State) (w : Witness), s.chip.step = 8 → s.pair.mode = 1 → partnerPresent s = true → s.pair.witness = some w → w.owner ≠ 0 → w.owner ≠ s.fuses.serial →
    Runs .pairNegotiation s (fun t => t.chip.step = 9 ∧ t.pair.role = 2 ∧ t.pair.mode = 0 ∧ t.pair.current = (w.otherCurrent && !s.chip.ledgerLost) ∧ t.ledger.mode = 2)) ∧
  (∀ s : State, s.chip.step = 8 → s.pair.mode = 1 → partnerPresent s = true → s.pair.witness = none → preferred s = true →
    Runs .pairNegotiation s (fun t => t.chip.step = 9 ∧ t.pair.role = 1 ∧ t.pair.mode = 0 ∧ t.pair.current = true ∧ t.ledger.mode = 3 ∧ t.pair.recordPending = some (ownRecord s false))) ∧
  (∀ s : State, s.chip.step = 8 → s.pair.mode = 1 → partnerPresent s = true → s.pair.witness = none → preferred s = false →
    Runs .pairNegotiation s (fun t => t.chip.step = 9 ∧ t.pair.role = 2 ∧ t.pair.mode = 0 ∧ t.pair.current = false ∧ t.ledger.mode = 2)) ∧
  (∀ s : State, partnerPresent s = false → exec .pairNegotiation s = .next s) ∧
  (∀ s : State, s.chip.step = 8 → s.pair.mode = 1 → (s.chip.chainAbsent = true ∨ s.chip.stepClose + s.ch (·.negotiationWait) 1250000 ≤ s.now) → s.pair.current = true →
    Runs .negotiationWaitExpiry s (fun t => t.chip = s.chip ∧ t.pair.mode = 2 ∧ t.pair.role = s.pair.role ∧ t.pair.fenced = true ∧ t.pair.intakeHeld = true ∧
      t.pair.rounds = inc 0xFFFF s.pair.rounds ∧ t.pair.declared = s.now)) ∧
  (∀ s : State, s.chip.step = 8 → s.pair.mode = 1 → (s.chip.chainAbsent = true ∨ s.chip.stepClose + s.ch (·.negotiationWait) 1250000 ≤ s.now) → s.pair.current = false →
    Runs .negotiationWaitExpiry s (fun t => t.chip.step = 9 ∧ t.pair.role = 2 ∧ t.pair.mode = 0 ∧ t.pair.current = false ∧ t.ledger.mode = 2 ∧ t.ints.cause.getLsbD 2 = true)) ∧
  (∀ (n : NegotiateMsg) (s : State), isPair s = true → n.serial = partnerSerial s → s.chip.step ≠ 15 →
    exec (.negotiate n) s = .next { s with pair := { s.pair with negotiated := some n, partnerSeen := true } }) ∧
  (∀ (n : NegotiateMsg) (s : State), isPair s = true → n.serial = partnerSerial s → s.chip.step = 15 →
    Runs (.negotiate n) s (fun t => t.pair = { s.pair with negotiated := some n, partnerSeen := true } ∧ ∃ m, t.chain.ctlQueue = s.chain.ctlQueue ++ [m] ∧ m.typ = 5)) ∧
  (∀ (n : NegotiateMsg) (s : State), n.serial ≠ partnerSerial s → exec (.negotiate n) s = .next s)

/-- Tallies and failures (R388–R390, R393, R394): a good tally with a new count is counted and its state taken; a bad heartbeat is counted only; a path alarm after 16 misses on one path alone; a current
unit that declares its partner failed fences itself and arbitrates; a current Standby that sees Failed decides to take over; a detach begins after its delay. Each of these is said to answer a next
state under conditions on the state and the operands alone: tallyReceipt, pathAlarm, partnerFailed, failedTally, detachDelayExpiry, detached, takeoverDecision, hbSymbolLock. -/
def Obligations.TalliesAndFailure : Prop :=
  (∀ (count state serial : Nat) (good : Bool) (s : State), isPair s = true → (good = false ∨ serial ≠ partnerSerial s) →
    exec (.tallyReceipt .heartbeat count state serial good) s = .next { s with pair := { s.pair with badHb := inc 0xFFFF s.pair.badHb } }) ∧
  (∀ (count state serial : Nat) (s : State), isPair s = true → exec (.tallyReceipt .chain count state serial false) s = .next s) ∧
  (∀ (count state serial : Nat) (s : State), isPair s = true → s.pair.chain.last ≠ some count → s.pair.mode = 0 → state < 3 →
    exec (.tallyReceipt .chain count state serial true) s = .next { s with pair := { s.pair with
      chain := { s.pair.chain with last := some count, seen := true }, partnerState := state, partnerMissing := if state = 1 then s.pair.partnerMissing + 1 else 0 } }) ∧
  (∀ (count state : Nat) (s : State), isPair s = true → s.pair.hb.last ≠ some count → s.pair.mode = 0 → state < 3 →
    exec (.tallyReceipt .heartbeat count state (partnerSerial s) true) s = .next { s with pair := { s.pair with
      hb := { s.pair.hb with last := some count, seen := true }, hbLast := s.now, partnerState := state, partnerMissing := if state = 1 then s.pair.partnerMissing + 1 else 0 } }) ∧
  (∀ (locked : Bool) (s : State), s.chip.pwrgd = true → exec (.hbSymbolLock locked) s = .next { s with pair := { s.pair with hbUp := locked } }) ∧
  (∀ s : State, isPair s = true → 16 ≤ s.pair.chain.misses → s.pair.hb.misses < 16 → s.pair.chain.alarm = false →
    Runs (.pathAlarm .chain) s (fun t => t.pair = { s.pair with chain := { s.pair.chain with alarm := true }, losses := inc 0xFFFF s.pair.losses, chainDownSince := some s.now } ∧
      t.ints.cause = s.ints.cause ||| BitVec.ofNat 10 (2 ^ 2))) ∧
  (∀ s : State, isPair s = true → 16 ≤ s.pair.hb.misses → s.pair.chain.misses < 16 → s.pair.hb.alarm = false →
    Runs (.pathAlarm .heartbeat) s (fun t => t.pair = { s.pair with hb := { s.pair.hb with alarm := true }, losses := inc 0xFFFF s.pair.losses } ∧
      t.ints.cause = s.ints.cause ||| BitVec.ofNat 10 (2 ^ 2))) ∧
  (∀ s : State, s.pair.chain.misses < 16 → exec (.pathAlarm .chain) s = .next s) ∧
  (∀ s : State, isPair s = true → s.chip.step = 15 → s.pair.mode = 0 → partnerGone s = true → (s.pair.role = 1 ∧ s.ledger.mode = 1 ∨ s.pair.role = 2 ∧ s.pair.current = true) →
    Runs .partnerFailed s (fun t => t.pair.mode = 2 ∧ t.pair.role = s.pair.role ∧ t.pair.fenced = true ∧ t.pair.intakeHeld = true ∧ t.pair.declared = s.now ∧ t.pair.won = [] ∧ t.pair.lost = [] ∧
      t.pair.rounds = inc 0xFFFF s.pair.rounds)) ∧
  (∀ s : State, isPair s = true → s.chip.step = 15 → s.pair.mode = 0 → s.pair.role = 2 → s.pair.current = false → Runs .partnerFailed s (fun t => t.pair = s.pair ∧ t.drives = s.drives)) ∧
  (∀ (path : Path) (s : State), isPair s = true → s.chip.step = 15 → s.pair.role = 2 → s.pair.current = true → s.pair.decision = none →
    Runs (.failedTally path) s (fun t => t.pair.decision = some s.now ∧ t.pair.lastDecision = s.now ∧ t.pair.takeovers = s.pair.takeovers + 1 ∧ t.pair.mode = 6 ∧ t.pair.role = 2 ∧
      t.pair.partnerState = 3 ∧ t.chain.txQueue = [] ∧ t.chain.outstanding = [])) ∧
  (∀ (path : Path) (s : State), isPair s = true → s.chip.step = 15 → s.pair.role = 1 → s.ledger.mode = 1 → s.pair.winDue = false →
    Runs (.failedTally path) s (fun t => t.pair.winDue = true ∧ t.pair.partnerState = 3 ∧ t.pair.role = 1 ∧ t.pair.decision = s.pair.decision)) ∧
  (∀ s : State, isPair s = true → s.chip.step = 15 → s.pair.role = 2 → s.pair.current = true → s.pair.decision = none → (hasWon s = true ∨ s.pair.partnerState = 3) →
    Runs .takeoverDecision s (fun t => t.pair.decision = some s.now ∧ t.pair.takeovers = s.pair.takeovers + 1 ∧ t.pair.mode = 6 ∧ t.pair.fenced = true ∧ t.chain.txQueue = [])) ∧
  (∀ s : State, s.pair.current = false → exec .takeoverDecision s = .next s) ∧
  (∀ (s : State) (d : Nat), s.pair.role = 1 → s.ledger.mode = 1 → s.pair.mode = 0 → s.pair.detachStep = 0 → s.pair.hb.misses < 16 → 16 ≤ s.pair.chain.misses →
    s.pair.chainDownSince = some d → d + s.ch (·.detachDelay) 65536 ≤ s.now →
    Runs .detachDelayExpiry s (fun t => t.pair.detachStep = 1 ∧ t.pair.recordPending = some (ownRecord s false) ∧ t.pair.recordFor = 4 ∧ t.pair.witness = s.pair.witness)) ∧
  (∀ (s : State) (d : Nat), s.pair.chainDownSince = some d → s.now < d + s.ch (·.detachDelay) 65536 → exec .detachDelayExpiry s = .next s) ∧
  (∀ s : State, isPair s = true → s.pair.role = 2 → exec .detached s = .next { s with pair := { s.pair with current := false, partnerState := 4 } }) ∧
  (∀ s : State, isPair s = true → s.pair.role ≠ 2 → exec .detached s = .next { s with pair := { s.pair with partnerState := 4 } })

/-- Arbitration (R386, R392, R393): a PREEMPT that succeeds counts as won, one that conflicts as lost, and a majority of wins starts the witness record; a record held by a majority is in force; a win
makes a Standby decide and lets another unit go on at the next boundary; a majority of losses isolates; 8,192 closes without either lead to Held, which tries again every 65,536; tallies that resume
end it at the next boundary. Each of these is said to answer a next state under conditions on the state and the operands alone: preemptCompletion, witnessRecordWrite, arbitrationWin, arbitrationLoss,
arbitrationTimeout, arbitrationRetry, talliesResume. -/
def Obligations.ArbitrationRounds : Prop :=
  (∀ (pos : Nat) (s : State), pos < registrySize s → (s.pair.mode = 2 ∨ s.pair.mode = 3) →
    Runs (.preemptCompletion pos true) s (fun t => (∀ p, p ∈ t.pair.won ↔ p ∈ s.pair.won ∨ p = pos) ∧ t.pair.lost = s.pair.lost ∧
      (mostOf s (s.pair.won ++ [pos]).eraseDups = true → s.pair.record = false → s.pair.recordPending = none → t.pair.recordPending = some (ownRecord s false) ∧ t.pair.recordFor = 1) ∧
      (mostOf s (s.pair.won ++ [pos]).eraseDups = false → t.pair.recordPending = s.pair.recordPending))) ∧
  (∀ (pos : Nat) (s : State), pos < registrySize s → (s.pair.mode = 2 ∨ s.pair.mode = 3) →
    Runs (.preemptCompletion pos false) s (fun t => (∀ p, p ∈ t.pair.lost ↔ p ∈ s.pair.lost ∨ p = pos) ∧ t.pair.won = s.pair.won ∧ t.pair.recordPending = s.pair.recordPending)) ∧
  (∀ (pos : Nat) (w : Witness) (s : State), pos < registrySize s → s.pair.recordPending = some w → s.pair.recordFor ≠ 1 → mostOf s (s.pair.recordAt ++ [pos]).eraseDups = true →
    Runs (.witnessRecordWrite pos) s (fun t => t.pair.witness = some w ∧ t.pair.record = true ∧ t.pair.recordPending = none ∧
      (s.pair.recordFor = 4 → t.pair.detachStep = 2 ∧ t.pair.sendState = 4) ∧ (s.pair.recordFor = 5 → t.pair.detachStep = 3) ∧ (s.pair.recordFor = 6 → t.pair.detachStep = 4))) ∧
  (∀ (pos : Nat) (w : Witness) (s : State), pos < registrySize s → s.pair.recordPending = some w → s.pair.recordFor ≠ 1 → mostOf s (s.pair.recordAt ++ [pos]).eraseDups = false →
    Runs (.witnessRecordWrite pos) s (fun t => t.pair.witness = s.pair.witness ∧ t.pair.recordPending = some w ∧ ∀ p, p ∈ t.pair.recordAt ↔ p ∈ s.pair.recordAt ∨ p = pos)) ∧
  (∀ s : State, hasWon s = true → s.pair.role ≠ 2 → exec .arbitrationWin s = .next { s with pair := { s.pair with winDue := true } }) ∧
  (∀ s : State, hasWon s = true → s.chip.step ≠ 8 → s.pair.role = 2 → s.pair.decision = none → Runs .arbitrationWin s (fun t => t.pair.decision = some s.now ∧ t.pair.mode = 6)) ∧
  (∀ s : State, hasWon s = false → exec .arbitrationWin s = .next s) ∧
  (∀ s : State, (s.pair.mode = 2 ∨ s.pair.mode = 3) → hasWon s = false → s.pair.winDue = false → mostOf s s.pair.lost = true →
    exec .arbitrationLoss s = .next { s with pair := { s.pair with isolateDue := true, recordPending := none } }) ∧
  (∀ s : State, (s.pair.mode = 2 ∨ s.pair.mode = 3) → hasWon s = false → s.pair.winDue = false → mostOf s s.pair.lost = false →
    Runs .arbitrationLoss s (fun t => t.pair.isolateDue = true ∧ t.pair.recordPending = none ∧ ∃ w, t.pair.witness = some w ∧ w.owner = partnerSerial s)) ∧
  (∀ s : State, s.pair.mode = 2 → hasWon s = false → s.pair.winDue = false → s.pair.isolateDue = false → s.pair.declared + 8192 ≤ s.now →
    Runs .arbitrationTimeout s (fun t => t.pair = { s.pair with mode := 3, heldSince := s.now, sendState := 2, eventClose := s.now })) ∧
  (∀ s : State, s.now < s.pair.declared + 8192 → exec .arbitrationTimeout s = .next s) ∧
  (∀ s : State, s.pair.mode = 3 → s.pair.heldSince + 65536 ≤ s.now →
    Runs .arbitrationRetry s (fun t => t.pair = { s.pair with heldSince := s.now, won := [], lost := [], record := false, recordPending := none, rounds := inc 0xFFFF s.pair.rounds } ∧ OnlyIn [.drives, .pair] s t)) ∧
  (∀ s : State, s.now < s.pair.heldSince + 65536 → exec .arbitrationRetry s = .next s) ∧
  (∀ s : State, (s.pair.mode = 2 ∨ s.pair.mode = 3) → s.pair.winDue = false → s.pair.isolateDue = false → s.pair.decision = none → hasWon s = false → (s.pair.chain.seen = true ∨ s.pair.hb.seen = true) →
    exec .talliesResume s = .next { s with pair := { s.pair with resumeDue := true } }) ∧
  (∀ s : State, s.pair.mode ≠ 2 → s.pair.mode ≠ 3 → exec .talliesResume s = .next s)

/-- Joins and audits (R322, R397–R401): the Active unit begins the bulk copy of the records it holds and ends it after the last; a unit that joins holds copies and is not current until the bulk copy has
ended; the witness record names the partner current once every held record is confirmed; an audit runs one at a time, and a digest that differs is counted and ends countersigning. Each of these is
said to answer a next state under conditions on the state and the operands alone: audit, join, bulkEnd, joinCurrent, auditMark, auditDigest. -/
def Obligations.JoinAndAudit : Prop :=
  (∀ s : State, isPair s = true → s.chip.step = 15 → delivers s.pair.chain = true → s.pair.role = 1 → s.ledger.mode = 3 → (s.pair.mode = 0 ∨ s.pair.mode = 4) →
    Runs .join s (fun t => t.pair.mode = 5 ∧ t.pair.role = 1 ∧ t.pair.joinStart = s.now ∧ t.pair.joinLeft = heldSeqs s ∧ t.pair.joinConfirmed = [] ∧ t.pair.bulkEnded = false ∧ t.ledger = s.ledger ∧
      t.chain.txQueue = s.chain.txQueue ++ [streamHeader 5 0 ((heldSeqs s).headD s.ledger.nextSeq) 0])) ∧
  (∀ s : State, isPair s = true → s.chip.step = 15 → delivers s.pair.chain = true → (s.pair.role = 2 ∧ s.pair.current = false ∨ s.pair.role = 3) → s.pair.mode ≠ 5 →
    Runs .join s (fun t => t.pair.mode = 5 ∧ t.pair.role = 2 ∧ t.pair.current = false ∧ t.ledger = { s.ledger with mode := 2, resyncLeft := [], resyncTotal := 0 })) ∧
  (∀ s : State, delivers s.pair.chain = false → exec .join s = .next s) ∧
  (∀ s : State, s.pair.role = 1 → s.pair.mode = 5 → s.pair.joinLeft = [] → s.pair.bulkEnded = false →
    exec .bulkEnd s = .next { s with pair := { s.pair with bulkEnded := true }, chain := { s.chain with txQueue := s.chain.txQueue ++ [streamHeader 6 0 s.ledger.nextSeq 0] } }) ∧
  (∀ s : State, s.pair.joinLeft ≠ [] → exec .bulkEnd s = .next s) ∧
  (∀ s : State, s.pair.mode = 5 → s.pair.bulkEnded = true → s.pair.role = 2 → Runs .joinCurrent s (fun t => t.pair.current = true ∧ t.pair.mode = 0 ∧ t.pair.role = 2 ∧ t.ledger = s.ledger)) ∧
  (∀ s : State, s.pair.mode = 5 → s.pair.bulkEnded = true → s.pair.role = 1 → s.pair.recordPending = none → s.pair.detachStep = 0 → (∀ q ∈ heldSeqs s, q ∈ s.pair.joinConfirmed) →
    Runs .joinCurrent s (fun t => t.pair.recordPending = some (ownRecord s true) ∧ t.pair.recordFor = 5 ∧ t.pair.mode = 5)) ∧
  (∀ s : State, s.pair.bulkEnded = false → exec .joinCurrent s = .next s) ∧
  (∀ (tag : Nat) (c : Cmd) (s : State), opfin s = true → startedCmd s tag 0x8A = some c → s.pair.role = 1 → s.pair.mode ≠ 5 → s.ledger.mode = 1 → s.pair.run.running = false →
    Runs (.audit tag) s (fun t => t.pair.run.running = true ∧ t.pair.run.seq = s.pair.run.seq + 1 ∧ t.pair.run.tag = some tag ∧ t.pair.run.volume = auditScope c ∧ t.pair.run.mark = s.now ∧ t.ledger = s.ledger)) ∧
  (∀ (tag : Nat) (c : Cmd) (s : State), opfin s = true → startedCmd s tag 0x8A = some c → s.pair.role = 1 → s.pair.mode ≠ 5 → s.ledger.mode = 1 → s.pair.run.running = true →
    Runs (.audit tag) s (fun t => t.pair = { s.pair with waitingAudits := s.pair.waitingAudits ++ [tag] } ∧ OnlyIn [.cmds, .pair] s t)) ∧
  (∀ (tag : Nat) (c : Cmd) (s : State), opfin s = true → startedCmd s tag 0x8A = some c → s.pair.role ≠ 1 → Runs (.audit tag) s (fun t => Ended t tag 0x50 2 [] ∧ t.pair = s.pair)) ∧
  (∀ (volume : Option Nat) (s : State), s.pair.role = 1 → s.ledger.mode = 1 → s.pair.run.running = false → s.ch (·.auditInterval) 0 ≠ 0 → s.pair.nextAudit ≤ s.now →
    Runs (.auditMark volume) s (fun t => t.pair.run.running = true ∧ t.pair.run.volume = volume ∧ t.pair.run.tag = none ∧ t.pair.run.mark = s.now ∧ t.pair.nextAudit = s.now + s.ch (·.auditInterval) 0)) ∧
  (∀ (volume : Option Nat) (s : State), s.pair.role = 2 → isPair s = true → Runs (.auditMark volume) s (fun t => (∃ ws, t.chain.txQueue = s.chain.txQueue ++ ws) ∧ OnlyIn [.chain] s t)) ∧
  (∀ (w : Nat) (s : State), s.pair.run.running = true → s.pair.role = 1 → s.pair.run.tag = none → registrySize s < 2 * w →
    Runs (.auditDigest s.pair.run.digests s.pair.run.mapDigest w) s (fun t => t.pair.mismatches = s.pair.mismatches ∧ t.pair.audits = inc 0xFFFF s.pair.audits ∧ t.pair.detachStep = s.pair.detachStep ∧
      ∃ a, t.pair.lastAudit = some a ∧ a.result = 0 ∧ a.bad = [] ∧ a.taken = s.now - s.pair.run.mark)) ∧
  (∀ (ds : List (Nat × Nat)) (m w : Nat) (d : Nat × Nat) (s : State), s.pair.run.running = true → s.pair.role = 1 → s.pair.run.tag = none → d ∈ s.pair.run.digests → d ∉ ds →
    Runs (.auditDigest ds m w) s (fun t => t.pair.mismatches = inc 0xFFFF s.pair.mismatches ∧ t.pair.detachStep = 5 ∧ ∃ a, t.pair.lastAudit = some a ∧ a.result = 1 ∧ d.1 ∈ a.bad)) ∧
  (∀ (ds : List (Nat × Nat)) (m w : Nat) (s : State), s.pair.run.running = false → exec (.auditDigest ds m w) s = .next s)

/-- WATCHDOG_EXPIRY and FIRMWARE_RESTART_END (R406, R407): an expiry restarts both cores; the third within 2^24 closes, or a slot that fails its check, stops the complex; only a Running complex expires,
and a restart ends in Running, with no trigger of the firmware left waiting (R405). OPERATING_TIME_TICK (R408): operating time rises by one millisecond for every 125 closes, and is stored when 1,000
milliseconds have passed since it was stored last; before that it stays. SENSOR_SAMPLE (R411): every die sensor holds the value sampled; one outside its range is Faulty; a Normal sensor at its fourth
sample in a row beyond Warn, and not beyond Critical, is at Warn; the peak of the input power follows. Each of these is said to answer a next state under conditions on the state and the operands
alone: watchdogExpiry, operatingTimeTick, sensorSample, firmwareRestartEnd. -/
def Obligations.ManagementRuns : Prop :=
  (
  (∀ (core : Nat) (s : State), powered s = true → s.mgmt.state = 0 → (s.mgmt.expiries.filter (fun c => s.now < c + 2 ^ 24)).length < 2 →
    Runs (.watchdogExpiry core true) s (fun t => t.mgmt.state = 1 ∧ t.mgmt.restarts = inc 0xFFFF s.mgmt.restarts ∧ t.mgmt.eventClose = s.now ∧
      t.mgmt.expiries = s.mgmt.expiries.filter (fun c => s.now < c + 2 ^ 24) ++ [s.now] ∧ t.ints.cause = s.ints.cause ||| BitVec.ofNat 10 (2 ^ 8) ∧ t.chip = s.chip)) ∧
  (∀ (core : Nat) (passes : Bool) (s : State), powered s = true → s.mgmt.state = 0 → (passes = false ∨ 2 ≤ (s.mgmt.expiries.filter (fun c => s.now < c + 2 ^ 24)).length) →
    Runs (.watchdogExpiry core passes) s (fun t => t.mgmt.state = 2 ∧ t.chip = s.chip)) ∧
  (∀ (core : Nat) (passes : Bool) (s : State), s.mgmt.state ≠ 0 → exec (.watchdogExpiry core passes) s = .next s) ∧
  (∀ s : State, powered s = true → s.mgmt.state = 1 → s.ledger.ckpt = none → s.daybook.held = [] → exec .firmwareRestartEnd s = .next { s with mgmt := { s.mgmt with state := 0, eventClose := s.now } }) ∧
  (∀ s : State, powered s = true → s.mgmt.state = 1 → Runs .firmwareRestartEnd s (fun t => t.mgmt.state = 0 ∧ t.mgmt.eventClose = s.now ∧ t.daybook.held = [])) ∧
  (∀ s : State, s.mgmt.state ≠ 1 → exec .firmwareRestartEnd s = .next s)) ∧
  (
  (∀ s : State, powered s = true → 7 ≤ s.chip.step → s.chip.step ≠ 14 → s.mgmt.opClose + 125 ≤ s.now → s.mgmt.opMs + 1 < 2 ^ 48 →
    exec .operatingTimeTick s = .next { s with mgmt := { s.mgmt with
      opMs := s.mgmt.opMs + 1, opClose := s.mgmt.opClose + 125, opStored := if s.mgmt.opStored + 1000 ≤ s.mgmt.opMs + 1 then s.mgmt.opMs + 1 else s.mgmt.opStored } }) ∧
  (∀ s : State, s.now < s.mgmt.opClose + 125 → exec .operatingTimeTick s = .next s)) ∧
  (
  ∀ (v : Samples) (s : State), powered s = true → v.die.length = 16 →
    Runs (.sensorSample v) s (fun t => t.sensors.peakMw = max s.sensors.peakMw v.powerMw ∧ ∀ i x, v.die[i]? = some x →
      (sns t i).value = x ∧ ((x < -320 ∨ 1200 < x) → (sns t i).level = 4) ∧
      ((sns s i).level = 0 → (sns s i).above = [3, 0, 0] → -320 ≤ x → 8 * (warnLimit s i : Int) < x → x ≤ 840 → (sns t i).level = 1)))

/-- DAYBOOK_TRIGGER (R418, R419, R422): a trigger counts; a kind that the charter disables is only counted; with the queue empty and the writer idle its record begins at once with the next sequence, else
it queues, behind those of earlier cycles and before one of the same cycle with a higher kind; one that finds 64 records queued is merged; one of the firmware waits while Opfin does not run (R405).
DAYBOOK_RECORD_WRITE and COALESCE (R413, R422, R424): a record that is written stands in the ring under its sequence and counts when it is an Alert record; the oldest record the ring has no place for
goes; an open accumulator enters the queue as a Coalesce record; nothing is written in the quiet slice (R44). ALERT_ACK, ALERT_RESPONSE and DBK_CURSOR_WRITE (R413, R416, R425): the acknowledge clears
the count of Alert records; the part answers the alert response with its address only while ALERT# is low; the host and SMBus have a cursor each. Each of these is said to answer a next state under
conditions on the state and the operands alone: alertResponse, daybookTrigger, daybookRecordWrite, coalesce, alertAck, dbkCursorWrite. -/
def Obligations.DaybookKeepsRecords : Prop :=
  (
  ∀ (g : Trigger) (s : State), powered s = true → g.kind < 0x1E →
    ((firmwareKind g.kind = true ∧ opfin s = false) → exec (.daybookTrigger g) s = .next { s with daybook := { s.daybook with held := s.daybook.held ++ [⟨g.kind, g.cause, g.arg, g.detail, [], g.alert⟩] } }) ∧
    ((tget {} s.daybook.kinds g.kind).count < 0xFFFF → (firmwareKind g.kind = false ∨ opfin s = true) →
    Runs (.daybookTrigger g) s (fun t => (tget {} t.daybook.kinds g.kind).count = (tget {} s.daybook.kinds g.kind).count + 1 ∧ OnlyIn [.daybook] s t ∧
      ((kindDef s g.kind).disable = true → t.daybook.queue = s.daybook.queue ∧ t.daybook.next = s.daybook.next ∧ t.daybook.writing = s.daybook.writing) ∧
      ((kindDef s g.kind).disable = false → s.daybook.queue = [] → s.daybook.writing = none → s.quiet = false → 7 ≤ s.chip.step → s.chip.step ≠ 14 →
        t.daybook.next = s.daybook.next + 1 ∧ t.daybook.queue = [] ∧ ∃ r, t.daybook.writing = some (s.daybook.next, r) ∧ r.kind = g.kind ∧ r.cause = g.cause ∧ r.arg = g.arg ∧ r.close = s.now) ∧
      ((kindDef s g.kind).disable = false → (∃ w, s.daybook.writing = some w ∧ w.2.close ≠ s.now) → (∀ e ∈ s.daybook.queue, e.close ≠ s.now) → s.daybook.queue.length < 64 →
        t.daybook.writing = s.daybook.writing ∧ ∃ r, t.daybook.queue = s.daybook.queue ++ [r] ∧ r.kind = g.kind ∧ r.cause = g.cause) ∧
      (∀ e, (kindDef s g.kind).disable = false → (∃ w, s.daybook.writing = some w ∧ w.2.close ≠ s.now) → s.daybook.queue = [e] → e.close = s.now → e.cycle = s.clock.cycle → g.kind < e.kind →
        ∃ r, t.daybook.queue = [r, e] ∧ r.kind = g.kind ∧ r.cause = g.cause) ∧
      ((kindDef s g.kind).disable = false → (∃ w, s.daybook.writing = some w ∧ w.2.close ≠ s.now) → (∀ e ∈ s.daybook.queue, e.close ≠ s.now) → s.daybook.queue.length = 64 →
        t.daybook.queue = s.daybook.queue ∧ t.daybook.merged = inc 0xFFFF s.daybook.merged ∧ t.daybook.accum ≠ none)))) ∧
  (
  (∀ (seq : Nat) (r : DbRec) (s : State), s.quiet = false → s.daybook.writing = some (seq, r) → s.daybook.accum = none → s.daybook.queue = [] →
    Runs .daybookRecordWrite s (fun t => (∃ e ∈ t.daybook.ring, e.1 = seq ∧ e.2 = daybookBytes seq r) ∧ (∀ e ∈ t.daybook.ring, seq < e.1 + 131072) ∧ t.daybook.writing = none ∧
      t.daybook.pending = (if r.alert then inc 0xFFFF s.daybook.pending else s.daybook.pending) ∧ t.daybook.next = s.daybook.next)) ∧
  (∀ s : State, s.quiet = true → exec .daybookRecordWrite s = .next s) ∧
  (∀ (tab : Tbl Nat) (first last : Nat) (al : Bool) (s : State), s.daybook.accum = some (tab, first, last, al) → s.daybook.queue.length < 64 → s.daybook.writing ≠ none →
    Runs .coalesce s (fun t => t.daybook.accum = none ∧ (∃ r, t.daybook.queue = s.daybook.queue ++ [r] ∧ r.kind = 2 ∧ r.alert = al ∧ r.detail = natLe 8 first ++ natLe 8 last) ∧ OnlyIn [.daybook] s t)) ∧
  (∀ s : State, (s.daybook.accum = none ∨ 64 ≤ s.daybook.queue.length) → exec .coalesce s = .next s)) ∧
  (
  (∀ s : State, powered s = true → exec .alertAck s = .next { s with daybook := { s.daybook with pending := 0 } }) ∧
  (∀ s : State, powered s = true → (s.daybook.pending ≠ 0 ∨ sensorAlarm s = true) → exec .alertResponse s = .next { s with smbRsp := .data [byteOf s.chip.smbAddr] }) ∧
  (∀ s : State, powered s = true → s.daybook.pending = 0 → sensorAlarm s = false → exec .alertResponse s = .next { s with smbRsp := .none }) ∧
  (∀ (v : BitVec 64) (s : State), powered s = true → exec (.dbkCursorWrite false v) s = .next { s with daybook := { s.daybook with cursor := v } }) ∧
  (∀ (v : BitVec 64) (s : State), powered s = true → exec (.dbkCursorWrite true v) s = .next { s with smbus := { s.smbus with cursor := v } }))

/-- SMBus (R414–R416): an address is set; a read of a block that SMBus may read returns its register with the SMBus cursor, and one of any other block is forbidden, counted and zeros; a write outside the
writable registers is forbidden and changes no register; RESULT shows the result of the last transaction; a wrong PEC is counted and nothing else. MCTP (R417): an endpoint identifier from 1 to 254 is
taken and answered, any other is turned away; a vendor read or write acts as the SMBus transaction and answers with its result. Each of these is said to answer a next state under conditions on the
state and the operands alone: smbusSetAddress, smbusRead, smbusWrite, smbusResult, smbusPecError, mctpControlMessage, mctpVendorRead, mctpVendorWrite. -/
def Obligations.ManagementPorts : Prop :=
  (
  (∀ (a : Nat) (s : State), powered s = true → a < 2 ^ 32 →
    exec (.smbusSetAddress a) s = .next { s with smbus := { s.smbus with addr := a, result := 0, requests := inc 0xFFFF s.smbus.requests } }) ∧
  (∀ s : State, powered s = true → smbusReads (s.smbus.addr / 8 * 8) = false →
    exec .smbusRead s = .next { s with smbus := { s.smbus with result := 1, forbidden := inc 0xFFFF s.smbus.forbidden }, smbRsp := .data (zeros 8) }) ∧
  (∀ s : State, powered s = true → s.smbus.addr / 0x1_0000 = 0x00 →
    Runs .smbusRead s (fun t => t.smbRsp = .data (natLe 8 (regRead s (s.smbus.addr / 8 * 8))) ∧ t.smbus.result = 0 ∧ t.smbus.requests = inc 0xFFFF s.smbus.requests)) ∧
  (∀ (v : BitVec 64) (s : State), powered s = true → smbusWrites (s.smbus.addr / 8 * 8) = false →
    exec (.smbusWrite v) s = .next { s with smbus := { s.smbus with result := 1, forbidden := inc 0xFFFF s.smbus.forbidden } }) ∧
  (∀ (v : BitVec 64) (s : State), powered s = true → s.smbus.addr = 0x0B_0030 →
    exec (.smbusWrite v) s = .next { s with smbus := { s.smbus with cursor := v, result := 0, requests := inc 0xFFFF s.smbus.requests } }) ∧
  (∀ s : State, powered s = true → exec .smbusResult s = .next { s with smbus := { s.smbus with requests := inc 0xFFFF s.smbus.requests }, smbRsp := .data [byteOf s.smbus.result] }) ∧
  (∀ s : State, powered s = true → exec .smbusPecError s = .next { s with smbus := { s.smbus with pec := inc 0xFFFF s.smbus.pec } })) ∧
  (
  (∀ (eid : Nat) (s : State), powered s = true → 1 ≤ eid → eid < 255 →
    exec (.mctpControlMessage (.setEid eid)) s = .next { s with smbus := { s.smbus with eid }, smbRsp := .data [0, 0, byteOf eid, 0] }) ∧
  (∀ (eid : Nat) (s : State), powered s = true → (eid = 0 ∨ 255 ≤ eid) → exec (.mctpControlMessage (.setEid eid)) s = .next { s with smbRsp := .data [2] }) ∧
  (∀ s : State, powered s = true → exec (.mctpControlMessage .getEid) s = .next { s with smbRsp := .data [0, byteOf s.smbus.eid, 0, 0] }) ∧
  (∀ (a : Nat) (s : State), powered s = true → smbusReads (a / 8 * 8) = true →
    Runs (.mctpVendorRead a) s (fun t => t.smbRsp = .data (0 :: (smbusReadAt s a).2) ∧ t.smbus.result = 0)) ∧
  (∀ (a : Nat) (s : State), powered s = true → smbusReads (a / 8 * 8) = false → Runs (.mctpVendorRead a) s (fun t => t.smbRsp = .data (1 :: zeros 8) ∧ OnlyIn [.smbus, .smbRsp] s t)) ∧
  (∀ (a : Nat) (v : BitVec 64) (s : State), powered s = true → smbusWrites (a / 8 * 8) = false →
    exec (.mctpVendorWrite a v) s = .next { s with smbus := { s.smbus with result := 1, forbidden := inc 0xFFFF s.smbus.forbidden }, smbRsp := .data [1] }) ∧
  (∀ (v : BitVec 64) (s : State), powered s = true →
    exec (.mctpVendorWrite 0x0B_0030 v) s = .next { s with smbus := { s.smbus with cursor := v, result := 0, requests := inc 0xFFFF s.smbus.requests }, smbRsp := .data [0] }))

/-- FUSE_PROGRAM, FUSE_REVOKE and FUSE_OPERATION_END (R426): only an armed operation acts, and the arm word is used up; an entry is programmed once, in Recovery; the entry in use is not revoked in
Running. FUSE_ADVANCE and RETIREMENT_FUSE (R27, R460): once Running, each counter is at least the security version of its image, and a counter that is there already stays; a retirement fuse is blown
only for an element whose retirement is recorded, and once. FLASH_ERASE, FLASH_PROGRAM, FLASH_READ and FLASH_OPERATION_END (R19): the flash is programmed in Recovery only, at an address of the
operation's own alignment and outside the reserved region; an erase leaves its 64 KiB reading FFh and the rest as it was; a read fills the buffer; BUSY lasts until the operation ends and then RESULT
shows what it gave. DRAM_ECC_EVENT and DRAM_ROW_REPAIR (R457, R458): a corrected error is counted and tracked for its row, an uncorrectable one makes the row's repair due; a repair uses a resource or
maps the row out, and the row is tracked no more. PLL_LOCK_LOSS and JTAG_INSTRUCTION_LOAD (R474, R478): loss of lock for more than 1 µs halts a running part, which goes on on its oscillator, and a
shorter loss is ignored; a test instruction that takes the balls halts the part, and the others are loaded beside its operation. Each of these is said to answer a next state under conditions on the
state and the operands alone: fuseAdvance, fuseProgram, fuseRevoke, flashErase, flashProgram, flashRead, flashOperationEnd, dramEccEvent, dramRowRepair, retirementFuse, pllLockLoss,
jtagInstructionLoad, fuseOperationEnd. -/
def Obligations.FusesFlashDramClock : Prop :=
  (
  (∀ (good : Bool) (s : State), powered s = true → s.fuses.busy = false → s.fuses.arm ≠ 0x4B52 →
    exec (.fuseProgram good) s = .next { s with fuses := { s.fuses with op := 1, arm := 0, result := 1, go := false } }) ∧
  (∀ (good : Bool) (s : State), powered s = true → s.fuses.busy = false → s.fuses.arm = 0x4B52 → inRecovery s = false →
    exec (.fuseProgram good) s = .next { s with fuses := { s.fuses with op := 1, arm := 0, result := 2, go := false } }) ∧
  (∀ s : State, powered s = true → s.fuses.busy = false → s.fuses.arm = 0x4B52 → inRecovery s = true → s.fuses.entry < 4 → s.fuses.keyProgrammed.getLsbD s.fuses.entry = false →
    s.fuses.keyRevoked.getLsbD s.fuses.entry = false →
    Runs (.fuseProgram true) s (fun t => tget [] t.fuses.keys s.fuses.entry = s.fuses.digest ∧ t.fuses.keyProgrammed.getLsbD s.fuses.entry = true ∧ t.fuses.keyRevoked = s.fuses.keyRevoked ∧
      t.fuses.busy = true ∧ t.fuses.nextResult = 0 ∧ t.fuses.arm = 0 ∧ OnlyIn [.fuses] s t)) ∧
  (∀ (good : Bool) (s : State), powered s = true → s.fuses.busy = false → s.fuses.arm = 0x4B52 → inRecovery s = true → s.fuses.entry < 4 → s.fuses.keyProgrammed.getLsbD s.fuses.entry = true →
    exec (.fuseProgram good) s = .next { s with fuses := { s.fuses with op := 1, arm := 0, result := 3, go := false } }) ∧
  (∀ s : State, powered s = true → s.fuses.busy = false → s.fuses.arm = 0x4B52 → inRecovery s = true → s.fuses.entry < 4 →
    Runs .fuseRevoke s (fun t => t.fuses.keyRevoked.getLsbD s.fuses.entry = true ∧ t.fuses.keyProgrammed = s.fuses.keyProgrammed ∧ t.fuses.busy = true ∧ OnlyIn [.fuses] s t)) ∧
  (∀ s : State, powered s = true → s.fuses.busy = false → s.fuses.arm = 0x4B52 → s.chip.step = 15 → s.ch (·.keyIndex) 0 = s.fuses.entry % 4 →
    exec .fuseRevoke s = .next { s with fuses := { s.fuses with op := 2, arm := 0, result := 5, go := false } }) ∧
  (∀ s : State, s.fuses.busy = true → exec .fuseOperationEnd s = .next { s with fuses := { s.fuses with busy := false, go := false, result := s.fuses.nextResult } })) ∧
  (
  (∀ s : State, s.chip.step = 15 → opfin s = true → s.chip.halted = false → s.ch (·.secVersion) 0 ≤ 64 → s.chip.fwSv ≤ 64 →
    Runs .fuseAdvance s (fun t => s.ch (·.secVersion) 0 ≤ counter t 0 ∧ s.chip.fwSv ≤ counter t 1 ∧ counter s 0 ≤ counter t 0 ∧ counter s 1 ≤ counter t 1 ∧ t.chip = { s.chip with advanceDone := true } ∧
      (s.ch (·.secVersion) 0 ≤ counter s 0 → s.chip.fwSv ≤ counter s 1 → t.fuses = s.fuses))) ∧
  (∀ (e n : Nat) (s : State), opfin s = true → (e, n) ∈ s.reserves.fusePending →
    Runs (.retirementFuse e n) s (fun t => (e, n) ∈ t.fuses.retired ∧ (e, n) ∉ t.reserves.fusePending ∧ (∀ x, x ≠ (e, n) → (x ∈ t.fuses.retired ↔ x ∈ s.fuses.retired)) ∧ OnlyIn [.fuses, .reserves] s t)) ∧
  (∀ (e n : Nat) (s : State), (e, n) ∉ s.reserves.fusePending → exec (.retirementFuse e n) s = .next s)) ∧
  (
  (∀ (good : Bool) (s : State), powered s = true → s.flash.busy = false → inRecovery s = false →
    exec (.flashErase good) s = .next { s with flash := { s.flash with op := 1, result := 1, go := false } } ∧
    exec (.flashProgram good) s = .next { s with flash := { s.flash with op := 2, result := 1, go := false } } ∧
    exec (.flashRead good) s = .next { s with flash := { s.flash with op := 3, result := 1, go := false } }) ∧
  (∀ (good : Bool) (s : State), powered s = true → s.flash.busy = false → inRecovery s = true → s.flash.addr % 65536 ≠ 0 → s.flash.addr + 65536 ≤ 0x340_0000 →
    exec (.flashErase good) s = .next { s with flash := { s.flash with op := 1, result := 2, go := false } }) ∧
  (∀ (good : Bool) (s : State), powered s = true → s.flash.busy = false → inRecovery s = true → 0x340_0000 < s.flash.addr + 65536 →
    exec (.flashErase good) s = .next { s with flash := { s.flash with op := 1, result := 4, go := false } }) ∧
  (∀ s : State, powered s = true → s.flash.busy = false → inRecovery s = true → s.flash.addr % 65536 = 0 → s.flash.addr + 65536 ≤ 0x340_0000 →
    Runs (.flashErase true) s (fun t => t.flash.busy = true ∧ t.flash.nextResult = 0 ∧
      (∀ a, Memory.read 0xFF t.flash.cells a = if s.flash.addr ≤ a ∧ a < s.flash.addr + 65536 then 0xFF else Memory.read 0xFF s.flash.cells a) ∧ OnlyIn [.flash] s t)) ∧
  (∀ s : State, powered s = true → s.flash.busy = false → inRecovery s = true → s.flash.addr % 4096 = 0 → s.flash.addr + 4096 ≤ 0x340_0000 →
    Runs (.flashProgram true) s (fun t => t.flash.busy = true ∧ t.flash.nextResult = 0 ∧ t.flash.cells = Memory.writeN 0xFF s.flash.cells s.flash.addr (Memory.readN 0 s.flash.buf 0 4096) ∧ OnlyIn [.flash] s t) ∧
    Runs (.flashRead true) s (fun t => t.flash.busy = true ∧ t.flash.nextResult = 0 ∧ t.flash.cells = s.flash.cells ∧ t.flash.buf = Memory.ofBytes (flashBytes s s.flash.addr 4096) ∧ OnlyIn [.flash] s t)) ∧
  (∀ s : State, s.flash.busy = true → exec .flashOperationEnd s = .next { s with flash := { s.flash with busy := false, go := false, result := s.flash.nextResult, writing := none } }) ∧
  (∀ s : State, s.flash.busy = false → exec .flashOperationEnd s = .next s)) ∧
  (
  (∀ (row : Nat) (s : State), powered s = true → 5 ≤ s.chip.step → row ∉ s.reserves.mappedOut →
    Runs (.dramEccEvent row true) s (fun t => t.reserves.dramCorrected = inc 0xFFFF s.reserves.dramCorrected ∧ (∃ r ∈ t.reserves.rows, r.row = row ∧ s.now ∈ r.events) ∧ OnlyIn [.reserves] s t)) ∧
  (∀ (row : Nat) (s : State), powered s = true → 5 ≤ s.chip.step → row ∉ s.reserves.mappedOut →
    Runs (.dramEccEvent row false) s (fun t => t.reserves.dramCorrected = s.reserves.dramCorrected ∧ (∃ r ∈ t.reserves.rows, r.row = row ∧ r.repairDue = true ∧ r.uncorrectable = true))) ∧
  (∀ (row : Nat) (r : DramRow) (s : State), s.reserves.rows.find? (fun r => r.row = row && r.repairDue) = some r → s.power.state < 2 → s.chip.halted = false → s.ch (·.dramRepair) true = true →
    Runs (.dramRowRepair row true) s (fun t => row ∈ t.reserves.repaired ∧ t.reserves.repairedCount = s.reserves.repairedCount + 1 ∧ t.reserves.mappedOut = s.reserves.mappedOut ∧ (∀ q ∈ t.reserves.rows, q.row ≠ row))) ∧
  (∀ (row : Nat) (r : DramRow) (s : State), s.reserves.rows.find? (fun r => r.row = row && r.repairDue) = some r → s.power.state < 2 → s.chip.halted = false →
    Runs (.dramRowRepair row false) s (fun t => row ∈ t.reserves.mappedOut ∧ t.reserves.repairedCount = s.reserves.repairedCount ∧ (∀ q ∈ t.reserves.rows, q.row ≠ row))) ∧
  (∀ (row : Nat) (resource : Bool) (s : State), 2 ≤ s.power.state → exec (.dramRowRepair row resource) s = .next s)) ∧
  (
  (∀ (ns : Nat) (s : State), powered s = true → s.chip.locked = true → s.chip.halted = false → 1000 < ns →
    Runs (.pllLockLoss ns) s (fun t => t.chip = { s.chip with onOscillator := true, halted := true } ∧ t.closers.mode = 2 ∧ t.pair.fenced = true)) ∧
  (∀ (ns : Nat) (s : State), ns ≤ 1000 → exec (.pllLockLoss ns) s = .next s) ∧
  (∀ (j : JtagInstr) (s : State), takesBalls j = false → exec (.jtagInstructionLoad j) s = .next { s with chip := { s.chip with jtag := j } }) ∧
  (∀ (j : JtagInstr) (s : State), takesBalls j = true → powered s = true → s.chip.halted = false →
    Runs (.jtagInstructionLoad j) s (fun t => t.chip = { s.chip with jtag := j, halted := true } ∧ t.closers.mode = 2 ∧ t.pair.fenced = true)))

/-- The four slots of a channel by number. -/
def slotAt (c : Channel) (k : Nat) : Slot := (c.slots.drop k).headD {}

/-- START, slot writes, the shadow hand-over and maintenance mode (R430, R431, R439–R442): START on an Idle channel runs the slot of NEXT when it is VALID, marks it bad when R430 finds it so, and else
waits; a write to the running slot changes LAST and MORE alone; a write that clears LAST advances GEN; a VALID written where the channel waits runs the slot; a shadow write is numbered; an armed copy
takes place at once on an Idle channel; without ARM nothing happens. Each of these is said to answer a next state under conditions on the state and the operands alone: courierStart, courierSlotWrite,
shadowArm, shadowWrite, maintenanceEnter, maintenanceExit. -/
def Obligations.CourierTakesCommands : Prop :=
  (∀ (n : Nat) (x : Slot) (s : State), n < 16 → s.courier.channels.length = 16 → (chan s n).state = 0 → slotAt (chan s n) (chan s n).next = x → x.valid = true →
    (fetchFault s n x = none → Runs (.courierStart n) s (fun t => chan t n = { chan s n with missed := false, slot := (chan s n).next, state := 1, fetched := x, genAtFetch := (chan s n).gen, moved := 0, crcRun := 0xFFFFFFFF, hostRead := none, fetchedData := [] } ∧ (∀ m, m ≠ n → chan t m = chan s m) ∧ OnlyIn [.courier] s t)) ∧
    ((x.last = x.more ∨ x.count = 0) → Runs (.courierStart n) s (fun t => (chan t n).state = 0 ∧ (chan t n).next = (chan s n).next ∧ slotAt (chan t n) (chan s n).next = { x with valid := false, bad := true, badCode := 6 } ∧
      t.courier.bad = modAt (inc 0xFF) 6 s.courier.bad ∧ (∀ m, m ≠ n → chan t m = chan s m)))) ∧
  (∀ (n : Nat) (s : State), n < 16 → s.courier.channels.length = 16 → (chan s n).state = 0 → (slotAt (chan s n) (chan s n).next).valid = false →
    Runs (.courierStart n) s (fun t => chan t n = { chan s n with missed := false, state := 2, slot := ((chan s n).next + 3) % 4 } ∧ (∀ m, m ≠ n → chan t m = chan s m) ∧ OnlyIn [.courier] s t)) ∧
  (∀ (n : Nat) (s : State), (chan s n).state ≠ 0 → exec (.courierStart n) s = .next s) ∧
  (∀ (n k : Nat) (v : BitVec 64) (s : State), n < 16 → k < 4 → s.courier.channels.length = 16 → (chan s n).slots.length = 4 → ((chan s n).state = 0 ∨ ((chan s n).state = 1 ∨ (chan s n).state = 3) ∧ (chan s n).slot ≠ k) →
    Runs (.courierSlotWrite n k 0 v) s (fun t => chan t n = { chan s n with slots := modAt (fun x => { x with src := v }) k (chan s n).slots } ∧ (∀ m, m ≠ n → chan t m = chan s m) ∧ OnlyIn [.courier] s t) ∧
    Runs (.courierSlotWrite n k 1 v) s (fun t => chan t n = { chan s n with slots := modAt (fun x => { x with dst := v }) k (chan s n).slots } ∧ (∀ m, m ≠ n → chan t m = chan s m) ∧ OnlyIn [.courier] s t) ∧
    Runs (.courierSlotWrite n k 2 v) s (fun t => (slotAt (chan t n) k).count = fld v.toNat 26 0 ∧ (slotAt (chan t n) k).valid = bit v.toNat 32 ∧ (slotAt (chan t n) k).last = bit v.toNat 33 ∧
      (slotAt (chan t n) k).more = bit v.toNat 34 ∧ (bit v.toNat 32 = true → (slotAt (chan t n) k).bad = false ∧ (slotAt (chan t n) k).badCode = 0) ∧ (slotAt (chan t n) k).src = (slotAt (chan s n) k).src ∧
      (∀ j, j ≠ k → slotAt (chan t n) j = slotAt (chan s n) j) ∧ (chan t n).state = (chan s n).state ∧ (chan t n).fetched = (chan s n).fetched ∧
      (chan t n).gen = (if (slotAt (chan s n) k).last && !bit v.toNat 33 then ((chan s n).gen + 1) % 256 else (chan s n).gen) ∧ OnlyIn [.courier] s t)) ∧
  (∀ (n k : Nat) (v : BitVec 64) (s : State), ((chan s n).state = 1 ∨ (chan s n).state = 3) → (chan s n).slot = k →
    exec (.courierSlotWrite n k 0 v) s = .next s ∧ exec (.courierSlotWrite n k 1 v) s = .next s ∧
    (k < 4 → (chan s n).slots.length = 4 → n < 16 →
      Runs (.courierSlotWrite n k 2 v) s (fun t => slotAt (chan t n) k = { slotAt (chan s n) k with last := bit v.toNat 33, more := bit v.toNat 34 } ∧ (chan t n).fetched = (chan s n).fetched ∧ (chan t n).state = (chan s n).state ∧ OnlyIn [.courier] s t))) ∧
  (∀ (n k : Nat) (v : BitVec 64) (s : State), n < 16 → k < 4 → s.courier.channels.length = 16 → (chan s n).slots.length = 4 → (chan s n).state = 2 → ((chan s n).slot + 1) % 4 = k → bit v.toNat 32 = true →
    fetchFault s n (ctlWrite (slotAt (chan s n) k) v.toNat) = none →
    Runs (.courierSlotWrite n k 2 v) s (fun t => (chan t n).state = 1 ∧ (chan t n).slot = k ∧ (chan t n).fetched = ctlWrite (slotAt (chan s n) k) v.toNat ∧ OnlyIn [.courier] s t)) ∧
  (∀ (n k : Nat) (v : BitVec 64) (s : State), n < 16 → k < 4 → s.courier.channels.length = 16 →
    Runs (.shadowWrite n k 0 v) s (fun t => chan t n = { chan s n with shadow := modAt (fun x => { x with src := v }) k (chan s n).shadow, shadowWseq := ((chan s n).shadowWseq + 1) % 65536 } ∧ (∀ m, m ≠ n → chan t m = chan s m) ∧ OnlyIn [.courier] s t) ∧
    Runs (.shadowWrite n k 1 v) s (fun t => chan t n = { chan s n with shadow := modAt (fun x => { x with dst := v }) k (chan s n).shadow, shadowWseq := ((chan s n).shadowWseq + 1) % 65536 } ∧ (∀ m, m ≠ n → chan t m = chan s m) ∧ OnlyIn [.courier] s t)) ∧
  (∀ (n : Nat) (s : State), n < 16 → s.courier.channels.length = 16 →
    (((chan s n).state = 1 ∨ (chan s n).state = 3) → Runs (.shadowArm n) s (fun t => chan t n = { chan s n with armed := true } ∧ (∀ m, m ≠ n → chan t m = chan s m) ∧ OnlyIn [.courier] s t)) ∧
    (((chan s n).state = 0 ∨ (chan s n).state = 2) → Runs (.shadowArm n) s (fun t => (chan t n).slots = (chan s n).shadow ∧ (chan t n).armed = false ∧ (chan t n).next = 0 ∧ (chan t n).missed = false ∧ (chan t n).state = 0 ∧
      (chan t n).shadowSeq = (chan s n).shadowWseq ∧ (chan t n).hoCount = 0 ∧ t.courier.handovers = inc 0xFFFF s.courier.handovers ∧ (∀ m, m ≠ n → chan t m = chan s m) ∧ OnlyIn [.courier] s t))) ∧
  (∀ (arm : Nat) (s : State), writesTaken s = true →
    (arm = 0x4D54 → exec (.maintenanceEnter arm) s = .next { s with courier := { s.courier with enterPending := !s.courier.maint } } ∧
      exec (.maintenanceExit arm) s = .next { s with courier := { s.courier with exitPending := s.courier.maint, enterPending := false } }) ∧
    (arm ≠ 0x4D54 → exec (.maintenanceEnter arm) s = .next s ∧ exec (.maintenanceExit arm) s = .next s))

/-- Bursts and the ends of slots (R430, R432, R434, R435, R437–R439): among running channels that have not waited 4,096 cycles the one of highest priority moves up to 256 bytes within a 256-byte block of
its destination; the CRC goes behind the last byte; a channel that would write host memory pauses while bus mastering is off. A slot that ends is no longer VALID; the channel is Idle after LAST, with
CHAIN_MISSED when GEN has changed, and after MORE runs or awaits the next slot. Each of these is said to answer a next state under conditions on the state and the operands alone: burstGrant,
slotComplete, slotFault. -/
def Obligations.BurstsMoveBytes : Prop :=
  (∀ (cyc n len : Nat) (r : List Nat) (f : Slot) (s : State), n ∈ r → s.courier.channels.length = 16 → (chan s n).state = 1 → (∀ m ∈ r, (chan s m).readySince = none ∧ (m ≠ n → (chan s m).prio < (chan s n).prio)) →
    (chan s n).armed = false → f = (chan s n).fetched → f.srcSpace = 0 → f.dstSpace = 0 → f.srcFixed = false → f.dstFixed = false → f.xform ≤ 1 → (chan s n).moved < f.count →
    len = min (f.count - (chan s n).moved) (256 - (f.dst.toNat + (chan s n).moved) % 256) →
    Runs (.burstGrant cyc r) s (fun t => (chan t n).moved = (chan s n).moved + len ∧ (chan t n).state = 1 ∧ t.courier.lastGrant = n ∧ t.courier.bursts = inc 0xFFFFFFFF s.courier.bursts ∧
      ((f.xform = 0 ∨ (chan s n).moved + len < f.count) → t.dram = Memory.writeN 0 s.dram (f.dst.toNat + (chan s n).moved) (Memory.readN 0 s.dram (f.src.toNat + (chan s n).moved) len)) ∧
      (f.xform = 1 → (chan s n).moved = 0 → f.count = len → (chan s n).crcRun = 0xFFFFFFFF →
        (chan t n).crc = crc32c (Memory.readN 0 s.dram f.src.toNat len) ∧
        t.dram = Memory.writeN 0 (Memory.writeN 0 s.dram f.dst.toNat (Memory.readN 0 s.dram f.src.toNat len)) (f.dst.toNat + f.count) (natLe 4 (crc32c (Memory.readN 0 s.dram f.src.toNat len)).toNat)) ∧
      (∀ m, m ≠ n → (chan t m).moved = (chan s m).moved ∧ (chan t m).state = (chan s m).state) ∧ OnlyIn [.clock, .courier, .dram] s t)) ∧
  (∀ (cyc n : Nat) (s : State), n ≤ 3 → s.courier.channels.length = 16 → (chan s n).state = 1 → (chan s n).armed = false → (chan s n).fetched.dstSpace = 3 → (s.cfg.busMaster = false ∨ s.cfg.powerState ≠ 0) →
    Runs (.burstGrant cyc [n]) s (fun t => (chan t n).state = 3 ∧ (chan t n).moved = (chan s n).moved ∧ OnlyIn [.clock, .courier] s t)) ∧
  (∀ (cyc : Nat) (r : List Nat) (s : State), (∀ m ∈ r, (chan s m).state = 0 ∨ (chan s m).state = 2) → Runs (.burstGrant cyc r) s (fun t => t.courier.bursts = s.courier.bursts ∧ t.clock = (s.at cyc).clock ∧ OnlyIn [.clock, .courier] s t)) ∧
  (∀ (n : Nat) (s : State), (chan s n).state = 1 → (chan s n).fetched.count ≤ (chan s n).moved →
    ((chan s n).fetched.last = true → Runs (.slotComplete n) s (fun t =>
      chan t n = { chan s n with state := 0, next := ((chan s n).slot + 1) % 4, missed := (chan s n).missed || decide ((chan s n).gen ≠ (chan s n).genAtFetch), slots := modAt (fun x => { x with valid := false }) (chan s n).slot (chan s n).slots, pulses := (chan s n).pulses + 1, hostRead := none, fetchedData := [] } ∧
      t.courier.missed = (if (chan s n).gen = (chan s n).genAtFetch then s.courier.missed else inc 0xFFFF s.courier.missed) ∧ (∀ m, m ≠ n → chan t m = chan s m) ∧ OnlyIn [.courier] s t)) ∧
    ((chan s n).fetched.last = false → (slotAt (chan s n) (((chan s n).slot + 1) % 4)).valid = false →
      Runs (.slotComplete n) s (fun t => (chan t n).state = 2 ∧ (chan t n).slot = (chan s n).slot ∧ (chan t n).slots = modAt (fun x => { x with valid := false }) (chan s n).slot (chan s n).slots ∧ (∀ m, m ≠ n → chan t m = chan s m) ∧ OnlyIn [.courier] s t)) ∧
    (∀ y, (chan s n).fetched.last = false → (chan s n).slot < 4 → slotAt (chan s n) (((chan s n).slot + 1) % 4) = y → y.valid = true → fetchFault s n y = none →
      Runs (.slotComplete n) s (fun t => (chan t n).state = 1 ∧ (chan t n).slot = ((chan s n).slot + 1) % 4 ∧ (chan t n).fetched = y ∧ (chan t n).moved = 0 ∧ (∀ m, m ≠ n → chan t m = chan s m) ∧ OnlyIn [.courier] s t))) ∧
  (∀ (n : Nat) (s : State), ((chan s n).state ≠ 1 ∨ (chan s n).moved < (chan s n).fetched.count) → exec (.slotComplete n) s = .next s) ∧
  (∀ (n code : Nat) (s : State), ((chan s n).state = 1 ∨ (chan s n).state = 3) → 1 ≤ code → code ≤ 8 → (chan s n).fetched.last = true → (chan s n).gen = (chan s n).genAtFetch →
    Runs (.slotFault n code) s (fun t => (chan t n).state = 0 ∧ (chan t n).next = ((chan s n).slot + 1) % 4 ∧
      (chan t n).slots = modAt (fun x => { x with valid := false, bad := true, badCode := code }) (chan s n).slot (chan s n).slots ∧ t.courier.bad = modAt (inc 0xFF) code s.courier.bad ∧
      t.returns.masterOff = (if code = 3 then inc 0xFFFF s.returns.masterOff else s.returns.masterOff) ∧ (∀ m, m ≠ n → chan t m = chan s m) ∧ OnlyIn [.courier, .returns] s t)) ∧
  (∀ (n code : Nat) (s : State), (code = 0 ∨ 8 < code ∨ (chan s n).state = 0 ∨ (chan s n).state = 2) → exec (.slotFault n code) s = .next s)

/-- The map cache (R444–R449): a lookup is served from a hold register, from its line, or from DRAM with an uncorrectable error or with no way enabled; it joins an outstanding fill, waits for a hold
register, or issues a fill that saves the line it replaces. A fill that returns is installed when the set's generation has not changed. A change goes to DRAM and to the line and advances the
generation, as an invalidation does, which removes the line. Each of these is said to answer a next state under conditions on the state and the operands alone: mapLookup, mapFillReturn,
mapEntryChange, mapInvalidateLine, mapInvalidateAll. -/
def Obligations.MapCacheServes : Prop :=
  (∀ (id a w ecc : Nat) (s : State), id < 2 ^ 32 → a < 2 ^ 39 → w < 16 →
    (∀ v, s.map.victims.find? (fun v => v.set = mapSet a && v.tag = mapTag a) = some v →
      exec (.mapLookup id a w ecc) s = .next { s with map := { s.map with served := [(id, lineEntry v.data a)], hits := inc 0xFFFFFFFF s.map.hits, victimHits := inc 0xFFFF s.map.victimHits } }) ∧
    (s.map.victims.find? (fun v => v.set = mapSet a && v.tag = mapTag a) = none →
      (∀ l, s.map.lines.find? (fun l => l.set = mapSet a && l.tag = mapTag a && (way s l.way).enabled) = some l →
        (ecc = 0 → exec (.mapLookup id a w ecc) s = .next { s with map := { s.map with served := [(id, lineEntry l.data a)], hits := inc 0xFFFFFFFF s.map.hits } }) ∧
        (ecc = 1 → Runs (.mapLookup id a w ecc) s (fun t => t.map.served = [(id, lineEntry l.data a)] ∧ t.map.hits = inc 0xFFFFFFFF s.map.hits ∧ t.map.corrected = inc 0xFFFF s.map.corrected ∧ t.map.lines = s.map.lines ∧ OnlyIn [.map] s t)) ∧
        (ecc = 2 → Runs (.mapLookup id a w ecc) s (fun t => t.map.served = [(id, lineEntry (dramLine s a) a)] ∧ t.map.hits = inc 0xFFFFFFFF s.map.hits ∧ t.map.uncorrected = inc 0xFFFF s.map.uncorrected ∧
          t.map.lines = s.map.lines.filter (fun x => !(x.set = mapSet a && x.tag = mapTag a)) ∧ (way t l.way).disabling = true ∧ OnlyIn [.map] s t))) ∧
      (s.map.lines.find? (fun l => l.set = mapSet a && l.tag = mapTag a && (way s l.way).enabled) = none →
        ((∀ x ∈ s.map.ways, x.enabled = false) →
          exec (.mapLookup id a w ecc) s = .next { s with map := { s.map with served := [(id, lineEntry (dramLine s a) a)], misses := inc 0xFFFFFFFF s.map.misses } }) ∧
        ((way s w).enabled = true → (∃ f ∈ s.map.fills, f.set = mapSet a ∧ f.tag = mapTag a) →
          exec (.mapLookup id a w ecc) s = .next { s with map := { s.map with served := [], misses := inc 0xFFFFFFFF s.map.misses, fills := modIf (fun f => f.set = mapSet a && f.tag = mapTag a) (fun f => { f with lookups := f.lookups ++ [(id + 2 ^ 32 * (a % 256), setGen s (mapSet a))] }) s.map.fills } }) ∧
        ((way s w).enabled = true → (∀ f ∈ s.map.fills, f.set = mapSet a → f.tag ≠ mapTag a) →
          (∀ old, s.map.lines.find? (fun l => l.set = mapSet a && l.way = w) = some old → 8 ≤ s.map.victims.length →
            exec (.mapLookup id a w ecc) s = .next { s with map := { s.map with served := [], misses := inc 0xFFFFFFFF s.map.misses, waiting := s.map.waiting ++ [(id, a, w)] } }) ∧
          (∀ old, s.map.lines.find? (fun l => l.set = mapSet a && l.way = w) = old → (old = none ∨ s.map.victims.length < 8) →
            exec (.mapLookup id a w ecc) s = .next { s with map := { s.map with served := [], misses := inc 0xFFFFFFFF s.map.misses, victims := s.map.victims ++ old.toList, lines := s.map.lines.filter (fun l => !(l.set = mapSet a && l.way = w)), fills := s.map.fills ++ [⟨mapSet a, mapTag a, setGen s (mapSet a), w, dramLine s a, [(id + 2 ^ 32 * (a % 256), setGen s (mapSet a))], false⟩] } }))))) ∧
  (∀ (a : Nat) (f : Fill) (s : State), s.map.fills.find? (fun f => f.set = mapSet a && f.tag = mapTag a) = some f → s.map.waiting = [] →
    (f.gen = setGen s (mapSet a) → f.disabled = false → (way s f.way).enabled = true →
      Runs (.mapFillReturn a) s (fun t => t.map.lines = s.map.lines.filter (fun l => !(l.set = mapSet a && l.way = f.way)) ++ [⟨mapSet a, f.way, mapTag a, f.data⟩] ∧ t.map.served = f.lookups.map (fun l => (l.1 % 2 ^ 32, lineEntry f.data (l.1 / 2 ^ 32))) ∧
        t.map.fills = s.map.fills.filter (fun g => !(g.set = mapSet a && g.tag = mapTag a)) ∧ t.map.victims = s.map.victims.filter (fun v => !(v.set = mapSet a && v.way = f.way)) ∧ t.map.stale = s.map.stale ∧ OnlyIn [.map] s t)) ∧
    (f.gen = setGen s (mapSet a) → (f.disabled = true ∨ (way s f.way).enabled = false) →
      Runs (.mapFillReturn a) s (fun t => t.map.lines = s.map.lines ∧ t.map.served = f.lookups.map (fun l => (l.1 % 2 ^ 32, lineEntry f.data (l.1 / 2 ^ 32))) ∧ OnlyIn [.map] s t)) ∧
    (f.gen ≠ setGen s (mapSet a) → (∀ l ∈ f.lookups, l.2 = f.gen) →
      Runs (.mapFillReturn a) s (fun t => t.map.lines = s.map.lines ∧ t.map.served = f.lookups.map (fun l => (l.1 % 2 ^ 32, lineEntry f.data (l.1 / 2 ^ 32))) ∧ t.map.stale = inc 0xFFFF s.map.stale ∧ OnlyIn [.map] s t))) ∧
  (∀ (a : Nat) (e : List Byte) (s : State), a < 2 ^ 39 → a % 64 = 0 → e.length = 64 →
    Runs (.mapEntryChange a e) s (fun t => t.dram = Memory.writeN 0 s.dram a e ∧ setGen t (mapSet a) = (setGen s (mapSet a) + 1) % 65536 ∧ (∀ n, n ≠ mapSet a → setGen t n = setGen s n) ∧
      t.map.lines = s.map.lines.map (fun l => if l.set = mapSet a ∧ l.tag = mapTag a then { l with data := l.data.take (a % 256) ++ e ++ l.data.drop (a % 256 + 64) } else l) ∧ t.map.fills = s.map.fills ∧ OnlyIn [.map, .dram] s t)) ∧
  (∀ (a : Nat) (s : State), writesTaken s = true → s.map.invalAddr = a →
    Runs .mapInvalidateLine s (fun t => (∀ l, l ∈ t.map.lines ↔ l ∈ s.map.lines ∧ ¬ (l.set = mapSet a ∧ l.tag = mapTag a)) ∧ (∀ l, l ∈ t.map.victims ↔ l ∈ s.map.victims ∧ ¬ (l.set = mapSet a ∧ l.tag = mapTag a)) ∧
      setGen t (mapSet a) = (setGen s (mapSet a) + 1) % 65536 ∧ (∀ n, n ≠ mapSet a → setGen t n = setGen s n) ∧ t.map.fills = s.map.fills ∧ OnlyIn [.map] s t)) ∧
  (∀ s : State, writesTaken s = true → Runs .mapInvalidateAll s (fun t => t.map.lines = [] ∧ t.map.victims = [] ∧ (∀ n < 1024, setGen t n = (setGen s n + 1) % 65536) ∧ t.map.fills = s.map.fills ∧ OnlyIn [.map] s t))
end

