-- ==== Sys2Proof/Laws/FrameUpdates.lean ====
section
/-! SUPPORT. What an update of some fields leaves as it was: the part of the state outside them. -/

namespace Sys2Proof.Machine

@[simp] theorem outside_upd_bands {ps : List Part} {s : State} {x0} (h_bands : .bands ∈ ps) :
    ({ s with bands := x0 } : State).outside ps = s.outside ps := by simp only [State.outside, h_bands, if_true]

@[simp] theorem outside_upd_cache {ps : List Part} {s : State} {x0} (h_cache : .cache ∈ ps) :
    ({ s with cache := x0 } : State).outside ps = s.outside ps := by simp only [State.outside, h_cache, if_true]

@[simp] theorem outside_upd_cfg {ps : List Part} {s : State} {x0} (h_cfg : .cfg ∈ ps) :
    ({ s with cfg := x0 } : State).outside ps = s.outside ps := by simp only [State.outside, h_cfg, if_true]

@[simp] theorem outside_upd_chain {ps : List Part} {s : State} {x0} (h_chain : .chain ∈ ps) :
    ({ s with chain := x0 } : State).outside ps = s.outside ps := by simp only [State.outside, h_chain, if_true]

@[simp] theorem outside_upd_chip {ps : List Part} {s : State} {x0} (h_chip : .chip ∈ ps) :
    ({ s with chip := x0 } : State).outside ps = s.outside ps := by simp only [State.outside, h_chip, if_true]

@[simp] theorem outside_upd_clock {ps : List Part} {s : State} {x0} (h_clock : .clock ∈ ps) :
    ({ s with clock := x0 } : State).outside ps = s.outside ps := by simp only [State.outside, h_clock, if_true]

@[simp] theorem outside_upd_closers {ps : List Part} {s : State} {x0} (h_closers : .closers ∈ ps) :
    ({ s with closers := x0 } : State).outside ps = s.outside ps := by simp only [State.outside, h_closers, if_true]

@[simp] theorem outside_upd_cmds {ps : List Part} {s : State} {x0} (h_cmds : .cmds ∈ ps) :
    ({ s with cmds := x0 } : State).outside ps = s.outside ps := by simp only [State.outside, h_cmds, if_true]

@[simp] theorem outside_upd_courier {ps : List Part} {s : State} {x0} (h_courier : .courier ∈ ps) :
    ({ s with courier := x0 } : State).outside ps = s.outside ps := by simp only [State.outside, h_courier, if_true]

@[simp] theorem outside_upd_daybook {ps : List Part} {s : State} {x0} (h_daybook : .daybook ∈ ps) :
    ({ s with daybook := x0 } : State).outside ps = s.outside ps := by simp only [State.outside, h_daybook, if_true]

@[simp] theorem outside_upd_degrade {ps : List Part} {s : State} {x0} (h_degrade : .degrade ∈ ps) :
    ({ s with degrade := x0 } : State).outside ps = s.outside ps := by simp only [State.outside, h_degrade, if_true]

@[simp] theorem outside_upd_dram {ps : List Part} {s : State} {x0} (h_dram : .dram ∈ ps) :
    ({ s with dram := x0 } : State).outside ps = s.outside ps := by simp only [State.outside, h_dram, if_true]

@[simp] theorem outside_upd_drives {ps : List Part} {s : State} {x0} (h_drives : .drives ∈ ps) :
    ({ s with drives := x0 } : State).outside ps = s.outside ps := by simp only [State.outside, h_drives, if_true]

@[simp] theorem outside_upd_feats {ps : List Part} {s : State} {x0} (h_feats : .feats ∈ ps) :
    ({ s with feats := x0 } : State).outside ps = s.outside ps := by simp only [State.outside, h_feats, if_true]

@[simp] theorem outside_upd_flash {ps : List Part} {s : State} {x0} (h_flash : .flash ∈ ps) :
    ({ s with flash := x0 } : State).outside ps = s.outside ps := by simp only [State.outside, h_flash, if_true]

@[simp] theorem outside_upd_free {ps : List Part} {s : State} {x0} (h_free : .free ∈ ps) :
    ({ s with free := x0 } : State).outside ps = s.outside ps := by simp only [State.outside, h_free, if_true]

@[simp] theorem outside_upd_fuses {ps : List Part} {s : State} {x0} (h_fuses : .fuses ∈ ps) :
    ({ s with fuses := x0 } : State).outside ps = s.outside ps := by simp only [State.outside, h_fuses, if_true]

@[simp] theorem outside_upd_gov {ps : List Part} {s : State} {x0} (h_gov : .gov ∈ ps) :
    ({ s with gov := x0 } : State).outside ps = s.outside ps := by simp only [State.outside, h_gov, if_true]

@[simp] theorem outside_upd_heldLow {ps : List Part} {s : State} {x0} (h_heldLow : .heldLow ∈ ps) :
    ({ s with heldLow := x0 } : State).outside ps = s.outside ps := by simp only [State.outside, h_heldLow, if_true]

@[simp] theorem outside_upd_holds {ps : List Part} {s : State} {x0} (h_holds : .holds ∈ ps) :
    ({ s with holds := x0 } : State).outside ps = s.outside ps := by simp only [State.outside, h_holds, if_true]

@[simp] theorem outside_upd_ints {ps : List Part} {s : State} {x0} (h_ints : .ints ∈ ps) :
    ({ s with ints := x0 } : State).outside ps = s.outside ps := by simp only [State.outside, h_ints, if_true]

@[simp] theorem outside_upd_latched {ps : List Part} {s : State} {x0} (h_latched : .latched ∈ ps) :
    ({ s with latched := x0 } : State).outside ps = s.outside ps := by simp only [State.outside, h_latched, if_true]

@[simp] theorem outside_upd_ledger {ps : List Part} {s : State} {x0} (h_ledger : .ledger ∈ ps) :
    ({ s with ledger := x0 } : State).outside ps = s.outside ps := by simp only [State.outside, h_ledger, if_true]

@[simp] theorem outside_upd_link {ps : List Part} {s : State} {x0} (h_link : .link ∈ ps) :
    ({ s with link := x0 } : State).outside ps = s.outside ps := by simp only [State.outside, h_link, if_true]

@[simp] theorem outside_upd_map {ps : List Part} {s : State} {x0} (h_map : .map ∈ ps) :
    ({ s with map := x0 } : State).outside ps = s.outside ps := by simp only [State.outside, h_map, if_true]

@[simp] theorem outside_upd_mgmt {ps : List Part} {s : State} {x0} (h_mgmt : .mgmt ∈ ps) :
    ({ s with mgmt := x0 } : State).outside ps = s.outside ps := by simp only [State.outside, h_mgmt, if_true]

@[simp] theorem outside_upd_pair {ps : List Part} {s : State} {x0} (h_pair : .pair ∈ ps) :
    ({ s with pair := x0 } : State).outside ps = s.outside ps := by simp only [State.outside, h_pair, if_true]

@[simp] theorem outside_upd_pending {ps : List Part} {s : State} {x0} (h_pending : .pending ∈ ps) :
    ({ s with pending := x0 } : State).outside ps = s.outside ps := by simp only [State.outside, h_pending, if_true]

@[simp] theorem outside_upd_plans {ps : List Part} {s : State} {x0} (h_plans : .plans ∈ ps) :
    ({ s with plans := x0 } : State).outside ps = s.outside ps := by simp only [State.outside, h_plans, if_true]

@[simp] theorem outside_upd_power {ps : List Part} {s : State} {x0} (h_power : .power ∈ ps) :
    ({ s with power := x0 } : State).outside ps = s.outside ps := by simp only [State.outside, h_power, if_true]

@[simp] theorem outside_upd_registry {ps : List Part} {s : State} {x0} (h_registry : .registry ∈ ps) :
    ({ s with registry := x0 } : State).outside ps = s.outside ps := by simp only [State.outside, h_registry, if_true]

@[simp] theorem outside_upd_reserves {ps : List Part} {s : State} {x0} (h_reserves : .reserves ∈ ps) :
    ({ s with reserves := x0 } : State).outside ps = s.outside ps := by simp only [State.outside, h_reserves, if_true]

@[simp] theorem outside_upd_reshapes {ps : List Part} {s : State} {x0} (h_reshapes : .reshapes ∈ ps) :
    ({ s with reshapes := x0 } : State).outside ps = s.outside ps := by simp only [State.outside, h_reshapes, if_true]

@[simp] theorem outside_upd_returns {ps : List Part} {s : State} {x0} (h_returns : .returns ∈ ps) :
    ({ s with returns := x0 } : State).outside ps = s.outside ps := by simp only [State.outside, h_returns, if_true]

@[simp] theorem outside_upd_rsp {ps : List Part} {s : State} {x0} (h_rsp : .rsp ∈ ps) :
    ({ s with rsp := x0 } : State).outside ps = s.outside ps := by simp only [State.outside, h_rsp, if_true]

@[simp] theorem outside_upd_sas {ps : List Part} {s : State} {x0} (h_sas : .sas ∈ ps) :
    ({ s with sas := x0 } : State).outside ps = s.outside ps := by simp only [State.outside, h_sas, if_true]

@[simp] theorem outside_upd_scratch {ps : List Part} {s : State} {x0} (h_scratch : .scratch ∈ ps) :
    ({ s with scratch := x0 } : State).outside ps = s.outside ps := by simp only [State.outside, h_scratch, if_true]

@[simp] theorem outside_upd_sensors {ps : List Part} {s : State} {x0} (h_sensors : .sensors ∈ ps) :
    ({ s with sensors := x0 } : State).outside ps = s.outside ps := by simp only [State.outside, h_sensors, if_true]

@[simp] theorem outside_upd_smbRsp {ps : List Part} {s : State} {x0} (h_smbRsp : .smbRsp ∈ ps) :
    ({ s with smbRsp := x0 } : State).outside ps = s.outside ps := by simp only [State.outside, h_smbRsp, if_true]

@[simp] theorem outside_upd_smbus {ps : List Part} {s : State} {x0} (h_smbus : .smbus ∈ ps) :
    ({ s with smbus := x0 } : State).outside ps = s.outside ps := by simp only [State.outside, h_smbus, if_true]

@[simp] theorem outside_upd_tellers {ps : List Part} {s : State} {x0} (h_tellers : .tellers ∈ ps) :
    ({ s with tellers := x0 } : State).outside ps = s.outside ps := by simp only [State.outside, h_tellers, if_true]

@[simp] theorem outside_upd_vaults {ps : List Part} {s : State} {x0} (h_vaults : .vaults ∈ ps) :
    ({ s with vaults := x0 } : State).outside ps = s.outside ps := by simp only [State.outside, h_vaults, if_true]

@[simp] theorem outside_upd_vols {ps : List Part} {s : State} {x0} (h_vols : .vols ∈ ps) :
    ({ s with vols := x0 } : State).outside ps = s.outside ps := by simp only [State.outside, h_vols, if_true]

@[simp] theorem outside_upd_wickets {ps : List Part} {s : State} {x0} (h_wickets : .wickets ∈ ps) :
    ({ s with wickets := x0 } : State).outside ps = s.outside ps := by simp only [State.outside, h_wickets, if_true]

@[simp] theorem outside_upd_works {ps : List Part} {s : State} {x0} (h_works : .works ∈ ps) :
    ({ s with works := x0 } : State).outside ps = s.outside ps := by simp only [State.outside, h_works, if_true]

@[simp] theorem outside_upd_bands_registry {ps : List Part} {s : State} {x0 x1} (h_bands : .bands ∈ ps) (h_registry : .registry ∈ ps) :
    ({ s with bands := x0, registry := x1 } : State).outside ps = s.outside ps := by simp only [State.outside, h_bands, h_registry, if_true]

@[simp] theorem outside_upd_bands_reshapes {ps : List Part} {s : State} {x0 x1} (h_bands : .bands ∈ ps) (h_reshapes : .reshapes ∈ ps) :
    ({ s with bands := x0, reshapes := x1 } : State).outside ps = s.outside ps := by simp only [State.outside, h_bands, h_reshapes, if_true]

@[simp] theorem outside_upd_cfg_power {ps : List Part} {s : State} {x0 x1} (h_cfg : .cfg ∈ ps) (h_power : .power ∈ ps) :
    ({ s with cfg := x0, power := x1 } : State).outside ps = s.outside ps := by simp only [State.outside, h_cfg, h_power, if_true]

@[simp] theorem outside_upd_cfg_rsp {ps : List Part} {s : State} {x0 x1} (h_cfg : .cfg ∈ ps) (h_rsp : .rsp ∈ ps) :
    ({ s with cfg := x0, rsp := x1 } : State).outside ps = s.outside ps := by simp only [State.outside, h_cfg, h_rsp, if_true]

@[simp] theorem outside_upd_chain_pair {ps : List Part} {s : State} {x0 x1} (h_chain : .chain ∈ ps) (h_pair : .pair ∈ ps) :
    ({ s with chain := x0, pair := x1 } : State).outside ps = s.outside ps := by simp only [State.outside, h_chain, h_pair, if_true]

@[simp] theorem outside_upd_chip_ints {ps : List Part} {s : State} {x0 x1} (h_chip : .chip ∈ ps) (h_ints : .ints ∈ ps) :
    ({ s with chip := x0, ints := x1 } : State).outside ps = s.outside ps := by simp only [State.outside, h_chip, h_ints, if_true]

@[simp] theorem outside_upd_chip_registry {ps : List Part} {s : State} {x0 x1} (h_chip : .chip ∈ ps) (h_registry : .registry ∈ ps) :
    ({ s with chip := x0, registry := x1 } : State).outside ps = s.outside ps := by simp only [State.outside, h_chip, h_registry, if_true]

@[simp] theorem outside_upd_chip_reserves {ps : List Part} {s : State} {x0 x1} (h_chip : .chip ∈ ps) (h_reserves : .reserves ∈ ps) :
    ({ s with chip := x0, reserves := x1 } : State).outside ps = s.outside ps := by simp only [State.outside, h_chip, h_reserves, if_true]

@[simp] theorem outside_upd_chip_vols {ps : List Part} {s : State} {x0 x1} (h_chip : .chip ∈ ps) (h_vols : .vols ∈ ps) :
    ({ s with chip := x0, vols := x1 } : State).outside ps = s.outside ps := by simp only [State.outside, h_chip, h_vols, if_true]

@[simp] theorem outside_upd_closers_vaults {ps : List Part} {s : State} {x0 x1} (h_closers : .closers ∈ ps) (h_vaults : .vaults ∈ ps) :
    ({ s with closers := x0, vaults := x1 } : State).outside ps = s.outside ps := by simp only [State.outside, h_closers, h_vaults, if_true]

@[simp] theorem outside_upd_degrade_cache {ps : List Part} {s : State} {x0 x1} (h_degrade : .degrade ∈ ps) (h_cache : .cache ∈ ps) :
    ({ s with degrade := x0, cache := x1 } : State).outside ps = s.outside ps := by simp only [State.outside, h_degrade, h_cache, if_true]

@[simp] theorem outside_upd_degrade_registry {ps : List Part} {s : State} {x0 x1} (h_degrade : .degrade ∈ ps) (h_registry : .registry ∈ ps) :
    ({ s with degrade := x0, registry := x1 } : State).outside ps = s.outside ps := by simp only [State.outside, h_degrade, h_registry, if_true]

@[simp] theorem outside_upd_degrade_reshapes {ps : List Part} {s : State} {x0 x1} (h_degrade : .degrade ∈ ps) (h_reshapes : .reshapes ∈ ps) :
    ({ s with degrade := x0, reshapes := x1 } : State).outside ps = s.outside ps := by simp only [State.outside, h_degrade, h_reshapes, if_true]

@[simp] theorem outside_upd_drives_degrade {ps : List Part} {s : State} {x0 x1} (h_drives : .drives ∈ ps) (h_degrade : .degrade ∈ ps) :
    ({ s with drives := x0, degrade := x1 } : State).outside ps = s.outside ps := by simp only [State.outside, h_drives, h_degrade, if_true]

@[simp] theorem outside_upd_drives_pair {ps : List Part} {s : State} {x0 x1} (h_drives : .drives ∈ ps) (h_pair : .pair ∈ ps) :
    ({ s with drives := x0, pair := x1 } : State).outside ps = s.outside ps := by simp only [State.outside, h_drives, h_pair, if_true]

@[simp] theorem outside_upd_drives_vaults {ps : List Part} {s : State} {x0 x1} (h_drives : .drives ∈ ps) (h_vaults : .vaults ∈ ps) :
    ({ s with drives := x0, vaults := x1 } : State).outside ps = s.outside ps := by simp only [State.outside, h_drives, h_vaults, if_true]

@[simp] theorem outside_upd_flash_free {ps : List Part} {s : State} {x0 x1} (h_flash : .flash ∈ ps) (h_free : .free ∈ ps) :
    ({ s with flash := x0, free := x1 } : State).outside ps = s.outside ps := by simp only [State.outside, h_flash, h_free, if_true]

@[simp] theorem outside_upd_fuses_reserves {ps : List Part} {s : State} {x0 x1} (h_fuses : .fuses ∈ ps) (h_reserves : .reserves ∈ ps) :
    ({ s with fuses := x0, reserves := x1 } : State).outside ps = s.outside ps := by simp only [State.outside, h_fuses, h_reserves, if_true]

@[simp] theorem outside_upd_ints_cfg {ps : List Part} {s : State} {x0 x1} (h_ints : .ints ∈ ps) (h_cfg : .cfg ∈ ps) :
    ({ s with ints := x0, cfg := x1 } : State).outside ps = s.outside ps := by simp only [State.outside, h_ints, h_cfg, if_true]

@[simp] theorem outside_upd_ledger_cmds {ps : List Part} {s : State} {x0 x1} (h_ledger : .ledger ∈ ps) (h_cmds : .cmds ∈ ps) :
    ({ s with ledger := x0, cmds := x1 } : State).outside ps = s.outside ps := by simp only [State.outside, h_ledger, h_cmds, if_true]

@[simp] theorem outside_upd_ledger_pair {ps : List Part} {s : State} {x0 x1} (h_ledger : .ledger ∈ ps) (h_pair : .pair ∈ ps) :
    ({ s with ledger := x0, pair := x1 } : State).outside ps = s.outside ps := by simp only [State.outside, h_ledger, h_pair, if_true]

@[simp] theorem outside_upd_ledger_plans {ps : List Part} {s : State} {x0 x1} (h_ledger : .ledger ∈ ps) (h_plans : .plans ∈ ps) :
    ({ s with ledger := x0, plans := x1 } : State).outside ps = s.outside ps := by simp only [State.outside, h_ledger, h_plans, if_true]

@[simp] theorem outside_upd_ledger_registry {ps : List Part} {s : State} {x0 x1} (h_ledger : .ledger ∈ ps) (h_registry : .registry ∈ ps) :
    ({ s with ledger := x0, registry := x1 } : State).outside ps = s.outside ps := by simp only [State.outside, h_ledger, h_registry, if_true]

@[simp] theorem outside_upd_ledger_vaults {ps : List Part} {s : State} {x0 x1} (h_ledger : .ledger ∈ ps) (h_vaults : .vaults ∈ ps) :
    ({ s with ledger := x0, vaults := x1 } : State).outside ps = s.outside ps := by simp only [State.outside, h_ledger, h_vaults, if_true]

@[simp] theorem outside_upd_ledger_wickets {ps : List Part} {s : State} {x0 x1} (h_ledger : .ledger ∈ ps) (h_wickets : .wickets ∈ ps) :
    ({ s with ledger := x0, wickets := x1 } : State).outside ps = s.outside ps := by simp only [State.outside, h_ledger, h_wickets, if_true]

@[simp] theorem outside_upd_link_hostMem {ps : List Part} {s : State} {x0 x1} (h_link : .link ∈ ps) (h_hostMem : .hostMem ∈ ps) :
    ({ s with link := x0, hostMem := x1 } : State).outside ps = s.outside ps := by simp only [State.outside, h_link, h_hostMem, if_true]

@[simp] theorem outside_upd_link_resets {ps : List Part} {s : State} {x0 x1} (h_link : .link ∈ ps) (h_resets : .resets ∈ ps) :
    ({ s with link := x0, resets := x1 } : State).outside ps = s.outside ps := by simp only [State.outside, h_link, h_resets, if_true]

@[simp] theorem outside_upd_link_rsp {ps : List Part} {s : State} {x0 x1} (h_link : .link ∈ ps) (h_rsp : .rsp ∈ ps) :
    ({ s with link := x0, rsp := x1 } : State).outside ps = s.outside ps := by simp only [State.outside, h_link, h_rsp, if_true]

@[simp] theorem outside_upd_map_dram {ps : List Part} {s : State} {x0 x1} (h_map : .map ∈ ps) (h_dram : .dram ∈ ps) :
    ({ s with map := x0, dram := x1 } : State).outside ps = s.outside ps := by simp only [State.outside, h_map, h_dram, if_true]

@[simp] theorem outside_upd_power_mgmt {ps : List Part} {s : State} {x0 x1} (h_power : .power ∈ ps) (h_mgmt : .mgmt ∈ ps) :
    ({ s with power := x0, mgmt := x1 } : State).outside ps = s.outside ps := by simp only [State.outside, h_power, h_mgmt, if_true]

@[simp] theorem outside_upd_returns_courier {ps : List Part} {s : State} {x0 x1} (h_returns : .returns ∈ ps) (h_courier : .courier ∈ ps) :
    ({ s with returns := x0, courier := x1 } : State).outside ps = s.outside ps := by simp only [State.outside, h_returns, h_courier, if_true]

@[simp] theorem outside_upd_smbus_smbRsp {ps : List Part} {s : State} {x0 x1} (h_smbus : .smbus ∈ ps) (h_smbRsp : .smbRsp ∈ ps) :
    ({ s with smbus := x0, smbRsp := x1 } : State).outside ps = s.outside ps := by simp only [State.outside, h_smbus, h_smbRsp, if_true]

@[simp] theorem outside_upd_wickets_rsp {ps : List Part} {s : State} {x0 x1} (h_wickets : .wickets ∈ ps) (h_rsp : .rsp ∈ ps) :
    ({ s with wickets := x0, rsp := x1 } : State).outside ps = s.outside ps := by simp only [State.outside, h_wickets, h_rsp, if_true]

@[simp] theorem outside_upd_works_nextWork {ps : List Part} {s : State} {x0 x1} (h_works : .works ∈ ps) (h_nextWork : .nextWork ∈ ps) :
    ({ s with works := x0, nextWork := x1 } : State).outside ps = s.outside ps := by simp only [State.outside, h_works, h_nextWork, if_true]

@[simp] theorem outside_upd_cfg_link_rsp {ps : List Part} {s : State} {x0 x1 x2} (h_cfg : .cfg ∈ ps) (h_link : .link ∈ ps) (h_rsp : .rsp ∈ ps) :
    ({ s with cfg := x0, link := x1, rsp := x2 } : State).outside ps = s.outside ps := by simp only [State.outside, h_cfg, h_link, h_rsp, if_true]

@[simp] theorem outside_upd_ledger_bands_mgmt {ps : List Part} {s : State} {x0 x1 x2} (h_ledger : .ledger ∈ ps) (h_bands : .bands ∈ ps) (h_mgmt : .mgmt ∈ ps) :
    ({ s with ledger := x0, bands := x1, mgmt := x2 } : State).outside ps = s.outside ps := by simp only [State.outside, h_ledger, h_bands, h_mgmt, if_true]

@[simp] theorem outside_upd_ledger_chain_pair {ps : List Part} {s : State} {x0 x1 x2} (h_ledger : .ledger ∈ ps) (h_chain : .chain ∈ ps) (h_pair : .pair ∈ ps) :
    ({ s with ledger := x0, chain := x1, pair := x2 } : State).outside ps = s.outside ps := by simp only [State.outside, h_ledger, h_chain, h_pair, if_true]

@[simp] theorem outside_upd_vols_bands_reshapes {ps : List Part} {s : State} {x0 x1 x2} (h_vols : .vols ∈ ps) (h_bands : .bands ∈ ps) (h_reshapes : .reshapes ∈ ps) :
    ({ s with vols := x0, bands := x1, reshapes := x2 } : State).outside ps = s.outside ps := by simp only [State.outside, h_vols, h_bands, h_reshapes, if_true]

@[simp] theorem outside_upd_vols_degrade_reshapes {ps : List Part} {s : State} {x0 x1 x2} (h_vols : .vols ∈ ps) (h_degrade : .degrade ∈ ps) (h_reshapes : .reshapes ∈ ps) :
    ({ s with vols := x0, degrade := x1, reshapes := x2 } : State).outside ps = s.outside ps := by simp only [State.outside, h_vols, h_degrade, h_reshapes, if_true]

@[simp] theorem outside_upd_wickets_cmds_vaults {ps : List Part} {s : State} {x0 x1 x2} (h_wickets : .wickets ∈ ps) (h_cmds : .cmds ∈ ps) (h_vaults : .vaults ∈ ps) :
    ({ s with wickets := x0, cmds := x1, vaults := x2 } : State).outside ps = s.outside ps := by simp only [State.outside, h_wickets, h_cmds, h_vaults, if_true]

@[simp] theorem outside_upd_chip_cfg_link_resets {ps : List Part} {s : State} {x0 x1 x2 x3} (h_chip : .chip ∈ ps) (h_cfg : .cfg ∈ ps) (h_link : .link ∈ ps) (h_resets : .resets ∈ ps) :
    ({ s with chip := x0, cfg := x1, link := x2, resets := x3 } : State).outside ps = s.outside ps := by simp only [State.outside, h_chip, h_cfg, h_link, h_resets, if_true]

@[simp] theorem outside_upd_chip_closers_wickets_pair {ps : List Part} {s : State} {x0 x1 x2 x3} (h_chip : .chip ∈ ps) (h_closers : .closers ∈ ps) (h_wickets : .wickets ∈ ps) (h_pair : .pair ∈ ps) :
    ({ s with chip := x0, closers := x1, wickets := x2, pair := x3 } : State).outside ps = s.outside ps := by simp only [State.outside, h_chip, h_closers, h_wickets, h_pair, if_true]

@[simp] theorem outside_upd_ints_cfg_link_resets {ps : List Part} {s : State} {x0 x1 x2 x3} (h_ints : .ints ∈ ps) (h_cfg : .cfg ∈ ps) (h_link : .link ∈ ps) (h_resets : .resets ∈ ps) :
    ({ s with ints := x0, cfg := x1, link := x2, resets := x3 } : State).outside ps = s.outside ps := by simp only [State.outside, h_ints, h_cfg, h_link, h_resets, if_true]

@[simp] theorem outside_upd_ledger_wickets_returns_resets {ps : List Part} {s : State} {x0 x1 x2 x3} (h_ledger : .ledger ∈ ps) (h_wickets : .wickets ∈ ps) (h_returns : .returns ∈ ps) (h_resets : .resets ∈ ps) :
    ({ s with ledger := x0, wickets := x1, returns := x2, resets := x3 } : State).outside ps = s.outside ps := by simp only [State.outside, h_ledger, h_wickets, h_returns, h_resets, if_true]

@[simp] theorem outside_upd_plans_works_holds_gov {ps : List Part} {s : State} {x0 x1 x2 x3} (h_plans : .plans ∈ ps) (h_works : .works ∈ ps) (h_holds : .holds ∈ ps) (h_gov : .gov ∈ ps) :
    ({ s with plans := x0, works := x1, holds := x2, gov := x3 } : State).outside ps = s.outside ps := by simp only [State.outside, h_plans, h_works, h_holds, h_gov, if_true]

@[simp] theorem outside_upd_works_drives_cmds_vaults {ps : List Part} {s : State} {x0 x1 x2 x3} (h_works : .works ∈ ps) (h_drives : .drives ∈ ps) (h_cmds : .cmds ∈ ps) (h_vaults : .vaults ∈ ps) :
    ({ s with works := x0, drives := x1, cmds := x2, vaults := x3 } : State).outside ps = s.outside ps := by simp only [State.outside, h_works, h_drives, h_cmds, h_vaults, if_true]

@[simp] theorem outside_upd_chip_ledger_degrade_reshapes_mgmt {ps : List Part} {s : State} {x0 x1 x2 x3 x4} (h_chip : .chip ∈ ps) (h_ledger : .ledger ∈ ps) (h_degrade : .degrade ∈ ps) (h_reshapes : .reshapes ∈ ps) (h_mgmt : .mgmt ∈ ps) :
    ({ s with chip := x0, ledger := x1, degrade := x2, reshapes := x3, mgmt := x4 } : State).outside ps = s.outside ps := by simp only [State.outside, h_chip, h_ledger, h_degrade, h_reshapes, h_mgmt, if_true]

@[simp] theorem outside_upd_ledger_drives_cmds_returns_pair {ps : List Part} {s : State} {x0 x1 x2 x3 x4} (h_ledger : .ledger ∈ ps) (h_drives : .drives ∈ ps) (h_cmds : .cmds ∈ ps) (h_returns : .returns ∈ ps) (h_pair : .pair ∈ ps) :
    ({ s with ledger := x0, drives := x1, cmds := x2, returns := x3, pair := x4 } : State).outside ps = s.outside ps := by simp only [State.outside, h_ledger, h_drives, h_cmds, h_returns, h_pair, if_true]

@[simp] theorem outside_upd_closers_ledger_bands_vaults_daybook_reserves {ps : List Part} {s : State} {x0 x1 x2 x3 x4 x5} (h_closers : .closers ∈ ps) (h_ledger : .ledger ∈ ps) (h_bands : .bands ∈ ps) (h_vaults : .vaults ∈ ps) (h_daybook : .daybook ∈ ps) (h_reserves : .reserves ∈ ps) :
    ({ s with closers := x0, ledger := x1, bands := x2, vaults := x3, daybook := x4, reserves := x5 } : State).outside ps = s.outside ps := by simp only [State.outside, h_closers, h_ledger, h_bands, h_vaults, h_daybook, h_reserves, if_true]

@[simp] theorem outside_upd_ledger_gov_degrade_pair_map_cache {ps : List Part} {s : State} {x0 x1 x2 x3 x4 x5} (h_ledger : .ledger ∈ ps) (h_gov : .gov ∈ ps) (h_degrade : .degrade ∈ ps) (h_pair : .pair ∈ ps) (h_map : .map ∈ ps) (h_cache : .cache ∈ ps) :
    ({ s with ledger := x0, gov := x1, degrade := x2, pair := x3, map := x4, cache := x5 } : State).outside ps = s.outside ps := by simp only [State.outside, h_ledger, h_gov, h_degrade, h_pair, h_map, h_cache, if_true]

@[simp] theorem outside_upd_chip_charter_ledger_vols_sas_gov_vaults {ps : List Part} {s : State} {x0 x1 x2 x3 x4 x5 x6} (h_chip : .chip ∈ ps) (h_charter : .charter ∈ ps) (h_ledger : .ledger ∈ ps) (h_vols : .vols ∈ ps) (h_sas : .sas ∈ ps) (h_gov : .gov ∈ ps) (h_vaults : .vaults ∈ ps) :
    ({ s with chip := x0, charter := x1, ledger := x2, vols := x3, sas := x4, gov := x5, vaults := x6 } : State).outside ps = s.outside ps := by simp only [State.outside, h_chip, h_charter, h_ledger, h_vols, h_sas, h_gov, h_vaults, if_true]

@[simp] theorem outside_upd_wickets_returns_ints_cfg_link_power_resets_feats {ps : List Part} {s : State} {x0 x1 x2 x3 x4 x5 x6 x7} (h_wickets : .wickets ∈ ps) (h_returns : .returns ∈ ps) (h_ints : .ints ∈ ps) (h_cfg : .cfg ∈ ps) (h_link : .link ∈ ps) (h_power : .power ∈ ps) (h_resets : .resets ∈ ps) (h_feats : .feats ∈ ps) :
    ({ s with wickets := x0, returns := x1, ints := x2, cfg := x3, link := x4, power := x5, resets := x6, feats := x7 } : State).outside ps = s.outside ps := by simp only [State.outside, h_wickets, h_returns, h_ints, h_cfg, h_link, h_power, h_resets, h_feats, if_true]

@[simp] theorem outside_upd_pending_fuses_flash_closers_ledger_drives_degrade_vaults_pair_mgmt_daybook_reserves_registry_hostMem_free {ps : List Part} {s : State} {x0 x1 x2 x3 x4 x5 x6 x7 x8 x9 x10 x11 x12 x13 x14} (h_pending : .pending ∈ ps) (h_fuses : .fuses ∈ ps) (h_flash : .flash ∈ ps) (h_closers : .closers ∈ ps) (h_ledger : .ledger ∈ ps) (h_drives : .drives ∈ ps) (h_degrade : .degrade ∈ ps) (h_vaults : .vaults ∈ ps) (h_pair : .pair ∈ ps) (h_mgmt : .mgmt ∈ ps) (h_daybook : .daybook ∈ ps) (h_reserves : .reserves ∈ ps) (h_registry : .registry ∈ ps) (h_hostMem : .hostMem ∈ ps) (h_free : .free ∈ ps) :
    ({ s with pending := x0, fuses := x1, flash := x2, closers := x3, ledger := x4, drives := x5, degrade := x6, vaults := x7, pair := x8, mgmt := x9, daybook := x10, reserves := x11, registry := x12, hostMem := x13, free := x14 } : State).outside ps = s.outside ps := by simp only [State.outside, h_pending, h_fuses, h_flash, h_closers, h_ledger, h_drives, h_degrade, h_vaults, h_pair, h_mgmt, h_daybook, h_reserves, h_registry, h_hostMem, h_free, if_true]

@[simp] theorem outside_ite {ps : List Part} {c : Prop} [Decidable c] {s t : State} :
    (if c then s else t).outside ps = if c then s.outside ps else t.outside ps := by split <;> rfl

/-- A fold of steps that each leave the outside alone leaves it alone. -/
@[simp] theorem outside_foldl {ps : List Part} {α : Type} {l : List α} {f : State → α → State} {s : State}
    (h : ∀ u x, (f u x).outside ps = u.outside ps) : (l.foldl f s).outside ps = s.outside ps := by
  induction l generalizing s with
  | nil => rfl
  | cons a l ih => rw [List.foldl_cons, ih, h]

/-- The same for a fold that carries something beside the state. -/
theorem outside_pairFold {ps : List Part} {α β : Type} {l : List α} {f : State × β → α → State × β} {p : State × β}
    (h : ∀ q x, (f q x).1.outside ps = q.1.outside ps) : (l.foldl f p).1.outside ps = p.1.outside ps := by
  induction l generalizing p with
  | nil => rfl
  | cons a l ih => rw [List.foldl_cons, ih, h]

/-- The same for a fold of steps that may fail. -/
theorem outside_bindFold {ps : List Part} {α : Type} {l : List α} {f : State → α → Option State} {o : Option State} {t : State}
    (h : ∀ u x v, f u x = some v → v.outside ps = u.outside ps) (ht : l.foldl (fun o x => o.bind (fun s => f s x)) o = some t) :
    ∃ u, o = some u ∧ t.outside ps = u.outside ps := by
  induction l generalizing o with
  | nil => exact ⟨t, ht, rfl⟩
  | cons a l ih =>
    obtain ⟨u, hu, e⟩ := ih ht
    obtain ⟨w, hw, hf⟩ := Option.bind_eq_some_iff.mp hu
    exact ⟨w, hw, e.trans (h w a u hf)⟩

end Sys2Proof.Machine
end

