-- ==== Sys2Proof/Laws/Frame1.lean ====
section
/-! SUPPORT. What each operation leaves as it was: the state outside the parts it works on. -/

namespace Sys2Proof.Machine

set_option linter.all false

@[simp] theorem State_at_outside {ps : List Part} (s : State) (t : Nat) (h_clock : .clock ∈ ps) :
    (State.at s t).outside ps = s.outside ps := by
  unfold State.at
  repeat' first
    | (simp [h_clock]; done)
    | (rw [outside_foldl])
    | (intro _)
    | simp [h_clock]
    | split

@[simp] theorem takeFree_outside {ps : List Part} (s : State) (h_free : .free ∈ ps) :
    (takeFree s).1.outside ps = s.outside ps := by
  unfold takeFree
  repeat' first
    | (simp [h_free]; done)
    | (rw [outside_foldl])
    | (intro _)
    | simp [h_free]
    | split

@[simp] theorem hostWrite_outside {ps : List Part} (s : State) (a : Nat) (bs : List Byte) (h_link : .link ∈ ps) (h_hostMem : .hostMem ∈ ps) :
    (hostWrite s a bs).outside ps = s.outside ps := by
  unfold hostWrite
  repeat' first
    | (simp [h_link, h_hostMem]; done)
    | (rw [outside_foldl])
    | (intro _)
    | simp [h_link, h_hostMem]
    | split

@[simp] theorem emitMessage_outside {ps : List Part} (s : State) (v : Nat) (h_ints : .ints ∈ ps) (h_link : .link ∈ ps) (h_hostMem : .hostMem ∈ ps) :
    (emitMessage s v).outside ps = s.outside ps := by
  simp only [emitMessage]
  split <;> simp [h_link, h_hostMem, h_ints]

@[simp] theorem sendMessage_outside {ps : List Part} (s : State) (v : Nat) (h_ints : .ints ∈ ps) (h_link : .link ∈ ps) (h_hostMem : .hostMem ∈ ps) :
    (sendMessage s v).outside ps = s.outside ps := by
  unfold sendMessage
  repeat' first
    | (simp [h_ints, h_link, h_hostMem]; done)
    | (rw [outside_foldl])
    | (intro _)
    | simp [h_ints, h_link, h_hostMem]
    | split

@[simp] theorem updateIrq_outside {ps : List Part} (s : State) (h_ints : .ints ∈ ps) (h_link : .link ∈ ps) (h_hostMem : .hostMem ∈ ps) :
    (updateIrq s).outside ps = s.outside ps := by
  unfold updateIrq
  repeat' first
    | (simp [h_ints, h_link, h_hostMem]; done)
    | (rw [outside_foldl])
    | (intro _)
    | simp [h_ints, h_link, h_hostMem]
    | split

@[simp] theorem mgmtCause_outside {ps : List Part} (s : State) (n : Nat) (h_ints : .ints ∈ ps) (h_link : .link ∈ ps) (h_hostMem : .hostMem ∈ ps) :
    (mgmtCause s n).outside ps = s.outside ps := by
  unfold mgmtCause
  repeat' first
    | (simp [h_ints, h_link, h_hostMem]; done)
    | (rw [outside_foldl])
    | (intro _)
    | simp [h_ints, h_link, h_hostMem]
    | split

@[simp] theorem ringCause_outside {ps : List Part} (s : State) (n : Nat) (h_ints : .ints ∈ ps) (h_link : .link ∈ ps) (h_hostMem : .hostMem ∈ ps) :
    (ringCause s n).outside ps = s.outside ps := by
  unfold ringCause
  repeat' first
    | (simp [h_ints, h_link, h_hostMem]; done)
    | (rw [outside_foldl])
    | (intro _)
    | simp [h_ints, h_link, h_hostMem]
    | split

@[simp] theorem wakeUp_outside {ps : List Part} (s : State) (n : Nat) (h_ints : .ints ∈ ps) (h_cfg : .cfg ∈ ps) :
    (wakeUp s n).outside ps = s.outside ps := by
  unfold wakeUp
  repeat' first
    | (simp [h_ints, h_cfg]; done)
    | (rw [outside_foldl])
    | (intro _)
    | simp [h_ints, h_cfg]
    | split

@[simp] theorem daybookStart_outside {ps : List Part} (s : State) (h_daybook : .daybook ∈ ps) :
    (daybookStart s).outside ps = s.outside ps := by
  unfold daybookStart
  repeat' first
    | (simp [h_daybook]; done)
    | (rw [outside_foldl])
    | (intro _)
    | simp [h_daybook]
    | split

@[simp] theorem daybookMerge_outside {ps : List Part} (s : State) (r : DbRec) (h_daybook : .daybook ∈ ps) :
    (daybookMerge s r).outside ps = s.outside ps := by
  unfold daybookMerge
  repeat' first
    | (simp [h_daybook]; done)
    | (rw [outside_foldl])
    | (intro _)
    | simp [h_daybook]
    | split

@[simp] theorem enqueueTrigger_outside {ps : List Part} (s : State) (r : DbRec) (h_daybook : .daybook ∈ ps) :
    (enqueueTrigger s r).outside ps = s.outside ps := by
  unfold enqueueTrigger
  repeat' first
    | (simp [h_daybook]; done)
    | (rw [outside_foldl])
    | (intro _)
    | simp [h_daybook]
    | split

@[simp] theorem placeTrigger_outside {ps : List Part} (s : State) (r : DbRec) (h_daybook : .daybook ∈ ps) :
    (placeTrigger s r).outside ps = s.outside ps := by
  unfold placeTrigger
  repeat' first
    | (simp [h_daybook]; done)
    | (rw [outside_foldl])
    | (intro _)
    | simp [h_daybook]
    | split

@[simp] theorem fireNow_outside {ps : List Part} (s : State) (kind : Nat) (cause : Nat) (arg : Nat) (detail : List Byte) (extra : List Byte) (alert : Bool) (h_daybook : .daybook ∈ ps) :
    (fireNow s kind cause arg detail extra alert).outside ps = s.outside ps := by
  unfold fireNow
  repeat' first
    | (simp [h_daybook]; done)
    | (rw [outside_foldl])
    | (intro _)
    | simp [h_daybook]
    | split

@[simp] theorem fireKey_outside {ps : List Part} (s : State) (kind : Nat) (cause : Nat) (arg : Nat) (detail : List Byte) (extra : List Byte) (alert : Bool) (h_daybook : .daybook ∈ ps) :
    (fireKey s kind cause arg detail extra alert).outside ps = s.outside ps := by
  unfold fireKey
  repeat' first
    | (simp [h_daybook]; done)
    | (rw [outside_foldl])
    | (intro _)
    | simp [h_daybook]
    | split

@[simp] theorem fireHeld_outside {ps : List Part} (s : State) (h_daybook : .daybook ∈ ps) :
    (fireHeld s).outside ps = s.outside ps := by
  unfold fireHeld
  repeat' first
    | (simp [h_daybook]; done)
    | (rw [outside_foldl])
    | (intro _)
    | simp [h_daybook]
    | split

@[simp] theorem fire_outside {ps : List Part} (s : State) (kind : Nat) (cause : Nat) (arg : Nat) (detail : List Byte) (alert : Bool) (h_daybook : .daybook ∈ ps) :
    (fire s kind cause arg detail alert).outside ps = s.outside ps := by
  unfold fire
  repeat' first
    | (simp [h_daybook]; done)
    | (rw [outside_foldl])
    | (intro _)
    | simp [h_daybook]
    | split

@[simp] theorem daybookStore_outside {ps : List Part} (s : State) (seq : Nat) (r : DbRec) (h_ints : .ints ∈ ps) (h_link : .link ∈ ps) (h_daybook : .daybook ∈ ps) (h_hostMem : .hostMem ∈ ps) :
    (daybookStore s seq r).outside ps = s.outside ps := by
  unfold daybookStore
  repeat' first
    | (simp [h_ints, h_link, h_daybook, h_hostMem]; done)
    | (rw [outside_foldl])
    | (intro _)
    | simp [h_ints, h_link, h_daybook, h_hostMem]
    | split

@[simp] theorem history_outside {ps : List Part} (s : State) (element : Nat) (action : Nat) (cause : Nat) (physical : Nat) (logical : Nat) (h_ints : .ints ∈ ps) (h_link : .link ∈ ps) (h_daybook : .daybook ∈ ps) (h_reserves : .reserves ∈ ps) (h_hostMem : .hostMem ∈ ps) :
    (history s element action cause physical logical).outside ps = s.outside ps := by
  unfold history
  repeat' first
    | (simp [h_ints, h_link, h_daybook, h_reserves, h_hostMem]; done)
    | (rw [outside_foldl])
    | (intro _)
    | simp [h_ints, h_link, h_daybook, h_reserves, h_hostMem]
    | split

@[simp] theorem setPair_outside {ps : List Part} (s : State) (role : Nat) (mode : Nat) (alert : Bool) (h_ints : .ints ∈ ps) (h_link : .link ∈ ps) (h_pair : .pair ∈ ps) (h_daybook : .daybook ∈ ps) (h_hostMem : .hostMem ∈ ps) :
    (setPair s role mode alert).outside ps = s.outside ps := by
  unfold setPair
  repeat' first
    | (simp [h_ints, h_link, h_pair, h_daybook, h_hostMem]; done)
    | (rw [outside_foldl])
    | (intro _)
    | simp [h_ints, h_link, h_pair, h_daybook, h_hostMem]
    | split

@[simp] theorem setCloserMode_outside {ps : List Part} (s : State) (m : Nat) (h_closers : .closers ∈ ps) (h_ints : .ints ∈ ps) (h_link : .link ∈ ps) (h_hostMem : .hostMem ∈ ps) :
    (setCloserMode s m).outside ps = s.outside ps := by
  unfold setCloserMode
  repeat' first
    | (simp [h_closers, h_ints, h_link, h_hostMem]; done)
    | (rw [outside_foldl])
    | (intro _)
    | simp [h_closers, h_ints, h_link, h_hostMem]
    | split

@[simp] theorem setAllWickets_outside {ps : List Part} (s : State) (f : Wicket → Wicket) (h_wickets : .wickets ∈ ps) :
    (setAllWickets s f).outside ps = s.outside ps := by
  unfold setAllWickets
  repeat' first
    | (simp [h_wickets]; done)
    | (rw [outside_foldl])
    | (intro _)
    | simp [h_wickets]
    | split

@[simp] theorem halt_outside {ps : List Part} (s : State) (h_chip : .chip ∈ ps) (h_closers : .closers ∈ ps) (h_wickets : .wickets ∈ ps) (h_ints : .ints ∈ ps) (h_link : .link ∈ ps) (h_pair : .pair ∈ ps) (h_daybook : .daybook ∈ ps) (h_hostMem : .hostMem ∈ ps) :
    (halt s).outside ps = s.outside ps := by
  unfold halt
  repeat' first
    | (simp [h_chip, h_closers, h_wickets, h_ints, h_link, h_pair, h_daybook, h_hostMem]; done)
    | (rw [outside_foldl])
    | (intro _)
    | simp [h_chip, h_closers, h_wickets, h_ints, h_link, h_pair, h_daybook, h_hostMem]
    | split

@[simp] theorem streamSend_outside {ps : List Part} (s : State) (ws : List (List Byte)) (h_chain : .chain ∈ ps) :
    (streamSend s ws).outside ps = s.outside ps := by
  unfold streamSend
  repeat' first
    | (simp [h_chain]; done)
    | (rw [outside_foldl])
    | (intro _)
    | simp [h_chain]
    | split

@[simp] theorem streamRecord_outside {ps : List Part} (s : State) (r : Rec) (h_chain : .chain ∈ ps) :
    (streamRecord s r).outside ps = s.outside ps := by
  unfold streamRecord
  repeat' first
    | (simp [h_chain]; done)
    | (rw [outside_foldl])
    | (intro _)
    | simp [h_chain]
    | split

@[simp] theorem modRec_outside {ps : List Part} (s : State) (seq : Nat) (f : Rec → Rec) (h_ledger : .ledger ∈ ps) :
    (modRec s seq f).outside ps = s.outside ps := by
  unfold modRec
  repeat' first
    | (simp [h_ledger]; done)
    | (rw [outside_foldl])
    | (intro _)
    | simp [h_ledger]
    | split

@[simp] theorem recComplete_outside {ps : List Part} (s : State) (seq : Nat) (h_ledger : .ledger ∈ ps) :
    (recComplete s seq).outside ps = s.outside ps := by
  unfold recComplete
  repeat' first
    | (simp [h_ledger]; done)
    | (rw [outside_foldl])
    | (intro _)
    | simp [h_ledger]
    | split

@[simp] theorem addRec_outside {ps : List Part} (s : State) (r : Rec) (h_ledger : .ledger ∈ ps) :
    (addRec s r).1.outside ps = s.outside ps := by
  unfold addRec
  repeat' first
    | (simp [h_ledger]; done)
    | (rw [outside_foldl])
    | (intro _)
    | simp [h_ledger]
    | split

@[simp] theorem modBlock_outside {ps : List Part} (s : State) (b : Nat) (f : Block → Block) (h_ledger : .ledger ∈ ps) :
    (modBlock s b f).outside ps = s.outside ps := by
  unfold modBlock
  repeat' first
    | (simp [h_ledger]; done)
    | (rw [outside_foldl])
    | (intro _)
    | simp [h_ledger]
    | split

@[simp] theorem writeCopies_outside {ps : List Part} (s : State) (area : Nat) (off : Nat) (words : Nat) (h_ledger : .ledger ∈ ps) :
    (writeCopies s area off words).outside ps = s.outside ps := by
  unfold writeCopies
  repeat' first
    | (simp [h_ledger]; done)
    | (rw [outside_foldl])
    | (intro _)
    | simp [h_ledger]
    | split

@[simp] theorem appendCopies_outside {ps : List Part} (s : State) (area : Nat) (words : Nat) (h_ledger : .ledger ∈ ps) :
    (appendCopies s area words).outside ps = s.outside ps := by
  unfold appendCopies
  repeat' first
    | (simp [h_ledger]; done)
    | (rw [outside_foldl])
    | (intro _)
    | simp [h_ledger]
    | split

@[simp] theorem countRecord_outside {ps : List Part} (s : State) (r : Rec) (h_ledger : .ledger ∈ ps) :
    (countRecord s r).outside ps = s.outside ps := by
  unfold countRecord
  repeat' first
    | (simp [h_ledger]; done)
    | (rw [outside_foldl])
    | (intro _)
    | simp [h_ledger]
    | split

@[simp] theorem recWhole_outside {ps : List Part} (s : State) (seq : Nat) (h_ledger : .ledger ∈ ps) (h_chain : .chain ∈ ps) :
    (recWhole s seq).outside ps = s.outside ps := by
  unfold recWhole
  repeat' first
    | (simp [h_ledger, h_chain]; done)
    | (rw [outside_foldl])
    | (intro _)
    | simp [h_ledger, h_chain]
    | split

@[simp] theorem recEnd_outside {ps : List Part} (s : State) (seq : Nat) (h_ledger : .ledger ∈ ps) (h_chain : .chain ∈ ps) :
    (recEnd s seq).outside ps = s.outside ps := by
  unfold recEnd
  repeat' first
    | (simp [h_ledger, h_chain]; done)
    | (rw [outside_foldl])
    | (intro _)
    | simp [h_ledger, h_chain]
    | split

@[simp] theorem writeRec_outside {ps : List Part} (s : State) (r : Rec) (h_ledger : .ledger ∈ ps) (h_chain : .chain ∈ ps) :
    (writeRec s r).1.outside ps = s.outside ps := by
  unfold writeRec
  repeat' first
    | (simp [h_ledger, h_chain]; done)
    | (rw [outside_foldl])
    | (intro _)
    | simp [h_ledger, h_chain]
    | split
  all_goals
    have e := congrArg (fun p => State.outside ps p.1) ‹_ = (_, _)›
    simp [h_ledger, h_chain] at e
    simp [h_ledger, h_chain, e]

@[simp] theorem writeLate_outside {ps : List Part} (s : State) (h_ledger : .ledger ∈ ps) (h_chain : .chain ∈ ps) :
    (writeLate s).outside ps = s.outside ps := by
  unfold writeLate
  repeat' first
    | (simp [h_ledger, h_chain]; done)
    | (rw [outside_foldl])
    | (intro _)
    | simp [h_ledger, h_chain]
    | split

@[simp] theorem mapRecord_outside {ps : List Part} (s : State) (volume : Nat) (region : Nat) (set : Bool) (h_ledger : .ledger ∈ ps) (h_chain : .chain ∈ ps) :
    (mapRecord s volume region set).outside ps = s.outside ps := by
  unfold mapRecord
  repeat' first
    | (simp [h_ledger, h_chain]; done)
    | (rw [outside_foldl])
    | (intro _)
    | simp [h_ledger, h_chain]
    | split
  all_goals
    have e := congrArg (fun p => State.outside ps p.1) ‹_ = (_, _)›
    simp [h_ledger, h_chain] at e
    simp [h_ledger, h_chain, e]

@[simp] theorem bandRecord_outside {ps : List Part} (s : State) (b : Band) (h_ledger : .ledger ∈ ps) (h_chain : .chain ∈ ps) :
    (bandRecord s b).1.outside ps = s.outside ps := by
  unfold bandRecord
  repeat' first
    | (simp [h_ledger, h_chain]; done)
    | (rw [outside_foldl])
    | (intro _)
    | simp [h_ledger, h_chain]
    | split
  all_goals
    have e := congrArg (fun p => State.outside ps p.1) ‹_ = (_, _)›
    simp [h_ledger, h_chain] at e
    simp [h_ledger, h_chain, e]

@[simp] theorem sendControl_outside {ps : List Part} (s : State) (typ : Nat) (body : List Byte) (h_chain : .chain ∈ ps) :
    (sendControl s typ body).outside ps = s.outside ps := by
  unfold sendControl
  repeat' first
    | (simp [h_chain]; done)
    | (rw [outside_foldl])
    | (intro _)
    | simp [h_chain]
    | split

@[simp] theorem releaseRec_outside {ps : List Part} (s : State) (seq : Nat) (h_ledger : .ledger ∈ ps) (h_chain : .chain ∈ ps) :
    (releaseRec s seq).outside ps = s.outside ps := by
  unfold releaseRec
  repeat' first
    | (simp [h_ledger, h_chain]; done)
    | (rw [outside_foldl])
    | (intro _)
    | simp [h_ledger, h_chain]
    | split

@[simp] theorem modCmd_outside {ps : List Part} (s : State) (tag : Nat) (f : Cmd → Cmd) (h_cmds : .cmds ∈ ps) :
    (modCmd s tag f).outside ps = s.outside ps := by
  unfold modCmd
  repeat' first
    | (simp [h_cmds]; done)
    | (rw [outside_foldl])
    | (intro _)
    | simp [h_cmds]
    | split

@[simp] theorem modWk_outside {ps : List Part} (s : State) (w : Nat) (f : Wicket → Wicket) (h_wickets : .wickets ∈ ps) :
    (modWk s w f).outside ps = s.outside ps := by
  unfold modWk
  repeat' first
    | (simp [h_wickets]; done)
    | (rw [outside_foldl])
    | (intro _)
    | simp [h_wickets]
    | split

@[simp] theorem modRg_outside {ps : List Part} (s : State) (n : Nat) (f : Ring → Ring) (h_returns : .returns ∈ ps) :
    (modRg s n f).outside ps = s.outside ps := by
  unfold modRg
  repeat' first
    | (simp [h_returns]; done)
    | (rw [outside_foldl])
    | (intro _)
    | simp [h_returns]
    | split

@[simp] theorem enqueue_outside {ps : List Part} (s : State) (n : Nat) (e : Entry) (h_returns : .returns ∈ ps) :
    (enqueue s n e).outside ps = s.outside ps := by
  unfold enqueue
  repeat' first
    | (simp [h_returns]; done)
    | (rw [outside_foldl])
    | (intro _)
    | simp [h_returns]
    | split

@[simp] theorem settle_outside {ps : List Part} (s : State) (h_cmds : .cmds ∈ ps) (h_returns : .returns ∈ ps) :
    (settle s).outside ps = s.outside ps := by
  unfold settle
  repeat' first
    | (simp [h_cmds, h_returns]; done)
    | (rw [outside_foldl])
    | (intro _)
    | simp [h_cmds, h_returns]
    | split

@[simp] theorem finish_outside {ps : List Part} (s : State) (tag : Nat) (status : Nat) (detail : Nat) (result : List Byte) (h_cmds : .cmds ∈ ps) (h_returns : .returns ∈ ps) :
    (finish s tag status detail result).outside ps = s.outside ps := by
  unfold finish
  repeat' first
    | (simp [h_cmds, h_returns]; done)
    | (rw [outside_foldl])
    | (intro _)
    | simp [h_cmds, h_returns]
    | split

@[simp] theorem finishAt_outside {ps : List Part} (s : State) (tag : Nat) (b : Nat) (status : Nat) (detail : Nat) (result : List Byte) (h_cmds : .cmds ∈ ps) :
    (finishAt s tag b status detail result).outside ps = s.outside ps := by
  unfold finishAt
  repeat' first
    | (simp [h_cmds]; done)
    | (rw [outside_foldl])
    | (intro _)
    | simp [h_cmds]
    | split

@[simp] theorem finishData_outside {ps : List Part} (s : State) (tag : Nat) (data : Cells) (len : Nat) (result : List Byte) (h_cmds : .cmds ∈ ps) (h_returns : .returns ∈ ps) :
    (finishData s tag data len result).outside ps = s.outside ps := by
  unfold finishData
  repeat' first
    | (simp [h_cmds, h_returns]; done)
    | (rw [outside_foldl])
    | (intro _)
    | simp [h_cmds, h_returns]
    | split

@[simp] theorem putEntry_outside {ps : List Part} (s : State) (n : Nat) (e : Entry) (total : Nat) (h_returns : .returns ∈ ps) (h_link : .link ∈ ps) (h_hostMem : .hostMem ∈ ps) :
    (putEntry s n e total).outside ps = s.outside ps := by
  unfold putEntry
  repeat' first
    | (simp [h_returns, h_link, h_hostMem]; done)
    | (rw [outside_foldl])
    | (intro _)
    | simp [h_returns, h_link, h_hostMem]
    | split

@[simp] theorem raiseRing_outside {ps : List Part} (s : State) (n : Nat) (h_returns : .returns ∈ ps) (h_ints : .ints ∈ ps) (h_link : .link ∈ ps) (h_hostMem : .hostMem ∈ ps) :
    (raiseRing s n).outside ps = s.outside ps := by
  unfold raiseRing
  repeat' first
    | (simp [h_returns, h_ints, h_link, h_hostMem]; done)
    | (rw [outside_foldl])
    | (intro _)
    | simp [h_returns, h_ints, h_link, h_hostMem]
    | split

@[simp] theorem openFields_outside {ps : List Part} (s : State) (e : Entry) (tag : Bool) (h_free : .free ∈ ps) :
    (openFields s e tag).1.outside ps = s.outside ps := by
  unfold openFields
  repeat' first
    | (simp [h_free]; done)
    | (rw [outside_foldl])
    | (intro _)
    | simp [h_free]
    | split
  all_goals
    have e := congrArg (fun p => State.outside ps p.1) ‹_ = (_, _)›
    simp [h_free] at e
    simp [h_free, e]

@[simp] theorem reportLines_outside {ps : List Part} (s : State) (e : Entry) (h_ledger : .ledger ∈ ps) :
    (reportLines s e).outside ps = s.outside ps := by
  unfold reportLines
  repeat' first
    | (simp [h_ledger]; done)
    | (rw [outside_foldl])
    | (intro _)
    | simp [h_ledger]
    | split

@[simp] theorem entryIssued_outside {ps : List Part} (s : State) (n : Nat) (e : Entry) (h_ledger : .ledger ∈ ps) (h_wickets : .wickets ∈ ps) (h_cmds : .cmds ∈ ps) (h_returns : .returns ∈ ps) (h_ints : .ints ∈ ps) (h_link : .link ∈ ps) (h_chain : .chain ∈ ps) (h_hostMem : .hostMem ∈ ps) :
    (entryIssued s n e).outside ps = s.outside ps := by
  unfold entryIssued
  repeat' first
    | (simp [h_ledger, h_wickets, h_cmds, h_returns, h_ints, h_link, h_chain, h_hostMem]; done)
    | (rw [outside_foldl])
    | (intro _)
    | simp [h_ledger, h_wickets, h_cmds, h_returns, h_ints, h_link, h_chain, h_hostMem]
    | split

@[simp] theorem postRing_outside {ps : List Part} (s : State) (n : Nat) (h_ledger : .ledger ∈ ps) (h_wickets : .wickets ∈ ps) (h_cmds : .cmds ∈ ps) (h_returns : .returns ∈ ps) (h_ints : .ints ∈ ps) (h_link : .link ∈ ps) (h_chain : .chain ∈ ps) (h_hostMem : .hostMem ∈ ps) (h_free : .free ∈ ps) :
    (postRing s n).outside ps = s.outside ps := by
  unfold postRing
  repeat' first
    | (simp [h_ledger, h_wickets, h_cmds, h_returns, h_ints, h_link, h_chain, h_hostMem, h_free]; done)
    | (rw [outside_foldl])
    | (intro _)
    | simp [h_ledger, h_wickets, h_cmds, h_returns, h_ints, h_link, h_chain, h_hostMem, h_free]
    | split
  all_goals
    have e := congrArg (fun p => State.outside ps p.1) ‹_ = (_, _)›
    simp [h_ledger, h_wickets, h_cmds, h_returns, h_ints, h_link, h_chain, h_hostMem, h_free] at e
    simp [h_ledger, h_wickets, h_cmds, h_returns, h_ints, h_link, h_chain, h_hostMem, h_free, e]

@[simp] theorem writeCredit_outside {ps : List Part} (s : State) (w : Nat) (h_wickets : .wickets ∈ ps) (h_link : .link ∈ ps) (h_hostMem : .hostMem ∈ ps) :
    (writeCredit s w).outside ps = s.outside ps := by
  unfold writeCredit
  repeat' first
    | (simp [h_wickets, h_link, h_hostMem]; done)
    | (rw [outside_foldl])
    | (intro _)
    | simp [h_wickets, h_link, h_hostMem]
    | split

@[simp] theorem creditStep_outside {ps : List Part} (s : State) (w : Nat) (h_wickets : .wickets ∈ ps) (h_link : .link ∈ ps) (h_hostMem : .hostMem ∈ ps) :
    (creditStep s w).outside ps = s.outside ps := by
  unfold creditStep
  repeat' first
    | (simp [h_wickets, h_link, h_hostMem]; done)
    | (rw [outside_foldl])
    | (intro _)
    | simp [h_wickets, h_link, h_hostMem]
    | split

@[simp] theorem creditBoundary_outside {ps : List Part} (s : State) (h_wickets : .wickets ∈ ps) (h_link : .link ∈ ps) (h_hostMem : .hostMem ∈ ps) :
    (creditBoundary s).outside ps = s.outside ps := by
  unfold creditBoundary
  repeat' first
    | (simp [h_wickets, h_link, h_hostMem]; done)
    | (rw [outside_foldl])
    | (intro _)
    | simp [h_wickets, h_link, h_hostMem]
    | split

@[simp] theorem setWicket_outside {ps : List Part} (s : State) (w : Nat) (st : Nat) (h_wickets : .wickets ∈ ps) (h_link : .link ∈ ps) (h_hostMem : .hostMem ∈ ps) :
    (setWicket s w st).outside ps = s.outside ps := by
  unfold setWicket
  repeat' first
    | (simp [h_wickets, h_link, h_hostMem]; done)
    | (rw [outside_foldl])
    | (intro _)
    | simp [h_wickets, h_link, h_hostMem]
    | split

@[simp] theorem assignRegions_outside {ps : List Part} (s : State) (v : Nat) (rs : List Nat) (h_ledger : .ledger ∈ ps) :
    (assignRegions s v rs).outside ps = s.outside ps := by
  unfold assignRegions
  repeat' first
    | (simp [h_ledger]; done)
    | (rw [outside_foldl])
    | (intro _)
    | simp [h_ledger]
    | split

theorem allocBand_outside {ps : List Part} {t : State} (s : State) (d : VolumeDef) (l : Layout) (n : Nat) (target : Bool) (h_ledger : .ledger ∈ ps) (h_bands : .bands ∈ ps) (h_chain : .chain ∈ ps) :
    allocBand s d l n target = some t → t.outside ps = s.outside ps := by
  unfold allocBand
  intro h
  split at h
  · cases h
  · simp only at h
    split at h
    · cases h
    · cases h
      simp [h_ledger, h_bands, h_chain]

theorem allocBands_outside {ps : List Part} {t : State} (s : State) (d : VolumeDef) (l : Layout) (first : Nat) (last : Nat) (target : Bool) (h_ledger : .ledger ∈ ps) (h_bands : .bands ∈ ps) (h_chain : .chain ∈ ps) :
    allocBands s d l first last target = some t → t.outside ps = s.outside ps := by
  unfold allocBands
  intro h
  obtain ⟨u, hu, e⟩ := outside_bindFold (fun u x v hv => by
    split at hv
    · cases hv; rfl
    · exact allocBand_outside _ _ _ _ _ h_ledger h_bands h_chain hv) h
  cases hu
  exact e

theorem allocRange_outside {ps : List Part} {t : State} (s : State) (v : Nat) (lba : Nat) (n : Nat) (h_ledger : .ledger ∈ ps) (h_bands : .bands ∈ ps) (h_chain : .chain ∈ ps) :
    allocRange s v lba n = some t → t.outside ps = s.outside ps := by
  unfold allocRange
  intro h
  split at h
  · simp only at h
    split at h
    · cases h; rfl
    · obtain ⟨u, hu, e⟩ := Option.bind_eq_some_iff.mp h
      have h1 := allocBands_outside _ _ _ _ _ _ h_ledger h_bands h_chain hu
      split at e
      · exact (allocBands_outside _ _ _ _ _ _ h_ledger h_bands h_chain e).trans h1
      · cases e; exact h1
  · cases h; rfl

@[simp] theorem accept_outside {ps : List Part} (s : State) (w : Nat) (seq : Nat) (b : List Byte) (h_ledger : .ledger ∈ ps) (h_bands : .bands ∈ ps) (h_wickets : .wickets ∈ ps) (h_cmds : .cmds ∈ ps) (h_link : .link ∈ ps) (h_vaults : .vaults ∈ ps) (h_chain : .chain ∈ ps) (h_hostMem : .hostMem ∈ ps) :
    (accept s w seq b).outside ps = s.outside ps := by
  have key : ∀ (c : Prop) [Decidable c] (v lba n : Nat), ((if c then allocRange s v lba n else some s).getD s).outside ps = s.outside ps := by
    intro c _ v lba n
    split
    · cases h : allocRange s v lba n with
      | none => rfl
      | some t => exact allocRange_outside s v lba n h_ledger h_bands h_chain h
    · rfl
  simp [accept, h_ledger, h_bands, h_wickets, h_cmds, h_link, h_vaults, h_chain, h_hostMem, key]

@[simp] theorem judge_outside {ps : List Part} (s : State) (w : Nat) (seq : Nat) (b : List Byte) (h_ledger : .ledger ∈ ps) (h_bands : .bands ∈ ps) (h_wickets : .wickets ∈ ps) (h_cmds : .cmds ∈ ps) (h_link : .link ∈ ps) (h_vaults : .vaults ∈ ps) (h_chain : .chain ∈ ps) (h_hostMem : .hostMem ∈ ps) :
    (judge s w seq b).outside ps = s.outside ps := by
  unfold judge
  repeat' first
    | (simp [h_ledger, h_bands, h_wickets, h_cmds, h_link, h_vaults, h_chain, h_hostMem]; done)
    | (rw [outside_foldl])
    | (intro _)
    | simp [h_ledger, h_bands, h_wickets, h_cmds, h_link, h_vaults, h_chain, h_hostMem]
    | split

@[simp] theorem stray_outside {ps : List Part} (s : State) (h_wickets : .wickets ∈ ps) :
    (stray s).outside ps = s.outside ps := by
  unfold stray
  repeat' first
    | (simp [h_wickets]; done)
    | (rw [outside_foldl])
    | (intro _)
    | simp [h_wickets]
    | split

@[simp] theorem commitArrives_outside {ps : List Part} (s : State) (w : Nat) (seq : Nat) (h_ledger : .ledger ∈ ps) (h_bands : .bands ∈ ps) (h_wickets : .wickets ∈ ps) (h_cmds : .cmds ∈ ps) (h_link : .link ∈ ps) (h_vaults : .vaults ∈ ps) (h_chain : .chain ∈ ps) (h_hostMem : .hostMem ∈ ps) :
    (commitArrives s w seq).outside ps = s.outside ps := by
  unfold commitArrives
  repeat' first
    | (simp [h_ledger, h_bands, h_wickets, h_cmds, h_link, h_vaults, h_chain, h_hostMem]; done)
    | (rw [outside_foldl])
    | (intro _)
    | simp [h_ledger, h_bands, h_wickets, h_cmds, h_link, h_vaults, h_chain, h_hostMem]
    | split

@[simp] theorem headerPart_outside {ps : List Part} (s : State) (w : Nat) (off : Nat) (data : Lanes) (h_ledger : .ledger ∈ ps) (h_bands : .bands ∈ ps) (h_wickets : .wickets ∈ ps) (h_cmds : .cmds ∈ ps) (h_link : .link ∈ ps) (h_vaults : .vaults ∈ ps) (h_chain : .chain ∈ ps) (h_hostMem : .hostMem ∈ ps) :
    (headerPart s w off data).outside ps = s.outside ps := by
  unfold headerPart
  repeat' first
    | (simp [h_ledger, h_bands, h_wickets, h_cmds, h_link, h_vaults, h_chain, h_hostMem]; done)
    | (rw [outside_foldl])
    | (intro _)
    | simp [h_ledger, h_bands, h_wickets, h_cmds, h_link, h_vaults, h_chain, h_hostMem]
    | split

@[simp] theorem aperturePart_outside {ps : List Part} (s : State) (w : Nat) (o : Nat) (data : Lanes) (h_wickets : .wickets ∈ ps) (h_cmds : .cmds ∈ ps) :
    (aperturePart s w o data).outside ps = s.outside ps := by
  unfold aperturePart
  repeat' first
    | (simp [h_wickets, h_cmds]; done)
    | (rw [outside_foldl])
    | (intro _)
    | simp [h_wickets, h_cmds]
    | split

@[simp] theorem wicketWrite_outside {ps : List Part} (s : State) (w : Nat) (off : Nat) (data : Lanes) (h_ledger : .ledger ∈ ps) (h_bands : .bands ∈ ps) (h_wickets : .wickets ∈ ps) (h_cmds : .cmds ∈ ps) (h_link : .link ∈ ps) (h_vaults : .vaults ∈ ps) (h_chain : .chain ∈ ps) (h_hostMem : .hostMem ∈ ps) :
    (wicketWrite s w off data).outside ps = s.outside ps := by
  unfold wicketWrite
  repeat' first
    | (simp [h_ledger, h_bands, h_wickets, h_cmds, h_link, h_vaults, h_chain, h_hostMem]; done)
    | (rw [outside_foldl])
    | (intro _)
    | simp [h_ledger, h_bands, h_wickets, h_cmds, h_link, h_vaults, h_chain, h_hostMem]
    | split

@[simp] theorem takeWaiting_outside {ps : List Part} (s : State) (w : Nat) (h_ledger : .ledger ∈ ps) (h_bands : .bands ∈ ps) (h_wickets : .wickets ∈ ps) (h_cmds : .cmds ∈ ps) (h_link : .link ∈ ps) (h_vaults : .vaults ∈ ps) (h_chain : .chain ∈ ps) (h_hostMem : .hostMem ∈ ps) :
    (takeWaiting s w).outside ps = s.outside ps := by
  unfold takeWaiting
  repeat' first
    | (simp [h_ledger, h_bands, h_wickets, h_cmds, h_link, h_vaults, h_chain, h_hostMem]; done)
    | (rw [outside_foldl])
    | (intro _)
    | simp [h_ledger, h_bands, h_wickets, h_cmds, h_link, h_vaults, h_chain, h_hostMem]
    | split

@[simp] theorem ensureData_outside {ps : List Part} (s : State) (tag : Nat) (h_ledger : .ledger ∈ ps) (h_cmds : .cmds ∈ ps) :
    (ensureData s tag).outside ps = s.outside ps := by
  unfold ensureData
  repeat' first
    | (simp [h_ledger, h_cmds]; done)
    | (rw [outside_foldl])
    | (intro _)
    | simp [h_ledger, h_cmds]
    | split
  all_goals
    have e := congrArg (fun p => State.outside ps p.1) ‹_ = (_, _)›
    simp [h_ledger, h_cmds] at e
    simp [h_ledger, h_cmds, e]

@[simp] theorem payloadEnd_outside {ps : List Part} (s : State) (tag : Nat) (h_ledger : .ledger ∈ ps) (h_cmds : .cmds ∈ ps) (h_returns : .returns ∈ ps) (h_chain : .chain ∈ ps) :
    (payloadEnd s tag).outside ps = s.outside ps := by
  unfold payloadEnd
  repeat' first
    | (simp [h_ledger, h_cmds, h_returns, h_chain]; done)
    | (rw [outside_foldl])
    | (intro _)
    | simp [h_ledger, h_cmds, h_returns, h_chain]
    | split

@[simp] theorem movePayload_outside {ps : List Part} (s : State) (w : Nat) (n : Nat) (h_ledger : .ledger ∈ ps) (h_wickets : .wickets ∈ ps) (h_cmds : .cmds ∈ ps) (h_returns : .returns ∈ ps) (h_link : .link ∈ ps) (h_chain : .chain ∈ ps) (h_hostMem : .hostMem ∈ ps) :
    (movePayload s w n).outside ps = s.outside ps := by
  unfold movePayload
  repeat' first
    | (simp [h_ledger, h_wickets, h_cmds, h_returns, h_link, h_chain, h_hostMem]; done)
    | (rw [outside_foldl])
    | (intro _)
    | simp [h_ledger, h_wickets, h_cmds, h_returns, h_link, h_chain, h_hostMem]
    | split

@[simp] theorem requestReset_outside {ps : List Part} (s : State) (w : Nat) (h_wickets : .wickets ∈ ps) (h_link : .link ∈ ps) (h_hostMem : .hostMem ∈ ps) :
    (requestReset s w).outside ps = s.outside ps := by
  unfold requestReset
  repeat' first
    | (simp [h_wickets, h_link, h_hostMem]; done)
    | (rw [outside_foldl])
    | (intro _)
    | simp [h_wickets, h_link, h_hostMem]
    | split

@[simp] theorem queueResetRequest_outside {ps : List Part} (s : State) (w : Nat) (all : Bool) (h_wickets : .wickets ∈ ps) (h_link : .link ∈ ps) (h_daybook : .daybook ∈ ps) (h_hostMem : .hostMem ∈ ps) :
    (queueResetRequest s w all).outside ps = s.outside ps := by
  unfold queueResetRequest
  repeat' first
    | (simp [h_wickets, h_link, h_daybook, h_hostMem]; done)
    | (rw [outside_foldl])
    | (intro _)
    | simp [h_wickets, h_link, h_daybook, h_hostMem]
    | split

end Sys2Proof.Machine
end

