-- ==== Sys2Proof/Laws/Frame2.lean ====
section
/-! SUPPORT. What each operation leaves as it was: the state outside the parts it works on. -/

namespace Sys2Proof.Machine

set_option linter.all false

@[simp] theorem creditBaseEnable_outside {ps : List Part} (s : State) (addr : Nat) (h_wickets : .wickets ∈ ps) (h_link : .link ∈ ps) (h_hostMem : .hostMem ∈ ps) :
    (creditBaseEnable s addr).outside ps = s.outside ps := by
  unfold creditBaseEnable
  repeat' first
    | (simp [h_wickets, h_link, h_hostMem]; done)
    | (rw [outside_foldl])
    | (intro _)
    | simp [h_wickets, h_link, h_hostMem]
    | split

@[simp] theorem modChan_outside {ps : List Part} (s : State) (n : Nat) (f : Channel → Channel) (h_courier : .courier ∈ ps) :
    (modChan s n f).outside ps = s.outside ps := by
  unfold modChan
  repeat' first
    | (simp [h_courier]; done)
    | (rw [outside_foldl])
    | (intro _)
    | simp [h_courier]
    | split

@[simp] theorem countBad_outside {ps : List Part} (s : State) (code : Nat) (h_returns : .returns ∈ ps) (h_courier : .courier ∈ ps) :
    (countBad s code).outside ps = s.outside ps := by
  unfold countBad
  repeat' first
    | (simp [h_returns, h_courier]; done)
    | (rw [outside_foldl])
    | (intro _)
    | simp [h_returns, h_courier]
    | split

/-- Slots that are fetched and ended in one chain. -/
theorem slots_outside {ps : List Part} (fuel : Nat) (h_returns : .returns ∈ ps) (h_courier : .courier ∈ ps) :
    (∀ (s : State) (n k : Nat), (fetchSlot fuel s n k).outside ps = s.outside ps) ∧
      ∀ (s : State) (n : Nat) (bad : Option Nat), (endSlot fuel s n bad).outside ps = s.outside ps := by
  induction fuel with
  | zero => exact ⟨fun s n k => by simp [fetchSlot], fun s n bad => by simp [endSlot]⟩
  | succ m ih =>
    have key : ∀ (s : State) (bad : Option Nat), ((bad.map (countBad s)).getD s).outside ps = s.outside ps := by
      intro s bad
      cases bad <;> simp [h_returns, h_courier]
    constructor
    · intro s n k
      unfold fetchSlot
      simp only
      split <;> simp [h_returns, h_courier, ih.2]
    · intro s n bad
      unfold endSlot
      simp only
      repeat' split
      all_goals simp [h_returns, h_courier, ih.1, key]


@[simp] theorem endSlot_outside {ps : List Part} (a0 : Nat) (a1 : State) (a2 : Nat) (a3 : Option Nat) (h_returns : .returns ∈ ps) (h_courier : .courier ∈ ps) :
    (endSlot a0 a1 a2 a3).outside ps = a1.outside ps := by
  exact (slots_outside a0 h_returns h_courier).2 a1 a2 a3

@[simp] theorem fetchSlot_outside {ps : List Part} (a0 : Nat) (a1 : State) (a2 : Nat) (a3 : Nat) (h_returns : .returns ∈ ps) (h_courier : .courier ∈ ps) :
    (fetchSlot a0 a1 a2 a3).outside ps = a1.outside ps := by
  exact (slots_outside a0 h_returns h_courier).1 a1 a2 a3

@[simp] theorem slotEnd_outside {ps : List Part} (s : State) (n : Nat) (bad : Option Nat) (h_returns : .returns ∈ ps) (h_courier : .courier ∈ ps) :
    (slotEnd s n bad).outside ps = s.outside ps := by
  unfold slotEnd
  repeat' first
    | (simp [h_returns, h_courier]; done)
    | (rw [outside_foldl])
    | (intro _)
    | simp [h_returns, h_courier]
    | split

@[simp] theorem courierStart_outside {ps : List Part} (s : State) (n : Nat) (h_returns : .returns ∈ ps) (h_courier : .courier ∈ ps) :
    (courierStart s n).outside ps = s.outside ps := by
  unfold courierStart
  repeat' first
    | (simp [h_returns, h_courier]; done)
    | (rw [outside_foldl])
    | (intro _)
    | simp [h_returns, h_courier]
    | split

@[simp] theorem slotWrite_outside {ps : List Part} (s : State) (n : Nat) (k : Nat) (reg : Nat) (value : BitVec 64) (h_returns : .returns ∈ ps) (h_courier : .courier ∈ ps) :
    (slotWrite s n k reg value).outside ps = s.outside ps := by
  unfold slotWrite
  repeat' first
    | (simp [h_returns, h_courier]; done)
    | (rw [outside_foldl])
    | (intro _)
    | simp [h_returns, h_courier]
    | split

@[simp] theorem shadowCopy_outside {ps : List Part} (s : State) (n : Nat) (h_returns : .returns ∈ ps) (h_courier : .courier ∈ ps) :
    (shadowCopy s n).outside ps = s.outside ps := by
  unfold shadowCopy
  repeat' first
    | (simp [h_returns, h_courier]; done)
    | (rw [outside_foldl])
    | (intro _)
    | simp [h_returns, h_courier]
    | split

@[simp] theorem shadowArm_outside {ps : List Part} (s : State) (n : Nat) (h_returns : .returns ∈ ps) (h_courier : .courier ∈ ps) :
    (shadowArm s n).outside ps = s.outside ps := by
  unfold shadowArm
  repeat' first
    | (simp [h_returns, h_courier]; done)
    | (rw [outside_foldl])
    | (intro _)
    | simp [h_returns, h_courier]
    | split

@[simp] theorem shadowWrite_outside {ps : List Part} (s : State) (n : Nat) (k : Nat) (reg : Nat) (value : BitVec 64) (h_courier : .courier ∈ ps) :
    (shadowWrite s n k reg value).outside ps = s.outside ps := by
  unfold shadowWrite
  repeat' first
    | (simp [h_courier]; done)
    | (rw [outside_foldl])
    | (intro _)
    | simp [h_courier]
    | split

@[simp] theorem spaceWrite_outside {ps : List Part} (s : State) (sp : Nat) (a : Nat) (bs : List Byte) (h_ledger : .ledger ∈ ps) (h_scratch : .scratch ∈ ps) (h_link : .link ∈ ps) (h_courier : .courier ∈ ps) (h_dram : .dram ∈ ps) (h_hostMem : .hostMem ∈ ps) :
    (spaceWrite s sp a bs).outside ps = s.outside ps := by
  unfold spaceWrite
  repeat' first
    | (simp [h_ledger, h_scratch, h_link, h_courier, h_dram, h_hostMem]; done)
    | (rw [outside_foldl])
    | (intro _)
    | simp [h_ledger, h_scratch, h_link, h_courier, h_dram, h_hostMem]
    | split

@[simp] theorem burstWrite_outside {ps : List Part} (s : State) (c : Channel) (d : List Byte) (h_ledger : .ledger ∈ ps) (h_scratch : .scratch ∈ ps) (h_link : .link ∈ ps) (h_courier : .courier ∈ ps) (h_dram : .dram ∈ ps) (h_hostMem : .hostMem ∈ ps) :
    (burstWrite s c d).outside ps = s.outside ps := by
  unfold burstWrite
  repeat' first
    | (simp [h_ledger, h_scratch, h_link, h_courier, h_dram, h_hostMem]; done)
    | (rw [outside_foldl])
    | (intro _)
    | simp [h_ledger, h_scratch, h_link, h_courier, h_dram, h_hostMem]
    | split

@[simp] theorem burst_outside {ps : List Part} (s : State) (n : Nat) (h_ledger : .ledger ∈ ps) (h_scratch : .scratch ∈ ps) (h_returns : .returns ∈ ps) (h_link : .link ∈ ps) (h_courier : .courier ∈ ps) (h_dram : .dram ∈ ps) (h_hostMem : .hostMem ∈ ps) :
    (burst s n).outside ps = s.outside ps := by
  unfold burst
  repeat' first
    | (simp [h_ledger, h_scratch, h_returns, h_link, h_courier, h_dram, h_hostMem]; done)
    | (rw [outside_foldl])
    | (intro _)
    | simp [h_ledger, h_scratch, h_returns, h_link, h_courier, h_dram, h_hostMem]
    | split

@[simp] theorem maintBoundary_outside {ps : List Part} (s : State) (h_returns : .returns ∈ ps) (h_courier : .courier ∈ ps) :
    (maintBoundary s).outside ps = s.outside ps := by
  unfold maintBoundary
  repeat' first
    | (simp [h_returns, h_courier]; done)
    | (rw [outside_foldl])
    | (intro _)
    | simp [h_returns, h_courier]
    | split

@[simp] theorem resumeChannels_outside {ps : List Part} (s : State) (h_courier : .courier ∈ ps) :
    (resumeChannels s).outside ps = s.outside ps := by
  unfold resumeChannels
  repeat' first
    | (simp [h_courier]; done)
    | (rw [outside_foldl])
    | (intro _)
    | simp [h_courier]
    | split

@[simp] theorem abandonPaused_outside {ps : List Part} (s : State) (h_returns : .returns ∈ ps) (h_courier : .courier ∈ ps) :
    (abandonPaused s).outside ps = s.outside ps := by
  unfold abandonPaused
  repeat' first
    | (simp [h_returns, h_courier]; done)
    | (rw [outside_foldl])
    | (intro _)
    | simp [h_returns, h_courier]
    | split

@[simp] theorem drainEnd'_outside {ps : List Part} (s : State) (h_wickets : .wickets ∈ ps) (h_returns : .returns ∈ ps) (h_ints : .ints ∈ ps) (h_link : .link ∈ ps) (h_hostMem : .hostMem ∈ ps) :
    (drainEnd' s).outside ps = s.outside ps := by
  unfold drainEnd'
  repeat' first
    | (simp [h_wickets, h_returns, h_ints, h_link, h_hostMem]; done)
    | (rw [outside_foldl])
    | (intro _)
    | simp [h_wickets, h_returns, h_ints, h_link, h_hostMem]
    | split

@[simp] theorem irqDelay_outside {ps : List Part} (s : State) (n : Nat) (h_returns : .returns ∈ ps) (h_ints : .ints ∈ ps) (h_link : .link ∈ ps) (h_hostMem : .hostMem ∈ ps) :
    (irqDelay s n).outside ps = s.outside ps := by
  unfold irqDelay
  repeat' first
    | (simp [h_returns, h_ints, h_link, h_hostMem]; done)
    | (rw [outside_foldl])
    | (intro _)
    | simp [h_returns, h_ints, h_link, h_hostMem]
    | split

@[simp] theorem headArrives_outside {ps : List Part} (s : State) (n : Nat) (v : Nat) (h_returns : .returns ∈ ps) :
    (headArrives s n v).outside ps = s.outside ps := by
  unfold headArrives
  repeat' first
    | (simp [h_returns]; done)
    | (rw [outside_foldl])
    | (intro _)
    | simp [h_returns]
    | split

@[simp] theorem ringEnable_outside {ps : List Part} (s : State) (n : Nat) (h_returns : .returns ∈ ps) :
    (ringEnable s n).outside ps = s.outside ps := by
  unfold ringEnable
  repeat' first
    | (simp [h_returns]; done)
    | (rw [outside_foldl])
    | (intro _)
    | simp [h_returns]
    | split

@[simp] theorem ringDisable_outside {ps : List Part} (s : State) (n : Nat) (h_returns : .returns ∈ ps) :
    (ringDisable s n).outside ps = s.outside ps := by
  unfold ringDisable
  repeat' first
    | (simp [h_returns]; done)
    | (rw [outside_foldl])
    | (intro _)
    | simp [h_returns]
    | split

@[simp] theorem ringDrainEnd_outside {ps : List Part} (s : State) (n : Nat) (h_returns : .returns ∈ ps) :
    (ringDrainEnd s n).outside ps = s.outside ps := by
  unfold ringDrainEnd
  repeat' first
    | (simp [h_returns]; done)
    | (rw [outside_foldl])
    | (intro _)
    | simp [h_returns]
    | split

@[simp] theorem holdPostings_outside {ps : List Part} (s : State) (h_returns : .returns ∈ ps) :
    (holdPostings s).outside ps = s.outside ps := by
  unfold holdPostings
  repeat' first
    | (simp [h_returns]; done)
    | (rw [outside_foldl])
    | (intro _)
    | simp [h_returns]
    | split

@[simp] theorem dropFetches_outside {ps : List Part} (s : State) (h_returns : .returns ∈ ps) :
    (dropFetches s).outside ps = s.outside ps := by
  unfold dropFetches
  repeat' first
    | (simp [h_returns]; done)
    | (rw [outside_foldl])
    | (intro _)
    | simp [h_returns]
    | split

@[simp] theorem dropHostReads_outside {ps : List Part} (s : State) (h_returns : .returns ∈ ps) (h_courier : .courier ∈ ps) :
    (dropHostReads s).outside ps = s.outside ps := by
  unfold dropHostReads
  repeat' first
    | (simp [h_returns, h_courier]; done)
    | (rw [outside_foldl])
    | (intro _)
    | simp [h_returns, h_courier]
    | split

@[simp] theorem masterClear_outside {ps : List Part} (s : State) (h_returns : .returns ∈ ps) (h_cfg : .cfg ∈ ps) :
    (masterClear s).outside ps = s.outside ps := by
  unfold masterClear
  repeat' first
    | (simp [h_returns, h_cfg]; done)
    | (rw [outside_foldl])
    | (intro _)
    | simp [h_returns, h_cfg]
    | split

@[simp] theorem drainHold_outside {ps : List Part} (s : State) (h_wickets : .wickets ∈ ps) (h_returns : .returns ∈ ps) (h_ints : .ints ∈ ps) (h_link : .link ∈ ps) (h_courier : .courier ∈ ps) (h_hostMem : .hostMem ∈ ps) :
    (drainHold s).outside ps = s.outside ps := by
  unfold drainHold
  repeat' first
    | (simp [h_wickets, h_returns, h_ints, h_link, h_courier, h_hostMem]; done)
    | (rw [outside_foldl])
    | (intro _)
    | simp [h_wickets, h_returns, h_ints, h_link, h_courier, h_hostMem]
    | split

@[simp] theorem masterSet_outside {ps : List Part} (s : State) (h_wickets : .wickets ∈ ps) (h_returns : .returns ∈ ps) (h_ints : .ints ∈ ps) (h_cfg : .cfg ∈ ps) (h_link : .link ∈ ps) (h_courier : .courier ∈ ps) (h_hostMem : .hostMem ∈ ps) :
    (masterSet s).outside ps = s.outside ps := by
  unfold masterSet
  repeat' first
    | (simp [h_wickets, h_returns, h_ints, h_cfg, h_link, h_courier, h_hostMem]; done)
    | (rw [outside_foldl])
    | (intro _)
    | simp [h_wickets, h_returns, h_ints, h_cfg, h_link, h_courier, h_hostMem]
    | split

@[simp] theorem modMem_outside {ps : List Part} (s : State) (m : Nat) (f : Member → Member) (h_drives : .drives ∈ ps) :
    (modMem s m f).outside ps = s.outside ps := by
  unfold modMem
  repeat' first
    | (simp [h_drives]; done)
    | (rw [outside_foldl])
    | (intro _)
    | simp [h_drives]
    | split

@[simp] theorem setMem_outside {ps : List Part} (s : State) (m : Nat) (st : Nat) (h_drives : .drives ∈ ps) :
    (setMem s m st).outside ps = s.outside ps := by
  unfold setMem
  repeat' first
    | (simp [h_drives]; done)
    | (rw [outside_foldl])
    | (intro _)
    | simp [h_drives]
    | split

@[simp] theorem issue_outside {ps : List Part} (s : State) (m : Nat) (op : MemberOp) (addr : Nat) (len : Nat) (data : Cells) (p : Purpose) (h_drives : .drives ∈ ps) :
    (issue s m op addr len data p).outside ps = s.outside ps := by
  unfold issue
  repeat' first
    | (simp [h_drives]; done)
    | (rw [outside_foldl])
    | (intro _)
    | simp [h_drives]
    | split

@[simp] theorem modMc_outside {ps : List Part} (s : State) (id : Nat) (f : MemberCmd → MemberCmd) (h_drives : .drives ∈ ps) :
    (modMc s id f).outside ps = s.outside ps := by
  unfold modMc
  repeat' first
    | (simp [h_drives]; done)
    | (rw [outside_foldl])
    | (intro _)
    | simp [h_drives]
    | split

@[simp] theorem sendQueued_outside {ps : List Part} (s : State) (m : Nat) (h_drives : .drives ∈ ps) :
    (sendQueued s m).outside ps = s.outside ps := by
  unfold sendQueued
  repeat' first
    | (simp [h_drives]; done)
    | (rw [outside_foldl])
    | (intro _)
    | simp [h_drives]
    | split

@[simp] theorem dropMc_outside {ps : List Part} (s : State) (id : Nat) (h_drives : .drives ∈ ps) :
    (dropMc s id).outside ps = s.outside ps := by
  unfold dropMc
  repeat' first
    | (simp [h_drives]; done)
    | (rw [outside_foldl])
    | (intro _)
    | simp [h_drives]
    | split

@[simp] theorem reissueMc_outside {ps : List Part} (s : State) (id : Nat) (h_drives : .drives ∈ ps) :
    (reissueMc s id).outside ps = s.outside ps := by
  unfold reissueMc
  repeat' first
    | (simp [h_drives]; done)
    | (rw [outside_foldl])
    | (intro _)
    | simp [h_drives]
    | split

@[simp] theorem fillPlaces_outside {ps : List Part} (s : State) (h_drives : .drives ∈ ps) :
    (fillPlaces s).outside ps = s.outside ps := by
  unfold fillPlaces
  repeat' first
    | (simp [h_drives]; done)
    | (rw [outside_foldl])
    | (intro _)
    | simp [h_drives]
    | split

@[simp] theorem unfence_outside {ps : List Part} (s : State) (h_drives : .drives ∈ ps) (h_pair : .pair ∈ ps) :
    (unfence s).outside ps = s.outside ps := by
  unfold unfence
  repeat' first
    | (simp [h_drives, h_pair]; done)
    | (rw [outside_foldl])
    | (intro _)
    | simp [h_drives, h_pair]
    | split

@[simp] theorem errorEvent_outside {ps : List Part} (s : State) (m : Nat) (h_drives : .drives ∈ ps) :
    (errorEvent s m).outside ps = s.outside ps := by
  unfold errorEvent
  repeat' first
    | (simp [h_drives]; done)
    | (rw [outside_foldl])
    | (intro _)
    | simp [h_drives]
    | split

@[simp] theorem makeSuspect_outside {ps : List Part} (s : State) (m : Nat) (h_drives : .drives ∈ ps) :
    (makeSuspect s m).outside ps = s.outside ps := by
  unfold makeSuspect
  repeat' first
    | (simp [h_drives]; done)
    | (rw [outside_foldl])
    | (intro _)
    | simp [h_drives]
    | split

@[simp] theorem setDemand_outside {ps : List Part} (s : State) (cls : Nat) (groups : List Nat) (of : DemandOf) (h_gov : .gov ∈ ps) :
    (setDemand s cls groups of).outside ps = s.outside ps := by
  unfold setDemand
  repeat' first
    | (simp [h_gov]; done)
    | (rw [outside_foldl])
    | (intro _)
    | simp [h_gov]
    | split

@[simp] theorem dropDemand_outside {ps : List Part} (s : State) (of : DemandOf) (h_gov : .gov ∈ ps) :
    (dropDemand s of).outside ps = s.outside ps := by
  unfold dropDemand
  repeat' first
    | (simp [h_gov]; done)
    | (rw [outside_foldl])
    | (intro _)
    | simp [h_gov]
    | split

@[simp] theorem modGrp_outside {ps : List Part} (s : State) (g : Nat) (f : Group → Group) (h_gov : .gov ∈ ps) :
    (modGrp s g f).outside ps = s.outside ps := by
  unfold modGrp
  repeat' first
    | (simp [h_gov]; done)
    | (rw [outside_foldl])
    | (intro _)
    | simp [h_gov]
    | split

@[simp] theorem modPlan_outside {ps : List Part} (s : State) (layout : Nat) (erased : List ChunkId) (f : Plan → Plan) (h_plans : .plans ∈ ps) :
    (modPlan s layout erased f).outside ps = s.outside ps := by
  unfold modPlan
  repeat' first
    | (simp [h_plans]; done)
    | (rw [outside_foldl])
    | (intro _)
    | simp [h_plans]
    | split

@[simp] theorem storePlan_outside {ps : List Part} (s : State) (tag : Nat) (layout : Nat) (erased : List ChunkId) (h_plans : .plans ∈ ps) :
    (storePlan s tag layout erased).outside ps = s.outside ps := by
  unfold storePlan
  repeat' first
    | (simp [h_plans]; done)
    | (rw [outside_foldl])
    | (intro _)
    | simp [h_plans]
    | split

@[simp] theorem waitPlan_outside {ps : List Part} (s : State) (tag : Nat) (layout : Nat) (erased : List ChunkId) (h_plans : .plans ∈ ps) :
    (waitPlan s tag layout erased).outside ps = s.outside ps := by
  unfold waitPlan
  repeat' first
    | (simp [h_plans]; done)
    | (rw [outside_foldl])
    | (intro _)
    | simp [h_plans]
    | split

@[simp] theorem requestPlan_outside {ps : List Part} (s : State) (tag : Nat) (layout : Nat) (erased : List ChunkId) (h_plans : .plans ∈ ps) :
    (requestPlan s tag layout erased).outside ps = s.outside ps := by
  unfold requestPlan
  repeat' first
    | (simp [h_plans]; done)
    | (rw [outside_foldl])
    | (intro _)
    | simp [h_plans]
    | split

@[simp] theorem issueNeed_outside {ps : List Part} (tag : Nat) (s : State) (n : Need) (h_plans : .plans ∈ ps) (h_drives : .drives ∈ ps) :
    (issueNeed tag s n).outside ps = s.outside ps := by
  unfold issueNeed
  repeat' first
    | (simp [h_plans, h_drives]; done)
    | (rw [outside_foldl])
    | (intro _)
    | simp [h_plans, h_drives]
    | split

@[simp] theorem modWork_outside {ps : List Part} (s : State) (id : Nat) (f : Work → Work) (h_works : .works ∈ ps) :
    (modWork s id f).outside ps = s.outside ps := by
  unfold modWork
  repeat' first
    | (simp [h_works]; done)
    | (rw [outside_foldl])
    | (intro _)
    | simp [h_works]
    | split

@[simp] theorem modJob_outside {ps : List Part} (s : State) (id : Nat) (f : VaultJob → VaultJob) (h_vaults : .vaults ∈ ps) :
    (modJob s id f).outside ps = s.outside ps := by
  unfold modJob
  repeat' first
    | (simp [h_vaults]; done)
    | (rw [outside_foldl])
    | (intro _)
    | simp [h_vaults]
    | split

@[simp] theorem lossOverflow_outside {ps : List Part} (s : State) (volume : Nat) (h_degrade : .degrade ∈ ps) (h_daybook : .daybook ∈ ps) :
    (lossOverflow s volume).outside ps = s.outside ps := by
  unfold lossOverflow
  repeat' first
    | (simp [h_degrade, h_daybook]; done)
    | (rw [outside_foldl])
    | (intro _)
    | simp [h_degrade, h_daybook]
    | split

@[simp] theorem lossFind_outside {ps : List Part} (s : State) (volume : Nat) (cause : Nat) (blocks : List Nat) (h_degrade : .degrade ∈ ps) (h_daybook : .daybook ∈ ps) :
    (lossFind s volume cause blocks).1.outside ps = s.outside ps := by
  unfold lossFind
  repeat' first
    | (simp [h_degrade, h_daybook]; done)
    | (rw [outside_foldl])
    | (intro _)
    | simp [h_degrade, h_daybook]
    | split

@[simp] theorem positionLoss_outside {ps : List Part} (s : State) (bs : List (Nat × Nat)) (h_degrade : .degrade ∈ ps) (h_daybook : .daybook ∈ ps) :
    (positionLoss s bs).1.outside ps = s.outside ps := by
  unfold positionLoss
  repeat' first
    | (simp [h_degrade, h_daybook]; done)
    | (rw [outside_foldl])
    | (intro _)
    | simp [h_degrade, h_daybook]
    | split
  all_goals
    have e := congrArg (fun p => State.outside ps p.1) ‹_ = (_, _)›
    simp [h_degrade, h_daybook] at e
    simp [h_degrade, h_daybook, e]

@[simp] theorem workLoss_outside {ps : List Part} (s : State) (l : Layout) (w : Work) (pos : Nat) (h_degrade : .degrade ∈ ps) (h_daybook : .daybook ∈ ps) :
    (workLoss s l w pos).1.outside ps = s.outside ps := by
  unfold workLoss
  repeat' first
    | (simp [h_degrade, h_daybook]; done)
    | (rw [outside_foldl])
    | (intro _)
    | simp [h_degrade, h_daybook]
    | split
  all_goals
    have e := congrArg (fun p => State.outside ps p.1) ‹_ = (_, _)›
    simp [h_degrade, h_daybook] at e
    simp [h_degrade, h_daybook, e]

@[simp] theorem withWindows_outside {ps : List Part} (s : State) (w : Work) (groups : List Nat) (go : State → State) (hgo : ∀ t : State, (go t).outside ps = t.outside ps) (h_gov : .gov ∈ ps) :
    (withWindows s w groups go).outside ps = s.outside ps := by
  unfold withWindows
  split
  · rw [hgo]; simp [h_gov]
  · simp [h_gov]

@[simp] theorem workReads_outside {ps : List Part} (s : State) (id : Nat) (h_drives : .drives ∈ ps) (h_gov : .gov ∈ ps) :
    (workReads s id).outside ps = s.outside ps := by
  unfold workReads
  repeat' first
    | (simp [h_drives, h_gov]; done)
    | assumption
    | (rw [withWindows_outside])
    | (rw [outside_foldl])
    | (intro _)
    | split

@[simp] theorem planWork_outside {ps : List Part} (s : State) (id : Nat) (h_works : .works ∈ ps) (h_drives : .drives ∈ ps) (h_gov : .gov ∈ ps) (h_degrade : .degrade ∈ ps) (h_daybook : .daybook ∈ ps) :
    (planWork s id).outside ps = s.outside ps := by
  have losses : ∀ (l : Layout) (w : Work) (ns : List Nat) (p : State × List (Nat × List Nat)),
      (ns.foldl (fun (a : State × List (Nat × List Nat)) p => ((workLoss a.1 l w p).1, a.2 ++ [(p, (workLoss a.1 l w p).2)])) p).1.outside ps = p.1.outside ps :=
    fun l w ns p => outside_pairFold (fun q x => by simp [h_degrade, h_daybook])
  unfold planWork
  split
  · rfl
  · split
    · rfl
    · simp only
      refine (workReads_outside _ _ h_drives h_gov).trans ?_
      simp only [modWork_outside, losses, h_works]

@[simp] theorem startReads_outside {ps : List Part} (s : State) (id : Nat) (h_plans : .plans ∈ ps) (h_works : .works ∈ ps) (h_drives : .drives ∈ ps) (h_gov : .gov ∈ ps) (h_degrade : .degrade ∈ ps) (h_daybook : .daybook ∈ ps) :
    (startReads s id).outside ps = s.outside ps := by
  unfold startReads
  repeat' first
    | (simp [h_plans, h_works, h_drives, h_gov, h_degrade, h_daybook]; done)
    | assumption
    | (rw [withWindows_outside])
    | (rw [outside_foldl])
    | (intro _)
    | split

@[simp] theorem fillNeeds_outside {ps : List Part} (s : State) (id : Nat) (h_works : .works ∈ ps) (h_drives : .drives ∈ ps) (h_gov : .gov ∈ ps) (h_degrade : .degrade ∈ ps) (h_daybook : .daybook ∈ ps) :
    (fillNeeds s id).outside ps = s.outside ps := by
  unfold fillNeeds
  repeat' first
    | (simp [h_works, h_drives, h_gov, h_degrade, h_daybook]; done)
    | (rw [outside_foldl])
    | (intro _)
    | simp [h_works, h_drives, h_gov, h_degrade, h_daybook]
    | split

@[simp] theorem issueWrites_outside {ps : List Part} (s : State) (id : Nat) (h_works : .works ∈ ps) (h_drives : .drives ∈ ps) (h_gov : .gov ∈ ps) :
    (issueWrites s id).outside ps = s.outside ps := by
  unfold issueWrites
  repeat' first
    | rfl
    | assumption
    | (rw [withWindows_outside])
    | (intro t; simp only [modWork_outside, h_works]; exact outside_foldl fun v x => by simp [h_works, h_drives, h_gov])
    | split
    | simp only

@[simp] theorem toStepFour_outside {ps : List Part} (s : State) (id : Nat) (h_works : .works ∈ ps) (h_drives : .drives ∈ ps) (h_gov : .gov ∈ ps) :
    (toStepFour s id).outside ps = s.outside ps := by
  unfold toStepFour
  repeat' first
    | (simp [h_works, h_drives, h_gov]; done)
    | (rw [outside_foldl])
    | (intro _)
    | simp [h_works, h_drives, h_gov]
    | split

@[simp] theorem dropPostings_outside {ps : List Part} (s : State) (id : Nat) (h_tellers : .tellers ∈ ps) :
    (dropPostings s id).outside ps = s.outside ps := by
  unfold dropPostings
  repeat' first
    | (simp [h_tellers]; done)
    | (rw [outside_foldl])
    | (intro _)
    | simp [h_tellers]
    | split

@[simp] theorem pushPostings_outside {ps : List Part} (s : State) (id : Nat) (h_works : .works ∈ ps) (h_drives : .drives ∈ ps) (h_gov : .gov ∈ ps) :
    (pushPostings s id).outside ps = s.outside ps := by
  unfold pushPostings
  repeat' first
    | (simp [h_works, h_drives, h_gov]; done)
    | (rw [outside_foldl])
    | (intro _)
    | simp [h_works, h_drives, h_gov]
    | split

@[simp] theorem tryPostings_outside {ps : List Part} (s : State) (id : Nat) (h_works : .works ∈ ps) (h_drives : .drives ∈ ps) (h_gov : .gov ∈ ps) :
    (tryPostings s id).outside ps = s.outside ps := by
  unfold tryPostings
  repeat' first
    | (simp [h_works, h_drives, h_gov]; done)
    | (rw [outside_foldl])
    | (intro _)
    | simp [h_works, h_drives, h_gov]
    | split

@[simp] theorem toPostings_outside {ps : List Part} (s : State) (id : Nat) (h_plans : .plans ∈ ps) (h_works : .works ∈ ps) (h_drives : .drives ∈ ps) (h_gov : .gov ∈ ps) :
    (toPostings s id).outside ps = s.outside ps := by
  unfold toPostings
  repeat' first
    | (simp [h_plans, h_works, h_drives, h_gov]; done)
    | (rw [outside_foldl])
    | (intro _)
    | simp [h_plans, h_works, h_drives, h_gov]
    | split

@[simp] theorem grantHold_outside {ps : List Part} (s : State) (id : Nat) (h_plans : .plans ∈ ps) (h_works : .works ∈ ps) (h_holds : .holds ∈ ps) (h_drives : .drives ∈ ps) (h_gov : .gov ∈ ps) (h_degrade : .degrade ∈ ps) (h_daybook : .daybook ∈ ps) :
    (grantHold s id).outside ps = s.outside ps := by
  unfold grantHold
  repeat' first
    | (simp [h_plans, h_works, h_holds, h_drives, h_gov, h_degrade, h_daybook]; done)
    | (rw [outside_foldl])
    | (intro _)
    | simp [h_plans, h_works, h_holds, h_drives, h_gov, h_degrade, h_daybook]
    | split

@[simp] theorem holdWait_outside {ps : List Part} (s : State) (layout : Nat) (row : Nat) (id : Nat) (h_holds : .holds ∈ ps) :
    (holdWait s layout row id).outside ps = s.outside ps := by
  unfold holdWait
  repeat' first
    | (simp [h_holds]; done)
    | (rw [outside_foldl])
    | (intro _)
    | simp [h_holds]
    | split

@[simp] theorem holdRequest_outside {ps : List Part} (s : State) (id : Nat) (h_plans : .plans ∈ ps) (h_works : .works ∈ ps) (h_holds : .holds ∈ ps) (h_drives : .drives ∈ ps) (h_gov : .gov ∈ ps) (h_degrade : .degrade ∈ ps) (h_daybook : .daybook ∈ ps) :
    (holdRequest s id).outside ps = s.outside ps := by
  unfold holdRequest
  repeat' first
    | (simp [h_plans, h_works, h_holds, h_drives, h_gov, h_degrade, h_daybook]; done)
    | (rw [outside_foldl])
    | (intro _)
    | simp [h_plans, h_works, h_holds, h_drives, h_gov, h_degrade, h_daybook]
    | split

@[simp] theorem grantWaiting_outside {ps : List Part} (s : State) (h_plans : .plans ∈ ps) (h_works : .works ∈ ps) (h_holds : .holds ∈ ps) (h_drives : .drives ∈ ps) (h_gov : .gov ∈ ps) (h_degrade : .degrade ∈ ps) (h_daybook : .daybook ∈ ps) :
    (grantWaiting s).outside ps = s.outside ps := by
  unfold grantWaiting
  repeat' first
    | (simp [h_plans, h_works, h_holds, h_drives, h_gov, h_degrade, h_daybook]; done)
    | (rw [outside_foldl])
    | (intro _)
    | simp [h_plans, h_works, h_holds, h_drives, h_gov, h_degrade, h_daybook]
    | split

@[simp] theorem holdRelease_outside {ps : List Part} (s : State) (id : Nat) (h_plans : .plans ∈ ps) (h_works : .works ∈ ps) (h_holds : .holds ∈ ps) (h_drives : .drives ∈ ps) (h_gov : .gov ∈ ps) (h_degrade : .degrade ∈ ps) (h_daybook : .daybook ∈ ps) :
    (holdRelease s id).outside ps = s.outside ps := by
  unfold holdRelease
  repeat' first
    | (simp [h_plans, h_works, h_holds, h_drives, h_gov, h_degrade, h_daybook]; done)
    | (rw [outside_foldl])
    | (intro _)
    | simp [h_plans, h_works, h_holds, h_drives, h_gov, h_degrade, h_daybook]
    | split

@[simp] theorem dropWork_outside {ps : List Part} (s : State) (id : Nat) (h_plans : .plans ∈ ps) (h_works : .works ∈ ps) (h_holds : .holds ∈ ps) (h_drives : .drives ∈ ps) (h_gov : .gov ∈ ps) (h_degrade : .degrade ∈ ps) (h_daybook : .daybook ∈ ps) :
    (dropWork s id).outside ps = s.outside ps := by
  unfold dropWork
  repeat' first
    | (simp [h_plans, h_works, h_holds, h_drives, h_gov, h_degrade, h_daybook]; done)
    | (rw [outside_foldl])
    | (intro _)
    | simp [h_plans, h_works, h_holds, h_drives, h_gov, h_degrade, h_daybook]
    | split

@[simp] theorem rereadRow_outside {ps : List Part} (s : State) (layout : Nat) (row : Nat) (h_plans : .plans ∈ ps) (h_works : .works ∈ ps) (h_drives : .drives ∈ ps) (h_cmds : .cmds ∈ ps) (h_vaults : .vaults ∈ ps) :
    (rereadRow s layout row).outside ps = s.outside ps := by
  unfold rereadRow
  repeat' first
    | (simp [h_plans, h_works, h_drives, h_cmds, h_vaults]; done)
    | (rw [outside_foldl])
    | (intro _)
    | simp [h_plans, h_works, h_drives, h_cmds, h_vaults]
    | split

@[simp] theorem modRegion_outside {ps : List Part} (s : State) (v : Nat) (r : Nat) (f : Region → Region) (h_ledger : .ledger ∈ ps) :
    (modRegion s v r f).outside ps = s.outside ps := by
  unfold modRegion
  repeat' first
    | (simp [h_ledger]; done)
    | (rw [outside_foldl])
    | (intro _)
    | simp [h_ledger]
    | split

@[simp] theorem batchForget_outside {ps : List Part} (s : State) (layout : Nat) (row : Nat) (h_degrade : .degrade ∈ ps) :
    (batchForget s layout row).outside ps = s.outside ps := by
  unfold batchForget
  repeat' first
    | (simp [h_degrade]; done)
    | (rw [outside_foldl])
    | (intro _)
    | simp [h_degrade]
    | split

@[simp] theorem stepOne_outside {ps : List Part} (s : State) (id : Nat) (h_ledger : .ledger ∈ ps) (h_plans : .plans ∈ ps) (h_works : .works ∈ ps) (h_drives : .drives ∈ ps) (h_gov : .gov ∈ ps) (h_degrade : .degrade ∈ ps) (h_daybook : .daybook ∈ ps) :
    (stepOne s id).outside ps = s.outside ps := by
  unfold stepOne
  repeat' first
    | (simp [h_ledger, h_plans, h_works, h_drives, h_gov, h_degrade, h_daybook]; done)
    | (rw [outside_foldl])
    | (intro _)
    | simp [h_ledger, h_plans, h_works, h_drives, h_gov, h_degrade, h_daybook]
    | split

end Sys2Proof.Machine
end

