-- ==== Sys2Proof/Laws/Frame3.lean ====
section
/-! SUPPORT. What each operation leaves as it was: the state outside the parts it works on. -/

namespace Sys2Proof.Machine

set_option linter.all false

@[simp] theorem mapBitSet_outside {ps : List Part} (s : State) (id : Nat) (h_ledger : .ledger ∈ ps) (h_plans : .plans ∈ ps) (h_works : .works ∈ ps) (h_drives : .drives ∈ ps) (h_gov : .gov ∈ ps) (h_degrade : .degrade ∈ ps) (h_chain : .chain ∈ ps) (h_daybook : .daybook ∈ ps) :
    (mapBitSet s id).outside ps = s.outside ps := by
  unfold mapBitSet
  repeat' first
    | (simp [h_ledger, h_plans, h_works, h_drives, h_gov, h_degrade, h_chain, h_daybook]; done)
    | (rw [outside_foldl])
    | (intro _)
    | simp [h_ledger, h_plans, h_works, h_drives, h_gov, h_degrade, h_chain, h_daybook]
    | split

@[simp] theorem retryStepOne_outside {ps : List Part} (s : State) (h_ledger : .ledger ∈ ps) (h_plans : .plans ∈ ps) (h_works : .works ∈ ps) (h_drives : .drives ∈ ps) (h_gov : .gov ∈ ps) (h_degrade : .degrade ∈ ps) (h_daybook : .daybook ∈ ps) :
    (retryStepOne s).outside ps = s.outside ps := by
  unfold retryStepOne
  repeat' first
    | (simp [h_ledger, h_plans, h_works, h_drives, h_gov, h_degrade, h_daybook]; done)
    | (rw [outside_foldl])
    | (intro _)
    | simp [h_ledger, h_plans, h_works, h_drives, h_gov, h_degrade, h_daybook]
    | split

@[simp] theorem addWork_outside {ps : List Part} (s : State) (kind : WorkKind) (volume : Nat) (l : Layout) (row : Nat) (news : List (Nat × Nat × Cells)) (wants : List (ChunkId × Nat × List (ChunkId × Nat))) (forms : List (ChunkId × Bool)) (recs : List Nat) (replayed : Bool) (needs : List Need) (h_ledger : .ledger ∈ ps) (h_plans : .plans ∈ ps) (h_works : .works ∈ ps) (h_nextWork : .nextWork ∈ ps) (h_drives : .drives ∈ ps) (h_gov : .gov ∈ ps) (h_degrade : .degrade ∈ ps) (h_daybook : .daybook ∈ ps) :
    (addWork s kind volume l row news wants forms recs replayed needs).outside ps = s.outside ps := by
  unfold addWork
  repeat' first
    | (simp [h_ledger, h_plans, h_works, h_nextWork, h_drives, h_gov, h_degrade, h_daybook]; done)
    | (rw [outside_foldl])
    | (intro _)
    | simp [h_ledger, h_plans, h_works, h_nextWork, h_drives, h_gov, h_degrade, h_daybook]
    | split

@[simp] theorem holdAtOnce_outside {ps : List Part} (s : State) (layout : Nat) (row : Nat) (id : Nat) (h_holds : .holds ∈ ps) :
    (holdAtOnce s layout row id).outside ps = s.outside ps := by
  unfold holdAtOnce
  repeat' first
    | (simp [h_holds]; done)
    | (rw [outside_foldl])
    | (intro _)
    | simp [h_holds]
    | split

@[simp] theorem scrubWork_outside {ps : List Part} (s : State) (l : Layout) (row : Nat) (pos : Nat) (news : List (Nat × Nat × Cells)) (forms : List (ChunkId × Bool)) (needs : List Need) (h_ledger : .ledger ∈ ps) (h_plans : .plans ∈ ps) (h_works : .works ∈ ps) (h_nextWork : .nextWork ∈ ps) (h_holds : .holds ∈ ps) (h_drives : .drives ∈ ps) (h_gov : .gov ∈ ps) (h_degrade : .degrade ∈ ps) (h_daybook : .daybook ∈ ps) :
    (scrubWork s l row pos news forms needs).outside ps = s.outside ps := by
  unfold scrubWork
  repeat' first
    | (simp [h_ledger, h_plans, h_works, h_nextWork, h_holds, h_drives, h_gov, h_degrade, h_daybook]; done)
    | (rw [outside_foldl])
    | (intro _)
    | simp [h_ledger, h_plans, h_works, h_nextWork, h_holds, h_drives, h_gov, h_degrade, h_daybook]
    | split

@[simp] theorem stripeReadComplete_outside {ps : List Part} (s : State) (id : Nat) (h_plans : .plans ∈ ps) (h_works : .works ∈ ps) (h_drives : .drives ∈ ps) (h_gov : .gov ∈ ps) :
    (stripeReadComplete s id).outside ps = s.outside ps := by
  unfold stripeReadComplete
  repeat' first
    | (simp [h_plans, h_works, h_drives, h_gov]; done)
    | (rw [outside_foldl])
    | (intro _)
    | simp [h_plans, h_works, h_drives, h_gov]
    | split

@[simp] theorem workRead_outside {ps : List Part} (s : State) (id : Nat) (ch : ChunkId) (pos : Nat) (data : Option Cells) (h_ledger : .ledger ∈ ps) (h_plans : .plans ∈ ps) (h_works : .works ∈ ps) (h_drives : .drives ∈ ps) (h_gov : .gov ∈ ps) (h_degrade : .degrade ∈ ps) (h_daybook : .daybook ∈ ps) :
    (workRead s id ch pos data).outside ps = s.outside ps := by
  unfold workRead
  split <;> simp [h_ledger, h_plans, h_works, h_drives, h_gov, h_degrade, h_daybook]

@[simp] theorem setUnwritten_outside {ps : List Part} (s : State) (layout : Nat) (row : Nat) (u : Bool) (h_ledger : .ledger ∈ ps) (h_bands : .bands ∈ ps) (h_chain : .chain ∈ ps) :
    (setUnwritten s layout row u).outside ps = s.outside ps := by
  unfold setUnwritten
  repeat' first
    | (simp [h_ledger, h_bands, h_chain]; done)
    | (rw [outside_foldl])
    | (intro _)
    | simp [h_ledger, h_bands, h_chain]
    | split
  all_goals
    have e := congrArg (fun p => State.outside ps p.1) ‹_ = (_, _)›
    simp [h_ledger, h_bands, h_chain] at e
    simp [h_ledger, h_bands, h_chain, e]

@[simp] theorem recRowDone_outside {ps : List Part} (s : State) (seq : Nat) (layout : Nat) (row : Nat) (h_ledger : .ledger ∈ ps) :
    (recRowDone s seq layout row).outside ps = s.outside ps := by
  unfold recRowDone
  repeat' first
    | (simp [h_ledger]; done)
    | (rw [outside_foldl])
    | (intro _)
    | simp [h_ledger]
    | split

@[simp] theorem needsExit_outside {ps : List Part} (s : State) (h_power : .power ∈ ps) :
    (needsExit s).outside ps = s.outside ps := by
  unfold needsExit
  repeat' first
    | (simp [h_power]; done)
    | (rw [outside_foldl])
    | (intro _)
    | simp [h_power]
    | split

@[simp] theorem markDelivered_outside {ps : List Part} (s : State) (tag : Nat) (needs : List Need) (h_drives : .drives ∈ ps) (h_degrade : .degrade ∈ ps) :
    (markDelivered s tag needs).outside ps = s.outside ps := by
  unfold markDelivered
  repeat' first
    | (simp [h_drives, h_degrade]; done)
    | (rw [outside_foldl])
    | (intro _)
    | simp [h_drives, h_degrade]
    | split

@[simp] theorem joinReads_outside {ps : List Part} (s : State) (q : Nat) (h_cmds : .cmds ∈ ps) :
    (joinReads s q).outside ps = s.outside ps := by
  unfold joinReads
  repeat' first
    | (simp [h_cmds]; done)
    | (rw [outside_foldl])
    | (intro _)
    | simp [h_cmds]
    | split

@[simp] theorem countUnrecorded_outside {ps : List Part} (s : State) (v : Nat) (lost : List Nat) (h_degrade : .degrade ∈ ps) :
    (countUnrecorded s v lost).outside ps = s.outside ps := by
  unfold countUnrecorded
  repeat' first
    | (simp [h_degrade]; done)
    | (rw [outside_foldl])
    | (intro _)
    | simp [h_degrade]
    | split

@[simp] theorem readDone_outside {ps : List Part} (s : State) (tag : Nat) (h_drives : .drives ∈ ps) (h_degrade : .degrade ∈ ps) (h_cmds : .cmds ∈ ps) (h_returns : .returns ∈ ps) (h_cache : .cache ∈ ps) :
    (readDone s tag).outside ps = s.outside ps := by
  unfold readDone
  repeat' first
    | (simp [h_drives, h_degrade, h_cmds, h_returns, h_cache]; done)
    | (rw [outside_foldl])
    | (intro _)
    | simp [h_drives, h_degrade, h_cmds, h_returns, h_cache]
    | split

@[simp] theorem modVault_outside {ps : List Part} (s : State) (v : Nat) (f : Vault → Vault) (h_vaults : .vaults ∈ ps) :
    (modVault s v f).outside ps = s.outside ps := by
  unfold modVault
  repeat' first
    | (simp [h_vaults]; done)
    | (rw [outside_foldl])
    | (intro _)
    | simp [h_vaults]
    | split

@[simp] theorem modObj_outside {ps : List Part} (s : State) (v : Nat) (k : Key) (f : Object → Object) (h_vaults : .vaults ∈ ps) :
    (modObj s v k f).outside ps = s.outside ps := by
  unfold modObj
  repeat' first
    | (simp [h_vaults]; done)
    | (rw [outside_foldl])
    | (intro _)
    | simp [h_vaults]
    | split

@[simp] theorem vaultMismatch_outside {ps : List Part} (s : State) (v : Nat) (o : Object) (h_drives : .drives ∈ ps) (h_vaults : .vaults ∈ ps) :
    (vaultMismatch s v o).outside ps = s.outside ps := by
  unfold vaultMismatch
  repeat' first
    | (simp [h_drives, h_vaults]; done)
    | (rw [outside_foldl])
    | (intro _)
    | simp [h_drives, h_vaults]
    | split

@[simp] theorem auditPassed_outside {ps : List Part} (s : State) (v : Nat) (o : Object) (h_vaults : .vaults ∈ ps) :
    (auditPassed s v o).outside ps = s.outside ps := by
  unfold auditPassed
  repeat' first
    | (simp [h_vaults]; done)
    | (rw [outside_foldl])
    | (intro _)
    | simp [h_vaults]
    | split

@[simp] theorem vaultDone_outside {ps : List Part} (s : State) (tag : Nat) (h_drives : .drives ∈ ps) (h_degrade : .degrade ∈ ps) (h_cmds : .cmds ∈ ps) (h_returns : .returns ∈ ps) (h_vaults : .vaults ∈ ps) :
    (vaultDone s tag).outside ps = s.outside ps := by
  unfold vaultDone
  repeat' first
    | (simp [h_drives, h_degrade, h_cmds, h_returns, h_vaults]; done)
    | (rw [outside_foldl])
    | (intro _)
    | simp [h_drives, h_degrade, h_cmds, h_returns, h_vaults]
    | split

@[simp] theorem blockDone_outside {ps : List Part} (s : State) (tag : Nat) (h_drives : .drives ∈ ps) (h_degrade : .degrade ∈ ps) (h_cmds : .cmds ∈ ps) (h_returns : .returns ∈ ps) (h_vaults : .vaults ∈ ps) (h_cache : .cache ∈ ps) :
    (blockDone s tag).outside ps = s.outside ps := by
  unfold blockDone
  repeat' first
    | (simp [h_drives, h_degrade, h_cmds, h_returns, h_vaults, h_cache]; done)
    | (rw [outside_foldl])
    | (intro _)
    | simp [h_drives, h_degrade, h_cmds, h_returns, h_vaults, h_cache]
    | split

@[simp] theorem jobDone_outside {ps : List Part} (s : State) (id : Nat) (h_drives : .drives ∈ ps) (h_degrade : .degrade ∈ ps) (h_vaults : .vaults ∈ ps) (h_daybook : .daybook ∈ ps) :
    (jobDone s id).outside ps = s.outside ps := by
  unfold jobDone
  repeat' first
    | (simp [h_drives, h_degrade, h_vaults, h_daybook]; done)
    | (rw [outside_foldl])
    | (intro _)
    | simp [h_drives, h_degrade, h_vaults, h_daybook]
    | split

@[simp] theorem modNeed_outside {ps : List Part} (s : State) (tag : Nat) (idx : Nat) (f : Need → Option Need) (h_works : .works ∈ ps) (h_cmds : .cmds ∈ ps) (h_vaults : .vaults ∈ ps) :
    (modNeed s tag idx f).outside ps = s.outside ps := by
  unfold modNeed
  repeat' first
    | (simp [h_works, h_cmds, h_vaults]; done)
    | (rw [outside_foldl])
    | (intro _)
    | simp [h_works, h_cmds, h_vaults]
    | split

@[simp] theorem needMoved_outside {ps : List Part} (s : State) (tag : Nat) (h_works : .works ∈ ps) (h_drives : .drives ∈ ps) (h_gov : .gov ∈ ps) (h_degrade : .degrade ∈ ps) (h_cmds : .cmds ∈ ps) (h_returns : .returns ∈ ps) (h_vaults : .vaults ∈ ps) (h_daybook : .daybook ∈ ps) (h_cache : .cache ∈ ps) :
    (needMoved s tag).outside ps = s.outside ps := by
  unfold needMoved
  repeat' first
    | (simp [h_works, h_drives, h_gov, h_degrade, h_cmds, h_returns, h_vaults, h_daybook, h_cache]; done)
    | (rw [outside_foldl])
    | (intro _)
    | simp [h_works, h_drives, h_gov, h_degrade, h_cmds, h_returns, h_vaults, h_daybook, h_cache]
    | split

@[simp] theorem parkCmd_outside {ps : List Part} (s : State) (tag : Nat) (groups : List Nat) (h_gov : .gov ∈ ps) (h_cmds : .cmds ∈ ps) (h_power : .power ∈ ps) :
    (parkCmd s tag groups).outside ps = s.outside ps := by
  unfold parkCmd
  repeat' first
    | (simp [h_gov, h_cmds, h_power]; done)
    | (rw [outside_foldl])
    | (intro _)
    | simp [h_gov, h_cmds, h_power]
    | split

@[simp] theorem parkNeed_outside {ps : List Part} (s : State) (tag : Nat) (groups : List Nat) (h_gov : .gov ∈ ps) (h_cmds : .cmds ∈ ps) (h_power : .power ∈ ps) (h_vaults : .vaults ∈ ps) :
    (parkNeed s tag groups).outside ps = s.outside ps := by
  unfold parkNeed
  repeat' first
    | (simp [h_gov, h_cmds, h_power, h_vaults]; done)
    | (rw [outside_foldl])
    | (intro _)
    | simp [h_gov, h_cmds, h_power, h_vaults]
    | split

@[simp] theorem rewriteFromTarget_outside {ps : List Part} (s : State) (v : Nat) (b : Nat) (h_ledger : .ledger ∈ ps) (h_plans : .plans ∈ ps) (h_works : .works ∈ ps) (h_nextWork : .nextWork ∈ ps) (h_holds : .holds ∈ ps) (h_drives : .drives ∈ ps) (h_gov : .gov ∈ ps) (h_degrade : .degrade ∈ ps) (h_daybook : .daybook ∈ ps) :
    (rewriteFromTarget s v b).outside ps = s.outside ps := by
  unfold rewriteFromTarget
  repeat' first
    | (simp [h_ledger, h_plans, h_works, h_nextWork, h_holds, h_drives, h_gov, h_degrade, h_daybook]; done)
    | (rw [outside_foldl])
    | (intro _)
    | simp [h_ledger, h_plans, h_works, h_nextWork, h_holds, h_drives, h_gov, h_degrade, h_daybook]
    | split

@[simp] theorem needLost_outside {ps : List Part} (s : State) (tag : Nat) (n : Need) (h_ledger : .ledger ∈ ps) (h_plans : .plans ∈ ps) (h_works : .works ∈ ps) (h_nextWork : .nextWork ∈ ps) (h_holds : .holds ∈ ps) (h_drives : .drives ∈ ps) (h_gov : .gov ∈ ps) (h_degrade : .degrade ∈ ps) (h_cmds : .cmds ∈ ps) (h_power : .power ∈ ps) (h_vaults : .vaults ∈ ps) (h_daybook : .daybook ∈ ps) :
    (needLost s tag n).outside ps = s.outside ps := by
  unfold needLost
  repeat' first
    | (simp [h_ledger, h_plans, h_works, h_nextWork, h_holds, h_drives, h_gov, h_degrade, h_cmds, h_power, h_vaults, h_daybook]; done)
    | (rw [outside_foldl])
    | (intro _)
    | simp [h_ledger, h_plans, h_works, h_nextWork, h_holds, h_drives, h_gov, h_degrade, h_cmds, h_power, h_vaults, h_daybook]
    | split
  all_goals
    have e := congrArg (fun p => State.outside ps p.1) ‹_ = (_, _)›
    simp [h_ledger, h_plans, h_works, h_nextWork, h_holds, h_drives, h_gov, h_degrade, h_cmds, h_power, h_vaults, h_daybook] at e
    simp [h_ledger, h_plans, h_works, h_nextWork, h_holds, h_drives, h_gov, h_degrade, h_cmds, h_power, h_vaults, h_daybook, e]

@[simp] theorem replanNeed_outside {ps : List Part} (s : State) (tag : Nat) (idx : Nat) (bad : List ChunkId) (h_ledger : .ledger ∈ ps) (h_plans : .plans ∈ ps) (h_works : .works ∈ ps) (h_nextWork : .nextWork ∈ ps) (h_holds : .holds ∈ ps) (h_drives : .drives ∈ ps) (h_gov : .gov ∈ ps) (h_degrade : .degrade ∈ ps) (h_cmds : .cmds ∈ ps) (h_returns : .returns ∈ ps) (h_power : .power ∈ ps) (h_vaults : .vaults ∈ ps) (h_daybook : .daybook ∈ ps) (h_cache : .cache ∈ ps) :
    (replanNeed s tag idx bad).outside ps = s.outside ps := by
  unfold replanNeed
  repeat' first
    | (simp [h_ledger, h_plans, h_works, h_nextWork, h_holds, h_drives, h_gov, h_degrade, h_cmds, h_returns, h_power, h_vaults, h_daybook, h_cache]; done)
    | (rw [outside_foldl])
    | (intro _)
    | simp [h_ledger, h_plans, h_works, h_nextWork, h_holds, h_drives, h_gov, h_degrade, h_cmds, h_returns, h_power, h_vaults, h_daybook, h_cache]
    | split

@[simp] theorem resumeNeeds_outside {ps : List Part} (s : State) (tag : Nat) (h_ledger : .ledger ∈ ps) (h_plans : .plans ∈ ps) (h_works : .works ∈ ps) (h_nextWork : .nextWork ∈ ps) (h_holds : .holds ∈ ps) (h_drives : .drives ∈ ps) (h_gov : .gov ∈ ps) (h_degrade : .degrade ∈ ps) (h_cmds : .cmds ∈ ps) (h_returns : .returns ∈ ps) (h_power : .power ∈ ps) (h_vaults : .vaults ∈ ps) (h_daybook : .daybook ∈ ps) (h_cache : .cache ∈ ps) :
    (resumeNeeds s tag).outside ps = s.outside ps := by
  unfold resumeNeeds
  repeat' first
    | (simp [h_ledger, h_plans, h_works, h_nextWork, h_holds, h_drives, h_gov, h_degrade, h_cmds, h_returns, h_power, h_vaults, h_daybook, h_cache]; done)
    | (rw [outside_foldl])
    | (intro _)
    | simp [h_ledger, h_plans, h_works, h_nextWork, h_holds, h_drives, h_gov, h_degrade, h_cmds, h_returns, h_power, h_vaults, h_daybook, h_cache]
    | split

@[simp] theorem readIssue_outside {ps : List Part} (s : State) (tag : Nat) (h_ledger : .ledger ∈ ps) (h_plans : .plans ∈ ps) (h_works : .works ∈ ps) (h_nextWork : .nextWork ∈ ps) (h_holds : .holds ∈ ps) (h_drives : .drives ∈ ps) (h_gov : .gov ∈ ps) (h_degrade : .degrade ∈ ps) (h_cmds : .cmds ∈ ps) (h_returns : .returns ∈ ps) (h_power : .power ∈ ps) (h_vaults : .vaults ∈ ps) (h_daybook : .daybook ∈ ps) (h_cache : .cache ∈ ps) :
    (readIssue s tag).outside ps = s.outside ps := by
  unfold readIssue
  repeat' first
    | (simp [h_ledger, h_plans, h_works, h_nextWork, h_holds, h_drives, h_gov, h_degrade, h_cmds, h_returns, h_power, h_vaults, h_daybook, h_cache]; done)
    | (rw [outside_foldl])
    | (intro _)
    | simp [h_ledger, h_plans, h_works, h_nextWork, h_holds, h_drives, h_gov, h_degrade, h_cmds, h_returns, h_power, h_vaults, h_daybook, h_cache]
    | split

@[simp] theorem beginRead_outside {ps : List Part} (s : State) (tag : Nat) (h_ledger : .ledger ∈ ps) (h_plans : .plans ∈ ps) (h_works : .works ∈ ps) (h_nextWork : .nextWork ∈ ps) (h_holds : .holds ∈ ps) (h_drives : .drives ∈ ps) (h_gov : .gov ∈ ps) (h_degrade : .degrade ∈ ps) (h_cmds : .cmds ∈ ps) (h_returns : .returns ∈ ps) (h_power : .power ∈ ps) (h_vaults : .vaults ∈ ps) (h_daybook : .daybook ∈ ps) (h_cache : .cache ∈ ps) :
    (beginRead s tag).outside ps = s.outside ps := by
  unfold beginRead
  repeat' first
    | (simp [h_ledger, h_plans, h_works, h_nextWork, h_holds, h_drives, h_gov, h_degrade, h_cmds, h_returns, h_power, h_vaults, h_daybook, h_cache]; done)
    | (rw [outside_foldl])
    | (intro _)
    | simp [h_ledger, h_plans, h_works, h_nextWork, h_holds, h_drives, h_gov, h_degrade, h_cmds, h_returns, h_power, h_vaults, h_daybook, h_cache]
    | split
  all_goals
    have e := congrArg (fun p => State.outside ps p.1) ‹_ = (_, _)›
    simp [h_ledger, h_plans, h_works, h_nextWork, h_holds, h_drives, h_gov, h_degrade, h_cmds, h_returns, h_power, h_vaults, h_daybook, h_cache] at e
    simp [h_ledger, h_plans, h_works, h_nextWork, h_holds, h_drives, h_gov, h_degrade, h_cmds, h_returns, h_power, h_vaults, h_daybook, h_cache, e]

@[simp] theorem readRow_outside {ps : List Part} (s : State) (opcode : Nat) (tag : Nat) (h_ledger : .ledger ∈ ps) (h_plans : .plans ∈ ps) (h_works : .works ∈ ps) (h_nextWork : .nextWork ∈ ps) (h_holds : .holds ∈ ps) (h_drives : .drives ∈ ps) (h_gov : .gov ∈ ps) (h_degrade : .degrade ∈ ps) (h_cmds : .cmds ∈ ps) (h_returns : .returns ∈ ps) (h_power : .power ∈ ps) (h_vaults : .vaults ∈ ps) (h_daybook : .daybook ∈ ps) (h_cache : .cache ∈ ps) :
    (readRow s opcode tag).outside ps = s.outside ps := by
  unfold readRow
  repeat' first
    | (simp [h_ledger, h_plans, h_works, h_nextWork, h_holds, h_drives, h_gov, h_degrade, h_cmds, h_returns, h_power, h_vaults, h_daybook, h_cache]; done)
    | (rw [outside_foldl])
    | (intro _)
    | simp [h_ledger, h_plans, h_works, h_nextWork, h_holds, h_drives, h_gov, h_degrade, h_cmds, h_returns, h_power, h_vaults, h_daybook, h_cache]
    | split

@[simp] theorem readWaitEnd_outside {ps : List Part} (s : State) (tag : Nat) (h_ledger : .ledger ∈ ps) (h_plans : .plans ∈ ps) (h_works : .works ∈ ps) (h_nextWork : .nextWork ∈ ps) (h_holds : .holds ∈ ps) (h_drives : .drives ∈ ps) (h_gov : .gov ∈ ps) (h_degrade : .degrade ∈ ps) (h_cmds : .cmds ∈ ps) (h_returns : .returns ∈ ps) (h_power : .power ∈ ps) (h_vaults : .vaults ∈ ps) (h_daybook : .daybook ∈ ps) (h_cache : .cache ∈ ps) :
    (readWaitEnd s tag).outside ps = s.outside ps := by
  unfold readWaitEnd
  repeat' first
    | (simp [h_ledger, h_plans, h_works, h_nextWork, h_holds, h_drives, h_gov, h_degrade, h_cmds, h_returns, h_power, h_vaults, h_daybook, h_cache]; done)
    | (rw [outside_foldl])
    | (intro _)
    | simp [h_ledger, h_plans, h_works, h_nextWork, h_holds, h_drives, h_gov, h_degrade, h_cmds, h_returns, h_power, h_vaults, h_daybook, h_cache]
    | split

@[simp] theorem issueParked_outside {ps : List Part} (s : State) (h_ledger : .ledger ∈ ps) (h_plans : .plans ∈ ps) (h_works : .works ∈ ps) (h_nextWork : .nextWork ∈ ps) (h_holds : .holds ∈ ps) (h_drives : .drives ∈ ps) (h_gov : .gov ∈ ps) (h_degrade : .degrade ∈ ps) (h_cmds : .cmds ∈ ps) (h_returns : .returns ∈ ps) (h_power : .power ∈ ps) (h_vaults : .vaults ∈ ps) (h_daybook : .daybook ∈ ps) (h_cache : .cache ∈ ps) :
    (issueParked s).outside ps = s.outside ps := by
  unfold issueParked
  repeat' first
    | (simp [h_ledger, h_plans, h_works, h_nextWork, h_holds, h_drives, h_gov, h_degrade, h_cmds, h_returns, h_power, h_vaults, h_daybook, h_cache]; done)
    | (rw [outside_foldl])
    | (intro _)
    | simp [h_ledger, h_plans, h_works, h_nextWork, h_holds, h_drives, h_gov, h_degrade, h_cmds, h_returns, h_power, h_vaults, h_daybook, h_cache]
    | split

@[simp] theorem resumeWork_outside {ps : List Part} (s : State) (w : Work) (h_works : .works ∈ ps) (h_drives : .drives ∈ ps) (h_gov : .gov ∈ ps) (h_degrade : .degrade ∈ ps) (h_daybook : .daybook ∈ ps) :
    (resumeWork s w).outside ps = s.outside ps := by
  unfold resumeWork
  repeat' first
    | (simp [h_works, h_drives, h_gov, h_degrade, h_daybook]; done)
    | (rw [outside_foldl])
    | (intro _)
    | simp [h_works, h_drives, h_gov, h_degrade, h_daybook]
    | split

@[simp] theorem needsBoundary_outside {ps : List Part} (s : State) (h_ledger : .ledger ∈ ps) (h_plans : .plans ∈ ps) (h_works : .works ∈ ps) (h_nextWork : .nextWork ∈ ps) (h_holds : .holds ∈ ps) (h_drives : .drives ∈ ps) (h_gov : .gov ∈ ps) (h_degrade : .degrade ∈ ps) (h_cmds : .cmds ∈ ps) (h_returns : .returns ∈ ps) (h_power : .power ∈ ps) (h_vaults : .vaults ∈ ps) (h_daybook : .daybook ∈ ps) (h_cache : .cache ∈ ps) :
    (needsBoundary s).outside ps = s.outside ps := by
  unfold needsBoundary
  repeat' first
    | (simp [h_ledger, h_plans, h_works, h_nextWork, h_holds, h_drives, h_gov, h_degrade, h_cmds, h_returns, h_power, h_vaults, h_daybook, h_cache]; done)
    | (rw [outside_foldl])
    | (intro _)
    | simp [h_ledger, h_plans, h_works, h_nextWork, h_holds, h_drives, h_gov, h_degrade, h_cmds, h_returns, h_power, h_vaults, h_daybook, h_cache]
    | split

@[simp] theorem countMoved_outside {ps : List Part} (s : State) (g : Nat) (kind : Option WorkKind) (n : Nat) (h_gov : .gov ∈ ps) :
    (countMoved s g kind n).outside ps = s.outside ps := by
  unfold countMoved
  repeat' first
    | (simp [h_gov]; done)
    | (rw [outside_foldl])
    | (intro _)
    | simp [h_gov]
    | split

@[simp] theorem countMember_outside {ps : List Part} (s : State) (k : MemberCmd) (h_gov : .gov ∈ ps) :
    (countMember s k).outside ps = s.outside ps := by
  unfold countMember
  repeat' first
    | (simp [h_gov]; done)
    | (rw [outside_foldl])
    | (intro _)
    | simp [h_gov]
    | split

@[simp] theorem periodBoundary_outside {ps : List Part} (s : State) (h_gov : .gov ∈ ps) :
    (periodBoundary s).outside ps = s.outside ps := by
  unfold periodBoundary
  repeat' first
    | (simp [h_gov]; done)
    | (rw [outside_foldl])
    | (intro _)
    | simp [h_gov]
    | split

@[simp] theorem positionFails_outside {ps : List Part} (s : State) (layout : Nat) (row : Nat) (c : ChunkId) (pos : Nat) (h_degrade : .degrade ∈ ps) :
    (positionFails s layout row c pos).outside ps = s.outside ps := by
  unfold positionFails
  repeat' first
    | (simp [h_degrade]; done)
    | (rw [outside_foldl])
    | (intro _)
    | simp [h_degrade]
    | split

@[simp] theorem positionGood_outside {ps : List Part} (s : State) (layout : Nat) (row : Nat) (c : ChunkId) (pos : Nat) (h_degrade : .degrade ∈ ps) :
    (positionGood s layout row c pos).outside ps = s.outside ps := by
  unfold positionGood
  repeat' first
    | (simp [h_degrade]; done)
    | (rw [outside_foldl])
    | (intro _)
    | simp [h_degrade]
    | split

@[simp] theorem repairFails_outside {ps : List Part} (s : State) (id : Nat) (h_plans : .plans ∈ ps) (h_works : .works ∈ ps) (h_holds : .holds ∈ ps) (h_drives : .drives ∈ ps) (h_gov : .gov ∈ ps) (h_degrade : .degrade ∈ ps) (h_daybook : .daybook ∈ ps) :
    (repairFails s id).outside ps = s.outside ps := by
  unfold repairFails
  repeat' first
    | (simp [h_plans, h_works, h_holds, h_drives, h_gov, h_degrade, h_daybook]; done)
    | (rw [outside_foldl])
    | (intro _)
    | simp [h_plans, h_works, h_holds, h_drives, h_gov, h_degrade, h_daybook]
    | split

@[simp] theorem shelfRelease_outside {ps : List Part} (s : State) (g : Nat) (h_gov : .gov ∈ ps) :
    (shelfRelease s g).outside ps = s.outside ps := by
  unfold shelfRelease
  repeat' first
    | (simp [h_gov]; done)
    | (rw [outside_foldl])
    | (intro _)
    | simp [h_gov]
    | split

@[simp] theorem rewriteWork_outside {ps : List Part} (s : State) (id : Nat) (h_ledger : .ledger ∈ ps) (h_works : .works ∈ ps) (h_drives : .drives ∈ ps) (h_gov : .gov ∈ ps) (h_degrade : .degrade ∈ ps) (h_daybook : .daybook ∈ ps) :
    (rewriteWork s id).outside ps = s.outside ps := by
  unfold rewriteWork
  repeat' first
    | (simp [h_ledger, h_works, h_drives, h_gov, h_degrade, h_daybook]; done)
    | (rw [outside_foldl])
    | (intro _)
    | simp [h_ledger, h_works, h_drives, h_gov, h_degrade, h_daybook]
    | split

@[simp] theorem writesEnded_outside {ps : List Part} (s : State) (id : Nat) (h_ledger : .ledger ∈ ps) (h_works : .works ∈ ps) (h_drives : .drives ∈ ps) (h_gov : .gov ∈ ps) (h_degrade : .degrade ∈ ps) (h_daybook : .daybook ∈ ps) :
    (writesEnded s id).outside ps = s.outside ps := by
  unfold writesEnded
  repeat' first
    | (simp [h_ledger, h_works, h_drives, h_gov, h_degrade, h_daybook]; done)
    | (rw [outside_foldl])
    | (intro _)
    | simp [h_ledger, h_works, h_drives, h_gov, h_degrade, h_daybook]
    | split

@[simp] theorem deliver_outside {ps : List Part} (s : State) (k : MemberCmd) (data : Cells) (h_ledger : .ledger ∈ ps) (h_plans : .plans ∈ ps) (h_works : .works ∈ ps) (h_drives : .drives ∈ ps) (h_gov : .gov ∈ ps) (h_degrade : .degrade ∈ ps) (h_cmds : .cmds ∈ ps) (h_returns : .returns ∈ ps) (h_vaults : .vaults ∈ ps) (h_daybook : .daybook ∈ ps) (h_cache : .cache ∈ ps) :
    (deliver s k data).outside ps = s.outside ps := by
  unfold deliver
  repeat' first
    | (simp [h_ledger, h_plans, h_works, h_drives, h_gov, h_degrade, h_cmds, h_returns, h_vaults, h_daybook, h_cache]; done)
    | (rw [outside_foldl])
    | (intro _)
    | simp [h_ledger, h_plans, h_works, h_drives, h_gov, h_degrade, h_cmds, h_returns, h_vaults, h_daybook, h_cache]
    | split

@[simp] theorem failed_outside {ps : List Part} (s : State) (k : MemberCmd) (h_ledger : .ledger ∈ ps) (h_plans : .plans ∈ ps) (h_works : .works ∈ ps) (h_nextWork : .nextWork ∈ ps) (h_holds : .holds ∈ ps) (h_drives : .drives ∈ ps) (h_gov : .gov ∈ ps) (h_degrade : .degrade ∈ ps) (h_cmds : .cmds ∈ ps) (h_returns : .returns ∈ ps) (h_power : .power ∈ ps) (h_vaults : .vaults ∈ ps) (h_daybook : .daybook ∈ ps) (h_cache : .cache ∈ ps) :
    (failed s k).outside ps = s.outside ps := by
  unfold failed
  repeat' first
    | (simp [h_ledger, h_plans, h_works, h_nextWork, h_holds, h_drives, h_gov, h_degrade, h_cmds, h_returns, h_power, h_vaults, h_daybook, h_cache]; done)
    | (rw [outside_foldl])
    | (intro _)
    | simp [h_ledger, h_plans, h_works, h_nextWork, h_holds, h_drives, h_gov, h_degrade, h_cmds, h_returns, h_power, h_vaults, h_daybook, h_cache]
    | split

@[simp] theorem reconstruct_outside {ps : List Part} (s : State) (k : MemberCmd) (h_ledger : .ledger ∈ ps) (h_plans : .plans ∈ ps) (h_works : .works ∈ ps) (h_nextWork : .nextWork ∈ ps) (h_holds : .holds ∈ ps) (h_drives : .drives ∈ ps) (h_gov : .gov ∈ ps) (h_degrade : .degrade ∈ ps) (h_cmds : .cmds ∈ ps) (h_returns : .returns ∈ ps) (h_power : .power ∈ ps) (h_vaults : .vaults ∈ ps) (h_daybook : .daybook ∈ ps) (h_cache : .cache ∈ ps) :
    (reconstruct s k).outside ps = s.outside ps := by
  unfold reconstruct
  repeat' first
    | (simp [h_ledger, h_plans, h_works, h_nextWork, h_holds, h_drives, h_gov, h_degrade, h_cmds, h_returns, h_power, h_vaults, h_daybook, h_cache]; done)
    | (rw [outside_foldl])
    | (intro _)
    | simp [h_ledger, h_plans, h_works, h_nextWork, h_holds, h_drives, h_gov, h_degrade, h_cmds, h_returns, h_power, h_vaults, h_daybook, h_cache]
    | split

@[simp] theorem retryWrites_outside {ps : List Part} (s : State) (h_works : .works ∈ ps) (h_drives : .drives ∈ ps) (h_gov : .gov ∈ ps) :
    (retryWrites s).outside ps = s.outside ps := by
  unfold retryWrites
  repeat' first
    | (simp [h_works, h_drives, h_gov]; done)
    | (rw [outside_foldl])
    | (intro _)
    | simp [h_works, h_drives, h_gov]
    | split

@[simp] theorem backOnline_outside {ps : List Part} (s : State) (k : MemberCmd) (h_works : .works ∈ ps) (h_drives : .drives ∈ ps) (h_gov : .gov ∈ ps) :
    (backOnline s k).outside ps = s.outside ps := by
  unfold backOnline
  repeat' first
    | (simp [h_works, h_drives, h_gov]; done)
    | (rw [outside_foldl])
    | (intro _)
    | simp [h_works, h_drives, h_gov]
    | split

@[simp] theorem lateRead_outside {ps : List Part} (s : State) (k : MemberCmd) (data : Cells) (h_plans : .plans ∈ ps) (h_works : .works ∈ ps) (h_drives : .drives ∈ ps) (h_gov : .gov ∈ ps) (h_degrade : .degrade ∈ ps) (h_tellers : .tellers ∈ ps) (h_cmds : .cmds ∈ ps) (h_returns : .returns ∈ ps) (h_vaults : .vaults ∈ ps) (h_daybook : .daybook ∈ ps) (h_cache : .cache ∈ ps) :
    (lateRead s k data).outside ps = s.outside ps := by
  unfold lateRead
  repeat' first
    | (simp [h_plans, h_works, h_drives, h_gov, h_degrade, h_tellers, h_cmds, h_returns, h_vaults, h_daybook, h_cache]; done)
    | (rw [outside_foldl])
    | (intro _)
    | simp [h_plans, h_works, h_drives, h_gov, h_degrade, h_tellers, h_cmds, h_returns, h_vaults, h_daybook, h_cache]
    | split

@[simp] theorem memberCompletion_outside {ps : List Part} (s : State) (id : Nat) (sense : Sense) (data : List Byte) (h_ledger : .ledger ∈ ps) (h_plans : .plans ∈ ps) (h_works : .works ∈ ps) (h_nextWork : .nextWork ∈ ps) (h_holds : .holds ∈ ps) (h_drives : .drives ∈ ps) (h_gov : .gov ∈ ps) (h_degrade : .degrade ∈ ps) (h_tellers : .tellers ∈ ps) (h_cmds : .cmds ∈ ps) (h_returns : .returns ∈ ps) (h_power : .power ∈ ps) (h_vaults : .vaults ∈ ps) (h_daybook : .daybook ∈ ps) (h_cache : .cache ∈ ps) :
    (memberCompletion s id sense data).outside ps = s.outside ps := by
  unfold memberCompletion
  repeat' first
    | (simp [h_ledger, h_plans, h_works, h_nextWork, h_holds, h_drives, h_gov, h_degrade, h_tellers, h_cmds, h_returns, h_power, h_vaults, h_daybook, h_cache]; done)
    | (rw [outside_foldl])
    | (intro _)
    | simp [h_ledger, h_plans, h_works, h_nextWork, h_holds, h_drives, h_gov, h_degrade, h_tellers, h_cmds, h_returns, h_power, h_vaults, h_daybook, h_cache]
    | split

@[simp] theorem suspect_outside {ps : List Part} (s : State) (m : Nat) (h_ledger : .ledger ∈ ps) (h_plans : .plans ∈ ps) (h_works : .works ∈ ps) (h_nextWork : .nextWork ∈ ps) (h_holds : .holds ∈ ps) (h_drives : .drives ∈ ps) (h_gov : .gov ∈ ps) (h_degrade : .degrade ∈ ps) (h_cmds : .cmds ∈ ps) (h_returns : .returns ∈ ps) (h_power : .power ∈ ps) (h_vaults : .vaults ∈ ps) (h_daybook : .daybook ∈ ps) (h_cache : .cache ∈ ps) :
    (suspect s m).outside ps = s.outside ps := by
  unfold suspect
  repeat' first
    | (simp [h_ledger, h_plans, h_works, h_nextWork, h_holds, h_drives, h_gov, h_degrade, h_cmds, h_returns, h_power, h_vaults, h_daybook, h_cache]; done)
    | (rw [outside_foldl])
    | (intro _)
    | simp [h_ledger, h_plans, h_works, h_nextWork, h_holds, h_drives, h_gov, h_degrade, h_cmds, h_returns, h_power, h_vaults, h_daybook, h_cache]
    | split

@[simp] theorem commandTimeout_outside {ps : List Part} (s : State) (id : Nat) (h_ledger : .ledger ∈ ps) (h_plans : .plans ∈ ps) (h_works : .works ∈ ps) (h_nextWork : .nextWork ∈ ps) (h_holds : .holds ∈ ps) (h_drives : .drives ∈ ps) (h_gov : .gov ∈ ps) (h_degrade : .degrade ∈ ps) (h_cmds : .cmds ∈ ps) (h_returns : .returns ∈ ps) (h_power : .power ∈ ps) (h_vaults : .vaults ∈ ps) (h_daybook : .daybook ∈ ps) (h_cache : .cache ∈ ps) :
    (commandTimeout s id).outside ps = s.outside ps := by
  unfold commandTimeout
  repeat' first
    | (simp [h_ledger, h_plans, h_works, h_nextWork, h_holds, h_drives, h_gov, h_degrade, h_cmds, h_returns, h_power, h_vaults, h_daybook, h_cache]; done)
    | (rw [outside_foldl])
    | (intro _)
    | simp [h_ledger, h_plans, h_works, h_nextWork, h_holds, h_drives, h_gov, h_degrade, h_cmds, h_returns, h_power, h_vaults, h_daybook, h_cache]
    | split

@[simp] theorem mediaRepair_outside {ps : List Part} (s : State) (m : Nat) (layout : Nat) (row : Nat) (c : ChunkId) (pos : Nat) (h_ledger : .ledger ∈ ps) (h_plans : .plans ∈ ps) (h_works : .works ∈ ps) (h_nextWork : .nextWork ∈ ps) (h_drives : .drives ∈ ps) (h_gov : .gov ∈ ps) (h_degrade : .degrade ∈ ps) (h_daybook : .daybook ∈ ps) :
    (mediaRepair s m layout row c pos).outside ps = s.outside ps := by
  unfold mediaRepair
  repeat' first
    | (simp [h_ledger, h_plans, h_works, h_nextWork, h_drives, h_gov, h_degrade, h_daybook]; done)
    | (rw [outside_foldl])
    | (intro _)
    | simp [h_ledger, h_plans, h_works, h_nextWork, h_drives, h_gov, h_degrade, h_daybook]
    | split

@[simp] theorem modPass_outside {ps : List Part} (s : State) (k : Nat) (f : Pass → Pass) (h_degrade : .degrade ∈ ps) :
    (modPass s k f).outside ps = s.outside ps := by
  unfold modPass
  repeat' first
    | (simp [h_degrade]; done)
    | (rw [outside_foldl])
    | (intro _)
    | simp [h_degrade]
    | split

@[simp] theorem passDemand_outside {ps : List Part} (s : State) (k : Nat) (h_gov : .gov ∈ ps) :
    (passDemand s k).outside ps = s.outside ps := by
  unfold passDemand
  repeat' first
    | (simp [h_gov]; done)
    | (rw [outside_foldl])
    | (intro _)
    | simp [h_gov]
    | split

@[simp] theorem waitForPass_outside {ps : List Part} (s : State) (layout : Nat) (pool : Nat) (h_degrade : .degrade ∈ ps) :
    (waitForPass s layout pool).outside ps = s.outside ps := by
  unfold waitForPass
  repeat' first
    | (simp [h_degrade]; done)
    | (rw [outside_foldl])
    | (intro _)
    | simp [h_degrade]
    | split

@[simp] theorem passFor_outside {ps : List Part} (s : State) (l : Layout) (pn : Nat) (m : Nat) (u : HomeChoice) (h_degrade : .degrade ∈ ps) :
    (passFor s l pn m u).outside ps = s.outside ps := by
  unfold passFor
  repeat' first
    | (simp [h_degrade]; done)
    | (rw [outside_foldl])
    | (intro _)
    | simp [h_degrade]
    | split

@[simp] theorem retireIn_outside {ps : List Part} (s : State) (l : Layout) (pn : Nat) (p : Pool) (m : Nat) (h_drives : .drives ∈ ps) (h_degrade : .degrade ∈ ps) (h_reshapes : .reshapes ∈ ps) (h_daybook : .daybook ∈ ps) :
    (retireIn s l pn p m).outside ps = s.outside ps := by
  unfold retireIn
  simp only
  split <;> simp [h_drives, h_degrade, h_reshapes, h_daybook]

@[simp] theorem restartFor_outside {ps : List Part} (s : State) (layout : Nat) (pool : Nat) (m : Nat) (h_gov : .gov ∈ ps) (h_degrade : .degrade ∈ ps) :
    (restartFor s layout pool m).outside ps = s.outside ps := by
  unfold restartFor
  repeat' first
    | (simp [h_gov, h_degrade]; done)
    | (rw [outside_foldl])
    | (intro _)
    | simp [h_gov, h_degrade]
    | split

@[simp] theorem rechoose_outside {ps : List Part} (s : State) (l : Layout) (pn : Nat) (p : Pool) (m : Nat) (h_drives : .drives ∈ ps) (h_gov : .gov ∈ ps) (h_degrade : .degrade ∈ ps) (h_reshapes : .reshapes ∈ ps) (h_daybook : .daybook ∈ ps) :
    (rechoose s l pn p m).outside ps = s.outside ps := by
  unfold rechoose
  repeat' first
    | (simp [h_drives, h_gov, h_degrade, h_reshapes, h_daybook]; done)
    | (rw [outside_foldl])
    | (intro _)
    | simp [h_drives, h_gov, h_degrade, h_reshapes, h_daybook]
    | split

@[simp] theorem abortOn_outside {ps : List Part} (s : State) (m : Nat) (h_ledger : .ledger ∈ ps) (h_plans : .plans ∈ ps) (h_works : .works ∈ ps) (h_nextWork : .nextWork ∈ ps) (h_holds : .holds ∈ ps) (h_drives : .drives ∈ ps) (h_gov : .gov ∈ ps) (h_degrade : .degrade ∈ ps) (h_cmds : .cmds ∈ ps) (h_returns : .returns ∈ ps) (h_power : .power ∈ ps) (h_vaults : .vaults ∈ ps) (h_daybook : .daybook ∈ ps) (h_cache : .cache ∈ ps) :
    (abortOn s m).outside ps = s.outside ps := by
  unfold abortOn
  repeat' first
    | (simp [h_ledger, h_plans, h_works, h_nextWork, h_holds, h_drives, h_gov, h_degrade, h_cmds, h_returns, h_power, h_vaults, h_daybook, h_cache]; done)
    | (rw [outside_foldl])
    | (intro _)
    | simp [h_ledger, h_plans, h_works, h_nextWork, h_holds, h_drives, h_gov, h_degrade, h_cmds, h_returns, h_power, h_vaults, h_daybook, h_cache]
    | split

@[simp] theorem retireMember_outside {ps : List Part} (s : State) (m : Nat) (cause : Nat) (h_ledger : .ledger ∈ ps) (h_plans : .plans ∈ ps) (h_works : .works ∈ ps) (h_nextWork : .nextWork ∈ ps) (h_holds : .holds ∈ ps) (h_drives : .drives ∈ ps) (h_gov : .gov ∈ ps) (h_degrade : .degrade ∈ ps) (h_reshapes : .reshapes ∈ ps) (h_cmds : .cmds ∈ ps) (h_returns : .returns ∈ ps) (h_power : .power ∈ ps) (h_vaults : .vaults ∈ ps) (h_daybook : .daybook ∈ ps) (h_cache : .cache ∈ ps) :
    (retireMember s m cause).outside ps = s.outside ps := by
  unfold retireMember
  repeat' first
    | (simp [h_ledger, h_plans, h_works, h_nextWork, h_holds, h_drives, h_gov, h_degrade, h_reshapes, h_cmds, h_returns, h_power, h_vaults, h_daybook, h_cache]; done)
    | (rw [outside_foldl])
    | (intro _)
    | simp [h_ledger, h_plans, h_works, h_nextWork, h_holds, h_drives, h_gov, h_degrade, h_reshapes, h_cmds, h_returns, h_power, h_vaults, h_daybook, h_cache]
    | split

@[simp] theorem memberBoundary_outside {ps : List Part} (s : State) (h_ledger : .ledger ∈ ps) (h_plans : .plans ∈ ps) (h_works : .works ∈ ps) (h_nextWork : .nextWork ∈ ps) (h_holds : .holds ∈ ps) (h_drives : .drives ∈ ps) (h_gov : .gov ∈ ps) (h_degrade : .degrade ∈ ps) (h_reshapes : .reshapes ∈ ps) (h_cmds : .cmds ∈ ps) (h_returns : .returns ∈ ps) (h_power : .power ∈ ps) (h_vaults : .vaults ∈ ps) (h_daybook : .daybook ∈ ps) (h_cache : .cache ∈ ps) :
    (memberBoundary s).outside ps = s.outside ps := by
  unfold memberBoundary
  repeat' first
    | (simp [h_ledger, h_plans, h_works, h_nextWork, h_holds, h_drives, h_gov, h_degrade, h_reshapes, h_cmds, h_returns, h_power, h_vaults, h_daybook, h_cache]; done)
    | (rw [outside_foldl])
    | (intro _)
    | simp [h_ledger, h_plans, h_works, h_nextWork, h_holds, h_drives, h_gov, h_degrade, h_reshapes, h_cmds, h_returns, h_power, h_vaults, h_daybook, h_cache]
    | split

@[simp] theorem bookUpdates_outside {ps : List Part} (s : State) (ups : List PoolUpdate) (h_degrade : .degrade ∈ ps) (h_registry : .registry ∈ ps) :
    (bookUpdates s ups).outside ps = s.outside ps := by
  unfold bookUpdates
  repeat' first
    | (simp [h_degrade, h_registry]; done)
    | (rw [outside_foldl])
    | (intro _)
    | simp [h_degrade, h_registry]
    | split

@[simp] theorem poolUpdateComplete_outside {ps : List Part} (s : State) (layout : Nat) (pool : Nat) (acks : List Nat) (h_gov : .gov ∈ ps) (h_degrade : .degrade ∈ ps) (h_registry : .registry ∈ ps) :
    (poolUpdateComplete s layout pool acks).outside ps = s.outside ps := by
  unfold poolUpdateComplete
  repeat' first
    | (simp [h_gov, h_degrade, h_registry]; done)
    | (rw [outside_foldl])
    | (intro _)
    | simp [h_gov, h_degrade, h_registry]
    | split

@[simp] theorem passStart_outside {ps : List Part} (s : State) (layout : Nat) (pool : Nat) (h_gov : .gov ∈ ps) (h_degrade : .degrade ∈ ps) :
    (passStart s layout pool).outside ps = s.outside ps := by
  unfold passStart
  repeat' first
    | (simp [h_gov, h_degrade]; done)
    | (rw [outside_foldl])
    | (intro _)
    | simp [h_gov, h_degrade]
    | split

@[simp] theorem advancePass_outside {ps : List Part} (s : State) (k : Nat) (h_gov : .gov ∈ ps) (h_degrade : .degrade ∈ ps) :
    (advancePass s k).outside ps = s.outside ps := by
  unfold advancePass
  repeat' first
    | (simp [h_gov, h_degrade]; done)
    | (rw [outside_foldl])
    | (intro _)
    | simp [h_gov, h_degrade]
    | split

@[simp] theorem rowRestore_outside {ps : List Part} (s : State) (k : Nat) (h_ledger : .ledger ∈ ps) (h_plans : .plans ∈ ps) (h_works : .works ∈ ps) (h_nextWork : .nextWork ∈ ps) (h_drives : .drives ∈ ps) (h_gov : .gov ∈ ps) (h_degrade : .degrade ∈ ps) (h_daybook : .daybook ∈ ps) :
    (rowRestore s k).outside ps = s.outside ps := by
  unfold rowRestore
  repeat' first
    | (simp [h_ledger, h_plans, h_works, h_nextWork, h_drives, h_gov, h_degrade, h_daybook]; done)
    | (rw [outside_foldl])
    | (intro _)
    | simp [h_ledger, h_plans, h_works, h_nextWork, h_drives, h_gov, h_degrade, h_daybook]
    | split

@[simp] theorem rebuiltIn_outside {ps : List Part} (s : State) (layout : Nat) (pool : Nat) (m : Nat) (h_degrade : .degrade ∈ ps) (h_registry : .registry ∈ ps) :
    (rebuiltIn s layout pool m).outside ps = s.outside ps := by
  unfold rebuiltIn
  repeat' first
    | (simp [h_degrade, h_registry]; done)
    | (rw [outside_foldl])
    | (intro _)
    | simp [h_degrade, h_registry]
    | split

@[simp] theorem rebuiltMembers_outside {ps : List Part} (s : State) (h_drives : .drives ∈ ps) :
    (rebuiltMembers s).outside ps = s.outside ps := by
  unfold rebuiltMembers
  repeat' first
    | (simp [h_drives]; done)
    | (rw [outside_foldl])
    | (intro _)
    | simp [h_drives]
    | split

@[simp] theorem freePass_outside {ps : List Part} (s : State) (k : Nat) (h_gov : .gov ∈ ps) (h_degrade : .degrade ∈ ps) (h_registry : .registry ∈ ps) :
    (freePass s k).outside ps = s.outside ps := by
  unfold freePass
  repeat' first
    | (simp [h_gov, h_degrade, h_registry]; done)
    | (rw [outside_foldl])
    | (intro _)
    | simp [h_gov, h_degrade, h_registry]
    | split

@[simp] theorem rebuildEnd_outside {ps : List Part} (s : State) (k : Nat) (h_gov : .gov ∈ ps) (h_degrade : .degrade ∈ ps) (h_registry : .registry ∈ ps) :
    (rebuildEnd s k).outside ps = s.outside ps := by
  unfold rebuildEnd
  repeat' first
    | (simp [h_gov, h_degrade, h_registry]; done)
    | (rw [outside_foldl])
    | (intro _)
    | simp [h_gov, h_degrade, h_registry]
    | split

@[simp] theorem recordDrive_outside {ps : List Part} (s : State) (m : Nat) (h_registry : .registry ∈ ps) :
    (recordDrive s m).outside ps = s.outside ps := by
  unfold recordDrive
  repeat' first
    | (simp [h_registry]; done)
    | (rw [outside_foldl])
    | (intro _)
    | simp [h_registry]
    | split

end Sys2Proof.Machine
end

