-- ==== Sys2Proof/Laws/Frame4.lean ====
section
/-! SUPPORT. What each operation leaves as it was: the state outside the parts it works on. -/

namespace Sys2Proof.Machine

set_option linter.all false

@[simp] theorem copyEnd_outside {ps : List Part} (s : State) (k : Nat) (h_drives : .drives ∈ ps) (h_gov : .gov ∈ ps) (h_degrade : .degrade ∈ ps) (h_registry : .registry ∈ ps) :
    (copyEnd s k).outside ps = s.outside ps := by
  unfold copyEnd
  repeat' first
    | (simp [h_drives, h_gov, h_degrade, h_registry]; done)
    | (rw [outside_foldl])
    | (intro _)
    | simp [h_drives, h_gov, h_degrade, h_registry]
    | split

@[simp] theorem passTurn_outside {ps : List Part} (s : State) (k : Nat) (h_drives : .drives ∈ ps) (h_gov : .gov ∈ ps) (h_degrade : .degrade ∈ ps) (h_registry : .registry ∈ ps) :
    (passTurn s k).outside ps = s.outside ps := by
  unfold passTurn
  repeat' first
    | (simp [h_drives, h_gov, h_degrade, h_registry]; done)
    | (rw [outside_foldl])
    | (intro _)
    | simp [h_drives, h_gov, h_degrade, h_registry]
    | split

@[simp] theorem passBoundary_outside {ps : List Part} (s : State) (h_drives : .drives ∈ ps) (h_gov : .gov ∈ ps) (h_degrade : .degrade ∈ ps) (h_registry : .registry ∈ ps) :
    (passBoundary s).outside ps = s.outside ps := by
  unfold passBoundary
  repeat' first
    | (simp [h_drives, h_gov, h_degrade, h_registry]; done)
    | (rw [outside_foldl])
    | (intro _)
    | simp [h_drives, h_gov, h_degrade, h_registry]
    | split

@[simp] theorem replacementDiscovered_outside {ps : List Part} (s : State) (m : Nat) (d : FoundDrive) (good : Bool) (h_degrade : .degrade ∈ ps) :
    (replacementDiscovered s m d good).outside ps = s.outside ps := by
  unfold replacementDiscovered
  repeat' first
    | (simp [h_degrade]; done)
    | (rw [outside_foldl])
    | (intro _)
    | simp [h_degrade]
    | split

@[simp] theorem homesMoved_outside {ps : List Part} (s : State) (layout : Nat) (pool : Nat) (m : Nat) (h : Nat) (h_degrade : .degrade ∈ ps) (h_registry : .registry ∈ ps) :
    (homesMoved s layout pool m h).outside ps = s.outside ps := by
  unfold homesMoved
  repeat' first
    | (simp [h_degrade, h_registry]; done)
    | (rw [outside_foldl])
    | (intro _)
    | simp [h_degrade, h_registry]
    | split

@[simp] theorem replacementOutcome_outside {ps : List Part} (s : State) (r : Replacement) (h_drives : .drives ∈ ps) (h_degrade : .degrade ∈ ps) (h_daybook : .daybook ∈ ps) (h_registry : .registry ∈ ps) :
    (replacementOutcome s r).outside ps = s.outside ps := by
  unfold replacementOutcome
  repeat' first
    | (simp [h_drives, h_degrade, h_daybook, h_registry]; done)
    | (rw [outside_foldl])
    | (intro _)
    | simp [h_drives, h_degrade, h_daybook, h_registry]
    | split

@[simp] theorem admitBoundary_outside {ps : List Part} (s : State) (h_drives : .drives ∈ ps) (h_degrade : .degrade ∈ ps) (h_daybook : .daybook ∈ ps) (h_registry : .registry ∈ ps) :
    (admitBoundary s).outside ps = s.outside ps := by
  unfold admitBoundary
  repeat' first
    | (simp [h_drives, h_degrade, h_daybook, h_registry]; done)
    | (rw [outside_foldl])
    | (intro _)
    | simp [h_drives, h_degrade, h_daybook, h_registry]
    | split

@[simp] theorem lossDurable_outside {ps : List Part} (s : State) (find : Nat) (acks : List Nat) (h_plans : .plans ∈ ps) (h_works : .works ∈ ps) (h_drives : .drives ∈ ps) (h_gov : .gov ∈ ps) (h_degrade : .degrade ∈ ps) (h_daybook : .daybook ∈ ps) (h_registry : .registry ∈ ps) :
    (lossDurable s find acks).outside ps = s.outside ps := by
  unfold lossDurable
  repeat' first
    | (simp [h_plans, h_works, h_drives, h_gov, h_degrade, h_daybook, h_registry]; done)
    | (rw [outside_foldl])
    | (intro _)
    | simp [h_plans, h_works, h_drives, h_gov, h_degrade, h_daybook, h_registry]
    | split

@[simp] theorem readBoundary_outside {ps : List Part} (s : State) (h_drives : .drives ∈ ps) (h_degrade : .degrade ∈ ps) (h_cmds : .cmds ∈ ps) (h_returns : .returns ∈ ps) (h_vaults : .vaults ∈ ps) (h_cache : .cache ∈ ps) :
    (readBoundary s).outside ps = s.outside ps := by
  unfold readBoundary
  repeat' first
    | (simp [h_drives, h_degrade, h_cmds, h_returns, h_vaults, h_cache]; done)
    | (rw [outside_foldl])
    | (intro _)
    | simp [h_drives, h_degrade, h_cmds, h_returns, h_vaults, h_cache]
    | split

@[simp] theorem sealRow_outside {ps : List Part} (s : State) (layout : Nat) (row : Nat) (pos : Nat) (h_ledger : .ledger ∈ ps) (h_plans : .plans ∈ ps) (h_works : .works ∈ ps) (h_nextWork : .nextWork ∈ ps) (h_drives : .drives ∈ ps) (h_gov : .gov ∈ ps) (h_degrade : .degrade ∈ ps) (h_daybook : .daybook ∈ ps) :
    (sealRow s layout row pos).outside ps = s.outside ps := by
  unfold sealRow
  repeat' first
    | (simp [h_ledger, h_plans, h_works, h_nextWork, h_drives, h_gov, h_degrade, h_daybook]; done)
    | (rw [outside_foldl])
    | (intro _)
    | simp [h_ledger, h_plans, h_works, h_nextWork, h_drives, h_gov, h_degrade, h_daybook]
    | split

@[simp] theorem lossBoundary_outside {ps : List Part} (s : State) (h_degrade : .degrade ∈ ps) :
    (lossBoundary s).outside ps = s.outside ps := by
  unfold lossBoundary
  repeat' first
    | (simp [h_degrade]; done)
    | (rw [outside_foldl])
    | (intro _)
    | simp [h_degrade]
    | split

@[simp] theorem scrubPosition_outside {ps : List Part} (s : State) (l : Layout) (row : Nat) (j : Nat) (chunks : List (ChunkId × List Byte)) (pos : Nat) (h_ledger : .ledger ∈ ps) (h_plans : .plans ∈ ps) (h_works : .works ∈ ps) (h_nextWork : .nextWork ∈ ps) (h_holds : .holds ∈ ps) (h_drives : .drives ∈ ps) (h_gov : .gov ∈ ps) (h_degrade : .degrade ∈ ps) (h_daybook : .daybook ∈ ps) :
    (scrubPosition s l row j chunks pos).1.outside ps = s.outside ps := by
  unfold scrubPosition
  repeat' first
    | (simp [h_ledger, h_plans, h_works, h_nextWork, h_holds, h_drives, h_gov, h_degrade, h_daybook]; done)
    | (rw [outside_foldl])
    | (intro _)
    | simp [h_ledger, h_plans, h_works, h_nextWork, h_holds, h_drives, h_gov, h_degrade, h_daybook]
    | split

@[simp] theorem checkDone_outside {ps : List Part} (s : State) (layout : Nat) (row : Nat) (j : Nat) (rs : List Mismatch) (h_drives : .drives ∈ ps) (h_degrade : .degrade ∈ ps) (h_cmds : .cmds ∈ ps) (h_returns : .returns ∈ ps) (h_vaults : .vaults ∈ ps) (h_cache : .cache ∈ ps) :
    (checkDone s layout row j rs).outside ps = s.outside ps := by
  unfold checkDone
  repeat' first
    | (simp [h_drives, h_degrade, h_cmds, h_returns, h_vaults, h_cache]; done)
    | (rw [outside_foldl])
    | (intro _)
    | simp [h_drives, h_degrade, h_cmds, h_returns, h_vaults, h_cache]
    | split

@[simp] theorem scrubRepair_outside {ps : List Part} (s : State) (l : Layout) (row : Nat) (need : List ChunkId) (chunks : List (ChunkId × List Byte)) (pos : Nat) (h_ledger : .ledger ∈ ps) (h_plans : .plans ∈ ps) (h_works : .works ∈ ps) (h_nextWork : .nextWork ∈ ps) (h_drives : .drives ∈ ps) (h_gov : .gov ∈ ps) (h_degrade : .degrade ∈ ps) (h_daybook : .daybook ∈ ps) :
    (scrubRepair s l row need chunks pos).outside ps = s.outside ps := by
  unfold scrubRepair
  repeat' first
    | (simp [h_ledger, h_plans, h_works, h_nextWork, h_drives, h_gov, h_degrade, h_daybook]; done)
    | (rw [outside_foldl])
    | (intro _)
    | simp [h_ledger, h_plans, h_works, h_nextWork, h_drives, h_gov, h_degrade, h_daybook]
    | split

@[simp] theorem localScrub_outside {ps : List Part} (s : State) (layout : Nat) (row : Nat) (j : Nat) (chunks : List (ChunkId × List Byte)) (h_ledger : .ledger ∈ ps) (h_plans : .plans ∈ ps) (h_works : .works ∈ ps) (h_nextWork : .nextWork ∈ ps) (h_holds : .holds ∈ ps) (h_drives : .drives ∈ ps) (h_gov : .gov ∈ ps) (h_degrade : .degrade ∈ ps) (h_cmds : .cmds ∈ ps) (h_returns : .returns ∈ ps) (h_vaults : .vaults ∈ ps) (h_daybook : .daybook ∈ ps) (h_cache : .cache ∈ ps) :
    (localScrub s layout row j chunks).outside ps = s.outside ps := by
  unfold localScrub
  split
  · simp only
    split
    · rfl
    · refine (checkDone_outside _ _ _ _ _ h_drives h_degrade h_cmds h_returns h_vaults h_cache).trans ?_
      simp only [outside_upd_drives_degrade, h_ledger, h_plans, h_works, h_nextWork, h_holds, h_drives, h_gov, h_degrade, h_cmds, h_returns, h_vaults, h_daybook, h_cache]
      refine (outside_pairFold fun q x => ?_).trans ?_
      · split <;> simp [h_ledger, h_plans, h_works, h_nextWork, h_holds, h_drives, h_gov, h_degrade, h_cmds, h_returns, h_vaults, h_daybook, h_cache]
      · simp [h_ledger, h_plans, h_works, h_nextWork, h_holds, h_drives, h_gov, h_degrade, h_cmds, h_returns, h_vaults, h_daybook, h_cache]
  · rfl

@[simp] theorem batchCompare_outside {ps : List Part} (s : State) (l : Layout) (r : BatchRow) (h_ledger : .ledger ∈ ps) (h_plans : .plans ∈ ps) (h_works : .works ∈ ps) (h_nextWork : .nextWork ∈ ps) (h_holds : .holds ∈ ps) (h_drives : .drives ∈ ps) (h_gov : .gov ∈ ps) (h_degrade : .degrade ∈ ps) (h_daybook : .daybook ∈ ps) :
    (batchCompare s l r).outside ps = s.outside ps := by
  unfold batchCompare
  repeat' first
    | (simp [h_ledger, h_plans, h_works, h_nextWork, h_holds, h_drives, h_gov, h_degrade, h_daybook]; done)
    | (rw [outside_foldl])
    | (intro _)
    | simp [h_ledger, h_plans, h_works, h_nextWork, h_holds, h_drives, h_gov, h_degrade, h_daybook]
    | split

@[simp] theorem globalScrub_outside {ps : List Part} (s : State) (layout : Nat) (row : Nat) (chunks : List (ChunkId × List Byte)) (h_ledger : .ledger ∈ ps) (h_plans : .plans ∈ ps) (h_works : .works ∈ ps) (h_nextWork : .nextWork ∈ ps) (h_holds : .holds ∈ ps) (h_drives : .drives ∈ ps) (h_gov : .gov ∈ ps) (h_degrade : .degrade ∈ ps) (h_daybook : .daybook ∈ ps) :
    (globalScrub s layout row chunks).outside ps = s.outside ps := by
  unfold globalScrub
  repeat' first
    | (simp [h_ledger, h_plans, h_works, h_nextWork, h_holds, h_drives, h_gov, h_degrade, h_daybook]; done)
    | (rw [outside_foldl])
    | (intro _)
    | simp [h_ledger, h_plans, h_works, h_nextWork, h_holds, h_drives, h_gov, h_degrade, h_daybook]
    | split

@[simp] theorem batchDrop_outside {ps : List Part} (s : State) (h_degrade : .degrade ∈ ps) :
    (batchDrop s).outside ps = s.outside ps := by
  unfold batchDrop
  repeat' first
    | (simp [h_degrade]; done)
    | (rw [outside_foldl])
    | (intro _)
    | simp [h_degrade]
    | split

@[simp] theorem modRsh_outside {ps : List Part} (s : State) (k : Nat) (f : Reshape → Reshape) (h_reshapes : .reshapes ∈ ps) :
    (modRsh s k f).outside ps = s.outside ps := by
  unfold modRsh
  repeat' first
    | (simp [h_reshapes]; done)
    | (rw [outside_foldl])
    | (intro _)
    | simp [h_reshapes]
    | split

@[simp] theorem setRsh_outside {ps : List Part} (s : State) (k : Nat) (st : Nat) (h_reshapes : .reshapes ∈ ps) :
    (setRsh s k st).outside ps = s.outside ps := by
  unfold setRsh
  repeat' first
    | (simp [h_reshapes]; done)
    | (rw [outside_foldl])
    | (intro _)
    | simp [h_reshapes]
    | split

@[simp] theorem setVolume_outside {ps : List Part} (s : State) (v : Nat) (f : Volume → Volume) (h_vols : .vols ∈ ps) (h_ints : .ints ∈ ps) (h_link : .link ∈ ps) (h_hostMem : .hostMem ∈ ps) :
    (setVolume s v f).outside ps = s.outside ps := by
  unfold setVolume
  repeat' first
    | (simp [h_vols, h_ints, h_link, h_hostMem]; done)
    | (rw [outside_foldl])
    | (intro _)
    | simp [h_vols, h_ints, h_link, h_hostMem]
    | split

theorem buildTarget_outside {ps : List Part} {t : State} (s : State) (d : VolumeDef) (src : Layout) (tgt : Layout) (h_ledger : .ledger ∈ ps) (h_bands : .bands ∈ ps) (h_chain : .chain ∈ ps) :
    buildTarget s d src tgt = some t → t.outside ps = s.outside ps := by
  unfold buildTarget
  intro h
  obtain ⟨u, hu, e⟩ := outside_bindFold (fun u x v hv => allocBand_outside _ _ _ _ _ h_ledger h_bands h_chain hv) h
  cases hu
  exact e

@[simp] theorem takeSlot_outside {ps : List Part} (s : State) (v : Nat) (tgt : Nat) (tag : Option Nat) (device : Bool) (h_reshapes : .reshapes ∈ ps) :
    (takeSlot s v tgt tag device).outside ps = s.outside ps := by
  unfold takeSlot
  repeat' first
    | (simp [h_reshapes]; done)
    | (rw [outside_foldl])
    | (intro _)
    | simp [h_reshapes]
    | split

@[simp] theorem reshapeAct_outside {ps : List Part} (s : State) (tag : Nat) (action : Nat) (states : List Nat) (h_reshapes : .reshapes ∈ ps) (h_cmds : .cmds ∈ ps) (h_returns : .returns ∈ ps) :
    (reshapeAct s tag action states).outside ps = s.outside ps := by
  unfold reshapeAct
  repeat' first
    | (simp [h_reshapes, h_cmds, h_returns]; done)
    | (rw [outside_foldl])
    | (intro _)
    | simp [h_reshapes, h_cmds, h_returns]
    | split

@[simp] theorem bookSlot_outside {ps : List Part} (s : State) (k : Nat) (h_registry : .registry ∈ ps) :
    (bookSlot s k).outside ps = s.outside ps := by
  unfold bookSlot
  repeat' first
    | (simp [h_registry]; done)
    | (rw [outside_foldl])
    | (intro _)
    | simp [h_registry]
    | split

@[simp] theorem deviceReshape_outside {ps : List Part} (s : State) (v : Nat) (h_reshapes : .reshapes ∈ ps) (h_daybook : .daybook ∈ ps) :
    (deviceReshape s v).outside ps = s.outside ps := by
  unfold deviceReshape
  repeat' first
    | (simp [h_reshapes, h_daybook]; done)
    | (rw [outside_foldl])
    | (intro _)
    | simp [h_reshapes, h_daybook]
    | split

@[simp] theorem startRegion_outside {ps : List Part} (s : State) (k : Nat) (h_ledger : .ledger ∈ ps) (h_reshapes : .reshapes ∈ ps) :
    (startRegion s k).outside ps = s.outside ps := by
  unfold startRegion
  repeat' first
    | (simp [h_ledger, h_reshapes]; done)
    | (rw [outside_foldl])
    | (intro _)
    | simp [h_ledger, h_reshapes]
    | split

@[simp] theorem copyRow_outside {ps : List Part} (s : State) (k : Nat) (row : Nat) (d : VolumeDef) (l : Layout) (h_ledger : .ledger ∈ ps) (h_plans : .plans ∈ ps) (h_works : .works ∈ ps) (h_nextWork : .nextWork ∈ ps) (h_drives : .drives ∈ ps) (h_gov : .gov ∈ ps) (h_degrade : .degrade ∈ ps) (h_daybook : .daybook ∈ ps) :
    (copyRow s k row d l).outside ps = s.outside ps := by
  unfold copyRow
  repeat' first
    | (simp [h_ledger, h_plans, h_works, h_nextWork, h_drives, h_gov, h_degrade, h_daybook]; done)
    | (rw [outside_foldl])
    | (intro _)
    | simp [h_ledger, h_plans, h_works, h_nextWork, h_drives, h_gov, h_degrade, h_daybook]
    | split

@[simp] theorem sourceRow_outside {ps : List Part} (s : State) (k : Nat) (w : Work) (l : Layout) (h_plans : .plans ∈ ps) (h_works : .works ∈ ps) (h_drives : .drives ∈ ps) (h_gov : .gov ∈ ps) (h_degrade : .degrade ∈ ps) (h_daybook : .daybook ∈ ps) :
    (sourceRow s k w l).outside ps = s.outside ps := by
  unfold sourceRow
  repeat' first
    | (simp [h_plans, h_works, h_drives, h_gov, h_degrade, h_daybook]; done)
    | (rw [outside_foldl])
    | (intro _)
    | simp [h_plans, h_works, h_drives, h_gov, h_degrade, h_daybook]
    | split
  all_goals
    have e := congrArg (fun p => State.outside ps p.1) ‹_ = (_, _)›
    simp [h_plans, h_works, h_drives, h_gov, h_degrade, h_daybook] at e
    simp [h_plans, h_works, h_drives, h_gov, h_degrade, h_daybook, e]

@[simp] theorem sourceCopy_outside {ps : List Part} (s : State) (k : Nat) (h_plans : .plans ∈ ps) (h_works : .works ∈ ps) (h_drives : .drives ∈ ps) (h_gov : .gov ∈ ps) (h_degrade : .degrade ∈ ps) (h_daybook : .daybook ∈ ps) :
    (sourceCopy s k).outside ps = s.outside ps := by
  unfold sourceCopy
  repeat' first
    | (simp [h_plans, h_works, h_drives, h_gov, h_degrade, h_daybook]; done)
    | (rw [outside_foldl])
    | (intro _)
    | simp [h_plans, h_works, h_drives, h_gov, h_degrade, h_daybook]
    | split

@[simp] theorem regionCopy_outside {ps : List Part} (s : State) (k : Nat) (h_ledger : .ledger ∈ ps) (h_plans : .plans ∈ ps) (h_works : .works ∈ ps) (h_nextWork : .nextWork ∈ ps) (h_drives : .drives ∈ ps) (h_gov : .gov ∈ ps) (h_degrade : .degrade ∈ ps) (h_reshapes : .reshapes ∈ ps) (h_daybook : .daybook ∈ ps) :
    (regionCopy s k).outside ps = s.outside ps := by
  unfold regionCopy
  repeat' first
    | (simp [h_ledger, h_plans, h_works, h_nextWork, h_drives, h_gov, h_degrade, h_reshapes, h_daybook]; done)
    | (rw [outside_foldl])
    | (intro _)
    | simp [h_ledger, h_plans, h_works, h_nextWork, h_drives, h_gov, h_degrade, h_reshapes, h_daybook]
    | split

@[simp] theorem copyDone_outside {ps : List Part} (s : State) (k : Nat) (h_reshapes : .reshapes ∈ ps) :
    (copyDone s k).outside ps = s.outside ps := by
  unfold copyDone
  repeat' first
    | (simp [h_reshapes]; done)
    | (rw [outside_foldl])
    | (intro _)
    | simp [h_reshapes]
    | split

@[simp] theorem endReqs_outside {ps : List Part} (s : State) (k : Nat) (action : Nat) (st : Nat) (detail : Nat) (h_reshapes : .reshapes ∈ ps) (h_cmds : .cmds ∈ ps) :
    (endReqs s k action st detail).outside ps = s.outside ps := by
  unfold endReqs
  repeat' first
    | (simp [h_reshapes, h_cmds]; done)
    | (rw [outside_foldl])
    | (intro _)
    | simp [h_reshapes, h_cmds]
    | split

@[simp] theorem startBoundary_outside {ps : List Part} (s : State) (k : Nat) (h_ledger : .ledger ∈ ps) (h_vols : .vols ∈ ps) (h_bands : .bands ∈ ps) (h_reshapes : .reshapes ∈ ps) (h_cmds : .cmds ∈ ps) (h_ints : .ints ∈ ps) (h_link : .link ∈ ps) (h_chain : .chain ∈ ps) (h_hostMem : .hostMem ∈ ps) :
    (startBoundary s k).outside ps = s.outside ps := by
  unfold startBoundary
  simp only
  split
  · split
    · split
      · rename_i h
        simp [h_ledger, h_vols, h_bands, h_reshapes, h_cmds, h_ints, h_link, h_chain, h_hostMem, buildTarget_outside _ _ _ _ h_ledger h_bands h_chain h]
      · split <;> simp [h_ledger, h_vols, h_bands, h_reshapes, h_cmds, h_ints, h_link, h_chain, h_hostMem]
    · split
      · split <;> simp [h_ledger, h_vols, h_bands, h_reshapes, h_cmds, h_ints, h_link, h_chain, h_hostMem]
      · rfl
  · rfl

@[simp] theorem forgetRows_outside {ps : List Part} (s : State) (v : Nat) (layout : Nat) (h_ledger : .ledger ∈ ps) :
    (forgetRows s v layout).outside ps = s.outside ps := by
  unfold forgetRows
  repeat' first
    | (simp [h_ledger]; done)
    | (rw [outside_foldl])
    | (intro _)
    | simp [h_ledger]
    | split

@[simp] theorem cancelReshape_outside {ps : List Part} (s : State) (k : Nat) (h_ledger : .ledger ∈ ps) (h_vols : .vols ∈ ps) (h_plans : .plans ∈ ps) (h_works : .works ∈ ps) (h_holds : .holds ∈ ps) (h_drives : .drives ∈ ps) (h_gov : .gov ∈ ps) (h_degrade : .degrade ∈ ps) (h_reshapes : .reshapes ∈ ps) (h_cmds : .cmds ∈ ps) (h_ints : .ints ∈ ps) (h_link : .link ∈ ps) (h_daybook : .daybook ∈ ps) (h_hostMem : .hostMem ∈ ps) :
    (cancelReshape s k).outside ps = s.outside ps := by
  unfold cancelReshape
  repeat' first
    | (simp [h_ledger, h_vols, h_plans, h_works, h_holds, h_drives, h_gov, h_degrade, h_reshapes, h_cmds, h_ints, h_link, h_daybook, h_hostMem]; done)
    | (rw [outside_foldl])
    | (intro _)
    | simp [h_ledger, h_vols, h_plans, h_works, h_holds, h_drives, h_gov, h_degrade, h_reshapes, h_cmds, h_ints, h_link, h_daybook, h_hostMem]
    | split

@[simp] theorem switchVolume_outside {ps : List Part} (s : State) (k : Nat) (h_ledger : .ledger ∈ ps) (h_vols : .vols ∈ ps) (h_bands : .bands ∈ ps) (h_gov : .gov ∈ ps) (h_reshapes : .reshapes ∈ ps) (h_ints : .ints ∈ ps) (h_link : .link ∈ ps) (h_chain : .chain ∈ ps) (h_hostMem : .hostMem ∈ ps) :
    (switchVolume s k).outside ps = s.outside ps := by
  unfold switchVolume
  repeat' first
    | (simp [h_ledger, h_vols, h_bands, h_gov, h_reshapes, h_ints, h_link, h_chain, h_hostMem]; done)
    | (rw [outside_foldl])
    | (intro _)
    | simp [h_ledger, h_vols, h_bands, h_gov, h_reshapes, h_ints, h_link, h_chain, h_hostMem]
    | split
  all_goals
    have e := congrArg (fun p => State.outside ps p.1) ‹_ = (_, _)›
    simp [h_ledger, h_vols, h_bands, h_gov, h_reshapes, h_ints, h_link, h_chain, h_hostMem] at e
    simp [h_ledger, h_vols, h_bands, h_gov, h_reshapes, h_ints, h_link, h_chain, h_hostMem, e]

@[simp] theorem nextRegion_outside {ps : List Part} (s : State) (k : Nat) (h_reshapes : .reshapes ∈ ps) :
    (nextRegion s k).outside ps = s.outside ps := by
  unfold nextRegion
  repeat' first
    | (simp [h_reshapes]; done)
    | (rw [outside_foldl])
    | (intro _)
    | simp [h_reshapes]
    | split

@[simp] theorem freeSlot_outside {ps : List Part} (s : State) (k : Nat) (h_vols : .vols ∈ ps) (h_bands : .bands ∈ ps) (h_reshapes : .reshapes ∈ ps) (h_ints : .ints ∈ ps) (h_link : .link ∈ ps) (h_registry : .registry ∈ ps) (h_hostMem : .hostMem ∈ ps) :
    (freeSlot s k).outside ps = s.outside ps := by
  unfold freeSlot
  repeat' first
    | (simp [h_vols, h_bands, h_reshapes, h_ints, h_link, h_registry, h_hostMem]; done)
    | (rw [outside_foldl])
    | (intro _)
    | simp [h_vols, h_bands, h_reshapes, h_ints, h_link, h_registry, h_hostMem]
    | split

@[simp] theorem drainEnd_outside {ps : List Part} (s : State) (k : Nat) (h_ledger : .ledger ∈ ps) (h_vols : .vols ∈ ps) (h_bands : .bands ∈ ps) (h_reshapes : .reshapes ∈ ps) (h_ints : .ints ∈ ps) (h_link : .link ∈ ps) (h_registry : .registry ∈ ps) (h_hostMem : .hostMem ∈ ps) :
    (drainEnd s k).outside ps = s.outside ps := by
  unfold drainEnd
  repeat' first
    | (simp [h_ledger, h_vols, h_bands, h_reshapes, h_ints, h_link, h_registry, h_hostMem]; done)
    | (rw [outside_foldl])
    | (intro _)
    | simp [h_ledger, h_vols, h_bands, h_reshapes, h_ints, h_link, h_registry, h_hostMem]
    | split

@[simp] theorem slotBoundary_outside {ps : List Part} (s : State) (k : Nat) (h_ledger : .ledger ∈ ps) (h_vols : .vols ∈ ps) (h_bands : .bands ∈ ps) (h_plans : .plans ∈ ps) (h_works : .works ∈ ps) (h_holds : .holds ∈ ps) (h_drives : .drives ∈ ps) (h_gov : .gov ∈ ps) (h_degrade : .degrade ∈ ps) (h_reshapes : .reshapes ∈ ps) (h_cmds : .cmds ∈ ps) (h_ints : .ints ∈ ps) (h_link : .link ∈ ps) (h_chain : .chain ∈ ps) (h_daybook : .daybook ∈ ps) (h_registry : .registry ∈ ps) (h_hostMem : .hostMem ∈ ps) :
    (slotBoundary s k).outside ps = s.outside ps := by
  unfold slotBoundary
  repeat' first
    | (simp [h_ledger, h_vols, h_bands, h_plans, h_works, h_holds, h_drives, h_gov, h_degrade, h_reshapes, h_cmds, h_ints, h_link, h_chain, h_daybook, h_registry, h_hostMem]; done)
    | (rw [outside_foldl])
    | (intro _)
    | simp [h_ledger, h_vols, h_bands, h_plans, h_works, h_holds, h_drives, h_gov, h_degrade, h_reshapes, h_cmds, h_ints, h_link, h_chain, h_daybook, h_registry, h_hostMem]
    | split

@[simp] theorem reshapeBoundary_outside {ps : List Part} (s : State) (h_ledger : .ledger ∈ ps) (h_vols : .vols ∈ ps) (h_bands : .bands ∈ ps) (h_plans : .plans ∈ ps) (h_works : .works ∈ ps) (h_holds : .holds ∈ ps) (h_drives : .drives ∈ ps) (h_gov : .gov ∈ ps) (h_degrade : .degrade ∈ ps) (h_reshapes : .reshapes ∈ ps) (h_cmds : .cmds ∈ ps) (h_ints : .ints ∈ ps) (h_link : .link ∈ ps) (h_chain : .chain ∈ ps) (h_daybook : .daybook ∈ ps) (h_registry : .registry ∈ ps) (h_hostMem : .hostMem ∈ ps) :
    (reshapeBoundary s).outside ps = s.outside ps := by
  unfold reshapeBoundary
  repeat' first
    | (simp [h_ledger, h_vols, h_bands, h_plans, h_works, h_holds, h_drives, h_gov, h_degrade, h_reshapes, h_cmds, h_ints, h_link, h_chain, h_daybook, h_registry, h_hostMem]; done)
    | (rw [outside_foldl])
    | (intro _)
    | simp [h_ledger, h_vols, h_bands, h_plans, h_works, h_holds, h_drives, h_gov, h_degrade, h_reshapes, h_cmds, h_ints, h_link, h_chain, h_daybook, h_registry, h_hostMem]
    | split

@[simp] theorem modSlot_outside {ps : List Part} (s : State) (x : Nat) (f : TellerSlot → TellerSlot) (h_tellers : .tellers ∈ ps) :
    (modSlot s x f).outside ps = s.outside ps := by
  unfold modSlot
  repeat' first
    | (simp [h_tellers]; done)
    | (rw [outside_foldl])
    | (intro _)
    | simp [h_tellers]
    | split

@[simp] theorem setTeller_outside {ps : List Part} (s : State) (p : Nat) (st : Nat) (f : Teller → Teller) (h_tellers : .tellers ∈ ps) :
    (setTeller s p st f).outside ps = s.outside ps := by
  unfold setTeller
  repeat' first
    | (simp [h_tellers]; done)
    | (rw [outside_foldl])
    | (intro _)
    | simp [h_tellers]
    | split

@[simp] theorem modBranch_outside {ps : List Part} (s : State) (b : Nat) (f : Branch → Branch) (h_tellers : .tellers ∈ ps) :
    (modBranch s b f).outside ps = s.outside ps := by
  unfold modBranch
  repeat' first
    | (simp [h_tellers]; done)
    | (rw [outside_foldl])
    | (intro _)
    | simp [h_tellers]
    | split

@[simp] theorem touchBranch_outside {ps : List Part} (s : State) (b : Nat) (h_tellers : .tellers ∈ ps) :
    (touchBranch s b).outside ps = s.outside ps := by
  unfold touchBranch
  repeat' first
    | (simp [h_tellers]; done)
    | (rw [outside_foldl])
    | (intro _)
    | simp [h_tellers]
    | split

@[simp] theorem wakeBranch_outside {ps : List Part} (s : State) (b : Nat) (h_tellers : .tellers ∈ ps) :
    (wakeBranch s b).outside ps = s.outside ps := by
  unfold wakeBranch
  repeat' first
    | (simp [h_tellers]; done)
    | (rw [outside_foldl])
    | (intro _)
    | simp [h_tellers]
    | split

@[simp] theorem pushPosting_outside {ps : List Part} (s : State) (p : Posting) (h_tellers : .tellers ∈ ps) :
    (pushPosting s p).outside ps = s.outside ps := by
  unfold pushPosting
  repeat' first
    | (simp [h_tellers]; done)
    | (rw [outside_foldl])
    | (intro _)
    | simp [h_tellers]
    | split

@[simp] theorem drainProducer_outside {ps : List Part} (s : State) (h_tellers : .tellers ∈ ps) :
    (drainProducer s).outside ps = s.outside ps := by
  unfold drainProducer
  repeat' first
    | (simp [h_tellers]; done)
    | (rw [outside_foldl])
    | (intro _)
    | simp [h_tellers]
    | split

@[simp] theorem restage_outside {ps : List Part} (s : State) (id : Nat) (h_works : .works ∈ ps) (h_drives : .drives ∈ ps) (h_gov : .gov ∈ ps) (h_degrade : .degrade ∈ ps) (h_tellers : .tellers ∈ ps) (h_daybook : .daybook ∈ ps) :
    (restage s id).outside ps = s.outside ps := by
  unfold restage
  repeat' first
    | (simp [h_works, h_drives, h_gov, h_degrade, h_tellers, h_daybook]; done)
    | (rw [outside_foldl])
    | (intro _)
    | simp [h_works, h_drives, h_gov, h_degrade, h_tellers, h_daybook]
    | split

@[simp] theorem replan_outside {ps : List Part} (s : State) (id : Nat) (h_plans : .plans ∈ ps) (h_works : .works ∈ ps) (h_holds : .holds ∈ ps) (h_drives : .drives ∈ ps) (h_gov : .gov ∈ ps) (h_degrade : .degrade ∈ ps) (h_tellers : .tellers ∈ ps) (h_daybook : .daybook ∈ ps) :
    (replan s id).outside ps = s.outside ps := by
  unfold replan
  repeat' first
    | (simp [h_plans, h_works, h_holds, h_drives, h_gov, h_degrade, h_tellers, h_daybook]; done)
    | (rw [outside_foldl])
    | (intro _)
    | simp [h_plans, h_works, h_holds, h_drives, h_gov, h_degrade, h_tellers, h_daybook]
    | split

@[simp] theorem writeDescriptor_outside {ps : List Part} (s : State) (p : Posting) (h_scratch : .scratch ∈ ps) :
    (writeDescriptor s p).outside ps = s.outside ps := by
  unfold writeDescriptor
  repeat' first
    | (simp [h_scratch]; done)
    | (rw [outside_foldl])
    | (intro _)
    | simp [h_scratch]
    | split

@[simp] theorem postingPush_outside {ps : List Part} (s : State) (p : Posting) (h_plans : .plans ∈ ps) (h_works : .works ∈ ps) (h_holds : .holds ∈ ps) (h_drives : .drives ∈ ps) (h_gov : .gov ∈ ps) (h_degrade : .degrade ∈ ps) (h_tellers : .tellers ∈ ps) (h_scratch : .scratch ∈ ps) (h_daybook : .daybook ∈ ps) :
    (postingPush s p).outside ps = s.outside ps := by
  unfold postingPush
  repeat' first
    | (simp [h_plans, h_works, h_holds, h_drives, h_gov, h_degrade, h_tellers, h_scratch, h_daybook]; done)
    | (rw [outside_foldl])
    | (intro _)
    | simp [h_plans, h_works, h_holds, h_drives, h_gov, h_degrade, h_tellers, h_scratch, h_daybook]
    | split

@[simp] theorem placeReissue_outside {ps : List Part} (s : State) (p : Posting) (behind : Option Posting) (h_tellers : .tellers ∈ ps) :
    (placeReissue s p behind).outside ps = s.outside ps := by
  unfold placeReissue
  repeat' first
    | (simp [h_tellers]; done)
    | (rw [outside_foldl])
    | (intro _)
    | simp [h_tellers]
    | split

@[simp] theorem drainReissue_outside {ps : List Part} (s : State) (b : Nat) (h_tellers : .tellers ∈ ps) :
    (drainReissue s b).outside ps = s.outside ps := by
  unfold drainReissue
  repeat' first
    | (simp [h_tellers]; done)
    | (rw [outside_foldl])
    | (intro _)
    | simp [h_tellers]
    | split

@[simp] theorem parityError_outside {ps : List Part} (s : State) (x : Nat) (h_tellers : .tellers ∈ ps) :
    (parityError s x).outside ps = s.outside ps := by
  unfold parityError
  repeat' first
    | (simp [h_tellers]; done)
    | (rw [outside_foldl])
    | (intro _)
    | simp [h_tellers]
    | split

@[simp] theorem startPosting_outside {ps : List Part} (s : State) (x : Nat) (p : Posting) (delay : Nat) (h_tellers : .tellers ∈ ps) :
    (startPosting s x p delay).outside ps = s.outside ps := by
  unfold startPosting
  repeat' first
    | (simp [h_tellers]; done)
    | (rw [outside_foldl])
    | (intro _)
    | simp [h_tellers]
    | split

@[simp] theorem afterTake_outside {ps : List Part} (s : State) (b : Nat) (h_tellers : .tellers ∈ ps) :
    (afterTake s b).outside ps = s.outside ps := by
  unfold afterTake
  repeat' first
    | (simp [h_tellers]; done)
    | (rw [outside_foldl])
    | (intro _)
    | simp [h_tellers]
    | split

@[simp] theorem noteDraw_outside {ps : List Part} (s : State) (v : Nat) (thief : Option Nat) (mark : Nat) (p : Posting) (h_tellers : .tellers ∈ ps) :
    (noteDraw s v thief mark p).outside ps = s.outside ps := by
  unfold noteDraw
  repeat' first
    | (simp [h_tellers]; done)
    | (rw [outside_foldl])
    | (intro _)
    | simp [h_tellers]
    | split

@[simp] theorem undoDraw_outside {ps : List Part} (s : State) (d : Draw) (h_tellers : .tellers ∈ ps) :
    (undoDraw s d).outside ps = s.outside ps := by
  unfold undoDraw
  repeat' first
    | (simp [h_tellers]; done)
    | (rw [outside_foldl])
    | (intro _)
    | simp [h_tellers]
    | split

@[simp] theorem stealFrom_outside {ps : List Part} (s : State) (x : Nat) (v : Nat) (delay : Nat) (h_tellers : .tellers ∈ ps) :
    (stealFrom s x v delay).outside ps = s.outside ps := by
  unfold stealFrom
  repeat' first
    | (simp [h_tellers]; done)
    | (rw [outside_foldl])
    | (intro _)
    | simp [h_tellers]
    | split

@[simp] theorem stealRow_outside {ps : List Part} (a0 : Nat) (a1 : State) (a2 : Nat) (a3 : Nat) (h_tellers : .tellers ∈ ps) :
    (stealRow a0 a1 a2 a3).outside ps = a1.outside ps := by
  induction a0 generalizing a1 a2 with
  | zero => simp [stealRow]
  | succ n ih =>
    unfold stealRow
    simp only
    repeat' first
      | rfl
      | (rw [ih]; simp [h_tellers]; done)
      | (simp [h_tellers]; done)
      | split

@[simp] theorem postingTake_outside {ps : List Part} (s : State) (x : Nat) (t : Nat) (h_tellers : .tellers ∈ ps) :
    (postingTake s x t).outside ps = s.outside ps := by
  unfold postingTake
  repeat' first
    | (simp [h_tellers]; done)
    | (rw [outside_foldl])
    | (intro _)
    | simp [h_tellers]
    | split

@[simp] theorem runCombine_outside {ps : List Part} (s : State) (p : Posting) (h_scratch : .scratch ∈ ps) :
    (runCombine s p).outside ps = s.outside ps := by
  unfold runCombine
  repeat' first
    | (simp [h_scratch]; done)
    | (rw [outside_foldl])
    | (intro _)
    | simp [h_scratch]
    | split

@[simp] theorem pulse_outside {ps : List Part} (s : State) (id : Nat) (h_works : .works ∈ ps) (h_drives : .drives ∈ ps) (h_gov : .gov ∈ ps) :
    (pulse s id).outside ps = s.outside ps := by
  unfold pulse
  repeat' first
    | (simp [h_works, h_drives, h_gov]; done)
    | (rw [outside_foldl])
    | (intro _)
    | simp [h_works, h_drives, h_gov]
    | split

@[simp] theorem postingFinish_outside {ps : List Part} (s : State) (x : Nat) (h_works : .works ∈ ps) (h_drives : .drives ∈ ps) (h_gov : .gov ∈ ps) (h_degrade : .degrade ∈ ps) (h_tellers : .tellers ∈ ps) (h_scratch : .scratch ∈ ps) (h_daybook : .daybook ∈ ps) :
    (postingFinish s x).outside ps = s.outside ps := by
  unfold postingFinish
  repeat' first
    | (simp [h_works, h_drives, h_gov, h_degrade, h_tellers, h_scratch, h_daybook]; done)
    | (rw [outside_foldl])
    | (intro _)
    | simp [h_works, h_drives, h_gov, h_degrade, h_tellers, h_scratch, h_daybook]
    | split

@[simp] theorem splitPosting_outside {ps : List Part} (s : State) (p : Posting) (h_works : .works ∈ ps) (h_tellers : .tellers ∈ ps) :
    (splitPosting s p).outside ps = s.outside ps := by
  unfold splitPosting
  repeat' first
    | (simp [h_works, h_tellers]; done)
    | (rw [outside_foldl])
    | (intro _)
    | simp [h_works, h_tellers]
    | split

@[simp] theorem overrunBoundary_outside {ps : List Part} (s : State) (h_works : .works ∈ ps) (h_tellers : .tellers ∈ ps) :
    (overrunBoundary s).outside ps = s.outside ps := by
  unfold overrunBoundary
  repeat' first
    | (simp [h_works, h_tellers]; done)
    | (rw [outside_foldl])
    | (intro _)
    | simp [h_works, h_tellers]
    | split

@[simp] theorem tellersExhausted_outside {ps : List Part} (s : State) (p : Nat) (h_ints : .ints ∈ ps) (h_link : .link ∈ ps) (h_daybook : .daybook ∈ ps) (h_reserves : .reserves ∈ ps) (h_hostMem : .hostMem ∈ ps) :
    (tellersExhausted s p).outside ps = s.outside ps := by
  unfold tellersExhausted
  repeat' first
    | (simp [h_ints, h_link, h_daybook, h_reserves, h_hostMem]; done)
    | (rw [outside_foldl])
    | (intro _)
    | simp [h_ints, h_link, h_daybook, h_reserves, h_hostMem]
    | split

@[simp] theorem tellerSelfTest_outside {ps : List Part} (s : State) (pass : Bool) (h_tellers : .tellers ∈ ps) (h_ints : .ints ∈ ps) (h_link : .link ∈ ps) (h_daybook : .daybook ∈ ps) (h_reserves : .reserves ∈ ps) (h_hostMem : .hostMem ∈ ps) :
    (tellerSelfTest s pass).outside ps = s.outside ps := by
  unfold tellerSelfTest
  repeat' first
    | (simp [h_tellers, h_ints, h_link, h_daybook, h_reserves, h_hostMem]; done)
    | (rw [outside_foldl])
    | (intro _)
    | simp [h_tellers, h_ints, h_link, h_daybook, h_reserves, h_hostMem]
    | split

@[simp] theorem admitTeller_outside {ps : List Part} (s : State) (d : Nat × Nat) (h_tellers : .tellers ∈ ps) (h_ints : .ints ∈ ps) (h_link : .link ∈ ps) (h_daybook : .daybook ∈ ps) (h_reserves : .reserves ∈ ps) (h_hostMem : .hostMem ∈ ps) :
    (admitTeller s d).outside ps = s.outside ps := by
  unfold admitTeller
  repeat' first
    | (simp [h_tellers, h_ints, h_link, h_daybook, h_reserves, h_hostMem]; done)
    | (rw [outside_foldl])
    | (intro _)
    | simp [h_tellers, h_ints, h_link, h_daybook, h_reserves, h_hostMem]
    | split

@[simp] theorem retireTeller_outside {ps : List Part} (s : State) (p : Nat) (h_tellers : .tellers ∈ ps) (h_ints : .ints ∈ ps) (h_link : .link ∈ ps) (h_daybook : .daybook ∈ ps) (h_reserves : .reserves ∈ ps) (h_hostMem : .hostMem ∈ ps) :
    (retireTeller s p).outside ps = s.outside ps := by
  unfold retireTeller
  repeat' first
    | (simp [h_tellers, h_ints, h_link, h_daybook, h_reserves, h_hostMem]; done)
    | (rw [outside_foldl])
    | (intro _)
    | simp [h_tellers, h_ints, h_link, h_daybook, h_reserves, h_hostMem]
    | split

@[simp] theorem tellerBoundary_outside {ps : List Part} (s : State) (h_tellers : .tellers ∈ ps) (h_ints : .ints ∈ ps) (h_link : .link ∈ ps) (h_daybook : .daybook ∈ ps) (h_reserves : .reserves ∈ ps) (h_hostMem : .hostMem ∈ ps) :
    (tellerBoundary s).outside ps = s.outside ps := by
  unfold tellerBoundary
  repeat' first
    | (simp [h_tellers, h_ints, h_link, h_daybook, h_reserves, h_hostMem]; done)
    | (rw [outside_foldl])
    | (intro _)
    | simp [h_tellers, h_ints, h_link, h_daybook, h_reserves, h_hostMem]
    | split

@[simp] theorem gateBranch_outside {ps : List Part} (s : State) (b : Nat) (h_tellers : .tellers ∈ ps) :
    (gateBranch s b).outside ps = s.outside ps := by
  unfold gateBranch
  repeat' first
    | (simp [h_tellers]; done)
    | (rw [outside_foldl])
    | (intro _)
    | simp [h_tellers]
    | split

@[simp] theorem modBank_outside {ps : List Part} (s : State) (b : Nat) (f : Bank → Bank) (h_scratch : .scratch ∈ ps) :
    (modBank s b f).outside ps = s.outside ps := by
  unfold modBank
  repeat' first
    | (simp [h_scratch]; done)
    | (rw [outside_foldl])
    | (intro _)
    | simp [h_scratch]
    | split

end Sys2Proof.Machine
end

