-- ==== Sys2Proof/Laws/Frame5.lean ====
section
/-! SUPPORT. What each operation leaves as it was: the state outside the parts it works on. -/

namespace Sys2Proof.Machine

set_option linter.all false

@[simp] theorem decideBank_outside {ps : List Part} (s : State) (b : Nat) (cause : Nat) (h_scratch : .scratch ∈ ps) (h_ints : .ints ∈ ps) (h_link : .link ∈ ps) (h_daybook : .daybook ∈ ps) (h_reserves : .reserves ∈ ps) (h_hostMem : .hostMem ∈ ps) :
    (decideBank s b cause).outside ps = s.outside ps := by
  unfold decideBank
  repeat' first
    | (simp [h_scratch, h_ints, h_link, h_daybook, h_reserves, h_hostMem]; done)
    | (rw [outside_foldl])
    | (intro _)
    | simp [h_scratch, h_ints, h_link, h_daybook, h_reserves, h_hostMem]
    | split

@[simp] theorem remapBank_outside {ps : List Part} (s : State) (c : BankCopy) (h_scratch : .scratch ∈ ps) (h_ints : .ints ∈ ps) (h_link : .link ∈ ps) (h_daybook : .daybook ∈ ps) (h_reserves : .reserves ∈ ps) (h_hostMem : .hostMem ∈ ps) :
    (remapBank s c).outside ps = s.outside ps := by
  unfold remapBank
  repeat' first
    | (simp [h_scratch, h_ints, h_link, h_daybook, h_reserves, h_hostMem]; done)
    | (rw [outside_foldl])
    | (intro _)
    | simp [h_scratch, h_ints, h_link, h_daybook, h_reserves, h_hostMem]
    | split

@[simp] theorem bankBoundary_outside {ps : List Part} (s : State) (h_scratch : .scratch ∈ ps) (h_ints : .ints ∈ ps) (h_link : .link ∈ ps) (h_daybook : .daybook ∈ ps) (h_reserves : .reserves ∈ ps) (h_hostMem : .hostMem ∈ ps) :
    (bankBoundary s).outside ps = s.outside ps := by
  unfold bankBoundary
  repeat' first
    | (simp [h_scratch, h_ints, h_link, h_daybook, h_reserves, h_hostMem]; done)
    | (rw [outside_foldl])
    | (intro _)
    | simp [h_scratch, h_ints, h_link, h_daybook, h_reserves, h_hostMem]
    | split

@[simp] theorem countCollision_outside {ps : List Part} (s : State) (word : Nat) (h_scratch : .scratch ∈ ps) :
    (countCollision s word).outside ps = s.outside ps := by
  unfold countCollision
  repeat' first
    | (simp [h_scratch]; done)
    | (rw [outside_foldl])
    | (intro _)
    | simp [h_scratch]
    | split

@[simp] theorem loseWrite_outside {ps : List Part} (s : State) (a : ScrAccess) (word : Nat) (h_tellers : .tellers ∈ ps) (h_scratch : .scratch ∈ ps) (h_returns : .returns ∈ ps) (h_courier : .courier ∈ ps) :
    (loseWrite s a word).outside ps = s.outside ps := by
  unfold loseWrite
  repeat' first
    | (simp [h_tellers, h_scratch, h_returns, h_courier]; done)
    | (rw [outside_foldl])
    | (intro _)
    | simp [h_tellers, h_scratch, h_returns, h_courier]
    | split

@[simp] theorem readPoison_outside {ps : List Part} (s : State) (a : ScrAccess) (h_works : .works ∈ ps) (h_drives : .drives ∈ ps) (h_gov : .gov ∈ ps) (h_degrade : .degrade ∈ ps) (h_tellers : .tellers ∈ ps) (h_returns : .returns ∈ ps) (h_daybook : .daybook ∈ ps) (h_courier : .courier ∈ ps) :
    (readPoison s a).outside ps = s.outside ps := by
  unfold readPoison
  repeat' first
    | (simp [h_works, h_drives, h_gov, h_degrade, h_tellers, h_returns, h_daybook, h_courier]; done)
    | (rw [outside_foldl])
    | (intro _)
    | simp [h_works, h_drives, h_gov, h_degrade, h_tellers, h_returns, h_daybook, h_courier]
    | split

@[simp] theorem eccEvent_outside {ps : List Part} (s : State) (a : ScrAccess) (h_scratch : .scratch ∈ ps) (h_ints : .ints ∈ ps) (h_link : .link ∈ ps) (h_daybook : .daybook ∈ ps) (h_reserves : .reserves ∈ ps) (h_hostMem : .hostMem ∈ ps) :
    (eccEvent s a).outside ps = s.outside ps := by
  unfold eccEvent
  repeat' first
    | (simp [h_scratch, h_ints, h_link, h_daybook, h_reserves, h_hostMem]; done)
    | (rw [outside_foldl])
    | (intro _)
    | simp [h_scratch, h_ints, h_link, h_daybook, h_reserves, h_hostMem]
    | split

@[simp] theorem storeAccess_outside {ps : List Part} (s : State) (a : ScrAccess) (h_scratch : .scratch ∈ ps) :
    (storeAccess s a).outside ps = s.outside ps := by
  unfold storeAccess
  repeat' first
    | (simp [h_scratch]; done)
    | (rw [outside_foldl])
    | (intro _)
    | simp [h_scratch]
    | split

@[simp] theorem serve_outside {ps : List Part} (s : State) (id : Nat) (e : List Byte) (h_map : .map ∈ ps) :
    (serve s id e).outside ps = s.outside ps := by
  unfold serve
  repeat' first
    | (simp [h_map]; done)
    | (rw [outside_foldl])
    | (intro _)
    | simp [h_map]
    | split

@[simp] theorem scratchCycle_outside {ps : List Part} (s : State) (wanted : List ScrAccess) (h_works : .works ∈ ps) (h_drives : .drives ∈ ps) (h_gov : .gov ∈ ps) (h_degrade : .degrade ∈ ps) (h_tellers : .tellers ∈ ps) (h_scratch : .scratch ∈ ps) (h_returns : .returns ∈ ps) (h_ints : .ints ∈ ps) (h_link : .link ∈ ps) (h_daybook : .daybook ∈ ps) (h_reserves : .reserves ∈ ps) (h_courier : .courier ∈ ps) (h_map : .map ∈ ps) (h_hostMem : .hostMem ∈ ps) :
    (scratchCycle s wanted).outside ps = s.outside ps := by
  unfold scratchCycle
  repeat' first
    | (simp [h_works, h_drives, h_gov, h_degrade, h_tellers, h_scratch, h_returns, h_ints, h_link, h_daybook, h_reserves, h_courier, h_map, h_hostMem]; done)
    | (rw [outside_foldl])
    | (intro _)
    | simp [h_works, h_drives, h_gov, h_degrade, h_tellers, h_scratch, h_returns, h_ints, h_link, h_daybook, h_reserves, h_courier, h_map, h_hostMem]
    | split

@[simp] theorem setMapped_outside {ps : List Part} (s : State) (st : Nat) (h_scratch : .scratch ∈ ps) :
    (setMapped s st).outside ps = s.outside ps := by
  unfold setMapped
  repeat' first
    | (simp [h_scratch]; done)
    | (rw [outside_foldl])
    | (intro _)
    | simp [h_scratch]
    | split

@[simp] theorem advanceSweep_outside {ps : List Part} (s : State) (h_scratch : .scratch ∈ ps) :
    (advanceSweep s).outside ps = s.outside ps := by
  unfold advanceSweep
  repeat' first
    | (simp [h_scratch]; done)
    | (rw [outside_foldl])
    | (intro _)
    | simp [h_scratch]
    | split

@[simp] theorem sweepStep_outside {ps : List Part} (s : State) (t : Nat) (needed : List Nat) (faultAt : Option Nat) (h_clock : .clock ∈ ps) (h_scratch : .scratch ∈ ps) (h_ints : .ints ∈ ps) (h_link : .link ∈ ps) (h_daybook : .daybook ∈ ps) (h_reserves : .reserves ∈ ps) (h_hostMem : .hostMem ∈ ps) :
    (sweepStep s t needed faultAt).outside ps = s.outside ps := by
  unfold sweepStep
  simp only
  repeat' first
    | (simp [h_clock, h_scratch, h_ints, h_link, h_daybook, h_reserves, h_hostMem]; done)
    | split

@[simp] theorem sweepBoundary_outside {ps : List Part} (s : State) (h_scratch : .scratch ∈ ps) :
    (sweepBoundary s).outside ps = s.outside ps := by
  unfold sweepBoundary
  repeat' first
    | (simp [h_scratch]; done)
    | (rw [outside_foldl])
    | (intro _)
    | simp [h_scratch]
    | split

@[simp] theorem supersede_outside {ps : List Part} (s : State) (h_ledger : .ledger ∈ ps) :
    (supersede s).outside ps = s.outside ps := by
  unfold supersede
  repeat' first
    | (simp [h_ledger]; done)
    | (rw [outside_foldl])
    | (intro _)
    | simp [h_ledger]
    | split

@[simp] theorem landRange_outside {ps : List Part} (s : State) (v : Nat) (lba : Nat) (n : Nat) (h_degrade : .degrade ∈ ps) (h_cache : .cache ∈ ps) :
    (landRange s v lba n).outside ps = s.outside ps := by
  unfold landRange
  repeat' first
    | (simp [h_degrade, h_cache]; done)
    | (rw [outside_foldl])
    | (intro _)
    | simp [h_degrade, h_cache]
    | split

@[simp] theorem landRec_outside {ps : List Part} (s : State) (seq : Nat) (h_ledger : .ledger ∈ ps) (h_bands : .bands ∈ ps) (h_degrade : .degrade ∈ ps) (h_cmds : .cmds ∈ ps) (h_cache : .cache ∈ ps) :
    (landRec s seq).outside ps = s.outside ps := by
  unfold landRec
  repeat' first
    | (simp [h_ledger, h_bands, h_degrade, h_cmds, h_cache]; done)
    | (rw [outside_foldl])
    | (intro _)
    | simp [h_ledger, h_bands, h_degrade, h_cmds, h_cache]
    | split

@[simp] theorem releaseRecords_outside {ps : List Part} (s : State) (h_ledger : .ledger ∈ ps) (h_chain : .chain ∈ ps) :
    (releaseRecords s).outside ps = s.outside ps := by
  unfold releaseRecords
  repeat' first
    | (simp [h_ledger, h_chain]; done)
    | (rw [outside_foldl])
    | (intro _)
    | simp [h_ledger, h_chain]
    | split

@[simp] theorem releaseRow_outside {ps : List Part} (s : State) (l : Layout) (row : Nat) (rs : List Rec) (h_ledger : .ledger ∈ ps) (h_bands : .bands ∈ ps) (h_chain : .chain ∈ ps) :
    (releaseRow s l row rs).outside ps = s.outside ps := by
  unfold releaseRow
  repeat' first
    | (simp [h_ledger, h_bands, h_chain]; done)
    | (rw [outside_foldl])
    | (intro _)
    | simp [h_ledger, h_bands, h_chain]
    | split

@[simp] theorem planRow_outside {ps : List Part} (s : State) (layout : Nat) (row : Nat) (h_ledger : .ledger ∈ ps) (h_bands : .bands ∈ ps) (h_plans : .plans ∈ ps) (h_works : .works ∈ ps) (h_nextWork : .nextWork ∈ ps) (h_drives : .drives ∈ ps) (h_gov : .gov ∈ ps) (h_degrade : .degrade ∈ ps) (h_chain : .chain ∈ ps) (h_daybook : .daybook ∈ ps) :
    (planRow s layout row).outside ps = s.outside ps := by
  unfold planRow
  repeat' first
    | (simp [h_ledger, h_bands, h_plans, h_works, h_nextWork, h_drives, h_gov, h_degrade, h_chain, h_daybook]; done)
    | (rw [outside_foldl])
    | (intro _)
    | simp [h_ledger, h_bands, h_plans, h_works, h_nextWork, h_drives, h_gov, h_degrade, h_chain, h_daybook]
    | split

@[simp] theorem planDestage_outside {ps : List Part} (s : State) (h_ledger : .ledger ∈ ps) (h_bands : .bands ∈ ps) (h_plans : .plans ∈ ps) (h_works : .works ∈ ps) (h_nextWork : .nextWork ∈ ps) (h_drives : .drives ∈ ps) (h_gov : .gov ∈ ps) (h_degrade : .degrade ∈ ps) (h_chain : .chain ∈ ps) (h_daybook : .daybook ∈ ps) :
    (planDestage s).outside ps = s.outside ps := by
  unfold planDestage
  repeat' first
    | (simp [h_ledger, h_bands, h_plans, h_works, h_nextWork, h_drives, h_gov, h_degrade, h_chain, h_daybook]; done)
    | (rw [outside_foldl])
    | (intro _)
    | simp [h_ledger, h_bands, h_plans, h_works, h_nextWork, h_drives, h_gov, h_degrade, h_chain, h_daybook]
    | split

@[simp] theorem ripen_outside {ps : List Part} (s : State) (h_ledger : .ledger ∈ ps) :
    (ripen s).outside ps = s.outside ps := by
  unfold ripen
  repeat' first
    | (simp [h_ledger]; done)
    | (rw [outside_foldl])
    | (intro _)
    | simp [h_ledger]
    | split

@[simp] theorem resyncDone_outside {ps : List Part} (s : State) (w : Work) (h_ledger : .ledger ∈ ps) (h_bands : .bands ∈ ps) (h_chain : .chain ∈ ps) :
    (resyncDone s w).outside ps = s.outside ps := by
  unfold resyncDone
  repeat' first
    | (simp [h_ledger, h_bands, h_chain]; done)
    | (rw [outside_foldl])
    | (intro _)
    | simp [h_ledger, h_bands, h_chain]
    | split

@[simp] theorem replaceLost_outside {ps : List Part} (s : State) (w : Work) (h_degrade : .degrade ∈ ps) :
    (replaceLost s w).outside ps = s.outside ps := by
  unfold replaceLost
  repeat' first
    | (simp [h_degrade]; done)
    | (rw [outside_foldl])
    | (intro _)
    | simp [h_degrade]
    | split

@[simp] theorem sealDone_outside {ps : List Part} (s : State) (w : Work) (h_works : .works ∈ ps) (h_drives : .drives ∈ ps) (h_gov : .gov ∈ ps) (h_degrade : .degrade ∈ ps) (h_daybook : .daybook ∈ ps) :
    (sealDone s w).outside ps = s.outside ps := by
  unfold sealDone
  repeat' first
    | (simp [h_works, h_drives, h_gov, h_degrade, h_daybook]; done)
    | (rw [outside_foldl])
    | (intro _)
    | simp [h_works, h_drives, h_gov, h_degrade, h_daybook]
    | split

@[simp] theorem rowOnDisk_outside {ps : List Part} (s : State) (w : Work) (h_ledger : .ledger ∈ ps) (h_bands : .bands ∈ ps) (h_plans : .plans ∈ ps) (h_works : .works ∈ ps) (h_drives : .drives ∈ ps) (h_gov : .gov ∈ ps) (h_degrade : .degrade ∈ ps) (h_reshapes : .reshapes ∈ ps) (h_cmds : .cmds ∈ ps) (h_vaults : .vaults ∈ ps) (h_chain : .chain ∈ ps) (h_daybook : .daybook ∈ ps) :
    (rowOnDisk s w).outside ps = s.outside ps := by
  unfold rowOnDisk
  repeat' first
    | (simp [h_ledger, h_bands, h_plans, h_works, h_drives, h_gov, h_degrade, h_reshapes, h_cmds, h_vaults, h_chain, h_daybook]; done)
    | (rw [outside_foldl])
    | (intro _)
    | simp [h_ledger, h_bands, h_plans, h_works, h_drives, h_gov, h_degrade, h_reshapes, h_cmds, h_vaults, h_chain, h_daybook]
    | split

@[simp] theorem stripeWriteComplete_outside {ps : List Part} (s : State) (id : Nat) (h_ledger : .ledger ∈ ps) (h_bands : .bands ∈ ps) (h_plans : .plans ∈ ps) (h_works : .works ∈ ps) (h_drives : .drives ∈ ps) (h_gov : .gov ∈ ps) (h_degrade : .degrade ∈ ps) (h_reshapes : .reshapes ∈ ps) (h_cmds : .cmds ∈ ps) (h_vaults : .vaults ∈ ps) (h_chain : .chain ∈ ps) (h_daybook : .daybook ∈ ps) :
    (stripeWriteComplete s id).outside ps = s.outside ps := by
  unfold stripeWriteComplete
  repeat' first
    | (simp [h_ledger, h_bands, h_plans, h_works, h_drives, h_gov, h_degrade, h_reshapes, h_cmds, h_vaults, h_chain, h_daybook]; done)
    | (rw [outside_foldl])
    | (intro _)
    | simp [h_ledger, h_bands, h_plans, h_works, h_drives, h_gov, h_degrade, h_reshapes, h_cmds, h_vaults, h_chain, h_daybook]
    | split

@[simp] theorem cutCheckpoint_outside {ps : List Part} (s : State) (admission : Bool) (h_ledger : .ledger ∈ ps) (h_registry : .registry ∈ ps) :
    (cutCheckpoint s admission).outside ps = s.outside ps := by
  unfold cutCheckpoint
  repeat' first
    | (simp [h_ledger, h_registry]; done)
    | (rw [outside_foldl])
    | (intro _)
    | simp [h_ledger, h_registry]
    | split

@[simp] theorem checkpointComplete_outside {ps : List Part} (s : State) (acks : List Nat) (h_ledger : .ledger ∈ ps) (h_plans : .plans ∈ ps) (h_works : .works ∈ ps) (h_drives : .drives ∈ ps) (h_gov : .gov ∈ ps) (h_degrade : .degrade ∈ ps) (h_chain : .chain ∈ ps) (h_daybook : .daybook ∈ ps) (h_registry : .registry ∈ ps) :
    (checkpointComplete s acks).outside ps = s.outside ps := by
  unfold checkpointComplete
  repeat' first
    | (simp [h_ledger, h_plans, h_works, h_drives, h_gov, h_degrade, h_chain, h_daybook, h_registry]; done)
    | (rw [outside_foldl])
    | (intro _)
    | simp [h_ledger, h_plans, h_works, h_drives, h_gov, h_degrade, h_chain, h_daybook, h_registry]
    | split

@[simp] theorem cleanBoundary_outside {ps : List Part} (s : State) (h_ledger : .ledger ∈ ps) (h_chain : .chain ∈ ps) :
    (cleanBoundary s).outside ps = s.outside ps := by
  unfold cleanBoundary
  repeat' first
    | (simp [h_ledger, h_chain]; done)
    | (rw [outside_foldl])
    | (intro _)
    | simp [h_ledger, h_chain]
    | split

@[simp] theorem resynchronise_outside {ps : List Part} (s : State) (v : Nat) (region : Nat) (h_ledger : .ledger ∈ ps) (h_plans : .plans ∈ ps) (h_works : .works ∈ ps) (h_nextWork : .nextWork ∈ ps) (h_drives : .drives ∈ ps) (h_gov : .gov ∈ ps) (h_degrade : .degrade ∈ ps) (h_daybook : .daybook ∈ ps) :
    (resynchronise s v region).outside ps = s.outside ps := by
  unfold resynchronise
  repeat' first
    | (simp [h_ledger, h_plans, h_works, h_nextWork, h_drives, h_gov, h_degrade, h_daybook]; done)
    | (rw [outside_foldl])
    | (intro _)
    | simp [h_ledger, h_plans, h_works, h_nextWork, h_drives, h_gov, h_degrade, h_daybook]
    | split

@[simp] theorem retireBlock_outside {ps : List Part} (s : State) (b : Nat) (cause : Nat) (h_ledger : .ledger ∈ ps) :
    (retireBlock s b cause).outside ps = s.outside ps := by
  unfold retireBlock
  repeat' first
    | (simp [h_ledger]; done)
    | (rw [outside_foldl])
    | (intro _)
    | simp [h_ledger]
    | split

@[simp] theorem correctedEvent_outside {ps : List Part} (s : State) (b : Nat) (h_ledger : .ledger ∈ ps) :
    (correctedEvent s b).outside ps = s.outside ps := by
  unfold correctedEvent
  repeat' first
    | (simp [h_ledger]; done)
    | (rw [outside_foldl])
    | (intro _)
    | simp [h_ledger]
    | split

@[simp] theorem wordLost_outside {ps : List Part} (s : State) (w : LedgerWord) (h_ledger : .ledger ∈ ps) (h_degrade : .degrade ∈ ps) (h_daybook : .daybook ∈ ps) :
    (wordLost s w).outside ps = s.outside ps := by
  unfold wordLost
  repeat' first
    | (simp [h_ledger, h_degrade, h_daybook]; done)
    | (rw [outside_foldl])
    | (intro _)
    | simp [h_ledger, h_degrade, h_daybook]
    | split
  all_goals
    have e := congrArg (fun p => State.outside ps p.1) ‹_ = (_, _)›
    simp [h_ledger, h_degrade, h_daybook] at e
    simp [h_ledger, h_degrade, h_daybook, e]

@[simp] theorem shrinkRecords_outside {ps : List Part} (s : State) (b : Nat) (place : Nat) (h_ledger : .ledger ∈ ps) :
    (shrinkRecords s b place).outside ps = s.outside ps := by
  unfold shrinkRecords
  repeat' first
    | (simp [h_ledger]; done)
    | (rw [outside_foldl])
    | (intro _)
    | simp [h_ledger]
    | split

@[simp] theorem replaceBlock_outside {ps : List Part} (s : State) (b : Nat) (h_ledger : .ledger ∈ ps) (h_ints : .ints ∈ ps) (h_link : .link ∈ ps) (h_daybook : .daybook ∈ ps) (h_reserves : .reserves ∈ ps) (h_hostMem : .hostMem ∈ ps) :
    (replaceBlock s b).outside ps = s.outside ps := by
  unfold replaceBlock
  repeat' first
    | (simp [h_ledger, h_ints, h_link, h_daybook, h_reserves, h_hostMem]; done)
    | (rw [outside_foldl])
    | (intro _)
    | simp [h_ledger, h_ints, h_link, h_daybook, h_reserves, h_hostMem]
    | split

@[simp] theorem blockBoundary_outside {ps : List Part} (s : State) (h_ledger : .ledger ∈ ps) (h_ints : .ints ∈ ps) (h_link : .link ∈ ps) (h_daybook : .daybook ∈ ps) (h_reserves : .reserves ∈ ps) (h_hostMem : .hostMem ∈ ps) :
    (blockBoundary s).outside ps = s.outside ps := by
  unfold blockBoundary
  repeat' first
    | (simp [h_ledger, h_ints, h_link, h_daybook, h_reserves, h_hostMem]; done)
    | (rw [outside_foldl])
    | (intro _)
    | simp [h_ledger, h_ints, h_link, h_daybook, h_reserves, h_hostMem]
    | split

@[simp] theorem swapBlocks_outside {ps : List Part} (s : State) (b : Nat) (f : Nat) (h_ledger : .ledger ∈ ps) :
    (swapBlocks s b f).outside ps = s.outside ps := by
  unfold swapBlocks
  repeat' first
    | (simp [h_ledger]; done)
    | (rw [outside_foldl])
    | (intro _)
    | simp [h_ledger]
    | split

@[simp] theorem wearMove_outside {ps : List Part} (s : State) (b : Nat) (h_ledger : .ledger ∈ ps) :
    (wearMove s b).outside ps = s.outside ps := by
  unfold wearMove
  repeat' first
    | (simp [h_ledger]; done)
    | (rw [outside_foldl])
    | (intro _)
    | simp [h_ledger]
    | split

@[simp] theorem nextTrim_outside {ps : List Part} (s : State) (h_ledger : .ledger ∈ ps) :
    (nextTrim s).outside ps = s.outside ps := by
  unfold nextTrim
  repeat' first
    | (simp [h_ledger]; done)
    | (rw [outside_foldl])
    | (intro _)
    | simp [h_ledger]
    | split

@[simp] theorem senseTrim_outside {ps : List Part} (s : State) (margin : Nat) (shift : Nat) (finished : Bool) (h_ledger : .ledger ∈ ps) :
    (senseTrim s margin shift finished).outside ps = s.outside ps := by
  unfold senseTrim
  repeat' first
    | (simp [h_ledger]; done)
    | (rw [outside_foldl])
    | (intro _)
    | simp [h_ledger]
    | split

@[simp] theorem setThreshold_outside {ps : List Part} (s : State) (old : Bool) (new : Bool) (setCause : Nat) (h_ints : .ints ∈ ps) (h_link : .link ∈ ps) (h_daybook : .daybook ∈ ps) (h_hostMem : .hostMem ∈ ps) :
    (setThreshold s old new setCause).outside ps = s.outside ps := by
  unfold setThreshold
  repeat' first
    | (simp [h_ints, h_link, h_daybook, h_hostMem]; done)
    | (rw [outside_foldl])
    | (intro _)
    | simp [h_ints, h_link, h_daybook, h_hostMem]
    | split

@[simp] theorem thresholds_outside {ps : List Part} (s : State) (h_ledger : .ledger ∈ ps) (h_ints : .ints ∈ ps) (h_cfg : .cfg ∈ ps) (h_link : .link ∈ ps) (h_daybook : .daybook ∈ ps) (h_hostMem : .hostMem ∈ ps) :
    (thresholds s).outside ps = s.outside ps := by
  unfold thresholds
  repeat' first
    | (simp [h_ledger, h_ints, h_cfg, h_link, h_daybook, h_hostMem]; done)
    | (rw [outside_foldl])
    | (intro _)
    | simp [h_ledger, h_ints, h_cfg, h_link, h_daybook, h_hostMem]
    | split

@[simp] theorem ledgerCounts_outside {ps : List Part} (s : State) (h_ledger : .ledger ∈ ps) :
    (ledgerCounts s).outside ps = s.outside ps := by
  unfold ledgerCounts
  repeat' first
    | (simp [h_ledger]; done)
    | (rw [outside_foldl])
    | (intro _)
    | simp [h_ledger]
    | split

@[simp] theorem setGrp_outside {ps : List Part} (s : State) (g : Nat) (st : Nat) (f : Group → Group) (h_gov : .gov ∈ ps) :
    (setGrp s g st f).outside ps = s.outside ps := by
  unfold setGrp
  repeat' first
    | (simp [h_gov]; done)
    | (rw [outside_foldl])
    | (intro _)
    | simp [h_gov]
    | split

@[simp] theorem startBatch_outside {ps : List Part} (s : State) (g : Nat) (h_drives : .drives ∈ ps) (h_gov : .gov ∈ ps) :
    (startBatch s g).outside ps = s.outside ps := by
  unfold startBatch
  repeat' first
    | (simp [h_drives, h_gov]; done)
    | (rw [outside_foldl])
    | (intro _)
    | simp [h_drives, h_gov]
    | split

@[simp] theorem grant_outside {ps : List Part} (s : State) (g : Nat) (h_drives : .drives ∈ ps) (h_gov : .gov ∈ ps) :
    (grant s g).outside ps = s.outside ps := by
  unfold grant
  repeat' first
    | (simp [h_drives, h_gov]; done)
    | (rw [outside_foldl])
    | (intro _)
    | simp [h_drives, h_gov]
    | split

@[simp] theorem shelfPower_outside {ps : List Part} (s : State) (g : Nat) (ok : Bool) (h_drives : .drives ∈ ps) (h_gov : .gov ∈ ps) (h_daybook : .daybook ∈ ps) :
    (shelfPower s g ok).outside ps = s.outside ps := by
  unfold shelfPower
  repeat' first
    | (simp [h_drives, h_gov, h_daybook]; done)
    | (rw [outside_foldl])
    | (intro _)
    | simp [h_drives, h_gov, h_daybook]
    | split

@[simp] theorem staggerStep_outside {ps : List Part} (s : State) (g : Nat) (h_drives : .drives ∈ ps) (h_gov : .gov ∈ ps) :
    (staggerStep s g).outside ps = s.outside ps := by
  unfold staggerStep
  repeat' first
    | (simp [h_drives, h_gov]; done)
    | (rw [outside_foldl])
    | (intro _)
    | simp [h_drives, h_gov]
    | split

@[simp] theorem groupReady_outside {ps : List Part} (s : State) (g : Nat) (h_gov : .gov ∈ ps) :
    (groupReady s g).outside ps = s.outside ps := by
  unfold groupReady
  repeat' first
    | (simp [h_gov]; done)
    | (rw [outside_foldl])
    | (intro _)
    | simp [h_gov]
    | split

@[simp] theorem spinUpLimit_outside {ps : List Part} (s : State) (g : Nat) (h_ledger : .ledger ∈ ps) (h_plans : .plans ∈ ps) (h_works : .works ∈ ps) (h_nextWork : .nextWork ∈ ps) (h_holds : .holds ∈ ps) (h_drives : .drives ∈ ps) (h_gov : .gov ∈ ps) (h_degrade : .degrade ∈ ps) (h_cmds : .cmds ∈ ps) (h_returns : .returns ∈ ps) (h_power : .power ∈ ps) (h_vaults : .vaults ∈ ps) (h_daybook : .daybook ∈ ps) (h_cache : .cache ∈ ps) :
    (spinUpLimit s g).outside ps = s.outside ps := by
  unfold spinUpLimit
  repeat' first
    | (simp [h_ledger, h_plans, h_works, h_nextWork, h_holds, h_drives, h_gov, h_degrade, h_cmds, h_returns, h_power, h_vaults, h_daybook, h_cache]; done)
    | (rw [outside_foldl])
    | (intro _)
    | simp [h_ledger, h_plans, h_works, h_nextWork, h_holds, h_drives, h_gov, h_degrade, h_cmds, h_returns, h_power, h_vaults, h_daybook, h_cache]
    | split

@[simp] theorem fallGroup_outside {ps : List Part} (s : State) (g : Nat) (h_drives : .drives ∈ ps) (h_gov : .gov ∈ ps) :
    (fallGroup s g).outside ps = s.outside ps := by
  unfold fallGroup
  repeat' first
    | (simp [h_drives, h_gov]; done)
    | (rw [outside_foldl])
    | (intro _)
    | simp [h_drives, h_gov]
    | split

@[simp] theorem closingEnd_outside {ps : List Part} (s : State) (g : Nat) (h_drives : .drives ∈ ps) (h_gov : .gov ∈ ps) :
    (closingEnd s g).outside ps = s.outside ps := by
  unfold closingEnd
  repeat' first
    | (simp [h_drives, h_gov]; done)
    | (rw [outside_foldl])
    | (intro _)
    | simp [h_drives, h_gov]
    | split

@[simp] theorem groupDown_outside {ps : List Part} (s : State) (g : Nat) (h_drives : .drives ∈ ps) (h_gov : .gov ∈ ps) :
    (groupDown s g).outside ps = s.outside ps := by
  unfold groupDown
  repeat' first
    | (simp [h_drives, h_gov]; done)
    | (rw [outside_foldl])
    | (intro _)
    | simp [h_drives, h_gov]
    | split

@[simp] theorem allFall_outside {ps : List Part} (s : State) (h_drives : .drives ∈ ps) (h_gov : .gov ∈ ps) :
    (allFall s).outside ps = s.outside ps := by
  unfold allFall
  repeat' first
    | (simp [h_drives, h_gov]; done)
    | (rw [outside_foldl])
    | (intro _)
    | simp [h_drives, h_gov]
    | split

@[simp] theorem grantDemands_outside {ps : List Part} (s : State) (a0 : List Demand) (h_drives : .drives ∈ ps) (h_gov : .gov ∈ ps) :
    (grantDemands s a0).outside ps = s.outside ps := by
  induction a0 generalizing s with
  | nil => simp [grantDemands, h_drives, h_gov]
  | cons d r ih =>
    unfold grantDemands
    simp only
    split
    · rw [ih, outside_foldl]
      intro u x
      simp [h_drives, h_gov]
    · simp [h_drives, h_gov]

@[simp] theorem endWindow_outside {ps : List Part} (s : State) (g : Nat) (h_gov : .gov ∈ ps) :
    (endWindow s g).outside ps = s.outside ps := by
  unfold endWindow
  repeat' first
    | (simp [h_gov]; done)
    | (rw [outside_foldl])
    | (intro _)
    | simp [h_gov]
    | split

@[simp] theorem debtDemands_outside {ps : List Part} (s : State) (h_gov : .gov ∈ ps) :
    (debtDemands s).outside ps = s.outside ps := by
  unfold debtDemands
  repeat' first
    | (simp [h_gov]; done)
    | (rw [outside_foldl])
    | (intro _)
    | simp [h_gov]
    | split

@[simp] theorem governor_outside {ps : List Part} (s : State) (h_drives : .drives ∈ ps) (h_gov : .gov ∈ ps) :
    (governor s).outside ps = s.outside ps := by
  unfold governor
  repeat' first
    | (simp [h_drives, h_gov]; done)
    | (rw [outside_foldl])
    | (intro _)
    | simp [h_drives, h_gov]
    | split

@[simp] theorem spinTime_outside {ps : List Part} (s : State) (h_gov : .gov ∈ ps) :
    (spinTime s).outside ps = s.outside ps := by
  unfold spinTime
  repeat' first
    | (simp [h_gov]; done)
    | (rw [outside_foldl])
    | (intro _)
    | simp [h_gov]
    | split

@[simp] theorem windowRequest_outside {ps : List Part} (s : State) (tag : Nat) (h_gov : .gov ∈ ps) (h_cmds : .cmds ∈ ps) :
    (windowRequest s tag).outside ps = s.outside ps := by
  unfold windowRequest
  repeat' first
    | (simp [h_gov, h_cmds]; done)
    | (rw [outside_foldl])
    | (intro _)
    | simp [h_gov, h_cmds]
    | split

@[simp] theorem windowRelease_outside {ps : List Part} (s : State) (tag : Nat) (h_gov : .gov ∈ ps) (h_cmds : .cmds ∈ ps) :
    (windowRelease s tag).outside ps = s.outside ps := by
  unfold windowRelease
  repeat' first
    | (simp [h_gov, h_cmds]; done)
    | (rw [outside_foldl])
    | (intro _)
    | simp [h_gov, h_cmds]
    | split

@[simp] theorem claimEnd_outside {ps : List Part} (s : State) (g : Nat) (h_gov : .gov ∈ ps) :
    (claimEnd s g).outside ps = s.outside ps := by
  unfold claimEnd
  repeat' first
    | (simp [h_gov]; done)
    | (rw [outside_foldl])
    | (intro _)
    | simp [h_gov]
    | split

@[simp] theorem windowBoundary_outside {ps : List Part} (s : State) (h_gov : .gov ∈ ps) (h_cmds : .cmds ∈ ps) :
    (windowBoundary s).outside ps = s.outside ps := by
  unfold windowBoundary
  repeat' first
    | (simp [h_gov, h_cmds]; done)
    | (rw [outside_foldl])
    | (intro _)
    | simp [h_gov, h_cmds]
    | split

@[simp] theorem modLane_outside {ps : List Part} (s : State) (n : Nat) (f : SasLane → SasLane) (h_sas : .sas ∈ ps) :
    (modLane s n f).outside ps = s.outside ps := by
  unfold modLane
  repeat' first
    | (simp [h_sas]; done)
    | (rw [outside_foldl])
    | (intro _)
    | simp [h_sas]
    | split

@[simp] theorem flagLane_outside {ps : List Part} (s : State) (n : Nat) (h_sas : .sas ∈ ps) (h_daybook : .daybook ∈ ps) :
    (flagLane s n).outside ps = s.outside ps := by
  unfold flagLane
  repeat' first
    | (simp [h_sas, h_daybook]; done)
    | (rw [outside_foldl])
    | (intro _)
    | simp [h_sas, h_daybook]
    | split

@[simp] theorem assignSlots_outside {ps : List Part} (s : State) (h_sas : .sas ∈ ps) :
    (assignSlots s).outside ps = s.outside ps := by
  unfold assignSlots
  repeat' first
    | (simp [h_sas]; done)
    | (rw [outside_foldl])
    | (intro _)
    | simp [h_sas]
    | split

@[simp] theorem replaceLane_outside {ps : List Part} (s : State) (n : Nat) (h_sas : .sas ∈ ps) (h_ints : .ints ∈ ps) (h_link : .link ∈ ps) (h_daybook : .daybook ∈ ps) (h_reserves : .reserves ∈ ps) (h_hostMem : .hostMem ∈ ps) :
    (replaceLane s n).outside ps = s.outside ps := by
  unfold replaceLane
  repeat' first
    | (simp [h_sas, h_ints, h_link, h_daybook, h_reserves, h_hostMem]; done)
    | (rw [outside_foldl])
    | (intro _)
    | simp [h_sas, h_ints, h_link, h_daybook, h_reserves, h_hostMem]
    | split

@[simp] theorem laneBoundary_outside {ps : List Part} (s : State) (h_sas : .sas ∈ ps) (h_ints : .ints ∈ ps) (h_link : .link ∈ ps) (h_daybook : .daybook ∈ ps) (h_reserves : .reserves ∈ ps) (h_hostMem : .hostMem ∈ ps) :
    (laneBoundary s).outside ps = s.outside ps := by
  unfold laneBoundary
  repeat' first
    | (simp [h_sas, h_ints, h_link, h_daybook, h_reserves, h_hostMem]; done)
    | (rw [outside_foldl])
    | (intro _)
    | simp [h_sas, h_ints, h_link, h_daybook, h_reserves, h_hostMem]
    | split

@[simp] theorem bindMember_outside {ps : List Part} (s : State) (found : List FoundDrive) (d : MemberDef) (h_drives : .drives ∈ ps) (h_registry : .registry ∈ ps) :
    (bindMember s found d).outside ps = s.outside ps := by
  unfold bindMember
  repeat' first
    | (simp [h_drives, h_registry]; done)
    | (rw [outside_foldl])
    | (intro _)
    | simp [h_drives, h_registry]
    | split

@[simp] theorem discoveryEnd_outside {ps : List Part} (s : State) (found : List FoundDrive) (expanders : Nat) (enclosures : Nat) (beyond : Nat) (h_drives : .drives ∈ ps) (h_daybook : .daybook ∈ ps) (h_registry : .registry ∈ ps) :
    (discoveryEnd s found expanders enclosures beyond).outside ps = s.outside ps := by
  unfold discoveryEnd
  repeat' first
    | (simp [h_drives, h_daybook, h_registry]; done)
    | (rw [outside_foldl])
    | (intro _)
    | simp [h_drives, h_daybook, h_registry]
    | split

@[simp] theorem useFree_outside {ps : List Part} (s : State) (n : Nat) (h_free : .free ∈ ps) :
    (useFree s n).outside ps = s.outside ps := by
  unfold useFree
  repeat' first
    | (simp [h_free]; done)
    | (rw [outside_foldl])
    | (intro _)
    | simp [h_free]
    | split

@[simp] theorem finishBytes_outside {ps : List Part} (s : State) (tag : Nat) (bs : List Byte) (h_cmds : .cmds ∈ ps) (h_returns : .returns ∈ ps) :
    (finishBytes s tag bs).outside ps = s.outside ps := by
  unfold finishBytes
  repeat' first
    | (simp [h_cmds, h_returns]; done)
    | (rw [outside_foldl])
    | (intro _)
    | simp [h_cmds, h_returns]
    | split

@[simp] theorem identify_outside {ps : List Part} (s : State) (tag : Nat) (h_cmds : .cmds ∈ ps) (h_returns : .returns ∈ ps) (h_free : .free ∈ ps) :
    (identify s tag).outside ps = s.outside ps := by
  unfold identify
  repeat' first
    | (simp [h_cmds, h_returns, h_free]; done)
    | (rw [outside_foldl])
    | (intro _)
    | simp [h_cmds, h_returns, h_free]
    | split

@[simp] theorem answerLog_outside {ps : List Part} (s : State) (c : Cmd) (h_cmds : .cmds ∈ ps) (h_returns : .returns ∈ ps) (h_free : .free ∈ ps) :
    (answerLog s c).outside ps = s.outside ps := by
  unfold answerLog
  repeat' first
    | (simp [h_cmds, h_returns, h_free]; done)
    | (rw [outside_foldl])
    | (intro _)
    | simp [h_cmds, h_returns, h_free]
    | split

end Sys2Proof.Machine
end

