-- ==== Sys2Proof/Laws/Frame6.lean ====
section
/-! SUPPORT. What each operation leaves as it was: the state outside the parts it works on. -/

namespace Sys2Proof.Machine

set_option linter.all false

@[simp] theorem getLog_outside {ps : List Part} (s : State) (tag : Nat) (h_cmds : .cmds ∈ ps) (h_returns : .returns ∈ ps) (h_free : .free ∈ ps) :
    (getLog s tag).outside ps = s.outside ps := by
  unfold getLog
  repeat' first
    | (simp [h_cmds, h_returns, h_free]; done)
    | (rw [outside_foldl])
    | (intro _)
    | simp [h_cmds, h_returns, h_free]
    | split

@[simp] theorem logBoundary_outside {ps : List Part} (s : State) (h_cmds : .cmds ∈ ps) (h_returns : .returns ∈ ps) (h_free : .free ∈ ps) :
    (logBoundary s).outside ps = s.outside ps := by
  unfold logBoundary
  repeat' first
    | (simp [h_cmds, h_returns, h_free]; done)
    | (rw [outside_foldl])
    | (intro _)
    | simp [h_cmds, h_returns, h_free]
    | split

@[simp] theorem getFeature_outside {ps : List Part} (s : State) (tag : Nat) (h_cmds : .cmds ∈ ps) (h_returns : .returns ∈ ps) :
    (getFeature s tag).outside ps = s.outside ps := by
  unfold getFeature
  repeat' first
    | (simp [h_cmds, h_returns]; done)
    | (rw [outside_foldl])
    | (intro _)
    | simp [h_cmds, h_returns]
    | split

@[simp] theorem setFeature_outside {ps : List Part} (s : State) (tag : Nat) (h_cmds : .cmds ∈ ps) (h_returns : .returns ∈ ps) (h_feats : .feats ∈ ps) :
    (setFeature s tag).outside ps = s.outside ps := by
  unfold setFeature
  repeat' first
    | (simp [h_cmds, h_returns, h_feats]; done)
    | (rw [outside_foldl])
    | (intro _)
    | simp [h_cmds, h_returns, h_feats]
    | split

@[simp] theorem putFeature_outside {ps : List Part} (s : State) (id : Nat) (v : Nat) (h_feats : .feats ∈ ps) :
    (putFeature s id v).outside ps = s.outside ps := by
  unfold putFeature
  repeat' first
    | (simp [h_feats]; done)
    | (rw [outside_foldl])
    | (intro _)
    | simp [h_feats]
    | split

@[simp] theorem featureBoundary_outside {ps : List Part} (s : State) (h_cmds : .cmds ∈ ps) (h_feats : .feats ∈ ps) :
    (featureBoundary s).outside ps = s.outside ps := by
  unfold featureBoundary
  repeat' first
    | (simp [h_cmds, h_feats]; done)
    | (rw [outside_foldl])
    | (intro _)
    | simp [h_cmds, h_feats]
    | split

@[simp] theorem setDl_outside {ps : List Part} (s : State) (kind : Nat) (d : Download) (h_flash : .flash ∈ ps) :
    (setDl s kind d).outside ps = s.outside ps := by
  unfold setDl
  repeat' first
    | (simp [h_flash]; done)
    | (rw [outside_foldl])
    | (intro _)
    | simp [h_flash]
    | split

@[simp] theorem flashWrite_outside {ps : List Part} (s : State) (a : Nat) (bs : List Byte) (good : Bool) (h_flash : .flash ∈ ps) (h_free : .free ∈ ps) :
    (flashWrite s a bs good).outside ps = s.outside ps := by
  unfold flashWrite
  repeat' first
    | (simp [h_flash, h_free]; done)
    | (rw [outside_foldl])
    | (intro _)
    | simp [h_flash, h_free]
    | split

@[simp] theorem flashEraseArea_outside {ps : List Part} (s : State) (a : Nat) (len : Nat) (h_flash : .flash ∈ ps) :
    (flashEraseArea s a len).outside ps = s.outside ps := by
  unfold flashEraseArea
  repeat' first
    | (simp [h_flash]; done)
    | (rw [outside_foldl])
    | (intro _)
    | simp [h_flash]
    | split

@[simp] theorem imageRecord_outside {ps : List Part} (s : State) (cause : Nat) (kind : Nat) (code : Nat) (seq : Nat) (h_daybook : .daybook ∈ ps) :
    (imageRecord s cause kind code seq).outside ps = s.outside ps := by
  unfold imageRecord
  repeat' first
    | (simp [h_daybook]; done)
    | (rw [outside_foldl])
    | (intro _)
    | simp [h_daybook]
    | split

@[simp] theorem dlFails_outside {ps : List Part} (s : State) (kind : Nat) (code : Nat) (seq : Nat) (h_flash : .flash ∈ ps) (h_daybook : .daybook ∈ ps) :
    (dlFails s kind code seq).outside ps = s.outside ps := by
  unfold dlFails
  repeat' first
    | (simp [h_flash, h_daybook]; done)
    | (rw [outside_foldl])
    | (intro _)
    | simp [h_flash, h_daybook]
    | split

@[simp] theorem imageEnd_outside {ps : List Part} (s : State) (tag : Nat) (kind : Nat) (upTo : Nat) (h_flash : .flash ∈ ps) (h_cmds : .cmds ∈ ps) (h_daybook : .daybook ∈ ps) :
    (imageEnd s tag kind upTo).outside ps = s.outside ps := by
  unfold imageEnd
  repeat' first
    | (simp [h_flash, h_cmds, h_daybook]; done)
    | (rw [outside_foldl])
    | (intro _)
    | simp [h_flash, h_cmds, h_daybook]
    | split

@[simp] theorem programPiece_outside {ps : List Part} (s : State) (c : Cmd) (good : Bool) (h_flash : .flash ∈ ps) (h_cmds : .cmds ∈ ps) (h_daybook : .daybook ∈ ps) (h_free : .free ∈ ps) :
    (programPiece s c good).outside ps = s.outside ps := by
  unfold programPiece
  repeat' first
    | (simp [h_flash, h_cmds, h_daybook, h_free]; done)
    | (rw [outside_foldl])
    | (intro _)
    | simp [h_flash, h_cmds, h_daybook, h_free]
    | split

@[simp] theorem fwDownload_outside {ps : List Part} (s : State) (tag : Nat) (good : Bool) (h_flash : .flash ∈ ps) (h_cmds : .cmds ∈ ps) (h_returns : .returns ∈ ps) (h_daybook : .daybook ∈ ps) (h_free : .free ∈ ps) :
    (fwDownload s tag good).outside ps = s.outside ps := by
  unfold fwDownload
  repeat' first
    | (simp [h_flash, h_cmds, h_returns, h_daybook, h_free]; done)
    | (rw [outside_foldl])
    | (intro _)
    | simp [h_flash, h_cmds, h_returns, h_daybook, h_free]
    | split

@[simp] theorem fwCommit_outside {ps : List Part} (s : State) (tag : Nat) (good : Bool) (h_flash : .flash ∈ ps) (h_cmds : .cmds ∈ ps) (h_returns : .returns ∈ ps) (h_daybook : .daybook ∈ ps) (h_free : .free ∈ ps) :
    (fwCommit s tag good).outside ps = s.outside ps := by
  unfold fwCommit
  repeat' first
    | (simp [h_flash, h_cmds, h_returns, h_daybook, h_free]; done)
    | (rw [outside_foldl])
    | (intro _)
    | simp [h_flash, h_cmds, h_returns, h_daybook, h_free]
    | split

@[simp] theorem fwAbandon_outside {ps : List Part} (s : State) (tag : Nat) (good : Bool) (h_flash : .flash ∈ ps) (h_cmds : .cmds ∈ ps) (h_returns : .returns ∈ ps) (h_daybook : .daybook ∈ ps) (h_free : .free ∈ ps) :
    (fwAbandon s tag good).outside ps = s.outside ps := by
  unfold fwAbandon
  repeat' first
    | (simp [h_flash, h_cmds, h_returns, h_daybook, h_free]; done)
    | (rw [outside_foldl])
    | (intro _)
    | simp [h_flash, h_cmds, h_returns, h_daybook, h_free]
    | split

@[simp] theorem timeMark_outside {ps : List Part} (s : State) (c : Cmd) (h_cmds : .cmds ∈ ps) (h_ints : .ints ∈ ps) (h_link : .link ∈ ps) (h_daybook : .daybook ∈ ps) (h_hostMem : .hostMem ∈ ps) :
    (timeMark s c).outside ps = s.outside ps := by
  unfold timeMark
  repeat' first
    | (simp [h_cmds, h_ints, h_link, h_daybook, h_hostMem]; done)
    | (rw [outside_foldl])
    | (intro _)
    | simp [h_cmds, h_ints, h_link, h_daybook, h_hostMem]
    | split

@[simp] theorem vaultRecord_outside {ps : List Part} (s : State) (c : Cmd) (body : Cells) (len : Nat) (span : Option (Nat × Nat)) (e : VaultEffect) (h_ledger : .ledger ∈ ps) (h_cmds : .cmds ∈ ps) (h_vaults : .vaults ∈ ps) (h_chain : .chain ∈ ps) :
    (vaultRecord s c body len span e).outside ps = s.outside ps := by
  unfold vaultRecord
  repeat' first
    | (simp [h_ledger, h_cmds, h_vaults, h_chain]; done)
    | (rw [outside_foldl])
    | (intro _)
    | simp [h_ledger, h_cmds, h_vaults, h_chain]
    | split
  all_goals
    have e := congrArg (fun p => State.outside ps p.1) ‹_ = (_, _)›
    simp [h_ledger, h_cmds, h_vaults, h_chain] at e
    simp [h_ledger, h_cmds, h_vaults, h_chain, e]

@[simp] theorem indexRecord_outside {ps : List Part} (s : State) (c : Cmd) (table : Cells) (len : Nat) (span : Option (Nat × Nat)) (e : VaultEffect) (h_ledger : .ledger ∈ ps) (h_cmds : .cmds ∈ ps) (h_vaults : .vaults ∈ ps) (h_chain : .chain ∈ ps) :
    (indexRecord s c table len span e).outside ps = s.outside ps := by
  unfold indexRecord
  repeat' first
    | (simp [h_ledger, h_cmds, h_vaults, h_chain]; done)
    | (rw [outside_foldl])
    | (intro _)
    | simp [h_ledger, h_cmds, h_vaults, h_chain]
    | split

@[simp] theorem indexChange_outside {ps : List Part} (s : State) (c : Cmd) (go : State → State) (hgo : ∀ t : State, (go t).outside ps = t.outside ps) (h_ledger : .ledger ∈ ps) (h_bands : .bands ∈ ps) (h_cmds : .cmds ∈ ps) (h_returns : .returns ∈ ps) (h_chain : .chain ∈ ps) :
    (indexChange s c go).outside ps = s.outside ps := by
  unfold indexChange
  split
  · simp [h_ledger, h_bands, h_cmds, h_returns, h_chain]
  · rename_i h
    rw [hgo]
    exact allocRange_outside _ _ _ _ h_ledger h_bands h_chain h

@[simp] theorem landed_outside {ps : List Part} (s : State) (tag : Nat) (status : Nat) (detail : Nat) (result : List Byte) (h_cmds : .cmds ∈ ps) :
    (landed s tag status detail result).outside ps = s.outside ps := by
  unfold landed
  repeat' first
    | (simp [h_cmds]; done)
    | (rw [outside_foldl])
    | (intro _)
    | simp [h_cmds]
    | split

@[simp] theorem landOpen_outside {ps : List Part} (s : State) (tag : Nat) (x : Session) (h_cmds : .cmds ∈ ps) (h_vaults : .vaults ∈ ps) :
    (landOpen s tag x).outside ps = s.outside ps := by
  unfold landOpen
  repeat' first
    | (simp [h_cmds, h_vaults]; done)
    | (rw [outside_foldl])
    | (intro _)
    | simp [h_cmds, h_vaults]
    | split

@[simp] theorem dropSession_outside {ps : List Part} (s : State) (n : Nat) (h_vaults : .vaults ∈ ps) :
    (dropSession s n).outside ps = s.outside ps := by
  unfold dropSession
  repeat' first
    | (simp [h_vaults]; done)
    | (rw [outside_foldl])
    | (intro _)
    | simp [h_vaults]
    | split

@[simp] theorem landData_outside {ps : List Part} (s : State) (tag : Nat) (n : Nat) (upTo : Nat) (bytes : Cells) (h_cmds : .cmds ∈ ps) (h_vaults : .vaults ∈ ps) :
    (landData s tag n upTo bytes).outside ps = s.outside ps := by
  unfold landData
  repeat' first
    | (simp [h_cmds, h_vaults]; done)
    | (rw [outside_foldl])
    | (intro _)
    | simp [h_cmds, h_vaults]
    | split

@[simp] theorem removeObj_outside {ps : List Part} (s : State) (v : Nat) (k : Key) (h_vaults : .vaults ∈ ps) :
    (removeObj s v k).outside ps = s.outside ps := by
  unfold removeObj
  repeat' first
    | (simp [h_vaults]; done)
    | (rw [outside_foldl])
    | (intro _)
    | simp [h_vaults]
    | split

@[simp] theorem landStore_outside {ps : List Part} (s : State) (tag : Nat) (n : Nat) (o : Object) (h_cmds : .cmds ∈ ps) (h_vaults : .vaults ∈ ps) :
    (landStore s tag n o).outside ps = s.outside ps := by
  unfold landStore
  repeat' first
    | (simp [h_cmds, h_vaults]; done)
    | (rw [outside_foldl])
    | (intro _)
    | simp [h_cmds, h_vaults]
    | split

@[simp] theorem landSeal_outside {ps : List Part} (s : State) (tag : Nat) (v : Nat) (k : Key) (period : Nat) (wall : Nat) (h_cmds : .cmds ∈ ps) (h_vaults : .vaults ∈ ps) :
    (landSeal s tag v k period wall).outside ps = s.outside ps := by
  unfold landSeal
  repeat' first
    | (simp [h_cmds, h_vaults]; done)
    | (rw [outside_foldl])
    | (intro _)
    | simp [h_cmds, h_vaults]
    | split

@[simp] theorem landRemove_outside {ps : List Part} (s : State) (tag : Nat) (v : Nat) (k : Key) (h_cmds : .cmds ∈ ps) (h_vaults : .vaults ∈ ps) :
    (landRemove s tag v k).outside ps = s.outside ps := by
  unfold landRemove
  repeat' first
    | (simp [h_cmds, h_vaults]; done)
    | (rw [outside_foldl])
    | (intro _)
    | simp [h_cmds, h_vaults]
    | split

@[simp] theorem landEffect_outside {ps : List Part} (s : State) (tag : Nat) (e : VaultEffect) (h_cmds : .cmds ∈ ps) (h_vaults : .vaults ∈ ps) :
    (landEffect s tag e).outside ps = s.outside ps := by
  unfold landEffect
  repeat' first
    | (simp [h_cmds, h_vaults]; done)
    | (rw [outside_foldl])
    | (intro _)
    | simp [h_cmds, h_vaults]
    | split

@[simp] theorem recordLosses_outside {ps : List Part} (s : State) (v : Nat) (finds : List (List Nat)) (h_degrade : .degrade ∈ ps) (h_daybook : .daybook ∈ ps) :
    (recordLosses s v finds).outside ps = s.outside ps := by
  unfold recordLosses
  repeat' first
    | (simp [h_degrade, h_daybook]; done)
    | (rw [outside_foldl])
    | (intro _)
    | simp [h_degrade, h_daybook]
    | split
  all_goals
    have e := congrArg (fun p => State.outside ps p.1) ‹_ = (_, _)›
    simp [h_degrade, h_daybook] at e
    simp [h_degrade, h_daybook, e]

@[simp] theorem rewriteSources_outside {ps : List Part} (s : State) (v : Nat) (o : Object) (needs : List Need) (h_ledger : .ledger ∈ ps) (h_plans : .plans ∈ ps) (h_works : .works ∈ ps) (h_nextWork : .nextWork ∈ ps) (h_holds : .holds ∈ ps) (h_drives : .drives ∈ ps) (h_gov : .gov ∈ ps) (h_degrade : .degrade ∈ ps) (h_daybook : .daybook ∈ ps) :
    (rewriteSources s v o needs).outside ps = s.outside ps := by
  unfold rewriteSources
  repeat' first
    | (simp [h_ledger, h_plans, h_works, h_nextWork, h_holds, h_drives, h_gov, h_degrade, h_daybook]; done)
    | (rw [outside_foldl])
    | (intro _)
    | simp [h_ledger, h_plans, h_works, h_nextWork, h_holds, h_drives, h_gov, h_degrade, h_daybook]
    | split

@[simp] theorem readObject_outside {ps : List Part} (s : State) (c : Cmd) (o : Object) (blocks : List Nat) (h_ledger : .ledger ∈ ps) (h_plans : .plans ∈ ps) (h_works : .works ∈ ps) (h_nextWork : .nextWork ∈ ps) (h_holds : .holds ∈ ps) (h_drives : .drives ∈ ps) (h_gov : .gov ∈ ps) (h_degrade : .degrade ∈ ps) (h_cmds : .cmds ∈ ps) (h_returns : .returns ∈ ps) (h_power : .power ∈ ps) (h_vaults : .vaults ∈ ps) (h_daybook : .daybook ∈ ps) (h_cache : .cache ∈ ps) :
    (readObject s c o blocks).outside ps = s.outside ps := by
  unfold readObject
  repeat' first
    | (simp [h_ledger, h_plans, h_works, h_nextWork, h_holds, h_drives, h_gov, h_degrade, h_cmds, h_returns, h_power, h_vaults, h_daybook, h_cache]; done)
    | (rw [outside_foldl])
    | (intro _)
    | simp [h_ledger, h_plans, h_works, h_nextWork, h_holds, h_drives, h_gov, h_degrade, h_cmds, h_returns, h_power, h_vaults, h_daybook, h_cache]
    | split

@[simp] theorem listRow_outside {ps : List Part} (s : State) (c : Cmd) (h_cmds : .cmds ∈ ps) (h_returns : .returns ∈ ps) :
    (listRow s c).outside ps = s.outside ps := by
  unfold listRow
  repeat' first
    | (simp [h_cmds, h_returns]; done)
    | (rw [outside_foldl])
    | (intro _)
    | simp [h_cmds, h_returns]
    | split

@[simp] theorem vaultReader_outside {ps : List Part} (s : State) (opcode : Nat) (tag : Nat) (h_ledger : .ledger ∈ ps) (h_plans : .plans ∈ ps) (h_works : .works ∈ ps) (h_nextWork : .nextWork ∈ ps) (h_holds : .holds ∈ ps) (h_drives : .drives ∈ ps) (h_gov : .gov ∈ ps) (h_degrade : .degrade ∈ ps) (h_cmds : .cmds ∈ ps) (h_returns : .returns ∈ ps) (h_power : .power ∈ ps) (h_vaults : .vaults ∈ ps) (h_daybook : .daybook ∈ ps) (h_cache : .cache ∈ ps) :
    (vaultReader s opcode tag).outside ps = s.outside ps := by
  unfold vaultReader
  repeat' first
    | (simp [h_ledger, h_plans, h_works, h_nextWork, h_holds, h_drives, h_gov, h_degrade, h_cmds, h_returns, h_power, h_vaults, h_daybook, h_cache]; done)
    | (rw [outside_foldl])
    | (intro _)
    | simp [h_ledger, h_plans, h_works, h_nextWork, h_holds, h_drives, h_gov, h_degrade, h_cmds, h_returns, h_power, h_vaults, h_daybook, h_cache]
    | split

@[simp] theorem readersBefore_outside {ps : List Part} (s : State) (p : Pos) (h_ledger : .ledger ∈ ps) (h_plans : .plans ∈ ps) (h_works : .works ∈ ps) (h_nextWork : .nextWork ∈ ps) (h_holds : .holds ∈ ps) (h_drives : .drives ∈ ps) (h_gov : .gov ∈ ps) (h_degrade : .degrade ∈ ps) (h_cmds : .cmds ∈ ps) (h_returns : .returns ∈ ps) (h_power : .power ∈ ps) (h_vaults : .vaults ∈ ps) (h_daybook : .daybook ∈ ps) (h_cache : .cache ∈ ps) :
    (readersBefore s p).outside ps = s.outside ps := by
  unfold readersBefore
  repeat' first
    | (simp [h_ledger, h_plans, h_works, h_nextWork, h_holds, h_drives, h_gov, h_degrade, h_cmds, h_returns, h_power, h_vaults, h_daybook, h_cache]; done)
    | (rw [outside_foldl])
    | (intro _)
    | simp [h_ledger, h_plans, h_works, h_nextWork, h_holds, h_drives, h_gov, h_degrade, h_cmds, h_returns, h_power, h_vaults, h_daybook, h_cache]
    | split

@[simp] theorem vaultLand_outside {ps : List Part} (s : State) (seq : Nat) (h_ledger : .ledger ∈ ps) (h_plans : .plans ∈ ps) (h_works : .works ∈ ps) (h_nextWork : .nextWork ∈ ps) (h_holds : .holds ∈ ps) (h_drives : .drives ∈ ps) (h_gov : .gov ∈ ps) (h_degrade : .degrade ∈ ps) (h_cmds : .cmds ∈ ps) (h_returns : .returns ∈ ps) (h_power : .power ∈ ps) (h_vaults : .vaults ∈ ps) (h_daybook : .daybook ∈ ps) (h_cache : .cache ∈ ps) :
    (vaultLand s seq).outside ps = s.outside ps := by
  unfold vaultLand
  repeat' first
    | (simp [h_ledger, h_plans, h_works, h_nextWork, h_holds, h_drives, h_gov, h_degrade, h_cmds, h_returns, h_power, h_vaults, h_daybook, h_cache]; done)
    | (rw [outside_foldl])
    | (intro _)
    | simp [h_ledger, h_plans, h_works, h_nextWork, h_holds, h_drives, h_gov, h_degrade, h_cmds, h_returns, h_power, h_vaults, h_daybook, h_cache]
    | split

@[simp] theorem resumeVault_outside {ps : List Part} (s : State) (h_ledger : .ledger ∈ ps) (h_plans : .plans ∈ ps) (h_works : .works ∈ ps) (h_nextWork : .nextWork ∈ ps) (h_holds : .holds ∈ ps) (h_drives : .drives ∈ ps) (h_gov : .gov ∈ ps) (h_degrade : .degrade ∈ ps) (h_cmds : .cmds ∈ ps) (h_returns : .returns ∈ ps) (h_power : .power ∈ ps) (h_vaults : .vaults ∈ ps) (h_daybook : .daybook ∈ ps) (h_cache : .cache ∈ ps) :
    (resumeVault s).outside ps = s.outside ps := by
  unfold resumeVault
  repeat' first
    | (simp [h_ledger, h_plans, h_works, h_nextWork, h_holds, h_drives, h_gov, h_degrade, h_cmds, h_returns, h_power, h_vaults, h_daybook, h_cache]; done)
    | (rw [outside_foldl])
    | (intro _)
    | simp [h_ledger, h_plans, h_works, h_nextWork, h_holds, h_drives, h_gov, h_degrade, h_cmds, h_returns, h_power, h_vaults, h_daybook, h_cache]
    | split

@[simp] theorem putBegin_outside {ps : List Part} (s : State) (tag : Nat) (h_ledger : .ledger ∈ ps) (h_cmds : .cmds ∈ ps) (h_vaults : .vaults ∈ ps) (h_chain : .chain ∈ ps) :
    (putBegin s tag).outside ps = s.outside ps := by
  unfold putBegin
  repeat' first
    | (simp [h_ledger, h_cmds, h_vaults, h_chain]; done)
    | (rw [outside_foldl])
    | (intro _)
    | simp [h_ledger, h_cmds, h_vaults, h_chain]
    | split

@[simp] theorem dataFails_outside {ps : List Part} (s : State) (c : Cmd) (status : Nat) (detail : Nat) (received : Nat) (h_ledger : .ledger ∈ ps) (h_cmds : .cmds ∈ ps) (h_returns : .returns ∈ ps) :
    (dataFails s c status detail received).outside ps = s.outside ps := by
  unfold dataFails
  repeat' first
    | (simp [h_ledger, h_cmds, h_returns]; done)
    | (rw [outside_foldl])
    | (intro _)
    | simp [h_ledger, h_cmds, h_returns]
    | split

@[simp] theorem dataPasses_outside {ps : List Part} (s : State) (c : Cmd) (x : Session) (h_ledger : .ledger ∈ ps) (h_bands : .bands ∈ ps) (h_cmds : .cmds ∈ ps) (h_returns : .returns ∈ ps) (h_vaults : .vaults ∈ ps) (h_chain : .chain ∈ ps) (h_free : .free ∈ ps) :
    (dataPasses s c x).outside ps = s.outside ps := by
  unfold dataPasses
  split
  · rfl
  · simp [h_ledger, h_bands, h_cmds, h_returns, h_vaults, h_chain, h_free]
  · rename_i h
    have e := allocRange_outside _ _ _ _ h_ledger h_bands h_chain h
    simp [h_ledger, h_bands, h_cmds, h_returns, h_vaults, h_chain, h_free, e]

@[simp] theorem putData_outside {ps : List Part} (s : State) (tag : Nat) (h_ledger : .ledger ∈ ps) (h_bands : .bands ∈ ps) (h_cmds : .cmds ∈ ps) (h_returns : .returns ∈ ps) (h_vaults : .vaults ∈ ps) (h_chain : .chain ∈ ps) (h_free : .free ∈ ps) :
    (putData s tag).outside ps = s.outside ps := by
  unfold putData
  repeat' first
    | (simp [h_ledger, h_bands, h_cmds, h_returns, h_vaults, h_chain, h_free]; done)
    | (rw [outside_foldl])
    | (intro _)
    | simp [h_ledger, h_bands, h_cmds, h_returns, h_vaults, h_chain, h_free]
    | split

@[simp] theorem storeTable_outside {ps : List Part} (s : State) (c : Cmd) (x : Session) (t : Nat) (at' : Nat) (h_ledger : .ledger ∈ ps) (h_bands : .bands ∈ ps) (h_cmds : .cmds ∈ ps) (h_returns : .returns ∈ ps) (h_vaults : .vaults ∈ ps) (h_chain : .chain ∈ ps) :
    (storeTable s c x t at').outside ps = s.outside ps := by
  have key : ∀ (c : Prop) [Decidable c] (v lba n : Nat) (t : State), (if c then some s else allocRange s v lba n) = some t → t.outside ps = s.outside ps := by
    intro c _ v lba n t h
    split at h
    · cases h; rfl
    · exact allocRange_outside s v lba n h_ledger h_bands h_chain h
  unfold storeTable
  split
  · simp [h_ledger, h_bands, h_cmds, h_returns, h_vaults, h_chain]
  · rename_i h
    have e := key _ _ _ _ _ h
    split <;> simp [h_ledger, h_bands, h_cmds, h_returns, h_vaults, h_chain, e]

@[simp] theorem storeRecord_outside {ps : List Part} (s : State) (c : Cmd) (x : Session) (h_ledger : .ledger ∈ ps) (h_bands : .bands ∈ ps) (h_cmds : .cmds ∈ ps) (h_returns : .returns ∈ ps) (h_vaults : .vaults ∈ ps) (h_chain : .chain ∈ ps) :
    (storeRecord s c x).outside ps = s.outside ps := by
  exact storeTable_outside s c x _ _ h_ledger h_bands h_cmds h_returns h_vaults h_chain

@[simp] theorem putEnd_outside {ps : List Part} (s : State) (tag : Nat) (h_ledger : .ledger ∈ ps) (h_bands : .bands ∈ ps) (h_cmds : .cmds ∈ ps) (h_returns : .returns ∈ ps) (h_vaults : .vaults ∈ ps) (h_chain : .chain ∈ ps) :
    (putEnd s tag).outside ps = s.outside ps := by
  unfold putEnd
  repeat' first
    | (simp [h_ledger, h_bands, h_cmds, h_returns, h_vaults, h_chain]; done)
    | (rw [outside_foldl])
    | (intro _)
    | simp [h_ledger, h_bands, h_cmds, h_returns, h_vaults, h_chain]
    | split

@[simp] theorem sealRow'_outside {ps : List Part} (s : State) (tag : Nat) (h_ledger : .ledger ∈ ps) (h_bands : .bands ∈ ps) (h_cmds : .cmds ∈ ps) (h_returns : .returns ∈ ps) (h_vaults : .vaults ∈ ps) (h_chain : .chain ∈ ps) :
    (sealRow' s tag).outside ps = s.outside ps := by
  unfold sealRow'
  repeat' first
    | (simp [h_ledger, h_bands, h_cmds, h_returns, h_vaults, h_chain]; done)
    | (rw [outside_foldl])
    | (intro _)
    | simp [h_ledger, h_bands, h_cmds, h_returns, h_vaults, h_chain]
    | split

@[simp] theorem deleteRow_outside {ps : List Part} (s : State) (tag : Nat) (h_ledger : .ledger ∈ ps) (h_bands : .bands ∈ ps) (h_cmds : .cmds ∈ ps) (h_returns : .returns ∈ ps) (h_vaults : .vaults ∈ ps) (h_chain : .chain ∈ ps) :
    (deleteRow s tag).outside ps = s.outside ps := by
  unfold deleteRow
  repeat' first
    | (simp [h_ledger, h_bands, h_cmds, h_returns, h_vaults, h_chain]; done)
    | (rw [outside_foldl])
    | (intro _)
    | simp [h_ledger, h_bands, h_cmds, h_returns, h_vaults, h_chain]
    | split

@[simp] theorem jobOver_outside {ps : List Part} (s : State) (v : Nat) (o : Object) (second : Bool) (src : List (Nat × Source)) (h_ledger : .ledger ∈ ps) (h_plans : .plans ∈ ps) (h_works : .works ∈ ps) (h_nextWork : .nextWork ∈ ps) (h_holds : .holds ∈ ps) (h_drives : .drives ∈ ps) (h_gov : .gov ∈ ps) (h_degrade : .degrade ∈ ps) (h_vaults : .vaults ∈ ps) (h_daybook : .daybook ∈ ps) :
    (jobOver s v o second src).outside ps = s.outside ps := by
  unfold jobOver
  repeat' first
    | (simp [h_ledger, h_plans, h_works, h_nextWork, h_holds, h_drives, h_gov, h_degrade, h_vaults, h_daybook]; done)
    | (rw [outside_foldl])
    | (intro _)
    | simp [h_ledger, h_plans, h_works, h_nextWork, h_holds, h_drives, h_gov, h_degrade, h_vaults, h_daybook]
    | split

@[simp] theorem startJob_outside {ps : List Part} (s : State) (v : Nat) (o : Object) (second : Bool) (h_ledger : .ledger ∈ ps) (h_plans : .plans ∈ ps) (h_works : .works ∈ ps) (h_nextWork : .nextWork ∈ ps) (h_holds : .holds ∈ ps) (h_drives : .drives ∈ ps) (h_gov : .gov ∈ ps) (h_degrade : .degrade ∈ ps) (h_vaults : .vaults ∈ ps) (h_daybook : .daybook ∈ ps) :
    (startJob s v o second).outside ps = s.outside ps := by
  exact jobOver_outside s v o second _ h_ledger h_plans h_works h_nextWork h_holds h_drives h_gov h_degrade h_vaults h_daybook

@[simp] theorem jobsBoundary_outside {ps : List Part} (s : State) (h_ledger : .ledger ∈ ps) (h_plans : .plans ∈ ps) (h_works : .works ∈ ps) (h_nextWork : .nextWork ∈ ps) (h_holds : .holds ∈ ps) (h_drives : .drives ∈ ps) (h_gov : .gov ∈ ps) (h_degrade : .degrade ∈ ps) (h_cmds : .cmds ∈ ps) (h_returns : .returns ∈ ps) (h_power : .power ∈ ps) (h_vaults : .vaults ∈ ps) (h_daybook : .daybook ∈ ps) (h_cache : .cache ∈ ps) :
    (jobsBoundary s).outside ps = s.outside ps := by
  unfold jobsBoundary
  repeat' first
    | (simp [h_ledger, h_plans, h_works, h_nextWork, h_holds, h_drives, h_gov, h_degrade, h_cmds, h_returns, h_power, h_vaults, h_daybook, h_cache]; done)
    | (rw [outside_foldl])
    | (intro _)
    | simp [h_ledger, h_plans, h_works, h_nextWork, h_holds, h_drives, h_gov, h_degrade, h_cmds, h_returns, h_power, h_vaults, h_daybook, h_cache]
    | split

@[simp] theorem backgroundAudit_outside {ps : List Part} (s : State) (v : Nat) (h_ledger : .ledger ∈ ps) (h_plans : .plans ∈ ps) (h_works : .works ∈ ps) (h_nextWork : .nextWork ∈ ps) (h_holds : .holds ∈ ps) (h_drives : .drives ∈ ps) (h_gov : .gov ∈ ps) (h_degrade : .degrade ∈ ps) (h_cmds : .cmds ∈ ps) (h_returns : .returns ∈ ps) (h_power : .power ∈ ps) (h_vaults : .vaults ∈ ps) (h_daybook : .daybook ∈ ps) (h_cache : .cache ∈ ps) :
    (backgroundAudit s v).outside ps = s.outside ps := by
  unfold backgroundAudit
  repeat' first
    | (simp [h_ledger, h_plans, h_works, h_nextWork, h_holds, h_drives, h_gov, h_degrade, h_cmds, h_returns, h_power, h_vaults, h_daybook, h_cache]; done)
    | (rw [outside_foldl])
    | (intro _)
    | simp [h_ledger, h_plans, h_works, h_nextWork, h_holds, h_drives, h_gov, h_degrade, h_cmds, h_returns, h_power, h_vaults, h_daybook, h_cache]
    | split

@[simp] theorem digestRepair_outside {ps : List Part} (s : State) (v : Nat) (k : Key) (h_ledger : .ledger ∈ ps) (h_plans : .plans ∈ ps) (h_works : .works ∈ ps) (h_nextWork : .nextWork ∈ ps) (h_holds : .holds ∈ ps) (h_drives : .drives ∈ ps) (h_gov : .gov ∈ ps) (h_degrade : .degrade ∈ ps) (h_cmds : .cmds ∈ ps) (h_returns : .returns ∈ ps) (h_power : .power ∈ ps) (h_vaults : .vaults ∈ ps) (h_daybook : .daybook ∈ ps) (h_cache : .cache ∈ ps) :
    (digestRepair s v k).outside ps = s.outside ps := by
  unfold digestRepair
  repeat' first
    | (simp [h_ledger, h_plans, h_works, h_nextWork, h_holds, h_drives, h_gov, h_degrade, h_cmds, h_returns, h_power, h_vaults, h_daybook, h_cache]; done)
    | (rw [outside_foldl])
    | (intro _)
    | simp [h_ledger, h_plans, h_works, h_nextWork, h_holds, h_drives, h_gov, h_degrade, h_cmds, h_returns, h_power, h_vaults, h_daybook, h_cache]
    | split

@[simp] theorem writeSuper_outside {ps : List Part} (s : State) (v : Nat) (h_vaults : .vaults ∈ ps) :
    (writeSuper s v).outside ps = s.outside ps := by
  unfold writeSuper
  repeat' first
    | (simp [h_vaults]; done)
    | (rw [outside_foldl])
    | (intro _)
    | simp [h_vaults]
    | split

@[simp] theorem vaultTick_outside {ps : List Part} (s : State) (v : Nat) (h_vaults : .vaults ∈ ps) :
    (vaultTick s v).outside ps = s.outside ps := by
  unfold vaultTick
  repeat' first
    | (simp [h_vaults]; done)
    | (rw [outside_foldl])
    | (intro _)
    | simp [h_vaults]
    | split

@[simp] theorem walkEnd_outside {ps : List Part} (s : State) (v : Nat) (good : List Nat) (h_vols : .vols ∈ ps) (h_ints : .ints ∈ ps) (h_link : .link ∈ ps) (h_vaults : .vaults ∈ ps) (h_daybook : .daybook ∈ ps) (h_hostMem : .hostMem ∈ ps) :
    (walkEnd s v good).outside ps = s.outside ps := by
  unfold walkEnd
  repeat' first
    | (simp [h_vols, h_ints, h_link, h_vaults, h_daybook, h_hostMem]; done)
    | (rw [outside_foldl])
    | (intro _)
    | simp [h_vols, h_ints, h_link, h_vaults, h_daybook, h_hostMem]
    | split

@[simp] theorem vaultReset_outside {ps : List Part} (s : State) (c : Cmd) (h_vaults : .vaults ∈ ps) :
    (vaultReset s c).outside ps = s.outside ps := by
  unfold vaultReset
  repeat' first
    | (simp [h_vaults]; done)
    | (rw [outside_foldl])
    | (intro _)
    | simp [h_vaults]
    | split

@[simp] theorem abandonEntry_outside {ps : List Part} (s : State) (h_power : .power ∈ ps) (h_daybook : .daybook ∈ ps) :
    (abandonEntry s).outside ps = s.outside ps := by
  unfold abandonEntry
  repeat' first
    | (simp [h_power, h_daybook]; done)
    | (rw [outside_foldl])
    | (intro _)
    | simp [h_power, h_daybook]
    | split

@[simp] theorem reshapeFate_outside {ps : List Part} (s : State) (c : Cmd) (h_reshapes : .reshapes ∈ ps) :
    (reshapeFate s c).1.outside ps = s.outside ps := by
  unfold reshapeFate
  repeat' first
    | (simp [h_reshapes]; done)
    | (rw [outside_foldl])
    | (intro _)
    | simp [h_reshapes]
    | split

@[simp] theorem windowFate_outside {ps : List Part} (s : State) (c : Cmd) (h_gov : .gov ∈ ps) (h_cmds : .cmds ∈ ps) :
    (windowFate s c).1.outside ps = s.outside ps := by
  unfold windowFate
  repeat' first
    | (simp [h_gov, h_cmds]; done)
    | (rw [outside_foldl])
    | (intro _)
    | simp [h_gov, h_cmds]
    | split

@[simp] theorem fateOf_outside {ps : List Part} (s : State) (c : Cmd) (h_gov : .gov ∈ ps) (h_reshapes : .reshapes ∈ ps) (h_cmds : .cmds ∈ ps) (h_ints : .ints ∈ ps) (h_link : .link ∈ ps) (h_power : .power ∈ ps) (h_vaults : .vaults ∈ ps) (h_daybook : .daybook ∈ ps) (h_hostMem : .hostMem ∈ ps) :
    (fateOf s c).1.outside ps = s.outside ps := by
  unfold fateOf
  repeat' first
    | (simp [h_gov, h_reshapes, h_cmds, h_ints, h_link, h_power, h_vaults, h_daybook, h_hostMem]; done)
    | (rw [outside_foldl])
    | (intro _)
    | simp [h_gov, h_reshapes, h_cmds, h_ints, h_link, h_power, h_vaults, h_daybook, h_hostMem]
    | split
  all_goals
    have e := congrArg (fun p => State.outside ps p.1) ‹_ = (_, _)›
    simp [h_gov, h_reshapes, h_cmds, h_ints, h_link, h_power, h_vaults, h_daybook, h_hostMem] at e
    simp [h_gov, h_reshapes, h_cmds, h_ints, h_link, h_power, h_vaults, h_daybook, h_hostMem, e]

@[simp] theorem forget_outside {ps : List Part} (s : State) (c : Cmd) (h_ledger : .ledger ∈ ps) (h_drives : .drives ∈ ps) (h_gov : .gov ∈ ps) (h_cmds : .cmds ∈ ps) (h_returns : .returns ∈ ps) (h_pair : .pair ∈ ps) :
    (forget s c).outside ps = s.outside ps := by
  unfold forget
  repeat' first
    | (simp [h_ledger, h_drives, h_gov, h_cmds, h_returns, h_pair]; done)
    | (rw [outside_foldl])
    | (intro _)
    | simp [h_ledger, h_drives, h_gov, h_cmds, h_returns, h_pair]
    | split

@[simp] theorem coverReset_outside {ps : List Part} (s : State) (covers : Nat → Bool) (h_ledger : .ledger ∈ ps) (h_drives : .drives ∈ ps) (h_gov : .gov ∈ ps) (h_reshapes : .reshapes ∈ ps) (h_cmds : .cmds ∈ ps) (h_returns : .returns ∈ ps) (h_ints : .ints ∈ ps) (h_link : .link ∈ ps) (h_power : .power ∈ ps) (h_vaults : .vaults ∈ ps) (h_pair : .pair ∈ ps) (h_daybook : .daybook ∈ ps) (h_hostMem : .hostMem ∈ ps) :
    (coverReset s covers).1.outside ps = s.outside ps := by
  have key : ∀ (cs : List Cmd) (p : State × List (Pos × AcctLine)),
      (cs.foldl (fun (a : State × List (Pos × AcctLine)) c =>
        let (s, f) := fateOf a.1 c
        (forget s c, a.2 ++ [(c.pos, lineOf c f)])) p).1.outside ps = p.1.outside ps :=
    fun cs p => outside_pairFold (fun q x => by simp [h_ledger, h_drives, h_gov, h_reshapes, h_cmds, h_returns, h_ints, h_link, h_power, h_vaults, h_pair, h_daybook, h_hostMem])
  simp [coverReset, key]

@[simp] theorem accountRecord_outside {ps : List Part} (s : State) (lines : List AcctLine) (h_ledger : .ledger ∈ ps) (h_chain : .chain ∈ ps) :
    (accountRecord s lines).1.outside ps = s.outside ps := by
  unfold accountRecord
  repeat' first
    | (simp [h_ledger, h_chain]; done)
    | (rw [outside_foldl])
    | (intro _)
    | simp [h_ledger, h_chain]
    | split
  all_goals
    have e := congrArg (fun p => State.outside ps p.1) ‹_ = (_, _)›
    simp [h_ledger, h_chain] at e
    simp [h_ledger, h_chain, e]

@[simp] theorem accountParts_outside {ps : List Part} (s : State) (ring : Nat) (reason : Nat) (wicket : Nat) (per : Nat) (prior : Bool) (a0 : Nat) (a1 : Nat) (a2 : List AcctLine) (h_returns : .returns ∈ ps) (h_free : .free ∈ ps) :
    (accountParts s ring reason wicket per prior a0 a1 a2).outside ps = s.outside ps := by
  induction a0 generalizing s a1 a2 with
  | zero => rfl
  | succ n ih =>
    unfold accountParts
    simp only
    split <;> simp [ih, h_returns, h_free]

@[simp] theorem accountEntries_outside {ps : List Part} (s : State) (ring : Nat) (reason : Nat) (wicket : Nat) (prior : Bool) (lines : List AcctLine) (h_returns : .returns ∈ ps) (h_free : .free ∈ ps) :
    (accountEntries s ring reason wicket prior lines).outside ps = s.outside ps := by
  unfold accountEntries
  repeat' first
    | (simp [h_returns, h_free]; done)
    | (rw [outside_foldl])
    | (intro _)
    | simp [h_returns, h_free]
    | split

@[simp] theorem accountRings_outside {ps : List Part} (s : State) (reason : Nat) (wicket : Nat) (dflt : Nat) (prior : Bool) (lines : List AcctLine) (h_returns : .returns ∈ ps) (h_free : .free ∈ ps) :
    (accountRings s reason wicket dflt prior lines).outside ps = s.outside ps := by
  unfold accountRings
  repeat' first
    | (simp [h_returns, h_free]; done)
    | (rw [outside_foldl])
    | (intro _)
    | simp [h_returns, h_free]
    | split

@[simp] theorem freeWicket_outside {ps : List Part} (s : State) (w : Nat) (h_wickets : .wickets ∈ ps) (h_link : .link ∈ ps) (h_hostMem : .hostMem ∈ ps) :
    (freeWicket s w).outside ps = s.outside ps := by
  unfold freeWicket
  repeat' first
    | (simp [h_wickets, h_link, h_hostMem]; done)
    | (rw [outside_foldl])
    | (intro _)
    | simp [h_wickets, h_link, h_hostMem]
    | split

@[simp] theorem resetQueue_outside {ps : List Part} (s : State) (ws : List Nat) (reason : Nat) (wicket : Nat) (h_ledger : .ledger ∈ ps) (h_drives : .drives ∈ ps) (h_gov : .gov ∈ ps) (h_reshapes : .reshapes ∈ ps) (h_wickets : .wickets ∈ ps) (h_cmds : .cmds ∈ ps) (h_returns : .returns ∈ ps) (h_ints : .ints ∈ ps) (h_link : .link ∈ ps) (h_power : .power ∈ ps) (h_vaults : .vaults ∈ ps) (h_chain : .chain ∈ ps) (h_pair : .pair ∈ ps) (h_daybook : .daybook ∈ ps) (h_hostMem : .hostMem ∈ ps) (h_free : .free ∈ ps) :
    (resetQueue s ws reason wicket).outside ps = s.outside ps := by
  unfold resetQueue
  repeat' first
    | (simp [h_ledger, h_drives, h_gov, h_reshapes, h_wickets, h_cmds, h_returns, h_ints, h_link, h_power, h_vaults, h_chain, h_pair, h_daybook, h_hostMem, h_free]; done)
    | (rw [outside_foldl])
    | (intro _)
    | simp [h_ledger, h_drives, h_gov, h_reshapes, h_wickets, h_cmds, h_returns, h_ints, h_link, h_power, h_vaults, h_chain, h_pair, h_daybook, h_hostMem, h_free]
    | split
  all_goals
    have e := congrArg (fun p => State.outside ps p.1) ‹_ = (_, _)›
    simp [h_ledger, h_drives, h_gov, h_reshapes, h_wickets, h_cmds, h_returns, h_ints, h_link, h_power, h_vaults, h_chain, h_pair, h_daybook, h_hostMem, h_free] at e
    simp [h_ledger, h_drives, h_gov, h_reshapes, h_wickets, h_cmds, h_returns, h_ints, h_link, h_power, h_vaults, h_chain, h_pair, h_daybook, h_hostMem, h_free, e]

@[simp] theorem queueResets_outside {ps : List Part} (s : State) (h_ledger : .ledger ∈ ps) (h_drives : .drives ∈ ps) (h_gov : .gov ∈ ps) (h_reshapes : .reshapes ∈ ps) (h_wickets : .wickets ∈ ps) (h_cmds : .cmds ∈ ps) (h_returns : .returns ∈ ps) (h_ints : .ints ∈ ps) (h_link : .link ∈ ps) (h_power : .power ∈ ps) (h_vaults : .vaults ∈ ps) (h_chain : .chain ∈ ps) (h_pair : .pair ∈ ps) (h_daybook : .daybook ∈ ps) (h_hostMem : .hostMem ∈ ps) (h_free : .free ∈ ps) :
    (queueResets s).outside ps = s.outside ps := by
  unfold queueResets
  repeat' first
    | (simp [h_ledger, h_drives, h_gov, h_reshapes, h_wickets, h_cmds, h_returns, h_ints, h_link, h_power, h_vaults, h_chain, h_pair, h_daybook, h_hostMem, h_free]; done)
    | (rw [outside_foldl])
    | (intro _)
    | simp [h_ledger, h_drives, h_gov, h_reshapes, h_wickets, h_cmds, h_returns, h_ints, h_link, h_power, h_vaults, h_chain, h_pair, h_daybook, h_hostMem, h_free]
    | split

@[simp] theorem gateAll_outside {ps : List Part} (s : State) (h_tellers : .tellers ∈ ps) :
    (gateAll s).outside ps = s.outside ps := by
  unfold gateAll
  repeat' first
    | (simp [h_tellers]; done)
    | (rw [outside_foldl])
    | (intro _)
    | simp [h_tellers]
    | split

@[simp] theorem ungateBranch_outside {ps : List Part} (s : State) (b : Nat) (h_tellers : .tellers ∈ ps) :
    (ungateBranch s b).outside ps = s.outside ps := by
  unfold ungateBranch
  repeat' first
    | (simp [h_tellers]; done)
    | (rw [outside_foldl])
    | (intro _)
    | simp [h_tellers]
    | split

@[simp] theorem ungateAll_outside {ps : List Part} (s : State) (h_tellers : .tellers ∈ ps) :
    (ungateAll s).outside ps = s.outside ps := by
  unfold ungateAll
  repeat' first
    | (simp [h_tellers]; done)
    | (rw [outside_foldl])
    | (intro _)
    | simp [h_tellers]
    | split

@[simp] theorem sendLtr_outside {ps : List Part} (s : State) (h_link : .link ∈ ps) :
    (sendLtr s).outside ps = s.outside ps := by
  unfold sendLtr
  repeat' first
    | (simp [h_link]; done)
    | (rw [outside_foldl])
    | (intro _)
    | simp [h_link]
    | split

@[simp] theorem powerTo_outside {ps : List Part} (s : State) (st : Nat) (reason : Nat) (signal : Bool) (h_drives : .drives ∈ ps) (h_gov : .gov ∈ ps) (h_tellers : .tellers ∈ ps) (h_scratch : .scratch ∈ ps) (h_ints : .ints ∈ ps) (h_link : .link ∈ ps) (h_power : .power ∈ ps) (h_daybook : .daybook ∈ ps) (h_hostMem : .hostMem ∈ ps) :
    (powerTo s st reason signal).outside ps = s.outside ps := by
  unfold powerTo
  repeat' first
    | (simp [h_drives, h_gov, h_tellers, h_scratch, h_ints, h_link, h_power, h_daybook, h_hostMem]; done)
    | (rw [outside_foldl])
    | (intro _)
    | simp [h_drives, h_gov, h_tellers, h_scratch, h_ints, h_link, h_power, h_daybook, h_hostMem]
    | split

@[simp] theorem supersede'_outside {ps : List Part} (s : State) (b : Nat) (detail : Nat) (h_cmds : .cmds ∈ ps) :
    (supersede' s b detail).outside ps = s.outside ps := by
  unfold supersede'
  repeat' first
    | (simp [h_cmds]; done)
    | (rw [outside_foldl])
    | (intro _)
    | simp [h_cmds]
    | split

@[simp] theorem powerRow_outside {ps : List Part} (s : State) (tag : Nat) (h_cmds : .cmds ∈ ps) (h_power : .power ∈ ps) :
    (powerRow s tag).outside ps = s.outside ps := by
  unfold powerRow
  repeat' first
    | (simp [h_cmds, h_power]; done)
    | (rw [outside_foldl])
    | (intro _)
    | simp [h_cmds, h_power]
    | split

end Sys2Proof.Machine
end

