-- ==== Sys2Proof/Laws/Frame7.lean ====
section
/-! SUPPORT. What each operation leaves as it was: the state outside the parts it works on. -/

namespace Sys2Proof.Machine

set_option linter.all false

@[simp] theorem powerDue_outside {ps : List Part} (s : State) (e : Nat × Nat) (h_drives : .drives ∈ ps) (h_gov : .gov ∈ ps) (h_tellers : .tellers ∈ ps) (h_scratch : .scratch ∈ ps) (h_cmds : .cmds ∈ ps) (h_ints : .ints ∈ ps) (h_link : .link ∈ ps) (h_power : .power ∈ ps) (h_daybook : .daybook ∈ ps) (h_hostMem : .hostMem ∈ ps) :
    (powerDue s e).outside ps = s.outside ps := by
  unfold powerDue
  repeat' first
    | (simp [h_drives, h_gov, h_tellers, h_scratch, h_cmds, h_ints, h_link, h_power, h_daybook, h_hostMem]; done)
    | (rw [outside_foldl])
    | (intro _)
    | simp [h_drives, h_gov, h_tellers, h_scratch, h_cmds, h_ints, h_link, h_power, h_daybook, h_hostMem]
    | split

@[simp] theorem restBoundary_outside {ps : List Part} (s : State) (h_drives : .drives ∈ ps) (h_gov : .gov ∈ ps) (h_tellers : .tellers ∈ ps) (h_scratch : .scratch ∈ ps) (h_cmds : .cmds ∈ ps) (h_ints : .ints ∈ ps) (h_link : .link ∈ ps) (h_power : .power ∈ ps) (h_daybook : .daybook ∈ ps) (h_hostMem : .hostMem ∈ ps) :
    (restBoundary s).outside ps = s.outside ps := by
  unfold restBoundary
  repeat' first
    | (simp [h_drives, h_gov, h_tellers, h_scratch, h_cmds, h_ints, h_link, h_power, h_daybook, h_hostMem]; done)
    | (rw [outside_foldl])
    | (intro _)
    | simp [h_drives, h_gov, h_tellers, h_scratch, h_cmds, h_ints, h_link, h_power, h_daybook, h_hostMem]
    | split

@[simp] theorem d3hot_outside {ps : List Part} (s : State) (h_plans : .plans ∈ ps) (h_works : .works ∈ ps) (h_holds : .holds ∈ ps) (h_drives : .drives ∈ ps) (h_gov : .gov ∈ ps) (h_degrade : .degrade ∈ ps) (h_cmds : .cmds ∈ ps) (h_returns : .returns ∈ ps) (h_cfg : .cfg ∈ ps) (h_power : .power ∈ ps) (h_daybook : .daybook ∈ ps) :
    (d3hot s).outside ps = s.outside ps := by
  unfold d3hot
  repeat' first
    | (simp [h_plans, h_works, h_holds, h_drives, h_gov, h_degrade, h_cmds, h_returns, h_cfg, h_power, h_daybook]; done)
    | (rw [outside_foldl])
    | (intro _)
    | simp [h_plans, h_works, h_holds, h_drives, h_gov, h_degrade, h_cmds, h_returns, h_cfg, h_power, h_daybook]
    | split

@[simp] theorem dormantBoundary_outside {ps : List Part} (s : State) (h_drives : .drives ∈ ps) (h_gov : .gov ∈ ps) (h_tellers : .tellers ∈ ps) (h_scratch : .scratch ∈ ps) (h_ints : .ints ∈ ps) (h_link : .link ∈ ps) (h_power : .power ∈ ps) (h_mgmt : .mgmt ∈ ps) (h_daybook : .daybook ∈ ps) (h_hostMem : .hostMem ∈ ps) :
    (dormantBoundary s).outside ps = s.outside ps := by
  unfold dormantBoundary
  repeat' first
    | (simp [h_drives, h_gov, h_tellers, h_scratch, h_ints, h_link, h_power, h_mgmt, h_daybook, h_hostMem]; done)
    | (rw [outside_foldl])
    | (intro _)
    | simp [h_drives, h_gov, h_tellers, h_scratch, h_ints, h_link, h_power, h_mgmt, h_daybook, h_hostMem]
    | split

@[simp] theorem toD0_outside {ps : List Part} (s : State) (h_drives : .drives ∈ ps) (h_gov : .gov ∈ ps) (h_tellers : .tellers ∈ ps) (h_scratch : .scratch ∈ ps) (h_wickets : .wickets ∈ ps) (h_returns : .returns ∈ ps) (h_ints : .ints ∈ ps) (h_cfg : .cfg ∈ ps) (h_link : .link ∈ ps) (h_power : .power ∈ ps) (h_daybook : .daybook ∈ ps) (h_courier : .courier ∈ ps) (h_hostMem : .hostMem ∈ ps) :
    (toD0 s).outside ps = s.outside ps := by
  unfold toD0
  repeat' first
    | (simp [h_drives, h_gov, h_tellers, h_scratch, h_wickets, h_returns, h_ints, h_cfg, h_link, h_power, h_daybook, h_courier, h_hostMem]; done)
    | (rw [outside_foldl])
    | (intro _)
    | simp [h_drives, h_gov, h_tellers, h_scratch, h_wickets, h_returns, h_ints, h_cfg, h_link, h_power, h_daybook, h_courier, h_hostMem]
    | split

@[simp] theorem restExit_outside {ps : List Part} (s : State) (h_drives : .drives ∈ ps) (h_gov : .gov ∈ ps) (h_tellers : .tellers ∈ ps) (h_scratch : .scratch ∈ ps) (h_ints : .ints ∈ ps) (h_link : .link ∈ ps) (h_power : .power ∈ ps) (h_daybook : .daybook ∈ ps) (h_hostMem : .hostMem ∈ ps) :
    (restExit s).outside ps = s.outside ps := by
  unfold restExit
  repeat' first
    | (simp [h_drives, h_gov, h_tellers, h_scratch, h_ints, h_link, h_power, h_daybook, h_hostMem]; done)
    | (rw [outside_foldl])
    | (intro _)
    | simp [h_drives, h_gov, h_tellers, h_scratch, h_ints, h_link, h_power, h_daybook, h_hostMem]
    | split

@[simp] theorem powerBoundary_outside {ps : List Part} (s : State) (h_drives : .drives ∈ ps) (h_gov : .gov ∈ ps) (h_tellers : .tellers ∈ ps) (h_scratch : .scratch ∈ ps) (h_cmds : .cmds ∈ ps) (h_ints : .ints ∈ ps) (h_link : .link ∈ ps) (h_power : .power ∈ ps) (h_mgmt : .mgmt ∈ ps) (h_daybook : .daybook ∈ ps) (h_hostMem : .hostMem ∈ ps) :
    (powerBoundary s).outside ps = s.outside ps := by
  unfold powerBoundary
  repeat' first
    | (simp [h_drives, h_gov, h_tellers, h_scratch, h_cmds, h_ints, h_link, h_power, h_mgmt, h_daybook, h_hostMem]; done)
    | (rw [outside_foldl])
    | (intro _)
    | simp [h_drives, h_gov, h_tellers, h_scratch, h_cmds, h_ints, h_link, h_power, h_mgmt, h_daybook, h_hostMem]
    | split

@[simp] theorem clearSources_outside {ps : List Part} (s : State) (rings : BitVec 64) (mgmt : BitVec 10) (h_ints : .ints ∈ ps) (h_link : .link ∈ ps) (h_hostMem : .hostMem ∈ ps) :
    (clearSources s rings mgmt).outside ps = s.outside ps := by
  unfold clearSources
  repeat' first
    | (simp [h_ints, h_link, h_hostMem]; done)
    | (rw [outside_foldl])
    | (intro _)
    | simp [h_ints, h_link, h_hostMem]
    | split

@[simp] theorem testFire_outside {ps : List Part} (s : State) (source : Nat) (h_ints : .ints ∈ ps) (h_link : .link ∈ ps) (h_hostMem : .hostMem ∈ ps) :
    (testFire s source).outside ps = s.outside ps := by
  unfold testFire
  repeat' first
    | (simp [h_ints, h_link, h_hostMem]; done)
    | (rw [outside_foldl])
    | (intro _)
    | simp [h_ints, h_link, h_hostMem]
    | split

@[simp] theorem intTest_outside {ps : List Part} (s : State) (source : Nat) (h_ints : .ints ∈ ps) (h_link : .link ∈ ps) (h_hostMem : .hostMem ∈ ps) :
    (intTest s source).outside ps = s.outside ps := by
  unfold intTest
  repeat' first
    | (simp [h_ints, h_link, h_hostMem]; done)
    | (rw [outside_foldl])
    | (intro _)
    | simp [h_ints, h_link, h_hostMem]
    | split

@[simp] theorem startReset_outside {ps : List Part} (s : State) (kind : Nat) (h_drives : .drives ∈ ps) (h_gov : .gov ∈ ps) (h_tellers : .tellers ∈ ps) (h_scratch : .scratch ∈ ps) (h_wickets : .wickets ∈ ps) (h_returns : .returns ∈ ps) (h_ints : .ints ∈ ps) (h_cfg : .cfg ∈ ps) (h_link : .link ∈ ps) (h_power : .power ∈ ps) (h_resets : .resets ∈ ps) (h_daybook : .daybook ∈ ps) (h_hostMem : .hostMem ∈ ps) :
    (startReset s kind).outside ps = s.outside ps := by
  unfold startReset
  repeat' first
    | (simp [h_drives, h_gov, h_tellers, h_scratch, h_wickets, h_returns, h_ints, h_cfg, h_link, h_power, h_resets, h_daybook, h_hostMem]; done)
    | (rw [outside_foldl])
    | (intro _)
    | simp [h_drives, h_gov, h_tellers, h_scratch, h_wickets, h_returns, h_ints, h_cfg, h_link, h_power, h_resets, h_daybook, h_hostMem]
    | split

@[simp] theorem resetAccount_outside {ps : List Part} (s : State) (h_ledger : .ledger ∈ ps) (h_drives : .drives ∈ ps) (h_gov : .gov ∈ ps) (h_reshapes : .reshapes ∈ ps) (h_wickets : .wickets ∈ ps) (h_cmds : .cmds ∈ ps) (h_returns : .returns ∈ ps) (h_ints : .ints ∈ ps) (h_link : .link ∈ ps) (h_power : .power ∈ ps) (h_resets : .resets ∈ ps) (h_vaults : .vaults ∈ ps) (h_chain : .chain ∈ ps) (h_pair : .pair ∈ ps) (h_daybook : .daybook ∈ ps) (h_courier : .courier ∈ ps) (h_hostMem : .hostMem ∈ ps) :
    (resetAccount s).outside ps = s.outside ps := by
  unfold resetAccount
  repeat' first
    | (simp [h_ledger, h_drives, h_gov, h_reshapes, h_wickets, h_cmds, h_returns, h_ints, h_link, h_power, h_resets, h_vaults, h_chain, h_pair, h_daybook, h_courier, h_hostMem]; done)
    | (rw [outside_foldl])
    | (intro _)
    | simp [h_ledger, h_drives, h_gov, h_reshapes, h_wickets, h_cmds, h_returns, h_ints, h_link, h_power, h_resets, h_vaults, h_chain, h_pair, h_daybook, h_courier, h_hostMem]
    | split
  all_goals
    have e := congrArg (fun p => State.outside ps p.1) ‹_ = (_, _)›
    simp [h_ledger, h_drives, h_gov, h_reshapes, h_wickets, h_cmds, h_returns, h_ints, h_link, h_power, h_resets, h_vaults, h_chain, h_pair, h_daybook, h_courier, h_hostMem] at e
    simp [h_ledger, h_drives, h_gov, h_reshapes, h_wickets, h_cmds, h_returns, h_ints, h_link, h_power, h_resets, h_vaults, h_chain, h_pair, h_daybook, h_courier, h_hostMem, e]

@[simp] theorem resetCourier_outside {ps : List Part} (s : State) (h_courier : .courier ∈ ps) :
    (resetCourier s).outside ps = s.outside ps := by
  unfold resetCourier
  repeat' first
    | (simp [h_courier]; done)
    | (rw [outside_foldl])
    | (intro _)
    | simp [h_courier]
    | split

@[simp] theorem resetDone_outside {ps : List Part} (s : State) (h_drives : .drives ∈ ps) (h_gov : .gov ∈ ps) (h_tellers : .tellers ∈ ps) (h_scratch : .scratch ∈ ps) (h_wickets : .wickets ∈ ps) (h_returns : .returns ∈ ps) (h_ints : .ints ∈ ps) (h_cfg : .cfg ∈ ps) (h_link : .link ∈ ps) (h_power : .power ∈ ps) (h_resets : .resets ∈ ps) (h_feats : .feats ∈ ps) (h_daybook : .daybook ∈ ps) (h_courier : .courier ∈ ps) (h_hostMem : .hostMem ∈ ps) :
    (resetDone s).outside ps = s.outside ps := by
  unfold resetDone
  repeat' first
    | (simp [h_drives, h_gov, h_tellers, h_scratch, h_wickets, h_returns, h_ints, h_cfg, h_link, h_power, h_resets, h_feats, h_daybook, h_courier, h_hostMem]; done)
    | (rw [outside_foldl])
    | (intro _)
    | simp [h_drives, h_gov, h_tellers, h_scratch, h_wickets, h_returns, h_ints, h_cfg, h_link, h_power, h_resets, h_feats, h_daybook, h_courier, h_hostMem]
    | split

@[simp] theorem resetBoundary_outside {ps : List Part} (s : State) (h_drives : .drives ∈ ps) (h_gov : .gov ∈ ps) (h_tellers : .tellers ∈ ps) (h_scratch : .scratch ∈ ps) (h_wickets : .wickets ∈ ps) (h_returns : .returns ∈ ps) (h_ints : .ints ∈ ps) (h_cfg : .cfg ∈ ps) (h_link : .link ∈ ps) (h_power : .power ∈ ps) (h_resets : .resets ∈ ps) (h_feats : .feats ∈ ps) (h_daybook : .daybook ∈ ps) (h_courier : .courier ∈ ps) (h_hostMem : .hostMem ∈ ps) :
    (resetBoundary s).outside ps = s.outside ps := by
  unfold resetBoundary
  repeat' first
    | (simp [h_drives, h_gov, h_tellers, h_scratch, h_wickets, h_returns, h_ints, h_cfg, h_link, h_power, h_resets, h_feats, h_daybook, h_courier, h_hostMem]; done)
    | (rw [outside_foldl])
    | (intro _)
    | simp [h_drives, h_gov, h_tellers, h_scratch, h_wickets, h_returns, h_ints, h_cfg, h_link, h_power, h_resets, h_feats, h_daybook, h_courier, h_hostMem]
    | split

@[simp] theorem applyBandRec_outside {ps : List Part} (s : State) (r : Rec) (h_vols : .vols ∈ ps) (h_bands : .bands ∈ ps) (h_reshapes : .reshapes ∈ ps) :
    (applyBandRec s r).outside ps = s.outside ps := by
  unfold applyBandRec
  repeat' first
    | (simp [h_vols, h_bands, h_reshapes]; done)
    | (rw [outside_foldl])
    | (intro _)
    | simp [h_vols, h_bands, h_reshapes]
    | split

@[simp] theorem applyMapRec_outside {ps : List Part} (s : State) (r : Rec) (h_ledger : .ledger ∈ ps) :
    (applyMapRec s r).outside ps = s.outside ps := by
  unfold applyMapRec
  repeat' first
    | (simp [h_ledger]; done)
    | (rw [outside_foldl])
    | (intro _)
    | simp [h_ledger]
    | split

@[simp] theorem coverRegions_outside {ps : List Part} (s : State) (h_ledger : .ledger ∈ ps) :
    (coverRegions s).outside ps = s.outside ps := by
  unfold coverRegions
  repeat' first
    | (simp [h_ledger]; done)
    | (rw [outside_foldl])
    | (intro _)
    | simp [h_ledger]
    | split

@[simp] theorem renumber_outside {ps : List Part} (s : State) (r : Rec) (h_ledger : .ledger ∈ ps) (h_vaults : .vaults ∈ ps) :
    (renumber s r).outside ps = s.outside ps := by
  unfold renumber
  repeat' first
    | (simp [h_ledger, h_vaults]; done)
    | (rw [outside_foldl])
    | (intro _)
    | simp [h_ledger, h_vaults]
    | split

@[simp] theorem dropOrphans_outside {ps : List Part} (s : State) (h_bands : .bands ∈ ps) :
    (dropOrphans s).outside ps = s.outside ps := by
  unfold dropOrphans
  repeat' first
    | (simp [h_bands]; done)
    | (rw [outside_foldl])
    | (intro _)
    | simp [h_bands]
    | split

@[simp] theorem adoptOne_outside {ps : List Part} (s : State) (r : Rec) (lands : Bool) (h_ledger : .ledger ∈ ps) (h_vols : .vols ∈ ps) (h_bands : .bands ∈ ps) (h_plans : .plans ∈ ps) (h_works : .works ∈ ps) (h_nextWork : .nextWork ∈ ps) (h_holds : .holds ∈ ps) (h_drives : .drives ∈ ps) (h_gov : .gov ∈ ps) (h_degrade : .degrade ∈ ps) (h_reshapes : .reshapes ∈ ps) (h_cmds : .cmds ∈ ps) (h_returns : .returns ∈ ps) (h_power : .power ∈ ps) (h_vaults : .vaults ∈ ps) (h_daybook : .daybook ∈ ps) (h_cache : .cache ∈ ps) :
    (adoptOne s r lands).outside ps = s.outside ps := by
  unfold adoptOne
  repeat' first
    | (simp [h_ledger, h_vols, h_bands, h_plans, h_works, h_nextWork, h_holds, h_drives, h_gov, h_degrade, h_reshapes, h_cmds, h_returns, h_power, h_vaults, h_daybook, h_cache]; done)
    | (rw [outside_foldl])
    | (intro _)
    | simp [h_ledger, h_vols, h_bands, h_plans, h_works, h_nextWork, h_holds, h_drives, h_gov, h_degrade, h_reshapes, h_cmds, h_returns, h_power, h_vaults, h_daybook, h_cache]
    | split

@[simp] theorem adopt_outside {ps : List Part} (s : State) (rs : List Rec) (lands : Rec → Bool) (h_ledger : .ledger ∈ ps) (h_vols : .vols ∈ ps) (h_bands : .bands ∈ ps) (h_plans : .plans ∈ ps) (h_works : .works ∈ ps) (h_nextWork : .nextWork ∈ ps) (h_holds : .holds ∈ ps) (h_drives : .drives ∈ ps) (h_gov : .gov ∈ ps) (h_degrade : .degrade ∈ ps) (h_reshapes : .reshapes ∈ ps) (h_cmds : .cmds ∈ ps) (h_returns : .returns ∈ ps) (h_power : .power ∈ ps) (h_vaults : .vaults ∈ ps) (h_daybook : .daybook ∈ ps) (h_cache : .cache ∈ ps) :
    (adopt s rs lands).outside ps = s.outside ps := by
  unfold adopt
  repeat' first
    | (simp [h_ledger, h_vols, h_bands, h_plans, h_works, h_nextWork, h_holds, h_drives, h_gov, h_degrade, h_reshapes, h_cmds, h_returns, h_power, h_vaults, h_daybook, h_cache]; done)
    | (rw [outside_foldl])
    | (intro _)
    | simp [h_ledger, h_vols, h_bands, h_plans, h_works, h_nextWork, h_holds, h_drives, h_gov, h_degrade, h_reshapes, h_cmds, h_returns, h_power, h_vaults, h_daybook, h_cache]
    | split

@[simp] theorem takeCursors_outside {ps : List Part} (s : State) (h_vols : .vols ∈ ps) (h_degrade : .degrade ∈ ps) (h_reshapes : .reshapes ∈ ps) :
    (takeCursors s).outside ps = s.outside ps := by
  unfold takeCursors
  repeat' first
    | (simp [h_vols, h_degrade, h_reshapes]; done)
    | (rw [outside_foldl])
    | (intro _)
    | simp [h_vols, h_degrade, h_reshapes]
    | split

@[simp] theorem toRegistry_outside {ps : List Part} (s : State) (ks : List Nat) (op : MemberOp) (h_drives : .drives ∈ ps) :
    (toRegistry s ks op).outside ps = s.outside ps := by
  unfold toRegistry
  repeat' first
    | (simp [h_drives]; done)
    | (rw [outside_foldl])
    | (intro _)
    | simp [h_drives]
    | split

@[simp] theorem dropRegistryCmd_outside {ps : List Part} (s : State) (k : Nat) (op : MemberOp) (h_drives : .drives ∈ ps) :
    (dropRegistryCmd s k op).outside ps = s.outside ps := by
  unfold dropRegistryCmd
  repeat' first
    | (simp [h_drives]; done)
    | (rw [outside_foldl])
    | (intro _)
    | simp [h_drives]
    | split

@[simp] theorem confirmCopies_outside {ps : List Part} (s : State) (h_ledger : .ledger ∈ ps) (h_chain : .chain ∈ ps) :
    (confirmCopies s).outside ps = s.outside ps := by
  unfold confirmCopies
  repeat' first
    | (simp [h_ledger, h_chain]; done)
    | (rw [outside_foldl])
    | (intro _)
    | simp [h_ledger, h_chain]
    | split

@[simp] theorem confirmed_outside {ps : List Part} (s : State) (seq : Nat) (h_ledger : .ledger ∈ ps) (h_pair : .pair ∈ ps) :
    (confirmed s seq).outside ps = s.outside ps := by
  unfold confirmed
  repeat' first
    | (simp [h_ledger, h_pair]; done)
    | (rw [outside_foldl])
    | (intro _)
    | simp [h_ledger, h_pair]
    | split

@[simp] theorem bookIsHeld_outside {ps : List Part} (s : State) (close : Nat) (h_closers : .closers ∈ ps) :
    (bookIsHeld s close).outside ps = s.outside ps := by
  unfold bookIsHeld
  repeat' first
    | (simp [h_closers]; done)
    | (rw [outside_foldl])
    | (intro _)
    | simp [h_closers]
    | split

@[simp] theorem released_outside {ps : List Part} (s : State) (seq : Nat) (h_ledger : .ledger ∈ ps) (h_chain : .chain ∈ ps) (h_pair : .pair ∈ ps) :
    (released s seq).outside ps = s.outside ps := by
  unfold released
  repeat' first
    | (simp [h_ledger, h_chain, h_pair]; done)
    | (rw [outside_foldl])
    | (intro _)
    | simp [h_ledger, h_chain, h_pair]
    | split

@[simp] theorem postedArrives_outside {ps : List Part} (s : State) (tag : Nat) (ring : Nat) (seq : Nat) (h_pair : .pair ∈ ps) :
    (postedArrives s tag ring seq).outside ps = s.outside ps := by
  unfold postedArrives
  repeat' first
    | (simp [h_pair]; done)
    | (rw [outside_foldl])
    | (intro _)
    | simp [h_pair]
    | split

@[simp] theorem sendNegotiate_outside {ps : List Part} (s : State) (h_chain : .chain ∈ ps) :
    (sendNegotiate s).outside ps = s.outside ps := by
  unfold sendNegotiate
  repeat' first
    | (simp [h_chain]; done)
    | (rw [outside_foldl])
    | (intro _)
    | simp [h_chain]
    | split

@[simp] theorem negotiateArrives_outside {ps : List Part} (s : State) (n : NegotiateMsg) (h_chain : .chain ∈ ps) (h_pair : .pair ∈ ps) :
    (negotiateArrives s n).outside ps = s.outside ps := by
  unfold negotiateArrives
  repeat' first
    | (simp [h_chain, h_pair]; done)
    | (rw [outside_foldl])
    | (intro _)
    | simp [h_chain, h_pair]
    | split

@[simp] theorem toStep_outside {ps : List Part} (s : State) (n : Nat) (h_chip : .chip ∈ ps) :
    (toStep s n).outside ps = s.outside ps := by
  unfold toStep
  repeat' first
    | (simp [h_chip]; done)
    | (rw [outside_foldl])
    | (intro _)
    | simp [h_chip]
    | split

@[simp] theorem enterStepEight_outside {ps : List Part} (s : State) (h_chip : .chip ∈ ps) (h_ledger : .ledger ∈ ps) (h_drives : .drives ∈ ps) (h_ints : .ints ∈ ps) (h_link : .link ∈ ps) (h_chain : .chain ∈ ps) (h_pair : .pair ∈ ps) (h_daybook : .daybook ∈ ps) (h_hostMem : .hostMem ∈ ps) :
    (enterStepEight s).outside ps = s.outside ps := by
  unfold enterStepEight
  repeat' first
    | (simp [h_chip, h_ledger, h_drives, h_ints, h_link, h_chain, h_pair, h_daybook, h_hostMem]; done)
    | (rw [outside_foldl])
    | (intro _)
    | simp [h_chip, h_ledger, h_drives, h_ints, h_link, h_chain, h_pair, h_daybook, h_hostMem]
    | split

@[simp] theorem startRecord_outside {ps : List Part} (s : State) (ks : List Nat) (other : Bool) (purpose : Nat) (h_drives : .drives ∈ ps) (h_pair : .pair ∈ ps) :
    (startRecord s ks other purpose).outside ps = s.outside ps := by
  unfold startRecord
  repeat' first
    | (simp [h_drives, h_pair]; done)
    | (rw [outside_foldl])
    | (intro _)
    | simp [h_drives, h_pair]
    | split

@[simp] theorem becomeActive_outside {ps : List Part} (s : State) (partnerCurrent : Bool) (h_ledger : .ledger ∈ ps) (h_ints : .ints ∈ ps) (h_link : .link ∈ ps) (h_pair : .pair ∈ ps) (h_daybook : .daybook ∈ ps) (h_hostMem : .hostMem ∈ ps) :
    (becomeActive s partnerCurrent).outside ps = s.outside ps := by
  unfold becomeActive
  repeat' first
    | (simp [h_ledger, h_ints, h_link, h_pair, h_daybook, h_hostMem]; done)
    | (rw [outside_foldl])
    | (intro _)
    | simp [h_ledger, h_ints, h_link, h_pair, h_daybook, h_hostMem]
    | split

@[simp] theorem becomeStandby_outside {ps : List Part} (s : State) (cur : Bool) (alert : Bool) (h_ledger : .ledger ∈ ps) (h_ints : .ints ∈ ps) (h_link : .link ∈ ps) (h_pair : .pair ∈ ps) (h_daybook : .daybook ∈ ps) (h_hostMem : .hostMem ∈ ps) :
    (becomeStandby s cur alert).outside ps = s.outside ps := by
  unfold becomeStandby
  repeat' first
    | (simp [h_ledger, h_ints, h_link, h_pair, h_daybook, h_hostMem]; done)
    | (rw [outside_foldl])
    | (intro _)
    | simp [h_ledger, h_ints, h_link, h_pair, h_daybook, h_hostMem]
    | split

@[simp] theorem negotiation_outside {ps : List Part} (s : State) (h_chip : .chip ∈ ps) (h_ledger : .ledger ∈ ps) (h_drives : .drives ∈ ps) (h_ints : .ints ∈ ps) (h_link : .link ∈ ps) (h_pair : .pair ∈ ps) (h_daybook : .daybook ∈ ps) (h_hostMem : .hostMem ∈ ps) :
    (negotiation s).outside ps = s.outside ps := by
  unfold negotiation
  repeat' first
    | (simp [h_chip, h_ledger, h_drives, h_ints, h_link, h_pair, h_daybook, h_hostMem]; done)
    | (rw [outside_foldl])
    | (intro _)
    | simp [h_chip, h_ledger, h_drives, h_ints, h_link, h_pair, h_daybook, h_hostMem]
    | split

@[simp] theorem abandonAudit_outside {ps : List Part} (s : State) (h_cmds : .cmds ∈ ps) (h_returns : .returns ∈ ps) (h_pair : .pair ∈ ps) (h_free : .free ∈ ps) :
    (abandonAudit s).outside ps = s.outside ps := by
  unfold abandonAudit
  repeat' first
    | (simp [h_cmds, h_returns, h_pair, h_free]; done)
    | (rw [outside_foldl])
    | (intro _)
    | simp [h_cmds, h_returns, h_pair, h_free]
    | split
  all_goals
    have e := congrArg (fun p => State.outside ps p.1) ‹_ = (_, _)›
    simp [h_cmds, h_returns, h_pair, h_free] at e
    simp [h_cmds, h_returns, h_pair, h_free, e]

@[simp] theorem contend_outside {ps : List Part} (s : State) (h_drives : .drives ∈ ps) (h_cmds : .cmds ∈ ps) (h_returns : .returns ∈ ps) (h_ints : .ints ∈ ps) (h_cfg : .cfg ∈ ps) (h_link : .link ∈ ps) (h_pair : .pair ∈ ps) (h_daybook : .daybook ∈ ps) (h_hostMem : .hostMem ∈ ps) (h_free : .free ∈ ps) :
    (contend s).outside ps = s.outside ps := by
  unfold contend
  repeat' first
    | (simp [h_drives, h_cmds, h_returns, h_ints, h_cfg, h_link, h_pair, h_daybook, h_hostMem, h_free]; done)
    | (rw [outside_foldl])
    | (intro _)
    | simp [h_drives, h_cmds, h_returns, h_ints, h_cfg, h_link, h_pair, h_daybook, h_hostMem, h_free]
    | split

@[simp] theorem declareFailed_outside {ps : List Part} (s : State) (h_drives : .drives ∈ ps) (h_cmds : .cmds ∈ ps) (h_returns : .returns ∈ ps) (h_ints : .ints ∈ ps) (h_cfg : .cfg ∈ ps) (h_link : .link ∈ ps) (h_pair : .pair ∈ ps) (h_daybook : .daybook ∈ ps) (h_hostMem : .hostMem ∈ ps) (h_free : .free ∈ ps) :
    (declareFailed s).outside ps = s.outside ps := by
  unfold declareFailed
  repeat' first
    | (simp [h_drives, h_cmds, h_returns, h_ints, h_cfg, h_link, h_pair, h_daybook, h_hostMem, h_free]; done)
    | (rw [outside_foldl])
    | (intro _)
    | simp [h_drives, h_cmds, h_returns, h_ints, h_cfg, h_link, h_pair, h_daybook, h_hostMem, h_free]
    | split

@[simp] theorem recordHeld_outside {ps : List Part} (s : State) (w : Witness) (h_pair : .pair ∈ ps) :
    (recordHeld s w).outside ps = s.outside ps := by
  unfold recordHeld
  repeat' first
    | (simp [h_pair]; done)
    | (rw [outside_foldl])
    | (intro _)
    | simp [h_pair]
    | split

@[simp] theorem decide'_outside {ps : List Part} (s : State) (h_drives : .drives ∈ ps) (h_cmds : .cmds ∈ ps) (h_returns : .returns ∈ ps) (h_ints : .ints ∈ ps) (h_link : .link ∈ ps) (h_chain : .chain ∈ ps) (h_pair : .pair ∈ ps) (h_daybook : .daybook ∈ ps) (h_hostMem : .hostMem ∈ ps) (h_free : .free ∈ ps) :
    (decide' s).outside ps = s.outside ps := by
  unfold decide'
  repeat' first
    | (simp [h_drives, h_cmds, h_returns, h_ints, h_link, h_chain, h_pair, h_daybook, h_hostMem, h_free]; done)
    | (rw [outside_foldl])
    | (intro _)
    | simp [h_drives, h_cmds, h_returns, h_ints, h_link, h_chain, h_pair, h_daybook, h_hostMem, h_free]
    | split

@[simp] theorem winRow_outside {ps : List Part} (s : State) (h_drives : .drives ∈ ps) (h_cmds : .cmds ∈ ps) (h_returns : .returns ∈ ps) (h_ints : .ints ∈ ps) (h_link : .link ∈ ps) (h_chain : .chain ∈ ps) (h_pair : .pair ∈ ps) (h_daybook : .daybook ∈ ps) (h_hostMem : .hostMem ∈ ps) (h_free : .free ∈ ps) :
    (winRow s).outside ps = s.outside ps := by
  unfold winRow
  repeat' first
    | (simp [h_drives, h_cmds, h_returns, h_ints, h_link, h_chain, h_pair, h_daybook, h_hostMem, h_free]; done)
    | (rw [outside_foldl])
    | (intro _)
    | simp [h_drives, h_cmds, h_returns, h_ints, h_link, h_chain, h_pair, h_daybook, h_hostMem, h_free]
    | split

@[simp] theorem failedSeen_outside {ps : List Part} (s : State) (h_drives : .drives ∈ ps) (h_cmds : .cmds ∈ ps) (h_returns : .returns ∈ ps) (h_ints : .ints ∈ ps) (h_cfg : .cfg ∈ ps) (h_link : .link ∈ ps) (h_chain : .chain ∈ ps) (h_pair : .pair ∈ ps) (h_daybook : .daybook ∈ ps) (h_hostMem : .hostMem ∈ ps) (h_free : .free ∈ ps) :
    (failedSeen s).outside ps = s.outside ps := by
  unfold failedSeen
  repeat' first
    | (simp [h_drives, h_cmds, h_returns, h_ints, h_cfg, h_link, h_chain, h_pair, h_daybook, h_hostMem, h_free]; done)
    | (rw [outside_foldl])
    | (intro _)
    | simp [h_drives, h_cmds, h_returns, h_ints, h_cfg, h_link, h_chain, h_pair, h_daybook, h_hostMem, h_free]
    | split

@[simp] theorem resume'_outside {ps : List Part} (s : State) (h_pair : .pair ∈ ps) :
    (resume' s).outside ps = s.outside ps := by
  unfold resume'
  repeat' first
    | (simp [h_pair]; done)
    | (rw [outside_foldl])
    | (intro _)
    | simp [h_pair]
    | split

@[simp] theorem countersignAll_outside {ps : List Part} (s : State) (h_ledger : .ledger ∈ ps) :
    (countersignAll s).outside ps = s.outside ps := by
  unfold countersignAll
  repeat' first
    | (simp [h_ledger]; done)
    | (rw [outside_foldl])
    | (intro _)
    | simp [h_ledger]
    | split

@[simp] theorem runUnpaired_outside {ps : List Part} (s : State) (mode : Nat) (alert : Bool) (h_ledger : .ledger ∈ ps) (h_ints : .ints ∈ ps) (h_link : .link ∈ ps) (h_pair : .pair ∈ ps) (h_daybook : .daybook ∈ ps) (h_hostMem : .hostMem ∈ ps) :
    (runUnpaired s mode alert).outside ps = s.outside ps := by
  unfold runUnpaired
  repeat' first
    | (simp [h_ledger, h_ints, h_link, h_pair, h_daybook, h_hostMem]; done)
    | (rw [outside_foldl])
    | (intro _)
    | simp [h_ledger, h_ints, h_link, h_pair, h_daybook, h_hostMem]
    | split

@[simp] theorem winBoundary_outside {ps : List Part} (s : State) (h_chip : .chip ∈ ps) (h_ledger : .ledger ∈ ps) (h_drives : .drives ∈ ps) (h_ints : .ints ∈ ps) (h_link : .link ∈ ps) (h_pair : .pair ∈ ps) (h_daybook : .daybook ∈ ps) (h_hostMem : .hostMem ∈ ps) :
    (winBoundary s).outside ps = s.outside ps := by
  unfold winBoundary
  repeat' first
    | (simp [h_chip, h_ledger, h_drives, h_ints, h_link, h_pair, h_daybook, h_hostMem]; done)
    | (rw [outside_foldl])
    | (intro _)
    | simp [h_chip, h_ledger, h_drives, h_ints, h_link, h_pair, h_daybook, h_hostMem]
    | split

@[simp] theorem endIsolated_outside {ps : List Part} (s : State) (c : Cmd) (h_ledger : .ledger ∈ ps) (h_drives : .drives ∈ ps) (h_gov : .gov ∈ ps) (h_wickets : .wickets ∈ ps) (h_cmds : .cmds ∈ ps) (h_returns : .returns ∈ ps) (h_link : .link ∈ ps) (h_pair : .pair ∈ ps) (h_hostMem : .hostMem ∈ ps) :
    (endIsolated s c).outside ps = s.outside ps := by
  unfold endIsolated
  repeat' first
    | (simp [h_ledger, h_drives, h_gov, h_wickets, h_cmds, h_returns, h_link, h_pair, h_hostMem]; done)
    | (rw [outside_foldl])
    | (intro _)
    | simp [h_ledger, h_drives, h_gov, h_wickets, h_cmds, h_returns, h_link, h_pair, h_hostMem]
    | split

@[simp] theorem isolateBoundary_outside {ps : List Part} (s : State) (h_chip : .chip ∈ ps) (h_ledger : .ledger ∈ ps) (h_drives : .drives ∈ ps) (h_gov : .gov ∈ ps) (h_wickets : .wickets ∈ ps) (h_cmds : .cmds ∈ ps) (h_returns : .returns ∈ ps) (h_ints : .ints ∈ ps) (h_link : .link ∈ ps) (h_pair : .pair ∈ ps) (h_daybook : .daybook ∈ ps) (h_hostMem : .hostMem ∈ ps) :
    (isolateBoundary s).outside ps = s.outside ps := by
  unfold isolateBoundary
  repeat' first
    | (simp [h_chip, h_ledger, h_drives, h_gov, h_wickets, h_cmds, h_returns, h_ints, h_link, h_pair, h_daybook, h_hostMem]; done)
    | (rw [outside_foldl])
    | (intro _)
    | simp [h_chip, h_ledger, h_drives, h_gov, h_wickets, h_cmds, h_returns, h_ints, h_link, h_pair, h_daybook, h_hostMem]
    | split

@[simp] theorem resumeBoundary_outside {ps : List Part} (s : State) (h_drives : .drives ∈ ps) (h_ints : .ints ∈ ps) (h_link : .link ∈ ps) (h_pair : .pair ∈ ps) (h_daybook : .daybook ∈ ps) (h_hostMem : .hostMem ∈ ps) :
    (resumeBoundary s).outside ps = s.outside ps := by
  unfold resumeBoundary
  repeat' first
    | (simp [h_drives, h_ints, h_link, h_pair, h_daybook, h_hostMem]; done)
    | (rw [outside_foldl])
    | (intro _)
    | simp [h_drives, h_ints, h_link, h_pair, h_daybook, h_hostMem]
    | split

@[simp] theorem modPath_outside {ps : List Part} (s : State) (p : Path) (f : TallyPath → TallyPath) (h_pair : .pair ∈ ps) :
    (modPath s p f).outside ps = s.outside ps := by
  unfold modPath
  repeat' first
    | (simp [h_pair]; done)
    | (rw [outside_foldl])
    | (intro _)
    | simp [h_pair]
    | split

@[simp] theorem detachedSeen_outside {ps : List Part} (s : State) (h_pair : .pair ∈ ps) :
    (detachedSeen s).outside ps = s.outside ps := by
  unfold detachedSeen
  repeat' first
    | (simp [h_pair]; done)
    | (rw [outside_foldl])
    | (intro _)
    | simp [h_pair]
    | split

@[simp] theorem tally_outside {ps : List Part} (s : State) (p : Path) (count : Nat) (state : Nat) (serial : Nat) (good : Bool) (h_drives : .drives ∈ ps) (h_cmds : .cmds ∈ ps) (h_returns : .returns ∈ ps) (h_ints : .ints ∈ ps) (h_cfg : .cfg ∈ ps) (h_link : .link ∈ ps) (h_chain : .chain ∈ ps) (h_pair : .pair ∈ ps) (h_daybook : .daybook ∈ ps) (h_hostMem : .hostMem ∈ ps) (h_free : .free ∈ ps) :
    (tally s p count state serial good).outside ps = s.outside ps := by
  unfold tally
  repeat' first
    | (simp [h_drives, h_cmds, h_returns, h_ints, h_cfg, h_link, h_chain, h_pair, h_daybook, h_hostMem, h_free]; done)
    | (rw [outside_foldl])
    | (intro _)
    | simp [h_drives, h_cmds, h_returns, h_ints, h_cfg, h_link, h_chain, h_pair, h_daybook, h_hostMem, h_free]
    | split

@[simp] theorem pathAlarm_outside {ps : List Part} (s : State) (p : Path) (h_ints : .ints ∈ ps) (h_cfg : .cfg ∈ ps) (h_link : .link ∈ ps) (h_pair : .pair ∈ ps) (h_daybook : .daybook ∈ ps) (h_hostMem : .hostMem ∈ ps) :
    (pathAlarm s p).outside ps = s.outside ps := by
  unfold pathAlarm
  repeat' first
    | (simp [h_ints, h_cfg, h_link, h_pair, h_daybook, h_hostMem]; done)
    | (rw [outside_foldl])
    | (intro _)
    | simp [h_ints, h_cfg, h_link, h_pair, h_daybook, h_hostMem]
    | split

@[simp] theorem tallyBoundary_outside {ps : List Part} (s : State) (h_ints : .ints ∈ ps) (h_link : .link ∈ ps) (h_pair : .pair ∈ ps) (h_daybook : .daybook ∈ ps) (h_hostMem : .hostMem ∈ ps) :
    (tallyBoundary s).outside ps = s.outside ps := by
  unfold tallyBoundary
  repeat' first
    | (simp [h_ints, h_link, h_pair, h_daybook, h_hostMem]; done)
    | (rw [outside_foldl])
    | (intro _)
    | simp [h_ints, h_link, h_pair, h_daybook, h_hostMem]
    | split

@[simp] theorem recordBoundary_outside {ps : List Part} (s : State) (h_ledger : .ledger ∈ ps) (h_drives : .drives ∈ ps) (h_cmds : .cmds ∈ ps) (h_returns : .returns ∈ ps) (h_ints : .ints ∈ ps) (h_link : .link ∈ ps) (h_pair : .pair ∈ ps) (h_daybook : .daybook ∈ ps) (h_hostMem : .hostMem ∈ ps) (h_free : .free ∈ ps) :
    (recordBoundary s).outside ps = s.outside ps := by
  unfold recordBoundary
  repeat' first
    | (simp [h_ledger, h_drives, h_cmds, h_returns, h_ints, h_link, h_pair, h_daybook, h_hostMem, h_free]; done)
    | (rw [outside_foldl])
    | (intro _)
    | simp [h_ledger, h_drives, h_cmds, h_returns, h_ints, h_link, h_pair, h_daybook, h_hostMem, h_free]
    | split

@[simp] theorem takeoverOne_outside {ps : List Part} (s : State) (h_ledger : .ledger ∈ ps) (h_vols : .vols ∈ ps) (h_bands : .bands ∈ ps) (h_plans : .plans ∈ ps) (h_works : .works ∈ ps) (h_nextWork : .nextWork ∈ ps) (h_holds : .holds ∈ ps) (h_drives : .drives ∈ ps) (h_gov : .gov ∈ ps) (h_degrade : .degrade ∈ ps) (h_reshapes : .reshapes ∈ ps) (h_cmds : .cmds ∈ ps) (h_returns : .returns ∈ ps) (h_ints : .ints ∈ ps) (h_link : .link ∈ ps) (h_power : .power ∈ ps) (h_vaults : .vaults ∈ ps) (h_chain : .chain ∈ ps) (h_pair : .pair ∈ ps) (h_daybook : .daybook ∈ ps) (h_map : .map ∈ ps) (h_cache : .cache ∈ ps) (h_hostMem : .hostMem ∈ ps) :
    (takeoverOne s).outside ps = s.outside ps := by
  unfold takeoverOne
  repeat' first
    | (simp [h_ledger, h_vols, h_bands, h_plans, h_works, h_nextWork, h_holds, h_drives, h_gov, h_degrade, h_reshapes, h_cmds, h_returns, h_ints, h_link, h_power, h_vaults, h_chain, h_pair, h_daybook, h_map, h_cache, h_hostMem]; done)
    | (rw [outside_foldl])
    | (intro _)
    | simp [h_ledger, h_vols, h_bands, h_plans, h_works, h_nextWork, h_holds, h_drives, h_gov, h_degrade, h_reshapes, h_cmds, h_returns, h_ints, h_link, h_power, h_vaults, h_chain, h_pair, h_daybook, h_map, h_cache, h_hostMem]
    | split
  all_goals
    have e := congrArg (fun p => State.outside ps p.1) ‹_ = (_, _)›
    simp [h_ledger, h_vols, h_bands, h_plans, h_works, h_nextWork, h_holds, h_drives, h_gov, h_degrade, h_reshapes, h_cmds, h_returns, h_ints, h_link, h_power, h_vaults, h_chain, h_pair, h_daybook, h_map, h_cache, h_hostMem] at e
    simp [h_ledger, h_vols, h_bands, h_plans, h_works, h_nextWork, h_holds, h_drives, h_gov, h_degrade, h_reshapes, h_cmds, h_returns, h_ints, h_link, h_power, h_vaults, h_chain, h_pair, h_daybook, h_map, h_cache, h_hostMem, e]

@[simp] theorem markers_outside {ps : List Part} (s : State) (rings : List Nat) (d : Nat) (h_returns : .returns ∈ ps) (h_free : .free ∈ ps) :
    (markers s rings d).outside ps = s.outside ps := by
  unfold markers
  repeat' first
    | (simp [h_returns, h_free]; done)
    | (rw [outside_foldl])
    | (intro _)
    | simp [h_returns, h_free]
    | split
  all_goals
    have e := congrArg (fun p => State.outside ps p.1) ‹_ = (_, _)›
    simp [h_returns, h_free] at e
    simp [h_returns, h_free, e]

@[simp] theorem takeoverThree_outside {ps : List Part} (s : State) (d : Nat) (h_ledger : .ledger ∈ ps) (h_vols : .vols ∈ ps) (h_drives : .drives ∈ ps) (h_returns : .returns ∈ ps) (h_ints : .ints ∈ ps) (h_link : .link ∈ ps) (h_pair : .pair ∈ ps) (h_daybook : .daybook ∈ ps) (h_hostMem : .hostMem ∈ ps) (h_free : .free ∈ ps) :
    (takeoverThree s d).outside ps = s.outside ps := by
  unfold takeoverThree
  repeat' first
    | (simp [h_ledger, h_vols, h_drives, h_returns, h_ints, h_link, h_pair, h_daybook, h_hostMem, h_free]; done)
    | (rw [outside_foldl])
    | (intro _)
    | simp [h_ledger, h_vols, h_drives, h_returns, h_ints, h_link, h_pair, h_daybook, h_hostMem, h_free]
    | split

@[simp] theorem takeoverBoundary_outside {ps : List Part} (s : State) (h_ledger : .ledger ∈ ps) (h_vols : .vols ∈ ps) (h_bands : .bands ∈ ps) (h_plans : .plans ∈ ps) (h_works : .works ∈ ps) (h_nextWork : .nextWork ∈ ps) (h_holds : .holds ∈ ps) (h_drives : .drives ∈ ps) (h_gov : .gov ∈ ps) (h_degrade : .degrade ∈ ps) (h_reshapes : .reshapes ∈ ps) (h_cmds : .cmds ∈ ps) (h_returns : .returns ∈ ps) (h_ints : .ints ∈ ps) (h_link : .link ∈ ps) (h_power : .power ∈ ps) (h_vaults : .vaults ∈ ps) (h_chain : .chain ∈ ps) (h_pair : .pair ∈ ps) (h_daybook : .daybook ∈ ps) (h_map : .map ∈ ps) (h_cache : .cache ∈ ps) (h_hostMem : .hostMem ∈ ps) (h_free : .free ∈ ps) :
    (takeoverBoundary s).outside ps = s.outside ps := by
  unfold takeoverBoundary
  repeat' first
    | (simp [h_ledger, h_vols, h_bands, h_plans, h_works, h_nextWork, h_holds, h_drives, h_gov, h_degrade, h_reshapes, h_cmds, h_returns, h_ints, h_link, h_power, h_vaults, h_chain, h_pair, h_daybook, h_map, h_cache, h_hostMem, h_free]; done)
    | (rw [outside_foldl])
    | (intro _)
    | simp [h_ledger, h_vols, h_bands, h_plans, h_works, h_nextWork, h_holds, h_drives, h_gov, h_degrade, h_reshapes, h_cmds, h_returns, h_ints, h_link, h_power, h_vaults, h_chain, h_pair, h_daybook, h_map, h_cache, h_hostMem, h_free]
    | split

@[simp] theorem join_outside {ps : List Part} (s : State) (h_ledger : .ledger ∈ ps) (h_drives : .drives ∈ ps) (h_ints : .ints ∈ ps) (h_link : .link ∈ ps) (h_chain : .chain ∈ ps) (h_pair : .pair ∈ ps) (h_daybook : .daybook ∈ ps) (h_hostMem : .hostMem ∈ ps) :
    (join s).outside ps = s.outside ps := by
  unfold join
  repeat' first
    | (simp [h_ledger, h_drives, h_ints, h_link, h_chain, h_pair, h_daybook, h_hostMem]; done)
    | (rw [outside_foldl])
    | (intro _)
    | simp [h_ledger, h_drives, h_ints, h_link, h_chain, h_pair, h_daybook, h_hostMem]
    | split

@[simp] theorem startAudit_outside {ps : List Part} (s : State) (volume : Option Nat) (tag : Option Nat) (h_chain : .chain ∈ ps) (h_pair : .pair ∈ ps) :
    (startAudit s volume tag).outside ps = s.outside ps := by
  unfold startAudit
  repeat' first
    | (simp [h_chain, h_pair]; done)
    | (rw [outside_foldl])
    | (intro _)
    | simp [h_chain, h_pair]
    | split

@[simp] theorem auditRow_outside {ps : List Part} (s : State) (tag : Nat) (h_cmds : .cmds ∈ ps) (h_returns : .returns ∈ ps) (h_chain : .chain ∈ ps) (h_pair : .pair ∈ ps) (h_free : .free ∈ ps) :
    (auditRow s tag).outside ps = s.outside ps := by
  unfold auditRow
  repeat' first
    | (simp [h_cmds, h_returns, h_chain, h_pair, h_free]; done)
    | (rw [outside_foldl])
    | (intro _)
    | simp [h_cmds, h_returns, h_chain, h_pair, h_free]
    | split
  all_goals
    have e := congrArg (fun p => State.outside ps p.1) ‹_ = (_, _)›
    simp [h_cmds, h_returns, h_chain, h_pair, h_free] at e
    simp [h_cmds, h_returns, h_chain, h_pair, h_free, e]

@[simp] theorem standbyAudit_outside {ps : List Part} (s : State) (seq : Nat) (volume : Option Nat) (h_chain : .chain ∈ ps) :
    (standbyAudit s seq volume).outside ps = s.outside ps := by
  unfold standbyAudit
  repeat' first
    | (simp [h_chain]; done)
    | (rw [outside_foldl])
    | (intro _)
    | simp [h_chain]
    | split

@[simp] theorem nextWaiting_outside {ps : List Part} (s : State) (h_cmds : .cmds ∈ ps) (h_returns : .returns ∈ ps) (h_chain : .chain ∈ ps) (h_pair : .pair ∈ ps) :
    (nextWaiting s).outside ps = s.outside ps := by
  unfold nextWaiting
  repeat' first
    | (simp [h_cmds, h_returns, h_chain, h_pair]; done)
    | (rw [outside_foldl])
    | (intro _)
    | simp [h_cmds, h_returns, h_chain, h_pair]
    | split

@[simp] theorem auditEnd_outside {ps : List Part} (s : State) (digests : List (Nat × Nat)) (mapD : Nat) (witness : Nat) (h_cmds : .cmds ∈ ps) (h_returns : .returns ∈ ps) (h_chain : .chain ∈ ps) (h_pair : .pair ∈ ps) (h_daybook : .daybook ∈ ps) :
    (auditEnd s digests mapD witness).outside ps = s.outside ps := by
  unfold auditEnd
  repeat' first
    | (simp [h_cmds, h_returns, h_chain, h_pair, h_daybook]; done)
    | (rw [outside_foldl])
    | (intro _)
    | simp [h_cmds, h_returns, h_chain, h_pair, h_daybook]
    | split

@[simp] theorem streamBook_outside {ps : List Part} (s : State) (v : Verdict) (h_chain : .chain ∈ ps) :
    (streamBook s v).outside ps = s.outside ps := by
  unfold streamBook
  repeat' first
    | (simp [h_chain]; done)
    | (rw [outside_foldl])
    | (intro _)
    | simp [h_chain]
    | split

@[simp] theorem joinFeed_outside {ps : List Part} (s : State) (h_chain : .chain ∈ ps) (h_pair : .pair ∈ ps) :
    (joinFeed s).outside ps = s.outside ps := by
  unfold joinFeed
  repeat' first
    | (simp [h_chain, h_pair]; done)
    | (rw [outside_foldl])
    | (intro _)
    | simp [h_chain, h_pair]
    | split

@[simp] theorem fillSlots_outside {ps : List Part} (s : State) (dir : Nat) (f : Frame) (h_chain : .chain ∈ ps) (h_pair : .pair ∈ ps) :
    (fillSlots s dir f).1.outside ps = s.outside ps := by
  unfold fillSlots
  repeat' first
    | (simp [h_chain, h_pair]; done)
    | (rw [outside_foldl])
    | (intro _)
    | simp [h_chain, h_pair]
    | split

@[simp] theorem modCopy_outside {ps : List Part} (s : State) (seq : Nat) (f : Rec → Rec) (h_ledger : .ledger ∈ ps) :
    (modCopy s seq f).outside ps = s.outside ps := by
  unfold modCopy
  repeat' first
    | (simp [h_ledger]; done)
    | (rw [outside_foldl])
    | (intro _)
    | simp [h_ledger]
    | split

@[simp] theorem copyWhole_outside {ps : List Part} (s : State) (seq : Nat) (h_ledger : .ledger ∈ ps) :
    (copyWhole s seq).outside ps = s.outside ps := by
  unfold copyWhole
  repeat' first
    | (simp [h_ledger]; done)
    | (rw [outside_foldl])
    | (intro _)
    | simp [h_ledger]
    | split

@[simp] theorem writePiece_outside {ps : List Part} (s : State) (seq : Nat) (off : Nat) (w : List Byte) (h_ledger : .ledger ∈ ps) :
    (writePiece s seq off w).outside ps = s.outside ps := by
  unfold writePiece
  repeat' first
    | (simp [h_ledger]; done)
    | (rw [outside_foldl])
    | (intro _)
    | simp [h_ledger]
    | split

@[simp] theorem pieceWord_outside {ps : List Part} (s : State) (seq : Nat) (off : Nat) (w : List Byte) (h_ledger : .ledger ∈ ps) (h_chain : .chain ∈ ps) :
    (pieceWord s seq off w).outside ps = s.outside ps := by
  unfold pieceWord
  repeat' first
    | (simp [h_ledger, h_chain]; done)
    | (rw [outside_foldl])
    | (intro _)
    | simp [h_ledger, h_chain]
    | split

end Sys2Proof.Machine
end

