-- ==== Sys2Proof/Laws/Frame8.lean ====
section
/-! SUPPORT. What each operation leaves as it was: the state outside the parts it works on. -/

namespace Sys2Proof.Machine

set_option linter.all false

@[simp] theorem writeLatePieces_outside {ps : List Part} (s : State) (h_ledger : .ledger ∈ ps) (h_chain : .chain ∈ ps) :
    (writeLatePieces s).outside ps = s.outside ps := by
  unfold writeLatePieces
  repeat' first
    | (simp [h_ledger, h_chain]; done)
    | (rw [outside_foldl])
    | (intro _)
    | simp [h_ledger, h_chain]
    | split

@[simp] theorem bookIn_outside {ps : List Part} (s : State) (close : Nat) (w : List Byte) (h_chain : .chain ∈ ps) (h_pair : .pair ∈ ps) :
    (bookIn s close w).outside ps = s.outside ps := by
  unfold bookIn
  repeat' first
    | (simp [h_chain, h_pair]; done)
    | (rw [outside_foldl])
    | (intro _)
    | simp [h_chain, h_pair]
    | split

theorem streamWord_outside {ps : List Part} {t : State} (s : State) (w : List Byte) (h_ledger : .ledger ∈ ps) (h_chain : .chain ∈ ps) (h_pair : .pair ∈ ps) :
    streamWord s w = some t → t.outside ps = s.outside ps := by
  have key : ∀ (u : State) (b c : Bool), u.outside ps = s.outside ps →
      (if b then ({ u with ledger := { u.ledger with copies := [] }, pair := { u.pair with heldBooks := [], bulkEnded := false } } : State)
        else if c then { u with pair := { u.pair with bulkEnded := true } } else u).outside ps = s.outside ps := by
    intro u b c h
    split
    · simp [h_ledger, h_chain, h_pair, h]
    · split <;> simp [h_ledger, h_chain, h_pair, h]
  unfold streamWord
  intro h
  split at h
  · split at h
    · cases h
    · cases h
      exact key _ _ _ (outside_upd_chain h_chain)
  · cases h
    simp only
    repeat' first
      | (simp [h_ledger, h_chain, h_pair]; done)
      | split

theorem streamWords_outside {ps : List Part} {t : State} (a0 : State) (a1 : List (List Byte)) (h_ledger : .ledger ∈ ps) (h_chain : .chain ∈ ps) (h_pair : .pair ∈ ps) :
    streamWords a0 a1 = some t → t.outside ps = a0.outside ps := by
  intro h
  induction a1 generalizing a0 with
  | nil => cases h; rfl
  | cons w r ih =>
    obtain ⟨u, hu, e⟩ := Option.bind_eq_some_iff.mp h
    exact (ih _ e).trans (streamWord_outside _ _ h_ledger h_chain h_pair hu)

@[simp] theorem takeWords_outside {ps : List Part} (s : State) (restart : Bool) (ws : List (List Byte)) (h_ledger : .ledger ∈ ps) (h_chain : .chain ∈ ps) (h_pair : .pair ∈ ps) :
    (takeWords s restart ws).1.outside ps = s.outside ps := by
  have key : ∀ u t : State, streamWords u ws = some t → t.outside ps = u.outside ps :=
    fun u t h => streamWords_outside _ _ h_ledger h_chain h_pair h
  have main : ∀ u : State, (if u.chain.discard || u.pair.decision.isSome then ((u, 2) : State × Nat)
      else match streamWords u ws with
        | some t => (confirmCopies t, 1)
        | none => ({ u with chain := { u.chain with discard := true } }, 2)).1.outside ps = u.outside ps := by
    intro u
    split
    · rfl
    · split
      · rename_i h
        simp [h_ledger, h_chain, h_pair, key _ _ h]
      · simp [h_ledger, h_chain, h_pair]
  refine (main _).trans ?_
  split <;> simp [h_ledger, h_chain, h_pair]

@[simp] theorem answer_outside {ps : List Part} (own : Nat) (s : State) (f : Frame) (r : Nat × Nat) (h_ledger : .ledger ∈ ps) (h_chain : .chain ∈ ps) (h_pair : .pair ∈ ps) :
    (answer own s f r).1.outside ps = s.outside ps := by
  unfold answer
  repeat' first
    | (simp [h_ledger, h_chain, h_pair]; done)
    | (rw [outside_foldl])
    | (intro _)
    | simp [h_ledger, h_chain, h_pair]
    | split
  all_goals
    have e := congrArg (fun p => State.outside ps p.1) ‹_ = (_, _)›
    simp [h_ledger, h_chain, h_pair] at e
    simp [h_ledger, h_chain, h_pair, e]

@[simp] theorem tokenPass_outside {ps : List Part} (s : State) (map : Nat) (units : Nat) (h_chain : .chain ∈ ps) :
    (tokenPass s map units).1.outside ps = s.outside ps := by
  unfold tokenPass
  repeat' first
    | (simp [h_chain]; done)
    | (rw [outside_foldl])
    | (intro _)
    | simp [h_chain]
    | split

@[simp] theorem sendToken_outside {ps : List Part} (s : State) (h_chain : .chain ∈ ps) :
    (sendToken s).outside ps = s.outside ps := by
  unfold sendToken
  repeat' first
    | (simp [h_chain]; done)
    | (rw [outside_foldl])
    | (intro _)
    | simp [h_chain]
    | split

@[simp] theorem laneSwapArrives_outside {ps : List Part} (s : State) (dir : Nat) (lane : Nat) (frame : Nat) (h_chain : .chain ∈ ps) :
    (laneSwapArrives s dir lane frame).outside ps = s.outside ps := by
  unfold laneSwapArrives
  repeat' first
    | (simp [h_chain]; done)
    | (rw [outside_foldl])
    | (intro _)
    | simp [h_chain]
    | split

@[simp] theorem takeControl_outside {ps : List Part} (s : State) (m : CtlMsg) (h_closers : .closers ∈ ps) (h_ledger : .ledger ∈ ps) (h_chain : .chain ∈ ps) (h_pair : .pair ∈ ps) :
    (takeControl s m).outside ps = s.outside ps := by
  unfold takeControl
  repeat' first
    | (simp [h_closers, h_ledger, h_chain, h_pair]; done)
    | (rw [outside_foldl])
    | (intro _)
    | simp [h_closers, h_ledger, h_chain, h_pair]
    | split

@[simp] theorem controlSlot_outside {ps : List Part} (s : State) (c : Option CtlMsg) (h_closers : .closers ∈ ps) (h_ledger : .ledger ∈ ps) (h_chain : .chain ∈ ps) (h_pair : .pair ∈ ps) :
    (controlSlot s c).1.outside ps = s.outside ps := by
  unfold controlSlot
  repeat' first
    | (simp [h_closers, h_ledger, h_chain, h_pair]; done)
    | (rw [outside_foldl])
    | (intro _)
    | simp [h_closers, h_ledger, h_chain, h_pair]
    | split
  all_goals
    have e := congrArg (fun p => State.outside ps p.1) ‹_ = (_, _)›
    simp [h_closers, h_ledger, h_chain, h_pair] at e
    simp [h_closers, h_ledger, h_chain, h_pair, e]

@[simp] theorem modChLane_outside {ps : List Part} (s : State) (i : Nat) (f : ChainLane → ChainLane) (h_chain : .chain ∈ ps) :
    (modChLane s i f).outside ps = s.outside ps := by
  unfold modChLane
  repeat' first
    | (simp [h_chain]; done)
    | (rw [outside_foldl])
    | (intro _)
    | simp [h_chain]
    | split

@[simp] theorem startSwap_outside {ps : List Part} (s : State) (dir : Nat) (l : Nat) (cause : Nat) (h_chain : .chain ∈ ps) :
    (startSwap s dir l cause).outside ps = s.outside ps := by
  unfold startSwap
  repeat' first
    | (simp [h_chain]; done)
    | (rw [outside_foldl])
    | (intro _)
    | simp [h_chain]
    | split

@[simp] theorem swapIn_outside {ps : List Part} (s : State) (dir : Nat) (l : Nat) (h_ints : .ints ∈ ps) (h_link : .link ∈ ps) (h_chain : .chain ∈ ps) (h_daybook : .daybook ∈ ps) (h_reserves : .reserves ∈ ps) (h_hostMem : .hostMem ∈ ps) :
    (swapIn s dir l).outside ps = s.outside ps := by
  unfold swapIn
  repeat' first
    | (simp [h_ints, h_link, h_chain, h_daybook, h_reserves, h_hostMem]; done)
    | (rw [outside_foldl])
    | (intro _)
    | simp [h_ints, h_link, h_chain, h_daybook, h_reserves, h_hostMem]
    | split

@[simp] theorem badChecks_outside {ps : List Part} (s : State) (dir : Nat) (lanes : List Nat) (h_chain : .chain ∈ ps) :
    (badChecks s dir lanes).outside ps = s.outside ps := by
  unfold badChecks
  repeat' first
    | (simp [h_chain]; done)
    | (rw [outside_foldl])
    | (intro _)
    | simp [h_chain]
    | split

@[simp] theorem ageWindow_outside {ps : List Part} (s : State) (dir : Nat) (h_chain : .chain ∈ ps) :
    (ageWindow s dir).outside ps = s.outside ps := by
  unfold ageWindow
  repeat' first
    | (simp [h_chain]; done)
    | (rw [outside_foldl])
    | (intro _)
    | simp [h_chain]
    | split

@[simp] theorem frameArrives_outside {ps : List Part} (s : State) (dir : Nat) (f : Frame) (h_closers : .closers ∈ ps) (h_ledger : .ledger ∈ ps) (h_drives : .drives ∈ ps) (h_cmds : .cmds ∈ ps) (h_returns : .returns ∈ ps) (h_ints : .ints ∈ ps) (h_cfg : .cfg ∈ ps) (h_link : .link ∈ ps) (h_chain : .chain ∈ ps) (h_pair : .pair ∈ ps) (h_daybook : .daybook ∈ ps) (h_hostMem : .hostMem ∈ ps) (h_free : .free ∈ ps) :
    (frameArrives s dir f).outside ps = s.outside ps := by
  have key : ∀ (own : Nat) (rs : List (Nat × Nat)) (p : State × Frame),
      (rs.foldl (fun (x : State × Frame) r => answer own x.1 x.2 r) p).1.outside ps = p.1.outside ps :=
    fun own rs p => outside_pairFold (fun q x => by simp [h_closers, h_ledger, h_drives, h_cmds, h_returns, h_ints, h_cfg, h_link, h_chain, h_pair, h_daybook, h_hostMem, h_free])
  unfold frameArrives
  simp only
  split
  · simp [h_closers, h_ledger, h_drives, h_cmds, h_returns, h_ints, h_cfg, h_link, h_chain, h_pair, h_daybook, h_hostMem, h_free]
  · repeat' first
      | (simp [h_closers, h_ledger, h_drives, h_cmds, h_returns, h_ints, h_cfg, h_link, h_chain, h_pair, h_daybook, h_hostMem, h_free, key]; done)
      | split

@[simp] theorem frameReturns_outside {ps : List Part} (s : State) (f : Frame) (h_chain : .chain ∈ ps) :
    (frameReturns s f).outside ps = s.outside ps := by
  unfold frameReturns
  repeat' first
    | (simp [h_chain]; done)
    | (rw [outside_foldl])
    | (intro _)
    | simp [h_chain]
    | split

@[simp] theorem setMgmt_outside {ps : List Part} (s : State) (st : Nat) (h_mgmt : .mgmt ∈ ps) :
    (setMgmt s st).outside ps = s.outside ps := by
  unfold setMgmt
  repeat' first
    | (simp [h_mgmt]; done)
    | (rw [outside_foldl])
    | (intro _)
    | simp [h_mgmt]
    | split

@[simp] theorem failingCode_outside {ps : List Part} (s : State) (h_free : .free ∈ ps) :
    (failingCode s).1.outside ps = s.outside ps := by
  unfold failingCode
  repeat' first
    | (simp [h_free]; done)
    | (rw [outside_foldl])
    | (intro _)
    | simp [h_free]
    | split
  all_goals
    have e := congrArg (fun p => State.outside ps p.1) ‹_ = (_, _)›
    simp [h_free] at e
    simp [h_free, e]

@[simp] theorem watchdog_outside {ps : List Part} (s : State) (core : Nat) (passes : Bool) (h_ints : .ints ∈ ps) (h_link : .link ∈ ps) (h_mgmt : .mgmt ∈ ps) (h_daybook : .daybook ∈ ps) (h_hostMem : .hostMem ∈ ps) (h_free : .free ∈ ps) :
    (watchdog s core passes).outside ps = s.outside ps := by
  unfold watchdog
  repeat' first
    | (simp [h_ints, h_link, h_mgmt, h_daybook, h_hostMem, h_free]; done)
    | (rw [outside_foldl])
    | (intro _)
    | simp [h_ints, h_link, h_mgmt, h_daybook, h_hostMem, h_free]
    | split
  all_goals
    have e := congrArg (fun p => State.outside ps p.1) ‹_ = (_, _)›
    simp [h_ints, h_link, h_mgmt, h_daybook, h_hostMem, h_free] at e
    simp [h_ints, h_link, h_mgmt, h_daybook, h_hostMem, h_free, e]

@[simp] theorem firmwareRestartEnd_outside {ps : List Part} (s : State) (h_ledger : .ledger ∈ ps) (h_mgmt : .mgmt ∈ ps) (h_daybook : .daybook ∈ ps) (h_registry : .registry ∈ ps) :
    (firmwareRestartEnd s).outside ps = s.outside ps := by
  unfold firmwareRestartEnd
  repeat' first
    | (simp [h_ledger, h_mgmt, h_daybook, h_registry]; done)
    | (rw [outside_foldl])
    | (intro _)
    | simp [h_ledger, h_mgmt, h_daybook, h_registry]
    | split

@[simp] theorem operatingTick_outside {ps : List Part} (s : State) (h_mgmt : .mgmt ∈ ps) :
    (operatingTick s).outside ps = s.outside ps := by
  unfold operatingTick
  repeat' first
    | (simp [h_mgmt]; done)
    | (rw [outside_foldl])
    | (intro _)
    | simp [h_mgmt]
    | split

@[simp] theorem levelEntered_outside {ps : List Part} (s : State) (i : Nat) (old : Nat) (new : Nat) (throttled : Bool) (h_chip : .chip ∈ ps) (h_closers : .closers ∈ ps) (h_wickets : .wickets ∈ ps) (h_ints : .ints ∈ ps) (h_cfg : .cfg ∈ ps) (h_link : .link ∈ ps) (h_pair : .pair ∈ ps) (h_daybook : .daybook ∈ ps) (h_hostMem : .hostMem ∈ ps) :
    (levelEntered s i old new throttled).outside ps = s.outside ps := by
  unfold levelEntered
  repeat' first
    | (simp [h_chip, h_closers, h_wickets, h_ints, h_cfg, h_link, h_pair, h_daybook, h_hostMem]; done)
    | (rw [outside_foldl])
    | (intro _)
    | simp [h_chip, h_closers, h_wickets, h_ints, h_cfg, h_link, h_pair, h_daybook, h_hostMem]
    | split

@[simp] theorem takeSample_outside {ps : List Part} (s : State) (i : Nat) (aux : Nat) (v : Int) (h_chip : .chip ∈ ps) (h_closers : .closers ∈ ps) (h_wickets : .wickets ∈ ps) (h_ints : .ints ∈ ps) (h_cfg : .cfg ∈ ps) (h_link : .link ∈ ps) (h_pair : .pair ∈ ps) (h_sensors : .sensors ∈ ps) (h_daybook : .daybook ∈ ps) (h_hostMem : .hostMem ∈ ps) :
    (takeSample s i aux v).outside ps = s.outside ps := by
  unfold takeSample
  repeat' first
    | (simp [h_chip, h_closers, h_wickets, h_ints, h_cfg, h_link, h_pair, h_sensors, h_daybook, h_hostMem]; done)
    | (rw [outside_foldl])
    | (intro _)
    | simp [h_chip, h_closers, h_wickets, h_ints, h_cfg, h_link, h_pair, h_sensors, h_daybook, h_hostMem]
    | split

@[simp] theorem sensorSample_outside {ps : List Part} (s : State) (v : Samples) (h_chip : .chip ∈ ps) (h_closers : .closers ∈ ps) (h_wickets : .wickets ∈ ps) (h_ints : .ints ∈ ps) (h_cfg : .cfg ∈ ps) (h_link : .link ∈ ps) (h_pair : .pair ∈ ps) (h_sensors : .sensors ∈ ps) (h_daybook : .daybook ∈ ps) (h_hostMem : .hostMem ∈ ps) :
    (sensorSample s v).outside ps = s.outside ps := by
  unfold sensorSample
  repeat' first
    | (simp [h_chip, h_closers, h_wickets, h_ints, h_cfg, h_link, h_pair, h_sensors, h_daybook, h_hostMem]; done)
    | (rw [outside_foldl])
    | (intro _)
    | simp [h_chip, h_closers, h_wickets, h_ints, h_cfg, h_link, h_pair, h_sensors, h_daybook, h_hostMem]
    | split

@[simp] theorem throttleBoundary_outside {ps : List Part} (s : State) (h_tellers : .tellers ∈ ps) (h_daybook : .daybook ∈ ps) :
    (throttleBoundary s).outside ps = s.outside ps := by
  unfold throttleBoundary
  repeat' first
    | (simp [h_tellers, h_daybook]; done)
    | (rw [outside_foldl])
    | (intro _)
    | simp [h_tellers, h_daybook]
    | split

@[simp] theorem coalesce_outside {ps : List Part} (s : State) (h_daybook : .daybook ∈ ps) :
    (coalesce s).outside ps = s.outside ps := by
  unfold coalesce
  repeat' first
    | (simp [h_daybook]; done)
    | (rw [outside_foldl])
    | (intro _)
    | simp [h_daybook]
    | split

@[simp] theorem recordWritten_outside {ps : List Part} (s : State) (h_ints : .ints ∈ ps) (h_link : .link ∈ ps) (h_daybook : .daybook ∈ ps) (h_hostMem : .hostMem ∈ ps) :
    (recordWritten s).outside ps = s.outside ps := by
  unfold recordWritten
  repeat' first
    | (simp [h_ints, h_link, h_daybook, h_hostMem]; done)
    | (rw [outside_foldl])
    | (intro _)
    | simp [h_ints, h_link, h_daybook, h_hostMem]
    | split

@[simp] theorem ackAlerts_outside {ps : List Part} (s : State) (h_daybook : .daybook ∈ ps) :
    (ackAlerts s).outside ps = s.outside ps := by
  unfold ackAlerts
  repeat' first
    | (simp [h_daybook]; done)
    | (rw [outside_foldl])
    | (intro _)
    | simp [h_daybook]
    | split

@[simp] theorem setCursor_outside {ps : List Part} (s : State) (smbus : Bool) (v : BitVec 64) (h_smbus : .smbus ∈ ps) (h_daybook : .daybook ∈ ps) :
    (setCursor s smbus v).outside ps = s.outside ps := by
  unfold setCursor
  repeat' first
    | (simp [h_smbus, h_daybook]; done)
    | (rw [outside_foldl])
    | (intro _)
    | simp [h_smbus, h_daybook]
    | split

@[simp] theorem modCloser_outside {ps : List Part} (s : State) (n : Nat) (f : Closer → Closer) (h_closers : .closers ∈ ps) :
    (modCloser s n f).outside ps = s.outside ps := by
  unfold modCloser
  repeat' first
    | (simp [h_closers]; done)
    | (rw [outside_foldl])
    | (intro _)
    | simp [h_closers]
    | split

@[simp] theorem cut_outside {ps : List Part} (s : State) (errs : List (Nat × Verdict)) (h_clock : .clock ∈ ps) (h_closers : .closers ∈ ps) :
    (cut s errs).outside ps = s.outside ps := by
  unfold cut
  repeat' first
    | (simp [h_clock, h_closers]; done)
    | (rw [outside_foldl])
    | (intro _)
    | simp [h_clock, h_closers]
    | split

@[simp] theorem vote_outside {ps : List Part} (s : State) (h_chip : .chip ∈ ps) (h_clock : .clock ∈ ps) (h_closers : .closers ∈ ps) (h_wickets : .wickets ∈ ps) (h_ints : .ints ∈ ps) (h_link : .link ∈ ps) (h_pair : .pair ∈ ps) (h_daybook : .daybook ∈ ps) (h_hostMem : .hostMem ∈ ps) :
    (vote s).outside ps = s.outside ps := by
  unfold vote
  repeat' first
    | (simp [h_chip, h_clock, h_closers, h_wickets, h_ints, h_link, h_pair, h_daybook, h_hostMem]; done)
    | (rw [outside_foldl])
    | (intro _)
    | simp [h_chip, h_clock, h_closers, h_wickets, h_ints, h_link, h_pair, h_daybook, h_hostMem]
    | split

@[simp] theorem bookIssue_outside {ps : List Part} (s : State) (h_clock : .clock ∈ ps) (h_closers : .closers ∈ ps) (h_ledger : .ledger ∈ ps) (h_chain : .chain ∈ ps) :
    (bookIssue s).outside ps = s.outside ps := by
  unfold bookIssue
  repeat' first
    | (simp [h_clock, h_closers, h_ledger, h_chain]; done)
    | (rw [outside_foldl])
    | (intro _)
    | simp [h_clock, h_closers, h_ledger, h_chain]
    | split

@[simp] theorem skipBook_outside {ps : List Part} (s : State) (h_closers : .closers ∈ ps) (h_daybook : .daybook ∈ ps) :
    (skipBook s).outside ps = s.outside ps := by
  unfold skipBook
  repeat' first
    | (simp [h_closers, h_daybook]; done)
    | (rw [outside_foldl])
    | (intro _)
    | simp [h_closers, h_daybook]
    | split

@[simp] theorem modBook_outside {ps : List Part} (s : State) (close : Nat) (f : Book → Book) (h_closers : .closers ∈ ps) :
    (modBook s close f).outside ps = s.outside ps := by
  unfold modBook
  repeat' first
    | (simp [h_closers]; done)
    | (rw [outside_foldl])
    | (intro _)
    | simp [h_closers]
    | split

@[simp] theorem bookReadback_outside {ps : List Part} (s : State) (good : Bool) (h_closers : .closers ∈ ps) :
    (bookReadback s good).outside ps = s.outside ps := by
  unfold bookReadback
  repeat' first
    | (simp [h_closers]; done)
    | (rw [outside_foldl])
    | (intro _)
    | simp [h_closers]
    | split

@[simp] theorem bookRewrite_outside {ps : List Part} (s : State) (h_closers : .closers ∈ ps) :
    (bookRewrite s).outside ps = s.outside ps := by
  unfold bookRewrite
  repeat' first
    | (simp [h_closers]; done)
    | (rw [outside_foldl])
    | (intro _)
    | simp [h_closers]
    | split

@[simp] theorem retireCloser_outside {ps : List Part} (s : State) (n : Nat) (h_closers : .closers ∈ ps) (h_ints : .ints ∈ ps) (h_link : .link ∈ ps) (h_daybook : .daybook ∈ ps) (h_reserves : .reserves ∈ ps) (h_hostMem : .hostMem ∈ ps) :
    (retireCloser s n).outside ps = s.outside ps := by
  unfold retireCloser
  repeat' first
    | (simp [h_closers, h_ints, h_link, h_daybook, h_reserves, h_hostMem]; done)
    | (rw [outside_foldl])
    | (intro _)
    | simp [h_closers, h_ints, h_link, h_daybook, h_reserves, h_hostMem]
    | split

@[simp] theorem withdrawCloser_outside {ps : List Part} (s : State) (h_closers : .closers ∈ ps) (h_ints : .ints ∈ ps) (h_link : .link ∈ ps) (h_daybook : .daybook ∈ ps) (h_reserves : .reserves ∈ ps) (h_hostMem : .hostMem ∈ ps) :
    (withdrawCloser s).outside ps = s.outside ps := by
  unfold withdrawCloser
  repeat' first
    | (simp [h_closers, h_ints, h_link, h_daybook, h_reserves, h_hostMem]; done)
    | (rw [outside_foldl])
    | (intro _)
    | simp [h_closers, h_ints, h_link, h_daybook, h_reserves, h_hostMem]
    | split

@[simp] theorem admitCloser_outside {ps : List Part} (s : State) (h_closers : .closers ∈ ps) (h_ints : .ints ∈ ps) (h_link : .link ∈ ps) (h_daybook : .daybook ∈ ps) (h_reserves : .reserves ∈ ps) (h_hostMem : .hostMem ∈ ps) :
    (admitCloser s).outside ps = s.outside ps := by
  unfold admitCloser
  repeat' first
    | (simp [h_closers, h_ints, h_link, h_daybook, h_reserves, h_hostMem]; done)
    | (rw [outside_foldl])
    | (intro _)
    | simp [h_closers, h_ints, h_link, h_daybook, h_reserves, h_hostMem]
    | split

@[simp] theorem closerMode_outside {ps : List Part} (s : State) (h_closers : .closers ∈ ps) (h_ints : .ints ∈ ps) (h_link : .link ∈ ps) (h_daybook : .daybook ∈ ps) (h_hostMem : .hostMem ∈ ps) :
    (closerMode s).outside ps = s.outside ps := by
  unfold closerMode
  repeat' first
    | (simp [h_closers, h_ints, h_link, h_daybook, h_hostMem]; done)
    | (rw [outside_foldl])
    | (intro _)
    | simp [h_closers, h_ints, h_link, h_daybook, h_hostMem]
    | split

@[simp] theorem closerBoundary_outside {ps : List Part} (s : State) (h_closers : .closers ∈ ps) (h_ints : .ints ∈ ps) (h_link : .link ∈ ps) (h_daybook : .daybook ∈ ps) (h_reserves : .reserves ∈ ps) (h_hostMem : .hostMem ∈ ps) :
    (closerBoundary s).outside ps = s.outside ps := by
  unfold closerBoundary
  repeat' first
    | (simp [h_closers, h_ints, h_link, h_daybook, h_reserves, h_hostMem]; done)
    | (rw [outside_foldl])
    | (intro _)
    | simp [h_closers, h_ints, h_link, h_daybook, h_reserves, h_hostMem]
    | split

@[simp] theorem flashRefused_outside {ps : List Part} (s : State) (result : Nat) (h_flash : .flash ∈ ps) :
    (flashRefused s result).outside ps = s.outside ps := by
  unfold flashRefused
  repeat' first
    | (simp [h_flash]; done)
    | (rw [outside_foldl])
    | (intro _)
    | simp [h_flash]
    | split

@[simp] theorem freeBytes_outside {ps : List Part} (s : State) (n : Nat) (h_free : .free ∈ ps) :
    (freeBytes s n).1.outside ps = s.outside ps := by
  unfold freeBytes
  repeat' first
    | (simp [h_free]; done)
    | (rw [outside_foldl])
    | (intro _)
    | simp [h_free]
    | split

@[simp] theorem flashAct_outside {ps : List Part} (s : State) (op : Nat) (good : Bool) (h_flash : .flash ∈ ps) (h_free : .free ∈ ps) :
    (flashAct s op good).outside ps = s.outside ps := by
  unfold flashAct
  split
  · split
    · exact flashEraseArea_outside _ _ _ h_flash
    · exact flashWrite_outside _ _ _ _ h_flash h_free
  · split
    · exact flashWrite_outside _ _ _ _ h_flash h_free
    · refine (outside_upd_flash h_flash).trans ?_
      cases good
      · exact freeBytes_outside _ _ h_free
      · rfl

@[simp] theorem startFlash_outside {ps : List Part} (s : State) (op : Nat) (good : Bool) (h_flash : .flash ∈ ps) (h_free : .free ∈ ps) :
    (startFlash s op good).outside ps = s.outside ps := by
  unfold startFlash
  repeat' first
    | (simp [h_flash, h_free]; done)
    | (rw [outside_foldl])
    | (intro _)
    | simp [h_flash, h_free]
    | split

@[simp] theorem fuseRefused_outside {ps : List Part} (s : State) (result : Nat) (h_fuses : .fuses ∈ ps) :
    (fuseRefused s result).outside ps = s.outside ps := by
  unfold fuseRefused
  repeat' first
    | (simp [h_fuses]; done)
    | (rw [outside_foldl])
    | (intro _)
    | simp [h_fuses]
    | split

@[simp] theorem programKey_outside {ps : List Part} (s : State) (n : Nat) (good : Bool) (h_fuses : .fuses ∈ ps) :
    (programKey s n good).outside ps = s.outside ps := by
  unfold programKey
  repeat' first
    | (simp [h_fuses]; done)
    | (rw [outside_foldl])
    | (intro _)
    | simp [h_fuses]
    | split

@[simp] theorem revokeKey_outside {ps : List Part} (s : State) (n : Nat) (h_fuses : .fuses ∈ ps) :
    (revokeKey s n).outside ps = s.outside ps := by
  unfold revokeKey
  repeat' first
    | (simp [h_fuses]; done)
    | (rw [outside_foldl])
    | (intro _)
    | simp [h_fuses]
    | split

@[simp] theorem startFuse_outside {ps : List Part} (s : State) (op : Nat) (good : Bool) (h_fuses : .fuses ∈ ps) :
    (startFuse s op good).outside ps = s.outside ps := by
  unfold startFuse
  repeat' first
    | (simp [h_fuses]; done)
    | (rw [outside_foldl])
    | (intro _)
    | simp [h_fuses]
    | split

@[simp] theorem advanceCounter_outside {ps : List Part} (s : State) (kind : Nat) (target : Nat) (seq : Nat) (h_fuses : .fuses ∈ ps) (h_daybook : .daybook ∈ ps) :
    (advanceCounter s kind target seq).outside ps = s.outside ps := by
  unfold advanceCounter
  repeat' first
    | (simp [h_fuses, h_daybook]; done)
    | (rw [outside_foldl])
    | (intro _)
    | simp [h_fuses, h_daybook]
    | split

@[simp] theorem fuseAdvance_outside {ps : List Part} (s : State) (h_chip : .chip ∈ ps) (h_fuses : .fuses ∈ ps) (h_daybook : .daybook ∈ ps) :
    (fuseAdvance s).outside ps = s.outside ps := by
  unfold fuseAdvance
  repeat' first
    | (simp [h_chip, h_fuses, h_daybook]; done)
    | (rw [outside_foldl])
    | (intro _)
    | simp [h_chip, h_fuses, h_daybook]
    | split

@[simp] theorem advancePart_outside {ps : List Part} (s : State) (kind : Nat) (target : Nat) (h_fuses : .fuses ∈ ps) (h_free : .free ∈ ps) :
    (advancePart s kind target).outside ps = s.outside ps := by
  unfold advancePart
  repeat' first
    | (simp [h_fuses, h_free]; done)
    | (rw [outside_foldl])
    | (intro _)
    | simp [h_fuses, h_free]
    | split
  all_goals
    have e := congrArg (fun p => State.outside ps p.1) ‹_ = (_, _)›
    simp [h_fuses, h_free] at e
    simp [h_fuses, h_free, e]

@[simp] theorem fuseCut_outside {ps : List Part} (s : State) (h_fuses : .fuses ∈ ps) (h_free : .free ∈ ps) :
    (fuseCut s).outside ps = s.outside ps := by
  unfold fuseCut
  repeat' first
    | (simp [h_fuses, h_free]; done)
    | (rw [outside_foldl])
    | (intro _)
    | simp [h_fuses, h_free]
    | split

@[simp] theorem flashCut_outside {ps : List Part} (s : State) (h_flash : .flash ∈ ps) (h_free : .free ∈ ps) :
    (flashCut s).outside ps = s.outside ps := by
  unfold flashCut
  repeat' first
    | (simp [h_flash, h_free]; done)
    | (rw [outside_foldl])
    | (intro _)
    | simp [h_flash, h_free]
    | split

@[simp] theorem dramEvent_outside {ps : List Part} (s : State) (row : Nat) (correctable : Bool) (h_reserves : .reserves ∈ ps) :
    (dramEvent s row correctable).outside ps = s.outside ps := by
  unfold dramEvent
  repeat' first
    | (simp [h_reserves]; done)
    | (rw [outside_foldl])
    | (intro _)
    | simp [h_reserves]
    | split

@[simp] theorem dramRepairRow_outside {ps : List Part} (s : State) (row : Nat) (resource : Bool) (h_ints : .ints ∈ ps) (h_link : .link ∈ ps) (h_daybook : .daybook ∈ ps) (h_reserves : .reserves ∈ ps) (h_hostMem : .hostMem ∈ ps) :
    (dramRepairRow s row resource).outside ps = s.outside ps := by
  unfold dramRepairRow
  repeat' first
    | (simp [h_ints, h_link, h_daybook, h_reserves, h_hostMem]; done)
    | (rw [outside_foldl])
    | (intro _)
    | simp [h_ints, h_link, h_daybook, h_reserves, h_hostMem]
    | split

@[simp] theorem carried_outside {ps : List Part} (s : State) (h_chip : .chip ∈ ps) (h_fuses : .fuses ∈ ps) (h_flash : .flash ∈ ps) (h_charter : .charter ∈ ps) (h_clock : .clock ∈ ps) (h_closers : .closers ∈ ps) (h_ledger : .ledger ∈ ps) (h_vols : .vols ∈ ps) (h_bands : .bands ∈ ps) (h_plans : .plans ∈ ps) (h_works : .works ∈ ps) (h_nextWork : .nextWork ∈ ps) (h_holds : .holds ∈ ps) (h_drives : .drives ∈ ps) (h_sas : .sas ∈ ps) (h_gov : .gov ∈ ps) (h_degrade : .degrade ∈ ps) (h_reshapes : .reshapes ∈ ps) (h_tellers : .tellers ∈ ps) (h_scratch : .scratch ∈ ps) (h_wickets : .wickets ∈ ps) (h_cmds : .cmds ∈ ps) (h_returns : .returns ∈ ps) (h_ints : .ints ∈ ps) (h_cfg : .cfg ∈ ps) (h_link : .link ∈ ps) (h_power : .power ∈ ps) (h_resets : .resets ∈ ps) (h_feats : .feats ∈ ps) (h_vaults : .vaults ∈ ps) (h_chain : .chain ∈ ps) (h_pair : .pair ∈ ps) (h_mgmt : .mgmt ∈ ps) (h_sensors : .sensors ∈ ps) (h_smbus : .smbus ∈ ps) (h_daybook : .daybook ∈ ps) (h_reserves : .reserves ∈ ps) (h_courier : .courier ∈ ps) (h_map : .map ∈ ps) (h_registry : .registry ∈ ps) (h_dram : .dram ∈ ps) (h_cache : .cache ∈ ps) (h_heldLow : .heldLow ∈ ps) (h_latched : .latched ∈ ps) (h_rsp : .rsp ∈ ps) (h_smbRsp : .smbRsp ∈ ps) :
    (carried s).outside ps = s.outside ps := by
  simp [carried, State.outside, h_chip, h_fuses, h_flash, h_charter, h_clock, h_closers, h_ledger, h_vols, h_bands, h_plans, h_works, h_nextWork, h_holds, h_drives, h_sas, h_gov, h_degrade, h_reshapes, h_tellers, h_scratch, h_wickets, h_cmds, h_returns, h_ints, h_cfg, h_link, h_power, h_resets, h_feats, h_vaults, h_chain, h_pair, h_mgmt, h_sensors, h_smbus, h_daybook, h_reserves, h_courier, h_map, h_registry, h_dram, h_cache, h_heldLow, h_latched, h_rsp, h_smbRsp]

@[simp] theorem recovery_outside {ps : List Part} (s : State) (reason : Nat) (at3 : Bool) (h_chip : .chip ∈ ps) (h_ints : .ints ∈ ps) :
    (recovery s reason at3).outside ps = s.outside ps := by
  unfold recovery
  repeat' first
    | (simp [h_chip, h_ints]; done)
    | (rw [outside_foldl])
    | (intro _)
    | simp [h_chip, h_ints]
    | split

@[simp] theorem testClosers_outside {ps : List Part} (s : State) (pass : List Bool) (h_closers : .closers ∈ ps) (h_ints : .ints ∈ ps) (h_link : .link ∈ ps) (h_daybook : .daybook ∈ ps) (h_reserves : .reserves ∈ ps) (h_hostMem : .hostMem ∈ ps) :
    (testClosers s pass).outside ps = s.outside ps := by
  unfold testClosers
  repeat' first
    | (simp [h_closers, h_ints, h_link, h_daybook, h_reserves, h_hostMem]; done)
    | (rw [outside_foldl])
    | (intro _)
    | simp [h_closers, h_ints, h_link, h_daybook, h_reserves, h_hostMem]
    | split

@[simp] theorem loadCharter_outside {ps : List Part} (s : State) (c : Charter) (slot : Nat) (h_chip : .chip ∈ ps) (h_charter : .charter ∈ ps) (h_ledger : .ledger ∈ ps) (h_vols : .vols ∈ ps) (h_sas : .sas ∈ ps) (h_gov : .gov ∈ ps) (h_vaults : .vaults ∈ ps) :
    (loadCharter s c slot).outside ps = s.outside ps := by
  unfold loadCharter
  repeat' first
    | (simp [h_chip, h_charter, h_ledger, h_vols, h_sas, h_gov, h_vaults]; done)
    | (rw [outside_foldl])
    | (intro _)
    | simp [h_chip, h_charter, h_ledger, h_vols, h_sas, h_gov, h_vaults]
    | split

@[simp] theorem chooseCharter_outside {ps : List Part} (s : State) (h_chip : .chip ∈ ps) (h_charter : .charter ∈ ps) (h_ledger : .ledger ∈ ps) (h_vols : .vols ∈ ps) (h_sas : .sas ∈ ps) (h_gov : .gov ∈ ps) (h_ints : .ints ∈ ps) (h_vaults : .vaults ∈ ps) :
    (chooseCharter s).outside ps = s.outside ps := by
  unfold chooseCharter
  repeat' first
    | (simp [h_chip, h_charter, h_ledger, h_vols, h_sas, h_gov, h_ints, h_vaults]; done)
    | (rw [outside_foldl])
    | (intro _)
    | simp [h_chip, h_charter, h_ledger, h_vols, h_sas, h_gov, h_ints, h_vaults]
    | split

@[simp] theorem startUp_outside {ps : List Part} (s : State) (chip : Chip) (pass : List Bool) (h_chip : .chip ∈ ps) (h_fuses : .fuses ∈ ps) (h_flash : .flash ∈ ps) (h_charter : .charter ∈ ps) (h_clock : .clock ∈ ps) (h_closers : .closers ∈ ps) (h_ledger : .ledger ∈ ps) (h_vols : .vols ∈ ps) (h_bands : .bands ∈ ps) (h_plans : .plans ∈ ps) (h_works : .works ∈ ps) (h_nextWork : .nextWork ∈ ps) (h_holds : .holds ∈ ps) (h_drives : .drives ∈ ps) (h_sas : .sas ∈ ps) (h_gov : .gov ∈ ps) (h_degrade : .degrade ∈ ps) (h_reshapes : .reshapes ∈ ps) (h_tellers : .tellers ∈ ps) (h_scratch : .scratch ∈ ps) (h_wickets : .wickets ∈ ps) (h_cmds : .cmds ∈ ps) (h_returns : .returns ∈ ps) (h_ints : .ints ∈ ps) (h_cfg : .cfg ∈ ps) (h_link : .link ∈ ps) (h_power : .power ∈ ps) (h_resets : .resets ∈ ps) (h_feats : .feats ∈ ps) (h_vaults : .vaults ∈ ps) (h_chain : .chain ∈ ps) (h_pair : .pair ∈ ps) (h_mgmt : .mgmt ∈ ps) (h_sensors : .sensors ∈ ps) (h_smbus : .smbus ∈ ps) (h_daybook : .daybook ∈ ps) (h_reserves : .reserves ∈ ps) (h_courier : .courier ∈ ps) (h_map : .map ∈ ps) (h_registry : .registry ∈ ps) (h_dram : .dram ∈ ps) (h_cache : .cache ∈ ps) (h_hostMem : .hostMem ∈ ps) (h_heldLow : .heldLow ∈ ps) (h_latched : .latched ∈ ps) (h_rsp : .rsp ∈ ps) (h_smbRsp : .smbRsp ∈ ps) :
    (startUp s chip pass).outside ps = s.outside ps := by
  unfold startUp
  repeat' first
    | (simp [h_chip, h_fuses, h_flash, h_charter, h_clock, h_closers, h_ledger, h_vols, h_bands, h_plans, h_works, h_nextWork, h_holds, h_drives, h_sas, h_gov, h_degrade, h_reshapes, h_tellers, h_scratch, h_wickets, h_cmds, h_returns, h_ints, h_cfg, h_link, h_power, h_resets, h_feats, h_vaults, h_chain, h_pair, h_mgmt, h_sensors, h_smbus, h_daybook, h_reserves, h_courier, h_map, h_registry, h_dram, h_cache, h_hostMem, h_heldLow, h_latched, h_rsp, h_smbRsp]; done)
    | (rw [outside_foldl])
    | (intro _)
    | simp [h_chip, h_fuses, h_flash, h_charter, h_clock, h_closers, h_ledger, h_vols, h_bands, h_plans, h_works, h_nextWork, h_holds, h_drives, h_sas, h_gov, h_degrade, h_reshapes, h_tellers, h_scratch, h_wickets, h_cmds, h_returns, h_ints, h_cfg, h_link, h_power, h_resets, h_feats, h_vaults, h_chain, h_pair, h_mgmt, h_sensors, h_smbus, h_daybook, h_reserves, h_courier, h_map, h_registry, h_dram, h_cache, h_hostMem, h_heldLow, h_latched, h_rsp, h_smbRsp]
    | split

@[simp] theorem placeTellers_outside {ps : List Part} (s : State) (failing : List Nat) (h_tellers : .tellers ∈ ps) (h_ints : .ints ∈ ps) (h_link : .link ∈ ps) (h_daybook : .daybook ∈ ps) (h_reserves : .reserves ∈ ps) (h_hostMem : .hostMem ∈ ps) :
    (placeTellers s failing).outside ps = s.outside ps := by
  unfold placeTellers
  repeat' first
    | (simp [h_tellers, h_ints, h_link, h_daybook, h_reserves, h_hostMem]; done)
    | (rw [outside_foldl])
    | (intro _)
    | simp [h_tellers, h_ints, h_link, h_daybook, h_reserves, h_hostMem]
    | split

@[simp] theorem placeBanks_outside {ps : List Part} (s : State) (h_scratch : .scratch ∈ ps) :
    (placeBanks s).outside ps = s.outside ps := by
  unfold placeBanks
  repeat' first
    | (simp [h_scratch]; done)
    | (rw [outside_foldl])
    | (intro _)
    | simp [h_scratch]
    | split

@[simp] theorem placeWays_outside {ps : List Part} (s : State) (h_map : .map ∈ ps) :
    (placeWays s).outside ps = s.outside ps := by
  unfold placeWays
  repeat' first
    | (simp [h_map]; done)
    | (rw [outside_foldl])
    | (intro _)
    | simp [h_map]
    | split

@[simp] theorem startFirmware_outside {ps : List Part} (s : State) (k : Nat) (failing : List Nat) (h_chip : .chip ∈ ps) (h_closers : .closers ∈ ps) (h_tellers : .tellers ∈ ps) (h_scratch : .scratch ∈ ps) (h_wickets : .wickets ∈ ps) (h_ints : .ints ∈ ps) (h_link : .link ∈ ps) (h_chain : .chain ∈ ps) (h_pair : .pair ∈ ps) (h_mgmt : .mgmt ∈ ps) (h_daybook : .daybook ∈ ps) (h_reserves : .reserves ∈ ps) (h_map : .map ∈ ps) (h_hostMem : .hostMem ∈ ps) :
    (startFirmware s k failing).outside ps = s.outside ps := by
  unfold startFirmware
  repeat' first
    | (simp [h_chip, h_closers, h_tellers, h_scratch, h_wickets, h_ints, h_link, h_chain, h_pair, h_mgmt, h_daybook, h_reserves, h_map, h_hostMem]; done)
    | (rw [outside_foldl])
    | (intro _)
    | simp [h_chip, h_closers, h_tellers, h_scratch, h_wickets, h_ints, h_link, h_chain, h_pair, h_mgmt, h_daybook, h_reserves, h_map, h_hostMem]
    | split

@[simp] theorem firmwareChoice_outside {ps : List Part} (s : State) (a : DramFinding) (b : DramFinding) (failing : List Nat) (h_chip : .chip ∈ ps) (h_closers : .closers ∈ ps) (h_tellers : .tellers ∈ ps) (h_scratch : .scratch ∈ ps) (h_wickets : .wickets ∈ ps) (h_ints : .ints ∈ ps) (h_link : .link ∈ ps) (h_chain : .chain ∈ ps) (h_pair : .pair ∈ ps) (h_mgmt : .mgmt ∈ ps) (h_daybook : .daybook ∈ ps) (h_reserves : .reserves ∈ ps) (h_map : .map ∈ ps) (h_hostMem : .hostMem ∈ ps) :
    (firmwareChoice s a b failing).outside ps = s.outside ps := by
  unfold firmwareChoice
  repeat' first
    | (simp [h_chip, h_closers, h_tellers, h_scratch, h_wickets, h_ints, h_link, h_chain, h_pair, h_mgmt, h_daybook, h_reserves, h_map, h_hostMem]; done)
    | (rw [outside_foldl])
    | (intro _)
    | simp [h_chip, h_closers, h_tellers, h_scratch, h_wickets, h_ints, h_link, h_chain, h_pair, h_mgmt, h_daybook, h_reserves, h_map, h_hostMem]
    | split

@[simp] theorem enumerationEnd_outside {ps : List Part} (s : State) (lap : Nat) (h_chip : .chip ∈ ps) (h_chain : .chain ∈ ps) (h_daybook : .daybook ∈ ps) :
    (enumerationEnd s lap).outside ps = s.outside ps := by
  unfold enumerationEnd
  repeat' first
    | (simp [h_chip, h_chain, h_daybook]; done)
    | (rw [outside_foldl])
    | (intro _)
    | simp [h_chip, h_chain, h_daybook]
    | split

@[simp] theorem formatLedger_outside {ps : List Part} (s : State) (h_closers : .closers ∈ ps) (h_ledger : .ledger ∈ ps) (h_bands : .bands ∈ ps) (h_vaults : .vaults ∈ ps) (h_daybook : .daybook ∈ ps) (h_reserves : .reserves ∈ ps) :
    (formatLedger s).outside ps = s.outside ps := by
  unfold formatLedger
  repeat' first
    | (simp [h_closers, h_ledger, h_bands, h_vaults, h_daybook, h_reserves]; done)
    | (rw [outside_foldl])
    | (intro _)
    | simp [h_closers, h_ledger, h_bands, h_vaults, h_daybook, h_reserves]
    | split

@[simp] theorem loseLedger_outside {ps : List Part} (s : State) (h_chip : .chip ∈ ps) (h_closers : .closers ∈ ps) (h_ledger : .ledger ∈ ps) (h_vols : .vols ∈ ps) (h_bands : .bands ∈ ps) (h_degrade : .degrade ∈ ps) (h_reshapes : .reshapes ∈ ps) (h_vaults : .vaults ∈ ps) (h_mgmt : .mgmt ∈ ps) (h_daybook : .daybook ∈ ps) (h_reserves : .reserves ∈ ps) :
    (loseLedger s).outside ps = s.outside ps := by
  unfold loseLedger
  repeat' first
    | (simp [h_chip, h_closers, h_ledger, h_vols, h_bands, h_degrade, h_reshapes, h_vaults, h_mgmt, h_daybook, h_reserves]; done)
    | (rw [outside_foldl])
    | (intro _)
    | simp [h_chip, h_closers, h_ledger, h_vols, h_bands, h_degrade, h_reshapes, h_vaults, h_mgmt, h_daybook, h_reserves]
    | split

@[simp] theorem replayOne_outside {ps : List Part} (s : State) (r : Rec) (h_ledger : .ledger ∈ ps) (h_vols : .vols ∈ ps) (h_bands : .bands ∈ ps) (h_plans : .plans ∈ ps) (h_works : .works ∈ ps) (h_nextWork : .nextWork ∈ ps) (h_holds : .holds ∈ ps) (h_drives : .drives ∈ ps) (h_gov : .gov ∈ ps) (h_degrade : .degrade ∈ ps) (h_reshapes : .reshapes ∈ ps) (h_cmds : .cmds ∈ ps) (h_returns : .returns ∈ ps) (h_power : .power ∈ ps) (h_vaults : .vaults ∈ ps) (h_daybook : .daybook ∈ ps) (h_cache : .cache ∈ ps) :
    (replayOne s r).outside ps = s.outside ps := by
  unfold replayOne
  repeat' first
    | (simp [h_ledger, h_vols, h_bands, h_plans, h_works, h_nextWork, h_holds, h_drives, h_gov, h_degrade, h_reshapes, h_cmds, h_returns, h_power, h_vaults, h_daybook, h_cache]; done)
    | (rw [outside_foldl])
    | (intro _)
    | simp [h_ledger, h_vols, h_bands, h_plans, h_works, h_nextWork, h_holds, h_drives, h_gov, h_degrade, h_reshapes, h_cmds, h_returns, h_power, h_vaults, h_daybook, h_cache]
    | split

@[simp] theorem replay_outside {ps : List Part} (s : State) (h_closers : .closers ∈ ps) (h_ledger : .ledger ∈ ps) (h_vols : .vols ∈ ps) (h_bands : .bands ∈ ps) (h_plans : .plans ∈ ps) (h_works : .works ∈ ps) (h_nextWork : .nextWork ∈ ps) (h_holds : .holds ∈ ps) (h_drives : .drives ∈ ps) (h_gov : .gov ∈ ps) (h_degrade : .degrade ∈ ps) (h_reshapes : .reshapes ∈ ps) (h_cmds : .cmds ∈ ps) (h_returns : .returns ∈ ps) (h_power : .power ∈ ps) (h_vaults : .vaults ∈ ps) (h_mgmt : .mgmt ∈ ps) (h_daybook : .daybook ∈ ps) (h_cache : .cache ∈ ps) :
    (replay s).outside ps = s.outside ps := by
  unfold replay
  repeat' first
    | (simp [h_closers, h_ledger, h_vols, h_bands, h_plans, h_works, h_nextWork, h_holds, h_drives, h_gov, h_degrade, h_reshapes, h_cmds, h_returns, h_power, h_vaults, h_mgmt, h_daybook, h_cache]; done)
    | (rw [outside_foldl])
    | (intro _)
    | simp [h_closers, h_ledger, h_vols, h_bands, h_plans, h_works, h_nextWork, h_holds, h_drives, h_gov, h_degrade, h_reshapes, h_cmds, h_returns, h_power, h_vaults, h_mgmt, h_daybook, h_cache]
    | split

end Sys2Proof.Machine
end

