-- ==== Sys2Proof/Laws/Frame9.lean ====
section
/-! SUPPORT. What each operation leaves as it was: the state outside the parts it works on. -/

namespace Sys2Proof.Machine

set_option linter.all false

@[simp] theorem reapplyRepairs_outside {ps : List Part} (s : State) (h_ints : .ints ∈ ps) (h_link : .link ∈ ps) (h_daybook : .daybook ∈ ps) (h_reserves : .reserves ∈ ps) (h_hostMem : .hostMem ∈ ps) :
    (reapplyRepairs s).outside ps = s.outside ps := by
  unfold reapplyRepairs
  repeat' first
    | (simp [h_ints, h_link, h_daybook, h_reserves, h_hostMem]; done)
    | (rw [outside_foldl])
    | (intro _)
    | simp [h_ints, h_link, h_daybook, h_reserves, h_hostMem]
    | split

@[simp] theorem queuePasses_outside {ps : List Part} (s : State) (h_drives : .drives ∈ ps) (h_degrade : .degrade ∈ ps) (h_reshapes : .reshapes ∈ ps) (h_daybook : .daybook ∈ ps) :
    (queuePasses s).outside ps = s.outside ps := by
  unfold queuePasses
  repeat' first
    | (simp [h_drives, h_degrade, h_reshapes, h_daybook]; done)
    | (rw [outside_foldl])
    | (intro _)
    | simp [h_drives, h_degrade, h_reshapes, h_daybook]
    | split

@[simp] theorem ledgerRecovery_outside {ps : List Part} (s : State) (readable : Bool) (h_chip : .chip ∈ ps) (h_closers : .closers ∈ ps) (h_ledger : .ledger ∈ ps) (h_vols : .vols ∈ ps) (h_bands : .bands ∈ ps) (h_plans : .plans ∈ ps) (h_works : .works ∈ ps) (h_nextWork : .nextWork ∈ ps) (h_holds : .holds ∈ ps) (h_drives : .drives ∈ ps) (h_gov : .gov ∈ ps) (h_degrade : .degrade ∈ ps) (h_reshapes : .reshapes ∈ ps) (h_cmds : .cmds ∈ ps) (h_returns : .returns ∈ ps) (h_ints : .ints ∈ ps) (h_link : .link ∈ ps) (h_power : .power ∈ ps) (h_vaults : .vaults ∈ ps) (h_mgmt : .mgmt ∈ ps) (h_daybook : .daybook ∈ ps) (h_reserves : .reserves ∈ ps) (h_cache : .cache ∈ ps) (h_hostMem : .hostMem ∈ ps) :
    (ledgerRecovery s readable).outside ps = s.outside ps := by
  unfold ledgerRecovery
  repeat' first
    | (simp [h_chip, h_closers, h_ledger, h_vols, h_bands, h_plans, h_works, h_nextWork, h_holds, h_drives, h_gov, h_degrade, h_reshapes, h_cmds, h_returns, h_ints, h_link, h_power, h_vaults, h_mgmt, h_daybook, h_reserves, h_cache, h_hostMem]; done)
    | (rw [outside_foldl])
    | (intro _)
    | simp [h_chip, h_closers, h_ledger, h_vols, h_bands, h_plans, h_works, h_nextWork, h_holds, h_drives, h_gov, h_degrade, h_reshapes, h_cmds, h_returns, h_ints, h_link, h_power, h_vaults, h_mgmt, h_daybook, h_reserves, h_cache, h_hostMem]
    | split

@[simp] theorem endStepSeven_outside {ps : List Part} (s : State) (h_chip : .chip ∈ ps) (h_ledger : .ledger ∈ ps) (h_drives : .drives ∈ ps) (h_ints : .ints ∈ ps) (h_link : .link ∈ ps) (h_chain : .chain ∈ ps) (h_pair : .pair ∈ ps) (h_daybook : .daybook ∈ ps) (h_hostMem : .hostMem ∈ ps) :
    (endStepSeven s).outside ps = s.outside ps := by
  unfold endStepSeven
  repeat' first
    | (simp [h_chip, h_ledger, h_drives, h_ints, h_link, h_chain, h_pair, h_daybook, h_hostMem]; done)
    | (rw [outside_foldl])
    | (intro _)
    | simp [h_chip, h_ledger, h_drives, h_ints, h_link, h_chain, h_pair, h_daybook, h_hostMem]
    | split

@[simp] theorem compareBooks_outside {ps : List Part} (s : State) (h_ledger : .ledger ∈ ps) (h_vols : .vols ∈ ps) (h_plans : .plans ∈ ps) (h_works : .works ∈ ps) (h_holds : .holds ∈ ps) (h_drives : .drives ∈ ps) (h_gov : .gov ∈ ps) (h_degrade : .degrade ∈ ps) (h_reshapes : .reshapes ∈ ps) (h_cmds : .cmds ∈ ps) (h_ints : .ints ∈ ps) (h_link : .link ∈ ps) (h_daybook : .daybook ∈ ps) (h_hostMem : .hostMem ∈ ps) :
    (compareBooks s).outside ps = s.outside ps := by
  unfold compareBooks
  repeat' first
    | (simp [h_ledger, h_vols, h_plans, h_works, h_holds, h_drives, h_gov, h_degrade, h_reshapes, h_cmds, h_ints, h_link, h_daybook, h_hostMem]; done)
    | (rw [outside_foldl])
    | (intro _)
    | simp [h_ledger, h_vols, h_plans, h_works, h_holds, h_drives, h_gov, h_degrade, h_reshapes, h_cmds, h_ints, h_link, h_daybook, h_hostMem]
    | split

@[simp] theorem shortMembers_outside {ps : List Part} (s : State) (h_drives : .drives ∈ ps) :
    (shortMembers s).outside ps = s.outside ps := by
  unfold shortMembers
  repeat' first
    | (simp [h_drives]; done)
    | (rw [outside_foldl])
    | (intro _)
    | simp [h_drives]
    | split

@[simp] theorem quorum_outside {ps : List Part} (s : State) (agree : List Nat) (short : List Nat) (h_chip : .chip ∈ ps) (h_ledger : .ledger ∈ ps) (h_vols : .vols ∈ ps) (h_plans : .plans ∈ ps) (h_works : .works ∈ ps) (h_holds : .holds ∈ ps) (h_drives : .drives ∈ ps) (h_gov : .gov ∈ ps) (h_degrade : .degrade ∈ ps) (h_reshapes : .reshapes ∈ ps) (h_cmds : .cmds ∈ ps) (h_ints : .ints ∈ ps) (h_link : .link ∈ ps) (h_chain : .chain ∈ ps) (h_pair : .pair ∈ ps) (h_daybook : .daybook ∈ ps) (h_registry : .registry ∈ ps) (h_hostMem : .hostMem ∈ ps) :
    (quorum s agree short).outside ps = s.outside ps := by
  unfold quorum
  repeat' first
    | (simp [h_chip, h_ledger, h_vols, h_plans, h_works, h_holds, h_drives, h_gov, h_degrade, h_reshapes, h_cmds, h_ints, h_link, h_chain, h_pair, h_daybook, h_registry, h_hostMem]; done)
    | (rw [outside_foldl])
    | (intro _)
    | simp [h_chip, h_ledger, h_vols, h_plans, h_works, h_holds, h_drives, h_gov, h_degrade, h_reshapes, h_cmds, h_ints, h_link, h_chain, h_pair, h_daybook, h_registry, h_hostMem]
    | split

@[simp] theorem verifyColumns_outside {ps : List Part} (s : State) (l : Layout) (h_chip : .chip ∈ ps) (h_vols : .vols ∈ ps) (h_daybook : .daybook ∈ ps) :
    (verifyColumns s l).outside ps = s.outside ps := by
  unfold verifyColumns
  repeat' first
    | (simp [h_chip, h_vols, h_daybook]; done)
    | (rw [outside_foldl])
    | (intro _)
    | simp [h_chip, h_vols, h_daybook]
    | split

@[simp] theorem columnVerification_outside {ps : List Part} (s : State) (i : Nat) (h_chip : .chip ∈ ps) (h_ledger : .ledger ∈ ps) (h_vols : .vols ∈ ps) (h_drives : .drives ∈ ps) (h_ints : .ints ∈ ps) (h_link : .link ∈ ps) (h_chain : .chain ∈ ps) (h_pair : .pair ∈ ps) (h_daybook : .daybook ∈ ps) (h_hostMem : .hostMem ∈ ps) :
    (columnVerification s i).outside ps = s.outside ps := by
  unfold columnVerification
  repeat' first
    | (simp [h_chip, h_ledger, h_vols, h_drives, h_ints, h_link, h_chain, h_pair, h_daybook, h_hostMem]; done)
    | (rw [outside_foldl])
    | (intro _)
    | simp [h_chip, h_ledger, h_vols, h_drives, h_ints, h_link, h_chain, h_pair, h_daybook, h_hostMem]
    | split

@[simp] theorem takeLayouts_outside {ps : List Part} (s : State) (h_registry : .registry ∈ ps) :
    (takeLayouts s).outside ps = s.outside ps := by
  unfold takeLayouts
  repeat' first
    | (simp [h_registry]; done)
    | (rw [outside_foldl])
    | (intro _)
    | simp [h_registry]
    | split

@[simp] theorem volumesOnline_outside {ps : List Part} (s : State) (h_chip : .chip ∈ ps) (h_vols : .vols ∈ ps) (h_wickets : .wickets ∈ ps) (h_ints : .ints ∈ ps) (h_link : .link ∈ ps) (h_pair : .pair ∈ ps) (h_daybook : .daybook ∈ ps) (h_registry : .registry ∈ ps) (h_hostMem : .hostMem ∈ ps) :
    (volumesOnline s).outside ps = s.outside ps := by
  unfold volumesOnline
  repeat' first
    | (simp [h_chip, h_vols, h_wickets, h_ints, h_link, h_pair, h_daybook, h_registry, h_hostMem]; done)
    | (rw [outside_foldl])
    | (intro _)
    | simp [h_chip, h_vols, h_wickets, h_ints, h_link, h_pair, h_daybook, h_registry, h_hostMem]
    | split

@[simp] theorem bumpGen_outside {ps : List Part} (s : State) (set : Nat) (h_map : .map ∈ ps) :
    (bumpGen s set).outside ps = s.outside ps := by
  unfold bumpGen
  repeat' first
    | (simp [h_map]; done)
    | (rw [outside_foldl])
    | (intro _)
    | simp [h_map]
    | split

@[simp] theorem wayError_outside {ps : List Part} (s : State) (w : Nat) (ecc : Nat) (h_map : .map ∈ ps) :
    (wayError s w ecc).outside ps = s.outside ps := by
  unfold wayError
  repeat' first
    | (simp [h_map]; done)
    | (rw [outside_foldl])
    | (intro _)
    | simp [h_map]
    | split

@[simp] theorem lookup_outside {ps : List Part} (again : Bool) (s : State) (id : Nat) (a : Nat) (w : Nat) (ecc : Nat) (h_map : .map ∈ ps) :
    (lookup again s id a w ecc).outside ps = s.outside ps := by
  unfold lookup
  repeat' first
    | (simp [h_map]; done)
    | (rw [outside_foldl])
    | (intro _)
    | simp [h_map]
    | split

@[simp] theorem retryWaiting_outside {ps : List Part} (s : State) (h_map : .map ∈ ps) :
    (retryWaiting s).outside ps = s.outside ps := by
  unfold retryWaiting
  repeat' first
    | (simp [h_map]; done)
    | (rw [outside_foldl])
    | (intro _)
    | simp [h_map]
    | split

@[simp] theorem entryChange_outside {ps : List Part} (s : State) (a : Nat) (e : List Byte) (h_map : .map ∈ ps) (h_dram : .dram ∈ ps) :
    (entryChange s a e).outside ps = s.outside ps := by
  unfold entryChange
  repeat' first
    | (simp [h_map, h_dram]; done)
    | (rw [outside_foldl])
    | (intro _)
    | simp [h_map, h_dram]
    | split

@[simp] theorem invalidateLine_outside {ps : List Part} (s : State) (a : Nat) (h_map : .map ∈ ps) :
    (invalidateLine s a).outside ps = s.outside ps := by
  unfold invalidateLine
  repeat' first
    | (simp [h_map]; done)
    | (rw [outside_foldl])
    | (intro _)
    | simp [h_map]
    | split

@[simp] theorem invalidateAll_outside {ps : List Part} (s : State) (h_map : .map ∈ ps) :
    (invalidateAll s).outside ps = s.outside ps := by
  unfold invalidateAll
  repeat' first
    | (simp [h_map]; done)
    | (rw [outside_foldl])
    | (intro _)
    | simp [h_map]
    | split

@[simp] theorem wayDisable_outside {ps : List Part} (s : State) (w : Nat) (h_ints : .ints ∈ ps) (h_link : .link ∈ ps) (h_daybook : .daybook ∈ ps) (h_reserves : .reserves ∈ ps) (h_map : .map ∈ ps) (h_hostMem : .hostMem ∈ ps) :
    (wayDisable s w).outside ps = s.outside ps := by
  unfold wayDisable
  repeat' first
    | (simp [h_ints, h_link, h_daybook, h_reserves, h_map, h_hostMem]; done)
    | (rw [outside_foldl])
    | (intro _)
    | simp [h_ints, h_link, h_daybook, h_reserves, h_map, h_hostMem]
    | split

@[simp] theorem clearGen_outside {ps : List Part} (s : State) (a : Nat) (lo : Bool) (hi : Bool) (h_closers : .closers ∈ ps) (h_returns : .returns ∈ ps) (h_link : .link ∈ ps) :
    (clearGen s a lo hi).outside ps = s.outside ps := by
  unfold clearGen
  repeat' first
    | (simp [h_closers, h_returns, h_link]; done)
    | (rw [outside_foldl])
    | (intro _)
    | simp [h_closers, h_returns, h_link]
    | split

@[simp] theorem clearWkt_outside {ps : List Part} (s : State) (a : Nat) (lo : Bool) (hi : Bool) (h_wickets : .wickets ∈ ps) :
    (clearWkt s a lo hi).outside ps = s.outside ps := by
  unfold clearWkt
  repeat' first
    | (simp [h_wickets]; done)
    | (rw [outside_foldl])
    | (intro _)
    | simp [h_wickets]
    | split

@[simp] theorem clearRet_outside {ps : List Part} (s : State) (a : Nat) (lo : Bool) (hi : Bool) (h_returns : .returns ∈ ps) :
    (clearRet s a lo hi).outside ps = s.outside ps := by
  unfold clearRet
  repeat' first
    | (simp [h_returns]; done)
    | (rw [outside_foldl])
    | (intro _)
    | simp [h_returns]
    | split

@[simp] theorem clearTel_outside {ps : List Part} (s : State) (a : Nat) (lo : Bool) (hi : Bool) (h_holds : .holds ∈ ps) (h_tellers : .tellers ∈ ps) (h_scratch : .scratch ∈ ps) :
    (clearTel s a lo hi).outside ps = s.outside ps := by
  unfold clearTel
  repeat' first
    | (simp [h_holds, h_tellers, h_scratch]; done)
    | (rw [outside_foldl])
    | (intro _)
    | simp [h_holds, h_tellers, h_scratch]
    | split

@[simp] theorem clearLgr_outside {ps : List Part} (s : State) (a : Nat) (lo : Bool) (hi : Bool) (h_ledger : .ledger ∈ ps) :
    (clearLgr s a lo hi).outside ps = s.outside ps := by
  unfold clearLgr
  repeat' first
    | (simp [h_ledger]; done)
    | (rw [outside_foldl])
    | (intro _)
    | simp [h_ledger]
    | split

@[simp] theorem clearVol_outside {ps : List Part} (s : State) (a : Nat) (lo : Bool) (hi : Bool) (h_plans : .plans ∈ ps) (h_degrade : .degrade ∈ ps) (h_reshapes : .reshapes ∈ ps) (h_vaults : .vaults ∈ ps) :
    (clearVol s a lo hi).outside ps = s.outside ps := by
  unfold clearVol
  repeat' first
    | (simp [h_plans, h_degrade, h_reshapes, h_vaults]; done)
    | (rw [outside_foldl])
    | (intro _)
    | simp [h_plans, h_degrade, h_reshapes, h_vaults]
    | split

@[simp] theorem clearDrv_outside {ps : List Part} (s : State) (a : Nat) (lo : Bool) (hi : Bool) (h_drives : .drives ∈ ps) (h_sas : .sas ∈ ps) :
    (clearDrv s a lo hi).outside ps = s.outside ps := by
  unfold clearDrv
  repeat' first
    | (simp [h_drives, h_sas]; done)
    | (rw [outside_foldl])
    | (intro _)
    | simp [h_drives, h_sas]
    | split

@[simp] theorem clearChn_outside {ps : List Part} (s : State) (a : Nat) (lo : Bool) (hi : Bool) (h_chain : .chain ∈ ps) (h_pair : .pair ∈ ps) :
    (clearChn s a lo hi).outside ps = s.outside ps := by
  unfold clearChn
  repeat' first
    | (simp [h_chain, h_pair]; done)
    | (rw [outside_foldl])
    | (intro _)
    | simp [h_chain, h_pair]
    | split

@[simp] theorem clearPwr_outside {ps : List Part} (s : State) (a : Nat) (lo : Bool) (h_gov : .gov ∈ ps) :
    (clearPwr s a lo).outside ps = s.outside ps := by
  unfold clearPwr
  repeat' first
    | (simp [h_gov]; done)
    | (rw [outside_foldl])
    | (intro _)
    | simp [h_gov]
    | split

@[simp] theorem clearSns_outside {ps : List Part} (s : State) (a : Nat) (lo : Bool) (hi : Bool) (h_sensors : .sensors ∈ ps) (h_smbus : .smbus ∈ ps) :
    (clearSns s a lo hi).outside ps = s.outside ps := by
  unfold clearSns
  repeat' first
    | (simp [h_sensors, h_smbus]; done)
    | (rw [outside_foldl])
    | (intro _)
    | simp [h_sensors, h_smbus]
    | split

@[simp] theorem clearDbk_outside {ps : List Part} (s : State) (a : Nat) (lo : Bool) (hi : Bool) (h_daybook : .daybook ∈ ps) :
    (clearDbk s a lo hi).outside ps = s.outside ps := by
  unfold clearDbk
  repeat' first
    | (simp [h_daybook]; done)
    | (rw [outside_foldl])
    | (intro _)
    | simp [h_daybook]
    | split

@[simp] theorem clearCur_outside {ps : List Part} (s : State) (a : Nat) (lo : Bool) (hi : Bool) (h_courier : .courier ∈ ps) :
    (clearCur s a lo hi).outside ps = s.outside ps := by
  unfold clearCur
  repeat' first
    | (simp [h_courier]; done)
    | (rw [outside_foldl])
    | (intro _)
    | simp [h_courier]
    | split

@[simp] theorem clearMap_outside {ps : List Part} (s : State) (a : Nat) (lo : Bool) (hi : Bool) (h_map : .map ∈ ps) :
    (clearMap s a lo hi).outside ps = s.outside ps := by
  unfold clearMap
  repeat' first
    | (simp [h_map]; done)
    | (rw [outside_foldl])
    | (intro _)
    | simp [h_map]
    | split

@[simp] theorem clearRsv_outside {ps : List Part} (s : State) (a : Nat) (lo : Bool) (hi : Bool) (h_ledger : .ledger ∈ ps) (h_reserves : .reserves ∈ ps) :
    (clearRsv s a lo hi).outside ps = s.outside ps := by
  unfold clearRsv
  repeat' first
    | (simp [h_ledger, h_reserves]; done)
    | (rw [outside_foldl])
    | (intro _)
    | simp [h_ledger, h_reserves]
    | split

@[simp] theorem readClear_outside {ps : List Part} (s : State) (a : Nat) (lo : Bool) (hi : Bool) (h_closers : .closers ∈ ps) (h_ledger : .ledger ∈ ps) (h_plans : .plans ∈ ps) (h_holds : .holds ∈ ps) (h_drives : .drives ∈ ps) (h_sas : .sas ∈ ps) (h_gov : .gov ∈ ps) (h_degrade : .degrade ∈ ps) (h_reshapes : .reshapes ∈ ps) (h_tellers : .tellers ∈ ps) (h_scratch : .scratch ∈ ps) (h_wickets : .wickets ∈ ps) (h_returns : .returns ∈ ps) (h_link : .link ∈ ps) (h_vaults : .vaults ∈ ps) (h_chain : .chain ∈ ps) (h_pair : .pair ∈ ps) (h_sensors : .sensors ∈ ps) (h_smbus : .smbus ∈ ps) (h_daybook : .daybook ∈ ps) (h_reserves : .reserves ∈ ps) (h_courier : .courier ∈ ps) (h_map : .map ∈ ps) :
    (readClear s a lo hi).outside ps = s.outside ps := by
  unfold readClear
  repeat' first
    | (simp [h_closers, h_ledger, h_plans, h_holds, h_drives, h_sas, h_gov, h_degrade, h_reshapes, h_tellers, h_scratch, h_wickets, h_returns, h_link, h_vaults, h_chain, h_pair, h_sensors, h_smbus, h_daybook, h_reserves, h_courier, h_map]; done)
    | (rw [outside_foldl])
    | (intro _)
    | simp [h_closers, h_ledger, h_plans, h_holds, h_drives, h_sas, h_gov, h_degrade, h_reshapes, h_tellers, h_scratch, h_wickets, h_returns, h_link, h_vaults, h_chain, h_pair, h_sensors, h_smbus, h_daybook, h_reserves, h_courier, h_map]
    | split

@[simp] theorem regAccess_outside {ps : List Part} (s : State) (a : Nat) (size : Nat) (h_closers : .closers ∈ ps) (h_ledger : .ledger ∈ ps) (h_plans : .plans ∈ ps) (h_holds : .holds ∈ ps) (h_drives : .drives ∈ ps) (h_sas : .sas ∈ ps) (h_gov : .gov ∈ ps) (h_degrade : .degrade ∈ ps) (h_reshapes : .reshapes ∈ ps) (h_tellers : .tellers ∈ ps) (h_scratch : .scratch ∈ ps) (h_wickets : .wickets ∈ ps) (h_returns : .returns ∈ ps) (h_link : .link ∈ ps) (h_vaults : .vaults ∈ ps) (h_chain : .chain ∈ ps) (h_pair : .pair ∈ ps) (h_sensors : .sensors ∈ ps) (h_smbus : .smbus ∈ ps) (h_daybook : .daybook ∈ ps) (h_reserves : .reserves ∈ ps) (h_courier : .courier ∈ ps) (h_map : .map ∈ ps) (h_latched : .latched ∈ ps) :
    (regAccess s a size).1.outside ps = s.outside ps := by
  unfold regAccess
  repeat' first
    | (simp [h_closers, h_ledger, h_plans, h_holds, h_drives, h_sas, h_gov, h_degrade, h_reshapes, h_tellers, h_scratch, h_wickets, h_returns, h_link, h_vaults, h_chain, h_pair, h_sensors, h_smbus, h_daybook, h_reserves, h_courier, h_map, h_latched]; done)
    | (rw [outside_foldl])
    | (intro _)
    | simp [h_closers, h_ledger, h_plans, h_holds, h_drives, h_sas, h_gov, h_degrade, h_reshapes, h_tellers, h_scratch, h_wickets, h_returns, h_link, h_vaults, h_chain, h_pair, h_sensors, h_smbus, h_daybook, h_reserves, h_courier, h_map, h_latched]
    | split

@[simp] theorem writeWkt_outside {ps : List Part} (s : State) (a : Nat) (v : Nat) (lo : Bool) (hi : Bool) (h_wickets : .wickets ∈ ps) (h_link : .link ∈ ps) (h_daybook : .daybook ∈ ps) (h_hostMem : .hostMem ∈ ps) :
    (writeWkt s a v lo hi).outside ps = s.outside ps := by
  unfold writeWkt
  repeat' first
    | (simp [h_wickets, h_link, h_daybook, h_hostMem]; done)
    | (rw [outside_foldl])
    | (intro _)
    | simp [h_wickets, h_link, h_daybook, h_hostMem]
    | split

@[simp] theorem writeCfg_outside {ps : List Part} (s : State) (n : Nat) (v : Nat) (lo : Bool) (hi : Bool) (h_returns : .returns ∈ ps) :
    (writeCfg s n v lo hi).outside ps = s.outside ps := by
  unfold writeCfg
  repeat' first
    | (simp [h_returns]; done)
    | (rw [outside_foldl])
    | (intro _)
    | simp [h_returns]
    | split

@[simp] theorem writeRet_outside {ps : List Part} (s : State) (a : Nat) (v : Nat) (lo : Bool) (hi : Bool) (h_returns : .returns ∈ ps) :
    (writeRet s a v lo hi).outside ps = s.outside ps := by
  unfold writeRet
  repeat' first
    | (simp [h_returns]; done)
    | (rw [outside_foldl])
    | (intro _)
    | simp [h_returns]
    | split

@[simp] theorem writeInt_outside {ps : List Part} (s : State) (a : Nat) (v : Nat) (lo : Bool) (hi : Bool) (h_ints : .ints ∈ ps) (h_link : .link ∈ ps) (h_hostMem : .hostMem ∈ ps) :
    (writeInt s a v lo hi).outside ps = s.outside ps := by
  unfold writeInt
  repeat' first
    | (simp [h_ints, h_link, h_hostMem]; done)
    | (rw [outside_foldl])
    | (intro _)
    | simp [h_ints, h_link, h_hostMem]
    | split

@[simp] theorem writeVol_outside {ps : List Part} (s : State) (a : Nat) (v : Nat) (lo : Bool) (h_plans : .plans ∈ ps) :
    (writeVol s a v lo).outside ps = s.outside ps := by
  unfold writeVol
  repeat' first
    | (simp [h_plans]; done)
    | (rw [outside_foldl])
    | (intro _)
    | simp [h_plans]
    | split

@[simp] theorem setWarn_outside {ps : List Part} (s : State) (i : Nat) (w : Nat) (h_sensors : .sensors ∈ ps) :
    (setWarn s i w).outside ps = s.outside ps := by
  unfold setWarn
  repeat' first
    | (simp [h_sensors]; done)
    | (rw [outside_foldl])
    | (intro _)
    | simp [h_sensors]
    | split

@[simp] theorem writeSns_outside {ps : List Part} (s : State) (a : Nat) (v : Nat) (lo : Bool) (h_sensors : .sensors ∈ ps) :
    (writeSns s a v lo).outside ps = s.outside ps := by
  unfold writeSns
  repeat' first
    | (simp [h_sensors]; done)
    | (rw [outside_foldl])
    | (intro _)
    | simp [h_sensors]
    | split

@[simp] theorem writeDbk_outside {ps : List Part} (s : State) (smbus : Bool) (a : Nat) (v : Nat) (lo : Bool) (hi : Bool) (h_smbus : .smbus ∈ ps) (h_daybook : .daybook ∈ ps) :
    (writeDbk s smbus a v lo hi).outside ps = s.outside ps := by
  unfold writeDbk
  repeat' first
    | (simp [h_smbus, h_daybook]; done)
    | (rw [outside_foldl])
    | (intro _)
    | simp [h_smbus, h_daybook]
    | split

@[simp] theorem writeChanCtl_outside {ps : List Part} (s : State) (n : Nat) (v : Nat) (h_returns : .returns ∈ ps) (h_courier : .courier ∈ ps) :
    (writeChanCtl s n v).outside ps = s.outside ps := by
  unfold writeChanCtl
  repeat' first
    | (simp [h_returns, h_courier]; done)
    | (rw [outside_foldl])
    | (intro _)
    | simp [h_returns, h_courier]
    | split

@[simp] theorem writeChan_outside {ps : List Part} (s : State) (n : Nat) (o : Nat) (v : Nat) (lo : Bool) (hi : Bool) (h_returns : .returns ∈ ps) (h_courier : .courier ∈ ps) :
    (writeChan s n o v lo hi).outside ps = s.outside ps := by
  unfold writeChan
  repeat' first
    | (simp [h_returns, h_courier]; done)
    | (rw [outside_foldl])
    | (intro _)
    | simp [h_returns, h_courier]
    | split

@[simp] theorem writeCur_outside {ps : List Part} (s : State) (a : Nat) (v : Nat) (lo : Bool) (hi : Bool) (h_returns : .returns ∈ ps) (h_courier : .courier ∈ ps) :
    (writeCur s a v lo hi).outside ps = s.outside ps := by
  unfold writeCur
  repeat' first
    | (simp [h_returns, h_courier]; done)
    | (rw [outside_foldl])
    | (intro _)
    | simp [h_returns, h_courier]
    | split

@[simp] theorem writeMap_outside {ps : List Part} (s : State) (a : Nat) (v : Nat) (lo : Bool) (hi : Bool) (h_map : .map ∈ ps) :
    (writeMap s a v lo hi).outside ps = s.outside ps := by
  unfold writeMap
  repeat' first
    | (simp [h_map]; done)
    | (rw [outside_foldl])
    | (intro _)
    | simp [h_map]
    | split

@[simp] theorem writeFuseCtl_outside {ps : List Part} (s : State) (v : Nat) (h_fuses : .fuses ∈ ps) :
    (writeFuseCtl s v).outside ps = s.outside ps := by
  unfold writeFuseCtl
  repeat' first
    | (simp [h_fuses]; done)
    | (rw [outside_foldl])
    | (intro _)
    | simp [h_fuses]
    | split

@[simp] theorem writeChr_outside {ps : List Part} (s : State) (a : Nat) (v : Nat) (lo : Bool) (hi : Bool) (h_fuses : .fuses ∈ ps) (h_flash : .flash ∈ ps) (h_free : .free ∈ ps) :
    (writeChr s a v lo hi).outside ps = s.outside ps := by
  unfold writeChr
  repeat' first
    | (simp [h_fuses, h_flash, h_free]; done)
    | (rw [outside_foldl])
    | (intro _)
    | simp [h_fuses, h_flash, h_free]
    | split

@[simp] theorem regWrite_outside {ps : List Part} (s : State) (a : Nat) (v : Nat) (lo : Bool) (hi : Bool) (h_fuses : .fuses ∈ ps) (h_flash : .flash ∈ ps) (h_plans : .plans ∈ ps) (h_wickets : .wickets ∈ ps) (h_returns : .returns ∈ ps) (h_ints : .ints ∈ ps) (h_link : .link ∈ ps) (h_sensors : .sensors ∈ ps) (h_smbus : .smbus ∈ ps) (h_daybook : .daybook ∈ ps) (h_courier : .courier ∈ ps) (h_map : .map ∈ ps) (h_hostMem : .hostMem ∈ ps) (h_free : .free ∈ ps) :
    (regWrite s a v lo hi).outside ps = s.outside ps := by
  unfold regWrite
  repeat' first
    | (simp [h_fuses, h_flash, h_plans, h_wickets, h_returns, h_ints, h_link, h_sensors, h_smbus, h_daybook, h_courier, h_map, h_hostMem, h_free]; done)
    | (rw [outside_foldl])
    | (intro _)
    | simp [h_fuses, h_flash, h_plans, h_wickets, h_returns, h_ints, h_link, h_sensors, h_smbus, h_daybook, h_courier, h_map, h_hostMem, h_free]
    | split

@[simp] theorem regStore_outside {ps : List Part} (s : State) (a : Nat) (data : Lanes) (h_fuses : .fuses ∈ ps) (h_flash : .flash ∈ ps) (h_plans : .plans ∈ ps) (h_wickets : .wickets ∈ ps) (h_returns : .returns ∈ ps) (h_ints : .ints ∈ ps) (h_link : .link ∈ ps) (h_sensors : .sensors ∈ ps) (h_smbus : .smbus ∈ ps) (h_daybook : .daybook ∈ ps) (h_courier : .courier ∈ ps) (h_map : .map ∈ ps) (h_hostMem : .hostMem ∈ ps) (h_heldLow : .heldLow ∈ ps) (h_free : .free ∈ ps) :
    (regStore s a data).outside ps = s.outside ps := by
  unfold regStore
  repeat' first
    | (simp [h_fuses, h_flash, h_plans, h_wickets, h_returns, h_ints, h_link, h_sensors, h_smbus, h_daybook, h_courier, h_map, h_hostMem, h_heldLow, h_free]; done)
    | (rw [outside_foldl])
    | (intro _)
    | simp [h_fuses, h_flash, h_plans, h_wickets, h_returns, h_ints, h_link, h_sensors, h_smbus, h_daybook, h_courier, h_map, h_hostMem, h_heldLow, h_free]
    | split

@[simp] theorem writeCommand_outside {ps : List Part} (s : State) (v : Nat) (h_wickets : .wickets ∈ ps) (h_returns : .returns ∈ ps) (h_ints : .ints ∈ ps) (h_cfg : .cfg ∈ ps) (h_link : .link ∈ ps) (h_courier : .courier ∈ ps) (h_hostMem : .hostMem ∈ ps) :
    (writeCommand s v).outside ps = s.outside ps := by
  unfold writeCommand
  repeat' first
    | (simp [h_wickets, h_returns, h_ints, h_cfg, h_link, h_courier, h_hostMem]; done)
    | (rw [outside_foldl])
    | (intro _)
    | simp [h_wickets, h_returns, h_ints, h_cfg, h_link, h_courier, h_hostMem]
    | split

@[simp] theorem writePmcsr_outside {ps : List Part} (s : State) (v : Nat) (h_plans : .plans ∈ ps) (h_works : .works ∈ ps) (h_holds : .holds ∈ ps) (h_drives : .drives ∈ ps) (h_gov : .gov ∈ ps) (h_degrade : .degrade ∈ ps) (h_tellers : .tellers ∈ ps) (h_scratch : .scratch ∈ ps) (h_wickets : .wickets ∈ ps) (h_cmds : .cmds ∈ ps) (h_returns : .returns ∈ ps) (h_ints : .ints ∈ ps) (h_cfg : .cfg ∈ ps) (h_link : .link ∈ ps) (h_power : .power ∈ ps) (h_daybook : .daybook ∈ ps) (h_courier : .courier ∈ ps) (h_hostMem : .hostMem ∈ ps) :
    (writePmcsr s v).outside ps = s.outside ps := by
  unfold writePmcsr
  repeat' first
    | (simp [h_plans, h_works, h_holds, h_drives, h_gov, h_degrade, h_tellers, h_scratch, h_wickets, h_cmds, h_returns, h_ints, h_cfg, h_link, h_power, h_daybook, h_courier, h_hostMem]; done)
    | (rw [outside_foldl])
    | (intro _)
    | simp [h_plans, h_works, h_holds, h_drives, h_gov, h_degrade, h_tellers, h_scratch, h_wickets, h_cmds, h_returns, h_ints, h_cfg, h_link, h_power, h_daybook, h_courier, h_hostMem]
    | split

@[simp] theorem writeDevCtl_outside {ps : List Part} (s : State) (v : Nat) (h_drives : .drives ∈ ps) (h_gov : .gov ∈ ps) (h_tellers : .tellers ∈ ps) (h_scratch : .scratch ∈ ps) (h_wickets : .wickets ∈ ps) (h_returns : .returns ∈ ps) (h_ints : .ints ∈ ps) (h_cfg : .cfg ∈ ps) (h_link : .link ∈ ps) (h_power : .power ∈ ps) (h_resets : .resets ∈ ps) (h_daybook : .daybook ∈ ps) (h_hostMem : .hostMem ∈ ps) :
    (writeDevCtl s v).outside ps = s.outside ps := by
  unfold writeDevCtl
  repeat' first
    | (simp [h_drives, h_gov, h_tellers, h_scratch, h_wickets, h_returns, h_ints, h_cfg, h_link, h_power, h_resets, h_daybook, h_hostMem]; done)
    | (rw [outside_foldl])
    | (intro _)
    | simp [h_drives, h_gov, h_tellers, h_scratch, h_wickets, h_returns, h_ints, h_cfg, h_link, h_power, h_resets, h_daybook, h_hostMem]
    | split

@[simp] theorem cfgWrite_outside {ps : List Part} (s : State) (off : Nat) (v : Nat) (h_plans : .plans ∈ ps) (h_works : .works ∈ ps) (h_holds : .holds ∈ ps) (h_drives : .drives ∈ ps) (h_gov : .gov ∈ ps) (h_degrade : .degrade ∈ ps) (h_tellers : .tellers ∈ ps) (h_scratch : .scratch ∈ ps) (h_wickets : .wickets ∈ ps) (h_cmds : .cmds ∈ ps) (h_returns : .returns ∈ ps) (h_ints : .ints ∈ ps) (h_cfg : .cfg ∈ ps) (h_link : .link ∈ ps) (h_power : .power ∈ ps) (h_resets : .resets ∈ ps) (h_daybook : .daybook ∈ ps) (h_courier : .courier ∈ ps) (h_hostMem : .hostMem ∈ ps) :
    (cfgWrite s off v).outside ps = s.outside ps := by
  unfold cfgWrite
  repeat' first
    | (simp [h_plans, h_works, h_holds, h_drives, h_gov, h_degrade, h_tellers, h_scratch, h_wickets, h_cmds, h_returns, h_ints, h_cfg, h_link, h_power, h_resets, h_daybook, h_courier, h_hostMem]; done)
    | (rw [outside_foldl])
    | (intro _)
    | simp [h_plans, h_works, h_holds, h_drives, h_gov, h_degrade, h_tellers, h_scratch, h_wickets, h_cmds, h_returns, h_ints, h_cfg, h_link, h_power, h_resets, h_daybook, h_courier, h_hostMem]
    | split

@[simp] theorem configAccess_outside {ps : List Part} (s : State) (off : Nat) (write : Option Nat) (h_plans : .plans ∈ ps) (h_works : .works ∈ ps) (h_holds : .holds ∈ ps) (h_drives : .drives ∈ ps) (h_gov : .gov ∈ ps) (h_degrade : .degrade ∈ ps) (h_tellers : .tellers ∈ ps) (h_scratch : .scratch ∈ ps) (h_wickets : .wickets ∈ ps) (h_cmds : .cmds ∈ ps) (h_returns : .returns ∈ ps) (h_ints : .ints ∈ ps) (h_cfg : .cfg ∈ ps) (h_link : .link ∈ ps) (h_power : .power ∈ ps) (h_resets : .resets ∈ ps) (h_daybook : .daybook ∈ ps) (h_courier : .courier ∈ ps) (h_hostMem : .hostMem ∈ ps) (h_rsp : .rsp ∈ ps) :
    (configAccess s off write).outside ps = s.outside ps := by
  unfold configAccess
  repeat' first
    | (simp [h_plans, h_works, h_holds, h_drives, h_gov, h_degrade, h_tellers, h_scratch, h_wickets, h_cmds, h_returns, h_ints, h_cfg, h_link, h_power, h_resets, h_daybook, h_courier, h_hostMem, h_rsp]; done)
    | (rw [outside_foldl])
    | (intro _)
    | simp [h_plans, h_works, h_holds, h_drives, h_gov, h_degrade, h_tellers, h_scratch, h_wickets, h_cmds, h_returns, h_ints, h_cfg, h_link, h_power, h_resets, h_daybook, h_courier, h_hostMem, h_rsp]
    | split

@[simp] theorem vectorDword_outside {ps : List Part} (s : State) (off : Nat) (v : Nat) (h_ints : .ints ∈ ps) :
    (vectorDword s off v).outside ps = s.outside ps := by
  unfold vectorDword
  repeat' first
    | (simp [h_ints]; done)
    | (rw [outside_foldl])
    | (intro _)
    | simp [h_ints]
    | split

@[simp] theorem vectorWrite_outside {ps : List Part} (s : State) (off : Nat) (data : Lanes) (h_ints : .ints ∈ ps) (h_link : .link ∈ ps) (h_hostMem : .hostMem ∈ ps) :
    (vectorWrite s off data).outside ps = s.outside ps := by
  unfold vectorWrite
  repeat' first
    | (simp [h_ints, h_link, h_hostMem]; done)
    | (rw [outside_foldl])
    | (intro _)
    | simp [h_ints, h_link, h_hostMem]
    | split

@[simp] theorem controlRead_outside {ps : List Part} (s : State) (off : Nat) (len : Nat) (h_closers : .closers ∈ ps) (h_ledger : .ledger ∈ ps) (h_plans : .plans ∈ ps) (h_holds : .holds ∈ ps) (h_drives : .drives ∈ ps) (h_sas : .sas ∈ ps) (h_gov : .gov ∈ ps) (h_degrade : .degrade ∈ ps) (h_reshapes : .reshapes ∈ ps) (h_tellers : .tellers ∈ ps) (h_scratch : .scratch ∈ ps) (h_wickets : .wickets ∈ ps) (h_returns : .returns ∈ ps) (h_link : .link ∈ ps) (h_vaults : .vaults ∈ ps) (h_chain : .chain ∈ ps) (h_pair : .pair ∈ ps) (h_sensors : .sensors ∈ ps) (h_smbus : .smbus ∈ ps) (h_daybook : .daybook ∈ ps) (h_reserves : .reserves ∈ ps) (h_courier : .courier ∈ ps) (h_map : .map ∈ ps) (h_latched : .latched ∈ ps) (h_rsp : .rsp ∈ ps) :
    (controlRead s off len).outside ps = s.outside ps := by
  unfold controlRead
  repeat' first
    | (simp [h_closers, h_ledger, h_plans, h_holds, h_drives, h_sas, h_gov, h_degrade, h_reshapes, h_tellers, h_scratch, h_wickets, h_returns, h_link, h_vaults, h_chain, h_pair, h_sensors, h_smbus, h_daybook, h_reserves, h_courier, h_map, h_latched, h_rsp]; done)
    | (rw [outside_foldl])
    | (intro _)
    | simp [h_closers, h_ledger, h_plans, h_holds, h_drives, h_sas, h_gov, h_degrade, h_reshapes, h_tellers, h_scratch, h_wickets, h_returns, h_link, h_vaults, h_chain, h_pair, h_sensors, h_smbus, h_daybook, h_reserves, h_courier, h_map, h_latched, h_rsp]
    | split
  all_goals
    have e := congrArg (fun p => State.outside ps p.1) ‹_ = (_, _)›
    simp [h_closers, h_ledger, h_plans, h_holds, h_drives, h_sas, h_gov, h_degrade, h_reshapes, h_tellers, h_scratch, h_wickets, h_returns, h_link, h_vaults, h_chain, h_pair, h_sensors, h_smbus, h_daybook, h_reserves, h_courier, h_map, h_latched, h_rsp] at e
    simp [h_closers, h_ledger, h_plans, h_holds, h_drives, h_sas, h_gov, h_degrade, h_reshapes, h_tellers, h_scratch, h_wickets, h_returns, h_link, h_vaults, h_chain, h_pair, h_sensors, h_smbus, h_daybook, h_reserves, h_courier, h_map, h_latched, h_rsp, e]

@[simp] theorem serveDeferred_outside {ps : List Part} (s : State) (h_closers : .closers ∈ ps) (h_ledger : .ledger ∈ ps) (h_plans : .plans ∈ ps) (h_holds : .holds ∈ ps) (h_drives : .drives ∈ ps) (h_sas : .sas ∈ ps) (h_gov : .gov ∈ ps) (h_degrade : .degrade ∈ ps) (h_reshapes : .reshapes ∈ ps) (h_tellers : .tellers ∈ ps) (h_scratch : .scratch ∈ ps) (h_wickets : .wickets ∈ ps) (h_returns : .returns ∈ ps) (h_link : .link ∈ ps) (h_vaults : .vaults ∈ ps) (h_chain : .chain ∈ ps) (h_pair : .pair ∈ ps) (h_sensors : .sensors ∈ ps) (h_smbus : .smbus ∈ ps) (h_daybook : .daybook ∈ ps) (h_reserves : .reserves ∈ ps) (h_courier : .courier ∈ ps) (h_map : .map ∈ ps) (h_latched : .latched ∈ ps) (h_rsp : .rsp ∈ ps) :
    (serveDeferred s).outside ps = s.outside ps := by
  unfold serveDeferred
  repeat' first
    | (simp [h_closers, h_ledger, h_plans, h_holds, h_drives, h_sas, h_gov, h_degrade, h_reshapes, h_tellers, h_scratch, h_wickets, h_returns, h_link, h_vaults, h_chain, h_pair, h_sensors, h_smbus, h_daybook, h_reserves, h_courier, h_map, h_latched, h_rsp]; done)
    | (rw [outside_foldl])
    | (intro _)
    | simp [h_closers, h_ledger, h_plans, h_holds, h_drives, h_sas, h_gov, h_degrade, h_reshapes, h_tellers, h_scratch, h_wickets, h_returns, h_link, h_vaults, h_chain, h_pair, h_sensors, h_smbus, h_daybook, h_reserves, h_courier, h_map, h_latched, h_rsp]
    | split

@[simp] theorem windowWicket_outside {ps : List Part} (s : State) (off : Nat) (data : Lanes) (h_ledger : .ledger ∈ ps) (h_bands : .bands ∈ ps) (h_wickets : .wickets ∈ ps) (h_cmds : .cmds ∈ ps) (h_link : .link ∈ ps) (h_vaults : .vaults ∈ ps) (h_chain : .chain ∈ ps) (h_hostMem : .hostMem ∈ ps) :
    (windowWicket s off data).outside ps = s.outside ps := by
  unfold windowWicket
  repeat' first
    | (simp [h_ledger, h_bands, h_wickets, h_cmds, h_link, h_vaults, h_chain, h_hostMem]; done)
    | (rw [outside_foldl])
    | (intro _)
    | simp [h_ledger, h_bands, h_wickets, h_cmds, h_link, h_vaults, h_chain, h_hostMem]
    | split

@[simp] theorem memoryRequest_outside {ps : List Part} (s : State) (m : MemReq) (h_fuses : .fuses ∈ ps) (h_flash : .flash ∈ ps) (h_closers : .closers ∈ ps) (h_ledger : .ledger ∈ ps) (h_bands : .bands ∈ ps) (h_plans : .plans ∈ ps) (h_holds : .holds ∈ ps) (h_drives : .drives ∈ ps) (h_sas : .sas ∈ ps) (h_gov : .gov ∈ ps) (h_degrade : .degrade ∈ ps) (h_reshapes : .reshapes ∈ ps) (h_tellers : .tellers ∈ ps) (h_scratch : .scratch ∈ ps) (h_wickets : .wickets ∈ ps) (h_cmds : .cmds ∈ ps) (h_returns : .returns ∈ ps) (h_ints : .ints ∈ ps) (h_link : .link ∈ ps) (h_vaults : .vaults ∈ ps) (h_chain : .chain ∈ ps) (h_pair : .pair ∈ ps) (h_sensors : .sensors ∈ ps) (h_smbus : .smbus ∈ ps) (h_daybook : .daybook ∈ ps) (h_reserves : .reserves ∈ ps) (h_courier : .courier ∈ ps) (h_map : .map ∈ ps) (h_hostMem : .hostMem ∈ ps) (h_heldLow : .heldLow ∈ ps) (h_latched : .latched ∈ ps) (h_rsp : .rsp ∈ ps) (h_free : .free ∈ ps) :
    (memoryRequest s m).outside ps = s.outside ps := by
  unfold memoryRequest
  repeat' first
    | (simp [h_fuses, h_flash, h_closers, h_ledger, h_bands, h_plans, h_holds, h_drives, h_sas, h_gov, h_degrade, h_reshapes, h_tellers, h_scratch, h_wickets, h_cmds, h_returns, h_ints, h_link, h_vaults, h_chain, h_pair, h_sensors, h_smbus, h_daybook, h_reserves, h_courier, h_map, h_hostMem, h_heldLow, h_latched, h_rsp, h_free]; done)
    | (rw [outside_foldl])
    | (intro _)
    | simp [h_fuses, h_flash, h_closers, h_ledger, h_bands, h_plans, h_holds, h_drives, h_sas, h_gov, h_degrade, h_reshapes, h_tellers, h_scratch, h_wickets, h_cmds, h_returns, h_ints, h_link, h_vaults, h_chain, h_pair, h_sensors, h_smbus, h_daybook, h_reserves, h_courier, h_map, h_hostMem, h_heldLow, h_latched, h_rsp, h_free]
    | split

@[simp] theorem smbusDone_outside {ps : List Part} (s : State) (h_smbus : .smbus ∈ ps) :
    (smbusDone s).outside ps = s.outside ps := by
  unfold smbusDone
  repeat' first
    | (simp [h_smbus]; done)
    | (rw [outside_foldl])
    | (intro _)
    | simp [h_smbus]
    | split

@[simp] theorem smbusForbidden_outside {ps : List Part} (s : State) (h_smbus : .smbus ∈ ps) :
    (smbusForbidden s).outside ps = s.outside ps := by
  unfold smbusForbidden
  repeat' first
    | (simp [h_smbus]; done)
    | (rw [outside_foldl])
    | (intro _)
    | simp [h_smbus]
    | split

@[simp] theorem smbusReadAt_outside {ps : List Part} (s : State) (addr : Nat) (h_closers : .closers ∈ ps) (h_ledger : .ledger ∈ ps) (h_plans : .plans ∈ ps) (h_holds : .holds ∈ ps) (h_drives : .drives ∈ ps) (h_sas : .sas ∈ ps) (h_gov : .gov ∈ ps) (h_degrade : .degrade ∈ ps) (h_reshapes : .reshapes ∈ ps) (h_tellers : .tellers ∈ ps) (h_scratch : .scratch ∈ ps) (h_wickets : .wickets ∈ ps) (h_returns : .returns ∈ ps) (h_link : .link ∈ ps) (h_vaults : .vaults ∈ ps) (h_chain : .chain ∈ ps) (h_pair : .pair ∈ ps) (h_sensors : .sensors ∈ ps) (h_smbus : .smbus ∈ ps) (h_daybook : .daybook ∈ ps) (h_reserves : .reserves ∈ ps) (h_courier : .courier ∈ ps) (h_map : .map ∈ ps) :
    (smbusReadAt s addr).1.outside ps = s.outside ps := by
  unfold smbusReadAt
  repeat' first
    | (simp [h_closers, h_ledger, h_plans, h_holds, h_drives, h_sas, h_gov, h_degrade, h_reshapes, h_tellers, h_scratch, h_wickets, h_returns, h_link, h_vaults, h_chain, h_pair, h_sensors, h_smbus, h_daybook, h_reserves, h_courier, h_map]; done)
    | (rw [outside_foldl])
    | (intro _)
    | simp [h_closers, h_ledger, h_plans, h_holds, h_drives, h_sas, h_gov, h_degrade, h_reshapes, h_tellers, h_scratch, h_wickets, h_returns, h_link, h_vaults, h_chain, h_pair, h_sensors, h_smbus, h_daybook, h_reserves, h_courier, h_map]
    | split

@[simp] theorem smbusWriteAt_outside {ps : List Part} (s : State) (addr : Nat) (v : Nat) (h_sensors : .sensors ∈ ps) (h_smbus : .smbus ∈ ps) (h_daybook : .daybook ∈ ps) :
    (smbusWriteAt s addr v).outside ps = s.outside ps := by
  unfold smbusWriteAt
  repeat' first
    | (simp [h_sensors, h_smbus, h_daybook]; done)
    | (rw [outside_foldl])
    | (intro _)
    | simp [h_sensors, h_smbus, h_daybook]
    | split

@[simp] theorem mctpControl_outside {ps : List Part} (s : State) (m : MctpControl) (h_smbus : .smbus ∈ ps) (h_smbRsp : .smbRsp ∈ ps) (h_free : .free ∈ ps) :
    (mctpControl s m).outside ps = s.outside ps := by
  unfold mctpControl
  repeat' first
    | (simp [h_smbus, h_smbRsp, h_free]; done)
    | (rw [outside_foldl])
    | (intro _)
    | simp [h_smbus, h_smbRsp, h_free]
    | split
  all_goals
    have e := congrArg (fun p => State.outside ps p.1) ‹_ = (_, _)›
    simp [h_smbus, h_smbRsp, h_free] at e
    simp [h_smbus, h_smbRsp, h_free, e]

@[simp] theorem planGo_outside {ps : List Part} (s : State) (tag : Nat) (h_works : .works ∈ ps) (h_drives : .drives ∈ ps) (h_gov : .gov ∈ ps) (h_degrade : .degrade ∈ ps) (h_cmds : .cmds ∈ ps) (h_returns : .returns ∈ ps) (h_vaults : .vaults ∈ ps) (h_daybook : .daybook ∈ ps) (h_cache : .cache ∈ ps) :
    (planGo s tag).outside ps = s.outside ps := by
  unfold planGo
  repeat' first
    | (simp [h_works, h_drives, h_gov, h_degrade, h_cmds, h_returns, h_vaults, h_daybook, h_cache]; done)
    | (rw [outside_foldl])
    | (intro _)
    | simp [h_works, h_drives, h_gov, h_degrade, h_cmds, h_returns, h_vaults, h_daybook, h_cache]
    | split

@[simp] theorem planReady_outside {ps : List Part} (s : State) (layout : Nat) (erased : List ChunkId) (h_plans : .plans ∈ ps) (h_works : .works ∈ ps) (h_drives : .drives ∈ ps) (h_gov : .gov ∈ ps) (h_degrade : .degrade ∈ ps) (h_cmds : .cmds ∈ ps) (h_returns : .returns ∈ ps) (h_vaults : .vaults ∈ ps) (h_daybook : .daybook ∈ ps) (h_cache : .cache ∈ ps) :
    (planReady s layout erased).outside ps = s.outside ps := by
  unfold planReady
  repeat' first
    | (simp [h_plans, h_works, h_drives, h_gov, h_degrade, h_cmds, h_returns, h_vaults, h_daybook, h_cache]; done)
    | (rw [outside_foldl])
    | (intro _)
    | simp [h_plans, h_works, h_drives, h_gov, h_degrade, h_cmds, h_returns, h_vaults, h_daybook, h_cache]
    | split

@[simp] theorem flushBoundary_outside {ps : List Part} (s : State) (h_plans : .plans ∈ ps) :
    (flushBoundary s).outside ps = s.outside ps := by
  unfold flushBoundary
  repeat' first
    | (simp [h_plans]; done)
    | (rw [outside_foldl])
    | (intro _)
    | simp [h_plans]
    | split

@[simp] theorem serveWaiting_outside {ps : List Part} (s : State) (h_plans : .plans ∈ ps) (h_works : .works ∈ ps) (h_drives : .drives ∈ ps) (h_gov : .gov ∈ ps) (h_degrade : .degrade ∈ ps) (h_cmds : .cmds ∈ ps) (h_returns : .returns ∈ ps) (h_vaults : .vaults ∈ ps) (h_daybook : .daybook ∈ ps) (h_cache : .cache ∈ ps) :
    (serveWaiting s).outside ps = s.outside ps := by
  unfold serveWaiting
  repeat' first
    | (simp [h_plans, h_works, h_drives, h_gov, h_degrade, h_cmds, h_returns, h_vaults, h_daybook, h_cache]; done)
    | (rw [outside_foldl])
    | (intro _)
    | simp [h_plans, h_works, h_drives, h_gov, h_degrade, h_cmds, h_returns, h_vaults, h_daybook, h_cache]
    | split

@[simp] theorem planUnpin_outside {ps : List Part} (s : State) (layout : Nat) (erased : List ChunkId) (h_plans : .plans ∈ ps) (h_works : .works ∈ ps) (h_drives : .drives ∈ ps) (h_gov : .gov ∈ ps) (h_degrade : .degrade ∈ ps) (h_cmds : .cmds ∈ ps) (h_returns : .returns ∈ ps) (h_vaults : .vaults ∈ ps) (h_daybook : .daybook ∈ ps) (h_cache : .cache ∈ ps) :
    (planUnpin s layout erased).outside ps = s.outside ps := by
  unfold planUnpin
  repeat' first
    | (simp [h_plans, h_works, h_drives, h_gov, h_degrade, h_cmds, h_returns, h_vaults, h_daybook, h_cache]; done)
    | (rw [outside_foldl])
    | (intro _)
    | simp [h_plans, h_works, h_drives, h_gov, h_degrade, h_cmds, h_returns, h_vaults, h_daybook, h_cache]
    | split

@[simp] theorem openClose_outside {ps : List Part} (s : State) (h_clock : .clock ∈ ps) (h_closers : .closers ∈ ps) (h_ledger : .ledger ∈ ps) (h_chain : .chain ∈ ps) (h_daybook : .daybook ∈ ps) :
    (openClose s).outside ps = s.outside ps := by
  unfold openClose
  repeat' first
    | (simp [h_clock, h_closers, h_ledger, h_chain, h_daybook]; done)
    | (rw [outside_foldl])
    | (intro _)
    | simp [h_clock, h_closers, h_ledger, h_chain, h_daybook]
    | split

@[simp] theorem landCut_outside {ps : List Part} (s : State) (h_closers : .closers ∈ ps) (h_ledger : .ledger ∈ ps) (h_bands : .bands ∈ ps) (h_plans : .plans ∈ ps) (h_works : .works ∈ ps) (h_nextWork : .nextWork ∈ ps) (h_holds : .holds ∈ ps) (h_drives : .drives ∈ ps) (h_gov : .gov ∈ ps) (h_degrade : .degrade ∈ ps) (h_cmds : .cmds ∈ ps) (h_returns : .returns ∈ ps) (h_power : .power ∈ ps) (h_vaults : .vaults ∈ ps) (h_daybook : .daybook ∈ ps) (h_cache : .cache ∈ ps) :
    (landCut s).outside ps = s.outside ps := by
  unfold landCut
  repeat' first
    | (simp [h_closers, h_ledger, h_bands, h_plans, h_works, h_nextWork, h_holds, h_drives, h_gov, h_degrade, h_cmds, h_returns, h_power, h_vaults, h_daybook, h_cache]; done)
    | (rw [outside_foldl])
    | (intro _)
    | simp [h_closers, h_ledger, h_bands, h_plans, h_works, h_nextWork, h_holds, h_drives, h_gov, h_degrade, h_cmds, h_returns, h_power, h_vaults, h_daybook, h_cache]
    | split

@[simp] theorem retirements_outside {ps : List Part} (s : State) (h_chip : .chip ∈ ps) (h_closers : .closers ∈ ps) (h_ledger : .ledger ∈ ps) (h_plans : .plans ∈ ps) (h_works : .works ∈ ps) (h_nextWork : .nextWork ∈ ps) (h_holds : .holds ∈ ps) (h_drives : .drives ∈ ps) (h_sas : .sas ∈ ps) (h_gov : .gov ∈ ps) (h_degrade : .degrade ∈ ps) (h_reshapes : .reshapes ∈ ps) (h_tellers : .tellers ∈ ps) (h_scratch : .scratch ∈ ps) (h_wickets : .wickets ∈ ps) (h_cmds : .cmds ∈ ps) (h_returns : .returns ∈ ps) (h_ints : .ints ∈ ps) (h_link : .link ∈ ps) (h_power : .power ∈ ps) (h_vaults : .vaults ∈ ps) (h_pair : .pair ∈ ps) (h_daybook : .daybook ∈ ps) (h_reserves : .reserves ∈ ps) (h_map : .map ∈ ps) (h_cache : .cache ∈ ps) (h_hostMem : .hostMem ∈ ps) :
    (retirements s).outside ps = s.outside ps := by
  unfold retirements
  repeat' first
    | (simp [h_chip, h_closers, h_ledger, h_plans, h_works, h_nextWork, h_holds, h_drives, h_sas, h_gov, h_degrade, h_reshapes, h_tellers, h_scratch, h_wickets, h_cmds, h_returns, h_ints, h_link, h_power, h_vaults, h_pair, h_daybook, h_reserves, h_map, h_cache, h_hostMem]; done)
    | (rw [outside_foldl])
    | (intro _)
    | simp [h_chip, h_closers, h_ledger, h_plans, h_works, h_nextWork, h_holds, h_drives, h_sas, h_gov, h_degrade, h_reshapes, h_tellers, h_scratch, h_wickets, h_cmds, h_returns, h_ints, h_link, h_power, h_vaults, h_pair, h_daybook, h_reserves, h_map, h_cache, h_hostMem]
    | split

end Sys2Proof.Machine
end

