-- ==== Sys2Proof/Laws/Frame10.lean ====
section
/-! SUPPORT. What each operation leaves as it was: the state outside the parts it works on. -/

namespace Sys2Proof.Machine

set_option linter.all false

@[simp] theorem resetRow_outside {ps : List Part} (s : State) (h_chip : .chip ∈ ps) (h_ledger : .ledger ∈ ps) (h_drives : .drives ∈ ps) (h_gov : .gov ∈ ps) (h_reshapes : .reshapes ∈ ps) (h_tellers : .tellers ∈ ps) (h_scratch : .scratch ∈ ps) (h_wickets : .wickets ∈ ps) (h_cmds : .cmds ∈ ps) (h_returns : .returns ∈ ps) (h_ints : .ints ∈ ps) (h_cfg : .cfg ∈ ps) (h_link : .link ∈ ps) (h_power : .power ∈ ps) (h_resets : .resets ∈ ps) (h_feats : .feats ∈ ps) (h_vaults : .vaults ∈ ps) (h_chain : .chain ∈ ps) (h_pair : .pair ∈ ps) (h_daybook : .daybook ∈ ps) (h_courier : .courier ∈ ps) (h_hostMem : .hostMem ∈ ps) (h_free : .free ∈ ps) :
    (resetRow s).outside ps = s.outside ps := by
  unfold resetRow
  repeat' first
    | (simp [h_chip, h_ledger, h_drives, h_gov, h_reshapes, h_tellers, h_scratch, h_wickets, h_cmds, h_returns, h_ints, h_cfg, h_link, h_power, h_resets, h_feats, h_vaults, h_chain, h_pair, h_daybook, h_courier, h_hostMem, h_free]; done)
    | (rw [outside_foldl])
    | (intro _)
    | simp [h_chip, h_ledger, h_drives, h_gov, h_reshapes, h_tellers, h_scratch, h_wickets, h_cmds, h_returns, h_ints, h_cfg, h_link, h_power, h_resets, h_feats, h_vaults, h_chain, h_pair, h_daybook, h_courier, h_hostMem, h_free]
    | split

@[simp] theorem windowRow_outside {ps : List Part} (s : State) (h_ledger : .ledger ∈ ps) (h_plans : .plans ∈ ps) (h_works : .works ∈ ps) (h_nextWork : .nextWork ∈ ps) (h_holds : .holds ∈ ps) (h_drives : .drives ∈ ps) (h_sas : .sas ∈ ps) (h_gov : .gov ∈ ps) (h_degrade : .degrade ∈ ps) (h_tellers : .tellers ∈ ps) (h_scratch : .scratch ∈ ps) (h_cmds : .cmds ∈ ps) (h_returns : .returns ∈ ps) (h_ints : .ints ∈ ps) (h_link : .link ∈ ps) (h_power : .power ∈ ps) (h_feats : .feats ∈ ps) (h_vaults : .vaults ∈ ps) (h_mgmt : .mgmt ∈ ps) (h_daybook : .daybook ∈ ps) (h_cache : .cache ∈ ps) (h_hostMem : .hostMem ∈ ps) :
    (windowRow s).outside ps = s.outside ps := by
  unfold windowRow
  repeat' first
    | (simp [h_ledger, h_plans, h_works, h_nextWork, h_holds, h_drives, h_sas, h_gov, h_degrade, h_tellers, h_scratch, h_cmds, h_returns, h_ints, h_link, h_power, h_feats, h_vaults, h_mgmt, h_daybook, h_cache, h_hostMem]; done)
    | (rw [outside_foldl])
    | (intro _)
    | simp [h_ledger, h_plans, h_works, h_nextWork, h_holds, h_drives, h_sas, h_gov, h_degrade, h_tellers, h_scratch, h_cmds, h_returns, h_ints, h_link, h_power, h_feats, h_vaults, h_mgmt, h_daybook, h_cache, h_hostMem]
    | split

@[simp] theorem volumeRow_outside {ps : List Part} (s : State) (h_chip : .chip ∈ ps) (h_ledger : .ledger ∈ ps) (h_vols : .vols ∈ ps) (h_bands : .bands ∈ ps) (h_plans : .plans ∈ ps) (h_works : .works ∈ ps) (h_holds : .holds ∈ ps) (h_drives : .drives ∈ ps) (h_gov : .gov ∈ ps) (h_degrade : .degrade ∈ ps) (h_reshapes : .reshapes ∈ ps) (h_wickets : .wickets ∈ ps) (h_cmds : .cmds ∈ ps) (h_ints : .ints ∈ ps) (h_link : .link ∈ ps) (h_chain : .chain ∈ ps) (h_pair : .pair ∈ ps) (h_daybook : .daybook ∈ ps) (h_registry : .registry ∈ ps) (h_hostMem : .hostMem ∈ ps) :
    (volumeRow s).outside ps = s.outside ps := by
  unfold volumeRow
  repeat' first
    | (simp [h_chip, h_ledger, h_vols, h_bands, h_plans, h_works, h_holds, h_drives, h_gov, h_degrade, h_reshapes, h_wickets, h_cmds, h_ints, h_link, h_chain, h_pair, h_daybook, h_registry, h_hostMem]; done)
    | (rw [outside_foldl])
    | (intro _)
    | simp [h_chip, h_ledger, h_vols, h_bands, h_plans, h_works, h_holds, h_drives, h_gov, h_degrade, h_reshapes, h_wickets, h_cmds, h_ints, h_link, h_chain, h_pair, h_daybook, h_registry, h_hostMem]
    | split

@[simp] theorem completionRow_outside {ps : List Part} (s : State) (h_closers : .closers ∈ ps) (h_ledger : .ledger ∈ ps) (h_vols : .vols ∈ ps) (h_bands : .bands ∈ ps) (h_plans : .plans ∈ ps) (h_works : .works ∈ ps) (h_nextWork : .nextWork ∈ ps) (h_holds : .holds ∈ ps) (h_drives : .drives ∈ ps) (h_gov : .gov ∈ ps) (h_degrade : .degrade ∈ ps) (h_reshapes : .reshapes ∈ ps) (h_cmds : .cmds ∈ ps) (h_returns : .returns ∈ ps) (h_ints : .ints ∈ ps) (h_link : .link ∈ ps) (h_power : .power ∈ ps) (h_vaults : .vaults ∈ ps) (h_chain : .chain ∈ ps) (h_pair : .pair ∈ ps) (h_daybook : .daybook ∈ ps) (h_map : .map ∈ ps) (h_cache : .cache ∈ ps) (h_hostMem : .hostMem ∈ ps) (h_free : .free ∈ ps) :
    (completionRow s).outside ps = s.outside ps := by
  unfold completionRow
  repeat' first
    | (simp [h_closers, h_ledger, h_vols, h_bands, h_plans, h_works, h_nextWork, h_holds, h_drives, h_gov, h_degrade, h_reshapes, h_cmds, h_returns, h_ints, h_link, h_power, h_vaults, h_chain, h_pair, h_daybook, h_map, h_cache, h_hostMem, h_free]; done)
    | (rw [outside_foldl])
    | (intro _)
    | simp [h_closers, h_ledger, h_vols, h_bands, h_plans, h_works, h_nextWork, h_holds, h_drives, h_gov, h_degrade, h_reshapes, h_cmds, h_returns, h_ints, h_link, h_power, h_vaults, h_chain, h_pair, h_daybook, h_map, h_cache, h_hostMem, h_free]
    | split

@[simp] theorem shadowFetches_outside {ps : List Part} (s : State) (h_returns : .returns ∈ ps) :
    (shadowFetches s).outside ps = s.outside ps := by
  unfold shadowFetches
  repeat' first
    | (simp [h_returns]; done)
    | (rw [outside_foldl])
    | (intro _)
    | simp [h_returns]
    | split

@[simp] theorem ringRow_outside {ps : List Part} (s : State) (h_wickets : .wickets ∈ ps) (h_returns : .returns ∈ ps) (h_ints : .ints ∈ ps) (h_link : .link ∈ ps) (h_hostMem : .hostMem ∈ ps) :
    (ringRow s).outside ps = s.outside ps := by
  unfold ringRow
  repeat' first
    | (simp [h_wickets, h_returns, h_ints, h_link, h_hostMem]; done)
    | (rw [outside_foldl])
    | (intro _)
    | simp [h_wickets, h_returns, h_ints, h_link, h_hostMem]
    | split

@[simp] theorem readsResume_outside {ps : List Part} (s : State) (h_ledger : .ledger ∈ ps) (h_plans : .plans ∈ ps) (h_works : .works ∈ ps) (h_nextWork : .nextWork ∈ ps) (h_holds : .holds ∈ ps) (h_drives : .drives ∈ ps) (h_gov : .gov ∈ ps) (h_degrade : .degrade ∈ ps) (h_cmds : .cmds ∈ ps) (h_returns : .returns ∈ ps) (h_power : .power ∈ ps) (h_vaults : .vaults ∈ ps) (h_daybook : .daybook ∈ ps) (h_cache : .cache ∈ ps) :
    (readsResume s).outside ps = s.outside ps := by
  unfold readsResume
  repeat' first
    | (simp [h_ledger, h_plans, h_works, h_nextWork, h_holds, h_drives, h_gov, h_degrade, h_cmds, h_returns, h_power, h_vaults, h_daybook, h_cache]; done)
    | (rw [outside_foldl])
    | (intro _)
    | simp [h_ledger, h_plans, h_works, h_nextWork, h_holds, h_drives, h_gov, h_degrade, h_cmds, h_returns, h_power, h_vaults, h_daybook, h_cache]
    | split

@[simp] theorem planRowBoundary_outside {ps : List Part} (s : State) (h_ledger : .ledger ∈ ps) (h_bands : .bands ∈ ps) (h_plans : .plans ∈ ps) (h_works : .works ∈ ps) (h_nextWork : .nextWork ∈ ps) (h_drives : .drives ∈ ps) (h_gov : .gov ∈ ps) (h_degrade : .degrade ∈ ps) (h_ints : .ints ∈ ps) (h_cfg : .cfg ∈ ps) (h_link : .link ∈ ps) (h_chain : .chain ∈ ps) (h_daybook : .daybook ∈ ps) (h_hostMem : .hostMem ∈ ps) :
    (planRowBoundary s).outside ps = s.outside ps := by
  unfold planRowBoundary
  repeat' first
    | (simp [h_ledger, h_bands, h_plans, h_works, h_nextWork, h_drives, h_gov, h_degrade, h_ints, h_cfg, h_link, h_chain, h_daybook, h_hostMem]; done)
    | (rw [outside_foldl])
    | (intro _)
    | simp [h_ledger, h_bands, h_plans, h_works, h_nextWork, h_drives, h_gov, h_degrade, h_ints, h_cfg, h_link, h_chain, h_daybook, h_hostMem]
    | split

@[simp] theorem serviceRow_outside {ps : List Part} (s : State) (h_ledger : .ledger ∈ ps) (h_plans : .plans ∈ ps) (h_works : .works ∈ ps) (h_nextWork : .nextWork ∈ ps) (h_holds : .holds ∈ ps) (h_drives : .drives ∈ ps) (h_gov : .gov ∈ ps) (h_degrade : .degrade ∈ ps) (h_cmds : .cmds ∈ ps) (h_returns : .returns ∈ ps) (h_power : .power ∈ ps) (h_vaults : .vaults ∈ ps) (h_daybook : .daybook ∈ ps) (h_courier : .courier ∈ ps) (h_cache : .cache ∈ ps) :
    (serviceRow s).outside ps = s.outside ps := by
  unfold serviceRow
  repeat' first
    | (simp [h_ledger, h_plans, h_works, h_nextWork, h_holds, h_drives, h_gov, h_degrade, h_cmds, h_returns, h_power, h_vaults, h_daybook, h_courier, h_cache]; done)
    | (rw [outside_foldl])
    | (intro _)
    | simp [h_ledger, h_plans, h_works, h_nextWork, h_holds, h_drives, h_gov, h_degrade, h_cmds, h_returns, h_power, h_vaults, h_daybook, h_courier, h_cache]
    | split

@[simp] theorem countRow_outside {ps : List Part} (s : State) (h_ledger : .ledger ∈ ps) (h_gov : .gov ∈ ps) (h_scratch : .scratch ∈ ps) :
    (countRow s).outside ps = s.outside ps := by
  unfold countRow
  repeat' first
    | (simp [h_ledger, h_gov, h_scratch]; done)
    | (rw [outside_foldl])
    | (intro _)
    | simp [h_ledger, h_gov, h_scratch]
    | split

@[simp] theorem intakeRow_outside {ps : List Part} (s : State) (h_closers : .closers ∈ ps) (h_ledger : .ledger ∈ ps) (h_bands : .bands ∈ ps) (h_plans : .plans ∈ ps) (h_holds : .holds ∈ ps) (h_drives : .drives ∈ ps) (h_sas : .sas ∈ ps) (h_gov : .gov ∈ ps) (h_degrade : .degrade ∈ ps) (h_reshapes : .reshapes ∈ ps) (h_tellers : .tellers ∈ ps) (h_scratch : .scratch ∈ ps) (h_wickets : .wickets ∈ ps) (h_cmds : .cmds ∈ ps) (h_returns : .returns ∈ ps) (h_link : .link ∈ ps) (h_vaults : .vaults ∈ ps) (h_chain : .chain ∈ ps) (h_pair : .pair ∈ ps) (h_sensors : .sensors ∈ ps) (h_smbus : .smbus ∈ ps) (h_daybook : .daybook ∈ ps) (h_reserves : .reserves ∈ ps) (h_courier : .courier ∈ ps) (h_map : .map ∈ ps) (h_hostMem : .hostMem ∈ ps) (h_latched : .latched ∈ ps) (h_rsp : .rsp ∈ ps) :
    (intakeRow s).outside ps = s.outside ps := by
  unfold intakeRow
  repeat' first
    | (simp [h_closers, h_ledger, h_bands, h_plans, h_holds, h_drives, h_sas, h_gov, h_degrade, h_reshapes, h_tellers, h_scratch, h_wickets, h_cmds, h_returns, h_link, h_vaults, h_chain, h_pair, h_sensors, h_smbus, h_daybook, h_reserves, h_courier, h_map, h_hostMem, h_latched, h_rsp]; done)
    | (rw [outside_foldl])
    | (intro _)
    | simp [h_closers, h_ledger, h_bands, h_plans, h_holds, h_drives, h_sas, h_gov, h_degrade, h_reshapes, h_tellers, h_scratch, h_wickets, h_cmds, h_returns, h_link, h_vaults, h_chain, h_pair, h_sensors, h_smbus, h_daybook, h_reserves, h_courier, h_map, h_hostMem, h_latched, h_rsp]
    | split

@[simp] theorem clearVote_outside {ps : List Part} (s : State) (h_closers : .closers ∈ ps) :
    (clearVote s).outside ps = s.outside ps := by
  unfold clearVote
  repeat' first
    | (simp [h_closers]; done)
    | (rw [outside_foldl])
    | (intro _)
    | simp [h_closers]
    | split

@[simp] theorem boundaryRows_outside {ps : List Part} (s : State) (h_chip : .chip ∈ ps) (h_closers : .closers ∈ ps) (h_ledger : .ledger ∈ ps) (h_vols : .vols ∈ ps) (h_bands : .bands ∈ ps) (h_plans : .plans ∈ ps) (h_works : .works ∈ ps) (h_nextWork : .nextWork ∈ ps) (h_holds : .holds ∈ ps) (h_drives : .drives ∈ ps) (h_sas : .sas ∈ ps) (h_gov : .gov ∈ ps) (h_degrade : .degrade ∈ ps) (h_reshapes : .reshapes ∈ ps) (h_tellers : .tellers ∈ ps) (h_scratch : .scratch ∈ ps) (h_wickets : .wickets ∈ ps) (h_cmds : .cmds ∈ ps) (h_returns : .returns ∈ ps) (h_ints : .ints ∈ ps) (h_cfg : .cfg ∈ ps) (h_link : .link ∈ ps) (h_power : .power ∈ ps) (h_resets : .resets ∈ ps) (h_feats : .feats ∈ ps) (h_vaults : .vaults ∈ ps) (h_chain : .chain ∈ ps) (h_pair : .pair ∈ ps) (h_mgmt : .mgmt ∈ ps) (h_sensors : .sensors ∈ ps) (h_smbus : .smbus ∈ ps) (h_daybook : .daybook ∈ ps) (h_reserves : .reserves ∈ ps) (h_courier : .courier ∈ ps) (h_map : .map ∈ ps) (h_registry : .registry ∈ ps) (h_cache : .cache ∈ ps) (h_hostMem : .hostMem ∈ ps) (h_latched : .latched ∈ ps) (h_rsp : .rsp ∈ ps) (h_free : .free ∈ ps) :
    (boundaryRows s).outside ps = s.outside ps := by
  unfold boundaryRows
  repeat' first
    | (simp [h_chip, h_closers, h_ledger, h_vols, h_bands, h_plans, h_works, h_nextWork, h_holds, h_drives, h_sas, h_gov, h_degrade, h_reshapes, h_tellers, h_scratch, h_wickets, h_cmds, h_returns, h_ints, h_cfg, h_link, h_power, h_resets, h_feats, h_vaults, h_chain, h_pair, h_mgmt, h_sensors, h_smbus, h_daybook, h_reserves, h_courier, h_map, h_registry, h_cache, h_hostMem, h_latched, h_rsp, h_free]; done)
    | (rw [outside_foldl])
    | (intro _)
    | simp [h_chip, h_closers, h_ledger, h_vols, h_bands, h_plans, h_works, h_nextWork, h_holds, h_drives, h_sas, h_gov, h_degrade, h_reshapes, h_tellers, h_scratch, h_wickets, h_cmds, h_returns, h_ints, h_cfg, h_link, h_power, h_resets, h_feats, h_vaults, h_chain, h_pair, h_mgmt, h_sensors, h_smbus, h_daybook, h_reserves, h_courier, h_map, h_registry, h_cache, h_hostMem, h_latched, h_rsp, h_free]
    | split

@[simp] theorem perstBoundary_outside {ps : List Part} (s : State) (h_chip : .chip ∈ ps) (h_closers : .closers ∈ ps) (h_wickets : .wickets ∈ ps) (h_ints : .ints ∈ ps) (h_link : .link ∈ ps) (h_pair : .pair ∈ ps) (h_daybook : .daybook ∈ ps) (h_hostMem : .hostMem ∈ ps) :
    (perstBoundary s).outside ps = s.outside ps := by
  unfold perstBoundary
  repeat' first
    | (simp [h_chip, h_closers, h_wickets, h_ints, h_link, h_pair, h_daybook, h_hostMem]; done)
    | (rw [outside_foldl])
    | (intro _)
    | simp [h_chip, h_closers, h_wickets, h_ints, h_link, h_pair, h_daybook, h_hostMem]
    | split

@[simp] theorem tick_outside {ps : List Part} (s : State) (h_clock : .clock ∈ ps) :
    (tick s).outside ps = s.outside ps := by
  unfold tick
  repeat' first
    | (simp [h_clock]; done)
    | (rw [outside_foldl])
    | (intro _)
    | simp [h_clock]
    | split

@[simp] theorem closeBoundary_outside {ps : List Part} (s : State) (h_chip : .chip ∈ ps) (h_clock : .clock ∈ ps) (h_closers : .closers ∈ ps) (h_ledger : .ledger ∈ ps) (h_vols : .vols ∈ ps) (h_bands : .bands ∈ ps) (h_plans : .plans ∈ ps) (h_works : .works ∈ ps) (h_nextWork : .nextWork ∈ ps) (h_holds : .holds ∈ ps) (h_drives : .drives ∈ ps) (h_sas : .sas ∈ ps) (h_gov : .gov ∈ ps) (h_degrade : .degrade ∈ ps) (h_reshapes : .reshapes ∈ ps) (h_tellers : .tellers ∈ ps) (h_scratch : .scratch ∈ ps) (h_wickets : .wickets ∈ ps) (h_cmds : .cmds ∈ ps) (h_returns : .returns ∈ ps) (h_ints : .ints ∈ ps) (h_cfg : .cfg ∈ ps) (h_link : .link ∈ ps) (h_power : .power ∈ ps) (h_resets : .resets ∈ ps) (h_feats : .feats ∈ ps) (h_vaults : .vaults ∈ ps) (h_chain : .chain ∈ ps) (h_pair : .pair ∈ ps) (h_mgmt : .mgmt ∈ ps) (h_sensors : .sensors ∈ ps) (h_smbus : .smbus ∈ ps) (h_daybook : .daybook ∈ ps) (h_reserves : .reserves ∈ ps) (h_courier : .courier ∈ ps) (h_map : .map ∈ ps) (h_registry : .registry ∈ ps) (h_cache : .cache ∈ ps) (h_hostMem : .hostMem ∈ ps) (h_latched : .latched ∈ ps) (h_rsp : .rsp ∈ ps) (h_free : .free ∈ ps) :
    (closeBoundary s).outside ps = s.outside ps := by
  unfold closeBoundary
  repeat' first
    | (simp [h_chip, h_clock, h_closers, h_ledger, h_vols, h_bands, h_plans, h_works, h_nextWork, h_holds, h_drives, h_sas, h_gov, h_degrade, h_reshapes, h_tellers, h_scratch, h_wickets, h_cmds, h_returns, h_ints, h_cfg, h_link, h_power, h_resets, h_feats, h_vaults, h_chain, h_pair, h_mgmt, h_sensors, h_smbus, h_daybook, h_reserves, h_courier, h_map, h_registry, h_cache, h_hostMem, h_latched, h_rsp, h_free]; done)
    | (rw [outside_foldl])
    | (intro _)
    | simp [h_chip, h_clock, h_closers, h_ledger, h_vols, h_bands, h_plans, h_works, h_nextWork, h_holds, h_drives, h_sas, h_gov, h_degrade, h_reshapes, h_tellers, h_scratch, h_wickets, h_cmds, h_returns, h_ints, h_cfg, h_link, h_power, h_resets, h_feats, h_vaults, h_chain, h_pair, h_mgmt, h_sensors, h_smbus, h_daybook, h_reserves, h_courier, h_map, h_registry, h_cache, h_hostMem, h_latched, h_rsp, h_free]
    | split

@[simp] theorem State_withFetchWord_outside {ps : List Part} (s : State) (nbits : Nat) (w : Nat) (h_pending : .pending ∈ ps) :
    (State.withFetchWord s nbits w).outside ps = s.outside ps := by
  unfold State.withFetchWord
  repeat' first
    | (simp [h_pending]; done)
    | (rw [outside_foldl])
    | (intro _)
    | simp [h_pending]
    | split

end Sys2Proof.Machine
end

