-- ==== Sys2Proof/Laws/Memory.lean ====
section
/-! SUPPORT. Memories: a byte read after a write, and the canonical form that every write keeps. -/

namespace Sys2Proof.Machine

/-- A list whose canonical form begins above an address lists nothing at or below it. -/
theorem Memory.read_below (d : Byte) (m : Cells) (n a : Nat) (h : Memory.wfFrom d n m = true) (ha : a < n) : Memory.read d m a = d := by
  induction m generalizing n with
  | nil => rfl
  | cons e r ih =>
    obtain ⟨k, v⟩ := e
    simp only [Memory.wfFrom, Bool.and_eq_true, decide_eq_true_eq] at h
    have : k ≠ a := by omega
    simp only [Memory.read, this, if_false]
    exact ih (k + 1) h.2 (by omega)

/-- The canonical form of what stands above a higher bound. -/
theorem Memory.wfFrom_mono (d : Byte) (m : Cells) (n k : Nat) (h : Memory.wfFrom d n m = true) (hk : k ≤ n) : Memory.wfFrom d k m = true := by
  cases m with
  | nil => rfl
  | cons e r =>
    obtain ⟨j, v⟩ := e
    simp only [Memory.wfFrom, Bool.and_eq_true, decide_eq_true_eq] at h ⊢
    exact ⟨⟨by omega, h.1.2⟩, h.2⟩

theorem Memory.write_wfFrom (d : Byte) (m : Cells) (n a : Nat) (b : Byte) (h : Memory.wfFrom d n m = true) (ha : n ≤ a) :
    Memory.wfFrom d n (Memory.write d m a b) = true := by
  induction m generalizing n with
  | nil =>
    by_cases hb : b = d <;> simp [Memory.write, Memory.wfFrom, hb, ha]
  | cons e r ih =>
    obtain ⟨k, v⟩ := e
    simp only [Memory.wfFrom, Bool.and_eq_true, decide_eq_true_eq] at h
    unfold Memory.write
    by_cases hk : k = a
    · subst hk
      by_cases hb : b = d
      · simpa [hb] using Memory.wfFrom_mono d r (k + 1) n h.2 (by omega)
      · simp [hb, Memory.wfFrom, h.1.1, h.2]
    · by_cases hl : a < k
      · by_cases hb : b = d
        · simp [hk, hl, hb, Memory.wfFrom, h]
        · simp [hk, hl, hb, Memory.wfFrom, ha, h.1.2, h.2, Nat.succ_le_of_lt hl]
      · simp [hk, hl, Memory.wfFrom, h.1.1, h.1.2, ih (k + 1) h.2 (by omega)]

/-- A write keeps the canonical form. -/
theorem Memory.write_wf (d : Byte) (m : Cells) (a : Nat) (b : Byte) (h : Memory.wf d m = true) : Memory.wf d (Memory.write d m a b) = true :=
  Memory.write_wfFrom d m 0 a b h (Nat.zero_le a)

theorem Memory.writeLanes_wf (d : Byte) (l : Lanes) (m : Cells) (a : Nat) (h : Memory.wf d m = true) : Memory.wf d (Memory.writeLanes d m a l) = true := by
  induction l generalizing m a with
  | nil => exact h
  | cons x l ih =>
    cases x with
    | none => exact ih m (a + 1) h
    | some b => exact ih _ (a + 1) (Memory.write_wf d m a b h)

/-- A byte reads as what was last written to it, and as before elsewhere. -/
theorem Memory.read_write (d : Byte) (m : Cells) (n a x : Nat) (b : Byte) (h : Memory.wfFrom d n m = true) :
    Memory.read d (Memory.write d m a b) x = if a = x then b else Memory.read d m x := by
  induction m generalizing n with
  | nil =>
    by_cases hb : b = d <;> by_cases hx : a = x <;> simp [Memory.write, Memory.read, hb, hx]
  | cons e r ih =>
    obtain ⟨k, v⟩ := e
    simp only [Memory.wfFrom, Bool.and_eq_true, decide_eq_true_eq] at h
    unfold Memory.write
    by_cases hk : k = a
    · subst hk
      by_cases hb : b = d
      · by_cases hx : k = x
        · subst hx
          simp [hb, Memory.read_below d r (k + 1) k h.2 (by omega)]
        · simp [hb, hx, Memory.read]
      · by_cases hx : k = x <;> simp [hb, hx, Memory.read]
    · by_cases hl : a < k
      · by_cases hb : b = d
        · by_cases hx : a = x
          · subst hx
            simp [hk, hl, hb, Memory.read, Memory.read_below d r (k + 1) a h.2 (by omega)]
          · simp [hk, hl, hb, hx]
        · by_cases hx : a = x
          · subst hx
            simp [hk, hl, hb, Memory.read]
          · simp [hk, hl, hb, hx, Memory.read]
      · by_cases hx : k = x
        · subst hx
          simp [hk, hl, Memory.read, show ¬ a = k from fun h => hk h.symm]
        · simp [hk, hl, Memory.read, hx, ih (k + 1) h.2]

theorem Memory.cellsOf_wfFrom (d : Byte) (bs : List Byte) (n a : Nat) (r : Cells) (h : n ≤ a) (hr : Memory.wfFrom d (a + bs.length) r = true) :
    Memory.wfFrom d n (Memory.cellsOf d a bs ++ r) = true := by
  induction bs generalizing n a with
  | nil => simpa [Memory.cellsOf] using Memory.wfFrom_mono d r _ n hr (by simpa using h)
  | cons b bs ih =>
    have hr' : Memory.wfFrom d (a + 1 + bs.length) r = true := by
      have : a + 1 + bs.length = a + (b :: bs).length := by simp only [List.length_cons]; omega
      rw [this]; exact hr
    by_cases hb : b = d
    · simpa [Memory.cellsOf, hb] using ih n (a + 1) (by omega) hr'
    · simp [Memory.cellsOf, hb, Memory.wfFrom, h, ih (a + 1) (a + 1) (Nat.le_refl _) hr']

/-- The cells at or above an address. -/
theorem Memory.filter_ge_wfFrom (d : Byte) (m : Cells) (n a : Nat) (h : Memory.wfFrom d n m = true) :
    Memory.wfFrom d (max n a) (m.filter (fun c => a ≤ c.1)) = true := by
  induction m generalizing n with
  | nil => rfl
  | cons e r ih =>
    obtain ⟨k, v⟩ := e
    simp only [Memory.wfFrom, Bool.and_eq_true, decide_eq_true_eq] at h
    have hr := ih (k + 1) h.2
    by_cases hk : a ≤ k
    · simp only [List.filter_cons, hk, decide_true, if_true, Memory.wfFrom, Bool.and_eq_true, decide_eq_true_eq]
      exact ⟨⟨by omega, h.1.2⟩, Memory.wfFrom_mono d _ _ (k + 1) hr (by omega)⟩
    · simp only [List.filter_cons, hk, decide_false]
      exact Memory.wfFrom_mono d _ _ _ hr (by omega)

/-- The cells below an address, with a canonical list from that address on behind them. -/
theorem Memory.below_append_wfFrom (d : Byte) (m r : Cells) (n a : Nat) (h : Memory.wfFrom d n m = true) (hr : Memory.wfFrom d (max n a) r = true) :
    Memory.wfFrom d n (m.filter (fun c => c.1 < a) ++ r) = true := by
  induction m generalizing n with
  | nil => simpa using Memory.wfFrom_mono d r _ n hr (by omega)
  | cons e m ih =>
    obtain ⟨k, v⟩ := e
    simp only [Memory.wfFrom, Bool.and_eq_true, decide_eq_true_eq] at h
    by_cases hk : k < a
    · simp only [List.filter_cons, hk, decide_true, if_true, List.cons_append, Memory.wfFrom, Bool.and_eq_true, decide_eq_true_eq]
      exact ⟨⟨h.1.1, h.1.2⟩, ih (k + 1) h.2 (Memory.wfFrom_mono d r _ _ hr (by omega))⟩
    · simp only [List.filter_cons, hk, decide_false, Bool.false_eq_true, if_false]
      have e : m.filter (fun c => decide (c.1 < a)) = [] := by
        have : ∀ (n : Nat) (m : Cells), a ≤ n → Memory.wfFrom d n m = true → m.filter (fun c => decide (c.1 < a)) = [] := by
          intro n m hn hm
          induction m generalizing n with
          | nil => rfl
          | cons e m ih =>
            obtain ⟨j, w⟩ := e
            simp only [Memory.wfFrom, Bool.and_eq_true, decide_eq_true_eq] at hm
            simp only [List.filter_cons, show ¬ j < a by omega, decide_false]
            exact ih (j + 1) (by omega) hm.2
        exact this (k + 1) m (by omega) h.2
      rw [e]
      exact Memory.wfFrom_mono d r _ n hr (by omega)

/-- A byte string written keeps the canonical form. -/
theorem Memory.writeN_wf (d : Byte) (m : Cells) (a : Nat) (bs : List Byte) (h : Memory.wf d m = true) : Memory.wf d (Memory.writeN d m a bs) = true := by
  unfold Memory.wf Memory.writeN
  rw [List.append_assoc]
  refine Memory.below_append_wfFrom d m _ 0 a h ?_
  refine Memory.cellsOf_wfFrom d bs _ a _ (by omega) ?_
  exact Memory.wfFrom_mono d _ _ _ (Memory.filter_ge_wfFrom d m 0 (a + bs.length) h) (by omega)

end Sys2Proof.Machine
end

