-- ==== Sys2Proof/Laws/Parts.lean ====
section
/-! SUPPORT. Two states that agree outside some parts agree on every other part. -/

namespace Sys2Proof.Machine

theorem same_pending {ps : List Part} {s t : State} (h : t.outside ps = s.outside ps) (hp : .pending ∉ ps) : t.pending = s.pending := by
  simpa only [State.outside, hp, if_false] using congrArg State.pending h

theorem same_chip {ps : List Part} {s t : State} (h : t.outside ps = s.outside ps) (hp : .chip ∉ ps) : t.chip = s.chip := by
  simpa only [State.outside, hp, if_false] using congrArg State.chip h

theorem same_fuses {ps : List Part} {s t : State} (h : t.outside ps = s.outside ps) (hp : .fuses ∉ ps) : t.fuses = s.fuses := by
  simpa only [State.outside, hp, if_false] using congrArg State.fuses h

theorem same_flash {ps : List Part} {s t : State} (h : t.outside ps = s.outside ps) (hp : .flash ∉ ps) : t.flash = s.flash := by
  simpa only [State.outside, hp, if_false] using congrArg State.flash h

theorem same_charter {ps : List Part} {s t : State} (h : t.outside ps = s.outside ps) (hp : .charter ∉ ps) : t.charter = s.charter := by
  simpa only [State.outside, hp, if_false] using congrArg State.charter h

theorem same_clock {ps : List Part} {s t : State} (h : t.outside ps = s.outside ps) (hp : .clock ∉ ps) : t.clock = s.clock := by
  simpa only [State.outside, hp, if_false] using congrArg State.clock h

theorem same_closers {ps : List Part} {s t : State} (h : t.outside ps = s.outside ps) (hp : .closers ∉ ps) : t.closers = s.closers := by
  simpa only [State.outside, hp, if_false] using congrArg State.closers h

theorem same_ledger {ps : List Part} {s t : State} (h : t.outside ps = s.outside ps) (hp : .ledger ∉ ps) : t.ledger = s.ledger := by
  simpa only [State.outside, hp, if_false] using congrArg State.ledger h

theorem same_vols {ps : List Part} {s t : State} (h : t.outside ps = s.outside ps) (hp : .vols ∉ ps) : t.vols = s.vols := by
  simpa only [State.outside, hp, if_false] using congrArg State.vols h

theorem same_bands {ps : List Part} {s t : State} (h : t.outside ps = s.outside ps) (hp : .bands ∉ ps) : t.bands = s.bands := by
  simpa only [State.outside, hp, if_false] using congrArg State.bands h

theorem same_plans {ps : List Part} {s t : State} (h : t.outside ps = s.outside ps) (hp : .plans ∉ ps) : t.plans = s.plans := by
  simpa only [State.outside, hp, if_false] using congrArg State.plans h

theorem same_works {ps : List Part} {s t : State} (h : t.outside ps = s.outside ps) (hp : .works ∉ ps) : t.works = s.works := by
  simpa only [State.outside, hp, if_false] using congrArg State.works h

theorem same_nextWork {ps : List Part} {s t : State} (h : t.outside ps = s.outside ps) (hp : .nextWork ∉ ps) : t.nextWork = s.nextWork := by
  simpa only [State.outside, hp, if_false] using congrArg State.nextWork h

theorem same_holds {ps : List Part} {s t : State} (h : t.outside ps = s.outside ps) (hp : .holds ∉ ps) : t.holds = s.holds := by
  simpa only [State.outside, hp, if_false] using congrArg State.holds h

theorem same_drives {ps : List Part} {s t : State} (h : t.outside ps = s.outside ps) (hp : .drives ∉ ps) : t.drives = s.drives := by
  simpa only [State.outside, hp, if_false] using congrArg State.drives h

theorem same_sas {ps : List Part} {s t : State} (h : t.outside ps = s.outside ps) (hp : .sas ∉ ps) : t.sas = s.sas := by
  simpa only [State.outside, hp, if_false] using congrArg State.sas h

theorem same_gov {ps : List Part} {s t : State} (h : t.outside ps = s.outside ps) (hp : .gov ∉ ps) : t.gov = s.gov := by
  simpa only [State.outside, hp, if_false] using congrArg State.gov h

theorem same_degrade {ps : List Part} {s t : State} (h : t.outside ps = s.outside ps) (hp : .degrade ∉ ps) : t.degrade = s.degrade := by
  simpa only [State.outside, hp, if_false] using congrArg State.degrade h

theorem same_reshapes {ps : List Part} {s t : State} (h : t.outside ps = s.outside ps) (hp : .reshapes ∉ ps) : t.reshapes = s.reshapes := by
  simpa only [State.outside, hp, if_false] using congrArg State.reshapes h

theorem same_tellers {ps : List Part} {s t : State} (h : t.outside ps = s.outside ps) (hp : .tellers ∉ ps) : t.tellers = s.tellers := by
  simpa only [State.outside, hp, if_false] using congrArg State.tellers h

theorem same_scratch {ps : List Part} {s t : State} (h : t.outside ps = s.outside ps) (hp : .scratch ∉ ps) : t.scratch = s.scratch := by
  simpa only [State.outside, hp, if_false] using congrArg State.scratch h

theorem same_wickets {ps : List Part} {s t : State} (h : t.outside ps = s.outside ps) (hp : .wickets ∉ ps) : t.wickets = s.wickets := by
  simpa only [State.outside, hp, if_false] using congrArg State.wickets h

theorem same_cmds {ps : List Part} {s t : State} (h : t.outside ps = s.outside ps) (hp : .cmds ∉ ps) : t.cmds = s.cmds := by
  simpa only [State.outside, hp, if_false] using congrArg State.cmds h

theorem same_returns {ps : List Part} {s t : State} (h : t.outside ps = s.outside ps) (hp : .returns ∉ ps) : t.returns = s.returns := by
  simpa only [State.outside, hp, if_false] using congrArg State.returns h

theorem same_ints {ps : List Part} {s t : State} (h : t.outside ps = s.outside ps) (hp : .ints ∉ ps) : t.ints = s.ints := by
  simpa only [State.outside, hp, if_false] using congrArg State.ints h

theorem same_cfg {ps : List Part} {s t : State} (h : t.outside ps = s.outside ps) (hp : .cfg ∉ ps) : t.cfg = s.cfg := by
  simpa only [State.outside, hp, if_false] using congrArg State.cfg h

theorem same_link {ps : List Part} {s t : State} (h : t.outside ps = s.outside ps) (hp : .link ∉ ps) : t.link = s.link := by
  simpa only [State.outside, hp, if_false] using congrArg State.link h

theorem same_power {ps : List Part} {s t : State} (h : t.outside ps = s.outside ps) (hp : .power ∉ ps) : t.power = s.power := by
  simpa only [State.outside, hp, if_false] using congrArg State.power h

theorem same_resets {ps : List Part} {s t : State} (h : t.outside ps = s.outside ps) (hp : .resets ∉ ps) : t.resets = s.resets := by
  simpa only [State.outside, hp, if_false] using congrArg State.resets h

theorem same_feats {ps : List Part} {s t : State} (h : t.outside ps = s.outside ps) (hp : .feats ∉ ps) : t.feats = s.feats := by
  simpa only [State.outside, hp, if_false] using congrArg State.feats h

theorem same_vaults {ps : List Part} {s t : State} (h : t.outside ps = s.outside ps) (hp : .vaults ∉ ps) : t.vaults = s.vaults := by
  simpa only [State.outside, hp, if_false] using congrArg State.vaults h

theorem same_chain {ps : List Part} {s t : State} (h : t.outside ps = s.outside ps) (hp : .chain ∉ ps) : t.chain = s.chain := by
  simpa only [State.outside, hp, if_false] using congrArg State.chain h

theorem same_pair {ps : List Part} {s t : State} (h : t.outside ps = s.outside ps) (hp : .pair ∉ ps) : t.pair = s.pair := by
  simpa only [State.outside, hp, if_false] using congrArg State.pair h

theorem same_mgmt {ps : List Part} {s t : State} (h : t.outside ps = s.outside ps) (hp : .mgmt ∉ ps) : t.mgmt = s.mgmt := by
  simpa only [State.outside, hp, if_false] using congrArg State.mgmt h

theorem same_sensors {ps : List Part} {s t : State} (h : t.outside ps = s.outside ps) (hp : .sensors ∉ ps) : t.sensors = s.sensors := by
  simpa only [State.outside, hp, if_false] using congrArg State.sensors h

theorem same_smbus {ps : List Part} {s t : State} (h : t.outside ps = s.outside ps) (hp : .smbus ∉ ps) : t.smbus = s.smbus := by
  simpa only [State.outside, hp, if_false] using congrArg State.smbus h

theorem same_daybook {ps : List Part} {s t : State} (h : t.outside ps = s.outside ps) (hp : .daybook ∉ ps) : t.daybook = s.daybook := by
  simpa only [State.outside, hp, if_false] using congrArg State.daybook h

theorem same_reserves {ps : List Part} {s t : State} (h : t.outside ps = s.outside ps) (hp : .reserves ∉ ps) : t.reserves = s.reserves := by
  simpa only [State.outside, hp, if_false] using congrArg State.reserves h

theorem same_courier {ps : List Part} {s t : State} (h : t.outside ps = s.outside ps) (hp : .courier ∉ ps) : t.courier = s.courier := by
  simpa only [State.outside, hp, if_false] using congrArg State.courier h

theorem same_map {ps : List Part} {s t : State} (h : t.outside ps = s.outside ps) (hp : .map ∉ ps) : t.map = s.map := by
  simpa only [State.outside, hp, if_false] using congrArg State.map h

theorem same_registry {ps : List Part} {s t : State} (h : t.outside ps = s.outside ps) (hp : .registry ∉ ps) : t.registry = s.registry := by
  simpa only [State.outside, hp, if_false] using congrArg State.registry h

theorem same_dram {ps : List Part} {s t : State} (h : t.outside ps = s.outside ps) (hp : .dram ∉ ps) : t.dram = s.dram := by
  simpa only [State.outside, hp, if_false] using congrArg State.dram h

theorem same_cache {ps : List Part} {s t : State} (h : t.outside ps = s.outside ps) (hp : .cache ∉ ps) : t.cache = s.cache := by
  simpa only [State.outside, hp, if_false] using congrArg State.cache h

theorem same_hostMem {ps : List Part} {s t : State} (h : t.outside ps = s.outside ps) (hp : .hostMem ∉ ps) : t.hostMem = s.hostMem := by
  simpa only [State.outside, hp, if_false] using congrArg State.hostMem h

theorem same_heldLow {ps : List Part} {s t : State} (h : t.outside ps = s.outside ps) (hp : .heldLow ∉ ps) : t.heldLow = s.heldLow := by
  simpa only [State.outside, hp, if_false] using congrArg State.heldLow h

theorem same_latched {ps : List Part} {s t : State} (h : t.outside ps = s.outside ps) (hp : .latched ∉ ps) : t.latched = s.latched := by
  simpa only [State.outside, hp, if_false] using congrArg State.latched h

theorem same_rsp {ps : List Part} {s t : State} (h : t.outside ps = s.outside ps) (hp : .rsp ∉ ps) : t.rsp = s.rsp := by
  simpa only [State.outside, hp, if_false] using congrArg State.rsp h

theorem same_smbRsp {ps : List Part} {s t : State} (h : t.outside ps = s.outside ps) (hp : .smbRsp ∉ ps) : t.smbRsp = s.smbRsp := by
  simpa only [State.outside, hp, if_false] using congrArg State.smbRsp h

theorem same_free {ps : List Part} {s t : State} (h : t.outside ps = s.outside ps) (hp : .free ∉ ps) : t.free = s.free := by
  simpa only [State.outside, hp, if_false] using congrArg State.free h

end Sys2Proof.Machine
end

