-- ==== Sys2Proof/Laws/Ops.lean ====
section
/-! SUPPORT. The shared operations once more, field by field: each leaves every other part of the state as it was. -/

namespace Sys2Proof.Machine

theorem fire_keeps (s : State) (kind : Nat) (cause : Nat) (arg : Nat) (detail : List Byte) (alert : Bool) :
    (fire s kind cause arg detail alert).pending = s.pending ∧ (fire s kind cause arg detail alert).chip = s.chip ∧ (fire s kind cause arg detail alert).fuses = s.fuses ∧ (fire s kind cause arg detail alert).flash = s.flash ∧ (fire s kind cause arg detail alert).charter = s.charter ∧ (fire s kind cause arg detail alert).clock = s.clock ∧ (fire s kind cause arg detail alert).closers = s.closers ∧ (fire s kind cause arg detail alert).ledger = s.ledger ∧ (fire s kind cause arg detail alert).vols = s.vols ∧ (fire s kind cause arg detail alert).bands = s.bands ∧ (fire s kind cause arg detail alert).plans = s.plans ∧ (fire s kind cause arg detail alert).works = s.works ∧ (fire s kind cause arg detail alert).nextWork = s.nextWork ∧ (fire s kind cause arg detail alert).holds = s.holds ∧ (fire s kind cause arg detail alert).drives = s.drives ∧ (fire s kind cause arg detail alert).sas = s.sas ∧ (fire s kind cause arg detail alert).gov = s.gov ∧ (fire s kind cause arg detail alert).degrade = s.degrade ∧ (fire s kind cause arg detail alert).reshapes = s.reshapes ∧ (fire s kind cause arg detail alert).tellers = s.tellers ∧ (fire s kind cause arg detail alert).scratch = s.scratch ∧ (fire s kind cause arg detail alert).wickets = s.wickets ∧ (fire s kind cause arg detail alert).cmds = s.cmds ∧ (fire s kind cause arg detail alert).returns = s.returns ∧ (fire s kind cause arg detail alert).ints = s.ints ∧ (fire s kind cause arg detail alert).cfg = s.cfg ∧ (fire s kind cause arg detail alert).link = s.link ∧ (fire s kind cause arg detail alert).power = s.power ∧ (fire s kind cause arg detail alert).resets = s.resets ∧ (fire s kind cause arg detail alert).feats = s.feats ∧ (fire s kind cause arg detail alert).vaults = s.vaults ∧ (fire s kind cause arg detail alert).chain = s.chain ∧ (fire s kind cause arg detail alert).pair = s.pair ∧ (fire s kind cause arg detail alert).mgmt = s.mgmt ∧ (fire s kind cause arg detail alert).sensors = s.sensors ∧ (fire s kind cause arg detail alert).smbus = s.smbus ∧ (fire s kind cause arg detail alert).reserves = s.reserves ∧ (fire s kind cause arg detail alert).courier = s.courier ∧ (fire s kind cause arg detail alert).map = s.map ∧ (fire s kind cause arg detail alert).registry = s.registry ∧ (fire s kind cause arg detail alert).dram = s.dram ∧ (fire s kind cause arg detail alert).cache = s.cache ∧ (fire s kind cause arg detail alert).hostMem = s.hostMem ∧ (fire s kind cause arg detail alert).heldLow = s.heldLow ∧ (fire s kind cause arg detail alert).latched = s.latched ∧ (fire s kind cause arg detail alert).rsp = s.rsp ∧ (fire s kind cause arg detail alert).smbRsp = s.smbRsp ∧ (fire s kind cause arg detail alert).free = s.free := by
  have h := fire_outside (ps := [.daybook]) s kind cause arg detail alert (by decide)
  exact ⟨same_pending h (by decide), same_chip h (by decide), same_fuses h (by decide), same_flash h (by decide), same_charter h (by decide), same_clock h (by decide), same_closers h (by decide), same_ledger h (by decide), same_vols h (by decide), same_bands h (by decide), same_plans h (by decide), same_works h (by decide), same_nextWork h (by decide), same_holds h (by decide), same_drives h (by decide), same_sas h (by decide), same_gov h (by decide), same_degrade h (by decide), same_reshapes h (by decide), same_tellers h (by decide), same_scratch h (by decide), same_wickets h (by decide), same_cmds h (by decide), same_returns h (by decide), same_ints h (by decide), same_cfg h (by decide), same_link h (by decide), same_power h (by decide), same_resets h (by decide), same_feats h (by decide), same_vaults h (by decide), same_chain h (by decide), same_pair h (by decide), same_mgmt h (by decide), same_sensors h (by decide), same_smbus h (by decide), same_reserves h (by decide), same_courier h (by decide), same_map h (by decide), same_registry h (by decide), same_dram h (by decide), same_cache h (by decide), same_hostMem h (by decide), same_heldLow h (by decide), same_latched h (by decide), same_rsp h (by decide), same_smbRsp h (by decide), same_free h (by decide)⟩

theorem fireKey_keeps (s : State) (kind : Nat) (cause : Nat) (arg : Nat) (detail : List Byte) (extra : List Byte) (alert : Bool) :
    (fireKey s kind cause arg detail extra alert).pending = s.pending ∧ (fireKey s kind cause arg detail extra alert).chip = s.chip ∧ (fireKey s kind cause arg detail extra alert).fuses = s.fuses ∧ (fireKey s kind cause arg detail extra alert).flash = s.flash ∧ (fireKey s kind cause arg detail extra alert).charter = s.charter ∧ (fireKey s kind cause arg detail extra alert).clock = s.clock ∧ (fireKey s kind cause arg detail extra alert).closers = s.closers ∧ (fireKey s kind cause arg detail extra alert).ledger = s.ledger ∧ (fireKey s kind cause arg detail extra alert).vols = s.vols ∧ (fireKey s kind cause arg detail extra alert).bands = s.bands ∧ (fireKey s kind cause arg detail extra alert).plans = s.plans ∧ (fireKey s kind cause arg detail extra alert).works = s.works ∧ (fireKey s kind cause arg detail extra alert).nextWork = s.nextWork ∧ (fireKey s kind cause arg detail extra alert).holds = s.holds ∧ (fireKey s kind cause arg detail extra alert).drives = s.drives ∧ (fireKey s kind cause arg detail extra alert).sas = s.sas ∧ (fireKey s kind cause arg detail extra alert).gov = s.gov ∧ (fireKey s kind cause arg detail extra alert).degrade = s.degrade ∧ (fireKey s kind cause arg detail extra alert).reshapes = s.reshapes ∧ (fireKey s kind cause arg detail extra alert).tellers = s.tellers ∧ (fireKey s kind cause arg detail extra alert).scratch = s.scratch ∧ (fireKey s kind cause arg detail extra alert).wickets = s.wickets ∧ (fireKey s kind cause arg detail extra alert).cmds = s.cmds ∧ (fireKey s kind cause arg detail extra alert).returns = s.returns ∧ (fireKey s kind cause arg detail extra alert).ints = s.ints ∧ (fireKey s kind cause arg detail extra alert).cfg = s.cfg ∧ (fireKey s kind cause arg detail extra alert).link = s.link ∧ (fireKey s kind cause arg detail extra alert).power = s.power ∧ (fireKey s kind cause arg detail extra alert).resets = s.resets ∧ (fireKey s kind cause arg detail extra alert).feats = s.feats ∧ (fireKey s kind cause arg detail extra alert).vaults = s.vaults ∧ (fireKey s kind cause arg detail extra alert).chain = s.chain ∧ (fireKey s kind cause arg detail extra alert).pair = s.pair ∧ (fireKey s kind cause arg detail extra alert).mgmt = s.mgmt ∧ (fireKey s kind cause arg detail extra alert).sensors = s.sensors ∧ (fireKey s kind cause arg detail extra alert).smbus = s.smbus ∧ (fireKey s kind cause arg detail extra alert).reserves = s.reserves ∧ (fireKey s kind cause arg detail extra alert).courier = s.courier ∧ (fireKey s kind cause arg detail extra alert).map = s.map ∧ (fireKey s kind cause arg detail extra alert).registry = s.registry ∧ (fireKey s kind cause arg detail extra alert).dram = s.dram ∧ (fireKey s kind cause arg detail extra alert).cache = s.cache ∧ (fireKey s kind cause arg detail extra alert).hostMem = s.hostMem ∧ (fireKey s kind cause arg detail extra alert).heldLow = s.heldLow ∧ (fireKey s kind cause arg detail extra alert).latched = s.latched ∧ (fireKey s kind cause arg detail extra alert).rsp = s.rsp ∧ (fireKey s kind cause arg detail extra alert).smbRsp = s.smbRsp ∧ (fireKey s kind cause arg detail extra alert).free = s.free := by
  have h := fireKey_outside (ps := [.daybook]) s kind cause arg detail extra alert (by decide)
  exact ⟨same_pending h (by decide), same_chip h (by decide), same_fuses h (by decide), same_flash h (by decide), same_charter h (by decide), same_clock h (by decide), same_closers h (by decide), same_ledger h (by decide), same_vols h (by decide), same_bands h (by decide), same_plans h (by decide), same_works h (by decide), same_nextWork h (by decide), same_holds h (by decide), same_drives h (by decide), same_sas h (by decide), same_gov h (by decide), same_degrade h (by decide), same_reshapes h (by decide), same_tellers h (by decide), same_scratch h (by decide), same_wickets h (by decide), same_cmds h (by decide), same_returns h (by decide), same_ints h (by decide), same_cfg h (by decide), same_link h (by decide), same_power h (by decide), same_resets h (by decide), same_feats h (by decide), same_vaults h (by decide), same_chain h (by decide), same_pair h (by decide), same_mgmt h (by decide), same_sensors h (by decide), same_smbus h (by decide), same_reserves h (by decide), same_courier h (by decide), same_map h (by decide), same_registry h (by decide), same_dram h (by decide), same_cache h (by decide), same_hostMem h (by decide), same_heldLow h (by decide), same_latched h (by decide), same_rsp h (by decide), same_smbRsp h (by decide), same_free h (by decide)⟩

theorem daybookStart_keeps (s : State) :
    (daybookStart s).pending = s.pending ∧ (daybookStart s).chip = s.chip ∧ (daybookStart s).fuses = s.fuses ∧ (daybookStart s).flash = s.flash ∧ (daybookStart s).charter = s.charter ∧ (daybookStart s).clock = s.clock ∧ (daybookStart s).closers = s.closers ∧ (daybookStart s).ledger = s.ledger ∧ (daybookStart s).vols = s.vols ∧ (daybookStart s).bands = s.bands ∧ (daybookStart s).plans = s.plans ∧ (daybookStart s).works = s.works ∧ (daybookStart s).nextWork = s.nextWork ∧ (daybookStart s).holds = s.holds ∧ (daybookStart s).drives = s.drives ∧ (daybookStart s).sas = s.sas ∧ (daybookStart s).gov = s.gov ∧ (daybookStart s).degrade = s.degrade ∧ (daybookStart s).reshapes = s.reshapes ∧ (daybookStart s).tellers = s.tellers ∧ (daybookStart s).scratch = s.scratch ∧ (daybookStart s).wickets = s.wickets ∧ (daybookStart s).cmds = s.cmds ∧ (daybookStart s).returns = s.returns ∧ (daybookStart s).ints = s.ints ∧ (daybookStart s).cfg = s.cfg ∧ (daybookStart s).link = s.link ∧ (daybookStart s).power = s.power ∧ (daybookStart s).resets = s.resets ∧ (daybookStart s).feats = s.feats ∧ (daybookStart s).vaults = s.vaults ∧ (daybookStart s).chain = s.chain ∧ (daybookStart s).pair = s.pair ∧ (daybookStart s).mgmt = s.mgmt ∧ (daybookStart s).sensors = s.sensors ∧ (daybookStart s).smbus = s.smbus ∧ (daybookStart s).reserves = s.reserves ∧ (daybookStart s).courier = s.courier ∧ (daybookStart s).map = s.map ∧ (daybookStart s).registry = s.registry ∧ (daybookStart s).dram = s.dram ∧ (daybookStart s).cache = s.cache ∧ (daybookStart s).hostMem = s.hostMem ∧ (daybookStart s).heldLow = s.heldLow ∧ (daybookStart s).latched = s.latched ∧ (daybookStart s).rsp = s.rsp ∧ (daybookStart s).smbRsp = s.smbRsp ∧ (daybookStart s).free = s.free := by
  have h := daybookStart_outside (ps := [.daybook]) s (by decide)
  exact ⟨same_pending h (by decide), same_chip h (by decide), same_fuses h (by decide), same_flash h (by decide), same_charter h (by decide), same_clock h (by decide), same_closers h (by decide), same_ledger h (by decide), same_vols h (by decide), same_bands h (by decide), same_plans h (by decide), same_works h (by decide), same_nextWork h (by decide), same_holds h (by decide), same_drives h (by decide), same_sas h (by decide), same_gov h (by decide), same_degrade h (by decide), same_reshapes h (by decide), same_tellers h (by decide), same_scratch h (by decide), same_wickets h (by decide), same_cmds h (by decide), same_returns h (by decide), same_ints h (by decide), same_cfg h (by decide), same_link h (by decide), same_power h (by decide), same_resets h (by decide), same_feats h (by decide), same_vaults h (by decide), same_chain h (by decide), same_pair h (by decide), same_mgmt h (by decide), same_sensors h (by decide), same_smbus h (by decide), same_reserves h (by decide), same_courier h (by decide), same_map h (by decide), same_registry h (by decide), same_dram h (by decide), same_cache h (by decide), same_hostMem h (by decide), same_heldLow h (by decide), same_latched h (by decide), same_rsp h (by decide), same_smbRsp h (by decide), same_free h (by decide)⟩

theorem mgmtCause_keeps (s : State) (n : Nat) :
    (mgmtCause s n).pending = s.pending ∧ (mgmtCause s n).chip = s.chip ∧ (mgmtCause s n).fuses = s.fuses ∧ (mgmtCause s n).flash = s.flash ∧ (mgmtCause s n).charter = s.charter ∧ (mgmtCause s n).clock = s.clock ∧ (mgmtCause s n).closers = s.closers ∧ (mgmtCause s n).ledger = s.ledger ∧ (mgmtCause s n).vols = s.vols ∧ (mgmtCause s n).bands = s.bands ∧ (mgmtCause s n).plans = s.plans ∧ (mgmtCause s n).works = s.works ∧ (mgmtCause s n).nextWork = s.nextWork ∧ (mgmtCause s n).holds = s.holds ∧ (mgmtCause s n).drives = s.drives ∧ (mgmtCause s n).sas = s.sas ∧ (mgmtCause s n).gov = s.gov ∧ (mgmtCause s n).degrade = s.degrade ∧ (mgmtCause s n).reshapes = s.reshapes ∧ (mgmtCause s n).tellers = s.tellers ∧ (mgmtCause s n).scratch = s.scratch ∧ (mgmtCause s n).wickets = s.wickets ∧ (mgmtCause s n).cmds = s.cmds ∧ (mgmtCause s n).returns = s.returns ∧ (mgmtCause s n).cfg = s.cfg ∧ (mgmtCause s n).power = s.power ∧ (mgmtCause s n).resets = s.resets ∧ (mgmtCause s n).feats = s.feats ∧ (mgmtCause s n).vaults = s.vaults ∧ (mgmtCause s n).chain = s.chain ∧ (mgmtCause s n).pair = s.pair ∧ (mgmtCause s n).mgmt = s.mgmt ∧ (mgmtCause s n).sensors = s.sensors ∧ (mgmtCause s n).smbus = s.smbus ∧ (mgmtCause s n).daybook = s.daybook ∧ (mgmtCause s n).reserves = s.reserves ∧ (mgmtCause s n).courier = s.courier ∧ (mgmtCause s n).map = s.map ∧ (mgmtCause s n).registry = s.registry ∧ (mgmtCause s n).dram = s.dram ∧ (mgmtCause s n).cache = s.cache ∧ (mgmtCause s n).heldLow = s.heldLow ∧ (mgmtCause s n).latched = s.latched ∧ (mgmtCause s n).rsp = s.rsp ∧ (mgmtCause s n).smbRsp = s.smbRsp ∧ (mgmtCause s n).free = s.free := by
  have h := mgmtCause_outside (ps := [.ints, .link, .hostMem]) s n (by decide) (by decide) (by decide)
  exact ⟨same_pending h (by decide), same_chip h (by decide), same_fuses h (by decide), same_flash h (by decide), same_charter h (by decide), same_clock h (by decide), same_closers h (by decide), same_ledger h (by decide), same_vols h (by decide), same_bands h (by decide), same_plans h (by decide), same_works h (by decide), same_nextWork h (by decide), same_holds h (by decide), same_drives h (by decide), same_sas h (by decide), same_gov h (by decide), same_degrade h (by decide), same_reshapes h (by decide), same_tellers h (by decide), same_scratch h (by decide), same_wickets h (by decide), same_cmds h (by decide), same_returns h (by decide), same_cfg h (by decide), same_power h (by decide), same_resets h (by decide), same_feats h (by decide), same_vaults h (by decide), same_chain h (by decide), same_pair h (by decide), same_mgmt h (by decide), same_sensors h (by decide), same_smbus h (by decide), same_daybook h (by decide), same_reserves h (by decide), same_courier h (by decide), same_map h (by decide), same_registry h (by decide), same_dram h (by decide), same_cache h (by decide), same_heldLow h (by decide), same_latched h (by decide), same_rsp h (by decide), same_smbRsp h (by decide), same_free h (by decide)⟩

theorem updateIrq_keeps (s : State) :
    (updateIrq s).pending = s.pending ∧ (updateIrq s).chip = s.chip ∧ (updateIrq s).fuses = s.fuses ∧ (updateIrq s).flash = s.flash ∧ (updateIrq s).charter = s.charter ∧ (updateIrq s).clock = s.clock ∧ (updateIrq s).closers = s.closers ∧ (updateIrq s).ledger = s.ledger ∧ (updateIrq s).vols = s.vols ∧ (updateIrq s).bands = s.bands ∧ (updateIrq s).plans = s.plans ∧ (updateIrq s).works = s.works ∧ (updateIrq s).nextWork = s.nextWork ∧ (updateIrq s).holds = s.holds ∧ (updateIrq s).drives = s.drives ∧ (updateIrq s).sas = s.sas ∧ (updateIrq s).gov = s.gov ∧ (updateIrq s).degrade = s.degrade ∧ (updateIrq s).reshapes = s.reshapes ∧ (updateIrq s).tellers = s.tellers ∧ (updateIrq s).scratch = s.scratch ∧ (updateIrq s).wickets = s.wickets ∧ (updateIrq s).cmds = s.cmds ∧ (updateIrq s).returns = s.returns ∧ (updateIrq s).cfg = s.cfg ∧ (updateIrq s).power = s.power ∧ (updateIrq s).resets = s.resets ∧ (updateIrq s).feats = s.feats ∧ (updateIrq s).vaults = s.vaults ∧ (updateIrq s).chain = s.chain ∧ (updateIrq s).pair = s.pair ∧ (updateIrq s).mgmt = s.mgmt ∧ (updateIrq s).sensors = s.sensors ∧ (updateIrq s).smbus = s.smbus ∧ (updateIrq s).daybook = s.daybook ∧ (updateIrq s).reserves = s.reserves ∧ (updateIrq s).courier = s.courier ∧ (updateIrq s).map = s.map ∧ (updateIrq s).registry = s.registry ∧ (updateIrq s).dram = s.dram ∧ (updateIrq s).cache = s.cache ∧ (updateIrq s).heldLow = s.heldLow ∧ (updateIrq s).latched = s.latched ∧ (updateIrq s).rsp = s.rsp ∧ (updateIrq s).smbRsp = s.smbRsp ∧ (updateIrq s).free = s.free := by
  have h := updateIrq_outside (ps := [.ints, .link, .hostMem]) s (by decide) (by decide) (by decide)
  exact ⟨same_pending h (by decide), same_chip h (by decide), same_fuses h (by decide), same_flash h (by decide), same_charter h (by decide), same_clock h (by decide), same_closers h (by decide), same_ledger h (by decide), same_vols h (by decide), same_bands h (by decide), same_plans h (by decide), same_works h (by decide), same_nextWork h (by decide), same_holds h (by decide), same_drives h (by decide), same_sas h (by decide), same_gov h (by decide), same_degrade h (by decide), same_reshapes h (by decide), same_tellers h (by decide), same_scratch h (by decide), same_wickets h (by decide), same_cmds h (by decide), same_returns h (by decide), same_cfg h (by decide), same_power h (by decide), same_resets h (by decide), same_feats h (by decide), same_vaults h (by decide), same_chain h (by decide), same_pair h (by decide), same_mgmt h (by decide), same_sensors h (by decide), same_smbus h (by decide), same_daybook h (by decide), same_reserves h (by decide), same_courier h (by decide), same_map h (by decide), same_registry h (by decide), same_dram h (by decide), same_cache h (by decide), same_heldLow h (by decide), same_latched h (by decide), same_rsp h (by decide), same_smbRsp h (by decide), same_free h (by decide)⟩

theorem hostWrite_keeps (s : State) (a : Nat) (bs : List Byte) :
    (hostWrite s a bs).pending = s.pending ∧ (hostWrite s a bs).chip = s.chip ∧ (hostWrite s a bs).fuses = s.fuses ∧ (hostWrite s a bs).flash = s.flash ∧ (hostWrite s a bs).charter = s.charter ∧ (hostWrite s a bs).clock = s.clock ∧ (hostWrite s a bs).closers = s.closers ∧ (hostWrite s a bs).ledger = s.ledger ∧ (hostWrite s a bs).vols = s.vols ∧ (hostWrite s a bs).bands = s.bands ∧ (hostWrite s a bs).plans = s.plans ∧ (hostWrite s a bs).works = s.works ∧ (hostWrite s a bs).nextWork = s.nextWork ∧ (hostWrite s a bs).holds = s.holds ∧ (hostWrite s a bs).drives = s.drives ∧ (hostWrite s a bs).sas = s.sas ∧ (hostWrite s a bs).gov = s.gov ∧ (hostWrite s a bs).degrade = s.degrade ∧ (hostWrite s a bs).reshapes = s.reshapes ∧ (hostWrite s a bs).tellers = s.tellers ∧ (hostWrite s a bs).scratch = s.scratch ∧ (hostWrite s a bs).wickets = s.wickets ∧ (hostWrite s a bs).cmds = s.cmds ∧ (hostWrite s a bs).returns = s.returns ∧ (hostWrite s a bs).ints = s.ints ∧ (hostWrite s a bs).cfg = s.cfg ∧ (hostWrite s a bs).power = s.power ∧ (hostWrite s a bs).resets = s.resets ∧ (hostWrite s a bs).feats = s.feats ∧ (hostWrite s a bs).vaults = s.vaults ∧ (hostWrite s a bs).chain = s.chain ∧ (hostWrite s a bs).pair = s.pair ∧ (hostWrite s a bs).mgmt = s.mgmt ∧ (hostWrite s a bs).sensors = s.sensors ∧ (hostWrite s a bs).smbus = s.smbus ∧ (hostWrite s a bs).daybook = s.daybook ∧ (hostWrite s a bs).reserves = s.reserves ∧ (hostWrite s a bs).courier = s.courier ∧ (hostWrite s a bs).map = s.map ∧ (hostWrite s a bs).registry = s.registry ∧ (hostWrite s a bs).dram = s.dram ∧ (hostWrite s a bs).cache = s.cache ∧ (hostWrite s a bs).heldLow = s.heldLow ∧ (hostWrite s a bs).latched = s.latched ∧ (hostWrite s a bs).rsp = s.rsp ∧ (hostWrite s a bs).smbRsp = s.smbRsp ∧ (hostWrite s a bs).free = s.free := by
  have h := hostWrite_outside (ps := [.link, .hostMem]) s a bs (by decide) (by decide)
  exact ⟨same_pending h (by decide), same_chip h (by decide), same_fuses h (by decide), same_flash h (by decide), same_charter h (by decide), same_clock h (by decide), same_closers h (by decide), same_ledger h (by decide), same_vols h (by decide), same_bands h (by decide), same_plans h (by decide), same_works h (by decide), same_nextWork h (by decide), same_holds h (by decide), same_drives h (by decide), same_sas h (by decide), same_gov h (by decide), same_degrade h (by decide), same_reshapes h (by decide), same_tellers h (by decide), same_scratch h (by decide), same_wickets h (by decide), same_cmds h (by decide), same_returns h (by decide), same_ints h (by decide), same_cfg h (by decide), same_power h (by decide), same_resets h (by decide), same_feats h (by decide), same_vaults h (by decide), same_chain h (by decide), same_pair h (by decide), same_mgmt h (by decide), same_sensors h (by decide), same_smbus h (by decide), same_daybook h (by decide), same_reserves h (by decide), same_courier h (by decide), same_map h (by decide), same_registry h (by decide), same_dram h (by decide), same_cache h (by decide), same_heldLow h (by decide), same_latched h (by decide), same_rsp h (by decide), same_smbRsp h (by decide), same_free h (by decide)⟩

theorem ringCause_keeps (s : State) (n : Nat) :
    (ringCause s n).pending = s.pending ∧ (ringCause s n).chip = s.chip ∧ (ringCause s n).fuses = s.fuses ∧ (ringCause s n).flash = s.flash ∧ (ringCause s n).charter = s.charter ∧ (ringCause s n).clock = s.clock ∧ (ringCause s n).closers = s.closers ∧ (ringCause s n).ledger = s.ledger ∧ (ringCause s n).vols = s.vols ∧ (ringCause s n).bands = s.bands ∧ (ringCause s n).plans = s.plans ∧ (ringCause s n).works = s.works ∧ (ringCause s n).nextWork = s.nextWork ∧ (ringCause s n).holds = s.holds ∧ (ringCause s n).drives = s.drives ∧ (ringCause s n).sas = s.sas ∧ (ringCause s n).gov = s.gov ∧ (ringCause s n).degrade = s.degrade ∧ (ringCause s n).reshapes = s.reshapes ∧ (ringCause s n).tellers = s.tellers ∧ (ringCause s n).scratch = s.scratch ∧ (ringCause s n).wickets = s.wickets ∧ (ringCause s n).cmds = s.cmds ∧ (ringCause s n).returns = s.returns ∧ (ringCause s n).cfg = s.cfg ∧ (ringCause s n).power = s.power ∧ (ringCause s n).resets = s.resets ∧ (ringCause s n).feats = s.feats ∧ (ringCause s n).vaults = s.vaults ∧ (ringCause s n).chain = s.chain ∧ (ringCause s n).pair = s.pair ∧ (ringCause s n).mgmt = s.mgmt ∧ (ringCause s n).sensors = s.sensors ∧ (ringCause s n).smbus = s.smbus ∧ (ringCause s n).daybook = s.daybook ∧ (ringCause s n).reserves = s.reserves ∧ (ringCause s n).courier = s.courier ∧ (ringCause s n).map = s.map ∧ (ringCause s n).registry = s.registry ∧ (ringCause s n).dram = s.dram ∧ (ringCause s n).cache = s.cache ∧ (ringCause s n).heldLow = s.heldLow ∧ (ringCause s n).latched = s.latched ∧ (ringCause s n).rsp = s.rsp ∧ (ringCause s n).smbRsp = s.smbRsp ∧ (ringCause s n).free = s.free := by
  have h := ringCause_outside (ps := [.ints, .link, .hostMem]) s n (by decide) (by decide) (by decide)
  exact ⟨same_pending h (by decide), same_chip h (by decide), same_fuses h (by decide), same_flash h (by decide), same_charter h (by decide), same_clock h (by decide), same_closers h (by decide), same_ledger h (by decide), same_vols h (by decide), same_bands h (by decide), same_plans h (by decide), same_works h (by decide), same_nextWork h (by decide), same_holds h (by decide), same_drives h (by decide), same_sas h (by decide), same_gov h (by decide), same_degrade h (by decide), same_reshapes h (by decide), same_tellers h (by decide), same_scratch h (by decide), same_wickets h (by decide), same_cmds h (by decide), same_returns h (by decide), same_cfg h (by decide), same_power h (by decide), same_resets h (by decide), same_feats h (by decide), same_vaults h (by decide), same_chain h (by decide), same_pair h (by decide), same_mgmt h (by decide), same_sensors h (by decide), same_smbus h (by decide), same_daybook h (by decide), same_reserves h (by decide), same_courier h (by decide), same_map h (by decide), same_registry h (by decide), same_dram h (by decide), same_cache h (by decide), same_heldLow h (by decide), same_latched h (by decide), same_rsp h (by decide), same_smbRsp h (by decide), same_free h (by decide)⟩

theorem history_keeps (s : State) (element : Nat) (action : Nat) (cause : Nat) (physical : Nat) (logical : Nat) :
    (history s element action cause physical logical).pending = s.pending ∧ (history s element action cause physical logical).chip = s.chip ∧ (history s element action cause physical logical).fuses = s.fuses ∧ (history s element action cause physical logical).flash = s.flash ∧ (history s element action cause physical logical).charter = s.charter ∧ (history s element action cause physical logical).clock = s.clock ∧ (history s element action cause physical logical).closers = s.closers ∧ (history s element action cause physical logical).ledger = s.ledger ∧ (history s element action cause physical logical).vols = s.vols ∧ (history s element action cause physical logical).bands = s.bands ∧ (history s element action cause physical logical).plans = s.plans ∧ (history s element action cause physical logical).works = s.works ∧ (history s element action cause physical logical).nextWork = s.nextWork ∧ (history s element action cause physical logical).holds = s.holds ∧ (history s element action cause physical logical).drives = s.drives ∧ (history s element action cause physical logical).sas = s.sas ∧ (history s element action cause physical logical).gov = s.gov ∧ (history s element action cause physical logical).degrade = s.degrade ∧ (history s element action cause physical logical).reshapes = s.reshapes ∧ (history s element action cause physical logical).tellers = s.tellers ∧ (history s element action cause physical logical).scratch = s.scratch ∧ (history s element action cause physical logical).wickets = s.wickets ∧ (history s element action cause physical logical).cmds = s.cmds ∧ (history s element action cause physical logical).returns = s.returns ∧ (history s element action cause physical logical).cfg = s.cfg ∧ (history s element action cause physical logical).power = s.power ∧ (history s element action cause physical logical).resets = s.resets ∧ (history s element action cause physical logical).feats = s.feats ∧ (history s element action cause physical logical).vaults = s.vaults ∧ (history s element action cause physical logical).chain = s.chain ∧ (history s element action cause physical logical).pair = s.pair ∧ (history s element action cause physical logical).mgmt = s.mgmt ∧ (history s element action cause physical logical).sensors = s.sensors ∧ (history s element action cause physical logical).smbus = s.smbus ∧ (history s element action cause physical logical).courier = s.courier ∧ (history s element action cause physical logical).map = s.map ∧ (history s element action cause physical logical).registry = s.registry ∧ (history s element action cause physical logical).dram = s.dram ∧ (history s element action cause physical logical).cache = s.cache ∧ (history s element action cause physical logical).heldLow = s.heldLow ∧ (history s element action cause physical logical).latched = s.latched ∧ (history s element action cause physical logical).rsp = s.rsp ∧ (history s element action cause physical logical).smbRsp = s.smbRsp ∧ (history s element action cause physical logical).free = s.free := by
  have h := history_outside (ps := [.ints, .link, .daybook, .reserves, .hostMem]) s element action cause physical logical (by decide) (by decide) (by decide) (by decide) (by decide)
  exact ⟨same_pending h (by decide), same_chip h (by decide), same_fuses h (by decide), same_flash h (by decide), same_charter h (by decide), same_clock h (by decide), same_closers h (by decide), same_ledger h (by decide), same_vols h (by decide), same_bands h (by decide), same_plans h (by decide), same_works h (by decide), same_nextWork h (by decide), same_holds h (by decide), same_drives h (by decide), same_sas h (by decide), same_gov h (by decide), same_degrade h (by decide), same_reshapes h (by decide), same_tellers h (by decide), same_scratch h (by decide), same_wickets h (by decide), same_cmds h (by decide), same_returns h (by decide), same_cfg h (by decide), same_power h (by decide), same_resets h (by decide), same_feats h (by decide), same_vaults h (by decide), same_chain h (by decide), same_pair h (by decide), same_mgmt h (by decide), same_sensors h (by decide), same_smbus h (by decide), same_courier h (by decide), same_map h (by decide), same_registry h (by decide), same_dram h (by decide), same_cache h (by decide), same_heldLow h (by decide), same_latched h (by decide), same_rsp h (by decide), same_smbRsp h (by decide), same_free h (by decide)⟩

theorem setPair_keeps (s : State) (role : Nat) (mode : Nat) (alert : Bool) :
    (setPair s role mode alert).pending = s.pending ∧ (setPair s role mode alert).chip = s.chip ∧ (setPair s role mode alert).fuses = s.fuses ∧ (setPair s role mode alert).flash = s.flash ∧ (setPair s role mode alert).charter = s.charter ∧ (setPair s role mode alert).clock = s.clock ∧ (setPair s role mode alert).closers = s.closers ∧ (setPair s role mode alert).ledger = s.ledger ∧ (setPair s role mode alert).vols = s.vols ∧ (setPair s role mode alert).bands = s.bands ∧ (setPair s role mode alert).plans = s.plans ∧ (setPair s role mode alert).works = s.works ∧ (setPair s role mode alert).nextWork = s.nextWork ∧ (setPair s role mode alert).holds = s.holds ∧ (setPair s role mode alert).drives = s.drives ∧ (setPair s role mode alert).sas = s.sas ∧ (setPair s role mode alert).gov = s.gov ∧ (setPair s role mode alert).degrade = s.degrade ∧ (setPair s role mode alert).reshapes = s.reshapes ∧ (setPair s role mode alert).tellers = s.tellers ∧ (setPair s role mode alert).scratch = s.scratch ∧ (setPair s role mode alert).wickets = s.wickets ∧ (setPair s role mode alert).cmds = s.cmds ∧ (setPair s role mode alert).returns = s.returns ∧ (setPair s role mode alert).cfg = s.cfg ∧ (setPair s role mode alert).power = s.power ∧ (setPair s role mode alert).resets = s.resets ∧ (setPair s role mode alert).feats = s.feats ∧ (setPair s role mode alert).vaults = s.vaults ∧ (setPair s role mode alert).chain = s.chain ∧ (setPair s role mode alert).mgmt = s.mgmt ∧ (setPair s role mode alert).sensors = s.sensors ∧ (setPair s role mode alert).smbus = s.smbus ∧ (setPair s role mode alert).reserves = s.reserves ∧ (setPair s role mode alert).courier = s.courier ∧ (setPair s role mode alert).map = s.map ∧ (setPair s role mode alert).registry = s.registry ∧ (setPair s role mode alert).dram = s.dram ∧ (setPair s role mode alert).cache = s.cache ∧ (setPair s role mode alert).heldLow = s.heldLow ∧ (setPair s role mode alert).latched = s.latched ∧ (setPair s role mode alert).rsp = s.rsp ∧ (setPair s role mode alert).smbRsp = s.smbRsp ∧ (setPair s role mode alert).free = s.free := by
  have h := setPair_outside (ps := [.ints, .link, .pair, .daybook, .hostMem]) s role mode alert (by decide) (by decide) (by decide) (by decide) (by decide)
  exact ⟨same_pending h (by decide), same_chip h (by decide), same_fuses h (by decide), same_flash h (by decide), same_charter h (by decide), same_clock h (by decide), same_closers h (by decide), same_ledger h (by decide), same_vols h (by decide), same_bands h (by decide), same_plans h (by decide), same_works h (by decide), same_nextWork h (by decide), same_holds h (by decide), same_drives h (by decide), same_sas h (by decide), same_gov h (by decide), same_degrade h (by decide), same_reshapes h (by decide), same_tellers h (by decide), same_scratch h (by decide), same_wickets h (by decide), same_cmds h (by decide), same_returns h (by decide), same_cfg h (by decide), same_power h (by decide), same_resets h (by decide), same_feats h (by decide), same_vaults h (by decide), same_chain h (by decide), same_mgmt h (by decide), same_sensors h (by decide), same_smbus h (by decide), same_reserves h (by decide), same_courier h (by decide), same_map h (by decide), same_registry h (by decide), same_dram h (by decide), same_cache h (by decide), same_heldLow h (by decide), same_latched h (by decide), same_rsp h (by decide), same_smbRsp h (by decide), same_free h (by decide)⟩

theorem setCloserMode_keeps (s : State) (m : Nat) :
    (setCloserMode s m).pending = s.pending ∧ (setCloserMode s m).chip = s.chip ∧ (setCloserMode s m).fuses = s.fuses ∧ (setCloserMode s m).flash = s.flash ∧ (setCloserMode s m).charter = s.charter ∧ (setCloserMode s m).clock = s.clock ∧ (setCloserMode s m).ledger = s.ledger ∧ (setCloserMode s m).vols = s.vols ∧ (setCloserMode s m).bands = s.bands ∧ (setCloserMode s m).plans = s.plans ∧ (setCloserMode s m).works = s.works ∧ (setCloserMode s m).nextWork = s.nextWork ∧ (setCloserMode s m).holds = s.holds ∧ (setCloserMode s m).drives = s.drives ∧ (setCloserMode s m).sas = s.sas ∧ (setCloserMode s m).gov = s.gov ∧ (setCloserMode s m).degrade = s.degrade ∧ (setCloserMode s m).reshapes = s.reshapes ∧ (setCloserMode s m).tellers = s.tellers ∧ (setCloserMode s m).scratch = s.scratch ∧ (setCloserMode s m).wickets = s.wickets ∧ (setCloserMode s m).cmds = s.cmds ∧ (setCloserMode s m).returns = s.returns ∧ (setCloserMode s m).cfg = s.cfg ∧ (setCloserMode s m).power = s.power ∧ (setCloserMode s m).resets = s.resets ∧ (setCloserMode s m).feats = s.feats ∧ (setCloserMode s m).vaults = s.vaults ∧ (setCloserMode s m).chain = s.chain ∧ (setCloserMode s m).pair = s.pair ∧ (setCloserMode s m).mgmt = s.mgmt ∧ (setCloserMode s m).sensors = s.sensors ∧ (setCloserMode s m).smbus = s.smbus ∧ (setCloserMode s m).daybook = s.daybook ∧ (setCloserMode s m).reserves = s.reserves ∧ (setCloserMode s m).courier = s.courier ∧ (setCloserMode s m).map = s.map ∧ (setCloserMode s m).registry = s.registry ∧ (setCloserMode s m).dram = s.dram ∧ (setCloserMode s m).cache = s.cache ∧ (setCloserMode s m).heldLow = s.heldLow ∧ (setCloserMode s m).latched = s.latched ∧ (setCloserMode s m).rsp = s.rsp ∧ (setCloserMode s m).smbRsp = s.smbRsp ∧ (setCloserMode s m).free = s.free := by
  have h := setCloserMode_outside (ps := [.closers, .ints, .link, .hostMem]) s m (by decide) (by decide) (by decide) (by decide)
  exact ⟨same_pending h (by decide), same_chip h (by decide), same_fuses h (by decide), same_flash h (by decide), same_charter h (by decide), same_clock h (by decide), same_ledger h (by decide), same_vols h (by decide), same_bands h (by decide), same_plans h (by decide), same_works h (by decide), same_nextWork h (by decide), same_holds h (by decide), same_drives h (by decide), same_sas h (by decide), same_gov h (by decide), same_degrade h (by decide), same_reshapes h (by decide), same_tellers h (by decide), same_scratch h (by decide), same_wickets h (by decide), same_cmds h (by decide), same_returns h (by decide), same_cfg h (by decide), same_power h (by decide), same_resets h (by decide), same_feats h (by decide), same_vaults h (by decide), same_chain h (by decide), same_pair h (by decide), same_mgmt h (by decide), same_sensors h (by decide), same_smbus h (by decide), same_daybook h (by decide), same_reserves h (by decide), same_courier h (by decide), same_map h (by decide), same_registry h (by decide), same_dram h (by decide), same_cache h (by decide), same_heldLow h (by decide), same_latched h (by decide), same_rsp h (by decide), same_smbRsp h (by decide), same_free h (by decide)⟩

theorem setAllWickets_keeps (s : State) (f : Wicket → Wicket) :
    (setAllWickets s f).pending = s.pending ∧ (setAllWickets s f).chip = s.chip ∧ (setAllWickets s f).fuses = s.fuses ∧ (setAllWickets s f).flash = s.flash ∧ (setAllWickets s f).charter = s.charter ∧ (setAllWickets s f).clock = s.clock ∧ (setAllWickets s f).closers = s.closers ∧ (setAllWickets s f).ledger = s.ledger ∧ (setAllWickets s f).vols = s.vols ∧ (setAllWickets s f).bands = s.bands ∧ (setAllWickets s f).plans = s.plans ∧ (setAllWickets s f).works = s.works ∧ (setAllWickets s f).nextWork = s.nextWork ∧ (setAllWickets s f).holds = s.holds ∧ (setAllWickets s f).drives = s.drives ∧ (setAllWickets s f).sas = s.sas ∧ (setAllWickets s f).gov = s.gov ∧ (setAllWickets s f).degrade = s.degrade ∧ (setAllWickets s f).reshapes = s.reshapes ∧ (setAllWickets s f).tellers = s.tellers ∧ (setAllWickets s f).scratch = s.scratch ∧ (setAllWickets s f).cmds = s.cmds ∧ (setAllWickets s f).returns = s.returns ∧ (setAllWickets s f).ints = s.ints ∧ (setAllWickets s f).cfg = s.cfg ∧ (setAllWickets s f).link = s.link ∧ (setAllWickets s f).power = s.power ∧ (setAllWickets s f).resets = s.resets ∧ (setAllWickets s f).feats = s.feats ∧ (setAllWickets s f).vaults = s.vaults ∧ (setAllWickets s f).chain = s.chain ∧ (setAllWickets s f).pair = s.pair ∧ (setAllWickets s f).mgmt = s.mgmt ∧ (setAllWickets s f).sensors = s.sensors ∧ (setAllWickets s f).smbus = s.smbus ∧ (setAllWickets s f).daybook = s.daybook ∧ (setAllWickets s f).reserves = s.reserves ∧ (setAllWickets s f).courier = s.courier ∧ (setAllWickets s f).map = s.map ∧ (setAllWickets s f).registry = s.registry ∧ (setAllWickets s f).dram = s.dram ∧ (setAllWickets s f).cache = s.cache ∧ (setAllWickets s f).hostMem = s.hostMem ∧ (setAllWickets s f).heldLow = s.heldLow ∧ (setAllWickets s f).latched = s.latched ∧ (setAllWickets s f).rsp = s.rsp ∧ (setAllWickets s f).smbRsp = s.smbRsp ∧ (setAllWickets s f).free = s.free := by
  have h := setAllWickets_outside (ps := [.wickets]) s f (by decide)
  exact ⟨same_pending h (by decide), same_chip h (by decide), same_fuses h (by decide), same_flash h (by decide), same_charter h (by decide), same_clock h (by decide), same_closers h (by decide), same_ledger h (by decide), same_vols h (by decide), same_bands h (by decide), same_plans h (by decide), same_works h (by decide), same_nextWork h (by decide), same_holds h (by decide), same_drives h (by decide), same_sas h (by decide), same_gov h (by decide), same_degrade h (by decide), same_reshapes h (by decide), same_tellers h (by decide), same_scratch h (by decide), same_cmds h (by decide), same_returns h (by decide), same_ints h (by decide), same_cfg h (by decide), same_link h (by decide), same_power h (by decide), same_resets h (by decide), same_feats h (by decide), same_vaults h (by decide), same_chain h (by decide), same_pair h (by decide), same_mgmt h (by decide), same_sensors h (by decide), same_smbus h (by decide), same_daybook h (by decide), same_reserves h (by decide), same_courier h (by decide), same_map h (by decide), same_registry h (by decide), same_dram h (by decide), same_cache h (by decide), same_hostMem h (by decide), same_heldLow h (by decide), same_latched h (by decide), same_rsp h (by decide), same_smbRsp h (by decide), same_free h (by decide)⟩

theorem halt_keeps (s : State) :
    (halt s).pending = s.pending ∧ (halt s).fuses = s.fuses ∧ (halt s).flash = s.flash ∧ (halt s).charter = s.charter ∧ (halt s).clock = s.clock ∧ (halt s).ledger = s.ledger ∧ (halt s).vols = s.vols ∧ (halt s).bands = s.bands ∧ (halt s).plans = s.plans ∧ (halt s).works = s.works ∧ (halt s).nextWork = s.nextWork ∧ (halt s).holds = s.holds ∧ (halt s).drives = s.drives ∧ (halt s).sas = s.sas ∧ (halt s).gov = s.gov ∧ (halt s).degrade = s.degrade ∧ (halt s).reshapes = s.reshapes ∧ (halt s).tellers = s.tellers ∧ (halt s).scratch = s.scratch ∧ (halt s).cmds = s.cmds ∧ (halt s).returns = s.returns ∧ (halt s).cfg = s.cfg ∧ (halt s).power = s.power ∧ (halt s).resets = s.resets ∧ (halt s).feats = s.feats ∧ (halt s).vaults = s.vaults ∧ (halt s).chain = s.chain ∧ (halt s).mgmt = s.mgmt ∧ (halt s).sensors = s.sensors ∧ (halt s).smbus = s.smbus ∧ (halt s).reserves = s.reserves ∧ (halt s).courier = s.courier ∧ (halt s).map = s.map ∧ (halt s).registry = s.registry ∧ (halt s).dram = s.dram ∧ (halt s).cache = s.cache ∧ (halt s).heldLow = s.heldLow ∧ (halt s).latched = s.latched ∧ (halt s).rsp = s.rsp ∧ (halt s).smbRsp = s.smbRsp ∧ (halt s).free = s.free := by
  have h := halt_outside (ps := [.chip, .closers, .wickets, .ints, .link, .pair, .daybook, .hostMem]) s (by decide) (by decide) (by decide) (by decide) (by decide) (by decide) (by decide) (by decide)
  exact ⟨same_pending h (by decide), same_fuses h (by decide), same_flash h (by decide), same_charter h (by decide), same_clock h (by decide), same_ledger h (by decide), same_vols h (by decide), same_bands h (by decide), same_plans h (by decide), same_works h (by decide), same_nextWork h (by decide), same_holds h (by decide), same_drives h (by decide), same_sas h (by decide), same_gov h (by decide), same_degrade h (by decide), same_reshapes h (by decide), same_tellers h (by decide), same_scratch h (by decide), same_cmds h (by decide), same_returns h (by decide), same_cfg h (by decide), same_power h (by decide), same_resets h (by decide), same_feats h (by decide), same_vaults h (by decide), same_chain h (by decide), same_mgmt h (by decide), same_sensors h (by decide), same_smbus h (by decide), same_reserves h (by decide), same_courier h (by decide), same_map h (by decide), same_registry h (by decide), same_dram h (by decide), same_cache h (by decide), same_heldLow h (by decide), same_latched h (by decide), same_rsp h (by decide), same_smbRsp h (by decide), same_free h (by decide)⟩

theorem streamSend_keeps (s : State) (ws : List (List Byte)) :
    (streamSend s ws).pending = s.pending ∧ (streamSend s ws).chip = s.chip ∧ (streamSend s ws).fuses = s.fuses ∧ (streamSend s ws).flash = s.flash ∧ (streamSend s ws).charter = s.charter ∧ (streamSend s ws).clock = s.clock ∧ (streamSend s ws).closers = s.closers ∧ (streamSend s ws).ledger = s.ledger ∧ (streamSend s ws).vols = s.vols ∧ (streamSend s ws).bands = s.bands ∧ (streamSend s ws).plans = s.plans ∧ (streamSend s ws).works = s.works ∧ (streamSend s ws).nextWork = s.nextWork ∧ (streamSend s ws).holds = s.holds ∧ (streamSend s ws).drives = s.drives ∧ (streamSend s ws).sas = s.sas ∧ (streamSend s ws).gov = s.gov ∧ (streamSend s ws).degrade = s.degrade ∧ (streamSend s ws).reshapes = s.reshapes ∧ (streamSend s ws).tellers = s.tellers ∧ (streamSend s ws).scratch = s.scratch ∧ (streamSend s ws).wickets = s.wickets ∧ (streamSend s ws).cmds = s.cmds ∧ (streamSend s ws).returns = s.returns ∧ (streamSend s ws).ints = s.ints ∧ (streamSend s ws).cfg = s.cfg ∧ (streamSend s ws).link = s.link ∧ (streamSend s ws).power = s.power ∧ (streamSend s ws).resets = s.resets ∧ (streamSend s ws).feats = s.feats ∧ (streamSend s ws).vaults = s.vaults ∧ (streamSend s ws).pair = s.pair ∧ (streamSend s ws).mgmt = s.mgmt ∧ (streamSend s ws).sensors = s.sensors ∧ (streamSend s ws).smbus = s.smbus ∧ (streamSend s ws).daybook = s.daybook ∧ (streamSend s ws).reserves = s.reserves ∧ (streamSend s ws).courier = s.courier ∧ (streamSend s ws).map = s.map ∧ (streamSend s ws).registry = s.registry ∧ (streamSend s ws).dram = s.dram ∧ (streamSend s ws).cache = s.cache ∧ (streamSend s ws).hostMem = s.hostMem ∧ (streamSend s ws).heldLow = s.heldLow ∧ (streamSend s ws).latched = s.latched ∧ (streamSend s ws).rsp = s.rsp ∧ (streamSend s ws).smbRsp = s.smbRsp ∧ (streamSend s ws).free = s.free := by
  have h := streamSend_outside (ps := [.chain]) s ws (by decide)
  exact ⟨same_pending h (by decide), same_chip h (by decide), same_fuses h (by decide), same_flash h (by decide), same_charter h (by decide), same_clock h (by decide), same_closers h (by decide), same_ledger h (by decide), same_vols h (by decide), same_bands h (by decide), same_plans h (by decide), same_works h (by decide), same_nextWork h (by decide), same_holds h (by decide), same_drives h (by decide), same_sas h (by decide), same_gov h (by decide), same_degrade h (by decide), same_reshapes h (by decide), same_tellers h (by decide), same_scratch h (by decide), same_wickets h (by decide), same_cmds h (by decide), same_returns h (by decide), same_ints h (by decide), same_cfg h (by decide), same_link h (by decide), same_power h (by decide), same_resets h (by decide), same_feats h (by decide), same_vaults h (by decide), same_pair h (by decide), same_mgmt h (by decide), same_sensors h (by decide), same_smbus h (by decide), same_daybook h (by decide), same_reserves h (by decide), same_courier h (by decide), same_map h (by decide), same_registry h (by decide), same_dram h (by decide), same_cache h (by decide), same_hostMem h (by decide), same_heldLow h (by decide), same_latched h (by decide), same_rsp h (by decide), same_smbRsp h (by decide), same_free h (by decide)⟩

theorem streamRecord_keeps (s : State) (r : Rec) :
    (streamRecord s r).pending = s.pending ∧ (streamRecord s r).chip = s.chip ∧ (streamRecord s r).fuses = s.fuses ∧ (streamRecord s r).flash = s.flash ∧ (streamRecord s r).charter = s.charter ∧ (streamRecord s r).clock = s.clock ∧ (streamRecord s r).closers = s.closers ∧ (streamRecord s r).ledger = s.ledger ∧ (streamRecord s r).vols = s.vols ∧ (streamRecord s r).bands = s.bands ∧ (streamRecord s r).plans = s.plans ∧ (streamRecord s r).works = s.works ∧ (streamRecord s r).nextWork = s.nextWork ∧ (streamRecord s r).holds = s.holds ∧ (streamRecord s r).drives = s.drives ∧ (streamRecord s r).sas = s.sas ∧ (streamRecord s r).gov = s.gov ∧ (streamRecord s r).degrade = s.degrade ∧ (streamRecord s r).reshapes = s.reshapes ∧ (streamRecord s r).tellers = s.tellers ∧ (streamRecord s r).scratch = s.scratch ∧ (streamRecord s r).wickets = s.wickets ∧ (streamRecord s r).cmds = s.cmds ∧ (streamRecord s r).returns = s.returns ∧ (streamRecord s r).ints = s.ints ∧ (streamRecord s r).cfg = s.cfg ∧ (streamRecord s r).link = s.link ∧ (streamRecord s r).power = s.power ∧ (streamRecord s r).resets = s.resets ∧ (streamRecord s r).feats = s.feats ∧ (streamRecord s r).vaults = s.vaults ∧ (streamRecord s r).pair = s.pair ∧ (streamRecord s r).mgmt = s.mgmt ∧ (streamRecord s r).sensors = s.sensors ∧ (streamRecord s r).smbus = s.smbus ∧ (streamRecord s r).daybook = s.daybook ∧ (streamRecord s r).reserves = s.reserves ∧ (streamRecord s r).courier = s.courier ∧ (streamRecord s r).map = s.map ∧ (streamRecord s r).registry = s.registry ∧ (streamRecord s r).dram = s.dram ∧ (streamRecord s r).cache = s.cache ∧ (streamRecord s r).hostMem = s.hostMem ∧ (streamRecord s r).heldLow = s.heldLow ∧ (streamRecord s r).latched = s.latched ∧ (streamRecord s r).rsp = s.rsp ∧ (streamRecord s r).smbRsp = s.smbRsp ∧ (streamRecord s r).free = s.free := by
  have h := streamRecord_outside (ps := [.chain]) s r (by decide)
  exact ⟨same_pending h (by decide), same_chip h (by decide), same_fuses h (by decide), same_flash h (by decide), same_charter h (by decide), same_clock h (by decide), same_closers h (by decide), same_ledger h (by decide), same_vols h (by decide), same_bands h (by decide), same_plans h (by decide), same_works h (by decide), same_nextWork h (by decide), same_holds h (by decide), same_drives h (by decide), same_sas h (by decide), same_gov h (by decide), same_degrade h (by decide), same_reshapes h (by decide), same_tellers h (by decide), same_scratch h (by decide), same_wickets h (by decide), same_cmds h (by decide), same_returns h (by decide), same_ints h (by decide), same_cfg h (by decide), same_link h (by decide), same_power h (by decide), same_resets h (by decide), same_feats h (by decide), same_vaults h (by decide), same_pair h (by decide), same_mgmt h (by decide), same_sensors h (by decide), same_smbus h (by decide), same_daybook h (by decide), same_reserves h (by decide), same_courier h (by decide), same_map h (by decide), same_registry h (by decide), same_dram h (by decide), same_cache h (by decide), same_hostMem h (by decide), same_heldLow h (by decide), same_latched h (by decide), same_rsp h (by decide), same_smbRsp h (by decide), same_free h (by decide)⟩

theorem sendControl_keeps (s : State) (typ : Nat) (body : List Byte) :
    (sendControl s typ body).pending = s.pending ∧ (sendControl s typ body).chip = s.chip ∧ (sendControl s typ body).fuses = s.fuses ∧ (sendControl s typ body).flash = s.flash ∧ (sendControl s typ body).charter = s.charter ∧ (sendControl s typ body).clock = s.clock ∧ (sendControl s typ body).closers = s.closers ∧ (sendControl s typ body).ledger = s.ledger ∧ (sendControl s typ body).vols = s.vols ∧ (sendControl s typ body).bands = s.bands ∧ (sendControl s typ body).plans = s.plans ∧ (sendControl s typ body).works = s.works ∧ (sendControl s typ body).nextWork = s.nextWork ∧ (sendControl s typ body).holds = s.holds ∧ (sendControl s typ body).drives = s.drives ∧ (sendControl s typ body).sas = s.sas ∧ (sendControl s typ body).gov = s.gov ∧ (sendControl s typ body).degrade = s.degrade ∧ (sendControl s typ body).reshapes = s.reshapes ∧ (sendControl s typ body).tellers = s.tellers ∧ (sendControl s typ body).scratch = s.scratch ∧ (sendControl s typ body).wickets = s.wickets ∧ (sendControl s typ body).cmds = s.cmds ∧ (sendControl s typ body).returns = s.returns ∧ (sendControl s typ body).ints = s.ints ∧ (sendControl s typ body).cfg = s.cfg ∧ (sendControl s typ body).link = s.link ∧ (sendControl s typ body).power = s.power ∧ (sendControl s typ body).resets = s.resets ∧ (sendControl s typ body).feats = s.feats ∧ (sendControl s typ body).vaults = s.vaults ∧ (sendControl s typ body).pair = s.pair ∧ (sendControl s typ body).mgmt = s.mgmt ∧ (sendControl s typ body).sensors = s.sensors ∧ (sendControl s typ body).smbus = s.smbus ∧ (sendControl s typ body).daybook = s.daybook ∧ (sendControl s typ body).reserves = s.reserves ∧ (sendControl s typ body).courier = s.courier ∧ (sendControl s typ body).map = s.map ∧ (sendControl s typ body).registry = s.registry ∧ (sendControl s typ body).dram = s.dram ∧ (sendControl s typ body).cache = s.cache ∧ (sendControl s typ body).hostMem = s.hostMem ∧ (sendControl s typ body).heldLow = s.heldLow ∧ (sendControl s typ body).latched = s.latched ∧ (sendControl s typ body).rsp = s.rsp ∧ (sendControl s typ body).smbRsp = s.smbRsp ∧ (sendControl s typ body).free = s.free := by
  have h := sendControl_outside (ps := [.chain]) s typ body (by decide)
  exact ⟨same_pending h (by decide), same_chip h (by decide), same_fuses h (by decide), same_flash h (by decide), same_charter h (by decide), same_clock h (by decide), same_closers h (by decide), same_ledger h (by decide), same_vols h (by decide), same_bands h (by decide), same_plans h (by decide), same_works h (by decide), same_nextWork h (by decide), same_holds h (by decide), same_drives h (by decide), same_sas h (by decide), same_gov h (by decide), same_degrade h (by decide), same_reshapes h (by decide), same_tellers h (by decide), same_scratch h (by decide), same_wickets h (by decide), same_cmds h (by decide), same_returns h (by decide), same_ints h (by decide), same_cfg h (by decide), same_link h (by decide), same_power h (by decide), same_resets h (by decide), same_feats h (by decide), same_vaults h (by decide), same_pair h (by decide), same_mgmt h (by decide), same_sensors h (by decide), same_smbus h (by decide), same_daybook h (by decide), same_reserves h (by decide), same_courier h (by decide), same_map h (by decide), same_registry h (by decide), same_dram h (by decide), same_cache h (by decide), same_hostMem h (by decide), same_heldLow h (by decide), same_latched h (by decide), same_rsp h (by decide), same_smbRsp h (by decide), same_free h (by decide)⟩

theorem releaseRec_keeps (s : State) (seq : Nat) :
    (releaseRec s seq).pending = s.pending ∧ (releaseRec s seq).chip = s.chip ∧ (releaseRec s seq).fuses = s.fuses ∧ (releaseRec s seq).flash = s.flash ∧ (releaseRec s seq).charter = s.charter ∧ (releaseRec s seq).clock = s.clock ∧ (releaseRec s seq).closers = s.closers ∧ (releaseRec s seq).vols = s.vols ∧ (releaseRec s seq).bands = s.bands ∧ (releaseRec s seq).plans = s.plans ∧ (releaseRec s seq).works = s.works ∧ (releaseRec s seq).nextWork = s.nextWork ∧ (releaseRec s seq).holds = s.holds ∧ (releaseRec s seq).drives = s.drives ∧ (releaseRec s seq).sas = s.sas ∧ (releaseRec s seq).gov = s.gov ∧ (releaseRec s seq).degrade = s.degrade ∧ (releaseRec s seq).reshapes = s.reshapes ∧ (releaseRec s seq).tellers = s.tellers ∧ (releaseRec s seq).scratch = s.scratch ∧ (releaseRec s seq).wickets = s.wickets ∧ (releaseRec s seq).cmds = s.cmds ∧ (releaseRec s seq).returns = s.returns ∧ (releaseRec s seq).ints = s.ints ∧ (releaseRec s seq).cfg = s.cfg ∧ (releaseRec s seq).link = s.link ∧ (releaseRec s seq).power = s.power ∧ (releaseRec s seq).resets = s.resets ∧ (releaseRec s seq).feats = s.feats ∧ (releaseRec s seq).vaults = s.vaults ∧ (releaseRec s seq).pair = s.pair ∧ (releaseRec s seq).mgmt = s.mgmt ∧ (releaseRec s seq).sensors = s.sensors ∧ (releaseRec s seq).smbus = s.smbus ∧ (releaseRec s seq).daybook = s.daybook ∧ (releaseRec s seq).reserves = s.reserves ∧ (releaseRec s seq).courier = s.courier ∧ (releaseRec s seq).map = s.map ∧ (releaseRec s seq).registry = s.registry ∧ (releaseRec s seq).dram = s.dram ∧ (releaseRec s seq).cache = s.cache ∧ (releaseRec s seq).hostMem = s.hostMem ∧ (releaseRec s seq).heldLow = s.heldLow ∧ (releaseRec s seq).latched = s.latched ∧ (releaseRec s seq).rsp = s.rsp ∧ (releaseRec s seq).smbRsp = s.smbRsp ∧ (releaseRec s seq).free = s.free := by
  have h := releaseRec_outside (ps := [.ledger, .chain]) s seq (by decide) (by decide)
  exact ⟨same_pending h (by decide), same_chip h (by decide), same_fuses h (by decide), same_flash h (by decide), same_charter h (by decide), same_clock h (by decide), same_closers h (by decide), same_vols h (by decide), same_bands h (by decide), same_plans h (by decide), same_works h (by decide), same_nextWork h (by decide), same_holds h (by decide), same_drives h (by decide), same_sas h (by decide), same_gov h (by decide), same_degrade h (by decide), same_reshapes h (by decide), same_tellers h (by decide), same_scratch h (by decide), same_wickets h (by decide), same_cmds h (by decide), same_returns h (by decide), same_ints h (by decide), same_cfg h (by decide), same_link h (by decide), same_power h (by decide), same_resets h (by decide), same_feats h (by decide), same_vaults h (by decide), same_pair h (by decide), same_mgmt h (by decide), same_sensors h (by decide), same_smbus h (by decide), same_daybook h (by decide), same_reserves h (by decide), same_courier h (by decide), same_map h (by decide), same_registry h (by decide), same_dram h (by decide), same_cache h (by decide), same_hostMem h (by decide), same_heldLow h (by decide), same_latched h (by decide), same_rsp h (by decide), same_smbRsp h (by decide), same_free h (by decide)⟩

theorem modRec_keeps (s : State) (seq : Nat) (f : Rec → Rec) :
    (modRec s seq f).pending = s.pending ∧ (modRec s seq f).chip = s.chip ∧ (modRec s seq f).fuses = s.fuses ∧ (modRec s seq f).flash = s.flash ∧ (modRec s seq f).charter = s.charter ∧ (modRec s seq f).clock = s.clock ∧ (modRec s seq f).closers = s.closers ∧ (modRec s seq f).vols = s.vols ∧ (modRec s seq f).bands = s.bands ∧ (modRec s seq f).plans = s.plans ∧ (modRec s seq f).works = s.works ∧ (modRec s seq f).nextWork = s.nextWork ∧ (modRec s seq f).holds = s.holds ∧ (modRec s seq f).drives = s.drives ∧ (modRec s seq f).sas = s.sas ∧ (modRec s seq f).gov = s.gov ∧ (modRec s seq f).degrade = s.degrade ∧ (modRec s seq f).reshapes = s.reshapes ∧ (modRec s seq f).tellers = s.tellers ∧ (modRec s seq f).scratch = s.scratch ∧ (modRec s seq f).wickets = s.wickets ∧ (modRec s seq f).cmds = s.cmds ∧ (modRec s seq f).returns = s.returns ∧ (modRec s seq f).ints = s.ints ∧ (modRec s seq f).cfg = s.cfg ∧ (modRec s seq f).link = s.link ∧ (modRec s seq f).power = s.power ∧ (modRec s seq f).resets = s.resets ∧ (modRec s seq f).feats = s.feats ∧ (modRec s seq f).vaults = s.vaults ∧ (modRec s seq f).chain = s.chain ∧ (modRec s seq f).pair = s.pair ∧ (modRec s seq f).mgmt = s.mgmt ∧ (modRec s seq f).sensors = s.sensors ∧ (modRec s seq f).smbus = s.smbus ∧ (modRec s seq f).daybook = s.daybook ∧ (modRec s seq f).reserves = s.reserves ∧ (modRec s seq f).courier = s.courier ∧ (modRec s seq f).map = s.map ∧ (modRec s seq f).registry = s.registry ∧ (modRec s seq f).dram = s.dram ∧ (modRec s seq f).cache = s.cache ∧ (modRec s seq f).hostMem = s.hostMem ∧ (modRec s seq f).heldLow = s.heldLow ∧ (modRec s seq f).latched = s.latched ∧ (modRec s seq f).rsp = s.rsp ∧ (modRec s seq f).smbRsp = s.smbRsp ∧ (modRec s seq f).free = s.free := by
  have h := modRec_outside (ps := [.ledger]) s seq f (by decide)
  exact ⟨same_pending h (by decide), same_chip h (by decide), same_fuses h (by decide), same_flash h (by decide), same_charter h (by decide), same_clock h (by decide), same_closers h (by decide), same_vols h (by decide), same_bands h (by decide), same_plans h (by decide), same_works h (by decide), same_nextWork h (by decide), same_holds h (by decide), same_drives h (by decide), same_sas h (by decide), same_gov h (by decide), same_degrade h (by decide), same_reshapes h (by decide), same_tellers h (by decide), same_scratch h (by decide), same_wickets h (by decide), same_cmds h (by decide), same_returns h (by decide), same_ints h (by decide), same_cfg h (by decide), same_link h (by decide), same_power h (by decide), same_resets h (by decide), same_feats h (by decide), same_vaults h (by decide), same_chain h (by decide), same_pair h (by decide), same_mgmt h (by decide), same_sensors h (by decide), same_smbus h (by decide), same_daybook h (by decide), same_reserves h (by decide), same_courier h (by decide), same_map h (by decide), same_registry h (by decide), same_dram h (by decide), same_cache h (by decide), same_hostMem h (by decide), same_heldLow h (by decide), same_latched h (by decide), same_rsp h (by decide), same_smbRsp h (by decide), same_free h (by decide)⟩

theorem recComplete_keeps (s : State) (seq : Nat) :
    (recComplete s seq).pending = s.pending ∧ (recComplete s seq).chip = s.chip ∧ (recComplete s seq).fuses = s.fuses ∧ (recComplete s seq).flash = s.flash ∧ (recComplete s seq).charter = s.charter ∧ (recComplete s seq).clock = s.clock ∧ (recComplete s seq).closers = s.closers ∧ (recComplete s seq).vols = s.vols ∧ (recComplete s seq).bands = s.bands ∧ (recComplete s seq).plans = s.plans ∧ (recComplete s seq).works = s.works ∧ (recComplete s seq).nextWork = s.nextWork ∧ (recComplete s seq).holds = s.holds ∧ (recComplete s seq).drives = s.drives ∧ (recComplete s seq).sas = s.sas ∧ (recComplete s seq).gov = s.gov ∧ (recComplete s seq).degrade = s.degrade ∧ (recComplete s seq).reshapes = s.reshapes ∧ (recComplete s seq).tellers = s.tellers ∧ (recComplete s seq).scratch = s.scratch ∧ (recComplete s seq).wickets = s.wickets ∧ (recComplete s seq).cmds = s.cmds ∧ (recComplete s seq).returns = s.returns ∧ (recComplete s seq).ints = s.ints ∧ (recComplete s seq).cfg = s.cfg ∧ (recComplete s seq).link = s.link ∧ (recComplete s seq).power = s.power ∧ (recComplete s seq).resets = s.resets ∧ (recComplete s seq).feats = s.feats ∧ (recComplete s seq).vaults = s.vaults ∧ (recComplete s seq).chain = s.chain ∧ (recComplete s seq).pair = s.pair ∧ (recComplete s seq).mgmt = s.mgmt ∧ (recComplete s seq).sensors = s.sensors ∧ (recComplete s seq).smbus = s.smbus ∧ (recComplete s seq).daybook = s.daybook ∧ (recComplete s seq).reserves = s.reserves ∧ (recComplete s seq).courier = s.courier ∧ (recComplete s seq).map = s.map ∧ (recComplete s seq).registry = s.registry ∧ (recComplete s seq).dram = s.dram ∧ (recComplete s seq).cache = s.cache ∧ (recComplete s seq).hostMem = s.hostMem ∧ (recComplete s seq).heldLow = s.heldLow ∧ (recComplete s seq).latched = s.latched ∧ (recComplete s seq).rsp = s.rsp ∧ (recComplete s seq).smbRsp = s.smbRsp ∧ (recComplete s seq).free = s.free := by
  have h := recComplete_outside (ps := [.ledger]) s seq (by decide)
  exact ⟨same_pending h (by decide), same_chip h (by decide), same_fuses h (by decide), same_flash h (by decide), same_charter h (by decide), same_clock h (by decide), same_closers h (by decide), same_vols h (by decide), same_bands h (by decide), same_plans h (by decide), same_works h (by decide), same_nextWork h (by decide), same_holds h (by decide), same_drives h (by decide), same_sas h (by decide), same_gov h (by decide), same_degrade h (by decide), same_reshapes h (by decide), same_tellers h (by decide), same_scratch h (by decide), same_wickets h (by decide), same_cmds h (by decide), same_returns h (by decide), same_ints h (by decide), same_cfg h (by decide), same_link h (by decide), same_power h (by decide), same_resets h (by decide), same_feats h (by decide), same_vaults h (by decide), same_chain h (by decide), same_pair h (by decide), same_mgmt h (by decide), same_sensors h (by decide), same_smbus h (by decide), same_daybook h (by decide), same_reserves h (by decide), same_courier h (by decide), same_map h (by decide), same_registry h (by decide), same_dram h (by decide), same_cache h (by decide), same_hostMem h (by decide), same_heldLow h (by decide), same_latched h (by decide), same_rsp h (by decide), same_smbRsp h (by decide), same_free h (by decide)⟩

theorem mapRecord_keeps (s : State) (volume : Nat) (region : Nat) (set : Bool) :
    (mapRecord s volume region set).pending = s.pending ∧ (mapRecord s volume region set).chip = s.chip ∧ (mapRecord s volume region set).fuses = s.fuses ∧ (mapRecord s volume region set).flash = s.flash ∧ (mapRecord s volume region set).charter = s.charter ∧ (mapRecord s volume region set).clock = s.clock ∧ (mapRecord s volume region set).closers = s.closers ∧ (mapRecord s volume region set).vols = s.vols ∧ (mapRecord s volume region set).bands = s.bands ∧ (mapRecord s volume region set).plans = s.plans ∧ (mapRecord s volume region set).works = s.works ∧ (mapRecord s volume region set).nextWork = s.nextWork ∧ (mapRecord s volume region set).holds = s.holds ∧ (mapRecord s volume region set).drives = s.drives ∧ (mapRecord s volume region set).sas = s.sas ∧ (mapRecord s volume region set).gov = s.gov ∧ (mapRecord s volume region set).degrade = s.degrade ∧ (mapRecord s volume region set).reshapes = s.reshapes ∧ (mapRecord s volume region set).tellers = s.tellers ∧ (mapRecord s volume region set).scratch = s.scratch ∧ (mapRecord s volume region set).wickets = s.wickets ∧ (mapRecord s volume region set).cmds = s.cmds ∧ (mapRecord s volume region set).returns = s.returns ∧ (mapRecord s volume region set).ints = s.ints ∧ (mapRecord s volume region set).cfg = s.cfg ∧ (mapRecord s volume region set).link = s.link ∧ (mapRecord s volume region set).power = s.power ∧ (mapRecord s volume region set).resets = s.resets ∧ (mapRecord s volume region set).feats = s.feats ∧ (mapRecord s volume region set).vaults = s.vaults ∧ (mapRecord s volume region set).pair = s.pair ∧ (mapRecord s volume region set).mgmt = s.mgmt ∧ (mapRecord s volume region set).sensors = s.sensors ∧ (mapRecord s volume region set).smbus = s.smbus ∧ (mapRecord s volume region set).daybook = s.daybook ∧ (mapRecord s volume region set).reserves = s.reserves ∧ (mapRecord s volume region set).courier = s.courier ∧ (mapRecord s volume region set).map = s.map ∧ (mapRecord s volume region set).registry = s.registry ∧ (mapRecord s volume region set).dram = s.dram ∧ (mapRecord s volume region set).cache = s.cache ∧ (mapRecord s volume region set).hostMem = s.hostMem ∧ (mapRecord s volume region set).heldLow = s.heldLow ∧ (mapRecord s volume region set).latched = s.latched ∧ (mapRecord s volume region set).rsp = s.rsp ∧ (mapRecord s volume region set).smbRsp = s.smbRsp ∧ (mapRecord s volume region set).free = s.free := by
  have h := mapRecord_outside (ps := [.ledger, .chain]) s volume region set (by decide) (by decide)
  exact ⟨same_pending h (by decide), same_chip h (by decide), same_fuses h (by decide), same_flash h (by decide), same_charter h (by decide), same_clock h (by decide), same_closers h (by decide), same_vols h (by decide), same_bands h (by decide), same_plans h (by decide), same_works h (by decide), same_nextWork h (by decide), same_holds h (by decide), same_drives h (by decide), same_sas h (by decide), same_gov h (by decide), same_degrade h (by decide), same_reshapes h (by decide), same_tellers h (by decide), same_scratch h (by decide), same_wickets h (by decide), same_cmds h (by decide), same_returns h (by decide), same_ints h (by decide), same_cfg h (by decide), same_link h (by decide), same_power h (by decide), same_resets h (by decide), same_feats h (by decide), same_vaults h (by decide), same_pair h (by decide), same_mgmt h (by decide), same_sensors h (by decide), same_smbus h (by decide), same_daybook h (by decide), same_reserves h (by decide), same_courier h (by decide), same_map h (by decide), same_registry h (by decide), same_dram h (by decide), same_cache h (by decide), same_hostMem h (by decide), same_heldLow h (by decide), same_latched h (by decide), same_rsp h (by decide), same_smbRsp h (by decide), same_free h (by decide)⟩

theorem modCmd_keeps (s : State) (tag : Nat) (f : Cmd → Cmd) :
    (modCmd s tag f).pending = s.pending ∧ (modCmd s tag f).chip = s.chip ∧ (modCmd s tag f).fuses = s.fuses ∧ (modCmd s tag f).flash = s.flash ∧ (modCmd s tag f).charter = s.charter ∧ (modCmd s tag f).clock = s.clock ∧ (modCmd s tag f).closers = s.closers ∧ (modCmd s tag f).ledger = s.ledger ∧ (modCmd s tag f).vols = s.vols ∧ (modCmd s tag f).bands = s.bands ∧ (modCmd s tag f).plans = s.plans ∧ (modCmd s tag f).works = s.works ∧ (modCmd s tag f).nextWork = s.nextWork ∧ (modCmd s tag f).holds = s.holds ∧ (modCmd s tag f).drives = s.drives ∧ (modCmd s tag f).sas = s.sas ∧ (modCmd s tag f).gov = s.gov ∧ (modCmd s tag f).degrade = s.degrade ∧ (modCmd s tag f).reshapes = s.reshapes ∧ (modCmd s tag f).tellers = s.tellers ∧ (modCmd s tag f).scratch = s.scratch ∧ (modCmd s tag f).wickets = s.wickets ∧ (modCmd s tag f).returns = s.returns ∧ (modCmd s tag f).ints = s.ints ∧ (modCmd s tag f).cfg = s.cfg ∧ (modCmd s tag f).link = s.link ∧ (modCmd s tag f).power = s.power ∧ (modCmd s tag f).resets = s.resets ∧ (modCmd s tag f).feats = s.feats ∧ (modCmd s tag f).vaults = s.vaults ∧ (modCmd s tag f).chain = s.chain ∧ (modCmd s tag f).pair = s.pair ∧ (modCmd s tag f).mgmt = s.mgmt ∧ (modCmd s tag f).sensors = s.sensors ∧ (modCmd s tag f).smbus = s.smbus ∧ (modCmd s tag f).daybook = s.daybook ∧ (modCmd s tag f).reserves = s.reserves ∧ (modCmd s tag f).courier = s.courier ∧ (modCmd s tag f).map = s.map ∧ (modCmd s tag f).registry = s.registry ∧ (modCmd s tag f).dram = s.dram ∧ (modCmd s tag f).cache = s.cache ∧ (modCmd s tag f).hostMem = s.hostMem ∧ (modCmd s tag f).heldLow = s.heldLow ∧ (modCmd s tag f).latched = s.latched ∧ (modCmd s tag f).rsp = s.rsp ∧ (modCmd s tag f).smbRsp = s.smbRsp ∧ (modCmd s tag f).free = s.free := by
  have h := modCmd_outside (ps := [.cmds]) s tag f (by decide)
  exact ⟨same_pending h (by decide), same_chip h (by decide), same_fuses h (by decide), same_flash h (by decide), same_charter h (by decide), same_clock h (by decide), same_closers h (by decide), same_ledger h (by decide), same_vols h (by decide), same_bands h (by decide), same_plans h (by decide), same_works h (by decide), same_nextWork h (by decide), same_holds h (by decide), same_drives h (by decide), same_sas h (by decide), same_gov h (by decide), same_degrade h (by decide), same_reshapes h (by decide), same_tellers h (by decide), same_scratch h (by decide), same_wickets h (by decide), same_returns h (by decide), same_ints h (by decide), same_cfg h (by decide), same_link h (by decide), same_power h (by decide), same_resets h (by decide), same_feats h (by decide), same_vaults h (by decide), same_chain h (by decide), same_pair h (by decide), same_mgmt h (by decide), same_sensors h (by decide), same_smbus h (by decide), same_daybook h (by decide), same_reserves h (by decide), same_courier h (by decide), same_map h (by decide), same_registry h (by decide), same_dram h (by decide), same_cache h (by decide), same_hostMem h (by decide), same_heldLow h (by decide), same_latched h (by decide), same_rsp h (by decide), same_smbRsp h (by decide), same_free h (by decide)⟩

theorem modWk_keeps (s : State) (w : Nat) (f : Wicket → Wicket) :
    (modWk s w f).pending = s.pending ∧ (modWk s w f).chip = s.chip ∧ (modWk s w f).fuses = s.fuses ∧ (modWk s w f).flash = s.flash ∧ (modWk s w f).charter = s.charter ∧ (modWk s w f).clock = s.clock ∧ (modWk s w f).closers = s.closers ∧ (modWk s w f).ledger = s.ledger ∧ (modWk s w f).vols = s.vols ∧ (modWk s w f).bands = s.bands ∧ (modWk s w f).plans = s.plans ∧ (modWk s w f).works = s.works ∧ (modWk s w f).nextWork = s.nextWork ∧ (modWk s w f).holds = s.holds ∧ (modWk s w f).drives = s.drives ∧ (modWk s w f).sas = s.sas ∧ (modWk s w f).gov = s.gov ∧ (modWk s w f).degrade = s.degrade ∧ (modWk s w f).reshapes = s.reshapes ∧ (modWk s w f).tellers = s.tellers ∧ (modWk s w f).scratch = s.scratch ∧ (modWk s w f).cmds = s.cmds ∧ (modWk s w f).returns = s.returns ∧ (modWk s w f).ints = s.ints ∧ (modWk s w f).cfg = s.cfg ∧ (modWk s w f).link = s.link ∧ (modWk s w f).power = s.power ∧ (modWk s w f).resets = s.resets ∧ (modWk s w f).feats = s.feats ∧ (modWk s w f).vaults = s.vaults ∧ (modWk s w f).chain = s.chain ∧ (modWk s w f).pair = s.pair ∧ (modWk s w f).mgmt = s.mgmt ∧ (modWk s w f).sensors = s.sensors ∧ (modWk s w f).smbus = s.smbus ∧ (modWk s w f).daybook = s.daybook ∧ (modWk s w f).reserves = s.reserves ∧ (modWk s w f).courier = s.courier ∧ (modWk s w f).map = s.map ∧ (modWk s w f).registry = s.registry ∧ (modWk s w f).dram = s.dram ∧ (modWk s w f).cache = s.cache ∧ (modWk s w f).hostMem = s.hostMem ∧ (modWk s w f).heldLow = s.heldLow ∧ (modWk s w f).latched = s.latched ∧ (modWk s w f).rsp = s.rsp ∧ (modWk s w f).smbRsp = s.smbRsp ∧ (modWk s w f).free = s.free := by
  have h := modWk_outside (ps := [.wickets]) s w f (by decide)
  exact ⟨same_pending h (by decide), same_chip h (by decide), same_fuses h (by decide), same_flash h (by decide), same_charter h (by decide), same_clock h (by decide), same_closers h (by decide), same_ledger h (by decide), same_vols h (by decide), same_bands h (by decide), same_plans h (by decide), same_works h (by decide), same_nextWork h (by decide), same_holds h (by decide), same_drives h (by decide), same_sas h (by decide), same_gov h (by decide), same_degrade h (by decide), same_reshapes h (by decide), same_tellers h (by decide), same_scratch h (by decide), same_cmds h (by decide), same_returns h (by decide), same_ints h (by decide), same_cfg h (by decide), same_link h (by decide), same_power h (by decide), same_resets h (by decide), same_feats h (by decide), same_vaults h (by decide), same_chain h (by decide), same_pair h (by decide), same_mgmt h (by decide), same_sensors h (by decide), same_smbus h (by decide), same_daybook h (by decide), same_reserves h (by decide), same_courier h (by decide), same_map h (by decide), same_registry h (by decide), same_dram h (by decide), same_cache h (by decide), same_hostMem h (by decide), same_heldLow h (by decide), same_latched h (by decide), same_rsp h (by decide), same_smbRsp h (by decide), same_free h (by decide)⟩

theorem modRg_keeps (s : State) (n : Nat) (f : Ring → Ring) :
    (modRg s n f).pending = s.pending ∧ (modRg s n f).chip = s.chip ∧ (modRg s n f).fuses = s.fuses ∧ (modRg s n f).flash = s.flash ∧ (modRg s n f).charter = s.charter ∧ (modRg s n f).clock = s.clock ∧ (modRg s n f).closers = s.closers ∧ (modRg s n f).ledger = s.ledger ∧ (modRg s n f).vols = s.vols ∧ (modRg s n f).bands = s.bands ∧ (modRg s n f).plans = s.plans ∧ (modRg s n f).works = s.works ∧ (modRg s n f).nextWork = s.nextWork ∧ (modRg s n f).holds = s.holds ∧ (modRg s n f).drives = s.drives ∧ (modRg s n f).sas = s.sas ∧ (modRg s n f).gov = s.gov ∧ (modRg s n f).degrade = s.degrade ∧ (modRg s n f).reshapes = s.reshapes ∧ (modRg s n f).tellers = s.tellers ∧ (modRg s n f).scratch = s.scratch ∧ (modRg s n f).wickets = s.wickets ∧ (modRg s n f).cmds = s.cmds ∧ (modRg s n f).ints = s.ints ∧ (modRg s n f).cfg = s.cfg ∧ (modRg s n f).link = s.link ∧ (modRg s n f).power = s.power ∧ (modRg s n f).resets = s.resets ∧ (modRg s n f).feats = s.feats ∧ (modRg s n f).vaults = s.vaults ∧ (modRg s n f).chain = s.chain ∧ (modRg s n f).pair = s.pair ∧ (modRg s n f).mgmt = s.mgmt ∧ (modRg s n f).sensors = s.sensors ∧ (modRg s n f).smbus = s.smbus ∧ (modRg s n f).daybook = s.daybook ∧ (modRg s n f).reserves = s.reserves ∧ (modRg s n f).courier = s.courier ∧ (modRg s n f).map = s.map ∧ (modRg s n f).registry = s.registry ∧ (modRg s n f).dram = s.dram ∧ (modRg s n f).cache = s.cache ∧ (modRg s n f).hostMem = s.hostMem ∧ (modRg s n f).heldLow = s.heldLow ∧ (modRg s n f).latched = s.latched ∧ (modRg s n f).rsp = s.rsp ∧ (modRg s n f).smbRsp = s.smbRsp ∧ (modRg s n f).free = s.free := by
  have h := modRg_outside (ps := [.returns]) s n f (by decide)
  exact ⟨same_pending h (by decide), same_chip h (by decide), same_fuses h (by decide), same_flash h (by decide), same_charter h (by decide), same_clock h (by decide), same_closers h (by decide), same_ledger h (by decide), same_vols h (by decide), same_bands h (by decide), same_plans h (by decide), same_works h (by decide), same_nextWork h (by decide), same_holds h (by decide), same_drives h (by decide), same_sas h (by decide), same_gov h (by decide), same_degrade h (by decide), same_reshapes h (by decide), same_tellers h (by decide), same_scratch h (by decide), same_wickets h (by decide), same_cmds h (by decide), same_ints h (by decide), same_cfg h (by decide), same_link h (by decide), same_power h (by decide), same_resets h (by decide), same_feats h (by decide), same_vaults h (by decide), same_chain h (by decide), same_pair h (by decide), same_mgmt h (by decide), same_sensors h (by decide), same_smbus h (by decide), same_daybook h (by decide), same_reserves h (by decide), same_courier h (by decide), same_map h (by decide), same_registry h (by decide), same_dram h (by decide), same_cache h (by decide), same_hostMem h (by decide), same_heldLow h (by decide), same_latched h (by decide), same_rsp h (by decide), same_smbRsp h (by decide), same_free h (by decide)⟩

theorem enqueue_keeps (s : State) (n : Nat) (e : Entry) :
    (enqueue s n e).pending = s.pending ∧ (enqueue s n e).chip = s.chip ∧ (enqueue s n e).fuses = s.fuses ∧ (enqueue s n e).flash = s.flash ∧ (enqueue s n e).charter = s.charter ∧ (enqueue s n e).clock = s.clock ∧ (enqueue s n e).closers = s.closers ∧ (enqueue s n e).ledger = s.ledger ∧ (enqueue s n e).vols = s.vols ∧ (enqueue s n e).bands = s.bands ∧ (enqueue s n e).plans = s.plans ∧ (enqueue s n e).works = s.works ∧ (enqueue s n e).nextWork = s.nextWork ∧ (enqueue s n e).holds = s.holds ∧ (enqueue s n e).drives = s.drives ∧ (enqueue s n e).sas = s.sas ∧ (enqueue s n e).gov = s.gov ∧ (enqueue s n e).degrade = s.degrade ∧ (enqueue s n e).reshapes = s.reshapes ∧ (enqueue s n e).tellers = s.tellers ∧ (enqueue s n e).scratch = s.scratch ∧ (enqueue s n e).wickets = s.wickets ∧ (enqueue s n e).cmds = s.cmds ∧ (enqueue s n e).ints = s.ints ∧ (enqueue s n e).cfg = s.cfg ∧ (enqueue s n e).link = s.link ∧ (enqueue s n e).power = s.power ∧ (enqueue s n e).resets = s.resets ∧ (enqueue s n e).feats = s.feats ∧ (enqueue s n e).vaults = s.vaults ∧ (enqueue s n e).chain = s.chain ∧ (enqueue s n e).pair = s.pair ∧ (enqueue s n e).mgmt = s.mgmt ∧ (enqueue s n e).sensors = s.sensors ∧ (enqueue s n e).smbus = s.smbus ∧ (enqueue s n e).daybook = s.daybook ∧ (enqueue s n e).reserves = s.reserves ∧ (enqueue s n e).courier = s.courier ∧ (enqueue s n e).map = s.map ∧ (enqueue s n e).registry = s.registry ∧ (enqueue s n e).dram = s.dram ∧ (enqueue s n e).cache = s.cache ∧ (enqueue s n e).hostMem = s.hostMem ∧ (enqueue s n e).heldLow = s.heldLow ∧ (enqueue s n e).latched = s.latched ∧ (enqueue s n e).rsp = s.rsp ∧ (enqueue s n e).smbRsp = s.smbRsp ∧ (enqueue s n e).free = s.free := by
  have h := enqueue_outside (ps := [.returns]) s n e (by decide)
  exact ⟨same_pending h (by decide), same_chip h (by decide), same_fuses h (by decide), same_flash h (by decide), same_charter h (by decide), same_clock h (by decide), same_closers h (by decide), same_ledger h (by decide), same_vols h (by decide), same_bands h (by decide), same_plans h (by decide), same_works h (by decide), same_nextWork h (by decide), same_holds h (by decide), same_drives h (by decide), same_sas h (by decide), same_gov h (by decide), same_degrade h (by decide), same_reshapes h (by decide), same_tellers h (by decide), same_scratch h (by decide), same_wickets h (by decide), same_cmds h (by decide), same_ints h (by decide), same_cfg h (by decide), same_link h (by decide), same_power h (by decide), same_resets h (by decide), same_feats h (by decide), same_vaults h (by decide), same_chain h (by decide), same_pair h (by decide), same_mgmt h (by decide), same_sensors h (by decide), same_smbus h (by decide), same_daybook h (by decide), same_reserves h (by decide), same_courier h (by decide), same_map h (by decide), same_registry h (by decide), same_dram h (by decide), same_cache h (by decide), same_hostMem h (by decide), same_heldLow h (by decide), same_latched h (by decide), same_rsp h (by decide), same_smbRsp h (by decide), same_free h (by decide)⟩

theorem settle_keeps (s : State) :
    (settle s).pending = s.pending ∧ (settle s).chip = s.chip ∧ (settle s).fuses = s.fuses ∧ (settle s).flash = s.flash ∧ (settle s).charter = s.charter ∧ (settle s).clock = s.clock ∧ (settle s).closers = s.closers ∧ (settle s).ledger = s.ledger ∧ (settle s).vols = s.vols ∧ (settle s).bands = s.bands ∧ (settle s).plans = s.plans ∧ (settle s).works = s.works ∧ (settle s).nextWork = s.nextWork ∧ (settle s).holds = s.holds ∧ (settle s).drives = s.drives ∧ (settle s).sas = s.sas ∧ (settle s).gov = s.gov ∧ (settle s).degrade = s.degrade ∧ (settle s).reshapes = s.reshapes ∧ (settle s).tellers = s.tellers ∧ (settle s).scratch = s.scratch ∧ (settle s).wickets = s.wickets ∧ (settle s).ints = s.ints ∧ (settle s).cfg = s.cfg ∧ (settle s).link = s.link ∧ (settle s).power = s.power ∧ (settle s).resets = s.resets ∧ (settle s).feats = s.feats ∧ (settle s).vaults = s.vaults ∧ (settle s).chain = s.chain ∧ (settle s).pair = s.pair ∧ (settle s).mgmt = s.mgmt ∧ (settle s).sensors = s.sensors ∧ (settle s).smbus = s.smbus ∧ (settle s).daybook = s.daybook ∧ (settle s).reserves = s.reserves ∧ (settle s).courier = s.courier ∧ (settle s).map = s.map ∧ (settle s).registry = s.registry ∧ (settle s).dram = s.dram ∧ (settle s).cache = s.cache ∧ (settle s).hostMem = s.hostMem ∧ (settle s).heldLow = s.heldLow ∧ (settle s).latched = s.latched ∧ (settle s).rsp = s.rsp ∧ (settle s).smbRsp = s.smbRsp ∧ (settle s).free = s.free := by
  have h := settle_outside (ps := [.cmds, .returns]) s (by decide) (by decide)
  exact ⟨same_pending h (by decide), same_chip h (by decide), same_fuses h (by decide), same_flash h (by decide), same_charter h (by decide), same_clock h (by decide), same_closers h (by decide), same_ledger h (by decide), same_vols h (by decide), same_bands h (by decide), same_plans h (by decide), same_works h (by decide), same_nextWork h (by decide), same_holds h (by decide), same_drives h (by decide), same_sas h (by decide), same_gov h (by decide), same_degrade h (by decide), same_reshapes h (by decide), same_tellers h (by decide), same_scratch h (by decide), same_wickets h (by decide), same_ints h (by decide), same_cfg h (by decide), same_link h (by decide), same_power h (by decide), same_resets h (by decide), same_feats h (by decide), same_vaults h (by decide), same_chain h (by decide), same_pair h (by decide), same_mgmt h (by decide), same_sensors h (by decide), same_smbus h (by decide), same_daybook h (by decide), same_reserves h (by decide), same_courier h (by decide), same_map h (by decide), same_registry h (by decide), same_dram h (by decide), same_cache h (by decide), same_hostMem h (by decide), same_heldLow h (by decide), same_latched h (by decide), same_rsp h (by decide), same_smbRsp h (by decide), same_free h (by decide)⟩

theorem finish_keeps (s : State) (tag : Nat) (status : Nat) (detail : Nat) (result : List Byte) :
    (finish s tag status detail result).pending = s.pending ∧ (finish s tag status detail result).chip = s.chip ∧ (finish s tag status detail result).fuses = s.fuses ∧ (finish s tag status detail result).flash = s.flash ∧ (finish s tag status detail result).charter = s.charter ∧ (finish s tag status detail result).clock = s.clock ∧ (finish s tag status detail result).closers = s.closers ∧ (finish s tag status detail result).ledger = s.ledger ∧ (finish s tag status detail result).vols = s.vols ∧ (finish s tag status detail result).bands = s.bands ∧ (finish s tag status detail result).plans = s.plans ∧ (finish s tag status detail result).works = s.works ∧ (finish s tag status detail result).nextWork = s.nextWork ∧ (finish s tag status detail result).holds = s.holds ∧ (finish s tag status detail result).drives = s.drives ∧ (finish s tag status detail result).sas = s.sas ∧ (finish s tag status detail result).gov = s.gov ∧ (finish s tag status detail result).degrade = s.degrade ∧ (finish s tag status detail result).reshapes = s.reshapes ∧ (finish s tag status detail result).tellers = s.tellers ∧ (finish s tag status detail result).scratch = s.scratch ∧ (finish s tag status detail result).wickets = s.wickets ∧ (finish s tag status detail result).ints = s.ints ∧ (finish s tag status detail result).cfg = s.cfg ∧ (finish s tag status detail result).link = s.link ∧ (finish s tag status detail result).power = s.power ∧ (finish s tag status detail result).resets = s.resets ∧ (finish s tag status detail result).feats = s.feats ∧ (finish s tag status detail result).vaults = s.vaults ∧ (finish s tag status detail result).chain = s.chain ∧ (finish s tag status detail result).pair = s.pair ∧ (finish s tag status detail result).mgmt = s.mgmt ∧ (finish s tag status detail result).sensors = s.sensors ∧ (finish s tag status detail result).smbus = s.smbus ∧ (finish s tag status detail result).daybook = s.daybook ∧ (finish s tag status detail result).reserves = s.reserves ∧ (finish s tag status detail result).courier = s.courier ∧ (finish s tag status detail result).map = s.map ∧ (finish s tag status detail result).registry = s.registry ∧ (finish s tag status detail result).dram = s.dram ∧ (finish s tag status detail result).cache = s.cache ∧ (finish s tag status detail result).hostMem = s.hostMem ∧ (finish s tag status detail result).heldLow = s.heldLow ∧ (finish s tag status detail result).latched = s.latched ∧ (finish s tag status detail result).rsp = s.rsp ∧ (finish s tag status detail result).smbRsp = s.smbRsp ∧ (finish s tag status detail result).free = s.free := by
  have h := finish_outside (ps := [.cmds, .returns]) s tag status detail result (by decide) (by decide)
  exact ⟨same_pending h (by decide), same_chip h (by decide), same_fuses h (by decide), same_flash h (by decide), same_charter h (by decide), same_clock h (by decide), same_closers h (by decide), same_ledger h (by decide), same_vols h (by decide), same_bands h (by decide), same_plans h (by decide), same_works h (by decide), same_nextWork h (by decide), same_holds h (by decide), same_drives h (by decide), same_sas h (by decide), same_gov h (by decide), same_degrade h (by decide), same_reshapes h (by decide), same_tellers h (by decide), same_scratch h (by decide), same_wickets h (by decide), same_ints h (by decide), same_cfg h (by decide), same_link h (by decide), same_power h (by decide), same_resets h (by decide), same_feats h (by decide), same_vaults h (by decide), same_chain h (by decide), same_pair h (by decide), same_mgmt h (by decide), same_sensors h (by decide), same_smbus h (by decide), same_daybook h (by decide), same_reserves h (by decide), same_courier h (by decide), same_map h (by decide), same_registry h (by decide), same_dram h (by decide), same_cache h (by decide), same_hostMem h (by decide), same_heldLow h (by decide), same_latched h (by decide), same_rsp h (by decide), same_smbRsp h (by decide), same_free h (by decide)⟩

theorem finishAt_keeps (s : State) (tag : Nat) (b : Nat) (status : Nat) (detail : Nat) (result : List Byte) :
    (finishAt s tag b status detail result).pending = s.pending ∧ (finishAt s tag b status detail result).chip = s.chip ∧ (finishAt s tag b status detail result).fuses = s.fuses ∧ (finishAt s tag b status detail result).flash = s.flash ∧ (finishAt s tag b status detail result).charter = s.charter ∧ (finishAt s tag b status detail result).clock = s.clock ∧ (finishAt s tag b status detail result).closers = s.closers ∧ (finishAt s tag b status detail result).ledger = s.ledger ∧ (finishAt s tag b status detail result).vols = s.vols ∧ (finishAt s tag b status detail result).bands = s.bands ∧ (finishAt s tag b status detail result).plans = s.plans ∧ (finishAt s tag b status detail result).works = s.works ∧ (finishAt s tag b status detail result).nextWork = s.nextWork ∧ (finishAt s tag b status detail result).holds = s.holds ∧ (finishAt s tag b status detail result).drives = s.drives ∧ (finishAt s tag b status detail result).sas = s.sas ∧ (finishAt s tag b status detail result).gov = s.gov ∧ (finishAt s tag b status detail result).degrade = s.degrade ∧ (finishAt s tag b status detail result).reshapes = s.reshapes ∧ (finishAt s tag b status detail result).tellers = s.tellers ∧ (finishAt s tag b status detail result).scratch = s.scratch ∧ (finishAt s tag b status detail result).wickets = s.wickets ∧ (finishAt s tag b status detail result).returns = s.returns ∧ (finishAt s tag b status detail result).ints = s.ints ∧ (finishAt s tag b status detail result).cfg = s.cfg ∧ (finishAt s tag b status detail result).link = s.link ∧ (finishAt s tag b status detail result).power = s.power ∧ (finishAt s tag b status detail result).resets = s.resets ∧ (finishAt s tag b status detail result).feats = s.feats ∧ (finishAt s tag b status detail result).vaults = s.vaults ∧ (finishAt s tag b status detail result).chain = s.chain ∧ (finishAt s tag b status detail result).pair = s.pair ∧ (finishAt s tag b status detail result).mgmt = s.mgmt ∧ (finishAt s tag b status detail result).sensors = s.sensors ∧ (finishAt s tag b status detail result).smbus = s.smbus ∧ (finishAt s tag b status detail result).daybook = s.daybook ∧ (finishAt s tag b status detail result).reserves = s.reserves ∧ (finishAt s tag b status detail result).courier = s.courier ∧ (finishAt s tag b status detail result).map = s.map ∧ (finishAt s tag b status detail result).registry = s.registry ∧ (finishAt s tag b status detail result).dram = s.dram ∧ (finishAt s tag b status detail result).cache = s.cache ∧ (finishAt s tag b status detail result).hostMem = s.hostMem ∧ (finishAt s tag b status detail result).heldLow = s.heldLow ∧ (finishAt s tag b status detail result).latched = s.latched ∧ (finishAt s tag b status detail result).rsp = s.rsp ∧ (finishAt s tag b status detail result).smbRsp = s.smbRsp ∧ (finishAt s tag b status detail result).free = s.free := by
  have h := finishAt_outside (ps := [.cmds]) s tag b status detail result (by decide)
  exact ⟨same_pending h (by decide), same_chip h (by decide), same_fuses h (by decide), same_flash h (by decide), same_charter h (by decide), same_clock h (by decide), same_closers h (by decide), same_ledger h (by decide), same_vols h (by decide), same_bands h (by decide), same_plans h (by decide), same_works h (by decide), same_nextWork h (by decide), same_holds h (by decide), same_drives h (by decide), same_sas h (by decide), same_gov h (by decide), same_degrade h (by decide), same_reshapes h (by decide), same_tellers h (by decide), same_scratch h (by decide), same_wickets h (by decide), same_returns h (by decide), same_ints h (by decide), same_cfg h (by decide), same_link h (by decide), same_power h (by decide), same_resets h (by decide), same_feats h (by decide), same_vaults h (by decide), same_chain h (by decide), same_pair h (by decide), same_mgmt h (by decide), same_sensors h (by decide), same_smbus h (by decide), same_daybook h (by decide), same_reserves h (by decide), same_courier h (by decide), same_map h (by decide), same_registry h (by decide), same_dram h (by decide), same_cache h (by decide), same_hostMem h (by decide), same_heldLow h (by decide), same_latched h (by decide), same_rsp h (by decide), same_smbRsp h (by decide), same_free h (by decide)⟩

theorem finishData_keeps (s : State) (tag : Nat) (data : Cells) (len : Nat) (result : List Byte) :
    (finishData s tag data len result).pending = s.pending ∧ (finishData s tag data len result).chip = s.chip ∧ (finishData s tag data len result).fuses = s.fuses ∧ (finishData s tag data len result).flash = s.flash ∧ (finishData s tag data len result).charter = s.charter ∧ (finishData s tag data len result).clock = s.clock ∧ (finishData s tag data len result).closers = s.closers ∧ (finishData s tag data len result).ledger = s.ledger ∧ (finishData s tag data len result).vols = s.vols ∧ (finishData s tag data len result).bands = s.bands ∧ (finishData s tag data len result).plans = s.plans ∧ (finishData s tag data len result).works = s.works ∧ (finishData s tag data len result).nextWork = s.nextWork ∧ (finishData s tag data len result).holds = s.holds ∧ (finishData s tag data len result).drives = s.drives ∧ (finishData s tag data len result).sas = s.sas ∧ (finishData s tag data len result).gov = s.gov ∧ (finishData s tag data len result).degrade = s.degrade ∧ (finishData s tag data len result).reshapes = s.reshapes ∧ (finishData s tag data len result).tellers = s.tellers ∧ (finishData s tag data len result).scratch = s.scratch ∧ (finishData s tag data len result).wickets = s.wickets ∧ (finishData s tag data len result).ints = s.ints ∧ (finishData s tag data len result).cfg = s.cfg ∧ (finishData s tag data len result).link = s.link ∧ (finishData s tag data len result).power = s.power ∧ (finishData s tag data len result).resets = s.resets ∧ (finishData s tag data len result).feats = s.feats ∧ (finishData s tag data len result).vaults = s.vaults ∧ (finishData s tag data len result).chain = s.chain ∧ (finishData s tag data len result).pair = s.pair ∧ (finishData s tag data len result).mgmt = s.mgmt ∧ (finishData s tag data len result).sensors = s.sensors ∧ (finishData s tag data len result).smbus = s.smbus ∧ (finishData s tag data len result).daybook = s.daybook ∧ (finishData s tag data len result).reserves = s.reserves ∧ (finishData s tag data len result).courier = s.courier ∧ (finishData s tag data len result).map = s.map ∧ (finishData s tag data len result).registry = s.registry ∧ (finishData s tag data len result).dram = s.dram ∧ (finishData s tag data len result).cache = s.cache ∧ (finishData s tag data len result).hostMem = s.hostMem ∧ (finishData s tag data len result).heldLow = s.heldLow ∧ (finishData s tag data len result).latched = s.latched ∧ (finishData s tag data len result).rsp = s.rsp ∧ (finishData s tag data len result).smbRsp = s.smbRsp ∧ (finishData s tag data len result).free = s.free := by
  have h := finishData_outside (ps := [.cmds, .returns]) s tag data len result (by decide) (by decide)
  exact ⟨same_pending h (by decide), same_chip h (by decide), same_fuses h (by decide), same_flash h (by decide), same_charter h (by decide), same_clock h (by decide), same_closers h (by decide), same_ledger h (by decide), same_vols h (by decide), same_bands h (by decide), same_plans h (by decide), same_works h (by decide), same_nextWork h (by decide), same_holds h (by decide), same_drives h (by decide), same_sas h (by decide), same_gov h (by decide), same_degrade h (by decide), same_reshapes h (by decide), same_tellers h (by decide), same_scratch h (by decide), same_wickets h (by decide), same_ints h (by decide), same_cfg h (by decide), same_link h (by decide), same_power h (by decide), same_resets h (by decide), same_feats h (by decide), same_vaults h (by decide), same_chain h (by decide), same_pair h (by decide), same_mgmt h (by decide), same_sensors h (by decide), same_smbus h (by decide), same_daybook h (by decide), same_reserves h (by decide), same_courier h (by decide), same_map h (by decide), same_registry h (by decide), same_dram h (by decide), same_cache h (by decide), same_hostMem h (by decide), same_heldLow h (by decide), same_latched h (by decide), same_rsp h (by decide), same_smbRsp h (by decide), same_free h (by decide)⟩

theorem writeCredit_keeps (s : State) (w : Nat) :
    (writeCredit s w).pending = s.pending ∧ (writeCredit s w).chip = s.chip ∧ (writeCredit s w).fuses = s.fuses ∧ (writeCredit s w).flash = s.flash ∧ (writeCredit s w).charter = s.charter ∧ (writeCredit s w).clock = s.clock ∧ (writeCredit s w).closers = s.closers ∧ (writeCredit s w).ledger = s.ledger ∧ (writeCredit s w).vols = s.vols ∧ (writeCredit s w).bands = s.bands ∧ (writeCredit s w).plans = s.plans ∧ (writeCredit s w).works = s.works ∧ (writeCredit s w).nextWork = s.nextWork ∧ (writeCredit s w).holds = s.holds ∧ (writeCredit s w).drives = s.drives ∧ (writeCredit s w).sas = s.sas ∧ (writeCredit s w).gov = s.gov ∧ (writeCredit s w).degrade = s.degrade ∧ (writeCredit s w).reshapes = s.reshapes ∧ (writeCredit s w).tellers = s.tellers ∧ (writeCredit s w).scratch = s.scratch ∧ (writeCredit s w).cmds = s.cmds ∧ (writeCredit s w).returns = s.returns ∧ (writeCredit s w).ints = s.ints ∧ (writeCredit s w).cfg = s.cfg ∧ (writeCredit s w).power = s.power ∧ (writeCredit s w).resets = s.resets ∧ (writeCredit s w).feats = s.feats ∧ (writeCredit s w).vaults = s.vaults ∧ (writeCredit s w).chain = s.chain ∧ (writeCredit s w).pair = s.pair ∧ (writeCredit s w).mgmt = s.mgmt ∧ (writeCredit s w).sensors = s.sensors ∧ (writeCredit s w).smbus = s.smbus ∧ (writeCredit s w).daybook = s.daybook ∧ (writeCredit s w).reserves = s.reserves ∧ (writeCredit s w).courier = s.courier ∧ (writeCredit s w).map = s.map ∧ (writeCredit s w).registry = s.registry ∧ (writeCredit s w).dram = s.dram ∧ (writeCredit s w).cache = s.cache ∧ (writeCredit s w).heldLow = s.heldLow ∧ (writeCredit s w).latched = s.latched ∧ (writeCredit s w).rsp = s.rsp ∧ (writeCredit s w).smbRsp = s.smbRsp ∧ (writeCredit s w).free = s.free := by
  have h := writeCredit_outside (ps := [.wickets, .link, .hostMem]) s w (by decide) (by decide) (by decide)
  exact ⟨same_pending h (by decide), same_chip h (by decide), same_fuses h (by decide), same_flash h (by decide), same_charter h (by decide), same_clock h (by decide), same_closers h (by decide), same_ledger h (by decide), same_vols h (by decide), same_bands h (by decide), same_plans h (by decide), same_works h (by decide), same_nextWork h (by decide), same_holds h (by decide), same_drives h (by decide), same_sas h (by decide), same_gov h (by decide), same_degrade h (by decide), same_reshapes h (by decide), same_tellers h (by decide), same_scratch h (by decide), same_cmds h (by decide), same_returns h (by decide), same_ints h (by decide), same_cfg h (by decide), same_power h (by decide), same_resets h (by decide), same_feats h (by decide), same_vaults h (by decide), same_chain h (by decide), same_pair h (by decide), same_mgmt h (by decide), same_sensors h (by decide), same_smbus h (by decide), same_daybook h (by decide), same_reserves h (by decide), same_courier h (by decide), same_map h (by decide), same_registry h (by decide), same_dram h (by decide), same_cache h (by decide), same_heldLow h (by decide), same_latched h (by decide), same_rsp h (by decide), same_smbRsp h (by decide), same_free h (by decide)⟩

theorem creditStep_keeps (s : State) (w : Nat) :
    (creditStep s w).pending = s.pending ∧ (creditStep s w).chip = s.chip ∧ (creditStep s w).fuses = s.fuses ∧ (creditStep s w).flash = s.flash ∧ (creditStep s w).charter = s.charter ∧ (creditStep s w).clock = s.clock ∧ (creditStep s w).closers = s.closers ∧ (creditStep s w).ledger = s.ledger ∧ (creditStep s w).vols = s.vols ∧ (creditStep s w).bands = s.bands ∧ (creditStep s w).plans = s.plans ∧ (creditStep s w).works = s.works ∧ (creditStep s w).nextWork = s.nextWork ∧ (creditStep s w).holds = s.holds ∧ (creditStep s w).drives = s.drives ∧ (creditStep s w).sas = s.sas ∧ (creditStep s w).gov = s.gov ∧ (creditStep s w).degrade = s.degrade ∧ (creditStep s w).reshapes = s.reshapes ∧ (creditStep s w).tellers = s.tellers ∧ (creditStep s w).scratch = s.scratch ∧ (creditStep s w).cmds = s.cmds ∧ (creditStep s w).returns = s.returns ∧ (creditStep s w).ints = s.ints ∧ (creditStep s w).cfg = s.cfg ∧ (creditStep s w).power = s.power ∧ (creditStep s w).resets = s.resets ∧ (creditStep s w).feats = s.feats ∧ (creditStep s w).vaults = s.vaults ∧ (creditStep s w).chain = s.chain ∧ (creditStep s w).pair = s.pair ∧ (creditStep s w).mgmt = s.mgmt ∧ (creditStep s w).sensors = s.sensors ∧ (creditStep s w).smbus = s.smbus ∧ (creditStep s w).daybook = s.daybook ∧ (creditStep s w).reserves = s.reserves ∧ (creditStep s w).courier = s.courier ∧ (creditStep s w).map = s.map ∧ (creditStep s w).registry = s.registry ∧ (creditStep s w).dram = s.dram ∧ (creditStep s w).cache = s.cache ∧ (creditStep s w).heldLow = s.heldLow ∧ (creditStep s w).latched = s.latched ∧ (creditStep s w).rsp = s.rsp ∧ (creditStep s w).smbRsp = s.smbRsp ∧ (creditStep s w).free = s.free := by
  have h := creditStep_outside (ps := [.wickets, .link, .hostMem]) s w (by decide) (by decide) (by decide)
  exact ⟨same_pending h (by decide), same_chip h (by decide), same_fuses h (by decide), same_flash h (by decide), same_charter h (by decide), same_clock h (by decide), same_closers h (by decide), same_ledger h (by decide), same_vols h (by decide), same_bands h (by decide), same_plans h (by decide), same_works h (by decide), same_nextWork h (by decide), same_holds h (by decide), same_drives h (by decide), same_sas h (by decide), same_gov h (by decide), same_degrade h (by decide), same_reshapes h (by decide), same_tellers h (by decide), same_scratch h (by decide), same_cmds h (by decide), same_returns h (by decide), same_ints h (by decide), same_cfg h (by decide), same_power h (by decide), same_resets h (by decide), same_feats h (by decide), same_vaults h (by decide), same_chain h (by decide), same_pair h (by decide), same_mgmt h (by decide), same_sensors h (by decide), same_smbus h (by decide), same_daybook h (by decide), same_reserves h (by decide), same_courier h (by decide), same_map h (by decide), same_registry h (by decide), same_dram h (by decide), same_cache h (by decide), same_heldLow h (by decide), same_latched h (by decide), same_rsp h (by decide), same_smbRsp h (by decide), same_free h (by decide)⟩

theorem setWicket_keeps (s : State) (w : Nat) (st : Nat) :
    (setWicket s w st).pending = s.pending ∧ (setWicket s w st).chip = s.chip ∧ (setWicket s w st).fuses = s.fuses ∧ (setWicket s w st).flash = s.flash ∧ (setWicket s w st).charter = s.charter ∧ (setWicket s w st).clock = s.clock ∧ (setWicket s w st).closers = s.closers ∧ (setWicket s w st).ledger = s.ledger ∧ (setWicket s w st).vols = s.vols ∧ (setWicket s w st).bands = s.bands ∧ (setWicket s w st).plans = s.plans ∧ (setWicket s w st).works = s.works ∧ (setWicket s w st).nextWork = s.nextWork ∧ (setWicket s w st).holds = s.holds ∧ (setWicket s w st).drives = s.drives ∧ (setWicket s w st).sas = s.sas ∧ (setWicket s w st).gov = s.gov ∧ (setWicket s w st).degrade = s.degrade ∧ (setWicket s w st).reshapes = s.reshapes ∧ (setWicket s w st).tellers = s.tellers ∧ (setWicket s w st).scratch = s.scratch ∧ (setWicket s w st).cmds = s.cmds ∧ (setWicket s w st).returns = s.returns ∧ (setWicket s w st).ints = s.ints ∧ (setWicket s w st).cfg = s.cfg ∧ (setWicket s w st).power = s.power ∧ (setWicket s w st).resets = s.resets ∧ (setWicket s w st).feats = s.feats ∧ (setWicket s w st).vaults = s.vaults ∧ (setWicket s w st).chain = s.chain ∧ (setWicket s w st).pair = s.pair ∧ (setWicket s w st).mgmt = s.mgmt ∧ (setWicket s w st).sensors = s.sensors ∧ (setWicket s w st).smbus = s.smbus ∧ (setWicket s w st).daybook = s.daybook ∧ (setWicket s w st).reserves = s.reserves ∧ (setWicket s w st).courier = s.courier ∧ (setWicket s w st).map = s.map ∧ (setWicket s w st).registry = s.registry ∧ (setWicket s w st).dram = s.dram ∧ (setWicket s w st).cache = s.cache ∧ (setWicket s w st).heldLow = s.heldLow ∧ (setWicket s w st).latched = s.latched ∧ (setWicket s w st).rsp = s.rsp ∧ (setWicket s w st).smbRsp = s.smbRsp ∧ (setWicket s w st).free = s.free := by
  have h := setWicket_outside (ps := [.wickets, .link, .hostMem]) s w st (by decide) (by decide) (by decide)
  exact ⟨same_pending h (by decide), same_chip h (by decide), same_fuses h (by decide), same_flash h (by decide), same_charter h (by decide), same_clock h (by decide), same_closers h (by decide), same_ledger h (by decide), same_vols h (by decide), same_bands h (by decide), same_plans h (by decide), same_works h (by decide), same_nextWork h (by decide), same_holds h (by decide), same_drives h (by decide), same_sas h (by decide), same_gov h (by decide), same_degrade h (by decide), same_reshapes h (by decide), same_tellers h (by decide), same_scratch h (by decide), same_cmds h (by decide), same_returns h (by decide), same_ints h (by decide), same_cfg h (by decide), same_power h (by decide), same_resets h (by decide), same_feats h (by decide), same_vaults h (by decide), same_chain h (by decide), same_pair h (by decide), same_mgmt h (by decide), same_sensors h (by decide), same_smbus h (by decide), same_daybook h (by decide), same_reserves h (by decide), same_courier h (by decide), same_map h (by decide), same_registry h (by decide), same_dram h (by decide), same_cache h (by decide), same_heldLow h (by decide), same_latched h (by decide), same_rsp h (by decide), same_smbRsp h (by decide), same_free h (by decide)⟩

theorem issue_keeps (s : State) (m : Nat) (op : MemberOp) (addr : Nat) (len : Nat) (data : Cells) (p : Purpose) :
    (issue s m op addr len data p).pending = s.pending ∧ (issue s m op addr len data p).chip = s.chip ∧ (issue s m op addr len data p).fuses = s.fuses ∧ (issue s m op addr len data p).flash = s.flash ∧ (issue s m op addr len data p).charter = s.charter ∧ (issue s m op addr len data p).clock = s.clock ∧ (issue s m op addr len data p).closers = s.closers ∧ (issue s m op addr len data p).ledger = s.ledger ∧ (issue s m op addr len data p).vols = s.vols ∧ (issue s m op addr len data p).bands = s.bands ∧ (issue s m op addr len data p).plans = s.plans ∧ (issue s m op addr len data p).works = s.works ∧ (issue s m op addr len data p).nextWork = s.nextWork ∧ (issue s m op addr len data p).holds = s.holds ∧ (issue s m op addr len data p).sas = s.sas ∧ (issue s m op addr len data p).gov = s.gov ∧ (issue s m op addr len data p).degrade = s.degrade ∧ (issue s m op addr len data p).reshapes = s.reshapes ∧ (issue s m op addr len data p).tellers = s.tellers ∧ (issue s m op addr len data p).scratch = s.scratch ∧ (issue s m op addr len data p).wickets = s.wickets ∧ (issue s m op addr len data p).cmds = s.cmds ∧ (issue s m op addr len data p).returns = s.returns ∧ (issue s m op addr len data p).ints = s.ints ∧ (issue s m op addr len data p).cfg = s.cfg ∧ (issue s m op addr len data p).link = s.link ∧ (issue s m op addr len data p).power = s.power ∧ (issue s m op addr len data p).resets = s.resets ∧ (issue s m op addr len data p).feats = s.feats ∧ (issue s m op addr len data p).vaults = s.vaults ∧ (issue s m op addr len data p).chain = s.chain ∧ (issue s m op addr len data p).pair = s.pair ∧ (issue s m op addr len data p).mgmt = s.mgmt ∧ (issue s m op addr len data p).sensors = s.sensors ∧ (issue s m op addr len data p).smbus = s.smbus ∧ (issue s m op addr len data p).daybook = s.daybook ∧ (issue s m op addr len data p).reserves = s.reserves ∧ (issue s m op addr len data p).courier = s.courier ∧ (issue s m op addr len data p).map = s.map ∧ (issue s m op addr len data p).registry = s.registry ∧ (issue s m op addr len data p).dram = s.dram ∧ (issue s m op addr len data p).cache = s.cache ∧ (issue s m op addr len data p).hostMem = s.hostMem ∧ (issue s m op addr len data p).heldLow = s.heldLow ∧ (issue s m op addr len data p).latched = s.latched ∧ (issue s m op addr len data p).rsp = s.rsp ∧ (issue s m op addr len data p).smbRsp = s.smbRsp ∧ (issue s m op addr len data p).free = s.free := by
  have h := issue_outside (ps := [.drives]) s m op addr len data p (by decide)
  exact ⟨same_pending h (by decide), same_chip h (by decide), same_fuses h (by decide), same_flash h (by decide), same_charter h (by decide), same_clock h (by decide), same_closers h (by decide), same_ledger h (by decide), same_vols h (by decide), same_bands h (by decide), same_plans h (by decide), same_works h (by decide), same_nextWork h (by decide), same_holds h (by decide), same_sas h (by decide), same_gov h (by decide), same_degrade h (by decide), same_reshapes h (by decide), same_tellers h (by decide), same_scratch h (by decide), same_wickets h (by decide), same_cmds h (by decide), same_returns h (by decide), same_ints h (by decide), same_cfg h (by decide), same_link h (by decide), same_power h (by decide), same_resets h (by decide), same_feats h (by decide), same_vaults h (by decide), same_chain h (by decide), same_pair h (by decide), same_mgmt h (by decide), same_sensors h (by decide), same_smbus h (by decide), same_daybook h (by decide), same_reserves h (by decide), same_courier h (by decide), same_map h (by decide), same_registry h (by decide), same_dram h (by decide), same_cache h (by decide), same_hostMem h (by decide), same_heldLow h (by decide), same_latched h (by decide), same_rsp h (by decide), same_smbRsp h (by decide), same_free h (by decide)⟩

theorem modMem_keeps (s : State) (m : Nat) (f : Member → Member) :
    (modMem s m f).pending = s.pending ∧ (modMem s m f).chip = s.chip ∧ (modMem s m f).fuses = s.fuses ∧ (modMem s m f).flash = s.flash ∧ (modMem s m f).charter = s.charter ∧ (modMem s m f).clock = s.clock ∧ (modMem s m f).closers = s.closers ∧ (modMem s m f).ledger = s.ledger ∧ (modMem s m f).vols = s.vols ∧ (modMem s m f).bands = s.bands ∧ (modMem s m f).plans = s.plans ∧ (modMem s m f).works = s.works ∧ (modMem s m f).nextWork = s.nextWork ∧ (modMem s m f).holds = s.holds ∧ (modMem s m f).sas = s.sas ∧ (modMem s m f).gov = s.gov ∧ (modMem s m f).degrade = s.degrade ∧ (modMem s m f).reshapes = s.reshapes ∧ (modMem s m f).tellers = s.tellers ∧ (modMem s m f).scratch = s.scratch ∧ (modMem s m f).wickets = s.wickets ∧ (modMem s m f).cmds = s.cmds ∧ (modMem s m f).returns = s.returns ∧ (modMem s m f).ints = s.ints ∧ (modMem s m f).cfg = s.cfg ∧ (modMem s m f).link = s.link ∧ (modMem s m f).power = s.power ∧ (modMem s m f).resets = s.resets ∧ (modMem s m f).feats = s.feats ∧ (modMem s m f).vaults = s.vaults ∧ (modMem s m f).chain = s.chain ∧ (modMem s m f).pair = s.pair ∧ (modMem s m f).mgmt = s.mgmt ∧ (modMem s m f).sensors = s.sensors ∧ (modMem s m f).smbus = s.smbus ∧ (modMem s m f).daybook = s.daybook ∧ (modMem s m f).reserves = s.reserves ∧ (modMem s m f).courier = s.courier ∧ (modMem s m f).map = s.map ∧ (modMem s m f).registry = s.registry ∧ (modMem s m f).dram = s.dram ∧ (modMem s m f).cache = s.cache ∧ (modMem s m f).hostMem = s.hostMem ∧ (modMem s m f).heldLow = s.heldLow ∧ (modMem s m f).latched = s.latched ∧ (modMem s m f).rsp = s.rsp ∧ (modMem s m f).smbRsp = s.smbRsp ∧ (modMem s m f).free = s.free := by
  have h := modMem_outside (ps := [.drives]) s m f (by decide)
  exact ⟨same_pending h (by decide), same_chip h (by decide), same_fuses h (by decide), same_flash h (by decide), same_charter h (by decide), same_clock h (by decide), same_closers h (by decide), same_ledger h (by decide), same_vols h (by decide), same_bands h (by decide), same_plans h (by decide), same_works h (by decide), same_nextWork h (by decide), same_holds h (by decide), same_sas h (by decide), same_gov h (by decide), same_degrade h (by decide), same_reshapes h (by decide), same_tellers h (by decide), same_scratch h (by decide), same_wickets h (by decide), same_cmds h (by decide), same_returns h (by decide), same_ints h (by decide), same_cfg h (by decide), same_link h (by decide), same_power h (by decide), same_resets h (by decide), same_feats h (by decide), same_vaults h (by decide), same_chain h (by decide), same_pair h (by decide), same_mgmt h (by decide), same_sensors h (by decide), same_smbus h (by decide), same_daybook h (by decide), same_reserves h (by decide), same_courier h (by decide), same_map h (by decide), same_registry h (by decide), same_dram h (by decide), same_cache h (by decide), same_hostMem h (by decide), same_heldLow h (by decide), same_latched h (by decide), same_rsp h (by decide), same_smbRsp h (by decide), same_free h (by decide)⟩

theorem setMem_keeps (s : State) (m : Nat) (st : Nat) :
    (setMem s m st).pending = s.pending ∧ (setMem s m st).chip = s.chip ∧ (setMem s m st).fuses = s.fuses ∧ (setMem s m st).flash = s.flash ∧ (setMem s m st).charter = s.charter ∧ (setMem s m st).clock = s.clock ∧ (setMem s m st).closers = s.closers ∧ (setMem s m st).ledger = s.ledger ∧ (setMem s m st).vols = s.vols ∧ (setMem s m st).bands = s.bands ∧ (setMem s m st).plans = s.plans ∧ (setMem s m st).works = s.works ∧ (setMem s m st).nextWork = s.nextWork ∧ (setMem s m st).holds = s.holds ∧ (setMem s m st).sas = s.sas ∧ (setMem s m st).gov = s.gov ∧ (setMem s m st).degrade = s.degrade ∧ (setMem s m st).reshapes = s.reshapes ∧ (setMem s m st).tellers = s.tellers ∧ (setMem s m st).scratch = s.scratch ∧ (setMem s m st).wickets = s.wickets ∧ (setMem s m st).cmds = s.cmds ∧ (setMem s m st).returns = s.returns ∧ (setMem s m st).ints = s.ints ∧ (setMem s m st).cfg = s.cfg ∧ (setMem s m st).link = s.link ∧ (setMem s m st).power = s.power ∧ (setMem s m st).resets = s.resets ∧ (setMem s m st).feats = s.feats ∧ (setMem s m st).vaults = s.vaults ∧ (setMem s m st).chain = s.chain ∧ (setMem s m st).pair = s.pair ∧ (setMem s m st).mgmt = s.mgmt ∧ (setMem s m st).sensors = s.sensors ∧ (setMem s m st).smbus = s.smbus ∧ (setMem s m st).daybook = s.daybook ∧ (setMem s m st).reserves = s.reserves ∧ (setMem s m st).courier = s.courier ∧ (setMem s m st).map = s.map ∧ (setMem s m st).registry = s.registry ∧ (setMem s m st).dram = s.dram ∧ (setMem s m st).cache = s.cache ∧ (setMem s m st).hostMem = s.hostMem ∧ (setMem s m st).heldLow = s.heldLow ∧ (setMem s m st).latched = s.latched ∧ (setMem s m st).rsp = s.rsp ∧ (setMem s m st).smbRsp = s.smbRsp ∧ (setMem s m st).free = s.free := by
  have h := setMem_outside (ps := [.drives]) s m st (by decide)
  exact ⟨same_pending h (by decide), same_chip h (by decide), same_fuses h (by decide), same_flash h (by decide), same_charter h (by decide), same_clock h (by decide), same_closers h (by decide), same_ledger h (by decide), same_vols h (by decide), same_bands h (by decide), same_plans h (by decide), same_works h (by decide), same_nextWork h (by decide), same_holds h (by decide), same_sas h (by decide), same_gov h (by decide), same_degrade h (by decide), same_reshapes h (by decide), same_tellers h (by decide), same_scratch h (by decide), same_wickets h (by decide), same_cmds h (by decide), same_returns h (by decide), same_ints h (by decide), same_cfg h (by decide), same_link h (by decide), same_power h (by decide), same_resets h (by decide), same_feats h (by decide), same_vaults h (by decide), same_chain h (by decide), same_pair h (by decide), same_mgmt h (by decide), same_sensors h (by decide), same_smbus h (by decide), same_daybook h (by decide), same_reserves h (by decide), same_courier h (by decide), same_map h (by decide), same_registry h (by decide), same_dram h (by decide), same_cache h (by decide), same_hostMem h (by decide), same_heldLow h (by decide), same_latched h (by decide), same_rsp h (by decide), same_smbRsp h (by decide), same_free h (by decide)⟩

theorem errorEvent_keeps (s : State) (m : Nat) :
    (errorEvent s m).pending = s.pending ∧ (errorEvent s m).chip = s.chip ∧ (errorEvent s m).fuses = s.fuses ∧ (errorEvent s m).flash = s.flash ∧ (errorEvent s m).charter = s.charter ∧ (errorEvent s m).clock = s.clock ∧ (errorEvent s m).closers = s.closers ∧ (errorEvent s m).ledger = s.ledger ∧ (errorEvent s m).vols = s.vols ∧ (errorEvent s m).bands = s.bands ∧ (errorEvent s m).plans = s.plans ∧ (errorEvent s m).works = s.works ∧ (errorEvent s m).nextWork = s.nextWork ∧ (errorEvent s m).holds = s.holds ∧ (errorEvent s m).sas = s.sas ∧ (errorEvent s m).gov = s.gov ∧ (errorEvent s m).degrade = s.degrade ∧ (errorEvent s m).reshapes = s.reshapes ∧ (errorEvent s m).tellers = s.tellers ∧ (errorEvent s m).scratch = s.scratch ∧ (errorEvent s m).wickets = s.wickets ∧ (errorEvent s m).cmds = s.cmds ∧ (errorEvent s m).returns = s.returns ∧ (errorEvent s m).ints = s.ints ∧ (errorEvent s m).cfg = s.cfg ∧ (errorEvent s m).link = s.link ∧ (errorEvent s m).power = s.power ∧ (errorEvent s m).resets = s.resets ∧ (errorEvent s m).feats = s.feats ∧ (errorEvent s m).vaults = s.vaults ∧ (errorEvent s m).chain = s.chain ∧ (errorEvent s m).pair = s.pair ∧ (errorEvent s m).mgmt = s.mgmt ∧ (errorEvent s m).sensors = s.sensors ∧ (errorEvent s m).smbus = s.smbus ∧ (errorEvent s m).daybook = s.daybook ∧ (errorEvent s m).reserves = s.reserves ∧ (errorEvent s m).courier = s.courier ∧ (errorEvent s m).map = s.map ∧ (errorEvent s m).registry = s.registry ∧ (errorEvent s m).dram = s.dram ∧ (errorEvent s m).cache = s.cache ∧ (errorEvent s m).hostMem = s.hostMem ∧ (errorEvent s m).heldLow = s.heldLow ∧ (errorEvent s m).latched = s.latched ∧ (errorEvent s m).rsp = s.rsp ∧ (errorEvent s m).smbRsp = s.smbRsp ∧ (errorEvent s m).free = s.free := by
  have h := errorEvent_outside (ps := [.drives]) s m (by decide)
  exact ⟨same_pending h (by decide), same_chip h (by decide), same_fuses h (by decide), same_flash h (by decide), same_charter h (by decide), same_clock h (by decide), same_closers h (by decide), same_ledger h (by decide), same_vols h (by decide), same_bands h (by decide), same_plans h (by decide), same_works h (by decide), same_nextWork h (by decide), same_holds h (by decide), same_sas h (by decide), same_gov h (by decide), same_degrade h (by decide), same_reshapes h (by decide), same_tellers h (by decide), same_scratch h (by decide), same_wickets h (by decide), same_cmds h (by decide), same_returns h (by decide), same_ints h (by decide), same_cfg h (by decide), same_link h (by decide), same_power h (by decide), same_resets h (by decide), same_feats h (by decide), same_vaults h (by decide), same_chain h (by decide), same_pair h (by decide), same_mgmt h (by decide), same_sensors h (by decide), same_smbus h (by decide), same_daybook h (by decide), same_reserves h (by decide), same_courier h (by decide), same_map h (by decide), same_registry h (by decide), same_dram h (by decide), same_cache h (by decide), same_hostMem h (by decide), same_heldLow h (by decide), same_latched h (by decide), same_rsp h (by decide), same_smbRsp h (by decide), same_free h (by decide)⟩

theorem setDemand_keeps (s : State) (cls : Nat) (groups : List Nat) (of : DemandOf) :
    (setDemand s cls groups of).pending = s.pending ∧ (setDemand s cls groups of).chip = s.chip ∧ (setDemand s cls groups of).fuses = s.fuses ∧ (setDemand s cls groups of).flash = s.flash ∧ (setDemand s cls groups of).charter = s.charter ∧ (setDemand s cls groups of).clock = s.clock ∧ (setDemand s cls groups of).closers = s.closers ∧ (setDemand s cls groups of).ledger = s.ledger ∧ (setDemand s cls groups of).vols = s.vols ∧ (setDemand s cls groups of).bands = s.bands ∧ (setDemand s cls groups of).plans = s.plans ∧ (setDemand s cls groups of).works = s.works ∧ (setDemand s cls groups of).nextWork = s.nextWork ∧ (setDemand s cls groups of).holds = s.holds ∧ (setDemand s cls groups of).drives = s.drives ∧ (setDemand s cls groups of).sas = s.sas ∧ (setDemand s cls groups of).degrade = s.degrade ∧ (setDemand s cls groups of).reshapes = s.reshapes ∧ (setDemand s cls groups of).tellers = s.tellers ∧ (setDemand s cls groups of).scratch = s.scratch ∧ (setDemand s cls groups of).wickets = s.wickets ∧ (setDemand s cls groups of).cmds = s.cmds ∧ (setDemand s cls groups of).returns = s.returns ∧ (setDemand s cls groups of).ints = s.ints ∧ (setDemand s cls groups of).cfg = s.cfg ∧ (setDemand s cls groups of).link = s.link ∧ (setDemand s cls groups of).power = s.power ∧ (setDemand s cls groups of).resets = s.resets ∧ (setDemand s cls groups of).feats = s.feats ∧ (setDemand s cls groups of).vaults = s.vaults ∧ (setDemand s cls groups of).chain = s.chain ∧ (setDemand s cls groups of).pair = s.pair ∧ (setDemand s cls groups of).mgmt = s.mgmt ∧ (setDemand s cls groups of).sensors = s.sensors ∧ (setDemand s cls groups of).smbus = s.smbus ∧ (setDemand s cls groups of).daybook = s.daybook ∧ (setDemand s cls groups of).reserves = s.reserves ∧ (setDemand s cls groups of).courier = s.courier ∧ (setDemand s cls groups of).map = s.map ∧ (setDemand s cls groups of).registry = s.registry ∧ (setDemand s cls groups of).dram = s.dram ∧ (setDemand s cls groups of).cache = s.cache ∧ (setDemand s cls groups of).hostMem = s.hostMem ∧ (setDemand s cls groups of).heldLow = s.heldLow ∧ (setDemand s cls groups of).latched = s.latched ∧ (setDemand s cls groups of).rsp = s.rsp ∧ (setDemand s cls groups of).smbRsp = s.smbRsp ∧ (setDemand s cls groups of).free = s.free := by
  have h := setDemand_outside (ps := [.gov]) s cls groups of (by decide)
  exact ⟨same_pending h (by decide), same_chip h (by decide), same_fuses h (by decide), same_flash h (by decide), same_charter h (by decide), same_clock h (by decide), same_closers h (by decide), same_ledger h (by decide), same_vols h (by decide), same_bands h (by decide), same_plans h (by decide), same_works h (by decide), same_nextWork h (by decide), same_holds h (by decide), same_drives h (by decide), same_sas h (by decide), same_degrade h (by decide), same_reshapes h (by decide), same_tellers h (by decide), same_scratch h (by decide), same_wickets h (by decide), same_cmds h (by decide), same_returns h (by decide), same_ints h (by decide), same_cfg h (by decide), same_link h (by decide), same_power h (by decide), same_resets h (by decide), same_feats h (by decide), same_vaults h (by decide), same_chain h (by decide), same_pair h (by decide), same_mgmt h (by decide), same_sensors h (by decide), same_smbus h (by decide), same_daybook h (by decide), same_reserves h (by decide), same_courier h (by decide), same_map h (by decide), same_registry h (by decide), same_dram h (by decide), same_cache h (by decide), same_hostMem h (by decide), same_heldLow h (by decide), same_latched h (by decide), same_rsp h (by decide), same_smbRsp h (by decide), same_free h (by decide)⟩

theorem dropDemand_keeps (s : State) (of : DemandOf) :
    (dropDemand s of).pending = s.pending ∧ (dropDemand s of).chip = s.chip ∧ (dropDemand s of).fuses = s.fuses ∧ (dropDemand s of).flash = s.flash ∧ (dropDemand s of).charter = s.charter ∧ (dropDemand s of).clock = s.clock ∧ (dropDemand s of).closers = s.closers ∧ (dropDemand s of).ledger = s.ledger ∧ (dropDemand s of).vols = s.vols ∧ (dropDemand s of).bands = s.bands ∧ (dropDemand s of).plans = s.plans ∧ (dropDemand s of).works = s.works ∧ (dropDemand s of).nextWork = s.nextWork ∧ (dropDemand s of).holds = s.holds ∧ (dropDemand s of).drives = s.drives ∧ (dropDemand s of).sas = s.sas ∧ (dropDemand s of).degrade = s.degrade ∧ (dropDemand s of).reshapes = s.reshapes ∧ (dropDemand s of).tellers = s.tellers ∧ (dropDemand s of).scratch = s.scratch ∧ (dropDemand s of).wickets = s.wickets ∧ (dropDemand s of).cmds = s.cmds ∧ (dropDemand s of).returns = s.returns ∧ (dropDemand s of).ints = s.ints ∧ (dropDemand s of).cfg = s.cfg ∧ (dropDemand s of).link = s.link ∧ (dropDemand s of).power = s.power ∧ (dropDemand s of).resets = s.resets ∧ (dropDemand s of).feats = s.feats ∧ (dropDemand s of).vaults = s.vaults ∧ (dropDemand s of).chain = s.chain ∧ (dropDemand s of).pair = s.pair ∧ (dropDemand s of).mgmt = s.mgmt ∧ (dropDemand s of).sensors = s.sensors ∧ (dropDemand s of).smbus = s.smbus ∧ (dropDemand s of).daybook = s.daybook ∧ (dropDemand s of).reserves = s.reserves ∧ (dropDemand s of).courier = s.courier ∧ (dropDemand s of).map = s.map ∧ (dropDemand s of).registry = s.registry ∧ (dropDemand s of).dram = s.dram ∧ (dropDemand s of).cache = s.cache ∧ (dropDemand s of).hostMem = s.hostMem ∧ (dropDemand s of).heldLow = s.heldLow ∧ (dropDemand s of).latched = s.latched ∧ (dropDemand s of).rsp = s.rsp ∧ (dropDemand s of).smbRsp = s.smbRsp ∧ (dropDemand s of).free = s.free := by
  have h := dropDemand_outside (ps := [.gov]) s of (by decide)
  exact ⟨same_pending h (by decide), same_chip h (by decide), same_fuses h (by decide), same_flash h (by decide), same_charter h (by decide), same_clock h (by decide), same_closers h (by decide), same_ledger h (by decide), same_vols h (by decide), same_bands h (by decide), same_plans h (by decide), same_works h (by decide), same_nextWork h (by decide), same_holds h (by decide), same_drives h (by decide), same_sas h (by decide), same_degrade h (by decide), same_reshapes h (by decide), same_tellers h (by decide), same_scratch h (by decide), same_wickets h (by decide), same_cmds h (by decide), same_returns h (by decide), same_ints h (by decide), same_cfg h (by decide), same_link h (by decide), same_power h (by decide), same_resets h (by decide), same_feats h (by decide), same_vaults h (by decide), same_chain h (by decide), same_pair h (by decide), same_mgmt h (by decide), same_sensors h (by decide), same_smbus h (by decide), same_daybook h (by decide), same_reserves h (by decide), same_courier h (by decide), same_map h (by decide), same_registry h (by decide), same_dram h (by decide), same_cache h (by decide), same_hostMem h (by decide), same_heldLow h (by decide), same_latched h (by decide), same_rsp h (by decide), same_smbRsp h (by decide), same_free h (by decide)⟩

theorem modRsh_keeps (s : State) (k : Nat) (f : Reshape → Reshape) :
    (modRsh s k f).pending = s.pending ∧ (modRsh s k f).chip = s.chip ∧ (modRsh s k f).fuses = s.fuses ∧ (modRsh s k f).flash = s.flash ∧ (modRsh s k f).charter = s.charter ∧ (modRsh s k f).clock = s.clock ∧ (modRsh s k f).closers = s.closers ∧ (modRsh s k f).ledger = s.ledger ∧ (modRsh s k f).vols = s.vols ∧ (modRsh s k f).bands = s.bands ∧ (modRsh s k f).plans = s.plans ∧ (modRsh s k f).works = s.works ∧ (modRsh s k f).nextWork = s.nextWork ∧ (modRsh s k f).holds = s.holds ∧ (modRsh s k f).drives = s.drives ∧ (modRsh s k f).sas = s.sas ∧ (modRsh s k f).gov = s.gov ∧ (modRsh s k f).degrade = s.degrade ∧ (modRsh s k f).tellers = s.tellers ∧ (modRsh s k f).scratch = s.scratch ∧ (modRsh s k f).wickets = s.wickets ∧ (modRsh s k f).cmds = s.cmds ∧ (modRsh s k f).returns = s.returns ∧ (modRsh s k f).ints = s.ints ∧ (modRsh s k f).cfg = s.cfg ∧ (modRsh s k f).link = s.link ∧ (modRsh s k f).power = s.power ∧ (modRsh s k f).resets = s.resets ∧ (modRsh s k f).feats = s.feats ∧ (modRsh s k f).vaults = s.vaults ∧ (modRsh s k f).chain = s.chain ∧ (modRsh s k f).pair = s.pair ∧ (modRsh s k f).mgmt = s.mgmt ∧ (modRsh s k f).sensors = s.sensors ∧ (modRsh s k f).smbus = s.smbus ∧ (modRsh s k f).daybook = s.daybook ∧ (modRsh s k f).reserves = s.reserves ∧ (modRsh s k f).courier = s.courier ∧ (modRsh s k f).map = s.map ∧ (modRsh s k f).registry = s.registry ∧ (modRsh s k f).dram = s.dram ∧ (modRsh s k f).cache = s.cache ∧ (modRsh s k f).hostMem = s.hostMem ∧ (modRsh s k f).heldLow = s.heldLow ∧ (modRsh s k f).latched = s.latched ∧ (modRsh s k f).rsp = s.rsp ∧ (modRsh s k f).smbRsp = s.smbRsp ∧ (modRsh s k f).free = s.free := by
  have h := modRsh_outside (ps := [.reshapes]) s k f (by decide)
  exact ⟨same_pending h (by decide), same_chip h (by decide), same_fuses h (by decide), same_flash h (by decide), same_charter h (by decide), same_clock h (by decide), same_closers h (by decide), same_ledger h (by decide), same_vols h (by decide), same_bands h (by decide), same_plans h (by decide), same_works h (by decide), same_nextWork h (by decide), same_holds h (by decide), same_drives h (by decide), same_sas h (by decide), same_gov h (by decide), same_degrade h (by decide), same_tellers h (by decide), same_scratch h (by decide), same_wickets h (by decide), same_cmds h (by decide), same_returns h (by decide), same_ints h (by decide), same_cfg h (by decide), same_link h (by decide), same_power h (by decide), same_resets h (by decide), same_feats h (by decide), same_vaults h (by decide), same_chain h (by decide), same_pair h (by decide), same_mgmt h (by decide), same_sensors h (by decide), same_smbus h (by decide), same_daybook h (by decide), same_reserves h (by decide), same_courier h (by decide), same_map h (by decide), same_registry h (by decide), same_dram h (by decide), same_cache h (by decide), same_hostMem h (by decide), same_heldLow h (by decide), same_latched h (by decide), same_rsp h (by decide), same_smbRsp h (by decide), same_free h (by decide)⟩

theorem toRegistry_keeps (s : State) (ks : List Nat) (op : MemberOp) :
    (toRegistry s ks op).pending = s.pending ∧ (toRegistry s ks op).chip = s.chip ∧ (toRegistry s ks op).fuses = s.fuses ∧ (toRegistry s ks op).flash = s.flash ∧ (toRegistry s ks op).charter = s.charter ∧ (toRegistry s ks op).clock = s.clock ∧ (toRegistry s ks op).closers = s.closers ∧ (toRegistry s ks op).ledger = s.ledger ∧ (toRegistry s ks op).vols = s.vols ∧ (toRegistry s ks op).bands = s.bands ∧ (toRegistry s ks op).plans = s.plans ∧ (toRegistry s ks op).works = s.works ∧ (toRegistry s ks op).nextWork = s.nextWork ∧ (toRegistry s ks op).holds = s.holds ∧ (toRegistry s ks op).sas = s.sas ∧ (toRegistry s ks op).gov = s.gov ∧ (toRegistry s ks op).degrade = s.degrade ∧ (toRegistry s ks op).reshapes = s.reshapes ∧ (toRegistry s ks op).tellers = s.tellers ∧ (toRegistry s ks op).scratch = s.scratch ∧ (toRegistry s ks op).wickets = s.wickets ∧ (toRegistry s ks op).cmds = s.cmds ∧ (toRegistry s ks op).returns = s.returns ∧ (toRegistry s ks op).ints = s.ints ∧ (toRegistry s ks op).cfg = s.cfg ∧ (toRegistry s ks op).link = s.link ∧ (toRegistry s ks op).power = s.power ∧ (toRegistry s ks op).resets = s.resets ∧ (toRegistry s ks op).feats = s.feats ∧ (toRegistry s ks op).vaults = s.vaults ∧ (toRegistry s ks op).chain = s.chain ∧ (toRegistry s ks op).pair = s.pair ∧ (toRegistry s ks op).mgmt = s.mgmt ∧ (toRegistry s ks op).sensors = s.sensors ∧ (toRegistry s ks op).smbus = s.smbus ∧ (toRegistry s ks op).daybook = s.daybook ∧ (toRegistry s ks op).reserves = s.reserves ∧ (toRegistry s ks op).courier = s.courier ∧ (toRegistry s ks op).map = s.map ∧ (toRegistry s ks op).registry = s.registry ∧ (toRegistry s ks op).dram = s.dram ∧ (toRegistry s ks op).cache = s.cache ∧ (toRegistry s ks op).hostMem = s.hostMem ∧ (toRegistry s ks op).heldLow = s.heldLow ∧ (toRegistry s ks op).latched = s.latched ∧ (toRegistry s ks op).rsp = s.rsp ∧ (toRegistry s ks op).smbRsp = s.smbRsp ∧ (toRegistry s ks op).free = s.free := by
  have h := toRegistry_outside (ps := [.drives]) s ks op (by decide)
  exact ⟨same_pending h (by decide), same_chip h (by decide), same_fuses h (by decide), same_flash h (by decide), same_charter h (by decide), same_clock h (by decide), same_closers h (by decide), same_ledger h (by decide), same_vols h (by decide), same_bands h (by decide), same_plans h (by decide), same_works h (by decide), same_nextWork h (by decide), same_holds h (by decide), same_sas h (by decide), same_gov h (by decide), same_degrade h (by decide), same_reshapes h (by decide), same_tellers h (by decide), same_scratch h (by decide), same_wickets h (by decide), same_cmds h (by decide), same_returns h (by decide), same_ints h (by decide), same_cfg h (by decide), same_link h (by decide), same_power h (by decide), same_resets h (by decide), same_feats h (by decide), same_vaults h (by decide), same_chain h (by decide), same_pair h (by decide), same_mgmt h (by decide), same_sensors h (by decide), same_smbus h (by decide), same_daybook h (by decide), same_reserves h (by decide), same_courier h (by decide), same_map h (by decide), same_registry h (by decide), same_dram h (by decide), same_cache h (by decide), same_hostMem h (by decide), same_heldLow h (by decide), same_latched h (by decide), same_rsp h (by decide), same_smbRsp h (by decide), same_free h (by decide)⟩

theorem wakeUp_keeps (s : State) (n : Nat) :
    (wakeUp s n).pending = s.pending ∧ (wakeUp s n).chip = s.chip ∧ (wakeUp s n).fuses = s.fuses ∧ (wakeUp s n).flash = s.flash ∧ (wakeUp s n).charter = s.charter ∧ (wakeUp s n).clock = s.clock ∧ (wakeUp s n).closers = s.closers ∧ (wakeUp s n).ledger = s.ledger ∧ (wakeUp s n).vols = s.vols ∧ (wakeUp s n).bands = s.bands ∧ (wakeUp s n).plans = s.plans ∧ (wakeUp s n).works = s.works ∧ (wakeUp s n).nextWork = s.nextWork ∧ (wakeUp s n).holds = s.holds ∧ (wakeUp s n).drives = s.drives ∧ (wakeUp s n).sas = s.sas ∧ (wakeUp s n).gov = s.gov ∧ (wakeUp s n).degrade = s.degrade ∧ (wakeUp s n).reshapes = s.reshapes ∧ (wakeUp s n).tellers = s.tellers ∧ (wakeUp s n).scratch = s.scratch ∧ (wakeUp s n).wickets = s.wickets ∧ (wakeUp s n).cmds = s.cmds ∧ (wakeUp s n).returns = s.returns ∧ (wakeUp s n).link = s.link ∧ (wakeUp s n).power = s.power ∧ (wakeUp s n).resets = s.resets ∧ (wakeUp s n).feats = s.feats ∧ (wakeUp s n).vaults = s.vaults ∧ (wakeUp s n).chain = s.chain ∧ (wakeUp s n).pair = s.pair ∧ (wakeUp s n).mgmt = s.mgmt ∧ (wakeUp s n).sensors = s.sensors ∧ (wakeUp s n).smbus = s.smbus ∧ (wakeUp s n).daybook = s.daybook ∧ (wakeUp s n).reserves = s.reserves ∧ (wakeUp s n).courier = s.courier ∧ (wakeUp s n).map = s.map ∧ (wakeUp s n).registry = s.registry ∧ (wakeUp s n).dram = s.dram ∧ (wakeUp s n).cache = s.cache ∧ (wakeUp s n).hostMem = s.hostMem ∧ (wakeUp s n).heldLow = s.heldLow ∧ (wakeUp s n).latched = s.latched ∧ (wakeUp s n).rsp = s.rsp ∧ (wakeUp s n).smbRsp = s.smbRsp ∧ (wakeUp s n).free = s.free := by
  have h := wakeUp_outside (ps := [.ints, .cfg]) s n (by decide) (by decide)
  exact ⟨same_pending h (by decide), same_chip h (by decide), same_fuses h (by decide), same_flash h (by decide), same_charter h (by decide), same_clock h (by decide), same_closers h (by decide), same_ledger h (by decide), same_vols h (by decide), same_bands h (by decide), same_plans h (by decide), same_works h (by decide), same_nextWork h (by decide), same_holds h (by decide), same_drives h (by decide), same_sas h (by decide), same_gov h (by decide), same_degrade h (by decide), same_reshapes h (by decide), same_tellers h (by decide), same_scratch h (by decide), same_wickets h (by decide), same_cmds h (by decide), same_returns h (by decide), same_link h (by decide), same_power h (by decide), same_resets h (by decide), same_feats h (by decide), same_vaults h (by decide), same_chain h (by decide), same_pair h (by decide), same_mgmt h (by decide), same_sensors h (by decide), same_smbus h (by decide), same_daybook h (by decide), same_reserves h (by decide), same_courier h (by decide), same_map h (by decide), same_registry h (by decide), same_dram h (by decide), same_cache h (by decide), same_hostMem h (by decide), same_heldLow h (by decide), same_latched h (by decide), same_rsp h (by decide), same_smbRsp h (by decide), same_free h (by decide)⟩

theorem takeFree_keeps (s : State) :
    (takeFree s).1.pending = s.pending ∧ (takeFree s).1.chip = s.chip ∧ (takeFree s).1.fuses = s.fuses ∧ (takeFree s).1.flash = s.flash ∧ (takeFree s).1.charter = s.charter ∧ (takeFree s).1.clock = s.clock ∧ (takeFree s).1.closers = s.closers ∧ (takeFree s).1.ledger = s.ledger ∧ (takeFree s).1.vols = s.vols ∧ (takeFree s).1.bands = s.bands ∧ (takeFree s).1.plans = s.plans ∧ (takeFree s).1.works = s.works ∧ (takeFree s).1.nextWork = s.nextWork ∧ (takeFree s).1.holds = s.holds ∧ (takeFree s).1.drives = s.drives ∧ (takeFree s).1.sas = s.sas ∧ (takeFree s).1.gov = s.gov ∧ (takeFree s).1.degrade = s.degrade ∧ (takeFree s).1.reshapes = s.reshapes ∧ (takeFree s).1.tellers = s.tellers ∧ (takeFree s).1.scratch = s.scratch ∧ (takeFree s).1.wickets = s.wickets ∧ (takeFree s).1.cmds = s.cmds ∧ (takeFree s).1.returns = s.returns ∧ (takeFree s).1.ints = s.ints ∧ (takeFree s).1.cfg = s.cfg ∧ (takeFree s).1.link = s.link ∧ (takeFree s).1.power = s.power ∧ (takeFree s).1.resets = s.resets ∧ (takeFree s).1.feats = s.feats ∧ (takeFree s).1.vaults = s.vaults ∧ (takeFree s).1.chain = s.chain ∧ (takeFree s).1.pair = s.pair ∧ (takeFree s).1.mgmt = s.mgmt ∧ (takeFree s).1.sensors = s.sensors ∧ (takeFree s).1.smbus = s.smbus ∧ (takeFree s).1.daybook = s.daybook ∧ (takeFree s).1.reserves = s.reserves ∧ (takeFree s).1.courier = s.courier ∧ (takeFree s).1.map = s.map ∧ (takeFree s).1.registry = s.registry ∧ (takeFree s).1.dram = s.dram ∧ (takeFree s).1.cache = s.cache ∧ (takeFree s).1.hostMem = s.hostMem ∧ (takeFree s).1.heldLow = s.heldLow ∧ (takeFree s).1.latched = s.latched ∧ (takeFree s).1.rsp = s.rsp ∧ (takeFree s).1.smbRsp = s.smbRsp := by
  have h := takeFree_outside (ps := [.free]) s (by decide)
  exact ⟨same_pending h (by decide), same_chip h (by decide), same_fuses h (by decide), same_flash h (by decide), same_charter h (by decide), same_clock h (by decide), same_closers h (by decide), same_ledger h (by decide), same_vols h (by decide), same_bands h (by decide), same_plans h (by decide), same_works h (by decide), same_nextWork h (by decide), same_holds h (by decide), same_drives h (by decide), same_sas h (by decide), same_gov h (by decide), same_degrade h (by decide), same_reshapes h (by decide), same_tellers h (by decide), same_scratch h (by decide), same_wickets h (by decide), same_cmds h (by decide), same_returns h (by decide), same_ints h (by decide), same_cfg h (by decide), same_link h (by decide), same_power h (by decide), same_resets h (by decide), same_feats h (by decide), same_vaults h (by decide), same_chain h (by decide), same_pair h (by decide), same_mgmt h (by decide), same_sensors h (by decide), same_smbus h (by decide), same_daybook h (by decide), same_reserves h (by decide), same_courier h (by decide), same_map h (by decide), same_registry h (by decide), same_dram h (by decide), same_cache h (by decide), same_hostMem h (by decide), same_heldLow h (by decide), same_latched h (by decide), same_rsp h (by decide), same_smbRsp h (by decide)⟩

theorem openFields_keeps (s : State) (e : Entry) (tag : Bool) :
    (openFields s e tag).1.pending = s.pending ∧ (openFields s e tag).1.chip = s.chip ∧ (openFields s e tag).1.fuses = s.fuses ∧ (openFields s e tag).1.flash = s.flash ∧ (openFields s e tag).1.charter = s.charter ∧ (openFields s e tag).1.clock = s.clock ∧ (openFields s e tag).1.closers = s.closers ∧ (openFields s e tag).1.ledger = s.ledger ∧ (openFields s e tag).1.vols = s.vols ∧ (openFields s e tag).1.bands = s.bands ∧ (openFields s e tag).1.plans = s.plans ∧ (openFields s e tag).1.works = s.works ∧ (openFields s e tag).1.nextWork = s.nextWork ∧ (openFields s e tag).1.holds = s.holds ∧ (openFields s e tag).1.drives = s.drives ∧ (openFields s e tag).1.sas = s.sas ∧ (openFields s e tag).1.gov = s.gov ∧ (openFields s e tag).1.degrade = s.degrade ∧ (openFields s e tag).1.reshapes = s.reshapes ∧ (openFields s e tag).1.tellers = s.tellers ∧ (openFields s e tag).1.scratch = s.scratch ∧ (openFields s e tag).1.wickets = s.wickets ∧ (openFields s e tag).1.cmds = s.cmds ∧ (openFields s e tag).1.returns = s.returns ∧ (openFields s e tag).1.ints = s.ints ∧ (openFields s e tag).1.cfg = s.cfg ∧ (openFields s e tag).1.link = s.link ∧ (openFields s e tag).1.power = s.power ∧ (openFields s e tag).1.resets = s.resets ∧ (openFields s e tag).1.feats = s.feats ∧ (openFields s e tag).1.vaults = s.vaults ∧ (openFields s e tag).1.chain = s.chain ∧ (openFields s e tag).1.pair = s.pair ∧ (openFields s e tag).1.mgmt = s.mgmt ∧ (openFields s e tag).1.sensors = s.sensors ∧ (openFields s e tag).1.smbus = s.smbus ∧ (openFields s e tag).1.daybook = s.daybook ∧ (openFields s e tag).1.reserves = s.reserves ∧ (openFields s e tag).1.courier = s.courier ∧ (openFields s e tag).1.map = s.map ∧ (openFields s e tag).1.registry = s.registry ∧ (openFields s e tag).1.dram = s.dram ∧ (openFields s e tag).1.cache = s.cache ∧ (openFields s e tag).1.hostMem = s.hostMem ∧ (openFields s e tag).1.heldLow = s.heldLow ∧ (openFields s e tag).1.latched = s.latched ∧ (openFields s e tag).1.rsp = s.rsp ∧ (openFields s e tag).1.smbRsp = s.smbRsp := by
  have h := openFields_outside (ps := [.free]) s e tag (by decide)
  exact ⟨same_pending h (by decide), same_chip h (by decide), same_fuses h (by decide), same_flash h (by decide), same_charter h (by decide), same_clock h (by decide), same_closers h (by decide), same_ledger h (by decide), same_vols h (by decide), same_bands h (by decide), same_plans h (by decide), same_works h (by decide), same_nextWork h (by decide), same_holds h (by decide), same_drives h (by decide), same_sas h (by decide), same_gov h (by decide), same_degrade h (by decide), same_reshapes h (by decide), same_tellers h (by decide), same_scratch h (by decide), same_wickets h (by decide), same_cmds h (by decide), same_returns h (by decide), same_ints h (by decide), same_cfg h (by decide), same_link h (by decide), same_power h (by decide), same_resets h (by decide), same_feats h (by decide), same_vaults h (by decide), same_chain h (by decide), same_pair h (by decide), same_mgmt h (by decide), same_sensors h (by decide), same_smbus h (by decide), same_daybook h (by decide), same_reserves h (by decide), same_courier h (by decide), same_map h (by decide), same_registry h (by decide), same_dram h (by decide), same_cache h (by decide), same_hostMem h (by decide), same_heldLow h (by decide), same_latched h (by decide), same_rsp h (by decide), same_smbRsp h (by decide)⟩

theorem addRec_keeps (s : State) (r : Rec) :
    (addRec s r).1.pending = s.pending ∧ (addRec s r).1.chip = s.chip ∧ (addRec s r).1.fuses = s.fuses ∧ (addRec s r).1.flash = s.flash ∧ (addRec s r).1.charter = s.charter ∧ (addRec s r).1.clock = s.clock ∧ (addRec s r).1.closers = s.closers ∧ (addRec s r).1.vols = s.vols ∧ (addRec s r).1.bands = s.bands ∧ (addRec s r).1.plans = s.plans ∧ (addRec s r).1.works = s.works ∧ (addRec s r).1.nextWork = s.nextWork ∧ (addRec s r).1.holds = s.holds ∧ (addRec s r).1.drives = s.drives ∧ (addRec s r).1.sas = s.sas ∧ (addRec s r).1.gov = s.gov ∧ (addRec s r).1.degrade = s.degrade ∧ (addRec s r).1.reshapes = s.reshapes ∧ (addRec s r).1.tellers = s.tellers ∧ (addRec s r).1.scratch = s.scratch ∧ (addRec s r).1.wickets = s.wickets ∧ (addRec s r).1.cmds = s.cmds ∧ (addRec s r).1.returns = s.returns ∧ (addRec s r).1.ints = s.ints ∧ (addRec s r).1.cfg = s.cfg ∧ (addRec s r).1.link = s.link ∧ (addRec s r).1.power = s.power ∧ (addRec s r).1.resets = s.resets ∧ (addRec s r).1.feats = s.feats ∧ (addRec s r).1.vaults = s.vaults ∧ (addRec s r).1.chain = s.chain ∧ (addRec s r).1.pair = s.pair ∧ (addRec s r).1.mgmt = s.mgmt ∧ (addRec s r).1.sensors = s.sensors ∧ (addRec s r).1.smbus = s.smbus ∧ (addRec s r).1.daybook = s.daybook ∧ (addRec s r).1.reserves = s.reserves ∧ (addRec s r).1.courier = s.courier ∧ (addRec s r).1.map = s.map ∧ (addRec s r).1.registry = s.registry ∧ (addRec s r).1.dram = s.dram ∧ (addRec s r).1.cache = s.cache ∧ (addRec s r).1.hostMem = s.hostMem ∧ (addRec s r).1.heldLow = s.heldLow ∧ (addRec s r).1.latched = s.latched ∧ (addRec s r).1.rsp = s.rsp ∧ (addRec s r).1.smbRsp = s.smbRsp ∧ (addRec s r).1.free = s.free := by
  have h := addRec_outside (ps := [.ledger]) s r (by decide)
  exact ⟨same_pending h (by decide), same_chip h (by decide), same_fuses h (by decide), same_flash h (by decide), same_charter h (by decide), same_clock h (by decide), same_closers h (by decide), same_vols h (by decide), same_bands h (by decide), same_plans h (by decide), same_works h (by decide), same_nextWork h (by decide), same_holds h (by decide), same_drives h (by decide), same_sas h (by decide), same_gov h (by decide), same_degrade h (by decide), same_reshapes h (by decide), same_tellers h (by decide), same_scratch h (by decide), same_wickets h (by decide), same_cmds h (by decide), same_returns h (by decide), same_ints h (by decide), same_cfg h (by decide), same_link h (by decide), same_power h (by decide), same_resets h (by decide), same_feats h (by decide), same_vaults h (by decide), same_chain h (by decide), same_pair h (by decide), same_mgmt h (by decide), same_sensors h (by decide), same_smbus h (by decide), same_daybook h (by decide), same_reserves h (by decide), same_courier h (by decide), same_map h (by decide), same_registry h (by decide), same_dram h (by decide), same_cache h (by decide), same_hostMem h (by decide), same_heldLow h (by decide), same_latched h (by decide), same_rsp h (by decide), same_smbRsp h (by decide), same_free h (by decide)⟩

theorem writeRec_keeps (s : State) (r : Rec) :
    (writeRec s r).1.pending = s.pending ∧ (writeRec s r).1.chip = s.chip ∧ (writeRec s r).1.fuses = s.fuses ∧ (writeRec s r).1.flash = s.flash ∧ (writeRec s r).1.charter = s.charter ∧ (writeRec s r).1.clock = s.clock ∧ (writeRec s r).1.closers = s.closers ∧ (writeRec s r).1.vols = s.vols ∧ (writeRec s r).1.bands = s.bands ∧ (writeRec s r).1.plans = s.plans ∧ (writeRec s r).1.works = s.works ∧ (writeRec s r).1.nextWork = s.nextWork ∧ (writeRec s r).1.holds = s.holds ∧ (writeRec s r).1.drives = s.drives ∧ (writeRec s r).1.sas = s.sas ∧ (writeRec s r).1.gov = s.gov ∧ (writeRec s r).1.degrade = s.degrade ∧ (writeRec s r).1.reshapes = s.reshapes ∧ (writeRec s r).1.tellers = s.tellers ∧ (writeRec s r).1.scratch = s.scratch ∧ (writeRec s r).1.wickets = s.wickets ∧ (writeRec s r).1.cmds = s.cmds ∧ (writeRec s r).1.returns = s.returns ∧ (writeRec s r).1.ints = s.ints ∧ (writeRec s r).1.cfg = s.cfg ∧ (writeRec s r).1.link = s.link ∧ (writeRec s r).1.power = s.power ∧ (writeRec s r).1.resets = s.resets ∧ (writeRec s r).1.feats = s.feats ∧ (writeRec s r).1.vaults = s.vaults ∧ (writeRec s r).1.pair = s.pair ∧ (writeRec s r).1.mgmt = s.mgmt ∧ (writeRec s r).1.sensors = s.sensors ∧ (writeRec s r).1.smbus = s.smbus ∧ (writeRec s r).1.daybook = s.daybook ∧ (writeRec s r).1.reserves = s.reserves ∧ (writeRec s r).1.courier = s.courier ∧ (writeRec s r).1.map = s.map ∧ (writeRec s r).1.registry = s.registry ∧ (writeRec s r).1.dram = s.dram ∧ (writeRec s r).1.cache = s.cache ∧ (writeRec s r).1.hostMem = s.hostMem ∧ (writeRec s r).1.heldLow = s.heldLow ∧ (writeRec s r).1.latched = s.latched ∧ (writeRec s r).1.rsp = s.rsp ∧ (writeRec s r).1.smbRsp = s.smbRsp ∧ (writeRec s r).1.free = s.free := by
  have h := writeRec_outside (ps := [.ledger, .chain]) s r (by decide) (by decide)
  exact ⟨same_pending h (by decide), same_chip h (by decide), same_fuses h (by decide), same_flash h (by decide), same_charter h (by decide), same_clock h (by decide), same_closers h (by decide), same_vols h (by decide), same_bands h (by decide), same_plans h (by decide), same_works h (by decide), same_nextWork h (by decide), same_holds h (by decide), same_drives h (by decide), same_sas h (by decide), same_gov h (by decide), same_degrade h (by decide), same_reshapes h (by decide), same_tellers h (by decide), same_scratch h (by decide), same_wickets h (by decide), same_cmds h (by decide), same_returns h (by decide), same_ints h (by decide), same_cfg h (by decide), same_link h (by decide), same_power h (by decide), same_resets h (by decide), same_feats h (by decide), same_vaults h (by decide), same_pair h (by decide), same_mgmt h (by decide), same_sensors h (by decide), same_smbus h (by decide), same_daybook h (by decide), same_reserves h (by decide), same_courier h (by decide), same_map h (by decide), same_registry h (by decide), same_dram h (by decide), same_cache h (by decide), same_hostMem h (by decide), same_heldLow h (by decide), same_latched h (by decide), same_rsp h (by decide), same_smbRsp h (by decide), same_free h (by decide)⟩

theorem bandRecord_keeps (s : State) (b : Band) :
    (bandRecord s b).1.pending = s.pending ∧ (bandRecord s b).1.chip = s.chip ∧ (bandRecord s b).1.fuses = s.fuses ∧ (bandRecord s b).1.flash = s.flash ∧ (bandRecord s b).1.charter = s.charter ∧ (bandRecord s b).1.clock = s.clock ∧ (bandRecord s b).1.closers = s.closers ∧ (bandRecord s b).1.vols = s.vols ∧ (bandRecord s b).1.bands = s.bands ∧ (bandRecord s b).1.plans = s.plans ∧ (bandRecord s b).1.works = s.works ∧ (bandRecord s b).1.nextWork = s.nextWork ∧ (bandRecord s b).1.holds = s.holds ∧ (bandRecord s b).1.drives = s.drives ∧ (bandRecord s b).1.sas = s.sas ∧ (bandRecord s b).1.gov = s.gov ∧ (bandRecord s b).1.degrade = s.degrade ∧ (bandRecord s b).1.reshapes = s.reshapes ∧ (bandRecord s b).1.tellers = s.tellers ∧ (bandRecord s b).1.scratch = s.scratch ∧ (bandRecord s b).1.wickets = s.wickets ∧ (bandRecord s b).1.cmds = s.cmds ∧ (bandRecord s b).1.returns = s.returns ∧ (bandRecord s b).1.ints = s.ints ∧ (bandRecord s b).1.cfg = s.cfg ∧ (bandRecord s b).1.link = s.link ∧ (bandRecord s b).1.power = s.power ∧ (bandRecord s b).1.resets = s.resets ∧ (bandRecord s b).1.feats = s.feats ∧ (bandRecord s b).1.vaults = s.vaults ∧ (bandRecord s b).1.pair = s.pair ∧ (bandRecord s b).1.mgmt = s.mgmt ∧ (bandRecord s b).1.sensors = s.sensors ∧ (bandRecord s b).1.smbus = s.smbus ∧ (bandRecord s b).1.daybook = s.daybook ∧ (bandRecord s b).1.reserves = s.reserves ∧ (bandRecord s b).1.courier = s.courier ∧ (bandRecord s b).1.map = s.map ∧ (bandRecord s b).1.registry = s.registry ∧ (bandRecord s b).1.dram = s.dram ∧ (bandRecord s b).1.cache = s.cache ∧ (bandRecord s b).1.hostMem = s.hostMem ∧ (bandRecord s b).1.heldLow = s.heldLow ∧ (bandRecord s b).1.latched = s.latched ∧ (bandRecord s b).1.rsp = s.rsp ∧ (bandRecord s b).1.smbRsp = s.smbRsp ∧ (bandRecord s b).1.free = s.free := by
  have h := bandRecord_outside (ps := [.ledger, .chain]) s b (by decide) (by decide)
  exact ⟨same_pending h (by decide), same_chip h (by decide), same_fuses h (by decide), same_flash h (by decide), same_charter h (by decide), same_clock h (by decide), same_closers h (by decide), same_vols h (by decide), same_bands h (by decide), same_plans h (by decide), same_works h (by decide), same_nextWork h (by decide), same_holds h (by decide), same_drives h (by decide), same_sas h (by decide), same_gov h (by decide), same_degrade h (by decide), same_reshapes h (by decide), same_tellers h (by decide), same_scratch h (by decide), same_wickets h (by decide), same_cmds h (by decide), same_returns h (by decide), same_ints h (by decide), same_cfg h (by decide), same_link h (by decide), same_power h (by decide), same_resets h (by decide), same_feats h (by decide), same_vaults h (by decide), same_pair h (by decide), same_mgmt h (by decide), same_sensors h (by decide), same_smbus h (by decide), same_daybook h (by decide), same_reserves h (by decide), same_courier h (by decide), same_map h (by decide), same_registry h (by decide), same_dram h (by decide), same_cache h (by decide), same_hostMem h (by decide), same_heldLow h (by decide), same_latched h (by decide), same_rsp h (by decide), same_smbRsp h (by decide), same_free h (by decide)⟩

theorem setVolume_keeps (s : State) (v : Nat) (f : Volume → Volume) :
    (setVolume s v f).pending = s.pending ∧ (setVolume s v f).chip = s.chip ∧ (setVolume s v f).fuses = s.fuses ∧ (setVolume s v f).flash = s.flash ∧ (setVolume s v f).charter = s.charter ∧ (setVolume s v f).clock = s.clock ∧ (setVolume s v f).closers = s.closers ∧ (setVolume s v f).ledger = s.ledger ∧ (setVolume s v f).bands = s.bands ∧ (setVolume s v f).plans = s.plans ∧ (setVolume s v f).works = s.works ∧ (setVolume s v f).nextWork = s.nextWork ∧ (setVolume s v f).holds = s.holds ∧ (setVolume s v f).drives = s.drives ∧ (setVolume s v f).sas = s.sas ∧ (setVolume s v f).gov = s.gov ∧ (setVolume s v f).degrade = s.degrade ∧ (setVolume s v f).reshapes = s.reshapes ∧ (setVolume s v f).tellers = s.tellers ∧ (setVolume s v f).scratch = s.scratch ∧ (setVolume s v f).wickets = s.wickets ∧ (setVolume s v f).cmds = s.cmds ∧ (setVolume s v f).returns = s.returns ∧ (setVolume s v f).cfg = s.cfg ∧ (setVolume s v f).power = s.power ∧ (setVolume s v f).resets = s.resets ∧ (setVolume s v f).feats = s.feats ∧ (setVolume s v f).vaults = s.vaults ∧ (setVolume s v f).chain = s.chain ∧ (setVolume s v f).pair = s.pair ∧ (setVolume s v f).mgmt = s.mgmt ∧ (setVolume s v f).sensors = s.sensors ∧ (setVolume s v f).smbus = s.smbus ∧ (setVolume s v f).daybook = s.daybook ∧ (setVolume s v f).reserves = s.reserves ∧ (setVolume s v f).courier = s.courier ∧ (setVolume s v f).map = s.map ∧ (setVolume s v f).registry = s.registry ∧ (setVolume s v f).dram = s.dram ∧ (setVolume s v f).cache = s.cache ∧ (setVolume s v f).heldLow = s.heldLow ∧ (setVolume s v f).latched = s.latched ∧ (setVolume s v f).rsp = s.rsp ∧ (setVolume s v f).smbRsp = s.smbRsp ∧ (setVolume s v f).free = s.free := by
  have h := setVolume_outside (ps := [.vols, .ints, .link, .hostMem]) s v f (by decide) (by decide) (by decide) (by decide)
  exact ⟨same_pending h (by decide), same_chip h (by decide), same_fuses h (by decide), same_flash h (by decide), same_charter h (by decide), same_clock h (by decide), same_closers h (by decide), same_ledger h (by decide), same_bands h (by decide), same_plans h (by decide), same_works h (by decide), same_nextWork h (by decide), same_holds h (by decide), same_drives h (by decide), same_sas h (by decide), same_gov h (by decide), same_degrade h (by decide), same_reshapes h (by decide), same_tellers h (by decide), same_scratch h (by decide), same_wickets h (by decide), same_cmds h (by decide), same_returns h (by decide), same_cfg h (by decide), same_power h (by decide), same_resets h (by decide), same_feats h (by decide), same_vaults h (by decide), same_chain h (by decide), same_pair h (by decide), same_mgmt h (by decide), same_sensors h (by decide), same_smbus h (by decide), same_daybook h (by decide), same_reserves h (by decide), same_courier h (by decide), same_map h (by decide), same_registry h (by decide), same_dram h (by decide), same_cache h (by decide), same_heldLow h (by decide), same_latched h (by decide), same_rsp h (by decide), same_smbRsp h (by decide), same_free h (by decide)⟩

theorem modVault_keeps (s : State) (v : Nat) (f : Vault → Vault) :
    (modVault s v f).pending = s.pending ∧ (modVault s v f).chip = s.chip ∧ (modVault s v f).fuses = s.fuses ∧ (modVault s v f).flash = s.flash ∧ (modVault s v f).charter = s.charter ∧ (modVault s v f).clock = s.clock ∧ (modVault s v f).closers = s.closers ∧ (modVault s v f).ledger = s.ledger ∧ (modVault s v f).vols = s.vols ∧ (modVault s v f).bands = s.bands ∧ (modVault s v f).plans = s.plans ∧ (modVault s v f).works = s.works ∧ (modVault s v f).nextWork = s.nextWork ∧ (modVault s v f).holds = s.holds ∧ (modVault s v f).drives = s.drives ∧ (modVault s v f).sas = s.sas ∧ (modVault s v f).gov = s.gov ∧ (modVault s v f).degrade = s.degrade ∧ (modVault s v f).reshapes = s.reshapes ∧ (modVault s v f).tellers = s.tellers ∧ (modVault s v f).scratch = s.scratch ∧ (modVault s v f).wickets = s.wickets ∧ (modVault s v f).cmds = s.cmds ∧ (modVault s v f).returns = s.returns ∧ (modVault s v f).ints = s.ints ∧ (modVault s v f).cfg = s.cfg ∧ (modVault s v f).link = s.link ∧ (modVault s v f).power = s.power ∧ (modVault s v f).resets = s.resets ∧ (modVault s v f).feats = s.feats ∧ (modVault s v f).chain = s.chain ∧ (modVault s v f).pair = s.pair ∧ (modVault s v f).mgmt = s.mgmt ∧ (modVault s v f).sensors = s.sensors ∧ (modVault s v f).smbus = s.smbus ∧ (modVault s v f).daybook = s.daybook ∧ (modVault s v f).reserves = s.reserves ∧ (modVault s v f).courier = s.courier ∧ (modVault s v f).map = s.map ∧ (modVault s v f).registry = s.registry ∧ (modVault s v f).dram = s.dram ∧ (modVault s v f).cache = s.cache ∧ (modVault s v f).hostMem = s.hostMem ∧ (modVault s v f).heldLow = s.heldLow ∧ (modVault s v f).latched = s.latched ∧ (modVault s v f).rsp = s.rsp ∧ (modVault s v f).smbRsp = s.smbRsp ∧ (modVault s v f).free = s.free := by
  have h := modVault_outside (ps := [.vaults]) s v f (by decide)
  exact ⟨same_pending h (by decide), same_chip h (by decide), same_fuses h (by decide), same_flash h (by decide), same_charter h (by decide), same_clock h (by decide), same_closers h (by decide), same_ledger h (by decide), same_vols h (by decide), same_bands h (by decide), same_plans h (by decide), same_works h (by decide), same_nextWork h (by decide), same_holds h (by decide), same_drives h (by decide), same_sas h (by decide), same_gov h (by decide), same_degrade h (by decide), same_reshapes h (by decide), same_tellers h (by decide), same_scratch h (by decide), same_wickets h (by decide), same_cmds h (by decide), same_returns h (by decide), same_ints h (by decide), same_cfg h (by decide), same_link h (by decide), same_power h (by decide), same_resets h (by decide), same_feats h (by decide), same_chain h (by decide), same_pair h (by decide), same_mgmt h (by decide), same_sensors h (by decide), same_smbus h (by decide), same_daybook h (by decide), same_reserves h (by decide), same_courier h (by decide), same_map h (by decide), same_registry h (by decide), same_dram h (by decide), same_cache h (by decide), same_hostMem h (by decide), same_heldLow h (by decide), same_latched h (by decide), same_rsp h (by decide), same_smbRsp h (by decide), same_free h (by decide)⟩

theorem modWork_keeps (s : State) (id : Nat) (f : Work → Work) :
    (modWork s id f).pending = s.pending ∧ (modWork s id f).chip = s.chip ∧ (modWork s id f).fuses = s.fuses ∧ (modWork s id f).flash = s.flash ∧ (modWork s id f).charter = s.charter ∧ (modWork s id f).clock = s.clock ∧ (modWork s id f).closers = s.closers ∧ (modWork s id f).ledger = s.ledger ∧ (modWork s id f).vols = s.vols ∧ (modWork s id f).bands = s.bands ∧ (modWork s id f).plans = s.plans ∧ (modWork s id f).nextWork = s.nextWork ∧ (modWork s id f).holds = s.holds ∧ (modWork s id f).drives = s.drives ∧ (modWork s id f).sas = s.sas ∧ (modWork s id f).gov = s.gov ∧ (modWork s id f).degrade = s.degrade ∧ (modWork s id f).reshapes = s.reshapes ∧ (modWork s id f).tellers = s.tellers ∧ (modWork s id f).scratch = s.scratch ∧ (modWork s id f).wickets = s.wickets ∧ (modWork s id f).cmds = s.cmds ∧ (modWork s id f).returns = s.returns ∧ (modWork s id f).ints = s.ints ∧ (modWork s id f).cfg = s.cfg ∧ (modWork s id f).link = s.link ∧ (modWork s id f).power = s.power ∧ (modWork s id f).resets = s.resets ∧ (modWork s id f).feats = s.feats ∧ (modWork s id f).vaults = s.vaults ∧ (modWork s id f).chain = s.chain ∧ (modWork s id f).pair = s.pair ∧ (modWork s id f).mgmt = s.mgmt ∧ (modWork s id f).sensors = s.sensors ∧ (modWork s id f).smbus = s.smbus ∧ (modWork s id f).daybook = s.daybook ∧ (modWork s id f).reserves = s.reserves ∧ (modWork s id f).courier = s.courier ∧ (modWork s id f).map = s.map ∧ (modWork s id f).registry = s.registry ∧ (modWork s id f).dram = s.dram ∧ (modWork s id f).cache = s.cache ∧ (modWork s id f).hostMem = s.hostMem ∧ (modWork s id f).heldLow = s.heldLow ∧ (modWork s id f).latched = s.latched ∧ (modWork s id f).rsp = s.rsp ∧ (modWork s id f).smbRsp = s.smbRsp ∧ (modWork s id f).free = s.free := by
  have h := modWork_outside (ps := [.works]) s id f (by decide)
  exact ⟨same_pending h (by decide), same_chip h (by decide), same_fuses h (by decide), same_flash h (by decide), same_charter h (by decide), same_clock h (by decide), same_closers h (by decide), same_ledger h (by decide), same_vols h (by decide), same_bands h (by decide), same_plans h (by decide), same_nextWork h (by decide), same_holds h (by decide), same_drives h (by decide), same_sas h (by decide), same_gov h (by decide), same_degrade h (by decide), same_reshapes h (by decide), same_tellers h (by decide), same_scratch h (by decide), same_wickets h (by decide), same_cmds h (by decide), same_returns h (by decide), same_ints h (by decide), same_cfg h (by decide), same_link h (by decide), same_power h (by decide), same_resets h (by decide), same_feats h (by decide), same_vaults h (by decide), same_chain h (by decide), same_pair h (by decide), same_mgmt h (by decide), same_sensors h (by decide), same_smbus h (by decide), same_daybook h (by decide), same_reserves h (by decide), same_courier h (by decide), same_map h (by decide), same_registry h (by decide), same_dram h (by decide), same_cache h (by decide), same_hostMem h (by decide), same_heldLow h (by decide), same_latched h (by decide), same_rsp h (by decide), same_smbRsp h (by decide), same_free h (by decide)⟩

theorem dropWork_keeps (s : State) (id : Nat) :
    (dropWork s id).pending = s.pending ∧ (dropWork s id).chip = s.chip ∧ (dropWork s id).fuses = s.fuses ∧ (dropWork s id).flash = s.flash ∧ (dropWork s id).charter = s.charter ∧ (dropWork s id).clock = s.clock ∧ (dropWork s id).closers = s.closers ∧ (dropWork s id).ledger = s.ledger ∧ (dropWork s id).vols = s.vols ∧ (dropWork s id).bands = s.bands ∧ (dropWork s id).nextWork = s.nextWork ∧ (dropWork s id).sas = s.sas ∧ (dropWork s id).reshapes = s.reshapes ∧ (dropWork s id).tellers = s.tellers ∧ (dropWork s id).scratch = s.scratch ∧ (dropWork s id).wickets = s.wickets ∧ (dropWork s id).cmds = s.cmds ∧ (dropWork s id).returns = s.returns ∧ (dropWork s id).ints = s.ints ∧ (dropWork s id).cfg = s.cfg ∧ (dropWork s id).link = s.link ∧ (dropWork s id).power = s.power ∧ (dropWork s id).resets = s.resets ∧ (dropWork s id).feats = s.feats ∧ (dropWork s id).vaults = s.vaults ∧ (dropWork s id).chain = s.chain ∧ (dropWork s id).pair = s.pair ∧ (dropWork s id).mgmt = s.mgmt ∧ (dropWork s id).sensors = s.sensors ∧ (dropWork s id).smbus = s.smbus ∧ (dropWork s id).reserves = s.reserves ∧ (dropWork s id).courier = s.courier ∧ (dropWork s id).map = s.map ∧ (dropWork s id).registry = s.registry ∧ (dropWork s id).dram = s.dram ∧ (dropWork s id).cache = s.cache ∧ (dropWork s id).hostMem = s.hostMem ∧ (dropWork s id).heldLow = s.heldLow ∧ (dropWork s id).latched = s.latched ∧ (dropWork s id).rsp = s.rsp ∧ (dropWork s id).smbRsp = s.smbRsp ∧ (dropWork s id).free = s.free := by
  have h := dropWork_outside (ps := [.plans, .works, .holds, .drives, .gov, .degrade, .daybook]) s id (by decide) (by decide) (by decide) (by decide) (by decide) (by decide) (by decide)
  exact ⟨same_pending h (by decide), same_chip h (by decide), same_fuses h (by decide), same_flash h (by decide), same_charter h (by decide), same_clock h (by decide), same_closers h (by decide), same_ledger h (by decide), same_vols h (by decide), same_bands h (by decide), same_nextWork h (by decide), same_sas h (by decide), same_reshapes h (by decide), same_tellers h (by decide), same_scratch h (by decide), same_wickets h (by decide), same_cmds h (by decide), same_returns h (by decide), same_ints h (by decide), same_cfg h (by decide), same_link h (by decide), same_power h (by decide), same_resets h (by decide), same_feats h (by decide), same_vaults h (by decide), same_chain h (by decide), same_pair h (by decide), same_mgmt h (by decide), same_sensors h (by decide), same_smbus h (by decide), same_reserves h (by decide), same_courier h (by decide), same_map h (by decide), same_registry h (by decide), same_dram h (by decide), same_cache h (by decide), same_hostMem h (by decide), same_heldLow h (by decide), same_latched h (by decide), same_rsp h (by decide), same_smbRsp h (by decide), same_free h (by decide)⟩

theorem modChan_keeps (s : State) (n : Nat) (f : Channel → Channel) :
    (modChan s n f).pending = s.pending ∧ (modChan s n f).chip = s.chip ∧ (modChan s n f).fuses = s.fuses ∧ (modChan s n f).flash = s.flash ∧ (modChan s n f).charter = s.charter ∧ (modChan s n f).clock = s.clock ∧ (modChan s n f).closers = s.closers ∧ (modChan s n f).ledger = s.ledger ∧ (modChan s n f).vols = s.vols ∧ (modChan s n f).bands = s.bands ∧ (modChan s n f).plans = s.plans ∧ (modChan s n f).works = s.works ∧ (modChan s n f).nextWork = s.nextWork ∧ (modChan s n f).holds = s.holds ∧ (modChan s n f).drives = s.drives ∧ (modChan s n f).sas = s.sas ∧ (modChan s n f).gov = s.gov ∧ (modChan s n f).degrade = s.degrade ∧ (modChan s n f).reshapes = s.reshapes ∧ (modChan s n f).tellers = s.tellers ∧ (modChan s n f).scratch = s.scratch ∧ (modChan s n f).wickets = s.wickets ∧ (modChan s n f).cmds = s.cmds ∧ (modChan s n f).returns = s.returns ∧ (modChan s n f).ints = s.ints ∧ (modChan s n f).cfg = s.cfg ∧ (modChan s n f).link = s.link ∧ (modChan s n f).power = s.power ∧ (modChan s n f).resets = s.resets ∧ (modChan s n f).feats = s.feats ∧ (modChan s n f).vaults = s.vaults ∧ (modChan s n f).chain = s.chain ∧ (modChan s n f).pair = s.pair ∧ (modChan s n f).mgmt = s.mgmt ∧ (modChan s n f).sensors = s.sensors ∧ (modChan s n f).smbus = s.smbus ∧ (modChan s n f).daybook = s.daybook ∧ (modChan s n f).reserves = s.reserves ∧ (modChan s n f).map = s.map ∧ (modChan s n f).registry = s.registry ∧ (modChan s n f).dram = s.dram ∧ (modChan s n f).cache = s.cache ∧ (modChan s n f).hostMem = s.hostMem ∧ (modChan s n f).heldLow = s.heldLow ∧ (modChan s n f).latched = s.latched ∧ (modChan s n f).rsp = s.rsp ∧ (modChan s n f).smbRsp = s.smbRsp ∧ (modChan s n f).free = s.free := by
  have h := modChan_outside (ps := [.courier]) s n f (by decide)
  exact ⟨same_pending h (by decide), same_chip h (by decide), same_fuses h (by decide), same_flash h (by decide), same_charter h (by decide), same_clock h (by decide), same_closers h (by decide), same_ledger h (by decide), same_vols h (by decide), same_bands h (by decide), same_plans h (by decide), same_works h (by decide), same_nextWork h (by decide), same_holds h (by decide), same_drives h (by decide), same_sas h (by decide), same_gov h (by decide), same_degrade h (by decide), same_reshapes h (by decide), same_tellers h (by decide), same_scratch h (by decide), same_wickets h (by decide), same_cmds h (by decide), same_returns h (by decide), same_ints h (by decide), same_cfg h (by decide), same_link h (by decide), same_power h (by decide), same_resets h (by decide), same_feats h (by decide), same_vaults h (by decide), same_chain h (by decide), same_pair h (by decide), same_mgmt h (by decide), same_sensors h (by decide), same_smbus h (by decide), same_daybook h (by decide), same_reserves h (by decide), same_map h (by decide), same_registry h (by decide), same_dram h (by decide), same_cache h (by decide), same_hostMem h (by decide), same_heldLow h (by decide), same_latched h (by decide), same_rsp h (by decide), same_smbRsp h (by decide), same_free h (by decide)⟩

theorem cutCheckpoint_keeps (s : State) (admission : Bool) :
    (cutCheckpoint s admission).pending = s.pending ∧ (cutCheckpoint s admission).chip = s.chip ∧ (cutCheckpoint s admission).fuses = s.fuses ∧ (cutCheckpoint s admission).flash = s.flash ∧ (cutCheckpoint s admission).charter = s.charter ∧ (cutCheckpoint s admission).clock = s.clock ∧ (cutCheckpoint s admission).closers = s.closers ∧ (cutCheckpoint s admission).vols = s.vols ∧ (cutCheckpoint s admission).bands = s.bands ∧ (cutCheckpoint s admission).plans = s.plans ∧ (cutCheckpoint s admission).works = s.works ∧ (cutCheckpoint s admission).nextWork = s.nextWork ∧ (cutCheckpoint s admission).holds = s.holds ∧ (cutCheckpoint s admission).drives = s.drives ∧ (cutCheckpoint s admission).sas = s.sas ∧ (cutCheckpoint s admission).gov = s.gov ∧ (cutCheckpoint s admission).degrade = s.degrade ∧ (cutCheckpoint s admission).reshapes = s.reshapes ∧ (cutCheckpoint s admission).tellers = s.tellers ∧ (cutCheckpoint s admission).scratch = s.scratch ∧ (cutCheckpoint s admission).wickets = s.wickets ∧ (cutCheckpoint s admission).cmds = s.cmds ∧ (cutCheckpoint s admission).returns = s.returns ∧ (cutCheckpoint s admission).ints = s.ints ∧ (cutCheckpoint s admission).cfg = s.cfg ∧ (cutCheckpoint s admission).link = s.link ∧ (cutCheckpoint s admission).power = s.power ∧ (cutCheckpoint s admission).resets = s.resets ∧ (cutCheckpoint s admission).feats = s.feats ∧ (cutCheckpoint s admission).vaults = s.vaults ∧ (cutCheckpoint s admission).chain = s.chain ∧ (cutCheckpoint s admission).pair = s.pair ∧ (cutCheckpoint s admission).mgmt = s.mgmt ∧ (cutCheckpoint s admission).sensors = s.sensors ∧ (cutCheckpoint s admission).smbus = s.smbus ∧ (cutCheckpoint s admission).daybook = s.daybook ∧ (cutCheckpoint s admission).reserves = s.reserves ∧ (cutCheckpoint s admission).courier = s.courier ∧ (cutCheckpoint s admission).map = s.map ∧ (cutCheckpoint s admission).dram = s.dram ∧ (cutCheckpoint s admission).cache = s.cache ∧ (cutCheckpoint s admission).hostMem = s.hostMem ∧ (cutCheckpoint s admission).heldLow = s.heldLow ∧ (cutCheckpoint s admission).latched = s.latched ∧ (cutCheckpoint s admission).rsp = s.rsp ∧ (cutCheckpoint s admission).smbRsp = s.smbRsp ∧ (cutCheckpoint s admission).free = s.free := by
  have h := cutCheckpoint_outside (ps := [.ledger, .registry]) s admission (by decide) (by decide)
  exact ⟨same_pending h (by decide), same_chip h (by decide), same_fuses h (by decide), same_flash h (by decide), same_charter h (by decide), same_clock h (by decide), same_closers h (by decide), same_vols h (by decide), same_bands h (by decide), same_plans h (by decide), same_works h (by decide), same_nextWork h (by decide), same_holds h (by decide), same_drives h (by decide), same_sas h (by decide), same_gov h (by decide), same_degrade h (by decide), same_reshapes h (by decide), same_tellers h (by decide), same_scratch h (by decide), same_wickets h (by decide), same_cmds h (by decide), same_returns h (by decide), same_ints h (by decide), same_cfg h (by decide), same_link h (by decide), same_power h (by decide), same_resets h (by decide), same_feats h (by decide), same_vaults h (by decide), same_chain h (by decide), same_pair h (by decide), same_mgmt h (by decide), same_sensors h (by decide), same_smbus h (by decide), same_daybook h (by decide), same_reserves h (by decide), same_courier h (by decide), same_map h (by decide), same_dram h (by decide), same_cache h (by decide), same_hostMem h (by decide), same_heldLow h (by decide), same_latched h (by decide), same_rsp h (by decide), same_smbRsp h (by decide), same_free h (by decide)⟩

theorem planWork_keeps (s : State) (id : Nat) :
    (planWork s id).pending = s.pending ∧ (planWork s id).chip = s.chip ∧ (planWork s id).fuses = s.fuses ∧ (planWork s id).flash = s.flash ∧ (planWork s id).charter = s.charter ∧ (planWork s id).clock = s.clock ∧ (planWork s id).closers = s.closers ∧ (planWork s id).ledger = s.ledger ∧ (planWork s id).vols = s.vols ∧ (planWork s id).bands = s.bands ∧ (planWork s id).plans = s.plans ∧ (planWork s id).nextWork = s.nextWork ∧ (planWork s id).holds = s.holds ∧ (planWork s id).sas = s.sas ∧ (planWork s id).reshapes = s.reshapes ∧ (planWork s id).tellers = s.tellers ∧ (planWork s id).scratch = s.scratch ∧ (planWork s id).wickets = s.wickets ∧ (planWork s id).cmds = s.cmds ∧ (planWork s id).returns = s.returns ∧ (planWork s id).ints = s.ints ∧ (planWork s id).cfg = s.cfg ∧ (planWork s id).link = s.link ∧ (planWork s id).power = s.power ∧ (planWork s id).resets = s.resets ∧ (planWork s id).feats = s.feats ∧ (planWork s id).vaults = s.vaults ∧ (planWork s id).chain = s.chain ∧ (planWork s id).pair = s.pair ∧ (planWork s id).mgmt = s.mgmt ∧ (planWork s id).sensors = s.sensors ∧ (planWork s id).smbus = s.smbus ∧ (planWork s id).reserves = s.reserves ∧ (planWork s id).courier = s.courier ∧ (planWork s id).map = s.map ∧ (planWork s id).registry = s.registry ∧ (planWork s id).dram = s.dram ∧ (planWork s id).cache = s.cache ∧ (planWork s id).hostMem = s.hostMem ∧ (planWork s id).heldLow = s.heldLow ∧ (planWork s id).latched = s.latched ∧ (planWork s id).rsp = s.rsp ∧ (planWork s id).smbRsp = s.smbRsp ∧ (planWork s id).free = s.free := by
  have h := planWork_outside (ps := [.works, .drives, .gov, .degrade, .daybook]) s id (by decide) (by decide) (by decide) (by decide) (by decide)
  exact ⟨same_pending h (by decide), same_chip h (by decide), same_fuses h (by decide), same_flash h (by decide), same_charter h (by decide), same_clock h (by decide), same_closers h (by decide), same_ledger h (by decide), same_vols h (by decide), same_bands h (by decide), same_plans h (by decide), same_nextWork h (by decide), same_holds h (by decide), same_sas h (by decide), same_reshapes h (by decide), same_tellers h (by decide), same_scratch h (by decide), same_wickets h (by decide), same_cmds h (by decide), same_returns h (by decide), same_ints h (by decide), same_cfg h (by decide), same_link h (by decide), same_power h (by decide), same_resets h (by decide), same_feats h (by decide), same_vaults h (by decide), same_chain h (by decide), same_pair h (by decide), same_mgmt h (by decide), same_sensors h (by decide), same_smbus h (by decide), same_reserves h (by decide), same_courier h (by decide), same_map h (by decide), same_registry h (by decide), same_dram h (by decide), same_cache h (by decide), same_hostMem h (by decide), same_heldLow h (by decide), same_latched h (by decide), same_rsp h (by decide), same_smbRsp h (by decide), same_free h (by decide)⟩

theorem stepOne_keeps (s : State) (id : Nat) :
    (stepOne s id).pending = s.pending ∧ (stepOne s id).chip = s.chip ∧ (stepOne s id).fuses = s.fuses ∧ (stepOne s id).flash = s.flash ∧ (stepOne s id).charter = s.charter ∧ (stepOne s id).clock = s.clock ∧ (stepOne s id).closers = s.closers ∧ (stepOne s id).vols = s.vols ∧ (stepOne s id).bands = s.bands ∧ (stepOne s id).nextWork = s.nextWork ∧ (stepOne s id).holds = s.holds ∧ (stepOne s id).sas = s.sas ∧ (stepOne s id).reshapes = s.reshapes ∧ (stepOne s id).tellers = s.tellers ∧ (stepOne s id).scratch = s.scratch ∧ (stepOne s id).wickets = s.wickets ∧ (stepOne s id).cmds = s.cmds ∧ (stepOne s id).returns = s.returns ∧ (stepOne s id).ints = s.ints ∧ (stepOne s id).cfg = s.cfg ∧ (stepOne s id).link = s.link ∧ (stepOne s id).power = s.power ∧ (stepOne s id).resets = s.resets ∧ (stepOne s id).feats = s.feats ∧ (stepOne s id).vaults = s.vaults ∧ (stepOne s id).chain = s.chain ∧ (stepOne s id).pair = s.pair ∧ (stepOne s id).mgmt = s.mgmt ∧ (stepOne s id).sensors = s.sensors ∧ (stepOne s id).smbus = s.smbus ∧ (stepOne s id).reserves = s.reserves ∧ (stepOne s id).courier = s.courier ∧ (stepOne s id).map = s.map ∧ (stepOne s id).registry = s.registry ∧ (stepOne s id).dram = s.dram ∧ (stepOne s id).cache = s.cache ∧ (stepOne s id).hostMem = s.hostMem ∧ (stepOne s id).heldLow = s.heldLow ∧ (stepOne s id).latched = s.latched ∧ (stepOne s id).rsp = s.rsp ∧ (stepOne s id).smbRsp = s.smbRsp ∧ (stepOne s id).free = s.free := by
  have h := stepOne_outside (ps := [.ledger, .plans, .works, .drives, .gov, .degrade, .daybook]) s id (by decide) (by decide) (by decide) (by decide) (by decide) (by decide) (by decide)
  exact ⟨same_pending h (by decide), same_chip h (by decide), same_fuses h (by decide), same_flash h (by decide), same_charter h (by decide), same_clock h (by decide), same_closers h (by decide), same_vols h (by decide), same_bands h (by decide), same_nextWork h (by decide), same_holds h (by decide), same_sas h (by decide), same_reshapes h (by decide), same_tellers h (by decide), same_scratch h (by decide), same_wickets h (by decide), same_cmds h (by decide), same_returns h (by decide), same_ints h (by decide), same_cfg h (by decide), same_link h (by decide), same_power h (by decide), same_resets h (by decide), same_feats h (by decide), same_vaults h (by decide), same_chain h (by decide), same_pair h (by decide), same_mgmt h (by decide), same_sensors h (by decide), same_smbus h (by decide), same_reserves h (by decide), same_courier h (by decide), same_map h (by decide), same_registry h (by decide), same_dram h (by decide), same_cache h (by decide), same_hostMem h (by decide), same_heldLow h (by decide), same_latched h (by decide), same_rsp h (by decide), same_smbRsp h (by decide), same_free h (by decide)⟩

theorem holdPostings_keeps (s : State) :
    (holdPostings s).pending = s.pending ∧ (holdPostings s).chip = s.chip ∧ (holdPostings s).fuses = s.fuses ∧ (holdPostings s).flash = s.flash ∧ (holdPostings s).charter = s.charter ∧ (holdPostings s).clock = s.clock ∧ (holdPostings s).closers = s.closers ∧ (holdPostings s).ledger = s.ledger ∧ (holdPostings s).vols = s.vols ∧ (holdPostings s).bands = s.bands ∧ (holdPostings s).plans = s.plans ∧ (holdPostings s).works = s.works ∧ (holdPostings s).nextWork = s.nextWork ∧ (holdPostings s).holds = s.holds ∧ (holdPostings s).drives = s.drives ∧ (holdPostings s).sas = s.sas ∧ (holdPostings s).gov = s.gov ∧ (holdPostings s).degrade = s.degrade ∧ (holdPostings s).reshapes = s.reshapes ∧ (holdPostings s).tellers = s.tellers ∧ (holdPostings s).scratch = s.scratch ∧ (holdPostings s).wickets = s.wickets ∧ (holdPostings s).cmds = s.cmds ∧ (holdPostings s).ints = s.ints ∧ (holdPostings s).cfg = s.cfg ∧ (holdPostings s).link = s.link ∧ (holdPostings s).power = s.power ∧ (holdPostings s).resets = s.resets ∧ (holdPostings s).feats = s.feats ∧ (holdPostings s).vaults = s.vaults ∧ (holdPostings s).chain = s.chain ∧ (holdPostings s).pair = s.pair ∧ (holdPostings s).mgmt = s.mgmt ∧ (holdPostings s).sensors = s.sensors ∧ (holdPostings s).smbus = s.smbus ∧ (holdPostings s).daybook = s.daybook ∧ (holdPostings s).reserves = s.reserves ∧ (holdPostings s).courier = s.courier ∧ (holdPostings s).map = s.map ∧ (holdPostings s).registry = s.registry ∧ (holdPostings s).dram = s.dram ∧ (holdPostings s).cache = s.cache ∧ (holdPostings s).hostMem = s.hostMem ∧ (holdPostings s).heldLow = s.heldLow ∧ (holdPostings s).latched = s.latched ∧ (holdPostings s).rsp = s.rsp ∧ (holdPostings s).smbRsp = s.smbRsp ∧ (holdPostings s).free = s.free := by
  have h := holdPostings_outside (ps := [.returns]) s (by decide)
  exact ⟨same_pending h (by decide), same_chip h (by decide), same_fuses h (by decide), same_flash h (by decide), same_charter h (by decide), same_clock h (by decide), same_closers h (by decide), same_ledger h (by decide), same_vols h (by decide), same_bands h (by decide), same_plans h (by decide), same_works h (by decide), same_nextWork h (by decide), same_holds h (by decide), same_drives h (by decide), same_sas h (by decide), same_gov h (by decide), same_degrade h (by decide), same_reshapes h (by decide), same_tellers h (by decide), same_scratch h (by decide), same_wickets h (by decide), same_cmds h (by decide), same_ints h (by decide), same_cfg h (by decide), same_link h (by decide), same_power h (by decide), same_resets h (by decide), same_feats h (by decide), same_vaults h (by decide), same_chain h (by decide), same_pair h (by decide), same_mgmt h (by decide), same_sensors h (by decide), same_smbus h (by decide), same_daybook h (by decide), same_reserves h (by decide), same_courier h (by decide), same_map h (by decide), same_registry h (by decide), same_dram h (by decide), same_cache h (by decide), same_hostMem h (by decide), same_heldLow h (by decide), same_latched h (by decide), same_rsp h (by decide), same_smbRsp h (by decide), same_free h (by decide)⟩

theorem powerTo_keeps (s : State) (st : Nat) (reason : Nat) (signal : Bool) :
    (powerTo s st reason signal).pending = s.pending ∧ (powerTo s st reason signal).chip = s.chip ∧ (powerTo s st reason signal).fuses = s.fuses ∧ (powerTo s st reason signal).flash = s.flash ∧ (powerTo s st reason signal).charter = s.charter ∧ (powerTo s st reason signal).clock = s.clock ∧ (powerTo s st reason signal).closers = s.closers ∧ (powerTo s st reason signal).ledger = s.ledger ∧ (powerTo s st reason signal).vols = s.vols ∧ (powerTo s st reason signal).bands = s.bands ∧ (powerTo s st reason signal).plans = s.plans ∧ (powerTo s st reason signal).works = s.works ∧ (powerTo s st reason signal).nextWork = s.nextWork ∧ (powerTo s st reason signal).holds = s.holds ∧ (powerTo s st reason signal).sas = s.sas ∧ (powerTo s st reason signal).degrade = s.degrade ∧ (powerTo s st reason signal).reshapes = s.reshapes ∧ (powerTo s st reason signal).wickets = s.wickets ∧ (powerTo s st reason signal).cmds = s.cmds ∧ (powerTo s st reason signal).returns = s.returns ∧ (powerTo s st reason signal).cfg = s.cfg ∧ (powerTo s st reason signal).resets = s.resets ∧ (powerTo s st reason signal).feats = s.feats ∧ (powerTo s st reason signal).vaults = s.vaults ∧ (powerTo s st reason signal).chain = s.chain ∧ (powerTo s st reason signal).pair = s.pair ∧ (powerTo s st reason signal).mgmt = s.mgmt ∧ (powerTo s st reason signal).sensors = s.sensors ∧ (powerTo s st reason signal).smbus = s.smbus ∧ (powerTo s st reason signal).reserves = s.reserves ∧ (powerTo s st reason signal).courier = s.courier ∧ (powerTo s st reason signal).map = s.map ∧ (powerTo s st reason signal).registry = s.registry ∧ (powerTo s st reason signal).dram = s.dram ∧ (powerTo s st reason signal).cache = s.cache ∧ (powerTo s st reason signal).heldLow = s.heldLow ∧ (powerTo s st reason signal).latched = s.latched ∧ (powerTo s st reason signal).rsp = s.rsp ∧ (powerTo s st reason signal).smbRsp = s.smbRsp ∧ (powerTo s st reason signal).free = s.free := by
  have h := powerTo_outside (ps := [.drives, .gov, .tellers, .scratch, .ints, .link, .power, .daybook, .hostMem]) s st reason signal (by decide) (by decide) (by decide) (by decide) (by decide) (by decide) (by decide) (by decide) (by decide)
  exact ⟨same_pending h (by decide), same_chip h (by decide), same_fuses h (by decide), same_flash h (by decide), same_charter h (by decide), same_clock h (by decide), same_closers h (by decide), same_ledger h (by decide), same_vols h (by decide), same_bands h (by decide), same_plans h (by decide), same_works h (by decide), same_nextWork h (by decide), same_holds h (by decide), same_sas h (by decide), same_degrade h (by decide), same_reshapes h (by decide), same_wickets h (by decide), same_cmds h (by decide), same_returns h (by decide), same_cfg h (by decide), same_resets h (by decide), same_feats h (by decide), same_vaults h (by decide), same_chain h (by decide), same_pair h (by decide), same_mgmt h (by decide), same_sensors h (by decide), same_smbus h (by decide), same_reserves h (by decide), same_courier h (by decide), same_map h (by decide), same_registry h (by decide), same_dram h (by decide), same_cache h (by decide), same_heldLow h (by decide), same_latched h (by decide), same_rsp h (by decide), same_smbRsp h (by decide), same_free h (by decide)⟩

theorem setMgmt_keeps (s : State) (st : Nat) :
    (setMgmt s st).pending = s.pending ∧ (setMgmt s st).chip = s.chip ∧ (setMgmt s st).fuses = s.fuses ∧ (setMgmt s st).flash = s.flash ∧ (setMgmt s st).charter = s.charter ∧ (setMgmt s st).clock = s.clock ∧ (setMgmt s st).closers = s.closers ∧ (setMgmt s st).ledger = s.ledger ∧ (setMgmt s st).vols = s.vols ∧ (setMgmt s st).bands = s.bands ∧ (setMgmt s st).plans = s.plans ∧ (setMgmt s st).works = s.works ∧ (setMgmt s st).nextWork = s.nextWork ∧ (setMgmt s st).holds = s.holds ∧ (setMgmt s st).drives = s.drives ∧ (setMgmt s st).sas = s.sas ∧ (setMgmt s st).gov = s.gov ∧ (setMgmt s st).degrade = s.degrade ∧ (setMgmt s st).reshapes = s.reshapes ∧ (setMgmt s st).tellers = s.tellers ∧ (setMgmt s st).scratch = s.scratch ∧ (setMgmt s st).wickets = s.wickets ∧ (setMgmt s st).cmds = s.cmds ∧ (setMgmt s st).returns = s.returns ∧ (setMgmt s st).ints = s.ints ∧ (setMgmt s st).cfg = s.cfg ∧ (setMgmt s st).link = s.link ∧ (setMgmt s st).power = s.power ∧ (setMgmt s st).resets = s.resets ∧ (setMgmt s st).feats = s.feats ∧ (setMgmt s st).vaults = s.vaults ∧ (setMgmt s st).chain = s.chain ∧ (setMgmt s st).pair = s.pair ∧ (setMgmt s st).sensors = s.sensors ∧ (setMgmt s st).smbus = s.smbus ∧ (setMgmt s st).daybook = s.daybook ∧ (setMgmt s st).reserves = s.reserves ∧ (setMgmt s st).courier = s.courier ∧ (setMgmt s st).map = s.map ∧ (setMgmt s st).registry = s.registry ∧ (setMgmt s st).dram = s.dram ∧ (setMgmt s st).cache = s.cache ∧ (setMgmt s st).hostMem = s.hostMem ∧ (setMgmt s st).heldLow = s.heldLow ∧ (setMgmt s st).latched = s.latched ∧ (setMgmt s st).rsp = s.rsp ∧ (setMgmt s st).smbRsp = s.smbRsp ∧ (setMgmt s st).free = s.free := by
  have h := setMgmt_outside (ps := [.mgmt]) s st (by decide)
  exact ⟨same_pending h (by decide), same_chip h (by decide), same_fuses h (by decide), same_flash h (by decide), same_charter h (by decide), same_clock h (by decide), same_closers h (by decide), same_ledger h (by decide), same_vols h (by decide), same_bands h (by decide), same_plans h (by decide), same_works h (by decide), same_nextWork h (by decide), same_holds h (by decide), same_drives h (by decide), same_sas h (by decide), same_gov h (by decide), same_degrade h (by decide), same_reshapes h (by decide), same_tellers h (by decide), same_scratch h (by decide), same_wickets h (by decide), same_cmds h (by decide), same_returns h (by decide), same_ints h (by decide), same_cfg h (by decide), same_link h (by decide), same_power h (by decide), same_resets h (by decide), same_feats h (by decide), same_vaults h (by decide), same_chain h (by decide), same_pair h (by decide), same_sensors h (by decide), same_smbus h (by decide), same_daybook h (by decide), same_reserves h (by decide), same_courier h (by decide), same_map h (by decide), same_registry h (by decide), same_dram h (by decide), same_cache h (by decide), same_hostMem h (by decide), same_heldLow h (by decide), same_latched h (by decide), same_rsp h (by decide), same_smbRsp h (by decide), same_free h (by decide)⟩

theorem modBank_keeps (s : State) (b : Nat) (f : Bank → Bank) :
    (modBank s b f).pending = s.pending ∧ (modBank s b f).chip = s.chip ∧ (modBank s b f).fuses = s.fuses ∧ (modBank s b f).flash = s.flash ∧ (modBank s b f).charter = s.charter ∧ (modBank s b f).clock = s.clock ∧ (modBank s b f).closers = s.closers ∧ (modBank s b f).ledger = s.ledger ∧ (modBank s b f).vols = s.vols ∧ (modBank s b f).bands = s.bands ∧ (modBank s b f).plans = s.plans ∧ (modBank s b f).works = s.works ∧ (modBank s b f).nextWork = s.nextWork ∧ (modBank s b f).holds = s.holds ∧ (modBank s b f).drives = s.drives ∧ (modBank s b f).sas = s.sas ∧ (modBank s b f).gov = s.gov ∧ (modBank s b f).degrade = s.degrade ∧ (modBank s b f).reshapes = s.reshapes ∧ (modBank s b f).tellers = s.tellers ∧ (modBank s b f).wickets = s.wickets ∧ (modBank s b f).cmds = s.cmds ∧ (modBank s b f).returns = s.returns ∧ (modBank s b f).ints = s.ints ∧ (modBank s b f).cfg = s.cfg ∧ (modBank s b f).link = s.link ∧ (modBank s b f).power = s.power ∧ (modBank s b f).resets = s.resets ∧ (modBank s b f).feats = s.feats ∧ (modBank s b f).vaults = s.vaults ∧ (modBank s b f).chain = s.chain ∧ (modBank s b f).pair = s.pair ∧ (modBank s b f).mgmt = s.mgmt ∧ (modBank s b f).sensors = s.sensors ∧ (modBank s b f).smbus = s.smbus ∧ (modBank s b f).daybook = s.daybook ∧ (modBank s b f).reserves = s.reserves ∧ (modBank s b f).courier = s.courier ∧ (modBank s b f).map = s.map ∧ (modBank s b f).registry = s.registry ∧ (modBank s b f).dram = s.dram ∧ (modBank s b f).cache = s.cache ∧ (modBank s b f).hostMem = s.hostMem ∧ (modBank s b f).heldLow = s.heldLow ∧ (modBank s b f).latched = s.latched ∧ (modBank s b f).rsp = s.rsp ∧ (modBank s b f).smbRsp = s.smbRsp ∧ (modBank s b f).free = s.free := by
  have h := modBank_outside (ps := [.scratch]) s b f (by decide)
  exact ⟨same_pending h (by decide), same_chip h (by decide), same_fuses h (by decide), same_flash h (by decide), same_charter h (by decide), same_clock h (by decide), same_closers h (by decide), same_ledger h (by decide), same_vols h (by decide), same_bands h (by decide), same_plans h (by decide), same_works h (by decide), same_nextWork h (by decide), same_holds h (by decide), same_drives h (by decide), same_sas h (by decide), same_gov h (by decide), same_degrade h (by decide), same_reshapes h (by decide), same_tellers h (by decide), same_wickets h (by decide), same_cmds h (by decide), same_returns h (by decide), same_ints h (by decide), same_cfg h (by decide), same_link h (by decide), same_power h (by decide), same_resets h (by decide), same_feats h (by decide), same_vaults h (by decide), same_chain h (by decide), same_pair h (by decide), same_mgmt h (by decide), same_sensors h (by decide), same_smbus h (by decide), same_daybook h (by decide), same_reserves h (by decide), same_courier h (by decide), same_map h (by decide), same_registry h (by decide), same_dram h (by decide), same_cache h (by decide), same_hostMem h (by decide), same_heldLow h (by decide), same_latched h (by decide), same_rsp h (by decide), same_smbRsp h (by decide), same_free h (by decide)⟩

theorem modLane_keeps (s : State) (n : Nat) (f : SasLane → SasLane) :
    (modLane s n f).pending = s.pending ∧ (modLane s n f).chip = s.chip ∧ (modLane s n f).fuses = s.fuses ∧ (modLane s n f).flash = s.flash ∧ (modLane s n f).charter = s.charter ∧ (modLane s n f).clock = s.clock ∧ (modLane s n f).closers = s.closers ∧ (modLane s n f).ledger = s.ledger ∧ (modLane s n f).vols = s.vols ∧ (modLane s n f).bands = s.bands ∧ (modLane s n f).plans = s.plans ∧ (modLane s n f).works = s.works ∧ (modLane s n f).nextWork = s.nextWork ∧ (modLane s n f).holds = s.holds ∧ (modLane s n f).drives = s.drives ∧ (modLane s n f).gov = s.gov ∧ (modLane s n f).degrade = s.degrade ∧ (modLane s n f).reshapes = s.reshapes ∧ (modLane s n f).tellers = s.tellers ∧ (modLane s n f).scratch = s.scratch ∧ (modLane s n f).wickets = s.wickets ∧ (modLane s n f).cmds = s.cmds ∧ (modLane s n f).returns = s.returns ∧ (modLane s n f).ints = s.ints ∧ (modLane s n f).cfg = s.cfg ∧ (modLane s n f).link = s.link ∧ (modLane s n f).power = s.power ∧ (modLane s n f).resets = s.resets ∧ (modLane s n f).feats = s.feats ∧ (modLane s n f).vaults = s.vaults ∧ (modLane s n f).chain = s.chain ∧ (modLane s n f).pair = s.pair ∧ (modLane s n f).mgmt = s.mgmt ∧ (modLane s n f).sensors = s.sensors ∧ (modLane s n f).smbus = s.smbus ∧ (modLane s n f).daybook = s.daybook ∧ (modLane s n f).reserves = s.reserves ∧ (modLane s n f).courier = s.courier ∧ (modLane s n f).map = s.map ∧ (modLane s n f).registry = s.registry ∧ (modLane s n f).dram = s.dram ∧ (modLane s n f).cache = s.cache ∧ (modLane s n f).hostMem = s.hostMem ∧ (modLane s n f).heldLow = s.heldLow ∧ (modLane s n f).latched = s.latched ∧ (modLane s n f).rsp = s.rsp ∧ (modLane s n f).smbRsp = s.smbRsp ∧ (modLane s n f).free = s.free := by
  have h := modLane_outside (ps := [.sas]) s n f (by decide)
  exact ⟨same_pending h (by decide), same_chip h (by decide), same_fuses h (by decide), same_flash h (by decide), same_charter h (by decide), same_clock h (by decide), same_closers h (by decide), same_ledger h (by decide), same_vols h (by decide), same_bands h (by decide), same_plans h (by decide), same_works h (by decide), same_nextWork h (by decide), same_holds h (by decide), same_drives h (by decide), same_gov h (by decide), same_degrade h (by decide), same_reshapes h (by decide), same_tellers h (by decide), same_scratch h (by decide), same_wickets h (by decide), same_cmds h (by decide), same_returns h (by decide), same_ints h (by decide), same_cfg h (by decide), same_link h (by decide), same_power h (by decide), same_resets h (by decide), same_feats h (by decide), same_vaults h (by decide), same_chain h (by decide), same_pair h (by decide), same_mgmt h (by decide), same_sensors h (by decide), same_smbus h (by decide), same_daybook h (by decide), same_reserves h (by decide), same_courier h (by decide), same_map h (by decide), same_registry h (by decide), same_dram h (by decide), same_cache h (by decide), same_hostMem h (by decide), same_heldLow h (by decide), same_latched h (by decide), same_rsp h (by decide), same_smbRsp h (by decide), same_free h (by decide)⟩

theorem modChLane_keeps (s : State) (i : Nat) (f : ChainLane → ChainLane) :
    (modChLane s i f).pending = s.pending ∧ (modChLane s i f).chip = s.chip ∧ (modChLane s i f).fuses = s.fuses ∧ (modChLane s i f).flash = s.flash ∧ (modChLane s i f).charter = s.charter ∧ (modChLane s i f).clock = s.clock ∧ (modChLane s i f).closers = s.closers ∧ (modChLane s i f).ledger = s.ledger ∧ (modChLane s i f).vols = s.vols ∧ (modChLane s i f).bands = s.bands ∧ (modChLane s i f).plans = s.plans ∧ (modChLane s i f).works = s.works ∧ (modChLane s i f).nextWork = s.nextWork ∧ (modChLane s i f).holds = s.holds ∧ (modChLane s i f).drives = s.drives ∧ (modChLane s i f).sas = s.sas ∧ (modChLane s i f).gov = s.gov ∧ (modChLane s i f).degrade = s.degrade ∧ (modChLane s i f).reshapes = s.reshapes ∧ (modChLane s i f).tellers = s.tellers ∧ (modChLane s i f).scratch = s.scratch ∧ (modChLane s i f).wickets = s.wickets ∧ (modChLane s i f).cmds = s.cmds ∧ (modChLane s i f).returns = s.returns ∧ (modChLane s i f).ints = s.ints ∧ (modChLane s i f).cfg = s.cfg ∧ (modChLane s i f).link = s.link ∧ (modChLane s i f).power = s.power ∧ (modChLane s i f).resets = s.resets ∧ (modChLane s i f).feats = s.feats ∧ (modChLane s i f).vaults = s.vaults ∧ (modChLane s i f).pair = s.pair ∧ (modChLane s i f).mgmt = s.mgmt ∧ (modChLane s i f).sensors = s.sensors ∧ (modChLane s i f).smbus = s.smbus ∧ (modChLane s i f).daybook = s.daybook ∧ (modChLane s i f).reserves = s.reserves ∧ (modChLane s i f).courier = s.courier ∧ (modChLane s i f).map = s.map ∧ (modChLane s i f).registry = s.registry ∧ (modChLane s i f).dram = s.dram ∧ (modChLane s i f).cache = s.cache ∧ (modChLane s i f).hostMem = s.hostMem ∧ (modChLane s i f).heldLow = s.heldLow ∧ (modChLane s i f).latched = s.latched ∧ (modChLane s i f).rsp = s.rsp ∧ (modChLane s i f).smbRsp = s.smbRsp ∧ (modChLane s i f).free = s.free := by
  have h := modChLane_outside (ps := [.chain]) s i f (by decide)
  exact ⟨same_pending h (by decide), same_chip h (by decide), same_fuses h (by decide), same_flash h (by decide), same_charter h (by decide), same_clock h (by decide), same_closers h (by decide), same_ledger h (by decide), same_vols h (by decide), same_bands h (by decide), same_plans h (by decide), same_works h (by decide), same_nextWork h (by decide), same_holds h (by decide), same_drives h (by decide), same_sas h (by decide), same_gov h (by decide), same_degrade h (by decide), same_reshapes h (by decide), same_tellers h (by decide), same_scratch h (by decide), same_wickets h (by decide), same_cmds h (by decide), same_returns h (by decide), same_ints h (by decide), same_cfg h (by decide), same_link h (by decide), same_power h (by decide), same_resets h (by decide), same_feats h (by decide), same_vaults h (by decide), same_pair h (by decide), same_mgmt h (by decide), same_sensors h (by decide), same_smbus h (by decide), same_daybook h (by decide), same_reserves h (by decide), same_courier h (by decide), same_map h (by decide), same_registry h (by decide), same_dram h (by decide), same_cache h (by decide), same_hostMem h (by decide), same_heldLow h (by decide), same_latched h (by decide), same_rsp h (by decide), same_smbRsp h (by decide), same_free h (by decide)⟩

theorem startSwap_keeps (s : State) (dir : Nat) (l : Nat) (cause : Nat) :
    (startSwap s dir l cause).pending = s.pending ∧ (startSwap s dir l cause).chip = s.chip ∧ (startSwap s dir l cause).fuses = s.fuses ∧ (startSwap s dir l cause).flash = s.flash ∧ (startSwap s dir l cause).charter = s.charter ∧ (startSwap s dir l cause).clock = s.clock ∧ (startSwap s dir l cause).closers = s.closers ∧ (startSwap s dir l cause).ledger = s.ledger ∧ (startSwap s dir l cause).vols = s.vols ∧ (startSwap s dir l cause).bands = s.bands ∧ (startSwap s dir l cause).plans = s.plans ∧ (startSwap s dir l cause).works = s.works ∧ (startSwap s dir l cause).nextWork = s.nextWork ∧ (startSwap s dir l cause).holds = s.holds ∧ (startSwap s dir l cause).drives = s.drives ∧ (startSwap s dir l cause).sas = s.sas ∧ (startSwap s dir l cause).gov = s.gov ∧ (startSwap s dir l cause).degrade = s.degrade ∧ (startSwap s dir l cause).reshapes = s.reshapes ∧ (startSwap s dir l cause).tellers = s.tellers ∧ (startSwap s dir l cause).scratch = s.scratch ∧ (startSwap s dir l cause).wickets = s.wickets ∧ (startSwap s dir l cause).cmds = s.cmds ∧ (startSwap s dir l cause).returns = s.returns ∧ (startSwap s dir l cause).ints = s.ints ∧ (startSwap s dir l cause).cfg = s.cfg ∧ (startSwap s dir l cause).link = s.link ∧ (startSwap s dir l cause).power = s.power ∧ (startSwap s dir l cause).resets = s.resets ∧ (startSwap s dir l cause).feats = s.feats ∧ (startSwap s dir l cause).vaults = s.vaults ∧ (startSwap s dir l cause).pair = s.pair ∧ (startSwap s dir l cause).mgmt = s.mgmt ∧ (startSwap s dir l cause).sensors = s.sensors ∧ (startSwap s dir l cause).smbus = s.smbus ∧ (startSwap s dir l cause).daybook = s.daybook ∧ (startSwap s dir l cause).reserves = s.reserves ∧ (startSwap s dir l cause).courier = s.courier ∧ (startSwap s dir l cause).map = s.map ∧ (startSwap s dir l cause).registry = s.registry ∧ (startSwap s dir l cause).dram = s.dram ∧ (startSwap s dir l cause).cache = s.cache ∧ (startSwap s dir l cause).hostMem = s.hostMem ∧ (startSwap s dir l cause).heldLow = s.heldLow ∧ (startSwap s dir l cause).latched = s.latched ∧ (startSwap s dir l cause).rsp = s.rsp ∧ (startSwap s dir l cause).smbRsp = s.smbRsp ∧ (startSwap s dir l cause).free = s.free := by
  have h := startSwap_outside (ps := [.chain]) s dir l cause (by decide)
  exact ⟨same_pending h (by decide), same_chip h (by decide), same_fuses h (by decide), same_flash h (by decide), same_charter h (by decide), same_clock h (by decide), same_closers h (by decide), same_ledger h (by decide), same_vols h (by decide), same_bands h (by decide), same_plans h (by decide), same_works h (by decide), same_nextWork h (by decide), same_holds h (by decide), same_drives h (by decide), same_sas h (by decide), same_gov h (by decide), same_degrade h (by decide), same_reshapes h (by decide), same_tellers h (by decide), same_scratch h (by decide), same_wickets h (by decide), same_cmds h (by decide), same_returns h (by decide), same_ints h (by decide), same_cfg h (by decide), same_link h (by decide), same_power h (by decide), same_resets h (by decide), same_feats h (by decide), same_vaults h (by decide), same_pair h (by decide), same_mgmt h (by decide), same_sensors h (by decide), same_smbus h (by decide), same_daybook h (by decide), same_reserves h (by decide), same_courier h (by decide), same_map h (by decide), same_registry h (by decide), same_dram h (by decide), same_cache h (by decide), same_hostMem h (by decide), same_heldLow h (by decide), same_latched h (by decide), same_rsp h (by decide), same_smbRsp h (by decide), same_free h (by decide)⟩

theorem toStep_keeps (s : State) (n : Nat) :
    (toStep s n).pending = s.pending ∧ (toStep s n).fuses = s.fuses ∧ (toStep s n).flash = s.flash ∧ (toStep s n).charter = s.charter ∧ (toStep s n).clock = s.clock ∧ (toStep s n).closers = s.closers ∧ (toStep s n).ledger = s.ledger ∧ (toStep s n).vols = s.vols ∧ (toStep s n).bands = s.bands ∧ (toStep s n).plans = s.plans ∧ (toStep s n).works = s.works ∧ (toStep s n).nextWork = s.nextWork ∧ (toStep s n).holds = s.holds ∧ (toStep s n).drives = s.drives ∧ (toStep s n).sas = s.sas ∧ (toStep s n).gov = s.gov ∧ (toStep s n).degrade = s.degrade ∧ (toStep s n).reshapes = s.reshapes ∧ (toStep s n).tellers = s.tellers ∧ (toStep s n).scratch = s.scratch ∧ (toStep s n).wickets = s.wickets ∧ (toStep s n).cmds = s.cmds ∧ (toStep s n).returns = s.returns ∧ (toStep s n).ints = s.ints ∧ (toStep s n).cfg = s.cfg ∧ (toStep s n).link = s.link ∧ (toStep s n).power = s.power ∧ (toStep s n).resets = s.resets ∧ (toStep s n).feats = s.feats ∧ (toStep s n).vaults = s.vaults ∧ (toStep s n).chain = s.chain ∧ (toStep s n).pair = s.pair ∧ (toStep s n).mgmt = s.mgmt ∧ (toStep s n).sensors = s.sensors ∧ (toStep s n).smbus = s.smbus ∧ (toStep s n).daybook = s.daybook ∧ (toStep s n).reserves = s.reserves ∧ (toStep s n).courier = s.courier ∧ (toStep s n).map = s.map ∧ (toStep s n).registry = s.registry ∧ (toStep s n).dram = s.dram ∧ (toStep s n).cache = s.cache ∧ (toStep s n).hostMem = s.hostMem ∧ (toStep s n).heldLow = s.heldLow ∧ (toStep s n).latched = s.latched ∧ (toStep s n).rsp = s.rsp ∧ (toStep s n).smbRsp = s.smbRsp ∧ (toStep s n).free = s.free := by
  have h := toStep_outside (ps := [.chip]) s n (by decide)
  exact ⟨same_pending h (by decide), same_fuses h (by decide), same_flash h (by decide), same_charter h (by decide), same_clock h (by decide), same_closers h (by decide), same_ledger h (by decide), same_vols h (by decide), same_bands h (by decide), same_plans h (by decide), same_works h (by decide), same_nextWork h (by decide), same_holds h (by decide), same_drives h (by decide), same_sas h (by decide), same_gov h (by decide), same_degrade h (by decide), same_reshapes h (by decide), same_tellers h (by decide), same_scratch h (by decide), same_wickets h (by decide), same_cmds h (by decide), same_returns h (by decide), same_ints h (by decide), same_cfg h (by decide), same_link h (by decide), same_power h (by decide), same_resets h (by decide), same_feats h (by decide), same_vaults h (by decide), same_chain h (by decide), same_pair h (by decide), same_mgmt h (by decide), same_sensors h (by decide), same_smbus h (by decide), same_daybook h (by decide), same_reserves h (by decide), same_courier h (by decide), same_map h (by decide), same_registry h (by decide), same_dram h (by decide), same_cache h (by decide), same_hostMem h (by decide), same_heldLow h (by decide), same_latched h (by decide), same_rsp h (by decide), same_smbRsp h (by decide), same_free h (by decide)⟩

theorem needsExit_keeps (s : State) :
    (needsExit s).pending = s.pending ∧ (needsExit s).chip = s.chip ∧ (needsExit s).fuses = s.fuses ∧ (needsExit s).flash = s.flash ∧ (needsExit s).charter = s.charter ∧ (needsExit s).clock = s.clock ∧ (needsExit s).closers = s.closers ∧ (needsExit s).ledger = s.ledger ∧ (needsExit s).vols = s.vols ∧ (needsExit s).bands = s.bands ∧ (needsExit s).plans = s.plans ∧ (needsExit s).works = s.works ∧ (needsExit s).nextWork = s.nextWork ∧ (needsExit s).holds = s.holds ∧ (needsExit s).drives = s.drives ∧ (needsExit s).sas = s.sas ∧ (needsExit s).gov = s.gov ∧ (needsExit s).degrade = s.degrade ∧ (needsExit s).reshapes = s.reshapes ∧ (needsExit s).tellers = s.tellers ∧ (needsExit s).scratch = s.scratch ∧ (needsExit s).wickets = s.wickets ∧ (needsExit s).cmds = s.cmds ∧ (needsExit s).returns = s.returns ∧ (needsExit s).ints = s.ints ∧ (needsExit s).cfg = s.cfg ∧ (needsExit s).link = s.link ∧ (needsExit s).resets = s.resets ∧ (needsExit s).feats = s.feats ∧ (needsExit s).vaults = s.vaults ∧ (needsExit s).chain = s.chain ∧ (needsExit s).pair = s.pair ∧ (needsExit s).mgmt = s.mgmt ∧ (needsExit s).sensors = s.sensors ∧ (needsExit s).smbus = s.smbus ∧ (needsExit s).daybook = s.daybook ∧ (needsExit s).reserves = s.reserves ∧ (needsExit s).courier = s.courier ∧ (needsExit s).map = s.map ∧ (needsExit s).registry = s.registry ∧ (needsExit s).dram = s.dram ∧ (needsExit s).cache = s.cache ∧ (needsExit s).hostMem = s.hostMem ∧ (needsExit s).heldLow = s.heldLow ∧ (needsExit s).latched = s.latched ∧ (needsExit s).rsp = s.rsp ∧ (needsExit s).smbRsp = s.smbRsp ∧ (needsExit s).free = s.free := by
  have h := needsExit_outside (ps := [.power]) s (by decide)
  exact ⟨same_pending h (by decide), same_chip h (by decide), same_fuses h (by decide), same_flash h (by decide), same_charter h (by decide), same_clock h (by decide), same_closers h (by decide), same_ledger h (by decide), same_vols h (by decide), same_bands h (by decide), same_plans h (by decide), same_works h (by decide), same_nextWork h (by decide), same_holds h (by decide), same_drives h (by decide), same_sas h (by decide), same_gov h (by decide), same_degrade h (by decide), same_reshapes h (by decide), same_tellers h (by decide), same_scratch h (by decide), same_wickets h (by decide), same_cmds h (by decide), same_returns h (by decide), same_ints h (by decide), same_cfg h (by decide), same_link h (by decide), same_resets h (by decide), same_feats h (by decide), same_vaults h (by decide), same_chain h (by decide), same_pair h (by decide), same_mgmt h (by decide), same_sensors h (by decide), same_smbus h (by decide), same_daybook h (by decide), same_reserves h (by decide), same_courier h (by decide), same_map h (by decide), same_registry h (by decide), same_dram h (by decide), same_cache h (by decide), same_hostMem h (by decide), same_heldLow h (by decide), same_latched h (by decide), same_rsp h (by decide), same_smbRsp h (by decide), same_free h (by decide)⟩

end Sys2Proof.Machine
end

