-- ==== Sys2Proof/WellFormed.lean ====
section
/-! DEFINITION. When a command's operands are ones that the part can see: each number inside the range the spec gives it. Every meaning is total and tells such operands apart itself; these checks say which commands stand for an event of the spec. -/

namespace Sys2Proof

/-- A command tag is 14 bits (R260). -/
def tagWf (tag : Nat) : Bool := tag < 16384

/-- A wicket number (R228, R258). -/
def wicketWf (w : Nat) : Bool := w < 512

/-- A return ring (R272). -/
def ringWf (r : Nat) : Bool := r < 64

/-- An engine cycle of a close (R6, R42). -/
def cycleWf (t : Nat) : Bool := t < 25600

/-- An offset in the header buffer (R258). -/
def headerWf (off : Nat) : Bool := off < 64

/-- An offset in the payload aperture (R258). -/
def apertureWf (off : Nat) : Bool := off < 16384

/-- Multiple Message Enable, at most log2 of 32 vectors (R239). -/
def mmeWf (m : Nat) : Bool := m ≤ 5

/-- An MSI-X vector (R238). -/
def vectorWf (v : Nat) : Bool := v < 65

/-- A test source: a ring or the management vector. -/
def sourceWf (n : Nat) : Bool := n < 65

/-- An offset in configuration space. -/
def configWf (off : Nat) : Bool := off < 4096

/-- A result for each of the four closers (R52). -/
def closersWf (l : List Bool) : Bool := l.length = 4

/-- The two SMB_ADDR straps. -/
def smbAddrWf (a : Nat) : Bool := a < 4

/-- A closer (R48). -/
def closerWf (n : Nat) : Bool := n < 4

/-- An index of the layout book (R169). -/
def layoutWf (l : Nat) : Bool := l < 64

/-- A volume number (R89). -/
def volumeWf (v : Nat) : Bool := v < 256

/-- A member number (R367). -/
def memberWf (m : Nat) : Bool := m < 2048

/-- A power group (R171). -/
def groupWf (g : Nat) : Bool := g < 64

/-- A registry position (R123). -/
def positionWf (k : Nat) : Bool := k < 5

/-- A physical teller (R194). -/
def physTellerWf (n : Nat) : Bool := n < 136

/-- A chain direction. -/
def dirWf (d : Nat) : Bool := d < 2

/-- A lane of a chain direction (R374). -/
def chainLaneWf (n : Nat) : Bool := n < 3

/-- A SAS lane (R349). -/
def sasLaneWf (n : Nat) : Bool := n < 16

/-- A SAS link rate code. -/
def sasRateWf (n : Nat) : Bool := n < 16

/-- A ledger block, reserves included (R96). -/
def blockWf (b : Nat) : Bool := b < 36864

/-- A logical teller (R194). -/
def tellerWf (x : Nat) : Bool := x < 128

/-- A teller branch (R194). -/
def branchWf (b : Nat) : Bool := b < 16

/-- A physical scratch bank, reserves included (08). -/
def bankWf (b : Nat) : Bool := b < 264

/-- A port of scratch (R220). -/
def portWf (p : Nat) : Bool := p < 154

/-- A rebuild pass (06). -/
def passWf (p : Nat) : Bool := p < 16

/-- A reshape slot (07). -/
def reshapeSlotWf (n : Nat) : Bool := n < 4

/-- A management core, or 2 for both (R406). -/
def coreWf (n : Nat) : Bool := n < 3

/-- A control-window address (R12). -/
def registerWf (a : Nat) : Bool := a < 0x100_0000

/-- The size of a register access (R13). -/
def sizeWf (n : Nat) : Bool := n = 4 || n = 8

/-- A daybook kind (R480). -/
def kindWf (k : Nat) : Bool := k < 32

/-- The detail of a trigger is at most 20 bytes (R420). -/
def detailWf (l : List Byte) : Bool := l.length ≤ 20

/-- A courier channel (R428). -/
def channelWf (n : Nat) : Bool := n < 16

/-- A slot of a channel (R428). -/
def slotWf (n : Nat) : Bool := n < 4

/-- A word of a slot: source, destination, control (R430). -/
def slotRegWf (n : Nat) : Bool := n < 3

/-- The ARM word is 16 bits (R442). -/
def armWf (n : Nat) : Bool := n < 65536

/-- A slot error code (R437). -/
def slotCodeWf (n : Nat) : Bool := 1 ≤ n && n ≤ 8

/-- A way of the map cache (R444). -/
def wayWf (n : Nat) : Bool := n < 16

/-- Nothing; a corrected error or an uncorrectable one in the first word; the same in the second word. -/
def eccWf (n : Nat) : Bool := n < 5

/-- What the ECC of a map cache line finds: nothing, a corrected or an uncorrectable error (R446). -/
def lookupEccWf (n : Nat) : Bool := n < 3

/-- A map entry (R92). -/
def entryWf (l : List Byte) : Bool := l.length = 64

/-- An element code (R461). -/
def elementWf (n : Nat) : Bool := 1 ≤ n && n ≤ 8

/-- A PCI Express rate code (R228). -/
def linkRateWf (n : Nat) : Bool := 1 ≤ n && n ≤ 6

/-- A PCI Express width (R228). -/
def linkWidthWf (n : Nat) : Bool := n = 1 || n = 2 || n = 4 || n = 8

/-- A 256-bit key (R329). -/
def keyWf (k : Key) : Bool := k.length = 32

/-- A superblock copy (R328). -/
def copyWf (n : Nat) : Bool := n < 2

/-- A tally state (R389). -/
def tallyWf (n : Nat) : Bool := n ≤ 4

/-- A role (R385). -/
def roleWf (n : Nat) : Bool := n < 4

/-- A number of units of a chain (R376). -/
def unitsWf (n : Nat) : Bool := n ≤ 16

/-- A control message (R381): its addresses are bytes, its body is 12 bytes. -/
def ctlWf (m : CtlMsg) : Bool := m.src < 256 && m.dst < 256 && m.body.length = 12

/-- A chain frame (R374): lanes of its direction, payload words of 64 bytes. -/
def frameWf (f : Frame) : Bool := f.badLanes.all chainLaneWf && f.control.all ctlWf && f.payload.all (fun e => e.2.length = 64)

/-- A posting descriptor (R197): one to eight inputs, one to six outputs. -/
def postingWf (p : Posting) : Bool := 1 ≤ p.inputs.length && p.inputs.length ≤ 8 && 1 ≤ p.dests.length && p.dests.length ≤ 6

/-- A scratch access: one of the crossbar's ports, inside 64 MiB (R218, R219). -/
def accessWf (a : ScrAccess) : Bool := portWf a.port && a.addr < 2 ^ 26 && eccWf a.ecc

/-- A memory request moves at least one byte (R237). -/
def memReqWf : MemReq → Bool
  | .rd _ _ len => 0 < len
  | .wr _ _ data => !data.isEmpty

/-- A completion of a device read names a ring or a channel (R248). -/
def hostReadWf : HostRead → Bool
  | .shadow n _ => ringWf n
  | .shadowTimeout n => ringWf n
  | .channel n _ => channelWf n
  | .channelError n => channelWf n
  | .channelTimeout n => channelWf n

/-- The operands of a command stand for something the part can see. -/
def wellFormed (i : Instr) : Bool :=
  match i with
  | .pwrgdRise p => closersWf p.closersPass && smbAddrWf p.smbAddr
  | .pwrgdFall _ => true
  | .firmwareChoice _ _ failing => failing.all physTellerWf
  | .linkTrainingRelease => true
  | .chainEnumerationEnd _ => true
  | .chainEnumerationTimeout => true
  | .ledgerRecovery _ => true
  | .registryQuorumCheck agree short => (agree ++ short).all memberWf
  | .registryQuorumRetry agree short => (agree ++ short).all memberWf
  | .columnVerification layout => layoutWf layout
  | .pairNegotiation => true
  | .negotiationWaitExpiry => true
  | .fuseAdvance => true
  | .perstAssert _ => true
  | .perstDeassert closersPass => closersWf closersPass
  | .closeBoundary => true
  | .cut errs => errs.all (fun e => closerWf e.1)
  | .vote => true
  | .bookEntryIssue => true
  | .bookEntryComplete => true
  | .bookSkipped => true
  | .quietSliceStart => true
  | .bookReadback _ => true
  | .bookRewrite => true
  | .headerWrite w off _ => wicketWf w && headerWf off
  | .commit t w _ _ => cycleWf t && wicketWf w
  | .quietCommitTake w => wicketWf w
  | .apertureWrite w off _ => wicketWf w && apertureWf off
  | .payloadLedgerWrite w _ => wicketWf w
  | .ledgerRoomFreed => true
  | .read tag => tagWf tag
  | .write tag => tagWf tag
  | .verify tag => tagWf tag
  | .release tag => tagWf tag
  | .closeWait tag => tagWf tag
  | .readWaitEnd tag => tagWf tag
  | .identify tag => tagWf tag
  | .getLog tag => tagWf tag
  | .getFeature tag => tagWf tag
  | .setFeature tag => tagWf tag
  | .fwDownload tag _ => tagWf tag
  | .fwCommit tag _ => tagWf tag
  | .fwAbandon tag _ => tagWf tag
  | .reshapeStart tag => tagWf tag
  | .reshapePause tag => tagWf tag
  | .reshapeResume tag => tagWf tag
  | .reshapeCancel tag => tagWf tag
  | .power tag => tagWf tag
  | .groupWindowRequest tag => tagWf tag
  | .groupWindowRelease tag => tagWf tag
  | .groupWindowDeadline tag => tagWf tag
  | .hostTimeMark tag => tagWf tag
  | .audit tag => tagWf tag
  | .putBegin tag => tagWf tag
  | .putData tag => tagWf tag
  | .putEnd tag => tagWf tag
  | .get tag => tagWf tag
  | .stat tag => tagWf tag
  | .list tag => tagWf tag
  | .sealObject tag => tagWf tag
  | .delete tag => tagWf tag
  | .auditObject tag => tagWf tag
  | .sessionIdleExpiry _ => true
  | .backgroundAudit vault => volumeWf vault
  | .digestMismatchRepair vault key => volumeWf vault && keyWf key
  | .vaultTimeTick vault => volumeWf vault
  | .queueResetRequest w _ => wicketWf w
  | .ringEntryWrite ring => ringWf ring
  | .parkedNotice tag => tagWf tag
  | .irqDelayExpiry ring => ringWf ring
  | .retHeadWrite ring _ => ringWf ring
  | .ringEnableSet ring => ringWf ring
  | .ringEnableClear ring => ringWf ring
  | .creditBaseEnable _ => true
  | .interruptModeChange _ _ _ mme => mmeWf mme
  | .vectorUnmask vector => vectorWf vector
  | .intPendingClear _ _ => true
  | .intTestFire source => sourceWf source
  | .functionLevelReset => true
  | .hotReset => true
  | .resetComplete => true
  | .busMasterClear => true
  | .busMasterSet => true
  | .hostReadCompletion r => hostReadWf r
  | .memoryRequest m => memReqWf m
  | .configAccess off _ => configWf off
  | .d3hotWrite => true
  | .dormantEntry => true
  | .d0Write => true
  | .restEntry => true
  | .entryDeadlineExpiry => true
  | .wakeCause _ => true
  | .aspmL1Entry _ _ => true
  | .confirm _ => true
  | .bookHeld _ => true
  | .releaseNotice _ => true
  | .postedNotice tag ring _ => tagWf tag && ringWf ring
  | .negotiate n => roleWf n.role
  | .token _ units => unitsWf units
  | .laneSwap dir lane _ => dirWf dir && chainLaneWf lane
  | .laneSwapFrame dir lane _ => dirWf dir && chainLaneWf lane
  | .laneCheckLimit dir lane => dirWf dir && chainLaneWf lane
  | .streamFrameArrival dir f => dirWf dir && frameWf f
  | .streamFrameReturn dir f => dirWf dir && frameWf f
  | .controlMessageReturn m => ctlWf m
  | .chainLinkTraining dir lanesUp => dirWf dir && lanesUp.all chainLaneWf
  | .tallyReceipt _ _ state _ _ => tallyWf state
  | .pathAlarm _ => true
  | .partnerFailed => true
  | .failedTally _ => true
  | .detachDelayExpiry => true
  | .detached => true
  | .preemptCompletion pos _ => positionWf pos
  | .witnessRecordWrite pos => positionWf pos
  | .arbitrationWin => true
  | .arbitrationLoss => true
  | .arbitrationTimeout => true
  | .arbitrationRetry => true
  | .talliesResume => true
  | .takeoverDecision => true
  | .join => true
  | .bulkEnd => true
  | .joinCurrent => true
  | .auditMark volume => volume.all volumeWf
  | .auditDigest _ _ _ => true
  | .chainCalibration dir lane _ => dirWf dir && chainLaneWf lane
  | .holdoffExpiry layout _ => layoutWf layout
  | .stripeReadComplete _ => true
  | .stripeWriteComplete _ => true
  | .admissionCheckpoint => true
  | .periodicCheckpoint => true
  | .checkpointComplete acks => acks.all memberWf
  | .checkpointFailure => true
  | .mapBitSet _ => true
  | .regionTableFreed => true
  | .resynchronisation volume _ => volumeWf volume
  | .ledgerCorrectedEvent block => blockWf block
  | .ledgerUncorrectableEvent block _ => blockWf block
  | .ledgerBlockRetirement block => blockWf block
  | .wearMove block => blockWf block
  | .senseReferenceTrim _ _ _ => true
  | .postingPush p => postingWf p
  | .postingTake x t => tellerWf x && cycleWf t
  | .steal x t => tellerWf x && cycleWf t
  | .postingFinish x t => tellerWf x && cycleWf t
  | .parityError x => tellerWf x
  | .tellerSelfTest _ => true
  | .holdRequest _ => true
  | .holdRelease _ => true
  | .branchGating b => branchWf b
  | .scratchAccess accs => accs.all accessWf
  | .bankRetirement bank => bankWf bank
  | .bankRetention bank => bankWf bank
  | .sweepStep t needed _ => cycleWf t && needed.all portWf
  | .planReady layout _ => layoutWf layout
  | .planFlush => true
  | .planUnpin layout _ => layoutWf layout
  | .memberCommandCompletion _ _ _ => true
  | .memberTimeout _ => true
  | .suspectPoll member => memberWf member
  | .suspectLimitExpiry member => memberWf member
  | .discoveryMissingExpiry member => memberWf member
  | .lateRead _ _ => true
  | .mediaRepair member layout _ _ _ => memberWf member && layoutWf layout
  | .poolUpdateComplete layout _ acks => layoutWf layout && acks.all memberWf
  | .rebuildPassStart layout _ => layoutWf layout
  | .rowRestore pass => passWf pass
  | .replacementDiscovered member _ _ => memberWf member
  | .registryRehome member => memberWf member
  | .lossEntriesDurable _ acks => acks.all memberWf
  | .sealRow layout _ _ => layoutWf layout
  | .lossAreaFull => true
  | .localScrub layout _ _ _ => layoutWf layout
  | .globalScrubBatch layout _ _ => layoutWf layout
  | .reshapeRecordAck slot acks => reshapeSlotWf slot && acks.all memberWf
  | .deviceStartedReshape volume => volumeWf volume
  | .regionCopy slot => reshapeSlotWf slot
  | .closingEnd group => groupWf group
  | .shelfPowerOk group _ => groupWf group
  | .staggerStep group => groupWf group
  | .groupReady group => groupWf group
  | .spinUpLimitExpiry group => groupWf group
  | .groupDown group => groupWf group
  | .broadcastChange => true
  | .discoveryRunEnd _ _ _ _ => true
  | .sasRetrim lane _ => sasLaneWf lane
  | .retrimDeferral lane => sasLaneWf lane
  | .sasLaneFlag lane => sasLaneWf lane
  | .sasLaneNotUp lane => sasLaneWf lane
  | .watchdogExpiry core _ => coreWf core
  | .operatingTimeTick => true
  | .sensorSample _ => true
  | .smbusSetAddress addr => registerWf addr
  | .smbusRead => true
  | .smbusWrite _ => true
  | .smbusResult => true
  | .smbusPecError => true
  | .alertResponse => true
  | .mctpControlMessage _ => true
  | .mctpVendorRead addr => registerWf addr
  | .mctpVendorWrite addr _ => registerWf addr
  | .daybookTrigger t => kindWf t.kind && detailWf t.detail
  | .daybookRecordWrite => true
  | .coalesce => true
  | .alertAck => true
  | .dbkCursorWrite _ _ => true
  | .fuseProgram _ => true
  | .fuseRevoke => true
  | .flashErase _ => true
  | .flashProgram _ => true
  | .flashRead _ => true
  | .flashOperationEnd => true
  | .courierStart ch => channelWf ch
  | .courierSlotWrite ch slot reg _ => channelWf ch && slotWf slot && slotRegWf reg
  | .shadowArm ch => channelWf ch
  | .shadowWrite ch slot reg _ => channelWf ch && slotWf slot && slotRegWf reg
  | .maintenanceEnter arm => armWf arm
  | .maintenanceExit arm => armWf arm
  | .burstGrant t ready => cycleWf t && ready.all channelWf
  | .slotComplete ch => channelWf ch
  | .slotFault ch code => channelWf ch && slotCodeWf code
  | .mapLookup _ _ way ecc => wayWf way && lookupEccWf ecc
  | .mapFillReturn _ => true
  | .mapEntryChange _ entry => entryWf entry
  | .mapInvalidateLine => true
  | .mapInvalidateAll => true
  | .dramEccEvent _ _ => true
  | .dramRowRepair _ _ => true
  | .retirementFuse element _ => elementWf element
  | .pllLockLoss _ => true
  | .jtagInstructionLoad _ => true
  | .registerReadClear addr size => registerWf addr && sizeWf size
  | .registerWrite addr data => registerWf addr && sizeWf data.length
  | .linkUp rate width _ => linkRateWf rate && linkWidthWf width
  | .sasLaneUp lane rate => sasLaneWf lane && sasRateWf rate
  | .sasLaneDown lane => sasLaneWf lane
  | .hbSymbolLock _ => true
  | .fuseOperationEnd => true
  | .firmwareRestartEnd => true
  | .spinUpPoll member _ => memberWf member
  | .notReadyRetry _ => true
  | .hostClaimEnd group => groupWf group
  | .vaultIndexWalkEnd vault goodCopies => volumeWf vault && goodCopies.all copyWf

end Sys2Proof
end

