-- ==== Sys2Proof/Laws/PerInstr.lean ====
section
/-! SUPPORT. Statements about each command as syntax, one lemma for each constructor of Instr. -/

set_option Elab.async false

namespace Sys2Proof.Laws.Ranges

open Sys2Proof

/-- The numbers that a command names, each with the count of values the spec gives it. -/
def numbers : Instr → List (Nat × Nat)
  | .pwrgdRise p => [(p.smbAddr, 4)]
  | .pwrgdFall _ => []
  | .firmwareChoice _ _ _ => []
  | .linkTrainingRelease => []
  | .chainEnumerationEnd _ => []
  | .chainEnumerationTimeout => []
  | .ledgerRecovery _ => []
  | .registryQuorumCheck _ _ => []
  | .registryQuorumRetry _ _ => []
  | .columnVerification layout => [(layout, 64)]
  | .pairNegotiation => []
  | .negotiationWaitExpiry => []
  | .fuseAdvance => []
  | .perstAssert _ => []
  | .perstDeassert _ => []
  | .closeBoundary => []
  | .cut _ => []
  | .vote => []
  | .bookEntryIssue => []
  | .bookEntryComplete => []
  | .bookSkipped => []
  | .quietSliceStart => []
  | .bookReadback _ => []
  | .bookRewrite => []
  | .headerWrite w off _ => [(w, 512), (off, 64)]
  | .commit t w _ _ => [(t, 25600), (w, 512)]
  | .quietCommitTake w => [(w, 512)]
  | .apertureWrite w off _ => [(w, 512), (off, 16384)]
  | .payloadLedgerWrite w _ => [(w, 512)]
  | .ledgerRoomFreed => []
  | .read tag => [(tag, 16384)]
  | .write tag => [(tag, 16384)]
  | .verify tag => [(tag, 16384)]
  | .release tag => [(tag, 16384)]
  | .closeWait tag => [(tag, 16384)]
  | .readWaitEnd tag => [(tag, 16384)]
  | .identify tag => [(tag, 16384)]
  | .getLog tag => [(tag, 16384)]
  | .getFeature tag => [(tag, 16384)]
  | .setFeature tag => [(tag, 16384)]
  | .fwDownload tag _ => [(tag, 16384)]
  | .fwCommit tag _ => [(tag, 16384)]
  | .fwAbandon tag _ => [(tag, 16384)]
  | .reshapeStart tag => [(tag, 16384)]
  | .reshapePause tag => [(tag, 16384)]
  | .reshapeResume tag => [(tag, 16384)]
  | .reshapeCancel tag => [(tag, 16384)]
  | .power tag => [(tag, 16384)]
  | .groupWindowRequest tag => [(tag, 16384)]
  | .groupWindowRelease tag => [(tag, 16384)]
  | .groupWindowDeadline tag => [(tag, 16384)]
  | .hostTimeMark tag => [(tag, 16384)]
  | .audit tag => [(tag, 16384)]
  | .putBegin tag => [(tag, 16384)]
  | .putData tag => [(tag, 16384)]
  | .putEnd tag => [(tag, 16384)]
  | .get tag => [(tag, 16384)]
  | .stat tag => [(tag, 16384)]
  | .list tag => [(tag, 16384)]
  | .sealObject tag => [(tag, 16384)]
  | .delete tag => [(tag, 16384)]
  | .auditObject tag => [(tag, 16384)]
  | .sessionIdleExpiry _ => []
  | .backgroundAudit vault => [(vault, 256)]
  | .digestMismatchRepair vault _ => [(vault, 256)]
  | .vaultTimeTick vault => [(vault, 256)]
  | .queueResetRequest w _ => [(w, 512)]
  | .ringEntryWrite ring => [(ring, 64)]
  | .parkedNotice tag => [(tag, 16384)]
  | .irqDelayExpiry ring => [(ring, 64)]
  | .retHeadWrite ring _ => [(ring, 64)]
  | .ringEnableSet ring => [(ring, 64)]
  | .ringEnableClear ring => [(ring, 64)]
  | .creditBaseEnable _ => []
  | .interruptModeChange _ _ _ mme => [(mme, 6)]
  | .vectorUnmask vector => [(vector, 65)]
  | .intPendingClear _ _ => []
  | .intTestFire source => [(source, 65)]
  | .functionLevelReset => []
  | .hotReset => []
  | .resetComplete => []
  | .busMasterClear => []
  | .busMasterSet => []
  | .hostReadCompletion _ => []
  | .memoryRequest _ => []
  | .configAccess off _ => [(off, 4096)]
  | .d3hotWrite => []
  | .dormantEntry => []
  | .d0Write => []
  | .restEntry => []
  | .entryDeadlineExpiry => []
  | .wakeCause _ => []
  | .aspmL1Entry _ _ => []
  | .confirm _ => []
  | .bookHeld _ => []
  | .releaseNotice _ => []
  | .postedNotice tag ring _ => [(tag, 16384), (ring, 64)]
  | .negotiate n => [(n.role, 4)]
  | .token _ units => [(units, 17)]
  | .laneSwap dir lane _ => [(dir, 2), (lane, 3)]
  | .laneSwapFrame dir lane _ => [(dir, 2), (lane, 3)]
  | .laneCheckLimit dir lane => [(dir, 2), (lane, 3)]
  | .streamFrameArrival dir _ => [(dir, 2)]
  | .streamFrameReturn dir _ => [(dir, 2)]
  | .controlMessageReturn _ => []
  | .chainLinkTraining dir _ => [(dir, 2)]
  | .tallyReceipt _ _ state _ _ => [(state, 5)]
  | .pathAlarm _ => []
  | .partnerFailed => []
  | .failedTally _ => []
  | .detachDelayExpiry => []
  | .detached => []
  | .preemptCompletion pos _ => [(pos, 5)]
  | .witnessRecordWrite pos => [(pos, 5)]
  | .arbitrationWin => []
  | .arbitrationLoss => []
  | .arbitrationTimeout => []
  | .arbitrationRetry => []
  | .talliesResume => []
  | .takeoverDecision => []
  | .join => []
  | .bulkEnd => []
  | .joinCurrent => []
  | .auditMark _ => []
  | .auditDigest _ _ _ => []
  | .chainCalibration dir lane _ => [(dir, 2), (lane, 3)]
  | .holdoffExpiry layout _ => [(layout, 64)]
  | .stripeReadComplete _ => []
  | .stripeWriteComplete _ => []
  | .admissionCheckpoint => []
  | .periodicCheckpoint => []
  | .checkpointComplete _ => []
  | .checkpointFailure => []
  | .mapBitSet _ => []
  | .regionTableFreed => []
  | .resynchronisation volume _ => [(volume, 256)]
  | .ledgerCorrectedEvent block => [(block, 36864)]
  | .ledgerUncorrectableEvent block _ => [(block, 36864)]
  | .ledgerBlockRetirement block => [(block, 36864)]
  | .wearMove block => [(block, 36864)]
  | .senseReferenceTrim _ _ _ => []
  | .postingPush _ => []
  | .postingTake x t => [(x, 128), (t, 25600)]
  | .steal x t => [(x, 128), (t, 25600)]
  | .postingFinish x t => [(x, 128), (t, 25600)]
  | .parityError x => [(x, 128)]
  | .tellerSelfTest _ => []
  | .holdRequest _ => []
  | .holdRelease _ => []
  | .branchGating b => [(b, 16)]
  | .scratchAccess _ => []
  | .bankRetirement bank => [(bank, 264)]
  | .bankRetention bank => [(bank, 264)]
  | .sweepStep t _ _ => [(t, 25600)]
  | .planReady layout _ => [(layout, 64)]
  | .planFlush => []
  | .planUnpin layout _ => [(layout, 64)]
  | .memberCommandCompletion _ _ _ => []
  | .memberTimeout _ => []
  | .suspectPoll member => [(member, 2048)]
  | .suspectLimitExpiry member => [(member, 2048)]
  | .discoveryMissingExpiry member => [(member, 2048)]
  | .lateRead _ _ => []
  | .mediaRepair member layout _ _ _ => [(member, 2048), (layout, 64)]
  | .poolUpdateComplete layout _ _ => [(layout, 64)]
  | .rebuildPassStart layout _ => [(layout, 64)]
  | .rowRestore pass => [(pass, 16)]
  | .replacementDiscovered member _ _ => [(member, 2048)]
  | .registryRehome member => [(member, 2048)]
  | .lossEntriesDurable _ _ => []
  | .sealRow layout _ _ => [(layout, 64)]
  | .lossAreaFull => []
  | .localScrub layout _ _ _ => [(layout, 64)]
  | .globalScrubBatch layout _ _ => [(layout, 64)]
  | .reshapeRecordAck slot _ => [(slot, 4)]
  | .deviceStartedReshape volume => [(volume, 256)]
  | .regionCopy slot => [(slot, 4)]
  | .closingEnd group => [(group, 64)]
  | .shelfPowerOk group _ => [(group, 64)]
  | .staggerStep group => [(group, 64)]
  | .groupReady group => [(group, 64)]
  | .spinUpLimitExpiry group => [(group, 64)]
  | .groupDown group => [(group, 64)]
  | .broadcastChange => []
  | .discoveryRunEnd _ _ _ _ => []
  | .sasRetrim lane _ => [(lane, 16)]
  | .retrimDeferral lane => [(lane, 16)]
  | .sasLaneFlag lane => [(lane, 16)]
  | .sasLaneNotUp lane => [(lane, 16)]
  | .watchdogExpiry core _ => [(core, 3)]
  | .operatingTimeTick => []
  | .sensorSample _ => []
  | .smbusSetAddress addr => [(addr, 0x1000000)]
  | .smbusRead => []
  | .smbusWrite _ => []
  | .smbusResult => []
  | .smbusPecError => []
  | .alertResponse => []
  | .mctpControlMessage _ => []
  | .mctpVendorRead addr => [(addr, 0x1000000)]
  | .mctpVendorWrite addr _ => [(addr, 0x1000000)]
  | .daybookTrigger t => [(t.kind, 32)]
  | .daybookRecordWrite => []
  | .coalesce => []
  | .alertAck => []
  | .dbkCursorWrite _ _ => []
  | .fuseProgram _ => []
  | .fuseRevoke => []
  | .flashErase _ => []
  | .flashProgram _ => []
  | .flashRead _ => []
  | .flashOperationEnd => []
  | .courierStart ch => [(ch, 16)]
  | .courierSlotWrite ch slot reg _ => [(ch, 16), (slot, 4), (reg, 3)]
  | .shadowArm ch => [(ch, 16)]
  | .shadowWrite ch slot reg _ => [(ch, 16), (slot, 4), (reg, 3)]
  | .maintenanceEnter arm => [(arm, 65536)]
  | .maintenanceExit arm => [(arm, 65536)]
  | .burstGrant t _ => [(t, 25600)]
  | .slotComplete ch => [(ch, 16)]
  | .slotFault ch code => [(ch, 16), (code, 9)]
  | .mapLookup _ _ way ecc => [(way, 16), (ecc, 3)]
  | .mapFillReturn _ => []
  | .mapEntryChange _ _ => []
  | .mapInvalidateLine => []
  | .mapInvalidateAll => []
  | .dramEccEvent _ _ => []
  | .dramRowRepair _ _ => []
  | .retirementFuse element _ => [(element, 9)]
  | .pllLockLoss _ => []
  | .jtagInstructionLoad _ => []
  | .registerReadClear addr size => [(addr, 0x1000000), (size, 9)]
  | .registerWrite addr data => [(addr, 0x1000000), (data.length, 9)]
  | .linkUp rate width _ => [(rate, 7), (width, 9)]
  | .sasLaneUp lane rate => [(lane, 16), (rate, 16)]
  | .sasLaneDown lane => [(lane, 16)]
  | .hbSymbolLock _ => []
  | .fuseOperationEnd => []
  | .firmwareRestartEnd => []
  | .spinUpPoll member _ => [(member, 2048)]
  | .notReadyRetry _ => []
  | .hostClaimEnd group => [(group, 64)]
  | .vaultIndexWalkEnd vault _ => [(vault, 256)]

/-- A well-formed command names no number outside the spec's ranges. -/
def Statement (i : Instr) : Prop := wellFormed i = true → ∀ e ∈ numbers i, e.1 < e.2

theorem pwrgdRise x0 : Statement (.pwrgdRise x0) := by
  simp [Statement, numbers, wellFormed, smbAddrWf] <;> omega

theorem pwrgdFall x0 : Statement (.pwrgdFall x0) := by simp [Statement, numbers]

theorem firmwareChoice x0 x1 x2 : Statement (.firmwareChoice x0 x1 x2) := by simp [Statement, numbers]

theorem linkTrainingRelease : Statement (.linkTrainingRelease) := by simp [Statement, numbers]

theorem chainEnumerationEnd x0 : Statement (.chainEnumerationEnd x0) := by simp [Statement, numbers]

theorem chainEnumerationTimeout : Statement (.chainEnumerationTimeout) := by simp [Statement, numbers]

theorem ledgerRecovery x0 : Statement (.ledgerRecovery x0) := by simp [Statement, numbers]

theorem registryQuorumCheck x0 x1 : Statement (.registryQuorumCheck x0 x1) := by simp [Statement, numbers]

theorem registryQuorumRetry x0 x1 : Statement (.registryQuorumRetry x0 x1) := by simp [Statement, numbers]

theorem columnVerification x0 : Statement (.columnVerification x0) := by
  simp [Statement, numbers, wellFormed, layoutWf] <;> omega

theorem pairNegotiation : Statement (.pairNegotiation) := by simp [Statement, numbers]

theorem negotiationWaitExpiry : Statement (.negotiationWaitExpiry) := by simp [Statement, numbers]

theorem fuseAdvance : Statement (.fuseAdvance) := by simp [Statement, numbers]

theorem perstAssert x0 : Statement (.perstAssert x0) := by simp [Statement, numbers]

theorem perstDeassert x0 : Statement (.perstDeassert x0) := by simp [Statement, numbers]

theorem closeBoundary : Statement (.closeBoundary) := by simp [Statement, numbers]

theorem cut x0 : Statement (.cut x0) := by simp [Statement, numbers]

theorem vote : Statement (.vote) := by simp [Statement, numbers]

theorem bookEntryIssue : Statement (.bookEntryIssue) := by simp [Statement, numbers]

theorem bookEntryComplete : Statement (.bookEntryComplete) := by simp [Statement, numbers]

theorem bookSkipped : Statement (.bookSkipped) := by simp [Statement, numbers]

theorem quietSliceStart : Statement (.quietSliceStart) := by simp [Statement, numbers]

theorem bookReadback x0 : Statement (.bookReadback x0) := by simp [Statement, numbers]

theorem bookRewrite : Statement (.bookRewrite) := by simp [Statement, numbers]

theorem headerWrite x0 x1 x2 : Statement (.headerWrite x0 x1 x2) := by
  simp [Statement, numbers, wellFormed, headerWf, wicketWf] <;> omega

theorem commit x0 x1 x2 x3 : Statement (.commit x0 x1 x2 x3) := by
  simp [Statement, numbers, wellFormed, cycleWf, wicketWf] <;> omega

theorem quietCommitTake x0 : Statement (.quietCommitTake x0) := by
  simp [Statement, numbers, wellFormed, wicketWf] <;> omega

theorem apertureWrite x0 x1 x2 : Statement (.apertureWrite x0 x1 x2) := by
  simp [Statement, numbers, wellFormed, apertureWf, wicketWf] <;> omega

theorem payloadLedgerWrite x0 x1 : Statement (.payloadLedgerWrite x0 x1) := by
  simp [Statement, numbers, wellFormed, wicketWf] <;> omega

theorem ledgerRoomFreed : Statement (.ledgerRoomFreed) := by simp [Statement, numbers]

theorem read x0 : Statement (.read x0) := by
  simp [Statement, numbers, wellFormed, tagWf] <;> omega

theorem write x0 : Statement (.write x0) := by
  simp [Statement, numbers, wellFormed, tagWf] <;> omega

theorem verify x0 : Statement (.verify x0) := by
  simp [Statement, numbers, wellFormed, tagWf] <;> omega

theorem release x0 : Statement (.release x0) := by
  simp [Statement, numbers, wellFormed, tagWf] <;> omega

theorem closeWait x0 : Statement (.closeWait x0) := by
  simp [Statement, numbers, wellFormed, tagWf] <;> omega

theorem readWaitEnd x0 : Statement (.readWaitEnd x0) := by
  simp [Statement, numbers, wellFormed, tagWf] <;> omega

theorem identify x0 : Statement (.identify x0) := by
  simp [Statement, numbers, wellFormed, tagWf] <;> omega

theorem getLog x0 : Statement (.getLog x0) := by
  simp [Statement, numbers, wellFormed, tagWf] <;> omega

theorem getFeature x0 : Statement (.getFeature x0) := by
  simp [Statement, numbers, wellFormed, tagWf] <;> omega

theorem setFeature x0 : Statement (.setFeature x0) := by
  simp [Statement, numbers, wellFormed, tagWf] <;> omega

theorem fwDownload x0 x1 : Statement (.fwDownload x0 x1) := by
  simp [Statement, numbers, wellFormed, tagWf] <;> omega

theorem fwCommit x0 x1 : Statement (.fwCommit x0 x1) := by
  simp [Statement, numbers, wellFormed, tagWf] <;> omega

theorem fwAbandon x0 x1 : Statement (.fwAbandon x0 x1) := by
  simp [Statement, numbers, wellFormed, tagWf] <;> omega

theorem reshapeStart x0 : Statement (.reshapeStart x0) := by
  simp [Statement, numbers, wellFormed, tagWf] <;> omega

theorem reshapePause x0 : Statement (.reshapePause x0) := by
  simp [Statement, numbers, wellFormed, tagWf] <;> omega

theorem reshapeResume x0 : Statement (.reshapeResume x0) := by
  simp [Statement, numbers, wellFormed, tagWf] <;> omega

theorem reshapeCancel x0 : Statement (.reshapeCancel x0) := by
  simp [Statement, numbers, wellFormed, tagWf] <;> omega

theorem power x0 : Statement (.power x0) := by
  simp [Statement, numbers, wellFormed, tagWf] <;> omega

theorem groupWindowRequest x0 : Statement (.groupWindowRequest x0) := by
  simp [Statement, numbers, wellFormed, tagWf] <;> omega

theorem groupWindowRelease x0 : Statement (.groupWindowRelease x0) := by
  simp [Statement, numbers, wellFormed, tagWf] <;> omega

theorem groupWindowDeadline x0 : Statement (.groupWindowDeadline x0) := by
  simp [Statement, numbers, wellFormed, tagWf] <;> omega

theorem hostTimeMark x0 : Statement (.hostTimeMark x0) := by
  simp [Statement, numbers, wellFormed, tagWf] <;> omega

theorem audit x0 : Statement (.audit x0) := by
  simp [Statement, numbers, wellFormed, tagWf] <;> omega

theorem putBegin x0 : Statement (.putBegin x0) := by
  simp [Statement, numbers, wellFormed, tagWf] <;> omega

theorem putData x0 : Statement (.putData x0) := by
  simp [Statement, numbers, wellFormed, tagWf] <;> omega

theorem putEnd x0 : Statement (.putEnd x0) := by
  simp [Statement, numbers, wellFormed, tagWf] <;> omega

theorem get x0 : Statement (.get x0) := by
  simp [Statement, numbers, wellFormed, tagWf] <;> omega

theorem stat x0 : Statement (.stat x0) := by
  simp [Statement, numbers, wellFormed, tagWf] <;> omega

theorem list x0 : Statement (.list x0) := by
  simp [Statement, numbers, wellFormed, tagWf] <;> omega

theorem sealObject x0 : Statement (.sealObject x0) := by
  simp [Statement, numbers, wellFormed, tagWf] <;> omega

theorem delete x0 : Statement (.delete x0) := by
  simp [Statement, numbers, wellFormed, tagWf] <;> omega

theorem auditObject x0 : Statement (.auditObject x0) := by
  simp [Statement, numbers, wellFormed, tagWf] <;> omega

theorem sessionIdleExpiry x0 : Statement (.sessionIdleExpiry x0) := by simp [Statement, numbers]

theorem backgroundAudit x0 : Statement (.backgroundAudit x0) := by
  simp [Statement, numbers, wellFormed, volumeWf] <;> omega

theorem digestMismatchRepair x0 x1 : Statement (.digestMismatchRepair x0 x1) := by
  simp [Statement, numbers, wellFormed, volumeWf] <;> omega

theorem vaultTimeTick x0 : Statement (.vaultTimeTick x0) := by
  simp [Statement, numbers, wellFormed, volumeWf] <;> omega

theorem queueResetRequest x0 x1 : Statement (.queueResetRequest x0 x1) := by
  simp [Statement, numbers, wellFormed, wicketWf] <;> omega

theorem ringEntryWrite x0 : Statement (.ringEntryWrite x0) := by
  simp [Statement, numbers, wellFormed, ringWf] <;> omega

theorem parkedNotice x0 : Statement (.parkedNotice x0) := by
  simp [Statement, numbers, wellFormed, tagWf] <;> omega

theorem irqDelayExpiry x0 : Statement (.irqDelayExpiry x0) := by
  simp [Statement, numbers, wellFormed, ringWf] <;> omega

theorem retHeadWrite x0 x1 : Statement (.retHeadWrite x0 x1) := by
  simp [Statement, numbers, wellFormed, ringWf] <;> omega

theorem ringEnableSet x0 : Statement (.ringEnableSet x0) := by
  simp [Statement, numbers, wellFormed, ringWf] <;> omega

theorem ringEnableClear x0 : Statement (.ringEnableClear x0) := by
  simp [Statement, numbers, wellFormed, ringWf] <;> omega

theorem creditBaseEnable x0 : Statement (.creditBaseEnable x0) := by simp [Statement, numbers]

theorem interruptModeChange x0 x1 x2 x3 : Statement (.interruptModeChange x0 x1 x2 x3) := by
  simp [Statement, numbers, wellFormed, mmeWf] <;> omega

theorem vectorUnmask x0 : Statement (.vectorUnmask x0) := by
  simp [Statement, numbers, wellFormed, vectorWf] <;> omega

theorem intPendingClear x0 x1 : Statement (.intPendingClear x0 x1) := by simp [Statement, numbers]

theorem intTestFire x0 : Statement (.intTestFire x0) := by
  simp [Statement, numbers, wellFormed, sourceWf] <;> omega

theorem functionLevelReset : Statement (.functionLevelReset) := by simp [Statement, numbers]

theorem hotReset : Statement (.hotReset) := by simp [Statement, numbers]

theorem resetComplete : Statement (.resetComplete) := by simp [Statement, numbers]

theorem busMasterClear : Statement (.busMasterClear) := by simp [Statement, numbers]

theorem busMasterSet : Statement (.busMasterSet) := by simp [Statement, numbers]

theorem hostReadCompletion x0 : Statement (.hostReadCompletion x0) := by simp [Statement, numbers]

theorem memoryRequest x0 : Statement (.memoryRequest x0) := by simp [Statement, numbers]

theorem configAccess x0 x1 : Statement (.configAccess x0 x1) := by
  simp [Statement, numbers, wellFormed, configWf] <;> omega

theorem d3hotWrite : Statement (.d3hotWrite) := by simp [Statement, numbers]

theorem dormantEntry : Statement (.dormantEntry) := by simp [Statement, numbers]

theorem d0Write : Statement (.d0Write) := by simp [Statement, numbers]

theorem restEntry : Statement (.restEntry) := by simp [Statement, numbers]

theorem entryDeadlineExpiry : Statement (.entryDeadlineExpiry) := by simp [Statement, numbers]

theorem wakeCause x0 : Statement (.wakeCause x0) := by simp [Statement, numbers]

theorem aspmL1Entry x0 x1 : Statement (.aspmL1Entry x0 x1) := by simp [Statement, numbers]

theorem confirm x0 : Statement (.confirm x0) := by simp [Statement, numbers]

theorem bookHeld x0 : Statement (.bookHeld x0) := by simp [Statement, numbers]

theorem releaseNotice x0 : Statement (.releaseNotice x0) := by simp [Statement, numbers]

theorem postedNotice x0 x1 x2 : Statement (.postedNotice x0 x1 x2) := by
  simp [Statement, numbers, wellFormed, ringWf, tagWf] <;> omega

theorem negotiate x0 : Statement (.negotiate x0) := by
  simp [Statement, numbers, wellFormed, roleWf] <;> omega

theorem token x0 x1 : Statement (.token x0 x1) := by
  simp [Statement, numbers, wellFormed, unitsWf] <;> omega

theorem laneSwap x0 x1 x2 : Statement (.laneSwap x0 x1 x2) := by
  simp [Statement, numbers, wellFormed, chainLaneWf, dirWf] <;> omega

theorem laneSwapFrame x0 x1 x2 : Statement (.laneSwapFrame x0 x1 x2) := by
  simp [Statement, numbers, wellFormed, chainLaneWf, dirWf] <;> omega

theorem laneCheckLimit x0 x1 : Statement (.laneCheckLimit x0 x1) := by
  simp [Statement, numbers, wellFormed, chainLaneWf, dirWf] <;> omega

theorem streamFrameArrival x0 x1 : Statement (.streamFrameArrival x0 x1) := by
  simp [Statement, numbers, wellFormed, dirWf] <;> omega

theorem streamFrameReturn x0 x1 : Statement (.streamFrameReturn x0 x1) := by
  simp [Statement, numbers, wellFormed, dirWf] <;> omega

theorem controlMessageReturn x0 : Statement (.controlMessageReturn x0) := by simp [Statement, numbers]

theorem chainLinkTraining x0 x1 : Statement (.chainLinkTraining x0 x1) := by
  simp [Statement, numbers, wellFormed, dirWf] <;> omega

theorem tallyReceipt x0 x1 x2 x3 x4 : Statement (.tallyReceipt x0 x1 x2 x3 x4) := by
  simp [Statement, numbers, wellFormed, tallyWf] <;> omega

theorem pathAlarm x0 : Statement (.pathAlarm x0) := by simp [Statement, numbers]

theorem partnerFailed : Statement (.partnerFailed) := by simp [Statement, numbers]

theorem failedTally x0 : Statement (.failedTally x0) := by simp [Statement, numbers]

theorem detachDelayExpiry : Statement (.detachDelayExpiry) := by simp [Statement, numbers]

theorem detached : Statement (.detached) := by simp [Statement, numbers]

theorem preemptCompletion x0 x1 : Statement (.preemptCompletion x0 x1) := by
  simp [Statement, numbers, wellFormed, positionWf] <;> omega

theorem witnessRecordWrite x0 : Statement (.witnessRecordWrite x0) := by
  simp [Statement, numbers, wellFormed, positionWf] <;> omega

theorem arbitrationWin : Statement (.arbitrationWin) := by simp [Statement, numbers]

theorem arbitrationLoss : Statement (.arbitrationLoss) := by simp [Statement, numbers]

theorem arbitrationTimeout : Statement (.arbitrationTimeout) := by simp [Statement, numbers]

theorem arbitrationRetry : Statement (.arbitrationRetry) := by simp [Statement, numbers]

theorem talliesResume : Statement (.talliesResume) := by simp [Statement, numbers]

theorem takeoverDecision : Statement (.takeoverDecision) := by simp [Statement, numbers]

theorem join : Statement (.join) := by simp [Statement, numbers]

theorem bulkEnd : Statement (.bulkEnd) := by simp [Statement, numbers]

theorem joinCurrent : Statement (.joinCurrent) := by simp [Statement, numbers]

theorem auditMark x0 : Statement (.auditMark x0) := by simp [Statement, numbers]

theorem auditDigest x0 x1 x2 : Statement (.auditDigest x0 x1 x2) := by simp [Statement, numbers]

theorem chainCalibration x0 x1 x2 : Statement (.chainCalibration x0 x1 x2) := by
  simp [Statement, numbers, wellFormed, chainLaneWf, dirWf] <;> omega

theorem holdoffExpiry x0 x1 : Statement (.holdoffExpiry x0 x1) := by
  simp [Statement, numbers, wellFormed, layoutWf] <;> omega

theorem stripeReadComplete x0 : Statement (.stripeReadComplete x0) := by simp [Statement, numbers]

theorem stripeWriteComplete x0 : Statement (.stripeWriteComplete x0) := by simp [Statement, numbers]

theorem admissionCheckpoint : Statement (.admissionCheckpoint) := by simp [Statement, numbers]

theorem periodicCheckpoint : Statement (.periodicCheckpoint) := by simp [Statement, numbers]

theorem checkpointComplete x0 : Statement (.checkpointComplete x0) := by simp [Statement, numbers]

theorem checkpointFailure : Statement (.checkpointFailure) := by simp [Statement, numbers]

theorem mapBitSet x0 : Statement (.mapBitSet x0) := by simp [Statement, numbers]

theorem regionTableFreed : Statement (.regionTableFreed) := by simp [Statement, numbers]

theorem resynchronisation x0 x1 : Statement (.resynchronisation x0 x1) := by
  simp [Statement, numbers, wellFormed, volumeWf] <;> omega

theorem ledgerCorrectedEvent x0 : Statement (.ledgerCorrectedEvent x0) := by
  simp [Statement, numbers, wellFormed, blockWf] <;> omega

theorem ledgerUncorrectableEvent x0 x1 : Statement (.ledgerUncorrectableEvent x0 x1) := by
  simp [Statement, numbers, wellFormed, blockWf] <;> omega

theorem ledgerBlockRetirement x0 : Statement (.ledgerBlockRetirement x0) := by
  simp [Statement, numbers, wellFormed, blockWf] <;> omega

theorem wearMove x0 : Statement (.wearMove x0) := by
  simp [Statement, numbers, wellFormed, blockWf] <;> omega

theorem senseReferenceTrim x0 x1 x2 : Statement (.senseReferenceTrim x0 x1 x2) := by simp [Statement, numbers]

theorem postingPush x0 : Statement (.postingPush x0) := by simp [Statement, numbers]

theorem postingTake x0 x1 : Statement (.postingTake x0 x1) := by
  simp [Statement, numbers, wellFormed, cycleWf, tellerWf] <;> omega

theorem steal x0 x1 : Statement (.steal x0 x1) := by
  simp [Statement, numbers, wellFormed, cycleWf, tellerWf] <;> omega

theorem postingFinish x0 x1 : Statement (.postingFinish x0 x1) := by
  simp [Statement, numbers, wellFormed, cycleWf, tellerWf] <;> omega

theorem parityError x0 : Statement (.parityError x0) := by
  simp [Statement, numbers, wellFormed, tellerWf] <;> omega

theorem tellerSelfTest x0 : Statement (.tellerSelfTest x0) := by simp [Statement, numbers]

theorem holdRequest x0 : Statement (.holdRequest x0) := by simp [Statement, numbers]

theorem holdRelease x0 : Statement (.holdRelease x0) := by simp [Statement, numbers]

theorem branchGating x0 : Statement (.branchGating x0) := by
  simp [Statement, numbers, wellFormed, branchWf] <;> omega

theorem scratchAccess x0 : Statement (.scratchAccess x0) := by simp [Statement, numbers]

theorem bankRetirement x0 : Statement (.bankRetirement x0) := by
  simp [Statement, numbers, wellFormed, bankWf] <;> omega

theorem bankRetention x0 : Statement (.bankRetention x0) := by
  simp [Statement, numbers, wellFormed, bankWf] <;> omega

theorem sweepStep x0 x1 x2 : Statement (.sweepStep x0 x1 x2) := by
  simp [Statement, numbers, wellFormed, cycleWf] <;> omega

theorem planReady x0 x1 : Statement (.planReady x0 x1) := by
  simp [Statement, numbers, wellFormed, layoutWf] <;> omega

theorem planFlush : Statement (.planFlush) := by simp [Statement, numbers]

theorem planUnpin x0 x1 : Statement (.planUnpin x0 x1) := by
  simp [Statement, numbers, wellFormed, layoutWf] <;> omega

theorem memberCommandCompletion x0 x1 x2 : Statement (.memberCommandCompletion x0 x1 x2) := by simp [Statement, numbers]

theorem memberTimeout x0 : Statement (.memberTimeout x0) := by simp [Statement, numbers]

theorem suspectPoll x0 : Statement (.suspectPoll x0) := by
  simp [Statement, numbers, wellFormed, memberWf] <;> omega

theorem suspectLimitExpiry x0 : Statement (.suspectLimitExpiry x0) := by
  simp [Statement, numbers, wellFormed, memberWf] <;> omega

theorem discoveryMissingExpiry x0 : Statement (.discoveryMissingExpiry x0) := by
  simp [Statement, numbers, wellFormed, memberWf] <;> omega

theorem lateRead x0 x1 : Statement (.lateRead x0 x1) := by simp [Statement, numbers]

theorem mediaRepair x0 x1 x2 x3 x4 : Statement (.mediaRepair x0 x1 x2 x3 x4) := by
  simp [Statement, numbers, wellFormed, layoutWf, memberWf] <;> omega

theorem poolUpdateComplete x0 x1 x2 : Statement (.poolUpdateComplete x0 x1 x2) := by
  simp [Statement, numbers, wellFormed, layoutWf] <;> omega

theorem rebuildPassStart x0 x1 : Statement (.rebuildPassStart x0 x1) := by
  simp [Statement, numbers, wellFormed, layoutWf] <;> omega

theorem rowRestore x0 : Statement (.rowRestore x0) := by
  simp [Statement, numbers, wellFormed, passWf] <;> omega

theorem replacementDiscovered x0 x1 x2 : Statement (.replacementDiscovered x0 x1 x2) := by
  simp [Statement, numbers, wellFormed, memberWf] <;> omega

theorem registryRehome x0 : Statement (.registryRehome x0) := by
  simp [Statement, numbers, wellFormed, memberWf] <;> omega

theorem lossEntriesDurable x0 x1 : Statement (.lossEntriesDurable x0 x1) := by simp [Statement, numbers]

theorem sealRow x0 x1 x2 : Statement (.sealRow x0 x1 x2) := by
  simp [Statement, numbers, wellFormed, layoutWf] <;> omega

theorem lossAreaFull : Statement (.lossAreaFull) := by simp [Statement, numbers]

theorem localScrub x0 x1 x2 x3 : Statement (.localScrub x0 x1 x2 x3) := by
  simp [Statement, numbers, wellFormed, layoutWf] <;> omega

theorem globalScrubBatch x0 x1 x2 : Statement (.globalScrubBatch x0 x1 x2) := by
  simp [Statement, numbers, wellFormed, layoutWf] <;> omega

theorem reshapeRecordAck x0 x1 : Statement (.reshapeRecordAck x0 x1) := by
  simp [Statement, numbers, wellFormed, reshapeSlotWf] <;> omega

theorem deviceStartedReshape x0 : Statement (.deviceStartedReshape x0) := by
  simp [Statement, numbers, wellFormed, volumeWf] <;> omega

theorem regionCopy x0 : Statement (.regionCopy x0) := by
  simp [Statement, numbers, wellFormed, reshapeSlotWf] <;> omega

theorem closingEnd x0 : Statement (.closingEnd x0) := by
  simp [Statement, numbers, wellFormed, groupWf] <;> omega

theorem shelfPowerOk x0 x1 : Statement (.shelfPowerOk x0 x1) := by
  simp [Statement, numbers, wellFormed, groupWf] <;> omega

theorem staggerStep x0 : Statement (.staggerStep x0) := by
  simp [Statement, numbers, wellFormed, groupWf] <;> omega

theorem groupReady x0 : Statement (.groupReady x0) := by
  simp [Statement, numbers, wellFormed, groupWf] <;> omega

theorem spinUpLimitExpiry x0 : Statement (.spinUpLimitExpiry x0) := by
  simp [Statement, numbers, wellFormed, groupWf] <;> omega

theorem groupDown x0 : Statement (.groupDown x0) := by
  simp [Statement, numbers, wellFormed, groupWf] <;> omega

theorem broadcastChange : Statement (.broadcastChange) := by simp [Statement, numbers]

theorem discoveryRunEnd x0 x1 x2 x3 : Statement (.discoveryRunEnd x0 x1 x2 x3) := by simp [Statement, numbers]

theorem sasRetrim x0 x1 : Statement (.sasRetrim x0 x1) := by
  simp [Statement, numbers, wellFormed, sasLaneWf] <;> omega

theorem retrimDeferral x0 : Statement (.retrimDeferral x0) := by
  simp [Statement, numbers, wellFormed, sasLaneWf] <;> omega

theorem sasLaneFlag x0 : Statement (.sasLaneFlag x0) := by
  simp [Statement, numbers, wellFormed, sasLaneWf] <;> omega

theorem sasLaneNotUp x0 : Statement (.sasLaneNotUp x0) := by
  simp [Statement, numbers, wellFormed, sasLaneWf] <;> omega

theorem watchdogExpiry x0 x1 : Statement (.watchdogExpiry x0 x1) := by
  simp [Statement, numbers, wellFormed, coreWf] <;> omega

theorem operatingTimeTick : Statement (.operatingTimeTick) := by simp [Statement, numbers]

theorem sensorSample x0 : Statement (.sensorSample x0) := by simp [Statement, numbers]

theorem smbusSetAddress x0 : Statement (.smbusSetAddress x0) := by
  simp [Statement, numbers, wellFormed, registerWf] <;> omega

theorem smbusRead : Statement (.smbusRead) := by simp [Statement, numbers]

theorem smbusWrite x0 : Statement (.smbusWrite x0) := by simp [Statement, numbers]

theorem smbusResult : Statement (.smbusResult) := by simp [Statement, numbers]

theorem smbusPecError : Statement (.smbusPecError) := by simp [Statement, numbers]

theorem alertResponse : Statement (.alertResponse) := by simp [Statement, numbers]

theorem mctpControlMessage x0 : Statement (.mctpControlMessage x0) := by simp [Statement, numbers]

theorem mctpVendorRead x0 : Statement (.mctpVendorRead x0) := by
  simp [Statement, numbers, wellFormed, registerWf] <;> omega

theorem mctpVendorWrite x0 x1 : Statement (.mctpVendorWrite x0 x1) := by
  simp [Statement, numbers, wellFormed, registerWf] <;> omega

theorem daybookTrigger x0 : Statement (.daybookTrigger x0) := by
  simp [Statement, numbers, wellFormed, kindWf] <;> omega

theorem daybookRecordWrite : Statement (.daybookRecordWrite) := by simp [Statement, numbers]

theorem coalesce : Statement (.coalesce) := by simp [Statement, numbers]

theorem alertAck : Statement (.alertAck) := by simp [Statement, numbers]

theorem dbkCursorWrite x0 x1 : Statement (.dbkCursorWrite x0 x1) := by simp [Statement, numbers]

theorem fuseProgram x0 : Statement (.fuseProgram x0) := by simp [Statement, numbers]

theorem fuseRevoke : Statement (.fuseRevoke) := by simp [Statement, numbers]

theorem flashErase x0 : Statement (.flashErase x0) := by simp [Statement, numbers]

theorem flashProgram x0 : Statement (.flashProgram x0) := by simp [Statement, numbers]

theorem flashRead x0 : Statement (.flashRead x0) := by simp [Statement, numbers]

theorem flashOperationEnd : Statement (.flashOperationEnd) := by simp [Statement, numbers]

theorem courierStart x0 : Statement (.courierStart x0) := by
  simp [Statement, numbers, wellFormed, channelWf] <;> omega

theorem courierSlotWrite x0 x1 x2 x3 : Statement (.courierSlotWrite x0 x1 x2 x3) := by
  simp [Statement, numbers, wellFormed, channelWf, slotRegWf, slotWf] <;> omega

theorem shadowArm x0 : Statement (.shadowArm x0) := by
  simp [Statement, numbers, wellFormed, channelWf] <;> omega

theorem shadowWrite x0 x1 x2 x3 : Statement (.shadowWrite x0 x1 x2 x3) := by
  simp [Statement, numbers, wellFormed, channelWf, slotRegWf, slotWf] <;> omega

theorem maintenanceEnter x0 : Statement (.maintenanceEnter x0) := by
  simp [Statement, numbers, wellFormed, armWf] <;> omega

theorem maintenanceExit x0 : Statement (.maintenanceExit x0) := by
  simp [Statement, numbers, wellFormed, armWf] <;> omega

theorem burstGrant x0 x1 : Statement (.burstGrant x0 x1) := by
  simp [Statement, numbers, wellFormed, cycleWf] <;> omega

theorem slotComplete x0 : Statement (.slotComplete x0) := by
  simp [Statement, numbers, wellFormed, channelWf] <;> omega

theorem slotFault x0 x1 : Statement (.slotFault x0 x1) := by
  simp [Statement, numbers, wellFormed, channelWf, slotCodeWf] <;> omega

theorem mapLookup x0 x1 x2 x3 : Statement (.mapLookup x0 x1 x2 x3) := by
  simp [Statement, numbers, wellFormed, lookupEccWf, wayWf] <;> omega

theorem mapFillReturn x0 : Statement (.mapFillReturn x0) := by simp [Statement, numbers]

theorem mapEntryChange x0 x1 : Statement (.mapEntryChange x0 x1) := by simp [Statement, numbers]

theorem mapInvalidateLine : Statement (.mapInvalidateLine) := by simp [Statement, numbers]

theorem mapInvalidateAll : Statement (.mapInvalidateAll) := by simp [Statement, numbers]

theorem dramEccEvent x0 x1 : Statement (.dramEccEvent x0 x1) := by simp [Statement, numbers]

theorem dramRowRepair x0 x1 : Statement (.dramRowRepair x0 x1) := by simp [Statement, numbers]

theorem retirementFuse x0 x1 : Statement (.retirementFuse x0 x1) := by
  simp [Statement, numbers, wellFormed, elementWf] <;> omega

theorem pllLockLoss x0 : Statement (.pllLockLoss x0) := by simp [Statement, numbers]

theorem jtagInstructionLoad x0 : Statement (.jtagInstructionLoad x0) := by simp [Statement, numbers]

theorem registerReadClear x0 x1 : Statement (.registerReadClear x0 x1) := by
  simp [Statement, numbers, wellFormed, registerWf, sizeWf] <;> omega

theorem registerWrite x0 x1 : Statement (.registerWrite x0 x1) := by
  simp [Statement, numbers, wellFormed, registerWf, sizeWf] <;> omega

theorem linkUp x0 x1 x2 : Statement (.linkUp x0 x1 x2) := by
  simp [Statement, numbers, wellFormed, linkRateWf, linkWidthWf] <;> omega

theorem sasLaneUp x0 x1 : Statement (.sasLaneUp x0 x1) := by
  simp [Statement, numbers, wellFormed, sasLaneWf, sasRateWf] <;> omega

theorem sasLaneDown x0 : Statement (.sasLaneDown x0) := by
  simp [Statement, numbers, wellFormed, sasLaneWf] <;> omega

theorem hbSymbolLock x0 : Statement (.hbSymbolLock x0) := by simp [Statement, numbers]

theorem fuseOperationEnd : Statement (.fuseOperationEnd) := by simp [Statement, numbers]

theorem firmwareRestartEnd : Statement (.firmwareRestartEnd) := by simp [Statement, numbers]

theorem spinUpPoll x0 x1 : Statement (.spinUpPoll x0 x1) := by
  simp [Statement, numbers, wellFormed, memberWf] <;> omega

theorem notReadyRetry x0 : Statement (.notReadyRetry x0) := by simp [Statement, numbers]

theorem hostClaimEnd x0 : Statement (.hostClaimEnd x0) := by
  simp [Statement, numbers, wellFormed, groupWf] <;> omega

theorem vaultIndexWalkEnd x0 x1 : Statement (.vaultIndexWalkEnd x0 x1) := by
  simp [Statement, numbers, wellFormed, volumeWf] <;> omega

end Sys2Proof.Laws.Ranges
end

