-- ==== Sys2Proof/Laws/Tables.lean ====
section
/-! SUPPORT. What the reads of tables and lists give after the writes. -/

namespace Sys2Proof.Machine

variable {α : Type}

theorem tget_tset (d : α) (t : Tbl α) (n m : Nat) (v : α) : tget d (tset t n v) m = if n = m then v else tget d t m := by
  induction t with
  | nil => simp [tset, tget]
  | cons e r ih =>
    obtain ⟨k, w⟩ := e
    unfold tset
    by_cases hk : k = n
    · subst hk
      by_cases hm : k = m <;> simp [tget, hm]
    · by_cases hn : n < k
      · simp [hk, hn, tget]
      · by_cases hm : k = m
        · subst hm
          simp [hk, hn, tget, show ¬ n = k from fun h => hk h.symm]
        · simp [hk, hn, tget, hm, ih]

@[simp] theorem tget_tset_same (d : α) (t : Tbl α) (n : Nat) (v : α) : tget d (tset t n v) n = v := by simp [tget_tset]

theorem tget_tset_other (d : α) (t : Tbl α) {n m : Nat} (v : α) (h : n ≠ m) : tget d (tset t n v) m = tget d t m := by simp [tget_tset, h]

@[simp] theorem tget_tmod_same (d : α) (t : Tbl α) (n : Nat) (f : α → α) : tget d (tmod d t n f) n = f (tget d t n) := by simp [tmod]

theorem tget_tmod_other (d : α) (t : Tbl α) {n m : Nat} (f : α → α) (h : n ≠ m) : tget d (tmod d t n f) m = tget d t m := by simp [tmod, tget_tset, h]

/-- One change made to every number of a list without repeats. -/
theorem tget_foldl_tmod (d : α) (f : α → α) (ns : List Nat) (hd : ns.Nodup) (t : Tbl α) (m : Nat) :
    tget d (ns.foldl (fun t n => tmod d t n f) t) m = if m ∈ ns then f (tget d t m) else tget d t m := by
  induction ns generalizing t with
  | nil => simp
  | cons n ns ih =>
    rw [List.foldl_cons, ih (List.nodup_cons.mp hd).2]
    have hn := (List.nodup_cons.mp hd).1
    by_cases hm : m = n
    · subst hm
      simp [hn]
    · simp [hm, tget_tmod_other d t f (fun h => hm h.symm)]

@[simp] theorem modAt_length (f : α → α) (n : Nat) (l : List α) : (modAt f n l).length = l.length := by
  induction l generalizing n with
  | nil => simp [modAt]
  | cons a l ih => cases n <;> simp [modAt, ih]

theorem modAt_getElem? (f : α → α) (n m : Nat) (l : List α) : (modAt f n l)[m]? = if n = m then l[m]?.map f else l[m]? := by
  induction l generalizing n m with
  | nil => simp [modAt]
  | cons a l ih => cases n <;> cases m <;> simp [modAt, ih]

theorem modAt_drop_headD (f : α → α) (d : α) (n : Nat) (l : List α) (h : n < l.length) : ((modAt f n l).drop n).headD d = f ((l.drop n).headD d) := by
  induction l generalizing n with
  | nil => simp at h
  | cons a l ih => cases n with
    | zero => simp [modAt]
    | succ n => simpa [modAt] using ih n (by simpa using h)

theorem modAt_drop_headD_other (f : α → α) (d : α) {n m : Nat} (l : List α) (h : n ≠ m) : ((modAt f n l).drop m).headD d = (l.drop m).headD d := by
  induction l generalizing n m with
  | nil => simp [modAt]
  | cons a l ih => cases n <;> cases m <;> simp_all [modAt]

@[simp] theorem modIf_length (p : α → Bool) (f : α → α) (l : List α) : (modIf p f l).length = l.length := by
  induction l with
  | nil => rfl
  | cons a l ih => simp [modIf, ih]

theorem modIf_eq_map (p : α → Bool) (f : α → α) (l : List α) : modIf p f l = l.map (fun a => if p a then f a else a) := by
  induction l with
  | nil => rfl
  | cons a l ih => simp [modIf, ih]

/-- The first entry that meets p, after a change that keeps p of every entry. -/
theorem find?_modIf (p : α → Bool) (f : α → α) (hp : ∀ a, p (f a) = p a) (l : List α) : (modIf p f l).find? p = (l.find? p).map f := by
  induction l with
  | nil => rfl
  | cons a l ih => cases h : p a <;> simp [modIf, h, hp, ih]

theorem find?_modIf_other (p q : α → Bool) (f : α → α) (hq : ∀ a, p a = true → q (f a) = false) (hpq : ∀ a, p a = true → q a = false) (l : List α) :
    (modIf p f l).find? q = l.find? q := by
  induction l with
  | nil => rfl
  | cons a l ih => cases h : p a <;> simp [modIf, h, List.find?_cons, ih, hq, hpq]

theorem inc_le (cap n : Nat) : inc cap n ≤ cap := by simp [inc]

theorem inc_eq {cap n : Nat} (h : n < cap) : inc cap n = n + 1 := by simp only [inc]; omega

end Sys2Proof.Machine
end

