-- ==== Sys2Proof/Tests/Slice0.lean ====
section
/-! SUPPORT. Tests: ill-formed commands, single steps on small states with results worked out by hand from the rules, and for every hypothesis of a statement a state and operands that meet it. -/

set_option Elab.async false
set_option maxRecDepth 20000

namespace Sys2Proof.Tests
open Sys2Proof Sys2Proof.Machine

/-! ### Ill-formed commands, one for each check of WellFormed, beside a command at the last value that it lets through -/

theorem test_wf_tag : wellFormed (.read 16384) = false ∧ wellFormed (.read 16383) = true := by decide
theorem test_wf_wicket : wellFormed (.quietCommitTake 512) = false ∧ wellFormed (.quietCommitTake 511) = true := by decide
theorem test_wf_ring : wellFormed (.ringEnableSet 64) = false ∧ wellFormed (.ringEnableSet 63) = true := by decide
theorem test_wf_cycle : wellFormed (.steal 0 25600) = false ∧ wellFormed (.steal 0 25599) = true := by decide
theorem test_wf_header : wellFormed (.headerWrite 0 64 []) = false ∧ wellFormed (.headerWrite 0 63 []) = true := by decide
theorem test_wf_aperture : wellFormed (.apertureWrite 0 16384 []) = false ∧ wellFormed (.apertureWrite 0 16383 []) = true := by decide
theorem test_wf_mme : wellFormed (.interruptModeChange true false true 6) = false ∧ wellFormed (.interruptModeChange true false true 5) = true := by decide
theorem test_wf_vector : wellFormed (.vectorUnmask 65) = false ∧ wellFormed (.vectorUnmask 64) = true := by decide
theorem test_wf_source : wellFormed (.intTestFire 65) = false ∧ wellFormed (.intTestFire 64) = true := by decide
theorem test_wf_config : wellFormed (.configAccess 4096 none) = false ∧ wellFormed (.configAccess 4095 none) = true := by decide
theorem test_wf_closers : wellFormed (.perstDeassert [true, true, true]) = false ∧ wellFormed (.perstDeassert [true, true, true, false]) = true := by decide
theorem test_wf_smb_addr : wellFormed (.pwrgdRise ⟨false, false, 4, false, true, [true, true, true, true]⟩) = false := by decide
theorem test_wf_closer : wellFormed (.cut [(4, ⟨0, 0, 0, 0⟩)]) = false ∧ wellFormed (.cut [(3, ⟨0, 0, 0, 0⟩)]) = true := by decide
theorem test_wf_layout : wellFormed (.columnVerification 64) = false ∧ wellFormed (.columnVerification 63) = true := by decide
theorem test_wf_volume : wellFormed (.backgroundAudit 256) = false ∧ wellFormed (.backgroundAudit 255) = true := by decide
theorem test_wf_member : wellFormed (.suspectPoll 2048) = false ∧ wellFormed (.suspectPoll 2047) = true := by decide
theorem test_wf_group : wellFormed (.groupReady 64) = false ∧ wellFormed (.groupReady 63) = true := by decide
theorem test_wf_position : wellFormed (.witnessRecordWrite 5) = false ∧ wellFormed (.witnessRecordWrite 4) = true := by decide
theorem test_wf_phys_teller : wellFormed (.firmwareChoice .notFitted .notFitted [136]) = false ∧ wellFormed (.firmwareChoice .notFitted .notFitted [135]) = true := by decide
theorem test_wf_chain_lane : wellFormed (.laneCheckLimit 2 0) = false ∧ wellFormed (.laneCheckLimit 1 3) = false ∧ wellFormed (.laneCheckLimit 1 2) = true := by decide
theorem test_wf_sas_lane : wellFormed (.sasLaneUp 16 0) = false ∧ wellFormed (.sasLaneUp 15 16) = false ∧ wellFormed (.sasLaneUp 15 15) = true := by decide
theorem test_wf_block : wellFormed (.wearMove 36864) = false ∧ wellFormed (.wearMove 36863) = true := by decide
theorem test_wf_teller : wellFormed (.parityError 128) = false ∧ wellFormed (.parityError 127) = true := by decide
theorem test_wf_branch : wellFormed (.branchGating 16) = false ∧ wellFormed (.branchGating 15) = true := by decide
theorem test_wf_bank : wellFormed (.bankRetention 264) = false ∧ wellFormed (.bankRetention 263) = true := by decide
theorem test_wf_port : wellFormed (.sweepStep 0 [154] none) = false ∧ wellFormed (.sweepStep 0 [153] none) = true := by decide
theorem test_wf_pass : wellFormed (.rowRestore 16) = false ∧ wellFormed (.rowRestore 15) = true := by decide
theorem test_wf_reshape_slot : wellFormed (.regionCopy 4) = false ∧ wellFormed (.regionCopy 3) = true := by decide
theorem test_wf_core : wellFormed (.watchdogExpiry 3 true) = false ∧ wellFormed (.watchdogExpiry 2 true) = true := by decide
theorem test_wf_register : wellFormed (.registerReadClear 0x100_0000 8) = false ∧ wellFormed (.registerReadClear 0xFF_FFF8 8) = true := by decide
theorem test_wf_size : wellFormed (.registerReadClear 0 2) = false ∧ wellFormed (.registerReadClear 0 4) = true := by decide
theorem test_wf_kind : wellFormed (.daybookTrigger ⟨32, 0, 0, [], false⟩) = false ∧ wellFormed (.daybookTrigger ⟨31, 0, 0, [], false⟩) = true := by decide
theorem test_wf_detail : wellFormed (.daybookTrigger ⟨0, 0, 0, List.replicate 21 0, false⟩) = false := by decide
theorem test_wf_channel : wellFormed (.courierStart 16) = false ∧ wellFormed (.courierStart 15) = true := by decide
theorem test_wf_slot : wellFormed (.courierSlotWrite 0 4 0 0) = false ∧ wellFormed (.courierSlotWrite 0 3 3 0) = false ∧ wellFormed (.courierSlotWrite 0 3 2 0) = true := by decide
theorem test_wf_arm : wellFormed (.maintenanceEnter 65536) = false ∧ wellFormed (.maintenanceEnter 65535) = true := by decide
theorem test_wf_slot_code : wellFormed (.slotFault 0 0) = false ∧ wellFormed (.slotFault 0 9) = false ∧ wellFormed (.slotFault 0 8) = true := by decide
theorem test_wf_way : wellFormed (.mapLookup 0 0 16 0) = false ∧ wellFormed (.mapLookup 0 0 15 3) = false ∧ wellFormed (.mapLookup 0 0 15 2) = true := by decide
theorem test_wf_entry : wellFormed (.mapEntryChange 0 []) = false ∧ wellFormed (.mapEntryChange 0 (List.replicate 64 0)) = true := by decide
theorem test_wf_element : wellFormed (.retirementFuse 0 0) = false ∧ wellFormed (.retirementFuse 9 0) = false ∧ wellFormed (.retirementFuse 8 0) = true := by decide
theorem test_wf_link : wellFormed (.linkUp 7 8 true) = false ∧ wellFormed (.linkUp 6 3 true) = false ∧ wellFormed (.linkUp 6 8 true) = true := by decide
theorem test_wf_key : wellFormed (.digestMismatchRepair 0 []) = false ∧ wellFormed (.digestMismatchRepair 0 (List.replicate 32 0)) = true := by decide
theorem test_wf_copy : wellFormed (.vaultIndexWalkEnd 0 [2]) = false ∧ wellFormed (.vaultIndexWalkEnd 0 [1]) = true := by decide
theorem test_wf_tally : wellFormed (.tallyReceipt .chain 0 5 0 true) = false ∧ wellFormed (.tallyReceipt .chain 0 4 0 true) = true := by decide
theorem test_wf_role : wellFormed (.negotiate ⟨4, false, 0, 0⟩) = false ∧ wellFormed (.negotiate ⟨3, false, 0, 0⟩) = true := by decide
theorem test_wf_units : wellFormed (.token 0 17) = false ∧ wellFormed (.token 0 16) = true := by decide
theorem test_wf_ctl : wellFormed (.controlMessageReturn ⟨0, 256, 0, List.replicate 12 0⟩) = false ∧ wellFormed (.controlMessageReturn ⟨0, 255, 0, []⟩) = false := by decide
theorem test_wf_frame : wellFormed (.streamFrameArrival 0 ⟨true, [3], 0, [], [], none, []⟩) = false ∧ wellFormed (.streamFrameArrival 0 ⟨true, [2], 0, [], [], none, []⟩) = true := by decide
theorem test_wf_posting : wellFormed (.postingPush ⟨0, 0, [], [0], [], 0, 0, 0, none, 0, 0, false, false, false, [], true⟩) = false := by decide
theorem test_wf_access : wellFormed (.scratchAccess [⟨154, 0, none, 4, 0⟩]) = false ∧ wellFormed (.scratchAccess [⟨153, 2 ^ 26, none, 4, 0⟩]) = false := by decide
theorem test_wf_mem_req : wellFormed (.memoryRequest (.rd .control 0 0)) = false ∧ wellFormed (.memoryRequest (.wr .control 0 [])) = false := by decide
theorem test_wf_host_read : wellFormed (.hostReadCompletion (.shadow 64 0)) = false ∧ wellFormed (.hostReadCompletion (.channelError 16)) = false := by decide

/-! ### The state after reset and the words of the table -/

/-- Nothing waits, and memory with nothing listed has the canonical form. -/
theorem test_reset_empty : State.reset.pending = [] ∧ State.reset.hostMem = [] ∧ State.reset.dram = [] := by decide
theorem test_reset_shape : State.reset.Inv := by unfold State.Inv; decide
theorem test_no_words : decodeTableWord 32 0 = none ∧ State.reset.withFetchWord 32 0 = State.reset := by decide

/-! ### Small states on which the hypotheses of the statements hold -/

/-- One data column and its two syndromes, on members 0, 1 and 2. -/
def lay0 : Layout := ⟨0, 0, 0, 0, 255, 0, 256, [], [⟨1, [0, 1, 2], 1, 0, [], [0]⟩], [], []⟩

/-- Another layout of two data columns with one global syndrome, on members 3 to 7. -/
def lay1 : Layout := ⟨1, 1, 0, 0, 0, 0, 256, [], [⟨2, [3, 4, 5, 6], 1, 1, [], [0, 1]⟩], [⟨1, [7], 1, 2, [], []⟩], []⟩

def vol0 : VolumeDef := ⟨0, 0, 0, 0, 1, 64, [], []⟩

/-- A charter of one unit with two layouts and one volume. -/
def char0 : Charter :=
  { seq := 1, secVersion := 0, keyIndex := 0, floor := 0, digest := [], units := 1, subVendor := 0, subId := 0, serial0 := 1, serial1 := 2, product := []
    maxWidth := 8, maxRate := 6, wicketLog := 0, linkFlags := 2, pinFlags := 0, payload := 0, queueLimit := 16, creditStepLog := 0, defaultRings := [0]
    chainPresent := true, expectedUnits := 2, preferred := 0, auditInterval := 5, detachDelay := 0, negotiationWait := 0, volumeSet := 0
    registry := [0, 1, 2], alternates := [3], regionLog := 28, holdoff := 0, areaOffset := 0, mapCopySize := 0
    spinLimit := 0, stagger := 0, minWindow := 0, idleEnd := 0, defaultHold := 0, starvation := 0, calInterval := 0, ports := []
    groups := [], members := [], layouts := [lay0, lay1], volumes := [vol0], ignoredVolumes := []
    errorLimit := 8, errorHours := 1, suspectLog := 0, blockLimit := 8, parityLimit := 2, parityLog := 20, bankLimit := 8, bankLog := 20, wayLimit := 4, rowLimit := 4, dramRepair := true
    rebuildFloor := 0, scrubDays := 1, guard := 0, branchIdle := 0, kinds := [], envelopes := [], auditDays := 1, sessionIdleLog := 4, sessionLimit := 4, vaults := [⟨0, 8⟩] }

/-- A unit that runs: its clock locked, past start-up, its link up, one wicket Free and one ring enabled. -/
def run0 : State := { State.reset with
  charter := some char0, chip := { pwrgd := true, locked := true, step := 15 }, cfg := { memSpace := true, busMaster := true }, link := { up := true }, mgmt := { state := 0 }
  wickets := { table := [(0, { state := 1 })] }, returns := { rings := [(0, { enable := true })] } }

/-- The same unit as one of a pair. -/
def pair0 : State := { run0 with charter := some { char0 with units := 2 } }

/-- The same unit in close 100,000,000. -/
def late0 : State := { run0 with clock := { close := 100000000 } }

def com0 (op : Nat) : Cmd := { hdr := { opcode := op, tag := 1 } }

/-- A command with the bytes of its operand field. -/
def comOp (op : Nat) (bs : List Byte) : Cmd := { hdr := { opcode := op, tag := 1, op := bs } }

def work0 : Work :=
  { id := 5, kind := .destage, volume := 0, layout := 0, row := 0, step := 3, news := [], positions := [], forms := [], reads := [], staged := [], erased := [], postsLeft := 0, writes := [], recs := []
    unwritten := false, held := false, genSeen := 0, replayed := false, wants := [], outs := [], badPos := [], region := 0, needs := [] }

def verd (n : Nat) : Verdict := ⟨n, 0, 0, 0⟩

/-- The unit of run0 with one thing in the part that a statement is about. -/
def stp (n : Nat) : State := { run0 with chip := { pwrgd := true, locked := true, step := n } }
def wks (k : Wicket) : State := { run0 with wickets := { table := [(0, k)] } }
def one (c : Cmd) : State := { run0 with cmds := [c] }
def ring0 (r : Ring) : State := { run0 with returns := { rings := [(0, r)] } }
def wrk (w : Work) : State := { run0 with works := [w], nextWork := 6 }
def mcs (k : MemberCmd) (m : Member) : State := { run0 with drives := { cmds := [k], members := [(0, m)], nextCmd := 8 } }
def mbr (m : Member) : State := { run0 with drives := { members := [(0, m)] } }
def grp0 (g : Group) : State := { run0 with gov := { groups := [(0, g)] } }
def lan0 (l : SasLane) : State := { run0 with sas := [(0, l)] }
def chn (c : Channel) : State := { run0 with courier := { channels := c :: List.replicate 15 {} } }
def mp (m : MapCache) : State := { run0 with map := m }
def cls0 (c : Closers) : State := { run0 with closers := c }
def vs (l : List Verdict) : State := cls0 { verdicts := (List.range 3).zip l }
def pr (p : Pair) : State := { pair0 with pair := p }
def rec0 : Rec := { seq := 1, kind := 2, blocks := 1, bodyLen := 4096, filled := 4096, state := .landed }
def bnd0 : Band := ⟨0, 0, 0, 0, 0, false, none⟩
def hdrOk : List Byte := let b := padTo 56 [0x80, 0, 0, 0, 1, 0]; b ++ natLe 4 (crc32c b).toNat
def bk0 (t : Bool) : Book := ⟨0, verd 0, [], false, false, t⟩
def cp0 : Cmd := { hdr := { tag := 1 }, recSeq := some 1 }
def pl0 : State := { wks { state := 2, tag := 1, declared := 1, arrived := [(0, 7)] } with cmds := [cp0] }
def rd0 : Cmd := { hdr := { opcode := 1, tag := 1, blocks := 1 }, pos := ⟨0, 0, 1⟩ }
def wr0 : Cmd := { hdr := { opcode := 2, tag := 2, blocks := 1 } }
def recD : Rec := { rec0 with rows := [(0, 0)] }
def wrkR : Work := { work0 with held := true, news := [(0, 0, [])], forms := [(.p 0, false)] }
def reg0 (set covered awaiting : Bool) : Region := ⟨0, 0, set, covered, awaiting, false⟩
def lg (l : Ledger) : State := { run0 with ledger := l }
def ck0 : Ckpt := ⟨1, 0, 0, [], [], false, [], [], [], [], []⟩
def kc (op : MemberOp) (p : Purpose) : MemberCmd :=
  { id := 1, member := 0, op, addr := 0, len := 4, data := [], issued := 0, tries := 0, purpose := p, late := false, delivered := false, retryAt := none, row := none, queued := false }
def plan0 (ready : Bool) (users : List Nat) : State := { run0 with plans := { cache := [⟨0, [.d 0], ready, users, 0⟩] } }
def drv0 : FoundDrive := ⟨0, 0, 7, 0, 2 ^ 60, 4096, 4096, false, false, 2⟩
def pool0 : Pool := ⟨1, [0, 1, 2], 1, 0, [], [0]⟩
def pas0 : Pass := { state := 2, members := [0], rows := 1, extent := 4096, receivers := 2 }
def pss (p : Pass) : State := { run0 with bands := [], degrade := { passes := p :: List.replicate 15 {} } }
/-- The unit with four members of its own groups in the charter. -/
def memb0 : State := { run0 with charter := some { char0 with members := [⟨0, 1, 0, 0⟩, ⟨1, 2, 1, 0⟩, ⟨2, 3, 2, 0⟩, ⟨3, 4, 3, 0⟩] } }
def rsp0 (r : Reshape) : State := { run0 with reshapes := { slots := r :: List.replicate 3 {} }, vols := [(0, { state := 2 })] }
def post0 : Posting := ⟨1, 0, [0], [64], [], 64, 10, 0, none, 5, 0, false, false, false, [], true⟩
def tels (slots : Tbl TellerSlot) : State := { run0 with tellers := { phys := [(0, { state := 0 })], slots, store := [0, 1, 2] } }
def quiet0 : State := { cls0 { entry := 2 } with clock := { cycle := 24576 } }
def acc0 : ScrAccess := ⟨0, 0x200_0000, none, 4, 0⟩
def chk0 : List (ChunkId × List Byte) := [(.d 0, List.replicate 16384 0), (.p 0, List.replicate 16384 0), (.q 0, List.replicate 16384 0)]

theorem minOf_le (l : List Nat) : ∀ a, l.foldl min a = a ∨ l.foldl min a ∈ l := by
  induction l with
  | nil => intro a; exact .inl rfl
  | cons b r ih =>
    intro a
    rcases ih (min a b) with h | h
    · rcases Nat.le_total a b with hl | hl
      · left; rw [List.foldl_cons, h, Nat.min_eq_left hl]
      · right; rw [List.foldl_cons, h, Nat.min_eq_right hl]; exact List.mem_cons_self ..
    · right; rw [List.foldl_cons]; exact List.mem_cons_of_mem _ h

/-- A number of a list is its least. -/
theorem minOf_some (l : List Nat) (a : Nat) (h : a ∈ l) : ∃ m ∈ l, minOf l = some m := by
  cases l with
  | nil => cases h
  | cons b r =>
    rcases minOf_le r b with h | h
    · exact ⟨_, by rw [h]; exact List.mem_cons_self .., rfl⟩
    · exact ⟨_, List.mem_cons_of_mem _ h, rfl⟩

/-- A die has a block to move to when the record area has room and one of its blocks. -/
theorem freeBlock_some (s : State) (die b : Nat) (hr : areaHasFree s = true) (hb : b < 36864) (hd : (dieOf b = die && (placeOf s b).any (recordPlace ≤ ·)) = true) :
    ∃ f, freeBlock s die = some f := by
  unfold freeBlock
  rw [if_pos hr]
  obtain ⟨m, hm, he⟩ := minOf_some (((List.range 36864).filter (fun b => dieOf b = die && (placeOf s b).any (recordPlace ≤ ·))).map (blockWrites s)) (blockWrites s b)
    (List.mem_map_of_mem (List.mem_filter.2 ⟨List.mem_range.2 hb, hd⟩))
  obtain ⟨x, hx, hw⟩ := List.mem_map.1 hm
  simp only [he, Option.bind_some]
  exact Option.isSome_iff_exists.1 (List.find?_isSome.2 ⟨x, hx, by simp [hw]⟩)

/-- A table of one value at keys of a list. -/
theorem tget_const {α : Type} (d x : α) (f : Nat → Nat) (l : List Nat) (k : Nat) (h : k ∈ l.map f) : tget d (l.map (fun i => (f i, x))) k = x := by
  induction l with
  | nil => cases h
  | cons a r ih =>
    simp only [List.map_cons, tget]
    split
    · rfl
    · rename_i hn
      exact ih ((List.mem_cons.1 h).resolve_left (fun e => hn e.symm))

/-- The unit whose reserve blocks of die 0 are all retired, with block 0 due to retire. -/
def worn0 : State := lg { blocks := (0, { due := some 0 }) :: (List.range 2048).map (fun i => (32768 + 2 * i, { retired := true })) }

theorem worn0_blocks : worn0.ledger.blocks = (0, { due := some 0 }) :: (List.range 2048).map (fun i => (32768 + 2 * i, { retired := true })) := rfl

theorem tget_skip {α : Type} {d v : α} {r : Tbl α} {k n : Nat} (h : k ≠ n) : tget d ((k, v) :: r) n = tget d r n := if_neg h

theorem worn0_reserve : reserveBlock worn0 0 = none := by
  unfold reserveBlock
  rw [List.find?_eq_none]
  intro r hr
  obtain ⟨i, hi, rfl⟩ := List.mem_map.1 hr
  have hi := List.mem_range.1 hi
  by_cases he : i % 2 = 0
  · have hk : (i + 32768) ∈ (List.range 2048).map (fun i => 32768 + 2 * i) := by
      have h1 : i / 2 < 2048 := by omega
      exact List.mem_map.2 ⟨i / 2, List.mem_range.2 h1, by show 32768 + 2 * (i / 2) = i + 32768; omega⟩
    have : (blockAt worn0 (i + 32768)).retired = true := by
      unfold blockAt
      rw [worn0_blocks, tget_skip (by omega), tget_const _ _ (fun i => 32768 + 2 * i) _ _ hk]
    simp [this]
  · have : dieOf (i + 32768) ≠ 0 := by unfold dieOf; omega
    simp [this]

theorem gfScale_zeros (c : BitVec 16) (h : gfMul c 0 = 0) : ∀ n, gfScale c (List.replicate (2 * n) 0) = List.replicate (2 * n) 0
  | 0 => rfl
  | n + 1 => by
    have e : 2 * (n + 1) = 2 * n + 1 + 1 := by omega
    have hz : ((0 : Byte) ++ (0 : Byte) : BitVec 16) = 0 := by decide
    rw [e, List.replicate_succ, List.replicate_succ]
    simp only [gfScale, hz, h, gfScale_zeros c h n]
    rfl

theorem xorBytes_zeros : ∀ n, xorBytes (List.replicate n 0) (List.replicate n 0) = List.replicate n 0
  | 0 => rfl
  | n + 1 => by
    rw [List.replicate_succ]
    simp only [xorBytes, xorBytes_zeros n]
    rfl

theorem padTo_zeros (n k : Nat) : padTo n (List.replicate k 0) = List.replicate n 0 := by
  unfold padTo zeros
  rw [List.replicate_append_replicate, List.take_replicate, Nat.min_eq_left (by omega)]

/-- A chunk of zeros, position by position. -/
theorem scrubBytes_zeros (chunks : List (ChunkId × List Byte)) (c : ChunkId) (pos k : Nat) (h : ((chunks.find? (fun e => e.1 = c)).map (·.2)).getD [] = List.replicate k 0) :
    scrubBytes chunks c pos = List.replicate 4096 0 := by
  unfold scrubBytes
  rw [h, List.drop_replicate, padTo_zeros]

theorem combine_zeros (c : BitVec 16) (h : gfMul c 0 = 0) : combine 4096 [(c, List.replicate 4096 0)] = List.replicate 4096 0 := by
  show xorBytes (zeros 4096) (padTo 4096 (gfScale c (List.replicate (2 * 2048) 0))) = _
  rw [gfScale_zeros c h, padTo_zeros]
  exact xorBytes_zeros 4096

/-- The scrub of a row of zeros finds no mismatch. -/
theorem judge_zeros (pos : Nat) : judgePosition (covers lay0 (.p 0)) (scrubDeltas lay0 0 chk0 pos).1 (scrubDeltas lay0 0 chk0 pos).2 = .none := by
  have hd := scrubBytes_zeros chk0 (.d 0) pos 16384 rfl
  have hp := scrubBytes_zeros chk0 (.p 0) pos 16384 rfl
  have hq := scrubBytes_zeros chk0 (.q 0) pos 16384 rfl
  have cp : covers lay0 (.p 0) = [0] := rfl
  have cq : covers lay0 (.q 0) = [0] := rfl
  have e : scrubDeltas lay0 0 chk0 pos = (List.replicate 4096 0, List.replicate 4096 0) := by
    unfold scrubDeltas
    simp only [cp, cq, List.map_cons, List.map_nil, hd, hp, hq]
    rw [combine_zeros _ (by decide), combine_zeros _ (by decide), xorBytes_zeros]
  have z : (List.replicate 4096 (0 : Byte)).all (· = 0) = true := by
    rw [List.all_replicate]; rfl
  rw [e]
  unfold judgePosition
  simp only [z, Bool.and_self, if_true]

def memb4 (m : Member) (g : Group) : State :=
  { late0 with charter := some { char0 with members := [⟨4, 0, 0, 0⟩] }, drives := { members := [(4, m)] }, gov := { groups := [(0, g)] } }
def ses0 (size received : Nat) : Session := ⟨0, 0, List.replicate 32 0, size, 0, 0, received, [], 0, false, true⟩
def seds (c : Cmd) (x : Session) : State := { one c with vaults := { sessions := [x] }, bands := [bnd0] }
def busy0 (c : Cmd) : Cmd := { c with phase := .busy }
def obj0 : Object := ⟨List.replicate 32 0, 100, 0, 1, [], [], [], 0, 0, 0, 0, 1⟩
def vau0 (on : Bool) (os : List Object) : Vault := { online := on, objects := os }
def vst (c : Cmd) : State := { one c with vaults := { vaults := [vau0 true [obj0]] } }
def frm0 (good : Bool) (h : List (Nat × Nat)) : Frame := ⟨good, [], 0, h, [], none, []⟩
def cha (c : Chain) : State := { run0 with chain := c }
def chl (l : ChainLane) : State := cha { lanes := l :: {} :: { reserve := true } :: List.replicate 3 {} }
def trim0 (good : Bool) : Retrim := ⟨24, 30, 0, good, good⟩
def wit0 (owner : Nat) : Witness := ⟨0, owner, false, 0⟩
/-- A unit of a pair in step 8 that hears its partner, or not. -/
def neg0 (w : Option Witness) (preferred : Nat) : State :=
  { stp 8 with charter := some { char0 with units := 2, preferred }, pair := { mode := 1, chain := { run := 16 }, negotiated := some ⟨1, false, 0, 2⟩, witness := w } }
def prl (mode : Nat) (p : Pair) : State := { pr p with ledger := { mode } }
def won0 (p : Pair) : State := { pr { p with mode := 2, current := true, won := [0, 1], record := true } with clock := { close := 100000000 } }
def arb0 (p : Pair) : State := { pr p with clock := { close := 100000000 } }
def dbr0 : DbRec := ⟨2, 0, 0, [], false, 0, 0, 0, 0, [], []⟩
def fus (n : Nat) (f : Fuses) : State := { stp n with fuses := { f with arm := 0x4B52 } }
def fla (f : Flash) : State := { stp 14 with flash := f }
def xs0 : Slot := { valid := true, last := true, count := 64, srcSpace := 1, dstSpace := 1 }

/-- The one source of a run that nothing has written. -/
theorem src_zero : ∀ e ∈ [(0, Source.zero)], e.2 = .zero ∨ ∃ b p, e.2 = Source.data b p := by
  intro e he
  rw [List.mem_singleton.1 he]
  exact .inl rfl

/-! ### States and operands that meet the hypotheses of the statements, clause by clause -/

/-- EmptyQueueCountsCycles: the hypotheses of its clauses are met. -/
theorem test_meets_EmptyQueueCountsCycles :
  (∃ (s : State), s.pending = []) ∧
  (∃ (s : State), (s.pending = []) ∧ (s.chip.pwrgd = true) ∧ (s.chip.locked = true) ∧ (s.chip.testMode = false) ∧ (s.clock.cycle < 25600)) :=
  ⟨
    ⟨(run0 : State), by decide⟩,
    ⟨(run0 : State), by decide⟩⟩

/-- StepKeepsShape: the hypotheses of its clauses are met. -/
theorem test_meets_StepKeepsShape :
  (∃ (s : State) (t : State), (s.Inv) ∧ (step s = .next t)) :=
  ⟨(State.reset : State), (State.reset : State), ⟨by unfold State.Inv; decide, rfl⟩⟩

/-- FusesOnlyGrow: the hypotheses of its clauses are met. -/
theorem test_meets_FusesOnlyGrow :
  (∃ (s : State) (t : State), step s = .next t) :=
  ⟨(State.reset : State), (State.reset : State), rfl⟩

/-- PlacesOfChunks: the hypotheses of its clauses are met. -/
theorem test_meets_PlacesOfChunks :
  (∃ (l : Layout) (ch : ChunkId) (j : Nat) (i : Nat) (p : Pool), (l.roleOf ch = some (j, i)) ∧ (j < 16) ∧ (l.pool j = some p) ∧ (p.members ≠ [])) ∧
  (∃ (l : Layout) (ch : ChunkId) (j : Nat) (i : Nat) (x : Nat) (inv : Nat) (n : Nat) (p : Pool), (l.roleOf ch = some (j, i)) ∧ (j < 16) ∧ (l.pool j = some p) ∧ (n = p.members.length) ∧ (0 < n) ∧ (i < p.width + 2) ∧ (p.width + 2 ≤ n) ∧ (x < n) ∧ (p.step * inv % n = 1 % n)) ∧
  (∃ (l : Layout) (t : Nat) (k : Nat) (u : Nat) (p : Pool), (l.roleOf (.g t) = some (16 + k, u)) ∧ (l.pool (16 + k) = some p) ∧ (p.members ≠ [])) :=
  ⟨
    ⟨(lay0 : Layout), (.d 0 : ChunkId), (0 : Nat), (0 : Nat), (⟨1, [0, 1, 2], 1, 0, [], [0]⟩ : Pool), by decide⟩,
    ⟨(lay0 : Layout), (.d 0 : ChunkId), (0 : Nat), (0 : Nat), (0 : Nat), (1 : Nat), (3 : Nat), (⟨1, [0, 1, 2], 1, 0, [], [0]⟩ : Pool), by decide⟩,
    ⟨(lay1 : Layout), (1 : Nat), (0 : Nat), (0 : Nat), (⟨1, [7], 1, 2, [], []⟩ : Pool), by decide⟩⟩

/-- AccountEntryLayout: the hypotheses of its clauses are met. -/
theorem test_meets_AccountEntryLayout :
  (∃ (a : AcctLine), (a.wicket < 65536) ∧ (a.seq < 65536) ∧ (a.fate < 256) ∧ (a.opcode < 256) ∧ (a.close < 2 ^ 64)) ∧
  (∃ (s : State) (p : List Byte), pageBytes s 0x21 = some p) ∧
  (∃ (s : State) (ring : Nat) (lines : List AcctLine), ((rg s ring).enable = true) ∧ (s.returns.holding = false) ∧ (s.cfg.busMaster = true) ∧ (lines.length ≤ (rg s ring).lmax / 16)) :=
  ⟨
    ⟨(⟨0, 0, 0, 0, 0, 0, 0⟩ : AcctLine), by decide⟩,
    ⟨(run0 : State), ((pageBytes run0 0x21).getD [] : List Byte), by decide⟩,
    ⟨(run0 : State), (0 : Nat), ([] : List AcctLine), by decide⟩⟩

/-- VectorsOfSources: the hypotheses of its clauses are met. -/
theorem test_meets_VectorsOfSources :
  (∃ (c : ConfigSpace) (n : Nat), (n < 64) ∧ (intModeOf c = 3)) ∧
  (∃ (c : ConfigSpace) (n : Nat), (n < 64) ∧ (intModeOf c = 2) ∧ (c.mme ≤ 5) ∧ (2 ^ c.mme = 1)) ∧
  (∃ (c : ConfigSpace) (n : Nat), (n < 64) ∧ (intModeOf c = 2) ∧ (c.mme ≤ 5) ∧ (2 ^ c.mme ≠ 1)) ∧
  (∃ (c : ConfigSpace) (n : Nat), (n < 64) ∧ (intModeOf c = 2) ∧ (c.mme ≤ 5)) ∧
  (∃ (c : ConfigSpace) (n : _), (intModeOf c = 2) ∧ (c.mme = 3) ∧ (n < 7)) ∧
  (∃ (c : ConfigSpace), (intModeOf c = 2) ∧ (c.mme = 3)) :=
  ⟨
    ⟨({ msixEnable := true } : ConfigSpace), (0 : Nat), by decide⟩,
    ⟨({ msiEnable := true } : ConfigSpace), (0 : Nat), by decide⟩,
    ⟨({ msiEnable := true, mme := 1 } : ConfigSpace), (0 : Nat), by decide⟩,
    ⟨({ msiEnable := true, mme := 1 } : ConfigSpace), (0 : Nat), by decide⟩,
    ⟨({ msiEnable := true, mme := 3 } : ConfigSpace), 0, by decide⟩,
    ⟨({ msiEnable := true, mme := 3 } : ConfigSpace), by decide⟩⟩

/-- PowerAndFundamentalReset: the hypotheses of its clauses (PowerGoodSamplesStraps) are met. -/
theorem test_meets_PowerGoodSamplesStraps :
  (∃ (p : PowerOn) (s : State), (s.chip.pwrgd = false) ∧ (p.testEn = false)) ∧
  (∃ (p : PowerOn) (s : State), (s.chip.pwrgd = false) ∧ (p.testEn = true)) ∧
  (∃ (s : State), (s.chip.pwrgd = true) ∧ (s.chip.testMode = false) ∧ (s.chip.perst = true)) :=
  ⟨
    ⟨(⟨false, false, 0, false, true, [true, true, true, true]⟩ : PowerOn), (State.reset : State), by decide⟩,
    ⟨(⟨false, false, 0, true, true, [true, true, true, true]⟩ : PowerOn), (State.reset : State), by decide⟩,
    ⟨({ run0 with chip := { pwrgd := true, perst := true } } : State), by decide⟩⟩

/-- PowerAndFundamentalReset: the hypotheses of its clauses (PowerLossAndPerst) are met. -/
theorem test_meets_PowerLossAndPerst :
  (∃ (s : State), s.chip.pwrgd = true) ∧
  (∃ (ns : Nat) (s : State), (1000 ≤ ns) ∧ (s.chip.pwrgd = true) ∧ (s.chip.testMode = false) ∧ (s.chip.perst = false)) ∧
  (∃ (ns : Nat), ns < 1000) :=
  ⟨
    ⟨(run0 : State), by decide⟩,
    ⟨(1000 : Nat), (run0 : State), by decide⟩,
    ⟨(0 : Nat), by decide⟩⟩

/-- StartUpSteps: the hypotheses of its clauses (StepsFourAndFive) are met. -/
theorem test_meets_StepsFourAndFive :
  (∃ (a : DramFinding) (b : DramFinding) (s : State), (alive s = true) ∧ (s.chip.halted = false) ∧ (s.chip.step = 4) ∧ ((dramInUse a b).isSome = true) ∧ (s.closers.mode ≠ 2)) ∧
  (∃ (lap : Nat) (s : State), (alive s = true) ∧ (s.chip.step = 5) ∧ (s.chain.address.isSome = true) ∧ (1 ≤ lap) ∧ (lap ≤ 8)) ∧
  (∃ (s : State), (alive s = true) ∧ (s.chip.step = 5) ∧ (s.chip.stepClose + 65536 ≤ s.now)) :=
  ⟨
    ⟨(.trained 1 : DramFinding), (.notFitted : DramFinding), (stp 4 : State), by decide⟩,
    ⟨(1 : Nat), ({ stp 5 with chain := { address := some 0 } } : State), by decide⟩,
    ⟨({ stp 5 with clock := { close := 65536 } } : State), by decide⟩⟩

/-- StartUpSteps: the hypotheses of its clauses (LedgerRecoveryEndsStepSix) are met. -/
theorem test_meets_LedgerRecoveryEndsStepSix :
  (∃ (s : State), (alive s = true) ∧ (s.chip.halted = false) ∧ (s.chip.step = 6)) :=
  ⟨(stp 6 : State), by decide⟩

/-- StartUpSteps: the hypotheses of its clauses (RegistryQuorum) are met. -/
theorem test_meets_RegistryQuorum :
  (∃ (agree : List Nat) (short : List Nat) (s : State), (alive s = true) ∧ (s.chip.halted = false) ∧ (s.chip.step = 7) ∧ (majority s s.registry.agree = false) ∧ (majority s (goodMembers s agree short) = false)) ∧
  (∃ (agree : List Nat) (short : List Nat) (s : State), (alive s = true) ∧ (s.chip.halted = false) ∧ (s.chip.step = 13) ∧ (s.chip.stepClose < s.now) ∧ ((s.now - s.chip.stepClose) % 65536 = 0) ∧ (majority s (goodMembers s agree short) = true)) :=
  ⟨
    ⟨([] : List Nat), ([] : List Nat), (stp 7 : State), by decide⟩,
    ⟨([0, 1, 2] : List Nat), ([] : List Nat), ({ stp 13 with clock := { close := 65536 } } : State), by decide⟩⟩

/-- StartUpSteps: the hypotheses of its clauses (ColumnVerificationGivesResult) are met. -/
theorem test_meets_ColumnVerificationGivesResult :
  (∃ (i : Nat) (l : Layout) (s : State), (layoutOf s i = some l) ∧ (alive s = true) ∧ (s.chip.halted = false) ∧ (layoutVerified s i = false) ∧ (s.chip.step = 15) ∧ (nextUnverified s = some i)) :=
  ⟨(0 : Nat), (lay0 : Layout), (run0 : State), by decide⟩

/-- CutsAndBookEntries: the hypotheses of its clauses (CutTakesCountersignedRecords) are met. -/
theorem test_meets_CutTakesCountersignedRecords :
  (∃ (s : State), (closesRun s = true) ∧ (s.closers.mode ≠ 2) ∧ (s.closers.verdicts = []) ∧ (s.clock.cycle < 24576)) :=
  ⟨(run0 : State), by decide⟩

/-- CutsAndBookEntries: the hypotheses of its clauses (BookEntryOfAClose) are met. -/
theorem test_meets_BookEntryOfAClose :
  (∃ (s : State) (v : Verdict), (booksRun s = true) ∧ (s.closers.used = some v) ∧ (s.closers.entry = 0) ∧ (s.clock.cycle < 24576)) ∧
  (∃ (s : State), s.closers.entry = 1) ∧
  (∃ (s : State), (s.closers.entry = 1) ∧ (s.clock.cycle < 25600)) ∧
  (∃ (s : State), s.clock.cycle < 25600) :=
  ⟨
    ⟨(cls0 { used := some (verd 1) } : State), (verd 1 : Verdict), by decide⟩,
    ⟨(cls0 { entry := 1 } : State), by decide⟩,
    ⟨(cls0 { entry := 1 } : State), by decide⟩,
    ⟨(run0 : State), by decide⟩⟩

/-- CutsAndBookEntries: the hypotheses of its clauses (BookReadBack) are met. -/
theorem test_meets_BookReadBack :
  (∃ (s : State) (b : Book), unreadBook s = some b) ∧
  (∃ (s : State) (b : Book), (tornBook s = some b) ∧ (closesRun s = true) ∧ (s.clock.cycle < 24576)) ∧
  (∃ (s : State), 24576 ≤ s.clock.cycle) :=
  ⟨
    ⟨({ cls0 { books := [bk0 false] } with clock := { close := 1 } } : State), (bk0 false : Book), by decide⟩,
    ⟨(cls0 { books := [bk0 true] } : State), (bk0 true : Book), by decide⟩,
    ⟨({ run0 with clock := { cycle := 24576 } } : State), by decide⟩⟩

/-- VotesDecide: the hypotheses of its clauses (VoteTable) are met. -/
theorem test_meets_VoteTable :
  (∃ (s : State) (v : _), (closesRun s = true) ∧ (s.closers.verdicts ≠ []) ∧ (s.closers.used = none) ∧ (s.clock.cycle < 24576) ∧ (votes s = [v, v, v])) ∧
  (∃ (s : State) (v : _) (w : _), (closesRun s = true) ∧ (s.closers.verdicts ≠ []) ∧ (s.closers.used = none) ∧ (s.clock.cycle < 24576) ∧ (v ≠ w) ∧ ((votes s = [v, v, w] ∨ votes s = [v, w, v] ∨ votes s = [w, v, v]))) ∧
  (∃ (s : State) (u : _) (v : _) (w : _), (closesRun s = true) ∧ (s.closers.verdicts ≠ []) ∧ (s.closers.used = none) ∧ (s.clock.cycle < 24576) ∧ (u ≠ v) ∧ (v ≠ w) ∧ (u ≠ w) ∧ (votes s = [u, v, w])) ∧
  (∃ (s : State) (v : _), (closesRun s = true) ∧ (s.closers.verdicts ≠ []) ∧ (s.closers.used = none) ∧ (s.clock.cycle < 24576) ∧ (votes s = [v, v])) ∧
  (∃ (s : State) (v : _) (w : _), (closesRun s = true) ∧ (s.closers.verdicts ≠ []) ∧ (s.closers.used = none) ∧ (s.clock.cycle < 24576) ∧ (v ≠ w) ∧ (votes s = [v, w])) :=
  ⟨
    ⟨(vs [verd 1, verd 1, verd 1] : State), verd 1, by decide⟩,
    ⟨(vs [verd 1, verd 1, verd 2] : State), verd 1, verd 2, by decide⟩,
    ⟨(vs [verd 1, verd 2, verd 3] : State), verd 1, verd 2, verd 3, by decide⟩,
    ⟨(vs [verd 1, verd 1] : State), verd 1, by decide⟩,
    ⟨(vs [verd 1, verd 2] : State), verd 1, verd 2, by decide⟩⟩

/-- VotesDecide: the hypotheses of its clauses (DisagreementsAreCounted) are met. -/
theorem test_meets_DisagreementsAreCounted :
  (∃ (s : State) (v : Verdict), (closesRun s = true) ∧ (s.closers.verdicts ≠ []) ∧ (s.closers.used = none) ∧ (s.clock.cycle < 24576) ∧ (voteOutcome (votes s) = some v) ∧ ((s.closers.verdicts.map (fun e => e.1)).Nodup) ∧ (s.closers.units.length = 4)) :=
  ⟨(vs [verd 1, verd 1, verd 2] : State), (verd 1 : Verdict), by decide⟩

/-- VotesDecide: the hypotheses of its clauses (HaltingVote) are met. -/
theorem test_meets_HaltingVote :
  (∃ (s : State), (closesRun s = true) ∧ (s.closers.verdicts ≠ []) ∧ (s.closers.used = none) ∧ (s.clock.cycle < 24576) ∧ (voteOutcome (votes s) = none)) :=
  ⟨(vs [verd 1, verd 2, verd 3] : State), by decide⟩

/-- BoundariesLandCloses: the hypotheses of its clauses (BoundaryOpensAClose) are met. -/
theorem test_meets_BoundaryOpensAClose :
  (∃ (s : State), closesRun s = true) ∧
  (∃ (s : State), (s.chip.pwrgd = true) ∧ (s.chip.testMode = false) ∧ (s.chip.locked = true) ∧ (s.chip.halted = true)) :=
  ⟨
    ⟨(run0 : State), by decide⟩,
    ⟨({ run0 with chip := { pwrgd := true, locked := true, halted := true } } : State), by decide⟩⟩

/-- BoundariesLandCloses: the hypotheses of its clauses (OnlyACompleteEntryLands) are met. -/
theorem test_meets_OnlyACompleteEntryLands :
  (∃ (s : State), s.closers.entry ≠ 2) ∧
  (∃ (s : State), s.closers.entry = 2) :=
  ⟨
    ⟨(run0 : State), by decide⟩,
    ⟨(cls0 { entry := 2 } : State), by decide⟩⟩

/-- CommitsAreJudged: the hypotheses of its clauses (HeaderWriteStores) are met. -/
theorem test_meets_HeaderWriteStores :
  (∃ (w : Nat) (off : Nat) (data : Lanes) (s : State), (writesTaken s = true) ∧ (w < wicketCount s) ∧ (off + data.length ≤ 60) ∧ (0 < data.length) ∧ (Memory.wf 0 (wk s w).hdr = true)) :=
  ⟨(0 : Nat), (0 : Nat), ([some 1] : Lanes), (run0 : State), by decide⟩

/-- CommitsAreJudged: the hypotheses of its clauses (CommitIsJudged) are met. -/
theorem test_meets_CommitIsJudged :
  (∃ (t : Nat) (w : Nat) (seq : Nat) (s : State), let b := Memory.readN 0 (wk s w).hdr 0 60; (writesTaken s = true) ∧ (w < wicketCount s) ∧ (seq < 65536) ∧ (t < 24576) ∧ (s.clock.cycle < 24576) ∧ (((wk s w).rState = 0 ∨ seq ≠ (wk s w).lastArrived)) ∧ (judgment s w seq b = none)) ∧
  (∃ (t : Nat) (w : Nat) (seq : Nat) (s : State) (st : _) (de : _), let b := Memory.readN 0 (wk s w).hdr 0 60; (writesTaken s = true) ∧ (w < wicketCount s) ∧ (seq < 65536) ∧ (t < 24576) ∧ (s.clock.cycle < 24576) ∧ (((wk s w).rState = 0 ∨ seq ≠ (wk s w).lastArrived)) ∧ (judgment s w seq b = some (st, de))) :=
  ⟨
    ⟨(0 : Nat), (0 : Nat), (1 : Nat), (wks { state := 1, hdr := Memory.ofBytes hdrOk } : State), by decide⟩,
    ⟨(0 : Nat), (0 : Nat), (5 : Nat), (run0 : State), 0x10, 2, by decide⟩⟩

/-- CommitsAreJudged: the hypotheses of its clauses (CommitsThatWait) are met. -/
theorem test_meets_CommitsThatWait :
  (∃ (w : Nat) (seq : Nat) (s : State), (writesTaken s = true) ∧ (w < wicketCount s) ∧ (seq < 65536) ∧ ((wk s w).rState ≠ 0) ∧ (seq = (wk s w).lastArrived)) ∧
  (∃ (t : Nat) (w : Nat) (seq : Nat) (s : State), (writesTaken s = true) ∧ (w < wicketCount s) ∧ (seq < 65536) ∧ (((wk s w).rState = 0 ∨ seq ≠ (wk s w).lastArrived)) ∧ (t < 25600) ∧ (24576 ≤ t)) ∧
  (∃ (w : Nat) (q : List (Nat × List Byte)) (e : Nat × List Byte) (s : State), (s.quiet = false) ∧ ((wk s w).waitingCommits = q ++ [e])) :=
  ⟨
    ⟨(0 : Nat), (5 : Nat), (wks { state := 1, rState := 1, lastArrived := 5 } : State), by decide⟩,
    ⟨(24576 : Nat), (0 : Nat), (1 : Nat), (run0 : State), by decide⟩,
    ⟨(0 : Nat), ([] : List (Nat × List Byte)), ((1, []) : Nat × List Byte), (wks { state := 1, waitingCommits := [(1, [])] } : State), by decide⟩⟩

/-- CommitsAreJudged: the hypotheses of its clauses (JudgmentOrder) are met. -/
theorem test_meets_JudgmentOrder :
  (∃ (s : State) (w : Nat) (seq : Nat) (b : List Byte), let k := wk s w; let h := parseHdr b; let ring := if h.ring = 0xFFFF then s.ch (fun c => c.defaultRings.getD w 0) 0 else h.ring; (judgment s w seq b = none)) ∧
  (∃ (s : State) (w : Nat) (b : List Byte), let k := wk s w; let h := parseHdr b; let ring := if h.ring = 0xFFFF then s.ch (fun c => c.defaultRings.getD w 0) 0 else h.ring; (k.state = 0)) ∧
  (∃ (s : State) (w : Nat) (b : List Byte), let k := wk s w; let h := parseHdr b; let ring := if h.ring = 0xFFFF then s.ch (fun c => c.defaultRings.getD w 0) 0 else h.ring; (k.state = 3)) ∧
  (∃ (s : State) (w : Nat) (b : List Byte), let k := wk s w; let h := parseHdr b; let ring := if h.ring = 0xFFFF then s.ch (fun c => c.defaultRings.getD w 0) 0 else h.ring; (k.state = 2)) ∧
  (∃ (s : State) (w : Nat) (seq : Nat) (b : List Byte), let k := wk s w; let h := parseHdr b; let ring := if h.ring = 0xFFFF then s.ch (fun c => c.defaultRings.getD w 0) 0 else h.ring; (k.state = 1) ∧ (seq ≠ (k.lastSeq + 1) % 65536)) ∧
  (∃ (s : State) (w : Nat) (seq : Nat) (b : List Byte), let k := wk s w; let h := parseHdr b; let ring := if h.ring = 0xFFFF then s.ch (fun c => c.defaultRings.getD w 0) 0 else h.ring; (k.state = 1) ∧ (seq = (k.lastSeq + 1) % 65536) ∧ ((crc32c (b.take 56)).toNat ≠ le b 56 4)) :=
  ⟨
    ⟨(wks { state := 1 } : State), (0 : Nat), (1 : Nat), (hdrOk : List Byte), by decide⟩,
    ⟨(wks {} : State), (0 : Nat), ([] : List Byte), by decide⟩,
    ⟨(wks { state := 3 } : State), (0 : Nat), ([] : List Byte), by decide⟩,
    ⟨(wks { state := 2 } : State), (0 : Nat), ([] : List Byte), by decide⟩,
    ⟨(wks { state := 1 } : State), (0 : Nat), (5 : Nat), ([] : List Byte), by decide⟩,
    ⟨(wks { state := 1 } : State), (0 : Nat), (1 : Nat), ([1] : List Byte), by decide⟩⟩

/-- PayloadAndCredit: the hypotheses of its clauses (ApertureByteHasOneIndex) are met. -/
theorem test_meets_ApertureByteHasOneIndex :
  (∃ (w : Nat) (o : Nat) (i : Nat) (s : State), (writesTaken s = true) ∧ (w < wicketCount s) ∧ ((wk s w).state = 2) ∧ ((wk s w).intentWritten = true) ∧ ((wk s w).taken ≤ i) ∧ (i < (wk s w).taken + 16384) ∧ (i % 16384 = o) ∧ (i < (wk s w).declared)) ∧
  (∃ (w : Nat) (o : Nat) (i : Nat) (s : State), (writesTaken s = true) ∧ (w < wicketCount s) ∧ ((wk s w).state = 2) ∧ ((wk s w).intentWritten = true) ∧ ((wk s w).taken < (wk s w).declared) ∧ ((wk s w).taken ≤ i) ∧ (i < (wk s w).taken + 16384) ∧ (i % 16384 = o) ∧ ((wk s w).declared ≤ i)) ∧
  (∃ (w : Nat) (data : Lanes) (s : State), (writesTaken s = true) ∧ (w < wicketCount s) ∧ ((wk s w).state = 1) ∧ (data ≠ [])) ∧
  (∃ (w : Nat) (s : State), (wk s w).state = 0) :=
  ⟨
    ⟨(0 : Nat), (0 : Nat), (0 : Nat), (wks { state := 2, intentWritten := true, declared := 1 } : State), by decide⟩,
    ⟨(0 : Nat), (1 : Nat), (1 : Nat), (wks { state := 2, intentWritten := true, declared := 1 } : State), by decide⟩,
    ⟨(0 : Nat), ([some 1] : Lanes), (run0 : State), by decide⟩,
    ⟨(0 : Nat), (wks {} : State), by decide⟩⟩

/-- PayloadAndCredit: the hypotheses of its clauses (PayloadGoesIntoTheLedger) are met. -/
theorem test_meets_PayloadGoesIntoTheLedger :
  (∃ (w : Nat) (n : Nat) (q : Nat) (c : Cmd) (s : State), let run := arrivedRun (wk s w).arrived (wk s w).taken (min n ((wk s w).declared - (wk s w).taken)); (s.quiet = false) ∧ (s.chip.halted = false) ∧ ((wk s w).state = 2) ∧ (findCmd s (wk s w).tag = some c) ∧ (c.wicket = w) ∧ (c.cseq = (wk s w).cseq) ∧ (c.failed = false) ∧ (c.recSeq = some q) ∧ (run ≠ []) ∧ (run.length ≤ roomLeft s / 64 * 64)) ∧
  (∃ (w : Nat) (n : Nat) (q : Nat) (c : Cmd) (s : State), let run := arrivedRun (wk s w).arrived (wk s w).taken (min n ((wk s w).declared - (wk s w).taken)); (s.quiet = false) ∧ (s.chip.halted = false) ∧ ((wk s w).state = 2) ∧ (findCmd s (wk s w).tag = some c) ∧ (c.wicket = w) ∧ (c.cseq = (wk s w).cseq) ∧ (c.failed = false) ∧ (c.recSeq = some q) ∧ (run ≠ []) ∧ (roomLeft s < 64)) ∧
  (∃ (s : State), s.quiet = true) ∧
  (∃ (s : State), roomLeft s ≠ 0) :=
  ⟨
    ⟨(0 : Nat), (1 : Nat), (1 : Nat), (cp0 : Cmd), (pl0 : State), by decide⟩,
    ⟨(0 : Nat), (1 : Nat), (1 : Nat), (cp0 : Cmd), ({ pl0 with ledger := { recordBlocks := 0 } } : State), by decide⟩,
    ⟨({ run0 with clock := { cycle := 24576 } } : State), by decide⟩,
    ⟨(run0 : State), by decide⟩⟩

/-- PayloadAndCredit: the hypotheses of its clauses (QueueResetIsRequested) are met. -/
theorem test_meets_QueueResetIsRequested :
  (∃ (w : Nat) (s : State), (writesTaken s = true) ∧ (w < wicketCount s) ∧ ((wk s w).state ≠ 0)) ∧
  (∃ (s : State), writesTaken s = true) ∧
  (∃ (w : Nat) (s : State), (writesTaken s = true) ∧ (wicketCount s ≤ w)) :=
  ⟨
    ⟨(0 : Nat), (run0 : State), by decide⟩,
    ⟨(run0 : State), by decide⟩,
    ⟨(1 : Nat), (run0 : State), by decide⟩⟩

/-- PayloadAndCredit: the hypotheses of its clauses (CreditLinesAreEnabled) are met. -/
theorem test_meets_CreditLinesAreEnabled :
  (∃ (s : State), (writesTaken s = true) ∧ (s.wickets.creditEnable = false)) ∧
  (∃ (s : State), s.wickets.creditEnable = true) :=
  ⟨
    ⟨(run0 : State), by decide⟩,
    ⟨({ run0 with wickets := { creditEnable := true } } : State), by decide⟩⟩

/-- ReturnRings: the hypotheses of its clauses (RingEntryIsWritten) are met. -/
theorem test_meets_RingEntryIsWritten :
  (∃ (n : Nat) (e : Entry) (q : List Entry) (s : State), let r := rg s n; let total := 64 + ceilDiv e.len 64 * 64; (s.chip.halted = false) ∧ (s.returns.holding = false) ∧ (s.cfg.busMaster = true) ∧ (r.queue = e :: q) ∧ (e.kind = 2) ∧ (e.opcode ≠ 5) ∧ (e.final = none) ∧ (r.tail + total ≤ 2 ^ r.sizeLog) ∧ (total ≤ (r.head + 2 * 2 ^ r.sizeLog - r.tail - 64) % 2 ^ r.sizeLog) ∧ (r.unraised + 1 < r.irqCount)) :=
  ⟨(0 : Nat), ({ kind := 2 } : Entry), ([] : List Entry), (ring0 { queue := [{ kind := 2 }], irqCount := 2 } : State), by decide⟩

/-- ReturnRings: the hypotheses of its clauses (RingWaitsForRoom) are met. -/
theorem test_meets_RingWaitsForRoom :
  (∃ (n : Nat) (e : Entry) (q : List Entry) (s : State), let r := rg s n; let total := 64 + ceilDiv e.len 64 * 64; (s.chip.halted = false) ∧ (s.returns.holding = false) ∧ (s.cfg.busMaster = true) ∧ (r.queue = e :: q) ∧ (r.tail + total ≤ 2 ^ r.sizeLog) ∧ ((r.head + 2 * 2 ^ r.sizeLog - r.tail - 64) % 2 ^ r.sizeLog < total)) ∧
  (∃ (s : State), ((s.chip.halted = true ∨ s.returns.holding = true ∨ s.cfg.busMaster = false)) ∧ (s.returns.draining = false)) :=
  ⟨
    ⟨(0 : Nat), ({ kind := 2 } : Entry), ([] : List Entry), (ring0 { queue := [{ kind := 2 }], head := 64 } : State), by decide⟩,
    ⟨({ run0 with cfg := {} } : State), by decide⟩⟩

/-- ReturnRings: the hypotheses of its clauses (HeadValueIsChecked) are met. -/
theorem test_meets_HeadValueIsChecked :
  (∃ (n : Nat) (v : Nat) (s : State), let valid := fun (r : Ring) (v : Nat) => v % 64 = 0 ∧ v < 2 ^ r.sizeLog ∧ (v + 2 ^ r.sizeLog - r.head) % 2 ^ r.sizeLog ≤ (r.tail + 2 ^ r.sizeLog - r.head) % 2 ^ r.sizeLog; (writesTaken s = true) ∧ (n < 64) ∧ (valid (rg s n) v)) ∧
  (∃ (n : Nat) (v : Nat) (s : State), let valid := fun (r : Ring) (v : Nat) => v % 64 = 0 ∧ v < 2 ^ r.sizeLog ∧ (v + 2 ^ r.sizeLog - r.head) % 2 ^ r.sizeLog ≤ (r.tail + 2 ^ r.sizeLog - r.head) % 2 ^ r.sizeLog; (writesTaken s = true) ∧ (n < 64) ∧ (¬ valid (rg s n) v)) ∧
  (∃ (n : Nat) (v : Nat) (s : State), let valid := fun (r : Ring) (v : Nat) => v % 64 = 0 ∧ v < 2 ^ r.sizeLog ∧ (v + 2 ^ r.sizeLog - r.head) % 2 ^ r.sizeLog ≤ (r.tail + 2 ^ r.sizeLog - r.head) % 2 ^ r.sizeLog; ((rg s n).fetching = true) ∧ (s.cfg.busMaster = true) ∧ (v < 2 ^ 64) ∧ (valid (rg s n) v)) ∧
  (∃ (n : Nat) (len : Nat) (s : State), let valid := fun (r : Ring) (v : Nat) => v % 64 = 0 ∧ v < 2 ^ r.sizeLog ∧ (v + 2 ^ r.sizeLog - r.head) % 2 ^ r.sizeLog ≤ (r.tail + 2 ^ r.sizeLog - r.head) % 2 ^ r.sizeLog; (n < s.courier.channels.length) ∧ ((chan s n).hostRead = some len) ∧ ((mastersOff s = false ∨ n < 12))) :=
  ⟨
    ⟨(0 : Nat), (0 : Nat), (run0 : State), by decide⟩,
    ⟨(0 : Nat), (1 : Nat), (run0 : State), by decide⟩,
    ⟨(0 : Nat), (0 : Nat), (ring0 { fetching := true } : State), by decide⟩,
    ⟨(0 : Nat), (1 : Nat), (chn { hostRead := some 1 } : State), by decide⟩⟩

/-- ReturnRings: the hypotheses of its clauses (RingEnable) are met. -/
theorem test_meets_RingEnable :
  (∃ (n : Nat) (s : State), (writesTaken s = true) ∧ (n < 64) ∧ ((rg s n).enable = false)) ∧
  (∃ (n : Nat) (s : State), (writesTaken s = true) ∧ (n < 64) ∧ ((rg s n).enable = true)) ∧
  (∃ (n : Nat) (s : State), (writesTaken s = true) ∧ (n < 64) ∧ ((rg s n).enable = true) ∧ (ringBusy s n = true)) ∧
  (∃ (n : Nat) (s : State), (writesTaken s = true) ∧ (n < 64) ∧ ((rg s n).enable = true) ∧ (ringBusy s n = false)) :=
  ⟨
    ⟨(0 : Nat), (ring0 {} : State), by decide⟩,
    ⟨(0 : Nat), (run0 : State), by decide⟩,
    ⟨(0 : Nat), (one {} : State), by decide⟩,
    ⟨(0 : Nat), (run0 : State), by decide⟩⟩

/-- HoldAndInterrupts: the hypotheses of its clauses (BusMasterHold) are met. -/
theorem test_meets_BusMasterHold :
  (∃ (s : State), (s.cfg.busMaster = true) ∧ (s.returns.holding = false)) ∧
  (∃ (s : State), (s.cfg.busMaster = false) ∧ (s.cfg.powerState = 0)) ∧
  (∃ (s : State), (s.cfg.busMaster = false) ∧ (s.cfg.powerState ≠ 0)) :=
  ⟨
    ⟨(run0 : State), by decide⟩,
    ⟨({ run0 with cfg := {} } : State), by decide⟩,
    ⟨({ run0 with cfg := { powerState := 3 } } : State), by decide⟩⟩

/-- HoldAndInterrupts: the hypotheses of its clauses (ParkedNoticeOnce) are met. -/
theorem test_meets_ParkedNoticeOnce :
  (∃ (tag : Nat) (c : Cmd) (s : State), (findCmd s tag = some c) ∧ (c.phase = .parked) ∧ (c.noticeSent = false) ∧ ((rg s c.ring).enable = true) ∧ (s.returns.holding = false) ∧ (s.cfg.busMaster = true)) ∧
  (∃ (tag : Nat) (c : Cmd) (s : State), (findCmd s tag = some c) ∧ (c.noticeSent = true)) :=
  ⟨
    ⟨(1 : Nat), ({ hdr := { tag := 1 }, phase := .parked } : Cmd), (one { hdr := { tag := 1 }, phase := .parked } : State), by decide⟩,
    ⟨(1 : Nat), ({ hdr := { tag := 1 }, noticeSent := true } : Cmd), (one { hdr := { tag := 1 }, noticeSent := true } : State), by decide⟩⟩

/-- HoldAndInterrupts: the hypotheses of its clauses (InterruptSources) are met. -/
theorem test_meets_InterruptSources :
  (∃ (n : Nat) (s : State), (n < 64) ∧ ((rg s n).irqDelay ≠ 0) ∧ (0 < (rg s n).unraised) ∧ ((rg s n).oldest + (rg s n).irqDelay ≤ s.now)) ∧
  (∃ (n : Nat) (s : State), (rg s n).irqDelay = 0) ∧
  (∃ (s : State), writesTaken s = true) ∧
  (∃ (n : Nat) (s : State), (writesTaken s = true) ∧ (n < 64)) :=
  ⟨
    ⟨(0 : Nat), ({ ring0 { irqDelay := 1, unraised := 1 } with clock := { close := 1 } } : State), by decide⟩,
    ⟨(0 : Nat), (run0 : State), by decide⟩,
    ⟨(run0 : State), by decide⟩,
    ⟨(0 : Nat), (run0 : State), by decide⟩⟩

/-- HoldAndInterrupts: the hypotheses of its clauses (InterruptModeAndMask) are met. -/
theorem test_meets_InterruptModeAndMask :
  (∃ (s : State), s.chip.step ≠ 14) ∧
  (∃ (v : Nat) (s : State), (v < 65) ∧ (s.cfg.msixEnable = true)) ∧
  (∃ (v : Nat) (s : State), (v < 65) ∧ (s.cfg.msixEnable = true) ∧ (s.chip.step ≠ 14) ∧ (s.ints.mode = 3) ∧ (s.cfg.functionMask = false) ∧ (canSend s = true) ∧ (v ∈ activeVectors s) ∧ (v ∈ s.ints.active) ∧ (v ∈ s.ints.pba)) ∧
  (∃ (v : Nat) (s : State), (v < 32) ∧ (s.cfg.msixEnable = false)) :=
  ⟨
    ⟨(run0 : State), by decide⟩,
    ⟨(0 : Nat), ({ run0 with cfg := { msixEnable := true } } : State), by decide⟩,
    ⟨(0 : Nat), ({ run0 with cfg := { msixEnable := true, busMaster := true }, ints := { ringPending := 1, mode := 3, active := [0], pba := [0] } } : State), by decide⟩,
    ⟨(0 : Nat), (run0 : State), by decide⟩⟩

/-- ResetsOfTheHost: the hypotheses of its clauses (ResetBegins) are met. -/
theorem test_meets_ResetBegins :
  (∃ (s : State), (alive s = true) ∧ (s.resets.kind = 0) ∧ (s.link.up = true)) ∧
  (∃ (s : State), (alive s = true) ∧ (s.resets.kind = 0)) ∧
  (∃ (s : State), (alive s = true) ∧ (s.resets.kind = 2)) :=
  ⟨
    ⟨(run0 : State), by decide⟩,
    ⟨(run0 : State), by decide⟩,
    ⟨({ run0 with resets := { kind := 2 } } : State), by decide⟩⟩

/-- ResetsOfTheHost: the hypotheses of its clauses (ResetCompletes) are met. -/
theorem test_meets_ResetCompletes :
  (∃ (s : State), (s.clock.cycle = 0) ∧ (resetReady s = true)) :=
  ⟨({ run0 with clock := { close := 2 }, resets := { kind := 1, accounted := true } } : State), by decide⟩

/-- PowerStates: the hypotheses of its clauses (PowerStateWrites) are met. -/
theorem test_meets_PowerStateWrites :
  (∃ (s : State), (alive s = true) ∧ (s.resets.kind = 0) ∧ (s.cfg.powerState = 0)) ∧
  (∃ (s : State), (alive s = true) ∧ (s.resets.kind = 0) ∧ (s.cfg.powerState ≠ 0) ∧ (s.power.state = 3)) ∧
  (∃ (s : State), (alive s = true) ∧ (s.resets.kind = 0) ∧ (s.cfg.powerState ≠ 0) ∧ (s.power.state ≠ 3) ∧ (s.power.entryPending = true) ∧ (s.cfg.busMaster = false)) :=
  ⟨
    ⟨(run0 : State), by decide⟩,
    ⟨({ run0 with cfg := { powerState := 3 }, power := { state := 3 } } : State), by decide⟩,
    ⟨({ run0 with cfg := { powerState := 3 }, power := { entryPending := true } } : State), by decide⟩⟩

/-- PowerStates: the hypotheses of its clauses (LowPowerEntry) are met. -/
theorem test_meets_LowPowerEntry :
  (∃ (s : State), (s.clock.cycle = 0) ∧ (dormantReady s = true)) ∧
  (∃ (tag : Nat) (c : Cmd) (s : State), (s.clock.cycle = 0) ∧ (s.power.entryTag = some tag) ∧ (findCmd s tag = some c) ∧ (restReady s tag = true)) ∧
  (∃ (tag : Nat) (c : Cmd) (s : State), (s.clock.cycle = 0) ∧ (s.power.entryTag = some tag) ∧ (findCmd s tag = some c) ∧ (restReady s tag = false) ∧ (c.named < s.now)) :=
  ⟨
    ⟨({ run0 with cfg := { powerState := 3 } } : State), by decide⟩,
    ⟨(1 : Nat), (com0 0x87 : Cmd), ({ one (com0 0x87) with power := { entryTag := some 1 } } : State), by decide⟩,
    ⟨(1 : Nat), (com0 0x87 : Cmd), ({ run0 with cmds := [com0 0x87, wr0], power := { entryTag := some 1 }, clock := { close := 1 } } : State), by decide⟩⟩

/-- PowerStates: the hypotheses of its clauses (WakeAndL1) are met. -/
theorem test_meets_WakeAndL1 :
  (∃ (s : State), (s.power.state = 3) ∧ (sensorAlarm s = true)) ∧
  (∃ (s : State), (s.power.state = 3) ∧ (s.ledger.refuse = true)) ∧
  (∃ (s : State), (s.power.state = 3) ∧ (0 < s.pair.chain.misses)) ∧
  (∃ (s : State), s.power.state ≠ 3) ∧
  (∃ (idle : Nat) (s : State), (alive s = true) ∧ (s.link.up = true) ∧ (bit (s.ch (·.linkFlags) 0) 1 = true) ∧ (bit s.cfg.aspm 1 = true) ∧ (64000 ≤ idle)) ∧
  (∃ (s : State), bit s.cfg.aspm 1 = false) :=
  ⟨
    ⟨({ run0 with power := { state := 3 }, sensors := { units := [(0, { level := 3 })] } } : State), by decide⟩,
    ⟨({ run0 with power := { state := 3 }, ledger := { refuse := true } } : State), by decide⟩,
    ⟨({ run0 with power := { state := 3 }, pair := { chain := { misses := 1 } } } : State), by decide⟩,
    ⟨(run0 : State), by decide⟩,
    ⟨(64000 : Nat), ({ run0 with cfg := { aspm := 2 } } : State), by decide⟩,
    ⟨(run0 : State), by decide⟩⟩

/-- PowerStates: the hypotheses of its clauses (LinkComesUp) are met. -/
theorem test_meets_LinkComesUp :
  (∃ (s : State), (alive s = true) ∧ (s.link.up = false) ∧ (4 ≤ s.chip.step)) ∧
  (∃ (s : State), s.chip.step < 4) ∧
  (∃ (rate : Nat) (width : Nat) (s : State), (alive s = true) ∧ (s.link.training = true) ∧ (1 ≤ rate) ∧ (rate < 6) ∧ (rate ≤ linkRate s) ∧ (width ∈ [1, 2, 4, 8]) ∧ (width ≤ linkWidth s)) ∧
  (∃ (width : Nat) (s : State), (alive s = true) ∧ (s.link.training = true) ∧ (6 ≤ linkRate s) ∧ (width ∈ [1, 2, 4, 8]) ∧ (width ≤ linkWidth s)) ∧
  (∃ (rate : Nat) (width : Nat) (s : State), (linkRate s < rate ∨ linkWidth s < width)) :=
  ⟨
    ⟨({ run0 with link := {} } : State), by decide⟩,
    ⟨(stp 3 : State), by decide⟩,
    ⟨(1 : Nat), (1 : Nat), ({ run0 with link := { training := true } } : State), by decide⟩,
    ⟨(1 : Nat), ({ run0 with link := { training := true } } : State), by decide⟩,
    ⟨(7 : Nat), (1 : Nat), (run0 : State), by decide⟩⟩

/-- WindowsAndRegisters: the hypotheses of its clauses (ConfigurationSpace) are met. -/
theorem test_meets_ConfigurationSpace :
  (∃ (off : Nat) (s : State), (alive s = true) ∧ (s.link.up = true) ∧ (s.resets.kind = 0) ∧ (off < 4096)) ∧
  (∃ (v : Nat) (s : State), (alive s = true) ∧ (s.link.up = true) ∧ (s.resets.kind = 0) ∧ (v < 2 ^ 32)) ∧
  (∃ (s : State), (alive s = true) ∧ (s.link.up = true) ∧ (s.resets.kind ≠ 0)) ∧
  (∃ (s : State), s.link.up = false) :=
  ⟨
    ⟨(0 : Nat), (run0 : State), by decide⟩,
    ⟨(0 : Nat), (run0 : State), by decide⟩,
    ⟨({ run0 with resets := { kind := 1 } } : State), by decide⟩,
    ⟨({ run0 with link := {} } : State), by decide⟩⟩

/-- WindowsAndRegisters: the hypotheses of its clauses (WindowRequests) are met. -/
theorem test_meets_WindowRequests :
  (∃ (s : State), windowOpen s = false) ∧
  (∃ (off : Nat) (len : Nat) (s : State), (windowOpen s = true) ∧ (inRecovery s = false) ∧ (off + len ≤ windowSize s .wicket)) ∧
  (∃ (w : Window) (off : Nat) (len : Nat) (s : State), (windowOpen s = true) ∧ (windowSize s w < off + len)) ∧
  (∃ (off : Nat) (s : State), (windowOpen s = true) ∧ (commitsWait s = true) ∧ (off + 8 ≤ 0x20_0000)) :=
  ⟨
    ⟨({ run0 with cfg := {} } : State), by decide⟩,
    ⟨(0 : Nat), (0 : Nat), (run0 : State), by decide⟩,
    ⟨(.control : Window), (0x200000 : Nat), (1 : Nat), (run0 : State), by decide⟩,
    ⟨(0 : Nat), (wks { waitingCommits := [(1, [])] } : State), by decide⟩⟩

/-- WindowsAndRegisters: the hypotheses of its clauses (RegisterReads) are met. -/
theorem test_meets_RegisterReads :
  (∃ (a : Nat) (s : State), (windowOpen s = true) ∧ (commitsWait s = false) ∧ (a % 8 = 0) ∧ (a + 8 ≤ 0x20_0000) ∧ (answers s a = true)) ∧
  (∃ (a : Nat) (n : Nat) (s : State), (windowOpen s = true) ∧ (commitsWait s = false) ∧ (a + n ≤ 0x20_0000) ∧ (n ≤ 8) ∧ (¬ (n = 8 ∧ a % 8 = 0)) ∧ (¬ (n = 4 ∧ a % 4 = 0))) ∧
  (∃ (a : Nat) (s : State), (windowOpen s = true) ∧ (commitsWait s = false) ∧ (a % 8 = 0) ∧ (a + 8 ≤ 0x20_0000) ∧ (answers s a = false)) ∧
  (∃ (a : Nat) (n : Nat) (s : State), (windowOpen s = true) ∧ (commitsWait s = true) ∧ (a + n ≤ 0x20_0000) ∧ (n ≤ 8)) :=
  ⟨
    ⟨(0 : Nat), (run0 : State), by decide⟩,
    ⟨(0 : Nat), (1 : Nat), (run0 : State), by decide⟩,
    ⟨(0x10000 : Nat), (stp 14 : State), by decide⟩,
    ⟨(0 : Nat), (1 : Nat), (wks { waitingCommits := [(1, [])] } : State), by decide⟩⟩

/-- WindowsAndRegisters: the hypotheses of its clauses (RegisterWrites) are met. -/
theorem test_meets_RegisterWrites :
  (∃ (a : Nat) (v : Nat) (s : State), (windowOpen s = true) ∧ (a % 8 = 0) ∧ (a + 8 ≤ 0x20_0000) ∧ (v < 2 ^ 32)) ∧
  (∃ (a : Nat) (lo : Nat) (hi : Nat) (s : State), (windowOpen s = true) ∧ (s.rsp = .done) ∧ (a % 8 = 0) ∧ (a + 8 ≤ 0x20_0000) ∧ (lo < 2 ^ 32) ∧ (hi < 2 ^ 32)) ∧
  (∃ (a : Nat) (data : Lanes) (s : State), (windowOpen s = true) ∧ (a + data.length ≤ 0x20_0000) ∧ ((data.length < 4 ∨ a % 4 ≠ 0))) ∧
  (∃ (a : Nat) (v : Nat) (s : State), (windowOpen s = true) ∧ (a % 8 = 0) ∧ (a + 8 ≤ 0x20_0000) ∧ (answers s a = false) ∧ (v < 2 ^ 64)) :=
  ⟨
    ⟨(0 : Nat), (0 : Nat), (run0 : State), by decide⟩,
    ⟨(0 : Nat), (0 : Nat), (0 : Nat), ({ run0 with rsp := .done } : State), by decide⟩,
    ⟨(0 : Nat), ([] : Lanes), (run0 : State), by decide⟩,
    ⟨(0x10000 : Nat), (0 : Nat), (stp 14 : State), by decide⟩⟩

/-- BlockCommands: the hypotheses of its clauses (ReadsReturnWhatLanded) are met. -/
theorem test_meets_ReadsReturnWhatLanded :
  (∃ (tag : Nat) (c : Cmd) (s : State), (findCmd s tag = some c) ∧ (c.phase = .started) ∧ (c.hdr.opcode = 1) ∧ (c.failed = false) ∧ (c.unlocated = 0) ∧ (readWaits s c = false) ∧ ((∀ i < c.hdr.blocks, blockSource s c.hdr.volume (c.hdr.lba + i) i (before s c) = .zero))) ∧
  (∃ (tag : Nat) (c : Cmd) (r : Rec) (s : State), (findCmd s tag = some c) ∧ (c.phase = .started) ∧ (c.hdr.opcode = 1) ∧ (c.failed = false) ∧ (c.unlocated = 0) ∧ (readWaits s c = false) ∧ (c.hdr.blocks = 1) ∧ (newestRec s c.hdr.volume c.hdr.lba (before s c) = some r) ∧ (lossAt s c.hdr.volume c.hdr.lba = false)) ∧
  (∃ (tag : Nat) (c : Cmd) (s : State), (findCmd s tag = some c) ∧ (c.phase = .started) ∧ (c.hdr.opcode = 3) ∧ (bit c.hdr.flags 0 = false) ∧ (c.failed = false) ∧ (c.unlocated = 0) ∧ (readWaits s c = false) ∧ ((∀ i < c.hdr.blocks, blockSource s c.hdr.volume (c.hdr.lba + i) i (before s c) = .zero))) ∧
  (∃ (tag : Nat) (c : Cmd) (s : State), (findCmd s tag = some c) ∧ (c.phase = .started) ∧ (c.hdr.opcode = 1) ∧ (c.failed = false) ∧ (readWaits s c = true)) ∧
  (∃ (tag : Nat) (c : Cmd) (s : State), (findCmd s tag = some c) ∧ (c.phase = .waiting) ∧ (c.hdr.opcode = 1) ∧ (c.unlocated = 0) ∧ (readWaits s c = false) ∧ ((∀ i < c.hdr.blocks, blockSource s c.hdr.volume (c.hdr.lba + i) i (before s c) = .zero))) ∧
  (∃ (tag : Nat) (c : Cmd) (s : State), (findCmd s tag = some c) ∧ (c.phase = .waiting) ∧ (readWaits s c = true)) :=
  ⟨
    ⟨(1 : Nat), (rd0 : Cmd), (one rd0 : State), by decide⟩,
    ⟨(1 : Nat), (rd0 : Cmd), (rec0 : Rec), ({ one rd0 with ledger := { recs := [rec0] } } : State), by decide⟩,
    ⟨(1 : Nat), ({ rd0 with hdr := { rd0.hdr with opcode := 3 } } : Cmd), (one { rd0 with hdr := { rd0.hdr with opcode := 3 } } : State), by decide⟩,
    ⟨(1 : Nat), (rd0 : Cmd), ({ run0 with cmds := [rd0, wr0] } : State), by decide⟩,
    ⟨(1 : Nat), ({ rd0 with phase := .waiting } : Cmd), (one { rd0 with phase := .waiting } : State), by decide⟩,
    ⟨(1 : Nat), ({ rd0 with phase := .waiting } : Cmd), ({ run0 with cmds := [{ rd0 with phase := .waiting }, wr0] } : State), by decide⟩⟩

/-- BlockCommands: the hypotheses of its clauses (WriteReleaseCloseWait) are met. -/
theorem test_meets_WriteReleaseCloseWait :
  (∃ (tag : Nat) (c : Cmd) (s : State), (findCmd s tag = some c) ∧ (c.phase = .started) ∧ (c.hdr.opcode = 2) ∧ (c.failed = false) ∧ (c.recSeq = none)) ∧
  (∃ (tag : Nat) (c : Cmd) (s : State), (findCmd s tag = some c) ∧ (c.phase = .started) ∧ (c.hdr.opcode = 4) ∧ (c.failed = false) ∧ (((findRec s c.intent).filter Rec.visible) = none)) ∧
  (∃ (tag : Nat) (c : Cmd) (s : State), let named := if bit c.hdr.flags 0 then c.pos.close + c.hdr.f 32 8 else c.hdr.f 32 8; (findCmd s tag = some c) ∧ (c.phase = .started) ∧ (c.hdr.opcode = 5) ∧ (c.failed = false)) :=
  ⟨
    ⟨(1 : Nat), (com0 2 : Cmd), (one (com0 2) : State), by decide⟩,
    ⟨(1 : Nat), (com0 4 : Cmd), (one (com0 4) : State), by decide⟩,
    ⟨(1 : Nat), (com0 5 : Cmd), (one (com0 5) : State), by decide⟩⟩

/-- AdminCommands: the hypotheses of its clauses (IdentifyAndGetLog) are met. -/
theorem test_meets_IdentifyAndGetLog :
  (∃ (tag : Nat) (c : Cmd) (s : State), (startedCmd s tag 0x80 = some c) ∧ (c.hdr.f 24 1 = 0)) ∧
  (∃ (tag : Nat) (c : Cmd) (s : State), (startedCmd s tag 0x80 = some c) ∧ (c.hdr.f 24 1 = 1)) ∧
  (∃ (tag : Nat) (c : Cmd) (s : State), (opfin s = true) ∧ (startedCmd s tag 0x81 = some c) ∧ (pageBytes s (c.hdr.f 24 1) = none)) ∧
  (∃ (tag : Nat) (c : Cmd) (p : List Byte) (s : State), let bs := (p.drop (c.hdr.f 32 8)).take (c.hdr.f 28 4); (opfin s = true) ∧ (startedCmd s tag 0x81 = some c) ∧ ((c.hdr.f 24 1 = 0x20 ∨ c.hdr.f 24 1 = 0x21)) ∧ (pageBytes s (c.hdr.f 24 1) = some p)) ∧
  (∃ (tag : Nat) (c : Cmd) (s : State), (opfin s = true) ∧ (startedCmd s tag 0x81 = some c) ∧ (c.hdr.f 24 1 = 0x10)) :=
  ⟨
    ⟨(1 : Nat), (com0 0x80 : Cmd), (one (com0 0x80) : State), by decide⟩,
    ⟨(1 : Nat), (comOp 0x80 [1] : Cmd), (one (comOp 0x80 [1]) : State), by decide⟩,
    ⟨(1 : Nat), (com0 0x81 : Cmd), (one (com0 0x81) : State), by decide⟩,
    ⟨(1 : Nat), (comOp 0x81 [0x21] : Cmd), ((pageBytes run0 0x21).getD [] : List Byte), (one (comOp 0x81 [0x21]) : State), by decide⟩,
    ⟨(1 : Nat), (comOp 0x81 [0x10] : Cmd), (one (comOp 0x81 [0x10]) : State), by decide⟩⟩

/-- AdminCommands: the hypotheses of its clauses (FeatureCommands) are met. -/
theorem test_meets_FeatureCommands :
  (∃ (tag : Nat) (c : Cmd) (s : State), (startedCmd s tag 0x82 = some c) ∧ ((c.hdr.f 24 1 = 0 ∨ 5 < c.hdr.f 24 1))) ∧
  (∃ (tag : Nat) (c : Cmd) (s : State), (startedCmd s tag 0x82 = some c) ∧ (1 ≤ c.hdr.f 24 1) ∧ (c.hdr.f 24 1 ≤ 5)) ∧
  (∃ (tag : Nat) (c : Cmd) (s : State), (startedCmd s tag 0x83 = some c) ∧ (1 ≤ c.hdr.f 24 1) ∧ (c.hdr.f 24 1 ≤ 5) ∧ ((c.hdr.f 32 4 < (envelope s (c.hdr.f 24 1)).min ∨ (envelope s (c.hdr.f 24 1)).max < c.hdr.f 32 4))) ∧
  (∃ (tag : Nat) (c : Cmd) (s : State), (startedCmd s tag 0x83 = some c) ∧ (1 ≤ c.hdr.f 24 1) ∧ (c.hdr.f 24 1 ≤ 5) ∧ ((envelope s (c.hdr.f 24 1)).min ≤ c.hdr.f 32 4) ∧ (c.hdr.f 32 4 ≤ (envelope s (c.hdr.f 24 1)).max)) :=
  ⟨
    ⟨(1 : Nat), (com0 0x82 : Cmd), (one (com0 0x82) : State), by decide⟩,
    ⟨(1 : Nat), (comOp 0x82 [1] : Cmd), (one (comOp 0x82 [1]) : State), by decide⟩,
    ⟨(1 : Nat), (comOp 0x83 [1] : Cmd), (one (comOp 0x83 [1]) : State), by decide⟩,
    ⟨(1 : Nat), (comOp 0x83 [2] : Cmd), (one (comOp 0x83 [2]) : State), by decide⟩⟩

/-- AdminCommands: the hypotheses of its clauses (FirmwarePieces) are met. -/
theorem test_meets_FirmwarePieces :
  (∃ (tag : Nat) (c : Cmd) (s : State), let kind := c.hdr.f 24 1; let off := c.hdr.f 32 4; (opfin s = true) ∧ (cmdIn s tag (fun c => c.phase = .busy && c.hdr.opcode = 0x84 && !c.failed && c.taken = c.hdr.d) = some c) ∧ (imageAhead s c (fun e => e.phase = .started || e.phase = .busy) = false) ∧ (off = 0) ∧ (c.hdr.d < 512)) ∧
  (∃ (tag : Nat) (c : Cmd) (s : State), let kind := c.hdr.f 24 1; let off := c.hdr.f 32 4; (opfin s = true) ∧ (cmdIn s tag (fun c => c.phase = .busy && c.hdr.opcode = 0x84 && !c.failed && c.taken = c.hdr.d) = some c) ∧ (imageAhead s c (fun e => e.phase = .started || e.phase = .busy) = false) ∧ (off ≠ 0) ∧ (((dl s kind).state ≠ 2 ∨ off ≠ (dl s kind).upTo))) ∧
  (∃ (tag : Nat) (c : Cmd) (s : State), let kind := c.hdr.f 24 1; let off := c.hdr.f 32 4; (opfin s = true) ∧ (cmdIn s tag (fun c => c.phase = .busy && c.hdr.opcode = 0x84 && !c.failed && c.taken = c.hdr.d) = some c) ∧ (imageAhead s c (fun e => e.phase = .started || e.phase = .busy) = false) ∧ (off ≠ 0) ∧ ((dl s kind).state = 2) ∧ (off = (dl s kind).upTo) ∧ (off + c.hdr.d ≤ slotSize kind) ∧ (bit c.hdr.flags 0 = false)) ∧
  (∃ (tag : Nat) (c : Cmd) (s : State), let kind := c.hdr.f 24 1; let off := c.hdr.f 32 4; (opfin s = true) ∧ (cmdIn s tag (fun c => c.phase = .busy && c.hdr.opcode = 0x84 && !c.failed && c.taken = c.hdr.d) = some c) ∧ (imageAhead s c (fun e => e.phase = .started || e.phase = .busy) = false) ∧ (off ≠ 0) ∧ ((dl s kind).state = 2) ∧ (off = (dl s kind).upTo) ∧ (off + c.hdr.d ≤ slotSize kind)) :=
  ⟨
    ⟨(1 : Nat), ({ com0 0x84 with phase := .busy } : Cmd), (one { com0 0x84 with phase := .busy } : State), by decide⟩,
    ⟨(1 : Nat), ({ comOp 0x84 [0, 0, 0, 0, 0, 0, 0, 0, 0, 16] with phase := .busy } : Cmd), (one { comOp 0x84 [0, 0, 0, 0, 0, 0, 0, 0, 0, 16] with phase := .busy } : State), by decide⟩,
    ⟨(1 : Nat), ({ comOp 0x84 [0, 0, 0, 0, 0, 0, 0, 0, 0, 16] with phase := .busy } : Cmd), ({ one { comOp 0x84 [0, 0, 0, 0, 0, 0, 0, 0, 0, 16] with phase := .busy } with flash := { charterDl := { state := 2, upTo := 4096 } } } : State), by decide⟩,
    ⟨(1 : Nat), ({ comOp 0x84 [0, 0, 0, 0, 0, 0, 0, 0, 0, 16] with phase := .busy } : Cmd), ({ one { comOp 0x84 [0, 0, 0, 0, 0, 0, 0, 0, 0, 16] with phase := .busy } with flash := { charterDl := { state := 2, upTo := 4096 } } } : State), by decide⟩⟩

/-- AdminCommands: the hypotheses of its clauses (FirmwareCommit) are met. -/
theorem test_meets_FirmwareCommit :
  (∃ (tag : Nat) (c : Cmd) (s : State), (opfin s = true) ∧ (imageCmd s tag 0 = some c) ∧ ((dl s (c.hdr.f 24 1)).state ≠ 3)) ∧
  (∃ (tag : Nat) (c : Cmd) (s : State), let kind := c.hdr.f 24 1; (opfin s = true) ∧ (imageCmd s tag 0 = some c) ∧ ((dl s (c.hdr.f 24 1)).state = 3)) ∧
  (∃ (tag : Nat) (c : Cmd) (s : State), let kind := c.hdr.f 24 1; (opfin s = true) ∧ (imageCmd s tag 1 = some c)) :=
  ⟨
    ⟨(1 : Nat), (com0 0x85 : Cmd), (one (com0 0x85) : State), by decide⟩,
    ⟨(1 : Nat), (com0 0x85 : Cmd), ({ one (com0 0x85) with flash := { charterDl := { state := 3 } } } : State), by decide⟩,
    ⟨(1 : Nat), (comOp 0x85 [0, 1] : Cmd), (one (comOp 0x85 [0, 1]) : State), by decide⟩⟩

/-- AdminCommands: the hypotheses of its clauses (PowerCommand) are met. -/
theorem test_meets_PowerCommand :
  (∃ (tag : Nat) (c : Cmd) (s : State), (startedCmd s tag 0x87 = some c) ∧ (s.power.entryTag = none) ∧ (c.hdr.f 24 1 ≠ 2)) ∧
  (∃ (tag : Nat) (c : Cmd) (s : State), (startedCmd s tag 0x87 = some c) ∧ (s.power.entryTag = none) ∧ (c.hdr.f 24 1 = 2) ∧ (s.power.state ≠ 2) ∧ (s.cfg.powerState = 0)) ∧
  (∃ (tag : Nat) (old : Nat) (c : Cmd) (d : Cmd) (s : State), (startedCmd s tag 0x87 = some c) ∧ (s.power.entryTag = some old) ∧ (old ≠ tag) ∧ (findCmd s old = some d) ∧ (c.hdr.f 24 1 ≠ 2) ∧ (s.cfg.powerState = 0)) ∧
  (∃ (tag : Nat) (c : Cmd) (s : State), (startedCmd s tag 0x87 = some c) ∧ (s.power.entryTag = none) ∧ (c.hdr.f 24 1 = 2) ∧ (s.cfg.powerState ≠ 0)) :=
  ⟨
    ⟨(1 : Nat), (com0 0x87 : Cmd), (one (com0 0x87) : State), by decide⟩,
    ⟨(1 : Nat), (comOp 0x87 [2] : Cmd), (one (comOp 0x87 [2]) : State), by decide⟩,
    ⟨(1 : Nat), (2 : Nat), (com0 0x87 : Cmd), (wr0 : Cmd), ({ run0 with cmds := [com0 0x87, wr0], power := { entryTag := some 2 } } : State), by decide⟩,
    ⟨(1 : Nat), (comOp 0x87 [2] : Cmd), ({ one (comOp 0x87 [2]) with cfg := { powerState := 3 } } : State), by decide⟩⟩

/-- AdminCommands: the hypotheses of its clauses (HostTimeMark) are met. -/
theorem test_meets_HostTimeMark :
  (∃ (tag : Nat) (c : Cmd) (s : State), startedCmd s tag 0x89 = some c) :=
  ⟨(1 : Nat), (com0 0x89 : Cmd), (one (com0 0x89) : State), by decide⟩

/-- RowsAreDestaged: the hypotheses of its clauses are met. -/
theorem test_meets_RowsAreDestaged :
  (∃ (layout : Nat) (row : Nat) (s : State), (rowRecs s layout row ≠ []) ∧ (rowSince s layout row + holdoffOf s (rowSince s layout row) ≤ s.now) ∧ (plannerRuns s = false)) ∧
  (∃ (layout : Nat) (row : Nat) (rho : Nat) (l : Layout) (v : VolumeDef) (b : Band) (s : State), (layoutOf s layout = some l) ∧ (ownerOf s layout row = some (v, b, rho)) ∧ (rowRecs s layout row ≠ []) ∧ (rowSince s layout row + holdoffOf s (rowSince s layout row) ≤ s.now) ∧ (plannerRuns s = true) ∧ ((∀ w ∈ s.works, w.layout = layout → w.row ≠ row)) ∧ (rowPinned s layout row (rowNews s l row) = false) ∧ (s.ledger.resyncLeft.contains (v.volume, regionOfRow s l row) = false) ∧ (rowNews s l row ≠ []) ∧ (rowFull l (rowNews s l row) = false) ∧ (worksNumbered s)) ∧
  (∃ (layout : Nat) (row : Nat) (s : State), s.now < rowSince s layout row + holdoffOf s (rowSince s layout row)) ∧
  (∃ (id : Nat) (w : Work) (s : State), (findWork s id = some w) ∧ (w.step = 2) ∧ (w.step2Done = true) ∧ (w.held = false) ∧ (w.kind = .destage)) ∧
  (∃ (id : Nat) (w : Work) (s : State), (findWork s id = some w) ∧ (w.step = 2) ∧ (w.step2Done = true) ∧ (w.held = true) ∧ (w.patterns = []) ∧ (w.fromClose ≤ s.now) ∧ (postCount w ≠ 0)) ∧
  (∃ (id : Nat) (w : Work) (e : List ChunkId) (s : State), (findWork s id = some w) ∧ (w.step = 2) ∧ (w.step2Done = true) ∧ (w.held = true) ∧ (w.patterns = [e]) ∧ (findPlan s w.layout e = none) ∧ (s.plans.cache.length < 768)) ∧
  (∃ (id : Nat) (w : Work) (s : State), (findWork s id = some w) ∧ ((w.waitFinds ≠ [] ∨ w.sealWait ≠ []))) ∧
  (∃ (id : Nat) (w : Work) (s : State), (findWork s id = some w) ∧ (w.reads ≠ [])) ∧
  (∃ (id : Nat) (w : Work) (s : State), (findWork s id = some w) ∧ (w.step = 4) ∧ (w.outs = []) ∧ (w.writes = []) ∧ (w.failedOut = false) ∧ (w.kind = .destage) ∧ (w.unwritten = false)) ∧
  (∃ (id : Nat) (w : Work) (s : State), (findWork s id = some w) ∧ (w.writes ≠ [])) :=
  ⟨
    ⟨(0 : Nat), (0 : Nat), ({ late0 with ledger := { recs := [recD] }, pair := { fenced := true } } : State), by decide⟩,
    ⟨(0 : Nat), (0 : Nat), (0 : Nat), (lay0 : Layout), (vol0 : VolumeDef), (bnd0 : Band), ({ late0 with ledger := { recs := [recD] }, bands := [bnd0] } : State), by unfold worksNumbered; decide⟩,
    ⟨(0 : Nat), (0 : Nat), ({ run0 with ledger := { recs := [{ recD with landedAt := 5 }] } } : State), by decide⟩,
    ⟨(5 : Nat), ({ work0 with step := 2 } : Work), (wrk { work0 with step := 2 } : State), by decide⟩,
    ⟨(5 : Nat), ({ wrkR with step := 2 } : Work), (wrk { wrkR with step := 2 } : State), by decide⟩,
    ⟨(5 : Nat), ({ wrkR with step := 2, patterns := [[.d 0]] } : Work), ([.d 0] : List ChunkId), (wrk { wrkR with step := 2, patterns := [[.d 0]] } : State), by decide⟩,
    ⟨(5 : Nat), ({ work0 with waitFinds := [1] } : Work), (wrk { work0 with waitFinds := [1] } : State), by decide⟩,
    ⟨(5 : Nat), ({ work0 with reads := [(.d 0, 0)] } : Work), (wrk { work0 with reads := [(.d 0, 0)] } : State), by decide⟩,
    ⟨(5 : Nat), ({ work0 with step := 4 } : Work), (wrk { work0 with step := 4 } : State), by decide⟩,
    ⟨(5 : Nat), ({ work0 with writes := [1] } : Work), (wrk { work0 with writes := [1] } : State), by decide⟩⟩

/-- WorksAreNumbered: the hypotheses of its clauses are met. -/
theorem test_meets_WorksAreNumbered :
  (∃ (s : State) (t : State), (worksNumbered s) ∧ (step s = .next t)) ∧
  (∃ (s : State) (t : State), (commandsNumbered s) ∧ (step s = .next t)) :=
  ⟨
    ⟨(State.reset : State), (State.reset : State), ⟨by unfold worksNumbered; decide, rfl⟩⟩,
    ⟨(State.reset : State), (State.reset : State), ⟨by unfold commandsNumbered; decide, rfl⟩⟩⟩

/-- HoldsAreGranted: the hypotheses of its clauses are met. -/
theorem test_meets_HoldsAreGranted :
  (∃ (id : Nat) (w : Work) (s : State), (findWork s id = some w) ∧ (w.held = false) ∧ (w.kind = .destage) ∧ (w.step = 3) ∧ ((∀ e ∈ s.holds.waiting, e.work ≠ id)) ∧ (heldBy s w.layout w.row = none) ∧ (s.holds.held.length < 4096)) ∧
  (∃ (id : Nat) (o : Nat) (w : Work) (s : State), (findWork s id = some w) ∧ (w.held = false) ∧ (w.kind = .destage) ∧ (w.step = 3) ∧ ((∀ e ∈ s.holds.waiting, e.work ≠ id ∧ e.cycle < absCycle s)) ∧ (heldBy s w.layout w.row = some o)) ∧
  (∃ (id : Nat) (o : Nat) (w : Work) (e : HoldWait) (s : State), (findWork s id = some w) ∧ (w.held = false) ∧ (w.kind = .destage) ∧ (w.step = 3) ∧ (s.holds.waiting = [e]) ∧ (e.cycle = absCycle s) ∧ (id < e.work) ∧ (heldBy s w.layout w.row = some o)) ∧
  (∃ (id : Nat) (w : Work) (s : State), (findWork s id = some w) ∧ (w.held = false) ∧ (w.kind = .destage) ∧ (w.step = 3) ∧ ((∀ e ∈ s.holds.waiting, e.work ≠ id ∧ e.cycle < absCycle s)) ∧ (heldBy s w.layout w.row = none) ∧ (4096 ≤ s.holds.held.length)) ∧
  (∃ (id : Nat) (w : Work) (s : State), (findWork s id = some w) ∧ (w.held = true)) ∧
  (∃ (id : Nat) (w : Work) (s : State), (findWork s id = some w) ∧ (w.step = 5) ∧ (w.held = true) ∧ (s.holds.waiting = [])) ∧
  (∃ (id : Nat) (o : Nat) (w : Work) (x : Work) (e : HoldWait) (s : State), (findWork s id = some w) ∧ (w.step = 5) ∧ (w.held = true) ∧ (s.holds.held = [(w.layout, w.row, id)]) ∧ (s.holds.waiting = [e]) ∧ (e.layout = w.layout) ∧ (e.row = w.row) ∧ (e.work = o) ∧ (o ≠ id) ∧ (findWork s o = some x) ∧ (x.layout = w.layout) ∧ (x.row = w.row)) ∧
  (∃ (id : Nat) (w : Work) (s : State), (findWork s id = some w) ∧ (w.step ≠ 5)) :=
  ⟨
    ⟨(5 : Nat), (work0 : Work), (wrk work0 : State), by decide⟩,
    ⟨(5 : Nat), (9 : Nat), (work0 : Work), ({ wrk work0 with holds := { held := [(0, 0, 9)] } } : State), by decide⟩,
    ⟨(5 : Nat), (9 : Nat), (work0 : Work), (⟨0, 0, 7, 0, false⟩ : HoldWait), ({ wrk work0 with holds := { held := [(0, 0, 9)], waiting := [⟨0, 0, 7, 0, false⟩] } } : State), by decide⟩,
    ⟨(5 : Nat), (work0 : Work), ({ wrk work0 with holds := { held := List.replicate 4096 (1, 0, 9) } } : State), by decide⟩,
    ⟨(5 : Nat), (wrkR : Work), (wrk wrkR : State), by decide⟩,
    ⟨(5 : Nat), ({ wrkR with step := 5 } : Work), (wrk { wrkR with step := 5 } : State), by decide⟩,
    ⟨(5 : Nat), (6 : Nat), ({ wrkR with step := 5 } : Work), ({ work0 with id := 6 } : Work), (⟨0, 0, 6, 0, true⟩ : HoldWait), ({ run0 with works := [{ wrkR with step := 5 }, { work0 with id := 6 }], holds := { held := [(0, 0, 5)], waiting := [⟨0, 0, 6, 0, true⟩] } } : State), by decide⟩,
    ⟨(5 : Nat), (work0 : Work), (wrk work0 : State), by decide⟩⟩

/-- RegionsAndPlans: the hypotheses of its clauses are met. -/
theorem test_meets_RegionsAndPlans :
  (∃ (id : Nat) (w : Work) (r : Region) (s : State), (findWork s id = some w) ∧ (w.step = 1) ∧ (findRegion s w.volume w.region = some r) ∧ (r.covered = true) ∧ (r.set = false) ∧ (tableUsed s < 8192)) ∧
  (∃ (id : Nat) (w : Work) (r : Region) (s : State), (findWork s id = some w) ∧ (w.step = 1) ∧ (findRegion s w.volume w.region = some r) ∧ (r.covered = true) ∧ (r.set = false) ∧ (8192 ≤ tableUsed s)) ∧
  (∃ (id : Nat) (w : Work) (r : Region) (s : State), (findWork s id = some w) ∧ (w.step = 1) ∧ (findRegion s w.volume w.region = some r) ∧ (r.covered = false)) ∧
  (∃ (w : Work) (s : State), s.works.filter (fun x => x.step = 1) = [w]) ∧
  (∃ (s : State), (∀ w ∈ s.works, w.step ≠ 1)) ∧
  (∃ (v : Nat) (r : Nat) (s : State), ((v, r) ∈ s.ledger.resyncLeft) ∧ (retires s = true) ∧ (resyncRows s v r ≠ []) ∧ (worksNumbered s)) ∧
  (∃ (v : Nat) (r : Nat) (s : State), ((v, r) ∈ s.ledger.resyncLeft) ∧ (retires s = true) ∧ (resyncRows s v r = [])) ∧
  (∃ (v : Nat) (r : Nat) (s : State), ((v, r) ∉ s.ledger.resyncLeft ∨ retires s = false)) ∧
  (∃ (layout : Nat) (erased : List ChunkId) (p : Plan) (s : State), (findPlan s layout (patternKey s layout erased) = some p) ∧ (p.ready = false) ∧ (p.users = [])) ∧
  (∃ (layout : Nat) (id : Nat) (erased : List ChunkId) (p : Plan) (w : Work) (s : State), (findPlan s layout (patternKey s layout erased) = some p) ∧ (p.ready = false) ∧ (p.users = [workTag id]) ∧ (findWork s id = some w) ∧ (w.layout = layout) ∧ (w.step = 3) ∧ (w.held = true) ∧ (w.postsLeft = 0) ∧ (w.patterns = [patternKey s layout erased]) ∧ (w.needs = []) ∧ (w.fromClose ≤ s.now) ∧ (postCount w ≠ 0)) ∧
  (∃ (layout : Nat) (erased : List ChunkId) (p : Plan) (s : State), (findPlan s layout (patternKey s layout erased) = some p) ∧ (p.ready = true)) ∧
  (∃ (s : State), writesTaken s = true) ∧
  (∃ (layout : Nat) (erased : List ChunkId) (p : Plan) (s : State), (findPlan s layout (patternKey s layout erased) = some p) ∧ ((s.plans.waiting = [] ∨ p.users.filter (stillUses s layout (patternKey s layout erased)) ≠ []))) ∧
  (∃ (layout : Nat) (erased : List ChunkId) (s : State), findPlan s layout (patternKey s layout erased) = none) :=
  ⟨
    ⟨(5 : Nat), ({ work0 with step := 1 } : Work), (reg0 false true false : Region), ({ wrk { work0 with step := 1 } with ledger := { regions := [reg0 false true false] } } : State), by decide⟩,
    ⟨(5 : Nat), ({ work0 with step := 1 } : Work), (reg0 false true false : Region), ({ wrk { work0 with step := 1 } with ledger := { regions := reg0 false true false :: List.replicate 8192 ⟨1, 0, true, true, false, false⟩ } } : State), by decide +kernel⟩,
    ⟨(5 : Nat), ({ work0 with step := 1 } : Work), (reg0 false false false : Region), ({ wrk { work0 with step := 1 } with ledger := { regions := [reg0 false false false] } } : State), by decide⟩,
    ⟨({ work0 with step := 1 } : Work), (wrk { work0 with step := 1 } : State), by decide⟩,
    ⟨(run0 : State), by decide⟩,
    ⟨(0 : Nat), (0 : Nat), ({ lg { resyncLeft := [(0, 0)] } with bands := [bnd0] } : State), by unfold worksNumbered; decide⟩,
    ⟨(0 : Nat), (0 : Nat), (lg { resyncLeft := [(0, 0)] } : State), by decide⟩,
    ⟨(0 : Nat), (0 : Nat), (run0 : State), by decide⟩,
    ⟨(0 : Nat), ([.d 0] : List ChunkId), (⟨0, [.d 0], false, [], 0⟩ : Plan), (plan0 false [] : State), by decide⟩,
    ⟨(0 : Nat), (5 : Nat), ([.d 0] : List ChunkId), (⟨0, [.d 0], false, [workTag 5], 0⟩ : Plan), ({ wrkR with patterns := [[.d 0]] } : Work), ({ plan0 false [workTag 5] with works := [{ wrkR with patterns := [[.d 0]] }] } : State), by decide⟩,
    ⟨(0 : Nat), ([.d 0] : List ChunkId), (⟨0, [.d 0], true, [], 0⟩ : Plan), (plan0 true [] : State), by decide⟩,
    ⟨(run0 : State), by decide⟩,
    ⟨(0 : Nat), ([.d 0] : List ChunkId), (⟨0, [.d 0], true, [], 0⟩ : Plan), (plan0 true [] : State), by decide⟩,
    ⟨(0 : Nat), ([.d 0] : List ChunkId), (run0 : State), by decide⟩⟩

/-- CheckpointsAreCut: the hypotheses of its clauses are met. -/
theorem test_meets_CheckpointsAreCut :
  (∃ (s : State), (opfin s = true) ∧ (s.ledger.ckpt = none) ∧ (s.ledger.regions.any (fun r => r.awaiting) = true) ∧ (s.chip.step = 15)) ∧
  (∃ (s : State), s.ledger.ckpt ≠ none) ∧
  (∃ (s : State), (opfin s = true) ∧ (s.ledger.ckpt = none) ∧ (s.ledger.lastCkptCut + 65536 ≤ s.now) ∧ (s.chip.step = 15)) ∧
  (∃ (s : State), s.now < s.ledger.lastCkptCut + 65536) ∧
  (∃ (acks : List Nat) (c : Ckpt) (s : State), (opfin s = true) ∧ (s.ledger.ckpt = some c) ∧ (majority s acks = true)) ∧
  (∃ (acks : List Nat) (c : Ckpt) (s : State), (opfin s = true) ∧ (s.ledger.ckpt = some c) ∧ (majority s acks = false)) ∧
  (∃ (c : Ckpt) (s : State), (opfin s = true) ∧ (s.ledger.ckpt = some c) ∧ (c.cutClose + 65536 ≤ s.now)) ∧
  (∃ (c : Ckpt) (s : State), (s.ledger.ckpt = some c) ∧ (s.now < c.cutClose + 65536)) :=
  ⟨
    ⟨(lg { regions := [reg0 false false true] } : State), by decide⟩,
    ⟨(lg { ckpt := some ck0 } : State), by decide⟩,
    ⟨({ run0 with clock := { close := 65536 } } : State), by decide⟩,
    ⟨(run0 : State), by decide⟩,
    ⟨([0, 1, 2] : List Nat), (ck0 : Ckpt), (lg { ckpt := some ck0 } : State), by decide⟩,
    ⟨([] : List Nat), (ck0 : Ckpt), (lg { ckpt := some ck0 } : State), by decide⟩,
    ⟨(ck0 : Ckpt), ({ lg { ckpt := some ck0 } with clock := { close := 65536 } } : State), by decide⟩,
    ⟨(ck0 : Ckpt), (lg { ckpt := some ck0 } : State), by decide⟩⟩

/-- LedgerBlocksWear: the hypotheses of its clauses are met. -/
theorem test_meets_LedgerBlocksWear :
  (∃ (b : Nat), b < 36864) ∧
  (∃ (b : Nat), 36864 ≤ b) ∧
  (∃ (b : Nat) (s : State), (b < 36864) ∧ ((blockAt s b).due = none) ∧ ((blockAt s b).retired = false)) ∧
  (∃ (b : Nat) (seq : Nat) (first : Nat) (lba : Nat) (n : Nat) (r : Rec) (s : State), (b < 36864) ∧ (s.ledger.mode ≠ 1) ∧ (findRec s seq = some r) ∧ (r.range = some (lba, n)) ∧ (first < n) ∧ (lossAt s r.volume (lba + first) = false) ∧ (lossHeld s < 32768)) ∧
  (∃ (s : State), s.ledger.mode = 1) ∧
  (∃ (b : Nat) (d : Nat) (k : Nat) (s : State), ((blockAt s b).due = some d) ∧ (d ≤ s.now) ∧ (reserveBlock s (dieOf b) = some k)) ∧
  (∃ (b : Nat) (d : Nat) (s : State), ((blockAt s b).due = some d) ∧ (d ≤ s.now) ∧ (reserveBlock s (dieOf b) = none)) ∧
  (∃ (b : Nat) (s : State), (blockAt s b).due.all (fun d => s.now < d) = true) ∧
  (∃ (b : Nat) (f : Nat) (s : State), (s.quiet = true) ∧ (b < 36864) ∧ (isFixed s b = true) ∧ (meanWrites s + 2 ^ 20 ≤ blockWrites s b) ∧ (freeBlock s (dieOf b) = some f)) ∧
  (∃ (b : Nat) (s : State), blockWrites s b < meanWrites s + 2 ^ 20) ∧
  (∃ (s : State), s.quiet = false) ∧
  (∃ (m : Nat) (k : Nat) (s : State), (s.quiet = true) ∧ (s.closers.entry = 2) ∧ (s.ledger.trimmed = false) ∧ (s.scratch.swept = false) ∧ (40 ≤ m) ∧ (k ≤ 25)) ∧
  (∃ (s : State), (s.quiet = true) ∧ (s.closers.entry = 2) ∧ (s.ledger.trimmed = false) ∧ (s.scratch.swept = false)) ∧
  (∃ (m : Nat) (k : Nat) (s : State), (s.quiet = true) ∧ (s.closers.entry = 2) ∧ (s.ledger.trimmed = false) ∧ (s.scratch.swept = false) ∧ ((m < 40 ∨ 25 < k))) ∧
  (∃ (s : State), (s.quiet = false ∨ s.closers.entry ≠ 2 ∨ s.ledger.trimmed = true ∨ s.scratch.swept = true)) :=
  ⟨
    ⟨(0 : Nat), by decide⟩,
    ⟨(36864 : Nat), by decide⟩,
    ⟨(0 : Nat), (run0 : State), by decide⟩,
    ⟨(0 : Nat), (1 : Nat), (0 : Nat), (0 : Nat), (1 : Nat), (rec0 : Rec), (lg { recs := [rec0] } : State), by decide⟩,
    ⟨(lg { mode := 1 } : State), by decide⟩,
    ⟨(0 : Nat), (0 : Nat), (32768 : Nat), (lg { blocks := [(0, { due := some 0 })] } : State), by decide⟩,
    ⟨(0 : Nat), (0 : Nat), (worn0 : State), ⟨rfl, by decide, worn0_reserve⟩⟩,
    ⟨(0 : Nat), (run0 : State), by decide⟩,
    (by obtain ⟨f, hf⟩ := freeBlock_some { lg { blocks := [(0, { writes := 2 ^ 20 })] } with clock := { cycle := 24576 } } 0 30000 (by decide) (by decide) (by decide); exact ⟨0, f, _, by decide, by decide, by decide, by decide, hf⟩),
    ⟨(0 : Nat), (run0 : State), by decide⟩,
    ⟨(run0 : State), by decide⟩,
    ⟨(40 : Nat), (0 : Nat), (quiet0 : State), by decide⟩,
    ⟨(quiet0 : State), by decide⟩,
    ⟨(0 : Nat), (0 : Nat), (quiet0 : State), by decide⟩,
    ⟨(run0 : State), by decide⟩⟩

/-- MemberCommands: the hypotheses of its clauses are met. -/
theorem test_meets_MemberCommands :
  (∃ (id : Nat) (k : MemberCmd) (s : State), (findMc s id = some k) ∧ (k.sent = true) ∧ ((mem s k.member).state = 1) ∧ (k.late = false) ∧ (k.op ≠ .testUnitReady) ∧ (k.tries = 0)) ∧
  (∃ (id : Nat) (k : MemberCmd) (s : State), (findMc s id = some k) ∧ (k.sent = true) ∧ ((mem s k.member).state = 1) ∧ (k.late = false) ∧ (k.tries = 0) ∧ (s.pair.fenced = false)) ∧
  (∃ (id : Nat) (k : MemberCmd) (s : State), (findMc s id = some k) ∧ (k.sent = true) ∧ ((mem s k.member).state = 1) ∧ (k.late = false) ∧ (k.op = .wr) ∧ (k.tries = 0) ∧ (s.pair.fenced = false)) ∧
  (∃ (id : Nat) (w : Nat) (pos : Nat) (c : ChunkId) (k : MemberCmd) (x : Work) (s : State), (findMc s id = some k) ∧ (k.sent = true) ∧ ((mem s k.member).state = 1) ∧ (k.late = false) ∧ (k.purpose = .workRead w c pos) ∧ (findWork s w = some x)) ∧
  (∃ (id : Nat) (w : Nat) (pos : Nat) (c : ChunkId) (k : MemberCmd) (x : Work) (s : State), (findMc s id = some k) ∧ (k.sent = true) ∧ ((mem s k.member).state = 1) ∧ (k.late = false) ∧ (k.op = .rd) ∧ (k.purpose = .workRead w c pos) ∧ (findWork s w = some x)) ∧
  (∃ (id : Nat) (k : MemberCmd) (s : State), (findMc s id = some k) ∧ (k.sent = false)) ∧
  (∃ (id : Nat) (s : State), findMc s id = none) ∧
  (∃ (id : Nat) (r : Nat) (k : MemberCmd) (s : State), (findMc s id = some k) ∧ (k.retryAt = some r) ∧ (r ≤ s.now) ∧ (s.pair.fenced = false) ∧ ((mem s k.member).state = 1)) ∧
  (∃ (id : Nat) (r : Nat) (k : MemberCmd) (s : State), (findMc s id = some k) ∧ (k.retryAt = some r) ∧ (s.now < r)) ∧
  (∃ (id : Nat) (k : MemberCmd) (s : State), (findMc s id = some k) ∧ (k.sent = true) ∧ (k.late = false) ∧ (k.op = .rd) ∧ (k.issued + memberTimeout s k.member ≤ s.now) ∧ ((mem s k.member).state = 1) ∧ (commandsNumbered s)) ∧
  (∃ (id : Nat) (k : MemberCmd) (s : State), (findMc s id = some k) ∧ (s.now < k.issued + memberTimeout s k.member)) ∧
  (∃ (id : Nat) (k : MemberCmd) (s : State), (findMc s id = some k) ∧ (k.id = id) ∧ (k.late = true) ∧ (k.op = .rd) ∧ ((mem s k.member).state = 3)) ∧
  (∃ (id : Nat) (tag : Nat) (idx : Nat) (l : Nat) (row : Nat) (c : ChunkId) (k : MemberCmd) (data : List Byte) (s : State), (findMc s id = some k) ∧ (k.id = id) ∧ (k.late = true) ∧ (k.op = .rd) ∧ ((mem s k.member).state = 1) ∧ (k.purpose = .readBlock tag idx c) ∧ (k.delivered = true) ∧ (k.row = some (l, row)) ∧ (k.data = Memory.ofBytes (padTo k.len data))) ∧
  (∃ (id : Nat) (tag : Nat) (idx : Nat) (l : Nat) (row : Nat) (c : ChunkId) (k : MemberCmd) (data : List Byte) (s : State), (findMc s id = some k) ∧ (k.id = id) ∧ (k.late = true) ∧ (k.op = .rd) ∧ ((mem s k.member).state = 1) ∧ (k.purpose = .readBlock tag idx c) ∧ (k.delivered = true) ∧ (k.row = some (l, row)) ∧ (k.data ≠ Memory.ofBytes (padTo k.len data))) ∧
  (∃ (id : Nat) (k : MemberCmd) (s : State), (findMc s id = some k) ∧ (k.late = false)) :=
  ⟨
    ⟨(1 : Nat), (kc .rd .control : MemberCmd), (mcs (kc .rd .control) { state := 1 } : State), by decide⟩,
    ⟨(1 : Nat), (kc .rd .control : MemberCmd), (mcs (kc .rd .control) { state := 1 } : State), by decide⟩,
    ⟨(1 : Nat), (kc .wr .control : MemberCmd), (mcs (kc .wr .control) { state := 1 } : State), by decide⟩,
    ⟨(1 : Nat), (5 : Nat), (0 : Nat), (.d 0 : ChunkId), (kc .rd (.workRead 5 (.d 0) 0) : MemberCmd), (work0 : Work), ({ mcs (kc .rd (.workRead 5 (.d 0) 0)) { state := 1 } with works := [work0] } : State), by decide⟩,
    ⟨(1 : Nat), (5 : Nat), (0 : Nat), (.d 0 : ChunkId), (kc .rd (.workRead 5 (.d 0) 0) : MemberCmd), (work0 : Work), ({ mcs (kc .rd (.workRead 5 (.d 0) 0)) { state := 1 } with works := [work0] } : State), by decide⟩,
    ⟨(1 : Nat), ({ kc .rd .control with queued := true } : MemberCmd), (mcs { kc .rd .control with queued := true } { state := 1 } : State), by decide⟩,
    ⟨(1 : Nat), (run0 : State), by decide⟩,
    ⟨(1 : Nat), (0 : Nat), ({ kc .rd .control with retryAt := some 0 } : MemberCmd), (mcs { kc .rd .control with retryAt := some 0 } { state := 1 } : State), by decide⟩,
    ⟨(1 : Nat), (5 : Nat), ({ kc .rd .control with retryAt := some 5 } : MemberCmd), (mcs { kc .rd .control with retryAt := some 5 } { state := 1 } : State), by decide⟩,
    ⟨(1 : Nat), (kc .rd .control : MemberCmd), ({ mcs (kc .rd .control) { state := 1 } with clock := { close := 100000000 } } : State), by unfold commandsNumbered; decide⟩,
    ⟨(1 : Nat), (kc .rd .control : MemberCmd), (mcs (kc .rd .control) { state := 1 } : State), by decide⟩,
    ⟨(1 : Nat), ({ kc .rd .control with late := true } : MemberCmd), (mcs { kc .rd .control with late := true } { state := 3 } : State), by decide⟩,
    ⟨(1 : Nat), (1 : Nat), (0 : Nat), (0 : Nat), (0 : Nat), (.d 0 : ChunkId), ({ kc .rd (.readBlock 1 0 (.d 0)) with late := true, delivered := true, row := some (0, 0) } : MemberCmd), ([] : List Byte), (mcs { kc .rd (.readBlock 1 0 (.d 0)) with late := true, delivered := true, row := some (0, 0) } { state := 1 } : State), by decide⟩,
    ⟨(1 : Nat), (1 : Nat), (0 : Nat), (0 : Nat), (0 : Nat), (.d 0 : ChunkId), ({ kc .rd (.readBlock 1 0 (.d 0)) with late := true, delivered := true, row := some (0, 0) } : MemberCmd), ([1] : List Byte), (mcs { kc .rd (.readBlock 1 0 (.d 0)) with late := true, delivered := true, row := some (0, 0) } { state := 1 } : State), by decide⟩,
    ⟨(1 : Nat), (kc .rd .control : MemberCmd), (mcs (kc .rd .control) { state := 1 } : State), by decide⟩⟩

/-- MembersAreWatched: the hypotheses of its clauses are met. -/
theorem test_meets_MembersAreWatched :
  (∃ (m : Nat) (s : State), ((mem s m).state = 2) ∧ ((mem s m).nextPoll ≤ s.now)) ∧
  (∃ (m : Nat) (s : State), (mem s m).state ≠ 2) ∧
  (∃ (m : Nat) (s : State), (retires s = true) ∧ ((mem s m).state = 2) ∧ ((mem s m).suspectSince + 2 ^ s.ch (·.suspectLog) 20 ≤ s.now) ∧ ((mem s m).retiring = none)) ∧
  (∃ (m : Nat) (s : State), s.now < (mem s m).suspectSince + 2 ^ s.ch (·.suspectLog) 20) ∧
  (∃ (m : Nat) (c : Nat) (s : State), (retires s = true) ∧ ((mem s m).state ≤ 2) ∧ ((mem s m).missingSince = some c) ∧ (c + 65536 ≤ s.now) ∧ ((mem s m).retiring = none)) ∧
  (∃ (m : Nat) (s : State), (mem s m).missingSince = none) ∧
  (∃ (m : Nat) (s : State), ((grp s (memGroup s m)).state = 1) ∧ ((mem s m).ready = false) ∧ ((mem s m).nextPoll ≤ s.now)) ∧
  (∃ (m : Nat) (s : State), (grp s (memGroup s m)).state ≠ 1) ∧
  (∃ (m : Nat) (layout : Nat) (row : Nat) (pos : Nat) (rho : Nat) (c : ChunkId) (l : Layout) (v : VolumeDef) (b : Band) (s : State), (layoutOf s layout = some l) ∧ (ownerOf s layout row = some (v, b, rho)) ∧ ((homeOf s l row c).any (fun h => h.1 = m) = true) ∧ ((mem s m).state ≠ 3) ∧ ((mem s m).state ≠ 4) ∧ (l.positions.contains pos = true) ∧ (b.unwritten.getLsbD rho = false) ∧ (worksNumbered s)) ∧
  (∃ (m : Nat) (layout : Nat) (row : Nat) (s : State), ((mem s m).state = 3 ∨ (mem s m).state = 4 ∨ rowUnwritten s layout row = true)) :=
  ⟨
    ⟨(0 : Nat), (mbr { state := 2 } : State), by decide⟩,
    ⟨(0 : Nat), (run0 : State), by decide⟩,
    ⟨(0 : Nat), ({ mbr { state := 2 } with clock := { close := 1 } } : State), by decide⟩,
    ⟨(0 : Nat), (mbr { state := 2, suspectSince := 5 } : State), by decide⟩,
    ⟨(0 : Nat), (0 : Nat), ({ mbr { missingSince := some 0 } with clock := { close := 65536 } } : State), by decide⟩,
    ⟨(0 : Nat), (run0 : State), by decide⟩,
    ⟨(0 : Nat), (grp0 { state := 1 } : State), by decide⟩,
    ⟨(0 : Nat), (run0 : State), by decide⟩,
    ⟨(0 : Nat), (0 : Nat), (0 : Nat), (0 : Nat), (0 : Nat), (.d 0 : ChunkId), (lay0 : Layout), (vol0 : VolumeDef), (bnd0 : Band), ({ run0 with bands := [bnd0] } : State), by unfold worksNumbered; decide⟩,
    ⟨(0 : Nat), (0 : Nat), (0 : Nat), (mbr { state := 3 } : State), by decide⟩⟩

/-- RebuildsRun: the hypotheses of its clauses are met. -/
theorem test_meets_RebuildsRun :
  (∃ (acks : List Nat) (s : State), (opfin s = true) ∧ (majority s acks = true)) ∧
  (∃ (acks : List Nat) (s : State), majority s acks = false) ∧
  (∃ (layout : Nat) (pool : Nat) (k : Nat) (l : Layout) (p : Pool) (s : State), (opfin s = true) ∧ (layoutOf s layout = some l) ∧ (l.pool pool = some p) ∧ (s.degrade.passes.length = 16) ∧ ((List.range 16).find? (fun k => (pass s k).state = 0) = some k) ∧ (passOf s layout pool = none) ∧ (s.power.state < 2) ∧ (lossPauses s layout = false) ∧ (retires s = true) ∧ (s.degrade.waitingPools = [(layout, pool)]) ∧ ((∀ m ∈ passMembers s layout pool, rehomePending s m = false))) ∧
  (∃ (layout : Nat) (s : State), (lossPauses s layout = true ∨ 2 ≤ s.power.state ∨ retires s = false)) ∧
  (∃ (k : Nat) (l : Layout) (s : State), (opfin s = true) ∧ (k < 16) ∧ (layoutOf s (pass s k).layout = some l) ∧ (passRuns (pass s k) = true) ∧ ((pass s k).cursor < (pass s k).rows) ∧ ((pass s k).gone < (pass s k).goal) ∧ ((∀ w ∈ s.works, w.kind ≠ .restore k)) ∧ ((passGroups s k).all (serves s) = true) ∧ (passMay s (passGroups s k) = true) ∧ (ownerOf s (pass s k).layout (pass s k).cursor = none)) ∧
  (∃ (k : Nat) (l : Layout) (s : State) (v : VolumeDef) (b : Band) (rho : Nat), (opfin s = true) ∧ (k < 16) ∧ (layoutOf s (pass s k).layout = some l) ∧ (passRuns (pass s k) = true) ∧ ((pass s k).cursor < (pass s k).rows) ∧ ((pass s k).gone < (pass s k).goal) ∧ ((∀ w ∈ s.works, w.kind ≠ .restore k)) ∧ ((passGroups s k).all (serves s) = true) ∧ (passMay s (passGroups s k) = true) ∧ (ownerOf s (pass s k).layout (pass s k).cursor = some (v, b, rho)) ∧ (b.unwritten.getLsbD rho = true)) ∧
  (∃ (k : Nat) (l : Layout) (s : State) (v : VolumeDef) (b : Band) (rho : Nat), (opfin s = true) ∧ (k < 16) ∧ (layoutOf s (pass s k).layout = some l) ∧ (passRuns (pass s k) = true) ∧ ((pass s k).cursor < (pass s k).rows) ∧ ((pass s k).gone < (pass s k).goal) ∧ ((∀ w ∈ s.works, w.kind ≠ .restore k)) ∧ ((passGroups s k).all (serves s) = true) ∧ (passMay s (passGroups s k) = true) ∧ (ownerOf s (pass s k).layout (pass s k).cursor = some (v, b, rho)) ∧ (b.unwritten.getLsbD rho = false) ∧ (restoreTargets s l (pass s k).cursor (pass s k) ≠ []) ∧ (worksNumbered s)) ∧
  (∃ (k : Nat) (s : State), passRuns (pass s k) = false) ∧
  (∃ (m : Nat) (d : FoundDrive) (s : State), (opfin s = true) ∧ (mayReplace s m d = true) ∧ ((∀ r ∈ s.degrade.found, r.member ≠ m))) ∧
  (∃ (r : Replacement) (s : State), (s.degrade.found = [r]) ∧ (r.admitting = false)) ∧
  (∃ (r : Replacement) (s : State), (s.degrade.found = [r]) ∧ (r.admitting = true) ∧ (r.good = true) ∧ ((∀ e ∈ s.degrade.placed, e.2.2.1 ≠ r.member))) ∧
  (∃ (r : Replacement) (s : State), (s.degrade.found = [r]) ∧ (r.admitting = true) ∧ (r.good = false)) ∧
  (∃ (m : Nat) (d : FoundDrive) (s : State), mayReplace s m d = false) ∧
  (∃ (m : Nat) (i : Nat) (a : Nat) (s : State), (registryPos s m = some i) ∧ (alternateFor s m = some a) ∧ (opfin s = true) ∧ (((mem s m).state = 3 ∨ (mem s m).state = 4))) ∧
  (∃ (m : Nat) (s : State), registryPos s m = none) :=
  ⟨
    ⟨([0, 1, 2] : List Nat), (run0 : State), by decide⟩,
    ⟨([] : List Nat), (run0 : State), by decide⟩,
    ⟨(0 : Nat), (0 : Nat), (0 : Nat), (lay0 : Layout), (pool0 : Pool), ({ run0 with degrade := { waitingPools := [(0, 0)] } } : State), by decide⟩,
    ⟨(0 : Nat), ({ run0 with power := { state := 2 } } : State), by decide⟩,
    ⟨(0 : Nat), (lay0 : Layout), ({ pss pas0 with gov := { groups := [(0, { state := 2 })] } } : State), by decide⟩,
    ⟨(0 : Nat), (lay0 : Layout), ({ pss pas0 with gov := { groups := [(0, { state := 2 })] }, bands := [{ bnd0 with unwritten := 1 }] } : State), (vol0 : VolumeDef), ({ bnd0 with unwritten := 1 } : Band), (0 : Nat), by decide⟩,
    ⟨(0 : Nat), (lay0 : Layout), ({ pss { pas0 with state := 4 } with gov := { groups := [(0, { state := 2 })] }, bands := [bnd0] } : State), (vol0 : VolumeDef), (bnd0 : Band), (0 : Nat), by unfold worksNumbered; decide +kernel⟩,
    ⟨(0 : Nat), (run0 : State), by decide⟩,
    ⟨(0 : Nat), (drv0 : FoundDrive), ({ memb0 with drives := { members := [(0, { state := 3 })] } } : State), by decide⟩,
    ⟨(⟨0, drv0, false, 0, false⟩ : Replacement), ({ run0 with degrade := { found := [⟨0, drv0, false, 0, false⟩] } } : State), by decide⟩,
    ⟨(⟨0, drv0, true, 0, true⟩ : Replacement), ({ run0 with degrade := { found := [⟨0, drv0, true, 0, true⟩] } } : State), by decide⟩,
    ⟨(⟨0, drv0, false, 0, true⟩ : Replacement), ({ run0 with degrade := { found := [⟨0, drv0, false, 0, true⟩] } } : State), by decide⟩,
    ⟨(0 : Nat), (drv0 : FoundDrive), (run0 : State), by decide⟩,
    ⟨(0 : Nat), (0 : Nat), (3 : Nat), ({ memb0 with drives := { members := [(0, { state := 3 }), (3, { state := 1 })] } } : State), by decide⟩,
    ⟨(9 : Nat), (run0 : State), by decide⟩⟩

/-- LossesAndScrub: the hypotheses of its clauses are met. -/
theorem test_meets_LossesAndScrub :
  (∃ (find : Nat) (acks : List Nat) (s : State), (opfin s = true) ∧ (majority s acks = true) ∧ ((∀ w ∈ s.works, find ∉ w.waitFinds))) ∧
  (∃ (acks : List Nat) (s : State), majority s acks = false) ∧
  (∃ (layout : Nat) (row : Nat) (pos : Nat) (rho : Nat) (l : Layout) (v : VolumeDef) (b : Band) (s : State), (layoutOf s layout = some l) ∧ (ownerOf s layout row = some (v, b, rho)) ∧ (l.positions.contains pos = true) ∧ (b.unwritten.getLsbD rho = false) ∧ (sealable s l row pos (lostNow s l row pos) = true) ∧ (worksNumbered s)) ∧
  (∃ (layout : Nat) (row : Nat) (pos : Nat) (l : Layout) (s : State), (layoutOf s layout = some l) ∧ (sealable s l row pos (lostNow s l row pos) = false)) ∧
  (∃ (s : State), (32768 ≤ lossHeld s) ∧ (s.degrade.lossFull = false)) ∧
  (∃ (s : State), lossHeld s < 32768) ∧
  (∃ (layout : Nat) (row : Nat) (j : Nat) (rho : Nat) (chunks : List (ChunkId × List Byte)) (l : Layout) (v : VolumeDef) (b : Band) (s : State), (opfin s = true) ∧ (layoutOf s layout = some l) ∧ (ownerOf s layout row = some (v, b, rho)) ∧ (b.unwritten.getLsbD rho = false) ∧ (serves s (l.powerGroup (.p j)) = true) ∧ (scrubMay s (l.powerGroup (.p j)) = true) ∧ (j < l.groups.length) ∧ (holdFree s layout row = true) ∧ (lossPauses s layout = false) ∧ (erasedChunks s l row = []) ∧ ((∀ c, c ∈ (covers l (.p j)).map ChunkId.d ++ [.p j, .q j] → (∃ e ∈ chunks, e.1 = c) ∧ ∀ p ∈ l.positions, scrubFailed chunks c p = false)) ∧ ((∀ p ∈ l.positions, judgePosition (covers l (.p j)) (scrubDeltas l j chunks p).1 (scrubDeltas l j chunks p).2 = .none)) ∧ ((∀ c ∈ s.cmds, (layout, row, j) ∉ c.checks))) ∧
  (∃ (layout : Nat) (s : State), lossPauses s layout = true) ∧
  (∃ (layout : Nat) (row : Nat) (rho : Nat) (chunks : List (ChunkId × List Byte)) (l : Layout) (v : VolumeDef) (b : Band) (s : State), (opfin s = true) ∧ (layoutOf s layout = some l) ∧ (ownerOf s layout row = some (v, b, rho)) ∧ (b.unwritten.getLsbD rho = false) ∧ (l.globals ≠ 0) ∧ (holdFree s layout row = true) ∧ (lossPauses s layout = false) ∧ (s.degrade.batch = []) ∧ (globalDue s layout row = true) ∧ ((∀ w ∈ s.works, w.layout = layout → w.row = row → w.step < 2)) ∧ ((∀ e ∈ chunks, e.1 ≠ .g 1))) :=
  ⟨
    ⟨(1 : Nat), ([0, 1, 2] : List Nat), (run0 : State), by decide⟩,
    ⟨([] : List Nat), (run0 : State), by decide⟩,
    ⟨(0 : Nat), (0 : Nat), (0 : Nat), (0 : Nat), (lay0 : Layout), (vol0 : VolumeDef), (bnd0 : Band), ({ run0 with bands := [bnd0], drives := { members := (List.range 3).map (fun m => (m, { state := 3 })) }, ledger := { recs := [rec0] } } : State), by unfold worksNumbered; decide +kernel⟩,
    ⟨(0 : Nat), (0 : Nat), (0 : Nat), (lay0 : Layout), (run0 : State), by decide +kernel⟩,
    ⟨({ run0 with degrade := { loss := List.replicate 32768 ⟨0, 0, 1, 0, 0, 0, 0, true, 0⟩ } } : State), ⟨(List.length_replicate ..).ge, rfl⟩⟩,
    ⟨(run0 : State), by decide⟩,
    ⟨(0 : Nat), (0 : Nat), (0 : Nat), (0 : Nat), (chk0 : List (ChunkId × List Byte)), (lay0 : Layout), (vol0 : VolumeDef), (bnd0 : Band), ({ run0 with bands := [bnd0], drives := { members := (List.range 3).map (fun m => (m, { state := 1 })) }, gov := { groups := [(0, { state := 2 })] } } : State), by refine ⟨by decide, by decide, by decide, by decide, by decide +kernel, by decide +kernel, by decide, by decide, by decide, by decide +kernel, ?_, fun p _ => judge_zeros p, by decide⟩; intro c hc; have hc : c ∈ [ChunkId.d 0, .p 0, .q 0] := hc; simp only [List.mem_cons, List.not_mem_nil, or_false] at hc; rcases hc with rfl | rfl | rfl <;> exact ⟨by decide +kernel, by decide +kernel⟩⟩,
    ⟨(0 : Nat), ({ run0 with degrade := { lossFull := true, lossVols := [0] } } : State), by decide⟩,
    ⟨(1 : Nat), (0 : Nat), (0 : Nat), ([] : List (ChunkId × List Byte)), (lay1 : Layout), (vol0 : VolumeDef), ({ bnd0 with layout := 1 } : Band), ({ run0 with bands := [{ bnd0 with layout := 1 }] } : State), by decide⟩⟩

/-- ReshapesRun: the hypotheses of its clauses are met. -/
theorem test_meets_ReshapesRun :
  (∃ (tag : Nat) (c : Cmd) (e : Nat × Nat) (s : State), (reshapeCmd s tag 0 = some c) ∧ (startRefusal s c.hdr.volume (c.hdr.f 25 1) = some e)) ∧
  (∃ (tag : Nat) (k : Nat) (c : Cmd) (s : State), (reshapeCmd s tag 0 = some c) ∧ (startRefusal s c.hdr.volume (c.hdr.f 25 1) = none) ∧ (s.reshapes.slots.length = 4) ∧ ((List.range 4).find? (fun k => (rsh s k).state = 0) = some k)) ∧
  (∃ (tag : Nat) (k : Nat) (c : Cmd) (s : State), (slotOf s c.hdr.volume = some k) ∧ (reshapeCmd s tag 1 = some c) ∧ (((rsh s k).state = 2 ∨ (rsh s k).state = 4))) ∧
  (∃ (tag : Nat) (k : Nat) (c : Cmd) (s : State), (slotOf s c.hdr.volume = some k) ∧ (reshapeCmd s tag 2 = some c) ∧ ((rsh s k).state = 3)) ∧
  (∃ (tag : Nat) (k : Nat) (c : Cmd) (s : State), (slotOf s c.hdr.volume = some k) ∧ (reshapeCmd s tag 3 = some c) ∧ ((rsh s k).state ≤ 4)) ∧
  (∃ (tag : Nat) (c : Cmd) (s : State), (slotOf s c.hdr.volume = none) ∧ (reshapeCmd s tag 1 = some c)) ∧
  (∃ (tag : Nat) (c : Cmd) (s : State), (slotOf s c.hdr.volume = none) ∧ (reshapeCmd s tag 2 = some c)) ∧
  (∃ (tag : Nat) (c : Cmd) (s : State), (slotOf s c.hdr.volume = none) ∧ (reshapeCmd s tag 3 = some c)) ∧
  (∃ (k : Nat) (acks : List Nat) (s : State), (k < 4) ∧ ((rsh s k).state = 1) ∧ ((rsh s k).built = true) ∧ (majority s acks = true)) ∧
  (∃ (k : Nat) (acks : List Nat) (s : State), ((rsh s k).built = false ∨ majority s acks = false)) ∧
  (∃ (v : Nat) (g : Nat) (k : Nat) (d : VolumeDef) (s : State), (opfin s = true) ∧ (volDef s v = some d) ∧ (bit d.flags 0 = true) ∧ (feature s 5 = 1) ∧ (longDegraded s (vol s v).layout = true) ∧ (v ∉ s.reshapes.barred) ∧ (retires s = true) ∧ (minOf (((s.ch (·.layouts) []).filter (fun l => l.fallback = (vol s v).layout && (startRefusal s v l.index).isNone)).map (fun l => l.index)) = some g) ∧ (s.reshapes.slots.length = 4) ∧ ((List.range 4).find? (fun k => (rsh s k).state = 0) = some k)) ∧
  (∃ (s : State), feature s 5 ≠ 1) ∧
  (∃ (k : Nat) (d : VolumeDef) (l : Layout) (s : State), (k < 4) ∧ (volDef s (rsh s k).volume = some d) ∧ (layoutOf s (rsh s k).target = some l) ∧ ((rsh s k).state = 2) ∧ ((rsh s k).regionDone = false) ∧ ((rsh s k).reqs = []) ∧ ((∀ w ∈ s.works, w.kind ≠ .reshape k)) ∧ (yieldCause s (rsh s k) = 0) ∧ ((copyRegions s k).any (fun x => decide ((rsh s k).region ≤ x)) = true)) ∧
  (∃ (k : Nat) (s : State), ((∀ w ∈ s.works, w.kind ≠ .reshape k)) ∧ (((rsh s k).state ≠ 2 ∨ yieldCause s (rsh s k) ≠ 0))) :=
  ⟨
    ⟨(1 : Nat), (com0 0x86 : Cmd), ((0x10, 0x09) : Nat × Nat), (one (com0 0x86) : State), by decide⟩,
    ⟨(1 : Nat), (0 : Nat), (comOp 0x86 [0, 1] : Cmd), ({ one (comOp 0x86 [0, 1]) with vols := [(0, { state := 2 })], chip := { pwrgd := true, locked := true, step := 15, layoutOk := 3 }, feats := { value := [(4, 64)] } } : State), by decide +kernel⟩,
    ⟨(1 : Nat), (0 : Nat), (comOp 0x86 [1] : Cmd), ({ rsp0 { state := 2 } with cmds := [comOp 0x86 [1]] } : State), by decide⟩,
    ⟨(1 : Nat), (0 : Nat), (comOp 0x86 [2] : Cmd), ({ rsp0 { state := 3 } with cmds := [comOp 0x86 [2]] } : State), by decide⟩,
    ⟨(1 : Nat), (0 : Nat), (comOp 0x86 [3] : Cmd), ({ rsp0 { state := 2 } with cmds := [comOp 0x86 [3]] } : State), by decide⟩,
    ⟨(1 : Nat), (comOp 0x86 [1] : Cmd), (one (comOp 0x86 [1]) : State), by decide⟩,
    ⟨(1 : Nat), (comOp 0x86 [2] : Cmd), (one (comOp 0x86 [2]) : State), by decide⟩,
    ⟨(1 : Nat), (comOp 0x86 [3] : Cmd), (one (comOp 0x86 [3]) : State), by decide⟩,
    ⟨(0 : Nat), ([0, 1, 2] : List Nat), (rsp0 { state := 1, built := true } : State), by decide⟩,
    ⟨(0 : Nat), ([] : List Nat), (run0 : State), by decide⟩,
    ⟨(0 : Nat), (1 : Nat), (0 : Nat), ({ vol0 with flags := 1 } : VolumeDef), ({ late0 with charter := some { char0 with volumes := [{ vol0 with flags := 1 }] }, vols := [(0, { state := 2 })], chip := { pwrgd := true, locked := true, step := 15, layoutOk := 3 }, degrade := { updates := [⟨0, 0, 0, .none, true, false, 0⟩] }, feats := { value := [(4, 64)] } } : State), by decide +kernel⟩,
    ⟨({ run0 with feats := { value := [(5, 0)] } } : State), by decide⟩,
    ⟨(0 : Nat), (vol0 : VolumeDef), (lay1 : Layout), ({ rsp0 { state := 2, target := 1 } with bands := [bnd0] } : State), by decide +kernel⟩,
    ⟨(0 : Nat), (run0 : State), by decide⟩⟩

/-- PostingsRun: the hypotheses of its clauses are met. -/
theorem test_meets_PostingsRun :
  (∃ (p : Posting) (s : State), (descriptorOk p = false) ∧ (findWork s p.work = none)) ∧
  (∃ (p : Posting) (x : Nat) (s : State), (descriptorOk p = true) ∧ (postingReady s p = true) ∧ (s.tellers.producer = []) ∧ (chooseHome s = some x) ∧ (p.promoted = false)) ∧
  (∃ (p : Posting) (s : State), (descriptorOk p = true) ∧ (postingReady s p = true) ∧ (s.tellers.producer = []) ∧ (chooseHome s = none)) ∧
  (∃ (p : Posting) (s : State), (descriptorOk p = true) ∧ (postingReady s p = false)) ∧
  (∃ (x : Nat) (t : Nat) (p : Posting) (rest : List (Nat × Posting)) (s : State), (x < 128) ∧ (t < 25600) ∧ (canTake (s.at t) x = true) ∧ (ownEntry (s.at t) x t = some (p, rest)) ∧ (knownProgram s p.program = true) ∧ (s.tellers.draws = []) ∧ ((tbranch s (branchOf x)).reissue = []) ∧ (s.tellers.producer = [])) ∧
  (∃ (x : Nat) (t : Nat) (s : State), (x < 128) ∧ (t < 25600) ∧ (canTake (s.at t) x = false)) ∧
  (∃ (x : Nat) (t : Nat) (v : Nat) (e : Nat × Posting) (r : List (Nat × Posting)) (s : State), (x < 128) ∧ (t < 25600) ∧ (t % 16 = 0) ∧ (canTake (s.at t) x = true) ∧ (ownEntry (s.at t) x t = none) ∧ (s.tellers.draws = []) ∧ (s.tellers.pushed = []) ∧ (victim (s.at t) x t 0 (siblingsOf x) = some v) ∧ ((tslot s v).deque = e :: r) ∧ (knownProgram s e.2.program = true)) ∧
  (∃ (x : Nat) (t : Nat) (v : Nat) (e : Nat × Posting) (r : List (Nat × Posting)) (s : State), (x < 128) ∧ (t < 25600) ∧ (t % 16 = 0) ∧ (canTake (s.at t) x = true) ∧ (ownEntry (s.at t) x t = none) ∧ (s.tellers.draws = []) ∧ (s.tellers.pushed = []) ∧ (victim (s.at t) x t 0 (siblingsOf x) = none) ∧ (victim (s.at t) x t 64 (othersOf (s.at t) x) = some v) ∧ ((tslot s v).deque = e :: r) ∧ (knownProgram s e.2.program = true)) ∧
  (∃ (x : Nat) (t : Nat) (d : Nat) (p : Posting) (s : State), (x < 128) ∧ (t < 25600) ∧ ((tslot s x).running = some p) ∧ ((tslot s x).startAt + p.estimate ≤ absCycle (s.at t)) ∧ (readsPoison s p = false) ∧ (p.program = 0) ∧ (p.dests = [d]) ∧ (p.bases = [])) ∧
  (∃ (x : Nat) (t : Nat) (p : Posting) (s : State), (x < 128) ∧ (t < 25600) ∧ ((tslot s x).running = some p) ∧ ((tslot s x).startAt + p.estimate ≤ absCycle (s.at t)) ∧ (readsPoison s p = false) ∧ (p.program = 1)) ∧
  (∃ (x : Nat) (t : Nat) (p : Posting) (w : Work) (s : State), (x < 128) ∧ (t < 25600) ∧ ((tslot s x).running = some p) ∧ ((tslot s x).startAt + p.estimate ≤ absCycle (s.at t)) ∧ (readsPoison s p = false) ∧ (findWork s p.work = some w) ∧ (w.step = 3) ∧ (2 ≤ w.postsLeft)) ∧
  (∃ (x : Nat) (t : Nat) (p : Posting) (s : State), (x < 128) ∧ (t < 25600) ∧ ((tslot s x).running = some p) ∧ (absCycle (s.at t) < (tslot s x).startAt + p.estimate)) ∧
  (∃ (x : Nat) (p : Nat) (q : Posting) (s : State), ((tslot s x).phys = some p) ∧ ((tslot s x).running = some q)) ∧
  (∃ (x : Nat) (s : State), (tslot s x).phys = none) :=
  ⟨
    ⟨({ post0 with crcGood := false } : Posting), (run0 : State), by decide⟩,
    ⟨(post0 : Posting), (0 : Nat), (tels [(0, { phys := some 0 })] : State), by decide⟩,
    ⟨(post0 : Posting), ({ run0 with tellers := {} } : State), by decide⟩,
    ⟨({ post0 with pred := some 9 } : Posting), (tels [] : State), by decide⟩,
    ⟨(0 : Nat), (0 : Nat), (post0 : Posting), ([] : List (Nat × Posting)), (tels [(0, { phys := some 0, deque := [(0, post0)] })] : State), by decide⟩,
    ⟨(0 : Nat), (0 : Nat), (tels [] : State), by decide⟩,
    ⟨(0 : Nat), (0 : Nat), (1 : Nat), ((0, post0) : Nat × Posting), ([] : List (Nat × Posting)), (tels [(0, { phys := some 0 }), (1, { phys := some 1, deque := [(0, post0)] })] : State), by decide⟩,
    ⟨(0 : Nat), (0 : Nat), (8 : Nat), ((0, post0) : Nat × Posting), ([] : List (Nat × Posting)), (tels [(0, { phys := some 0 }), (8, { phys := some 8, deque := [(0, post0)] })] : State), by decide⟩,
    ⟨(0 : Nat), (10 : Nat), (64 : Nat), (post0 : Posting), (tels [(0, { phys := some 0, running := some post0 })] : State), by decide⟩,
    ⟨(0 : Nat), (10 : Nat), ({ post0 with program := 1 } : Posting), (tels [(0, { phys := some 0, running := some { post0 with program := 1 } })] : State), by decide⟩,
    ⟨(0 : Nat), (10 : Nat), (post0 : Posting), ({ work0 with postsLeft := 2 } : Work), ({ tels [(0, { phys := some 0, running := some post0 })] with works := [{ work0 with postsLeft := 2 }] } : State), by decide⟩,
    ⟨(0 : Nat), (0 : Nat), (post0 : Posting), (tels [(0, { phys := some 0, running := some post0 })] : State), by decide⟩,
    ⟨(0 : Nat), (0 : Nat), (post0 : Posting), (tels [(0, { phys := some 0, running := some post0 })] : State), by decide⟩,
    ⟨(0 : Nat), ({ run0 with tellers := {} } : State), by decide⟩⟩

/-- TellersAndScratch: the hypotheses of its clauses are met. -/
theorem test_meets_TellersAndScratch :
  (∃ (p : Nat) (x : Nat) (r : List Nat) (s : State), (minOf (testing s) = some p) ∧ (s.tellers.vacant.filter (fun x => !s.tellers.admitDue.any (fun d => d.2 = x)) = x :: r)) ∧
  (∃ (p : Nat) (s : State), minOf (testing s) = some p) ∧
  (∃ (s : State), testing s = []) ∧
  (∃ (b : Nat) (s : State), (s.power.state = 1) ∧ (b < 16) ∧ ((tbranch s b).gated = false) ∧ (branchIdle s b = true) ∧ ((tbranch s b).idleSince + s.ch (·.branchIdle) 125 ≤ s.now)) ∧
  (∃ (s : State), s.power.state ≠ 1) ∧
  (∃ (a : ScrAccess) (d : Lanes) (s : State), (a.write = some d) ∧ (d.length ≤ 64) ∧ (mayTouch s a = true) ∧ (a.port < 154) ∧ ((accBanks s a).length = (accWords a).length) ∧ ((∀ b ∈ accBanks s a, (bank s b).state = 0))) ∧
  (∃ (a : ScrAccess) (s : State), (a.write = none) ∧ (a.len ≤ 64) ∧ (mayTouch s a = true) ∧ (a.ecc = 0) ∧ (a.port < 154) ∧ ((accBanks s a).length = (accWords a).length) ∧ ((∀ b ∈ accBanks s a, (bank s b).state = 0)) ∧ ((∀ w ∈ accWords a, w ∉ s.scratch.poisoned))) ∧
  (∃ (a : ScrAccess) (b : ScrAccess) (d : Lanes) (e : Lanes) (s : State), (a.write = some d) ∧ (b.write = some e) ∧ (d.length ≤ 64) ∧ (e.length ≤ 64) ∧ (mayTouch s a = true) ∧ (mayTouch s b = true) ∧ (a.port < b.port) ∧ (b.port < 138) ∧ ((∃ x ∈ accBytes a, x ∈ accBytes b)) ∧ ((accBanks s a).length = (accWords a).length) ∧ ((accBanks s b).length = (accWords b).length) ∧ ((∀ k ∈ accBanks s a ++ accBanks s b, (bank s k).state = 0))) ∧
  (∃ (b : Nat) (s : State), (b < 264) ∧ ((bank s b).mapped = true) ∧ ((bank s b).retired = false) ∧ ((∀ c ∈ s.scratch.copies, c.old ≠ b ∧ c.new ≠ some b))) ∧
  (∃ (b : Nat) (s : State), ((bank s b).retired = true) ∧ ((∀ c ∈ s.scratch.copies, c.new ≠ some b))) ∧
  (∃ (b : Nat) (s : State), (s.power.state = 1) ∧ (b < 264) ∧ ((bank s b).mapped = true) ∧ ((bank s b).state = 0)) ∧
  (∃ (t : Nat) (b : Nat) (ports : List Nat) (s : State), ((s.at t).quiet = true) ∧ (s.closers.entry = 2) ∧ ((s.at t).clock.cycle + 340 ≤ 25600) ∧ (s.power.state < 2) ∧ (s.scratch.swept = false) ∧ (bankOf s s.scratch.sweepBank = some b) ∧ ((∀ c ∈ s.scratch.copies, c.old ≠ b)) ∧ (s.scratch.sweepBank < 255) ∧ ((∀ p ∈ ports, 138 ≤ p))) ∧
  (∃ (t : Nat) (b : Nat) (ports : List Nat) (s : State), ((s.at t).quiet = true) ∧ (s.closers.entry = 2) ∧ ((s.at t).clock.cycle + 340 ≤ 25600) ∧ (s.power.state < 2) ∧ (s.scratch.swept = false) ∧ (bankOf s s.scratch.sweepBank = some b) ∧ ((∀ c ∈ s.scratch.copies, c.old ≠ b)) ∧ (s.scratch.sweepBank < 255) ∧ ((∃ p ∈ ports, p < 138))) ∧
  (∃ (t : Nat) (b : Nat) (ports : List Nat) (s : State), ((s.at t).quiet = true) ∧ (s.closers.entry = 2) ∧ ((s.at t).clock.cycle + 340 ≤ 25600) ∧ (s.power.state < 2) ∧ (s.scratch.swept = false) ∧ (bankOf s s.scratch.sweepBank = some b) ∧ ((∀ c ∈ s.scratch.copies, c.old ≠ b)) ∧ (s.scratch.sweepBank < 255) ∧ ((∀ p ∈ ports, 138 ≤ p)) ∧ ((bank s b).retired = false) ∧ ((∀ c ∈ s.scratch.copies, c.new ≠ some b)) ∧ ((bank s b).mapped = true)) ∧
  (∃ (s : State), s.closers.entry ≠ 2) :=
  ⟨
    ⟨(0 : Nat), (5 : Nat), ([] : List Nat), ({ run0 with tellers := { phys := [(0, { state := 3 })], vacant := [5] } } : State), by decide⟩,
    ⟨(0 : Nat), ({ run0 with tellers := { phys := [(0, { state := 3 })], vacant := [5] } } : State), by decide⟩,
    ⟨({ run0 with tellers := {} } : State), by decide⟩,
    ⟨(0 : Nat), ({ run0 with power := { state := 1 }, tellers := {} } : State), by decide⟩,
    ⟨(run0 : State), by decide⟩,
    ⟨({ acc0 with write := some [some 1] } : ScrAccess), ([some 1] : Lanes), ({ run0 with scratch := { banks := [(0, {})] } } : State), by decide⟩,
    ⟨(acc0 : ScrAccess), ({ run0 with scratch := { banks := [(0, {})] } } : State), by decide⟩,
    ⟨({ acc0 with write := some [some 1] } : ScrAccess), ({ acc0 with port := 1, write := some [some 2] } : ScrAccess), ([some 1] : Lanes), ([some 2] : Lanes), ({ run0 with scratch := { banks := [(0, {})] } } : State), by decide⟩,
    ⟨(0 : Nat), (run0 : State), by decide⟩,
    ⟨(0 : Nat), ({ run0 with scratch := { banks := [(0, { retired := true })] } } : State), by decide⟩,
    ⟨(0 : Nat), ({ run0 with power := { state := 1 } } : State), by decide⟩,
    ⟨(24576 : Nat), (0 : Nat), ([] : List Nat), ({ quiet0 with scratch := { banks := [(0, {})] } } : State), by decide⟩,
    ⟨(24576 : Nat), (0 : Nat), ([0] : List Nat), ({ quiet0 with scratch := { banks := [(0, {})] } } : State), by decide⟩,
    ⟨(24576 : Nat), (0 : Nat), ([] : List Nat), ({ quiet0 with scratch := { banks := [(0, {})] } } : State), by decide⟩,
    ⟨(run0 : State), by decide⟩⟩

/-- PowerGroupsCycle: the hypotheses of its clauses are met. -/
theorem test_meets_PowerGroupsCycle :
  (∃ (tag : Nat) (c : Cmd) (s : State), windowCmd s tag 0 .started = some c) ∧
  (∃ (tag : Nat) (c : Cmd) (s : State), windowCmd s tag 1 .started = some c) ∧
  (∃ (tag : Nat) (c : Cmd) (s : State), (windowCmd s tag 0 .busy = some c) ∧ ((grp s (c.hdr.f 24 1)).state ≠ 2) ∧ (c.hdr.f 36 4 ≠ 0) ∧ (c.pos.close + c.hdr.f 36 4 < s.now)) ∧
  (∃ (tag : Nat) (c : Cmd) (s : State), (windowCmd s tag 0 .busy = some c) ∧ ((grp s (c.hdr.f 24 1)).state ≠ 2) ∧ ((c.hdr.f 36 4 = 0 ∨ s.now ≤ c.pos.close + c.hdr.f 36 4))) ∧
  (∃ (g : Nat) (s : State), ((grp s g).state = 1) ∧ ((grp s g).shelfOk = false)) ∧
  (∃ (g : Nat) (s : State), ((grp s g).state = 1) ∧ ((grp s g).shelfOk = false) ∧ ((grp s g).nextStep ≤ s.now)) ∧
  (∃ (g : Nat) (s : State), s.now < (grp s g).nextStep) ∧
  (∃ (g : Nat) (s : State), ((grp s g).state = 1) ∧ ((grp s g).shelfOk = true) ∧ ((grp s g).nextStep ≤ s.now) ∧ ((grp s g).batch * max 1 (((groupDef s g).map (fun d => d.batch)).getD 12) < (groupMembers s g).length)) ∧
  (∃ (g : Nat) (s : State), (s.clock.cycle = 0) ∧ ((grp s g).state = 1) ∧ ((∀ m ∈ groupMembers s g, (mem s m).state = 1 → (mem s m).ready = true))) ∧
  (∃ (g : Nat) (m : Nat) (s : State), (m ∈ groupMembers s g) ∧ ((mem s m).state = 1) ∧ ((mem s m).ready = false)) ∧
  (∃ (g : Nat) (s : State), (s.clock.cycle = 0) ∧ ((grp s g).state = 1) ∧ ((grp s g).granted + ((groupDef s g).map (fun d => d.spinUpLimit)).getD (2 ^ 22) ≤ s.now)) ∧
  (∃ (g : Nat) (s : State), (grp s g).state ≠ 1) ∧
  (∃ (g : Nat) (s : State), (s.clock.cycle = 0) ∧ ((grp s g).state = 3) ∧ ((grp s g).endAt < s.now) ∧ ((∀ c ∈ s.drives.cmds, c.member ∈ groupMembers s g → c.late = true))) ∧
  (∃ (g : Nat) (s : State), s.now ≤ (grp s g).endAt) ∧
  (∃ (g : Nat) (s : State), (s.clock.cycle = 0) ∧ ((grp s g).state = 4) ∧ ((grp s g).nextStep ≤ s.now)) ∧
  (∃ (g : Nat) (s : State), (grp s g).state ≠ 4) ∧
  (∃ (g : Nat) (s : State), ((grp s g).claimed = true) ∧ ((grp s g).claimEnd ≤ s.now)) ∧
  (∃ (g : Nat) (s : State), s.now < (grp s g).claimEnd) :=
  ⟨
    ⟨(1 : Nat), (com0 0x88 : Cmd), (one (com0 0x88) : State), by decide⟩,
    ⟨(1 : Nat), (comOp 0x88 [0, 1] : Cmd), (one (comOp 0x88 [0, 1]) : State), by decide⟩,
    ⟨(1 : Nat), (busy0 (comOp 0x88 [0, 0, 0, 0, 0, 0, 0, 0, 0, 0, 0, 0, 1]) : Cmd), ({ one (busy0 (comOp 0x88 [0, 0, 0, 0, 0, 0, 0, 0, 0, 0, 0, 0, 1])) with clock := { close := 5 } } : State), by decide⟩,
    ⟨(1 : Nat), (busy0 (com0 0x88) : Cmd), (one (busy0 (com0 0x88)) : State), by decide⟩,
    ⟨(0 : Nat), (grp0 { state := 1, shelfOk := false } : State), by decide⟩,
    ⟨(0 : Nat), (grp0 { state := 1, shelfOk := false } : State), by decide⟩,
    ⟨(0 : Nat), (grp0 { nextStep := 5 } : State), by decide⟩,
    ⟨(0 : Nat), (memb4 {} { state := 1 } : State), by decide +kernel⟩,
    ⟨(0 : Nat), (grp0 { state := 1 } : State), by decide +kernel⟩,
    ⟨(0 : Nat), (4 : Nat), (memb4 { state := 1 } {} : State), by decide +kernel⟩,
    ⟨(0 : Nat), ({ grp0 { state := 1 } with clock := { close := 100000000 } } : State), by decide⟩,
    ⟨(0 : Nat), (run0 : State), by decide⟩,
    ⟨(0 : Nat), ({ grp0 { state := 3 } with clock := { close := 5 } } : State), by decide +kernel⟩,
    ⟨(0 : Nat), (run0 : State), by decide⟩,
    ⟨(0 : Nat), (grp0 { state := 4 } : State), by decide⟩,
    ⟨(0 : Nat), (run0 : State), by decide⟩,
    ⟨(0 : Nat), (grp0 { claimed := true } : State), by decide⟩,
    ⟨(0 : Nat), (grp0 { claimEnd := 5 } : State), by decide⟩⟩

/-- SasLanesAndDiscovery: the hypotheses of its clauses are met. -/
theorem test_meets_SasLanesAndDiscovery :
  (∃ (n : Nat) (rate : Nat) (s : State), (n < 16) ∧ ((lane s n).inPort = true) ∧ (((lane s n).state = 1 ∨ (lane s n).state = 3)) ∧ (1 ≤ rate) ∧ (rate ≤ portRate s (lane s n).port)) ∧
  (∃ (n : Nat) (rate : Nat) (s : State), portRate s (lane s n).port < rate) ∧
  (∃ (n : Nat) (s : State), (n < 16) ∧ ((lane s n).state = 2)) ∧
  (∃ (n : Nat) (s : State), (lane s n).state ≠ 2) ∧
  (∃ (n : Nat) (s : State), (n < 16) ∧ ((lane s n).inPort = true) ∧ ((lane s n).state ≠ 2) ∧ ((lane s n).downSince + 65536 ≤ s.now) ∧ ((lane s n).replaceDue = none)) ∧
  (∃ (n : Nat) (s : State), (lane s n).state = 2) ∧
  (∃ (n : Nat) (s : State), (3 ≤ ((lane s n).failures.filter (fun c => s.now < c + 2 ^ 24)).length) ∧ ((lane s n).flagged = false) ∧ ((lane s n).inPort = true)) ∧
  (∃ (n : Nat) (s : State), ((lane s n).failures.filter (fun c => s.now < c + 2 ^ 24)).length < 3) ∧
  (∃ (n : Nat) (r : Retrim) (s : State), ((lane s n).slot = true) ∧ ((lane s n).state = 2) ∧ (retrimPlausible r = true)) ∧
  (∃ (n : Nat) (r : Retrim) (s : State), ((lane s n).slot = true) ∧ ((lane s n).state = 2) ∧ (retrimPlausible r = false)) ∧
  (∃ (n : Nat) (s : State), (lane s n).slot = false) ∧
  (∃ (n : Nat) (s : State), (lane s n).slot = true) ∧
  (∃ (s : State), opfin s = true) ∧
  (∃ (s : State), opfin s = false) :=
  ⟨
    ⟨(0 : Nat), (1 : Nat), ({ lan0 { state := 1, inPort := true } with charter := some { char0 with ports := [⟨4, 0, 3⟩] } } : State), by decide⟩,
    ⟨(0 : Nat), (1 : Nat), (run0 : State), by decide⟩,
    ⟨(0 : Nat), (lan0 { state := 2 } : State), by decide⟩,
    ⟨(0 : Nat), (run0 : State), by decide⟩,
    ⟨(0 : Nat), ({ lan0 { inPort := true } with clock := { close := 65536 } } : State), by decide⟩,
    ⟨(0 : Nat), (lan0 { state := 2 } : State), by decide⟩,
    ⟨(0 : Nat), (lan0 { inPort := true, failures := [0, 0, 0] } : State), by decide⟩,
    ⟨(0 : Nat), (run0 : State), by decide⟩,
    ⟨(0 : Nat), (trim0 true : Retrim), (lan0 { slot := true, state := 2 } : State), by decide⟩,
    ⟨(0 : Nat), (trim0 false : Retrim), (lan0 { slot := true, state := 2 } : State), by decide⟩,
    ⟨(0 : Nat), (run0 : State), by decide⟩,
    ⟨(0 : Nat), (lan0 { slot := true } : State), by decide⟩,
    ⟨(run0 : State), by decide⟩,
    ⟨({ run0 with mgmt := { state := 1 } } : State), by decide⟩⟩

/-- VaultWritesAreTaken: the hypotheses of its clauses (VaultWritesAreRecorded) are met. -/
theorem test_meets_VaultWritesAreRecorded :
  (∃ (tag : Nat) (c : Cmd) (s : State), (startedCmd s tag 0x40 = some c) ∧ (vaultAhead s c Cmd.vaultWrite = false)) ∧
  (∃ (tag : Nat) (c : Cmd) (s : State), (startedCmd s tag 0x46 = some c) ∧ (vaultAhead s c Cmd.vaultWrite = false) ∧ (allocRange s c.hdr.volume 0 3 = none)) ∧
  (∃ (tag : Nat) (c : Cmd) (s : State) (u : _), (startedCmd s tag 0x46 = some c) ∧ (vaultAhead s c Cmd.vaultWrite = false) ∧ (allocRange s c.hdr.volume 0 3 = some u)) ∧
  (∃ (tag : Nat) (c : Cmd) (s : State), (cmdIn s tag (fun c => c.phase = .busy && c.hdr.opcode = 0x45 && !c.failed && c.taken = c.hdr.d) = some c) ∧ (vaultAhead s c Cmd.vaultWrite = false) ∧ (allocRange s c.hdr.volume 0 3 = none)) ∧
  (∃ (tag : Nat) (c : Cmd) (s : State) (u : _), (cmdIn s tag (fun c => c.phase = .busy && c.hdr.opcode = 0x45 && !c.failed && c.taken = c.hdr.d) = some c) ∧ (vaultAhead s c Cmd.vaultWrite = false) ∧ (allocRange s c.hdr.volume 0 3 = some u)) ∧
  (∃ (tag : Nat) (c : Cmd) (s : State), (cmdIn s tag (fun c => c.hdr.opcode = 0x42 && !c.failed && (c.phase = .started && c.hdr.d = 0 || c.phase = .busy && c.taken = c.hdr.d)) = some c) ∧ (vaultAhead s c Cmd.vaultWrite = false) ∧ ((findSession s c.hdr.blocks).filter (fun x => x.vault = c.hdr.volume && x.key = c.hdr.key) = none)) ∧
  (∃ (tag : Nat) (c : Cmd) (s : State) (x : _), (cmdIn s tag (fun c => c.hdr.opcode = 0x42 && !c.failed && (c.phase = .started && c.hdr.d = 0 || c.phase = .busy && c.taken = c.hdr.d)) = some c) ∧ (vaultAhead s c Cmd.vaultWrite = false) ∧ ((findSession s c.hdr.blocks).filter (fun x => x.vault = c.hdr.volume && x.key = c.hdr.key) = some x) ∧ (x.received ≠ x.size)) ∧
  (∃ (tag : Nat) (c : Cmd) (s : State) (x : _), (cmdIn s tag (fun c => c.hdr.opcode = 0x42 && !c.failed && (c.phase = .started && c.hdr.d = 0 || c.phase = .busy && c.taken = c.hdr.d)) = some c) ∧ (vaultAhead s c Cmd.vaultWrite = false) ∧ ((findSession s c.hdr.blocks).filter (fun x => x.vault = c.hdr.volume && x.key = c.hdr.key) = some x) ∧ (x.received = x.size) ∧ (c.hdr.d = 32) ∧ (Memory.bytes c.payload 32 ≠ (objectOf x).digest)) ∧
  (∃ (tag : Nat) (c : Cmd) (s : State) (x : _) (u : _), (cmdIn s tag (fun c => c.hdr.opcode = 0x42 && !c.failed && (c.phase = .started && c.hdr.d = 0 || c.phase = .busy && c.taken = c.hdr.d)) = some c) ∧ (vaultAhead s c Cmd.vaultWrite = false) ∧ ((findSession s c.hdr.blocks).filter (fun x => x.vault = c.hdr.volume && x.key = c.hdr.key) = some x) ∧ (x.received = x.size) ∧ ((c.hdr.d = 0 ∨ c.hdr.d = 32 ∧ Memory.bytes c.payload 32 = (objectOf x).digest)) ∧ (tableBlocks x.size = 0) ∧ (allocRange s c.hdr.volume 0 3 = some u)) ∧
  (∃ (tag : Nat) (c : Cmd) (s : State), (findCmd s tag = some c) ∧ (vaultAhead s c Cmd.vaultWrite = true)) :=
  ⟨
    ⟨(1 : Nat), (com0 0x40 : Cmd), (one (com0 0x40) : State), by decide⟩,
    ⟨(1 : Nat), (com0 0x46 : Cmd), ({ one (com0 0x46) with ledger := { assigned := 2 ^ 29 } } : State), ⟨by decide, by decide, by decide +kernel⟩⟩,
    ⟨(1 : Nat), (com0 0x46 : Cmd), ({ one (com0 0x46) with bands := [bnd0] } : State), _, ⟨by decide, by decide, rfl⟩⟩,
    ⟨(1 : Nat), (busy0 (com0 0x45) : Cmd), ({ one (busy0 (com0 0x45)) with ledger := { assigned := 2 ^ 29 } } : State), ⟨by decide, by decide, by decide +kernel⟩⟩,
    ⟨(1 : Nat), (busy0 (com0 0x45) : Cmd), ({ one (busy0 (com0 0x45)) with bands := [bnd0] } : State), _, ⟨by decide, by decide, rfl⟩⟩,
    ⟨(1 : Nat), (com0 0x42 : Cmd), (one (com0 0x42) : State), by decide⟩,
    ⟨(1 : Nat), (com0 0x42 : Cmd), (seds (com0 0x42) (ses0 1 0) : State), ses0 1 0, by decide⟩,
    ⟨(1 : Nat), ({ busy0 (com0 0x42) with hdr := { opcode := 0x42, tag := 1, d := 32 }, taken := 32 } : Cmd), (seds { busy0 (com0 0x42) with hdr := { opcode := 0x42, tag := 1, d := 32 }, taken := 32 } (ses0 0 0) : State), ses0 0 0, by decide +kernel⟩,
    ⟨(1 : Nat), (com0 0x42 : Cmd), (seds (com0 0x42) (ses0 0 0) : State), ses0 0 0, _, ⟨by decide, by decide, by decide, by decide, .inl rfl, by decide, rfl⟩⟩,
    ⟨(1 : Nat), ({ com0 0x40 with pos := ⟨0, 0, 1⟩ } : Cmd), ({ run0 with cmds := [{ com0 0x40 with pos := ⟨0, 0, 1⟩ }, { hdr := { opcode := 0x40, tag := 2 } }] } : State), by decide⟩⟩

/-- VaultWritesAreTaken: the hypotheses of its clauses (VaultPiecesAreTaken) are met. -/
theorem test_meets_VaultPiecesAreTaken :
  (∃ (tag : Nat) (c : Cmd) (s : State), (cmdIn s tag (fun c => c.phase = .busy && c.hdr.opcode = 0x41 && !c.failed && c.taken = c.hdr.d) = some c) ∧ (vaultAhead s c (fun e => e.vaultWrite && (e.hdr.opcode ≠ 0x41 || e.phase ≠ .landing)) = false) ∧ ((findSession s c.hdr.blocks).filter (fun x => x.vault = c.hdr.volume && x.key = c.hdr.key) = none)) ∧
  (∃ (tag : Nat) (c : Cmd) (s : State) (x : _), (cmdIn s tag (fun c => c.phase = .busy && c.hdr.opcode = 0x41 && !c.failed && c.taken = c.hdr.d) = some c) ∧ (vaultAhead s c (fun e => e.vaultWrite && (e.hdr.opcode ≠ 0x41 || e.phase ≠ .landing)) = false) ∧ ((findSession s c.hdr.blocks).filter (fun x => x.vault = c.hdr.volume && x.key = c.hdr.key) = some x) ∧ (c.hdr.lba ≠ receivedSoon s x)) ∧
  (∃ (tag : Nat) (c : Cmd) (s : State) (x : _), (cmdIn s tag (fun c => c.phase = .busy && c.hdr.opcode = 0x41 && !c.failed && c.taken = c.hdr.d) = some c) ∧ (vaultAhead s c (fun e => e.vaultWrite && (e.hdr.opcode ≠ 0x41 || e.phase ≠ .landing)) = false) ∧ ((findSession s c.hdr.blocks).filter (fun x => x.vault = c.hdr.volume && x.key = c.hdr.key) = some x) ∧ (c.hdr.lba = receivedSoon s x) ∧ (x.size < c.hdr.lba + c.hdr.d)) ∧
  (∃ (tag : Nat) (c : Cmd) (s : State) (x : _), (cmdIn s tag (fun c => c.phase = .busy && c.hdr.opcode = 0x41 && !c.failed && c.taken = c.hdr.d) = some c) ∧ (vaultAhead s c (fun e => e.vaultWrite && (e.hdr.opcode ≠ 0x41 || e.phase ≠ .landing)) = false) ∧ ((findSession s c.hdr.blocks).filter (fun x => x.vault = c.hdr.volume && x.key = c.hdr.key) = some x) ∧ (c.hdr.lba = receivedSoon s x) ∧ (c.hdr.lba + c.hdr.d < x.size) ∧ (c.hdr.d % 4096 ≠ 0)) ∧
  (∃ (tag : Nat) (c : Cmd) (s : State) (x : _) (q : _), (cmdIn s tag (fun c => c.phase = .busy && c.hdr.opcode = 0x41 && !c.failed && c.taken = c.hdr.d) = some c) ∧ (vaultAhead s c (fun e => e.vaultWrite && (e.hdr.opcode ≠ 0x41 || e.phase ≠ .landing)) = false) ∧ ((findSession s c.hdr.blocks).filter (fun x => x.vault = c.hdr.volume && x.key = c.hdr.key) = some x) ∧ (c.recSeq = some q) ∧ (c.hdr.lba = receivedSoon s x) ∧ (c.hdr.lba + c.hdr.d ≤ x.size) ∧ ((c.hdr.d % 4096 = 0 ∨ c.hdr.lba + c.hdr.d = x.size)) ∧ (allocRange s c.hdr.volume (x.first + c.hdr.lba / 4096) (ceilDiv c.hdr.d 4096) = some s) ∧ (s.quiet = false)) ∧
  (∃ (tag : Nat) (c : Cmd) (s : State), (findCmd s tag = some c) ∧ (c.taken ≠ c.hdr.d)) :=
  ⟨
    ⟨(1 : Nat), (busy0 (com0 0x41) : Cmd), (one (busy0 (com0 0x41)) : State), by decide⟩,
    ⟨(1 : Nat), (busy0 { hdr := { opcode := 0x41, tag := 1, lba := 1 } } : Cmd), (seds (busy0 { hdr := { opcode := 0x41, tag := 1, lba := 1 } }) (ses0 5 0) : State), ses0 5 0, by decide⟩,
    ⟨(1 : Nat), (busy0 { hdr := { opcode := 0x41, tag := 1, d := 1 }, taken := 1 } : Cmd), (seds (busy0 { hdr := { opcode := 0x41, tag := 1, d := 1 }, taken := 1 }) (ses0 0 0) : State), ses0 0 0, by decide⟩,
    ⟨(1 : Nat), (busy0 { hdr := { opcode := 0x41, tag := 1, d := 1 }, taken := 1 } : Cmd), (seds (busy0 { hdr := { opcode := 0x41, tag := 1, d := 1 }, taken := 1 }) (ses0 5 0) : State), ses0 5 0, by decide⟩,
    ⟨(1 : Nat), (busy0 { hdr := { opcode := 0x41, tag := 1, d := 1 }, taken := 1, recSeq := some 1 } : Cmd), (seds (busy0 { hdr := { opcode := 0x41, tag := 1, d := 1 }, taken := 1, recSeq := some 1 }) (ses0 1 0) : State), ses0 1 0, 1, ⟨by decide, by decide, by decide, by decide, by decide, by decide, by decide, rfl, by decide⟩⟩,
    ⟨(1 : Nat), ({ hdr := { opcode := 0x41, tag := 1, d := 1 } } : Cmd), (one { hdr := { opcode := 0x41, tag := 1, d := 1 } } : State), by decide⟩⟩

/-- VaultReadersAnswer: the hypotheses of its clauses are met. -/
theorem test_meets_VaultReadersAnswer :
  (∃ (tag : Nat) (c : Cmd) (s : State) (op : Nat) (i : Instr), ((op, i) ∈ [(0x43, Instr.get tag), (0x44, .stat tag), (0x47, .list tag), (0x48, .auditObject tag)]) ∧ (cmdIn s tag (fun c => (c.phase = .started || c.phase = .waiting) && c.hdr.opcode = op && !c.failed) = some c) ∧ (vaultAhead s c Cmd.vaultWrite = true)) ∧
  (∃ (tag : Nat) (c : Cmd) (s : State) (op : Nat) (i : Instr), ((op, i) ∈ [(0x43, Instr.get tag), (0x44, .stat tag), (0x47, .list tag), (0x48, .auditObject tag)]) ∧ (cmdIn s tag (fun c => (c.phase = .started || c.phase = .waiting) && c.hdr.opcode = op && !c.failed) = some c) ∧ (vaultAhead s c Cmd.vaultWrite = false) ∧ (op ≠ 0x47) ∧ (findObj s c.hdr.volume c.hdr.key = none)) ∧
  (∃ (tag : Nat) (c : Cmd) (s : State) (op : Nat) (i : Instr) (o : _), ((op, i) ∈ [(0x43, Instr.get tag), (0x44, .stat tag), (0x47, .list tag), (0x48, .auditObject tag)]) ∧ (cmdIn s tag (fun c => (c.phase = .started || c.phase = .waiting) && c.hdr.opcode = op && !c.failed) = some c) ∧ (vaultAhead s c Cmd.vaultWrite = false) ∧ (op = 0x44) ∧ (findObj s c.hdr.volume c.hdr.key = some o)) ∧
  (∃ (tag : Nat) (c : Cmd) (s : State) (op : Nat) (i : Instr) (o : _), ((op, i) ∈ [(0x43, Instr.get tag), (0x44, .stat tag), (0x47, .list tag), (0x48, .auditObject tag)]) ∧ (cmdIn s tag (fun c => (c.phase = .started || c.phase = .waiting) && c.hdr.opcode = op && !c.failed) = some c) ∧ (vaultAhead s c Cmd.vaultWrite = false) ∧ (op = 0x43) ∧ (findObj s c.hdr.volume c.hdr.key = some o) ∧ (o.size < c.hdr.lba + c.hdr.blocks)) ∧
  (∃ (tag : Nat) (c : Cmd) (s : State) (op : Nat) (i : Instr) (x : _) (n : _), ((op, i) ∈ [(0x43, Instr.get tag), (0x44, .stat tag), (0x47, .list tag), (0x48, .auditObject tag)]) ∧ (cmdIn s tag (fun c => (c.phase = .started || c.phase = .waiting) && c.hdr.opcode = op && !c.failed) = some c) ∧ (vaultAhead s c Cmd.vaultWrite = false) ∧ (op = 0x47) ∧ (findVault s c.hdr.volume = some x) ∧ (n = countIf (fun (o : Object) => beNat c.hdr.key < beNat o.key || beNat c.hdr.key = beNat o.key && !bit c.hdr.flags 0) x.objects)) ∧
  (∃ (tag : Nat) (c : Cmd) (s : State) (op : Nat) (i : Instr) (o : _) (segs : _) (src : _), ((op, i) ∈ [(0x43, Instr.get tag), (0x44, .stat tag), (0x47, .list tag), (0x48, .auditObject tag)]) ∧ (cmdIn s tag (fun c => (c.phase = .started || c.phase = .waiting) && c.hdr.opcode = op && !c.failed) = some c) ∧ (vaultAhead s c Cmd.vaultWrite = false) ∧ (findObj s c.hdr.volume c.hdr.key = some o) ∧ (segs = (if op = 0x43 then touched c.hdr.lba c.hdr.blocks else List.range (segCount o.size))) ∧ (src = runSources s c.hdr.volume o (checkBlocks o segs) (before s c)) ∧ ((∀ e ∈ src, e.2 = .zero ∨ ∃ b p, e.2 = .data b p)) ∧ ((∀ b ∈ checkBlocks o segs, lossAt s c.hdr.volume (b + o.first) = false)) ∧ (op = 0x43) ∧ (c.hdr.lba + c.hdr.blocks ≤ o.size)) ∧
  (∃ (tag : Nat) (c : Cmd) (s : State) (op : Nat) (i : Instr) (o : _) (segs : _) (src : _) (x : _), ((op, i) ∈ [(0x43, Instr.get tag), (0x44, .stat tag), (0x47, .list tag), (0x48, .auditObject tag)]) ∧ (cmdIn s tag (fun c => (c.phase = .started || c.phase = .waiting) && c.hdr.opcode = op && !c.failed) = some c) ∧ (vaultAhead s c Cmd.vaultWrite = false) ∧ (findObj s c.hdr.volume c.hdr.key = some o) ∧ (segs = (if op = 0x43 then touched c.hdr.lba c.hdr.blocks else List.range (segCount o.size))) ∧ (src = runSources s c.hdr.volume o (checkBlocks o segs) (before s c)) ∧ ((∀ e ∈ src, e.2 = .zero ∨ ∃ b p, e.2 = .data b p)) ∧ ((∀ b ∈ checkBlocks o segs, lossAt s c.hdr.volume (b + o.first) = false)) ∧ (op = 0x48) ∧ (findVault s c.hdr.volume = some x)) :=
  ⟨
    ⟨(1 : Nat), ({ com0 0x43 with pos := ⟨0, 0, 1⟩ } : Cmd), ({ run0 with cmds := [{ com0 0x43 with pos := ⟨0, 0, 1⟩ }, { hdr := { opcode := 0x40, tag := 2 } }] } : State), (0x43 : Nat), (.get 1 : Instr), by decide⟩,
    ⟨(1 : Nat), (com0 0x43 : Cmd), (one (com0 0x43) : State), (0x43 : Nat), (.get 1 : Instr), by decide⟩,
    ⟨(1 : Nat), (com0 0x44 : Cmd), (vst (com0 0x44) : State), (0x44 : Nat), (.stat 1 : Instr), obj0, by decide⟩,
    ⟨(1 : Nat), ({ hdr := { opcode := 0x43, tag := 1, blocks := 101 } } : Cmd), (vst { hdr := { opcode := 0x43, tag := 1, blocks := 101 } } : State), (0x43 : Nat), (.get 1 : Instr), obj0, by decide⟩,
    ⟨(1 : Nat), (com0 0x47 : Cmd), (vst (com0 0x47) : State), (0x47 : Nat), (.list 1 : Instr), vau0 true [obj0], 1, by decide⟩,
    ⟨(1 : Nat), ({ hdr := { opcode := 0x43, tag := 1, blocks := 9 } } : Cmd), (vst { hdr := { opcode := 0x43, tag := 1, blocks := 9 } } : State), (0x43 : Nat), (.get 1 : Instr), obj0, touched 0 9, runSources (vst { hdr := { opcode := 0x43, tag := 1, blocks := 9 } }) 0 obj0 (checkBlocks obj0 (touched 0 9)) (before (vst { hdr := { opcode := 0x43, tag := 1, blocks := 9 } }) { hdr := { opcode := 0x43, tag := 1, blocks := 9 } }), ⟨by decide, by decide, by decide, by decide, rfl, rfl, src_zero, by decide, rfl, by decide⟩⟩,
    ⟨(1 : Nat), (com0 0x48 : Cmd), (vst (com0 0x48) : State), (0x48 : Nat), (.auditObject 1 : Instr), obj0, List.range (segCount obj0.size), runSources (vst (com0 0x48)) 0 obj0 (checkBlocks obj0 (List.range (segCount obj0.size))) (before (vst (com0 0x48)) (com0 0x48)), vau0 true [obj0], ⟨by decide, by decide, by decide, by decide, rfl, rfl, src_zero, by decide, rfl, by decide⟩⟩⟩

/-- VaultsAreKept: the hypotheses of its clauses are met. -/
theorem test_meets_VaultsAreKept :
  (∃ (n : Nat) (x : Session) (s : State), (findSession s n = some x) ∧ (x.lastUse + 2 ^ s.ch (fun c => c.sessionIdleLog) 27 < s.now)) ∧
  (∃ (n : Nat) (x : Session) (s : State), (findSession s n = some x) ∧ (s.now ≤ x.lastUse + 2 ^ s.ch (fun c => c.sessionIdleLog) 27)) ∧
  (∃ (v : Nat) (a : Nat) (x : Vault) (o : Object) (src : List (Nat × Source)) (s : State), (opfin s = true) ∧ (findVault s v = some x) ∧ (x.online = true) ∧ (s.power.state < 2) ∧ (s.pair.fenced = false) ∧ (s.vaults.jobs = []) ∧ (minOf (x.objects.map (fun o => o.lastAudit)) = some a) ∧ (x.objects.find? (fun o => o.lastAudit = a) = some o) ∧ (src = runSources s v o (checkBlocks o (List.range (segCount o.size))) (fun _ => true)) ∧ ((∀ e ∈ src, e.2 = .zero ∨ ∃ b p, e.2 = .data b p)) ∧ ((∀ b ∈ checkBlocks o (List.range (segCount o.size)), lossAt s v (b + o.first) = false))) ∧
  (∃ (v : Nat) (s : State), (opfin s = false ∨ 2 ≤ s.power.state ∨ ∃ j ∈ s.vaults.jobs, j.vault = v)) ∧
  (∃ (v : Nat) (k : Key) (r : VaultRepair) (x : Vault) (o : Object) (src : List (Nat × Source)) (s : State), (opfin s = true) ∧ (s.vaults.repairs.find? (fun r => r.vault = v && r.key = k) = some r) ∧ (r.left = []) ∧ (findVault s v = some x) ∧ (findObj s v k = some o) ∧ (s.power.state < 2) ∧ (s.pair.fenced = false) ∧ (s.vaults.jobs = []) ∧ (src = runSources s v o (checkBlocks o (List.range (segCount o.size))) (fun _ => true)) ∧ ((∀ e ∈ src, e.2 = .zero ∨ ∃ b p, e.2 = .data b p)) ∧ ((∀ b ∈ checkBlocks o (List.range (segCount o.size)), lossAt s v (b + o.first) = false))) ∧
  (∃ (v : Nat) (k : Key) (r : VaultRepair) (s : State), (s.vaults.repairs.find? (fun r => r.vault = v && r.key = k) = some r) ∧ (r.left ≠ [])) ∧
  (∃ (v : Nat) (x : Vault) (a : Nat × Nat) (b : Nat × Nat) (s : State), (findVault s v = some x) ∧ (x.online = true) ∧ (((vol s v).state = 2 ∨ (vol s v).state = 3)) ∧ ((s.pair.role = 0 ∨ s.pair.role = 1)) ∧ (x.supers = [a, b])) ∧
  (∃ (v : Nat) (s : State), ((vol s v).state ≠ 2) ∧ ((vol s v).state ≠ 3)) ∧
  (∃ (v : Nat) (x : Vault) (a : Nat × Nat) (b : Nat × Nat) (good : List Nat) (s : State), (findVault s v = some x) ∧ (x.online = false) ∧ (x.superBad = false) ∧ (x.supers = [a, b]) ∧ ((∀ i ∈ good, 2 ≤ i)) ∧ ((∃ d ∈ s.bands, d.volume = v))) ∧
  (∃ (v : Nat) (x : Vault) (a : Nat × Nat) (b : Nat × Nat) (good : List Nat) (s : State), (findVault s v = some x) ∧ (x.online = false) ∧ (x.superBad = false) ∧ (x.supers = [a, b]) ∧ ((∀ i ∈ good, 2 ≤ i)) ∧ ((∀ d ∈ s.bands, d.volume ≠ v))) ∧
  (∃ (v : Nat) (x : Vault) (a : Nat × Nat) (b : Nat × Nat) (good : List Nat) (s : State), (findVault s v = some x) ∧ (x.online = false) ∧ (x.superBad = false) ∧ (x.supers = [a, b]) ∧ (0 < a.1) ∧ (0 < b.1) ∧ (0 ∈ good) ∧ (1 ∈ good) ∧ (a.1 ≠ b.1)) ∧
  (∃ (v : Nat) (x : Vault) (a : Nat × Nat) (b : Nat × Nat) (good : List Nat) (s : State), (findVault s v = some x) ∧ (x.online = false) ∧ (x.superBad = false) ∧ (x.supers = [a, b]) ∧ (0 < a.1) ∧ (0 ∈ good) ∧ (1 ∉ good)) ∧
  (∃ (v : Nat) (x : Vault) (a : Nat × Nat) (b : Nat × Nat) (good : List Nat) (s : State), (findVault s v = some x) ∧ (x.online = false) ∧ (x.superBad = false) ∧ (x.supers = [a, b]) ∧ (0 < b.1) ∧ (1 ∈ good) ∧ (0 ∉ good)) ∧
  (∃ (v : Nat) (x : Vault) (s : State), (findVault s v = some x) ∧ (x.online = true)) :=
  ⟨
    ⟨(0 : Nat), (ses0 1 0 : Session), ({ late0 with vaults := { sessions := [ses0 1 0] } } : State), by decide⟩,
    ⟨(0 : Nat), (ses0 1 0 : Session), ({ run0 with vaults := { sessions := [ses0 1 0] } } : State), by decide⟩,
    ⟨(0 : Nat), (0 : Nat), (vau0 true [obj0] : Vault), (obj0 : Object), (runSources (vst {}) 0 obj0 (checkBlocks obj0 (List.range (segCount obj0.size))) (fun _ => true) : List (Nat × Source)), (vst {} : State), ⟨by decide, by decide, by decide, by decide, by decide, by decide, by decide, by decide, rfl, src_zero, by decide⟩⟩,
    ⟨(0 : Nat), ({ run0 with mgmt := { state := 1 } } : State), .inl rfl⟩,
    ⟨(0 : Nat), (obj0.key : Key), (⟨0, obj0.key, []⟩ : VaultRepair), (vau0 true [obj0] : Vault), (obj0 : Object), (runSources { run0 with vaults := { vaults := [vau0 true [obj0]], repairs := [⟨0, obj0.key, []⟩] } } 0 obj0 (checkBlocks obj0 (List.range (segCount obj0.size))) (fun _ => true) : List (Nat × Source)), ({ run0 with vaults := { vaults := [vau0 true [obj0]], repairs := [⟨0, obj0.key, []⟩] } } : State), ⟨by decide, by decide, by decide, by decide, by decide, by decide, by decide, by decide, rfl, src_zero, by decide⟩⟩,
    ⟨(0 : Nat), (obj0.key : Key), (⟨0, obj0.key, [(0, 0, 0)]⟩ : VaultRepair), ({ run0 with vaults := { repairs := [⟨0, obj0.key, [(0, 0, 0)]⟩] } } : State), by decide⟩,
    ⟨(0 : Nat), (vau0 true [] : Vault), ((0, 0) : Nat × Nat), ((0, 0) : Nat × Nat), ({ run0 with vaults := { vaults := [vau0 true []] }, vols := [(0, { state := 2 })] } : State), by decide⟩,
    ⟨(0 : Nat), (run0 : State), by decide⟩,
    ⟨(0 : Nat), (vau0 false [] : Vault), ((0, 0) : Nat × Nat), ((0, 0) : Nat × Nat), ([] : List Nat), ({ run0 with vaults := { vaults := [vau0 false []] }, bands := [bnd0] } : State), by decide⟩,
    ⟨(0 : Nat), (vau0 false [] : Vault), ((0, 0) : Nat × Nat), ((0, 0) : Nat × Nat), ([] : List Nat), ({ run0 with vaults := { vaults := [vau0 false []] } } : State), by decide⟩,
    ⟨(0 : Nat), ({ supers := [(1, 0), (2, 0)] } : Vault), ((1, 0) : Nat × Nat), ((2, 0) : Nat × Nat), ([0, 1] : List Nat), ({ run0 with vaults := { vaults := [{ supers := [(1, 0), (2, 0)] }] } } : State), by decide⟩,
    ⟨(0 : Nat), ({ supers := [(1, 0), (2, 0)] } : Vault), ((1, 0) : Nat × Nat), ((2, 0) : Nat × Nat), ([0] : List Nat), ({ run0 with vaults := { vaults := [{ supers := [(1, 0), (2, 0)] }] } } : State), by decide⟩,
    ⟨(0 : Nat), ({ supers := [(1, 0), (2, 0)] } : Vault), ((1, 0) : Nat × Nat), ((2, 0) : Nat × Nat), ([1] : List Nat), ({ run0 with vaults := { vaults := [{ supers := [(1, 0), (2, 0)] }] } } : State), by decide⟩,
    ⟨(0 : Nat), (vau0 true [] : Vault), ({ run0 with vaults := { vaults := [vau0 true []] } } : State), by decide⟩⟩

/-- ChainFrames: the hypotheses of its clauses (ControlMessages) are met. -/
theorem test_meets_ControlMessages :
  (∃ (s : State), (isPair s = true) ∧ (s.pair.mode ≠ 5)) ∧
  (∃ (s : State), isPair s = true) ∧
  (∃ (s : State), isPair s = false) ∧
  (∃ (map : Nat) (a : Nat) (s : State), (alive s = true) ∧ (s.ch (·.chainPresent) false = true) ∧ (5 ≤ s.chip.step) ∧ (s.chip.chainHead = false) ∧ (s.chain.address = none) ∧ (a < 16) ∧ (bit map a = false) ∧ ((∀ b < a, bit map b = true))) ∧
  (∃ (a : Nat) (s : State), (alive s = true) ∧ (s.ch (·.chainPresent) false = true) ∧ (5 ≤ s.chip.step) ∧ (s.chip.chainHead = false) ∧ (s.chain.address = some a)) ∧
  (∃ (s : State), (alive s = true) ∧ (s.ch (·.chainPresent) false = true) ∧ (5 ≤ s.chip.step) ∧ (s.chip.chainHead = true)) ∧
  (∃ (m : CtlMsg) (s : State), (s.chain.address = some m.src) ∧ (m.dst ≠ 0xFF)) ∧
  (∃ (m : CtlMsg) (s : State), s.chain.address ≠ some m.src) :=
  ⟨
    ⟨(pair0 : State), by decide⟩,
    ⟨(pair0 : State), by decide⟩,
    ⟨(run0 : State), by decide⟩,
    ⟨(0 : Nat), (0 : Nat), (cha {} : State), by decide⟩,
    ⟨(3 : Nat), (cha { address := some 3 } : State), by decide⟩,
    ⟨({ run0 with chip := { pwrgd := true, locked := true, step := 15, chainHead := true } } : State), by decide⟩,
    ⟨(⟨0, 1, 2, []⟩ : CtlMsg), (cha { address := some 1 } : State), by decide⟩,
    ⟨(⟨0, 0, 0, []⟩ : CtlMsg), (cha {} : State), by decide⟩⟩

/-- ChainFrames: the hypotheses of its clauses (StreamFrames) are met. -/
theorem test_meets_StreamFrames :
  (∃ (dir : Nat) (f : Frame) (s : State), (dir < 2) ∧ (s.chip.pwrgd = true) ∧ (s.chip.testMode = false) ∧ (s.ch (·.chainPresent) false = true) ∧ (f.goodChecks = false)) ∧
  (∃ (dir : Nat) (a : Nat) (f : Frame) (s : State), (dir < 2) ∧ (s.chip.pwrgd = true) ∧ (s.chip.testMode = false) ∧ (s.ch (·.chainPresent) false = true) ∧ (f.goodChecks = true) ∧ (f.control = none) ∧ (isPair s = false) ∧ (s.chain.address = some a) ∧ (8 ≤ s.chip.step) ∧ (requestsFor a f = [])) ∧
  (∃ (dir : Nat) (sent : Nat) (f : Frame) (s : State), (dir < 2) ∧ (s.ch (·.chainPresent) false = true) ∧ (sent = (f.number + 2 ^ 32 - s.chain.lap) % 2 ^ 32) ∧ (s.chain.outstanding.any (fun w => w.1 = sent) = true) ∧ (takenBy s f = true)) ∧
  (∃ (dir : Nat) (sent : Nat) (f : Frame) (a : List (Nat × Nat × List Byte)) (b : List (Nat × Nat × List Byte)) (s : State), (dir < 2) ∧ (s.ch (·.chainPresent) false = true) ∧ (sent = (f.number + 2 ^ 32 - s.chain.lap) % 2 ^ 32) ∧ (takenBy s f = false) ∧ (s.chain.outstanding = a ++ b) ∧ ((∀ w ∈ a, w.1 ≠ sent)) ∧ ((∃ w, b.head? = some w ∧ w.1 = sent))) ∧
  (∃ (s : State), s.chain.outstanding = []) :=
  ⟨
    ⟨(0 : Nat), (frm0 false [] : Frame), (run0 : State), by decide⟩,
    ⟨(0 : Nat), (0 : Nat), (frm0 true [] : Frame), (cha { address := some 0 } : State), by decide⟩,
    ⟨(0 : Nat), (0 : Nat), (frm0 true [(0, 0x1000)] : Frame), (cha { address := some 0, outstanding := [(0, 0, [])] } : State), by decide⟩,
    ⟨(0 : Nat), (0 : Nat), (frm0 true [] : Frame), ([] : List (Nat × Nat × List Byte)), ([(0, 0, [])] : List (Nat × Nat × List Byte)), (cha { outstanding := [(0, 0, [])] } : State), ⟨by decide, by decide, by decide, by decide, by decide, by decide, ⟨_, rfl, rfl⟩⟩⟩,
    ⟨(cha {} : State), by decide⟩⟩

/-- ChainLanes: the hypotheses of its clauses are met. -/
theorem test_meets_ChainLanes :
  (∃ (dir : Nat) (lane : Nat) (s : State), (dir < 2) ∧ (lane < 3) ∧ (alive s = true)) ∧
  (∃ (dir : Nat) (lane : Nat) (s : State), (dir < 2) ∧ (lane < 3) ∧ (16 ≤ (chLane s (3 * dir + lane)).crcWindow.length) ∧ ((chLane s (3 * dir + lane)).state = 2) ∧ ((chLane s (3 * dir + lane)).swapAt = none)) ∧
  (∃ (dir : Nat) (lane : Nat) (s : State), (chLane s (3 * dir + lane)).crcWindow.length < 16) ∧
  (∃ (dir : Nat) (lane : Nat) (frame : Nat) (f : Nat) (s : State), (dir < 2) ∧ (lane < 2) ∧ ((chLane s (3 * dir + lane)).swapAt = some f) ∧ (f ≤ frame) ∧ ((chLane s (3 * dir + 2)).reserve = true)) ∧
  (∃ (dir : Nat) (lane : Nat) (frame : Nat) (f : Nat) (s : State), (dir < 2) ∧ (lane < 2) ∧ ((chLane s (3 * dir + lane)).swapAt = some f) ∧ (f ≤ frame) ∧ ((chLane s (3 * dir + 2)).reserve = false)) ∧
  (∃ (dir : Nat) (lane : Nat) (frame : Nat) (f : Nat) (s : State), (dir < 2) ∧ (lane < 3) ∧ ((chLane s (3 * dir + lane)).swapAt = none) ∧ ((dir, lane, f) ∈ s.chain.outSwaps) ∧ (f ≤ frame)) ∧
  (∃ (dir : Nat) (s : State), (dir < 2) ∧ (s.chip.pwrgd = true) ∧ (s.chip.testMode = false) ∧ (s.ch (·.chainPresent) false = true)) ∧
  (∃ (dir : Nat) (lane : Nat) (r : Retrim) (s : State), (dir < 2) ∧ (lane < 3) ∧ (calLane s = some (3 * dir + lane)) ∧ (retrimPlausible r = true)) ∧
  (∃ (dir : Nat) (lane : Nat) (r : Retrim) (s : State), (dir < 2) ∧ (lane < 3) ∧ (calLane s = some (3 * dir + lane)) ∧ (retrimPlausible r = false) ∧ ((chLane s (3 * dir + lane)).swapAt = none)) :=
  ⟨
    ⟨(0 : Nat), (0 : Nat), (run0 : State), by decide⟩,
    ⟨(0 : Nat), (0 : Nat), (chl { crcWindow := List.replicate 16 0, state := 2 } : State), by decide⟩,
    ⟨(0 : Nat), (0 : Nat), (run0 : State), by decide⟩,
    ⟨(0 : Nat), (0 : Nat), (0 : Nat), (0 : Nat), (chl { swapAt := some 0 } : State), by decide⟩,
    ⟨(0 : Nat), (0 : Nat), (0 : Nat), (0 : Nat), (cha { lanes := { swapAt := some 0 } :: List.replicate 5 {} } : State), by decide⟩,
    ⟨(0 : Nat), (0 : Nat), (0 : Nat), (0 : Nat), (cha { outSwaps := [(0, 0, 0)] } : State), by decide⟩,
    ⟨(0 : Nat), (run0 : State), by decide⟩,
    ⟨(0 : Nat), (0 : Nat), (trim0 true : Retrim), (chl { state := 2 } : State), by decide⟩,
    ⟨(0 : Nat), (0 : Nat), (trim0 false : Retrim), (chl { state := 2 } : State), by decide⟩⟩

/-- PairStartsUp: the hypotheses of its clauses are met. -/
theorem test_meets_PairStartsUp :
  (∃ (s : State) (w : Witness), (s.chip.step = 8) ∧ (s.pair.mode = 1) ∧ (partnerPresent s = true) ∧ (s.pair.witness = some w) ∧ (w.owner ≠ 0) ∧ (w.owner = s.fuses.serial)) ∧
  (∃ (s : State) (w : Witness), (s.chip.step = 8) ∧ (s.pair.mode = 1) ∧ (partnerPresent s = true) ∧ (s.pair.witness = some w) ∧ (w.owner ≠ 0) ∧ (w.owner ≠ s.fuses.serial)) ∧
  (∃ (s : State), (s.chip.step = 8) ∧ (s.pair.mode = 1) ∧ (partnerPresent s = true) ∧ (s.pair.witness = none) ∧ (preferred s = true)) ∧
  (∃ (s : State), (s.chip.step = 8) ∧ (s.pair.mode = 1) ∧ (partnerPresent s = true) ∧ (s.pair.witness = none) ∧ (preferred s = false)) ∧
  (∃ (s : State), partnerPresent s = false) ∧
  (∃ (s : State), (s.chip.step = 8) ∧ (s.pair.mode = 1) ∧ ((s.chip.chainAbsent = true ∨ s.chip.stepClose + s.ch (·.negotiationWait) 1250000 ≤ s.now)) ∧ (s.pair.current = true)) ∧
  (∃ (s : State), (s.chip.step = 8) ∧ (s.pair.mode = 1) ∧ ((s.chip.chainAbsent = true ∨ s.chip.stepClose + s.ch (·.negotiationWait) 1250000 ≤ s.now)) ∧ (s.pair.current = false)) ∧
  (∃ (n : NegotiateMsg) (s : State), (isPair s = true) ∧ (n.serial = partnerSerial s) ∧ (s.chip.step ≠ 15)) ∧
  (∃ (n : NegotiateMsg) (s : State), (isPair s = true) ∧ (n.serial = partnerSerial s) ∧ (s.chip.step = 15)) ∧
  (∃ (n : NegotiateMsg) (s : State), n.serial ≠ partnerSerial s) :=
  ⟨
    ⟨(neg0 (some (wit0 1)) 0 : State), (wit0 1 : Witness), by decide⟩,
    ⟨(neg0 (some (wit0 2)) 0 : State), (wit0 2 : Witness), by decide⟩,
    ⟨(neg0 none 0 : State), by decide⟩,
    ⟨(neg0 none 1 : State), by decide⟩,
    ⟨(run0 : State), by decide⟩,
    ⟨({ neg0 none 0 with pair := { mode := 1, current := true } } : State), by decide⟩,
    ⟨({ neg0 none 0 with pair := { mode := 1 } } : State), by decide⟩,
    ⟨(⟨1, false, 0, 2⟩ : NegotiateMsg), (neg0 none 0 : State), by decide⟩,
    ⟨(⟨1, false, 0, 2⟩ : NegotiateMsg), (pair0 : State), by decide⟩,
    ⟨(⟨1, false, 0, 9⟩ : NegotiateMsg), (pair0 : State), by decide⟩⟩

/-- TalliesAndFailure: the hypotheses of its clauses are met. -/
theorem test_meets_TalliesAndFailure :
  (∃ (serial : Nat) (good : Bool) (s : State), (isPair s = true) ∧ ((good = false ∨ serial ≠ partnerSerial s))) ∧
  (∃ (s : State), isPair s = true) ∧
  (∃ (count : Nat) (state : Nat) (s : State), (isPair s = true) ∧ (s.pair.chain.last ≠ some count) ∧ (s.pair.mode = 0) ∧ (state < 3)) ∧
  (∃ (count : Nat) (state : Nat) (s : State), (isPair s = true) ∧ (s.pair.hb.last ≠ some count) ∧ (s.pair.mode = 0) ∧ (state < 3)) ∧
  (∃ (s : State), s.chip.pwrgd = true) ∧
  (∃ (s : State), (isPair s = true) ∧ (16 ≤ s.pair.chain.misses) ∧ (s.pair.hb.misses < 16) ∧ (s.pair.chain.alarm = false)) ∧
  (∃ (s : State), (isPair s = true) ∧ (16 ≤ s.pair.hb.misses) ∧ (s.pair.chain.misses < 16) ∧ (s.pair.hb.alarm = false)) ∧
  (∃ (s : State), s.pair.chain.misses < 16) ∧
  (∃ (s : State), (isPair s = true) ∧ (s.chip.step = 15) ∧ (s.pair.mode = 0) ∧ (partnerGone s = true) ∧ ((s.pair.role = 1 ∧ s.ledger.mode = 1 ∨ s.pair.role = 2 ∧ s.pair.current = true))) ∧
  (∃ (s : State), (isPair s = true) ∧ (s.chip.step = 15) ∧ (s.pair.mode = 0) ∧ (s.pair.role = 2) ∧ (s.pair.current = false)) ∧
  (∃ (s : State), (isPair s = true) ∧ (s.chip.step = 15) ∧ (s.pair.role = 2) ∧ (s.pair.current = true) ∧ (s.pair.decision = none)) ∧
  (∃ (s : State), (isPair s = true) ∧ (s.chip.step = 15) ∧ (s.pair.role = 1) ∧ (s.ledger.mode = 1) ∧ (s.pair.winDue = false)) ∧
  (∃ (s : State), (isPair s = true) ∧ (s.chip.step = 15) ∧ (s.pair.role = 2) ∧ (s.pair.current = true) ∧ (s.pair.decision = none) ∧ ((hasWon s = true ∨ s.pair.partnerState = 3))) ∧
  (∃ (s : State), s.pair.current = false) ∧
  (∃ (s : State) (d : Nat), (s.pair.role = 1) ∧ (s.ledger.mode = 1) ∧ (s.pair.mode = 0) ∧ (s.pair.detachStep = 0) ∧ (s.pair.hb.misses < 16) ∧ (16 ≤ s.pair.chain.misses) ∧ (s.pair.chainDownSince = some d) ∧ (d + s.ch (·.detachDelay) 65536 ≤ s.now)) ∧
  (∃ (s : State) (d : Nat), (s.pair.chainDownSince = some d) ∧ (s.now < d + s.ch (·.detachDelay) 65536)) ∧
  (∃ (s : State), (isPair s = true) ∧ (s.pair.role = 2)) ∧
  (∃ (s : State), (isPair s = true) ∧ (s.pair.role ≠ 2)) :=
  ⟨
    ⟨(0 : Nat), (false : Bool), (pair0 : State), by decide⟩,
    ⟨(pair0 : State), by decide⟩,
    ⟨(1 : Nat), (0 : Nat), (pair0 : State), by decide⟩,
    ⟨(1 : Nat), (0 : Nat), (pair0 : State), by decide⟩,
    ⟨(run0 : State), by decide⟩,
    ⟨(pr { chain := { misses := 16 } } : State), by decide⟩,
    ⟨(pr { hb := { misses := 16 } } : State), by decide⟩,
    ⟨(run0 : State), by decide⟩,
    ⟨(pr { role := 2, current := true, chain := { misses := 16 }, hb := { misses := 16 } } : State), by decide⟩,
    ⟨(pr { role := 2 } : State), by decide⟩,
    ⟨(pr { role := 2, current := true } : State), by decide⟩,
    ⟨(prl 1 { role := 1 } : State), by decide⟩,
    ⟨(pr { role := 2, current := true, partnerState := 3 } : State), by decide⟩,
    ⟨(run0 : State), by decide⟩,
    ⟨(prl 1 { role := 1, chain := { misses := 16 }, chainDownSince := some 0 } : State), (0 : Nat), by decide⟩,
    ⟨(pr { chainDownSince := some 5 } : State), (5 : Nat), by decide⟩,
    ⟨(pr { role := 2 } : State), by decide⟩,
    ⟨(pair0 : State), by decide⟩⟩

/-- ArbitrationRounds: the hypotheses of its clauses are met. -/
theorem test_meets_ArbitrationRounds :
  (∃ (pos : Nat) (s : State), (pos < registrySize s) ∧ ((s.pair.mode = 2 ∨ s.pair.mode = 3))) ∧
  (∃ (pos : Nat) (w : Witness) (s : State), (pos < registrySize s) ∧ (s.pair.recordPending = some w) ∧ (s.pair.recordFor ≠ 1) ∧ (mostOf s (s.pair.recordAt ++ [pos]).eraseDups = true)) ∧
  (∃ (pos : Nat) (w : Witness) (s : State), (pos < registrySize s) ∧ (s.pair.recordPending = some w) ∧ (s.pair.recordFor ≠ 1) ∧ (mostOf s (s.pair.recordAt ++ [pos]).eraseDups = false)) ∧
  (∃ (s : State), (hasWon s = true) ∧ (s.pair.role ≠ 2)) ∧
  (∃ (s : State), (hasWon s = true) ∧ (s.chip.step ≠ 8) ∧ (s.pair.role = 2) ∧ (s.pair.decision = none)) ∧
  (∃ (s : State), hasWon s = false) ∧
  (∃ (s : State), ((s.pair.mode = 2 ∨ s.pair.mode = 3)) ∧ (hasWon s = false) ∧ (s.pair.winDue = false) ∧ (mostOf s s.pair.lost = true)) ∧
  (∃ (s : State), ((s.pair.mode = 2 ∨ s.pair.mode = 3)) ∧ (hasWon s = false) ∧ (s.pair.winDue = false) ∧ (mostOf s s.pair.lost = false)) ∧
  (∃ (s : State), (s.pair.mode = 2) ∧ (hasWon s = false) ∧ (s.pair.winDue = false) ∧ (s.pair.isolateDue = false) ∧ (s.pair.declared + 8192 ≤ s.now)) ∧
  (∃ (s : State), s.now < s.pair.declared + 8192) ∧
  (∃ (s : State), (s.pair.mode = 3) ∧ (s.pair.heldSince + 65536 ≤ s.now)) ∧
  (∃ (s : State), s.now < s.pair.heldSince + 65536) ∧
  (∃ (s : State), ((s.pair.mode = 2 ∨ s.pair.mode = 3)) ∧ (s.pair.winDue = false) ∧ (s.pair.isolateDue = false) ∧ (s.pair.decision = none) ∧ (hasWon s = false) ∧ ((s.pair.chain.seen = true ∨ s.pair.hb.seen = true))) ∧
  (∃ (s : State), (s.pair.mode ≠ 2) ∧ (s.pair.mode ≠ 3)) :=
  ⟨
    ⟨(0 : Nat), (pr { mode := 2 } : State), by decide⟩,
    ⟨(2 : Nat), (wit0 1 : Witness), (pr { recordPending := some (wit0 1), recordAt := [0, 1] } : State), by decide⟩,
    ⟨(0 : Nat), (wit0 1 : Witness), (pr { recordPending := some (wit0 1) } : State), by decide⟩,
    ⟨(won0 {} : State), by decide⟩,
    ⟨(won0 { role := 2 } : State), by decide⟩,
    ⟨(run0 : State), by decide⟩,
    ⟨(pr { mode := 2, lost := [0, 1] } : State), by decide⟩,
    ⟨(pr { mode := 2 } : State), by decide⟩,
    ⟨(arb0 { mode := 2 } : State), by decide⟩,
    ⟨(run0 : State), by decide⟩,
    ⟨(arb0 { mode := 3 } : State), by decide⟩,
    ⟨(run0 : State), by decide⟩,
    ⟨(pr { mode := 2, chain := { seen := true } } : State), by decide⟩,
    ⟨(run0 : State), by decide⟩⟩

/-- JoinAndAudit: the hypotheses of its clauses are met. -/
theorem test_meets_JoinAndAudit :
  (∃ (s : State), (isPair s = true) ∧ (s.chip.step = 15) ∧ (delivers s.pair.chain = true) ∧ (s.pair.role = 1) ∧ (s.ledger.mode = 3) ∧ ((s.pair.mode = 0 ∨ s.pair.mode = 4))) ∧
  (∃ (s : State), (isPair s = true) ∧ (s.chip.step = 15) ∧ (delivers s.pair.chain = true) ∧ ((s.pair.role = 2 ∧ s.pair.current = false ∨ s.pair.role = 3)) ∧ (s.pair.mode ≠ 5)) ∧
  (∃ (s : State), delivers s.pair.chain = false) ∧
  (∃ (s : State), (s.pair.role = 1) ∧ (s.pair.mode = 5) ∧ (s.pair.joinLeft = []) ∧ (s.pair.bulkEnded = false)) ∧
  (∃ (s : State), s.pair.joinLeft ≠ []) ∧
  (∃ (s : State), (s.pair.mode = 5) ∧ (s.pair.bulkEnded = true) ∧ (s.pair.role = 2)) ∧
  (∃ (s : State), (s.pair.mode = 5) ∧ (s.pair.bulkEnded = true) ∧ (s.pair.role = 1) ∧ (s.pair.recordPending = none) ∧ (s.pair.detachStep = 0) ∧ ((∀ q ∈ heldSeqs s, q ∈ s.pair.joinConfirmed))) ∧
  (∃ (s : State), s.pair.bulkEnded = false) ∧
  (∃ (tag : Nat) (c : Cmd) (s : State), (opfin s = true) ∧ (startedCmd s tag 0x8A = some c) ∧ (s.pair.role = 1) ∧ (s.pair.mode ≠ 5) ∧ (s.ledger.mode = 1) ∧ (s.pair.run.running = false)) ∧
  (∃ (tag : Nat) (c : Cmd) (s : State), (opfin s = true) ∧ (startedCmd s tag 0x8A = some c) ∧ (s.pair.role = 1) ∧ (s.pair.mode ≠ 5) ∧ (s.ledger.mode = 1) ∧ (s.pair.run.running = true)) ∧
  (∃ (tag : Nat) (c : Cmd) (s : State), (opfin s = true) ∧ (startedCmd s tag 0x8A = some c) ∧ (s.pair.role ≠ 1)) ∧
  (∃ (s : State), (s.pair.role = 1) ∧ (s.ledger.mode = 1) ∧ (s.pair.run.running = false) ∧ (s.ch (·.auditInterval) 0 ≠ 0) ∧ (s.pair.nextAudit ≤ s.now)) ∧
  (∃ (s : State), (s.pair.role = 2) ∧ (isPair s = true)) ∧
  (∃ (w : Nat) (s : State), (s.pair.run.running = true) ∧ (s.pair.role = 1) ∧ (s.pair.run.tag = none) ∧ (registrySize s < 2 * w)) ∧
  (∃ (ds : List (Nat × Nat)) (d : Nat × Nat) (s : State), (s.pair.run.running = true) ∧ (s.pair.role = 1) ∧ (s.pair.run.tag = none) ∧ (d ∈ s.pair.run.digests) ∧ (d ∉ ds)) ∧
  (∃ (s : State), s.pair.run.running = false) :=
  ⟨
    ⟨(prl 3 { role := 1 } : State), by decide⟩,
    ⟨(pr { role := 2 } : State), by decide⟩,
    ⟨(pr { chain := { misses := 1 } } : State), by decide⟩,
    ⟨(pr { role := 1, mode := 5 } : State), by decide⟩,
    ⟨(pr { joinLeft := [1] } : State), by decide⟩,
    ⟨(pr { role := 2, mode := 5, bulkEnded := true } : State), by decide⟩,
    ⟨(pr { role := 1, mode := 5, bulkEnded := true } : State), by decide⟩,
    ⟨(run0 : State), by decide⟩,
    ⟨(1 : Nat), (com0 0x8A : Cmd), ({ prl 1 { role := 1 } with cmds := [com0 0x8A] } : State), by decide⟩,
    ⟨(1 : Nat), (com0 0x8A : Cmd), ({ prl 1 { role := 1, run := { running := true } } with cmds := [com0 0x8A] } : State), by decide⟩,
    ⟨(1 : Nat), (com0 0x8A : Cmd), (one (com0 0x8A) : State), by decide⟩,
    ⟨(prl 1 { role := 1 } : State), by decide⟩,
    ⟨(pr { role := 2 } : State), by decide⟩,
    ⟨(2 : Nat), (pr { role := 1, run := { running := true } } : State), by decide⟩,
    ⟨([] : List (Nat × Nat)), ((0, 1) : Nat × Nat), (pr { role := 1, run := { running := true, digests := [(0, 1)] } } : State), by decide⟩,
    ⟨(run0 : State), by decide⟩⟩

/-- ManagementRuns: the hypotheses of its clauses (WatchdogRestartsOrStops) are met. -/
theorem test_meets_WatchdogRestartsOrStops :
  (∃ (s : State), (powered s = true) ∧ (s.mgmt.state = 0) ∧ ((s.mgmt.expiries.filter (fun c => s.now < c + 2 ^ 24)).length < 2)) ∧
  (∃ (passes : Bool) (s : State), (powered s = true) ∧ (s.mgmt.state = 0) ∧ ((passes = false ∨ 2 ≤ (s.mgmt.expiries.filter (fun c => s.now < c + 2 ^ 24)).length))) ∧
  (∃ (s : State), s.mgmt.state ≠ 0) ∧
  (∃ (s : State), (powered s = true) ∧ (s.mgmt.state = 1) ∧ (s.ledger.ckpt = none) ∧ (s.daybook.held = [])) ∧
  (∃ (s : State), (powered s = true) ∧ (s.mgmt.state = 1)) ∧
  (∃ (s : State), s.mgmt.state ≠ 1) :=
  ⟨
    ⟨(run0 : State), by decide⟩,
    ⟨(false : Bool), (run0 : State), by decide⟩,
    ⟨({ run0 with mgmt := { state := 1 } } : State), by decide⟩,
    ⟨({ run0 with mgmt := { state := 1 } } : State), by decide⟩,
    ⟨({ run0 with mgmt := { state := 1 } } : State), by decide⟩,
    ⟨(run0 : State), by decide⟩⟩

/-- ManagementRuns: the hypotheses of its clauses (OperatingTime) are met. -/
theorem test_meets_OperatingTime :
  (∃ (s : State), (powered s = true) ∧ (7 ≤ s.chip.step) ∧ (s.chip.step ≠ 14) ∧ (s.mgmt.opClose + 125 ≤ s.now) ∧ (s.mgmt.opMs + 1 < 2 ^ 48)) ∧
  (∃ (s : State), s.now < s.mgmt.opClose + 125) :=
  ⟨
    ⟨({ run0 with clock := { close := 125 } } : State), by decide⟩,
    ⟨(run0 : State), by decide⟩⟩

/-- ManagementRuns: the hypotheses of its clauses (SensorsAreSampled) are met. -/
theorem test_meets_SensorsAreSampled :
  (∃ (v : Samples) (s : State), (powered s = true) ∧ (v.die.length = 16)) :=
  ⟨(⟨List.replicate 16 0, [], [], [], 0⟩ : Samples), (run0 : State), by decide⟩

/-- DaybookKeepsRecords: the hypotheses of its clauses (TriggersAreRecorded) are met. -/
theorem test_meets_TriggersAreRecorded :
  (∃ (g : Trigger) (s : State), (powered s = true) ∧ (g.kind < 0x1E) ∧ ((firmwareKind g.kind = true ∧ opfin s = false))) ∧
  (∃ (g : Trigger) (s : State), (powered s = true) ∧ (g.kind < 0x1E) ∧ ((tget {} s.daybook.kinds g.kind).count < 0xFFFF) ∧ ((firmwareKind g.kind = false ∨ opfin s = true))) :=
  ⟨
    ⟨(⟨6, 0, 0, [], false⟩ : Trigger), ({ run0 with mgmt := { state := 1 } } : State), by decide⟩,
    ⟨(⟨6, 0, 0, [], false⟩ : Trigger), (run0 : State), by decide⟩⟩

/-- DaybookKeepsRecords: the hypotheses of its clauses (RecordsAreWritten) are met. -/
theorem test_meets_RecordsAreWritten :
  (∃ (seq : Nat) (r : DbRec) (s : State), (s.quiet = false) ∧ (s.daybook.writing = some (seq, r)) ∧ (s.daybook.accum = none) ∧ (s.daybook.queue = [])) ∧
  (∃ (s : State), s.quiet = true) ∧
  (∃ (tab : Tbl Nat) (first : Nat) (last : Nat) (al : Bool) (s : State), (s.daybook.accum = some (tab, first, last, al)) ∧ (s.daybook.queue.length < 64) ∧ (s.daybook.writing ≠ none)) ∧
  (∃ (s : State), (s.daybook.accum = none ∨ 64 ≤ s.daybook.queue.length)) :=
  ⟨
    ⟨(0 : Nat), (dbr0 : DbRec), ({ run0 with daybook := { writing := some (0, dbr0) } } : State), by decide⟩,
    ⟨(quiet0 : State), by decide⟩,
    ⟨([] : Tbl Nat), (0 : Nat), (0 : Nat), (false : Bool), ({ run0 with daybook := { writing := some (0, dbr0), accum := some ([], 0, 0, false) } } : State), by decide⟩,
    ⟨(run0 : State), by decide⟩⟩

/-- DaybookKeepsRecords: the hypotheses of its clauses (AlertsAndCursors) are met. -/
theorem test_meets_AlertsAndCursors :
  (∃ (s : State), powered s = true) ∧
  (∃ (s : State), (powered s = true) ∧ ((s.daybook.pending ≠ 0 ∨ sensorAlarm s = true))) ∧
  (∃ (s : State), (powered s = true) ∧ (s.daybook.pending = 0) ∧ (sensorAlarm s = false)) :=
  ⟨
    ⟨(run0 : State), by decide⟩,
    ⟨({ run0 with daybook := { pending := 1 } } : State), by decide⟩,
    ⟨(run0 : State), by decide⟩⟩

/-- ManagementPorts: the hypotheses of its clauses (SmbusTransactions) are met. -/
theorem test_meets_SmbusTransactions :
  (∃ (a : Nat) (s : State), (powered s = true) ∧ (a < 2 ^ 32)) ∧
  (∃ (s : State), (powered s = true) ∧ (smbusReads (s.smbus.addr / 8 * 8) = false)) ∧
  (∃ (s : State), (powered s = true) ∧ (s.smbus.addr / 0x1_0000 = 0x00)) ∧
  (∃ (s : State), (powered s = true) ∧ (smbusWrites (s.smbus.addr / 8 * 8) = false)) ∧
  (∃ (s : State), (powered s = true) ∧ (s.smbus.addr = 0x0B_0030)) ∧
  (∃ (s : State), powered s = true) :=
  ⟨
    ⟨(0 : Nat), (run0 : State), by decide⟩,
    ⟨({ run0 with smbus := { addr := 0x1000000 } } : State), by decide⟩,
    ⟨(run0 : State), by decide⟩,
    ⟨(run0 : State), by decide⟩,
    ⟨({ run0 with smbus := { addr := 0x0B0030 } } : State), by decide⟩,
    ⟨(run0 : State), by decide⟩⟩

/-- ManagementPorts: the hypotheses of its clauses (MctpMessages) are met. -/
theorem test_meets_MctpMessages :
  (∃ (eid : Nat) (s : State), (powered s = true) ∧ (1 ≤ eid) ∧ (eid < 255)) ∧
  (∃ (eid : Nat) (s : State), (powered s = true) ∧ ((eid = 0 ∨ 255 ≤ eid))) ∧
  (∃ (s : State), powered s = true) ∧
  (∃ (a : Nat) (s : State), (powered s = true) ∧ (smbusReads (a / 8 * 8) = true)) ∧
  (∃ (a : Nat) (s : State), (powered s = true) ∧ (smbusReads (a / 8 * 8) = false)) ∧
  (∃ (a : Nat) (s : State), (powered s = true) ∧ (smbusWrites (a / 8 * 8) = false)) :=
  ⟨
    ⟨(1 : Nat), (run0 : State), by decide⟩,
    ⟨(0 : Nat), (run0 : State), by decide⟩,
    ⟨(run0 : State), by decide⟩,
    ⟨(0 : Nat), (run0 : State), by decide⟩,
    ⟨(0x1000000 : Nat), (run0 : State), by decide⟩,
    ⟨(0 : Nat), (run0 : State), by decide⟩⟩

/-- FusesFlashDramClock: the hypotheses of its clauses (KeyFuses) are met. -/
theorem test_meets_KeyFuses :
  (∃ (s : State), (powered s = true) ∧ (s.fuses.busy = false) ∧ (s.fuses.arm ≠ 0x4B52)) ∧
  (∃ (s : State), (powered s = true) ∧ (s.fuses.busy = false) ∧ (s.fuses.arm = 0x4B52) ∧ (inRecovery s = false)) ∧
  (∃ (s : State), (powered s = true) ∧ (s.fuses.busy = false) ∧ (s.fuses.arm = 0x4B52) ∧ (inRecovery s = true) ∧ (s.fuses.entry < 4) ∧ (s.fuses.keyProgrammed.getLsbD s.fuses.entry = false) ∧ (s.fuses.keyRevoked.getLsbD s.fuses.entry = false)) ∧
  (∃ (s : State), (powered s = true) ∧ (s.fuses.busy = false) ∧ (s.fuses.arm = 0x4B52) ∧ (inRecovery s = true) ∧ (s.fuses.entry < 4) ∧ (s.fuses.keyProgrammed.getLsbD s.fuses.entry = true)) ∧
  (∃ (s : State), (powered s = true) ∧ (s.fuses.busy = false) ∧ (s.fuses.arm = 0x4B52) ∧ (inRecovery s = true) ∧ (s.fuses.entry < 4)) ∧
  (∃ (s : State), (powered s = true) ∧ (s.fuses.busy = false) ∧ (s.fuses.arm = 0x4B52) ∧ (s.chip.step = 15) ∧ (s.ch (·.keyIndex) 0 = s.fuses.entry % 4)) ∧
  (∃ (s : State), s.fuses.busy = true) :=
  ⟨
    ⟨(run0 : State), by decide⟩,
    ⟨(fus 15 {} : State), by decide⟩,
    ⟨(fus 14 {} : State), by decide⟩,
    ⟨(fus 14 { keyProgrammed := 1 } : State), by decide⟩,
    ⟨(fus 14 {} : State), by decide⟩,
    ⟨(fus 15 {} : State), by decide⟩,
    ⟨({ run0 with fuses := { busy := true } } : State), by decide⟩⟩

/-- FusesFlashDramClock: the hypotheses of its clauses (CountersAndRetirementFuses) are met. -/
theorem test_meets_CountersAndRetirementFuses :
  (∃ (s : State), (s.chip.step = 15) ∧ (opfin s = true) ∧ (s.chip.halted = false) ∧ (s.ch (·.secVersion) 0 ≤ 64) ∧ (s.chip.fwSv ≤ 64)) ∧
  (∃ (e : Nat) (n : Nat) (s : State), (opfin s = true) ∧ ((e, n) ∈ s.reserves.fusePending)) ∧
  (∃ (e : Nat) (n : Nat) (s : State), (e, n) ∉ s.reserves.fusePending) :=
  ⟨
    ⟨(run0 : State), by decide⟩,
    ⟨(0 : Nat), (0 : Nat), ({ run0 with reserves := { fusePending := [(0, 0)] } } : State), by decide⟩,
    ⟨(0 : Nat), (0 : Nat), (run0 : State), by decide⟩⟩

/-- FusesFlashDramClock: the hypotheses of its clauses (FlashOperations) are met. -/
theorem test_meets_FlashOperations :
  (∃ (s : State), (powered s = true) ∧ (s.flash.busy = false) ∧ (inRecovery s = false)) ∧
  (∃ (s : State), (powered s = true) ∧ (s.flash.busy = false) ∧ (inRecovery s = true) ∧ (s.flash.addr % 65536 ≠ 0) ∧ (s.flash.addr + 65536 ≤ 0x340_0000)) ∧
  (∃ (s : State), (powered s = true) ∧ (s.flash.busy = false) ∧ (inRecovery s = true) ∧ (0x340_0000 < s.flash.addr + 65536)) ∧
  (∃ (s : State), (powered s = true) ∧ (s.flash.busy = false) ∧ (inRecovery s = true) ∧ (s.flash.addr % 65536 = 0) ∧ (s.flash.addr + 65536 ≤ 0x340_0000)) ∧
  (∃ (s : State), (powered s = true) ∧ (s.flash.busy = false) ∧ (inRecovery s = true) ∧ (s.flash.addr % 4096 = 0) ∧ (s.flash.addr + 4096 ≤ 0x340_0000)) ∧
  (∃ (s : State), s.flash.busy = true) ∧
  (∃ (s : State), s.flash.busy = false) :=
  ⟨
    ⟨(run0 : State), by decide⟩,
    ⟨(fla { addr := 1 } : State), by decide⟩,
    ⟨(fla { addr := 0x3400000 } : State), by decide⟩,
    ⟨(fla {} : State), by decide⟩,
    ⟨(fla {} : State), by decide⟩,
    ⟨(fla { busy := true } : State), by decide⟩,
    ⟨(run0 : State), by decide⟩⟩

/-- FusesFlashDramClock: the hypotheses of its clauses (DramRows) are met. -/
theorem test_meets_DramRows :
  (∃ (row : Nat) (s : State), (powered s = true) ∧ (5 ≤ s.chip.step) ∧ (row ∉ s.reserves.mappedOut)) ∧
  (∃ (row : Nat) (r : DramRow) (s : State), (s.reserves.rows.find? (fun r => r.row = row && r.repairDue) = some r) ∧ (s.power.state < 2) ∧ (s.chip.halted = false) ∧ (s.ch (·.dramRepair) true = true)) ∧
  (∃ (row : Nat) (r : DramRow) (s : State), (s.reserves.rows.find? (fun r => r.row = row && r.repairDue) = some r) ∧ (s.power.state < 2) ∧ (s.chip.halted = false)) ∧
  (∃ (s : State), 2 ≤ s.power.state) :=
  ⟨
    ⟨(0 : Nat), (run0 : State), by decide⟩,
    ⟨(0 : Nat), (⟨0, [], false, true⟩ : DramRow), ({ run0 with reserves := { rows := [⟨0, [], false, true⟩] } } : State), by decide⟩,
    ⟨(0 : Nat), (⟨0, [], false, true⟩ : DramRow), ({ run0 with reserves := { rows := [⟨0, [], false, true⟩] } } : State), by decide⟩,
    ⟨({ run0 with power := { state := 2 } } : State), by decide⟩⟩

/-- FusesFlashDramClock: the hypotheses of its clauses (ClockAndTestPort) are met. -/
theorem test_meets_ClockAndTestPort :
  (∃ (ns : Nat) (s : State), (powered s = true) ∧ (s.chip.locked = true) ∧ (s.chip.halted = false) ∧ (1000 < ns)) ∧
  (∃ (ns : Nat), ns ≤ 1000) ∧
  (∃ (j : JtagInstr), takesBalls j = false) ∧
  (∃ (j : JtagInstr) (s : State), (takesBalls j = true) ∧ (powered s = true) ∧ (s.chip.halted = false)) :=
  ⟨
    ⟨(1001 : Nat), (run0 : State), by decide⟩,
    ⟨(0 : Nat), by decide⟩,
    ⟨(.bypass : JtagInstr), by decide⟩,
    ⟨(.extest : JtagInstr), (run0 : State), by decide⟩⟩

/-- CourierTakesCommands: the hypotheses of its clauses are met. -/
theorem test_meets_CourierTakesCommands :
  (∃ (n : Nat) (x : Slot) (s : State), (n < 16) ∧ (s.courier.channels.length = 16) ∧ ((chan s n).state = 0) ∧ (slotAt (chan s n) (chan s n).next = x) ∧ (x.valid = true) ∧ (fetchFault s n x = none)) ∧
  (∃ (n : Nat) (x : Slot) (s : State), (n < 16) ∧ (s.courier.channels.length = 16) ∧ ((chan s n).state = 0) ∧ (slotAt (chan s n) (chan s n).next = x) ∧ (x.valid = true) ∧ ((x.last = x.more ∨ x.count = 0))) ∧
  (∃ (n : Nat) (s : State), (n < 16) ∧ (s.courier.channels.length = 16) ∧ ((chan s n).state = 0) ∧ ((slotAt (chan s n) (chan s n).next).valid = false)) ∧
  (∃ (n : Nat) (s : State), (chan s n).state ≠ 0) ∧
  (∃ (n : Nat) (k : Nat) (s : State), (n < 16) ∧ (k < 4) ∧ (s.courier.channels.length = 16) ∧ ((chan s n).slots.length = 4) ∧ (((chan s n).state = 0 ∨ ((chan s n).state = 1 ∨ (chan s n).state = 3) ∧ (chan s n).slot ≠ k))) ∧
  (∃ (n : Nat) (k : Nat) (s : State), (((chan s n).state = 1 ∨ (chan s n).state = 3)) ∧ ((chan s n).slot = k)) ∧
  (∃ (n : Nat) (k : Nat) (s : State), (((chan s n).state = 1 ∨ (chan s n).state = 3)) ∧ ((chan s n).slot = k) ∧ (k < 4) ∧ ((chan s n).slots.length = 4) ∧ (n < 16)) ∧
  (∃ (n : Nat) (k : Nat) (v : BitVec 64) (s : State), (n < 16) ∧ (k < 4) ∧ (s.courier.channels.length = 16) ∧ ((chan s n).slots.length = 4) ∧ ((chan s n).state = 2) ∧ (((chan s n).slot + 1) % 4 = k) ∧ (bit v.toNat 32 = true) ∧ (fetchFault s n (ctlWrite (slotAt (chan s n) k) v.toNat) = none)) ∧
  (∃ (n : Nat) (k : Nat) (s : State), (n < 16) ∧ (k < 4) ∧ (s.courier.channels.length = 16)) ∧
  (∃ (n : Nat) (s : State), (n < 16) ∧ (s.courier.channels.length = 16) ∧ (((chan s n).state = 1 ∨ (chan s n).state = 3))) ∧
  (∃ (n : Nat) (s : State), (n < 16) ∧ (s.courier.channels.length = 16) ∧ (((chan s n).state = 0 ∨ (chan s n).state = 2))) ∧
  (∃ (arm : Nat) (s : State), (writesTaken s = true) ∧ (arm = 0x4D54)) ∧
  (∃ (arm : Nat) (s : State), (writesTaken s = true) ∧ (arm ≠ 0x4D54)) :=
  ⟨
    ⟨(0 : Nat), (xs0 : Slot), (chn { slots := xs0 :: List.replicate 3 {} } : State), by decide⟩,
    ⟨(0 : Nat), ({ valid := true } : Slot), (chn { slots := { valid := true } :: List.replicate 3 {} } : State), by decide⟩,
    ⟨(0 : Nat), (chn {} : State), by decide⟩,
    ⟨(0 : Nat), (chn { state := 1 } : State), by decide⟩,
    ⟨(0 : Nat), (0 : Nat), (chn {} : State), by decide⟩,
    ⟨(0 : Nat), (0 : Nat), (chn { state := 1 } : State), by decide⟩,
    ⟨(0 : Nat), (0 : Nat), (chn { state := 1 } : State), by decide⟩,
    ⟨(0 : Nat), (0 : Nat), (0x110300000040 : BitVec 64), (chn { state := 2, slot := 3 } : State), by decide⟩,
    ⟨(0 : Nat), (0 : Nat), (chn {} : State), by decide⟩,
    ⟨(0 : Nat), (chn { state := 1 } : State), by decide⟩,
    ⟨(0 : Nat), (chn {} : State), by decide⟩,
    ⟨(0x4D54 : Nat), (run0 : State), by decide⟩,
    ⟨(0 : Nat), (run0 : State), by decide⟩⟩

/-- BurstsMoveBytes: the hypotheses of its clauses are met. -/
theorem test_meets_BurstsMoveBytes :
  (∃ (n : Nat) (len : Nat) (r : List Nat) (f : Slot) (s : State), (n ∈ r) ∧ (s.courier.channels.length = 16) ∧ ((chan s n).state = 1) ∧ ((∀ m ∈ r, (chan s m).readySince = none ∧ (m ≠ n → (chan s m).prio < (chan s n).prio))) ∧ ((chan s n).armed = false) ∧ (f = (chan s n).fetched) ∧ (f.srcSpace = 0) ∧ (f.dstSpace = 0) ∧ (f.srcFixed = false) ∧ (f.dstFixed = false) ∧ (f.xform ≤ 1) ∧ ((chan s n).moved < f.count) ∧ (len = min (f.count - (chan s n).moved) (256 - (f.dst.toNat + (chan s n).moved) % 256))) ∧
  (∃ (n : Nat) (s : State), (n ≤ 3) ∧ (s.courier.channels.length = 16) ∧ ((chan s n).state = 1) ∧ ((chan s n).armed = false) ∧ ((chan s n).fetched.dstSpace = 3) ∧ ((s.cfg.busMaster = false ∨ s.cfg.powerState ≠ 0))) ∧
  (∃ (r : List Nat) (s : State), (∀ m ∈ r, (chan s m).state = 0 ∨ (chan s m).state = 2)) ∧
  (∃ (n : Nat) (s : State), ((chan s n).state = 1) ∧ ((chan s n).fetched.count ≤ (chan s n).moved) ∧ ((chan s n).fetched.last = true)) ∧
  (∃ (n : Nat) (s : State), ((chan s n).state = 1) ∧ ((chan s n).fetched.count ≤ (chan s n).moved) ∧ ((chan s n).fetched.last = false) ∧ ((slotAt (chan s n) (((chan s n).slot + 1) % 4)).valid = false)) ∧
  (∃ (n : Nat) (s : State) (y : _), ((chan s n).state = 1) ∧ ((chan s n).fetched.count ≤ (chan s n).moved) ∧ ((chan s n).fetched.last = false) ∧ ((chan s n).slot < 4) ∧ (slotAt (chan s n) (((chan s n).slot + 1) % 4) = y) ∧ (y.valid = true) ∧ (fetchFault s n y = none)) ∧
  (∃ (n : Nat) (s : State), ((chan s n).state ≠ 1 ∨ (chan s n).moved < (chan s n).fetched.count)) ∧
  (∃ (n : Nat) (code : Nat) (s : State), (((chan s n).state = 1 ∨ (chan s n).state = 3)) ∧ (1 ≤ code) ∧ (code ≤ 8) ∧ ((chan s n).fetched.last = true) ∧ ((chan s n).gen = (chan s n).genAtFetch)) ∧
  (∃ (n : Nat) (code : Nat) (s : State), (code = 0 ∨ 8 < code ∨ (chan s n).state = 0 ∨ (chan s n).state = 2)) :=
  ⟨
    ⟨(0 : Nat), (64 : Nat), ([0] : List Nat), ({ count := 64 } : Slot), (chn { state := 1, fetched := { count := 64 } } : State), by decide⟩,
    ⟨(0 : Nat), ({ chn { state := 1, fetched := { dstSpace := 3 } } with cfg := {} } : State), by decide⟩,
    ⟨([0] : List Nat), (chn {} : State), by decide⟩,
    ⟨(0 : Nat), (chn { state := 1, fetched := { last := true } } : State), by decide⟩,
    ⟨(0 : Nat), (chn { state := 1 } : State), by decide⟩,
    ⟨(0 : Nat), (chn { state := 1, slots := [{}, xs0, {}, {}] } : State), xs0, by decide⟩,
    ⟨(0 : Nat), (chn {} : State), by decide⟩,
    ⟨(0 : Nat), (1 : Nat), (chn { state := 1, fetched := { last := true } } : State), by decide⟩,
    ⟨(0 : Nat), (0 : Nat), (run0 : State), by decide⟩⟩

/-- MapCacheServes: the hypotheses of its clauses are met. -/
theorem test_meets_MapCacheServes :
  (∃ (id : Nat) (a : Nat) (w : Nat) (s : State) (v : _), (id < 2 ^ 32) ∧ (a < 2 ^ 39) ∧ (w < 16) ∧ (s.map.victims.find? (fun v => v.set = mapSet a && v.tag = mapTag a) = some v)) ∧
  (∃ (id : Nat) (a : Nat) (w : Nat) (ecc : Nat) (s : State) (l : _), (id < 2 ^ 32) ∧ (a < 2 ^ 39) ∧ (w < 16) ∧ (s.map.victims.find? (fun v => v.set = mapSet a && v.tag = mapTag a) = none) ∧ (s.map.lines.find? (fun l => l.set = mapSet a && l.tag = mapTag a && (way s l.way).enabled) = some l) ∧ (ecc = 0)) ∧
  (∃ (id : Nat) (a : Nat) (w : Nat) (ecc : Nat) (s : State) (l : _), (id < 2 ^ 32) ∧ (a < 2 ^ 39) ∧ (w < 16) ∧ (s.map.victims.find? (fun v => v.set = mapSet a && v.tag = mapTag a) = none) ∧ (s.map.lines.find? (fun l => l.set = mapSet a && l.tag = mapTag a && (way s l.way).enabled) = some l) ∧ (ecc = 1)) ∧
  (∃ (id : Nat) (a : Nat) (w : Nat) (ecc : Nat) (s : State) (l : _), (id < 2 ^ 32) ∧ (a < 2 ^ 39) ∧ (w < 16) ∧ (s.map.victims.find? (fun v => v.set = mapSet a && v.tag = mapTag a) = none) ∧ (s.map.lines.find? (fun l => l.set = mapSet a && l.tag = mapTag a && (way s l.way).enabled) = some l) ∧ (ecc = 2)) ∧
  (∃ (id : Nat) (a : Nat) (w : Nat) (s : State), (id < 2 ^ 32) ∧ (a < 2 ^ 39) ∧ (w < 16) ∧ (s.map.victims.find? (fun v => v.set = mapSet a && v.tag = mapTag a) = none) ∧ (s.map.lines.find? (fun l => l.set = mapSet a && l.tag = mapTag a && (way s l.way).enabled) = none) ∧ ((∀ x ∈ s.map.ways, x.enabled = false))) ∧
  (∃ (id : Nat) (a : Nat) (w : Nat) (s : State), (id < 2 ^ 32) ∧ (a < 2 ^ 39) ∧ (w < 16) ∧ (s.map.victims.find? (fun v => v.set = mapSet a && v.tag = mapTag a) = none) ∧ (s.map.lines.find? (fun l => l.set = mapSet a && l.tag = mapTag a && (way s l.way).enabled) = none) ∧ ((way s w).enabled = true) ∧ ((∃ f ∈ s.map.fills, f.set = mapSet a ∧ f.tag = mapTag a))) ∧
  (∃ (id : Nat) (a : Nat) (w : Nat) (s : State) (old : _), (id < 2 ^ 32) ∧ (a < 2 ^ 39) ∧ (w < 16) ∧ (s.map.victims.find? (fun v => v.set = mapSet a && v.tag = mapTag a) = none) ∧ (s.map.lines.find? (fun l => l.set = mapSet a && l.tag = mapTag a && (way s l.way).enabled) = none) ∧ ((way s w).enabled = true) ∧ ((∀ f ∈ s.map.fills, f.set = mapSet a → f.tag ≠ mapTag a)) ∧ (s.map.lines.find? (fun l => l.set = mapSet a && l.way = w) = some old) ∧ (8 ≤ s.map.victims.length)) ∧
  (∃ (id : Nat) (a : Nat) (w : Nat) (s : State) (old : _), (id < 2 ^ 32) ∧ (a < 2 ^ 39) ∧ (w < 16) ∧ (s.map.victims.find? (fun v => v.set = mapSet a && v.tag = mapTag a) = none) ∧ (s.map.lines.find? (fun l => l.set = mapSet a && l.tag = mapTag a && (way s l.way).enabled) = none) ∧ ((way s w).enabled = true) ∧ ((∀ f ∈ s.map.fills, f.set = mapSet a → f.tag ≠ mapTag a)) ∧ (s.map.lines.find? (fun l => l.set = mapSet a && l.way = w) = old) ∧ ((old = none ∨ s.map.victims.length < 8))) ∧
  (∃ (a : Nat) (f : Fill) (s : State), (s.map.fills.find? (fun f => f.set = mapSet a && f.tag = mapTag a) = some f) ∧ (s.map.waiting = []) ∧ (f.gen = setGen s (mapSet a)) ∧ (f.disabled = false) ∧ ((way s f.way).enabled = true)) ∧
  (∃ (a : Nat) (f : Fill) (s : State), (s.map.fills.find? (fun f => f.set = mapSet a && f.tag = mapTag a) = some f) ∧ (s.map.waiting = []) ∧ (f.gen = setGen s (mapSet a)) ∧ ((f.disabled = true ∨ (way s f.way).enabled = false))) ∧
  (∃ (a : Nat) (f : Fill) (s : State), (s.map.fills.find? (fun f => f.set = mapSet a && f.tag = mapTag a) = some f) ∧ (s.map.waiting = []) ∧ (f.gen ≠ setGen s (mapSet a)) ∧ ((∀ l ∈ f.lookups, l.2 = f.gen))) ∧
  (∃ (a : Nat) (e : List Byte), (a < 2 ^ 39) ∧ (a % 64 = 0) ∧ (e.length = 64)) ∧
  (∃ (a : Nat) (s : State), (writesTaken s = true) ∧ (s.map.invalAddr = a)) ∧
  (∃ (s : State), writesTaken s = true) :=
  ⟨
    ⟨(0 : Nat), (0 : Nat), (0 : Nat), (mp { victims := [⟨0, 0, 0, []⟩] } : State), ⟨0, 0, 0, []⟩, by decide⟩,
    ⟨(0 : Nat), (0 : Nat), (0 : Nat), (0 : Nat), (mp { lines := [⟨0, 0, 0, []⟩] } : State), ⟨0, 0, 0, []⟩, by decide⟩,
    ⟨(0 : Nat), (0 : Nat), (0 : Nat), (1 : Nat), (mp { lines := [⟨0, 0, 0, []⟩] } : State), ⟨0, 0, 0, []⟩, by decide⟩,
    ⟨(0 : Nat), (0 : Nat), (0 : Nat), (2 : Nat), (mp { lines := [⟨0, 0, 0, []⟩] } : State), ⟨0, 0, 0, []⟩, by decide⟩,
    ⟨(0 : Nat), (0 : Nat), (0 : Nat), (mp { ways := List.replicate 16 { enabled := false } } : State), by decide⟩,
    ⟨(0 : Nat), (0 : Nat), (0 : Nat), (mp { fills := [⟨0, 0, 0, 0, [], [], false⟩] } : State), by decide⟩,
    ⟨(0 : Nat), (0 : Nat), (0 : Nat), (mp { lines := [⟨0, 0, 5, []⟩], victims := List.replicate 8 ⟨1, 0, 0, []⟩ } : State), ⟨0, 0, 5, []⟩, by decide⟩,
    ⟨(0 : Nat), (0 : Nat), (0 : Nat), (mp {} : State), none, by decide⟩,
    ⟨(0 : Nat), (⟨0, 0, 0, 0, [], [], false⟩ : Fill), (mp { fills := [⟨0, 0, 0, 0, [], [], false⟩] } : State), by decide⟩,
    ⟨(0 : Nat), (⟨0, 0, 0, 0, [], [], true⟩ : Fill), (mp { fills := [⟨0, 0, 0, 0, [], [], true⟩] } : State), by decide⟩,
    ⟨(0 : Nat), (⟨0, 0, 1, 0, [], [], false⟩ : Fill), (mp { fills := [⟨0, 0, 1, 0, [], [], false⟩] } : State), by decide⟩,
    ⟨(0 : Nat), (List.replicate 64 0 : List Byte), by decide⟩,
    ⟨(0 : Nat), (run0 : State), by decide⟩,
    ⟨(run0 : State), by decide⟩⟩

/-! ### Worked examples of the specification -/

/-- The 6+2 group of chapter 04: the term of each column in Q, and the two syndromes of its symbols. -/
theorem test_six_plus_two :
    [(0, 0x1234), (1, 0x5678), (2, 0x9ABC), (3, 0xDEF0), (4, 0x0F0F), (5, 0xA5A5)].map (fun e : Nat × BitVec 16 => gfMul (gfAlpha e.1) e.2) = [0x1234, 0xACF0, 0x4AE6, 0x97BA, 0xF0F0, 0xE437] ∧
      (0x1234 ^^^ 0x5678 ^^^ 0x9ABC ^^^ 0xDEF0 ^^^ 0x0F0F ^^^ 0xA5A5 : BitVec 16) = 0xAAAA ∧ (0x1234 ^^^ 0xACF0 ^^^ 0x4AE6 ^^^ 0x97BA ^^^ 0xF0F0 ^^^ 0xE437 : BitVec 16) = 0x775F := by
  decide

/-- The small write of chapter 04: α² · 0x8BAD, and the new Q. -/
theorem test_small_write : gfMul (gfAlpha 2) 0x8BAD = 0x0EA2 ∧ (0x775F ^^^ 0x0EA2 : BitVec 16) = 0x79FD := by decide

/-- The decode of chapter 04: the determinant's inverse and the two columns. -/
theorem test_three_erasures : gfMul 0x0006 0x7803 = 1 ∧ gfMul 0x7803 0xE51B = 0x5678 ∧ gfMul 0x7803 0x6CB8 = 0x1234 := by decide

/-- The declustered 6+2 pool of chapter 04. -/
def layX : Layout := ⟨0, 0, 0, 0, 255, 0, 256, [], [⟨6, (List.range 10), 3, 0, [], [0, 1, 2, 3, 4, 5]⟩], [], []⟩

/-- Rows 0 to 2 of its table: the members of the data roles, of P and of Q. -/
theorem test_declustered_rows :
    (List.range 3).map (fun r => layX.chunks.filterMap (fun c => (layX.member r c).map (·.1))) = [[0, 3, 6, 9, 2, 5, 8, 1], [1, 4, 7, 0, 3, 6, 9, 2], [2, 5, 8, 1, 4, 7, 0, 3]] ∧
      layX.member 1 (.d 1) = some (4, 1) := by decide

/-- Split of the symbols 0x1234 and 0x5678 into its two planes, chapter 16. -/
theorem test_split : evens [0x34, 0x12, 0x78, 0x56] = [0x34, 0x78] ∧ odds [0x34, 0x12, 0x78, 0x56] = [0x12, 0x56] := by decide

/-- The unaligned courier write of 64 bytes at 0x91_2345, chapter 08: banks 141 and 142, row 580. -/
theorem test_unaligned_access : (accWords ⟨138, 0x912345, none, 64, 0⟩).map (fun w => (w % 256, w / 256)) = [(141, 580), (142, 580)] := by decide

/-- The read that wraps a ring, chapter 10: a Pad of 4,096 bytes is needed, and the free space is 0xCFC0. -/
theorem test_ring_example : (0xC000 + 2 * 2 ^ 16 - 0xF000 - 64) % 2 ^ 16 = 0xCFC0 ∧ Ring.lmax { sizeLog := 16, maxLog := 14 } = 16384 := by decide

/-- With eight MSI vectors, chapter 09: ring 13 uses vector 6 and management vector 7. -/
theorem test_vectors : vectorOf { msiEnable := true, mme := 3 } 13 = 6 ∧ vectorOf { msiEnable := true, mme := 3 } 64 = 7 := by decide

/-- CRC-32C of the nine digits (its published check value). -/
theorem test_crc : crc32c [0x31, 0x32, 0x33, 0x34, 0x35, 0x36, 0x37, 0x38, 0x39] = 0xE3069283 := by decide

/-- SHA-256 of no bytes: the first four bytes of its published value. -/
theorem test_sha : (sha256 []).take 4 = [0xE3, 0xB0, 0xC4, 0x42] := by decide +kernel

end Sys2Proof.Tests
end

section
namespace Sys2Proof.Machine

/-! ## The parts a command may change

One rule per command: a next state differs only in the parts that `mayChange` names. -/

/-- Every state that a command answers differs from `s` in no part but those `mayChange` names for the command. -/
def StaysInParts (c : Instr) (s : State) : Prop := ∀ t, exec c s = .next t → OnlyIn (mayChange c) s t

theorem staysInParts_of_next {c : Instr} {s u : State} (h : exec c s = .next u) (hu : u.outside (mayChange c) = s.outside (mayChange c)) : StaysInParts c s := by
  intro t ht
  obtain rfl : u = t := by simpa [h] using ht
  exact hu

/-! The commands that split on a guard or an operand, or that answer with one of the wide operations of a start-up or a boundary. -/

@[simp] theorem memoryRequest_stays {m s} : StaysInParts (.memoryRequest m) s :=
  staysInParts_of_next rfl (by delta mayChange; simp [allBut])

@[simp] theorem pwrgdRise_stays {p s} : StaysInParts (.pwrgdRise p) s :=
  staysInParts_of_next rfl (by delta mayChange; simp [allBut])

@[simp] theorem pwrgdFall_stays {holdUp s} : StaysInParts (.pwrgdFall holdUp) s :=
  staysInParts_of_next rfl (by delta mayChange; simp [allBut])

@[simp] theorem perstDeassert_stays {closersPass s} : StaysInParts (.perstDeassert closersPass) s :=
  staysInParts_of_next rfl (by delta mayChange; simp [allBut])

@[simp] theorem closeBoundary_stays {s} : StaysInParts .closeBoundary s :=
  staysInParts_of_next rfl (by delta mayChange; simp [allBut])

@[simp] theorem burstGrant_stays {t ready s} : StaysInParts (.burstGrant t ready) s :=
  staysInParts_of_next rfl (by delta mayChange; dsimp only; (repeat' split) <;> simp)

@[simp] theorem parkedNotice_stays {tag s} : StaysInParts (.parkedNotice tag) s :=
  staysInParts_of_next rfl (by delta mayChange; dsimp only; (repeat' split) <;> simp)

@[simp] theorem holdRelease_stays {work s} : StaysInParts (.holdRelease work) s :=
  staysInParts_of_next rfl (by delta mayChange; dsimp only; (repeat' split) <;> simp)

@[simp] theorem write_stays {tag s} : StaysInParts (.write tag) s :=
  staysInParts_of_next rfl (by delta mayChange; dsimp only; (repeat' split) <;> simp)

@[simp] theorem release_stays {tag s} : StaysInParts (.release tag) s :=
  staysInParts_of_next rfl (by delta mayChange; dsimp only; (repeat' split) <;> simp)

@[simp] theorem closeWait_stays {tag s} : StaysInParts (.closeWait tag) s :=
  staysInParts_of_next rfl (by delta mayChange; dsimp only; (repeat' split) <;> simp)

@[simp] theorem notReadyRetry_stays {cmd s} : StaysInParts (.notReadyRetry cmd) s :=
  staysInParts_of_next rfl (by delta mayChange; dsimp only; (repeat' split) <;> simp)

@[simp] theorem lateRead_stays {cmd data s} : StaysInParts (.lateRead cmd data) s :=
  staysInParts_of_next rfl (by delta mayChange; dsimp only; (repeat' split) <;> simp)

@[simp] theorem registryRehome_stays {member s} : StaysInParts (.registryRehome member) s :=
  staysInParts_of_next rfl (by delta mayChange; dsimp only; (repeat' split) <;> simp)

@[simp] theorem checkpointFailure_stays {s} : StaysInParts .checkpointFailure s :=
  staysInParts_of_next rfl (by delta mayChange; dsimp only; (repeat' split) <;> simp)

@[simp] theorem groupWindowRequest_stays {tag s} : StaysInParts (.groupWindowRequest tag) s :=
  staysInParts_of_next rfl (by delta mayChange; dsimp only; (repeat' split) <;> simp)

@[simp] theorem groupWindowRelease_stays {tag s} : StaysInParts (.groupWindowRelease tag) s :=
  staysInParts_of_next rfl (by delta mayChange; dsimp only; (repeat' split) <;> simp)

@[simp] theorem hostTimeMark_stays {tag s} : StaysInParts (.hostTimeMark tag) s :=
  staysInParts_of_next rfl (by delta mayChange; dsimp only; (repeat' split) <;> simp)

@[simp] theorem sessionIdleExpiry_stays {session s} : StaysInParts (.sessionIdleExpiry session) s :=
  staysInParts_of_next rfl (by delta mayChange; dsimp only; (repeat' split) <;> simp)

@[simp] theorem witnessRecordWrite_stays {pos s} : StaysInParts (.witnessRecordWrite pos) s :=
  staysInParts_of_next rfl (by delta mayChange; dsimp only; (repeat' split) <;> simp)

@[simp] theorem reshapeStart_stays {tag s} : StaysInParts (.reshapeStart tag) s :=
  staysInParts_of_next rfl (by delta mayChange; dsimp only; (repeat' split) <;> simp)

@[simp] theorem mapFillReturn_stays {addr s} : StaysInParts (.mapFillReturn addr) s :=
  staysInParts_of_next rfl (by delta mayChange; dsimp only; (repeat' split) <;> simp)

@[simp] theorem preemptCompletion_stays {pos success s} : StaysInParts (.preemptCompletion pos success) s :=
  staysInParts_of_next rfl (by delta mayChange; dsimp only; (repeat' split) <;> simp)

@[simp] theorem arbitrationLoss_stays {s} : StaysInParts .arbitrationLoss s :=
  staysInParts_of_next rfl (by delta mayChange; dsimp only; (repeat' split) <;> simp)

@[simp] theorem hostReadCompletion_stays {r s} : StaysInParts (.hostReadCompletion r) s :=
  staysInParts_of_next rfl (by delta mayChange; cases r <;> dsimp only <;> (repeat' split) <;> simp)

@[simp] theorem wakeCause_stays {c s} : StaysInParts (.wakeCause c) s :=
  staysInParts_of_next rfl (by delta mayChange; cases c <;> simp)

@[simp] theorem failedTally_stays {path s} : StaysInParts (.failedTally path) s :=
  staysInParts_of_next rfl (by delta mayChange; cases path <;> simp)


/-- Every command stays in its parts: any other command answers with one operation, whose `_outside` lemma says so. -/
theorem exec_staysInParts (c : Instr) (s : State) : StaysInParts c s := by
  cases c with
  | memoryRequest | pwrgdRise | pwrgdFall | perstDeassert | closeBoundary | hostReadCompletion | wakeCause | failedTally
  | burstGrant | parkedNotice | holdRelease | write | release | closeWait | notReadyRetry | lateRead | registryRehome
  | checkpointFailure | groupWindowRequest | groupWindowRelease | hostTimeMark | sessionIdleExpiry | witnessRecordWrite
  | reshapeStart | mapFillReturn | preemptCompletion | arbitrationLoss => simp
  | _ => exact staysInParts_of_next rfl (by delta mayChange; simp)

end Sys2Proof.Machine
end

section
namespace Sys2Proof.Machine

/-! ## The scope of the model: steps, commands and the shape of the state (O2, O5, O6, O7) -/

/-- Settles O5, command by command: the function of each command answers `.next`. -/
theorem everyCommandCompletes : Obligations.EveryCommandCompletes := by
  intro c s
  cases c <;> exact ⟨_, rfl⟩

/-- Settles O6 by evaluating the reset state. -/
theorem resetHasShape : Obligations.ResetHasShape := by
  unfold Obligations.ResetHasShape State.Inv
  decide

/-- Settles O2: on an empty queue a step is `tick`. -/
theorem emptyQueueCountsCycles : Obligations.EmptyQueueCountsCycles := by
  intro s hq
  refine ⟨tick s, by simp only [step, hq], ?_, ?_, ?_⟩
  · simp [OnlyIn, tick]
  · unfold tick State.at
    split <;> rfl
  · intro h1 h2 h3 h4
    simp [tick, h1, h2, h3, State.at]

/-- A state at step 6 of start-up whose registry copy holds the cursor of one rebuild pass, where the unit has sixteen. -/
def cursorState : State :=
  { State.reset with
    pending := [.ledgerRecovery true]
    chip := { pwrgd := true, locked := true, step := 6 }
    registry := { passes := [{}] } }

theorem cursorState_inv : cursorState.Inv := by
  unfold State.Inv
  decide

/-- The ledger's recovery takes the cursors over from the registry, and with them the length of its list. -/
theorem step_cursorState : ∃ t, step cursorState = .next t ∧ t.degrade.passes.length = 1 := ⟨_, rfl, by decide⟩

/-- Refutes O7: `State.Inv` says nothing of the registry's copy of the rebuild passes, and LEDGER_RECOVERY takes that copy over whatever its length. -/
theorem not_stepKeepsShape : ¬ Obligations.StepKeepsShape := by
  intro h
  obtain ⟨t, hstep, hlen⟩ := step_cursorState
  obtain ⟨-, -, -, hpasses, -, -⟩ := h cursorState t cursorState_inv hstep
  omega

end Sys2Proof.Machine
end

section
namespace Sys2Proof.Machine

/-! ## The number of the close (O9, O20) -/

/-- The commands that may change the clock of the close. -/
inductive MovesClock : Instr → Prop
  | cut (errs) : MovesClock (.cut errs)
  | vote : MovesClock .vote
  | bookEntryIssue : MovesClock .bookEntryIssue
  | bookSkipped : MovesClock .bookSkipped
  | quietSliceStart : MovesClock .quietSliceStart
  | commit (t w off data) : MovesClock (.commit t w off data)
  | postingTake (x t) : MovesClock (.postingTake x t)
  | steal (x t) : MovesClock (.steal x t)
  | postingFinish (x t) : MovesClock (.postingFinish x t)
  | sweepStep (t needed faultAt) : MovesClock (.sweepStep t needed faultAt)
  | retrimDeferral (lane) : MovesClock (.retrimDeferral lane)
  | burstGrant (t ready) : MovesClock (.burstGrant t ready)
  | closeBoundary : MovesClock .closeBoundary
  | pwrgdRise (p) : MovesClock (.pwrgdRise p)
  | pwrgdFall (holdUp) : MovesClock (.pwrgdFall holdUp)
  | perstDeassert (pass) : MovesClock (.perstDeassert pass)

theorem movesClock_of_mem {c : Instr} (h : .clock ∈ mayChange c) : MovesClock c := by
  delta mayChange at h
  cases c with
  | cut _ | vote | bookEntryIssue | bookSkipped | quietSliceStart | commit _ _ _ _ | postingTake _ _ | steal _ _ | postingFinish _ _ | sweepStep _ _ _
  | retrimDeferral _ | burstGrant _ _ | closeBoundary | pwrgdRise _ | pwrgdFall _ | perstDeassert _ => constructor
  | _ => exact absurd h (of_decide_eq_false rfl)

/-- An operation on a state brought to a cycle of its close, that leaves the clock alone. -/
theorem now_of_outside_at {s u : State} {t : Nat} (h : u.outside (allBut [.clock]) = (s.at t).outside (allBut [.clock])) : u.now = s.now := by
  rw [State.now, same_clock h (by decide)]
  rfl

theorem now_of_guarded_at {b : Prop} [Decidable b] {s u : State} {t : Nat} (h : u.outside (allBut [.clock]) = (s.at t).outside (allBut [.clock])) :
    (if b then u else s).now = s.now := by
  split
  · exact now_of_outside_at h
  · rfl

theorem cut_now (s : State) (errs : List (Nat × Verdict)) : (cut s errs).now = s.now := by
  unfold cut
  dsimp only
  split <;> rfl

theorem vote_now (s : State) : (vote s).now = s.now := by
  unfold vote
  refine now_of_outside_at (t := 24559) ?_
  dsimp only
  (repeat' split) <;> simp [allBut]

theorem bookIssue_now (s : State) : (bookIssue s).now = s.now := by
  unfold bookIssue
  refine now_of_outside_at (t := 24560) ?_
  dsimp only
  (repeat' split) <;> simp [allBut]

theorem sweepStep_now (s : State) (t : Nat) (needed : List Nat) (faultAt : Option Nat) : (sweepStep s t needed faultAt).now = s.now := by
  unfold sweepStep
  refine now_of_outside_at (t := t) ?_
  dsimp only
  (repeat' split) <;> simp [allBut]

/-- Within a close no command changes its number (R6). -/
theorem now_eq_of_movesClock {c : Instr} {s t : State} (hm : MovesClock c) (h : exec c s = .next t) :
    t.now = s.now ∨ c = .closeBoundary ∨ (∃ p, c = .pwrgdRise p) ∨ (∃ h, c = .pwrgdFall h) ∨ ∃ l, c = .perstDeassert l := by
  cases hm with
  | closeBoundary => exact .inr (.inl rfl)
  | pwrgdRise p => exact .inr (.inr (.inl ⟨p, rfl⟩))
  | pwrgdFall holdUp => exact .inr (.inr (.inr (.inl ⟨holdUp, rfl⟩)))
  | perstDeassert pass => exact .inr (.inr (.inr (.inr ⟨pass, rfl⟩)))
  | cut errs => cases h; exact .inl (cut_now s errs)
  | vote => cases h; exact .inl (vote_now s)
  | bookEntryIssue => cases h; exact .inl (bookIssue_now s)
  | bookSkipped => cases h; exact .inl (now_of_outside_at (t := 25599) (by simp [allBut]))
  | quietSliceStart => cases h; exact .inl rfl
  | commit x w off data => cases h; exact .inl (now_of_outside_at (t := x) (by simp [allBut]))
  | postingTake x at' => cases h; exact .inl (now_of_guarded_at (t := at') (by simp [allBut]))
  | steal x at' => cases h; exact .inl (now_of_guarded_at (t := at') (by simp [allBut]))
  | postingFinish x at' => cases h; exact .inl (now_of_guarded_at (t := at') (by simp [allBut]))
  | sweepStep x needed faultAt => cases h; exact .inl (sweepStep_now _ _ _ _)
  | retrimDeferral lane => cases h; exact .inl (now_of_outside_at (t := 20480) (by simp [allBut]))
  | burstGrant x ready =>
    cases h
    refine .inl (now_of_outside_at (t := x) ?_)
    dsimp only
    split <;> simp [allBut]

/-- Settles O9: a command that may not change the clock stays in its parts, and `now_eq_of_movesClock` speaks of the sixteen that may. -/
theorem closeNumberChanges : Obligations.CloseNumberChanges := by
  intro c s t h hne
  by_cases hm : .clock ∈ mayChange c
  · exact (now_eq_of_movesClock (movesClock_of_mem hm) h).resolve_left hne
  · exact absurd (congrArg Clock.close (same_clock (exec_staysInParts c s t h) hm)) hne

/-! ### CLOSE_BOUNDARY (R6, R45, R54) -/

theorem openClose_clock (s : State) : (openClose s).clock = { close := s.now + 1, cycle := 0 } := by
  have h : (releaseRecords (skipBook (s.at 25599))).clock = (s.at 25599).clock :=
    same_clock (ps := allBut [.clock]) (by simp [allBut]) (by decide)
  simp only [openClose, h]
  rfl

theorem boundaryRows_clock (s : State) : (boundaryRows s).clock = s.clock :=
  same_clock (ps := allBut [.clock]) (by simp [allBut]) (by decide)

theorem perstBoundary_clock (s : State) : (perstBoundary s).clock = s.clock :=
  same_clock (ps := allBut [.clock]) (by simp [allBut]) (by decide)

theorem lateLanding_clock (s : State) : (writeLatePieces (writeLate (landCut s))).clock = s.clock :=
  same_clock (ps := allBut [.clock]) (by simp [allBut]) (by decide)

/-- A boundary of a running unit goes on to cycle 0 of the next close (R6). -/
theorem closeBoundary_clock_of_runs {s : State} (h : closesRun s = true) :
    (closeBoundary s).clock = { close := s.now + 1, cycle := 0 } := by
  simp only [closesRun, Bool.and_eq_true, Bool.not_eq_true'] at h
  obtain ⟨⟨⟨hp, ht⟩, hl⟩, hh⟩ := h
  simp only [closeBoundary, hp, ht, hl, hh]
  split
  · contradiction
  · split
    · contradiction
    · split
      · rw [perstBoundary_clock, lateLanding_clock, openClose_clock]
      · rw [boundaryRows_clock, lateLanding_clock, openClose_clock]

theorem closeBoundary_of_halted {s : State} (hp : s.chip.pwrgd = true) (ht : s.chip.testMode = false) (hl : s.chip.locked = true) (hh : s.chip.halted = true) :
    closeBoundary s = intakeRow { s with clock := { s.clock with cycle := 0 } } := by
  simp [closeBoundary, hp, ht, hl, hh]

theorem intakeRow_keeps (s : State) : (intakeRow s).clock = s.clock ∧ (intakeRow s).chip = s.chip ∧ (intakeRow s).ints = s.ints := by
  have h : (intakeRow s).outside (allBut [.clock, .chip, .ints]) = s.outside (allBut [.clock, .chip, .ints]) := by simp [allBut]
  exact ⟨same_clock h (by decide), same_chip h (by decide), same_ints h (by decide)⟩

theorem landCut_of_complete {s : State} (h : s.closers.entry = 2) : (landCut s).closers.landed = s.now - 1 ∧ (landCut s).now = s.now := by
  simp only [landCut, h, if_true]
  have hk : ∀ (l : List Nat) (u : State), (l.foldl (fun s q => joinReads (vaultLand (landRec s q) q) q) u).outside (allBut [.clock, .closers]) = u.outside (allBut [.clock, .closers]) := fun l u => outside_foldl (by simp [allBut])
  constructor
  · rw [same_closers (hk _ _) (by decide)]
  · rw [State.now, same_clock (hk _ _) (by decide)]

/-- Settles O20: the clock of a boundary is the one `openClose` sets, and no later row of the boundary moves it. -/
theorem boundariesLandCloses : Obligations.BoundariesLandCloses := by
  refine ⟨⟨fun s h => ⟨closeBoundary s, rfl, ?_, ?_, ?_⟩, fun s hp ht hl hh => ⟨closeBoundary s, rfl, ?_⟩⟩, fun s h => if_neg h, fun s h => landCut_of_complete h⟩
  · rw [State.now, closeBoundary_clock_of_runs h]
  · rw [closeBoundary_clock_of_runs h]
  · exact closeBoundary_stays _ rfl
  · obtain ⟨hc, hchip, hints⟩ := intakeRow_keeps { s with clock := { s.clock with cycle := 0 } }
    rw [closeBoundary_of_halted hp ht hl hh]
    simp [State.now, hc, hchip, hints]

end Sys2Proof.Machine
end

section
namespace Sys2Proof.Machine

/-! ## Power and fundamental reset (O16) -/

/-- What the straps and pins sampled at power-up hold. -/
def Chip.pins (c : Chip) : Bool × Bool × Bool × Bool × Bool × Nat :=
  (c.pwrgd, c.testMode, c.perst, c.bootSlot, c.chainHead, c.smbAddr)

theorem chooseCharter_chip (s : State) :
    (chooseCharter s).chip.pins = s.chip.pins ∧ ((chooseCharter s).chip.step = 4 ∨ (chooseCharter s).chip.step = 14) := by
  unfold chooseCharter
  dsimp only
  split
  · exact ⟨rfl, .inr rfl⟩
  · split
    · exact ⟨rfl, .inl rfl⟩
    · exact ⟨rfl, .inr rfl⟩

theorem testClosers_chip (s : State) (pass : List Bool) : (testClosers s pass).chip = s.chip :=
  same_chip (ps := allBut [.chip]) (by simp [allBut]) (by decide)

/-- The state in which step 3 begins: what is carried over, with the sampled straps. -/
def atStepThree (s : State) (chip : Chip) : State := { carried s with chip := { chip with step := 3 } }

theorem startUp_eq (s : State) (chip : Chip) (pass : List Bool) :
    startUp s chip pass = if chip.railsBad then atStepThree s chip else chooseCharter (testClosers (atStepThree s chip) pass) := rfl

theorem startUp_chip (s : State) (chip : Chip) (pass : List Bool) :
    (startUp s chip pass).chip.pins = chip.pins ∧ ((startUp s chip pass).chip.step = 3 ∨ (startUp s chip pass).chip.step = 4 ∨ (startUp s chip pass).chip.step = 14) := by
  rw [startUp_eq]
  split
  · exact ⟨rfl, .inl rfl⟩
  · obtain ⟨hpins, hstep⟩ := chooseCharter_chip (testClosers (atStepThree s chip) pass)
    exact ⟨hpins.trans (by rw [testClosers_chip]; rfl), .inr hstep⟩

/-- A start-up begins at close 0 (R6). -/
theorem startUp_now (s : State) (chip : Chip) (pass : List Bool) : (startUp s chip pass).now = 0 := by
  rw [startUp_eq]
  split
  · rfl
  · have h : (chooseCharter (testClosers (atStepThree s chip) pass)).clock = (atStepThree s chip).clock :=
      same_clock (ps := allBut [.clock]) (by simp [allBut]) (by decide)
    rw [State.now, h]
    rfl

theorem execPwrgdRise_tested {p : PowerOn} {s : State} (h : s.chip.pwrgd = false) (ht : p.testEn = false) :
    ∃ chip : Chip, chip.pins = (true, false, false, p.bootSlot, p.chainHead, 0x58 + p.smbAddr % 4) ∧
      exec (.pwrgdRise p) s = .next (startUp s chip p.closersPass) := by
  refine ⟨_, ?_, by simp only [exec, execPwrgdRise, h, ht]; rfl⟩
  rfl

theorem execPerstDeassert_held {pass : List Bool} {s : State} (h : s.chip.pwrgd = true) (ht : s.chip.testMode = false) (hp : s.chip.perst = true) :
    ∃ chip : Chip, chip.pins = (true, false, false, s.chip.bootSlot, s.chip.chainHead, s.chip.smbAddr) ∧
      exec (.perstDeassert pass) s = .next (startUp s chip pass) := by
  refine ⟨_, ?_, by simp only [exec, execPerstDeassert, h, ht, hp]; rfl⟩
  rfl

theorem wk_setAllWickets (s : State) (f : Wicket → Wicket) {w : Nat} (h : w < wicketCount s) : wk (setAllWickets s f) w = f (wk s w) := by
  have hw : w ∈ List.range (wicketCount s) := List.mem_range.mpr h
  exact (tget_foldl_tmod {} f _ List.nodup_range _ _).trans (if_pos hw)

/-- What a loss of power leaves to be carried over: the flash operation and the fuse advance are cut off, and a book entry may complete. -/
def cutOff (holdUp : Bool) (s : State) : State :=
  let u := flashCut (fuseCut s)
  if holdUp && u.closers.entry = 1 then { u with closers := { u.closers with entry := 2 } } else u

theorem exec_pwrgdFall {holdUp : Bool} {s : State} (h : s.chip.pwrgd = true) : exec (.pwrgdFall holdUp) s = .next (carried (cutOff holdUp s)) := by
  simp only [exec, execPwrgdFall, h]
  rfl

theorem cutOff_outside (holdUp : Bool) (s : State) :
    (cutOff holdUp s).outside [.flash, .fuses, .free, .closers] = s.outside [.flash, .fuses, .free, .closers] := by
  simp [cutOff]

theorem cutOff_flash (holdUp : Bool) (s : State) : (cutOff holdUp s).flash = (flashCut (fuseCut s)).flash :=
  same_flash (ps := [.closers]) (by simp [cutOff]) (by decide)

theorem fuseCut_flash (s : State) : (fuseCut s).flash = s.flash := same_flash (ps := [.fuses, .free]) (by simp) (by decide)

theorem cutOff_cells {holdUp : Bool} {s : State} (h : s.flash.writing = none) : (cutOff holdUp s).flash.cells = s.flash.cells := by
  simp [cutOff_flash, flashCut, fuseCut_flash, h]

theorem cutOff_torn {holdUp : Bool} {s : State} {r : Nat × Nat} (h : s.flash.writing = some r) : r ∈ (cutOff holdUp s).flash.torn := by
  simp [cutOff_flash, flashCut, fuseCut_flash, h]

theorem startUp_pins {s : State} {chip : Chip} {pass : List Bool} {pw tm pe bs ch : Bool} {a : Nat} (h : chip.pins = (pw, tm, pe, bs, ch, a)) :
    let t := startUp s chip pass
    t.chip.pwrgd = pw ∧ t.chip.testMode = tm ∧ t.chip.perst = pe ∧ t.chip.bootSlot = bs ∧ t.chip.chainHead = ch ∧ t.chip.smbAddr = a := by
  simpa [Chip.pins] using (startUp_chip s chip pass).1.trans h

theorem runs_pwrgdFall (holdUp : Bool) {s : State} (h : s.chip.pwrgd = true) :
    Runs (.pwrgdFall holdUp) s (fun t => t.chip = State.reset.chip ∧ t.clock = State.reset.clock ∧ (s.flash.writing = none → t.flash.cells = s.flash.cells) ∧
      (∀ r, s.flash.writing = some r → r ∈ t.flash.torn) ∧ t.ledger.recs = s.ledger.recs ∧
      t.daybook.ring = s.daybook.ring ∧ t.reserves.history = s.reserves.history ∧ t.pair.witness = s.pair.witness ∧ t.cmds = []) := by
  have hk := cutOff_outside holdUp s
  refine ⟨_, exec_pwrgdFall h, rfl, rfl, cutOff_cells, fun r hr => cutOff_torn hr, ?_, ?_, ?_, ?_, rfl⟩
  · show (cutOff holdUp s).ledger.recs = s.ledger.recs
    rw [same_ledger hk (by decide)]
  · show (cutOff holdUp s).daybook.ring = s.daybook.ring
    rw [same_daybook hk (by decide)]
  · show (cutOff holdUp s).reserves.history = s.reserves.history
    rw [same_reserves hk (by decide)]
  · show (cutOff holdUp s).pair.witness = s.pair.witness
    rw [same_pair hk (by decide)]

/-- PERST# is taken: intake stops at once (R244). -/
def intakeStopped (s : State) : State :=
  setAllWickets { s with
    chip := { s.chip with perst := true, perstHalt := true }
    link := { s.link with up := false, training := false }
    cfg := { s.cfg with busMaster := false, memSpace := false }
    resets := { s.resets with kind := 0, account := [], hasAccount := false } } (fun w => { w with state := 0, waitingCommits := [], arrived := [] })

theorem exec_perstAssert {ns : Nat} {s : State} (hn : 1000 ≤ ns) (h : s.chip.pwrgd = true) (ht : s.chip.testMode = false) (hp : s.chip.perst = false) :
    exec (.perstAssert ns) s = .next (intakeStopped s) := by
  simp only [exec, execPerstAssert]
  rw [if_neg (by simp [h, ht, hp, hn])]
  rfl

theorem wk_intakeStopped {s : State} {w : Nat} (h : w < wicketCount s) :
    wk (intakeStopped s) w = { wk s w with state := 0, waitingCommits := [], arrived := [] } :=
  wk_setAllWickets _ _ h

/-- Settles O16, pin by pin: a start-up is `startUp` on the sampled pins, a loss of power carries over what `cutOff` leaves, and PERST# stops intake. -/
theorem powerAndFundamentalReset : Obligations.PowerAndFundamentalReset := by
  refine ⟨⟨fun p s h ht => ?_, fun p s h ht => ?_, fun pass s h ht hp => ?_⟩, fun holdUp s h => runs_pwrgdFall holdUp h,
    fun ns s hn h ht hp => ⟨_, exec_perstAssert hn h ht hp, rfl, rfl, rfl, rfl, fun w hw => by simp [wk_intakeStopped hw]⟩, fun ns s hn => ?_⟩
  · obtain ⟨chip, hpins, hexec⟩ := execPwrgdRise_tested h ht
    obtain ⟨h1, h2, -, h4, h5, h6⟩ := startUp_pins (s := s) (pass := p.closersPass) hpins
    exact ⟨_, hexec, h1, h2, h4, h5, h6, startUp_now _ _ _, (startUp_chip _ _ _).2⟩
  · exact ⟨_, by simp only [exec, execPwrgdRise, h, ht]; rfl, rfl, rfl, rfl, rfl⟩
  · obtain ⟨chip, hpins, hexec⟩ := execPerstDeassert_held (pass := pass) h ht hp
    obtain ⟨-, -, h3, h4, -, h6⟩ := startUp_pins (s := s) (pass := pass) hpins
    exact ⟨_, hexec, h3, h4, h6, startUp_now _ _ _, (startUp_chip _ _ _).2⟩
  · simp [exec, execPerstAssert, hn]

end Sys2Proof.Machine
end

section
namespace Sys2Proof.Machine

/-! ## The hold, notices and interrupts (O24) -/

/-! ### Tables whose entries are all changed, or all meet a condition -/

theorem tget_map {α : Type} (d : α) (f : α → α) (hf : f d = d) (t : Tbl α) (n : Nat) :
    tget d (t.map (fun e => (e.1, f e.2))) n = f (tget d t n) := by
  induction t with
  | nil => exact hf.symm
  | cons e r ih => by_cases h : e.1 = n <;> simp [tget, h, ih]

theorem tget_of_forall {α : Type} {d : α} {p : α → Prop} (hd : p d) {t : Tbl α} (h : ∀ e ∈ t, p e.2) (n : Nat) : p (tget d t n) := by
  induction t with
  | nil => exact hd
  | cons e r ih =>
    unfold tget
    split
    · exact h e (List.mem_cons_self ..)
    · exact ih (fun x hx => h x (List.mem_cons_of_mem _ hx))

/-! ### Messages and the evaluation of the sources (R239–R241) -/

/-- The interrupt block apart from what messages move: the pending bits, the kept messages, and the count of messages sent. -/
def Interrupts.still (i : Interrupts) : Interrupts := { i with pba := [], msiPending := [], kept := [], sent := 0, lastSent := 0 }

theorem emitMessage_ints (s : State) (v : Nat) : (emitMessage s v).ints = { s.ints with sent := s.ints.sent + 1, lastSent := v } := by
  simp only [emitMessage]
  split <;> rfl

theorem sendMessage_still (s : State) (v : Nat) : (sendMessage s v).ints.still = s.ints.still := by
  unfold sendMessage
  split
  · split <;> rfl
  · split
    · rw [emitMessage_ints]; rfl
    · rfl

theorem sendMessages_still (l : List Nat) (s : State) : (l.foldl sendMessage s).ints.still = s.ints.still := by
  induction l generalizing s with
  | nil => rfl
  | cons v l ih => rw [List.foldl_cons, ih, sendMessage_still]

theorem sendMessage_pba_of_clear {s : State} {v : Nat} (w : Nat) (hm : vecMasked s v = false) (hv : v ∉ s.ints.pba) : v ∉ (sendMessage s w).ints.pba := by
  unfold sendMessage
  split
  case isTrue hw =>
    have hne : v ≠ w := by rintro rfl; simp [hm] at hw
    split
    · simp [List.mem_eraseDups, hv, hne]
    · exact hv
  case isFalse =>
    split
    · rw [emitMessage_ints]; exact hv
    · exact hv

theorem sendMessage_keeps_sendable (s : State) (w v : Nat) : vecMasked (sendMessage s w) v = vecMasked s v ∧ canSend (sendMessage s w) = canSend s := by
  have hk : (sendMessage s w).outside [.ints, .link, .hostMem] = s.outside [.ints, .link, .hostMem] := by simp
  have ht := congrArg Interrupts.table (sendMessage_still s w)
  change (sendMessage s w).ints.table = s.ints.table at ht
  simp only [vecMasked, canSend, same_cfg hk (by decide), same_returns hk (by decide), ht, and_self]

theorem le_sendMessage_sent (s : State) (w : Nat) : s.ints.sent ≤ (sendMessage s w).ints.sent := by
  unfold sendMessage
  split
  · split <;> exact Nat.le_refl _
  · split
    · rw [emitMessage_ints]; exact Nat.le_succ _
    · exact Nat.le_refl _

theorem le_sendMessages_sent (l : List Nat) (s : State) : s.ints.sent ≤ (l.foldl sendMessage s).ints.sent := by
  induction l generalizing s with
  | nil => exact Nat.le_refl _
  | cons w l ih => exact (le_sendMessage_sent s w).trans (ih _)

theorem sendMessages_pba_of_clear {v : Nat} (l : List Nat) {s : State} (hm : vecMasked s v = false) (hv : v ∉ s.ints.pba) : v ∉ (l.foldl sendMessage s).ints.pba := by
  induction l generalizing s with
  | nil => exact hv
  | cons w l ih => exact ih ((sendMessage_keeps_sendable s w v).1.trans hm) (sendMessage_pba_of_clear w hm hv)

/-- Of several messages one that may leave is counted. -/
theorem sendMessages_sent_of_mem {v : Nat} {l : List Nat} {s : State} (hl : v ∈ l) (hm : vecMasked s v = false) (hs : canSend s = true) :
    s.ints.sent < (l.foldl sendMessage s).ints.sent := by
  induction l generalizing s with
  | nil => cases hl
  | cons w l ih =>
    by_cases h : w = v
    · subst h
      refine lt_of_lt_of_le ?_ (le_sendMessages_sent l _)
      simp [sendMessage, hm, hs, emitMessage_ints]
    · obtain ⟨hm', hs'⟩ := sendMessage_keeps_sendable s w v
      have hl' : v ∈ l := (List.mem_cons.mp hl).resolve_left (Ne.symm h)
      exact (le_sendMessage_sent s w).trans_lt (ih hl' (hm'.trans hm) (hs'.trans hs))

/-- The state with the mode of the enables in force: a change of mode discards what the old mode kept (R239). -/
def modeInForce (s : State) : State :=
  if intModeOf s.cfg = s.ints.mode then s else
    { s with ints := { s.ints with mode := intModeOf s.cfg, active := [], pba := [], msiPending := [], kept := [], inta := false } }

/-- The active vectors that were not active at the last evaluation. -/
def freshVectors (s : State) : List Nat := (activeVectors s).filter (fun v => !s.ints.active.contains v)

/-- The pending bits of a mode. -/
def pendingVectors (s : State) : List Nat := if intModeOf s.cfg = 3 then s.ints.pba else s.ints.msiPending

/-- The pending bits of vectors still active and masked. -/
def heldVectors (s : State) : List Nat := (pendingVectors s).filter (fun v => (activeVectors s).contains v && vecMasked s v)

/-- The vectors whose messages an evaluation sends: those unmasked while pending and active, then the fresh ones. -/
def dueVectors (s : State) : List Nat :=
  (pendingVectors s).filter (fun v => (activeVectors s).contains v && !(freshVectors s).contains v && !vecMasked s v) ++ freshVectors s

/-- The interrupt block as evaluated, before the messages that are due (R241). -/
def evaluated (s : State) : State :=
  { s with ints := { s.ints with
    active := activeVectors s
    pba := if intModeOf s.cfg = 3 then heldVectors s else []
    msiPending := if intModeOf s.cfg = 2 then heldVectors s else []
    inta := intModeOf s.cfg = 1 && !(activeSources s.ints).isEmpty } }

theorem intModeOf_modeInForce (s : State) : intModeOf (modeInForce s).cfg = intModeOf s.cfg := by
  unfold modeInForce
  split <;> rfl

theorem updateIrq_eq (s : State) :
    updateIrq s = if s.chip.step = 14 && !s.chip.recoveryAt3 then s else
      if intModeOf s.cfg = 2 || intModeOf s.cfg = 3 then (dueVectors (modeInForce s)).foldl sendMessage (evaluated (modeInForce s)) else evaluated (modeInForce s) := by
  simp only [evaluated, dueVectors, heldVectors, freshVectors, pendingVectors, intModeOf_modeInForce]
  rfl

/-- Outside the Recovery that sends no message, an evaluation ends as `evaluated`, but for what the messages move. -/
theorem updateIrq_still {s : State} (h : s.chip.step ≠ 14) : (updateIrq s).ints.still = (evaluated (modeInForce s)).ints.still := by
  rw [updateIrq_eq, if_neg (by simp [h])]
  split
  · exact sendMessages_still _ _
  · rfl

/-- The source bits, and what the host sets for messages. -/
def Interrupts.sources (i : Interrupts) : BitVec 64 × BitVec 64 × BitVec 10 × BitVec 10 × Nat × Tbl MsixEntry :=
  (i.ringPending, i.ringMask, i.cause, i.causeMask, i.testSource, i.table)

theorem modeInForce_sources (s : State) : (modeInForce s).ints.sources = s.ints.sources := by
  unfold modeInForce
  split <;> rfl

theorem sources_of_still {i j : Interrupts} (h : i.still = j.still) : i.sources = j.sources := by
  have hs := congrArg Interrupts.sources h
  exact hs

/-- An evaluation changes no source bit, no mask and no vector of the table. -/
theorem updateIrq_sources (s : State) : (updateIrq s).ints.sources = s.ints.sources := by
  rw [updateIrq_eq]
  split
  · rfl
  · rw [← modeInForce_sources s]
    split
    · exact (sources_of_still (sendMessages_still _ _)).trans rfl
    · rfl

theorem updateIrq_sourceBits (s : State) :
    (updateIrq s).ints.ringPending = s.ints.ringPending ∧ (updateIrq s).ints.cause = s.ints.cause ∧
      (updateIrq s).ints.testSource = s.ints.testSource ∧ (updateIrq s).ints.table = s.ints.table := by
  have h := updateIrq_sources s
  simp only [Interrupts.sources, Prod.mk.injEq] at h
  obtain ⟨hr, -, hc, -, ht, htab⟩ := h
  exact ⟨hr, hc, ht, htab⟩

theorem activeSources_modeInForce (s : State) : activeSources (modeInForce s).ints = activeSources s.ints := by
  unfold modeInForce
  split <;> rfl

theorem modeInForce_mode (s : State) : (modeInForce s).ints.mode = intModeOf s.cfg := by
  unfold modeInForce
  split
  · exact Eq.symm ‹_›
  · rfl

/-- The mode of the enables comes into force, and INTA follows the active sources in INTx mode (R239). -/
theorem updateIrq_mode_inta {s : State} (h : s.chip.step ≠ 14) :
    (updateIrq s).ints.mode = intModeOf s.cfg ∧ (updateIrq s).ints.inta = (intModeOf s.cfg = 1 && !(activeSources s.ints).isEmpty) := by
  have hs := updateIrq_still h
  constructor
  · exact (congrArg Interrupts.mode hs).trans (modeInForce_mode s)
  · refine (congrArg Interrupts.inta hs).trans ?_
    show (intModeOf (modeInForce s).cfg = 1 && !(activeSources (modeInForce s).ints).isEmpty) = _
    rw [intModeOf_modeInForce, activeSources_modeInForce]

/-- In MSI-X mode a vector that is unmasked while it is pending and active has its message sent, and its pending bit clears (R241). -/
theorem updateIrq_opens {s : State} {v : Nat} (h : s.chip.step ≠ 14) (hmode : intModeOf s.cfg = 3) (hin : s.ints.mode = 3) (hm : vecMasked s v = false) (hs : canSend s = true)
    (hact : v ∈ activeVectors s) (hwas : v ∈ s.ints.active) (hpba : v ∈ s.ints.pba) : v ∉ (updateIrq s).ints.pba ∧ s.ints.sent < (updateIrq s).ints.sent := by
  have hforce : modeInForce s = s := if_pos (hmode.trans hin.symm)
  rw [updateIrq_eq, if_neg (by simp [h]), if_pos (by simp [hmode]), hforce]
  have hdue : v ∈ dueVectors s := by simp [dueVectors, pendingVectors, freshVectors, hmode, hm, hact, hwas, hpba]
  have hclear : v ∉ (evaluated s).ints.pba := by simp [evaluated, hmode, heldVectors, hm]
  exact ⟨sendMessages_pba_of_clear _ (s := evaluated s) hm hclear, sendMessages_sent_of_mem (s := evaluated s) hdue hm hs⟩

/-! ### The ring and management causes -/

theorem updateIrq_returns (s : State) : (updateIrq s).returns = s.returns := same_returns (ps := [.ints, .link, .hostMem]) (by simp) (by decide)

theorem updateIrq_cfg (s : State) : (updateIrq s).cfg = s.cfg := same_cfg (ps := [.ints, .link, .hostMem]) (by simp) (by decide)

@[simp] theorem rg_modRg_same (s : State) (n : Nat) (f : Ring → Ring) : rg (modRg s n f) n = f (rg s n) := by
  simp [rg, modRg]

/-! ### The hold (R248–R250) -/

/-- The entries that a hold takes in: those queued, in ring order. -/
def queuedEntries (s : State) : List (Nat × Entry) := s.returns.rings.flatMap (fun e => e.2.queue.map (fun q => (e.1, q)))

theorem queuedEntries_dropFetches (s : State) : queuedEntries (dropFetches s) = queuedEntries s := by
  simp [queuedEntries, dropFetches, List.flatMap_map]

theorem holdPostings_of_free {s : State} (h : s.returns.holding = false) :
    (holdPostings s).returns.holding = true ∧ (holdPostings s).returns.hold = (queuedEntries s).take 4096 ∧ (holdPostings s).returns.overflow = (queuedEntries s).drop 4096 ∧
      (∀ n, rg (holdPostings s) n = { rg s n with queue := [], waiting := false }) := by
  unfold holdPostings
  rw [if_neg (by simp [h])]
  exact ⟨rfl, rfl, rfl, fun n => tget_map ({} : Ring) (fun r => { r with queue := [], waiting := false }) rfl s.returns.rings n⟩

theorem rg_dropFetches (s : State) (n : Nat) : rg (dropFetches s) n = { rg s n with fetching := false } :=
  tget_map ({} : Ring) (fun r => { r with fetching := false }) rfl s.returns.rings n

theorem runs_busMasterClear {s : State} (hb : s.cfg.busMaster = true) (hh : s.returns.holding = false) :
    Runs .busMasterClear s (fun t => t.cfg = { s.cfg with busMaster := false } ∧ t.returns.holding = true ∧ t.returns.hold.length ≤ 4096 ∧
      t.returns.hold ++ t.returns.overflow = s.returns.rings.flatMap (fun e => e.2.queue.map (fun q => (e.1, q))) ∧ (∀ n, (rg t n).queue = [] ∧ (rg t n).fetching = false) ∧
      OnlyIn [.cfg, .returns] s t) := by
  have ht : exec .busMasterClear s = .next (holdPostings (dropFetches { s with cfg := { s.cfg with busMaster := false } })) := by
    simp only [exec, execBusMasterClear, masterClear, hb, if_true]
  obtain ⟨hhold, htake, hdrop, hrings⟩ := holdPostings_of_free (s := dropFetches { s with cfg := { s.cfg with busMaster := false } }) hh
  rw [queuedEntries_dropFetches] at htake hdrop
  refine ⟨_, ht, ?_, hhold, ?_, ?_, fun n => ?_, by simp [OnlyIn]⟩
  · exact same_cfg (ps := [.returns]) (by simp) (by decide) (s := { s with cfg := { s.cfg with busMaster := false } })
  · rw [htake]
    exact List.length_take_le _ _
  · rw [htake, hdrop, List.take_append_drop]
    rfl
  · rw [hrings, rg_dropFetches]
    exact ⟨rfl, rfl⟩

theorem queue_of_all_empty {s : State} (h : s.returns.rings.all (fun e => e.2.queue.isEmpty) = true) (n : Nat) : (rg s n).queue = [] :=
  tget_of_forall (p := fun r : Ring => r.queue = []) rfl (fun e he => by simpa using List.all_eq_true.mp h e he) n

/-- The credit lines and the kept messages go out (R250). -/
def lettersOut (s : State) : State :=
  let u := (List.range (wicketCount s)).foldl writeCredit s
  u.ints.kept.foldl sendMessage { u with ints := { u.ints with kept := [] } }

theorem lettersOut_outside (s : State) : (lettersOut s).outside [.wickets, .ints, .link, .hostMem] = s.outside [.wickets, .ints, .link, .hostMem] := by
  unfold lettersOut
  dsimp only
  rw [outside_foldl (by simp)]
  simp

theorem drainEnd'_eq (s : State) : drainEnd' s =
    if s.returns.draining && !s.returns.holding && s.returns.rings.all (fun e => e.2.queue.isEmpty) then lettersOut { s with returns := { s.returns with draining := false } }
    else s := rfl

/-- The end of a drain changes of the rings and the hold only that it is over, and then no entry waits (R250). -/
theorem drainEnd'_returns (s : State) :
    (drainEnd' s).returns = s.returns ∨ (drainEnd' s).returns = { s.returns with draining := false } ∧ ∀ n, (rg s n).queue = [] := by
  rw [drainEnd'_eq]
  split
  case isFalse => exact .inl rfl
  case isTrue h =>
    simp only [Bool.and_eq_true] at h
    exact .inr ⟨same_returns (lettersOut_outside _) (by decide), queue_of_all_empty h.2⟩

/-- What was held falls due again for its rings, and paused channels go on (R250). -/
def holdReleased (s : State) : State :=
  resumeChannels ((s.returns.hold ++ s.returns.overflow).foldl (fun s e => enqueue s e.1 e.2)
    { s with returns := { s.returns with holding := false, draining := true, hold := [], overflow := [] } })

theorem drainHold_eq (s : State) : drainHold s = drainEnd' (holdReleased s) := rfl

/-- With bus mastering on and no hold in force an entry goes to its ring, and the hold stays as it is. -/
theorem enqueue_open {s : State} (n : Nat) (e : Entry) (hb : s.cfg.busMaster = true) (hh : s.returns.holding = false) :
    enqueue s n e = if (rg s n).enable then modRg s n (fun r => { r with queue := r.queue ++ [e] }) else s := by
  unfold enqueue
  cases h : (rg s n).enable <;> simp [hb, hh]

theorem enqueueAll_open (q : List (Nat × Entry)) {s : State} (hb : s.cfg.busMaster = true) (hh : s.returns.holding = false) :
    let t := q.foldl (fun s e => enqueue s e.1 e.2) s
    t.returns.holding = false ∧ t.returns.draining = s.returns.draining ∧ t.returns.hold = s.returns.hold ∧ t.returns.overflow = s.returns.overflow := by
  induction q generalizing s with
  | nil => exact ⟨hh, rfl, rfl, rfl⟩
  | cons e q ih =>
    have hk : (enqueue s e.1 e.2).cfg.busMaster = true ∧ (enqueue s e.1 e.2).returns.holding = false ∧ (enqueue s e.1 e.2).returns.draining = s.returns.draining ∧
        (enqueue s e.1 e.2).returns.hold = s.returns.hold ∧ (enqueue s e.1 e.2).returns.overflow = s.returns.overflow := by
      rw [enqueue_open e.1 e.2 hb hh]
      split <;> exact ⟨hb, hh, rfl, rfl, rfl⟩
    obtain ⟨hb', hh', hd, hl, ho⟩ := hk
    simpa only [List.foldl_cons, hd, hl, ho] using ih hb' hh'

theorem holdReleased_returns {s : State} (hb : s.cfg.busMaster = true) :
    (holdReleased s).returns.holding = false ∧ (holdReleased s).returns.draining = true ∧ (holdReleased s).returns.hold = [] ∧ (holdReleased s).returns.overflow = [] :=
  enqueueAll_open (s.returns.hold ++ s.returns.overflow) (s := { s with returns := { s.returns with holding := false, draining := true, hold := [], overflow := [] } }) hb rfl

theorem runs_busMasterSet {s : State} (hb : s.cfg.busMaster = false) (hp : s.cfg.powerState = 0) :
    Runs .busMasterSet s (fun t => t.cfg = { s.cfg with busMaster := true } ∧ t.returns.holding = false ∧ t.returns.hold = [] ∧ t.returns.overflow = [] ∧
      (t.returns.draining = false → ∀ n, (rg t n).queue = []) ∧ t.cmds = s.cmds) := by
  have ht : exec .busMasterSet s = .next (drainEnd' (holdReleased { s with cfg := { s.cfg with busMaster := true } })) := by
    simp only [exec, execBusMasterSet, masterSet, hb, hp, drainHold_eq]
    rfl
  obtain ⟨hh, hd, hl, ho⟩ := holdReleased_returns (s := { s with cfg := { s.cfg with busMaster := true } }) rfl
  have hk : ∀ u : State, (drainEnd' (holdReleased u)).outside [.wickets, .returns, .ints, .link, .courier, .hostMem] = u.outside [.wickets, .returns, .ints, .link, .courier, .hostMem] := by
    intro u
    simp [holdReleased]
  refine ⟨_, ht, same_cfg (hk _) (by decide), ?_⟩
  rw [same_cmds (hk _) (by decide)]
  rcases drainEnd'_returns (holdReleased { s with cfg := { s.cfg with busMaster := true } }) with hr | ⟨hr, hq⟩
  · rw [hr]
    exact ⟨hh, hl, ho, fun h => absurd (hd.symm.trans h) (by decide), rfl⟩
  · rw [hr]
    refine ⟨hh, hl, ho, fun _ n => ?_, rfl⟩
    rw [rg, hr]
    exact hq n

/-! ### PARKED_NOTICE (R365) -/

theorem findCmd_modCmd (s : State) (tag : Nat) (f : Cmd → Cmd) (hf : ∀ c, (f c).hdr = c.hdr) :
    findCmd (modCmd s tag f) tag = (findCmd s tag).map f :=
  find?_modIf _ f (fun c => by simp only [hf]) s.cmds

/-- The notice of a parked command. -/
def noticeEntry (s : State) (c : Cmd) (tag : Nat) : Entry where
  kind := 3
  flags := 2 * b1 c.prior
  tag := tag
  wicket := c.wicket
  opcode := c.hdr.opcode
  cseq := c.cseq
  spec := natLe 1 (parkedGroup s c) ++ zeros 7 ++ natLe 8 c.parkedAt

theorem exec_parkedNotice {tag : Nat} {c : Cmd} {s : State} (hc : findCmd s tag = some c) (hp : c.phase = .parked) (hn : c.noticeSent = false) :
    exec (.parkedNotice tag) s = .next (modCmd (enqueue s c.ring (noticeEntry s c tag)) tag (fun c => { c with noticeSent := true })) := by
  have hin : cmdIn s tag (fun c => c.phase = .parked && !c.noticeSent) = some c := by simp [cmdIn, hc, hp, hn]
  simp only [exec, execParkedNotice, hin]
  rfl

theorem exec_parkedNotice_sent {tag : Nat} {c : Cmd} {s : State} (hc : findCmd s tag = some c) (hn : c.noticeSent = true) :
    exec (.parkedNotice tag) s = .next s := by
  have hin : cmdIn s tag (fun c => c.phase = .parked && !c.noticeSent) = none := by simp [cmdIn, hc, hn]
  simp only [exec, execParkedNotice, hin]

theorem runs_parkedNotice {tag : Nat} {c : Cmd} {s : State} (hc : findCmd s tag = some c) (hp : c.phase = .parked) (hn : c.noticeSent = false)
    (hring : (rg s c.ring).enable = true) (hh : s.returns.holding = false) (hb : s.cfg.busMaster = true) :
    Runs (.parkedNotice tag) s (fun t => findCmd t tag = some { c with noticeSent := true } ∧
      (∃ e, (rg t c.ring).queue = (rg s c.ring).queue ++ [e] ∧ e.kind = 3 ∧ e.tag = tag ∧ e.opcode = c.hdr.opcode ∧ e.cseq = c.cseq ∧ e.final = none) ∧ OnlyIn [.cmds, .returns] s t) := by
  refine ⟨_, exec_parkedNotice hc hp hn, ?_, ⟨noticeEntry s c tag, ?_, rfl, rfl, rfl, rfl, rfl⟩, by simp [OnlyIn]⟩
  · have hk : (enqueue s c.ring (noticeEntry s c tag)).cmds = s.cmds := same_cmds (ps := [.returns]) (by simp) (by decide)
    rw [findCmd_modCmd, findCmd, hk, ← findCmd, hc]
    · rfl
    · exact fun _ => rfl
  · rw [enqueue_open c.ring _ hb hh, if_pos hring]
    exact congrArg Ring.queue (rg_modRg_same s c.ring _)

/-! ### Sources of interrupts (R239, R241, R278) -/

theorem ringCause_sourceBits (s : State) (n : Nat) :
    (ringCause s n).ints.ringPending = s.ints.ringPending ||| BitVec.ofNat 64 (2 ^ n) ∧ (ringCause s n).ints.cause = s.ints.cause ∧ (ringCause s n).ints.testSource = s.ints.testSource := by
  obtain ⟨hr, hc, ht, -⟩ := updateIrq_sourceBits { s with ints := { s.ints with ringPending := s.ints.ringPending ||| BitVec.ofNat 64 (2 ^ n) } }
  exact ⟨hr, hc, ht⟩

theorem runs_irqDelayExpiry {n : Nat} {s : State} (hd : (rg s n).irqDelay ≠ 0) (hu : 0 < (rg s n).unraised) (ho : (rg s n).oldest + (rg s n).irqDelay ≤ s.now) :
    Runs (.irqDelayExpiry n) s (fun t => t.ints.ringPending = s.ints.ringPending ||| BitVec.ofNat 64 (2 ^ n) ∧ t.ints.cause = s.ints.cause ∧ (rg t n).unraised = 0) := by
  refine ⟨raiseRing s n, ?_, ?_⟩
  · simp [exec, execIrqDelayExpiry, irqDelay, hd, hu, ho]
  · obtain ⟨hr, hc, -⟩ := ringCause_sourceBits (modRg s n (fun r => { r with unraised := 0 })) n
    refine ⟨hr, hc, ?_⟩
    rw [rg, raiseRing, ringCause, updateIrq_returns]
    exact congrArg Ring.unraised (rg_modRg_same s n _)

theorem runs_intPendingClear (rings : BitVec 64) (mgmt : BitVec 10) {s : State} (h : writesTaken s = true) :
    Runs (.intPendingClear rings mgmt) s (fun t => t.ints.ringPending = s.ints.ringPending &&& ~~~rings ∧ t.ints.cause = s.ints.cause &&& ~~~mgmt) := by
  refine ⟨clearSources s rings mgmt, by simp [exec, execIntPendingClear, h], ?_⟩
  obtain ⟨hr, hc, -, -⟩ := updateIrq_sourceBits { s with ints := { s.ints with ringPending := s.ints.ringPending &&& ~~~rings, cause := s.ints.cause &&& ~~~mgmt } }
  exact ⟨hr, hc⟩

theorem mgmtCause_sourceBits (s : State) (n : Nat) :
    (mgmtCause s n).ints.ringPending = s.ints.ringPending ∧ (mgmtCause s n).ints.cause = s.ints.cause ||| BitVec.ofNat 10 (2 ^ n) ∧ (mgmtCause s n).ints.testSource = s.ints.testSource := by
  obtain ⟨hr, hc, ht, -⟩ := updateIrq_sourceBits { s with ints := { s.ints with cause := s.ints.cause ||| BitVec.ofNat 10 (2 ^ n) } }
  exact ⟨hr, hc, ht⟩

theorem exec_intTestFire {n : Nat} {s : State} (h : writesTaken s = true) (hn : n ≤ 64) :
    exec (.intTestFire n) s = .next (testFire { s with ints := { s.ints with testSource := n } } n) := by
  simp [exec, execIntTestFire, intTest, h, hn]

theorem runs_intTestFire_ring {n : Nat} {s : State} (h : writesTaken s = true) (hn : n < 64) :
    Runs (.intTestFire n) s (fun t => t.ints.ringPending = s.ints.ringPending ||| BitVec.ofNat 64 (2 ^ n) ∧ t.ints.cause = s.ints.cause ∧ t.ints.testSource = n) := by
  refine ⟨_, exec_intTestFire h hn.le, ?_⟩
  rw [testFire, if_pos hn]
  exact ringCause_sourceBits _ n

theorem runs_intTestFire_mgmt {s : State} (h : writesTaken s = true) :
    Runs (.intTestFire 64) s (fun t => t.ints.ringPending = s.ints.ringPending ∧ t.ints.cause = s.ints.cause ||| BitVec.ofNat 10 (2 ^ 9) ∧ t.ints.testSource = 64) :=
  ⟨_, exec_intTestFire h (Nat.le_refl 64), mgmtCause_sourceBits _ 9⟩

/-! ### The mode and the masks of vectors (R239–R241) -/

/-- The state with the enables of the interrupt modes as the host writes them (R239). -/
def enablesWritten (s : State) (msix msi off : Bool) (mme : Nat) : State :=
  { s with cfg := { s.cfg with msixEnable := msix, msiEnable := msi, intxDisable := off, mme := min 5 mme } }

theorem runs_interruptModeChange (msix msi off : Bool) (mme : Nat) {s : State} (h : s.chip.step ≠ 14) :
    Runs (.interruptModeChange msix msi off mme) s (fun t => t.ints.mode = (if msix then 3 else if msi then 2 else if off then 0 else 1) ∧
      t.ints.inta = (!msix && !msi && !off && !(activeSources s.ints).isEmpty) ∧ t.ints.ringPending = s.ints.ringPending ∧ t.ints.cause = s.ints.cause) := by
  obtain ⟨hmode, hinta⟩ := updateIrq_mode_inta (s := enablesWritten s msix msi off mme) h
  obtain ⟨hr, hc, -, -⟩ := updateIrq_sourceBits (enablesWritten s msix msi off mme)
  refine ⟨updateIrq (enablesWritten s msix msi off mme), rfl, hmode, hinta.trans ?_, hr, hc⟩
  cases msix <;> cases msi <;> cases off <;> rfl

/-- The state with a vector of the table unmasked. -/
def unmasked (s : State) (v : Nat) : State := { s with ints := { s.ints with table := tmod {} s.ints.table v (fun e => { e with mask := false }) } }

theorem exec_vectorUnmask_msix {v : Nat} {s : State} (hv : v < 65) (h : s.cfg.msixEnable = true) : exec (.vectorUnmask v) s = .next (updateIrq (unmasked s v)) := by
  simp [exec, execVectorUnmask, intModeOf, h, hv, unmasked]

theorem runs_vectorUnmask_table {v : Nat} {s : State} (hv : v < 65) (h : s.cfg.msixEnable = true) :
    Runs (.vectorUnmask v) s (fun t => (tget {} t.ints.table v).mask = false ∧ (tget {} t.ints.table v).addr = (tget {} s.ints.table v).addr ∧
      (∀ u, u ≠ v → tget {} t.ints.table u = tget {} s.ints.table u) ∧ t.cfg = s.cfg) := by
  refine ⟨_, exec_vectorUnmask_msix hv h, ?_⟩
  obtain ⟨-, -, -, htab⟩ := updateIrq_sourceBits (unmasked s v)
  rw [htab, updateIrq_cfg]
  refine ⟨?_, ?_, fun u hu => tget_tmod_other ({} : MsixEntry) s.ints.table (fun e => { e with mask := false }) hu.symm, rfl⟩ <;> simp [unmasked]

theorem runs_vectorUnmask_opens {v : Nat} {s : State} (hv : v < 65) (h : s.cfg.msixEnable = true) (hstep : s.chip.step ≠ 14) (hmode : s.ints.mode = 3) (hmask : s.cfg.functionMask = false)
    (hs : canSend s = true) (hact : v ∈ activeVectors s) (hwas : v ∈ s.ints.active) (hpba : v ∈ s.ints.pba) :
    Runs (.vectorUnmask v) s (fun t => v ∉ t.ints.pba ∧ s.ints.sent < t.ints.sent) := by
  have hin : intModeOf s.cfg = 3 := if_pos h
  have hm : vecMasked (unmasked s v) v = false := by simp [vecMasked, hin, unmasked, hmask]
  exact ⟨_, exec_vectorUnmask_msix hv h, updateIrq_opens (s := unmasked s v) hstep hin hmode hm hs hact hwas hpba⟩

/-- The state with a vector unmasked in the MSI mask bits. -/
def msiUnmasked (s : State) (v : Nat) : State := { s with cfg := { s.cfg with msiMask := s.cfg.msiMask &&& ~~~(BitVec.ofNat 32 (2 ^ v)) } }

theorem runs_vectorUnmask_msi {v : Nat} {s : State} (h : s.cfg.msixEnable = false) :
    Runs (.vectorUnmask v) s (fun t => t.cfg.msiMask = s.cfg.msiMask &&& ~~~(BitVec.ofNat 32 (2 ^ v)) ∧ t.ints.table = s.ints.table) := by
  have hne : intModeOf s.cfg ≠ 3 := by
    unfold intModeOf
    rw [if_neg (by simp [h])]
    split
    · decide
    · split <;> decide
  obtain ⟨-, -, -, htab⟩ := updateIrq_sourceBits (msiUnmasked s v)
  exact ⟨updateIrq (msiUnmasked s v), by simp only [exec, execVectorUnmask, if_neg hne]; rfl, congrArg ConfigSpace.msiMask (updateIrq_cfg _), htab⟩

/-- Settles O24: the hold by `holdPostings` and `drainHold`, every interrupt by what `updateIrq` does to the sources, the mode and the pending bits. -/
theorem holdAndInterrupts : Obligations.HoldAndInterrupts :=
  ⟨⟨fun _ => runs_busMasterClear, fun _ => runs_busMasterSet, fun s hb hp => by simp [exec, execBusMasterSet, masterSet, hb, hp]⟩,
    ⟨fun _ _ _ => runs_parkedNotice, fun _ _ _ => exec_parkedNotice_sent⟩,
    ⟨fun _ _ _ => runs_irqDelayExpiry, fun n s h => by simp [exec, execIrqDelayExpiry, irqDelay, h], fun r m _ => runs_intPendingClear r m,
      fun _ _ => runs_intTestFire_ring, fun _ => runs_intTestFire_mgmt⟩,
    ⟨fun a b c d _ => runs_interruptModeChange a b c d, fun _ _ => runs_vectorUnmask_table, fun _ _ => runs_vectorUnmask_opens, fun _ _ _ => runs_vectorUnmask_msi⟩⟩

end Sys2Proof.Machine
end

section
namespace Sys2Proof.Machine

/-! ## The configuration space, the windows and the registers (O27) -/

/-! ### Bytes and lanes -/

@[simp] theorem natLe_length (k v : Nat) : (natLe k v).length = k := by
  induction k generalizing v with
  | zero => rfl
  | succ k ih => simp [natLe, ih]

theorem leNat_natLe (k : Nat) {v : Nat} (h : v < 256 ^ k) : leNat (natLe k v) = v := by
  induction k generalizing v with
  | zero => simp [natLe, leNat]; omega
  | succ k ih =>
    have hk : v / 256 < 256 ^ k := Nat.div_lt_of_lt_mul (by rwa [pow_succ, mul_comm] at h)
    simp only [natLe, leNat, ih hk, byteOf, BitVec.toNat_ofNat]
    omega

theorem lanesNat_natLe (k : Nat) {v : Nat} (h : v < 256 ^ k) : lanesNat ((natLe k v).map some) = some v := by
  simp [lanesNat, leNat_natLe k h, List.filterMap_map]

/-! ### CONFIG_ACCESS (R230–R232, R245) -/

/-- The state as a request of the host finds it: the link in L0 (R257). -/
def linkAwake (s : State) : State := { s with link := { s.link with aspm := 0 } }

theorem exec_configAccess {off : Nat} {s : State} (w : Option Nat) (ha : alive s = true) (hl : s.link.up = true) (hr : s.resets.kind = 0) :
    exec (.configAccess off w) s = .next (match w with
      | none => { linkAwake s with rsp := .data (natLe 4 (cfgRead s (off / 4 * 4 % 4096))), cfg := { s.cfg with read := true } }
      | some v => { cfgWrite (linkAwake s) (off / 4 * 4 % 4096) v with rsp := .done }) := by
  simp only [exec, execConfigAccess, configAccess]
  rw [if_neg (by simp [ha, hl]), if_neg (by simp [hr])]
  cases w <;> rfl

theorem runs_configRead {off : Nat} {s : State} (ha : alive s = true) (hl : s.link.up = true) (hr : s.resets.kind = 0) (ho : off < 4096) :
    Runs (.configAccess off none) s (fun t => t.rsp = .data (natLe 4 (cfgRead s (off / 4 * 4))) ∧ t.cfg = { s.cfg with read := true } ∧ OnlyIn [.rsp, .cfg, .link] s t) := by
  have hbase : off / 4 * 4 % 4096 = off / 4 * 4 := by omega
  refine ⟨_, exec_configAccess none ha hl hr, ?_, rfl, by simp [OnlyIn, linkAwake]⟩
  rw [hbase]

/-- A base address register keeps of a write the bits above its window (R231). -/
theorem cfgRead_bar2 (s : State) : cfgRead s 0x18 = 4 + s.cfg.bar2 / 16 % 2 ^ 28 * 2 ^ 4 ∧ cfgRead s 0x1C = s.cfg.bar2 / 2 ^ 32 % 2 ^ 32 := by
  simp [cfgRead, cfgHeader, pack, fld]

theorem barLow_div (old v : Nat) (hv : v < 2 ^ 32) : 4 + barLow old v 0x20_0000 / 16 % 2 ^ 28 * 2 ^ 4 = v / 0x20_0000 * 0x20_0000 + 4 ∧
    barLow old v 0x20_0000 / 2 ^ 32 % 2 ^ 32 = old / 2 ^ 32 % 2 ^ 32 := by
  simp only [barLow]
  rw [if_neg (by decide)]
  omega

theorem runs_configWrite_bar2 {v : Nat} {s : State} (ha : alive s = true) (hl : s.link.up = true) (hr : s.resets.kind = 0) (hv : v < 2 ^ 32) :
    Runs (.configAccess 0x18 (some v)) s (fun t => t.rsp = .done ∧ cfgRead t 0x18 = v / 0x20_0000 * 0x20_0000 + 4 ∧ cfgRead t 0x1C = cfgRead s 0x1C ∧ OnlyIn [.rsp, .cfg, .link] s t) := by
  have ht : exec (.configAccess 0x18 (some v)) s = .next { linkAwake s with cfg := { s.cfg with bar2 := barLow s.cfg.bar2 v 0x20_0000 }, rsp := .done } :=
    exec_configAccess (some v) ha hl hr
  obtain ⟨hlow, hhigh⟩ := barLow_div s.cfg.bar2 v hv
  refine ⟨_, ht, rfl, ?_, ?_, by simp [OnlyIn, linkAwake]⟩
  · rw [(cfgRead_bar2 _).1]; exact hlow
  · rw [(cfgRead_bar2 _).2, (cfgRead_bar2 s).2]; exact hhigh

theorem exec_configAccess_reset {s : State} (off : Nat) (w : Option Nat) (ha : alive s = true) (hl : s.link.up = true) (hr : s.resets.kind ≠ 0) :
    exec (.configAccess off w) s = .next { s with rsp := .retry } := by
  simp [exec, execConfigAccess, configAccess, ha, hl, hr]

theorem exec_configAccess_linkDown {s : State} (off : Nat) (w : Option Nat) (hl : s.link.up = false) : exec (.configAccess off w) s = .next s := by
  simp [exec, execConfigAccess, configAccess, hl]

/-! ### MEMORY_REQUEST (R236, R237, R258) -/

theorem exec_memoryRequest_shut {m : MemReq} {s : State} (h : windowOpen s = false) : exec (.memoryRequest m) s = .next { s with rsp := .unsupported } := by
  simp [exec, execMemoryRequest, memoryRequest, h]

theorem memoryRead_control {s : State} {off len : Nat} (h : windowOpen s = true) (hsz : off + len ≤ 0x20_0000) :
    memoryRequest s (.rd .control off len) = controlRead (linkAwake s) off len := by
  unfold memoryRequest
  rw [if_neg (by simp [h])]
  exact if_neg (Nat.not_lt.mpr hsz)

theorem memoryRead_wicket {s : State} {off len : Nat} (h : windowOpen s = true) (hrec : inRecovery s = false) (hsz : off + len ≤ windowSize s .wicket) :
    memoryRequest s (.rd .wicket off len) =
      { linkAwake s with rsp := .data ((List.range len).map (fun i => wicketByte s ((off + i) / 32768) ((off + i) % 32768))) } := by
  have hr : inRecovery (linkAwake s) = false := hrec
  unfold memoryRequest
  rw [if_neg (by simp [h])]
  refine (if_neg (Nat.not_lt.mpr hsz)).trans ?_
  show ({ linkAwake s with rsp := .data (if inRecovery (linkAwake s) then _ else _) } : State) = _
  rw [hr]
  rfl

theorem memoryRead_beyond {s : State} {w : Window} {off len : Nat} (h : windowOpen s = true) (hsz : windowSize s w < off + len) :
    memoryRequest s (.rd w off len) = { linkAwake s with rsp := .unsupported } := by
  unfold memoryRequest
  rw [if_neg (by simp [h])]
  exact if_pos hsz

theorem runs_wicketRead {off len : Nat} {s : State} (h : windowOpen s = true) (hrec : inRecovery s = false) (hsz : off + len ≤ windowSize s .wicket) :
    Runs (.memoryRequest (.rd .wicket off len)) s (fun t => t.rsp = .data ((List.range len).map (fun i => wicketByte s ((off + i) / 32768) ((off + i) % 32768))) ∧ OnlyIn [.rsp, .link] s t) :=
  ⟨_, congrArg Host.Outcome.next (memoryRead_wicket h hrec hsz), rfl, by simp [OnlyIn, linkAwake]⟩

theorem runs_memoryRead_beyond {w : Window} {off len : Nat} {s : State} (h : windowOpen s = true) (hsz : windowSize s w < off + len) :
    Runs (.memoryRequest (.rd w off len)) s (fun t => t.rsp = .unsupported ∧ OnlyIn [.rsp, .link] s t) :=
  ⟨_, congrArg Host.Outcome.next (memoryRead_beyond h hsz), rfl, by simp [OnlyIn, linkAwake]⟩

theorem controlRead_waits {s : State} (off len : Nat) (h : commitsWait s = true) :
    controlRead s off len = { s with wickets := { s.wickets with deferred := s.wickets.deferred ++ [(off, len)] }, rsp := .none } := if_pos h

theorem controlRead_served {s : State} (off len : Nat) (h : commitsWait s = false) :
    controlRead s off len = { (regAccess s off len).1 with rsp := .data (regAccess s off len).2 } := if_neg (by simp [h])

theorem runs_controlRead_waits {off : Nat} {s : State} (h : windowOpen s = true) (hw : commitsWait s = true) (hoff : off + 8 ≤ 0x20_0000) :
    Runs (.memoryRequest (.rd .control off 8)) s (fun t => t.rsp = .none ∧ t.wickets = { s.wickets with deferred := s.wickets.deferred ++ [(off, 8)] } ∧ OnlyIn [.rsp, .link, .wickets] s t) := by
  have ht := (memoryRead_control h hoff).trans (controlRead_waits (s := linkAwake s) off 8 hw)
  exact ⟨_, congrArg Host.Outcome.next ht, rfl, rfl, rfl⟩

/-! ### REGISTER_READ_CLEAR (R12, R13) -/

theorem exec_registerReadClear {a n : Nat} {s : State} (h : windowOpen s = true) (ha : a + n ≤ 0x20_0000) (hn : n ≤ 8) :
    exec (.registerReadClear a n) s = .next (controlRead s a n) :=
  congrArg Host.Outcome.next (if_pos (by simp [h, ha, hn]))

theorem regAccess_full {s : State} {a : Nat} (ha : a % 8 = 0) (hans : answers s a = true) : regAccess s a 8 = (readClear s a true true, natLe 8 (hostReg s a)) := by
  have hb : a / 8 * 8 = a := by omega
  simp [regAccess, hb, ha, hans]

/-- The state of a read's low half: the high half of the register is kept for the read that follows (R12). -/
def latchHigh (s : State) (a : Nat) : State := { s with latched := tset s.latched a (hostReg s a / 2 ^ 32) }

theorem regAccess_low {s : State} {a : Nat} (ha : a % 8 = 0) (hans : answers s a = true) :
    regAccess s a 4 = (readClear (latchHigh s a) a true true, natLe 4 (hostReg s a)) := by
  have hb : a / 8 * 8 = a := by omega
  have h4 : a % 4 = 0 := by omega
  simp [regAccess, latchHigh, hb, ha, h4, hans]

theorem regAccess_high {s : State} {a v : Nat} (ha : a % 8 = 0) (hans : answers s a = true) (hv : s.latched.find? (fun e => e.1 = a) = some (a, v)) :
    regAccess s (a + 4) 4 = ({ s with latched := tdel s.latched a }, natLe 4 v) := by
  have hb : (a + 4) / 8 * 8 = a := by omega
  have h8 : ¬ (a + 4) % 8 = 0 := by omega
  have h4 : (a + 4) % 4 = 0 := by omega
  simp [regAccess, hb, h8, h4, hans, hv]

theorem regAccess_unaligned {s : State} {a n : Nat} (h8 : ¬ (n = 8 ∧ a % 8 = 0)) (h4 : ¬ (n = 4 ∧ a % 4 = 0)) :
    regAccess s a n = (s, (List.range n).map (fun i => byteOf (hostReg s ((a + i) / 8 * 8) / 2 ^ (8 * ((a + i) % 8))))) := by
  have hal : (decide (n = 8) && decide (a % 8 = 0) || decide (n = 4) && decide (a % 4 = 0)) = false := by
    simp only [Bool.or_eq_false_iff, Bool.and_eq_false_iff, decide_eq_false_iff_not]
    exact ⟨not_and_or.mp h8, not_and_or.mp h4⟩
  simp only [regAccess, hal]
  rfl

theorem regAccess_silent {s : State} {a : Nat} (ha : a % 8 = 0) (hans : answers s a = false) : regAccess s a 8 = (s, zeros 8) := by
  have hb : a / 8 * 8 = a := by omega
  simp [regAccess, hb, ha, hans]

theorem find?_tset {α : Type} (t : Tbl α) (n : Nat) (v : α) : (tset t n v).find? (fun e => e.1 = n) = some (n, v) := by
  induction t with
  | nil => simp [tset]
  | cons e r ih =>
    unfold tset
    split
    · simp
    · split
      · simp
      · simp [*]

theorem tdel_tset {α : Type} (t : Tbl α) (n : Nat) (v : α) : tdel (tset t n v) n = tdel t n := by
  induction t with
  | nil => simp [tset, tdel]
  | cons e r ih =>
    unfold tset
    simp only [tdel] at ih ⊢
    split
    · simp [*]
    · split
      · simp
      · simp [List.filter_cons, ih]

theorem readClear_latched (s : State) (a : Nat) (lo hi : Bool) : (readClear s a lo hi).latched = s.latched :=
  same_latched (ps := allBut [.latched]) (by simp [allBut]) (by decide)

theorem readClear_windowOpen (s : State) (a : Nat) (lo hi : Bool) : windowOpen (readClear s a lo hi) = windowOpen s := by
  have h : (readClear s a lo hi).outside (allBut [.chip, .cfg, .resets]) = s.outside (allBut [.chip, .cfg, .resets]) := by simp [allBut]
  simp only [windowOpen, same_chip h (by decide), same_cfg h (by decide), same_resets h (by decide)]

theorem readClear_answers (s : State) (a b : Nat) (lo hi : Bool) : answers (readClear s a lo hi) b = answers s b := by
  have h : (readClear s a lo hi).chip = s.chip := same_chip (ps := allBut [.chip]) (by simp [allBut]) (by decide)
  simp only [answers, inRecovery, h]

theorem clearWkt_table (s : State) (a : Nat) (lo hi : Bool) : (clearWkt s a lo hi).wickets.table = s.wickets.table := by
  unfold clearWkt
  dsimp only
  split <;> rfl

theorem readClear_table (s : State) (a : Nat) (lo hi : Bool) : (readClear s a lo hi).wickets.table = s.wickets.table := by
  unfold readClear
  split
  case h_2 => exact clearWkt_table s a lo hi
  all_goals exact congrArg Wickets.table (same_wickets (ps := allBut [.wickets]) (by simp [allBut]) (by decide))

theorem readClear_commitsWait (s : State) (a : Nat) (lo hi : Bool) : commitsWait (readClear s a lo hi) = commitsWait s := by
  simp only [commitsWait, readClear_table]

theorem exec_readHighHalf {a v : Nat} {s : State} (h : windowOpen s = true) (hw : commitsWait s = false) (ha : a % 8 = 0) (hsz : a + 8 ≤ 0x20_0000) (hans : answers s a = true)
    (hv : s.latched.find? (fun e => e.1 = a) = some (a, v)) :
    exec (.registerReadClear (a + 4) 4) s = .next { s with latched := tdel s.latched a, rsp := .data (natLe 4 v) } := by
  rw [exec_registerReadClear h (by omega) (by omega), controlRead_served _ _ hw, regAccess_high ha hans hv]

theorem exec_readLowHalf {a : Nat} {s : State} (h : windowOpen s = true) (hw : commitsWait s = false) (ha : a % 8 = 0) (hsz : a + 8 ≤ 0x20_0000) (hans : answers s a = true) :
    exec (.registerReadClear a 4) s =
      .next { readClear (latchHigh s a) a true true with rsp := .data (natLe 4 (hostReg s a)) } := by
  rw [exec_registerReadClear h (by omega) (by omega), controlRead_served _ _ hw, regAccess_low ha hans]

theorem runs_readHalves {a : Nat} {s : State} (h : windowOpen s = true) (hw : commitsWait s = false) (ha : a % 8 = 0) (hsz : a + 8 ≤ 0x20_0000) (hans : answers s a = true) :
    Runs (.registerReadClear a 4) s (fun t => t.rsp = .data (natLe 4 (hostReg s a)) ∧
      Runs (.registerReadClear (a + 4) 4) t (fun u => u.rsp = .data (natLe 4 (hostReg s a / 2 ^ 32)) ∧ OnlyIn [.rsp, .latched] t u)) := by
  have hlatched : (readClear (latchHigh s a) a true true).latched.find? (fun e => e.1 = a) = some (a, hostReg s a / 2 ^ 32) := by
    rw [readClear_latched]
    exact find?_tset _ _ _
  refine ⟨_, exec_readLowHalf h hw ha hsz hans, rfl, _, exec_readHighHalf ?_ ?_ ha hsz ?_ hlatched, rfl, rfl⟩
  · exact (readClear_windowOpen (latchHigh s a) a true true).trans h
  · exact (readClear_commitsWait (latchHigh s a) a true true).trans hw
  · exact (readClear_answers (latchHigh s a) a a true true).trans hans

/-! ### REGISTER_WRITE (R10, R12, R13) -/

theorem exec_registerWrite {a : Nat} {data : Lanes} {s : State} (h : windowOpen s = true) (ha : a + data.length ≤ 0x20_0000) :
    exec (.registerWrite a data) s = .next { regStore s a data with rsp := .done } :=
  congrArg Host.Outcome.next (if_pos (by simp [h, ha]))

theorem regStore_low {s : State} {a v : Nat} (ha : a % 8 = 0) (hv : v < 2 ^ 32) :
    regStore s a ((natLe 4 v).map some) = { s with heldLow := tset s.heldLow a v } := by
  have hb : a / 8 * 8 = a := by omega
  simp only [regStore, lanesNat_natLe 4 (v := v) hv, hb]
  simp [ha]

theorem regStore_full {s : State} {a v : Nat} (ha : a % 8 = 0) (hv : v < 2 ^ 64) :
    regStore s a ((natLe 8 v).map some) = regWrite { s with heldLow := tdel s.heldLow a } a v true true := by
  have hb : a / 8 * 8 = a := by omega
  simp only [regStore, lanesNat_natLe 8 (v := v) hv, hb]
  simp [ha]

theorem regStore_high {s : State} {a lo v : Nat} (ha : a % 8 = 0) (hv : v < 2 ^ 32) (hlo : s.heldLow.find? (fun e => e.1 = a) = some (a, lo)) :
    regStore s (a + 4) ((natLe 4 v).map some) = regWrite { s with heldLow := tdel s.heldLow a } a (lo + 2 ^ 32 * v) true true := by
  have hb : (a + 4) / 8 * 8 = a := by omega
  have h8 : (a + 4) % 8 = 4 := by omega
  simp only [regStore, lanesNat_natLe 4 (v := v) hv, hb]
  simp [h8, hlo]

theorem regStore_narrow {s : State} {a : Nat} {data : Lanes} (h : data.length < 4 ∨ a % 4 ≠ 0) : regStore s a data = s := by
  have h8 : ¬ (data.length = 8 ∧ a % 8 = 0) := by omega
  have h4 : ¬ (data.length = 4 ∧ a % 8 = 0) := by omega
  have hh : ¬ (data.length = 4 ∧ a % 8 = 4) := by omega
  unfold regStore
  cases lanesNat data with
  | none => rfl
  | some v => simp [h8, h4, hh]

theorem regWrite_silent {s : State} {a : Nat} (v : Nat) (lo hi : Bool) (h : answers s a = false) : regWrite s a v lo hi = s := by
  simp [regWrite, h]

theorem exec_writeLowHalf {a v : Nat} {s : State} (h : windowOpen s = true) (ha : a % 8 = 0) (hsz : a + 8 ≤ 0x20_0000) (hv : v < 2 ^ 32) :
    exec (.registerWrite a ((natLe 4 v).map some)) s = .next { s with heldLow := tset s.heldLow a v, rsp := .done } := by
  rw [exec_registerWrite h (by simp; omega), regStore_low ha hv]

/-- The two halves are one 64-bit write (R13). -/
theorem regStore_halves {a lo hi : Nat} {s : State} (hrsp : s.rsp = .done) (ha : a % 8 = 0) (hlo : lo < 2 ^ 32) (hhi : hi < 2 ^ 32) :
    regStore { s with heldLow := tset s.heldLow a lo, rsp := .done } (a + 4) ((natLe 4 hi).map some) = regStore s a ((natLe 8 (lo + 2 ^ 32 * hi)).map some) := by
  rw [regStore_high ha hhi (find?_tset _ _ _), regStore_full ha (by omega)]
  simp only [tdel_tset, ← hrsp]

theorem runs_writeHalves {a lo hi : Nat} {s : State} (h : windowOpen s = true) (hrsp : s.rsp = .done) (ha : a % 8 = 0) (hsz : a + 8 ≤ 0x20_0000) (hlo : lo < 2 ^ 32) (hhi : hi < 2 ^ 32) :
    Runs (.registerWrite a ((natLe 4 lo).map some)) s (fun t =>
      exec (.registerWrite (a + 4) ((natLe 4 hi).map some)) t = exec (.registerWrite a ((natLe 8 (lo + 2 ^ 32 * hi)).map some)) s) := by
  refine ⟨_, exec_writeLowHalf h ha hsz hlo, ?_⟩
  refine (exec_registerWrite (by exact h) (by simp; omega)).trans ?_
  rw [exec_registerWrite h (by simpa using hsz), regStore_halves hrsp ha hlo hhi]

theorem exec_writeSilent {a v : Nat} {s : State} (h : windowOpen s = true) (ha : a % 8 = 0) (hsz : a + 8 ≤ 0x20_0000) (hans : answers s a = false) (hv : v < 2 ^ 64) :
    exec (.registerWrite a ((natLe 8 v).map some)) s = .next { s with heldLow := tdel s.heldLow a, rsp := .done } := by
  rw [exec_registerWrite h (by simpa using hsz), regStore_full ha hv, regWrite_silent _ _ _ (by exact hans)]

/-- Settles O27, access by access: the host's requests reach the configuration header and the windows through `configAccess` and `memoryRequest`, and a register through its two halves. -/
theorem windowsAndRegisters : Obligations.WindowsAndRegisters := by
  refine ⟨⟨fun off s => runs_configRead, fun v s => runs_configWrite_bar2, fun off w s => exec_configAccess_reset off w, fun off w s => exec_configAccess_linkDown off w⟩,
    ⟨fun m s => exec_memoryRequest_shut, fun off len s => runs_wicketRead, fun w off len s => runs_memoryRead_beyond, fun off s => runs_controlRead_waits⟩,
    ⟨fun a s h hw ha hsz hans => ?_, fun a s => runs_readHalves, fun a n s h hw hsz hn h8 h4 => ?_, fun a s h hw ha hsz hans => ?_, fun a n s h hw hsz hn => ?_⟩,
    ⟨fun a v s h ha hsz hv => ⟨_, exec_writeLowHalf h ha hsz hv, rfl⟩, fun a lo hi s => runs_writeHalves, fun a data s h hsz hd => ?_, fun a v s => exec_writeSilent⟩⟩
  · exact ⟨_, by rw [exec_registerReadClear h hsz (by omega), controlRead_served _ _ hw, regAccess_full ha hans], rfl⟩
  · exact ⟨_, by rw [exec_registerReadClear h hsz hn, controlRead_served _ _ hw, regAccess_unaligned h8 h4], rfl⟩
  · rw [exec_registerReadClear h hsz (by omega), controlRead_served _ _ hw, regAccess_silent ha hans]
  · rw [exec_registerReadClear h hsz hn, controlRead_waits _ _ hw]
  · rw [exec_registerWrite h hsz, regStore_narrow hd]

end Sys2Proof.Machine
end

section
namespace Sys2Proof.Machine

/-! ## Fuses only grow (O8) -/

theorem Fuses.noneLost_refl (f : Fuses) : f.noneLost f :=
  ⟨rfl, fun _ h => h, fun _ h => h, fun _ h => h, BitVec.and_self, BitVec.and_self⟩

theorem Fuses.noneLost_of_eq {f g : Fuses} (h : g = f) : f.noneLost g := h ▸ f.noneLost_refl

theorem and_eq_left_trans {w : Nat} {a b c : BitVec w} (hab : a &&& b = a) (hbc : b &&& c = b) : a &&& c = a := by
  rw [← hab, BitVec.and_assoc, hbc]

theorem Fuses.noneLost_trans {f g h : Fuses} (hfg : f.noneLost g) (hgh : g.noneLost h) : f.noneLost h := by
  obtain ⟨hs, hc, hw, hr, hp, hv⟩ := hfg
  obtain ⟨hs', hc', hw', hr', hp', hv'⟩ := hgh
  exact ⟨hs.trans hs', fun n hn => hc' n (hc n hn), fun n hn => hw' n (hw n hn), fun e he => hr' e (hr e he), and_eq_left_trans hp hp', and_eq_left_trans hv hv'⟩

/-- A key fuse that is set beside others. -/
theorem and_or_self {w : Nat} (a b : BitVec w) : a &&& (a ||| b) = a := by
  ext i hi
  simp only [BitVec.getElem_and, BitVec.getElem_or]
  cases a[i] <;> rfl

theorem mem_append_eraseDups {α : Type} [BEq α] [LawfulBEq α] {x : α} {l : List α} (m : List α) (h : x ∈ l) : x ∈ (l ++ m).eraseDups := by
  simp [List.mem_eraseDups, h]

/-- What a start-up carries over holds every fuse. -/
theorem carried_noneLost (s : State) : s.fuses.noneLost (carried s).fuses := s.fuses.noneLost_refl

theorem startUp_fuses (s : State) (chip : Chip) (pass : List Bool) : (startUp s chip pass).fuses = (carried s).fuses := by
  rw [startUp_eq]
  split
  · rfl
  · exact same_fuses (s := atStepThree s chip) (ps := allBut [.fuses]) (by simp [allBut]) (by decide)

theorem programKey_noneLost (s : State) (n : Nat) (good : Bool) : s.fuses.noneLost (programKey s n good).fuses := by
  refine ⟨rfl, fun _ h => h, fun _ h => h, fun _ h => h, and_or_self _ _, ?_⟩
  cases good
  · exact and_or_self _ _
  · exact BitVec.and_self

theorem revokeKey_noneLost (s : State) (n : Nat) : s.fuses.noneLost (revokeKey s n).fuses :=
  ⟨rfl, fun _ h => h, fun _ h => h, fun _ h => h, BitVec.and_self, and_or_self _ _⟩

/-- A fuse operation programs a key, revokes one, or sets no fuse (R426). -/
theorem startFuse_noneLost (s : State) (op : Nat) (good : Bool) : s.fuses.noneLost (startFuse s op good).fuses := by
  have hr : ∀ result, s.fuses.noneLost (fuseRefused { s with fuses := { s.fuses with op, arm := 0 } } result).fuses := fun _ => s.fuses.noneLost_refl
  have hk : ∀ n, s.fuses.noneLost (revokeKey { s with fuses := { s.fuses with op, arm := 0 } } n).fuses := fun _ => revokeKey_noneLost _ _
  unfold startFuse
  split
  · exact s.fuses.noneLost_refl
  dsimp only
  split
  · exact hr _
  · split
    · split
      · exact hr _
      · split
        · exact hr _
        · exact programKey_noneLost { s with fuses := { s.fuses with op, arm := 0 } } _ _
    · split
      · exact hk _
      · split
        · split
          · exact hr _
          · exact hk _
        · exact hr _

theorem advanceCounter_noneLost (s : State) (kind target seq : Nat) : s.fuses.noneLost (advanceCounter s kind target seq).fuses := by
  unfold advanceCounter
  split
  · exact s.fuses.noneLost_refl
  · dsimp only
    rw [same_fuses (fire_outside (ps := [.daybook]) _ _ _ _ _ _ (by decide)) (by decide)]
    split
    · exact ⟨rfl, fun _ h => mem_append_eraseDups _ h, fun _ h => h, fun _ h => h, BitVec.and_self, BitVec.and_self⟩
    · exact ⟨rfl, fun _ h => h, fun _ h => mem_append_eraseDups _ h, fun _ h => h, BitVec.and_self, BitVec.and_self⟩

theorem fuseAdvance_noneLost (s : State) : s.fuses.noneLost (fuseAdvance s).fuses := by
  unfold fuseAdvance
  split
  · exact Fuses.noneLost_trans (advanceCounter_noneLost _ _ _ _) (advanceCounter_noneLost (advanceCounter s 0 _ _) _ _ _)
  · exact s.fuses.noneLost_refl

theorem advancePart_noneLost (s : State) (kind target : Nat) : s.fuses.noneLost (advancePart s kind target).fuses := by
  unfold advancePart
  dsimp only
  split
  · exact s.fuses.noneLost_refl
  · have h : (takeFree s).1.fuses = s.fuses := rfl
    split
    · exact ⟨rfl, fun _ h => mem_append_eraseDups _ h, fun _ h => h, fun _ h => h, BitVec.and_self, BitVec.and_self⟩
    · exact ⟨rfl, fun _ h => h, fun _ h => mem_append_eraseDups _ h, fun _ h => h, BitVec.and_self, BitVec.and_self⟩

theorem fuseCut_noneLost (s : State) : s.fuses.noneLost (fuseCut s).fuses := by
  unfold fuseCut
  split
  · exact Fuses.noneLost_trans (advancePart_noneLost _ _ _) (advancePart_noneLost _ _ _)
  · exact s.fuses.noneLost_refl

theorem cutOff_noneLost (holdUp : Bool) (s : State) : s.fuses.noneLost (cutOff holdUp s).fuses := by
  have h : (cutOff holdUp s).outside [.flash, .free, .closers] = (fuseCut s).outside [.flash, .free, .closers] := by simp [cutOff]
  rw [same_fuses h (by decide)]
  exact fuseCut_noneLost s

theorem writeFuseCtl_noneLost (s : State) (v : Nat) : s.fuses.noneLost (writeFuseCtl s v).fuses := by
  unfold writeFuseCtl
  dsimp only
  split
  · refine Fuses.noneLost_trans ?_ (startFuse_noneLost _ _ _)
    exact s.fuses.noneLost_refl
  · exact s.fuses.noneLost_refl

theorem writeChr_noneLost (s : State) (a v : Nat) (lo hi : Bool) : s.fuses.noneLost (writeChr s a v lo hi).fuses := by
  unfold writeChr
  split
  · exact Fuses.noneLost_of_eq (same_fuses (ps := [.flash, .free]) (by dsimp only; (repeat' split) <;> simp) (by decide))
  · exact Fuses.noneLost_of_eq (by split <;> rfl)
  · split
    · exact writeFuseCtl_noneLost _ _
    · exact s.fuses.noneLost_refl
  · split
    · dsimp only
      exact ⟨rfl, fun _ h => h, fun _ h => h, fun _ h => h, BitVec.and_self, BitVec.and_self⟩
    · exact Fuses.noneLost_of_eq (same_fuses (ps := [.flash]) (by dsimp only; (repeat' split) <;> simp) (by decide))

theorem regWrite_noneLost (s : State) (a v : Nat) (lo hi : Bool) : s.fuses.noneLost (regWrite s a v lo hi).fuses := by
  unfold regWrite
  split
  · exact s.fuses.noneLost_refl
  split
  case h_9 => exact writeChr_noneLost _ _ _ _ _
  all_goals exact Fuses.noneLost_of_eq (same_fuses (ps := allBut [.fuses]) (by simp [allBut]) (by decide))

theorem regStore_noneLost (s : State) (a : Nat) (data : Lanes) : s.fuses.noneLost (regStore s a data).fuses := by
  have hw : ∀ held v lo, s.fuses.noneLost (regWrite { s with heldLow := held } (a / 8 * 8) v lo true).fuses := fun held _ _ => regWrite_noneLost { s with heldLow := held } _ _ _ _
  unfold regStore
  dsimp only
  split
  · exact s.fuses.noneLost_refl
  split
  · exact hw _ _ _
  split
  · exact s.fuses.noneLost_refl
  split
  · split
    · exact hw _ _ _
    · exact hw s.heldLow _ _
  · exact s.fuses.noneLost_refl

theorem memoryRequest_noneLost (s : State) (m : MemReq) : s.fuses.noneLost (memoryRequest s m).fuses := by
  unfold memoryRequest
  split
  · exact s.fuses.noneLost_refl
  dsimp only
  split
  · exact Fuses.noneLost_of_eq (same_fuses (ps := allBut [.fuses]) (by (repeat' split) <;> simp [allBut]) (by decide))
  split
  · exact s.fuses.noneLost_refl
  split
  · exact regStore_noneLost { s with link := { s.link with aspm := 0 }, rsp := .done } _ _
  all_goals exact Fuses.noneLost_of_eq (same_fuses (ps := allBut [.fuses]) (by split <;> simp [allBut]) (by decide))

theorem startUp_noneLost (s : State) (chip : Chip) (pass : List Bool) : s.fuses.noneLost (startUp s chip pass).fuses := by
  rw [startUp_fuses]
  exact carried_noneLost s

/-- No command takes a blown fuse back: the ten that may change fuses have a lemma each, the others leave the part alone. -/
theorem exec_noneLost {c : Instr} {s t : State} (h : exec c s = .next t) : s.fuses.noneLost t.fuses := by
  by_cases hm : .fuses ∈ mayChange c
  case neg => exact Fuses.noneLost_of_eq (same_fuses (exec_staysInParts c s t h) hm)
  cases c with
  | fuseAdvance => cases h; exact fuseAdvance_noneLost s
  | fuseProgram good => cases h; exact startFuse_noneLost s 1 good
  | fuseRevoke => cases h; exact startFuse_noneLost s 2 true
  | memoryRequest m => cases h; exact memoryRequest_noneLost s m
  | fuseOperationEnd => cases h; split <;> exact s.fuses.noneLost_refl
  | retirementFuse element number =>
    cases h
    split
    · exact ⟨rfl, fun _ h => h, fun _ h => h, fun _ h => mem_append_eraseDups _ h, BitVec.and_self, BitVec.and_self⟩
    · exact s.fuses.noneLost_refl
  | registerWrite addr data =>
    cases h
    split
    · exact regStore_noneLost s addr data
    · exact s.fuses.noneLost_refl
  | pwrgdRise p =>
    cases h
    dsimp only
    split
    · exact s.fuses.noneLost_refl
    split
    · exact carried_noneLost s
    · exact startUp_noneLost s _ _
  | pwrgdFall holdUp =>
    cases h
    split
    · exact s.fuses.noneLost_refl
    · exact cutOff_noneLost holdUp s
  | perstDeassert pass =>
    cases h
    dsimp only
    split
    · exact s.fuses.noneLost_refl
    · exact startUp_noneLost s _ _
  | _ => delta mayChange at hm; exact absurd hm (of_decide_eq_false rfl)

theorem tick_fuses (s : State) : (tick s).fuses = s.fuses := same_fuses (ps := [.clock]) (by simp) (by decide)

/-- Settles O8, command by command: a step runs one command, or counts a cycle. -/
theorem fusesOnlyGrow : Obligations.FusesOnlyGrow := by
  intro s t h
  unfold step at h
  split at h
  · cases h
    exact Fuses.noneLost_of_eq (tick_fuses s)
  · have hk := exec_noneLost h
    exact hk

/-- Settles O12 by evaluating the reset state. -/
theorem resetValues : Obligations.ResetValues := by
  unfold Obligations.ResetValues
  decide

end Sys2Proof.Machine
end

section
namespace Sys2Proof.Machine

/-! ## Power states, wake causes, L1 and link-up (O26) -/

/-! ### A change of the device state (R252–R255) -/

/-- The power block in a new device state. -/
def powerMarked (s : State) (st reason : Nat) : State :=
  { s with power := { s.power with
    state := st, eventClose := s.now, target := st, exitCause := if reason = 7 then s.power.exitCause else reason } }

/-- A change of the device state before it is signalled. -/
def powerSet (s : State) (st reason : Nat) : State :=
  let u := powerMarked s st reason
  let v := if 2 ≤ st then (if s.power.state < 2 then setMapped (gateAll (allFall u)) 1 else u) else if st = 0 then setMapped (ungateAll u) 0 else u
  fire (sendLtr v) 0x1B st reason (natLe 1 s.power.state) false

theorem powerTo_eq (s : State) (st reason : Nat) (signal : Bool) :
    powerTo s st reason signal = if st = s.power.state then s else if signal then mgmtCause (powerSet s st reason) 7 else powerSet s st reason := rfl

theorem powerSet_power (s : State) (st reason : Nat) : (powerSet s st reason).power = (powerMarked s st reason).power := by
  refine same_power (ps := [.drives, .gov, .tellers, .scratch, .link, .daybook]) ?_ (by decide)
  unfold powerSet
  dsimp only
  (repeat' split) <;> simp

theorem powerSet_outside (s : State) (st reason : Nat) :
    (powerSet s st reason).outside [.drives, .gov, .tellers, .scratch, .link, .power, .daybook] = s.outside [.drives, .gov, .tellers, .scratch, .link, .power, .daybook] := by
  have hm : ∀ ps, .power ∈ ps → (powerMarked s st reason).outside ps = s.outside ps := fun ps h => outside_upd_power h
  unfold powerSet
  dsimp only
  (repeat' split) <;> simp [hm]

theorem mgmtCause_power (s : State) (n : Nat) : (mgmtCause s n).power = s.power := same_power (ps := [.ints, .link, .hostMem]) (by simp) (by decide)

/-- The power block after a change of the device state. -/
theorem powerTo_power {s : State} {st reason : Nat} {signal : Bool} (h : st ≠ s.power.state) :
    (powerTo s st reason signal).power = (powerMarked s st reason).power := by
  rw [powerTo_eq, if_neg h]
  split
  · rw [mgmtCause_power, powerSet_power]
  · rw [powerSet_power]

@[simp] theorem powerTo_state (s : State) (st reason : Nat) (signal : Bool) : (powerTo s st reason signal).power.state = st := by
  by_cases h : st = s.power.state
  · rw [powerTo_eq, if_pos h, h]
  · rw [powerTo_power h]
    rfl

/-- A change of the device state leaves the waiting entry and the state to return to. -/
theorem powerTo_entry (s : State) (st reason : Nat) (signal : Bool) :
    (powerTo s st reason signal).power.entryTag = s.power.entryTag ∧ (powerTo s st reason signal).power.entryPending = s.power.entryPending ∧
      (powerTo s st reason signal).power.back = s.power.back := by
  by_cases h : st = s.power.state
  · rw [powerTo_eq, if_pos h]
    exact ⟨rfl, rfl, rfl⟩
  · rw [powerTo_power h]
    exact ⟨rfl, rfl, rfl⟩

theorem powerTo_signal {s : State} {st : Nat} (reason : Nat) (h : st ≠ s.power.state) : powerTo s st reason true = mgmtCause (powerSet s st reason) 7 := by
  rw [powerTo_eq, if_neg h, if_pos rfl]

theorem powerSet_ints (s : State) (st reason : Nat) : (powerSet s st reason).ints = s.ints := same_ints (powerSet_outside s st reason) (by decide)

/-- An evaluation of the interrupt sources leaves WAKE# as it is. -/
theorem updateIrq_wakeLow (s : State) : (updateIrq s).ints.wakeLow = s.ints.wakeLow := by
  have hm : (modeInForce s).ints.wakeLow = s.ints.wakeLow := by
    unfold modeInForce
    split <;> rfl
  rw [updateIrq_eq]
  split
  · rfl
  · split
    · exact (congrArg Interrupts.wakeLow (sendMessages_still _ (evaluated (modeInForce s)))).trans hm
    · exact hm

theorem powerTo_wakeLow (s : State) (st reason : Nat) (signal : Bool) : (powerTo s st reason signal).ints.wakeLow = s.ints.wakeLow := by
  rw [powerTo_eq]
  split
  · rfl
  · split
    · rw [mgmtCause, updateIrq_wakeLow, powerSet_ints]
    · rw [powerSet_ints]

/-! ### D3HOT_WRITE and D0_WRITE (R254, R255) -/

theorem holdPostings_holding (s : State) : (holdPostings s).returns.holding = true := by
  by_cases h : s.returns.holding = true
  · simp [holdPostings, h]
  · exact (holdPostings_of_free (by simpa using h)).1

/-- PowerState 3 is in force, and the entry into Dormant waits (R254). -/
def enteringD3hot (s : State) : State := { s with cfg := { s.cfg with powerState := 3 }, power := { s.power with entryPending := true, target := 3 } }

/-- The state in which D3hot is entered: an entry into Rest that waited is abandoned (R288). -/
def restAbandoned (s : State) : State := if s.power.entryTag.isSome then abandonEntry (supersede' s (s.now + 1) 3) else s

theorem d3hot_eq {s : State} (hp : s.cfg.powerState = 0) :
    d3hot s = let u := holdPostings (enteringD3hot (restAbandoned s)); (u.works.filter (Work.unposted u)).foldl (fun s w => dropWork s w.id) u := by
  unfold d3hot
  rw [if_neg (by simp [hp])]
  rfl

theorem abandonEntry_power (s : State) : (abandonEntry s).power = { s.power with entryTag := none, entryPending := false, target := s.power.state, exitCause := 6 } :=
  same_power (s := { s with power := { s.power with entryTag := none, entryPending := false, target := s.power.state, exitCause := 6 } }) (ps := [.daybook])
    (fire_outside _ _ _ _ _ _ (by decide)) (by decide)

theorem supersede'_power (s : State) (b detail : Nat) : (supersede' s b detail).power = s.power := same_power (ps := [.cmds]) (by simp) (by decide)

theorem restAbandoned_cfg (s : State) : (restAbandoned s).cfg = s.cfg :=
  same_cfg (ps := [.cmds, .power, .daybook]) (by simp [restAbandoned]) (by decide)

theorem restAbandoned_powerState (s : State) : (restAbandoned s).power.state = s.power.state := by
  unfold restAbandoned
  split
  · rw [abandonEntry_power, supersede'_power]
  · rfl

theorem runs_d3hotWrite {s : State} (ha : alive s = true) (hr : s.resets.kind = 0) (hp : s.cfg.powerState = 0) :
    Runs .d3hotWrite s (fun t => t.cfg = { s.cfg with powerState := 3 } ∧ t.power.entryPending = true ∧ t.power.target = 3 ∧ t.power.state = s.power.state ∧ t.returns.holding = true) := by
  let u := holdPostings (enteringD3hot (restAbandoned s))
  have hk : (d3hot s).outside (allBut [.cfg, .power, .returns]) = u.outside (allBut [.cfg, .power, .returns]) := by
    rw [d3hot_eq hp]
    exact outside_foldl (by simp [allBut])
  have hh : u.outside [.returns] = (enteringD3hot (restAbandoned s)).outside [.returns] := by simp [u]
  refine ⟨d3hot s, by simp [exec, execD3hotWrite, ha, hr], ?_⟩
  beta_reduce
  rw [same_cfg hk (by decide), same_power hk (by decide), same_returns hk (by decide), same_cfg hh (by decide), same_power hh (by decide)]
  exact ⟨by simp [enteringD3hot, restAbandoned_cfg], rfl, rfl, restAbandoned_powerState s, holdPostings_holding _⟩

/-- The part as it enters D0, with WAKE# released (R255, R256). -/
def inD0 (s : State) : State := { s with cfg := { s.cfg with powerState := 0 }, ints := { s.ints with wakeLow := false } }

theorem exec_d0Write {s : State} (ha : alive s = true) (hr : s.resets.kind = 0) : exec .d0Write s = .next (toD0 s) := by
  simp [exec, execD0Write, ha, hr]

theorem toD0_dormant {s : State} (hp : s.cfg.powerState ≠ 0) (h3 : s.power.state = 3) :
    toD0 s = if s.cfg.busMaster then drainHold (powerTo (inD0 s) s.power.back 3 true) else powerTo (inD0 s) s.power.back 3 true := by
  have hcfg : (powerTo (inD0 s) s.power.back 3 true).cfg = (inD0 s).cfg := same_cfg (ps := allBut [.cfg]) (by simp [allBut]) (by decide)
  have hb : (powerTo (inD0 s) s.power.back 3 true).cfg.busMaster = s.cfg.busMaster := by rw [hcfg]; rfl
  rw [← hb]
  unfold toD0
  rw [if_neg hp]
  simp only [h3, if_true]
  rfl

theorem toD0_waiting {s : State} (hp : s.cfg.powerState ≠ 0) (h3 : s.power.state ≠ 3) (he : s.power.entryPending = true) (hb : s.cfg.busMaster = false) :
    toD0 s = abandonEntry (inD0 s) := by
  have hcfg : (abandonEntry (inD0 s)).cfg = (inD0 s).cfg := same_cfg (ps := [.power, .daybook]) (by simp) (by decide)
  have hm : (abandonEntry (inD0 s)).cfg.busMaster = false := by rw [hcfg]; exact hb
  unfold toD0
  rw [if_neg hp]
  simp only [h3, he, if_true, if_false]
  exact if_neg (by simpa [inD0] using hm)

/-- The end of the hold leaves WAKE# as it is (R250). -/
theorem drainHold_wakeLow (s : State) : (drainHold s).ints.wakeLow = s.ints.wakeLow := by
  have hr : (holdReleased s).ints = s.ints := same_ints (ps := allBut [.ints]) (by simp [holdReleased, allBut]) (by decide)
  rw [drainHold_eq, drainEnd'_eq, ← hr]
  split
  · unfold lettersOut
    dsimp only
    refine (congrArg Interrupts.wakeLow (sendMessages_still _ _)).trans ?_
    show ((List.range _).foldl writeCredit _).ints.wakeLow = _
    rw [same_ints (ps := [.wickets, .link, .hostMem]) (outside_foldl (by simp)) (by decide)]
  · rfl

theorem drainHold_returns {s : State} (hb : s.cfg.busMaster = true) : (drainHold s).returns.holding = false ∧ (drainHold s).returns.hold = [] := by
  obtain ⟨hh, -, hl, -⟩ := holdReleased_returns hb
  rw [drainHold_eq]
  rcases drainEnd'_returns (holdReleased s) with hr | ⟨hr, -⟩ <;> rw [hr] <;> exact ⟨hh, hl⟩

theorem drainHold_cfg_power (s : State) : (drainHold s).cfg = s.cfg ∧ (drainHold s).power = s.power := by
  have h : (drainHold s).outside (allBut [.cfg, .power]) = s.outside (allBut [.cfg, .power]) := by simp [allBut]
  exact ⟨same_cfg h (by decide), same_power h (by decide)⟩

theorem runs_d0Write_dormant {s : State} (ha : alive s = true) (hr : s.resets.kind = 0) (hp : s.cfg.powerState ≠ 0) (h3 : s.power.state = 3) :
    Runs .d0Write s (fun t => t.cfg.powerState = 0 ∧ t.power.state = s.power.back ∧ t.ints.wakeLow = false ∧ (s.cfg.busMaster = true → t.returns.holding = false ∧ t.returns.hold = [])) := by
  have hcfg : (powerTo (inD0 s) s.power.back 3 true).cfg = { s.cfg with powerState := 0 } := same_cfg (s := inD0 s) (ps := allBut [.cfg]) (by simp [allBut]) (by decide)
  have hwake : (powerTo (inD0 s) s.power.back 3 true).ints.wakeLow = false := powerTo_wakeLow _ _ _ _
  refine ⟨_, exec_d0Write ha hr, ?_⟩
  rw [toD0_dormant hp h3]
  split
  case isTrue hb =>
    obtain ⟨hc, hpow⟩ := drainHold_cfg_power (powerTo (inD0 s) s.power.back 3 true)
    refine ⟨by rw [hc, hcfg], by rw [hpow, powerTo_state], by rw [drainHold_wakeLow, hwake], fun _ => drainHold_returns ?_⟩
    rw [hcfg]
    exact hb
  case isFalse hb => exact ⟨by rw [hcfg], powerTo_state _ _ _ _, hwake, fun h => absurd h hb⟩

theorem runs_d0Write_waiting {s : State} (ha : alive s = true) (hr : s.resets.kind = 0) (hp : s.cfg.powerState ≠ 0) (h3 : s.power.state ≠ 3) (he : s.power.entryPending = true)
    (hb : s.cfg.busMaster = false) :
    Runs .d0Write s (fun t => t.cfg.powerState = 0 ∧ t.power.state = s.power.state ∧ t.power.entryPending = false ∧ t.power.target = s.power.state ∧ t.returns = s.returns) := by
  refine ⟨_, exec_d0Write ha hr, ?_⟩
  have hk : (abandonEntry (inD0 s)).outside [.power, .daybook] = (inD0 s).outside [.power, .daybook] := by simp
  beta_reduce
  rw [toD0_waiting hp h3 he hb, same_cfg hk (by decide), same_returns hk (by decide), abandonEntry_power]
  exact ⟨rfl, rfl, rfl, rfl, rfl⟩

/-! ### Entries at a boundary (R252, R254, R287) -/

/-- The state whose entry into Dormant is made: the state to return to and the operating time are kept (R254, R408). -/
def dormantTaken (s : State) : State :=
  { s with power := { s.power with back := s.power.state, entryPending := false }, mgmt := { s.mgmt with opStored := s.mgmt.opMs } }

theorem runs_dormantEntry {s : State} (hc : s.clock.cycle = 0) (hd : dormantReady s = true) :
    Runs .dormantEntry s (fun t => t.power.state = 3 ∧ t.power.back = s.power.state ∧ t.power.entryPending = false ∧ t.power.eventClose = s.now ∧ t.mgmt.opStored = s.mgmt.opMs ∧
      t.ints.cause = s.ints.cause ||| BitVec.ofNat 10 (2 ^ 7)) := by
  have hne : 3 ≠ (dormantTaken s).power.state := by
    simp only [dormantReady, Bool.and_eq_true, decide_eq_true_eq] at hd
    obtain ⟨⟨⟨-, hne⟩, -⟩, -⟩ := hd
    exact Ne.symm hne
  have hmgmt : (powerTo (dormantTaken s) 3 7 true).mgmt = (dormantTaken s).mgmt := same_mgmt (ps := allBut [.mgmt]) (by simp [allBut]) (by decide)
  refine ⟨powerTo (dormantTaken s) 3 7 true, by simp only [exec, execDormantEntry, hc, dormantBoundary, hd, if_true]; rfl, ?_⟩
  beta_reduce
  rw [powerTo_power hne, hmgmt, powerTo_signal 7 hne]
  refine ⟨rfl, rfl, rfl, rfl, rfl, ?_⟩
  obtain ⟨-, hcause, -⟩ := mgmtCause_sourceBits (powerSet (dormantTaken s) 3 7) 7
  rw [hcause, powerSet_ints]
  rfl

theorem findCmd_tag {s : State} {tag : Nat} {c : Cmd} (h : findCmd s tag = some c) : c.hdr.tag = tag := by
  simpa using List.find?_some h

theorem findCmd_finishAt {s : State} {tag : Nat} {c : Cmd} (b status detail : Nat) (result : List Byte) (h : findCmd s tag = some c) :
    findCmd (finishAt s tag b status detail result) tag = some { c with phase := .due b, status, detail, result } := by
  rw [finishAt, findCmd_modCmd, h]
  · rfl
  · exact fun _ => rfl

/-- The state whose entry into Rest is made. -/
def restTaken (s : State) : State := { s with power := { s.power with entryTag := none, entryPending := false } }

/-- An entry into Rest whose conditions hold is made (R252, R287). -/
theorem restBoundary_ready {s : State} {tag : Nat} {c : Cmd} (ht : s.power.entryTag = some tag) (hc : findCmd s tag = some c) (hr : restReady s tag = true) :
    restBoundary s = finishAt (powerTo (restTaken s) 2 1 false) tag s.now 0 0 (natLe 1 2) := by
  have hclock : (powerTo (restTaken s) 2 1 false).clock = s.clock := same_clock (s := restTaken s) (ps := allBut [.clock]) (by simp [allBut]) (by decide)
  have hnow : (powerTo (restTaken s) 2 1 false).now = s.now := congrArg Clock.close hclock
  rw [← hnow]
  simp only [restBoundary, ht, Option.bind_some, hc, findCmd_tag hc, hr, if_true]
  rfl

theorem runs_restEntry {tag : Nat} {c : Cmd} {s : State} (hcyc : s.clock.cycle = 0) (ht : s.power.entryTag = some tag) (hc : findCmd s tag = some c) (hr : restReady s tag = true) :
    Runs .restEntry s (fun t => t.power.state = 2 ∧ t.power.entryTag = none ∧ t.power.entryPending = false ∧
      findCmd t tag = some { c with phase := .due s.now, status := 0, detail := 0, result := natLe 1 2 }) := by
  have hcmds : (powerTo (restTaken s) 2 1 false).cmds = s.cmds := same_cmds (s := restTaken s) (ps := allBut [.cmds]) (by simp [allBut]) (by decide)
  obtain ⟨htag, hpend, -⟩ := powerTo_entry (restTaken s) 2 1 false
  refine ⟨finishAt (powerTo (restTaken s) 2 1 false) tag s.now 0 0 (natLe 1 2), ?_, powerTo_state _ _ _ _, htag, hpend, findCmd_finishAt _ _ _ _ ?_⟩
  · simp only [exec, execRestEntry, hcyc, ht, Option.any_some, hr, restBoundary_ready ht hc hr]
    rfl
  rw [findCmd, hcmds]
  exact hc

/-- An entry into Rest whose deadline has ended is abandoned (R287). -/
theorem restBoundary_expired {s : State} {tag : Nat} {c : Cmd} (ht : s.power.entryTag = some tag) (hc : findCmd s tag = some c) (hr : restReady s tag = false) (hn : c.named < s.now) :
    restBoundary s = abandonEntry (finishAt s tag s.now 0x61 1 (natLe 1 s.power.state)) := by
  simp [restBoundary, supersede', ht, hc, findCmd_tag hc, hr, hn]

theorem runs_entryDeadlineExpiry {tag : Nat} {c : Cmd} {s : State} (hcyc : s.clock.cycle = 0) (ht : s.power.entryTag = some tag) (hc : findCmd s tag = some c)
    (hr : restReady s tag = false) (hn : c.named < s.now) :
    Runs .entryDeadlineExpiry s (fun t => t.power.state = s.power.state ∧ t.power.entryTag = none ∧ t.power.entryPending = false ∧ t.power.exitCause = 6 ∧
      findCmd t tag = some { c with phase := .due s.now, status := 0x61, detail := 1, result := natLe 1 s.power.state }) := by
  let u := finishAt s tag s.now 0x61 1 (natLe 1 s.power.state)
  have hcmds : (abandonEntry u).cmds = u.cmds := same_cmds (ps := [.power, .daybook]) (by simp) (by decide)
  refine ⟨abandonEntry u, by simp [exec, execEntryDeadlineExpiry, hcyc, restBoundary_expired ht hc hr hn, u], ?_⟩
  beta_reduce
  rw [abandonEntry_power, findCmd, hcmds]
  exact ⟨rfl, rfl, rfl, rfl, findCmd_finishAt _ _ _ _ hc⟩

/-! ### Wake causes and the link (R227, R228, R256, R257) -/

theorem runs_wakeSensor {s : State} (h3 : s.power.state = 3) (hs : sensorAlarm s = true) :
    Runs (.wakeCause .sensor) s (fun t => t.ints.wake = s.ints.wake ||| 2 ∧ t.ints.wakeClose = s.now ∧ t.cfg.pmeStatus = (s.cfg.pmeStatus || s.cfg.pmeEn) ∧ OnlyIn [.ints, .cfg] s t) := by
  refine ⟨_, by simp only [exec, execWakeCause, hs, wakeUp, h3, if_true]; rfl, rfl, rfl, rfl, by simp [OnlyIn]⟩

theorem runs_wakeLedger {s : State} (h3 : s.power.state = 3) (hr : s.ledger.refuse = true) :
    Runs (.wakeCause .ledger) s (fun t => t.ints.wake = s.ints.wake ||| 4 ∧ OnlyIn [.ints, .cfg] s t) := by
  refine ⟨_, by simp only [exec, execWakeCause, hr, wakeUp, h3, if_true]; rfl, rfl, by simp [OnlyIn]⟩

theorem runs_wakeTally {s : State} (h3 : s.power.state = 3) (hm : 0 < s.pair.chain.misses) :
    Runs (.wakeCause .tally) s (fun t => t.ints.wake = s.ints.wake ||| 1 ∧ OnlyIn [.ints, .cfg] s t) := by
  refine ⟨_, by simp only [exec, execWakeCause, hm, wakeUp, h3]; rfl, rfl, by simp [OnlyIn]⟩

theorem exec_wakeCause_awake {s : State} (c : WakeCause) (h3 : s.power.state ≠ 3) : exec (.wakeCause c) s = .next s := by
  have hw : ∀ n, wakeUp s n = s := fun n => if_pos h3
  cases c <;> simp [exec, execWakeCause, hw]

theorem exec_linkUp {rate width : Nat} {flit : Bool} {s : State} (ha : alive s = true) (ht : s.link.training = true) (h1 : 1 ≤ rate) (h6 : rate ≤ 6) (hr : rate ≤ linkRate s)
    (hw : width ∈ [1, 2, 4, 8]) (hwl : width ≤ linkWidth s) (hf : flit = decide (rate = 6)) :
    exec (.linkUp rate width flit) s = .next { s with link := { s.link with training := false, up := true, rate, width, flit, aspm := 0, ltr := 0 } } := by
  have hw' : [1, 2, 4, 8].contains width = true := by simpa using hw
  simp only [exec, execLinkUp, hw', ha, ht]
  refine congrArg Host.Outcome.next (if_pos ?_)
  simp only [Nat.le_min, h1, h6, hr, hwl, hf]
  by_cases h : rate = 6 <;> simp [h]

/-- Settles O26: the device state by `powerTo`, each entry by its boundary, wake causes and the link from their conditions. -/
theorem powerStates : Obligations.PowerStates := by
  refine ⟨⟨fun _ => runs_d3hotWrite, fun _ => runs_d0Write_dormant, fun _ => runs_d0Write_waiting⟩,
    ⟨fun _ => runs_dormantEntry, fun _ _ _ => runs_restEntry, fun _ _ _ => runs_entryDeadlineExpiry⟩,
    ⟨fun _ => runs_wakeSensor, fun _ => runs_wakeLedger, fun _ => runs_wakeTally, fun c _ => exec_wakeCause_awake c, fun idle s ha hu hf hl hi => ?_, fun idle deep s hl => ?_⟩,
    fun s ha hu hs => ?_, fun s hs => ?_, fun rate width s ha ht h1 h6 hr hw hwl => ?_, fun width s ha ht hr hw hwl => ?_, fun rate width flit s h => ?_⟩
  · simp [exec, execAspmL1Entry, ha, hu, hf, hl, hi]
  · simp [exec, execAspmL1Entry, hl]
  · simp [exec, execLinkTrainingRelease, ha, hu, hs]
  · simp [exec, execLinkTrainingRelease, Nat.not_le.mpr hs]
  · exact exec_linkUp ha ht h1 h6.le hr hw hwl (by simp [h6.ne])
  · exact exec_linkUp ha ht (by decide) le_rfl hr hw hwl rfl
  · have hno : (decide (rate ≤ min 6 (linkRate s)) && decide (width ≤ linkWidth s)) = false := by
      simp only [Bool.and_eq_false_iff, decide_eq_false_iff_not]
      omega
    simp only [exec, execLinkUp]
    refine congrArg Host.Outcome.next (if_neg fun hok => ?_)
    simp only [Bool.and_eq_true, decide_eq_true_eq] at hok
    omega

end Sys2Proof.Machine
end

section
namespace Sys2Proof.Machine

/-! ## A pair starts up (O50) -/

/-! ### Roles, records and the registry's commands -/

/-- CHN_PAIR with a role and a mode; the close of the event moves where either changes. -/
def Pair.inRole (p : Pair) (role mode now : Nat) : Pair :=
  { p with role, mode, eventClose := if role = p.role ∧ mode = p.mode then p.eventClose else now }

theorem setPair_pair (s : State) (role mode : Nat) (alert : Bool) : (setPair s role mode alert).pair = s.pair.inRole role mode s.now := by
  by_cases h : role = s.pair.role ∧ mode = s.pair.mode
  · obtain ⟨hr, hm⟩ := h
    simp [setPair, Pair.inRole, hr, hm]
  · have hb : ¬ (decide (role = s.pair.role) && decide (mode = s.pair.mode)) = true := by simpa using h
    unfold setPair
    rw [if_neg hb]
    refine (same_pair (s := { s with pair := { s.pair with role, mode, eventClose := s.now } }) (ps := [.ints, .link, .daybook, .hostMem]) ?_ (by decide)).trans ?_
    · dsimp only
      split <;> simp
    · simp only [Pair.inRole, if_neg h]

theorem setPair_ledger (s : State) (role mode : Nat) (alert : Bool) : (setPair s role mode alert).ledger = s.ledger :=
  same_ledger (ps := [.ints, .link, .pair, .daybook, .hostMem]) (by simp) (by decide)

theorem toRegistry_pair (s : State) (ks : List Nat) (op : MemberOp) : (toRegistry s ks op).pair = s.pair := same_pair (ps := [.drives]) (by simp) (by decide)

theorem startRecord_pair (s : State) (ks : List Nat) (other : Bool) (purpose : Nat) :
    (startRecord s ks other purpose).pair = { s.pair with recordPending := some (ownRecord s other), recordAt := [], record := false, recordFor := purpose } := by
  simp only [startRecord, toRegistry_pair]
  rfl

theorem becomeActive_pair (s : State) (partnerCurrent : Bool) : (becomeActive s partnerCurrent).pair = ({ s.pair with current := true } : Pair).inRole 1 0 s.now :=
  setPair_pair _ _ _ _

theorem becomeActive_ledger (s : State) (partnerCurrent : Bool) : (becomeActive s partnerCurrent).ledger = { s.ledger with mode := if partnerCurrent then 1 else 3 } :=
  setPair_ledger _ _ _ _

theorem becomeStandby_pair (s : State) (cur alert : Bool) : (becomeStandby s cur alert).pair = ({ s.pair with current := cur } : Pair).inRole 2 0 s.now :=
  setPair_pair _ _ _ _

theorem becomeStandby_ledger (s : State) (cur alert : Bool) : (becomeStandby s cur alert).ledger = { s.ledger with mode := 2, resyncLeft := [], resyncTotal := 0 } :=
  setPair_ledger _ _ _ _

/-- The record that an Active unit writes is the one it would have written before it took the role. -/
theorem ownRecord_becomeActive (s : State) (partnerCurrent other : Bool) : ownRecord (becomeActive s partnerCurrent) other = ownRecord s other := by
  have hk : (becomeActive s partnerCurrent).outside [.ledger, .ints, .link, .pair, .daybook, .hostMem] = s.outside [.ledger, .ints, .link, .pair, .daybook, .hostMem] := by simp
  simp only [ownRecord, State.now, same_fuses hk (by decide), same_clock hk (by decide), becomeActive_pair]
  rfl

/-! ### PAIR_NEGOTIATION (R387) -/

/-- The role that the record in force gives, or the charter's preference where there is none (R387). -/
def roleTaken (s : State) : State :=
  match s.pair.witness.filter (fun w => w.owner ≠ 0) with
  | some w =>
    if w.owner = s.fuses.serial then becomeActive s (w.otherCurrent && s.pair.negotiated.any (fun n => n.current))
    else becomeStandby s (w.otherCurrent && !s.chip.ledgerLost) false
  | none => if preferred s then startRecord (becomeActive s false) (allPositions s) false 3 else becomeStandby s false false

theorem exec_pairNegotiation {s : State} (h8 : s.chip.step = 8) (h1 : s.pair.mode = 1) (hp : partnerPresent s = true) :
    exec .pairNegotiation s = .next (toStep (roleTaken s) 9) := by
  simp only [exec, execPairNegotiation, negotiation, h8, h1, hp]
  rfl

theorem roleTaken_recorded {s : State} {w : Witness} (hw : s.pair.witness = some w) (h0 : w.owner ≠ 0) :
    roleTaken s = if w.owner = s.fuses.serial then becomeActive s (w.otherCurrent && s.pair.negotiated.any (fun n => n.current))
      else becomeStandby s (w.otherCurrent && !s.chip.ledgerLost) false := by
  have hf : s.pair.witness.filter (fun w => w.owner ≠ 0) = some w := by simp [hw, h0]
  simp only [roleTaken, hf]

theorem roleTaken_unrecorded {s : State} (hw : s.pair.witness = none) :
    roleTaken s = if preferred s then startRecord (becomeActive s false) (allPositions s) false 3 else becomeStandby s false false := by
  simp only [roleTaken, hw, Option.filter_none]

theorem runs_pairNegotiation_owner {s : State} {w : Witness} (h8 : s.chip.step = 8) (h1 : s.pair.mode = 1) (hp : partnerPresent s = true) (hw : s.pair.witness = some w)
    (h0 : w.owner ≠ 0) (ho : w.owner = s.fuses.serial) :
    Runs .pairNegotiation s (fun t => t.chip.step = 9 ∧ t.pair.role = 1 ∧ t.pair.mode = 0 ∧ t.pair.current = true ∧
      t.ledger.mode = (if w.otherCurrent && s.pair.negotiated.any (fun n => n.current) then 1 else 3)) := by
  refine ⟨_, exec_pairNegotiation h8 h1 hp, rfl, ?_⟩
  rw [roleTaken_recorded hw h0, if_pos ho]
  simp only [toStep, becomeActive_pair, becomeActive_ledger]
  exact ⟨rfl, rfl, rfl, trivial⟩

theorem runs_pairNegotiation_other {s : State} {w : Witness} (h8 : s.chip.step = 8) (h1 : s.pair.mode = 1) (hp : partnerPresent s = true) (hw : s.pair.witness = some w)
    (h0 : w.owner ≠ 0) (ho : w.owner ≠ s.fuses.serial) :
    Runs .pairNegotiation s (fun t => t.chip.step = 9 ∧ t.pair.role = 2 ∧ t.pair.mode = 0 ∧ t.pair.current = (w.otherCurrent && !s.chip.ledgerLost) ∧ t.ledger.mode = 2) := by
  refine ⟨_, exec_pairNegotiation h8 h1 hp, rfl, ?_⟩
  rw [roleTaken_recorded hw h0, if_neg ho]
  simp only [toStep, becomeStandby_pair, becomeStandby_ledger]
  exact ⟨rfl, rfl, rfl, trivial⟩

theorem runs_pairNegotiation_preferred {s : State} (h8 : s.chip.step = 8) (h1 : s.pair.mode = 1) (hp : partnerPresent s = true) (hw : s.pair.witness = none) (hpref : preferred s = true) :
    Runs .pairNegotiation s (fun t => t.chip.step = 9 ∧ t.pair.role = 1 ∧ t.pair.mode = 0 ∧ t.pair.current = true ∧ t.ledger.mode = 3 ∧ t.pair.recordPending = some (ownRecord s false)) := by
  have hl : ∀ (u : State) ks, (startRecord u ks false 3).ledger = u.ledger := fun u ks => same_ledger (ps := [.drives, .pair]) (by simp) (by decide)
  refine ⟨_, exec_pairNegotiation h8 h1 hp, rfl, ?_⟩
  rw [roleTaken_unrecorded hw, if_pos hpref]
  simp only [toStep, startRecord_pair, ownRecord_becomeActive, becomeActive_pair, hl, becomeActive_ledger]
  exact ⟨rfl, rfl, rfl, rfl, trivial⟩

theorem runs_pairNegotiation_unpreferred {s : State} (h8 : s.chip.step = 8) (h1 : s.pair.mode = 1) (hp : partnerPresent s = true) (hw : s.pair.witness = none) (hpref : preferred s = false) :
    Runs .pairNegotiation s (fun t => t.chip.step = 9 ∧ t.pair.role = 2 ∧ t.pair.mode = 0 ∧ t.pair.current = false ∧ t.ledger.mode = 2) := by
  refine ⟨_, exec_pairNegotiation h8 h1 hp, rfl, ?_⟩
  rw [roleTaken_unrecorded hw, if_neg (by simp [hpref])]
  simp only [toStep, becomeStandby_pair, becomeStandby_ledger]
  exact ⟨rfl, rfl, rfl, trivial⟩

/-! ### NEGOTIATION_WAIT_EXPIRY (R31, R391) -/

/-- The condition under which the wait for the partner is over (R31). -/
def waitOver (s : State) : Prop := s.chip.chainAbsent = true ∨ s.chip.stepClose + s.ch (·.negotiationWait) 1250000 ≤ s.now

theorem exec_negotiationWaitExpiry {s : State} (h8 : s.chip.step = 8) (h1 : s.pair.mode = 1) (hw : waitOver s) :
    exec .negotiationWaitExpiry s = .next (if s.pair.current then contend s else toStep (mgmtCause (becomeStandby s false true) 2) 9) := by
  have hw' : (s.chip.chainAbsent || decide (s.chip.stepClose + s.ch (·.negotiationWait) 1250000 ≤ s.now)) = true := by
    simpa [waitOver] using hw
  simp only [exec, execNegotiationWaitExpiry, h8, h1, hw']
  rfl

/-- The running audit is over, with result Abandoned (R397). -/
def auditAbandoned (s : State) : State :=
  let r := s.pair.run
  { s with pair := { s.pair with
    audits := inc 0xFFFF s.pair.audits
    run := { seq := r.seq }
    lastAudit := some ⟨r.seq, r.mark, s.now - r.mark, r.records, b1 r.volume.isSome, 2, r.volume.getD 0, false, 0, []⟩ } }

theorem abandonAudit_eq (s : State) :
    abandonAudit s = if !s.pair.run.running then s else match s.pair.run.tag with
      | none => auditAbandoned s
      | some t => let f := takeFree (auditAbandoned s); finish f.1 t (fld f.2.toNat 7 0) (fld f.2.toNat 15 8) [] := by
  unfold abandonAudit
  rfl

/-- The end of an audit leaves the role and the rounds of arbitration. -/
theorem abandonAudit_pair (s : State) : (abandonAudit s).pair.role = s.pair.role ∧ (abandonAudit s).pair.rounds = s.pair.rounds := by
  rw [abandonAudit_eq]
  split
  · exact ⟨rfl, rfl⟩
  · split
    · exact ⟨rfl, rfl⟩
    · dsimp only
      rw [same_pair (s := auditAbandoned s) (ps := [.cmds, .returns, .free]) (by simp) (by decide)]
      exact ⟨rfl, rfl⟩

theorem abandonAudit_now (s : State) : (abandonAudit s).now = s.now :=
  congrArg Clock.close (same_clock (ps := [.cmds, .returns, .pair, .free]) (by simp) (by decide))

/-- The unit fences itself and holds intake; what a new round of arbitration starts from (R391). -/
def fencedForRound (s : State) : State :=
  { s with pair := { s.pair with
    fenced := true, intakeHeld := true, won := [], lost := [], record := false, recordPending := none
    rounds := inc 0xFFFF s.pair.rounds, declared := s.now, heldSince := 0, resumeDue := false } }

theorem contend_eq (s : State) :
    let u := fencedForRound (abandonAudit s)
    contend s = wakeUp (toRegistry (setPair u u.pair.role 2 false) (allPositions u) .preempt) 0 := rfl

theorem contend_pair (s : State) : (contend s).pair = (fencedForRound (abandonAudit s)).pair.inRole s.pair.role 2 s.now := by
  have hrole : (fencedForRound (abandonAudit s)).pair.role = s.pair.role := (abandonAudit_pair s).1
  rw [contend_eq, same_pair (ps := [.ints, .cfg]) (wakeUp_outside _ _ (by decide) (by decide)) (by decide), toRegistry_pair, setPair_pair, hrole]
  exact congrArg _ (abandonAudit_now s)

theorem runs_negotiationWaitExpiry_current {s : State} (h8 : s.chip.step = 8) (h1 : s.pair.mode = 1) (hw : waitOver s) (hc : s.pair.current = true) :
    Runs .negotiationWaitExpiry s (fun t => t.chip = s.chip ∧ t.pair.mode = 2 ∧ t.pair.role = s.pair.role ∧ t.pair.fenced = true ∧ t.pair.intakeHeld = true ∧
      t.pair.rounds = inc 0xFFFF s.pair.rounds ∧ t.pair.declared = s.now) := by
  refine ⟨contend s, by rw [exec_negotiationWaitExpiry h8 h1 hw, if_pos hc], same_chip (ps := allBut [.chip]) (by simp [allBut]) (by decide), ?_⟩
  rw [contend_pair]
  exact ⟨rfl, rfl, rfl, rfl, congrArg (inc 0xFFFF) (abandonAudit_pair s).2, abandonAudit_now s⟩

theorem runs_negotiationWaitExpiry_standby {s : State} (h8 : s.chip.step = 8) (h1 : s.pair.mode = 1) (hw : waitOver s) (hc : s.pair.current = false) :
    Runs .negotiationWaitExpiry s (fun t => t.chip.step = 9 ∧ t.pair.role = 2 ∧ t.pair.mode = 0 ∧ t.pair.current = false ∧ t.ledger.mode = 2 ∧ t.ints.cause.getLsbD 2 = true) := by
  have hk : (mgmtCause (becomeStandby s false true) 2).outside [.ints, .link, .hostMem] = (becomeStandby s false true).outside [.ints, .link, .hostMem] := by simp
  obtain ⟨-, hcause, -⟩ := mgmtCause_sourceBits (becomeStandby s false true) 2
  refine ⟨_, by rw [exec_negotiationWaitExpiry h8 h1 hw, if_neg (by simp [hc])], rfl, ?_⟩
  simp only [toStep, same_pair hk (by decide), same_ledger hk (by decide), becomeStandby_pair, becomeStandby_ledger, hcause]
  exact ⟨rfl, rfl, rfl, trivial, by simp⟩

/-! ### NEGOTIATE (R381, R387) -/

theorem exec_negotiate {n : NegotiateMsg} {s : State} (hp : isPair s = true) (hn : n.serial = partnerSerial s) :
    exec (.negotiate n) s = .next (if s.chip.step = 15 then sendNegotiate { s with pair := { s.pair with negotiated := some n, partnerSeen := true } }
      else { s with pair := { s.pair with negotiated := some n, partnerSeen := true } }) := by
  simp only [exec, execNegotiate, negotiateArrives, hp, hn]
  rfl

/-- Settles O50: the role at step 8 by `roleTaken`, the end of the wait by `contend` or `becomeStandby`. -/
theorem pairStartsUp : Obligations.PairStartsUp := by
  refine ⟨fun _ _ => runs_pairNegotiation_owner, fun _ _ => runs_pairNegotiation_other, fun _ => runs_pairNegotiation_preferred, fun _ => runs_pairNegotiation_unpreferred,
    fun s hp => ?_, fun _ => runs_negotiationWaitExpiry_current, fun _ => runs_negotiationWaitExpiry_standby,
    fun n s hp hn h => ?_, fun n s hp hn h => ⟨_, by rw [exec_negotiate hp hn, if_pos h], rfl, _, rfl, rfl⟩, fun n s hn => ?_⟩
  · simp [exec, execPairNegotiation, negotiation, hp]
  · rw [exec_negotiate hp hn, if_neg h]
  · simp [exec, execNegotiate, negotiateArrives, hn]

end Sys2Proof.Machine
end

section
namespace Sys2Proof.Machine

/-! ## Fuses, flash, DRAM rows, the clock and the test port (O57) -/

/-! ### Key fuses (R426) -/

theorem exec_fuseProgram {s : State} (good : Bool) (hp : powered s = true) (hb : s.fuses.busy = false) (ha : s.fuses.arm = 0x4B52) :
    let u : State := { s with fuses := { s.fuses with op := 1, arm := 0 } }
    let n := s.fuses.entry % 4
    exec (.fuseProgram good) s = .next (if !inRecovery s then fuseRefused u 2
      else if s.fuses.keyProgrammed.getLsbD n || s.fuses.keyRevoked.getLsbD n then fuseRefused u 3 else programKey u n good) := by
  simp only [exec, execFuseProgram, startFuse, hp, hb, ha]
  rfl

theorem exec_fuseRevoke {s : State} (hp : powered s = true) (hb : s.fuses.busy = false) (ha : s.fuses.arm = 0x4B52) :
    let u : State := { s with fuses := { s.fuses with op := 2, arm := 0 } }
    let n := s.fuses.entry % 4
    exec .fuseRevoke s = .next (if inRecovery s then revokeKey u n
      else if s.chip.step = 15 then (if s.ch (·.keyIndex) 0 = n then fuseRefused u 5 else revokeKey u n) else fuseRefused u 2) := by
  simp only [exec, execFuseRevoke, startFuse, hp, hb, ha]
  rfl

theorem exec_fuseProgram_unarmed {s : State} (good : Bool) (hp : powered s = true) (hb : s.fuses.busy = false) (ha : s.fuses.arm ≠ 0x4B52) :
    exec (.fuseProgram good) s = .next { s with fuses := { s.fuses with op := 1, arm := 0, result := 1, go := false } } := by
  simp [exec, execFuseProgram, startFuse, hp, hb, ha, fuseRefused]

theorem getLsbD_or_bit (a : BitVec 4) {n : Nat} (h : n < 4) : (a ||| BitVec.ofNat 4 (2 ^ n)).getLsbD n = true := by
  simp only [BitVec.getLsbD_or, BitVec.getLsbD_ofNat, h, decide_true, Nat.testBit_two_pow_self, Bool.and_self, Bool.or_true]

theorem runs_fuseProgram {s : State} (hp : powered s = true) (hb : s.fuses.busy = false) (ha : s.fuses.arm = 0x4B52) (hr : inRecovery s = true) (he : s.fuses.entry < 4)
    (hk : s.fuses.keyProgrammed.getLsbD s.fuses.entry = false) (hv : s.fuses.keyRevoked.getLsbD s.fuses.entry = false) :
    Runs (.fuseProgram true) s (fun t => tget [] t.fuses.keys s.fuses.entry = s.fuses.digest ∧ t.fuses.keyProgrammed.getLsbD s.fuses.entry = true ∧ t.fuses.keyRevoked = s.fuses.keyRevoked ∧
      t.fuses.busy = true ∧ t.fuses.nextResult = 0 ∧ t.fuses.arm = 0 ∧ OnlyIn [.fuses] s t) := by
  have hn : s.fuses.entry % 4 = s.fuses.entry := Nat.mod_eq_of_lt he
  refine ⟨_, exec_fuseProgram true hp hb ha, ?_⟩
  rw [hn, hr, hk, hv]
  exact ⟨tget_tset_same _ _ _ _, getLsbD_or_bit _ he, rfl, rfl, rfl, rfl, rfl⟩

theorem runs_fuseRevoke {s : State} (hp : powered s = true) (hb : s.fuses.busy = false) (ha : s.fuses.arm = 0x4B52) (hr : inRecovery s = true) (he : s.fuses.entry < 4) :
    Runs .fuseRevoke s (fun t => t.fuses.keyRevoked.getLsbD s.fuses.entry = true ∧ t.fuses.keyProgrammed = s.fuses.keyProgrammed ∧ t.fuses.busy = true ∧ OnlyIn [.fuses] s t) := by
  have hn : s.fuses.entry % 4 = s.fuses.entry := Nat.mod_eq_of_lt he
  refine ⟨_, exec_fuseRevoke hp hb ha, ?_⟩
  rw [hn, hr]
  exact ⟨getLsbD_or_bit _ he, rfl, rfl, rfl⟩

/-! ### Anti-rollback counters and retirement fuses (R27, R460) -/

theorem le_thermometer (blown : List Nat) (fuel n : Nat) : n ≤ thermometer blown fuel n := by
  induction fuel generalizing n with
  | zero => exact Nat.le_refl n
  | succ fuel ih =>
    unfold thermometer
    split
    · exact (Nat.le_succ n).trans (ih _)
    · exact Nat.le_refl n

theorem thermometer_mono {l m : List Nat} (h : ∀ k ∈ l, k ∈ m) (fuel n : Nat) : thermometer l fuel n ≤ thermometer m fuel n := by
  induction fuel generalizing n with
  | zero => exact Nat.le_refl n
  | succ fuel ih =>
    by_cases hn : n ∈ l
    · simpa [thermometer, hn, h n hn] using ih (n + 1)
    · have hl : thermometer l (fuel + 1) n = n := if_neg (by simpa using hn)
      rw [hl]
      exact le_thermometer m _ n

/-- A thermometer whose fuses below a target are blown reads at least the target. -/
theorem le_thermometer_of_blown {l : List Nat} {target : Nat} (h : ∀ k < target, k ∈ l) (fuel n : Nat) (hf : target ≤ n + fuel) : target ≤ thermometer l fuel n := by
  induction fuel generalizing n with
  | zero => exact hf
  | succ fuel ih =>
    by_cases hn : n < target
    · unfold thermometer
      rw [if_pos (by simpa using h n hn)]
      exact ih (n + 1) (by omega)
    · exact (Nat.not_lt.mp hn).trans (le_thermometer l _ n)

theorem mem_eraseDups_range {l : List Nat} {k target : Nat} (h : k < target) : k ∈ (l ++ List.range target).eraseDups := by
  simp [List.mem_eraseDups, h]

theorem counter_le_of_noneLost {s t : State} (h : s.fuses.noneLost t.fuses) : counter s 0 ≤ counter t 0 ∧ counter s 1 ≤ counter t 1 := by
  obtain ⟨-, hc, hw, -⟩ := h
  exact ⟨thermometer_mono hc 64 0, thermometer_mono hw 64 0⟩

theorem advanceCounter_of_le {s : State} {kind target : Nat} (seq : Nat) (h : target ≤ counter s kind) : advanceCounter s kind target seq = s := if_pos h

/-- A counter that is advanced comes to its target (R27). -/
theorem le_counter_advanceCounter (s : State) {kind target : Nat} (seq : Nat) (ht : target ≤ 64) : target ≤ counter (advanceCounter s kind target seq) kind := by
  by_cases h : target ≤ counter s kind
  · rwa [advanceCounter_of_le seq h]
  · unfold advanceCounter
    rw [if_neg h]
    dsimp only
    unfold counter
    rw [same_fuses (fire_outside (ps := [.daybook]) _ _ _ _ _ _ (by decide)) (by decide)]
    refine le_thermometer_of_blown (fun k hlt => ?_) 64 0 (by omega)
    by_cases h0 : kind = 0 <;> simp only [h0, if_true, if_false] <;> exact mem_eraseDups_range hlt

/-- The charter's counter is advanced, and then the firmware's (R27). -/
def charterAdvanced (s : State) : State := advanceCounter s 0 (s.ch (·.secVersion) 0) (s.ch (·.seq) 0)
def bothAdvanced (s : State) : State := advanceCounter (charterAdvanced s) 1 (charterAdvanced s).chip.fwSv (charterAdvanced s).chip.fwSeq

theorem charterAdvanced_chip (s : State) : (charterAdvanced s).chip = s.chip := same_chip (ps := [.fuses, .daybook]) (by simp [charterAdvanced]) (by decide)

theorem bothAdvanced_chip (s : State) : (bothAdvanced s).chip = s.chip :=
  (same_chip (ps := [.fuses, .daybook]) (by simp [bothAdvanced]) (by decide)).trans (charterAdvanced_chip s)

theorem exec_fuseAdvance {s : State} (h15 : s.chip.step = 15) (ho : opfin s = true) (hh : s.chip.halted = false) :
    exec .fuseAdvance s = .next { bothAdvanced s with chip := { s.chip with advanceDone := true } } := by
  rw [← bothAdvanced_chip]
  exact congrArg Host.Outcome.next (if_pos (by simp [h15, ho, hh]))

theorem runs_fuseAdvance {s : State} (h15 : s.chip.step = 15) (ho : opfin s = true) (hh : s.chip.halted = false) (hsec : s.ch (·.secVersion) 0 ≤ 64) (hsv : s.chip.fwSv ≤ 64) :
    Runs .fuseAdvance s (fun t => s.ch (·.secVersion) 0 ≤ counter t 0 ∧ s.chip.fwSv ≤ counter t 1 ∧ counter s 0 ≤ counter t 0 ∧ counter s 1 ≤ counter t 1 ∧ t.chip = { s.chip with advanceDone := true } ∧
      (s.ch (·.secVersion) 0 ≤ counter s 0 → s.chip.fwSv ≤ counter s 1 → t.fuses = s.fuses)) := by
  have hsec' : s.ch (·.secVersion) 0 ≤ counter (charterAdvanced s) 0 := le_counter_advanceCounter s _ hsec
  have hsv' : s.chip.fwSv ≤ counter (bothAdvanced s) 1 := by
    rw [← charterAdvanced_chip]
    exact le_counter_advanceCounter _ _ (by rwa [charterAdvanced_chip])
  obtain ⟨hs0, hs1⟩ := counter_le_of_noneLost (advanceCounter_noneLost s 0 (s.ch (·.secVersion) 0) (s.ch (·.seq) 0))
  obtain ⟨hc0, hc1⟩ := counter_le_of_noneLost (advanceCounter_noneLost (charterAdvanced s) 1 (charterAdvanced s).chip.fwSv (charterAdvanced s).chip.fwSeq)
  refine ⟨_, exec_fuseAdvance h15 ho hh, hsec'.trans hc0, hsv', hs0.trans hc0, hs1.trans hc1, rfl, fun h0 h1 => ?_⟩
  have hc : charterAdvanced s = s := advanceCounter_of_le _ h0
  have hb : bothAdvanced s = s := by rw [bothAdvanced, hc]; exact advanceCounter_of_le _ h1
  show (bothAdvanced s).fuses = s.fuses
  rw [hb]

theorem runs_retirementFuse {e n : Nat} {s : State} (ho : opfin s = true) (hm : (e, n) ∈ s.reserves.fusePending) :
    Runs (.retirementFuse e n) s (fun t => (e, n) ∈ t.fuses.retired ∧ (e, n) ∉ t.reserves.fusePending ∧ (∀ x, x ≠ (e, n) → (x ∈ t.fuses.retired ↔ x ∈ s.fuses.retired)) ∧ OnlyIn [.fuses, .reserves] s t) := by
  refine ⟨_, congrArg Host.Outcome.next (if_pos (by simp [ho, hm])), ?_, ?_, fun x hx => ?_, rfl⟩
  · simp [List.mem_eraseDups]
  · simp
  · simp [List.mem_eraseDups, hx]

/-! ### The flash (R19) -/

theorem exec_flash_outsideRecovery {s : State} (good : Bool) (hp : powered s = true) (hb : s.flash.busy = false) (hr : inRecovery s = false) :
    exec (.flashErase good) s = .next { s with flash := { s.flash with op := 1, result := 1, go := false } } ∧
    exec (.flashProgram good) s = .next { s with flash := { s.flash with op := 2, result := 1, go := false } } ∧
    exec (.flashRead good) s = .next { s with flash := { s.flash with op := 3, result := 1, go := false } } := by
  have hr' : ∀ f, inRecovery { s with flash := f } = false := fun _ => hr
  refine ⟨?_, ?_, ?_⟩ <;> simp [exec, execFlashErase, execFlashProgram, execFlashRead, startFlash, hp, hb, hr', flashRefused]

/-- In Recovery an operation on a range of its own alignment and outside the reserved region acts at once, and BUSY lasts until its end. -/
theorem startFlash_acts {s : State} {op : Nat} (h0 : op ≠ 0) (h3 : op ≤ 3) (hp : powered s = true) (hb : s.flash.busy = false) (hr : inRecovery s = true)
    (ha : s.flash.addr % flashLen op = 0) (hl : s.flash.addr + flashLen op ≤ 0x340_0000) :
    startFlash s op true =
      let u := flashAct { s with flash := { s.flash with op } } op true
      { u with flash := { u.flash with go := true, busy := true, nextResult := 0, writing := if op = 3 then none else some (u.flash.addr, flashLen op) } } := by
  have hr' : ∀ f, inRecovery { s with flash := f } = true := fun _ => hr
  simp [startFlash, h0, Nat.not_lt.mpr h3, hp, hb, hr', ha, Nat.not_lt.mpr hl]

theorem read_filter (d : Byte) (p : Nat → Bool) (m : Cells) (a : Nat) : Memory.read d (m.filter (fun c => p c.1)) a = if p a then Memory.read d m a else d := by
  induction m with
  | nil => simp [Memory.read]
  | cons e r ih =>
    obtain ⟨k, v⟩ := e
    by_cases hk : k = a
    · subst hk
      cases hp : p k <;> simp [hp, Memory.read, ih]
    · cases hp : p k <;> simp [hp, Memory.read, hk, ih]

theorem read_append_of_absent_left (d : Byte) {l : Cells} (r : Cells) {a : Nat} (h : ∀ c ∈ l, c.1 ≠ a) : Memory.read d (l ++ r) a = Memory.read d r a := by
  induction l with
  | nil => rfl
  | cons e l ih =>
    obtain ⟨he, hl⟩ := List.forall_mem_cons.mp h
    exact (if_neg he).trans (ih hl)

theorem read_append_of_absent_right (d : Byte) (l : Cells) {r : Cells} {a : Nat} (h : ∀ c ∈ r, c.1 ≠ a) : Memory.read d (l ++ r) a = Memory.read d l a := by
  induction l with
  | nil => simpa using read_append_of_absent_left d [] h
  | cons e l ih => simp only [List.cons_append, Memory.read, ih]

/-- An erased area reads FFh, and the rest of the flash as before (R19). -/
theorem read_place_nil (d : Byte) (m : Cells) (a len x : Nat) :
    Memory.read d (Memory.place d m a len []) x = if a ≤ x ∧ x < a + len then d else Memory.read d m x := by
  have hlow := read_filter d (fun k => k < a) m x
  have hhigh := read_filter d (fun k => a + len ≤ k) m x
  simp only [Memory.place, List.filter_nil, List.map_nil, List.append_nil]
  by_cases hx : x < a
  · rw [read_append_of_absent_right d _ (fun c hc => by simp at hc; omega), hlow, if_pos (by simpa using hx), if_neg (by omega)]
  · rw [read_append_of_absent_left d _ (fun c hc => by simp at hc; omega), hhigh]
    by_cases hx' : a + len ≤ x
    · rw [if_pos (by simpa using hx'), if_neg (by omega)]
    · rw [if_neg (by simpa using hx'), if_pos (by omega)]

theorem runs_flashErase {s : State} (hp : powered s = true) (hb : s.flash.busy = false) (hr : inRecovery s = true) (ha : s.flash.addr % 65536 = 0) (hl : s.flash.addr + 65536 ≤ 0x340_0000) :
    Runs (.flashErase true) s (fun t => t.flash.busy = true ∧ t.flash.nextResult = 0 ∧
      (∀ a, Memory.read 0xFF t.flash.cells a = if s.flash.addr ≤ a ∧ a < s.flash.addr + 65536 then 0xFF else Memory.read 0xFF s.flash.cells a) ∧ OnlyIn [.flash] s t) :=
  ⟨_, congrArg Host.Outcome.next (startFlash_acts (op := 1) (by decide) (by decide) hp hb hr ha hl), rfl, rfl, read_place_nil _ _ _ _, rfl⟩

theorem runs_flashProgram {s : State} (hp : powered s = true) (hb : s.flash.busy = false) (hr : inRecovery s = true) (ha : s.flash.addr % 4096 = 0) (hl : s.flash.addr + 4096 ≤ 0x340_0000) :
    Runs (.flashProgram true) s (fun t => t.flash.busy = true ∧ t.flash.nextResult = 0 ∧ t.flash.cells = Memory.writeN 0xFF s.flash.cells s.flash.addr (Memory.readN 0 s.flash.buf 0 4096) ∧ OnlyIn [.flash] s t) :=
  ⟨_, congrArg Host.Outcome.next (startFlash_acts (op := 2) (by decide) (by decide) hp hb hr ha hl), rfl, rfl, rfl, rfl⟩

theorem runs_flashRead {s : State} (hp : powered s = true) (hb : s.flash.busy = false) (hr : inRecovery s = true) (ha : s.flash.addr % 4096 = 0) (hl : s.flash.addr + 4096 ≤ 0x340_0000) :
    Runs (.flashRead true) s (fun t => t.flash.busy = true ∧ t.flash.nextResult = 0 ∧ t.flash.cells = s.flash.cells ∧ t.flash.buf = Memory.ofBytes (flashBytes s s.flash.addr 4096) ∧ OnlyIn [.flash] s t) :=
  ⟨_, congrArg Host.Outcome.next (startFlash_acts (op := 3) (by decide) (by decide) hp hb hr ha hl), rfl, rfl, rfl, rfl, rfl⟩

theorem exec_flashErase_misaligned {s : State} (good : Bool) (hp : powered s = true) (hb : s.flash.busy = false) (hr : inRecovery s = true) (ha : s.flash.addr % 65536 ≠ 0)
    (hl : s.flash.addr + 65536 ≤ 0x340_0000) :
    exec (.flashErase good) s = .next { s with flash := { s.flash with op := 1, result := 2, go := false } } := by
  have hr' : ∀ f, inRecovery { s with flash := f } = true := fun _ => hr
  simp [exec, execFlashErase, startFlash, hp, hb, hr', flashLen, ha, Nat.not_lt.mpr hl, flashRefused]

theorem exec_flashErase_reserved {s : State} (good : Bool) (hp : powered s = true) (hb : s.flash.busy = false) (hr : inRecovery s = true) (hl : 0x340_0000 < s.flash.addr + 65536) :
    exec (.flashErase good) s = .next { s with flash := { s.flash with op := 1, result := 4, go := false } } := by
  have hr' : ∀ f, inRecovery { s with flash := f } = true := fun _ => hr
  simp [exec, execFlashErase, startFlash, hp, hb, hr', flashLen, hl, flashRefused]

/-! ### DRAM rows (R457, R458) -/

/-- The tracked rows with room for a row: its own entry, or a new one. -/
def rowsWith (s : State) (row : Nat) : List DramRow :=
  if s.reserves.rows.any (fun r => r.row = row) then s.reserves.rows else rowRoom s.reserves.rows ++ [⟨row, [], false, false⟩]

theorem mem_rowsWith (s : State) (row : Nat) : ∃ r ∈ rowsWith s row, r.row = row := by
  unfold rowsWith
  split
  case isTrue h => simpa using h
  case isFalse => exact ⟨⟨row, [], false, false⟩, by simp, rfl⟩

/-- An event of a row: counted among those of its window, and its repair due at the limit or when the error is uncorrectable. -/
def rowEvent (s : State) (correctable : Bool) (r : DramRow) : DramRow :=
  let events := recent 24 s.now r.events ++ [s.now]
  { r with events, uncorrectable := r.uncorrectable || !correctable, repairDue := r.repairDue || !correctable || s.ch (·.rowLimit) 4 ≤ events.length }

theorem exec_dramEccEvent {row : Nat} {s : State} (correctable : Bool) (hp : powered s = true) (h5 : 5 ≤ s.chip.step) (hm : row ∉ s.reserves.mappedOut) :
    exec (.dramEccEvent row correctable) s = .next { s with reserves := { s.reserves with
      rows := modIf (fun r => r.row = row) (rowEvent s correctable) (rowsWith s row)
      dramCorrected := if correctable then inc 0xFFFF s.reserves.dramCorrected else s.reserves.dramCorrected } } :=
  congrArg Host.Outcome.next (if_neg (by simp [hp, h5, hm]))

theorem mem_modIf_rowsWith (s : State) (row : Nat) (f : DramRow → DramRow) : ∃ r, r.row = row ∧ f r ∈ modIf (fun r => r.row = row) f (rowsWith s row) := by
  obtain ⟨r, hr, hrow⟩ := mem_rowsWith s row
  refine ⟨r, hrow, ?_⟩
  rw [modIf_eq_map]
  exact List.mem_map.mpr ⟨r, hr, by simp [hrow]⟩

theorem runs_dramEccEvent_corrected {row : Nat} {s : State} (hp : powered s = true) (h5 : 5 ≤ s.chip.step) (hm : row ∉ s.reserves.mappedOut) :
    Runs (.dramEccEvent row true) s (fun t => t.reserves.dramCorrected = inc 0xFFFF s.reserves.dramCorrected ∧ (∃ r ∈ t.reserves.rows, r.row = row ∧ s.now ∈ r.events) ∧ OnlyIn [.reserves] s t) := by
  obtain ⟨r, hrow, hmem⟩ := mem_modIf_rowsWith s row (rowEvent s true)
  exact ⟨_, exec_dramEccEvent true hp h5 hm, rfl, ⟨_, hmem, hrow, by simp [rowEvent]⟩, rfl⟩

theorem runs_dramEccEvent_uncorrectable {row : Nat} {s : State} (hp : powered s = true) (h5 : 5 ≤ s.chip.step) (hm : row ∉ s.reserves.mappedOut) :
    Runs (.dramEccEvent row false) s (fun t => t.reserves.dramCorrected = s.reserves.dramCorrected ∧ (∃ r ∈ t.reserves.rows, r.row = row ∧ r.repairDue = true ∧ r.uncorrectable = true)) := by
  obtain ⟨r, hrow, hmem⟩ := mem_modIf_rowsWith s row (rowEvent s false)
  exact ⟨_, exec_dramEccEvent false hp h5 hm, rfl, _, hmem, hrow, by simp [rowEvent], by simp [rowEvent]⟩

theorem fire_reserves (s : State) (kind cause arg : Nat) (detail : List Byte) (alert : Bool) : (fire s kind cause arg detail alert).reserves = s.reserves :=
  same_reserves (fire_outside (ps := [.daybook]) s kind cause arg detail alert (by decide)) (by decide)

theorem mgmtCause_reserves (s : State) (n : Nat) : (mgmtCause s n).reserves = s.reserves := same_reserves (ps := [.ints, .link, .hostMem]) (by simp) (by decide)

/-- What the reserve history leaves of the DRAM rows. -/
theorem history_rows (s : State) (element action cause physical logical : Nat) :
    let t := history s element action cause physical logical
    t.reserves.rows = s.reserves.rows ∧ t.reserves.repaired = s.reserves.repaired ∧ t.reserves.repairedCount = s.reserves.repairedCount ∧ t.reserves.mappedOut = s.reserves.mappedOut := by
  simp only [history]
  split <;> simp [mgmtCause_reserves, fire_reserves]

theorem exec_dramRowRepair {row : Nat} {r : DramRow} {s : State} (resource : Bool) (hf : s.reserves.rows.find? (fun r => r.row = row && r.repairDue) = some r) (hp : s.power.state < 2)
    (hh : s.chip.halted = false) :
    exec (.dramRowRepair row resource) s = .next (
      let cause := if r.uncorrectable then 2 else 1
      let u : State := { s with reserves := { s.reserves with rows := s.reserves.rows.filter (fun q => q.row ≠ row) } }
      if resource && s.ch (·.dramRepair) true then
        history { u with reserves := { u.reserves with repaired := (s.reserves.repaired ++ [row]).eraseDups, repairedCount := s.reserves.repairedCount + 1 } } 7 5 cause row noLogical
      else history { u with reserves := { u.reserves with mappedOut := s.reserves.mappedOut ++ [row] } } 7 6 cause row noLogical) := by
  simp only [exec, execDramRowRepair, dramRepairRow, hf, hh, Nat.not_le.mpr hp]
  rfl

theorem runs_dramRowRepair_resource {row : Nat} {r : DramRow} {s : State} (hf : s.reserves.rows.find? (fun r => r.row = row && r.repairDue) = some r) (hp : s.power.state < 2)
    (hh : s.chip.halted = false) (hd : s.ch (·.dramRepair) true = true) :
    Runs (.dramRowRepair row true) s (fun t => row ∈ t.reserves.repaired ∧ t.reserves.repairedCount = s.reserves.repairedCount + 1 ∧ t.reserves.mappedOut = s.reserves.mappedOut ∧ (∀ q ∈ t.reserves.rows, q.row ≠ row)) := by
  refine ⟨_, exec_dramRowRepair true hf hp hh, ?_⟩
  dsimp only
  rw [if_pos (by simp [hd])]
  obtain ⟨hrows, hrep, hcount, hmap⟩ := history_rows { s with reserves := { s.reserves with
    rows := s.reserves.rows.filter (fun q => q.row ≠ row), repaired := (s.reserves.repaired ++ [row]).eraseDups, repairedCount := s.reserves.repairedCount + 1 } } 7 5 (if r.uncorrectable then 2 else 1) row noLogical
  rw [hrows, hrep, hcount, hmap]
  exact ⟨by simp [List.mem_eraseDups], rfl, rfl, fun q hq => by simpa using (List.mem_filter.mp hq).2⟩

theorem runs_dramRowRepair_mappedOut {row : Nat} {r : DramRow} {s : State} (hf : s.reserves.rows.find? (fun r => r.row = row && r.repairDue) = some r) (hp : s.power.state < 2)
    (hh : s.chip.halted = false) :
    Runs (.dramRowRepair row false) s (fun t => row ∈ t.reserves.mappedOut ∧ t.reserves.repairedCount = s.reserves.repairedCount ∧ (∀ q ∈ t.reserves.rows, q.row ≠ row)) := by
  refine ⟨_, exec_dramRowRepair false hf hp hh, ?_⟩
  dsimp only
  rw [if_neg (by simp)]
  obtain ⟨hrows, -, hcount, hmap⟩ := history_rows { s with reserves := { s.reserves with
    rows := s.reserves.rows.filter (fun q => q.row ≠ row), mappedOut := s.reserves.mappedOut ++ [row] } } 7 6 (if r.uncorrectable then 2 else 1) row noLogical
  rw [hrows, hcount, hmap]
  exact ⟨by simp, rfl, fun q hq => by simpa using (List.mem_filter.mp hq).2⟩

/-! ### The clock and the test port (R54, R474, R478) -/

theorem setCloserMode_mode (s : State) (m : Nat) : (setCloserMode s m).closers.mode = m := by
  unfold setCloserMode
  split
  case isTrue h => exact h.symm
  case isFalse =>
    dsimp only
    rw [same_closers (s := { s with closers := { s.closers with mode := m } }) (ps := [.ints, .link, .hostMem]) (by simp) (by decide)]

/-- The unit stops: it fences itself, and a Failed tally goes out where it has a partner (R54). -/
def stopped (s : State) : State :=
  let sent := b1 (s.ch (·.units) 1 = 2 && 8 ≤ s.chip.step && s.chip.step ≠ 13 && s.chip.step ≠ 14)
  { s with
    chip := { s.chip with halted := true }
    wickets := { s.wickets with unitFailed := true }
    pair := { s.pair with fenced := true, sendState := 3, intakeHeld := true, tallyCount := s.pair.tallyCount + sent, hbSent := if sent = 0 then s.pair.hbSent else inc 0xFFFF s.pair.hbSent }
    closers := { s.closers with eventClose := s.now } }

theorem halt_eq {s : State} (h : s.chip.halted = false) :
    halt s = fire (setCloserMode (setAllWickets (stopped s) (fun w => { w with state := 0 })) 2) 0x03 6 0xFFFFFFFF [] true :=
  if_neg (by simp [h])

/-- A halt fences the unit and puts GEN_CLOSER.MODE to Halted (R54). -/
theorem halt_effect {s : State} (h : s.chip.halted = false) : (halt s).chip = { s.chip with halted := true } ∧ (halt s).closers.mode = 2 ∧ (halt s).pair.fenced = true := by
  have hk : (halt s).outside [.wickets, .closers, .ints, .link, .daybook, .hostMem] = (stopped s).outside [.wickets, .closers, .ints, .link, .daybook, .hostMem] := by
    rw [halt_eq h]
    simp
  refine ⟨same_chip hk (by decide), ?_, congrArg Pair.fenced (same_pair hk (by decide))⟩
  rw [halt_eq h, same_closers (fire_outside (ps := [.daybook]) _ _ _ _ _ _ (by decide)) (by decide), setCloserMode_mode]

theorem runs_pllLockLoss {ns : Nat} {s : State} (hp : powered s = true) (hl : s.chip.locked = true) (hh : s.chip.halted = false) (hn : 1000 < ns) :
    Runs (.pllLockLoss ns) s (fun t => t.chip = { s.chip with onOscillator := true, halted := true } ∧ t.closers.mode = 2 ∧ t.pair.fenced = true) :=
  ⟨_, congrArg Host.Outcome.next (if_pos (by simp [hp, hl, hn])), halt_effect (s := { s with chip := { s.chip with onOscillator := true } }) hh⟩

theorem runs_jtagInstructionLoad {j : JtagInstr} {s : State} (hj : takesBalls j = true) (hp : powered s = true) (hh : s.chip.halted = false) :
    Runs (.jtagInstructionLoad j) s (fun t => t.chip = { s.chip with jtag := j, halted := true } ∧ t.closers.mode = 2 ∧ t.pair.fenced = true) :=
  ⟨_, congrArg Host.Outcome.next (if_pos (by simp [hj, hp])), halt_effect (s := { s with chip := { s.chip with jtag := j } }) hh⟩

/-- Settles O57: the fuses by `startFuse` and the thermometers, the flash by `startFlash`, the rows of DRAM by `dramEvent` and `history`, the clock and the test port by `halt`. -/
theorem fusesFlashDramClock : Obligations.FusesFlashDramClock := by
  refine ⟨⟨fun good _ => exec_fuseProgram_unarmed good, fun good s hp hb ha hr => ?_, fun _ => runs_fuseProgram, fun good s hp hb ha hr he hk => ?_, fun _ => runs_fuseRevoke,
      fun s hp hb ha h15 hk => ?_, fun s hb => ?_⟩,
    ⟨fun _ => runs_fuseAdvance, fun _ _ _ => runs_retirementFuse, fun e n s hm => ?_⟩,
    ⟨fun good _ => exec_flash_outsideRecovery good, fun good _ => exec_flashErase_misaligned good, fun good _ => exec_flashErase_reserved good, fun _ => runs_flashErase,
      fun s hp hb hr ha hl => ⟨runs_flashProgram hp hb hr ha hl, runs_flashRead hp hb hr ha hl⟩, fun s hb => ?_, fun s hb => ?_⟩,
    ⟨fun _ _ => runs_dramEccEvent_corrected, fun _ _ => runs_dramEccEvent_uncorrectable, fun _ _ _ => runs_dramRowRepair_resource, fun _ _ _ => runs_dramRowRepair_mappedOut,
      fun row resource s hp => ?_⟩,
    fun _ _ => runs_pllLockLoss, fun ns s hn => ?_, fun j s hj => ?_, fun _ _ => runs_jtagInstructionLoad⟩
  · rw [exec_fuseProgram good hp hb ha, hr]
    rfl
  · rw [exec_fuseProgram good hp hb ha, hr, Nat.mod_eq_of_lt he, hk]
    rfl
  · have hr : inRecovery s = false := by simp [inRecovery, h15]
    rw [exec_fuseRevoke hp hb ha, hr, h15, hk]
    simp [fuseRefused]
  · exact congrArg Host.Outcome.next (if_pos hb)
  · simp [exec, execRetirementFuse, hm]
  · exact congrArg Host.Outcome.next (if_pos hb)
  · simp [exec, execFlashOperationEnd, hb]
  · refine congrArg Host.Outcome.next ?_
    unfold dramRepairRow
    split
    · rfl
    · exact if_pos (by simp [hp])
  · simp [exec, execPllLockLoss, Nat.not_lt.mpr hn]
  · simp [exec, execJtagInstructionLoad, hj]

end Sys2Proof.Machine
end

section
namespace Sys2Proof.Machine

/-! ## Start-up from step 4 to the check of the layouts (O17) -/

/-- What each step of a fold keeps, the fold keeps. -/
theorem foldl_keeps {α β : Type} (g : State → β) {l : List α} {f : State → α → State} {s : State} (h : ∀ u x, g (f u x) = g u) : g (l.foldl f s) = g s := by
  rw [← List.foldl_hom g (g₂ := fun b _ => b) fun u x => (h u x).symm, List.foldl_fixed]

theorem now_of_frame {ps : List Part} {s t : State} (h : t.outside ps = s.outside ps) (hp : .clock ∉ ps) : t.now = s.now := congrArg Clock.close (same_clock h hp)

theorem ch_of_frame {ps : List Part} {s t : State} {α : Type} (f : Charter → α) (d : α) (h : t.outside ps = s.outside ps) (hp : .charter ∉ ps) : t.ch f d = s.ch f d := by
  rw [State.ch, State.ch, same_charter h hp]

/-! ### A ledger that is formatted stays so while it is replayed (R66, R124)

The operations of a replay that leave the ledger alone are told by their frame lemma; the others change other fields of it. -/

theorem ledger_of_frame {s t : State} (h : t.outside (allBut [.ledger]) = s.outside (allBut [.ledger])) : t.ledger = s.ledger := same_ledger h (by decide)

@[simp] theorem modNeed_ledger (s : State) (tag idx : Nat) (f : Need → Option Need) : (modNeed s tag idx f).ledger = s.ledger := ledger_of_frame (by simp [allBut])
@[simp] theorem needMoved_ledger (s : State) (tag : Nat) : (needMoved s tag).ledger = s.ledger := ledger_of_frame (by simp [allBut])
@[simp] theorem issueNeed_ledger (s : State) (tag : Nat) (n : Need) : (issueNeed tag s n).ledger = s.ledger := ledger_of_frame (by simp [allBut])
@[simp] theorem parkNeed_ledger (s : State) (tag : Nat) (gs : List Nat) : (parkNeed s tag gs).ledger = s.ledger := ledger_of_frame (by simp [allBut])
@[simp] theorem positionLoss_ledger (s : State) (bs : List (Nat × Nat)) : (positionLoss s bs).1.ledger = s.ledger := ledger_of_frame (by simp [allBut])
@[simp] theorem modCmd_ledger (s : State) (tag : Nat) (f : Cmd → Cmd) : (modCmd s tag f).ledger = s.ledger := rfl
@[simp] theorem modJob_ledger (s : State) (id : Nat) (f : VaultJob → VaultJob) : (modJob s id f).ledger = s.ledger := rfl
@[simp] theorem modWork_ledger (s : State) (id : Nat) (f : Work → Work) : (modWork s id f).ledger = s.ledger := rfl
@[simp] theorem planWork_ledger (s : State) (id : Nat) : (planWork s id).ledger = s.ledger := ledger_of_frame (by simp [allBut])
@[simp] theorem batchForget_ledger (s : State) (layout row : Nat) : (batchForget s layout row).ledger = s.ledger := rfl
@[simp] theorem startReads_ledger (s : State) (id : Nat) : (startReads s id).ledger = s.ledger := ledger_of_frame (by simp [allBut])
@[simp] theorem holdAtOnce_ledger (s : State) (layout row id : Nat) : (holdAtOnce s layout row id).ledger = s.ledger := ledger_of_frame (by simp [allBut])
@[simp] theorem blockDone_ledger (s : State) (tag : Nat) : (blockDone s tag).ledger = s.ledger := ledger_of_frame (by simp [allBut])
@[simp] theorem parkCmd_ledger (s : State) (tag : Nat) (gs : List Nat) : (parkCmd s tag gs).ledger = s.ledger := ledger_of_frame (by simp [allBut])
@[simp] theorem landEffect_ledger (s : State) (a : Nat) (e : VaultEffect) : (landEffect s a e).ledger = s.ledger := ledger_of_frame (by simp [allBut])
@[simp] theorem recordLosses_ledger (s : State) (v : Nat) (fs : List (List Nat)) : (recordLosses s v fs).ledger = s.ledger := ledger_of_frame (by simp [allBut])
@[simp] theorem listRow_ledger (s : State) (c : Cmd) : (listRow s c).ledger = s.ledger := ledger_of_frame (by simp [allBut])
@[simp] theorem finish_ledger (s : State) (tag fate detail : Nat) (extra : List Byte) : (finish s tag fate detail extra).ledger = s.ledger := ledger_of_frame (by simp [allBut])
@[simp] theorem finishData_ledger (s : State) (tag : Nat) (data : Cells) (n : Nat) (extra : List Byte) : (finishData s tag data n extra).ledger = s.ledger := ledger_of_frame (by simp [allBut])
@[simp] theorem landRange_ledger (s : State) (v lba n : Nat) : (landRange s v lba n).ledger = s.ledger := rfl
@[simp] theorem applyBandRec_ledger (s : State) (r : Rec) : (applyBandRec s r).ledger = s.ledger := ledger_of_frame (by simp [allBut])

@[simp] theorem assignRegions_formatted (s : State) (v : Nat) (rs : List Nat) : (assignRegions s v rs).ledger.formatted = s.ledger.formatted := rfl
@[simp] theorem modRegion_formatted (s : State) (v r : Nat) (f : Region → Region) : (modRegion s v r f).ledger.formatted = s.ledger.formatted := rfl
@[simp] theorem modRec_formatted (s : State) (seq : Nat) (f : Rec → Rec) : (modRec s seq f).ledger.formatted = s.ledger.formatted := rfl
@[simp] theorem supersede_formatted (s : State) : (supersede s).ledger.formatted = s.ledger.formatted := rfl
@[simp] theorem renumber_formatted (s : State) (r : Rec) : (renumber s r).ledger.formatted = s.ledger.formatted := rfl
@[simp] theorem applyMapRec_formatted (s : State) (r : Rec) : (applyMapRec s r).ledger.formatted = s.ledger.formatted := rfl

@[simp] theorem landRec_formatted (s : State) (seq : Nat) : (landRec s seq).ledger.formatted = s.ledger.formatted := by
  unfold landRec
  repeat' split
  all_goals simp

@[simp] theorem stepOne_formatted (s : State) (id : Nat) : (stepOne s id).ledger.formatted = s.ledger.formatted := by
  unfold stepOne
  repeat' split
  all_goals simp

@[simp] theorem scrubWork_formatted (s : State) (l : Layout) (row pos : Nat) (news : List (Nat × Nat × Cells)) (forms : List (ChunkId × Bool)) (needs : List Need) :
    (scrubWork s l row pos news forms needs).ledger.formatted = s.ledger.formatted := by
  unfold scrubWork
  split <;> simp

@[simp] theorem rewriteFromTarget_formatted (s : State) (v b : Nat) : (rewriteFromTarget s v b).ledger.formatted = s.ledger.formatted := by
  unfold rewriteFromTarget
  split
  · dsimp only
    split
    · rfl
    · split <;> simp
  · rfl

@[simp] theorem needLost_formatted (s : State) (tag : Nat) (n : Need) : (needLost s tag n).ledger.formatted = s.ledger.formatted := by
  unfold needLost
  dsimp only
  repeat' split
  all_goals simp

@[simp] theorem replanNeed_formatted (s : State) (tag idx : Nat) (bad : List ChunkId) : (replanNeed s tag idx bad).ledger.formatted = s.ledger.formatted := by
  unfold replanNeed
  dsimp only
  repeat' split
  all_goals simp

@[simp] theorem readIssue_formatted (s : State) (tag : Nat) : (readIssue s tag).ledger.formatted = s.ledger.formatted := by
  unfold readIssue
  split
  · rfl
  · rw [blockDone_ledger, foldl_keeps (·.ledger.formatted) (fun _ _ => replanNeed_formatted ..), modCmd_ledger]

@[simp] theorem rewriteSources_formatted (s : State) (v : Nat) (o : Object) (needs : List Need) : (rewriteSources s v o needs).ledger.formatted = s.ledger.formatted :=
  foldl_keeps (·.ledger.formatted) fun _ _ => rewriteFromTarget_formatted ..

@[simp] theorem readObject_formatted (s : State) (c : Cmd) (o : Object) (blocks : List Nat) : (readObject s c o blocks).ledger.formatted = s.ledger.formatted := by
  unfold readObject
  dsimp only
  repeat' split
  all_goals simp

@[simp] theorem vaultReader_formatted (s : State) (opcode tag : Nat) : (vaultReader s opcode tag).ledger.formatted = s.ledger.formatted := by
  unfold vaultReader
  repeat' split
  all_goals simp

theorem vaultLand_formatted (s : State) (seq : Nat) : (vaultLand s seq).ledger.formatted = s.ledger.formatted := by
  unfold vaultLand
  dsimp only
  split
  · rfl
  · rfl
  · rw [foldl_keeps (·.ledger.formatted) (fun _ _ => by rw [landEffect_ledger])]
    exact foldl_keeps (·.ledger.formatted) fun _ _ => vaultReader_formatted ..

theorem adoptOne_formatted (s : State) (r : Rec) (lands : Bool) : (adoptOne s r lands).ledger.formatted = s.ledger.formatted := by
  unfold adoptOne
  repeat' split
  all_goals simp [vaultLand_formatted]

theorem coverRegions_formatted (s : State) : (coverRegions s).ledger.formatted = s.ledger.formatted := by
  refine foldl_keeps (·.ledger.formatted) (f := _) fun u b => ?_
  split <;> rfl

theorem replayOne_formatted (s : State) (r : Rec) : (replayOne s r).ledger.formatted = s.ledger.formatted := by
  unfold replayOne
  rw [modRec_formatted, adoptOne_formatted]

theorem replay_formatted (s : State) : (replay s).ledger.formatted = s.ledger.formatted := by
  unfold replay
  dsimp only
  rw [coverRegions_formatted]
  exact foldl_keeps (·.ledger.formatted) replayOne_formatted

/-! ### LEDGER_RECOVERY (R32, R33, R66) -/

/-- The part with its ledger formatted, replayed or lost. -/
def recovered (s : State) (readable : Bool) : State :=
  if !s.ledger.formatted then
    let u := coverRegions (takeCursors (formatLedger s))
    { u with mgmt := { u.mgmt with opMs := 0, opStored := 0, powerCycles := 1 } }
  else if readable then replay s
  else loseLedger s

/-- What follows the recovery of the ledger in step 6. -/
def repairsTaken (s : State) : State := queuePasses (reapplyRepairs { s with reserves := { s.reserves with last := s.reserves.history.getLast? } })

/-- Step 6 ends: step 7, and the daybook may write. -/
def stepSixEnded (s : State) : State :=
  let u := toStep (repairsTaken s) 7
  daybookStart { u with mgmt := { u.mgmt with opClose := u.now } }

theorem ledgerRecovery_eq {s : State} (readable : Bool) (ha : alive s = true) (hh : s.chip.halted = false) (hs : s.chip.step = 6) :
    ledgerRecovery s readable = stepSixEnded (recovered s readable) :=
  if_neg (by simp [ha, hh, hs])

theorem stepSixEnded_ledger (s : State) : (stepSixEnded s).ledger = s.ledger := same_ledger (ps := allBut [.ledger]) (by simp [stepSixEnded, repairsTaken, allBut]) (by decide)

theorem stepSixEnded_chip (s : State) : (stepSixEnded s).chip = { s.chip with step := 7, stepClose := s.now } := by
  have hf : (repairsTaken s).outside (allBut [.chip, .clock]) = s.outside (allBut [.chip, .clock]) := by simp [repairsTaken, allBut]
  have hn : (repairsTaken s).now = s.now := now_of_frame hf (by decide)
  rw [stepSixEnded, same_chip (daybookStart_outside (ps := [.daybook]) _ (by decide)) (by decide)]
  simp only [toStep, same_chip hf (by decide), hn]

theorem recovered_now (s : State) (readable : Bool) : (recovered s readable).now = s.now :=
  now_of_frame (ps := allBut [.clock]) (by simp [recovered, allBut]) (by decide)

theorem formatLedger_formatted (s : State) : (coverRegions (takeCursors (formatLedger s))).ledger.formatted = true := by
  rw [coverRegions_formatted]
  rfl

theorem recovered_formatted (s : State) (readable : Bool) : (recovered s readable).ledger.formatted = true := by
  unfold recovered
  split
  · exact formatLedger_formatted s
  next hf =>
    split
    · rw [replay_formatted]
      simpa using hf
    · exact formatLedger_formatted s

theorem recovered_ledgerLost {s : State} (hf : s.ledger.formatted = true) : (recovered s false).chip.ledgerLost = true := by
  rw [recovered, hf]
  rfl

theorem recovered_chip_of_readable (s : State) : (recovered s true).chip = s.chip :=
  same_chip (ps := allBut [.chip]) (by simp [recovered, allBut]) (by decide)

theorem runs_ledgerRecovery {s : State} (readable : Bool) (ha : alive s = true) (hh : s.chip.halted = false) (hs : s.chip.step = 6) :
    Runs (.ledgerRecovery readable) s (fun t => t.chip.step = 7 ∧ t.chip.stepClose = s.now ∧ t.ledger.formatted = true ∧
      (s.ledger.formatted = true → readable = false → t.chip.ledgerLost = true) ∧ (readable = true → t.chip.ledgerLost = s.chip.ledgerLost)) := by
  refine ⟨_, congrArg Host.Outcome.next (ledgerRecovery_eq readable ha hh hs), ?_⟩
  beta_reduce
  rw [stepSixEnded_chip, stepSixEnded_ledger]
  refine ⟨rfl, recovered_now s readable, recovered_formatted s readable, ?_, ?_⟩
  · rintro hf rfl
    exact recovered_ledgerLost hf
  · rintro rfl
    exact congrArg (·.ledgerLost) (recovered_chip_of_readable s)

/-! ### Steps 4 and 5 (R25, R28, R31, R382) -/

/-- The ring has closed in one lap. -/
def ringClosed (s : State) (lap : Nat) : State := { s with chain := { s.chain with lap, ringUp := true } }

/-- The trigger of a ring whose units are not those of the charter (R382). -/
def unitsChecked (s : State) : State := if s.chain.units ≠ s.ch (·.expectedUnits) 1 then fire s 0x07 4 s.chain.units [] false else s

theorem unitsChecked_frame (s : State) : (unitsChecked s).outside [.daybook] = s.outside [.daybook] := by simp [unitsChecked]

theorem runs_chainEnumerationEnd {s : State} {lap : Nat} (ha : alive s = true) (hs : s.chip.step = 5) (hd : s.chain.address.isSome = true) (h1 : 1 ≤ lap) (h8 : lap ≤ 8) :
    Runs (.chainEnumerationEnd lap) s (fun t => t.chip = { s.chip with step := 6, stepClose := s.now } ∧ t.chain = { s.chain with lap := lap, ringUp := true }) := by
  have he : exec (.chainEnumerationEnd lap) s = .next (toStep (unitsChecked (ringClosed s lap)) 6) := congrArg Host.Outcome.next (if_pos (by simp [ha, hs, hd, h1, h8]))
  have hf := unitsChecked_frame (ringClosed s lap)
  refine ⟨_, he, ?_, same_chain hf (by decide)⟩
  have hn : (unitsChecked (ringClosed s lap)).now = (ringClosed s lap).now := now_of_frame hf (by decide)
  simp only [toStep, same_chip hf (by decide), hn]
  rfl

theorem exec_chainEnumerationTimeout {s : State} (ha : alive s = true) (hs : s.chip.step = 5) (hn : s.chip.stepClose + 65536 ≤ s.now) :
    exec .chainEnumerationTimeout s = .next { s with chip := { s.chip with chainAbsent := true, step := 6, stepClose := s.now } } :=
  congrArg Host.Outcome.next (if_pos (by simp [ha, hs, hn]))

theorem history_dramGib (s : State) (element action cause physical logical : Nat) : (history s element action cause physical logical).reserves.dramGib = s.reserves.dramGib := by
  simp only [history]
  split <;> simp [mgmtCause_reserves, fire_reserves]

theorem tellersExhausted_dramGib (s : State) (p : Nat) : (tellersExhausted s p).reserves.dramGib = s.reserves.dramGib := by
  unfold tellersExhausted
  split
  · rw [fire_reserves, history_dramGib]
  · rfl

theorem placeTellers_dramGib (s : State) (failing : List Nat) : (placeTellers s failing).reserves.dramGib = s.reserves.dramGib := by
  unfold placeTellers
  dsimp only
  repeat' split
  all_goals simp only [fire_reserves, tellersExhausted_dramGib, foldl_keeps (·.reserves.dramGib) (fun u p => history_dramGib u 1 3 7 p noLogical)]

/-- The part with its firmware chosen, and its tellers, banks and ways placed, before step 5 or 6 begins. -/
def firmwareStarted (s : State) (k : Nat) (failing : List Nat) : State :=
  let h := flashBytes s (slotBase 1 k) 512
  let u := placeWays (placeBanks (placeTellers { s with chip := { s.chip with fwSel := k, fwSeq := le h 16 8, fwSv := le h 24 2 } } failing))
  let u : State := { u with mgmt := { u.mgmt with state := 0, opClose := u.now } }
  (u.ch (·.ignoredVolumes) []).foldl (fun u i => fire u 0x07 2 i [] false) u

theorem firmwareStarted_frame (s : State) (k : Nat) (failing : List Nat) :
    (firmwareStarted s k failing).outside (allBut [.closers, .charter]) = s.outside (allBut [.closers, .charter]) := by
  simp [firmwareStarted, allBut]

theorem firmwareStarted_dramGib (s : State) (k : Nat) (failing : List Nat) : (firmwareStarted s k failing).reserves.dramGib = s.reserves.dramGib := by
  have hp := placeTellers_dramGib { s with chip := { s.chip with fwSel := k, fwSeq := le (flashBytes s (slotBase 1 k) 512) 16 8, fwSv := le (flashBytes s (slotBase 1 k) 512) 24 2 } } failing
  unfold firmwareStarted
  dsimp only
  rw [foldl_keeps (·.reserves.dramGib) (fun u i => by rw [fire_reserves])]
  exact hp

theorem startFirmware_eq {s : State} (k : Nat) (failing : List Nat) (hm : s.closers.mode ≠ 2) :
    startFirmware s k failing = if s.ch (·.chainPresent) false then sendToken (toStep (firmwareStarted s k failing) 5) else toStep (firmwareStarted s k failing) 6 := by
  have hf := firmwareStarted_frame s k failing
  have hc : (firmwareStarted s k failing).closers.mode ≠ 2 := by rwa [same_closers hf (by decide)]
  rw [← ch_of_frame (·.chainPresent) false hf (by decide)]
  exact if_neg hc

theorem startFirmware_effect {s : State} (k : Nat) (failing : List Nat) (hm : s.closers.mode ≠ 2) :
    (startFirmware s k failing).reserves.dramGib = s.reserves.dramGib ∧ (startFirmware s k failing).chip.step = if s.ch (·.chainPresent) false then 5 else 6 := by
  rw [startFirmware_eq k failing hm]
  split
  · have hf := sendToken_outside (ps := [.chain]) (toStep (firmwareStarted s k failing) 5) (by decide)
    rw [same_reserves hf (by decide), same_chip hf (by decide)]
    exact ⟨firmwareStarted_dramGib s k failing, rfl⟩
  · exact ⟨firmwareStarted_dramGib s k failing, rfl⟩

theorem chooseFirmware_reason {s : State} {floor reason : Nat} (h : chooseFirmware s floor = .inr reason) : reason ≠ 0 := by
  unfold chooseFirmware at h
  dsimp only at h
  split at h
  · cases h
  · cases h
    split <;> decide

/-- The part as the DRAM found and the checks of the firmware slots are taken up. -/
def dramTaken (s : State) (g : Nat) : State :=
  { s with reserves := { s.reserves with dramGib := g }, chip := { s.chip with fw0 := (slotCheck s 1 0).1, fw1 := (slotCheck s 1 1).1 } }

theorem firmwareChoice_eq {a b : DramFinding} {g : Nat} {s : State} (failing : List Nat) (ha : alive s = true) (hh : s.chip.halted = false) (hs : s.chip.step = 4) (hg : dramInUse a b = some g) :
    firmwareChoice s a b failing = match chooseFirmware (dramTaken s g) ((dramTaken s g).ch (·.floor) 0) with
      | .inr reason => recovery (dramTaken s g) reason false
      | .inl k => startFirmware (dramTaken s g) k failing := by
  rw [firmwareChoice, if_neg (by simp [ha, hh, hs]), hg]
  rfl

theorem runs_firmwareChoice {a b : DramFinding} {s : State} (failing : List Nat) (ha : alive s = true) (hh : s.chip.halted = false) (hs : s.chip.step = 4)
    (hd : (dramInUse a b).isSome = true) (hm : s.closers.mode ≠ 2) :
    Runs (.firmwareChoice a b failing) s (fun t => some t.reserves.dramGib = dramInUse a b ∧
      (t.chip.step = 14 ∧ t.chip.reason ≠ 0 ∨ t.chip.step = (if s.ch (·.chainPresent) false then 5 else 6))) := by
  obtain ⟨g, hg⟩ := Option.isSome_iff_exists.mp hd
  refine ⟨_, congrArg Host.Outcome.next (firmwareChoice_eq failing ha hh hs hg), ?_⟩
  beta_reduce
  split
  next reason hr => exact ⟨hg.symm, .inl ⟨rfl, chooseFirmware_reason hr⟩⟩
  next k _ =>
    obtain ⟨hd, hc⟩ := startFirmware_effect (s := dramTaken s g) k failing hm
    exact ⟨(congrArg some hd).trans hg.symm, .inr hc⟩

/-! ### The registry's quorum (R33, R123) -/

theorem mem_of_frame {ps : List Part} {s t : State} (h : t.outside ps = s.outside ps) (hp : .drives ∉ ps) (m : Nat) : mem t m = mem s m := by
  rw [mem, mem, same_drives h hp]

theorem majority_of_frame {s t : State} (h : t.outside [.daybook] = s.outside [.daybook]) (acks : List Nat) : majority t acks = majority s acks := by
  have hc : t.charter = s.charter := same_charter h (by decide)
  have hd : t.degrade = s.degrade := same_degrade h (by decide)
  have hn : registryNow t = registryNow s := by rw [registryNow, registryNow, State.ch, State.ch, hc, hd]
  have hg : registryGone t = registryGone s := funext fun m => by rw [registryGone, registryGone, mem_of_frame h (by decide), hd]
  rw [majority, majority, hn, hg, State.ch, State.ch, hc]

/-- The members that count as unreadable: those said to be, and those too short for the registry area (R123). -/
def shortOf (s : State) (agree short : List Nat) : List Nat := (short ++ agree.filter (fun m => (mem s m).present && (mem s m).capacity < registryEnd s)).eraseDups

/-- The triggers of the members that count as unreadable. -/
def shortNamed (s : State) (agree short : List Nat) : State := (shortOf s agree short).foldl (fun s m => fire s 0x07 3 m [] false) s

theorem shortNamed_frame (s : State) (agree short : List Nat) : (shortNamed s agree short).outside [.daybook] = s.outside [.daybook] := by simp [shortNamed]

theorem shortNamed_registry (s : State) (agree short : List Nat) : (shortNamed s agree short).registry = s.registry := same_registry (shortNamed_frame s agree short) (by decide)

theorem filter_not_shortOf (s : State) (agree short : List Nat) : agree.filter (fun m => !(shortOf s agree short).contains m) = goodMembers s agree short := by
  refine List.filter_congr fun m hm => ?_
  simp [shortOf, hm, List.mem_eraseDups]

/-- The part with the members that agree on record, before the books are compared (R33, R34). -/
def quorumMet (s : State) (good : List Nat) : State :=
  let u : State := { s with registry := { s.registry with agree := good }, chip := { s.chip with reason := 0 } }
  if u.chip.step = 13 then toStep u 7 else u

theorem quorum_eq (s : State) (agree short : List Nat) :
    quorum s agree short =
      if majority s (goodMembers s agree short) then endStepSeven (shortMembers (compareBooks (quorumMet (shortNamed s agree short) (goodMembers s agree short))))
      else if s.chip.step = 13 then shortNamed s agree short
      else { toStep (shortNamed s agree short) 13 with chip := { (toStep (shortNamed s agree short) 13).chip with reason := 5 } } := by
  have hf := shortNamed_frame s agree short
  rw [← majority_of_frame hf, ← filter_not_shortOf, ← same_chip hf (by decide)]
  rfl

/-- A try that fails leaves a part that was not yet Held in Held, with RegistryQuorum for its reason (R33). -/
theorem quorum_of_not_majority {agree short : List Nat} {s : State} (hg : majority s (goodMembers s agree short) = false) (hs : s.chip.step ≠ 13) :
    quorum s agree short = { toStep (shortNamed s agree short) 13 with chip := { (toStep (shortNamed s agree short) 13).chip with reason := 5 } } := by
  rw [quorum_eq, if_neg (by simp [hg]), if_neg hs]

theorem runs_registryQuorumCheck {agree short : List Nat} {s : State} (ha : alive s = true) (hh : s.chip.halted = false) (hs : s.chip.step = 7) (hm : majority s s.registry.agree = false)
    (hg : majority s (goodMembers s agree short) = false) :
    Runs (.registryQuorumCheck agree short) s (fun t => t.chip.step = 13 ∧ t.chip.reason = 5 ∧ t.registry = s.registry) :=
  ⟨_, congrArg Host.Outcome.next ((if_pos (by simp [ha, hh, hs, hm])).trans (quorum_of_not_majority hg (by omega))), rfl, rfl, shortNamed_registry s agree short⟩

theorem enterStepEight_effect (s : State) :
    ((enterStepEight s).chip.step = 8 ∨ (enterStepEight s).chip.step = 9) ∧ (enterStepEight s).chip.reason = s.chip.reason ∧ (enterStepEight s).registry = s.registry := by
  unfold enterStepEight
  split
  · have hf : ∀ u : State, ∀ r : Nat, ∀ ks : List Nat, (sendNegotiate (toRegistry (setPair u r 1 false) ks .register)).outside [.drives, .ints, .link, .chain, .pair, .daybook, .hostMem] =
      u.outside [.drives, .ints, .link, .chain, .pair, .daybook, .hostMem] := by simp
    dsimp only
    rw [same_chip (hf _ _ _) (by decide), same_registry (hf _ _ _) (by decide)]
    exact ⟨.inl rfl, rfl, rfl⟩
  · exact ⟨.inr rfl, rfl, rfl⟩

theorem endStepSeven_effect {s : State} (hs : s.chip.step ≠ 13) :
    (endStepSeven s).chip.step ≠ 13 ∧ (endStepSeven s).chip.reason = s.chip.reason ∧ (endStepSeven s).registry = s.registry := by
  unfold endStepSeven
  split
  · obtain ⟨h, hr, hg⟩ := enterStepEight_effect s
    exact ⟨by omega, hr, hg⟩
  · exact ⟨hs, rfl, rfl⟩

theorem quorumMet_effect (s : State) (good : List Nat) : (quorumMet s good).chip.step ≠ 13 ∧ (quorumMet s good).chip.reason = 0 ∧ (quorumMet s good).registry.agree = good := by
  unfold quorumMet
  dsimp only
  split
  next => exact ⟨by simp [toStep], rfl, rfl⟩
  next h => exact ⟨h, rfl, rfl⟩

theorem runs_registryQuorumRetry {agree short : List Nat} {s : State} (ha : alive s = true) (hh : s.chip.halted = false) (hs : s.chip.step = 13) (hc : s.chip.stepClose < s.now)
    (hn : (s.now - s.chip.stepClose) % 65536 = 0) (hg : majority s (goodMembers s agree short) = true) :
    Runs (.registryQuorumRetry agree short) s (fun t => t.registry.agree = goodMembers s agree short ∧ t.chip.step ≠ 13 ∧ t.chip.reason = 0) := by
  refine ⟨_, congrArg Host.Outcome.next ((if_pos (by simp [ha, hh, hs, hc, hn])).trans ((quorum_eq s agree short).trans (if_pos hg))), ?_⟩
  have hf (u : State) : (shortMembers (compareBooks u)).outside (allBut [.chip, .registry]) = u.outside (allBut [.chip, .registry]) := by simp [allBut]
  obtain ⟨hu, hr, hg⟩ := quorumMet_effect (shortNamed s agree short) (goodMembers s agree short)
  rw [← same_chip (hf _) (by decide)] at hu hr
  rw [← same_registry (hf _) (by decide)] at hg
  obtain ⟨hu', hr', hg'⟩ := endStepSeven_effect hu
  exact ⟨(congrArg (·.agree) hg').trans hg, hu', hr'.trans hr⟩

/-! ### The check of a layout (R35, R36) -/

theorem verifyColumns_results (s : State) (l : Layout) :
    (columnCheck l = true → (verifyColumns s l).chip.layoutOk = s.chip.layoutOk ||| BitVec.ofNat 64 (2 ^ l.index) ∧ (verifyColumns s l).chip.layoutBad = s.chip.layoutBad) ∧
    (columnCheck l = false → (verifyColumns s l).chip.layoutBad = s.chip.layoutBad ||| BitVec.ofNat 64 (2 ^ l.index) ∧ (verifyColumns s l).chip.layoutOk = s.chip.layoutOk) := by
  unfold verifyColumns
  dsimp only
  split
  next h => exact ⟨fun _ => ⟨rfl, rfl⟩, fun hb => absurd (h.symm.trans hb) (by decide)⟩
  next h =>
    rw [same_chip (fire_outside (ps := [.daybook]) _ _ _ _ _ _ (by decide)) (by decide)]
    exact ⟨fun hg => absurd hg h, fun _ => ⟨rfl, rfl⟩⟩

theorem columnVerification_background {i : Nat} {l : Layout} {s : State} (hl : layoutOf s i = some l) (ha : alive s = true) (hh : s.chip.halted = false) (hv : layoutVerified s i = false)
    (hs : s.chip.step = 15) (hn : nextUnverified s = some i) : columnVerification s i = verifyColumns s l := by
  simp [columnVerification, hl, ha, hh, hv, hs, hn]

/-! ### The statement -/

/-- Settles O17: each command of start-up, by its clause. -/
theorem startUpSteps : Obligations.StartUpSteps := by
  unfold Obligations.StartUpSteps
  refine ⟨⟨?_, ?_, ?_⟩, ?_, ⟨?_, ?_⟩, ?_⟩
  · exact fun a b failing s => runs_firmwareChoice failing
  · exact fun lap s => runs_chainEnumerationEnd
  · exact fun s => exec_chainEnumerationTimeout
  · exact fun readable s => runs_ledgerRecovery readable
  · exact fun agree short s => runs_registryQuorumCheck
  · exact fun agree short s => runs_registryQuorumRetry
  · exact fun i l s hl ha hh hv hs hn => ⟨_, congrArg Host.Outcome.next (columnVerification_background hl ha hh hv hs hn), verifyColumns_results s l⟩

end Sys2Proof.Machine
end

section
namespace Sys2Proof.Machine

/-! ## A halted part stays halted (O10) -/

/-- The commands that may change the chip's own part of the state. -/
inductive MovesChip : Instr → Prop
  | pwrgdRise (p) : MovesChip (.pwrgdRise p)
  | pwrgdFall (holdUp) : MovesChip (.pwrgdFall holdUp)
  | perstDeassert (pass) : MovesChip (.perstDeassert pass)
  | firmwareChoice (a b failing) : MovesChip (.firmwareChoice a b failing)
  | chainEnumerationEnd (lap) : MovesChip (.chainEnumerationEnd lap)
  | chainEnumerationTimeout : MovesChip .chainEnumerationTimeout
  | ledgerRecovery (readable) : MovesChip (.ledgerRecovery readable)
  | registryQuorumCheck (agree short) : MovesChip (.registryQuorumCheck agree short)
  | registryQuorumRetry (agree short) : MovesChip (.registryQuorumRetry agree short)
  | columnVerification (layout) : MovesChip (.columnVerification layout)
  | pairNegotiation : MovesChip .pairNegotiation
  | negotiationWaitExpiry : MovesChip .negotiationWaitExpiry
  | fuseAdvance : MovesChip .fuseAdvance
  | perstAssert (ns) : MovesChip (.perstAssert ns)
  | closeBoundary : MovesChip .closeBoundary
  | vote : MovesChip .vote
  | sensorSample (v) : MovesChip (.sensorSample v)
  | pllLockLoss (ns) : MovesChip (.pllLockLoss ns)
  | jtagInstructionLoad (j) : MovesChip (.jtagInstructionLoad j)

theorem movesChip_of_mem {c : Instr} (h : .chip ∈ mayChange c) : MovesChip c := by
  delta mayChange at h
  cases c with
  | pwrgdRise _ | pwrgdFall _ | perstDeassert _ | firmwareChoice _ _ _ | chainEnumerationEnd _ | chainEnumerationTimeout | ledgerRecovery _
  | registryQuorumCheck _ _ | registryQuorumRetry _ _ | columnVerification _ | pairNegotiation | negotiationWaitExpiry | fuseAdvance | perstAssert _
  | closeBoundary | vote | sensorSample _ | pllLockLoss _ | jtagInstructionLoad _ => constructor
  | _ => exact absurd h (of_decide_eq_false rfl)

theorem chip_of_frame {s t : State} (h : t.outside (allBut [.chip]) = s.outside (allBut [.chip])) : t.chip = s.chip := same_chip h (by decide)

theorem halted_of_frame {s t : State} (h : t.outside (allBut [.chip]) = s.outside (allBut [.chip])) (hs : s.chip.halted = true) : t.chip.halted = true := by
  rw [chip_of_frame h, hs]

/-- After a halt the part is halted, whether it was before or not (R54). -/
theorem halt_halted (s : State) : (halt s).chip.halted = true := by
  cases h : s.chip.halted with
  | false => rw [(halt_effect h).1]
  | true => rw [halt, if_pos h, h]

/-! ### SENSOR_SAMPLE (R412) -/

theorem haltIf_halted {b : Prop} [Decidable b] {s t : State} (hs : s.chip.halted = true) : (if b then halt t else s).chip.halted = true := by
  split
  · exact halt_halted t
  · exact hs

theorem levelEntered_halted {s : State} {i old new : Nat} {throttled : Bool} (hs : s.chip.halted = true) : (levelEntered s i old new throttled).chip.halted = true :=
  haltIf_halted (halted_of_frame (by simp [allBut]) hs)

theorem takeSample_halted {s : State} {i aux : Nat} {v : Int} (hs : s.chip.halted = true) : (takeSample s i aux v).chip.halted = true := by
  unfold takeSample
  dsimp only
  split
  · exact hs
  · exact levelEntered_halted hs

/-- The samples of a list of sensors are taken one after the other. -/
theorem takeSamples_halted {α : Type} {f : State → α → State} (hf : ∀ u x, u.chip.halted = true → (f u x).chip.halted = true) (l : List α) {s : State}
    (hs : s.chip.halted = true) : (l.foldl f s).chip.halted = true :=
  List.foldlRecOn l f hs fun u hu x _ => hf u x hu

theorem sensorSample_halted {s : State} {v : Samples} (hs : s.chip.halted = true) : (sensorSample s v).chip.halted = true := by
  unfold sensorSample
  split
  · exact hs
  · exact takeSample_halted (takeSamples_halted (fun _ _ => takeSample_halted) _ (takeSamples_halted (fun _ _ => takeSample_halted) _
      (takeSamples_halted (fun _ _ => takeSample_halted) _ hs)))

/-! ### The commands of start-up and of the close -/

/-- A part that goes on to the next step of start-up from a state in which the chip is as before. -/
theorem toStep_halted {s u : State} {n : Nat} (h : u.outside (allBut [.chip]) = s.outside (allBut [.chip])) (hs : s.chip.halted = true) :
    (toStep u n).chip.halted = true := by
  have hu : u.chip.halted = true := halted_of_frame h hs
  exact hu

theorem enumerationEnd_halted {s : State} {lap : Nat} (hs : s.chip.halted = true) : (enumerationEnd s lap).chip.halted = true := by
  unfold enumerationEnd
  split
  · exact toStep_halted (by simp [allBut]) hs
  · exact hs

theorem negotiation_halted {s : State} (hs : s.chip.halted = true) : (negotiation s).chip.halted = true := by
  unfold negotiation
  split
  · exact hs
  · refine toStep_halted ?_ hs
    (repeat' split) <;> simp [allBut]

theorem closeBoundary_halted {s : State} (hs : s.chip.halted = true) : (closeBoundary s).chip.halted = true := by
  obtain ⟨-, hchip, -⟩ := intakeRow_keeps { s with clock := { s.clock with cycle := 0 } }
  unfold closeBoundary
  split
  · exact hs
  · simp only [hs, hchip]

theorem vote_of_halted {s : State} (hs : s.chip.halted = true) : vote s = s.at 24559 := by
  have hc : closesRun (s.at 24559) = false := by simp [closesRun, State.at, hs]
  simp [vote, hc]

/-- A command that may change the chip's part leaves a halted part halted, but for those that power it or start it up. -/
theorem halted_of_movesChip {c : Instr} {s t : State} (hm : MovesChip c) (h : exec c s = .next t) (hs : s.chip.halted = true) :
    t.chip.halted = true ∨ (∃ p, c = .pwrgdRise p) ∨ (∃ h, c = .pwrgdFall h) ∨ ∃ l, c = .perstDeassert l := by
  cases hm with
  | pwrgdRise p => exact .inr (.inl ⟨p, rfl⟩)
  | pwrgdFall holdUp => exact .inr (.inr (.inl ⟨holdUp, rfl⟩))
  | perstDeassert pass => exact .inr (.inr (.inr ⟨pass, rfl⟩))
  | firmwareChoice a b failing => cases h; simp [firmwareChoice, hs]
  | chainEnumerationEnd lap => cases h; exact .inl (enumerationEnd_halted hs)
  | chainEnumerationTimeout =>
    cases h
    left
    split <;> exact hs
  | ledgerRecovery readable => cases h; simp [ledgerRecovery, hs]
  | registryQuorumCheck agree short => cases h; simp [hs]
  | registryQuorumRetry agree short => cases h; simp [hs]
  | columnVerification layout =>
    cases h
    left
    unfold columnVerification
    split <;> simp [hs]
  | pairNegotiation => cases h; exact .inl (negotiation_halted hs)
  | negotiationWaitExpiry =>
    cases h
    left
    split
    · split
      · exact halted_of_frame (by simp [allBut]) hs
      · exact toStep_halted (by simp [allBut]) hs
    · exact hs
  | fuseAdvance => cases h; simp [fuseAdvance, hs]
  | perstAssert ns =>
    cases h
    left
    split <;> exact hs
  | closeBoundary => cases h; exact .inl (closeBoundary_halted hs)
  | vote => cases h; rw [vote_of_halted hs]; exact .inl hs
  | sensorSample v => cases h; exact .inl (sensorSample_halted hs)
  | pllLockLoss ns => cases h; exact .inl (haltIf_halted hs)
  | jtagInstructionLoad j => cases h; exact .inl (haltIf_halted hs)

/-- Settles O10: a command that may not change the chip's part stays in its parts, and `halted_of_movesChip` speaks of the nineteen that may. -/
theorem haltLasts : Obligations.HaltLasts := by
  intro c s t h hs
  by_cases hm : .chip ∈ mayChange c
  · exact halted_of_movesChip (movesChip_of_mem hm) h hs
  · exact .inl ((congrArg Chip.halted (same_chip (exec_staysInParts c s t h) hm)).trans hs)

end Sys2Proof.Machine
end

section
namespace Sys2Proof.Machine

/-! ## The cut and the book entries (O18) -/

theorem at_cycle (s : State) {t : Nat} (ht : t < 25600) (hs : s.clock.cycle < 25600) : (s.at t).clock.cycle = max t s.clock.cycle := by
  simp only [State.at]
  omega

/-- Before the quiet slice, a command of a cycle before it does not bring the close into it (R42). -/
theorem at_quiet_of_lt {s : State} {t : Nat} (ht : t < 24576) (hs : s.clock.cycle < 24576) : (s.at t).quiet = false := by
  rw [State.quiet, at_cycle s (by omega) (by omega), decide_eq_false_iff_not]
  omega

theorem quiet_eq_false {s : State} (hs : s.clock.cycle < 24576) : s.quiet = false := by
  rw [State.quiet, decide_eq_false_iff_not]
  omega

theorem quiet_eq_true {s : State} (hs : 24576 ≤ s.clock.cycle) : s.quiet = true := decide_eq_true hs

/-! ### CUT (R43, R48) -/

/-- A record of the cut is one of the ledger's that may be in it (R43). -/
theorem mem_cutRecords {s : State} {q : Nat} (h : q ∈ cutRecords s) : ∃ r ∈ s.ledger.recs, r.seq = q ∧ cutReady s r = true := by
  refine List.foldlRecOn (motive := fun acc => ∀ q ∈ acc, ∃ r ∈ s.ledger.recs, r.seq = q ∧ cutReady s r = true) _ _ ?_ ?_ q (List.mem_reverse.mp h)
  · simp
  · intro acc hacc r hr q hq
    obtain ⟨hrec, hready⟩ := List.mem_filter.mp (List.mem_mergeSort.mp hr)
    split at hq
    · exact hacc q hq
    · obtain rfl | hq := List.mem_cons.mp hq
      · exact ⟨r, hrec, rfl, hready⟩
      · exact hacc q hq

theorem countersigned_of_cutReady {s : State} {r : Rec} (h : cutReady s r = true) : r.state = .countersigned := by
  simp only [cutReady, Bool.and_eq_true, decide_eq_true_eq] at h
  obtain ⟨⟨hstate, -⟩, -⟩ := h
  exact hstate

/-- The verdict that a closer forms: the one given where it errs (R48). -/
def formedVerdict (s : State) (errs : List (Nat × Verdict)) (n : Nat) : Verdict :=
  ((errs.find? (fun e => e.1 = n)).map (fun e => e.2)).getD (verdictOf s (cutRecords s))

theorem formedVerdict_of_right {s : State} {errs : List (Nat × Verdict)} {n : Nat} (h : ∀ x ∈ errs, x.1 ≠ n) : formedVerdict s errs n = verdictOf s (cutRecords s) := by
  have hn : errs.find? (fun e => e.1 = n) = none := List.find?_eq_none.mpr (by simpa using h)
  rw [formedVerdict, hn]
  rfl

theorem cut_eq {s : State} (errs : List (Nat × Verdict)) (hr : closesRun s = true) (hm : s.closers.mode ≠ 2) (hv : s.closers.verdicts = []) (hc : s.clock.cycle < 24576) :
    cut s errs = { s.at 24544 with closers := { s.closers with
      cut := cutRecords (s.at 24544), verdicts := (usableClosers s).map (fun n => (n, formedVerdict (s.at 24544) errs n)) } } := by
  have hrun : closesRun (s.at 24544) = true := hr
  have hmode : (s.at 24544).closers.mode ≠ 2 := hm
  have hnone : (s.at 24544).closers.verdicts = [] := hv
  simp only [cut]
  rw [if_neg (by simp [hrun, hmode, hnone, at_quiet_of_lt (by decide : 24544 < 24576) hc])]
  rfl

theorem runs_cut {errs : List (Nat × Verdict)} {s : State} (hr : closesRun s = true) (hm : s.closers.mode ≠ 2) (hv : s.closers.verdicts = []) (hc : s.clock.cycle < 24576) :
    Runs (.cut errs) s (fun t =>
      t.closers.verdicts.map (fun e => e.1) = usableClosers s ∧ t.now = s.now ∧ t.clock.cycle = max 24544 s.clock.cycle ∧
      (∀ e ∈ t.closers.verdicts, (∀ x ∈ errs, x.1 ≠ e.1) → e.2.close = s.now ∧ e.2.highest = maxOf t.closers.cut ∧ e.2.digest = Config.cutDigest t.closers.cut) ∧
      ∀ q ∈ t.closers.cut, ∃ r ∈ s.ledger.recs, r.seq = q ∧ r.state = .countersigned) := by
  refine ⟨_, congrArg Host.Outcome.next (cut_eq errs hr hm hv hc), ?_, rfl, at_cycle s (by decide) (by omega), ?_, ?_⟩
  · simp [List.map_map, Function.comp_def]
  · intro e he herr
    obtain ⟨n, -, rfl⟩ := List.mem_map.mp he
    rw [formedVerdict_of_right herr]
    exact ⟨rfl, rfl, rfl⟩
  · intro q hq
    obtain ⟨r, hmem, hseq, hready⟩ := mem_cutRecords hq
    exact ⟨r, hmem, hseq, countersigned_of_cutReady hready⟩

/-! ### BOOK_ENTRY_ISSUE, BOOK_SKIPPED and QUIET_SLICE_START (R42, R45) -/

/-- Words written into both copies of an area change only the wear counts of the blocks. -/
theorem writeCopies_ledger (s : State) (area off words : Nat) : (writeCopies s area off words).ledger = { s.ledger with blocks := (writeCopies s area off words).ledger.blocks } :=
  List.foldlRecOn (motive := fun u : State => u.ledger = { s.ledger with blocks := u.ledger.blocks }) _ _ rfl
    (fun u hu _ _ => by simp only [modBlock]; rw [hu])

theorem appendCopies_ledger (s : State) (area words : Nat) :
    (appendCopies s area words).ledger = { s.ledger with blocks := (appendCopies s area words).ledger.blocks, appended := (appendCopies s area words).ledger.appended } ∧
      tget 0 (appendCopies s area words).ledger.appended area = tget 0 s.ledger.appended area + words := by
  constructor
  · simp only [appendCopies]
    rw [writeCopies_ledger]
  · simp [appendCopies]

/-- The book entry of a close, in its place behind those of earlier closes (R45). -/
def entryIssuedBook (s : State) (v : Verdict) : State :=
  { s with closers := { s.closers with
      entry := 1, books := s.closers.books ++ [{ close := s.now, verdict := v, cut := s.closers.cut, readBack := false, partnerHeld := s.ledger.mode ≠ 1, torn := false }] } }

theorem bookIssue_eq {s : State} {v : Verdict} (hr : booksRun s = true) (hu : s.closers.used = some v) (he : s.closers.entry = 0) (hc : s.clock.cycle < 24576) :
    bookIssue s = streamBook (appendCopies (entryIssuedBook (s.at 24560) v) 0 1) v := by
  have hrun : booksRun (s.at 24560) = true := hr
  have hused : (s.at 24560).closers.used = some v := hu
  have hentry : (s.at 24560).closers.entry = 0 := he
  have hopen : ¬ (!booksRun (s.at 24560) || decide ((s.at 24560).closers.entry ≠ 0) || (s.at 24560).quiet) = true := by
    simp [hrun, hentry, at_quiet_of_lt (by decide : 24560 < 24576) hc]
  unfold bookIssue
  dsimp only
  split
  next hn => cases hused.symm.trans hn
  next w hw =>
    obtain rfl : v = w := by simpa using hused.symm.trans hw
    exact if_neg hopen

theorem runs_bookEntryIssue {s : State} {v : Verdict} (hr : booksRun s = true) (hu : s.closers.used = some v) (he : s.closers.entry = 0) (hc : s.clock.cycle < 24576) :
    Runs .bookEntryIssue s (fun t => t.closers = { s.closers with
        entry := 1, books := s.closers.books ++ [{ close := s.now, verdict := v, cut := s.closers.cut, readBack := false, partnerHeld := s.ledger.mode ≠ 1, torn := false }] } ∧
      t.clock.close = s.clock.close ∧ t.clock.cycle = max 24560 s.clock.cycle ∧
      t.ledger = { s.ledger with blocks := t.ledger.blocks, appended := t.ledger.appended } ∧ tget 0 t.ledger.appended 0 = tget 0 s.ledger.appended 0 + 1) := by
  refine ⟨_, congrArg Host.Outcome.next (bookIssue_eq hr hu he hc), ?_⟩
  have hf : (streamBook (appendCopies (entryIssuedBook (s.at 24560) v) 0 1) v).outside [.ledger, .chain] = (entryIssuedBook (s.at 24560) v).outside [.ledger, .chain] := by simp
  have hl : (streamBook (appendCopies (entryIssuedBook (s.at 24560) v) 0 1) v).ledger = (appendCopies (entryIssuedBook (s.at 24560) v) 0 1).ledger :=
    same_ledger (ps := [.chain]) (by simp) (by decide)
  obtain ⟨hledger, happended⟩ := appendCopies_ledger (entryIssuedBook (s.at 24560) v) 0 1
  have hclock := same_clock hf (by decide)
  refine ⟨same_closers hf (by decide), (congrArg Clock.close hclock :), ?_, ?_, ?_⟩
  · rw [hclock]
    exact at_cycle s (by decide) (by omega)
  · rw [hl]
    exact hledger
  · rw [hl]
    exact happended

/-- The close without its book entry (R45). -/
def entryDropped (s : State) : State :=
  { s with closers := { s.closers with entry := 0, cut := [], books := s.closers.books.filter (fun b => b.close ≠ s.now), skipped := inc 0xFFFF s.closers.skipped } }

theorem skipBook_frame {s : State} (he : s.closers.entry = 1) : (skipBook s).outside [.daybook] = (entryDropped s).outside [.daybook] := by
  rw [skipBook, if_pos he, fire_outside _ _ _ _ _ _ (by decide)]
  rfl

theorem runs_bookSkipped {s : State} (he : s.closers.entry = 1) (hc : s.clock.cycle < 25600) :
    Runs .bookSkipped s (fun t => t.closers = { s.closers with entry := 0, cut := [], books := s.closers.books.filter (fun b => b.close ≠ s.now), skipped := inc 0xFFFF s.closers.skipped } ∧
      t.clock.cycle = 25599 ∧ t.now = s.now ∧ t.ledger = s.ledger) := by
  have he' : (s.at 25599).closers.entry = 1 := he
  have hcycle : (s.at 25599).clock.cycle = 25599 := by
    rw [at_cycle s (by decide) hc]
    omega
  have hf := skipBook_frame he'
  have hclock := same_clock hf (by decide)
  exact ⟨skipBook (s.at 25599), rfl, same_closers hf (by decide), (congrArg Clock.cycle hclock).trans hcycle, (congrArg Clock.close hclock :), (same_ledger hf (by decide) :)⟩

theorem runs_quietSliceStart {s : State} (hc : s.clock.cycle < 25600) :
    Runs .quietSliceStart s (fun t => t.quiet = true ∧ t.clock.cycle = max 24576 s.clock.cycle ∧ OnlyIn [.clock] s t) := by
  have hcycle := at_cycle s (by decide : 24576 < 25600) hc
  refine ⟨s.at 24576, rfl, quiet_eq_true ?_, hcycle, by simp [OnlyIn, State.at]⟩
  rw [hcycle]
  exact Nat.le_max_left ..

/-! ### The entries of the book, one by one (R46) -/

/-- What a change of the entry of one close makes of the book: that entry is changed, and every other stays. -/
theorem modBook_books (s : State) (close : Nat) (f : Book → Book) :
    (∀ x ∈ (modBook s close f).closers.books, x.close = close → ∃ b ∈ s.closers.books, x = f b) ∧
      (∀ x ∈ s.closers.books, x.close ≠ close → x ∈ (modBook s close f).closers.books) ∧ (modBook s close f).closers.books.length = s.closers.books.length := by
  have hbooks : (modBook s close f).closers.books = s.closers.books.map (fun b => if b.close = close then f b else b) := by
    simp [modBook, modIf_eq_map]
  rw [hbooks]
  refine ⟨?_, ?_, List.length_map ..⟩
  · intro x hx hclose
    obtain ⟨b, hb, rfl⟩ := List.mem_map.mp hx
    split at hclose
    next h => exact ⟨b, hb, if_pos h⟩
    next h => exact absurd hclose h
  · intro x hx hclose
    exact List.mem_map.mpr ⟨x, hx, if_neg hclose⟩

theorem bookReadback_eq {s : State} {b : Book} (good : Bool) (h : unreadBook s = some b) :
    bookReadback s good = modBook s b.close (fun b => if good then { b with readBack := true } else { b with torn := true }) := by
  simp only [bookReadback, h]

theorem runs_bookReadback_good {s : State} {b : Book} (h : unreadBook s = some b) :
    Runs (.bookReadback true) s (fun t => (∀ x ∈ t.closers.books, x.close = b.close → x.readBack = true) ∧
      (∀ x ∈ s.closers.books, x.close ≠ b.close → x ∈ t.closers.books) ∧ t.closers.books.length = s.closers.books.length ∧ t.closers.rewritten = s.closers.rewritten) := by
  obtain ⟨hsame, hother, hlen⟩ := modBook_books s b.close (fun b => { b with readBack := true })
  refine ⟨_, congrArg Host.Outcome.next (bookReadback_eq true h), fun x hx hclose => ?_, hother, hlen, rfl⟩
  obtain ⟨y, -, rfl⟩ := hsame x hx hclose
  rfl

theorem runs_bookReadback_bad {s : State} {b : Book} (h : unreadBook s = some b) :
    Runs (.bookReadback false) s (fun t => (∀ x ∈ t.closers.books, x.close = b.close → x.torn = true) ∧ (∀ c, unreadBook t = some c → c.close ≠ b.close) ∧
      (∀ x ∈ s.closers.books, x.close ≠ b.close → x ∈ t.closers.books) ∧ t.closers.books.length = s.closers.books.length ∧ t.closers.rewritten = s.closers.rewritten) := by
  obtain ⟨hsame, hother, hlen⟩ := modBook_books s b.close (fun b => { b with torn := true })
  have htorn : ∀ x ∈ (modBook s b.close (fun b => { b with torn := true })).closers.books, x.close = b.close → x.torn = true := by
    intro x hx hclose
    obtain ⟨y, -, rfl⟩ := hsame x hx hclose
    rfl
  refine ⟨_, congrArg Host.Outcome.next (bookReadback_eq false h), htorn, fun c hc hclose => ?_, hother, hlen, rfl⟩
  have hfree := List.find?_some hc
  simp [htorn c (List.mem_of_find?_eq_some hc) hclose] at hfree

theorem runs_bookRewrite {s : State} {b : Book} (h : tornBook s = some b) (hr : closesRun s = true) (hc : s.clock.cycle < 24576) :
    Runs .bookRewrite s (fun t => (∀ x ∈ t.closers.books, x.close = b.close → x.torn = false) ∧
      (∀ x ∈ s.closers.books, x.close ≠ b.close → x ∈ t.closers.books) ∧ t.closers.rewritten = inc 0xFFFF s.closers.rewritten) := by
  have he : bookRewrite s = modBook { s with closers := { s.closers with rewritten := inc 0xFFFF s.closers.rewritten } } b.close (fun b => { b with torn := false }) := by
    simp [bookRewrite, h, hr, quiet_eq_false hc]
  obtain ⟨hsame, hother, -⟩ := modBook_books { s with closers := { s.closers with rewritten := inc 0xFFFF s.closers.rewritten } } b.close
    (fun b => { b with torn := false })
  refine ⟨_, congrArg Host.Outcome.next he, fun x hx hclose => ?_, hother, rfl⟩
  obtain ⟨y, -, rfl⟩ := hsame x hx hclose
  rfl

theorem exec_bookRewrite_quiet {s : State} (hc : 24576 ≤ s.clock.cycle) : exec .bookRewrite s = .next s := by
  refine congrArg Host.Outcome.next ?_
  unfold bookRewrite
  split
  · rfl
  · rw [if_pos (by simp [quiet_eq_true hc])]

/-- Settles O18: the cut by the records that `cutRecords` takes in, the book entries by what `modBook` changes. -/
theorem cutsAndBookEntries : Obligations.CutsAndBookEntries :=
  ⟨fun _ _ => runs_cut,
    ⟨fun _ _ => runs_bookEntryIssue, fun _ he => congrArg Host.Outcome.next (if_pos he), fun _ => runs_bookSkipped, fun _ => runs_quietSliceStart⟩,
    fun _ _ => runs_bookReadback_good, fun _ _ => runs_bookReadback_bad, fun _ _ => runs_bookRewrite, fun _ => exec_bookRewrite_quiet⟩

end Sys2Proof.Machine
end

section
namespace Sys2Proof.Machine

/-! ## The vote (O19) -/

/-- The state in which the verdicts of a close are judged against the one used (R50). -/
def judged (s : State) (v : Verdict) : State :=
  s.closers.verdicts.foldl (fun s e => modCloser s e.1 (judgeCloser s.now e.2 v)) s

/-- The state after a vote that gives a verdict. -/
def voted (s : State) (v : Verdict) : State :=
  { judged s v with closers := { (judged s v).closers with
      used := some v, total := hold 0xFFFF ((judged s v).closers.total + countIf (fun (e : Nat × Verdict) => e.2 ≠ v) s.closers.verdicts) } }

theorem vote_eq {s : State} (hr : closesRun s = true) (hv : s.closers.verdicts ≠ []) (hu : s.closers.used = none) (hc : s.clock.cycle < 24576) :
    vote s = match voteOutcome (votes s) with
      | none => halt (s.at 24559)
      | some v => voted (s.at 24559) v := by
  have hrun : closesRun (s.at 24559) = true := hr
  have hsome : (s.at 24559).closers.verdicts.isEmpty = false := by simpa [State.at] using hv
  have hused : (s.at 24559).closers.used = none := hu
  have hopen : ¬ (!closesRun (s.at 24559) || (s.at 24559).closers.verdicts.isEmpty || (s.at 24559).closers.used.isSome || (s.at 24559).quiet) = true := by
    simp [hrun, hsome, hused, at_quiet_of_lt (by decide : 24559 < 24576) hc]
  exact (if_neg hopen).trans rfl

theorem vote_of_some {s : State} {v : Verdict} (hr : closesRun s = true) (hv : s.closers.verdicts ≠ []) (hu : s.closers.used = none) (hc : s.clock.cycle < 24576)
    (ho : voteOutcome (votes s) = some v) : exec .vote s = .next (voted (s.at 24559) v) := by
  refine congrArg Host.Outcome.next ?_
  rw [vote_eq hr hv hu hc, ho]

theorem vote_of_none {s : State} (hr : closesRun s = true) (hv : s.closers.verdicts ≠ []) (hu : s.closers.used = none) (hc : s.clock.cycle < 24576)
    (ho : voteOutcome (votes s) = none) : exec .vote s = .next (halt (s.at 24559)) := by
  refine congrArg Host.Outcome.next ?_
  rw [vote_eq hr hv hu hc, ho]

theorem halted_eq_false {s : State} (hr : closesRun s = true) : s.chip.halted = false := by
  simp only [closesRun, Bool.and_eq_true, Bool.not_eq_true'] at hr
  exact hr.2

/-! ### The closers after the vote (R50) -/

theorem judged_frame (s : State) (v : Verdict) : (judged s v).outside [.closers] = s.outside [.closers] := outside_foldl (by simp [modCloser])

theorem closer_modCloser_same {s : State} {n : Nat} (f : Closer → Closer) (h : n < s.closers.units.length) : closer (modCloser s n f) n = f (closer s n) :=
  modAt_drop_headD f {} n s.closers.units h

theorem closer_modCloser_other {s : State} {n m : Nat} (f : Closer → Closer) (h : n ≠ m) : closer (modCloser s n f) m = closer s m :=
  modAt_drop_headD_other f {} s.closers.units h

/-- A closer without a verdict stays as it is. -/
theorem closer_judgeAll_absent {l : List (Nat × Verdict)} {v : Verdict} {n : Nat} (hn : n ∉ l.map (fun e => e.1)) (s : State) :
    closer (l.foldl (fun s e => modCloser s e.1 (judgeCloser s.now e.2 v)) s) n = closer s n := by
  induction l generalizing s with
  | nil => rfl
  | cons e l ih =>
    obtain ⟨hne, hl⟩ := not_or.mp (mt List.mem_cons.mpr hn)
    rw [List.foldl_cons, ih hl, closer_modCloser_other _ (Ne.symm hne)]

/-- A closer with one verdict is judged by it once (R50). -/
theorem closer_judgeAll {l : List (Nat × Verdict)} {v w : Verdict} {n : Nat} (hd : (l.map (fun e => e.1)).Nodup) (hn : (n, w) ∈ l) {s : State} (h : n < s.closers.units.length) :
    closer (l.foldl (fun s e => modCloser s e.1 (judgeCloser s.now e.2 v)) s) n = judgeCloser s.now w v (closer s n) := by
  induction l generalizing s with
  | nil => cases hn
  | cons e l ih =>
    obtain ⟨he, hd⟩ := List.nodup_cons.mp hd
    rw [List.foldl_cons]
    obtain rfl | hn := List.mem_cons.mp hn
    · rw [closer_judgeAll_absent he, closer_modCloser_same _ h]
    · have hne : e.1 ≠ n := by
        rintro rfl
        exact he (List.mem_map.mpr ⟨_, hn, rfl⟩)
      have hlen : n < (modCloser s e.1 (judgeCloser s.now e.2 v)).closers.units.length := by simpa [modCloser] using h
      rw [ih hd hn hlen, closer_modCloser_other _ hne]
      rfl

/-- What a judgment changes of a closer's counts: nothing where it agrees with the verdict used, one disagreement more where it differs (R50). -/
theorem judgeCloser_counts (now : Nat) (w v : Verdict) (c : Closer) :
    (w = v → (judgeCloser now w v c).dis = c.dis ∧ (judgeCloser now w v c).leaving = c.leaving) ∧
      (w ≠ v → (judgeCloser now w v c).dis = c.dis.filter (fun k => now < k + 2 ^ 20) ++ [now] ∧
        (4 ≤ (judgeCloser now w v c).dis.length → (judgeCloser now w v c).leaving = true)) := by
  constructor
  · intro h
    simp [judgeCloser, h]
  · intro h
    rw [judgeCloser, if_neg h]
    exact ⟨rfl, fun hlen => Bool.or_eq_true_iff.mpr (.inr (decide_eq_true hlen))⟩

theorem runs_vote_used {s : State} {v : Verdict} (hr : closesRun s = true) (hv : s.closers.verdicts ≠ []) (hu : s.closers.used = none) (hc : s.clock.cycle < 24576)
    (ho : voteOutcome (votes s) = some v) : Runs .vote s (fun t => t.closers.used = some v ∧ t.chip.halted = false) := by
  refine ⟨_, vote_of_some hr hv hu hc ho, rfl, ?_⟩
  have hchip := same_chip (judged_frame (s.at 24559) v) (by decide)
  exact (congrArg Chip.halted hchip).trans (halted_eq_false hr)

theorem runs_vote_counts {s : State} {v : Verdict} (hr : closesRun s = true) (hv : s.closers.verdicts ≠ []) (hu : s.closers.used = none) (hc : s.clock.cycle < 24576)
    (ho : voteOutcome (votes s) = some v) (hd : (s.closers.verdicts.map (fun e => e.1)).Nodup) (h4 : s.closers.units.length = 4) :
    Runs .vote s (fun t => ∀ n w, n < 4 → (n, w) ∈ s.closers.verdicts →
      (w = v → (closer t n).dis = (closer s n).dis ∧ (closer t n).leaving = (closer s n).leaving) ∧
      (w ≠ v → (closer t n).dis = (closer s n).dis.filter (fun c => s.now < c + 2 ^ 20) ++ [s.now] ∧
        (4 ≤ (closer t n).dis.length → (closer t n).leaving = true))) := by
  refine ⟨_, vote_of_some hr hv hu hc ho, fun n w hn hmem => ?_⟩
  have hcloser : closer (voted (s.at 24559) v) n = judgeCloser s.now w v (closer s n) :=
    closer_judgeAll (s := s.at 24559) hd hmem (hn.trans_eq h4.symm)
  rw [hcloser]
  exact judgeCloser_counts s.now w v (closer s n)

/-! ### A vote that halts the unit (R54) -/

theorem setCloserMode_closers (s : State) (m : Nat) : (setCloserMode s m).closers = { s.closers with mode := m } := by
  unfold setCloserMode
  split
  case isTrue h => rw [h]
  case isFalse =>
    dsimp only
    rw [same_closers (s := { s with closers := { s.closers with mode := m } }) (ps := [.ints, .link, .hostMem]) (by simp) (by decide)]

theorem halt_closers {s : State} (h : s.chip.halted = false) : (halt s).closers = { s.closers with mode := 2, eventClose := s.now } := by
  rw [halt_eq h, same_closers (fire_outside (ps := [.daybook]) _ _ _ _ _ _ (by decide)) (by decide), setCloserMode_closers]
  rfl

/-- What a halt leaves of the stopped unit, outside its wickets, closers, interrupts and daybook. -/
theorem halt_frame {s : State} (h : s.chip.halted = false) :
    (halt s).outside [.wickets, .closers, .ints, .link, .daybook, .hostMem] = (stopped s).outside [.wickets, .closers, .ints, .link, .daybook, .hostMem] := by
  rw [halt_eq h]
  simp

theorem halt_wickets {s : State} (h : s.chip.halted = false) : (halt s).wickets = (setAllWickets (stopped s) (fun w => { w with state := 0 })).wickets := by
  rw [halt_eq h]
  exact same_wickets (ps := [.closers, .ints, .link, .daybook, .hostMem]) (by simp) (by decide)

theorem wk_halt {s : State} {w : Nat} (h : s.chip.halted = false) (hw : w < wicketCount s) : (wk (halt s) w).state = 0 := by
  have hwk : wk (halt s) w = wk (setAllWickets (stopped s) (fun w => { w with state := 0 })) w := by rw [wk, halt_wickets h, wk]
  rw [hwk, wk_setAllWickets (stopped s) _ hw]

theorem runs_vote_halts {s : State} (hr : closesRun s = true) (hv : s.closers.verdicts ≠ []) (hu : s.closers.used = none) (hc : s.clock.cycle < 24576)
    (ho : voteOutcome (votes s) = none) :
    Runs .vote s (fun t => t.chip = { s.chip with halted := true } ∧ t.closers.mode = 2 ∧ t.closers.used = none ∧ t.closers.eventClose = s.now ∧
      t.pair.fenced = true ∧ t.pair.sendState = 3 ∧ t.pair.intakeHeld = true ∧
      t.pair.tallyCount = s.pair.tallyCount + (if s.ch (·.units) 1 = 2 ∧ 8 ≤ s.chip.step ∧ s.chip.step ≠ 13 ∧ s.chip.step ≠ 14 then 1 else 0) ∧ t.wickets.unitFailed = true ∧
      (∀ w < wicketCount s, (wk t w).state = 0) ∧ t.ledger = s.ledger) := by
  have hh : (s.at 24559).chip.halted = false := halted_eq_false hr
  have hclosers := halt_closers hh
  have hpair := same_pair (halt_frame hh) (by decide)
  have hledger := same_ledger (halt_frame hh) (by decide)
  refine ⟨_, vote_of_none hr hv hu hc ho, (halt_effect hh).1, ?_, ?_, ?_, ?_, ?_, ?_, ?_, ?_, fun w hw => wk_halt hh hw, (hledger :)⟩
  · rw [hclosers]
  · rw [hclosers]
    exact hu
  · rw [hclosers]
    rfl
  · rw [hpair]
    rfl
  · rw [hpair]
    rfl
  · rw [hpair]
    rfl
  · rw [hpair]
    refine congrArg (s.pair.tallyCount + ·) (if_congr ?_ rfl rfl)
    simp only [Bool.and_eq_true, decide_eq_true_eq, and_assoc]
    exact Iff.rfl
  · rw [halt_wickets hh]
    rfl

/-- Settles O19: the outcomes of the table by `voteOutcome`, the counts by `judgeCloser`, and a vote without an outcome by `halt`. -/
theorem votesDecide : Obligations.VotesDecide := by
  refine ⟨fun s hr hv hu hc => ⟨?_, ?_, ?_, ?_, ?_⟩, fun s v => runs_vote_counts, fun s => runs_vote_halts⟩
  · intro v h
    exact runs_vote_used hr hv hu hc (by simp [h, voteOutcome])
  · rintro v w hne (h | h | h) <;> exact runs_vote_used hr hv hu hc (by simp [h, voteOutcome, hne, Ne.symm hne])
  · intro u v w huv hvw huw h
    obtain ⟨t, ht, hchip, -, hused, -⟩ := runs_vote_halts hr hv hu hc (by simp [h, voteOutcome, huv, hvw, huw])
    exact ⟨t, ht, hused, by rw [hchip]⟩
  · intro v h
    exact runs_vote_used hr hv hu hc (by simp [h, voteOutcome])
  · intro v w hne h
    obtain ⟨t, ht, hchip, -, hused, -⟩ := runs_vote_halts hr hv hu hc (by simp [h, voteOutcome, hne])
    exact ⟨t, ht, hused, by rw [hchip]⟩

end Sys2Proof.Machine
end

section
namespace Sys2Proof.Machine

/-! ## Control messages and stream frames of the chain (O48) -/

/-! ### Messages about records, book entries and posted commands (R46, R104, R113, R381) -/

theorem exec_confirm {seq : Nat} {s : State} (hp : isPair s = true) (hm : s.pair.mode ≠ 5) :
    exec (.confirm seq) s = .next { s with ledger := { s.ledger with recs := s.ledger.recs.map (fun r => if r.seq = seq ∧ r.state = .complete then { r with state := .countersigned } else r) } } := by
  have hmode : ∀ f, (modRec s seq f).pair.mode ≠ 5 := fun _ => hm
  have hrec : ∀ r : Rec, (if r.seq = seq then if r.state = .complete then { r with state := .countersigned } else r else r) =
      if r.seq = seq ∧ r.state = .complete then { r with state := .countersigned } else r := fun r => by
    by_cases hs : r.seq = seq <;> simp [hs]
  refine congrArg Host.Outcome.next ?_
  rw [if_pos hp, confirmed, if_neg (by simp [hmode])]
  simp only [modRec, modIf_eq_map, decide_eq_true_eq, hrec]

theorem exec_bookHeld (close : Nat) (s : State) :
    exec (.bookHeld close) s = .next { s with closers := { s.closers with books := s.closers.books.map (fun b => if b.close = close then { b with partnerHeld := true } else b) } } := by
  refine congrArg Host.Outcome.next ?_
  simp only [bookIsHeld, modIf_eq_map, decide_eq_true_eq]

/-- A record that is released leaves every sequence of the list as it was. -/
theorem outlive_seq {new : Rec} {recs : List Rec} {r : Rec} (h : r ∈ outlive new recs) : ∃ q ∈ recs, q.seq = r.seq := by
  unfold outlive at h
  split at h
  · exact ⟨r, h, rfl⟩
  · obtain ⟨q, hq, rfl⟩ := List.mem_map.mp h
    refine ⟨q, hq, ?_⟩
    split <;> rfl

/-- Confirmations that go out change only the state of copies. -/
theorem confirmCopies_keeps (s : State) :
    (∀ r ∈ (confirmCopies s).ledger.copies, ∃ q ∈ s.ledger.copies, q.seq = r.seq) ∧ (confirmCopies s).ledger.recs = s.ledger.recs ∧ (confirmCopies s).pair = s.pair := by
  refine List.foldlRecOn (motive := fun u : State => (∀ r ∈ u.ledger.copies, ∃ q ∈ s.ledger.copies, q.seq = r.seq) ∧ u.ledger.recs = s.ledger.recs ∧ u.pair = s.pair) _ _
    ⟨fun r hr => ⟨r, hr, rfl⟩, rfl, rfl⟩ ?_
  rintro u ⟨hcopies, hrecs, hpair⟩ x -
  split
  · refine ⟨fun r hr => ?_, hrecs, hpair⟩
    simp only [sendControl, modIf_eq_map] at hr
    obtain ⟨q, hq, rfl⟩ := List.mem_map.mp hr
    obtain ⟨p, hp, hseq⟩ := hcopies q hq
    refine ⟨p, hp, hseq.trans ?_⟩
    split <;> rfl
  · exact ⟨hcopies, hrecs, hpair⟩

/-- The copies that are left when those of a sequence are released. -/
theorem seq_ne_of_mem_outliveAll {seq : Nat} {news recs : List Rec} {r : Rec} (hr : r ∈ news.foldl (fun rs r => outlive r rs) (recs.filter (fun r => r.seq ≠ seq))) :
    r.seq ≠ seq := by
  refine List.foldlRecOn (motive := fun rs : List Rec => ∀ r ∈ rs, r.seq ≠ seq) news _ ?_ ?_ r hr
  · intro q hq
    simpa using (List.mem_filter.mp hq).2
  · intro rs hrs new _ q hq
    obtain ⟨p, hp, hseq⟩ := outlive_seq hq
    rw [← hseq]
    exact hrs p hp

theorem runs_releaseNotice {seq : Nat} {s : State} (hp : isPair s = true) :
    Runs (.releaseNotice seq) s (fun t => (∀ r ∈ t.ledger.copies, r.seq ≠ seq) ∧ (∀ p ∈ t.pair.posted, p.2.2 ≠ seq) ∧ t.ledger.recs = s.ledger.recs ∧ OnlyIn [.ledger, .chain, .pair] s t) := by
  refine ⟨released s seq, congrArg Host.Outcome.next (if_pos hp), ?_⟩
  obtain ⟨hcopies, hrecs, hpair⟩ := confirmCopies_keeps { s with
    ledger := { s.ledger with copies := (s.ledger.copies.filter (fun r => r.seq = seq)).foldl (fun rs r => outlive r rs) (s.ledger.copies.filter (fun r => r.seq ≠ seq)) }
    pair := { s.pair with posted := s.pair.posted.filter (fun p => p.2.2 ≠ seq) } }
  refine ⟨fun r hr => ?_, fun p hmem => ?_, hrecs, by simp [OnlyIn]⟩
  · obtain ⟨q, hq, hseq⟩ := hcopies r hr
    rw [← hseq]
    exact seq_ne_of_mem_outliveAll hq
  · rw [released, hpair] at hmem
    simpa using (List.mem_filter.mp hmem).2

theorem runs_postedNotice {tag ring seq : Nat} {s : State} (hp : isPair s = true) :
    Runs (.postedNotice tag ring seq) s (fun t => (∀ p, p ∈ t.pair.posted ↔ p ∈ s.pair.posted ∨ p = (tag, ring, seq)) ∧ OnlyIn [.pair] s t) := by
  refine ⟨postedArrives s tag ring seq, congrArg Host.Outcome.next (if_pos hp), fun p => ?_, by simp [OnlyIn]⟩
  simp [postedArrives, List.mem_eraseDups]

theorem exec_notices_single {seq : Nat} {s : State} (hp : isPair s = false) :
    exec (.confirm seq) s = .next s ∧ exec (.releaseNotice seq) s = .next s ∧ ∀ tag ring, exec (.postedNotice tag ring seq) s = .next s := by
  have hn : ¬ isPair s = true := by simp [hp]
  exact ⟨congrArg Host.Outcome.next (if_neg hn), congrArg Host.Outcome.next (if_neg hn), fun _ _ => congrArg Host.Outcome.next (if_neg hn)⟩

/-! ### TOKEN (R382) -/

theorem exec_token {map units : Nat} {s : State} (ha : alive s = true) (hc : s.ch (·.chainPresent) false = true) (h5 : 5 ≤ s.chip.step) :
    exec (.token map units) s = .next (tokenPass s map units).1 :=
  congrArg Host.Outcome.next (if_pos (by simp [ha, hc, h5]))

/-- The lowest clear address of a Token's map. -/
theorem find?_clear {map a : Nat} (ha : a < 16) (hclear : bit map a = false) (hset : ∀ b < a, bit map b = true) :
    (List.range 16).find? (fun i => !bit map i) = some a := by
  rw [List.find?_range_eq_some]
  exact ⟨by simp [hclear], List.mem_range.mpr ha, fun j hj => by simp [hset j hj]⟩

theorem tokenPass_behind {map units a : Nat} {s : State} (hh : s.chip.chainHead = false)
    (ha : s.chain.address.getD (((List.range 16).find? (fun i => !bit map i)).getD 15) = a) :
    (tokenPass s map units).1 = { s with chain := { s.chain with address := some a, tokenClose := s.now, units := if units = 0 then s.chain.units else units } } := by
  rw [tokenPass, if_neg (by simp [hh]), ha]

theorem tokenPass_head {map units : Nat} {s : State} (hh : s.chip.chainHead = true) :
    (tokenPass s map units).1 = { s with chain := { s.chain with tokenClose := s.now, units := if units = 0 then (bitsOf 16 map).length else units } } := by
  rw [tokenPass, if_pos hh]

theorem exec_token_unaddressed {map units a : Nat} {s : State} (hal : alive s = true) (hc : s.ch (·.chainPresent) false = true) (h5 : 5 ≤ s.chip.step)
    (hh : s.chip.chainHead = false) (hn : s.chain.address = none) (ha : a < 16) (hclear : bit map a = false) (hset : ∀ b < a, bit map b = true) :
    exec (.token map units) s = .next { s with chain := { s.chain with address := some a, tokenClose := s.now, units := if units = 0 then s.chain.units else units } } := by
  have hlow : s.chain.address.getD (((List.range 16).find? (fun i => !bit map i)).getD 15) = a := by
    rw [hn, find?_clear ha hclear hset]
    rfl
  rw [exec_token hal hc h5, tokenPass_behind hh hlow]

theorem exec_token_addressed {map units a : Nat} {s : State} (hal : alive s = true) (hc : s.ch (·.chainPresent) false = true) (h5 : 5 ≤ s.chip.step)
    (hh : s.chip.chainHead = false) (ha : s.chain.address = some a) :
    exec (.token map units) s = .next { s with chain := { s.chain with tokenClose := s.now, units := if units = 0 then s.chain.units else units } } := by
  have hown : s.chain.address.getD (((List.range 16).find? (fun i => !bit map i)).getD 15) = a := by
    rw [ha]
    rfl
  rw [exec_token hal hc h5, tokenPass_behind hh hown, ← ha]

/-! ### STREAM_FRAME_ARRIVAL (R373–R380) -/

theorem chLane_modChLane_same {s : State} {i : Nat} (f : ChainLane → ChainLane) (h : i < s.chain.lanes.length) : chLane (modChLane s i f) i = f (chLane s i) :=
  modAt_drop_headD f {} i s.chain.lanes h

theorem chLane_modChLane_other {s : State} {i j : Nat} (f : ChainLane → ChainLane) (h : i ≠ j) : chLane (modChLane s i f) j = chLane s j :=
  modAt_drop_headD_other f {} s.chain.lanes h

@[simp] theorem modChLane_lanes_length (s : State) (i : Nat) (f : ChainLane → ChainLane) : (modChLane s i f).chain.lanes.length = s.chain.lanes.length := modAt_length ..

/-- Changes of lanes, one after the other, leave every other field of the chain part. -/
theorem foldl_modChLane_chain (l : List Nat) (i : Nat → Nat) (f : State → Nat → ChainLane → ChainLane) (s : State) :
    (l.foldl (fun s n => modChLane s (i n) (f s n)) s).chain = { s.chain with lanes := (l.foldl (fun s n => modChLane s (i n) (f s n)) s).chain.lanes } :=
  List.foldlRecOn (motive := fun u : State => u.chain = { s.chain with lanes := u.chain.lanes }) l _ rfl
    (fun u hu _ _ => by simp only [modChLane]; rw [hu])

/-- The window of failed checks ages without a change of what is counted (R402). -/
theorem ageWindow_crc (s : State) (dir : Nat) {j : Nat} (h : j < s.chain.lanes.length) : (chLane (ageWindow s dir) j).crc = (chLane s j).crc := by
  refine (List.foldlRecOn (motive := fun u : State => u.chain.lanes.length = s.chain.lanes.length ∧ (chLane u j).crc = (chLane s j).crc) _ _ ⟨rfl, rfl⟩ ?_).2
  rintro u ⟨hlen, hcrc⟩ l -
  refine ⟨by simp [hlen], ?_⟩
  by_cases hj : 3 * dir + l = j
  · rw [hj, chLane_modChLane_same _ (hlen.symm ▸ h), ← hcrc]
  · rw [chLane_modChLane_other _ hj, hcrc]

/-- A failed check of one lane (R402). -/
def laneFailed (s : State) (dir l : Nat) : State :=
  modChLane s (3 * dir + l) (fun c => { c with crc := inc 0xFFFFFFFF c.crc, crcWindow := c.crcWindow ++ [s.chain.frame] })

theorem laneFailed_absent {ls : List Nat} {dir l : Nat} (hl : l ∉ ls) (s : State) : chLane (ls.foldl (fun s l => laneFailed s dir l) s) (3 * dir + l) = chLane s (3 * dir + l) := by
  induction ls generalizing s with
  | nil => rfl
  | cons k ls ih =>
    obtain ⟨hne, hl⟩ := not_or.mp (mt List.mem_cons.mpr hl)
    rw [List.foldl_cons, ih hl, laneFailed, chLane_modChLane_other _ (by omega)]

/-- Of lanes listed once each, every one that failed is counted once (R402). -/
theorem laneFailed_crc {ls : List Nat} {dir l : Nat} (hd : ls.Nodup) (hl : l ∈ ls) {s : State} (h : 3 * dir + l < s.chain.lanes.length) :
    (chLane (ls.foldl (fun s l => laneFailed s dir l) s) (3 * dir + l)).crc = inc 0xFFFFFFFF (chLane s (3 * dir + l)).crc := by
  induction ls generalizing s with
  | nil => cases hl
  | cons k ls ih =>
    obtain ⟨hk, hd⟩ := List.nodup_cons.mp hd
    rw [List.foldl_cons]
    by_cases hkl : k = l
    · subst hkl
      rw [laneFailed_absent hk, laneFailed, chLane_modChLane_same _ h]
    · have hlen : 3 * dir + l < (laneFailed s dir k).chain.lanes.length := by simpa [laneFailed] using h
      rw [ih hd ((List.mem_cons.mp hl).resolve_left (Ne.symm hkl)) hlen, laneFailed, chLane_modChLane_other _ (by omega)]

theorem badChecks_eq (s : State) (dir : Nat) (lanes : List Nat) : badChecks s dir lanes = (lanes.filter (· < 3)).eraseDups.foldl (fun s l => laneFailed s dir l) s := rfl

theorem nodup_eraseDups {α : Type} [BEq α] [LawfulBEq α] : ∀ l : List α, l.eraseDups.Nodup
  | [] => by simp
  | a :: l => by
    rw [List.eraseDups_cons, List.nodup_cons]
    exact ⟨by simp [List.mem_eraseDups], nodup_eraseDups _⟩
termination_by l => l.length
decreasing_by exact Nat.lt_succ_of_le (List.length_filter_le ..)

theorem badChecks_crc {s : State} {dir l : Nat} {lanes : List Nat} (hl : l ∈ lanes) (h3 : l < 3) (h : 3 * dir + l < s.chain.lanes.length) :
    (chLane (badChecks s dir lanes) (3 * dir + l)).crc = inc 0xFFFFFFFF (chLane s (3 * dir + l)).crc := by
  rw [badChecks_eq, laneFailed_crc (nodup_eraseDups _) (by simp [List.mem_eraseDups, hl, h3]) h]

theorem badChecks_chain (s : State) (dir : Nat) (lanes : List Nat) : (badChecks s dir lanes).chain = { s.chain with lanes := (badChecks s dir lanes).chain.lanes } :=
  foldl_modChLane_chain _ (fun l => 3 * dir + l) (fun s _ c => { c with crc := inc 0xFFFFFFFF c.crc, crcWindow := c.crcWindow ++ [s.chain.frame] }) s

theorem ageWindow_chain (s : State) (dir : Nat) : (ageWindow s dir).chain = { s.chain with lanes := (ageWindow s dir).chain.lanes } :=
  foldl_modChLane_chain _ (fun l => 3 * dir + l) (fun s _ c => { c with crcWindow := c.crcWindow.filter (fun n => (s.chain.frame + 2 ^ 32 - n) % 2 ^ 32 < 2 ^ 20) }) s

theorem exec_streamFrameArrival {dir : Nat} {f : Frame} {s : State} (hd : dir < 2) (hp : s.chip.pwrgd = true) (ht : s.chip.testMode = false) (hc : s.ch (·.chainPresent) false = true) :
    exec (.streamFrameArrival dir f) s = .next (frameArrives s dir f) :=
  congrArg Host.Outcome.next (if_pos (by simp [hd, hp, ht, hc]))

/-- The state with the frame counter at a number. -/
def atFrame (s : State) (n : Nat) : State := { s with chain := { s.chain with frame := n } }

theorem frameArrives_bad {s : State} {f : Frame} (dir : Nat) (hf : f.goodChecks = false) :
    frameArrives s dir f = { ageWindow (badChecks (atFrame s ((s.chain.frame + 1) % 2 ^ 32)) dir f.badLanes) dir with
      chain := { (ageWindow (badChecks (atFrame s ((s.chain.frame + 1) % 2 ^ 32)) dir f.badLanes) dir).chain with discard := true, txFrame := some (dir, f) } } := by
  rw [frameArrives, if_pos (by simp [hf]), if_neg (by simp [hf])]
  rfl

theorem runs_streamFrameArrival_bad {dir : Nat} {f : Frame} {s : State} (hd : dir < 2) (hp : s.chip.pwrgd = true) (ht : s.chip.testMode = false)
    (hc : s.ch (·.chainPresent) false = true) (hf : f.goodChecks = false) :
    Runs (.streamFrameArrival dir f) s (fun t => t.chain.discard = true ∧ t.chain.txFrame = some (dir, f) ∧ t.chain.frame = (s.chain.frame + 1) % 2 ^ 32 ∧ OnlyIn [.chain] s t ∧
      ∀ l ∈ f.badLanes, l < 3 → 3 * dir + l < s.chain.lanes.length → (chLane t (3 * dir + l)).crc = inc 0xFFFFFFFF (chLane s (3 * dir + l)).crc) := by
  refine ⟨_, (exec_streamFrameArrival hd hp ht hc).trans (congrArg Host.Outcome.next (frameArrives_bad dir hf)), rfl, rfl, ?_, by simp [OnlyIn, atFrame], fun l hl h3 h => ?_⟩
  · dsimp only
    rw [ageWindow_chain, badChecks_chain]
    rfl
  · have hlen : 3 * dir + l < (badChecks (atFrame s ((s.chain.frame + 1) % 2 ^ 32)) dir f.badLanes).chain.lanes.length := by
      rw [badChecks_eq]
      refine List.foldlRecOn (motive := fun u : State => 3 * dir + l < u.chain.lanes.length) _ _ h fun u hu k _ => ?_
      rw [laneFailed, modChLane_lanes_length]
      exact hu
    exact (ageWindow_crc _ dir hlen).trans (badChecks_crc hl h3 h)

/-- The unit whose first waiting message has gone into a control slot (R377). -/
def slotTaken (s : State) : State := { s with chain := { s.chain with ctlQueue := s.chain.ctlQueue.tail } }

theorem controlSlot_free (s : State) : controlSlot s none = (slotTaken s, s.chain.ctlQueue.head?) := by
  have hs : { s with chain := { s.chain with ctlQueue := s.chain.ctlQueue } } = s := rfl
  unfold controlSlot slotTaken
  cases h : s.chain.ctlQueue with
  | nil =>
    rw [h] at hs
    exact congrArg (·, none) hs.symm
  | cons m q => rfl

theorem fillSlots_single {s : State} (dir : Nat) (f : Frame) (hp : isPair s = false) : fillSlots s dir f = (s, f) := by
  rw [fillSlots, if_pos (by simp [hp])]

/-- What a single unit makes of a good frame that asks nothing of it: `u` is the unit as the frame finds it. -/
theorem frameArrives_good {s u : State} {f : Frame} {a dir : Nat} (hu : ageWindow { s with chain := { s.chain with frame := f.number % 2 ^ 32 } } dir = u) (hf : f.goodChecks = true)
    (hctl : f.control = none) (hp : isPair u = false) (ha : u.chain.address = some a) (h8 : 8 ≤ u.chip.step) (hreq : requestsFor a f = []) :
    frameArrives s dir f = { slotTaken u with chain := { (slotTaken u).chain with
      txFrame := some (dir, { f with control := u.chain.ctlQueue.head?, badLanes := [], tallies := tset f.tallies a (tallyByte u) }) } } := by
  have hpq : isPair (slotTaken u) = false := hp
  have haq : (slotTaken u).chain.address = some a := ha
  have h8q : 8 ≤ (slotTaken u).chip.step := h8
  have hnone : f.tallies.find? (fun _ => false) = none := List.find?_eq_none.mpr (by simp)
  simp only [frameArrives, hf, if_true, Bool.not_true, Bool.false_eq_true, if_false, hu, ha, Option.getD_some, hp, Bool.false_and, hnone, hreq, List.foldl_nil, hctl, controlSlot_free,
    fillSlots_single dir _ hpq, haq, Option.isSome_some, h8q, decide_true, Bool.and_self]
  rfl

theorem runs_streamFrameArrival_good {dir a : Nat} {f : Frame} {s : State} (hd : dir < 2) (hpw : s.chip.pwrgd = true) (ht : s.chip.testMode = false)
    (hc : s.ch (·.chainPresent) false = true) (hf : f.goodChecks = true) (hctl : f.control = none) (hp : isPair s = false) (ha : s.chain.address = some a) (h8 : 8 ≤ s.chip.step)
    (hreq : requestsFor a f = []) :
    Runs (.streamFrameArrival dir f) s (fun t => t.chain.frame = f.number % 2 ^ 32 ∧ t.chain.ctlQueue = s.chain.ctlQueue.tail ∧ OnlyIn [.chain] s t ∧
      ∃ g, t.chain.txFrame = some (dir, g) ∧ g.goodChecks = true ∧ g.payload = f.payload ∧ g.headers = f.headers ∧ g.control = s.chain.ctlQueue.head? ∧ tget 0 g.tallies a = tallyByte s) := by
  have hu : (ageWindow (atFrame s (f.number % 2 ^ 32)) dir).outside [.chain] = s.outside [.chain] := by simp [atFrame]
  have hchain := ageWindow_chain (atFrame s (f.number % 2 ^ 32)) dir
  have hpu : isPair (ageWindow (atFrame s (f.number % 2 ^ 32)) dir) = false := by rw [isPair, ch_of_frame _ _ hu (by decide), ← hp, isPair]
  have h8u : 8 ≤ (ageWindow (atFrame s (f.number % 2 ^ 32)) dir).chip.step := by rw [same_chip hu (by decide)]; exact h8
  have hau : (ageWindow (atFrame s (f.number % 2 ^ 32)) dir).chain.address = some a := by rw [hchain]; exact ha
  have hqu : (ageWindow (atFrame s (f.number % 2 ^ 32)) dir).chain.ctlQueue = s.chain.ctlQueue := by rw [hchain]; rfl
  have htally : tallyByte (ageWindow (atFrame s (f.number % 2 ^ 32)) dir) = tallyByte s := by rw [tallyByte, same_pair hu (by decide), tallyByte]
  refine ⟨_, (exec_streamFrameArrival hd hpw ht hc).trans (congrArg Host.Outcome.next (frameArrives_good rfl hf hctl hpu hau h8u hreq)), ?_, congrArg List.tail hqu, ?_,
    _, rfl, hf, rfl, rfl, congrArg List.head? hqu, ?_⟩
  · exact congrArg Chain.frame hchain
  · simp [OnlyIn, slotTaken]
  · exact (tget_tset_same ..).trans htally

/-! ### STREAM_FRAME_RETURN (R376, R380) -/

theorem exec_streamFrameReturn {dir : Nat} {f : Frame} {s : State} (hd : dir < 2) (hc : s.ch (·.chainPresent) false = true) :
    exec (.streamFrameReturn dir f) s = .next (frameReturns s f) :=
  congrArg Host.Outcome.next (if_pos (by simp [hd, hc]))

theorem isEmpty_filter_of_any {α : Type} {l : List α} {p : α → Bool} (h : l.any p = true) : (l.filter p).isEmpty = false := by
  obtain ⟨x, hx, hp⟩ := List.any_eq_true.mp h
  exact List.isEmpty_eq_false_iff.mpr (List.ne_nil_of_mem (List.mem_filter.mpr ⟨hx, hp⟩))

theorem exec_streamFrameReturn_taken {dir sent : Nat} {f : Frame} {s : State} (hd : dir < 2) (hc : s.ch (·.chainPresent) false = true)
    (hsent : sent = (f.number + 2 ^ 32 - s.chain.lap) % 2 ^ 32) (hw : s.chain.outstanding.any (fun w => w.1 = sent) = true) (ht : takenBy s f = true) :
    exec (.streamFrameReturn dir f) s = .next { s with chain := { s.chain with outstanding := s.chain.outstanding.filter (fun w => w.1 ≠ sent) } } := by
  subst hsent
  rw [exec_streamFrameReturn hd hc, frameReturns]
  dsimp only
  rw [if_neg (by simpa using hw), if_pos ht]

theorem exec_streamFrameReturn_again {dir sent : Nat} {f : Frame} {a b : List (Nat × Nat × List Byte)} {s : State} (hd : dir < 2) (hc : s.ch (·.chainPresent) false = true)
    (hsent : sent = (f.number + 2 ^ 32 - s.chain.lap) % 2 ^ 32) (ht : takenBy s f = false) (ho : s.chain.outstanding = a ++ b) (hkeep : ∀ w ∈ a, w.1 ≠ sent)
    (hb : ∃ w, b.head? = some w ∧ w.1 = sent) :
    exec (.streamFrameReturn dir f) s = .next { s with chain := { s.chain with
      outstanding := a, txQueue := b.map (fun w => w.2.2) ++ s.chain.txQueue, resend := true, restarts := inc 0xFFFF s.chain.restarts } } := by
  subst hsent
  obtain ⟨w, hhead, hw⟩ := hb
  obtain ⟨r, rfl⟩ : ∃ r, b = w :: r := List.head?_eq_some_iff.mp hhead
  have hany : (a ++ w :: r).any (fun x => x.1 = (f.number + 2 ^ 32 - s.chain.lap) % 2 ^ 32) = true := by simp [hw]
  have htake : (a ++ w :: r).takeWhile (fun x => x.1 ≠ (f.number + 2 ^ 32 - s.chain.lap) % 2 ^ 32) = a := by
    rw [List.takeWhile_append_of_pos (by simpa using hkeep), List.takeWhile_cons_of_neg (by simp [hw]), List.append_nil]
  rw [exec_streamFrameReturn hd hc, frameReturns]
  dsimp only
  rw [ho, isEmpty_filter_of_any hany, if_neg Bool.false_ne_true, if_neg (by simp [ht]), htake, List.drop_left]

theorem exec_streamFrameReturn_none {dir : Nat} {f : Frame} {s : State} (ho : s.chain.outstanding = []) : exec (.streamFrameReturn dir f) s = .next s := by
  refine congrArg Host.Outcome.next ?_
  split
  · rw [frameReturns, ho]
    rfl
  · rfl

/-- Settles O48: the messages by what each arrival changes, the frames by the lanes that `badChecks` counts and the slots that a good frame leaves as they are. -/
theorem chainFrames : Obligations.ChainFrames :=
  ⟨⟨fun _ _ => exec_confirm, exec_bookHeld, fun _ _ => runs_releaseNotice, fun _ _ _ _ => runs_postedNotice, fun _ _ => exec_notices_single,
      fun _ _ _ _ => exec_token_unaddressed, fun _ _ _ _ => exec_token_addressed, fun _ _ _ hal hc h5 hh => (exec_token hal hc h5).trans (congrArg Host.Outcome.next (tokenPass_head hh)),
      fun _ _ ha hd => congrArg Host.Outcome.next (if_pos (by simp [ha, hd])), fun _ _ ha => congrArg Host.Outcome.next (if_neg (by simp [ha]))⟩,
    fun _ _ _ => runs_streamFrameArrival_bad, fun _ _ _ _ => runs_streamFrameArrival_good, fun _ _ _ _ => exec_streamFrameReturn_taken,
    fun _ _ _ _ _ _ => exec_streamFrameReturn_again, fun _ _ _ => exec_streamFrameReturn_none⟩

end Sys2Proof.Machine
end

section
namespace Sys2Proof.Machine

/-! ## The block commands (O28) -/

/-! ### Commands found by their tag -/

theorem findCmd_modCmd_of_hdr {s : State} {tag : Nat} {c : Cmd} {f : Cmd → Cmd} (hf : ∀ c, (f c).hdr = c.hdr) (h : findCmd s tag = some c) :
    findCmd (modCmd s tag f) tag = some (f c) := by
  rw [findCmd_modCmd s tag f hf, h, Option.map_some]

theorem findCmd_modCmd_other {s : State} {tag t : Nat} {f : Cmd → Cmd} (hf : ∀ c, (f c).hdr = c.hdr) (h : t ≠ tag) : findCmd (modCmd s t f) tag = findCmd s tag := by
  refine find?_modIf_other _ _ f (fun c hc => ?_) (fun c hc => ?_) s.cmds
  · simpa [hf, of_decide_eq_true hc] using h
  · simpa [of_decide_eq_true hc] using h

theorem findCmd_of_cmds {s t : State} {tag : Nat} (h : t.cmds = s.cmds) : findCmd t tag = findCmd s tag := by
  rw [findCmd, h, findCmd]

theorem cmdIn_of {s : State} {tag : Nat} {c : Cmd} {p : Cmd → Bool} (h : findCmd s tag = some c) (hp : p c = true) : cmdIn s tag p = some c := by
  simp [cmdIn, h, hp]

theorem cmdIn_none_of {s : State} {tag : Nat} {c : Cmd} {p : Cmd → Bool} (h : findCmd s tag = some c) (hp : p c = false) : cmdIn s tag p = none := by
  simp [cmdIn, h, hp]

/-! ### The end of a command (R63) -/

theorem findCmd_queue {u v : State} {tag t : Nat} {c : Cmd} {p : Phase} (hv : v.cmds = u.cmds) (hp : p = .released ∨ p = .queued) (hu : findCmd u tag = some { c with phase := p }) :
    ∃ p, (p = .released ∨ p = .queued) ∧ findCmd (modCmd v t (fun c => { c with phase := .queued })) tag = some { c with phase := p } := by
  have hv := (findCmd_of_cmds hv).trans hu
  by_cases ht : t = tag
  · subst ht
    exact ⟨.queued, .inr rfl, findCmd_modCmd_of_hdr (c := { c with phase := p }) (f := fun c => { c with phase := .queued }) (fun _ => rfl) hv⟩
  · exact ⟨p, hp, (findCmd_modCmd_other (f := fun c => { c with phase := .queued }) (fun _ => rfl) ht).trans hv⟩

/-- Completions are queued with nothing else of the command changed. -/
theorem findCmd_settle {s : State} {tag : Nat} {c : Cmd} (h : findCmd s tag = some c) (hp : c.phase = .released) :
    ∃ p, (p = .released ∨ p = .queued) ∧ findCmd (settle s) tag = some { c with phase := p } := by
  refine List.foldlRecOn (motive := fun u : State => ∃ p, (p = .released ∨ p = .queued) ∧ findCmd u tag = some { c with phase := p }) _ _ ⟨.released, .inl rfl, ?_⟩ ?_
  · rw [h, ← hp]
  · rintro u ⟨p, hp, hu⟩ x -
    split
    · exact findCmd_queue (same_cmds (s := u) (ps := [.returns]) (by simp) (by decide)) hp hu
    · exact ⟨p, hp, hu⟩

theorem findCmd_finish {s : State} {tag : Nat} {c : Cmd} (status detail : Nat) (result : List Byte) (h : findCmd s tag = some c) :
    ∃ p, (p = .released ∨ p = .queued) ∧ findCmd (finish s tag status detail result) tag = some { c with phase := p, status, detail, result } :=
  findCmd_settle (c := { c with phase := .released, status, detail, result })
    (findCmd_modCmd_of_hdr (f := fun c => { c with phase := .released, status, detail, result }) (fun _ => rfl) h) rfl

/-! ### What an earlier write holds back -/

theorem any_modIf {α : Type} {p q : α → Bool} {f : α → α} (h : ∀ a, p a = true → q a = false ∧ q (f a) = false) (l : List α) : (modIf p f l).any q = l.any q := by
  induction l with
  | nil => rfl
  | cons a l ih =>
    by_cases ha : p a = true
    · simp [modIf, ha, ih, h a ha]
    · simp [modIf, ha, ih]

/-- Whether a read waits does not change with the read's own progress (R61). -/
theorem readWaits_modCmd {s : State} {c k : Cmd} {tag : Nat} {f : Cmd → Cmd} (hf : ∀ c, (f c).hdr = c.hdr) (hc : c.hdr.tag = tag) (hhdr : k.hdr = c.hdr) (hpos : k.pos = c.pos) :
    readWaits (modCmd s tag f) k = readWaits s c := by
  have hover : ∀ e : Cmd, e.overlaps k = e.overlaps c := fun e => by simp only [Cmd.overlaps, Cmd.vaultOverlap, Cmd.ranged, Cmd.writes, hhdr]
  have hany : ∀ q : Cmd → Bool, (∀ e, e.hdr.tag = tag → q e = false) → (modCmd s tag f).cmds.any q = s.cmds.any q := fun q hq =>
    any_modIf (fun e he => ⟨hq e (of_decide_eq_true he), hq (f e) (by rw [hf]; exact of_decide_eq_true he)⟩) s.cmds
  simp only [readWaits, hover, hhdr, hpos]
  rw [hany _ (fun e he => by simp [he, hc])]
  rfl

/-! ### The losses of a range (R156) -/

theorem lossPending_of_whole {s : State} {v : Nat} {bs : List Nat} (h : ∀ b ∈ bs, lossAt s v b = false) : lossPending s v bs = [] := by
  have hnone : s.degrade.loss.filter (fun e => (!e.durable || s.now ≤ e.durableAt) && bs.any (e.names v)) = [] := by
    refine List.filter_eq_nil_iff.mpr fun e he => ?_
    have hany : bs.any (e.names v) = false := List.any_eq_false.mpr fun b hb => List.any_eq_false.mp (h b hb) e he
    simp [hany]
  simp [lossPending, hnone]

theorem lostIn_of_whole {s : State} {v lba n : Nat} (h : ∀ i < n, lossAt s v (lba + i) = false) : lostIn s v lba n [] = [] := by
  have hnone : ∀ b ∈ (s.degrade.loss.filter (fun e => e.volume = v && e.lba < lba + n && lba < e.lba + e.blocks)).flatMap (fun e => (List.range e.blocks).map (· + e.lba)) ++ [],
      ¬ (decide (lba ≤ b) && decide (b < lba + n)) = true := by
    intro b hb hin
    simp only [List.append_nil, List.mem_flatMap, List.mem_filter, List.mem_map, List.mem_range, Bool.and_eq_true, decide_eq_true_eq] at hb hin
    obtain ⟨e, ⟨he, ⟨hv, -⟩, -⟩, k, hk, rfl⟩ := hb
    have hwhole := h (k + e.lba - lba) (by omega)
    rw [show lba + (k + e.lba - lba) = k + e.lba by omega] at hwhole
    refine List.any_eq_false.mp hwhole e he ?_
    simp only [LossEntry.names, Bool.and_eq_true, decide_eq_true_eq]
    omega
  simp only [lostIn, List.filter_eq_nil_iff.mpr hnone]
  rfl

/-- A block that a reader finds unwritten is not lost. -/
theorem lossAt_of_zero {s : State} {v b i : Nat} {p : Rec → Bool} (h : blockSource s v b i p = .zero) : lossAt s v b = false := by
  unfold blockSource at h
  split at h
  · cases h
  · split at h
    next hl => cases h
    next hl => simpa using hl

/-! ### A range that the ledger gives, or that nothing has written -/

/-- The blocks of a read's range, each with where it is found (R62). -/
def sources (s : State) (c : Cmd) : List (Nat × Source) :=
  (List.range c.hdr.blocks).map (fun i => (i, blockSource s c.hdr.volume (c.hdr.lba + i) i (before s c)))

/-- A source that is at hand: zeros, or data of the ledger or the cache. -/
def Source.atHand : Source → Bool
  | .zero => true
  | .data _ _ => true
  | _ => false

/-- The data of sources at hand. -/
def handData (src : List (Nat × Source)) : Cells :=
  src.foldl (fun d e => match e.2 with
    | .data b _ => Memory.place 0 d (4096 * e.1) 4096 b
    | _ => d) []

/-- The records that give sources at hand. -/
def handPins (src : List (Nat × Source)) : List Nat :=
  (src.filterMap (fun e => match e.2 with
    | .data _ p => p
    | _ => none)).eraseDups

/-- A read whose every block is at hand. -/
def Cmd.served (data : Cells) (pins : List Nat) (c : Cmd) : Cmd :=
  { c with data, pins, needs := [], lost := [], groups := [], finds := [], checks := [], phase := .busy }

/-- A read resolved, with every block of its range at hand. -/
def serveRead (s : State) (tag : Nat) (c : Cmd) : State := modCmd s tag (Cmd.served (handData (sources s c)) (handPins (sources s c)))

/-- What only other sources give, sources at hand do not. -/
theorem filterMap_atHand {β : Type} {src : List (Nat × Source)} (hand : ∀ e ∈ src, e.2.atHand = true) {f : Nat × Source → Option β} (hz : ∀ i, f (i, .zero) = none)
    (hd : ∀ i b p, f (i, .data b p) = none) : src.filterMap f = [] := by
  refine List.filterMap_eq_nil_iff.mpr fun ⟨i, x⟩ he => ?_
  have hx := hand _ he
  cases x with
  | zero => exact hz i
  | data b p => exact hd i b p
  | members | beyond | wait => cases hx

theorem filter_atHand {src : List (Nat × Source)} (hand : ∀ e ∈ src, e.2.atHand = true) {f : Nat × Source → Bool} (hz : ∀ i, f (i, .zero) = false)
    (hd : ∀ i b p, f (i, .data b p) = false) : src.filter f = [] := by
  refine List.filter_eq_nil_iff.mpr fun ⟨i, x⟩ he => ?_
  have hx := hand _ he
  cases x with
  | zero => simp [hz]
  | data b p => simp [hd]
  | members | beyond | wait => cases hx

theorem beginRead_atHand {s : State} {tag : Nat} {c : Cmd} (hc : findCmd s tag = some c) (hchecks : verifyChecks s c.hdr = [])
    (hand : ∀ e ∈ sources s c, e.2.atHand = true) (hwhole : ∀ i < c.hdr.blocks, lossAt s c.hdr.volume (c.hdr.lba + i) = false) :
    beginRead s tag = if s.pair.fenced then readDone (serveRead s tag c) tag else readIssue (serveRead s tag c) tag := by
  have hsrc : (List.range c.hdr.blocks).map (fun i => (i, blockSource s c.hdr.volume (c.hdr.lba + i) i (fun r => recLt r { seq := 0, kind := 1, pos := c.pos, rank := s.ledger.rank }))) = sources s c := rfl
  have hwait : (sources s c).any (fun e => e.2 = .wait) = false := List.any_eq_false.mpr fun e he hw => by
    have hx := hand e he
    rw [of_decide_eq_true hw] at hx
    cases hx
  have hfinds : lossPending s c.hdr.volume ((List.range c.hdr.blocks).map (· + c.hdr.lba)) = [] := lossPending_of_whole fun b hb => by
    obtain ⟨i, hi, rfl⟩ := List.mem_map.mp hb
    rw [Nat.add_comm]
    exact hwhole i (List.mem_range.mp hi)
  simp only [beginRead, hc, hsrc, hwait, implies_true, filterMap_atHand hand, filter_atHand hand, hfinds, hchecks, List.eraseDups_nil, List.foldl_nil, List.flatten_nil, List.flatMap_nil, List.map_nil,
    List.filterMap_nil, List.append_nil, List.all_nil, List.isEmpty_nil]
  change (if (!s.pair.fenced) = true then readIssue (serveRead s tag c) tag else readDone (serveRead s tag c) tag) = _
  cases s.pair.fenced <;> rfl


/-- A READ or VERIFY for which everything is in, with no block lost and none decoded. -/
structure WholeRead (s : State) (tag : Nat) (c : Cmd) : Prop where
  found : findCmd s tag = some c
  busy : c.phase = .busy
  reads : c.hdr.opcode = 1 ∨ c.hdr.opcode = 3
  noNeeds : c.needs = []
  noChecks : c.checks = []
  noFinds : c.finds = []
  noLost : c.lost = []
  located : c.unlocated = 0
  free : readWaits s c = false
  whole : ∀ i < c.hdr.blocks, lossAt s c.hdr.volume (c.hdr.lba + i) = false

/-- What a READ or VERIFY answers in its result of a range with no lost block: the lowest lost block and their number. -/
def noneLost : List Byte := natLe 8 (2 ^ 64 - 1) ++ natLe 4 0

/-- A read lets go of what it held. -/
def Cmd.letGo (c : Cmd) : Cmd := { c with pins := [], needs := [] }

/-- The command of a READ or VERIFY as it ends. -/
def Cmd.readEnd (s : State) (c : Cmd) : Cmd :=
  if c.hdr.opcode = 1 then { c.letGo with data := joined s c c.data, dataLen := 4096 * c.hdr.blocks, status := 0, detail := 0, result := noneLost ++ natLe 4 0 }
  else
    { c.letGo with
      status := 0
      detail := 0
      result := noneLost ++ natLe 4 c.mended ++ natLe 2 (hold 0xFFFF c.located) ++ natLe 2 (hold 0xFFFF 0) ++ natLe 4 c.rowsChecked }

theorem countUnrecorded_cmds (s : State) (v : Nat) (lost : List Nat) : (countUnrecorded s v lost).cmds = s.cmds := by
  unfold countUnrecorded
  split <;> rfl

theorem findCmd_readDone {s : State} {tag : Nat} {c : Cmd} (h : WholeRead s tag c) :
    ∃ p, (p = .released ∨ p = .queued) ∧ findCmd (readDone s tag) tag = some { c.readEnd s with phase := p } := by
  have hin : cmdIn s tag (fun c => c.phase = .busy && (c.hdr.opcode = 1 || c.hdr.opcode = 3)) = some c :=
    cmdIn_of h.found (by simpa [h.busy] using h.reads)
  have hfinds : findsOpen s c = false := by simp [findsOpen, h.noFinds]
  simp only [readDone, hin, h.noNeeds, h.noChecks, h.free, hfinds, h.noLost, h.located, List.all_nil, List.isEmpty_nil, List.filter_nil, List.map_nil, List.foldl_nil, lostIn_of_whole h.whole]
  have hlet : ∀ u : State, u.cmds = s.cmds → findCmd (countUnrecorded (markDelivered (modCmd u tag Cmd.letGo) tag []) c.hdr.volume []) tag = some c.letGo := fun u hu =>
    (findCmd_of_cmds (countUnrecorded_cmds _ _ _)).trans (findCmd_modCmd_of_hdr (f := Cmd.letGo) (fun _ => rfl) ((findCmd_of_cmds hu).trans h.found))
  have hmin : minOf [] = none := rfl
  have hdecoded : decodedOf [] = 0 := rfl
  simp only [hmin, hdecoded, Option.getD_none, Option.isSome_none, List.length_nil, lt_irrefl, Bool.not_true, Bool.or_self, Bool.false_eq_true, if_false]
  by_cases hop : c.hdr.opcode = 1
  · rw [if_pos hop, Cmd.readEnd, if_pos hop]
    exact findCmd_finish (c := { c.letGo with data := joined s c c.data, dataLen := 4096 * c.hdr.blocks }) 0 0 _ (findCmd_modCmd_of_hdr (fun _ => rfl) (hlet _ rfl))
  · rw [if_neg hop, Cmd.readEnd, if_neg hop]
    exact findCmd_finish (c := c.letGo) 0 0 _ (hlet _ rfl)

theorem wholeRead_modCmd {s : State} {tag : Nat} {c : Cmd} {f : Cmd → Cmd} (hf : ∀ c, (f c).hdr = c.hdr) (hc : findCmd s tag = some c) (hfree : readWaits s c = false)
    (hpos : (f c).pos = c.pos) (hwhole : ∀ i < c.hdr.blocks, lossAt s c.hdr.volume (c.hdr.lba + i) = false) (hbusy : (f c).phase = .busy) (hreads : c.hdr.opcode = 1 ∨ c.hdr.opcode = 3)
    (hempty : (f c).needs = [] ∧ (f c).checks = [] ∧ (f c).finds = [] ∧ (f c).lost = []) (hloc : (f c).unlocated = 0) : WholeRead (modCmd s tag f) tag (f c) := by
  obtain ⟨hneeds, hchecks, hfinds, hlost⟩ := hempty
  exact ⟨findCmd_modCmd_of_hdr hf hc, hbusy, hf c ▸ hreads, hneeds, hchecks, hfinds, hlost, hloc, (readWaits_modCmd hf (findCmd_tag hc) (hf c) hpos).trans hfree, hf c ▸ hwhole⟩

/-- A command that reads blocks of volumes is none of a vault. -/
theorem vaultDone_of_read {s : State} {tag : Nat} {c : Cmd} (hc : findCmd s tag = some c) (hreads : c.hdr.opcode = 1 ∨ c.hdr.opcode = 3) : vaultDone s tag = s := by
  have hnone : cmdIn s tag (fun c => c.phase = .busy && (c.hdr.opcode = 0x43 || c.hdr.opcode = 0x48)) = none := by
    refine cmdIn_none_of hc ?_
    rcases hreads with h | h <;> simp [h]
  rw [vaultDone, hnone]

/-- A read with every block of its range at hand ends at once (R61, R62, R298). -/
theorem findCmd_beginRead {s : State} {tag : Nat} {c : Cmd} (hc : findCmd s tag = some c) (hreads : c.hdr.opcode = 1 ∨ c.hdr.opcode = 3) (hloc : c.unlocated = 0)
    (hfree : readWaits s c = false) (hchecks : verifyChecks s c.hdr = []) (hand : ∀ e ∈ sources s c, e.2.atHand = true)
    (hwhole : ∀ i < c.hdr.blocks, lossAt s c.hdr.volume (c.hdr.lba + i) = false) :
    ∃ p, (p = .released ∨ p = .queued) ∧
      findCmd (beginRead s tag) tag = some { (c.served (handData (sources s c)) (handPins (sources s c))).readEnd s with phase := p } := by
  set k := c.served (handData (sources s c)) (handPins (sources s c))
  have hserved : WholeRead (serveRead s tag c) tag k :=
    wholeRead_modCmd (f := Cmd.served _ _) (fun _ => rfl) hc hfree rfl hwhole rfl hreads ⟨rfl, rfl, rfl, rfl⟩ hloc
  have hissued : WholeRead (modCmd (serveRead s tag c) tag (fun c => { c with phase := .busy })) tag k :=
    wholeRead_modCmd (f := fun c => { c with phase := .busy }) (fun _ => rfl) hserved.found hserved.free rfl hwhole rfl hreads ⟨rfl, rfl, rfl, rfl⟩ hloc
  rw [beginRead_atHand hc hchecks hand hwhole]
  split
  · exact findCmd_readDone hserved
  · obtain ⟨p, hp, hfound⟩ := findCmd_readDone hissued
    have hissue : readIssue (serveRead s tag c) tag = readDone (modCmd (serveRead s tag c) tag (fun c => { c with phase := .busy })) tag := by
      have hfound' := vaultDone_of_read hfound (by unfold Cmd.readEnd; split <;> exact hreads)
      rw [readIssue, hserved.found]
      exact hfound'
    exact ⟨p, hp, hissue ▸ hfound⟩

/-! ### A range that nothing has written, and a block that a record gives -/

theorem sources_of_zero {s : State} {c : Cmd} (h : ∀ i < c.hdr.blocks, blockSource s c.hdr.volume (c.hdr.lba + i) i (before s c) = .zero) :
    sources s c = (List.range c.hdr.blocks).map (fun i => (i, .zero)) :=
  List.map_congr_left fun i hi => by rw [h i (List.mem_range.mp hi)]

theorem handData_zero (l : List Nat) : handData (l.map (fun i => (i, .zero))) = [] := by
  induction l with
  | nil => rfl
  | cons i l ih => exact ih

theorem handPins_zero (l : List Nat) : handPins (l.map (fun i => (i, .zero))) = [] := by
  simp [handPins, List.filterMap_map]

/-- A range that nothing has written: the command ends with no data, no lost block and none decoded. -/
theorem findCmd_beginRead_zero {s : State} {tag : Nat} {c : Cmd} (hc : findCmd s tag = some c) (hreads : c.hdr.opcode = 1 ∨ c.hdr.opcode = 3) (hloc : c.unlocated = 0)
    (hfree : readWaits s c = false) (hchecks : verifyChecks s c.hdr = []) (hzero : ∀ i < c.hdr.blocks, blockSource s c.hdr.volume (c.hdr.lba + i) i (before s c) = .zero) :
    ∃ p, (p = .released ∨ p = .queued) ∧ findCmd (beginRead s tag) tag = some { (c.served [] []).readEnd s with phase := p } := by
  have hsources := sources_of_zero hzero
  have hend := findCmd_beginRead hc hreads hloc hfree hchecks
    (by
      intro e he
      obtain ⟨i, -, rfl⟩ := List.mem_map.mp (hsources ▸ he)
      rfl)
    (fun i hi => lossAt_of_zero (hzero i hi))
  rwa [hsources, handData_zero, handPins_zero] at hend

theorem place_place_nil (d : Byte) (len : Nat) (b : Cells) : Memory.place d (Memory.place d [] 0 len b) 0 len b = Memory.place d [] 0 len b := by
  have hhigh : (Memory.place d [] 0 len b).filter (fun c => 0 + len ≤ c.1) = [] := by
    refine List.filter_eq_nil_iff.mpr fun c hc => ?_
    simp only [Memory.place, List.filter_nil, List.nil_append, List.append_nil, List.mem_map, List.mem_filter, Bool.and_eq_true, decide_eq_true_eq] at hc
    obtain ⟨e, ⟨-, he, -⟩, rfl⟩ := hc
    simpa using he
  rw [Memory.place, hhigh]
  simp [Memory.place]

theorem verifyChecks_of_read {s : State} {h : Hdr} (hop : h.opcode = 1) : verifyChecks s h = [] := by
  simp [verifyChecks, hop]

/-- A single block that a landed record gives is read from it. -/
theorem findCmd_beginRead_record {s : State} {tag : Nat} {c : Cmd} {r : Rec} (hc : findCmd s tag = some c) (hop : c.hdr.opcode = 1) (hloc : c.unlocated = 0) (hfree : readWaits s c = false)
    (hone : c.hdr.blocks = 1) (hnewest : newestRec s c.hdr.volume c.hdr.lba (before s c) = some r) (hwhole : lossAt s c.hdr.volume c.hdr.lba = false) :
    ∃ p, (p = .released ∨ p = .queued) ∧
      findCmd (beginRead s tag) tag = some { (c.served (Memory.place 0 [] 0 4096 (r.block c.hdr.lba)) [r.seq]).readEnd s with phase := p } := by
  have hsources : sources s c = [(0, .data (r.block c.hdr.lba) (some r.seq))] := by
    simp [sources, hone, blockSource, hnewest]
  have hend := findCmd_beginRead hc (.inl hop) hloc hfree (verifyChecks_of_read hop) (by rw [hsources]; simp [Source.atHand])
    (fun i hi => by obtain rfl : i = 0 := by omega
                    exact hwhole)
  rw [hsources] at hend
  exact hend

theorem readEnd_of_read (s : State) {c : Cmd} (hop : c.hdr.opcode = 1) :
    c.readEnd s = { c.letGo with data := joined s c c.data, dataLen := 4096 * c.hdr.blocks, status := 0, detail := 0, result := noneLost ++ natLe 4 0 } := if_pos hop

theorem joined_unpinned (s : State) {c : Cmd} (data : Cells) (h : c.pins = []) : joined s c data = data := by
  simp [joined, h]

/-- What lands while a single block is read is the record that gave it. -/
theorem joined_record {s : State} {c : Cmd} {r : Rec} {q : Nat} (hpins : c.pins = [q]) (hone : c.hdr.blocks = 1) (hnewest : newestRec s c.hdr.volume c.hdr.lba (before s c) = some r) :
    joined s c (Memory.place 0 [] 0 4096 (r.block c.hdr.lba)) = Memory.place 0 [] 0 4096 (r.block c.hdr.lba) := by
  have hnewest' : newestRec s c.hdr.volume c.hdr.lba (fun r => recLt r { seq := 0, kind := 1, pos := c.pos, rank := s.ledger.rank }) = some r := hnewest
  simp [joined, hpins, hone, hnewest', place_place_nil]

/-! ### What the commands do -/

theorem readRow_started {s : State} {opcode tag : Nat} {c : Cmd} (hc : findCmd s tag = some c) (hphase : c.phase = .started) (hop : c.hdr.opcode = opcode) (hfailed : c.failed = false) :
    readRow s opcode tag = if readWaits s c then modCmd s tag (fun c => { c with phase := .waiting }) else beginRead s tag := by
  have hin : cmdIn s tag (fun c => c.phase = .started && c.hdr.opcode = opcode && !c.failed) = some c := cmdIn_of hc (by simp [hphase, hop, hfailed])
  rw [readRow, hin]

theorem readRow_free {s : State} {opcode tag : Nat} {c : Cmd} (hc : findCmd s tag = some c) (hphase : c.phase = .started) (hop : c.hdr.opcode = opcode) (hfailed : c.failed = false)
    (hfree : readWaits s c = false) : readRow s opcode tag = beginRead s tag := by
  rw [readRow_started hc hphase hop hfailed, hfree, if_neg Bool.false_ne_true]

theorem runs_read_zero {s : State} {tag : Nat} {c : Cmd} (hc : findCmd s tag = some c) (hphase : c.phase = .started) (hop : c.hdr.opcode = 1) (hfailed : c.failed = false) (hloc : c.unlocated = 0)
    (hfree : readWaits s c = false) (hzero : ∀ i < c.hdr.blocks, blockSource s c.hdr.volume (c.hdr.lba + i) i (before s c) = .zero) :
    Runs (.read tag) s (fun t => Ended t tag 0 0 (natLe 8 (2 ^ 64 - 1) ++ natLe 4 0 ++ natLe 4 0) ∧ ∃ k, findCmd t tag = some k ∧ k.data = [] ∧ k.dataLen = 4096 * c.hdr.blocks) := by
  obtain ⟨p, hp, hend⟩ := findCmd_beginRead_zero hc (.inl hop) hloc hfree (verifyChecks_of_read hop) hzero
  rw [readEnd_of_read s (c := c.served _ _) hop] at hend
  exact ⟨_, congrArg Host.Outcome.next (readRow_free hc hphase hop hfailed hfree), ⟨_, hend, hp, rfl, rfl, rfl⟩, _, hend, joined_unpinned (c := c.served [] []) s [] rfl, rfl⟩

theorem runs_read_record {s : State} {tag : Nat} {c : Cmd} {r : Rec} (hc : findCmd s tag = some c) (hphase : c.phase = .started) (hop : c.hdr.opcode = 1) (hfailed : c.failed = false)
    (hloc : c.unlocated = 0) (hfree : readWaits s c = false) (hone : c.hdr.blocks = 1) (hnewest : newestRec s c.hdr.volume c.hdr.lba (before s c) = some r)
    (hwhole : lossAt s c.hdr.volume c.hdr.lba = false) :
    Runs (.read tag) s (fun t => Ended t tag 0 0 (natLe 8 (2 ^ 64 - 1) ++ natLe 4 0 ++ natLe 4 0) ∧
      ∃ k, findCmd t tag = some k ∧ k.data = Memory.place 0 [] 0 4096 (r.block c.hdr.lba) ∧ k.dataLen = 4096) := by
  obtain ⟨p, hp, hend⟩ := findCmd_beginRead_record hc hop hloc hfree hone hnewest hwhole
  rw [readEnd_of_read s (c := c.served _ _) hop] at hend
  exact ⟨_, congrArg Host.Outcome.next (readRow_free hc hphase hop hfailed hfree), ⟨_, hend, hp, rfl, rfl, rfl⟩, _, hend, joined_record (c := c.served _ [r.seq]) rfl hone hnewest, congrArg (4096 * ·) hone⟩

theorem runs_verify_zero {s : State} {tag : Nat} {c : Cmd} (hc : findCmd s tag = some c) (hphase : c.phase = .started) (hop : c.hdr.opcode = 3) (hcheck : bit c.hdr.flags 0 = false)
    (hfailed : c.failed = false) (hloc : c.unlocated = 0) (hfree : readWaits s c = false)
    (hzero : ∀ i < c.hdr.blocks, blockSource s c.hdr.volume (c.hdr.lba + i) i (before s c) = .zero) :
    Runs (.verify tag) s (fun t => Ended t tag 0 0 (natLe 8 (2 ^ 64 - 1) ++ natLe 4 0 ++ natLe 4 c.mended ++ natLe 2 (hold 0xFFFF c.located) ++ natLe 2 0 ++ natLe 4 c.rowsChecked)) := by
  obtain ⟨p, hp, hend⟩ := findCmd_beginRead_zero hc (.inr hop) hloc hfree (by simp [verifyChecks, hcheck]) hzero
  rw [Cmd.readEnd, if_neg (by simp [Cmd.served, hop])] at hend
  exact ⟨_, congrArg Host.Outcome.next (readRow_free hc hphase hop hfailed hfree), _, hend, hp, rfl, rfl, rfl⟩

theorem runs_read_behind {s : State} {tag : Nat} {c : Cmd} (hc : findCmd s tag = some c) (hphase : c.phase = .started) (hop : c.hdr.opcode = 1) (hfailed : c.failed = false)
    (hwaits : readWaits s c = true) : Runs (.read tag) s (fun t => findCmd t tag = some { c with phase := .waiting } ∧ OnlyIn [.cmds] s t) := by
  refine ⟨readRow s 1 tag, rfl, ?_⟩
  rw [readRow_started hc hphase hop hfailed, hwaits, if_pos rfl]
  exact ⟨findCmd_modCmd_of_hdr (f := fun c => { c with phase := .waiting }) (fun _ => rfl) hc, rfl⟩

theorem runs_readWaitEnd_zero {s : State} {tag : Nat} {c : Cmd} (hc : findCmd s tag = some c) (hphase : c.phase = .waiting) (hop : c.hdr.opcode = 1) (hloc : c.unlocated = 0)
    (hfree : readWaits s c = false) (hzero : ∀ i < c.hdr.blocks, blockSource s c.hdr.volume (c.hdr.lba + i) i (before s c) = .zero) :
    Runs (.readWaitEnd tag) s (fun t => Ended t tag 0 0 (natLe 8 (2 ^ 64 - 1) ++ natLe 4 0 ++ natLe 4 0)) := by
  obtain ⟨p, hp, hend⟩ := findCmd_beginRead_zero hc (.inl hop) hloc hfree (verifyChecks_of_read hop) hzero
  have hin : cmdIn s tag (fun c => (c.phase = .waiting || c.phase = .busy) && (c.hdr.opcode = 1 || c.hdr.opcode = 3)) = some c := cmdIn_of hc (by simp [hphase, hop])
  have hrow : readWaitEnd s tag = beginRead s tag := by simp [readWaitEnd, hin, hfree, hphase]
  rw [readEnd_of_read s (c := c.served _ _) hop] at hend
  exact ⟨_, congrArg Host.Outcome.next hrow, _, hend, hp, rfl, rfl, rfl⟩

theorem exec_readWaitEnd_behind {s : State} {tag : Nat} {c : Cmd} (hc : findCmd s tag = some c) (hwaits : readWaits s c = true) : exec (.readWaitEnd tag) s = .next s := by
  refine congrArg Host.Outcome.next ?_
  rw [readWaitEnd]
  split
  · rfl
  next d hd =>
    obtain rfl : c = d := by
      rw [cmdIn, hc, Option.filter_some] at hd
      split at hd
      · exact Option.some.inj hd
      · cases hd
    rw [hwaits, if_pos rfl]

/-- The data record that a WRITE begins (R102). -/
def dataRec (s : State) (c : Cmd) : Rec :=
  { cmdRecord s c.hdr c.ring c.cseq c.pos 2 with bodyLen := c.hdr.d, seq := s.ledger.nextSeq, powerCycle := s.mgmt.powerCycles, state := .filling, rank := s.ledger.rank }

/-- The state with that record begun. -/
def withDataRec (s : State) (c : Cmd) : State :=
  { s with ledger := { s.ledger with recs := s.ledger.recs ++ [dataRec s c], nextSeq := s.ledger.nextSeq + 1 } }

theorem ensureData_of_write {s : State} {tag : Nat} {c : Cmd} (hc : findCmd s tag = some c) (hop : c.hdr.opcode = 2) (hfailed : c.failed = false) (hnew : c.recSeq = none) :
    ensureData s tag = modCmd (withDataRec s c) tag (fun c => { c with recSeq := some s.ledger.nextSeq }) := by
  simp only [ensureData, hc, hfailed, hnew, hop, Option.isSome_none, Bool.or_self, ne_eq, not_true_eq_false, decide_false, Bool.false_and, Bool.false_eq_true, if_false, if_true]
  rfl

theorem runs_write {s : State} {tag : Nat} {c : Cmd} (hc : findCmd s tag = some c) (hphase : c.phase = .started) (hop : c.hdr.opcode = 2) (hfailed : c.failed = false) (hnew : c.recSeq = none) :
    Runs (.write tag) s (fun t => findCmd t tag = some { c with phase := .busy, recSeq := some s.ledger.nextSeq } ∧ t.ledger.nextSeq = s.ledger.nextSeq + 1 ∧
      (∃ r, t.ledger.recs = s.ledger.recs ++ [r] ∧ r.seq = s.ledger.nextSeq ∧ r.kind = 2 ∧ r.state = .filling ∧ r.volume = c.hdr.volume ∧ r.lba = c.hdr.lba ∧ r.blocks = c.hdr.blocks ∧
        r.bodyLen = c.hdr.d ∧ r.pos = c.pos) ∧ OnlyIn [.cmds, .ledger] s t) := by
  have hin : cmdIn s tag (fun c => c.phase = .started && c.hdr.opcode = 2 && !c.failed) = some c := cmdIn_of hc (by simp [hphase, hop, hfailed])
  refine ⟨modCmd (ensureData s tag) tag (fun c => if c.phase = .started then { c with phase := .busy } else c), congrArg Host.Outcome.next (by rw [hin]), ?_⟩
  rw [ensureData_of_write hc hop hfailed hnew]
  refine ⟨?_, rfl, ⟨dataRec s c, rfl, rfl, rfl, rfl, rfl, rfl, rfl, rfl, rfl⟩, rfl⟩
  have hbegun := findCmd_modCmd_of_hdr (s := withDataRec s c) (f := fun c => { c with recSeq := some s.ledger.nextSeq }) (fun _ => rfl) hc
  have hkeeps : ∀ c : Cmd, (if c.phase = .started then { c with phase := .busy } else c).hdr = c.hdr := fun c => by split <;> rfl
  exact (findCmd_modCmd_of_hdr hkeeps hbegun).trans (congrArg some (if_pos hphase))

theorem runs_release {s : State} {tag : Nat} {c : Cmd} (hc : findCmd s tag = some c) (hphase : c.phase = .started) (hop : c.hdr.opcode = 4) (hfailed : c.failed = false)
    (hlanded : (findRec s c.intent).filter Rec.visible = none) :
    Runs (.release tag) s (fun t => findCmd t tag = some { c with phase := .landing, recSeq := some c.intent } ∧ OnlyIn [.cmds] s t) := by
  have hin : cmdIn s tag (fun c => c.phase = .started && c.hdr.opcode = 4 && !c.failed) = some c := cmdIn_of hc (by simp [hphase, hop, hfailed])
  refine ⟨modCmd s tag (fun x => { x with phase := .landing, recSeq := some c.intent }), congrArg Host.Outcome.next (by rw [hin]; simp [hlanded]), ?_, rfl⟩
  exact findCmd_modCmd_of_hdr (f := fun x => { x with phase := .landing, recSeq := some c.intent }) (fun _ => rfl) hc

theorem runs_closeWait {s : State} {tag : Nat} {c : Cmd} (hc : findCmd s tag = some c) (hphase : c.phase = .started) (hop : c.hdr.opcode = 5) (hfailed : c.failed = false) :
    let named := if bit c.hdr.flags 0 then c.pos.close + c.hdr.f 32 8 else c.hdr.f 32 8
    Runs (.closeWait tag) s (fun t => findCmd t tag = some { c with named := named, phase := .due (max named c.pos.close + 2) } ∧ OnlyIn [.cmds] s t) := by
  intro named
  have hin : cmdIn s tag (fun c => c.phase = .started && c.hdr.opcode = 5 && !c.failed) = some c := cmdIn_of hc (by simp [hphase, hop, hfailed])
  refine ⟨modCmd s tag (fun c => { c with named := named, phase := .due (max named c.pos.close + 2) }), congrArg Host.Outcome.next (by rw [hin]), ?_, rfl⟩
  exact findCmd_modCmd_of_hdr (f := fun c => { c with named := named, phase := .due (max named c.pos.close + 2) }) (fun _ => rfl) hc

/-- Settles O28: a read with every block of its range at hand is decided at its row, and ends there; a WRITE, RELEASE or CLOSE-WAIT changes its command, and a WRITE begins its data record. -/
theorem blockCommands : Obligations.BlockCommands := by
  refine ⟨⟨?_, ?_, ?_, ?_, ?_, ?_⟩, ?_, ?_, ?_⟩
  · exact fun _ _ _ => runs_read_zero
  · exact fun _ _ _ _ => runs_read_record
  · exact fun _ _ _ => runs_verify_zero
  · exact fun _ _ _ => runs_read_behind
  · exact fun _ _ _ => runs_readWaitEnd_zero
  · exact fun _ _ _ hc _ => exec_readWaitEnd_behind hc
  · exact fun _ _ _ => runs_write
  · exact fun _ _ _ => runs_release
  · exact fun _ _ _ => runs_closeWait

end Sys2Proof.Machine
end

section
namespace Sys2Proof.Machine

/-! ## Payload, credit and queue resets (O22)

### A wicket after what acts on wickets -/

theorem wk_modWk_same (s : State) (w : Nat) (f : Wicket → Wicket) : wk (modWk s w f) w = f (wk s w) := tget_tmod_same _ _ _ _

theorem wk_modWk_other (s : State) {w v : Nat} (f : Wicket → Wicket) (h : v ≠ w) : wk (modWk s w f) v = wk s v := tget_tmod_other _ _ f (Ne.symm h)

theorem wk_of_wickets {s t : State} (h : t.wickets = s.wickets) (w : Nat) : wk t w = wk s w := by rw [wk, h, wk]

/-- The wicket without its credit line. -/
def Wicket.noLine (k : Wicket) : Wicket := { k with lineLimit := 0, lineWritten := false }

/-- The wickets without their table. -/
def Wickets.noTable (k : Wickets) : Wickets := { k with table := [] }

theorem noLine_writeCredit (s : State) (w v : Nat) : (wk (writeCredit s w) v).noLine = (wk s v).noLine := by
  unfold writeCredit
  split
  · by_cases hv : v = w
    · subst hv
      exact (congrArg Wicket.noLine (wk_modWk_same (hostWrite s _ _) _ _)).trans rfl
    · exact congrArg Wicket.noLine (wk_modWk_other (hostWrite s _ _) _ hv)
  · rfl

theorem wk_writeCredit_other (s : State) {w v : Nat} (h : v ≠ w) : wk (writeCredit s w) v = wk s v := by
  unfold writeCredit
  split
  · exact wk_modWk_other (hostWrite s _ _) _ h
  · rfl

theorem writeCredit_noTable (s : State) (w : Nat) : (writeCredit s w).wickets.noTable = s.wickets.noTable := by
  unfold writeCredit
  split <;> rfl

theorem noLine_creditStep (s : State) (w v : Nat) : (wk (creditStep s w) v).noLine = (wk s v).noLine := by
  unfold creditStep
  split
  · exact noLine_writeCredit s w v
  · rfl

theorem wk_setWicket_other (s : State) {w v : Nat} (st : Nat) (h : v ≠ w) : wk (setWicket s w st) v = wk s v := by
  unfold setWicket
  split
  · rfl
  · rw [wk_writeCredit_other _ h, wk_modWk_other _ _ h]

theorem noLine_setWicket (s : State) (w st : Nat) : (wk (setWicket s w st) w).noLine = { (wk s w).noLine with state := st } := by
  unfold setWicket
  split
  next h =>
    subst h
    rfl
  next h => rw [noLine_writeCredit, wk_modWk_same]; rfl

theorem setWicket_noTable (s : State) (w st : Nat) : (setWicket s w st).wickets.noTable = s.wickets.noTable := by
  unfold setWicket
  split
  · rfl
  · exact writeCredit_noTable _ _

/-! ### Aperture bytes (R267) -/

/-- A byte's index is the one of the window whose low 14 bits are its offset. -/
theorem apertureIndex_eq {t o i : Nat} (hlow : t ≤ i) (hhigh : i < t + 16384) (ho : i % 16384 = o) : apertureIndex t o = i := by
  unfold apertureIndex
  omega

/-- A table of bytes and a memory that reads zero where it lists nothing are the same data. -/
theorem tget_eq_read (t : Tbl Byte) (n : Nat) : tget 0 t n = Memory.read 0 t n := by
  induction t with
  | nil => rfl
  | cons e t ih => simp only [tget, Memory.read, ih]

theorem key_of_mem_tset {α : Type} {t : Tbl α} {n : Nat} {v : α} {e : Nat × α} (h : e ∈ tset t n v) : e.1 = n ∨ e ∈ t := by
  induction t with
  | nil => exact .inl (by rw [List.mem_singleton.mp h])
  | cons a t ih =>
    unfold tset at h
    split at h
    · rcases List.mem_cons.mp h with rfl | h
      · exact .inl rfl
      · exact .inr (List.mem_cons_of_mem _ h)
    · split at h
      · rcases List.mem_cons.mp h with rfl | h
        · exact .inl rfl
        · exact .inr h
      · rcases List.mem_cons.mp h with rfl | h
        · exact .inr List.mem_cons_self
        · exact (ih h).imp id (List.mem_cons_of_mem _)

/-- The bytes at one index: one arrived before is replaced. -/
def arrivedAt (t : Tbl Byte) (i : Nat) (v : Byte) : Tbl Byte :=
  if (t.filter (fun e => i ≤ e.1 && e.1 ≤ i)).isEmpty then [(i, v)] else tset (t.filter (fun e => i ≤ e.1 && e.1 ≤ i)) i v

theorem key_of_mem_arrivedAt {t : Tbl Byte} {i : Nat} {v : Byte} {e : Nat × Byte} (h : e ∈ arrivedAt t i v) : e.1 = i := by
  unfold arrivedAt at h
  split at h
  · rw [List.mem_singleton.mp h]
  · rcases key_of_mem_tset h with h | h
    · exact h
    · have := (List.mem_filter.mp h).2
      simp only [Bool.and_eq_true, decide_eq_true_eq] at this
      omega

theorem read_arrivedAt (t : Tbl Byte) (i : Nat) (v : Byte) : Memory.read 0 (arrivedAt t i v) i = v := by
  rw [← tget_eq_read, arrivedAt]
  split
  · exact if_pos rfl
  · exact tget_tset_same 0 _ _ _

theorem arrivedPut_single (t : Tbl Byte) (i : Nat) (v : Byte) : arrivedPut t [(i, v)] = t.filter (fun e => e.1 < i) ++ arrivedAt t i v ++ t.filter (fun e => i < e.1) := by
  have hup : [(i, v)].filter (fun x => i ≤ x.1) = [(i, v)] := by simp
  have hwrapped : [(i, v)].filter (fun x => x.1 < i) = [] := by simp
  simp only [arrivedPut, hup, hwrapped]
  rfl

/-- One byte put into the table stands at its index, and every other as before. -/
theorem tget_arrivedPut_single (t : Tbl Byte) (i j : Nat) (v : Byte) : tget 0 (arrivedPut t [(i, v)]) j = if j = i then v else tget 0 t j := by
  have hlow := read_filter 0 (fun k => k < i) t j
  have hhigh := read_filter 0 (fun k => i < k) t j
  rw [tget_eq_read, tget_eq_read, arrivedPut_single]
  rcases Nat.lt_trichotomy j i with hj | rfl | hj
  · rw [if_neg (by omega), read_append_of_absent_right 0 _ (fun c hc => by simp at hc; omega), read_append_of_absent_right 0 _ (fun c hc => by rw [key_of_mem_arrivedAt hc]; omega), hlow,
      if_pos (by simpa using hj)]
  · rw [if_pos rfl, read_append_of_absent_right 0 _ (fun c hc => by simp at hc; omega), read_append_of_absent_left 0 _ (fun c hc => by simp at hc; omega), read_arrivedAt]
  · rw [if_neg (by omega), read_append_of_absent_left 0 _ (fun c hc => ?_), hhigh, if_pos (by simpa using hj)]
    rcases List.mem_append.mp hc with hc | hc
    · simp at hc; omega
    · rw [key_of_mem_arrivedAt hc]; omega

/-- A write into the aperture is all payload (R258). -/
theorem exec_apertureWrite {s : State} {w o : Nat} {data : Lanes} (hr : writesTaken s = true) (hw : w < wicketCount s) (hdata : data ≠ []) :
    exec (.apertureWrite w o data) s = .next (aperturePart s w (o % 0x4000) (data.take (0x4000 - o % 0x4000))) := by
  refine congrArg Host.Outcome.next ?_
  have hlen := List.length_pos_iff.mpr hdata
  have hover : ¬ ((decide (0x8000 ≤ 0x4000 + o % 0x4000) || decide (0x4000 + o % 0x4000 + data.length ≤ 0x4000)) = true) := by
    simp only [Bool.or_eq_true, decide_eq_true_eq]
    omega
  rw [if_pos hr, wicketWrite, if_neg (Nat.not_le.mpr hw), if_neg (show ¬ 0x4000 + o % 0x4000 < 64 by omega), if_neg hover, show 0x4000 + o % 0x4000 - 0x4000 = o % 0x4000 by omega,
    show 0x8000 - (0x4000 + o % 0x4000) = 0x4000 - o % 0x4000 by omega, show 0x4000 - (0x4000 + o % 0x4000) = 0 by omega, List.drop_zero]

/-- A payload byte that arrives: kept below D. -/
def byteArrives (s : State) (w i : Nat) (v : Byte) : State :=
  modWk s w (fun k => { k with arrived := arrivedPut k.arrived ([(i, v)].filter (fun e => e.1 < k.declared)) })

/-- Payload at or beyond D: counted, and marked at the command (R269). -/
def payloadBeyond (s : State) (w tag cseq : Nat) : State :=
  modCmd { s with wickets := { s.wickets with payloadFaults := inc 0xFFFF s.wickets.payloadFaults } } tag (fun c => if c.wicket = w && c.cseq = cseq then { c with excess := true } else c)

theorem arrived_byteArrives (s : State) {w i : Nat} (v : Byte) (j : Nat) :
    tget 0 (wk (byteArrives s w i v) w).arrived j = if j = i ∧ i < (wk s w).declared then v else tget 0 (wk s w).arrived j := by
  rw [byteArrives, wk_modWk_same]
  by_cases hin : i < (wk s w).declared
  · rw [List.filter_cons_of_pos (by simpa using hin), List.filter_nil, tget_arrivedPut_single]
    simp only [hin, and_true]
  · rw [List.filter_cons_of_neg (by simpa using hin), if_neg (fun h => hin h.2)]
    rfl

theorem aperturePart_busy {s : State} {w o i : Nat} {v : Byte} (hstate : (wk s w).state = 2) (hintent : (wk s w).intentWritten = true) (hopen : (wk s w).taken < (wk s w).declared)
    (hlow : (wk s w).taken ≤ i) (hhigh : i < (wk s w).taken + 16384) (ho : i % 16384 = o) :
    aperturePart s w o [some v] = if (wk s w).declared ≤ i then payloadBeyond (byteArrives s w i v) w (wk s w).tag (wk s w).cseq else byteArrives s w i v := by
  have hindex := apertureIndex_eq hlow hhigh ho
  have hdone : ¬ ((decide ((wk s w).state = 1) || decide ((wk s w).declared ≤ (wk s w).taken)) = true) := by
    simp only [hstate, Bool.or_eq_true, decide_eq_true_eq]
    omega
  rw [aperturePart, if_neg (by omega), if_neg hdone, hintent]
  simp only [apertureBytes, hindex, List.any_cons, List.any_nil, Bool.or_false, decide_eq_true_eq]
  rfl

theorem exec_apertureWrite_byte {w o i : Nat} {v : Byte} {s : State} (hr : writesTaken s = true) (hw : w < wicketCount s) (hstate : (wk s w).state = 2) (hintent : (wk s w).intentWritten = true)
    (hopen : (wk s w).taken < (wk s w).declared) (hlow : (wk s w).taken ≤ i) (hhigh : i < (wk s w).taken + 16384) (ho : i % 16384 = o) :
    exec (.apertureWrite w o [some v]) s =
      .next (if (wk s w).declared ≤ i then payloadBeyond (byteArrives s w i v) w (wk s w).tag (wk s w).cseq else byteArrives s w i v) := by
  have htake : [some v].take (0x4000 - o % 0x4000) = [some v] := List.take_of_length_le (by simp; omega)
  rw [exec_apertureWrite hr hw (by simp), htake, aperturePart_busy hstate hintent hopen hlow hhigh (by omega)]

theorem runs_apertureWrite_taken {w o i : Nat} {v : Byte} {s : State} (hr : writesTaken s = true) (hw : w < wicketCount s) (hstate : (wk s w).state = 2) (hintent : (wk s w).intentWritten = true)
    (hlow : (wk s w).taken ≤ i) (hhigh : i < (wk s w).taken + 16384) (ho : i % 16384 = o) (hin : i < (wk s w).declared) :
    Runs (.apertureWrite w o [some v]) s (fun t => tget 0 (wk t w).arrived i = v ∧ (∀ j, j ≠ i → tget 0 (wk t w).arrived j = tget 0 (wk s w).arrived j) ∧
      (wk t w).taken = (wk s w).taken ∧ t.cmds = s.cmds ∧ t.ledger = s.ledger) := by
  refine ⟨byteArrives s w i v, ?_, ?_, fun j hj => ?_, ?_, rfl, rfl⟩
  · rw [exec_apertureWrite_byte hr hw hstate hintent (by omega) hlow hhigh ho, if_neg (by omega)]
  · rw [arrived_byteArrives, if_pos ⟨rfl, hin⟩]
  · rw [arrived_byteArrives, if_neg (fun h => hj h.1)]
  · rw [byteArrives, wk_modWk_same]

theorem of_mem_modIf {α : Type} {p : α → Bool} {f : α → α} {l : List α} {a : α} (h : a ∈ modIf p f l) : ∃ b ∈ l, a = if p b then f b else b := by
  induction l with
  | nil => cases h
  | cons b l ih =>
    rcases List.mem_cons.mp h with rfl | h
    · exact ⟨b, List.mem_cons_self, rfl⟩
    · obtain ⟨c, hc, e⟩ := ih h
      exact ⟨c, List.mem_cons_of_mem _ hc, e⟩

theorem excess_of_mem_payloadBeyond {s : State} {w tag cseq : Nat} {c : Cmd} (hc : c ∈ (payloadBeyond s w tag cseq).cmds) (htag : c.hdr.tag = tag) (hwicket : c.wicket = w) (hcseq : c.cseq = cseq) :
    c.excess = true := by
  obtain ⟨d, -, rfl⟩ := of_mem_modIf hc
  by_cases hd : d.hdr.tag = tag
  · simp only [hd, decide_true, if_true] at hwicket hcseq ⊢
    by_cases hof : (decide (d.wicket = w) && decide (d.cseq = cseq)) = true
    · rw [if_pos hof]
    · rw [if_neg hof] at hwicket hcseq
      exact absurd (by simp [hwicket, hcseq]) hof
  · simp [hd] at htag

theorem runs_apertureWrite_beyond {w o i : Nat} {v : Byte} {s : State} (hr : writesTaken s = true) (hw : w < wicketCount s) (hstate : (wk s w).state = 2) (hintent : (wk s w).intentWritten = true)
    (hopen : (wk s w).taken < (wk s w).declared) (hlow : (wk s w).taken ≤ i) (hhigh : i < (wk s w).taken + 16384) (ho : i % 16384 = o) (hout : (wk s w).declared ≤ i) :
    Runs (.apertureWrite w o [some v]) s (fun t => t.wickets.payloadFaults = inc 0xFFFF s.wickets.payloadFaults ∧ (∀ j, tget 0 (wk t w).arrived j = tget 0 (wk s w).arrived j) ∧
      ∀ c ∈ t.cmds, c.hdr.tag = (wk s w).tag → c.wicket = w → c.cseq = (wk s w).cseq → c.excess = true) := by
  refine ⟨payloadBeyond (byteArrives s w i v) w (wk s w).tag (wk s w).cseq, ?_, rfl, fun j => ?_, fun c => excess_of_mem_payloadBeyond⟩
  · rw [exec_apertureWrite_byte hr hw hstate hintent hopen hlow hhigh ho, if_pos hout]
  · exact (arrived_byteArrives s v j).trans (if_neg (fun h => by omega))

theorem exec_apertureWrite_free {w o : Nat} {data : Lanes} {s : State} (hr : writesTaken s = true) (hw : w < wicketCount s) (hstate : (wk s w).state = 1) (hdata : data ≠ []) :
    exec (.apertureWrite w o data) s = .next { s with wickets := { s.wickets with stray := inc 0xFFFF s.wickets.stray } } := by
  rw [exec_apertureWrite hr hw hdata, aperturePart, if_neg (by omega), if_pos (by simp [hstate])]
  rfl

theorem exec_apertureWrite_closed {w o : Nat} {data : Lanes} {s : State} (hstate : (wk s w).state = 0) : exec (.apertureWrite w o data) s = .next s := by
  have hpart : ∀ p l, aperturePart s w p l = s := fun p l => if_pos hstate
  refine congrArg Host.Outcome.next ?_
  simp only [wicketWrite, if_neg (show ¬ 0x4000 + o % 0x4000 < 64 by omega), hpart, ite_self]

/-! ### Payload into the ledger (R102, R103, R267) -/

theorem runFrom_length_le (l : List (Nat × Byte)) (t n : Nat) : (runFrom l t n).length ≤ n := by
  induction l generalizing t n with
  | nil => cases n <;> exact Nat.zero_le _
  | cons e l ih =>
    cases n with
    | zero => exact Nat.le_refl _
    | succ n =>
      unfold runFrom
      split
      · exact Nat.succ_le_succ (ih _ _)
      · exact Nat.zero_le _

theorem arrivedRun_length_le (arr : Tbl Byte) (t n : Nat) : (arrivedRun arr t n).length ≤ n := runFrom_length_le _ _ _

theorem ensureData_of_begun {s : State} {tag q : Nat} {c : Cmd} (hc : findCmd s tag = some c) (hq : c.recSeq = some q) : ensureData s tag = s := by
  simp [ensureData, hc, hq]

/-- The wicket and the command as their payload moves on to byte t, the record's part of it written. -/
def payloadTaken (s : State) (w q : Nat) (run : List Byte) : State :=
  let k := wk s w
  let t := k.taken + run.length
  let s := modCmd s k.tag (fun c => { c with taken := t, payload := if c.failed || c.excess then [] else Memory.writeN 0 c.payload k.taken run })
  let s := modRec { s with ledger := { s.ledger with areaWrites := s.ledger.areaWrites + ceilDiv run.length 64 } } q (fun r => { r with filled := r.filled + run.length })
  modWk s w (fun k => { k with taken := t, stalled := false, arrived := k.arrived.filter (fun e => t ≤ e.1) })

theorem wk_payloadTaken (s : State) (w q : Nat) (run : List Byte) :
    wk (payloadTaken s w q run) w =
      { wk s w with taken := (wk s w).taken + run.length, stalled := false, arrived := (wk s w).arrived.filter (fun e => (wk s w).taken + run.length ≤ e.1) } :=
  wk_modWk_same _ _ _

/-- A command whose payload goes into a record begun before. -/
structure Taking (s : State) (w : Nat) (c : Cmd) (q : Nat) : Prop where
  awake : s.quiet = false
  runs : s.chip.halted = false
  busy : (wk s w).state = 2
  found : findCmd s (wk s w).tag = some c
  wicket : c.wicket = w
  cseq : c.cseq = (wk s w).cseq
  begun : c.recSeq = some q

/-- The bytes that a wicket can move: those that follow each other from T on, n of them and D at most. -/
def movable (s : State) (w n : Nat) : List Byte := arrivedRun (wk s w).arrived (wk s w).taken (min n ((wk s w).declared - (wk s w).taken))

theorem movePayload_room {s : State} {w n q : Nat} {c : Cmd} (h : Taking s w c q) (hrun : movable s w n ≠ []) (hroom : (movable s w n).length ≤ roomLeft s / 64 * 64) :
    movePayload s w n =
      creditStep (if (wk s w).taken + (movable s w n).length = (wk s w).declared then payloadEnd (setWicket (payloadTaken s w q (movable s w n)) w 1) (wk s w).tag
        else payloadTaken s w q (movable s w n)) w := by
  have hstate : (wk (payloadTaken s w q (movable s w n)) w).state = 2 := by
    rw [wk_payloadTaken]
    exact h.busy
  have hmovable : arrivedRun (wk s w).arrived (wk s w).taken (min n ((wk s w).declared - (wk s w).taken)) = movable s w n := rfl
  have htake : (movable s w n).take (roomLeft s / 64 * 64) = movable s w n := List.take_of_length_le hroom
  simp only [movePayload, h.awake, h.runs, h.busy, ensureData_of_begun h.found h.begun, h.found, h.wicket, h.cseq, h.begun, hmovable, Option.isSome_some, if_true, htake, List.isEmpty_eq_false_iff.mpr hrun,
    decide_true, Bool.true_or, Bool.not_true, Bool.or_self, ne_eq, not_true_eq_false, decide_false, Bool.false_eq_true, if_false]
  change creditStep (if (wk s w).taken + (movable s w n).length = (wk s w).declared then
    payloadEnd (if (wk (payloadTaken s w q (movable s w n)) w).state = 2 then setWicket (payloadTaken s w q (movable s w n)) w 1 else payloadTaken s w q (movable s w n)) (wk s w).tag
    else payloadTaken s w q (movable s w n)) w = _
  rw [if_pos hstate]

theorem payloadEnd_wickets (s : State) (tag : Nat) : (payloadEnd s tag).wickets = s.wickets :=
  same_wickets (payloadEnd_outside (ps := [.ledger, .cmds, .returns, .chain]) s tag (by decide) (by decide) (by decide) (by decide)) (by decide)

/-- The wicket whose payload has moved on: Free as its D-th byte is taken. -/
theorem noLine_movePayload {s : State} {w n q : Nat} {c : Cmd} (h : Taking s w c q) (hrun : movable s w n ≠ []) (hroom : (movable s w n).length ≤ roomLeft s / 64 * 64) :
    (wk (movePayload s w n) w).noLine =
      { (wk (payloadTaken s w q (movable s w n)) w).noLine with state := if (wk s w).taken + (movable s w n).length = (wk s w).declared then 1 else 2 } := by
  rw [movePayload_room h hrun hroom, noLine_creditStep]
  split
  · rw [wk_of_wickets (payloadEnd_wickets _ _), noLine_setWicket]
  · rw [wk_payloadTaken, ← h.busy]
    rfl

theorem movable_length_le (s : State) (w n : Nat) : (movable s w n).length ≤ (wk s w).declared - (wk s w).taken := (arrivedRun_length_le _ _ _).trans (min_le_right _ _)

theorem runs_payloadLedgerWrite_room {s : State} {w n q : Nat} {c : Cmd} (h : Taking s w c q) (hrun : movable s w n ≠ []) (hroom : (movable s w n).length ≤ roomLeft s / 64 * 64) :
    Runs (.payloadLedgerWrite w n) s (fun t => (wk t w).taken = (wk s w).taken + (movable s w n).length ∧ (wk t w).taken ≤ (wk t w).declared ∧ (wk t w).declared = (wk s w).declared ∧
      ((wk s w).taken + (movable s w n).length = (wk s w).declared → (wk t w).state = 1) ∧ ((wk s w).taken + (movable s w n).length < (wk s w).declared → (wk t w).state = 2)) := by
  have hend := noLine_movePayload h hrun hroom
  rw [wk_payloadTaken] at hend
  have htaken : (wk (movePayload s w n) w).taken = (wk s w).taken + (movable s w n).length := (congrArg Wicket.taken hend :)
  have hdeclared : (wk (movePayload s w n) w).declared = (wk s w).declared := (congrArg Wicket.declared hend :)
  have hstate : (wk (movePayload s w n) w).state = if (wk s w).taken + (movable s w n).length = (wk s w).declared then 1 else 2 := (congrArg Wicket.state hend :)
  have hlen := movable_length_le s w n
  have hpos := List.length_pos_iff.mpr hrun
  exact ⟨movePayload s w n, rfl, htaken, by omega, hdeclared, fun hd => by rw [hstate, if_pos hd], fun hd => by rw [hstate, if_neg (by omega)]⟩

/-- A wicket that finds no room waits at T. -/
def stalledWicket (s : State) (w : Nat) : State := modWk { s with ledger := { s.ledger with full := true, stalledNow := true } } w (fun k => { k with stalled := true })

theorem movePayload_full {s : State} {w n q : Nat} {c : Cmd} (h : Taking s w c q) (hrun : movable s w n ≠ []) (hroom : roomLeft s < 64) : movePayload s w n = writeCredit (stalledWicket s w) w := by
  have hmovable : arrivedRun (wk s w).arrived (wk s w).taken (min n ((wk s w).declared - (wk s w).taken)) = movable s w n := rfl
  have htake : (movable s w n).take (roomLeft s / 64 * 64) = [] := by
    rw [Nat.div_eq_of_lt hroom, Nat.zero_mul, List.take_zero]
  simp only [movePayload, h.awake, h.runs, h.busy, ensureData_of_begun h.found h.begun, h.found, h.wicket, h.cseq, h.begun, hmovable, Option.isSome_some, if_true, htake, List.isEmpty_eq_false_iff.mpr hrun,
    List.isEmpty_nil, decide_true, Bool.true_or, Bool.not_true, Bool.or_self, ne_eq, not_true_eq_false, decide_false, Bool.false_eq_true, if_false]
  rfl

theorem runs_payloadLedgerWrite_full {s : State} {w n q : Nat} {c : Cmd} (h : Taking s w c q) (hrun : movable s w n ≠ []) (hroom : roomLeft s < 64) :
    Runs (.payloadLedgerWrite w n) s (fun t => (wk t w).taken = (wk s w).taken ∧ (wk t w).stalled = true ∧ t.ledger.full = true ∧ t.cmds = s.cmds) := by
  have hframe : (writeCredit (stalledWicket s w) w).outside [.wickets, .link, .hostMem] = (stalledWicket s w).outside [.wickets, .link, .hostMem] :=
    writeCredit_outside _ _ (by decide) (by decide) (by decide)
  have hwk := noLine_writeCredit (stalledWicket s w) w w
  rw [stalledWicket, wk_modWk_same, ← stalledWicket] at hwk
  exact ⟨_, congrArg Host.Outcome.next (movePayload_full h hrun hroom), (congrArg Wicket.taken hwk :), (congrArg Wicket.stalled hwk :), congrArg Ledger.full (same_ledger hframe (by decide)),
    (same_cmds hframe (by decide) :)⟩

theorem exec_payloadLedgerWrite_quiet {s : State} (w n : Nat) (h : s.quiet = true) : exec (.payloadLedgerWrite w n) s = .next s := by
  refine congrArg Host.Outcome.next ?_
  rw [movePayload, if_pos (by simp [h])]

/-! ### Room is freed (R103, R105) -/

/-- A stalled wicket goes on. -/
def goOn (s : State) (w : Nat) : State := creditStep (modWk s w (fun k => { k with stalled := false })) w

theorem noLine_goOn (s : State) (w v : Nat) : (wk (goOn s w) v).noLine = { (wk s v).noLine with stalled := if v = w then false else (wk s v).stalled } := by
  rw [goOn, noLine_creditStep]
  by_cases hv : v = w
  · subst hv
    rw [wk_modWk_same, if_pos rfl]
    rfl
  · rw [wk_modWk_other _ _ hv, if_neg hv]
    rfl

theorem goOn_outside (s : State) (w : Nat) : (goOn s w).outside [.wickets, .link, .hostMem] = s.outside [.wickets, .link, .hostMem] :=
  creditStep_outside _ _ (by decide) (by decide) (by decide)

theorem noLine_foldl_goOn (ws : List Nat) (s : State) (v : Nat) :
    (wk (ws.foldl goOn s) v).noLine = { (wk s v).noLine with stalled := if v ∈ ws then false else (wk s v).stalled } := by
  induction ws generalizing s with
  | nil => rfl
  | cons w ws ih =>
    have hstep := noLine_goOn s w v
    have hstalled : (wk (goOn s w) v).stalled = if v = w then false else (wk s v).stalled := (congrArg Wicket.stalled hstep :)
    rw [List.foldl_cons, ih, hstep, hstalled]
    by_cases hv : v = w <;> by_cases hm : v ∈ ws <;> simp [hv, hm]

theorem tget_of_mem {α : Type} {d : α} {t : Tbl α} {n : Nat} (h : tget d t n ≠ d) : (n, tget d t n) ∈ t := by
  induction t with
  | nil => exact absurd rfl h
  | cons e t ih =>
    unfold tget at h ⊢
    split
    next he => rw [← he]; exact List.mem_cons_self
    next he => exact List.mem_cons_of_mem _ (ih (by rwa [if_neg he] at h))

theorem mem_waiting_of_stalled {s : State} {w : Nat} (h : (wk s w).stalled = true) : w ∈ (s.wickets.table.filter (fun e => e.2.stalled)).map (·.1) := by
  have hmem : (w, wk s w) ∈ s.wickets.table := tget_of_mem (fun e => by rw [wk, e] at h; cases h)
  exact List.mem_map.mpr ⟨_, List.mem_filter.mpr ⟨hmem, h⟩, rfl⟩

theorem runs_ledgerRoomFreed {s : State} (h : roomLeft s ≠ 0) :
    Runs .ledgerRoomFreed s (fun t => t.ledger = { s.ledger with full := false } ∧ (∀ w, (wk t w).stalled = false) ∧ ∀ w, (wk t w).taken = (wk s w).taken ∧ (wk t w).arrived = (wk s w).arrived) := by
  set u : State := { s with ledger := { s.ledger with full := false } }
  set ws := (s.wickets.table.filter (fun e => e.2.stalled)).map (·.1)
  have hframe : (ws.foldl goOn u).outside [.wickets, .link, .hostMem] = u.outside [.wickets, .link, .hostMem] := outside_foldl goOn_outside
  refine ⟨ws.foldl goOn u, congrArg Host.Outcome.next (if_neg h), same_ledger hframe (by decide), fun w => ?_, fun w => ?_⟩
  · have hend : (wk (ws.foldl goOn u) w).stalled = if w ∈ ws then false else (wk s w).stalled := (congrArg Wicket.stalled (noLine_foldl_goOn ws u w) :)
    rw [hend]
    split
    · rfl
    next hw => exact Bool.eq_false_iff.mpr fun hst => hw (mem_waiting_of_stalled hst)
  · exact ⟨(congrArg Wicket.taken (noLine_foldl_goOn ws u w) :), (congrArg Wicket.arrived (noLine_foldl_goOn ws u w) :)⟩

/-! ### Queue-reset requests (R264, R281) -/

theorem wk_requestReset_other (s : State) {w v : Nat} (h : v ≠ w) : wk (requestReset s w) v = wk s v := by
  unfold requestReset
  split
  · rfl
  · rw [wk_setWicket_other _ _ h, wk_modWk_other _ _ h]

theorem requestReset_noTable (s : State) (w : Nat) : (requestReset s w).wickets.noTable = s.wickets.noTable := by
  unfold requestReset
  split
  · rfl
  · exact setWicket_noTable _ _ _

theorem noLine_requestReset {s : State} {w : Nat} (h : (wk s w).state ≠ 0) : (wk (requestReset s w) w).noLine = { (wk s w).noLine with state := 3, resetReq := true } := by
  rw [requestReset, if_neg h, noLine_setWicket, wk_modWk_same]
  rfl

theorem requestReset_closed {s : State} {w : Nat} (h : (wk s w).state = 0) : requestReset s w = s := if_pos h

theorem requestReset_cmds (s : State) (w : Nat) : (requestReset s w).cmds = s.cmds :=
  same_cmds (requestReset_outside (ps := [.wickets, .link, .hostMem]) s w (by decide) (by decide) (by decide)) (by decide)

theorem state_requestReset (s : State) (w v : Nat) : (wk (requestReset s w) v).state = if v = w ∧ (wk s v).state ≠ 0 then 3 else (wk s v).state := by
  by_cases hv : v = w
  · subst hv
    by_cases hclosed : (wk s v).state = 0
    · rw [requestReset_closed hclosed, if_neg (fun h => h.2 hclosed)]
    · rw [if_pos ⟨rfl, hclosed⟩]
      exact (congrArg Wicket.state (noLine_requestReset hclosed) :)
  · rw [wk_requestReset_other s hv, if_neg (fun h => hv h.1)]

theorem state_foldl_requestReset (ws : List Nat) (s : State) (v : Nat) :
    (wk (ws.foldl requestReset s) v).state = if v ∈ ws ∧ (wk s v).state ≠ 0 then 3 else (wk s v).state := by
  induction ws generalizing s with
  | nil => rw [if_neg (fun h => nomatch h.1)]; rfl
  | cons w ws ih =>
    rw [List.foldl_cons, ih, state_requestReset]
    by_cases hclosed : (wk s v).state = 0
    · simp [hclosed]
    · rcases eq_or_ne v w with rfl | hv
      · simp [hclosed]
      · simp [hv]

theorem foldl_requestReset_cmds (ws : List Nat) (s : State) : (ws.foldl requestReset s).cmds = s.cmds :=
  same_cmds (ps := [.wickets, .link, .hostMem]) (outside_foldl fun u w => requestReset_outside u w (by decide) (by decide) (by decide)) (by decide)

theorem fire_wickets (s : State) (kind cause arg : Nat) (detail : List Byte) (alert : Bool) : (fire s kind cause arg detail alert).wickets = s.wickets :=
  same_wickets (fire_outside (ps := [.daybook]) s kind cause arg detail alert (by decide)) (by decide)

theorem fire_cmds (s : State) (kind cause arg : Nat) (detail : List Byte) (alert : Bool) : (fire s kind cause arg detail alert).cmds = s.cmds :=
  same_cmds (fire_outside (ps := [.daybook]) s kind cause arg detail alert (by decide)) (by decide)

theorem runs_queueResetRequest_one {s : State} {w : Nat} (hr : writesTaken s = true) (hw : w < wicketCount s) (hopen : (wk s w).state ≠ 0) :
    Runs (.queueResetRequest w false) s (fun t => (wk t w).state = 3 ∧ (wk t w).resetReq = true ∧ t.wickets.resetPending = true ∧ t.wickets.resetAll = s.wickets.resetAll ∧
      (∀ v, v ≠ w → wk t v = wk s v) ∧ t.cmds = s.cmds) := by
  set u : State := { s with wickets := { s.wickets with qWicket := w % 512, qAll := false } }
  have hwk : (wk (requestReset u w) w).noLine = { (wk s w).noLine with state := 3, resetReq := true } := noLine_requestReset (s := u) hopen
  have htable : (requestReset u w).wickets.noTable = u.wickets.noTable := requestReset_noTable u w
  have hrequest : queueResetRequest u w false =
      fire { requestReset u w with wickets := { (requestReset u w).wickets with resetPending := true } } 0x1D 1 w (natLe 4 (countIf (fun c => c.wicket = w) u.cmds)) false := if_pos hw
  refine ⟨_, congrArg Host.Outcome.next ((if_pos hr).trans hrequest), ?_⟩
  simp only [fire_wickets, fire_cmds, wk]
  exact ⟨(congrArg Wicket.state hwk :), (congrArg Wicket.resetReq hwk :), trivial, (congrArg Wickets.resetAll htable :), fun v hv => wk_requestReset_other u hv, requestReset_cmds u w⟩

theorem runs_queueResetRequest_all {s : State} {w : Nat} (hr : writesTaken s = true) :
    Runs (.queueResetRequest w true) s (fun t => t.wickets.resetAll = true ∧ t.wickets.resetPending = true ∧ (∀ v < wicketCount s, (wk s v).state ≠ 0 → (wk t v).state = 3) ∧
      (∀ v, (wk s v).state = 0 → (wk t v).state = 0) ∧ t.cmds = s.cmds) := by
  set u : State := { s with wickets := { s.wickets with qWicket := w % 512, qAll := true } }
  set r := (List.range (wicketCount s)).foldl requestReset u
  have hstate : ∀ v, (wk r v).state = if v ∈ List.range (wicketCount s) ∧ (wk s v).state ≠ 0 then 3 else (wk s v).state := state_foldl_requestReset _ u
  have hrequest : queueResetRequest u w true = fire { r with wickets := { r.wickets with resetPending := true, resetAll := true } } 0x1D 2 0xFFFFFFFF (natLe 4 r.cmds.length) false := rfl
  refine ⟨_, congrArg Host.Outcome.next ((if_pos hr).trans hrequest), ?_⟩
  simp only [fire_wickets, fire_cmds, wk]
  exact ⟨trivial, trivial, fun v hv hopen => (hstate v).trans (if_pos ⟨List.mem_range.mpr hv, hopen⟩), fun v hclosed => (hstate v).trans ((if_neg fun h => h.2 hclosed).trans hclosed),
    foldl_requestReset_cmds _ u⟩

theorem exec_queueResetRequest_beyond {s : State} {w : Nat} (hr : writesTaken s = true) (hw : wicketCount s ≤ w) :
    exec (.queueResetRequest w false) s = .next { s with wickets := { s.wickets with qWicket := w % 512, qAll := false } } :=
  congrArg Host.Outcome.next ((if_pos hr).trans (if_neg (Nat.not_lt.mpr hw)))

/-! ### Credit lines (R270) -/

/-- The unit writes credit lines. -/
def linesGo (s : State) : Bool := s.wickets.creditEnable && !s.returns.holding && !s.returns.draining && s.cfg.busMaster && !s.chip.halted

theorem writeCredit_frame (s : State) (w : Nat) : (writeCredit s w).outside [.wickets, .link, .hostMem] = s.outside [.wickets, .link, .hostMem] :=
  writeCredit_outside s w (by decide) (by decide) (by decide)

/-- What a credit line says does not hang on the lines written. -/
theorem creditLimit_congr {s t : State} {w : Nat} (hframe : t.outside [.wickets, .link, .hostMem] = s.outside [.wickets, .link, .hostMem]) (hwk : (wk t w).noLine = (wk s w).noLine) :
    creditLimit t w = creditLimit s w := by
  have hintent : (wk t w).intentWritten = (wk s w).intentWritten := (congrArg Wicket.intentWritten hwk :)
  have htaken : (wk t w).taken = (wk s w).taken := (congrArg Wicket.taken hwk :)
  have hdeclared : (wk t w).declared = (wk s w).declared := (congrArg Wicket.declared hwk :)
  have hstalled : (wk t w).stalled = (wk s w).stalled := (congrArg Wicket.stalled hwk :)
  have htag : (wk t w).tag = (wk s w).tag := (congrArg Wicket.tag hwk :)
  have hledger : t.ledger = s.ledger := same_ledger hframe (by decide)
  have hroom : roomLeft t = roomLeft s := by simp only [roomLeft, areaBytes, usedBytes, hledger]
  simp only [creditLimit, holdFull, noRoom, hintent, htaken, hdeclared, hstalled, htag, hroom, findCmd_of_cmds (same_cmds hframe (by decide)), same_returns hframe (by decide)]
  rfl

theorem linesGo_writeCredit (s : State) (w : Nat) : linesGo (writeCredit s w) = linesGo s := by
  have hframe := writeCredit_frame s w
  have henable : (writeCredit s w).wickets.creditEnable = s.wickets.creditEnable := (congrArg Wickets.creditEnable (writeCredit_noTable s w) :)
  simp only [linesGo, henable, same_returns hframe (by decide), same_cfg hframe (by decide), same_chip hframe (by decide)]

theorem wk_writeCredit_same {s : State} (h : linesGo s = true) (w : Nat) : wk (writeCredit s w) w = { wk s w with lineLimit := creditLimit s w, lineWritten := true } := by
  rw [linesGo] at h
  rw [writeCredit, if_pos h]
  exact wk_modWk_same (hostWrite s _ _) _ _

theorem creditLimit_writeCredit (s : State) (w v : Nat) : creditLimit (writeCredit s w) v = creditLimit s v := creditLimit_congr (writeCredit_frame s w) (noLine_writeCredit s w v)

theorem wk_foldl_writeCredit {s : State} (h : linesGo s = true) (ws : List Nat) (v : Nat) :
    wk (ws.foldl writeCredit s) v = if v ∈ ws then { wk s v with lineLimit := creditLimit s v, lineWritten := true } else wk s v := by
  induction ws generalizing s with
  | nil => rfl
  | cons w ws ih =>
    rw [List.foldl_cons, ih (by rwa [linesGo_writeCredit]), creditLimit_writeCredit]
    by_cases hv : v = w
    · subst hv
      rw [wk_writeCredit_same h, ite_self, if_pos List.mem_cons_self]
    · simp [wk_writeCredit_other s hv, hv]

theorem foldl_writeCredit_noTable (ws : List Nat) (s : State) : (ws.foldl writeCredit s).wickets.noTable = s.wickets.noTable :=
  foldl_keeps (fun s => s.wickets.noTable) writeCredit_noTable

theorem runs_creditBaseEnable {s : State} {addr : Nat} (hr : writesTaken s = true) (hoff : s.wickets.creditEnable = false) :
    Runs (.creditBaseEnable addr) s (fun t => t.wickets.creditEnable = true ∧ t.wickets.creditAddr = addr / 64 * 64 ∧
      (s.returns.holding = false → s.returns.draining = false → s.cfg.busMaster = true → s.chip.halted = false → ∀ w < wicketCount s, (wk t w).lineWritten = true ∧ (wk t w).lineLimit = creditLimit s w)) := by
  set u : State := { s with wickets := { s.wickets with creditEnable := true, creditAddr := addr / 64 * 64 } } with hu
  have htable := foldl_writeCredit_noTable (List.range (wicketCount s)) u
  have hrow : creditBaseEnable s addr = (List.range (wicketCount s)).foldl writeCredit u := if_neg (by simp [hoff])
  refine ⟨_, congrArg Host.Outcome.next ((if_pos hr).trans hrow), (congrArg Wickets.creditEnable htable :), (congrArg Wickets.creditAddr htable :), fun hhold hdrain hmaster hhalt w hw => ?_⟩
  have hgo : linesGo u = true := by simp [linesGo, hu, hhold, hdrain, hmaster, hhalt]
  rw [wk_foldl_writeCredit hgo, if_pos (List.mem_range.mpr hw)]
  exact ⟨rfl, rfl⟩

theorem exec_creditBaseEnable_again {s : State} (addr : Nat) (h : s.wickets.creditEnable = true) : exec (.creditBaseEnable addr) s = .next s := by
  refine congrArg Host.Outcome.next ?_
  rw [creditBaseEnable, if_pos h, ite_self]

/-- Settles O22: what acts on a wicket is told by its effect on the wicket without its credit line; the lines follow. -/
theorem payloadAndCredit : Obligations.PayloadAndCredit := by
  refine ⟨⟨?_, ?_, ?_, ?_⟩, ⟨?_, ?_, ?_⟩, ⟨?_, ?_, ?_⟩, ?_, ?_⟩
  · exact fun _ _ _ _ _ => runs_apertureWrite_taken
  · exact fun _ _ _ _ _ => runs_apertureWrite_beyond
  · exact fun _ _ _ _ => exec_apertureWrite_free
  · exact fun _ _ _ _ => exec_apertureWrite_closed
  · intro w n q c s hquiet hhalt hstate hc hwicket hcseq _ hq
    have htaking : Taking s w c q := ⟨hquiet, hhalt, hstate, hc, hwicket, hcseq, hq⟩
    exact ⟨runs_payloadLedgerWrite_room htaking, runs_payloadLedgerWrite_full htaking⟩
  · exact fun w n _ => exec_payloadLedgerWrite_quiet w n
  · exact fun _ => runs_ledgerRoomFreed
  · exact fun _ _ => runs_queueResetRequest_one
  · exact fun _ _ => runs_queueResetRequest_all
  · exact fun _ _ => exec_queueResetRequest_beyond
  · exact fun _ _ => runs_creditBaseEnable
  · exact fun addr _ => exec_creditBaseEnable_again addr

end Sys2Proof.Machine
end

section
namespace Sys2Proof.Machine

/-! ## Header writes and commits (O21)

### Lanes in a memory -/

theorem read_writeLanes (d : Byte) (l : Lanes) {m : Cells} (h : Memory.wf d m = true) (a x : Nat) :
    Memory.read d (Memory.writeLanes d m a l) x = if a ≤ x then (l.getD (x - a) none).getD (Memory.read d m x) else Memory.read d m x := by
  induction l generalizing m a with
  | nil => simp [Memory.writeLanes]
  | cons b l ih =>
    have hstep : ∀ n : Cells, Memory.wf d n = true → Memory.read d (Memory.writeLanes d n (a + 1) l) x = if a < x then (l.getD (x - a - 1) none).getD (Memory.read d n x) else Memory.read d n x :=
      fun n hn => by rw [ih hn, Nat.sub_sub]; rfl
    have hlater : ∀ {b : Option Byte}, a < x → (b :: l).getD (x - a) none = l.getD (x - a - 1) none := fun hx => by
      obtain ⟨k, hk⟩ := Nat.exists_eq_succ_of_ne_zero (show x - a ≠ 0 by omega)
      rw [hk, List.getD_cons_succ, Nat.succ_sub_one]
    cases b with
    | none =>
      rw [Memory.writeLanes, hstep m h]
      rcases Nat.lt_trichotomy a x with hx | rfl | hx
      · rw [if_pos hx, if_pos hx.le, hlater hx]
      · rw [if_neg (lt_irrefl _), if_pos le_rfl, Nat.sub_self, List.getD_cons_zero, Option.getD_none]
      · rw [if_neg hx.not_gt, if_neg hx.not_ge]
    | some b =>
      have hwrite := Memory.read_write d m 0 a x b h
      rw [Memory.writeLanes, hstep _ (Memory.write_wf d m a b h), hwrite]
      rcases Nat.lt_trichotomy a x with hx | rfl | hx
      · rw [if_pos hx, if_pos hx.le, hlater hx, if_neg hx.ne]
      · rw [if_neg (lt_irrefl _), if_pos le_rfl, if_pos rfl, Nat.sub_self, List.getD_cons_zero, Option.getD_some]
      · rw [if_neg hx.not_gt, if_neg hx.not_ge, if_neg hx.ne']

/-- A byte written changes nothing of a part that leaves its address out. -/
theorem filter_write (d : Byte) {p : Host.Cell → Bool} {a : Nat} (hp : ∀ v, p (a, v) = false) (m : Cells) (b : Byte) : (Memory.write d m a b).filter p = m.filter p := by
  induction m with
  | nil =>
    unfold Memory.write
    split
    · rfl
    · rw [List.filter_cons_of_neg (by simp [hp])]
  | cons e m ih =>
    obtain ⟨k, v⟩ := e
    unfold Memory.write
    split
    next hk =>
      subst hk
      rw [List.filter_cons_of_neg (by simp [hp])]
      split
      · rfl
      · rw [List.filter_cons_of_neg (by simp [hp])]
    next hk =>
      split
      · split
        · rfl
        · rw [List.filter_cons_of_neg (by simp [hp])]
      · rw [List.filter_cons, List.filter_cons, ih]

theorem filter_writeLanes (d : Byte) {p : Host.Cell → Bool} (l : Lanes) (m : Cells) {a : Nat} (hp : ∀ x v, a ≤ x → p (x, v) = false) :
    (Memory.writeLanes d m a l).filter p = m.filter p := by
  induction l generalizing m a with
  | nil => rfl
  | cons b l ih =>
    have hnext : ∀ n : Cells, (Memory.writeLanes d n (a + 1) l).filter p = n.filter p := fun n => ih n fun x v hx => hp x v (by omega)
    cases b with
    | none => exact hnext m
    | some b => exact (hnext _).trans (filter_write d (fun v => hp a v le_rfl) m b)

/-- Lanes written at the end of a range leave its bytes. -/
theorem readN_writeLanes (d : Byte) (l : Lanes) (m : Cells) {a len : Nat} : Memory.readN d (Memory.writeLanes d m (a + len) l) a len = Memory.readN d m a len := by
  rw [Memory.readN, filter_writeLanes d l m (fun x v hx => by simp; omega), Memory.readN]

/-! ### The commit word (R261, R262) -/

theorem touchesCommit_below {off : Nat} {data : Lanes} (h : off + data.length ≤ 60) : touchesCommit off data = false := by
  refine List.any_eq_false.mpr fun i _ => ?_
  simp only [Bool.and_eq_true, decide_eq_true_eq]
  omega

theorem touchesCommit_commitLanes (seq : Nat) : touchesCommit 60 (commitLanes seq) = true := rfl

theorem commitWord_commitLanes {seq : Nat} (h : seq < 65536) : commitWord 60 (commitLanes seq) = some (0xC2A70000 + seq) := by
  have hvalue : leNat (natLe 4 (0xC2A70000 + seq)) = 0xC2A70000 + seq := by
    rw [leNat_natLe]
    omega
  exact congrArg some hvalue

/-! ### Judgment (R263) -/

theorem ite_some_eq_none {α : Type} {c : Prop} [Decidable c] {a : α} {o : Option α} : (if c then some a else o) = none ↔ ¬ c ∧ o = none := by
  by_cases h : c <;> simp [h]

/-- A commit is judged on its wicket's state and sequence, and on nothing else of the wickets but whether the unit has failed. -/
theorem judgment_at (s : State) (t w seq : Nat) (b : List Byte) {f : Wicket → Wicket} (hstate : (f (wk s w)).state = (wk s w).state) (hseq : (f (wk s w)).lastSeq = (wk s w).lastSeq) :
    judgment (modWk (s.at t) w f) w seq b = judgment s w seq b := by
  have hwk : wk (modWk (s.at t) w f) w = f (wk s w) := wk_modWk_same (s.at t) w f
  simp only [judgment, hwk, hstate, hseq]
  rfl

/-- No condition of R263 holds. -/
theorem judgment_eq_none {s : State} {w seq : Nat} {b : List Byte} (h : judgment s w seq b = none) :
    let r := if (parseHdr b).ring = 0xFFFF then s.ch (fun c => c.defaultRings.getD w 0) 0 else (parseHdr b).ring
    ((wk s w).state = 1 ∨ 3 < (wk s w).state) ∧ seq = ((wk s w).lastSeq + 1) % 65536 ∧ (crc32c (b.take 56)).toNat = le b 56 4 ∧ le b 4 2 < 16384 ∧ (parseHdr b).d ≤ 67108864 ∧ r < 64 ∧ (rg s r).enable = true ∧
      (rg s r).draining = false ∧ findCmd s (parseHdr b).tag = none ∧ s.cmds.length < s.ch (·.queueLimit) 0 ∧ holdFull s = false ∧ usedBytes s + 64 ≤ areaBytes s := by
  simp only [judgment, ite_some_eq_none] at h
  obtain ⟨hclosed, hresetting, hbusy, hseq, hcrc, hfields, hring, htag, hlimit, hhold, -, hroom, -⟩ := h
  simp only [Bool.or_eq_true, decide_eq_true_eq, not_or, Nat.not_le, Nat.not_lt, Bool.not_eq_true, Bool.not_eq_eq_eq_not, Bool.not_true] at hfields hring hhold htag
  obtain ⟨⟨hr, henable⟩, hdrain⟩ := hring
  exact ⟨by omega, not_not.mp hseq, not_not.mp hcrc, hfields.1, hfields.2, hr, eq_true_of_ne_false henable, hdrain, by simpa using htag, by omega, hhold, by omega⟩

/-! An earlier condition wins over a later one. -/

theorem judgment_of_closed {s : State} {w seq : Nat} {b : List Byte} (h : (wk s w).state = 0) : judgment s w seq b = some (0x30, if s.wickets.unitFailed then 2 else 1) := if_pos h

theorem judgment_of_resetting {s : State} {w seq : Nat} {b : List Byte} (h : (wk s w).state = 3) : judgment s w seq b = some (0x31, 5) := (if_neg (by omega)).trans (if_pos h)

theorem judgment_of_busy {s : State} {w seq : Nat} {b : List Byte} (h : (wk s w).state = 2) : judgment s w seq b = some (0x31, 4) :=
  (if_neg (by omega)).trans <| (if_neg (by omega)).trans (if_pos h)

theorem judgment_of_sequence {s : State} {w seq : Nat} {b : List Byte} (h : (wk s w).state = 1) (hseq : seq ≠ ((wk s w).lastSeq + 1) % 65536) : judgment s w seq b = some (0x10, 2) :=
  (if_neg (by omega)).trans <| (if_neg (by omega)).trans <| (if_neg (by omega)).trans (if_pos hseq)

theorem judgment_of_crc {s : State} {w seq : Nat} {b : List Byte} (h : (wk s w).state = 1) (hseq : seq = ((wk s w).lastSeq + 1) % 65536) (hcrc : (crc32c (b.take 56)).toNat ≠ le b 56 4) :
    judgment s w seq b = some (0x10, 1) :=
  (if_neg (by omega)).trans <| (if_neg (by omega)).trans <| (if_neg (by omega)).trans <| (if_neg (not_not.mpr hseq)).trans (if_pos hcrc)

theorem forall_ite_some {α : Type} {c : Prop} [Decidable c] {a : α} {o : Option α} {p : α → Prop} (ha : p a) (ho : ∀ x, o = some x → p x) : ∀ x, (if c then some a else o) = some x → p x := by
  split
  · rintro _ ⟨⟩
    exact ha
  · exact ho

/-- A commit that is not taken has a status other than Good. -/
theorem judgment_status (s : State) (w seq : Nat) (b : List Byte) : ∀ v, judgment s w seq b = some v → v.1 ≠ 0 := by
  unfold judgment
  iterate 12 refine forall_ite_some (Nat.succ_ne_zero _) ?_
  exact fun _ h => nomatch h

/-! ### A commit that is judged (R262, R265) -/

/-- The state of a commit that is not taken: counted (R280). -/
def rejected (s : State) (v : Nat × Nat) : State :=
  { s with
    wickets := { s.wickets with
      rejCommand := if v.1 = 0x31 then s.wickets.rejCommand else inc 0xFFFF s.wickets.rejCommand
      rejRefused := if v.1 = 0x31 then inc 0xFFFF s.wickets.rejRefused else s.wickets.rejRefused }
    ledger := if v.1 = 0x31 && v.2 = 2 then { s.ledger with refusals := inc 0xFFFF s.ledger.refusals } else s.ledger }

/-- What follows the judgment, before the result block is written. -/
def decided (s : State) (w seq : Nat) (b : List Byte) : State :=
  match judgment s w seq b with
  | none => accept s w seq b
  | some v => rejected s v

/-- The result block and LAST_SEQ of a judged commit. -/
def Wicket.result (now order seq tag : Nat) (v : Option (Nat × Nat)) (k : Wicket) : Wicket :=
  { k with
    lastSeq := seq
    order := order
    orderClose := now
    rSeq := seq
    rState := if v.isNone then 2 else 3
    rStatus := (v.map (·.1)).getD 0
    rDetail := (v.map (·.2)).getD 0
    rTag := tag
    rClose := now }

theorem accept_frame (s : State) (w seq : Nat) (b : List Byte) :
    (accept s w seq b).outside [.ledger, .bands, .wickets, .cmds, .link, .vaults, .chain, .hostMem] = s.outside [.ledger, .bands, .wickets, .cmds, .link, .vaults, .chain, .hostMem] :=
  accept_outside s w seq b (by decide) (by decide) (by decide) (by decide) (by decide) (by decide) (by decide) (by decide)

theorem decided_now (s : State) (w seq : Nat) (b : List Byte) : (decided s w seq b).now = s.now := by
  unfold decided
  split
  · exact now_of_frame (accept_frame s w seq b) (by decide)
  · rfl

/-- The order among the commits of a close that a commit takes (R56). -/
def nextOrder (s : State) (w : Nat) : Nat := (if (wk s w).orderClose = s.now then (wk s w).order else 0) + 1

theorem judge_eq (s : State) (w seq : Nat) (b : List Byte) :
    judge s w seq b = modWk (decided s w seq b) w (Wicket.result s.now (nextOrder s w) seq (le b 4 2) (judgment s w seq b)) := by
  rw [← decided_now s w seq b, judge, decided]
  cases judgment s w seq b <;> rfl

theorem wk_judge (s : State) (w seq : Nat) (b : List Byte) :
    wk (judge s w seq b) w = (wk (decided s w seq b) w).result s.now (nextOrder s w) seq (le b 4 2) (judgment s w seq b) := by
  rw [judge_eq, wk_modWk_same]

/-! ### A command that is accepted (R55, R56) -/

theorem allocated_outside (s : State) (p : Prop) [Decidable p] (v lba n : Nat) :
    ((if p then allocRange s v lba n else some s).getD s).outside [.ledger, .bands, .chain] = s.outside [.ledger, .bands, .chain] := by
  split
  · cases h : allocRange s v lba n with
    | none => rfl
    | some t => exact allocRange_outside s v lba n (by decide) (by decide) (by decide) h
  · rfl

/-- The wicket of an accepted command (R264). -/
def Wicket.begun (h : Hdr) (seq : Nat) (k : Wicket) : Wicket :=
  { k with tag := h.tag, declared := h.d, opcode := h.opcode, cseq := seq, taken := 0, intentWritten := true, stalled := false, arrived := [] }

/-- Intake ends with the wicket's own steps, from a state whose commands are those before and one more. -/
theorem accept_ends (s : State) (w seq : Nat) (b : List Byte) :
    ∃ u c, accept s w seq b = creditStep (setWicket (modWk u w (Wicket.begun (parseHdr b) seq)) w (if (parseHdr b).d = 0 then 1 else 2)) w ∧
      u.cmds = s.cmds ++ [c] ∧ u.wickets.table = s.wickets.table ∧ c.hdr = parseHdr b ∧ c.wicket = w ∧ c.cseq = seq ∧ c.pos.close = s.now ∧ c.pos.wicket = w := by
  have hrecord : ∀ (p : Prop) [Decidable p] (r : Rec),
      (writeRec ((if p then allocRange s (parseHdr b).volume (parseHdr b).lba (parseHdr b).blocks else some s).getD s) r).1.outside [.ledger, .bands, .chain] = s.outside [.ledger, .bands, .chain] :=
    fun p _ r => (writeRec_outside _ r (by decide) (by decide)).trans (allocated_outside s p _ _ _)
  have hcmds := fun (p : Prop) [Decidable p] (r : Rec) => same_cmds (hrecord p r) (by decide)
  have htable := fun (p : Prop) [Decidable p] (r : Rec) => congrArg Wickets.table (same_wickets (hrecord p r) (by decide))
  exact ⟨_, _, rfl, congrArg (· ++ _) (hcmds _ _), htable _ _, rfl, rfl, rfl, rfl, rfl⟩

theorem accept_cmds (s : State) (w seq : Nat) (b : List Byte) :
    ∃ c, (accept s w seq b).cmds = s.cmds ++ [c] ∧ c.hdr = parseHdr b ∧ c.wicket = w ∧ c.cseq = seq ∧ c.pos.close = s.now ∧ c.pos.wicket = w := by
  obtain ⟨u, c, he, hcmds, -, hc⟩ := accept_ends s w seq b
  refine ⟨c, ?_, hc⟩
  rw [he, same_cmds (creditStep_outside (ps := [.wickets, .link, .hostMem]) _ w (by decide) (by decide) (by decide)) (by decide),
    same_cmds (setWicket_outside (ps := [.wickets, .link, .hostMem]) _ w _ (by decide) (by decide) (by decide)) (by decide)]
  exact hcmds

theorem waitingCommits_of_noLine {k l : Wicket} (h : k.noLine = l.noLine) : k.waitingCommits = l.waitingCommits := (congrArg Wicket.waitingCommits h :)

theorem waitingCommits_accept (s : State) (w seq : Nat) (b : List Byte) : (wk (accept s w seq b) w).waitingCommits = (wk s w).waitingCommits := by
  obtain ⟨u, c, he, -, htable, -⟩ := accept_ends s w seq b
  have hu : wk s w = wk u w := by rw [wk, ← htable, wk]
  have hwk : (wk (accept s w seq b) w).noLine = Wicket.noLine { (wk u w).begun (parseHdr b) seq with state := if (parseHdr b).d = 0 then 1 else 2 } := by
    rw [he, noLine_creditStep, noLine_setWicket, wk_modWk_same]
    rfl
  rw [hu]
  exact (waitingCommits_of_noLine hwk :)

theorem waitingCommits_judge (s : State) (w seq : Nat) (b : List Byte) : (wk (judge s w seq b) w).waitingCommits = (wk s w).waitingCommits := by
  rw [wk_judge]
  change (wk (decided s w seq b) w).waitingCommits = _
  unfold decided
  split
  · exact waitingCommits_accept s w seq b
  · rfl

theorem judge_cmds (s : State) (w seq : Nat) (b : List Byte) : (judge s w seq b).cmds = (decided s w seq b).cmds := by
  rw [judge_eq]
  rfl

theorem judge_now (s : State) (w seq : Nat) (b : List Byte) : (judge s w seq b).now = s.now := by
  rw [judge_eq]
  exact decided_now s w seq b

/-! ### HEADER_WRITE and COMMIT (R258, R261–R266) -/

/-- Lanes of a write into the header buffer. -/
def writeHdr (off : Nat) (data : Lanes) (k : Wicket) : Wicket := { k with hdr := Memory.writeLanes 0 k.hdr off data }

theorem exec_headerWrite {s : State} {w off : Nat} {data : Lanes} (hr : writesTaken s = true) (hw : w < wicketCount s) (hoff : off + data.length ≤ 60) (hdata : 0 < data.length) :
    exec (.headerWrite w off data) s = .next (modWk s w (writeHdr off data)) := by
  have hpart : headerPart s w off data = modWk s w (writeHdr off data) := by
    simp only [headerPart, touchesCommit_below hoff, List.take_of_length_le (show data.length ≤ 64 - off by omega), Bool.false_eq_true, if_false]
    rfl
  refine congrArg Host.Outcome.next ?_
  rw [if_pos hr, Nat.mod_eq_of_lt (show off < 64 by omega), wicketWrite, if_neg (Nat.not_le.mpr hw), if_pos (show off < 64 by omega), hpart]
  exact if_pos (by simp only [Bool.or_eq_true, decide_eq_true_eq]; omega)

theorem runs_headerWrite {s : State} {w off : Nat} {data : Lanes} (hr : writesTaken s = true) (hw : w < wicketCount s) (hoff : off + data.length ≤ 60) (hdata : 0 < data.length)
    (hwf : Memory.wf 0 (wk s w).hdr = true) :
    Runs (.headerWrite w off data) s (fun t =>
      (∀ a, Memory.read 0 (wk t w).hdr a = if off ≤ a then ((data.getD (a - off) none).getD (Memory.read 0 (wk s w).hdr a)) else Memory.read 0 (wk s w).hdr a) ∧
      Memory.wf 0 (wk t w).hdr = true ∧ (∃ h, wk t w = { wk s w with hdr := h }) ∧ (∀ v, v ≠ w → wk t v = wk s v) ∧ OnlyIn [.wickets] s t) := by
  have hwk : wk (modWk s w (writeHdr off data)) w = writeHdr off data (wk s w) := wk_modWk_same _ _ _
  refine ⟨_, exec_headerWrite hr hw hoff hdata, fun a => ?_, ?_, ⟨_, hwk⟩, fun v hv => wk_modWk_other s _ hv, rfl⟩
  · rw [hwk]
    exact read_writeLanes 0 data hwf off a
  · rw [hwk]
    exact Memory.writeLanes_wf 0 data _ off hwf

theorem exec_commit {s : State} {t w seq : Nat} (hr : writesTaken s = true) (hw : w < wicketCount s) (hseq : seq < 65536) :
    exec (.commit t w 60 (commitLanes seq)) s = .next (commitArrives (modWk (s.at t) w (writeHdr 60 (commitLanes seq))) w seq) := by
  have hpart : headerPart (s.at t) w 60 (commitLanes seq) = commitArrives (modWk (s.at t) w (writeHdr 60 (commitLanes seq))) w seq := by
    have hword : (0xC2A70000 + seq) / 65536 = 0xC2A7 ∧ (0xC2A70000 + seq) % 65536 = seq := by omega
    have htake : (commitLanes seq).take (64 - 60) = commitLanes seq := rfl
    simp only [headerPart, touchesCommit_commitLanes, commitWord_commitLanes hseq, hword, htake, if_true]
    rfl
  refine congrArg Host.Outcome.next ?_
  rw [if_pos hr, show 60 % 64 = 60 from rfl, wicketWrite, if_neg (show ¬ wicketCount (s.at t) ≤ w from Nat.not_le.mpr hw), if_pos (show 60 < 64 by omega), hpart]
  rfl

/-- A commit that is no repeat is marked Pending as it arrives (R266). -/
def arrive (seq : Nat) (k : Wicket) : Wicket := { k with lastArrived := seq, rState := 1 }

/-- A wicket that a commit word has reached. -/
def reached (seq : Nat) (k : Wicket) : Wicket := arrive seq (writeHdr 60 (commitLanes seq) k)

theorem tset_tset {α : Type} (t : Tbl α) (n : Nat) (u v : α) : tset (tset t n u) n v = tset t n v := by
  induction t with
  | nil => simp [tset]
  | cons e t ih =>
    obtain ⟨k, x⟩ := e
    by_cases hk : k = n
    · simp [tset, hk]
    · by_cases hn : n < k <;> simp [tset, hk, hn, ih]

theorem modWk_modWk (s : State) (w : Nat) (f g : Wicket → Wicket) : modWk (modWk s w f) w g = modWk s w (fun k => g (f k)) := by
  have htable : tmod {} (tmod {} s.wickets.table w f) w g = tmod {} s.wickets.table w (fun k => g (f k)) := by
    rw [tmod, tget_tmod_same, tmod, tset_tset, tmod]
  rw [modWk, modWk, modWk]
  exact congrArg (fun t => { s with wickets := { s.wickets with table := t } }) htable

theorem commitArrives_new {s : State} {w seq : Nat} (h : (wk s w).rState = 0 ∨ seq ≠ (wk s w).lastArrived) (t : Nat) :
    commitArrives (modWk (s.at t) w (writeHdr 60 (commitLanes seq))) w seq =
      let u := modWk (s.at t) w (reached seq)
      let b := Memory.readN 0 (wk s w).hdr 0 60
      if (s.at t).quiet then modWk u w (fun k => { k with waitingCommits := k.waitingCommits ++ [(seq, b)] }) else judge u w seq b := by
  have hwk : wk (modWk (s.at t) w (writeHdr 60 (commitLanes seq))) w = writeHdr 60 (commitLanes seq) (wk s w) := wk_modWk_same (s.at t) w _
  have hsnap : Memory.readN 0 (writeHdr 60 (commitLanes seq) (wk s w)).hdr 0 60 = Memory.readN 0 (wk s w).hdr 0 60 := readN_writeLanes (a := 0) (len := 60) 0 (commitLanes seq) _
  have hnew : ¬ ((decide ((writeHdr 60 (commitLanes seq) (wk s w)).rState ≠ 0) && decide (seq = (writeHdr 60 (commitLanes seq) (wk s w)).lastArrived)) = true) := by
    simp only [Bool.and_eq_true, decide_eq_true_eq, not_and]
    exact fun hstate => h.resolve_left hstate
  rw [commitArrives, hwk, if_neg hnew]
  simp only [hsnap]
  rw [modWk_modWk]
  rfl

/-- The snapshot of the header that a commit is judged on. -/
def snapshotOf (s : State) (w : Nat) : List Byte := Memory.readN 0 (wk s w).hdr 0 60

theorem exec_commit_judged {s : State} {t w seq : Nat} (hr : writesTaken s = true) (hw : w < wicketCount s) (hseq : seq < 65536) (ht : t < 24576) (hc : s.clock.cycle < 24576)
    (hnew : (wk s w).rState = 0 ∨ seq ≠ (wk s w).lastArrived) :
    exec (.commit t w 60 (commitLanes seq)) s = .next (judge (modWk (s.at t) w (reached seq)) w seq (snapshotOf s w)) := by
  rw [exec_commit hr hw hseq, commitArrives_new hnew, at_quiet_of_lt ht hc]
  rfl

theorem judgment_reached (s : State) (t w seq : Nat) (b : List Byte) : judgment (modWk (s.at t) w (reached seq)) w seq b = judgment s w seq b := judgment_at s t w seq b rfl rfl

theorem runs_commit_accepted {s : State} {t w seq : Nat} (hr : writesTaken s = true) (hw : w < wicketCount s) (hseq : seq < 65536) (ht : t < 24576) (hc : s.clock.cycle < 24576)
    (hnew : (wk s w).rState = 0 ∨ seq ≠ (wk s w).lastArrived) (hj : judgment s w seq (snapshotOf s w) = none) :
    Runs (.commit t w 60 (commitLanes seq)) s (fun u =>
      (wk u w).lastSeq = seq ∧ (wk u w).rSeq = seq ∧ (wk u w).rState = 2 ∧ (wk u w).rStatus = 0 ∧ (wk u w).rDetail = 0 ∧ (wk u w).rTag = le (snapshotOf s w) 4 2 ∧ (wk u w).rClose = s.now ∧
      ∃ c, u.cmds = s.cmds ++ [c] ∧ c.hdr = parseHdr (snapshotOf s w) ∧ c.wicket = w ∧ c.cseq = seq ∧ c.pos.close = s.now ∧ c.pos.wicket = w) := by
  set v := modWk (s.at t) w (reached seq)
  have hj' : judgment v w seq (snapshotOf s w) = none := (judgment_reached s t w seq _).trans hj
  have hdecided : decided v w seq (snapshotOf s w) = accept v w seq (snapshotOf s w) := by rw [decided, hj']
  obtain ⟨c, hcmds, hhdr, hwicket, hcseq, hclose, hpos⟩ := accept_cmds v w seq (snapshotOf s w)
  refine ⟨_, exec_commit_judged hr hw hseq ht hc hnew, ?_⟩
  beta_reduce
  rw [wk_judge, hj']
  refine ⟨rfl, rfl, rfl, rfl, rfl, rfl, rfl, c, ?_, hhdr, hwicket, hcseq, hclose, hpos⟩
  rw [judge_cmds, hdecided, hcmds]
  rfl

theorem runs_commit_notTaken {s : State} {t w seq st de : Nat} (hr : writesTaken s = true) (hw : w < wicketCount s) (hseq : seq < 65536) (ht : t < 24576) (hc : s.clock.cycle < 24576)
    (hnew : (wk s w).rState = 0 ∨ seq ≠ (wk s w).lastArrived) (hj : judgment s w seq (snapshotOf s w) = some (st, de)) :
    Runs (.commit t w 60 (commitLanes seq)) s (fun u =>
      (wk u w).lastSeq = seq ∧ (wk u w).rSeq = seq ∧ (wk u w).rState = 3 ∧ (wk u w).rStatus = st ∧ (wk u w).rDetail = de ∧ (wk u w).rTag = le (snapshotOf s w) 4 2 ∧ (wk u w).rClose = s.now ∧
      (wk u w).state = (wk s w).state ∧ u.cmds = s.cmds ∧ u.ledger.recs = s.ledger.recs) := by
  set v := modWk (s.at t) w (reached seq) with hv
  have hj' : judgment v w seq (snapshotOf s w) = some (st, de) := (judgment_reached s t w seq _).trans hj
  have hdecided : decided v w seq (snapshotOf s w) = rejected v (st, de) := by rw [decided, hj']
  have hwk : wk (rejected v (st, de)) w = reached seq (wk s w) := wk_modWk_same (s.at t) w (reached seq)
  refine ⟨_, exec_commit_judged hr hw hseq ht hc hnew, ?_⟩
  beta_reduce
  rw [wk_judge, hj', hdecided, hwk, judge_eq, hdecided]
  refine ⟨rfl, rfl, rfl, rfl, rfl, rfl, rfl, rfl, rfl, ?_⟩
  change (if _ then { s.ledger with refusals := _ } else s.ledger : Ledger).recs = s.ledger.recs
  split <;> rfl

theorem runs_commit_repeat {s : State} {t w seq : Nat} (hr : writesTaken s = true) (hw : w < wicketCount s) (hseq : seq < 65536) (hstate : (wk s w).rState ≠ 0) (hrepeat : seq = (wk s w).lastArrived) :
    Runs (.commit t w 60 (commitLanes seq)) s (fun u => u.wickets.stray = inc 0xFFFF s.wickets.stray ∧ (∃ h, wk u w = { wk s w with hdr := h }) ∧ u.cmds = s.cmds ∧ u.ledger = s.ledger) := by
  set u := modWk (s.at t) w (writeHdr 60 (commitLanes seq))
  have hwk : wk u w = writeHdr 60 (commitLanes seq) (wk s w) := wk_modWk_same (s.at t) w _
  have harrives : commitArrives u w seq = stray u := if_pos (by rw [hwk]; simp [writeHdr, hstate, ← hrepeat])
  exact ⟨stray u, (exec_commit hr hw hseq).trans (congrArg Host.Outcome.next harrives), rfl, ⟨_, hwk⟩, rfl, rfl⟩

theorem runs_commit_waits {s : State} {t w seq : Nat} (hr : writesTaken s = true) (hw : w < wicketCount s) (hseq : seq < 65536) (hnew : (wk s w).rState = 0 ∨ seq ≠ (wk s w).lastArrived)
    (ht : t < 25600) (hq : 24576 ≤ t) :
    Runs (.commit t w 60 (commitLanes seq)) s (fun u => (wk u w).rState = 1 ∧ (wk u w).lastSeq = (wk s w).lastSeq ∧ (wk u w).rSeq = (wk s w).rSeq ∧
      (wk u w).waitingCommits = (wk s w).waitingCommits ++ [(seq, Memory.readN 0 (wk s w).hdr 0 60)] ∧ u.cmds = s.cmds ∧ u.ledger = s.ledger) := by
  have hquiet : (s.at t).quiet = true := quiet_eq_true (by simp only [State.at]; omega)
  refine ⟨modWk (modWk (s.at t) w (reached seq)) w (fun k => { k with waitingCommits := k.waitingCommits ++ [(seq, Memory.readN 0 (wk s w).hdr 0 60)] }), ?_, ?_⟩
  · rw [exec_commit hr hw hseq, commitArrives_new hnew, hquiet]
    rfl
  · beta_reduce
    rw [wk_modWk_same, wk_modWk_same]
    exact ⟨rfl, rfl, rfl, rfl, rfl, rfl⟩

/-! ### QUIET_COMMIT_TAKE (R263) -/

theorem takeWaiting_eq (s : State) (w : Nat) : takeWaiting s w = (wk s w).waitingCommits.foldl (fun s c => judge s w c.1 c.2) (modWk s w (fun k => { k with waitingCommits := [] })) := rfl

/-- Commits judged one by one leave none waiting, and the close as it is. -/
theorem judgeAll_keeps (q : List (Nat × List Byte)) (s : State) (w : Nat) :
    (wk (q.foldl (fun s c => judge s w c.1 c.2) s) w).waitingCommits = (wk s w).waitingCommits ∧ (q.foldl (fun s c => judge s w c.1 c.2) s).now = s.now :=
  ⟨foldl_keeps (fun s => (wk s w).waitingCommits) fun u c => waitingCommits_judge u w c.1 c.2, foldl_keeps State.now fun u c => judge_now u w c.1 c.2⟩

/-- The result block reads Accepted or NotTaken after a judgment. -/
theorem result_state (now order seq tag : Nat) {v : Option (Nat × Nat)} (k : Wicket) (hv : ∀ x, v = some x → x.1 ≠ 0) :
    (k.result now order seq tag v).rState = 2 ∧ (k.result now order seq tag v).rStatus = 0 ∨ (k.result now order seq tag v).rState = 3 ∧ (k.result now order seq tag v).rStatus ≠ 0 := by
  cases v with
  | none => exact .inl ⟨rfl, rfl⟩
  | some x => exact .inr ⟨rfl, hv x rfl⟩

theorem runs_quietCommitTake {s : State} {w : Nat} {q : List (Nat × List Byte)} {e : Nat × List Byte} (hquiet : s.quiet = false) (hwaiting : (wk s w).waitingCommits = q ++ [e]) :
    Runs (.quietCommitTake w) s (fun u => (wk u w).waitingCommits = [] ∧ (wk u w).lastSeq = e.1 ∧ (wk u w).rSeq = e.1 ∧ (wk u w).rClose = s.now ∧
      ((wk u w).rState = 2 ∧ (wk u w).rStatus = 0 ∨ (wk u w).rState = 3 ∧ (wk u w).rStatus ≠ 0)) := by
  set v := q.foldl (fun s c => judge s w c.1 c.2) (modWk s w (fun k => { k with waitingCommits := [] })) with hv
  obtain ⟨hnone, hnow⟩ := judgeAll_keeps q (modWk s w (fun k => { k with waitingCommits := [] })) w
  rw [← hv] at hnone hnow
  have htake : takeWaiting s w = judge v w e.1 e.2 := by
    rw [takeWaiting_eq, hwaiting, List.foldl_append]
    rfl
  refine ⟨judge v w e.1 e.2, congrArg Host.Outcome.next ((if_neg (by simp [hquiet])).trans htake), ?_, ?_⟩
  · rw [waitingCommits_judge, hnone, wk_modWk_same]
  · rw [wk_judge]
    exact ⟨rfl, rfl, hnow, result_state _ _ _ _ _ (judgment_status v w e.1 e.2)⟩

/-- Settles O21: a commit is judged on the header as it stands, or waits for its close; what the judgment gives is read off its table. -/
theorem commitsAreJudged : Obligations.CommitsAreJudged := by
  refine ⟨?_, ?_, ⟨?_, ?_, ?_⟩, ?_⟩
  · exact fun _ _ _ _ hr hw hoff hdata hwf => runs_headerWrite hr hw hoff hdata hwf
  · exact fun _ _ _ _ hr hw hseq ht hc hnew => ⟨runs_commit_accepted hr hw hseq ht hc hnew, fun _ _ => runs_commit_notTaken hr hw hseq ht hc hnew⟩
  · exact fun _ _ _ _ => runs_commit_repeat
  · exact fun _ _ _ _ => runs_commit_waits
  · exact fun _ _ _ _ => runs_quietCommitTake
  · intro s w seq b k h ring
    refine ⟨fun hj => (judgment_eq_none hj).1, fun hj => (judgment_eq_none hj).2, ?_, ?_, ?_, ?_, ?_⟩
    · exact judgment_of_closed
    · exact judgment_of_resetting
    · exact judgment_of_busy
    · exact judgment_of_sequence
    · exact judgment_of_crc

end Sys2Proof.Machine
end

section
namespace Sys2Proof.Machine

/-! ## Where the chunks of a row lie (O13) -/

theorem place_of_group {l : Layout} {ch : ChunkId} {j i : Nat} {p : Pool} (r : Nat) (hrole : l.roleOf ch = some (j, i)) (hj : j < 16) (hp : l.pool j = some p) (hn : 0 < p.members.length) :
    l.place r ch = some (j, (i * p.step + r) % p.members.length, r / p.members.length * (p.width + 2) + i) := by
  simp [Layout.place, hrole, hp, hj, Nat.max_eq_right hn]

theorem place_of_keystone {l : Layout} {ch : ChunkId} {k u : Nat} {p : Pool} (r : Nat) (hrole : l.roleOf ch = some (16 + k, u)) (hp : l.pool (16 + k) = some p) (hn : 0 < p.members.length) :
    l.place r ch = some (16 + k, (u + r) % p.members.length, r / p.members.length * p.width + u) := by
  simp [Layout.place, hrole, hp, Nat.max_eq_right hn]

/-- A place names the member at its position in the pool. -/
theorem member_of_place {l : Layout} {ch : ChunkId} {r pool pos slot : Nat} {p : Pool} (hplace : l.place r ch = some (pool, pos, slot)) (hp : l.pool pool = some p) :
    l.member r ch = p.members[pos]?.map (fun m => (m, slot)) := by
  simp [Layout.member, hplace, hp, List.head?_drop]

/-- Multiplication by a step coprime with the number of members is undone by its inverse. -/
theorem modEq_mul_iff_of_inverse {n step inv i d : Nat} (hinv : step * inv ≡ 1 [MOD n]) : i * step ≡ d [MOD n] ↔ i ≡ d * inv [MOD n] := by
  constructor
  · intro h
    calc i = i * 1 := (Nat.mul_one i).symm
      _ ≡ i * (step * inv) [MOD n] := hinv.symm.mul_left i
      _ = i * step * inv := (Nat.mul_assoc ..).symm
      _ ≡ d * inv [MOD n] := h.mul_right inv
  · intro h
    calc i * step ≡ d * inv * step [MOD n] := h.mul_right step
      _ = d * (step * inv) := by rw [Nat.mul_assoc, Nat.mul_comm inv]
      _ ≡ d * 1 [MOD n] := hinv.mul_left d
      _ = d := Nat.mul_one d

/-- R87: role i of row r stands at position x exactly when i is (x − r)·s⁻¹ mod N. -/
theorem position_eq_iff_role_eq {n step inv i r x : Nat} (hi : i < n) (hx : x < n) (hinv : step * inv % n = 1 % n) : (i * step + r) % n = x ↔ i = (x + n - r % n) * inv % n := by
  have hback : x + n - r % n + r ≡ x [MOD n] := by
    have hr : r % n < n := Nat.mod_lt r (Nat.zero_lt_of_lt hx)
    calc x + n - r % n + r ≡ x + n - r % n + r % n [MOD n] := (Nat.mod_modEq r n).symm.add_left _
      _ = x + n := by omega
      _ ≡ x [MOD n] := Nat.add_mod_right x n
  calc (i * step + r) % n = x ↔ i * step + r ≡ x [MOD n] := by rw [Nat.ModEq, Nat.mod_eq_of_lt hx]
    _ ↔ i * step + r ≡ x + n - r % n + r [MOD n] := ⟨fun h => h.trans hback.symm, fun h => h.trans hback⟩
    _ ↔ i * step ≡ x + n - r % n [MOD n] := ⟨Nat.ModEq.add_right_cancel' r, Nat.ModEq.add_right r⟩
    _ ↔ i ≡ (x + n - r % n) * inv [MOD n] := modEq_mul_iff_of_inverse hinv
    _ ↔ i = (x + n - r % n) * inv % n := by rw [Nat.ModEq, Nat.mod_eq_of_lt hi]

/-- Settles O13: a chunk's place is its role turned by the row, and the turn is undone by the inverse of the pool's step. -/
theorem placesOfChunks : Obligations.PlacesOfChunks := by
  refine ⟨?_, ?_, ?_⟩
  · intro l ch j i r p hrole hj hp hne
    exact member_of_place (place_of_group r hrole hj hp (List.length_pos_iff.2 hne)) hp
  · rintro l ch j i r x inv n p hrole hj hp rfl hn hi hwidth hx hinv
    rw [place_of_group r hrole hj hp hn, Option.map_some, Option.some_inj]
    exact position_eq_iff_role_eq (hi.trans_le hwidth) hx hinv
  · intro l t k u r p hrole hp hne
    exact member_of_place (place_of_keystone r hrole hp (List.length_pos_iff.2 hne)) hp

end Sys2Proof.Machine
end

section
namespace Sys2Proof.Machine

/-! ## Regions, resynchronisation and plans (O33) -/

theorem map_modIf {α β : Type} {p : α → Bool} {f : α → α} {g : α → β} (hg : ∀ a, g (f a) = g a) (l : List α) : (modIf p f l).map g = l.map g := by
  rw [modIf_eq_map, List.map_map]
  exact List.map_congr_left fun a _ => by by_cases h : p a <;> simp [h, hg]

/-! ### The map record (R99, R118) -/

/-- A record as its header names it. -/
def Rec.heading (r : Rec) : Nat × Nat × Nat := (r.seq, r.kind, r.volume)

/-- The records as their headers name them, the next sequence and the regions: the end of a record changes none of them. -/
def recordsHead (s : State) : List (Nat × Nat × Nat) × Nat × List Region := (s.ledger.recs.map Rec.heading, s.ledger.nextSeq, s.ledger.regions)

theorem countRecord_recordsHead (s : State) (r : Rec) : recordsHead (countRecord s r) = recordsHead s := by
  unfold countRecord recordsHead
  dsimp only
  split
  · rw [writeCopies_ledger]
  · split
    · rw [(appendCopies_ledger s 2 _).1]
    · split
      · rw [(appendCopies_ledger s 3 _).1]
      · rfl

theorem streamRecord_ledger (s : State) (r : Rec) : (streamRecord s r).ledger = s.ledger := same_ledger (ps := [.chain]) (by simp) (by decide)

theorem recComplete_recordsHead (s : State) (seq : Nat) : recordsHead (recComplete s seq) = recordsHead s := by
  simp only [recordsHead, recComplete, modRec]
  rw [map_modIf]
  exact fun _ => rfl

theorem recWhole_recordsHead (s : State) (seq : Nat) : recordsHead (recWhole s seq) = recordsHead s := by
  unfold recWhole
  dsimp only
  split
  · rw [recordsHead, streamRecord_ledger]
    exact (countRecord_recordsHead _ _).trans (recComplete_recordsHead s seq)
  · exact recComplete_recordsHead s seq

theorem recEnd_recordsHead (s : State) (seq : Nat) : recordsHead (recEnd s seq) = recordsHead s := by
  unfold recEnd
  split
  · rfl
  · exact recWhole_recordsHead s seq

/-- A map record takes the next sequence and touches no other record and no region. -/
theorem mapRecord_recordsHead (s : State) (volume region : Nat) (set : Bool) :
    recordsHead (mapRecord s volume region set) = (s.ledger.recs.map Rec.heading ++ [(s.ledger.nextSeq, 3, volume)], s.ledger.nextSeq + 1, s.ledger.regions) := by
  unfold mapRecord writeRec
  refine (recEnd_recordsHead _ _).trans ?_
  simp [recordsHead, addRec, Rec.heading]

/-! ### Step 1 of a work (R117, R118) -/

theorem findRegion_modRegion {s : State} {v n : Nat} {r : Region} {f : Region → Region} (hf : ∀ e, (f e).volume = e.volume ∧ (f e).region = e.region) (h : findRegion s v n = some r) :
    findRegion (modRegion s v n f) v n = some (f r) := by
  refine (find?_modIf _ f (fun e => ?_) s.ledger.regions).trans (congrArg (Option.map f) h)
  simp [hf]

/-- An uncovered region awaits admission. -/
theorem stepOne_of_uncovered {s : State} {id : Nat} {w : Work} {r : Region} (hw : findWork s id = some w) (hstep : w.step = 1) (hr : findRegion s w.volume w.region = some r) (hc : r.covered = false) :
    stepOne s id = modRegion s w.volume w.region (fun r => { r with awaiting := true }) := by
  simp [stepOne, hw, hstep, hr, hc]

/-- A change of a region that leaves its name and its bit. -/
def KeepsBit (f : Region → Region) : Prop := ∀ e, (f e).volume = e.volume ∧ (f e).region = e.region ∧ (f e).set = e.set

/-- The ledger with its regions changed, but for their names and bits. -/
def RegionsMarked (s t : State) : Prop := ∃ f, KeepsBit f ∧ t.ledger = { s.ledger with regions := s.ledger.regions.map f }

theorem regionsMarked_of_ledger {s t : State} (h : t.ledger = s.ledger) : RegionsMarked s t := ⟨id, fun _ => ⟨rfl, rfl, rfl⟩, by rw [h, List.map_id]⟩

theorem regionsMarked_modRegion {s t : State} {v r : Nat} {f : Region → Region} (hf : KeepsBit f) (h : t.ledger = (modRegion s v r f).ledger) : RegionsMarked s t := by
  refine ⟨fun e => if e.volume = v && e.region = r then f e else e, fun e => ?_, by rw [h, modRegion, modIf_eq_map]⟩
  dsimp only
  split
  · exact hf e
  · exact ⟨rfl, rfl, rfl⟩

/-- Step 1 marks a region as awaiting admission or as busy, and leaves the rest of the ledger. -/
theorem stepOne_regionsMarked (s : State) (id : Nat) : RegionsMarked s (stepOne s id) := by
  unfold stepOne
  split
  · exact regionsMarked_of_ledger rfl
  split
  · exact regionsMarked_of_ledger rfl
  split
  · exact regionsMarked_of_ledger rfl
  next w _ _ _ r _ =>
  split
  · exact regionsMarked_modRegion (f := fun r => { r with awaiting := true }) (fun _ => ⟨rfl, rfl, rfl⟩) rfl
  split
  · refine regionsMarked_modRegion (v := w.volume) (r := w.region) (f := fun r => { r with busy := true }) (fun _ => ⟨rfl, rfl, rfl⟩) ?_
    dsimp only
    repeat' split
    all_goals simp
  · exact regionsMarked_of_ledger rfl

theorem findRegion_stepOne_set (s : State) (id v n : Nat) : (findRegion (stepOne s id) v n).any (·.set) = (findRegion s v n).any (·.set) := by
  obtain ⟨f, hf, hledger⟩ := stepOne_regionsMarked s id
  have hname : (fun e : Region => decide (e.volume = v) && decide (e.region = n)) ∘ f = fun e => decide (e.volume = v) && decide (e.region = n) := funext fun e => by simp [hf e]
  have hbit : (fun e : Region => (f e).set) = fun e => e.set := funext fun e => (hf e).2.2
  rw [findRegion, hledger, List.find?_map, hname, Option.any_map, hbit, findRegion]

/-! ### MAP_BIT_SET (R118) -/

theorem mapBitSet_of_room {s : State} {id : Nat} {w : Work} {r : Region} (hw : findWork s id = some w) (hstep : w.step = 1) (hr : findRegion s w.volume w.region = some r) (hc : r.covered = true)
    (hs : r.set = false) (hroom : tableUsed s < 8192) :
    mapBitSet s id = stepOne (mapRecord (modRegion s w.volume w.region (fun r => { r with set := true })) w.volume w.region true) id := by
  simp [mapBitSet, hw, hstep, hr, hc, hs, Nat.not_le.2 hroom]

theorem mapBitSet_of_full {s : State} {id : Nat} {w : Work} {r : Region} (hw : findWork s id = some w) (hstep : w.step = 1) (hr : findRegion s w.volume w.region = some r) (hc : r.covered = true)
    (hs : r.set = false) (hfull : 8192 ≤ tableUsed s) : mapBitSet s id = { s with ledger := { s.ledger with tableWaits := inc 0xFFFF s.ledger.tableWaits } } := by
  simp [mapBitSet, hw, hstep, hr, hc, hs, hfull]

theorem mapBitSet_of_uncovered {s : State} {id : Nat} {w : Work} {r : Region} (hw : findWork s id = some w) (hr : findRegion s w.volume w.region = some r) (hc : r.covered = false) :
    mapBitSet s id = stepOne s id := by
  simp [mapBitSet, hw, hr, hc]

theorem runs_mapBitSet_room {s : State} {id : Nat} {w : Work} {r : Region} (hw : findWork s id = some w) (hstep : w.step = 1) (hr : findRegion s w.volume w.region = some r) (hc : r.covered = true)
    (hs : r.set = false) (hroom : tableUsed s < 8192) :
    Runs (.mapBitSet id) s (fun t => (findRegion t w.volume w.region).any (fun r => r.set) = true ∧ t.ledger.nextSeq = s.ledger.nextSeq + 1 ∧
      ∃ q ∈ t.ledger.recs, q.seq = s.ledger.nextSeq ∧ q.kind = 3 ∧ q.volume = w.volume) := by
  set u := modRegion s w.volume w.region (fun r => { r with set := true })
  set m := mapRecord u w.volume w.region true
  have hhead : recordsHead m = (s.ledger.recs.map Rec.heading ++ [(s.ledger.nextSeq, 3, w.volume)], s.ledger.nextSeq + 1, u.ledger.regions) := mapRecord_recordsHead u _ _ _
  obtain ⟨hrecs, hnext, hregions⟩ : m.ledger.recs.map Rec.heading = _ ∧ m.ledger.nextSeq = _ ∧ m.ledger.regions = _ := by simpa [recordsHead] using hhead
  obtain ⟨f, -, hledger⟩ := stepOne_regionsMarked m id
  refine ⟨stepOne m id, congrArg Host.Outcome.next (mapBitSet_of_room hw hstep hr hc hs hroom), ?_, ?_, ?_⟩
  · have hfind : findRegion m w.volume w.region = some { r with set := true } := by
      rw [findRegion, hregions]
      exact findRegion_modRegion (f := fun r => { r with set := true }) (fun _ => ⟨rfl, rfl⟩) hr
    rw [findRegion_stepOne_set, hfind]
    rfl
  · rw [hledger]
    exact hnext
  · have hmem : (s.ledger.nextSeq, 3, w.volume) ∈ m.ledger.recs.map Rec.heading := by simp [hrecs]
    obtain ⟨q, hq, hhd⟩ := List.mem_map.1 hmem
    obtain ⟨hseq, hkind, hvol⟩ : q.seq = _ ∧ q.kind = _ ∧ q.volume = _ := by simpa [Rec.heading] using hhd
    rw [hledger]
    exact ⟨q, hq, hseq, hkind, hvol⟩

theorem runs_mapBitSet_uncovered {s : State} {id : Nat} {w : Work} {r : Region} (hw : findWork s id = some w) (hstep : w.step = 1) (hr : findRegion s w.volume w.region = some r) (hc : r.covered = false) :
    Runs (.mapBitSet id) s (fun t => (findRegion t w.volume w.region).any (fun r => r.awaiting && !r.covered) = true ∧ t.ledger.recs = s.ledger.recs ∧ t.works = s.works) := by
  refine ⟨_, congrArg Host.Outcome.next ((mapBitSet_of_uncovered hw hr hc).trans (stepOne_of_uncovered hw hstep hr hc)), ?_, rfl, rfl⟩
  rw [findRegion_modRegion (f := fun r => { r with awaiting := true }) (fun _ => ⟨rfl, rfl⟩) hr]
  simp [hc]

/-! ### REGION_TABLE_FREED (R118) -/

theorem exec_regionTableFreed (s : State) : exec .regionTableFreed s = .next ((s.works.filter (fun w => w.step = 1)).foldl (fun s w => mapBitSet s w.id) s) := rfl

/-! ### RESYNCHRONISATION (R126) -/

/-- A work as its number, its kind and its row name it. -/
def Work.naming (w : Work) : Nat × WorkKind × Nat × Nat := (w.id, w.kind, w.layout, w.row)

def namings (s : State) : List (Nat × WorkKind × Nat × Nat) := s.works.map Work.naming

theorem worksNumbered_iff (s : State) : worksNumbered s ↔ ∀ k ∈ namings s, k.1 < s.nextWork := by
  simp [worksNumbered, namings, Work.naming]

theorem namings_modWork (s : State) (id : Nat) {f : Work → Work} (hf : ∀ w, (f w).naming = w.naming) : namings (modWork s id f) = namings s := map_modIf hf s.works

/-- The row has its work that reads it and writes its syndromes Fresh. -/
def resyncs (s : State) (e : Layout × Nat) : Prop := ∃ id, (id, .resync, e.1.index, e.2) ∈ namings s

theorem resyncs_iff (s : State) (e : Layout × Nat) : resyncs s e ↔ ∃ w ∈ s.works, w.kind = .resync ∧ w.layout = e.1.index ∧ w.row = e.2 := by
  simp [resyncs, namings, Work.naming]

/-- Step 1 of a work that takes its hold before its reads and has no hold yet: it plans nothing. -/
theorem stepOne_namings {s : State} {id : Nat} {w : Work} (hw : findWork s id = some w) (hfirst : holdsFirst w = true) (hheld : w.held = false) : namings (stepOne s id) = namings s := by
  unfold stepOne
  simp only [hw, hfirst, hheld, Bool.true_or, if_true]
  split
  · rfl
  split
  · rfl
  split
  · rfl
  split
  · exact namings_modWork _ id (f := fun w => { w with step := 2 }) fun _ => rfl
  · rfl

theorem findWork_append_new {s t : State} {w : Work} (hnum : worksNumbered s) (hid : w.id = s.nextWork) (ht : t.works = s.works ++ [w]) : findWork t s.nextWork = some w := by
  have hnone : s.works.find? (fun x => x.id = s.nextWork) = none := List.find?_eq_none.2 fun x hx => by simpa using (hnum x hx).ne
  simp [findWork, ht, hnone, hid]

theorem stepOne_nextWork (s : State) (id : Nat) : (stepOne s id).nextWork = s.nextWork := same_nextWork (ps := allBut [.nextWork]) (by simp [allBut]) (by decide)

/-- A row that is to be read and written Fresh gets its work, unless it has one. -/
def resyncRow (v : Nat) (s : State) (e : Layout × Nat) : State :=
  if s.works.any (fun w => w.kind = .resync && w.layout = e.1.index && w.row = e.2) then s
  else modWork (addWork s .resync v e.1 e.2 [] [] [] [] false []) s.nextWork (fun w => { w with unwritten := false })

theorem resynchronise_of_rows {s : State} {v r : Nat} (hleft : (v, r) ∈ s.ledger.resyncLeft) (hret : retires s = true) (hrows : resyncRows s v r ≠ []) :
    resynchronise s v r = (resyncRows s v r).foldl (resyncRow v) s := by
  have hgo : ¬ (!s.ledger.resyncLeft.contains (v, r) || !retires s) = true := by simp [hleft, hret]
  have hsome : ¬ (resyncRows s v r).isEmpty = true := by simpa using hrows
  unfold resynchronise
  rw [if_neg hgo]
  exact if_neg hsome

theorem addResync_namings {s : State} (v : Nat) (e : Layout × Nat) (hnum : worksNumbered s) :
    namings (addWork s .resync v e.1 e.2 [] [] [] [] false []) = namings s ++ [(s.nextWork, .resync, e.1.index, e.2)] ∧
      (addWork s .resync v e.1 e.2 [] [] [] [] false []).nextWork = s.nextWork + 1 := by
  unfold addWork
  constructor
  · refine (stepOne_namings (findWork_append_new hnum ?_ rfl) rfl rfl).trans ?_
    · rfl
    · simp [namings, assignRegions, Work.naming]
  · exact stepOne_nextWork _ _

/-- One row keeps the works that there are, and their numbers below the next one; the row has its work then. -/
theorem resyncRow_spec {s : State} (v : Nat) (e : Layout × Nat) (hnum : worksNumbered s) :
    worksNumbered (resyncRow v s e) ∧ (∀ k ∈ namings s, k ∈ namings (resyncRow v s e)) ∧ resyncs (resyncRow v s e) e := by
  unfold resyncRow
  split
  next hany =>
    refine ⟨hnum, fun _ hk => hk, (resyncs_iff s e).2 ?_⟩
    simpa [and_assoc] using hany
  next =>
    obtain ⟨hnames, hnext⟩ := addResync_namings v e hnum
    rw [worksNumbered_iff] at hnum
    rw [worksNumbered_iff, resyncs, namings_modWork (f := fun w => { w with unwritten := false }) _ _ (fun _ => rfl), hnames]
    refine ⟨fun k hk => ?_, fun k hk => List.mem_append_left _ hk, s.nextWork, by simp⟩
    show k.1 < (addWork s .resync v e.1 e.2 [] [] [] [] false []).nextWork
    rw [hnext]
    rcases List.mem_append.1 hk with hold | hnew
    · exact Nat.lt_succ_of_lt (hnum k hold)
    · rw [List.mem_singleton.1 hnew]
      exact Nat.lt_succ_self _

theorem resyncs_foldl (v : Nat) (rows : List (Layout × Nat)) {s : State} (hnum : worksNumbered s) :
    (∀ k ∈ namings s, k ∈ namings (rows.foldl (resyncRow v) s)) ∧ ∀ e ∈ rows, resyncs (rows.foldl (resyncRow v) s) e := by
  induction rows generalizing s with
  | nil => exact ⟨fun _ hk => hk, fun _ he => nomatch he⟩
  | cons e rows ih =>
    obtain ⟨hnum', hkeep, id, hid⟩ := resyncRow_spec v e hnum
    obtain ⟨hkeep', hrows⟩ := ih hnum'
    refine ⟨fun k hk => hkeep' k (hkeep k hk), fun x hx => ?_⟩
    rcases List.mem_cons.1 hx with rfl | hx
    · exact ⟨id, hkeep' _ hid⟩
    · exact hrows x hx

theorem runs_resynchronisation {s : State} {v r : Nat} (hleft : (v, r) ∈ s.ledger.resyncLeft) (hret : retires s = true) (hrows : resyncRows s v r ≠ []) (hnum : worksNumbered s) :
    Runs (.resynchronisation v r) s (fun t => ∀ e ∈ resyncRows s v r, ∃ w ∈ t.works, w.kind = .resync ∧ w.layout = e.1.index ∧ w.row = e.2) :=
  ⟨_, congrArg Host.Outcome.next (resynchronise_of_rows hleft hret hrows), fun e he => (resyncs_iff _ e).1 ((resyncs_foldl v _ hnum).2 e he)⟩

theorem resynchronise_of_noRows {s : State} {v r : Nat} (hleft : (v, r) ∈ s.ledger.resyncLeft) (hret : retires s = true) (hrows : resyncRows s v r = []) :
    resynchronise s v r = { s with ledger := { s.ledger with resyncLeft := s.ledger.resyncLeft.filter (fun e => e ≠ (v, r)) } } := by
  simp [resynchronise, hleft, hret, hrows]

theorem resynchronise_of_unlisted {s : State} {v r : Nat} (h : (v, r) ∉ s.ledger.resyncLeft ∨ retires s = false) : resynchronise s v r = s := by
  refine if_pos ?_
  rcases h with h | h <;> simp [h]

/-! ### Decode plans (R82, R83) -/

theorem findPlan_modPlan {s : State} {layout : Nat} {erased : List ChunkId} {p : Plan} {f : Plan → Plan} (hf : ∀ q, (f q).layout = q.layout ∧ (f q).erased = q.erased)
    (h : findPlan s layout erased = some p) : findPlan (modPlan s layout erased f) layout erased = some (f p) := by
  refine (find?_modIf _ f (fun q => ?_) s.plans.cache).trans (congrArg (Option.map f) h)
  simp [hf]

theorem findWork_modWork {s : State} {id : Nat} {w : Work} {f : Work → Work} (hf : ∀ x, (f x).id = x.id) (h : findWork s id = some w) : findWork (modWork s id f) id = some (f w) := by
  refine (find?_modIf _ f (fun x => ?_) s.works).trans (congrArg (Option.map f) h)
  simp [hf]

theorem tagIsCmd_workTag (id : Nat) : tagIsCmd (workTag id) = false := by simp [tagIsCmd, workTag]

theorem tagIsJob_workTag (id : Nat) : tagIsJob (workTag id) = false := by simp [tagIsJob, workTag]

theorem tagId_workTag (id : Nat) : tagId (workTag id) = id := by simp [tagId, workTag]

/-- A work that waits for a plan tries its postings, and then its blocks from another layout. -/
theorem planGo_workTag (s : State) (id : Nat) : planGo s (workTag id) = fillNeeds (tryPostings s id) id := by
  simp [planGo, needMoved, tagIsCmd_workTag, tagIsJob_workTag, tagId_workTag]

theorem fillNeeds_of_none {s : State} {id : Nat} {w : Work} (hw : findWork s id = some w) (hneeds : w.needs = []) : fillNeeds s id = s := by simp [fillNeeds, hw, hneeds]

/-- A work at step 3 under its hold whose one plan is ready has its postings pushed. -/
theorem tryPostings_of_planHeld {s : State} {id : Nat} {w : Work} {e : List ChunkId} (hw : findWork s id = some w) (hstep : w.step = 3) (hheld : w.held = true) (hleft : w.postsLeft = 0)
    (hpattern : w.patterns = [e]) (hfrom : w.fromClose ≤ s.now) (hplan : planHeld s (workTag id) w.layout e = true) (hcount : postCount w ≠ 0) :
    tryPostings s id = modWork s id (fun x => { x with postsLeft := postCount w }) := by
  have hid : w.id = id := by simpa using List.find?_some hw
  have hplans : plansHeld s w = true := by simp [plansHeld, hpattern, hid, hplan]
  simp [tryPostings, pushPostings, hw, hstep, hheld, hleft, hfrom, hplans, hcount]

/-! ### PLAN_READY and PLAN_UNPIN (R82) -/

theorem planReady_of_building {s : State} {layout : Nat} {erased : List ChunkId} {p : Plan} (hp : findPlan s layout erased = some p) (hready : p.ready = false) :
    planReady s layout erased = p.users.foldl planGo (modPlan s layout erased (fun p => { p with ready := true })) := by
  simp [planReady, hp, hready]

theorem planReady_of_ready {s : State} {layout : Nat} {erased : List ChunkId} {p : Plan} (hp : findPlan s layout erased = some p) (hready : p.ready = true) : planReady s layout erased = s := by
  simp [planReady, hp, hready]

theorem planReady_of_none {s : State} {layout : Nat} {erased : List ChunkId} (hp : findPlan s layout erased = none) : planReady s layout erased = s := by simp [planReady, hp]

theorem planUnpin_of_none {s : State} {layout : Nat} {erased : List ChunkId} (hp : findPlan s layout erased = none) : planUnpin s layout erased = s := by simp [planUnpin, hp]

theorem runs_planReady_unused {s : State} {layout : Nat} {erased : List ChunkId} {p : Plan} (hp : findPlan s layout (patternKey s layout erased) = some p) (hready : p.ready = false) (husers : p.users = []) :
    Runs (.planReady layout erased) s (fun t => findPlan t layout (patternKey s layout erased) = some { p with ready := true } ∧ OnlyIn [.plans] s t) := by
  refine ⟨modPlan s layout (patternKey s layout erased) (fun p => { p with ready := true }), congrArg Host.Outcome.next ?_, ?_, by simp [OnlyIn]⟩
  · rw [planReady_of_building hp hready, husers, List.foldl_nil]
  · exact findPlan_modPlan (f := fun p => { p with ready := true }) (fun _ => ⟨rfl, rfl⟩) hp

theorem runs_planReady_work {s : State} {layout id : Nat} {erased : List ChunkId} {p : Plan} {w : Work} (hp : findPlan s layout (patternKey s layout erased) = some p) (hready : p.ready = false)
    (husers : p.users = [workTag id]) (hw : findWork s id = some w) (hlayout : w.layout = layout) (hstep : w.step = 3) (hheld : w.held = true) (hleft : w.postsLeft = 0)
    (hpattern : w.patterns = [patternKey s layout erased]) (hneeds : w.needs = []) (hfrom : w.fromClose ≤ s.now) (hcount : postCount w ≠ 0) :
    Runs (.planReady layout erased) s (fun t => findPlan t layout (patternKey s layout erased) = some { p with ready := true } ∧ findWork t id = some { w with postsLeft := postCount w } ∧
      OnlyIn [.plans, .works] s t) := by
  set key := patternKey s layout erased
  set u := modPlan s layout key (fun p => { p with ready := true })
  set t := modWork u id (fun x => { x with postsLeft := postCount w })
  have hfind : findPlan u layout key = some { p with ready := true } := findPlan_modPlan (f := fun p => { p with ready := true }) (fun _ => ⟨rfl, rfl⟩) hp
  have hplan : planHeld u (workTag id) w.layout key = true := by simp [planHeld, hlayout, hfind, husers]
  have htry : tryPostings u id = t := tryPostings_of_planHeld (s := u) hw hstep hheld hleft hpattern hfrom hplan hcount
  have hwork : findWork t id = some { w with postsLeft := postCount w } := findWork_modWork (s := u) (f := fun x => { x with postsLeft := postCount w }) (fun _ => rfl) hw
  refine ⟨t, congrArg Host.Outcome.next ?_, hfind, hwork, by simp [OnlyIn, t, u]⟩
  rw [planReady_of_building hp hready, husers, List.foldl_cons, List.foldl_nil, planGo_workTag, htry]
  exact fillNeeds_of_none hwork hneeds

/-- The pin of a plan goes with its last user; with nobody waiting, or a user left, that is all. -/
theorem planUnpin_of_quiet {s : State} {layout : Nat} {erased : List ChunkId} {p : Plan} (hp : findPlan s layout erased = some p)
    (h : s.plans.waiting = [] ∨ p.users.filter (stillUses s layout erased) ≠ []) :
    planUnpin s layout erased = modPlan s layout erased (fun q => { q with users := p.users.filter (stillUses s layout erased) }) := by
  unfold planUnpin
  rw [hp]
  dsimp only
  split
  next hlast =>
    have hnobody : s.plans.waiting = [] := h.resolve_right (by simpa using (Bool.and_eq_true_iff.1 hlast).2)
    simp [serveWaiting, modPlan, hnobody]
  next => rfl

theorem runs_planUnpin {s : State} {layout : Nat} {erased : List ChunkId} {p : Plan} (hp : findPlan s layout (patternKey s layout erased) = some p)
    (h : s.plans.waiting = [] ∨ p.users.filter (stillUses s layout (patternKey s layout erased)) ≠ []) :
    Runs (.planUnpin layout erased) s (fun t => OnlyIn [.plans] s t ∧ t.plans.waiting = s.plans.waiting ∧
      findPlan t layout (patternKey s layout erased) = some { p with users := p.users.filter (stillUses s layout (patternKey s layout erased)) }) := by
  refine ⟨_, congrArg Host.Outcome.next (planUnpin_of_quiet hp h), by simp [OnlyIn], rfl, ?_⟩
  exact findPlan_modPlan (f := fun q => { q with users := p.users.filter (stillUses s layout (patternKey s layout erased)) }) (fun _ => ⟨rfl, rfl⟩) hp

/-- Settles O33: step 1 touches no region's bit, a resynchronised row's new work keeps its own number, and a ready plan sends its user's postings. -/
theorem regionsAndPlans : Obligations.RegionsAndPlans := by
  refine ⟨?_, ?_, ?_, ?_, ?_, ?_, ?_, ?_, ?_, ?_, ?_, ?_, ?_, ?_⟩
  · exact fun _ _ _ _ => runs_mapBitSet_room
  · exact fun _ _ _ _ hw hstep hr hc hs hfull => congrArg Host.Outcome.next (mapBitSet_of_full hw hstep hr hc hs hfull)
  · exact fun _ _ _ _ => runs_mapBitSet_uncovered
  · intro w s hone
    exact ⟨mapBitSet s w.id, by rw [exec_regionTableFreed, hone, List.foldl_cons, List.foldl_nil], rfl⟩
  · intro s hnone
    have hempty : s.works.filter (fun w => w.step = 1) = [] := List.filter_eq_nil_iff.2 fun w hw => by simpa using hnone w hw
    rw [exec_regionTableFreed, hempty, List.foldl_nil]
  · exact fun _ _ _ => runs_resynchronisation
  · exact fun _ _ _ hleft hret hrows => congrArg Host.Outcome.next (resynchronise_of_noRows hleft hret hrows)
  · exact fun _ _ _ h => congrArg Host.Outcome.next (resynchronise_of_unlisted h)
  · exact fun _ _ _ _ => runs_planReady_unused
  · exact fun _ _ _ _ _ _ => runs_planReady_work
  · exact fun _ _ _ _ hp hready => congrArg Host.Outcome.next (planReady_of_ready hp hready)
  · exact fun _ hr => congrArg Host.Outcome.next (if_pos hr)
  · exact fun _ _ _ _ => runs_planUnpin
  · exact fun _ _ _ hp => ⟨congrArg Host.Outcome.next (planUnpin_of_none hp), congrArg Host.Outcome.next (planReady_of_none hp)⟩

end Sys2Proof.Machine
end

section
namespace Sys2Proof.Machine

/-! ## Checkpoints of the region map (O34) -/

/-! ### A checkpoint is cut (R117, R121) -/

/-- The checkpoint of a cut; the rest of the ledger but for the close of the cut stays as it was. -/
theorem cutCheckpoint_ckpt (s : State) (admission : Bool) :
    ∃ c, (cutCheckpoint s admission).ledger.ckpt = some c ∧ c.cutClose = s.now ∧ c.admission = admission ∧ c.seq = (s.ledger.newest.map (fun c => c.seq)).getD 0 + 1 :=
  ⟨_, rfl, rfl, rfl, rfl⟩

theorem runs_admissionCheckpoint {s : State} (hop : opfin s = true) (hnone : s.ledger.ckpt = none) (hawait : s.ledger.regions.any (fun r => r.awaiting) = true) (hstep : s.chip.step = 15) :
    Runs .admissionCheckpoint s (fun t => t.ledger.lastCkptCut = s.now ∧ t.ledger.admissions = inc 0xFFF s.ledger.admissions ∧ t.ledger.newest = s.ledger.newest ∧ t.registry = openSlot s.registry ∧
      OnlyIn [.ledger, .registry] s t ∧
      ∃ c, t.ledger.ckpt = some c ∧ c.cutClose = s.now ∧ c.admission = true ∧ c.seq = (s.ledger.newest.map (fun c => c.seq)).getD 0 + 1) := by
  refine ⟨_, congrArg Host.Outcome.next (if_pos ?_), rfl, rfl, rfl, rfl, by simp [OnlyIn], cutCheckpoint_ckpt s true⟩
  simp [hop, hnone, hawait, hstep]

theorem runs_periodicCheckpoint {s : State} (hop : opfin s = true) (hnone : s.ledger.ckpt = none) (hdue : s.ledger.lastCkptCut + 65536 ≤ s.now) (hstep : s.chip.step = 15) :
    Runs .periodicCheckpoint s (fun t => t.ledger.lastCkptCut = s.now ∧ t.ledger.admissions = s.ledger.admissions ∧ t.registry = openSlot s.registry ∧ OnlyIn [.ledger, .registry] s t ∧
      ∃ c, t.ledger.ckpt = some c ∧ c.cutClose = s.now ∧ c.admission = false) := by
  obtain ⟨c, hckpt, hcut, hadmission, -⟩ := cutCheckpoint_ckpt s false
  refine ⟨_, congrArg Host.Outcome.next (if_pos ?_), rfl, rfl, rfl, by simp [OnlyIn], c, hckpt, hcut, hadmission⟩
  simp [hop, hnone, hdue, hstep]

/-- While one checkpoint is being written no other is cut. -/
theorem exec_checkpoints_of_open {s : State} (hopen : s.ledger.ckpt ≠ none) : exec .admissionCheckpoint s = .next s ∧ exec .periodicCheckpoint s = .next s := by
  have hsome : s.ledger.ckpt.isNone = false := Option.isNone_eq_false_iff.2 (Option.isSome_iff_ne_none.2 hopen)
  exact ⟨congrArg Host.Outcome.next (if_neg (by simp [hsome])), congrArg Host.Outcome.next (if_neg (by simp [hsome]))⟩

theorem exec_periodicCheckpoint_early {s : State} (hearly : s.now < s.ledger.lastCkptCut + 65536) : exec .periodicCheckpoint s = .next s :=
  congrArg Host.Outcome.next (if_neg (by simp [Nat.not_le.2 hearly]))

/-! ### A checkpoint is whole (R121) -/

/-- A region as a checkpoint sees it. -/
def Region.coverage (r : Region) : Nat × Nat × Bool := (r.volume, r.region, r.covered)

/-- The checkpoint being written, the newest one and what is covered: step 1 of a work changes none of them. -/
def coverage (s : State) : Option Ckpt × Option Ckpt × List (Nat × Nat × Bool) := (s.ledger.ckpt, s.ledger.newest, s.ledger.regions.map Region.coverage)

theorem coverage_of_ledger {s t : State} (h : t.ledger = s.ledger) : coverage t = coverage s := by rw [coverage, h, coverage]

theorem coverage_modRegion (s : State) (v r : Nat) {f : Region → Region} (hf : ∀ e, (f e).coverage = e.coverage) : coverage (modRegion s v r f) = coverage s := by
  simp [coverage, modRegion, map_modIf hf]

theorem stepOne_coverage (s : State) (id : Nat) : coverage (stepOne s id) = coverage s := by
  unfold stepOne
  split
  · rfl
  split
  · rfl
  split
  · rfl
  next w _ _ _ r _ =>
  split
  · exact coverage_modRegion s _ _ fun _ => rfl
  split
  · refine (coverage_of_ledger ?_).trans (coverage_modRegion s w.volume w.region (f := fun r => { r with busy := true }) fun _ => rfl)
    dsimp only
    repeat' split
    all_goals simp
  · rfl

theorem retryStepOne_coverage (s : State) : coverage (retryStepOne s) = coverage s := foldl_keeps coverage fun u w => stepOne_coverage u w.id

theorem retryStepOne_registry (s : State) : (retryStepOne s).registry = s.registry := same_registry (ps := allBut [.registry]) (by simp [allBut]) (by decide)

/-- A region is covered exactly when the checkpoint lists it. -/
def CoversBy (c : Ckpt) (l : List (Nat × Nat × Bool)) : Prop := ∀ e ∈ l, e.2.2 = c.entries.contains (e.1, e.2.1)

theorem checkpointComplete_of_majority {s : State} {acks : List Nat} {c : Ckpt} (hc : s.ledger.ckpt = some c) (hm : majority s acks = true) :
    ∃ u, checkpointComplete s acks = retryStepOne u ∧ u.ledger.ckpt = none ∧ u.ledger.newest = some { c with acks } ∧ CoversBy c (u.ledger.regions.map Region.coverage) ∧
      u.registry.ckpt = some { c with acks } ∧ u.registry.bands = c.bands := by
  simp only [checkpointComplete, hc, hm, Bool.not_true, Bool.false_eq_true, if_false]
  refine ⟨_, rfl, rfl, rfl, ?_, rfl, rfl⟩
  intro e he
  simp only [List.map_map, List.mem_map] at he
  obtain ⟨r, -, rfl⟩ := he
  rfl

theorem runs_checkpointComplete_majority {s : State} {acks : List Nat} {c : Ckpt} (hop : opfin s = true) (hc : s.ledger.ckpt = some c) (hm : majority s acks = true) :
    Runs (.checkpointComplete acks) s (fun t => t.ledger.ckpt = none ∧ t.ledger.newest = some { c with acks } ∧ t.registry.ckpt = some { c with acks } ∧ t.registry.bands = c.bands ∧
      ∀ r ∈ t.ledger.regions, r.covered = c.entries.contains (r.volume, r.region)) := by
  obtain ⟨u, hdone, hckpt, hnewest, hcovers, hreg, hbands⟩ := checkpointComplete_of_majority hc hm
  obtain ⟨hckpt', hnewest', hregions⟩ : (retryStepOne u).ledger.ckpt = _ ∧ (retryStepOne u).ledger.newest = _ ∧ (retryStepOne u).ledger.regions.map Region.coverage = _ := by
    simpa [coverage] using retryStepOne_coverage u
  refine ⟨retryStepOne u, congrArg Host.Outcome.next ((if_pos hop).trans hdone), hckpt'.trans hckpt, hnewest'.trans hnewest, ?_, ?_, ?_⟩
  · rw [retryStepOne_registry, hreg]
  · rw [retryStepOne_registry, hbands]
  · intro r hr
    exact hcovers r.coverage (hregions ▸ List.mem_map_of_mem hr)

theorem checkpointComplete_of_minority {s : State} {acks : List Nat} {c : Ckpt} (hop : opfin s = true) (hc : s.ledger.ckpt = some c) (hm : majority s acks = false) :
    exec (.checkpointComplete acks) s = .next { s with ledger := { s.ledger with ckpt := some { c with acks } } } := by
  refine congrArg Host.Outcome.next ((if_pos hop).trans ?_)
  simp [checkpointComplete, hc, hm]

/-! ### A checkpoint fails (R121) -/

theorem runs_checkpointFailure {s : State} {c : Ckpt} (hop : opfin s = true) (hc : s.ledger.ckpt = some c) (hlate : c.cutClose + 65536 ≤ s.now) :
    Runs .checkpointFailure s (fun t => t.ledger.ckptFailures = inc 0xFFF s.ledger.ckptFailures ∧ t.ledger.newest = s.ledger.newest ∧
      ∃ d, t.ledger.ckpt = some d ∧ d.cutClose = s.now ∧ d.admission = c.admission) := by
  set u := fire { s with ledger := { s.ledger with ckptFailures := inc 0xFFF s.ledger.ckptFailures } } 0x06 0 c.acks.length (natLe 8 c.seq) false
  have hframe : u.outside [.ledger, .daybook] = s.outside [.ledger, .daybook] := by simp [u]
  have hu : u.ledger = { s.ledger with ckptFailures := inc 0xFFF s.ledger.ckptFailures } := same_ledger (ps := [.daybook]) (fire_outside _ _ _ _ _ _ (by decide)) (by decide)
  obtain ⟨d, hckpt, hcut, hadmission, -⟩ := cutCheckpoint_ckpt u c.admission
  refine ⟨cutCheckpoint u c.admission, ?_, (congrArg Ledger.ckptFailures hu :), (congrArg Ledger.newest hu :), d, hckpt, hcut.trans (now_of_frame hframe (by decide)), hadmission⟩
  simp [exec, execCheckpointFailure, hc, hop, hlate, u]

theorem exec_checkpointFailure_early {s : State} {c : Ckpt} (hc : s.ledger.ckpt = some c) (hearly : s.now < c.cutClose + 65536) : exec .checkpointFailure s = .next s := by
  simp [exec, execCheckpointFailure, hc, Nat.not_le.2 hearly]

/-- Settles O34: step 1 of the works that try again changes no coverage, so a whole checkpoint's list is what its regions say. -/
theorem checkpointsAreCut : Obligations.CheckpointsAreCut := by
  refine ⟨?_, ?_, ?_, ?_, ?_, ?_, ?_, ?_⟩
  · exact fun _ => runs_admissionCheckpoint
  · exact fun _ => exec_checkpoints_of_open
  · exact fun _ => runs_periodicCheckpoint
  · exact fun _ => exec_periodicCheckpoint_early
  · exact fun _ _ _ => runs_checkpointComplete_majority
  · exact fun _ _ _ => checkpointComplete_of_minority
  · exact fun _ _ => runs_checkpointFailure
  · exact fun _ _ => exec_checkpointFailure_early

end Sys2Proof.Machine
end

section
namespace Sys2Proof.Machine

/-! ## Wear and faults of the ledger's blocks (O35) -/

/-! ### Blocks -/

@[simp] theorem blockAt_modBlock_same (s : State) (b : Nat) (f : Block → Block) : blockAt (modBlock s b f) b = f (blockAt s b) := tget_tmod_same _ _ _ _

theorem blockAt_modBlock_other (s : State) {b x : Nat} (f : Block → Block) (h : x ≠ b) : blockAt (modBlock s b f) x = blockAt s x := tget_tmod_other _ _ f h.symm

theorem blockAt_of_ledger {s t : State} (h : t.ledger = s.ledger) (b : Nat) : blockAt t b = blockAt s b := by rw [blockAt, h, blockAt]

/-! ### A retirement is decided (R131) -/

theorem retireBlock_of_live {s : State} {b : Nat} (cause : Nat) (hdue : (blockAt s b).due = none) (hret : (blockAt s b).retired = false) :
    retireBlock s b cause = modBlock s b (fun k => { k with due := some (s.now + 2), cause }) := by
  simp [retireBlock, hdue, hret]

theorem retireBlock_ledger (s : State) (b cause : Nat) : (retireBlock s b cause).ledger = { s.ledger with blocks := (retireBlock s b cause).ledger.blocks } := by
  unfold retireBlock
  split <;> rfl

/-- A decision leaves the events of the block. -/
theorem retireBlock_events (s : State) (b cause : Nat) :
    (blockAt (retireBlock s b cause) b).corrected = (blockAt s b).corrected ∧ (blockAt (retireBlock s b cause) b).trimFails = (blockAt s b).trimFails := by
  unfold retireBlock
  split
  · exact ⟨rfl, rfl⟩
  · simp

/-! ### LEDGER_CORRECTED_EVENT (R97, R131) -/

theorem runs_ledgerCorrectedEvent {b : Nat} {s : State} (hb : b < 36864) :
    Runs (.ledgerCorrectedEvent b) s (fun t => t.ledger.corrected = inc 0xFFFF s.ledger.corrected ∧ OnlyIn [.ledger] s t ∧
      (blockAt t b).corrected = (blockAt s b).corrected.filter (fun c => s.now < c + 2 ^ 24) ++ [s.now] ∧
      (s.ch (·.blockLimit) 8 < (blockAt t b).corrected.length → (blockAt s b).due = none → (blockAt s b).retired = false → (blockAt t b).due = some (s.now + 2) ∧ (blockAt t b).cause = 1) ∧
      ((blockAt t b).corrected.length ≤ s.ch (·.blockLimit) 8 → (blockAt t b).due = (blockAt s b).due)) := by
  set u := modBlock { s with ledger := { s.ledger with corrected := inc 0xFFFF s.ledger.corrected } } b (fun k => { k with corrected := recent 24 s.now k.corrected ++ [s.now] })
  have hu : blockAt u b = { blockAt s b with corrected := recent 24 s.now (blockAt s b).corrected ++ [s.now] } := blockAt_modBlock_same _ b _
  refine ⟨correctedEvent s b, congrArg Host.Outcome.next (if_pos hb), ?_⟩
  by_cases hlimit : s.ch (·.blockLimit) 8 < (blockAt u b).corrected.length
  · have hevent : correctedEvent s b = retireBlock u b 1 := if_pos hlimit
    have hcorrected := (retireBlock_events u b 1).1
    rw [hevent]
    refine ⟨congrArg Ledger.corrected (retireBlock_ledger u b 1), by simp [OnlyIn, u], hcorrected.trans (congrArg Block.corrected hu), ?_, ?_⟩
    · intro _ hdue hret
      rw [retireBlock_of_live 1 (by rw [hu]; exact hdue) (by rw [hu]; exact hret), blockAt_modBlock_same]
      exact ⟨rfl, rfl⟩
    · intro hfew
      rw [hcorrected] at hfew
      exact absurd hlimit (Nat.not_lt.2 hfew)
  · have hevent : correctedEvent s b = u := if_neg hlimit
    rw [hevent]
    exact ⟨rfl, by simp [OnlyIn, u], congrArg Block.corrected hu, fun hmany => absurd hmany hlimit, fun _ => (congrArg Block.due hu :)⟩

/-! ### LEDGER_UNCORRECTABLE_EVENT (R97, R131, R132) -/

theorem runs_ledgerUncorrectableEvent_twoCopyArea {b : Nat} {s : State} (hb : b < 36864) (hdue : (blockAt s b).due = none) (hret : (blockAt s b).retired = false) :
    Runs (.ledgerUncorrectableEvent b .twoCopyArea) s (fun t => t.ledger.uncorrected = inc 0xFFFF s.ledger.uncorrected ∧ (blockAt t b).due = some (s.now + 2) ∧ (blockAt t b).cause = 2 ∧
      t.ledger.recs = s.ledger.recs ∧ OnlyIn [.ledger] s t) := by
  set u : State := { s with ledger := { s.ledger with uncorrected := inc 0xFFFF s.ledger.uncorrected } }
  have hretire : retireBlock u b 2 = modBlock u b (fun k => { k with due := some (s.now + 2), cause := 2 }) := retireBlock_of_live 2 hdue hret
  refine ⟨_, congrArg Host.Outcome.next ((if_pos hb).trans hretire), rfl, ?_, ?_, rfl, by simp [OnlyIn, u]⟩
  · rw [blockAt_modBlock_same]
  · rw [blockAt_modBlock_same]

/-- A find of one block is one entry of the loss ledger, while it has room. -/
theorem lossFind_single {s : State} (v cause b : Nat) (hroom : lossHeld s < 32768) :
    ∃ e ∈ (lossFind s v cause [b]).1.degrade.loss, e.volume = v ∧ e.cause = cause ∧ e.lba = b ∧ e.blocks = 1 ∧ e.durable = false := by
  obtain ⟨n, hn⟩ : ∃ n, 32768 - lossHeld s = n + 1 := ⟨32768 - lossHeld s - 1, by omega⟩
  refine ⟨⟨v, cause, 1, b, s.now, s.mgmt.powerCycles, s.degrade.nextFind, false, 0⟩, ?_, rfl, rfl, rfl, rfl, rfl⟩
  simp [lossFind, runs, hn, fire_keeps]

theorem lossFind_ledger (s : State) (v cause : Nat) (bs : List Nat) : (lossFind s v cause bs).1.ledger = s.ledger := same_ledger (ps := [.degrade, .daybook]) (by simp) (by decide)

/-- The one block that a record's lost word held is a find of cause 2. -/
theorem wordLost_block {s : State} {seq first lba n : Nat} {r : Rec} (hmode : s.ledger.mode ≠ 1) (hr : findRec s seq = some r) (hrange : r.range = some (lba, n)) (hfirst : first < n)
    (hwhole : lossAt s r.volume (lba + first) = false) :
    wordLost s (.record seq first 1) = (lossFind { s with ledger := { s.ledger with lostRanges := inc 0xFFFF s.ledger.lostRanges } } r.volume 2 [lba + first]).1 := by
  simp [wordLost, hmode, hr, hrange, hfirst, hwhole, runs, inc, hold]

theorem runs_ledgerUncorrectableEvent_block {b seq first lba n : Nat} {r : Rec} {s : State} (hb : b < 36864) (hmode : s.ledger.mode ≠ 1) (hr : findRec s seq = some r)
    (hrange : r.range = some (lba, n)) (hfirst : first < n) (hwhole : lossAt s r.volume (lba + first) = false) (hroom : lossHeld s < 32768) :
    Runs (.ledgerUncorrectableEvent b (.record seq first 1)) s (fun t => t.ledger.lostRanges = inc 0xFFFF s.ledger.lostRanges ∧
      ∃ e ∈ t.degrade.loss, e.volume = r.volume ∧ e.cause = 2 ∧ e.lba = lba + first ∧ e.blocks = 1 ∧ e.durable = false) := by
  set u : State := { s with ledger := { s.ledger with uncorrected := inc 0xFFFF s.ledger.uncorrected } }
  set v : State := { u with ledger := { u.ledger with lostRanges := inc 0xFFFF s.ledger.lostRanges } }
  have hlost : wordLost u (.record seq first 1) = (lossFind v r.volume 2 [lba + first]).1 := wordLost_block (s := u) hmode hr hrange hfirst hwhole
  have hdegrade : (retireBlock (lossFind v r.volume 2 [lba + first]).1 b 2).degrade = (lossFind v r.volume 2 [lba + first]).1.degrade := same_degrade (ps := [.ledger]) (by simp) (by decide)
  refine ⟨_, congrArg Host.Outcome.next ((if_pos hb).trans (congrArg (retireBlock · b 2) hlost)), ?_, ?_⟩
  · rw [retireBlock_ledger, lossFind_ledger]
  · rw [hdegrade]
    exact lossFind_single (s := v) r.volume 2 (lba + first) hroom

/-- In a pair the partner's copy has the word: no block is lost. -/
theorem runs_ledgerUncorrectableEvent_pair {b seq first n : Nat} {s : State} (hmode : s.ledger.mode = 1) : Runs (.ledgerUncorrectableEvent b (.record seq first n)) s (fun t => OnlyIn [.ledger] s t) := by
  refine ⟨_, rfl, ?_⟩
  split
  · simp [OnlyIn, wordLost, hmode]
  · rfl

/-! ### LEDGER_BLOCK_RETIREMENT (R131) -/

/-- What the service of a block is: whether it is retired, what took its place and when it is due. -/
def Block.service (k : Block) : Bool × Option Nat × Option Nat := (k.retired, k.movedTo, k.due)

/-- A block that takes a place keeps its service. -/
theorem service_modBlock_place (s : State) (f b : Nat) (p : Option Nat) : (blockAt (modBlock s f (fun x => { x with place := p })) b).service = (blockAt s b).service := by
  by_cases h : b = f
  · rw [h, blockAt_modBlock_same]
    rfl
  · rw [blockAt_modBlock_other s _ h]

/-- A block leaves its place. -/
def outOfService (s : State) (b : Nat) (repl : Option Nat) : State := modBlock s b (fun k => { k with due := none, retired := true, movedTo := repl })

theorem service_outOfService (s : State) (b : Nat) (repl : Option Nat) : (blockAt (outOfService s b repl) b).service = (true, repl, none) := by
  rw [outOfService, blockAt_modBlock_same]
  rfl

theorem fire_ledger (s : State) (kind cause arg : Nat) (detail : List Byte) (alert : Bool) : (fire s kind cause arg detail alert).ledger = s.ledger :=
  same_ledger (fire_outside (ps := [.daybook]) s kind cause arg detail alert (by decide)) (by decide)

theorem history_ledger (s : State) (element action cause physical logical : Nat) : (history s element action cause physical logical).ledger = s.ledger :=
  same_ledger (ps := [.ints, .link, .daybook, .reserves, .hostMem]) (by simp) (by decide)

/-- A reserve block takes the place. -/
theorem replaceBlock_ledger_of_reserve {s : State} {b k : Nat} (h : reserveBlock s (dieOf b) = some k) :
    (replaceBlock s b).ledger = { (modBlock (outOfService s b (some k)) k (fun x => { x with place := some ((placeOf s b).getD b) })).ledger with
      retiredBlocks := s.ledger.retiredBlocks + 1, reserveLeft := s.ledger.reserveLeft - 1 } := by
  unfold replaceBlock
  simp only [h]
  split <;> simp only [fire_ledger, history_ledger, modBlock, outOfService]

/-- The record area gives up one block. -/
theorem shrinkRecords_spec (s : State) (b place : Nat) :
    (∀ x, (blockAt (shrinkRecords s b place) x).service = (blockAt s x).service) ∧ (shrinkRecords s b place).ledger.recordBlocks = s.ledger.recordBlocks - 1 ∧
      (shrinkRecords s b place).ledger.reserveLeft = s.ledger.reserveLeft := by
  unfold shrinkRecords
  dsimp only
  split
  · split
    · exact ⟨fun x => service_modBlock_place s _ x _, rfl, rfl⟩
    · exact ⟨fun _ => rfl, rfl, rfl⟩
  · exact ⟨fun _ => rfl, rfl, rfl⟩

theorem replaceBlock_of_noReserve {s : State} {b : Nat} (h : reserveBlock s (dieOf b) = none) :
    ∃ u, replaceBlock s b = shrinkRecords u b ((placeOf s b).getD b) ∧ u.ledger = { (outOfService s b none).ledger with retiredBlocks := s.ledger.retiredBlocks + 1 } := by
  unfold replaceBlock
  rw [h]
  exact ⟨_, rfl, (fire_ledger _ _ _ _ _ _).trans (history_ledger _ _ _ _ _ _)⟩

theorem exec_ledgerBlockRetirement_due {b d : Nat} {s : State} (hdue : (blockAt s b).due = some d) (hd : d ≤ s.now) : exec (.ledgerBlockRetirement b) s = .next (replaceBlock s b) :=
  congrArg Host.Outcome.next (if_pos (by simp [hdue, hd]))

theorem exec_ledgerBlockRetirement_early {b : Nat} {s : State} (h : (blockAt s b).due.all (fun d => s.now < d) = true) : exec (.ledgerBlockRetirement b) s = .next s := by
  refine congrArg Host.Outcome.next (if_neg ?_)
  cases hdue : (blockAt s b).due with
  | none => simp
  | some d =>
    rw [hdue] at h
    simpa using h

theorem runs_ledgerBlockRetirement_reserve {b d k : Nat} {s : State} (hdue : (blockAt s b).due = some d) (hd : d ≤ s.now) (hk : reserveBlock s (dieOf b) = some k) :
    Runs (.ledgerBlockRetirement b) s (fun t => (blockAt t b).retired = true ∧ (blockAt t b).movedTo = some k ∧ (blockAt t b).due = none ∧ t.ledger.retiredBlocks = s.ledger.retiredBlocks + 1 ∧
      t.ledger.reserveLeft = s.ledger.reserveLeft - 1 ∧ t.ledger.recordBlocks = s.ledger.recordBlocks ∧ t.ledger.recs = s.ledger.recs) := by
  have hledger := replaceBlock_ledger_of_reserve hk
  have hservice : (blockAt (replaceBlock s b) b).service = (true, some k, none) := by
    rw [blockAt, hledger]
    exact (service_modBlock_place _ k b _).trans (service_outOfService s b (some k))
  obtain ⟨hretired, hmoved, hnone⟩ : (blockAt (replaceBlock s b) b).retired = _ ∧ (blockAt (replaceBlock s b) b).movedTo = _ ∧ (blockAt (replaceBlock s b) b).due = _ := by
    simpa [Block.service] using hservice
  refine ⟨_, exec_ledgerBlockRetirement_due hdue hd, hretired, hmoved, hnone, ?_⟩
  rw [hledger]
  exact ⟨rfl, rfl, rfl, rfl⟩

theorem runs_ledgerBlockRetirement_noReserve {b d : Nat} {s : State} (hdue : (blockAt s b).due = some d) (hd : d ≤ s.now) (hnone : reserveBlock s (dieOf b) = none) :
    Runs (.ledgerBlockRetirement b) s (fun t => (blockAt t b).retired = true ∧ (blockAt t b).movedTo = none ∧ t.ledger.recordBlocks = s.ledger.recordBlocks - 1 ∧
      t.ledger.reserveLeft = s.ledger.reserveLeft) := by
  obtain ⟨u, hreplace, hu⟩ := replaceBlock_of_noReserve hnone
  obtain ⟨hkept, hrecords, hreserve⟩ := shrinkRecords_spec u b ((placeOf s b).getD b)
  have hservice : (blockAt u b).service = (true, none, none) := by
    rw [blockAt, hu]
    exact service_outOfService s b none
  obtain ⟨hretired, hmoved, -⟩ : (blockAt (shrinkRecords u b ((placeOf s b).getD b)) b).retired = _ ∧ (blockAt (shrinkRecords u b ((placeOf s b).getD b)) b).movedTo = _ ∧ _ := by
    simpa [Block.service] using (hkept b).trans hservice
  refine ⟨_, (exec_ledgerBlockRetirement_due hdue hd).trans (congrArg Host.Outcome.next hreplace), hretired, hmoved, ?_, ?_⟩
  · rw [hrecords, hu]
    rfl
  · rw [hreserve, hu]
    rfl

/-! ### WEAR_MOVE (R130) -/

theorem inService_of_placeOf {s : State} {b p : Nat} (h : placeOf s b = some p) : (blockAt s b).retired = false := by
  by_contra hret
  simp [placeOf, hret] at h

/-- A block in service stands in the place that it took. -/
theorem placeOf_of_taken {s : State} {b p : Nat} (hret : (blockAt s b).retired = false) (hplace : (blockAt s b).place = some p) : placeOf s b = some p := by
  simp [placeOf, hret, hplace]

/-- A free block stands in the record area. -/
theorem placeOf_freeBlock {s : State} {die f : Nat} (h : freeBlock s die = some f) : ∃ q, placeOf s f = some q ∧ recordPlace ≤ q := by
  unfold freeBlock at h
  dsimp only at h
  split at h
  · obtain ⟨w, -, hfind⟩ := Option.bind_eq_some_iff.1 h
    have hcand := (List.mem_filter.1 (List.mem_of_find?_eq_some hfind)).2
    obtain ⟨-, hrecord⟩ : dieOf f = die ∧ (placeOf s f).any (fun p => decide (recordPlace ≤ p)) = true := by simpa using hcand
    simpa [Option.any_eq_true] using hrecord
  · cases h

theorem isFixed_iff {s : State} {b : Nat} : isFixed s b = true ↔ ∃ p, placeOf s b = some p ∧ p < 2944 := by simp [isFixed, Option.any_eq_true]

/-- Two blocks in service that change roles change places, and nothing else changes its block. -/
theorem placeOf_swapBlocks {s : State} {b f p q : Nat} (hbf : b ≠ f) (hb : placeOf s b = some p) (hf : placeOf s f = some q) :
    placeOf (swapBlocks s b f) b = some q ∧ placeOf (swapBlocks s b f) f = some p ∧ ∀ x, x ≠ b → x ≠ f → blockAt (swapBlocks s b f) x = blockAt s x := by
  unfold swapBlocks
  dsimp only
  refine ⟨placeOf_of_taken ?_ ?_, placeOf_of_taken ?_ ?_, fun x hxb hxf => ?_⟩
  · rw [blockAt_modBlock_other _ _ hbf, blockAt_modBlock_same]
    exact inService_of_placeOf hb
  · rw [blockAt_modBlock_other _ _ hbf, blockAt_modBlock_same]
    exact hf
  · rw [blockAt_modBlock_same, blockAt_modBlock_other _ _ hbf.symm]
    exact inService_of_placeOf hf
  · rw [blockAt_modBlock_same]
    exact hb
  · rw [blockAt_modBlock_other _ _ hxf, blockAt_modBlock_other _ _ hxb]

theorem runs_wearMove {b f : Nat} {s : State} (hquiet : s.quiet = true) (hb : b < 36864) (hfixed : isFixed s b = true) (hworn : meanWrites s + 2 ^ 20 ≤ blockWrites s b)
    (hfree : freeBlock s (dieOf b) = some f) :
    Runs (.wearMove b) s (fun t => isFixed t b = false ∧ isFixed t f = true ∧ placeOf t b = placeOf s f ∧ placeOf t f = placeOf s b ∧ (∀ x, x ≠ b → x ≠ f → blockAt t x = blockAt s x) ∧
      OnlyIn [.ledger] s t) := by
  obtain ⟨p, hp, hlow⟩ := isFixed_iff.1 hfixed
  obtain ⟨q, hq, hhigh⟩ := placeOf_freeBlock hfree
  have hbf : b ≠ f := by
    rintro rfl
    rw [Option.some_inj.1 (hp.symm.trans hq)] at hlow
    exact absurd hhigh (by simp [recordPlace]; omega)
  obtain ⟨hb', hf', hother⟩ := placeOf_swapBlocks hbf hp hq
  refine ⟨swapBlocks s b f, ?_, ?_, isFixed_iff.2 ⟨p, hf', hlow⟩, hb'.trans hq.symm, hf'.trans hp.symm, hother, by simp [OnlyIn]⟩
  · have hgo : wearMove s b = swapBlocks s b f := by
      unfold wearMove
      rw [if_neg (by simpa [hquiet, hb, hfixed] using hworn), hfree]
    exact congrArg Host.Outcome.next hgo
  · have hrecord : ¬ q < 2944 := by
      simp only [recordPlace] at hhigh
      omega
    simp [isFixed, hb', hrecord]

theorem exec_wearMove_even {b : Nat} {s : State} (h : blockWrites s b < meanWrites s + 2 ^ 20) : exec (.wearMove b) s = .next s := by
  have hstay : wearMove s b = s := if_pos (by rw [decide_eq_true h, Bool.or_true])
  exact congrArg Host.Outcome.next hstay

theorem exec_wearMove_busy {b : Nat} {s : State} (h : s.quiet = false) : exec (.wearMove b) s = .next s := by
  have hstay : wearMove s b = s := if_pos (by simp [h])
  exact congrArg Host.Outcome.next hstay

/-! ### SENSE_REFERENCE_TRIM (R459) -/

/-- The trim of this close may go: in the quiet slice, after the book entry and before the sweep. -/
def trimOpen (s : State) : Prop := s.quiet = true ∧ s.closers.entry = 2 ∧ s.ledger.trimmed = false ∧ s.scratch.swept = false

/-- The block whose trim fails has one failure more. -/
def trimFailed (s : State) : State :=
  modBlock { s with ledger := { s.ledger with trimmed := true, trimFails := inc 0xFFFF s.ledger.trimFails } } s.ledger.trimNext (fun k => { k with trimFails := recent 24 s.now k.trimFails ++ [s.now] })

theorem blockAt_nextTrim (s : State) (b : Nat) : blockAt (nextTrim s) b = blockAt s b := rfl

theorem senseTrim_of_open {s : State} {m k : Nat} {done : Bool} (h : trimOpen s) :
    senseTrim s m k done =
      if !done then { s with ledger := { s.ledger with trimmed := true } }
      else if 40 ≤ m && k ≤ 25 then nextTrim { s with ledger := { s.ledger with trimmed := true } }
      else nextTrim (if 3 ≤ (blockAt (trimFailed s) s.ledger.trimNext).trimFails.length then retireBlock (trimFailed s) s.ledger.trimNext 8 else trimFailed s) := by
  obtain ⟨hquiet, hentry, htrimmed, hswept⟩ := h
  exact if_neg (by simp [hquiet, hentry, htrimmed, hswept])

theorem exec_senseReferenceTrim_good {m k : Nat} {s : State} (h : trimOpen s) (hm : 40 ≤ m) (hk : k ≤ 25) :
    exec (.senseReferenceTrim m k true) s = .next { s with ledger := { s.ledger with
      trimmed := true, trimNext := (s.ledger.trimNext + 1) % 36864, trimPass := if s.ledger.trimNext = 36863 then s.ledger.trimPass + 1 else s.ledger.trimPass } } := by
  refine congrArg Host.Outcome.next ((senseTrim_of_open h).trans ?_)
  simp [hm, hk, nextTrim]

theorem exec_senseReferenceTrim_unfinished {m k : Nat} {s : State} (h : trimOpen s) : exec (.senseReferenceTrim m k false) s = .next { s with ledger := { s.ledger with trimmed := true } } :=
  congrArg Host.Outcome.next (senseTrim_of_open h)

theorem runs_senseReferenceTrim_failed {m k : Nat} {s : State} (h : trimOpen s) (hfail : m < 40 ∨ 25 < k) :
    Runs (.senseReferenceTrim m k true) s (fun t => t.ledger.trimFails = inc 0xFFFF s.ledger.trimFails ∧ t.ledger.trimNext = (s.ledger.trimNext + 1) % 36864 ∧
      (blockAt t s.ledger.trimNext).trimFails = (blockAt s s.ledger.trimNext).trimFails.filter (fun c => s.now < c + 2 ^ 24) ++ [s.now] ∧ OnlyIn [.ledger] s t) := by
  have hevents : (blockAt (trimFailed s) s.ledger.trimNext).trimFails = recent 24 s.now (blockAt s s.ledger.trimNext).trimFails ++ [s.now] :=
    congrArg Block.trimFails (blockAt_modBlock_same _ s.ledger.trimNext _)
  have hbad : ¬ (decide (40 ≤ m) && decide (k ≤ 25)) = true := by
    simp only [Bool.and_eq_true, decide_eq_true_eq]
    omega
  refine ⟨_, congrArg Host.Outcome.next ((senseTrim_of_open h).trans (if_neg hbad)), ?_⟩
  beta_reduce
  rw [blockAt_nextTrim]
  split
  · have hledger := retireBlock_ledger (trimFailed s) s.ledger.trimNext 8
    refine ⟨(congrArg Ledger.trimFails hledger :), ?_, (retireBlock_events _ _ 8).2.trans hevents, by simp [OnlyIn, nextTrim, trimFailed]⟩
    exact (congrArg (fun l : Ledger => (l.trimNext + 1) % 36864) hledger :)
  · exact ⟨rfl, rfl, hevents, by simp [OnlyIn, nextTrim, trimFailed]⟩

theorem exec_senseReferenceTrim_closed {m k : Nat} {done : Bool} {s : State} (h : s.quiet = false ∨ s.closers.entry ≠ 2 ∨ s.ledger.trimmed = true ∨ s.scratch.swept = true) :
    exec (.senseReferenceTrim m k done) s = .next s := by
  have hstay : senseTrim s m k done = s := if_pos (by rcases h with h | h | h | h <;> simp [h])
  exact congrArg Host.Outcome.next hstay

/-- Settles O35: a decision to retire leaves a block's events, a block that takes a place keeps its service, and a free block is never a fixed one. -/
theorem ledgerBlocksWear : Obligations.LedgerBlocksWear := by
  refine ⟨?_, ?_, ?_, ?_, ?_, ?_, ?_, ?_, ?_, ?_, ?_, ?_, ?_, ?_, ?_⟩
  · exact fun _ _ => runs_ledgerCorrectedEvent
  · exact fun _ _ hb => ⟨congrArg Host.Outcome.next (if_neg (Nat.not_lt.2 hb)), fun _ => congrArg Host.Outcome.next (if_neg (Nat.not_lt.2 hb))⟩
  · exact fun _ _ => runs_ledgerUncorrectableEvent_twoCopyArea
  · exact fun _ _ _ _ _ _ _ => runs_ledgerUncorrectableEvent_block
  · exact fun _ _ _ _ _ => runs_ledgerUncorrectableEvent_pair
  · exact fun _ _ _ _ => runs_ledgerBlockRetirement_reserve
  · exact fun _ _ _ => runs_ledgerBlockRetirement_noReserve
  · exact fun _ _ => exec_ledgerBlockRetirement_early
  · exact fun _ _ _ => runs_wearMove
  · exact fun _ _ => exec_wearMove_even
  · exact fun _ _ => exec_wearMove_busy
  · exact fun _ _ _ hquiet hentry htrimmed hswept => exec_senseReferenceTrim_good ⟨hquiet, hentry, htrimmed, hswept⟩
  · exact fun _ _ _ hquiet hentry htrimmed hswept => exec_senseReferenceTrim_unfinished ⟨hquiet, hentry, htrimmed, hswept⟩
  · exact fun _ _ _ hquiet hentry htrimmed hswept => runs_senseReferenceTrim_failed ⟨hquiet, hentry, htrimmed, hswept⟩
  · exact fun _ _ _ _ => exec_senseReferenceTrim_closed

end Sys2Proof.Machine
end

section
namespace Sys2Proof.Machine

/-! ## Rows are destaged (O30) -/

theorem findWork_of_works {s t : State} (h : t.works = s.works) (id : Nat) : findWork t id = findWork s id := by rw [findWork, h, findWork]

/-- The first entry that meets p, after a change that takes p from no entry. -/
theorem find?_modIf_of_kept {α : Type} {p : α → Bool} {f : α → α} (hp : ∀ a, p a = true → p (f a) = true) (l : List α) : (modIf p f l).find? p = (l.find? p).map f := by
  induction l with
  | nil => rfl
  | cons a l ih => cases h : p a <;> simp [modIf, h, hp, ih]

theorem findWork_modWork_const {s : State} {id : Nat} {w x : Work} (hx : x.id = id) (h : findWork s id = some w) : findWork (modWork s id (fun _ => x)) id = some x := by
  refine (find?_modIf_of_kept (f := fun _ => x) (fun _ _ => ?_) s.works).trans (congrArg (Option.map fun _ => x) h)
  simpa using hx

theorem id_of_findWork {s : State} {id : Nat} {w : Work} (h : findWork s id = some w) : w.id = id := by simpa using List.find?_some h

theorem index_of_layoutOf {s : State} {i : Nat} {l : Layout} (h : layoutOf s i = some l) : l.index = i := by
  unfold layoutOf State.ch at h
  cases hc : s.charter with
  | none => simp [hc] at h
  | some c => simpa using List.find?_some (p := fun l : Layout => decide (l.index = i)) (by simpa [hc] using h)

/-! ### A work keeps its heading (R111) -/

/-- A work as its row and its volume name it. -/
def Work.heading (w : Work) : WorkKind × Nat × Nat × Nat := (w.kind, w.volume, w.layout, w.row)

/-- The work with this number has this heading. -/
def Headed (s : State) (id : Nat) (h : WorkKind × Nat × Nat × Nat) : Prop := ∃ w, findWork s id = some w ∧ w.heading = h

theorem workReads_works (s : State) (id : Nat) : (workReads s id).works = s.works := same_works (ps := allBut [.works]) (by simp [allBut]) (by decide)

/-- The finds of a plan touch no work. -/
theorem foldl_workLoss_works (l : Layout) (w : Work) (ps : List Nat) (a : State × List (Nat × List Nat)) :
    (ps.foldl (fun a p => ((workLoss a.1 l w p).1, a.2 ++ [(p, (workLoss a.1 l w p).2)])) a).1.works = a.1.works :=
  same_works (ps := [.degrade, .daybook]) (outside_pairFold fun q p => workLoss_outside q.1 l w p (by decide) (by decide)) (by decide)

theorem planWork_headed {s : State} {id : Nat} {w : Work} (hw : findWork s id = some w) : Headed (planWork s id) id w.heading := by
  unfold planWork
  rw [hw]
  dsimp only
  split
  · exact ⟨w, hw, rfl⟩
  · refine ⟨_, (findWork_of_works (workReads_works _ id) id).trans (findWork_modWork (fun _ => rfl) ((findWork_of_works (foldl_workLoss_works _ _ _ _) id).trans (findWork_modWork_const ?_ hw))), ?_⟩
    · exact (id_of_findWork hw :)
    · rfl

/-- Step 1 of a destage plans it, at most. -/
theorem stepOne_headed {s : State} {id : Nat} {w : Work} {h : WorkKind × Nat × Nat × Nat} (hw : findWork s id = some w) (hkind : w.kind = .destage) (hneeds : w.needs = []) (hhead : w.heading = h) :
    Headed (stepOne s id) id h := by
  subst hhead
  have hfirst : holdsFirst w = false := by simp [holdsFirst, hkind]
  unfold stepOne
  simp only [hw, hfirst, hneeds, List.isEmpty_nil, Bool.not_true, Bool.or_false, Bool.false_eq_true, if_false]
  split
  · exact ⟨w, hw, rfl⟩
  split
  · exact ⟨w, hw, rfl⟩
  split
  · exact ⟨w, hw, rfl⟩
  split
  · obtain ⟨x, hx, hhead⟩ := planWork_headed (s := batchForget (modRegion s w.volume w.region (fun r => { r with busy := true })) w.layout w.row) (id := id) hw
    refine ⟨_, findWork_modWork (fun x => ?_) hx, ?_⟩
    · split <;> rfl
    · rw [← hhead]
      split <;> rfl
  · exact ⟨w, hw, rfl⟩

theorem addWork_destage_headed {s : State} (hnum : worksNumbered s) (v : Nat) (l : Layout) (row : Nat) (news : List (Nat × Nat × Cells)) (recs : List Nat) (replayed : Bool) :
    Headed (addWork s .destage v l row news [] [] recs replayed []) s.nextWork (.destage, v, l.index, row) := by
  unfold addWork
  refine stepOne_headed (findWork_append_new hnum ?_ rfl) ?_ ?_ ?_ <;> rfl

/-! ### HOLDOFF_EXPIRY (R108–R110) -/

/-- The row's holdoff has ended. -/
def ripened (s : State) (layout row : Nat) : State := { s with ledger := { s.ledger with ripe := (s.ledger.ripe ++ [(layout, row)]).eraseDups } }

theorem mem_ripened (s : State) (layout row : Nat) : (layout, row) ∈ (ripened s layout row).ledger.ripe := by simp [ripened]

theorem exec_holdoffExpiry_due {s : State} {layout row : Nat} (hrecs : rowRecs s layout row ≠ []) (hdue : rowSince s layout row + holdoffOf s (rowSince s layout row) ≤ s.now) :
    exec (.holdoffExpiry layout row) s = .next (if plannerRuns s then planRow (ripened s layout row) layout row else ripened s layout row) :=
  congrArg Host.Outcome.next (if_pos (by simp [hrecs, hdue]))

theorem exec_holdoffExpiry_early {s : State} {layout row : Nat} (hearly : s.now < rowSince s layout row + holdoffOf s (rowSince s layout row)) : exec (.holdoffExpiry layout row) s = .next s :=
  congrArg Host.Outcome.next (if_neg (by simp [Nat.not_le.2 hearly]))

theorem runs_holdoffExpiry_idle {s : State} {layout row : Nat} (hrecs : rowRecs s layout row ≠ []) (hdue : rowSince s layout row + holdoffOf s (rowSince s layout row) ≤ s.now)
    (hidle : plannerRuns s = false) :
    Runs (.holdoffExpiry layout row) s (fun t => (layout, row) ∈ t.ledger.ripe ∧ t.ledger.recs = s.ledger.recs ∧ OnlyIn [.ledger] s t) := by
  refine ⟨ripened s layout row, ?_, mem_ripened s layout row, rfl, by simp [OnlyIn, ripened]⟩
  rw [exec_holdoffExpiry_due hrecs hdue, hidle]
  rfl

/-- A row with new data that nothing keeps from being planned once it is due (R62, R109, R126). -/
structure Plannable (s : State) (l : Layout) (v : VolumeDef) (layout row : Nat) : Prop where
  recs : rowRecs s layout row ≠ []
  free : ∀ w ∈ s.works, w.layout = layout → w.row ≠ row
  unpinned : rowPinned s layout row (rowNews s l row) = false
  synced : s.ledger.resyncLeft.contains (v.volume, regionOfRow s l row) = false
  news : rowNews s l row ≠ []
  partly : rowFull l (rowNews s l row) = false

/-- A plannable row that is due gets its work while its groups spin, else a demand for its windows. -/
theorem planRow_of_plannable {s : State} {layout row rho : Nat} {l : Layout} {v : VolumeDef} {b : Band} (hl : layoutOf s layout = some l) (howner : ownerOf s layout row = some (v, b, rho))
    (hplan : Plannable s l v layout row) (hdue : rowDue s l row (rowNews s l row) = true) :
    (∃ (u : State) (news : List (Nat × Nat × Cells)) (recs : List Nat) (replayed : Bool), planRow s layout row = addWork u .destage v.volume l row news [] [] recs replayed [] ∧
      u.works = s.works ∧ u.nextWork = s.nextWork) ∨
    ∃ cls groups, planRow s layout row = setDemand s cls groups (.rows layout row) := by
  obtain ⟨hrecs, hfree, hpin, hsync, hnews, hpart⟩ := hplan
  have hnone : s.works.any (fun w => decide (w.layout = layout) && decide (w.row = row)) = false := by simpa using hfree
  have hgo : ¬ ((rowRecs s layout row).isEmpty || s.works.any (fun w => w.layout = layout && w.row = row) || !rowDue s l row (rowNews s l row) || rowPinned s layout row (rowNews s l row) ||
      s.ledger.resyncLeft.contains (v.volume, regionOfRow s l row)) = true := by
    simp only [hnone, hdue, hpin, hsync]
    simpa using hrecs
  unfold planRow
  rw [hl, howner]
  dsimp only
  rw [if_neg hgo, if_neg (by simpa using hnews), if_neg (by simp [hpart])]
  split
  · refine Or.inl ⟨_, _, _, _, rfl, ?_, ?_⟩
    · exact foldl_keeps (fun u => u.works) fun _ _ => rfl
    · exact foldl_keeps (fun u => u.nextWork) fun _ _ => rfl
  · exact Or.inr ⟨_, _, rfl⟩

theorem mem_setDemand (s : State) (cls : Nat) (groups : List Nat) (of : DemandOf) : ∃ d ∈ (setDemand s cls groups of).gov.demands, d.of = of :=
  ⟨_, List.mem_append_right _ (List.mem_singleton_self _), rfl⟩

theorem runs_holdoffExpiry_plans {layout row rho : Nat} {l : Layout} {v : VolumeDef} {b : Band} {s : State} (hl : layoutOf s layout = some l) (howner : ownerOf s layout row = some (v, b, rho))
    (hdue : rowSince s layout row + holdoffOf s (rowSince s layout row) ≤ s.now) (hruns : plannerRuns s = true) (hplan : Plannable s l v layout row) (hnum : worksNumbered s) :
    Runs (.holdoffExpiry layout row) s (fun t => (∃ w ∈ t.works, w.kind = .destage ∧ w.layout = layout ∧ w.row = row ∧ w.volume = v.volume) ∨ ∃ d ∈ t.gov.demands, d.of = .rows layout row) := by
  set r := ripened s layout row
  have hindex := index_of_layoutOf hl
  have hripe : rowDue r l row (rowNews r l row) = true := by simp [rowDue, hindex, r, mem_ripened]
  have hgo : exec (.holdoffExpiry layout row) s = .next (planRow r layout row) := by
    rw [exec_holdoffExpiry_due hplan.recs hdue, hruns]
    rfl
  refine ⟨_, hgo, ?_⟩
  have hr : Plannable r l v layout row := ⟨hplan.recs, hplan.free, hplan.unpinned, hplan.synced, hplan.news, hplan.partly⟩
  rcases planRow_of_plannable (s := r) hl howner hr hripe with ⟨u, news, recs, replayed, hwork, hworks, hnext⟩ | ⟨cls, groups, hdemand⟩
  · have hnumU : worksNumbered u := by
      unfold worksNumbered
      rw [hworks, hnext]
      exact hnum
    obtain ⟨w, hw, hhead⟩ := addWork_destage_headed hnumU v.volume l row news recs replayed
    obtain ⟨hkind, hvolume, hlayout, hrow⟩ : w.kind = .destage ∧ w.volume = v.volume ∧ w.layout = l.index ∧ w.row = row := by simpa [Work.heading] using hhead
    exact Or.inl ⟨w, hwork ▸ List.mem_of_find?_eq_some hw, hkind, hlayout.trans hindex, hrow, hvolume⟩
  · exact Or.inr (hdemand ▸ mem_setDemand r cls groups _)

/-! ### STRIPE_READ_COMPLETE (R82, R111) -/

theorem stripeReadComplete_of_held {s : State} {id : Nat} {w : Work} (hw : findWork s id = some w) (hstep : w.step = 2) (hdone : w.step2Done = true) (hheld : w.held = true) :
    stripeReadComplete s id = toPostings (modWork s id (fun w => { w with step := 3 })) id := by
  simp [stripeReadComplete, hw, hstep, hdone, hheld]

theorem stripeReadComplete_of_destage {s : State} {id : Nat} {w : Work} (hw : findWork s id = some w) (hstep : w.step = 2) (hdone : w.step2Done = true) (hheld : w.held = false)
    (hkind : w.kind = .destage) : stripeReadComplete s id = modWork s id (fun w => { w with step := 3 }) := by
  simp [stripeReadComplete, hw, hstep, hdone, hheld, holdsFirst, hkind]

theorem exec_stripeReadComplete_open {s : State} {id : Nat} {w : Work} (hw : findWork s id = some w) (hopen : w.step2Done = false) : exec (.stripeReadComplete id) s = .next s := by
  have hstay : stripeReadComplete s id = s := by simp [stripeReadComplete, hw, hopen]
  exact congrArg Host.Outcome.next hstay

theorem runs_stripeReadComplete_unheld {s : State} {id : Nat} {w : Work} (hw : findWork s id = some w) (hstep : w.step = 2) (hdone : w.step2Done = true) (hheld : w.held = false)
    (hkind : w.kind = .destage) : Runs (.stripeReadComplete id) s (fun t => findWork t id = some { w with step := 3 } ∧ OnlyIn [.works] s t) :=
  ⟨_, congrArg Host.Outcome.next (stripeReadComplete_of_destage hw hstep hdone hheld hkind), findWork_modWork (f := fun w => { w with step := 3 }) (fun _ => rfl) hw, by simp [OnlyIn]⟩

/-- Step 3 begins: the work has no postings yet. -/
def stepThree (s : State) (id : Nat) : State := modWork (modWork s id (fun w => { w with step := 3 })) id (fun w => { w with step := 3, postsLeft := 0 })

theorem findWork_stepThree {s : State} {id : Nat} {w : Work} (hw : findWork s id = some w) : findWork (stepThree s id) id = some { w with step := 3, postsLeft := 0 } := by
  have hthree := findWork_modWork (f := fun w => { w with step := 3 }) (fun _ => rfl) hw
  exact (findWork_modWork (f := fun w => { w with step := 3, postsLeft := 0 }) (fun _ => rfl) hthree :)

theorem toPostings_of_stepThree {s : State} {id : Nat} {w : Work} (hw : findWork s id = some w) :
    toPostings (modWork s id (fun w => { w with step := 3 })) id = tryPostings (w.patterns.foldl (fun s e => requestPlan s (workTag id) w.layout e) (stepThree s id)) id := by
  unfold toPostings
  rw [findWork_modWork (f := fun w => { w with step := 3 }) (fun _ => rfl) hw]
  rfl

/-- A work at step 3 that uses no plan has its postings pushed. -/
theorem tryPostings_of_noPatterns {s : State} {id : Nat} {w : Work} (hw : findWork s id = some w) (hstep : w.step = 3) (hheld : w.held = true) (hleft : w.postsLeft = 0)
    (hpatterns : w.patterns = []) (hfrom : w.fromClose ≤ s.now) (hcount : postCount w ≠ 0) :
    tryPostings s id = modWork s id (fun x => { x with postsLeft := postCount w }) := by
  simp [tryPostings, pushPostings, plansHeld, hw, hstep, hheld, hleft, hpatterns, hfrom, hcount]

/-- A plan that is still being built keeps the postings back. -/
theorem tryPostings_of_planMissing {s : State} {id : Nat} {w : Work} {e : List ChunkId} (hw : findWork s id = some w) (hpatterns : w.patterns = [e])
    (hplan : planHeld s (workTag w.id) w.layout e = false) : tryPostings s id = s := by
  simp [tryPostings, plansHeld, hw, hpatterns, hplan]

theorem runs_stripeReadComplete_posts {s : State} {id : Nat} {w : Work} (hw : findWork s id = some w) (hstep : w.step = 2) (hdone : w.step2Done = true) (hheld : w.held = true)
    (hpatterns : w.patterns = []) (hfrom : w.fromClose ≤ s.now) (hcount : postCount w ≠ 0) :
    Runs (.stripeReadComplete id) s (fun t => findWork t id = some { w with step := 3, postsLeft := postCount w } ∧ OnlyIn [.works] s t) := by
  have hthree := findWork_stepThree hw
  have htry := tryPostings_of_noPatterns hthree rfl hheld rfl hpatterns hfrom hcount
  refine ⟨_, congrArg Host.Outcome.next ?_, (findWork_modWork (f := fun x => { x with postsLeft := postCount w }) (fun _ => rfl) hthree :), by simp [OnlyIn, stepThree]⟩
  rw [stripeReadComplete_of_held hw hstep hdone hheld, toPostings_of_stepThree hw, hpatterns]
  exact htry

/-- The plan that a user asks for first: it is still being built, and pinned for its user. -/
def newPlan (s : State) (tag layout : Nat) (erased : List ChunkId) : Plan := ⟨layout, erased, false, [tag], s.plans.useCount + 1⟩

theorem requestPlan_of_none {s : State} {tag layout : Nat} {erased : List ChunkId} (hnone : findPlan s layout erased = none) (hroom : s.plans.cache.length < 768) :
    requestPlan s tag layout erased = { s with plans := { s.plans with
      useCount := s.plans.useCount + 1, misses := inc 0xFFFF s.plans.misses, cache := s.plans.cache ++ [newPlan s tag layout erased] } } := by
  have hfull : ¬ 768 ≤ countIf Plan.pinned s.plans.cache := Nat.not_le.2 ((List.length_filter_le ..).trans_lt hroom)
  have hstore : s.plans.cache.length < 1024 := by omega
  unfold findPlan at hnone
  simp [requestPlan, storePlan, findPlan, hnone, hfull, hstore, newPlan]

theorem runs_stripeReadComplete_asks {s : State} {id : Nat} {w : Work} {e : List ChunkId} (hw : findWork s id = some w) (hstep : w.step = 2) (hdone : w.step2Done = true) (hheld : w.held = true)
    (hpatterns : w.patterns = [e]) (hnone : findPlan s w.layout e = none) (hroom : s.plans.cache.length < 768) :
    Runs (.stripeReadComplete id) s (fun t => findWork t id = some { w with step := 3, postsLeft := 0 } ∧ t.plans.misses = inc 0xFFFF s.plans.misses ∧
      (∃ p, findPlan t w.layout e = some p ∧ p.ready = false ∧ p.users = [workTag id]) ∧ OnlyIn [.works, .plans] s t) := by
  set u := requestPlan (stepThree s id) (workTag id) w.layout e
  have hu : u = { stepThree s id with plans := { s.plans with
      useCount := s.plans.useCount + 1, misses := inc 0xFFFF s.plans.misses, cache := s.plans.cache ++ [newPlan s (workTag id) w.layout e] } } := requestPlan_of_none (s := stepThree s id) hnone hroom
  have hwork : findWork u id = some { w with step := 3, postsLeft := 0 } := by
    rw [hu]
    exact findWork_stepThree hw
  have hplan : findPlan u w.layout e = some (newPlan s (workTag id) w.layout e) := by
    unfold findPlan at hnone
    simp [hu, findPlan, List.find?_append, hnone, newPlan]
  have htry : tryPostings u id = u := tryPostings_of_planMissing hwork hpatterns (by simp [planHeld, hplan, newPlan])
  refine ⟨u, congrArg Host.Outcome.next ?_, hwork, by rw [hu], ⟨_, hplan, rfl, rfl⟩, by simp [OnlyIn, u, stepThree]⟩
  rw [stripeReadComplete_of_held hw hstep hdone hheld, toPostings_of_stepThree hw, hpatterns]
  exact htry

/-! ### STRIPE_WRITE_COMPLETE (R101, R111) -/

/-- The records with this sequence no longer need the row. -/
def RowGone (layout row q : Nat) (s : State) : Prop := ∀ r ∈ s.ledger.recs, r.seq = q → (layout, row) ∉ r.rows

theorem rowGone_recRowDone_same (s : State) (layout row q : Nat) : RowGone layout row q (recRowDone s q layout row) := by
  intro r hr hseq
  obtain ⟨a, -, rfl⟩ := of_mem_modIf hr
  by_cases ha : a.seq = q
  · simp [ha]
  · simp [ha] at hseq

theorem rowGone_recRowDone {s : State} {layout row q : Nat} (h : RowGone layout row q s) (p : Nat) : RowGone layout row q (recRowDone s p layout row) := by
  intro r hr hseq
  obtain ⟨a, ha, rfl⟩ := of_mem_modIf hr
  by_cases hp : a.seq = p
  · simp [hp]
  · simp only [hp, decide_false, Bool.false_eq_true, if_false] at hseq ⊢
    exact h a ha hseq

theorem rowGone_foldl {qs : List Nat} {layout row q : Nat} {s : State} (h : q ∈ qs ∨ RowGone layout row q s) : RowGone layout row q (qs.foldl (fun s q => recRowDone s q layout row) s) := by
  induction qs generalizing s with
  | nil => exact h.resolve_left List.not_mem_nil
  | cons p qs ih =>
    refine ih ?_
    rcases h with hq | hs
    · rcases List.mem_cons.1 hq with rfl | hq
      · exact Or.inr (rowGone_recRowDone_same s layout row q)
      · exact Or.inl hq
    · exact Or.inr (rowGone_recRowDone hs p)

theorem rereadRow_ledger (s : State) (layout row : Nat) : (rereadRow s layout row).ledger = s.ledger := same_ledger (ps := allBut [.ledger]) (by simp [allBut]) (by decide)

/-- What a decode has of a row that was written is read again (R64, R205). -/
def rereadNeed (layout row : Nat) (n : Need) : Need := if n.layout = layout && n.row = row && !n.direct then { n with got := [] } else n

theorem rereadRow_works (s : State) (layout row : Nat) : (rereadRow s layout row).works = s.works.map (fun w => { w with needs := w.needs.map (rereadNeed layout row) }) := by
  refine foldl_keeps (fun u => u.works) fun u e => foldl_keeps (fun u => u.works) fun u n => ?_
  exact same_works (ps := [.plans, .drives]) (by simp) (by decide)

theorem rereadRow_step (s : State) (layout row id : Nat) : (findWork (rereadRow s layout row) id).map (fun w => w.step) = (findWork s id).map (fun w => w.step) := by
  rw [findWork, rereadRow_works, List.find?_map, Option.map_map, findWork]
  rfl

/-- Step 5 of a destage: the work with its row on disk, and the records without it. -/
def destaged (s : State) (w : Work) : State := w.recs.foldl (fun s q => recRowDone s q w.layout w.row) (modWork s w.id (fun w => { w with step := 5 }))

/-- The form of the row is counted. -/
def countForm (s : State) (full : Bool) : State :=
  if full then { s with ledger := { s.ledger with fullRows := inc 0xFFFF s.ledger.fullRows } } else { s with ledger := { s.ledger with smallRows := inc 0xFFFF s.ledger.smallRows } }

theorem rowOnDisk_of_destage (s : State) {w : Work} (hkind : w.kind = .destage) (hwritten : w.unwritten = false) :
    ∃ u, rowOnDisk s w = countForm u (w.forms.all (fun f => f.2)) ∧ u.ledger = (destaged s w).ledger ∧ u.works = (rereadRow (destaged s w) w.layout w.row).works := by
  have hlost : ∀ u : State, (if u.degrade.loss.isEmpty then u else replaceLost u w).outside [.degrade] = u.outside [.degrade] := fun u => by split <;> simp
  unfold rowOnDisk
  simp only [hkind, hwritten, Bool.false_eq_true, if_false, decide_true, Bool.true_or, if_true]
  exact ⟨_, rfl, (same_ledger (hlost _) (by decide)).trans (rereadRow_ledger (destaged s w) w.layout w.row), same_works (hlost _) (by decide)⟩

theorem stripeWriteComplete_of_whole {s : State} {id : Nat} {w : Work} (hw : findWork s id = some w) (hstep : w.step = 4) (houts : w.outs = []) (hwrites : w.writes = []) (hgood : w.failedOut = false) :
    stripeWriteComplete s id = rowOnDisk s w := by
  simp [stripeWriteComplete, hw, hstep, houts, hwrites, hgood]

theorem exec_stripeWriteComplete_open {s : State} {id : Nat} {w : Work} (hw : findWork s id = some w) (hopen : w.writes ≠ []) : exec (.stripeWriteComplete id) s = .next s := by
  have hstay : stripeWriteComplete s id = s := by simp [stripeWriteComplete, hw, hopen]
  exact congrArg Host.Outcome.next hstay

theorem destaged_step {s : State} {id : Nat} {w : Work} (hw : findWork s id = some w) : (findWork (destaged s w) id).map (fun w => w.step) = some 5 := by
  obtain rfl := id_of_findWork hw
  have hworks : (destaged s w).works = (modWork s w.id (fun w => { w with step := 5 })).works := foldl_keeps (fun u => u.works) fun _ _ => rfl
  rw [findWork_of_works hworks, findWork_modWork (f := fun w => { w with step := 5 }) (fun _ => rfl) hw]
  rfl

theorem runs_stripeWriteComplete {s : State} {id : Nat} {w : Work} (hw : findWork s id = some w) (hstep : w.step = 4) (houts : w.outs = []) (hwrites : w.writes = []) (hgood : w.failedOut = false)
    (hkind : w.kind = .destage) (hwritten : w.unwritten = false) :
    Runs (.stripeWriteComplete id) s (fun t => (findWork t id).map (fun w => w.step) = some 5 ∧ (∀ q ∈ w.recs, ∀ r ∈ t.ledger.recs, r.seq = q → (w.layout, w.row) ∉ r.rows) ∧
      t.ledger.fullRows = (if w.forms.all (fun f => f.2) then inc 0xFFFF s.ledger.fullRows else s.ledger.fullRows) ∧
      t.ledger.smallRows = (if w.forms.all (fun f => f.2) then s.ledger.smallRows else inc 0xFFFF s.ledger.smallRows)) := by
  obtain ⟨u, hdisk, hledger, hworks⟩ := rowOnDisk_of_destage s hkind hwritten
  have hfull : u.ledger.fullRows = s.ledger.fullRows := by
    rw [hledger]
    exact foldl_keeps (fun u => u.ledger.fullRows) fun _ _ => rfl
  have hsmall : u.ledger.smallRows = s.ledger.smallRows := by
    rw [hledger]
    exact foldl_keeps (fun u => u.ledger.smallRows) fun _ _ => rfl
  have hfive : (findWork u id).map (fun w => w.step) = some 5 := by
    rw [findWork_of_works hworks, rereadRow_step]
    exact destaged_step hw
  have hgone : ∀ q ∈ w.recs, RowGone w.layout w.row q u := fun q hq r hr => rowGone_foldl (Or.inl hq) r (hledger ▸ hr)
  refine ⟨_, congrArg Host.Outcome.next ((stripeWriteComplete_of_whole hw hstep houts hwrites hgood).trans hdisk), ?_⟩
  unfold countForm
  split
  · exact ⟨hfive, hgone, congrArg (inc 0xFFFF) hfull, hsmall⟩
  · exact ⟨hfive, hgone, hfull, congrArg (inc 0xFFFF) hsmall⟩

/-- Settles O30: planning leaves a work's heading, step 3 asks for the plans before it posts, and step 5 takes the row from every record of the work. -/
theorem rowsAreDestaged : Obligations.RowsAreDestaged := by
  refine ⟨?_, ?_, ?_, ?_, ?_, ?_, ?_, ?_, ?_, ?_⟩
  · exact fun _ _ _ => runs_holdoffExpiry_idle
  · intro layout row rho l v b s hl howner hrecs hdue hruns hfree hpin hsync hnews hpart hnum
    exact runs_holdoffExpiry_plans hl howner hdue hruns ⟨hrecs, hfree, hpin, hsync, hnews, hpart⟩ hnum
  · exact fun _ _ _ => exec_holdoffExpiry_early
  · exact fun _ _ _ => runs_stripeReadComplete_unheld
  · exact fun _ _ _ => runs_stripeReadComplete_posts
  · exact fun _ _ _ _ => runs_stripeReadComplete_asks
  · intro id w s hw hwait
    refine exec_stripeReadComplete_open hw ?_
    rcases hwait with h | h <;> simp [Work.step2Done, h]
  · exact fun id w s hw hreads => exec_stripeReadComplete_open hw (by simp [Work.step2Done, hreads])
  · exact fun _ _ _ => runs_stripeWriteComplete
  · exact fun _ _ _ => exec_stripeWriteComplete_open

end Sys2Proof.Machine
end

section
namespace Sys2Proof.Machine

/-! ## Members and their commands (O36) -/

/-! ### Members after a change -/

theorem mem_of_members {s t : State} (h : t.drives.members = s.drives.members) (m : Nat) : mem t m = mem s m := by rw [mem, h, mem]

@[simp] theorem mem_modMem_same (s : State) (m : Nat) (f : Member → Member) : mem (modMem s m f) m = f (mem s m) := tget_tmod_same _ _ _ _

theorem mem_modMem_other (s : State) {m n : Nat} (f : Member → Member) (h : n ≠ m) : mem (modMem s m f) n = mem s n := tget_tmod_other _ _ f h.symm

@[simp] theorem mem_setMem_state (s : State) (m st : Nat) : (mem (setMem s m st) m).state = st := by
  rw [setMem, mem_modMem_same]
  split
  · assumption
  · rfl

/-! ### Commands found by their number -/

theorem findMc_modMc {s : State} {id : Nat} {k : MemberCmd} {f : MemberCmd → MemberCmd} (hf : ∀ c, (f c).id = c.id) (h : findMc s id = some k) : findMc (modMc s id f) id = some (f k) :=
  (find?_modIf _ f (fun c => by simp only [hf]) s.drives.cmds).trans (congrArg (Option.map f) h)

theorem findMc_reissueMc {s : State} {id : Nat} {k : MemberCmd} (h : findMc s id = some k) :
    findMc (reissueMc s id) id = some { k with issued := s.now, tries := k.tries + 1, retryAt := none, queued := k.retryAt.isSome && placesFull s k.member } :=
  findMc_modMc (f := fun c => { c with issued := s.now, tries := c.tries + 1, retryAt := none, queued := c.retryAt.isSome && placesFull s c.member }) (fun _ => rfl) h

/-- A command as its number, its member and its operation name it. -/
def MemberCmd.request (k : MemberCmd) : Nat × Nat × MemberOp := (k.id, k.member, k.op)

def Drives.requests (d : Drives) : List (Nat × Nat × MemberOp) := d.cmds.map MemberCmd.request

theorem findMc_eq_none {s : State} {id : Nat} (h : ∀ r ∈ s.drives.requests, r.1 ≠ id) : findMc s id = none :=
  List.find?_eq_none.2 fun k hk => by simpa [MemberCmd.request] using h k.request (List.mem_map_of_mem hk)

theorem requests_modMc (s : State) (id : Nat) {f : MemberCmd → MemberCmd} (hf : ∀ c, (f c).request = c.request) : (modMc s id f).drives.requests = s.drives.requests := map_modIf hf s.drives.cmds

theorem sendQueued_requests (s : State) (m : Nat) : (sendQueued s m).drives.requests = s.drives.requests := by
  unfold sendQueued
  split
  · rfl
  split
  · exact requests_modMc s _ (f := fun c => { c with queued := false, issued := s.now }) fun _ => rfl
  · rfl

/-- A member in service takes a command that is no read, with the next number. -/
theorem issue_drives {s : State} {m : Nat} {op : MemberOp} (addr len : Nat) (data : Cells) (p : Purpose) (hop : op ≠ .rd) (h3 : (mem s m).state ≠ 3) (h4 : (mem s m).state ≠ 4) :
    ∃ c : MemberCmd, c.request = (s.drives.nextCmd, m, op) ∧ (issue s m op addr len data p).drives = { s.drives with cmds := s.drives.cmds ++ [c], nextCmd := s.drives.nextCmd + 1 } := by
  unfold issue
  rw [if_neg (by simp [h3, h4, hop])]
  exact ⟨_, rfl, rfl⟩

/-! What a change of the commands leaves of the drives. -/

theorem sendQueued_drives (s : State) (m : Nat) : (sendQueued s m).drives = { s.drives with cmds := (sendQueued s m).drives.cmds } := by
  unfold sendQueued
  repeat' split
  all_goals rfl

theorem dropMc_drives (s : State) (id : Nat) : (dropMc s id).drives = { s.drives with cmds := (dropMc s id).drives.cmds } := by
  unfold dropMc
  split
  · rfl
  · rw [sendQueued_drives]

@[simp] theorem dropMc_members (s : State) (id : Nat) : (dropMc s id).drives.members = s.drives.members := by rw [dropMc_drives]
@[simp] theorem dropMc_scrubFirst (s : State) (id : Nat) : (dropMc s id).drives.scrubFirst = s.drives.scrubFirst := by rw [dropMc_drives]
@[simp] theorem mem_dropMc (s : State) (id m : Nat) : mem (dropMc s id) m = mem s m := mem_of_members (dropMc_members s id) m

theorem dropMc_requests (s : State) (id : Nat) : (dropMc s id).drives.requests = s.drives.requests.filter (fun r => r.1 ≠ id) := by
  unfold dropMc
  split
  next hnone =>
    refine (List.filter_eq_self.2 fun r hr => ?_).symm
    obtain ⟨k, hk, rfl⟩ := List.mem_map.1 hr
    exact decide_eq_true fun hid => List.find?_eq_none.1 hnone k hk (decide_eq_true hid)
  next =>
    rw [sendQueued_requests, Drives.requests, Drives.requests, List.filter_map]
    rfl

theorem findMc_dropMc (s : State) (id : Nat) : findMc (dropMc s id) id = none :=
  findMc_eq_none fun r hr => by
    rw [dropMc_requests] at hr
    simpa using (List.mem_filter.1 hr).2

/-! ### MEMBER_COMMAND_COMPLETION and NOT_READY_RETRY (R134, R356) -/

/-- Only a Suspect member's command brings its member back. -/
theorem backOnline_of_not_suspect {s : State} {k : MemberCmd} (h : (mem s k.member).state ≠ 2) : backOnline s k = s := if_neg (by simp [h])

theorem exec_memberCommandCompletion_none {id : Nat} {sense : Sense} {data : List Byte} {s : State} (hk : findMc s id = none) : exec (.memberCommandCompletion id sense data) s = .next s := by
  have hstay : memberCompletion s id sense data = s := by rw [memberCompletion, hk]
  exact congrArg Host.Outcome.next hstay

theorem exec_memberCommandCompletion_unsent {id : Nat} {k : MemberCmd} {sense : Sense} {data : List Byte} {s : State} (hk : findMc s id = some k) (hsent : k.sent = false) :
    exec (.memberCommandCompletion id sense data) s = .next s := by
  have hstay : memberCompletion s id sense data = s := by simp [memberCompletion, hk, hsent]
  exact congrArg Host.Outcome.next hstay

/-- A command that its Online member answers, and that no reconstruction replaces. -/
structure Answered (s : State) (id : Nat) (k : MemberCmd) : Prop where
  found : findMc s id = some k
  sent : k.sent = true
  online : (mem s k.member).state = 1
  timely : k.late = false

section
variable {s : State} {id : Nat} {k : MemberCmd} (h : Answered s id k)
include h

theorem Answered.backOnline : backOnline s k = s := backOnline_of_not_suspect (by simp [h.online])

theorem memberCompletion_success {sense : Sense} {data : List Byte} (hh : handling sense k = .success) :
    memberCompletion s id sense data = deliver (dropMc (countMember s k) id) k (Memory.ofBytes (padTo k.len data)) := by
  simp [memberCompletion, h.found, h.sent, h.timely, h.backOnline, hh]

theorem memberCompletion_retry {sense : Sense} {data : List Byte} (hh : handling sense k = .retry) (hf : s.pair.fenced = false) : memberCompletion s id sense data = reissueMc s id := by
  simp [memberCompletion, h.found, h.sent, h.timely, h.backOnline, hh, hf]

theorem memberCompletion_later {sense : Sense} {data : List Byte} (hh : handling sense k = .later) :
    memberCompletion s id sense data = modMc s id (fun c => { c with retryAt := some (s.now + 12500) }) := by
  simp [memberCompletion, h.found, h.sent, h.timely, h.backOnline, hh]

theorem memberCompletion_counted {sense : Sense} {data : List Byte} (hh : handling sense k = .fail true) : memberCompletion s id sense data = failed (dropMc (errorEvent s k.member) id) k := by
  simp [memberCompletion, h.found, h.sent, h.timely, h.backOnline, hh]

theorem runs_memberCommandCompletion_later {data : List Byte} (hop : k.op ≠ .testUnitReady) (htries : k.tries = 0) :
    Runs (.memberCommandCompletion id .becomingReady data) s (fun t => findMc t id = some { k with retryAt := some (s.now + 12500) } ∧ OnlyIn [.drives] s t) :=
  ⟨_, congrArg Host.Outcome.next (memberCompletion_later h (by simp [handling, hop, htries])), findMc_modMc (f := fun c => { c with retryAt := some (s.now + 12500) }) (fun _ => rfl) h.found,
    by simp [OnlyIn]⟩

/-- A command that was sent waits for nothing, so its first repetition is known whole. -/
theorem findMc_reissueMc_first (htries : k.tries = 0) : findMc (reissueMc s id) id = some { k with issued := s.now, tries := 1 } := by
  obtain ⟨hretry, hqueued⟩ : k.retryAt = none ∧ k.queued = false := by simpa [MemberCmd.sent] using h.sent
  simp [findMc_reissueMc h.found, hretry, hqueued, htries]

theorem runs_memberCommandCompletion_retry {sense : Sense} {data : List Byte} (hh : handling sense k = .retry) (htries : k.tries = 0) (hf : s.pair.fenced = false) :
    Runs (.memberCommandCompletion id sense data) s (fun t => findMc t id = some { k with issued := s.now, tries := 1 } ∧ (mem t k.member).events = (mem s k.member).events ∧ OnlyIn [.drives] s t) :=
  ⟨_, congrArg Host.Outcome.next (memberCompletion_retry h hh hf), findMc_reissueMc_first h htries, rfl, by simp [OnlyIn]⟩

theorem runs_memberCommandCompletion_staged {w pos : Nat} {c : ChunkId} {x : Work} {data : List Byte} (hp : k.purpose = .workRead w c pos) (hx : findWork s w = some x) :
    Runs (.memberCommandCompletion id .good data) s (fun t => findMc t id = none ∧ OnlyIn [.drives, .works, .gov] s t ∧
      findWork t w = some { x with reads := x.reads.filter (fun r => r ≠ (c, pos)), staged := x.staged ++ [(c, pos, Memory.ofBytes (padTo k.len data))] }) := by
  set u := dropMc (countMember s k) id with hu
  have hworks : u.works = s.works := same_works (ps := [.drives, .gov]) (by simp [hu]) (by decide)
  set d := Memory.ofBytes (padTo k.len data)
  have hdeliver : deliver u k d = modWork u w (fun w => { w with reads := w.reads.filter (fun r => r ≠ (c, pos)), staged := w.staged ++ [(c, pos, d)] }) := by simp [deliver, hp, workRead]
  refine ⟨_, congrArg Host.Outcome.next ((memberCompletion_success h rfl).trans hdeliver), findMc_dropMc (countMember s k) id, by simp [OnlyIn, hu], ?_⟩
  exact findWork_modWork (fun _ => rfl) ((findWork_of_works hworks w).trans hx)

end

/-! ### What the reads of others leave alone

A read that fails or is replaced moves commands, audits and works on, and those issue further reads. The members, and a command that is no read, stay as they are. -/

/-- The members, and the commands with this number that are no reads. -/
def Drives.standing (a : Nat) (d : Drives) : Tbl Member × List (Nat × Nat × MemberOp) := (d.members, d.requests.filter (fun r => r.1 = a && r.2.2 ≠ .rd))

theorem drives_of_frame {s t : State} (h : t.outside (allBut [.drives]) = s.outside (allBut [.drives])) : t.drives = s.drives := same_drives h (by decide)

@[simp] theorem positionLoss_drives (s : State) (bs : List (Nat × Nat)) : (positionLoss s bs).1.drives = s.drives := drives_of_frame (by simp [allBut])
@[simp] theorem requestPlan_drives (s : State) (tag layout : Nat) (erased : List ChunkId) : (requestPlan s tag layout erased).drives = s.drives := drives_of_frame (by simp [allBut])
@[simp] theorem modNeed_drives (s : State) (tag idx : Nat) (f : Need → Option Need) : (modNeed s tag idx f).drives = s.drives := drives_of_frame (by simp [allBut])
@[simp] theorem parkNeed_drives (s : State) (tag : Nat) (gs : List Nat) : (parkNeed s tag gs).drives = s.drives := drives_of_frame (by simp [allBut])
@[simp] theorem finish_drives (s : State) (tag status detail : Nat) (result : List Byte) : (finish s tag status detail result).drives = s.drives := drives_of_frame (by simp [allBut])
@[simp] theorem countUnrecorded_drives (s : State) (v : Nat) (lost : List Nat) : (countUnrecorded s v lost).drives = s.drives := drives_of_frame (by simp [allBut])
@[simp] theorem auditPassed_drives (s : State) (v : Nat) (o : Object) : (auditPassed s v o).drives = s.drives := drives_of_frame (by simp [allBut])
@[simp] theorem fireKey_drives (s : State) (kind cause arg : Nat) (detail key : List Byte) (alert : Bool) : (fireKey s kind cause arg detail key alert).drives = s.drives := drives_of_frame (by simp [allBut])
@[simp] theorem modCmd_drives (s : State) (tag : Nat) (f : Cmd → Cmd) : (modCmd s tag f).drives = s.drives := rfl
@[simp] theorem modJob_drives (s : State) (id : Nat) (f : VaultJob → VaultJob) : (modJob s id f).drives = s.drives := rfl
@[simp] theorem modWork_drives (s : State) (id : Nat) (f : Work → Work) : (modWork s id f).drives = s.drives := rfl
@[simp] theorem modVault_drives (s : State) (v : Nat) (f : Vault → Vault) : (modVault s v f).drives = s.drives := rfl
@[simp] theorem modObj_drives (s : State) (v : Nat) (k : Key) (f : Object → Object) : (modObj s v k f).drives = s.drives := rfl
@[simp] theorem holdAtOnce_drives (s : State) (layout row id : Nat) : (holdAtOnce s layout row id).drives = s.drives := drives_of_frame (by simp [allBut])

section
variable (a : Nat)

theorem standing_of_requests {s t : State} (hmembers : t.drives.members = s.drives.members) (hreq : t.drives.requests = s.drives.requests) : t.drives.standing a = s.drives.standing a := by
  rw [Drives.standing, hmembers, hreq, Drives.standing]

@[simp] theorem ite_standing {c : Prop} [Decidable c] (s t : State) : (if c then s else t).drives.standing a = if c then s.drives.standing a else t.drives.standing a := by split <;> rfl

@[simp] theorem issue_rd_standing (s : State) (m addr len : Nat) (data : Cells) (p : Purpose) : (issue s m .rd addr len data p).drives.standing a = s.drives.standing a := by
  unfold issue
  dsimp only
  split
  · rfl
  · simp [Drives.standing, Drives.requests, MemberCmd.request]

theorem foldl_standing {α : Type} {l : List α} {f : State → α → State} {s : State} (h : ∀ u x, (f u x).drives.standing a = u.drives.standing a) :
    (l.foldl f s).drives.standing a = s.drives.standing a := foldl_keeps (fun u => u.drives.standing a) h

@[simp] theorem issueNeed_standing (s : State) (tag : Nat) (n : Need) : (issueNeed tag s n).drives.standing a = s.drives.standing a := by
  unfold issueNeed
  split
  · rfl
  · refine (foldl_standing a fun u t => ?_).trans ?_
    · split <;> simp
    · split <;> simp

theorem withWindows_standing {s : State} {go : State → State} (w : Work) (gs : List Nat) (h : ∀ u, (go u).drives.standing a = u.drives.standing a) :
    (withWindows s w gs go).drives.standing a = s.drives.standing a := by
  unfold withWindows
  split
  · exact h _
  · rfl

@[simp] theorem workReads_standing (s : State) (id : Nat) : (workReads s id).drives.standing a = s.drives.standing a := by
  unfold workReads
  repeat' split
  · rfl
  · rfl
  · rfl
  · exact withWindows_standing a _ _ fun u => foldl_standing a fun u e => issue_rd_standing a u ..

/-- The finds of a plan touch no drive. -/
theorem foldl_workLoss_drives (l : Layout) (w : Work) (ps : List Nat) (p : State × List (Nat × List Nat)) :
    (ps.foldl (fun a p => ((workLoss a.1 l w p).1, a.2 ++ [(p, (workLoss a.1 l w p).2)])) p).1.drives = p.1.drives :=
  same_drives (ps := [.degrade, .daybook]) (outside_pairFold fun q p => workLoss_outside q.1 l w p (by decide) (by decide)) (by decide)

@[simp] theorem planWork_standing (s : State) (id : Nat) : (planWork s id).drives.standing a = s.drives.standing a := by
  unfold planWork
  split
  · rfl
  dsimp only
  split
  · rfl
  · exact (workReads_standing a _ id).trans (congrArg (Drives.standing a) (foldl_workLoss_drives ..))

@[simp] theorem startReads_standing (s : State) (id : Nat) : (startReads s id).drives.standing a = s.drives.standing a := by
  unfold startReads
  repeat' split
  · rfl
  · rfl
  · exact planWork_standing a s id
  · exact withWindows_standing a _ _ fun u => foldl_standing a fun u n => issueNeed_standing a u _ n

@[simp] theorem fillNeeds_standing (s : State) (id : Nat) : (fillNeeds s id).drives.standing a = s.drives.standing a := by
  unfold fillNeeds
  repeat' split
  all_goals simp

@[simp] theorem stepOne_standing (s : State) (id : Nat) : (stepOne s id).drives.standing a = s.drives.standing a := by
  unfold stepOne
  repeat' split
  all_goals simp [modRegion, batchForget]

@[simp] theorem scrubWork_standing (s : State) (l : Layout) (row pos : Nat) (news : List (Nat × Nat × Cells)) (forms : List (ChunkId × Bool)) (needs : List Need) :
    (scrubWork s l row pos news forms needs).drives.standing a = s.drives.standing a := by
  unfold scrubWork
  split
  · rfl
  · simp [assignRegions]

@[simp] theorem rewriteFromTarget_standing (s : State) (v b : Nat) : (rewriteFromTarget s v b).drives.standing a = s.drives.standing a := by
  unfold rewriteFromTarget
  repeat' split
  all_goals simp

@[simp] theorem needLost_standing (s : State) (tag : Nat) (n : Need) : (needLost s tag n).drives.standing a = s.drives.standing a := by
  unfold needLost
  repeat' split
  all_goals simp

@[simp] theorem markDelivered_standing (s : State) (tag : Nat) (needs : List Need) : (markDelivered s tag needs).drives.standing a = s.drives.standing a := by
  have hreq : (markDelivered s tag needs).drives.requests = s.drives.requests := by
    rw [Drives.requests, markDelivered, List.map_map]
    refine List.map_congr_left fun k _ => ?_
    dsimp only [Function.comp]
    repeat' split
    all_goals rfl
  exact standing_of_requests a rfl hreq

@[simp] theorem vaultMismatch_standing (s : State) (v : Nat) (o : Object) : (vaultMismatch s v o).drives.standing a = s.drives.standing a := by
  unfold vaultMismatch
  dsimp only
  split <;> rfl

@[simp] theorem readDone_standing (s : State) (tag : Nat) : (readDone s tag).drives.standing a = s.drives.standing a := by
  unfold readDone
  repeat' split
  all_goals simp

@[simp] theorem vaultDone_standing (s : State) (tag : Nat) : (vaultDone s tag).drives.standing a = s.drives.standing a := by
  unfold vaultDone
  split
  · rfl
  split
  · rfl
  split
  · rfl
  extract_lets h segs data blocks lost hashed u v
  have hu : u.drives.standing a = s.drives.standing a := by simp [u]
  have hv : v.drives.standing a = s.drives.standing a := hu
  repeat' split
  all_goals simp [hu, hv]

@[simp] theorem jobDone_standing (s : State) (id : Nat) : (jobDone s id).drives.standing a = s.drives.standing a := by
  unfold jobDone
  repeat' split
  all_goals simp

@[simp] theorem needMoved_standing (s : State) (tag : Nat) : (needMoved s tag).drives.standing a = s.drives.standing a := by
  unfold needMoved blockDone
  repeat' split
  all_goals simp

@[simp] theorem replanNeed_standing (s : State) (tag idx : Nat) (bad : List ChunkId) : (replanNeed s tag idx bad).drives.standing a = s.drives.standing a := by
  unfold replanNeed
  dsimp only
  repeat' split
  all_goals simp

theorem dropMc_standing {s : State} {id : Nat} (h : id ≠ a) : (dropMc s id).drives.standing a = s.drives.standing a := by
  rw [Drives.standing, dropMc_members, dropMc_requests, List.filter_filter]
  refine congrArg (Prod.mk s.drives.members) (List.filter_congr fun r _ => ?_)
  by_cases hr : r.1 = a
  · simp [hr, h.symm]
  · simp [hr]

@[simp] theorem modMc_late_standing (s : State) (id : Nat) : (modMc s id (fun c => { c with late := true })).drives.standing a = s.drives.standing a :=
  standing_of_requests a rfl (requests_modMc s id (f := fun c => { c with late := true }) fun _ => rfl)

/-- A reconstruction takes the place of a read: of the commands with another number it drops none. -/
theorem reconstruct_standing {s : State} {k : MemberCmd} (h : k.id ≠ a) : (reconstruct s k).drives.standing a = s.drives.standing a := by
  have hold : (if !k.sent then dropMc s k.id else modMc s k.id (fun c => { c with late := true })).drives.standing a = s.drives.standing a := by
    split
    · exact dropMc_standing a h
    · exact modMc_late_standing a s k.id
  unfold reconstruct
  dsimp only
  generalize (if !k.sent then dropMc s k.id else modMc s k.id (fun c => { c with late := true })) = u at hold ⊢
  split
  · rw [replanNeed_standing, hold]
  · split
    · rw [planWork_standing, modWork_drives, hold]
    · exact hold
  · exact hold

end

/-! ### A read that failed (R83, R134) -/

theorem errorEvent_events (s : State) (m : Nat) : (mem (errorEvent s m) m).events = (mem s m).events.filter (fun e => s.mgmt.opMs < e + errorWindowMs s) ++ [s.mgmt.opMs] := by simp [errorEvent]

/-- Above the limit the member is to be retired. -/
theorem errorEvent_retiring {s : State} {m : Nat} (h : s.ch (·.errorLimit) 8 < (mem (errorEvent s m) m).events.length) : (mem (errorEvent s m) m).retiring ≠ none := by
  rw [errorEvent_events] at h
  simp only [errorEvent, mem_modMem_same]
  rw [if_pos h]
  exact Option.some_ne_none _

/-- The row of a work whose read failed is planned again: its postings under way and the new plan are counted, and no member changes. -/
theorem workRead_none {s : State} {w : Nat} {x : Work} (c : ChunkId) (pos : Nat) (hx : findWork s w = some x) :
    (workRead s w c pos none).plans.reissues = min (s.plans.reissues + (if x.step = 3 then x.postsLeft else 0)) 0xFFFF ∧
    (workRead s w c pos none).ledger.replans = inc 0xFFFF s.ledger.replans ∧ (workRead s w c pos none).drives.members = s.drives.members := by
  unfold workRead
  dsimp only
  rw [same_plans (ps := allBut [.plans]) (planWork_outside _ w (by decide) (by decide) (by decide) (by decide) (by decide)) (by decide),
    same_ledger (ps := allBut [.ledger]) (planWork_outside _ w (by decide) (by decide) (by decide) (by decide) (by decide)) (by decide), hx]
  exact ⟨rfl, rfl, congrArg Prod.fst (planWork_standing 0 _ w)⟩

theorem runs_memberCommandCompletion_failed {s : State} {id w pos : Nat} {c : ChunkId} {k : MemberCmd} {x : Work} {data : List Byte} (h : Answered s id k) (hop : k.op = .rd)
    (hp : k.purpose = .workRead w c pos) (hx : findWork s w = some x) :
    Runs (.memberCommandCompletion id .medium data) s (fun t => t.plans.reissues = min (s.plans.reissues + (if x.step = 3 then x.postsLeft else 0)) 0xFFFF ∧ t.ledger.replans = inc 0xFFFF s.ledger.replans ∧
      (mem t k.member).events = (mem s k.member).events.filter (fun e => s.mgmt.opMs < e + errorWindowMs s) ++ [s.mgmt.opMs] ∧
      (s.ch (·.errorLimit) 8 < (mem t k.member).events.length → (mem t k.member).retiring ≠ none)) := by
  set u := dropMc (errorEvent s k.member) id with hu
  have hframe : u.outside [.drives] = s.outside [.drives] := by simp [hu]
  have hfailed : failed u k = workRead u w c pos none := by simp [failed, hp]
  obtain ⟨hreissues, hreplans, hmembers⟩ := workRead_none c pos ((findWork_of_works (same_works hframe (by decide)) w).trans hx)
  have hmem : mem (workRead u w c pos none) k.member = mem (errorEvent s k.member) k.member := (mem_of_members hmembers _).trans (mem_dropMc ..)
  refine ⟨_, congrArg Host.Outcome.next ((memberCompletion_counted h (by simp [handling, hop])).trans hfailed), ?_, ?_, ?_, ?_⟩
  · rw [hreissues, same_plans hframe (by decide)]
  · rw [hreplans, same_ledger hframe (by decide)]
  · rw [hmem, errorEvent_events]
  · rw [hmem]
    exact errorEvent_retiring

/-! ### NOT_READY_RETRY (R356) -/

theorem exec_notReadyRetry_early {id r : Nat} {k : MemberCmd} {s : State} (hk : findMc s id = some k) (hr : k.retryAt = some r) (hearly : s.now < r) : exec (.notReadyRetry id) s = .next s := by
  refine congrArg Host.Outcome.next ?_
  rw [hk]
  exact if_pos (by simp [hr, hearly])

theorem runs_notReadyRetry {id r : Nat} {k : MemberCmd} {s : State} (hk : findMc s id = some k) (hr : k.retryAt = some r) (hdue : r ≤ s.now) (hf : s.pair.fenced = false) (hm : (mem s k.member).state = 1) :
    Runs (.notReadyRetry id) s (fun t => findMc t id = some { k with issued := s.now, tries := k.tries + 1, retryAt := none, queued := placesFull s k.member } ∧ OnlyIn [.drives] s t) := by
  refine ⟨reissueMc s id, congrArg Host.Outcome.next ?_, by simp [findMc_reissueMc hk, hr], by simp [OnlyIn]⟩
  rw [hk]
  exact (if_neg (by simp [hr, hdue, hf])).trans (if_neg (by simp [hm]))

/-! ### MEMBER_TIMEOUT (R135) -/

theorem exec_memberTimeout_early {id : Nat} {k : MemberCmd} {s : State} (hk : findMc s id = some k) (hearly : s.now < k.issued + memberTimeout s k.member) : exec (.memberTimeout id) s = .next s := by
  have hstay : commandTimeout s id = s := by simp [commandTimeout, hk, hearly]
  exact congrArg Host.Outcome.next hstay

/-- The timeout is counted and the command's abort goes out. -/
def aborted (s : State) (m : Nat) : State := issue (modMem s m (fun x => { x with timeouts := inc 0xFFFF x.timeouts })) m .abortTask 0 0 [] .control

theorem commandTimeout_of_late {id : Nat} {k : MemberCmd} {s : State} (hk : findMc s id = some k) (hsent : k.sent = true) (hlate : k.late = false) (hop : k.op = .rd)
    (hdue : k.issued + memberTimeout s k.member ≤ s.now) (hm : (mem s k.member).state = 1) : commandTimeout s id = suspect (aborted s k.member) k.member := by
  simp [commandTimeout, aborted, hk, hsent, hlate, hop, hm, Nat.not_lt.2 hdue]

/-- The abort has the next number, which no command had. -/
theorem aborted_drives {s : State} {m : Nat} (hm : (mem s m).state = 1) : mem (aborted s m) m = { mem s m with timeouts := inc 0xFFFF (mem s m).timeouts } ∧
    ∃ c, c.request = (s.drives.nextCmd, m, .abortTask) ∧ (aborted s m).drives.cmds = s.drives.cmds ++ [c] := by
  obtain ⟨c, hreq, hdrives⟩ := issue_drives (s := modMem s m (fun x => { x with timeouts := inc 0xFFFF x.timeouts })) (m := m) (op := .abortTask) 0 0 [] .control (by decide) (by simp [hm]) (by simp [hm])
  refine ⟨?_, c, hreq, by rw [aborted, hdrives]; rfl⟩
  rw [mem_of_members (s := modMem s m (fun x => { x with timeouts := inc 0xFFFF x.timeouts })) (by rw [aborted, hdrives]), mem_modMem_same]

theorem mem_makeSuspect {s : State} {m : Nat} (hm : (mem s m).state = 1) :
    (mem (makeSuspect s m) m).state = 2 ∧ (mem (makeSuspect s m) m).suspectSince = s.now ∧ (mem (makeSuspect s m) m).timeouts = (mem s m).timeouts := by
  simp [makeSuspect, hm, setMem]

theorem makeSuspect_cmds (s : State) (m : Nat) : (makeSuspect s m).drives.cmds = s.drives.cmds := by
  unfold makeSuspect
  split <;> rfl

/-- What becomes of a member's reads leaves the members, and commands with a number that none of those reads has. -/
theorem suspect_standing {a m : Nat} {s : State} (h : ∀ c ∈ s.drives.cmds, c.op = .rd → c.id ≠ a) : (suspect s m).drives.standing a = (makeSuspect s m).drives.standing a := by
  set rs := (makeSuspect s m).drives.cmds.filter (fun c => c.member = m && c.op = .rd && !c.late) with hrs
  have hreads : (rs.foldl reconstruct (makeSuspect s m)).drives.standing a = (makeSuspect s m).drives.standing a := by
    refine List.foldlRecOn (motive := fun u => u.drives.standing a = (makeSuspect s m).drives.standing a) rs reconstruct rfl fun u hu k hk => ?_
    obtain ⟨hmem, ⟨-, hop⟩, -⟩ : k ∈ s.drives.cmds ∧ (k.member = m ∧ k.op = .rd) ∧ k.late = false := by simpa [hrs, makeSuspect_cmds] using hk
    exact (reconstruct_standing a (h k hmem hop)).trans hu
  rw [← hreads]
  refine standing_of_requests (s := rs.foldl reconstruct (makeSuspect s m)) a rfl ?_
  rw [suspect, Drives.requests, List.map_map]
  refine List.map_congr_left fun c _ => ?_
  dsimp only [Function.comp]
  split <;> rfl

theorem runs_memberTimeout {id : Nat} {k : MemberCmd} {s : State} (hk : findMc s id = some k) (hsent : k.sent = true) (hlate : k.late = false) (hop : k.op = .rd)
    (hdue : k.issued + memberTimeout s k.member ≤ s.now) (hm : (mem s k.member).state = 1) (hnum : commandsNumbered s) :
    Runs (.memberTimeout id) s (fun t => (mem t k.member).state = 2 ∧ (mem t k.member).suspectSince = s.now ∧ (mem t k.member).timeouts = inc 0xFFFF (mem s k.member).timeouts ∧
      ∃ c ∈ t.drives.cmds, c.member = k.member ∧ c.op = .abortTask) := by
  set a := s.drives.nextCmd
  set u := aborted s k.member with hu
  obtain ⟨humem, c, hreq, hcmds⟩ := aborted_drives hm
  have hnow : u.now = s.now := now_of_frame (ps := [.drives]) (by simp [hu, aborted]) (by decide)
  obtain ⟨hstate, hsince, htimeouts⟩ := mem_makeSuspect (s := u) (m := k.member) (by rw [humem]; exact hm)
  have hstand : (suspect u k.member).drives.standing a = (makeSuspect u k.member).drives.standing a := by
    refine suspect_standing fun x hx hrd => ?_
    rw [hcmds] at hx
    rcases List.mem_append.1 hx with hold | hnew
    · exact (hnum x hold).ne
    · rw [List.mem_singleton.1 hnew] at hrd
      cases hrd.symm.trans (congrArg (fun r => r.2.2) hreq)
  have hmem : mem (suspect u k.member) k.member = mem (makeSuspect u k.member) k.member := mem_of_members (congrArg Prod.fst hstand) _
  have habort : (a, k.member, MemberOp.abortTask) ∈ ((suspect u k.member).drives.standing a).2 := by
    rw [hstand, Drives.standing, Drives.requests, makeSuspect_cmds, hcmds]
    simp [hreq, a]
  refine ⟨_, congrArg Host.Outcome.next (commandTimeout_of_late hk hsent hlate hop hdue hm), ?_, ?_, ?_, ?_⟩
  · rw [hmem, hstate]
  · rw [hmem, hsince, hnow]
  · rw [hmem, htimeouts, humem]
  · obtain ⟨x, hx, hxreq⟩ := List.mem_map.1 (List.mem_filter.1 habort).1
    exact ⟨x, hx, congrArg (fun r => r.2.1) hxreq, congrArg (fun r => r.2.2) hxreq⟩

/-! ### LATE_READ (R139) -/

theorem exec_lateRead_timely {id : Nat} {k : MemberCmd} {data : List Byte} {s : State} (hk : findMc s id = some k) (hlate : k.late = false) : exec (.lateRead id data) s = .next s := by
  refine congrArg Host.Outcome.next ?_
  rw [hk]
  exact if_neg (by simp [hlate])

theorem exec_lateRead {id : Nat} {k : MemberCmd} {data : List Byte} {s : State} (hk : findMc s id = some k) (hlate : k.late = true) (hop : k.op = .rd) (hm : (mem s k.member).state ≠ 2) :
    exec (.lateRead id data) s = .next (lateRead s k (Memory.ofBytes (padTo k.len data))) := by
  refine congrArg Host.Outcome.next ?_
  rw [hk]
  exact (if_pos (by simp [hlate, hop])).trans (by rw [backOnline_of_not_suspect hm])

theorem dropMc_degrade (s : State) (id : Nat) : (dropMc s id).degrade = s.degrade := same_degrade (ps := [.drives]) (by simp) (by decide)

theorem lateRead_of_retired {s : State} {k : MemberCmd} (data : Cells) (hm : (mem s k.member).state = 3) :
    lateRead s k data = { dropMc s k.id with degrade := { s.degrade with dropped := inc 0xFFFF s.degrade.dropped } } := by
  simp [lateRead, hm, dropMc_degrade]

theorem runs_lateRead_dropped {id : Nat} {k : MemberCmd} {data : List Byte} {s : State} (hk : findMc s id = some k) (hid : k.id = id) (hlate : k.late = true) (hop : k.op = .rd)
    (hm : (mem s k.member).state = 3) :
    Runs (.lateRead id data) s (fun t => findMc t id = none ∧ t.degrade = { s.degrade with dropped := inc 0xFFFF s.degrade.dropped } ∧ OnlyIn [.drives, .degrade] s t) := by
  subst hid
  exact ⟨_, (exec_lateRead hk hlate hop (by simp [hm])).trans (congrArg Host.Outcome.next (lateRead_of_retired _ hm)), findMc_dropMc s k.id, rfl, by simp [OnlyIn]⟩

/-- The reconstruction that was delivered in place of the read, in a row that is known. -/
structure Compared (s : State) (k : MemberCmd) (l row : Nat) : Prop where
  online : (mem s k.member).state = 1
  reader : ∃ tag idx c, k.purpose = .readBlock tag idx c
  delivered : k.delivered = true
  place : k.row = some (l, row)

theorem lateRead_matched {s : State} {k : MemberCmd} {l row : Nat} {data : Cells} (h : Compared s k l row) (heq : k.data = data) :
    lateRead s k data = { dropMc s k.id with degrade := { s.degrade with matched := inc 0xFFFF s.degrade.matched } } := by
  obtain ⟨hm, ⟨tag, idx, c, hp⟩, hd, hrow⟩ := h
  simp [lateRead, hm, hp, hd, hrow, heq, dropMc_degrade]

theorem lateRead_mismatched {s : State} {k : MemberCmd} {l row : Nat} {data : Cells} (h : Compared s k l row) (hne : k.data ≠ data) :
    lateRead s k data = fire { dropMc s k.id with
      degrade := { s.degrade with mismatched := inc 0xFFFF s.degrade.mismatched }
      drives := { (dropMc s k.id).drives with scrubFirst := (l, row) :: s.drives.scrubFirst } } 0x0A 0 k.member (natLe 8 row ++ natLe 1 l) false := by
  obtain ⟨hm, ⟨tag, idx, c, hp⟩, hd, hrow⟩ := h
  simp [lateRead, hm, hp, hd, hrow, hne, dropMc_degrade]

theorem fire_degrade (s : State) (kind cause arg : Nat) (detail : List Byte) (alert : Bool) : (fire s kind cause arg detail alert).degrade = s.degrade :=
  same_degrade (ps := [.daybook]) (by simp) (by decide)

@[simp] theorem fire_drives (s : State) (kind cause arg : Nat) (detail : List Byte) (alert : Bool) : (fire s kind cause arg detail alert).drives = s.drives := drives_of_frame (by simp [allBut])

theorem runs_lateRead_matched {id l row : Nat} {k : MemberCmd} {data : List Byte} {s : State} (hk : findMc s id = some k) (hlate : k.late = true) (hop : k.op = .rd) (h : Compared s k l row)
    (heq : k.data = Memory.ofBytes (padTo k.len data)) :
    Runs (.lateRead id data) s (fun t => t.degrade = { s.degrade with matched := inc 0xFFFF s.degrade.matched } ∧ t.drives.scrubFirst = s.drives.scrubFirst) :=
  ⟨_, (exec_lateRead hk hlate hop (by simp [h.online])).trans (congrArg Host.Outcome.next (lateRead_matched h heq)), rfl, dropMc_scrubFirst s k.id⟩

theorem runs_lateRead_mismatched {id l row : Nat} {k : MemberCmd} {data : List Byte} {s : State} (hk : findMc s id = some k) (hlate : k.late = true) (hop : k.op = .rd) (h : Compared s k l row)
    (hne : k.data ≠ Memory.ofBytes (padTo k.len data)) :
    Runs (.lateRead id data) s (fun t => t.degrade = { s.degrade with mismatched := inc 0xFFFF s.degrade.mismatched } ∧ t.drives.scrubFirst = (l, row) :: s.drives.scrubFirst) :=
  ⟨_, (exec_lateRead hk hlate hop (by simp [h.online])).trans (congrArg Host.Outcome.next (lateRead_mismatched h hne)), fire_degrade .., by rw [fire_drives]⟩

/-- Settles O36: an answer is handled by its sense data; a timeout's abort has a new number, which the reads that are reconstructed then leave alone. -/
theorem memberCommands : Obligations.MemberCommands := by
  refine ⟨?_, ?_, ?_, ?_, ?_, ?_, ?_, ?_, ?_, ?_, ?_, ?_, ?_, ?_⟩
  · exact fun id k data s hk hsent hm hlate hop htries => runs_memberCommandCompletion_later ⟨hk, hsent, hm, hlate⟩ hop htries
  · intro id k data s hk hsent hm hlate htries hf
    obtain ⟨t, ht, hfound, -, honly⟩ := runs_memberCommandCompletion_retry (sense := .unitAttention) (data := data) ⟨hk, hsent, hm, hlate⟩ (by simp [handling, htries]) htries hf
    exact ⟨t, ht, hfound, honly⟩
  · intro id k data s hk hsent hm hlate hop htries hf
    obtain ⟨t, ht, hfound, hevents, -⟩ := runs_memberCommandCompletion_retry (sense := .medium) (data := data) ⟨hk, hsent, hm, hlate⟩ (by simp [handling, hop, htries]) htries hf
    exact ⟨t, ht, hfound, hevents⟩
  · exact fun id w pos c k x data s hk hsent hm hlate hp hx => runs_memberCommandCompletion_staged ⟨hk, hsent, hm, hlate⟩ hp hx
  · exact fun id w pos c k x data s hk hsent hm hlate hop hp hx => runs_memberCommandCompletion_failed ⟨hk, hsent, hm, hlate⟩ hop hp hx
  · exact fun _ _ _ _ _ => exec_memberCommandCompletion_unsent
  · exact fun _ _ _ _ => exec_memberCommandCompletion_none
  · exact fun _ _ _ _ => runs_notReadyRetry
  · exact fun _ _ _ _ => exec_notReadyRetry_early
  · exact fun _ _ _ => runs_memberTimeout
  · exact fun _ _ _ => exec_memberTimeout_early
  · exact fun _ _ _ _ => runs_lateRead_dropped
  · intro id tag idx l row c k data s hk _ hlate hop hm hp hd hrow
    have h : Compared s k l row := ⟨hm, ⟨tag, idx, c, hp⟩, hd, hrow⟩
    exact ⟨runs_lateRead_matched hk hlate hop h, runs_lateRead_mismatched hk hlate hop h⟩
  · exact fun _ _ _ _ => exec_lateRead_timely

end Sys2Proof.Machine
end

section
namespace Sys2Proof.Machine

/-! ## Members are watched (O37) -/

/-! ### SUSPECT_POLL, SUSPECT_LIMIT_EXPIRY and DISCOVERY_MISSING_EXPIRY (R135) -/

theorem onlyIn_modMem (s : State) (m : Nat) (f : Member → Member) : OnlyIn [.drives] s (modMem s m f) := by simp [OnlyIn]

theorem exec_suspectPoll_other {m : Nat} {s : State} (hm : (mem s m).state ≠ 2) : exec (.suspectPoll m) s = .next s := congrArg Host.Outcome.next (if_neg (by simp [hm]))

theorem exec_suspectLimitExpiry_other {m : Nat} {s : State} (hm : (mem s m).state ≠ 2) : exec (.suspectLimitExpiry m) s = .next s := congrArg Host.Outcome.next (if_neg (by simp [hm]))

/-- The next poll of a member, a TEST UNIT READY. -/
def polled (s : State) (m : Nat) : State := issue (modMem s m (fun x => { x with nextPoll := s.now + 12500 })) m .testUnitReady 0 0 [] .control

theorem polled_spec {m : Nat} {s : State} (hm : (mem s m).state = 2) :
    mem (polled s m) m = { mem s m with nextPoll := s.now + 12500 } ∧ ∃ c, (polled s m).drives.cmds = s.drives.cmds ++ [c] ∧ c.op = .testUnitReady ∧ c.member = m := by
  set u := modMem s m (fun x => { x with nextPoll := s.now + 12500 })
  obtain ⟨c, hreq, hdrives⟩ := issue_drives (s := u) (m := m) (op := .testUnitReady) 0 0 [] .control (by decide) (by simp [u, hm]) (by simp [u, hm])
  refine ⟨?_, c, by rw [polled, hdrives]; rfl, congrArg (fun r => r.2.2) hreq, congrArg (fun r => r.2.1) hreq⟩
  rw [mem_of_members (s := u) (by rw [polled, hdrives]), mem_modMem_same]

theorem runs_suspectPoll {m : Nat} {s : State} (hm : (mem s m).state = 2) (hdue : (mem s m).nextPoll ≤ s.now) :
    Runs (.suspectPoll m) s (fun t => (mem t m).nextPoll = s.now + 12500 ∧ (mem t m).state = 2 ∧ (∃ c, t.drives.cmds = s.drives.cmds ++ [c] ∧ c.op = .testUnitReady ∧ c.member = m) ∧
      OnlyIn [.drives] s t) := by
  obtain ⟨hmem, hcmd⟩ := polled_spec hm
  exact ⟨polled s m, congrArg Host.Outcome.next (if_pos (by simp [hm, hdue])), by rw [hmem], by rw [hmem]; exact hm, hcmd, by simp [OnlyIn, polled]⟩

/-- A retirement that nothing else had decided takes this cause; the other members stay. -/
theorem modMem_retiring {m cause : Nat} {s : State} (hfree : (mem s m).retiring = none) :
    mem (modMem s m (fun x => { x with retiring := some (x.retiring.getD cause) })) m = { mem s m with retiring := some cause } ∧
      ∀ n, n ≠ m → mem (modMem s m (fun x => { x with retiring := some (x.retiring.getD cause) })) n = mem s n :=
  ⟨by rw [mem_modMem_same, hfree, Option.getD_none], fun _ => mem_modMem_other s _⟩

theorem runs_suspectLimitExpiry {m : Nat} {s : State} (hret : retires s = true) (hm : (mem s m).state = 2) (hdue : (mem s m).suspectSince + 2 ^ s.ch (·.suspectLog) 20 ≤ s.now)
    (hfree : (mem s m).retiring = none) :
    Runs (.suspectLimitExpiry m) s (fun t => mem t m = { mem s m with retiring := some 2 } ∧ (∀ n, n ≠ m → mem t n = mem s n) ∧ OnlyIn [.drives] s t) :=
  have ⟨hmem, hothers⟩ := modMem_retiring (cause := 2) hfree
  ⟨_, congrArg Host.Outcome.next (if_pos (by simp [hret, hm, hdue])), hmem, hothers, onlyIn_modMem ..⟩

theorem exec_suspectLimitExpiry_early {m : Nat} {s : State} (hearly : s.now < (mem s m).suspectSince + 2 ^ s.ch (·.suspectLog) 20) : exec (.suspectLimitExpiry m) s = .next s :=
  congrArg Host.Outcome.next (if_neg (by simp [Nat.not_le.2 hearly]))

theorem runs_discoveryMissingExpiry {m c : Nat} {s : State} (hret : retires s = true) (hm : (mem s m).state ≤ 2) (hc : (mem s m).missingSince = some c) (hdue : c + 65536 ≤ s.now)
    (hfree : (mem s m).retiring = none) :
    Runs (.discoveryMissingExpiry m) s (fun t => mem t m = { mem s m with retiring := some 3 } ∧ (∀ n, n ≠ m → mem t n = mem s n) ∧ OnlyIn [.drives] s t) :=
  have ⟨hmem, hothers⟩ := modMem_retiring (cause := 3) hfree
  ⟨_, congrArg Host.Outcome.next (if_pos (by simp [hret, hm, hc, hdue])), hmem, hothers, onlyIn_modMem ..⟩

theorem exec_discoveryMissingExpiry_present {m : Nat} {s : State} (hc : (mem s m).missingSince = none) : exec (.discoveryMissingExpiry m) s = .next s :=
  congrArg Host.Outcome.next (if_neg (by simp [hc]))

/-! ### SPIN_UP_POLL (R359) -/

theorem runs_spinUpPoll {m : Nat} (r : Bool) {s : State} (hg : (grp s (memGroup s m)).state = 1) (hr : (mem s m).ready = false) (hdue : (mem s m).nextPoll ≤ s.now) :
    Runs (.spinUpPoll m r) s (fun t => mem t m = { mem s m with ready := r, nextPoll := s.now + 12500 } ∧ OnlyIn [.drives] s t) :=
  ⟨_, congrArg Host.Outcome.next (if_pos (by simp [hg, hr, hdue])), mem_modMem_same .., onlyIn_modMem ..⟩

theorem exec_spinUpPoll_other {m : Nat} (r : Bool) {s : State} (hg : (grp s (memGroup s m)).state ≠ 1) : exec (.spinUpPoll m r) s = .next s := congrArg Host.Outcome.next (if_neg (by simp [hg]))

/-! ### MEDIA_REPAIR (R93, R140)

A repair, a restore and a seal take their hold before their reads: step 1 of such a work plans nothing, and changes no more of it than its step. -/

/-- The work that `addWork` adds, before its step 1. -/
def newWork (s : State) (kind : WorkKind) (volume : Nat) (l : Layout) (row : Nat) (news : List (Nat × Nat × Cells)) (wants : List (ChunkId × Nat × List (ChunkId × Nat))) : Work where
  id := s.nextWork
  kind := kind
  volume := volume
  layout := l.index
  row := row
  step := 1
  news := news
  positions := (news.map (·.2.1)).eraseDups
  forms := []
  reads := []
  staged := []
  erased := []
  postsLeft := 0
  writes := []
  recs := []
  unwritten := rowUnwritten s l.index row
  held := false
  genSeen := 0
  replayed := false
  wants := wants
  outs := []
  badPos := []
  region := regionOfRow s l row
  needs := []

/-- Step 1 of a work that takes its hold first: at most its step changes, and of what is degraded at most the batch of the global scrub. -/
theorem stepOne_of_holdsFirst {s : State} {id : Nat} {w : Work} (hw : findWork s id = some w) (hfirst : holdsFirst w = true) (hheld : w.held = false) :
    (∃ n, findWork (stepOne s id) id = some { w with step := n }) ∧ (stepOne s id).degrade = { s.degrade with batch := (stepOne s id).degrade.batch } := by
  unfold stepOne
  simp only [hw, hfirst, Bool.true_or, if_true]
  split
  · exact ⟨⟨w.step, hw⟩, rfl⟩
  split
  · exact ⟨⟨w.step, hw⟩, rfl⟩
  split
  · exact ⟨⟨w.step, hw⟩, rfl⟩
  split
  · rw [if_neg (by simp [hheld])]
    exact ⟨⟨2, findWork_modWork (f := fun w => { w with step := 2 }) (fun _ => rfl) hw⟩, rfl⟩
  · exact ⟨⟨w.step, hw⟩, rfl⟩

theorem addWork_of_holdsFirst {s : State} {kind : WorkKind} {volume : Nat} {l : Layout} {row : Nat} {news : List (Nat × Nat × Cells)} {wants : List (ChunkId × Nat × List (ChunkId × Nat))} (hnum : worksNumbered s)
    (hfirst : holdsFirst (newWork s kind volume l row news wants) = true) :
    (∃ n, findWork (addWork s kind volume l row news wants [] [] false []) s.nextWork = some { newWork s kind volume l row news wants with step := n }) ∧
      (addWork s kind volume l row news wants [] [] false []).degrade = { s.degrade with batch := (addWork s kind volume l row news wants [] [] false []).degrade.batch } :=
  stepOne_of_holdsFirst (findWork_append_new (w := newWork s kind volume l row news wants) hnum rfl rfl) hfirst rfl

theorem rowUnwritten_of_owner {s : State} {layout row rho : Nat} {v : VolumeDef} {b : Band} (h : ownerOf s layout row = some (v, b, rho)) : rowUnwritten s layout row = b.unwritten.getLsbD rho := by
  simp [rowUnwritten, h]

theorem runs_mediaRepair {m layout row pos rho : Nat} {c : ChunkId} {l : Layout} {v : VolumeDef} {b : Band} {s : State} (hl : layoutOf s layout = some l) (howner : ownerOf s layout row = some (v, b, rho))
    (hhome : (homeOf s l row c).any (fun h => h.1 = m) = true) (h3 : (mem s m).state ≠ 3) (h4 : (mem s m).state ≠ 4) (hpos : l.positions.contains pos = true) (hwritten : b.unwritten.getLsbD rho = false)
    (hnum : worksNumbered s) :
    Runs (.mediaRepair m layout row c pos) s (fun t => ∃ w ∈ t.works, w.kind = .repair ∧ w.layout = layout ∧ w.row = row ∧ w.volume = v.volume ∧ w.badPos = [(c, pos)] ∧ w.positions = [pos]) := by
  obtain ⟨⟨n, hw⟩, -⟩ := addWork_of_holdsFirst (kind := .repair) (volume := v.volume) (l := l) (row := row) (news := []) (wants := [(c, pos, [])]) hnum rfl
  refine ⟨modWork (addWork s .repair v.volume l row [] [(c, pos, [])] [] [] false []) s.nextWork (fun w => { w with badPos := [(c, pos)], positions := [pos] }), congrArg Host.Outcome.next ?_, _,
    List.mem_of_find?_eq_some (findWork_modWork (f := fun w => { w with badPos := [(c, pos)], positions := [pos] }) (fun _ => rfl) hw), rfl, index_of_layoutOf hl, rfl, rfl, rfl, rfl⟩
  rw [mediaRepair, hl, howner]
  exact if_pos (by simp [hhome, h3, h4, List.contains_iff_mem.1 hpos, rowUnwritten_of_owner howner, hwritten])

theorem exec_mediaRepair_none {m layout row pos : Nat} {c : ChunkId} {s : State} (h : (mem s m).state = 3 ∨ (mem s m).state = 4 ∨ rowUnwritten s layout row = true) :
    exec (.mediaRepair m layout row c pos) s = .next s := by
  refine congrArg Host.Outcome.next ?_
  unfold mediaRepair
  split
  · refine if_neg ?_
    rcases h with h | h | h <;> simp [h]
  · rfl

/-- Settles O37: the watches each change one member, and a repair's step 1 leaves its position as it was given. -/
theorem membersAreWatched : Obligations.MembersAreWatched := by
  refine ⟨?_, ?_, ?_, ?_, ?_, ?_, ?_, ?_, ?_, ?_⟩
  · exact fun _ _ => runs_suspectPoll
  · exact fun _ _ hm => ⟨exec_suspectPoll_other hm, exec_suspectLimitExpiry_other hm⟩
  · exact fun _ _ => runs_suspectLimitExpiry
  · exact fun _ _ => exec_suspectLimitExpiry_early
  · exact fun _ _ _ => runs_discoveryMissingExpiry
  · exact fun _ _ => exec_discoveryMissingExpiry_present
  · exact fun _ r _ => runs_spinUpPoll r
  · exact fun _ r _ => exec_spinUpPoll_other r
  · exact fun _ _ _ _ _ _ _ _ _ _ => runs_mediaRepair
  · exact fun _ _ _ _ _ _ => exec_mediaRepair_none

end Sys2Proof.Machine
end

section
namespace Sys2Proof.Machine

/-! ## Spares, rebuild passes, replacements and the registry's alternates (O38) -/

/-! ### Passes -/

theorem pass_of_passes {s t : State} (h : t.degrade.passes = s.degrade.passes) (k : Nat) : pass t k = pass s k := by rw [pass, h, pass]

theorem passOf_of_passes {s t : State} (h : t.degrade.passes = s.degrade.passes) (layout pool : Nat) : passOf t layout pool = passOf s layout pool := by
  unfold passOf
  simp only [pass_of_passes h]

theorem pass_modPass {s : State} {k : Nat} (f : Pass → Pass) (hk : k < s.degrade.passes.length) : pass (modPass s k f) k = f (pass s k) := modAt_drop_headD f {} k s.degrade.passes hk

/-- A pass that is not idle has a slot. -/
theorem slot_of_pass {s : State} {k : Nat} (h : (pass s k).state ≠ 0) : k < s.degrade.passes.length := by
  by_contra hk
  exact h (by rw [pass, List.drop_eq_nil_of_le (Nat.not_lt.1 hk), List.headD_nil])

theorem passDemand_degrade (s : State) (k : Nat) : (passDemand s k).degrade = s.degrade := same_degrade (ps := [.gov]) (by simp) (by decide)
theorem passDemand_works (s : State) (k : Nat) : (passDemand s k).works = s.works := same_works (ps := [.gov]) (by simp) (by decide)
theorem passDemand_registry (s : State) (k : Nat) : (passDemand s k).registry = s.registry := same_registry (ps := [.gov]) (by simp) (by decide)

/-! ### POOL_UPDATE_COMPLETE (R144) -/

/-- The updates of a pool are complete, in the layout book too. -/
def updatesBooked (s : State) (layout pool : Nat) : State := bookUpdates s (s.degrade.updates.map (fun u => if u.layout = layout && u.pool = pool then { u with complete := true } else u))

theorem exec_poolUpdateComplete_minority {layout pool : Nat} {acks : List Nat} {s : State} (hm : majority s acks = false) : exec (.poolUpdateComplete layout pool acks) s = .next s := by
  have hstay : poolUpdateComplete s layout pool acks = s := if_neg (by simp [hm])
  exact congrArg Host.Outcome.next (by rw [hstay, ite_self])

/-- A held pass of the pool goes on. -/
theorem poolUpdateComplete_of_majority {layout pool : Nat} {acks : List Nat} {s : State} (hm : majority s acks = true) :
    ∃ t, poolUpdateComplete s layout pool acks = t ∧ t.registry = (updatesBooked s layout pool).registry ∧ t.degrade = { (updatesBooked s layout pool).degrade with passes := t.degrade.passes } ∧
      ∀ k, passOf s layout pool = some k → (pass s k).state = 1 → (pass t k).state = 2 := by
  have hof : passOf (updatesBooked s layout pool) layout pool = passOf s layout pool := passOf_of_passes rfl layout pool
  have hgo : poolUpdateComplete s layout pool acks = match passOf (updatesBooked s layout pool) layout pool with
      | some k => passDemand (modPass (updatesBooked s layout pool) k (fun p => if p.state = 1 then { p with state := 2 } else p)) k
      | none => updatesBooked s layout pool := if_pos hm
  refine ⟨_, rfl, ?_⟩
  rw [hgo, hof]
  split
  next k hk =>
    refine ⟨passDemand_registry .., by rw [passDemand_degrade]; rfl, fun j hj hheld => ?_⟩
    obtain rfl := Option.some.inj (hk.symm.trans hj)
    rw [pass_of_passes (congrArg Degrade.passes (passDemand_degrade ..)), pass_modPass (s := updatesBooked s layout pool) _ (slot_of_pass (s := s) (by simp [hheld]))]
    exact congrArg Pass.state (if_pos hheld)
  next hnone => exact ⟨rfl, rfl, fun k hk => nomatch hnone.symm.trans hk⟩

theorem runs_poolUpdateComplete {layout pool : Nat} {acks : List Nat} {s : State} (hop : opfin s = true) (hm : majority s acks = true) :
    Runs (.poolUpdateComplete layout pool acks) s (fun t => (∀ u ∈ t.degrade.updates, u.layout = layout → u.pool = pool → u.complete = true) ∧ t.degrade.updates.length = s.degrade.updates.length ∧
      t.registry.updates = t.degrade.updates.filter (fun u => u.complete) ∧ ∀ k, passOf s layout pool = some k → (pass s k).state = 1 → (pass t k).state = 2) := by
  obtain ⟨t, ht, hreg, hdeg, hpass⟩ := poolUpdateComplete_of_majority (layout := layout) (pool := pool) hm
  have hups : t.degrade.updates = (updatesBooked s layout pool).degrade.updates := by rw [hdeg]
  refine ⟨t, congrArg Host.Outcome.next ((if_pos hop).trans ht), ?_, ?_, by rw [hreg, hups]; rfl, hpass⟩
  · intro u hu hlayout hpool
    obtain ⟨x, -, rfl⟩ := List.mem_map.1 (hups ▸ hu)
    by_cases hx : (x.layout = layout && x.pool = pool) = true
    · rw [if_pos hx]
    · rw [if_neg hx] at hlayout hpool
      exact absurd (by simp [hlayout, hpool]) hx
  · rw [hups]
    exact List.length_map ..

/-! ### REBUILD_PASS_START (R147) -/

/-- A pass starts at row 0 of all rows, and no member is late yet. -/
def freshPass (s : State) (layout pool rows : Nat) : Pass :=
  { state := if updatesComplete s layout pool then 2 else 1, layout := layout, pool := pool, members := passMembers s layout pool, rows := rows }

/-- The spare fields say nothing of where a pass is. -/
theorem passSpare_spec (s : State) (p : Pass) : passSpare s p = { p with hot := (passSpare s p).hot, receivers := (passSpare s p).receivers, extent := (passSpare s p).extent, base := (passSpare s p).base } := by
  unfold passSpare
  repeat' split
  all_goals rfl

theorem foldl_max_const {l : List Nat} {n : Nat} (h : ∀ x ∈ l, x = n) : l.foldl max n = n := by
  induction l with
  | nil => rfl
  | cons x xs ih => rw [List.foldl_cons, h x List.mem_cons_self, Nat.max_self, ih fun y hy => h y (List.mem_cons_of_mem _ hy)]

theorem maxOf_const {l : List Nat} {n : Nat} (hl : l ≠ []) (h : ∀ x ∈ l, x = n) : maxOf l = n := by
  cases l with
  | nil => exact absurd rfl hl
  | cons x xs => rw [maxOf, List.foldl_cons, h x List.mem_cons_self, Nat.zero_max, foldl_max_const fun y hy => h y (List.mem_cons_of_mem _ hy)]

theorem freshPass_last {s : State} {layout pool rows : Nat} (h : passMembers s layout pool ≠ []) : (passSpare s (freshPass s layout pool rows)).last = rows - 1 := by
  have hgoal : (passSpare s (freshPass s layout pool rows)).goal = rows := by
    refine maxOf_const (by rw [passSpare_spec]; simpa [freshPass] using h) fun x hx => ?_
    rw [passSpare_spec] at hx
    obtain ⟨m, -, rfl⟩ := List.mem_map.1 hx
    exact Nat.zero_add rows
  rw [Pass.last, hgoal, passSpare_spec]
  simp [freshPass]

theorem exec_rebuildPassStart_none {layout pool : Nat} {s : State} (h : lossPauses s layout = true ∨ 2 ≤ s.power.state ∨ retires s = false) : exec (.rebuildPassStart layout pool) s = .next s := by
  have hstay : passStart s layout pool = s := by
    unfold passStart
    split
    · refine if_pos ?_
      rcases h with h | h | h <;> simp [h]
    · rfl
  exact congrArg Host.Outcome.next (by rw [hstay, ite_self])

/-- What keeps a pool's pass from starting is not there, and the pool is the only one that waits (R147, R149, R159, R160). -/
structure MayStart (s : State) (layout pool k : Nat) (l : Layout) (p : Pool) : Prop where
  layout_eq : layoutOf s layout = some l
  pool_eq : l.pool pool = some p
  slot : (List.range 16).find? (fun k => (pass s k).state = 0) = some k
  alone : passOf s layout pool = none
  awake : s.power.state < 2
  room : lossPauses s layout = false
  active : retires s = true
  waits : s.degrade.waitingPools = [(layout, pool)]
  homed : ∀ m ∈ passMembers s layout pool, rehomePending s m = false

theorem passStart_of_mayStart {s : State} {layout pool k : Nat} {l : Layout} {p : Pool} (h : MayStart s layout pool k l p) :
    passStart s layout pool = passDemand { modPass s k (fun _ => passSpare s (freshPass s layout pool l.rows)) with
      degrade := { (modPass s k (fun _ => passSpare s (freshPass s layout pool l.rows))).degrade with waitingPools := [] } } k := by
  have hgo : ¬ ((passOf s layout pool).isSome || decide (2 ≤ s.power.state) || lossPauses s layout || !retires s) = true := by simp [h.alone, h.awake, h.room, h.active]
  have hfree : (passMembers s layout pool).any (rehomePending s) = false := List.any_eq_false.2 fun m hm => by simp [h.homed m hm]
  simp only [passStart, h.layout_eq, h.pool_eq, h.slot, Option.bind_some, Option.map_some]
  rw [if_neg hgo, if_pos (by simp [h.waits, h.alone, hfree])]
  simp [modPass, h.waits, freshPass]

theorem runs_rebuildPassStart {layout pool k : Nat} {l : Layout} {p : Pool} {s : State} (hop : opfin s = true) (hslots : s.degrade.passes.length = 16) (h : MayStart s layout pool k l p) :
    Runs (.rebuildPassStart layout pool) s (fun t => (pass t k).state = (if updatesComplete s layout pool then 2 else 1) ∧ (pass t k).layout = layout ∧ (pass t k).pool = pool ∧
      (pass t k).members = passMembers s layout pool ∧ (pass t k).cursor = 0 ∧ (pass t k).rows = l.rows ∧ (passMembers s layout pool ≠ [] → (pass t k).last = l.rows - 1) ∧ t.degrade.waitingPools = [] ∧
      OnlyIn [.gov, .degrade] s t) := by
  set t := passStart s layout pool with ht
  rw [passStart_of_mayStart h] at ht
  have hk : k < s.degrade.passes.length := hslots ▸ List.mem_range.1 (List.mem_of_find?_eq_some h.slot)
  have hpass : pass t k = passSpare s (freshPass s layout pool l.rows) := by
    rw [ht, pass_of_passes (congrArg Degrade.passes (passDemand_degrade ..))]
    exact pass_modPass _ hk
  have hspare := hpass.trans (passSpare_spec ..)
  refine ⟨t, congrArg Host.Outcome.next (if_pos hop), ?_, ?_, ?_, ?_, ?_, ?_, ?_, ?_, ?_⟩
  · rw [hspare]; rfl
  · rw [hspare]; rfl
  · rw [hspare]; rfl
  · rw [hspare]; rfl
  · rw [hspare]; rfl
  · rw [hspare]; rfl
  · rw [hpass]
    exact freshPass_last
  · rw [ht, passDemand_degrade]
  · simp [OnlyIn, ht]

/-! ### ROW_RESTORE (R145, R146, R152) -/

theorem exec_rowRestore_idle {k : Nat} {s : State} (hruns : passRuns (pass s k) = false) : exec (.rowRestore k) s = .next s := by
  have hstay : rowRestore s k = s := by
    unfold rowRestore
    dsimp only
    split
    · rfl
    · exact if_pos (by simp [hruns])
  exact congrArg Host.Outcome.next (by rw [hstay, ite_self])

/-- A pass may restore its cursor row now (R146, R148). -/
structure MayRestore (s : State) (k : Nat) (l : Layout) : Prop where
  layout_eq : layoutOf s (pass s k).layout = some l
  runs : passRuns (pass s k) = true
  inside : (pass s k).cursor < (pass s k).rows
  unfinished : (pass s k).gone < (pass s k).goal
  idle : ∀ w ∈ s.works, w.kind ≠ .restore k
  spins : (passGroups s k).all (serves s) = true
  may : passMay s (passGroups s k) = true

theorem rowRestore_of_mayRestore {s : State} {k : Nat} {l : Layout} (h : MayRestore s k l) :
    rowRestore s k = match ownerOf s (pass s k).layout (pass s k).cursor with
      | none => advancePass s k
      | some (v, b, rho) =>
        if b.unwritten.getLsbD rho || (restoreTargets s l (pass s k).cursor (pass s k)).isEmpty then advancePass s k
        else addWork s (.restore k) v.volume l (pass s k).cursor [] [] [] [] false [] := by
  have hidle : s.works.any (fun w => decide (w.kind = .restore k)) = false := List.any_eq_false.2 fun w hw => by simpa using h.idle w hw
  have hgo : ¬ (!passRuns (pass s k) || decide ((pass s k).rows ≤ (pass s k).cursor) || decide ((pass s k).goal ≤ (pass s k).gone) || s.works.any (fun w => decide (w.kind = .restore k)) ||
      !((passGroups s k).all (serves s)) || !passMay s (passGroups s k)) = true := by
    rw [hidle]
    simp [h.runs, h.inside, h.unfinished, h.spins, h.may]
  simp only [rowRestore, h.layout_eq]
  exact if_neg hgo

/-- The cursor passes over a row. -/
theorem advancePass_spec {s : State} {k : Nat} (hruns : passRuns (pass s k) = true) :
    pass (advancePass s k) k = Pass.wrap { pass s k with cursor := (pass s k).cursor + 1 } ∧ (advancePass s k).works = s.works := by
  have hslot : k < s.degrade.passes.length := slot_of_pass fun h0 => by simp [passRuns, h0] at hruns
  refine ⟨?_, passDemand_works ..⟩
  rw [advancePass, pass_of_passes (congrArg Degrade.passes (passDemand_degrade ..)), pass_modPass _ hslot]

theorem exec_rowRestore {k : Nat} {s t : State} (hop : opfin s = true) (hk : k < 16) (h : rowRestore s k = t) : exec (.rowRestore k) s = .next t := by
  refine congrArg Host.Outcome.next ((if_pos ?_).trans h)
  simp [hop, hk]

theorem runs_rowRestore_unowned {k : Nat} {l : Layout} {s : State} (hop : opfin s = true) (hk : k < 16) (h : MayRestore s k l) (howner : ownerOf s (pass s k).layout (pass s k).cursor = none) :
    Runs (.rowRestore k) s (fun t => pass t k = Pass.wrap { pass s k with cursor := (pass s k).cursor + 1 } ∧ t.works = s.works) := by
  refine ⟨_, exec_rowRestore hop hk ?_, advancePass_spec h.runs⟩
  rw [rowRestore_of_mayRestore h, howner]

theorem runs_rowRestore_unwritten {k : Nat} {l : Layout} {v : VolumeDef} {b : Band} {rho : Nat} {s : State} (hop : opfin s = true) (hk : k < 16) (h : MayRestore s k l)
    (howner : ownerOf s (pass s k).layout (pass s k).cursor = some (v, b, rho)) (hrow : b.unwritten.getLsbD rho = true) :
    Runs (.rowRestore k) s (fun t => pass t k = Pass.wrap { pass s k with cursor := (pass s k).cursor + 1 } ∧ t.works = s.works) := by
  refine ⟨_, exec_rowRestore hop hk ?_, advancePass_spec h.runs⟩
  rw [rowRestore_of_mayRestore h, howner]
  exact if_pos (by simp [hrow])

theorem runs_rowRestore_work {k : Nat} {l : Layout} {v : VolumeDef} {b : Band} {rho : Nat} {s : State} (hop : opfin s = true) (hk : k < 16) (h : MayRestore s k l)
    (howner : ownerOf s (pass s k).layout (pass s k).cursor = some (v, b, rho)) (hrow : b.unwritten.getLsbD rho = false) (htargets : restoreTargets s l (pass s k).cursor (pass s k) ≠ [])
    (hnum : worksNumbered s) :
    Runs (.rowRestore k) s (fun t => (∃ w ∈ t.works, w.kind = .restore k ∧ w.row = (pass s k).cursor ∧ w.volume = v.volume) ∧ pass t k = pass s k) := by
  obtain ⟨⟨n, hw⟩, hdeg⟩ := addWork_of_holdsFirst (kind := .restore k) (volume := v.volume) (l := l) (row := (pass s k).cursor) (news := []) (wants := []) hnum rfl
  refine ⟨_, exec_rowRestore hop hk ?_, ⟨_, List.mem_of_find?_eq_some hw, rfl, rfl, rfl⟩, pass_of_passes (by rw [hdeg]) k⟩
  rw [rowRestore_of_mayRestore h, howner]
  exact if_neg (by simp [hrow, htargets])

/-! ### REPLACEMENT_DISCOVERED and the boundary (R133, R162, R163) -/

theorem exec_replacementDiscovered {m : Nat} {d : FoundDrive} {p : Bool} {s : State} (hop : opfin s = true) (hmay : mayReplace s m d = true) (hfree : ∀ r ∈ s.degrade.found, r.member ≠ m) :
    exec (.replacementDiscovered m d p) s = .next { s with degrade := { s.degrade with found := s.degrade.found ++ [⟨m, d, p, (mem s m).state, false⟩] } } := by
  have hnone : s.degrade.found.any (fun r => decide (r.member = m)) = false := List.any_eq_false.2 fun r hr => by simpa using hfree r hr
  refine congrArg Host.Outcome.next ((if_pos hop).trans (if_neg ?_))
  rw [hnone]
  simp [hmay]

theorem exec_replacementDiscovered_unfit {m : Nat} {d : FoundDrive} {p : Bool} {s : State} (hmay : mayReplace s m d = false) : exec (.replacementDiscovered m d p) s = .next s := by
  have hstay : replacementDiscovered s m d p = s := if_pos (by simp [hmay])
  exact congrArg Host.Outcome.next (by rw [hstay, ite_self])

theorem admitBoundary_discovered {r : Replacement} {s : State} (hfound : s.degrade.found = [r]) (hadm : r.admitting = false) :
    (mem (admitBoundary s) r.member).state = 6 ∧ (admitBoundary s).degrade.found = [{ r with admitting := true }] := by
  have hgo : admitBoundary s = { setMem s r.member 6 with degrade := { s.degrade with found := [{ r with admitting := true }] } } := by
    simp [admitBoundary, hfound, hadm, setMem, modMem, modIf]
  rw [hgo]
  exact ⟨mem_setMem_state s r.member 6, rfl⟩

/-- No drive is under its checks. -/
def noneFound (s : State) : State := { s with degrade := { s.degrade with found := [] } }

/-- The checks are over. -/
theorem admitBoundary_checked {r : Replacement} {s : State} (hfound : s.degrade.found = [r]) (hadm : r.admitting = true) : admitBoundary s = replacementOutcome (noneFound s) r := by
  simp [admitBoundary, noneFound, hfound, hadm]

/-- The drive stands in the member's place. -/
def inPlace (s : State) (m : Nat) (d : FoundDrive) : State :=
  modMem s m (fun x => { x with serial := d.serial, sasAddr := d.sasAddr, capacity := d.capacity, sata := d.sata, present := true, fault := false, events := [] })

theorem setMem_drive (s : State) (m st : Nat) : (mem (setMem s m st) m).serial = (mem s m).serial ∧ (mem (setMem s m st) m).capacity = (mem s m).capacity := by
  rw [setMem, mem_modMem_same]
  split <;> exact ⟨rfl, rfl⟩

/-- The member that a good drive serves for: Replacing while chunks are to be copied back, else a hot spare. -/
def placeTaken (s : State) (r : Replacement) : State :=
  if s.degrade.updates.any (fun u => u.member = r.member) then setMem { s with degrade := { s.degrade with replacing := s.degrade.replacing ++ [(r.drive.serial, r.member)] } } r.member 7
  else recordDrive (setMem s r.member 5) r.member

/-- Where no hot spare took the member's place, no home is named anew. -/
theorem replacementOutcome_good {r : Replacement} {s : State} (hgood : r.good = true) (hplaced : ∀ e ∈ s.degrade.placed, e.2.2.1 ≠ r.member) :
    replacementOutcome s r = placeTaken (inPlace s r.member r.drive) r := by
  have hnone : s.degrade.placed.filter (fun e => e.2.2.1 = r.member) = [] := List.filter_eq_nil_iff.2 fun e he => by simpa using hplaced e he
  refine (if_neg (by simp [hgood])).trans ?_
  exact congrArg (fun es => placeTaken (es.foldl (fun s e => homesMoved s e.1 e.2.1 r.member e.2.2.2) (inPlace s r.member r.drive)) r) hnone

theorem admitBoundary_good {r : Replacement} {s : State} (hfound : s.degrade.found = [r]) (hadm : r.admitting = true) (hgood : r.good = true) (hplaced : ∀ e ∈ s.degrade.placed, e.2.2.1 ≠ r.member) :
    (mem (admitBoundary s) r.member).state = (if s.degrade.updates.any (fun u => u.member = r.member) then 7 else 5) ∧ (mem (admitBoundary s) r.member).serial = r.drive.serial ∧
      (mem (admitBoundary s) r.member).capacity = r.drive.capacity ∧ (admitBoundary s).degrade.found = [] := by
  set u := inPlace (noneFound s) r.member r.drive with hu
  have hupdates : u.degrade.updates = s.degrade.updates := rfl
  obtain ⟨hserial, hcapacity⟩ : (mem u r.member).serial = r.drive.serial ∧ (mem u r.member).capacity = r.drive.capacity := by simp [hu, inPlace]
  rw [admitBoundary_checked hfound hadm, replacementOutcome_good (s := noneFound s) hgood hplaced, placeTaken, ← hu, hupdates]
  split
  · exact ⟨mem_setMem_state .., (setMem_drive ..).1.trans hserial, (setMem_drive ..).2.trans hcapacity, rfl⟩
  · exact ⟨mem_setMem_state u r.member 5, (setMem_drive ..).1.trans hserial, (setMem_drive ..).2.trans hcapacity, rfl⟩

theorem admitBoundary_failed {r : Replacement} {s : State} (hfound : s.degrade.found = [r]) (hadm : r.admitting = true) (hgood : r.good = false) :
    (mem (admitBoundary s) r.member).state = r.before ∧ (admitBoundary s).drives.unassigned = s.drives.unassigned ++ [r.drive] := by
  set u := setMem (noneFound s) r.member r.before with hu
  have hdrives : (admitBoundary s).drives = { u.drives with unassigned := s.drives.unassigned ++ [r.drive] } := by
    rw [admitBoundary_checked hfound hadm, replacementOutcome, if_pos (by simp [hgood]), fire_drives]
    rfl
  refine ⟨?_, by rw [hdrives]⟩
  rw [mem_of_members (s := u) (by rw [hdrives])]
  exact mem_setMem_state ..

/-! ### REGISTRY_REHOME (R160) -/

theorem exec_registryRehome {m i a : Nat} {s : State} (hi : registryPos s m = some i) (ha : alternateFor s m = some a) (hop : opfin s = true) (hm : (mem s m).state = 3 ∨ (mem s m).state = 4) :
    exec (.registryRehome m) s = .next { s with degrade := { s.degrade with roster := s.degrade.roster.filter (fun e => e.1 ≠ i) ++ [(i, a)] } } := by
  refine congrArg Host.Outcome.next ?_
  rw [hi, ha]
  exact if_pos (by simpa [hop] using hm)

theorem exec_registryRehome_other {m : Nat} {s : State} (hi : registryPos s m = none) : exec (.registryRehome m) s = .next s := by
  refine congrArg Host.Outcome.next ?_
  rw [hi]

/-- Settles O38: a pass is told by its slot, a restore's step 1 leaves the passes alone, and a replacement's outcome ends in the state it sets last. -/
theorem rebuildsRun : Obligations.RebuildsRun := by
  refine ⟨?_, ?_, ?_, ?_, ?_, ?_, ?_, ?_, ?_, ?_, ?_, ?_, ?_⟩
  · exact fun _ _ _ _ => runs_poolUpdateComplete
  · exact fun _ _ _ _ => exec_poolUpdateComplete_minority
  · intro layout pool k l p s hop hl hp hslots hslot halone hawake hroom hactive hwaits hhomed
    exact runs_rebuildPassStart hop hslots ⟨hl, hp, hslot, halone, hawake, hroom, hactive, hwaits, hhomed⟩
  · exact fun _ _ _ => exec_rebuildPassStart_none
  · intro k l s hop hk hl hruns hinside hopen hidle hspins hmay
    have h : MayRestore s k l := ⟨hl, hruns, hinside, hopen, hidle, hspins, hmay⟩
    exact ⟨runs_rowRestore_unowned hop hk h, fun _ _ _ => runs_rowRestore_unwritten hop hk h, fun _ _ _ => runs_rowRestore_work hop hk h⟩
  · exact fun _ _ => exec_rowRestore_idle
  · exact fun _ _ _ _ => exec_replacementDiscovered
  · exact fun _ _ => admitBoundary_discovered
  · exact fun _ _ => admitBoundary_good
  · exact fun _ _ => admitBoundary_failed
  · exact fun _ _ _ _ => exec_replacementDiscovered_unfit
  · exact fun _ _ _ _ => exec_registryRehome
  · exact fun _ _ => exec_registryRehome_other

end Sys2Proof.Machine
end

section
namespace Sys2Proof.Machine

/-! ## The loss ledger and scrub (O39) -/

/-! ### LOSS_ENTRIES_DURABLE (R156) -/

/-- The entries of a find are durable. -/
def durableEntries (s : State) (find : Nat) : List LossEntry := s.degrade.loss.map (fun e => if e.find = find && !e.durable then { e with durable := true, durableAt := s.now } else e)

theorem durable_of_mem_durableEntries {s : State} {find : Nat} {e : LossEntry} (he : e ∈ durableEntries s find) (hfind : e.find = find) : e.durable = true := by
  obtain ⟨x, -, rfl⟩ := List.mem_map.1 he
  split
  · rfl
  next hno =>
    rw [if_neg hno] at hfind
    simpa [hfind] using hno

theorem exec_lossEntriesDurable_minority {find : Nat} {acks : List Nat} {s : State} (hm : majority s acks = false) : exec (.lossEntriesDurable find acks) s = .next s := by
  have hstay : lossDurable s find acks = s := if_neg (by simp [hm])
  exact congrArg Host.Outcome.next (by rw [hstay, ite_self])

/-- The entries of a find count as new, and the registry has its copy of them. -/
def foundDurable (s : State) (find : Nat) : State := { s with
  degrade := { s.degrade with loss := durableEntries s find, lossNew := hold 0xFFFF (s.degrade.lossNew + countIf (fun (e : LossEntry) => e.find = find && !e.durable) s.degrade.loss) }
  registry := { s.registry with loss := (durableEntries s find).filter (·.durable) } }

/-- Where no work waits for the find, no reads go out. -/
theorem lossDurable_of_noWaiters {find : Nat} {acks : List Nat} {s : State} (hm : majority s acks = true) (hworks : ∀ w ∈ s.works, find ∉ w.waitFinds) :
    lossDurable s find acks = foundDurable s find := by
  have hnone : s.works.filter (fun w => w.waitFinds.contains find) = [] := List.filter_eq_nil_iff.2 fun w hw => by simpa using hworks w hw
  exact (if_pos hm).trans (congrArg (List.foldl _ (foundDurable s find)) hnone)

theorem runs_lossEntriesDurable {find : Nat} {acks : List Nat} {s : State} (hop : opfin s = true) (hm : majority s acks = true) (hworks : ∀ w ∈ s.works, find ∉ w.waitFinds) :
    Runs (.lossEntriesDurable find acks) s (fun t => (∀ e ∈ t.degrade.loss, e.find = find → e.durable = true) ∧ t.degrade.loss.length = s.degrade.loss.length ∧
      t.registry.loss = t.degrade.loss.filter (fun e => e.durable) ∧ OnlyIn [.degrade, .registry] s t) :=
  ⟨foundDurable s find, congrArg Host.Outcome.next ((if_pos hop).trans (lossDurable_of_noWaiters hm hworks)), fun _ => durable_of_mem_durableEntries, List.length_map .., rfl,
    by simp [OnlyIn, foundDurable]⟩

/-! ### SEAL_ROW (R157) -/

theorem exec_sealRow_early {layout row pos : Nat} {l : Layout} {s : State} (hl : layoutOf s layout = some l) (hseal : sealable s l row pos (lostNow s l row pos) = false) :
    exec (.sealRow layout row pos) s = .next s := by
  refine congrArg Host.Outcome.next ?_
  unfold sealRow
  rw [hl]
  cases ownerOf s layout row with
  | none => rfl
  | some e => exact if_neg (by simp [hseal])

theorem runs_sealRow {layout row pos rho : Nat} {l : Layout} {v : VolumeDef} {b : Band} {s : State} (hl : layoutOf s layout = some l) (howner : ownerOf s layout row = some (v, b, rho))
    (hpos : l.positions.contains pos = true) (hwritten : b.unwritten.getLsbD rho = false) (hseal : sealable s l row pos (lostNow s l row pos) = true) (hnum : worksNumbered s) :
    Runs (.sealRow layout row pos) s (fun t => ∃ w ∈ t.works, w.kind = .seal ∧ w.layout = layout ∧ w.row = row ∧ w.positions = [pos] ∧ ∀ c ∈ lostNow s l row pos, (c, pos, []) ∈ w.news) := by
  set zeros : List (Nat × Nat × Cells) := (lostNow s l row pos).map (fun c => (c, pos, []))
  obtain ⟨⟨n, hw⟩, -⟩ := addWork_of_holdsFirst (kind := .seal) (volume := v.volume) (l := l) (row := row) (news := zeros) (wants := []) hnum rfl
  refine ⟨modWork (addWork s .seal v.volume l row zeros [] [] [] false []) s.nextWork (fun w => { w with positions := [pos] }), congrArg Host.Outcome.next ?_, _,
    List.mem_of_find?_eq_some (findWork_modWork (f := fun w => { w with positions := [pos] }) (fun _ => rfl) hw), rfl, index_of_layoutOf hl, rfl, rfl, fun c hc => List.mem_map_of_mem hc⟩
  rw [sealRow, hl, howner]
  exact if_pos (by simp [List.contains_iff_mem.1 hpos, rowUnwritten_of_owner howner, hwritten, hseal])

/-! ### LOSS_AREA_FULL (R159) -/

theorem exec_lossAreaFull_room {s : State} (h : lossHeld s < 32768) : exec .lossAreaFull s = .next s := congrArg Host.Outcome.next (if_neg (by simp [Nat.not_le.2 h]))

/-- The area is full, with the volumes that it concerns; the entries are the same. -/
theorem lossOverflow_degrade (s : State) (v : Nat) : (lossOverflow s v).degrade = { s.degrade with lossFull := true, lossVols := (s.degrade.lossVols ++ [v]).eraseDups } := by
  unfold lossOverflow
  split
  next hfull => rw [← hfull]
  · exact congrArg (fun d : Degrade => { d with lossVols := (d.lossVols ++ [v]).eraseDups }) (fire_degrade ..)

theorem foldl_lossOverflow (vs : List Nat) (s : State) : (vs.foldl lossOverflow s).degrade.loss = s.degrade.loss ∧ (vs ≠ [] ∨ s.degrade.lossFull = true → (vs.foldl lossOverflow s).degrade.lossFull = true) ∧
    ∀ v, v ∈ vs ∨ v ∈ s.degrade.lossVols → v ∈ (vs.foldl lossOverflow s).degrade.lossVols := by
  induction vs generalizing s with
  | nil => simp
  | cons x vs ih =>
    obtain ⟨hloss, hfull, hvols⟩ := ih (lossOverflow s x)
    rw [List.foldl_cons]
    refine ⟨hloss.trans (by rw [lossOverflow_degrade]), fun _ => hfull (.inr (by rw [lossOverflow_degrade])), fun v hv => hvols v ?_⟩
    rw [lossOverflow_degrade]
    simp only [List.mem_eraseDups, List.mem_append, List.mem_singleton]
    simp only [List.mem_cons] at hv
    tauto

theorem runs_lossAreaFull {s : State} (hheld : 32768 ≤ lossHeld s) (hfull : s.degrade.lossFull = false) :
    Runs .lossAreaFull s (fun t => t.degrade.lossFull = true ∧ t.degrade.loss = s.degrade.loss ∧ (∀ e ∈ s.degrade.loss, e.volume ∈ t.degrade.lossVols) ∧ OnlyIn [.degrade, .daybook] s t) := by
  set vs := (s.degrade.loss.map (·.volume)).eraseDups with hvs
  have hmem : ∀ e ∈ s.degrade.loss, e.volume ∈ vs := fun e he => List.mem_eraseDups.2 (List.mem_map_of_mem he)
  have hsome : vs ≠ [] := by
    obtain ⟨e, he⟩ := List.exists_mem_of_length_pos (l := s.degrade.loss) (lt_of_lt_of_le (by decide) hheld)
    exact List.ne_nil_of_mem (hmem e he)
  obtain ⟨hloss, hset, hvols⟩ := foldl_lossOverflow vs s
  exact ⟨_, congrArg Host.Outcome.next (if_pos (by simp [hheld, hfull])), hset (.inl hsome), hloss, fun e he => hvols _ (.inl (hmem e he)),
    outside_foldl fun u v => lossOverflow_outside u v (by decide) (by decide)⟩

/-! ### LOCAL_SCRUB (R164, R165, R167) -/

theorem exec_localScrub_paused {layout row j : Nat} {chunks : List (ChunkId × List Byte)} {s : State} (h : lossPauses s layout = true) : exec (.localScrub layout row j chunks) s = .next s := by
  have hstay : localScrub s layout row j chunks = s := by
    unfold localScrub
    split
    · exact if_pos (by simp [h])
    · rfl
  exact congrArg Host.Outcome.next (by rw [hstay, ite_self])

/-- A row that may be scrubbed in a group, with every chunk that the scrub reads whole and every position consistent (R164, R165, R167). -/
structure ScrubsClean (s : State) (l : Layout) (b : Band) (layout row j rho : Nat) (chunks : List (ChunkId × List Byte)) : Prop where
  written : b.unwritten.getLsbD rho = false
  spins : serves s (l.powerGroup (.p j)) = true
  may : scrubMay s (l.powerGroup (.p j)) = true
  group : j < l.groups.length
  free : holdFree s layout row = true
  room : lossPauses s layout = false
  whole : erasedChunks s l row = []
  read : ∀ c, c ∈ (covers l (.p j)).map ChunkId.d ++ [.p j, .q j] → (∃ e ∈ chunks, e.1 = c) ∧ ∀ p ∈ l.positions, scrubFailed chunks c p = false
  clean : ∀ p ∈ l.positions, judgePosition (covers l (.p j)) (scrubDeltas l j chunks p).1 (scrubDeltas l j chunks p).2 = .none

/-- A row without a mismatch is counted, and is scrubbed now. -/
def scrubCounted (s : State) (layout row j : Nat) : State := { s with
  degrade := { s.degrade with
    scrubRows := inc 0xFFFFFFFF s.degrade.scrubRows
    scrubbed := s.degrade.scrubbed.filter (fun e => !(e.1 = layout && e.2.1 = row && e.2.2.1 = j)) ++ [(layout, row, j, s.mgmt.opMs)] }
  drives := { s.drives with scrubFirst := s.drives.scrubFirst.filter (· ≠ (layout, row)) } }

/-- The chunks that a local scrub of a group reads. -/
def scrubNeed (l : Layout) (j : Nat) : List ChunkId := (covers l (.p j)).map ChunkId.d ++ [.p j, .q j]

/-- The step of a local scrub over its positions. -/
def scrubOver (l : Layout) (row j : Nat) (chunks : List (ChunkId × List Byte)) (a : State × List Mismatch) (pos : Nat) : State × List Mismatch :=
  if (scrubNeed l j).any (fun c => scrubFailed chunks c pos) then (scrubRepair a.1 l row (scrubNeed l j) chunks pos, a.2)
  else ((scrubPosition a.1 l row j chunks pos).1, a.2 ++ [(scrubPosition a.1 l row j chunks pos).2])

theorem scrubPosition_clean {s : State} {l : Layout} {row j pos : Nat} {chunks : List (ChunkId × List Byte)}
    (h : judgePosition (covers l (.p j)) (scrubDeltas l j chunks pos).1 (scrubDeltas l j chunks pos).2 = .none) : (scrubPosition s l row j chunks pos).1 = s := by
  simp [scrubPosition, h]

/-- Over clean positions the scrub changes nothing. -/
theorem foldl_scrubOver_clean {l : Layout} {row j : Nat} {chunks : List (ChunkId × List Byte)} {ps : List Nat} (a : State × List Mismatch)
    (hread : ∀ p ∈ ps, (scrubNeed l j).any (fun c => scrubFailed chunks c p) = false)
    (hclean : ∀ p ∈ ps, judgePosition (covers l (.p j)) (scrubDeltas l j chunks p).1 (scrubDeltas l j chunks p).2 = .none) : (ps.foldl (scrubOver l row j chunks) a).1 = a.1 :=
  List.foldlRecOn (motive := fun b : State × List Mismatch => b.1 = a.1) ps (scrubOver l row j chunks) rfl fun b hb p hp => by
    rw [scrubOver, if_neg (by simp [hread p hp])]
    exact (scrubPosition_clean (hclean p hp)).trans hb

/-- The repairs of objects count the group of the row off. -/
def repairsCounted (s : State) (layout row j : Nat) : State :=
  { s with vaults := { s.vaults with repairs := s.vaults.repairs.map (fun r => { r with left := r.left.filter (· ≠ (layout, row, j)) }) } }

theorem checkDone_of_unchecked {s : State} {layout row j : Nat} (rs : List Mismatch) (h : ∀ c ∈ s.cmds, (layout, row, j) ∉ c.checks) : checkDone s layout row j rs = repairsCounted s layout row j := by
  have hnone : s.cmds.filter (fun c => c.checks.contains (layout, row, j)) = [] := List.filter_eq_nil_iff.2 fun c hc => by simpa using h c hc
  exact congrArg (List.foldl _ (repairsCounted s layout row j)) hnone

/-- The bytes of a local scrub count for its group. -/
def scrubMoved (s : State) (l : Layout) (j : Nat) : State := countMoved s (l.powerGroup (.p j)) (some .scrub) ((scrubNeed l j).length * l.chunk)

theorem localScrub_clean {layout row j rho : Nat} {chunks : List (ChunkId × List Byte)} {l : Layout} {v : VolumeDef} {b : Band} {s : State} (hl : layoutOf s layout = some l)
    (howner : ownerOf s layout row = some (v, b, rho)) (h : ScrubsClean s l b layout row j rho chunks) (hchecks : ∀ c ∈ s.cmds, (layout, row, j) ∉ c.checks) :
    localScrub s layout row j chunks = repairsCounted (scrubCounted (scrubMoved s l j) layout row j) layout row j := by
  have hread : ∀ p ∈ l.positions, (scrubNeed l j).any (fun c => scrubFailed chunks c p) = false := fun p hp => List.any_eq_false.2 fun c hc => by simp [(h.read c hc).2 p hp]
  have hwhole : (scrubNeed l j).all (fun c => chunks.any (fun e => decide (e.1 = c))) = true := by
    refine List.all_eq_true.2 fun c hc => ?_
    obtain ⟨⟨e, he, hec⟩, -⟩ := h.read c hc
    exact List.any_eq_true.2 ⟨e, he, by simpa using hec⟩
  set a := l.positions.foldl (scrubOver l row j chunks) (scrubMoved s l j, [])
  have hclean : a.1 = scrubMoved s l j := foldl_scrubOver_clean (scrubMoved s l j, []) hread h.clean
  have hgo : localScrub s layout row j chunks = checkDone (scrubCounted a.1 layout row j) layout row j a.2 := by
    unfold scrubNeed at hwhole
    simp only [localScrub, hl, howner]
    rw [if_neg (by rw [hwhole]; simp [h.written, h.spins, h.may, h.group, h.free, h.room, h.whole])]
    rfl
  rw [hgo, hclean]
  exact checkDone_of_unchecked (s := scrubCounted (scrubMoved s l j) layout row j) a.2 hchecks

theorem runs_localScrub_clean {layout row j rho : Nat} {chunks : List (ChunkId × List Byte)} {l : Layout} {v : VolumeDef} {b : Band} {s : State} (hop : opfin s = true) (hl : layoutOf s layout = some l)
    (howner : ownerOf s layout row = some (v, b, rho)) (h : ScrubsClean s l b layout row j rho chunks) (hchecks : ∀ c ∈ s.cmds, (layout, row, j) ∉ c.checks) :
    Runs (.localScrub layout row j chunks) s (fun t => t.degrade.scrubRows = inc 0xFFFFFFFF s.degrade.scrubRows ∧ t.degrade.located = s.degrade.located ∧ t.degrade.unlocated = s.degrade.unlocated ∧
      t.degrade.syndrome = s.degrade.syndrome ∧ (layout, row, j, s.mgmt.opMs) ∈ t.degrade.scrubbed ∧ (layout, row) ∉ t.drives.scrubFirst ∧ t.works = s.works ∧ t.ledger = s.ledger) := by
  refine ⟨_, congrArg Host.Outcome.next ((if_pos hop).trans (localScrub_clean hl howner h hchecks)), rfl, rfl, rfl, rfl, List.mem_append_right _ (List.mem_singleton_self _), ?_, rfl, rfl⟩
  simp [repairsCounted, scrubCounted]

/-! ### GLOBAL_SCRUB_BATCH (R166) -/

theorem exec_globalScrubBatch_paused {layout row : Nat} {chunks : List (ChunkId × List Byte)} {s : State} (h : lossPauses s layout = true) : exec (.globalScrubBatch layout row chunks) s = .next s := by
  have hstay : globalScrub s layout row chunks = s := by
    unfold globalScrub
    split
    · exact if_pos (by simp [h])
    · rfl
  exact congrArg Host.Outcome.next (by rw [hstay, ite_self])

theorem batchAdd_spec (l : Layout) (r : BatchRow) (e : ChunkId × List Byte) :
    (batchAdd l r e).layout = r.layout ∧ (batchAdd l r e).row = r.row ∧ ∀ c, c ∈ (batchAdd l r e).added ↔ c ∈ r.added ∨ e.1 = c := by
  unfold batchAdd
  split
  next hin =>
    refine ⟨rfl, rfl, fun c => ⟨.inl, ?_⟩⟩
    rintro (hc | rfl)
    · exact hc
    · simpa using hin
  · exact ⟨rfl, rfl, by simp [eq_comm]⟩

/-- A batch row takes in the parts that are read, and no others. -/
theorem foldl_batchAdd_spec (l : Layout) (es : List (ChunkId × List Byte)) (r : BatchRow) :
    (es.foldl (batchAdd l) r).layout = r.layout ∧ (es.foldl (batchAdd l) r).row = r.row ∧ ∀ c, c ∈ (es.foldl (batchAdd l) r).added ↔ c ∈ r.added ∨ ∃ e ∈ es, e.1 = c := by
  induction es generalizing r with
  | nil => simp
  | cons e es ih =>
    obtain ⟨hlayout, hrow, hadded⟩ := ih (batchAdd l r e)
    obtain ⟨hlayout', hrow', hadded'⟩ := batchAdd_spec l r e
    refine ⟨hlayout.trans hlayout', hrow.trans hrow', fun c => ?_⟩
    rw [List.foldl_cons, hadded, hadded', List.exists_mem_cons_iff, or_assoc]

/-- A row that the global check may begin (R166). -/
structure BatchBegins (s : State) (l : Layout) (b : Band) (layout row rho : Nat) : Prop where
  written : b.unwritten.getLsbD rho = false
  globals : l.globals ≠ 0
  free : holdFree s layout row = true
  room : lossPauses s layout = false
  empty : s.degrade.batch = []
  due : globalDue s layout row = true
  idle : ∀ w ∈ s.works, w.layout = layout → w.row = row → w.step < 2

/-- The parts that a global check takes of what was read. -/
def batchParts (s : State) (l : Layout) (row : Nat) (chunks : List (ChunkId × List Byte)) : List (ChunkId × List Byte) :=
  chunks.filter (fun e => serves s (l.powerGroup e.1) && !(erasedChunks s l row).contains e.1 && l.chunks.contains e.1)

theorem globalScrub_begins {layout row rho : Nat} {chunks : List (ChunkId × List Byte)} {l : Layout} {v : VolumeDef} {b : Band} {s : State} (hl : layoutOf s layout = some l)
    (howner : ownerOf s layout row = some (v, b, rho)) (h : BatchBegins s l b layout row rho) (hpart : ∀ e ∈ chunks, e.1 ≠ .g 1) :
    globalScrub s layout row chunks = { s with degrade := { s.degrade with batch := [(batchParts s l row chunks).foldl (batchAdd l) ⟨layout, row, [], []⟩] } } := by
  set r := (batchParts s l row chunks).foldl (batchAdd l) ⟨layout, row, [], []⟩ with hr
  have hidle : s.works.any (fun w => decide (w.layout = layout) && decide (w.row = row) && decide (2 ≤ w.step)) = false :=
    List.any_eq_false.2 fun w hw => by simpa using h.idle w hw
  have hopen : (List.range l.globals).all (fun t => r.added.contains (.g (t + 1))) = false := by
    refine List.all_eq_false.2 ⟨0, List.mem_range.2 (Nat.pos_of_ne_zero h.globals), ?_⟩
    rw [List.contains_iff_mem, hr, (foldl_batchAdd_spec l _ _).2.2]
    rintro (hnil | ⟨e, he, hg⟩)
    · cases hnil
    · exact hpart e (List.mem_filter.1 he).1 hg
  simp only [globalScrub, hl, howner]
  rw [hidle, if_neg (by simp [h.written, h.globals, h.room, h.empty, h.due, h.free])]
  simp only [h.empty, List.find?_nil, Option.getD_none, List.filter_nil]
  rw [if_neg (by rw [Bool.and_eq_true, not_and_or]; exact .inr (ne_of_eq_of_ne hopen Bool.false_ne_true))]
  rfl

theorem runs_globalScrubBatch_begins {layout row rho : Nat} {chunks : List (ChunkId × List Byte)} {l : Layout} {v : VolumeDef} {b : Band} {s : State} (hop : opfin s = true)
    (hl : layoutOf s layout = some l) (howner : ownerOf s layout row = some (v, b, rho)) (h : BatchBegins s l b layout row rho) (hpart : ∀ e ∈ chunks, e.1 ≠ .g 1) :
    Runs (.globalScrubBatch layout row chunks) s (fun t => OnlyIn [.degrade] s t ∧ ∃ r, t.degrade.batch = [r] ∧ r.layout = layout ∧ r.row = row ∧
      ∀ e ∈ chunks, e.1 ∈ l.chunks → e.1 ∉ erasedChunks s l row → serves s (l.powerGroup e.1) = true → e.1 ∈ r.added) := by
  obtain ⟨hlayout, hrow, hadded⟩ := foldl_batchAdd_spec l (batchParts s l row chunks) ⟨layout, row, [], []⟩
  refine ⟨_, congrArg Host.Outcome.next ((if_pos hop).trans (globalScrub_begins hl howner h hpart)), by simp [OnlyIn], _, rfl, hlayout, hrow, fun e he hchunk hwhole hspins => ?_⟩
  exact (hadded e.1).2 (.inr ⟨e, List.mem_filter.2 ⟨he, by simp [hchunk, hwhole, hspins]⟩, rfl⟩)

/-- Settles O39: entries become durable one by one, a clean scrub changes no position, and a batch row without its first global chunk is not whole. -/
theorem lossesAndScrub : Obligations.LossesAndScrub := by
  refine ⟨?_, ?_, ?_, ?_, ?_, ?_, ?_, ?_, ?_⟩
  · exact fun _ _ _ => runs_lossEntriesDurable
  · exact fun _ _ _ => exec_lossEntriesDurable_minority
  · exact fun _ _ _ _ _ _ _ _ => runs_sealRow
  · exact fun _ _ _ _ _ => exec_sealRow_early
  · exact fun _ => runs_lossAreaFull
  · exact fun _ => exec_lossAreaFull_room
  · intro layout row j rho chunks l v b s hop hl howner hwritten hspins hmay hgroup hfree hroom hwhole hread hclean hchecks
    exact runs_localScrub_clean hop hl howner ⟨hwritten, hspins, hmay, hgroup, hfree, hroom, hwhole, hread, hclean⟩ hchecks
  · exact fun _ _ _ _ _ h => ⟨exec_localScrub_paused h, exec_globalScrubBatch_paused h⟩
  · intro layout row rho chunks l v b s hop hl howner hwritten hglobals hfree hroom hempty hdue hidle hpart
    exact runs_globalScrubBatch_begins hop hl howner ⟨hwritten, hglobals, hfree, hroom, hempty, hdue, hidle⟩ hpart

end Sys2Proof.Machine
end

section
namespace Sys2Proof.Machine

/-! ## RESHAPE and the copy of a region (O40) -/

/-! ### Slots -/

theorem rsh_of_reshapes {s t : State} (h : t.reshapes = s.reshapes) (k : Nat) : rsh t k = rsh s k := by rw [rsh, h, rsh]

theorem rsh_modRsh_same {s : State} {k : Nat} (f : Reshape → Reshape) (hk : k < s.reshapes.slots.length) : rsh (modRsh s k f) k = f (rsh s k) := modAt_drop_headD f {} k s.reshapes.slots hk

theorem rsh_modRsh_other {s : State} {j k : Nat} (f : Reshape → Reshape) (h : j ≠ k) : rsh (modRsh s k f) j = rsh s j := modAt_drop_headD_other f {} s.reshapes.slots h.symm

theorem rsh_of_no_slot {s : State} {k : Nat} (hk : s.reshapes.slots.length ≤ k) : rsh s k = {} := by rw [rsh, List.drop_eq_nil_of_le hk, List.headD_nil]

/-- A reshape that is not idle has a slot. -/
theorem slot_of_rsh {s : State} {k : Nat} (h : (rsh s k).state ≠ 0) : k < s.reshapes.slots.length := by
  by_contra hk
  exact h (by rw [rsh_of_no_slot (Nat.not_lt.1 hk)])

/-- A reshape with a region under way has a slot. -/
theorem slot_of_started {s : State} {k region : Nat} (h : region ∈ (rsh s k).started) : k < s.reshapes.slots.length := by
  by_contra hk
  rw [rsh_of_no_slot (Nat.not_lt.1 hk)] at h
  cases h

theorem state_of_slotOf {s : State} {v k : Nat} (h : slotOf s v = some k) : (rsh s k).state ≠ 0 := by
  have hk := List.find?_some h
  rw [Bool.and_eq_true] at hk
  exact of_decide_eq_true hk.1

/-- What a Start writes into its slot (R178). -/
def startingSlot (s : State) (v tgt : Nat) (tag : Option Nat) (device : Bool) : Reshape where
  state := 1
  device := device
  volume := v
  source := (vol s v).layout
  target := tgt
  tag := tag
  lastChange := s.now

/-- A Start writes the lowest idle slot and no other. -/
theorem rsh_takeSlot {s : State} {k : Nat} (v tgt : Nat) (tag : Option Nat) (device : Bool) (hslots : s.reshapes.slots.length = 4) (hk : (List.range 4).find? (fun k => (rsh s k).state = 0) = some k) :
    rsh (takeSlot s v tgt tag device) k = startingSlot s v tgt tag device ∧ ∀ j, j ≠ k → rsh (takeSlot s v tgt tag device) j = rsh s j := by
  have htake : takeSlot s v tgt tag device = modRsh s k (fun _ => startingSlot s v tgt tag device) := by
    rw [takeSlot, hk]
    rfl
  have hlt : k < s.reshapes.slots.length := hslots ▸ List.mem_range.1 (List.mem_of_find?_eq_some hk)
  rw [htake]
  exact ⟨rsh_modRsh_same _ hlt, fun j hj => rsh_modRsh_other _ hj⟩

/-! ### The command (R176, R177, R318) -/

theorem findCmd_of_reshapeCmd {s : State} {tag action : Nat} {c : Cmd} (h : reshapeCmd s tag action = some c) : findCmd s tag = some c := (Option.filter_eq_some_iff.1 h).1

theorem ended_finish {s : State} {tag : Nat} {c : Cmd} (status detail : Nat) (result : List Byte) (h : findCmd s tag = some c) : Ended (finish s tag status detail result) tag status detail result := by
  obtain ⟨p, hp, hc⟩ := findCmd_finish status detail result h
  exact ⟨_, hc, hp, rfl, rfl, rfl⟩

theorem finish_reshapes (s : State) (tag status detail : Nat) (result : List Byte) : (finish s tag status detail result).reshapes = s.reshapes := same_reshapes (ps := [.cmds, .returns]) (by simp) (by decide)

theorem runs_reshapeStart_refused {tag : Nat} {c : Cmd} {e : Nat × Nat} {s : State} (hc : reshapeCmd s tag 0 = some c) (he : startRefusal s c.hdr.volume (c.hdr.f 25 1) = some e) :
    Runs (.reshapeStart tag) s (fun t => Ended t tag e.1 e.2 [0xFF] ∧ t.reshapes = s.reshapes) :=
  ⟨finish s tag e.1 e.2 refusedSlot, congrArg Host.Outcome.next (by simp only [hc, he]), ended_finish _ _ _ (findCmd_of_reshapeCmd hc), finish_reshapes ..⟩

theorem runs_reshapeStart {tag k : Nat} {c : Cmd} {s : State} (hc : reshapeCmd s tag 0 = some c) (hmay : startRefusal s c.hdr.volume (c.hdr.f 25 1) = none) (hslots : s.reshapes.slots.length = 4)
    (hk : (List.range 4).find? (fun k => (rsh s k).state = 0) = some k) :
    Runs (.reshapeStart tag) s (fun t => rsh t k = startingSlot s c.hdr.volume (c.hdr.f 25 1) (some tag) false ∧ (∀ j, j ≠ k → rsh t j = rsh s j) ∧
      findCmd t tag = some { c with phase := .busy, begun := true } ∧ OnlyIn [.reshapes, .cmds] s t) := by
  set u := takeSlot s c.hdr.volume (c.hdr.f 25 1) (some tag) false
  have hu : findCmd u tag = some c := (findCmd_of_cmds (same_cmds (ps := [.reshapes]) (by simp [u]) (by decide))).trans (findCmd_of_reshapeCmd hc)
  obtain ⟨htaken, hothers⟩ := rsh_takeSlot c.hdr.volume (c.hdr.f 25 1) (some tag) false hslots hk
  exact ⟨modCmd u tag (fun c => { c with phase := .busy, begun := true }), congrArg Host.Outcome.next (by simp only [hc, hmay]; rfl), htaken, hothers,
    findCmd_modCmd_of_hdr (f := fun c => { c with phase := .busy, begun := true }) (fun _ => rfl) hu, by simp [OnlyIn, u]⟩

/-- Pause, Resume or Cancel where the volume's slot is in one of its states: registered for the next boundary. -/
theorem reshapeAct_registered {s : State} {tag action k : Nat} {states : List Nat} {c : Cmd} (hc : reshapeCmd s tag action = some c) (hslot : slotOf s c.hdr.volume = some k) (hst : (rsh s k).state ∈ states) :
    rsh (reshapeAct s tag action states) k = { rsh s k with reqs := (rsh s k).reqs ++ [(action, tag)] } ∧ findCmd (reshapeAct s tag action states) tag = some { c with phase := .busy } ∧
      OnlyIn [.reshapes, .cmds] s (reshapeAct s tag action states) := by
  have hfound : (slotOf s c.hdr.volume).filter (fun k => states.contains (rsh s k).state) = some k := by
    rw [hslot]
    exact if_pos (List.contains_iff_mem.2 hst)
  have hact : reshapeAct s tag action states = modCmd (modRsh s k (fun r => { r with reqs := r.reqs ++ [(action, tag)] })) tag (fun c => { c with phase := .busy }) := by
    simp only [reshapeAct, hc, hfound]
  rw [hact]
  exact ⟨rsh_modRsh_same (fun r => { r with reqs := r.reqs ++ [(action, tag)] }) (slot_of_rsh (state_of_slotOf hslot)),
    findCmd_modCmd_of_hdr (f := fun c => { c with phase := .busy }) (fun _ => rfl) (findCmd_of_reshapeCmd hc), by simp [OnlyIn]⟩

/-- Pause, Resume or Cancel without such a slot: NoReshape. -/
theorem reshapeAct_refused {s : State} {tag action : Nat} {states : List Nat} {c : Cmd} (hc : reshapeCmd s tag action = some c)
    (hslot : (slotOf s c.hdr.volume).filter (fun k => states.contains (rsh s k).state) = none) :
    Ended (reshapeAct s tag action states) tag 0x10 0x0F [0xFF] ∧ (reshapeAct s tag action states).reshapes = s.reshapes := by
  have hact : reshapeAct s tag action states = finish s tag 0x10 0x0F refusedSlot := by simp only [reshapeAct, hc, hslot]
  rw [hact]
  exact ⟨ended_finish _ _ _ (findCmd_of_reshapeCmd hc), finish_reshapes ..⟩

/-! ### RESHAPE_RECORD_ACK (R179) -/

theorem bookSlot_registry_slot {s : State} {k : Nat} (hk : k < 4) (h4 : s.registry.reshapes.length = 4) : ((bookSlot s k).registry.reshapes.drop k).headD {} = rsh (bookSlot s k) k := by
  have hsome : s.registry.reshapes.isEmpty = false := by
    rw [List.isEmpty_eq_false_iff, ← List.length_pos_iff]
    omega
  simp only [bookSlot, hsome]
  exact modAt_drop_headD _ _ _ _ (h4 ▸ hk)

theorem runs_reshapeRecordAck {k : Nat} {acks : List Nat} {s : State} (hk : k < 4) (hst : (rsh s k).state = 1) (hbuilt : (rsh s k).built = true) (hm : majority s acks = true) :
    Runs (.reshapeRecordAck k acks) s (fun t => rsh t k = { rsh s k with acked := true } ∧ (s.registry.reshapes.length = 4 → (t.registry.reshapes.drop k).headD {} = rsh t k) ∧
      OnlyIn [.reshapes, .registry] s t) := by
  have hslot : k < s.reshapes.slots.length := slot_of_rsh (by rw [hst]; decide)
  set u := modRsh s k (fun r => { r with acked := true }) with hu
  exact ⟨bookSlot u k, congrArg Host.Outcome.next (if_pos (by simp [hk, hst, hbuilt, hm])), rsh_modRsh_same _ hslot, bookSlot_registry_slot (s := u) hk, by simp [OnlyIn, hu]⟩

theorem exec_reshapeRecordAck_unheld {k : Nat} {acks : List Nat} {s : State} (h : (rsh s k).built = false ∨ majority s acks = false) : exec (.reshapeRecordAck k acks) s = .next s := by
  refine congrArg Host.Outcome.next (if_neg ?_)
  rcases h with h | h <;> simp [h]

/-! ### DEVICE_STARTED_RESHAPE (R180) -/

theorem runs_deviceStartedReshape {v g k : Nat} {d : VolumeDef} {s : State} (hop : opfin s = true) (hd : volDef s v = some d) (hflag : bit d.flags 0 = true) (hfeat : feature s 5 = 1)
    (hlong : longDegraded s (vol s v).layout = true) (hfree : v ∉ s.reshapes.barred) (hret : retires s = true)
    (hg : minOf (((s.ch (·.layouts) []).filter (fun l => l.fallback = (vol s v).layout && (startRefusal s v l.index).isNone)).map (fun l => l.index)) = some g) (hslots : s.reshapes.slots.length = 4)
    (hk : (List.range 4).find? (fun k => (rsh s k).state = 0) = some k) :
    Runs (.deviceStartedReshape v) s (fun t => rsh t k = startingSlot s v g none true ∧ OnlyIn [.reshapes, .daybook] s t) := by
  set t := fire (takeSlot s v g none true) 0x0D 1 v (natLe 1 (vol s v).layout ++ natLe 1 g) false
  have hgo : deviceReshape s v = t := by
    simp only [deviceReshape, hg]
    exact if_pos (by simp [hd, hflag, hfeat, hlong, hfree, hret])
  have hreshapes : t.reshapes = (takeSlot s v g none true).reshapes := same_reshapes (ps := [.daybook]) (by simp [t]) (by decide)
  exact ⟨t, congrArg Host.Outcome.next ((if_pos hop).trans hgo), (rsh_of_reshapes hreshapes k).trans (rsh_takeSlot v g none true hslots hk).1, by simp [OnlyIn, t]⟩

theorem exec_deviceStartedReshape_disabled {v : Nat} {s : State} (h : feature s 5 ≠ 1) : exec (.deviceStartedReshape v) s = .next s := by
  have hstay : deviceReshape s v = s := if_neg (by simp [h])
  exact congrArg Host.Outcome.next (by rw [hstay, ite_self])

/-! ### REGION_COPY (R181, R182, R187) -/

/-- Step 1 of a work that takes its hold first asks for no window. -/
theorem stepOne_gov_of_holdsFirst {s : State} {id : Nat} {w : Work} (hw : findWork s id = some w) (hfirst : holdsFirst w = true) (hheld : w.held = false) : (stepOne s id).gov = s.gov := by
  unfold stepOne
  simp only [hw, hfirst, Bool.true_or, if_true, hheld]
  split
  · rfl
  split
  · rfl
  split
  · rfl
  split <;> rfl

/-- The work of a copied row, and what is asked of the governor meanwhile. -/
theorem addWork_reshape {s : State} {volume row k : Nat} {l : Layout} (hnum : worksNumbered s) :
    (∃ w ∈ (addWork s (.reshape k) volume l row [] [] [] [] false []).works, w.kind = .reshape k ∧ w.row = row) ∧ (addWork s (.reshape k) volume l row [] [] [] [] false []).gov = s.gov := by
  obtain ⟨⟨n, hw⟩, -⟩ := addWork_of_holdsFirst (kind := .reshape k) (volume := volume) (l := l) (row := row) (news := []) (wants := []) hnum rfl
  exact ⟨⟨_, List.mem_of_find?_eq_some hw, rfl, rfl⟩, stepOne_gov_of_holdsFirst (findWork_append_new (w := newWork s (.reshape k) volume l row [] []) hnum rfl rfl) rfl rfl⟩

/-- The demand for the windows of a row. -/
def copyAsked (s : State) (k : Nat) (l : Layout) (row : Nat) : State := setDemand s 6 (copyGroups s k l row) (.reshape k)

theorem mem_copyAsked (s : State) (k : Nat) (l : Layout) (row : Nat) : ∃ x ∈ (copyAsked s k l row).gov.demands, x.of = .reshape k ∧ x.cls = 6 :=
  ⟨_, List.mem_append_right _ (List.mem_singleton_self _), rfl, rfl⟩

theorem copyRow_eq (s : State) (k row : Nat) (d : VolumeDef) (l : Layout) :
    copyRow s k row d l = if (copyGroups s k l row).all (serves s) && copyMay (copyAsked s k l row) (copyGroups s k l row)
      then addWork (copyAsked s k l row) (.reshape k) d.volume l row [] [] [] [] false [] else copyAsked s k l row := rfl

/-- The next row of a region has its windows asked for, and its work once they stand and the copy may go. -/
theorem copyRow_spec {s : State} {k row : Nat} {d : VolumeDef} {l : Layout} (hnum : worksNumbered s) :
    (∃ x ∈ (copyRow s k row d l).gov.demands, x.of = .reshape k ∧ x.cls = 6) ∧
    ((copyGroups s k l row).all (serves s) = true → copyMay (copyAsked s k l row) (copyGroups s k l row) = true → ∃ w ∈ (copyRow s k row d l).works, w.kind = .reshape k ∧ w.row = row) := by
  obtain ⟨hwork, hgov⟩ := addWork_reshape (s := copyAsked s k l row) (volume := d.volume) (row := row) (k := k) (l := l) hnum
  rw [copyRow_eq]
  split
  · exact ⟨by rw [hgov]; exact mem_copyAsked s k l row, fun _ _ => hwork⟩
  next hno => exact ⟨mem_copyAsked s k l row, fun hall hmay => absurd (Bool.and_eq_true_iff.2 ⟨hall, hmay⟩) hno⟩

theorem copyRow_reshapes (s : State) (k row : Nat) (d : VolumeDef) (l : Layout) : (copyRow s k row d l).reshapes = s.reshapes := same_reshapes (ps := allBut [.reshapes]) (by simp [allBut]) (by decide)

theorem startRegion_started {s : State} {k : Nat} (h : (rsh s k).region ∈ (rsh s k).started) : startRegion s k = s := if_pos (List.contains_iff_mem.2 h)

/-- A region that is to be copied is among those that dual landing covers (R183). -/
theorem mem_startRegion {s : State} {k : Nat} (hslot : k < s.reshapes.slots.length) : (rsh s k).region ∈ (rsh (startRegion s k) k).started := by
  by_cases h : (rsh s k).region ∈ (rsh s k).started
  · rwa [startRegion_started h]
  have hrsh : rsh (startRegion s k) k = { rsh s k with started := (rsh s k).started ++ [(rsh s k).region] } := by
    refine (rsh_of_reshapes ?_ k).trans (rsh_modRsh_same (fun r => { r with started := r.started ++ [r.region] }) hslot)
    rw [startRegion, if_neg (by simpa using h)]
  rw [hrsh]
  exact List.mem_append_right _ (List.mem_singleton_self _)

/-- A slot whose copy goes on (R181, R187). -/
structure Copies (s : State) (k : Nat) (d : VolumeDef) (l : Layout) : Prop where
  volume : volDef s (rsh s k).volume = some d
  target : layoutOf s (rsh s k).target = some l
  copying : (rsh s k).state = 2
  unfinished : (rsh s k).regionDone = false
  unasked : (rsh s k).reqs = []
  idle : ∀ w ∈ s.works, w.kind ≠ .reshape k
  goes : yieldCause s (rsh s k) = 0
  left : (copyRegions s k).any (fun x => decide ((rsh s k).region ≤ x)) = true

/-- The next row of the region is copied, or the region has none left. -/
def copyNext (s : State) (k region row : Nat) (d : VolumeDef) (l : Layout) : State :=
  match (regionRows s k region)[row]? with
  | some n => copyRow s k n d l
  | none => modRsh s k (fun r => { r with regionDone := true })

theorem noReshapeWork {s : State} {k : Nat} (hidle : ∀ w ∈ s.works, w.kind ≠ .reshape k) : s.works.any (fun w => decide (w.kind = .reshape k)) = false :=
  List.any_eq_false.2 fun w hw => by simpa using hidle w hw

/-- No further row starts (R181, R187). -/
def copyStops (s : State) (k : Nat) : Bool :=
  (rsh s k).state ≠ 2 || (rsh s k).regionDone || !(rsh s k).reqs.isEmpty || yieldCause s (rsh s k) ≠ 0 || !(copyRegions s k).any (fun x => decide ((rsh s k).region ≤ x))

theorem regionCopy_of_idle {s : State} {k : Nat} {d : VolumeDef} {l : Layout} (hd : volDef s (rsh s k).volume = some d) (hl : layoutOf s (rsh s k).target = some l) (hidle : ∀ w ∈ s.works, w.kind ≠ .reshape k) :
    regionCopy s k = if copyStops s k then s else copyNext (startRegion s k) k (rsh s k).region (rsh s k).row d l := by
  simp only [regionCopy, hd, hl, noReshapeWork hidle]
  rfl

theorem regionCopy_of_copies {s : State} {k : Nat} {d : VolumeDef} {l : Layout} (h : Copies s k d l) :
    regionCopy s k = copyNext (startRegion s k) k (rsh s k).region (rsh s k).row d l := by
  rw [regionCopy_of_idle h.volume h.target h.idle]
  exact if_neg (by simp [copyStops, h.copying, h.unfinished, h.unasked, h.goes, h.left])

theorem regionCopy_of_stops {s : State} {k : Nat} (hidle : ∀ w ∈ s.works, w.kind ≠ .reshape k) (h : copyStops s k = true) : regionCopy s k = s := by
  cases hd : volDef s (rsh s k).volume with
  | none => simp only [regionCopy, hd]
  | some d =>
    cases hl : layoutOf s (rsh s k).target with
    | none => simp only [regionCopy, hd, hl]
    | some l => rw [regionCopy_of_idle hd hl hidle, if_pos h]

theorem mem_started_copyNext {s : State} {k region : Nat} (row : Nat) (d : VolumeDef) (l : Layout) (h : region ∈ (rsh s k).started) :
    region ∈ (rsh (copyNext s k region row d l) k).started := by
  unfold copyNext
  split
  · rwa [rsh_of_reshapes (copyRow_reshapes ..)]
  · rwa [rsh_modRsh_same _ (slot_of_started h)]

theorem runs_regionCopy {k : Nat} {d : VolumeDef} {l : Layout} {s : State} (hk : k < 4) (h : Copies s k d l) :
    Runs (.regionCopy k) s (fun t => (rsh s k).region ∈ (rsh t k).started ∧ ((rsh s k).region ∈ (rsh s k).started →
      ((regionRows s k (rsh s k).region)[(rsh s k).row]? = none → rsh t k = { rsh s k with regionDone := true } ∧ t.works = s.works) ∧
      (∀ row, (regionRows s k (rsh s k).region)[(rsh s k).row]? = some row → worksNumbered s →
        (∃ x ∈ t.gov.demands, x.of = .reshape k ∧ x.cls = 6) ∧
        ((copyGroups s k l row).all (serves s) = true → copyMay (copyAsked s k l row) (copyGroups s k l row) = true → ∃ w ∈ t.works, w.kind = .reshape k ∧ w.row = row)))) := by
  have hslot : k < s.reshapes.slots.length := slot_of_rsh (by rw [h.copying]; decide)
  refine ⟨_, congrArg Host.Outcome.next ((if_pos hk).trans (regionCopy_of_copies h)), mem_started_copyNext _ d l (mem_startRegion hslot), fun hstarted => ?_⟩
  rw [startRegion_started hstarted, copyNext]
  constructor
  · intro hnone
    rw [hnone]
    exact ⟨rsh_modRsh_same _ hslot, rfl⟩
  · intro row hrow hnum
    rw [hrow]
    exact copyRow_spec hnum

theorem exec_regionCopy_stopped {k : Nat} {s : State} (hidle : ∀ w ∈ s.works, w.kind ≠ .reshape k) (h : (rsh s k).state ≠ 2 ∨ yieldCause s (rsh s k) ≠ 0) : exec (.regionCopy k) s = .next s := by
  have hstops : copyStops s k = true := by rcases h with h | h <;> simp [copyStops, h]
  exact congrArg Host.Outcome.next (by rw [regionCopy_of_stops hidle hstops, ite_self])

/-- Settles O40: a Start writes the slot that it takes, a request is kept in its slot, and a region's next row is asked for on the state that the region's start leaves. -/
theorem reshapesRun : Obligations.ReshapesRun := by
  refine ⟨?_, ?_, ?_, ?_, ?_, ?_, ?_, ?_, ?_, ?_⟩
  · exact fun _ _ _ _ => runs_reshapeStart_refused
  · exact fun _ _ _ _ => runs_reshapeStart
  · intro tag k c s hslot
    have hbusy := state_of_slotOf hslot
    refine ⟨fun hc hst => ?_, fun hc hst => ?_, fun hc hst => ?_⟩
    · exact ⟨_, rfl, reshapeAct_registered hc hslot (by simpa using hst)⟩
    · exact ⟨_, rfl, reshapeAct_registered hc hslot (by simp [hst])⟩
    · exact ⟨_, rfl, reshapeAct_registered hc hslot (by simp only [List.mem_cons, List.not_mem_nil]; omega)⟩
  · intro tag c s hslot
    have hnone (states : List Nat) : (slotOf s c.hdr.volume).filter (fun k => states.contains (rsh s k).state) = none := by
      rw [hslot]
      rfl
    exact ⟨fun hc => ⟨_, rfl, reshapeAct_refused hc (hnone _)⟩, fun hc => ⟨_, rfl, reshapeAct_refused hc (hnone _)⟩, fun hc => ⟨_, rfl, reshapeAct_refused hc (hnone _)⟩⟩
  · exact fun _ _ _ => runs_reshapeRecordAck
  · exact fun _ _ _ => exec_reshapeRecordAck_unheld
  · exact fun _ _ _ _ _ => runs_deviceStartedReshape
  · exact fun _ _ => exec_deviceStartedReshape_disabled
  · intro k d l s hk hd hl hcopying hunfinished hunasked hidle hgoes hleft
    exact runs_regionCopy hk ⟨hd, hl, hcopying, hunfinished, hunasked, hidle, hgoes, hleft⟩
  · exact fun _ _ => exec_regionCopy_stopped

end Sys2Proof.Machine
end

section
namespace Sys2Proof.Machine

/-! ## Holds of rows (O32) -/

theorem holds_of_frame {s t : State} (h : t.outside (allBut [.holds]) = s.outside (allBut [.holds])) : t.holds = s.holds := same_holds h (by decide)

@[simp] theorem toPostings_holds (s : State) (id : Nat) : (toPostings s id).holds = s.holds := holds_of_frame (by simp [allBut])
@[simp] theorem planWork_holds (s : State) (id : Nat) : (planWork s id).holds = s.holds := holds_of_frame (by simp [allBut])
@[simp] theorem startReads_holds (s : State) (id : Nat) : (startReads s id).holds = s.holds := holds_of_frame (by simp [allBut])

@[simp] theorem modWork_holds (s : State) (id : Nat) (f : Work → Work) : (modWork s id f).holds = s.holds := rfl

theorem findWork_modWork_other {s : State} {id o : Nat} (f : Work → Work) (hf : ∀ x, (f x).id = x.id) (h : o ≠ id) : findWork (modWork s id f) o = findWork s o := by
  have hid : ∀ x : Work, decide (x.id = id) = true → decide (x.id = o) = false := fun x hx => by
    rw [of_decide_eq_true hx]
    exact decide_eq_false h.symm
  exact find?_modIf_other _ _ f (fun x hx => by rw [hf]; exact hid x hx) hid s.works

/-- A grant writes the work behind the holds of the table and takes nothing from those that wait, whatever the work does next (R205). -/
theorem grantHold_table {s : State} {id : Nat} {w : Work} (hw : findWork s id = some w) :
    (grantHold s id).holds.held = s.holds.held ++ [(w.layout, w.row, id)] ∧ (grantHold s id).holds.waiting = s.holds.waiting := by
  unfold grantHold
  simp only [hw]
  split
  · simp
  split
  · split <;> simp
  · simp

/-! ### HOLD_REQUEST (R203, R204) -/

/-- A destage at step 3 that has no hold and does not wait for one. -/
structure WantsHold (s : State) (id : Nat) (w : Work) : Prop where
  found : findWork s id = some w
  unheld : w.held = false
  destage : w.kind = .destage
  step : w.step = 3
  unasked : ∀ e ∈ s.holds.waiting, e.work ≠ id

theorem holdRequest_of_wants {s : State} {id : Nat} {w : Work} (h : WantsHold s id w) :
    holdRequest s id = if holdFree s w.layout w.row then grantHold s id else holdWait s w.layout w.row id := by
  have hunasked : s.holds.waiting.any (fun e => e.work = id) = false := by simpa using h.unasked
  simp [holdRequest, h.found, h.unheld, h.step, hunasked]

theorem holdFree_of_open {s : State} {layout row : Nat} (hnone : heldBy s layout row = none) (hroom : s.holds.held.length < 4096) : holdFree s layout row = true := by
  simp [holdFree, hnone, hroom]

theorem holdFree_of_taken {s : State} {layout row o : Nat} (h : heldBy s layout row = some o) : holdFree s layout row = false := by simp [holdFree, h]

theorem holdFree_of_full {s : State} {layout row : Nat} (h : 4096 ≤ s.holds.held.length) : holdFree s layout row = false := by simp [holdFree, h]

/-- A wait stands behind those of earlier cycles. -/
theorem holdWait_of_earlier {s : State} {layout row id : Nat} (h : ∀ e ∈ s.holds.waiting, e.cycle < absCycle s) :
    holdWait s layout row id = { s with holds := { s.holds with
      waiting := s.holds.waiting ++ [⟨layout, row, id, absCycle s, (heldBy s layout row).isSome⟩]
      waits := if (heldBy s layout row).isSome then inc 0xFFFF s.holds.waits else s.holds.waits
      tableFull := if (heldBy s layout row).isSome then s.holds.tableFull else inc 0xFFFF s.holds.tableFull } } := by
  have hbefore : s.holds.waiting.filter (fun x => x.cycle < absCycle s || x.work < id) = s.holds.waiting := List.filter_eq_self.2 fun e he => by simp [h e he]
  have hbehind : s.holds.waiting.filter (fun x => !(x.cycle < absCycle s || x.work < id)) = [] := List.filter_eq_nil_iff.2 fun e he => by simp [h e he]
  simp only [holdWait, hbefore, hbehind]

theorem runs_holdRequest_granted {s : State} {id : Nat} {w : Work} (h : WantsHold s id w) (hnone : heldBy s w.layout w.row = none) (hroom : s.holds.held.length < 4096) :
    Runs (.holdRequest id) s (fun t => t.holds.held = s.holds.held ++ [(w.layout, w.row, id)] ∧ t.holds.waiting = s.holds.waiting) := by
  refine ⟨_, congrArg Host.Outcome.next ((holdRequest_of_wants h).trans (if_pos (holdFree_of_open hnone hroom))), grantHold_table h.found⟩

theorem exec_holdRequest_waits {s : State} {id : Nat} {w : Work} (h : WantsHold s id w) (hfree : holdFree s w.layout w.row = false) :
    exec (.holdRequest id) s = .next (holdWait s w.layout w.row id) :=
  congrArg Host.Outcome.next ((holdRequest_of_wants h).trans (if_neg (by simp [hfree])))

/-- Of two requests of one cycle the lower-numbered work stands first (R204). -/
theorem runs_holdRequest_lower {s : State} {id o : Nat} {w : Work} {e : HoldWait} (h : WantsHold s id w) (hone : s.holds.waiting = [e]) (hcycle : e.cycle = absCycle s) (hlower : id < e.work)
    (hheld : heldBy s w.layout w.row = some o) :
    Runs (.holdRequest id) s (fun t => t.holds.waiting = [⟨w.layout, w.row, id, absCycle s, true⟩, e] ∧ OnlyIn [.holds] s t) := by
  refine ⟨_, exec_holdRequest_waits h (holdFree_of_taken hheld), ?_, by simp [OnlyIn]⟩
  have hbehind : (decide (e.cycle < absCycle s) || decide (e.work < id)) = false := by simp [hcycle, hlower.le]
  simp only [holdWait, hone, hheld, List.filter_cons, hbehind, Option.isSome_some]
  rfl

theorem exec_holdRequest_held {s : State} {id : Nat} {w : Work} (hw : findWork s id = some w) (hheld : w.held = true) : exec (.holdRequest id) s = .next s :=
  congrArg Host.Outcome.next (by simp [holdRequest, hw, hheld])

/-! ### HOLD_RELEASE (R203–R205) -/

/-- A work's hold is gone from the table, and the counter of its row has advanced. -/
def holdGone (s : State) (w : Work) (id : Nat) : State :=
  { modWork s id (fun w => { w with held := false }) with
    holds := { s.holds with held := s.holds.held.filter (fun h => h.2.2 ≠ id), gens := tmod 0 s.holds.gens (genIndex w) (· + 1) } }

theorem holdRelease_of_held {s : State} {id : Nat} {w : Work} (hw : findWork s id = some w) (hheld : w.held = true) : holdRelease s id = grantWaiting (holdGone s w id) := by
  simp only [holdRelease, hw, hheld, Bool.not_true, Bool.false_eq_true, if_false]
  rfl

theorem grantWaiting_of_none {s : State} (h : s.holds.waiting = []) : grantWaiting s = s := by simp [grantWaiting, h]

/-- The one work that waits has the hold, its row being free. -/
theorem grantWaiting_of_free {s : State} {e : HoldWait} (hone : s.holds.waiting = [e]) (hfree : holdFree s e.layout e.row = true) :
    ∃ u, grantWaiting s = grantHold u e.work ∧ u.holds.held = s.holds.held ∧ u.holds.waiting = [] ∧ u.works = s.works := by
  have hfind : s.holds.waiting.find? (fun e => holdFree s e.layout e.row) = some e := by simp [hone, hfree]
  have hleft : s.holds.waiting.filter (fun x => x.work ≠ e.work) = [] := by simp [hone]
  rw [grantWaiting, hfind]
  exact ⟨_, rfl, rfl, hleft, rfl⟩

theorem grantWaiting_table {s : State} {e : HoldWait} {x : Work} (hone : s.holds.waiting = [e]) (hfree : holdFree s e.layout e.row = true) (hx : findWork s e.work = some x) :
    (grantWaiting s).holds.held = s.holds.held ++ [(x.layout, x.row, e.work)] ∧ (grantWaiting s).holds.waiting = [] := by
  obtain ⟨u, hgrant, hheld, hleft, hworks⟩ := grantWaiting_of_free hone hfree
  obtain ⟨htable, hwaiting⟩ := grantHold_table ((findWork_of_works hworks e.work).trans hx)
  rw [hgrant, htable, hwaiting, hheld, hleft]
  exact ⟨rfl, rfl⟩

theorem findWork_dropWork (s : State) (id : Nat) : findWork (dropWork s id) id = none := List.find?_eq_none.2 (by simp [dropWork])

theorem dropWork_holds (s : State) (id : Nat) : (dropWork s id).holds = { (holdRelease s id).holds with waiting := (holdRelease s id).holds.waiting.filter (fun e => e.work ≠ id) } := rfl

theorem exec_holdRelease_done {s : State} {id : Nat} {w : Work} (hw : findWork s id = some w) (hstep : w.step = 5) : exec (.holdRelease id) s = .next (dropWork s id) :=
  congrArg Host.Outcome.next (by simp [hw, hstep])

theorem exec_holdRelease_undone {s : State} {id : Nat} {w : Work} (hw : findWork s id = some w) (hstep : w.step ≠ 5) : exec (.holdRelease id) s = .next s :=
  congrArg Host.Outcome.next (by simp [hw, hstep])

theorem runs_holdRelease_alone {s : State} {id : Nat} {w : Work} (hw : findWork s id = some w) (hstep : w.step = 5) (hheld : w.held = true) (hnone : s.holds.waiting = []) :
    Runs (.holdRelease id) s (fun t => findWork t id = none ∧ t.holds.held = s.holds.held.filter (fun h => h.2.2 ≠ id) ∧ t.holds.gens = tmod 0 s.holds.gens (genIndex w) (· + 1) ∧
      t.ledger = s.ledger) := by
  have hrel : holdRelease s id = holdGone s w id := (holdRelease_of_held hw hheld).trans (grantWaiting_of_none hnone)
  refine ⟨_, exec_holdRelease_done hw hstep, findWork_dropWork s id, ?_, ?_, ledger_of_frame (by simp [allBut])⟩
  · simp [dropWork_holds, hrel, holdGone]
  · simp [dropWork_holds, hrel, holdGone]

/-- The row goes to the work that waits for it (R204, R205). -/
theorem runs_holdRelease_next {s : State} {id : Nat} {w x : Work} {e : HoldWait} (hw : findWork s id = some w) (hstep : w.step = 5) (hheld : w.held = true)
    (hown : s.holds.held = [(w.layout, w.row, id)]) (hone : s.holds.waiting = [e]) (hother : e.work ≠ id) (hx : findWork s e.work = some x) (hrow : x.layout = w.layout ∧ x.row = w.row) :
    Runs (.holdRelease id) s (fun t => findWork t id = none ∧ t.holds.held = [(w.layout, w.row, e.work)] ∧ t.holds.waiting = []) := by
  have hempty : (holdGone s w id).holds.held = [] := by simp [holdGone, hown]
  have hfree : holdFree (holdGone s w id) e.layout e.row = true := holdFree_of_open (by simp [heldBy, hempty]) (by simp [hempty])
  have hxgone : findWork (holdGone s w id) e.work = some x := (findWork_modWork_other (fun w => { w with held := false }) (fun _ => rfl) hother).trans hx
  obtain ⟨htaken, hwaiting⟩ := grantWaiting_table (s := holdGone s w id) hone hfree hxgone
  refine ⟨_, exec_holdRelease_done hw hstep, findWork_dropWork s id, ?_, ?_⟩
  · rw [dropWork_holds, holdRelease_of_held hw hheld, htaken, hempty, hrow.1, hrow.2, List.nil_append]
  · rw [dropWork_holds, holdRelease_of_held hw hheld, hwaiting, List.filter_nil]

/-- Settles O32: a grant and a wait change the table alone, and a release hands the row to the work that waits. -/
theorem holdsAreGranted : Obligations.HoldsAreGranted := by
  refine ⟨?_, ?_, ?_, ?_, ?_, ?_, ?_, ?_⟩
  · exact fun _ _ _ hw hheld hkind hstep hwait => runs_holdRequest_granted ⟨hw, hheld, hkind, hstep, hwait⟩
  · intro id o w s hw hheld hkind hstep hwait htaken
    rw [exec_holdRequest_waits ⟨hw, hheld, hkind, hstep, fun e he => (hwait e he).1⟩ (holdFree_of_taken htaken), holdWait_of_earlier fun e he => (hwait e he).2]
    simp [htaken]
  · intro id o w e s hw hheld hkind hstep hone hcycle hlower htaken
    exact runs_holdRequest_lower ⟨hw, hheld, hkind, hstep, by simpa [hone] using hlower.ne'⟩ hone hcycle hlower htaken
  · intro id w s hw hheld hkind hstep hwait hnone hfull
    rw [exec_holdRequest_waits ⟨hw, hheld, hkind, hstep, fun e he => (hwait e he).1⟩ (holdFree_of_full hfull), holdWait_of_earlier fun e he => (hwait e he).2]
    simp [hnone]
  · exact fun _ _ _ => exec_holdRequest_held
  · exact fun _ _ _ => runs_holdRelease_alone
  · intro id o w x e s hw hstep hheld hown hone _ _ heo hother hx hlayout hrow
    subst heo
    exact runs_holdRelease_next hw hstep hheld hown hone hother hx ⟨hlayout, hrow⟩
  · exact fun _ _ _ => exec_holdRelease_undone

end Sys2Proof.Machine
end

section
namespace Sys2Proof.Machine

/-! ## Tellers and the scratch memory (O42) -/

/-! ### TELLER_SELF_TEST (R214) -/

@[simp] theorem tphys_setTeller_same (s : State) (p st : Nat) (f : Teller → Teller) : tphys (setTeller s p st f) p = f { tphys s p with state := st, eventClose := s.now } := by
  simp [tphys, setTeller]

theorem tphys_setTeller_other (s : State) {p q : Nat} (st : Nat) (f : Teller → Teller) (h : q ≠ p) : tphys (setTeller s p st f) q = tphys s q := by
  simp [tphys, setTeller, tget_tmod_other, h.symm]

/-- Only the entry of a failed test (action 3) counts in the register of failed tests. -/
theorem history_testFailed (s : State) (element action cause physical logical : Nat) :
    (history s element action cause physical logical).reserves.testFailed = if action = 3 then inc 0xFFFF s.reserves.testFailed else s.reserves.testFailed := by
  simp only [history]
  split <;> simp only [mgmtCause_reserves, fire_reserves]

theorem tellersExhausted_testFailed (s : State) (p : Nat) : (tellersExhausted s p).reserves.testFailed = s.reserves.testFailed := by
  unfold tellersExhausted
  split
  · rw [fire_reserves, history_testFailed, if_neg (by decide)]
  · rfl

theorem tellerSelfTest_failed {s : State} {p : Nat} (h : minOf (testing s) = some p) : tellerSelfTest s false = tellersExhausted (history (setTeller s p 4 id) 1 3 7 p noLogical) p := by
  simp [tellerSelfTest, h]

theorem runs_tellerSelfTest_failed {s : State} {p : Nat} (h : minOf (testing s) = some p) :
    Runs (.tellerSelfTest false) s (fun t => (tphys t p).state = 4 ∧ t.tellers.admitDue = s.tellers.admitDue ∧ t.tellers.slots = s.tellers.slots ∧
      t.reserves.testFailed = inc 0xFFFF s.reserves.testFailed) := by
  have htellers : (tellersExhausted (history (setTeller s p 4 id) 1 3 7 p noLogical) p).tellers = (setTeller s p 4 id).tellers :=
    same_tellers (ps := [.ints, .link, .daybook, .reserves, .hostMem]) (by simp) (by decide)
  refine ⟨_, congrArg Host.Outcome.next (tellerSelfTest_failed h), ?_, ?_, ?_, ?_⟩
  · rw [tphys, htellers, ← tphys, tphys_setTeller_same]
    rfl
  · rw [htellers]
    rfl
  · rw [htellers]
    rfl
  · rw [tellersExhausted_testFailed, history_testFailed, if_pos rfl]
    rfl

theorem exec_tellerSelfTest_passed {s : State} {p x : Nat} {r : List Nat} (h : minOf (testing s) = some p)
    (hvacant : s.tellers.vacant.filter (fun x => !s.tellers.admitDue.any (fun d => d.2 = x)) = x :: r) :
    exec (.tellerSelfTest true) s = .next { s with tellers := { s.tellers with admitDue := s.tellers.admitDue ++ [(p, x)] } } := by
  simp only [exec, execTellerSelfTest, tellerSelfTest, h, hvacant, if_true]

theorem exec_tellerSelfTest_none {s : State} (pass : Bool) (h : testing s = []) : exec (.tellerSelfTest pass) s = .next s :=
  congrArg Host.Outcome.next (by simp [tellerSelfTest, h, minOf])

/-! ### BRANCH_GATING (R216) -/

/-- One logical number of a branch that is gated: its teller, when Active, is Gated. -/
def gateOne (s : State) (x : Nat) : State :=
  match (tslot s x).phys with
  | some p => if (tphys s p).state = 0 then setTeller s p 1 id else s
  | none => s

theorem gateBranch_eq (s : State) (b : Nat) : gateBranch s b = (membersOfBranch b).foldl gateOne (modBranch s b (fun r => { r with gated := true })) := rfl

theorem gateOne_slots (s : State) (x : Nat) : (gateOne s x).tellers.slots = s.tellers.slots := by
  unfold gateOne
  split
  · split <;> rfl
  · rfl

theorem gateOne_branches (s : State) (x : Nat) : (gateOne s x).tellers.branches = s.tellers.branches := by
  unfold gateOne
  split
  · split <;> rfl
  · rfl

theorem gateOne_outside {ps : List Part} (s : State) (x : Nat) (h : .tellers ∈ ps) : (gateOne s x).outside ps = s.outside ps := by
  unfold gateOne
  split
  · split
    · exact setTeller_outside s _ _ _ h
    · rfl
  · rfl

theorem tphys_gateOne (s : State) (x p : Nat) : (tphys (gateOne s x) p).state = if (tslot s x).phys = some p ∧ (tphys s p).state = 0 then 1 else (tphys s p).state := by
  unfold gateOne
  split
  next q hq =>
    by_cases hqp : p = q
    · subst hqp
      split
      next h0 => simp [h0, hq]
      next h0 => simp [h0]
    · have hother : ¬(some q = some p ∧ (tphys s p).state = 0) := fun h => hqp (Option.some.inj h.1).symm
      rw [hq, if_neg hother]
      split
      · rw [tphys_setTeller_other s 1 id hqp]
      · rfl
  next hnone => simp [hnone]

/-- A teller that is Gated, or Active in a place of the list, is Gated once the list has been walked. -/
theorem tphys_foldl_gateOne (xs : List Nat) {s : State} {p : Nat} (h : (tphys s p).state = 1 ∨ ((tphys s p).state = 0 ∧ ∃ x ∈ xs, (tslot s x).phys = some p)) :
    (tphys (xs.foldl gateOne s) p).state = 1 := by
  induction xs generalizing s with
  | nil => simpa using h
  | cons x xs ih =>
    have hslot : ∀ y, tslot (gateOne s x) y = tslot s y := fun y => by rw [tslot, gateOne_slots, ← tslot]
    refine ih ?_
    simp only [tphys_gateOne, hslot]
    rcases h with h1 | ⟨h0, y, hy, hp⟩
    · exact .inl (by simp [h1])
    · by_cases hx : (tslot s x).phys = some p
      · exact .inl (if_pos ⟨hx, h0⟩)
      · rw [if_neg fun h => hx h.1]
        exact .inr ⟨h0, y, (List.mem_cons.1 hy).resolve_left fun h => hx (h ▸ hp), hp⟩

theorem gateBranch_slots (s : State) (b : Nat) : (gateBranch s b).tellers.slots = s.tellers.slots := by
  rw [gateBranch_eq]
  exact foldl_keeps (fun s => s.tellers.slots) (s := modBranch s b (fun r => { r with gated := true })) gateOne_slots

theorem gateBranch_branches (s : State) (b : Nat) : (gateBranch s b).tellers.branches = (modBranch s b (fun r => { r with gated := true })).tellers.branches := by
  rw [gateBranch_eq]
  exact foldl_keeps (fun s => s.tellers.branches) gateOne_branches

theorem runs_branchGating {s : State} {b : Nat} (hgoes : s.power.state = 1) (hb : b < 16) (hawake : (tbranch s b).gated = false) (hidle : branchIdle s b = true)
    (hlong : (tbranch s b).idleSince + s.ch (·.branchIdle) 125 ≤ s.now) :
    Runs (.branchGating b) s (fun t => (tbranch t b).gated = true ∧ (∀ x ∈ membersOfBranch b, ∀ p, (tslot s x).phys = some p → (tphys s p).state = 0 → (tphys t p).state = 1) ∧
      t.tellers.slots = s.tellers.slots ∧ OnlyIn [.tellers] s t) := by
  refine ⟨gateBranch s b, congrArg Host.Outcome.next (if_pos (by simp [hgoes, hb, hawake, hidle, hlong])), ?_, fun x hx p hp h0 => ?_, gateBranch_slots s b, ?_⟩
  · rw [tbranch, gateBranch_branches]
    simp [modBranch]
  · exact tphys_foldl_gateOne _ (.inr ⟨h0, x, hx, hp⟩)
  · exact outside_foldl fun u x => gateOne_outside u x (by decide)

/-! ### Who is served in a scratch cycle (R219, R220) -/

/-- An access that its banks can serve: it may touch what it names, and every bank of it is On. -/
structure Servable (s : State) (a : ScrAccess) : Prop where
  touches : mayTouch s a = true
  banks : (accBanks s a).length = (accWords a).length
  on : ∀ b ∈ accBanks s a, (bank s b).state = 0

theorem accWords_ne_nil (a : ScrAccess) : accWords a ≠ [] := by
  unfold accWords
  have hle : ∀ len, a.addr / 64 ≤ (a.addr + max 1 len - 1) / 64 := fun len => Nat.div_le_div_right (by omega)
  intro h
  simp only [List.take_eq_nil_iff, List.map_eq_nil_iff, List.range_eq_nil] at h
  have := hle (match a.write with
    | some d => d.length
    | none => a.len)
  omega

theorem Servable.banks_ne_nil {s : State} {a : ScrAccess} (h : Servable s a) : accBanks s a ≠ [] := by
  intro hnil
  exact accWords_ne_nil a (List.length_eq_zero_iff.1 (by simpa [hnil] using h.banks.symm))

/-- Accesses granted so far in a cycle that wants these: no one twice. -/
structure Granted (accs served : List ScrAccess) : Prop where
  nodup : served.Nodup
  subset : served ⊆ accs

/-- Of two accesses at most neither takes the last port of a bank from the other: all that ask are served (R219). -/
theorem grantAccesses_of_few {s : State} {accs : List ScrAccess} (hfew : accs.length ≤ 2) (q : List ScrAccess) (hq : q ⊆ accs) {served : List ScrAccess} (h : Granted accs served) :
    Granted accs (grantAccesses s q served) ∧ served ⊆ grantAccesses s q served ∧ q ⊆ grantAccesses s q served := by
  induction q generalizing served with
  | nil => exact ⟨h, List.Subset.refl _, List.nil_subset _⟩
  | cons a q ih =>
    obtain ⟨ha, hq⟩ := List.cons_subset.1 hq
    by_cases hin : a ∈ served
    · have hskip : grantAccesses s (a :: q) served = grantAccesses s q served := by simp [grantAccesses, hin]
      obtain ⟨hgranted, hkept, hall⟩ := ih hq h
      rw [hskip]
      exact ⟨hgranted, hkept, List.cons_subset.2 ⟨hkept hin, hall⟩⟩
    · have hone : served.length ≤ 1 :=
        Nat.le_of_succ_le_succ (((List.nodup_cons.2 ⟨hin, h.nodup⟩).length_le_of_subset (List.cons_subset.2 ⟨ha, h.subset⟩)).trans hfew)
      have hload : (accBanks s a).all (fun b => countIf (fun x => (accBanks s x).contains b) served < 2) = true :=
        List.all_eq_true.2 fun b _ => decide_eq_true (Nat.lt_succ_of_le ((List.length_filter_le _ _).trans hone))
      have hgrant : grantAccesses s (a :: q) served = grantAccesses s q (served ++ [a]) := if_pos (by simp only [hload, Bool.and_true]; simpa using hin)
      have hmore : Granted accs (served ++ [a]) := ⟨List.nodup_append.2 ⟨h.nodup, by simp, by simpa using fun x hx (hxa : x = a) => hin (hxa ▸ hx)⟩, List.append_subset.2 ⟨h.subset, by simpa using ha⟩⟩
      obtain ⟨hgranted, hkept, hall⟩ := ih hq hmore
      rw [hgrant]
      exact ⟨hgranted, fun x hx => hkept (List.mem_append_left _ hx), List.cons_subset.2 ⟨hkept (by simp), hall⟩⟩

theorem foldl_grantAccesses_of_few {s : State} {accs : List ScrAccess} (hfew : accs.length ≤ 2) {turn : Nat → List ScrAccess} (hturn : ∀ b, turn b ⊆ accs) (banks : List Nat)
    {served : List ScrAccess} (h : Granted accs served) :
    Granted accs (banks.foldl (fun served b => grantAccesses s (turn b) served) served) ∧ served ⊆ banks.foldl (fun served b => grantAccesses s (turn b) served) served ∧
      ∀ b ∈ banks, turn b ⊆ banks.foldl (fun served b => grantAccesses s (turn b) served) served := by
  induction banks generalizing served with
  | nil => exact ⟨h, List.Subset.refl _, by simp⟩
  | cons b banks ih =>
    obtain ⟨hgranted, hkept, hall⟩ := grantAccesses_of_few (s := s) hfew (turn b) (hturn b) h
    obtain ⟨hgranted', hkept', hall'⟩ := ih hgranted
    exact ⟨hgranted', List.Subset.trans hkept hkept', List.forall_mem_cons.2 ⟨List.Subset.trans hall hkept', hall'⟩⟩

theorem mem_bankTurn {s : State} {b : Nat} {accs : List ScrAccess} {a : ScrAccess} : a ∈ bankTurn s b accs ↔ a ∈ accs ∧ b ∈ accBanks s a := by
  simp only [bankTurn, List.mem_append, List.mem_filter, List.mem_mergeSort, List.contains_iff_mem, decide_eq_true_eq]
  constructor
  · rintro (⟨h, -⟩ | ⟨h, -⟩) <;> exact h
  · exact fun h => (Nat.lt_or_ge (bank s b).lastPort a.port).imp (⟨h, ·⟩) (⟨h, ·⟩)

/-- What can be served of the accesses of a cycle. -/
theorem servable_filter {s : State} {accs : List ScrAccess} (h : ∀ a ∈ accs, Servable s a) :
    accs.filter (fun a => mayTouch s a && (accBanks s a).length = (accWords a).length && (accBanks s a).all (fun b => (bank s b).state = 0)) = accs :=
  List.filter_eq_self.2 fun a ha => by simpa [(h a ha).touches, (h a ha).banks] using (h a ha).on

theorem servedAccesses_of_few {s : State} {accs : List ScrAccess} (hfew : accs.length ≤ 2) (hnodup : accs.Nodup) (h : ∀ a ∈ accs, Servable s a) (hfirst : ∀ a ∈ accs, accFirst a = true) :
    (servedAccesses s accs).Perm accs := by
  have hfirsts : accs.filter accFirst = accs := List.filter_eq_self.2 hfirst
  have hcourier : accs.filter (fun a => !accFirst a && a.port < 154 && (accBanks s a).all (fun b => countIf (fun a => accFirst a && (accBanks s a).contains b) accs ≤ 1)) = [] :=
    List.filter_eq_nil_iff.2 fun a ha => by simp [hfirst a ha]
  simp only [servedAccesses, servable_filter h, hfirsts, hcourier, List.mergeSort_nil, grantAccesses]
  obtain ⟨hgranted, -, hall⟩ := foldl_grantAccesses_of_few (s := s) hfew (turn := fun b => bankTurn s b accs) (fun b a ha => (mem_bankTurn.1 ha).1) (accs.flatMap (accBanks s)).eraseDups
    (served := []) ⟨List.nodup_nil, List.nil_subset _⟩
  refine (List.perm_ext_iff_of_nodup hgranted.nodup hnodup).2 fun a => ⟨fun ha => hgranted.subset ha, fun ha => ?_⟩
  obtain ⟨b, hb⟩ := List.exists_mem_of_ne_nil _ (h a ha).banks_ne_nil
  exact hall b (List.mem_eraseDups.2 (List.mem_flatMap.2 ⟨a, ha, hb⟩)) (mem_bankTurn.2 ⟨ha, hb⟩)

/-- A courier port that asks alone is served: no teller or management port wants its banks (R220). -/
theorem servedAccesses_courier {s : State} {a : ScrAccess} (h : Servable s a) (hfirst : accFirst a = false) (hport : a.port < 154) : servedAccesses s [a] = [a] := by
  have hready := servable_filter (s := s) (accs := [a]) (by simpa using h)
  have hnone : ([a].filter accFirst) = [] := by simp [hfirst]
  have hcourier : [a].filter (fun x => !accFirst x && x.port < 154 && (accBanks s x).all (fun b => countIf (fun x => accFirst x && (accBanks s x).contains b) [a] ≤ 1)) = [a] := by
    simp [hfirst, hport, countIf]
  have hturns : ∀ banks : List Nat, banks.foldl (fun served b => grantAccesses s (bankTurn s b []) served) [] = [] := fun banks => by simp [bankTurn, grantAccesses]
  simp only [servedAccesses, hready, hnone, hcourier, hturns, List.mergeSort_singleton]
  simp [grantAccesses, countIf]

/-- An access that asks alone is served. -/
theorem servedAccesses_alone {s : State} {a : ScrAccess} (h : Servable s a) (hport : a.port < 154) : servedAccesses s [a] = [a] := by
  cases hfirst : accFirst a with
  | true => exact List.perm_singleton.1 (servedAccesses_of_few (by simp) (by simp) (by simpa using h) (by simpa using hfirst))
  | false => exact servedAccesses_courier h hfirst hport

/-! ### One scratch cycle (R219–R222) -/

/-- An access that moves 64 bytes at most. -/
def accFits (a : ScrAccess) : Prop := (match a.write with
  | some d => d.length
  | none => a.len) ≤ 64

theorem fits_of_write {a : ScrAccess} {d : Lanes} (hw : a.write = some d) (h : d.length ≤ 64) : accFits a := by simpa [accFits, hw] using h

theorem fits_of_read {a : ScrAccess} (hw : a.write = none) (h : a.len ≤ 64) : accFits a := by simpa [accFits, hw] using h

theorem clipAccess_write {a : ScrAccess} (h : accFits a) : (clipAccess a).write = a.write := by
  unfold accFits at h
  cases hw : a.write with
  | none => simp [clipAccess, hw]
  | some d => simpa [clipAccess, hw, List.take_eq_self_iff] using h

theorem clipAccess_of_read {a : ScrAccess} (hw : a.write = none) (h : a.len ≤ 64) : clipAccess a = a := by
  obtain ⟨port, addr, write, len, ecc⟩ := a
  subst hw
  simpa [clipAccess] using h

theorem accWords_clipAccess {a : ScrAccess} (h : accFits a) : accWords (clipAccess a) = accWords a := by
  cases hw : a.write with
  | none => rw [clipAccess_of_read hw (by simpa [accFits, hw] using h)]
  | some d =>
    have hclip := (clipAccess_write h).trans hw
    simp only [accWords, hclip, hw]
    rfl

theorem accBytes_clipAccess {a : ScrAccess} (h : accFits a) : accBytes (clipAccess a) = accBytes a := by
  rw [accBytes, clipAccess_write h]
  rfl

theorem servable_clipAccess {s : State} {a : ScrAccess} (h : Servable s a) (hfits : accFits a) : Servable s (clipAccess a) := by
  have hwords := accWords_clipAccess hfits
  have hbanks : accBanks s (clipAccess a) = accBanks s a := by rw [accBanks, hwords, accBanks]
  refine ⟨?_, ?_, ?_⟩
  · rw [mayTouch, hwords]
    exact h.touches
  · rw [hbanks, hwords]
    exact h.banks
  · rw [hbanks]
    exact h.on

/-- The data of the reads stand at their ports, and a port that waits is counted. -/
def cycleNoted (s : State) (accs : List ScrAccess) : State :=
  let served := servedAccesses s accs
  let waits := accs.any (fun a => !accFirst a && a.port < 154 && !served.any (fun x => x.port = a.port))
  { s with scratch := { s.scratch with
    waits := if waits then inc 0xFFFFFFFF s.scratch.waits else s.scratch.waits
    lastReads := (served.filter (fun a => a.write.isNone)).map (fun a => (a.port, Memory.readN 0 s.scratch.cells a.addr a.len)), lostPorts := [] } }

/-- The state as the cycle's reads and writes find it: the banks' turns have moved on, and sleeping banks are awake. -/
def cycleBegun (s : State) (accs : List ScrAccess) : State :=
  let sleeping := if s.power.state ≤ 1 then (accs.flatMap (accBanks s)).filter (fun b => (bank s b).state = 1) else []
  sleeping.foldl (fun s b => modBank s b (fun k => { k with state := 0 }))
    (((servedAccesses s accs).filter accFirst).foldl (fun s a => (accBanks s a).foldl (fun s b => modBank s b (fun k => { k with lastPort := a.port })) s) (cycleNoted s accs))

/-- The reads of a cycle find what the ECC finds. -/
def readsDone (s : State) (reads : List ScrAccess) : State :=
  let s := reads.foldl eccEvent s
  (reads.filter (fun a => (accWords a).any s.scratch.poisoned.contains)).foldl readPoison s

/-- The writes of a cycle are stored in port order, or lost (R221). -/
def writesDone (s : State) (writes : List ScrAccess) : State :=
  let sorted := sortWrites (writes.mergeSort (fun a b => decide (a.port ≤ b.port))) [] []
  sorted.2.foldl (fun s e => loseWrite s e.1 e.2) (sorted.1.foldl storeAccess s)

theorem scratchCycle_eq (s : State) (wanted : List ScrAccess) :
    scratchCycle s wanted = writesDone (readsDone (cycleBegun s (wanted.map clipAccess)) ((servedAccesses s (wanted.map clipAccess)).filter (fun a => a.write.isNone)))
      ((servedAccesses s (wanted.map clipAccess)).filter (fun a => a.write.isSome)) := rfl

/-- Everything of the scratch memory but its banks. -/
def Scratch.besideBanks (c : Scratch) : Scratch := { c with banks := [] }

/-- What a cycle notes before its writes. -/
structure Begun (s : State) (accs : List ScrAccess) (t : State) : Prop where
  cells : t.scratch.cells = s.scratch.cells
  poisoned : t.scratch.poisoned = s.scratch.poisoned
  lost : t.scratch.lost = s.scratch.lost
  lostPorts : t.scratch.lostPorts = []
  waits : t.scratch.waits =
    if accs.any (fun a => !accFirst a && a.port < 154 && !(servedAccesses s accs).any (fun x => x.port = a.port)) then inc 0xFFFFFFFF s.scratch.waits else s.scratch.waits
  lastReads : t.scratch.lastReads = ((servedAccesses s accs).filter (fun a => a.write.isNone)).map (fun a => (a.port, Memory.readN 0 s.scratch.cells a.addr a.len))

theorem foldl_modBank_besideBanks (f : State → Nat → Bank → Bank) (bs : List Nat) (s : State) :
    (bs.foldl (fun s b => modBank s b (f s b)) s).scratch.besideBanks = s.scratch.besideBanks :=
  foldl_keeps (fun s => s.scratch.besideBanks) fun _ _ => rfl

theorem cycleBegun_besideBanks (s : State) (accs : List ScrAccess) : (cycleBegun s accs).scratch.besideBanks = (cycleNoted s accs).scratch.besideBanks :=
  (foldl_modBank_besideBanks (fun _ _ k => { k with state := 0 }) _ _).trans
    (foldl_keeps (fun s => s.scratch.besideBanks) fun u a => foldl_modBank_besideBanks (fun _ _ k => { k with lastPort := a.port }) (accBanks u a) u)

theorem cycleBegun_spec (s : State) (accs : List ScrAccess) : Begun s accs (cycleBegun s accs) := by
  have h := cycleBegun_besideBanks s accs
  exact ⟨(congrArg Scratch.cells h :), (congrArg Scratch.poisoned h :), (congrArg Scratch.lost h :), (congrArg Scratch.lostPorts h :), (congrArg Scratch.waits h :),
    (congrArg Scratch.lastReads h :)⟩

theorem cycleBegun_outside {ps : List Part} (s : State) (accs : List ScrAccess) (h : .scratch ∈ ps) : (cycleBegun s accs).outside ps = s.outside ps := by
  have hbanks (f : State → Nat → Bank → Bank) (bs : List Nat) (u : State) : (bs.foldl (fun s b => modBank s b (f s b)) u).outside ps = u.outside ps :=
    outside_foldl fun u b => modBank_outside u b _ h
  refine (hbanks (fun _ _ k => { k with state := 0 }) _ _).trans ((outside_foldl fun u (a : ScrAccess) => hbanks (fun _ _ k => { k with lastPort := a.port }) _ u).trans ?_)
  simp [cycleNoted, State.outside, h]

/-! ### Reads (R221, R222) -/

theorem eccEvent_clean {s : State} {a : ScrAccess} (h : a.ecc = 0) : eccEvent s a = s := by
  simp only [eccEvent, h]
  split <;> rfl

theorem readsDone_clean {s : State} {a : ScrAccess} (hecc : a.ecc = 0) (hwhole : ∀ w ∈ accWords a, w ∉ s.scratch.poisoned) : readsDone s [a] = s := by
  have hnone : [a].filter (fun a => (accWords a).any s.scratch.poisoned.contains) = [] := by simpa using hwhole
  simp only [readsDone, List.foldl_cons, List.foldl_nil, eccEvent_clean hecc, hnone]

theorem writesDone_nil (s : State) : writesDone s [] = s := by simp [writesDone, sortWrites]

/-! ### Writes (R221) -/

theorem meetsAt_nil (a : ScrAccess) : meetsAt [] a = none := by simp [meetsAt]

theorem writesDone_alone (s : State) (a : ScrAccess) : writesDone s [a] = storeAccess s a := by simp [writesDone, sortWrites, meetsAt_nil]

theorem storeAccess_cells {s : State} {a : ScrAccess} {d : Lanes} (h : a.write = some d) :
    (storeAccess s a).scratch.cells = Memory.writeLanes 0 s.scratch.cells a.addr d ∧ (storeAccess s a).scratch.lost = s.scratch.lost ∧ (storeAccess s a).scratch.lostPorts = s.scratch.lostPorts ∧
      (storeAccess s a).scratch.waits = s.scratch.waits := by
  rw [storeAccess, h]
  exact ⟨rfl, rfl, rfl, rfl⟩

/-- A write that meets a stored one is lost in the word where they meet. -/
theorem meetsAt_of_shared {a b : ScrAccess} (h : ∃ x ∈ accBytes a, x ∈ accBytes b) : ∃ w, meetsAt [a] b = some w := by
  obtain ⟨x, ha, hb⟩ := h
  have hfound : ((accBytes b).find? (fun n => [a].any (fun x => (accBytes x).contains n))).isSome := List.find?_isSome.2 ⟨x, hb, by simpa using ha⟩
  obtain ⟨n, hn⟩ := Option.isSome_iff_exists.1 hfound
  exact ⟨n % 2 ^ 26 / 64, by rw [meetsAt, hn]; rfl⟩

theorem mergeSort_ports {a b : ScrAccess} {l : List ScrAccess} (h : l.Perm [a, b]) (hports : a.port < b.port) : l.mergeSort (fun a b : ScrAccess => decide (a.port ≤ b.port)) = [a, b] := by
  have hsorted := List.pairwise_mergeSort (le := fun a b : ScrAccess => decide (a.port ≤ b.port)) (fun _ _ _ hab hbc => by simp only [decide_eq_true_eq] at *; omega)
    (fun a b => by simpa using Nat.le_total a.port b.port) l
  refine (List.perm_pair.1 ((List.mergeSort_perm l _).trans h)).resolve_right fun hswap => ?_
  rw [hswap] at hsorted
  simp at hsorted
  omega

/-- Of two writes that meet, the lower port's is stored and the other is lost. -/
theorem writesDone_meet {s : State} {a b : ScrAccess} {l : List ScrAccess} (h : l.Perm [a, b]) (hports : a.port < b.port) (hmeet : ∃ x ∈ accBytes a, x ∈ accBytes b) :
    ∃ w, writesDone s l = loseWrite (storeAccess s a) b w := by
  obtain ⟨w, hw⟩ := meetsAt_of_shared hmeet
  refine ⟨w, ?_⟩
  simp [writesDone, mergeSort_ports h hports, sortWrites, meetsAt_nil, hw]

theorem countCollision_besideBanks (s : State) (word : Nat) : (countCollision s word).scratch.besideBanks = s.scratch.besideBanks :=
  foldl_keeps (fun s => s.scratch.besideBanks) fun _ _ => rfl

/-- A lost write is counted and its port is told; the memory keeps its bytes. -/
theorem loseWrite_scratch (s : State) (a : ScrAccess) (word : Nat) :
    (loseWrite s a word).scratch.cells = s.scratch.cells ∧ (loseWrite s a word).scratch.lost = inc 0xFFFF s.scratch.lost ∧
      (loseWrite s a word).scratch.lostPorts = s.scratch.lostPorts ++ [a.port] := by
  have htold : (loseWrite s a word).scratch = { (countCollision s word).scratch with
      lost := inc 0xFFFF (countCollision s word).scratch.lost, lostPorts := (countCollision s word).scratch.lostPorts ++ [a.port] } := by
    unfold loseWrite
    dsimp only
    split
    · split
      · rfl
      · split <;> rfl
    split
    · split
      · exact same_scratch (ps := [.returns, .courier]) (slotEnd_outside _ _ _ (by decide) (by decide)) (by decide)
      · rfl
    · rfl
  have hcount := countCollision_besideBanks s word
  have hlost : (countCollision s word).scratch.lost = s.scratch.lost := (congrArg Scratch.lost hcount :)
  have hports : (countCollision s word).scratch.lostPorts = s.scratch.lostPorts := (congrArg Scratch.lostPorts hcount :)
  rw [htold, hlost, hports]
  exact ⟨(congrArg Scratch.cells hcount :), rfl, rfl⟩

/-! ### SCRATCH_ACCESS -/

theorem runs_scratchAccess_write {s : State} {a : ScrAccess} {d : Lanes} (hw : a.write = some d) (hlen : d.length ≤ 64) (h : Servable s a) (hport : a.port < 154) :
    Runs (.scratchAccess [a]) s (fun t => t.scratch.cells = Memory.writeLanes 0 s.scratch.cells a.addr d ∧ t.scratch.lostPorts = [] ∧ t.scratch.waits = s.scratch.waits ∧ OnlyIn [.scratch] s t) := by
  have hfits := fits_of_write hw hlen
  have hclip : (clipAccess a).write = some d := (clipAccess_write hfits).trans hw
  have hserved : servedAccesses s [clipAccess a] = [clipAccess a] := servedAccesses_alone (servable_clipAccess h hfits) hport
  have hcycle : scratchCycle s [a] = storeAccess (cycleBegun s [clipAccess a]) (clipAccess a) := by
    rw [scratchCycle_eq, List.map_singleton, hserved]
    simp only [List.filter_cons, List.filter_nil, hclip]
    exact writesDone_alone _ _
  have hbegun := cycleBegun_spec s [clipAccess a]
  obtain ⟨hcells, -, hlost, hwaits⟩ := storeAccess_cells (s := cycleBegun s [clipAccess a]) hclip
  refine ⟨_, congrArg Host.Outcome.next hcycle, ?_, hlost.trans hbegun.lostPorts, ?_, ?_⟩
  · rw [hcells, hbegun.cells]
    rfl
  · rw [hwaits, hbegun.waits, hserved]
    exact if_neg (by simp)
  · exact (storeAccess_outside _ _ (by decide)).trans (cycleBegun_outside s _ (by decide))

theorem runs_scratchAccess_read {s : State} {a : ScrAccess} (hw : a.write = none) (hlen : a.len ≤ 64) (h : Servable s a) (hecc : a.ecc = 0) (hport : a.port < 154)
    (hwhole : ∀ w ∈ accWords a, w ∉ s.scratch.poisoned) :
    Runs (.scratchAccess [a]) s (fun t => t.scratch.lastReads = [(a.port, Memory.readN 0 s.scratch.cells a.addr a.len)] ∧ t.scratch.cells = s.scratch.cells ∧ OnlyIn [.scratch] s t) := by
  have hserved : servedAccesses s [a] = [a] := servedAccesses_alone h hport
  have hbegun := cycleBegun_spec s [a]
  have hcycle : scratchCycle s [a] = cycleBegun s [a] := by
    rw [scratchCycle_eq, List.map_singleton, clipAccess_of_read hw hlen, hserved]
    simp only [List.filter_cons, List.filter_nil, hw]
    exact (writesDone_nil _).trans (readsDone_clean hecc (by rwa [hbegun.poisoned]))
  refine ⟨_, congrArg Host.Outcome.next hcycle, ?_, hbegun.cells, cycleBegun_outside s _ (by decide)⟩
  rw [hbegun.lastReads, hserved]
  simp [hw]

theorem runs_scratchAccess_meet {s : State} {a b : ScrAccess} {d e : Lanes} (ha : a.write = some d) (hb : b.write = some e) (hd : d.length ≤ 64) (he : e.length ≤ 64) (hsa : Servable s a)
    (hsb : Servable s b) (hports : a.port < b.port) (hfirst : b.port < 138) (hmeet : ∃ x ∈ accBytes a, x ∈ accBytes b) :
    Runs (.scratchAccess [a, b]) s (fun t => t.scratch.cells = Memory.writeLanes 0 s.scratch.cells a.addr d ∧ t.scratch.lostPorts = [b.port] ∧ t.scratch.lost = inc 0xFFFF s.scratch.lost) := by
  have hfa := fits_of_write ha hd
  have hfb := fits_of_write hb he
  have hca : (clipAccess a).write = some d := (clipAccess_write hfa).trans ha
  have hcb : (clipAccess b).write = some e := (clipAccess_write hfb).trans hb
  have hne : clipAccess a ≠ clipAccess b := fun heq => hports.ne (congrArg ScrAccess.port heq :)
  have hserved : (servedAccesses s [clipAccess a, clipAccess b]).Perm [clipAccess a, clipAccess b] := by
    refine servedAccesses_of_few (by simp) ?_ ?_ ?_
    · simpa using hne
    · simpa using ⟨servable_clipAccess hsa hfa, servable_clipAccess hsb hfb⟩
    · simpa [accFirst] using ⟨hports.trans hfirst, hfirst⟩
  have hwrites : ∀ x ∈ servedAccesses s [clipAccess a, clipAccess b], x.write.isSome = true := fun x hx => by
    rcases List.mem_pair.1 (hserved.subset hx) with rfl | rfl
    · simp [hca]
    · simp [hcb]
  have hreads : (servedAccesses s [clipAccess a, clipAccess b]).filter (fun a => a.write.isNone) = [] :=
    List.filter_eq_nil_iff.2 fun x hx => by simpa using Option.isSome_iff_ne_none.1 (hwrites x hx)
  obtain ⟨w, hdone⟩ := writesDone_meet (s := cycleBegun s [clipAccess a, clipAccess b]) hserved hports (by rwa [accBytes_clipAccess hfa, accBytes_clipAccess hfb])
  have hcycle : scratchCycle s [a, b] = loseWrite (storeAccess (cycleBegun s [clipAccess a, clipAccess b]) (clipAccess a)) (clipAccess b) w := by
    rw [scratchCycle_eq, List.map_cons, List.map_singleton, hreads, List.filter_eq_self.2 hwrites]
    exact hdone
  have hbegun := cycleBegun_spec s [clipAccess a, clipAccess b]
  obtain ⟨hkept, hcount, htold⟩ := loseWrite_scratch (storeAccess (cycleBegun s [clipAccess a, clipAccess b]) (clipAccess a)) (clipAccess b) w
  obtain ⟨hcells, hlost, hnone, -⟩ := storeAccess_cells (s := cycleBegun s [clipAccess a, clipAccess b]) hca
  refine ⟨_, congrArg Host.Outcome.next hcycle, ?_, ?_, ?_⟩
  · rw [hkept, hcells, hbegun.cells]
    rfl
  · rw [htold, hnone, hbegun.lostPorts]
    rfl
  · rw [hcount, hlost, hbegun.lost]

/-! ### BANK_RETIREMENT and BANK_RETENTION (R222–R224) -/

@[simp] theorem bank_modBank_same (s : State) (b : Nat) (f : Bank → Bank) : bank (modBank s b f) b = f (bank s b) := tget_tmod_same _ _ _ _

theorem bank_modBank_other (s : State) {b k : Nat} (f : Bank → Bank) (h : k ≠ b) : bank (modBank s b f) k = bank s k := tget_tmod_other _ _ f h.symm

/-- The retirement of a mapped bank of which none is decided yet. -/
theorem decideBank_of_mapped {s : State} {b : Nat} (cause : Nat) (hmapped : (bank s b).mapped = true) (hlive : (bank s b).retired = false) (hfree : ∀ c ∈ s.scratch.copies, c.old ≠ b ∧ c.new ≠ some b) :
    decideBank s b cause = { s with scratch := { s.scratch with copies := s.scratch.copies ++ [⟨b, none, s.now + 2, cause⟩] } } := by
  have hold : s.scratch.copies.any (fun c => c.old = b) = false := by simpa using fun c hc => (hfree c hc).1
  have hnew : s.scratch.copies.any (fun c => c.new = some b) = false := by simpa using fun c hc => (hfree c hc).2
  simp [decideBank, hold, hnew, hmapped, hlive]

theorem decideBank_of_retired {s : State} {b : Nat} (cause : Nat) (hretired : (bank s b).retired = true) (hfree : ∀ c ∈ s.scratch.copies, c.new ≠ some b) : decideBank s b cause = s := by
  have hnew : s.scratch.copies.any (fun c => c.new = some b) = false := by simpa using hfree
  simp [decideBank, hnew, hretired]

theorem exec_bankRetirement_retired {s : State} {b : Nat} (hretired : (bank s b).retired = true) (hfree : ∀ c ∈ s.scratch.copies, c.new ≠ some b) : exec (.bankRetirement b) s = .next s :=
  congrArg Host.Outcome.next (by rw [decideBank_of_retired _ hretired hfree, ite_self])

theorem exec_bankRetirement_mapped {s : State} {b : Nat} (hb : b < 264) (hmapped : (bank s b).mapped = true) (hlive : (bank s b).retired = false)
    (hfree : ∀ c ∈ s.scratch.copies, c.old ≠ b ∧ c.new ≠ some b) :
    exec (.bankRetirement b) s = .next { s with scratch := { s.scratch with copies := s.scratch.copies ++ [⟨b, none, s.now + 2, if bankOverLimit s b then 1 else 2⟩] } } :=
  congrArg Host.Outcome.next ((if_pos hb).trans (decideBank_of_mapped _ hmapped hlive hfree))

theorem runs_bankRetention {s : State} {b : Nat} (hgoes : s.power.state = 1) (hb : b < 264) (hmapped : (bank s b).mapped = true) (hon : (bank s b).state = 0) :
    Runs (.bankRetention b) s (fun t => bank t b = { bank s b with state := 1 } ∧ (∀ k, k ≠ b → bank t k = bank s k) ∧ t.scratch.cells = s.scratch.cells ∧ OnlyIn [.scratch] s t) :=
  ⟨_, congrArg Host.Outcome.next (if_pos (by simp [hgoes, hb, hmapped, hon])), bank_modBank_same s b _, fun _ hk => bank_modBank_other s _ hk, rfl, by simp [OnlyIn]⟩

/-- Outside Trim no branch is gated and no bank sleeps. -/
theorem exec_trimOnly_awake {s : State} (b : Nat) (h : s.power.state ≠ 1) : exec (.branchGating b) s = .next s ∧ exec (.bankRetention b) s = .next s :=
  ⟨congrArg Host.Outcome.next (if_neg (by simp [h])), congrArg Host.Outcome.next (if_neg (by simp [h]))⟩

/-! ### SWEEP_STEP (R225, R226) -/

/-- A step of the sweep goes at this cycle, on this physical bank. -/
structure Sweeps (s : State) (t b : Nat) : Prop where
  quiet : (s.at t).quiet = true
  entry : s.closers.entry = 2
  time : (s.at t).clock.cycle + 340 ≤ 25600
  power : s.power.state < 2
  fresh : s.scratch.swept = false
  bank : bankOf s s.scratch.sweepBank = some b
  uncopied : ∀ c ∈ s.scratch.copies, c.old ≠ b

/-- The close's step is taken. -/
def stepTaken (s : State) (t : Nat) : State := { s.at t with scratch := { s.scratch with swept := true } }

/-- The close's step is taken, and its march has found a fault. -/
def stepFailed (s : State) (t : Nat) : State := { s.at t with scratch := { s.scratch with swept := true, failures := inc 0xFF s.scratch.failures } }

/-- A step that goes, for the ports that need the bank and for what the march finds. -/
theorem sweepStep_of_sweeps {s : State} {t b : Nat} (h : Sweeps s t b) (ports : List Nat) :
    ((∃ p ∈ ports, p < 138) → ∀ f, sweepStep s t ports f = { stepTaken s t with scratch := { (stepTaken s t).scratch with yields := inc 0xFFFF s.scratch.yields } }) ∧
    ((∀ p ∈ ports, 138 ≤ p) → sweepStep s t ports none = advanceSweep (stepTaken s t)) ∧
    ((∀ p ∈ ports, 138 ≤ p) → ∀ f, sweepStep s t ports (some f) = decideBank (advanceSweep (stepFailed s t)) b 3) := by
  have hgoes : ¬(!(s.at t).quiet || (s.at t).closers.entry ≠ 2 || 25600 < (s.at t).clock.cycle + 340 || 2 ≤ (s.at t).power.state || (s.at t).scratch.swept) = true := by
    have hentry : (s.at t).closers.entry = 2 := h.entry
    have hpower : ¬2 ≤ (s.at t).power.state := Nat.not_le.2 h.power
    have hfresh : (s.at t).scratch.swept = false := h.fresh
    simp [h.quiet, hentry, hpower, hfresh, h.time]
  have hbank : bankOf (s.at t) (s.at t).scratch.sweepBank = some b := h.bank
  have hcopies : ¬(s.at t).scratch.copies.any (fun c => c.old = b && c.new.isSome) = true := by
    intro hany
    obtain ⟨c, hc, hold⟩ := List.any_eq_true.1 hany
    exact h.uncopied c hc (of_decide_eq_true (Bool.and_eq_true_iff.1 hold).1)
  refine ⟨fun hneeded f => ?_, fun hclear => ?_, fun hclear f => ?_⟩
  · have hany : ports.any (fun p => p < 138) = true := by simpa using hneeded
    simp only [sweepStep, if_neg hgoes, hbank, if_neg hcopies, hany, if_true]
    rfl
  · have hany : ports.any (fun p => p < 138) = false := by simpa using hclear
    simp only [sweepStep, if_neg hgoes, hbank, if_neg hcopies, hany, Bool.false_eq_true, if_false]
    rfl
  · have hany : ports.any (fun p => p < 138) = false := by simpa using hclear
    simp only [sweepStep, if_neg hgoes, hbank, if_neg hcopies, hany, Bool.false_eq_true, if_false]
    rfl

/-- The next bank of the same group of words. -/
theorem advanceSweep_of_bank {s : State} (h : s.scratch.sweepBank < 255) : advanceSweep s = { s with scratch := { s.scratch with sweepBank := s.scratch.sweepBank + 1 } } := if_pos h

theorem runs_sweepStep {s : State} {t b : Nat} (h : Sweeps s t b) (hnext : s.scratch.sweepBank < 255) (ports : List Nat) :
    ((∀ p ∈ ports, 138 ≤ p) → Runs (.sweepStep t ports none) s (fun u => u.scratch = { s.scratch with swept := true, sweepBank := s.scratch.sweepBank + 1 } ∧ u.clock = (s.at t).clock)) ∧
    ((∃ p ∈ ports, p < 138) → Runs (.sweepStep t ports none) s (fun u => u.scratch = { s.scratch with swept := true, yields := inc 0xFFFF s.scratch.yields })) ∧
    ((∀ p ∈ ports, 138 ≤ p) → (bank s b).retired = false → (∀ c ∈ s.scratch.copies, c.new ≠ some b) → (bank s b).mapped = true →
      ∀ f, Runs (.sweepStep t ports (some f)) s (fun u => u.scratch.failures = inc 0xFF s.scratch.failures ∧ u.scratch.copies = s.scratch.copies ++ [⟨b, none, s.now + 2, 3⟩])) := by
  obtain ⟨hyields, hadvances, hfaults⟩ := sweepStep_of_sweeps h ports
  refine ⟨fun hclear => ?_, fun hneeded => ?_, fun hclear hlive hnew hmapped f => ?_⟩
  · exact ⟨_, congrArg Host.Outcome.next ((hadvances hclear).trans (advanceSweep_of_bank hnext)), rfl, rfl⟩
  · exact ⟨_, congrArg Host.Outcome.next (hyields hneeded none), rfl⟩
  · rw [advanceSweep_of_bank (s := stepFailed s t) hnext] at hfaults
    exact ⟨_, congrArg Host.Outcome.next ((hfaults hclear f).trans (decideBank_of_mapped 3 hmapped hlive fun c hc => ⟨h.uncopied c hc, hnew c hc⟩)), rfl, rfl⟩

theorem exec_sweepStep_open {s : State} (t : Nat) (ports : List Nat) (f : Option Nat) (h : s.closers.entry ≠ 2) : exec (.sweepStep t ports f) s = .next (s.at t) := by
  have hentry : (s.at t).closers.entry ≠ 2 := h
  exact congrArg Host.Outcome.next (if_pos (by simp [hentry]))

/-- Settles O42: two accesses at most are all served, the writes of a cycle go in port order, and the other rows decide under their conditions alone. -/
theorem tellersAndScratch : Obligations.TellersAndScratch := by
  refine ⟨?_, ?_, ?_, ?_, ?_, ?_, ?_, ?_, ?_, ?_, ?_, ?_, ?_⟩
  · exact fun _ _ _ _ => exec_tellerSelfTest_passed
  · exact fun _ _ => runs_tellerSelfTest_failed
  · exact fun pass _ => exec_tellerSelfTest_none pass
  · exact fun _ _ => runs_branchGating
  · exact fun b _ => exec_trimOnly_awake b
  · exact fun a d s hw hlen htouch hport hbanks hon => runs_scratchAccess_write hw hlen ⟨htouch, hbanks, hon⟩ hport
  · exact fun a s hw hlen htouch hecc hport hbanks hon hwhole => runs_scratchAccess_read hw hlen ⟨htouch, hbanks, hon⟩ hecc hport hwhole
  · intro a b d e s ha hb hd he hta htb hports hfirst hmeet hba hbb hon
    obtain ⟨hona, honb⟩ := List.forall_mem_append.1 hon
    exact runs_scratchAccess_meet ha hb hd he ⟨hta, hba, hona⟩ ⟨htb, hbb, honb⟩ hports hfirst hmeet
  · exact fun _ _ => exec_bankRetirement_mapped
  · exact fun _ _ => exec_bankRetirement_retired
  · exact fun _ _ => runs_bankRetention
  · exact fun t b ports s hquiet hentry htime hpower hfresh hbank hcopies hnext => runs_sweepStep ⟨hquiet, hentry, htime, hpower, hfresh, hbank, hcopies⟩ hnext ports
  · exact fun t ports f _ => exec_sweepStep_open t ports f

end Sys2Proof.Machine
end

section
namespace Sys2Proof.Machine

/-! ## Postings (O41) -/

/-! ### Places -/

@[simp] theorem tslot_modSlot_same (s : State) (x : Nat) (f : TellerSlot → TellerSlot) : tslot (modSlot s x f) x = f (tslot s x) := tget_tmod_same _ _ _ _

theorem tslot_modSlot_other (s : State) {x y : Nat} (f : TellerSlot → TellerSlot) (h : y ≠ x) : tslot (modSlot s x f) y = tslot s y := tget_tmod_other _ _ f h.symm

theorem tslot_of_tellers {s t : State} (h : t.tellers = s.tellers) (x : Nat) : tslot t x = tslot s x := by rw [tslot, h, tslot]

theorem tslot_of_slots {s t : State} (h : t.tellers.slots = s.tellers.slots) (x : Nat) : tslot t x = tslot s x := by rw [tslot, h, tslot]

@[simp] theorem tbranch_modBranch_same (s : State) (b : Nat) (f : Branch → Branch) : tbranch (modBranch s b f) b = f (tbranch s b) := tget_tmod_same _ _ _ _

/-- One logical number of a branch that wakes: its teller, when Gated, is Active. -/
def wakeOne (s : State) (x : Nat) : State :=
  match (tslot s x).phys with
  | some p => if (tphys s p).state = 1 then setTeller s p 0 id else s
  | none => s

/-- What waking a branch leaves of the tellers: all but the branches and the physical tellers' states. -/
def Tellers.queues (t : Tellers) : Tellers := { t with phys := [], branches := [] }

theorem wakeOne_queues (s : State) (x : Nat) : (wakeOne s x).tellers.queues = s.tellers.queues := by
  unfold wakeOne
  split
  · split <;> rfl
  · rfl

theorem wakeBranch_queues (s : State) (b : Nat) : (wakeBranch s b).tellers.queues = s.tellers.queues := by
  unfold wakeBranch
  split
  · exact foldl_keeps (fun s => s.tellers.queues) wakeOne_queues
  · rfl

theorem wakeBranch_clock (s : State) (b : Nat) : (wakeBranch s b).clock = s.clock := same_clock (ps := [.tellers]) (by simp) (by decide)

/-! ### POSTING_PUSH (R198, R199, R206) -/

theorem pushPosting_of_home {s : State} {p : Posting} {x : Nat} (h : chooseHome s = some x) (hp : p.promoted = false) :
    tslot (pushPosting s p) x = { tslot s x with deque := (tslot s x).deque ++ [(pushMark s, { p with home := x })] } ∧ (∀ y, y ≠ x → tslot (pushPosting s p) y = tslot s y) := by
  have hslots : (wakeBranch s (branchOf x)).tellers.slots = s.tellers.slots := (congrArg Tellers.slots (wakeBranch_queues s (branchOf x)) :)
  have hslot := tslot_of_slots hslots
  have hmark : pushMark (touchBranch (wakeBranch s (branchOf x)) (branchOf x)) = pushMark s := by
    show (if (wakeBranch s (branchOf x)).clock.cycle = 0 then (wakeBranch s (branchOf x)).clock.close else (wakeBranch s (branchOf x)).clock.close + 1) = _
    rw [wakeBranch_clock]
    rfl
  simp only [pushPosting, h, hp, hmark]
  refine ⟨(tslot_modSlot_same _ x _).trans ?_, fun y hy => (tslot_modSlot_other _ _ hy).trans (hslot y)⟩
  rw [← hslot x]
  rfl

theorem pushPosting_of_noHome {s : State} {p : Posting} (h : chooseHome s = none) : pushPosting s p = { s with tellers := { s.tellers with producer := s.tellers.producer ++ [p] } } := by
  simp only [pushPosting, h]

theorem drainProducer_of_none {s : State} (h : s.tellers.producer = []) : drainProducer s = s := by
  have hsame : ({ s.tellers with producer := [] } : Tellers) = s.tellers := by rw [← h]
  simp only [drainProducer, h, hsame, List.foldl_nil]

/-- A descriptor is in the pool, and its number is no longer one that has finished. -/
def listed (s : State) (p : Posting) : State :=
  { writeDescriptor s p with tellers := { s.tellers with finished := s.tellers.finished.filter (fun n => n ≠ p.index) } }

theorem postingPush_of_ready {s : State} {p : Posting} (hok : descriptorOk p = true) (hready : postingReady s p = true) (hnone : s.tellers.producer = []) :
    postingPush s p = pushPosting (listed s p) { p with estimate := p.inputs.length * p.length / 2 } := by
  have hready' : postingReady (writeDescriptor s p) p = true := hready
  have hdrain : drainProducer (listed s p) = listed s p := drainProducer_of_none hnone
  simp only [postingPush, hok, hready', Bool.not_true, Bool.false_eq_true, if_false, if_true]
  exact congrArg (fun u => pushPosting u { p with estimate := p.inputs.length * p.length / 2 }) hdrain

theorem replan_of_none {s : State} {id : Nat} (h : findWork s id = none) : replan s id = s := by simp [replan, h]

/-- A bad descriptor is counted. -/
def badCounted (s : State) (p : Posting) : State := { writeDescriptor s p with tellers := { s.tellers with badDesc := inc 0xFFFF s.tellers.badDesc } }

theorem postingPush_of_bad {s : State} {p : Posting} (hbad : descriptorOk p = false) (hw : findWork s p.work = none) : postingPush s p = fire (badCounted s p) 0x0E 2 p.index [] false := by
  have hfired : findWork (fire (badCounted s p) 0x0E 2 p.index [] false) p.work = none :=
    (findWork_of_works (same_works (ps := [.daybook]) (s := badCounted s p) (by simp) (by decide)) p.work).trans hw
  simp only [postingPush, hbad, Bool.not_false, if_true]
  exact replan_of_none hfired

theorem runs_postingPush_bad {s : State} {p : Posting} (hbad : descriptorOk p = false) (hw : findWork s p.work = none) :
    Runs (.postingPush p) s (fun t => t.tellers = { s.tellers with badDesc := inc 0xFFFF s.tellers.badDesc } ∧ t.scratch = (writeDescriptor s p).scratch ∧ OnlyIn [.tellers, .daybook, .scratch] s t) := by
  refine ⟨_, congrArg Host.Outcome.next (postingPush_of_bad hbad hw), ?_, ?_, ?_⟩
  · exact same_tellers (ps := [.daybook]) (s := badCounted s p) (by simp) (by decide)
  · exact same_scratch (ps := [.daybook]) (s := badCounted s p) (by simp) (by decide)
  · exact fire_outside (badCounted s p) _ _ _ _ _ (by decide)

theorem runs_postingPush_home {s : State} {p : Posting} {x : Nat} (hok : descriptorOk p = true) (hready : postingReady s p = true) (hnone : s.tellers.producer = []) (hx : chooseHome s = some x)
    (hp : p.promoted = false) :
    Runs (.postingPush p) s (fun t => (tslot t x).deque = (tslot s x).deque ++ [(pushMark s, { p with estimate := p.inputs.length * p.length / 2, home := x })] ∧
      (∀ y, y ≠ x → tslot t y = tslot s y) ∧ t.scratch = (writeDescriptor s p).scratch ∧ OnlyIn [.tellers, .scratch] s t) := by
  have hx' : chooseHome (listed s p) = some x := hx
  obtain ⟨hhome, hothers⟩ := pushPosting_of_home (p := { p with estimate := p.inputs.length * p.length / 2 }) hx' hp
  refine ⟨_, congrArg Host.Outcome.next (postingPush_of_ready hok hready hnone), congrArg TellerSlot.deque hhome, hothers, ?_, ?_⟩
  · exact same_scratch (ps := [.tellers]) (s := listed s p) (by simp) (by decide)
  · exact pushPosting_outside (listed s p) _ (by decide)

theorem runs_postingPush_noHome {s : State} {p : Posting} (hok : descriptorOk p = true) (hready : postingReady s p = true) (hnone : s.tellers.producer = []) (hx : chooseHome s = none) :
    Runs (.postingPush p) s (fun t =>
      t.tellers = { s.tellers with finished := s.tellers.finished.filter (fun n => n ≠ p.index), producer := [{ p with estimate := p.inputs.length * p.length / 2 }] } ∧ OnlyIn [.tellers, .scratch] s t) := by
  have hx' : chooseHome (listed s p) = none := hx
  refine ⟨_, congrArg Host.Outcome.next ((postingPush_of_ready hok hready hnone).trans (pushPosting_of_noHome hx')), ?_, rfl⟩
  have hproducer : (listed s p).tellers.producer = [] := hnone
  rw [hproducer]
  rfl

theorem exec_postingPush_unready {s : State} {p : Posting} (hok : descriptorOk p = true) (hready : postingReady s p = false) : exec (.postingPush p) s = .next (writeDescriptor s p) := by
  have hready' : postingReady (writeDescriptor s p) p = false := hready
  exact congrArg Host.Outcome.next (by simp [postingPush, hok, hready'])

/-! ### What moves of other postings leave of the tellers at work

A teller's running posting and the cycle of its start are changed by no push, and by no entry that moves up. -/

/-- The running postings with their starts, and the counts of steals. -/
def engaged (s : State) : (Nat → Option Posting × Nat) × Nat × Nat :=
  (fun x => ((tslot s x).running, (tslot s x).startAt), s.tellers.stealsBranch, s.tellers.stealsCross)

theorem engaged_modSlot (s : State) (x : Nat) {f : TellerSlot → TellerSlot} (hf : ∀ k, (f k).running = k.running ∧ (f k).startAt = k.startAt) : engaged (modSlot s x f) = engaged s := by
  refine Prod.ext (funext fun y => ?_) rfl
  show ((tslot (modSlot s x f) y).running, (tslot (modSlot s x f) y).startAt) = ((tslot s y).running, (tslot s y).startAt)
  by_cases h : y = x
  · rw [h, tslot_modSlot_same, (hf _).1, (hf _).2]
  · rw [tslot_modSlot_other s f h]

theorem engaged_of_same {s t : State} (hslots : t.tellers.slots = s.tellers.slots) (hbranch : t.tellers.stealsBranch = s.tellers.stealsBranch)
    (hcross : t.tellers.stealsCross = s.tellers.stealsCross) : engaged t = engaged s := by
  simp only [engaged, tslot_of_slots hslots, hbranch, hcross]

theorem pushPosting_engaged (s : State) (p : Posting) : engaged (pushPosting s p) = engaged s := by
  unfold pushPosting
  split
  · rfl
  next x _ =>
    have hwake := wakeBranch_queues s (branchOf x)
    refine (engaged_modSlot _ _ fun k => ?_).trans (engaged_of_same ?_ ?_ ?_)
    · exact ⟨rfl, rfl⟩
    · exact (congrArg Tellers.slots hwake :)
    · exact (congrArg Tellers.stealsBranch hwake :)
    · exact (congrArg Tellers.stealsCross hwake :)

theorem drainProducer_engaged (s : State) : engaged (drainProducer s) = engaged s := foldl_keeps engaged pushPosting_engaged

theorem placeReissue_engaged (s : State) (p : Posting) (behind : Option Posting) : engaged (placeReissue s p behind) = engaged s := by
  unfold placeReissue
  split
  · rfl
  · exact engaged_modSlot _ _ fun _ => ⟨rfl, rfl⟩

theorem drainReissue_engaged (s : State) (b : Nat) : engaged (drainReissue s b) = engaged s := foldl_keeps engaged fun u p => placeReissue_engaged u p none

theorem afterTake_engaged (s : State) (b : Nat) : engaged (afterTake s b) = engaged s := (drainProducer_engaged _).trans (drainReissue_engaged _ b)

/-- With no reissue and no posting that waits, a take moves nothing up. -/
theorem afterTake_idle {s : State} {b : Nat} (hreissue : (tbranch s b).reissue = []) (hproducer : s.tellers.producer = []) : (afterTake s b).tellers.slots = s.tellers.slots := by
  have hempty : (tbranch (touchBranch s b) b).reissue = [] := by rwa [touchBranch, tbranch_modBranch_same]
  have hdrain : drainReissue (touchBranch s b) b = modBranch (touchBranch s b) b (fun r => { r with reissue := [] }) := by rw [drainReissue, hempty, List.foldl_nil]
  rw [afterTake, hdrain]
  exact congrArg (fun u => u.tellers.slots) (drainProducer_of_none (s := modBranch (touchBranch s b) b (fun r => { r with reissue := [] })) hproducer)

theorem startPosting_of_known {s : State} {p : Posting} (x delay : Nat) (h : knownProgram s p.program = true) :
    startPosting s x p delay = modSlot (touchBranch s (branchOf x)) x (fun k => { k with running := some p, startAt := absCycle s + delay }) := if_pos h

/-- A posting that starts is the running one of its teller, whatever moves up behind it. -/
theorem afterTake_startPosting {s : State} {p : Posting} (x b delay : Nat) (h : knownProgram s p.program = true) :
    (tslot (afterTake (startPosting s x p delay) b) x).running = some p ∧ (tslot (afterTake (startPosting s x p delay) b) x).startAt = absCycle s + delay ∧
      (afterTake (startPosting s x p delay) b).tellers.stealsBranch = s.tellers.stealsBranch ∧ (afterTake (startPosting s x p delay) b).tellers.stealsCross = s.tellers.stealsCross := by
  have hkeeps := afterTake_engaged (startPosting s x p delay) b
  have hat : ((tslot (afterTake (startPosting s x p delay) b) x).running, (tslot (afterTake (startPosting s x p delay) b) x).startAt) =
      ((tslot (startPosting s x p delay) x).running, (tslot (startPosting s x p delay) x).startAt) := (congrArg (fun e => e.1 x) hkeeps :)
  have hbranch : (afterTake (startPosting s x p delay) b).tellers.stealsBranch = (startPosting s x p delay).tellers.stealsBranch := (congrArg (fun e => e.2.1) hkeeps :)
  have hcross : (afterTake (startPosting s x p delay) b).tellers.stealsCross = (startPosting s x p delay).tellers.stealsCross := (congrArg (fun e => e.2.2) hkeeps :)
  obtain ⟨hrunning, hstart⟩ := Prod.mk.inj hat
  rw [hrunning, hstart, hbranch, hcross, startPosting_of_known x delay h, tslot_modSlot_same]
  exact ⟨rfl, rfl, rfl, rfl⟩

/-! ### POSTING_TAKE (R207, R208) -/

theorem drawOf_none {s : State} (h : s.tellers.draws = []) (v : Nat) : drawOf s v = none := by simp [drawOf, h]

/-- A take with no draw of this cycle on the deque: the entry leaves it, and starts. -/
theorem postingTake_of_own {s : State} {x t : Nat} {p : Posting} {rest : List (Nat × Posting)} (hcan : canTake s x = true) (hown : ownEntry s x t = some (p, rest)) (hdraws : s.tellers.draws = []) :
    ∃ u, postingTake s x t = afterTake (startPosting u x p 8) (branchOf x) ∧ (∀ ps, .tellers ∈ ps → u.outside ps = s.outside ps) ∧ tslot u x = { tslot s x with deque := rest } ∧
      u.tellers.store = s.tellers.store ∧ u.tellers.branches = s.tellers.branches ∧ u.tellers.producer = s.tellers.producer := by
  simp only [postingTake, hcan, drawOf_none hdraws x, hown, Bool.not_true, Bool.false_eq_true, if_false, Option.filter_none, Option.bind_none]
  split
  · exact ⟨_, rfl, fun ps h => by simp [h], (tslot_modSlot_same s x (fun k => { k with deque := rest }) :), rfl, rfl, rfl⟩
  · exact ⟨_, rfl, fun ps h => by simp [h], tslot_modSlot_same s x _, rfl, rfl, rfl⟩

theorem exec_postingTake {x t : Nat} (s : State) (hx : x < 128) (ht : t < 25600) : exec (.postingTake x t) s = .next (postingTake (s.at t) x t) :=
  congrArg Host.Outcome.next (if_pos (by simp [hx, ht]))

theorem exec_steal {x t : Nat} (s : State) (hx : x < 128) (ht : t < 25600) : exec (.steal x t) s = .next (stealRow 128 (s.at t) x t) :=
  congrArg Host.Outcome.next (if_pos (by simp [hx, ht]))

theorem runs_postingTake {s : State} {x t : Nat} {p : Posting} {rest : List (Nat × Posting)} (hx : x < 128) (ht : t < 25600) (hcan : canTake (s.at t) x = true)
    (hown : ownEntry (s.at t) x t = some (p, rest)) (hknown : knownProgram s p.program = true) (hdraws : s.tellers.draws = []) (hreissue : (tbranch s (branchOf x)).reissue = [])
    (hproducer : s.tellers.producer = []) :
    Runs (.postingTake x t) s (fun u => (tslot u x).running = some p ∧ (tslot u x).deque = rest ∧ (tslot u x).startAt = absCycle (s.at t) + 8 ∧ OnlyIn [.clock, .tellers] s u) := by
  obtain ⟨u, htake, houtside, hslot, hstore, hbranches, hproducer'⟩ := postingTake_of_own hcan hown hdraws
  have hclock : u.clock = (s.at t).clock := same_clock (houtside [.tellers] (by decide)) (by decide)
  have hknown' : knownProgram u p.program = true := by
    rw [knownProgram, hstore]
    exact hknown
  have hstarted := startPosting_of_known (s := u) x 8 hknown'
  have hslots : (afterTake (startPosting u x p 8) (branchOf x)).tellers.slots = (startPosting u x p 8).tellers.slots := by
    refine afterTake_idle ?_ ?_
    · rw [hstarted]
      refine (congrArg Branch.reissue (tbranch_modBranch_same u (branchOf x) (fun r => { r with idleSince := u.now })) :).trans ?_
      rw [tbranch, hbranches]
      exact hreissue
    · rw [hstarted]
      exact hproducer'.trans hproducer
  obtain ⟨hrunning, hstart, -, -⟩ := afterTake_startPosting (s := u) x (branchOf x) 8 hknown'
  refine ⟨_, (exec_postingTake s hx ht).trans (congrArg Host.Outcome.next htake), hrunning, ?_, ?_, ?_⟩
  · rw [tslot_of_slots hslots, hstarted, tslot_modSlot_same]
    exact congrArg TellerSlot.deque hslot
  · rw [hstart, absCycle, hclock, absCycle]
  · refine (afterTake_outside _ _ (by decide)).trans ((startPosting_outside _ _ _ _ (by decide)).trans ((houtside _ (by decide)).trans ?_))
    exact State_at_outside s t (by decide)

/-! ### STEAL (R208, R209) -/

/-- With no pushes of this cycle a thief sees the whole deque. -/
theorem oldestSeen_of_deque {s : State} {v : Nat} {e : Nat × Posting} {r : List (Nat × Posting)} (hpushed : s.tellers.pushed = []) (h : (tslot s v).deque = e :: r) : oldestSeen s v = some e := by
  simp [oldestSeen, hpushed, h]

/-- An idle teller with nothing of its own to take, at a probe (R208). -/
structure Probes (s : State) (x t : Nat) : Prop where
  can : canTake s x = true
  empty : ownEntry s x t = none
  probe : t % 16 = 0
  undrawn : s.tellers.draws = []

theorem stealRow_near {s : State} {x t v : Nat} (fuel : Nat) (h : Probes s x t) (hv : victim s x t 0 (siblingsOf x) = some v) : stealRow (fuel + 1) s x t = stealFrom s x v 8 := by
  simp only [stealRow, h.can, h.empty, h.probe, hv, drawOf_none h.undrawn]
  rfl

theorem stealRow_far {s : State} {x t v : Nat} (fuel : Nat) (h : Probes s x t) (hnear : victim s x t 0 (siblingsOf x) = none) (hv : victim s x t 64 (othersOf s x) = some v) :
    stealRow (fuel + 1) s x t = stealFrom s x v 64 := by
  simp only [stealRow, h.can, h.empty, h.probe, hnear, hv, Option.map_some, drawOf_none h.undrawn]
  rfl

/-- A thief has drawn the entry from its victim's deque. -/
def entryDrawn (s : State) (x v : Nat) (e : Nat × Posting) : State := noteDraw (modSlot s v (fun k => { k with deque := k.deque.erase e })) v (some x) e.1 e.2

/-- A steal is counted as near or far by its delay. -/
def stealCounted (s : State) (delay : Nat) : State :=
  { s with tellers := { s.tellers with
    stealsBranch := if delay = 8 then inc 0xFFFF s.tellers.stealsBranch else s.tellers.stealsBranch
    stealsCross := if delay = 8 then s.tellers.stealsCross else inc 0xFFFF s.tellers.stealsCross } }

theorem stealFrom_of_seen {s : State} {v : Nat} {e : Nat × Posting} (x delay : Nat) (hseen : oldestSeen s v = some e) :
    stealFrom s x v delay = stealCounted (afterTake (startPosting (entryDrawn s x v e) x e.2 delay) (branchOf v)) delay := by
  rw [stealFrom, hseen]
  rfl

theorem tslot_stealCounted (s : State) (delay x : Nat) : tslot (stealCounted s delay) x = tslot s x := rfl

theorem absCycle_entryDrawn (s : State) (x v : Nat) (e : Nat × Posting) : absCycle (entryDrawn s x v e) = absCycle s := rfl

theorem entryDrawn_steals (s : State) (x v : Nat) (e : Nat × Posting) :
    (entryDrawn s x v e).tellers.stealsBranch = s.tellers.stealsBranch ∧ (entryDrawn s x v e).tellers.stealsCross = s.tellers.stealsCross := ⟨rfl, rfl⟩

/-- A draw: the thief runs the entry from its delay on. -/
theorem stealFrom_engages {s : State} {v : Nat} {e : Nat × Posting} (x delay : Nat) (hseen : oldestSeen s v = some e) (hknown : knownProgram s e.2.program = true) :
    (tslot (stealFrom s x v delay) x).running = some e.2 ∧ (tslot (stealFrom s x v delay) x).startAt = absCycle s + delay ∧
      (stealFrom s x v delay).tellers.stealsBranch = (if delay = 8 then inc 0xFFFF s.tellers.stealsBranch else s.tellers.stealsBranch) ∧
      (stealFrom s x v delay).tellers.stealsCross = (if delay = 8 then s.tellers.stealsCross else inc 0xFFFF s.tellers.stealsCross) := by
  obtain ⟨hrunning, hstart, hbranch, hcross⟩ := afterTake_startPosting (s := entryDrawn s x v e) x (branchOf v) delay hknown
  obtain ⟨hbranch', hcross'⟩ := entryDrawn_steals s x v e
  rw [stealFrom_of_seen x delay hseen, tslot_stealCounted]
  refine ⟨hrunning, by rw [hstart, absCycle_entryDrawn], ?_, ?_⟩
  · rw [stealCounted, hbranch, hbranch']
  · rw [stealCounted, hcross, hcross']

theorem runs_steal_near {s : State} {x t v : Nat} {e : Nat × Posting} {r : List (Nat × Posting)} (hx : x < 128) (ht : t < 25600) (h : Probes (s.at t) x t) (hpushed : s.tellers.pushed = [])
    (hv : victim (s.at t) x t 0 (siblingsOf x) = some v) (hdeque : (tslot s v).deque = e :: r) (hknown : knownProgram s e.2.program = true) :
    Runs (.steal x t) s (fun u => (tslot u x).running = some e.2 ∧ (tslot u x).startAt = absCycle (s.at t) + 8 ∧ u.tellers.stealsBranch = inc 0xFFFF s.tellers.stealsBranch ∧
      u.tellers.stealsCross = s.tellers.stealsCross) :=
  ⟨_, (exec_steal s hx ht).trans (congrArg Host.Outcome.next (stealRow_near 127 h hv)), stealFrom_engages (s := s.at t) x 8 (oldestSeen_of_deque hpushed hdeque) hknown⟩

theorem runs_steal_far {s : State} {x t v : Nat} {e : Nat × Posting} {r : List (Nat × Posting)} (hx : x < 128) (ht : t < 25600) (h : Probes (s.at t) x t) (hpushed : s.tellers.pushed = [])
    (hnear : victim (s.at t) x t 0 (siblingsOf x) = none) (hv : victim (s.at t) x t 64 (othersOf (s.at t) x) = some v) (hdeque : (tslot s v).deque = e :: r)
    (hknown : knownProgram s e.2.program = true) :
    Runs (.steal x t) s (fun u => (tslot u x).running = some e.2 ∧ (tslot u x).startAt = absCycle (s.at t) + 64 ∧ u.tellers.stealsCross = inc 0xFFFF s.tellers.stealsCross ∧
      u.tellers.stealsBranch = s.tellers.stealsBranch) := by
  obtain ⟨hrunning, hstart, hbranch, hcross⟩ := stealFrom_engages (s := s.at t) x 64 (oldestSeen_of_deque hpushed hdeque) hknown
  exact ⟨_, (exec_steal s hx ht).trans (congrArg Host.Outcome.next (stealRow_far 127 h hnear hv)), hrunning, hstart, hcross, hbranch⟩

/-- A teller that may not start a posting takes none and steals none. -/
theorem exec_take_steal_of_busy {s : State} {x t : Nat} (hx : x < 128) (ht : t < 25600) (h : canTake (s.at t) x = false) :
    exec (.postingTake x t) s = .next (s.at t) ∧ exec (.steal x t) s = .next (s.at t) := by
  refine ⟨(exec_postingTake s hx ht).trans (congrArg Host.Outcome.next ?_), (exec_steal s hx ht).trans (congrArg Host.Outcome.next ?_)⟩
  · simp [postingTake, h]
  · simp [stealRow, h]

/-! ### POSTING_FINISH (R202) -/

theorem read_cellsOf (d : Byte) (bs : List Byte) (a x : Nat) : Memory.read d (Memory.cellsOf d a bs) x = if a ≤ x ∧ x < a + bs.length then bs.getD (x - a) d else d := by
  induction bs generalizing a with
  | nil => simp [Memory.cellsOf, Memory.read]
  | cons b bs ih =>
    have hrest := ih (a + 1)
    have hhead : Memory.read d (Memory.cellsOf d a (b :: bs)) x = if a = x then b else Memory.read d (Memory.cellsOf d (a + 1) bs) x := by
      rw [Memory.cellsOf]
      split
      next hb =>
        split
        next hx => rw [hrest, if_neg (by omega), hb]
        next => rfl
      next => rfl
    rw [hhead, hrest]
    rcases Nat.lt_trichotomy a x with h | rfl | h
    · obtain ⟨k, hk⟩ := Nat.exists_eq_add_of_lt h
      subst hk
      rw [if_neg (by omega), show a + k + 1 - (a + 1) = k by omega, show a + k + 1 - a = k + 1 by omega, List.getD_cons_succ, List.length_cons]
      exact if_congr (by omega) rfl rfl
    · simp
    · rw [if_neg (by omega), if_neg (by omega), if_neg (by omega)]

theorem absent_cellsOf {d : Byte} {bs : List Byte} {a x : Nat} (hx : x < a ∨ a + bs.length ≤ x) : ∀ c ∈ Memory.cellsOf d a bs, c.1 ≠ x := by
  induction bs generalizing a with
  | nil => simp [Memory.cellsOf]
  | cons b bs ih =>
    rw [List.length_cons] at hx
    have hrest := ih (a := a + 1) (by omega)
    unfold Memory.cellsOf
    split
    · exact hrest
    · exact List.forall_mem_cons.2 ⟨by dsimp only; omega, hrest⟩

/-- A string written into a memory, in canonical form or not: its own bytes, and those beside it as before. -/
theorem read_writeN (d : Byte) (m : Cells) (a x : Nat) (bs : List Byte) :
    Memory.read d (Memory.writeN d m a bs) x = if a ≤ x ∧ x < a + bs.length then bs.getD (x - a) d else Memory.read d m x := by
  have hlow := read_filter d (fun k => k < a) m x
  have hhigh := read_filter d (fun k => a + bs.length ≤ k) m x
  rw [Memory.writeN, List.append_assoc]
  by_cases hbelow : x < a
  · rw [← List.append_assoc, read_append_of_absent_right d _ (fun c hc => by simp at hc; omega), read_append_of_absent_right d _ (absent_cellsOf (.inl hbelow)), hlow, if_pos (by simpa using hbelow),
      if_neg (by omega)]
  · rw [read_append_of_absent_left d _ (fun c hc => by simp at hc; omega)]
    by_cases habove : a + bs.length ≤ x
    · rw [read_append_of_absent_left d _ (absent_cellsOf (.inr habove)), hhigh, if_pos (by simpa using habove), if_neg (by omega)]
    · rw [read_append_of_absent_right d _ (fun c hc => by simp at hc; omega), read_cellsOf, if_pos (by omega), if_pos (by omega)]

/-- The teller is idle again, and the posting and its cycles are counted. -/
def postingEnded (s : State) (x : Nat) (p : Posting) : State :=
  let u := modSlot (touchBranch s (branchOf x)) x (fun k => { k with running := none })
  { u with tellers := { u.tellers with
    busyCycles := s.tellers.busyCycles + (absCycle s - (tslot s x).startAt)
    postings := inc 0xFFFFFFFF s.tellers.postings
    finished := (s.tellers.finished ++ [p.index]).eraseDups } }

/-- The outputs of a Combine are in scratch; the result word of another program is with its work. -/
def outputsWritten (s : State) (p : Posting) : State :=
  if p.program = 0 then runCombine s p
  else { s with tellers := { s.tellers with results := s.tellers.results ++ [(p.work, if p.program = 1 then checkWord s p else locateWord s p)] } }

/-- The running posting of a teller is done at this cycle, and no word that it reads is poisoned. -/
structure Finishes (s : State) (x t : Nat) (p : Posting) : Prop where
  running : (tslot s x).running = some p
  due : (tslot s x).startAt + p.estimate ≤ absCycle (s.at t)
  clean : readsPoison s p = false

theorem postingFinish_of_finishes {s : State} {x t : Nat} {p : Posting} (h : Finishes s x t p) :
    postingFinish (s.at t) x = pulse (outputsWritten (postingEnded (s.at t) x p) p) p.work := by
  have hrunning : (tslot (s.at t) x).running = some p := h.running
  have hdue : ¬absCycle (s.at t) < (tslot (s.at t) x).startAt + p.estimate := Nat.not_lt.2 h.due
  have hclean : ¬readsPoison s p = true := by simp [h.clean]
  simp only [postingFinish, hrunning, if_neg hdue]
  exact if_neg hclean

theorem exec_postingFinish {x t : Nat} (s : State) (hx : x < 128) (ht : t < 25600) : exec (.postingFinish x t) s = .next (postingFinish (s.at t) x) :=
  congrArg Host.Outcome.next (if_pos (by simp [hx, ht]))

theorem exec_postingFinish_early {s : State} {x t : Nat} {p : Posting} (hx : x < 128) (ht : t < 25600) (hrunning : (tslot s x).running = some p)
    (hearly : absCycle (s.at t) < (tslot s x).startAt + p.estimate) : exec (.postingFinish x t) s = .next (s.at t) := by
  have hrunning' : (tslot (s.at t) x).running = some p := hrunning
  refine (exec_postingFinish s hx ht).trans (congrArg Host.Outcome.next ?_)
  simp only [postingFinish, hrunning']
  exact if_pos hearly

theorem pulse_tellers (s : State) (id : Nat) : (pulse s id).tellers = s.tellers := same_tellers (ps := [.works, .drives, .gov]) (by simp) (by decide)

theorem pulse_scratch (s : State) (id : Nat) : (pulse s id).scratch = s.scratch := same_scratch (ps := [.works, .drives, .gov]) (by simp) (by decide)

/-- A work with more postings to come counts one off. -/
theorem pulse_of_more {s : State} {id : Nat} {w : Work} (hw : findWork s id = some w) (hstep : w.step = 3) (hmore : 2 ≤ w.postsLeft) :
    pulse s id = modWork s id (fun w => { w with postsLeft := w.postsLeft - 1 }) := by
  have hnone : ¬w.postsLeft = 0 := by omega
  have hlast : ¬w.postsLeft = 1 := by omega
  simp [pulse, hw, hstep, hnone, hlast]

/-- One output with no base: its sum stands at the destination. -/
theorem runCombine_cells {s : State} {p : Posting} {d : Nat} (hdests : p.dests = [d]) (hbases : p.bases = []) :
    (runCombine s p).scratch.cells = Memory.writeN 0 s.scratch.cells d (outputSum s p 0) := by
  simp [runCombine, hdests, hbases]

theorem tslot_postingEnded (s : State) (x : Nat) (p : Posting) : (tslot (postingEnded s x p) x).running = none :=
  (congrArg TellerSlot.running (tslot_modSlot_same (touchBranch s (branchOf x)) x (fun k => { k with running := none })) :)

theorem runs_postingFinish_combine {s : State} {x t d : Nat} {p : Posting} (hx : x < 128) (ht : t < 25600) (h : Finishes s x t p) (hprogram : p.program = 0) (hdests : p.dests = [d])
    (hbases : p.bases = []) :
    Runs (.postingFinish x t) s (fun u => (tslot u x).running = none ∧ u.tellers.postings = inc 0xFFFFFFFF s.tellers.postings ∧
      u.tellers.busyCycles = s.tellers.busyCycles + (absCycle (s.at t) - (tslot s x).startAt) ∧
      ∀ a, Memory.read 0 u.scratch.cells a = if d ≤ a ∧ a < d + (outputSum s p 0).length then (outputSum s p 0).getD (a - d) 0 else Memory.read 0 s.scratch.cells a) := by
  have houtputs : outputsWritten (postingEnded (s.at t) x p) p = runCombine (postingEnded (s.at t) x p) p := if_pos hprogram
  refine ⟨_, (exec_postingFinish s hx ht).trans (congrArg Host.Outcome.next (postingFinish_of_finishes h)), ?_, ?_, ?_, fun a => ?_⟩
  · rw [tslot_of_tellers (pulse_tellers _ _), houtputs]
    exact tslot_postingEnded (s.at t) x p
  · rw [pulse_tellers, houtputs]
    rfl
  · rw [pulse_tellers, houtputs]
    rfl
  · rw [pulse_scratch, houtputs, runCombine_cells hdests hbases]
    exact read_writeN 0 s.scratch.cells d a (outputSum s p 0)

theorem runs_postingFinish_check {s : State} {x t : Nat} {p : Posting} (hx : x < 128) (ht : t < 25600) (h : Finishes s x t p) (hprogram : p.program = 1) :
    Runs (.postingFinish x t) s (fun u => (tslot u x).running = none ∧ u.tellers.results = s.tellers.results ++ [(p.work, checkWord s p)] ∧ u.scratch = s.scratch) := by
  have houtputs : outputsWritten (postingEnded (s.at t) x p) p = { postingEnded (s.at t) x p with
      tellers := { (postingEnded (s.at t) x p).tellers with results := s.tellers.results ++ [(p.work, checkWord s p)] } } := by
    rw [outputsWritten, if_neg (by simp [hprogram]), if_pos hprogram]
    rfl
  refine ⟨_, (exec_postingFinish s hx ht).trans (congrArg Host.Outcome.next (postingFinish_of_finishes h)), ?_, ?_, ?_⟩
  · rw [tslot_of_tellers (pulse_tellers _ _), houtputs]
    exact tslot_postingEnded (s.at t) x p
  · rw [pulse_tellers, houtputs]
  · rw [pulse_scratch, houtputs]
    rfl

theorem outputsWritten_works (s : State) (p : Posting) : (outputsWritten s p).works = s.works := by
  unfold outputsWritten
  split <;> rfl

theorem runs_postingFinish_counts {s : State} {x t : Nat} {p : Posting} {w : Work} (hx : x < 128) (ht : t < 25600) (h : Finishes s x t p) (hw : findWork s p.work = some w) (hstep : w.step = 3)
    (hmore : 2 ≤ w.postsLeft) : Runs (.postingFinish x t) s (fun u => findWork u p.work = some { w with postsLeft := w.postsLeft - 1 }) := by
  have hw' : findWork (outputsWritten (postingEnded (s.at t) x p) p) p.work = some w := (findWork_of_works (outputsWritten_works _ p) p.work).trans hw
  refine ⟨_, (exec_postingFinish s hx ht).trans (congrArg Host.Outcome.next (postingFinish_of_finishes h)), ?_⟩
  rw [pulse_of_more hw' hstep hmore]
  exact findWork_modWork (fun _ => rfl) hw'

/-! ### PARITY_ERROR (R212, R213) -/

/-- The error is counted, and logged with those of its teller that are recent. -/
def parityNoted (s : State) (p : Nat) : State :=
  { s with tellers := { s.tellers with
    parity := inc 0xFFFF s.tellers.parity
    phys := tset s.tellers.phys p { tphys s p with parity := recent (s.ch (·.parityLog) 28) s.now (tphys s p).parity ++ [s.now] } } }

/-- The running posting of a teller is discarded, to be queued again at the next boundary. -/
def runningReissued (s : State) (x : Nat) (q : Posting) : State :=
  let u := modSlot s x (fun k => { k with running := none })
  { u with tellers := { u.tellers with
    reissued := inc 0xFFFF s.tellers.reissued
    atBoundary := s.tellers.atBoundary ++ [((tslot s x).startAt, { q with reissue := true, promoted := true })] } }

/-- The limit stops a teller in service (R213). -/
theorem parityError_of_running {s : State} {x p : Nat} {q : Posting} (hphys : (tslot s x).phys = some p) (hrunning : (tslot s x).running = some q) :
    parityError s x = if s.ch (·.parityLimit) 3 ≤ (recent (s.ch (·.parityLog) 28) s.now (tphys s p).parity ++ [s.now]).length && (tphys s p).state ≤ 1
      then setTeller (runningReissued (parityNoted s p) x q) p 6 id else runningReissued (parityNoted s p) x q := by
  have hrunning' : (tslot (parityNoted s p) x).running = some q := hrunning
  unfold parityNoted at hrunning'
  simp only [parityError, hphys, hrunning']
  rfl

theorem tslot_runningReissued (s : State) (x : Nat) (q : Posting) : (tslot (runningReissued s x q) x).running = none :=
  (congrArg TellerSlot.running (tslot_modSlot_same s x (fun k => { k with running := none })) :)

theorem tphys_runningReissued_parityNoted (s : State) (x p : Nat) (q : Posting) :
    tphys (runningReissued (parityNoted s p) x q) p = { tphys s p with parity := recent (s.ch (·.parityLog) 28) s.now (tphys s p).parity ++ [s.now] } := tget_tset_same _ _ _ _

theorem runs_parityError {s : State} {x p : Nat} {q : Posting} (hphys : (tslot s x).phys = some p) (hrunning : (tslot s x).running = some q) :
    Runs (.parityError x) s (fun t => (tslot t x).running = none ∧ t.tellers.atBoundary = s.tellers.atBoundary ++ [((tslot s x).startAt, { q with reissue := true, promoted := true })] ∧
      t.tellers.parity = inc 0xFFFF s.tellers.parity ∧ t.tellers.reissued = inc 0xFFFF s.tellers.reissued ∧ OnlyIn [.tellers] s t ∧
      (tphys t p).parity = (tphys s p).parity.filter (fun c => s.now < c + 2 ^ s.ch (·.parityLog) 28) ++ [s.now] ∧
      (s.ch (·.parityLimit) 3 ≤ (tphys t p).parity.length → (tphys s p).state ≤ 1 → (tphys t p).state = 6)) := by
  have hteller := tphys_runningReissued_parityNoted s x p q
  have hslot := tslot_runningReissued (parityNoted s p) x q
  have hdropped : OnlyIn [.tellers] s (runningReissued (parityNoted s p) x q) := by simp [OnlyIn, runningReissued, parityNoted]
  have houtside : OnlyIn [.tellers] s (setTeller (runningReissued (parityNoted s p) x q) p 6 id) := (setTeller_outside _ _ _ _ (by decide)).trans hdropped
  refine ⟨_, congrArg Host.Outcome.next (parityError_of_running hphys hrunning), ?_⟩
  split
  next hlimit =>
    refine ⟨hslot, rfl, rfl, rfl, houtside, ?_, fun _ _ => ?_⟩
    · rw [tphys_setTeller_same, hteller]
      rfl
    · rw [tphys_setTeller_same]
      rfl
  next hlimit =>
    refine ⟨hslot, rfl, rfl, rfl, hdropped, ?_, fun hlen hstate => absurd ?_ hlimit⟩
    · rw [hteller]
      rfl
    · rw [hteller] at hlen
      simpa using ⟨by simpa using hlen, hstate⟩

theorem exec_parityError_vacant {s : State} {x : Nat} (h : (tslot s x).phys = none) : exec (.parityError x) s = .next s :=
  congrArg Host.Outcome.next (by simp [parityError, h])

/-- Settles O41: what moves up behind a posting leaves the running ones, and an output is written whole into whatever memory stands there. -/
theorem postingsRun : Obligations.PostingsRun := by
  refine ⟨?_, ?_, ?_, ?_, ?_, ?_, ?_, ?_, ?_, ?_, ?_, ?_, ?_, ?_⟩
  · exact fun _ _ => runs_postingPush_bad
  · exact fun _ _ _ => runs_postingPush_home
  · exact fun _ _ => runs_postingPush_noHome
  · exact fun _ _ => exec_postingPush_unready
  · exact fun _ _ _ _ _ => runs_postingTake
  · exact fun _ _ _ => exec_take_steal_of_busy
  · exact fun x t v e r s hx ht hprobe hcan hempty hdraws hpushed hv hdeque hknown => runs_steal_near hx ht ⟨hcan, hempty, hprobe, hdraws⟩ hpushed hv hdeque hknown
  · exact fun x t v e r s hx ht hprobe hcan hempty hdraws hpushed hnear hv hdeque hknown => runs_steal_far hx ht ⟨hcan, hempty, hprobe, hdraws⟩ hpushed hnear hv hdeque hknown
  · exact fun x t d p s hx ht hrunning hdue hclean => runs_postingFinish_combine hx ht ⟨hrunning, hdue, hclean⟩
  · exact fun x t p s hx ht hrunning hdue hclean => runs_postingFinish_check hx ht ⟨hrunning, hdue, hclean⟩
  · exact fun x t p w s hx ht hrunning hdue hclean => runs_postingFinish_counts hx ht ⟨hrunning, hdue, hclean⟩
  · exact fun _ _ _ _ => exec_postingFinish_early
  · exact fun _ _ _ _ => runs_parityError
  · exact fun _ _ => exec_parityError_vacant

end Sys2Proof.Machine
end

section
namespace Sys2Proof.Machine

/-! ## The vectors of the interrupt sources (O15) -/

/-- In MSI-X mode each source has the vector of its number (R240). -/
theorem vectorOf_msix {c : ConfigSpace} (src : Nat) (h : intModeOf c = 3) : vectorOf c src = src := if_neg (by simp [h])

theorem msiVectors_of_le {c : ConfigSpace} (h : c.mme ≤ 5) : msiVectors c = 2 ^ c.mme :=
  Nat.min_eq_right (Nat.pow_le_pow_right (by decide) h : 2 ^ c.mme ≤ 2 ^ 5)

/-- With one vector in MSI mode every source uses it (R240). -/
theorem vectorOf_msi_one {c : ConfigSpace} (src : Nat) (h : intModeOf c = 2) (hv : msiVectors c = 1) : vectorOf c src = 0 := by simp [vectorOf, h, hv]

/-- With several vectors in MSI mode the rings share all but the last (R240). -/
theorem vectorOf_msi_ring {c : ConfigSpace} {n : Nat} (hn : n < 64) (h : intModeOf c = 2) (hv : msiVectors c ≠ 1) : vectorOf c n = n % (msiVectors c - 1) := by
  simp [vectorOf, h, hv, hn.ne]

/-- With several vectors in MSI mode the management source has the last (R240). -/
theorem vectorOf_msi_mgmt {c : ConfigSpace} (h : intModeOf c = 2) (hv : msiVectors c ≠ 1) : vectorOf c 64 = msiVectors c - 1 := by simp [vectorOf, h, hv]

/-- A vector in MSI mode is one of those granted. -/
theorem vectorOf_msi_lt {c : ConfigSpace} (h : intModeOf c = 2) (hv : 0 < msiVectors c) {src : Nat} (hs : src ≤ 64) : vectorOf c src < msiVectors c := by
  by_cases h1 : msiVectors c = 1
  · rw [vectorOf_msi_one src h h1, h1]
    exact Nat.one_pos
  rcases hs.lt_or_eq with hlt | rfl
  · have hmod := Nat.mod_lt src (show 0 < msiVectors c - 1 by omega)
    rw [vectorOf_msi_ring hlt h h1]
    omega
  · rw [vectorOf_msi_mgmt h h1]
    omega

/-- Settles O15, mode by mode and for MSI by the number of vectors. -/
theorem vectorsOfSources : Obligations.VectorsOfSources := by
  refine ⟨fun c n _ h => ⟨vectorOf_msix n h, vectorOf_msix 64 h⟩, fun c n hn h hm => ?_, fun c h hm => ?_⟩
  · have hpos : 0 < 2 ^ c.mme := Nat.two_pow_pos _
    rw [← msiVectors_of_le hm] at hpos ⊢
    exact ⟨fun h1 => ⟨vectorOf_msi_one n h h1, vectorOf_msi_one 64 h h1⟩, fun h1 => ⟨vectorOf_msi_ring hn h h1, vectorOf_msi_mgmt h h1⟩,
      vectorOf_msi_lt h hpos hn.le, vectorOf_msi_lt h hpos le_rfl⟩
  · have hv : msiVectors c = 8 := (msiVectors_of_le (by omega)).trans (congrArg (2 ^ ·) hm)
    have hring : ∀ n < 64, vectorOf c n = n % 7 := fun n hn => by rw [vectorOf_msi_ring hn h (by omega), hv]
    refine ⟨fun n hn => ?_, hring 7 (by decide), hring 13 (by decide), by rw [vectorOf_msi_mgmt h (by omega), hv]⟩
    rw [hring n (by omega), Nat.mod_eq_of_lt hn]

end Sys2Proof.Machine
end

section
namespace Sys2Proof.Machine

/-! ## The return rings (O23)

### Bytes written in a row, and read again -/

theorem filter_of_none {p : Host.Cell → Bool} {m : Cells} (hp : ∀ c ∈ m, p c = false) : m.filter p = [] :=
  List.filter_eq_nil_iff.mpr fun c hc => by simp [hp c hc]

theorem address_of_mem_cellsOf {d : Byte} {bs : List Byte} {a : Nat} {c : Host.Cell} (hc : c ∈ Memory.cellsOf d a bs) : a ≤ c.1 ∧ c.1 < a + bs.length := by
  by_contra hout
  exact absent_cellsOf (x := c.1) (by omega) c hc rfl

/-- A part of a written memory, piece by piece. -/
theorem filter_writeN (d : Byte) (p : Host.Cell → Bool) (m : Cells) (a : Nat) (bs : List Byte) :
    (Memory.writeN d m a bs).filter p = m.filter (fun c => p c && c.1 < a) ++ (Memory.cellsOf d a bs).filter p ++ m.filter (fun c => p c && a + bs.length ≤ c.1) := by
  rw [Memory.writeN, List.filter_append, List.filter_append, List.filter_filter, List.filter_filter]

theorem cellsOf_append (d : Byte) (bs cs : List Byte) (a : Nat) : Memory.cellsOf d a (bs ++ cs) = Memory.cellsOf d a bs ++ Memory.cellsOf d (a + bs.length) cs := by
  induction bs generalizing a with
  | nil => rfl
  | cons b bs ih =>
    have hnext : Memory.cellsOf d (a + 1) (bs ++ cs) = Memory.cellsOf d (a + 1) bs ++ Memory.cellsOf d (a + (b :: bs).length) cs := by
      rw [ih, List.length_cons, Nat.add_right_comm, Nat.add_assoc]
    by_cases hb : b = d <;> simp [Memory.cellsOf, hb, hnext]

theorem readFrom_of_absent (d : Byte) {m : Cells} {a : Nat} (h : ∀ c ∈ m, c.1 ≠ a) (n : Nat) : Memory.readFrom d m a (n + 1) = d :: Memory.readFrom d m (a + 1) n := by
  cases m with
  | nil => rfl
  | cons e m => exact if_neg (h e (List.mem_cons_self ..))

theorem readFrom_cellsOf (d : Byte) (bs : List Byte) (a : Nat) : Memory.readFrom d (Memory.cellsOf d a bs) a bs.length = bs := by
  induction bs generalizing a with
  | nil => cases h : Memory.cellsOf d a [] <;> rfl
  | cons b bs ih =>
    unfold Memory.cellsOf
    split
    next hb => rw [List.length_cons, readFrom_of_absent d (absent_cellsOf (.inl (Nat.lt_succ_self a))), ih, hb]
    next => simp [Memory.readFrom, ih]

/-- A byte string that was written reads back. -/
theorem readN_writeN_same (d : Byte) (m : Cells) (a : Nat) (bs : List Byte) : Memory.readN d (Memory.writeN d m a bs) a bs.length = bs := by
  rw [Memory.readN, filter_writeN, filter_of_none (m := m) (fun c _ => by simp; omega), filter_of_none (m := m) (fun c _ => by simp), List.nil_append, List.append_nil,
    List.filter_eq_self.mpr (fun c hc => by simpa using address_of_mem_cellsOf hc), readFrom_cellsOf]

/-- A byte string leaves the bytes behind it. -/
theorem readN_writeN_above (d : Byte) (m : Cells) (bs : List Byte) {a x : Nat} (h : a + bs.length ≤ x) (n : Nat) :
    Memory.readN d (Memory.writeN d m a bs) x n = Memory.readN d m x n := by
  have hcells : (Memory.cellsOf d a bs).filter (fun c => x ≤ c.1 && c.1 < x + n) = [] :=
    filter_of_none fun c hc => by have := address_of_mem_cellsOf hc; simp; omega
  have habove : m.filter (fun c => (x ≤ c.1 && c.1 < x + n) && a + bs.length ≤ c.1) = m.filter (fun c => x ≤ c.1 && c.1 < x + n) :=
    List.filter_congr fun c _ => by grind
  rw [Memory.readN, filter_writeN, filter_of_none (m := m) (fun c _ => by simp; omega), hcells, habove, List.nil_append, List.nil_append, Memory.readN]

/-- A byte string written behind another makes one string of the two. -/
theorem writeN_writeN_behind (d : Byte) (m : Cells) (a : Nat) (bs cs : List Byte) :
    Memory.writeN d (Memory.writeN d m a bs) (a + bs.length) cs = Memory.writeN d m a (bs ++ cs) := by
  have hlow : (Memory.writeN d m a bs).filter (fun c => c.1 < a + bs.length) = m.filter (fun c => c.1 < a) ++ Memory.cellsOf d a bs := by
    have hbelow : m.filter (fun c => c.1 < a + bs.length && c.1 < a) = m.filter (fun c => c.1 < a) := List.filter_congr fun c _ => by grind
    have habove : m.filter (fun c => c.1 < a + bs.length && a + bs.length ≤ c.1) = [] := filter_of_none fun c _ => by simp
    have hcells : (Memory.cellsOf d a bs).filter (fun c => c.1 < a + bs.length) = Memory.cellsOf d a bs :=
      List.filter_eq_self.mpr fun c hc => by simpa using (address_of_mem_cellsOf hc).2
    rw [filter_writeN, hbelow, habove, List.append_nil, hcells]
  have hhigh : (Memory.writeN d m a bs).filter (fun c => a + bs.length + cs.length ≤ c.1) = m.filter (fun c => a + bs.length + cs.length ≤ c.1) := by
    have hcells : (Memory.cellsOf d a bs).filter (fun c => a + bs.length + cs.length ≤ c.1) = [] :=
      filter_of_none fun c hc => by have := address_of_mem_cellsOf hc; simp; omega
    have habove : m.filter (fun c => a + bs.length + cs.length ≤ c.1 && a + bs.length ≤ c.1) = m.filter (fun c => a + bs.length + cs.length ≤ c.1) :=
      List.filter_congr fun c _ => by grind
    rw [filter_writeN, filter_of_none (m := m) (fun c _ => by simp; omega), hcells, habove, List.nil_append, List.nil_append]
  rw [Memory.writeN, hlow, hhigh, Memory.writeN, cellsOf_append, List.length_append, Nat.add_assoc]
  simp only [List.append_assoc]

theorem padTo_length (n : Nat) (bs : List Byte) : (padTo n bs).length = n := by simp [padTo, zeros]

/-! ### An entry written at the tail (R273, R275) -/

theorem entryHeader_length (s : State) (n : Nat) (r : Ring) (e : Entry) : (entryHeader s n r e).length = 60 := by
  simp [entryHeader, padTo_length]

theorem rg_of_returns {s t : State} (h : t.returns = s.returns) (n : Nat) : rg t n = rg s n := by rw [rg, h, rg]

theorem rg_modRg_other (s : State) {n m : Nat} (f : Ring → Ring) (h : m ≠ n) : rg (modRg s n f) m = rg s m := tget_tmod_other _ _ f (Ne.symm h)

theorem modRg_hostMem (s : State) (n : Nat) (f : Ring → Ring) : (modRg s n f).hostMem = s.hostMem := rfl

/-- The header of an entry with its phase word. -/
def entryBytes (s : State) (n : Nat) (e : Entry) : List Byte := entryHeader s n (rg s n) e ++ natLe 4 (2 ^ 31 * b1 (rg s n).phase)

/-- Host memory with the payload of an entry behind the place of its header. -/
def payloadMem (s : State) (n : Nat) (e : Entry) (total : Nat) : Cells :=
  if e.kind = 7 || e.len = 0 then s.hostMem
  else Memory.writeN 0 s.hostMem ((rg s n).base + (rg s n).tail + 64) (padTo (total - 64) (Memory.bytes e.payload e.len))

/-- The ring as the tail, the phase, the entry sequence and the count of entries move on. -/
def tailMoved (total : Nat) (r : Ring) : Ring :=
  { r with
    tail := if r.tail + total = 2 ^ r.sizeLog then 0 else r.tail + total
    phase := if r.tail + total = 2 ^ r.sizeLog then !r.phase else r.phase
    seq := r.seq + 1, posted := inc 0xFFFFFFFF r.posted }

theorem putEntry_returns (s : State) (n : Nat) (e : Entry) (total : Nat) : (putEntry s n e total).returns = (modRg s n (tailMoved total)).returns := by
  unfold putEntry
  dsimp only
  split <;> rfl

theorem putEntry_hostMem (s : State) (n : Nat) (e : Entry) (total : Nat) :
    (putEntry s n e total).hostMem = Memory.writeN 0 (payloadMem s n e total) ((rg s n).base + (rg s n).tail) (entryBytes s n e) := by
  have hmem : (putEntry s n e total).hostMem = Memory.writeN 0 (Memory.writeN 0 (payloadMem s n e total) ((rg s n).base + (rg s n).tail) (entryHeader s n (rg s n) e))
      ((rg s n).base + (rg s n).tail + (entryHeader s n (rg s n) e).length) (natLe 4 (2 ^ 31 * b1 (rg s n).phase)) := by
    rw [entryHeader_length, payloadMem]
    unfold putEntry
    dsimp only
    split <;> rfl
  rw [hmem, writeN_writeN_behind, entryBytes]

theorem readN_putEntry_header (s : State) (n : Nat) (e : Entry) (total : Nat) :
    Memory.readN 0 (putEntry s n e total).hostMem ((rg s n).base + (rg s n).tail) 64 = entryBytes s n e := by
  have hlen : (entryBytes s n e).length = 64 := by simp [entryBytes, entryHeader_length]
  rw [putEntry_hostMem, ← hlen, readN_writeN_same]

theorem readN_putEntry_payload (s : State) (n : Nat) {e : Entry} (total : Nat) (hk : e.kind ≠ 7) (hl : 0 < e.len) :
    Memory.readN 0 (putEntry s n e total).hostMem ((rg s n).base + (rg s n).tail + 64) (total - 64) = padTo (total - 64) (Memory.bytes e.payload e.len) := by
  have hread : ∀ bs : List Byte, bs.length = total - 64 → ∀ a, Memory.readN 0 (Memory.writeN 0 s.hostMem a bs) a (total - 64) = bs := fun bs h a => by
    rw [← h, readN_writeN_same]
  rw [putEntry_hostMem, readN_writeN_above 0 _ _ (by simp [entryBytes, entryHeader_length]), payloadMem, if_neg (by simp [hk, hl.ne']), hread _ (padTo_length _ _)]

/-! ### RING_ENTRY_WRITE (R248, R250, R275, R278) -/

/-- The bytes of a ring that an entry takes: its header, and its payload in units of 64. -/
def entrySize (e : Entry) : Nat := 64 + ceilDiv e.len 64 * 64

/-- Free bytes of a ring (R275). -/
def ringFree (r : Ring) : Nat := (r.head + 2 * 2 ^ r.sizeLog - r.tail - 64) % 2 ^ r.sizeLog

/-- Postings may be written: none are held, bus mastering is on, and the unit has not halted (R248). -/
def postingsGo (s : State) : Bool := !(s.chip.halted || s.returns.holding || !s.cfg.busMaster)

theorem postRing_stopped {s : State} {n : Nat} (h : postingsGo s = false) : postRing s n = s := if_pos ((Bool.not_eq_false' _).mp h)

/-- The front entry of a ring goes to its tail. -/
def frontPut (s : State) (n : Nat) (e : Entry) (q : List Entry) : State := modRg (putEntry s n e (entrySize e)) n (fun r => { r with queue := q, waiting := false })

/-- With room and no wrap the front entry is written (R275); a Completion of CLOSE-WAIT would carry the landed close (R297). -/
theorem postRing_room {s : State} {n : Nat} {e : Entry} {q : List Entry} (hgo : postingsGo s = true) (hq : (rg s n).queue = e :: q) (hk : e.kind ≠ 1)
    (hwrap : (rg s n).tail + entrySize e ≤ 2 ^ (rg s n).sizeLog) (hroom : entrySize e ≤ ringFree (rg s n)) : postRing s n = entryIssued (frontPut s n e q) n e := by
  have hstop : (s.chip.halted || s.returns.holding || !s.cfg.busMaster) = false := by simpa [postingsGo] using hgo
  unfold entrySize at hwrap hroom
  unfold ringFree at hroom
  simp only [postRing, hstop, hq, hk, Nat.not_lt.mpr hwrap, hroom, if_true, if_false, decide_false, Bool.false_and, Bool.false_eq_true]
  rfl

/-- Without room the ring waits (R275). -/
theorem postRing_full {s : State} {n : Nat} {e : Entry} {q : List Entry} (hgo : postingsGo s = true) (hq : (rg s n).queue = e :: q)
    (hwrap : (rg s n).tail + entrySize e ≤ 2 ^ (rg s n).sizeLog) (hroom : ringFree (rg s n) < entrySize e) : postRing s n = modRg s n (fun r => { r with waiting := true }) := by
  have hstop : (s.chip.halted || s.returns.holding || !s.cfg.busMaster) = false := by simpa [postingsGo] using hgo
  unfold entrySize at hwrap hroom
  unfold ringFree at hroom
  simp only [postRing, hstop, hq, Nat.not_lt.mpr hwrap, Nat.not_le.mpr hroom, if_false, Bool.false_eq_true]

/-- The ring with one entry more that has not raised its interrupt (R278). -/
def unraisedMore (now : Nat) (r : Ring) : Ring := { r with unraised := r.unraised + 1, oldest := if r.unraised = 0 then now else r.oldest }

/-- A Data entry below the count that raises the interrupt is only counted (R278). -/
theorem entryIssued_quiet {s : State} {n : Nat} {e : Entry} (hk : e.kind = 2) (hf : e.final = none) (hi : (rg s n).unraised + 1 < (rg s n).irqCount) :
    entryIssued s n e = modRg s n (unraisedMore s.now) := by
  have hquiet : ¬ (rg s n).irqCount ≤ (rg s n).unraised + 1 := Nat.not_le.mpr hi
  simp [entryIssued, hk, hf, hquiet]
  rfl

theorem drainEnd'_idle {s : State} (h : s.returns.draining = false) : drainEnd' s = s := if_neg (by simp [h])

theorem rg_drainEnd' (s : State) (n : Nat) : rg (drainEnd' s) n = rg s n := by
  rcases drainEnd'_returns s with h | ⟨h, -⟩ <;> rw [rg, h, rg]

/-- While an entry is queued the drain of the hold goes on. -/
theorem drainEnd'_queued {s : State} {n : Nat} (h : (rg s n).queue ≠ []) : drainEnd' s = s :=
  if_neg fun hd => h (queue_of_all_empty (by simp only [Bool.and_eq_true] at hd; exact hd.2) n)

theorem rg_frontPut (s : State) (n : Nat) (e : Entry) (q : List Entry) :
    rg (frontPut s n e q) n = { tailMoved (entrySize e) (rg s n) with queue := q, waiting := false } := by
  rw [frontPut, rg_modRg_same, rg_of_returns (putEntry_returns ..), rg_modRg_same]

theorem rg_frontPut_other (s : State) {n m : Nat} (e : Entry) (q : List Entry) (h : m ≠ n) : rg (frontPut s n e q) m = rg s m := by
  rw [frontPut, rg_modRg_other _ _ h, rg_of_returns (putEntry_returns ..), rg_modRg_other _ _ h]

theorem frontPut_draining (s : State) (n : Nat) (e : Entry) (q : List Entry) : (frontPut s n e q).returns.draining = s.returns.draining := by
  show (putEntry s n e (entrySize e)).returns.draining = _
  rw [putEntry_returns]
  rfl

theorem runs_ringEntryWrite_room {n : Nat} {e : Entry} {q : List Entry} {s : State} (hgo : postingsGo s = true) (hq : (rg s n).queue = e :: q) (hk : e.kind = 2) (hf : e.final = none)
    (hwrap : (rg s n).tail + entrySize e ≤ 2 ^ (rg s n).sizeLog) (hroom : entrySize e ≤ ringFree (rg s n)) (hi : (rg s n).unraised + 1 < (rg s n).irqCount) :
    Runs (.ringEntryWrite n) s (fun t =>
      (s.returns.draining = false → Memory.readN 0 t.hostMem ((rg s n).base + (rg s n).tail) 64 = entryBytes s n e) ∧
      (s.returns.draining = false → 0 < e.len →
        Memory.readN 0 t.hostMem ((rg s n).base + (rg s n).tail + 64) (entrySize e - 64) = padTo (entrySize e - 64) (Memory.bytes e.payload e.len)) ∧
      rg t n = unraisedMore s.now { tailMoved (entrySize e) (rg s n) with queue := q, waiting := false } ∧ (∀ m, m ≠ n → rg t m = rg s m) ∧ t.cmds = s.cmds) := by
  have hnow : (frontPut s n e q).now = s.now := congrArg Clock.close (same_clock (ps := [.returns, .link, .hostMem]) (by simp [frontPut]) (by decide))
  have hring := rg_frontPut s n e q
  have hpost : postRing s n = modRg (frontPut s n e q) n (unraisedMore s.now) := by
    rw [postRing_room hgo hq (by omega) hwrap hroom, entryIssued_quiet hk hf (by rw [hring]; exact hi), hnow]
  have hmem : s.returns.draining = false → (drainEnd' (postRing s n)).hostMem = (putEntry s n e (entrySize e)).hostMem := fun hd => by
    rw [hpost, drainEnd'_idle (s := modRg (frontPut s n e q) n (unraisedMore s.now)) ((frontPut_draining s n e q).trans hd), modRg_hostMem, frontPut, modRg_hostMem]
  refine ⟨drainEnd' (postRing s n), rfl, fun hd => ?_, fun hd hl => ?_, ?_, fun m hm => ?_, ?_⟩
  · rw [hmem hd, readN_putEntry_header]
  · rw [hmem hd, readN_putEntry_payload s n _ (by omega) hl]
  · rw [rg_drainEnd', hpost, rg_modRg_same, hring]
  · rw [rg_drainEnd', hpost, rg_modRg_other _ _ hm, rg_frontPut_other s e q hm]
  · rw [hpost]
    exact same_cmds (ps := [.wickets, .returns, .ints, .link, .hostMem]) (by simp [frontPut]) (by decide)

theorem runs_ringEntryWrite_full {n : Nat} {e : Entry} {q : List Entry} {s : State} (hgo : postingsGo s = true) (hq : (rg s n).queue = e :: q)
    (hwrap : (rg s n).tail + entrySize e ≤ 2 ^ (rg s n).sizeLog) (hroom : ringFree (rg s n) < entrySize e) :
    Runs (.ringEntryWrite n) s (fun t => rg t n = { rg s n with waiting := true } ∧ (∀ m, m ≠ n → rg t m = rg s m) ∧ OnlyIn [.returns] s t) := by
  have hwait : drainEnd' (postRing s n) = modRg s n (fun r => { r with waiting := true }) := by
    rw [postRing_full hgo hq hwrap hroom, drainEnd'_queued (n := n) (by simp [hq])]
  exact ⟨_, congrArg Host.Outcome.next hwait, rg_modRg_same s n _, fun m hm => rg_modRg_other s _ hm, by simp [OnlyIn]⟩

theorem exec_ringEntryWrite_stopped {n : Nat} {s : State} (h : postingsGo s = false) (hd : s.returns.draining = false) : exec (.ringEntryWrite n) s = .next s := by
  show Host.Outcome.next (drainEnd' (postRing s n)) = _
  rw [postRing_stopped h, drainEnd'_idle hd]

/-! ### Head values (R248, R276) -/

/-- A head value that is used: a multiple of 64, below the size, and in ring order from the head to the tail (R276). -/
def HeadValid (r : Ring) (v : Nat) : Prop :=
  v % 64 = 0 ∧ v < 2 ^ r.sizeLog ∧ (v + 2 ^ r.sizeLog - r.head) % 2 ^ r.sizeLog ≤ (r.tail + 2 ^ r.sizeLog - r.head) % 2 ^ r.sizeLog

theorem headArrives_valid {s : State} {n v : Nat} (h : HeadValid (rg s n) v) :
    (rg (headArrives s n v) n).head = v ∧ (rg (headArrives s n v) n).badHead = (rg s n).badHead ∧ (rg (headArrives s n v) n).fetching = (rg s n).fetching := by
  obtain ⟨h64, hsize, horder⟩ := h
  simp [headArrives, h64, hsize, horder]

theorem headArrives_invalid {s : State} {n v : Nat} (h : ¬ HeadValid (rg s n) v) : headArrives s n v = modRg s n (fun r => { r with badHead := inc 0xFFFF r.badHead }) :=
  if_neg fun hv => h (by simpa [HeadValid, and_assoc] using hv)

theorem exec_retHeadWrite {s : State} {n : Nat} (v : Nat) (hw : writesTaken s = true) (hn : n < 64) : exec (.retHeadWrite n v) s = .next (headArrives s n v) := by
  simp [exec, execRetHeadWrite, hw, hn]

/-- The fetch of a ring's head shadow has ended. -/
def fetchEnded (s : State) (n : Nat) : State := modRg s n (fun r => { r with fetching := false })

theorem exec_shadowFetched {s : State} {n v : Nat} (hf : (rg s n).fetching = true) (hb : s.cfg.busMaster = true) (hv : v < 2 ^ 64) :
    exec (.hostReadCompletion (.shadow n v)) s = .next (headArrives (fetchEnded s n) n v) := by
  show Host.Outcome.next (if (rg s n).fetching then (if s.cfg.busMaster then headArrives (fetchEnded s n) n (v % 2 ^ 64) else fetchEnded s n) else s) = _
  rw [if_pos hf, if_pos hb, Nat.mod_eq_of_lt hv]

theorem runs_shadowFetched {s : State} {n v : Nat} (hf : (rg s n).fetching = true) (hb : s.cfg.busMaster = true) (hv : v < 2 ^ 64) (h : HeadValid (rg s n) v) :
    Runs (.hostReadCompletion (.shadow n v)) s (fun t => (rg t n).head = v ∧ (rg t n).fetching = false ∧ OnlyIn [.returns] s t) := by
  have hring : rg (fetchEnded s n) n = { rg s n with fetching := false } := rg_modRg_same s n _
  obtain ⟨hhead, -, hfetch⟩ := headArrives_valid (s := fetchEnded s n) (n := n) (v := v) (by rw [hring]; exact h)
  exact ⟨_, exec_shadowFetched hf hb hv, hhead, hfetch.trans (by rw [hring]), by simp [OnlyIn, fetchEnded]⟩

theorem runs_shadowLost (n : Nat) (s : State) :
    Runs (.hostReadCompletion (.shadowTimeout n)) s (fun t => rg t n = { rg s n with fetching := false } ∧ OnlyIn [.returns] s t) :=
  ⟨_, rfl, rg_modRg_same s n _, by simp [OnlyIn]⟩

theorem chan_modChan_same {s : State} {n : Nat} (f : Channel → Channel) (hn : n < s.courier.channels.length) : chan (modChan s n f) n = f (chan s n) :=
  modAt_drop_headD f {} n s.courier.channels hn

theorem runs_channelRead {n len : Nat} (bytes : List Byte) {s : State} (hn : n < s.courier.channels.length) (hr : (chan s n).hostRead = some len) (hm : mastersOff s = false ∨ n < 12) :
    Runs (.hostReadCompletion (.channel n bytes)) s
      (fun t => (chan t n).hostRead = none ∧ (chan t n).fetchedData = (chan s n).fetchedData ++ padTo len bytes ∧ OnlyIn [.courier] s t) := by
  have hon : (mastersOff s && decide (12 ≤ n)) = false := by
    rcases hm with hm | hm
    · simp [hm]
    · simp [Nat.not_le.mpr hm]
  refine ⟨modChan s n (fun c => { c with hostRead := none, fetchedData := c.fetchedData ++ padTo len bytes }), by simp [exec, execHostReadCompletion, hr, hon], ?_⟩
  beta_reduce
  rw [chan_modChan_same _ hn]
  exact ⟨rfl, rfl, by simp [OnlyIn]⟩

/-! ### RING_ENABLE_SET and RING_ENABLE_CLEAR (R272, R279) -/

theorem exec_ringEnableSet {s : State} {n : Nat} (hw : writesTaken s = true) (hn : n < 64) : exec (.ringEnableSet n) s = .next (ringEnable s n) := by
  simp [exec, execRingEnableSet, hw, hn]

theorem runs_ringEnableSet_fresh {n : Nat} {s : State} (hw : writesTaken s = true) (hn : n < 64) (he : (rg s n).enable = false) :
    Runs (.ringEnableSet n) s (fun t => (rg t n).enable = true ∧ (rg t n).head = 0 ∧ (rg t n).tail = 0 ∧ (rg t n).phase = true ∧ (rg t n).queue = [] ∧ (rg t n).draining = false ∧
      (rg t n).base = (rg s n).base ∧ (rg t n).sizeLog = (rg s n).sizeLog ∧ (∀ m, m ≠ n → rg t m = rg s m) ∧ OnlyIn [.returns] s t) := by
  have hring : rg (ringEnable s n) n =
      { rg s n with enable := true, draining := false, waiting := false, head := 0, tail := 0, phase := true, queue := [], written := [], unraised := 0 } := by
    simp [ringEnable, he]
  refine ⟨ringEnable s n, exec_ringEnableSet hw hn, ?_⟩
  beta_reduce
  rw [hring]
  exact ⟨rfl, rfl, rfl, rfl, rfl, rfl, rfl, rfl, fun m hm => rg_modRg_other s _ hm, by simp [OnlyIn]⟩

/-- ENABLE written 1 on a ring that has it changes no ring (R279). -/
theorem rg_ringEnable_again {s : State} {n : Nat} (he : (rg s n).enable = true) (m : Nat) : rg (ringEnable s n) m = rg s m := by
  by_cases hm : m = n
  · subst hm
    simp [ringEnable, he]
  · exact rg_modRg_other s _ hm

theorem exec_ringEnableClear {s : State} {n : Nat} (hw : writesTaken s = true) (hn : n < 64) : exec (.ringEnableClear n) s = .next (ringDisable s n) := by
  simp [exec, execRingEnableClear, hw, hn]

theorem runs_ringEnableClear_busy {n : Nat} {s : State} (hw : writesTaken s = true) (hn : n < 64) (he : (rg s n).enable = true) (hb : ringBusy s n = true) :
    Runs (.ringEnableClear n) s (fun t => rg t n = { rg s n with draining := true } ∧ OnlyIn [.returns] s t) :=
  ⟨ringDisable s n, exec_ringEnableClear hw hn, by simp [ringDisable, he, hb], by simp [OnlyIn]⟩

theorem runs_ringEnableClear_free {n : Nat} {s : State} (hw : writesTaken s = true) (hn : n < 64) (he : (rg s n).enable = true) (hb : ringBusy s n = false) :
    Runs (.ringEnableClear n) s (fun t => rg t n = { rg s n with enable := false, draining := false } ∧ OnlyIn [.returns] s t) :=
  ⟨ringDisable s n, exec_ringEnableClear hw hn, by simp [ringDisable, he, hb], by simp [OnlyIn]⟩

/-! ### The statement -/

theorem postingsGo_of {s : State} (hh : s.chip.halted = false) (hp : s.returns.holding = false) (hb : s.cfg.busMaster = true) : postingsGo s = true := by
  simp [postingsGo, hh, hp, hb]

/-- Settles O23: an entry by what `putEntry` writes and where the tail goes, a head value by `headArrives`, a ring's ENABLE by `ringEnable` and `ringDisable`. -/
theorem returnRings : Obligations.ReturnRings := by
  refine ⟨fun n e q s hh hp hb hq hk _ hf hwrap hroom hi => ?_, ⟨fun n e q s hh hp hb hq hwrap hroom => ?_, fun n s h hd => ?_⟩,
    ⟨fun n v s hw hn h => ?_, fun n v s hw hn h => ?_, fun n v s hf hb hv h => runs_shadowFetched hf hb hv h, runs_shadowLost, fun n len bytes s => runs_channelRead bytes⟩,
    fun n s => runs_ringEnableSet_fresh, fun n s hw hn he => ⟨_, exec_ringEnableSet hw hn, rg_ringEnable_again he⟩,
    fun n s => runs_ringEnableClear_busy, fun n s => runs_ringEnableClear_free⟩
  · obtain ⟨t, hexec, hhead, hpay, hring, hother, hcmds⟩ := runs_ringEntryWrite_room (postingsGo_of hh hp hb) hq hk hf hwrap hroom hi
    refine ⟨t, hexec, hhead, hpay, ?_⟩
    rw [hring]
    exact ⟨rfl, rfl, rfl, rfl, rfl, hother, hcmds⟩
  · exact runs_ringEntryWrite_full (postingsGo_of hh hp hb) hq hwrap hroom
  · exact exec_ringEntryWrite_stopped (by rcases h with h | h | h <;> simp [postingsGo, h]) hd
  · obtain ⟨hhead, hbad, -⟩ := headArrives_valid h
    exact ⟨_, exec_retHeadWrite v hw hn, hhead, hbad, by simp [OnlyIn]⟩
  · refine ⟨_, exec_retHeadWrite v hw hn, ?_, by simp [OnlyIn]⟩
    rw [headArrives_invalid h, rg_modRg_same]

end Sys2Proof.Machine
end

section
namespace Sys2Proof.Machine

/-! ## Function-level and hot resets (O25)

### A change of the device state that is not signalled -/

theorem sendLtr_linkUp (s : State) : (sendLtr s).link.up = s.link.up := by
  unfold sendLtr
  split <;> rfl

theorem fire_link (s : State) (kind cause arg : Nat) (detail : List Byte) (alert : Bool) : (fire s kind cause arg detail alert).link = s.link :=
  same_link (ps := [.daybook]) (by simp) (by decide)

theorem powerSet_linkUp (s : State) (st reason : Nat) : (powerSet s st reason).link.up = s.link.up := by
  have hmark : ∀ u : State, u.outside [.drives, .gov, .tellers, .scratch] = (powerMarked s st reason).outside [.drives, .gov, .tellers, .scratch] → (sendLtr u).link.up = s.link.up := fun u hu => by
    rw [sendLtr_linkUp, same_link hu (by decide)]
    rfl
  unfold powerSet
  rw [fire_link]
  refine hmark _ ?_
  (repeat' split) <;> simp

theorem powerTo_quiet_linkUp (s : State) (st reason : Nat) : (powerTo s st reason false).link.up = s.link.up := by
  rw [powerTo_eq]
  split
  · rfl
  · exact powerSet_linkUp s st reason

/-- The parts that a change of the device state may change. -/
def powerParts : List Part := [.drives, .gov, .tellers, .scratch, .ints, .link, .power, .daybook, .hostMem]

/-! ### A reset begins (R245, R247) -/

/-- D0 before the reset: a part in Dormant returns to the state it had before, and a waiting entry is abandoned. -/
def d3hotLeft (s : State) (kind : Nat) : State :=
  if s.cfg.powerState ≠ 0 then
    let u : State := { s with cfg := { s.cfg with powerState := 0 } }
    if u.power.state = 3 then powerTo u u.power.back (if kind = 1 then 4 else 5) false else { u with power := { u.power with entryPending := false, target := u.power.state } }
  else s

/-- The enables clear, and a hot reset takes the link down. -/
def resetBegun (s : State) (kind : Nat) : State :=
  { s with
    cfg := { s.cfg with busMaster := false, memSpace := false }
    ints := { s.ints with wakeLow := false }
    link := if kind = 1 then { s.link with up := false, training := true } else s.link
    resets := { s.resets with kind, since := s.now, accounted := false } }

/-- A wicket that is Closed with nothing waiting. -/
def wicketClosed (w : Wicket) : Wicket := { w with state := 0, waitingCommits := [], arrived := [] }

theorem startReset_fresh {s : State} (kind : Nat) (ha : alive s = true) (hr : s.resets.kind = 0) :
    startReset s kind = setAllWickets (holdPostings (resetBegun (d3hotLeft s kind) kind)) wicketClosed := by
  unfold startReset
  rw [if_neg (by simp [ha]), if_neg (by simp [hr])]
  rfl

/-- A hot reset that finds a function-level reset under way makes one reset of both (R247). -/
theorem startReset_hot_again {s : State} (ha : alive s = true) (hr : s.resets.kind ≠ 0) :
    startReset s 1 = { s with resets := { s.resets with kind := 1, since := s.now }, link := { s.link with up := false, training := true } } := by
  unfold startReset
  rw [if_neg (by simp [ha]), if_pos hr, if_pos rfl]

/-- The parts that a reset may change as it begins, but for the wickets. -/
def beginParts : List Part := [.drives, .gov, .tellers, .scratch, .returns, .ints, .cfg, .link, .power, .resets, .daybook, .hostMem]

theorem d3hotLeft_frame (s : State) (kind : Nat) : (d3hotLeft s kind).outside beginParts = s.outside beginParts := by
  unfold d3hotLeft
  dsimp only
  (repeat' split) <;> simp [beginParts]

theorem resetBegun_frame (s : State) (kind : Nat) : (holdPostings (resetBegun (d3hotLeft s kind) kind)).outside beginParts = s.outside beginParts := by
  rw [← d3hotLeft_frame s kind]
  simp [resetBegun, beginParts]

theorem d3hotLeft_powerState (s : State) (kind : Nat) : (d3hotLeft s kind).cfg.powerState = 0 := by
  unfold d3hotLeft
  dsimp only
  split
  · split
    · rw [same_cfg (s := { s with cfg := { s.cfg with powerState := 0 } }) (ps := powerParts) (by simp [powerParts]) (by decide)]
    · rfl
  · exact not_not.mp ‹_›

theorem d3hotLeft_linkUp (s : State) (kind : Nat) : (d3hotLeft s kind).link.up = s.link.up := by
  unfold d3hotLeft
  dsimp only
  split
  · split
    · rw [powerTo_quiet_linkUp]
    · rfl
  · rfl

/-- What every reset does as it begins. -/
theorem startReset_effects {s : State} (kind : Nat) (ha : alive s = true) (hr : s.resets.kind = 0) :
    let t := startReset s kind
    (t.resets.kind = kind ∧ t.resets.since = s.now ∧ t.resets.accounted = false) ∧ (t.cfg.busMaster = false ∧ t.cfg.memSpace = false ∧ t.cfg.powerState = 0) ∧ t.returns.holding = true ∧
      t.link = (resetBegun (d3hotLeft s kind) kind).link ∧ (∀ w < wicketCount s, wk t w = wicketClosed (wk s w)) ∧ t.cmds = s.cmds ∧ t.ledger = s.ledger := by
  have hbegun := resetBegun_frame s kind
  have hframe : (startReset s kind).outside [.wickets] = (holdPostings (resetBegun (d3hotLeft s kind) kind)).outside [.wickets] := by
    rw [startReset_fresh kind ha hr]
    simp
  have hhold : (holdPostings (resetBegun (d3hotLeft s kind) kind)).outside [.returns] = (resetBegun (d3hotLeft s kind) kind).outside [.returns] := by simp
  intro t
  refine ⟨?_, ?_, ?_, (same_link hframe (by decide)).trans (same_link hhold (by decide)), fun w hw => ?_, ?_, ?_⟩
  · rw [same_resets hframe (by decide), same_resets hhold (by decide)]
    exact ⟨rfl, now_of_frame (d3hotLeft_frame s kind) (by decide), rfl⟩
  · rw [same_cfg hframe (by decide), same_cfg hhold (by decide)]
    exact ⟨rfl, rfl, d3hotLeft_powerState s kind⟩
  · rw [same_returns hframe (by decide), holdPostings_holding]
  · have hcount : wicketCount (holdPostings (resetBegun (d3hotLeft s kind) kind)) = wicketCount s := ch_of_frame _ _ hbegun (by decide)
    show wk (startReset s kind) w = _
    rw [startReset_fresh kind ha hr, wk_setAllWickets _ _ (hcount.symm ▸ hw), wk_of_wickets (same_wickets hbegun (by decide))]
  · exact (same_cmds hframe (by decide)).trans (same_cmds hbegun (by decide))
  · exact (same_ledger hframe (by decide)).trans (same_ledger hbegun (by decide))

theorem runs_functionLevelReset {s : State} (ha : alive s = true) (hr : s.resets.kind = 0) (hl : s.link.up = true) :
    Runs .functionLevelReset s (fun t => t.resets.kind = 2 ∧ t.resets.since = s.now ∧ t.resets.accounted = false ∧ t.cfg.busMaster = false ∧ t.cfg.memSpace = false ∧ t.cfg.powerState = 0 ∧
      t.returns.holding = true ∧ t.link.up = true ∧ (∀ w < wicketCount s, (wk t w).state = 0 ∧ (wk t w).waitingCommits = [] ∧ (wk t w).arrived = []) ∧ t.cmds = s.cmds ∧ t.ledger = s.ledger) := by
  obtain ⟨⟨hkind, hsince, hacc⟩, ⟨hbm, hms, hps⟩, hhold, hlink, hwk, hcmds, hledger⟩ := startReset_effects 2 ha hr
  refine ⟨startReset s 2, by simp only [exec, execFunctionLevelReset, hl, if_true], hkind, hsince, hacc, hbm, hms, hps, hhold, ?_, fun w hw => ?_, hcmds, hledger⟩
  · rw [hlink]
    exact (d3hotLeft_linkUp s 2).trans hl
  · rw [hwk w hw]
    exact ⟨rfl, rfl, rfl⟩

theorem runs_hotReset {s : State} (ha : alive s = true) (hr : s.resets.kind = 0) :
    Runs .hotReset s (fun t => t.resets.kind = 1 ∧ t.resets.since = s.now ∧ t.cfg.busMaster = false ∧ t.cfg.memSpace = false ∧ t.returns.holding = true ∧ t.link.up = false ∧ t.link.training = true ∧
      (∀ w < wicketCount s, (wk t w).state = 0) ∧ t.cmds = s.cmds ∧ t.ledger = s.ledger) := by
  obtain ⟨⟨hkind, hsince, -⟩, ⟨hbm, hms, -⟩, hhold, hlink, hwk, hcmds, hledger⟩ := startReset_effects 1 ha hr
  refine ⟨startReset s 1, rfl, hkind, hsince, hbm, hms, hhold, ?_, ?_, fun w hw => ?_, hcmds, hledger⟩
  · rw [hlink]
    rfl
  · rw [hlink]
    rfl
  · rw [hwk w hw]
    rfl

theorem runs_hotReset_again {s : State} (ha : alive s = true) (hr : s.resets.kind = 2) :
    Runs .hotReset s (fun t => t.resets.kind = 1 ∧ t.resets.account = s.resets.account ∧ t.link.up = false ∧ t.link.training = true ∧ OnlyIn [.resets, .link] s t) := by
  refine ⟨_, congrArg Host.Outcome.next (startReset_hot_again ha (by omega)), rfl, rfl, rfl, rfl, ?_⟩
  simp [OnlyIn]

/-! ### A reset is complete (R245, R246) -/

/-- The device state returns to Full. -/
def resetPowered (s : State) : State :=
  let u := powerTo s 0 (if s.resets.kind = 1 then 4 else 5) false
  if s.power.state ≠ 0 then u else { u with power := { u.power with eventClose := u.now } }

/-- The registers of the host return to reset, and the reset is counted. -/
def hostRegistersReset (s : State) (kind : Nat) : State :=
  { s with
    power := { s.power with state := 0, entryPending := false, target := 0, exitCause := if kind = 1 then 4 else 5, eventClose := s.now, back := 0, due := [], entryTag := none, exitDue := false }
    cfg := { ({} : ConfigSpace) with read := s.cfg.read }
    link := if kind = 1 then { s.link with recoveries := 0, replays := 0 } else s.link
    wickets := { ({} : Wickets) with unitFailed := s.wickets.unitFailed }
    returns := {}
    ints := {}
    feats := { s.feats with value := [], due := [], holdoffs := (s.now, (envelope s 2).dflt) :: s.feats.holdoffs }
    resets := { s.resets with
      kind := 0
      hot := if kind = 1 then inc 0xFFF s.resets.hot else s.resets.hot
      flr := if kind = 1 then s.resets.flr else inc 0xFFF s.resets.flr
      last := s.now } }

/-- The registers, the courier's channels and the wickets at reset. -/
def hostSideReset (s : State) : State :=
  let u := hostRegistersReset (resetPowered s) s.resets.kind
  setAllWickets (resetCourier u) (fun w => { w with state := openState u })

theorem resetDone_eq (s : State) :
    resetDone s = fire (updateIrq (hostSideReset s)) 0x1C (if s.resets.kind = 1 then 1 else 2) (resetPowered s).resets.account.length (natLe 8 (updateIrq (hostSideReset s)).now) false := rfl

theorem exec_resetComplete {s : State} (hc : s.clock.cycle = 0) (hr : resetReady s = true) : exec .resetComplete s = .next (resetDone s) := by
  simp only [exec, execResetComplete, hc, resetBoundary, hr, if_true]

theorem resetPowered_frame (s : State) : (resetPowered s).outside powerParts = s.outside powerParts := by
  unfold resetPowered
  dsimp only
  split <;> simp [powerParts]

theorem hostSideReset_outside (s : State) :
    (hostSideReset s).outside [.wickets, .courier] = (hostRegistersReset (resetPowered s) s.resets.kind).outside [.wickets, .courier] := by
  simp [hostSideReset]

/-- What a completed reset keeps of the registers as they were reset. -/
theorem resetDone_frame (s : State) :
    (resetDone s).outside [.wickets, .courier, .ints, .link, .daybook, .hostMem] =
      (hostRegistersReset (resetPowered s) s.resets.kind).outside [.wickets, .courier, .ints, .link, .daybook, .hostMem] := by
  simp [resetDone_eq, hostSideReset]

theorem hostRegistersReset_resets (s : State) :
    (hostRegistersReset (resetPowered s) s.resets.kind).resets = { s.resets with
      kind := 0
      hot := if s.resets.kind = 1 then inc 0xFFF s.resets.hot else s.resets.hot
      flr := if s.resets.kind = 1 then s.resets.flr else inc 0xFFF s.resets.flr
      last := s.now } := by
  have hframe := resetPowered_frame s
  rw [hostRegistersReset, same_resets hframe (by decide), now_of_frame hframe (by decide)]

theorem hostRegistersReset_cfg (s : State) : (hostRegistersReset (resetPowered s) s.resets.kind).cfg = { ({} : ConfigSpace) with read := s.cfg.read } := by
  rw [hostRegistersReset, same_cfg (resetPowered_frame s) (by decide)]

/-- Outside the MSI modes an evaluation keeps no message (R241). -/
theorem updateIrq_kept_nil {s : State} (hm : intModeOf s.cfg = 1) (hk : s.ints.kept = []) : (updateIrq s).ints.kept = [] := by
  have hforce : (modeInForce s).ints.kept = [] := by
    unfold modeInForce
    split
    · exact hk
    · rfl
  rw [updateIrq_eq]
  split
  · exact hk
  · rw [if_neg (by simp [hm])]
    exact hforce

/-- No source is pending behind a reset, and no message is kept. -/
theorem resetDone_ints (s : State) : (resetDone s).ints.ringPending = 0 ∧ (resetDone s).ints.cause = 0 ∧ (resetDone s).ints.kept = [] := by
  have hints : (hostSideReset s).ints = {} := same_ints (hostSideReset_outside s) (by decide)
  have hmode : intModeOf (hostSideReset s).cfg = 1 := by
    rw [same_cfg (hostSideReset_outside s) (by decide), hostRegistersReset_cfg]
    rfl
  have hfire : (resetDone s).ints = (updateIrq (hostSideReset s)).ints := same_ints (ps := [.daybook]) (by simp [resetDone_eq]) (by decide)
  obtain ⟨hring, hcause, -, -⟩ := updateIrq_sourceBits (hostSideReset s)
  rw [hfire, hring, hcause, updateIrq_kept_nil hmode (by rw [hints]), hints]
  exact ⟨rfl, rfl, rfl⟩

theorem openState_hostRegistersReset (s : State) : openState (hostRegistersReset (resetPowered s) s.resets.kind) = openState s := by
  have hchip : (resetPowered s).chip = s.chip := same_chip (resetPowered_frame s) (by decide)
  rw [openState, openState, ← hchip]
  rfl

/-- Every wicket is at reset: Free where commands are taken (R246). -/
theorem wk_resetDone {s : State} {w : Nat} (hw : w < wicketCount s) : wk (resetDone s) w = { ({} : Wicket) with state := openState s } := by
  have hwickets : (resetDone s).wickets = (hostSideReset s).wickets := same_wickets (ps := [.ints, .link, .daybook, .hostMem]) (by simp [resetDone_eq]) (by decide)
  have hcount : wicketCount (resetCourier (hostRegistersReset (resetPowered s) s.resets.kind)) = wicketCount s :=
    ch_of_frame (t := resetPowered s) _ _ (resetPowered_frame s) (by decide)
  rw [wk_of_wickets hwickets, hostSideReset, wk_setAllWickets _ _ (hw.trans_eq hcount.symm), openState_hostRegistersReset]
  rfl

theorem runs_resetComplete {s : State} (hc : s.clock.cycle = 0) (hr : resetReady s = true) :
    Runs .resetComplete s (fun t => t.resets.kind = 0 ∧ t.resets.last = s.now ∧
      t.resets.hot = (if s.resets.kind = 1 then inc 0xFFF s.resets.hot else s.resets.hot) ∧ t.resets.flr = (if s.resets.kind = 1 then s.resets.flr else inc 0xFFF s.resets.flr) ∧
      t.returns = {} ∧ t.ints.ringPending = 0 ∧ t.ints.cause = 0 ∧ t.ints.kept = [] ∧ t.cfg = { ({} : ConfigSpace) with read := s.cfg.read } ∧ t.power.state = 0 ∧ t.power.entryTag = none ∧
      (∀ w < wicketCount s, wk t w = { ({} : Wicket) with state := openState s }) ∧ t.ledger = s.ledger ∧ t.vols = s.vols ∧ t.now = s.now) := by
  have hframe := resetDone_frame s
  have hkept : (resetDone s).outside (allBut [.ledger, .vols, .clock]) = s.outside (allBut [.ledger, .vols, .clock]) := by simp [allBut]
  obtain ⟨hring, hcause, hkeep⟩ := resetDone_ints s
  refine ⟨resetDone s, exec_resetComplete hc hr, ?_⟩
  beta_reduce
  rw [same_resets hframe (by decide), hostRegistersReset_resets, same_returns hframe (by decide), same_cfg hframe (by decide), hostRegistersReset_cfg, same_power hframe (by decide)]
  exact ⟨rfl, rfl, rfl, rfl, rfl, hring, hcause, hkeep, rfl, rfl, rfl, fun w hw => wk_resetDone hw, same_ledger hkept (by decide), same_vols hkept (by decide), now_of_frame hkept (by decide)⟩

/-- Settles O25: a reset begins by `startReset`, and ends by `resetDone` with the host's side at reset. -/
theorem resetsOfTheHost : Obligations.ResetsOfTheHost :=
  ⟨⟨fun _ => runs_functionLevelReset, fun _ => runs_hotReset, fun _ => runs_hotReset_again⟩, fun _ => runs_resetComplete⟩

end Sys2Proof.Machine
end

section
namespace Sys2Proof.Machine

/-! ## The account entry (O14) -/

/-! ### Fields of a byte string -/

theorem le_natLe_append (k : Nat) {v : Nat} (bs : List Byte) (h : v < 256 ^ k) : le (natLe k v ++ bs) 0 k = v := by
  rw [le, List.drop_zero, List.take_left' (natLe_length k v), leNat_natLe k h]

theorem le_natLe (k : Nat) {v : Nat} (h : v < 256 ^ k) : le (natLe k v) 0 k = v := by
  simpa using le_natLe_append k [] h

/-- A field behind another one is a field of the rest. -/
theorem le_behind_natLe (k v : Nat) (bs : List Byte) {off : Nat} (len : Nat) (h : k ≤ off) : le (natLe k v ++ bs) off len = le bs (off - k) len := by
  rw [le, List.drop_append, List.drop_eq_nil_of_le (by simpa using h), natLe_length, List.nil_append, le]

/-! ### The entry (R284) -/

theorem acctBytes_length (a : AcctLine) : (acctBytes a).length = 16 := by simp [acctBytes]

theorem acctBytes_fields {a : AcctLine} (hw : a.wicket < 65536) (hs : a.seq < 65536) (hf : a.fate < 256) (ho : a.opcode < 256) (hc : a.close < 2 ^ 64) :
    le (acctBytes a) 0 2 = a.tag % 2 ^ 14 ∧ le (acctBytes a) 2 2 = a.wicket ∧ le (acctBytes a) 4 2 = a.seq ∧ le (acctBytes a) 6 1 = a.fate ∧ le (acctBytes a) 7 1 = a.opcode ∧
      le (acctBytes a) 8 8 = a.close := by
  have ht : a.tag % 16384 < 256 ^ 2 := by omega
  simp only [acctBytes, List.append_assoc]
  refine ⟨le_natLe_append 2 _ ht, ?_, ?_, ?_, ?_, ?_⟩ <;> simp only [le_behind_natLe, Nat.reduceLeDiff, Nat.reduceSub]
  · exact le_natLe_append 2 _ hw
  · exact le_natLe_append 2 _ hs
  · exact le_natLe_append 1 _ hf
  · exact le_natLe_append 1 _ ho
  · exact le_natLe 8 hc

/-! ### Page 0x21 and Account entries of a ring (R245, R282) -/

/-- The entries of a page stand behind its header of 32 bytes (R307). -/
theorem logPage_drop (page size close serial : Nat) (es : List (List Byte)) : (logPage page size close serial es).drop 32 = es.flatten :=
  List.drop_left' (by simp [zeros])

theorem pageBytes_resetAccount {s : State} {p : List Byte} (h : pageBytes s 0x21 = some p) : p.drop 32 = s.resets.account.flatMap acctBytes := by
  obtain rfl : logPage 0x21 16 s.resets.accountClose 0 (s.resets.account.map acctBytes) = p := Option.some.inj h
  rw [logPage_drop, List.flatMap_def]

/-- The one Account entry of lines that fit into a part; what its header leaves open are free values. -/
def soleAccount (s : State) (reason wicket : Nat) (prior : Bool) (lines : List AcctLine) : Entry :=
  (openFields s {
    kind := 4
    flags := b1 true + 2 * b1 prior
    payload := Memory.ofBytes (lines.flatMap acctBytes)
    len := 16 * lines.length
    spec := natLe 1 reason ++ [0] ++ natLe 2 wicket ++ natLe 4 lines.length ++ natLe 4 0 } true).2

theorem accountEntries_one {s : State} {ring : Nat} {lines : List AcctLine} (reason wicket : Nat) (prior : Bool) (hfit : lines.length ≤ (rg s ring).lmax / 16) :
    accountEntries s ring reason wicket prior lines = enqueue (takeFree s).1 ring (soleAccount s reason wicket prior lines) := by
  have hper : lines.length ≤ max 1 ((rg s ring).lmax / 16) := by omega
  simp only [accountEntries, accountParts, hper, List.take_of_length_le, decide_true, if_true]
  rfl

theorem mem_accountEntries_queue {s : State} {ring : Nat} {lines : List AcctLine} (reason wicket : Nat) (prior : Bool) (hring : (rg s ring).enable = true) (hh : s.returns.holding = false)
    (hb : s.cfg.busMaster = true) (hfit : lines.length ≤ (rg s ring).lmax / 16) :
    soleAccount s reason wicket prior lines ∈ (rg (accountEntries s ring reason wicket prior lines) ring).queue := by
  have hopen : (rg (takeFree s).1 ring).enable = true := hring
  rw [accountEntries_one reason wicket prior hfit, enqueue_open (s := (takeFree s).1) ring _ hb hh, if_pos hopen, rg_modRg_same]
  exact List.mem_append_right _ (List.mem_singleton_self _)

/-- Settles O14: an entry's bytes are its fields in the order of R284; page 0x21 and an Account entry hold one after the other. -/
theorem accountEntryLayout : Obligations.AccountEntryLayout :=
  ⟨fun a hw hs hf ho hc => ⟨acctBytes_length a, acctBytes_fields hw hs hf ho hc⟩, fun _ _ => pageBytes_resetAccount,
    fun s _ reason wicket prior lines hring hh hb hfit => ⟨soleAccount s reason wicket prior lines, mem_accountEntries_queue reason wicket prior hring hh hb hfit, rfl, rfl, rfl⟩⟩

end Sys2Proof.Machine
end

section
namespace Sys2Proof.Machine

/-! ## The admin commands (O29) -/

/-! ### Commands that their row acts on, and commands that end (R63, R295) -/

theorem findCmd_of_cmdIn {s : State} {tag : Nat} {c : Cmd} {p : Cmd → Bool} (h : cmdIn s tag p = some c) : findCmd s tag = some c := (Option.filter_eq_some_iff.1 h).1

theorem findCmd_of_startedCmd {s : State} {tag opcode : Nat} {c : Cmd} (h : startedCmd s tag opcode = some c) : findCmd s tag = some c := findCmd_of_cmdIn h

theorem findCmd_of_imageCmd {s : State} {tag action : Nat} {c : Cmd} (h : imageCmd s tag action = some c) : findCmd s tag = some c :=
  findCmd_of_startedCmd (Option.filter_eq_some_iff.1 h).1

theorem finish_flash (s : State) (tag status detail : Nat) (result : List Byte) : (finish s tag status detail result).flash = s.flash := same_flash (ps := [.cmds, .returns]) (by simp) (by decide)

theorem finish_feats (s : State) (tag status detail : Nat) (result : List Byte) : (finish s tag status detail result).feats = s.feats := same_feats (ps := [.cmds, .returns]) (by simp) (by decide)

/-- A command ended with data carries it. -/
theorem ended_finishData {s : State} {tag : Nat} {c : Cmd} (data : Cells) (len : Nat) (result : List Byte) (h : findCmd s tag = some c) :
    Ended (finishData s tag data len result) tag 0 0 result ∧ ∃ k, findCmd (finishData s tag data len result) tag = some k ∧ k.data = data ∧ k.dataLen = len := by
  obtain ⟨p, hp, hc⟩ := findCmd_finish 0 0 result (findCmd_modCmd_of_hdr (f := fun c => { c with data, dataLen := len }) (fun _ => rfl) h)
  exact ⟨⟨_, hc, hp, rfl, rfl, rfl⟩, _, hc, rfl, rfl⟩

/-- A command that its row leaves to the next boundary. -/
theorem findCmd_busy {s : State} {tag : Nat} {c : Cmd} (h : findCmd s tag = some c) : findCmd (modCmd s tag (fun c => { c with phase := .busy })) tag = some { c with phase := .busy } :=
  findCmd_modCmd_of_hdr (f := fun c => { c with phase := .busy }) (fun _ => rfl) h

/-! ### IDENTIFY (R303, R304) -/

theorem deviceStruct_length (s : State) : (deviceStruct s).length = 4096 := padTo_length ..

theorem volumeStruct_length (s : State) (v : Nat) : (volumeStruct s v).length = 128 := padTo_length ..

theorem runs_identify_device {tag : Nat} {c : Cmd} {s : State} (hc : startedCmd s tag 0x80 = some c) (hk : c.hdr.f 24 1 = 0) :
    Runs (.identify tag) s (fun t => Ended t tag 0 0 (natLe 4 4096) ∧ ∃ k, findCmd t tag = some k ∧ k.data = Memory.ofBytes (deviceStruct s) ∧ k.dataLen = 4096) := by
  have hrow : identify s tag = finishData s tag (Memory.ofBytes (deviceStruct s)) 4096 (natLe 4 4096) := by
    simp only [identify, hc, hk, finishBytes, deviceStruct_length]
  exact ⟨_, congrArg Host.Outcome.next hrow, ended_finishData _ _ _ (findCmd_of_startedCmd hc)⟩

theorem runs_identify_volume {tag : Nat} {c : Cmd} {s : State} (hc : startedCmd s tag 0x80 = some c) (hk : c.hdr.f 24 1 = 1) :
    Runs (.identify tag) s (fun t => Ended t tag 0 0 (natLe 4 128) ∧ ∃ k, findCmd t tag = some k ∧ k.data = Memory.ofBytes (volumeStruct s c.hdr.volume) ∧ k.dataLen = 128) := by
  have hrow : identify s tag = finishData s tag (Memory.ofBytes (volumeStruct s c.hdr.volume)) 128 (natLe 4 128) := by
    simp only [identify, hc, hk, finishBytes, volumeStruct_length]
  exact ⟨_, congrArg Host.Outcome.next hrow, ended_finishData _ _ _ (findCmd_of_startedCmd hc)⟩

/-! ### GET LOG (R305–R307) -/

theorem exec_getLog {s : State} (tag : Nat) (hop : opfin s = true) : exec (.getLog tag) s = .next (getLog s tag) := by
  simp only [exec, execGetLog, hop, if_true]

theorem runs_getLog_unknown {tag : Nat} {c : Cmd} {s : State} (hop : opfin s = true) (hc : startedCmd s tag 0x81 = some c) (hp : pageBytes s (c.hdr.f 24 1) = none) :
    Runs (.getLog tag) s (fun t => Ended t tag 0x10 0x10 []) := by
  have hrow : getLog s tag = finish s tag 0x10 0x10 [] := by
    simp only [getLog, answerLog, hc, hp, Option.isNone_none, Bool.true_or, if_true, findCmd_tag (findCmd_of_startedCmd hc)]
  exact ⟨_, (exec_getLog tag hop).trans (congrArg _ hrow), ended_finish _ _ _ (findCmd_of_startedCmd hc)⟩

theorem runs_getLog_account {tag : Nat} {c : Cmd} {p : List Byte} {s : State} (hop : opfin s = true) (hc : startedCmd s tag 0x81 = some c) (hk : c.hdr.f 24 1 = 0x20 ∨ c.hdr.f 24 1 = 0x21)
    (hp : pageBytes s (c.hdr.f 24 1) = some p) :
    let bs := (p.drop (c.hdr.f 32 8)).take (c.hdr.f 28 4)
    Runs (.getLog tag) s (fun t => Ended t tag 0 0 (natLe 4 bs.length ++ natLe 4 p.length ++ natLe 8 (le p 8 8)) ∧
      ∃ k, findCmd t tag = some k ∧ k.data = Memory.ofBytes bs ∧ k.dataLen = bs.length) := by
  intro bs
  have hnow : (c.hdr.f 24 1 = 0x20 || c.hdr.f 24 1 = 0x21) = true := by simpa using hk
  have hlive : c.hdr.f 24 1 ≠ 0x10 := by omega
  have hrow : getLog s tag = finishData s tag (Memory.ofBytes bs) bs.length (natLe 4 bs.length ++ natLe 4 p.length ++ natLe 8 (le p 8 8)) := by
    simp only [getLog, answerLog, hc, hp, Bool.or_assoc, hnow, Bool.or_true, hlive, if_true, if_false, findCmd_tag (findCmd_of_startedCmd hc), bs]
  exact ⟨_, (exec_getLog tag hop).trans (congrArg _ hrow), ended_finishData _ _ _ (findCmd_of_startedCmd hc)⟩

theorem runs_getLog_members {tag : Nat} {c : Cmd} {s : State} (hop : opfin s = true) (hc : startedCmd s tag 0x81 = some c) (hk : c.hdr.f 24 1 = 0x10) :
    Runs (.getLog tag) s (fun t => findCmd t tag = some { c with phase := .busy } ∧ OnlyIn [.cmds] s t) := by
  have hrow : getLog s tag = modCmd s tag (fun c => { c with phase := .busy }) := by
    simp only [getLog, hc, hk, pageBytes]
    rfl
  exact ⟨_, (exec_getLog tag hop).trans (congrArg _ hrow), findCmd_busy (findCmd_of_startedCmd hc), rfl⟩

/-! ### GET FEATURE and SET FEATURE (R310, R312) -/

theorem unknownFeature_eq_false {id : Nat} (hlo : 1 ≤ id) (hhi : id ≤ 5) : (id = 0 || 5 < id) = false := by simp; omega

theorem runs_getFeature_unknown {tag : Nat} {c : Cmd} {s : State} (hc : startedCmd s tag 0x82 = some c) (hid : c.hdr.f 24 1 = 0 ∨ 5 < c.hdr.f 24 1) :
    Runs (.getFeature tag) s (fun t => Ended t tag 0x10 0x11 [] ∧ t.feats = s.feats) := by
  have hrow : getFeature s tag = finish s tag 0x10 0x11 [] := by simp [getFeature, hc, hid]
  exact ⟨_, congrArg Host.Outcome.next hrow, ended_finish _ _ _ (findCmd_of_startedCmd hc), finish_feats ..⟩

theorem runs_getFeature {tag : Nat} {c : Cmd} {s : State} (hc : startedCmd s tag 0x82 = some c) (hlo : 1 ≤ c.hdr.f 24 1) (hhi : c.hdr.f 24 1 ≤ 5) :
    Runs (.getFeature tag) s (fun t => findCmd t tag = some { c with phase := .busy } ∧ OnlyIn [.cmds] s t) := by
  have hrow : getFeature s tag = modCmd s tag (fun c => { c with phase := .busy }) := by simp [getFeature, hc, unknownFeature_eq_false hlo hhi]
  exact ⟨_, congrArg Host.Outcome.next hrow, findCmd_busy (findCmd_of_startedCmd hc), rfl⟩

theorem runs_setFeature_outside {tag : Nat} {c : Cmd} {s : State} (hc : startedCmd s tag 0x83 = some c) (hlo : 1 ≤ c.hdr.f 24 1) (hhi : c.hdr.f 24 1 ≤ 5)
    (hv : c.hdr.f 32 4 < (envelope s (c.hdr.f 24 1)).min ∨ (envelope s (c.hdr.f 24 1)).max < c.hdr.f 32 4) :
    Runs (.setFeature tag) s (fun t => Ended t tag 0x10 0x12 [] ∧ t.feats = s.feats) := by
  have hrow : setFeature s tag = finish s tag 0x10 0x12 [] := by simp [setFeature, hc, unknownFeature_eq_false hlo hhi, hv]
  exact ⟨_, congrArg Host.Outcome.next hrow, ended_finish _ _ _ (findCmd_of_startedCmd hc), finish_feats ..⟩

/-- A value registered for the next boundary (R312). -/
def featureDue (s : State) (id v tag : Nat) : State := { s with feats := { s.feats with due := s.feats.due ++ [(id, v, tag)] } }

theorem runs_setFeature {tag : Nat} {c : Cmd} {s : State} (hc : startedCmd s tag 0x83 = some c) (hlo : 1 ≤ c.hdr.f 24 1) (hhi : c.hdr.f 24 1 ≤ 5)
    (hmin : (envelope s (c.hdr.f 24 1)).min ≤ c.hdr.f 32 4) (hmax : c.hdr.f 32 4 ≤ (envelope s (c.hdr.f 24 1)).max) :
    Runs (.setFeature tag) s (fun t => t.feats = { s.feats with due := s.feats.due ++ [(c.hdr.f 24 1, c.hdr.f 32 4, tag)] } ∧ findCmd t tag = some { c with phase := .busy } ∧
      OnlyIn [.cmds, .feats] s t) := by
  have hin : (c.hdr.f 32 4 < (envelope s (c.hdr.f 24 1)).min || (envelope s (c.hdr.f 24 1)).max < c.hdr.f 32 4) = false := by simp; omega
  have hrow : setFeature s tag = modCmd (featureDue s (c.hdr.f 24 1) (c.hdr.f 32 4) tag) tag (fun c => { c with phase := .busy }) := by
    simp only [setFeature, hc, unknownFeature_eq_false hlo hhi, hin]
    rfl
  exact ⟨_, congrArg Host.Outcome.next hrow, rfl, findCmd_busy (s := featureDue ..) (findCmd_of_startedCmd hc), rfl⟩

/-! ### The download of a kind, and its record (R313–R317) -/

theorem dl_setDl (s : State) (kind : Nat) (d : Download) : dl (setDl s kind d) kind = d := by
  unfold dl setDl
  by_cases hk : kind = 0 <;> simp [hk]

theorem dl_of_flash {s t : State} (h : t.flash = s.flash) (kind : Nat) : dl t kind = dl s kind := by rw [dl, h, dl]

theorem dl_flashWrite (s : State) (a : Nat) (bs : List Byte) (good : Bool) (kind : Nat) : dl (flashWrite s a bs good) kind = dl s kind := rfl

theorem setDl_cells (s : State) (kind : Nat) (d : Download) : (setDl s kind d).flash.cells = s.flash.cells := by
  unfold setDl
  by_cases hk : kind = 0 <;> simp [hk]

theorem imageRecord_flash (s : State) (cause kind code seq : Nat) : (imageRecord s cause kind code seq).flash = s.flash := same_flash (ps := [.daybook]) (by simp) (by decide)

theorem findCmd_imageRecord (s : State) (cause kind code seq tag : Nat) : findCmd (imageRecord s cause kind code seq) tag = findCmd s tag :=
  findCmd_of_cmds (same_cmds (ps := [.daybook]) (by simp) (by decide))

/-- A failed download says so, and its command goes on as it was. -/
theorem dlFails_effects (s : State) (kind code seq tag : Nat) :
    dl (dlFails s kind code seq) kind = { dl s kind with state := 5, code } ∧ findCmd (dlFails s kind code seq) tag = findCmd s tag := by
  refine ⟨?_, findCmd_of_cmds (same_cmds (ps := [.flash, .daybook]) (by simp) (by decide))⟩
  rw [dlFails, dl_of_flash (imageRecord_flash ..), dl_setDl]

/-! ### FW DOWNLOAD (R313, R314) -/

/-- A piece whose bytes are all in, with every earlier image command of its kind carried out. -/
structure PieceIn (s : State) (tag : Nat) (c : Cmd) : Prop where
  taken : cmdIn s tag (fun c => c.phase = .busy && c.hdr.opcode = 0x84 && !c.failed && c.taken = c.hdr.d) = some c
  first : imageAhead s c (fun e => e.phase = .started || e.phase = .busy) = false

theorem exec_fwDownload {s : State} (tag : Nat) (good : Bool) (hop : opfin s = true) : exec (.fwDownload tag good) s = .next (fwDownload s tag good) := by
  simp only [exec, execFwDownload, hop, if_true]

theorem fwDownload_short {s : State} {tag : Nat} {c : Cmd} (h : PieceIn s tag c) (good : Bool) (hoff : c.hdr.f 32 4 = 0) (hd : c.hdr.d < 512) :
    fwDownload s tag good = finish s tag 0x10 0x0B [] := by
  simp [fwDownload, h.taken, h.first, hoff, hd]

theorem fwDownload_outOfOrder {s : State} {tag : Nat} {c : Cmd} (h : PieceIn s tag c) (good : Bool) (hoff : c.hdr.f 32 4 ≠ 0)
    (hord : (dl s (c.hdr.f 24 1)).state ≠ 2 ∨ c.hdr.f 32 4 ≠ (dl s (c.hdr.f 24 1)).upTo) : fwDownload s tag good = finish s tag 0x11 0x0D [] := by
  simp [fwDownload, h.taken, h.first, hoff, hord]

theorem runs_fwDownload_short {tag : Nat} {c : Cmd} {s : State} (hop : opfin s = true) (h : PieceIn s tag c) (hoff : c.hdr.f 32 4 = 0) (hd : c.hdr.d < 512) (good : Bool) :
    Runs (.fwDownload tag good) s (fun t => Ended t tag 0x10 0x0B [] ∧ t.flash = s.flash) :=
  ⟨_, (exec_fwDownload tag good hop).trans (congrArg _ (fwDownload_short h good hoff hd)), ended_finish _ _ _ (findCmd_of_cmdIn h.taken), finish_flash ..⟩

theorem runs_fwDownload_outOfOrder {tag : Nat} {c : Cmd} {s : State} (hop : opfin s = true) (h : PieceIn s tag c) (hoff : c.hdr.f 32 4 ≠ 0)
    (hord : (dl s (c.hdr.f 24 1)).state ≠ 2 ∨ c.hdr.f 32 4 ≠ (dl s (c.hdr.f 24 1)).upTo) (good : Bool) :
    Runs (.fwDownload tag good) s (fun t => Ended t tag 0x11 0x0D [] ∧ t.flash = s.flash) :=
  ⟨_, (exec_fwDownload tag good hop).trans (congrArg _ (fwDownload_outOfOrder h good hoff hord)), ended_finish _ _ _ (findCmd_of_cmdIn h.taken), finish_flash ..⟩

/-- A piece right behind the one programmed last, inside the slot. -/
structure PieceBehind (s : State) (tag : Nat) (c : Cmd) : Prop extends PieceIn s tag c where
  later : c.hdr.f 32 4 ≠ 0
  receiving : (dl s (c.hdr.f 24 1)).state = 2
  behind : c.hdr.f 32 4 = (dl s (c.hdr.f 24 1)).upTo
  inside : c.hdr.f 32 4 + c.hdr.d ≤ slotSize (c.hdr.f 24 1)

theorem fwDownload_behind {s : State} {tag : Nat} {c : Cmd} (h : PieceBehind s tag c) (good : Bool) : fwDownload s tag good = programPiece s c good := by
  have hoff : (dl s (c.hdr.f 24 1)).upTo ≠ 0 := h.behind ▸ h.later
  have hin : ¬ slotSize (c.hdr.f 24 1) < (dl s (c.hdr.f 24 1)).upTo + c.hdr.d := by have := h.inside; rw [h.behind] at this; omega
  simp [fwDownload, h.taken, h.first, h.receiving, h.behind, hoff, hin]

/-- A later piece programmed at its place in the inactive slot. -/
def piecePut (s : State) (c : Cmd) (good : Bool) : State :=
  let kind := c.hdr.f 24 1
  let u := modCmd s c.hdr.tag (fun c => { c with begun := true, payload := [] })
  flashWrite (setDl u kind { dl u kind with upTo := c.hdr.f 32 4 + c.hdr.d }) (slotBase kind (idleSlot s kind) + c.hdr.f 32 4) (Memory.bytes c.payload c.hdr.d) good

theorem programPiece_good {s : State} {c : Cmd} (hoff : c.hdr.f 32 4 ≠ 0) (hlast : bit c.hdr.flags 0 = false) :
    programPiece s c true = finishAt (piecePut s c true) c.hdr.tag (s.now + 1) 0 0 [] := by
  simp only [programPiece, hoff, hlast]
  rfl

theorem programPiece_bad {s : State} {c : Cmd} (hoff : c.hdr.f 32 4 ≠ 0) : ∃ seq,
    programPiece s c false = let u := dlFails (piecePut s c false) (c.hdr.f 24 1) 0x0F seq; finishAt u c.hdr.tag (s.now + 1) 0x11 0x0F [] := by
  refine ⟨le (dl (piecePut s c false) (c.hdr.f 24 1)).header 16 8, ?_⟩
  simp only [programPiece, hoff]
  rfl

theorem findCmd_piecePut {s : State} {c : Cmd} (good : Bool) (hc : findCmd s c.hdr.tag = some c) : findCmd (piecePut s c good) c.hdr.tag = some { c with begun := true, payload := [] } :=
  findCmd_modCmd_of_hdr (f := fun c => { c with begun := true, payload := [] }) (fun _ => rfl) hc

theorem piecePut_cells (s : State) (c : Cmd) :
    (piecePut s c true).flash.cells =
      Memory.writeN 0xFF s.flash.cells (slotBase (c.hdr.f 24 1) (idleSlot s (c.hdr.f 24 1)) + c.hdr.f 32 4) (Memory.bytes c.payload c.hdr.d) := by
  simp only [piecePut, flashWrite, setDl_cells, if_true]
  rfl

theorem dl_piecePut (s : State) (c : Cmd) (good : Bool) : dl (piecePut s c good) (c.hdr.f 24 1) = { dl s (c.hdr.f 24 1) with upTo := c.hdr.f 32 4 + c.hdr.d } := by
  rw [piecePut, dl_flashWrite, dl_setDl]
  rfl

theorem runs_fwDownload_good {tag : Nat} {c : Cmd} {s : State} (hop : opfin s = true) (h : PieceBehind s tag c) (hlast : bit c.hdr.flags 0 = false) :
    Runs (.fwDownload tag true) s (fun t =>
      t.flash.cells = Memory.writeN 0xFF s.flash.cells (slotBase (c.hdr.f 24 1) (idleSlot s (c.hdr.f 24 1)) + c.hdr.f 32 4) (Memory.bytes c.payload c.hdr.d) ∧
      dl t (c.hdr.f 24 1) = { dl s (c.hdr.f 24 1) with upTo := c.hdr.f 32 4 + c.hdr.d } ∧ ∃ k, findCmd t tag = some k ∧ k.phase = .due (s.now + 1) ∧ k.status = 0 ∧ k.detail = 0) := by
  have hc := findCmd_of_cmdIn h.taken
  obtain rfl := findCmd_tag hc
  exact ⟨_, (exec_fwDownload _ true hop).trans (congrArg _ ((fwDownload_behind h true).trans (programPiece_good h.later hlast))), piecePut_cells s c, dl_piecePut s c true,
    _, findCmd_finishAt _ _ _ _ (findCmd_piecePut true hc), rfl, rfl, rfl⟩

theorem runs_fwDownload_bad {tag : Nat} {c : Cmd} {s : State} (hop : opfin s = true) (h : PieceBehind s tag c) :
    Runs (.fwDownload tag false) s (fun t => (dl t (c.hdr.f 24 1)).state = 5 ∧ (dl t (c.hdr.f 24 1)).code = 0x0F ∧
      ∃ k, findCmd t tag = some k ∧ k.phase = .due (s.now + 1) ∧ k.status = 0x11 ∧ k.detail = 0x0F) := by
  have hc := findCmd_of_cmdIn h.taken
  obtain rfl := findCmd_tag hc
  obtain ⟨seq, hrow⟩ := programPiece_bad (s := s) h.later
  obtain ⟨hdl, hcmd⟩ := dlFails_effects (piecePut s c false) (c.hdr.f 24 1) 0x0F seq c.hdr.tag
  refine ⟨_, (exec_fwDownload _ false hop).trans (congrArg _ ((fwDownload_behind h false).trans hrow)), congrArg Download.state hdl, congrArg Download.code hdl,
    _, findCmd_finishAt _ _ _ _ (hcmd.trans (findCmd_piecePut false hc)), rfl, rfl, rfl⟩

/-! ### FW COMMIT (R316) -/

/-- An image command that ends Good leaves of the part what the change of its image leaves. -/
theorem imageDone_effects {u : State} {tag : Nat} {c : Cmd} (cause kind seq : Nat) (h : findCmd u tag = some c) :
    let t := finish (imageRecord u cause kind 0 seq) tag 0 0 []
    Ended t tag 0 0 [] ∧ t.flash = u.flash ∧ t.chip = u.chip ∧ t.fuses = u.fuses ∧ t.charter = u.charter := by
  intro t
  have hframe : t.outside [.cmds, .returns, .daybook] = u.outside [.cmds, .returns, .daybook] := by simp [t]
  exact ⟨ended_finish _ _ _ ((findCmd_imageRecord ..).trans h), same_flash hframe (by decide), same_chip hframe (by decide), same_fuses hframe (by decide), same_charter hframe (by decide)⟩

theorem findCmd_begun {s : State} {tag : Nat} {c : Cmd} (h : findCmd s tag = some c) : findCmd (modCmd s tag (fun c => { c with begun := true })) tag = some { c with begun := true } :=
  findCmd_modCmd_of_hdr (f := fun c => { c with begun := true }) (fun _ => rfl) h

theorem runs_fwCommit_unverified {tag : Nat} {c : Cmd} {s : State} (good : Bool) (hop : opfin s = true) (hc : imageCmd s tag 0 = some c) (hd : (dl s (c.hdr.f 24 1)).state ≠ 3) :
    Runs (.fwCommit tag good) s (fun t => Ended t tag 0x11 0x0E [] ∧ t.flash = s.flash) := by
  have hrow : exec (.fwCommit tag good) s = .next (finish s tag 0x11 0x0E []) := by simp [exec, execFwCommit, hop, fwCommit, hc, hd]
  exact ⟨_, hrow, ended_finish _ _ _ (findCmd_of_imageCmd hc), finish_flash ..⟩

/-- The magic programmed into the inactive slot, with the image committed. -/
def committed (s : State) (tag kind : Nat) : State :=
  setDl (flashWrite (modCmd s tag (fun c => { c with begun := true })) (slotBase kind (idleSlot s kind)) (dl s kind).magic true) kind { dl s kind with state := 4, code := 0 }

theorem runs_fwCommit {tag : Nat} {c : Cmd} {s : State} (hop : opfin s = true) (hc : imageCmd s tag 0 = some c) (hd : (dl s (c.hdr.f 24 1)).state = 3) :
    let kind := c.hdr.f 24 1
    Runs (.fwCommit tag true) s (fun t => Ended t tag 0 0 [] ∧ t.flash.cells = Memory.writeN 0xFF s.flash.cells (slotBase kind (idleSlot s kind)) (dl s kind).magic ∧
      dl t kind = { dl s kind with state := 4, code := 0 } ∧ t.chip = s.chip ∧ t.fuses = s.fuses ∧ t.charter = s.charter) := by
  intro kind
  have hrow : exec (.fwCommit tag true) s = .next (finish (imageRecord (committed s tag kind) 4 kind 0 (le (dl s kind).header 16 8)) tag 0 0 []) := by
    simp only [exec, execFwCommit, hop, fwCommit, hc, hd]
    rfl
  obtain ⟨hend, hflash, hchip, hfuses, hcharter⟩ := imageDone_effects (u := committed s tag kind) 4 kind (le (dl s kind).header 16 8) (findCmd_begun (findCmd_of_imageCmd hc))
  refine ⟨_, hrow, hend, ?_, (dl_of_flash hflash kind).trans (dl_setDl ..), hchip, hfuses, hcharter⟩
  rw [hflash, committed, setDl_cells]
  rfl

/-- The first sector of the inactive slot erased, with the kind Idle. -/
def abandoned (s : State) (tag kind : Nat) : State :=
  setDl (flashEraseArea (modCmd s tag (fun c => { c with begun := true })) (slotBase kind (idleSlot s kind)) 0x1_0000) kind {}

theorem runs_fwAbandon {tag : Nat} {c : Cmd} {s : State} (hop : opfin s = true) (hc : imageCmd s tag 1 = some c) :
    let kind := c.hdr.f 24 1
    Runs (.fwAbandon tag true) s (fun t => Ended t tag 0 0 [] ∧ t.flash.cells = Memory.place 0xFF s.flash.cells (slotBase kind (idleSlot s kind)) 0x1_0000 [] ∧ dl t kind = {} ∧
      t.chip = s.chip ∧ t.fuses = s.fuses ∧ t.charter = s.charter) := by
  intro kind
  have hrow : exec (.fwAbandon tag true) s = .next (finish (imageRecord (abandoned s tag kind) 5 kind 0 (le (dl s kind).header 16 8)) tag 0 0 []) := by
    simp only [exec, execFwAbandon, hop, fwAbandon, hc]
    rfl
  obtain ⟨hend, hflash, hchip, hfuses, hcharter⟩ := imageDone_effects (u := abandoned s tag kind) 5 kind (le (dl s kind).header 16 8) (findCmd_begun (findCmd_of_imageCmd hc))
  refine ⟨_, hrow, hend, ?_, (dl_of_flash hflash kind).trans (dl_setDl ..), hchip, hfuses, hcharter⟩
  rw [hflash, abandoned, setDl_cells]
  rfl

/-! ### POWER (R287, R288, R319) -/

/-- The waiting entry into Rest is replaced by another POWER (R287). -/
def restReplaced (s : State) : State :=
  let u := supersede' s (s.now + 1) 2
  { u with power := { u.power with entryTag := none, entryPending := u.cfg.powerState ≠ 0 } }

/-- A POWER command under way, with the deadline of an entry into Rest. -/
def powerTaken (s : State) (tag : Nat) : State := modCmd s tag (fun c => { c with phase := .busy, begun := true, named := c.pos.close + feature s 1 })

/-- A target registered for the next boundary. -/
def powerDueNext (s : State) (tag target : Nat) : State := { s with power := { s.power with due := s.power.due ++ [(tag, target)] } }

/-- An entry into Rest begun. -/
def restBegun (s : State) (tag : Nat) : State := { s with power := { s.power with entryTag := some tag, entryPending := true, target := 2 } }

/-- What POWER does once it is under way, by its target and the state in force. -/
def powerActs (s : State) (tag target : Nat) : State :=
  if target ≠ 2 || s.power.state = 2 && s.cfg.powerState = 0 then powerDueNext s tag target
  else if s.cfg.powerState ≠ 0 then finishAt s tag (s.now + 1) 0x61 3 (natLe 1 s.power.state)
  else restBegun s tag

theorem powerRow_started {tag : Nat} {c : Cmd} {s : State} (hc : startedCmd s tag 0x87 = some c) :
    powerRow s tag = powerActs (powerTaken (if s.power.entryTag.isSome then restReplaced s else s) tag) tag (c.hdr.f 24 1) := by
  rw [powerRow, hc]
  rfl

/-- With no entry waiting, POWER acts on the state as it is. -/
theorem powerRow_first {tag : Nat} {c : Cmd} {s : State} (hc : startedCmd s tag 0x87 = some c) (hn : s.power.entryTag = none) :
    powerRow s tag = powerActs (powerTaken s tag) tag (c.hdr.f 24 1) := by
  rw [powerRow_started hc, hn]
  rfl

theorem powerActs_next {target : Nat} (s : State) (tag : Nat) (hk : target ≠ 2) : powerActs s tag target = powerDueNext s tag target := by simp [powerActs, hk]

theorem findCmd_powerTaken {s : State} {tag : Nat} {c : Cmd} (h : findCmd s tag = some c) :
    findCmd (powerTaken s tag) tag = some { c with phase := .busy, begun := true, named := c.pos.close + feature s 1 } :=
  findCmd_modCmd_of_hdr (f := fun c => { c with phase := .busy, begun := true, named := c.pos.close + feature s 1 }) (fun _ => rfl) h

theorem findCmd_powerTaken_other {tag old : Nat} (s : State) (h : tag ≠ old) : findCmd (powerTaken s tag) old = findCmd s old :=
  findCmd_modCmd_other (f := fun c => { c with phase := .busy, begun := true, named := c.pos.close + feature s 1 }) (fun _ => rfl) h

theorem runs_power_next {tag : Nat} {c : Cmd} {s : State} (hc : startedCmd s tag 0x87 = some c) (hn : s.power.entryTag = none) (hk : c.hdr.f 24 1 ≠ 2) :
    Runs (.power tag) s (fun t => t.power = { s.power with due := s.power.due ++ [(tag, c.hdr.f 24 1)] } ∧
      findCmd t tag = some { c with phase := .busy, begun := true, named := c.pos.close + feature s 1 } ∧ OnlyIn [.cmds, .power] s t) :=
  ⟨_, congrArg Host.Outcome.next ((powerRow_first hc hn).trans (powerActs_next _ tag hk)), rfl, findCmd_powerTaken (findCmd_of_startedCmd hc), rfl⟩

theorem runs_power_rest {tag : Nat} {c : Cmd} {s : State} (hc : startedCmd s tag 0x87 = some c) (hn : s.power.entryTag = none) (hk : c.hdr.f 24 1 = 2) (hst : s.power.state ≠ 2)
    (hps : s.cfg.powerState = 0) :
    Runs (.power tag) s (fun t => t.power = { s.power with entryTag := some tag, entryPending := true, target := 2 } ∧
      findCmd t tag = some { c with phase := .busy, begun := true, named := c.pos.close + feature s 1 } ∧ OnlyIn [.cmds, .power] s t) := by
  have hacts : powerActs (powerTaken s tag) tag (c.hdr.f 24 1) = restBegun (powerTaken s tag) tag := by simp [powerActs, powerTaken, modCmd, hk, hst, hps]
  exact ⟨_, congrArg Host.Outcome.next ((powerRow_first hc hn).trans hacts), rfl, findCmd_powerTaken (findCmd_of_startedCmd hc), rfl⟩

theorem findCmd_restReplaced {s : State} {old : Nat} {d : Cmd} (ho : s.power.entryTag = some old) (hd : findCmd s old = some d) :
    findCmd (restReplaced s) old = some { d with phase := .due (s.now + 1), status := 0x61, detail := 2, result := natLe 1 s.power.state } := by
  have hsup : supersede' s (s.now + 1) 2 = finishAt s old (s.now + 1) 0x61 2 (natLe 1 s.power.state) := by rw [supersede', ho]
  exact (congrArg (findCmd · old) hsup).trans (findCmd_finishAt _ _ _ _ hd)

theorem restReplaced_power {s : State} (hps : s.cfg.powerState = 0) : (restReplaced s).power = { s.power with entryTag := none, entryPending := false } := by
  have hcfg : (supersede' s (s.now + 1) 2).cfg = s.cfg := same_cfg (ps := [.cmds]) (by simp) (by decide)
  simp [restReplaced, supersede'_power, hcfg, hps]

theorem runs_power_replacing {tag old : Nat} {c d : Cmd} {s : State} (hc : startedCmd s tag 0x87 = some c) (ho : s.power.entryTag = some old) (hne : old ≠ tag) (hd : findCmd s old = some d)
    (hk : c.hdr.f 24 1 ≠ 2) (hps : s.cfg.powerState = 0) :
    Runs (.power tag) s (fun t => t.power.entryTag = none ∧ t.power.entryPending = false ∧ t.power.due = s.power.due ++ [(tag, c.hdr.f 24 1)] ∧
      findCmd t old = some { d with phase := .due (s.now + 1), status := 0x61, detail := 2, result := natLe 1 s.power.state }) := by
  have hrow : powerRow s tag = powerDueNext (powerTaken (restReplaced s) tag) tag (c.hdr.f 24 1) := by
    rw [powerRow_started hc, ho]
    exact powerActs_next _ tag hk
  have hpower : (powerDueNext (powerTaken (restReplaced s) tag) tag (c.hdr.f 24 1)).power = { s.power with entryTag := none, entryPending := false, due := s.power.due ++ [(tag, c.hdr.f 24 1)] } :=
    congrArg (fun p : Power => { p with due := p.due ++ [(tag, c.hdr.f 24 1)] }) (restReplaced_power hps)
  refine ⟨_, congrArg Host.Outcome.next hrow, ?_⟩
  beta_reduce
  rw [hpower]
  exact ⟨rfl, rfl, rfl, (findCmd_powerTaken_other (restReplaced s) hne.symm).trans (findCmd_restReplaced ho hd)⟩

theorem runs_power_rest_refused {tag : Nat} {c : Cmd} {s : State} (hc : startedCmd s tag 0x87 = some c) (hn : s.power.entryTag = none) (hk : c.hdr.f 24 1 = 2) (hps : s.cfg.powerState ≠ 0) :
    Runs (.power tag) s (fun t => t.power = s.power ∧ ∃ k, findCmd t tag = some k ∧ k.phase = .due (s.now + 1) ∧ k.status = 0x61 ∧ k.detail = 3) := by
  have hacts : powerActs (powerTaken s tag) tag (c.hdr.f 24 1) = finishAt (powerTaken s tag) tag (s.now + 1) 0x61 3 (natLe 1 s.power.state) := by
    simp [powerActs, powerTaken, modCmd, hk, hps]
  exact ⟨_, congrArg Host.Outcome.next ((powerRow_first hc hn).trans hacts), rfl, _, findCmd_finishAt _ _ _ _ (findCmd_powerTaken (findCmd_of_startedCmd hc)), rfl, rfl, rfl⟩

/-! ### HOST TIME MARK (R321, R423) -/

theorem mem_tset {α : Type} (t : Tbl α) (n : Nat) (v : α) : (n, v) ∈ tset t n v := List.mem_of_find?_eq_some (find?_tset t n v)

theorem mgmtCause_daybook (s : State) (n : Nat) : (mgmtCause s n).daybook = s.daybook := same_daybook (ps := [.ints, .link, .hostMem]) (by simp) (by decide)

/-- A stored record stands in the ring, and the next sequence stays. -/
theorem daybookStore_daybook (s : State) (seq : Nat) (r : DbRec) :
    (seq, daybookBytes seq r) ∈ (daybookStore s seq r).daybook.ring ∧ (daybookStore s seq r).daybook.next = s.daybook.next := by
  have hring : (seq, daybookBytes seq r) ∈ (tset s.daybook.ring seq (daybookBytes seq r)).filter (fun e => seq < e.1 + 131072) :=
    List.mem_filter.2 ⟨mem_tset .., by simp⟩
  unfold daybookStore
  dsimp only
  split
  · rw [mgmtCause_daybook]
    exact ⟨hring, rfl⟩
  · exact ⟨hring, rfl⟩

theorem daybookBytes_seq (seq : Nat) (r : DbRec) : (daybookBytes seq r).take 8 = natLe 8 seq := by
  simp only [daybookBytes, List.append_assoc]
  exact List.take_left' (natLe_length 8 seq)

/-- The record of a mark stored with the next sequence. -/
def markStored (s : State) (c : Cmd) : State :=
  daybookStore { s with daybook := { s.daybook with kinds := tmod {} s.daybook.kinds 1 (fun k => { k with count := inc 0xFFFF k.count }), next := s.daybook.next + 1 } }
    s.daybook.next (dbRec s 1 0 c.wicket (natLe 8 (c.hdr.f 32 8) ++ natLe 8 (c.hdr.f 40 8)) [] false)

theorem markStored_outside (s : State) (c : Cmd) : (markStored s c).outside [.ints, .link, .daybook, .hostMem] = s.outside [.ints, .link, .daybook, .hostMem] := by simp [markStored]

/-- The record stands in the ring under its sequence, and the next mark takes the next one. -/
theorem markStored_daybook (s : State) (c : Cmd) :
    (markStored s c).daybook.next = s.daybook.next + 1 ∧ ∃ e ∈ (markStored s c).daybook.ring, e.1 = s.daybook.next ∧ e.2.take 8 = natLe 8 s.daybook.next := by
  unfold markStored
  obtain ⟨hring, hnext⟩ := daybookStore_daybook _ s.daybook.next (dbRec s 1 0 c.wicket (natLe 8 (c.hdr.f 32 8) ++ natLe 8 (c.hdr.f 40 8)) [] false)
  exact ⟨hnext, _, hring, rfl, daybookBytes_seq ..⟩

theorem timeMark_eq (s : State) (c : Cmd) :
    timeMark s c = finishAt (modCmd (markStored s c) c.hdr.tag (fun c => { c with begun := true })) c.hdr.tag (s.now + 1) 0 0
      (natLe 8 s.daybook.next ++ natLe 8 s.mgmt.opMs ++ natLe 4 s.mgmt.powerCycles) := by
  have hframe := markStored_outside s c
  rw [← now_of_frame hframe (by decide), ← same_mgmt hframe (by decide)]
  rfl

theorem runs_hostTimeMark {tag : Nat} {c : Cmd} {s : State} (hc : startedCmd s tag 0x89 = some c) :
    Runs (.hostTimeMark tag) s (fun t => t.daybook.next = s.daybook.next + 1 ∧ (∃ e ∈ t.daybook.ring, e.1 = s.daybook.next ∧ e.2.take 8 = natLe 8 s.daybook.next) ∧
      findCmd t tag = some { c with begun := true, phase := .due (s.now + 1), status := 0, detail := 0, result := natLe 8 s.daybook.next ++ natLe 8 s.mgmt.opMs ++ natLe 4 s.mgmt.powerCycles } ∧
      t.mgmt = s.mgmt) := by
  have hfound := findCmd_of_startedCmd hc
  obtain rfl := findCmd_tag hfound
  have hrow : exec (.hostTimeMark c.hdr.tag) s = .next (timeMark s c) := by simp only [exec, execHostTimeMark, hc]
  have hframe := markStored_outside s c
  have hkept : findCmd (markStored s c) c.hdr.tag = some c := (findCmd_of_cmds (same_cmds hframe (by decide))).trans hfound
  have hmgmt : (markStored s c).mgmt = s.mgmt := same_mgmt hframe (by decide)
  obtain ⟨hnext, hring⟩ := markStored_daybook s c
  exact ⟨_, hrow.trans (congrArg _ (timeMark_eq s c)), hnext, hring, findCmd_finishAt _ _ _ _ (findCmd_begun hkept), hmgmt⟩

/-- Settles O29: each command ends at its row, or is due or registered for the next boundary, in one equation of its row for each case. -/
theorem adminCommands : Obligations.AdminCommands := by
  refine ⟨⟨?_, ?_, ?_, ?_, ?_⟩, ⟨?_, ?_, ?_, ?_⟩, ?_, ⟨?_, ?_, ?_⟩, ⟨?_, ?_, ?_, ?_⟩, ?_⟩
  · exact fun _ _ _ => runs_identify_device
  · exact fun _ _ _ => runs_identify_volume
  · exact fun _ _ _ => runs_getLog_unknown
  · exact fun _ _ _ _ => runs_getLog_account
  · exact fun _ _ _ => runs_getLog_members
  · exact fun _ _ _ => runs_getFeature_unknown
  · exact fun _ _ _ => runs_getFeature
  · exact fun _ _ _ => runs_setFeature_outside
  · exact fun _ _ _ => runs_setFeature
  · intro tag c s hop htaken hfirst
    have hpiece : PieceIn s tag c := ⟨htaken, hfirst⟩
    exact ⟨runs_fwDownload_short hop hpiece, runs_fwDownload_outOfOrder hop hpiece, fun hoff hst hup hin => runs_fwDownload_good hop ⟨hpiece, hoff, hst, hup, hin⟩,
      fun hoff hst hup hin => runs_fwDownload_bad hop ⟨hpiece, hoff, hst, hup, hin⟩⟩
  · exact fun _ _ good _ => runs_fwCommit_unverified good
  · exact fun _ _ _ => runs_fwCommit
  · exact fun _ _ _ => runs_fwAbandon
  · exact fun _ _ _ => runs_power_next
  · exact fun _ _ _ => runs_power_rest
  · exact fun _ _ _ _ _ => runs_power_replacing
  · exact fun _ _ _ => runs_power_rest_refused
  · exact fun _ _ _ => runs_hostTimeMark

end Sys2Proof.Machine
end

section
namespace Sys2Proof.Machine

/-! ## Power groups and GROUP WINDOW (O43) -/

/-! ### Groups, members and demands after a change -/

theorem grp_of_gov {s t : State} (h : t.gov = s.gov) (g : Nat) : grp t g = grp s g := by rw [grp, h, grp]

@[simp] theorem grp_modGrp_same (s : State) (g : Nat) (f : Group → Group) : grp (modGrp s g f) g = f (grp s g) := tget_tmod_same _ _ _ _

theorem grp_modGrp_other (s : State) {g x : Nat} (f : Group → Group) (h : x ≠ g) : grp (modGrp s g f) x = grp s x := tget_tmod_other _ _ f h.symm

@[simp] theorem grp_setGrp_same (s : State) (g st : Nat) (f : Group → Group) : grp (setGrp s g st f) g = f { grp s g with state := st, stateClose := s.now } := grp_modGrp_same ..

theorem ne_of_mem_dropDemand {s : State} {o : DemandOf} {d : Demand} (h : d ∈ (dropDemand s o).gov.demands) : d.of ≠ o := by simpa using (List.mem_filter.1 h).2

/-! ### GROUP WINDOW (R320) -/

theorem findCmd_of_windowCmd {s : State} {tag action : Nat} {p : Phase} {c : Cmd} (h : windowCmd s tag action p = some c) : findCmd s tag = some c := findCmd_of_cmdIn h

/-- A GROUP WINDOW that its row leaves to the next boundary. -/
def windowTaken (s : State) (tag : Nat) : State := modCmd s tag (fun c => { c with phase := .busy, begun := true })

theorem findCmd_windowTaken {s : State} {tag : Nat} {c : Cmd} (h : findCmd s tag = some c) : findCmd (windowTaken s tag) tag = some { c with phase := .busy, begun := true } :=
  findCmd_modCmd_of_hdr (f := fun c => { c with phase := .busy, begun := true }) (fun _ => rfl) h

theorem needsExit_power (s : State) : (s.power.state = 2 → (needsExit s).power.exitDue = true) ∧ (s.power.state ≠ 2 → (needsExit s).power = s.power) :=
  ⟨fun h => by rw [needsExit, if_pos h], fun h => by rw [needsExit, if_neg h]⟩

theorem runs_groupWindowRequest {tag : Nat} {c : Cmd} {s : State} (hc : windowCmd s tag 0 .started = some c) :
    Runs (.groupWindowRequest tag) s (fun t => findCmd t tag = some { c with phase := .busy, begun := true } ∧ (∃ d ∈ t.gov.demands, d.cls = 4 ∧ d.groups = [c.hdr.f 24 1] ∧ d.of = .hostReq tag) ∧
      t.gov.groups = s.gov.groups ∧ (s.power.state = 2 → t.power.exitDue = true) ∧ (s.power.state ≠ 2 → t.power = s.power)) := by
  set u := setDemand (windowTaken s tag) 4 [c.hdr.f 24 1] (.hostReq tag)
  have hrow : exec (.groupWindowRequest tag) s = .next (needsExit u) := by
    simp only [exec, execGroupWindowRequest, hc]
    rfl
  have hk : (needsExit u).outside [.power] = u.outside [.power] := by simp
  have hgov : (needsExit u).gov = u.gov := same_gov hk (by decide)
  refine ⟨needsExit u, hrow, ?_, ?_, by rw [hgov]; rfl, needsExit_power u⟩
  · exact (findCmd_of_cmds (same_cmds hk (by decide))).trans (findCmd_windowTaken (findCmd_of_windowCmd hc))
  · rw [hgov]
    exact ⟨_, List.mem_append_right _ (List.mem_singleton_self _), rfl, List.mergeSort_singleton _, rfl⟩

theorem runs_groupWindowRelease {tag : Nat} {c : Cmd} {s : State} (hc : windowCmd s tag 1 .started = some c) :
    Runs (.groupWindowRelease tag) s (fun t => findCmd t tag = some { c with phase := .busy, begun := true } ∧ OnlyIn [.cmds] s t) := by
  have hrow : exec (.groupWindowRelease tag) s = .next (windowTaken s tag) := by
    simp only [exec, execGroupWindowRelease, hc]
    rfl
  exact ⟨_, hrow, findCmd_windowTaken (findCmd_of_windowCmd hc), by simp [OnlyIn, windowTaken]⟩

/-- A Request whose group is not Ready lapses once its deadline has passed. -/
theorem windowRequest_of_unready {s : State} {tag : Nat} {c : Cmd} (hc : windowCmd s tag 0 .busy = some c) (hst : (grp s (c.hdr.f 24 1)).state ≠ 2) :
    windowRequest s tag = if c.hdr.f 36 4 ≠ 0 ∧ c.pos.close + c.hdr.f 36 4 < s.now then finishAt (dropDemand s (.hostReq tag)) tag s.now 0x60 1 [] else s := by
  simp [windowRequest, hc, hst]

theorem runs_groupWindowDeadline {tag : Nat} {c : Cmd} {s : State} (hc : windowCmd s tag 0 .busy = some c) (hst : (grp s (c.hdr.f 24 1)).state ≠ 2) (hset : c.hdr.f 36 4 ≠ 0)
    (hpast : c.pos.close + c.hdr.f 36 4 < s.now) :
    Runs (.groupWindowDeadline tag) s (fun t => findCmd t tag = some { c with phase := .due s.now, status := 0x60, detail := 1, result := [] } ∧ (∀ d ∈ t.gov.demands, d.of ≠ .hostReq tag) ∧
      OnlyIn [.gov, .cmds] s t) := by
  have hlapses : windowRequest s tag = finishAt (dropDemand s (.hostReq tag)) tag s.now 0x60 1 [] := by rw [windowRequest_of_unready hc hst, if_pos ⟨hset, hpast⟩]
  have hfound : findCmd (dropDemand s (.hostReq tag)) tag = some c := findCmd_of_windowCmd hc
  exact ⟨_, congrArg Host.Outcome.next hlapses, findCmd_finishAt _ _ _ _ hfound, fun _ hd => ne_of_mem_dropDemand hd, by simp [OnlyIn]⟩

theorem exec_groupWindowDeadline_pending {tag : Nat} {c : Cmd} {s : State} (hc : windowCmd s tag 0 .busy = some c) (hst : (grp s (c.hdr.f 24 1)).state ≠ 2)
    (hopen : c.hdr.f 36 4 = 0 ∨ s.now ≤ c.pos.close + c.hdr.f 36 4) : exec (.groupWindowDeadline tag) s = .next s := by
  have hstay : windowRequest s tag = s := by
    rw [windowRequest_of_unready hc hst, if_neg]
    rintro ⟨hset, hpast⟩
    exact hopen.elim hset (Nat.not_le.2 hpast)
  exact congrArg Host.Outcome.next hstay

/-! ### Rising (R359) -/

/-- A batch is counted, and the next stagger step is due. -/
theorem grp_startBatch (s : State) (g : Nat) :
    grp (startBatch s g) g = { grp s g with batch := (grp s g).batch + 1, nextStep := s.now + s.ch (·.stagger) 250000 } := by
  unfold startBatch
  extract_lets size batch u
  have hk : u.outside [.drives] = s.outside [.drives] := by simp [u]
  rw [grp_modGrp_same, grp_of_gov (same_gov hk (by decide)), now_of_frame hk (by decide), ch_of_frame _ _ hk (by decide)]

/-- The shelves of a Rising group are on, and its next batch starts. -/
theorem shelfOk_startBatch (s : State) (g : Nat) :
    grp (startBatch (modGrp s g (fun x => { x with shelfOk := true })) g) g =
      { grp s g with shelfOk := true, batch := (grp s g).batch + 1, nextStep := s.now + s.ch (·.stagger) 250000 } := by
  rw [grp_startBatch, grp_modGrp_same]
  rfl

theorem runs_shelfPowerOk {g : Nat} {s : State} (hst : (grp s g).state = 1) (hoff : (grp s g).shelfOk = false) :
    Runs (.shelfPowerOk g true) s (fun t => (grp t g).shelfOk = true ∧ (grp t g).state = 1 ∧ (grp t g).batch = (grp s g).batch + 1 ∧ (grp t g).nextStep = s.now + s.ch (·.stagger) 250000 ∧
      OnlyIn [.drives, .gov] s t) := by
  have hgo : shelfPower s g true = startBatch (modGrp s g (fun x => { x with shelfOk := true })) g := by simp [shelfPower, hst, hoff]
  refine ⟨_, congrArg Host.Outcome.next hgo, ?_⟩
  beta_reduce
  rw [shelfOk_startBatch]
  exact ⟨rfl, hst, rfl, rfl, by simp [OnlyIn]⟩

theorem runs_shelfPowerOk_late {g : Nat} {s : State} (hst : (grp s g).state = 1) (hoff : (grp s g).shelfOk = false) (hdue : (grp s g).nextStep ≤ s.now) :
    Runs (.shelfPowerOk g false) s (fun t => (grp t g).shelfOk = true ∧ (grp t g).batch = (grp s g).batch + 1 ∧ OnlyIn [.drives, .gov, .daybook] s t) := by
  set u := (groupEnclosures s g).foldl (fun s e => fire s 0x10 4 0 (natLe 8 e) false) s
  have hgo : shelfPower s g false = startBatch (modGrp u g (fun x => { x with shelfOk := true })) g := by simp [shelfPower, hst, hoff, hdue, u]
  have hgrp : grp u g = grp s g := grp_of_gov (same_gov (ps := [.daybook]) (by simp [u]) (by decide)) g
  refine ⟨_, congrArg Host.Outcome.next hgo, ?_⟩
  beta_reduce
  rw [shelfOk_startBatch, hgrp]
  exact ⟨rfl, rfl, by simp [OnlyIn, u]⟩

theorem exec_shelfPowerOk_staggerStep_early {g : Nat} {s : State} (hearly : s.now < (grp s g).nextStep) : exec (.shelfPowerOk g false) s = .next s ∧ exec (.staggerStep g) s = .next s := by
  have hshelf : shelfPower s g false = s := by simp [shelfPower, Nat.not_le.2 hearly]
  have hstagger : staggerStep s g = s := by simp [staggerStep, Nat.not_le.2 hearly]
  exact ⟨congrArg Host.Outcome.next hshelf, congrArg Host.Outcome.next hstagger⟩

theorem runs_staggerStep {g : Nat} {s : State} (hst : (grp s g).state = 1) (hon : (grp s g).shelfOk = true) (hdue : (grp s g).nextStep ≤ s.now)
    (hmore : (grp s g).batch * max 1 (((groupDef s g).map (fun d => d.batch)).getD 12) < (groupMembers s g).length) :
    Runs (.staggerStep g) s (fun t => (grp t g).batch = (grp s g).batch + 1 ∧ (grp t g).state = 1 ∧ (grp t g).nextStep = s.now + s.ch (·.stagger) 250000 ∧ OnlyIn [.drives, .gov] s t) := by
  have hgo : staggerStep s g = startBatch s g := if_pos (by simp [hst, hon, hdue, hmore])
  refine ⟨_, congrArg Host.Outcome.next hgo, ?_⟩
  beta_reduce
  rw [grp_startBatch]
  exact ⟨rfl, hst, rfl, by simp [OnlyIn]⟩

/-! ### Ready (R359) -/

theorem runs_groupReady {g : Nat} {s : State} (hcycle : s.clock.cycle = 0) (hst : (grp s g).state = 1) (hready : ∀ m ∈ groupMembers s g, (mem s m).state = 1 → (mem s m).ready = true) :
    Runs (.groupReady g) s (fun t => (grp t g).state = 2 ∧ (grp t g).readyAt = s.now ∧ (∀ x, x ≠ g → grp t x = grp s x) ∧ OnlyIn [.gov] s t) := by
  have hall : (groupMembers s g).all (fun m => (mem s m).state ≠ 1 || (mem s m).ready) = true := List.all_eq_true.2 fun m hm => by simpa [imp_iff_not_or] using hready m hm
  have hgo : groupReady s g = setGrp s g 2 (fun x => { x with readyAt := s.now, lastNamed := s.now }) := if_pos (by simp only [hst, hall]; rfl)
  refine ⟨_, congrArg Host.Outcome.next ((if_pos hcycle).trans hgo), ?_⟩
  beta_reduce
  rw [grp_setGrp_same]
  exact ⟨rfl, rfl, fun x hx => grp_modGrp_other s _ hx, by simp [OnlyIn]⟩

theorem exec_groupReady_unready {g m : Nat} {s : State} (hm : m ∈ groupMembers s g) (honline : (mem s m).state = 1) (hr : (mem s m).ready = false) : exec (.groupReady g) s = .next s := by
  have hnot : (groupMembers s g).all (fun m => (mem s m).state ≠ 1 || (mem s m).ready) = false := List.all_eq_false.2 ⟨m, hm, by simp [honline, hr]⟩
  have hstay : groupReady s g = s := if_neg (by rw [hnot, Bool.and_false]; exact Bool.false_ne_true)
  exact congrArg Host.Outcome.next (by rw [hstay, ite_self])

/-! ### The spin-up limit (R359) -/

/-- What becomes of a Suspect member's reads leaves the members. -/
theorem suspect_members (s : State) (m : Nat) : (suspect s m).drives.members = (makeSuspect s m).drives.members := by
  obtain ⟨a, hfresh⟩ := Infinite.exists_notMem_finset (s.drives.cmds.map (·.id)).toFinset
  have hnew : ∀ c ∈ s.drives.cmds, c.op = .rd → c.id ≠ a := fun c hc _ hid => hfresh (by simpa using ⟨c, hc, hid⟩)
  exact congrArg Prod.fst (suspect_standing hnew)

/-- An Online member becomes Suspect, and every other member keeps its state. -/
theorem state_suspect (s : State) (m n : Nat) : (mem (suspect s m) n).state = if n = m ∧ (mem s n).state = 1 then 2 else (mem s n).state := by
  rw [mem_of_members (suspect_members s m)]
  by_cases hm : (mem s m).state = 1
  · by_cases hn : n = m
    · subst hn
      rw [if_pos ⟨rfl, hm⟩, (mem_makeSuspect hm).1]
    · simp [makeSuspect, hm, hn, setMem, mem_modMem_other]
  · rw [makeSuspect, if_neg hm, if_neg]
    rintro ⟨rfl, hn⟩
    exact hm hn

/-- The Online members of a list become Suspect. -/
theorem state_foldl_suspect (ms : List Nat) (s : State) (n : Nat) : (mem (ms.foldl suspect s) n).state = if n ∈ ms ∧ (mem s n).state = 1 then 2 else (mem s n).state := by
  induction ms generalizing s with
  | nil => simp
  | cons m ms ih =>
    rw [List.foldl_cons, ih, state_suspect]
    by_cases hn : n = m
    · subst hn
      by_cases h1 : (mem s n).state = 1 <;> simp [h1]
    · simp [hn]

theorem runs_spinUpLimitExpiry {g : Nat} {s : State} (hcycle : s.clock.cycle = 0) (hst : (grp s g).state = 1)
    (hdue : (grp s g).granted + ((groupDef s g).map (fun d => d.spinUpLimit)).getD (2 ^ 22) ≤ s.now) :
    Runs (.spinUpLimitExpiry g) s (fun t => (grp t g).state = 2 ∧ (grp t g).readyAt = s.now ∧ ∀ m ∈ groupMembers s g, (mem s m).state = 1 → (mem s m).ready = false → (mem t m).state = 2) := by
  set late := (groupMembers s g).filter (fun m => (mem s m).state = 1 && !(mem s m).ready)
  set u := late.foldl suspect s with hu
  have hgo : spinUpLimit s g = setGrp u g 2 (fun x => { x with readyAt := u.now, lastNamed := u.now, late := hold 0xFFFF (x.late + late.length) }) := if_pos (by simpa [hst] using hdue)
  have hnow : u.now = s.now := now_of_frame (ps := allBut [.clock]) (by simp [hu, allBut]) (by decide)
  refine ⟨_, congrArg Host.Outcome.next ((if_pos hcycle).trans hgo), ?_⟩
  beta_reduce
  rw [grp_setGrp_same]
  refine ⟨rfl, hnow, fun m hm honline hr => ?_⟩
  have hmem : m ∈ late := List.mem_filter.2 ⟨hm, by simp [honline, hr]⟩
  exact (state_foldl_suspect late s m).trans (if_pos ⟨hmem, honline⟩)

theorem exec_spinUpLimitExpiry_other {g : Nat} {s : State} (hst : (grp s g).state ≠ 1) : exec (.spinUpLimitExpiry g) s = .next s := by
  have hstay : spinUpLimit s g = s := if_neg (by simp [hst])
  exact congrArg Host.Outcome.next (by rw [hstay, ite_self])

/-! ### Closing, Falling, Down (R358, R360) -/

theorem grp_fallGroup (s : State) (g : Nat) : (grp (fallGroup s g) g).state = 4 ∧ (grp (fallGroup s g) g).stateClose = s.now ∧
    ((grp s g).state = 3 → (grp (fallGroup s g) g).endAt = (grp s g).endAt) := by
  unfold fallGroup
  extract_lets closing u
  have hk : u.outside [.drives] = s.outside [.drives] := by simp [u]
  rw [grp_setGrp_same, grp_of_gov (same_gov hk (by decide)), now_of_frame hk (by decide)]
  exact ⟨rfl, rfl, fun h => by simp [closing, h]⟩

theorem runs_closingEnd {g : Nat} {s : State} (hcycle : s.clock.cycle = 0) (hst : (grp s g).state = 3) (hend : (grp s g).endAt < s.now)
    (hidle : ∀ c ∈ s.drives.cmds, c.member ∈ groupMembers s g → c.late = true) :
    Runs (.closingEnd g) s (fun t => (grp t g).state = 4 ∧ (grp t g).stateClose = s.now ∧ (grp t g).endAt = (grp s g).endAt ∧ OnlyIn [.drives, .gov] s t) := by
  have hnone : s.drives.cmds.any (fun c => (groupMembers s g).contains c.member && !c.late) = false := by simpa using hidle
  have hgo : closingEnd s g = fallGroup s g := if_pos (by simp only [hst, hend, hnone]; rfl)
  obtain ⟨hstate, hclose, hendAt⟩ := grp_fallGroup s g
  exact ⟨_, congrArg Host.Outcome.next ((if_pos hcycle).trans hgo), hstate, hclose, hendAt hst, by simp [OnlyIn]⟩

theorem exec_closingEnd_early {g : Nat} {s : State} (hearly : s.now ≤ (grp s g).endAt) : exec (.closingEnd g) s = .next s := by
  have hstay : closingEnd s g = s := if_neg (by simp [Nat.not_lt.2 hearly])
  exact congrArg Host.Outcome.next (by rw [hstay, ite_self])

/-- The slots of some members are switched off. -/
def slotsOff (s : State) (ms : List Nat) : State := ms.foldl (fun s m => modMem s m (fun x => { x with ready := false, slotOff := true })) s

theorem mem_slotsOff (ms : List Nat) (s : State) {m : Nat} (h : m ∈ ms ∨ (mem s m).ready = false ∧ (mem s m).slotOff = true) :
    (mem (slotsOff s ms) m).ready = false ∧ (mem (slotsOff s ms) m).slotOff = true := by
  induction ms generalizing s with
  | nil => exact h.resolve_left List.not_mem_nil
  | cons n ms ih =>
    refine ih _ ?_
    by_cases hn : m = n
    · subst hn
      rw [mem_modMem_same]
      exact .inr ⟨rfl, rfl⟩
    · rw [mem_modMem_other s _ hn]
      exact h.imp_left fun hm => (List.mem_cons.1 hm).resolve_left hn

theorem runs_groupDown {g : Nat} {s : State} (hcycle : s.clock.cycle = 0) (hst : (grp s g).state = 4) (hdue : (grp s g).nextStep ≤ s.now) :
    Runs (.groupDown g) s (fun t => (grp t g).state = 0 ∧ (grp t g).endAt = s.now ∧ (∀ m ∈ groupMembers s g, (mem t m).ready = false ∧ (mem t m).slotOff = true) ∧ OnlyIn [.drives, .gov] s t) := by
  set u := slotsOff s (groupMembers s g) with hu
  have hgo : groupDown s g = setGrp (shelfRelease u g) g 0 (fun x => { x with endAt := (shelfRelease u g).now }) := if_pos (by simp [hst, hdue])
  have hnow : (shelfRelease u g).now = s.now := now_of_frame (ps := [.drives, .gov]) (by simp [hu, slotsOff]) (by decide)
  have hmem (m : Nat) : mem (shelfRelease u g) m = mem u m := mem_of_frame (ps := [.gov]) (by simp) (by decide) m
  refine ⟨_, congrArg Host.Outcome.next ((if_pos hcycle).trans hgo), ?_⟩
  beta_reduce
  rw [grp_setGrp_same]
  refine ⟨rfl, hnow, fun m hm => ?_, by simp [OnlyIn, hu, slotsOff]⟩
  have hoff := mem_slotsOff (groupMembers s g) s (.inl hm)
  rw [← hu, ← hmem] at hoff
  exact hoff

theorem exec_groupDown_other {g : Nat} {s : State} (hst : (grp s g).state ≠ 4) : exec (.groupDown g) s = .next s := by
  have hstay : groupDown s g = s := if_neg (by simp [hst])
  exact congrArg Host.Outcome.next (by rw [hstay, ite_self])

/-! ### HOST_CLAIM_END (R320, R361) -/

theorem runs_hostClaimEnd {g : Nat} {s : State} (hclaim : (grp s g).claimed = true) (hend : (grp s g).claimEnd ≤ s.now) :
    Runs (.hostClaimEnd g) s (fun t => (grp t g).claimed = false ∧ (grp t g).state = (grp s g).state ∧ (∀ d ∈ t.gov.demands, d.of ≠ .claim g) ∧ OnlyIn [.gov] s t) := by
  have hgo : claimEnd s g = dropDemand (modGrp s g (fun x => { x with claimed := false })) (.claim g) := if_pos (by simp [hclaim, hend])
  have hgrp : grp (dropDemand (modGrp s g (fun x => { x with claimed := false })) (.claim g)) g = { grp s g with claimed := false } := grp_modGrp_same s g fun x => { x with claimed := false }
  exact ⟨_, congrArg Host.Outcome.next hgo, by rw [hgrp], by rw [hgrp], fun _ hd => ne_of_mem_dropDemand hd, by simp [OnlyIn]⟩

theorem exec_hostClaimEnd_early {g : Nat} {s : State} (hearly : s.now < (grp s g).claimEnd) : exec (.hostClaimEnd g) s = .next s :=
  congrArg Host.Outcome.next (if_neg (by simp [Nat.not_le.2 hearly]))

/-- Settles O43: what each command does to its group by `startBatch`, `setGrp` and `fallGroup`; at the spin-up limit by `state_foldl_suspect`. -/
theorem powerGroupsCycle : Obligations.PowerGroupsCycle :=
  ⟨fun _ _ _ => runs_groupWindowRequest, fun _ _ _ => runs_groupWindowRelease, fun _ _ _ => runs_groupWindowDeadline, fun _ _ _ => exec_groupWindowDeadline_pending,
    fun _ _ => runs_shelfPowerOk, fun _ _ => runs_shelfPowerOk_late, fun _ _ => exec_shelfPowerOk_staggerStep_early, fun _ _ => runs_staggerStep,
    fun _ _ => runs_groupReady, fun _ _ _ => exec_groupReady_unready, fun _ _ => runs_spinUpLimitExpiry, fun _ _ => exec_spinUpLimitExpiry_other,
    fun _ _ => runs_closingEnd, fun _ _ => exec_closingEnd_early, fun _ _ => runs_groupDown, fun _ _ => exec_groupDown_other, fun _ _ => runs_hostClaimEnd, fun _ _ => exec_hostClaimEnd_early⟩

end Sys2Proof.Machine
end

section
namespace Sys2Proof.Machine

/-! ## Joins of a partner and mirror audits (O53) -/

/-! ### JOIN (R399, R400) -/

/-- The Active unit begins the bulk copy of some records. -/
def bulkBegun (s : State) (seqs : List Nat) : State :=
  { s with
    pair := { s.pair with
      joinStart := s.now, joinLeft := seqs, joinConfirmed := [], bulkEnded := false
      joinTotal := ceilDiv (sumOf Rec.space (s.ledger.recs.filter (fun r => seqs.contains r.seq))) 1024 }
    chain := { s.chain with txQueue := s.chain.txQueue ++ [streamHeader 5 0 (seqs.headD s.ledger.nextSeq) 0] } }

/-- A unit whose partner answers on the chain may join. -/
structure CanJoin (s : State) : Prop where
  pair : isPair s = true
  running : s.chip.step = 15
  delivered : delivers s.pair.chain = true

theorem join_of_active {s : State} (h : CanJoin s) (hrole : s.pair.role = 1) (hledger : s.ledger.mode = 3) (hmode : s.pair.mode = 0 ∨ s.pair.mode = 4) :
    join s = setPair (bulkBegun s (heldSeqs s)) 1 5 false := by
  obtain ⟨hpair, hstep, hdel⟩ := h
  simp only [join, hpair, hstep, hdel, hrole, hledger]
  rcases hmode with hmode | hmode <;> simp only [hmode] <;> rfl

theorem runs_join_active {s : State} (h : CanJoin s) (hrole : s.pair.role = 1) (hledger : s.ledger.mode = 3) (hmode : s.pair.mode = 0 ∨ s.pair.mode = 4) :
    Runs .join s (fun t => t.pair.mode = 5 ∧ t.pair.role = 1 ∧ t.pair.joinStart = s.now ∧ t.pair.joinLeft = heldSeqs s ∧ t.pair.joinConfirmed = [] ∧ t.pair.bulkEnded = false ∧ t.ledger = s.ledger ∧
      t.chain.txQueue = s.chain.txQueue ++ [streamHeader 5 0 ((heldSeqs s).headD s.ledger.nextSeq) 0]) := by
  have hchain : (setPair (bulkBegun s (heldSeqs s)) 1 5 false).chain = (bulkBegun s (heldSeqs s)).chain := same_chain (ps := [.ints, .link, .pair, .daybook, .hostMem]) (by simp) (by decide)
  refine ⟨_, congrArg Host.Outcome.next (join_of_active h hrole hledger hmode), ?_⟩
  beta_reduce
  rw [setPair_pair, setPair_ledger, hchain]
  exact ⟨rfl, rfl, rfl, rfl, rfl, rfl, rfl, rfl⟩

/-- A unit that joins holds copies, and is not current. -/
def holdingCopies (s : State) : State :=
  { s with pair := { s.pair with current := false, bulkEnded := false }, ledger := { s.ledger with mode := 2, resyncLeft := [], resyncTotal := 0 } }

theorem join_of_joining {s : State} (h : CanJoin s) (hrole : s.pair.role = 2 ∧ s.pair.current = false ∨ s.pair.role = 3) (hmode : s.pair.mode ≠ 5) :
    join s = setPair (holdingCopies (toRegistry s (allPositions s) .register)) 2 5 false := by
  obtain ⟨hpair, hstep, hdel⟩ := h
  have hjoins : ((s.pair.role = 2 && !s.pair.current || s.pair.role = 3) && s.pair.mode ≠ 5) = true := by simpa [hmode] using hrole
  have hactive : ¬ (s.pair.role = 1 && s.ledger.mode = 3 && (s.pair.mode = 0 || s.pair.mode = 4)) = true := by
    rcases hrole with ⟨hrole, -⟩ | hrole <;> simp [hrole]
  unfold join
  rw [if_neg (by simp [hpair, hstep, hdel]), if_neg hactive, if_pos hjoins]
  rfl

theorem runs_join_joining {s : State} (h : CanJoin s) (hrole : s.pair.role = 2 ∧ s.pair.current = false ∨ s.pair.role = 3) (hmode : s.pair.mode ≠ 5) :
    Runs .join s (fun t => t.pair.mode = 5 ∧ t.pair.role = 2 ∧ t.pair.current = false ∧ t.ledger = { s.ledger with mode := 2, resyncLeft := [], resyncTotal := 0 }) := by
  have hledger : (toRegistry s (allPositions s) .register).ledger = s.ledger := same_ledger (ps := [.drives]) (by simp) (by decide)
  refine ⟨_, congrArg Host.Outcome.next (join_of_joining h hrole hmode), ?_⟩
  beta_reduce
  rw [setPair_pair, setPair_ledger, holdingCopies, hledger]
  exact ⟨rfl, rfl, rfl, rfl⟩

theorem exec_join_undelivered {s : State} (hdel : delivers s.pair.chain = false) : exec .join s = .next s := by
  have hstay : join s = s := if_pos (by simp [hdel])
  exact congrArg Host.Outcome.next hstay

/-! ### BULK_END and JOIN_CURRENT (R400) -/

theorem exec_bulkEnd {s : State} (hrole : s.pair.role = 1) (hmode : s.pair.mode = 5) (hleft : s.pair.joinLeft = []) (hended : s.pair.bulkEnded = false) :
    exec .bulkEnd s = .next { s with pair := { s.pair with bulkEnded := true }, chain := { s.chain with txQueue := s.chain.txQueue ++ [streamHeader 6 0 s.ledger.nextSeq 0] } } :=
  congrArg Host.Outcome.next (if_pos (by simp [hrole, hmode, hleft, hended]))

theorem exec_bulkEnd_left {s : State} (hleft : s.pair.joinLeft ≠ []) : exec .bulkEnd s = .next s := congrArg Host.Outcome.next (if_neg (by simp [hleft]))

theorem exec_joinCurrent {s : State} (hmode : s.pair.mode = 5) (hended : s.pair.bulkEnded = true) :
    exec .joinCurrent s = .next (if s.pair.role = 1 then
        if s.pair.recordPending.isNone && s.pair.detachStep = 0 && (heldSeqs s).all s.pair.joinConfirmed.contains then startRecord s (allPositions s) true 5 else s
      else if s.pair.role = 2 then setPair { s with pair := { s.pair with current := true, bulkEnded := false } } 2 0 false
      else s) :=
  congrArg Host.Outcome.next (if_neg (by simp [hmode, hended]))

theorem runs_joinCurrent_standby {s : State} (hmode : s.pair.mode = 5) (hended : s.pair.bulkEnded = true) (hrole : s.pair.role = 2) :
    Runs .joinCurrent s (fun t => t.pair.current = true ∧ t.pair.mode = 0 ∧ t.pair.role = 2 ∧ t.ledger = s.ledger) := by
  refine ⟨_, by rw [exec_joinCurrent hmode hended, if_neg (by simp [hrole]), if_pos hrole], ?_⟩
  beta_reduce
  rw [setPair_pair, setPair_ledger]
  exact ⟨rfl, rfl, rfl, rfl⟩

theorem runs_joinCurrent_active {s : State} (hmode : s.pair.mode = 5) (hended : s.pair.bulkEnded = true) (hrole : s.pair.role = 1) (hpending : s.pair.recordPending = none)
    (hdetach : s.pair.detachStep = 0) (hconfirmed : ∀ q ∈ heldSeqs s, q ∈ s.pair.joinConfirmed) :
    Runs .joinCurrent s (fun t => t.pair.recordPending = some (ownRecord s true) ∧ t.pair.recordFor = 5 ∧ t.pair.mode = 5) := by
  have hall : (heldSeqs s).all s.pair.joinConfirmed.contains = true := by simpa using hconfirmed
  refine ⟨_, by rw [exec_joinCurrent hmode hended, if_pos hrole, if_pos (by simp only [hpending, hdetach, hall]; rfl)], ?_⟩
  beta_reduce
  rw [startRecord_pair]
  exact ⟨rfl, rfl, hmode⟩

theorem exec_joinCurrent_open {s : State} (hended : s.pair.bulkEnded = false) : exec .joinCurrent s = .next s := congrArg Host.Outcome.next (if_pos (by simp [hended]))

/-! ### AUDIT and AUDIT_MARK (R322, R397, R401) -/

theorem exec_audit {tag : Nat} {s : State} (hop : opfin s = true) : exec (.audit tag) s = .next (auditRow s tag) := congrArg Host.Outcome.next (if_pos hop)

/-- An AUDIT that the Active unit of a countersigning pair takes. -/
theorem auditRow_of_active {tag : Nat} {c : Cmd} {s : State} (hc : startedCmd s tag 0x8A = some c) (hrole : s.pair.role = 1) (hmode : s.pair.mode ≠ 5) (hledger : s.ledger.mode = 1) :
    auditRow s tag =
      let u := modCmd s tag (fun c => { c with phase := .busy })
      if s.pair.run.running then { u with pair := { s.pair with waitingAudits := s.pair.waitingAudits ++ [tag] } } else startAudit u (auditScope c) (some tag) := by
  simp only [auditRow, hc]
  rw [if_neg (by simp [hmode]), if_neg (by simp [hrole, hledger])]
  rfl

theorem runs_audit {tag : Nat} {c : Cmd} {s : State} (hop : opfin s = true) (hc : startedCmd s tag 0x8A = some c) (hrole : s.pair.role = 1) (hmode : s.pair.mode ≠ 5) (hledger : s.ledger.mode = 1)
    (hrun : s.pair.run.running = false) :
    Runs (.audit tag) s (fun t => t.pair.run.running = true ∧ t.pair.run.seq = s.pair.run.seq + 1 ∧ t.pair.run.tag = some tag ∧ t.pair.run.volume = auditScope c ∧ t.pair.run.mark = s.now ∧
      t.ledger = s.ledger) := by
  refine ⟨_, (exec_audit hop).trans (congrArg Host.Outcome.next ((auditRow_of_active hc hrole hmode hledger).trans (if_neg (by simp [hrun])))), ?_⟩
  exact ⟨rfl, rfl, rfl, rfl, rfl, rfl⟩

theorem runs_audit_waits {tag : Nat} {c : Cmd} {s : State} (hop : opfin s = true) (hc : startedCmd s tag 0x8A = some c) (hrole : s.pair.role = 1) (hmode : s.pair.mode ≠ 5)
    (hledger : s.ledger.mode = 1) (hrun : s.pair.run.running = true) :
    Runs (.audit tag) s (fun t => t.pair = { s.pair with waitingAudits := s.pair.waitingAudits ++ [tag] } ∧ OnlyIn [.cmds, .pair] s t) :=
  ⟨_, (exec_audit hop).trans (congrArg Host.Outcome.next ((auditRow_of_active hc hrole hmode hledger).trans (if_pos hrun))), rfl, rfl⟩

theorem finish_pair (s : State) (tag status detail : Nat) (result : List Byte) : (finish s tag status detail result).pair = s.pair := same_pair (ps := [.cmds, .returns]) (by simp) (by decide)

theorem runs_audit_refused {tag : Nat} {c : Cmd} {s : State} (hop : opfin s = true) (hc : startedCmd s tag 0x8A = some c) (hrole : s.pair.role ≠ 1) :
    Runs (.audit tag) s (fun t => Ended t tag 0x50 2 [] ∧ t.pair = s.pair) := by
  have hrow : auditRow s tag = finish s tag 0x50 2 [] := by simp [auditRow, hc, hrole]
  obtain ⟨p, hp, hfound⟩ := findCmd_finish 0x50 2 [] (findCmd_of_startedCmd hc)
  exact ⟨_, (exec_audit hop).trans (congrArg Host.Outcome.next hrow), ⟨_, hfound, hp, rfl, rfl, rfl⟩, finish_pair ..⟩

theorem runs_auditMark {volume : Option Nat} {s : State} (hrole : s.pair.role = 1) (hledger : s.ledger.mode = 1) (hrun : s.pair.run.running = false) (hset : s.ch (·.auditInterval) 0 ≠ 0)
    (hdue : s.pair.nextAudit ≤ s.now) :
    Runs (.auditMark volume) s (fun t => t.pair.run.running = true ∧ t.pair.run.volume = volume ∧ t.pair.run.tag = none ∧ t.pair.run.mark = s.now ∧ t.pair.nextAudit = s.now + s.ch (·.auditInterval) 0) :=
  ⟨_, congrArg Host.Outcome.next (if_pos (by simp [hrole, hledger, hrun, hset, hdue])), rfl, rfl, rfl, rfl, if_neg hset⟩

theorem runs_auditMark_standby {volume : Option Nat} {s : State} (hrole : s.pair.role = 2) (hpair : isPair s = true) :
    Runs (.auditMark volume) s (fun t => (∃ ws, t.chain.txQueue = s.chain.txQueue ++ ws) ∧ OnlyIn [.chain] s t) :=
  ⟨_, congrArg Host.Outcome.next ((if_neg (by simp [hrole])).trans (if_pos (by simp [hrole, hpair]))), ⟨_, rfl⟩, by simp [OnlyIn]⟩

/-! ### AUDIT_DIGEST (R397, R398) -/

/-- What the audits of a pair have found: how many have ended, how many did not agree, the latest, and the detach that a mismatch begins. -/
def Pair.findings (p : Pair) : Nat × Nat × Option AuditEnd × Nat := (p.audits, p.mismatches, p.lastAudit, p.detachStep)

/-- The next AUDIT that waits finds nothing yet. -/
theorem nextWaiting_findings (s : State) : (nextWaiting s).pair.findings = s.pair.findings := by
  unfold nextWaiting
  split
  · rfl
  · dsimp only
    split
    · rfl
    · split
      · rfl
      · rw [finish_pair]
        rfl

/-- The volumes whose digests the Standby does not give alike. -/
def differing (s : State) (ds : List (Nat × Nat)) : List Nat := (s.pair.run.digests.filter (fun d => !ds.contains d)).map (·.1)

/-- The map's digest differs, in an audit of every volume. -/
def mapDiffers (s : State) (m : Nat) : Bool := s.pair.run.volume.isNone && m ≠ s.pair.run.mapDigest

/-- The units agree, and the witness record is in force at a majority of the registry. -/
def auditAgrees (s : State) (ds : List (Nat × Nat)) (m w : Nat) : Bool := (differing s ds).isEmpty && !mapDiffers s m && registrySize s < 2 * w

/-- The audit that has run, as it ends. -/
def auditResult (s : State) (ds : List (Nat × Nat)) (m w : Nat) : AuditEnd :=
  let r := s.pair.run
  ⟨r.seq, r.mark, s.now - r.mark, r.records, b1 r.volume.isSome, b1 (!auditAgrees s ds m w), r.volume.getD 0, mapDiffers s m, w, differing s ds⟩

/-- A scheduled audit has ended. -/
def auditCounted (s : State) (ds : List (Nat × Nat)) (m w : Nat) : State :=
  { s with pair := { s.pair with
    audits := inc 0xFFFF s.pair.audits
    mismatches := if auditAgrees s ds m w then s.pair.mismatches else inc 0xFFFF s.pair.mismatches
    run := { seq := s.pair.run.seq }
    lastAudit := some (auditResult s ds m w) } }

theorem auditEnd_of_scheduled {ds : List (Nat × Nat)} {m w : Nat} {s : State} (hrun : s.pair.run.running = true) (hrole : s.pair.role = 1) (htag : s.pair.run.tag = none) :
    auditEnd s ds m w = nextWaiting (if auditAgrees s ds m w then auditCounted s ds m w
      else fire { auditCounted s ds m w with pair := { (auditCounted s ds m w).pair with detachStep := 5 } } 0x14 0 s.pair.run.seq [] false) := by
  unfold auditEnd
  dsimp only
  rw [if_neg (by simp [hrun, hrole])]
  simp only [htag]
  rfl

/-- What a scheduled audit has found once its digests are compared. -/
theorem auditEnd_findings {ds : List (Nat × Nat)} {m w : Nat} {s : State} (hrun : s.pair.run.running = true) (hrole : s.pair.role = 1) (htag : s.pair.run.tag = none) :
    (auditEnd s ds m w).pair.findings = (inc 0xFFFF s.pair.audits, if auditAgrees s ds m w then s.pair.mismatches else inc 0xFFFF s.pair.mismatches, some (auditResult s ds m w),
      if auditAgrees s ds m w then s.pair.detachStep else 5) := by
  rw [auditEnd_of_scheduled hrun hrole htag, nextWaiting_findings]
  cases hagree : auditAgrees s ds m w with
  | true => simp [Pair.findings, auditCounted, hagree]
  | false =>
    rw [if_neg (by simp), same_pair (fire_outside (ps := [.daybook]) _ _ _ _ _ _ (by decide)) (by decide)]
    simp [Pair.findings, auditCounted, hagree]

/-- The findings of a pair, one by one. -/
theorem of_findings {p : Pair} {audits mismatches step : Nat} {last : Option AuditEnd} (h : p.findings = (audits, mismatches, last, step)) :
    p.audits = audits ∧ p.mismatches = mismatches ∧ p.lastAudit = last ∧ p.detachStep = step := by simpa [Pair.findings] using h

theorem differing_self (s : State) : differing s s.pair.run.digests = [] := by simp [differing]

theorem mem_differing {s : State} {ds : List (Nat × Nat)} {d : Nat × Nat} (hd : d ∈ s.pair.run.digests) (hds : d ∉ ds) : d.1 ∈ differing s ds :=
  List.mem_map_of_mem (List.mem_filter.2 ⟨hd, by simpa using hds⟩)

theorem runs_auditDigest_agrees {w : Nat} {s : State} (hrun : s.pair.run.running = true) (hrole : s.pair.role = 1) (htag : s.pair.run.tag = none) (hw : registrySize s < 2 * w) :
    Runs (.auditDigest s.pair.run.digests s.pair.run.mapDigest w) s (fun t => t.pair.mismatches = s.pair.mismatches ∧ t.pair.audits = inc 0xFFFF s.pair.audits ∧ t.pair.detachStep = s.pair.detachStep ∧
      ∃ a, t.pair.lastAudit = some a ∧ a.result = 0 ∧ a.bad = [] ∧ a.taken = s.now - s.pair.run.mark) := by
  have hagree : auditAgrees s s.pair.run.digests s.pair.run.mapDigest w = true := by simp [auditAgrees, differing_self, mapDiffers, hw]
  obtain ⟨haudits, hmismatches, hlast, hstep⟩ := of_findings (auditEnd_findings (ds := s.pair.run.digests) (m := s.pair.run.mapDigest) (w := w) hrun hrole htag)
  refine ⟨_, rfl, hmismatches.trans (if_pos hagree), haudits, hstep.trans (if_pos hagree), _, hlast, ?_, differing_self s, rfl⟩
  simp [auditResult, hagree, b1]

theorem runs_auditDigest_differs {ds : List (Nat × Nat)} {m w : Nat} {d : Nat × Nat} {s : State} (hrun : s.pair.run.running = true) (hrole : s.pair.role = 1) (htag : s.pair.run.tag = none)
    (hd : d ∈ s.pair.run.digests) (hds : d ∉ ds) :
    Runs (.auditDigest ds m w) s (fun t => t.pair.mismatches = inc 0xFFFF s.pair.mismatches ∧ t.pair.detachStep = 5 ∧ ∃ a, t.pair.lastAudit = some a ∧ a.result = 1 ∧ d.1 ∈ a.bad) := by
  have hbad := mem_differing hd hds
  have hagree : auditAgrees s ds m w = false := by simp [auditAgrees, List.ne_nil_of_mem hbad]
  obtain ⟨-, hmismatches, hlast, hstep⟩ := of_findings (auditEnd_findings (ds := ds) (m := m) (w := w) hrun hrole htag)
  refine ⟨_, rfl, hmismatches.trans (if_neg (by simp [hagree])), hstep.trans (if_neg (by simp [hagree])), _, hlast, ?_, hbad⟩
  simp [auditResult, hagree, b1]

theorem exec_auditDigest_idle {ds : List (Nat × Nat)} {m w : Nat} {s : State} (hrun : s.pair.run.running = false) : exec (.auditDigest ds m w) s = .next s :=
  congrArg Host.Outcome.next (if_pos (by simp [hrun]))

/-- Settles O53: the joins by `setPair` and `startRecord`, the audits by `startAudit` and what `auditEnd_findings` says of their end. -/
theorem joinAndAudit : Obligations.JoinAndAudit :=
  ⟨fun _ hpair hstep hdel => runs_join_active ⟨hpair, hstep, hdel⟩, fun _ hpair hstep hdel => runs_join_joining ⟨hpair, hstep, hdel⟩, fun _ => exec_join_undelivered,
    fun _ => exec_bulkEnd, fun _ => exec_bulkEnd_left, fun _ => runs_joinCurrent_standby, fun _ => runs_joinCurrent_active, fun _ => exec_joinCurrent_open,
    fun _ _ _ => runs_audit, fun _ _ _ => runs_audit_waits, fun _ _ _ => runs_audit_refused, fun _ _ => runs_auditMark, fun _ _ => runs_auditMark_standby,
    fun _ _ => runs_auditDigest_agrees, fun _ _ _ _ _ => runs_auditDigest_differs, fun _ _ _ _ => exec_auditDigest_idle⟩

end Sys2Proof.Machine
end

section
namespace Sys2Proof.Machine

/-! ## The queue, the words of the table and the frame of every command (O1, O3, O4, O11) -/

/-- Settles O1: this is how `step` reads a queue that is not empty. -/
theorem stepRunsFrontCommand : Obligations.StepRunsFrontCommand := fun _ _ _ => rfl

/-- Settles O11: the table gives no row any bits. -/
theorem noWordSpellsACommand : Obligations.NoWordSpellsACommand := fun _ _ _ => ⟨rfl, rfl⟩

/-- Settles O4 by `exec_staysInParts`, which goes command by command. -/
theorem commandsStayInTheirParts : Obligations.CommandsStayInTheirParts := exec_staysInParts

/-- No command may change the queue. -/
theorem pending_notMem_mayChange (c : Instr) : .pending ∉ mayChange c := by
  delta mayChange
  cases c <;> exact of_decide_eq_true rfl

/-- Settles O3: the queue is in no part that a command may change. -/
theorem commandsLeaveQueue : Obligations.CommandsLeaveQueue :=
  fun c s t h => same_pending (exec_staysInParts c s t h) (pending_notMem_mayChange c)

end Sys2Proof.Machine
end

section
namespace Sys2Proof.Machine

/-! ## SAS lanes, retrims and discovery (O44) -/

/-! ### Lanes after a change -/

theorem lane_of_sas {s t : State} (h : t.sas = s.sas) (n : Nat) : lane t n = lane s n := by rw [lane, h, lane]

@[simp] theorem lane_modLane_same (s : State) (n : Nat) (f : SasLane → SasLane) : lane (modLane s n f) n = f (lane s n) := tget_tmod_same _ _ _ _

theorem lane_modLane_other (s : State) {n m : Nat} (f : SasLane → SasLane) (h : m ≠ n) : lane (modLane s n f) m = lane s m := tget_tmod_other _ _ f h.symm

/-! ### SAS_LANE_UP, SAS_LANE_DOWN and SAS_LANE_NOT_UP (R350, R351) -/

theorem runs_sasLaneUp {n rate : Nat} {s : State} (hn : n < 16) (hport : (lane s n).inPort = true) (hst : (lane s n).state = 1 ∨ (lane s n).state = 3) (hpos : 1 ≤ rate)
    (hmax : rate ≤ portRate s (lane s n).port) :
    Runs (.sasLaneUp n rate) s (fun t => lane t n = { lane s n with state := 2, rate } ∧ (∀ m, m ≠ n → lane t m = lane s m) ∧ OnlyIn [.sas] s t) :=
  ⟨_, congrArg Host.Outcome.next (if_pos (by simp [hn, hport, hst, hpos, hmax])), lane_modLane_same .., fun _ => lane_modLane_other s _, by simp [OnlyIn]⟩

theorem exec_sasLaneUp_fast {n rate : Nat} {s : State} (hfast : portRate s (lane s n).port < rate) : exec (.sasLaneUp n rate) s = .next s :=
  congrArg Host.Outcome.next (if_neg (by simp [Nat.not_le.2 hfast]))

theorem runs_sasLaneDown {n : Nat} {s : State} (hn : n < 16) (hst : (lane s n).state = 2) :
    Runs (.sasLaneDown n) s (fun t => lane t n = { lane s n with state := 3, rate := 0, downSince := s.now, slot := false } ∧ (∀ m, m ≠ n → lane t m = lane s m) ∧ OnlyIn [.sas] s t) :=
  ⟨_, congrArg Host.Outcome.next (if_pos (by simp [hn, hst])), lane_modLane_same .., fun _ => lane_modLane_other s _, by simp [OnlyIn]⟩

theorem exec_sasLaneDown_notUp {n : Nat} {s : State} (hst : (lane s n).state ≠ 2) : exec (.sasLaneDown n) s = .next s :=
  congrArg Host.Outcome.next (if_neg (by simp [hst]))

theorem runs_sasLaneNotUp {n : Nat} {s : State} (hn : n < 16) (hport : (lane s n).inPort = true) (hst : (lane s n).state ≠ 2) (hlong : (lane s n).downSince + 65536 ≤ s.now)
    (hdue : (lane s n).replaceDue = none) :
    Runs (.sasLaneNotUp n) s (fun t => lane t n = { lane s n with replaceDue := some 6 } ∧ OnlyIn [.sas] s t) :=
  ⟨_, congrArg Host.Outcome.next (if_pos (by simp [hn, hport, hst, hlong, hdue])), lane_modLane_same .., by simp [OnlyIn]⟩

theorem exec_sasLaneNotUp_up {n : Nat} {s : State} (hst : (lane s n).state = 2) : exec (.sasLaneNotUp n) s = .next s :=
  congrArg Host.Outcome.next (if_neg (by simp [hst]))

/-! ### SAS_LANE_FLAG (R370) -/

/-- The failures of a lane that its window still holds. -/
abbrev recentFailures (s : State) (n : Nat) : List Nat := (lane s n).failures.filter (fun c => s.now < c + 2 ^ 24)

theorem recent_failures (s : State) (n : Nat) : recent 24 s.now (lane s n).failures = recentFailures s n := rfl

theorem flagLane_of_many {n : Nat} {s : State} (hmany : 3 ≤ (recentFailures s n).length) (hnew : (lane s n).flagged = false) (hport : (lane s n).inPort = true) :
    flagLane s n = fire (modLane s n (fun l => { l with flagged := true, replaceDue := some 4 })) 0x11 1 n [] true :=
  if_pos (by simp only [recent_failures, hmany, hnew, hport]; rfl)

theorem flagLane_of_few {n : Nat} {s : State} (hfew : (recentFailures s n).length < 3) : flagLane s n = s :=
  if_neg (by simp only [recent_failures, Nat.not_le.2 hfew]; exact Bool.false_ne_true)

theorem lane_flagLane_of_many {n : Nat} {s : State} (hmany : 3 ≤ (recentFailures s n).length) (hnew : (lane s n).flagged = false) (hport : (lane s n).inPort = true) :
    lane (flagLane s n) n = { lane s n with flagged := true, replaceDue := some 4 } := by
  rw [flagLane_of_many hmany hnew hport, lane_of_sas (same_sas (fire_outside (ps := [.daybook]) _ _ _ _ _ _ (by decide)) (by decide)), lane_modLane_same]

/-- A flag leaves the rest of what a retrim writes as it was. -/
theorem lane_flagLane (s : State) (n : Nat) :
    (lane (flagLane s n) n).slot = (lane s n).slot ∧ (lane (flagLane s n) n).lastTrim = (lane s n).lastTrim ∧ (lane (flagLane s n) n).failures = (lane s n).failures := by
  by_cases hmany : 3 ≤ (recentFailures s n).length
  case neg => rw [flagLane_of_few (Nat.not_le.1 hmany)]; exact ⟨rfl, rfl, rfl⟩
  cases hnew : (lane s n).flagged
  case true => simp [flagLane, hnew]
  cases hport : (lane s n).inPort
  case false => simp [flagLane, hport]
  rw [lane_flagLane_of_many hmany hnew hport]
  exact ⟨rfl, rfl, rfl⟩

/-- A lane in a port that is not flagged yet is flagged exactly when three of its failures are recent. -/
theorem flagged_flagLane {n : Nat} {s : State} (hnew : (lane s n).flagged = false) (hport : (lane s n).inPort = true) :
    (lane (flagLane s n) n).flagged = true ↔ 3 ≤ (recentFailures s n).length := by
  by_cases hmany : 3 ≤ (recentFailures s n).length
  · simp [lane_flagLane_of_many hmany hnew hport, hmany]
  · simp [flagLane_of_few (Nat.not_le.1 hmany), hnew, hmany]

theorem runs_sasLaneFlag {n : Nat} {s : State} (hmany : 3 ≤ (recentFailures s n).length) (hnew : (lane s n).flagged = false) (hport : (lane s n).inPort = true) :
    Runs (.sasLaneFlag n) s (fun t => lane t n = { lane s n with flagged := true, replaceDue := some 4 } ∧ OnlyIn [.sas, .daybook] s t) :=
  ⟨_, rfl, lane_flagLane_of_many hmany hnew hport, by simp [OnlyIn]⟩

theorem exec_sasLaneFlag_few {n : Nat} {s : State} (hfew : (recentFailures s n).length < 3) : exec (.sasLaneFlag n) s = .next s :=
  congrArg Host.Outcome.next (flagLane_of_few hfew)

/-! ### SAS_RETRIM and RETRIM_DEFERRAL (R368, R369) -/

/-- A retrim has run on the lane's slot. -/
def retrimmed (s : State) (n : Nat) : State := modLane s n (fun l => { l with slot := false, trims := inc 0xFFFF l.trims })

theorem exec_sasRetrim {n : Nat} {s : State} (r : Retrim) (hslot : (lane s n).slot = true) (hst : (lane s n).state = 2) :
    exec (.sasRetrim n r) s = .next (if retrimPlausible r then modLane (retrimmed s n) n (fun l => { l with lastTrim := s.now })
      else flagLane (modLane (retrimmed s n) n (fun l => { l with failures := recent 24 s.now l.failures ++ [s.now] })) n) :=
  congrArg Host.Outcome.next (if_pos (by simp [hslot, hst]))

theorem runs_sasRetrim_plausible {n : Nat} {r : Retrim} {s : State} (hslot : (lane s n).slot = true) (hst : (lane s n).state = 2) (hgood : retrimPlausible r = true) :
    Runs (.sasRetrim n r) s (fun t => lane t n = { lane s n with slot := false, trims := inc 0xFFFF (lane s n).trims, lastTrim := s.now } ∧ OnlyIn [.sas] s t) := by
  refine ⟨_, by rw [exec_sasRetrim r hslot hst, if_pos hgood], ?_, by simp [OnlyIn, retrimmed]⟩
  rw [lane_modLane_same, retrimmed, lane_modLane_same]

/-- The failures that a lane's window holds are all recent once the latest is counted. -/
theorem recent_append_now {now : Nat} (l : List Nat) : (l.filter (fun c => now < c + 2 ^ 24) ++ [now]).filter (fun c => now < c + 2 ^ 24) = l.filter (fun c => now < c + 2 ^ 24) ++ [now] := by
  simp [List.filter_append, List.filter_filter]

theorem runs_sasRetrim_failed {n : Nat} {r : Retrim} {s : State} (hslot : (lane s n).slot = true) (hst : (lane s n).state = 2) (hbad : retrimPlausible r = false) :
    Runs (.sasRetrim n r) s (fun t => (lane t n).slot = false ∧ (lane t n).lastTrim = (lane s n).lastTrim ∧ (lane t n).failures = recentFailures s n ++ [s.now] ∧
      ((lane s n).flagged = false → (lane s n).inPort = true → ((lane t n).flagged = true ↔ 3 ≤ (lane t n).failures.length))) := by
  set u := modLane (retrimmed s n) n (fun l => { l with failures := recent 24 s.now l.failures ++ [s.now] }) with hu
  have hlane : lane u n = { lane s n with slot := false, trims := inc 0xFFFF (lane s n).trims, failures := recentFailures s n ++ [s.now] } := by
    rw [hu, lane_modLane_same, retrimmed, lane_modLane_same]
    rfl
  obtain ⟨hslot', htrim, hfail⟩ := lane_flagLane u n
  refine ⟨_, by rw [exec_sasRetrim r hslot hst, if_neg (by simp [hbad])], ?_⟩
  beta_reduce
  rw [hslot', htrim, hfail, hlane]
  refine ⟨rfl, rfl, rfl, fun hnew hport => ?_⟩
  have hrecent : recentFailures u n = recentFailures s n ++ [s.now] := by
    rw [recentFailures, hlane]
    exact recent_append_now _
  rw [flagged_flagLane (by rw [hlane]; exact hnew) (by rw [hlane]; exact hport), hrecent]

theorem exec_sasRetrim_unslotted {n : Nat} {r : Retrim} {s : State} (hslot : (lane s n).slot = false) : exec (.sasRetrim n r) s = .next s :=
  congrArg Host.Outcome.next (if_neg (by simp [hslot]))

theorem runs_retrimDeferral {n : Nat} {s : State} (hslot : (lane s n).slot = true) :
    Runs (.retrimDeferral n) s (fun t => lane t n = { lane s n with deferred := inc 0xFFFF (lane s n).deferred } ∧ t.clock = (s.at 20480).clock ∧ OnlyIn [.clock, .sas] s t) :=
  ⟨_, congrArg Host.Outcome.next (if_pos hslot), lane_modLane_same .., rfl, by simp [OnlyIn]⟩

/-! ### DISCOVERY_RUN_END (R352–R354) -/

/-- A member whose slot holds no drive: it is missing, unless it is out of service, and keeps its state. -/
def missingFrom (s : State) (m : Nat) : Member :=
  let x := mem s m
  { x with present := false, missingSince := if x.state = 3 || x.state = 4 || x.state = 6 || x.state = 7 then none else some (x.missingSince.getD s.now) }

theorem bindMember_of_absent {s : State} {found : List FoundDrive} {d : MemberDef} (h : ∀ f ∈ found, f.enclosure = d.enclosure → f.slot ≠ d.slot) :
    bindMember s found d = modMem s d.member (fun _ => missingFrom s d.member) := by
  have hnone : found.find? (fun f => f.enclosure = d.enclosure && f.slot = d.slot && suitable s f && (s.registry.drives.find? (fun e => e.1 = d.member)).all (fun k => k.2.1 = f.serial)) = none :=
    List.find?_eq_none.2 fun f hf => by
      by_cases he : f.enclosure = d.enclosure
      · simp [he, h f hf he]
      · simp [he]
  unfold bindMember
  simp only [hnone]
  rfl

theorem mem_bindMember_other (s : State) (found : List FoundDrive) {d : MemberDef} {m : Nat} (h : m ≠ d.member) : mem (bindMember s found d) m = mem s m := by
  unfold bindMember
  dsimp only
  split
  · split
    · rfl
    · rw [mem_modMem_other _ _ h]
      split
      · rw [setMem, mem_modMem_other _ _ h]
        split <;> rfl
      · split <;> rfl
  · exact mem_modMem_other _ _ h

theorem bindMember_frame (s : State) (found : List FoundDrive) (d : MemberDef) : (bindMember s found d).outside [.drives, .registry] = s.outside [.drives, .registry] := by simp

/-- A discovery run binds every member in turn. -/
def bound (s : State) (found : List FoundDrive) (ds : List MemberDef) : State := ds.foldl (fun s d => bindMember s found d) s

theorem mem_bound_other {found : List FoundDrive} {ds : List MemberDef} {m : Nat} (h : ∀ d ∈ ds, d.member ≠ m) (s : State) : mem (bound s found ds) m = mem s m := by
  induction ds generalizing s with
  | nil => rfl
  | cons d ds ih =>
    obtain ⟨hd, hds⟩ := List.forall_mem_cons.1 h
    exact (ih hds _).trans (mem_bindMember_other s found hd.symm)

theorem missingFrom_congr {s t : State} {m : Nat} (hmem : mem t m = mem s m) (hnow : t.now = s.now) : missingFrom t m = missingFrom s m := by
  simp only [missingFrom, hmem, hnow]

/-- A member that is missing stays missing since it was first found so. -/
theorem missingFrom_of_missing {s t : State} {m : Nat} (hmem : mem t m = missingFrom s m) (hnow : t.now = s.now) : missingFrom t m = missingFrom s m := by
  simp only [missingFrom, hmem, hnow]
  split <;> rfl

theorem mem_bound_absent {found : List FoundDrive} {ds : List MemberDef} {m : Nat} (habsent : ∀ d ∈ ds, d.member = m → ∀ f ∈ found, f.enclosure = d.enclosure → f.slot ≠ d.slot)
    (hm : ∃ d ∈ ds, d.member = m) (s : State) : mem (bound s found ds) m = missingFrom s m := by
  induction ds generalizing s with
  | nil => obtain ⟨d, hd, -⟩ := hm; exact absurd hd List.not_mem_nil
  | cons d ds ih =>
    obtain ⟨hd, hds⟩ := List.forall_mem_cons.1 habsent
    have hnow : (bindMember s found d).now = s.now := now_of_frame (bindMember_frame s found d) (by decide)
    have hfirst : d.member = m → mem (bindMember s found d) m = missingFrom s m := fun h => by
      subst h
      rw [bindMember_of_absent (hd rfl), mem_modMem_same]
    by_cases hlater : ∃ e ∈ ds, e.member = m
    · refine (ih hds hlater _).trans ?_
      by_cases hdm : d.member = m
      · exact missingFrom_of_missing (hfirst hdm) hnow
      · exact missingFrom_congr (mem_bindMember_other s found (Ne.symm hdm)) hnow
    · have hdm : d.member = m := by simpa [hlater] using hm
      exact (mem_bound_other (by simpa using hlater) (bindMember s found d)).trans (hfirst hdm)

/-- The commands to members, and the drives found beyond those that fit. -/
def Drives.besideMembers (d : Drives) : List MemberCmd × Nat := (d.cmds, d.beyond)

theorem bound_besideMembers (s : State) (found : List FoundDrive) (ds : List MemberDef) : (bound s found ds).drives.besideMembers = s.drives.besideMembers := by
  refine foldl_keeps (fun u => u.drives.besideMembers) fun u d => ?_
  unfold bindMember
  dsimp only
  split
  · split
    · rfl
    · dsimp only [modMem]
      split
      · dsimp only [setMem, modMem]
        split <;> rfl
      · split <;> rfl
  · rfl

/-- What a discovery run reports before it binds the members. -/
def discoveryReported (s : State) (found : List FoundDrive) (beyond : Nat) : State :=
  let s := if 0 < beyond then fire s 0x10 2 0xFFFFFFFF [] false else s
  (found.filter (fun f => !suitable s f)).foldl (fun s f => fire s 0x10 3 f.slot (natLe 8 f.enclosure ++ natLe 8 f.sasAddr) false) s

/-- The members as a discovery run binds them. -/
def discoveryBound (s : State) (found : List FoundDrive) (beyond : Nat) : State :=
  bound (discoveryReported s found beyond) found ((discoveryReported s found beyond).ch (·.members) [])

theorem discoveryReported_frame (s : State) (found : List FoundDrive) (beyond : Nat) : (discoveryReported s found beyond).outside [.daybook] = s.outside [.daybook] := by
  simp [discoveryReported]

theorem discoveryEnd_drives (s : State) (found : List FoundDrive) (x e b : Nat) :
    let u := discoveryBound s found b
    (discoveryEnd s found x e b).drives = { u.drives with
      running := false, lastDiscovery := u.now, expanders := x, enclosures := e, beyond := hold 0xFF (u.drives.beyond + b), unassigned := found.filter (unbound u) } := rfl

theorem discoveryBound_now (s : State) (found : List FoundDrive) (b : Nat) : (discoveryBound s found b).now = s.now :=
  now_of_frame (ps := [.drives, .registry, .daybook]) (by simp [discoveryBound, bound, discoveryReported]) (by decide)

theorem discoveryBound_besideMembers (s : State) (found : List FoundDrive) (b : Nat) :
    (discoveryBound s found b).drives.cmds = s.drives.cmds ∧ (discoveryBound s found b).drives.beyond = s.drives.beyond := by
  have h : (discoveryBound s found b).drives.besideMembers = s.drives.besideMembers := by
    rw [discoveryBound, bound_besideMembers, same_drives (discoveryReported_frame s found b) (by decide)]
  exact ⟨congrArg Prod.fst h, congrArg Prod.snd h⟩

theorem mem_discoveryEnd_absent {found : List FoundDrive} {x e b : Nat} {s : State} {d : MemberDef} (hd : d ∈ s.ch (·.members) [])
    (huniq : ∀ f ∈ s.ch (·.members) [], f.member = d.member → f = d) (habsent : ∀ f ∈ found, f.enclosure = d.enclosure → f.slot ≠ d.slot) :
    mem (discoveryEnd s found x e b) d.member = missingFrom s d.member := by
  have hreport := discoveryReported_frame s found b
  have hch : (discoveryReported s found b).ch (·.members) [] = s.ch (·.members) [] := ch_of_frame _ _ hreport (by decide)
  have hmembers : (discoveryEnd s found x e b).drives.members = (discoveryBound s found b).drives.members := by rw [discoveryEnd_drives]
  rw [mem_of_members hmembers, discoveryBound, hch, mem_bound_absent (fun f hf hfd => by rw [huniq f hf hfd]; exact habsent) ⟨d, hd, rfl⟩]
  exact missingFrom_congr (mem_of_members (congrArg Drives.members (same_drives hreport (by decide))) _) (now_of_frame hreport (by decide))

theorem runs_discoveryRunEnd {found : List FoundDrive} {x e b : Nat} {s : State} (hop : opfin s = true) :
    Runs (.discoveryRunEnd found x e b) s (fun t => t.drives.running = false ∧ t.drives.lastDiscovery = s.now ∧ t.drives.expanders = x ∧ t.drives.enclosures = e ∧
      t.drives.beyond = hold 0xFF (s.drives.beyond + b) ∧ t.drives.unassigned = found.filter (unbound t) ∧ t.drives.cmds = s.drives.cmds ∧
      ∀ d ∈ s.ch (·.members) [], (∀ f ∈ s.ch (·.members) [], f.member = d.member → f = d) → (∀ f ∈ found, f.enclosure = d.enclosure → f.slot ≠ d.slot) →
        (mem t d.member).present = false ∧ (mem t d.member).state = (mem s d.member).state ∧
        ((mem s d.member).state < 3 → (mem t d.member).missingSince = some ((mem s d.member).missingSince.getD s.now))) := by
  obtain ⟨hcmds, hbeyond⟩ := discoveryBound_besideMembers s found b
  refine ⟨discoveryEnd s found x e b, congrArg Host.Outcome.next (if_pos hop), rfl, discoveryBound_now s found b, rfl, rfl, ?_, rfl, hcmds, fun d hd huniq habsent => ?_⟩
  · rw [discoveryEnd_drives, hbeyond]
  · rw [mem_discoveryEnd_absent hd huniq habsent]
    refine ⟨rfl, rfl, fun hlow => if_neg ?_⟩
    simp only [Bool.or_eq_true, decide_eq_true_eq]
    omega

theorem exec_discoveryRunEnd_down {found : List FoundDrive} {x e b : Nat} {s : State} (hop : opfin s = false) : exec (.discoveryRunEnd found x e b) s = .next s :=
  congrArg Host.Outcome.next (if_neg (by simp [hop]))

/-- Settles O44: the lanes by `modLane` and `flagLane`, discovery by what binding every member leaves of one whose slot holds no drive. -/
theorem sasLanesAndDiscovery : Obligations.SasLanesAndDiscovery :=
  ⟨fun _ _ _ => runs_sasLaneUp, fun _ _ _ => exec_sasLaneUp_fast, fun _ _ => runs_sasLaneDown, fun _ _ => exec_sasLaneDown_notUp, fun _ _ => runs_sasLaneNotUp,
    fun _ _ => exec_sasLaneNotUp_up, fun _ _ => runs_sasLaneFlag, fun _ _ => exec_sasLaneFlag_few, fun _ _ _ => runs_sasRetrim_plausible, fun _ _ _ => runs_sasRetrim_failed,
    fun _ _ _ => exec_sasRetrim_unslotted, fun _ _ => runs_retrimDeferral, fun _ => rfl, fun _ _ _ _ _ => runs_discoveryRunEnd, fun _ _ _ _ _ => exec_discoveryRunEnd_down⟩

end Sys2Proof.Machine
end

section
namespace Sys2Proof.Machine

/-! ## The lanes of the ring (O49) -/

/-! ### Lanes after a change -/

theorem chLane_of_chain {s t : State} (h : t.chain.lanes = s.chain.lanes) (i : Nat) : chLane t i = chLane s i := by rw [chLane, h, chLane]

/-- A lane that has left its first state stands in the table. -/
theorem lt_of_chLane {s : State} {i : Nat} (h : chLane s i ≠ {}) : i < s.chain.lanes.length := by
  by_contra hi
  exact h (by rw [chLane, List.drop_eq_nil_of_le (Nat.not_lt.1 hi), List.headD_nil])

theorem lt_of_swapAt {s : State} {i f : Nat} (h : (chLane s i).swapAt = some f) : i < s.chain.lanes.length := lt_of_chLane fun he => by simp [he] at h

theorem lt_of_reserve {s : State} {i : Nat} (h : (chLane s i).reserve = true) : i < s.chain.lanes.length := lt_of_chLane fun he => by simp [he] at h

theorem lt_of_active {s : State} {i : Nat} (h : (chLane s i).state = 2) : i < s.chain.lanes.length := lt_of_chLane fun he => by simp [he] at h

/-! ### LANE_CHECK_LIMIT and LANE_SWAP (R402) -/

/-- The frame at which a swap that begins now takes effect. -/
def swapFrame (s : State) : Nat := s.chain.frame + if s.power.state ≠ 0 then 2000 else 16

theorem startSwap_begins {s : State} {dir l : Nat} (cause : Nat) (hst : (chLane s (3 * dir + l)).state = 2) (hnew : (chLane s (3 * dir + l)).swapAt = none) :
    chLane (startSwap s dir l cause) (3 * dir + l) = { chLane s (3 * dir + l) with swapAt := some (swapFrame s), swapCause := cause } ∧
      ∃ m, (startSwap s dir l cause).chain.ctlQueue = s.chain.ctlQueue ++ [m] ∧ m.typ = 7 := by
  unfold startSwap
  dsimp only
  rw [if_neg (by simp [hst, hnew])]
  exact ⟨chLane_modChLane_same _ (lt_of_active hst), _, rfl, rfl⟩

theorem runs_laneCheckLimit {dir lane : Nat} {s : State} (hdir : dir < 2) (hlane : lane < 3) (hlimit : 16 ≤ (chLane s (3 * dir + lane)).crcWindow.length)
    (hst : (chLane s (3 * dir + lane)).state = 2) (hnew : (chLane s (3 * dir + lane)).swapAt = none) :
    Runs (.laneCheckLimit dir lane) s (fun t => (chLane t (3 * dir + lane)).swapAt = some (s.chain.frame + if s.power.state ≠ 0 then 2000 else 16) ∧
      (∃ m, t.chain.ctlQueue = s.chain.ctlQueue ++ [m] ∧ m.typ = 7) ∧ OnlyIn [.chain] s t) := by
  obtain ⟨hswap, hmsg⟩ := startSwap_begins 5 hst hnew
  exact ⟨_, congrArg Host.Outcome.next (if_pos (by simp [hdir, hlane, hlimit])), by rw [hswap]; rfl, hmsg, by simp [OnlyIn]⟩

theorem exec_laneCheckLimit_few {dir lane : Nat} {s : State} (hfew : (chLane s (3 * dir + lane)).crcWindow.length < 16) : exec (.laneCheckLimit dir lane) s = .next s :=
  congrArg Host.Outcome.next (if_neg (by simp [Nat.not_le.2 hfew]))

theorem exec_laneSwap {dir lane : Nat} (frame : Nat) {s : State} (hdir : dir < 2) (hlane : lane < 3) (hal : alive s = true) :
    exec (.laneSwap dir lane frame) s = .next { s with chain := { s.chain with outSwaps := s.chain.outSwaps ++ [(dir, lane, frame)] } } :=
  congrArg Host.Outcome.next (if_pos (by simp [hdir, hlane, hal]))

/-! ### LANE_SWAP_FRAME (R402, R453) -/

/-- The swaps of a lane that this unit sends on, due by the frame. -/
def swapDue (dir lane frame : Nat) (o : Nat × Nat × Nat) : Bool := o.1 = dir && o.2.1 = lane && o.2.2 ≤ frame

/-- The sending end moves the lane. -/
def movedOut (s : State) (dir lane frame : Nat) : State :=
  if s.chain.outSwaps.any (swapDue dir lane frame) then
    { s with chain := { s.chain with outSwaps := s.chain.outSwaps.filter (fun o => !swapDue dir lane frame o), outMoved := (s.chain.outMoved ++ [(dir, lane)]).eraseDups } }
  else s

theorem exec_laneSwapFrame {dir lane : Nat} (frame : Nat) {s : State} (hdir : dir < 2) (hlane : lane < 3) :
    exec (.laneSwapFrame dir lane frame) s = .next (movedOut (if (chLane s (3 * dir + lane)).swapAt.any (· ≤ frame) then swapIn s dir lane else s) dir lane frame) :=
  congrArg Host.Outcome.next (if_neg (by simp [hdir, hlane]))

theorem movedOut_lanes (s : State) (dir lane frame : Nat) : (movedOut s dir lane frame).chain.lanes = s.chain.lanes ∧ (movedOut s dir lane frame).chain.singleLane = s.chain.singleLane := by
  unfold movedOut
  split <;> exact ⟨rfl, rfl⟩

/-- The lane whose swap frame is reached retires. -/
def laneRetired (s : State) (i : Nat) : State := modChLane s i (fun c => { c with state := 3, swapAt := none })

theorem history_chain (s : State) (element action cause physical logical : Nat) : (history s element action cause physical logical).chain = s.chain :=
  same_chain (ps := [.ints, .link, .daybook, .reserves, .hostMem]) (by simp) (by decide)

theorem fire_chain (s : State) (kind cause arg : Nat) (detail : List Byte) (alert : Bool) : (fire s kind cause arg detail alert).chain = s.chain :=
  same_chain (fire_outside (ps := [.daybook]) _ _ _ _ _ _ (by decide)) (by decide)

/-- The reserve of the direction takes the lane's place. -/
theorem swapIn_chain_reserve {s : State} {dir l : Nat} (hl : l < 2) (hres : (chLane s (3 * dir + 2)).reserve = true) :
    (swapIn s dir l).chain = (modChLane (laneRetired s (3 * dir + l)) (3 * dir + 2) (fun c => { c with reserve := false, state := 2 })).chain := by
  have hkept : (chLane (history (laneRetired s (3 * dir + l)) 5 1 (chLane s (3 * dir + l)).swapCause (3 * dir + l) l) (3 * dir + 2)).reserve = true := by
    rw [chLane_of_chain (congrArg Chain.lanes (history_chain ..)), laneRetired, chLane_modChLane_other _ (by omega), hres]
  unfold swapIn
  refine (congrArg State.chain (if_pos hkept)).trans ?_
  rw [fire_chain]
  split
  · rw [history_chain, modChLane, history_chain]
    rfl
  · rw [history_chain, history_chain, modChLane, history_chain]
    rfl

/-- With no reserve left a single lane goes on. -/
theorem swapIn_chain_single {s : State} {dir l : Nat} (hl : l < 2) (hres : (chLane s (3 * dir + 2)).reserve = false) :
    (swapIn s dir l).chain = { (laneRetired s (3 * dir + l)).chain with singleLane := true } := by
  have hkept : (chLane (history (laneRetired s (3 * dir + l)) 5 1 (chLane s (3 * dir + l)).swapCause (3 * dir + l) l) (3 * dir + 2)).reserve = false := by
    rw [chLane_of_chain (congrArg Chain.lanes (history_chain ..)), laneRetired, chLane_modChLane_other _ (by omega), hres]
  unfold swapIn
  refine (congrArg State.chain (if_neg (Bool.eq_false_iff.1 hkept))).trans ?_
  dsimp only
  rw [fire_chain, history_chain]
  rfl

/-- What LANE_SWAP_FRAME leaves of the lanes, at the frame of an incoming swap. -/
theorem exec_laneSwapFrame_due {dir lane frame f : Nat} {s : State} (hdir : dir < 2) (hlane : lane < 2) (hswap : (chLane s (3 * dir + lane)).swapAt = some f) (hdue : f ≤ frame) :
    ∃ t, exec (.laneSwapFrame dir lane frame) s = .next t ∧ t.chain.lanes = (swapIn s dir lane).chain.lanes ∧ t.chain.singleLane = (swapIn s dir lane).chain.singleLane :=
  ⟨_, by rw [exec_laneSwapFrame frame hdir (Nat.lt_succ_of_lt hlane), if_pos (by simp [hswap, hdue])], movedOut_lanes _ _ _ _⟩

theorem runs_laneSwapFrame_reserve {dir lane frame f : Nat} {s : State} (hdir : dir < 2) (hlane : lane < 2) (hswap : (chLane s (3 * dir + lane)).swapAt = some f) (hdue : f ≤ frame)
    (hres : (chLane s (3 * dir + 2)).reserve = true) :
    Runs (.laneSwapFrame dir lane frame) s (fun t => (chLane t (3 * dir + lane)).state = 3 ∧ (chLane t (3 * dir + lane)).swapAt = none ∧ (chLane t (3 * dir + 2)).state = 2 ∧
      (chLane t (3 * dir + 2)).reserve = false ∧ t.chain.singleLane = s.chain.singleLane) := by
  obtain ⟨t, ht, hlanes, hsingle⟩ := exec_laneSwapFrame_due hdir hlane hswap hdue
  rw [swapIn_chain_reserve hlane hres] at hlanes hsingle
  have hin : chLane t (3 * dir + lane) = { chLane s (3 * dir + lane) with state := 3, swapAt := none } := by
    rw [chLane_of_chain hlanes, chLane_modChLane_other _ (by omega), laneRetired, chLane_modChLane_same _ (lt_of_swapAt hswap)]
  have hout : chLane t (3 * dir + 2) = { chLane s (3 * dir + 2) with reserve := false, state := 2 } := by
    rw [chLane_of_chain hlanes, chLane_modChLane_same _ (by simpa [laneRetired] using lt_of_reserve hres), laneRetired, chLane_modChLane_other _ (by omega)]
  refine ⟨t, ht, ?_⟩
  beta_reduce
  rw [hin, hout]
  exact ⟨rfl, rfl, rfl, rfl, hsingle⟩

theorem runs_laneSwapFrame_single {dir lane frame f : Nat} {s : State} (hdir : dir < 2) (hlane : lane < 2) (hswap : (chLane s (3 * dir + lane)).swapAt = some f) (hdue : f ≤ frame)
    (hres : (chLane s (3 * dir + 2)).reserve = false) :
    Runs (.laneSwapFrame dir lane frame) s (fun t => (chLane t (3 * dir + lane)).state = 3 ∧ t.chain.singleLane = true) := by
  obtain ⟨t, ht, hlanes, hsingle⟩ := exec_laneSwapFrame_due hdir hlane hswap hdue
  rw [swapIn_chain_single hlane hres] at hlanes hsingle
  refine ⟨t, ht, ?_, hsingle⟩
  rw [chLane_of_chain (s := laneRetired s (3 * dir + lane)) hlanes, laneRetired, chLane_modChLane_same _ (lt_of_swapAt hswap)]

theorem runs_laneSwapFrame_out {dir lane frame f : Nat} {s : State} (hdir : dir < 2) (hlane : lane < 3) (hnone : (chLane s (3 * dir + lane)).swapAt = none)
    (hout : (dir, lane, f) ∈ s.chain.outSwaps) (hdue : f ≤ frame) :
    Runs (.laneSwapFrame dir lane frame) s (fun t => (dir, lane) ∈ t.chain.outMoved ∧ (dir, lane, f) ∉ t.chain.outSwaps ∧ t.chain.lanes = s.chain.lanes ∧ OnlyIn [.chain] s t) := by
  have hd : swapDue dir lane frame (dir, lane, f) = true := by simp [swapDue, hdue]
  have hmoved : movedOut s dir lane frame = { s with chain := { s.chain with
      outSwaps := s.chain.outSwaps.filter (fun o => !swapDue dir lane frame o), outMoved := (s.chain.outMoved ++ [(dir, lane)]).eraseDups } } :=
    if_pos (List.any_eq_true.2 ⟨_, hout, hd⟩)
  have hrow : exec (.laneSwapFrame dir lane frame) s = .next (movedOut s dir lane frame) := by simp [exec_laneSwapFrame frame hdir hlane, hnone]
  refine ⟨_, hrow.trans (congrArg Host.Outcome.next hmoved), ?_, ?_, rfl, by simp [OnlyIn]⟩
  · simp [List.mem_eraseDups]
  · simp [List.mem_filter, hd]

/-! ### CHAIN_LINK_TRAINING (R372, R382) -/

/-- A lane that has trained. -/
def trainLane (c : ChainLane) : ChainLane := if c.state = 3 || c.reserve then c else { c with state := 2 }

theorem trainLane_trainLane (c : ChainLane) : trainLane (trainLane c) = trainLane c := by
  by_cases h : (c.state = 3 || c.reserve) = true
  · rw [trainLane, trainLane, if_pos h, if_pos h]
  · rw [trainLane, trainLane, if_neg h]
    exact ite_self _

/-- The lanes of a direction that came up have trained. -/
def trained (s : State) (dir : Nat) (ls : List Nat) : State := ls.foldl (fun s l => modChLane s (3 * dir + l) trainLane) s

theorem chLane_trained {dir l : Nat} (ls : List Nat) {s : State} (h : 3 * dir + l < s.chain.lanes.length) :
    chLane (trained s dir ls) (3 * dir + l) = if l ∈ ls then trainLane (chLane s (3 * dir + l)) else chLane s (3 * dir + l) := by
  induction ls generalizing s with
  | nil => rfl
  | cons k ls ih =>
    refine (ih (s := modChLane s (3 * dir + k) trainLane) (by simpa using h)).trans ?_
    by_cases hk : k = l
    · subst hk
      simp [chLane_modChLane_same _ h, trainLane_trainLane]
    · rw [chLane_modChLane_other _ (by omega)]
      simp [Ne.symm hk]

theorem trained_chain (s : State) (dir : Nat) (ls : List Nat) : (trained s dir ls).chain = { s.chain with lanes := (trained s dir ls).chain.lanes } :=
  foldl_modChLane_chain ls (fun l => 3 * dir + l) (fun _ _ => trainLane) s

theorem trained_frame (s : State) (dir : Nat) (ls : List Nat) : (trained s dir ls).outside [.chain] = s.outside [.chain] := outside_foldl fun u l => by simp

theorem sendToken_lanes (s : State) : (sendToken s).chain.lanes = s.chain.lanes := by
  unfold sendToken
  split <;> rfl

/-- What training does before the head's Token. -/
def linkTrained (s : State) (dir : Nat) (up : List Nat) : State := trained s dir (up.filter (· < 3))

theorem exec_chainLinkTraining {dir : Nat} (up : List Nat) {s : State} (hdir : dir < 2) (hp : s.chip.pwrgd = true) (ht : s.chip.testMode = false) (hc : s.ch (·.chainPresent) false = true) :
    exec (.chainLinkTraining dir up) s = .next (if 5 ≤ (linkTrained s dir up).chip.step then sendToken (linkTrained s dir up) else linkTrained s dir up) :=
  congrArg Host.Outcome.next (if_neg (by simp [hdir, hp, ht, hc]))

theorem runs_chainLinkTraining {dir : Nat} {up : List Nat} {s : State} (hdir : dir < 2) (hp : s.chip.pwrgd = true) (ht : s.chip.testMode = false) (hc : s.ch (·.chainPresent) false = true) :
    Runs (.chainLinkTraining dir up) s (fun t => OnlyIn [.chain] s t ∧
      (∀ l ∈ up, l < 3 → 3 * dir + l < s.chain.lanes.length → (chLane s (3 * dir + l)).state ≠ 3 → (chLane s (3 * dir + l)).reserve = false → (chLane t (3 * dir + l)).state = 2) ∧
      (5 ≤ s.chip.step → s.chip.chainHead = true → t.chain.address = some 0 ∧ t.chain.ctlQueue = s.chain.ctlQueue ++ [tokenMsg 1 0]) ∧
      (s.chip.chainHead = false → t.chain.address = s.chain.address ∧ t.chain.ctlQueue = s.chain.ctlQueue)) := by
  set u := linkTrained s dir up with hu
  have hframe : u.outside [.chain] = s.outside [.chain] := trained_frame ..
  have hchip : u.chip = s.chip := same_chip hframe (by decide)
  have hchain : u.chain = { s.chain with lanes := u.chain.lanes } := trained_chain ..
  refine ⟨_, exec_chainLinkTraining up hdir hp ht hc, ?_, fun l hl h3 hlen hst hres => ?_, fun h5 hhead => ?_, fun hhead => ?_⟩
  · rw [OnlyIn, ← hframe]
    split <;> simp [hu]
  · have hlanes : (if 5 ≤ u.chip.step then sendToken u else u).chain.lanes = u.chain.lanes := by
      split
      · exact sendToken_lanes u
      · rfl
    rw [chLane_of_chain hlanes, hu, linkTrained, chLane_trained _ hlen, if_pos (by simp [hl, h3])]
    simp [trainLane, hst, hres]
  · rw [← hu, if_pos (by rw [hchip]; exact h5), sendToken, if_pos (by rw [hchip]; exact hhead), hchain]
    exact ⟨rfl, rfl⟩
  · have hquiet : sendToken u = u := if_neg (by rw [hchip, hhead]; exact Bool.false_ne_true)
    have hidle : (if 5 ≤ u.chip.step then sendToken u else u) = u := by rw [hquiet, ite_self]
    rw [← hu, hidle, hchain]
    exact ⟨rfl, rfl⟩

/-! ### CHAIN_CALIBRATION (R403) -/

theorem mem_of_leastBy {f : Nat → Nat} {l : List Nat} {a : Nat} (h : leastBy f l = some a) : a ∈ l := by
  induction l generalizing a with
  | nil => simp [leastBy] at h
  | cons b l ih =>
    unfold leastBy at h
    split at h
    next c hc =>
      split at h <;> cases h
      · exact List.mem_cons_of_mem _ (ih hc)
      · exact List.mem_cons_self
    next => cases h; exact List.mem_cons_self

theorem active_of_calLane {s : State} {i : Nat} (h : calLane s = some i) : (chLane s i).state = 2 := by
  have hmem := mem_of_leastBy (Option.filter_eq_some_iff.1 h).1
  simpa using (List.mem_filter.1 hmem).2

/-- A lane's retrim has failed. -/
def calFailed (s : State) (i : Nat) : State := modChLane s i (fun c => { c with calFails := recent 24 s.now c.calFails ++ [s.now] })

theorem exec_chainCalibration {dir lane : Nat} (r : Retrim) {s : State} (hdir : dir < 2) (hlane : lane < 3) (hcal : calLane s = some (3 * dir + lane)) :
    exec (.chainCalibration dir lane r) s = .next (if retrimPlausible r then modChLane s (3 * dir + lane) (fun c => { c with lastTrim := s.now })
      else if 3 ≤ (chLane (calFailed s (3 * dir + lane)) (3 * dir + lane)).calFails.length then startSwap (calFailed s (3 * dir + lane)) dir lane 4 else calFailed s (3 * dir + lane)) :=
  congrArg Host.Outcome.next (if_pos (by simp [hdir, hlane, hcal]))

theorem runs_chainCalibration_plausible {dir lane : Nat} {r : Retrim} {s : State} (hdir : dir < 2) (hlane : lane < 3) (hcal : calLane s = some (3 * dir + lane)) (hgood : retrimPlausible r = true) :
    Runs (.chainCalibration dir lane r) s (fun t => (chLane t (3 * dir + lane)).lastTrim = s.now ∧ (chLane t (3 * dir + lane)).calFails = (chLane s (3 * dir + lane)).calFails ∧
      t.chain.ctlQueue = s.chain.ctlQueue ∧ OnlyIn [.chain] s t) := by
  refine ⟨_, by rw [exec_chainCalibration r hdir hlane hcal, if_pos hgood], ?_⟩
  beta_reduce
  rw [chLane_modChLane_same _ (lt_of_active (active_of_calLane hcal))]
  exact ⟨rfl, rfl, rfl, by simp [OnlyIn]⟩

theorem runs_chainCalibration_failed {dir lane : Nat} {r : Retrim} {s : State} (hdir : dir < 2) (hlane : lane < 3) (hcal : calLane s = some (3 * dir + lane)) (hbad : retrimPlausible r = false)
    (hnew : (chLane s (3 * dir + lane)).swapAt = none) :
    Runs (.chainCalibration dir lane r) s (fun t => (chLane t (3 * dir + lane)).calFails = (chLane s (3 * dir + lane)).calFails.filter (fun c => s.now < c + 2 ^ 24) ++ [s.now] ∧
      (chLane t (3 * dir + lane)).lastTrim = (chLane s (3 * dir + lane)).lastTrim ∧
      ((chLane t (3 * dir + lane)).swapAt ≠ none ↔ 3 ≤ (chLane t (3 * dir + lane)).calFails.length) ∧ OnlyIn [.chain] s t) := by
  have hst := active_of_calLane hcal
  have hlane' : chLane (calFailed s (3 * dir + lane)) (3 * dir + lane) =
      { chLane s (3 * dir + lane) with calFails := (chLane s (3 * dir + lane)).calFails.filter (fun c => s.now < c + 2 ^ 24) ++ [s.now] } := by
    rw [calFailed, chLane_modChLane_same _ (lt_of_active hst), recent]
  rw [Runs, exec_chainCalibration r hdir hlane hcal, if_neg (by simp [hbad])]
  refine ⟨_, rfl, ?_⟩
  by_cases hmany : 3 ≤ (chLane (calFailed s (3 * dir + lane)) (3 * dir + lane)).calFails.length
  · obtain ⟨hswap, -⟩ := startSwap_begins (s := calFailed s (3 * dir + lane)) (dir := dir) (l := lane) 4 (by rw [hlane']; exact hst) (by rw [hlane']; exact hnew)
    rw [if_pos hmany, hswap, hlane']
    exact ⟨rfl, rfl, by simpa [hlane'] using hmany, by simp [OnlyIn, calFailed]⟩
  · rw [if_neg hmany, hlane']
    exact ⟨rfl, rfl, by simpa [hlane', hnew] using hmany, by simp [OnlyIn, calFailed]⟩

/-- Settles O49: the lanes one by one through `modChLane`, and the swaps through `startSwap` and `swapIn`. -/
theorem chainLanes : Obligations.ChainLanes :=
  ⟨fun _ _ frame _ => exec_laneSwap frame, fun _ _ _ => runs_laneCheckLimit, fun _ _ _ => exec_laneCheckLimit_few, fun _ _ _ _ _ => runs_laneSwapFrame_reserve,
    fun _ _ _ _ _ => runs_laneSwapFrame_single, fun _ _ _ _ _ => runs_laneSwapFrame_out, fun _ _ _ => runs_chainLinkTraining, fun _ _ _ _ => runs_chainCalibration_plausible,
    fun _ _ _ _ => runs_chainCalibration_failed⟩

end Sys2Proof.Machine
end

section
namespace Sys2Proof.Machine

/-! ## Tallies, path alarms and the declared failure (O51) -/

/-! ### TALLY_RECEIPT and HB_SYMBOL_LOCK (R388, R389) -/

theorem exec_tallyReceipt_badHeartbeat {count state serial : Nat} {good : Bool} {s : State} (hp : isPair s = true) (hbad : good = false ∨ serial ≠ partnerSerial s) :
    exec (.tallyReceipt .heartbeat count state serial good) s = .next { s with pair := { s.pair with badHb := inc 0xFFFF s.pair.badHb } } := by
  have hskip : (decide (Path.heartbeat = Path.heartbeat) && (!good || decide (serial ≠ partnerSerial s))) = true := by simpa using hbad
  exact congrArg Host.Outcome.next ((if_neg (by simp [hp])).trans (if_pos hskip))

theorem exec_tallyReceipt_badChain {count state serial : Nat} {s : State} (hp : isPair s = true) : exec (.tallyReceipt .chain count state serial false) s = .next s := by
  simp [exec, execTallyReceipt, tally, hp]

/-- A unit that does not arbitrate has nothing to resume. -/
theorem resume'_of_mode {s : State} (h2 : s.pair.mode ≠ 2) (h3 : s.pair.mode ≠ 3) : resume' s = s := if_neg (by simp [h2, h3])

theorem exec_tallyReceipt_chain {count state serial : Nat} {s : State} (hp : isPair s = true) (hnew : s.pair.chain.last ≠ some count) (hmode : s.pair.mode = 0) (hst : state < 3) :
    exec (.tallyReceipt .chain count state serial true) s = .next { s with pair := { s.pair with
      chain := { s.pair.chain with last := some count, seen := true }, partnerState := state, partnerMissing := if state = 1 then s.pair.partnerMissing + 1 else 0 } } := by
  simp only [exec, execTallyReceipt, tally, hp, pathOf, modPath]
  rw [resume'_of_mode (by simp [hmode]) (by simp [hmode])]
  simp [hnew, hst.ne, (Nat.lt_succ_of_lt hst).ne]

theorem exec_tallyReceipt_heartbeat {count state : Nat} {s : State} (hp : isPair s = true) (hnew : s.pair.hb.last ≠ some count) (hmode : s.pair.mode = 0) (hst : state < 3) :
    exec (.tallyReceipt .heartbeat count state (partnerSerial s) true) s = .next { s with pair := { s.pair with
      hb := { s.pair.hb with last := some count, seen := true }, hbLast := s.now, partnerState := state, partnerMissing := if state = 1 then s.pair.partnerMissing + 1 else 0 } } := by
  simp only [exec, execTallyReceipt, tally, hp, pathOf, modPath, if_true, hnew]
  rw [resume'_of_mode (by simp [hmode]) (by simp [hmode])]
  simp [hst.ne, (Nat.lt_succ_of_lt hst).ne]

theorem exec_hbSymbolLock {locked : Bool} {s : State} (hp : s.chip.pwrgd = true) : exec (.hbSymbolLock locked) s = .next { s with pair := { s.pair with hbUp := locked } } :=
  congrArg Host.Outcome.next (if_pos hp)

/-! ### PATH_ALARM (R389) -/

theorem wakeUp_cause (s : State) (n : Nat) : (wakeUp s n).ints.cause = s.ints.cause := by
  unfold wakeUp
  split <;> rfl

theorem wakeUp_pair (s : State) (n : Nat) : (wakeUp s n).pair = s.pair := same_pair (ps := [.ints, .cfg]) (by simp) (by decide)

theorem wakeUp_drives (s : State) (n : Nat) : (wakeUp s n).drives = s.drives := same_drives (ps := [.ints, .cfg]) (by simp) (by decide)

/-- The daybook record, the pair cause and the wake of an alarm leave the pair; the cause is bit 2. -/
theorem alarmRaised (s : State) (cause arg : Nat) :
    (wakeUp (mgmtCause (fire s 0x12 cause arg [] true) 2) 0).pair = s.pair ∧
      (wakeUp (mgmtCause (fire s 0x12 cause arg [] true) 2) 0).ints.cause = s.ints.cause ||| BitVec.ofNat 10 (2 ^ 2) := by
  have hfire : (fire s 0x12 cause arg [] true).outside [.daybook] = s.outside [.daybook] := fire_outside _ _ _ _ _ _ (by decide)
  constructor
  · rw [wakeUp_pair, same_pair (ps := [.ints, .link, .hostMem]) (mgmtCause_outside _ _ (by decide) (by decide) (by decide)) (by decide), same_pair hfire (by decide)]
  · rw [wakeUp_cause, (mgmtCause_sourceBits _ 2).2.1, same_ints hfire (by decide)]

theorem runs_pathAlarm_chain {s : State} (hp : isPair s = true) (hmiss : 16 ≤ s.pair.chain.misses) (hother : s.pair.hb.misses < 16) (hnew : s.pair.chain.alarm = false) :
    Runs (.pathAlarm .chain) s (fun t => t.pair = { s.pair with chain := { s.pair.chain with alarm := true }, losses := inc 0xFFFF s.pair.losses, chainDownSince := some s.now } ∧
      t.ints.cause = s.ints.cause ||| BitVec.ofNat 10 (2 ^ 2)) := by
  refine ⟨_, congrArg Host.Outcome.next (if_neg ?_), alarmRaised _ _ _⟩
  simp [pathOf, hp, Nat.not_lt.2 hmiss, Nat.not_le.2 hother, hnew]

theorem runs_pathAlarm_heartbeat {s : State} (hp : isPair s = true) (hmiss : 16 ≤ s.pair.hb.misses) (hother : s.pair.chain.misses < 16) (hnew : s.pair.hb.alarm = false) :
    Runs (.pathAlarm .heartbeat) s (fun t => t.pair = { s.pair with hb := { s.pair.hb with alarm := true }, losses := inc 0xFFFF s.pair.losses } ∧
      t.ints.cause = s.ints.cause ||| BitVec.ofNat 10 (2 ^ 2)) := by
  refine ⟨_, congrArg Host.Outcome.next (if_neg ?_), alarmRaised _ _ _⟩
  simp [pathOf, hp, Nat.not_lt.2 hmiss, Nat.not_le.2 hother, hnew]

theorem exec_pathAlarm_few {s : State} (hfew : s.pair.chain.misses < 16) : exec (.pathAlarm .chain) s = .next s :=
  congrArg Host.Outcome.next (if_pos (by simp [pathOf, hfew]))

/-! ### PARTNER_FAILED (R389, R391) -/

theorem runs_partnerFailed {s : State} (hp : isPair s = true) (hstep : s.chip.step = 15) (hmode : s.pair.mode = 0) (hgone : partnerGone s = true)
    (hcurrent : s.pair.role = 1 ∧ s.ledger.mode = 1 ∨ s.pair.role = 2 ∧ s.pair.current = true) :
    Runs .partnerFailed s (fun t => t.pair.mode = 2 ∧ t.pair.role = s.pair.role ∧ t.pair.fenced = true ∧ t.pair.intakeHeld = true ∧ t.pair.declared = s.now ∧ t.pair.won = [] ∧ t.pair.lost = [] ∧
      t.pair.rounds = inc 0xFFFF s.pair.rounds) := by
  have hgo : declareFailed s = contend s := (if_neg (by simp [hp, hstep, hmode, hgone])).trans (if_pos (by simpa using hcurrent))
  refine ⟨contend s, congrArg Host.Outcome.next hgo, ?_⟩
  beta_reduce
  rw [contend_pair]
  exact ⟨rfl, rfl, rfl, rfl, abandonAudit_now s, rfl, rfl, congrArg (inc 0xFFFF) (abandonAudit_pair s).2⟩

theorem runs_partnerFailed_behind {s : State} (hrole : s.pair.role = 2) (hcurrent : s.pair.current = false) : Runs .partnerFailed s (fun t => t.pair = s.pair ∧ t.drives = s.drives) := by
  refine ⟨_, rfl, ?_⟩
  unfold declareFailed
  split
  · exact ⟨rfl, rfl⟩
  · rw [if_neg (by simp [hrole, hcurrent])]
    exact ⟨wakeUp_pair s 0, wakeUp_drives s 0⟩

/-! ### The takeover decision (R393, R394) -/

/-- What a decision to take over says of the pair. -/
def Pair.decided (p : Pair) : Option Nat × Nat × Nat × Nat × Nat × Bool := (p.decision, p.lastDecision, p.takeovers, p.role, p.partnerState, p.fenced)

theorem abandonAudit_frame (s : State) : (abandonAudit s).outside [.cmds, .returns, .pair, .free] = s.outside [.cmds, .returns, .pair, .free] := by simp

/-- The end of an audit changes the findings of the pair alone. -/
theorem abandonAudit_beside (s : State) : ∃ audits run lastAudit, (abandonAudit s).pair = { s.pair with audits, run, lastAudit } := by
  rw [abandonAudit_eq]
  split
  · exact ⟨_, _, _, rfl⟩
  · split
    · exact ⟨_, _, _, rfl⟩
    · dsimp only
      rw [same_pair (s := auditAbandoned s) (ps := [.cmds, .returns, .free]) (by simp) (by decide)]
      exact ⟨_, _, _, rfl⟩

/-- The forward stream stops, and commands are held. -/
def takeoverBegun (s : State) : State :=
  { s with
    pair := { s.pair with decision := some s.now, lastDecision := s.now, takeovers := s.pair.takeovers + 1, intakeHeld := true, fenced := true }
    chain := { s.chain with txQueue := [], outstanding := [] } }

/-- The unit writes the witness record that names it, unless a majority holds it. -/
def recordOwed (s : State) : State := if s.pair.record then s else startRecord s (allPositions s) false 2

theorem decide'_eq (s : State) : decide' s = setPair (recordOwed (takeoverBegun (abandonAudit s))) (recordOwed (takeoverBegun (abandonAudit s))).pair.role 6 false := rfl

theorem recordOwed_decided (s : State) : (recordOwed s).pair.decided = s.pair.decided := by
  unfold recordOwed
  split
  · rfl
  · rw [startRecord_pair]
    rfl

theorem decide'_decided (s : State) : (decide' s).pair.decided = (some s.now, s.now, s.pair.takeovers + 1, s.pair.role, s.pair.partnerState, true) := by
  obtain ⟨audits, run, last, hp⟩ := abandonAudit_beside s
  have hbegun : (takeoverBegun (abandonAudit s)).pair.decided = (some s.now, s.now, s.pair.takeovers + 1, s.pair.role, s.pair.partnerState, true) := by
    simp only [takeoverBegun, Pair.decided, abandonAudit_now, hp]
  rw [decide'_eq, setPair_pair, ← hbegun, ← recordOwed_decided]
  rfl

theorem decide'_mode (s : State) : (decide' s).pair.mode = 6 := by
  rw [decide'_eq, setPair_pair]
  rfl

theorem decide'_stream (s : State) : (decide' s).chain.txQueue = [] ∧ (decide' s).chain.outstanding = [] := by
  have hchain : (decide' s).chain = (takeoverBegun (abandonAudit s)).chain :=
    same_chain (ps := [.drives, .ints, .link, .pair, .daybook, .hostMem]) (by rw [decide'_eq]; unfold recordOwed; split <;> simp) (by decide)
  rw [hchain]
  exact ⟨rfl, rfl⟩

/-- The findings of a decision, one by one. -/
theorem of_decided {p : Pair} {decision : Option Nat} {last takeovers role partner : Nat} {fenced : Bool} (h : p.decided = (decision, last, takeovers, role, partner, fenced)) :
    p.decision = decision ∧ p.lastDecision = last ∧ p.takeovers = takeovers ∧ p.role = role ∧ p.partnerState = partner ∧ p.fenced = fenced := by simpa [Pair.decided] using h

theorem runs_takeoverDecision {s : State} (hp : isPair s = true) (hstep : s.chip.step = 15) (hrole : s.pair.role = 2) (hcurrent : s.pair.current = true) (hnone : s.pair.decision = none)
    (hwhy : hasWon s = true ∨ s.pair.partnerState = 3) :
    Runs .takeoverDecision s (fun t => t.pair.decision = some s.now ∧ t.pair.takeovers = s.pair.takeovers + 1 ∧ t.pair.mode = 6 ∧ t.pair.fenced = true ∧ t.chain.txQueue = []) := by
  obtain ⟨hdecision, -, htakeovers, -, -, hfenced⟩ := of_decided (decide'_decided s)
  exact ⟨decide' s, congrArg Host.Outcome.next (if_pos (by simpa [hp, hstep, hrole, hcurrent, hnone] using hwhy)), hdecision, htakeovers, decide'_mode s, hfenced, (decide'_stream s).1⟩

theorem exec_takeoverDecision_behind {s : State} (hcurrent : s.pair.current = false) : exec .takeoverDecision s = .next s := congrArg Host.Outcome.next (if_neg (by simp [hcurrent]))

/-! ### FAILED_TALLY (R389, R393) -/

theorem exec_failedTally (path : Path) (s : State) : exec (.failedTally path) s = .next (failedSeen s) := by cases path <;> rfl

/-- A Failed tally is seen. -/
def partnerReportsFailed (s : State) : State := wakeUp { s with pair := { s.pair with partnerState := 3 } } 0

theorem partnerReportsFailed_frame (s : State) : (partnerReportsFailed s).outside [.ints, .cfg, .pair] = s.outside [.ints, .cfg, .pair] := by simp [partnerReportsFailed]

theorem partnerReportsFailed_pair (s : State) : (partnerReportsFailed s).pair = { s.pair with partnerState := 3 } := wakeUp_pair _ _

theorem failedSeen_standby {s : State} (hp : isPair s = true) (hstep : s.chip.step = 15) (hrole : s.pair.role = 2) (hcurrent : s.pair.current = true) (hnone : s.pair.decision = none) :
    failedSeen s = decide' (partnerReportsFailed s) := by
  have hdecides : ((partnerReportsFailed s).pair.role = 2 && (partnerReportsFailed s).pair.current && (partnerReportsFailed s).pair.decision.isNone) = true := by
    simp [partnerReportsFailed_pair, hrole, hcurrent, hnone]
  exact (if_neg (by simp [hp, hstep])).trans (if_pos hdecides)

theorem runs_failedTally_standby {path : Path} {s : State} (hp : isPair s = true) (hstep : s.chip.step = 15) (hrole : s.pair.role = 2) (hcurrent : s.pair.current = true)
    (hnone : s.pair.decision = none) :
    Runs (.failedTally path) s (fun t => t.pair.decision = some s.now ∧ t.pair.lastDecision = s.now ∧ t.pair.takeovers = s.pair.takeovers + 1 ∧ t.pair.mode = 6 ∧ t.pair.role = 2 ∧
      t.pair.partnerState = 3 ∧ t.chain.txQueue = [] ∧ t.chain.outstanding = []) := by
  have hnow : (partnerReportsFailed s).now = s.now := now_of_frame (partnerReportsFailed_frame s) (by decide)
  obtain ⟨hdecision, hlast, htakeovers, hrole', hpartner, -⟩ := of_decided (decide'_decided (partnerReportsFailed s))
  rw [hnow] at hdecision hlast
  rw [partnerReportsFailed_pair] at htakeovers hrole' hpartner
  exact ⟨_, (exec_failedTally path s).trans (congrArg Host.Outcome.next (failedSeen_standby hp hstep hrole hcurrent hnone)), hdecision, hlast, htakeovers, decide'_mode _, hrole'.trans hrole, hpartner,
    decide'_stream _⟩

/-- The Active unit goes on alone from the next boundary, with the record that names it. -/
def goesOnAlone (s : State) : State :=
  let u := { abandonAudit s with pair := { (abandonAudit s).pair with winDue := true } }
  if u.pair.record && u.pair.recordFor = 1 then u else startRecord u (allPositions u) false 2

theorem goesOnAlone_pair (s : State) :
    (goesOnAlone s).pair.winDue = true ∧ (goesOnAlone s).pair.partnerState = s.pair.partnerState ∧ (goesOnAlone s).pair.role = s.pair.role ∧ (goesOnAlone s).pair.decision = s.pair.decision := by
  obtain ⟨audits, run, last, hp⟩ := abandonAudit_beside s
  unfold goesOnAlone
  dsimp only
  split
  · simp only [hp, and_self]
  · simp only [startRecord_pair, hp, and_self]

theorem failedSeen_active {s : State} (hp : isPair s = true) (hstep : s.chip.step = 15) (hrole : s.pair.role = 1) (hledger : s.ledger.mode = 1) (hdue : s.pair.winDue = false) :
    failedSeen s = goesOnAlone (partnerReportsFailed s) := by
  have hl : (partnerReportsFailed s).ledger = s.ledger := same_ledger (partnerReportsFailed_frame s) (by decide)
  have hnot : ¬ ((partnerReportsFailed s).pair.role = 2 && (partnerReportsFailed s).pair.current && (partnerReportsFailed s).pair.decision.isNone) = true := by
    simp [partnerReportsFailed_pair, hrole]
  have halone : ((partnerReportsFailed s).pair.role = 1 && ((partnerReportsFailed s).ledger.mode = 1 || (partnerReportsFailed s).pair.mode = 2 || (partnerReportsFailed s).pair.mode = 3) &&
      !(partnerReportsFailed s).pair.winDue) = true := by
    simp [partnerReportsFailed_pair, hl, hrole, hledger, hdue]
  exact (if_neg (by simp [hp, hstep])).trans ((if_neg hnot).trans (if_pos halone))

theorem runs_failedTally_active {path : Path} {s : State} (hp : isPair s = true) (hstep : s.chip.step = 15) (hrole : s.pair.role = 1) (hledger : s.ledger.mode = 1) (hdue : s.pair.winDue = false) :
    Runs (.failedTally path) s (fun t => t.pair.winDue = true ∧ t.pair.partnerState = 3 ∧ t.pair.role = 1 ∧ t.pair.decision = s.pair.decision) := by
  obtain ⟨hwin, hpartner, hrole', hdecision⟩ := goesOnAlone_pair (partnerReportsFailed s)
  rw [partnerReportsFailed_pair] at hpartner hrole' hdecision
  exact ⟨_, (exec_failedTally path s).trans (congrArg Host.Outcome.next (failedSeen_active hp hstep hrole hledger hdue)), hwin, hpartner, hrole'.trans hrole, hdecision⟩

/-! ### DETACH_DELAY_EXPIRY and DETACHED (R390) -/

theorem runs_detachDelayExpiry {s : State} {d : Nat} (hrole : s.pair.role = 1) (hledger : s.ledger.mode = 1) (hmode : s.pair.mode = 0) (hstep : s.pair.detachStep = 0) (hhb : s.pair.hb.misses < 16)
    (hchain : 16 ≤ s.pair.chain.misses) (hsince : s.pair.chainDownSince = some d) (hdue : d + s.ch (·.detachDelay) 65536 ≤ s.now) :
    Runs .detachDelayExpiry s (fun t => t.pair.detachStep = 1 ∧ t.pair.recordPending = some (ownRecord s false) ∧ t.pair.recordFor = 4 ∧ t.pair.witness = s.pair.witness) := by
  refine ⟨_, congrArg Host.Outcome.next (if_pos (by simp [hrole, hledger, hmode, hstep, hhb, hchain, hsince, hdue])), ?_⟩
  beta_reduce
  rw [startRecord_pair]
  exact ⟨rfl, rfl, rfl, rfl⟩

theorem exec_detachDelayExpiry_early {s : State} {d : Nat} (hsince : s.pair.chainDownSince = some d) (hearly : s.now < d + s.ch (·.detachDelay) 65536) : exec .detachDelayExpiry s = .next s :=
  congrArg Host.Outcome.next (if_neg (by simp [hsince, Nat.not_le.2 hearly]))

theorem exec_detached {s : State} (hp : isPair s = true) : exec .detached s = .next (detachedSeen s) := congrArg Host.Outcome.next (if_pos hp)

/-- Settles O51: the tallies by cases of `tally`, the failures by `contend_pair`, `decide'_decided` and `goesOnAlone_pair`. -/
theorem talliesAndFailure : Obligations.TalliesAndFailure :=
  ⟨fun _ _ _ _ _ => exec_tallyReceipt_badHeartbeat, fun _ _ _ _ => exec_tallyReceipt_badChain, fun _ _ _ _ => exec_tallyReceipt_chain, fun _ _ _ => exec_tallyReceipt_heartbeat,
    fun _ _ => exec_hbSymbolLock, fun _ => runs_pathAlarm_chain, fun _ => runs_pathAlarm_heartbeat, fun _ => exec_pathAlarm_few, fun _ => runs_partnerFailed,
    fun _ _ _ _ => runs_partnerFailed_behind, fun _ _ => runs_failedTally_standby, fun _ _ => runs_failedTally_active, fun _ => runs_takeoverDecision, fun _ => exec_takeoverDecision_behind,
    fun _ _ => runs_detachDelayExpiry, fun _ _ => exec_detachDelayExpiry_early, fun _ hp hrole => (exec_detached hp).trans (congrArg Host.Outcome.next (if_pos hrole)),
    fun _ hp hrole => (exec_detached hp).trans (congrArg Host.Outcome.next (if_neg hrole))⟩

end Sys2Proof.Machine
end

section
namespace Sys2Proof.Machine

/-! ## Arbitration (O52) -/

theorem registrySize_of_frame {ps : List Part} {s t : State} (h : t.outside ps = s.outside ps) (hp : .charter ∉ ps) : registrySize t = registrySize s := ch_of_frame _ _ h hp

theorem mostOf_of_frame {ps : List Part} {s t : State} (h : t.outside ps = s.outside ps) (hp : .charter ∉ ps) (ks : List Nat) : mostOf t ks = mostOf s ks := by
  rw [mostOf, registrySize_of_frame h hp, mostOf]

theorem mem_eraseDups_append {l : List Nat} {a p : Nat} : p ∈ (l ++ [a]).eraseDups ↔ p ∈ l ∨ p = a := by simp [List.mem_eraseDups]

theorem dropRegistryCmd_frame (s : State) (k : Nat) (op : MemberOp) : (dropRegistryCmd s k op).outside [.drives] = s.outside [.drives] := by simp

theorem dropRegistryCmd_pair (s : State) (k : Nat) (op : MemberOp) : (dropRegistryCmd s k op).pair = s.pair := same_pair (dropRegistryCmd_frame s k op) (by decide)

/-! ### PREEMPT_COMPLETION (R392) -/

/-- A PREEMPT has succeeded at a registry position. -/
def preemptWon (s : State) (pos : Nat) : State :=
  let d := dropRegistryCmd s pos .preempt
  { d with pair := { d.pair with won := (d.pair.won ++ [pos]).eraseDups } }

theorem preemptWon_frame (s : State) (pos : Nat) : (preemptWon s pos).outside [.drives, .pair] = s.outside [.drives, .pair] := by simp [preemptWon]

theorem preemptWon_pair (s : State) (pos : Nat) : (preemptWon s pos).pair = { s.pair with won := (s.pair.won ++ [pos]).eraseDups } := by
  simp only [preemptWon, dropRegistryCmd_pair]

theorem ownRecord_preemptWon (s : State) (pos : Nat) : ownRecord (preemptWon s pos) false = ownRecord s false := by
  have hframe := preemptWon_frame s pos
  simp only [ownRecord, now_of_frame hframe (by decide), same_fuses hframe (by decide), preemptWon_pair]

theorem exec_preemptCompletion_won {pos : Nat} {s : State} (hpos : pos < registrySize s) (hmode : s.pair.mode = 2 ∨ s.pair.mode = 3) :
    exec (.preemptCompletion pos true) s = .next (if mostOf s (s.pair.won ++ [pos]).eraseDups && !s.pair.record then
      match s.pair.recordPending with
      | none => startRecord (preemptWon s pos) (preemptWon s pos).pair.won false 1
      | some _ => toRegistry (preemptWon s pos) [pos] .witnessWrite
    else preemptWon s pos) := by
  have hgo : ¬ (decide (registrySize s ≤ pos) || (decide (s.pair.mode ≠ 2) && decide (s.pair.mode ≠ 3))) = true := by
    rcases hmode with h | h <;> simp [h, hpos]
  have hmost := mostOf_of_frame (preemptWon_frame s pos) (by decide) (s.pair.won ++ [pos]).eraseDups
  refine congrArg Host.Outcome.next ((if_neg hgo).trans ?_)
  rw [← hmost, ← dropRegistryCmd_pair s pos .preempt]
  rfl

theorem runs_preemptCompletion_won {pos : Nat} {s : State} (hpos : pos < registrySize s) (hmode : s.pair.mode = 2 ∨ s.pair.mode = 3) :
    Runs (.preemptCompletion pos true) s (fun t => (∀ p, p ∈ t.pair.won ↔ p ∈ s.pair.won ∨ p = pos) ∧ t.pair.lost = s.pair.lost ∧
      (mostOf s (s.pair.won ++ [pos]).eraseDups = true → s.pair.record = false → s.pair.recordPending = none → t.pair.recordPending = some (ownRecord s false) ∧ t.pair.recordFor = 1) ∧
      (mostOf s (s.pair.won ++ [pos]).eraseDups = false → t.pair.recordPending = s.pair.recordPending)) := by
  rw [Runs, exec_preemptCompletion_won hpos hmode]
  refine ⟨_, rfl, ?_⟩
  split
  next hmost =>
    obtain ⟨hmost, -⟩ := Bool.and_eq_true_iff.1 hmost
    cases hpending : s.pair.recordPending with
    | none =>
      simp only [startRecord_pair, preemptWon_pair, ownRecord_preemptWon]
      exact ⟨fun _ => mem_eraseDups_append, trivial, fun _ _ _ => ⟨trivial, trivial⟩, fun h => absurd hmost (Bool.eq_false_iff.1 h)⟩
    | some w =>
      simp only [toRegistry_pair, preemptWon_pair, hpending]
      exact ⟨fun _ => mem_eraseDups_append, trivial, fun _ _ h => absurd h (Option.some_ne_none w), fun _ => trivial⟩
  next hmost =>
    simp only [preemptWon_pair]
    exact ⟨fun _ => mem_eraseDups_append, trivial, fun h hr _ => absurd (Bool.and_eq_true_iff.2 ⟨h, by simp [hr]⟩) hmost, fun _ => trivial⟩

theorem runs_preemptCompletion_lost {pos : Nat} {s : State} (hpos : pos < registrySize s) (hmode : s.pair.mode = 2 ∨ s.pair.mode = 3) :
    Runs (.preemptCompletion pos false) s (fun t => (∀ p, p ∈ t.pair.lost ↔ p ∈ s.pair.lost ∨ p = pos) ∧ t.pair.won = s.pair.won ∧ t.pair.recordPending = s.pair.recordPending) := by
  have hgo : ¬ (decide (registrySize s ≤ pos) || (decide (s.pair.mode ≠ 2) && decide (s.pair.mode ≠ 3))) = true := by
    rcases hmode with h | h <;> simp [h, hpos]
  refine ⟨_, congrArg Host.Outcome.next (if_neg hgo), ?_⟩
  simp only [dropRegistryCmd_pair, Bool.false_and, Bool.false_eq_true, if_false]
  exact ⟨fun _ => mem_eraseDups_append, trivial, trivial⟩

/-! ### WITNESS_RECORD_WRITE (R386) -/

/-- A write of the witness record has completed at a registry position. -/
def recordAcknowledged (s : State) (pos : Nat) : State :=
  let d := dropRegistryCmd s pos .witnessWrite
  { d with pair := { d.pair with recordAt := (d.pair.recordAt ++ [pos]).eraseDups } }

theorem recordAcknowledged_pair (s : State) (pos : Nat) : (recordAcknowledged s pos).pair = { s.pair with recordAt := (s.pair.recordAt ++ [pos]).eraseDups } := by
  simp only [recordAcknowledged, dropRegistryCmd_pair]

theorem exec_witnessRecordWrite {pos : Nat} {w : Witness} {s : State} (hpos : pos < registrySize s) (hpending : s.pair.recordPending = some w) (hfor : s.pair.recordFor ≠ 1) :
    exec (.witnessRecordWrite pos) s = .next (if mostOf s (s.pair.recordAt ++ [pos]).eraseDups then recordHeld (recordAcknowledged s pos) w else recordAcknowledged s pos) := by
  have hframe : (recordAcknowledged s pos).outside [.drives, .pair] = s.outside [.drives, .pair] := by simp [recordAcknowledged]
  have hsize := registrySize_of_frame (dropRegistryCmd_frame s pos .witnessWrite) (by decide)
  rw [← dropRegistryCmd_pair s pos .witnessWrite] at hpending hfor ⊢
  refine congrArg Host.Outcome.next ?_
  simp only [hpending]
  rw [if_neg (by rw [hsize]; exact Nat.not_le.2 hpos), if_neg hfor, ← mostOf_of_frame hframe (by decide)]
  simp only [recordAcknowledged, hpending]

/-- A record in force names its epoch and owner, and moves the detach or the join that asked for it. -/
theorem recordHeld_pair (s : State) (w : Witness) :
    (recordHeld s w).pair.witness = some w ∧ (recordHeld s w).pair.record = true ∧ (recordHeld s w).pair.recordPending = none ∧
      (s.pair.recordFor = 4 → (recordHeld s w).pair.detachStep = 2 ∧ (recordHeld s w).pair.sendState = 4) ∧ (s.pair.recordFor = 5 → (recordHeld s w).pair.detachStep = 3) ∧
      (s.pair.recordFor = 6 → (recordHeld s w).pair.detachStep = 4) := by
  unfold recordHeld
  dsimp only
  split
  next h => simp [h]
  split
  next h => simp [h]
  split
  next h => simp [h]
  next h4 h5 h6 => simp [h4, h5, h6]

theorem runs_witnessRecordWrite_held {pos : Nat} {w : Witness} {s : State} (hpos : pos < registrySize s) (hpending : s.pair.recordPending = some w) (hfor : s.pair.recordFor ≠ 1)
    (hmost : mostOf s (s.pair.recordAt ++ [pos]).eraseDups = true) :
    Runs (.witnessRecordWrite pos) s (fun t => t.pair.witness = some w ∧ t.pair.record = true ∧ t.pair.recordPending = none ∧
      (s.pair.recordFor = 4 → t.pair.detachStep = 2 ∧ t.pair.sendState = 4) ∧ (s.pair.recordFor = 5 → t.pair.detachStep = 3) ∧ (s.pair.recordFor = 6 → t.pair.detachStep = 4)) := by
  have hheld := recordHeld_pair (recordAcknowledged s pos) w
  rw [recordAcknowledged_pair] at hheld
  exact ⟨_, (exec_witnessRecordWrite hpos hpending hfor).trans (congrArg Host.Outcome.next (if_pos hmost)), hheld⟩

theorem runs_witnessRecordWrite_open {pos : Nat} {w : Witness} {s : State} (hpos : pos < registrySize s) (hpending : s.pair.recordPending = some w) (hfor : s.pair.recordFor ≠ 1)
    (hmost : mostOf s (s.pair.recordAt ++ [pos]).eraseDups = false) :
    Runs (.witnessRecordWrite pos) s (fun t => t.pair.witness = s.pair.witness ∧ t.pair.recordPending = some w ∧ ∀ p, p ∈ t.pair.recordAt ↔ p ∈ s.pair.recordAt ∨ p = pos) := by
  refine ⟨_, (exec_witnessRecordWrite hpos hpending hfor).trans (congrArg Host.Outcome.next (if_neg (Bool.eq_false_iff.1 hmost))), ?_⟩
  beta_reduce
  rw [recordAcknowledged_pair]
  exact ⟨rfl, hpending, fun _ => mem_eraseDups_append⟩

/-! ### ARBITRATION_WIN and ARBITRATION_LOSS (R392, R393) -/

theorem exec_arbitrationWin_unwon {s : State} (hwon : hasWon s = false) : exec .arbitrationWin s = .next s := congrArg Host.Outcome.next (if_pos (by simp [hwon]))

theorem exec_arbitrationWin {s : State} (hwon : hasWon s = true) (hrole : s.pair.role ≠ 2) : exec .arbitrationWin s = .next { s with pair := { s.pair with winDue := true } } :=
  congrArg Host.Outcome.next ((if_neg (by simp [hwon])).trans (if_neg (by simp [hrole])))

theorem runs_arbitrationWin_standby {s : State} (hwon : hasWon s = true) (hstep : s.chip.step ≠ 8) (hrole : s.pair.role = 2) (hnone : s.pair.decision = none) :
    Runs .arbitrationWin s (fun t => t.pair.decision = some s.now ∧ t.pair.mode = 6) := by
  have hgo : winRow s = decide' s := (if_neg (by simp [hwon])).trans ((if_pos (by simp [hstep, hrole])).trans (if_neg (by simp [hnone])))
  obtain ⟨hdecision, -⟩ := of_decided (decide'_decided s)
  exact ⟨_, congrArg Host.Outcome.next hgo, hdecision, decide'_mode s⟩

/-- The condition under which ARBITRATION_LOSS acts. -/
structure MayLose (s : State) : Prop where
  mode : s.pair.mode = 2 ∨ s.pair.mode = 3
  unwon : hasWon s = false
  open' : s.pair.winDue = false

theorem MayLose.guard {s : State} (h : MayLose s) : ((s.pair.mode = 2 || s.pair.mode = 3) && !hasWon s && !s.pair.winDue) = true := by
  simpa [h.unwon, h.open'] using h.mode

theorem exec_arbitrationLoss_majority {s : State} (h : MayLose s) (hmost : mostOf s s.pair.lost = true) :
    exec .arbitrationLoss s = .next { s with pair := { s.pair with isolateDue := true, recordPending := none } } := by
  refine congrArg Host.Outcome.next ((if_pos h.guard).trans ?_)
  simp only [hmost, if_true]

theorem runs_arbitrationLoss_record {s : State} (h : MayLose s) (hmost : mostOf s s.pair.lost = false) :
    Runs .arbitrationLoss s (fun t => t.pair.isolateDue = true ∧ t.pair.recordPending = none ∧ ∃ w, t.pair.witness = some w ∧ w.owner = partnerSerial s) := by
  refine ⟨_, congrArg Host.Outcome.next (if_pos h.guard), ?_⟩
  have hfree : mostOf (takeFree s).1 (takeFree s).1.pair.lost = false := hmost
  simp only [hmost, Bool.false_eq_true, if_false, hfree]
  exact ⟨trivial, trivial, _, rfl, rfl⟩

/-! ### ARBITRATION_TIMEOUT, ARBITRATION_RETRY and TALLIES_RESUME (R392, R393) -/

theorem runs_arbitrationTimeout {s : State} (hmode : s.pair.mode = 2) (hwon : hasWon s = false) (hdue : s.pair.winDue = false) (hiso : s.pair.isolateDue = false)
    (hlate : s.pair.declared + 8192 ≤ s.now) :
    Runs .arbitrationTimeout s (fun t => t.pair = { s.pair with mode := 3, heldSince := s.now, sendState := 2, eventClose := s.now }) := by
  refine ⟨_, congrArg Host.Outcome.next (if_pos (by simp [hmode, hwon, hdue, hiso, hlate])), ?_⟩
  beta_reduce
  rw [setPair_pair, Pair.inRole, if_neg (by simp [hmode])]

theorem exec_arbitrationTimeout_early {s : State} (hearly : s.now < s.pair.declared + 8192) : exec .arbitrationTimeout s = .next s :=
  congrArg Host.Outcome.next (if_neg (by simp [Nat.not_le.2 hearly]))

theorem runs_arbitrationRetry {s : State} (hmode : s.pair.mode = 3) (hlate : s.pair.heldSince + 65536 ≤ s.now) :
    Runs .arbitrationRetry s (fun t => t.pair = { s.pair with heldSince := s.now, won := [], lost := [], record := false, recordPending := none, rounds := inc 0xFFFF s.pair.rounds } ∧
      OnlyIn [.drives, .pair] s t) :=
  ⟨_, congrArg Host.Outcome.next (if_pos (by simp [hmode, hlate])), toRegistry_pair _ _ _, by simp [OnlyIn]⟩

theorem exec_arbitrationRetry_early {s : State} (hearly : s.now < s.pair.heldSince + 65536) : exec .arbitrationRetry s = .next s :=
  congrArg Host.Outcome.next (if_neg (by simp [Nat.not_le.2 hearly]))

theorem exec_talliesResume {s : State} (hmode : s.pair.mode = 2 ∨ s.pair.mode = 3) (hdue : s.pair.winDue = false) (hiso : s.pair.isolateDue = false) (hnone : s.pair.decision = none)
    (hwon : hasWon s = false) (hseen : s.pair.chain.seen = true ∨ s.pair.hb.seen = true) :
    exec .talliesResume s = .next { s with pair := { s.pair with resumeDue := true } } :=
  congrArg Host.Outcome.next (if_pos (by simp [hmode, hdue, hiso, hnone, hwon, hseen]))

theorem exec_talliesResume_idle {s : State} (h2 : s.pair.mode ≠ 2) (h3 : s.pair.mode ≠ 3) : exec .talliesResume s = .next s := congrArg Host.Outcome.next (resume'_of_mode h2 h3)

/-- Settles O52: the counts of PREEMPTs and acknowledgements by what `startRecord` and `recordHeld` leave of the pair, the ends of a round one by one. -/
theorem arbitrationRounds : Obligations.ArbitrationRounds :=
  ⟨fun _ _ => runs_preemptCompletion_won, fun _ _ => runs_preemptCompletion_lost, fun _ _ _ => runs_witnessRecordWrite_held, fun _ _ _ => runs_witnessRecordWrite_open,
    fun _ => exec_arbitrationWin, fun _ => runs_arbitrationWin_standby, fun _ => exec_arbitrationWin_unwon,
    fun _ hmode hwon hdue => exec_arbitrationLoss_majority ⟨hmode, hwon, hdue⟩, fun _ hmode hwon hdue => runs_arbitrationLoss_record ⟨hmode, hwon, hdue⟩,
    fun _ => runs_arbitrationTimeout, fun _ => exec_arbitrationTimeout_early, fun _ => runs_arbitrationRetry, fun _ => exec_arbitrationRetry_early, fun _ => exec_talliesResume,
    fun _ => exec_talliesResume_idle⟩

end Sys2Proof.Machine
end

section
namespace Sys2Proof.Machine

/-! ## The management complex, operating time and the sensors (O54) -/

/-! ### WATCHDOG_EXPIRY (R406, R407) -/

theorem mgmt_of_frame {ps : List Part} {s t : State} (h : t.outside ps = s.outside ps) (hp : .mgmt ∉ ps) : t.mgmt = s.mgmt := same_mgmt h hp

theorem fire_frame (s : State) (kind cause arg : Nat) (detail : List Byte) (alert : Bool) : (fire s kind cause arg detail alert).outside [.daybook] = s.outside [.daybook] :=
  fire_outside _ _ _ _ _ _ (by decide)

theorem fire_mgmt (s : State) (kind cause arg : Nat) (detail : List Byte) (alert : Bool) : (fire s kind cause arg detail alert).mgmt = s.mgmt := same_mgmt (fire_frame ..) (by decide)

theorem fire_ints (s : State) (kind cause arg : Nat) (detail : List Byte) (alert : Bool) : (fire s kind cause arg detail alert).ints = s.ints := same_ints (fire_frame ..) (by decide)

theorem setMgmt_mgmt {s : State} {st : Nat} (h : s.mgmt.state ≠ st) : (setMgmt s st).mgmt = { s.mgmt with state := st, eventClose := s.now } := by
  rw [setMgmt, if_neg h]

theorem setMgmt_state (s : State) (st : Nat) : (setMgmt s st).mgmt.state = st := by
  unfold setMgmt
  split
  · assumption
  · rfl

/-- An expiry is counted among those of its window. -/
def watchdogCounted (s : State) : State := { s with mgmt := { s.mgmt with expiries := recent 24 s.now s.mgmt.expiries ++ [s.now] } }

/-- Both cores restart. -/
def coresRestart (s : State) : State :=
  mgmtCause { setMgmt (watchdogCounted s) 1 with mgmt := { (setMgmt (watchdogCounted s) 1).mgmt with restarts := inc 0xFFFF (setMgmt (watchdogCounted s) 1).mgmt.restarts } } 8

/-- The core that an expiry names. -/
def watchdogArg (core : Nat) : Nat := if core < 2 then core else 0xFF

theorem watchdog_eq {core : Nat} {passes : Bool} {s : State} (hp : powered s = true) (hrun : s.mgmt.state = 0) :
    watchdog s core passes = if 3 ≤ (watchdogCounted s).mgmt.expiries.length then fire (setMgmt (watchdogCounted s) 2) 0x18 3 (watchdogArg core) [] true
      else if passes then fire (coresRestart s) 0x18 1 (watchdogArg core) [] false
      else
        let c := failingCode (fire (coresRestart s) 0x18 1 (watchdogArg core) [] false)
        fire (setMgmt c.1 2) 0x18 2 (watchdogArg core) (natLe 1 c.2) true := by
  unfold watchdog
  rw [if_neg (by simp [hp, hrun])]
  rfl

theorem watchdogCounted_length (s : State) : (watchdogCounted s).mgmt.expiries.length = (s.mgmt.expiries.filter (fun c => s.now < c + 2 ^ 24)).length + 1 := by
  simp [watchdogCounted, recent]

theorem watchdog_chip (s : State) (core : Nat) (passes : Bool) : (watchdog s core passes).chip = s.chip := same_chip (ps := allBut [.chip]) (by simp [allBut]) (by decide)

theorem runs_watchdogExpiry_restart {core : Nat} {s : State} (hp : powered s = true) (hrun : s.mgmt.state = 0) (hfew : (s.mgmt.expiries.filter (fun c => s.now < c + 2 ^ 24)).length < 2) :
    Runs (.watchdogExpiry core true) s (fun t => t.mgmt.state = 1 ∧ t.mgmt.restarts = inc 0xFFFF s.mgmt.restarts ∧ t.mgmt.eventClose = s.now ∧
      t.mgmt.expiries = s.mgmt.expiries.filter (fun c => s.now < c + 2 ^ 24) ++ [s.now] ∧ t.ints.cause = s.ints.cause ||| BitVec.ofNat 10 (2 ^ 8) ∧ t.chip = s.chip) := by
  have hrow : watchdog s core true = fire (coresRestart s) 0x18 1 (watchdogArg core) [] false := by
    have hlt := watchdogCounted_length s
    rw [watchdog_eq hp hrun, if_neg (by omega), if_pos rfl]
  have hset := setMgmt_mgmt (s := watchdogCounted s) (st := 1) (show s.mgmt.state ≠ 1 by simp [hrun])
  have hmgmt : (coresRestart s).mgmt = { (watchdogCounted s).mgmt with state := 1, eventClose := s.now, restarts := inc 0xFFFF s.mgmt.restarts } := by
    rw [coresRestart, same_mgmt (mgmtCause_outside (ps := [.ints, .link, .hostMem]) _ _ (by decide) (by decide) (by decide)) (by decide), hset]
    rfl
  have hints : (coresRestart s).ints.cause = s.ints.cause ||| BitVec.ofNat 10 (2 ^ 8) := by
    obtain ⟨-, hcause, -⟩ := mgmtCause_sourceBits { setMgmt (watchdogCounted s) 1 with
      mgmt := { (setMgmt (watchdogCounted s) 1).mgmt with restarts := inc 0xFFFF (setMgmt (watchdogCounted s) 1).mgmt.restarts } } 8
    refine hcause.trans ?_
    rw [same_ints (s := watchdogCounted s) (ps := [.mgmt]) (by simp) (by decide)]
    rfl
  refine ⟨watchdog s core true, rfl, ?_⟩
  beta_reduce
  rw [watchdog_chip, hrow, fire_mgmt, fire_ints, hmgmt, hints]
  exact ⟨rfl, rfl, rfl, rfl, rfl, rfl⟩

theorem runs_watchdogExpiry_stop {core : Nat} {passes : Bool} {s : State} (hp : powered s = true) (hrun : s.mgmt.state = 0)
    (hwhy : passes = false ∨ 2 ≤ (s.mgmt.expiries.filter (fun c => s.now < c + 2 ^ 24)).length) :
    Runs (.watchdogExpiry core passes) s (fun t => t.mgmt.state = 2 ∧ t.chip = s.chip) := by
  refine ⟨watchdog s core passes, rfl, ?_, watchdog_chip ..⟩
  rw [watchdog_eq hp hrun]
  split
  · rw [fire_mgmt, setMgmt_state]
  next hfew =>
    have hlt := watchdogCounted_length s
    have hfail : passes = false := hwhy.resolve_right (by omega)
    rw [if_neg (by simp [hfail])]
    dsimp only
    rw [fire_mgmt, setMgmt_state]

theorem exec_watchdogExpiry_stopped {core : Nat} {passes : Bool} {s : State} (hrun : s.mgmt.state ≠ 0) : exec (.watchdogExpiry core passes) s = .next s :=
  congrArg Host.Outcome.next (if_pos (by simp [hrun]))

/-! ### FIRMWARE_RESTART_END (R405, R406) -/

theorem daybookStart_held (s : State) : (daybookStart s).daybook.held = s.daybook.held := by
  unfold daybookStart
  split
  · rfl
  · split <;> rfl

theorem enqueueTrigger_held (s : State) (r : DbRec) : (enqueueTrigger s r).daybook.held = s.daybook.held := by
  unfold enqueueTrigger
  dsimp only
  split
  · exact daybookStart_held _
  · rfl

theorem placeTrigger_held (s : State) (r : DbRec) : (placeTrigger s r).daybook.held = s.daybook.held := by
  unfold placeTrigger
  split
  · split <;> exact enqueueTrigger_held _ _
  · exact enqueueTrigger_held _ _

theorem fireNow_held (s : State) (kind cause arg : Nat) (detail extra : List Byte) (alert : Bool) : (fireNow s kind cause arg detail extra alert).daybook.held = s.daybook.held := by
  unfold fireNow
  dsimp only
  split
  · rfl
  · exact placeTrigger_held _ _

/-- Once Opfin runs, no trigger of the firmware waits (R405). -/
theorem fireHeld_held (s : State) : (fireHeld s).daybook.held = [] :=
  foldl_keeps (fun u => u.daybook.held) (s := { s with daybook := { s.daybook with held := [] } }) fun u g => fireNow_held u g.kind g.cause g.arg g.detail g.extra g.alert

theorem fireHeld_of_none {s : State} (h : s.daybook.held = []) : fireHeld s = s := by
  have hsame : { s.daybook with held := [] } = s.daybook := by rw [← h]
  rw [fireHeld, h, hsame]
  rfl

theorem exec_firmwareRestartEnd {s : State} (hp : powered s = true) (hst : s.mgmt.state = 1) :
    exec .firmwareRestartEnd s = .next (match (fireHeld (setMgmt s 0)).ledger.ckpt with
      | some c => cutCheckpoint (fireHeld (setMgmt s 0)) c.admission
      | none => fireHeld (setMgmt s 0)) :=
  congrArg Host.Outcome.next (if_pos (by simp [hp, hst]))

theorem exec_firmwareRestartEnd_quiet {s : State} (hp : powered s = true) (hst : s.mgmt.state = 1) (hckpt : s.ledger.ckpt = none) (hheld : s.daybook.held = []) :
    exec .firmwareRestartEnd s = .next { s with mgmt := { s.mgmt with state := 0, eventClose := s.now } } := by
  have hset : setMgmt s 0 = { s with mgmt := { s.mgmt with state := 0, eventClose := s.now } } := if_neg (by simp [hst])
  have hfired : fireHeld (setMgmt s 0) = setMgmt s 0 := fireHeld_of_none (by rw [hset]; exact hheld)
  have hnone : (setMgmt s 0).ledger.ckpt = none := by rw [hset]; exact hckpt
  rw [exec_firmwareRestartEnd hp hst, hfired, hnone, hset]

theorem runs_firmwareRestartEnd {s : State} (hp : powered s = true) (hst : s.mgmt.state = 1) :
    Runs .firmwareRestartEnd s (fun t => t.mgmt.state = 0 ∧ t.mgmt.eventClose = s.now ∧ t.daybook.held = []) := by
  have hmgmt : (fireHeld (setMgmt s 0)).mgmt = { s.mgmt with state := 0, eventClose := s.now } := by
    rw [same_mgmt (fireHeld_outside (ps := [.daybook]) _ (by decide)) (by decide), setMgmt_mgmt (by simp [hst])]
  rw [Runs, exec_firmwareRestartEnd hp hst]
  refine ⟨_, rfl, ?_⟩
  split
  · exact ⟨congrArg Mgmt.state hmgmt, congrArg Mgmt.eventClose hmgmt, fireHeld_held _⟩
  · exact ⟨congrArg Mgmt.state hmgmt, congrArg Mgmt.eventClose hmgmt, fireHeld_held _⟩

theorem exec_firmwareRestartEnd_other {s : State} (hst : s.mgmt.state ≠ 1) : exec .firmwareRestartEnd s = .next s := congrArg Host.Outcome.next (if_neg (by simp [hst]))

/-! ### OPERATING_TIME_TICK (R408) -/

theorem exec_operatingTimeTick {s : State} (hp : powered s = true) (h7 : 7 ≤ s.chip.step) (h14 : s.chip.step ≠ 14) (hdue : s.mgmt.opClose + 125 ≤ s.now) (hsmall : s.mgmt.opMs + 1 < 2 ^ 48) :
    exec .operatingTimeTick s = .next { s with mgmt := { s.mgmt with
      opMs := s.mgmt.opMs + 1, opClose := s.mgmt.opClose + 125, opStored := if s.mgmt.opStored + 1000 ≤ s.mgmt.opMs + 1 then s.mgmt.opMs + 1 else s.mgmt.opStored } } := by
  refine congrArg Host.Outcome.next ((if_pos (by simp [hp, h7, h14, hdue])).trans ?_)
  simp only [Nat.mod_eq_of_lt hsmall]

theorem exec_operatingTimeTick_early {s : State} (hearly : s.now < s.mgmt.opClose + 125) : exec .operatingTimeTick s = .next s :=
  congrArg Host.Outcome.next (if_neg (by simp [Nat.not_le.2 hearly]))

/-! ### SENSOR_SAMPLE (R411) -/

/-- What a level that is entered does leaves the sensors. -/
theorem levelEntered_sensors (s : State) (i old new : Nat) (throttled : Bool) : (levelEntered s i old new throttled).sensors = s.sensors :=
  same_sensors (ps := allBut [.sensors]) (by simp [allBut]) (by decide)

/-- A sample sets its sensor and leaves the peak. -/
theorem takeSample_sensors (s : State) (i aux : Nat) (v : Int) :
    (takeSample s i aux v).sensors.units = tset s.sensors.units i { sampleSensor s i v (sns s i) with aux } ∧ (takeSample s i aux v).sensors.peakMw = s.sensors.peakMw := by
  unfold takeSample
  dsimp only
  split
  · exact ⟨rfl, rfl⟩
  · rw [levelEntered_sensors]
    exact ⟨rfl, rfl⟩

theorem sns_takeSample_same (s : State) (i aux : Nat) (v : Int) : sns (takeSample s i aux v) i = { sampleSensor s i v (sns s i) with aux } := by
  rw [sns, (takeSample_sensors s i aux v).1, tget_tset_same]

theorem sns_takeSample_other (s : State) {i j : Nat} (aux : Nat) (v : Int) (h : j ≠ i) : sns (takeSample s i aux v) j = sns s j := by
  rw [sns, (takeSample_sensors s i aux v).1, tget_tset_other _ _ _ h.symm, sns]

/-- What a sample makes of a sensor depends on that sensor alone. -/
theorem sampleSensor_congr {s t : State} {i : Nat} (h : sns t i = sns s i) (v : Int) (x : Sensor) : sampleSensor t i v x = sampleSensor s i v x := by
  have hwarn : warnLimit t i = warnLimit s i := by rw [warnLimit, h, warnLimit]
  have hlimits : sensorLimits t i = sensorLimits s i := by rw [sensorLimits, hwarn, sensorLimits]
  simp only [sampleSensor, beyondLimit, insideLimit, hlimits]

/-- Sensors take a sample each, in turn: its number, its second value and its value are functions of the entry. -/
def samplesTaken {α : Type} (s : State) (l : List α) (num aux : α → Nat) (val : α → Int) : State := l.foldl (fun s e => takeSample s (num e) (aux e) (val e)) s

theorem sns_samplesTaken_other {α : Type} {num aux : α → Nat} {val : α → Int} {l : List α} {j : Nat} (h : ∀ e ∈ l, num e ≠ j) (s : State) :
    sns (samplesTaken s l num aux val) j = sns s j := by
  induction l generalizing s with
  | nil => rfl
  | cons e l ih =>
    obtain ⟨he, hl⟩ := List.forall_mem_cons.1 h
    exact (ih hl _).trans (sns_takeSample_other s _ _ he.symm)

theorem samplesTaken_peak {α : Type} (s : State) (num aux : α → Nat) (val : α → Int) (l : List α) : (samplesTaken s l num aux val).sensors.peakMw = s.sensors.peakMw :=
  foldl_keeps (fun u => u.sensors.peakMw) fun u e => (takeSample_sensors u (num e) (aux e) (val e)).2

theorem sns_samplesTaken_mem {l : List (Nat × Int)} (hd : (l.map Prod.fst).Nodup) {i : Nat} {x : Int} (h : (i, x) ∈ l) (s : State) :
    sns (samplesTaken s l (·.1) (fun _ => 0) (·.2)) i = { sampleSensor s i x (sns s i) with aux := 0 } := by
  induction l generalizing s with
  | nil => exact absurd h List.not_mem_nil
  | cons e l ih =>
    obtain ⟨hfresh, hd⟩ := List.nodup_cons.1 hd
    have hother : ∀ e' ∈ l, e'.1 ≠ e.1 := fun e' he' heq => hfresh (List.mem_map.2 ⟨e', he', heq⟩)
    rcases List.mem_cons.1 h with rfl | hl
    · exact (sns_samplesTaken_other (num := fun e : Nat × Int => e.1) hother _).trans (sns_takeSample_same ..)
    · have hkept : sns (takeSample s e.1 0 e.2) i = sns s i := sns_takeSample_other _ _ _ (hother _ hl)
      refine (ih hd hl _).trans ?_
      rw [hkept, sampleSensor_congr hkept]

/-- The dies, the ledger's dies, the rails and the input power take their samples. -/
def dieSampled (s : State) (v : Samples) : State := samplesTaken s ((List.range 16).zip v.die) (·.1) (fun _ => 0) (·.2)

def ledgerSampled (s : State) (v : Samples) : State := samplesTaken (dieSampled s v) ((List.range 2).zip v.ledger) (fun e => 16 + e.1) (fun _ => 0) (·.2)

def railSampled (s : State) (v : Samples) : State := samplesTaken (ledgerSampled s v) ((List.range 7).zip v.railMv) (fun e => 18 + e.1) (fun e => v.railMa.getD e.1 0) (fun e => (e.2 : Nat))

def allSampled (s : State) (v : Samples) : State := takeSample (railSampled s v) 25 0 v.powerMw

theorem sensorSample_eq {v : Samples} {s : State} (hp : powered s = true) :
    sensorSample s v = { allSampled s v with sensors := { (allSampled s v).sensors with peakMw := max (allSampled s v).sensors.peakMw v.powerMw } } := by
  unfold sensorSample
  rw [if_neg (by simp [hp])]
  rfl

theorem allSampled_peak (s : State) (v : Samples) : (allSampled s v).sensors.peakMw = s.sensors.peakMw := by
  rw [allSampled, (takeSample_sensors _ 25 0 v.powerMw).2, railSampled, samplesTaken_peak, ledgerSampled, samplesTaken_peak, dieSampled, samplesTaken_peak]

/-- A die sensor holds what its own sample makes of it. -/
theorem sns_sensorSample {v : Samples} {s : State} (hp : powered s = true) (hlen : v.die.length = 16) {i : Nat} {x : Int} (hx : v.die[i]? = some x) :
    sns (sensorSample s v) i = { sampleSensor s i x (sns s i) with aux := 0 } := by
  have hi : i < 16 := hlen ▸ (List.getElem?_eq_some_iff.1 hx).1
  have hmem : (i, x) ∈ (List.range 16).zip v.die := List.mem_of_getElem? (i := i) (by simp [List.getElem?_zip_eq_some, hi, hx])
  have hnodup : (((List.range 16).zip v.die).map Prod.fst).Nodup := by
    rw [List.map_fst_zip (by simp [hlen])]
    exact List.nodup_range
  rw [sensorSample_eq hp]
  refine (sns_takeSample_other _ 0 v.powerMw (by omega)).trans ?_
  rw [railSampled, sns_samplesTaken_other (fun e _ => by omega), ledgerSampled, sns_samplesTaken_other (fun e _ => by omega), dieSampled, sns_samplesTaken_mem hnodup hmem]

theorem sampleSensor_value (s : State) (i : Nat) (v : Int) (x : Sensor) : (sampleSensor s i v x).value = v := by
  unfold sampleSensor
  dsimp only
  split
  · rfl
  · split
    · rfl
    · split <;> rfl

/-- A die outside its measuring range is Faulty. -/
theorem sampleSensor_faulty {s : State} {i : Nat} {v : Int} {x : Sensor} (hi : i < 16) (hout : v < -320 ∨ 1200 < v) : (sampleSensor s i v x).level = 4 := by
  have hr : inRange i v = false := by
    rw [inRange, if_pos (Nat.lt_of_lt_of_le hi (by decide)), decide_eq_false_iff_not]
    omega
  rw [sampleSensor, if_pos (by simp [hr])]

/-- The fourth sample in a row beyond Warn, not beyond Critical, brings a Normal die to Warn. -/
theorem sampleSensor_warn {s : State} {i : Nat} {v : Int} {x : Sensor} (hi : i < 16) (hlevel : x.level = 0) (habove : x.above = [3, 0, 0]) (hlow : -320 ≤ v)
    (hwarn : 8 * (warnLimit s i : Int) < v) (hcrit : v ≤ 840) : (sampleSensor s i v x).level = 1 := by
  have hr : inRange i v = true := by
    rw [inRange, if_pos (Nat.lt_of_lt_of_le hi (by decide)), decide_eq_true_iff]
    omega
  have h18 : i < 18 := Nat.lt_of_lt_of_le hi (by decide)
  have hlimits : sensorLimits s i = [warnLimit s i, 105, 110] := if_pos hi
  have hb0 : beyondLimit s i 0 v = true := by simp [beyondLimit, hlimits, h18, hwarn]
  have hb1 : beyondLimit s i 1 v = false := by simp [beyondLimit, hlimits, h18, hcrit]
  have hb2 : beyondLimit s i 2 v = false := by simp [beyondLimit, hlimits, h18, show v ≤ 880 by omega]
  have hup : (List.range 3).map (fun k => if beyondLimit s i k v then hold 4 (x.above.getD k 0 + 1) else 0) = [4, 0, 0] := by
    simp [List.range_succ, hb0, hb1, hb2, habove, hold]
  unfold sampleSensor
  dsimp only
  rw [if_neg (by simp [hr]), if_neg (by simp [hlevel]), if_neg (by simp [hlevel])]
  simp only [hup, hlevel]
  rfl

theorem runs_sensorSample {v : Samples} {s : State} (hp : powered s = true) (hlen : v.die.length = 16) :
    Runs (.sensorSample v) s (fun t => t.sensors.peakMw = max s.sensors.peakMw v.powerMw ∧ ∀ i x, v.die[i]? = some x →
      (sns t i).value = x ∧ ((x < -320 ∨ 1200 < x) → (sns t i).level = 4) ∧
      ((sns s i).level = 0 → (sns s i).above = [3, 0, 0] → -320 ≤ x → 8 * (warnLimit s i : Int) < x → x ≤ 840 → (sns t i).level = 1)) := by
  refine ⟨sensorSample s v, rfl, ?_, fun i x hx => ?_⟩
  · rw [sensorSample_eq hp]
    exact congrArg (max · v.powerMw) (allSampled_peak s v)
  · have hi : i < 16 := hlen ▸ (List.getElem?_eq_some_iff.1 hx).1
    rw [sns_sensorSample hp hlen hx]
    exact ⟨sampleSensor_value .., sampleSensor_faulty hi, sampleSensor_warn hi⟩

/-- Settles O54: the management complex by `watchdog_eq` and `fireHeld_held`, a sample by what it makes of one sensor. -/
theorem managementRuns : Obligations.ManagementRuns :=
  ⟨⟨fun _ _ => runs_watchdogExpiry_restart, fun _ _ _ => runs_watchdogExpiry_stop, fun _ _ _ => exec_watchdogExpiry_stopped, fun _ => exec_firmwareRestartEnd_quiet,
      fun _ => runs_firmwareRestartEnd, fun _ => exec_firmwareRestartEnd_other⟩,
    ⟨fun _ => exec_operatingTimeTick, fun _ => exec_operatingTimeTick_early⟩, fun _ _ => runs_sensorSample⟩

end Sys2Proof.Machine
end

section
namespace Sys2Proof.Machine

/-! ## The daybook (O55) -/

/-! ### DAYBOOK_TRIGGER (R418, R422) -/

/-- A trigger of a kind is counted. -/
def triggerCounted (s : State) (kind : Nat) : State :=
  { s with daybook := { s.daybook with kinds := tmod {} s.daybook.kinds kind (fun k => { k with count := inc 0xFFFF k.count }) } }

/-- The record of a trigger without a key. -/
def triggerRec (s : State) (g : Trigger) : DbRec := dbRec (triggerCounted s g.kind) g.kind g.cause g.arg g.detail [] g.alert

theorem triggerCounted_count {s : State} {kind : Nat} (h : (tget {} s.daybook.kinds kind).count < 0xFFFF) :
    (tget {} (triggerCounted s kind).daybook.kinds kind).count = (tget {} s.daybook.kinds kind).count + 1 := by
  rw [triggerCounted, tget_tmod_same]
  exact min_eq_left h

theorem daybookStart_of_writing {s : State} {w : Nat × DbRec} (h : s.daybook.writing = some w) : daybookStart s = s := if_pos (by simp [h])

theorem daybookStart_of_empty {s : State} (h : s.daybook.queue = []) : daybookStart s = s := by
  unfold daybookStart
  split
  · rfl
  · rw [h]

theorem daybookStart_starts {s : State} {r : DbRec} {q : List DbRec} (hq : s.daybook.queue = r :: q) (hw : s.daybook.writing = none) (hloud : s.quiet = false) (h7 : 7 ≤ s.chip.step) (h14 : s.chip.step ≠ 14) :
    daybookStart s = { s with daybook := { s.daybook with writing := some (s.daybook.next, r), next := s.daybook.next + 1, queue := q } } := by
  rw [daybookStart, if_neg (by simp [hw, hloud, h14]; omega), hq]

/-- What starts the next record, or merges one, leaves the counts of the kinds. -/
theorem daybookStart_kinds (s : State) : (daybookStart s).daybook.kinds = s.daybook.kinds := by
  unfold daybookStart
  split
  · rfl
  · split <;> rfl

theorem daybookMerge_count (s : State) (r : DbRec) (k : Nat) : (tget {} (daybookMerge s r).daybook.kinds k).count = (tget {} s.daybook.kinds k).count := by
  have hmerge : (daybookMerge s r).daybook.kinds = tmod {} s.daybook.kinds r.kind (fun k => { k with merged := inc 0xFFFF k.merged }) := rfl
  rw [hmerge]
  rcases eq_or_ne r.kind k with rfl | hk
  · rw [tget_tmod_same]
  · rw [tget_tmod_other _ _ _ hk]

theorem enqueueTrigger_count (s : State) (r : DbRec) (k : Nat) : (tget {} (enqueueTrigger s r).daybook.kinds k).count = (tget {} s.daybook.kinds k).count := by
  unfold enqueueTrigger
  dsimp only
  split
  · rw [daybookStart_kinds]
  · exact daybookMerge_count _ _ _

theorem placeTrigger_count (s : State) (r : DbRec) (k : Nat) : (tget {} (placeTrigger s r).daybook.kinds k).count = (tget {} s.daybook.kinds k).count := by
  unfold placeTrigger
  split
  · split <;> exact enqueueTrigger_count _ _ _
  · exact enqueueTrigger_count _ _ _

theorem firesBefore_of_close {r e : DbRec} (h : e.close ≠ r.close) : firesBefore r e = false := by simp [firesBefore, h.symm]

/-- A trigger of a later cycle goes behind the queue. -/
theorem firingOrder_append {r : DbRec} {q : List DbRec} (h : ∀ e ∈ q, e.close ≠ r.close) : firingOrder r q = q ++ [r] := by
  induction q with
  | nil => rfl
  | cons e q ih =>
    obtain ⟨he, hq⟩ := List.forall_mem_cons.1 h
    rw [firingOrder, if_neg (by simp [firesBefore_of_close he]), ih hq, List.cons_append]

theorem placeTrigger_idle {s : State} (h : s.daybook.writing = none) (r : DbRec) : placeTrigger s r = enqueueTrigger s r := by rw [placeTrigger, h]

theorem placeTrigger_behind {s : State} {w : Nat × DbRec} {r : DbRec} (h : s.daybook.writing = some w) (hclose : w.2.close ≠ r.close) : placeTrigger s r = enqueueTrigger s r := by
  rw [placeTrigger, h]
  exact if_neg (by simp [firesBefore_of_close hclose])

theorem enqueueTrigger_room {s : State} {r : DbRec} {q : List DbRec} (hq : firingOrder r s.daybook.queue = q) (hlen : q.length ≤ 64) :
    enqueueTrigger s r = daybookStart { s with daybook := { s.daybook with queue := q } } := by
  rw [enqueueTrigger, hq, List.take_of_length_le hlen, List.drop_of_length_le hlen]

theorem enqueueTrigger_full {s : State} {r : DbRec} (hq : ∀ e ∈ s.daybook.queue, e.close ≠ r.close) (hlen : s.daybook.queue.length = 64) :
    enqueueTrigger s r = daybookMerge { s with daybook := { s.daybook with queue := s.daybook.queue } } r := by
  rw [enqueueTrigger, firingOrder_append hq, List.take_left' hlen, List.drop_left' hlen]

/-- With the queue empty and the writer idle, the record begins at once. -/
theorem placeTrigger_starts {s : State} (r : DbRec) (hq : s.daybook.queue = []) (hw : s.daybook.writing = none) (hloud : s.quiet = false) (h7 : 7 ≤ s.chip.step) (h14 : s.chip.step ≠ 14) :
    (placeTrigger s r).daybook.next = s.daybook.next + 1 ∧ (placeTrigger s r).daybook.queue = [] ∧ (placeTrigger s r).daybook.writing = some (s.daybook.next, r) := by
  have horder : firingOrder r s.daybook.queue = [r] := by rw [hq, firingOrder]
  rw [placeTrigger_idle hw, enqueueTrigger_room horder le_add_self, daybookStart_starts (s := { s with daybook := { s.daybook with queue := [r] } }) rfl hw hloud h7 h14]
  exact ⟨rfl, rfl, rfl⟩

/-- While a record of an earlier cycle is written, a trigger only enters the queue. -/
theorem placeTrigger_queues {s : State} {w : Nat × DbRec} {r : DbRec} {q : List DbRec} (hw : s.daybook.writing = some w) (hclose : w.2.close ≠ r.close) (hq : firingOrder r s.daybook.queue = q) (hlen : q.length ≤ 64) :
    placeTrigger s r = { s with daybook := { s.daybook with queue := q } } := by
  rw [placeTrigger_behind hw hclose, enqueueTrigger_room hq hlen]
  exact daybookStart_of_writing hw

theorem fire_eq {s : State} (g : Trigger) (hopfin : firmwareKind g.kind = false ∨ opfin s = true) :
    fire s g.kind g.cause g.arg g.detail g.alert = if (kindDef s g.kind).disable then triggerCounted s g.kind else placeTrigger (triggerCounted s g.kind) (triggerRec s g) :=
  if_neg (by rcases hopfin with h | h <;> simp [h])

theorem fire_disabled {s : State} {g : Trigger} (hopfin : firmwareKind g.kind = false ∨ opfin s = true) (hd : (kindDef s g.kind).disable = true) :
    fire s g.kind g.cause g.arg g.detail g.alert = triggerCounted s g.kind := (fire_eq g hopfin).trans (if_pos hd)

theorem fire_enabled {s : State} {g : Trigger} (hopfin : firmwareKind g.kind = false ∨ opfin s = true) (hd : (kindDef s g.kind).disable = false) :
    fire s g.kind g.cause g.arg g.detail g.alert = placeTrigger (triggerCounted s g.kind) (triggerRec s g) := (fire_eq g hopfin).trans (if_neg (by simp [hd]))

theorem fire_count {s : State} {g : Trigger} (hsmall : (tget {} s.daybook.kinds g.kind).count < 0xFFFF) (hopfin : firmwareKind g.kind = false ∨ opfin s = true) :
    (tget {} (fire s g.kind g.cause g.arg g.detail g.alert).daybook.kinds g.kind).count = (tget {} s.daybook.kinds g.kind).count + 1 := by
  rw [fire_eq g hopfin]
  split
  · exact triggerCounted_count hsmall
  · rw [placeTrigger_count, triggerCounted_count hsmall]

theorem exec_daybookTrigger {g : Trigger} {s : State} (hp : powered s = true) (hk : g.kind < 0x1E) :
    exec (.daybookTrigger g) s = .next (fire s g.kind g.cause g.arg g.detail g.alert) := congrArg Host.Outcome.next (if_pos (by simp [hp, hk]))

theorem exec_daybookTrigger_held {g : Trigger} {s : State} (hp : powered s = true) (hk : g.kind < 0x1E) (hfirm : firmwareKind g.kind = true) (hoff : opfin s = false) :
    exec (.daybookTrigger g) s = .next { s with daybook := { s.daybook with held := s.daybook.held ++ [⟨g.kind, g.cause, g.arg, g.detail, [], g.alert⟩] } } :=
  (exec_daybookTrigger hp hk).trans (congrArg Host.Outcome.next (if_pos (by simp [hfirm, hoff])))

theorem runs_daybookTrigger {g : Trigger} {s : State} (hp : powered s = true) (hk : g.kind < 0x1E) (hsmall : (tget {} s.daybook.kinds g.kind).count < 0xFFFF) (hopfin : firmwareKind g.kind = false ∨ opfin s = true) :
    Runs (.daybookTrigger g) s (fun t => (tget {} t.daybook.kinds g.kind).count = (tget {} s.daybook.kinds g.kind).count + 1 ∧ OnlyIn [.daybook] s t ∧
      ((kindDef s g.kind).disable = true → t.daybook.queue = s.daybook.queue ∧ t.daybook.next = s.daybook.next ∧ t.daybook.writing = s.daybook.writing) ∧
      ((kindDef s g.kind).disable = false → s.daybook.queue = [] → s.daybook.writing = none → s.quiet = false → 7 ≤ s.chip.step → s.chip.step ≠ 14 →
        t.daybook.next = s.daybook.next + 1 ∧ t.daybook.queue = [] ∧ ∃ r, t.daybook.writing = some (s.daybook.next, r) ∧ r.kind = g.kind ∧ r.cause = g.cause ∧ r.arg = g.arg ∧ r.close = s.now) ∧
      ((kindDef s g.kind).disable = false → (∃ w, s.daybook.writing = some w ∧ w.2.close ≠ s.now) → (∀ e ∈ s.daybook.queue, e.close ≠ s.now) → s.daybook.queue.length < 64 →
        t.daybook.writing = s.daybook.writing ∧ ∃ r, t.daybook.queue = s.daybook.queue ++ [r] ∧ r.kind = g.kind ∧ r.cause = g.cause) ∧
      (∀ e, (kindDef s g.kind).disable = false → (∃ w, s.daybook.writing = some w ∧ w.2.close ≠ s.now) → s.daybook.queue = [e] → e.close = s.now → e.cycle = s.clock.cycle → g.kind < e.kind →
        ∃ r, t.daybook.queue = [r, e] ∧ r.kind = g.kind ∧ r.cause = g.cause) ∧
      ((kindDef s g.kind).disable = false → (∃ w, s.daybook.writing = some w ∧ w.2.close ≠ s.now) → (∀ e ∈ s.daybook.queue, e.close ≠ s.now) → s.daybook.queue.length = 64 →
        t.daybook.queue = s.daybook.queue ∧ t.daybook.merged = inc 0xFFFF s.daybook.merged ∧ t.daybook.accum ≠ none)) := by
  refine ⟨_, exec_daybookTrigger hp hk, fire_count hsmall hopfin, fire_outside _ _ _ _ _ _ (by decide), fun hd => ?_, fun hd hq hw hloud h7 h14 => ?_, ?_, ?_, ?_⟩
  · rw [fire_disabled hopfin hd]
    exact ⟨rfl, rfl, rfl⟩
  · rw [fire_enabled hopfin hd]
    obtain ⟨hnext, hqueue, hwriting⟩ := placeTrigger_starts (s := triggerCounted s g.kind) (triggerRec s g) hq hw hloud h7 h14
    exact ⟨hnext, hqueue, triggerRec s g, hwriting, rfl, rfl, rfl, rfl⟩
  · rintro hd ⟨w, hw, hclose⟩ hq hlen
    have horder : firingOrder (triggerRec s g) (triggerCounted s g.kind).daybook.queue = s.daybook.queue ++ [triggerRec s g] := firingOrder_append hq
    rw [fire_enabled hopfin hd, placeTrigger_queues (s := triggerCounted s g.kind) hw hclose horder (by simpa using Nat.succ_le_of_lt hlen)]
    exact ⟨rfl, triggerRec s g, rfl, rfl, rfl⟩
  · rintro e hd ⟨w, hw, hclose⟩ hq heclose hecycle hkind
    have hbefore : firesBefore (triggerRec s g) e = true := by simp [firesBefore, triggerRec, dbRec, triggerCounted, heclose, hecycle, hkind]
    have horder : firingOrder (triggerRec s g) (triggerCounted s g.kind).daybook.queue = [triggerRec s g, e] := by
      have hqueue : (triggerCounted s g.kind).daybook.queue = [e] := hq
      rw [hqueue, firingOrder, if_pos hbefore]
    rw [fire_enabled hopfin hd, placeTrigger_queues (s := triggerCounted s g.kind) hw hclose horder (by simp)]
    exact ⟨triggerRec s g, rfl, rfl, rfl⟩
  · rintro hd ⟨w, hw, hclose⟩ hq hlen
    rw [fire_enabled hopfin hd, placeTrigger_behind (s := triggerCounted s g.kind) hw hclose, enqueueTrigger_full (s := triggerCounted s g.kind) (r := triggerRec s g) hq hlen]
    exact ⟨rfl, rfl, Option.some_ne_none _⟩

/-! ### DAYBOOK_RECORD_WRITE and COALESCE (R413, R422, R424) -/

theorem coalesce_of_none {s : State} (h : s.daybook.accum = none) : coalesce s = s := by rw [coalesce, h]

/-- A record that is stored leaves the queue, the writer and the accumulator. -/
theorem daybookStore_leaves (s : State) (seq : Nat) (r : DbRec) :
    (∀ e ∈ (daybookStore s seq r).daybook.ring, seq < e.1 + 131072) ∧ (daybookStore s seq r).daybook.writing = s.daybook.writing ∧ (daybookStore s seq r).daybook.queue = s.daybook.queue ∧
      (daybookStore s seq r).daybook.accum = s.daybook.accum ∧ (daybookStore s seq r).daybook.pending = if r.alert then inc 0xFFFF s.daybook.pending else s.daybook.pending := by
  have hring : ∀ e ∈ (tset s.daybook.ring seq (daybookBytes seq r)).filter (fun e => seq < e.1 + 131072), seq < e.1 + 131072 := fun e he => of_decide_eq_true (List.mem_filter.1 he).2
  unfold daybookStore
  dsimp only
  split
  · rw [mgmtCause_daybook]
    exact ⟨hring, rfl, rfl, rfl, rfl⟩
  · exact ⟨hring, rfl, rfl, rfl, rfl⟩

/-- With nothing queued or open, the record that is written is all that changes. -/
theorem exec_daybookRecordWrite {seq : Nat} {r : DbRec} {s : State} (hloud : s.quiet = false) (hw : s.daybook.writing = some (seq, r)) (hacc : s.daybook.accum = none) (hq : s.daybook.queue = []) :
    exec .daybookRecordWrite s = .next (daybookStore { s with daybook := { s.daybook with writing := none } } seq r) := by
  obtain ⟨-, -, hqueue, haccum, -⟩ := daybookStore_leaves { s with daybook := { s.daybook with writing := none } } seq r
  refine congrArg Host.Outcome.next ?_
  unfold recordWritten
  rw [if_neg (by simp [hloud]), hw]
  dsimp only
  rw [daybookStart_of_empty (hqueue.trans hq), coalesce_of_none (haccum.trans hacc)]

theorem runs_daybookRecordWrite {seq : Nat} {r : DbRec} {s : State} (hloud : s.quiet = false) (hw : s.daybook.writing = some (seq, r)) (hacc : s.daybook.accum = none) (hq : s.daybook.queue = []) :
    Runs .daybookRecordWrite s (fun t => (∃ e ∈ t.daybook.ring, e.1 = seq ∧ e.2 = daybookBytes seq r) ∧ (∀ e ∈ t.daybook.ring, seq < e.1 + 131072) ∧ t.daybook.writing = none ∧
      t.daybook.pending = (if r.alert then inc 0xFFFF s.daybook.pending else s.daybook.pending) ∧ t.daybook.next = s.daybook.next) := by
  obtain ⟨hmem, hnext⟩ := daybookStore_daybook { s with daybook := { s.daybook with writing := none } } seq r
  obtain ⟨hring, hwriting, -, -, hpending⟩ := daybookStore_leaves { s with daybook := { s.daybook with writing := none } } seq r
  exact ⟨_, exec_daybookRecordWrite hloud hw hacc hq, ⟨_, hmem, rfl, rfl⟩, hring, hwriting, hpending, hnext⟩

theorem exec_daybookRecordWrite_quiet {s : State} (h : s.quiet = true) : exec .daybookRecordWrite s = .next s := by
  refine congrArg Host.Outcome.next ?_
  rw [recordWritten, if_pos h]

/-- The record of an accumulator that is open. -/
def accumRec (s : State) (tab : Tbl Nat) (first last : Nat) (al : Bool) : DbRec :=
  { kind := 2, cause := 0, arg := 0, detail := natLe 8 first ++ natLe 8 last, alert := al, opMs := s.mgmt.opMs, powerCycle := s.mgmt.powerCycles, close := s.now, cycle := s.clock.cycle, words := [], extra := countBytes tab }

/-- The accumulator's record enters the queue's tail, and is counted. -/
def accumQueued (s : State) (r : DbRec) : State :=
  { s with daybook := { s.daybook with accum := none, queue := s.daybook.queue ++ [r], kinds := tmod {} s.daybook.kinds 2 (fun k => { k with count := inc 0xFFFF k.count }) } }

theorem coalesce_queues {tab : Tbl Nat} {first last : Nat} {al : Bool} {s : State} {w : Nat × DbRec} (hacc : s.daybook.accum = some (tab, first, last, al)) (hlen : s.daybook.queue.length < 64)
    (hw : s.daybook.writing = some w) : coalesce s = accumQueued s (accumRec s tab first last al) := by
  rw [coalesce, hacc]
  exact (if_neg (Nat.not_le.2 hlen)).trans (daybookStart_of_writing (s := accumQueued s (accumRec s tab first last al)) hw)

theorem runs_coalesce {tab : Tbl Nat} {first last : Nat} {al : Bool} {s : State} (hacc : s.daybook.accum = some (tab, first, last, al)) (hlen : s.daybook.queue.length < 64) (hw : s.daybook.writing ≠ none) :
    Runs .coalesce s (fun t => t.daybook.accum = none ∧ (∃ r, t.daybook.queue = s.daybook.queue ++ [r] ∧ r.kind = 2 ∧ r.alert = al ∧ r.detail = natLe 8 first ++ natLe 8 last) ∧ OnlyIn [.daybook] s t) := by
  obtain ⟨w, hw⟩ := Option.ne_none_iff_exists'.1 hw
  refine ⟨coalesce s, rfl, ?_⟩
  rw [coalesce_queues hacc hlen hw]
  exact ⟨rfl, ⟨accumRec s tab first last al, rfl, rfl, rfl, rfl⟩, by simp [OnlyIn, accumQueued]⟩

theorem exec_coalesce_waits {s : State} (h : s.daybook.accum = none ∨ 64 ≤ s.daybook.queue.length) : exec .coalesce s = .next s := by
  refine congrArg Host.Outcome.next ?_
  rcases h with h | h
  · exact coalesce_of_none h
  · unfold coalesce
    split
    · rfl
    · exact if_pos h

/-! ### ALERT_ACK, ALERT_RESPONSE and DBK_CURSOR_WRITE (R413, R416, R425) -/

theorem exec_alertAck {s : State} (hp : powered s = true) : exec .alertAck s = .next { s with daybook := { s.daybook with pending := 0 } } := congrArg Host.Outcome.next (if_pos hp)

theorem exec_alertResponse {s : State} (hp : powered s = true) : exec .alertResponse s = .next { s with smbRsp := if alertLow s then .data [byteOf s.chip.smbAddr] else .none } :=
  congrArg Host.Outcome.next (if_pos hp)

theorem exec_alertResponse_low {s : State} (hp : powered s = true) (h : s.daybook.pending ≠ 0 ∨ sensorAlarm s = true) : exec .alertResponse s = .next { s with smbRsp := .data [byteOf s.chip.smbAddr] } := by
  rw [exec_alertResponse hp, if_pos (by simpa [alertLow] using h)]

theorem exec_alertResponse_high {s : State} (hp : powered s = true) (hpend : s.daybook.pending = 0) (halarm : sensorAlarm s = false) : exec .alertResponse s = .next { s with smbRsp := .none } := by
  rw [exec_alertResponse hp, if_neg (by simp [alertLow, hpend, halarm])]

theorem exec_dbkCursorWrite {smbus : Bool} {v : BitVec 64} {s : State} (hp : powered s = true) : exec (.dbkCursorWrite smbus v) s = .next (setCursor s smbus v) := congrArg Host.Outcome.next (if_pos hp)

/-- Settles O55: a trigger by what `firingOrder` and `placeTrigger` make of the queue, a record by what `daybookStore` leaves. -/
theorem daybookKeepsRecords : Obligations.DaybookKeepsRecords :=
  ⟨fun _ _ hp hk => ⟨fun ⟨hfirm, hoff⟩ => exec_daybookTrigger_held hp hk hfirm hoff, runs_daybookTrigger hp hk⟩,
    ⟨fun _ _ _ => runs_daybookRecordWrite, fun _ => exec_daybookRecordWrite_quiet, fun _ _ _ _ _ => runs_coalesce, fun _ => exec_coalesce_waits⟩,
    fun _ => exec_alertAck, fun _ => exec_alertResponse_low, fun _ => exec_alertResponse_high, fun _ _ => exec_dbkCursorWrite, fun _ _ => exec_dbkCursorWrite⟩

end Sys2Proof.Machine
end

section
namespace Sys2Proof.Machine

/-! ## SMBus and MCTP (O56) -/

/-! ### Transactions (R414–R416) -/

theorem smbusReadAt_allowed {a : Nat} {s : State} (h : smbusReads (a / 8 * 8) = true) :
    smbusReadAt s a = (smbusDone (readClear s (a / 8 * 8) true true), natLe 8 (if a / 8 * 8 / 0x1_0000 = 0x0B then regDbk s s.smbus.cursor (a / 8 * 8) else regRead s (a / 8 * 8))) := if_pos h

theorem smbusReadAt_forbidden {a : Nat} {s : State} (h : smbusReads (a / 8 * 8) = false) : smbusReadAt s a = (smbusForbidden s, zeros 8) := if_neg (by simp [h])

theorem smbusWriteAt_forbidden {a : Nat} {s : State} (h : smbusWrites (a / 8 * 8) = false) (v : Nat) : smbusWriteAt s a v = smbusForbidden s := if_neg (by simp [h])

theorem halfMix_both {old v : Nat} (h : v < 2 ^ 64) : halfMix old v true true = v := by
  have hhi : v / 2 ^ 32 % 2 ^ 32 = v / 2 ^ 32 := Nat.mod_eq_of_lt (by omega)
  rw [halfMix, if_pos rfl, if_pos rfl, hhi, Nat.mod_add_div]

/-- A write of the cursor's register sets the SMBus cursor. -/
theorem smbusWriteAt_cursor (s : State) (v : BitVec 64) : smbusWriteAt s 0x0B_0030 v.toNat = smbusDone { s with smbus := { s.smbus with cursor := v } } := by
  have hvalue : BitVec.ofNat 64 (halfMix s.smbus.cursor.toNat v.toNat true true) = v := by rw [halfMix_both v.isLt, BitVec.ofNat_toNat, BitVec.setWidth_eq]
  have hwrite : smbusWriteAt s 0x0B_0030 v.toNat = smbusDone { s with smbus := { s.smbus with cursor := BitVec.ofNat 64 (halfMix s.smbus.cursor.toNat v.toNat true true) } } := rfl
  rw [hwrite, hvalue]

theorem readClear_gen_smbus {s : State} {a : Nat} (h : a / 0x1_0000 = 0) : (readClear s a true true).smbus = s.smbus := by
  rw [readClear, h]
  exact same_smbus (ps := [.closers, .returns, .link]) (clearGen_outside _ _ _ _ (by decide) (by decide) (by decide)) (by decide)

theorem exec_smbusSetAddress {a : Nat} {s : State} (hp : powered s = true) (ha : a < 2 ^ 32) :
    exec (.smbusSetAddress a) s = .next { s with smbus := { s.smbus with addr := a, result := 0, requests := inc 0xFFFF s.smbus.requests } } := by
  refine congrArg Host.Outcome.next ((if_pos hp).trans ?_)
  rw [Nat.mod_eq_of_lt ha]
  rfl

theorem exec_smbusRead {s : State} (hp : powered s = true) : exec .smbusRead s = .next { (smbusReadAt s s.smbus.addr).1 with smbRsp := .data (smbusReadAt s s.smbus.addr).2 } := congrArg Host.Outcome.next (if_pos hp)

theorem exec_smbusRead_forbidden {s : State} (hp : powered s = true) (h : smbusReads (s.smbus.addr / 8 * 8) = false) :
    exec .smbusRead s = .next { s with smbus := { s.smbus with result := 1, forbidden := inc 0xFFFF s.smbus.forbidden }, smbRsp := .data (zeros 8) } := by
  rw [exec_smbusRead hp, smbusReadAt_forbidden h]
  rfl

/-- A read of a GEN_ register, whose clearing leaves SMBus, gives the register. -/
theorem runs_smbusRead_gen {s : State} (hp : powered s = true) (h : s.smbus.addr / 0x1_0000 = 0x00) :
    Runs .smbusRead s (fun t => t.smbRsp = .data (natLe 8 (regRead s (s.smbus.addr / 8 * 8))) ∧ t.smbus.result = 0 ∧ t.smbus.requests = inc 0xFFFF s.smbus.requests) := by
  have hblock : s.smbus.addr / 8 * 8 / 0x1_0000 = 0 := by omega
  have hreads : smbusReads (s.smbus.addr / 8 * 8) = true := by rw [smbusReads, hblock]; rfl
  refine ⟨_, exec_smbusRead hp, ?_⟩
  rw [smbusReadAt_allowed hreads, if_neg (by omega)]
  exact ⟨rfl, rfl, congrArg (fun b : Smbus => inc 0xFFFF b.requests) (readClear_gen_smbus hblock)⟩

theorem exec_smbusWrite {v : BitVec 64} {s : State} (hp : powered s = true) : exec (.smbusWrite v) s = .next (smbusWriteAt s s.smbus.addr v.toNat) := congrArg Host.Outcome.next (if_pos hp)

theorem exec_smbusWrite_forbidden {v : BitVec 64} {s : State} (hp : powered s = true) (h : smbusWrites (s.smbus.addr / 8 * 8) = false) :
    exec (.smbusWrite v) s = .next { s with smbus := { s.smbus with result := 1, forbidden := inc 0xFFFF s.smbus.forbidden } } := by
  rw [exec_smbusWrite hp, smbusWriteAt_forbidden h]
  rfl

theorem exec_smbusWrite_cursor {v : BitVec 64} {s : State} (hp : powered s = true) (h : s.smbus.addr = 0x0B_0030) :
    exec (.smbusWrite v) s = .next { s with smbus := { s.smbus with cursor := v, result := 0, requests := inc 0xFFFF s.smbus.requests } } := by
  rw [exec_smbusWrite hp, h, smbusWriteAt_cursor]
  rfl

theorem exec_smbusResult {s : State} (hp : powered s = true) :
    exec .smbusResult s = .next { s with smbus := { s.smbus with requests := inc 0xFFFF s.smbus.requests }, smbRsp := .data [byteOf s.smbus.result] } := congrArg Host.Outcome.next (if_pos hp)

theorem exec_smbusPecError {s : State} (hp : powered s = true) : exec .smbusPecError s = .next { s with smbus := { s.smbus with pec := inc 0xFFFF s.smbus.pec } } := congrArg Host.Outcome.next (if_pos hp)

/-! ### MCTP (R417) -/

theorem exec_mctpControlMessage {m : MctpControl} {s : State} (hp : powered s = true) : exec (.mctpControlMessage m) s = .next (mctpControl s m) := congrArg Host.Outcome.next (if_pos hp)

theorem exec_mctpControlMessage_setEid {eid : Nat} {s : State} (hp : powered s = true) (hlo : 1 ≤ eid) (hhi : eid < 255) :
    exec (.mctpControlMessage (.setEid eid)) s = .next { s with smbus := { s.smbus with eid }, smbRsp := .data [0, 0, byteOf eid, 0] } :=
  (exec_mctpControlMessage hp).trans (congrArg Host.Outcome.next (if_neg (by simp; omega)))

theorem exec_mctpControlMessage_badEid {eid : Nat} {s : State} (hp : powered s = true) (h : eid = 0 ∨ 255 ≤ eid) : exec (.mctpControlMessage (.setEid eid)) s = .next { s with smbRsp := .data [2] } :=
  (exec_mctpControlMessage hp).trans (congrArg Host.Outcome.next (if_pos (by simpa using h)))

theorem exec_mctpVendorRead {a : Nat} {s : State} (hp : powered s = true) :
    exec (.mctpVendorRead a) s = .next { (smbusReadAt s a).1 with smbRsp := .data (byteOf (smbusReadAt s a).1.smbus.result :: (smbusReadAt s a).2) } := congrArg Host.Outcome.next (if_pos hp)

theorem runs_mctpVendorRead {a : Nat} {s : State} (hp : powered s = true) (h : smbusReads (a / 8 * 8) = true) :
    Runs (.mctpVendorRead a) s (fun t => t.smbRsp = .data (0 :: (smbusReadAt s a).2) ∧ t.smbus.result = 0) := by
  have hresult : (smbusReadAt s a).1.smbus.result = 0 := by rw [smbusReadAt_allowed h]; rfl
  refine ⟨_, exec_mctpVendorRead hp, ?_, hresult⟩
  rw [hresult]
  rfl

theorem runs_mctpVendorRead_forbidden {a : Nat} {s : State} (hp : powered s = true) (h : smbusReads (a / 8 * 8) = false) :
    Runs (.mctpVendorRead a) s (fun t => t.smbRsp = .data (1 :: zeros 8) ∧ OnlyIn [.smbus, .smbRsp] s t) := by
  refine ⟨_, exec_mctpVendorRead hp, ?_⟩
  rw [smbusReadAt_forbidden h]
  exact ⟨rfl, by simp [OnlyIn, smbusForbidden]⟩

theorem exec_mctpVendorWrite {a : Nat} {v : BitVec 64} {s : State} (hp : powered s = true) :
    exec (.mctpVendorWrite a v) s = .next { smbusWriteAt s a v.toNat with smbRsp := .data [byteOf (smbusWriteAt s a v.toNat).smbus.result] } := congrArg Host.Outcome.next (if_pos hp)

theorem exec_mctpVendorWrite_forbidden {a : Nat} {v : BitVec 64} {s : State} (hp : powered s = true) (h : smbusWrites (a / 8 * 8) = false) :
    exec (.mctpVendorWrite a v) s = .next { s with smbus := { s.smbus with result := 1, forbidden := inc 0xFFFF s.smbus.forbidden }, smbRsp := .data [1] } := by
  rw [exec_mctpVendorWrite hp, smbusWriteAt_forbidden h]
  rfl

theorem exec_mctpVendorWrite_cursor {v : BitVec 64} {s : State} (hp : powered s = true) :
    exec (.mctpVendorWrite 0x0B_0030 v) s = .next { s with smbus := { s.smbus with cursor := v, result := 0, requests := inc 0xFFFF s.smbus.requests }, smbRsp := .data [0] } := by
  rw [exec_mctpVendorWrite hp, smbusWriteAt_cursor]
  rfl

/-- Settles O56: a transaction by `smbusReadAt` and `smbusWriteAt`, on either port. -/
theorem managementPorts : Obligations.ManagementPorts :=
  ⟨⟨fun _ _ => exec_smbusSetAddress, fun _ => exec_smbusRead_forbidden, fun _ => runs_smbusRead_gen, fun _ _ => exec_smbusWrite_forbidden, fun _ _ => exec_smbusWrite_cursor, fun _ => exec_smbusResult,
      fun _ => exec_smbusPecError⟩,
    fun _ _ => exec_mctpControlMessage_setEid, fun _ _ => exec_mctpControlMessage_badEid, fun _ => exec_mctpControlMessage, fun _ _ => runs_mctpVendorRead, fun _ _ => runs_mctpVendorRead_forbidden,
    fun _ _ _ => exec_mctpVendorWrite_forbidden, fun _ _ => exec_mctpVendorWrite_cursor⟩

end Sys2Proof.Machine
end

section
namespace Sys2Proof.Machine

/-! ## The courier: channels and slots (O58, O59) -/

/-! ### One channel changes -/

theorem modAt_congr {α : Type} {f g : α → α} (d : α) {k : Nat} {l : List α} (h : f ((l.drop k).headD d) = g ((l.drop k).headD d)) : modAt f k l = modAt g k l := by
  induction l generalizing k with
  | nil => rw [modAt, modAt]
  | cons a l ih =>
    cases k with
    | zero => exact congrArg (· :: l) h
    | succ k => exact congrArg (a :: ·) (ih h)

theorem modAt_same {α : Type} {f : α → α} (d : α) {k : Nat} {l : List α} (h : f ((l.drop k).headD d) = (l.drop k).headD d) : modAt f k l = l := by
  refine (modAt_congr (g := id) d h).trans (List.ext_getElem? fun i => ?_)
  rw [modAt_getElem?, Option.map_id, id, ite_self]

theorem modChan_congr {s : State} {n : Nat} {f g : Channel → Channel} (h : f (chan s n) = g (chan s n)) : modChan s n f = modChan s n g := by
  rw [modChan, modChan, modAt_congr (g := g) {} h]

theorem modChan_same {s : State} {n : Nat} {f : Channel → Channel} (h : f (chan s n) = chan s n) : modChan s n f = s := by
  rw [modChan, modAt_same {} h]

theorem chan_modChan_other (s : State) {n m : Nat} (f : Channel → Channel) (h : m ≠ n) : chan (modChan s n f) m = chan s m := modAt_drop_headD_other f {} s.courier.channels h.symm

theorem modChan_channels_length (s : State) (n : Nat) (f : Channel → Channel) : (modChan s n f).courier.channels.length = s.courier.channels.length := modAt_length ..

/-- A channel of the default state is none that runs: one that does is there. -/
theorem chan_lt {s : State} {n : Nat} (h : (chan s n).state ≠ 0) : n < s.courier.channels.length := by
  by_contra hn
  have hnone : chan s n = {} := by rw [chan, List.drop_of_length_le (Nat.le_of_not_lt hn)]; rfl
  exact h (by rw [hnone])

theorem chan_running_lt {s : State} {n : Nat} (h : (chan s n).state = 1 ∨ (chan s n).state = 3) : n < s.courier.channels.length := chan_lt (by omega)

theorem slot_valid_lt {c : Channel} {k : Nat} (h : (slotAt c k).valid = true) : k < c.slots.length := by
  by_contra hk
  have hnone : slotAt c k = {} := by rw [slotAt, List.drop_of_length_le (Nat.le_of_not_lt hk)]; rfl
  rw [hnone] at h
  exact absurd h (by decide)

/-- Two changes of one channel are one. -/
theorem modChan_modChan (s : State) (n : Nat) (f g : Channel → Channel) : modChan (modChan s n f) n g = modChan s n (g ∘ f) := by
  have hlist : modAt g n (modAt f n s.courier.channels) = modAt (g ∘ f) n s.courier.channels := by
    refine List.ext_getElem? fun i => ?_
    rw [modAt_getElem?, modAt_getElem?, modAt_getElem?]
    split
    · rw [Option.map_map]
    · rfl
  have hstate : modChan (modChan s n f) n g = { s with courier := { s.courier with channels := modAt g n (modAt f n s.courier.channels) } } := rfl
  rw [hstate, hlist, modChan]

theorem onlyIn_modChan (s : State) (n : Nat) (f : Channel → Channel) : OnlyIn [.courier] s (modChan s n f) := by simp [OnlyIn]

/-- What a command that changes one channel leaves: the channel as changed, and the rest. -/
theorem modChan_spec {s : State} {n : Nat} (f : Channel → Channel) (hn : n < s.courier.channels.length) :
    chan (modChan s n f) n = f (chan s n) ∧ (∀ m, m ≠ n → chan (modChan s n f) m = chan s m) ∧ OnlyIn [.courier] s (modChan s n f) :=
  ⟨chan_modChan_same f hn, fun _ => chan_modChan_other s f, onlyIn_modChan s n f⟩

/-! ### A slot is fetched (R430) -/

/-- A channel that runs a slot from its first byte. -/
def slotFetched (k : Nat) (x : Slot) (c : Channel) : Channel :=
  { c with slot := k, state := 1, fetched := x, genAtFetch := c.gen, moved := 0, crcRun := 0xFFFFFFFF, hostRead := none, fetchedData := [] }

/-- A channel whose slot is bad at the fetch. -/
def slotRefused (code k : Nat) (c : Channel) : Channel := { c with slots := modAt (closeSlot (some code)) k c.slots, state := 0, pulses := c.pulses + 1 }

theorem fetchFault_modChan (s : State) (n m : Nat) (f : Channel → Channel) (x : Slot) : fetchFault (modChan s n f) m x = fetchFault s m x := rfl

theorem fetchSlot_runs {s : State} {n k : Nat} {x : Slot} (fuel : Nat) (hx : slotAt (chan s n) k = x) (hok : fetchFault s n x = none) : fetchSlot (fuel + 1) s n k = modChan s n (slotFetched k x) := by
  have hfault : fetchFault (modChan s n (slotFetched k x)) n x = none := hok
  subst hx
  rw [fetchSlot]
  split
  · rfl
  next hbad => exact absurd (hbad.symm.trans hfault) (by simp)
  next hbad => exact absurd (hbad.symm.trans hfault) (by simp)

theorem fetchSlot_refused {s : State} {n k code : Nat} {x : Slot} (fuel : Nat) (hx : slotAt (chan s n) k = x) (hbad : fetchFault s n x = some (code, true)) :
    fetchSlot (fuel + 1) s n k = modChan (countBad (modChan s n (slotFetched k x)) code) n (slotRefused code k) := by
  have hfault : fetchFault (modChan s n (slotFetched k x)) n x = some (code, true) := hbad
  subst hx
  rw [fetchSlot]
  split
  next hok => exact absurd (hok.symm.trans hfault) (by simp)
  next code' hsome =>
    cases hsome.symm.trans hfault
    rfl
  next hsome => exact absurd (hsome.symm.trans hfault) (by simp)

theorem fetchFault_badSlot {s : State} {n : Nat} {x : Slot} (h : x.last = x.more ∨ x.count = 0) : fetchFault s n x = some (6, true) := if_pos (by simpa using h)

/-! ### COURIER_START (R431) -/

def missedCleared (c : Channel) : Channel := { c with missed := false }

theorem courierStart_eq {s : State} {n : Nat} (h : (chan s n).state = 0) :
    courierStart s n = if (slotAt (chan s n) (chan s n).next).valid then fetchSlot 12 (modChan s n missedCleared) n (chan s n).next
      else modChan (modChan s n missedCleared) n (fun d => { d with state := 2, slot := (d.next + 3) % 4 }) := if_neg (by simp [h])

theorem exec_courierStart {n : Nat} {s : State} (hn : n < 16) : exec (.courierStart n) s = .next (courierStart s n) := congrArg Host.Outcome.next (if_pos hn)

theorem courierStart_valid {s : State} {n : Nat} (h : (chan s n).state = 0) (hv : (slotAt (chan s n) (chan s n).next).valid = true) :
    courierStart s n = fetchSlot 12 (modChan s n missedCleared) n (chan s n).next := (courierStart_eq h).trans (if_pos hv)

section
variable {n : Nat} {x : Slot} {s : State} (hn : n < 16) (hlen : s.courier.channels.length = 16) (hidle : (chan s n).state = 0) (hx : slotAt (chan s n) (chan s n).next = x) (hv : x.valid = true)
include hn hlen hidle hx hv

theorem runs_courierStart (hok : fetchFault s n x = none) :
    Runs (.courierStart n) s (fun t => chan t n = { chan s n with missed := false, slot := (chan s n).next, state := 1, fetched := x, genAtFetch := (chan s n).gen, moved := 0, crcRun := 0xFFFFFFFF, hostRead := none, fetchedData := [] } ∧ (∀ m, m ≠ n → chan t m = chan s m) ∧ OnlyIn [.courier] s t) := by
  have hcleared : slotAt (chan (modChan s n missedCleared) n) (chan s n).next = x := by rw [chan_modChan_same _ (hlen ▸ hn)]; exact hx
  refine ⟨_, exec_courierStart hn, ?_⟩
  rw [courierStart_valid hidle (hx ▸ hv), fetchSlot_runs 11 hcleared hok, modChan_modChan]
  exact modChan_spec _ (hlen ▸ hn)

theorem runs_courierStart_bad (hbad : x.last = x.more ∨ x.count = 0) :
    Runs (.courierStart n) s (fun t => (chan t n).state = 0 ∧ (chan t n).next = (chan s n).next ∧ slotAt (chan t n) (chan s n).next = { x with valid := false, bad := true, badCode := 6 } ∧
      t.courier.bad = modAt (inc 0xFF) 6 s.courier.bad ∧ (∀ m, m ≠ n → chan t m = chan s m)) := by
  have hcleared : slotAt (chan (modChan s n missedCleared) n) (chan s n).next = x := by rw [chan_modChan_same _ (hlen ▸ hn)]; exact hx
  have hslot : (chan s n).next < (chan s n).slots.length := slot_valid_lt (hx ▸ hv)
  have hchan : ∀ m, chan (countBad (modChan s n (slotFetched (chan s n).next x ∘ missedCleared)) 6) m = chan (modChan s n (slotFetched (chan s n).next x ∘ missedCleared)) m := fun _ => rfl
  have hcounted : n < (countBad (modChan s n (slotFetched (chan s n).next x ∘ missedCleared)) 6).courier.channels.length := by
    have hkept := modChan_channels_length s n (slotFetched (chan s n).next x ∘ missedCleared)
    exact (hkept.trans hlen).symm ▸ hn
  refine ⟨_, exec_courierStart hn, ?_⟩
  rw [courierStart_valid hidle (hx ▸ hv), fetchSlot_refused 11 hcleared (fetchFault_badSlot hbad), modChan_modChan]
  beta_reduce
  rw [chan_modChan_same _ hcounted, hchan, chan_modChan_same _ (hlen ▸ hn)]
  refine ⟨rfl, rfl, ?_, rfl, fun m hm => ?_⟩
  · have hclosed := modAt_drop_headD (closeSlot (some 6)) {} (chan s n).next (chan s n).slots hslot
    refine hclosed.trans ((congrArg (closeSlot (some 6)) hx).trans ?_)
    simp [closeSlot]
  · rw [chan_modChan_other _ _ hm, hchan, chan_modChan_other _ _ hm]
end

theorem runs_courierStart_waits {n : Nat} {s : State} (hn : n < 16) (hlen : s.courier.channels.length = 16) (hidle : (chan s n).state = 0) (hv : (slotAt (chan s n) (chan s n).next).valid = false) :
    Runs (.courierStart n) s (fun t => chan t n = { chan s n with missed := false, state := 2, slot := ((chan s n).next + 3) % 4 } ∧ (∀ m, m ≠ n → chan t m = chan s m) ∧ OnlyIn [.courier] s t) := by
  refine ⟨_, exec_courierStart hn, ?_⟩
  rw [courierStart_eq hidle, if_neg (by simp [hv]), modChan_modChan]
  exact modChan_spec _ (hlen ▸ hn)

theorem exec_courierStart_busy {n : Nat} {s : State} (h : (chan s n).state ≠ 0) : exec (.courierStart n) s = .next s := by
  refine congrArg Host.Outcome.next ?_
  split
  · exact if_pos h
  · rfl

/-! ### COURIER_SLOT_WRITE (R430, R431, R439) -/

/-- The slot runs. -/
def slotRuns (c : Channel) (k : Nat) : Bool := (c.state = 1 || c.state = 3) && c.slot = k

/-- A slot as a write of one of its words leaves it. -/
def slotWord (c : Channel) (k reg : Nat) (v : BitVec 64) : Slot :=
  if reg = 0 then (if slotRuns c k then slotAt c k else { slotAt c k with src := v })
  else if reg = 1 then (if slotRuns c k then slotAt c k else { slotAt c k with dst := v })
  else if slotRuns c k then { slotAt c k with last := bit v.toNat 33, more := bit v.toNat 34 }
  else ctlWrite (slotAt c k) v.toNat

theorem slotWord_control {c : Channel} {k : Nat} (v : BitVec 64) (h : slotRuns c k = false) : slotWord c k 2 v = ctlWrite (slotAt c k) v.toNat := by simp [slotWord, h]

theorem slotWord_bits {c : Channel} {k : Nat} (v : BitVec 64) (h : slotRuns c k = true) : slotWord c k 2 v = { slotAt c k with last := bit v.toNat 33, more := bit v.toNat 34 } := by simp [slotWord, h]

theorem slotWord_src {c : Channel} {k : Nat} (v : BitVec 64) (h : slotRuns c k = false) : slotWord c k 0 v = { slotAt c k with src := v } := by simp [slotWord, h]

theorem slotWord_dst {c : Channel} {k : Nat} (v : BitVec 64) (h : slotRuns c k = false) : slotWord c k 1 v = { slotAt c k with dst := v } := by simp [slotWord, h]

theorem slotWord_kept {c : Channel} {k reg : Nat} (v : BitVec 64) (h : slotRuns c k = true) (hreg : reg < 2) : slotWord c k reg v = slotAt c k := by
  have hreg : reg = 0 ∨ reg = 1 := by omega
  rcases hreg with rfl | rfl <;> simp [slotWord, h]

/-- A channel with a slot written: GEN advances when LAST is cleared. -/
def slotStored (k : Nat) (y : Slot) (c : Channel) : Channel :=
  { c with slots := modAt (fun _ => y) k c.slots, gen := if (slotAt c k).last && !y.last then (c.gen + 1) % 256 else c.gen }

theorem slotStored_keepsLast {k : Nat} {f : Slot → Slot} {c : Channel} (h : (f (slotAt c k)).last = (slotAt c k).last) : slotStored k (f (slotAt c k)) c = { c with slots := modAt f k c.slots } := by
  have hslots : modAt (fun _ => f (slotAt c k)) k c.slots = modAt f k c.slots := modAt_congr {} rfl
  rw [slotStored, hslots, h, if_neg (by simp)]

theorem slotAt_slotStored_same {k : Nat} {c : Channel} (y : Slot) (hk : k < c.slots.length) : slotAt (slotStored k y c) k = y := modAt_drop_headD _ _ _ _ hk

theorem slotAt_slotStored_other {k j : Nat} (c : Channel) (y : Slot) (h : j ≠ k) : slotAt (slotStored k y c) j = slotAt c j := modAt_drop_headD_other _ _ _ h.symm

theorem slotWrite_eq (s : State) (n k reg : Nat) (v : BitVec 64) :
    slotWrite s n k reg v =
      if (chan s n).state = 2 && ((chan s n).slot + 1) % 4 = k && (slotWord (chan s n) k reg v).valid then fetchSlot 12 (modChan s n (slotStored k (slotWord (chan s n) k reg v))) n k
      else modChan s n (slotStored k (slotWord (chan s n) k reg v)) := by
  have hmod : modChan s n (slotStored k (slotWord (chan s n) k reg v)) = modChan s n (fun c => { c with
      slots := modAt (fun _ => slotWord (chan s n) k reg v) k c.slots
      gen := if (slotAt (chan s n) k).last && !(slotWord (chan s n) k reg v).last then (c.gen + 1) % 256 else c.gen }) := modChan_congr rfl
  rw [hmod]
  rfl

theorem slotWrite_stored {s : State} {n : Nat} (h : (chan s n).state ≠ 2) (k reg : Nat) (v : BitVec 64) : slotWrite s n k reg v = modChan s n (slotStored k (slotWord (chan s n) k reg v)) :=
  (slotWrite_eq s n k reg v).trans (if_neg (by simp [h]))

theorem exec_courierSlotWrite {n k reg : Nat} {v : BitVec 64} {s : State} (hn : n < 16) (hk : k < 4) : exec (.courierSlotWrite n k reg v) s = .next (slotWrite s n k reg v) :=
  congrArg Host.Outcome.next (if_pos (by simp [hn, hk]))

/-- A write to an address of a slot that does not run. -/
theorem runs_courierSlotWrite_address {n k reg : Nat} {v : BitVec 64} {s : State} {f : Slot → Slot} (hn : n < 16) (hk : k < 4) (hlen : s.courier.channels.length = 16)
    (hstate : (chan s n).state ≠ 2) (hword : slotWord (chan s n) k reg v = f (slotAt (chan s n) k)) (hlast : (f (slotAt (chan s n) k)).last = (slotAt (chan s n) k).last) :
    Runs (.courierSlotWrite n k reg v) s (fun t => chan t n = { chan s n with slots := modAt f k (chan s n).slots } ∧ (∀ m, m ≠ n → chan t m = chan s m) ∧ OnlyIn [.courier] s t) := by
  refine ⟨_, exec_courierSlotWrite hn hk, ?_⟩
  rw [slotWrite_stored hstate, hword]
  obtain ⟨hchan, hrest⟩ := modChan_spec (slotStored k (f (slotAt (chan s n) k))) (hlen.symm ▸ hn : n < s.courier.channels.length)
  exact ⟨hchan.trans (slotStored_keepsLast hlast), hrest⟩

theorem runs_courierSlotWrite_control {n k : Nat} {v : BitVec 64} {s : State} (hn : n < 16) (hk : k < 4) (hlen : s.courier.channels.length = 16) (hslots : (chan s n).slots.length = 4)
    (hstate : (chan s n).state ≠ 2) (hrun : slotRuns (chan s n) k = false) :
    Runs (.courierSlotWrite n k 2 v) s (fun t => (slotAt (chan t n) k).count = fld v.toNat 26 0 ∧ (slotAt (chan t n) k).valid = bit v.toNat 32 ∧ (slotAt (chan t n) k).last = bit v.toNat 33 ∧
      (slotAt (chan t n) k).more = bit v.toNat 34 ∧ (bit v.toNat 32 = true → (slotAt (chan t n) k).bad = false ∧ (slotAt (chan t n) k).badCode = 0) ∧ (slotAt (chan t n) k).src = (slotAt (chan s n) k).src ∧
      (∀ j, j ≠ k → slotAt (chan t n) j = slotAt (chan s n) j) ∧ (chan t n).state = (chan s n).state ∧ (chan t n).fetched = (chan s n).fetched ∧
      (chan t n).gen = (if (slotAt (chan s n) k).last && !bit v.toNat 33 then ((chan s n).gen + 1) % 256 else (chan s n).gen) ∧ OnlyIn [.courier] s t) := by
  have hword : slotWord (chan s n) k 2 v = ctlWrite (slotAt (chan s n) k) v.toNat := slotWord_control v hrun
  refine ⟨_, exec_courierSlotWrite hn hk, ?_⟩
  rw [slotWrite_stored hstate, hword]
  beta_reduce
  rw [chan_modChan_same _ (hlen ▸ hn), slotAt_slotStored_same _ (hslots.symm ▸ hk)]
  exact ⟨rfl, rfl, rfl, rfl, fun hvalid => ⟨by simp [ctlWrite, hvalid], by simp [ctlWrite, hvalid]⟩, rfl, fun _ => slotAt_slotStored_other _ _, rfl, rfl, rfl, onlyIn_modChan ..⟩

theorem slotRuns_of {c : Channel} {k : Nat} (h : c.state = 1 ∨ c.state = 3) (hk : c.slot = k) : slotRuns c k = true := by simpa [slotRuns, hk] using h

theorem slotRuns_not {c : Channel} {k : Nat} (h : c.state = 0 ∨ (c.state = 1 ∨ c.state = 3) ∧ c.slot ≠ k) : slotRuns c k = false := by
  rcases h with h | ⟨-, h⟩ <;> simp [slotRuns, h]

/-- A write to an address of the slot that runs has no effect. -/
theorem exec_courierSlotWrite_running {n k reg : Nat} {v : BitVec 64} {s : State} (h : (chan s n).state = 1 ∨ (chan s n).state = 3) (hword : slotWord (chan s n) k reg v = slotAt (chan s n) k) :
    exec (.courierSlotWrite n k reg v) s = .next s := by
  refine congrArg Host.Outcome.next ?_
  split
  · rw [slotWrite_stored (by omega), hword]
    have hsame : modAt id k (chan s n).slots = (chan s n).slots := modAt_same {} rfl
    refine modChan_same ((slotStored_keepsLast (f := id) rfl).trans ?_)
    rw [hsame]
  · rfl

theorem runs_courierSlotWrite_running {n k : Nat} {v : BitVec 64} {s : State} (h : (chan s n).state = 1 ∨ (chan s n).state = 3) (hrun : (chan s n).slot = k) (hk : k < 4) (hslots : (chan s n).slots.length = 4) (hn : n < 16) :
    Runs (.courierSlotWrite n k 2 v) s (fun t => slotAt (chan t n) k = { slotAt (chan s n) k with last := bit v.toNat 33, more := bit v.toNat 34 } ∧ (chan t n).fetched = (chan s n).fetched ∧ (chan t n).state = (chan s n).state ∧ OnlyIn [.courier] s t) := by
  have hword : slotWord (chan s n) k 2 v = { slotAt (chan s n) k with last := bit v.toNat 33, more := bit v.toNat 34 } := slotWord_bits v (slotRuns_of h hrun)
  refine ⟨_, exec_courierSlotWrite hn hk, ?_⟩
  rw [slotWrite_stored (by omega), hword]
  beta_reduce
  rw [chan_modChan_same _ (chan_running_lt h), slotAt_slotStored_same _ (hslots.symm ▸ hk)]
  exact ⟨rfl, rfl, rfl, onlyIn_modChan ..⟩

/-- A VALID written where the channel waits runs the slot. -/
theorem runs_courierSlotWrite_waiting {n k : Nat} {v : BitVec 64} {s : State} (hn : n < 16) (hk : k < 4) (hlen : s.courier.channels.length = 16) (hslots : (chan s n).slots.length = 4) (hstate : (chan s n).state = 2)
    (hnext : ((chan s n).slot + 1) % 4 = k) (hvalid : bit v.toNat 32 = true) (hok : fetchFault s n (ctlWrite (slotAt (chan s n) k) v.toNat) = none) :
    Runs (.courierSlotWrite n k 2 v) s (fun t => (chan t n).state = 1 ∧ (chan t n).slot = k ∧ (chan t n).fetched = ctlWrite (slotAt (chan s n) k) v.toNat ∧ OnlyIn [.courier] s t) := by
  have hn' : n < s.courier.channels.length := hlen.symm ▸ hn
  have hword : slotWord (chan s n) k 2 v = ctlWrite (slotAt (chan s n) k) v.toNat := slotWord_control v (by simp [slotRuns, hstate])
  have hstored : slotAt (chan (modChan s n (slotStored k (ctlWrite (slotAt (chan s n) k) v.toNat))) n) k = ctlWrite (slotAt (chan s n) k) v.toNat := by
    rw [chan_modChan_same _ hn', slotAt_slotStored_same _ (hslots.symm ▸ hk)]
  refine ⟨_, exec_courierSlotWrite hn hk, ?_⟩
  rw [slotWrite_eq, hword, if_pos (by simp [hstate, hnext, ctlWrite, hvalid]), fetchSlot_runs 11 hstored hok, modChan_modChan]
  beta_reduce
  rw [chan_modChan_same _ hn']
  exact ⟨rfl, rfl, rfl, onlyIn_modChan ..⟩

/-! ### The shadow hand-over (R441) -/

theorem exec_shadowWrite {n k reg : Nat} {v : BitVec 64} {s : State} (hn : n < 16) (hk : k < 4) : exec (.shadowWrite n k reg v) s = .next (shadowWrite s n k reg v) :=
  congrArg Host.Outcome.next (if_pos (by simp [hn, hk]))

theorem exec_shadowArm {n : Nat} {s : State} (hn : n < 16) : exec (.shadowArm n) s = .next (shadowArm s n) := congrArg Host.Outcome.next (if_pos hn)

def copyArmed (c : Channel) : Channel := { c with armed := true }

theorem runs_shadowArm_running {n : Nat} {s : State} (hn : n < 16) (hlen : s.courier.channels.length = 16) (h : (chan s n).state = 1 ∨ (chan s n).state = 3) :
    Runs (.shadowArm n) s (fun t => chan t n = { chan s n with armed := true } ∧ (∀ m, m ≠ n → chan t m = chan s m) ∧ OnlyIn [.courier] s t) := by
  have harm : shadowArm s n = modChan s n copyArmed := if_neg (by simp; omega)
  refine ⟨_, exec_shadowArm hn, ?_⟩
  rw [harm]
  exact modChan_spec _ (hlen ▸ hn)

/-- A channel that runs nothing, with the shadow copy. -/
def copyTaken (c : Channel) : Channel :=
  { c with slots := c.shadow, armed := false, next := 0, missed := false, shadowSeq := c.shadowWseq, state := 0, hoSrc := c.fetched.src + 0, hoDst := c.fetched.dst + 0, hoCount := 0 }

theorem shadowCopy_idle {s : State} {n : Nat} (h : (chan s n).state = 0 ∨ (chan s n).state = 2) :
    shadowCopy s n = { modChan s n copyTaken with courier := { (modChan s n copyTaken).courier with handovers := inc 0xFFFF s.courier.handovers } } := by
  have hrun : ((chan s n).state = 1 || (chan s n).state = 3 : Bool) = false := by simp; omega
  have hmod : modChan s n copyTaken = modChan s n (fun c => { c with
      slots := c.shadow, armed := false, next := 0, missed := false, shadowSeq := c.shadowWseq, state := 0
      hoSrc := (chan s n).fetched.src + (if (chan s n).fetched.srcFixed || !((chan s n).state = 1 || (chan s n).state = 3 : Bool) then 0 else BitVec.ofNat 64 c.moved)
      hoDst := (chan s n).fetched.dst + (if (chan s n).fetched.dstFixed || !((chan s n).state = 1 || (chan s n).state = 3 : Bool) then 0 else BitVec.ofNat 64 c.moved)
      hoCount := if ((chan s n).state = 1 || (chan s n).state = 3 : Bool) then (chan s n).fetched.count - c.moved else 0 }) := modChan_congr (by simp [hrun, copyTaken])
  rw [hmod]
  exact if_neg (by simp [hrun])

theorem runs_shadowArm_idle {n : Nat} {s : State} (hn : n < 16) (hlen : s.courier.channels.length = 16) (h : (chan s n).state = 0 ∨ (chan s n).state = 2) :
    Runs (.shadowArm n) s (fun t => (chan t n).slots = (chan s n).shadow ∧ (chan t n).armed = false ∧ (chan t n).next = 0 ∧ (chan t n).missed = false ∧ (chan t n).state = 0 ∧
      (chan t n).shadowSeq = (chan s n).shadowWseq ∧ (chan t n).hoCount = 0 ∧ t.courier.handovers = inc 0xFFFF s.courier.handovers ∧ (∀ m, m ≠ n → chan t m = chan s m) ∧ OnlyIn [.courier] s t) := by
  have hn' : n < s.courier.channels.length := hlen.symm ▸ hn
  have harm : shadowArm s n = shadowCopy (modChan s n copyArmed) n := if_pos (by simpa using h)
  have harmed : (chan (modChan s n copyArmed) n).state = 0 ∨ (chan (modChan s n copyArmed) n).state = 2 := by rw [chan_modChan_same _ hn']; exact h
  have hchan : ∀ m, chan { modChan s n (copyTaken ∘ copyArmed) with courier := { (modChan s n (copyTaken ∘ copyArmed)).courier with handovers := inc 0xFFFF s.courier.handovers } } m = chan (modChan s n (copyTaken ∘ copyArmed)) m :=
    fun _ => rfl
  have hcopy : shadowArm s n = { modChan s n (copyTaken ∘ copyArmed) with courier := { (modChan s n (copyTaken ∘ copyArmed)).courier with handovers := inc 0xFFFF s.courier.handovers } } := by
    rw [harm, shadowCopy_idle harmed, modChan_modChan]
    rfl
  refine ⟨_, exec_shadowArm hn, ?_⟩
  rw [hcopy]
  beta_reduce
  rw [hchan, chan_modChan_same _ hn']
  exact ⟨rfl, rfl, rfl, rfl, rfl, rfl, rfl, rfl, fun m hm => (hchan m).trans (chan_modChan_other _ _ hm), by simp [OnlyIn]⟩

/-! ### Maintenance mode (R442) -/

theorem exec_maintenance_armed {s : State} (hw : writesTaken s = true) :
    exec (.maintenanceEnter 0x4D54) s = .next { s with courier := { s.courier with enterPending := !s.courier.maint } } ∧
      exec (.maintenanceExit 0x4D54) s = .next { s with courier := { s.courier with exitPending := s.courier.maint, enterPending := false } } :=
  ⟨congrArg Host.Outcome.next (if_pos (by simp [hw])), congrArg Host.Outcome.next (if_pos (by simp [hw]))⟩

theorem exec_maintenance_unarmed {arm : Nat} {s : State} (h : arm ≠ 0x4D54) : exec (.maintenanceEnter arm) s = .next s ∧ exec (.maintenanceExit arm) s = .next s :=
  ⟨congrArg Host.Outcome.next (if_neg (by simp [h])), congrArg Host.Outcome.next (if_neg (by simp [h]))⟩

/-- Settles O58: START and the slot writes by `fetchSlot_runs` and `slotWrite_eq`, the hand-over by `shadowCopy_idle`. -/
theorem courierTakesCommands : Obligations.CourierTakesCommands := by
  refine ⟨fun _ _ _ hn hlen hidle hx hv => ⟨runs_courierStart hn hlen hidle hx hv, runs_courierStart_bad hn hlen hidle hx hv⟩, fun _ _ => runs_courierStart_waits, fun _ _ => exec_courierStart_busy,
    fun n k v s hn hk hlen hslots h => ?_, fun n k v s h hk => ?_, fun _ _ _ _ => runs_courierSlotWrite_waiting, fun n k v s hn hk hlen => ?_,
    fun _ _ hn hlen => ⟨runs_shadowArm_running hn hlen, runs_shadowArm_idle hn hlen⟩, fun arm s hw => ⟨fun harm => harm ▸ exec_maintenance_armed hw, exec_maintenance_unarmed⟩⟩
  · have hrun := slotRuns_not h
    have hstate : (chan s n).state ≠ 2 := by omega
    exact ⟨runs_courierSlotWrite_address (f := fun x => { x with src := v }) hn hk hlen hstate (slotWord_src v hrun) rfl,
      runs_courierSlotWrite_address (f := fun x => { x with dst := v }) hn hk hlen hstate (slotWord_dst v hrun) rfl, runs_courierSlotWrite_control hn hk hlen hslots hstate hrun⟩
  · have hrun := slotRuns_of h hk
    exact ⟨exec_courierSlotWrite_running h (slotWord_kept v hrun (by decide)), exec_courierSlotWrite_running h (slotWord_kept v hrun (by decide)), fun hk4 hslots hn => runs_courierSlotWrite_running h hk hk4 hslots hn⟩
  · have hn' : n < s.courier.channels.length := hlen.symm ▸ hn
    exact ⟨⟨_, exec_shadowWrite hn hk, modChan_spec _ hn'⟩, ⟨_, exec_shadowWrite hn hk, modChan_spec _ hn'⟩⟩

end Sys2Proof.Machine
end

section
namespace Sys2Proof.Machine

/-! ## Bursts and the ends of slots (O59) -/

/-! ### A slot ends (R430, R434, R437, R439) -/

/-- A channel whose slot ends: its stored slot is closed, and the pulse is sent. -/
def slotClosed (bad : Option Nat) (c : Channel) : Channel :=
  { c with slots := modAt (closeSlot bad) c.slot c.slots, pulses := c.pulses + 1, hostRead := none, fetchedData := [] }

/-- A slot that ends bad is counted by its code. -/
def faultCounted (s : State) (bad : Option Nat) : State := (bad.map (countBad s)).getD s

theorem chan_faultCounted (s : State) (bad : Option Nat) (m : Nat) : chan (faultCounted s bad) m = chan s m := by cases bad <;> rfl

theorem faultCounted_missed (s : State) (bad : Option Nat) : (faultCounted s bad).courier.missed = s.courier.missed := by cases bad <;> rfl

/-- A chain ends at a slot with LAST; it missed a change of the chain when GEN is another than at the fetch. -/
def chainEnded (bad : Option Nat) (c : Channel) : Channel :=
  { slotClosed bad c with state := 0, next := (c.slot + 1) % 4, missed := c.missed || decide (c.gen ≠ c.genAtFetch) }

/-- The misses of the courier, with those of one chain's end. -/
def chainMisses (s : State) (n : Nat) : Nat := if (chan s n).gen = (chan s n).genAtFetch then s.courier.missed else inc 0xFFFF s.courier.missed

def missesSet (s : State) (misses : Nat) : State := { s with courier := { s.courier with missed := misses } }

theorem slotClosed_faultCounted (s : State) (n : Nat) (bad : Option Nat) :
    modChan (faultCounted s bad) n (fun c => { c with slots := modAt (closeSlot bad) (chan s n).slot c.slots, pulses := c.pulses + 1, hostRead := none, fetchedData := [] }) = modChan (faultCounted s bad) n (slotClosed bad) :=
  modChan_congr (by rw [chan_faultCounted]; rfl)

theorem endSlot_last {s : State} {n : Nat} (fuel : Nat) (bad : Option Nat) (h : (chan s n).fetched.last = true) :
    endSlot (fuel + 1) s n bad = missesSet (modChan (faultCounted s bad) n (chainEnded bad)) (chainMisses s n) := by
  rw [endSlot, if_pos h]
  change (if (chan s n).gen ≠ (chan s n).genAtFetch then
      missesSet (modChan (modChan (faultCounted s bad) n _) n (fun c => { c with state := 0, next := ((chan s n).slot + 1) % 4, missed := true })) (inc 0xFFFF (modChan (faultCounted s bad) n _).courier.missed)
    else modChan (modChan (faultCounted s bad) n _) n (fun c => { c with state := 0, next := ((chan s n).slot + 1) % 4 })) = _
  rw [slotClosed_faultCounted, modChan_modChan, modChan_modChan, chainMisses]
  split
  next hgen =>
    have hcong : modChan (faultCounted s bad) n ((fun c => { c with state := 0, next := ((chan s n).slot + 1) % 4, missed := true }) ∘ slotClosed bad) = modChan (faultCounted s bad) n (chainEnded bad) :=
      modChan_congr (by rw [chan_faultCounted]; simp [chainEnded, slotClosed, hgen])
    have hmissed : (modChan (faultCounted s bad) n (slotClosed bad)).courier.missed = s.courier.missed := faultCounted_missed s bad
    rw [hcong, hmissed]
  next hgen =>
    have hgen : (chan s n).gen = (chan s n).genAtFetch := not_not.1 hgen
    have hcong : modChan (faultCounted s bad) n ((fun c => { c with state := 0, next := ((chan s n).slot + 1) % 4 }) ∘ slotClosed bad) = modChan (faultCounted s bad) n (chainEnded bad) :=
      modChan_congr (by rw [chan_faultCounted]; simp [chainEnded, slotClosed, hgen])
    rw [hcong, if_pos hgen, ← faultCounted_missed s bad]
    rfl

theorem endSlot_waits {s : State} {n : Nat} (fuel : Nat) (bad : Option Nat) (h : (chan s n).fetched.last = false) (hv : (slotAt (chan s n) (((chan s n).slot + 1) % 4)).valid = false) :
    endSlot (fuel + 1) s n bad = modChan (modChan (faultCounted s bad) n (slotClosed bad)) n (fun c => { c with state := 2 }) := by
  rw [endSlot, if_neg (by simp [h]), ← slotClosed_faultCounted]
  exact if_neg (by simpa [slotAt] using hv)

theorem endSlot_goesOn {s : State} {n : Nat} (fuel : Nat) (bad : Option Nat) (h : (chan s n).fetched.last = false) (hv : (slotAt (chan s n) (((chan s n).slot + 1) % 4)).valid = true) :
    endSlot (fuel + 1) s n bad = fetchSlot fuel (modChan (faultCounted s bad) n (slotClosed bad)) n (((chan s n).slot + 1) % 4) := by
  rw [endSlot, if_neg (by simp [h]), ← slotClosed_faultCounted]
  exact if_pos hv

/-! ### SLOT_COMPLETE (R434, R439) -/

theorem exec_slotComplete {n : Nat} {s : State} (h : (chan s n).state = 1) (hm : (chan s n).fetched.count ≤ (chan s n).moved) : exec (.slotComplete n) s = .next (endSlot 12 s n none) :=
  congrArg Host.Outcome.next (if_pos (by simp [h, hm]))

theorem closeSlot_good : closeSlot none = fun x => { x with valid := false } := by
  funext x
  simp [closeSlot]

section
variable {n : Nat} {s : State} (h : (chan s n).state = 1) (hm : (chan s n).fetched.count ≤ (chan s n).moved)
include h hm

theorem runs_slotComplete_last (hlast : (chan s n).fetched.last = true) :
    Runs (.slotComplete n) s (fun t =>
      chan t n = { chan s n with state := 0, next := ((chan s n).slot + 1) % 4, missed := (chan s n).missed || decide ((chan s n).gen ≠ (chan s n).genAtFetch), slots := modAt (fun x => { x with valid := false }) (chan s n).slot (chan s n).slots, pulses := (chan s n).pulses + 1, hostRead := none, fetchedData := [] } ∧
      t.courier.missed = (if (chan s n).gen = (chan s n).genAtFetch then s.courier.missed else inc 0xFFFF s.courier.missed) ∧ (∀ m, m ≠ n → chan t m = chan s m) ∧ OnlyIn [.courier] s t) := by
  refine ⟨_, exec_slotComplete h hm, ?_⟩
  rw [endSlot_last 11 none hlast, ← closeSlot_good]
  obtain ⟨hchan, hothers, -⟩ := modChan_spec (s := s) (chainEnded none) (chan_running_lt (.inl h))
  exact ⟨hchan, rfl, hothers, by simp [OnlyIn, missesSet, faultCounted]⟩

theorem runs_slotComplete_waits (hlast : (chan s n).fetched.last = false) (hv : (slotAt (chan s n) (((chan s n).slot + 1) % 4)).valid = false) :
    Runs (.slotComplete n) s (fun t => (chan t n).state = 2 ∧ (chan t n).slot = (chan s n).slot ∧ (chan t n).slots = modAt (fun x => { x with valid := false }) (chan s n).slot (chan s n).slots ∧ (∀ m, m ≠ n → chan t m = chan s m) ∧ OnlyIn [.courier] s t) := by
  refine ⟨_, exec_slotComplete h hm, ?_⟩
  rw [endSlot_waits 11 none hlast hv, modChan_modChan, ← closeSlot_good]
  obtain ⟨hchan, hrest⟩ := modChan_spec (s := faultCounted s none) ((fun c => { c with state := 2 }) ∘ slotClosed none) (chan_running_lt (.inl h))
  exact ⟨congrArg Channel.state hchan, (congrArg Channel.slot hchan).trans rfl, (congrArg Channel.slots hchan).trans rfl, hrest⟩

theorem runs_slotComplete_goesOn {y : Slot} (hlast : (chan s n).fetched.last = false) (hy : slotAt (chan s n) (((chan s n).slot + 1) % 4) = y) (hv : y.valid = true) (hok : fetchFault s n y = none) :
    Runs (.slotComplete n) s (fun t => (chan t n).state = 1 ∧ (chan t n).slot = ((chan s n).slot + 1) % 4 ∧ (chan t n).fetched = y ∧ (chan t n).moved = 0 ∧ (∀ m, m ≠ n → chan t m = chan s m) ∧ OnlyIn [.courier] s t) := by
  have hn : n < s.courier.channels.length := chan_running_lt (.inl h)
  have hnext : slotAt (chan (modChan (faultCounted s none) n (slotClosed none)) n) (((chan s n).slot + 1) % 4) = y := by
    have hclosed : chan (modChan (faultCounted s none) n (slotClosed none)) n = slotClosed none (chan s n) := chan_modChan_same _ hn
    have hother : slotAt (slotClosed none (chan s n)) (((chan s n).slot + 1) % 4) = slotAt (chan s n) (((chan s n).slot + 1) % 4) := modAt_drop_headD_other _ _ _ (by omega)
    rw [hclosed, hother, hy]
  refine ⟨_, exec_slotComplete h hm, ?_⟩
  rw [endSlot_goesOn 11 none hlast (hy ▸ hv), fetchSlot_runs 10 hnext hok, modChan_modChan]
  obtain ⟨hchan, hrest⟩ := modChan_spec (s := s) (slotFetched (((chan s n).slot + 1) % 4) y ∘ slotClosed none) hn
  exact ⟨congrArg Channel.state hchan, congrArg Channel.slot hchan, congrArg Channel.fetched hchan, congrArg Channel.moved hchan, hrest⟩
end

theorem exec_slotComplete_open {n : Nat} {s : State} (h : (chan s n).state ≠ 1 ∨ (chan s n).moved < (chan s n).fetched.count) : exec (.slotComplete n) s = .next s :=
  congrArg Host.Outcome.next (if_neg (by simp; omega))

/-! ### SLOT_FAULT (R437) -/

theorem closeSlot_bad (code : Nat) : closeSlot (some code) = fun x => { x with valid := false, bad := true, badCode := code } := by
  funext x
  simp [closeSlot]

theorem runs_slotFault {n code : Nat} {s : State} (h : (chan s n).state = 1 ∨ (chan s n).state = 3) (hlo : 1 ≤ code) (hhi : code ≤ 8) (hlast : (chan s n).fetched.last = true) :
    Runs (.slotFault n code) s (fun t => (chan t n).state = 0 ∧ (chan t n).next = ((chan s n).slot + 1) % 4 ∧
      (chan t n).slots = modAt (fun x => { x with valid := false, bad := true, badCode := code }) (chan s n).slot (chan s n).slots ∧ t.courier.bad = modAt (inc 0xFF) code s.courier.bad ∧
      t.returns.masterOff = (if code = 3 then inc 0xFFFF s.returns.masterOff else s.returns.masterOff) ∧ (∀ m, m ≠ n → chan t m = chan s m) ∧ OnlyIn [.courier, .returns] s t) := by
  refine ⟨endSlot 12 s n (some code), congrArg Host.Outcome.next (if_pos (by simpa [hlo, hhi] using h)), ?_⟩
  rw [endSlot_last 11 (some code) hlast, ← closeSlot_bad]
  obtain ⟨hchan, hothers, -⟩ := modChan_spec (s := faultCounted s (some code)) (chainEnded (some code)) (chan_running_lt h)
  have hmaster : (faultCounted s (some code)).returns.masterOff = if code = 3 then inc 0xFFFF s.returns.masterOff else s.returns.masterOff := by
    change (if code = 3 then { s.returns with masterOff := inc 0xFFFF s.returns.masterOff } else s.returns).masterOff = _
    split <;> rfl
  exact ⟨congrArg Channel.state hchan, congrArg Channel.next hchan, congrArg Channel.slots hchan, rfl, hmaster, hothers, by simp [OnlyIn, missesSet, faultCounted]⟩

theorem exec_slotFault_none {n code : Nat} {s : State} (h : code = 0 ∨ 8 < code ∨ (chan s n).state = 0 ∨ (chan s n).state = 2) : exec (.slotFault n code) s = .next s :=
  congrArg Host.Outcome.next (if_neg (by simp; omega))

/-! ### The grant (R428, R432) -/

theorem foldl_min_mem (l : List Nat) (a : Nat) : l.foldl min a ∈ a :: l := by
  induction l generalizing a with
  | nil => exact List.mem_cons_self
  | cons b l ih =>
    rcases List.mem_cons.1 (ih (min a b)) with h | h
    · rw [List.foldl_cons, h]
      rcases min_choice a b with h | h <;> simp [h]
    · exact List.mem_cons_of_mem _ (List.mem_cons_of_mem _ h)

theorem minOf_mem {l : List Nat} {m : Nat} (h : minOf l = some m) : m ∈ l := by
  cases l with
  | nil => exact absurd h (by simp [minOf])
  | cons a l => exact Option.some.inj h ▸ foldl_min_mem l a

theorem foldl_max_top {n : Nat} {l : List Nat} (hle : ∀ x ∈ l, x ≤ n) {a : Nat} (ha : a ≤ n) (hn : n ∈ l ∨ a = n) : l.foldl max a = n := by
  induction l generalizing a with
  | nil => exact hn.resolve_left List.not_mem_nil
  | cons x l ih =>
    obtain ⟨hx, hl⟩ := List.forall_mem_cons.1 hle
    refine ih hl (max_le ha hx) ?_
    rcases hn with hn | rfl
    · rcases List.mem_cons.1 hn with rfl | hn
      · exact .inr (max_eq_right ha)
      · exact .inl hn
    · exact .inr (max_eq_left hx)

theorem maxOf_top {n : Nat} {l : List Nat} (hn : n ∈ l) (hle : ∀ x ∈ l, x ≤ n) : maxOf l = n := foldl_max_top hle (Nat.zero_le n) (.inl hn)

/-- A list whose only member is n. -/
theorem minOf_only {l : List Nat} {n : Nat} (hn : n ∈ l) (honly : ∀ x ∈ l, x = n) : minOf l = some n := by
  cases h : minOf l with
  | none =>
    cases l with
    | nil => exact absurd hn List.not_mem_nil
    | cons a l => exact absurd h (by simp [minOf])
  | some m => rw [honly m (minOf_mem h)]

/-- With none starved, the channel of the one highest priority takes the grant. -/
theorem grantee_top {s : State} {ready : List Nat} {n : Nat} (hn : n ∈ ready) (hfresh : ∀ m ∈ ready, ∀ t, (chan s m).readySince = some t → absCycle s < t + 4096)
    (htop : ∀ m ∈ ready, m ≠ n → (chan s m).prio < (chan s n).prio) : grantee s ready = some n := by
  have hmax : maxOf (ready.map (fun n => (chan s n).prio)) = (chan s n).prio := by
    refine maxOf_top (List.mem_map_of_mem hn) fun x hx => ?_
    obtain ⟨m, hm, rfl⟩ := List.mem_map.1 hx
    rcases eq_or_ne m n with rfl | hne
    · exact le_refl _
    · exact (htop m hm hne).le
  have hbest : ∀ x ∈ ready.filter (fun n' => (chan s n').prio = (chan s n).prio), x = n := by
    intro x hx
    obtain ⟨hx, hprio⟩ := List.mem_filter.1 hx
    by_contra hne
    exact (htop x hx hne).ne (of_decide_eq_true hprio)
  have hmem : n ∈ ready.filter (fun n' => (chan s n').prio = (chan s n).prio) := List.mem_filter.2 ⟨hn, decide_eq_true rfl⟩
  unfold grantee
  dsimp only
  rw [hmax]
  split
  next m hm =>
    obtain ⟨hm, hstarved⟩ := List.mem_filter.1 (minOf_mem hm)
    split at hstarved
    next t ht => exact absurd (of_decide_eq_true hstarved) (Nat.not_le.2 (hfresh m hm t ht))
    next => exact absurd hstarved Bool.false_ne_true
  · split
    next m hm => rw [hbest m (List.mem_filter.1 (minOf_mem hm)).1]
    next => exact minOf_only hmem hbest

/-- The only channel that is ready takes the grant, starved or not. -/
theorem grantee_only {s : State} {ready : List Nat} {n : Nat} (hn : n ∈ ready) (honly : ∀ m ∈ ready, m = n) : grantee s ready = some n := by
  have htop : maxOf (ready.map (fun n => (chan s n).prio)) = (chan s n).prio :=
    maxOf_const (by simpa using List.ne_nil_of_mem hn) fun x hx => by
      obtain ⟨m, hm, rfl⟩ := List.mem_map.1 hx
      rw [honly m hm]
  have hmem : n ∈ ready.filter (fun n' => (chan s n').prio = (chan s n).prio) := List.mem_filter.2 ⟨hn, decide_eq_true rfl⟩
  have hbest : ∀ x ∈ ready.filter (fun n' => (chan s n').prio = (chan s n).prio), x = n := fun x hx => honly x (List.mem_filter.1 hx).1
  unfold grantee
  dsimp only
  rw [htop]
  split
  next m hm => rw [honly m (List.mem_filter.1 (minOf_mem hm)).1]
  · split
    next m hm => rw [hbest m (List.mem_filter.1 (minOf_mem hm)).1]
    next => exact minOf_only hmem hbest

/-- The channels of a list that have a burst to move. -/
def burstReady (s : State) (r : List Nat) : List Nat := (r.filter (fun n => (chan s n).state = 1 || (chan s n).state = 3)).eraseDups

/-- A channel as its readiness is marked: since when it waits. -/
def waitMarked (s : State) (ready : List Nat) (n : Nat) (c : Channel) : Channel := { c with readySince := if ready.contains n then some (c.readySince.getD (absCycle s)) else none }

def readyMarked (s : State) (ready : List Nat) : State := { s with courier := { s.courier with channels := List.zipWith (waitMarked s ready) (List.range 16) s.courier.channels } }

/-- The state in which a grant to one of the channels of a list is decided. -/
def grantState (s : State) (cyc : Nat) (r : List Nat) : State := readyMarked (s.at cyc) (burstReady s r)

/-- What the grant does: the grantee's burst, when there is one. -/
def granted (s : State) : Option Nat → State
  | none => s
  | some n => burst s n

theorem exec_burstGrant (cyc : Nat) (r : List Nat) (s : State) : exec (.burstGrant cyc r) s = .next (granted (grantState s cyc r) (grantee (grantState s cyc r) (burstReady s r))) := rfl

theorem exec_burstGrant_to {cyc n : Nat} {r : List Nat} {s : State} (h : grantee (grantState s cyc r) (burstReady s r) = some n) : exec (.burstGrant cyc r) s = .next (burst (grantState s cyc r) n) := by
  rw [exec_burstGrant, h, granted]

theorem exec_burstGrant_none {cyc : Nat} {r : List Nat} {s : State} (h : grantee (grantState s cyc r) (burstReady s r) = none) : exec (.burstGrant cyc r) s = .next (grantState s cyc r) := by
  rw [exec_burstGrant, h, granted]

theorem mem_burstReady {s : State} {r : List Nat} {n : Nat} : n ∈ burstReady s r ↔ n ∈ r ∧ ((chan s n).state = 1 ∨ (chan s n).state = 3) := by simp [burstReady]

theorem readyMarked_length {s : State} (hlen : s.courier.channels.length = 16) (ready : List Nat) : (readyMarked s ready).courier.channels.length = 16 := by simp [readyMarked, hlen]

theorem chan_readyMarked {s : State} (hlen : s.courier.channels.length = 16) (ready : List Nat) {n : Nat} (hn : n < 16) : chan (readyMarked s ready) n = waitMarked s ready n (chan s n) := by
  have hn' : n < s.courier.channels.length := hlen.symm ▸ hn
  have hn'' : n < (readyMarked s ready).courier.channels.length := (readyMarked_length hlen ready).symm ▸ hn
  rw [chan, chan, List.headD_eq_head?_getD, List.headD_eq_head?_getD, List.head?_drop, List.head?_drop, List.getElem?_eq_getElem hn'', List.getElem?_eq_getElem hn']
  simp [readyMarked]

/-- A mark leaves all of a channel but its mark. -/
theorem chan_readyMarked_other {s : State} (hlen : s.courier.channels.length = 16) (ready : List Nat) (n : Nat) : ∃ w, chan (readyMarked s ready) n = { chan s n with readySince := w } := by
  rcases Nat.lt_or_ge n 16 with hn | hn
  · exact ⟨_, chan_readyMarked hlen ready hn⟩
  · have hnone : chan s n = {} := by rw [chan, List.drop_of_length_le (hlen.trans_le hn)]; rfl
    have hmarked : chan (readyMarked s ready) n = {} := by rw [chan, List.drop_of_length_le ((readyMarked_length hlen ready).trans_le hn)]; rfl
    exact ⟨none, by rw [hnone, hmarked]⟩

/-! ### BURST_GRANT (R432, R435, R438) -/

/-- A burst from DRAM to DRAM: the bytes go to their place, and the CRC behind the last. -/
def burstBytes (s : State) (c : Channel) (len : Nat) : List Byte := Memory.readN 0 s.dram (c.fetched.src.toNat + c.moved) len

def burstWhole (c : Channel) (len : Nat) : Bool := c.fetched.count ≤ c.moved + len && c.fetched.xform = 1

def burstCrc (c : Channel) (d : List Byte) : BitVec 32 := ~~~(crcRun c.crcRun d)

def burstMemory (s : State) (c : Channel) (len : Nat) : Cells :=
  if burstWhole c len then
    Memory.writeN 0 (Memory.writeN 0 s.dram (c.fetched.dst.toNat + c.moved) (burstBytes s c len)) (c.fetched.dst.toNat + c.fetched.count) (natLe 4 (burstCrc c (burstBytes s c len)).toNat)
  else Memory.writeN 0 s.dram (c.fetched.dst.toNat + c.moved) (burstBytes s c len)

def burstChannel (len : Nat) (d : List Byte) (c : Channel) : Channel :=
  { c with state := 1, moved := c.moved + len, crcRun := crcRun c.crcRun d, readySince := none, fetchedData := [], crc := if burstWhole c len then burstCrc c d else c.crc }

/-- A burst is counted, and its channel is the last granted. -/
def burstBegun (n : Nat) (u : State) : State := { u with courier := { u.courier with bursts := inc 0xFFFFFFFF u.courier.bursts, lastGrant := n } }

def burstCounted (n : Nat) (f : Channel → Channel) (u : State) : State := burstBegun n (modChan u n f)

def burstDone (s : State) (n len : Nat) : State :=
  burstCounted n (burstChannel len (burstBytes s (chan s n) len)) { s with dram := burstMemory s (chan s n) len }

/-- The bytes in DRAM, with the CRC where the burst is the last of its slot. -/
theorem burstPut (s : State) (c : Channel) (len : Nat) :
    (if burstWhole c len then
        spaceWrite { s with dram := Memory.writeN 0 s.dram (c.fetched.dst.toNat + c.moved) (burstBytes s c len) } 0 (c.fetched.dst.toNat + c.fetched.count) (natLe 4 (burstCrc c (burstBytes s c len)).toNat)
      else { s with dram := Memory.writeN 0 s.dram (c.fetched.dst.toNat + c.moved) (burstBytes s c len) }) = { s with dram := burstMemory s c len } := by
  unfold burstMemory
  cases burstWhole c len <;> rfl

/-- A channel copies within DRAM: it runs, and neither converts nor stays at a fixed address. -/
structure CopiesDram (c : Channel) : Prop where
  running : c.state = 1
  unarmed : c.armed = false
  src : c.fetched.srcSpace = 0
  dst : c.fetched.dstSpace = 0
  srcMoves : c.fetched.srcFixed = false
  dstMoves : c.fetched.dstFixed = false
  xform : c.fetched.xform ≤ 1
  more : c.moved < c.fetched.count

theorem burstLen_copies {c : Channel} (h : CopiesDram c) : burstLen c = min (c.fetched.count - c.moved) (256 - (c.fetched.dst.toNat + c.moved) % 256) := by
  have hxform := h.xform
  unfold burstLen
  dsimp only
  rw [if_neg (by omega), h.dstMoves, if_neg Bool.false_ne_true, toBoundary]
  omega

theorem burst_copies {s : State} {n : Nat} (h : CopiesDram (chan s n)) : burst s n = burstDone s n (burstLen (chan s n)) := by
  have hxform := h.xform
  have hmore := h.more
  have hpoisoned : burstPoisoned s (chan s n) = false := by simp [burstPoisoned, h.src]
  have hdata : burstData s (chan s n) = burstBytes s (chan s n) (burstLen (chan s n)) := by
    unfold burstData
    dsimp only
    rw [if_neg (by simp [h.src]), if_neg (by omega), h.srcMoves, if_neg Bool.false_ne_true, h.src]
    rfl
  have hwrite : ∀ d, burstWrite s (chan s n) d = { s with dram := Memory.writeN 0 s.dram ((chan s n).fetched.dst.toNat + (chan s n).moved) d } := by
    intro d
    unfold burstWrite
    dsimp only
    rw [if_neg (by omega), h.dstMoves, if_neg Bool.false_ne_true, h.dst]
    rfl
  unfold burst
  dsimp only
  rw [if_neg (by simp [h.running]), if_neg (by simp [h.unarmed]), if_neg (by simp [h.src, h.dst]), if_neg (by omega), if_neg (by simp [hpoisoned]), if_neg (by simp [h.src]), hdata, hwrite, h.dst]
  exact (congrArg (burstCounted n _) (burstPut s (chan s n) _)).trans (congrArg (burstBegun n) (modChan_congr (s := { s with dram := burstMemory s (chan s n) (burstLen (chan s n)) }) rfl))

theorem chan_grantState {s : State} (hlen : s.courier.channels.length = 16) (cyc : Nat) (r : List Nat) (n : Nat) : ∃ w, chan (grantState s cyc r) n = { chan s n with readySince := w } :=
  chan_readyMarked_other (s := s.at cyc) hlen _ n

theorem grantState_length {s : State} (hlen : s.courier.channels.length = 16) (cyc : Nat) (r : List Nat) : (grantState s cyc r).courier.channels.length = 16 := readyMarked_length (s := s.at cyc) hlen _

theorem grantState_outside (s : State) (cyc : Nat) (r : List Nat) {ps : List Part} (hclock : .clock ∈ ps) (hcourier : .courier ∈ ps) : (grantState s cyc r).outside ps = s.outside ps := by
  simp [grantState, readyMarked, hclock, hcourier]

/-- A channel that did not wait before the grant waits since its cycle. -/
theorem readySince_grantState {s : State} (hlen : s.courier.channels.length = 16) {cyc : Nat} {r : List Nat} {m : Nat} (hm : m ∈ burstReady s r) (hfresh : (chan s m).readySince = none) {t : Nat}
    (ht : (chan (grantState s cyc r) m).readySince = some t) : t = absCycle (grantState s cyc r) := by
  have hlt : m < 16 := hlen ▸ chan_running_lt (mem_burstReady.1 hm).2
  have hmark : chan (grantState s cyc r) m = waitMarked (s.at cyc) (burstReady s r) m (chan s m) := chan_readyMarked (s := s.at cyc) hlen _ hlt
  have hsince : (chan (grantState s cyc r) m).readySince = some (absCycle (s.at cyc)) := by
    rw [hmark, waitMarked, if_pos (by simpa using hm), hfresh]
    rfl
  exact (Option.some.inj (ht.symm.trans hsince)).trans rfl

/-- The channel above all others takes the grant when none has waited. -/
theorem grantee_grantState {s : State} (hlen : s.courier.channels.length = 16) (cyc : Nat) {n : Nat} {r : List Nat} (hn : n ∈ r) (hrun : (chan s n).state = 1)
    (hr : ∀ m ∈ r, (chan s m).readySince = none ∧ (m ≠ n → (chan s m).prio < (chan s n).prio)) : grantee (grantState s cyc r) (burstReady s r) = some n := by
  have hprio : ∀ m, (chan (grantState s cyc r) m).prio = (chan s m).prio := fun m => by
    obtain ⟨w, hw⟩ := chan_grantState hlen cyc r m
    rw [hw]
  refine grantee_top (mem_burstReady.2 ⟨hn, .inl hrun⟩) (fun m hm t ht => ?_) fun m hm hne => ?_
  · have hsince := readySince_grantState hlen hm (hr m (mem_burstReady.1 hm).1).1 ht
    omega
  · rw [hprio, hprio]
    exact (hr m (mem_burstReady.1 hm).1).2 hne

theorem burstCrc_fresh {c : Channel} (hrun : c.crcRun = 0xFFFFFFFF) (d : List Byte) : burstCrc c d = crc32c d := by rw [burstCrc, hrun, crc32c]

theorem runs_burstGrant {cyc n len : Nat} {r : List Nat} {s : State} (hn : n ∈ r) (hlen : s.courier.channels.length = 16) (hcopies : CopiesDram (chan s n))
    (hr : ∀ m ∈ r, (chan s m).readySince = none ∧ (m ≠ n → (chan s m).prio < (chan s n).prio))
    (hl : len = min ((chan s n).fetched.count - (chan s n).moved) (256 - ((chan s n).fetched.dst.toNat + (chan s n).moved) % 256)) :
    Runs (.burstGrant cyc r) s (fun t => (chan t n).moved = (chan s n).moved + len ∧ (chan t n).state = 1 ∧ t.courier.lastGrant = n ∧ t.courier.bursts = inc 0xFFFFFFFF s.courier.bursts ∧
      (((chan s n).fetched.xform = 0 ∨ (chan s n).moved + len < (chan s n).fetched.count) →
        t.dram = Memory.writeN 0 s.dram ((chan s n).fetched.dst.toNat + (chan s n).moved) (Memory.readN 0 s.dram ((chan s n).fetched.src.toNat + (chan s n).moved) len)) ∧
      ((chan s n).fetched.xform = 1 → (chan s n).moved = 0 → (chan s n).fetched.count = len → (chan s n).crcRun = 0xFFFFFFFF →
        (chan t n).crc = crc32c (Memory.readN 0 s.dram (chan s n).fetched.src.toNat len) ∧
        t.dram = Memory.writeN 0 (Memory.writeN 0 s.dram (chan s n).fetched.dst.toNat (Memory.readN 0 s.dram (chan s n).fetched.src.toNat len)) ((chan s n).fetched.dst.toNat + (chan s n).fetched.count)
          (natLe 4 (crc32c (Memory.readN 0 s.dram (chan s n).fetched.src.toNat len)).toNat)) ∧
      (∀ m, m ≠ n → (chan t m).moved = (chan s m).moved ∧ (chan t m).state = (chan s m).state) ∧ OnlyIn [.clock, .courier, .dram] s t) := by
  obtain ⟨w, hw⟩ := chan_grantState hlen cyc r n
  have hcopies' : CopiesDram (chan (grantState s cyc r) n) := by rw [hw]; exact ⟨hcopies.1, hcopies.2, hcopies.3, hcopies.4, hcopies.5, hcopies.6, hcopies.7, hcopies.8⟩
  have hlen' : burstLen (chan (grantState s cyc r) n) = len := by rw [burstLen_copies hcopies', hw, hl]
  have hdone : burst (grantState s cyc r) n = burstDone (grantState s cyc r) n len := hlen' ▸ burst_copies hcopies'
  have hlt : n < (grantState s cyc r).courier.channels.length := (grantState_length hlen cyc r).symm ▸ hlen ▸ chan_running_lt (.inl hcopies.running)
  have hbytes : burstBytes (grantState s cyc r) (chan (grantState s cyc r) n) len = burstBytes s (chan s n) len := by rw [hw]; rfl
  have hchan : chan (burstDone (grantState s cyc r) n len) n = burstChannel len (burstBytes s (chan s n) len) (chan (grantState s cyc r) n) := by
    rw [← hbytes]
    exact chan_modChan_same (s := { grantState s cyc r with dram := burstMemory (grantState s cyc r) (chan (grantState s cyc r) n) len }) _ hlt
  have hdram : (burstDone (grantState s cyc r) n len).dram = burstMemory s (chan s n) len := by
    have hmemory : (burstDone (grantState s cyc r) n len).dram = burstMemory (grantState s cyc r) (chan (grantState s cyc r) n) len := rfl
    rw [hmemory, hw]
    rfl
  refine ⟨_, exec_burstGrant_to (grantee_grantState hlen cyc hn hcopies.running hr), ?_⟩
  rw [hdone]
  beta_reduce
  rw [hchan, hdram, hw]
  refine ⟨rfl, rfl, rfl, rfl, fun hpart => ?_, fun hxform h0 hcount hcrc => ?_, fun m hm => ?_, ?_⟩
  · exact if_neg (by simp [burstWhole]; omega)
  · have hwhole : burstWhole (chan s n) len = true := by simp [burstWhole, hxform, hcount]
    have hbytes : burstBytes s (chan s n) len = Memory.readN 0 s.dram (chan s n).fetched.src.toNat len := by rw [burstBytes, h0, Nat.add_zero]
    refine ⟨(if_pos hwhole).trans ?_, ?_⟩
    · rw [← hbytes]
      exact burstCrc_fresh (c := { chan s n with readySince := w }) hcrc _
    · rw [burstMemory, if_pos hwhole, burstCrc_fresh hcrc, hbytes, h0, Nat.add_zero]
  · obtain ⟨w', hw'⟩ := chan_grantState hlen cyc r m
    have hkept : chan (burstDone (grantState s cyc r) n len) m = chan (grantState s cyc r) m := chan_modChan_other { grantState s cyc r with dram := burstMemory (grantState s cyc r) (chan (grantState s cyc r) n) len } _ hm
    rw [hkept, hw']
    exact ⟨rfl, rfl⟩
  · have hframe : (burstDone (grantState s cyc r) n len).outside [.clock, .courier, .dram] = (grantState s cyc r).outside [.clock, .courier, .dram] := by simp [burstDone, burstCounted, burstBegun]
    exact hframe.trans (grantState_outside s cyc r (by decide) (by decide))

/-- A channel that would write host memory pauses while bus mastering is off. -/
theorem runs_burstGrant_pauses {cyc n : Nat} {s : State} (hn : n ≤ 3) (hlen : s.courier.channels.length = 16) (hrun : (chan s n).state = 1) (harmed : (chan s n).armed = false)
    (hdst : (chan s n).fetched.dstSpace = 3) (hoff : s.cfg.busMaster = false ∨ s.cfg.powerState ≠ 0) :
    Runs (.burstGrant cyc [n]) s (fun t => (chan t n).state = 3 ∧ (chan t n).moved = (chan s n).moved ∧ OnlyIn [.clock, .courier] s t) := by
  obtain ⟨w, hw⟩ := chan_grantState hlen cyc [n] n
  have hready : n ∈ burstReady s [n] := mem_burstReady.2 ⟨List.mem_singleton_self n, .inl hrun⟩
  have honly : ∀ m ∈ burstReady s [n], m = n := fun m hm => List.mem_singleton.1 (mem_burstReady.1 hm).1
  have hlt : n < (grantState s cyc [n]).courier.channels.length := (grantState_length hlen cyc [n]).symm ▸ (by omega : n < 16)
  have hoff' : mastersOff (grantState s cyc [n]) = true := by
    have hsame : mastersOff (grantState s cyc [n]) = mastersOff s := rfl
    rw [hsame]
    simpa [mastersOff] using hoff
  have hburst : burst (grantState s cyc [n]) n = modChan (grantState s cyc [n]) n (fun c => { c with state := 3 }) := by
    unfold burst
    dsimp only
    rw [if_neg (by simp [hw, hrun]), if_neg (by simp [hw, harmed]), if_pos (by simp [hw, hdst, hoff']), if_pos hn]
  have hgrant : grantee (grantState s cyc [n]) (burstReady s [n]) = some n := grantee_only hready honly
  refine ⟨_, exec_burstGrant_to hgrant, ?_⟩
  rw [hburst]
  beta_reduce
  rw [chan_modChan_same _ hlt, hw]
  exact ⟨rfl, rfl, (modChan_outside _ _ _ (by decide)).trans (grantState_outside s cyc [n] (by decide) (by decide))⟩

theorem runs_burstGrant_none {cyc : Nat} {r : List Nat} {s : State} (h : ∀ m ∈ r, (chan s m).state = 0 ∨ (chan s m).state = 2) :
    Runs (.burstGrant cyc r) s (fun t => t.courier.bursts = s.courier.bursts ∧ t.clock = (s.at cyc).clock ∧ OnlyIn [.clock, .courier] s t) := by
  have hnone : burstReady s r = [] := List.eq_nil_iff_forall_not_mem.2 fun m hm => by
    obtain ⟨hm, hstate⟩ := mem_burstReady.1 hm
    have hidle := h m hm
    omega
  have hgrant : grantee (grantState s cyc r) (burstReady s r) = none := by rw [hnone]; rfl
  exact ⟨_, exec_burstGrant_none hgrant, rfl, rfl, grantState_outside s cyc r (by decide) (by decide)⟩

/-- Settles O59: a grant by `grantee_top` and `burst_copies`, the end of a slot by `endSlot_last`, `endSlot_waits` and `endSlot_goesOn`. -/
theorem burstsMoveBytes : Obligations.BurstsMoveBytes := by
  refine ⟨fun cyc n len r f s hn hlen hrun hr harmed hf hsrc hdst hsrcFixed hdstFixed hxform hmore hl => ?_, fun _ _ _ => runs_burstGrant_pauses, fun _ _ _ => runs_burstGrant_none,
    fun _ _ h hm => ⟨runs_slotComplete_last h hm, runs_slotComplete_waits h hm, fun _ hlast _ => runs_slotComplete_goesOn h hm hlast⟩, fun _ _ => exec_slotComplete_open,
    fun _ _ _ h hlo hhi hlast _ => runs_slotFault h hlo hhi hlast, fun _ _ _ => exec_slotFault_none⟩
  subst hf
  exact runs_burstGrant hn hlen ⟨hrun, harmed, hsrc, hdst, hsrcFixed, hdstFixed, hxform, hmore⟩ hr hl

end Sys2Proof.Machine
end

section
namespace Sys2Proof.Machine

/-! ## The map cache (O60) -/

/-! ### MAP_LOOKUP (R444–R448) -/

/-- A lookup begins: nothing is served yet. -/
def servedNone (s : State) : State := { s with map := { s.map with served := [] } }

theorem exec_mapLookup {id a w : Nat} (ecc : Nat) (s : State) (hid : id < 2 ^ 32) (ha : a < 2 ^ 39) (hw : w < 16) : exec (.mapLookup id a w ecc) s = .next (lookup false (servedNone s) id a w ecc) := by
  have hexec : exec (.mapLookup id a w ecc) s = .next (lookup false (servedNone s) (id % 2 ^ 32) (a % 2 ^ 39) (w % 16) ecc) := rfl
  rw [hexec, Nat.mod_eq_of_lt hid, Nat.mod_eq_of_lt ha, Nat.mod_eq_of_lt hw]

section
variable {s : State} {id a w ecc : Nat}

theorem lookup_victim {v : Line} (hv : s.map.victims.find? (fun v => v.set = mapSet a && v.tag = mapTag a) = some v) :
    lookup false s id a w ecc = serve { s with map := { s.map with hits := inc 0xFFFFFFFF s.map.hits, victimHits := inc 0xFFFF s.map.victimHits } } id (lineEntry v.data a) := by
  unfold lookup
  dsimp only
  rw [hv]
  rfl

/-- A lookup that finds a line, by what the ECC finds. -/
def lineServed (s : State) (l : Line) (id a ecc : Nat) : State :=
  let s : State := { s with map := { s.map with hits := inc 0xFFFFFFFF s.map.hits } }
  if ecc = 2 then
    serve (wayError { s with map := { s.map with lines := s.map.lines.filter (fun x => !(x.set = mapSet a && x.tag = mapTag a)) } } l.way 2) id (lineEntry (dramLine s a) a)
  else serve (if ecc = 1 then wayError s l.way 1 else s) id (lineEntry l.data a)

/-- A lookup that finds neither a hold register nor a line. -/
def missServed (s : State) (id a w : Nat) : State :=
  let s : State := { s with map := { s.map with misses := inc 0xFFFFFFFF s.map.misses } }
  if !s.map.ways.any (·.enabled) then serve s id (lineEntry (dramLine s a) a)
  else if s.map.fills.any (fun f => f.set = mapSet a && f.tag = mapTag a) then
    { s with map := { s.map with fills := modIf (fun f => f.set = mapSet a && f.tag = mapTag a) (fun f => { f with lookups := f.lookups ++ [(id + 2 ^ 32 * (a % 256), setGen s (mapSet a))] }) s.map.fills } }
  else
    let w := if (way s w).enabled then w else (s.map.ways.findIdx? (·.enabled)).getD 0
    let old := s.map.lines.find? (fun l => l.set = mapSet a && l.way = w)
    if old.isSome && 8 ≤ s.map.victims.length then { s with map := { s.map with waiting := s.map.waiting ++ [(id, a, w)] } }
    else
      { s with map := { s.map with
          lines := s.map.lines.filter (fun l => !(l.set = mapSet a && l.way = w))
          victims := s.map.victims ++ old.toList
          fills := s.map.fills ++ [⟨mapSet a, mapTag a, setGen s (mapSet a), w, dramLine s a, [(id + 2 ^ 32 * (a % 256), setGen s (mapSet a))], false⟩] } }

variable (hv : s.map.victims.find? (fun v => v.set = mapSet a && v.tag = mapTag a) = none)
include hv

theorem lookup_line {l : Line} (hl : s.map.lines.find? (fun l => l.set = mapSet a && l.tag = mapTag a && (way s l.way).enabled) = some l) : lookup false s id a w ecc = lineServed s l id a ecc := by
  unfold lookup
  dsimp only
  rw [hv]
  dsimp only
  rw [hl]
  rfl

theorem lookup_miss (hl : s.map.lines.find? (fun l => l.set = mapSet a && l.tag = mapTag a && (way s l.way).enabled) = none) : lookup false s id a w ecc = missServed s id a w := by
  unfold lookup
  dsimp only
  rw [hv]
  dsimp only
  rw [hl]
  rfl
end

/-! #### The error of a way (R446) -/

theorem way_lt {s : State} {w : Nat} (h : (way s w).enabled = true) : w < s.map.ways.length := by
  by_contra hw
  have hnone : way s w = { enabled := false } := by rw [way, List.drop_of_length_le (Nat.le_of_not_lt hw)]; rfl
  rw [hnone] at h
  exact absurd h Bool.false_ne_true

theorem way_mem {s : State} {w : Nat} (h : (way s w).enabled = true) : way s w ∈ s.map.ways := by
  have hw := way_lt h
  rw [way, List.headD_eq_head?_getD, List.head?_drop, List.getElem?_eq_getElem hw, Option.getD_some]
  exact List.getElem_mem hw

theorem any_enabled {s : State} {w : Nat} (h : (way s w).enabled = true) : s.map.ways.any (·.enabled) = true := List.any_eq_true.2 ⟨_, way_mem h, h⟩

/-- An error is counted, by its kind and on its way. -/
def wayCounted (s : State) (w ecc : Nat) : State :=
  { s with map := { s.map with
    corrected := if ecc = 1 then inc 0xFFFF s.map.corrected else s.map.corrected
    uncorrected := if ecc = 2 then inc 0xFFFF s.map.uncorrected else s.map.uncorrected
    ways := modAt (fun x => { x with corrected := if ecc = 1 then recent 20 s.now x.corrected ++ [s.now] else x.corrected }) w s.map.ways } }

/-- A way is to be disabled at the next boundary. -/
def wayDisabling (s : State) (w ecc : Nat) : State := { s with map := { s.map with ways := modAt (fun x => { x with disabling := x.enabled, cause := if ecc = 2 then 2 else 1 }) w s.map.ways } }

theorem wayError_eq (s : State) (w ecc : Nat) :
    wayError s w ecc = if ecc = 2 || s.ch (·.wayLimit) 4 ≤ (way (wayCounted s w ecc) w).corrected.length then wayDisabling (wayCounted s w ecc) w ecc else wayCounted s w ecc := rfl

/-- An error counts, and leaves what the cache holds and has served. -/
theorem wayError_map (s : State) (w ecc : Nat) :
    (wayError s w ecc).map.corrected = (if ecc = 1 then inc 0xFFFF s.map.corrected else s.map.corrected) ∧ (wayError s w ecc).map.uncorrected = (if ecc = 2 then inc 0xFFFF s.map.uncorrected else s.map.uncorrected) ∧
      (wayError s w ecc).map.lines = s.map.lines ∧ (wayError s w ecc).map.hits = s.map.hits ∧ (wayError s w ecc).map.served = s.map.served := by
  rw [wayError_eq, apply_ite State.map]
  split <;> exact ⟨rfl, rfl, rfl, rfl, rfl⟩

theorem way_modAt {s : State} {w : Nat} (f : Way → Way) (hw : w < s.map.ways.length) : way { s with map := { s.map with ways := modAt f w s.map.ways } } w = f (way s w) := modAt_drop_headD f _ w s.map.ways hw

/-- After an uncorrectable error an enabled way is to be disabled. -/
theorem way_wayError_uncorrectable {s : State} {w : Nat} (h : (way s w).enabled = true) : (way (wayError s w 2) w).disabling = true := by
  have hcounted : (way (wayCounted s w 2) w).enabled = true := by
    have hway : way (wayCounted s w 2) w = { way s w with corrected := (way s w).corrected } := way_modAt (fun x => { x with corrected := x.corrected }) (way_lt h)
    rw [hway]
    exact h
  rw [wayError_eq, if_pos (by simp), wayDisabling, way_modAt _ (way_lt hcounted)]
  exact hcounted

section
variable {s : State} {id a : Nat} {l : Line}

theorem lineServed_good : lineServed s l id a 0 = serve { s with map := { s.map with hits := inc 0xFFFFFFFF s.map.hits } } id (lineEntry l.data a) := rfl

theorem lineServed_corrected : (lineServed s l id a 1).map.served = s.map.served ++ [(id, lineEntry l.data a)] ∧ (lineServed s l id a 1).map.hits = inc 0xFFFFFFFF s.map.hits ∧
    (lineServed s l id a 1).map.corrected = inc 0xFFFF s.map.corrected ∧ (lineServed s l id a 1).map.lines = s.map.lines ∧ OnlyIn [.map] s (lineServed s l id a 1) := by
  obtain ⟨hcorrected, -, hlines, hhits, hserved⟩ := wayError_map { s with map := { s.map with hits := inc 0xFFFFFFFF s.map.hits } } l.way 1
  exact ⟨congrArg (· ++ _) hserved, hhits, hcorrected, hlines, by simp [OnlyIn, lineServed]⟩

theorem lineServed_uncorrected (hway : (way s l.way).enabled = true) :
    (lineServed s l id a 2).map.served = s.map.served ++ [(id, lineEntry (dramLine s a) a)] ∧ (lineServed s l id a 2).map.hits = inc 0xFFFFFFFF s.map.hits ∧
      (lineServed s l id a 2).map.uncorrected = inc 0xFFFF s.map.uncorrected ∧ (lineServed s l id a 2).map.lines = s.map.lines.filter (fun x => !(x.set = mapSet a && x.tag = mapTag a)) ∧
      (way (lineServed s l id a 2) l.way).disabling = true ∧ OnlyIn [.map] s (lineServed s l id a 2) := by
  obtain ⟨-, huncorrected, hlines, hhits, hserved⟩ := wayError_map { s with map := { s.map with hits := inc 0xFFFFFFFF s.map.hits, lines := s.map.lines.filter (fun x => !(x.set = mapSet a && x.tag = mapTag a)) } } l.way 2
  have hdisabling := way_wayError_uncorrectable (s := { s with map := { s.map with hits := inc 0xFFFFFFFF s.map.hits, lines := s.map.lines.filter (fun x => !(x.set = mapSet a && x.tag = mapTag a)) } }) hway
  exact ⟨congrArg (· ++ _) hserved, hhits, huncorrected, hlines, hdisabling, by simp [OnlyIn, lineServed]⟩
end

section
variable {s : State} {id a w : Nat}

theorem missServed_disabled (h : ∀ x ∈ s.map.ways, x.enabled = false) : missServed s id a w = serve { s with map := { s.map with misses := inc 0xFFFFFFFF s.map.misses } } id (lineEntry (dramLine s a) a) :=
  if_pos (by simpa using h)

variable (hway : (way s w).enabled = true)
include hway

theorem missServed_joins (h : ∃ f ∈ s.map.fills, f.set = mapSet a ∧ f.tag = mapTag a) :
    missServed s id a w = { s with map := { s.map with
      misses := inc 0xFFFFFFFF s.map.misses
      fills := modIf (fun f => f.set = mapSet a && f.tag = mapTag a) (fun f => { f with lookups := f.lookups ++ [(id + 2 ^ 32 * (a % 256), setGen s (mapSet a))] }) s.map.fills } } :=
  (if_neg (by simp only [any_enabled hway]; decide)).trans (if_pos (by simpa using h))

variable (hfills : ∀ f ∈ s.map.fills, f.set = mapSet a → f.tag ≠ mapTag a)
include hfills

theorem missServed_waits {old : Line} (hold : s.map.lines.find? (fun l => l.set = mapSet a && l.way = w) = some old) (hfull : 8 ≤ s.map.victims.length) :
    missServed s id a w = { s with map := { s.map with misses := inc 0xFFFFFFFF s.map.misses, waiting := s.map.waiting ++ [(id, a, w)] } } := by
  have hwayu : (if (way { s with map := { s.map with misses := inc 0xFFFFFFFF s.map.misses } } w).enabled then w else (s.map.ways.findIdx? (·.enabled)).getD 0) = w := if_pos hway
  refine (if_neg (by simp only [any_enabled hway]; decide)).trans ((if_neg (by simpa using hfills)).trans ?_)
  dsimp only
  rw [hwayu]
  exact if_pos (by simp [hold, hfull])

theorem missServed_fills {old : Option Line} (hold : s.map.lines.find? (fun l => l.set = mapSet a && l.way = w) = old) (hroom : old = none ∨ s.map.victims.length < 8) :
    missServed s id a w = { s with map := { s.map with
      misses := inc 0xFFFFFFFF s.map.misses
      victims := s.map.victims ++ old.toList
      lines := s.map.lines.filter (fun l => !(l.set = mapSet a && l.way = w))
      fills := s.map.fills ++ [⟨mapSet a, mapTag a, setGen s (mapSet a), w, dramLine s a, [(id + 2 ^ 32 * (a % 256), setGen s (mapSet a))], false⟩] } } := by
  have hwayu : (if (way { s with map := { s.map with misses := inc 0xFFFFFFFF s.map.misses } } w).enabled then w else (s.map.ways.findIdx? (·.enabled)).getD 0) = w := if_pos hway
  refine (if_neg (by simp only [any_enabled hway]; decide)).trans ((if_neg (by simpa using hfills)).trans ?_)
  dsimp only
  rw [hwayu, hold]
  refine (if_neg ?_).trans rfl
  rcases hroom with rfl | hroom
  · simp
  · simp [hroom]
end

/-! ### MAP_FILL_RETURN (R447–R449) -/

/-- The lookups of a fill, each served its entry of the line. -/
def fillEntries (f : Fill) : List (Nat × List Byte) := f.lookups.map (fun l => (l.1 % 2 ^ 32, lineEntry f.data (l.1 / 2 ^ 32)))

def fillGive (f : Fill) (s : State) (l : Nat × Nat) : State := serve s (l.1 % 2 ^ 32) (lineEntry f.data (l.1 / 2 ^ 32))

def servedMore (s : State) (es : List (Nat × List Byte)) : State := { s with map := { s.map with served := s.map.served ++ es } }

theorem foldl_fillGive (f : Fill) (ls : List (Nat × Nat)) (s : State) : ls.foldl (fillGive f) s = servedMore s (ls.map (fun l => (l.1 % 2 ^ 32, lineEntry f.data (l.1 / 2 ^ 32)))) := by
  induction ls generalizing s with
  | nil => simp [servedMore]
  | cons l ls ih =>
    rw [List.foldl_cons, ih]
    simp [fillGive, serve, servedMore]

theorem retryWaiting_none {s : State} (h : s.map.waiting = []) : retryWaiting s = s := by
  have hsame : { s.map with waiting := [] } = s.map := by rw [← h]
  rw [retryWaiting, h, hsame]
  rfl

/-- A fill has returned: it and the line it saved leave their registers. -/
def fillTaken (s : State) (a : Nat) (f : Fill) : State :=
  { s with map := { s.map with
    served := []
    fills := s.map.fills.filter (fun g => !(g.set = mapSet a && g.tag = mapTag a))
    victims := s.map.victims.filter (fun v => !(v.set = mapSet a && v.way = f.way)) } }

def lineInstalled (s : State) (a : Nat) (f : Fill) : State :=
  { s with map := { s.map with lines := s.map.lines.filter (fun l => !(l.set = mapSet a && l.way = f.way)) ++ [⟨mapSet a, f.way, mapTag a, f.data⟩] } }

/-- A line that does not pass its generation's test is stale. -/
def fillStale (s : State) (again : List (Nat × Nat)) : State := { s with map := { s.map with stale := inc 0xFFFF s.map.stale, retries := hold 0xFFFF (s.map.retries + again.length) } }

section
variable {a : Nat} {f : Fill} {s : State} (hf : s.map.fills.find? (fun f => f.set = mapSet a && f.tag = mapTag a) = some f)
include hf

theorem exec_mapFillReturn_current (hgen : f.gen = setGen s (mapSet a)) :
    exec (.mapFillReturn a) s = .next (retryWaiting (f.lookups.foldl (fillGive f) (if f.disabled || !(way s f.way).enabled then fillTaken s a f else lineInstalled (fillTaken s a f) a f))) := by
  refine congrArg Host.Outcome.next ?_
  dsimp only
  rw [hf]
  exact if_pos hgen.symm

theorem exec_mapFillReturn_stale (hgen : f.gen ≠ setGen s (mapSet a)) :
    exec (.mapFillReturn a) s = .next (retryWaiting ((f.lookups.filter (fun l => l.2 ≠ f.gen)).foldl (fun s l => lookup true s (l.1 % 2 ^ 32) (lineAddr a + l.1 / 2 ^ 32) f.way 0)
      ((f.lookups.filter (fun l => l.2 = f.gen)).foldl (fillGive f) (fillStale (fillTaken s a f) (f.lookups.filter (fun l => l.2 ≠ f.gen)))))) := by
  refine congrArg Host.Outcome.next ?_
  dsimp only
  rw [hf]
  exact if_neg (Ne.symm hgen)

variable (hw : s.map.waiting = [])
include hw

theorem runs_mapFillReturn (hgen : f.gen = setGen s (mapSet a)) (hdis : f.disabled = false) (hway : (way s f.way).enabled = true) :
    Runs (.mapFillReturn a) s (fun t => t.map.lines = s.map.lines.filter (fun l => !(l.set = mapSet a && l.way = f.way)) ++ [⟨mapSet a, f.way, mapTag a, f.data⟩] ∧ t.map.served = fillEntries f ∧
      t.map.fills = s.map.fills.filter (fun g => !(g.set = mapSet a && g.tag = mapTag a)) ∧ t.map.victims = s.map.victims.filter (fun v => !(v.set = mapSet a && v.way = f.way)) ∧ t.map.stale = s.map.stale ∧ OnlyIn [.map] s t) := by
  refine ⟨_, exec_mapFillReturn_current hf hgen, ?_⟩
  rw [if_neg (by simp [hdis, hway]), foldl_fillGive, retryWaiting_none (s := servedMore (lineInstalled (fillTaken s a f) a f) _) hw]
  exact ⟨rfl, rfl, rfl, rfl, rfl, by simp [OnlyIn, servedMore, lineInstalled, fillTaken]⟩

theorem runs_mapFillReturn_disabled (hgen : f.gen = setGen s (mapSet a)) (hdis : f.disabled = true ∨ (way s f.way).enabled = false) :
    Runs (.mapFillReturn a) s (fun t => t.map.lines = s.map.lines ∧ t.map.served = fillEntries f ∧ OnlyIn [.map] s t) := by
  refine ⟨_, exec_mapFillReturn_current hf hgen, ?_⟩
  rw [if_pos (by simpa using hdis), foldl_fillGive, retryWaiting_none (s := servedMore (fillTaken s a f) _) hw]
  exact ⟨rfl, rfl, by simp [OnlyIn, servedMore, fillTaken]⟩

theorem runs_mapFillReturn_stale (hgen : f.gen ≠ setGen s (mapSet a)) (hall : ∀ l ∈ f.lookups, l.2 = f.gen) :
    Runs (.mapFillReturn a) s (fun t => t.map.lines = s.map.lines ∧ t.map.served = fillEntries f ∧ t.map.stale = inc 0xFFFF s.map.stale ∧ OnlyIn [.map] s t) := by
  have hagain : f.lookups.filter (fun l => l.2 ≠ f.gen) = [] := List.filter_eq_nil_iff.2 fun l hl => by simp [hall l hl]
  have hgood : f.lookups.filter (fun l => l.2 = f.gen) = f.lookups := List.filter_eq_self.2 fun l hl => by simp [hall l hl]
  refine ⟨_, exec_mapFillReturn_stale hf hgen, ?_⟩
  rw [hagain, hgood, foldl_fillGive, List.foldl_nil, retryWaiting_none (s := servedMore (fillStale (fillTaken s a f) []) _) hw]
  exact ⟨rfl, rfl, rfl, by simp [OnlyIn, servedMore, fillStale, fillTaken]⟩
end

/-! ### MAP_ENTRY_CHANGE and the invalidations (R445, R448) -/

theorem setGen_bumpGen_same (s : State) (n : Nat) : setGen (bumpGen s n) n = (setGen s n + 1) % 65536 := tget_tset_same ..

theorem setGen_bumpGen_other (s : State) {n m : Nat} (h : n ≠ m) : setGen (bumpGen s m) n = setGen s n := tget_tset_other _ _ _ h.symm

/-- A set of the list has its generation advanced once. -/
theorem setGen_foldl_bumpGen {l : List Nat} (hd : l.Nodup) (s : State) (n : Nat) : setGen (l.foldl bumpGen s) n = if n ∈ l then (setGen s n + 1) % 65536 else setGen s n := by
  induction l generalizing s with
  | nil => rfl
  | cons m l ih =>
    obtain ⟨hm, hd⟩ := List.nodup_cons.1 hd
    rw [List.foldl_cons, ih hd]
    rcases eq_or_ne n m with rfl | hne
    · rw [if_neg hm, setGen_bumpGen_same, if_pos List.mem_cons_self]
    · simp [setGen_bumpGen_other s hne, hne]

/-- The generations advance alone. -/
theorem foldl_bumpGen_keeps {α : Type} {g : State → α} (hg : ∀ u n, g (bumpGen u n) = g u) (l : List Nat) (s : State) : g (l.foldl bumpGen s) = g s := foldl_keeps g fun u n => hg u n

theorem exec_mapEntryChange {a : Nat} (e : List Byte) (s : State) (ha : a < 2 ^ 39) : exec (.mapEntryChange a e) s = .next (entryChange s a e) := by
  have hexec : exec (.mapEntryChange a e) s = .next (entryChange s (a % 2 ^ 39) e) := rfl
  rw [hexec, Nat.mod_eq_of_lt ha]

theorem runs_mapEntryChange {a : Nat} {e : List Byte} {s : State} (ha : a < 2 ^ 39) (h64 : a % 64 = 0) (he : e.length = 64) :
    Runs (.mapEntryChange a e) s (fun t => t.dram = Memory.writeN 0 s.dram a e ∧ setGen t (mapSet a) = (setGen s (mapSet a) + 1) % 65536 ∧ (∀ n, n ≠ mapSet a → setGen t n = setGen s n) ∧
      t.map.lines = s.map.lines.map (fun l => if l.set = mapSet a ∧ l.tag = mapTag a then { l with data := l.data.take (a % 256) ++ e ++ l.data.drop (a % 256 + 64) } else l) ∧ t.map.fills = s.map.fills ∧ OnlyIn [.map, .dram] s t) := by
  have haligned : a / 64 * 64 = a := Nat.div_mul_cancel (Nat.dvd_of_mod_eq_zero h64)
  have hpad : padTo 64 e = e := by simp [padTo, he]
  refine ⟨_, exec_mapEntryChange e s ha, ?_⟩
  rw [entryChange, haligned, hpad]
  dsimp only
  refine ⟨rfl, setGen_bumpGen_same .., fun n hn => setGen_bumpGen_other _ hn, ?_, rfl, by simp [OnlyIn]⟩
  have hupd : ∀ l : Line, (if (decide (l.set = mapSet a) && decide (l.tag = mapTag a)) = true then { l with data := l.data.take (a % 256) ++ e ++ l.data.drop (a % 256 + 64) } else l) =
      if l.set = mapSet a ∧ l.tag = mapTag a then { l with data := l.data.take (a % 256) ++ e ++ l.data.drop (a % 256 + 64) } else l := fun l => by simp only [Bool.and_eq_true, decide_eq_true_eq]
  exact List.map_congr_left fun l _ => hupd l

theorem runs_mapInvalidateLine {a : Nat} {s : State} (hw : writesTaken s = true) (ha : s.map.invalAddr = a) :
    Runs .mapInvalidateLine s (fun t => (∀ l, l ∈ t.map.lines ↔ l ∈ s.map.lines ∧ ¬ (l.set = mapSet a ∧ l.tag = mapTag a)) ∧ (∀ l, l ∈ t.map.victims ↔ l ∈ s.map.victims ∧ ¬ (l.set = mapSet a ∧ l.tag = mapTag a)) ∧
      setGen t (mapSet a) = (setGen s (mapSet a) + 1) % 65536 ∧ (∀ n, n ≠ mapSet a → setGen t n = setGen s n) ∧ t.map.fills = s.map.fills ∧ OnlyIn [.map] s t) := by
  subst ha
  refine ⟨invalidateLine s s.map.invalAddr, congrArg Host.Outcome.next (if_pos hw), fun l => ?_, fun l => ?_, setGen_bumpGen_same .., fun n hn => setGen_bumpGen_other _ hn, rfl, by simp [OnlyIn]⟩
  · exact List.mem_filter.trans (by simp [imp_iff_not_or])
  · exact List.mem_filter.trans (by simp [imp_iff_not_or])

theorem runs_mapInvalidateAll {s : State} (hw : writesTaken s = true) :
    Runs .mapInvalidateAll s (fun t => t.map.lines = [] ∧ t.map.victims = [] ∧ (∀ n < 1024, setGen t n = (setGen s n + 1) % 65536) ∧ t.map.fills = s.map.fills ∧ OnlyIn [.map] s t) := by
  refine ⟨invalidateAll s, congrArg Host.Outcome.next (if_pos hw), ?_, ?_, fun n hn => ?_, ?_, by simp [OnlyIn]⟩
  · rw [invalidateAll, foldl_bumpGen_keeps (g := fun u => u.map.lines) fun _ _ => rfl]
  · rw [invalidateAll, foldl_bumpGen_keeps (g := fun u => u.map.victims) fun _ _ => rfl]
  · rw [invalidateAll, setGen_foldl_bumpGen List.nodup_range, if_pos (List.mem_range.2 hn)]
    rfl
  · rw [invalidateAll, foldl_bumpGen_keeps (g := fun u => u.map.fills) fun _ _ => rfl]

/-- Settles O60: a lookup by `lookup_victim`, `lookup_line` and `lookup_miss`, a fill by the generation of its set, the changes by `setGen_foldl_bumpGen`. -/
theorem mapCacheServes : Obligations.MapCacheServes := by
  refine ⟨fun id a w ecc s hid ha hw => ?_, fun _ _ _ hf hw => ⟨runs_mapFillReturn hf hw, runs_mapFillReturn_disabled hf hw, runs_mapFillReturn_stale hf hw⟩,
    fun _ _ _ => runs_mapEntryChange, fun _ _ => runs_mapInvalidateLine, fun _ => runs_mapInvalidateAll⟩
  have hexec := exec_mapLookup ecc s hid ha hw
  refine ⟨fun v hv => hexec.trans (congrArg _ (lookup_victim (s := servedNone s) hv)), fun hv => ⟨fun l hl => ?_, fun hl => ?_⟩⟩
  · have hline := hexec.trans (congrArg _ (lookup_line (s := servedNone s) hv hl))
    have hway : (way s l.way).enabled = true := by
      have hfound := List.find?_some hl
      simp only [Bool.and_eq_true] at hfound
      exact hfound.2
    refine ⟨fun he => ?_, fun he => ?_, fun he => ?_⟩ <;> subst he
    · exact hline
    · exact ⟨_, hline, lineServed_corrected (s := servedNone s)⟩
    · exact ⟨_, hline, lineServed_uncorrected (s := servedNone s) hway⟩
  · have hmiss := hexec.trans (congrArg _ (lookup_miss (s := servedNone s) hv hl))
    exact ⟨fun h => hmiss.trans (congrArg _ (missServed_disabled (s := servedNone s) h)), fun hway h => hmiss.trans (congrArg _ (missServed_joins (s := servedNone s) hway h)), fun hway h =>
      ⟨fun old hold hfull => hmiss.trans (congrArg _ (missServed_waits (s := servedNone s) hway h hold hfull)), fun old hold hroom => hmiss.trans (congrArg _ (missServed_fills (s := servedNone s) hway h hold hroom))⟩⟩

end Sys2Proof.Machine
end

section
namespace Sys2Proof.Machine

/-! ## Vaults: the vaults, their objects and the device's own audits (O47) -/

/-! ### The vaults and their objects -/

theorem findVault_modVault (s : State) (v : Nat) {f : Vault → Vault} (hf : ∀ x, (f x).volume = x.volume) : findVault (modVault s v f) v = (findVault s v).map f := find?_modIf _ _ (fun x => by simp [hf]) _

theorem findVault_modVault_some {s : State} {v : Nat} {x : Vault} {f : Vault → Vault} (hf : ∀ x, (f x).volume = x.volume) (h : findVault s v = some x) : findVault (modVault s v f) v = some (f x) := by
  rw [findVault_modVault s v hf, h, Option.map_some]

/-- What leaves a vault's objects leaves what a key finds. -/
theorem findObj_modVault (s : State) (v : Nat) (k : Key) {f : Vault → Vault} (hf : ∀ x, (f x).volume = x.volume) (hobj : ∀ x, (f x).objects = x.objects) : findObj (modVault s v f) v k = findObj s v k := by
  rw [findObj, findVault_modVault s v hf, findObj]
  cases findVault s v with
  | none => rfl
  | some x => simp [hobj]

theorem findObj_modObj (s : State) (v : Nat) (k : Key) {f : Object → Object} (hf : ∀ o, (f o).key = o.key) : findObj (modObj s v k f) v k = (findObj s v k).map f := by
  rw [findObj, modObj, findVault_modVault s v (f := fun x => { x with objects := modIf (fun o => o.key = k) f x.objects }) (fun _ => rfl), findObj]
  cases findVault s v with
  | none => rfl
  | some x => exact find?_modIf _ _ (fun o => by simp [hf]) _

theorem findVault_of_vaults {s t : State} (h : t.vaults.vaults = s.vaults.vaults) (v : Nat) : findVault t v = findVault s v := by rw [findVault, h, findVault]

theorem findVault_volume {s : State} {v : Nat} {x : Vault} (h : findVault s v = some x) : x.volume = v := by
  simpa using List.find?_some h

theorem findObj_key {s : State} {v : Nat} {k : Key} {o : Object} (h : findObj s v k = some o) : o.key = k := by
  obtain ⟨x, -, ho⟩ := Option.bind_eq_some_iff.1 h
  simpa using List.find?_some ho

/-! ### An audit's outcome (R342–R344) -/

/-- An object of the audited place and time takes the time of the audit. -/
def auditStamp (t : Nat) (o x : Object) : Object := if x.first = o.first && x.ingest = o.ingest then { x with lastAudit := t } else x

theorem auditStamp_key (t : Nat) (o x : Object) : (auditStamp t o x).key = x.key := by
  unfold auditStamp
  split <;> rfl

theorem auditPassed_eq {s : State} {v : Nat} {x : Vault} (h : findVault s v = some x) (o : Object) : auditPassed s v o = modObj s v o.key (auditStamp x.timeMs o) := by
  rw [auditPassed, h]
  rfl

theorem findVault_auditPassed {s : State} {v : Nat} {x : Vault} (h : findVault s v = some x) (o : Object) :
    findVault (auditPassed s v o) v = some { x with objects := modIf (fun p => p.key = o.key) (auditStamp x.timeMs o) x.objects } := by
  rw [auditPassed_eq h]
  exact findVault_modVault_some (f := fun x' => { x' with objects := modIf (fun p => p.key = o.key) (auditStamp x.timeMs o) x'.objects }) (fun _ => rfl) h

theorem findObj_auditPassed {s : State} {v : Nat} {x : Vault} (h : findVault s v = some x) {k : Key} {o : Object} (ho : findObj s v k = some o) :
    findObj (auditPassed s v o) v k = some { o with lastAudit := x.timeMs } := by
  have hkey := findObj_key ho
  subst hkey
  have hstamp : auditStamp x.timeMs o o = { o with lastAudit := x.timeMs } := if_pos (by simp)
  rw [auditPassed_eq h, findObj_modObj s v o.key (auditStamp_key _ _), ho, Option.map_some, hstamp]

theorem auditPassed_rest (s : State) (v : Nat) (o : Object) : (auditPassed s v o).vaults.jobs = s.vaults.jobs ∧ (auditPassed s v o).vaults.repairs = s.vaults.repairs := ⟨rfl, rfl⟩

/-- The object that an audit found good has the audit's time. -/
theorem lastAudit_auditPassed {s : State} {v : Nat} {x y : Vault} {o p : Object} (h : findVault s v = some x) (hy : findVault (auditPassed s v o) v = some y) (hp : p ∈ y.objects) (hkey : p.key = o.key)
    (hfirst : p.first = o.first) (hingest : p.ingest = o.ingest) : p.lastAudit = x.timeMs := by
  obtain rfl := Option.some.inj ((findVault_auditPassed h o).symm.trans hy)
  rw [modIf_eq_map] at hp
  obtain ⟨q, -, rfl⟩ := List.mem_map.1 hp
  by_cases hq : q.key = o.key
  · rw [if_pos (decide_eq_true hq)] at hfirst hingest ⊢
    unfold auditStamp at hfirst hingest ⊢
    split
    · rfl
    next hne =>
      rw [if_neg hne] at hfirst hingest
      exact absurd (by simp [hfirst, hingest]) hne
  · rw [if_neg (by simpa using hq)] at hkey
    exact absurd hkey hq

/-- A mismatch is counted and listed for repair. -/
theorem vaultMismatch_spec (s : State) (v : Nat) (o : Object) :
    findVault (vaultMismatch s v o) v = (findVault s v).map (fun x => { x with failed := inc 0xFFFF x.failed }) ∧ (∃ r ∈ (vaultMismatch s v o).vaults.repairs, r.vault = v ∧ r.key = o.key) ∧
      (vaultMismatch s v o).vaults.jobs = s.vaults.jobs := by
  have hvault := findVault_modVault s v (f := fun x => { x with failed := inc 0xFFFF x.failed }) (fun _ => rfl)
  unfold vaultMismatch
  dsimp only
  split
  next hlisted =>
    obtain ⟨r, hr, hkey⟩ := List.any_eq_true.1 hlisted
    exact ⟨hvault, ⟨r, hr, by simpa using hkey⟩, rfl⟩
  next => exact ⟨hvault, ⟨_, List.mem_append_right _ List.mem_cons_self, rfl, rfl⟩, rfl⟩

/-! ### Sources at hand -/

/-- Every block of a run is at hand: none is read from a member, waits, or is lost. -/
def AtHand (src : List (Nat × Source)) : Prop := ∀ e ∈ src, e.2 = .zero ∨ ∃ b p, e.2 = .data b p

section
variable {src : List (Nat × Source)} (h : AtHand src)
include h

theorem AtHand.no_wait : src.any (fun e => e.2 = .wait) = false := by
  refine List.any_eq_false.2 fun e he => ?_
  rcases h e he with hz | ⟨b, p, hd⟩ <;> simp [*]

theorem AtHand.needs : sourceNeeds src = [] := by
  refine List.filterMap_eq_nil_iff.2 fun e he => ?_
  rcases h e he with hz | ⟨b, p, hd⟩ <;> simp [*]

theorem AtHand.lost : sourceLost src = [] := by
  have hnone : src.filterMap (fun e => match e.2 with
      | .beyond bs => some bs
      | _ => none) = [] := by
    refine List.filterMap_eq_nil_iff.2 fun e he => ?_
    rcases h e he with hz | ⟨b, p, hd⟩ <;> simp [*]
  rw [sourceLost]
  exact congrArg List.eraseDups hnone
end

/-! ### A job over sources at hand (R343, R344) -/

/-- The job of an audit whose blocks are all at hand. -/
def handJob (id v : Nat) (o : Object) (second : Bool) (src : List (Nat × Source)) : VaultJob :=
  { id, vault := v, obj := o, needs := [], data := sourceData src, lost := [], groups := [], issued := false, second }

theorem jobOver_atHand {src : List (Nat × Source)} (h : AtHand src) (s : State) (v : Nat) (o : Object) (second : Bool) :
    jobOver s v o second src = { s with vaults := { s.vaults with jobs := s.vaults.jobs ++ [handJob s.vaults.nextJob v o second src], nextJob := s.vaults.nextJob + 1 } } := by
  rw [jobOver, if_neg (by simp [h.no_wait]), h.needs, h.lost]
  rfl

theorem tagId_jobTag (id : Nat) : tagId (jobTag id) = id := by
  rw [tagId, jobTag]
  omega

theorem needsOf_jobTag (s : State) (id : Nat) : needsOf s (jobTag id) = ((findJob s id).map (·.needs)).getD [] := by
  have hcmd : tagIsCmd (jobTag id) = false := decide_eq_false (by rw [jobTag]; omega)
  have hjob : tagIsJob (jobTag id) = true := Bool.and_eq_true_iff.2 ⟨decide_eq_true (by rw [jobTag]; omega), decide_eq_true (by rw [jobTag]; omega)⟩
  rw [needsOf, hcmd, hjob, tagId_jobTag]
  rfl

/-- A job's outcome, once it is known whether the object agrees. -/
def jobOutcome (s : State) (j : VaultJob) (good : Bool) : State :=
  if !j.second then (if good then auditPassed s j.vault j.obj else vaultMismatch s j.vault j.obj)
  else
    let s : State := { s with vaults := { s.vaults with repairs := s.vaults.repairs.filter (fun r => !(r.vault = j.vault && r.key = j.obj.key)) } }
    if good then
      modObj (modVault (auditPassed s j.vault j.obj) j.vault (fun x => { x with repaired := inc 0xFFFF x.repaired })) j.vault j.obj.key (fun x => { x with state := 1 })
    else
      let s := modVault s j.vault (fun x => { x with failed := inc 0xFFFF x.failed })
      fireKey (modObj s j.vault j.obj.key (fun x => { x with state := 2 })) 0x15 1 j.vault [] j.obj.key true

/-- A job leaves the list as it ends. -/
def jobDropped (s : State) (id : Nat) : State :=
  { markDelivered s (jobTag id) [] with vaults := { (markDelivered s (jobTag id) []).vaults with jobs := (markDelivered s (jobTag id) []).vaults.jobs.filter (fun k => k.id ≠ id) } }

theorem jobDone_atHand {s : State} {id : Nat} {j : VaultJob} (hj : findJob s id = some j) (hissued : j.issued = true) (hneeds : j.needs = []) (hlost : j.lost = [])
    (hloss : ∀ b ∈ checkBlocks j.obj (List.range (segCount j.obj.size)), lossAt s j.vault (b + j.obj.first) = false) :
    jobDone s id = jobOutcome (jobDropped s id) j (objectAgrees j.obj j.data) := by
  have hpending : lossPending s j.vault [] = [] := by
    have hnone : s.degrade.loss.filter (fun e => (!e.durable || s.now ≤ e.durableAt) && [].any (e.names j.vault)) = [] := List.filter_eq_nil_iff.2 fun e _ => by simp
    rw [lossPending, hnone]
    rfl
  have hwhole : ((checkBlocks j.obj (List.range (segCount j.obj.size))).map (· + j.obj.first)).any (fun b => lossAt s j.vault b || [].contains b) = false := by
    refine List.any_eq_false.2 fun x hx => ?_
    obtain ⟨b, hb, rfl⟩ := List.mem_map.1 hx
    simp [hloss b hb]
  unfold jobDone
  rw [hj]
  dsimp only
  rw [hneeds, hlost, hpending, if_neg (by simp [hissued]), hwhole, runData, List.foldl_nil, Bool.not_false, Bool.true_and]
  rfl

/-- The audits that wait no more: the job is issued, and its vault asks for no windows. -/
def jobIssued (s : State) (j : VaultJob) : State := modJob (dropDemand s (.vaultAudit j.vault)) j.id (fun j => { j with issued := true })

theorem jobIssued_jobs {s : State} {j : VaultJob} (hjobs : s.vaults.jobs = [j]) : (jobIssued s j).vaults.jobs = [{ j with issued := true }] := by
  have hlist : (jobIssued s j).vaults.jobs = modIf (fun k => k.id = j.id) (fun j => { j with issued := true }) s.vaults.jobs := rfl
  rw [hlist, hjobs, modIf, modIf, if_pos (by simp)]

theorem findJob_jobIssued {s : State} {j : VaultJob} (hjobs : s.vaults.jobs = [j]) : findJob (jobIssued s j) j.id = some { j with issued := true } := by
  rw [findJob, jobIssued_jobs hjobs]
  exact List.find?_cons_of_pos (by simp)

/-- A job that needs no member read is issued and ends. -/
theorem jobsBoundary_one {s : State} {j : VaultJob} (hjobs : s.vaults.jobs = [j]) (hwaits : j.issued = false) (hgroups : j.groups = []) (hneeds : j.needs = []) (hopfin : opfin s = true)
    (hpower : s.power.state < 2) (hfenced : s.pair.fenced = false) : jobsBoundary s = jobDone (jobIssued s j) j.id := by
  have hresume : resumeNeeds (jobIssued s j) (jobTag j.id) = jobIssued s j := by
    have hnone : needsOf (jobIssued s j) (jobTag j.id) = [] := by
      rw [needsOf_jobTag, findJob_jobIssued hjobs]
      exact hneeds
    rw [resumeNeeds, hnone, List.foldl_nil]
  have hfilter : s.vaults.jobs.filter (fun j => !j.issued) = [j] := by simp [hjobs, hwaits]
  rw [jobsBoundary, hfilter, List.foldl_cons, List.foldl_nil, if_neg (by simp [hfenced, hopfin, hpower]), if_pos (by simp [hgroups])]
  exact congrArg (jobDone · j.id) hresume

/-- The one job of an audit whose blocks are at hand is begun. -/
def handBegun (s : State) (v : Nat) (o : Object) (second : Bool) (src : List (Nat × Source)) : State :=
  { s with vaults := { s.vaults with jobs := [handJob s.vaults.nextJob v o second src], nextJob := s.vaults.nextJob + 1 } }

/-- The state in which that audit's outcome is decided. -/
def handAudited (s : State) (v : Nat) (o : Object) (second : Bool) (src : List (Nat × Source)) : State :=
  jobDropped (jobIssued (handBegun s v o second src) (handJob s.vaults.nextJob v o second src)) s.vaults.nextJob

theorem handAudited_vaults (s : State) (v : Nat) (o : Object) (second : Bool) (src : List (Nat × Source)) :
    (handAudited s v o second src).vaults.vaults = s.vaults.vaults ∧ (handAudited s v o second src).vaults.repairs = s.vaults.repairs ∧ (handAudited s v o second src).vaults.jobs = [] := by
  have hlist : (handAudited s v o second src).vaults.jobs = (jobIssued (handBegun s v o second src) (handJob s.vaults.nextJob v o second src)).vaults.jobs.filter (fun k => k.id ≠ s.vaults.nextJob) := rfl
  refine ⟨rfl, rfl, ?_⟩
  rw [hlist, jobIssued_jobs rfl]
  simp [handJob]

/-- An audit whose blocks are at hand ends as it begins. -/
theorem audit_atHand {s : State} {v : Nat} {o : Object} {src : List (Nat × Source)} (second : Bool) (hopfin : opfin s = true) (hpower : s.power.state < 2) (hfenced : s.pair.fenced = false) (hjobs : s.vaults.jobs = [])
    (hsrc : src = runSources s v o (checkBlocks o (List.range (segCount o.size))) (fun _ => true)) (hhand : AtHand src)
    (hloss : ∀ b ∈ checkBlocks o (List.range (segCount o.size)), lossAt s v (b + o.first) = false) :
    jobsBoundary (startJob s v o second) = jobOutcome (handAudited s v o second src) { handJob s.vaults.nextJob v o second src with issued := true } (objectAgrees o (sourceData src)) := by
  have hstart : startJob s v o second = handBegun s v o second src := by
    rw [startJob, ← hsrc, jobOver_atHand hhand, hjobs]
    rfl
  have hbegun := jobsBoundary_one (s := handBegun s v o second src) (j := handJob s.vaults.nextJob v o second src) rfl rfl rfl rfl hopfin hpower hfenced
  rw [hstart, hbegun]
  exact jobDone_atHand (findJob_jobIssued (s := handBegun s v o second src) rfl) rfl rfl rfl hloss

/-! ### BACKGROUND_AUDIT (R343) -/

theorem jobOutcome_first {u : State} {j : VaultJob} (h : j.second = false) (good : Bool) : jobOutcome u j good = if good then auditPassed u j.vault j.obj else vaultMismatch u j.vault j.obj := by
  rw [jobOutcome, if_pos (by simp [h])]

theorem exec_backgroundAudit {v a : Nat} {x : Vault} {o : Object} {s : State} (hopfin : opfin s = true) (hx : findVault s v = some x) (honline : x.online = true) (hpower : s.power.state < 2) (hjobs : s.vaults.jobs = [])
    (ha : minOf (x.objects.map (fun o => o.lastAudit)) = some a) (ho : x.objects.find? (fun o => o.lastAudit = a) = some o) :
    exec (.backgroundAudit v) s = .next (jobsBoundary (startJob s v o false)) := by
  refine congrArg Host.Outcome.next ((if_pos hopfin).trans ?_)
  unfold backgroundAudit
  rw [hx]
  dsimp only
  rw [if_neg (by simp [honline, hpower, hjobs]), ha]
  dsimp only
  rw [ho]

theorem runs_backgroundAudit {v a : Nat} {x : Vault} {o : Object} {src : List (Nat × Source)} {s : State} (hopfin : opfin s = true) (hx : findVault s v = some x) (honline : x.online = true)
    (hpower : s.power.state < 2) (hfenced : s.pair.fenced = false) (hjobs : s.vaults.jobs = []) (ha : minOf (x.objects.map (fun o => o.lastAudit)) = some a) (ho : x.objects.find? (fun o => o.lastAudit = a) = some o)
    (hsrc : src = runSources s v o (checkBlocks o (List.range (segCount o.size))) (fun _ => true)) (hhand : AtHand src)
    (hloss : ∀ b ∈ checkBlocks o (List.range (segCount o.size)), lossAt s v (b + o.first) = false) :
    Runs (.backgroundAudit v) s (fun t => t.vaults.jobs = [] ∧
      (objectAgrees o (sourceData src) = true → ∀ y, findVault t v = some y → ∀ p ∈ y.objects, p.key = o.key → p.first = o.first → p.ingest = o.ingest → p.lastAudit = x.timeMs) ∧
      (objectAgrees o (sourceData src) = false → (findVault t v).map (fun y => y.failed) = some (inc 0xFFFF x.failed) ∧ ∃ r ∈ t.vaults.repairs, r.vault = v ∧ r.key = o.key)) := by
  obtain ⟨hvaults, -, hdone⟩ := handAudited_vaults s v o false src
  have hx' : findVault (handAudited s v o false src) v = some x := (findVault_of_vaults hvaults v).trans hx
  refine ⟨_, exec_backgroundAudit hopfin hx honline hpower hjobs ha ho, ?_⟩
  rw [audit_atHand false hopfin hpower hfenced hjobs hsrc hhand hloss, jobOutcome_first rfl]
  cases hagrees : objectAgrees o (sourceData src) with
  | true => exact ⟨hdone, fun _ y hy p hp hkey hfirst hingest => lastAudit_auditPassed hx' hy hp hkey hfirst hingest, fun hbad => absurd hbad (by simp)⟩
  | false =>
    obtain ⟨hvault, hlisted, hkept⟩ := vaultMismatch_spec (handAudited s v o false src) v o
    refine ⟨hkept.trans hdone, fun hgood => absurd hgood (by simp), fun _ => ⟨?_, hlisted⟩⟩
    have hcounted := hvault.trans (congrArg (Option.map fun x : Vault => { x with failed := inc 0xFFFF x.failed }) hx')
    exact congrArg (Option.map fun y : Vault => y.failed) hcounted

theorem exec_backgroundAudit_none {v : Nat} {s : State} (h : opfin s = false ∨ 2 ≤ s.power.state ∨ ∃ j ∈ s.vaults.jobs, j.vault = v) : exec (.backgroundAudit v) s = .next s := by
  refine congrArg Host.Outcome.next ?_
  split
  next hopfin =>
    unfold backgroundAudit
    split
    · rfl
    · rcases h with h | h | ⟨j, hj, hv⟩
      · exact absurd hopfin (by simp [h])
      · exact if_pos (by simp [h])
      · exact if_pos (by simpa using Or.inr ⟨j, hj, hv⟩)
  · rfl

/-! ### DIGEST_MISMATCH_REPAIR (R344) -/

/-- An object's repair leaves the list. -/
def repairDropped (u : State) (v : Nat) (k : Key) : State := { u with vaults := { u.vaults with repairs := u.vaults.repairs.filter (fun r => !(r.vault = v && r.key = k)) } }

/-- The second audit found the object good, or Damaged. -/
def objectRepaired (u : State) (v : Nat) (o : Object) : State := modObj (modVault (auditPassed u v o) v (fun x => { x with repaired := inc 0xFFFF x.repaired })) v o.key (fun x => { x with state := 1 })

def objectDamaged (u : State) (v : Nat) (o : Object) : State := modObj (modVault u v (fun x => { x with failed := inc 0xFFFF x.failed })) v o.key (fun x => { x with state := 2 })

theorem jobOutcome_second {u : State} {j : VaultJob} (h : j.second = true) (good : Bool) :
    jobOutcome u j good = if good then objectRepaired (repairDropped u j.vault j.obj.key) j.vault j.obj
      else fireKey (objectDamaged (repairDropped u j.vault j.obj.key) j.vault j.obj) 0x15 1 j.vault [] j.obj.key true := by
  rw [jobOutcome, if_neg (by simp [h])]
  rfl

theorem objectRepaired_spec {u : State} {v : Nat} {k : Key} {x : Vault} {o : Object} (hx : findVault u v = some x) (ho : findObj u v k = some o) :
    (findVault (objectRepaired u v o) v).map (fun y => y.repaired) = some (inc 0xFFFF x.repaired) ∧ (findObj (objectRepaired u v o) v k).map (fun p => p.state) = some 1 := by
  have hkey := findObj_key ho
  subst hkey
  constructor
  · have hpassed := findVault_auditPassed hx o
    rw [objectRepaired, modObj, findVault_modVault_some (f := fun y => { y with objects := modIf (fun p => p.key = o.key) (fun p => { p with state := 1 }) y.objects }) (fun _ => rfl)
      (findVault_modVault_some (f := fun y => { y with repaired := inc 0xFFFF y.repaired }) (fun _ => rfl) hpassed)]
    rfl
  · rw [objectRepaired, findObj_modObj (f := fun p => { p with state := 1 }) _ v o.key (fun _ => rfl),
      findObj_modVault (f := fun x => { x with repaired := inc 0xFFFF x.repaired }) _ v o.key (fun _ => rfl) (fun _ => rfl), findObj_auditPassed hx ho]
    rfl

theorem objectDamaged_spec {u : State} {v : Nat} {k : Key} {x : Vault} {o : Object} (hx : findVault u v = some x) (ho : findObj u v k = some o) :
    (findVault (objectDamaged u v o) v).map (fun y => y.failed) = some (inc 0xFFFF x.failed) ∧ (findObj (objectDamaged u v o) v k).map (fun p => p.state) = some 2 := by
  have hkey := findObj_key ho
  subst hkey
  constructor
  · rw [objectDamaged, modObj, findVault_modVault_some (f := fun y => { y with objects := modIf (fun p => p.key = o.key) (fun p => { p with state := 2 }) y.objects }) (fun _ => rfl)
      (findVault_modVault_some (f := fun y => { y with failed := inc 0xFFFF y.failed }) (fun _ => rfl) hx)]
    rfl
  · rw [objectDamaged, findObj_modObj (f := fun p => { p with state := 2 }) _ v o.key (fun _ => rfl),
      findObj_modVault (f := fun x => { x with failed := inc 0xFFFF x.failed }) _ v o.key (fun _ => rfl) (fun _ => rfl), ho]
    rfl

theorem findObj_of_vaults {s t : State} (h : t.vaults.vaults = s.vaults.vaults) (v : Nat) (k : Key) : findObj t v k = findObj s v k := by rw [findObj, findVault_of_vaults h, findObj]

theorem exec_digestMismatchRepair {v : Nat} {k : Key} {r : VaultRepair} {o : Object} {s : State} (hopfin : opfin s = true) (hr : s.vaults.repairs.find? (fun r => r.vault = v && r.key = k) = some r) (hleft : r.left = [])
    (ho : findObj s v k = some o) (hpower : s.power.state < 2) (hjobs : s.vaults.jobs = []) : exec (.digestMismatchRepair v k) s = .next (jobsBoundary (startJob s v o true)) := by
  refine congrArg Host.Outcome.next ((if_pos hopfin).trans ?_)
  rw [digestRepair, hr, ho]
  exact if_neg (by simp [hleft, hpower, hjobs])

theorem runs_digestMismatchRepair {v : Nat} {k : Key} {r : VaultRepair} {x : Vault} {o : Object} {src : List (Nat × Source)} {s : State} (hopfin : opfin s = true)
    (hr : s.vaults.repairs.find? (fun r => r.vault = v && r.key = k) = some r) (hleft : r.left = []) (hx : findVault s v = some x) (ho : findObj s v k = some o) (hpower : s.power.state < 2)
    (hfenced : s.pair.fenced = false) (hjobs : s.vaults.jobs = []) (hsrc : src = runSources s v o (checkBlocks o (List.range (segCount o.size))) (fun _ => true)) (hhand : AtHand src)
    (hloss : ∀ b ∈ checkBlocks o (List.range (segCount o.size)), lossAt s v (b + o.first) = false) :
    Runs (.digestMismatchRepair v k) s (fun t => t.vaults.jobs = [] ∧ (∀ q ∈ t.vaults.repairs, q.vault = v → q.key ≠ k) ∧
      (objectAgrees o (sourceData src) = true → (findVault t v).map (fun y => y.repaired) = some (inc 0xFFFF x.repaired) ∧ (findObj t v k).map (fun p => p.state) = some 1) ∧
      (objectAgrees o (sourceData src) = false → (findVault t v).map (fun y => y.failed) = some (inc 0xFFFF x.failed) ∧ (findObj t v k).map (fun p => p.state) = some 2)) := by
  have hkey := findObj_key ho
  obtain ⟨hvaults, -, hdone⟩ := handAudited_vaults s v o true src
  have hx' : findVault (repairDropped (handAudited s v o true src) v o.key) v = some x := (findVault_of_vaults (t := repairDropped (handAudited s v o true src) v o.key) hvaults v).trans hx
  have ho' : findObj (repairDropped (handAudited s v o true src) v o.key) v k = some o := (findObj_of_vaults (t := repairDropped (handAudited s v o true src) v o.key) hvaults v k).trans ho
  have hrepairs : ∀ q ∈ (repairDropped (handAudited s v o true src) v o.key).vaults.repairs, q.vault = v → q.key ≠ k := by
    intro q hq hv hk
    have hkept := (List.mem_filter.1 hq).2
    simp [hv, hk, hkey] at hkept
  refine ⟨_, exec_digestMismatchRepair hopfin hr hleft ho hpower hjobs, ?_⟩
  rw [audit_atHand true hopfin hpower hfenced hjobs hsrc hhand hloss, jobOutcome_second rfl]
  cases hagrees : objectAgrees o (sourceData src) with
  | true => exact ⟨hdone, hrepairs, fun _ => objectRepaired_spec hx' ho', fun hbad => absurd hbad (by simp)⟩
  | false =>
    rw [if_neg Bool.false_ne_true]
    have hfired := same_vaults (fireKey_outside (ps := [.daybook]) (objectDamaged (repairDropped (handAudited s v o true src) v o.key) v o) 0x15 1 v [] o.key true (by decide)) (by decide)
    have hspec := objectDamaged_spec hx' ho'
    rw [← findVault_of_vaults (congrArg Vaults.vaults hfired), ← findObj_of_vaults (congrArg Vaults.vaults hfired)] at hspec
    refine ⟨(congrArg Vaults.jobs hfired).trans hdone, fun q hq => hrepairs q ?_, fun hgood => absurd hgood (by simp), fun _ => hspec⟩
    exact (congrArg Vaults.repairs hfired) ▸ hq

theorem exec_digestMismatchRepair_scrubs {v : Nat} {k : Key} {r : VaultRepair} {s : State} (hr : s.vaults.repairs.find? (fun r => r.vault = v && r.key = k) = some r) (hleft : r.left ≠ []) :
    exec (.digestMismatchRepair v k) s = .next s := by
  refine congrArg Host.Outcome.next ?_
  split
  · rw [digestRepair, hr]
    split
    next hr' _ =>
      obtain rfl := Option.some.inj hr'
      exact if_pos (by simp [hleft])
    · rfl
  · rfl

/-! ### SESSION_IDLE_EXPIRY (R337) -/

theorem runs_sessionIdleExpiry {n : Nat} {x : Session} {s : State} (hx : findSession s n = some x) (hidle : x.lastUse + 2 ^ s.ch (fun c => c.sessionIdleLog) 27 < s.now) :
    Runs (.sessionIdleExpiry n) s (fun t => findSession t n = none ∧ t.vaults.sessions = s.vaults.sessions.filter (fun y => y.number ≠ n) ∧
      findVault t x.vault = (findVault s x.vault).map (fun v => { v with abandoned := inc 0xFFFF v.abandoned }) ∧ OnlyIn [.vaults] s t) := by
  refine ⟨modVault (dropSession s n) x.vault (fun v => { v with abandoned := inc 0xFFFF v.abandoned }), ?_, ?_, rfl, ?_, by simp [OnlyIn, modVault, dropSession]⟩
  · refine congrArg Host.Outcome.next ?_
    rw [hx]
    exact if_pos hidle
  · exact List.find?_eq_none.2 fun y hy => by simpa using (List.mem_filter.1 hy).2
  · exact findVault_modVault (dropSession s n) x.vault (f := fun v => { v with abandoned := inc 0xFFFF v.abandoned }) fun _ => rfl

theorem exec_sessionIdleExpiry_used {n : Nat} {x : Session} {s : State} (hx : findSession s n = some x) (hused : s.now ≤ x.lastUse + 2 ^ s.ch (fun c => c.sessionIdleLog) 27) :
    exec (.sessionIdleExpiry n) s = .next s := by
  refine congrArg Host.Outcome.next ?_
  rw [hx]
  exact if_neg (Nat.not_lt.2 hused)

/-! ### VAULT_TIME_TICK (R328, R331) -/

/-- The superblock as it is written: the copy with the lower generation takes the next one. -/
def superWritten (now : Nat) (x : Vault) : Vault :=
  let a := x.supers.getD 0 (0, 0)
  let b := x.supers.getD 1 (0, 0)
  let n := (max a.1 b.1 + 1, x.timeMs)
  { x with supers := if a.1 ≤ b.1 then [n, b] else [a, n], lastStore := now }

theorem findVault_writeSuper {s : State} {v : Nat} {x : Vault} (h : findVault s v = some x) : findVault (writeSuper s v) v = some (superWritten s.now x) :=
  findVault_modVault_some (f := superWritten s.now) (fun _ => rfl) h

theorem superWritten_two {now : Nat} {x : Vault} {a b : Nat × Nat} (h : x.supers = [a, b]) :
    superWritten now x = { x with supers := if a.1 ≤ b.1 then [(b.1 + 1, x.timeMs), b] else [a, (a.1 + 1, x.timeMs)], lastStore := now } := by
  rw [superWritten, h]
  by_cases hab : a.1 ≤ b.1
  · simp [hab]
  · have hmax : max a.1 b.1 = a.1 := max_eq_left (by omega)
    simp [hab, hmax]

/-- A millisecond of vault time. -/
def msTicked (s : State) (v : Nat) : State := modVault s v (fun x => { x with timeMs := x.timeMs + 1 })

theorem findVault_msTicked {s : State} {v : Nat} {x : Vault} (hx : findVault s v = some x) : findVault (msTicked s v) v = some { x with timeMs := x.timeMs + 1 } :=
  findVault_modVault_some (f := fun x => { x with timeMs := x.timeMs + 1 }) (fun _ => rfl) hx

theorem vaultTick_served {v : Nat} {x : Vault} {s : State} (hx : findVault s v = some x) (honline : x.online = true) (hstate : (vol s v).state = 2 ∨ (vol s v).state = 3) (hrole : s.pair.role = 0 ∨ s.pair.role = 1) :
    vaultTick s v = if decide (x.lastStore + 2 ^ 24 ≤ s.now) then writeSuper (msTicked s v) v else msTicked s v := by
  have hdue : (findVault (msTicked s v) v).any (fun x => x.lastStore + 2 ^ 24 ≤ (msTicked s v).now) = decide (x.lastStore + 2 ^ 24 ≤ s.now) := by
    rw [findVault_msTicked hx, Option.any_some]
    rfl
  rw [← hdue]
  exact if_pos (by simp [hx, honline, hstate, hrole])

theorem runs_vaultTimeTick {v : Nat} {x : Vault} {a b : Nat × Nat} {s : State} (hx : findVault s v = some x) (honline : x.online = true) (hstate : (vol s v).state = 2 ∨ (vol s v).state = 3)
    (hrole : s.pair.role = 0 ∨ s.pair.role = 1) (hsupers : x.supers = [a, b]) :
    Runs (.vaultTimeTick v) s (fun t => findVault t v = some (if x.lastStore + 2 ^ 24 ≤ s.now then
        { x with timeMs := x.timeMs + 1, lastStore := s.now, supers := if a.1 ≤ b.1 then [(b.1 + 1, x.timeMs + 1), b] else [a, (a.1 + 1, x.timeMs + 1)] }
      else { x with timeMs := x.timeMs + 1 }) ∧ OnlyIn [.vaults] s t) := by
  have hticked := findVault_msTicked hx
  refine ⟨vaultTick s v, rfl, ?_⟩
  rw [vaultTick_served hx honline hstate hrole]
  by_cases hdue : x.lastStore + 2 ^ 24 ≤ s.now
  · rw [if_pos (decide_eq_true hdue), if_pos hdue]
    refine ⟨(findVault_writeSuper hticked).trans (congrArg some ?_), by simp [OnlyIn, msTicked]⟩
    exact superWritten_two (x := { x with timeMs := x.timeMs + 1 }) hsupers
  · rw [if_neg fun h => hdue (of_decide_eq_true h), if_neg hdue]
    exact ⟨hticked, by simp [OnlyIn, msTicked]⟩

theorem exec_vaultTimeTick_away {v : Nat} {s : State} (h2 : (vol s v).state ≠ 2) (h3 : (vol s v).state ≠ 3) : exec (.vaultTimeTick v) s = .next s := congrArg Host.Outcome.next (if_neg (by simp [h2, h3]))

/-! ### VAULT_INDEX_WALK_END (R328, R331) -/

/-- The good superblock copies that a walk found. -/
def goodSupers (x : Vault) (good : List Nat) : List (Nat × Nat) := ((good.filter (· < 2)).map (fun i => x.supers.getD i (0, 0))).filter (fun c => 0 < c.1)

/-- A volume comes up behind the walk, once the part runs. -/
def volumeUp (s : State) (v : Nat) : State := if s.chip.step = 15 then setVolume s v (fun y => { y with state := if y.state = 1 && y.offReason = 0 then 2 else y.state }) else s

theorem volumeUp_vaults (s : State) (v : Nat) : (volumeUp s v).vaults = s.vaults := by
  unfold volumeUp
  split
  · exact same_vaults (setVolume_outside (ps := [.vols, .ints, .link, .hostMem]) _ _ _ (by decide) (by decide) (by decide) (by decide)) (by decide)
  · rfl

theorem vol_setVolume (s : State) (v : Nat) (f : Volume → Volume) : vol (setVolume s v f) v = f (vol s v) := by
  unfold setVolume
  dsimp only
  split
  · exact tget_tset_same ..
  · rw [vol, same_vols (s := { s with vols := tset s.vols v (f (vol s v)) }) (mgmtCause_outside (ps := [.ints, .link, .hostMem]) _ _ (by decide) (by decide) (by decide)) (by decide)]
    exact tget_tset_same ..

theorem vol_volumeUp {s : State} {v : Nat} (hstep : s.chip.step = 15) (hstate : (vol s v).state = 1) (hreason : (vol s v).offReason = 0) : vol (volumeUp s v) v = { vol s v with state := 2 } := by
  rw [volumeUp, if_pos hstep, vol_setVolume, if_pos (by simp [hstate, hreason])]

section
variable {v : Nat} {x : Vault} {good : List Nat} {s : State} (hx : findVault s v = some x) (hoff : x.online = false) (hbad : x.superBad = false)
include hx hoff hbad

theorem walkEnd_bad (hnone : goodSupers x good = []) (hbands : ∃ d ∈ s.bands, d.volume = v) : walkEnd s v good = fire (modVault s v (fun x => { x with superBad := true })) 0x15 2 v [] false := by
  unfold walkEnd
  rw [hx]
  dsimp only
  rw [if_neg (by simp [hoff, hbad])]
  change (if (goodSupers x good).isEmpty && _ then _ else if (goodSupers x good).isEmpty then _ else _) = _
  rw [hnone]
  exact if_pos (by simpa using hbands)

theorem walkEnd_fresh (hnone : goodSupers x good = []) (hbands : ∀ d ∈ s.bands, d.volume ≠ v) :
    walkEnd s v good = volumeUp (writeSuper (modVault s v (fun x => { x with online := true, objects := [], timeMs := 0, supers := [(0, 0), (0, 0)] })) v) v := by
  unfold walkEnd
  rw [hx]
  dsimp only
  rw [if_neg (by simp [hoff, hbad])]
  change (if (goodSupers x good).isEmpty && _ then _ else if (goodSupers x good).isEmpty then volumeUp _ v else _) = _
  rw [hnone]
  exact (if_neg (by simpa using hbands)).trans (if_pos rfl)

theorem walkEnd_good (hsome : goodSupers x good ≠ []) :
    walkEnd s v good = volumeUp (modVault s v (fun y => { y with online := true, timeMs := (((goodSupers x good).find? (fun c => c.1 = maxOf ((goodSupers x good).map (·.1)))).map (·.2)).getD 0, lastStore := s.now })) v := by
  unfold walkEnd
  rw [hx]
  dsimp only
  rw [if_neg (by simp [hoff, hbad])]
  change (if (goodSupers x good).isEmpty && _ then _ else if (goodSupers x good).isEmpty then _ else volumeUp (modVault s v (fun y => { y with online := true, timeMs := (((goodSupers x good).find? (fun c => c.1 = maxOf ((goodSupers x good).map (·.1)))).map (·.2)).getD 0, lastStore := s.now })) v) = _
  rw [if_neg (by simp [hsome]), if_neg (by simp [hsome])]
end

theorem mem_goodSupers {x : Vault} {a b d : Nat × Nat} {good : List Nat} (h : x.supers = [a, b]) : d ∈ goodSupers x good ↔ (0 ∈ good ∧ d = a ∨ 1 ∈ good ∧ d = b) ∧ 0 < d.1 := by
  simp only [goodSupers, List.mem_filter, List.mem_map, h, decide_eq_true_eq]
  refine and_congr_left fun _ => ⟨?_, ?_⟩
  · rintro ⟨i, ⟨hi, hlt⟩, rfl⟩
    have hi2 : i = 0 ∨ i = 1 := by omega
    rcases hi2 with rfl | rfl
    · exact .inl ⟨hi, rfl⟩
    · exact .inr ⟨hi, rfl⟩
  · rintro (⟨hi, rfl⟩ | ⟨hi, rfl⟩)
    · exact ⟨0, ⟨hi, by decide⟩, rfl⟩
    · exact ⟨1, ⟨hi, by decide⟩, rfl⟩

theorem goodSupers_none {x : Vault} {a b : Nat × Nat} {good : List Nat} (h : x.supers = [a, b]) (hnone : ∀ i ∈ good, 2 ≤ i) : goodSupers x good = [] := by
  refine List.eq_nil_iff_forall_not_mem.2 fun d hd => ?_
  rcases (mem_goodSupers h).1 hd with ⟨⟨h0, -⟩ | ⟨h1, -⟩, -⟩
  · exact absurd (hnone 0 h0) (by decide)
  · exact absurd (hnone 1 h1) (by decide)

/-- The vault time of the one copy above all others. -/
theorem superTime_top {l : List (Nat × Nat)} {c : Nat × Nat} (hc : c ∈ l) (htop : ∀ d ∈ l, d.1 ≤ c.1 ∧ (d.1 = c.1 → d = c)) :
    ((l.find? (fun d => d.1 = maxOf (l.map (·.1)))).map (·.2)).getD 0 = c.2 := by
  have hmax : maxOf (l.map (·.1)) = c.1 := by
    refine maxOf_top (List.mem_map_of_mem hc) fun n hn => ?_
    obtain ⟨d, hd, rfl⟩ := List.mem_map.1 hn
    exact (htop d hd).1
  rw [hmax]
  cases hfound : l.find? (fun d => d.1 = c.1) with
  | none => exact absurd (List.find?_eq_none.1 hfound c hc) (by simp)
  | some d =>
    obtain rfl := (htop d (List.mem_of_find?_eq_some hfound)).2 (by simpa using List.find?_some hfound)
    rfl

/-- The copy in force: the one good copy above all others. -/
theorem walkEnd_inForce {v : Nat} {x : Vault} {good : List Nat} {s : State} {c : Nat × Nat} (hx : findVault s v = some x) (hoff : x.online = false) (hbad : x.superBad = false) (hc : c ∈ goodSupers x good) (htop : ∀ d ∈ goodSupers x good, d.1 ≤ c.1 ∧ (d.1 = c.1 → d = c)) :
    walkEnd s v good = volumeUp (modVault s v (fun y => { y with online := true, timeMs := c.2, lastStore := s.now })) v := by
  rw [walkEnd_good hx hoff hbad (List.ne_nil_of_mem hc), superTime_top hc htop]

theorem runs_vaultIndexWalkEnd_inForce {v : Nat} {x : Vault} {good : List Nat} {s : State} {c : Nat × Nat} (hx : findVault s v = some x) (hoff : x.online = false) (hbad : x.superBad = false) (hc : c ∈ goodSupers x good) (htop : ∀ d ∈ goodSupers x good, d.1 ≤ c.1 ∧ (d.1 = c.1 → d = c)) :
    Runs (.vaultIndexWalkEnd v good) s (fun t => findVault t v = some { x with online := true, timeMs := c.2, lastStore := s.now } ∧
      (s.chip.step = 15 → (vol s v).state = 1 → (vol s v).offReason = 0 → vol t v = { vol s v with state := 2 })) := by
  refine ⟨walkEnd s v good, rfl, ?_⟩
  rw [walkEnd_inForce hx hoff hbad hc htop]
  constructor
  · refine (findVault_of_vaults (congrArg Vaults.vaults (volumeUp_vaults _ v)) v).trans ?_
    exact findVault_modVault_some (f := fun x => { x with online := true, timeMs := c.2, lastStore := s.now }) (fun _ => rfl) hx
  · exact fun hstep hstate hreason => vol_volumeUp (s := modVault s v (fun y => { y with online := true, timeMs := c.2, lastStore := s.now })) hstep hstate hreason

/-- The only good copy is in force. -/
theorem runs_vaultIndexWalkEnd_one {v : Nat} {x : Vault} {good : List Nat} {s : State} {c : Nat × Nat} (hx : findVault s v = some x) (hoff : x.online = false) (hbad : x.superBad = false) (hc : c ∈ goodSupers x good) (honly : ∀ d ∈ goodSupers x good, d = c) :
    Runs (.vaultIndexWalkEnd v good) s (fun t => findVault t v = some { x with online := true, timeMs := c.2, lastStore := s.now }) := by
  obtain ⟨t, hexec, hvault, -⟩ := runs_vaultIndexWalkEnd_inForce hx hoff hbad hc fun d hd => honly d hd ▸ ⟨le_refl _, fun _ => rfl⟩
  exact ⟨t, hexec, hvault⟩

section
variable {v : Nat} {x : Vault} {a b : Nat × Nat} {good : List Nat} {s : State} (hx : findVault s v = some x) (hoff : x.online = false) (hbad : x.superBad = false) (hsupers : x.supers = [a, b])
include hx hoff hbad hsupers

theorem runs_vaultIndexWalkEnd_bad (hnone : ∀ i ∈ good, 2 ≤ i) (hbands : ∃ d ∈ s.bands, d.volume = v) :
    Runs (.vaultIndexWalkEnd v good) s (fun t => findVault t v = some { x with superBad := true } ∧ vol t v = vol s v) := by
  refine ⟨walkEnd s v good, rfl, ?_⟩
  rw [walkEnd_bad hx hoff hbad (goodSupers_none hsupers hnone) hbands]
  have hframe := fire_outside (ps := [.daybook]) (modVault s v (fun x => { x with superBad := true })) 0x15 2 v [] false (by decide)
  constructor
  · rw [findVault_of_vaults (congrArg Vaults.vaults (same_vaults hframe (by decide)))]
    exact findVault_modVault_some (f := fun x => { x with superBad := true }) (fun _ => rfl) hx
  · rw [vol, same_vols hframe (by decide)]
    rfl

theorem runs_vaultIndexWalkEnd_fresh (hnone : ∀ i ∈ good, 2 ≤ i) (hbands : ∀ d ∈ s.bands, d.volume ≠ v) :
    Runs (.vaultIndexWalkEnd v good) s (fun t => findVault t v = some { x with online := true, objects := [], timeMs := 0, supers := [(1, 0), (0, 0)], lastStore := s.now }) := by
  have hfresh := findVault_modVault_some (f := fun x => { x with online := true, objects := [], timeMs := 0, supers := [(0, 0), (0, 0)] }) (fun _ => rfl) hx
  refine ⟨walkEnd s v good, rfl, ?_⟩
  rw [walkEnd_fresh hx hoff hbad (goodSupers_none hsupers hnone) hbands]
  exact (findVault_of_vaults (congrArg Vaults.vaults (volumeUp_vaults _ v)) v).trans (findVault_writeSuper hfresh)

theorem runs_vaultIndexWalkEnd_both (ha : 0 < a.1) (hb : 0 < b.1) (h0 : 0 ∈ good) (h1 : 1 ∈ good) (hne : a.1 ≠ b.1) :
    Runs (.vaultIndexWalkEnd v good) s (fun t => findVault t v = some { x with online := true, timeMs := if a.1 < b.1 then b.2 else a.2, lastStore := s.now } ∧
      (s.chip.step = 15 → (vol s v).state = 1 → (vol s v).offReason = 0 → vol t v = { vol s v with state := 2 })) := by
  have hmem : ∀ d ∈ goodSupers x good, d = a ∨ d = b := fun d hd => ((mem_goodSupers hsupers).1 hd).1.imp And.right And.right
  by_cases hab : a.1 < b.1
  · rw [if_pos hab]
    refine runs_vaultIndexWalkEnd_inForce hx hoff hbad ((mem_goodSupers hsupers).2 ⟨.inr ⟨h1, rfl⟩, hb⟩) fun d hd => ?_
    rcases hmem d hd with rfl | rfl
    · exact ⟨hab.le, fun heq => absurd heq hne⟩
    · exact ⟨le_refl _, fun _ => rfl⟩
  · rw [if_neg hab]
    refine runs_vaultIndexWalkEnd_inForce hx hoff hbad ((mem_goodSupers hsupers).2 ⟨.inl ⟨h0, rfl⟩, ha⟩) fun d hd => ?_
    rcases hmem d hd with rfl | rfl
    · exact ⟨le_refl _, fun _ => rfl⟩
    · exact ⟨Nat.le_of_not_lt hab, fun heq => absurd heq.symm hne⟩

theorem runs_vaultIndexWalkEnd_first (ha : 0 < a.1) (h0 : 0 ∈ good) (h1 : 1 ∉ good) :
    Runs (.vaultIndexWalkEnd v good) s (fun t => findVault t v = some { x with online := true, timeMs := a.2, lastStore := s.now }) :=
  runs_vaultIndexWalkEnd_one hx hoff hbad ((mem_goodSupers hsupers).2 ⟨.inl ⟨h0, rfl⟩, ha⟩) fun _ hd => (((mem_goodSupers hsupers).1 hd).1.resolve_right fun h => h1 h.1).2

theorem runs_vaultIndexWalkEnd_second (hb : 0 < b.1) (h1 : 1 ∈ good) (h0 : 0 ∉ good) :
    Runs (.vaultIndexWalkEnd v good) s (fun t => findVault t v = some { x with online := true, timeMs := b.2, lastStore := s.now }) :=
  runs_vaultIndexWalkEnd_one hx hoff hbad ((mem_goodSupers hsupers).2 ⟨.inr ⟨h1, rfl⟩, hb⟩) fun _ hd => (((mem_goodSupers hsupers).1 hd).1.resolve_left fun h => h0 h.1).2
end

theorem exec_vaultIndexWalkEnd_online {v : Nat} {x : Vault} {good : List Nat} {s : State} (hx : findVault s v = some x) (honline : x.online = true) : exec (.vaultIndexWalkEnd v good) s = .next s := by
  refine congrArg Host.Outcome.next ?_
  rw [walkEnd, hx]
  exact if_pos (by simp [honline])

/-- Settles O47: the device's own audits by `audit_atHand` and their outcomes, the superblock in force by `superTime_top`. -/
theorem vaultsAreKept : Obligations.VaultsAreKept :=
  ⟨fun _ _ _ => runs_sessionIdleExpiry, fun _ _ _ => exec_sessionIdleExpiry_used, fun _ _ _ _ _ _ => runs_backgroundAudit, fun _ _ => exec_backgroundAudit_none, fun _ _ _ _ _ _ _ => runs_digestMismatchRepair,
    fun _ _ _ _ => exec_digestMismatchRepair_scrubs, fun _ _ _ _ _ => runs_vaultTimeTick, fun _ _ => exec_vaultTimeTick_away,
    fun _ _ _ _ _ _ hx hoff hbad hsupers => ⟨runs_vaultIndexWalkEnd_bad hx hoff hbad hsupers, runs_vaultIndexWalkEnd_fresh hx hoff hbad hsupers, runs_vaultIndexWalkEnd_both hx hoff hbad hsupers,
      runs_vaultIndexWalkEnd_first hx hoff hbad hsupers, runs_vaultIndexWalkEnd_second hx hoff hbad hsupers⟩, fun _ _ _ _ => exec_vaultIndexWalkEnd_online⟩

end Sys2Proof.Machine
end

section
namespace Sys2Proof.Machine

/-! ## Vaults: GET, STAT, LIST and AUDIT OBJECT (O46) -/

/-! ### The readers' row (R338, R339, R345) -/

/-- A reader's command, from its start until its blocks are asked for. -/
def readerCmd (s : State) (op tag : Nat) : Option Cmd := cmdIn s tag (fun c => (c.phase = .started || c.phase = .waiting) && c.hdr.opcode = op && !c.failed)

theorem exec_reader {op tag : Nat} {i : Instr} (h : (op, i) ∈ [(0x43, Instr.get tag), (0x44, .stat tag), (0x47, .list tag), (0x48, .auditObject tag)]) (s : State) : exec i s = .next (vaultReader s op tag) := by
  simp only [List.mem_cons, Prod.mk.injEq, List.not_mem_nil, or_false] at h
  rcases h with ⟨rfl, rfl⟩ | ⟨rfl, rfl⟩ | ⟨rfl, rfl⟩ | ⟨rfl, rfl⟩ <;> rfl

section
variable {s : State} {op tag : Nat} {c : Cmd} (hc : readerCmd s op tag = some c)
include hc

theorem readerCmd_opcode : c.hdr.opcode = op := by
  have hp := (Option.filter_eq_some_iff.1 hc).2
  simp only [Bool.and_eq_true, decide_eq_true_eq] at hp
  exact hp.1.2

theorem readerCmd_found : findCmd s tag = some c := findCmd_of_cmdIn hc

theorem vaultReader_waits (hahead : vaultAhead s c Cmd.vaultWrite = true) : vaultReader s op tag = modCmd s tag (fun c => { c with phase := .waiting }) := by
  have hc : cmdIn s tag _ = some c := hc
  rw [vaultReader, hc]
  exact if_pos hahead

variable (hfree : vaultAhead s c Cmd.vaultWrite = false)
include hfree

theorem vaultReader_noKey (hop : op ≠ 0x47) (ho : findObj s c.hdr.volume c.hdr.key = none) : vaultReader s op tag = finish s tag 0x70 2 [] := by
  have hc : cmdIn s tag _ = some c := hc
  rw [vaultReader, hc]
  dsimp only
  rw [if_neg (by simp [hfree]), if_neg hop, ho]

theorem vaultReader_list (hop : op = 0x47) : vaultReader s op tag = listRow s c := by
  have hc : cmdIn s tag _ = some c := hc
  rw [vaultReader, hc]
  dsimp only
  rw [if_neg (by simp [hfree]), if_pos hop]

theorem vaultReader_object {o : Object} (hop : op ≠ 0x47) (ho : findObj s c.hdr.volume c.hdr.key = some o) :
    vaultReader s op tag = if op = 0x44 then finishData s tag (Memory.ofBytes (indexEntry o)) 256 []
      else if op = 0x43 then (if o.size < c.hdr.lba + c.hdr.blocks then finish s tag 0x10 3 [] else readObject s c o (checkBlocks o (touched c.hdr.lba c.hdr.blocks)))
      else readObject s c o (checkBlocks o (List.range (segCount o.size))) := by
  have hc : cmdIn s tag _ = some c := hc
  rw [vaultReader, hc]
  dsimp only
  rw [if_neg (by simp [hfree]), if_neg hop, ho]
end

/-! ### LIST (R339) -/

theorem listEntry_length (o : Object) : (listEntry o).length = 64 := by simp [listEntry, padTo_length]

theorem listEntries_length (os : List Object) : (os.flatMap listEntry).length = 64 * os.length := by
  simp [List.length_flatMap, listEntry_length, mul_comm]

theorem listRow_eq {s : State} {c : Cmd} {x : Vault} {n : Nat} (hx : findVault s c.hdr.volume = some x)
    (hn : n = countIf (fun (o : Object) => beNat c.hdr.key < beNat o.key || beNat c.hdr.key = beNat o.key && !bit c.hdr.flags 0) x.objects) :
    ∃ data, listRow s c = finishData s c.hdr.tag data (64 * min c.hdr.blocks n) (natLe 4 (min c.hdr.blocks n) ++ natLe 1 (b1 (c.hdr.blocks < n))) := by
  have hrest : ((x.objects.mergeSort (fun a b => decide (beNat a.key ≤ beNat b.key))).filter (fun o => beNat c.hdr.key < beNat o.key || beNat c.hdr.key = beNat o.key && !bit c.hdr.flags 0)).length = n :=
    ((List.mergeSort_perm x.objects _).filter _).length_eq.trans hn.symm
  have hmore : decide (min c.hdr.blocks n < n) = decide (c.hdr.blocks < n) := decide_eq_decide.2 (by omega)
  unfold listRow
  rw [hx]
  dsimp only [Option.map_some, Option.getD_some]
  rw [listEntries_length, List.length_take, hrest, hmore]
  exact ⟨_, rfl⟩

theorem finishData_spec {s : State} {tag : Nat} {c : Cmd} (data : Cells) (len : Nat) (result : List Byte) (h : findCmd s tag = some c) :
    Ended (finishData s tag data len result) tag 0 0 result ∧ (findCmd (finishData s tag data len result) tag).map (fun e => (e.data, e.dataLen)) = some (data, len) := by
  obtain ⟨hended, k, hk, hdata, hlen⟩ := ended_finishData data len result h
  refine ⟨hended, ?_⟩
  rw [hk, Option.map_some, hdata, hlen]

theorem finishData_frame (s : State) (tag : Nat) (data : Cells) (len : Nat) (result : List Byte) : OnlyIn [.cmds, .returns] s (finishData s tag data len result) := by simp [OnlyIn]

theorem finish_frame (s : State) (tag status detail : Nat) (result : List Byte) : OnlyIn [.cmds, .returns] s (finish s tag status detail result) := by simp [OnlyIn]

/-! ### A reader takes an object whose blocks are at hand (R338, R342) -/

/-- A reader that has all its blocks. -/
def readerFilled (o : Object) (data : Cells) (pins : List Nat) (c : Cmd) : Cmd := { c with data, pins, needs := [], lost := [], finds := [], groups := [], obj := some o, phase := .busy }

theorem lossPending_none {s : State} {v : Nat} {bs : List Nat} (h : ∀ b ∈ bs, lossAt s v b = false) : lossPending s v bs = [] := by
  have hnone : s.degrade.loss.filter (fun e => (!e.durable || s.now ≤ e.durableAt) && bs.any (e.names v)) = [] := by
    refine List.filter_eq_nil_iff.2 fun e he => ?_
    have hnames : bs.any (e.names v) = false := List.any_eq_false.2 fun b hb => List.any_eq_false.1 (h b hb) e he
    simp [hnames]
  rw [lossPending, hnone]
  rfl

/-- The bytes of records that a reader keeps until it has taken them. -/
def sourcePins (src : List (Nat × Source)) : List Nat :=
  (src.filterMap (fun e => match e.2 with
    | .data _ p => p
    | _ => none)).eraseDups

theorem readObject_atHand {s : State} {c : Cmd} {o : Object} {blocks : List Nat} {src : List (Nat × Source)} (hc : findCmd s c.hdr.tag = some c) (hsrc : src = runSources s c.hdr.volume o blocks (before s c))
    (hhand : AtHand src) (hloss : ∀ b ∈ blocks, lossAt s c.hdr.volume (b + o.first) = false) :
    ∃ (u : State) (pins : List Nat), readObject s c o blocks = blockDone u c.hdr.tag ∧ findCmd u c.hdr.tag = some (readerFilled o (sourceData src) pins c) ∧ OnlyIn [.cmds] s u := by
  have hfinds : lossPending s c.hdr.volume (blocks.map (· + o.first)) = [] := lossPending_none fun b hb => by
    obtain ⟨b, hmem, rfl⟩ := List.mem_map.1 hb
    exact hloss b hmem
  have hfound : findCmd (modCmd s c.hdr.tag (readerFilled o (sourceData src) (sourcePins src))) c.hdr.tag = some (readerFilled o (sourceData src) (sourcePins src) c) := findCmd_modCmd_of_hdr (fun _ => rfl) hc
  have hrow : readObject s c o blocks = if !s.pair.fenced then readIssue (modCmd s c.hdr.tag (readerFilled o (sourceData src) (sourcePins src))) c.hdr.tag
      else blockDone (modCmd s c.hdr.tag (readerFilled o (sourceData src) (sourcePins src))) c.hdr.tag := by
    have hnothing : rewriteSources (recordLosses s c.hdr.volume []) c.hdr.volume o [] = s := rfl
    have htaken : runSources s c.hdr.volume o blocks (fun r => recLt r { seq := 0, kind := 1, pos := c.pos, rank := s.ledger.rank }) = src := hsrc.symm
    unfold readObject
    dsimp only
    rw [htaken, if_neg (by simp [hhand.no_wait]), hhand.needs, hhand.lost]
    rw [hnothing, hfinds]
    rfl
  cases hfenced : s.pair.fenced with
  | true => exact ⟨_, _, hrow.trans (if_neg (by simp [hfenced])), hfound, by simp [OnlyIn]⟩
  | false =>
    refine ⟨modCmd (modCmd s c.hdr.tag (readerFilled o (sourceData src) (sourcePins src))) c.hdr.tag (fun c => { c with phase := .busy }), _, hrow.trans ((if_pos (by simp [hfenced])).trans ?_),
      (findCmd_busy hfound).trans rfl, by simp [OnlyIn]⟩
    rw [readIssue, hfound]
    rfl

/-- A reader of a vault that is no READ and no VERIFY: it ends by `vaultDone`. -/
theorem blockDone_vault {u : State} {tag : Nat} {c : Cmd} (hc : findCmd u tag = some c) (hop : c.hdr.opcode = 0x43 ∨ c.hdr.opcode = 0x48) : blockDone u tag = vaultDone u tag := by
  have hread : readDone u tag = u := by
    rw [readDone, cmdIn_none_of hc]
    rcases hop with h | h <;> simp [h]
  rw [blockDone, hread]

theorem countUnrecorded_none (s : State) (v : Nat) : countUnrecorded s v [] = s := rfl

/-- The bytes that the digests of segments are taken over. -/
def hashedBytes (o : Object) (segs : List Nat) : Nat := sumOf (fun k => min o.size ((k + 1) * segBytes) - k * segBytes) segs

/-- A reader has taken its blocks: it keeps none. -/
def blocksTaken (u : State) (tag : Nat) : State := modCmd (markDelivered u tag []) tag (fun c => { c with pins := [], needs := [], data := [] })

theorem blocksTaken_frame (u : State) (tag : Nat) : (blocksTaken u tag).outside [.cmds, .drives, .degrade] = u.outside [.cmds, .drives, .degrade] := by simp [blocksTaken]

theorem findVault_blocksTaken (u : State) (tag v : Nat) : findVault (blocksTaken u tag) v = findVault u v := rfl

section
variable {u : State} {tag : Nat} {c : Cmd} {h : Hdr} {data : Cells} {o : Object} (hc : findCmd u tag = some c) (hh : c.hdr = h) (hdata : c.data = data) (hbusy : c.phase = .busy) (hobj : c.obj = some o) (hneeds : c.needs = []) (hfinds : c.finds = []) (hlost : c.lost = [])
include hc hh hdata hbusy hobj hneeds hfinds hlost

theorem vaultDone_get (hop : h.opcode = 0x43) (hloss : ∀ b ∈ checkBlocks o (touched h.lba h.blocks), lossAt u h.volume (b + o.first) = false) :
    vaultDone u tag =
      let w := modCmd (blocksTaken u tag) tag (fun e => { e with data := Memory.slice data h.lba (h.lba + h.blocks), dataLen := h.blocks })
      let res := natLe 8 (hashedBytes o (touched h.lba h.blocks)) ++ natLe 4 (touched h.lba h.blocks).length
      if digestsAgree o (touched h.lba h.blocks) data then finish w tag 0 0 res else finish (vaultMismatch w h.volume o) tag 0x70 6 res := by
  subst hh hdata
  have hin : cmdIn u tag (fun c => c.phase = .busy && (c.hdr.opcode = 0x43 || c.hdr.opcode = 0x48)) = some c := cmdIn_of hc (by simp [hbusy, hop])
  have hopen : findsOpen u c = false := by rw [findsOpen, hfinds]; rfl
  have hwhole : ((checkBlocks o (touched c.hdr.lba c.hdr.blocks)).map (· + o.first)).filter (fun b => lossAt u c.hdr.volume b || c.lost.contains b) = [] := by
    refine List.filter_eq_nil_iff.2 fun x hx => ?_
    obtain ⟨b, hb, rfl⟩ := List.mem_map.1 hx
    simp [hloss b hb, hlost]
  unfold vaultDone
  rw [hin]
  dsimp only
  rw [hobj]
  dsimp only
  rw [hop, if_pos rfl, if_pos rfl, hwhole, hneeds, hopen, runData, List.foldl_nil, if_neg (by simp), countUnrecorded_none, minOf]
  dsimp only
  rw [hashedBytes]
  rfl

theorem vaultDone_audit (hop : h.opcode = 0x48) (hloss : ∀ b ∈ checkBlocks o (List.range (segCount o.size)), lossAt u h.volume (b + o.first) = false) :
    vaultDone u tag =
      let w := blocksTaken u tag
      let res := natLe 8 (hashedBytes o (List.range (segCount o.size))) ++ natLe 8 (((findVault u h.volume).map (·.timeMs)).getD 0)
      if objectAgrees o data then finish (auditPassed w h.volume o) tag 0 0 res else finish (vaultMismatch w h.volume o) tag 0x70 9 res := by
  subst hh hdata
  have hin : cmdIn u tag (fun c => c.phase = .busy && (c.hdr.opcode = 0x43 || c.hdr.opcode = 0x48)) = some c := cmdIn_of hc (by simp [hbusy, hop])
  have hopen : findsOpen u c = false := by rw [findsOpen, hfinds]; rfl
  have hwhole : ((checkBlocks o (List.range (segCount o.size))).map (· + o.first)).filter (fun b => lossAt u c.hdr.volume b || c.lost.contains b) = [] := by
    refine List.filter_eq_nil_iff.2 fun x hx => ?_
    obtain ⟨b, hb, rfl⟩ := List.mem_map.1 hx
    simp [hloss b hb, hlost]
  have hop' : ¬c.hdr.opcode = 0x43 := by omega
  unfold vaultDone
  rw [hin]
  dsimp only
  rw [hobj]
  dsimp only
  rw [if_neg hop', if_neg hop', hwhole, hneeds, hopen, runData, List.foldl_nil, if_neg (by simp), countUnrecorded_none, List.isEmpty_nil, Bool.true_and]
  rw [hashedBytes, ← findVault_blocksTaken u tag]
  rfl
end

theorem findCmd_blocksTaken {u : State} {tag : Nat} {c : Cmd} (hc : findCmd u tag = some c) : findCmd (blocksTaken u tag) tag = some { c with pins := [], needs := [], data := [] } :=
  findCmd_modCmd_of_hdr (s := markDelivered u tag []) (f := fun c => { c with pins := [], needs := [], data := [] }) (fun _ => rfl) hc

theorem findCmd_vaultMismatch (s : State) (v : Nat) (o : Object) (tag : Nat) : findCmd (vaultMismatch s v o) tag = findCmd s tag :=
  findCmd_of_cmds (same_cmds (vaultMismatch_outside (ps := [.drives, .vaults]) _ _ _ (by decide) (by decide)) (by decide))

theorem finish_spec {s : State} {tag : Nat} {c : Cmd} (status detail : Nat) (result : List Byte) (h : findCmd s tag = some c) :
    Ended (finish s tag status detail result) tag status detail result ∧ (findCmd (finish s tag status detail result) tag).map (fun e => (e.data, e.dataLen)) = some (c.data, c.dataLen) ∧
      (finish s tag status detail result).vaults = s.vaults := by
  obtain ⟨p, hp, hfound⟩ := findCmd_finish status detail result h
  exact ⟨⟨_, hfound, hp, rfl, rfl, rfl⟩, by rw [hfound]; rfl, same_vaults (finish_frame ..) (by decide)⟩

/-- What a mismatch lists, whatever its command ends with. -/
theorem finish_vaultMismatch_repairs {s : State} {tag : Nat} {c : Cmd} (v : Nat) (o : Object) (status detail : Nat) (result : List Byte) (h : findCmd s tag = some c) :
    ∃ r ∈ (finish (vaultMismatch s v o) tag status detail result).vaults.repairs, r.vault = v ∧ r.key = o.key := by
  obtain ⟨-, -, hvaults⟩ := finish_spec status detail result ((findCmd_vaultMismatch s v o tag).trans h)
  obtain ⟨-, hlisted, -⟩ := vaultMismatch_spec s v o
  exact hvaults ▸ hlisted

/-! ### GET and AUDIT OBJECT whose blocks are at hand (R338, R342) -/

section
variable {s : State} {op tag : Nat} {c : Cmd} {o : Object} {segs : List Nat} {src : List (Nat × Source)} (hc : readerCmd s op tag = some c) (hfree : vaultAhead s c Cmd.vaultWrite = false)
  (ho : findObj s c.hdr.volume c.hdr.key = some o) (hsrc : src = runSources s c.hdr.volume o (checkBlocks o segs) (before s c)) (hhand : AtHand src)
  (hloss : ∀ b ∈ checkBlocks o segs, lossAt s c.hdr.volume (b + o.first) = false)
include hc hfree ho hsrc hhand hloss

theorem vaultReader_get (hop : op = 0x43) (hsegs : segs = touched c.hdr.lba c.hdr.blocks) (hfits : c.hdr.lba + c.hdr.blocks ≤ o.size) :
    Ended (vaultReader s op tag) tag (if digestsAgree o segs (sourceData src) then 0 else 0x70) (if digestsAgree o segs (sourceData src) then 0 else 6) (natLe 8 (hashedBytes o segs) ++ natLe 4 segs.length) ∧
      (findCmd (vaultReader s op tag) tag).map (fun e => (e.data, e.dataLen)) = some (Memory.slice (sourceData src) c.hdr.lba (c.hdr.lba + c.hdr.blocks), c.hdr.blocks) ∧
      (digestsAgree o segs (sourceData src) = true → (vaultReader s op tag).vaults = s.vaults) ∧
      (digestsAgree o segs (sourceData src) = false → ∃ r ∈ (vaultReader s op tag).vaults.repairs, r.vault = c.hdr.volume ∧ r.key = o.key) := by
  have hopcode := (readerCmd_opcode hc).trans hop
  obtain rfl := findCmd_tag (readerCmd_found hc)
  obtain ⟨u, pins, hread, hu, hframe⟩ := readObject_atHand (readerCmd_found hc) hsrc hhand hloss
  have hlossu : ∀ b ∈ checkBlocks o (touched c.hdr.lba c.hdr.blocks), lossAt u c.hdr.volume (b + o.first) = false := fun b hb => by
    rw [lossAt, same_degrade hframe (by decide)]
    exact hloss b (hsegs ▸ hb)
  have hrow : vaultReader s op c.hdr.tag = vaultDone u c.hdr.tag := by
    rw [vaultReader_object hc hfree (by omega) ho, if_neg (by omega), if_pos hop, if_neg (Nat.not_lt.2 hfits), ← hsegs, hread, blockDone_vault hu (.inl hopcode)]
  have hgot : findCmd (modCmd (blocksTaken u c.hdr.tag) c.hdr.tag (fun e => { e with data := Memory.slice (sourceData src) c.hdr.lba (c.hdr.lba + c.hdr.blocks), dataLen := c.hdr.blocks })) c.hdr.tag = some _ :=
    findCmd_modCmd_of_hdr (fun _ => rfl) (findCmd_blocksTaken hu)
  rw [hrow, vaultDone_get hu (h := c.hdr) (data := sourceData src) rfl rfl rfl rfl rfl rfl rfl hopcode hlossu]
  subst hsegs
  dsimp only
  cases hagree : digestsAgree o (touched c.hdr.lba c.hdr.blocks) (sourceData src) with
  | true =>
    obtain ⟨hended, hdata, hvaults⟩ := finish_spec 0 0 (natLe 8 (hashedBytes o (touched c.hdr.lba c.hdr.blocks)) ++ natLe 4 (touched c.hdr.lba c.hdr.blocks).length) hgot
    rw [if_pos rfl]
    exact ⟨hended, hdata, fun _ => hvaults.trans (same_vaults (t := u) hframe (by decide)), fun hbad => absurd hbad (by simp)⟩
  | false =>
    obtain ⟨hended, hdata, -⟩ := finish_spec 0x70 6 (natLe 8 (hashedBytes o (touched c.hdr.lba c.hdr.blocks)) ++ natLe 4 (touched c.hdr.lba c.hdr.blocks).length) ((findCmd_vaultMismatch _ c.hdr.volume o c.hdr.tag).trans hgot)
    rw [if_neg Bool.false_ne_true]
    exact ⟨hended, hdata, fun hgood => absurd hgood (by simp), fun _ => finish_vaultMismatch_repairs _ _ _ _ _ hgot⟩

theorem vaultReader_audit {x : Vault} (hop : op = 0x48) (hsegs : segs = List.range (segCount o.size)) (hx : findVault s c.hdr.volume = some x) :
    Ended (vaultReader s op tag) tag (if objectAgrees o (sourceData src) then 0 else 0x70) (if objectAgrees o (sourceData src) then 0 else 9) (natLe 8 (hashedBytes o segs) ++ natLe 8 x.timeMs) ∧
      (objectAgrees o (sourceData src) = true → (findObj (vaultReader s op tag) c.hdr.volume c.hdr.key).map (fun o => o.lastAudit) = some x.timeMs) ∧
      (objectAgrees o (sourceData src) = false → ∃ r ∈ (vaultReader s op tag).vaults.repairs, r.vault = c.hdr.volume ∧ r.key = o.key) := by
  have hopcode := (readerCmd_opcode hc).trans hop
  obtain rfl := findCmd_tag (readerCmd_found hc)
  obtain ⟨u, pins, hread, hu, hframe⟩ := readObject_atHand (readerCmd_found hc) hsrc hhand hloss
  have hlossu : ∀ b ∈ checkBlocks o (List.range (segCount o.size)), lossAt u c.hdr.volume (b + o.first) = false := fun b hb => by
    rw [lossAt, same_degrade hframe (by decide)]
    exact hloss b (hsegs ▸ hb)
  have hrow : vaultReader s op c.hdr.tag = vaultDone u c.hdr.tag := by
    rw [vaultReader_object hc hfree (by omega) ho, if_neg (by omega), if_neg (by omega), ← hsegs, hread, blockDone_vault hu (.inr hopcode)]
  have hvaults : u.vaults.vaults = s.vaults.vaults := congrArg Vaults.vaults (same_vaults hframe (by decide))
  have hxu : findVault u c.hdr.volume = some x := (findVault_of_vaults hvaults _).trans hx
  have hou : findObj (blocksTaken u c.hdr.tag) c.hdr.volume c.hdr.key = some o := (findObj_of_vaults (t := blocksTaken u c.hdr.tag) hvaults _ _).trans ho
  have hgot := findCmd_blocksTaken hu
  rw [hrow, vaultDone_audit hu (h := c.hdr) (data := sourceData src) rfl rfl rfl rfl rfl rfl rfl hopcode hlossu, hxu, Option.map_some, Option.getD_some]
  subst hsegs
  dsimp only
  cases hagree : objectAgrees o (sourceData src) with
  | true =>
    obtain ⟨hended, -, hfinish⟩ := finish_spec 0 0 (natLe 8 (hashedBytes o (List.range (segCount o.size))) ++ natLe 8 x.timeMs) (s := auditPassed (blocksTaken u c.hdr.tag) c.hdr.volume o) hgot
    rw [if_pos rfl]
    refine ⟨hended, fun _ => ?_, fun hbad => absurd hbad (by simp)⟩
    rw [findObj_of_vaults (congrArg Vaults.vaults hfinish), findObj_auditPassed (x := x) ((findVault_blocksTaken u _ _).trans hxu) hou]
    rfl
  | false =>
    obtain ⟨hended, -, -⟩ := finish_spec 0x70 9 (natLe 8 (hashedBytes o (List.range (segCount o.size))) ++ natLe 8 x.timeMs) ((findCmd_vaultMismatch _ c.hdr.volume o c.hdr.tag).trans hgot)
    rw [if_neg Bool.false_ne_true]
    exact ⟨hended, fun hgood => absurd hgood (by simp), fun _ => finish_vaultMismatch_repairs _ _ _ _ _ hgot⟩
end

/-- Settles O46: the readers by their row, GET and AUDIT OBJECT by what `vaultDone` does once `readObject` has every block. -/
theorem vaultReadersAnswer : Obligations.VaultReadersAnswer := by
  intro tag c s op i hi hc
  have hexec := exec_reader hi s
  have hfound := readerCmd_found hc
  obtain rfl : c.hdr.tag = tag := findCmd_tag hfound
  refine ⟨fun hahead => ⟨_, hexec, ?_⟩, fun hfree hop ho => ⟨_, hexec, ?_⟩, fun o hfree hop ho => ⟨_, hexec, ?_⟩, fun o hfree hop ho hsize => ⟨_, hexec, ?_⟩, fun hfree hop x n hx hn => ⟨_, hexec, ?_⟩,
    fun o segs src hfree ho hsegs hsrc hhand hloss => ⟨fun hop hfits => ⟨_, hexec, ?_⟩, fun hop x hx => ⟨_, hexec, ?_⟩⟩⟩
  · rw [vaultReader_waits hc hahead]
    exact ⟨findCmd_modCmd_of_hdr (fun _ => rfl) hfound, by simp [OnlyIn]⟩
  · rw [vaultReader_noKey hc hfree hop ho]
    exact ⟨ended_finish _ _ _ hfound, finish_frame ..⟩
  · rw [vaultReader_object hc hfree (by omega) ho, if_pos hop]
    obtain ⟨hended, hdata⟩ := finishData_spec (Memory.ofBytes (indexEntry o)) 256 [] hfound
    exact ⟨hended, hdata, finishData_frame ..⟩
  · rw [vaultReader_object hc hfree (by omega) ho, if_neg (by omega), if_pos hop, if_pos hsize]
    exact ⟨ended_finish _ _ _ hfound, finish_frame ..⟩
  · obtain ⟨data, hlist⟩ := listRow_eq hx hn
    obtain ⟨hended, hdata⟩ := finishData_spec data (64 * min c.hdr.blocks n) (natLe 4 (min c.hdr.blocks n) ++ natLe 1 (b1 (c.hdr.blocks < n))) hfound
    rw [vaultReader_list hc hfree hop, hlist]
    refine ⟨hended, ?_, finishData_frame ..⟩
    have hlen := congrArg (Option.map Prod.snd) hdata
    rwa [Option.map_map] at hlen
  · exact vaultReader_get hc hfree ho hsrc hhand hloss hop (hsegs.trans (if_pos hop)) hfits
  · exact vaultReader_audit hc hfree ho hsrc hhand hloss hop (hsegs.trans (if_neg (by omega))) hx

end Sys2Proof.Machine
end

section
namespace Sys2Proof.Machine

/-! ## Vaults: PUT BEGIN, PUT DATA, PUT END, SEAL and DELETE (O45) -/

/-! ### The records of a state as one is written (R101, R130) -/

theorem countRecord_recs (s : State) (r : Rec) : (countRecord s r).ledger.recs = s.ledger.recs ∧ (countRecord s r).ledger.nextSeq = s.ledger.nextSeq := by
  unfold countRecord
  dsimp only
  split
  · rw [writeCopies_ledger]
    exact ⟨rfl, rfl⟩
  · split
    · rw [(appendCopies_ledger s 2 _).1]
      exact ⟨rfl, rfl⟩
    · split
      · rw [(appendCopies_ledger s 3 _).1]
        exact ⟨rfl, rfl⟩
      · exact ⟨rfl, rfl⟩

/-- A record with its last byte written. -/
def recFull (s : State) (r : Rec) : Rec := { r with filled := r.bodyLen, state := if s.ledger.mode = 1 then .complete else .countersigned, completeAt := absCycle s }

theorem recWhole_recs (s : State) (q : Nat) : (recWhole s q).ledger.recs = modIf (fun r => r.seq = q) (recFull s) s.ledger.recs ∧ (recWhole s q).ledger.nextSeq = s.ledger.nextSeq := by
  unfold recWhole
  dsimp only
  split
  · rw [streamRecord_ledger]
    obtain ⟨hrecs, hnext⟩ := countRecord_recs (recComplete s q) (by assumption)
    exact ⟨hrecs, hnext⟩
  · exact ⟨rfl, rfl⟩

theorem recEnd_loud {s : State} (h : s.quiet = false) (q : Nat) : recEnd s q = recWhole s q := if_neg (by simp [h])

theorem recEnd_nextSeq (s : State) (q : Nat) : (recEnd s q).ledger.nextSeq = s.ledger.nextSeq := by
  unfold recEnd
  split
  · rfl
  · exact (recWhole_recs s q).2

/-- A record keeps its name as one is ended. -/
theorem recEnd_mem {s : State} {r : Rec} (h : r ∈ s.ledger.recs) (q : Nat) :
    ∃ r' ∈ (recEnd s q).ledger.recs, r'.seq = r.seq ∧ r'.kind = r.kind ∧ r'.tag = r.tag ∧ r'.volume = r.volume ∧ r'.pos = r.pos := by
  unfold recEnd
  split
  · exact ⟨r, h, rfl, rfl, rfl, rfl, rfl⟩
  · rw [(recWhole_recs s q).1, modIf_eq_map]
    refine ⟨_, List.mem_map_of_mem h, ?_⟩
    split <;> exact ⟨rfl, rfl, rfl, rfl, rfl⟩

/-! ### A vault command writes its record (R333) -/

/-- The record of a vault command whose effect is formed, behind those that are held. -/
def vaultRec (s : State) (c : Cmd) (body : Cells) (len : Nat) (span : Option (Nat × Nat)) : Rec := { cmdRecord s c.hdr c.ring c.cseq c.pos 7 with body, bodyLen := len, span }

theorem vaultRecord_eq (s : State) (c : Cmd) (body : Cells) (len : Nat) (span : Option (Nat × Nat)) (e : VaultEffect) :
    vaultRecord s c body len span e =
      modCmd { (writeRec s (vaultRec s c body len span)).1 with vaults := { (writeRec s (vaultRec s c body len span)).1.vaults with
        effects := (writeRec s (vaultRec s c body len span)).1.vaults.effects ++ [(s.ledger.nextSeq, c.hdr.tag, e)] } } c.hdr.tag (fun c => { c with recSeq := some s.ledger.nextSeq, phase := .landing }) := rfl

/-- One record is written, and its command waits for it to land with its effect. -/
theorem vaultRecorded_vaultRecord {s : State} {c d : Cmd} (body : Cells) (len : Nat) (span : Option (Nat × Nat)) (e : VaultEffect) (hd : findCmd s c.hdr.tag = some d) :
    VaultRecorded s (vaultRecord s c body len span e) c.hdr.tag c d e := by
  have hframe := writeRec_outside (ps := [.ledger, .chain]) s (vaultRec s c body len span) (by decide) (by decide)
  have hvaults := same_vaults hframe (by decide)
  have hcmds := same_cmds hframe (by decide)
  have hadded : { vaultRec s c body len span with seq := s.ledger.nextSeq, powerCycle := s.mgmt.powerCycles, state := .filling, rank := s.ledger.rank } ∈ (addRec s (vaultRec s c body len span)).1.ledger.recs :=
    List.mem_append_right _ List.mem_cons_self
  obtain ⟨r, hr, hseq, hkind, htag, hvolume, hpos⟩ := recEnd_mem hadded s.ledger.nextSeq
  have hnext : (writeRec s (vaultRec s c body len span)).1.ledger.nextSeq = s.ledger.nextSeq + 1 := recEnd_nextSeq (addRec s (vaultRec s c body len span)).1 s.ledger.nextSeq
  rw [vaultRecord_eq]
  refine ⟨hnext, ⟨r, hr, hseq, hkind, htag, hvolume, hpos⟩, ?_, ?_⟩
  · rw [hvaults]
    rfl
  · exact findCmd_modCmd_of_hdr (f := fun c => { c with recSeq := some s.ledger.nextSeq, phase := .landing }) (fun _ => rfl) ((findCmd_of_cmds hcmds).trans hd)

theorem vaultRecorded_indexRecord {s : State} {c d : Cmd} (table : Cells) (len : Nat) (span : Option (Nat × Nat)) (e : VaultEffect) (hd : findCmd s c.hdr.tag = some d) :
    VaultRecorded s (indexRecord s c table len span e) c.hdr.tag c d e := vaultRecorded_vaultRecord _ _ _ _ hd

/-- What the record of a command that has been marked says of the state before the mark. -/
theorem vaultRecorded_of_modCmd {s t : State} {tag tag' : Nat} {f : Cmd → Cmd} {c d : Cmd} {e : VaultEffect} (h : VaultRecorded (modCmd s tag' f) t tag c d e) : VaultRecorded s t tag c d e := h

theorem indexChange_full {s : State} {c : Cmd} (go : State → State) (h : allocRange s c.hdr.volume 0 3 = none) : indexChange s c go = finish s c.hdr.tag 0x30 3 [] := by rw [indexChange, h]

theorem indexChange_room {s u : State} {c : Cmd} (go : State → State) (h : allocRange s c.hdr.volume 0 3 = some u) : indexChange s c go = go u := by rw [indexChange, h]

theorem findCmd_allocRange {s u : State} {v lba n : Nat} (h : allocRange s v lba n = some u) (tag : Nat) : findCmd u tag = findCmd s tag :=
  findCmd_of_cmds (same_cmds (allocRange_outside (ps := [.ledger, .bands, .chain]) s v lba n (by decide) (by decide) (by decide) h) (by decide))

/-! ### PUT BEGIN and DELETE (R333, R341) -/

/-- A command that an earlier one holds back, whatever its row. -/
theorem cmdIn_eq_or {s : State} {tag : Nat} {c : Cmd} (h : findCmd s tag = some c) (p : Cmd → Bool) : cmdIn s tag p = some c ∨ cmdIn s tag p = none := by
  cases hp : p c with
  | true => exact .inl (cmdIn_of h hp)
  | false => exact .inr (cmdIn_none_of h hp)

/-- The session that a PUT BEGIN opens as its record lands. -/
def sessionAsked (s : State) (c : Cmd) : Session :=
  { number := 0, vault := c.hdr.volume, key := c.hdr.key, size := c.hdr.lba, first := 0, run := ceilDiv c.hdr.lba 4096 + tableBlocks c.hdr.lba
    received := 0, bytes := [], lastUse := s.now, replace := bit c.hdr.flags 0, isNew := true }

theorem putBegin_free {s : State} {tag : Nat} {c : Cmd} (hc : startedCmd s tag 0x40 = some c) (hfree : vaultAhead s c Cmd.vaultWrite = false) : putBegin s tag = indexRecord s c [] 0 none (.begin (sessionAsked s c)) := by
  unfold putBegin
  rw [hc]
  exact if_neg (by simp [hfree])

theorem runs_putBegin {tag : Nat} {c : Cmd} {s : State} (hc : startedCmd s tag 0x40 = some c) (hfree : vaultAhead s c Cmd.vaultWrite = false) :
    Runs (.putBegin tag) s (fun t => ∃ x, VaultRecorded s t tag c c (.begin x) ∧ x.vault = c.hdr.volume ∧ x.key = c.hdr.key ∧ x.size = c.hdr.lba ∧
      x.run = ceilDiv c.hdr.lba 4096 + tableBlocks c.hdr.lba ∧ x.received = 0 ∧ x.replace = bit c.hdr.flags 0) := by
  have hfound := findCmd_of_startedCmd hc
  obtain rfl := findCmd_tag hfound
  refine ⟨putBegin s c.hdr.tag, rfl, sessionAsked s c, ?_, rfl, rfl, rfl, rfl, rfl, rfl⟩
  rw [putBegin_free hc hfree]
  exact vaultRecorded_indexRecord _ _ _ _ hfound

theorem deleteRow_free {s : State} {tag : Nat} {c : Cmd} (hc : startedCmd s tag 0x46 = some c) (hfree : vaultAhead s c Cmd.vaultWrite = false) :
    deleteRow s tag = indexChange s c (fun s => indexRecord s c [] 0 none (.remove c.hdr.volume c.hdr.key)) := by
  unfold deleteRow
  rw [hc]
  exact if_neg (by simp [hfree])

theorem runs_delete_full {tag : Nat} {c : Cmd} {s : State} (hc : startedCmd s tag 0x46 = some c) (hfree : vaultAhead s c Cmd.vaultWrite = false) (hfull : allocRange s c.hdr.volume 0 3 = none) :
    Runs (.delete tag) s (fun t => Ended t tag 0x30 3 [] ∧ OnlyIn [.cmds, .returns] s t) := by
  have hfound := findCmd_of_startedCmd hc
  obtain rfl := findCmd_tag hfound
  refine ⟨deleteRow s c.hdr.tag, rfl, ?_⟩
  rw [deleteRow_free hc hfree, indexChange_full _ hfull]
  exact ⟨ended_finish _ _ _ hfound, by simp [OnlyIn]⟩

theorem runs_delete {tag : Nat} {c : Cmd} {s u : State} (hc : startedCmd s tag 0x46 = some c) (hfree : vaultAhead s c Cmd.vaultWrite = false) (hroom : allocRange s c.hdr.volume 0 3 = some u) :
    Runs (.delete tag) s (fun t => VaultRecorded u t tag c c (.remove c.hdr.volume c.hdr.key)) := by
  have hfound := findCmd_of_startedCmd hc
  obtain rfl := findCmd_tag hfound
  refine ⟨deleteRow s c.hdr.tag, rfl, ?_⟩
  rw [deleteRow_free hc hfree, indexChange_room _ hroom]
  exact vaultRecorded_indexRecord _ _ _ _ ((findCmd_allocRange hroom _).trans hfound)

/-! ### SEAL (R340) -/

section
variable {tag : Nat} {c : Cmd} {s : State} (hc : cmdIn s tag (fun c => c.phase = .busy && c.hdr.opcode = 0x45 && !c.failed && c.taken = c.hdr.d) = some c) (hfree : vaultAhead s c Cmd.vaultWrite = false)
include hc hfree

theorem sealRow_free : sealRow' s tag = indexChange s c (fun s => indexRecord (modCmd s tag (fun c => { c with payload := [] })) c [] 0 none (.sealKey c.hdr.volume c.hdr.key c.hdr.lba (leNat (Memory.bytes c.payload 8)))) := by
  unfold sealRow'
  rw [hc]
  exact if_neg (by simp [hfree])

theorem runs_sealObject_full (hfull : allocRange s c.hdr.volume 0 3 = none) : Runs (.sealObject tag) s (fun t => Ended t tag 0x30 3 [] ∧ OnlyIn [.cmds, .returns] s t) := by
  have hfound := findCmd_of_cmdIn hc
  obtain rfl := findCmd_tag hfound
  refine ⟨sealRow' s c.hdr.tag, rfl, ?_⟩
  rw [sealRow_free hc hfree, indexChange_full _ hfull]
  exact ⟨ended_finish _ _ _ hfound, by simp [OnlyIn]⟩

theorem runs_sealObject {u : State} (hroom : allocRange s c.hdr.volume 0 3 = some u) :
    Runs (.sealObject tag) s (fun t => VaultRecorded u t tag c { c with payload := [] } (.sealKey c.hdr.volume c.hdr.key c.hdr.lba (leNat (Memory.bytes c.payload 8)))) := by
  have hfound := findCmd_of_cmdIn hc
  obtain rfl := findCmd_tag hfound
  refine ⟨sealRow' s c.hdr.tag, rfl, ?_⟩
  rw [sealRow_free hc hfree, indexChange_room _ hroom]
  exact vaultRecorded_of_modCmd (vaultRecorded_indexRecord _ _ _ _ (findCmd_modCmd_of_hdr (f := fun c => { c with payload := [] }) (fun _ => rfl) ((findCmd_allocRange hroom _).trans hfound)))
end

/-! ### PUT END (R336) -/

/-- The command of a PUT END that has its bytes. -/
def endCmd (s : State) (tag : Nat) : Option Cmd := cmdIn s tag (fun c => c.hdr.opcode = 0x42 && !c.failed && (c.phase = .started && c.hdr.d = 0 || c.phase = .busy && c.taken = c.hdr.d))

/-- The session that a command names, when it is of the command's vault and key. -/
def sessionOf (s : State) (c : Cmd) : Option Session := (findSession s c.hdr.blocks).filter (fun x => x.vault = c.hdr.volume && x.key = c.hdr.key)

/-- A command is marked with its session, and keeps no payload. -/
def sessionMarked (x : Session) (c : Cmd) : Cmd := { c with session := x.number, payload := [] }

section
variable {tag : Nat} {c : Cmd} {s : State} (hc : endCmd s tag = some c) (hfree : vaultAhead s c Cmd.vaultWrite = false)
include hc hfree

theorem putEnd_none (hx : sessionOf s c = none) : putEnd s tag = finish s tag 0x70 3 [] := by
  have hc : cmdIn s tag _ = some c := hc
  have hx : Option.filter _ _ = none := hx
  rw [putEnd, hc]
  dsimp only
  rw [if_neg (by simp [hfree]), hx]

theorem putEnd_session {x : Session} (hx : sessionOf s c = some x) :
    putEnd s tag = if x.received ≠ x.size then finish s tag 0x70 5 []
      else if c.hdr.d = 32 && Memory.bytes c.payload 32 ≠ (objectOf x).digest then indexRecord (modCmd s tag (sessionMarked x)) c [] 0 none (.drop x.number)
      else storeRecord s c x := by
  have hc : cmdIn s tag _ = some c := hc
  have hx : Option.filter _ _ = some x := hx
  rw [putEnd, hc]
  dsimp only
  rw [if_neg (by simp [hfree]), hx]
  rfl

theorem runs_putEnd_none (hx : sessionOf s c = none) : Runs (.putEnd tag) s (fun t => Ended t tag 0x70 3 [] ∧ OnlyIn [.cmds, .returns] s t) := by
  refine ⟨putEnd s tag, rfl, ?_⟩
  rw [putEnd_none hc hfree hx]
  exact ⟨ended_finish _ _ _ (findCmd_of_cmdIn hc), by simp [OnlyIn]⟩

variable {x : Session} (hx : sessionOf s c = some x)
include hx

theorem runs_putEnd_short (hshort : x.received ≠ x.size) : Runs (.putEnd tag) s (fun t => Ended t tag 0x70 5 [] ∧ OnlyIn [.cmds, .returns] s t) := by
  refine ⟨putEnd s tag, rfl, ?_⟩
  rw [putEnd_session hc hfree hx, if_pos hshort]
  exact ⟨ended_finish _ _ _ (findCmd_of_cmdIn hc), by simp [OnlyIn]⟩

theorem runs_putEnd_mismatch (hwhole : x.received = x.size) (hd : c.hdr.d = 32) (hdigest : Memory.bytes c.payload 32 ≠ (objectOf x).digest) :
    Runs (.putEnd tag) s (fun t => VaultRecorded s t tag c { c with session := x.number, payload := [] } (.drop x.number)) := by
  have hfound : findCmd s tag = some c := findCmd_of_cmdIn hc
  obtain rfl := findCmd_tag hfound
  refine ⟨putEnd s c.hdr.tag, rfl, ?_⟩
  rw [putEnd_session hc hfree hx, if_neg (not_not.2 hwhole), if_pos (by simp [hd, hdigest])]
  exact vaultRecorded_of_modCmd (vaultRecorded_indexRecord _ _ _ _ (findCmd_modCmd_of_hdr (f := sessionMarked x) (fun _ => rfl) hfound))

theorem runs_putEnd_stores {u : State} (hwhole : x.received = x.size) (hdigest : c.hdr.d = 0 ∨ c.hdr.d = 32 ∧ Memory.bytes c.payload 32 = (objectOf x).digest) (htable : tableBlocks x.size = 0)
    (hroom : allocRange s c.hdr.volume 0 3 = some u) : Runs (.putEnd tag) s (fun t => VaultRecorded u t tag c { c with session := x.number, payload := [] } (.store x.number (objectOf x))) := by
  have hfound : findCmd s tag = some c := findCmd_of_cmdIn hc
  obtain rfl := findCmd_tag hfound
  have hagrees : (c.hdr.d = 32 && Memory.bytes c.payload 32 ≠ (objectOf x).digest : Bool) = false := by
    rcases hdigest with h | ⟨-, h⟩ <;> simp [h]
  have hstore : storeRecord s c x = indexRecord (modCmd u c.hdr.tag (sessionMarked x)) c (Memory.ofBytes (objectOf x).segments.flatten) (4096 * 0) none (.store x.number (objectOf x)) := by
    rw [storeRecord, htable, storeTable, if_pos rfl]
    exact indexChange_room _ hroom
  refine ⟨putEnd s c.hdr.tag, rfl, ?_⟩
  rw [putEnd_session hc hfree hx, if_neg (not_not.2 hwhole), hagrees, if_neg Bool.false_ne_true, hstore]
  exact vaultRecorded_of_modCmd (vaultRecorded_indexRecord _ _ _ _ (findCmd_modCmd_of_hdr (f := sessionMarked x) (fun _ => rfl) ((findCmd_allocRange hroom _).trans hfound)))
end

/-! ### Behind an earlier overlapping write (R345) -/

theorem exec_vaultWrites_behind {tag : Nat} {c : Cmd} {s : State} (hc : findCmd s tag = some c) (hahead : vaultAhead s c Cmd.vaultWrite = true) :
    exec (.putBegin tag) s = .next s ∧ exec (.putEnd tag) s = .next s ∧ exec (.sealObject tag) s = .next s ∧ exec (.delete tag) s = .next s := by
  refine ⟨congrArg Host.Outcome.next ?_, congrArg Host.Outcome.next ?_, congrArg Host.Outcome.next ?_, congrArg Host.Outcome.next ?_⟩
  · unfold putBegin startedCmd
    rcases cmdIn_eq_or hc _ with h | h <;> rw [h]
    exact if_pos hahead
  · unfold putEnd
    rcases cmdIn_eq_or hc _ with h | h <;> rw [h]
    exact if_pos hahead
  · unfold sealRow'
    rcases cmdIn_eq_or hc _ with h | h <;> rw [h]
    exact if_pos hahead
  · unfold deleteRow startedCmd
    rcases cmdIn_eq_or hc _ with h | h <;> rw [h]
    exact if_pos hahead

/-! ### PUT DATA (R335) -/

/-- The command of a PUT DATA whose bytes have all been taken. -/
def dataCmd (s : State) (tag : Nat) : Option Cmd := cmdIn s tag (fun c => c.phase = .busy && c.hdr.opcode = 0x41 && !c.failed && c.taken = c.hdr.d)

theorem dataFails_spec {s : State} {c : Cmd} (status detail received : Nat) (hc : findCmd s c.hdr.tag = some c) :
    Ended (dataFails s c status detail received) c.hdr.tag status detail (natLe 8 received) ∧ (dataFails s c status detail received).vaults = s.vaults ∧ OnlyIn [.ledger, .cmds, .returns] s (dataFails s c status detail received) := by
  have hframe : OnlyIn [.ledger, .cmds, .returns] s (dataFails s c status detail received) := dataFails_outside _ _ _ _ _ (by decide) (by decide) (by decide)
  refine ⟨?_, same_vaults hframe (by decide), hframe⟩
  exact ended_finish status detail (natLe 8 received) (findCmd_modCmd_of_hdr (s := { s with ledger := { s.ledger with recs := s.ledger.recs.filter (fun r => some r.seq ≠ c.recSeq) } })
    (f := fun c => { c with recSeq := none, failed := true, payload := [] }) (fun _ => rfl) hc)

/-- A PUT DATA's record with the hash states behind the piece. -/
def pieceRec (s : State) (c : Cmd) (x : Session) (r : Rec) : Rec :=
  { r with body := Memory.writeN 0 c.payload c.hdr.d ((List.range 128).map (fun i => (Config.freeValue (s.free + i)).truncate 8)), span := some (x.first + c.hdr.lba / 4096, ceilDiv c.hdr.d 4096) }

/-- A PUT DATA's record is whole. -/
def dataWhole (s : State) (c : Cmd) (x : Session) (q : Nat) : State := recEnd (modRec (useFree s 128) q (pieceRec s c x)) q

def dataLanding (s : State) (c : Cmd) (x : Session) (q : Nat) : State :=
  modCmd { dataWhole s c x q with vaults := { (dataWhole s c x q).vaults with effects := (dataWhole s c x q).vaults.effects ++ [(q, c.hdr.tag, .data x.number (c.hdr.lba + c.hdr.d) c.payload)] } } c.hdr.tag
    (fun c => { c with phase := .landing, payload := [], session := x.number })

theorem dataPasses_eq {s u : State} {c : Cmd} {x : Session} {q : Nat} (hq : c.recSeq = some q) (hroom : allocRange s c.hdr.volume (x.first + c.hdr.lba / 4096) (ceilDiv c.hdr.d 4096) = some u) :
    dataPasses s c x = dataLanding u c x q := by
  unfold dataPasses
  rw [hq, hroom]
  rfl

theorem dataWhole_frame (s : State) (c : Cmd) (x : Session) (q : Nat) : (dataWhole s c x q).outside [.ledger, .chain, .free] = s.outside [.ledger, .chain, .free] := recEnd_outside (modRec (useFree s 128) q (pieceRec s c x)) q (by decide) (by decide)

theorem dataWhole_recs {s : State} {c : Cmd} {x : Session} {q : Nat} (hloud : s.quiet = false) {r : Rec} (hr : r ∈ (dataWhole s c x q).ledger.recs) (hseq : r.seq = q) :
    r.state ≠ .filling ∧ r.span = some (x.first + c.hdr.lba / 4096, ceilDiv c.hdr.d 4096) := by
  rw [dataWhole, recEnd_loud (s := modRec (useFree s 128) q (pieceRec s c x)) hloud, (recWhole_recs _ q).1] at hr
  simp only [modRec, modIf_eq_map, List.map_map] at hr
  obtain ⟨r0, -, rfl⟩ := List.mem_map.1 hr
  by_cases h0 : r0.seq = q
  · simp only [Function.comp_apply, h0, decide_true, if_true, pieceRec, recFull]
    exact ⟨by split <;> decide, trivial⟩
  · simp [h0] at hseq

section
variable {tag : Nat} {c : Cmd} {s : State} (hc : dataCmd s tag = some c) (hfree : vaultAhead s c (fun e => e.vaultWrite && (e.hdr.opcode ≠ 0x41 || e.phase ≠ .landing)) = false)
include hc hfree

theorem putData_none (hx : sessionOf s c = none) : putData s tag = dataFails s c 0x70 3 0 := by
  have hc : cmdIn s tag _ = some c := hc
  have hx : Option.filter _ _ = none := hx
  rw [putData, hc]
  dsimp only
  rw [if_neg (ne_true_of_eq_false hfree), hx]

theorem putData_session {x : Session} (hx : sessionOf s c = some x) :
    putData s tag = if c.hdr.lba ≠ receivedSoon s x then dataFails s c 0x10 3 (receivedSoon s x)
      else if x.size < c.hdr.lba + c.hdr.d then dataFails s c 0x70 5 (receivedSoon s x)
      else if c.hdr.d % 4096 ≠ 0 && c.hdr.lba + c.hdr.d < x.size then dataFails s c 0x10 3 (receivedSoon s x)
      else dataPasses s c x := by
  have hc : cmdIn s tag _ = some c := hc
  have hx : Option.filter _ _ = some x := hx
  rw [putData, hc]
  dsimp only
  rw [if_neg (ne_true_of_eq_false hfree), hx]

theorem runs_putData_none (hx : sessionOf s c = none) : Runs (.putData tag) s (fun t => Ended t tag 0x70 3 (zeros 8) ∧ t.vaults = s.vaults ∧ OnlyIn [.ledger, .cmds, .returns] s t) := by
  have hfound : findCmd s tag = some c := findCmd_of_cmdIn hc
  obtain rfl := findCmd_tag hfound
  refine ⟨putData s c.hdr.tag, rfl, ?_⟩
  rw [putData_none hc hfree hx]
  exact dataFails_spec 0x70 3 0 hfound

variable {x : Session} (hx : sessionOf s c = some x)
include hx

theorem runs_putData_offset (hoff : c.hdr.lba ≠ receivedSoon s x) : Runs (.putData tag) s (fun t => Ended t tag 0x10 3 (natLe 8 (receivedSoon s x)) ∧ OnlyIn [.ledger, .cmds, .returns] s t) := by
  have hfound : findCmd s tag = some c := findCmd_of_cmdIn hc
  obtain rfl := findCmd_tag hfound
  obtain ⟨hended, -, hframe⟩ := dataFails_spec 0x10 3 (receivedSoon s x) hfound
  refine ⟨putData s c.hdr.tag, rfl, ?_⟩
  rw [putData_session hc hfree hx, if_pos hoff]
  exact ⟨hended, hframe⟩

variable (hoff : c.hdr.lba = receivedSoon s x)
include hoff

theorem runs_putData_beyond (hsize : x.size < c.hdr.lba + c.hdr.d) : Runs (.putData tag) s (fun t => Ended t tag 0x70 5 (natLe 8 c.hdr.lba) ∧ OnlyIn [.ledger, .cmds, .returns] s t) := by
  have hfound : findCmd s tag = some c := findCmd_of_cmdIn hc
  obtain rfl := findCmd_tag hfound
  obtain ⟨hended, -, hframe⟩ := dataFails_spec 0x70 5 c.hdr.lba hfound
  refine ⟨putData s c.hdr.tag, rfl, ?_⟩
  rw [putData_session hc hfree hx, if_neg (not_not.2 hoff), if_pos hsize, ← hoff]
  exact ⟨hended, hframe⟩

theorem runs_putData_uneven (hsize : c.hdr.lba + c.hdr.d < x.size) (huneven : c.hdr.d % 4096 ≠ 0) :
    Runs (.putData tag) s (fun t => Ended t tag 0x10 3 (natLe 8 c.hdr.lba) ∧ OnlyIn [.ledger, .cmds, .returns] s t) := by
  have hfound : findCmd s tag = some c := findCmd_of_cmdIn hc
  obtain rfl := findCmd_tag hfound
  obtain ⟨hended, -, hframe⟩ := dataFails_spec 0x10 3 c.hdr.lba hfound
  refine ⟨putData s c.hdr.tag, rfl, ?_⟩
  rw [putData_session hc hfree hx, if_neg (not_not.2 hoff), if_neg (by omega), if_pos (by simp [hsize, huneven]), ← hoff]
  exact ⟨hended, hframe⟩

theorem runs_putData {q : Nat} (hq : c.recSeq = some q) (hsize : c.hdr.lba + c.hdr.d ≤ x.size) (heven : c.hdr.d % 4096 = 0 ∨ c.hdr.lba + c.hdr.d = x.size)
    (hroom : allocRange s c.hdr.volume (x.first + c.hdr.lba / 4096) (ceilDiv c.hdr.d 4096) = some s) (hloud : s.quiet = false) :
    Runs (.putData tag) s (fun t => t.vaults = { s.vaults with effects := s.vaults.effects ++ [(q, tag, .data x.number (c.hdr.lba + c.hdr.d) c.payload)] } ∧
      findCmd t tag = some { c with phase := .landing, payload := [], session := x.number } ∧ t.free = s.free + 128 ∧ t.ledger.nextSeq = s.ledger.nextSeq ∧
      (∀ r ∈ t.ledger.recs, r.seq = q → r.state ≠ .filling ∧ r.span = some (x.first + c.hdr.lba / 4096, ceilDiv c.hdr.d 4096)) ∧ OnlyIn [.ledger, .cmds, .vaults, .chain, .free] s t) := by
  have hfound : findCmd s tag = some c := findCmd_of_cmdIn hc
  obtain rfl := findCmd_tag hfound
  have hframe := dataWhole_frame s c x q
  have hfreed : (dataWhole s c x q).free = s.free + 128 := same_free (s := modRec (useFree s 128) q (pieceRec s c x)) (recEnd_outside (ps := [.ledger, .chain]) _ _ (by decide) (by decide)) (by decide)
  refine ⟨putData s c.hdr.tag, rfl, ?_⟩
  rw [putData_session hc hfree hx, if_neg (not_not.2 hoff), if_neg (by omega), if_neg (by simp; omega), dataPasses_eq hq hroom]
  refine ⟨?_, findCmd_modCmd_of_hdr (f := fun c => { c with phase := .landing, payload := [], session := x.number }) (fun _ => rfl) ((findCmd_of_cmds (same_cmds hframe (by decide))).trans hfound), hfreed,
    recEnd_nextSeq _ q, fun r hr hseq => dataWhole_recs hloud hr hseq, ?_⟩
  · rw [← same_vaults hframe (by decide)]
    rfl
  · exact recEnd_outside (ps := [.ledger, .cmds, .vaults, .chain, .free]) (modRec (useFree s 128) q (pieceRec s c x)) q (by decide) (by decide)
end

theorem exec_putData_untaken {tag : Nat} {c : Cmd} {s : State} (hc : findCmd s tag = some c) (htaken : c.taken ≠ c.hdr.d) : exec (.putData tag) s = .next s := by
  refine congrArg Host.Outcome.next ?_
  rw [putData, cmdIn_none_of hc (by simp [htaken])]

/-- Settles O45: each write by the one record that `vaultRecorded_indexRecord` says it makes, PUT DATA by `dataFails_spec` and `dataPasses_eq`. -/
theorem vaultWritesAreTaken : Obligations.VaultWritesAreTaken :=
  ⟨⟨fun _ _ _ => runs_putBegin, fun _ _ _ hc hfree => ⟨runs_delete_full hc hfree, fun _ => runs_delete hc hfree⟩, fun _ _ _ hc hfree => ⟨runs_sealObject_full hc hfree, fun _ => runs_sealObject hc hfree⟩,
      fun _ _ _ hc hfree => ⟨runs_putEnd_none hc hfree, fun _ hx => ⟨runs_putEnd_short hc hfree hx, runs_putEnd_mismatch hc hfree hx, fun hwhole hdigest htable _ => runs_putEnd_stores hc hfree hx hwhole hdigest htable⟩⟩,
      fun _ _ _ => exec_vaultWrites_behind⟩,
    fun _ _ _ hc hfree => ⟨runs_putData_none hc hfree, fun _ hx => ⟨runs_putData_offset hc hfree hx, runs_putData_beyond hc hfree hx, runs_putData_uneven hc hfree hx,
      fun _ hq hoff => runs_putData hc hfree hx hoff hq⟩⟩, fun _ _ _ => exec_putData_untaken⟩

end Sys2Proof.Machine
end

section
namespace Sys2Proof.Machine

/-! ## The numbers of works and member commands (O31) -/

/-! ### What keeps the numbers -/

/-- `t` numbers its works, and its member commands, when `s` does. -/
def Numbered (s t : State) : Prop := (worksNumbered s → worksNumbered t) ∧ (commandsNumbered s → commandsNumbered t)

/-- The parts that hold no number. -/
def others : List Part := allBut [.works, .nextWork, .drives]

/-- Whether a part holds no number. -/
@[simp] def Part.isOther : Part → Bool
  | .works | .nextWork | .drives => false
  | _ => true

@[simp] theorem mem_others {p : Part} : p ∈ others ↔ p.isOther = true := by cases p <;> decide

/-- Only the works, their next number and the drives bear on the numbers. -/
theorem numbered_outside {r s : State} : Numbered r (s.outside others) ↔ Numbered r s := by
  have hworks : (s.outside others).works = s.works := by simp [State.outside]
  have hnext : (s.outside others).nextWork = s.nextWork := by simp [State.outside]
  have hdrives : (s.outside others).drives = s.drives := by simp [State.outside]
  unfold Numbered worksNumbered commandsNumbered
  rw [hworks, hnext, hdrives]

/-- A step that numbers a new work, or drops or alters old ones, and likewise for the member commands. -/
theorem Numbered.of_ids {r s t : State} (h : Numbered r (s.outside others)) (hworks : ∀ w ∈ t.works, w.id < t.nextWork ∨ ∃ v ∈ s.works, v.id = w.id) (hnextWork : s.nextWork ≤ t.nextWork)
    (hcmds : ∀ k ∈ t.drives.cmds, k.id < t.drives.nextCmd ∨ ∃ j ∈ s.drives.cmds, j.id = k.id) (hnextCmd : s.drives.nextCmd ≤ t.drives.nextCmd) : Numbered r (t.outside others) := by
  obtain ⟨hw, hc⟩ := numbered_outside.1 h
  refine numbered_outside.2 ⟨fun hr w hmem => ?_, fun hr k hmem => ?_⟩
  · rcases hworks w hmem with hlt | ⟨v, hv, hid⟩
    · exact hlt
    · exact hid ▸ (hw hr v hv).trans_le hnextWork
  · rcases hcmds k hmem with hlt | ⟨j, hj, hid⟩
    · exact hlt
    · exact hid ▸ (hc hr j hj).trans_le hnextCmd

/-- A step that leaves the member commands alone. -/
theorem Numbered.of_works {r s t : State} (h : Numbered r (s.outside others)) (hworks : ∀ w ∈ t.works, w.id < t.nextWork ∨ ∃ v ∈ s.works, v.id = w.id) (hnext : s.nextWork ≤ t.nextWork)
    (hdrives : t.drives = s.drives) : Numbered r (t.outside others) :=
  h.of_ids hworks hnext (fun k hk => .inr ⟨k, hdrives ▸ hk, rfl⟩) (hdrives ▸ le_rfl)

/-- A step that leaves the works alone. -/
theorem Numbered.of_cmds {r s t : State} (h : Numbered r (s.outside others)) (hworks : t.works = s.works) (hnext : t.nextWork = s.nextWork)
    (hcmds : ∀ k ∈ t.drives.cmds, k.id < t.drives.nextCmd ∨ ∃ j ∈ s.drives.cmds, j.id = k.id) (hnextCmd : s.drives.nextCmd ≤ t.drives.nextCmd) : Numbered r (t.outside others) :=
  h.of_ids (fun w hw => .inr ⟨w, hworks ▸ hw, rfl⟩) hnext.ge hcmds hnextCmd

/-- A step that leaves the works and the member commands alone. -/
theorem Numbered.of_same {r s t : State} (h : Numbered r (s.outside others)) (hworks : t.works = s.works) (hnext : t.nextWork = s.nextWork) (hcmds : t.drives.cmds = s.drives.cmds)
    (hnextCmd : t.drives.nextCmd = s.drives.nextCmd) : Numbered r (t.outside others) :=
  h.of_cmds hworks hnext (fun k hk => .inr ⟨k, hcmds ▸ hk, rfl⟩) hnextCmd.ge

theorem numbered_foldl {α : Type} {r : State} {f : State → α → State} (hf : ∀ u x, Numbered r (u.outside others) → Numbered r ((f u x).outside others)) {l : List α} {s : State}
    (h : Numbered r (s.outside others)) : Numbered r ((l.foldl f s).outside others) := by
  induction l generalizing s with
  | nil => exact h
  | cons a l ih => exact ih (hf s a h)

/-- The same for a fold that carries something beside the state. -/
theorem numbered_pairFold {α β : Type} {r : State} {f : State × β → α → State × β} (hf : ∀ p x, Numbered r (p.1.outside others) → Numbered r ((f p x).1.outside others)) {l : List α} {p : State × β}
    (h : Numbered r (p.1.outside others)) : Numbered r ((l.foldl f p).1.outside others) := by
  induction l generalizing p with
  | nil => exact h
  | cons a l ih => exact ih (hf p a h)

theorem id_of_mem_modIf {α : Type} {p : α → Bool} {f : α → α} {num : α → Nat} {l : List α} {b : α} (hb : b ∈ modIf p f l) (hf : ∀ a, p a = true → num (f a) = num a) : ∃ a ∈ l, num a = num b := by
  rw [modIf_eq_map] at hb
  obtain ⟨a, ha, rfl⟩ := List.mem_map.1 hb
  refine ⟨a, ha, ?_⟩
  split
  · next hp => exact (hf a hp).symm
  · rfl

theorem id_of_mem_map {α : Type} {f : α → α} {num : α → Nat} {l : List α} {b : α} (hb : b ∈ l.map f) (hf : ∀ a, num (f a) = num a) : ∃ a ∈ l, num a = num b := by
  obtain ⟨a, ha, rfl⟩ := List.mem_map.1 hb
  exact ⟨a, ha, (hf a).symm⟩

theorem new_or_old {α : Type} {num : α → Nat} {l : List α} {a b : α} {n : Nat} (hb : b ∈ l ++ [a]) (ha : num a < n) : num b < n ∨ ∃ c ∈ l, num c = num b := by
  rcases List.mem_append.1 hb with hb | hb
  · exact .inr ⟨b, hb, rfl⟩
  · exact .inl (List.mem_singleton.1 hb ▸ ha)

/-! ### The operations that write works and member commands -/

theorem modMem_numbered {r : State} (s : State) (m : Nat) (f : Member → Member) (h : Numbered r (s.outside others)) : Numbered r ((modMem s m f).outside others) :=
  h.of_same rfl rfl rfl rfl

theorem issue_numbered {r : State} (s : State) (m : Nat) (op : MemberOp) (addr len : Nat) (data : Cells) (p : Purpose) (h : Numbered r (s.outside others)) :
    Numbered r ((issue s m op addr len data p).outside others) := by
  unfold issue
  dsimp only
  split
  · exact h
  · exact h.of_cmds rfl rfl (fun _ hk => new_or_old (num := MemberCmd.id) hk (Nat.lt_succ_self _)) (Nat.le_succ _)

theorem modMc_numbered {r : State} (s : State) (id : Nat) (f : MemberCmd → MemberCmd) (hf : ∀ k, (f k).id = k.id) (h : Numbered r (s.outside others)) : Numbered r ((modMc s id f).outside others) :=
  h.of_cmds rfl rfl (fun _ hk => .inr (id_of_mem_modIf hk (fun k _ => hf k))) le_rfl

theorem modWork_numbered {r : State} (s : State) (id : Nat) (f : Work → Work) (hf : ∀ w, (f w).id = w.id) (h : Numbered r (s.outside others)) : Numbered r ((modWork s id f).outside others) :=
  h.of_works (fun _ hw => .inr (id_of_mem_modIf hw (fun w _ => hf w))) le_rfl rfl

/-- A work put in its own place. -/
theorem putWork_numbered {r : State} (s : State) {id : Nat} (w : Work) (hid : w.id = id) (h : Numbered r (s.outside others)) : Numbered r ((modWork s id (fun _ => w)).outside others) :=
  h.of_works (fun _ hv => .inr (id_of_mem_modIf hv (fun _ hv => hid.trans (of_decide_eq_true hv).symm))) le_rfl rfl

/-! ### Members and their commands -/

theorem setMem_numbered {r : State} (s : State) (m : Nat) (st : Nat) (h : Numbered r (s.outside others)) : Numbered r ((setMem s m st).outside others) :=
  modMem_numbered _ _ _ h

theorem sendQueued_numbered {r : State} (s : State) (m : Nat) (h : Numbered r (s.outside others)) : Numbered r ((sendQueued s m).outside others) := by
  unfold sendQueued
  split
  · exact h
  · split
    · exact modMc_numbered _ _ _ (fun _ => rfl) h
    · exact h

theorem dropMc_numbered {r : State} (s : State) (id : Nat) (h : Numbered r (s.outside others)) : Numbered r ((dropMc s id).outside others) := by
  unfold dropMc
  split
  · exact h
  · exact sendQueued_numbered _ _ (h.of_cmds rfl rfl (fun k hk => .inr ⟨k, List.mem_of_mem_filter hk, rfl⟩) le_rfl)

theorem reissueMc_numbered {r : State} (s : State) (id : Nat) (h : Numbered r (s.outside others)) : Numbered r ((reissueMc s id).outside others) :=
  modMc_numbered _ _ _ (fun _ => rfl) h

theorem fillPlaces_numbered {r : State} (s : State) (h : Numbered r (s.outside others)) : Numbered r ((fillPlaces s).outside others) :=
  numbered_foldl (fun _ _ hu => numbered_foldl (fun _ _ hu => sendQueued_numbered _ _ hu) hu) h

theorem unfence_numbered {r : State} (s : State) (h : Numbered r (s.outside others)) : Numbered r ((unfence s).outside others) :=
  fillPlaces_numbered _ (h.of_cmds rfl rfl (fun _ hk => .inr (id_of_mem_modIf (num := MemberCmd.id) hk (fun _ _ => rfl))) le_rfl)

theorem errorEvent_numbered {r : State} (s : State) (m : Nat) (h : Numbered r (s.outside others)) : Numbered r ((errorEvent s m).outside others) :=
  modMem_numbered _ _ _ h

theorem makeSuspect_numbered {r : State} (s : State) (m : Nat) (h : Numbered r (s.outside others)) : Numbered r ((makeSuspect s m).outside others) := by
  unfold makeSuspect
  split
  · exact modMem_numbered _ _ _ (setMem_numbered _ _ _ h)
  · exact h

theorem issueNeed_numbered {r : State} (tag : Nat) (s : State) (n : Need) (h : Numbered r (s.outside others)) : Numbered r ((issueNeed tag s n).outside others) := by
  unfold issueNeed
  split
  · exact h
  · refine numbered_foldl (fun _ _ hu => ?_) ?_
    · split
      · exact issue_numbered _ _ _ _ _ _ _ hu
      · exact hu
    · split
      · exact h
      · simpa

/-! ### The reads and writes of a work -/

theorem withWindows_numbered {r : State} (s : State) (w : Work) (groups : List Nat) (go : State → State) (hgo : ∀ t, Numbered r (t.outside others) → Numbered r ((go t).outside others))
    (h : Numbered r (s.outside others)) : Numbered r ((withWindows s w groups go).outside others) := by
  unfold withWindows
  split
  · exact hgo _ (by simpa)
  · simpa

theorem workReads_numbered {r : State} (s : State) (id : Nat) (h : Numbered r (s.outside others)) : Numbered r ((workReads s id).outside others) := by
  unfold workReads
  split
  · exact h
  · split
    · exact h
    · dsimp only
      split
      · exact h
      · exact withWindows_numbered _ _ _ _ (fun t ht => numbered_foldl (fun u _ hu => issue_numbered u _ _ _ _ _ _ hu) ht) h

theorem planWork_numbered {r : State} (s : State) (id : Nat) (h : Numbered r (s.outside others)) : Numbered r ((planWork s id).outside others) := by
  unfold planWork
  split
  · exact h
  · next w hw =>
    split
    · exact h
    · have hid : w.id = id := by simpa using List.find?_some (show s.works.find? (fun w => w.id = id) = some w from hw)
      refine workReads_numbered _ _ (modWork_numbered _ _ _ (fun _ => rfl) (numbered_pairFold (fun p x hp => ?_) ?_))
      · simpa using hp
      · exact putWork_numbered s _ hid h

theorem startReads_numbered {r : State} (s : State) (id : Nat) (h : Numbered r (s.outside others)) : Numbered r ((startReads s id).outside others) := by
  unfold startReads
  split
  · exact h
  · split
    · exact h
    · split
      · exact planWork_numbered s id h
      · exact withWindows_numbered _ _ _ _ (fun t ht => numbered_foldl (fun u n hu => issueNeed_numbered _ u n hu) ht) h

theorem fillNeeds_numbered {r : State} (s : State) (id : Nat) (h : Numbered r (s.outside others)) : Numbered r ((fillNeeds s id).outside others) := by
  unfold fillNeeds
  split
  · exact h
  · split
    · exact h
    · exact planWork_numbered _ _ (modWork_numbered _ _ _ (fun _ => rfl) h)

theorem issueWrites_numbered {r : State} (s : State) (id : Nat) (h : Numbered r (s.outside others)) : Numbered r ((issueWrites s id).outside others) := by
  unfold issueWrites
  split
  · exact h
  · split
    · exact h
    · dsimp only
      split
      · exact h
      · split
        · exact h
        · exact withWindows_numbered _ _ _ _ (fun t ht => modWork_numbered _ _ _ (fun _ => rfl) (numbered_foldl (fun u _ hu => issue_numbered u _ _ _ _ _ _ hu) ht)) h

theorem toStepFour_numbered {r : State} (s : State) (id : Nat) (h : Numbered r (s.outside others)) : Numbered r ((toStepFour s id).outside others) := by
  unfold toStepFour
  split
  · exact h
  · refine issueWrites_numbered _ _ (modWork_numbered _ _ _ (fun _ => rfl) ?_)
    split
    · refine h.of_cmds rfl rfl (fun k hk => .inr (id_of_mem_map hk (fun k => ?_))) le_rfl
      split
      · split <;> rfl
      · rfl
    · exact h

theorem pushPostings_numbered {r : State} (s : State) (id : Nat) (h : Numbered r (s.outside others)) : Numbered r ((pushPostings s id).outside others) := by
  unfold pushPostings
  split
  · exact h
  · dsimp only
    split
    · exact toStepFour_numbered _ _ (modWork_numbered _ _ _ (fun _ => rfl) h)
    · exact modWork_numbered _ _ _ (fun _ => rfl) h

theorem tryPostings_numbered {r : State} (s : State) (id : Nat) (h : Numbered r (s.outside others)) : Numbered r ((tryPostings s id).outside others) := by
  unfold tryPostings
  split
  · exact h
  · split
    · exact pushPostings_numbered _ _ h
    · exact h

theorem toPostings_numbered {r : State} (s : State) (id : Nat) (h : Numbered r (s.outside others)) : Numbered r ((toPostings s id).outside others) := by
  unfold toPostings
  split
  · exact h
  · exact tryPostings_numbered _ _ (numbered_foldl (fun _ _ hu => by simpa) (modWork_numbered _ _ _ (fun _ => rfl) h))

theorem grantHold_numbered {r : State} (s : State) (id : Nat) (h : Numbered r (s.outside others)) : Numbered r ((grantHold s id).outside others) := by
  unfold grantHold
  split
  · exact h
  · next w _ =>
    have hheld : Numbered r ((modWork { s with holds := { s.holds with held := s.holds.held ++ [(w.layout, w.row, id)] } } id (fun w => { w with held := true })).outside others) :=
      modWork_numbered _ _ _ (fun _ => rfl) (h.of_same rfl rfl rfl rfl)
    dsimp only
    split
    · exact startReads_numbered _ _ hheld
    · split
      · split
        · exact toPostings_numbered _ _ hheld
        · exact planWork_numbered _ _ (modWork_numbered _ _ _ (fun _ => rfl) (hheld.of_same rfl rfl rfl rfl))
      · exact hheld

theorem holdRequest_numbered {r : State} (s : State) (id : Nat) (h : Numbered r (s.outside others)) : Numbered r ((holdRequest s id).outside others) := by
  unfold holdRequest
  split
  · exact h
  · split
    · exact h
    · split
      · exact grantHold_numbered _ _ h
      · simpa

theorem grantWaiting_numbered {r : State} (s : State) (h : Numbered r (s.outside others)) : Numbered r ((grantWaiting s).outside others) := by
  unfold grantWaiting
  split
  · exact grantHold_numbered _ _ (by simpa)
  · exact h

theorem holdRelease_numbered {r : State} (s : State) (id : Nat) (h : Numbered r (s.outside others)) : Numbered r ((holdRelease s id).outside others) := by
  unfold holdRelease
  split
  · exact h
  · split
    · exact h
    · exact grantWaiting_numbered _ ((modWork_numbered s id (fun w => { w with held := false }) (fun _ => rfl) h).of_same rfl rfl rfl rfl)

theorem dropWork_numbered {r : State} (s : State) (id : Nat) (h : Numbered r (s.outside others)) : Numbered r ((dropWork s id).outside others) :=
  (holdRelease_numbered s id h).of_works (fun w hw => .inr ⟨w, List.mem_of_mem_filter hw, rfl⟩) le_rfl rfl

theorem rereadRow_numbered {r : State} (s : State) (layout : Nat) (row : Nat) (h : Numbered r (s.outside others)) : Numbered r ((rereadRow s layout row).outside others) := by
  refine numbered_foldl (fun u e hu => numbered_foldl (fun u n hu => issueNeed_numbered _ u _ hu) hu) ?_
  exact h.of_ids (fun _ hw => .inr (id_of_mem_map (num := Work.id) hw (fun _ => rfl))) le_rfl (fun k hk => .inr ⟨k, List.mem_of_mem_filter hk, rfl⟩) le_rfl

/-! ### Works begin -/

theorem stepOne_numbered {r : State} (s : State) (id : Nat) (h : Numbered r (s.outside others)) : Numbered r ((stepOne s id).outside others) := by
  unfold stepOne
  split
  · exact h
  · split
    · exact h
    · split
      · exact h
      · split
        · simpa
        · split
          · dsimp only
            split
            · split
              · exact startReads_numbered _ _ (modWork_numbered _ _ _ (fun _ => rfl) (by simpa))
              · exact modWork_numbered _ _ _ (fun _ => rfl) (by simpa)
            · exact modWork_numbered _ _ _ (fun _ => by split <;> rfl) (planWork_numbered _ _ (by simpa))
          · exact h

theorem mapBitSet_numbered {r : State} (s : State) (id : Nat) (h : Numbered r (s.outside others)) : Numbered r ((mapBitSet s id).outside others) := by
  unfold mapBitSet
  split
  · exact h
  · split
    · exact h
    · split
      · exact stepOne_numbered _ _ h
      · split
        · simpa
        · exact stepOne_numbered _ _ (by simpa)

theorem retryStepOne_numbered {r : State} (s : State) (h : Numbered r (s.outside others)) : Numbered r ((retryStepOne s).outside others) :=
  numbered_foldl (fun _ _ hu => stepOne_numbered _ _ hu) h

theorem addWork_numbered {r : State} (s : State) (kind : WorkKind) (volume : Nat) (l : Layout) (row : Nat) (news : List (Nat × Nat × Cells)) (wants : List (ChunkId × Nat × List (ChunkId × Nat)))
    (forms : List (ChunkId × Bool)) (recs : List Nat) (replayed : Bool) (needs : List Need) (h : Numbered r (s.outside others)) :
    Numbered r ((addWork s kind volume l row news wants forms recs replayed needs).outside others) := by
  refine stepOne_numbered _ _ ?_
  rw [assignRegions_outside _ _ _ (by simp)]
  exact h.of_works (fun w hw => new_or_old hw (Nat.lt_succ_self _)) (Nat.le_succ _) rfl

theorem scrubWork_numbered {r : State} (s : State) (l : Layout) (row : Nat) (pos : Nat) (news : List (Nat × Nat × Cells)) (forms : List (ChunkId × Bool)) (needs : List Need)
    (h : Numbered r (s.outside others)) : Numbered r ((scrubWork s l row pos news forms needs).outside others) := by
  unfold scrubWork
  split
  · exact h
  · refine stepOne_numbered _ _ ?_
    rw [assignRegions_outside _ _ _ (by simp)]
    exact h.of_works (fun w hw => new_or_old hw (Nat.lt_succ_self _)) (Nat.le_succ _) (same_drives (t := holdAtOnce s l.index row s.nextWork) (holdAtOnce_outside (ps := [.holds]) s _ _ _ (by decide)) (by decide))

/-! ### The ends of reads -/

theorem stripeReadComplete_numbered {r : State} (s : State) (id : Nat) (h : Numbered r (s.outside others)) : Numbered r ((stripeReadComplete s id).outside others) := by
  unfold stripeReadComplete
  split
  · exact h
  · split
    · exact h
    · split
      · exact toPostings_numbered _ _ (modWork_numbered _ _ _ (fun _ => rfl) h)
      · split
        · exact h
        · exact modWork_numbered _ _ _ (fun _ => rfl) h

theorem workRead_numbered {r : State} (s : State) (id : Nat) (ch : ChunkId) (pos : Nat) (data : Option Cells) (h : Numbered r (s.outside others)) :
    Numbered r ((workRead s id ch pos data).outside others) := by
  unfold workRead
  split
  · exact modWork_numbered _ _ _ (fun _ => rfl) h
  · exact planWork_numbered _ _ ((modWork_numbered s id (fun w => { w with badPos := w.badPos ++ [(ch, pos)], fromClose := s.now + 1 }) (fun _ => rfl) h).of_same rfl rfl rfl rfl)

theorem markDelivered_numbered {r : State} (s : State) (tag : Nat) (needs : List Need) (h : Numbered r (s.outside others)) : Numbered r ((markDelivered s tag needs).outside others) := by
  refine h.of_cmds rfl rfl (fun k hk => .inr (id_of_mem_map hk (fun k => ?_))) le_rfl
  split
  · split
    · rfl
    · split
      · split <;> rfl
      · rfl
  · rfl

theorem readDone_numbered {r : State} (s : State) (tag : Nat) (h : Numbered r (s.outside others)) : Numbered r ((readDone s tag).outside others) := by
  unfold readDone
  split
  · exact h
  · split
    · exact h
    · dsimp only
      split
      · simpa using markDelivered_numbered _ _ _ (by simpa)
      · simpa using markDelivered_numbered _ _ _ (by simpa)

theorem vaultMismatch_numbered {r : State} (s : State) (v : Nat) (o : Object) (h : Numbered r (s.outside others)) : Numbered r ((vaultMismatch s v o).outside others) := by
  have hfailed : Numbered r ((modVault s v (fun x => { x with failed := inc 0xFFFF x.failed })).outside others) := by simpa
  unfold vaultMismatch
  dsimp only
  split
  · exact hfailed
  · exact hfailed.of_same rfl rfl rfl rfl

theorem vaultDone_numbered {r : State} (s : State) (tag : Nat) (h : Numbered r (s.outside others)) : Numbered r ((vaultDone s tag).outside others) := by
  unfold vaultDone
  split
  · exact h
  · split
    · exact h
    · split
      · exact h
      · dsimp only
        split
        · split
          · simpa using markDelivered_numbered _ _ _ h
          · split
            · simpa using markDelivered_numbered _ _ _ h
            · simpa using vaultMismatch_numbered _ _ _ (by simpa using markDelivered_numbered _ _ _ h)
        · split
          · simpa using markDelivered_numbered _ _ _ h
          · simpa using vaultMismatch_numbered _ _ _ (by simpa using markDelivered_numbered _ _ _ h)

theorem blockDone_numbered {r : State} (s : State) (tag : Nat) (h : Numbered r (s.outside others)) : Numbered r ((blockDone s tag).outside others) :=
  vaultDone_numbered _ _ (readDone_numbered _ _ h)

theorem jobDone_numbered {r : State} (s : State) (id : Nat) (h : Numbered r (s.outside others)) : Numbered r ((jobDone s id).outside others) := by
  unfold jobDone
  split
  · exact h
  · split
    · exact h
    · dsimp only
      split
      · split
        · simpa using markDelivered_numbered _ _ _ h
        · exact vaultMismatch_numbered _ _ _ (by simpa using markDelivered_numbered _ _ _ h)
      · split
        · simpa using markDelivered_numbered _ _ _ h
        · simpa using markDelivered_numbered _ _ _ h

theorem modNeed_numbered {r : State} (s : State) (tag : Nat) (idx : Nat) (f : Need → Option Need) (h : Numbered r (s.outside others)) : Numbered r ((modNeed s tag idx f).outside others) := by
  unfold modNeed
  dsimp only
  split
  · simpa
  · split
    · simpa
    · exact modWork_numbered _ _ _ (fun _ => rfl) h

theorem needMoved_numbered {r : State} (s : State) (tag : Nat) (h : Numbered r (s.outside others)) : Numbered r ((needMoved s tag).outside others) := by
  unfold needMoved
  split
  · exact blockDone_numbered _ _ h
  · split
    · exact jobDone_numbered _ _ h
    · exact fillNeeds_numbered _ _ h

/-! ### Reads of blocks that members hold -/

theorem rewriteFromTarget_numbered {r : State} (s : State) (v : Nat) (b : Nat) (h : Numbered r (s.outside others)) : Numbered r ((rewriteFromTarget s v b).outside others) := by
  unfold rewriteFromTarget
  split
  · split
    · exact h
    · dsimp only
      split
      · exact scrubWork_numbered _ _ _ _ _ _ _ h
      · exact h
  · exact h

theorem needLost_numbered {r : State} (s : State) (tag : Nat) (n : Need) (h : Numbered r (s.outside others)) : Numbered r ((needLost s tag n).outside others) := by
  unfold needLost
  split
  · exact h
  · split
    · dsimp only
      split
      · exact issueNeed_numbered _ _ _ (rewriteFromTarget_numbered _ _ _ (modNeed_numbered _ _ _ _ h))
      · simpa using rewriteFromTarget_numbered _ _ _ (modNeed_numbered _ _ _ _ h)
    · dsimp only
      split
      · simpa using modNeed_numbered _ _ _ _ h
      · split
        · simpa using modNeed_numbered _ _ _ _ h
        · split
          · exact planWork_numbered _ _ (modWork_numbered _ _ _ (fun _ => rfl) (by simpa using modNeed_numbered _ _ _ _ h))
          · exact modWork_numbered _ _ _ (fun _ => rfl) (by simpa using modNeed_numbered _ _ _ _ h)

theorem replanNeed_numbered {r : State} (s : State) (tag : Nat) (idx : Nat) (bad : List ChunkId) (h : Numbered r (s.outside others)) :
    Numbered r ((replanNeed s tag idx bad).outside others) := by
  unfold replanNeed
  split
  · exact h
  · dsimp only
    split
    · exact needMoved_numbered _ _ (needLost_numbered _ _ _ h)
    · split
      · split
        · exact needMoved_numbered _ _ (needLost_numbered _ _ _ h)
        · split
          · exact modNeed_numbered _ _ _ _ h
          · split
            · exact needMoved_numbered _ _ (issueNeed_numbered _ _ _ (modNeed_numbered _ _ _ _ h))
            · simpa using modNeed_numbered _ _ _ _ h
      · split
        · exact needMoved_numbered _ _ (needLost_numbered _ _ _ h)
        · split
          · exact modNeed_numbered _ _ _ _ h
          · split
            · exact needMoved_numbered _ _ (issueNeed_numbered _ _ _ (modNeed_numbered _ _ _ _ h))
            · simpa using modNeed_numbered _ _ _ _ h

theorem resumeNeeds_numbered {r : State} (s : State) (tag : Nat) (h : Numbered r (s.outside others)) : Numbered r ((resumeNeeds s tag).outside others) := by
  unfold resumeNeeds
  refine numbered_foldl (fun _ _ hu => ?_) h
  split
  · exact hu
  · exact replanNeed_numbered _ _ _ _ hu

theorem readIssue_numbered {r : State} (s : State) (tag : Nat) (h : Numbered r (s.outside others)) : Numbered r ((readIssue s tag).outside others) := by
  unfold readIssue
  split
  · exact h
  · exact blockDone_numbered _ _ (numbered_foldl (fun _ _ hu => replanNeed_numbered _ _ _ _ hu) (by simpa))

theorem beginRead_numbered {r : State} (s : State) (tag : Nat) (h : Numbered r (s.outside others)) : Numbered r ((beginRead s tag).outside others) := by
  unfold beginRead
  split
  · exact h
  · dsimp only
    split
    · simpa
    · have hrest (t : State) (ht : Numbered r (t.outside others)) (groups : List Nat) :
          Numbered r ((if groups.all (serves t) && !t.pair.fenced then readIssue t tag else if groups.isEmpty then readDone t tag else parkCmd t tag groups).outside others) := by
        split
        · exact readIssue_numbered t tag ht
        · split
          · exact readDone_numbered t tag ht
          · simpa
      refine hrest _ ?_ _
      rw [modCmd_outside _ _ _ (by simp)]
      refine numbered_foldl (fun u e hu => rewriteFromTarget_numbered u _ _ hu) (Numbered.of_same (numbered_foldl (fun u e hu => by simpa) h) rfl rfl rfl rfl)

theorem readRow_numbered {r : State} (s : State) (opcode : Nat) (tag : Nat) (h : Numbered r (s.outside others)) : Numbered r ((readRow s opcode tag).outside others) := by
  unfold readRow
  split
  · exact h
  · split
    · simpa
    · exact beginRead_numbered _ _ h

theorem readWaitEnd_numbered {r : State} (s : State) (tag : Nat) (h : Numbered r (s.outside others)) : Numbered r ((readWaitEnd s tag).outside others) := by
  unfold readWaitEnd
  split
  · exact h
  · split
    · exact h
    · split
      · exact beginRead_numbered _ _ h
      · exact readDone_numbered _ _ h

theorem issueParked_numbered {r : State} (s : State) (h : Numbered r (s.outside others)) : Numbered r ((issueParked s).outside others) := by
  unfold issueParked
  refine numbered_foldl (fun _ _ hu => ?_) h
  split
  · exact readIssue_numbered _ _ (by simpa)
  · exact hu

theorem resumeWork_numbered {r : State} (s : State) (w : Work) (h : Numbered r (s.outside others)) : Numbered r ((resumeWork s w).outside others) := by
  unfold resumeWork
  split
  · exact h
  · split
    · exact h
    · split
      · exact planWork_numbered _ _ (modWork_numbered _ _ _ (fun _ => rfl) h)
      · exact workReads_numbered _ _ h

theorem needsBoundary_numbered {r : State} (s : State) (h : Numbered r (s.outside others)) : Numbered r ((needsBoundary s).outside others) := by
  unfold needsBoundary
  refine numbered_foldl (fun _ _ hu => tryPostings_numbered _ _ hu) ?_
  split
  · split
    · exact numbered_foldl (fun _ _ hu => needMoved_numbered _ _ hu) h
    · exact numbered_foldl (fun _ _ hu => resumeWork_numbered _ _ hu) (numbered_foldl (fun _ _ hu => needMoved_numbered _ _ hu) h)
  · split
    · exact numbered_foldl (fun _ _ hu => needMoved_numbered _ _ hu) (numbered_foldl (fun _ _ hu => resumeNeeds_numbered _ _ hu) h)
    · exact numbered_foldl (fun _ _ hu => resumeWork_numbered _ _ hu) (numbered_foldl (fun _ _ hu => needMoved_numbered _ _ hu) (numbered_foldl (fun _ _ hu => resumeNeeds_numbered _ _ hu) h))

/-! ### Commands complete, fail or come late -/

theorem repairFails_numbered {r : State} (s : State) (id : Nat) (h : Numbered r (s.outside others)) : Numbered r ((repairFails s id).outside others) := by
  unfold repairFails
  split
  · exact h
  · exact dropWork_numbered _ _ (numbered_foldl (fun _ _ hu => by simpa) h)

theorem rewriteWork_numbered {r : State} (s : State) (id : Nat) (h : Numbered r (s.outside others)) : Numbered r ((rewriteWork s id).outside others) :=
  planWork_numbered _ _ (modWork_numbered _ _ _ (fun _ => rfl) (by simpa))

theorem writesEnded_numbered {r : State} (s : State) (id : Nat) (h : Numbered r (s.outside others)) : Numbered r ((writesEnded s id).outside others) := by
  unfold writesEnded
  split
  · exact h
  · split
    · exact rewriteWork_numbered _ _ h
    · exact h

theorem deliver_numbered {r : State} (s : State) (k : MemberCmd) (data : Cells) (h : Numbered r (s.outside others)) : Numbered r ((deliver s k data).outside others) := by
  unfold deliver
  split
  · exact needMoved_numbered _ _ (modNeed_numbered _ _ _ _ h)
  · exact workRead_numbered _ _ _ _ _ h
  · split
    · exact h
    · exact writesEnded_numbered _ _ (modWork_numbered _ _ _ (fun _ => rfl) (by simpa))
  · split
    · exact modMem_numbered _ _ _ h
    · split
      · simpa using modMem_numbered _ _ _ h
      · exact h

theorem failed_numbered {r : State} (s : State) (k : MemberCmd) (h : Numbered r (s.outside others)) : Numbered r ((failed s k).outside others) := by
  unfold failed
  split
  · refine replanNeed_numbered _ _ _ _ ?_
    split
    · simpa
    · exact h
  · exact workRead_numbered _ _ _ _ _ h
  · split
    · exact h
    · split
      · exact repairFails_numbered _ _ h
      · split
        · exact writesEnded_numbered _ _ (modWork_numbered _ _ _ (fun _ => rfl) (by simpa))
        · exact writesEnded_numbered _ _ (modWork_numbered _ _ _ (fun _ => rfl) h)
  · exact h

theorem reconstruct_numbered {r : State} (s : State) (k : MemberCmd) (h : Numbered r (s.outside others)) : Numbered r ((reconstruct s k).outside others) := by
  unfold reconstruct
  dsimp only
  split
  · refine replanNeed_numbered _ _ _ _ ?_
    split
    · exact dropMc_numbered _ _ h
    · exact modMc_numbered _ _ _ (fun _ => rfl) h
  · split
    · split
      · exact planWork_numbered _ _ (modWork_numbered _ _ _ (fun _ => rfl) (dropMc_numbered _ _ h))
      · exact dropMc_numbered _ _ h
    · split
      · exact planWork_numbered _ _ (modWork_numbered _ _ _ (fun _ => rfl) (modMc_numbered _ _ _ (fun _ => rfl) h))
      · exact modMc_numbered _ _ _ (fun _ => rfl) h
  · split
    · exact dropMc_numbered _ _ h
    · exact modMc_numbered _ _ _ (fun _ => rfl) h

theorem retryWrites_numbered {r : State} (s : State) (h : Numbered r (s.outside others)) : Numbered r ((retryWrites s).outside others) :=
  numbered_foldl (fun _ _ hu => issueWrites_numbered _ _ hu) h

theorem backOnline_numbered {r : State} (s : State) (k : MemberCmd) (h : Numbered r (s.outside others)) : Numbered r ((backOnline s k).outside others) := by
  unfold backOnline
  split
  · refine retryWrites_numbered _ ((modMem_numbered _ k.member (fun m => { m with suspectSince := 0, retiring := if m.retiring = some 1 || m.retiring = some 4 then m.retiring else none })
      (setMem_numbered s k.member 1 h)).of_cmds rfl rfl (fun j hj => .inr (id_of_mem_map hj (fun c => ?_))) le_rfl)
    split <;> rfl
  · exact h

theorem lateRead_numbered {r : State} (s : State) (k : MemberCmd) (data : Cells) (h : Numbered r (s.outside others)) : Numbered r ((lateRead s k data).outside others) := by
  have hdrop := dropMc_numbered s k.id h
  have hcompare (layout row : Nat) (out : Cells) : Numbered r ((if out = data then { dropMc s k.id with degrade := { (dropMc s k.id).degrade with matched := inc 0xFFFF (dropMc s k.id).degrade.matched } }
    else fire { dropMc s k.id with
      degrade := { (dropMc s k.id).degrade with mismatched := inc 0xFFFF (dropMc s k.id).degrade.mismatched }
      drives := { (dropMc s k.id).drives with scrubFirst := (layout, row) :: (dropMc s k.id).drives.scrubFirst } } 0x0A 0 k.member (natLe 8 row ++ natLe 1 layout) false).outside others) := by
    split
    · exact hdrop.of_same rfl rfl rfl rfl
    · rw [fire_outside _ _ _ _ _ _ (by simp)]
      exact hdrop.of_same rfl rfl rfl rfl
  unfold lateRead
  dsimp only
  split
  · exact hdrop.of_same rfl rfl rfl rfl
  · split
    · split
      · split
        · exact hcompare _ _ _
        · exact hdrop
      · split
        · exact hdrop
        · split
          · exact hdrop
          · exact needMoved_numbered _ _ (issueNeed_numbered _ _ _ (modNeed_numbered _ _ _ _ (hdrop.of_same rfl rfl rfl rfl)))
    · split
      · split
        · exact hcompare _ _ _
        · exact hdrop
      · split
        · exact hdrop
        · split
          · refine tryPostings_numbered _ _ (modWork_numbered _ _ _ (fun _ => rfl) (Numbered.of_same (s := if _ then dropPostings (dropMc s k.id) _ else dropMc s k.id) ?_ rfl rfl rfl rfl))
            split
            · simpa
            · exact hdrop
          · exact hdrop
    · exact hdrop

theorem memberCompletion_numbered {r : State} (s : State) (id : Nat) (sense : Sense) (data : List Byte) (h : Numbered r (s.outside others)) :
    Numbered r ((memberCompletion s id sense data).outside others) := by
  unfold memberCompletion
  split
  · exact h
  · split
    · exact h
    · dsimp only
      split
      · split
        · refine lateRead_numbered _ _ _ ?_
          split
          · simpa using backOnline_numbered _ _ h
          · simpa using backOnline_numbered _ _ h
        · refine dropMc_numbered _ _ (errorEvent_numbered _ _ ?_)
          split
          · simpa using backOnline_numbered _ _ h
          · exact backOnline_numbered _ _ h
        · refine dropMc_numbered _ _ ?_
          split
          · simpa using backOnline_numbered _ _ h
          · exact backOnline_numbered _ _ h
      · split
        · refine deliver_numbered _ _ _ (dropMc_numbered _ _ ?_)
          split
          · simpa using backOnline_numbered _ _ h
          · simpa using backOnline_numbered _ _ h
        · split
          · split
            · exact modMc_numbered _ _ _ (fun _ => rfl) (by simpa using backOnline_numbered _ _ h)
            · exact reissueMc_numbered _ _ (by simpa using backOnline_numbered _ _ h)
          · split
            · exact modMc_numbered _ _ _ (fun _ => rfl) (backOnline_numbered _ _ h)
            · exact reissueMc_numbered _ _ (backOnline_numbered _ _ h)
        · refine modMc_numbered _ _ _ (fun _ => rfl) ?_
          split
          · simpa using backOnline_numbered _ _ h
          · exact backOnline_numbered _ _ h
        · refine failed_numbered _ _ (dropMc_numbered _ _ ?_)
          split
          · refine errorEvent_numbered _ _ ?_
            split
            · simpa using backOnline_numbered _ _ h
            · exact backOnline_numbered _ _ h
          · split
            · simpa using backOnline_numbered _ _ h
            · exact backOnline_numbered _ _ h

theorem suspect_numbered {r : State} (s : State) (m : Nat) (h : Numbered r (s.outside others)) : Numbered r ((suspect s m).outside others) := by
  refine (numbered_foldl (fun u k hu => reconstruct_numbered u k hu) (makeSuspect_numbered s m h)).of_cmds rfl rfl (fun j hj => .inr (id_of_mem_map hj (fun c => ?_))) le_rfl
  split <;> rfl

theorem commandTimeout_numbered {r : State} (s : State) (id : Nat) (h : Numbered r (s.outside others)) : Numbered r ((commandTimeout s id).outside others) := by
  unfold commandTimeout
  split
  · exact h
  · dsimp only
    split
    · exact h
    · split
      · exact issue_numbered _ _ _ _ _ _ _ (dropMc_numbered _ _ h)
      · split
        · exact h
        · exact suspect_numbered _ _ (issue_numbered _ _ _ _ _ _ _ (modMem_numbered _ _ _ h))

/-! ### Members are repaired and retired -/

theorem mediaRepair_numbered {r : State} (s : State) (m : Nat) (layout : Nat) (row : Nat) (c : ChunkId) (pos : Nat) (h : Numbered r (s.outside others)) :
    Numbered r ((mediaRepair s m layout row c pos).outside others) := by
  unfold mediaRepair
  split
  · split
    · exact modWork_numbered _ _ _ (fun _ => rfl) (addWork_numbered _ _ _ _ _ _ _ _ _ _ _ h)
    · exact h
  · exact h

theorem retireIn_numbered {r : State} (s : State) (l : Layout) (pn : Nat) (p : Pool) (m : Nat) (h : Numbered r (s.outside others)) : Numbered r ((retireIn s l pn p m).outside others) := by
  unfold retireIn
  simp only [mem_others, Part.isOther, passFor_outside]
  split
  · exact setMem_numbered _ _ _ (by simpa)
  · simpa
  · simpa

theorem rechoose_numbered {r : State} (s : State) (l : Layout) (pn : Nat) (p : Pool) (m : Nat) (h : Numbered r (s.outside others)) : Numbered r ((rechoose s l pn p m).outside others) := by
  unfold rechoose
  refine numbered_foldl (fun _ _ hu => ?_) h
  dsimp only
  split
  · simpa using retireIn_numbered _ _ _ _ _ hu
  · exact retireIn_numbered _ _ _ _ _ hu

theorem repairOrRewrite_numbered {r : State} (s : State) (k : WorkKind) (id : Nat) (h : Numbered r (s.outside others)) :
    Numbered r ((if k = .repair then repairFails s id else rewriteWork s id).outside others) := by
  split
  · exact repairFails_numbered s id h
  · exact rewriteWork_numbered s id h

theorem abortOn_numbered {r : State} (s : State) (m : Nat) (h : Numbered r (s.outside others)) : Numbered r ((abortOn s m).outside others) := by
  refine numbered_foldl (fun u w hu => repairOrRewrite_numbered u w.kind w.id hu) (numbered_foldl (fun u w hu => ?_) ?_)
  · split
    · exact hu
    · exact repairOrRewrite_numbered _ _ _ hu
  · exact (numbered_foldl (fun u k hu => reconstruct_numbered u k hu) h).of_cmds rfl rfl (fun k hk => .inr ⟨k, List.mem_of_mem_filter hk, rfl⟩) le_rfl

theorem retireMember_numbered {r : State} (s : State) (m : Nat) (cause : Nat) (h : Numbered r (s.outside others)) : Numbered r ((retireMember s m cause).outside others) := by
  have hchosen (ps : List (Layout × Nat × Pool)) : Numbered r ((ps.foldl (fun s e => rechoose s e.1 e.2.1 e.2.2 m)
      (fire (modMem (setMem s m 3) m (fun x => { x with fault := true, retiring := none, missingSince := none })) 0x08 cause m [] true)).outside others) :=
    numbered_foldl (fun _ _ hu => rechoose_numbered _ _ _ _ _ hu) (by simpa using modMem_numbered _ _ _ (setMem_numbered _ _ _ h))
  refine abortOn_numbered _ _ ?_
  rw [outside_ite, fire_outside _ _ _ _ _ _ (by simp), ite_self]
  split
  · exact hchosen _
  · refine numbered_foldl (fun _ _ hu => ?_) (hchosen _)
    split
    · exact retireIn_numbered _ _ _ _ _ hu
    · exact hu

theorem memberBoundary_numbered {r : State} (s : State) (h : Numbered r (s.outside others)) : Numbered r ((memberBoundary s).outside others) := by
  unfold memberBoundary
  split
  · exact numbered_foldl (fun _ _ hu => retireMember_numbered _ _ _ hu) h
  · exact h

/-! ### Passes, replacements and losses -/

theorem rowRestore_numbered {r : State} (s : State) (k : Nat) (h : Numbered r (s.outside others)) : Numbered r ((rowRestore s k).outside others) := by
  unfold rowRestore
  dsimp only
  split
  · exact h
  · split
    · exact h
    · split
      · simpa
      · split
        · simpa
        · exact addWork_numbered _ _ _ _ _ _ _ _ _ _ _ h

theorem rebuiltMembers_numbered {r : State} (s : State) (h : Numbered r (s.outside others)) : Numbered r ((rebuiltMembers s).outside others) := by
  unfold rebuiltMembers
  refine numbered_foldl (fun _ _ hu => ?_) h
  dsimp only
  split
  · exact setMem_numbered _ _ _ hu
  · exact hu

theorem copyEnd_numbered {r : State} (s : State) (k : Nat) (h : Numbered r (s.outside others)) : Numbered r ((copyEnd s k).outside others) := by
  unfold copyEnd
  simp only [mem_others, Part.isOther, rebuildEnd_outside]
  refine numbered_foldl (fun _ _ hu => ?_) h
  split
  · simpa
  · simpa using modMem_numbered _ _ _ (setMem_numbered _ _ _ (by simpa))

theorem passTurn_numbered {r : State} (s : State) (k : Nat) (h : Numbered r (s.outside others)) : Numbered r ((passTurn s k).outside others) := by
  unfold passTurn
  dsimp only
  split
  · exact h
  · split
    · simpa
    · split
      · split <;> simpa
      · split
        · split
          · split
            · exact h
            · simpa
          · split
            · exact h
            · simpa
        · split
          · split
            · exact copyEnd_numbered _ _ h
            · simpa
          · split
            · split
              · simpa
              · split <;> simpa
            · split
              · simpa
              · split <;> simpa

theorem passBoundary_numbered {r : State} (s : State) (h : Numbered r (s.outside others)) : Numbered r ((passBoundary s).outside others) :=
  rebuiltMembers_numbered _ (numbered_foldl (fun _ _ hu => passTurn_numbered _ _ hu) h)

theorem replacementOutcome_numbered {r : State} (s : State) (x : Replacement) (h : Numbered r (s.outside others)) : Numbered r ((replacementOutcome s x).outside others) := by
  unfold replacementOutcome
  dsimp only
  split
  · rw [fire_outside _ _ _ _ _ _ (by simp)]
    exact (setMem_numbered s x.member x.before h).of_same rfl rfl rfl rfl
  · have hplaced := numbered_foldl (l := s.degrade.placed.filter (fun e => e.2.2.1 = x.member)) (f := fun s e => homesMoved s e.1 e.2.1 x.member e.2.2.2) (fun u e hu => by simpa using hu)
      (modMem_numbered s x.member (fun y => { y with serial := x.drive.serial, sasAddr := x.drive.sasAddr, capacity := x.drive.capacity, sata := x.drive.sata, present := true, fault := false, events := [] }) h)
    split
    · exact setMem_numbered _ _ _ (hplaced.of_same rfl rfl rfl rfl)
    · rw [recordDrive_outside _ _ (by simp)]
      exact setMem_numbered _ _ _ hplaced

theorem admitBoundary_numbered {r : State} (s : State) (h : Numbered r (s.outside others)) : Numbered r ((admitBoundary s).outside others) := by
  refine numbered_foldl (fun u x hu => ?_) h
  dsimp only
  split
  · exact replacementOutcome_numbered _ _ (hu.of_same rfl rfl rfl rfl)
  · exact (setMem_numbered u x.member 6 hu).of_same rfl rfl rfl rfl

theorem lossDurable_numbered {r : State} (s : State) (find : Nat) (acks : List Nat) (h : Numbered r (s.outside others)) : Numbered r ((lossDurable s find acks).outside others) := by
  unfold lossDurable
  split
  · refine numbered_foldl (fun _ _ hu => ?_) (by simpa)
    dsimp only
    split
    · exact startReads_numbered _ _ (modWork_numbered _ _ _ (fun _ => rfl) hu)
    · exact modWork_numbered _ _ _ (fun _ => rfl) hu
  · exact h

theorem readBoundary_numbered {r : State} (s : State) (h : Numbered r (s.outside others)) : Numbered r ((readBoundary s).outside others) :=
  numbered_foldl (fun _ _ hu => blockDone_numbered _ _ hu) h

/-! ### Seals and scrubs -/

theorem sealRow_numbered {r : State} (s : State) (layout : Nat) (row : Nat) (pos : Nat) (h : Numbered r (s.outside others)) : Numbered r ((sealRow s layout row pos).outside others) := by
  unfold sealRow
  split
  · dsimp only
    split
    · exact modWork_numbered _ _ _ (fun _ => rfl) (addWork_numbered _ _ _ _ _ _ _ _ _ _ _ h)
    · exact h
  · exact h

theorem scrubPosition_numbered {r : State} (s : State) (l : Layout) (row : Nat) (j : Nat) (chunks : List (ChunkId × List Byte)) (pos : Nat) (h : Numbered r (s.outside others)) :
    Numbered r ((scrubPosition s l row j chunks pos).1.outside others) := by
  unfold scrubPosition
  split
  · dsimp only
    split
    · exact h
    · exact scrubWork_numbered _ _ _ _ _ _ _ (by simpa)
    · exact scrubWork_numbered _ _ _ _ _ _ _ (by simpa)
    · exact scrubWork_numbered _ _ _ _ _ _ _ (by simpa)
    · exact scrubWork_numbered _ _ _ _ _ _ _ (by simpa)

theorem checkDone_numbered {r : State} (s : State) (layout : Nat) (row : Nat) (j : Nat) (rs : List Mismatch) (h : Numbered r (s.outside others)) :
    Numbered r ((checkDone s layout row j rs).outside others) :=
  numbered_foldl (fun _ _ hu => readDone_numbered _ _ (by simpa)) (by simpa)

theorem scrubRepair_numbered {r : State} (s : State) (l : Layout) (row : Nat) (need : List ChunkId) (chunks : List (ChunkId × List Byte)) (pos : Nat) (h : Numbered r (s.outside others)) :
    Numbered r ((scrubRepair s l row need chunks pos).outside others) := by
  unfold scrubRepair
  refine numbered_foldl (fun _ _ hu => ?_) h
  split
  · exact mediaRepair_numbered _ _ _ _ _ _ hu
  · exact hu

theorem localScrub_numbered {r : State} (s : State) (layout : Nat) (row : Nat) (j : Nat) (chunks : List (ChunkId × List Byte)) (h : Numbered r (s.outside others)) :
    Numbered r ((localScrub s layout row j chunks).outside others) := by
  unfold localScrub
  split
  · dsimp only
    split
    · exact h
    · refine checkDone_numbered _ _ _ _ _ (Numbered.of_same (numbered_pairFold (fun p pos hp => ?_) ?_) rfl rfl rfl rfl)
      · split
        · exact scrubRepair_numbered _ _ _ _ _ _ hp
        · exact scrubPosition_numbered _ _ _ _ _ _ hp
      · simpa
  · exact h

theorem batchCompare_numbered {r : State} (s : State) (l : Layout) (x : BatchRow) (h : Numbered r (s.outside others)) : Numbered r ((batchCompare s l x).outside others) := by
  refine numbered_foldl (fun u a hu => numbered_foldl (fun u pos hu => ?_) hu) (h.of_same rfl rfl rfl rfl)
  split
  · exact hu
  · exact scrubWork_numbered _ _ _ _ _ _ _ (hu.of_same rfl rfl rfl rfl)

theorem globalScrub_numbered {r : State} (s : State) (layout : Nat) (row : Nat) (chunks : List (ChunkId × List Byte)) (h : Numbered r (s.outside others)) :
    Numbered r ((globalScrub s layout row chunks).outside others) := by
  unfold globalScrub
  split
  · dsimp only
    split
    · exact h
    · split
      · exact batchCompare_numbered _ _ _ (h.of_same rfl rfl rfl rfl)
      · exact h.of_same rfl rfl rfl rfl
  · exact h

/-! ### Reshapes -/

theorem copyRow_numbered {r : State} (s : State) (k : Nat) (row : Nat) (d : VolumeDef) (l : Layout) (h : Numbered r (s.outside others)) : Numbered r ((copyRow s k row d l).outside others) := by
  unfold copyRow
  dsimp only
  split
  · exact addWork_numbered _ _ _ _ _ _ _ _ _ _ _ (by simpa)
  · simpa

theorem sourceRow_numbered {r : State} (s : State) (k : Nat) (w : Work) (l : Layout) (h : Numbered r (s.outside others)) : Numbered r ((sourceRow s k w l).outside others) := by
  unfold sourceRow
  dsimp only
  split
  · exact h
  · exact startReads_numbered _ _ (modWork_numbered _ _ _ (fun _ => rfl) (numbered_foldl (fun _ _ hu => by simpa) h))

theorem sourceCopy_numbered {r : State} (s : State) (k : Nat) (h : Numbered r (s.outside others)) : Numbered r ((sourceCopy s k).outside others) := by
  unfold sourceCopy
  split
  · exact h
  · split
    · exact h
    · exact sourceRow_numbered _ _ _ _ h

theorem regionCopy_numbered {r : State} (s : State) (k : Nat) (h : Numbered r (s.outside others)) : Numbered r ((regionCopy s k).outside others) := by
  unfold regionCopy
  dsimp only
  split
  · split
    · exact sourceCopy_numbered _ _ h
    · split
      · exact h
      · split
        · exact copyRow_numbered _ _ _ _ _ (by simpa)
        · simpa
  · exact h

theorem cancelReshape_numbered {r : State} (s : State) (k : Nat) (h : Numbered r (s.outside others)) : Numbered r ((cancelReshape s k).outside others) := by
  unfold cancelReshape
  simp only [mem_others, Part.isOther, dropDemand_outside, modRsh_outside, setRsh_outside, setVolume_outside]
  split
  · simpa using numbered_foldl (fun _ _ hu => dropWork_numbered _ _ hu) h
  · simpa using numbered_foldl (fun _ _ hu => dropWork_numbered _ _ hu) h

theorem slotBoundary_numbered {r : State} (s : State) (k : Nat) (h : Numbered r (s.outside others)) : Numbered r ((slotBoundary s k).outside others) := by
  unfold slotBoundary
  dsimp only
  split
  · exact sourceCopy_numbered _ _ (by simpa)
  · split
    · simpa using cancelReshape_numbered _ _ (sourceCopy_numbered _ _ (by simpa))
    · split
      · simpa using sourceCopy_numbered _ _ (by simpa)
      · split
        · simpa using sourceCopy_numbered _ _ (by simpa)
        · split
          · simpa using sourceCopy_numbered _ _ (by simpa)
          · split
            · simpa using sourceCopy_numbered _ _ (by simpa)
            · split
              · simpa using sourceCopy_numbered _ _ (by simpa)
              · split
                · simpa using sourceCopy_numbered _ _ (by simpa)
                · simpa using sourceCopy_numbered _ _ (by simpa)

theorem reshapeBoundary_numbered {r : State} (s : State) (h : Numbered r (s.outside others)) : Numbered r ((reshapeBoundary s).outside others) :=
  numbered_foldl (fun _ _ hu => slotBoundary_numbered _ _ hu) h

/-! ### Tellers and scratch -/

theorem restage_numbered {r : State} (s : State) (id : Nat) (h : Numbered r (s.outside others)) : Numbered r ((restage s id).outside others) := by
  unfold restage
  split
  · exact h
  · split
    · exact planWork_numbered _ _ (modWork_numbered _ _ _ (fun _ => rfl) (by simpa))
    · exact h

theorem replan_numbered {r : State} (s : State) (id : Nat) (h : Numbered r (s.outside others)) : Numbered r ((replan s id).outside others) := by
  unfold replan
  split
  · exact h
  · split
    · dsimp only
      split
      · exact holdRequest_numbered _ _ (holdRelease_numbered _ _ (modWork_numbered _ _ _ (fun _ => rfl) (by simpa)))
      · exact planWork_numbered _ _ (holdRelease_numbered _ _ (modWork_numbered _ _ _ (fun _ => rfl) (by simpa)))
    · exact h

theorem postingPush_numbered {r : State} (s : State) (p : Posting) (h : Numbered r (s.outside others)) : Numbered r ((postingPush s p).outside others) := by
  unfold postingPush
  dsimp only
  split
  · exact replan_numbered _ _ (by simpa)
  · split <;> simpa

theorem pulse_numbered {r : State} (s : State) (id : Nat) (h : Numbered r (s.outside others)) : Numbered r ((pulse s id).outside others) := by
  unfold pulse
  split
  · exact h
  · split
    · exact h
    · dsimp only
      split
      · exact toStepFour_numbered _ _ (modWork_numbered _ _ _ (fun _ => rfl) h)
      · exact modWork_numbered _ _ _ (fun _ => rfl) h

theorem postingFinish_numbered {r : State} (s : State) (x : Nat) (h : Numbered r (s.outside others)) : Numbered r ((postingFinish s x).outside others) := by
  unfold postingFinish
  dsimp only
  split
  · exact h
  · split
    · exact h
    · split
      · exact restage_numbered _ _ (by simpa)
      · refine pulse_numbered _ _ ?_
        split <;> simpa

theorem splitPosting_numbered {r : State} (s : State) (p : Posting) (h : Numbered r (s.outside others)) : Numbered r ((splitPosting s p).outside others) := by
  unfold splitPosting
  split
  · simpa
  · refine (modWork_numbered _ p.work (fun w => if w.step = 3 && 0 < w.postsLeft then { w with postsLeft := w.postsLeft + 1 } else w) (fun w => ?_) ?_).of_same rfl rfl rfl rfl
    · split <;> rfl
    · simpa

theorem overrunBoundary_numbered {r : State} (s : State) (h : Numbered r (s.outside others)) : Numbered r ((overrunBoundary s).outside others) := by
  unfold overrunBoundary
  simp only [mem_others, Part.isOther, drainProducer_outside]
  refine numbered_foldl (fun _ _ hu => ?_) (numbered_foldl (fun _ _ hu => by simpa) (by simpa))
  split
  · exact splitPosting_numbered _ _ hu
  · simpa

theorem readPoison_numbered {r : State} (s : State) (a : ScrAccess) (h : Numbered r (s.outside others)) : Numbered r ((readPoison s a).outside others) := by
  unfold readPoison
  split
  · split
    · exact h
    · split
      · exact h
      · exact restage_numbered _ _ (by simpa)
  · split
    · dsimp only
      split
      · simpa
      · exact h
    · exact h

theorem scratchCycle_numbered {r : State} (s : State) (wanted : List ScrAccess) (h : Numbered r (s.outside others)) : Numbered r ((scratchCycle s wanted).outside others) :=
  numbered_foldl (fun _ _ hu => by simpa) (numbered_foldl (fun _ _ hu => by simpa) (numbered_foldl (fun _ _ hu => readPoison_numbered _ _ hu) (numbered_foldl (fun _ _ hu => by simpa) (numbered_foldl (fun _ _ hu => by simpa) (numbered_foldl (fun _ _ hu => numbered_foldl (fun _ _ hu => by simpa) hu) (by simpa))))))

/-! ### Destages -/

theorem planRow_numbered {r : State} (s : State) (layout : Nat) (row : Nat) (h : Numbered r (s.outside others)) : Numbered r ((planRow s layout row).outside others) := by
  unfold planRow
  split
  · dsimp only
    split
    · exact h
    · split
      · exact numbered_foldl (fun _ _ hu => by simpa) h
      · split
        · simpa
        · split
          · exact addWork_numbered _ _ _ _ _ _ _ _ _ _ _ (by simpa)
          · simpa
  · exact h

theorem planDestage_numbered {r : State} (s : State) (h : Numbered r (s.outside others)) : Numbered r ((planDestage s).outside others) := by
  unfold planDestage
  split
  · exact numbered_foldl (fun _ _ hu => planRow_numbered _ _ _ hu) h
  · exact h

theorem sealDone_numbered {r : State} (s : State) (w : Work) (h : Numbered r (s.outside others)) : Numbered r ((sealDone s w).outside others) := by
  unfold sealDone
  refine numbered_foldl (fun _ _ hu => ?_) h
  dsimp only
  split
  · exact planWork_numbered _ _ (modWork_numbered _ _ _ (fun _ => rfl) hu)
  · exact modWork_numbered _ _ _ (fun _ => rfl) hu

theorem rowOnDisk_numbered {r : State} (s : State) (w : Work) (h : Numbered r (s.outside others)) : Numbered r ((rowOnDisk s w).outside others) := by
  have hwritten (u : State) (hu : Numbered r (u.outside others)) : Numbered r ((if w.unwritten then setUnwritten u w.layout w.row false else u).outside others) := by
    split
    · simpa
    · exact hu
  have hreread (u : State) (hu : Numbered r (u.outside others)) : Numbered r ((if w.kind = .destage || w.kind = .seal then rereadRow u w.layout w.row else u).outside others) := by
    split
    · exact rereadRow_numbered _ _ _ hu
    · exact hu
  have hdone := hreread _ (hwritten _ (numbered_foldl (l := w.recs) (f := fun s q => recRowDone s q w.layout w.row) (fun _ _ hu => by simpa) (modWork_numbered s w.id (fun w => { w with step := 5 }) (fun _ => rfl) h)))
  unfold rowOnDisk
  dsimp only
  split
  · exact sealDone_numbered _ _ hdone
  · have hlost (u : State) (hu : Numbered r (u.outside others)) : Numbered r ((if u.degrade.loss.isEmpty then u else replaceLost u w).outside others) := by
      split
      · exact hu
      · simpa
    split
    · exact (hlost _ hdone).of_same rfl rfl rfl rfl
    · exact (hlost _ hdone).of_same rfl rfl rfl rfl
  · next k _ =>
    have hpassed (u : State) (hu : Numbered r (u.outside others)) : Numbered r ((if (pass u k).cursor = w.row then advancePass u k else u).outside others) := by
      split
      · simpa
      · exact hu
    exact hpassed _ hdone
  · exact hdone.of_same rfl rfl rfl rfl
  · rw [copyDone_outside _ _ (by simp)]
    exact hdone
  · rw [resyncDone_outside _ _ (by simp) (by simp) (by simp)]
    exact hdone
  · exact hdone

theorem stripeWriteComplete_numbered {r : State} (s : State) (id : Nat) (h : Numbered r (s.outside others)) : Numbered r ((stripeWriteComplete s id).outside others) := by
  unfold stripeWriteComplete
  split
  · exact h
  · split
    · exact rowOnDisk_numbered _ _ h
    · exact h

theorem checkpointComplete_numbered {r : State} (s : State) (acks : List Nat) (h : Numbered r (s.outside others)) : Numbered r ((checkpointComplete s acks).outside others) := by
  unfold checkpointComplete
  split
  · exact h
  · split
    · simpa
    · exact retryStepOne_numbered _ (by simpa)

theorem resynchronise_numbered {r : State} (s : State) (v : Nat) (region : Nat) (h : Numbered r (s.outside others)) : Numbered r ((resynchronise s v region).outside others) := by
  unfold resynchronise
  split
  · exact h
  · dsimp only
    split
    · simpa
    · refine numbered_foldl (fun _ _ hu => ?_) h
      split
      · exact hu
      · exact modWork_numbered _ _ _ (fun _ => rfl) (addWork_numbered _ _ _ _ _ _ _ _ _ _ _ hu)

/-! ### Groups of members -/

theorem startBatch_numbered {r : State} (s : State) (g : Nat) (h : Numbered r (s.outside others)) : Numbered r ((startBatch s g).outside others) := by
  unfold startBatch
  dsimp only
  simpa using numbered_foldl (fun _ _ hu => issue_numbered _ _ _ _ _ _ _ (modMem_numbered _ _ _ hu)) h

theorem grant_numbered {r : State} (s : State) (g : Nat) (h : Numbered r (s.outside others)) : Numbered r ((grant s g).outside others) := by
  unfold grant
  dsimp only
  split
  · simpa
  · exact startBatch_numbered _ _ (by simpa)

theorem shelfPower_numbered {r : State} (s : State) (g : Nat) (ok : Bool) (h : Numbered r (s.outside others)) : Numbered r ((shelfPower s g ok).outside others) := by
  unfold shelfPower
  dsimp only
  split
  · exact h
  · split
    · exact startBatch_numbered _ _ (by simpa)
    · split
      · exact startBatch_numbered _ _ (by simpa)
      · exact h

theorem staggerStep_numbered {r : State} (s : State) (g : Nat) (h : Numbered r (s.outside others)) : Numbered r ((staggerStep s g).outside others) := by
  unfold staggerStep
  dsimp only
  split
  · exact startBatch_numbered _ _ h
  · exact h

theorem spinUpLimit_numbered {r : State} (s : State) (g : Nat) (h : Numbered r (s.outside others)) : Numbered r ((spinUpLimit s g).outside others) := by
  unfold spinUpLimit
  split
  · dsimp only
    simpa using numbered_foldl (fun _ _ hu => suspect_numbered _ _ hu) h
  · exact h

theorem fallGroup_numbered {r : State} (s : State) (g : Nat) (h : Numbered r (s.outside others)) : Numbered r ((fallGroup s g).outside others) := by
  unfold fallGroup
  dsimp only
  simpa using numbered_foldl (fun _ _ hu => issue_numbered _ _ _ _ _ _ _ hu) h

theorem closingEnd_numbered {r : State} (s : State) (g : Nat) (h : Numbered r (s.outside others)) : Numbered r ((closingEnd s g).outside others) := by
  unfold closingEnd
  split
  · exact fallGroup_numbered _ _ h
  · exact h

theorem groupDown_numbered {r : State} (s : State) (g : Nat) (h : Numbered r (s.outside others)) : Numbered r ((groupDown s g).outside others) := by
  unfold groupDown
  split
  · dsimp only
    simpa using numbered_foldl (fun _ _ hu => modMem_numbered _ _ _ hu) h
  · exact h

theorem allFall_numbered {r : State} (s : State) (h : Numbered r (s.outside others)) : Numbered r ((allFall s).outside others) :=
  numbered_foldl (fun _ _ hu => fallGroup_numbered _ _ hu) h

theorem grantDemands_numbered {r : State} (s : State) (ds : List Demand) (h : Numbered r (s.outside others)) : Numbered r ((grantDemands s ds).outside others) := by
  induction ds generalizing s with
  | nil => exact h.of_same rfl rfl rfl rfl
  | cons d ds ih =>
    unfold grantDemands
    dsimp only
    split
    · exact ih _ (numbered_foldl (fun u g hu => grant_numbered u g hu) h)
    · exact h.of_same rfl rfl rfl rfl

theorem governor_numbered {r : State} (s : State) (h : Numbered r (s.outside others)) : Numbered r ((governor s).outside others) := by
  have hsteps (gs : List Nat) : Numbered r ((gs.foldl (fun s g => staggerStep (groupReady s g) g) (gs.foldl (fun s g => groupDown (if opfin s then closingEnd s g else s) g) s)).outside others) := by
    refine numbered_foldl (fun _ _ hu => staggerStep_numbered _ _ (by simpa)) (numbered_foldl (fun _ _ hu => groupDown_numbered _ _ ?_) h)
    split
    · exact closingEnd_numbered _ _ hu
    · exact hu
  unfold governor
  dsimp only
  split
  · exact hsteps _
  · split
    · refine numbered_foldl (fun _ _ hu => by simpa) (numbered_foldl (fun _ _ hu => by simpa) (grantDemands_numbered _ _ ?_))
      simpa using hsteps _
    · refine numbered_foldl (fun _ _ hu => by simpa) (grantDemands_numbered _ _ ?_)
      simpa using hsteps _

/-! ### Discovery -/

theorem bindMember_numbered {r : State} (s : State) (found : List FoundDrive) (d : MemberDef) (h : Numbered r (s.outside others)) : Numbered r ((bindMember s found d).outside others) := by
  unfold bindMember
  dsimp only
  split
  · split
    · exact h
    · refine modMem_numbered _ _ _ ?_
      split
      · refine setMem_numbered _ _ _ ?_
        split
        · simpa
        · exact h
      · split
        · simpa
        · exact h
  · exact modMem_numbered _ _ _ h

theorem discoveryEnd_numbered {r : State} (s : State) (found : List FoundDrive) (expanders : Nat) (enclosures : Nat) (beyond : Nat) (h : Numbered r (s.outside others)) :
    Numbered r ((discoveryEnd s found expanders enclosures beyond).outside others) := by
  refine Numbered.of_same (numbered_foldl (fun u d hu => bindMember_numbered u found d hu) (numbered_foldl (fun u f hu => ?_) ?_)) rfl rfl rfl rfl
  · simpa
  · split
    · simpa
    · exact h

/-! ### Vaults -/

theorem rewriteSources_numbered {r : State} (s : State) (v : Nat) (o : Object) (needs : List Need) (h : Numbered r (s.outside others)) :
    Numbered r ((rewriteSources s v o needs).outside others) :=
  numbered_foldl (fun _ _ hu => rewriteFromTarget_numbered _ _ _ hu) h

theorem readObject_numbered {r : State} (s : State) (c : Cmd) (o : Object) (blocks : List Nat) (h : Numbered r (s.outside others)) : Numbered r ((readObject s c o blocks).outside others) := by
  unfold readObject
  dsimp only
  split
  · simpa
  · split
    · exact readIssue_numbered _ _ (by simpa using rewriteSources_numbered _ _ _ _ (by simpa))
    · split
      · exact blockDone_numbered _ _ (by simpa using rewriteSources_numbered _ _ _ _ (by simpa))
      · simpa using rewriteSources_numbered _ _ _ _ (by simpa)

theorem vaultReader_numbered {r : State} (s : State) (opcode : Nat) (tag : Nat) (h : Numbered r (s.outside others)) : Numbered r ((vaultReader s opcode tag).outside others) := by
  unfold vaultReader
  split
  · exact h
  · split
    · simpa
    · split
      · simpa
      · split
        · simpa
        · split
          · simpa
          · split
            · split
              · simpa
              · exact readObject_numbered _ _ _ _ h
            · exact readObject_numbered _ _ _ _ h

theorem readersBefore_numbered {r : State} (s : State) (p : Pos) (h : Numbered r (s.outside others)) : Numbered r ((readersBefore s p).outside others) :=
  numbered_foldl (fun _ _ hu => vaultReader_numbered _ _ _ hu) h

theorem vaultLand_numbered {r : State} (s : State) (seq : Nat) (h : Numbered r (s.outside others)) : Numbered r ((vaultLand s seq).outside others) := by
  unfold vaultLand
  dsimp only
  split
  · exact h
  · exact h
  · exact numbered_foldl (fun _ _ hu => by simpa) (by simpa using readersBefore_numbered _ _ h)

theorem resumeVault_numbered {r : State} (s : State) (h : Numbered r (s.outside others)) : Numbered r ((resumeVault s).outside others) :=
  numbered_foldl (fun _ _ hu => vaultReader_numbered _ _ _ hu) h

theorem jobOver_numbered {r : State} (s : State) (v : Nat) (o : Object) (second : Bool) (src : List (Nat × Source)) (h : Numbered r (s.outside others)) :
    Numbered r ((jobOver s v o second src).outside others) := by
  unfold jobOver
  split
  · exact h
  · dsimp only
    simpa using rewriteSources_numbered _ _ _ _ (by simpa)

theorem startJob_numbered {r : State} (s : State) (v : Nat) (o : Object) (second : Bool) (h : Numbered r (s.outside others)) : Numbered r ((startJob s v o second).outside others) :=
  jobOver_numbered _ _ _ _ _ h

theorem jobsBoundary_numbered {r : State} (s : State) (h : Numbered r (s.outside others)) : Numbered r ((jobsBoundary s).outside others) := by
  unfold jobsBoundary
  refine numbered_foldl (fun _ _ hu => ?_) h
  dsimp only
  split
  · exact hu
  · split
    · exact jobDone_numbered _ _ (resumeNeeds_numbered _ _ (by simpa))
    · split
      · simpa
      · exact hu

theorem backgroundAudit_numbered {r : State} (s : State) (v : Nat) (h : Numbered r (s.outside others)) : Numbered r ((backgroundAudit s v).outside others) := by
  unfold backgroundAudit
  split
  · exact h
  · split
    · exact h
    · split
      · exact h
      · split
        · exact h
        · exact jobsBoundary_numbered _ (startJob_numbered _ _ _ _ h)

theorem digestRepair_numbered {r : State} (s : State) (v : Nat) (k : Key) (h : Numbered r (s.outside others)) : Numbered r ((digestRepair s v k).outside others) := by
  unfold digestRepair
  split
  · split
    · exact h
    · exact jobsBoundary_numbered _ (startJob_numbered _ _ _ _ h)
  · exact h

/-! ### Resets of queues, power and the function -/

theorem forget_numbered {r : State} (s : State) (c : Cmd) (h : Numbered r (s.outside others)) : Numbered r ((forget s c).outside others) := by
  unfold forget
  dsimp only
  rw [dropDemand_outside _ _ (by simp), dropDemand_outside _ _ (by simp)]
  exact h.of_cmds rfl rfl (fun _ hk => .inr (id_of_mem_modIf (num := MemberCmd.id) hk (fun _ _ => rfl))) le_rfl

theorem coverReset_numbered {r : State} (s : State) (covers : Nat → Bool) (h : Numbered r (s.outside others)) : Numbered r ((coverReset s covers).1.outside others) := by
  refine numbered_pairFold (fun p c hp => ?_) h
  exact forget_numbered _ _ (by simpa)

theorem resetQueue_numbered {r : State} (s : State) (ws : List Nat) (reason : Nat) (wicket : Nat) (h : Numbered r (s.outside others)) :
    Numbered r ((resetQueue s ws reason wicket).outside others) := by
  have hcover := coverReset_numbered s (fun w => ws.contains w) h
  unfold resetQueue
  simpa using hcover

theorem queueResets_numbered {r : State} (s : State) (h : Numbered r (s.outside others)) : Numbered r ((queueResets s).outside others) := by
  unfold queueResets
  split
  · exact h
  · simp only [mem_others, Part.isOther, outside_upd_chip_closers_wickets_pair, outside_ite]
    split
    · exact resetQueue_numbered _ _ _ _ h
    · exact numbered_foldl (fun _ _ hu => resetQueue_numbered _ _ _ _ hu) h

theorem powerTo_numbered {r : State} (s : State) (st : Nat) (reason : Nat) (signal : Bool) (h : Numbered r (s.outside others)) : Numbered r ((powerTo s st reason signal).outside others) := by
  unfold powerTo
  dsimp only
  split
  · exact h
  · split
    · simp only [mem_others, Part.isOther, mgmtCause_outside, fire_outside, sendLtr_outside, outside_ite, setMapped_outside, gateAll_outside, outside_upd_wickets_returns_ints_cfg_link_power_resets_feats, ungateAll_outside, ite_self]
      split
      · split
        · exact allFall_numbered _ (by simpa)
        · exact h
      · exact h
    · simp only [mem_others, Part.isOther, fire_outside, sendLtr_outside, outside_ite, setMapped_outside, gateAll_outside, outside_upd_wickets_returns_ints_cfg_link_power_resets_feats, ungateAll_outside, ite_self]
      split
      · split
        · exact allFall_numbered _ (by simpa)
        · exact h
      · exact h

theorem powerDue_numbered {r : State} (s : State) (e : Nat × Nat) (h : Numbered r (s.outside others)) : Numbered r ((powerDue s e).outside others) := by
  unfold powerDue
  simp only [mem_others, Part.isOther, finishAt_outside, outside_ite, outside_upd_wickets_returns_ints_cfg_link_power_resets_feats]
  split
  · exact h
  · exact powerTo_numbered _ _ _ _ h

theorem restBoundary_numbered {r : State} (s : State) (h : Numbered r (s.outside others)) : Numbered r ((restBoundary s).outside others) := by
  unfold restBoundary
  split
  · exact h
  · dsimp only
    split
    · simpa using powerTo_numbered _ _ _ _ (by simpa)
    · split
      · simpa
      · exact h

theorem d3hot_numbered {r : State} (s : State) (h : Numbered r (s.outside others)) : Numbered r ((d3hot s).outside others) := by
  unfold d3hot
  split
  · exact h
  · exact numbered_foldl (fun _ _ hu => dropWork_numbered _ _ hu) (by simpa)

theorem dormantBoundary_numbered {r : State} (s : State) (h : Numbered r (s.outside others)) : Numbered r ((dormantBoundary s).outside others) := by
  unfold dormantBoundary
  split
  · exact powerTo_numbered _ _ _ _ (by simpa)
  · exact h

theorem toD0_numbered {r : State} (s : State) (h : Numbered r (s.outside others)) : Numbered r ((toD0 s).outside others) := by
  unfold toD0
  split
  · exact h
  · dsimp only
    split
    · split
      · simpa using powerTo_numbered _ _ _ _ (by simpa)
      · exact powerTo_numbered _ _ _ _ (by simpa)
    · split
      · split <;> simpa
      · split <;> simpa

theorem restExit_numbered {r : State} (s : State) (h : Numbered r (s.outside others)) : Numbered r ((restExit s).outside others) := by
  unfold restExit
  split
  · dsimp only
    split
    · exact powerTo_numbered _ _ _ _ (by simpa)
    · simpa
  · exact h

theorem powerBoundary_numbered {r : State} (s : State) (h : Numbered r (s.outside others)) : Numbered r ((powerBoundary s).outside others) :=
  dormantBoundary_numbered _ (restBoundary_numbered _ (restExit_numbered _ (numbered_foldl (fun _ _ hu => powerDue_numbered _ _ hu) (by simpa))))

theorem startReset_numbered {r : State} (s : State) (kind : Nat) (h : Numbered r (s.outside others)) : Numbered r ((startReset s kind).outside others) := by
  unfold startReset
  split
  · exact h
  · split
    · split
      · simpa
      · exact h
    · simp only [ne_eq, ite_not, mem_others, Part.isOther, setAllWickets_outside, holdPostings_outside, outside_upd_wickets_returns_ints_cfg_link_power_resets_feats, outside_ite]
      split
      · exact h
      · split
        · exact powerTo_numbered _ _ _ _ (by simpa)
        · exact h

theorem resetAccount_numbered {r : State} (s : State) (h : Numbered r (s.outside others)) : Numbered r ((resetAccount s).outside others) := by
  unfold resetAccount
  split
  · exact h
  · have hcover := coverReset_numbered s (fun _ => true) h
    dsimp only
    split
    · simpa
    · simpa

theorem resetDone_numbered {r : State} (s : State) (h : Numbered r (s.outside others)) : Numbered r ((resetDone s).outside others) := by
  unfold resetDone
  dsimp only
  simpa using powerTo_numbered _ _ _ _ h

theorem resetBoundary_numbered {r : State} (s : State) (h : Numbered r (s.outside others)) : Numbered r ((resetBoundary s).outside others) := by
  unfold resetBoundary
  split
  · exact resetDone_numbered _ h
  · exact h

/-! ### Records adopted -/

theorem adoptOne_numbered {r : State} (s : State) (x : Rec) (lands : Bool) (h : Numbered r (s.outside others)) : Numbered r ((adoptOne s x lands).outside others) := by
  unfold adoptOne
  dsimp only
  split
  · refine vaultLand_numbered _ _ ?_
    split <;> simpa
  · split <;> simpa

theorem adopt_numbered {r : State} (s : State) (rs : List Rec) (lands : Rec → Bool) (h : Numbered r (s.outside others)) : Numbered r ((adopt s rs lands).outside others) := by
  have hadopted := numbered_foldl (l := rs) (f := fun s x => adoptOne s x (lands x)) (fun u x hu => adoptOne_numbered u x (lands x) hu) (s := { s with bands := s.registry.bands }) (h.of_same rfl rfl rfl rfl)
  unfold adopt
  simpa

/-! ### The pair -/

theorem toRegistry_numbered {r : State} (s : State) (ks : List Nat) (op : MemberOp) (h : Numbered r (s.outside others)) : Numbered r ((toRegistry s ks op).outside others) := by
  unfold toRegistry
  refine numbered_foldl (fun _ _ hu => ?_) h
  split
  · exact issue_numbered _ _ _ _ _ _ _ hu
  · exact hu

theorem dropRegistryCmd_numbered {r : State} (s : State) (k : Nat) (op : MemberOp) (h : Numbered r (s.outside others)) : Numbered r ((dropRegistryCmd s k op).outside others) := by
  unfold dropRegistryCmd
  split
  · exact h
  · split
    · exact dropMc_numbered _ _ h
    · exact h

theorem enterStepEight_numbered {r : State} (s : State) (h : Numbered r (s.outside others)) : Numbered r ((enterStepEight s).outside others) := by
  unfold enterStepEight
  split
  · dsimp only
    simpa using toRegistry_numbered _ _ _ (by simpa)
  · dsimp only
    simpa

theorem startRecord_numbered {r : State} (s : State) (ks : List Nat) (other : Bool) (purpose : Nat) (h : Numbered r (s.outside others)) :
    Numbered r ((startRecord s ks other purpose).outside others) :=
  toRegistry_numbered _ _ _ (by simpa)

theorem negotiation_numbered {r : State} (s : State) (h : Numbered r (s.outside others)) : Numbered r ((negotiation s).outside others) := by
  unfold negotiation
  split
  · exact h
  · simp only [mem_others, Part.isOther, toStep_outside]
    split
    · split <;> simpa
    · split
      · exact startRecord_numbered _ _ _ _ (by simpa)
      · simpa

theorem contend_numbered {r : State} (s : State) (h : Numbered r (s.outside others)) : Numbered r ((contend s).outside others) := by
  unfold contend
  dsimp only
  simpa using toRegistry_numbered _ _ _ (by simpa)

theorem declareFailed_numbered {r : State} (s : State) (h : Numbered r (s.outside others)) : Numbered r ((declareFailed s).outside others) := by
  unfold declareFailed
  split
  · exact h
  · split
    · exact contend_numbered _ h
    · simpa

theorem decide'_numbered {r : State} (s : State) (h : Numbered r (s.outside others)) : Numbered r ((decide' s).outside others) := by
  unfold decide'
  simp only [mem_others, Part.isOther, setPair_outside, outside_ite, outside_upd_ledger_chain_pair, abandonAudit_outside]
  split
  · exact h
  · exact startRecord_numbered _ _ _ _ (by simpa)

theorem winRow_numbered {r : State} (s : State) (h : Numbered r (s.outside others)) : Numbered r ((winRow s).outside others) := by
  unfold winRow
  split
  · exact h
  · split
    · split
      · exact h
      · exact decide'_numbered _ h
    · simpa

theorem failedSeen_numbered {r : State} (s : State) (h : Numbered r (s.outside others)) : Numbered r ((failedSeen s).outside others) := by
  unfold failedSeen
  split
  · exact h
  · dsimp only
    split
    · exact decide'_numbered _ (by simpa)
    · split
      · split
        · simpa
        · exact startRecord_numbered _ _ _ _ (by simpa)
      · simpa

theorem winBoundary_numbered {r : State} (s : State) (h : Numbered r (s.outside others)) : Numbered r ((winBoundary s).outside others) := by
  unfold winBoundary
  split
  · exact h
  · dsimp only
    split
    · simpa using unfence_numbered _ (by simpa)
    · simpa using unfence_numbered _ (by simpa)

theorem endIsolated_numbered {r : State} (s : State) (c : Cmd) (h : Numbered r (s.outside others)) : Numbered r ((endIsolated s c).outside others) := by
  unfold endIsolated
  dsimp only
  split
  · simpa using forget_numbered _ _ h
  · simpa using forget_numbered _ _ h

theorem isolateBoundary_numbered {r : State} (s : State) (h : Numbered r (s.outside others)) : Numbered r ((isolateBoundary s).outside others) := by
  unfold isolateBoundary
  split
  · exact h
  · dsimp only
    split
    · simpa using numbered_foldl (fun _ _ hu => endIsolated_numbered _ _ hu) (by simpa)
    · simpa using numbered_foldl (fun _ _ hu => endIsolated_numbered _ _ hu) (by simpa)

theorem resumeBoundary_numbered {r : State} (s : State) (h : Numbered r (s.outside others)) : Numbered r ((resumeBoundary s).outside others) := by
  unfold resumeBoundary
  split
  · exact h
  · simp only [mem_others, Part.isOther, setPair_outside]
    refine unfence_numbered _ ?_
    simp only [mem_others, Part.isOther, outside_upd_chip_closers_wickets_pair, outside_ite]
    split
    · exact toRegistry_numbered _ _ _ (toRegistry_numbered _ _ _ h)
    · exact toRegistry_numbered _ _ _ h

theorem tally_numbered {r : State} (s : State) (p : Path) (count : Nat) (state : Nat) (serial : Nat) (good : Bool) (h : Numbered r (s.outside others)) :
    Numbered r ((tally s p count state serial good).outside others) := by
  unfold tally
  split
  · exact h
  · split
    · simpa
    · split
      · exact h
      · dsimp only
        split
        · split
          · split
            · exact failedSeen_numbered _ (by simpa)
            · simpa
          · split
            · exact failedSeen_numbered _ (by simpa)
            · split <;> simpa
        · split
          · split
            · exact failedSeen_numbered _ h
            · exact h
          · split
            · exact failedSeen_numbered _ (by simpa)
            · split <;> simpa

theorem recordBoundary_numbered {r : State} (s : State) (h : Numbered r (s.outside others)) : Numbered r ((recordBoundary s).outside others) := by
  unfold recordBoundary
  split
  · simpa
  · simpa
  · simpa
  · exact startRecord_numbered _ _ _ _ (by simpa)
  · exact h

theorem takeoverOne_numbered {r : State} (s : State) (h : Numbered r (s.outside others)) : Numbered r ((takeoverOne s).outside others) := by
  unfold takeoverOne
  dsimp only
  simpa using adopt_numbered _ _ _ (by simpa)

theorem takeoverThree_numbered {r : State} (s : State) (d : Nat) (h : Numbered r (s.outside others)) : Numbered r ((takeoverThree s d).outside others) := by
  unfold takeoverThree
  dsimp only
  simpa using unfence_numbered _ (by simpa)

theorem takeoverBoundary_numbered {r : State} (s : State) (h : Numbered r (s.outside others)) : Numbered r ((takeoverBoundary s).outside others) := by
  unfold takeoverBoundary
  split
  · exact h
  · split
    · exact takeoverOne_numbered _ h
    · split
      · exact takeoverThree_numbered _ _ h
      · exact h

theorem join_numbered {r : State} (s : State) (h : Numbered r (s.outside others)) : Numbered r ((join s).outside others) := by
  unfold join
  split
  · exact h
  · split
    · dsimp only
      simpa
    · split
      · dsimp only
        simpa using toRegistry_numbered _ _ _ h
      · exact h

theorem frameArrives_numbered {r : State} (s : State) (dir : Nat) (f : Frame) (h : Numbered r (s.outside others)) : Numbered r ((frameArrives s dir f).outside others) := by
  unfold frameArrives
  dsimp only
  split
  · simpa
  · simp only [mem_others, Part.isOther, outside_upd_ledger_chain_pair, fillSlots_outside, controlSlot_outside]
    refine numbered_pairFold (fun p x hp => by simpa) ?_
    dsimp only
    split
    · exact tally_numbered _ _ _ _ _ _ (by simpa)
    · simpa

/-! ### Start-up -/

theorem carried_numbered {r : State} (s : State) : Numbered r ((carried s).outside others) :=
  numbered_outside.2 ⟨fun _ _ hw => absurd hw List.not_mem_nil, fun _ _ hk => absurd hk List.not_mem_nil⟩

theorem startUp_numbered {r : State} (s : State) (chip : Chip) (pass : List Bool) : Numbered r ((startUp s chip pass).outside others) := by
  have hcarried := carried_numbered (r := r) s
  unfold startUp
  dsimp only
  split
  · exact hcarried.of_same rfl rfl rfl rfl
  · simpa

theorem replayOne_numbered {r : State} (s : State) (x : Rec) (h : Numbered r (s.outside others)) : Numbered r ((replayOne s x).outside others) := by
  have hadopted := adoptOne_numbered s { x with reported := true } true h
  unfold replayOne
  simpa

theorem replay_numbered {r : State} (s : State) (h : Numbered r (s.outside others)) : Numbered r ((replay s).outside others) := by
  unfold replay
  simp only [mem_others, Part.isOther, outside_upd_closers_ledger_bands_vaults_daybook_reserves, coverRegions_outside, dropOrphans_outside]
  refine numbered_foldl (fun u x hu => replayOne_numbered u x hu) ?_
  simpa

theorem queuePasses_numbered {r : State} (s : State) (h : Numbered r (s.outside others)) : Numbered r ((queuePasses s).outside others) := by
  unfold queuePasses
  simp only [mem_others, Part.isOther, outside_upd_chip_ledger_degrade_reshapes_mgmt]
  refine numbered_foldl (fun _ _ hu => ?_) h
  split
  · split
    · exact hu
    · exact retireIn_numbered _ _ _ _ _ hu
  · exact hu

theorem ledgerRecovery_numbered {r : State} (s : State) (readable : Bool) (h : Numbered r (s.outside others)) : Numbered r ((ledgerRecovery s readable).outside others) := by
  unfold ledgerRecovery
  split
  · exact h
  · have hreplay := replay_numbered s h
    dsimp only
    split
    · have hnew : Numbered r ((coverRegions (takeCursors (formatLedger s))).outside others) := by simpa
      simp only [mem_others, Part.isOther, daybookStart_outside, outside_upd_chip_ledger_degrade_reshapes_mgmt, toStep_outside]
      refine queuePasses_numbered _ ?_
      rw [reapplyRepairs_outside _ (by simp) (by simp) (by simp) (by simp) (by simp)]
      exact hnew.of_same rfl rfl rfl rfl
    · split
      · simp only [mem_others, Part.isOther, daybookStart_outside, outside_upd_chip_ledger_degrade_reshapes_mgmt, toStep_outside]
        exact queuePasses_numbered _ (by simpa)
      · simp only [mem_others, Part.isOther, daybookStart_outside, outside_upd_chip_ledger_degrade_reshapes_mgmt, toStep_outside]
        exact queuePasses_numbered _ (by simpa)

theorem endStepSeven_numbered {r : State} (s : State) (h : Numbered r (s.outside others)) : Numbered r ((endStepSeven s).outside others) := by
  unfold endStepSeven
  split
  · exact enterStepEight_numbered _ h
  · exact h

theorem compareBooks_numbered {r : State} (s : State) (h : Numbered r (s.outside others)) : Numbered r ((compareBooks s).outside others) := by
  unfold compareBooks
  refine numbered_foldl (fun _ _ hu => ?_) (by simpa)
  dsimp only
  split
  · simpa using cancelReshape_numbered _ _ hu
  · exact hu

theorem shortMembers_numbered {r : State} (s : State) (h : Numbered r (s.outside others)) : Numbered r ((shortMembers s).outside others) :=
  h.of_same rfl rfl rfl rfl

theorem quorum_numbered {r : State} (s : State) (agree : List Nat) (short : List Nat) (h : Numbered r (s.outside others)) : Numbered r ((quorum s agree short).outside others) := by
  unfold quorum
  dsimp only
  split
  · refine endStepSeven_numbered _ (shortMembers_numbered _ ?_)
    refine compareBooks_numbered _ ?_
    split <;> simpa
  · split
    · exact numbered_foldl (fun _ _ hu => by simpa) h
    · simpa

theorem columnVerification_numbered {r : State} (s : State) (i : Nat) (h : Numbered r (s.outside others)) : Numbered r ((columnVerification s i).outside others) := by
  unfold columnVerification
  split
  · exact h
  · split
    · exact h
    · split
      · exact endStepSeven_numbered _ (by simpa)
      · split
        · simpa
        · exact h

/-! ### Registers and configuration -/

theorem clearDrv_numbered {r : State} (s : State) (a : Nat) (lo : Bool) (hi : Bool) (h : Numbered r (s.outside others)) : Numbered r ((clearDrv s a lo hi).outside others) := by
  unfold clearDrv
  split
  · exact h.of_same rfl rfl rfl rfl
  · split
    · exact h.of_same rfl rfl rfl rfl
    · split
      · exact h.of_same rfl rfl rfl rfl
      · exact h

theorem readClear_numbered {r : State} (s : State) (a : Nat) (lo : Bool) (hi : Bool) (h : Numbered r (s.outside others)) : Numbered r ((readClear s a lo hi).outside others) := by
  unfold readClear
  split
  · simpa
  · simpa
  · simpa
  · simpa
  · simpa
  · simpa
  · exact clearDrv_numbered _ _ _ _ h
  · simpa
  · simpa
  · simpa
  · simpa
  · simpa
  · simpa
  · simpa
  · exact h

theorem regAccess_numbered {r : State} (s : State) (a : Nat) (size : Nat) (h : Numbered r (s.outside others)) : Numbered r ((regAccess s a size).1.outside others) := by
  unfold regAccess
  dsimp only
  split
  · exact h
  · split
    · exact h
    · split
      · simpa using readClear_numbered _ _ _ _ h
      · split
        · simpa using readClear_numbered _ _ _ _ (by simpa)
        · split
          · simpa
          · simpa using readClear_numbered _ _ _ _ h

theorem writePmcsr_numbered {r : State} (s : State) (v : Nat) (h : Numbered r (s.outside others)) : Numbered r ((writePmcsr s v).outside others) := by
  unfold writePmcsr
  dsimp only
  split
  · refine d3hot_numbered _ ?_
    split <;> simpa
  · split
    · refine toD0_numbered _ ?_
      split <;> simpa
    · split <;> simpa

theorem writeDevCtl_numbered {r : State} (s : State) (v : Nat) (h : Numbered r (s.outside others)) : Numbered r ((writeDevCtl s v).outside others) := by
  unfold writeDevCtl
  dsimp only
  split
  · exact startReset_numbered _ _ (by simpa)
  · simpa

theorem cfgWrite_numbered {r : State} (s : State) (off : Nat) (v : Nat) (h : Numbered r (s.outside others)) : Numbered r ((cfgWrite s off v).outside others) := by
  unfold cfgWrite
  dsimp only
  split
  · simpa
  · simpa
  · split
    · exact h
    · simpa
  · simpa
  · simpa
  · simpa
  · split
    · exact h
    · simpa
  · simpa
  · exact writePmcsr_numbered _ _ h
  · split
    · exact h
    · simpa
  · simpa
  · simpa
  · simpa
  · simpa
  · exact writeDevCtl_numbered _ _ h
  · simpa
  · simpa
  · split
    · exact h
    · simpa
  · split
    · simpa
    · exact h
  · simpa
  · exact h

theorem configAccess_numbered {r : State} (s : State) (off : Nat) (write : Option Nat) (h : Numbered r (s.outside others)) : Numbered r ((configAccess s off write).outside others) := by
  unfold configAccess
  split
  · exact h
  · split
    · simpa
    · dsimp only
      split
      · simpa
      · simpa using cfgWrite_numbered _ _ _ (by simpa)

theorem controlRead_numbered {r : State} (s : State) (off : Nat) (len : Nat) (h : Numbered r (s.outside others)) : Numbered r ((controlRead s off len).outside others) := by
  unfold controlRead
  split
  · simpa
  · dsimp only
    simpa using regAccess_numbered _ _ _ h

theorem serveDeferred_numbered {r : State} (s : State) (h : Numbered r (s.outside others)) : Numbered r ((serveDeferred s).outside others) := by
  unfold serveDeferred
  split
  · exact h
  · exact numbered_foldl (fun _ _ hu => controlRead_numbered _ _ _ hu) (by simpa)

theorem memoryRequest_numbered {r : State} (s : State) (m : MemReq) (h : Numbered r (s.outside others)) : Numbered r ((memoryRequest s m).outside others) := by
  unfold memoryRequest
  split
  · simpa
  · dsimp only
    split
    · split
      · simpa
      · split
        · exact controlRead_numbered _ _ _ (by simpa)
        · simpa
        · simpa
    · split
      · simpa
      · split
        · simpa
        · split <;> simpa
        · split <;> simpa

theorem smbusReadAt_numbered {r : State} (s : State) (addr : Nat) (h : Numbered r (s.outside others)) : Numbered r ((smbusReadAt s addr).1.outside others) := by
  unfold smbusReadAt
  dsimp only
  split
  · simpa using readClear_numbered _ _ _ _ h
  · simpa

/-! ### Plans -/

theorem planGo_numbered {r : State} (s : State) (tag : Nat) (h : Numbered r (s.outside others)) : Numbered r ((planGo s tag).outside others) := by
  unfold planGo
  split
  · exact needMoved_numbered _ _ h
  · exact needMoved_numbered _ _ (tryPostings_numbered _ _ h)

theorem planReady_numbered {r : State} (s : State) (layout : Nat) (erased : List ChunkId) (h : Numbered r (s.outside others)) : Numbered r ((planReady s layout erased).outside others) := by
  unfold planReady
  split
  · exact h
  · split
    · exact h
    · exact numbered_foldl (fun _ _ hu => planGo_numbered _ _ hu) (by simpa)

theorem serveWaiting_numbered {r : State} (s : State) (h : Numbered r (s.outside others)) : Numbered r ((serveWaiting s).outside others) := by
  unfold serveWaiting
  split
  · exact h
  · exact planGo_numbered _ _ (by simpa)

theorem planUnpin_numbered {r : State} (s : State) (layout : Nat) (erased : List ChunkId) (h : Numbered r (s.outside others)) : Numbered r ((planUnpin s layout erased).outside others) := by
  unfold planUnpin
  split
  · exact h
  · dsimp only
    split
    · exact serveWaiting_numbered _ (by simpa)
    · simpa

/-! ### The close boundary -/

theorem landCut_numbered {r : State} (s : State) (h : Numbered r (s.outside others)) : Numbered r ((landCut s).outside others) := by
  unfold landCut
  split
  · exact numbered_foldl (fun _ _ hu => by simpa using vaultLand_numbered _ _ (by simpa)) (by simpa)
  · exact h

theorem retirements_numbered {r : State} (s : State) (h : Numbered r (s.outside others)) : Numbered r ((retirements s).outside others) :=
  memberBoundary_numbered _ (by simpa using overrunBoundary_numbered _ (by simpa))

theorem resetRow_numbered {r : State} (s : State) (h : Numbered r (s.outside others)) : Numbered r ((resetRow s).outside others) :=
  recordBoundary_numbered _ (resumeBoundary_numbered _ (isolateBoundary_numbered _ (winBoundary_numbered _ (resetBoundary_numbered _ (queueResets_numbered _ (resetAccount_numbered _ h))))))

theorem windowRow_numbered {r : State} (s : State) (h : Numbered r (s.outside others)) : Numbered r ((windowRow s).outside others) :=
  issueParked_numbered _ (by simpa using governor_numbered _ (by simpa using powerBoundary_numbered _ h))

theorem volumeRow_numbered {r : State} (s : State) (h : Numbered r (s.outside others)) : Numbered r ((volumeRow s).outside others) := by
  unfold volumeRow
  simpa using admitBoundary_numbered _ (passBoundary_numbered _ (reshapeBoundary_numbered _ h))

theorem completionRow_numbered {r : State} (s : State) (h : Numbered r (s.outside others)) : Numbered r ((completionRow s).outside others) := by
  unfold completionRow
  dsimp only
  simpa using takeoverBoundary_numbered _ h

theorem readsResume_numbered {r : State} (s : State) (h : Numbered r (s.outside others)) : Numbered r ((readsResume s).outside others) :=
  numbered_foldl (fun _ _ hu => readWaitEnd_numbered _ _ hu) h

theorem planRowBoundary_numbered {r : State} (s : State) (h : Numbered r (s.outside others)) : Numbered r ((planRowBoundary s).outside others) :=
  planDestage_numbered _ (by simpa)

theorem serviceRow_numbered {r : State} (s : State) (h : Numbered r (s.outside others)) : Numbered r ((serviceRow s).outside others) :=
  fillPlaces_numbered _ (retryWrites_numbered _ (needsBoundary_numbered _ (retryStepOne_numbered _ (jobsBoundary_numbered _ (resumeVault_numbered _ (readsResume_numbered _ (readBoundary_numbered _ (by simpa))))))))

theorem intakeRow_numbered {r : State} (s : State) (h : Numbered r (s.outside others)) : Numbered r ((intakeRow s).outside others) :=
  serveDeferred_numbered _ (numbered_foldl (fun _ _ hu => by simpa) h)

theorem boundaryRows_numbered {r : State} (s : State) (h : Numbered r (s.outside others)) : Numbered r ((boundaryRows s).outside others) := by
  unfold boundaryRows
  dsimp only
  split
  · exact intakeRow_numbered _ (by simpa using completionRow_numbered _ (volumeRow_numbered _ (windowRow_numbered _ (resetRow_numbered _ (retirements_numbered _ (by simpa))))))
  · simpa using intakeRow_numbered _ (serviceRow_numbered _ (planRowBoundary_numbered _ (by simpa using completionRow_numbered _ (volumeRow_numbered _ (windowRow_numbered _ (resetRow_numbered _ (retirements_numbered _ (by simpa))))))))

theorem closeBoundary_numbered {r : State} (s : State) (h : Numbered r (s.outside others)) : Numbered r ((closeBoundary s).outside others) := by
  unfold closeBoundary
  split
  · exact h
  · split
    · exact intakeRow_numbered _ (by simpa)
    · dsimp only
      split
      · simpa using landCut_numbered _ (by simpa)
      · exact boundaryRows_numbered _ (by simpa using landCut_numbered _ (by simpa))

end Sys2Proof.Machine
end

section
namespace Sys2Proof.Machine

/-! ## Every command and every step keeps the numbers (O31) -/

/-- Every state that a command answers is numbered as far as `s` is. -/
def StaysNumbered (c : Instr) (s : State) : Prop := ∀ t, exec c s = .next t → Numbered s t

theorem numbered_refl (s : State) : Numbered s (s.outside others) := numbered_outside.2 ⟨fun hs => hs, fun hs => hs⟩

theorem staysNumbered_of_next {c : Instr} {s u : State} (h : exec c s = .next u) (hu : Numbered s (s.outside others) → Numbered s (u.outside others)) : StaysNumbered c s := by
  intro t ht
  obtain rfl : u = t := by simpa [h] using ht
  exact numbered_outside.1 (hu (numbered_refl s))

/-- A command that does nothing unless its row's condition holds. -/
theorem staysNumbered_of_guarded {c : Instr} {s u : State} {p : Prop} [Decidable p] (h : exec c s = .next (if p then u else s)) (hu : Numbered s (s.outside others) → Numbered s (u.outside others)) :
    StaysNumbered c s := by
  refine staysNumbered_of_next h (fun hs => ?_)
  split
  · exact hu hs
  · exact hs

/-- A command that may change neither the works nor the drives. -/
theorem staysNumbered_of_mayChange {c : Instr} {s : State} (hworks : .works ∉ mayChange c) (hnext : .nextWork ∉ mayChange c) (hdrives : .drives ∉ mayChange c) : StaysNumbered c s := by
  intro t ht
  have hframe := exec_staysInParts c s t ht
  have hsame := same_drives hframe hdrives
  exact numbered_outside.1 ((numbered_refl s).of_same (same_works hframe hworks) (same_nextWork hframe hnext) (congrArg Drives.cmds hsame) (congrArg Drives.nextCmd hsame))

/-! ### The commands that split on more than one condition -/

theorem pwrgdRise_staysNumbered {p : PowerOn} {s : State} : StaysNumbered (.pwrgdRise p) s := by
  refine staysNumbered_of_next rfl (fun h => ?_)
  split
  · exact h
  · dsimp only
    split
    · exact (carried_numbered s).of_same rfl rfl rfl rfl
    · exact startUp_numbered _ _ _

theorem pwrgdFall_staysNumbered {holdUp : Bool} {s : State} : StaysNumbered (.pwrgdFall holdUp) s := by
  refine staysNumbered_of_next rfl (fun h => ?_)
  split
  · exact h
  · exact carried_numbered _

theorem negotiationWaitExpiry_staysNumbered {s : State} : StaysNumbered .negotiationWaitExpiry s := by
  refine staysNumbered_of_guarded rfl (fun h => ?_)
  split
  · exact contend_numbered _ h
  · simpa

theorem perstDeassert_staysNumbered {closersPass : List Bool} {s : State} : StaysNumbered (.perstDeassert closersPass) s := by
  refine staysNumbered_of_next rfl (fun h => ?_)
  split
  · exact h
  · exact startUp_numbered _ _ _

theorem preemptCompletion_staysNumbered {pos : Nat} {success : Bool} {s : State} : StaysNumbered (.preemptCompletion pos success) s := by
  refine staysNumbered_of_next rfl (fun h => ?_)
  have hdropped := dropRegistryCmd_numbered s pos .preempt h
  split
  · exact hdropped
  · dsimp only
    split
    · split
      · split
        · exact startRecord_numbered _ _ _ _ (hdropped.of_same rfl rfl rfl rfl)
        · exact toRegistry_numbered _ _ _ (hdropped.of_same rfl rfl rfl rfl)
      · exact hdropped.of_same rfl rfl rfl rfl
    · split
      · split
        · exact startRecord_numbered _ _ _ _ (hdropped.of_same rfl rfl rfl rfl)
        · exact toRegistry_numbered _ _ _ (hdropped.of_same rfl rfl rfl rfl)
      · exact hdropped.of_same rfl rfl rfl rfl

theorem witnessRecordWrite_staysNumbered {pos : Nat} {s : State} : StaysNumbered (.witnessRecordWrite pos) s := by
  refine staysNumbered_of_next rfl (fun h => ?_)
  have hdropped := dropRegistryCmd_numbered s pos .witnessWrite h
  dsimp only
  split
  · exact hdropped
  · split
    · exact hdropped
    · split <;> split <;> simpa

theorem joinCurrent_staysNumbered {s : State} : StaysNumbered .joinCurrent s := by
  refine staysNumbered_of_next rfl (fun h => ?_)
  split
  · exact h
  · split
    · split
      · exact startRecord_numbered _ _ _ _ h
      · exact h
    · split
      · simpa
      · exact h

theorem holdoffExpiry_staysNumbered {layout row : Nat} {s : State} : StaysNumbered (.holdoffExpiry layout row) s := by
  refine staysNumbered_of_guarded rfl (fun h => ?_)
  dsimp only
  split
  · exact planRow_numbered _ _ _ (by simpa)
  · simpa

theorem holdRelease_staysNumbered {work : Nat} {s : State} : StaysNumbered (.holdRelease work) s := by
  refine staysNumbered_of_next rfl (fun h => ?_)
  split
  · split
    · exact dropWork_numbered _ _ h
    · exact h
  · exact h

theorem lateRead_staysNumbered {cmd : Nat} {data : List Byte} {s : State} : StaysNumbered (.lateRead cmd data) s := by
  refine staysNumbered_of_next rfl (fun h => ?_)
  split
  · split
    · exact lateRead_numbered _ _ _ (backOnline_numbered _ _ h)
    · exact h
  · exact h

theorem notReadyRetry_staysNumbered {cmd : Nat} {s : State} : StaysNumbered (.notReadyRetry cmd) s := by
  refine staysNumbered_of_next rfl (fun h => ?_)
  split
  · split
    · exact h
    · split
      · exact reconstruct_numbered _ _ h
      · exact reissueMc_numbered _ _ h
  · exact h

theorem registerReadClear_staysNumbered {addr size : Nat} {s : State} : StaysNumbered (.registerReadClear addr size) s := by
  refine staysNumbered_of_next rfl (fun h => ?_)
  split
  · exact controlRead_numbered _ _ _ h
  · simpa

/-! ### All of them -/

/-- Every command keeps the numbers: by its operation's lemma, or because it may change none of the parts that hold them. -/
theorem exec_staysNumbered (c : Instr) (s : State) : StaysNumbered c s := by
  cases c with
  | pwrgdRise => exact pwrgdRise_staysNumbered
  | pwrgdFall => exact pwrgdFall_staysNumbered
  | negotiationWaitExpiry => exact negotiationWaitExpiry_staysNumbered
  | perstDeassert => exact perstDeassert_staysNumbered
  | preemptCompletion => exact preemptCompletion_staysNumbered
  | witnessRecordWrite => exact witnessRecordWrite_staysNumbered
  | joinCurrent => exact joinCurrent_staysNumbered
  | holdoffExpiry => exact holdoffExpiry_staysNumbered
  | holdRelease => exact holdRelease_staysNumbered
  | lateRead => exact lateRead_staysNumbered
  | registerReadClear => exact registerReadClear_staysNumbered
  | notReadyRetry => exact notReadyRetry_staysNumbered
  | ledgerRecovery => exact staysNumbered_of_next rfl (ledgerRecovery_numbered _ _)
  | registryQuorumCheck => exact staysNumbered_of_guarded rfl (quorum_numbered _ _ _)
  | registryQuorumRetry => exact staysNumbered_of_guarded rfl (quorum_numbered _ _ _)
  | columnVerification => exact staysNumbered_of_next rfl (columnVerification_numbered _ _)
  | pairNegotiation => exact staysNumbered_of_next rfl (negotiation_numbered _)
  | closeBoundary => exact staysNumbered_of_next rfl (closeBoundary_numbered _)
  | read => exact staysNumbered_of_next rfl (readRow_numbered _ _ _)
  | verify => exact staysNumbered_of_next rfl (readRow_numbered _ _ _)
  | readWaitEnd => exact staysNumbered_of_next rfl (readWaitEnd_numbered _ _)
  | get => exact staysNumbered_of_next rfl (vaultReader_numbered _ _ _)
  | stat => exact staysNumbered_of_next rfl (vaultReader_numbered _ _ _)
  | list => exact staysNumbered_of_next rfl (vaultReader_numbered _ _ _)
  | auditObject => exact staysNumbered_of_next rfl (vaultReader_numbered _ _ _)
  | backgroundAudit => exact staysNumbered_of_guarded rfl (backgroundAudit_numbered _ _)
  | digestMismatchRepair => exact staysNumbered_of_guarded rfl (digestRepair_numbered _ _ _)
  | functionLevelReset => exact staysNumbered_of_guarded rfl (startReset_numbered _ _)
  | hotReset => exact staysNumbered_of_next rfl (startReset_numbered _ _)
  | resetComplete => exact staysNumbered_of_guarded rfl (resetBoundary_numbered _)
  | memoryRequest => exact staysNumbered_of_next rfl (memoryRequest_numbered _ _)
  | configAccess => exact staysNumbered_of_next rfl (configAccess_numbered _ _ _)
  | d3hotWrite => exact staysNumbered_of_guarded rfl (d3hot_numbered _)
  | dormantEntry => exact staysNumbered_of_guarded rfl (dormantBoundary_numbered _)
  | d0Write => exact staysNumbered_of_guarded rfl (toD0_numbered _)
  | restEntry => exact staysNumbered_of_guarded rfl (restBoundary_numbered _)
  | entryDeadlineExpiry => exact staysNumbered_of_guarded rfl (restBoundary_numbered _)
  | streamFrameArrival => exact staysNumbered_of_guarded rfl (frameArrives_numbered _ _ _)
  | tallyReceipt => exact staysNumbered_of_next rfl (tally_numbered _ _ _ _ _ _)
  | partnerFailed => exact staysNumbered_of_next rfl (declareFailed_numbered _)
  | failedTally path => cases path <;> exact staysNumbered_of_next rfl (failedSeen_numbered _)
  | detachDelayExpiry => exact staysNumbered_of_guarded rfl (fun h => startRecord_numbered _ _ _ _ (by simpa))
  | arbitrationWin => exact staysNumbered_of_next rfl (winRow_numbered _)
  | arbitrationRetry => exact staysNumbered_of_guarded rfl (fun h => toRegistry_numbered _ _ _ (by simpa))
  | takeoverDecision => exact staysNumbered_of_guarded rfl (decide'_numbered _)
  | join => exact staysNumbered_of_next rfl (join_numbered _)
  | stripeReadComplete => exact staysNumbered_of_next rfl (stripeReadComplete_numbered _ _)
  | stripeWriteComplete => exact staysNumbered_of_next rfl (stripeWriteComplete_numbered _ _)
  | checkpointComplete => exact staysNumbered_of_guarded rfl (checkpointComplete_numbered _ _)
  | mapBitSet => exact staysNumbered_of_next rfl (mapBitSet_numbered _ _)
  | regionTableFreed => exact staysNumbered_of_next rfl (fun h => numbered_foldl (fun _ _ hu => mapBitSet_numbered _ _ hu) h)
  | resynchronisation => exact staysNumbered_of_next rfl (resynchronise_numbered _ _ _)
  | postingPush => exact staysNumbered_of_next rfl (postingPush_numbered _ _)
  | postingFinish => exact staysNumbered_of_guarded rfl (fun h => postingFinish_numbered _ _ (by simpa))
  | holdRequest => exact staysNumbered_of_next rfl (holdRequest_numbered _ _)
  | scratchAccess => exact staysNumbered_of_next rfl (scratchCycle_numbered _ _)
  | planReady => exact staysNumbered_of_next rfl (planReady_numbered _ _ _)
  | planUnpin => exact staysNumbered_of_next rfl (planUnpin_numbered _ _ _)
  | memberCommandCompletion => exact staysNumbered_of_next rfl (memberCompletion_numbered _ _ _ _)
  | memberTimeout => exact staysNumbered_of_next rfl (commandTimeout_numbered _ _)
  | suspectPoll => exact staysNumbered_of_guarded rfl (fun h => issue_numbered _ _ _ _ _ _ _ (modMem_numbered _ _ _ h))
  | suspectLimitExpiry => exact staysNumbered_of_guarded rfl (modMem_numbered _ _ _)
  | discoveryMissingExpiry => exact staysNumbered_of_guarded rfl (modMem_numbered _ _ _)
  | mediaRepair => exact staysNumbered_of_next rfl (mediaRepair_numbered _ _ _ _ _ _)
  | rowRestore => exact staysNumbered_of_guarded rfl (rowRestore_numbered _ _)
  | lossEntriesDurable => exact staysNumbered_of_guarded rfl (lossDurable_numbered _ _ _)
  | sealRow => exact staysNumbered_of_next rfl (sealRow_numbered _ _ _ _)
  | localScrub => exact staysNumbered_of_guarded rfl (localScrub_numbered _ _ _ _ _)
  | globalScrubBatch => exact staysNumbered_of_guarded rfl (globalScrub_numbered _ _ _ _)
  | regionCopy => exact staysNumbered_of_guarded rfl (regionCopy_numbered _ _)
  | closingEnd => exact staysNumbered_of_guarded rfl (closingEnd_numbered _ _)
  | shelfPowerOk => exact staysNumbered_of_next rfl (shelfPower_numbered _ _ _)
  | staggerStep => exact staysNumbered_of_next rfl (staggerStep_numbered _ _)
  | spinUpLimitExpiry => exact staysNumbered_of_guarded rfl (spinUpLimit_numbered _ _)
  | groupDown => exact staysNumbered_of_guarded rfl (groupDown_numbered _ _)
  | broadcastChange => exact staysNumbered_of_next rfl (fun h => h.of_same rfl rfl rfl rfl)
  | discoveryRunEnd => exact staysNumbered_of_guarded rfl (discoveryEnd_numbered _ _ _ _ _)
  | smbusRead => exact staysNumbered_of_guarded rfl (fun h => by simpa using smbusReadAt_numbered _ _ h)
  | mctpVendorRead => exact staysNumbered_of_guarded rfl (fun h => by simpa using smbusReadAt_numbered _ _ h)
  | spinUpPoll => exact staysNumbered_of_guarded rfl (modMem_numbered _ _ _)
  | _ => exact staysNumbered_of_mayChange (by delta mayChange; exact of_decide_eq_true rfl) (by delta mayChange; exact of_decide_eq_true rfl) (by delta mayChange; exact of_decide_eq_true rfl)

/-- The queue and the clock hold no number. -/
theorem step_numbered {s t : State} (h : step s = .next t) : Numbered s t := by
  unfold step at h
  split at h
  · cases h
    unfold tick
    split
    · exact numbered_outside.1 ((numbered_refl s).of_same rfl rfl rfl rfl)
    · exact numbered_outside.1 (numbered_refl s)
  · next c rest _ =>
    obtain ⟨hworks, hcmds⟩ := exec_staysNumbered c { s with pending := rest } t h
    exact ⟨hworks, hcmds⟩

/-- Settles O31: of a state that is numbered every step makes one that is, by `exec_staysNumbered`. -/
theorem worksAreNumbered : Obligations.WorksAreNumbered :=
  ⟨fun _ hw => absurd hw List.not_mem_nil, fun _ _ hs h => (step_numbered h).1 hs, fun _ hk => absurd hk List.not_mem_nil, fun _ _ hs h => (step_numbered h).2 hs⟩

end Sys2Proof.Machine
end
